-- ==== Sys2Proof/Word.lean ====
section
/-!
DEFINITION. The word types of the module: bytes, register words, binary32 bit patterns, identifiers of objects.
-/
namespace Sys2Proof

/-- One byte. -/
abbrev Byte := BitVec 8

/-- One register word (R359: register accesses are 32 bits wide). -/
abbrev Word := BitVec 32

/-- A binary32 value as its bit pattern. -/
abbrev F32 := BitVec 32

/-- Device time: TAI nanoseconds since 1970 (R4). -/
abbrev Time := Nat

end Sys2Proof
end

