-- ==== Sys2Proof/Syntax.lean ====
section
/-!
DEFINITION. The commands the module takes: one constructor per row of spec/opcode_table.json, with the operands the
row's rule names. What the surroundings measure or send is an operand.
-/
namespace Sys2Proof

/-- Who sends a request to the dictionary service (R331, R343): the requester (0 this module, 2^24 + node over the fabric, 2^25
+ channel × 256 + address over CAN), the TAG, the SEQ of its frame, the requests that wait before it, and the serial number
and epoch its frame carries. -/
structure Req where
  who : Nat
  tag : Nat
  seq : Nat
  waiting : Nat
  serial : Nat
  epoch : Nat
deriving DecidableEq, Repr

/-- What the hardware tests of a start find: the self-test code of each application core, 0 passed (R356); rows that fail the
SRAM self-test, by macro (R375); macros whose stored repair record fails its CRC (R375); the hold-up time in 0.1 ms (R411);
whether the device key is reconstructed from the PUF (R485); uncorrectable words of copy 0 of the Ember store, each with whether
copy 1 is good (R383); the stop inputs whose level lies in the band, bit 0 STOP_A, bit 1 STOP_B (R126); the reset kinds whose
cause comes while the start runs (R422); the steps that exceed their bound, each with its duration in µs (R426); the sequences
of event records whose CRC fails (R446). -/
structure Found where
  cores : List Nat := []
  rows : List (Nat × Nat) := []
  badRepairs : List Nat := []
  holdup : Nat := 300
  puf : Bool := true
  ember : List (Nat × Bool) := []
  band : Nat := 0
  during : List Nat := []
  overran : List (Nat × Nat) := []
  records : List Nat := []
deriving DecidableEq, Repr

/-- A machine function as the mirror carries it (R236): its number, state, present and commanded value, the ticks that are left
of its freeze and to its settle instant, and whether its search direction is −1. -/
structure MirrorFn where
  fn : Nat
  state : Nat
  present : BitVec 32
  commanded : BitVec 32
  freeze : Nat
  settle : Nat
  down : Bool
deriving DecidableEq, Repr

/-- The contents of a MIRROR block (R289, R236): dictionary writes as index, sub-index, type and bytes; estimates of fused
quantities with their instant; the governor's functions, the ticks since each rule last acted, the search pointer, and the
function under trial with its value before the trial; pending section commands as section, instant, state and whether a change of mode or a
fallback sent them; node IDs with their serial numbers (R275). -/
structure MirrorBlock where
  writes : List (Nat × Nat × Nat × List Byte) := []
  estimates : List (Nat × Time × List (BitVec 32)) := []
  functions : List MirrorFn := []
  rules : List (Nat × Nat) := []
  pointer : Option Nat := none
  trial : Option (Nat × BitVec 32) := none
  schedule : List (Nat × Time × Bool × Bool) := []
  nodes : List (Nat × Nat) := []
deriving DecidableEq, Repr

/-- A flue frame (R270, R271): VID and PCP of its tag, its addresses, the fields of Table 12-2, its payload and its end-to-end
check. -/
structure FlueFrame where
  vid : Nat := 245
  pcp : Nat
  dest : Nat := 0x035C48000000
  source : Nat
  ver : Nat := 3
  cls : Nat
  inbound : Bool := false
  flood : Bool := false
  path : List Nat := []
  pidx : Nat := 0
  kind : Nat
  src : Nat
  dst : Nat
  epoch : Nat := 1
  alive : Nat := 0
  flags : Nat := 0
  seq : Nat := 0
  payload : List Byte := []
  check : Nat := 0
deriving DecidableEq, Repr

/-- Another Ethernet frame (R270): VID and PCP of its tag where it has one, EtherType, addresses, payload. -/
structure OtherFrame where
  tag : Option (Nat × Nat)
  etherType : Nat
  dest : Nat
  source : Nat
  payload : List Byte := []
deriving DecidableEq, Repr

/-- A frame on a fabric port. -/
inductive PortFrame where
  | flue (f : FlueFrame)
  | other (f : OtherFrame)
deriving DecidableEq, Repr

/-- A tracked signal as the receiver observes it at a measurement latch: signal and PRN (Table 8-1), elevation in degrees, C/N0 in
0.1 dB-Hz, pseudorange in mm (R199). -/
structure GnSignal where
  sig : Nat
  prn : Nat
  elev : BitVec 32
  cn0 : Nat
  range : Int
deriving DecidableEq, Repr

/-- What the receiver observes at a measurement latch: the signals, the AGC gain of L1 and L5 in 0.5 dB, and the learned level
of each band: gain in 0.5 dB and mean C/N0 in 0.1 dB-Hz (R183, R199). -/
structure GnObs where
  signals : List GnSignal := []
  gains : List Nat := []
  levels : List (Nat × Nat) := []
deriving DecidableEq, Repr

/-- The commands (spec/opcode_table.json). Each constructor's comment names the row and its rule. -/
inductive Instr where
  | registerWrite (who : Nat) (addr : Nat) (size : Nat) (value : Word)   -- REGISTER_WRITE, R6
  | counterClear (addr : Nat)   -- COUNTER_CLEAR, R57
  | openEntry (entry : Nat)   -- OPEN_ENTRY, R16
  | trellisEntryWrite (entry : Nat) (bytes : List Byte)   -- TRELLIS_ENTRY_WRITE, R350
  | commitRequest   -- COMMIT_REQUEST, R17
  | cancel   -- CANCEL, R351
  | prepare (boundary : Time)   -- PREPARE, R351
  | go   -- GO, R20
  | epochBoundaryCommit   -- EPOCH_BOUNDARY_COMMIT, R18
  | ringConfigWrite (ring : Nat) (bytes : List Byte)   -- RING_CONFIG_WRITE, R352
  | stopInputChange (k : Nat) (asserted : Bool)   -- STOP_INPUT_CHANGE, R127
  | stopBandTimeout (k : Nat) (decivolt : Nat)   -- STOP_BAND_TIMEOUT, R126
  | stopFrameRepeat   -- STOP_FRAME_REPEAT, R29
  | stopFrameReceive (port : Nat) (frame : FlueFrame) (fcsOk : Bool)   -- STOP_FRAME_RECEIVE, R272
  | softwareStop (on : Bool)   -- SOFTWARE_STOP, R30
  | stopRemoteExpiry   -- STOP_REMOTE_EXPIRY, R128
  | stopRelease   -- STOP_RELEASE, R128
  | rearm   -- REARM, R129
  | stopDiscrepancy   -- STOP_DISCREPANCY, R130
  | frameBoundary   -- FRAME_BOUNDARY, R32
  | ceEnable   -- CE_ENABLE, R33
  | ceDisable   -- CE_DISABLE, R33
  | loopRun (n : Nat)   -- LOOP_RUN, R51
  | loopStop (n : Nat)   -- LOOP_STOP, R49
  | loopApply (n : Nat)   -- LOOP_APPLY, R50
  | loopTripclr (n : Nat)   -- LOOP_TRIPCLR, R51
  | reclaim   -- RECLAIM, R53
  | reclaimFrame (bad : Nat)   -- RECLAIM_FRAME, R53
  | statusFrameReceive (d seq : Nat) (crcOk : Bool) (measured : List (Nat × Nat))   -- STATUS_FRAME_RECEIVE, R84
  | stageLinkLoss (d : Nat)   -- STAGE_LINK_LOSS, R56
  | stageLinkReturn (d : Nat)   -- STAGE_LINK_RETURN, R56
  | sdOnCommand (n : Nat)   -- SD_ON_COMMAND, R60
  | sdOffCommand (n : Nat)   -- SD_OFF_COMMAND, R67
  | sdModeWrite (n : Nat) (value : Word)   -- SD_MODE_WRITE, R60
  | pullinGrant (b : Nat)   -- PULLIN_GRANT, R74
  | peakReached (n tpk microA : Nat) (dip : Option (Nat × Nat))   -- PEAK_REACHED, R63
  | tpkMaxExpiry (n : Nat) (dip : Option (Nat × Nat))   -- TPK_MAX_EXPIRY, R81
  | peakDwellEnd (n : Nat)   -- PEAK_DWELL_END, R74
  | decayEnd (n : Nat)   -- DECAY_END, R67
  | pullinWaitLate (n : Nat)   -- PULLIN_WAIT_LATE, R76
  | sdPwmCycleStart (n : Nat)   -- SD_PWM_CYCLE_START, R72
  | sdPwmOnEnd (n : Nat)   -- SD_PWM_ON_END, R72
  | sdClampEventEnd (b : Nat) (microJ : Nat)   -- SD_CLAMP_EVENT_END, R68
  | sdBucketLeak (b : Nat)   -- SD_BUCKET_LEAK, R68
  | bankUnlock (b : Nat)   -- BANK_UNLOCK, R69
  | bankSwitchClear (b : Nat) (tj : Nat)   -- BANK_SWITCH_CLEAR, R79
  | bankArm (b : Nat)   -- BANK_ARM, R80
  | bankDisarm (b : Nat)   -- BANK_DISARM, R80
  | bankSwitchLimit (b : Nat) (tj : Nat)   -- BANK_SWITCH_LIMIT, R79
  | bankSwitchTrip (b : Nat) (tj : Nat)   -- BANK_SWITCH_TRIP, R79
  | sdOverCurrent (n : Nat) (milliamp : Nat)   -- SD_OVER_CURRENT, R83
  | sdOpenLoad (n : Nat) (milliamp : Nat)   -- SD_OPEN_LOAD, R83
  | sdFclr (n : Nat)   -- SD_FCLR, R83
  | stageHoldEntry (d : Nat)   -- STAGE_HOLD_ENTRY, R84
  | bankHoldExpiry (b : Nat)   -- BANK_HOLD_EXPIRY, R86
  | bankFailOffDisarm (b : Nat)   -- BANK_FAIL_OFF_DISARM, R88
  | loadDumpEntry (k : Nat) (decivolt : Nat)   -- LOAD_DUMP_ENTRY, R89
  | loadDumpEnd (k : Nat) (decivolt : Nat)   -- LOAD_DUMP_END, R89
  | sdDieReset (d : Nat)   -- SD_DIE_RESET, R90
  | lsSwitchOn (n : Nat)   -- LS_SWITCH_ON, R94
  | lsSwitchOff (n : Nat)   -- LS_SWITCH_OFF, R101
  | lsModeWrite (n : Nat) (value : Word)   -- LS_MODE_WRITE, R93
  | lsPwmCycleStart (n : Nat)   -- LS_PWM_CYCLE_START, R95
  | lsPwmOnEnd (n : Nat)   -- LS_PWM_ON_END, R95
  | inrushWindowEnd (n : Nat)   -- INRUSH_WINDOW_END, R97
  | lsLimit (n : Nat) (ampere : Nat) (ongoing : Bool)   -- LS_LIMIT, R98
  | lsThermalShutdown (n : Nat) (tj : Nat) (tref : Int)   -- LS_THERMAL_SHUTDOWN, R99
  | lsAutoRestart (n : Nat) (tj : Nat) (tref : Int)   -- LS_AUTO_RESTART, R100
  | lsRestartCountReset (n : Nat)   -- LS_RESTART_COUNT_RESET, R100
  | lsFclr (n : Nat)   -- LS_FCLR, R100
  | lsClampEventEnd (n : Nat) (microJ : Nat)   -- LS_CLAMP_EVENT_END, R101
  | lsBucketLeak (n : Nat)   -- LS_BUCKET_LEAK, R101
  | lsUnlock (n : Nat)   -- LS_UNLOCK, R102
  | openLoadOn (n : Nat)   -- OPEN_LOAD_ON, R104
  | openLoadOff (n : Nat)   -- OPEN_LOAD_OFF, R104
  | shortToBattery (n : Nat)   -- SHORT_TO_BATTERY, R104
  | groupArm (g : Nat)   -- GROUP_ARM, R105
  | groupDisarm (g : Nat)   -- GROUP_DISARM, R105
  | groupHoldExpiry (g : Nat)   -- GROUP_HOLD_EXPIRY, R106
  | lsDeferralEntry (k : Nat) (decivolt : Nat)   -- LS_DEFERRAL_ENTRY, R108
  | lsDeferralEnd (k : Nat) (decivolt : Nat)   -- LS_DEFERRAL_END, R108
  | powerGroundLoss (d : Nat)   -- POWER_GROUND_LOSS, R109
  | logicGroundLoss (d : Nat)   -- LOGIC_GROUND_LOSS, R110
  | lsDieReset (d : Nat)   -- LS_DIE_RESET, R112
  | aiSample (n : Nat) (x : F32)   -- AI_SAMPLE, R115
  | aiConfigWrite (n : Nat) (value : Word)   -- AI_CONFIG_WRITE, R116
  | aiLatchedFault (n : Nat)   -- AI_LATCHED_FAULT, R114
  | aiFclr (n : Nat)   -- AI_FCLR, R114
  | supplyFault (k : Nat) (millivolt milliamp : Nat)   -- SUPPLY_FAULT, R117
  | supplyClear (k : Nat)   -- SUPPLY_CLEAR, R117
  | pulseEdge (n : Nat) (level both : Bool) (t : Time)   -- PULSE_EDGE, R118
  | pulsePublication (n : Nat)   -- PULSE_PUBLICATION, R120
  | piCountClear (n : Nat)   -- PI_COUNT_CLEAR, R119
  | bridgeConversion (b : Nat) (vdiff vexc : F32) (excLimited outOfRange : Bool) (t : Time)   -- BRIDGE_CONVERSION, R121
  | bridgeSenseOpen (b : Nat)   -- BRIDGE_SENSE_OPEN, R121
  | bridgeSenseRestore (b : Nat)   -- BRIDGE_SENSE_RESTORE, R121
  | lossImpact (n : Nat) (peak : Nat) (t : Time)   -- LOSS_IMPACT, R122
  | lossIntervalEnd (n : Nat)   -- LOSS_INTERVAL_END, R123
  | imuSample (ax ay az gx gy gz temp : F32) (delivered : Bool)   -- IMU_SAMPLE, R125
  | imuFault (code : Nat)   -- IMU_FAULT, R125
  | fusionEpoch (q : Nat) (overrun : Bool)   -- FUSION_EPOCH, R132
  | slotSample (slot : Nat)   -- SLOT_SAMPLE, R141
  | disputeHorizon (q : Nat)   -- DISPUTE_HORIZON, R153
  | quantityReset (q : Nat)   -- QUANTITY_RESET, R154
  | slotConfigApply   -- SLOT_CONFIG_APPLY, R139
  | calibrationUpdate (slot : Nat)   -- CALIBRATION_UPDATE, R155
  | calibrationStore (slot : Nat)   -- CALIBRATION_STORE, R156
  | fusionJobSubmit (queue : Nat) (value : Word)   -- FUSION_JOB_SUBMIT, R158
  | fusionJobStart   -- FUSION_JOB_START, R159
  | fusionJobComplete   -- FUSION_JOB_COMPLETE, R160
  | fusionCqAck (queue head : Nat)   -- FUSION_CQ_ACK, R160
  | fusionJobAbort (queue tag : Nat)   -- FUSION_JOB_ABORT, R160
  | camFeedFault (c milliamp : Nat)   -- CAM_FEED_FAULT, R162
  | camFeedSwitch (c : Nat) (on : Bool)   -- CAM_FEED_SWITCH, R162
  | csiPacket (c vc dt headerBits : Nat) (crcOk : Bool) (number : Nat) (codes : List Nat)   -- CSI_PACKET, R163
  | camFrameStart (c number : Nat)   -- CAM_FRAME_START, R164
  | mergeTimeout (c : Nat)   -- MERGE_TIMEOUT, R164
  | camFrameEnd (c : Nat) (behind : List Nat)   -- CAM_FRAME_END, R177
  | tapAck (c a index : Nat)   -- TAP_ACK, R177
  | frameSyncEdge (c : Nat)   -- FRAME_SYNC_EDGE, R166
  | camApply (c : Nat)   -- CAM_APPLY, R173
  | camEnable (c : Nat)   -- CAM_ENABLE, R174
  | camLinkLoss (c : Nat)   -- CAM_LINK_LOSS, R167
  | camLinkRegain (c : Nat)   -- CAM_LINK_REGAIN, R167
  | replayFrame (c : Nat)   -- REPLAY_FRAME, R175
  | i2cTransferStart (c : Nat) (value : Word)   -- I2C_TRANSFER_START, R167
  | i2cTransferEnd (c : Nat) (ack : Bool) (data : Nat)   -- I2C_TRANSFER_END, R167
  | antennaShort (milliamp : Nat)   -- ANTENNA_SHORT, R182
  | antennaRetry (limits : Bool)   -- ANTENNA_RETRY, R182
  | antennaOpen (milliamp : Nat)   -- ANTENNA_OPEN, R182
  | antennaClear   -- ANTENNA_CLEAR, R182
  | acqGo (value : Word)   -- ACQ_GO, R184
  | acqDone (codePhase : Nat) (doppler : Word) (peak : Nat) (t : Time)   -- ACQ_DONE, R184
  | channelEnable (n : Nat)   -- CHANNEL_ENABLE, R188
  | channelDisable (n : Nat)   -- CHANNEL_DISABLE, R188
  | channelDump (n : Nat) (t : Time) (data pilot : List Word)   -- CHANNEL_DUMP, R189
  | dumpInterrupt   -- DUMP_INTERRUPT, R189
  | ncoCommit (n slip : Nat)   -- NCO_COMMIT, R190
  | dumpAck (n seq : Nat)   -- DUMP_ACK, R191
  | measLatch   -- MEAS_LATCH, R192
  | navMessage (sig prn typ : Nat) (t : Time) (len : Nat) (data : List Byte) (passed : Bool) (utc : Option (Nat × Nat))   -- NAV_MESSAGE, R194
  | positionFix (fix : Nat) (seen : GnObs) (place : Nat × Nat × Nat) (sigmas velocity : List F32) (residuals : List (Nat × Nat × F32)) (drift : Nat) (jump err : Int) (sigmaClock : Nat)   -- POSITION_FIX, R195
  | rtcmFrame (source : Nat) (bytes : List Byte)   -- RTCM_FRAME, R198
  | correctionsOld   -- CORRECTIONS_OLD, R198
  | timeLocked   -- TIME_LOCKED, R201
  | timeHoldover   -- TIME_HOLDOVER, R201
  | timeFreerun   -- TIME_FREERUN, R201
  | timeWrite (t : Time)   -- TIME_WRITE, R206
  | tpoPulse (k : Nat)   -- TPO_PULSE, R207
  | tpiEdge (t : Time)   -- TPI_EDGE, R208
  | slewWrite (value : Word)   -- SLEW_WRITE, R209
  | stepArm   -- STEP_ARM, R210
  | stepCancel   -- STEP_CANCEL, R210
  | stepPending   -- STEP_PENDING, R210
  | timeStepExecute   -- TIME_STEP_EXECUTE, R210
  | governorEnable (value : Nat)   -- GOVERNOR_ENABLE, R221
  | governorTick   -- GOVERNOR_TICK, R234
  | freezeEnd (m : Nat)   -- FREEZE_END, R223
  | settleInstant (m : Nat)   -- SETTLE_INSTANT, R217
  | governorWindowEnd   -- GOVERNOR_WINDOW_END, R228
  | taskOpen (task : Nat)   -- TASK_OPEN, R240
  | taskClose   -- TASK_CLOSE, R240
  | recordingStart   -- RECORDING_START, R240
  | taskDelete (task : Nat)   -- TASK_DELETE, R243
  | taskExport (task : Nat)   -- TASK_EXPORT, R244
  | exportEnd (done : Bool)   -- EXPORT_END, R244
  | tileShare (row col : Int)   -- TILE_SHARE, R245
  | remoteTileMerge (bytes : List Byte)   -- REMOTE_TILE_MERGE, R245
  | gatehouseTick   -- GATEHOUSE_TICK, R247
  | sectionModeWrite (section_ value : Nat)   -- SECTION_MODE_WRITE, R247
  | ghCommandSubmit (ts issue : Nat) (value : Word)   -- GH_COMMAND_SUBMIT, R249
  | ghCommandExecute   -- GH_COMMAND_EXECUTE, R250
  | ghFlush   -- GH_FLUSH, R252
  | ghDisable   -- GH_DISABLE, R252
  | ghEpochWrite (v : Nat)   -- GH_EPOCH_WRITE, R253
  | steeringTick   -- STEERING_TICK, R261
  | engageRequest (value : Nat)   -- ENGAGE_REQUEST, R263
  | lineGeometryWrite (bytes : List Byte)   -- LINE_GEOMETRY_WRITE, R257
  | steeringWatch   -- STEERING_WATCH, R267
  | portLinkChange (p : Nat) (up : Bool) (sqi : Nat) (preempt : Bool)   -- PORT_LINK_CHANGE, R275
  | helloSend (p : Nat)   -- HELLO_SEND, R275
  | helloReceive (port via viaPort ownPort serial role verLo verHi rev gen epoch setter : Nat)   -- HELLO_RECEIVE, R275
  | assignReceive (port id up : Nat) (path : List Nat) (s1 s2 sender serial epoch : Nat)   -- ASSIGN_RECEIVE, R278
  | bindingRelease   -- BINDING_RELEASE, R278
  | flueFrameForward (port : Nat) (frame : PortFrame) (fcsOk : Bool) (waited : Nat)   -- FLUE_FRAME_FORWARD, R272
  | ringchkFlood (returned : Bool)   -- RINGCHK_FLOOD, R280
  | ringHeal (a pa b pb micros : Nat)   -- RING_HEAL, R281
  | streamReceive (cls sender serial epoch : Nat) (fromHearth : Bool) (entries : List (Nat × Nat × Time × List Byte))   -- STREAM_RECEIVE, R282
  | setptFlood   -- SETPT_FLOOD, R283
  | setptReceive (sender serial epoch : Nat) (entries : List (Nat × Nat × Time × List Byte))   -- SETPT_RECEIVE, R283
  | nodeHoldExpiry   -- NODE_HOLD_EXPIRY, R284
  | gptpSync (offset : Int) (quality unc : Nat)   -- GPTP_SYNC, R285
  | syncLoss   -- SYNC_LOSS, R285
  | acceptReplacement (id : Nat)   -- ACCEPT_REPLACEMENT, R288
  | mirrorSend   -- MIRROR_SEND, R289
  | heartbeatSend   -- HEARTBEAT_SEND, R289
  | heartbeatReceive (kind path sender serial epoch seq : Nat)   -- HEARTBEAT_RECEIVE, R292
  | startWaitEnd   -- START_WAIT_END, R290
  | takeover   -- TAKEOVER, R290
  | epochReset (value : Nat)   -- EPOCH_RESET, R294
  | epochrstReceive (serial header old new : Nat)   -- EPOCHRST_RECEIVE, R294
  | ackRetransmit (seq : Nat)   -- ACK_RETRANSMIT, R295
  | chimneyConnect (ok : Bool) (cause : Nat)   -- CHIMNEY_CONNECT, R296
  | chimneyReconnect   -- CHIMNEY_RECONNECT, R296
  | chimneySend (kind : Nat) (payload : List Byte)   -- CHIMNEY_SEND, R297
  | chimneyAck (msgId : Nat)   -- CHIMNEY_ACK, R297
  | chimneyInbound (kind msgId : Nat) (payload : List Byte) (crcOk : Bool)   -- CHIMNEY_INBOUND, R297
  | chimneyPeriodic (kind : Nat)   -- CHIMNEY_PERIODIC, R297
  | canEnable (c : Nat)   -- CAN_ENABLE, R301
  | canReceive (c what id flags : Nat) (data : List Byte) (af sdt vcid : Nat) (t : Time) (tec rcnt : Nat)   -- CAN_RECEIVE, R304
  | queueAck (c q index : Nat)   -- QUEUE_ACK, R307
  | txRequest (c b : Nat)   -- TX_REQUEST, R310
  | txAttemptEnd (c outcome lec : Nat) (t : Time) (tec rcnt : Nat)   -- TX_ATTEMPT_END, R311
  | txAbort (c b : Nat)   -- TX_ABORT, R314
  | busOffRecover (c : Nat)   -- BUS_OFF_RECOVER, R316
  | busOffRecoveryEnd (c : Nat)   -- BUS_OFF_RECOVERY_END, R316
  | addressClaimStart (c : Nat)   -- ADDRESS_CLAIM_START, R317
  | claimTimeout (c : Nat)   -- CLAIM_TIMEOUT, R317
  | contendingClaim (c addr name : Nat)   -- CONTENDING_CLAIM, R317
  | requestForClaim (c : Nat)   -- REQUEST_FOR_CLAIM, R317
  | cvStart (u : Nat)   -- CV_START, R320
  | cvData (u size : Nat) (value : Word)   -- CV_DATA, R320
  | cvStateWrite (u : Nat) (hi : Bool) (value : Word)   -- CV_STATE_WRITE, R321
  | aliveCheck (u : Nat) (value : Word)   -- ALIVE_CHECK, R323
  | aliveSet (u : Nat) (value : Word)   -- ALIVE_SET, R324
  | canReassemblyTimeout (c src : Nat)   -- CAN_REASSEMBLY_TIMEOUT, R344
  | read (q : Req) (index sub : Nat)   -- READ, R338
  | write (q : Req) (index sub typ : Nat) (bytes : List Byte)   -- WRITE, R330
  | blockRead (q : Req) (index sub offset most : Nat)   -- BLOCK_READ, R340
  | blockSeg (q : Req) (index sub offset : Nat) (bytes : List Byte)   -- BLOCK_SEG, R341
  | blockEnd (q : Req) (index sub typ total crc : Nat)   -- BLOCK_END, R341
  | blockSessionExpiry (who index sub : Nat)   -- BLOCK_SESSION_EXPIRY, R341
  | subscribe (q : Req) (index sub period least : Nat)   -- SUBSCRIBE, R342
  | unsubscribe (q : Req) (id : Nat)   -- UNSUBSCRIBE, R342
  | periodicNotify (id : Nat)   -- PERIODIC_NOTIFY, R342
  | notifyKeepalive (id : Nat)   -- NOTIFY_KEEPALIVE, R342
  | notifyReceive (peer id seq index sub typ : Nat) (bytes : List Byte)   -- NOTIFY_RECEIVE, R338
  | commit (q : Req) (index sub : Nat) (fails : Option Nat)   -- COMMIT, R332
  | describe (q : Req) (index sub : Nat)   -- DESCRIBE, R338
  | defaults (q : Req)   -- DEFAULTS, R336
  | remoteResponse (peer alive tag op status index sub typ aux : Nat) (bytes : List Byte)   -- REMOTE_RESPONSE, R346
  | remoteTimeout (tag : Nat)   -- REMOTE_TIMEOUT, R346
  | lockstepMismatch (pair : Nat)   -- LOCKSTEP_MISMATCH, R355
  | dmaSubmit (value : Word)   -- DMA_SUBMIT, R361
  | dmaStart   -- DMA_START, R362
  | dmaComplete (tag : Nat)   -- DMA_COMPLETE, R363
  | dmaCqAck (head : Nat)   -- DMA_CQ_ACK, R363
  | dmaAbort (tag : Nat)   -- DMA_ABORT, R363
  | doorbell (who n : Nat)   -- DOORBELL, R365
  | claim (who t : Nat)   -- CLAIM, R368
  | complete (who t n : Nat)   -- COMPLETE, R369
  | scrubRead (addr errors : Nat)   -- SCRUB_READ, R379
  | clearRetirementList   -- CLEAR_RETIREMENT_LIST, R380
  | storageSubmit (writer : Nat) (value : Word)   -- STORAGE_SUBMIT, R385
  | storageComplete (tag : Nat) (media : Bool)   -- STORAGE_COMPLETE, R386
  | storageTimeout (tag : Nat)   -- STORAGE_TIMEOUT, R387
  | storageCqAck (head : Nat)   -- STORAGE_CQ_ACK, R385
  | storageAbort (tag : Nat)   -- STORAGE_ABORT, R385
  | flashLifetimeCheck (percent : Nat)   -- FLASH_LIFETIME_CHECK, R388
  | integrityProfileWrite (sub value : Nat)   -- INTEGRITY_PROFILE_WRITE, R389
  | monitorWindow (a b : Nat) (c d : Option Nat) (stuck : Nat)   -- MONITOR_WINDOW, R393
  | pllLockLoss (p : Nat)   -- PLL_LOCK_LOSS, R401
  | opRequest (k op : Nat)   -- OP_REQUEST, R402
  | opSequenceEnd (k : Nat)   -- OP_SEQUENCE_END, R403
  | lowSupplyEntry (decivolt : Nat)   -- LOW_SUPPLY_ENTRY, R410
  | lowSupplyExit (decivolt : Nat)   -- LOW_SUPPLY_EXIT, R406
  | powerFailWarning (steep : Bool) (decivolt : Nat)   -- POWER_FAIL_WARNING, R407
  | warningClear (decivolt : Nat)   -- WARNING_CLEAR, R409
  | logicOvervoltage (decivolt : Nat)   -- LOGIC_OVERVOLTAGE, R406
  | holdupExhausted   -- HOLDUP_EXHAUSTED, R408
  | bankInputUndervoltage (k decivolt : Nat)   -- BANK_INPUT_UNDERVOLTAGE, R412
  | groundOffset (decivolt : Nat)   -- GROUND_OFFSET, R413
  | groundOffsetClear (decivolt : Nat)   -- GROUND_OFFSET_CLEAR, R413
  | ignFall   -- IGN_FALL, R416
  | ignRise (inputs away : Nat) (found : Found)   -- IGN_RISE, R417
  | shutdownTimeEnd   -- SHUTDOWN_TIME_END, R416
  | powerOnReset (ign away : Nat) (found : Found)   -- POWER_ON_RESET, R421
  | pinReset (low : Nat) (found : Found)   -- PIN_RESET, R423
  | systemReset (value : Nat)   -- SYSTEM_RESET, R424
  | clusterReset (value : Nat)   -- CLUSTER_RESET, R424
  | applicationStart   -- APPLICATION_START, R426
  | stateRequest (value : Nat)   -- STATE_REQUEST, R431
  | sleepWake (source : Nat)   -- SLEEP_WAKE, R432
  | deepWake (source away : Nat) (found : Found)   -- DEEP_WAKE, R433
  | watchdogKick (who w : Nat) (value : Word)   -- WATCHDOG_KICK, R437
  | watchdogExpiry (w : Nat)   -- WATCHDOG_EXPIRY, R439
  | clockLossRetry (passes : Bool)   -- CLOCK_LOSS_RETRY, R440
  | slotClaim   -- SLOT_CLAIM, R441
  | mailboxGo (slot waiting : Nat) (fails : Option Nat)   -- MAILBOX_GO, R441
  | mailboxDone (slot : Nat)   -- MAILBOX_DONE, R441
  | mailboxRelease (slot : Nat)   -- MAILBOX_RELEASE, R441
  | eventPost (code sev : Nat)   -- EVENT_POST, R448
  | eventRecordWrite   -- EVENT_RECORD_WRITE, R446
  | eventSpill   -- EVENT_SPILL, R450
  | thermalReading (z : Nat) (a b : Int) (rawA rawB : Nat)   -- THERMAL_READING, R455
  | damperStep2   -- DAMPER_STEP2, R457
  | thermalShutdownAct   -- THERMAL_SHUTDOWN_ACT, R458
  | panelSubmit (tag : Nat)   -- PANEL_SUBMIT, R466
  | panelRowEnd   -- PANEL_ROW_END, R469
  | railRise   -- RAIL_RISE, R462
  | railFall   -- RAIL_FALL, R462
  | thermistorRead (tenths : Int)   -- THERMISTOR_READ, R463
  | thermistorFallback   -- THERMISTOR_FALLBACK, R463
  | panelReplay   -- PANEL_REPLAY, R474
  | railFault (negative : Bool) (decivolt : Nat)   -- RAIL_FAULT, R475
  | panelRestart   -- PANEL_RESTART, R475
  | completionPop   -- COMPLETION_POP, R469
  | geometryWrite (sub value : Nat)   -- GEOMETRY_WRITE, R461
  | challengeRead   -- CHALLENGE_READ, R482
  | tokenWrite (bytes : List Byte)   -- TOKEN_WRITE, R482
  | transitionRequest (value : Nat)   -- TRANSITION_REQUEST, R479
  | serialStaging (number : Nat)   -- SERIAL_STAGING, R483
  | slotHashWrite (bytes : List Byte)   -- SLOT_HASH_WRITE, R484
  | slotKeyWrite (bytes : List Byte)   -- SLOT_KEY_WRITE, R484
  | debugClose   -- DEBUG_CLOSE, R487
  | debugExpiry   -- DEBUG_EXPIRY, R487
  | debugDatagram (seq op reg : Nat) (data : Word)   -- DEBUG_DATAGRAM, R487
  | intakeFragment (source : Nat) (bytes : List Byte)   -- INTAKE_FRAGMENT, R491
  | updateAbort (t : Nat)   -- UPDATE_ABORT, R492
  | relayRequest (t : Nat) (seen : List (Nat × Nat))   -- RELAY_REQUEST, R493
  | relayNeighbourResume (t p received : Nat)   -- RELAY_NEIGHBOUR_RESUME, R493
  | relayActivationStep (seen : List (Nat × Nat × Nat × Nat))   -- RELAY_ACTIVATION_STEP, R494
  | activationTimeout   -- ACTIVATION_TIMEOUT, R494
  | activate (t : Nat)   -- ACTIVATE, R496
  | confirm (t : Nat)   -- CONFIRM, R498
  | confirmationExpiry (t : Nat)   -- CONFIRMATION_EXPIRY, R498
  | rollBack (t : Nat)   -- ROLL_BACK, R499
  | powerGroundReturn (d : Nat)   -- POWER_GROUND_RETURN, R109
  | logicGroundReturn (d : Nat)   -- LOGIC_GROUND_RETURN, R110
  | logicOvervoltageEnd (decivolt : Nat)   -- LOGIC_OVERVOLTAGE_END, R406
  | slewEnd   -- SLEW_END, R209
  | startPermitted (decivolt : Nat) (found : Found)   -- START_PERMITTED, R408
  | chimneyDisconnect (cause : Nat)   -- CHIMNEY_DISCONNECT, R296
  | mirrorReceive (path seq : Nat) (block : MirrorBlock)   -- MIRROR_RECEIVE, R289
  | camParameterCopyEnd (c : Nat)   -- CAM_PARAMETER_COPY_END, R173
deriving DecidableEq, Repr

end Sys2Proof
end

