-- ==== Sys2Proof/Decode.lean ====
section
/-!
DEFINITION. Words and commands: spec/opcode_table.json gives no bits to any row, so no word spells a command.
-/
namespace Sys2Proof

/-- The command a table word spells: none, for the table gives no row any bits. -/
def decodeTableWord (_nbits _w : Nat) : Option Instr := none

end Sys2Proof
end

