-- ==== Sys2Proof/Machine/Crc.lean ====
section
/-!
DEFINITION. Cyclic redundancy checks (Table 13-4): the raw running value, fed bit by bit, and the result after output
reflection and final XOR (13_can_integrity.md R319 to R321).
-/
namespace Sys2Proof.Machine

/-- An algorithm of Table 13-4. -/
structure CrcAlg where
  width : Nat
  poly : Nat
  init : Nat
  refIn : Bool
  refOut : Bool
  xorOut : Nat
deriving DecidableEq, Repr

def crc8 : CrcAlg := ⟨8, 0x1D, 0xFF, false, false, 0xFF⟩
def crc16 : CrcAlg := ⟨16, 0x1021, 0xFFFF, false, false, 0⟩
def crc32 : CrcAlg := ⟨32, 0x04C11DB7, 0xFFFFFFFF, true, true, 0xFFFFFFFF⟩
def crc32c : CrcAlg := ⟨32, 0x1EDC6F41, 0xFFFFFFFF, true, true, 0xFFFFFFFF⟩
def crc64 : CrcAlg := ⟨64, 0x42F0E1EBA9EA3693, 0, false, false, 0⟩

/-- The w low bits of v in reverse order. -/
def reflectBits : Nat → Nat → Nat
  | 0, _ => 0
  | w + 1, v => v % 2 * 2 ^ w + reflectBits w (v / 2)

/-- One message bit into the running value. -/
def crcBit (a : CrcAlg) (r : Nat) (b : Nat) : Nat :=
  let top := r / 2 ^ (a.width - 1) % 2
  let sh := r * 2 % 2 ^ a.width
  if top = b then sh else Nat.xor sh (a.poly % 2 ^ a.width)

/-- The low n bits of v, most significant first, into the running value. -/
def crcBits (a : CrcAlg) (v : Nat) : Nat → Nat → Nat
  | 0, r => r
  | n + 1, r => crcBits a v n (crcBit a r (v / 2 ^ n % 2))

/-- One byte into the running value. -/
def crcByte (a : CrcAlg) (r : Nat) (b : Byte) : Nat :=
  crcBits a (if a.refIn then reflectBits 8 b.toNat else b.toNat) 8 r

/-- The result of a running value. -/
def crcResult (a : CrcAlg) (r : Nat) : Nat := Nat.xor (if a.refOut then reflectBits a.width r else r) (a.xorOut % 2 ^ a.width)

/-- The check of a list of bytes. -/
def crcOf (a : CrcAlg) (l : List Byte) : Nat := crcResult a (l.foldl (crcByte a) (a.init % 2 ^ a.width))

end Sys2Proof.Machine
end

