-- ==== Sys2Proof/Config.lean ====
section
/-!
DEFINITION. The free values: what the spec leaves open. Each is a constant without a body, applied to a counter of the
state or to the operands it depends on; nothing can be proved of what it is.
-/
namespace Sys2Proof.Config

/-- A free word for each draw (log entry 2). -/
opaque freeWord : Nat → BitVec 32

/-- A free byte for each draw and position: random bytes and contents no rule states (log entry 2). -/
opaque freeByte : Nat → Nat → BitVec 8

/-- Output of the first-order low-pass filter of an analog input after a sample: time constant in ms, sample period in
units of 50 µs, last output, new sample (R115 gives the filter no equation; log entry 10). -/
opaque lowPass : Nat → Nat → BitVec 32 → BitVec 32 → BitVec 32

/-- Group delay in ns of the bridge converter's filter at a rate in S/s (Table 5-1 names it without a value; log
entry 11). -/
opaque bridgeDelay : Nat → Nat

/-- The requester code in event 0x0407 of an engine that is no processor (log entry 7). -/
opaque engineCode : Nat → BitVec 8

/-- A byte of a flash block that nothing has written since its last trim or crypto-erase: partition × 2^32 + block,
crypto-erases, trims, byte (R384 and R385 state no contents; log entry 15). -/
opaque flashByte : Nat → Nat → Nat → Nat → BitVec 8

/-- Whether a write that need not survive a power cut did survive it, by draw and block (R386; log entry 15). -/
opaque survived : Nat → Nat → Bool

/-- A scalar measurement of a crop-edge feeler or a height sensor moved into the machine frame: role, lever arm and angles
with their corrections, value (06_fusion.md gives no equation; log entry 16). -/
opaque framed : Nat → List (BitVec 32) → BitVec 32 → BitVec 32

/-- Offset and angle of the crop edge in the machine frame: component, slot geometry, feature record (log entry 16). -/
opaque cropEdge : Nat → List (BitVec 32) → List (BitVec 8) → BitVec 32

/-- A component of an estimate that no sample has measured yet: quantity and component (log entry 16). -/
opaque unseen : Nat → Nat → BitVec 32

/-- The value of a symmetric product where rounding differs on the two sides of the diagonal: below, above (Table 6-5;
log entry 17). -/
opaque symmetric : BitVec 32 → BitVec 32 → BitVec 32

/-- An element of D after a job that did not end with status 0: descriptor, operands, index of the element (R159 makes it
depend on these alone; log entry 17). -/
opaque spoiled : List (BitVec 8) → List (BitVec 32) → Nat → BitVec 32

/-- Edge-directed interpolation of a mosaic: CFA, mosaic, row, column, channel (Table 7-2 names it without an equation; log
entry 19). -/
opaque demosaic : Nat → List (List Nat) → Nat → Nat → Nat → BitVec 24

/-- Where a row or column lies among the nodes of the shading grid: number of nodes, frame size, row or column; the node before
it, and the way to the next one as numerator and denominator (the places of the nodes are not stated; log entry 19). -/
opaque shadePlace : Nat → Nat → Nat → Nat × Nat × Nat

/-- A byte of a feature record: draw, kind, tone-mapped image, feature parameters, intrinsics, place (Table 7-7 names the
measurements without equations; log entry 19). -/
opaque feature : Nat → Nat → List (List Nat) → List (BitVec 8) → List (BitVec 8) → Nat → BitVec 8

/-- Where Scaholt firmware allocates a buffer in DRAM: in units of 64 bytes above its start (log entry 21). -/
opaque allocated : Nat → BitVec 26

/-- Sine and cosine of an angle in rad (the accuracy is not stated; log entry 26). -/
opaque sine : BitVec 32 → BitVec 32

opaque cosine : BitVec 32 → BitVec 32

/-- Arc tangent in rad of y over x: y, x (the accuracy is not stated; log entry 26). -/
opaque arcTan : BitVec 32 → BitVec 32 → BitVec 32

/-- The pose between two published poses: component 0 east, 1 north, 2 heading; the earlier and the later pose; ns after the
earlier one (R241 says "pose from history"; log entry 26). -/
opaque poseBetween : Nat → List (BitVec 32) → List (BitVec 32) → Nat → BitVec 32

/-- Size in bytes of a stored tile after lossless coding, by its header and records (R239 names no code; log entry 27). -/
opaque codedBytes : List (BitVec 8) → Nat

/-- Whether a pixel of a character of the Keeper's font is bright in its cell of 6 × 16: ASCII code, column, row (R476 names a
5 × 7 font and gives no glyph and no place in the cell; log entry 36). -/
opaque glyph : Nat → Nat → Nat → Bool

/-- SHA-256 of a list of bytes (R482; the standard is named, not restated; log entry 37). -/
opaque sha256 : List (BitVec 8) → List (BitVec 8)

/-- Whether an Ed25519 signature is valid: public key, message, signature (R482, R489; log entry 37). -/
opaque signed : List (BitVec 8) → List (BitVec 8) → List (BitVec 8) → Bool

/-- Whether the GCM tag of a chunk verifies: header, chunk number, tag, chunk (R489; log entry 37). -/
opaque chunkOk : List (BitVec 8) → Nat → List (BitVec 8) → List (BitVec 8) → Bool

/-- A byte of the module's Ed25519 client public key (R485; log entry 37). -/
opaque clientKey : Nat → BitVec 8

/-- The die identifier fused at wafer test (R483; log entry 41). -/
opaque dieId : BitVec 64

/-- The value of a retained record migrated to the object's format version, none where it cannot be: object key, format
version, value (R497; the data to be migrated differ with the image; log entry 48). -/
opaque migrated : Nat → Nat → List (BitVec 8) → Option (List (BitVec 8))

/-- The hash of the Scaholt root key, fixed in the boot ROM (R484; log entry 41). -/
opaque rootHash : List (BitVec 8)

/-- The bits of a result that is not a number which IEEE 754 leaves open: operation and operands (log entry 6). -/
opaque nanBits : Nat → BitVec 32 → BitVec 32 → BitVec 32

/-- The format version of an object of this firmware, by its key (log entry 18). -/
opaque formatVersion : Nat → BitVec 8

end Sys2Proof.Config
end

