-- ==== Sys2Proof/Machine/F32.lean ====
section
/-!
DEFINITION. Binary32 arithmetic with rounding to nearest, ties to even (R14, R147), computed exactly on integers and
narrowed once. A result that is not a number is a quiet pattern whose sign and other fraction bits are free
(log entry 6).
-/
namespace Sys2Proof.Machine.F32

/-- A result that is not a number, from an operation and its operands: exponent of ones, highest fraction bit 1, the other
bits free (R40; log entry 6). -/
def nanOf (op : Nat) (x y : F32) : F32 := 0x7FC00000 ||| (Config.nanBits op x y &&& 0x803FFFFF)

/-- A value that is not a number and comes from no two operands. -/
def nan : F32 := nanOf 5 0 0

def sign (x : F32) : Bool := x.toNat / 2147483648 == 1
def expo (x : F32) : Nat := x.toNat / 8388608 % 256
def frac (x : F32) : Nat := x.toNat % 8388608

def isNan (x : F32) : Bool := expo x == 255 && frac x != 0
def isInf (x : F32) : Bool := expo x == 255 && frac x == 0
def isFinite (x : F32) : Bool := expo x != 255
def isZero (x : F32) : Bool := x.toNat % 2147483648 == 0

/-- Mantissa of a finite value: x = ± mant × 2 ^ (lexp). -/
def mant (x : F32) : Nat := if expo x = 0 then frac x else frac x + 8388608
def lexp (x : F32) : Int := (if expo x = 0 then (1 : Int) else (expo x : Int)) - 150

def signBit (neg : Bool) : Nat := if neg then 2147483648 else 0

def inf (neg : Bool) : F32 := BitVec.ofNat 32 (signBit neg + 0x7F800000)
def zero (neg : Bool) : F32 := BitVec.ofNat 32 (signBit neg)

/-- Narrow ± m × 2 ^ e to binary32; `sticky` says that a nonzero part below m was cut off. -/
def pack (neg : Bool) (m : Nat) (e : Int) (sticky : Bool) : F32 :=
  if m = 0 then zero neg
  else
    let top : Int := (Nat.log2 m : Int) + e
    let le : Int := max (top - 23) (-149)
    let q : Nat :=
      if le ≤ e then m * 2 ^ (e - le).toNat
      else
        let sh := (le - e).toNat
        let q0 := m / 2 ^ sh
        let r := m % 2 ^ sh
        let half := 2 ^ (sh - 1)
        if r > half || (r == half && (sticky || q0 % 2 == 1)) then q0 + 1 else q0
    let bits := (le + 149).toNat * 8388608 + q
    if bits ≥ 0x7F800000 then inf neg else BitVec.ofNat 32 (signBit neg + bits)

/-- Narrow the integer i × 2 ^ e. -/
def packInt (i : Int) (e : Int) : F32 := pack (decide (i < 0)) i.natAbs e false

/-- The signed mantissa of a finite value. -/
def smant (x : F32) : Int := if sign x then -(mant x : Int) else mant x

def neg (x : F32) : F32 := x ^^^ 0x80000000
def abs (x : F32) : F32 := x &&& 0x7FFFFFFF

def add (x y : F32) : F32 :=
  if isNan x || isNan y then (nanOf 0 x y)
  else if isInf x then (if isInf y && sign x != sign y then (nanOf 0 x y) else x)
  else if isInf y then y
  else
    let e := min (lexp x) (lexp y)
    let i := smant x * 2 ^ (lexp x - e).toNat + smant y * 2 ^ (lexp y - e).toNat
    if i = 0 then zero (sign x && sign y) else packInt i e

def sub (x y : F32) : F32 := if isNan y then (nanOf 1 x y) else add x (neg y)

def mul (x y : F32) : F32 :=
  if isNan x || isNan y then (nanOf 2 x y)
  else if isInf x || isInf y then (if isZero x || isZero y then (nanOf 2 x y) else inf (sign x != sign y))
  else pack (sign x != sign y) (mant x * mant y) (lexp x + lexp y) false

def div (x y : F32) : F32 :=
  let s := sign x != sign y
  if isNan x || isNan y then (nanOf 3 x y)
  else if isInf x then (if isInf y then (nanOf 3 x y) else inf s)
  else if isInf y then zero s
  else if isZero y then (if isZero x then (nanOf 3 x y) else inf s)
  else
    let n := mant x * 2 ^ 64
    pack s (n / mant y) (lexp x - lexp y - 64) (n % mant y != 0)

/-- A key that orders the values that are numbers; the two zeros have one key. -/
def key (x : F32) : Int := if sign x then -((x.toNat % 2147483648 : Nat) : Int) else (x.toNat : Int)

def lt (x y : F32) : Bool := !isNan x && !isNan y && decide (key x < key y)
def le (x y : F32) : Bool := !isNan x && !isNan y && decide (key x ≤ key y)
def eq (x y : F32) : Bool := !isNan x && !isNan y && decide (key x = key y)
def max (x y : F32) : F32 := if lt x y then y else x
def min (x y : F32) : F32 := if lt y x then y else x
/-- x held between lo and hi. -/
def clamp (x lo hi : F32) : F32 := min (max x lo) hi

/-- An integer as binary32. -/
def ofInt (i : Int) : F32 := packInt i 0
def ofNat (n : Nat) : F32 := pack false n 0 false
/-- The exact quotient n / d narrowed once. -/
def ofRat (n : Int) (d : Nat) : F32 :=
  if d = 0 then nan
  else
    let a := n.natAbs * 2 ^ 64
    pack (decide (n < 0)) (a / d) (-64) (a % d != 0)

/-- The greatest integer not above a finite value, after multiplying by n / d; 0 for others. -/
def floorScaled (x : F32) (n d : Nat) : Int :=
  if !isFinite x || d == 0 then 0
  else
    let num : Int := smant x * n
    if lexp x ≥ 0 then (num * 2 ^ (lexp x).toNat) / (d : Int) else num / ((d * 2 ^ (-(lexp x)).toNat : Nat) : Int)

/-- The integer nearest to a finite value times n / d, halves upwards; 0 for others. -/
def roundScaled (x : F32) (n d : Nat) : Int :=
  if !isFinite x || d == 0 then 0
  else
    let num : Int := smant x * n
    let den : Nat := d * 2 ^ (-(lexp x)).toNat
    let num2 : Int := num * 2 ^ (lexp x).toNat
    (2 * num2 + (den : Int)) / ((2 * den : Nat) : Int)

/-- The integer nearest to a finite value times n / d, ties to even; 0 for others. -/
def roundEven (x : F32) (n d : Nat) : Int :=
  if !isFinite x || d == 0 then 0
  else
    let den : Int := (d * 2 ^ (-(lexp x)).toNat : Nat)
    let num : Int := smant x * n * 2 ^ (lexp x).toNat
    let q := num / den
    let r := num - q * den
    if 2 * r < den then q else if den < 2 * r then q + 1 else if q % 2 = 0 then q else q + 1

def floorInt (x : F32) : Int := floorScaled x 1 1
def roundInt (x : F32) : Int := roundScaled x 1 1

/-- The integer square root by fuel: the greatest r with r * r ≤ n. -/
def isqrtStep (n : Nat) : Nat → Nat → Nat
  | 0, r => r
  | k + 1, r => let c := r + 2 ^ k; if c * c ≤ n then isqrtStep n k c else isqrtStep n k r

def isqrt (n : Nat) : Nat := isqrtStep n (Nat.log2 n / 2 + 1) 0

def sqrt (x : F32) : F32 :=
  if isNan x then nan
  else if isZero x then x
  else if sign x then nan
  else if isInf x then x
  else
    let e := lexp x
    let odd := e % 2 != 0
    let m := mant x * (if odd then 2 else 1) * 2 ^ 64
    let r := isqrt m
    pack false r (((if odd then e - 1 else e) - 64) / 2) (r * r != m)

/-- A finite value as a whole number of units of 2^-149; 0 for others. -/
def exact (x : F32) : Int := if isFinite x then smant x * 2 ^ (lexp x + 149).toNat else 0

/-- The number of units of 2^-149 in 1. -/
def unit : Nat := 2 ^ 149

/-- Sum from the left in binary32. -/
def sum (l : List F32) : F32 := l.foldl add 0

/-- The binary32 value of four bytes, low first. -/
def ofBytes (l : List Byte) : F32 :=
  BitVec.ofNat 32 ((l.getD 0 0).toNat + 256 * (l.getD 1 0).toNat + 65536 * (l.getD 2 0).toNat
    + 16777216 * (l.getD 3 0).toNat)

/-- The four bytes of a binary32 value, low first. -/
def toBytes (x : F32) : List Byte :=
  [BitVec.ofNat 8 x.toNat, BitVec.ofNat 8 (x.toNat / 256), BitVec.ofNat 8 (x.toNat / 65536),
   BitVec.ofNat 8 (x.toNat / 16777216)]

def one : F32 := 0x3F800000
def half : F32 := 0x3F000000

end Sys2Proof.Machine.F32

namespace Sys2Proof.Machine

/-- A number as a binary32 pattern. -/
def asF32 (n : Nat) : F32 := BitVec.ofNat 32 n

end Sys2Proof.Machine
end

