-- ==== Sys2Proof/Machine/Regs.lean ====
section
/-!
DEFINITION. The register map: the address of every register and every field the register tables of spec/ give,
with its access, reset value and legal encodings. Each block names the file of spec/ that holds its table.
-/
namespace Sys2Proof.Machine

/-- How software may touch a field (00_scope.md, Registers). -/
inductive Access where
  | ro   -- read only
  | rw   -- read and write
  | w1c  -- a 1 written clears the bit
  | wo   -- write only, reads 0
deriving DecidableEq, Repr

/-- A field of one register instance: the register's address, the lowest bit and the width. -/
structure Fld where
  addr : Nat
  lsb : Nat
  width : Nat
deriving DecidableEq, Repr

/-- A row of a register table: lowest bit, width, access, and the legal encodings as (low, high, step);
an empty list means every encoding is legal. -/
structure FieldDef where
  lsb : Nat
  width : Nat
  access : Access
  legal : List (Nat × Nat × Nat)
deriving DecidableEq, Repr

/-- A register of a block: address of instance (0, 0), the two strides with their counts
(a count of 1 where it does not repeat), the reset value of an instance, its fields. -/
structure RegDef where
  base : Nat
  stride : Nat
  count : Nat
  stride2 : Nat
  count2 : Nat
  reset : Nat → Nat → Nat
  fields : List FieldDef

namespace R

/-! Block CK at 0x20000000 (spec/17_clocks.md). -/
/-- CK_ID, offset 0x0000. -/
abbrev ckId : Nat := 0x20000000
abbrev ckIdMinor : Fld := ⟨ckId, 0, 8⟩
abbrev ckIdMajor : Fld := ⟨ckId, 8, 8⟩
abbrev ckIdPlls : Fld := ⟨ckId, 16, 8⟩
/-- CK_STAT, offset 0x0008. -/
abbrev ckStat : Nat := 0x20000008
abbrev ckStatTcxoOk : Fld := ⟨ckStat, 0, 1⟩
abbrev ckStatRcOk : Fld := ⟨ckStat, 1, 1⟩
abbrev ckStatXtOk : Fld := ⟨ckStat, 2, 1⟩
abbrev ckStatReffail : Fld := ⟨ckStat, 3, 1⟩
abbrev ckStatCal : Fld := ⟨ckStat, 4, 1⟩
abbrev ckStatRecclk : Fld := ⟨ckStat, 5, 1⟩
abbrev ckStatSysAlt : Fld := ⟨ckStat, 6, 1⟩
abbrev ckStatMonf : Fld := ⟨ckStat, 7, 1⟩
abbrev ckStatLock : Fld := ⟨ckStat, 8, 7⟩
/-- CK_RCFREQ, offset 0x000C. -/
abbrev ckRcfreq : Nat := 0x2000000C
abbrev ckRcfreqRcfreq : Fld := ⟨ckRcfreq, 0, 32⟩
/-- CK_TCXOCNT, offset 0x0010. -/
abbrev ckTcxocnt : Nat := 0x20000010
abbrev ckTcxocntCount : Fld := ⟨ckTcxocnt, 0, 32⟩
/-- CK_CLOP, offset 0x0020. -/
abbrev ckClop (i : Nat) : Nat := 0x20000020 + 4 * i
abbrev ckClopReq (i : Nat) : Fld := ⟨ckClop i, 0, 2⟩
abbrev ckClopCeil (i : Nat) : Fld := ⟨ckClop i, 4, 2⟩
abbrev ckClopEff (i : Nat) : Fld := ⟨ckClop i, 8, 2⟩
abbrev ckClopBusy (i : Nat) : Fld := ⟨ckClop i, 12, 1⟩
/-- CK_GRUN, offset 0x0030. -/
abbrev ckGrun : Nat := 0x20000030
abbrev ckGrunRun : Fld := ⟨ckGrun, 0, 17⟩
/-- CK_GSLEEP, offset 0x0034. -/
abbrev ckGsleep : Nat := 0x20000034
abbrev ckGsleepSleep : Fld := ⟨ckGsleep, 0, 17⟩
/-- CK_GDEEP, offset 0x0038. -/
abbrev ckGdeep : Nat := 0x20000038
abbrev ckGdeepCanw : Fld := ⟨ckGdeep, 0, 1⟩
abbrev ckGdeepPilot : Fld := ⟨ckGdeep, 1, 1⟩
abbrev ckGdeepWake : Fld := ⟨ckGdeep, 2, 1⟩
abbrev ckGdeepRcdeep : Fld := ⟨ckGdeep, 3, 1⟩
/-- CK_REFSWITCH, offset 0x0040. -/
abbrev ckRefswitch : Nat := 0x20000040
abbrev ckRefswitchN : Fld := ⟨ckRefswitch, 0, 32⟩
/-- CK_RECFAIL, offset 0x0044. -/
abbrev ckRecfail : Nat := 0x20000044
abbrev ckRecfailN : Fld := ⟨ckRecfail, 0, 32⟩
/-- CK_LOCKLOSS, offset 0x0048. -/
abbrev ckLockloss : Nat := 0x20000048
abbrev ckLocklossN : Fld := ⟨ckLockloss, 0, 32⟩
/-- CK_OPCHANGES, offset 0x004C. -/
abbrev ckOpchanges : Nat := 0x2000004C
abbrev ckOpchangesN : Fld := ⟨ckOpchanges, 0, 32⟩
/-! Block IC at 0x20010000 (spec/15_processors_interrupts.md). -/
/-- IC_DOORBELL, offset 0x0000. -/
abbrev icDoorbell : Nat := 0x20010000
abbrev icDoorbellSrc : Fld := ⟨icDoorbell, 0, 10⟩
/-- IC_ID, offset 0x0004. -/
abbrev icId : Nat := 0x20010004
abbrev icIdMinor : Fld := ⟨icId, 0, 8⟩
abbrev icIdMajor : Fld := ⟨icId, 8, 8⟩
abbrev icIdTargets : Fld := ⟨icId, 16, 5⟩
/-- IC_CTRL, offset 0x0008. -/
abbrev icCtrl : Nat := 0x20010008
abbrev icCtrlCntclr : Fld := ⟨icCtrl, 0, 1⟩
abbrev icCtrlPaired : Fld := ⟨icCtrl, 1, 1⟩
/-- IC_STAT, offset 0x000C. -/
abbrev icStat : Nat := 0x2001000C
abbrev icStatSwdbErr : Fld := ⟨icStat, 0, 1⟩
abbrev icStatCerr : Fld := ⟨icStat, 1, 1⟩
/-- IC_NMISTAT, offset 0x0010. -/
abbrev icNmistat : Nat := 0x20010010
abbrev icNmistatClkref : Fld := ⟨icNmistat, 0, 1⟩
abbrev icNmistatEmberUe : Fld := ⟨icNmistat, 1, 1⟩
/-- IC_NMIMASK, offset 0x0014. -/
abbrev icNmimask : Nat := 0x20010014
abbrev icNmimaskMask : Fld := ⟨icNmimask, 0, 12⟩
abbrev icNmimaskKeeper : Fld := ⟨icNmimask, 12, 1⟩
/-- IC_SWDB_IGN, offset 0x0020. -/
abbrev icSwdbIgn : Nat := 0x20010020
abbrev icSwdbIgnN : Fld := ⟨icSwdbIgn, 0, 32⟩
/-- IC_CMPL_ERR, offset 0x0024. -/
abbrev icCmplErr : Nat := 0x20010024
abbrev icCmplErrN : Fld := ⟨icCmplErr, 0, 32⟩
/-- IC_COALESCED, offset 0x0028. -/
abbrev icCoalesced : Nat := 0x20010028
abbrev icCoalescedN : Fld := ⟨icCoalesced, 0, 32⟩
/-- IC_CMPL_FORCED, offset 0x002C. -/
abbrev icCmplForced : Nat := 0x2001002C
abbrev icCmplForcedN : Fld := ⟨icCmplForced, 0, 32⟩
/-- IC_PEND, offset 0x0400. -/
abbrev icPend (i : Nat) : Nat := 0x20010400 + 4 * i
abbrev icPendPend (i : Nat) : Fld := ⟨icPend i, 0, 32⟩
/-- IC_ACTIVE, offset 0x0480. -/
abbrev icActive (i : Nat) : Nat := 0x20010480 + 4 * i
abbrev icActiveActive (i : Nat) : Fld := ⟨icActive i, 0, 32⟩
/-- IC_EN, offset 0x0500. -/
abbrev icEn (i : Nat) : Nat := 0x20010500 + 4 * i
abbrev icEnEn (i : Nat) : Fld := ⟨icEn i, 0, 32⟩
/-- IC_SRC, offset 0x1000. -/
abbrev icSrc (i : Nat) : Nat := 0x20011000 + 4 * i
abbrev icSrcTmask (i : Nat) : Fld := ⟨icSrc i, 0, 13⟩
/-- IC_TCLAIM, offset 0x3000. -/
abbrev icTclaim (i : Nat) : Nat := 0x20013000 + 64 * i
abbrev icTclaimClaim (i : Nat) : Fld := ⟨icTclaim i, 0, 11⟩
/-- IC_TCOMPLETE, offset 0x3004. -/
abbrev icTcomplete (i : Nat) : Nat := 0x20013004 + 64 * i
abbrev icTcompleteComplete (i : Nat) : Fld := ⟨icTcomplete i, 0, 10⟩
/-- IC_TCTRL, offset 0x3008. -/
abbrev icTctrl (i : Nat) : Nat := 0x20013008 + 64 * i
abbrev icTctrlEn (i : Nat) : Fld := ⟨icTctrl i, 0, 1⟩
/-- IC_TSTAT, offset 0x300C. -/
abbrev icTstat (i : Nat) : Nat := 0x2001300C + 64 * i
abbrev icTstatRunning (i : Nat) : Fld := ⟨icTstat i, 0, 11⟩
abbrev icTstatReq (i : Nat) : Fld := ⟨icTstat i, 16, 1⟩
abbrev icTstatFenced (i : Nat) : Fld := ⟨icTstat i, 17, 1⟩
abbrev icTstatPresent (i : Nat) : Fld := ⟨icTstat i, 18, 1⟩
/-- IC_TCLAIMS, offset 0x3010. -/
abbrev icTclaims (i : Nat) : Nat := 0x20013010 + 64 * i
abbrev icTclaimsN (i : Nat) : Fld := ⟨icTclaims i, 0, 32⟩
/-- IC_TSPUR, offset 0x3014. -/
abbrev icTspur (i : Nat) : Nat := 0x20013014 + 64 * i
abbrev icTspurN (i : Nat) : Fld := ⟨icTspur i, 0, 32⟩
/-! Block CE at 0x20020000 (spec/02_control_engine.md). -/
/-- CE_ID, offset 0x0000. -/
abbrev ceId : Nat := 0x20020000
abbrev ceIdMinor : Fld := ⟨ceId, 0, 8⟩
abbrev ceIdMajor : Fld := ⟨ceId, 8, 8⟩
abbrev ceIdLoops : Fld := ⟨ceId, 16, 8⟩
/-- CE_CTRL, offset 0x0004. -/
abbrev ceCtrl : Nat := 0x20020004
abbrev ceCtrlEn : Fld := ⟨ceCtrl, 0, 1⟩
abbrev ceCtrlReclaim : Fld := ⟨ceCtrl, 1, 1⟩
/-- CE_STAT, offset 0x0008. -/
abbrev ceStat : Nat := 0x20020008
abbrev ceStatGridLock : Fld := ⟨ceStat, 0, 1⟩
abbrev ceStatTrim : Fld := ⟨ceStat, 1, 1⟩
abbrev ceStatPhslip : Fld := ⟨ceStat, 2, 1⟩
abbrev ceStatRecl : Fld := ⟨ceStat, 3, 2⟩
abbrev ceStatReclDie : Fld := ⟨ceStat, 5, 5⟩
abbrev ceStatHeld : Fld := ⟨ceStat, 10, 1⟩
abbrev ceStatLinkf : Fld := ⟨ceStat, 11, 5⟩
/-- CE_FRAME_LO, offset 0x0010. -/
abbrev ceFrameLo : Nat := 0x20020010
abbrev ceFrameLoFrame : Fld := ⟨ceFrameLo, 0, 32⟩
/-- CE_FRAME_HI, offset 0x0014. -/
abbrev ceFrameHi : Nat := 0x20020014
abbrev ceFrameHiFrame : Fld := ⟨ceFrameHi, 0, 32⟩
/-- CE_FRAME_OFS, offset 0x0018. -/
abbrev ceFrameOfs : Nat := 0x20020018
abbrev ceFrameOfsOfs : Fld := ⟨ceFrameOfs, 0, 32⟩
/-- CE_GRID_ERR, offset 0x001C. -/
abbrev ceGridErr : Nat := 0x2002001C
abbrev ceGridErrErr : Fld := ⟨ceGridErr, 0, 32⟩
/-- CE_IRQ_STAT, offset 0x0020. -/
abbrev ceIrqStat : Nat := 0x20020020
abbrev ceIrqStatSrc : Fld := ⟨ceIrqStat, 0, 6⟩
/-- CE_IRQ_EN, offset 0x0024. -/
abbrev ceIrqEn : Nat := 0x20020024
abbrev ceIrqEnSrc : Fld := ⟨ceIrqEn, 0, 6⟩
/-- CE_RUN, offset 0x0030. -/
abbrev ceRun (i : Nat) : Nat := 0x20020030 + 4 * i
abbrev ceRunMask (i : Nat) : Fld := ⟨ceRun i, 0, 32⟩
/-- CE_TRIP, offset 0x0038. -/
abbrev ceTrip (i : Nat) : Nat := 0x20020038 + 4 * i
abbrev ceTripMask (i : Nat) : Fld := ⟨ceTrip i, 0, 32⟩
/-- CE_LCTRL, offset 0x1000. -/
abbrev ceLctrl (i : Nat) : Nat := 0x20021000 + 256 * i
abbrev ceLctrlRun (i : Nat) : Fld := ⟨ceLctrl i, 0, 1⟩
abbrev ceLctrlApply (i : Nat) : Fld := ⟨ceLctrl i, 1, 1⟩
abbrev ceLctrlDefer (i : Nat) : Fld := ⟨ceLctrl i, 2, 1⟩
abbrev ceLctrlBumpless (i : Nat) : Fld := ⟨ceLctrl i, 3, 1⟩
abbrev ceLctrlManual (i : Nat) : Fld := ⟨ceLctrl i, 4, 1⟩
abbrev ceLctrlSpsrc (i : Nat) : Fld := ⟨ceLctrl i, 5, 2⟩
abbrev ceLctrlSchedEn (i : Nat) : Fld := ⟨ceLctrl i, 7, 1⟩
abbrev ceLctrlFfEn (i : Nat) : Fld := ⟨ceLctrl i, 8, 1⟩
abbrev ceLctrlClrcnt (i : Nat) : Fld := ⟨ceLctrl i, 9, 1⟩
abbrev ceLctrlTripclr (i : Nat) : Fld := ⟨ceLctrl i, 10, 1⟩
abbrev ceLctrlMissLimit (i : Nat) : Fld := ⟨ceLctrl i, 16, 8⟩
abbrev ceLctrlSafeMode (i : Nat) : Fld := ⟨ceLctrl i, 24, 1⟩
/-- CE_LSTAT, offset 0x1004. -/
abbrev ceLstat (i : Nat) : Nat := 0x20021004 + 256 * i
abbrev ceLstatState (i : Nat) : Fld := ⟨ceLstat i, 0, 3⟩
abbrev ceLstatApplyPend (i : Nat) : Fld := ⟨ceLstat i, 3, 1⟩
abbrev ceLstatSat (i : Nat) : Fld := ⟨ceLstat i, 4, 1⟩
abbrev ceLstatRlim (i : Nat) : Fld := ⟨ceLstat i, 5, 1⟩
abbrev ceLstatFbLast (i : Nat) : Fld := ⟨ceLstat i, 6, 1⟩
abbrev ceLstatSpHold (i : Nat) : Fld := ⟨ceLstat i, 7, 1⟩
abbrev ceLstatErr (i : Nat) : Fld := ⟨ceLstat i, 12, 4⟩
/-- CE_LSCHED, offset 0x1008. -/
abbrev ceLsched (i : Nat) : Nat := 0x20021008 + 256 * i
abbrev ceLschedPeriod (i : Nat) : Fld := ⟨ceLsched i, 0, 16⟩
abbrev ceLschedPhase (i : Nat) : Fld := ⟨ceLsched i, 16, 16⟩
/-- CE_LTGT, offset 0x100C. -/
abbrev ceLtgt (i : Nat) : Nat := 0x2002100C + 256 * i
abbrev ceLtgtType (i : Nat) : Fld := ⟨ceLtgt i, 0, 2⟩
abbrev ceLtgtCh (i : Nat) : Fld := ⟨ceLtgt i, 8, 6⟩
/-- CE_LKP, offset 0x1010. -/
abbrev ceLkp (i : Nat) : Nat := 0x20021010 + 256 * i
abbrev ceLkpV (i : Nat) : Fld := ⟨ceLkp i, 0, 32⟩
/-- CE_LKI, offset 0x1014. -/
abbrev ceLki (i : Nat) : Nat := 0x20021014 + 256 * i
abbrev ceLkiV (i : Nat) : Fld := ⟨ceLki i, 0, 32⟩
/-- CE_LKD, offset 0x1018. -/
abbrev ceLkd (i : Nat) : Nat := 0x20021018 + 256 * i
abbrev ceLkdV (i : Nat) : Fld := ⟨ceLkd i, 0, 32⟩
/-- CE_LTF, offset 0x101C. -/
abbrev ceLtf (i : Nat) : Nat := 0x2002101C + 256 * i
abbrev ceLtfV (i : Nat) : Fld := ⟨ceLtf i, 0, 32⟩
/-- CE_LB, offset 0x1020. -/
abbrev ceLb (i : Nat) : Nat := 0x20021020 + 256 * i
abbrev ceLbV (i : Nat) : Fld := ⟨ceLb i, 0, 32⟩
/-- CE_LKFF, offset 0x1024. -/
abbrev ceLkff (i : Nat) : Nat := 0x20021024 + 256 * i
abbrev ceLkffV (i : Nat) : Fld := ⟨ceLkff i, 0, 32⟩
/-- CE_LU0, offset 0x1028. -/
abbrev ceLu0 (i : Nat) : Nat := 0x20021028 + 256 * i
abbrev ceLu0V (i : Nat) : Fld := ⟨ceLu0 i, 0, 32⟩
/-- CE_LUMIN, offset 0x102C. -/
abbrev ceLumin (i : Nat) : Nat := 0x2002102C + 256 * i
abbrev ceLuminV (i : Nat) : Fld := ⟨ceLumin i, 0, 32⟩
/-- CE_LUMAX, offset 0x1030. -/
abbrev ceLumax (i : Nat) : Nat := 0x20021030 + 256 * i
abbrev ceLumaxV (i : Nat) : Fld := ⟨ceLumax i, 0, 32⟩
/-- CE_LRATE, offset 0x1034. -/
abbrev ceLrate (i : Nat) : Nat := 0x20021034 + 256 * i
abbrev ceLrateV (i : Nat) : Fld := ⟨ceLrate i, 0, 32⟩
/-- CE_LSPC, offset 0x1038. -/
abbrev ceLspc (i : Nat) : Nat := 0x20021038 + 256 * i
abbrev ceLspcV (i : Nat) : Fld := ⟨ceLspc i, 0, 32⟩
/-- CE_LSPSLEW, offset 0x103C. -/
abbrev ceLspslew (i : Nat) : Nat := 0x2002103C + 256 * i
abbrev ceLspslewV (i : Nat) : Fld := ⟨ceLspslew i, 0, 32⟩
/-- CE_LSPDICT, offset 0x1040. -/
abbrev ceLspdict (i : Nat) : Nat := 0x20021040 + 256 * i
abbrev ceLspdictV (i : Nat) : Fld := ⟨ceLspdict i, 0, 32⟩
/-- CE_LSAFEU, offset 0x1044. -/
abbrev ceLsafeu (i : Nat) : Nat := 0x20021044 + 256 * i
abbrev ceLsafeuV (i : Nat) : Fld := ⟨ceLsafeu i, 0, 32⟩
/-- CE_LMANU, offset 0x1048. -/
abbrev ceLmanu (i : Nat) : Nat := 0x20021048 + 256 * i
abbrev ceLmanuV (i : Nat) : Fld := ⟨ceLmanu i, 0, 32⟩
/-- CE_LIINIT, offset 0x104C. -/
abbrev ceLiinit (i : Nat) : Nat := 0x2002104C + 256 * i
abbrev ceLiinitV (i : Nat) : Fld := ⟨ceLiinit i, 0, 32⟩
/-- CE_LR, offset 0x1050. -/
abbrev ceLr (i : Nat) : Nat := 0x20021050 + 256 * i
abbrev ceLrV (i : Nat) : Fld := ⟨ceLr i, 0, 32⟩
/-- CE_LY, offset 0x1054. -/
abbrev ceLy (i : Nat) : Nat := 0x20021054 + 256 * i
abbrev ceLyV (i : Nat) : Fld := ⟨ceLy i, 0, 32⟩
/-- CE_LU, offset 0x1058. -/
abbrev ceLu (i : Nat) : Nat := 0x20021058 + 256 * i
abbrev ceLuV (i : Nat) : Fld := ⟨ceLu i, 0, 32⟩
/-- CE_LI, offset 0x105C. -/
abbrev ceLi (i : Nat) : Nat := 0x2002105C + 256 * i
abbrev ceLiV (i : Nat) : Fld := ⟨ceLi i, 0, 32⟩
/-- CE_LD, offset 0x1060. -/
abbrev ceLd (i : Nat) : Nat := 0x20021060 + 256 * i
abbrev ceLdV (i : Nat) : Fld := ⟨ceLd i, 0, 32⟩
/-- CE_LEXEC, offset 0x1064. -/
abbrev ceLexec (i : Nat) : Nat := 0x20021064 + 256 * i
abbrev ceLexecN (i : Nat) : Fld := ⟨ceLexec i, 0, 32⟩
/-- CE_LFALLBACK, offset 0x1068. -/
abbrev ceLfallback (i : Nat) : Nat := 0x20021068 + 256 * i
abbrev ceLfallbackN (i : Nat) : Fld := ⟨ceLfallback i, 0, 32⟩
/-- CE_LMISS, offset 0x106C. -/
abbrev ceLmiss (i : Nat) : Nat := 0x2002106C + 256 * i
abbrev ceLmissN (i : Nat) : Fld := ⟨ceLmiss i, 0, 32⟩
/-- CE_LSPHOLD, offset 0x1070. -/
abbrev ceLsphold (i : Nat) : Nat := 0x20021070 + 256 * i
abbrev ceLspholdN (i : Nat) : Fld := ⟨ceLsphold i, 0, 32⟩
/-- CE_LSAT, offset 0x1074. -/
abbrev ceLsat (i : Nat) : Nat := 0x20021074 + 256 * i
abbrev ceLsatN (i : Nat) : Fld := ⟨ceLsat i, 0, 32⟩
/-- CE_LRLIM, offset 0x1078. -/
abbrev ceLrlim (i : Nat) : Nat := 0x20021078 + 256 * i
abbrev ceLrlimN (i : Nat) : Fld := ⟨ceLrlim i, 0, 32⟩
/-- CE_LLASTFRM, offset 0x107C. -/
abbrev ceLlastfrm (i : Nat) : Nat := 0x2002107C + 256 * i
abbrev ceLlastfrmN (i : Nat) : Fld := ⟨ceLlastfrm i, 0, 32⟩
/-- CE_LSCHTAB, offset 0x1080. -/
abbrev ceLschtab (i j : Nat) : Nat := 0x20021080 + 256 * i + 4 * j
abbrev ceLschtabV (i j : Nat) : Fld := ⟨ceLschtab i j, 0, 32⟩
/-! Block SD at 0x20030000 (spec/03_solenoid_drive.md). -/
/-- SD_ID, offset 0x0000. -/
abbrev sdId : Nat := 0x20030000
abbrev sdIdMinor : Fld := ⟨sdId, 0, 8⟩
abbrev sdIdMajor : Fld := ⟨sdId, 8, 8⟩
abbrev sdIdChannels : Fld := ⟨sdId, 16, 8⟩
abbrev sdIdBanks : Fld := ⟨sdId, 24, 8⟩
/-- SD_STAT, offset 0x0008. -/
abbrev sdStat : Nat := 0x20030008
abbrev sdStatLink : Fld := ⟨sdStat, 0, 3⟩
abbrev sdStatHold : Fld := ⟨sdStat, 3, 3⟩
abbrev sdStatDierst : Fld := ⟨sdStat, 6, 3⟩
abbrev sdStatStop : Fld := ⟨sdStat, 9, 1⟩
abbrev sdStatLdumpA : Fld := ⟨sdStat, 10, 1⟩
abbrev sdStatLdumpB : Fld := ⟨sdStat, 11, 1⟩
abbrev sdStatLgnd : Fld := ⟨sdStat, 12, 3⟩
/-- SD_IRQ_STAT, offset 0x0010. -/
abbrev sdIrqStat : Nat := 0x20030010
abbrev sdIrqStatSrc : Fld := ⟨sdIrqStat, 0, 15⟩
/-- SD_IRQ_EN, offset 0x0014. -/
abbrev sdIrqEn : Nat := 0x20030014
abbrev sdIrqEnSrc : Fld := ⟨sdIrqEn, 0, 15⟩
/-- SD_BCTRL, offset 0x0100. -/
abbrev sdBctrl (i : Nat) : Nat := 0x20030100 + 64 * i
abbrev sdBctrlArm (i : Nat) : Fld := ⟨sdBctrl i, 0, 1⟩
abbrev sdBctrlOvr (i : Nat) : Fld := ⟨sdBctrl i, 1, 1⟩
abbrev sdBctrlUnlock (i : Nat) : Fld := ⟨sdBctrl i, 2, 1⟩
abbrev sdBctrlDclr (i : Nat) : Fld := ⟨sdBctrl i, 3, 1⟩
/-- SD_BSTAT, offset 0x0104. -/
abbrev sdBstat (i : Nat) : Nat := 0x20030104 + 64 * i
abbrev sdBstatBswOn (i : Nat) : Fld := ⟨sdBstat i, 0, 1⟩
abbrev sdBstatLock (i : Nat) : Fld := ⟨sdBstat i, 1, 1⟩
abbrev sdBstatBswOt (i : Nat) : Fld := ⟨sdBstat i, 2, 1⟩
abbrev sdBstatDefer (i : Nat) : Fld := ⟨sdBstat i, 3, 1⟩
abbrev sdBstatHolding (i : Nat) : Fld := ⟨sdBstat i, 4, 1⟩
abbrev sdBstatGranted (i : Nat) : Fld := ⟨sdBstat i, 5, 1⟩
abbrev sdBstatGrant (i : Nat) : Fld := ⟨sdBstat i, 6, 2⟩
abbrev sdBstatQlen (i : Nat) : Fld := ⟨sdBstat i, 8, 3⟩
abbrev sdBstatErr (i : Nat) : Fld := ⟨sdBstat i, 16, 4⟩
/-- SD_BDIAG, offset 0x0108. -/
abbrev sdBdiag (i : Nat) : Nat := 0x20030108 + 64 * i
abbrev sdBdiagLocked (i : Nat) : Fld := ⟨sdBdiag i, 0, 1⟩
abbrev sdBdiagBswTrip (i : Nat) : Fld := ⟨sdBdiag i, 1, 1⟩
abbrev sdBdiagBswLim (i : Nat) : Fld := ⟨sdBdiag i, 2, 1⟩
abbrev sdBdiagDeferEv (i : Nat) : Fld := ⟨sdBdiag i, 3, 1⟩
abbrev sdBdiagHoldEnt (i : Nat) : Fld := ⟨sdBdiag i, 4, 1⟩
abbrev sdBdiagFailed (i : Nat) : Fld := ⟨sdBdiag i, 5, 1⟩
abbrev sdBdiagChan (i : Nat) : Fld := ⟨sdBdiag i, 6, 1⟩
/-- SD_BHOLD, offset 0x010C. -/
abbrev sdBhold (i : Nat) : Nat := 0x2003010C + 64 * i
abbrev sdBholdHoldMs (i : Nat) : Fld := ⟨sdBhold i, 0, 10⟩
/-- SD_BENERGY, offset 0x0110. -/
abbrev sdBenergy (i : Nat) : Nat := 0x20030110 + 64 * i
abbrev sdBenergyBucket (i : Nat) : Fld := ⟨sdBenergy i, 0, 16⟩
abbrev sdBenergyLast (i : Nat) : Fld := ⟨sdBenergy i, 16, 16⟩
/-- SD_BMEAS, offset 0x0114. -/
abbrev sdBmeas (i : Nat) : Nat := 0x20030114 + 64 * i
abbrev sdBmeasIbank (i : Nat) : Fld := ⟨sdBmeas i, 0, 16⟩
abbrev sdBmeasVbank (i : Nat) : Fld := ⟨sdBmeas i, 16, 16⟩
/-- SD_CCTRL, offset 0x1000. -/
abbrev sdCctrl (i : Nat) : Nat := 0x20031000 + 128 * i
abbrev sdCctrlOn (i : Nat) : Fld := ⟨sdCctrl i, 0, 1⟩
abbrev sdCctrlMode (i : Nat) : Fld := ⟨sdCctrl i, 1, 2⟩
abbrev sdCctrlPair (i : Nat) : Fld := ⟨sdCctrl i, 3, 1⟩
abbrev sdCctrlPeakEn (i : Nat) : Fld := ⟨sdCctrl i, 4, 1⟩
abbrev sdCctrlChop (i : Nat) : Fld := ⟨sdCctrl i, 5, 1⟩
abbrev sdCctrlDipEn (i : Nat) : Fld := ⟨sdCctrl i, 6, 1⟩
abbrev sdCctrlFail (i : Nat) : Fld := ⟨sdCctrl i, 7, 2⟩
abbrev sdCctrlStagger (i : Nat) : Fld := ⟨sdCctrl i, 9, 1⟩
abbrev sdCctrlFclr (i : Nat) : Fld := ⟨sdCctrl i, 10, 1⟩
abbrev sdCctrlCntclr (i : Nat) : Fld := ⟨sdCctrl i, 11, 1⟩
/-- SD_CCUR, offset 0x1004. -/
abbrev sdCcur (i : Nat) : Nat := 0x20031004 + 128 * i
abbrev sdCcurHold (i : Nat) : Fld := ⟨sdCcur i, 0, 10⟩
abbrev sdCcurPeak (i : Nat) : Fld := ⟨sdCcur i, 16, 10⟩
/-- SD_CRANGE, offset 0x1008. -/
abbrev sdCrange (i : Nat) : Nat := 0x20031008 + 128 * i
abbrev sdCrangeHmin (i : Nat) : Fld := ⟨sdCrange i, 0, 10⟩
abbrev sdCrangeHmax (i : Nat) : Fld := ⟨sdCrange i, 16, 10⟩
/-- SD_CTIME, offset 0x100C. -/
abbrev sdCtime (i : Nat) : Nat := 0x2003100C + 128 * i
abbrev sdCtimeDwell (i : Nat) : Fld := ⟨sdCtime i, 0, 9⟩
abbrev sdCtimeMaxwait (i : Nat) : Fld := ⟨sdCtime i, 16, 9⟩
/-- SD_CCHOP, offset 0x1010. -/
abbrev sdCchop (i : Nat) : Nat := 0x20031010 + 128 * i
abbrev sdCchopFreq (i : Nat) : Fld := ⟨sdCchop i, 0, 9⟩
abbrev sdCchopBand (i : Nat) : Fld := ⟨sdCchop i, 16, 5⟩
/-- SD_CDITH, offset 0x1014. -/
abbrev sdCdith (i : Nat) : Nat := 0x20031014 + 128 * i
abbrev sdCdithAmp (i : Nat) : Fld := ⟨sdCdith i, 0, 7⟩
abbrev sdCdithDfreq (i : Nat) : Fld := ⟨sdCdith i, 16, 9⟩
/-- SD_CPWM, offset 0x1018. -/
abbrev sdCpwm (i : Nat) : Nat := 0x20031018 + 128 * i
abbrev sdCpwmPeriod (i : Nat) : Fld := ⟨sdCpwm i, 0, 14⟩
abbrev sdCpwmPhase (i : Nat) : Fld := ⟨sdCpwm i, 16, 14⟩
/-- SD_CDUTY, offset 0x101C. -/
abbrev sdCduty (i : Nat) : Nat := 0x2003101C + 128 * i
abbrev sdCdutyDuty (i : Nat) : Fld := ⟨sdCduty i, 0, 10⟩
/-- SD_CTPK, offset 0x1020. -/
abbrev sdCtpk (i : Nat) : Nat := 0x20031020 + 128 * i
abbrev sdCtpkTpkMin (i : Nat) : Fld := ⟨sdCtpk i, 0, 16⟩
abbrev sdCtpkTpkMax (i : Nat) : Fld := ⟨sdCtpk i, 16, 16⟩
/-- SD_CDIAGCFG, offset 0x1024. -/
abbrev sdCdiagcfg (i : Nat) : Nat := 0x20031024 + 128 * i
abbrev sdCdiagcfgDipMin (i : Nat) : Fld := ⟨sdCdiagcfg i, 0, 6⟩
/-- SD_CFAILV, offset 0x1028. -/
abbrev sdCfailv (i : Nat) : Nat := 0x20031028 + 128 * i
abbrev sdCfailvValue (i : Nat) : Fld := ⟨sdCfailv i, 0, 10⟩
/-- SD_CSTAT, offset 0x1030. -/
abbrev sdCstat (i : Nat) : Nat := 0x20031030 + 128 * i
abbrev sdCstatPhase (i : Nat) : Fld := ⟨sdCstat i, 0, 3⟩
abbrev sdCstatOwned (i : Nat) : Fld := ⟨sdCstat i, 3, 1⟩
abbrev sdCstatPwmOn (i : Nat) : Fld := ⟨sdCstat i, 4, 1⟩
abbrev sdCstatErr (i : Nat) : Fld := ⟨sdCstat i, 8, 4⟩
/-- SD_CDIAG, offset 0x1034. -/
abbrev sdCdiag (i : Nat) : Nat := 0x20031034 + 128 * i
abbrev sdCdiagTpkFast (i : Nat) : Fld := ⟨sdCdiag i, 0, 1⟩
abbrev sdCdiagTpkSlow (i : Nat) : Fld := ⟨sdCdiag i, 1, 1⟩
abbrev sdCdiagNomove (i : Nat) : Fld := ⟨sdCdiag i, 2, 1⟩
abbrev sdCdiagLate (i : Nat) : Fld := ⟨sdCdiag i, 3, 1⟩
abbrev sdCdiagOpen (i : Nat) : Fld := ⟨sdCdiag i, 4, 1⟩
abbrev sdCdiagOvc (i : Nat) : Fld := ⟨sdCdiag i, 5, 1⟩
abbrev sdCdiagWdrn (i : Nat) : Fld := ⟨sdCdiag i, 6, 1⟩
/-- SD_CMEAS, offset 0x1038. -/
abbrev sdCmeas (i : Nat) : Nat := 0x20031038 + 128 * i
abbrev sdCmeasIavg (i : Nat) : Fld := ⟨sdCmeas i, 0, 16⟩
abbrev sdCmeasIlast (i : Nat) : Fld := ⟨sdCmeas i, 16, 16⟩
/-- SD_CPULL, offset 0x103C. -/
abbrev sdCpull (i : Nat) : Nat := 0x2003103C + 128 * i
abbrev sdCpullTpk (i : Nat) : Fld := ⟨sdCpull i, 0, 16⟩
abbrev sdCpullMove (i : Nat) : Fld := ⟨sdCpull i, 16, 16⟩
/-- SD_CPULLINS, offset 0x1040. -/
abbrev sdCpullins (i : Nat) : Nat := 0x20031040 + 128 * i
abbrev sdCpullinsN (i : Nat) : Fld := ⟨sdCpullins i, 0, 32⟩
/-- SD_CLATES, offset 0x1044. -/
abbrev sdClates (i : Nat) : Nat := 0x20031044 + 128 * i
abbrev sdClatesN (i : Nat) : Fld := ⟨sdClates i, 0, 32⟩
/-- SD_CTPKERR, offset 0x1048. -/
abbrev sdCtpkerr (i : Nat) : Nat := 0x20031048 + 128 * i
abbrev sdCtpkerrN (i : Nat) : Fld := ⟨sdCtpkerr i, 0, 32⟩
/-- SD_CWDRNS, offset 0x104C. -/
abbrev sdCwdrns (i : Nat) : Nat := 0x2003104C + 128 * i
abbrev sdCwdrnsN (i : Nat) : Fld := ⟨sdCwdrns i, 0, 32⟩
/-! Block LS at 0x20040000 (spec/04_load_switches.md). -/
/-- LS_ID, offset 0x0000. -/
abbrev lsId : Nat := 0x20040000
abbrev lsIdMinor : Fld := ⟨lsId, 0, 8⟩
abbrev lsIdMajor : Fld := ⟨lsId, 8, 8⟩
abbrev lsIdChannels : Fld := ⟨lsId, 16, 8⟩
abbrev lsIdGroups : Fld := ⟨lsId, 24, 8⟩
/-- LS_STAT, offset 0x0008. -/
abbrev lsStat : Nat := 0x20040008
abbrev lsStatLink : Fld := ⟨lsStat, 0, 2⟩
abbrev lsStatHold : Fld := ⟨lsStat, 2, 2⟩
abbrev lsStatDierst : Fld := ⟨lsStat, 4, 2⟩
abbrev lsStatStop : Fld := ⟨lsStat, 6, 1⟩
abbrev lsStatLdumpC : Fld := ⟨lsStat, 7, 1⟩
abbrev lsStatLdumpD : Fld := ⟨lsStat, 8, 1⟩
abbrev lsStatLgnd : Fld := ⟨lsStat, 9, 2⟩
/-- LS_IRQ_STAT, offset 0x0010. -/
abbrev lsIrqStat : Nat := 0x20040010
abbrev lsIrqStatSrc : Fld := ⟨lsIrqStat, 0, 12⟩
/-- LS_IRQ_EN, offset 0x0014. -/
abbrev lsIrqEn : Nat := 0x20040014
abbrev lsIrqEnSrc : Fld := ⟨lsIrqEn, 0, 12⟩
/-- LS_GCTRL, offset 0x0100. -/
abbrev lsGctrl (i : Nat) : Nat := 0x20040100 + 64 * i
abbrev lsGctrlArm (i : Nat) : Fld := ⟨lsGctrl i, 0, 1⟩
/-- LS_GSTAT, offset 0x0104. -/
abbrev lsGstat (i : Nat) : Nat := 0x20040104 + 64 * i
abbrev lsGstatDefer (i : Nat) : Fld := ⟨lsGstat i, 0, 1⟩
abbrev lsGstatHolding (i : Nat) : Fld := ⟨lsGstat i, 1, 1⟩
abbrev lsGstatErr (i : Nat) : Fld := ⟨lsGstat i, 8, 4⟩
/-- LS_GDIAG, offset 0x0108. -/
abbrev lsGdiag (i : Nat) : Nat := 0x20040108 + 64 * i
abbrev lsGdiagHoldEnt (i : Nat) : Fld := ⟨lsGdiag i, 0, 1⟩
abbrev lsGdiagFailed (i : Nat) : Fld := ⟨lsGdiag i, 1, 1⟩
abbrev lsGdiagDeferEv (i : Nat) : Fld := ⟨lsGdiag i, 2, 1⟩
abbrev lsGdiagChan (i : Nat) : Fld := ⟨lsGdiag i, 3, 1⟩
/-- LS_GHOLD, offset 0x010C. -/
abbrev lsGhold (i : Nat) : Nat := 0x2004010C + 64 * i
abbrev lsGholdHoldMs (i : Nat) : Fld := ⟨lsGhold i, 0, 10⟩
/-- LS_GTEMP, offset 0x0110. -/
abbrev lsGtemp (i : Nat) : Nat := 0x20040110 + 64 * i
abbrev lsGtempTref (i : Nat) : Fld := ⟨lsGtemp i, 0, 16⟩
/-- LS_GMEAS, offset 0x0114. -/
abbrev lsGmeas (i : Nat) : Nat := 0x20040114 + 64 * i
abbrev lsGmeasIgrp (i : Nat) : Fld := ⟨lsGmeas i, 0, 16⟩
abbrev lsGmeasVgrp (i : Nat) : Fld := ⟨lsGmeas i, 16, 16⟩
/-- LS_CCTRL, offset 0x1000. -/
abbrev lsCctrl (i : Nat) : Nat := 0x20041000 + 128 * i
abbrev lsCctrlOn (i : Nat) : Fld := ⟨lsCctrl i, 0, 1⟩
abbrev lsCctrlMode (i : Nat) : Fld := ⟨lsCctrl i, 1, 2⟩
abbrev lsCctrlInduct (i : Nat) : Fld := ⟨lsCctrl i, 3, 1⟩
abbrev lsCctrlOldEn (i : Nat) : Fld := ⟨lsCctrl i, 4, 1⟩
abbrev lsCctrlFail (i : Nat) : Fld := ⟨lsCctrl i, 5, 2⟩
abbrev lsCctrlFclr (i : Nat) : Fld := ⟨lsCctrl i, 7, 1⟩
abbrev lsCctrlUnlock (i : Nat) : Fld := ⟨lsCctrl i, 8, 1⟩
abbrev lsCctrlCntclr (i : Nat) : Fld := ⟨lsCctrl i, 9, 1⟩
/-- LS_CINR, offset 0x1004. -/
abbrev lsCinr (i : Nat) : Nat := 0x20041004 + 128 * i
abbrev lsCinrInrush (i : Nat) : Fld := ⟨lsCinr i, 0, 8⟩
abbrev lsCinrRetry (i : Nat) : Fld := ⟨lsCinr i, 8, 4⟩
/-- LS_CPWM, offset 0x1008. -/
abbrev lsCpwm (i : Nat) : Nat := 0x20041008 + 128 * i
abbrev lsCpwmPeriod (i : Nat) : Fld := ⟨lsCpwm i, 0, 11⟩
abbrev lsCpwmPhase (i : Nat) : Fld := ⟨lsCpwm i, 16, 11⟩
/-- LS_CDUTY, offset 0x100C. -/
abbrev lsCduty (i : Nat) : Nat := 0x2004100C + 128 * i
abbrev lsCdutyDuty (i : Nat) : Fld := ⟨lsCduty i, 0, 12⟩
/-- LS_CSOFT, offset 0x1010. -/
abbrev lsCsoft (i : Nat) : Nat := 0x20041010 + 128 * i
abbrev lsCsoftSsStart (i : Nat) : Fld := ⟨lsCsoft i, 0, 12⟩
abbrev lsCsoftSsTime (i : Nat) : Fld := ⟨lsCsoft i, 16, 12⟩
/-- LS_COL, offset 0x1014. -/
abbrev lsCol (i : Nat) : Nat := 0x20041014 + 128 * i
abbrev lsColOlTh (i : Nat) : Fld := ⟨lsCol i, 0, 8⟩
/-- LS_CFAILV, offset 0x1018. -/
abbrev lsCfailv (i : Nat) : Nat := 0x20041018 + 128 * i
abbrev lsCfailvValue (i : Nat) : Fld := ⟨lsCfailv i, 0, 12⟩
/-- LS_CSTAT, offset 0x1030. -/
abbrev lsCstat (i : Nat) : Nat := 0x20041030 + 128 * i
abbrev lsCstatPhase (i : Nat) : Fld := ⟨lsCstat i, 0, 3⟩
abbrev lsCstatInr (i : Nat) : Fld := ⟨lsCstat i, 3, 1⟩
abbrev lsCstatOwned (i : Nat) : Fld := ⟨lsCstat i, 4, 1⟩
abbrev lsCstatErr (i : Nat) : Fld := ⟨lsCstat i, 8, 4⟩
/-- LS_CDIAG, offset 0x1034. -/
abbrev lsCdiag (i : Nat) : Nat := 0x20041034 + 128 * i
abbrev lsCdiagLim (i : Nat) : Fld := ⟨lsCdiag i, 0, 1⟩
abbrev lsCdiagTsd (i : Nat) : Fld := ⟨lsCdiag i, 1, 1⟩
abbrev lsCdiagDtsd (i : Nat) : Fld := ⟨lsCdiag i, 2, 1⟩
abbrev lsCdiagLatch (i : Nat) : Fld := ⟨lsCdiag i, 3, 1⟩
abbrev lsCdiagLock (i : Nat) : Fld := ⟨lsCdiag i, 4, 1⟩
abbrev lsCdiagOlOn (i : Nat) : Fld := ⟨lsCdiag i, 5, 1⟩
abbrev lsCdiagOlOff (i : Nat) : Fld := ⟨lsCdiag i, 6, 1⟩
abbrev lsCdiagStb (i : Nat) : Fld := ⟨lsCdiag i, 7, 1⟩
abbrev lsCdiagDefer (i : Nat) : Fld := ⟨lsCdiag i, 8, 1⟩
/-- LS_CMEAS, offset 0x1038. -/
abbrev lsCmeas (i : Nat) : Nat := 0x20041038 + 128 * i
abbrev lsCmeasIavg (i : Nat) : Fld := ⟨lsCmeas i, 0, 16⟩
abbrev lsCmeasTj (i : Nat) : Fld := ⟨lsCmeas i, 16, 16⟩
/-- LS_CENERGY, offset 0x103C. -/
abbrev lsCenergy (i : Nat) : Nat := 0x2004103C + 128 * i
abbrev lsCenergyBucket (i : Nat) : Fld := ⟨lsCenergy i, 0, 16⟩
abbrev lsCenergyLast (i : Nat) : Fld := ⟨lsCenergy i, 16, 16⟩
/-- LS_CSWITCHONS, offset 0x1040. -/
abbrev lsCswitchons (i : Nat) : Nat := 0x20041040 + 128 * i
abbrev lsCswitchonsN (i : Nat) : Fld := ⟨lsCswitchons i, 0, 32⟩
/-- LS_CSHUTDOWNS, offset 0x1044. -/
abbrev lsCshutdowns (i : Nat) : Nat := 0x20041044 + 128 * i
abbrev lsCshutdownsN (i : Nat) : Fld := ⟨lsCshutdowns i, 0, 32⟩
/-- LS_CCLAMPS, offset 0x1048. -/
abbrev lsCclamps (i : Nat) : Nat := 0x20041048 + 128 * i
abbrev lsCclampsN (i : Nat) : Fld := ⟨lsCclamps i, 0, 32⟩
/-- LS_CLIMITS, offset 0x104C. -/
abbrev lsClimits (i : Nat) : Nat := 0x2004104C + 128 * i
abbrev lsClimitsN (i : Nat) : Fld := ⟨lsClimits i, 0, 32⟩
/-! Block SI at 0x20050000 (spec/05_sensor_inputs.md). -/
/-- SI_ID, offset 0x0000. -/
abbrev siId : Nat := 0x20050000
abbrev siIdMinor : Fld := ⟨siId, 0, 8⟩
abbrev siIdMajor : Fld := ⟨siId, 8, 8⟩
abbrev siIdAi : Fld := ⟨siId, 16, 8⟩
abbrev siIdPi : Fld := ⟨siId, 24, 8⟩
/-- SI_STOP, offset 0x0008. -/
abbrev siStop : Nat := 0x20050008
abbrev siStopSwstop : Fld := ⟨siStop, 0, 1⟩
abbrev siStopRearm : Fld := ⟨siStop, 1, 1⟩
abbrev siStopState : Fld := ⟨siStop, 4, 2⟩
abbrev siStopCause : Fld := ⟨siStop, 6, 4⟩
abbrev siStopDisc : Fld := ⟨siStop, 10, 1⟩
abbrev siStopRearmErr : Fld := ⟨siStop, 11, 1⟩
abbrev siStopBand : Fld := ⟨siStop, 12, 2⟩
abbrev siStopCount : Fld := ⟨siStop, 16, 16⟩
/-- SI_STOPCFG, offset 0x000C. -/
abbrev siStopcfg : Nat := 0x2005000C
abbrev siStopcfgFilt : Fld := ⟨siStopcfg, 0, 5⟩
abbrev siStopcfgRel : Fld := ⟨siStopcfg, 8, 8⟩
abbrev siStopcfgDiscMs : Fld := ⟨siStopcfg, 16, 16⟩
/-- SI_IRQ_STAT, offset 0x0010. -/
abbrev siIrqStat : Nat := 0x20050010
abbrev siIrqStatSrc : Fld := ⟨siIrqStat, 0, 9⟩
/-- SI_IRQ_EN, offset 0x0014. -/
abbrev siIrqEn : Nat := 0x20050014
abbrev siIrqEnSrc : Fld := ⟨siIrqEn, 0, 9⟩
/-- SI_SPCTRL, offset 0x0020. -/
abbrev siSpctrl : Nat := 0x20050020
abbrev siSpctrlEn : Fld := ⟨siSpctrl, 0, 4⟩
abbrev siSpctrlFault : Fld := ⟨siSpctrl, 4, 4⟩
abbrev siSpctrlClr : Fld := ⟨siSpctrl, 8, 4⟩
/-- SI_SPMEAS, offset 0x0024. -/
abbrev siSpmeas (i : Nat) : Nat := 0x20050024 + 4 * i
abbrev siSpmeasV (i : Nat) : Fld := ⟨siSpmeas i, 0, 16⟩
abbrev siSpmeasI (i : Nat) : Fld := ⟨siSpmeas i, 16, 16⟩
/-- SI_AICFG, offset 0x0100. -/
abbrev siAicfg (i : Nat) : Nat := 0x20050100 + 16 * i
abbrev siAicfgMode (i : Nat) : Fld := ⟨siAicfg i, 0, 3⟩
abbrev siAicfgRsup (i : Nat) : Fld := ⟨siAicfg i, 4, 2⟩
abbrev siAicfgOsr (i : Nat) : Fld := ⟨siAicfg i, 6, 3⟩
abbrev siAicfgFclr (i : Nat) : Fld := ⟨siAicfg i, 9, 1⟩
abbrev siAicfgPer (i : Nat) : Fld := ⟨siAicfg i, 16, 16⟩
/-- SI_AITAU, offset 0x0104. -/
abbrev siAitau (i : Nat) : Nat := 0x20050104 + 16 * i
abbrev siAitauTau (i : Nat) : Fld := ⟨siAitau i, 0, 16⟩
/-- SI_AIVAL, offset 0x0108. -/
abbrev siAival (i : Nat) : Nat := 0x20050108 + 16 * i
abbrev siAivalVal (i : Nat) : Fld := ⟨siAival i, 0, 32⟩
/-- SI_AISTAT, offset 0x010C. -/
abbrev siAistat (i : Nat) : Nat := 0x2005010C + 16 * i
abbrev siAistatOor (i : Nat) : Fld := ⟨siAistat i, 0, 1⟩
abbrev siAistatOpen (i : Nat) : Fld := ⟨siAistat i, 1, 1⟩
abbrev siAistatBurden (i : Nat) : Fld := ⟨siAistat i, 2, 1⟩
abbrev siAistatSupply (i : Nat) : Fld := ⟨siAistat i, 3, 1⟩
abbrev siAistatErr (i : Nat) : Fld := ⟨siAistat i, 4, 4⟩
/-- SI_PICFG, offset 0x0400. -/
abbrev siPicfg (i : Nat) : Nat := 0x20050400 + 32 * i
abbrev siPicfgMode (i : Nat) : Fld := ⟨siPicfg i, 0, 3⟩
abbrev siPicfgPull (i : Nat) : Fld := ⟨siPicfg i, 3, 2⟩
abbrev siPicfgEdge (i : Nat) : Fld := ⟨siPicfg i, 5, 1⟩
abbrev siPicfgCntclr (i : Nat) : Fld := ⟨siPicfg i, 6, 1⟩
abbrev siPicfgGlitch (i : Nat) : Fld := ⟨siPicfg i, 8, 8⟩
abbrev siPicfgPub (i : Nat) : Fld := ⟨siPicfg i, 16, 16⟩
/-- SI_PITHR, offset 0x0404. -/
abbrev siPithr (i : Nat) : Nat := 0x20050404 + 32 * i
abbrev siPithrThi (i : Nat) : Fld := ⟨siPithr i, 0, 8⟩
abbrev siPithrTlo (i : Nat) : Fld := ⟨siPithr i, 8, 8⟩
/-- SI_PITO, offset 0x0408. -/
abbrev siPito (i : Nat) : Nat := 0x20050408 + 32 * i
abbrev siPitoZto (i : Nat) : Fld := ⟨siPito i, 0, 16⟩
/-- SI_PIVAL, offset 0x040C. -/
abbrev siPival (i : Nat) : Nat := 0x2005040C + 32 * i
abbrev siPivalVal (i : Nat) : Fld := ⟨siPival i, 0, 32⟩
/-- SI_PICNT, offset 0x0410. -/
abbrev siPicnt (i : Nat) : Nat := 0x20050410 + 32 * i
abbrev siPicntCnt (i : Nat) : Fld := ⟨siPicnt i, 0, 32⟩
/-- SI_PITS_LO, offset 0x0414. -/
abbrev siPitsLo (i : Nat) : Nat := 0x20050414 + 32 * i
abbrev siPitsLoTs (i : Nat) : Fld := ⟨siPitsLo i, 0, 32⟩
/-- SI_PITS_HI, offset 0x0418. -/
abbrev siPitsHi (i : Nat) : Nat := 0x20050418 + 32 * i
abbrev siPitsHiTs (i : Nat) : Fld := ⟨siPitsHi i, 0, 32⟩
/-- SI_PISTAT, offset 0x041C. -/
abbrev siPistat (i : Nat) : Nat := 0x2005041C + 32 * i
abbrev siPistatOvf (i : Nat) : Fld := ⟨siPistat i, 0, 1⟩
abbrev siPistatStall (i : Nat) : Fld := ⟨siPistat i, 1, 1⟩
abbrev siPistatQerr (i : Nat) : Fld := ⟨siPistat i, 2, 1⟩
abbrev siPistatErr (i : Nat) : Fld := ⟨siPistat i, 4, 4⟩
/-- SI_BICFG, offset 0x0800. -/
abbrev siBicfg (i : Nat) : Nat := 0x20050800 + 16 * i
abbrev siBicfgEn (i : Nat) : Fld := ⟨siBicfg i, 0, 1⟩
abbrev siBicfgExc (i : Nat) : Fld := ⟨siBicfg i, 1, 1⟩
abbrev siBicfgGain (i : Nat) : Fld := ⟨siBicfg i, 2, 3⟩
abbrev siBicfgRate (i : Nat) : Fld := ⟨siBicfg i, 16, 16⟩
/-- SI_BIVAL, offset 0x0804. -/
abbrev siBival (i : Nat) : Nat := 0x20050804 + 16 * i
abbrev siBivalVal (i : Nat) : Fld := ⟨siBival i, 0, 32⟩
/-- SI_BISTAT, offset 0x0808. -/
abbrev siBistat (i : Nat) : Nat := 0x20050808 + 16 * i
abbrev siBistatSenseOpen (i : Nat) : Fld := ⟨siBistat i, 0, 1⟩
abbrev siBistatExcLim (i : Nat) : Fld := ⟨siBistat i, 1, 1⟩
abbrev siBistatOor (i : Nat) : Fld := ⟨siBistat i, 2, 1⟩
/-- SI_LICFG, offset 0x0900. -/
abbrev siLicfg (i : Nat) : Nat := 0x20050900 + 128 * i
abbrev siLicfgEn (i : Nat) : Fld := ⟨siLicfg i, 0, 1⟩
abbrev siLicfgRange (i : Nat) : Fld := ⟨siLicfg i, 1, 1⟩
abbrev siLicfgHoldoff (i : Nat) : Fld := ⟨siLicfg i, 4, 8⟩
abbrev siLicfgInterval (i : Nat) : Fld := ⟨siLicfg i, 16, 16⟩
/-- SI_LITRIG, offset 0x0904. -/
abbrev siLitrig (i : Nat) : Nat := 0x20050904 + 128 * i
abbrev siLitrigTrig (i : Nat) : Fld := ⟨siLitrig i, 0, 12⟩
/-- SI_LIEDGE, offset 0x0908. -/
abbrev siLiedge (i j : Nat) : Nat := 0x20050908 + 128 * i + 4 * j
abbrev siLiedgeElo (i j : Nat) : Fld := ⟨siLiedge i j, 0, 12⟩
abbrev siLiedgeEhi (i j : Nat) : Fld := ⟨siLiedge i j, 16, 12⟩
/-- SI_LIRATE, offset 0x0928. -/
abbrev siLirate (i : Nat) : Nat := 0x20050928 + 128 * i
abbrev siLirateRate (i : Nat) : Fld := ⟨siLirate i, 0, 32⟩
/-- SI_LISTAT, offset 0x092C. -/
abbrev siListat (i : Nat) : Nat := 0x2005092C + 128 * i
abbrev siListatOvl (i : Nat) : Fld := ⟨siListat i, 0, 1⟩
abbrev siListatSat (i : Nat) : Fld := ⟨siListat i, 1, 1⟩
abbrev siListatErr (i : Nat) : Fld := ⟨siListat i, 3, 1⟩
/-- SI_LIHIST, offset 0x0940. -/
abbrev siLihist (i j : Nat) : Nat := 0x20050940 + 128 * i + 4 * j
abbrev siLihistBlo (i j : Nat) : Fld := ⟨siLihist i j, 0, 16⟩
abbrev siLihistBhi (i j : Nat) : Fld := ⟨siLihist i j, 16, 16⟩
/-- SI_LICNT, offset 0x0960. -/
abbrev siLicnt (i : Nat) : Nat := 0x20050960 + 128 * i
abbrev siLicntCount (i : Nat) : Fld := ⟨siLicnt i, 0, 16⟩
abbrev siLicntDead (i : Nat) : Fld := ⟨siLicnt i, 16, 16⟩
/-- SI_IMUCFG, offset 0x0D00. -/
abbrev siImucfg : Nat := 0x20050D00
abbrev siImucfgEn : Fld := ⟨siImucfg, 0, 1⟩
abbrev siImucfgArange : Fld := ⟨siImucfg, 1, 2⟩
abbrev siImucfgGrange : Fld := ⟨siImucfg, 3, 2⟩
/-- SI_IMUSTAT, offset 0x0D04. -/
abbrev siImustat : Nat := 0x20050D04
abbrev siImustatFault : Fld := ⟨siImustat, 0, 1⟩
abbrev siImustatStok : Fld := ⟨siImustat, 1, 1⟩
abbrev siImustatGap : Fld := ⟨siImustat, 2, 1⟩
/-! Block FU at 0x20060000 (spec/06_fusion.md). -/
/-- FU_ID, offset 0x0000. -/
abbrev fuId : Nat := 0x20060000
abbrev fuIdMinor : Fld := ⟨fuId, 0, 8⟩
abbrev fuIdMajor : Fld := ⟨fuId, 8, 8⟩
abbrev fuIdSlots : Fld := ⟨fuId, 16, 8⟩
abbrev fuIdQty : Fld := ⟨fuId, 24, 8⟩
/-- FU_CTRL, offset 0x0004. -/
abbrev fuCtrl : Nat := 0x20060004
abbrev fuCtrlEn : Fld := ⟨fuCtrl, 0, 1⟩
abbrev fuCtrlSvc : Fld := ⟨fuCtrl, 1, 1⟩
/-- FU_STAT, offset 0x0008. -/
abbrev fuStat : Nat := 0x20060008
abbrev fuStatBusy : Fld := ⟨fuStat, 0, 1⟩
abbrev fuStatPwr : Fld := ⟨fuStat, 1, 1⟩
abbrev fuStatOverrun : Fld := ⟨fuStat, 2, 1⟩
abbrev fuStatTstep : Fld := ⟨fuStat, 3, 1⟩
abbrev fuStatFar : Fld := ⟨fuStat, 4, 1⟩
/-- FU_IRQ_STAT, offset 0x0010. -/
abbrev fuIrqStat : Nat := 0x20060010
abbrev fuIrqStatSrc : Fld := ⟨fuIrqStat, 0, 7⟩
/-- FU_IRQ_EN, offset 0x0014. -/
abbrev fuIrqEn : Nat := 0x20060014
abbrev fuIrqEnSrc : Fld := ⟨fuIrqEn, 0, 7⟩
/-- FU_JQCFG, offset 0x0100. -/
abbrev fuJqcfg (i : Nat) : Nat := 0x20060100 + 64 * i
abbrev fuJqcfgSlots (i : Nat) : Fld := ⟨fuJqcfg i, 0, 9⟩
/-- FU_JQSUBMIT, offset 0x0104. -/
abbrev fuJqsubmit (i : Nat) : Nat := 0x20060104 + 64 * i
abbrev fuJqsubmitSubmit (i : Nat) : Fld := ⟨fuJqsubmit i, 0, 28⟩
/-- FU_JQRES, offset 0x0108. -/
abbrev fuJqres (i : Nat) : Nat := 0x20060108 + 64 * i
abbrev fuJqresResult (i : Nat) : Fld := ⟨fuJqres i, 0, 2⟩
abbrev fuJqresTag (i : Nat) : Fld := ⟨fuJqres i, 16, 16⟩
/-- FU_JQCQBASE_LO, offset 0x010C. -/
abbrev fuJqcqbaseLo (i : Nat) : Nat := 0x2006010C + 64 * i
abbrev fuJqcqbaseLoCqbase (i : Nat) : Fld := ⟨fuJqcqbaseLo i, 0, 32⟩
/-- FU_JQCQBASE_HI, offset 0x0110. -/
abbrev fuJqcqbaseHi (i : Nat) : Nat := 0x20060110 + 64 * i
abbrev fuJqcqbaseHiCqbase (i : Nat) : Fld := ⟨fuJqcqbaseHi i, 0, 32⟩
/-- FU_JQCQTAIL, offset 0x0114. -/
abbrev fuJqcqtail (i : Nat) : Nat := 0x20060114 + 64 * i
abbrev fuJqcqtailCqtail (i : Nat) : Fld := ⟨fuJqcqtail i, 0, 9⟩
/-- FU_JQCQHEAD, offset 0x0118. -/
abbrev fuJqcqhead (i : Nat) : Nat := 0x20060118 + 64 * i
abbrev fuJqcqheadCqhead (i : Nat) : Fld := ⟨fuJqcqhead i, 0, 9⟩
/-- FU_JQOCC, offset 0x011C. -/
abbrev fuJqocc (i : Nat) : Nat := 0x2006011C + 64 * i
abbrev fuJqoccOcc (i : Nat) : Fld := ⟨fuJqocc i, 0, 9⟩
abbrev fuJqoccRefused (i : Nat) : Fld := ⟨fuJqocc i, 16, 16⟩
/-- FU_JQABORT, offset 0x0120. -/
abbrev fuJqabort (i : Nat) : Nat := 0x20060120 + 64 * i
abbrev fuJqabortAbort (i : Nat) : Fld := ⟨fuJqabort i, 0, 16⟩
/-- FU_SSTAT, offset 0x1000. -/
abbrev fuSstat (i : Nat) : Nat := 0x20061000 + 32 * i
abbrev fuSstatMaskA (i : Nat) : Fld := ⟨fuSstat i, 0, 1⟩
abbrev fuSstatMaskB (i : Nat) : Fld := ⟨fuSstat i, 1, 1⟩
abbrev fuSstatCauseA (i : Nat) : Fld := ⟨fuSstat i, 2, 3⟩
abbrev fuSstatCauseB (i : Nat) : Fld := ⟨fuSstat i, 5, 3⟩
abbrev fuSstatShadow (i : Nat) : Fld := ⟨fuSstat i, 8, 8⟩
abbrev fuSstatRole (i : Nat) : Fld := ⟨fuSstat i, 16, 5⟩
/-- FU_SLATE, offset 0x1004. -/
abbrev fuSlate (i : Nat) : Nat := 0x20061004 + 32 * i
abbrev fuSlateN (i : Nat) : Fld := ⟨fuSlate i, 0, 32⟩
/-- FU_STOOOLD, offset 0x1008. -/
abbrev fuStooold (i : Nat) : Nat := 0x20061008 + 32 * i
abbrev fuStoooldN (i : Nat) : Fld := ⟨fuStooold i, 0, 32⟩
/-- FU_SGATEFAIL, offset 0x100C. -/
abbrev fuSgatefail (i : Nat) : Nat := 0x2006100C + 32 * i
abbrev fuSgatefailN (i : Nat) : Fld := ⟨fuSgatefail i, 0, 32⟩
/-- FU_STFAULT, offset 0x1010. -/
abbrev fuStfault (i : Nat) : Nat := 0x20061010 + 32 * i
abbrev fuStfaultN (i : Nat) : Fld := ⟨fuStfault i, 0, 32⟩
/-- FU_QTSTAT, offset 0x2000. -/
abbrev fuQtstat (i : Nat) : Nat := 0x20062000 + 32 * i
abbrev fuQtstatInit (i : Nat) : Fld := ⟨fuQtstat i, 0, 1⟩
abbrev fuQtstatDisputed (i : Nat) : Fld := ⟨fuQtstat i, 1, 1⟩
abbrev fuQtstatHeld (i : Nat) : Fld := ⟨fuQtstat i, 2, 1⟩
abbrev fuQtstatDegraded (i : Nat) : Fld := ⟨fuQtstat i, 3, 1⟩
abbrev fuQtstatConf (i : Nat) : Fld := ⟨fuQtstat i, 16, 16⟩
/-- FU_QTPUBS, offset 0x2004. -/
abbrev fuQtpubs (i : Nat) : Nat := 0x20062004 + 32 * i
abbrev fuQtpubsN (i : Nat) : Fld := ⟨fuQtpubs i, 0, 32⟩
/-- FU_QTOVERRUNS, offset 0x2008. -/
abbrev fuQtoverruns (i : Nat) : Nat := 0x20062008 + 32 * i
abbrev fuQtoverrunsN (i : Nat) : Fld := ⟨fuQtoverruns i, 0, 32⟩
/-- FU_QTDISPUTES, offset 0x200C. -/
abbrev fuQtdisputes (i : Nat) : Nat := 0x2006200C + 32 * i
abbrev fuQtdisputesN (i : Nat) : Fld := ⟨fuQtdisputes i, 0, 32⟩
/-- FU_QTVAL, offset 0x2010. -/
abbrev fuQtval (i : Nat) : Nat := 0x20062010 + 32 * i
abbrev fuQtvalVal (i : Nat) : Fld := ⟨fuQtval i, 0, 32⟩
/-! Block CAM at 0x20070000 (spec/07_camera_pipeline.md). -/
/-- CAM_ID, offset 0x0000. -/
abbrev camId : Nat := 0x20070000
abbrev camIdMinor : Fld := ⟨camId, 0, 8⟩
abbrev camIdMajor : Fld := ⟨camId, 8, 8⟩
abbrev camIdPorts : Fld := ⟨camId, 16, 8⟩
/-- CAM_STAT, offset 0x0008. -/
abbrev camStat : Nat := 0x20070008
abbrev camStatBudget : Fld := ⟨camStat, 0, 16⟩
abbrev camStatDamp : Fld := ⟨camStat, 16, 1⟩
/-- CAM_IRQ_STAT, offset 0x0010. -/
abbrev camIrqStat : Nat := 0x20070010
abbrev camIrqStatSrc : Fld := ⟨camIrqStat, 0, 21⟩
/-- CAM_IRQ_EN, offset 0x0014. -/
abbrev camIrqEn : Nat := 0x20070014
abbrev camIrqEnSrc : Fld := ⟨camIrqEn, 0, 21⟩
/-- CAM_PCTRL, offset 0x1000. -/
abbrev camPctrl (i : Nat) : Nat := 0x20071000 + 512 * i
abbrev camPctrlEn (i : Nat) : Fld := ⟨camPctrl i, 0, 1⟩
abbrev camPctrlSrc (i : Nat) : Fld := ⟨camPctrl i, 1, 1⟩
abbrev camPctrlApply (i : Nat) : Fld := ⟨camPctrl i, 2, 1⟩
abbrev camPctrlCntclr (i : Nat) : Fld := ⟨camPctrl i, 3, 1⟩
abbrev camPctrlNexp (i : Nat) : Fld := ⟨camPctrl i, 4, 2⟩
abbrev camPctrlCfa (i : Nat) : Fld := ⟨camPctrl i, 6, 2⟩
abbrev camPctrlBpp (i : Nat) : Fld := ⟨camPctrl i, 8, 2⟩
abbrev camPctrlPwr (i : Nat) : Fld := ⟨camPctrl i, 12, 1⟩
abbrev camPctrlFsync (i : Nat) : Fld := ⟨camPctrl i, 13, 1⟩
/-- CAM_PVC, offset 0x1004. -/
abbrev camPvc (i : Nat) : Nat := 0x20071004 + 512 * i
abbrev camPvcVc0 (i : Nat) : Fld := ⟨camPvc i, 0, 2⟩
abbrev camPvcVc1 (i : Nat) : Fld := ⟨camPvc i, 2, 2⟩
abbrev camPvcVc2 (i : Nat) : Fld := ⟨camPvc i, 4, 2⟩
/-- CAM_PSIZE, offset 0x1008. -/
abbrev camPsize (i : Nat) : Nat := 0x20071008 + 512 * i
abbrev camPsizeW (i : Nat) : Fld := ⟨camPsize i, 0, 13⟩
abbrev camPsizeH (i : Nat) : Fld := ⟨camPsize i, 16, 13⟩
/-- CAM_PRATE, offset 0x100C. -/
abbrev camPrate (i : Nat) : Nat := 0x2007100C + 512 * i
abbrev camPrateRate (i : Nat) : Fld := ⟨camPrate i, 0, 20⟩
/-- CAM_PTS, offset 0x1010. -/
abbrev camPts (i : Nat) : Nat := 0x20071010 + 512 * i
abbrev camPtsLat (i : Nat) : Fld := ⟨camPts i, 0, 16⟩
abbrev camPtsPhase (i : Nat) : Fld := ⟨camPts i, 16, 16⟩
/-- CAM_PPARAM_LO, offset 0x1014. -/
abbrev camPparamLo (i : Nat) : Nat := 0x20071014 + 512 * i
abbrev camPparamLoParam (i : Nat) : Fld := ⟨camPparamLo i, 0, 32⟩
/-- CAM_PPARAM_HI, offset 0x1018. -/
abbrev camPparamHi (i : Nat) : Nat := 0x20071018 + 512 * i
abbrev camPparamHiParam (i : Nat) : Fld := ⟨camPparamHi i, 0, 32⟩
/-- CAM_PSTATBUF_LO, offset 0x101C. -/
abbrev camPstatbufLo (i : Nat) : Nat := 0x2007101C + 512 * i
abbrev camPstatbufLoStatbuf (i : Nat) : Fld := ⟨camPstatbufLo i, 0, 32⟩
/-- CAM_PSTATBUF_HI, offset 0x1020. -/
abbrev camPstatbufHi (i : Nat) : Nat := 0x20071020 + 512 * i
abbrev camPstatbufHiStatbuf (i : Nat) : Fld := ⟨camPstatbufHi i, 0, 32⟩
/-- CAM_PRPL_LO, offset 0x1024. -/
abbrev camPrplLo (i : Nat) : Nat := 0x20071024 + 512 * i
abbrev camPrplLoRpl (i : Nat) : Fld := ⟨camPrplLo i, 0, 32⟩
/-- CAM_PRPL_HI, offset 0x1028. -/
abbrev camPrplHi (i : Nat) : Nat := 0x20071028 + 512 * i
abbrev camPrplHiRpl (i : Nat) : Fld := ⟨camPrplHi i, 0, 32⟩
/-- CAM_PRPLN, offset 0x102C. -/
abbrev camPrpln (i : Nat) : Nat := 0x2007102C + 512 * i
abbrev camPrplnRpln (i : Nat) : Fld := ⟨camPrpln i, 0, 5⟩
/-- CAM_PFEAT, offset 0x1030. -/
abbrev camPfeat (i : Nat) : Nat := 0x20071030 + 512 * i
abbrev camPfeatKind (i : Nat) : Fld := ⟨camPfeat i, 0, 3⟩
/-- CAM_PSTAT, offset 0x1034. -/
abbrev camPstat (i : Nat) : Nat := 0x20071034 + 512 * i
abbrev camPstatLock (i : Nat) : Fld := ⟨camPstat i, 0, 1⟩
abbrev camPstatPwrFlt (i : Nat) : Fld := ⟨camPstat i, 1, 1⟩
abbrev camPstatApplyPend (i : Nat) : Fld := ⟨camPstat i, 2, 1⟩
abbrev camPstatSbuf (i : Nat) : Fld := ⟨camPstat i, 3, 1⟩
abbrev camPstatErr (i : Nat) : Fld := ⟨camPstat i, 8, 4⟩
/-- CAM_PI2C, offset 0x1038. -/
abbrev camPi2c (i : Nat) : Nat := 0x20071038 + 512 * i
abbrev camPi2cDev (i : Nat) : Fld := ⟨camPi2c i, 0, 7⟩
abbrev camPi2cRd (i : Nat) : Fld := ⟨camPi2c i, 7, 1⟩
abbrev camPi2cReg (i : Nat) : Fld := ⟨camPi2c i, 8, 16⟩
abbrev camPi2cLen (i : Nat) : Fld := ⟨camPi2c i, 24, 1⟩
abbrev camPi2cGo (i : Nat) : Fld := ⟨camPi2c i, 31, 1⟩
/-- CAM_PI2CD, offset 0x103C. -/
abbrev camPi2cd (i : Nat) : Nat := 0x2007103C + 512 * i
abbrev camPi2cdData (i : Nat) : Fld := ⟨camPi2cd i, 0, 16⟩
abbrev camPi2cdBusy (i : Nat) : Fld := ⟨camPi2cd i, 16, 1⟩
abbrev camPi2cdNack (i : Nat) : Fld := ⟨camPi2cd i, 17, 1⟩
/-- CAM_PFRAMES, offset 0x1040. -/
abbrev camPframes (i : Nat) : Nat := 0x20071040 + 512 * i
abbrev camPframesN (i : Nat) : Fld := ⟨camPframes i, 0, 32⟩
/-- CAM_PDROP_CORRUPT, offset 0x1044. -/
abbrev camPdropCorrupt (i : Nat) : Nat := 0x20071044 + 512 * i
abbrev camPdropCorruptN (i : Nat) : Fld := ⟨camPdropCorrupt i, 0, 32⟩
/-- CAM_PDROP_MERGE, offset 0x1048. -/
abbrev camPdropMerge (i : Nat) : Nat := 0x20071048 + 512 * i
abbrev camPdropMergeN (i : Nat) : Fld := ⟨camPdropMerge i, 0, 32⟩
/-- CAM_PDROP_LINK, offset 0x104C. -/
abbrev camPdropLink (i : Nat) : Nat := 0x2007104C + 512 * i
abbrev camPdropLinkN (i : Nat) : Fld := ⟨camPdropLink i, 0, 32⟩
/-- CAM_PDROP_RATE, offset 0x1050. -/
abbrev camPdropRate (i : Nat) : Nat := 0x20071050 + 512 * i
abbrev camPdropRateN (i : Nat) : Fld := ⟨camPdropRate i, 0, 32⟩
/-- CAM_PPKTERR, offset 0x1054. -/
abbrev camPpkterr (i : Nat) : Nat := 0x20071054 + 512 * i
abbrev camPpkterrN (i : Nat) : Fld := ⟨camPpkterr i, 0, 32⟩
/-- CAM_TCFG, offset 0x1080. -/
abbrev camTcfg (i j : Nat) : Nat := 0x20071080 + 512 * i + 64 * j
abbrev camTcfgEn (i j : Nat) : Fld := ⟨camTcfg i j, 0, 1⟩
abbrev camTcfgPoint (i j : Nat) : Fld := ⟨camTcfg i j, 1, 2⟩
abbrev camTcfgComp (i j : Nat) : Fld := ⟨camTcfg i j, 3, 2⟩
abbrev camTcfgNear (i j : Nat) : Fld := ⟨camTcfg i j, 5, 2⟩
abbrev camTcfgNbuf (i j : Nat) : Fld := ⟨camTcfg i j, 8, 5⟩
/-- CAM_TBASE_LO, offset 0x1084. -/
abbrev camTbaseLo (i j : Nat) : Nat := 0x20071084 + 512 * i + 64 * j
abbrev camTbaseLoBase (i j : Nat) : Fld := ⟨camTbaseLo i j, 0, 32⟩
/-- CAM_TBASE_HI, offset 0x1088. -/
abbrev camTbaseHi (i j : Nat) : Nat := 0x20071088 + 512 * i + 64 * j
abbrev camTbaseHiBase (i j : Nat) : Fld := ⟨camTbaseHi i j, 0, 32⟩
/-- CAM_TSTRIDE, offset 0x108C. -/
abbrev camTstride (i j : Nat) : Nat := 0x2007108C + 512 * i + 64 * j
abbrev camTstrideStride (i j : Nat) : Fld := ⟨camTstride i j, 0, 32⟩
/-- CAM_TOWN, offset 0x1090. -/
abbrev camTown (i j : Nat) : Nat := 0x20071090 + 512 * i + 64 * j
abbrev camTownOwn (i j : Nat) : Fld := ⟨camTown i j, 0, 16⟩
/-- CAM_TACK, offset 0x1094. -/
abbrev camTack (i j : Nat) : Nat := 0x20071094 + 512 * i + 64 * j
abbrev camTackAck (i j : Nat) : Fld := ⟨camTack i j, 0, 4⟩
/-- CAM_TLAST, offset 0x1098. -/
abbrev camTlast (i j : Nat) : Nat := 0x20071098 + 512 * i + 64 * j
abbrev camTlastLast (i j : Nat) : Fld := ⟨camTlast i j, 0, 4⟩
abbrev camTlastDrops (i j : Nat) : Fld := ⟨camTlast i j, 16, 16⟩
/-! Block GN at 0x20080000 (spec/08_gnss_time.md). -/
/-- GN_ID, offset 0x0000. -/
abbrev gnId : Nat := 0x20080000
abbrev gnIdMinor : Fld := ⟨gnId, 0, 8⟩
abbrev gnIdMajor : Fld := ⟨gnId, 8, 8⟩
abbrev gnIdChannels : Fld := ⟨gnId, 16, 8⟩
abbrev gnIdSignals : Fld := ⟨gnId, 24, 8⟩
/-- GN_CTRL, offset 0x0004. -/
abbrev gnCtrl : Nat := 0x20080004
abbrev gnCtrlEn : Fld := ⟨gnCtrl, 0, 1⟩
abbrev gnCtrlRfen : Fld := ⟨gnCtrl, 1, 1⟩
abbrev gnCtrlBias : Fld := ⟨gnCtrl, 2, 1⟩
abbrev gnCtrlAclr : Fld := ⟨gnCtrl, 3, 1⟩
/-- GN_STAT, offset 0x0008. -/
abbrev gnStat : Nat := 0x20080008
abbrev gnStatRflock : Fld := ⟨gnStat, 0, 1⟩
abbrev gnStatAntOpen : Fld := ⟨gnStat, 1, 1⟩
abbrev gnStatAntShort : Fld := ⟨gnStat, 2, 1⟩
/-- GN_IRQ_STAT, offset 0x0010. -/
abbrev gnIrqStat : Nat := 0x20080010
abbrev gnIrqStatSrc : Fld := ⟨gnIrqStat, 0, 10⟩
/-- GN_IRQ_EN, offset 0x0014. -/
abbrev gnIrqEn : Nat := 0x20080014
abbrev gnIrqEnSrc : Fld := ⟨gnIrqEn, 0, 10⟩
/-- GN_AGC, offset 0x0018. -/
abbrev gnAgc : Nat := 0x20080018
abbrev gnAgcGainL1 : Fld := ⟨gnAgc, 0, 8⟩
abbrev gnAgcGainL5 : Fld := ⟨gnAgc, 8, 8⟩
abbrev gnAgcIant : Fld := ⟨gnAgc, 16, 16⟩
/-- GN_TIME_LO, offset 0x0020. -/
abbrev gnTimeLo : Nat := 0x20080020
abbrev gnTimeLoTime : Fld := ⟨gnTimeLo, 0, 32⟩
/-- GN_TIME_HI, offset 0x0024. -/
abbrev gnTimeHi : Nat := 0x20080024
abbrev gnTimeHiTime : Fld := ⟨gnTimeHi, 0, 32⟩
/-- GN_TQ, offset 0x0028. -/
abbrev gnTq : Nat := 0x20080028
abbrev gnTqState : Fld := ⟨gnTq, 0, 3⟩
abbrev gnTqStepPend : Fld := ⟨gnTq, 3, 1⟩
abbrev gnTqStepArm : Fld := ⟨gnTq, 4, 1⟩
abbrev gnTqSlew : Fld := ⟨gnTq, 5, 1⟩
abbrev gnTqStepErr : Fld := ⟨gnTq, 6, 1⟩
/-- GN_TUNC, offset 0x002C. -/
abbrev gnTunc : Nat := 0x2008002C
abbrev gnTuncUnc : Fld := ⟨gnTunc, 0, 32⟩
/-- GN_TFADJ, offset 0x0030. -/
abbrev gnTfadj : Nat := 0x20080030
abbrev gnTfadjFadj : Fld := ⟨gnTfadj, 0, 32⟩
/-- GN_TSTEPCTL, offset 0x0034. -/
abbrev gnTstepctl : Nat := 0x20080034
abbrev gnTstepctlArm : Fld := ⟨gnTstepctl, 0, 1⟩
abbrev gnTstepctlCancel : Fld := ⟨gnTstepctl, 1, 1⟩
/-- GN_TSTEP_LO, offset 0x0038. -/
abbrev gnTstepLo : Nat := 0x20080038
abbrev gnTstepLoStep : Fld := ⟨gnTstepLo, 0, 32⟩
/-- GN_TSTEP_HI, offset 0x003C. -/
abbrev gnTstepHi : Nat := 0x2008003C
abbrev gnTstepHiStep : Fld := ⟨gnTstepHi, 0, 32⟩
/-- GN_TPO0CTRL, offset 0x0040. -/
abbrev gnTpo0ctrl : Nat := 0x20080040
abbrev gnTpo0ctrlEn : Fld := ⟨gnTpo0ctrl, 0, 1⟩
abbrev gnTpo0ctrlPol : Fld := ⟨gnTpo0ctrl, 1, 1⟩
abbrev gnTpo0ctrlGate : Fld := ⟨gnTpo0ctrl, 2, 2⟩
abbrev gnTpo0ctrlRate : Fld := ⟨gnTpo0ctrl, 16, 10⟩
/-- GN_TPO0W, offset 0x0044. -/
abbrev gnTpo0w : Nat := 0x20080044
abbrev gnTpo0wWidth : Fld := ⟨gnTpo0w, 0, 20⟩
/-- GN_TPO1CTRL, offset 0x0048. -/
abbrev gnTpo1ctrl : Nat := 0x20080048
abbrev gnTpo1ctrlEn : Fld := ⟨gnTpo1ctrl, 0, 1⟩
abbrev gnTpo1ctrlPol : Fld := ⟨gnTpo1ctrl, 1, 1⟩
abbrev gnTpo1ctrlGate : Fld := ⟨gnTpo1ctrl, 2, 2⟩
abbrev gnTpo1ctrlRate : Fld := ⟨gnTpo1ctrl, 16, 10⟩
/-- GN_TPO1W, offset 0x004C. -/
abbrev gnTpo1w : Nat := 0x2008004C
abbrev gnTpo1wWidth : Fld := ⟨gnTpo1w, 0, 20⟩
/-- GN_TPICTRL, offset 0x0050. -/
abbrev gnTpictrl : Nat := 0x20080050
abbrev gnTpictrlEn : Fld := ⟨gnTpictrl, 0, 1⟩
abbrev gnTpictrlEdge : Fld := ⟨gnTpictrl, 1, 1⟩
/-- GN_TPITS_LO, offset 0x0054. -/
abbrev gnTpitsLo : Nat := 0x20080054
abbrev gnTpitsLoTs : Fld := ⟨gnTpitsLo, 0, 32⟩
/-- GN_TPITS_HI, offset 0x0058. -/
abbrev gnTpitsHi : Nat := 0x20080058
abbrev gnTpitsHiTs : Fld := ⟨gnTpitsHi, 0, 32⟩
/-- GN_TPICNT, offset 0x005C. -/
abbrev gnTpicnt : Nat := 0x2008005C
abbrev gnTpicntCnt : Fld := ⟨gnTpicnt, 0, 32⟩
/-- GN_MEAS, offset 0x0060. -/
abbrev gnMeas : Nat := 0x20080060
abbrev gnMeasPeriod : Fld := ⟨gnMeas, 0, 10⟩
/-- GN_MEASSEQ, offset 0x0064. -/
abbrev gnMeasseq : Nat := 0x20080064
abbrev gnMeasseqMseq : Fld := ⟨gnMeasseq, 0, 32⟩
/-- GN_TSLEW, offset 0x0070. -/
abbrev gnTslew : Nat := 0x20080070
abbrev gnTslewSlew : Fld := ⟨gnTslew, 0, 32⟩
/-- GN_TFUNC, offset 0x0074. -/
abbrev gnTfunc : Nat := 0x20080074
abbrev gnTfuncFunc : Fld := ⟨gnTfunc, 0, 32⟩
/-- GN_ACQCTRL, offset 0x0080. -/
abbrev gnAcqctrl : Nat := 0x20080080
abbrev gnAcqctrlGo : Fld := ⟨gnAcqctrl, 0, 1⟩
abbrev gnAcqctrlSig : Fld := ⟨gnAcqctrl, 1, 3⟩
abbrev gnAcqctrlPrn : Fld := ⟨gnAcqctrl, 4, 6⟩
abbrev gnAcqctrlArm : Fld := ⟨gnAcqctrl, 10, 1⟩
/-- GN_ACQPAR, offset 0x0084. -/
abbrev gnAcqpar : Nat := 0x20080084
abbrev gnAcqparTc : Fld := ⟨gnAcqpar, 0, 4⟩
abbrev gnAcqparNc : Fld := ⟨gnAcqpar, 4, 8⟩
abbrev gnAcqparNbins : Fld := ⟨gnAcqpar, 16, 9⟩
/-- GN_ACQFC, offset 0x0088. -/
abbrev gnAcqfc : Nat := 0x20080088
abbrev gnAcqfcFc : Fld := ⟨gnAcqfc, 0, 32⟩
/-- GN_ACQFS, offset 0x008C. -/
abbrev gnAcqfs : Nat := 0x2008008C
abbrev gnAcqfsFs : Fld := ⟨gnAcqfs, 0, 16⟩
/-- GN_ACQSTAT, offset 0x0090. -/
abbrev gnAcqstat : Nat := 0x20080090
abbrev gnAcqstatBusy : Fld := ⟨gnAcqstat, 0, 1⟩
abbrev gnAcqstatDone : Fld := ⟨gnAcqstat, 1, 1⟩
abbrev gnAcqstatErr : Fld := ⟨gnAcqstat, 2, 1⟩
/-- GN_ACQPH, offset 0x0094. -/
abbrev gnAcqph : Nat := 0x20080094
abbrev gnAcqphCodeph : Fld := ⟨gnAcqph, 0, 24⟩
/-- GN_ACQDOP, offset 0x0098. -/
abbrev gnAcqdop : Nat := 0x20080098
abbrev gnAcqdopDop : Fld := ⟨gnAcqdop, 0, 32⟩
/-- GN_ACQPEAK, offset 0x009C. -/
abbrev gnAcqpeak : Nat := 0x2008009C
abbrev gnAcqpeakPeak : Fld := ⟨gnAcqpeak, 0, 16⟩
/-- GN_ACQTS_LO, offset 0x00A0. -/
abbrev gnAcqtsLo : Nat := 0x200800A0
abbrev gnAcqtsLoAcqts : Fld := ⟨gnAcqtsLo, 0, 32⟩
/-- GN_ACQTS_HI, offset 0x00A4. -/
abbrev gnAcqtsHi : Nat := 0x200800A4
abbrev gnAcqtsHiAcqts : Fld := ⟨gnAcqtsHi, 0, 32⟩
/-- GN_DUMPMASK, offset 0x00C0. -/
abbrev gnDumpmask (i : Nat) : Nat := 0x200800C0 + 4 * i
abbrev gnDumpmaskDump (i : Nat) : Fld := ⟨gnDumpmask i, 0, 32⟩
/-- GN_CHCTRL, offset 0x1000. -/
abbrev gnChctrl (i : Nat) : Nat := 0x20081000 + 256 * i
abbrev gnChctrlEn (i : Nat) : Fld := ⟨gnChctrl i, 0, 1⟩
abbrev gnChctrlSig (i : Nat) : Fld := ⟨gnChctrl i, 1, 3⟩
abbrev gnChctrlPrn (i : Nat) : Fld := ⟨gnChctrl i, 4, 6⟩
abbrev gnChctrlTint (i : Nat) : Fld := ⟨gnChctrl i, 10, 5⟩
abbrev gnChctrlArms (i : Nat) : Fld := ⟨gnChctrl i, 15, 2⟩
abbrev gnChctrlSecw (i : Nat) : Fld := ⟨gnChctrl i, 17, 1⟩
/-- GN_CHSPC, offset 0x1004. -/
abbrev gnChspc (i : Nat) : Nat := 0x20081004 + 256 * i
abbrev gnChspcElsp (i : Nat) : Fld := ⟨gnChspc i, 0, 8⟩
abbrev gnChspcVsp (i : Nat) : Fld := ⟨gnChspc i, 8, 8⟩
/-- GN_CHCODE, offset 0x1008. -/
abbrev gnChcode (i : Nat) : Nat := 0x20081008 + 256 * i
abbrev gnChcodeCodefw (i : Nat) : Fld := ⟨gnChcode i, 0, 32⟩
/-- GN_CHCARR_LO, offset 0x100C. -/
abbrev gnChcarrLo (i : Nat) : Nat := 0x2008100C + 256 * i
abbrev gnChcarrLoCarrfw (i : Nat) : Fld := ⟨gnChcarrLo i, 0, 32⟩
/-- GN_CHCARR_HI, offset 0x1010. -/
abbrev gnChcarrHi (i : Nat) : Nat := 0x20081010 + 256 * i
abbrev gnChcarrHiCarrfw (i : Nat) : Fld := ⟨gnChcarrHi i, 0, 16⟩
/-- GN_CHLOADPH, offset 0x1014. -/
abbrev gnChloadph (i : Nat) : Nat := 0x20081014 + 256 * i
abbrev gnChloadphLoadph (i : Nat) : Fld := ⟨gnChloadph i, 0, 24⟩
/-- GN_CHLOADTS_LO, offset 0x1018. -/
abbrev gnChloadtsLo (i : Nat) : Nat := 0x20081018 + 256 * i
abbrev gnChloadtsLoLoadts (i : Nat) : Fld := ⟨gnChloadtsLo i, 0, 32⟩
/-- GN_CHLOADTS_HI, offset 0x101C. -/
abbrev gnChloadtsHi (i : Nat) : Nat := 0x2008101C + 256 * i
abbrev gnChloadtsHiLoadts (i : Nat) : Fld := ⟨gnChloadtsHi i, 0, 32⟩
/-- GN_CHUPD, offset 0x1020. -/
abbrev gnChupd (i : Nat) : Nat := 0x20081020 + 256 * i
abbrev gnChupdCommit (i : Nat) : Fld := ⟨gnChupd i, 0, 1⟩
abbrev gnChupdSlip (i : Nat) : Fld := ⟨gnChupd i, 1, 4⟩
/-- GN_CHSTAT, offset 0x1024. -/
abbrev gnChstat (i : Nat) : Nat := 0x20081024 + 256 * i
abbrev gnChstatRun (i : Nat) : Fld := ⟨gnChstat i, 0, 1⟩
abbrev gnChstatOvr (i : Nat) : Fld := ⟨gnChstat i, 1, 1⟩
abbrev gnChstatErr (i : Nat) : Fld := ⟨gnChstat i, 4, 4⟩
abbrev gnChstatUcnt (i : Nat) : Fld := ⟨gnChstat i, 16, 16⟩
/-- GN_CHDSEQ, offset 0x1028. -/
abbrev gnChdseq (i : Nat) : Nat := 0x20081028 + 256 * i
abbrev gnChdseqDseq (i : Nat) : Fld := ⟨gnChdseq i, 0, 32⟩
/-- GN_CHACK, offset 0x102C. -/
abbrev gnChack (i : Nat) : Nat := 0x2008102C + 256 * i
abbrev gnChackAck (i : Nat) : Fld := ⟨gnChack i, 0, 32⟩
/-- GN_CHDTS_LO, offset 0x1030. -/
abbrev gnChdtsLo (i : Nat) : Nat := 0x20081030 + 256 * i
abbrev gnChdtsLoDts (i : Nat) : Fld := ⟨gnChdtsLo i, 0, 32⟩
/-- GN_CHDTS_HI, offset 0x1034. -/
abbrev gnChdtsHi (i : Nat) : Nat := 0x20081034 + 256 * i
abbrev gnChdtsHiDts (i : Nat) : Fld := ⟨gnChdtsHi i, 0, 32⟩
/-- GN_CHDCPF, offset 0x1038. -/
abbrev gnChdcpf (i : Nat) : Nat := 0x20081038 + 256 * i
abbrev gnChdcpfDcpf (i : Nat) : Fld := ⟨gnChdcpf i, 0, 32⟩
/-- GN_CHDCPI, offset 0x103C. -/
abbrev gnChdcpi (i : Nat) : Nat := 0x2008103C + 256 * i
abbrev gnChdcpiDcpi (i : Nat) : Fld := ⟨gnChdcpi i, 0, 24⟩
abbrev gnChdcpiDepoch (i : Nat) : Fld := ⟨gnChdcpi i, 24, 8⟩
/-- GN_CHDCAR_LO, offset 0x1040. -/
abbrev gnChdcarLo (i : Nat) : Nat := 0x20081040 + 256 * i
abbrev gnChdcarLoDcar (i : Nat) : Fld := ⟨gnChdcarLo i, 0, 32⟩
/-- GN_CHDCAR_HI, offset 0x1044. -/
abbrev gnChdcarHi (i : Nat) : Nat := 0x20081044 + 256 * i
abbrev gnChdcarHiDcar (i : Nat) : Fld := ⟨gnChdcarHi i, 0, 32⟩
/-- GN_CHMISS, offset 0x1048. -/
abbrev gnChmiss (i : Nat) : Nat := 0x20081048 + 256 * i
abbrev gnChmissMiss (i : Nat) : Fld := ⟨gnChmiss i, 0, 32⟩
/-- GN_CHDATA, offset 0x1050. -/
abbrev gnChdata (i j : Nat) : Nat := 0x20081050 + 256 * i + 4 * j
abbrev gnChdataSum (i j : Nat) : Fld := ⟨gnChdata i j, 0, 32⟩
/-- GN_CHPILOT, offset 0x1078. -/
abbrev gnChpilot (i j : Nat) : Nat := 0x20081078 + 256 * i + 4 * j
abbrev gnChpilotSum (i j : Nat) : Fld := ⟨gnChpilot i j, 0, 32⟩
/-- GN_CHMSEQ, offset 0x10A0. -/
abbrev gnChmseq (i : Nat) : Nat := 0x200810A0 + 256 * i
abbrev gnChmseqMseq (i : Nat) : Fld := ⟨gnChmseq i, 0, 32⟩
/-- GN_CHMCPF, offset 0x10A4. -/
abbrev gnChmcpf (i : Nat) : Nat := 0x200810A4 + 256 * i
abbrev gnChmcpfMcpf (i : Nat) : Fld := ⟨gnChmcpf i, 0, 32⟩
/-- GN_CHMCPI, offset 0x10A8. -/
abbrev gnChmcpi (i : Nat) : Nat := 0x200810A8 + 256 * i
abbrev gnChmcpiMcpi (i : Nat) : Fld := ⟨gnChmcpi i, 0, 24⟩
abbrev gnChmcpiMepoch (i : Nat) : Fld := ⟨gnChmcpi i, 24, 8⟩
/-- GN_CHMCAR_LO, offset 0x10AC. -/
abbrev gnChmcarLo (i : Nat) : Nat := 0x200810AC + 256 * i
abbrev gnChmcarLoMcar (i : Nat) : Fld := ⟨gnChmcarLo i, 0, 32⟩
/-- GN_CHMCAR_HI, offset 0x10B0. -/
abbrev gnChmcarHi (i : Nat) : Nat := 0x200810B0 + 256 * i
abbrev gnChmcarHiMcar (i : Nat) : Fld := ⟨gnChmcarHi i, 0, 32⟩
/-- GN_CHDSEQ2, offset 0x10FC. -/
abbrev gnChdseq2 (i : Nat) : Nat := 0x200810FC + 256 * i
abbrev gnChdseq2Dseq2 (i : Nat) : Fld := ⟨gnChdseq2 i, 0, 32⟩
/-! Block FB at 0x20090000 (spec/12_fabric_fleet.md). -/
/-- FB_ID, offset 0x0000. -/
abbrev fbId : Nat := 0x20090000
abbrev fbIdMinor : Fld := ⟨fbId, 0, 8⟩
abbrev fbIdMajor : Fld := ⟨fbId, 8, 8⟩
abbrev fbIdPorts : Fld := ⟨fbId, 16, 8⟩
abbrev fbIdProto : Fld := ⟨fbId, 24, 8⟩
/-- FB_CTRL, offset 0x0004. -/
abbrev fbCtrl : Nat := 0x20090004
abbrev fbCtrlEn : Fld := ⟨fbCtrl, 0, 1⟩
abbrev fbCtrlCntclr : Fld := ⟨fbCtrl, 1, 1⟩
/-- FB_STAT, offset 0x0008. -/
abbrev fbStat : Nat := 0x20090008
abbrev fbStatAssigned : Fld := ⟨fbStat, 0, 1⟩
abbrev fbStatTwin : Fld := ⟨fbStat, 1, 2⟩
abbrev fbStatSync : Fld := ⟨fbStat, 3, 1⟩
abbrev fbStatRing : Fld := ⟨fbStat, 4, 1⟩
abbrev fbStatBound : Fld := ⟨fbStat, 5, 1⟩
abbrev fbStatNhold : Fld := ⟨fbStat, 6, 1⟩
abbrev fbStatNfail : Fld := ⟨fbStat, 7, 1⟩
abbrev fbStatNodeid : Fld := ⟨fbStat, 16, 16⟩
/-- FB_IRQ_STAT, offset 0x0010. -/
abbrev fbIrqStat : Nat := 0x20090010
abbrev fbIrqStatSrc : Fld := ⟨fbIrqStat, 0, 10⟩
abbrev fbIrqStatSrc15 : Fld := ⟨fbIrqStat, 15, 1⟩
/-- FB_IRQ_EN, offset 0x0014. -/
abbrev fbIrqEn : Nat := 0x20090014
abbrev fbIrqEnSrc : Fld := ⟨fbIrqEn, 0, 10⟩
abbrev fbIrqEnSrc15 : Fld := ⟨fbIrqEn, 15, 1⟩
/-- FB_EPOCH, offset 0x0018. -/
abbrev fbEpoch : Nat := 0x20090018
abbrev fbEpochEpoch : Fld := ⟨fbEpoch, 0, 16⟩
/-- FB_HSER_LO, offset 0x0020. -/
abbrev fbHserLo : Nat := 0x20090020
abbrev fbHserLoHser : Fld := ⟨fbHserLo, 0, 32⟩
/-- FB_HSER_HI, offset 0x0024. -/
abbrev fbHserHi : Nat := 0x20090024
abbrev fbHserHiHser : Fld := ⟨fbHserHi, 0, 32⟩
/-- FB_PTP, offset 0x0028. -/
abbrev fbPtp : Nat := 0x20090028
abbrev fbPtpOfs : Fld := ⟨fbPtp, 0, 32⟩
/-- FB_PTPPORT, offset 0x002C. -/
abbrev fbPtpport : Nat := 0x2009002C
abbrev fbPtpportDepth : Fld := ⟨fbPtpport, 0, 4⟩
abbrev fbPtpportUpport : Fld := ⟨fbPtpport, 4, 3⟩
abbrev fbPtpportRecclk : Fld := ⟨fbPtpport, 7, 1⟩
/-- FB_TWIN, offset 0x0030. -/
abbrev fbTwin : Nat := 0x20090030
abbrev fbTwinSilf0 : Fld := ⟨fbTwin, 0, 16⟩
abbrev fbTwinSilfab : Fld := ⟨fbTwin, 16, 16⟩
/-- FB_STALE_EPOCH, offset 0x0040. -/
abbrev fbStaleEpoch : Nat := 0x20090040
abbrev fbStaleEpochN : Fld := ⟨fbStaleEpoch, 0, 32⟩
/-- FB_STALE_RSP, offset 0x0044. -/
abbrev fbStaleRsp : Nat := 0x20090044
abbrev fbStaleRspN : Fld := ⟨fbStaleRsp, 0, 32⟩
/-- FB_RETRANS, offset 0x0048. -/
abbrev fbRetrans : Nat := 0x20090048
abbrev fbRetransN : Fld := ⟨fbRetrans, 0, 32⟩
/-- FB_TIMEOUTS, offset 0x004C. -/
abbrev fbTimeouts : Nat := 0x2009004C
abbrev fbTimeoutsN : Fld := ⟨fbTimeouts, 0, 32⟩
/-- FB_STOP_RX, offset 0x0050. -/
abbrev fbStopRx : Nat := 0x20090050
abbrev fbStopRxN : Fld := ⟨fbStopRx, 0, 32⟩
/-- FB_STOP_DUP, offset 0x0054. -/
abbrev fbStopDup : Nat := 0x20090054
abbrev fbStopDupN : Fld := ⟨fbStopDup, 0, 32⟩
/-- FB_HEALS, offset 0x0058. -/
abbrev fbHeals : Nat := 0x20090058
abbrev fbHealsN : Fld := ⟨fbHeals, 0, 32⟩
/-- FB_REJ_ASSIGN, offset 0x005C. -/
abbrev fbRejAssign : Nat := 0x2009005C
abbrev fbRejAssignN : Fld := ⟨fbRejAssign, 0, 32⟩
/-- FB_PCTRL, offset 0x0100. -/
abbrev fbPctrl (i : Nat) : Nat := 0x20090100 + 256 * i
abbrev fbPctrlEn (i : Nat) : Fld := ⟨fbPctrl i, 0, 1⟩
abbrev fbPctrlMaster (i : Nat) : Fld := ⟨fbPctrl i, 1, 1⟩
abbrev fbPctrlQbv (i : Nat) : Fld := ⟨fbPctrl i, 2, 1⟩
/-- FB_PSTAT, offset 0x0104. -/
abbrev fbPstat (i : Nat) : Nat := 0x20090104 + 256 * i
abbrev fbPstatLink (i : Nat) : Fld := ⟨fbPstat i, 0, 1⟩
abbrev fbPstatRole (i : Nat) : Fld := ⟨fbPstat i, 1, 2⟩
abbrev fbPstatPreempt (i : Nat) : Fld := ⟨fbPstat i, 3, 1⟩
abbrev fbPstatSqi (i : Nat) : Fld := ⟨fbPstat i, 8, 3⟩
/-- FB_PQBVCYC, offset 0x0108. -/
abbrev fbPqbvcyc (i : Nat) : Nat := 0x20090108 + 256 * i
abbrev fbPqbvcycCycle (i : Nat) : Fld := ⟨fbPqbvcyc i, 0, 24⟩
/-- FB_PRXFRM, offset 0x0110. -/
abbrev fbPrxfrm (i : Nat) : Nat := 0x20090110 + 256 * i
abbrev fbPrxfrmN (i : Nat) : Fld := ⟨fbPrxfrm i, 0, 32⟩
/-- FB_PTXFRM, offset 0x0114. -/
abbrev fbPtxfrm (i : Nat) : Nat := 0x20090114 + 256 * i
abbrev fbPtxfrmN (i : Nat) : Fld := ⟨fbPtxfrm i, 0, 32⟩
/-- FB_PFCSERR, offset 0x0118. -/
abbrev fbPfcserr (i : Nat) : Nat := 0x20090118 + 256 * i
abbrev fbPfcserrN (i : Nat) : Fld := ⟨fbPfcserr i, 0, 32⟩
/-- FB_PE2EERR, offset 0x011C. -/
abbrev fbPe2eerr (i : Nat) : Nat := 0x2009011C + 256 * i
abbrev fbPe2eerrN (i : Nat) : Fld := ⟨fbPe2eerr i, 0, 32⟩
/-- FB_PDROPS, offset 0x0120. -/
abbrev fbPdrops (i : Nat) : Nat := 0x20090120 + 256 * i
abbrev fbPdropsN (i : Nat) : Fld := ⟨fbPdrops i, 0, 32⟩
/-- FB_PPREEMPTS, offset 0x0124. -/
abbrev fbPpreempts (i : Nat) : Nat := 0x20090124 + 256 * i
abbrev fbPpreemptsN (i : Nat) : Fld := ⟨fbPpreempts i, 0, 32⟩
/-- FB_PC6LATE, offset 0x0128. -/
abbrev fbPc6late (i : Nat) : Nat := 0x20090128 + 256 * i
abbrev fbPc6lateN (i : Nat) : Fld := ⟨fbPc6late i, 0, 32⟩
/-- FB_PLINKDOWNS, offset 0x012C. -/
abbrev fbPlinkdowns (i : Nat) : Nat := 0x2009012C + 256 * i
abbrev fbPlinkdownsN (i : Nat) : Fld := ⟨fbPlinkdowns i, 0, 32⟩
/-- FB_PGATE, offset 0x0140. -/
abbrev fbPgate (i j : Nat) : Nat := 0x20090140 + 256 * i + 4 * j
abbrev fbPgateGates (i j : Nat) : Fld := ⟨fbPgate i j, 0, 8⟩
abbrev fbPgateDur (i j : Nat) : Fld := ⟨fbPgate i j, 8, 24⟩
/-! Block CN at 0x200A0000 (spec/13_can_integrity.md). -/
/-- CN_ID, offset 0x0000. -/
abbrev cnId (i : Nat) : Nat := 0x200A0000 + 8192 * i
abbrev cnIdMinor (i : Nat) : Fld := ⟨cnId i, 0, 8⟩
abbrev cnIdMajor (i : Nat) : Fld := ⟨cnId i, 8, 8⟩
abbrev cnIdXl (i : Nat) : Fld := ⟨cnId i, 24, 1⟩
/-- CN_CTRL, offset 0x0004. -/
abbrev cnCtrl (i : Nat) : Nat := 0x200A0004 + 8192 * i
abbrev cnCtrlEn (i : Nat) : Fld := ⟨cnCtrl i, 0, 1⟩
abbrev cnCtrlMode (i : Nat) : Fld := ⟨cnCtrl i, 1, 3⟩
abbrev cnCtrlFmt (i : Nat) : Fld := ⟨cnCtrl i, 4, 2⟩
abbrev cnCtrlEsd (i : Nat) : Fld := ⟨cnCtrl i, 6, 1⟩
abbrev cnCtrlSelfrx (i : Nat) : Fld := ⟨cnCtrl i, 7, 1⟩
abbrev cnCtrlTerm (i : Nat) : Fld := ⟨cnCtrl i, 8, 1⟩
abbrev cnCtrlRecMode (i : Nat) : Fld := ⟨cnCtrl i, 9, 1⟩
abbrev cnCtrlRecover (i : Nat) : Fld := ⟨cnCtrl i, 10, 1⟩
abbrev cnCtrlCntclr (i : Nat) : Fld := ⟨cnCtrl i, 11, 1⟩
abbrev cnCtrlErr (i : Nat) : Fld := ⟨cnCtrl i, 12, 4⟩
abbrev cnCtrlRecdly (i : Nat) : Fld := ⟨cnCtrl i, 16, 16⟩
/-- CN_STAT, offset 0x0008. -/
abbrev cnStat (i : Nat) : Nat := 0x200A0008 + 8192 * i
abbrev cnStatState (i : Nat) : Fld := ⟨cnStat i, 0, 2⟩
abbrev cnStatTxw (i : Nat) : Fld := ⟨cnStat i, 2, 1⟩
abbrev cnStatRxw (i : Nat) : Fld := ⟨cnStat i, 3, 1⟩
abbrev cnStatSync (i : Nat) : Fld := ⟨cnStat i, 4, 1⟩
abbrev cnStatLec (i : Nat) : Fld := ⟨cnStat i, 5, 3⟩
/-- CN_ECNT, offset 0x000C. -/
abbrev cnEcnt (i : Nat) : Nat := 0x200A000C + 8192 * i
abbrev cnEcntTec (i : Nat) : Fld := ⟨cnEcnt i, 0, 8⟩
abbrev cnEcntRec (i : Nat) : Fld := ⟨cnEcnt i, 8, 7⟩
abbrev cnEcntRp (i : Nat) : Fld := ⟨cnEcnt i, 15, 1⟩
abbrev cnEcntBocnt (i : Nat) : Fld := ⟨cnEcnt i, 16, 16⟩
/-- CN_IRQ_STAT, offset 0x0010. -/
abbrev cnIrqStat (i : Nat) : Nat := 0x200A0010 + 8192 * i
abbrev cnIrqStatSrc (i : Nat) : Fld := ⟨cnIrqStat i, 0, 7⟩
/-- CN_IRQ_EN, offset 0x0014. -/
abbrev cnIrqEn (i : Nat) : Nat := 0x200A0014 + 8192 * i
abbrev cnIrqEnSrc (i : Nat) : Fld := ⟨cnIrqEn i, 0, 7⟩
/-- CN_EWARN, offset 0x0018. -/
abbrev cnEwarn (i : Nat) : Nat := 0x200A0018 + 8192 * i
abbrev cnEwarnTxwarn (i : Nat) : Fld := ⟨cnEwarn i, 0, 8⟩
abbrev cnEwarnRxwarn (i : Nat) : Fld := ⟨cnEwarn i, 8, 8⟩
/-- CN_NBT, offset 0x0020. -/
abbrev cnNbt (i : Nat) : Nat := 0x200A0020 + 8192 * i
abbrev cnNbtNbrp (i : Nat) : Fld := ⟨cnNbt i, 0, 9⟩
abbrev cnNbtNtseg1 (i : Nat) : Fld := ⟨cnNbt i, 9, 8⟩
abbrev cnNbtNtseg2 (i : Nat) : Fld := ⟨cnNbt i, 17, 7⟩
abbrev cnNbtNsjw (i : Nat) : Fld := ⟨cnNbt i, 24, 7⟩
/-- CN_DBT, offset 0x0024. -/
abbrev cnDbt (i : Nat) : Nat := 0x200A0024 + 8192 * i
abbrev cnDbtBrp (i : Nat) : Fld := ⟨cnDbt i, 0, 5⟩
abbrev cnDbtTseg1 (i : Nat) : Fld := ⟨cnDbt i, 8, 5⟩
abbrev cnDbtTseg2 (i : Nat) : Fld := ⟨cnDbt i, 16, 4⟩
abbrev cnDbtSjw (i : Nat) : Fld := ⟨cnDbt i, 24, 4⟩
/-- CN_XBT, offset 0x0028. -/
abbrev cnXbt (i : Nat) : Nat := 0x200A0028 + 8192 * i
abbrev cnXbtBrp (i : Nat) : Fld := ⟨cnXbt i, 0, 5⟩
abbrev cnXbtTseg1 (i : Nat) : Fld := ⟨cnXbt i, 8, 5⟩
abbrev cnXbtTseg2 (i : Nat) : Fld := ⟨cnXbt i, 16, 4⟩
abbrev cnXbtSjw (i : Nat) : Fld := ⟨cnXbt i, 24, 4⟩
/-- CN_TDC, offset 0x002C. -/
abbrev cnTdc (i : Nat) : Nat := 0x200A002C + 8192 * i
abbrev cnTdcTdco (i : Nat) : Fld := ⟨cnTdc i, 0, 7⟩
abbrev cnTdcTdcen (i : Nat) : Fld := ⟨cnTdc i, 8, 1⟩
abbrev cnTdcTdcv (i : Nat) : Fld := ⟨cnTdc i, 16, 7⟩
/-- CN_RXDEF, offset 0x0030. -/
abbrev cnRxdef (i : Nat) : Nat := 0x200A0030 + 8192 * i
abbrev cnRxdefAction (i : Nat) : Fld := ⟨cnRxdef i, 0, 2⟩
/-- CN_TXCFG, offset 0x0034. -/
abbrev cnTxcfg (i : Nat) : Nat := 0x200A0034 + 8192 * i
abbrev cnTxcfgRetry (i : Nat) : Fld := ⟨cnTxcfg i, 0, 7⟩
abbrev cnTxcfgDretry (i : Nat) : Fld := ⟨cnTxcfg i, 8, 7⟩
abbrev cnTxcfgDlmax (i : Nat) : Fld := ⟨cnTxcfg i, 16, 12⟩
/-- CN_WAT, offset 0x003C. -/
abbrev cnWat (i : Nat) : Nat := 0x200A003C + 8192 * i
abbrev cnWatWat (i : Nat) : Fld := ⟨cnWat i, 0, 32⟩
/-- CN_TXPEND, offset 0x0040. -/
abbrev cnTxpend (i : Nat) : Nat := 0x200A0040 + 8192 * i
abbrev cnTxpendPend (i : Nat) : Fld := ⟨cnTxpend i, 0, 32⟩
/-- CN_TXDONE, offset 0x0044. -/
abbrev cnTxdone (i : Nat) : Nat := 0x200A0044 + 8192 * i
abbrev cnTxdoneDone (i : Nat) : Fld := ⟨cnTxdone i, 0, 32⟩
/-- CN_TXFAIL, offset 0x0048. -/
abbrev cnTxfail (i : Nat) : Nat := 0x200A0048 + 8192 * i
abbrev cnTxfailFail (i : Nat) : Fld := ⟨cnTxfail i, 0, 32⟩
/-- CN_SA, offset 0x004C. -/
abbrev cnSa (i : Nat) : Nat := 0x200A004C + 8192 * i
abbrev cnSaSa (i : Nat) : Fld := ⟨cnSa i, 0, 8⟩
abbrev cnSaValid (i : Nat) : Fld := ⟨cnSa i, 8, 1⟩
/-- CN_RXFRM, offset 0x0060. -/
abbrev cnRxfrm (i : Nat) : Nat := 0x200A0060 + 8192 * i
abbrev cnRxfrmN (i : Nat) : Fld := ⟨cnRxfrm i, 0, 32⟩
/-- CN_TXFRM, offset 0x0064. -/
abbrev cnTxfrm (i : Nat) : Nat := 0x200A0064 + 8192 * i
abbrev cnTxfrmN (i : Nat) : Fld := ⟨cnTxfrm i, 0, 32⟩
/-- CN_STUFFERR, offset 0x0068. -/
abbrev cnStufferr (i : Nat) : Nat := 0x200A0068 + 8192 * i
abbrev cnStufferrN (i : Nat) : Fld := ⟨cnStufferr i, 0, 32⟩
/-- CN_FORMERR, offset 0x006C. -/
abbrev cnFormerr (i : Nat) : Nat := 0x200A006C + 8192 * i
abbrev cnFormerrN (i : Nat) : Fld := ⟨cnFormerr i, 0, 32⟩
/-- CN_ACKERR, offset 0x0070. -/
abbrev cnAckerr (i : Nat) : Nat := 0x200A0070 + 8192 * i
abbrev cnAckerrN (i : Nat) : Fld := ⟨cnAckerr i, 0, 32⟩
/-- CN_BITERR, offset 0x0074. -/
abbrev cnBiterr (i : Nat) : Nat := 0x200A0074 + 8192 * i
abbrev cnBiterrN (i : Nat) : Fld := ⟨cnBiterr i, 0, 32⟩
/-- CN_CRCERR, offset 0x0078. -/
abbrev cnCrcerr (i : Nat) : Nat := 0x200A0078 + 8192 * i
abbrev cnCrcerrN (i : Nat) : Fld := ⟨cnCrcerr i, 0, 32⟩
/-- CN_ARBLOST, offset 0x007C. -/
abbrev cnArblost (i : Nat) : Nat := 0x200A007C + 8192 * i
abbrev cnArblostN (i : Nat) : Fld := ⟨cnArblost i, 0, 32⟩
/-- CN_QBASE_LO, offset 0x0100. -/
abbrev cnQbaseLo (i j : Nat) : Nat := 0x200A0100 + 8192 * i + 32 * j
abbrev cnQbaseLoBase (i j : Nat) : Fld := ⟨cnQbaseLo i j, 0, 32⟩
/-- CN_QBASE_HI, offset 0x0104. -/
abbrev cnQbaseHi (i j : Nat) : Nat := 0x200A0104 + 8192 * i + 32 * j
abbrev cnQbaseHiBase (i j : Nat) : Fld := ⟨cnQbaseHi i j, 0, 32⟩
/-- CN_QCFG, offset 0x0108. -/
abbrev cnQcfg (i j : Nat) : Nat := 0x200A0108 + 8192 * i + 32 * j
abbrev cnQcfgEsize (i j : Nat) : Fld := ⟨cnQcfg i j, 0, 1⟩
abbrev cnQcfgDepth (i j : Nat) : Fld := ⟨cnQcfg i j, 16, 7⟩
/-- CN_QPUT, offset 0x010C. -/
abbrev cnQput (i j : Nat) : Nat := 0x200A010C + 8192 * i + 32 * j
abbrev cnQputPut (i j : Nat) : Fld := ⟨cnQput i j, 0, 6⟩
abbrev cnQputOcc (i j : Nat) : Fld := ⟨cnQput i j, 16, 7⟩
/-- CN_QACK, offset 0x0110. -/
abbrev cnQack (i j : Nat) : Nat := 0x200A0110 + 8192 * i + 32 * j
abbrev cnQackAck (i j : Nat) : Fld := ⟨cnQack i j, 0, 6⟩
/-- CN_QDROPS, offset 0x0114. -/
abbrev cnQdrops (i j : Nat) : Nat := 0x200A0114 + 8192 * i + 32 * j
abbrev cnQdropsN (i j : Nat) : Fld := ⟨cnQdrops i j, 0, 32⟩
/-- CN_QOWN_LO, offset 0x0118. -/
abbrev cnQownLo (i j : Nat) : Nat := 0x200A0118 + 8192 * i + 32 * j
abbrev cnQownLoOwn (i j : Nat) : Fld := ⟨cnQownLo i j, 0, 32⟩
/-- CN_QOWN_HI, offset 0x011C. -/
abbrev cnQownHi (i j : Nat) : Nat := 0x200A011C + 8192 * i + 32 * j
abbrev cnQownHiOwn (i j : Nat) : Fld := ⟨cnQownHi i j, 0, 32⟩
/-- CN_TXADDR_LO, offset 0x0400. -/
abbrev cnTxaddrLo (i j : Nat) : Nat := 0x200A0400 + 8192 * i + 32 * j
abbrev cnTxaddrLoAddr (i j : Nat) : Fld := ⟨cnTxaddrLo i j, 0, 32⟩
/-- CN_TXADDR_HI, offset 0x0404. -/
abbrev cnTxaddrHi (i j : Nat) : Nat := 0x200A0404 + 8192 * i + 32 * j
abbrev cnTxaddrHiAddr (i j : Nat) : Fld := ⟨cnTxaddrHi i j, 0, 32⟩
/-- CN_TXCTRL, offset 0x0408. -/
abbrev cnTxctrl (i j : Nat) : Nat := 0x200A0408 + 8192 * i + 32 * j
abbrev cnTxctrlReq (i j : Nat) : Fld := ⟨cnTxctrl i j, 0, 1⟩
abbrev cnTxctrlAbort (i j : Nat) : Fld := ⟨cnTxctrl i j, 1, 1⟩
abbrev cnTxctrlState (i j : Nat) : Fld := ⟨cnTxctrl i j, 4, 3⟩
/-- CN_TXATT, offset 0x040C. -/
abbrev cnTxatt (i j : Nat) : Nat := 0x200A040C + 8192 * i + 32 * j
abbrev cnTxattAttempts (i j : Nat) : Fld := ⟨cnTxatt i j, 0, 8⟩
/-- CN_TXTS_LO, offset 0x0410. -/
abbrev cnTxtsLo (i j : Nat) : Nat := 0x200A0410 + 8192 * i + 32 * j
abbrev cnTxtsLoTs (i j : Nat) : Fld := ⟨cnTxtsLo i j, 0, 32⟩
/-- CN_TXTS_HI, offset 0x0414. -/
abbrev cnTxtsHi (i j : Nat) : Nat := 0x200A0414 + 8192 * i + 32 * j
abbrev cnTxtsHiTs (i j : Nat) : Fld := ⟨cnTxtsHi i j, 0, 32⟩
/-- CN_FCFG, offset 0x1000. -/
abbrev cnFcfg (i j : Nat) : Nat := 0x200A1000 + 8192 * i + 16 * j
abbrev cnFcfgEn (i j : Nat) : Fld := ⟨cnFcfg i j, 0, 1⟩
abbrev cnFcfgIde (i j : Nat) : Fld := ⟨cnFcfg i j, 1, 1⟩
abbrev cnFcfgType (i j : Nat) : Fld := ⟨cnFcfg i j, 2, 2⟩
abbrev cnFcfgAction (i j : Nat) : Fld := ⟨cnFcfg i j, 4, 2⟩
abbrev cnFcfgXl (i j : Nat) : Fld := ⟨cnFcfg i j, 6, 1⟩
/-- CN_FID1, offset 0x1004. -/
abbrev cnFid1 (i j : Nat) : Nat := 0x200A1004 + 8192 * i + 16 * j
abbrev cnFid1Id1 (i j : Nat) : Fld := ⟨cnFid1 i j, 0, 29⟩
/-- CN_FID2, offset 0x1008. -/
abbrev cnFid2 (i j : Nat) : Nat := 0x200A1008 + 8192 * i + 16 * j
abbrev cnFid2Id2 (i j : Nat) : Fld := ⟨cnFid2 i j, 0, 32⟩
/-- CN_FAFM, offset 0x100C. -/
abbrev cnFafm (i j : Nat) : Nat := 0x200A100C + 8192 * i + 16 * j
abbrev cnFafmAfmask (i j : Nat) : Fld := ⟨cnFafm i j, 0, 32⟩
/-! Block CV at 0x200B0000 (spec/13_can_integrity.md). -/
/-- CV_ID, offset 0x0000. -/
abbrev cvId : Nat := 0x200B0000
abbrev cvIdMinor : Fld := ⟨cvId, 0, 8⟩
abbrev cvIdMajor : Fld := ⟨cvId, 8, 8⟩
abbrev cvIdUnits : Fld := ⟨cvId, 16, 8⟩
/-- CV_CFG, offset 0x1000. -/
abbrev cvCfg (i : Nat) : Nat := 0x200B1000 + 256 * i
abbrev cvCfgAlg (i : Nat) : Fld := ⟨cvCfg i, 0, 3⟩
abbrev cvCfgWidth (i : Nat) : Fld := ⟨cvCfg i, 8, 6⟩
abbrev cvCfgRefin (i : Nat) : Fld := ⟨cvCfg i, 16, 1⟩
abbrev cvCfgRefout (i : Nat) : Fld := ⟨cvCfg i, 17, 1⟩
/-- CV_POLY, offset 0x1004. -/
abbrev cvPoly (i : Nat) : Nat := 0x200B1004 + 256 * i
abbrev cvPolyPoly (i : Nat) : Fld := ⟨cvPoly i, 0, 32⟩
/-- CV_INIT_LO, offset 0x1008. -/
abbrev cvInitLo (i : Nat) : Nat := 0x200B1008 + 256 * i
abbrev cvInitLoInit (i : Nat) : Fld := ⟨cvInitLo i, 0, 32⟩
/-- CV_INIT_HI, offset 0x100C. -/
abbrev cvInitHi (i : Nat) : Nat := 0x200B100C + 256 * i
abbrev cvInitHiInit (i : Nat) : Fld := ⟨cvInitHi i, 0, 32⟩
/-- CV_XOROUT_LO, offset 0x1010. -/
abbrev cvXoroutLo (i : Nat) : Nat := 0x200B1010 + 256 * i
abbrev cvXoroutLoXorout (i : Nat) : Fld := ⟨cvXoroutLo i, 0, 32⟩
/-- CV_XOROUT_HI, offset 0x1014. -/
abbrev cvXoroutHi (i : Nat) : Nat := 0x200B1014 + 256 * i
abbrev cvXoroutHiXorout (i : Nat) : Fld := ⟨cvXoroutHi i, 0, 32⟩
/-- CV_START, offset 0x1018. -/
abbrev cvStart (i : Nat) : Nat := 0x200B1018 + 256 * i
abbrev cvStartStart (i : Nat) : Fld := ⟨cvStart i, 0, 1⟩
/-- CV_DATA, offset 0x1020. -/
abbrev cvData (i : Nat) : Nat := 0x200B1020 + 256 * i
abbrev cvDataData (i : Nat) : Fld := ⟨cvData i, 0, 32⟩
/-- CV_STATE_LO, offset 0x1028. -/
abbrev cvStateLo (i : Nat) : Nat := 0x200B1028 + 256 * i
abbrev cvStateLoState (i : Nat) : Fld := ⟨cvStateLo i, 0, 32⟩
/-- CV_STATE_HI, offset 0x102C. -/
abbrev cvStateHi (i : Nat) : Nat := 0x200B102C + 256 * i
abbrev cvStateHiState (i : Nat) : Fld := ⟨cvStateHi i, 0, 32⟩
/-- CV_RESULT_LO, offset 0x1030. -/
abbrev cvResultLo (i : Nat) : Nat := 0x200B1030 + 256 * i
abbrev cvResultLoResult (i : Nat) : Fld := ⟨cvResultLo i, 0, 32⟩
/-- CV_RESULT_HI, offset 0x1034. -/
abbrev cvResultHi (i : Nat) : Nat := 0x200B1034 + 256 * i
abbrev cvResultHiResult (i : Nat) : Fld := ⟨cvResultHi i, 0, 32⟩
/-- CV_COUNT, offset 0x1038. -/
abbrev cvCount (i : Nat) : Nat := 0x200B1038 + 256 * i
abbrev cvCountCount (i : Nat) : Fld := ⟨cvCount i, 0, 32⟩
/-- CV_ACCFG, offset 0x1040. -/
abbrev cvAccfg (i : Nat) : Nat := 0x200B1040 + 256 * i
abbrev cvAccfgN (i : Nat) : Fld := ⟨cvAccfg i, 0, 5⟩
abbrev cvAccfgResync (i : Nat) : Fld := ⟨cvAccfg i, 8, 4⟩
abbrev cvAccfgMaxskip (i : Nat) : Fld := ⟨cvAccfg i, 16, 16⟩
/-- CV_ACCHK, offset 0x1044. -/
abbrev cvAcchk (i : Nat) : Nat := 0x200B1044 + 256 * i
abbrev cvAcchkValue (i : Nat) : Fld := ⟨cvAcchk i, 0, 16⟩
abbrev cvAcchkCtx (i : Nat) : Fld := ⟨cvAcchk i, 16, 6⟩
/-- CV_ACRES, offset 0x1048. -/
abbrev cvAcres (i : Nat) : Nat := 0x200B1048 + 256 * i
abbrev cvAcresClass (i : Nat) : Fld := ⟨cvAcres i, 0, 2⟩
abbrev cvAcresResynced (i : Nat) : Fld := ⟨cvAcres i, 3, 1⟩
abbrev cvAcresNskip (i : Nat) : Fld := ⟨cvAcres i, 8, 8⟩
abbrev cvAcresCtx (i : Nat) : Fld := ⟨cvAcres i, 16, 6⟩
/-- CV_ACSET, offset 0x104C. -/
abbrev cvAcset (i : Nat) : Nat := 0x200B104C + 256 * i
abbrev cvAcsetLast (i : Nat) : Fld := ⟨cvAcset i, 0, 16⟩
abbrev cvAcsetCtx (i : Nat) : Fld := ⟨cvAcset i, 16, 6⟩
abbrev cvAcsetEvt (i : Nat) : Fld := ⟨cvAcset i, 30, 1⟩
abbrev cvAcsetValid (i : Nat) : Fld := ⟨cvAcset i, 31, 1⟩
/-- CV_OK, offset 0x1050. -/
abbrev cvOk (i : Nat) : Nat := 0x200B1050 + 256 * i
abbrev cvOkN (i : Nat) : Fld := ⟨cvOk i, 0, 32⟩
/-- CV_REPEATED, offset 0x1054. -/
abbrev cvRepeated (i : Nat) : Nat := 0x200B1054 + 256 * i
abbrev cvRepeatedN (i : Nat) : Fld := ⟨cvRepeated i, 0, 32⟩
/-- CV_SKIPPED, offset 0x1058. -/
abbrev cvSkipped (i : Nat) : Nat := 0x200B1058 + 256 * i
abbrev cvSkippedN (i : Nat) : Fld := ⟨cvSkipped i, 0, 32⟩
/-- CV_STALE, offset 0x105C. -/
abbrev cvStale (i : Nat) : Nat := 0x200B105C + 256 * i
abbrev cvStaleN (i : Nat) : Fld := ⟨cvStale i, 0, 32⟩
/-! Block EV at 0x200C0000 (spec/20_keeper_events_thermal.md). -/
/-- EV_ID, offset 0x0000. -/
abbrev evId : Nat := 0x200C0000
abbrev evIdMinor : Fld := ⟨evId, 0, 8⟩
abbrev evIdMajor : Fld := ⟨evId, 8, 8⟩
abbrev evIdRecords : Fld := ⟨evId, 16, 16⟩
/-- EV_STAT, offset 0x0008. -/
abbrev evStat : Nat := 0x200C0008
abbrev evStatLost : Fld := ⟨evStat, 0, 1⟩
abbrev evStatSpill : Fld := ⟨evStat, 1, 1⟩
abbrev evStatSpillstop : Fld := ⟨evStat, 2, 1⟩
/-- EV_IRQ_STAT, offset 0x0010. -/
abbrev evIrqStat : Nat := 0x200C0010
abbrev evIrqStatSrc : Fld := ⟨evIrqStat, 0, 2⟩
/-- EV_IRQ_EN, offset 0x0014. -/
abbrev evIrqEn : Nat := 0x200C0014
abbrev evIrqEnSrc : Fld := ⟨evIrqEn, 0, 2⟩
/-- EV_SEQ, offset 0x0018. -/
abbrev evSeq : Nat := 0x200C0018
abbrev evSeqSeq : Fld := ⟨evSeq, 0, 32⟩
/-- EV_OLDEST, offset 0x001C. -/
abbrev evOldest : Nat := 0x200C001C
abbrev evOldestOldest : Fld := ⟨evOldest, 0, 32⟩
/-- EV_POSTD, offset 0x0020. -/
abbrev evPostd (i : Nat) : Nat := 0x200C0020 + 4 * i
abbrev evPostdD (i : Nat) : Fld := ⟨evPostd i, 0, 32⟩
/-- EV_POST, offset 0x002C. -/
abbrev evPost : Nat := 0x200C002C
abbrev evPostCode : Fld := ⟨evPost, 0, 16⟩
abbrev evPostSev : Fld := ⟨evPost, 16, 2⟩
/-- EV_POSTRES, offset 0x0030. -/
abbrev evPostres : Nat := 0x200C0030
abbrev evPostresPostres : Fld := ⟨evPostres, 0, 2⟩
/-- EV_SEVTH, offset 0x0034. -/
abbrev evSevth : Nat := 0x200C0034
abbrev evSevthSevth : Fld := ⟨evSevth, 0, 2⟩
/-- EV_WRITTEN, offset 0x0040. -/
abbrev evWritten : Nat := 0x200C0040
abbrev evWrittenN : Fld := ⟨evWritten, 0, 32⟩
/-- EV_REPEATS, offset 0x0044. -/
abbrev evRepeats : Nat := 0x200C0044
abbrev evRepeatsN : Fld := ⟨evRepeats, 0, 32⟩
/-- EV_DROPPED, offset 0x0048. -/
abbrev evDropped : Nat := 0x200C0048
abbrev evDroppedN : Fld := ⟨evDropped, 0, 32⟩
/-- EV_SPILLED, offset 0x004C. -/
abbrev evSpilled : Nat := 0x200C004C
abbrev evSpilledN : Fld := ⟨evSpilled, 0, 32⟩
/-! Block TH at 0x200D0000 (spec/20_keeper_events_thermal.md). -/
/-- TH_ID, offset 0x0000. -/
abbrev thId : Nat := 0x200D0000
abbrev thIdMinor : Fld := ⟨thId, 0, 8⟩
abbrev thIdMajor : Fld := ⟨thId, 8, 8⟩
abbrev thIdSensors : Fld := ⟨thId, 16, 8⟩
abbrev thIdZones : Fld := ⟨thId, 24, 8⟩
/-- TH_STAT, offset 0x0008. -/
abbrev thStat : Nat := 0x200D0008
abbrev thStatDamper : Fld := ⟨thStat, 0, 2⟩
abbrev thStatSdpend : Fld := ⟨thStat, 2, 1⟩
/-- TH_IRQ_STAT, offset 0x0010. -/
abbrev thIrqStat : Nat := 0x200D0010
abbrev thIrqStatSrc : Fld := ⟨thIrqStat, 0, 6⟩
/-- TH_IRQ_EN, offset 0x0014. -/
abbrev thIrqEn : Nat := 0x200D0014
abbrev thIrqEnSrc : Fld := ⟨thIrqEn, 0, 6⟩
/-- TH_LATCH, offset 0x0018. -/
abbrev thLatch : Nat := 0x200D0018
abbrev thLatchLatch : Fld := ⟨thLatch, 0, 20⟩
/-- TH_ZSTAT, offset 0x0100. -/
abbrev thZstat (i : Nat) : Nat := 0x200D0100 + 16 * i
abbrev thZstatLevel (i : Nat) : Fld := ⟨thZstat i, 0, 2⟩
abbrev thZstatHeld (i : Nat) : Fld := ⟨thZstat i, 2, 1⟩
abbrev thZstatRor (i : Nat) : Fld := ⟨thZstat i, 3, 1⟩
abbrev thZstatInterval (i : Nat) : Fld := ⟨thZstat i, 4, 2⟩
abbrev thZstatTemp (i : Nat) : Fld := ⟨thZstat i, 16, 16⟩
/-- TH_ZMAX, offset 0x0104. -/
abbrev thZmax (i : Nat) : Nat := 0x200D0104 + 16 * i
abbrev thZmaxMax (i : Nat) : Fld := ⟨thZmax i, 0, 16⟩
abbrev thZmaxRate (i : Nat) : Fld := ⟨thZmax i, 16, 16⟩
/-- TH_SENS, offset 0x0400. -/
abbrev thSens (i : Nat) : Nat := 0x200D0400 + 4 * i
abbrev thSensTemp (i : Nat) : Fld := ⟨thSens i, 0, 16⟩
abbrev thSensFault (i : Nat) : Fld := ⟨thSens i, 16, 3⟩
abbrev thSensZone (i : Nat) : Fld := ⟨thSens i, 24, 5⟩
/-! Block DP at 0x200E0000 (spec/21_panel.md). -/
/-- DP_ID, offset 0x0000. -/
abbrev dpId : Nat := 0x200E0000
abbrev dpIdMinor : Fld := ⟨dpId, 0, 8⟩
abbrev dpIdMajor : Fld := ⟨dpId, 8, 8⟩
abbrev dpIdQdepth : Fld := ⟨dpId, 16, 8⟩
abbrev dpIdInflight : Fld := ⟨dpId, 24, 8⟩
/-- DP_CTRL, offset 0x0004. -/
abbrev dpCtrl : Nat := 0x200E0004
abbrev dpCtrlEn : Fld := ⟨dpCtrl, 0, 1⟩
abbrev dpCtrlRestart : Fld := ⟨dpCtrl, 1, 1⟩
abbrev dpCtrlCntclr : Fld := ⟨dpCtrl, 2, 1⟩
/-- DP_STAT, offset 0x0008. -/
abbrev dpStat : Nat := 0x200E0008
abbrev dpStatBusy : Fld := ⟨dpStat, 0, 1⟩
abbrev dpStatRails : Fld := ⟨dpStat, 1, 1⟩
abbrev dpStatReplay : Fld := ⟨dpStat, 2, 1⟩
abbrev dpStatPfstop : Fld := ⟨dpStat, 3, 1⟩
abbrev dpStatRailf : Fld := ⟨dpStat, 4, 1⟩
abbrev dpStatTfault : Fld := ⟨dpStat, 5, 1⟩
abbrev dpStatTrange : Fld := ⟨dpStat, 6, 1⟩
abbrev dpStatNflight : Fld := ⟨dpStat, 8, 3⟩
abbrev dpStatQlen : Fld := ⟨dpStat, 16, 5⟩
/-- DP_IRQ_STAT, offset 0x0010. -/
abbrev dpIrqStat : Nat := 0x200E0010
abbrev dpIrqStatSrc : Fld := ⟨dpIrqStat, 0, 5⟩
/-- DP_IRQ_EN, offset 0x0014. -/
abbrev dpIrqEn : Nat := 0x200E0014
abbrev dpIrqEnSrc : Fld := ⟨dpIrqEn, 0, 5⟩
/-- DP_GEOM, offset 0x0018. -/
abbrev dpGeom : Nat := 0x200E0018
abbrev dpGeomCols : Fld := ⟨dpGeom, 0, 9⟩
abbrev dpGeomRows : Fld := ⟨dpGeom, 16, 8⟩
abbrev dpGeomFlipx : Fld := ⟨dpGeom, 24, 1⟩
abbrev dpGeomFlipy : Fld := ⟨dpGeom, 25, 1⟩
/-- DP_RECT, offset 0x0020. -/
abbrev dpRect : Nat := 0x200E0020
abbrev dpRectX : Fld := ⟨dpRect, 0, 9⟩
abbrev dpRectY : Fld := ⟨dpRect, 16, 8⟩
/-- DP_SIZE, offset 0x0024. -/
abbrev dpSize : Nat := 0x200E0024
abbrev dpSizeW : Fld := ⟨dpSize, 0, 9⟩
abbrev dpSizeH : Fld := ⟨dpSize, 16, 8⟩
/-- DP_SRC_LO, offset 0x0028. -/
abbrev dpSrcLo : Nat := 0x200E0028
abbrev dpSrcLoSrc : Fld := ⟨dpSrcLo, 0, 32⟩
/-- DP_SRC_HI, offset 0x002C. -/
abbrev dpSrcHi : Nat := 0x200E002C
abbrev dpSrcHiSrc : Fld := ⟨dpSrcHi, 0, 32⟩
/-- DP_STRIDE, offset 0x0030. -/
abbrev dpStride : Nat := 0x200E0030
abbrev dpStrideStride : Fld := ⟨dpStride, 0, 16⟩
/-- DP_SUBMIT, offset 0x0034. -/
abbrev dpSubmit : Nat := 0x200E0034
abbrev dpSubmitTag : Fld := ⟨dpSubmit, 0, 16⟩
/-- DP_SUBRES, offset 0x0038. -/
abbrev dpSubres : Nat := 0x200E0038
abbrev dpSubresResult : Fld := ⟨dpSubres, 0, 3⟩
/-- DP_CPL, offset 0x003C. -/
abbrev dpCpl : Nat := 0x200E003C
abbrev dpCplCtag : Fld := ⟨dpCpl, 0, 16⟩
abbrev dpCplCstatus : Fld := ⟨dpCpl, 16, 3⟩
/-- DP_TEMP, offset 0x0040. -/
abbrev dpTemp : Nat := 0x200E0040
abbrev dpTempTemp : Fld := ⟨dpTemp, 0, 16⟩
abbrev dpTempRowt : Fld := ⟨dpTemp, 16, 16⟩
/-- DP_VC, offset 0x0044. -/
abbrev dpVc : Nat := 0x200E0044
abbrev dpVcVc : Fld := ⟨dpVc, 0, 16⟩
/-- DP_DONE, offset 0x0050. -/
abbrev dpDone : Nat := 0x200E0050
abbrev dpDoneN : Fld := ⟨dpDone, 0, 32⟩
/-- DP_COALESCED, offset 0x0054. -/
abbrev dpCoalesced : Nat := 0x200E0054
abbrev dpCoalescedN : Fld := ⟨dpCoalesced, 0, 32⟩
/-- DP_ROWS, offset 0x0058. -/
abbrev dpRows : Nat := 0x200E0058
abbrev dpRowsN : Fld := ⟨dpRows, 0, 32⟩
/-- DP_REPLAYS, offset 0x005C. -/
abbrev dpReplays : Nat := 0x200E005C
abbrev dpReplaysN : Fld := ⟨dpReplays, 0, 32⟩
/-- DP_PORG, offset 0x0060. -/
abbrev dpPorg : Nat := 0x200E0060
abbrev dpPorgPx : Fld := ⟨dpPorg, 0, 9⟩
abbrev dpPorgPy : Fld := ⟨dpPorg, 16, 8⟩
/-- DP_PSIZE, offset 0x0064. -/
abbrev dpPsize : Nat := 0x200E0064
abbrev dpPsizePw : Fld := ⟨dpPsize, 0, 7⟩
abbrev dpPsizePh : Fld := ⟨dpPsize, 16, 6⟩
abbrev dpPsizePmode : Fld := ⟨dpPsize, 24, 2⟩
/-- DP_TABT, offset 0x0080. -/
abbrev dpTabt (i : Nat) : Nat := 0x200E0080 + 8 * i
abbrev dpTabtT (i : Nat) : Fld := ⟨dpTabt i, 0, 16⟩
abbrev dpTabtRowt (i : Nat) : Fld := ⟨dpTabt i, 16, 16⟩
/-- DP_TABV, offset 0x0084. -/
abbrev dpTabv (i : Nat) : Nat := 0x200E0084 + 8 * i
abbrev dpTabvVc (i : Nat) : Fld := ⟨dpTabv i, 0, 16⟩
/-- DP_WAVE, offset 0x00C0. -/
abbrev dpWave (i : Nat) : Nat := 0x200E00C0 + 4 * i
abbrev dpWaveV (i : Nat) : Fld := ⟨dpWave i, 0, 32⟩
/-! Block SEC at 0x200F0000 (spec/22_security_update.md). -/
/-- SEC_ID, offset 0x0000. -/
abbrev secId : Nat := 0x200F0000
abbrev secIdMinor : Fld := ⟨secId, 0, 8⟩
abbrev secIdMajor : Fld := ⟨secId, 8, 8⟩
abbrev secIdSlots : Fld := ⟨secId, 16, 8⟩
/-- SEC_LC, offset 0x0008. -/
abbrev secLc : Nat := 0x200F0008
abbrev secLcState : Fld := ⟨secLc, 0, 3⟩
abbrev secLcPufOk : Fld := ⟨secLc, 3, 1⟩
abbrev secLcPend : Fld := ⟨secLc, 4, 1⟩
/-- SEC_DBG, offset 0x000C. -/
abbrev secDbg : Nat := 0x200F000C
abbrev secDbgOpen : Fld := ⟨secDbg, 0, 3⟩
abbrev secDbgRemain : Fld := ⟨secDbg, 16, 16⟩
/-- SEC_SLOTS, offset 0x0010. -/
abbrev secSlots : Nat := 0x200F0010
abbrev secSlotsHash : Fld := ⟨secSlots, 0, 4⟩
abbrev secSlotsRevoked : Fld := ⟨secSlots, 4, 4⟩
abbrev secSlotsKek : Fld := ⟨secSlots, 8, 4⟩
/-- SEC_FLOOR, offset 0x0014. -/
abbrev secFloor : Nat := 0x200F0014
abbrev secFloorFloor1 : Fld := ⟨secFloor, 0, 8⟩
abbrev secFloorFloor2 : Fld := ⟨secFloor, 8, 8⟩
abbrev secFloorFloor3 : Fld := ⟨secFloor, 16, 8⟩
/-- SEC_TOKENS, offset 0x0020. -/
abbrev secTokens : Nat := 0x200F0020
abbrev secTokensN : Fld := ⟨secTokens, 0, 32⟩
/-- SEC_REFUSED, offset 0x0024. -/
abbrev secRefused : Nat := 0x200F0024
abbrev secRefusedN : Fld := ⟨secRefused, 0, 32⟩
/-- SEC_DEBUGOPEN, offset 0x0028. -/
abbrev secDebugopen : Nat := 0x200F0028
abbrev secDebugopenN : Fld := ⟨secDebugopen, 0, 32⟩
/-! Block UP at 0x20100000 (spec/22_security_update.md). -/
/-- UP_ID, offset 0x0000. -/
abbrev upId : Nat := 0x20100000
abbrev upIdMinor : Fld := ⟨upId, 0, 8⟩
abbrev upIdMajor : Fld := ⟨upId, 8, 8⟩
abbrev upIdTypes : Fld := ⟨upId, 16, 8⟩
/-- UP_STAT, offset 0x0008. -/
abbrev upStat : Nat := 0x20100008
abbrev upStatRelay : Fld := ⟨upStat, 0, 1⟩
abbrev upStatPhase : Fld := ⟨upStat, 1, 3⟩
abbrev upStatPermit : Fld := ⟨upStat, 4, 1⟩
/-- UP_IMAGES, offset 0x0040. -/
abbrev upImages : Nat := 0x20100040
abbrev upImagesN : Fld := ⟨upImages, 0, 32⟩
/-- UP_REFUSED, offset 0x0044. -/
abbrev upRefused : Nat := 0x20100044
abbrev upRefusedN : Fld := ⟨upRefused, 0, 32⟩
/-- UP_ACTIVATIONS, offset 0x0048. -/
abbrev upActivations : Nat := 0x20100048
abbrev upActivationsN : Fld := ⟨upActivations, 0, 32⟩
/-- UP_ROLLBACKS, offset 0x004C. -/
abbrev upRollbacks : Nat := 0x2010004C
abbrev upRollbacksN : Fld := ⟨upRollbacks, 0, 32⟩
/-- UP_TSTAT, offset 0x0100. -/
abbrev upTstat (i : Nat) : Nat := 0x20100100 + 32 * i
abbrev upTstatActive (i : Nat) : Fld := ⟨upTstat i, 0, 1⟩
abbrev upTstatIstate (i : Nat) : Fld := ⟨upTstat i, 1, 3⟩
abbrev upTstatConf (i : Nat) : Fld := ⟨upTstat i, 4, 2⟩
abbrev upTstatLasterr (i : Nat) : Fld := ⟨upTstat i, 8, 8⟩
/-- UP_TRECEIVED, offset 0x0104. -/
abbrev upTreceived (i : Nat) : Nat := 0x20100104 + 32 * i
abbrev upTreceivedReceived (i : Nat) : Fld := ⟨upTreceived i, 0, 32⟩
/-- UP_TIVER_LO, offset 0x0108. -/
abbrev upTiverLo (i : Nat) : Nat := 0x20100108 + 32 * i
abbrev upTiverLoIver (i : Nat) : Fld := ⟨upTiverLo i, 0, 32⟩
/-- UP_TIVER_HI, offset 0x010C. -/
abbrev upTiverHi (i : Nat) : Nat := 0x2010010C + 32 * i
abbrev upTiverHiIver (i : Nat) : Fld := ⟨upTiverHi i, 0, 32⟩
/-- UP_TAVER_LO, offset 0x0110. -/
abbrev upTaverLo (i : Nat) : Nat := 0x20100110 + 32 * i
abbrev upTaverLoAver (i : Nat) : Fld := ⟨upTaverLo i, 0, 32⟩
/-- UP_TAVER_HI, offset 0x0114. -/
abbrev upTaverHi (i : Nat) : Nat := 0x20100114 + 32 * i
abbrev upTaverHiAver (i : Nat) : Fld := ⟨upTaverHi i, 0, 32⟩
/-- UP_TCONFLEFT, offset 0x0118. -/
abbrev upTconfleft (i : Nat) : Nat := 0x20100118 + 32 * i
abbrev upTconfleftConfleft (i : Nat) : Fld := ⟨upTconfleft i, 0, 16⟩
/-! Block MS at 0x20110000 (spec/16_memory_storage.md). -/
/-- MS_ID, offset 0x0000. -/
abbrev msId : Nat := 0x20110000
abbrev msIdMinor : Fld := ⟨msId, 0, 8⟩
abbrev msIdMajor : Fld := ⟨msId, 8, 8⟩
abbrev msIdParts : Fld := ⟨msId, 16, 8⟩
/-- MS_STAT, offset 0x0008. -/
abbrev msStat : Nat := 0x20110008
abbrev msStatEcc : Fld := ⟨msStat, 0, 1⟩
abbrev msStatDual : Fld := ⟨msStat, 1, 1⟩
abbrev msStatPfail : Fld := ⟨msStat, 2, 1⟩
abbrev msStatScrub : Fld := ⟨msStat, 3, 1⟩
/-- MS_IRQ_STAT, offset 0x0010. -/
abbrev msIrqStat : Nat := 0x20110010
abbrev msIrqStatSrc : Fld := ⟨msIrqStat, 0, 6⟩
/-- MS_IRQ_EN, offset 0x0014. -/
abbrev msIrqEn : Nat := 0x20110014
abbrev msIrqEnSrc : Fld := ⟨msIrqEn, 0, 6⟩
/-- MS_SSUBMIT, offset 0x0020. -/
abbrev msSsubmit : Nat := 0x20110020
abbrev msSsubmitSubmit : Fld := ⟨msSsubmit, 0, 28⟩
/-- MS_SRES, offset 0x0024. -/
abbrev msSres : Nat := 0x20110024
abbrev msSresResult : Fld := ⟨msSres, 0, 3⟩
abbrev msSresTag : Fld := ⟨msSres, 16, 16⟩
/-- MS_SCQBASE_LO, offset 0x0028. -/
abbrev msScqbaseLo : Nat := 0x20110028
abbrev msScqbaseLoCqbase : Fld := ⟨msScqbaseLo, 0, 32⟩
/-- MS_SCQBASE_HI, offset 0x002C. -/
abbrev msScqbaseHi : Nat := 0x2011002C
abbrev msScqbaseHiCqbase : Fld := ⟨msScqbaseHi, 0, 32⟩
/-- MS_SCQTAIL, offset 0x0030. -/
abbrev msScqtail : Nat := 0x20110030
abbrev msScqtailCqtail : Fld := ⟨msScqtail, 0, 8⟩
/-- MS_SCQHEAD, offset 0x0034. -/
abbrev msScqhead : Nat := 0x20110034
abbrev msScqheadCqhead : Fld := ⟨msScqhead, 0, 8⟩
/-- MS_SOCC, offset 0x0038. -/
abbrev msSocc : Nat := 0x20110038
abbrev msSoccOcc : Fld := ⟨msSocc, 0, 9⟩
/-- MS_SABORT, offset 0x003C. -/
abbrev msSabort : Nat := 0x2011003C
abbrev msSabortAbort : Fld := ⟨msSabort, 0, 16⟩
/-- MS_SCFG, offset 0x0040. -/
abbrev msScfg : Nat := 0x20110040
abbrev msScfgRetry : Fld := ⟨msScfg, 0, 3⟩
abbrev msScfgTimeout : Fld := ⟨msScfg, 16, 16⟩
/-- MS_SWAT, offset 0x0044. -/
abbrev msSwat : Nat := 0x20110044
abbrev msSwatWat : Fld := ⟨msSwat, 0, 16⟩
/-- MS_SLATE, offset 0x0048. -/
abbrev msSlate : Nat := 0x20110048
abbrev msSlateLate : Fld := ⟨msSlate, 0, 32⟩
/-- MS_DCE, offset 0x0080. -/
abbrev msDce : Nat := 0x20110080
abbrev msDceN : Fld := ⟨msDce, 0, 32⟩
/-- MS_DUE, offset 0x0084. -/
abbrev msDue : Nat := 0x20110084
abbrev msDueN : Fld := ⟨msDue, 0, 32⟩
/-- MS_DADDR_LO, offset 0x0088. -/
abbrev msDaddrLo : Nat := 0x20110088
abbrev msDaddrLoDaddr : Fld := ⟨msDaddrLo, 0, 32⟩
/-- MS_DADDR_HI, offset 0x008C. -/
abbrev msDaddrHi : Nat := 0x2011008C
abbrev msDaddrHiDaddr : Fld := ⟨msDaddrHi, 0, 32⟩
/-- MS_SCRUB, offset 0x0090. -/
abbrev msScrub : Nat := 0x20110090
abbrev msScrubPeriod : Fld := ⟨msScrub, 0, 8⟩
/-- MS_SCRUBPOS, offset 0x0094. -/
abbrev msScrubpos : Nat := 0x20110094
abbrev msScrubposScrubpos : Fld := ⟨msScrubpos, 0, 32⟩
/-- MS_ECE, offset 0x00A0. -/
abbrev msEce : Nat := 0x201100A0
abbrev msEceN : Fld := ⟨msEce, 0, 32⟩
/-- MS_EREP, offset 0x00A4. -/
abbrev msErep : Nat := 0x201100A4
abbrev msErepN : Fld := ⟨msErep, 0, 32⟩
/-- DMA_CTRL, offset 0x8000. -/
abbrev dmaCtrl : Nat := 0x20118000
abbrev dmaCtrlEn : Fld := ⟨dmaCtrl, 0, 1⟩
abbrev dmaCtrlCntclr : Fld := ⟨dmaCtrl, 1, 1⟩
/-- DMA_SUBMIT, offset 0x8004. -/
abbrev dmaSubmit : Nat := 0x20118004
abbrev dmaSubmitSubmit : Fld := ⟨dmaSubmit, 0, 28⟩
/-- DMA_RESULT, offset 0x8008. -/
abbrev dmaResult : Nat := 0x20118008
abbrev dmaResultResult : Fld := ⟨dmaResult, 0, 2⟩
abbrev dmaResultTag : Fld := ⟨dmaResult, 16, 16⟩
/-- DMA_CQBASE_LO, offset 0x800C. -/
abbrev dmaCqbaseLo : Nat := 0x2011800C
abbrev dmaCqbaseLoCqbase : Fld := ⟨dmaCqbaseLo, 0, 32⟩
/-- DMA_CQBASE_HI, offset 0x8010. -/
abbrev dmaCqbaseHi : Nat := 0x20118010
abbrev dmaCqbaseHiCqbase : Fld := ⟨dmaCqbaseHi, 0, 32⟩
/-- DMA_CQTAIL, offset 0x8014. -/
abbrev dmaCqtail : Nat := 0x20118014
abbrev dmaCqtailCqtail : Fld := ⟨dmaCqtail, 0, 9⟩
/-- DMA_CQHEAD, offset 0x8018. -/
abbrev dmaCqhead : Nat := 0x20118018
abbrev dmaCqheadCqhead : Fld := ⟨dmaCqhead, 0, 9⟩
/-- DMA_OCC, offset 0x801C. -/
abbrev dmaOcc : Nat := 0x2011801C
abbrev dmaOccOcc : Fld := ⟨dmaOcc, 0, 10⟩
abbrev dmaOccRefused : Fld := ⟨dmaOcc, 16, 16⟩
/-- DMA_ABORT, offset 0x8020. -/
abbrev dmaAbort : Nat := 0x20118020
abbrev dmaAbortAbort : Fld := ⟨dmaAbort, 0, 16⟩
/-- DMA_IRQ_STAT, offset 0x8024. -/
abbrev dmaIrqStat : Nat := 0x20118024
abbrev dmaIrqStatSrc : Fld := ⟨dmaIrqStat, 0, 2⟩
/-- DMA_IRQ_EN, offset 0x8028. -/
abbrev dmaIrqEn : Nat := 0x20118028
abbrev dmaIrqEnSrc : Fld := ⟨dmaIrqEn, 0, 2⟩
/-- DMA_COMPLETED, offset 0x8030. -/
abbrev dmaCompleted : Nat := 0x20118030
abbrev dmaCompletedN : Fld := ⟨dmaCompleted, 0, 32⟩
/-- DMA_ERRORS, offset 0x8034. -/
abbrev dmaErrors : Nat := 0x20118034
abbrev dmaErrorsN : Fld := ⟨dmaErrors, 0, 32⟩
/-- DMA_MBYTES, offset 0x8038. -/
abbrev dmaMbytes : Nat := 0x20118038
abbrev dmaMbytesN : Fld := ⟨dmaMbytes, 0, 32⟩
/-! Block GH at 0x20120000 (spec/10_parterre_gatehouse.md). -/
/-- GH_ID, offset 0x0000. -/
abbrev ghId : Nat := 0x20120000
abbrev ghIdMinor : Fld := ⟨ghId, 0, 8⟩
abbrev ghIdMajor : Fld := ⟨ghId, 8, 8⟩
abbrev ghIdQdepth : Fld := ⟨ghId, 16, 16⟩
/-- GH_CTRL, offset 0x0004. -/
abbrev ghCtrl : Nat := 0x20120004
abbrev ghCtrlEn : Fld := ⟨ghCtrl, 0, 1⟩
abbrev ghCtrlFlush : Fld := ⟨ghCtrl, 1, 1⟩
abbrev ghCtrlCntclr : Fld := ⟨ghCtrl, 2, 1⟩
/-- GH_STAT, offset 0x0008. -/
abbrev ghStat : Nat := 0x20120008
abbrev ghStatSync : Fld := ⟨ghStat, 0, 1⟩
abbrev ghStatLate : Fld := ⟨ghStat, 1, 1⟩
abbrev ghStatDisc : Fld := ⟨ghStat, 2, 1⟩
abbrev ghStatStepped : Fld := ⟨ghStat, 3, 1⟩
abbrev ghStatUnsync : Fld := ⟨ghStat, 4, 1⟩
abbrev ghStatOcc : Fld := ⟨ghStat, 16, 9⟩
/-- GH_LATE, offset 0x000C. -/
abbrev ghLate : Nat := 0x2012000C
abbrev ghLateLateMax : Fld := ⟨ghLate, 0, 16⟩
/-- GH_TS_LO, offset 0x0010. -/
abbrev ghTsLo : Nat := 0x20120010
abbrev ghTsLoTs : Fld := ⟨ghTsLo, 0, 32⟩
/-- GH_TS_HI, offset 0x0014. -/
abbrev ghTsHi : Nat := 0x20120014
abbrev ghTsHiTs : Fld := ⟨ghTsHi, 0, 32⟩
/-- GH_ISSUE, offset 0x0018. -/
abbrev ghIssue : Nat := 0x20120018
abbrev ghIssueIssue : Fld := ⟨ghIssue, 0, 32⟩
/-- GH_CMD, offset 0x001C. -/
abbrev ghCmd : Nat := 0x2012001C
abbrev ghCmdAction : Fld := ⟨ghCmd, 0, 2⟩
abbrev ghCmdKind : Fld := ⟨ghCmd, 2, 1⟩
abbrev ghCmdCh : Fld := ⟨ghCmd, 3, 6⟩
abbrev ghCmdSection : Fld := ⟨ghCmd, 9, 7⟩
abbrev ghCmdEpoch : Fld := ⟨ghCmd, 16, 16⟩
/-- GH_RES, offset 0x0020. -/
abbrev ghRes : Nat := 0x20120020
abbrev ghResResult : Fld := ⟨ghRes, 0, 3⟩
/-- GH_EPOCH, offset 0x0024. -/
abbrev ghEpoch : Nat := 0x20120024
abbrev ghEpochEpoch : Fld := ⟨ghEpoch, 0, 16⟩
/-- GH_LAST_LO, offset 0x0028. -/
abbrev ghLastLo : Nat := 0x20120028
abbrev ghLastLoLast : Fld := ⟨ghLastLo, 0, 32⟩
/-- GH_LAST_HI, offset 0x002C. -/
abbrev ghLastHi : Nat := 0x2012002C
abbrev ghLastHiLast : Fld := ⟨ghLastHi, 0, 32⟩
/-- GH_LASTERR, offset 0x0030. -/
abbrev ghLasterr : Nat := 0x20120030
abbrev ghLasterrLasterr : Fld := ⟨ghLasterr, 0, 32⟩
/-- GH_ERRMAX, offset 0x0034. -/
abbrev ghErrmax : Nat := 0x20120034
abbrev ghErrmaxErrmax : Fld := ⟨ghErrmax, 0, 32⟩
/-- GH_NEXEC, offset 0x0040. -/
abbrev ghNexec : Nat := 0x20120040
abbrev ghNexecN : Fld := ⟨ghNexec, 0, 32⟩
/-- GH_NLATE, offset 0x0044. -/
abbrev ghNlate : Nat := 0x20120044
abbrev ghNlateN : Fld := ⟨ghNlate, 0, 32⟩
/-- GH_NDISC, offset 0x0048. -/
abbrev ghNdisc : Nat := 0x20120048
abbrev ghNdiscN : Fld := ⟨ghNdisc, 0, 32⟩
/-- GH_NSTALE, offset 0x004C. -/
abbrev ghNstale : Nat := 0x2012004C
abbrev ghNstaleN : Fld := ⟨ghNstale, 0, 32⟩
/-- GH_NWITHD, offset 0x0050. -/
abbrev ghNwithd : Nat := 0x20120050
abbrev ghNwithdN : Fld := ⟨ghNwithd, 0, 32⟩
/-- GH_NFLUSH, offset 0x0054. -/
abbrev ghNflush : Nat := 0x20120054
abbrev ghNflushN : Fld := ⟨ghNflush, 0, 32⟩
/-! Block KP at 0x20130000 (spec/20_keeper_events_thermal.md). -/
/-- KP_ID, offset 0x0000. -/
abbrev kpId : Nat := 0x20130000
abbrev kpIdMinor : Fld := ⟨kpId, 0, 8⟩
abbrev kpIdMajor : Fld := ⟨kpId, 8, 8⟩
abbrev kpIdSlots : Fld := ⟨kpId, 16, 8⟩
/-- KP_STAT, offset 0x0008. -/
abbrev kpStat : Nat := 0x20130008
abbrev kpStatReady : Fld := ⟨kpStat, 0, 1⟩
/-- KP_IRQ_STAT, offset 0x0010. -/
abbrev kpIrqStat : Nat := 0x20130010
abbrev kpIrqStatSrc : Fld := ⟨kpIrqStat, 0, 2⟩
/-- KP_IRQ_EN, offset 0x0014. -/
abbrev kpIrqEn : Nat := 0x20130014
abbrev kpIrqEnSrc : Fld := ⟨kpIrqEn, 0, 2⟩
/-- KP_MWD, offset 0x0020. -/
abbrev kpMwd : Nat := 0x20130020
abbrev kpMwdMwd : Fld := ⟨kpMwd, 0, 32⟩
/-- KP_MWDREM, offset 0x0024. -/
abbrev kpMwdrem : Nat := 0x20130024
abbrev kpMwdremMwdrem : Fld := ⟨kpMwdrem, 0, 16⟩
/-- KP_RTW, offset 0x0028. -/
abbrev kpRtw (i : Nat) : Nat := 0x20130028 + 4 * i
abbrev kpRtwRtw (i : Nat) : Fld := ⟨kpRtw i, 0, 32⟩
/-- KP_OPTIME, offset 0x0040. -/
abbrev kpOptime : Nat := 0x20130040
abbrev kpOptimeOptime : Fld := ⟨kpOptime, 0, 32⟩
/-- KP_PCYCLE, offset 0x0044. -/
abbrev kpPcycle : Nat := 0x20130044
abbrev kpPcyclePcycle : Fld := ⟨kpPcycle, 0, 32⟩
/-- KP_SLOTCLAIM, offset 0x0050. -/
abbrev kpSlotclaim : Nat := 0x20130050
abbrev kpSlotclaimSlotclaim : Fld := ⟨kpSlotclaim, 0, 8⟩
/-- KP_NRBASE_LO, offset 0x0058. -/
abbrev kpNrbaseLo : Nat := 0x20130058
abbrev kpNrbaseLoNrbase : Fld := ⟨kpNrbaseLo, 0, 32⟩
/-- KP_NRBASE_HI, offset 0x005C. -/
abbrev kpNrbaseHi : Nat := 0x2013005C
abbrev kpNrbaseHiNrbase : Fld := ⟨kpNrbaseHi, 0, 32⟩
/-- KP_NRPUT, offset 0x0060. -/
abbrev kpNrput : Nat := 0x20130060
abbrev kpNrputNrput : Fld := ⟨kpNrput, 0, 6⟩
/-- KP_SREQ_LO, offset 0x0100. -/
abbrev kpSreqLo (i : Nat) : Nat := 0x20130100 + 32 * i
abbrev kpSreqLoReq (i : Nat) : Fld := ⟨kpSreqLo i, 0, 32⟩
/-- KP_SREQ_HI, offset 0x0104. -/
abbrev kpSreqHi (i : Nat) : Nat := 0x20130104 + 32 * i
abbrev kpSreqHiReq (i : Nat) : Fld := ⟨kpSreqHi i, 0, 32⟩
/-- KP_SRSP_LO, offset 0x0108. -/
abbrev kpSrspLo (i : Nat) : Nat := 0x20130108 + 32 * i
abbrev kpSrspLoRsp (i : Nat) : Fld := ⟨kpSrspLo i, 0, 32⟩
/-- KP_SRSP_HI, offset 0x010C. -/
abbrev kpSrspHi (i : Nat) : Nat := 0x2013010C + 32 * i
abbrev kpSrspHiRsp (i : Nat) : Fld := ⟨kpSrspHi i, 0, 32⟩
/-- KP_SCTRL, offset 0x0110. -/
abbrev kpSctrl (i : Nat) : Nat := 0x20130110 + 32 * i
abbrev kpSctrlGo (i : Nat) : Fld := ⟨kpSctrl i, 0, 1⟩
abbrev kpSctrlRelease (i : Nat) : Fld := ⟨kpSctrl i, 1, 1⟩
abbrev kpSctrlIrq (i : Nat) : Fld := ⟨kpSctrl i, 2, 1⟩
/-- KP_SSTAT, offset 0x0114. -/
abbrev kpSstat (i : Nat) : Nat := 0x20130114 + 32 * i
abbrev kpSstatState (i : Nat) : Fld := ⟨kpSstat i, 0, 2⟩
abbrev kpSstatStatus (i : Nat) : Fld := ⟨kpSstat i, 8, 8⟩
end R

/-- Zone of each thermal sensor (Table 20-3). -/
def sensorZone (k : Nat) : Nat := [0, 0, 1, 1, 2, 2, 3, 3, 4, 5, 6, 7, 8, 9, 10, 11, 12, 13, 14, 15, 16, 17, 18, 19].getD k 0

/-- Reset of DP_TAB word 0 of point j: T in 0.1 °C and row time in 10 µs (Table 21-5). -/
def panelTableT (j : Nat) : Nat :=
  [65136 + 65536 * 1500, 65336 + 65536 * 1200, 65536 * 800, 100 + 65536 * 600, 200 + 65536 * 400,
   400 + 65536 * 250, 600 + 65536 * 200, 850 + 65536 * 200].getD j 0

/-- Reset of DP_TAB word 1 of point j: contrast voltage in 10 mV (Table 21-5). -/
def panelTableV (j : Nat) : Nat := [4000, 3800, 3600, 3500, 3400, 3200, 3000, 2800].getD j 0

/-- Reset of the five waveform words (object 0x3500:06): fR, fS, fE, two zero bytes, KS, KE, KD(0) to KD(3). -/
def panelWave (j : Nat) : Nat :=
  [400 + 65536 * 200, 400, 39322 + 65536 * 29491, 65536 * 6554, 13107 + 65536 * 19661].getD j 0

/-- Registers of block CK, part 0. -/
def ckRegs0 : List RegDef :=
  [ ⟨0x20000000, 0, 1, 0, 1, fun _ _ => 459009, [⟨0, 8, .ro, []⟩, ⟨8, 8, .ro, []⟩, ⟨16, 8, .ro, []⟩]⟩
  , ⟨0x20000008, 0, 1, 0, 1, fun _ _ => 0, [⟨0, 1, .ro, []⟩, ⟨1, 1, .ro, []⟩, ⟨2, 1, .ro, []⟩, ⟨3, 1, .ro, []⟩, ⟨4, 1, .ro, []⟩, ⟨5, 1, .ro, []⟩, ⟨6, 1, .ro, []⟩, ⟨7, 1, .ro, []⟩, ⟨8, 7, .ro, []⟩]⟩
  , ⟨0x2000000C, 0, 1, 0, 1, fun _ _ => 0, [⟨0, 32, .ro, []⟩]⟩
  , ⟨0x20000010, 0, 1, 0, 1, fun _ _ => 0, [⟨0, 32, .ro, []⟩]⟩
  , ⟨0x20000020, 4, 2, 0, 1, fun _ _ => 514, [⟨0, 2, .rw, []⟩, ⟨4, 2, .ro, []⟩, ⟨8, 2, .ro, []⟩, ⟨12, 1, .ro, []⟩]⟩
  , ⟨0x20000030, 0, 1, 0, 1, fun _ _ => 131071, [⟨0, 17, .rw, []⟩]⟩
  , ⟨0x20000034, 0, 1, 0, 1, fun _ _ => 65084, [⟨0, 17, .rw, []⟩]⟩
  , ⟨0x20000038, 0, 1, 0, 1, fun _ _ => 7, [⟨0, 1, .rw, []⟩, ⟨1, 1, .rw, []⟩, ⟨2, 1, .ro, []⟩, ⟨3, 1, .rw, []⟩]⟩
  , ⟨0x20000040, 0, 1, 0, 1, fun _ _ => 0, [⟨0, 32, .ro, []⟩]⟩
  , ⟨0x20000044, 0, 1, 0, 1, fun _ _ => 0, [⟨0, 32, .ro, []⟩]⟩
  , ⟨0x20000048, 0, 1, 0, 1, fun _ _ => 0, [⟨0, 32, .ro, []⟩]⟩
  , ⟨0x2000004C, 0, 1, 0, 1, fun _ _ => 0, [⟨0, 32, .ro, []⟩]⟩ ]

/-- Registers of block CK (spec/17_clocks.md). -/
def ckRegs : List RegDef := ckRegs0

/-- Registers of block IC, part 0. -/
def icRegs0 : List RegDef :=
  [ ⟨0x20010000, 0, 1, 0, 1, fun _ _ => 0, [⟨0, 10, .wo, []⟩]⟩
  , ⟨0x20010004, 0, 1, 0, 1, fun _ _ => 852225, [⟨0, 8, .ro, []⟩, ⟨8, 8, .ro, []⟩, ⟨16, 5, .ro, []⟩]⟩
  , ⟨0x20010008, 0, 1, 0, 1, fun _ _ => 2, [⟨0, 1, .wo, []⟩, ⟨1, 1, .ro, []⟩]⟩
  , ⟨0x2001000C, 0, 1, 0, 1, fun _ _ => 0, [⟨0, 1, .w1c, []⟩, ⟨1, 1, .w1c, []⟩]⟩
  , ⟨0x20010010, 0, 1, 0, 1, fun _ _ => 0, [⟨0, 1, .w1c, []⟩, ⟨1, 1, .w1c, []⟩]⟩
  , ⟨0x20010014, 0, 1, 0, 1, fun _ _ => 8191, [⟨0, 12, .rw, []⟩, ⟨12, 1, .ro, []⟩]⟩
  , ⟨0x20010020, 0, 1, 0, 1, fun _ _ => 0, [⟨0, 32, .ro, []⟩]⟩
  , ⟨0x20010024, 0, 1, 0, 1, fun _ _ => 0, [⟨0, 32, .ro, []⟩]⟩
  , ⟨0x20010028, 0, 1, 0, 1, fun _ _ => 0, [⟨0, 32, .ro, []⟩]⟩
  , ⟨0x2001002C, 0, 1, 0, 1, fun _ _ => 0, [⟨0, 32, .ro, []⟩]⟩
  , ⟨0x20010400, 4, 32, 0, 1, fun _ _ => 0, [⟨0, 32, .ro, []⟩]⟩
  , ⟨0x20010480, 4, 32, 0, 1, fun _ _ => 0, [⟨0, 32, .ro, []⟩]⟩
  , ⟨0x20010500, 4, 32, 0, 1, fun _ _ => 0, [⟨0, 32, .rw, []⟩]⟩
  , ⟨0x20011000, 4, 1024, 0, 1, fun _ _ => 0, [⟨0, 13, .rw, []⟩]⟩
  , ⟨0x20013000, 64, 13, 0, 1, fun _ _ => 0, [⟨0, 11, .ro, []⟩]⟩
  , ⟨0x20013004, 64, 13, 0, 1, fun _ _ => 0, [⟨0, 10, .wo, []⟩]⟩
  , ⟨0x20013008, 64, 13, 0, 1, fun _ _ => 1, [⟨0, 1, .rw, []⟩]⟩
  , ⟨0x2001300C, 64, 13, 0, 1, fun _ _ => 1024, [⟨0, 11, .ro, []⟩, ⟨16, 1, .ro, []⟩, ⟨17, 1, .ro, []⟩, ⟨18, 1, .ro, []⟩]⟩
  , ⟨0x20013010, 64, 13, 0, 1, fun _ _ => 0, [⟨0, 32, .ro, []⟩]⟩
  , ⟨0x20013014, 64, 13, 0, 1, fun _ _ => 0, [⟨0, 32, .ro, []⟩]⟩ ]

/-- Registers of block IC (spec/15_processors_interrupts.md). -/
def icRegs : List RegDef := icRegs0

/-- Registers of block CE, part 0. -/
def ceRegs0 : List RegDef :=
  [ ⟨0x20020000, 0, 1, 0, 1, fun _ _ => 4194563, [⟨0, 8, .ro, []⟩, ⟨8, 8, .ro, []⟩, ⟨16, 8, .ro, []⟩]⟩
  , ⟨0x20020004, 0, 1, 0, 1, fun _ _ => 0, [⟨0, 1, .rw, []⟩, ⟨1, 1, .wo, []⟩]⟩
  , ⟨0x20020008, 0, 1, 0, 1, fun _ _ => 0, [⟨0, 1, .ro, []⟩, ⟨1, 1, .ro, []⟩, ⟨2, 1, .w1c, []⟩, ⟨3, 2, .ro, []⟩, ⟨5, 5, .ro, []⟩, ⟨10, 1, .ro, []⟩, ⟨11, 5, .ro, []⟩]⟩
  , ⟨0x20020010, 0, 1, 0, 1, fun _ _ => 0, [⟨0, 32, .ro, []⟩]⟩
  , ⟨0x20020014, 0, 1, 0, 1, fun _ _ => 0, [⟨0, 32, .ro, []⟩]⟩
  , ⟨0x20020018, 0, 1, 0, 1, fun _ _ => 0, [⟨0, 32, .ro, []⟩]⟩
  , ⟨0x2002001C, 0, 1, 0, 1, fun _ _ => 0, [⟨0, 32, .ro, []⟩]⟩
  , ⟨0x20020020, 0, 1, 0, 1, fun _ _ => 0, [⟨0, 6, .w1c, []⟩]⟩
  , ⟨0x20020024, 0, 1, 0, 1, fun _ _ => 0, [⟨0, 6, .rw, []⟩]⟩
  , ⟨0x20020030, 4, 2, 0, 1, fun _ _ => 0, [⟨0, 32, .ro, []⟩]⟩
  , ⟨0x20020038, 4, 2, 0, 1, fun _ _ => 0, [⟨0, 32, .w1c, []⟩]⟩
  , ⟨0x20021000, 256, 64, 0, 1, fun _ _ => 655360, [⟨0, 1, .rw, []⟩, ⟨1, 1, .wo, []⟩, ⟨2, 1, .rw, []⟩, ⟨3, 1, .rw, []⟩, ⟨4, 1, .rw, []⟩, ⟨5, 2, .rw, [(0, 2, 1)]⟩, ⟨7, 1, .rw, []⟩, ⟨8, 1, .rw, []⟩, ⟨9, 1, .wo, []⟩, ⟨10, 1, .wo, []⟩, ⟨16, 8, .rw, []⟩, ⟨24, 1, .rw, []⟩]⟩
  , ⟨0x20021004, 256, 64, 0, 1, fun _ _ => 0, [⟨0, 3, .ro, []⟩, ⟨3, 1, .ro, []⟩, ⟨4, 1, .ro, []⟩, ⟨5, 1, .ro, []⟩, ⟨6, 1, .ro, []⟩, ⟨7, 1, .ro, []⟩, ⟨12, 4, .ro, []⟩]⟩
  , ⟨0x20021008, 256, 64, 0, 1, fun _ _ => 100, [⟨0, 16, .rw, [(5, 65535, 1)]⟩, ⟨16, 16, .rw, [(0, 65534, 1)]⟩]⟩
  , ⟨0x2002100C, 256, 64, 0, 1, fun _ _ => 0, [⟨0, 2, .rw, [(0, 2, 1)]⟩, ⟨8, 6, .rw, []⟩]⟩
  , ⟨0x20021010, 256, 64, 0, 1, fun _ _ => 0, [⟨0, 32, .rw, []⟩]⟩
  , ⟨0x20021014, 256, 64, 0, 1, fun _ _ => 0, [⟨0, 32, .rw, []⟩]⟩
  , ⟨0x20021018, 256, 64, 0, 1, fun _ _ => 0, [⟨0, 32, .rw, []⟩]⟩
  , ⟨0x2002101C, 256, 64, 0, 1, fun _ _ => 0, [⟨0, 32, .rw, []⟩]⟩
  , ⟨0x20021020, 256, 64, 0, 1, fun _ _ => 1065353216, [⟨0, 32, .rw, []⟩]⟩ ]

/-- Registers of block CE, part 1. -/
def ceRegs1 : List RegDef :=
  [ ⟨0x20021024, 256, 64, 0, 1, fun _ _ => 1065353216, [⟨0, 32, .rw, []⟩]⟩
  , ⟨0x20021028, 256, 64, 0, 1, fun _ _ => 0, [⟨0, 32, .rw, []⟩]⟩
  , ⟨0x2002102C, 256, 64, 0, 1, fun _ _ => 0, [⟨0, 32, .rw, []⟩]⟩
  , ⟨0x20021030, 256, 64, 0, 1, fun _ _ => 0, [⟨0, 32, .rw, []⟩]⟩
  , ⟨0x20021034, 256, 64, 0, 1, fun _ _ => 0, [⟨0, 32, .rw, []⟩]⟩
  , ⟨0x20021038, 256, 64, 0, 1, fun _ _ => 0, [⟨0, 32, .rw, []⟩]⟩
  , ⟨0x2002103C, 256, 64, 0, 1, fun _ _ => 0, [⟨0, 32, .rw, []⟩]⟩
  , ⟨0x20021040, 256, 64, 0, 1, fun _ _ => 0, [⟨0, 32, .rw, []⟩]⟩
  , ⟨0x20021044, 256, 64, 0, 1, fun _ _ => 0, [⟨0, 32, .rw, []⟩]⟩
  , ⟨0x20021048, 256, 64, 0, 1, fun _ _ => 0, [⟨0, 32, .rw, []⟩]⟩
  , ⟨0x2002104C, 256, 64, 0, 1, fun _ _ => 0, [⟨0, 32, .rw, []⟩]⟩
  , ⟨0x20021050, 256, 64, 0, 1, fun _ _ => 0, [⟨0, 32, .ro, []⟩]⟩
  , ⟨0x20021054, 256, 64, 0, 1, fun _ _ => 0, [⟨0, 32, .ro, []⟩]⟩
  , ⟨0x20021058, 256, 64, 0, 1, fun _ _ => 0, [⟨0, 32, .ro, []⟩]⟩
  , ⟨0x2002105C, 256, 64, 0, 1, fun _ _ => 0, [⟨0, 32, .ro, []⟩]⟩
  , ⟨0x20021060, 256, 64, 0, 1, fun _ _ => 0, [⟨0, 32, .ro, []⟩]⟩
  , ⟨0x20021064, 256, 64, 0, 1, fun _ _ => 0, [⟨0, 32, .ro, []⟩]⟩
  , ⟨0x20021068, 256, 64, 0, 1, fun _ _ => 0, [⟨0, 32, .ro, []⟩]⟩
  , ⟨0x2002106C, 256, 64, 0, 1, fun _ _ => 0, [⟨0, 32, .ro, []⟩]⟩
  , ⟨0x20021070, 256, 64, 0, 1, fun _ _ => 0, [⟨0, 32, .ro, []⟩]⟩ ]

/-- Registers of block CE, part 2. -/
def ceRegs2 : List RegDef :=
  [ ⟨0x20021074, 256, 64, 0, 1, fun _ _ => 0, [⟨0, 32, .ro, []⟩]⟩
  , ⟨0x20021078, 256, 64, 0, 1, fun _ _ => 0, [⟨0, 32, .ro, []⟩]⟩
  , ⟨0x2002107C, 256, 64, 0, 1, fun _ _ => 0, [⟨0, 32, .ro, []⟩]⟩
  , ⟨0x20021080, 256, 64, 4, 32, fun _ _ => 0, [⟨0, 32, .rw, []⟩]⟩ ]

/-- Registers of block CE (spec/02_control_engine.md). -/
def ceRegs : List RegDef := ceRegs0 ++ ceRegs1 ++ ceRegs2

/-- Registers of block SD, part 0. -/
def sdRegs0 : List RegDef :=
  [ ⟨0x20030000, 0, 1, 0, 1, fun _ _ => 204472578, [⟨0, 8, .ro, []⟩, ⟨8, 8, .ro, []⟩, ⟨16, 8, .ro, []⟩, ⟨24, 8, .ro, []⟩]⟩
  , ⟨0x20030008, 0, 1, 0, 1, fun _ _ => 0, [⟨0, 3, .ro, []⟩, ⟨3, 3, .ro, []⟩, ⟨6, 3, .w1c, []⟩, ⟨9, 1, .ro, []⟩, ⟨10, 1, .ro, []⟩, ⟨11, 1, .ro, []⟩, ⟨12, 3, .ro, []⟩]⟩
  , ⟨0x20030010, 0, 1, 0, 1, fun _ _ => 0, [⟨0, 15, .w1c, []⟩]⟩
  , ⟨0x20030014, 0, 1, 0, 1, fun _ _ => 0, [⟨0, 15, .rw, []⟩]⟩
  , ⟨0x20030100, 64, 12, 0, 1, fun _ _ => 0, [⟨0, 1, .rw, []⟩, ⟨1, 1, .rw, []⟩, ⟨2, 1, .wo, []⟩, ⟨3, 1, .wo, []⟩]⟩
  , ⟨0x20030104, 64, 12, 0, 1, fun _ _ => 0, [⟨0, 1, .ro, []⟩, ⟨1, 1, .ro, []⟩, ⟨2, 1, .ro, []⟩, ⟨3, 1, .ro, []⟩, ⟨4, 1, .ro, []⟩, ⟨5, 1, .ro, []⟩, ⟨6, 2, .ro, []⟩, ⟨8, 3, .ro, []⟩, ⟨16, 4, .ro, []⟩]⟩
  , ⟨0x20030108, 64, 12, 0, 1, fun _ _ => 0, [⟨0, 1, .w1c, []⟩, ⟨1, 1, .w1c, []⟩, ⟨2, 1, .w1c, []⟩, ⟨3, 1, .w1c, []⟩, ⟨4, 1, .w1c, []⟩, ⟨5, 1, .w1c, []⟩, ⟨6, 1, .ro, []⟩]⟩
  , ⟨0x2003010C, 64, 12, 0, 1, fun _ _ => 100, [⟨0, 10, .rw, [(0, 500, 1)]⟩]⟩
  , ⟨0x20030110, 64, 12, 0, 1, fun _ _ => 1250, [⟨0, 16, .ro, []⟩, ⟨16, 16, .ro, []⟩]⟩
  , ⟨0x20030114, 64, 12, 0, 1, fun _ _ => 0, [⟨0, 16, .ro, []⟩, ⟨16, 16, .ro, []⟩]⟩
  , ⟨0x20031000, 128, 48, 0, 1, fun _ _ => 0, [⟨0, 1, .rw, []⟩, ⟨1, 2, .rw, []⟩, ⟨3, 1, .rw, []⟩, ⟨4, 1, .rw, []⟩, ⟨5, 1, .rw, []⟩, ⟨6, 1, .rw, []⟩, ⟨7, 2, .rw, [(0, 2, 1)]⟩, ⟨9, 1, .rw, []⟩, ⟨10, 1, .wo, []⟩, ⟨11, 1, .wo, []⟩]⟩
  , ⟨0x20031004, 128, 48, 0, 1, fun _ _ => 1048583, [⟨0, 10, .rw, [(7, 512, 1)]⟩, ⟨16, 10, .rw, [(16, 512, 1)]⟩]⟩
  , ⟨0x20031008, 128, 48, 0, 1, fun _ _ => 16777216, [⟨0, 10, .rw, [(0, 512, 1)]⟩, ⟨16, 10, .rw, [(0, 512, 1)]⟩]⟩
  , ⟨0x2003100C, 128, 48, 0, 1, fun _ _ => 6553600, [⟨0, 9, .rw, [(0, 500, 1)]⟩, ⟨16, 9, .rw, [(0, 500, 1)]⟩]⟩
  , ⟨0x20031010, 128, 48, 0, 1, fun _ _ => 262344, [⟨0, 9, .rw, [(40, 400, 1)]⟩, ⟨16, 5, .rw, [(1, 31, 1)]⟩]⟩
  , ⟨0x20031014, 128, 48, 0, 1, fun _ _ => 0, [⟨0, 7, .rw, [(0, 64, 1)]⟩, ⟨16, 9, .rw, [(0, 0, 1), (50, 500, 1)]⟩]⟩
  , ⟨0x20031018, 128, 48, 0, 1, fun _ _ => 1000, [⟨0, 14, .rw, [(1000, 10000, 1)]⟩, ⟨16, 14, .rw, []⟩]⟩
  , ⟨0x2003101C, 128, 48, 0, 1, fun _ _ => 0, [⟨0, 10, .rw, [(0, 1000, 1)]⟩]⟩
  , ⟨0x20031020, 128, 48, 0, 1, fun _ _ => 4294901760, [⟨0, 16, .rw, []⟩, ⟨16, 16, .rw, []⟩]⟩
  , ⟨0x20031024, 128, 48, 0, 1, fun _ _ => 4, [⟨0, 6, .rw, [(1, 63, 1)]⟩]⟩ ]

/-- Registers of block SD, part 1. -/
def sdRegs1 : List RegDef :=
  [ ⟨0x20031028, 128, 48, 0, 1, fun _ _ => 0, [⟨0, 10, .rw, []⟩]⟩
  , ⟨0x20031030, 128, 48, 0, 1, fun _ _ => 0, [⟨0, 3, .ro, []⟩, ⟨3, 1, .ro, []⟩, ⟨4, 1, .ro, []⟩, ⟨8, 4, .ro, []⟩]⟩
  , ⟨0x20031034, 128, 48, 0, 1, fun _ _ => 0, [⟨0, 1, .w1c, []⟩, ⟨1, 1, .w1c, []⟩, ⟨2, 1, .w1c, []⟩, ⟨3, 1, .w1c, []⟩, ⟨4, 1, .ro, []⟩, ⟨5, 1, .ro, []⟩, ⟨6, 1, .w1c, []⟩]⟩
  , ⟨0x20031038, 128, 48, 0, 1, fun _ _ => 0, [⟨0, 16, .ro, []⟩, ⟨16, 16, .ro, []⟩]⟩
  , ⟨0x2003103C, 128, 48, 0, 1, fun _ _ => 0, [⟨0, 16, .ro, []⟩, ⟨16, 16, .ro, []⟩]⟩
  , ⟨0x20031040, 128, 48, 0, 1, fun _ _ => 0, [⟨0, 32, .ro, []⟩]⟩
  , ⟨0x20031044, 128, 48, 0, 1, fun _ _ => 0, [⟨0, 32, .ro, []⟩]⟩
  , ⟨0x20031048, 128, 48, 0, 1, fun _ _ => 0, [⟨0, 32, .ro, []⟩]⟩
  , ⟨0x2003104C, 128, 48, 0, 1, fun _ _ => 0, [⟨0, 32, .ro, []⟩]⟩ ]

/-- Registers of block SD (spec/03_solenoid_drive.md). -/
def sdRegs : List RegDef := sdRegs0 ++ sdRegs1

/-- Registers of block LS, part 0. -/
def lsRegs0 : List RegDef :=
  [ ⟨0x20040000, 0, 1, 0, 1, fun _ _ => 136315137, [⟨0, 8, .ro, []⟩, ⟨8, 8, .ro, []⟩, ⟨16, 8, .ro, []⟩, ⟨24, 8, .ro, []⟩]⟩
  , ⟨0x20040008, 0, 1, 0, 1, fun _ _ => 0, [⟨0, 2, .ro, []⟩, ⟨2, 2, .ro, []⟩, ⟨4, 2, .w1c, []⟩, ⟨6, 1, .ro, []⟩, ⟨7, 1, .ro, []⟩, ⟨8, 1, .ro, []⟩, ⟨9, 2, .ro, []⟩]⟩
  , ⟨0x20040010, 0, 1, 0, 1, fun _ _ => 0, [⟨0, 12, .w1c, []⟩]⟩
  , ⟨0x20040014, 0, 1, 0, 1, fun _ _ => 0, [⟨0, 12, .rw, []⟩]⟩
  , ⟨0x20040100, 64, 8, 0, 1, fun _ _ => 0, [⟨0, 1, .rw, []⟩]⟩
  , ⟨0x20040104, 64, 8, 0, 1, fun _ _ => 0, [⟨0, 1, .ro, []⟩, ⟨1, 1, .ro, []⟩, ⟨8, 4, .ro, []⟩]⟩
  , ⟨0x20040108, 64, 8, 0, 1, fun _ _ => 0, [⟨0, 1, .w1c, []⟩, ⟨1, 1, .w1c, []⟩, ⟨2, 1, .w1c, []⟩, ⟨3, 1, .ro, []⟩]⟩
  , ⟨0x2004010C, 64, 8, 0, 1, fun _ _ => 100, [⟨0, 10, .rw, [(0, 500, 1)]⟩]⟩
  , ⟨0x20040110, 64, 8, 0, 1, fun _ _ => 0, [⟨0, 16, .ro, []⟩]⟩
  , ⟨0x20040114, 64, 8, 0, 1, fun _ _ => 0, [⟨0, 16, .ro, []⟩, ⟨16, 16, .ro, []⟩]⟩
  , ⟨0x20041000, 128, 32, 0, 1, fun _ _ => 0, [⟨0, 1, .rw, []⟩, ⟨1, 2, .rw, []⟩, ⟨3, 1, .rw, []⟩, ⟨4, 1, .rw, []⟩, ⟨5, 2, .rw, [(0, 2, 1)]⟩, ⟨7, 1, .wo, []⟩, ⟨8, 1, .wo, []⟩, ⟨9, 1, .wo, []⟩]⟩
  , ⟨0x20041004, 128, 32, 0, 1, fun _ _ => 788, [⟨0, 8, .rw, [(0, 200, 1)]⟩, ⟨8, 4, .rw, []⟩]⟩
  , ⟨0x20041008, 128, 32, 0, 1, fun _ _ => 1000, [⟨0, 11, .rw, [(100, 2000, 1)]⟩, ⟨16, 11, .rw, []⟩]⟩
  , ⟨0x2004100C, 128, 32, 0, 1, fun _ _ => 0, [⟨0, 12, .rw, [(0, 4000, 1)]⟩]⟩
  , ⟨0x20041010, 128, 32, 0, 1, fun _ _ => 13107600, [⟨0, 12, .rw, [(0, 4000, 1)]⟩, ⟨16, 12, .rw, [(10, 2000, 1)]⟩]⟩
  , ⟨0x20041014, 128, 32, 0, 1, fun _ _ => 5, [⟨0, 8, .rw, [(1, 200, 1)]⟩]⟩
  , ⟨0x20041018, 128, 32, 0, 1, fun _ _ => 0, [⟨0, 12, .rw, [(0, 4000, 1)]⟩]⟩
  , ⟨0x20041030, 128, 32, 0, 1, fun _ _ => 0, [⟨0, 3, .ro, []⟩, ⟨3, 1, .ro, []⟩, ⟨4, 1, .ro, []⟩, ⟨8, 4, .ro, []⟩]⟩
  , ⟨0x20041034, 128, 32, 0, 1, fun _ _ => 0, [⟨0, 1, .w1c, []⟩, ⟨1, 1, .w1c, []⟩, ⟨2, 1, .w1c, []⟩, ⟨3, 1, .ro, []⟩, ⟨4, 1, .ro, []⟩, ⟨5, 1, .w1c, []⟩, ⟨6, 1, .w1c, []⟩, ⟨7, 1, .w1c, []⟩, ⟨8, 1, .w1c, []⟩]⟩
  , ⟨0x20041038, 128, 32, 0, 1, fun _ _ => 0, [⟨0, 16, .ro, []⟩, ⟨16, 16, .ro, []⟩]⟩ ]

/-- Registers of block LS, part 1. -/
def lsRegs1 : List RegDef :=
  [ ⟨0x2004103C, 128, 32, 0, 1, fun i _ => if i < 8 then 10000 else 3000, [⟨0, 16, .ro, []⟩, ⟨16, 16, .ro, []⟩]⟩
  , ⟨0x20041040, 128, 32, 0, 1, fun _ _ => 0, [⟨0, 32, .ro, []⟩]⟩
  , ⟨0x20041044, 128, 32, 0, 1, fun _ _ => 0, [⟨0, 32, .ro, []⟩]⟩
  , ⟨0x20041048, 128, 32, 0, 1, fun _ _ => 0, [⟨0, 32, .ro, []⟩]⟩
  , ⟨0x2004104C, 128, 32, 0, 1, fun _ _ => 0, [⟨0, 32, .ro, []⟩]⟩ ]

/-- Registers of block LS (spec/04_load_switches.md). -/
def lsRegs : List RegDef := lsRegs0 ++ lsRegs1

/-- Registers of block SI, part 0. -/
def siRegs0 : List RegDef :=
  [ ⟨0x20050000, 0, 1, 0, 1, fun _ _ => 405799169, [⟨0, 8, .ro, []⟩, ⟨8, 8, .ro, []⟩, ⟨16, 8, .ro, []⟩, ⟨24, 8, .ro, []⟩]⟩
  , ⟨0x20050008, 0, 1, 0, 1, fun _ _ => 32, [⟨0, 1, .rw, []⟩, ⟨1, 1, .wo, []⟩, ⟨4, 2, .ro, []⟩, ⟨6, 4, .ro, []⟩, ⟨10, 1, .ro, []⟩, ⟨11, 1, .w1c, []⟩, ⟨12, 2, .ro, []⟩, ⟨16, 16, .ro, []⟩]⟩
  , ⟨0x2005000C, 0, 1, 0, 1, fun _ _ => 32770564, [⟨0, 5, .rw, [(1, 16, 1)]⟩, ⟨8, 8, .rw, [(0, 100, 1)]⟩, ⟨16, 16, .rw, [(10, 5000, 1)]⟩]⟩
  , ⟨0x20050010, 0, 1, 0, 1, fun _ _ => 0, [⟨0, 9, .w1c, []⟩]⟩
  , ⟨0x20050014, 0, 1, 0, 1, fun _ _ => 0, [⟨0, 9, .rw, []⟩]⟩
  , ⟨0x20050020, 0, 1, 0, 1, fun _ _ => 15, [⟨0, 4, .rw, []⟩, ⟨4, 4, .ro, []⟩, ⟨8, 4, .wo, []⟩]⟩
  , ⟨0x20050024, 4, 4, 0, 1, fun _ _ => 0, [⟨0, 16, .ro, []⟩, ⟨16, 16, .ro, []⟩]⟩
  , ⟨0x20050100, 16, 48, 0, 1, fun _ _ => 1310720, [⟨0, 3, .rw, [(0, 6, 1)]⟩, ⟨4, 2, .rw, []⟩, ⟨6, 3, .rw, [(0, 6, 1)]⟩, ⟨9, 1, .wo, []⟩, ⟨16, 16, .rw, [(1, 20000, 1)]⟩]⟩
  , ⟨0x20050104, 16, 48, 0, 1, fun _ _ => 0, [⟨0, 16, .rw, [(0, 10000, 1)]⟩]⟩
  , ⟨0x20050108, 16, 48, 0, 1, fun _ _ => 0, [⟨0, 32, .ro, []⟩]⟩
  , ⟨0x2005010C, 16, 48, 0, 1, fun _ _ => 0, [⟨0, 1, .w1c, []⟩, ⟨1, 1, .ro, []⟩, ⟨2, 1, .ro, []⟩, ⟨3, 1, .ro, []⟩, ⟨4, 4, .ro, []⟩]⟩
  , ⟨0x20050400, 32, 24, 0, 1, fun _ _ => 6553600, [⟨0, 3, .rw, [(0, 4, 1)]⟩, ⟨3, 2, .rw, [(0, 2, 1)]⟩, ⟨5, 1, .rw, []⟩, ⟨6, 1, .wo, []⟩, ⟨8, 8, .rw, []⟩, ⟨16, 16, .rw, [(1, 10000, 1)]⟩]⟩
  , ⟨0x20050404, 32, 24, 0, 1, fun _ _ => 3870, [⟨0, 8, .rw, [(5, 255, 1)]⟩, ⟨8, 8, .rw, []⟩]⟩
  , ⟨0x20050408, 32, 24, 0, 1, fun _ _ => 2000, [⟨0, 16, .rw, [(10, 20000, 1)]⟩]⟩
  , ⟨0x2005040C, 32, 24, 0, 1, fun _ _ => 0, [⟨0, 32, .ro, []⟩]⟩
  , ⟨0x20050410, 32, 24, 0, 1, fun _ _ => 0, [⟨0, 32, .ro, []⟩]⟩
  , ⟨0x20050414, 32, 24, 0, 1, fun _ _ => 0, [⟨0, 32, .ro, []⟩]⟩
  , ⟨0x20050418, 32, 24, 0, 1, fun _ _ => 0, [⟨0, 32, .ro, []⟩]⟩
  , ⟨0x2005041C, 32, 24, 0, 1, fun _ _ => 0, [⟨0, 1, .w1c, []⟩, ⟨1, 1, .ro, []⟩, ⟨2, 1, .w1c, []⟩, ⟨4, 4, .ro, []⟩]⟩
  , ⟨0x20050800, 16, 4, 0, 1, fun _ _ => 65536028, [⟨0, 1, .rw, []⟩, ⟨1, 1, .rw, []⟩, ⟨2, 3, .rw, []⟩, ⟨16, 16, .rw, [(10, 4000, 1)]⟩]⟩ ]

/-- Registers of block SI, part 1. -/
def siRegs1 : List RegDef :=
  [ ⟨0x20050804, 16, 4, 0, 1, fun _ _ => 0, [⟨0, 32, .ro, []⟩]⟩
  , ⟨0x20050808, 16, 4, 0, 1, fun _ _ => 0, [⟨0, 1, .ro, []⟩, ⟨1, 1, .ro, []⟩, ⟨2, 1, .w1c, []⟩]⟩
  , ⟨0x20050900, 128, 8, 0, 1, fun _ _ => 6553920, [⟨0, 1, .rw, []⟩, ⟨1, 1, .rw, []⟩, ⟨4, 8, .rw, [(5, 100, 1)]⟩, ⟨16, 16, .rw, [(10, 1000, 1)]⟩]⟩
  , ⟨0x20050904, 128, 8, 0, 1, fun _ _ => 128, [⟨0, 12, .rw, []⟩]⟩
  , ⟨0x20050908, 128, 8, 4, 8, fun _ j => 256 * (2 * j + 1) + 65536 * (if j = 7 then 0 else 256 * (2 * j + 2)), [⟨0, 12, .rw, []⟩, ⟨16, 12, .rw, []⟩]⟩
  , ⟨0x20050928, 128, 8, 0, 1, fun _ _ => 0, [⟨0, 32, .ro, []⟩]⟩
  , ⟨0x2005092C, 128, 8, 0, 1, fun _ _ => 0, [⟨0, 1, .w1c, []⟩, ⟨1, 1, .w1c, []⟩, ⟨3, 1, .w1c, []⟩]⟩
  , ⟨0x20050940, 128, 8, 4, 8, fun _ _ => 0, [⟨0, 16, .ro, []⟩, ⟨16, 16, .ro, []⟩]⟩
  , ⟨0x20050960, 128, 8, 0, 1, fun _ _ => 0, [⟨0, 16, .ro, []⟩, ⟨16, 16, .ro, []⟩]⟩
  , ⟨0x20050D00, 0, 1, 0, 1, fun _ _ => 21, [⟨0, 1, .rw, []⟩, ⟨1, 2, .rw, []⟩, ⟨3, 2, .rw, []⟩]⟩
  , ⟨0x20050D04, 0, 1, 0, 1, fun _ _ => 0, [⟨0, 1, .ro, []⟩, ⟨1, 1, .ro, []⟩, ⟨2, 1, .w1c, []⟩]⟩ ]

/-- Registers of block SI (spec/05_sensor_inputs.md). -/
def siRegs : List RegDef := siRegs0 ++ siRegs1

/-- Registers of block FU, part 0. -/
def fuRegs0 : List RegDef :=
  [ ⟨0x20060000, 0, 1, 0, 1, fun _ _ => 188743938, [⟨0, 8, .ro, []⟩, ⟨8, 8, .ro, []⟩, ⟨16, 8, .ro, []⟩, ⟨24, 8, .ro, []⟩]⟩
  , ⟨0x20060004, 0, 1, 0, 1, fun _ _ => 0, [⟨0, 1, .rw, []⟩, ⟨1, 1, .ro, []⟩]⟩
  , ⟨0x20060008, 0, 1, 0, 1, fun _ _ => 0, [⟨0, 1, .ro, []⟩, ⟨1, 1, .ro, []⟩, ⟨2, 1, .w1c, []⟩, ⟨3, 1, .w1c, []⟩, ⟨4, 1, .ro, []⟩]⟩
  , ⟨0x20060010, 0, 1, 0, 1, fun _ _ => 0, [⟨0, 7, .w1c, []⟩]⟩
  , ⟨0x20060014, 0, 1, 0, 1, fun _ _ => 0, [⟨0, 7, .rw, []⟩]⟩
  , ⟨0x20060100, 64, 2, 0, 1, fun _ _ => 128, [⟨0, 9, .ro, []⟩]⟩
  , ⟨0x20060104, 64, 2, 0, 1, fun _ _ => 0, [⟨0, 28, .wo, []⟩]⟩
  , ⟨0x20060108, 64, 2, 0, 1, fun _ _ => 0, [⟨0, 2, .ro, []⟩, ⟨16, 16, .ro, []⟩]⟩
  , ⟨0x2006010C, 64, 2, 0, 1, fun _ _ => 0, [⟨0, 32, .rw, [(0, 4294967295, 16)]⟩]⟩
  , ⟨0x20060110, 64, 2, 0, 1, fun _ _ => 0, [⟨0, 32, .rw, []⟩]⟩
  , ⟨0x20060114, 64, 2, 0, 1, fun _ _ => 0, [⟨0, 9, .ro, []⟩]⟩
  , ⟨0x20060118, 64, 2, 0, 1, fun _ _ => 0, [⟨0, 9, .rw, []⟩]⟩
  , ⟨0x2006011C, 64, 2, 0, 1, fun _ _ => 0, [⟨0, 9, .ro, []⟩, ⟨16, 16, .ro, []⟩]⟩
  , ⟨0x20060120, 64, 2, 0, 1, fun _ _ => 0, [⟨0, 16, .wo, []⟩]⟩
  , ⟨0x20061000, 32, 64, 0, 1, fun _ _ => 0, [⟨0, 1, .ro, []⟩, ⟨1, 1, .ro, []⟩, ⟨2, 3, .ro, []⟩, ⟨5, 3, .ro, []⟩, ⟨8, 8, .ro, []⟩, ⟨16, 5, .ro, []⟩]⟩
  , ⟨0x20061004, 32, 64, 0, 1, fun _ _ => 0, [⟨0, 32, .ro, []⟩]⟩
  , ⟨0x20061008, 32, 64, 0, 1, fun _ _ => 0, [⟨0, 32, .ro, []⟩]⟩
  , ⟨0x2006100C, 32, 64, 0, 1, fun _ _ => 0, [⟨0, 32, .ro, []⟩]⟩
  , ⟨0x20061010, 32, 64, 0, 1, fun _ _ => 0, [⟨0, 32, .ro, []⟩]⟩
  , ⟨0x20062000, 32, 11, 0, 1, fun _ _ => 0, [⟨0, 1, .ro, []⟩, ⟨1, 1, .ro, []⟩, ⟨2, 1, .ro, []⟩, ⟨3, 1, .ro, []⟩, ⟨16, 16, .ro, []⟩]⟩ ]

/-- Registers of block FU, part 1. -/
def fuRegs1 : List RegDef :=
  [ ⟨0x20062004, 32, 11, 0, 1, fun _ _ => 0, [⟨0, 32, .ro, []⟩]⟩
  , ⟨0x20062008, 32, 11, 0, 1, fun _ _ => 0, [⟨0, 32, .ro, []⟩]⟩
  , ⟨0x2006200C, 32, 11, 0, 1, fun _ _ => 0, [⟨0, 32, .ro, []⟩]⟩
  , ⟨0x20062010, 32, 11, 0, 1, fun _ _ => 0, [⟨0, 32, .ro, []⟩]⟩ ]

/-- Registers of block FU (spec/06_fusion.md). -/
def fuRegs : List RegDef := fuRegs0 ++ fuRegs1

/-- Registers of block CAM, part 0. -/
def camRegs0 : List RegDef :=
  [ ⟨0x20070000, 0, 1, 0, 1, fun _ _ => 262401, [⟨0, 8, .ro, []⟩, ⟨8, 8, .ro, []⟩, ⟨16, 8, .ro, []⟩]⟩
  , ⟨0x20070008, 0, 1, 0, 1, fun _ _ => 0, [⟨0, 16, .ro, []⟩, ⟨16, 1, .ro, []⟩]⟩
  , ⟨0x20070010, 0, 1, 0, 1, fun _ _ => 0, [⟨0, 21, .w1c, []⟩]⟩
  , ⟨0x20070014, 0, 1, 0, 1, fun _ _ => 0, [⟨0, 21, .rw, []⟩]⟩
  , ⟨0x20071000, 512, 4, 0, 1, fun _ _ => 272, [⟨0, 1, .rw, []⟩, ⟨1, 1, .rw, []⟩, ⟨2, 1, .wo, []⟩, ⟨3, 1, .wo, []⟩, ⟨4, 2, .rw, [(1, 3, 1)]⟩, ⟨6, 2, .rw, [(0, 2, 1)]⟩, ⟨8, 2, .rw, []⟩, ⟨12, 1, .rw, []⟩, ⟨13, 1, .rw, []⟩]⟩
  , ⟨0x20071004, 512, 4, 0, 1, fun _ _ => 36, [⟨0, 2, .rw, []⟩, ⟨2, 2, .rw, []⟩, ⟨4, 2, .rw, []⟩]⟩
  , ⟨0x20071008, 512, 4, 0, 1, fun _ _ => 70780800, [⟨0, 13, .rw, [(64, 4096, 2)]⟩, ⟨16, 13, .rw, [(64, 4096, 2)]⟩]⟩
  , ⟨0x2007100C, 512, 4, 0, 1, fun _ _ => 30000, [⟨0, 20, .rw, [(1000, 1000000, 1)]⟩]⟩
  , ⟨0x20071010, 512, 4, 0, 1, fun _ _ => 0, [⟨0, 16, .rw, []⟩, ⟨16, 16, .rw, []⟩]⟩
  , ⟨0x20071014, 512, 4, 0, 1, fun _ _ => 0, [⟨0, 32, .rw, [(0, 4294967295, 64)]⟩]⟩
  , ⟨0x20071018, 512, 4, 0, 1, fun _ _ => 0, [⟨0, 32, .rw, []⟩]⟩
  , ⟨0x2007101C, 512, 4, 0, 1, fun _ _ => 0, [⟨0, 32, .rw, [(0, 4294967295, 4096)]⟩]⟩
  , ⟨0x20071020, 512, 4, 0, 1, fun _ _ => 0, [⟨0, 32, .rw, []⟩]⟩
  , ⟨0x20071024, 512, 4, 0, 1, fun _ _ => 0, [⟨0, 32, .rw, []⟩]⟩
  , ⟨0x20071028, 512, 4, 0, 1, fun _ _ => 0, [⟨0, 32, .rw, []⟩]⟩
  , ⟨0x2007102C, 512, 4, 0, 1, fun _ _ => 0, [⟨0, 5, .rw, [(1, 16, 1)]⟩]⟩
  , ⟨0x20071030, 512, 4, 0, 1, fun _ _ => 0, [⟨0, 3, .rw, [(0, 4, 1)]⟩]⟩
  , ⟨0x20071034, 512, 4, 0, 1, fun _ _ => 0, [⟨0, 1, .ro, []⟩, ⟨1, 1, .ro, []⟩, ⟨2, 1, .ro, []⟩, ⟨3, 1, .ro, []⟩, ⟨8, 4, .ro, []⟩]⟩
  , ⟨0x20071038, 512, 4, 0, 1, fun _ _ => 0, [⟨0, 7, .rw, []⟩, ⟨7, 1, .rw, []⟩, ⟨8, 16, .rw, []⟩, ⟨24, 1, .rw, []⟩, ⟨31, 1, .wo, []⟩]⟩
  , ⟨0x2007103C, 512, 4, 0, 1, fun _ _ => 0, [⟨0, 16, .rw, []⟩, ⟨16, 1, .ro, []⟩, ⟨17, 1, .w1c, []⟩]⟩ ]

/-- Registers of block CAM, part 1. -/
def camRegs1 : List RegDef :=
  [ ⟨0x20071040, 512, 4, 0, 1, fun _ _ => 0, [⟨0, 32, .ro, []⟩]⟩
  , ⟨0x20071044, 512, 4, 0, 1, fun _ _ => 0, [⟨0, 32, .ro, []⟩]⟩
  , ⟨0x20071048, 512, 4, 0, 1, fun _ _ => 0, [⟨0, 32, .ro, []⟩]⟩
  , ⟨0x2007104C, 512, 4, 0, 1, fun _ _ => 0, [⟨0, 32, .ro, []⟩]⟩
  , ⟨0x20071050, 512, 4, 0, 1, fun _ _ => 0, [⟨0, 32, .ro, []⟩]⟩
  , ⟨0x20071054, 512, 4, 0, 1, fun _ _ => 0, [⟨0, 32, .ro, []⟩]⟩
  , ⟨0x20071080, 512, 4, 64, 3, fun _ _ => 1024, [⟨0, 1, .rw, []⟩, ⟨1, 2, .rw, []⟩, ⟨3, 2, .rw, [(0, 2, 1)]⟩, ⟨5, 2, .rw, []⟩, ⟨8, 5, .rw, [(2, 16, 1)]⟩]⟩
  , ⟨0x20071084, 512, 4, 64, 3, fun _ _ => 0, [⟨0, 32, .rw, [(0, 4294967295, 64)]⟩]⟩
  , ⟨0x20071088, 512, 4, 64, 3, fun _ _ => 0, [⟨0, 32, .rw, []⟩]⟩
  , ⟨0x2007108C, 512, 4, 64, 3, fun _ _ => 0, [⟨0, 32, .rw, [(0, 4294967295, 64)]⟩]⟩
  , ⟨0x20071090, 512, 4, 64, 3, fun _ _ => 0, [⟨0, 16, .ro, []⟩]⟩
  , ⟨0x20071094, 512, 4, 64, 3, fun _ _ => 0, [⟨0, 4, .wo, []⟩]⟩
  , ⟨0x20071098, 512, 4, 64, 3, fun _ _ => 0, [⟨0, 4, .ro, []⟩, ⟨16, 16, .ro, []⟩]⟩ ]

/-- Registers of block CAM (spec/07_camera_pipeline.md). -/
def camRegs : List RegDef := camRegs0 ++ camRegs1

/-- Registers of block GN, part 0. -/
def gnRegs0 : List RegDef :=
  [ ⟨0x20080000, 0, 1, 0, 1, fun _ _ => 113246465, [⟨0, 8, .ro, []⟩, ⟨8, 8, .ro, []⟩, ⟨16, 8, .ro, []⟩, ⟨24, 8, .ro, []⟩]⟩
  , ⟨0x20080004, 0, 1, 0, 1, fun _ _ => 4, [⟨0, 1, .rw, []⟩, ⟨1, 1, .rw, []⟩, ⟨2, 1, .rw, []⟩, ⟨3, 1, .wo, []⟩]⟩
  , ⟨0x20080008, 0, 1, 0, 1, fun _ _ => 0, [⟨0, 1, .ro, []⟩, ⟨1, 1, .ro, []⟩, ⟨2, 1, .ro, []⟩]⟩
  , ⟨0x20080010, 0, 1, 0, 1, fun _ _ => 0, [⟨0, 10, .w1c, []⟩]⟩
  , ⟨0x20080014, 0, 1, 0, 1, fun _ _ => 0, [⟨0, 10, .rw, []⟩]⟩
  , ⟨0x20080018, 0, 1, 0, 1, fun _ _ => 0, [⟨0, 8, .ro, []⟩, ⟨8, 8, .ro, []⟩, ⟨16, 16, .ro, []⟩]⟩
  , ⟨0x20080020, 0, 1, 0, 1, fun _ _ => 0, [⟨0, 32, .ro, []⟩]⟩
  , ⟨0x20080024, 0, 1, 0, 1, fun _ _ => 0, [⟨0, 32, .ro, []⟩]⟩
  , ⟨0x20080028, 0, 1, 0, 1, fun _ _ => 0, [⟨0, 3, .ro, []⟩, ⟨3, 1, .ro, []⟩, ⟨4, 1, .ro, []⟩, ⟨5, 1, .ro, []⟩, ⟨6, 1, .w1c, []⟩]⟩
  , ⟨0x2008002C, 0, 1, 0, 1, fun _ _ => 0, [⟨0, 32, .ro, []⟩]⟩
  , ⟨0x20080030, 0, 1, 0, 1, fun _ _ => 0, [⟨0, 32, .rw, []⟩]⟩
  , ⟨0x20080034, 0, 1, 0, 1, fun _ _ => 0, [⟨0, 1, .wo, []⟩, ⟨1, 1, .wo, []⟩]⟩
  , ⟨0x20080038, 0, 1, 0, 1, fun _ _ => 0, [⟨0, 32, .rw, []⟩]⟩
  , ⟨0x2008003C, 0, 1, 0, 1, fun _ _ => 0, [⟨0, 32, .rw, []⟩]⟩
  , ⟨0x20080040, 0, 1, 0, 1, fun _ _ => 65537, [⟨0, 1, .rw, []⟩, ⟨1, 1, .rw, []⟩, ⟨2, 2, .rw, [(0, 2, 1)]⟩, ⟨16, 10, .rw, [(1, 1000, 1)]⟩]⟩
  , ⟨0x20080044, 0, 1, 0, 1, fun _ _ => 100000, [⟨0, 20, .rw, []⟩]⟩
  , ⟨0x20080048, 0, 1, 0, 1, fun _ _ => 65536, [⟨0, 1, .rw, []⟩, ⟨1, 1, .rw, []⟩, ⟨2, 2, .rw, [(0, 2, 1)]⟩, ⟨16, 10, .rw, [(1, 1000, 1)]⟩]⟩
  , ⟨0x2008004C, 0, 1, 0, 1, fun _ _ => 100000, [⟨0, 20, .rw, []⟩]⟩
  , ⟨0x20080050, 0, 1, 0, 1, fun _ _ => 0, [⟨0, 1, .rw, []⟩, ⟨1, 1, .rw, []⟩]⟩
  , ⟨0x20080054, 0, 1, 0, 1, fun _ _ => 0, [⟨0, 32, .ro, []⟩]⟩ ]

/-- Registers of block GN, part 1. -/
def gnRegs1 : List RegDef :=
  [ ⟨0x20080058, 0, 1, 0, 1, fun _ _ => 0, [⟨0, 32, .ro, []⟩]⟩
  , ⟨0x2008005C, 0, 1, 0, 1, fun _ _ => 0, [⟨0, 32, .ro, []⟩]⟩
  , ⟨0x20080060, 0, 1, 0, 1, fun _ _ => 50, [⟨0, 10, .rw, [(50, 50, 1), (100, 100, 1), (200, 200, 1), (500, 500, 1), (1000, 1000, 1)]⟩]⟩
  , ⟨0x20080064, 0, 1, 0, 1, fun _ _ => 0, [⟨0, 32, .ro, []⟩]⟩
  , ⟨0x20080070, 0, 1, 0, 1, fun _ _ => 0, [⟨0, 32, .rw, []⟩]⟩
  , ⟨0x20080074, 0, 1, 0, 1, fun _ _ => 0, [⟨0, 32, .ro, []⟩]⟩
  , ⟨0x20080080, 0, 1, 0, 1, fun _ _ => 0, [⟨0, 1, .wo, []⟩, ⟨1, 3, .rw, [(0, 5, 1)]⟩, ⟨4, 6, .rw, [(1, 63, 1)]⟩, ⟨10, 1, .rw, []⟩]⟩
  , ⟨0x20080084, 0, 1, 0, 1, fun _ _ => 1376417, [⟨0, 4, .rw, []⟩, ⟨4, 8, .rw, []⟩, ⟨16, 9, .rw, []⟩]⟩
  , ⟨0x20080088, 0, 1, 0, 1, fun _ _ => 0, [⟨0, 32, .rw, []⟩]⟩
  , ⟨0x2008008C, 0, 1, 0, 1, fun _ _ => 0, [⟨0, 16, .rw, []⟩]⟩
  , ⟨0x20080090, 0, 1, 0, 1, fun _ _ => 0, [⟨0, 1, .ro, []⟩, ⟨1, 1, .w1c, []⟩, ⟨2, 1, .w1c, []⟩]⟩
  , ⟨0x20080094, 0, 1, 0, 1, fun _ _ => 0, [⟨0, 24, .ro, []⟩]⟩
  , ⟨0x20080098, 0, 1, 0, 1, fun _ _ => 0, [⟨0, 32, .ro, []⟩]⟩
  , ⟨0x2008009C, 0, 1, 0, 1, fun _ _ => 0, [⟨0, 16, .ro, []⟩]⟩
  , ⟨0x200800A0, 0, 1, 0, 1, fun _ _ => 0, [⟨0, 32, .ro, []⟩]⟩
  , ⟨0x200800A4, 0, 1, 0, 1, fun _ _ => 0, [⟨0, 32, .ro, []⟩]⟩
  , ⟨0x200800C0, 4, 6, 0, 1, fun _ _ => 0, [⟨0, 32, .w1c, []⟩]⟩
  , ⟨0x20081000, 256, 192, 0, 1, fun _ _ => 1024, [⟨0, 1, .rw, []⟩, ⟨1, 3, .rw, [(0, 5, 1)]⟩, ⟨4, 6, .rw, [(1, 63, 1)]⟩, ⟨10, 5, .rw, [(1, 20, 1)]⟩, ⟨15, 2, .rw, [(0, 2, 1)]⟩, ⟨17, 1, .rw, []⟩]⟩
  , ⟨0x20081004, 256, 192, 0, 1, fun _ _ => 8208, [⟨0, 8, .rw, []⟩, ⟨8, 8, .rw, []⟩]⟩
  , ⟨0x20081008, 256, 192, 0, 1, fun _ _ => 0, [⟨0, 32, .rw, []⟩]⟩ ]

/-- Registers of block GN, part 2. -/
def gnRegs2 : List RegDef :=
  [ ⟨0x2008100C, 256, 192, 0, 1, fun _ _ => 0, [⟨0, 32, .rw, []⟩]⟩
  , ⟨0x20081010, 256, 192, 0, 1, fun _ _ => 0, [⟨0, 16, .rw, []⟩]⟩
  , ⟨0x20081014, 256, 192, 0, 1, fun _ _ => 0, [⟨0, 24, .rw, []⟩]⟩
  , ⟨0x20081018, 256, 192, 0, 1, fun _ _ => 0, [⟨0, 32, .rw, []⟩]⟩
  , ⟨0x2008101C, 256, 192, 0, 1, fun _ _ => 0, [⟨0, 32, .rw, []⟩]⟩
  , ⟨0x20081020, 256, 192, 0, 1, fun _ _ => 0, [⟨0, 1, .wo, []⟩, ⟨1, 4, .wo, []⟩]⟩
  , ⟨0x20081024, 256, 192, 0, 1, fun _ _ => 0, [⟨0, 1, .ro, []⟩, ⟨1, 1, .w1c, []⟩, ⟨4, 4, .ro, []⟩, ⟨16, 16, .ro, []⟩]⟩
  , ⟨0x20081028, 256, 192, 0, 1, fun _ _ => 0, [⟨0, 32, .ro, []⟩]⟩
  , ⟨0x2008102C, 256, 192, 0, 1, fun _ _ => 0, [⟨0, 32, .wo, []⟩]⟩
  , ⟨0x20081030, 256, 192, 0, 1, fun _ _ => 0, [⟨0, 32, .ro, []⟩]⟩
  , ⟨0x20081034, 256, 192, 0, 1, fun _ _ => 0, [⟨0, 32, .ro, []⟩]⟩
  , ⟨0x20081038, 256, 192, 0, 1, fun _ _ => 0, [⟨0, 32, .ro, []⟩]⟩
  , ⟨0x2008103C, 256, 192, 0, 1, fun _ _ => 0, [⟨0, 24, .ro, []⟩, ⟨24, 8, .ro, []⟩]⟩
  , ⟨0x20081040, 256, 192, 0, 1, fun _ _ => 0, [⟨0, 32, .ro, []⟩]⟩
  , ⟨0x20081044, 256, 192, 0, 1, fun _ _ => 0, [⟨0, 32, .ro, []⟩]⟩
  , ⟨0x20081048, 256, 192, 0, 1, fun _ _ => 0, [⟨0, 32, .ro, []⟩]⟩
  , ⟨0x20081050, 256, 192, 4, 10, fun _ _ => 0, [⟨0, 32, .ro, []⟩]⟩
  , ⟨0x20081078, 256, 192, 4, 10, fun _ _ => 0, [⟨0, 32, .ro, []⟩]⟩
  , ⟨0x200810A0, 256, 192, 0, 1, fun _ _ => 0, [⟨0, 32, .ro, []⟩]⟩
  , ⟨0x200810A4, 256, 192, 0, 1, fun _ _ => 0, [⟨0, 32, .ro, []⟩]⟩ ]

/-- Registers of block GN, part 3. -/
def gnRegs3 : List RegDef :=
  [ ⟨0x200810A8, 256, 192, 0, 1, fun _ _ => 0, [⟨0, 24, .ro, []⟩, ⟨24, 8, .ro, []⟩]⟩
  , ⟨0x200810AC, 256, 192, 0, 1, fun _ _ => 0, [⟨0, 32, .ro, []⟩]⟩
  , ⟨0x200810B0, 256, 192, 0, 1, fun _ _ => 0, [⟨0, 32, .ro, []⟩]⟩
  , ⟨0x200810FC, 256, 192, 0, 1, fun _ _ => 0, [⟨0, 32, .ro, []⟩]⟩ ]

/-- Registers of block GN (spec/08_gnss_time.md). -/
def gnRegs : List RegDef := gnRegs0 ++ gnRegs1 ++ gnRegs2 ++ gnRegs3

/-- Registers of block FB, part 0. -/
def fbRegs0 : List RegDef :=
  [ ⟨0x20090000, 0, 1, 0, 1, fun _ _ => 50725121, [⟨0, 8, .ro, []⟩, ⟨8, 8, .ro, []⟩, ⟨16, 8, .ro, []⟩, ⟨24, 8, .ro, []⟩]⟩
  , ⟨0x20090004, 0, 1, 0, 1, fun _ _ => 1, [⟨0, 1, .rw, []⟩, ⟨1, 1, .wo, []⟩]⟩
  , ⟨0x20090008, 0, 1, 0, 1, fun _ _ => 0, [⟨0, 1, .ro, []⟩, ⟨1, 2, .ro, []⟩, ⟨3, 1, .ro, []⟩, ⟨4, 1, .ro, []⟩, ⟨5, 1, .ro, []⟩, ⟨6, 1, .ro, []⟩, ⟨7, 1, .w1c, []⟩, ⟨16, 16, .ro, []⟩]⟩
  , ⟨0x20090010, 0, 1, 0, 1, fun _ _ => 0, [⟨0, 10, .w1c, []⟩, ⟨15, 1, .w1c, []⟩]⟩
  , ⟨0x20090014, 0, 1, 0, 1, fun _ _ => 0, [⟨0, 10, .rw, []⟩, ⟨15, 1, .rw, []⟩]⟩
  , ⟨0x20090018, 0, 1, 0, 1, fun _ _ => 0, [⟨0, 16, .ro, []⟩]⟩
  , ⟨0x20090020, 0, 1, 0, 1, fun _ _ => 0, [⟨0, 32, .ro, []⟩]⟩
  , ⟨0x20090024, 0, 1, 0, 1, fun _ _ => 0, [⟨0, 32, .ro, []⟩]⟩
  , ⟨0x20090028, 0, 1, 0, 1, fun _ _ => 0, [⟨0, 32, .ro, []⟩]⟩
  , ⟨0x2009002C, 0, 1, 0, 1, fun _ _ => 0, [⟨0, 4, .ro, []⟩, ⟨4, 3, .ro, []⟩, ⟨7, 1, .ro, []⟩]⟩
  , ⟨0x20090030, 0, 1, 0, 1, fun _ _ => 0, [⟨0, 16, .ro, []⟩, ⟨16, 16, .ro, []⟩]⟩
  , ⟨0x20090040, 0, 1, 0, 1, fun _ _ => 0, [⟨0, 32, .ro, []⟩]⟩
  , ⟨0x20090044, 0, 1, 0, 1, fun _ _ => 0, [⟨0, 32, .ro, []⟩]⟩
  , ⟨0x20090048, 0, 1, 0, 1, fun _ _ => 0, [⟨0, 32, .ro, []⟩]⟩
  , ⟨0x2009004C, 0, 1, 0, 1, fun _ _ => 0, [⟨0, 32, .ro, []⟩]⟩
  , ⟨0x20090050, 0, 1, 0, 1, fun _ _ => 0, [⟨0, 32, .ro, []⟩]⟩
  , ⟨0x20090054, 0, 1, 0, 1, fun _ _ => 0, [⟨0, 32, .ro, []⟩]⟩
  , ⟨0x20090058, 0, 1, 0, 1, fun _ _ => 0, [⟨0, 32, .ro, []⟩]⟩
  , ⟨0x2009005C, 0, 1, 0, 1, fun _ _ => 0, [⟨0, 32, .ro, []⟩]⟩
  , ⟨0x20090100, 256, 6, 0, 1, fun i _ => if i % 2 = 0 then 3 else 1, [⟨0, 1, .rw, []⟩, ⟨1, 1, .rw, []⟩, ⟨2, 1, .rw, []⟩]⟩ ]

/-- Registers of block FB, part 1. -/
def fbRegs1 : List RegDef :=
  [ ⟨0x20090104, 256, 6, 0, 1, fun _ _ => 0, [⟨0, 1, .ro, []⟩, ⟨1, 2, .ro, []⟩, ⟨3, 1, .ro, []⟩, ⟨8, 3, .ro, []⟩]⟩
  , ⟨0x20090108, 256, 6, 0, 1, fun _ _ => 0, [⟨0, 24, .rw, []⟩]⟩
  , ⟨0x20090110, 256, 6, 0, 1, fun _ _ => 0, [⟨0, 32, .ro, []⟩]⟩
  , ⟨0x20090114, 256, 6, 0, 1, fun _ _ => 0, [⟨0, 32, .ro, []⟩]⟩
  , ⟨0x20090118, 256, 6, 0, 1, fun _ _ => 0, [⟨0, 32, .ro, []⟩]⟩
  , ⟨0x2009011C, 256, 6, 0, 1, fun _ _ => 0, [⟨0, 32, .ro, []⟩]⟩
  , ⟨0x20090120, 256, 6, 0, 1, fun _ _ => 0, [⟨0, 32, .ro, []⟩]⟩
  , ⟨0x20090124, 256, 6, 0, 1, fun _ _ => 0, [⟨0, 32, .ro, []⟩]⟩
  , ⟨0x20090128, 256, 6, 0, 1, fun _ _ => 0, [⟨0, 32, .ro, []⟩]⟩
  , ⟨0x2009012C, 256, 6, 0, 1, fun _ _ => 0, [⟨0, 32, .ro, []⟩]⟩
  , ⟨0x20090140, 256, 6, 4, 16, fun _ _ => 0, [⟨0, 8, .rw, [(192, 255, 1)]⟩, ⟨8, 24, .rw, []⟩]⟩ ]

/-- Registers of block FB (spec/12_fabric_fleet.md). -/
def fbRegs : List RegDef := fbRegs0 ++ fbRegs1

/-- Registers of block CN, part 0. -/
def cnRegs0 : List RegDef :=
  [ ⟨0x200A0000, 8192, 6, 0, 1, fun i _ => if i < 4 then 257 else 16777473, [⟨0, 8, .ro, []⟩, ⟨8, 8, .ro, []⟩, ⟨24, 1, .ro, []⟩]⟩
  , ⟨0x200A0004, 8192, 6, 0, 1, fun _ _ => 0, [⟨0, 1, .rw, []⟩, ⟨1, 3, .rw, [(0, 4, 1)]⟩, ⟨4, 2, .rw, []⟩, ⟨6, 1, .rw, []⟩, ⟨7, 1, .rw, []⟩, ⟨8, 1, .rw, []⟩, ⟨9, 1, .rw, []⟩, ⟨10, 1, .wo, []⟩, ⟨11, 1, .wo, []⟩, ⟨12, 4, .ro, []⟩, ⟨16, 16, .rw, [(0, 10000, 1)]⟩]⟩
  , ⟨0x200A0008, 8192, 6, 0, 1, fun _ _ => 0, [⟨0, 2, .ro, []⟩, ⟨2, 1, .ro, []⟩, ⟨3, 1, .ro, []⟩, ⟨4, 1, .ro, []⟩, ⟨5, 3, .ro, []⟩]⟩
  , ⟨0x200A000C, 8192, 6, 0, 1, fun _ _ => 0, [⟨0, 8, .ro, []⟩, ⟨8, 7, .ro, []⟩, ⟨15, 1, .ro, []⟩, ⟨16, 16, .ro, []⟩]⟩
  , ⟨0x200A0010, 8192, 6, 0, 1, fun _ _ => 0, [⟨0, 7, .w1c, []⟩]⟩
  , ⟨0x200A0014, 8192, 6, 0, 1, fun _ _ => 0, [⟨0, 7, .rw, []⟩]⟩
  , ⟨0x200A0018, 8192, 6, 0, 1, fun _ _ => 24672, [⟨0, 8, .rw, [(1, 255, 1)]⟩, ⟨8, 8, .rw, [(1, 255, 1)]⟩]⟩
  , ⟨0x200A0020, 8192, 6, 0, 1, fun _ _ => 0, [⟨0, 9, .rw, []⟩, ⟨9, 8, .rw, []⟩, ⟨17, 7, .rw, []⟩, ⟨24, 7, .rw, []⟩]⟩
  , ⟨0x200A0024, 8192, 6, 0, 1, fun _ _ => 0, [⟨0, 5, .rw, []⟩, ⟨8, 5, .rw, []⟩, ⟨16, 4, .rw, []⟩, ⟨24, 4, .rw, []⟩]⟩
  , ⟨0x200A0028, 8192, 6, 0, 1, fun _ _ => 0, [⟨0, 5, .rw, []⟩, ⟨8, 5, .rw, []⟩, ⟨16, 4, .rw, []⟩, ⟨24, 4, .rw, []⟩]⟩
  , ⟨0x200A002C, 8192, 6, 0, 1, fun _ _ => 0, [⟨0, 7, .rw, []⟩, ⟨8, 1, .rw, []⟩, ⟨16, 7, .ro, []⟩]⟩
  , ⟨0x200A0030, 8192, 6, 0, 1, fun _ _ => 2, [⟨0, 2, .rw, []⟩]⟩
  , ⟨0x200A0034, 8192, 6, 0, 1, fun _ _ => 4196352, [⟨0, 7, .rw, []⟩, ⟨8, 7, .rw, [(1, 127, 1)]⟩, ⟨16, 12, .rw, [(8, 2048, 1)]⟩]⟩
  , ⟨0x200A003C, 8192, 6, 0, 1, fun _ _ => 0, [⟨0, 32, .ro, []⟩]⟩
  , ⟨0x200A0040, 8192, 6, 0, 1, fun _ _ => 0, [⟨0, 32, .ro, []⟩]⟩
  , ⟨0x200A0044, 8192, 6, 0, 1, fun _ _ => 0, [⟨0, 32, .w1c, []⟩]⟩
  , ⟨0x200A0048, 8192, 6, 0, 1, fun _ _ => 0, [⟨0, 32, .w1c, []⟩]⟩
  , ⟨0x200A004C, 8192, 6, 0, 1, fun _ _ => 0, [⟨0, 8, .rw, []⟩, ⟨8, 1, .rw, []⟩]⟩
  , ⟨0x200A0060, 8192, 6, 0, 1, fun _ _ => 0, [⟨0, 32, .ro, []⟩]⟩
  , ⟨0x200A0064, 8192, 6, 0, 1, fun _ _ => 0, [⟨0, 32, .ro, []⟩]⟩ ]

/-- Registers of block CN, part 1. -/
def cnRegs1 : List RegDef :=
  [ ⟨0x200A0068, 8192, 6, 0, 1, fun _ _ => 0, [⟨0, 32, .ro, []⟩]⟩
  , ⟨0x200A006C, 8192, 6, 0, 1, fun _ _ => 0, [⟨0, 32, .ro, []⟩]⟩
  , ⟨0x200A0070, 8192, 6, 0, 1, fun _ _ => 0, [⟨0, 32, .ro, []⟩]⟩
  , ⟨0x200A0074, 8192, 6, 0, 1, fun _ _ => 0, [⟨0, 32, .ro, []⟩]⟩
  , ⟨0x200A0078, 8192, 6, 0, 1, fun _ _ => 0, [⟨0, 32, .ro, []⟩]⟩
  , ⟨0x200A007C, 8192, 6, 0, 1, fun _ _ => 0, [⟨0, 32, .ro, []⟩]⟩
  , ⟨0x200A0100, 8192, 6, 32, 3, fun _ _ => 0, [⟨0, 32, .rw, [(0, 4294967295, 8)]⟩]⟩
  , ⟨0x200A0104, 8192, 6, 32, 3, fun _ _ => 0, [⟨0, 32, .rw, []⟩]⟩
  , ⟨0x200A0108, 8192, 6, 32, 3, fun _ j => if j = 0 then 1048576 else 4194304, [⟨0, 1, .rw, []⟩, ⟨16, 7, .ro, []⟩]⟩
  , ⟨0x200A010C, 8192, 6, 32, 3, fun _ _ => 0, [⟨0, 6, .ro, []⟩, ⟨16, 7, .ro, []⟩]⟩
  , ⟨0x200A0110, 8192, 6, 32, 3, fun _ _ => 0, [⟨0, 6, .wo, []⟩]⟩
  , ⟨0x200A0114, 8192, 6, 32, 3, fun _ _ => 0, [⟨0, 32, .ro, []⟩]⟩
  , ⟨0x200A0118, 8192, 6, 32, 3, fun _ _ => 0, [⟨0, 32, .ro, []⟩]⟩
  , ⟨0x200A011C, 8192, 6, 32, 3, fun _ _ => 0, [⟨0, 32, .ro, []⟩]⟩
  , ⟨0x200A0400, 8192, 6, 32, 32, fun _ _ => 0, [⟨0, 32, .rw, [(0, 4294967295, 8)]⟩]⟩
  , ⟨0x200A0404, 8192, 6, 32, 32, fun _ _ => 0, [⟨0, 32, .rw, []⟩]⟩
  , ⟨0x200A0408, 8192, 6, 32, 32, fun _ _ => 0, [⟨0, 1, .wo, []⟩, ⟨1, 1, .wo, []⟩, ⟨4, 3, .ro, []⟩]⟩
  , ⟨0x200A040C, 8192, 6, 32, 32, fun _ _ => 0, [⟨0, 8, .ro, []⟩]⟩
  , ⟨0x200A0410, 8192, 6, 32, 32, fun _ _ => 0, [⟨0, 32, .ro, []⟩]⟩
  , ⟨0x200A0414, 8192, 6, 32, 32, fun _ _ => 0, [⟨0, 32, .ro, []⟩]⟩ ]

/-- Registers of block CN, part 2. -/
def cnRegs2 : List RegDef :=
  [ ⟨0x200A1000, 8192, 6, 16, 128, fun _ _ => 0, [⟨0, 1, .rw, []⟩, ⟨1, 1, .rw, []⟩, ⟨2, 2, .rw, [(0, 2, 1)]⟩, ⟨4, 2, .rw, []⟩, ⟨6, 1, .rw, []⟩]⟩
  , ⟨0x200A1004, 8192, 6, 16, 128, fun _ _ => 0, [⟨0, 29, .rw, []⟩]⟩
  , ⟨0x200A1008, 8192, 6, 16, 128, fun _ _ => 0, [⟨0, 32, .rw, []⟩]⟩
  , ⟨0x200A100C, 8192, 6, 16, 128, fun _ _ => 0, [⟨0, 32, .rw, []⟩]⟩ ]

/-- Registers of block CN (spec/13_can_integrity.md). -/
def cnRegs : List RegDef := cnRegs0 ++ cnRegs1 ++ cnRegs2

/-- Registers of block CV, part 0. -/
def cvRegs0 : List RegDef :=
  [ ⟨0x200B0000, 0, 1, 0, 1, fun _ _ => 524545, [⟨0, 8, .ro, []⟩, ⟨8, 8, .ro, []⟩, ⟨16, 8, .ro, []⟩]⟩
  , ⟨0x200B1000, 256, 8, 0, 1, fun _ _ => 0, [⟨0, 3, .rw, [(0, 5, 1)]⟩, ⟨8, 6, .rw, [(1, 32, 1)]⟩, ⟨16, 1, .rw, []⟩, ⟨17, 1, .rw, []⟩]⟩
  , ⟨0x200B1004, 256, 8, 0, 1, fun _ _ => 0, [⟨0, 32, .rw, []⟩]⟩
  , ⟨0x200B1008, 256, 8, 0, 1, fun _ _ => 0, [⟨0, 32, .rw, []⟩]⟩
  , ⟨0x200B100C, 256, 8, 0, 1, fun _ _ => 0, [⟨0, 32, .rw, []⟩]⟩
  , ⟨0x200B1010, 256, 8, 0, 1, fun _ _ => 0, [⟨0, 32, .rw, []⟩]⟩
  , ⟨0x200B1014, 256, 8, 0, 1, fun _ _ => 0, [⟨0, 32, .rw, []⟩]⟩
  , ⟨0x200B1018, 256, 8, 0, 1, fun _ _ => 0, [⟨0, 1, .wo, []⟩]⟩
  , ⟨0x200B1020, 256, 8, 0, 1, fun _ _ => 0, [⟨0, 32, .wo, []⟩]⟩
  , ⟨0x200B1028, 256, 8, 0, 1, fun _ _ => 0, [⟨0, 32, .rw, []⟩]⟩
  , ⟨0x200B102C, 256, 8, 0, 1, fun _ _ => 0, [⟨0, 32, .rw, []⟩]⟩
  , ⟨0x200B1030, 256, 8, 0, 1, fun _ _ => 0, [⟨0, 32, .ro, []⟩]⟩
  , ⟨0x200B1034, 256, 8, 0, 1, fun _ _ => 0, [⟨0, 32, .ro, []⟩]⟩
  , ⟨0x200B1038, 256, 8, 0, 1, fun _ _ => 0, [⟨0, 32, .ro, []⟩]⟩
  , ⟨0x200B1040, 256, 8, 0, 1, fun _ _ => 65544, [⟨0, 5, .rw, [(4, 16, 1)]⟩, ⟨8, 4, .rw, []⟩, ⟨16, 16, .rw, [(0, 32768, 1)]⟩]⟩
  , ⟨0x200B1044, 256, 8, 0, 1, fun _ _ => 0, [⟨0, 16, .wo, []⟩, ⟨16, 6, .wo, []⟩]⟩
  , ⟨0x200B1048, 256, 8, 0, 1, fun _ _ => 0, [⟨0, 2, .ro, []⟩, ⟨3, 1, .ro, []⟩, ⟨8, 8, .ro, []⟩, ⟨16, 6, .ro, []⟩]⟩
  , ⟨0x200B104C, 256, 8, 0, 1, fun _ _ => 0, [⟨0, 16, .wo, []⟩, ⟨16, 6, .wo, []⟩, ⟨30, 1, .wo, []⟩, ⟨31, 1, .wo, []⟩]⟩
  , ⟨0x200B1050, 256, 8, 0, 1, fun _ _ => 0, [⟨0, 32, .ro, []⟩]⟩
  , ⟨0x200B1054, 256, 8, 0, 1, fun _ _ => 0, [⟨0, 32, .ro, []⟩]⟩ ]

/-- Registers of block CV, part 1. -/
def cvRegs1 : List RegDef :=
  [ ⟨0x200B1058, 256, 8, 0, 1, fun _ _ => 0, [⟨0, 32, .ro, []⟩]⟩
  , ⟨0x200B105C, 256, 8, 0, 1, fun _ _ => 0, [⟨0, 32, .ro, []⟩]⟩ ]

/-- Registers of block CV (spec/13_can_integrity.md). -/
def cvRegs : List RegDef := cvRegs0 ++ cvRegs1

/-- Registers of block EV, part 0. -/
def evRegs0 : List RegDef :=
  [ ⟨0x200C0000, 0, 1, 0, 1, fun _ _ => 1073742081, [⟨0, 8, .ro, []⟩, ⟨8, 8, .ro, []⟩, ⟨16, 16, .ro, []⟩]⟩
  , ⟨0x200C0008, 0, 1, 0, 1, fun _ _ => 0, [⟨0, 1, .w1c, []⟩, ⟨1, 1, .ro, []⟩, ⟨2, 1, .ro, []⟩]⟩
  , ⟨0x200C0010, 0, 1, 0, 1, fun _ _ => 0, [⟨0, 2, .w1c, []⟩]⟩
  , ⟨0x200C0014, 0, 1, 0, 1, fun _ _ => 0, [⟨0, 2, .rw, []⟩]⟩
  , ⟨0x200C0018, 0, 1, 0, 1, fun _ _ => 0, [⟨0, 32, .ro, []⟩]⟩
  , ⟨0x200C001C, 0, 1, 0, 1, fun _ _ => 0, [⟨0, 32, .ro, []⟩]⟩
  , ⟨0x200C0020, 4, 3, 0, 1, fun _ _ => 0, [⟨0, 32, .rw, []⟩]⟩
  , ⟨0x200C002C, 0, 1, 0, 1, fun _ _ => 0, [⟨0, 16, .wo, []⟩, ⟨16, 2, .wo, []⟩]⟩
  , ⟨0x200C0030, 0, 1, 0, 1, fun _ _ => 0, [⟨0, 2, .ro, []⟩]⟩
  , ⟨0x200C0034, 0, 1, 0, 1, fun _ _ => 2, [⟨0, 2, .rw, []⟩]⟩
  , ⟨0x200C0040, 0, 1, 0, 1, fun _ _ => 0, [⟨0, 32, .ro, []⟩]⟩
  , ⟨0x200C0044, 0, 1, 0, 1, fun _ _ => 0, [⟨0, 32, .ro, []⟩]⟩
  , ⟨0x200C0048, 0, 1, 0, 1, fun _ _ => 0, [⟨0, 32, .ro, []⟩]⟩
  , ⟨0x200C004C, 0, 1, 0, 1, fun _ _ => 0, [⟨0, 32, .ro, []⟩]⟩ ]

/-- Registers of block EV (spec/20_keeper_events_thermal.md). -/
def evRegs : List RegDef := evRegs0

/-- Registers of block TH, part 0. -/
def thRegs0 : List RegDef :=
  [ ⟨0x200D0000, 0, 1, 0, 1, fun _ _ => 337117441, [⟨0, 8, .ro, []⟩, ⟨8, 8, .ro, []⟩, ⟨16, 8, .ro, []⟩, ⟨24, 8, .ro, []⟩]⟩
  , ⟨0x200D0008, 0, 1, 0, 1, fun _ _ => 0, [⟨0, 2, .ro, []⟩, ⟨2, 1, .ro, []⟩]⟩
  , ⟨0x200D0010, 0, 1, 0, 1, fun _ _ => 0, [⟨0, 6, .w1c, []⟩]⟩
  , ⟨0x200D0014, 0, 1, 0, 1, fun _ _ => 0, [⟨0, 6, .rw, []⟩]⟩
  , ⟨0x200D0018, 0, 1, 0, 1, fun _ _ => 0, [⟨0, 20, .ro, []⟩]⟩
  , ⟨0x200D0100, 16, 20, 0, 1, fun _ _ => 0, [⟨0, 2, .ro, []⟩, ⟨2, 1, .ro, []⟩, ⟨3, 1, .ro, []⟩, ⟨4, 2, .ro, []⟩, ⟨16, 16, .ro, []⟩]⟩
  , ⟨0x200D0104, 16, 20, 0, 1, fun _ _ => 0, [⟨0, 16, .ro, []⟩, ⟨16, 16, .ro, []⟩]⟩
  , ⟨0x200D0400, 4, 24, 0, 1, fun i _ => sensorZone i * 16777216, [⟨0, 16, .ro, []⟩, ⟨16, 3, .ro, []⟩, ⟨24, 5, .ro, []⟩]⟩ ]

/-- Registers of block TH (spec/20_keeper_events_thermal.md). -/
def thRegs : List RegDef := thRegs0

/-- Registers of block DP, part 0. -/
def dpRegs0 : List RegDef :=
  [ ⟨0x200E0000, 0, 1, 0, 1, fun _ _ => 68157697, [⟨0, 8, .ro, []⟩, ⟨8, 8, .ro, []⟩, ⟨16, 8, .ro, []⟩, ⟨24, 8, .ro, []⟩]⟩
  , ⟨0x200E0004, 0, 1, 0, 1, fun _ _ => 0, [⟨0, 1, .rw, []⟩, ⟨1, 1, .wo, []⟩, ⟨2, 1, .wo, []⟩]⟩
  , ⟨0x200E0008, 0, 1, 0, 1, fun _ _ => 0, [⟨0, 1, .ro, []⟩, ⟨1, 1, .ro, []⟩, ⟨2, 1, .ro, []⟩, ⟨3, 1, .ro, []⟩, ⟨4, 1, .ro, []⟩, ⟨5, 1, .ro, []⟩, ⟨6, 1, .ro, []⟩, ⟨8, 3, .ro, []⟩, ⟨16, 5, .ro, []⟩]⟩
  , ⟨0x200E0010, 0, 1, 0, 1, fun _ _ => 0, [⟨0, 5, .w1c, []⟩]⟩
  , ⟨0x200E0014, 0, 1, 0, 1, fun _ _ => 0, [⟨0, 5, .rw, []⟩]⟩
  , ⟨0x200E0018, 0, 1, 0, 1, fun _ _ => 15728960, [⟨0, 9, .rw, [(16, 320, 8)]⟩, ⟨16, 8, .rw, [(16, 240, 1)]⟩, ⟨24, 1, .rw, []⟩, ⟨25, 1, .rw, []⟩]⟩
  , ⟨0x200E0020, 0, 1, 0, 1, fun _ _ => 0, [⟨0, 9, .rw, []⟩, ⟨16, 8, .rw, []⟩]⟩
  , ⟨0x200E0024, 0, 1, 0, 1, fun _ _ => 0, [⟨0, 9, .rw, []⟩, ⟨16, 8, .rw, []⟩]⟩
  , ⟨0x200E0028, 0, 1, 0, 1, fun _ _ => 0, [⟨0, 32, .rw, []⟩]⟩
  , ⟨0x200E002C, 0, 1, 0, 1, fun _ _ => 0, [⟨0, 32, .rw, []⟩]⟩
  , ⟨0x200E0030, 0, 1, 0, 1, fun _ _ => 0, [⟨0, 16, .rw, []⟩]⟩
  , ⟨0x200E0034, 0, 1, 0, 1, fun _ _ => 0, [⟨0, 16, .wo, []⟩]⟩
  , ⟨0x200E0038, 0, 1, 0, 1, fun _ _ => 0, [⟨0, 3, .ro, []⟩]⟩
  , ⟨0x200E003C, 0, 1, 0, 1, fun _ _ => 0, [⟨0, 16, .ro, []⟩, ⟨16, 3, .ro, []⟩]⟩
  , ⟨0x200E0040, 0, 1, 0, 1, fun _ _ => 0, [⟨0, 16, .ro, []⟩, ⟨16, 16, .ro, []⟩]⟩
  , ⟨0x200E0044, 0, 1, 0, 1, fun _ _ => 0, [⟨0, 16, .ro, []⟩]⟩
  , ⟨0x200E0050, 0, 1, 0, 1, fun _ _ => 0, [⟨0, 32, .ro, []⟩]⟩
  , ⟨0x200E0054, 0, 1, 0, 1, fun _ _ => 0, [⟨0, 32, .ro, []⟩]⟩
  , ⟨0x200E0058, 0, 1, 0, 1, fun _ _ => 0, [⟨0, 32, .ro, []⟩]⟩
  , ⟨0x200E005C, 0, 1, 0, 1, fun _ _ => 0, [⟨0, 32, .ro, []⟩]⟩ ]

/-- Registers of block DP, part 1. -/
def dpRegs1 : List RegDef :=
  [ ⟨0x200E0060, 0, 1, 0, 1, fun _ _ => 0, [⟨0, 9, .rw, [(0, 508, 4)]⟩, ⟨16, 8, .rw, []⟩]⟩
  , ⟨0x200E0064, 0, 1, 0, 1, fun _ _ => 0, [⟨0, 7, .rw, [(4, 96, 1)]⟩, ⟨16, 6, .rw, [(1, 32, 1)]⟩, ⟨24, 2, .rw, [(0, 2, 1)]⟩]⟩
  , ⟨0x200E0080, 8, 8, 0, 1, fun i _ => panelTableT i, [⟨0, 16, .rw, []⟩, ⟨16, 16, .rw, [(50, 1500, 1)]⟩]⟩
  , ⟨0x200E0084, 8, 8, 0, 1, fun i _ => panelTableV i, [⟨0, 16, .rw, [(500, 4000, 1)]⟩]⟩
  , ⟨0x200E00C0, 4, 5, 0, 1, fun i _ => panelWave i, [⟨0, 32, .rw, []⟩]⟩ ]

/-- Registers of block DP (spec/21_panel.md). -/
def dpRegs : List RegDef := dpRegs0 ++ dpRegs1

/-- Registers of block SEC, part 0. -/
def secRegs0 : List RegDef :=
  [ ⟨0x200F0000, 0, 1, 0, 1, fun _ _ => 262401, [⟨0, 8, .ro, []⟩, ⟨8, 8, .ro, []⟩, ⟨16, 8, .ro, []⟩]⟩
  , ⟨0x200F0008, 0, 1, 0, 1, fun _ _ => 1, [⟨0, 3, .ro, []⟩, ⟨3, 1, .ro, []⟩, ⟨4, 1, .ro, []⟩]⟩
  , ⟨0x200F000C, 0, 1, 0, 1, fun _ _ => 0, [⟨0, 3, .ro, []⟩, ⟨16, 16, .ro, []⟩]⟩
  , ⟨0x200F0010, 0, 1, 0, 1, fun _ _ => 0, [⟨0, 4, .ro, []⟩, ⟨4, 4, .ro, []⟩, ⟨8, 4, .ro, []⟩]⟩
  , ⟨0x200F0014, 0, 1, 0, 1, fun _ _ => 0, [⟨0, 8, .ro, []⟩, ⟨8, 8, .ro, []⟩, ⟨16, 8, .ro, []⟩]⟩
  , ⟨0x200F0020, 0, 1, 0, 1, fun _ _ => 0, [⟨0, 32, .ro, []⟩]⟩
  , ⟨0x200F0024, 0, 1, 0, 1, fun _ _ => 0, [⟨0, 32, .ro, []⟩]⟩
  , ⟨0x200F0028, 0, 1, 0, 1, fun _ _ => 0, [⟨0, 32, .ro, []⟩]⟩ ]

/-- Registers of block SEC (spec/22_security_update.md). -/
def secRegs : List RegDef := secRegs0

/-- Registers of block UP, part 0. -/
def upRegs0 : List RegDef :=
  [ ⟨0x20100000, 0, 1, 0, 1, fun _ _ => 196865, [⟨0, 8, .ro, []⟩, ⟨8, 8, .ro, []⟩, ⟨16, 8, .ro, []⟩]⟩
  , ⟨0x20100008, 0, 1, 0, 1, fun _ _ => 0, [⟨0, 1, .ro, []⟩, ⟨1, 3, .ro, []⟩, ⟨4, 1, .ro, []⟩]⟩
  , ⟨0x20100040, 0, 1, 0, 1, fun _ _ => 0, [⟨0, 32, .ro, []⟩]⟩
  , ⟨0x20100044, 0, 1, 0, 1, fun _ _ => 0, [⟨0, 32, .ro, []⟩]⟩
  , ⟨0x20100048, 0, 1, 0, 1, fun _ _ => 0, [⟨0, 32, .ro, []⟩]⟩
  , ⟨0x2010004C, 0, 1, 0, 1, fun _ _ => 0, [⟨0, 32, .ro, []⟩]⟩
  , ⟨0x20100100, 32, 3, 0, 1, fun _ _ => 0, [⟨0, 1, .ro, []⟩, ⟨1, 3, .ro, []⟩, ⟨4, 2, .ro, []⟩, ⟨8, 8, .ro, []⟩]⟩
  , ⟨0x20100104, 32, 3, 0, 1, fun _ _ => 0, [⟨0, 32, .ro, []⟩]⟩
  , ⟨0x20100108, 32, 3, 0, 1, fun _ _ => 0, [⟨0, 32, .ro, []⟩]⟩
  , ⟨0x2010010C, 32, 3, 0, 1, fun _ _ => 0, [⟨0, 32, .ro, []⟩]⟩
  , ⟨0x20100110, 32, 3, 0, 1, fun _ _ => 0, [⟨0, 32, .ro, []⟩]⟩
  , ⟨0x20100114, 32, 3, 0, 1, fun _ _ => 0, [⟨0, 32, .ro, []⟩]⟩
  , ⟨0x20100118, 32, 3, 0, 1, fun _ _ => 0, [⟨0, 16, .ro, []⟩]⟩ ]

/-- Registers of block UP (spec/22_security_update.md). -/
def upRegs : List RegDef := upRegs0

/-- Registers of block MS, part 0. -/
def msRegs0 : List RegDef :=
  [ ⟨0x20110000, 0, 1, 0, 1, fun _ _ => 655617, [⟨0, 8, .ro, []⟩, ⟨8, 8, .ro, []⟩, ⟨16, 8, .ro, []⟩]⟩
  , ⟨0x20110008, 0, 1, 0, 1, fun _ _ => 0, [⟨0, 1, .ro, []⟩, ⟨1, 1, .ro, []⟩, ⟨2, 1, .ro, []⟩, ⟨3, 1, .ro, []⟩]⟩
  , ⟨0x20110010, 0, 1, 0, 1, fun _ _ => 0, [⟨0, 6, .w1c, []⟩]⟩
  , ⟨0x20110014, 0, 1, 0, 1, fun _ _ => 0, [⟨0, 6, .rw, []⟩]⟩
  , ⟨0x20110020, 0, 1, 0, 1, fun _ _ => 0, [⟨0, 28, .wo, []⟩]⟩
  , ⟨0x20110024, 0, 1, 0, 1, fun _ _ => 0, [⟨0, 3, .ro, []⟩, ⟨16, 16, .ro, []⟩]⟩
  , ⟨0x20110028, 0, 1, 0, 1, fun _ _ => 0, [⟨0, 32, .rw, [(0, 4294967295, 16)]⟩]⟩
  , ⟨0x2011002C, 0, 1, 0, 1, fun _ _ => 0, [⟨0, 32, .rw, []⟩]⟩
  , ⟨0x20110030, 0, 1, 0, 1, fun _ _ => 0, [⟨0, 8, .ro, []⟩]⟩
  , ⟨0x20110034, 0, 1, 0, 1, fun _ _ => 0, [⟨0, 8, .rw, []⟩]⟩
  , ⟨0x20110038, 0, 1, 0, 1, fun _ _ => 0, [⟨0, 9, .ro, []⟩]⟩
  , ⟨0x2011003C, 0, 1, 0, 1, fun _ _ => 0, [⟨0, 16, .wo, []⟩]⟩
  , ⟨0x20110040, 0, 1, 0, 1, fun _ _ => 32768002, [⟨0, 3, .rw, [(1, 7, 1)]⟩, ⟨16, 16, .rw, [(10, 10000, 1)]⟩]⟩
  , ⟨0x20110044, 0, 1, 0, 1, fun _ _ => 0, [⟨0, 16, .ro, []⟩]⟩
  , ⟨0x20110048, 0, 1, 0, 1, fun _ _ => 0, [⟨0, 32, .ro, []⟩]⟩
  , ⟨0x20110080, 0, 1, 0, 1, fun _ _ => 0, [⟨0, 32, .ro, []⟩]⟩
  , ⟨0x20110084, 0, 1, 0, 1, fun _ _ => 0, [⟨0, 32, .ro, []⟩]⟩
  , ⟨0x20110088, 0, 1, 0, 1, fun _ _ => 0, [⟨0, 32, .ro, []⟩]⟩
  , ⟨0x2011008C, 0, 1, 0, 1, fun _ _ => 0, [⟨0, 32, .ro, []⟩]⟩
  , ⟨0x20110090, 0, 1, 0, 1, fun _ _ => 24, [⟨0, 8, .rw, [(1, 168, 1)]⟩]⟩ ]

/-- Registers of block MS, part 1. -/
def msRegs1 : List RegDef :=
  [ ⟨0x20110094, 0, 1, 0, 1, fun _ _ => 0, [⟨0, 32, .ro, []⟩]⟩
  , ⟨0x201100A0, 0, 1, 0, 1, fun _ _ => 0, [⟨0, 32, .ro, []⟩]⟩
  , ⟨0x201100A4, 0, 1, 0, 1, fun _ _ => 0, [⟨0, 32, .ro, []⟩]⟩
  , ⟨0x20118000, 0, 1, 0, 1, fun _ _ => 1, [⟨0, 1, .rw, []⟩, ⟨1, 1, .wo, []⟩]⟩
  , ⟨0x20118004, 0, 1, 0, 1, fun _ _ => 0, [⟨0, 28, .wo, []⟩]⟩
  , ⟨0x20118008, 0, 1, 0, 1, fun _ _ => 0, [⟨0, 2, .ro, []⟩, ⟨16, 16, .ro, []⟩]⟩
  , ⟨0x2011800C, 0, 1, 0, 1, fun _ _ => 0, [⟨0, 32, .rw, [(0, 4294967295, 16)]⟩]⟩
  , ⟨0x20118010, 0, 1, 0, 1, fun _ _ => 0, [⟨0, 32, .rw, []⟩]⟩
  , ⟨0x20118014, 0, 1, 0, 1, fun _ _ => 0, [⟨0, 9, .ro, []⟩]⟩
  , ⟨0x20118018, 0, 1, 0, 1, fun _ _ => 0, [⟨0, 9, .rw, []⟩]⟩
  , ⟨0x2011801C, 0, 1, 0, 1, fun _ _ => 0, [⟨0, 10, .ro, []⟩, ⟨16, 16, .ro, []⟩]⟩
  , ⟨0x20118020, 0, 1, 0, 1, fun _ _ => 0, [⟨0, 16, .wo, []⟩]⟩
  , ⟨0x20118024, 0, 1, 0, 1, fun _ _ => 0, [⟨0, 2, .w1c, []⟩]⟩
  , ⟨0x20118028, 0, 1, 0, 1, fun _ _ => 0, [⟨0, 2, .rw, []⟩]⟩
  , ⟨0x20118030, 0, 1, 0, 1, fun _ _ => 0, [⟨0, 32, .ro, []⟩]⟩
  , ⟨0x20118034, 0, 1, 0, 1, fun _ _ => 0, [⟨0, 32, .ro, []⟩]⟩
  , ⟨0x20118038, 0, 1, 0, 1, fun _ _ => 0, [⟨0, 32, .ro, []⟩]⟩ ]

/-- Registers of block MS (spec/16_memory_storage.md). -/
def msRegs : List RegDef := msRegs0 ++ msRegs1

/-- Registers of block GH, part 0. -/
def ghRegs0 : List RegDef :=
  [ ⟨0x20120000, 0, 1, 0, 1, fun _ _ => 16777473, [⟨0, 8, .ro, []⟩, ⟨8, 8, .ro, []⟩, ⟨16, 16, .ro, []⟩]⟩
  , ⟨0x20120004, 0, 1, 0, 1, fun _ _ => 0, [⟨0, 1, .rw, []⟩, ⟨1, 1, .wo, []⟩, ⟨2, 1, .wo, []⟩]⟩
  , ⟨0x20120008, 0, 1, 0, 1, fun _ _ => 0, [⟨0, 1, .ro, []⟩, ⟨1, 1, .w1c, []⟩, ⟨2, 1, .w1c, []⟩, ⟨3, 1, .w1c, []⟩, ⟨4, 1, .w1c, []⟩, ⟨16, 9, .ro, []⟩]⟩
  , ⟨0x2012000C, 0, 1, 0, 1, fun _ _ => 10000, [⟨0, 16, .rw, [(0, 50000, 1)]⟩]⟩
  , ⟨0x20120010, 0, 1, 0, 1, fun _ _ => 0, [⟨0, 32, .rw, []⟩]⟩
  , ⟨0x20120014, 0, 1, 0, 1, fun _ _ => 0, [⟨0, 32, .rw, []⟩]⟩
  , ⟨0x20120018, 0, 1, 0, 1, fun _ _ => 0, [⟨0, 32, .rw, []⟩]⟩
  , ⟨0x2012001C, 0, 1, 0, 1, fun _ _ => 0, [⟨0, 2, .wo, []⟩, ⟨2, 1, .wo, []⟩, ⟨3, 6, .wo, []⟩, ⟨9, 7, .wo, []⟩, ⟨16, 16, .wo, []⟩]⟩
  , ⟨0x20120020, 0, 1, 0, 1, fun _ _ => 0, [⟨0, 3, .ro, []⟩]⟩
  , ⟨0x20120024, 0, 1, 0, 1, fun _ _ => 0, [⟨0, 16, .rw, []⟩]⟩
  , ⟨0x20120028, 0, 1, 0, 1, fun _ _ => 0, [⟨0, 32, .ro, []⟩]⟩
  , ⟨0x2012002C, 0, 1, 0, 1, fun _ _ => 0, [⟨0, 32, .ro, []⟩]⟩
  , ⟨0x20120030, 0, 1, 0, 1, fun _ _ => 0, [⟨0, 32, .ro, []⟩]⟩
  , ⟨0x20120034, 0, 1, 0, 1, fun _ _ => 0, [⟨0, 32, .ro, []⟩]⟩
  , ⟨0x20120040, 0, 1, 0, 1, fun _ _ => 0, [⟨0, 32, .ro, []⟩]⟩
  , ⟨0x20120044, 0, 1, 0, 1, fun _ _ => 0, [⟨0, 32, .ro, []⟩]⟩
  , ⟨0x20120048, 0, 1, 0, 1, fun _ _ => 0, [⟨0, 32, .ro, []⟩]⟩
  , ⟨0x2012004C, 0, 1, 0, 1, fun _ _ => 0, [⟨0, 32, .ro, []⟩]⟩
  , ⟨0x20120050, 0, 1, 0, 1, fun _ _ => 0, [⟨0, 32, .ro, []⟩]⟩
  , ⟨0x20120054, 0, 1, 0, 1, fun _ _ => 0, [⟨0, 32, .ro, []⟩]⟩ ]

/-- Registers of block GH (spec/10_parterre_gatehouse.md). -/
def ghRegs : List RegDef := ghRegs0

/-- Registers of block KP, part 0. -/
def kpRegs0 : List RegDef :=
  [ ⟨0x20130000, 0, 1, 0, 1, fun _ _ => 1048833, [⟨0, 8, .ro, []⟩, ⟨8, 8, .ro, []⟩, ⟨16, 8, .ro, []⟩]⟩
  , ⟨0x20130008, 0, 1, 0, 1, fun _ _ => 0, [⟨0, 1, .ro, []⟩]⟩
  , ⟨0x20130010, 0, 1, 0, 1, fun _ _ => 0, [⟨0, 2, .w1c, []⟩]⟩
  , ⟨0x20130014, 0, 1, 0, 1, fun _ _ => 0, [⟨0, 2, .rw, []⟩]⟩
  , ⟨0x20130020, 0, 1, 0, 1, fun _ _ => 0, [⟨0, 32, .wo, []⟩]⟩
  , ⟨0x20130024, 0, 1, 0, 1, fun _ _ => 0, [⟨0, 16, .ro, []⟩]⟩
  , ⟨0x20130028, 4, 4, 0, 1, fun _ _ => 0, [⟨0, 32, .wo, []⟩]⟩
  , ⟨0x20130040, 0, 1, 0, 1, fun _ _ => 0, [⟨0, 32, .ro, []⟩]⟩
  , ⟨0x20130044, 0, 1, 0, 1, fun _ _ => 0, [⟨0, 32, .ro, []⟩]⟩
  , ⟨0x20130050, 0, 1, 0, 1, fun _ _ => 255, [⟨0, 8, .ro, []⟩]⟩
  , ⟨0x20130058, 0, 1, 0, 1, fun _ _ => 0, [⟨0, 32, .rw, [(0, 4294967295, 64)]⟩]⟩
  , ⟨0x2013005C, 0, 1, 0, 1, fun _ _ => 0, [⟨0, 32, .rw, []⟩]⟩
  , ⟨0x20130060, 0, 1, 0, 1, fun _ _ => 0, [⟨0, 6, .ro, []⟩]⟩
  , ⟨0x20130100, 32, 16, 0, 1, fun _ _ => 0, [⟨0, 32, .rw, []⟩]⟩
  , ⟨0x20130104, 32, 16, 0, 1, fun _ _ => 0, [⟨0, 32, .rw, []⟩]⟩
  , ⟨0x20130108, 32, 16, 0, 1, fun _ _ => 0, [⟨0, 32, .rw, []⟩]⟩
  , ⟨0x2013010C, 32, 16, 0, 1, fun _ _ => 0, [⟨0, 32, .rw, []⟩]⟩
  , ⟨0x20130110, 32, 16, 0, 1, fun _ _ => 0, [⟨0, 1, .wo, []⟩, ⟨1, 1, .wo, []⟩, ⟨2, 1, .rw, []⟩]⟩
  , ⟨0x20130114, 32, 16, 0, 1, fun _ _ => 0, [⟨0, 2, .ro, []⟩, ⟨8, 8, .ro, []⟩]⟩ ]

/-- Registers of block KP (spec/20_keeper_events_thermal.md). -/
def kpRegs : List RegDef := kpRegs0

/-- The register table of the 64 KB window that holds `addr` (Table 15-2). -/
def blockRegs (addr : Nat) : List RegDef :=
  match addr / 65536 with
  | 0x2000 => ckRegs
  | 0x2001 => icRegs
  | 0x2002 => ceRegs
  | 0x2003 => sdRegs
  | 0x2004 => lsRegs
  | 0x2005 => siRegs
  | 0x2006 => fuRegs
  | 0x2007 => camRegs
  | 0x2008 => gnRegs
  | 0x2009 => fbRegs
  | 0x200A => cnRegs
  | 0x200B => cvRegs
  | 0x200C => evRegs
  | 0x200D => thRegs
  | 0x200E => dpRegs
  | 0x200F => secRegs
  | 0x2010 => upRegs
  | 0x2011 => msRegs
  | 0x2012 => ghRegs
  | 0x2013 => kpRegs
  | _ => []

/-- The instance (i, j) of a register that lies at `addr`, if one does. -/
def RegDef.instanceAt (d : RegDef) (addr : Nat) : Option (Nat × Nat) :=
  if addr < d.base then none
  else
    let off := addr - d.base
    let i := if d.stride = 0 then 0 else min (off / d.stride) (d.count - 1)
    let rest := off - d.stride * i
    let j := if d.stride2 = 0 then 0 else min (rest / d.stride2) (d.count2 - 1)
    if rest = d.stride2 * j then some (i, j) else none

/-- The register at `addr` with its instance. -/
def regAtIn : List RegDef → Nat → Option (RegDef × Nat × Nat)
  | [], _ => none
  | d :: ds, addr =>
    match d.instanceAt addr with
    | some (i, j) => some (d, i, j)
    | none => regAtIn ds addr

/-- The register at bus address `addr` with its instance; none at a reserved offset (R5). -/
def regAt (addr : Nat) : Option (RegDef × Nat × Nat) := regAtIn (blockRegs addr) addr

/-- What a register reads after reset; 0 at a reserved offset (R5). -/
def regReset (addr : Nat) : BitVec 32 :=
  match regAt addr with
  | some (d, i, j) => BitVec.ofNat 32 (d.reset i j)
  | none => 0

/-- Whether `v` is a legal encoding of the field (R6). -/
def FieldDef.accepts (f : FieldDef) (v : Nat) : Bool :=
  f.legal.isEmpty || f.legal.any fun r => r.1 ≤ v && v ≤ r.2.1 && (v % r.2.2 == 0)

end Sys2Proof.Machine
end

