-- ==== Sys2Proof/Machine/Objs.lean ====
section
/-!
DEFINITION. The object dictionary: every object the object tables of spec/ give, with its type, access, default,
legal range and the place its value lives in (a store of its own, a field or words of a register block, or an
operation of its own).
-/
namespace Sys2Proof.Machine

/-- The types of dictionary objects (00_scope.md, Dictionary objects). -/
inductive ObjTy where
  | u8 | u16 | u32 | u64 | i8 | i16 | i32 | i64 | f32 | f64 | time64 | string | blob
deriving DecidableEq, Repr

/-- The access codes of dictionary objects. -/
inductive ObjAcc where
  | ro | rw | wo | rwk
deriving DecidableEq, Repr

/-- An object's value: a number held as its unsigned bit pattern, or the bytes of a string or blob. -/
inductive ObjVal where
  | num (n : Nat)
  | bytes (l : List Byte)
deriving DecidableEq, Repr

/-- The legal values of an object. -/
inductive ObjRange where
  | any
  | ints (r : List (Nat × Nat × Nat))
  | f32 (lo hi : F32)
  | f32Finite | f32Nonneg | f32Pos | f32Nonzero
  | f64 (lo hi : BitVec 64)
  | len (lo hi step : Nat)
deriving DecidableEq, Repr

/-- Where the value of instance i of an object lives. -/
inductive Backing where
  | own                                            -- a store of its own
  | fixed                                          -- the default, for ever
  | field (f : Nat → Fld) (mult : Nat)             -- a register field times `mult`
  | scaled (f : Nat → Fld) (num den : Nat)         -- binary32, the field times num / den
  | pow2 (f : Nat → Fld)                           -- 2 to the power of the field
  | words (a : Nat → Nat) (n : Nat)                -- n consecutive register words
  | dword (a : Nat → Nat)                          -- 64 bits in two words, low first
  | special                                        -- an operation of its own in this model

/-- A row of an object table: objects `index + i` for i below `count`, sub-indices `sub` to `sub + subs - 1`. -/
structure ObjDef where
  index : Nat
  count : Nat
  sub : Nat
  subs : Nat
  typ : ObjTy
  acc : ObjAcc
  default : Nat → ObjVal
  range : ObjRange
  back : Backing

/-- The u32 value `v` as four bytes, low first (R3). -/
def le32 (v : Nat) : List Byte :=
  [BitVec.ofNat 8 v, BitVec.ofNat 8 (v / 256), BitVec.ofNat 8 (v / 65536), BitVec.ofNat 8 (v / 16777216)]

/-- The u16 value `v` as two bytes, low first (R3). -/
def le16 (v : Nat) : List Byte := [BitVec.ofNat 8 v, BitVec.ofNat 8 (v / 256)]

/-- The default camera parameter block (Table 7-3), 43,456 bytes. -/
def camParamDefault : List Byte :=
  ((List.range 4096).flatMap fun i => le32 (4096 * i))
    ++ le32 65536 ++ le32 65536 ++ le32 0xFFFFFF ++ le32 0xFFFFFF ++ List.replicate 48 0
    ++ ([4096, 0, 0, 0, 4096, 0, 0, 0, 4096].flatMap le16) ++ List.replicate 2 0 ++ List.replicate 12 0
    ++ ([0, 0, 64, 64].flatMap le16) ++ List.replicate 24 0
    ++ ((List.range 3300).flatMap fun _ => le16 0x1000) ++ List.replicate 56 0
    ++ ((List.range 1920).flatMap fun k => le16 (4095 * (k % 640) / 639))
    ++ List.replicate 16384 0 ++ List.replicate 64 0

/-- Objects of indices 0x1000 to 0x10FF, part 0. -/
def objs10p0 : List ObjDef :=
  [ ⟨0x1000, 1, 0x01, 1, .string, .ro, fun _ => .bytes [83, 99, 97, 104, 111, 108, 116], .len 7 7 1, .fixed⟩
  , ⟨0x1000, 1, 0x02, 1, .string, .ro, fun _ => .bytes [75, 90, 45, 55, 77, 52, 56], .len 7 7 1, .fixed⟩
  , ⟨0x1000, 1, 0x03, 1, .u8, .ro, fun _ => .num 67, .any, .fixed⟩
  , ⟨0x1000, 1, 0x04, 1, .u64, .ro, fun _ => .num 0, .any, .own⟩
  , ⟨0x1000, 1, 0x05, 1, .u16, .ro, fun _ => .num 0, .any, .special⟩
  , ⟨0x1000, 1, 0x06, 3, .u64, .ro, fun _ => .num 0, .any, .special⟩
  , ⟨0x1000, 1, 0x09, 1, .u16, .ro, fun _ => .num 1, .any, .fixed⟩
  , ⟨0x1000, 1, 0x0A, 1, .u8, .rwk, fun _ => .num 0, .ints [(0, 1, 1)], .own⟩
  , ⟨0x1000, 1, 0x0B, 1, .u8, .ro, fun _ => .num 0, .any, .special⟩
  , ⟨0x1000, 1, 0x0C, 1, .u32, .ro, fun _ => .num 0, .any, .special⟩
  , ⟨0x1000, 1, 0x0D, 1, .u8, .ro, fun _ => .num 3, .any, .fixed⟩
  , ⟨0x1000, 1, 0x0E, 1, .string, .rwk, fun _ => .bytes [], .len 0 32 1, .own⟩ ]

def objs10 : List ObjDef := objs10p0

/-- Objects of indices 0x1200 to 0x12FF, part 0. -/
def objs12p0 : List ObjDef :=
  [ ⟨0x1200, 1, 0x01, 1, .u8, .ro, fun _ => .num 0, .any, .field (fun _ => R.secLcState) 1⟩
  , ⟨0x1200, 1, 0x02, 1, .blob, .ro, fun _ => .bytes [], .len 32 32 1, .special⟩
  , ⟨0x1200, 1, 0x03, 1, .blob, .wo, fun _ => .bytes [], .len 144 144 1, .special⟩
  , ⟨0x1200, 1, 0x04, 1, .u8, .wo, fun _ => .num 0, .ints [(2, 2, 1), (4, 4, 1)], .special⟩
  , ⟨0x1200, 1, 0x05, 1, .u32, .ro, fun _ => .num 0, .any, .words (fun _ => R.secDbg) 1⟩
  , ⟨0x1200, 1, 0x06, 1, .u8, .wo, fun _ => .num 0, .ints [(1, 1, 1)], .special⟩
  , ⟨0x1200, 1, 0x07, 1, .blob, .ro, fun _ => .bytes [], .len 144 144 1, .special⟩
  , ⟨0x1200, 1, 0x08, 1, .blob, .wo, fun _ => .bytes [], .len 33 33 1, .special⟩
  , ⟨0x1200, 1, 0x09, 1, .blob, .wo, fun _ => .bytes [], .len 33 33 1, .special⟩
  , ⟨0x1200, 1, 0x0A, 1, .blob, .ro, fun _ => .bytes [], .len 32 32 1, .special⟩
  , ⟨0x1200, 1, 0x0B, 1, .blob, .rwk, fun _ => .bytes [], .len 0 4096 1, .own⟩
  , ⟨0x1200, 1, 0x0C, 1, .blob, .rwk, fun _ => .bytes [], .len 0 4096 1, .own⟩
  , ⟨0x1200, 1, 0x0D, 1, .blob, .ro, fun _ => .bytes [], .len 3 3 1, .special⟩
  , ⟨0x1200, 1, 0x0E, 1, .blob, .ro, fun _ => .bytes [], .len 12 12 1, .words (fun _ => R.secTokens) 3⟩
  , ⟨0x1200, 1, 0x0F, 1, .u64, .wo, fun _ => .num 0, .ints [(0, 9999999999, 1)], .special⟩ ]

def objs12 : List ObjDef := objs12p0

/-- Objects of indices 0x1300 to 0x13FF, part 0. -/
def objs13p0 : List ObjDef :=
  [ ⟨0x1300, 1, 0x01, 1, .f32, .ro, fun _ => .num 0, .any, .special⟩
  , ⟨0x1300, 1, 0x02, 1, .blob, .ro, fun _ => .bytes [], .len 16 16 1, .special⟩
  , ⟨0x1300, 1, 0x03, 1, .u8, .ro, fun _ => .num 0, .any, .special⟩
  , ⟨0x1300, 1, 0x04, 1, .f32, .ro, fun _ => .num 0, .any, .special⟩
  , ⟨0x1300, 1, 0x05, 1, .u32, .ro, fun _ => .num 0, .any, .special⟩
  , ⟨0x1300, 1, 0x06, 1, .blob, .ro, fun _ => .bytes [], .len 8 8 1, .special⟩
  , ⟨0x1300, 1, 0x07, 1, .u16, .rwk, fun _ => .num 30, .ints [(0, 3600, 1)], .own⟩
  , ⟨0x1300, 1, 0x08, 1, .u8, .rw, fun _ => .num 0, .ints [(0, 1, 1)], .own⟩
  , ⟨0x1300, 1, 0x09, 1, .u16, .rwk, fun _ => .num 600, .ints [(0, 7200, 1)], .own⟩
  , ⟨0x1300, 1, 0x0A, 1, .u8, .rwk, fun _ => .num 0, .ints [(0, 1, 1)], .own⟩
  , ⟨0x1300, 1, 0x0B, 1, .blob, .rwk, fun _ => .bytes (List.replicate 128 0), .len 128 128 1, .own⟩
  , ⟨0x1300, 1, 0x0C, 1, .f32, .ro, fun _ => .num 0, .any, .special⟩
  , ⟨0x1300, 1, 0x0D, 1, .u16, .ro, fun _ => .num 0, .any, .special⟩
  , ⟨0x1300, 1, 0x0E, 1, .f32, .ro, fun _ => .num 0, .any, .special⟩
  , ⟨0x1300, 1, 0x0F, 1, .blob, .ro, fun _ => .bytes [], .len 12 12 1, .special⟩
  , ⟨0x1300, 1, 0x10, 1, .blob, .ro, fun _ => .bytes [], .len 16 16 1, .special⟩
  , ⟨0x1300, 1, 0x20, 1, .u8, .ro, fun _ => .num 0, .any, .special⟩
  , ⟨0x1300, 1, 0x21, 1, .u8, .wo, fun _ => .num 0, .ints [(0, 4, 1)], .special⟩
  , ⟨0x1300, 1, 0x22, 1, .u16, .wo, fun _ => .num 0, .ints [(21337, 21337, 1)], .special⟩
  , ⟨0x1300, 1, 0x23, 1, .u8, .wo, fun _ => .num 0, .ints [(1, 3, 1)], .special⟩ ]

/-- Objects of indices 0x1300 to 0x13FF, part 1. -/
def objs13p1 : List ObjDef :=
  [ ⟨0x1300, 1, 0x24, 1, .blob, .ro, fun _ => .bytes [], .len 32 32 1, .special⟩
  , ⟨0x1300, 1, 0x25, 1, .blob, .ro, fun _ => .bytes [], .len 36 36 1, .special⟩
  , ⟨0x1300, 1, 0x26, 1, .blob, .rw, fun _ => .bytes (List.replicate 32 255), .len 32 32 1, .own⟩
  , ⟨0x1300, 1, 0x27, 1, .time64, .rw, fun _ => .num 0, .any, .own⟩
  , ⟨0x1300, 1, 0x28, 1, .blob, .ro, fun _ => .bytes [], .len 8 8 1, .special⟩
  , ⟨0x1300, 1, 0x29, 1, .u8, .rwk, fun _ => .num 1, .ints [(0, 7, 1)], .own⟩
  , ⟨0x1380, 1, 0x01, 1, .u8, .rwk, fun _ => .num 1, .ints [(0, 1, 1)], .own⟩
  , ⟨0x1380, 1, 0x02, 1, .u8, .rwk, fun _ => .num 1, .ints [(0, 1, 1)], .own⟩
  , ⟨0x1380, 1, 0x03, 1, .u8, .rwk, fun _ => .num 1, .ints [(0, 1, 1)], .own⟩
  , ⟨0x1380, 1, 0x04, 1, .u8, .rwk, fun _ => .num 2, .ints [(0, 2, 1)], .own⟩
  , ⟨0x1380, 1, 0x05, 1, .u8, .rwk, fun _ => .num 0, .ints [(0, 1, 1)], .own⟩
  , ⟨0x1380, 1, 0x06, 1, .u8, .rwk, fun _ => .num 0, .ints [(0, 1, 1)], .own⟩
  , ⟨0x1380, 1, 0x07, 1, .u32, .ro, fun _ => .num 0, .any, .special⟩ ]

def objs13 : List ObjDef := objs13p0 ++ objs13p1

/-- Objects of indices 0x1400 to 0x14FF, part 0. -/
def objs14p0 : List ObjDef :=
  [ ⟨0x1400, 1, 0x01, 1, .u32, .ro, fun _ => .num 0, .any, .words (fun _ => R.ckStat) 1⟩
  , ⟨0x1400, 1, 0x02, 1, .u8, .rwk, fun _ => .num 0, .ints [(0, 3, 1)], .own⟩
  , ⟨0x1400, 1, 0x03, 1, .u8, .rwk, fun _ => .num 0, .ints [(0, 3, 1)], .own⟩
  , ⟨0x1400, 1, 0x04, 1, .u16, .ro, fun _ => .num 0, .any, .special⟩
  , ⟨0x1400, 1, 0x05, 1, .u32, .rwk, fun _ => .num 131071, .any, .words (fun _ => R.ckGrun) 1⟩
  , ⟨0x1400, 1, 0x06, 1, .u32, .rwk, fun _ => .num 65084, .any, .words (fun _ => R.ckGsleep) 1⟩
  , ⟨0x1400, 1, 0x07, 1, .u8, .rwk, fun _ => .num 7, .any, .words (fun _ => R.ckGdeep) 1⟩
  , ⟨0x1400, 1, 0x08, 1, .f32, .ro, fun _ => .num 0, .any, .scaled (fun _ => R.ckRcfreqRcfreq) 1 1⟩
  , ⟨0x1400, 1, 0x09, 1, .blob, .ro, fun _ => .bytes [], .len 16 16 1, .words (fun _ => R.ckRefswitch) 4⟩ ]

def objs14 : List ObjDef := objs14p0

/-- Objects of indices 0x1500 to 0x15FF, part 0. -/
def objs15p0 : List ObjDef :=
  [ ⟨0x1500, 1, 0x01, 1, .u8, .ro, fun _ => .num 1, .any, .field (fun _ => R.icCtrlPaired) 1⟩
  , ⟨0x1500, 1, 0x02, 1, .u8, .ro, fun _ => .num 0, .any, .special⟩
  , ⟨0x1500, 1, 0x03, 1, .blob, .ro, fun _ => .bytes (List.replicate 8 0), .len 8 8 1, .special⟩
  , ⟨0x1500, 1, 0x04, 1, .u8, .ro, fun _ => .num 0, .any, .special⟩
  , ⟨0x1500, 1, 0x05, 1, .u32, .ro, fun _ => .num 0, .any, .special⟩
  , ⟨0x1500, 1, 0x06, 1, .u16, .rwk, fun _ => .num 8191, .any, .words (fun _ => R.icNmimask) 1⟩
  , ⟨0x1500, 1, 0x07, 1, .blob, .ro, fun _ => .bytes [], .len 16 16 1, .words (fun _ => R.icSwdbIgn) 4⟩
  , ⟨0x1500, 1, 0x08, 1, .blob, .ro, fun _ => .bytes [], .len 2048 2048 1, .special⟩
  , ⟨0x1500, 1, 0x09, 1, .blob, .ro, fun _ => .bytes [], .len 12 12 1, .words (fun _ => R.dmaCompleted) 3⟩ ]

def objs15 : List ObjDef := objs15p0

/-- Objects of indices 0x1600 to 0x16FF, part 0. -/
def objs16p0 : List ObjDef :=
  [ ⟨0x1600, 1, 0x01, 1, .u32, .ro, fun _ => .num 0, .any, .special⟩
  , ⟨0x1600, 1, 0x02, 1, .blob, .ro, fun _ => .bytes [], .len 320 320 1, .special⟩
  , ⟨0x1600, 1, 0x03, 1, .blob, .ro, fun _ => .bytes (List.replicate 40 0), .len 40 40 1, .special⟩
  , ⟨0x1600, 1, 0x04, 1, .u64, .ro, fun _ => .num 0, .any, .special⟩
  , ⟨0x1600, 1, 0x05, 1, .u8, .rwk, fun _ => .num 24, .ints [(1, 168, 1)], .field (fun _ => R.msScrubPeriod) 1⟩
  , ⟨0x1600, 1, 0x06, 1, .blob, .ro, fun _ => .bytes [], .len 8 8 1, .words (fun _ => R.msDce) 2⟩
  , ⟨0x1600, 1, 0x07, 1, .blob, .ro, fun _ => .bytes [], .len 0 4096 1, .special⟩
  , ⟨0x1600, 1, 0x08, 1, .u8, .wo, fun _ => .num 0, .ints [(1, 1, 1)], .special⟩
  , ⟨0x1600, 1, 0x09, 1, .blob, .ro, fun _ => .bytes [], .len 8 8 1, .words (fun _ => R.msEce) 2⟩
  , ⟨0x1600, 1, 0x0A, 1, .u8, .rwk, fun _ => .num 2, .ints [(1, 7, 1)], .field (fun _ => R.msScfgRetry) 1⟩
  , ⟨0x1600, 1, 0x0B, 1, .u16, .rwk, fun _ => .num 500, .ints [(10, 10000, 1)], .field (fun _ => R.msScfgTimeout) 1⟩
  , ⟨0x1600, 1, 0x0C, 1, .u32, .rwk, fun _ => .num 16777216, .ints [(4096, 16777216, 4096)], .own⟩
  , ⟨0x1600, 1, 0x0D, 1, .u16, .ro, fun _ => .num 0, .any, .field (fun _ => R.msSwatWat) 1⟩
  , ⟨0x1600, 1, 0x0E, 1, .blob, .ro, fun _ => .bytes [], .len 160 160 1, .special⟩
  , ⟨0x1600, 1, 0x0F, 1, .u8, .ro, fun _ => .num 0, .any, .special⟩ ]

def objs16 : List ObjDef := objs16p0

/-- Objects of indices 0x1700 to 0x17FF, part 0. -/
def objs17p0 : List ObjDef :=
  [ ⟨0x1700, 1, 0x01, 1, .u16, .wo, fun _ => .num 0, .ints [(0, 1023, 1)], .special⟩
  , ⟨0x1700, 1, 0x02, 1, .u8, .wo, fun _ => .num 0, .ints [(1, 1, 1)], .special⟩
  , ⟨0x1700, 1, 0x03, 1, .u8, .wo, fun _ => .num 0, .ints [(1, 1, 1)], .special⟩
  , ⟨0x1700, 1, 0x04, 1, .time64, .wo, fun _ => .num 0, .any, .special⟩
  , ⟨0x1700, 1, 0x05, 1, .u8, .wo, fun _ => .num 0, .ints [(1, 1, 1)], .special⟩
  , ⟨0x1700, 1, 0x06, 1, .u8, .ro, fun _ => .num 0, .any, .special⟩
  , ⟨0x1700, 1, 0x07, 1, .time64, .ro, fun _ => .num 0, .any, .special⟩
  , ⟨0x1700, 1, 0x08, 1, .u32, .ro, fun _ => .num 0, .any, .special⟩
  , ⟨0x1700, 1, 0x09, 1, .blob, .ro, fun _ => .bytes (List.replicate 256 0), .len 256 256 1, .special⟩
  , ⟨0x1700, 1, 0x0A, 1, .blob, .ro, fun _ => .bytes [], .len 8 8 1, .special⟩
  , ⟨0x1701, 8, 0x01, 128, .blob, .rw, fun _ => .bytes (List.replicate 20 0), .len 20 20 1, .special⟩
  , ⟨0x1709, 1, 0x01, 128, .blob, .rw, fun _ => .bytes (List.replicate 16 0), .len 16 16 1, .special⟩
  , ⟨0x170A, 1, 0x01, 128, .blob, .rw, fun _ => .bytes (List.replicate 16 0), .len 16 16 1, .special⟩
  , ⟨0x170B, 1, 0x01, 1, .blob, .ro, fun _ => .bytes (List.replicate 1024 0), .len 1024 1024 1, .special⟩ ]

def objs17 : List ObjDef := objs17p0

/-- Objects of indices 0x2000 to 0x20FF, part 0. -/
def objs20p0 : List ObjDef :=
  [ ⟨0x2000, 64, 0x01, 1, .u8, .rw, fun _ => .num 0, .ints [(0, 1, 1)], .special⟩
  , ⟨0x2000, 64, 0x02, 1, .u8, .rwk, fun _ => .num 0, .ints [(0, 1, 1)], .own⟩
  , ⟨0x2000, 64, 0x03, 1, .u32, .rwk, fun _ => .num 1000, .ints [(50, 655350, 10)], .field (R.ceLschedPeriod) 10⟩
  , ⟨0x2000, 64, 0x04, 1, .u16, .rwk, fun _ => .num 0, .any, .field (R.ceLschedPhase) 1⟩
  , ⟨0x2000, 64, 0x05, 1, .u8, .rwk, fun _ => .num 0, .ints [(0, 1, 1)], .field (R.ceLctrlDefer) 1⟩
  , ⟨0x2000, 64, 0x06, 1, .u8, .rwk, fun _ => .num 0, .ints [(0, 2, 1)], .field (R.ceLtgtType) 1⟩
  , ⟨0x2000, 64, 0x07, 1, .u8, .rwk, fun _ => .num 0, .ints [(0, 47, 1)], .field (R.ceLtgtCh) 1⟩
  , ⟨0x2000, 64, 0x08, 1, .u8, .rwk, fun _ => .num 0, .ints [(0, 2, 1)], .field (R.ceLctrlSpsrc) 1⟩
  , ⟨0x2000, 64, 0x09, 1, .f32, .rwk, fun _ => .num 0, .f32Finite, .field (R.ceLspcV) 1⟩
  , ⟨0x2000, 64, 0x0A, 1, .f32, .rw, fun _ => .num 0, .f32Finite, .field (R.ceLspdictV) 1⟩
  , ⟨0x2000, 64, 0x0B, 1, .f32, .rwk, fun _ => .num 0, .f32Nonneg, .field (R.ceLspslewV) 1⟩
  , ⟨0x2000, 64, 0x0C, 1, .f32, .rwk, fun _ => .num 0, .f32Finite, .field (R.ceLkpV) 1⟩
  , ⟨0x2000, 64, 0x0D, 1, .f32, .rwk, fun _ => .num 0, .f32Nonneg, .field (R.ceLkiV) 1⟩
  , ⟨0x2000, 64, 0x0E, 1, .f32, .rwk, fun _ => .num 0, .f32Finite, .field (R.ceLkdV) 1⟩
  , ⟨0x2000, 64, 0x0F, 1, .f32, .rwk, fun _ => .num 0, .f32Nonneg, .field (R.ceLtfV) 1⟩
  , ⟨0x2000, 64, 0x10, 1, .f32, .rwk, fun _ => .num 1065353216, .f32Finite, .field (R.ceLbV) 1⟩
  , ⟨0x2000, 64, 0x11, 1, .f32, .rwk, fun _ => .num 1065353216, .f32Finite, .field (R.ceLkffV) 1⟩
  , ⟨0x2000, 64, 0x12, 1, .f32, .rwk, fun _ => .num 0, .f32Finite, .field (R.ceLu0V) 1⟩
  , ⟨0x2000, 64, 0x13, 1, .f32, .rwk, fun _ => .num 0, .f32Finite, .field (R.ceLuminV) 1⟩
  , ⟨0x2000, 64, 0x14, 1, .f32, .rwk, fun _ => .num 0, .f32Finite, .field (R.ceLumaxV) 1⟩ ]

/-- Objects of indices 0x2000 to 0x20FF, part 1. -/
def objs20p1 : List ObjDef :=
  [ ⟨0x2000, 64, 0x15, 1, .f32, .rwk, fun _ => .num 0, .f32Nonneg, .field (R.ceLrateV) 1⟩
  , ⟨0x2000, 64, 0x16, 1, .u8, .rwk, fun _ => .num 0, .ints [(0, 1, 1)], .field (R.ceLctrlBumpless) 1⟩
  , ⟨0x2000, 64, 0x17, 1, .u8, .rwk, fun _ => .num 0, .ints [(0, 1, 1)], .field (R.ceLctrlSchedEn) 1⟩
  , ⟨0x2000, 64, 0x18, 1, .blob, .rwk, fun _ => .bytes (List.replicate 128 0), .len 128 128 1, .words (fun i => R.ceLschtab i 0) 32⟩
  , ⟨0x2000, 64, 0x19, 1, .u8, .rwk, fun _ => .num 10, .any, .field (R.ceLctrlMissLimit) 1⟩
  , ⟨0x2000, 64, 0x1A, 1, .u8, .rwk, fun _ => .num 0, .ints [(0, 1, 1)], .field (R.ceLctrlSafeMode) 1⟩
  , ⟨0x2000, 64, 0x1B, 1, .f32, .rwk, fun _ => .num 0, .f32Finite, .field (R.ceLsafeuV) 1⟩
  , ⟨0x2000, 64, 0x1C, 1, .u8, .rw, fun _ => .num 0, .ints [(0, 1, 1)], .field (R.ceLctrlManual) 1⟩
  , ⟨0x2000, 64, 0x1D, 1, .f32, .rw, fun _ => .num 0, .f32Finite, .field (R.ceLmanuV) 1⟩
  , ⟨0x2000, 64, 0x1E, 1, .u8, .rwk, fun _ => .num 0, .ints [(0, 1, 1)], .field (R.ceLctrlFfEn) 1⟩
  , ⟨0x2000, 64, 0x1F, 1, .f32, .rwk, fun _ => .num 0, .f32Finite, .field (R.ceLiinitV) 1⟩
  , ⟨0x2000, 64, 0x20, 1, .u32, .ro, fun _ => .num 0, .any, .words (R.ceLstat) 1⟩
  , ⟨0x2000, 64, 0x21, 1, .blob, .ro, fun _ => .bytes [], .len 28 28 1, .words (R.ceLexec) 7⟩
  , ⟨0x2000, 64, 0x22, 1, .u16, .rwk, fun _ => .num 10, .any, .own⟩ ]

def objs20 : List ObjDef := objs20p0 ++ objs20p1

/-- Objects of indices 0x2100 to 0x21FF, part 0. -/
def objs21p0 : List ObjDef :=
  [ ⟨0x2100, 48, 0x01, 1, .u8, .rwk, fun _ => .num 0, .ints [(0, 3, 1)], .field (R.sdCctrlMode) 1⟩
  , ⟨0x2100, 48, 0x02, 1, .u8, .rwk, fun _ => .num 0, .ints [(0, 1, 1)], .field (R.sdCctrlPair) 1⟩
  , ⟨0x2100, 48, 0x03, 1, .f32, .rwk, fun _ => .num 1056964608, .f32 1056964608 1098907648, .scaled (R.sdCcurPeak) 1 32⟩
  , ⟨0x2100, 48, 0x04, 1, .u16, .rwk, fun _ => .num 0, .ints [(0, 50000, 100)], .field (R.sdCtimeDwell) 100⟩
  , ⟨0x2100, 48, 0x05, 1, .f32, .rwk, fun _ => .num 1038090240, .f32 1038090240 1090519040, .scaled (R.sdCcurHold) 1 64⟩
  , ⟨0x2100, 48, 0x06, 1, .f32, .rwk, fun _ => .num 0, .f32 0 1090519040, .scaled (R.sdCrangeHmin) 1 64⟩
  , ⟨0x2100, 48, 0x07, 1, .f32, .rwk, fun _ => .num 1082130432, .f32 0 1090519040, .scaled (R.sdCrangeHmax) 1 64⟩
  , ⟨0x2100, 48, 0x08, 1, .u8, .rwk, fun _ => .num 0, .ints [(0, 1, 1)], .field (R.sdCctrlChop) 1⟩
  , ⟨0x2100, 48, 0x09, 1, .u32, .rwk, fun _ => .num 20000, .ints [(4000, 40000, 100)], .field (R.sdCchopFreq) 100⟩
  , ⟨0x2100, 48, 0x0A, 1, .f32, .rwk, fun _ => .num 1023410176, .f32 1006632960 1048051712, .scaled (R.sdCchopBand) 1 128⟩
  , ⟨0x2100, 48, 0x0B, 1, .f32, .rwk, fun _ => .num 0, .f32 0 1065353216, .scaled (R.sdCdithAmp) 1 64⟩
  , ⟨0x2100, 48, 0x0C, 1, .u16, .rwk, fun _ => .num 0, .ints [(0, 0, 1), (50, 500, 1)], .field (R.sdCdithDfreq) 1⟩
  , ⟨0x2100, 48, 0x0D, 1, .u32, .rwk, fun _ => .num 10000, .ints [(10000, 100000, 10)], .field (R.sdCpwmPeriod) 10⟩
  , ⟨0x2100, 48, 0x0E, 1, .u16, .rw, fun _ => .num 0, .ints [(0, 1000, 1)], .field (R.sdCdutyDuty) 1⟩
  , ⟨0x2100, 48, 0x0F, 1, .u32, .rwk, fun _ => .num 0, .ints [(0, 99990, 10)], .field (R.sdCpwmPhase) 10⟩
  , ⟨0x2100, 48, 0x10, 1, .u8, .rwk, fun _ => .num 0, .ints [(0, 1, 1)], .field (R.sdCctrlStagger) 1⟩
  , ⟨0x2100, 48, 0x11, 1, .u16, .rwk, fun _ => .num 0, .any, .field (R.sdCtpkTpkMin) 1⟩
  , ⟨0x2100, 48, 0x12, 1, .u16, .rwk, fun _ => .num 65535, .any, .field (R.sdCtpkTpkMax) 1⟩
  , ⟨0x2100, 48, 0x13, 1, .u8, .rwk, fun _ => .num 0, .ints [(0, 1, 1)], .field (R.sdCctrlDipEn) 1⟩
  , ⟨0x2100, 48, 0x14, 1, .f32, .rwk, fun _ => .num 1031798784, .f32 1015021568 1065091072, .scaled (R.sdCdiagcfgDipMin) 1 64⟩ ]

/-- Objects of indices 0x2100 to 0x21FF, part 1. -/
def objs21p1 : List ObjDef :=
  [ ⟨0x2100, 48, 0x15, 1, .u16, .rwk, fun _ => .num 1000, .ints [(0, 5000, 10)], .field (R.sdCtimeMaxwait) 10⟩
  , ⟨0x2100, 48, 0x16, 1, .u8, .rwk, fun _ => .num 0, .ints [(0, 2, 1)], .field (R.sdCctrlFail) 1⟩
  , ⟨0x2100, 48, 0x17, 1, .f32, .rwk, fun _ => .num 0, .f32 0 1098907648, .special⟩
  , ⟨0x2100, 48, 0x18, 1, .u8, .rw, fun _ => .num 0, .ints [(0, 1, 1)], .special⟩
  , ⟨0x2100, 48, 0x19, 1, .u8, .rwk, fun _ => .num 0, .ints [(0, 1, 1)], .field (R.sdCctrlPeakEn) 1⟩
  , ⟨0x2100, 48, 0x1A, 1, .u32, .ro, fun _ => .num 0, .any, .words (R.sdCstat) 1⟩
  , ⟨0x2100, 48, 0x1B, 1, .u32, .ro, fun _ => .num 0, .any, .words (R.sdCdiag) 1⟩
  , ⟨0x2100, 48, 0x1C, 1, .blob, .ro, fun _ => .bytes [], .len 8 8 1, .words (R.sdCmeas) 2⟩
  , ⟨0x2100, 48, 0x1D, 1, .blob, .ro, fun _ => .bytes [], .len 16 16 1, .words (R.sdCpullins) 4⟩
  , ⟨0x2100, 48, 0x1E, 1, .u8, .wo, fun _ => .num 0, .ints [(1, 1, 1)], .special⟩
  , ⟨0x2180, 12, 0x01, 1, .u8, .rw, fun _ => .num 0, .ints [(0, 1, 1)], .special⟩
  , ⟨0x2180, 12, 0x02, 1, .u8, .rwk, fun _ => .num 0, .ints [(0, 1, 1)], .field (R.sdBctrlOvr) 1⟩
  , ⟨0x2180, 12, 0x03, 1, .u16, .rwk, fun _ => .num 100, .ints [(0, 500, 1)], .field (R.sdBholdHoldMs) 1⟩
  , ⟨0x2180, 12, 0x04, 1, .u8, .wo, fun _ => .num 0, .ints [(1, 1, 1)], .special⟩
  , ⟨0x2180, 12, 0x05, 1, .u8, .wo, fun _ => .num 0, .ints [(1, 1, 1)], .special⟩
  , ⟨0x2180, 12, 0x06, 1, .u32, .ro, fun _ => .num 0, .any, .words (R.sdBstat) 1⟩
  , ⟨0x2180, 12, 0x07, 1, .u16, .ro, fun _ => .num 0, .any, .field (R.sdBenergyBucket) 1⟩
  , ⟨0x2180, 12, 0x08, 1, .f32, .ro, fun _ => .num 0, .any, .scaled (R.sdBmeasIbank) 1 1000⟩
  , ⟨0x2180, 12, 0x09, 1, .f32, .ro, fun _ => .num 0, .any, .scaled (R.sdBmeasVbank) 1 100⟩ ]

def objs21 : List ObjDef := objs21p0 ++ objs21p1

/-- Objects of indices 0x2200 to 0x22FF, part 0. -/
def objs22p0 : List ObjDef :=
  [ ⟨0x2200, 32, 0x01, 1, .u8, .rwk, fun _ => .num 0, .ints [(0, 3, 1)], .field (R.lsCctrlMode) 1⟩
  , ⟨0x2200, 32, 0x02, 1, .u8, .rw, fun _ => .num 0, .ints [(0, 1, 1)], .special⟩
  , ⟨0x2200, 32, 0x03, 1, .u16, .rwk, fun _ => .num 20, .ints [(0, 200, 1)], .field (R.lsCinrInrush) 1⟩
  , ⟨0x2200, 32, 0x04, 1, .u8, .rwk, fun _ => .num 3, .ints [(0, 15, 1)], .field (R.lsCinrRetry) 1⟩
  , ⟨0x2200, 32, 0x05, 1, .u8, .rwk, fun _ => .num 0, .ints [(0, 1, 1)], .field (R.lsCctrlInduct) 1⟩
  , ⟨0x2200, 32, 0x06, 1, .u32, .rwk, fun _ => .num 10000, .ints [(1000, 20000, 10)], .field (R.lsCpwmPeriod) 10⟩
  , ⟨0x2200, 32, 0x07, 1, .u32, .rwk, fun _ => .num 0, .ints [(0, 19990, 10)], .field (R.lsCpwmPhase) 10⟩
  , ⟨0x2200, 32, 0x08, 1, .f32, .rw, fun _ => .num 0, .f32 0 1065353216, .scaled (R.lsCdutyDuty) 1 4000⟩
  , ⟨0x2200, 32, 0x09, 1, .f32, .rwk, fun _ => .num 1036831949, .f32 0 1065353216, .scaled (R.lsCsoftSsStart) 1 4000⟩
  , ⟨0x2200, 32, 0x0A, 1, .u16, .rwk, fun _ => .num 200, .ints [(10, 2000, 1)], .field (R.lsCsoftSsTime) 1⟩
  , ⟨0x2200, 32, 0x0B, 1, .f32, .rwk, fun _ => .num 1028443341, .f32 1008981770 1073741824, .scaled (R.lsColOlTh) 1 100⟩
  , ⟨0x2200, 32, 0x0C, 1, .u8, .rwk, fun _ => .num 0, .ints [(0, 1, 1)], .field (R.lsCctrlOldEn) 1⟩
  , ⟨0x2200, 32, 0x0D, 1, .u8, .rwk, fun _ => .num 0, .ints [(0, 2, 1)], .field (R.lsCctrlFail) 1⟩
  , ⟨0x2200, 32, 0x0E, 1, .f32, .rwk, fun _ => .num 0, .f32 0 1065353216, .scaled (R.lsCfailvValue) 1 4000⟩
  , ⟨0x2200, 32, 0x0F, 1, .u32, .ro, fun _ => .num 0, .any, .words (R.lsCstat) 1⟩
  , ⟨0x2200, 32, 0x10, 1, .u32, .ro, fun _ => .num 0, .any, .words (R.lsCdiag) 1⟩
  , ⟨0x2200, 32, 0x11, 1, .blob, .ro, fun _ => .bytes [], .len 8 8 1, .words (R.lsCmeas) 2⟩
  , ⟨0x2200, 32, 0x12, 1, .f32, .ro, fun _ => .num 0, .any, .scaled (R.lsCenergyBucket) 1 10⟩
  , ⟨0x2200, 32, 0x13, 1, .blob, .ro, fun _ => .bytes [], .len 16 16 1, .words (R.lsCswitchons) 4⟩
  , ⟨0x2200, 32, 0x14, 1, .u8, .wo, fun _ => .num 0, .ints [(1, 1, 1)], .special⟩ ]

/-- Objects of indices 0x2200 to 0x22FF, part 1. -/
def objs22p1 : List ObjDef :=
  [ ⟨0x2200, 32, 0x15, 1, .u8, .wo, fun _ => .num 0, .ints [(1, 1, 1)], .special⟩
  , ⟨0x2280, 8, 0x01, 1, .u8, .rw, fun _ => .num 0, .ints [(0, 1, 1)], .special⟩
  , ⟨0x2280, 8, 0x02, 1, .u16, .rwk, fun _ => .num 100, .ints [(0, 500, 1)], .field (R.lsGholdHoldMs) 1⟩
  , ⟨0x2280, 8, 0x03, 1, .u32, .ro, fun _ => .num 0, .any, .words (R.lsGstat) 1⟩
  , ⟨0x2280, 8, 0x04, 1, .f32, .ro, fun _ => .num 0, .any, .special⟩
  , ⟨0x2280, 8, 0x05, 1, .f32, .ro, fun _ => .num 0, .any, .scaled (R.lsGmeasVgrp) 1 100⟩
  , ⟨0x2280, 8, 0x06, 1, .f32, .ro, fun _ => .num 0, .any, .scaled (R.lsGmeasIgrp) 1 100⟩ ]

def objs22 : List ObjDef := objs22p0 ++ objs22p1

/-- Objects of indices 0x2300 to 0x23FF, part 0. -/
def objs23p0 : List ObjDef :=
  [ ⟨0x2300, 48, 0x01, 1, .u8, .rwk, fun _ => .num 0, .ints [(0, 6, 1)], .field (R.siAicfgMode) 1⟩
  , ⟨0x2300, 48, 0x02, 1, .u32, .rwk, fun _ => .num 1000, .ints [(50, 1000000, 50)], .field (R.siAicfgPer) 50⟩
  , ⟨0x2300, 48, 0x03, 1, .u8, .rwk, fun _ => .num 0, .ints [(0, 6, 1)], .field (R.siAicfgOsr) 1⟩
  , ⟨0x2300, 48, 0x04, 1, .u16, .rwk, fun _ => .num 0, .ints [(0, 10000, 1)], .field (R.siAitauTau) 1⟩
  , ⟨0x2300, 48, 0x05, 1, .u8, .rwk, fun _ => .num 0, .ints [(0, 3, 1)], .field (R.siAicfgRsup) 1⟩
  , ⟨0x2300, 48, 0x06, 1, .f32, .ro, fun _ => .num 0, .any, .field (R.siAivalVal) 1⟩
  , ⟨0x2300, 48, 0x07, 1, .u32, .ro, fun _ => .num 0, .any, .words (R.siAistat) 1⟩
  , ⟨0x2300, 48, 0x08, 1, .u8, .wo, fun _ => .num 0, .ints [(1, 1, 1)], .special⟩
  , ⟨0x2340, 24, 0x01, 1, .u8, .rwk, fun _ => .num 0, .ints [(0, 4, 1)], .field (R.siPicfgMode) 1⟩
  , ⟨0x2340, 24, 0x02, 1, .u8, .rwk, fun _ => .num 0, .ints [(0, 2, 1)], .field (R.siPicfgPull) 1⟩
  , ⟨0x2340, 24, 0x03, 1, .u8, .rwk, fun _ => .num 0, .ints [(0, 1, 1)], .field (R.siPicfgEdge) 1⟩
  , ⟨0x2340, 24, 0x04, 1, .u16, .rwk, fun _ => .num 0, .ints [(0, 25500, 100)], .field (R.siPicfgGlitch) 100⟩
  , ⟨0x2340, 24, 0x05, 1, .u32, .rwk, fun _ => .num 10000, .ints [(100, 1000000, 100)], .field (R.siPicfgPub) 100⟩
  , ⟨0x2340, 24, 0x06, 1, .f32, .rwk, fun _ => .num 1077936128, .f32 1056964608 1103888384, .scaled (R.siPithrThi) 1 10⟩
  , ⟨0x2340, 24, 0x07, 1, .f32, .rwk, fun _ => .num 1069547520, .f32 1050253722 1103835955, .scaled (R.siPithrTlo) 1 10⟩
  , ⟨0x2340, 24, 0x08, 1, .u16, .rwk, fun _ => .num 2000, .ints [(10, 20000, 1)], .field (R.siPitoZto) 1⟩
  , ⟨0x2340, 24, 0x09, 1, .f32, .ro, fun _ => .num 0, .any, .field (R.siPivalVal) 1⟩
  , ⟨0x2340, 24, 0x0A, 1, .i64, .ro, fun _ => .num 0, .any, .special⟩
  , ⟨0x2340, 24, 0x0B, 1, .u32, .ro, fun _ => .num 0, .any, .words (R.siPistat) 1⟩
  , ⟨0x2360, 4, 0x01, 1, .u8, .rwk, fun _ => .num 0, .ints [(0, 1, 1)], .field (R.siBicfgEn) 1⟩ ]

/-- Objects of indices 0x2300 to 0x23FF, part 1. -/
def objs23p1 : List ObjDef :=
  [ ⟨0x2360, 4, 0x02, 1, .u8, .rwk, fun _ => .num 0, .ints [(0, 0, 1), (1, 1, 1)], .field (R.siBicfgExc) 1⟩
  , ⟨0x2360, 4, 0x03, 1, .u8, .rwk, fun _ => .num 128, .ints [(1, 1, 1), (2, 2, 1), (4, 4, 1), (8, 8, 1), (16, 16, 1), (32, 32, 1), (64, 64, 1), (128, 128, 1)], .pow2 (R.siBicfgGain)⟩
  , ⟨0x2360, 4, 0x04, 1, .u16, .rwk, fun _ => .num 1000, .ints [(10, 4000, 1)], .field (R.siBicfgRate) 1⟩
  , ⟨0x2360, 4, 0x05, 1, .f32, .ro, fun _ => .num 0, .any, .field (R.siBivalVal) 1⟩
  , ⟨0x2360, 4, 0x06, 1, .u32, .ro, fun _ => .num 0, .any, .words (R.siBistat) 1⟩
  , ⟨0x2370, 8, 0x01, 1, .u8, .rwk, fun _ => .num 0, .ints [(0, 1, 1)], .field (R.siLicfgEn) 1⟩
  , ⟨0x2370, 8, 0x02, 1, .u8, .rwk, fun _ => .num 0, .ints [(0, 1, 1)], .field (R.siLicfgRange) 1⟩
  , ⟨0x2370, 8, 0x03, 1, .u8, .rwk, fun _ => .num 20, .ints [(5, 100, 1)], .field (R.siLicfgHoldoff) 1⟩
  , ⟨0x2370, 8, 0x04, 1, .u16, .rwk, fun _ => .num 100, .ints [(10, 1000, 1)], .field (R.siLicfgInterval) 1⟩
  , ⟨0x2370, 8, 0x05, 1, .u16, .rwk, fun _ => .num 128, .ints [(0, 4095, 1)], .field (R.siLitrigTrig) 1⟩
  , ⟨0x2370, 8, 0x06, 1, .blob, .rwk, fun _ => .bytes ((List.range 15).flatMap fun j => [0, BitVec.ofNat 8 (j + 1)]), .len 30 30 1, .special⟩
  , ⟨0x2370, 8, 0x07, 1, .f32, .ro, fun _ => .num 0, .any, .field (R.siLirateRate) 1⟩
  , ⟨0x2370, 8, 0x08, 1, .blob, .ro, fun _ => .bytes [], .len 36 36 1, .special⟩
  , ⟨0x2380, 1, 0x01, 1, .u8, .rwk, fun _ => .num 1, .ints [(0, 1, 1)], .field (fun _ => R.siImucfgEn) 1⟩
  , ⟨0x2380, 1, 0x02, 1, .u8, .rwk, fun _ => .num 2, .ints [(0, 3, 1)], .field (fun _ => R.siImucfgArange) 1⟩
  , ⟨0x2380, 1, 0x03, 1, .u8, .rwk, fun _ => .num 2, .ints [(0, 3, 1)], .field (fun _ => R.siImucfgGrange) 1⟩
  , ⟨0x2380, 1, 0x04, 1, .u32, .ro, fun _ => .num 0, .any, .words (fun _ => R.siImustat) 1⟩
  , ⟨0x2390, 1, 0x01, 1, .u8, .rwk, fun _ => .num 4, .ints [(1, 16, 1)], .field (fun _ => R.siStopcfgFilt) 1⟩
  , ⟨0x2390, 1, 0x02, 1, .u16, .rwk, fun _ => .num 100, .ints [(0, 1000, 10)], .field (fun _ => R.siStopcfgRel) 10⟩
  , ⟨0x2390, 1, 0x03, 1, .u16, .rwk, fun _ => .num 500, .ints [(10, 5000, 1)], .field (fun _ => R.siStopcfgDiscMs) 1⟩ ]

/-- Objects of indices 0x2300 to 0x23FF, part 2. -/
def objs23p2 : List ObjDef :=
  [ ⟨0x2390, 1, 0x04, 1, .u8, .rw, fun _ => .num 0, .ints [(0, 1, 1)], .special⟩
  , ⟨0x2390, 1, 0x05, 1, .u8, .wo, fun _ => .num 0, .ints [(1, 1, 1)], .special⟩
  , ⟨0x2390, 1, 0x06, 1, .u32, .ro, fun _ => .num 0, .any, .words (fun _ => R.siStop) 1⟩
  , ⟨0x2398, 4, 0x01, 1, .u8, .rwk, fun _ => .num 1, .ints [(0, 1, 1)], .special⟩
  , ⟨0x2398, 4, 0x02, 1, .u8, .wo, fun _ => .num 0, .ints [(1, 1, 1)], .special⟩
  , ⟨0x2398, 4, 0x03, 1, .f32, .ro, fun _ => .num 0, .any, .scaled (R.siSpmeasV) 1 1000⟩
  , ⟨0x2398, 4, 0x04, 1, .f32, .ro, fun _ => .num 0, .any, .scaled (R.siSpmeasI) 1 1000⟩ ]

def objs23 : List ObjDef := objs23p0 ++ objs23p1 ++ objs23p2

/-- Objects of indices 0x2400 to 0x24FF, part 0. -/
def objs24p0 : List ObjDef :=
  [ ⟨0x2400, 1, 0x01, 1, .u8, .rwk, fun _ => .num 1, .ints [(0, 1, 1)], .own⟩
  , ⟨0x2400, 1, 0x02, 1, .f64, .rwk, fun _ => .num 0, .f64 13859405640767635456 4636033603912859648, .own⟩
  , ⟨0x2400, 1, 0x03, 1, .f64, .rwk, fun _ => .num 0, .f64 13863909240395005952 4640537203540230144, .own⟩
  , ⟨0x2400, 1, 0x04, 1, .f64, .rwk, fun _ => .num 0, .f64 13870875746068594688 4666173416653455360, .own⟩
  , ⟨0x2400, 1, 0x05, 1, .f32, .rwk, fun _ => .num 1008981770, .f32 0 1028443341, .own⟩
  , ⟨0x2400, 1, 0x06, 1, .f32, .rwk, fun _ => .num 1045220557, .f32 0 1073741824, .own⟩
  , ⟨0x2400, 1, 0x07, 1, .u16, .rwk, fun _ => .num 128, .ints [(0, 256, 1)], .own⟩
  , ⟨0x2400, 1, 0x08, 1, .u32, .ro, fun _ => .num 0, .any, .words (fun _ => R.fuStat) 1⟩
  , ⟨0x2410, 64, 0x01, 1, .u8, .rwk, fun _ => .num 0, .ints [(0, 17, 1)], .own⟩
  , ⟨0x2410, 64, 0x02, 1, .f32, .rwk, fun _ => .num 1082130432, .f32 1065353216 1092616192, .own⟩
  , ⟨0x2410, 64, 0x03, 1, .u8, .rwk, fun _ => .num 5, .ints [(1, 32, 1)], .own⟩
  , ⟨0x2410, 64, 0x04, 1, .u8, .rwk, fun _ => .num 10, .ints [(1, 32, 1)], .own⟩
  , ⟨0x2410, 64, 0x05, 1, .u8, .rwk, fun _ => .num 20, .ints [(1, 255, 1)], .own⟩
  , ⟨0x2410, 64, 0x06, 1, .f32, .rwk, fun _ => .num 1056964608, .f32 0 1065353216, .own⟩
  , ⟨0x2410, 64, 0x07, 1, .f32, .rwk, fun _ => .num 1065353216, .f32Pos, .own⟩
  , ⟨0x2410, 64, 0x08, 1, .blob, .rwk, fun _ => .bytes (List.replicate 12 0), .len 12 12 1, .own⟩
  , ⟨0x2410, 64, 0x09, 1, .blob, .rwk, fun _ => .bytes (List.replicate 12 0), .len 12 12 1, .own⟩
  , ⟨0x2410, 64, 0x0A, 1, .u8, .rwk, fun _ => .num 1, .ints [(0, 1, 1)], .own⟩
  , ⟨0x2410, 64, 0x0B, 1, .blob, .rwk, fun _ => .bytes (List.replicate 24 0), .len 24 24 1, .own⟩
  , ⟨0x2410, 64, 0x0C, 1, .blob, .rwk, fun _ => .bytes [], .len 0 72 1, .own⟩ ]

/-- Objects of indices 0x2400 to 0x24FF, part 1. -/
def objs24p1 : List ObjDef :=
  [ ⟨0x2410, 64, 0x0D, 1, .u32, .ro, fun _ => .num 0, .any, .words (R.fuSstat) 1⟩
  , ⟨0x2410, 64, 0x0E, 1, .blob, .ro, fun _ => .bytes [], .len 16 16 1, .words (R.fuSlate) 4⟩
  , ⟨0x2410, 64, 0x0F, 1, .u32, .ro, fun _ => .num 0, .any, .special⟩
  , ⟨0x2480, 11, 0x01, 1, .u32, .rwk, fun q => .num ([100000, 100000, 30000, 20000, 20000, 20000, 2000, 2000, 2000, 1000, 100000].getD q 0), .any, .own⟩
  , ⟨0x2480, 11, 0x02, 1, .u32, .rwk, fun q => .num ([4000, 4000, 45000, 50000, 50000, 50000, 600000, 600000, 600000, 900000, 4000].getD q 0), .ints [(2000, 4294967290, 10)], .own⟩
  , ⟨0x2480, 11, 0x03, 1, .u32, .ro, fun q => .num ([200000, 200000, 200000, 2000000, 2000000, 2000000, 10000000, 10000000, 10000000, 10000000, 200000].getD q 0), .any, .fixed⟩
  , ⟨0x2480, 11, 0x04, 1, .u32, .rwk, fun q => .num ([5000, 5000, 5000, 10000, 10000, 10000, 10000, 10000, 10000, 10000, 5000].getD q 0), .ints [(100, 60000, 1)], .own⟩
  , ⟨0x2480, 11, 0x05, 1, .f32, .rwk, fun q => .num ([1036831949, 1028443341, 1028443341, 1056964608, 1060320051, 1056964608, 1017370378, 1017370378, 1036831949, 1000593162, 1017370378].getD q 0), .f32Pos, .own⟩
  , ⟨0x2480, 11, 0x06, 1, .f32, .rwk, fun q => .num ([0, 0, 1008981770, 1028443341, 1036831949, 1008981770, 953267991, 953267991, 981668463, 897988541, 1008981770].getD q 0), .f32Nonneg, .own⟩
  , ⟨0x2480, 11, 0x07, 1, .u8, .rwk, fun _ => .num 5, .ints [(1, 32, 1)], .own⟩
  , ⟨0x2480, 11, 0x08, 1, .u8, .rwk, fun _ => .num 10, .ints [(1, 32, 1)], .own⟩
  , ⟨0x2480, 11, 0x09, 1, .u32, .ro, fun _ => .num 0, .any, .words (R.fuQtstat) 1⟩
  , ⟨0x2480, 11, 0x0A, 1, .u16, .ro, fun _ => .num 0, .any, .field (R.fuQtstatConf) 1⟩
  , ⟨0x2480, 11, 0x0B, 1, .blob, .ro, fun _ => .bytes [], .len 12 12 1, .words (R.fuQtpubs) 3⟩
  , ⟨0x2480, 11, 0x0C, 1, .u8, .wo, fun _ => .num 0, .ints [(1, 1, 1)], .special⟩ ]

def objs24 : List ObjDef := objs24p0 ++ objs24p1

/-- Objects of indices 0x2500 to 0x25FF, part 0. -/
def objs25p0 : List ObjDef :=
  [ ⟨0x2500, 4, 0x01, 1, .u8, .rw, fun _ => .num 0, .ints [(0, 1, 1)], .special⟩
  , ⟨0x2500, 4, 0x02, 1, .u8, .rwk, fun _ => .num 0, .ints [(0, 1, 1)], .field (R.camPctrlSrc) 1⟩
  , ⟨0x2500, 4, 0x03, 1, .u8, .rwk, fun _ => .num 0, .ints [(0, 1, 1)], .special⟩
  , ⟨0x2500, 4, 0x04, 1, .u8, .rwk, fun _ => .num 12, .ints [(10, 10, 1), (12, 12, 1), (14, 14, 1), (16, 16, 1)], .special⟩
  , ⟨0x2500, 4, 0x05, 1, .u8, .rwk, fun _ => .num 1, .ints [(1, 3, 1)], .field (R.camPctrlNexp) 1⟩
  , ⟨0x2500, 4, 0x06, 1, .u32, .rwk, fun _ => .num 131328, .any, .special⟩
  , ⟨0x2500, 4, 0x07, 1, .u8, .rwk, fun _ => .num 0, .ints [(0, 2, 1)], .field (R.camPctrlCfa) 1⟩
  , ⟨0x2500, 4, 0x08, 1, .u16, .rwk, fun _ => .num 1920, .ints [(64, 4096, 2)], .field (R.camPsizeW) 1⟩
  , ⟨0x2500, 4, 0x09, 1, .u16, .rwk, fun _ => .num 1080, .ints [(64, 4096, 2)], .field (R.camPsizeH) 1⟩
  , ⟨0x2500, 4, 0x0A, 1, .u32, .rwk, fun _ => .num 30000, .ints [(1000, 1000000, 1)], .field (R.camPrateRate) 1⟩
  , ⟨0x2500, 4, 0x0B, 1, .u16, .rwk, fun _ => .num 0, .any, .field (R.camPtsLat) 1⟩
  , ⟨0x2500, 4, 0x0C, 1, .u8, .rwk, fun _ => .num 0, .ints [(0, 1, 1)], .field (R.camPctrlFsync) 1⟩
  , ⟨0x2500, 4, 0x0D, 1, .u16, .rwk, fun _ => .num 0, .any, .field (R.camPtsPhase) 1⟩
  , ⟨0x2500, 4, 0x0E, 1, .blob, .rwk, fun _ => .bytes camParamDefault, .len 43456 43456 1, .special⟩
  , ⟨0x2500, 4, 0x0F, 1, .u8, .rwk, fun _ => .num 0, .ints [(0, 4, 1)], .field (R.camPfeatKind) 1⟩
  , ⟨0x2500, 4, 0x10, 1, .blob, .rwk, fun _ => .bytes (List.replicate 24 0), .len 24 24 1, .own⟩
  , ⟨0x2500, 4, 0x11, 1, .u8, .rwk, fun _ => .num 0, .ints [(0, 3, 1)], .special⟩
  , ⟨0x2500, 4, 0x12, 1, .u8, .rwk, fun _ => .num 0, .ints [(0, 2, 1)], .special⟩
  , ⟨0x2500, 4, 0x13, 1, .u8, .rwk, fun _ => .num 0, .ints [(0, 0, 1), (1, 1, 1), (2, 2, 1), (4, 4, 1), (8, 8, 1)], .special⟩
  , ⟨0x2500, 4, 0x14, 1, .u8, .rwk, fun _ => .num 4, .ints [(2, 16, 1)], .special⟩ ]

/-- Objects of indices 0x2500 to 0x25FF, part 1. -/
def objs25p1 : List ObjDef :=
  [ ⟨0x2500, 4, 0x15, 1, .u8, .rwk, fun _ => .num 0, .ints [(0, 1, 1)], .special⟩
  , ⟨0x2500, 4, 0x16, 1, .u8, .rwk, fun _ => .num 0, .ints [(0, 3, 1)], .special⟩
  , ⟨0x2500, 4, 0x17, 1, .u8, .rwk, fun _ => .num 0, .ints [(0, 2, 1)], .special⟩
  , ⟨0x2500, 4, 0x18, 1, .u8, .rwk, fun _ => .num 0, .ints [(0, 0, 1), (1, 1, 1), (2, 2, 1), (4, 4, 1), (8, 8, 1)], .special⟩
  , ⟨0x2500, 4, 0x19, 1, .u8, .rwk, fun _ => .num 4, .ints [(2, 16, 1)], .special⟩
  , ⟨0x2500, 4, 0x1A, 1, .u8, .rwk, fun _ => .num 0, .ints [(0, 1, 1)], .special⟩
  , ⟨0x2500, 4, 0x1B, 1, .u8, .rwk, fun _ => .num 0, .ints [(0, 1, 1)], .special⟩
  , ⟨0x2500, 4, 0x1C, 1, .u8, .rwk, fun _ => .num 4, .ints [(2, 16, 1)], .special⟩
  , ⟨0x2500, 4, 0x1D, 3, .u64, .ro, fun _ => .num 0, .any, .special⟩
  , ⟨0x2500, 4, 0x20, 1, .u32, .ro, fun _ => .num 0, .any, .words (R.camPstat) 1⟩
  , ⟨0x2500, 4, 0x21, 1, .blob, .ro, fun _ => .bytes [], .len 24 24 1, .words (R.camPframes) 6⟩
  , ⟨0x2500, 4, 0x22, 1, .u64, .rw, fun _ => .num 0, .any, .special⟩
  , ⟨0x2500, 4, 0x23, 1, .u8, .rw, fun _ => .num 0, .ints [(1, 16, 1)], .field (R.camPrplnRpln) 1⟩
  , ⟨0x2510, 1, 0x01, 1, .f32, .ro, fun _ => .num 0, .any, .scaled (fun _ => R.camStatBudget) 1 10⟩
  , ⟨0x2510, 1, 0x02, 1, .u8, .ro, fun _ => .num 0, .any, .field (fun _ => R.camStatDamp) 1⟩ ]

def objs25 : List ObjDef := objs25p0 ++ objs25p1

/-- Objects of indices 0x2600 to 0x26FF, part 0. -/
def objs26p0 : List ObjDef :=
  [ ⟨0x2600, 1, 0x01, 1, .u8, .rwk, fun _ => .num 1, .ints [(0, 1, 1)], .own⟩
  , ⟨0x2600, 1, 0x02, 1, .u8, .rwk, fun _ => .num 1, .ints [(0, 1, 1)], .field (fun _ => R.gnCtrlBias) 1⟩
  , ⟨0x2600, 1, 0x03, 1, .u8, .rwk, fun _ => .num 63, .ints [(0, 63, 1)], .own⟩
  , ⟨0x2600, 1, 0x04, 1, .f32, .rwk, fun _ => .num 1092616192, .f32 0 1114636288, .own⟩
  , ⟨0x2600, 1, 0x05, 1, .u8, .rwk, fun _ => .num 20, .ints [(1, 1, 1), (2, 2, 1), (5, 5, 1), (10, 10, 1), (20, 20, 1)], .special⟩
  , ⟨0x2600, 1, 0x06, 1, .u8, .rwk, fun _ => .num 2, .ints [(0, 2, 1)], .own⟩
  , ⟨0x2600, 1, 0x07, 1, .u8, .rwk, fun _ => .num 0, .ints [(0, 3, 1)], .own⟩
  , ⟨0x2600, 1, 0x08, 1, .u8, .rwk, fun _ => .num 0, .ints [(0, 5, 1)], .own⟩
  , ⟨0x2600, 1, 0x09, 1, .u32, .rwk, fun _ => .num 1792, .any, .own⟩
  , ⟨0x2600, 1, 0x0A, 1, .u16, .rwk, fun _ => .num 10, .ints [(1, 60, 1)], .own⟩
  , ⟨0x2600, 1, 0x0B, 1, .f32, .rwk, fun _ => .num 1084227584, .f32 1077936128 1101004800, .own⟩
  , ⟨0x2600, 1, 0x0C, 1, .u16, .rwk, fun _ => .num 30, .ints [(5, 600, 1)], .own⟩
  , ⟨0x2600, 1, 0x0D, 1, .u32, .ro, fun _ => .num 0, .any, .words (fun _ => R.gnStat) 1⟩
  , ⟨0x2600, 1, 0x0E, 1, .u64, .ro, fun _ => .num 0, .any, .special⟩
  , ⟨0x2600, 1, 0x0F, 1, .blob, .ro, fun _ => .bytes [], .len 24 24 1, .special⟩
  , ⟨0x2600, 1, 0x10, 1, .blob, .ro, fun _ => .bytes [], .len 12 12 1, .special⟩
  , ⟨0x2600, 1, 0x11, 1, .u8, .wo, fun _ => .num 0, .ints [(1, 1, 1)], .special⟩
  , ⟨0x2680, 1, 0x01, 1, .u8, .ro, fun _ => .num 0, .any, .field (fun _ => R.gnTqState) 1⟩
  , ⟨0x2680, 1, 0x02, 1, .time64, .rw, fun _ => .num 0, .any, .special⟩
  , ⟨0x2680, 1, 0x03, 1, .u32, .ro, fun _ => .num 0, .any, .special⟩ ]

/-- Objects of indices 0x2600 to 0x26FF, part 1. -/
def objs26p1 : List ObjDef :=
  [ ⟨0x2680, 1, 0x04, 1, .u32, .rwk, fun _ => .num 600, .ints [(10, 86400, 1)], .own⟩
  , ⟨0x2680, 1, 0x05, 1, .i16, .rwk, fun _ => .num 37, .any, .own⟩
  , ⟨0x2680, 1, 0x06, 1, .i8, .ro, fun _ => .num 0, .any, .own⟩
  , ⟨0x2680, 1, 0x07, 1, .u32, .rwk, fun _ => .num 65537, .any, .words (fun _ => R.gnTpo0ctrl) 1⟩
  , ⟨0x2680, 1, 0x08, 1, .u32, .rwk, fun _ => .num 100000, .any, .words (fun _ => R.gnTpo0w) 1⟩
  , ⟨0x2680, 1, 0x09, 1, .u32, .rwk, fun _ => .num 65536, .any, .words (fun _ => R.gnTpo1ctrl) 1⟩
  , ⟨0x2680, 1, 0x0A, 1, .u32, .rwk, fun _ => .num 100000, .any, .words (fun _ => R.gnTpo1w) 1⟩
  , ⟨0x2680, 1, 0x0B, 1, .u8, .rwk, fun _ => .num 0, .ints [(0, 3, 1)], .words (fun _ => R.gnTpictrl) 1⟩
  , ⟨0x2680, 1, 0x0C, 1, .time64, .ro, fun _ => .num 0, .any, .special⟩
  , ⟨0x2680, 1, 0x0D, 1, .blob, .rwk, fun _ => .bytes (List.replicate 252 0), .len 252 252 1, .own⟩ ]

def objs26 : List ObjDef := objs26p0 ++ objs26p1

/-- Objects of indices 0x2700 to 0x27FF, part 0. -/
def objs27p0 : List ObjDef :=
  [ ⟨0x2700, 48, 0x01, 1, .u8, .rwk, fun _ => .num 0, .ints [(0, 5, 1)], .own⟩
  , ⟨0x2700, 48, 0x02, 1, .u16, .rwk, fun _ => .num 0, .any, .own⟩
  , ⟨0x2700, 48, 0x03, 1, .u8, .rwk, fun _ => .num 0, .any, .own⟩
  , ⟨0x2700, 48, 0x04, 1, .f32, .rwk, fun _ => .num 1065353216, .f32Nonzero, .own⟩
  , ⟨0x2700, 48, 0x05, 1, .f32, .rwk, fun _ => .num 0, .f32Finite, .own⟩
  , ⟨0x2700, 48, 0x06, 1, .f32, .rwk, fun _ => .num 0, .f32Finite, .own⟩
  , ⟨0x2700, 48, 0x07, 1, .f32, .rwk, fun _ => .num 0, .f32Finite, .own⟩
  , ⟨0x2700, 48, 0x08, 1, .f32, .rwk, fun _ => .num 0, .f32Nonneg, .own⟩
  , ⟨0x2700, 48, 0x09, 1, .f32, .rwk, fun _ => .num 0, .f32Nonneg, .own⟩
  , ⟨0x2700, 48, 0x0A, 1, .u16, .rwk, fun _ => .num 30, .ints [(5, 600, 1)], .own⟩
  , ⟨0x2700, 48, 0x0B, 1, .u16, .rwk, fun _ => .num 300, .ints [(0, 3600, 1)], .own⟩
  , ⟨0x2700, 48, 0x0C, 1, .u8, .rwk, fun _ => .num 0, .ints [(0, 48, 1)], .own⟩
  , ⟨0x2700, 48, 0x0D, 1, .string, .rwk, fun _ => .bytes [], .len 0 16 1, .own⟩
  , ⟨0x2700, 48, 0x0E, 1, .f32, .wo, fun _ => .num 0, .f32Finite, .special⟩
  , ⟨0x2700, 48, 0x0F, 1, .f32, .ro, fun _ => .num 0, .any, .special⟩
  , ⟨0x2700, 48, 0x10, 1, .u8, .ro, fun _ => .num 0, .any, .special⟩
  , ⟨0x2700, 48, 0x11, 1, .u16, .ro, fun _ => .num 0, .any, .special⟩
  , ⟨0x2700, 48, 0x12, 1, .blob, .ro, fun _ => .bytes [], .len 20 20 1, .special⟩
  , ⟨0x2700, 48, 0x13, 1, .i8, .ro, fun _ => .num 1, .any, .special⟩
  , ⟨0x2780, 1, 0x01, 1, .u8, .rw, fun _ => .num 0, .ints [(0, 1, 1)], .special⟩ ]

/-- Objects of indices 0x2700 to 0x27FF, part 1. -/
def objs27p1 : List ObjDef :=
  [ ⟨0x2780, 1, 0x02, 1, .f32, .rwk, fun _ => .num 1058642330, .f32 1058642330 1065353216, .own⟩
  , ⟨0x2780, 1, 0x03, 1, .u16, .rwk, fun _ => .num 20, .ints [(5, 120, 1)], .own⟩
  , ⟨0x2780, 1, 0x04, 1, .f32, .rwk, fun _ => .num 1041865114, .f32 1008981770 1065353216, .own⟩
  , ⟨0x2780, 1, 0x05, 1, .f32, .rwk, fun _ => .num 1065353216, .f32 1036831949 1120403456, .own⟩
  , ⟨0x2780, 1, 0x06, 1, .u16, .rwk, fun _ => .num 20, .ints [(5, 120, 1)], .own⟩
  , ⟨0x2780, 1, 0x07, 1, .f32, .rwk, fun _ => .num 1028443341, .f32Nonneg, .own⟩
  , ⟨0x2780, 1, 0x08, 1, .blob, .rwk, fun _ => .bytes [0, 0, 128, 63, 0, 0, 128, 63, 0, 0, 0, 0, 0, 0, 0, 64, 0, 0, 0, 63, 205, 204, 76, 61], .len 24 24 1, .own⟩
  , ⟨0x2780, 1, 0x09, 1, .blob, .rwk, fun _ => .bytes [0, 0, 128, 63, 0, 0, 128, 63, 0, 0, 32, 65, 0, 0, 0, 64, 0, 0, 0, 64], .len 20 20 1, .own⟩
  , ⟨0x2780, 1, 0x0A, 1, .u16, .rwk, fun _ => .num 10, .ints [(2, 60, 1)], .own⟩
  , ⟨0x2780, 1, 0x0B, 1, .u32, .ro, fun _ => .num 0, .any, .special⟩
  , ⟨0x2780, 1, 0x0C, 1, .blob, .ro, fun _ => .bytes [], .len 8 8 1, .special⟩
  , ⟨0x2780, 1, 0x10, 64, .blob, .rwk, fun _ => .bytes (List.replicate 16 0), .len 16 16 1, .own⟩
  , ⟨0x2780, 1, 0x50, 1, .blob, .ro, fun _ => .bytes [], .len 512 512 1, .special⟩ ]

def objs27 : List ObjDef := objs27p0 ++ objs27p1

/-- Objects of indices 0x2800 to 0x28FF, part 0. -/
def objs28p0 : List ObjDef :=
  [ ⟨0x2800, 1, 0x01, 1, .u8, .rwk, fun _ => .num 1, .ints [(0, 1, 1)], .own⟩
  , ⟨0x2800, 1, 0x02, 1, .u16, .rwk, fun _ => .num 1000, .ints [(500, 10000, 100)], .own⟩
  , ⟨0x2800, 1, 0x03, 1, .u16, .rwk, fun _ => .num 10, .ints [(1, 100, 1)], .own⟩
  , ⟨0x2800, 1, 0x04, 1, .f32, .rwk, fun _ => .num 1028443341, .f32 1008981770 1056964608, .own⟩
  , ⟨0x2800, 1, 0x05, 1, .f32, .rwk, fun _ => .num 0, .f32 0 1114636288, .own⟩
  , ⟨0x2800, 1, 0x06, 1, .f32, .rwk, fun _ => .num 1092616192, .f32 0 1114636288, .own⟩
  , ⟨0x2800, 1, 0x07, 1, .u8, .rwk, fun _ => .num 0, .ints [(0, 1, 1)], .own⟩
  , ⟨0x2800, 1, 0x08, 1, .u8, .rwk, fun _ => .num 0, .ints [(0, 1, 1)], .own⟩
  , ⟨0x2800, 1, 0x09, 1, .u32, .rw, fun _ => .num 0, .any, .special⟩
  , ⟨0x2800, 1, 0x0A, 1, .u8, .rw, fun _ => .num 0, .ints [(0, 1, 1)], .special⟩
  , ⟨0x2800, 1, 0x0B, 1, .u16, .ro, fun _ => .num 0, .any, .special⟩
  , ⟨0x2800, 1, 0x0C, 1, .u32, .wo, fun _ => .num 0, .any, .special⟩
  , ⟨0x2800, 1, 0x0D, 1, .u8, .ro, fun _ => .num 0, .any, .special⟩
  , ⟨0x2800, 1, 0x0E, 1, .u32, .wo, fun _ => .num 0, .any, .special⟩
  , ⟨0x2800, 1, 0x0F, 1, .blob, .ro, fun _ => .bytes [], .len 16 16 1, .special⟩
  , ⟨0x2800, 1, 0x10, 1, .u8, .rwk, fun _ => .num 1, .ints [(0, 1, 1)], .own⟩
  , ⟨0x2800, 1, 0x11, 1, .f32, .ro, fun _ => .num 0, .any, .special⟩
  , ⟨0x2800, 1, 0x20, 1, .u8, .rw, fun _ => .num 0, .ints [(0, 1, 1)], .own⟩
  , ⟨0x2800, 1, 0x21, 1, .u16, .rwk, fun _ => .num 5, .ints [(1, 50, 1)], .own⟩
  , ⟨0x2800, 1, 0x22, 1, .u16, .rwk, fun _ => .num 100, .ints [(10, 10000, 1)], .own⟩ ]

/-- Objects of indices 0x2800 to 0x28FF, part 1. -/
def objs28p1 : List ObjDef :=
  [ ⟨0x2800, 1, 0x23, 1, .f32, .rwk, fun _ => .num 1050253722, .f32 0 1065353216, .own⟩
  , ⟨0x2800, 1, 0x24, 1, .u8, .rwk, fun _ => .num 2, .ints [(0, 2, 1)], .own⟩
  , ⟨0x2800, 1, 0x25, 1, .u16, .rwk, fun _ => .num 10000, .ints [(0, 50000, 1)], .field (fun _ => R.ghLateLateMax) 1⟩
  , ⟨0x2800, 1, 0x26, 1, .u32, .ro, fun _ => .num 0, .any, .words (fun _ => R.ghStat) 1⟩
  , ⟨0x2800, 1, 0x27, 1, .blob, .ro, fun _ => .bytes [], .len 24 24 1, .words (fun _ => R.ghNexec) 6⟩
  , ⟨0x2880, 128, 0x01, 1, .u16, .rwk, fun _ => .num 0, .any, .own⟩
  , ⟨0x2880, 128, 0x02, 1, .u8, .rwk, fun _ => .num 0, .ints [(0, 2, 1)], .own⟩
  , ⟨0x2880, 128, 0x03, 1, .u8, .rwk, fun _ => .num 0, .ints [(0, 47, 1)], .own⟩
  , ⟨0x2880, 128, 0x04, 4, .f32, .rwk, fun _ => .num 0, .f32 3259498496 1112014848, .own⟩
  , ⟨0x2880, 128, 0x08, 1, .u32, .rwk, fun _ => .num 0, .ints [(0, 2000000, 1)], .own⟩
  , ⟨0x2880, 128, 0x09, 1, .u32, .rwk, fun _ => .num 0, .ints [(0, 2000000, 1)], .own⟩
  , ⟨0x2880, 128, 0x0A, 1, .u16, .rwk, fun _ => .num 1000, .ints [(100, 5000, 1)], .own⟩
  , ⟨0x2880, 128, 0x0B, 1, .u8, .rwk, fun _ => .num 0, .ints [(0, 16, 1)], .own⟩
  , ⟨0x2880, 128, 0x0C, 1, .u8, .rw, fun _ => .num 0, .ints [(0, 2, 1)], .special⟩
  , ⟨0x2880, 128, 0x0D, 1, .u8, .ro, fun _ => .num 0, .any, .special⟩
  , ⟨0x2880, 128, 0x0E, 1, .time64, .ro, fun _ => .num 0, .any, .special⟩
  , ⟨0x2880, 128, 0x0F, 1, .blob, .ro, fun _ => .bytes [], .len 12 12 1, .special⟩ ]

def objs28 : List ObjDef := objs28p0 ++ objs28p1

/-- Objects of indices 0x2900 to 0x29FF, part 0. -/
def objs29p0 : List ObjDef :=
  [ ⟨0x2900, 1, 0x01, 1, .u8, .rwk, fun _ => .num 1, .ints [(0, 1, 1)], .own⟩
  , ⟨0x2900, 1, 0x02, 1, .u8, .rw, fun _ => .num 0, .ints [(0, 1, 1)], .special⟩
  , ⟨0x2900, 1, 0x03, 1, .u8, .ro, fun _ => .num 0, .any, .special⟩
  , ⟨0x2900, 1, 0x04, 1, .u8, .rwk, fun _ => .num 0, .ints [(0, 4, 1)], .own⟩
  , ⟨0x2900, 1, 0x05, 1, .blob, .rwk, fun _ => .bytes [], .len 0 4096 1, .special⟩
  , ⟨0x2900, 1, 0x06, 1, .u8, .rwk, fun _ => .num 0, .ints [(0, 1, 1)], .own⟩
  , ⟨0x2900, 1, 0x07, 1, .f32, .rwk, fun _ => .num 0, .f32 3267887104 1120403456, .own⟩
  , ⟨0x2900, 1, 0x08, 1, .f32, .rwk, fun _ => .num 0, .f32 3248488448 1101004800, .own⟩
  , ⟨0x2900, 1, 0x09, 1, .f32, .rwk, fun _ => .num 0, .f32 3248488448 1101004800, .own⟩
  , ⟨0x2900, 1, 0x0A, 1, .u8, .rwk, fun _ => .num 0, .ints [(0, 1, 1)], .own⟩
  , ⟨0x2900, 1, 0x0B, 1, .f32, .rwk, fun _ => .num 1077936128, .f32 1065353216 1092616192, .own⟩
  , ⟨0x2900, 1, 0x0C, 1, .blob, .rwk, fun _ => .bytes (List.replicate 72 0), .len 72 72 1, .own⟩
  , ⟨0x2900, 1, 0x0D, 1, .f32, .rwk, fun _ => .num 1045220557, .f32 1008981770 1056964608, .own⟩
  , ⟨0x2900, 1, 0x0E, 1, .f32, .rwk, fun _ => .num 1048576000, .f32 1008981770 1084227584, .own⟩
  , ⟨0x2900, 1, 0x0F, 1, .u16, .rwk, fun _ => .num 0, .ints [(0, 200, 1)], .own⟩
  , ⟨0x2900, 1, 0x10, 1, .u8, .rwk, fun _ => .num 255, .ints [(0, 63, 1), (255, 255, 1)], .own⟩
  , ⟨0x2900, 1, 0x11, 1, .u8, .rwk, fun _ => .num 255, .ints [(0, 63, 1), (255, 255, 1)], .own⟩
  , ⟨0x2900, 1, 0x12, 1, .u16, .rwk, fun _ => .num 0, .any, .own⟩
  , ⟨0x2900, 1, 0x13, 1, .f32, .rwk, fun _ => .num 1061997773, .f32 0 1065353216, .own⟩
  , ⟨0x2900, 1, 0x14, 1, .f32, .rwk, fun _ => .num 1058642330, .f32 0 1065353216, .own⟩ ]

/-- Objects of indices 0x2900 to 0x29FF, part 1. -/
def objs29p1 : List ObjDef :=
  [ ⟨0x2900, 1, 0x15, 1, .f32, .rwk, fun _ => .num 1056964608, .f32 1036831949 1101004800, .own⟩
  , ⟨0x2900, 1, 0x16, 1, .f32, .rwk, fun _ => .num 1094713344, .f32 1036831949 1101004800, .own⟩
  , ⟨0x2900, 1, 0x17, 1, .f32, .rwk, fun _ => .num 1065353216, .f32 1028443341 1084227584, .own⟩
  , ⟨0x2900, 1, 0x18, 1, .f32, .rwk, fun _ => .num 1051931443, .f32 1017370378 1065353216, .own⟩
  , ⟨0x2900, 1, 0x19, 1, .f32, .rwk, fun _ => .num 1073741824, .f32 1036831949 1092616192, .own⟩
  , ⟨0x2900, 1, 0x1A, 1, .f32, .rwk, fun _ => .num 1056964608, .f32Pos, .own⟩
  , ⟨0x2900, 1, 0x1B, 1, .u16, .rwk, fun _ => .num 100, .ints [(20, 1000, 1)], .own⟩
  , ⟨0x2900, 1, 0x1C, 1, .u16, .rwk, fun _ => .num 200, .ints [(0, 2000, 1)], .own⟩
  , ⟨0x2900, 1, 0x1D, 1, .u16, .rwk, fun _ => .num 1000, .ints [(0, 10000, 1)], .own⟩
  , ⟨0x2900, 1, 0x1E, 1, .u8, .ro, fun _ => .num 0, .any, .special⟩
  , ⟨0x2900, 1, 0x1F, 1, .blob, .ro, fun _ => .bytes [], .len 16 16 1, .special⟩
  , ⟨0x2900, 1, 0x20, 1, .u16, .rwk, fun _ => .num 60, .ints [(20, 500, 1)], .own⟩
  , ⟨0x2900, 1, 0x21, 1, .blob, .rwk, fun _ => .bytes (List.replicate 2 255), .len 2 2 1, .own⟩
  , ⟨0x2900, 1, 0x22, 1, .blob, .ro, fun _ => .bytes [], .len 12 12 1, .special⟩ ]

def objs29 : List ObjDef := objs29p0 ++ objs29p1

/-- Objects of indices 0x3000 to 0x30FF, part 0. -/
def objs30p0 : List ObjDef :=
  [ ⟨0x3000, 1, 0x01, 1, .u16, .ro, fun _ => .num 0, .any, .field (fun _ => R.fbStatNodeid) 1⟩
  , ⟨0x3000, 1, 0x02, 1, .u16, .rwk, fun _ => .num 245, .ints [(1, 4094, 1)], .own⟩
  , ⟨0x3000, 1, 0x03, 1, .u16, .ro, fun _ => .num 0, .any, .field (fun _ => R.fbEpochEpoch) 1⟩
  , ⟨0x3000, 1, 0x04, 1, .u64, .ro, fun _ => .num 0, .any, .special⟩
  , ⟨0x3000, 1, 0x05, 1, .u32, .ro, fun _ => .num 0, .any, .words (fun _ => R.fbStat) 1⟩
  , ⟨0x3000, 1, 0x08, 1, .u32, .rwk, fun _ => .num 200, .ints [(20, 10000, 1)], .own⟩
  , ⟨0x3000, 1, 0x09, 1, .u32, .ro, fun _ => .num 0, .any, .special⟩
  , ⟨0x3000, 1, 0x0A, 1, .u32, .rwk, fun _ => .num 2000, .ints [(100, 50000, 1)], .own⟩
  , ⟨0x3000, 1, 0x0B, 1, .u8, .rwk, fun _ => .num 3, .ints [(1, 15, 1)], .own⟩
  , ⟨0x3000, 1, 0x0C, 1, .u16, .rwk, fun _ => .num 20, .ints [(1, 10000, 1)], .own⟩
  , ⟨0x3000, 1, 0x0D, 1, .u16, .rwk, fun _ => .num 50, .ints [(10, 1000, 1)], .own⟩
  , ⟨0x3000, 1, 0x0E, 1, .u8, .rwk, fun _ => .num 1, .ints [(0, 1, 1)], .own⟩
  , ⟨0x3000, 1, 0x0F, 1, .u8, .rwk, fun _ => .num 0, .ints [(0, 1, 1)], .own⟩
  , ⟨0x3000, 1, 0x10, 1, .blob, .rwk, fun _ => .bytes ((List.range 256).flatMap fun _ => [255, 255, 0, 0, 0, 0, 0, 0]), .len 2048 2048 1, .own⟩
  , ⟨0x3000, 1, 0x11, 1, .u16, .wo, fun _ => .num 0, .any, .special⟩
  , ⟨0x3000, 1, 0x12, 1, .blob, .ro, fun _ => .bytes [], .len 0 65535 1, .special⟩
  , ⟨0x3000, 1, 0x13, 1, .blob, .ro, fun _ => .bytes [], .len 32 32 1, .words (fun _ => R.fbStaleEpoch) 8⟩
  , ⟨0x3010, 6, 0x01, 1, .u8, .rwk, fun _ => .num 1, .ints [(0, 1, 1)], .field (R.fbPctrlEn) 1⟩
  , ⟨0x3010, 6, 0x02, 1, .u8, .rwk, fun p => .num (if p % 2 = 0 then 1 else 0), .ints [(0, 1, 1)], .field (R.fbPctrlMaster) 1⟩
  , ⟨0x3010, 6, 0x03, 1, .u8, .rwk, fun _ => .num 0, .ints [(0, 1, 1)], .field (R.fbPctrlQbv) 1⟩ ]

/-- Objects of indices 0x3000 to 0x30FF, part 1. -/
def objs30p1 : List ObjDef :=
  [ ⟨0x3010, 6, 0x04, 1, .u32, .rwk, fun _ => .num 1000, .ints [(10, 100000, 1)], .special⟩
  , ⟨0x3010, 6, 0x05, 1, .blob, .rwk, fun _ => .bytes [], .len 0 64 4, .special⟩
  , ⟨0x3010, 6, 0x06, 1, .u32, .ro, fun _ => .num 0, .any, .words (R.fbPstat) 1⟩
  , ⟨0x3010, 6, 0x07, 1, .blob, .ro, fun _ => .bytes [], .len 32 32 1, .words (R.fbPrxfrm) 8⟩
  , ⟨0x3080, 1, 0x01, 1, .u8, .rwk, fun _ => .num 0, .ints [(0, 2, 1)], .own⟩
  , ⟨0x3080, 1, 0x02, 1, .u64, .rwk, fun _ => .num 0, .any, .own⟩
  , ⟨0x3080, 1, 0x03, 1, .u8, .ro, fun _ => .num 0, .any, .field (fun _ => R.fbStatTwin) 1⟩
  , ⟨0x3080, 1, 0x04, 1, .u8, .rwk, fun _ => .num 0, .ints [(0, 1, 1)], .own⟩
  , ⟨0x3080, 1, 0x05, 1, .u8, .wo, fun _ => .num 0, .ints [(1, 1, 1)], .special⟩
  , ⟨0x3080, 1, 0x06, 1, .blob, .ro, fun _ => .bytes [], .len 12 12 1, .special⟩
  , ⟨0x3080, 1, 0x07, 1, .time64, .ro, fun _ => .num 0, .any, .special⟩
  , ⟨0x30C0, 1, 0x01, 1, .u8, .rwk, fun _ => .num 0, .ints [(0, 1, 1)], .own⟩
  , ⟨0x30C0, 1, 0x02, 1, .blob, .rwk, fun _ => .bytes (List.replicate 16 0), .len 16 16 1, .own⟩
  , ⟨0x30C0, 1, 0x03, 1, .u16, .rwk, fun _ => .num 4871, .ints [(1, 65535, 1)], .own⟩
  , ⟨0x30C0, 1, 0x04, 1, .u32, .rwk, fun _ => .num 64, .ints [(16, 1024, 1)], .own⟩
  , ⟨0x30C0, 1, 0x05, 1, .u8, .ro, fun _ => .num 0, .any, .special⟩
  , ⟨0x30C0, 1, 0x06, 1, .u64, .ro, fun _ => .num 0, .any, .special⟩
  , ⟨0x30C0, 1, 0x07, 1, .blob, .ro, fun _ => .bytes [], .len 16 16 1, .special⟩ ]

def objs30 : List ObjDef := objs30p0 ++ objs30p1

/-- Objects of indices 0x3100 to 0x31FF, part 0. -/
def objs31p0 : List ObjDef :=
  [ ⟨0x3100, 6, 0x01, 1, .u8, .rwk, fun _ => .num 0, .ints [(0, 1, 1)], .special⟩
  , ⟨0x3100, 6, 0x02, 1, .u8, .rwk, fun _ => .num 0, .ints [(0, 4, 1)], .field (R.cnCtrlMode) 1⟩
  , ⟨0x3100, 6, 0x03, 1, .u8, .rwk, fun _ => .num 2, .ints [(0, 3, 1)], .field (R.cnCtrlFmt) 1⟩
  , ⟨0x3100, 6, 0x04, 1, .u32, .rwk, fun _ => .num 250000, .ints [(10000, 1000000, 1)], .special⟩
  , ⟨0x3100, 6, 0x05, 1, .u16, .rwk, fun _ => .num 800, .ints [(500, 900, 1)], .special⟩
  , ⟨0x3100, 6, 0x06, 1, .u32, .rwk, fun _ => .num 2000000, .ints [(10000, 8000000, 1)], .special⟩
  , ⟨0x3100, 6, 0x07, 1, .u16, .rwk, fun _ => .num 750, .ints [(500, 900, 1)], .special⟩
  , ⟨0x3100, 6, 0x08, 1, .u32, .rwk, fun _ => .num 10000000, .ints [(10000, 20000000, 1)], .special⟩
  , ⟨0x3100, 6, 0x09, 1, .u8, .rwk, fun _ => .num 0, .ints [(0, 1, 1)], .field (R.cnCtrlEsd) 1⟩
  , ⟨0x3100, 6, 0x0A, 1, .u8, .rwk, fun _ => .num 0, .ints [(0, 1, 1)], .field (R.cnCtrlTerm) 1⟩
  , ⟨0x3100, 6, 0x0B, 1, .u16, .rwk, fun _ => .num 64, .ints [(8, 2048, 1)], .special⟩
  , ⟨0x3100, 6, 0x0C, 1, .u8, .rwk, fun _ => .num 0, .ints [(0, 127, 1)], .special⟩
  , ⟨0x3100, 6, 0x0D, 1, .u8, .rwk, fun _ => .num 8, .ints [(1, 127, 1)], .special⟩
  , ⟨0x3100, 6, 0x0E, 1, .u16, .rwk, fun _ => .num 20, .ints [(1, 10000, 1)], .special⟩
  , ⟨0x3100, 6, 0x0F, 1, .u16, .rwk, fun _ => .num 24672, .any, .words (R.cnEwarn) 1⟩
  , ⟨0x3100, 6, 0x10, 1, .u8, .rwk, fun _ => .num 0, .ints [(0, 1, 1)], .field (R.cnCtrlRecMode) 1⟩
  , ⟨0x3100, 6, 0x11, 1, .u16, .rwk, fun _ => .num 0, .ints [(0, 10000, 1)], .field (R.cnCtrlRecdly) 1⟩
  , ⟨0x3100, 6, 0x12, 1, .u8, .rwk, fun _ => .num 0, .ints [(0, 1, 1)], .field (R.cnCtrlSelfrx) 1⟩
  , ⟨0x3100, 6, 0x13, 1, .u8, .rwk, fun _ => .num 2, .ints [(0, 3, 1)], .field (R.cnRxdefAction) 1⟩
  , ⟨0x3100, 6, 0x14, 1, .blob, .rwk, fun _ => .bytes (List.replicate 2048 0), .len 2048 2048 1, .words (fun c => R.cnFcfg c 0) 512⟩ ]

/-- Objects of indices 0x3100 to 0x31FF, part 1. -/
def objs31p1 : List ObjDef :=
  [ ⟨0x3100, 6, 0x15, 1, .u32, .ro, fun _ => .num 0, .any, .words (R.cnStat) 1⟩
  , ⟨0x3100, 6, 0x16, 1, .u32, .ro, fun _ => .num 0, .any, .words (R.cnEcnt) 1⟩
  , ⟨0x3100, 6, 0x17, 1, .blob, .ro, fun _ => .bytes [], .len 32 32 1, .words (R.cnRxfrm) 8⟩
  , ⟨0x3100, 6, 0x18, 1, .u32, .ro, fun _ => .num 0, .any, .words (R.cnWat) 1⟩
  , ⟨0x3100, 6, 0x19, 1, .u8, .wo, fun _ => .num 0, .ints [(1, 1, 1)], .special⟩
  , ⟨0x3100, 6, 0x1A, 1, .u8, .rwk, fun _ => .num 0, .ints [(0, 1, 1)], .own⟩
  , ⟨0x3100, 6, 0x1B, 1, .u64, .rwk, fun _ => .num 0, .any, .own⟩
  , ⟨0x3100, 6, 0x1C, 1, .u8, .rwk, fun _ => .num 128, .ints [(0, 253, 1)], .own⟩
  , ⟨0x3100, 6, 0x1D, 1, .u16, .rwk, fun _ => .num 63360, .any, .own⟩
  , ⟨0x3100, 6, 0x1E, 1, .u8, .ro, fun _ => .num 254, .any, .special⟩
  , ⟨0x3100, 6, 0x1F, 1, .u8, .ro, fun _ => .num 0, .any, .special⟩
  , ⟨0x3100, 6, 0x20, 1, .u8, .rwk, fun _ => .num 0, .ints [(0, 1, 1)], .own⟩
  , ⟨0x3100, 6, 0x21, 1, .u8, .rwk, fun _ => .num 0, .ints [(0, 1, 1)], .own⟩
  , ⟨0x3100, 6, 0x22, 1, .u16, .rwk, fun _ => .num 6976, .ints [(0, 8191, 1)], .own⟩
  , ⟨0x3100, 6, 0x23, 1, .u8, .rwk, fun _ => .num 32, .ints [(0, 253, 1)], .own⟩
  , ⟨0x3100, 6, 0x24, 1, .u8, .rwk, fun _ => .num 0, .ints [(0, 127, 1)], .special⟩ ]

def objs31 : List ObjDef := objs31p0 ++ objs31p1

/-- Objects of indices 0x3200 to 0x32FF, part 0. -/
def objs32p0 : List ObjDef :=
  [ ⟨0x3200, 8, 0x01, 1, .u8, .rwk, fun _ => .num 3, .ints [(0, 5, 1)], .field (R.cvCfgAlg) 1⟩
  , ⟨0x3200, 8, 0x02, 1, .u8, .rwk, fun _ => .num 32, .ints [(1, 32, 1)], .field (R.cvCfgWidth) 1⟩
  , ⟨0x3200, 8, 0x03, 1, .u32, .rwk, fun _ => .num 0, .any, .field (R.cvPolyPoly) 1⟩
  , ⟨0x3200, 8, 0x04, 1, .u64, .rwk, fun _ => .num 0, .any, .dword (R.cvInitLo)⟩
  , ⟨0x3200, 8, 0x05, 1, .u64, .rwk, fun _ => .num 0, .any, .dword (R.cvXoroutLo)⟩
  , ⟨0x3200, 8, 0x06, 1, .u8, .rwk, fun _ => .num 0, .ints [(0, 3, 1)], .special⟩
  , ⟨0x3200, 8, 0x07, 1, .u8, .rwk, fun _ => .num 8, .ints [(4, 16, 1)], .field (R.cvAccfgN) 1⟩
  , ⟨0x3200, 8, 0x08, 1, .u16, .rwk, fun _ => .num 1, .ints [(0, 32768, 1)], .field (R.cvAccfgMaxskip) 1⟩
  , ⟨0x3200, 8, 0x09, 1, .u8, .rwk, fun _ => .num 0, .ints [(0, 15, 1)], .field (R.cvAccfgResync) 1⟩
  , ⟨0x3200, 8, 0x0A, 1, .blob, .ro, fun _ => .bytes [], .len 16 16 1, .words (R.cvOk) 4⟩ ]

def objs32 : List ObjDef := objs32p0

/-- Objects of indices 0x3300 to 0x33FF, part 0. -/
def objs33p0 : List ObjDef :=
  [ ⟨0x3300, 1, 0x01, 1, .u32, .ro, fun _ => .num 0, .any, .words (fun _ => R.evSeq) 1⟩
  , ⟨0x3300, 1, 0x02, 1, .u32, .ro, fun _ => .num 0, .any, .words (fun _ => R.evOldest) 1⟩
  , ⟨0x3300, 1, 0x03, 1, .u32, .rw, fun _ => .num 0, .any, .own⟩
  , ⟨0x3300, 1, 0x04, 1, .blob, .ro, fun _ => .bytes [], .len 0 1440 1, .special⟩
  , ⟨0x3300, 1, 0x05, 1, .u8, .rwk, fun _ => .num 2, .ints [(0, 3, 1)], .field (fun _ => R.evSevthSevth) 1⟩
  , ⟨0x3300, 1, 0x06, 1, .blob, .ro, fun _ => .bytes [], .len 16 16 1, .words (fun _ => R.evWritten) 4⟩
  , ⟨0x3300, 1, 0x07, 1, .u32, .ro, fun _ => .num 0, .any, .words (fun _ => R.kpOptime) 1⟩
  , ⟨0x3300, 1, 0x08, 1, .u32, .ro, fun _ => .num 0, .any, .words (fun _ => R.kpPcycle) 1⟩
  , ⟨0x3300, 1, 0x09, 1, .blob, .ro, fun _ => .bytes [], .len 6144 6144 1, .special⟩
  , ⟨0x3300, 1, 0x20, 1, .u16, .rwk, fun _ => .num 500, .ints [(0, 0, 1), (50, 10000, 1)], .own⟩
  , ⟨0x3300, 1, 0x21, 1, .u16, .rwk, fun _ => .num 2000, .ints [(1000, 10000, 1)], .own⟩
  , ⟨0x3300, 1, 0x22, 1, .u16, .rwk, fun _ => .num 20, .ints [(0, 1000, 1)], .own⟩
  , ⟨0x3300, 1, 0x23, 1, .blob, .ro, fun _ => .bytes [], .len 12 12 1, .special⟩ ]

def objs33 : List ObjDef := objs33p0

/-- Objects of indices 0x3400 to 0x34FF, part 0. -/
def objs34p0 : List ObjDef :=
  [ ⟨0x3400, 1, 0x01, 1, .blob, .ro, fun _ => .bytes [], .len 80 80 1, .special⟩
  , ⟨0x3400, 1, 0x02, 1, .blob, .ro, fun _ => .bytes [], .len 96 96 1, .special⟩
  , ⟨0x3400, 1, 0x03, 1, .u8, .ro, fun _ => .num 0, .any, .field (fun _ => R.thStatDamper) 1⟩
  , ⟨0x3400, 1, 0x04, 1, .blob, .ro, fun _ => .bytes [], .len 120 120 1, .special⟩
  , ⟨0x3400, 1, 0x05, 1, .blob, .ro, fun _ => .bytes [], .len 40 40 1, .special⟩
  , ⟨0x3400, 1, 0x06, 1, .u32, .ro, fun _ => .num 0, .any, .words (fun _ => R.thLatch) 1⟩
  , ⟨0x3400, 1, 0x07, 1, .u16, .rwk, fun _ => .num 20, .ints [(5, 300, 1)], .own⟩
  , ⟨0x3400, 1, 0x08, 1, .blob, .ro, fun _ => .bytes [], .len 16 16 1, .special⟩ ]

def objs34 : List ObjDef := objs34p0

/-- Objects of indices 0x3500 to 0x35FF, part 0. -/
def objs35p0 : List ObjDef :=
  [ ⟨0x3500, 1, 0x01, 1, .u8, .rwk, fun _ => .num 1, .ints [(0, 1, 1)], .special⟩
  , ⟨0x3500, 1, 0x02, 1, .u16, .rwk, fun _ => .num 320, .ints [(16, 320, 8)], .own⟩
  , ⟨0x3500, 1, 0x03, 1, .u16, .rwk, fun _ => .num 240, .ints [(16, 240, 1)], .own⟩
  , ⟨0x3500, 1, 0x04, 1, .u8, .rwk, fun _ => .num 0, .ints [(0, 3, 1)], .own⟩
  , ⟨0x3500, 1, 0x05, 1, .blob, .rwk, fun _ => .bytes [0, 0, 32, 194, 220, 5, 160, 15, 0, 0, 160, 193, 176, 4, 216, 14, 0, 0, 0, 0, 32, 3, 16, 14, 0, 0, 32, 65, 88, 2, 172, 13, 0, 0, 160, 65, 144, 1, 72, 13, 0, 0, 32, 66, 250, 0, 128, 12, 0, 0, 112, 66, 200, 0, 184, 11, 0, 0, 170, 66, 200, 0, 240, 10], .len 64 64 1, .special⟩
  , ⟨0x3500, 1, 0x06, 1, .blob, .rwk, fun _ => .bytes [144, 1, 200, 0, 144, 1, 0, 0, 154, 153, 51, 115, 0, 0, 154, 25, 51, 51, 205, 76], .len 20 20 1, .special⟩
  , ⟨0x3500, 1, 0x07, 1, .f32, .rwk, fun _ => .num 1103626240, .f32 3256877056 1118437376, .own⟩
  , ⟨0x3500, 1, 0x08, 1, .u32, .ro, fun _ => .num 0, .any, .words (fun _ => R.dpStat) 1⟩
  , ⟨0x3500, 1, 0x09, 1, .blob, .ro, fun _ => .bytes [], .len 19200 19200 1, .special⟩
  , ⟨0x3500, 1, 0x0A, 1, .blob, .rwk, fun _ => .bytes [0, 0, 0, 0, 96, 0, 32, 0], .len 8 8 1, .special⟩
  , ⟨0x3500, 1, 0x0B, 1, .u8, .rwk, fun _ => .num 1, .ints [(0, 2, 1)], .special⟩
  , ⟨0x3500, 1, 0x0C, 1, .blob, .rwk, fun _ => .bytes (List.replicate 384 0), .len 384 384 1, .own⟩
  , ⟨0x3500, 1, 0x0D, 1, .blob, .ro, fun _ => .bytes [], .len 16 16 1, .words (fun _ => R.dpDone) 4⟩
  , ⟨0x3500, 1, 0x0E, 1, .blob, .ro, fun _ => .bytes [], .len 64 64 1, .special⟩ ]

def objs35 : List ObjDef := objs35p0

/-- Objects of indices 0x3600 to 0x36FF, part 0. -/
def objs36p0 : List ObjDef :=
  [ ⟨0x3600, 1, 0x01, 1, .blob, .ro, fun _ => .bytes [], .len 48 48 1, .special⟩
  , ⟨0x3600, 1, 0x02, 1, .blob, .wo, fun _ => .bytes [], .len 17 1440 1, .special⟩
  , ⟨0x3600, 1, 0x03, 1, .u8, .wo, fun _ => .num 0, .ints [(1, 3, 1)], .special⟩
  , ⟨0x3600, 1, 0x04, 1, .u8, .wo, fun _ => .num 0, .ints [(1, 3, 1)], .special⟩
  , ⟨0x3600, 1, 0x05, 1, .blob, .rwk, fun _ => .bytes [], .len 0 512 2, .own⟩
  , ⟨0x3600, 1, 0x06, 1, .u8, .rw, fun _ => .num 0, .ints [(0, 1, 1)], .field (fun _ => R.upStatPermit) 1⟩
  , ⟨0x3600, 1, 0x07, 1, .u16, .rwk, fun _ => .num 120, .ints [(30, 3600, 1)], .own⟩
  , ⟨0x3600, 1, 0x08, 1, .blob, .ro, fun _ => .bytes [], .len 8 8 1, .special⟩
  , ⟨0x3600, 1, 0x09, 1, .blob, .ro, fun _ => .bytes [], .len 0 65535 1, .special⟩
  , ⟨0x3600, 1, 0x0A, 1, .u8, .wo, fun _ => .num 0, .ints [(1, 3, 1)], .special⟩
  , ⟨0x3600, 1, 0x0B, 1, .u8, .wo, fun _ => .num 0, .ints [(1, 3, 1)], .special⟩
  , ⟨0x3600, 1, 0x0C, 1, .u16, .ro, fun _ => .num 0, .any, .special⟩
  , ⟨0x3600, 1, 0x0D, 1, .u8, .wo, fun _ => .num 0, .ints [(1, 3, 1)], .special⟩
  , ⟨0x3600, 1, 0x0E, 1, .blob, .ro, fun _ => .bytes [], .len 16 16 1, .words (fun _ => R.upImages) 4⟩ ]

def objs36 : List ObjDef := objs36p0

/-- The object rows whose indices share the high byte of `index`. -/
def objRows (index : Nat) : List ObjDef :=
  match index / 256 with
  | 0x10 => objs10
  | 0x12 => objs12
  | 0x13 => objs13
  | 0x14 => objs14
  | 0x15 => objs15
  | 0x16 => objs16
  | 0x17 => objs17
  | 0x20 => objs20
  | 0x21 => objs21
  | 0x22 => objs22
  | 0x23 => objs23
  | 0x24 => objs24
  | 0x25 => objs25
  | 0x26 => objs26
  | 0x27 => objs27
  | 0x28 => objs28
  | 0x29 => objs29
  | 0x30 => objs30
  | 0x31 => objs31
  | 0x32 => objs32
  | 0x33 => objs33
  | 0x34 => objs34
  | 0x35 => objs35
  | 0x36 => objs36
  | _ => []

/-- Whether the row describes object index:sub. -/
def ObjDef.covers (d : ObjDef) (index sub : Nat) : Bool :=
  d.index ≤ index && index < d.index + d.count && d.sub ≤ sub && sub < d.sub + d.subs

/-- The row of object index:sub among the tables of the chapters, if it exists there. -/
def objDef (index sub : Nat) : Option ObjDef := (objRows index).find? fun d => d.covers index sub

/-- The default of object index:sub. -/
def objDefault (index sub : Nat) : ObjVal :=
  match objDef index sub with
  | some d => d.default (index - d.index)
  | none => .num 0

/-- The key under which the object store lists index:sub. -/
def objKey (index sub : Nat) : Nat := index * 256 + sub

end Sys2Proof.Machine
end

