-- ==== Sys2Proof/Machine/Tbl.lean ====
section
/-!
DEFINITION. Tables of instances by number, and the addressed memory. A table lists, in rising order of the number,
only the instances that differ from the default, so equal tables are equal data.
-/
namespace Sys2Proof.Machine

/-- A table of instances: (number, value) pairs. -/
abbrev Tbl (α : Type) := List (Nat × α)

/-- The value of instance k, or the default where the table does not list it. -/
def Tbl.get {α : Type} (t : Tbl α) (dflt : α) (k : Nat) : α :=
  match t with
  | [] => dflt
  | e :: rest => if e.1 = k then e.2 else Tbl.get rest dflt k

/-- The table without instance k. -/
def Tbl.erase {α : Type} (t : Tbl α) (k : Nat) : Tbl α :=
  match t with
  | [] => []
  | e :: rest => if e.1 = k then Tbl.erase rest k else e :: Tbl.erase rest k

/-- The table with (k, v) put before the first larger number. -/
def Tbl.insert {α : Type} (t : Tbl α) (k : Nat) (v : α) : Tbl α :=
  match t with
  | [] => [(k, v)]
  | e :: rest => if k < e.1 then (k, v) :: e :: rest else e :: Tbl.insert rest k v

/-- The table with instance k at v; an instance at its default is not listed. -/
def Tbl.set {α : Type} [DecidableEq α] (t : Tbl α) (dflt : α) (k : Nat) (v : α) : Tbl α :=
  if v = dflt then Tbl.erase t k else Tbl.insert (Tbl.erase t k) k v

/-- Every listed instance changed by f; an instance that f brings to its default is not listed. -/
def Tbl.update {α : Type} [DecidableEq α] (t : Tbl α) (dflt : α) (f : α → α) : Tbl α :=
  match t with
  | [] => []
  | e :: rest => if f e.2 = dflt then Tbl.update rest dflt f else (e.1, f e.2) :: Tbl.update rest dflt f

/-- The numbers rise strictly. -/
def Tbl.rising {α : Type} : Tbl α → Bool
  | [] => true
  | [_] => true
  | a :: b :: rest => decide (a.1 < b.1) && Tbl.rising (b :: rest)

/-- The canonical form: rising numbers, and no entry equal to the default of its number. -/
def Tbl.canon {α : Type} [DecidableEq α] (t : Tbl α) (dflt : Nat → α) : Bool :=
  Tbl.rising t && t.all fun e => decide (e.2 ≠ dflt e.1)

/-- What a byte of memory that nothing has written reads as: 0, as the wipes of R391 leave it. -/
def memDefault : Byte := 0

/-- The addressed memory: rising addresses, and no entry that reads as an unlisted address. -/
abbrev Memory := List Host.Cell

/-- The byte at an address. -/
def Memory.read (m : Memory) (a : Nat) : Byte := Tbl.get m memDefault a

/-- The memory with one byte written. -/
def Memory.write (m : Memory) (a : Nat) (b : Byte) : Memory := Tbl.set m memDefault a b

/-- n bytes from address a on. -/
def Memory.readBytes (m : Memory) (a : Nat) : Nat → List Byte
  | 0 => []
  | n + 1 => Memory.read m a :: Memory.readBytes m (a + 1) n

/-- The memory with the bytes of l written from address a on. -/
def Memory.writeBytes (m : Memory) (a : Nat) : List Byte → Memory
  | [] => m
  | b :: l => Memory.writeBytes (Memory.write m a b) (a + 1) l

/-- The canonical form of the memory. -/
abbrev Memory.wf (m : Memory) : Prop := Tbl.canon m (fun _ => memDefault) = true

end Sys2Proof.Machine
end

