-- ==== Sys2Proof/Machine/State.lean ====
section
/-!
DEFINITION. The state of the module: registers, dictionary objects, memory, the internal state of every block and
service, and the queue of waiting commands. Each field's comment gives its width, the rule that names it and what it is.
-/
namespace Sys2Proof.Machine

/-- Why the machine stops with a fault. No rule of the spec stops the module, so no meaning raises one; the one
constructor keeps the type inhabited. Safe. -/
inductive Fault where
  /-- Raised by no one. Safe. -/
  | none
deriving DecidableEq, Repr

/-- Why a command has no meaning. -/
inductive Refusal where
  /-- Raised by the dispatch table for a command that has no meaning yet. Safe. -/
  | notModelled (mnemonic : String)
deriving DecidableEq, Repr

/-- One half of a phase of a panel row (R464, R507, R508): its length in ns, the common level VCOM and the column levels VSEG0
to VSEG3, both in 10 mV/65,536, and COL_OE. -/
structure PanelHalf where
  ns : Nat := 0
  vcom : Int := 0
  vseg : List Int := []
  oe : Bool := false
deriving DecidableEq, Repr

/-- What the module has put out: on its pins, buses and links, or as an answer to a requester. -/
inductive Out where
  | sample (stream : Nat) (ts : Time) (value : F32) (fault : Bool)          -- a sample or result produced
  | flue (port : Nat) (frame : FlueFrame)                                   -- a flue frame sent on a port
  | ether (port cls : Nat) (frame : OtherFrame)                             -- another frame forwarded on a port in a class
  | can (ch : Nat) (id : Nat) (data : List Byte)                            -- a CAN frame sent
  | answered (status : Nat)                                                 -- the status a single object write was answered with
  | response (requester tag op status index sub typ aux : Nat) (data : List Byte) -- a response of the dictionary service
  | notify (requester : Nat) (index : Nat) (sub : Nat) (data : List Byte)   -- a notification sent
  | nmi (targets : List Nat) (cause : Nat)                                  -- non-maskable interrupts delivered
  | claimed (target : Nat) (source : Nat)                                   -- the value a claim read returned
  | readValue (addr : Nat) (value : Nat)                                    -- the value another acting read returned
  | stageFrame (frame : Nat)                                                -- a stage frame sent to the stage dies
  | pulse (output : Nat) (ts : Time)                                        -- a time pulse emitted
  | fsync (port : Nat) (ts : Time)                                          -- a frame-sync edge sent to a camera
  | i2c (port dev reg len : Nat) (read : Bool) (data : List Byte)           -- an I2C tunnel transfer started
  | exported (task : Nat) (grid : List (Int × Int × Nat × Nat)) (raw : List (List Byte)) (log : List (Time × Int × Int)) -- R244
  | chimney (bytes : List Byte)                                             -- a message sent to the gateway
  | mirror (path seq : Nat) (block : MirrorBlock)                           -- the contents of a MIRROR block sent, path 1 the fabric
  | panelRow (rowBits : List Bool) (greys : List Nat) (halves : List PanelHalf) -- a panel row: bits as shifted, levels
  | storage (part : Nat) (op : Nat) (block : Nat) (blocks : Nat)            -- a command given to the flash device
  | debugReply (bytes : List Byte)                                          -- an answer to a debug datagram
deriving DecidableEq, Repr

/-! spec/01_architecture.md -/

/-- One copy of a trellis entry (Table 1-6). -/
structure TrellisCopy where
  producer : Nat := 0 -- u16 | R13 | producer stream ID
  consumer : Nat := 0 -- u16 | R13 | consumer ID
  gain : F32 := 0 -- f32 | R14 | scaling factor
  offset : F32 := 0 -- f32 | R14 | scaling offset
  maxAge : Nat := 0 -- u32, µs | R15 | maximum age at use
  enable : Nat := 0 -- u8 | R18 | 0 off, 1 on
deriving DecidableEq, Repr

/-- A trellis entry. -/
structure TrellisEntry where
  active : TrellisCopy := {} -- 20 bytes | R16 | active copy, which the data path uses
  shadow : TrellisCopy := {} -- 20 bytes | R16 | shadow copy, which the control path edits
  state : Nat := 0 -- 2 bits | R16 | 0 IDLE, 1 SETUP, 2 PENDING
  boundary : Time := 0 -- time64 | R17 | boundary a PENDING entry waits for
  past : List (Time × TrellisCopy) := [] -- 20 bytes each | R19 | earlier active copies, the latest first, each with the boundary that ended it
deriving DecidableEq, Repr

/-- The trellis. -/
structure Trellis where
  entries : Tbl TrellisEntry := [] -- 1,024 entries | R16 | route table
  emptyCommits : List Time := [] -- time64 each | R17 | boundaries of the empty commits accepted
  lastEpoch : Option Time := none -- time64 | R17 | last epoch boundary that came
  lastAction : Nat := 0 -- u8 | R18 | object 0x1700:06
  lastBoundary : Time := 0 -- time64 | R17 | object 0x1700:07
  lastFailure : Nat := 0 -- u32 | R18 | object 0x1700:08
  commits : Nat := 0 -- u32 | R17 | object 0x1700:0A, commits
  failures : Nat := 0 -- u32 | R18 | object 0x1700:0A, failures
  goes : Nat := 0 -- u32 | R20 | go confirmations counted
deriving DecidableEq, Repr

/-- A DRAM sample ring (Table 14-12). -/
structure Ring where
  base : Nat := 0 -- u64 | R21 | base address, 0 unconfigured
  depth : Nat := 0 -- u16 | R21 | entries
  mode : Nat := 0 -- u8 | R21 | 0 value, 1 record
  seq : Nat := 0 -- u32 | R21 | SEQ of the next entry written
deriving DecidableEq, Repr

/-- A sample as a consumer holds it. -/
structure Sample where
  value : F32 := 0 -- f32 | R14 | routed value
  ts : Time := 0 -- time64 | R15 | production timestamp
  fault : Bool := false -- 1 bit | R145 | fault flag of the producer
  record : List Byte := [] -- bytes | R138 | whole record of a record producer
  maxAge : Nat := 0 -- u32, µs | R15 | maximum age of the route it came by
deriving DecidableEq, Repr

/-- What the data path has delivered. -/
structure Delivery where
  rings : Tbl Ring := [] -- 256 rings | R21 | DRAM sample rings
  latest : Tbl Sample := [] -- one per consumer ID | R15 | latest sample delivered to each consumer
  loopIn : Tbl (List Sample) := [] -- per loop input | R36 | samples a loop firing may still take, newest first
  inbox : Tbl (List Sample) := [] -- per fusion slot | R138 | samples delivered to a fusion slot, not yet taken
  history : Tbl (List Sample) := [] -- per service input | R213 | samples delivered to a service input, newest first
  discarded : Nat := 0 -- u32 | R19 | samples discarded for want of their consumer
  peerRoutes : Nat := 0 -- u16 | R20 | modules that answered prepared to a change this Hearth sent
deriving DecidableEq, Repr

/-! spec/20_keeper_events_thermal.md -/

/-- An event in the intake queue. -/
structure Ev where
  code : Nat := 0 -- u16 | R443 | event code
  source : Nat := 0 -- u8 | R443 | origin
  sev : Nat := 0 -- u8 | R449 | severity
  data : List Byte := [] -- up to 12 bytes | R444 | DATA
deriving DecidableEq, Repr

/-- An event record (Table 20-2). -/
structure EvRecord where
  code : Nat := 0 -- u16 | R443 | CODE
  source : Nat := 0 -- u8 | R443 | SOURCE
  sev : Nat := 0 -- u8 | R443 | SEV
  data : List Byte := [] -- 12 bytes | R443 | DATA
  hours : Nat := 0 -- u32 | R443 | operating time at the first occurrence, s
  pcycle : Nat := 0 -- u32 | R443 | power-cycle count
  last : Nat := 0 -- u32 | R443 | operating time at the last occurrence, s
  repeats : Nat := 0 -- u16 | R443 | further occurrences
  mark : Bool := false -- u8 | R443 | valid mark 0xA5
deriving DecidableEq, Repr

/-- A temperature sensor. -/
structure ThSensor where
  last : Option Int := none -- i16, 0.1 °C | R460 | last reading
  raw : Nat := 0 -- u16 | R460 | raw code of the last reading
  same : Nat := 0 -- u16 | R460 | consecutive readings with that raw code
  good : Nat := 0 -- u8 | R460 | consecutive readings without a fault since the break
deriving DecidableEq, Repr

/-- A thermal zone. -/
structure ThZone where
  readAt : Option Nat := none -- ns | R454 | last reading
  warn : Bool := false -- 1 bit | R455 | at warning by its readings
  thr : Bool := false -- 1 bit | R455 | at throttle by its readings
  hist : List (Nat × Int) := [] -- ns, i16 each | R456 | readings of the last second and the one before, newest first
  fastAt : Option Nat := none -- ns | R456 | reading since which the rate is above 2 K/s
  slowAt : Option Nat := none -- ns | R456 | reading since which the rate is at or below 2 K/s
deriving DecidableEq, Repr

/-- Thermal management. -/
structure Thermal where
  sensors : Tbl ThSensor := [] -- 24 sensors | R453 | sensors
  zones : Tbl ThZone := [] -- 20 zones | R453 | zones
  step1At : Nat := 0 -- ns | R457 | instant of Damper step 1
  shutAt : Option Nat := none -- ns | R458 | end of the 20 ms before a module shutdown acts
  counters : List Nat := [0, 0, 0, 0] -- 4 × u32 | R455 | warnings, throttles, Damper steps, broken sensors
deriving DecidableEq, Repr

/-- A watchdog. -/
structure Watchdog where
  till : Option Nat := none -- ns | R437 | expiry, none while it does not run
deriving DecidableEq, Repr

/-- A mailbox slot's transaction. -/
structure MailSlot where
  tag : Nat := 0 -- u16 | R346 | transaction tag
  remote : Bool := false -- 1 bit | R345 | waits for a remote response
  held : Bool := false -- 1 bit | R425 | GO held during a Keeper restart
  response : List Byte := [] -- bytes | R441 | response message to write into RSP
deriving DecidableEq, Repr

/-- The Keeper: watchdogs and mailbox. -/
structure Keeper where
  main : Watchdog := {} -- - | R437 | main watchdog
  rt : Tbl Watchdog := [] -- 4 watchdogs | R437 | real-time watchdogs
  counters : List Nat := [0, 0, 0] -- 3 × u32 | R437 | main, real-time and Keeper expiries
  badKicks : Nat := 0 -- Nat | R437 | kicks ignored and counted
  slots : Tbl MailSlot := [] -- 16 slots | R441 | mailbox slots
  lostAt : Option Nat := none -- ns | R440 | next retry of a main die whose clocks stopped
  restart : Nat := 0 -- ns | R425 | instant until which the Keeper restarts after a KPR
  dropped : Nat := 0 -- u32 | R425 | event records dropped while the Keeper restarts
deriving DecidableEq, Repr

/-- The event recorder. -/
structure EventRec where
  intake : List Ev := [] -- up to 64 | R448 | intake queue, oldest first
  dropPend : Nat := 0 -- u16 | R448 | events dropped since the last 0x1803
  ring : Tbl EvRecord := [] -- 16,384 slots | R443 | ring of records in the Ember store
  seq : Nat := 0 -- u32 | R446 | records written since the first
  unspilled : Nat := 0 -- u32 | R450 | sequence of the oldest record not yet spilled
  spilled : Tbl (Nat × Nat) := [] -- blocks | R450 | first sequence and number of the records of each block of the spill partition
  spillNext : Nat := 0 -- u32 | R450 | next block of the spill partition
  spillStop : Bool := false -- 1 bit | R450 | storage controller unavailable
  lossLogged : Bool := false -- 1 bit | R450 | event 0x1803 for a lost record logged in this power cycle
  anchored : Bool := false -- 1 bit | R451 | time anchor of this power cycle written
  opTime : Nat := 0 -- u32 | R445 | operating time at opSince, s
  opSince : Nat := 0 -- ns | R445 | instant from which operating time counts on
  opStop : Bool := false -- 1 bit | R445 | operating time stands still (DEEP, OFF)
  pcycle : Nat := 0 -- u32 | R445 | power-cycle count
deriving DecidableEq, Repr

/-! spec/15_processors_interrupts.md -/

/-- A tagged operation of the DMA engine, the fusion engine or the storage controller. -/
structure TagOp where
  tag : Nat := 0 -- u16 | R24 | TAG chosen by software
  desc : List Byte := [] -- 64 bytes | R361 | the descriptor as submitted
  writer : Nat := 0 -- 2 bits | R384 | submitter: 0 any, 1 update engine, 2 Parterre, 3 Keeper
  started : Bool := false -- 1 bit | R362 | started
  since : Nat := 0 -- ns | R387 | instant of the start
deriving DecidableEq, Repr

/-- The operations of a tagged unit. -/
structure TagQueue where
  ops : List TagOp := [] -- slots | R25 | operations not completed, in submission order
  unacked : List Nat := [] -- u16 each | R25 | tags completed and not acknowledged, in ring order
  written : Nat := 0 -- u32 | R363 | completions written since reset
deriving DecidableEq, Repr

/-- Processors, interrupt controller and DMA engine. -/
structure Procs where
  fenced : Nat := 0 -- u8 | R356 | fenced application cores
  selfTest : List Nat := [0, 0, 0, 0, 0, 0, 0, 0] -- 8 × u8 | R356 | self-test codes
  bootCore : Nat := 0 -- u8 | R357 | boot core, 0xFF none
  mismatches : Nat := 0 -- u32 | R355 | lockstep mismatches since POR
  outOfReset : Nat := 0x1FFF -- 13 bits | R366 | processors out of reset, bit per target
  parked : Bool := false -- 1 bit | R410 | application clusters parked in low-supply mode
  serving : List (Nat × Nat) := [] -- target, source | R368 | sources active, with the target they are active on
  doorbellErrAt : Option Nat := none -- ns | R365 | instant of the last event 0x0405
  completeErrAt : Option Nat := none -- ns | R369 | instant of the last event 0x0404
  busErrAt : Option Nat := none -- ns | R358 | instant of the last event 0x0407
  dma : TagQueue := {} -- 512 slots | R361 | DMA descriptors
  dmaBytes : Nat := 0 -- 20 bits | R363 | bytes moved below the next 1 MB of MBYTES
deriving DecidableEq, Repr

/-! spec/03_solenoid_drive.md -/

/-- What a status frame of a stage die has to report to the main die (R84). -/
inductive Report where
  | bits (addr lsb width value : Nat) -- a field of a register takes a value
  | irq (source : Nat)                -- an interrupt source fires
  | event (code : Nat) (data : List Byte) -- an event is logged
  | tally (addr : Nat)                -- a counter counts one
deriving DecidableEq, Repr

/-- A stage die: solenoid dies 0 to 2, switch dies 3 and 4 (R109). -/
structure Die where
  hold : Bool := false -- 1 bit | R84 | in hold
  stopped : Bool := true -- 1 bit | R129 | stop latch of the die
  inA : Bool := true -- 1 bit | R126 | STOP_A asserted, as the die sees it
  inB : Bool := true -- 1 bit | R126 | STOP_B asserted, as the die sees it
  filt : Nat := 4 -- µs | R127 | filter of the stop inputs
  pgnd : Bool := false -- 1 bit | R109 | power ground lost
  lgnd : Bool := false -- 1 bit | R110 | logic ground lost
  lgndHold : Bool := false -- 1 bit | R110 | logic ground lost during this hold
  reports : List Report := [] -- reports | R84 | state changes and events no status frame has reported yet, oldest first
  grid : Nat × Nat := (0, 0) -- frame, ns | R85 | frame number and instant from which the die counts frames in hold
  status : Option Nat := none -- sequence number | R56 | last status frame with a correct CRC-16
  arrived : Bool := false -- 1 bit | R56 | a valid status frame has arrived in this frame
  missed : Nat := 0 -- 2 bits | R56 | consecutive frames without a valid status frame, up to 3
  valid : Nat := 0 -- 2 bits | R56 | consecutive frames with a valid status frame, up to 3
deriving DecidableEq, Repr

/-- A solenoid channel at its stage die. -/
structure SdChan where
  reqAt : Nat := 0 -- ns | R75 | request time of the queued pull-in
  late : Bool := false -- 1 bit | R76 | the queued request was reported late
  grantAt : Nat := 0 -- ns | R81 | instant of the grant
  dwellEnd : Nat := 0 -- ns | R74 | end of the peak dwell
  peak : Nat := 16 -- 10 bits | R66 | PEAK of the sequence running
  dwell : Nat := 0 -- 9 bits | R66 | DWELL of the sequence running
  duty : Nat := 0 -- 10 bits | R72 | duty of the running PWM cycle
  onEnd : Nat := 0 -- u64 frame | R72 | frame at which the PWM on-interval ends
  phase : Nat := 0 -- 14 bits | R73 | effective PWM phase since the last arming
deriving DecidableEq, Repr

/-- A solenoid bank at its stage die. -/
structure SdBank where
  queue : List Nat := [] -- up to 4 | R75 | channels queued for pull-in, next first
  bucket : Nat := 1250000000000 -- pJ | R68 | clamp energy bucket
  leakAt : Nat := 0 -- ns | R68 | instant of the last leak
  clamp : Bool := false -- 1 bit | R68 | clamp event in progress
  holdEnd : Option Nat := none -- ns | R84 | end of the hold timer
  failed : Bool := false -- 1 bit | R55 | hold expired before reclaim
  tj : Nat := 25 -- °C | R79 | bank switch junction, as last measured
deriving DecidableEq, Repr

/-! spec/04_load_switches.md -/

/-- A switch channel at its stage die. -/
structure LsChan where
  out : Bool := false -- 1 bit | R93 | switch closed
  inrEnd : Nat := 0 -- ns | R97 | end of the inrush window
  restarts : Nat := 0 -- 4 bits | R100 | restarts since the count was reset
  lastOn : Option Nat := none -- ns | R100 | last switch-on or automatic restart
  latched : Bool := false -- 1 bit | R100 | latched off after the last allowed restart
  clamp : Bool := false -- 1 bit | R101 | clamp event in progress
  bucket : Nat := 300000000000 -- pJ | R101 | clamp energy bucket
  leakAt : Nat := 0 -- ns | R101 | instant of the last leak
  duty : Nat := 0 -- 12 bits | R95 | duty of the running cycle
  onEnd : Nat := 0 -- ns | R95 | end of the on-interval
  soft : Nat := 0 -- 2 bits | R96 | soft start: 0 none, 1 waiting for t0, 2 ramp, 3 done
  softT0 : Nat := 0 -- u64 frame | R96 | first frame of the ramp
deriving DecidableEq, Repr

/-- A switch group at its stage die. -/
structure LsGroup where
  holdEnd : Option Nat := none -- ns | R106 | end of the hold timer
  failed : Bool := false -- 1 bit | R55 | hold expired before reclaim
deriving DecidableEq, Repr

/-- A register write on its way to a stage die: the whole word, or the one field at a bit. -/
structure Post where
  addr : Nat -- u32 | R61 | register
  value : Word -- 32 bits | R61 | word written
  field : Option Nat := none -- bit | R61 | the field written through a dictionary object
  wait : Nat := 1 -- frame boundaries | R61 | boundaries until it takes effect
deriving DecidableEq, Repr

/-- The stage dies. -/
structure Stage where
  dies : Tbl Die := [] -- 5 dies | R59 | stage dies
  sdCh : Tbl SdChan := [] -- 48 channels | R60 | solenoid channels
  sdBank : Tbl SdBank := [] -- 12 banks | R74 | solenoid banks
  lsCh : Tbl LsChan := [] -- 32 channels | R93 | switch channels
  lsGrp : Tbl LsGroup := [] -- 8 groups | R91 | switch groups
  posted : List Post := [] -- writes | R61 | register writes that have not reached their die, oldest first
  seen : Tbl Word := [] -- 32 bits each | R84 | status registers of the dies as the last status frames reported them
  grid : Nat × Nat := (0, 0) -- frame, ns | R85 | frame number and instant of the last frame boundary sent to the dies
  sdDefer : List Nat := [] -- banks | R89 | bank turn-offs deferred by a load dump, in order of request
  lsDefer : List (Nat × Bool) := [] -- actions | R108 | switch-ons and turn-offs deferred, oldest first
deriving DecidableEq, Repr

/-! spec/02_control_engine.md -/

/-- A firing that completes after its loop has stopped and started again: its parameter set, its sample instant, its
law state and its output. -/
structure Firing where
  set : List Word -- 64 words | R49 | active set of the firing
  window : Option (Nat × Time) := none -- frames, time64 | R37 | frames left of its deferred period, and its sample instant
  law : List Word := [] -- 5 f32 | R49 | r_prev, y_prev, u_prev, i and d_prev
  spd : F32 := 0 -- f32 | R45 | dictionary set-point at the sample instant
  output : Option F32 := none -- f32 | R36 | output computed, applied at the next frame boundary
  quiet : Bool := false -- 1 bit | R39 | the output is a safe value, which is not published
deriving DecidableEq, Repr

/-- A control loop. -/
structure LoopSt where
  active : List Word := [] -- 64 words | R50 | active set, by word offset of the loop block
  startIn : Nat := 0 -- boundaries | R34 | frame boundaries to pass before the loop may fire
  first : Bool := false -- 1 bit | R45 | the next firing is the first
  stopPend : Bool := false -- 1 bit | R49 | stop at the next frame boundary
  window : Option (Nat × Time) := none -- frames, time64 | R37 | frames left of the deferred period running, and its sample instant
  missRun : Nat := 0 -- 8 bits | R39 | consecutive missed periods
  lastSp : F32 := 0 -- f32 | R44 | last valid set-point stream
  lastFf : F32 := 0 -- f32 | R44 | last valid feedforward
  lastS : F32 := 0 -- f32 | R44 | last valid schedule variable
  resume : Option F32 := none -- f32 | R54 | reclaimed output
  old : List Word := [] -- 64 words | R52 | active set before a bumpless APPLY not yet computed
  output : Option F32 := none -- f32 | R36 | output computed, applied at the next frame boundary
  spd : F32 := 0 -- f32 | R45 | dictionary set-point at the sample instant
  fallbacks : List Nat := [] -- ns each | R58 | fall-backs of the last second
  safeOut : Bool := false -- 1 bit | R39 | the output waiting is the safe value of a trip
  tails : List Firing := [] -- firings | R49 | firings of an earlier run that still complete, oldest first
deriving DecidableEq, Repr

/-- The control engine and the link master. -/
structure Engine where
  loops : Tbl LoopSt := [] -- 64 loops | R34 | control loops
  phase : Int := 0 -- half ns | R33 | sub-frame phase error still to be trimmed
  lastBoundary : Time := 0 -- time64 | R32 | device time of the last frame boundary
  reclaim : Bool := false -- 1 bit | R53 | reclaim requested
  resetAt : Nat := 0 -- ns | R53 | instant of the last reset that left stages holding
  autoStart : Bool := false -- 1 bit | R53 | loops with auto-start wait for GRID_LOCK
  unwatched : Nat := 3 -- 2 bits | R56 | frames before the status frames are supervised
deriving DecidableEq, Repr

/-! spec/05_sensor_inputs.md -/

/-- The stop inputs and the stop. -/
structure Stop where
  inA : Bool := true -- 1 bit | R126 | STOP_A asserted
  inB : Bool := true -- 1 bit | R126 | STOP_B asserted
  remoteEnd : Option Nat := none -- ns | R128 | end of cause REMOTE
  freeSince : Option Nat := none -- ns | R128 | instant since which no cause is present
  frameAt : Nat := 0 -- ns | R29 | next repetition of the stop frame
  differAt : Option Nat := none -- ns | R130 | instant since which the inputs differ
  bothSeen : Bool := false -- 1 bit | R130 | both inputs asserted together since DISC was set
  seen : List (Nat × Nat × Nat) := [] -- source, SEQ, ns | R272 | stop frames received, newest first
deriving DecidableEq, Repr

/-! spec/10_parterre_gatehouse.md -/

/-- A timed command in the GH queue (Table 10-3). -/
structure GhCmd where
  ts : Time := 0 -- time64 | R249 | switching instant
  issue : Nat := 0 -- u32 | R249 | issue tick
  on : Bool := false -- 1 bit | R249 | on or off
  kind : Nat := 0 -- 1 bit | R249 | 0 SD, 1 LS
  ch : Nat := 0 -- 6 bits | R249 | channel
  section_ : Nat := 0 -- 7 bits | R249 | section
  epoch : Nat := 0 -- u16 | R249 | takeover epoch of the issuer
  late : Bool := false -- 1 bit | R251 | received after its instant, or passed over by a step
  fresh : Bool := true -- 1 bit | R250 | no frame boundary came since it was received, or since a step
deriving DecidableEq, Repr

/-- The GH unit. -/
structure GhUnit where
  queue : List GhCmd := [] -- up to 256 | R249 | queued commands in order of acceptance
  lastIssue : Tbl Nat := [] -- u32 per channel | R249 | issue tick of the last accepted command of a channel, plus 1
  unsyncLogged : Bool := false -- 1 bit | R250 | event 0x0E07 logged in this loss of synchronisation
deriving DecidableEq, Repr

/-! spec/17_clocks.md -/

/-- A register write that waits for the clock of its gating group (R404). -/
structure GatedWrite where
  who : Nat := 8 -- Nat | R404 | requester
  addr : Nat -- address | R404 | register
  value : Word -- u32 | R404 | value written
  size : Nat := 4 -- Nat | R320 | bytes written, fewer than 4 at CV_DATA alone
deriving DecidableEq, Repr

/-- Clock sources in use. -/
structure Clocks where
  sysRef : Nat := 0 -- 2 bits | R396 | reference of the SYS PLL: 0 TCXO, 1 recovered clock, 2 RC, 3 none
  rcAt : Nat := 0 -- ns | R397 | instant since which device time counts on the RC at the present accuracy
  runs : List Nat := [0, 0, 0, 0] -- Nat each | R393 | consecutive windows outside the limits by check A to D
  tcxo : Bool := false -- 1 bit | R396 | TCXO failed
  rc : Bool := false -- 1 bit | R399 | RC failed
  xt : Bool := false -- 1 bit | R400 | crystal failed
  calRun : Nat := 0 -- Nat | R395 | consecutive windows in which check A passed
  monRun : Nat := 0 -- Nat | R394 | consecutive windows in which check B passed
  gnssOff : Bool := false -- 1 bit | R396 | GNSS PLL stopped
  alt : Nat := 0 -- 7 bits | R396 | PLLs on their fallback reference, in the order of Table 17-2
  target : List Nat := [2, 2] -- 2 bits each | R403 | operating point of the running sequence by cluster
  seqEnd : List Nat := [0, 0] -- ns each | R403 | end of the running sequence by cluster
  rtcBad : Bool := false -- 1 bit | R400 | the RTC value is marked invalid at the next power-down
  gated : List GatedWrite := [] -- R404 | register writes that wait for the clock of their gating group, oldest first
deriving DecidableEq, Repr

/-! spec/16_memory_storage.md -/

/-- SRAM repair. -/
structure Sram where
  failed : List Nat := [] -- macro numbers | R376 | failed macros
  spares : Tbl Nat := [] -- 320 × u8 | R376 | spare rows used, by macro
deriving DecidableEq, Repr

/-- DRAM errors. -/
structure Dram where
  bad : List Nat := [] -- word addresses | R378 | words marked uncorrectable
  corrected : List Nat := [] -- word addresses | R380 | words corrected in this scrub period
  retired : List Nat := [] -- up to 1,024 | R380 | retirement list, in the Ember store
deriving DecidableEq, Repr

/-- A block of the managed flash. -/
structure FlashBlock where
  data : List Byte := [] -- 4,096 bytes | R384 | contents; none where nothing was written since the last trim or erase
  trims : Nat := 0 -- Nat | R385 | trims of the block, which number its unknown contents
deriving DecidableEq, Repr

/-- Storage controller and managed flash. -/
structure Flash where
  queue : TagQueue := {} -- 256 slots | R385 | storage commands
  late : List Nat := [] -- u16 each | R387 | tags timed out whose device response is outstanding
  blocks : Tbl FlashBlock := [] -- 64 GB | R384 | blocks by partition × 2^32 + block number
  loose : Tbl FlashBlock := [] -- blocks | R386 | contents before the writes that need not survive a power cut
  keys : Tbl Nat := [] -- per partition | R384 | crypto-erases
  life : Nat := 0 -- u8 | R388 | life-time estimate in %
  lifeLogged : Bool := false -- 1 bit | R388 | event 0x0508 logged in this power cycle
deriving DecidableEq, Repr

/-- An analog input. -/
structure AnalogIn where
  last : Option Time := none -- time64 | R115 | last sample instant
  filter : Option F32 := none -- f32 | R115 | output of the low-pass filter
deriving DecidableEq, Repr

/-- A pulse input. -/
structure PulseIn where
  level : Bool := false -- 1 bit | R118 | level after the glitch filter
  only : Bool := false -- 1 bit | R120 | the last edge only set the reference: nothing is published until the next
  tRef : Option Time := none -- time64 | R120 | latest edge used at the last publication that had new edges
  tLast : Time := 0 -- time64 | R120 | last counted edge
  edges : Int := 0 -- i32 | R120 | counted edges after tRef, signed in quadrature
  fPrev : F32 := 0 -- f32 | R120 | frequency last published
  stalled : Bool := false -- 1 bit | R120 | no edge since the zero-speed timeout
  lastPub : Option Time := none -- time64 | R119 | last publication instant
deriving DecidableEq, Repr

/-- A loss input during its reporting interval. -/
structure LossIn where
  count : Nat := 0 -- u16 | R123 | impacts so far
  bins : List Nat := [0, 0, 0, 0, 0, 0, 0, 0, 0, 0, 0, 0, 0, 0, 0, 0] -- 16 × u16 | R123 | histogram so far
  deadUs : Nat := 0 -- µs | R123 | dead time so far
  holdUntil : Time := 0 -- time64 | R122 | end of the hold-off
  lastEnd : Option Time := none -- time64 | R123 | end of the last interval
deriving DecidableEq, Repr

/-- The sensor front ends. -/
structure Sensors where
  ai : Tbl AnalogIn := [] -- 48 inputs | R115 | analog inputs
  pi : Tbl PulseIn := [] -- 24 inputs | R118 | pulse inputs
  li : Tbl LossIn := [] -- 8 inputs | R122 | loss inputs
  imuLast : Option Time := none -- time64 | R125 | last IMU sample instant
deriving DecidableEq, Repr

/-! spec/06_fusion.md -/

/-- An estimate of a fused quantity. -/
structure FuEst where
  x : List F32 := [] -- up to 9 × f32 | R131 | components
  p : F32 := 0 -- f32 | R144 | variance of the primary component
  t : Time := 0 -- time64 | R141 | instant the estimate refers to
deriving DecidableEq, Repr

/-- A measurement of a fused quantity. -/
structure FuMeas where
  t : Time := 0 -- time64 | R141 | timestamp
  slot : Nat := 0 -- 6 bits | R138 | input slot
  z : List F32 := [] -- f32 each | R138 | measured components, the first ones of the quantity
  sd : F32 := 0 -- f32 | R144 | standard deviation
  passed : Bool := false -- 1 bit | R146 | already gated: the sample that unmasked its slot
deriving DecidableEq, Repr

/-- The mask of a slot for one quantity. -/
structure FuMask where
  cause : Nat := 0 -- 3 bits | R145 | cause, 0 unmasked
  shadow : Nat := 0 -- u8 | R146 | consecutive passing shadow samples
  win : List Bool := [] -- up to 32 | R145 | last gate results, newest first
deriving DecidableEq, Repr

/-- An input slot. -/
structure FuSlot where
  hist : List (Time × Sample) := [] -- up to 512 | R140, R143 | alignment history with the instant each sample was delivered, newest first
  acc : List Sample := [] -- samples | R140 | samples of the resampling interval under way
  maskA : FuMask := {} -- - | R145 | mask for the first quantity fed
  maskB : FuMask := {} -- - | R145 | mask for the second quantity fed
  corr : List F32 := [0, 0, 0, 0, 0, 0] -- 6 × f32 | R155 | applied correction: 3 × m, 3 × degree
  est : List F32 := [0, 0, 0, 0, 0, 0] -- 6 × f32 | R156 | estimated correction that the stable time counts from
  stableAt : Nat := 0 -- ns | R156 | instant since which the estimate has not moved
  calAt : Nat := 0 -- ns | R155 | last update
  storedAt : Option Nat := none -- ns | R156 | last store
  frozen : Bool := false -- 1 bit | R155 | bound left
  calReset : Bool := false -- 1 bit | R156, R139 | the correction is reset at the next boundary
deriving DecidableEq, Repr

/-- A fused quantity. -/
structure FuQty where
  base : Option FuEst := none -- - | R142 | estimate before the samples of the history
  applied : List FuMeas := [] -- samples | R142 | filter history: samples applied, by timestamp and slot
  queue : List FuMeas := [] -- samples | R141 | on-time samples waiting for their epoch, by timestamp and slot
  late : List FuMeas := [] -- samples | R142 | late samples waiting for the publication under way
  last : Option Time := none -- time64 | R132 | last epoch published or passed
  prev : Option FuEst := none -- - | R135 | estimate last published
  agreed : Option FuEst := none -- - | R150 | last agreed estimate
  cStart : Nat := 0 -- u16 | R151 | confidence before the dispute
  dispute : Option (Time × Nat × Nat) := none -- time64, slots | R150 | epoch at which the dispute began and its two slots
  held : Option FuEst := none -- - | R153 | value held after the horizon
  win : List Bool := [] -- up to 32 | R150 | results of the last pairwise tests, newest first
  passes : Nat := 0 -- u8 | R153 | consecutive passing pairwise tests while held
  reset : Bool := false -- 1 bit | R154 | reset requested
  fixes : Nat := 0 -- Nat | R134 | position fixes applied
deriving DecidableEq, Repr

/-- A published estimate. -/
structure FuPub where
  t : Time := 0 -- time64 | R133 | epoch instant
  ts : Time := 0 -- time64 | R132 | production timestamp
  x : List F32 := [] -- f32 each | R131 | components
  conf : Nat := 0 -- u16 | R144 | confidence
  held : Bool := false -- 1 bit | R153 | HELD
deriving DecidableEq, Repr

/-- The fusion engine and service. -/
structure Fusion where
  pubs : Tbl (Option FuPub) := [] -- 11 quantities | R132 | last publication of each quantity
  poses : List FuPub := [] -- up to 12,400 | R241 | pose publications of the last 61 s, newest first
  slots : Tbl FuSlot := [] -- 64 slots | R138 | input slots
  qtys : Tbl FuQty := [] -- 11 quantities | R131 | fused quantities
  cfg : Tbl ObjVal := [] -- objects | R139 | slot objects in effect, by key
  cfgEpoch : Option Time := none -- time64 | R139 | last boundary at which slot writes took effect
  farLogged : Bool := false -- 1 bit | R137 | event 0x0A0B logged in this power cycle
  jobs : Tbl TagQueue := [] -- 2 queues | R157 | job queues
  busy : Option (Nat × Nat) := none -- queue, tag | R159 | job on the matrix unit
deriving DecidableEq, Repr

/-! spec/07_camera_pipeline.md -/

/-- An exposure of the frame in progress. -/
structure CamExp where
  started : Bool := false -- 1 bit | R164 | its frame start has arrived
  ended : Bool := false -- 1 bit | R163 | its frame end has arrived
  lost : Bool := false -- 1 bit | R163 | a line was lost
  lines : List (List Nat) := [] -- lines of u16 codes | R168 | lines received, first to last
deriving DecidableEq, Repr

/-- A frame in progress. -/
structure CamFrame where
  num : Nat := 0 -- u16 | R164 | CSI-2 frame number
  ts : Time := 0 -- time64 | R166 | frame timestamp
  arrived : Nat := 0 -- ns | R164 | arrival of the frame start of slot 0
  seq : Nat := 0 -- u32 | R177 | SEQ of the frame
  accepted : Bool := false -- 1 bit | R164 | its slot 0 has started and it was not dropped
  exps : List CamExp := [] -- up to 3 | R164 | exposures, slot 0 first
  bufs : List (Option (Option Nat)) := [none, none, none] -- 3 rings | R177 | per ring: write point not reached, dropped or off, or the buffer taken
  params : Option (List Byte) := none -- 43,456 bytes | R173 | parameter set the frame runs on, none the defaults
deriving DecidableEq, Repr

/-- A ring of a port. -/
structure CamRing where
  on : Bool := false -- 1 bit | R177 | EN in effect
  last : Option Nat := none -- 4 bits | R177 | buffer written last
deriving DecidableEq, Repr

/-- A camera port. -/
structure CamPort where
  frames : List CamFrame := [] -- frames | R164 | frames in progress, oldest first
  prev : Option Nat := none -- ns | R175 | frame start last accepted
  seq : Nat := 0 -- u32 | R177 | frames accepted since enable
  skip : Bool := false -- 1 bit | R175 | the Damper drops the next frame
  active : Option (List Byte) := none -- 43,456 bytes | R173 | parameter block in effect, none the defaults
  shadow : Option (List Byte) := none -- 43,456 bytes | R173 | parameter block waiting for a frame start
  copying : Bool := false -- 1 bit | R173 | a copy of the parameter block runs
  rings : List CamRing := [{}, {}, {}] -- 3 rings | R176 | tap slots 0 and 1, output ring
  lostAt : Option Nat := none -- ns | R167 | instant of the link loss
  pktErrs : List Nat := [] -- ns each | R163 | packet errors of the last second
  pktLogAt : Option Nat := none -- ns | R163 | last event 0x0B07
  phase : Nat := 0 -- u16, µs | R173 | PHASE in effect
  syncAt : Option Time := none -- time64 | R166, R211 | instant that the next frame-sync edge must pass
  replayAt : Option Nat := none -- ns | R175 | last replay instant
  replayIdx : Nat := 0 -- 4 bits | R175 | next replay frame
  featTs : Option Time := none -- time64 | R181 | timestamp of the frame before
  i2c : Word := 0 -- 32 bits | R167 | CAM_PI2C as it started the running transfer
deriving DecidableEq, Repr

/-! spec/08_gnss_time.md -/

/-- A tracking channel. -/
structure GnCh where
  code : Nat := 0 -- u32 | R187 | code word in force
  carr : Int := 0 -- i48 | R187 | carrier word in force
  codePh : Nat := 0 -- 2^-32 chip | R187 | code phase of the next sample since the load epoch
  carrPh : Int := 0 -- 2^-48 cycle | R187 | carrier phase of the next sample
  stop : Nat := 0 -- 2^-32 chip | R189 | code phase at which the integration ends
  since : Time := 0 -- time64 | R192 | instant of the last sample, or of the load
  ahead : Nat := 0 -- Nat | R189 | samples by which the phases lie after that instant: 0 after the load, 1 after a dump
  pend : Option (Nat × Int × Nat) := none -- words, slip | R190 | commit waiting for the dump boundary
  commits : Nat := 0 -- u16 | R190 | commits in force
  unacked : Bool := false -- 1 bit | R191 | the last dump is not acknowledged
deriving DecidableEq, Repr

/-- A time pulse output. -/
structure Tpo where
  ctrl : Option (Word × Word) := none -- 2 × 32 bits | R207 | control and width until the next whole second, when written
  change : Time := 0 -- time64 | R207 | whole second from which the written values hold
  last : Option Time := none -- time64 | R207 | last grid instant
  floor : Option Time := none -- time64 | R211 | instant that the first pulse after a step must pass
deriving DecidableEq, Repr

/-- The satellite receiver and the position service. -/
structure Gnss where
  ch : Tbl GnCh := [] -- 192 channels | R186 | tracking channels
  dumped : Bool := false -- 1 bit | R189 | a channel has dumped since the last interrupt instant
  retryAt : Nat := 0 -- ns | R182 | instant of the antenna short or of the last retry
  acqEnd : Time := 0 -- time64 | R184 | end of the running search
  lastMeas : Option Time := none -- time64 | R192 | last measurement instant
  latches : List Time := [] -- time64 each | R195 | latches without a fix, oldest first
  navSeq : Nat := 0 -- u32 | R194 | navigation messages written
  fails : List Nat := [0, 0, 0, 0, 0, 0] -- 6 × u32 | R193 | check failures by signal
  orbits : Tbl (List Byte) := [] -- messages | R185 | last checked message of each signal, satellite and type, in the Ember store
  lastPos : Option (Nat × Nat × Nat) := none -- 3 × f64 | R185 | last position, in the Ember store
  corrs : List Nat := [0, 0, 0] -- 3 × u32 | R198 | corrections accepted, CRC failures, unsupported
  corrAt : Option Nat := none -- ns | R198 | last correction message
  stream : List Byte := [] -- bytes | R198 | bytes of the CAN correction stream that make no whole frame yet
  station : Tbl (List Byte) := [] -- by type | R198 | last reference station and descriptor messages, 1005 to 1033
  seen : List (Time × GnObs) := [] -- time64, - | R199 | observations of the fixes of the last second, newest first
  corrOld : Bool := false -- 1 bit | R198 | CORR_OLD
  excluded : List (Nat × Nat × Nat × Nat) := [] -- SIG, PRN, check, ns | R199 | excluded signals and the instant of their last failure
  clock : Option (Option Nat × Int) := none -- ns, ns | R200 | CLOCK: since when the offset persists, and the offset
  clockPass : Option Nat := none -- ns | R200 | since when both clock checks pass
  fixed : Bool := false -- 1 bit | R131 | a position fix was formed
deriving DecidableEq, Repr

/-- Device time. -/
structure TimeSt where
  dev : Time := 0 -- time64 | R4 | device time
  unc0 : Nat := 0xFFFFFFFF -- u32, ns | R203 | uncertainty at the last change of its rule
  uncAt : Nat := 0 -- ns | R203 | instant of unc0 in monotonic time
  slewLeft : Int := 0 -- i32, ns | R209 | remainder of the slew
  slewSum : Int := 0 -- i32, ns | R209 | amount of the slew as written
  fixSince : Option Nat := none -- ns | R201 | since when every fix was a checked one
  fixAt : Option Nat := none -- ns | R201 | last checked fix
  err : Int := 0 -- ns | R201 | device time − reference, from the last checked fix and the corrections since
  learned : Nat := 0 -- ns | R203 | time the TCXO model has been learned, to the last change of state
  stepAmt : Int := 0 -- i64, ns | R210 | armed step
  stepAt : Time := 0 -- time64 | R210 | whole second at which the armed step becomes pending or executes
  byWrite : Bool := false -- 1 bit | R206 | the step is a time write
  tpo : List Tpo := [{}, {}] -- 2 outputs | R207 | time pulse outputs
deriving DecidableEq, Repr

/-! spec/14_object_dictionary.md -/

/-- A retained record (Table 14-4). -/
structure Rec where
  typ : Nat := 0 -- u8 | R333 | TYPE
  fmt : Nat := 0 -- u8 | R333 | FMT
  gen : Nat := 0 -- u32 | R333 | GEN
  value : List Byte := [] -- LEN bytes | R333 | VALUE
  crcOk : Bool := true -- 1 bit | R333 | the CRC agrees
  erase : Bool := false -- 1 bit | R336 | marked for erasure at the next start
deriving DecidableEq, Repr

/-- A block write session. -/
structure Session where
  who : Nat := 0 -- requester | R341 | requester
  index : Nat := 0 -- u16 | R341 | object
  sub : Nat := 0 -- u8 | R341 | sub-index
  bytes : List Byte := [] -- bytes | R341 | bytes received
  till : Nat := 0 -- ns | R341 | instant at which it closes without a further request
deriving DecidableEq, Repr

/-- A subscription. -/
structure Subscr where
  id : Nat := 0 -- u16 | R342 | subscription ID
  who : Nat := 0 -- requester | R342 | subscriber
  index : Nat := 0 -- u16 | R342 | object
  sub : Nat := 0 -- u8 | R342 | sub-index
  period : Nat := 0 -- u16, ms | R342 | period, 0 on change
  least : Nat := 0 -- u16, ms | R342 | minimum interval
  seq : Nat := 0 -- u16 | R342 | sequence of the next notification
  value : List Byte := [] -- bytes | R342 | value as last notified
  last : Nat := 0 -- ns | R342 | last notification
  grid : Option Time := none -- time64 | R342 | last multiple of the period taken
deriving DecidableEq, Repr

/-- A remote transaction. -/
structure Remote where
  tag : Nat := 0 -- u16 | R346 | tag
  peer : Nat := 0 -- requester | R346 | server
  op : Nat := 0 -- u8 | R346 | operation
  index : Nat := 0 -- u16 | R346 | object
  sub : Nat := 0 -- u8 | R346 | sub-index
  slot : Option Nat := none -- 4 bits | R441 | mailbox slot it belongs to
  till : Nat := 0 -- ns | R346 | instant of its timeout
  ended : Bool := false -- 1 bit | R25 | it has ended, and its mailbox slot is not yet released
deriving DecidableEq, Repr

/-- A subscription of this module at another. -/
structure OwnSub where
  peer : Nat := 0 -- requester | R338 | server
  id : Nat := 0 -- u16 | R338 | subscription ID
  index : Nat := 0 -- u16 | R338 | object
  sub : Nat := 0 -- u8 | R338 | sub-index
  seq : Option Nat := none -- u16 | R342 | last sequence received
  last : Nat := 0 -- ns | R342 | when something was received last
  mailbox : Bool := true -- 1 bit | R442 | made through the mailbox
deriving DecidableEq, Repr

/-- The dictionary service. -/
structure Service where
  sessions : List Session := [] -- up to 8 | R341 | block write sessions
  subs : List Subscr := [] -- up to 256 | R342 | subscriptions
  nextSub : Nat := 1 -- u16 | R342 | ID of the next new subscription
  kept : List (Nat × Nat × FlueFrame) := [] -- up to 256 | R343 | requester, SEQ and response of the last requests over the fabric, newest first
  remotes : List Remote := [] -- up to 1,024 | R346 | remote transactions outstanding
  own : List OwnSub := [] -- subscriptions | R338 | subscriptions of this module at other modules
  late : Nat := 0 -- Nat | R346 | responses discarded after the end of their transaction
  fullAt : Option Nat := none -- ns | R331 | last event 0x1305
  full : Nat := 0 -- Nat | R331 | requests refused since that event
deriving DecidableEq, Repr

/-- An object that the application image has created. -/
structure Oem where
  typ : ObjTy := .u8 -- type | R325 | type
  acc : ObjAcc := .rw -- access | R325 | access
  value : ObjVal := .num 0 -- value | R325 | value
deriving DecidableEq, Repr

/-! spec/09_draught_governor.md -/

/-- A machine function. -/
structure GovFn where
  state : Nat := 0 -- u8 | R214 | state of Table 9-2
  present : F32 := 0 -- f32 | R217 | present value
  commanded : F32 := 0 -- f32 | R217 | commanded value
  moving : Bool := false -- 1 bit | R217 | a move is in progress
  origin : F32 := 0 -- f32 | R217 | present value at the command of the move
  since : Nat := 0 -- ticks | R217 | tick of the command of the move
  settle : Nat := 0 -- ticks | R217 | settle instant
  written : F32 := 0 -- f32 | R224 | value last written to the target or read back from it
  freezeEnd : Nat := 0 -- ticks | R223 | end of the freeze
  op : Option F32 := none -- f32 | R223 | operator value waiting for the next tick
  owed : Option F32 := none -- f32 | R231 | value before a trial that a FAULT ended, to revert to
  down : Bool := false -- i8 | R228 | search direction −1
  counters : List Nat := [0, 0, 0, 0, 0] -- 5 × u32 | R228 | trials, kept, reverted, rule actions, operator changes
deriving DecidableEq, Repr

/-- A governor rule's running state. -/
structure GovRule where
  acted : Option Nat := none -- ticks | R225 | tick at which it last acted
  episode : Bool := false -- 1 bit | R225 | event 0x0D05 logged in the episode in which it stays due
  actions : Nat := 0 -- u32 | R225 | actions
  skips : Nat := 0 -- u32 | R225 | skips
deriving DecidableEq, Repr

/-- The Draught governor. -/
structure Gov where
  fns : Tbl GovFn := [] -- 48 functions | R213 | machine functions
  rules : Tbl GovRule := [] -- 64 rules | R225 | rules
  tick : Nat := 0 -- ticks | R213 | number of the next tick
  last : Option Time := none -- time64 | R213 | instant of the last tick
  active : Bool := false -- 1 bit | R221 | active
  fails : Nat := 0 -- 5 bits | R221 | failing conditions
  phase : Nat := 0 -- 2 bits | R228 | 0 BASELINE, 1 STEP and DWELL, 2 EVALUATE
  winEnd : Option Nat := none -- ticks | R228 | end of the window being measured
  cand : Nat := 0 -- u8 | R228 | function the baseline is measured for
  trial : Option Nat := none -- u8 | R228 | function under trial
  v0 : F32 := 0 -- f32 | R233 | its value before the trial
  pointer : Option Nat := none -- u8 | R228 | search pointer; none at the first function
  j0 : F32 := 0 -- f32 | R228 | J0
  j1 : F32 := 0 -- f32 | R228 | J1
deriving DecidableEq, Repr

/-! spec/10_parterre_gatehouse.md -/

/-- A cell of the map. -/
structure Cell where
  mass : F32 := 0 -- f32, kg | R241 | mass attributed
  area : F32 := 0 -- f32, m² | R241 | area attributed
  flowSum : F32 := 0 -- f32 | R241 | sum of the F values that contributed
  flows : Nat := 0 -- Nat | R241 | number of F values that contributed
  moistSum : F32 := 0 -- f32 | R241 | moisture weighted by mass
  moistW : F32 := 0 -- f32, kg | R241 | weight of the moisture
  pass : Nat := 0 -- u16 | R241 | pass ID of the first cover
  first : Option Time := none -- time64 | R241 | instant of the first cover
  src : Nat := 0 -- u64 | R245 | serial number of the module of the first cover
  remote : Bool := false -- 1 bit | R245 | REMOTE
  sub : Nat := 0 -- 64 bits | R238 | coverage sub-bits
deriving DecidableEq, Repr

/-- A tile of the map. -/
structure MapTile where
  bases : List Time := [] -- time64 each | R239 | base times of its generations, newest first
  dirty : Bool := false -- 1 bit | R245 | sub-bits changed since it was last shared
  sentAt : Option Nat := none -- ns | R245 | last sharing
deriving DecidableEq, Repr

/-- A task. -/
structure Task where
  size : Nat := 1000 -- u16, mm | R237 | cell size, fixed for the task
  origin : List Nat := [] -- 3 × 64 bits | R237 | fusion origin, fixed for the task
  cells : Tbl Cell := [] -- cells | R237 | cells by place
  tiles : Tbl MapTile := [] -- tiles | R237 | tiles by key
  pass : Nat := 0 -- u16 | R240 | pass ID
  unassigned : F32 := 0 -- f32, kg | R241 | unassigned mass
  raw : List (List Byte) := [] -- 36 bytes each | R242 | raw point log, newest first
deriving DecidableEq, Repr

/-- The Parterre map store. -/
structure Parterre where
  tasks : Tbl (Option Task) := [] -- tasks | R240 | tasks by number
  task : Nat := 0 -- u32 | R240 | open task, 0 none
  recording : Bool := false -- 1 bit | R240 | Recording
  paused : Bool := false -- 1 bit | R241 | attribution paused
  reserve : Bool := false -- 1 bit | R243 | reserve entered
  exportTask : Option Nat := none -- u32 | R244 | task being exported
  exportState : Nat := 0 -- u8 | R244 | export status
  refused : Nat := 0 -- Nat | R245 | remote tiles refused
deriving DecidableEq, Repr

/-- A section as Gatehouse keeps it. -/
structure Sect where
  pend : Option (Time × Bool) := none -- time64, 1 bit | R247 | pending command: instant and state
  byMode : Bool := false -- 1 bit | R247 | the pending command comes from a change of mode or a fallback
  on : Bool := false -- 1 bit | R247 | executed state of a section on another module
  counters : List Nat := [0, 0, 0] -- 3 × u32 | R247 | sent, re-sent, late reported
deriving DecidableEq, Repr

/-- The Gatehouse service. -/
structure Gatehouse where
  sects : Tbl Sect := [] -- 128 sections | R246 | sections
  last : Option Time := none -- time64 | R247 | last decision tick
  fallback : Bool := false -- 1 bit | R248 | fallback in force
  resend : Bool := false -- 1 bit | R253 | the mirrored schedule is to be sent again at the next tick
deriving DecidableEq, Repr

/-! spec/11_steering.md -/

/-- The steering service. -/
structure Steering where
  state : Nat := 0 -- u8 | R263 | 0 DISABLED, 1 STANDBY, 2 ENGAGED
  last : Option Time := none -- time64 | R255 | last tick
  request : Bool := false -- 1 bit | R263 | engagement requested for the next tick
  release : Bool := false -- 1 bit | R264 | 0 written to the engage object
  touched : Bool := false -- 1 bit | R264 | a write to 0x2900:04 to :0B since the last tick
  kPrev : F32 := 0 -- f32 | R261 | kappa_prev
  reverse : Bool := false -- 1 bit | R257 | travel against the defined direction
  wheelAt : Option Time := none -- time64 | R264 | tick since which the steering-wheel input is above its threshold
  confAt : Option Time := none -- time64 | R264 | tick since which a confidence is below its minimum or HELD
  speedAt : Option Time := none -- time64 | R264 | tick since which v is outside its limits
  cause : Nat := 0 -- u8 | R264 | last disengage cause
  values : List F32 := [0, 0, 0, 0] -- 4 × f32 | R261 | e_y, e_psi, k, delta
  counters : List Nat := [0, 0, 0] -- 3 × u32 | R263 | engagements, disengagements, refusals
  writeAt : Tbl Nat := [] -- ns per loop | R267 | last set-point write of a loop
  first : Bool := true -- 1 bit | R266 | the next tick performs the actions of R265 with cause 10
deriving DecidableEq, Repr

/-! spec/12_fabric_fleet.md -/

/-- A node as the Hearth keeps it. -/
structure Node where
  serial : Nat := 0 -- u64 | R275 | serial number
  state : Nat := 0 -- u8 | R279 | 0 present, 1 absent, 2 DEPTH, 3 version
  path : List Nat := [] -- up to 15 ports | R275 | egress port at each depth
  up : Nat := 0 -- 3 bits | R275 | upstream port
  bound : Nat := 0 -- u16, µs | R279 | path bound
  absentAt : Option Nat := none -- ns | R287 | instant since which it is absent
  record : List Byte := [] -- node record | R287 | latest node record
  recordGen : Nat := 0 -- u32 | R287 | settings generation of the record
  recordCrc : Nat := 0 -- u32 | R287 | CRC-32C of the record
  arriving : List Byte := [] -- node record | R287 | the part of a new record that has arrived
deriving DecidableEq, Repr

/-- A node record on its way to a replacement (R287). -/
structure Push where
  id : Nat := 0 -- u16 | R287 | node ID
  serial : Nat := 0 -- u64 | R287 | serial number of the replacement
  entries : List Byte := [] -- list entries | R287 | the record as a list of writes (R339)
  sent : Nat := 0 -- Nat | R287 | bytes sent
deriving DecidableEq, Repr

/-- A link between two modules by node ID and port. -/
structure Link where
  a : Nat := 0 -- u16 | R280 | node ID of one end
  pa : Nat := 0 -- 3 bits | R280 | its port
  b : Nat := 0 -- u16 | R280 | node ID of the other end
  pb : Nat := 0 -- 3 bits | R280 | its port
deriving DecidableEq, Repr

/-- A frame that waits for its acknowledgement. -/
structure AckWait where
  frame : FlueFrame -- frame | R295 | the frame as it was sent
  ports : List Nat := [] -- ports | R295 | the ports it left by
  tries : Nat := 0 -- u8 | R295 | retransmissions
  at_ : Nat := 0 -- ns | R295 | instant of the last transmission
  hop : Option (Nat × Nat) := none -- type, port | R493 | image type and egress port of an UPDATE frame
deriving DecidableEq, Repr

/-- A message of the Chimney store. -/
structure Message where
  id : Nat := 0 -- u64 | R297 | MSGID
  kind : Nat := 0 -- u8 | R297 | KIND
  payload : List Byte := [] -- bytes | R297 | payload
deriving DecidableEq, Repr

/-- The fabric. -/
structure Fabric where
  nodes : Tbl (Option Node) := [] -- nodes | R275 | node table of the Hearth, by node ID
  pushes : List Push := [] -- pushes | R287 | records on their way to replacements
  links : List Link := [] -- links | R280 | links the Hearth knows
  blocked : Option Link := none -- link | R280 | blocked ring link
  broken : Option Link := none -- link | R281 | broken ring link, blocked again when it returns
  withheld : Option (Nat × List Nat × Nat) := none -- serial, path, port | R288 | unknown module left unassigned last
  ringMiss : Nat := 0 -- 2 bits | R281 | consecutive missing RINGCHK frames
  ringSeq : Nat := 0 -- u32 | R280 | ring sequence
  foreign : List Nat := [] -- ports | R277 | ports blocked for a second Hearth
  bound : List Nat := [] -- u64 each | R278 | Hearth serial numbers a Pavilion is bound to
  heardAt : Nat := 0 -- ns | R278 | last accepted class-6 frame from a bound Hearth
  path : List Nat := [] -- ports | R275 | own path
  ownBound : Nat := 0 -- u32, µs | R279 | own path bound
  epoch : Nat := 0 -- u16 | R291 | own or accepted epoch, in the Ember store
  setter : Nat := 0 -- u64 | R291 | serial number that set it, in the Ember store
  global : Option Nat := none -- 128 bits | R299 | own global IPv6 address
  learned : Tbl (Option Nat) := [] -- port per address | R299 | ports learned by source address
  superseded : Option Nat := none -- u16 | R294 | superseded epoch, in the Ember store
  seen : List (Nat × Nat × Nat) := [] -- SRC, SEQ, ns | R272 | flooded frames of the last 10 ms, newest first
  seq : Nat := 0 -- u32 | R271 | SEQ of the next new frame
  alive : Tbl Nat := [] -- u8 per KIND | R271 | ALIVE of the next frame
  waits : List AckWait := [] -- up to 1,024 | R295 | frames waiting for an acknowledgement
  rejAt : Tbl (Option Nat) := [] -- ns per sender | R291 | last REJECT answered
  rejLogAt : Tbl (Option Nat) := [] -- ns per sender | R291 | last event 0x100A
  staleAt : Option Nat := none -- ns | R291 | last interrupt 133
  c6At : Tbl (Option Nat) := [] -- ns per port | R273 | last event 0x1012
  holdEnd : Option Nat := none -- ns | R283 | end of the node hold timer
  syncs : Nat := 0 -- Nat | R285 | consecutive good Sync messages
  syncAt : Option Nat := none -- ns | R285 | last Sync message
  setptAt : Option Time := none -- time64 | R283 | last SETPT flood
  ringAt : Option Nat := none -- ns | R280 | last RINGCHK flood
  started : Option Nat := none -- ns | R290 | start of the start wait
  hbSync : Option Nat := none -- ns | R290 | last HEARTBEAT on the sync link
  hbFab : Option Nat := none -- ns | R290 | last HEARTBEAT through the fabric
  hbAt : Option Nat := none -- ns | R289 | last HEARTBEAT sent
  mirrorAt : Option Nat := none -- ns | R289 | last MIRROR block sent
  mirrorSeq : Nat := 0 -- u32 | R289 | mirror sequence
  mirrorWrites : List (Nat × Nat × Nat × List Byte) := [] -- index, sub-index, type, bytes | R289 | dictionary writes of the next MIRROR block
  mirrorFab : Bool := false -- 1 bit | R289 | MIRROR travels through the fabric
  mirror : List Nat := [0, 0, 0] -- 3 × u32 | R289 | blocks sent, received, via fabric
  takeover : Time := 0 -- time64 | R290 | last takeover
  vers : Tbl Nat := [] -- u8 per node ID | R495 | VER of the frame last received from a node, 0 none
  portVers : Tbl (Nat × Nat) := [] -- node ID, u8 per port | R495 | sender and VER of the last frame of a directly linked module, VER 0 none
  helloAt : Tbl (Option Nat) := [] -- ns per port | R275 | last HELLO sent
deriving DecidableEq, Repr

/-- Chimney. -/
structure Chimney where
  conn : Nat := 0 -- u8 | R296 | 0 off, 1 connecting, 2 connected, 3 waiting
  wait : Nat := 1 -- s | R296 | wait before the next reconnection
  retryAt : Nat := 0 -- ns | R296 | instant of the next connection attempt
  store : List Message := [] -- messages | R297 | messages not acknowledged, oldest first
  nextId : Nat := 0 -- u64 | R297 | next MSGID, retained
  counters : List Nat := [0, 0, 0, 0] -- 4 × u32 | R297 | sent, acknowledged, dropped, received
  stateAt : Nat := 0 -- ns | R297 | last machine state message
  yieldAt : Nat := 0 -- ns | R297 | last yield summary
  intake : List (Nat × List Byte) := [] -- KIND, bytes | R297 | inbound messages passed on, newest first
deriving DecidableEq, Repr

/-! spec/18_power.md -/

/-- Supply conditions and the shutdown. -/
structure Power where
  vbatL : F32 := 0 -- f32, V | R406 | VBAT_L as last reported, object 0x1300:01
  banks : List F32 := [0, 0, 0, 0] -- 4 × f32, V | R412 | bank inputs as last reported, object 0x1300:02
  ign : Nat := 3 -- 2 bits | R415 | IGN inputs active, object 0x1300:03
  logic : F32 := 0 -- f32, W | R418 | logic power, object 0x1300:04
  vmin : F32 := 0 -- f32, V | R406 | lowest VBAT_L since POR
  vmax : F32 := 0 -- f32, V | R406 | highest VBAT_L since POR
  gnd : F32 := 0 -- f32, V | R413 | logic ground offset, object 0x1300:0E
  holdup : Nat := 0 -- u16, 0.1 ms | R411 | hold-up time, object 0x1300:0D
  counters : List Nat := [0, 0, 0] -- 3 × u32 | R407 | warnings, warnings cleared, BOR resets
  warnAt : Nat := 0 -- ns | R409 | instant of the power-fail warning
  fellAt : Nat := 0 -- ns | R416 | fall of IGN
deriving DecidableEq, Repr

/-! spec/19_reset_retention.md -/

/-- Resets and power states. -/
structure PowerState where
  mode : Nat := 0 -- 4 bits | R431 | 0 RUN, 1 IDLE, 2 SLEEP, 3 DEEP, 4 OFF, 5 held in BOR, 6 held by a thermal shutdown, 7 held without clocks, 8 main die not released (BLANK, boot stopped)
  back : Nat := 0 -- 2 bits | R432 | state to enter at step 9 after SLEEP
  appDue : Bool := false -- 1 bit | R426 | application image to start
  record : List Byte := [] -- 32 bytes | R436 | last reset record; none before the first
  counts : List Nat := [0, 0, 0, 0, 0, 0, 0, 0, 0] -- 9 × u32 | R436 | reset counters by kind
  durations : List Nat := [0, 0] -- 2 × u32, µs | R426 | start-up durations, object 0x1300:28
  due : Nat := 0 -- 9 bits | R424 | reset kinds that an accepted write has asked for, in the bit order of KINDS
  clusters : Nat := 0 -- 2 bits | R424 | clusters of the CLU asked for
  wake : Nat := 0 -- u8 | R432 | wake source of the reset asked for
  shut : Option Nat := none -- 2 bits | R431 | state that a request or the shutdown is to enter: 3 DEEP, 4 OFF
  rtc : Option (Time × Nat × Nat) := none -- time64, ns, ns | R202 | device time and uncertainty stored at power-down, and their instant
  rtcValid : Bool := false -- 1 bit | R202 | the RTC value is valid
deriving DecidableEq, Repr

/-! spec/21_panel.md -/

/-- A rectangle of the panel. -/
structure PanelRect where
  x : Nat := 0 -- u16 | R466 | X
  y : Nat := 0 -- u16 | R466 | Y
  w : Nat := 0 -- u16 | R466 | W
  h : Nat := 0 -- u16 | R466 | H
deriving DecidableEq, Repr

/-- A queued update request. -/
structure PanelReq where
  rect : PanelRect := {} -- 8 bytes | R466 | rectangle
  src : Nat := 0 -- u64 | R466 | source buffer
  stride : Nat := 0 -- u16 | R466 | stride
  tag : Nat := 0 -- u16 | R466 | tag
deriving DecidableEq, Repr

/-- A rectangle in flight. -/
structure PanelFlight where
  rect : PanelRect := {} -- 8 bytes | R468 | rectangle
  tag : Option Nat := none -- u16 | R469 | tag to complete, none for a replayed rectangle without a request
  done : List Nat := [] -- row numbers | R469 | rows done
  entry : Nat := 0 -- 2 bits | R471 | journal entry
  replay : Bool := false -- 1 bit | R474 | replayed
  id : Nat := 0 -- Nat | R469 | number in dispatch order
deriving DecidableEq, Repr

/-- A journal entry. -/
structure PanelEntry where
  rect : PanelRect := {} -- 8 bytes | R471 | rectangle
  rowsDone : Nat := 0 -- u16 | R471 | ROWSDONE
  active : Bool := false -- u8 | R471 | STATE 0xA5
deriving DecidableEq, Repr

/-- The panel driver, with its journal in the Ember store. -/
structure Panel where
  queue : List PanelReq := [] -- up to 16 | R466 | queued requests, oldest first
  flight : List PanelFlight := [] -- up to 4 | R468 | rectangles in flight, in dispatch order
  fifo : List (Nat × Nat) := [] -- tag, status | R469 | completions unread, oldest first
  served : Nat := 0 -- Nat | R469 | number of the rectangle that took the last turn
  dispatched : Nat := 0 -- Nat | R469 | rectangles dispatched
  row : Option (Nat × Nat) := none -- row, ns | R469 | row in progress and its end
  firstAt : Option Nat := none -- ns | R468 | start of the first row
  railsAt : Option Nat := none -- ns | R462 | instant at which the rails are up
  lastRow : Nat := 0 -- ns | R462 | end of the last row
  replayed : Nat := 0 -- Nat | R474 | rectangles of the replay under way
  excursion : Bool := false -- 1 bit | R462 | temperature outside the table
  readAt : Option Nat := none -- ns | R463 | last thermistor reading
  brokenAt : Nat := 0 -- ns | R463 | instant of the break
  valid : Nat := 0 -- u8 | R463 | valid readings since the break
  geometry : Nat × Nat := (0, 0) -- 2 × u16 | R471 | geometry of the journal header, in the Ember store
  journal : List PanelEntry := [{}, {}, {}, {}] -- 4 entries | R471 | journal, in the Ember store
  frame : Tbl Byte := [] -- 19,200 bytes | R461 | committed frame, in the Ember store; an unlisted byte is 0xFF
deriving DecidableEq, Repr

/-! spec/13_can_integrity.md -/

/-- A frame in the layout of Table 13-2. -/
structure CanFrame where
  id : Nat := 0 -- u32 | R308 | ID word: identifier, IDE, RTR
  flags : Nat := 0 -- u8 | R308 | FLAGS
  data : List Byte := [] -- up to 2,048 bytes | R308 | DATA
  af : Nat := 0 -- u32 | R308 | XL acceptance field
  sdt : Nat := 0 -- u8 | R308 | XL service data unit type
  vcid : Nat := 0 -- u8 | R308 | XL virtual CAN network ID
deriving DecidableEq, Repr

/-- A transmit buffer. -/
structure CanTx where
  frame : CanFrame := {} -- frame | R310 | frame copied at REQ
  abort : Bool := false -- 1 bit | R314 | ABORT written while ACTIVE
deriving DecidableEq, Repr

/-- A dictionary message under reassembly. -/
structure CanPart where
  next : Nat := 0 -- 6 bits | R344 | segment number expected next
  bytes : List Byte := [] -- bytes | R344 | message so far
  till : Nat := 0 -- ns | R344 | instant at which it is discarded
deriving DecidableEq, Repr

/-- A CAN channel. -/
structure CanCh where
  tx : Tbl CanTx := [] -- 32 buffers | R310 | transmit buffers
  busy : Bool := false -- 1 bit | R310 | another node's frame has won the bus
  recover : Option Nat := none -- ns | R316 | end of the recovery sequence
  drops : List (List Nat) := [[], [], []] -- ns each | R306 | drops of the last second by queue
  dropLog : List (Option Nat) := [none, none, none] -- ns | R306 | last event 0x1105 by queue
  exceptions : Nat := 0 -- Nat | R303 | protocol exceptions counted
  claim : Nat := 0 -- u8 | R317 | claim state, object :1F
  addr : Nat := 254 -- u8 | R317 | address claimed or being claimed, 254 none
  claimDue : Bool := false -- 1 bit | R317 | the claim is to start
  claimEnd : Option Nat := none -- ns | R317 | end of the 250 ms of the claim
  others : Tbl (Option Nat) := [] -- u64 per address | R317 | NAMEs of the addresses other nodes have claimed
  claimOut : List CanFrame := [] -- frames | R317 | claim frames waiting for buffer 30
  dictOut : List (Option Nat × CanFrame) := [] -- tag, frame | R344 | dictionary frames waiting for buffer 31, with the tag of an own transaction
  dictTag : Option Nat := none -- u16 | R314 | tag of the own transaction whose frame is in buffer 31
  parts : Tbl (Option CanPart) := [] -- per source address | R344 | dictionary messages under reassembly
  alive : Tbl Nat := [] -- u8 per destination | R344 | alive counter of the next dictionary frame
deriving DecidableEq, Repr

/-- A context of an alive-counter checker. -/
structure AliveCtx where
  valid : Bool := false -- 1 bit | R323 | last(k) holds
  last : Nat := 0 -- u16 | R323 | last(k)
  evt : Bool := false -- 1 bit | R324 | event bit
  run : Nat := 0 -- 4 bits | R324 | consecutive STALE values, each above the one before
  prev : Nat := 0 -- u16 | R324 | last value of that run
  logAt : Option Nat := none -- ns | R324 | last event 0x1202
deriving DecidableEq, Repr

/-- A peer that holds a context of CV7. -/
structure AlivePeer where
  peer : Nat := 0 -- transport, channel, address | R322 | 2^24 plus node ID, or 2^25 plus channel × 256 plus address
  ctx : Nat := 0 -- 6 bits | R322 | context
  used : Nat := 0 -- ns | R322 | last use
deriving DecidableEq, Repr

/-- The check-value units. -/
structure CheckUnits where
  staged : Tbl Word := [] -- 32 bits per unit | R321 | low half of CV_STATE staged
  ctx : Tbl AliveCtx := [] -- 8 × 64 contexts | R323 | alive contexts
  peers : List AlivePeer := [] -- up to 64 | R322 | peers that hold contexts of CV7
  noCtxAt : Option Nat := none -- ns | R322 | last event 0x1308
  refused : Nat := 0 -- Nat | R322 | frames discarded for want of a context
deriving DecidableEq, Repr

/-! spec/22_security_update.md -/

/-- The OEM slots, in one-time-programmable memory. -/
structure Otp where
  hashes : List (List Byte) := [[], [], [], []] -- 4 × 32 bytes | R484 | OEM slot hashes, empty unwritten
  keys : List (List Byte) := [[], [], [], []] -- 4 × 32 bytes | R484 | OEM slot key-encryption keys, empty unwritten
deriving DecidableEq, Repr

/-- Life cycle, slots and debug access. -/
structure Sec where
  challenge : Option (List Byte) := none -- 32 bytes | R482 | valid challenge
  challengeTill : Nat := 0 -- ns | R482 | end of its validity
  staged : Option Nat := none -- u64 | R483 | serial number staged
  otp : Otp := {} -- - | R484 | the OEM slots in OTP
  debugTill : Option Nat := none -- ns | R487 | end of the open time
  target : Option Nat := none -- 3 bits | R479 | state of the transition accepted, LCR pending
deriving DecidableEq, Repr

/-- The update of one image type. -/
structure ImgType where
  bytes : List Byte := [] -- container | R491 | container in the inactive slot, as received
  chunks : Nat := 0 -- u32 | R491 | chunks verified and written
  session : Option (Nat × Nat) := none -- u32, source | R491 | SESSION and source of the intake
  runs : Bool := false -- 1 bit | R492 | an update runs
  active : List Byte := [] -- container | R486 | container in the active slot; none for the image the module was delivered with
  erased : Bool := false -- 1 bit | R480 | the active slot holds no image
  first : Bool := false -- 1 bit | R497 | the next start is the first one of a newly activated image
  g0 : Nat := 0 -- u32 | R497 | G0
  saved : List (Nat × Rec) := [] -- records | R497 | records with GEN at most G0, kept until confirmation
  confEnd : Option Nat := none -- u32, s | R498 | operating time at which the confirmation window ends
  back : Nat := 0 -- 2 bits | R499 | roll-back due at the next reset: 1 migration, 2 not confirmed, 3 request
deriving DecidableEq, Repr

/-- A node of a relay. -/
structure RelayNode where
  id : Nat := 0 -- u16 | R493 | node ID
  state : Nat := 0 -- u8 | R493 | 0 pending, 1 verified, 2 activated, 3 refused, 4 FAILED, 5 done
  depth : Nat := 0 -- u8 | R494 | depth
  received : Nat := 0 -- u32 | R493 | bytes received
  version : Nat := 0 -- u64 | R493 | version
deriving DecidableEq, Repr

/-- A downstream neighbour that verified chunks go to. -/
structure Downstream where
  received : Nat := 0 -- u64 | R493 | bytes received, as last answered
  sent : Nat := 0 -- u64 | R493 | container offset of the next fragment to send
  timeouts : Nat := 0 -- u8 | R493 | consecutive timeouts
  resumeAt : Option Nat := none -- ns | R493 | instant at which it is resumed
  failed : Bool := false -- 1 bit | R493 | FAILED
deriving DecidableEq, Repr

/-- Updates and the relay. -/
structure Update where
  types : List ImgType := [{}, {}, { erased := true }] -- 3 types | R491 | Keeper firmware, main firmware, application
  typ : Nat := 0 -- u8 | R493 | type of the relay, 0 none yet
  nodes : List RelayNode := [] -- nodes | R494 | nodes of the relay in activation order
  down : Tbl (Tbl Downstream) := [] -- type, port | R493 | downstream neighbours
  waits : Option (Nat × Nat) := none -- u16, ns | R494 | node being activated and the end of the activation timeout
  cause : Nat := 0 -- u8 | R494 | halt cause
  resumes : Bool := false -- 1 bit | R494 | a halted relay of this type goes on at a new request
deriving DecidableEq, Repr

/-- The whole state of the module. -/
structure State where
  now : Nat := 0 -- ns | model's own, log entry 1 | monotonic time since reset
  freeCtr : Nat := 0 -- Nat | model's own, log entry 2 | counter that free values are drawn with
  regs : Tbl Word := [] -- 32 bits each | R5 | registers that differ from their reset value, by address
  objs : Tbl ObjVal := [] -- per type | R329 | object values that differ from their default, by key
  oem : Tbl (Option Oem) := [] -- objects | R325 | objects 0x4000 to 0x7FFF that the application image has created, by key
  gov : Gov := {} -- - | R213 | Draught governor
  par : Parterre := {} -- - | R240 | Parterre
  gate : Gatehouse := {} -- - | R246 | Gatehouse
  remote : Tbl (Option (List Byte)) := [] -- values | R342 | objects of other nodes as last notified, by node × 2^24 + key
  steer : Steering := {} -- - | R263 | steering guidance
  fab : Fabric := {} -- - | R268 | fabric
  chim : Chimney := {} -- - | R296 | Chimney
  can : Tbl CanCh := [] -- 6 channels | R300 | CAN channels
  cv : CheckUnits := {} -- - | R319 | check-value units
  panel : Panel := {} -- - | R461 | panel driver
  th : Thermal := {} -- - | R453 | thermal management
  kp : Keeper := {} -- - | R437 | Keeper
  pwr : Power := {} -- - | R405 | supply conditions
  ps : PowerState := {} -- - | R431 | resets and power states
  dict : Service := {} -- - | R329 | dictionary service
  sec : Sec := {} -- - | R478 | life cycle and security
  upd : Update := {} -- - | R491 | updates
  changes : Tbl Nat := [] -- u16 each | R334 | change counts of objects
  mem : Memory := [] -- bytes | R358 | addressed memory
  trellis : Trellis := {} -- - | R16 | trellis
  delivery : Delivery := {} -- - | R14 | deliveries of the data path
  ev : EventRec := {} -- - | R443 | event recorder
  sens : Sensors := {} -- - | R113 | sensor front ends
  pwrStatus : Nat := 0 -- u32 | R405 | power status, object 0x1300:05
  stage : Stage := {} -- - | R59 | stage dies
  ce : Engine := {} -- - | R32 | control engine
  stop : Stop := {} -- - | R126 | stop
  gh : GhUnit := {} -- - | R249 | GH unit
  clk : Clocks := {} -- - | R392 | clock sources
  sram : Sram := {} -- - | R376 | SRAM macros
  dram : Dram := {} -- - | R378 | DRAM errors
  flash : Flash := {} -- - | R384 | storage controller and managed flash
  gn : Gnss := {} -- - | R186 | satellite receiver
  fu : Fusion := {} -- - | R131 | fusion
  cam : Tbl CamPort := [] -- 4 ports | R161 | camera ports
  intg : List Nat := [1, 1, 1, 2, 0, 0] -- 6 × u8 | R389 | integrity settings in effect, 0x1380:01 to :06
  records : List (Nat × Rec) := [] -- Ember records | R333 | retained records by object key
  generation : Nat := 0 -- u32 | R332 | settings generation, object 0x1000:0C
  procs : Procs := {} -- - | R353 | processors, interrupt controller, DMA engine
  time : TimeSt := {} -- - | R201 | device time
  estP : F32 := 0 -- f32, W | R420 | output dissipation estimate, object 0x1300:0C
  estI : List F32 := [0, 0, 0, 0] -- 4 × f32, A | R420 | bank input current estimates, object 0x1300:10
  roleInEffect : Nat := 0 -- u8 | R7 | role since the last reset, object 0x1000:0B
  hw : Found := {} -- - | model's own, log entry 47 | what the hardware tests of the next start find
  out : List Out := [] -- - | model's own, log entry 5 | what the module has sent or answered, newest first
  pending : List Instr := [] -- - | model's own | commands waiting, first in first out
deriving DecidableEq, Repr

/-- The reports a stage die makes after a reset of its logic supply (R90, R112). -/
def dieResetReports (d : Nat) : List Report :=
  if d < 3 then [.bits R.sdStat (6 + d) 1 1, .event 0x0710 [BitVec.ofNat 8 d]]
  else [.bits R.lsStat (4 + (d - 3)) 1 1, .event 0x080F [BitVec.ofNat 8 d]]

/-- The stage dies right after the first power-up. -/
def Stage.first : Stage := { dies := (List.range 5).map fun d => (d, { reports := dieResetReports d }) }

/-- A heavy channel starts with half of the heavy budget. -/
def LsChan.initial (n : Nat) : LsChan := if n < 8 then { bucket := 1000000000000 } else {}

/-- The module right after reset. -/
def State.reset : State := { stage := Stage.first }

end Sys2Proof.Machine
end

