-- ==== Sys2Proof/Machine/Ops.lean ====
section
/-!
DEFINITION. The named operations over registers, memory, events and interrupt sources that every meaning is built from.
The block takes no exceptions: raising an interrupt source and logging an event are its ways to report.
-/
namespace Sys2Proof.Machine

/-- The outcome of a command. -/
abbrev Res := Host.Outcome State Fault Refusal

namespace State

/-- What the register at address a holds. -/
def rd (s : State) (a : Nat) : Word := Tbl.get s.regs (regReset a) a

/-- The register at address a takes v. -/
def wr (s : State) (a : Nat) (v : Word) : State := { s with regs := Tbl.set s.regs (regReset a) a v }

/-- A field's value. -/
def get (s : State) (f : Fld) : Nat := (s.rd f.addr).toNat / 2 ^ f.lsb % 2 ^ f.width

/-- A register word with one field replaced; the other bits stay. -/
def fieldInto (old : Nat) (f : Fld) (v : Nat) : Word :=
  BitVec.ofNat 32 (old % 2 ^ f.lsb + v % 2 ^ f.width * 2 ^ f.lsb + old / 2 ^ (f.lsb + f.width) * 2 ^ (f.lsb + f.width))

/-- The field takes v. -/
def set (s : State) (f : Fld) (v : Nat) : State := s.wr f.addr (fieldInto (s.rd f.addr).toNat f v)

/-- A one-bit field as a truth value. -/
def flag (s : State) (f : Fld) : Bool := s.get f == 1

/-- A one-bit field set or cleared. -/
def put (s : State) (f : Fld) (b : Bool) : State := s.set f (if b then 1 else 0)

/-- A wrapping counter register counts n more. -/
def count (s : State) (a : Nat) (n : Nat := 1) : State := s.wr a (s.rd a + BitVec.ofNat 32 n)

/-- A saturating counter field counts one. -/
def countSat (s : State) (f : Fld) : State :=
  if s.get f + 1 < 2 ^ f.width then s.set f (s.get f + 1) else s

/-- 64 bits in two registers, low word at a and high word at a + 4. -/
def rd64 (s : State) (a : Nat) : Nat := (s.rd a).toNat + 4294967296 * (s.rd (a + 4)).toNat

/-- 64 bits written to two registers, low word at a and high word at a + 4. -/
def wr64 (s : State) (a : Nat) (v : Nat) : State :=
  (s.wr a (BitVec.ofNat 32 v)).wr (a + 4) (BitVec.ofNat 32 (v / 4294967296))

/-- Clear the registers of a list to 0. -/
def clearAll (s : State) (l : List Nat) : State := l.foldl (fun t a => t.wr a 0) s

/-- A command of a block number: bit k of a word. -/
def bitAt (a : Nat) (k : Nat) : Fld := ⟨a + 4 * (k / 32), k % 32, 1⟩

/-- n bytes of the addressed memory. -/
def mrd (s : State) (a n : Nat) : List Byte := s.mem.readBytes a n

/-- Bytes written to the addressed memory. -/
def mwr (s : State) (a : Nat) (l : List Byte) : State := { s with mem := s.mem.writeBytes a l }

/-- Something goes out of the module. -/
def emit (s : State) (o : Out) : State := { s with out := o :: s.out }

/-- The next free value number, and the state after drawing it. -/
def fresh (s : State) : State := { s with freeCtr := s.freeCtr + 1 }

/-- The value object index:sub holds in the object store. -/
def obj (s : State) (index sub : Nat) : ObjVal := Tbl.get s.objs (objDefault index sub) (objKey index sub)

/-- An object's number; 0 for a string or blob. -/
def objN (s : State) (index sub : Nat) : Nat :=
  match s.obj index sub with
  | .num n => n
  | .bytes _ => 0

/-- An object's bytes; none for a number. -/
def objB (s : State) (index sub : Nat) : List Byte :=
  match s.obj index sub with
  | .num _ => []
  | .bytes l => l

/-- An object's binary32 value. -/
def objF (s : State) (index sub : Nat) : F32 := BitVec.ofNat 32 (s.objN index sub)

/-- The object store takes a value for index:sub. -/
def setObj (s : State) (index sub : Nat) (v : ObjVal) : State :=
  { s with objs := Tbl.set s.objs (objDefault index sub) (objKey index sub) v }

/-- The object store takes a number for index:sub. -/
def setObjN (s : State) (index sub n : Nat) : State := s.setObj index sub (.num n)

end State

/-- Little-endian number of a list of bytes (R3). -/
def leNat : List Byte → Nat
  | [] => 0
  | b :: l => b.toNat + 256 * leNat l

/-- n bytes of a number, low first (R3). -/
def leBytes : Nat → Nat → List Byte
  | 0, _ => []
  | n + 1, v => BitVec.ofNat 8 v :: leBytes n (v / 256)

/-- n bytes of l from offset o on, zero-padded. -/
def bytesAt (l : List Byte) (o n : Nat) : List Byte := ((l.drop o).take n) ++ List.replicate (n - (l.length - o)) 0

/-- The number in n bytes of l at offset o. -/
def natAt (l : List Byte) (o n : Nat) : Nat := leNat ((l.drop o).take n)

/-- The bytes of l with the bytes of v in place from offset o on. -/
def patch (l : List Byte) (o : Nat) (v : List Byte) : List Byte := l.take o ++ v ++ l.drop (o + v.length)

/-- A 32-bit pattern as a signed number. -/
def int32 (w : Word) : Int := w.toInt

/-- A 64-bit pattern as a signed number. -/
def int64 (n : Nat) : Int := if n < 9223372036854775808 then (n : Int) else (n : Int) - 18446744073709551616

/-- A 16-bit pattern as a signed number. -/
def int16 (n : Nat) : Int := if n % 65536 < 32768 then ((n % 65536 : Nat) : Int) else ((n % 65536 : Nat) : Int) - 65536

/-- The low w bits of a signed number. -/
def wrapInt (w : Nat) (i : Int) : Nat := (i % ((2 ^ w : Nat) : Int)).toNat

/-- The quotient rounded up. -/
def ceilDiv (a b : Nat) : Nat := (a + b - 1) / b

/-! Events (20_keeper_events_thermal.md) -/

/-- Codes of severity 3 (Table 20-8). -/
def critical : List Nat := [0x0402, 0x0403, 0x0506, 0x1403, 0x1607, 0x1608, 0x1801, 0x1806]

/-- Codes of severity 2 (Table 20-8). -/
def errors : List Nat :=
  [0x0106, 0x010A, 0x0301, 0x0303, 0x0304, 0x0305, 0x0401, 0x0502, 0x0503, 0x0509, 0x0601, 0x0605, 0x0606, 0x0705,
   0x0706, 0x0708, 0x0709, 0x070A, 0x0710, 0x0804, 0x0805, 0x0806, 0x080F, 0x0810, 0x0811, 0x0904, 0x0905, 0x0907,
   0x0909, 0x0A05, 0x0B03, 0x0C02, 0x0C08, 0x0D07, 0x0E02] ++
  [0x1003, 0x1005, 0x100B, 0x1102, 0x1106, 0x1108, 0x1303, 0x1404, 0x1503, 0x1507, 0x1606, 0x1702, 0x1709, 0x170B,
   0x170C, 0x1803]

/-- Codes of severity 0 (Table 20-8). -/
def infos : List Nat :=
  [0x0102, 0x0103, 0x0107, 0x0108, 0x0201, 0x0202, 0x0205, 0x0501, 0x050A, 0x0604, 0x070B, 0x0807, 0x0A02, 0x0A04,
   0x0A07, 0x0A09, 0x0A0A, 0x0B02, 0x0B08, 0x0C03, 0x0C04, 0x0C05, 0x0C07, 0x0C09, 0x0C0C, 0x0D01, 0x0D02, 0x0D03,
   0x0D04, 0x0D06, 0x0D09, 0x0E0B, 0x0F01] ++
  [0x1002, 0x100C, 0x1014, 0x1103, 0x1107, 0x1201, 0x1306, 0x1501, 0x1506, 0x1508, 0x1601, 0x1605, 0x1701, 0x1703,
   0x1704, 0x1706, 0x1708, 0x1802]

/-- First and last code that the event tables list in each group of codes. -/
def listedCodes : List (Nat × Nat) := [(0x0101, 0x010B), (0x0201, 0x0206), (0x0301, 0x0307), (0x0401, 0x0408), (0x0501, 0x050A),
   (0x0601, 0x0608), (0x0701, 0x0710), (0x0801, 0x0811), (0x0901, 0x090B), (0x0A01, 0x0A0B),
   (0x0B01, 0x0B08), (0x0C01, 0x0C0C), (0x0D01, 0x0D09), (0x0E01, 0x0E08), (0x0E0A, 0x0E0C),
   (0x0F01, 0x0F05), (0x1001, 0x1014), (0x1101, 0x110A), (0x1201, 0x1202), (0x1301, 0x1308),
   (0x1401, 0x1406), (0x1501, 0x1508), (0x1601, 0x1608), (0x1701, 0x170C), (0x1801, 0x1804),
   (0x1806, 0x1806)]

/-- Whether an event table of the manual lists the code (R520). -/
def listed (code : Nat) : Bool := listedCodes.any fun r => r.1 ≤ code && code ≤ r.2

/-- The severity map, object 0x3300:09 (R520). -/
def severityOf (code : Nat) : Nat :=
  if !listed code then 0
  else if critical.contains code then 3
  else if errors.contains code then 2
  else if infos.contains code then 0
  else 1

/-- SOURCE of a Scaholt event by the group of its code (log entry 8). -/
def sourceOf (code : Nat) : Nat :=
  match code / 256 with
  | 0x01 | 0x02 | 0x14 | 0x16 | 0x17 | 0x18 => 0
  | 0x0A | 0x0C | 0x0E | 0x13 => 2
  | 0x0D | 0x0F => 3
  | _ => 1

/-- Where a source stands: its IRQ_STAT address, its IRQ_EN address and its bit. -/
def irqPlace (src : Nat) : Option (Nat × Nat × Nat) :=
  if src = 0 then some (R.siIrqStat, R.siIrqEn, 8)
  else if src = 2 then some (R.thIrqStat, R.thIrqEn, 5)
  else if src = 3 then some (R.ceIrqStat, R.ceIrqEn, 5)
  else if src = 4 then some (R.fbIrqStat, R.fbIrqEn, 15)
  else if src < 8 then none
  else if src < 13 then some (R.ceIrqStat, R.ceIrqEn, src - 8)
  else if src < 16 then none
  else if src < 31 then some (R.sdIrqStat, R.sdIrqEn, src - 16)
  else if src < 32 then none
  else if src < 44 then some (R.lsIrqStat, R.lsIrqEn, src - 32)
  else if src < 64 then none
  else if src < 106 then some (R.cnIrqStat ((src - 64) % 6), R.cnIrqEn ((src - 64) % 6), (src - 64) / 6)
  else if src < 128 then none
  else if src < 138 then some (R.fbIrqStat, R.fbIrqEn, src - 128)
  else if src < 192 then none
  else if src < 202 then some (R.gnIrqStat, R.gnIrqEn, src - 192)
  else if src < 256 then none
  else if src < 263 then some (R.fuIrqStat, R.fuIrqEn, src - 256)
  else if src < 320 then none
  else if src < 341 then some (R.camIrqStat, R.camIrqEn, src - 320)
  else if src < 384 then none
  else if src < 392 then some (R.siIrqStat, R.siIrqEn, src - 384)
  else if src < 448 then none
  else if src < 454 then some (R.msIrqStat, R.msIrqEn, src - 448)
  else if src < 504 then none
  else if src < 506 then some (R.dmaIrqStat, R.dmaIrqEn, src - 504)
  else if src < 512 then none
  else if src < 517 then some (R.dpIrqStat, R.dpIrqEn, src - 512)
  else if src < 528 then none
  else if src < 533 then some (R.thIrqStat, R.thIrqEn, src - 528)
  else if src = 536 ∨ src = 537 then some (R.evIrqStat, R.evIrqEn, src - 536)
  else if src = 540 ∨ src = 541 then some (R.kpIrqStat, R.kpIrqEn, src - 540)
  else none

/-- Operating time in seconds (R445). -/
def operatingTime (s : State) : Nat :=
  (s.ev.opTime + (if s.ev.opStop then 0 else (s.now - s.ev.opSince) / 1000000000)) % 4294967296

namespace State

/-- A doorbell write of source n by a block: sets it pending, or coalesces (R365). -/
def ring (s : State) (n : Nat) : State :=
  if s.flag (bitAt (R.icPend 0) n) then s.count R.icCoalesced else s.set (bitAt (R.icPend 0) n) 1

/-- A source's cause comes about: its IRQ bit is set, and rings the doorbell while enabled; source 1 has no IRQ bit. -/
def fire (s : State) (src : Nat) : State :=
  match irqPlace src with
  | some (st, en, b) =>
    let t := s.set ⟨st, b, 1⟩ 1
    if s.flag ⟨en, b, 1⟩ then t.ring src else t
  | none => if src = 1 then s.ring 1 else s

/-- The Keeper restarts after a KPR (R425). -/
def keeperRestarts (s : State) : Bool := decide (s.now < s.kp.restart)

/-- An event of severity `sev` enters the intake queue, or is dropped when the queue is full (R448); one dropped while the
Keeper restarts is counted for event 0x0204 (R425). -/
def intake (s : State) (e : Ev) : State :=
  if s.ev.intake.length < 64 then { s with ev := { s.ev with intake := s.ev.intake ++ [e] } }
  else if s.keeperRestarts then
    let t := { s with kp := { s.kp with dropped := s.kp.dropped + 1 } }
    ((t.count R.evDropped).set R.evStatLost 1).fire 537
  else
    let t := { s with ev := { s.ev with dropPend := s.ev.dropPend + 1 } }
    ((t.count R.evDropped).set R.evStatLost 1).fire 537

/-- A Scaholt event is logged with the severity of the map; a code no event table lists is never logged (R520). -/
def log (s : State) (code : Nat) (data : List Byte := []) : State :=
  if listed code then s.intake ⟨code, sourceOf code, severityOf code, data⟩ else s

/-- At most once per second: whether the last instant is at least a second ago. -/
def secondPassed (s : State) (last : Option Nat) : Bool :=
  match last with
  | none => true
  | some t => decide (t + 1000000000 ≤ s.now)

/-- A bus error: no effect, event 0x0407 at most once per second (R358). -/
def busError (s : State) (who addr : Nat) : State :=
  if s.secondPassed s.procs.busErrAt then
    { s with procs := { s.procs with busErrAt := some s.now } }.log 0x0407 (leBytes 1 who ++ leBytes 4 addr)
  else s

/-- Whether a deadline has come. -/
def due (s : State) (d : Option Nat) : Bool :=
  match d with
  | none => false
  | some t => decide (t ≤ s.now)

/-- Role in effect: 1 in the Hearth role (R7). -/
def hearth (s : State) : Bool := s.roleInEffect == 1

/-- The active Hearth: a single Hearth, or the active member of a twin (FB_STAT.TWIN). -/
def activeHearth (s : State) : Bool := s.hearth && decide (s.get R.fbStatTwin ≤ 1)

/-- The function clock of gating group k of Table 17-7 runs: the run set in RUN and IDLE, the sleep set in SLEEP, neither
while the main die is off or held; none without a reference of the SYS PLL (R399); GNSS not while its PLL stands (R396);
group 4 is forced on, the clusters off in SLEEP (R404); fusion and cameras stand still in low-supply mode (R410); a
block whose SRAM has failed stays powered down (Table 16-2); in BLANK only CN0 has its clocks
(R483). -/
def gateOn (s : State) (k : Nat) : Bool :=
  if s.clk.sysRef = 3 then false
  else if (k = 6 ∨ k = 7) ∧ s.pwrStatus / 2 % 2 = 1 then false
  else if k = 8 ∧ s.clk.gnssOff = true then false
  else if 6 ≤ k ∧ k ≤ 8 ∧
      s.sram.failed.any (fun m => decide (168 + 32 * (k - 6) ≤ m) && decide (m < min 248 (200 + 32 * (k - 6)))) then false
  else
    match s.ps.mode with
    | 0 => k == 4 || s.flag ⟨R.ckGrun, k, 1⟩
    | 1 => k == 4 || s.flag ⟨R.ckGrun, k, 1⟩
    | 2 => k == 4 || (decide (2 ≤ k) && s.flag ⟨R.ckGsleep, k, 1⟩)
    | 8 => k == 10 && s.get R.secLcState == 0
    | _ => false

/-- The main firmware runs: RUN, IDLE or SLEEP, where the services of the real-time cores go on (Table 19-3), the SYS PLL with a
reference (R399). -/
def serving (s : State) : Bool := decide (s.ps.mode ≤ 2) && s.clk.sysRef != 3

/-- The services of the application cores run: RUN or IDLE, outside low-supply mode (R410), with some core unfenced (R357). -/
def appServing (s : State) : Bool := decide (s.ps.mode ≤ 1) && s.clk.sysRef != 3 && s.pwrStatus / 2 % 2 == 0 && s.procs.bootCore != 0xFF

/-- Neither core of real-time pair k is held in reset for a failed TCM: 0 runs the GNSS tracking loops, 1 the governor,
Gatehouse decisions and the steering law (R355, Table 16-2). -/
def rtRuns (s : State) (k : Nat) : Bool := s.procs.outOfReset / 2 ^ (8 + 2 * k) % 4 == 3

/-- A bit of the power status. -/
def pwrFlag (s : State) (k : Nat) : Bool := s.pwrStatus / 2 ^ k % 2 == 1

/-- Life-cycle state (Table 22-1): 0 BLANK, 1 PROVISIONED, 2 FIELD, 3 SERVICE, 4 DECOMMISSIONED. -/
def lifeCycle (s : State) : Nat := s.get R.secLcState

/-- A reset is asked for: kinds 0 POR, 1 BOR, 2 PIN, 3 KWD, 4 SYS, 5 CLU, 6 RTW, 7 KPR, 8 LCR. It follows once the request
has been answered (R424). -/
def resetDue (s : State) (k : Nat) : State :=
  if s.ps.due / 2 ^ k % 2 = 1 then s else { s with ps := { s.ps with due := s.ps.due + 2 ^ k } }

/-- n random or unstated bytes. -/
def drawBytes (s : State) (n : Nat) : List Byte × State := ((List.range n).map (Config.freeByte s.freeCtr), s.fresh)

end State

/-- The answer to a request: the state, the status of Table 14-3, and AUX. -/
abbrev Ans := State × Nat × Nat

namespace State

/-- d nanoseconds pass; device time is a time64, which wraps (R4). While a slew runs, device time gains or loses 10 ppm
until the slew is used (R209). -/
def elapse (s : State) (d : Nat) : State :=
  let use := min s.time.slewLeft.natAbs (d / 100000)
  if 0 ≤ s.time.slewLeft then
    { s with now := s.now + d,
             time := { s.time with dev := (s.time.dev + d + use) % 18446744073709551616, slewLeft := s.time.slewLeft - use } }
  else
    { s with now := s.now + d,
             time := { s.time with dev := (s.time.dev + d - use) % 18446744073709551616, slewLeft := s.time.slewLeft + use } }

/-- Time passes until the instant t of monotonic time, if it lies ahead. -/
def passTo (s : State) (t : Nat) : State := if s.now < t then s.elapse (t - s.now) else s

/-- Time passes until device time t, if it lies ahead and is a time64 (R4). While a slew runs, less or more of monotonic time passes (R209). -/
def devTo (s : State) (t : Time) : State :=
  if s.time.dev < t ∧ t < 18446744073709551616 then
    let d := t - s.time.dev
    if 0 ≤ s.time.slewLeft then
      let use := min s.time.slewLeft.natAbs (d / 100001)
      { s with now := s.now + (d - use), time := { s.time with dev := t, slewLeft := s.time.slewLeft - use } }
    else
      let use := min s.time.slewLeft.natAbs (d / 99999)
      { s with now := s.now + (d + use), time := { s.time with dev := t, slewLeft := s.time.slewLeft + use } }
  else s

end State

/-- The next instant of a grid of the given period at or after `dev` that lies after the last one taken. -/
def gridNext (period : Nat) (last : Option Time) (dev : Time) : Time :=
  let g := ceilDiv dev period * period
  match last with
  | none => g
  | some l => if g ≤ l then (l / period + 1) * period else g

/-! Status codes of the dictionary service (Table 14-3) -/
namespace St
def ok : Nat := 0
def noObject : Nat := 1
def readOnly : Nat := 2
def writeOnly : Nat := 3
def type : Nat := 4
def range : Nat := 5
def state : Nat := 6
def busy : Nat := 7
def conflict : Nat := 8
def target : Nat := 9
def sequence : Nat := 10
def check : Nat := 11
def resources : Nat := 12
def timeout : Nat := 13
def aborted : Nat := 14
def unknownOp : Nat := 15
def ember : Nat := 16
def queueFull : Nat := 17
end St

/-- A command of a block whose function clock may be stopped: nothing happens while it stands (R404). -/
def gated (s : State) (k : Nat) (r : Res) : Res := if s.gateOn k then r else .next s

/-- A command of a service on the real-time cores: nothing happens while it does not run (R431). -/
def whenServing (s : State) (r : Res) : Res := if s.serving then r else .next s

/-- A command of a service on the application cores (R410, R431). -/
def whenApp (s : State) (r : Res) : Res := if s.appServing then r else .next s

/-- A command of a service on real-time pair k. -/
def whenRt (k : Nat) (s : State) (r : Res) : Res := if s.serving && s.rtRuns k then r else .next s

/-- Milliseconds, microseconds and seconds as nanoseconds. -/
def ms (n : Nat) : Nat := n * 1000000
def us (n : Nat) : Nat := n * 1000
def sec (n : Nat) : Nat := n * 1000000000

/-- Every number of 0 to n - 1 with a property. -/
def upTo (n : Nat) (p : Nat → Bool) : List Nat := (List.range n).filter p

end Sys2Proof.Machine
end

