-- ==== Sys2Proof/Machine/MemMap.lean ====
section
/-!
DEFINITION. The address map of the memories and what an access by an engine meets (15_processors_interrupts.md R358,
16_memory_storage.md R376 to R380).
-/
namespace Sys2Proof.Machine

/-- The first address above the usable DRAM (R377). -/
def dramTop (s : State) : Nat := if s.flag R.msStatEcc then 0x240000000 else 0x280000000

/-- System SRAM by the map alone (Table 15-2). -/
def inSram (a : Nat) : Bool := decide (0x10000000 ≤ a) && decide (a < 0x10800000)

/-- DRAM as far as it is usable. -/
def inDram (s : State) (a : Nat) : Bool := decide (0x80000000 ≤ a) && decide (a < dramTop s)

/-- A TCM alias that is present (Table 15-2). -/
def inAlias (s : State) (a : Nat) : Bool :=
  decide (0x14000000 ≤ a) && decide (a < 0x14200000)
    && !(s.flag R.icCtrlPaired && (a - 0x14000000) / 0x80000 % 2 == 1)

/-- A range that lies wholly where `ok` holds at its first and last byte; every region is an interval. -/
def spans (ok : Nat → Bool) (a n : Nat) : Bool := decide (0 < n) && ok a && ok (a + n - 1)

/-- System SRAM or DRAM: one region for the whole range. -/
def inSramOrDram (s : State) (a n : Nat) : Bool := spans inSram a n || spans (inDram s) a n

/-- The regions the DMA engine reaches: the range lies in one of them (R362). -/
def dmaReach (s : State) (a n : Nat) : Bool := inSramOrDram s a n || spans (inAlias s) a n

/-- A byte of a failed SRAM macro, whose range gives a bus error (R376). -/
def deadByte (s : State) (a : Nat) : Bool := inSram a && s.sram.failed.contains ((a - 0x10000000) / 65536)

/-- A byte of a DRAM word marked uncorrectable (R378). -/
def badByte (s : State) (a : Nat) : Bool := s.flag R.msStatEcc && inDram s a && s.dram.bad.contains (a / 8 * 8)

/-- How many of n bytes from a on can be accessed before one where `stop` holds. -/
def goodRun (stop : Nat → Bool) (a : Nat) : Nat → Nat
  | 0 => 0
  | n + 1 => if stop a then 0 else goodRun stop (a + 1) n + 1

/-- PAGE_RETIRE: a page joins the retirement list, or finds it full (R380). -/
def pageRetire (s : State) (page : Nat) : State :=
  if s.dram.retired.contains page then s
  else if s.dram.retired.length ≥ 1024 then s.log 0x0509 (leBytes 4 page)
  else ({ s with dram := { s.dram with retired := s.dram.retired ++ [page] } }.fire 451).log 0x0504 (leBytes 4 page)

/-- DRAM_ERROR, double-bit: the word read at address a is uncorrectable (R378, R380). -/
def dramUncorrectable (s : State) (a : Nat) (scrubber : Bool) : State :=
  let w := a / 8 * 8
  let s := if s.dram.bad.contains w then s else { s with dram := { s.dram with bad := w :: s.dram.bad } }
  let s := ((s.count R.msDue).wr64 R.msDaddrLo w).fire 450
  pageRetire (s.log 0x0503 (leBytes 4 w ++ [if scrubber then 1 else 0])) ((w - 0x80000000) / 4096)

/-- DRAM_ERROR, single-bit: the word is corrected and counted; the third distinct word of its page retires it (R378,
R380). -/
def dramCorrected (s : State) (a : Nat) : State :=
  let w := a / 8 * 8
  let s := s.count R.msDce
  let s := if s.dram.corrected.contains w then s
    else { s with dram := { s.dram with corrected := w :: s.dram.corrected } }
  if (s.dram.corrected.filter fun x => x / 4096 == w / 4096).length ≥ 3 then
    pageRetire s ((w - 0x80000000) / 4096)
  else s

/-- Whether bytes a to a + n − 1 cover the whole 64-bit word w. -/
def covers (a n w : Nat) : Bool := decide (a ≤ w) && decide (w + 8 ≤ a + n)

/-- Bytes written to memory by an engine: words written whole lose their mark (R378). -/
def busWrite (s : State) (a : Nat) (l : List Byte) : State :=
  let t := s.mwr a l
  { t with dram := { t.dram with bad := t.dram.bad.filter fun w => !covers a l.length w } }

/-- A bus error of an engine of the given number. -/
def engineError (s : State) (engine a : Nat) : State := s.busError (Config.engineCode engine).toNat a

/-- An engine reads n bytes: those before the first one that gives a bus error, and the state after the error. -/
def busRead (s : State) (engine a n : Nat) : List Byte × State :=
  let good := goodRun (fun x => deadByte s x || badByte s x) a n
  let l := s.mrd a good
  if good = n then (l, s)
  else
    let s := if badByte s (a + good) then dramUncorrectable s (a + good) false else s
    (l, engineError s engine (a + good))

/-- An engine writes bytes: how many it wrote before a bus error, and the state after. -/
def busStore (s : State) (engine a : Nat) (l : List Byte) : Nat × State :=
  let good := goodRun (deadByte s) a l.length
  let t := busWrite s a (l.take good)
  if good = l.length then (good, t) else (good, engineError t engine (a + good))

/-- A descriptor of 64 bytes; one that a bus error cuts short reads 0 (R358). -/
def readDescriptor (s : State) (engine a : Nat) : List Byte × State :=
  let r := busRead s engine a 64
  if r.1.length = 64 then r else (List.replicate 64 0, r.2)

end Sys2Proof.Machine
end

