-- ==== Sys2Proof/Machine/Flue.lean ====
section
/-!
DEFINITION. Frames of the flue fabric: their bytes, their end-to-end check, the ports that pass them, and sending
(12_fabric_fleet.md R270 to R272, R277, R278, R280, R289, R295).
-/
namespace Sys2Proof.Machine

namespace State
def setFab (s : State) (f : Fabric) : State := { s with fab := f }
def node (s : State) (id : Nat) : Option Node := Tbl.get s.fab.nodes none id
def setNode (s : State) (id : Nat) (n : Node) : State :=
  s.setFab { s.fab with nodes := Tbl.set s.fab.nodes none id (some n) }
/-- Own node ID. -/
def ownId (s : State) : Nat := s.get R.fbStatNodeid
/-- A port is enabled and its link up. -/
def portUp (s : State) (p : Nat) : Bool := s.flag R.fbCtrlEn && s.flag (R.fbPctrlEn p) && s.flag (R.fbPstatLink p)
/-- Whether a port passes a kind of flue frame: a ring-blocked port STOP, RINGCHK and HELLO, a port blocked for a second
Hearth STOP and HELLO, the sync link of a twin HELLO, STOP and what the twin exchanges (R277, R280, R289). -/
def passes (s : State) (p kind : Nat) : Bool :=
  s.portUp p && (!s.fab.foreign.contains p || kind == 0x07 || kind == 0x01)
    && (s.get (R.fbPstatRole p) != 2 || kind == 0x07 || kind == 0x05 || kind == 0x01)
    && (s.get (R.fbPstatRole p) != 3 || [0x01, 0x07, 0x13, 0x14, 0x15, 0x16, 0x17].contains kind)
/-- An unbound Pavilion sends nothing but HELLO and STOP (R278). -/
def mute (s : State) (kind : Nat) : Bool := !s.hearth && s.fab.bound.isEmpty && kind != 0x01 && kind != 0x07
end State

/-- Own serial number. -/
def serialOf (s : State) : Nat := s.objN 0x1000 0x04

/-- The twin's serial number, 0 none. -/
def twinSerial (s : State) : Nat := s.objN 0x3080 0x02

/-- Fabric VID, object 0x3000:02. -/
def fabricVid (s : State) : Nat := s.objN 0x3000 0x02

/-! Bytes of a frame (R270, R271) -/

/-- The group address 03-5C-48-00-00-00. -/
def flueGroup : Nat := 0x035C48000000

/-- The source address of a module: 0A and its serial number in 40 bits. -/
def addressOf (serial : Nat) : Nat := 0x0A0000000000 + serial % 1099511627776

/-- EtherType of flue frames, and of the IEEE 802.1Q tag. -/
def flueType : Nat := 0x88B5
def tagType : Nat := 0x8100

/-- n bytes of a number, high first. -/
def beBytes (n v : Nat) : List Byte := (leBytes n v).reverse

/-- PATH: nibble h, from the top, is the egress port at depth h; unused nibbles are 0xF. -/
def pathWord (l : List Nat) : Nat := (List.range 16).foldl (fun a h => 16 * a + l.getD h 15 % 16) 0

/-- The header of 28 bytes with a value of PIDX (Table 12-2). -/
def flueHeader (f : FlueFrame) (pidx : Nat) : List Byte :=
  beBytes 1 f.ver ++ beBytes 1 (32 * f.cls + (if f.inbound then 16 else 0) + (if f.flood then 8 else 0))
    ++ beBytes 1 (16 * f.path.length + pidx) ++ beBytes 1 f.kind ++ beBytes 8 (pathWord f.path) ++ beBytes 2 f.src
    ++ beBytes 2 f.dst ++ beBytes 2 f.epoch ++ beBytes 1 f.alive ++ beBytes 1 f.flags ++ beBytes 4 f.seq
    ++ beBytes 2 f.payload.length ++ beBytes 2 0

/-- The end-to-end check: CRC-32C over the header with PIDX taken as 0 and the payload (R271). -/
def flueCheck (f : FlueFrame) : Nat := crcOf crc32c (flueHeader f 0 ++ f.payload)

/-- The frame from its destination address to its end-to-end check (R270, R271). -/
def flueBytes (f : FlueFrame) : List Byte :=
  beBytes 6 f.dest ++ beBytes 6 f.source ++ beBytes 2 tagType ++ beBytes 2 (8192 * f.pcp + f.vid) ++ beBytes 2 flueType
    ++ flueHeader f f.pidx ++ f.payload ++ beBytes 4 f.check

/-- Whether a frame is one of this fabric: tagged with its VID and a PCP equal to its class (R270). -/
abbrev isFlue (s : State) (f : FlueFrame) : Prop := f.vid = fabricVid s ∧ f.pcp = f.cls ∧ f.dest = flueGroup

/-- The serial number in the source address of a frame, in 40 bits (R270). -/
def frameSerial (f : FlueFrame) : Nat := f.source % 1099511627776

/-! Sending -/

/-- How a frame travels from this module: inbound or not, flooded or not, PATH, PIDX, and the ports it leaves by. -/
structure FlueWay where
  inbound : Bool := false
  flood : Bool := false
  path : List Nat := []
  pidx : Nat := 0
  ports : List Nat
deriving DecidableEq, Repr

/-- The way to a node: flooded to all and to the twin; from a Hearth outbound along the node's path; from a Pavilion
inbound. -/
def flueWay (s : State) (dst : Nat) : FlueWay :=
  if dst = 0xFFFF then { flood := true, ports := upTo 6 fun _ => true }
  else if s.hearth then
    match s.node dst with
    | some n => { path := n.path, pidx := 1, ports := n.path.take 1 }
    | none => if dst ≤ 2 then { flood := true, ports := upTo 6 fun p => s.get (R.fbPstatRole p) != 3 } else { ports := [] }
  else { inbound := true, ports := [s.get R.fbPtpportUpport] }

/-- The one hop through a port. -/
def onPort (p : Nat) : FlueWay := { path := [p], pidx := 1, ports := [p] }

/-- The fabric protocol version this module speaks: 3, or PROTO of the main firmware that an update has made active (R271,
R495). -/
def ownVer (s : State) : Nat :=
  let c := (s.upd.types.getD 1 {}).active
  if c.isEmpty then 3 else natAt c 27 1

/-- The next frame of this module: SEQ per sender, ALIVE per sender and KIND (Table 12-2). -/
def flueNext (s : State) (w : FlueWay) (cls kind dst flags epoch : Nat) (payload : List Byte) : FlueFrame :=
  let f : FlueFrame := {
    vid := fabricVid s, pcp := cls, dest := flueGroup, source := addressOf (serialOf s), ver := ownVer s, cls := cls,
    inbound := w.inbound, flood := w.flood, path := w.path, pidx := w.pidx, kind := kind, src := s.ownId, dst := dst,
    epoch := epoch, alive := Tbl.get s.fab.alive 0 kind, flags := flags, seq := s.fab.seq, payload := payload, check := 0 }
  { f with check := flueCheck f }

/-- A frame leaves by the ports of a list that pass it. -/
def flueLeave (f : FlueFrame) (ports : List Nat) (s : State) : State :=
  ports.foldl (fun (u : State) p => if u.passes p f.kind then (u.count (R.fbPtxfrm p)).emit (.flue p f) else u) s

/-- A frame of this module goes out with an epoch in its header; a flooded one is not forwarded when it comes back. -/
def flueEmit (s : State) (w : FlueWay) (cls kind dst flags epoch : Nat) (payload : List Byte) : State :=
  if s.mute kind then s
  else
    let f := flueNext s w cls kind dst flags epoch payload
    let x := s.fab
    flueLeave f w.ports (s.setFab { x with
      seq := (x.seq + 1) % 4294967296, alive := Tbl.set x.alive 0 kind ((f.alive + 1) % 256),
      seen := if w.flood then (f.src, f.seq, s.now) :: x.seen else x.seen })

/-- FLAGS: ACKREQ, RESPONSE, B16. -/
def ackReq : Nat := 1
def isResponse : Nat := 2
def half16 : Nat := 4

/-- A frame of this module to a node, 0xFFFF all. -/
def flueSend (s : State) (cls kind dst flags : Nat) (payload : List Byte) : State :=
  flueEmit s (flueWay s dst) cls kind dst flags s.fab.epoch payload

/-- A frame of this module by one port. -/
def flueSendOn (s : State) (p cls kind dst flags : Nat) (payload : List Byte) : State :=
  flueEmit s (onPort p) cls kind dst flags s.fab.epoch payload

/-- A frame with ACKREQ goes out and waits for its acknowledgement (R295). -/
def flueAskBy (s : State) (w : FlueWay) (cls kind dst : Nat) (hop : Option (Nat × Nat)) (payload : List Byte) : State :=
  let f := flueNext s w cls kind dst ackReq s.fab.epoch payload
  let t := flueEmit s w cls kind dst ackReq s.fab.epoch payload
  t.setFab { t.fab with waits := t.fab.waits ++ [{ frame := f, ports := w.ports, at_ := s.now, hop := hop }] }

def flueAsk (s : State) (cls kind dst : Nat) (payload : List Byte) : State :=
  flueAskBy s (flueWay s dst) cls kind dst none payload

/-- EPOCHRST with the old epoch E in its header and its payload (R294). -/
def epochrstSend (s : State) (w : FlueWay) (dst e : Nat) : State :=
  flueEmit s w 6 0x17 dst 0 e (leBytes 2 e ++ leBytes 2 1 ++ leBytes 8 (serialOf s))

/-! Stream entries (R271, R282) -/

/-- A binary32 value rounded to binary16, to nearest, ties to even. -/
def toHalf (x : F32) : Nat :=
  let sg := if F32.sign x then 32768 else 0
  if F32.isNan x then sg + 0x7E00
  else if F32.isInf x then sg + 0x7C00
  else
    let a := (F32.exact x).natAbs
    let n := Nat.log2 a
    let near := fun sh : Nat =>
      let q := a / 2 ^ sh
      let r := 2 * (a % 2 ^ sh)
      if r < 2 ^ sh then q else if 2 ^ sh < r then q + 1 else q + q % 2
    if n < 135 then sg + near 125 else sg + min 0x7C00 ((n - 135) * 1024 + near (n - 10))

/-- A stream entry: stream number, format 0 f32, 1 f16, 2 record, length, timestamp, the value padded to 4 bytes. -/
def streamEntry (r format : Nat) (ts : Time) (v : F32) (rec : List Byte) : List Byte :=
  let value := match format with
    | 1 => leBytes 2 (toHalf v)
    | 2 => if rec.isEmpty then F32.toBytes v else rec
    | _ => F32.toBytes v
  leBytes 2 r ++ leBytes 1 format ++ leBytes 1 value.length ++ leBytes 8 ts ++ value
    ++ List.replicate ((4 - value.length % 4) % 4) 0

/-! Other Ethernet frames (R270, R299) -/

/-- The interface identifier of an address: FF-FE in its middle and bit 1 of its first byte turned (RFC 4291). -/
def interfaceId (mac : Nat) : Nat :=
  let hi := mac / 16777216
  let turned := if hi / 131072 % 2 = 1 then hi - 131072 else hi + 131072
  turned * 1099511627776 + 0xFFFE000000 + mac % 16777216

/-- The link-local IPv6 address of this module (R299). -/
def linkLocal (s : State) : Nat := 0xFE800000000000000000000000000000 + interfaceId (addressOf (serialOf s))

/-- The prefix options of a router advertisement: type, length in 8 bytes, contents. -/
def routerPrefix : Nat → List Byte → Option Nat
  | 0, _ => none
  | n + 1, l =>
    let len := 8 * natAt l 1 1
    if l.length < 8 ∨ len = 0 then none
    else if natAt l 0 1 = 3 ∧ len = 32 ∧ natAt l 2 1 = 64 ∧ natAt l 3 1 / 64 % 2 = 1 then
      some (leNat ((l.drop 16).take 8).reverse)
    else routerPrefix n (l.drop len)

/-- The module takes its one global address from the first router advertisement with an autonomous prefix of 64 bits
(RFC 4862, R299; log entry 125). -/
def globalAddress (s : State) (l : List Byte) : State :=
  if natAt l 6 1 = 58 ∧ natAt l 40 1 = 134 ∧ s.fab.global.isNone then
    match routerPrefix 8 (l.drop 56) with
    | some p => s.setFab { s.fab with global := some (p * 18446744073709551616 + interfaceId (addressOf (serialOf s))) }
    | none => s
  else s

/-- Whether a port passes other frames: up, no blocked ring port, not the sync link (R280, R289, R299). -/
def State.bridges (s : State) (p : Nat) : Bool :=
  s.portUp p && s.get (R.fbPstatRole p) != 2 && s.get (R.fbPstatRole p) != 3

/-- The class of another frame: that of its priority, 1 without a tag (R270). -/
def otherClass (f : OtherFrame) : Nat :=
  match f.tag with
  | some t => if t.2 ≥ 6 then 0 else t.2
  | none => 1

/-- A non-flue frame on a port: priority 6 or 7 is forwarded as 0; it is bridged by learning on the fabric VID (R270, R299);
gPTP frames are not forwarded (log entry 125). -/
def otherForward (s : State) (p : Nat) (f : OtherFrame) (fcsOk : Bool) : State :=
  let vid := match f.tag with
    | some t => t.1
    | none => fabricVid s
  if s.bridges p = false ∨ vid ≠ fabricVid s ∨ f.etherType = 0x88F7 then s
  else
    let s := s.count (R.fbPrxfrm p)
    let s := if fcsOk then s.setFab { s.fab with learned := Tbl.set s.fab.learned none f.source (some p) }
      else s.count (R.fbPfcserr p)
    let own := addressOf (serialOf s)
    let g := { f with tag := f.tag.map fun t => (t.1, if t.2 ≥ 6 then 0 else t.2) }
    let to_ := if f.dest = own then []
      else match Tbl.get s.fab.learned none f.dest with
        | some q => if q = p then [] else [q]
        | none => upTo 6 fun q => q != p
    let s := to_.foldl (fun (u : State) q =>
      if u.bridges q then (u.count (R.fbPtxfrm q)).emit (.ether q (otherClass f) g) else u) s
    if fcsOk ∧ f.etherType = 0x86DD ∧ (f.dest = own ∨ f.dest / 1099511627776 % 2 = 1) then globalAddress s f.payload else s

end Sys2Proof.Machine
end

