-- ==== Sys2Proof/Machine/Delivery.lean ====
section
/-!
DEFINITION. The data path: producers, consumers, routes, and the delivery of a sample (01_architecture.md).
-/
namespace Sys2Proof.Machine

/-- Whether a producer carries the stream ID on this module (Tables 1-4, 5-1, 6-1, 8-4; R131, R180, R181). -/
def producerOk (id : Nat) : Bool :=
  (id ≤ 0x2F) || (0x40 ≤ id && id ≤ 0x57) || (0x60 ≤ id && id ≤ 0x63) || (0x70 ≤ id && id ≤ 0x77)
  || (0x80 ≤ id && id ≤ 0x86) || (0x100 ≤ id && id ≤ 0x13F)
  || (0x200 ≤ id && id ≤ 0x2AF
      && (id % 16 == 15 || id % 16 ≤ [9, 3, 2, 1, 1, 1, 1, 1, 1, 2, 1].getD ((id - 0x200) / 16) 0))
  || (0x300 ≤ id && id ≤ 0x33F && [0, 8, 9, 12, 13].contains (id % 16))
  || (0x400 ≤ id && id ≤ 0x406) || id == 0x408 || (0x800 ≤ id && id ≤ 0xFFF)

/-- Ring k. -/
def State.ringOf (s : State) (k : Nat) : Ring := Tbl.get s.delivery.rings {} k

def State.setRing (s : State) (k : Nat) (r : Ring) : State :=
  { s with delivery := { s.delivery with rings := Tbl.set s.delivery.rings {} k r } }

/-- Whether the consumer ID exists on this module (Table 1-5; a ring of base 0 is absent, R21). -/
def consumerOk (s : State) (id : Nat) : Bool :=
  (id ≤ 0xFF) || (0x100 ≤ id && id ≤ 0x13F) || (0x200 ≤ id && id ≤ 0x2FF)
  || (0x300 ≤ id && id ≤ 0x3FF && (s.ringOf (id - 0x300)).base != 0)
  || (0x400 ≤ id && id ≤ 0x408)

/-- gain × x + offset in binary32 (R14). -/
def routed (c : TrellisCopy) (x : F32) : F32 := F32.add (F32.mul c.gain x) c.offset

/-- A record with gain and offset applied to its first value (R124, R138). -/
def routedRecord (c : TrellisCopy) (rec : List Byte) : List Byte :=
  F32.toBytes (routed c (F32.ofBytes rec)) ++ rec.drop 4

/-- Entry of a DRAM sample ring (Table 1-12). -/
def ringEntry (r : Ring) (stream : Nat) (ts : Time) (v : F32) (rec : List Byte) : List Byte :=
  if r.mode = 0 then leBytes 4 r.seq ++ F32.toBytes v ++ leBytes 8 ts
  else
    let data := if rec.isEmpty then F32.toBytes v else rec
    leBytes 4 r.seq ++ leBytes 2 stream ++ leBytes 2 (if rec.isEmpty then 4 else rec.length) ++ leBytes 8 ts
      ++ bytesAt data 0 104 ++ leBytes 4 0 ++ leBytes 4 r.seq

/-- DRAM_RING_WRITE: a delivered sample is written into entry SEQ mod depth of ring k (R21). -/
def ringWrite (s : State) (k stream : Nat) (ts : Time) (v : F32) (rec : List Byte) : State :=
  let r := s.ringOf k
  if r.base = 0 ∨ r.depth = 0 then s
  else
    let size := if r.mode = 0 then 16 else 128
    (busStore s 6 (r.base + size * (r.seq % r.depth)) (ringEntry r stream ts v rec)).2.setRing k
      { r with seq := (r.seq + 1) % 4294967296 }

/-- PUBLICATION_SEND: a value delivered to publication slot k goes out at once in a SETPT or STREAM frame of one entry
(R282). -/
def publish (s : State) (k : Nat) (ts : Time) (v : F32) (rec : List Byte) : State :=
  let e := (s.objB 0x3000 0x10).drop (8 * k)
  let r := natAt e 0 2
  let dest := natAt e 2 2
  let format := natAt e 5 1
  let entry := streamEntry r format ts v rec
  let flags := if format = 1 then half16 else 0
  if r > 2047 then s
  else if natAt e 4 1 = 6 then flueSend s 6 0x10 dest flags entry
  else if natAt e 4 1 = 5 then flueSend s 5 0x11 dest flags entry
  else s

/-- The samples a loop input keeps: those later than device time, the latest one up to it, and the latest one up to the
sample instant of each deferred period that is running (R36, R37). -/
def loopKeep (dev : Time) (win : List Time) (l : List Sample) : List Sample :=
  let upTo := fun t : Time => (l.filter fun x => decide (x.ts ≤ t)).head?.toList
  win.foldl (fun a w => a ++ (upTo w).filter fun x => !a.contains x) ((l.filter fun x => decide (dev < x.ts)) ++ upTo dev)

/-- A sample put into a list that falls by timestamp; the later delivery stands first among equals. -/
def putSample (x : Sample) : List Sample → List Sample
  | [] => [x]
  | y :: l => if y.ts ≤ x.ts then x :: y :: l else y :: putSample x l

/-- The samples of loop input c. -/
def State.loopInput (s : State) (c : Nat) : List Sample := Tbl.get s.delivery.loopIn [] c

/-- A sample delivered to loop input c. -/
def loopDeliver (s : State) (c : Nat) (smp : Sample) : State :=
  let x := Tbl.get s.ce.loops {} (c / 4)
  let win := x.window.toList.map (·.2) ++ x.tails.flatMap fun f => f.window.toList.map (·.2)
  { s with delivery := { s.delivery with
      loopIn := Tbl.set s.delivery.loopIn [] c (loopKeep s.time.dev win (putSample smp (s.loopInput c))) } }

/-- The age of a sample exceeds the maximum age of its route at the present instant (R15). -/
def tooOld (s : State) (x : Sample) : Bool := decide (x.ts + x.maxAge * 1000 < s.time.dev)

/-- A routed sample reaches consumer c. A publication slot and a sample ring use it at once, so one that is too old is
missing there: nothing is sent or written (R15). -/
def deliverTo (s : State) (c stream : Nat) (smp : Sample) : State :=
  let t := { s with delivery := { s.delivery with latest := Tbl.set s.delivery.latest {} c smp } }
  if c < 0x100 then loopDeliver t c smp
  else if c < 0x200 then
    { t with delivery := { t.delivery with
        inbox := Tbl.set t.delivery.inbox [] (c - 0x100) (Tbl.get t.delivery.inbox [] (c - 0x100) ++ [smp]) } }
  else if c < 0x400 ∧ tooOld s smp then t
  else if c < 0x300 then publish t (c - 0x200) smp.ts smp.value smp.record
  else if c < 0x400 then ringWrite t (c - 0x300) stream smp.ts smp.value smp.record
  else
    { t with delivery := { t.delivery with
        history := Tbl.set t.delivery.history [] (c - 0x400)
          ((smp :: Tbl.get t.delivery.history [] (c - 0x400)).take 2048) } }

/-- Whether an enabled active entry binds consumer c. -/
def bound (s : State) (c : Nat) : Bool :=
  s.trellis.entries.any fun e => e.2.active.enable == 1 && e.2.active.consumer == c

/-- The copy that was active at instant ts, of the present one and the earlier ones, the latest first (R19). -/
def copyAt (now : TrellisCopy) (ts : Time) : List (Time × TrellisCopy) → TrellisCopy
  | [] => now
  | (ended, c) :: older => if ended ≤ ts then now else copyAt c ts older

/-- The route of an entry that was active at instant ts (R19). -/
def routeAt (e : TrellisEntry) (ts : Time) : TrellisCopy := copyAt e.active ts e.past

/-- Whether a consumer receives the whole record of a stream: of an LI stream only a fusion input slot or a sample ring does
(R124, R21), of any other record stream every consumer. -/
def carriesRecord (stream c : Nat) : Bool :=
  !(decide (0x70 ≤ stream) && decide (stream ≤ 0x77)) || (decide (0x100 ≤ c) && decide (c < 0x140))
    || (decide (0x300 ≤ c) && decide (c < 0x400))

/-- One route takes a sample of `stream`: it is scaled and delivered, or discarded and counted where its consumer is no
longer bound (R19). -/
def deliverBy (s : State) (c : TrellisCopy) (stream : Nat) (ts : Time) (v : F32) (fault : Bool) (rec : List Byte) :
    State :=
  if c.enable ≠ 1 ∨ c.producer ≠ stream then s
  else if !bound s c.consumer then { s with delivery := { s.delivery with discarded := s.delivery.discarded + 1 } }
  else
    deliverTo s c.consumer stream
      ⟨routed c v, ts, fault, if rec.isEmpty ∨ carriesRecord stream c.consumer = false then [] else routedRecord c rec, c.maxAge⟩

/-- SAMPLE_DELIVERY: a produced sample goes out on every route active at its production timestamp (R19). -/
def deliver (s : State) (stream : Nat) (ts : Time) (v : F32) (fault : Bool) (rec : List Byte) : State :=
  (s.trellis.entries.map fun e => routeAt e.2 ts).foldl (fun t c => deliverBy t c stream ts v fault rec)
    (s.emit (.sample stream ts v fault))

/-- A scalar sample without fault. -/
def produce (s : State) (stream : Nat) (ts : Time) (v : F32) : State := deliver s stream ts v false []

/-- The latest sample of a consumer, if one was delivered over a route that is still bound. -/
def State.latestOf (s : State) (c : Nat) : Option Sample :=
  match s.delivery.latest.find? fun e => e.1 == c with
  | some e => if bound s c then some e.2 else none
  | none => none

/-- The latest sample of a consumer whose age at instant t is within the maximum age of its route (R15). -/
def State.freshOf (s : State) (c : Nat) (t : Time) : Option Sample :=
  match s.latestOf c with
  | some x => if t ≤ x.ts + x.maxAge * 1000 then some x else none
  | none => none

end Sys2Proof.Machine
end

