-- ==== Sys2Proof/Machine/Image.lean ====
section
/-!
DEFINITION. The image pipeline on whole frames: linearisation, merge, correction, colour, tone, tap formats, compression
and statistics (07_camera_pipeline.md R168 to R172 and R176 to R180). An image is its rows, top to bottom.
-/
namespace Sys2Proof.Machine

/-- One plane of samples. -/
abbrev Image := List (List Nat)

/-- The sample at row y, column x. -/
def Image.at (m : Image) (y x : Nat) : Nat := (m.getD y []).getD x 0

/-- Every sample changed, with its row and column. -/
def Image.mapAt (m : Image) (f : Nat → Nat → Nat → Nat) : Image :=
  (m.zip (List.range m.length)).map fun r => (r.1.zip (List.range r.1.length)).map fun p => f r.2 p.2 p.1

/-! Fields of the parameter block (Table 7-3) -/
def pLut (p : List Byte) (i : Nat) : Nat := natAt p (4 * i) 3
def pGain (p : List Byte) (i : Nat) : Nat := if i = 0 then 65536 else natAt p (0x4000 + 4 * (i - 1)) 4
def pSat (p : List Byte) (i : Nat) : Nat := natAt p (0x4008 + 4 * i) 4
def pBs (p : List Byte) (i : Nat) : Nat := natAt p (0x4010 + i) 1
def pBl (p : List Byte) (phase : Nat) : Nat := natAt p (0x4020 + 4 * phase) 4
def pTh (p : List Byte) : Nat := natAt p 0x4030 4
def pCount (p : List Byte) : Nat := natAt p 0x4034 2
def pDyn (p : List Byte) : Bool := natAt p 0x4036 1 == 1
def pMat (p : List Byte) (i j : Nat) : Int := int16 (natAt p (0x4040 + 2 * (3 * i + j)) 2)
def pOff (p : List Byte) (i : Nat) : Int := int32 (BitVec.ofNat 32 (natAt p (0x4054 + 4 * i) 4))
def pX0 (p : List Byte) : Nat := natAt p 0x4060 2
def pY0 (p : List Byte) : Nat := natAt p 0x4062 2
def pWw (p : List Byte) : Nat := natAt p 0x4064 2
def pWh (p : List Byte) : Nat := natAt p 0x4066 2
def pShift (p : List Byte) : Nat := natAt p 0x4068 1
def pShade (p : List Byte) (phase : Nat) : List Nat := (List.range 825).map fun k => natAt p (0x4080 + 2 * (825 * phase + k)) 2
def pTone (p : List Byte) (ch k : Nat) : Nat := natAt p (0x5A80 + 2 * (640 * ch + k)) 2 % 4096
def pDefects (p : List Byte) : List (Nat × Nat) :=
  (List.range (pCount p)).map fun k => (natAt p (0x6980 + 4 * k) 2, natAt p (0x6982 + 4 * k) 2)

/-- The largest 24-bit value. -/
def max24 : Nat := 16777215

/-- The parameter block is valid for a frame of w by h pixels (R173). -/
def paramOk (p : List Byte) (w h : Nat) : Bool :=
  decide (pX0 p + 16 * pWw p ≤ w) && decide (pY0 p + 12 * pWh p ≤ h) && decide (pCount p ≤ 4096)
    && decide (pBs p 0 ≤ 20) && decide (pBs p 1 ≤ 20) && decide (pSat p 0 < 16777216) && decide (pSat p 1 < 16777216)

/-- Linearisation of a code of b bits (R169). -/
def linearise (p : List Byte) (b x : Nat) : Nat :=
  if b = 10 then pLut p (x * 4)
  else
    let f := b - 12
    let i := x / 2 ^ f
    let r := x - i * 2 ^ f
    if f = 0 then pLut p i
    else (pLut p i * (2 ^ f - r) + pLut p (min (i + 1) 4095) * r + 2 ^ (f - 1)) / 2 ^ f

/-- The exposure the merge of a pixel starts from (R170). -/
def mergeFrom (p : List Byte) (l : List Nat) : Nat → Nat → Nat
  | 0, i => i
  | k + 1, i => if i + 1 < l.length ∧ pSat p i < l.getD i 0 then mergeFrom p l k (i + 1) else i

/-- L × g, rounded down. -/
def scaled (p : List Byte) (l : List Nat) (i : Nat) : Nat := l.getD i 0 * pGain p i / 65536

/-- The merge of one pixel from the linear values of its exposures (R170). -/
def mergePixel (p : List Byte) (l : List Nat) : Nat :=
  if l.length ≤ 1 then l.getD 0 0
  else
    let i := mergeFrom p l l.length 0
    let v := scaled p l i
    let v := if i + 1 < l.length ∧ pSat p i < l.getD i 0 + 2 ^ pBs p i then
        let w := pSat p i - l.getD i 0
        (v * w + scaled p l (i + 1) * (2 ^ pBs p i - w)) / 2 ^ pBs p i
      else v
    min v max24

/-- The merged plane of the linear planes. -/
def mergePlanes (p : List Byte) (planes : List Image) : Image :=
  (planes.headD []).mapAt fun y x _ => mergePixel p (planes.map fun m => m.at y x)

/-- The CFA phase of a pixel, in raster order of the 2 × 2 quad. -/
def phaseAt (y x : Nat) : Nat := 2 * (y % 2) + x % 2

/-- Black level (Table 7-2). -/
def blackLevel (p : List Byte) (m : Image) : Image := m.mapAt fun y x v => v - pBl p (phaseAt y x)

/-- A coordinate mirrored into 0 to n − 1 (R171). -/
def mirror (n : Nat) (i : Int) : Nat :=
  let j := if i < 0 then -i else i
  (if (n : Int) ≤ j then 2 * ((n : Int) - 1) - j else j).toNat

/-- Offsets of the four nearest and of all eight same-colour neighbours (R171). -/
def neighbours (cfa y x : Nat) : List (Int × Int) × List (Int × Int) :=
  if cfa = 2 then ([(-1, 0), (0, -1), (0, 1), (1, 0)],
    [(-1, -1), (-1, 0), (-1, 1), (0, -1), (0, 1), (1, -1), (1, 0), (1, 1)])
  else if phaseAt y x = 1 ∨ phaseAt y x = 2 then ([(-1, -1), (-1, 1), (1, -1), (1, 1)],
    [(-1, -1), (-1, 1), (1, -1), (1, 1), (-2, 0), (0, -2), (0, 2), (2, 0)])
  else ([(-2, 0), (0, -2), (0, 2), (2, 0)],
    [(-2, -2), (-2, 0), (-2, 2), (0, -2), (0, 2), (2, -2), (2, 0), (2, 2)])

/-- A value put into a rising list. -/
def insertNat (v : Nat) : List Nat → List Nat
  | [] => [v]
  | a :: l => if v ≤ a then v :: a :: l else a :: insertNat v l

/-- The median of an even count: the mean of the two middle values, rounded down (R171). -/
def median (l : List Nat) : Nat :=
  let r := l.foldr insertNat []
  (r.getD (r.length / 2 - 1) 0 + r.getD (r.length / 2) 0) / 2

/-- Defect pixel correction (R171). -/
def defects (p : List Byte) (cfa w h : Nat) (m : Image) : Image :=
  let list := pDefects p
  m.mapAt fun y x v =>
    let vals := fun o : List (Int × Int) => o.map fun d => m.at (mirror h ((y : Int) + d.1)) (mirror w ((x : Int) + d.2))
    let n := neighbours cfa y x
    if list.contains (x, y) then median (vals n.1)
    else if pDyn p then
      let l := vals n.2
      if l.foldl max 0 + pTh p < v ∨ v + pTh p < l.foldl min max24 then median l else v
    else v

/-- The node before a row or column, and the way from it to the next node as numerator and denominator, 0 to 1; where the
nodes lie is free (log entry 19). -/
def shadeAt (nodes size i : Nat) : Nat × Nat × Nat :=
  let p := Config.shadePlace nodes size i
  let d := max p.2.2 1
  (min p.1 (nodes - 2), min p.2.1 d, d)

/-- A sample times the gain at a pixel, interpolated bilinearly between four nodes of the 33 × 25 grid, rounded down
(Table 7-2). -/
def shadeSample (w h y x v : Nat) (grid : List Nat) : Nat :=
  let r := shadeAt 25 h y
  let c := shadeAt 33 w x
  let g := fun i j => grid.getD (33 * i + j) 0
  let row := fun i => g i c.1 * (c.2.2 - c.2.1) + g i (c.1 + 1) * c.2.1
  v * (row r.1 * (r.2.2 - r.2.1) + row (r.1 + 1) * r.2.1) / (4096 * c.2.2 * r.2.2)

/-- Lens shading (Table 7-2). -/
def shading (p : List Byte) (w h : Nat) (m : Image) : Image :=
  let grids := (List.range 4).map (pShade p)
  m.mapAt fun y x v => min (shadeSample w h y x v (grids.getD (phaseAt y x) [])) max24

/-- Colour samples per pixel. -/
def channels (cfa : Nat) : Nat := if cfa = 2 then 1 else 3

/-- Demosaic: the colour samples of each pixel; MONO passes its channel (Table 7-2). -/
def demosaic (cfa : Nat) (m : Image) : List (List (List Nat)) :=
  (m.zip (List.range m.length)).map fun r => (r.1.zip (List.range r.1.length)).map fun q =>
    if cfa = 2 then [q.1] else (List.range 3).map fun c => (Config.demosaic cfa m r.2 q.2 c).toNat

/-- Colour matrix of one pixel; MONO bypasses (Table 7-2). -/
def colourPixel (p : List Byte) (x : List Nat) : List Nat :=
  if x.length ≤ 1 then x
  else (List.range 3).map fun i =>
    let dot := ((List.range 3).map fun j => pMat p i j * (x.getD j 0 : Int)).foldl (· + ·) 0
    (min (max (dot / 4096 + pOff p i) 0) 16777215).toNat

/-- The index of a 24-bit value in the tone curve (R172). -/
def toneIndex (x : Nat) : Nat :=
  if x < 32 then x
  else
    let e := Nat.log2 x
    32 * (e - 4) + x / 2 ^ (e - 5) % 32

/-- Tone map of one pixel (R172). -/
def tonePixel (p : List Byte) (x : List Nat) : List Nat :=
  (x.zip (List.range x.length)).map fun c => pTone p c.2 (toneIndex c.1)

/-- A frame at each of its write points: planes of lines of samples (Table 7-4). -/
structure Developed where
  t0 : List Image
  t1 : List Image
  t2 : Image
  t3 : List Image
  out : List Image

/-- A frame of colour pixels as one plane of pixel-major lines. -/
def pixelMajor (m : List (List (List Nat))) : List Image := [m.map fun r => r.flatMap id]

/-- The whole pipeline on the exposures of a frame (Table 7-2). -/
def develop (p : List Byte) (cfa b w h : Nat) (exps : List Image) : Developed :=
  let lin := exps.map fun m => m.map fun r => r.map (linearise p b)
  let merged := mergePlanes p lin
  let rgb := demosaic cfa (shading p w h (defects p cfa w h (blackLevel p merged)))
  { t0 := exps, t1 := lin, t2 := merged, t3 := pixelMajor rgb,
    out := pixelMajor (rgb.map fun r => r.map fun x => tonePixel p (colourPixel p x)) }

/-- The planes at a write point: 0 to 3 taps, 4 output. -/
def Developed.planes (d : Developed) (point : Nat) : List Image :=
  match point with
  | 0 => d.t0
  | 1 => d.t1
  | 2 => [d.t2]
  | 3 => d.t3
  | _ => d.out

/-- Bits per sample, container bytes and samples per pixel at a write point (Table 7-4). -/
def pointBits (point b : Nat) : Nat := if point = 0 then b else if point = 4 then 12 else 24
def pointBytes (point : Nat) : Nat := if point = 0 ∨ point = 4 then 2 else 3
def pointSamples (point cfa : Nat) : Nat := if point ≥ 3 then channels cfa else 1
def pointPlanes (point nexp : Nat) : Nat := if point ≤ 1 then nexp else 1

/-! Compression (R178) -/

/-- Distance to the sample a prediction is taken from. -/
def predDistance (point cfa : Nat) : Nat := if cfa = 2 then 1 else if point = 3 then 3 else 2

/-- One line quantised: the stored samples so far, newest first, and the values to code, newest first. -/
def quantise (pd e bs : Nat) : List Nat → List Nat → List Nat → List Nat
  | [], _, us => us.reverse
  | x :: rest, rs, us =>
    let pred : Int := (rs.getD (pd - 1) 0 : Nat)
    let d := (x : Int) - pred
    let q : Int := d.sign * ((d.natAbs + e) / (2 * e + 1) : Nat)
    let r := (min (max (pred + q * ((2 * e + 1 : Nat) : Int)) 0) ((2 ^ bs - 1 : Nat) : Int)).toNat
    let u := if 0 ≤ q then (2 * q).toNat else (-2 * q - 1).toNat
    quantise pd e bs rest (r :: rs) (u :: us)

/-- n bits of a number, most significant first. -/
def bitsMsb (n v : Nat) : List Bool := (List.range n).map fun i => v / 2 ^ (n - 1 - i) % 2 == 1

/-- The code of one value with parameter k. -/
def riceCode (bs k u : Nat) : List Bool :=
  if u / 2 ^ k ≥ 32 then List.replicate 32 true ++ bitsMsb (bs + 1) u
  else List.replicate (u / 2 ^ k) true ++ [false] ++ bitsMsb k (u % 2 ^ k)

/-- The length of that code. -/
def riceLength (bs k u : Nat) : Nat := if u / 2 ^ k ≥ 32 then 33 + bs else u / 2 ^ k + 1 + k

/-- The parameter that gives a block the fewest bits; the lowest among equals (log entry 19). -/
def bestK (bs : Nat) (block : List Nat) : Nat :=
  let cost := fun k => (block.map (riceLength bs k)).foldl (· + ·) 0
  (List.range 32).foldl (fun b k => if cost k < cost b then k else b) 0

/-- Blocks of 32 values. -/
def blocks32 : Nat → List Nat → List (List Nat)
  | 0, _ => []
  | n + 1, l => if l.isEmpty then [] else l.take 32 :: blocks32 n (l.drop 32)

/-- Eight bits as a byte, the last one padded with zeros. -/
def packBits : Nat → List Bool → List Byte
  | 0, _ => []
  | n + 1, l =>
    if l.isEmpty then []
    else
      let b := l.take 8 ++ List.replicate (8 - l.length) false
      BitVec.ofNat 8 (b.foldl (fun a x => 2 * a + (if x then 1 else 0)) 0) :: packBits n (l.drop 8)

/-- One compressed line (R178). -/
def compressLine (pd e bs : Nat) (line : List Nat) : List Byte :=
  let u := quantise pd e bs line [] []
  let l := (blocks32 u.length u).flatMap fun b =>
    let k := bestK bs b
    bitsMsb 5 k ++ b.flatMap (riceCode bs k)
  packBits l.length l

/-- One line of the payload: containers, or compressed (Table 7-4, R178). -/
def lineBytes (point cfa b comp e : Nat) (line : List Nat) : List Byte :=
  if comp = 0 then line.flatMap (leBytes (pointBytes point))
  else compressLine (predDistance point cfa) e (pointBits point b) line

/-- The payload of a frame at a write point. -/
def payload (d : Developed) (point cfa b comp e : Nat) : List Byte :=
  (d.planes point).flatMap fun m => m.flatMap (lineBytes point cfa b comp e)

/-- The smallest STRIDE of a ring (R179). -/
def minStride (point cfa b nexp w h comp : Nat) : Nat :=
  let n := w * pointSamples point cfa
  if comp = 0 then 64 + pointPlanes point nexp * h * n * pointBytes point
  else 64 + pointPlanes point nexp * h * ceilDiv (5 * ceilDiv n 32 + n * (pointBits point b + 2)) 8

/-- A buffer header (Table 7-5). -/
def bufferHeader (point comp e nexp cfa b w h num seq len : Nat) (ts : Time) : List Byte :=
  leBytes 2 1 ++ leBytes 1 point ++ leBytes 1 comp ++ leBytes 1 e ++ leBytes 1 nexp ++ leBytes 1 cfa
    ++ leBytes 1 (pointBits point b) ++ leBytes 2 w ++ leBytes 2 h ++ leBytes 2 num ++ leBytes 2 0 ++ leBytes 4 seq
    ++ leBytes 4 len ++ leBytes 8 ts ++ List.replicate 32 0

/-! Features (R181) -/

/-- More than half of the pixels of a region of interest are saturated, or it holds none: of an image of `ch` samples a pixel,
with the region in the first eight bytes of the feature parameters. A pixel is saturated where a sample of it is the largest
(log entry 19). -/
def roiFault (ch : Nat) (img : Image) (par : List Byte) : Bool :=
  let x := natAt par 0 2
  let rows := (img.drop (natAt par 2 2)).take (natAt par 6 2)
  let hits := rows.flatMap fun r =>
    (List.range (min (natAt par 4 2) (r.length / ch - x))).map fun k => ((r.drop (ch * (x + k))).take ch).any (· == 4095)
  hits.isEmpty || decide (hits.length < 2 * (hits.filter id).length)

/-! Statistics (R180) -/

/-- The sub-sampled row of a frame row: G at odd columns of even rows, every pixel for MONO. -/
def statRow (cfa y : Nat) (line : List Nat) : List (Nat × Nat) :=
  let l := line.zip (List.range line.length)
  if cfa = 2 then l else if y % 2 = 0 then l.filter fun q => q.2 % 2 == 1 else []

/-- |h ∗ g| of the filter of half-width r at place i, if it stays inside the row. -/
def bandAt (r : Nat) (g : List (Nat × Nat)) (i : Nat) : Option Nat :=
  if i < r ∨ g.length ≤ i + r then none
  else
    let v := fun k => (((g.getD k (0, 0)).1 : Nat) : Int)
    some (2 * v i - v (i - r) - v (i + r)).natAbs

/-- SUM and PEAK of one window and band over the rows of a frame. -/
def windowStat (p : List Byte) (r i j : Nat) (rows : List (Nat × List (Nat × Nat))) : Nat × Nat :=
  let x0 := pX0 p + i * pWw p
  let y0 := pY0 p + j * pWh p
  let inWin := rows.filter fun q => decide (y0 ≤ q.1) && decide (q.1 < y0 + pWh p)
  let vals := inWin.flatMap fun q =>
    (q.2.zip (List.range q.2.length)).filterMap fun g =>
      if x0 ≤ g.1.2 ∧ g.1.2 < x0 + pWw p then (bandAt r q.2 g.2).map fun v => v / 2 ^ pShift p else none
  (min (vals.foldl (· + ·) 0) 0xFFFFFFFF, min (vals.foldl max 0) 0xFFFF)

/-- A statistics record (Table 7-6). -/
def statRecord (p : List Byte) (cfa seq : Nat) (ts : Time) (t2 : Image) : List Byte :=
  let rows := (t2.zip (List.range t2.length)).map fun q => (q.2, statRow cfa q.2 q.1)
  let band := fun s : Nat × Nat => leBytes 4 s.1 ++ leBytes 2 s.2 ++ leBytes 2 0
  leBytes 4 seq ++ leBytes 4 0 ++ leBytes 8 ts ++ List.replicate 16 0
    ++ ((List.range 192).flatMap fun k =>
      band (windowStat p 1 (k % 16) (k / 16) rows) ++ band (windowStat p 3 (k % 16) (k / 16) rows))
    ++ leBytes 4 seq

end Sys2Proof.Machine
end

