-- ==== Sys2Proof/Machine/RegWrite.lean ====
section
/-!
DEFINITION. The plain effect of a register write, field by field (00_scope.md R5, R6).
-/
namespace Sys2Proof.Machine

/-- The value of a field inside a word. -/
def fieldOf (v : Nat) (f : FieldDef) : Nat := v / 2 ^ f.lsb % 2 ^ f.width

/-- The word `old` after `v` is written to one field of it. -/
def applyField (v : Nat) (old : Nat) (f : FieldDef) : Nat :=
  match f.access with
  | .rw => if f.accepts (fieldOf v f) then (State.fieldInto old ⟨0, f.lsb, f.width⟩ (fieldOf v f)).toNat else old
  | .w1c => (State.fieldInto old ⟨0, f.lsb, f.width⟩
      ((BitVec.ofNat f.width (fieldOf old f) &&& ~~~ BitVec.ofNat f.width (fieldOf v f)).toNat)).toNat
  | .ro => old
  | .wo => old

/-- The word `old` after `v` is written to the register: each field takes effect by itself. -/
def applyFields (fields : List FieldDef) (old v : Nat) : Nat := fields.foldl (applyField v) old

/-- Some RW field of `v` holds a value that is no legal encoding. -/
def illegal (fields : List FieldDef) (v : Nat) : Bool :=
  fields.any fun f => f.access == .rw && !f.accepts (fieldOf v f)

/-- The fields of the register at an address; none at a reserved offset. -/
def fieldsAt (a : Nat) : List FieldDef :=
  match regAt a with
  | some (d, _, _) => d.fields
  | none => []

/-- A plain write: reserved encodings leave their field unchanged, reserved offsets ignore it (R5, R6). -/
def plainWrite (s : State) (a : Nat) (v : Word) : State :=
  match regAt a with
  | some (d, _, _) => s.wr a (BitVec.ofNat 32 (applyFields d.fields (s.rd a).toNat v.toNat))
  | none => s

/-- Bit k of a written word. -/
def bit (v : Word) (k : Nat) : Bool := v.toNat / 2 ^ k % 2 == 1

/-- Bits lsb upward of a written word. -/
def bits (v : Word) (lsb width : Nat) : Nat := v.toNat / 2 ^ lsb % 2 ^ width

/-- The writable fields of a register as the writes that wait for its clock leave them, from the word it holds (R404). -/
def waitingView (s : State) (a w : Nat) : Nat :=
  let rw := (fieldsAt a).filter fun f => f.access == .rw
  (s.clk.gated.filter fun e => e.addr == a).foldl (fun acc e => applyFields rw acc e.value.toNat) w

/-- The word that writes v to one field of a register and the other writable fields as they stand, command bits 0. -/
def fieldWord (s : State) (f : Fld) (v : Nat) : Word :=
  let rw := (fieldsAt f.addr).filter fun d => d.access == .rw
  let old := waitingView s f.addr (s.rd f.addr).toNat
  State.fieldInto (rw.foldl (fun acc d => acc + fieldOf old d * 2 ^ d.lsb) 0) f v

/-- A register write takes its place behind those that wait (R404). -/
def State.gateWait (s : State) (e : GatedWrite) : State := { s with clk := { s.clk with gated := s.clk.gated ++ [e] } }

/-- A write of w to the register at a by a command of its own: `now` where gating group k has its clock; else it waits for
the clock, if software runs that can write at all (R404). -/
def gatedWrite (s : State) (k : Nat) (e : GatedWrite) (now : State) : Res :=
  if s.gateOn k then .next now else if s.serving then .next (s.gateWait e) else .next s

/-- A field of a control register, as `gatedWrite` takes it. -/
def gatedField (s : State) (k : Nat) (f : Fld) (v : Nat) (now : State) : Res :=
  gatedWrite s k { addr := f.addr, value := fieldWord s f v } now

end Sys2Proof.Machine
end

