-- ==== Sys2Proof/Machine/Camera.lean ====
section
/-!
DEFINITION. Camera ports: link, packets, frames, rings, replay and the I2C tunnel (07_camera_pipeline.md R161 to R181).
-/
namespace Sys2Proof.Machine

namespace State
def camPort (s : State) (c : Nat) : CamPort := Tbl.get s.cam {} c
def setCamPort (s : State) (c : Nat) (x : CamPort) : State := { s with cam := Tbl.set s.cam {} c x }
def camW (s : State) (c : Nat) : Nat := s.get (R.camPsizeW c)
def camH (s : State) (c : Nat) : Nat := s.get (R.camPsizeH c)
def camNexp (s : State) (c : Nat) : Nat := s.get (R.camPctrlNexp c)
def camCfa (s : State) (c : Nat) : Nat := s.get (R.camPctrlCfa c)
/-- Bits per sample code: 10 + 2 × BPP. -/
def camBits (s : State) (c : Nat) : Nat := 10 + 2 * s.get (R.camPctrlBpp c)
/-- Frame rate in mHz. -/
def camRate (s : State) (c : Nat) : Nat := max (s.get (R.camPrateRate c)) 1
end State

/-- Virtual channel of exposure slot i. -/
def exposureVc (s : State) (c i : Nat) : Nat :=
  if i = 0 then s.get (R.camPvcVc0 c) else if i = 1 then s.get (R.camPvcVc1 c) else s.get (R.camPvcVc2 c)

/-- The exposure slot a virtual channel is assigned to. -/
def slotOfVc (s : State) (c vc : Nat) : Option Nat := (List.range (s.camNexp c)).find? fun i => exposureVc s c i == vc

/-- The pipeline runs: powered, not clock-gated (R410). -/
def camClocked (s : State) : Bool := s.pwrStatus / 2 % 2 == 0

/-! Frames -/

/-- A frame of a port changed by f. -/
def withFrame (s : State) (c num : Nat) (f : CamFrame → CamFrame) : State :=
  let p := s.camPort c
  s.setCamPort c { p with frames := p.frames.map fun x => if x.num = num then f x else x }

/-- The frame with a number leaves the frames in progress. -/
def forget (s : State) (c num : Nat) : State :=
  let p := s.camPort c
  s.setCamPort c { p with frames := p.frames.filter fun x => x.num != num }

/-- The frame with a number is dropped with a cause of event 0x0B05 (R163 to R167, R175). -/
def frameDrop (s : State) (c num cause : Nat) : State :=
  let ctr := if cause = 1 then R.camPdropCorrupt c
    else if cause = 4 then R.camPdropLink c
    else if cause = 5 then R.camPdropRate c
    else R.camPdropMerge c
  (((forget s c num).count ctr).fire 340).log 0x0B05 (leBytes 1 c ++ leBytes 1 cause)

/-- The exposure i of a frame has started and not ended. -/
def CamFrame.runs (f : CamFrame) (i : Nat) : Bool := (f.exps.getD i {}).started && !(f.exps.getD i {}).ended

/-- Every exposure of an accepted frame has arrived. -/
def CamFrame.complete (f : CamFrame) : Bool := f.accepted && f.exps.all (·.ended)

/-- An exposure of the frame lost a line, or did not hold H lines at its end (R163). -/
def CamFrame.corrupt (f : CamFrame) : Bool := f.exps.any fun e => e.ended && e.lost

/-! The end of a frame -/

/-- The parameter block a frame runs on (R173). -/
def frameParams (f : CamFrame) : List Byte := f.params.getD camParamDefault

/-- An engine of the pipeline stores bytes; outside system SRAM and DRAM it meets a bus error. -/
def camStore (s : State) (a : Nat) (l : List Byte) : State :=
  if inSramOrDram s a l.length then (busStore s 3 a l).2 else engineError s 3 a

/-- The write point of ring a. -/
def ringPoint (s : State) (c a : Nat) : Nat := if a = 2 then 4 else s.get (R.camTcfgPoint c a)

/-- COMP of ring a: the output ring is never compressed (R178). -/
def ringComp (s : State) (c a : Nat) : Nat := if a = 2 then 0 else s.get (R.camTcfgComp c a)

/-- E of a ring: 0 unless near-lossless. -/
def ringE (s : State) (c a : Nat) : Nat := if ringComp s c a = 2 then 2 ^ s.get (R.camTcfgNear c a) else 0

/-- RING_BUFFER_COMPLETE: the buffer is written, owned by software and published (R177). -/
def ringComplete (s : State) (c a : Nat) (fr : CamFrame) (d : Developed) (i : Nat) : State :=
  let point := ringPoint s c a
  let b := s.camBits c
  let e := ringE s c a
  let pay := payload d point (s.camCfa c) b (ringComp s c a) e
  let hdr := bufferHeader point (ringComp s c a) e (pointPlanes point (s.camNexp c)) (s.camCfa c) b (s.camW c) (s.camH c)
    fr.num fr.seq pay.length fr.ts
  let base := s.rd64 (R.camTbaseLo c a) + (s.rd (R.camTstride c a)).toNat * i
  let s := camStore s base (hdr ++ pay)
  let s := (s.set ⟨R.camTown c a, i, 1⟩ 1).set (R.camTlastLast c a) i
  let p := s.camPort c
  let s := s.setCamPort c { p with rings := p.rings.set a { p.rings.getD a {} with last := some i } }
  let s := s.fire (if a = 2 then 332 + c else 324 + 2 * c + a)
  produce s ((if a = 2 then 0x30C else 0x308 + a) + 16 * c) fr.ts (F32.ofNat i)

/-- STATS_RECORD: the statistics go into the alternate buffer (R180). -/
def statsRecord (s : State) (c : Nat) (fr : CamFrame) (p : List Byte) (t2 : Image) : State :=
  let k := 1 - s.get (R.camPstatSbuf c)
  let s := camStore s (s.rd64 (R.camPstatbufLo c) + 4096 * k) (statRecord p (s.camCfa c) fr.seq fr.ts t2)
  produce ((s.set (R.camPstatSbuf c) k).fire (336 + c)) (0x30D + 16 * c) fr.ts (F32.ofNat k)

/-- A feature record of a kind from the tone-mapped image of a frame, its parameters and the intrinsics of the camera: the
measurements are free, FAULT and the frame interval as R181 and Table 7-7 say (log entry 19). -/
def featureRecord (s : State) (c kind : Nat) (fr : CamFrame) (img : Image) : List Byte × State :=
  let par := (frameParams fr).drop 0xA980
  let l := (List.range 600).map (Config.feature s.freeCtr kind img par (s.objB (0x2500 + c) 0x10))
  let before := (s.camPort c).featTs.filter fun t => decide (t < fr.ts)
  let fault := roiFault (channels (s.camCfa c)) img par || natAt l 6 1 % 2 == 1 || (kind == 1 && before.isNone)
  let flags : List Byte := [if fault then 1 else 0, 0]
  let n := natAt l 4 1 % (if kind = 1 then 49 else 33)
  let every := match before with
    | some t => F32.toBytes (F32.ofRat (fr.ts - t : Nat) 1000000000)
    | none => (l.drop 8).take 4
  let s := s.fresh
  if kind = 1 then (l.take 4 ++ leBytes 2 n ++ flags ++ every ++ (l.drop 12).take (10 * n), s)
  else if kind = 2 then (l.take 4 ++ leBytes 2 n ++ flags ++ (l.drop 8).take (6 * n), s)
  else if kind = 3 then (l.take 12 ++ flags ++ (l.drop 14).take 32, s)
  else (l.take 8 ++ flags ++ [0, 0] ++ (l.drop 12).take 16, s)

/-- FLAGS bit 0 of a feature record. -/
def featureFault (kind : Nat) (rec : List Byte) : Bool :=
  let o := if kind = 3 then 12 else if kind = 4 then 8 else 6
  natAt rec o 1 % 2 == 1

/-- FEATURE_PUBLISH: the feature record of the port, if it has a kind (R181). -/
def featurePublish (s : State) (c : Nat) (fr : CamFrame) (img : Image) : State :=
  let kind := s.get (R.camPfeatKind c)
  let s := if kind = 0 then s
    else
      let r := featureRecord s c kind fr img
      deliver r.2 (0x300 + 16 * c) fr.ts (F32.ofBytes r.1) (featureFault kind r.1) r.1
  s.setCamPort c { s.camPort c with featTs := some fr.ts }

/-- A complete frame of port c leaves the pipeline: rings, statistics, feature (R177, R180, R181). Rings listed in `behind`
fell behind their write queue and drop the frame (R175). -/
def finishFrame (s : State) (c : Nat) (behind : List Nat) (fr : CamFrame) : State :=
  let params := frameParams fr
  let d := develop params (s.camCfa c) (s.camBits c) (s.camW c) (s.camH c) (fr.exps.map (·.lines))
  let s := (List.range 3).foldl (fun t a =>
    match fr.bufs.getD a none with
    | some (some i) => if behind.contains a then t.countSat (R.camTlastDrops c a) else ringComplete t c a fr d i
    | _ => t) s
  forget (featurePublish (statsRecord s c fr params d.t2) c fr (d.out.headD [])) c fr.num

/-- The oldest complete frame of port c leaves the pipeline. -/
def frameEnd (s : State) (c : Nat) (behind : List Nat) : State :=
  match (s.camPort c).frames.find? (·.complete) with
  | none => s
  | some fr => finishFrame s c behind fr

/-! Rings -/

/-- EN of each ring takes effect at a frame start; a ring newly enabled has all its buffers free (R177). -/
def ringsEnable (s : State) (c : Nat) : State :=
  (List.range 3).foldl (fun t a =>
    let p := t.camPort c
    let r := p.rings.getD a {}
    let on := t.flag (R.camTcfgEn c a)
    t.setCamPort c { p with rings := p.rings.set a { r with on := on } }) s

/-- The first free buffer of a ring in cyclic order after the one written last: neither owned by software nor taken by a frame
in progress (R177). -/
def freeBuffer (s : State) (c a : Nat) : Option Nat :=
  let n := max (s.get (R.camTcfgNbuf c a)) 1
  let p := s.camPort c
  let start := match (p.rings.getD a {}).last with
    | none => 0
    | some l => l + 1
  ((List.range n).map fun k => (start + k) % n).find? fun i =>
    !bit (s.rd (R.camTown c a)) i && p.frames.all fun f => f.bufs.getD a none != some (some i)

/-- The first line of a frame has reached the write point of ring a: before the merge with the first line of any exposure,
after it with the first line of each (Table 7-4, R165). -/
def reaches (s : State) (c a : Nat) (f : CamFrame) : Bool :=
  if ringPoint s c a ≤ 1 then f.exps.any fun e => !e.lines.isEmpty else f.exps.all fun e => !e.lines.isEmpty

/-- A ring whose write point the frame has reached takes a buffer for it, or drops it (R177). -/
def ringTake (s : State) (c a num : Nat) : State :=
  match (s.camPort c).frames.find? fun f => f.num == num with
  | none => s
  | some f =>
    if f.accepted = false ∨ f.bufs.getD a none ≠ none ∨ reaches s c a f = false then s
    else
      let b := freeBuffer s c a
      let s := withFrame s c num fun f => { f with bufs := f.bufs.set a (some b) }
      if b = none then (s.countSat (R.camTlastDrops c a)).log 0x0B06 (leBytes 1 c ++ leBytes 1 a) else s

/-- The rings of a port look at the frame. -/
def ringsTake (s : State) (c num : Nat) : State := (List.range 3).foldl (fun t a => ringTake t c a num) s

/-! The start of a frame -/

/-- The largest permitted distance in lines between exposures (R165). -/
def staggerMax (s : State) (c : Nat) : Nat :=
  if s.camNexp c ≤ 1 then 4096 else 524288 / (2 * s.camW c * (s.camNexp c - 1)) - 4

/-- The lines of the exposures that have arrived lie further apart than the line buffer holds (R165). -/
def staggered (s : State) (c : Nat) (f : CamFrame) : Bool :=
  let n := (f.exps.filter (·.started)).map fun e => e.lines.length
  decide (n.foldl max 0 > n.foldl min 4096 + staggerMax s c)

/-- An accepted frame is looked at after a change: its rings take buffers, and it is dropped where it is corrupt or its
exposures lie too far apart (R163, R165, R177). -/
def frameCheck (s : State) (c num : Nat) : State :=
  let s := ringsTake s c num
  match (s.camPort c).frames.find? fun f => f.num == num with
  | none => s
  | some f =>
    if f.accepted = false then s
    else if f.corrupt then frameDrop s c num 1
    else if staggered s c f then frameDrop s c num 3
    else s

/-- A frame start of slot 0: the phase of the frame sync and a parameter set that has been copied take effect (R173). -/
def startLatch (s : State) (c : Nat) : State :=
  let p := { s.camPort c with phase := s.get (R.camPtsPhase c) }
  match p.shadow with
  | some b => (s.setCamPort c { p with active := some b, shadow := none }).set (R.camPstatApplyPend c) 0
  | none => s.setCamPort c p

/-- A frame start of slot 0 is accepted: timestamp, parameter set, rings; an exposure that came earlier belongs to it (R164,
R166, R173, R177). -/
def frameAccept (s : State) (c num : Nat) (ts : Time) : State :=
  let s := ringsEnable s c
  let p := s.camPort c
  let old := ((p.frames.find? fun f => f.num == num).getD { exps := List.replicate (s.camNexp c) {} }).exps
  let seq := (p.seq + 1) % 4294967296
  let f : CamFrame :=
    { num := num, ts := ts, arrived := s.now, seq := seq, accepted := true,
      exps := old.set 0 { old.getD 0 {} with started := true },
      bufs := p.rings.map fun r => if r.on then none else some none, params := p.active }
  let s := s.setCamPort c { p with
    frames := (p.frames.filter fun x => x.num != num) ++ [f], prev := some s.now, seq := seq }
  frameCheck (s.count (R.camPframes c)) c num

/-- The frame start comes less than 0.95 frame periods after the last accepted one (R175). -/
def tooFast (s : State) (c : Nat) : Bool :=
  match (s.camPort c).prev with
  | none => false
  | some t => decide ((s.now - t) * s.camRate c * 100 < 95 * 1000000000000)

/-- A frame start of slot 0 with a frame number and a timestamp (R164, R166, R175). Exposures of other frames whose slot 0
never came are forgotten. -/
def frameStart (s : State) (c num : Nat) (ts : Time) : State :=
  let s := startLatch s c
  let s := s.setCamPort c { s.camPort c with frames := (s.camPort c).frames.filter fun f => f.accepted || f.num == num }
  if tooFast s c then frameDrop s c num 5
  else if s.flag R.camStatDamp then
    let p := s.camPort c
    let s := s.setCamPort c { p with skip := !p.skip }
    if p.skip then ((forget s c num).count (R.camPdropMerge c)).fire 340 else frameAccept s c num ts
  else frameAccept s c num ts

/-- Complete frames leave the pipeline before a frame start of exposure i with a frame number; a frame whose exposure i has no
frame end, or has the same number, is dropped as corrupt (R163; log entry 120). -/
def clearChannel (s : State) (c i num : Nat) : State :=
  let s := ((s.camPort c).frames.filter (·.complete)).foldl (fun t f => finishFrame t c [] f) s
  ((s.camPort c).frames.filter fun f => f.runs i || ((f.exps.getD i {}).started && f.num == num)).foldl (fun t f =>
    if f.accepted then frameDrop t c f.num 1 else forget t c f.num) s

/-- The frame start of exposure i of a camera arrives now (R164, R166). An exposure may come before slot 0 of its frame. -/
def cameraFrameStart (s : State) (c i num : Nat) : State :=
  let s := clearChannel s c i num
  if i = 0 then frameStart s c num (s.time.dev - us (s.get (R.camPtsLat c)))
  else
    let p := s.camPort c
    let s := if p.frames.any fun f => f.num == num then s
      else s.setCamPort c { p with frames := p.frames ++ [{ num := num, exps := List.replicate (s.camNexp c) {} }] }
    frameCheck (withFrame s c num fun f => { f with exps := f.exps.set i { started := true } }) c num

/-- The port takes frames from its camera. -/
def cameraLive (s : State) (c : Nat) : Bool :=
  decide (c < 4) && camClocked s && s.flag (R.camPctrlEn c) && !s.flag (R.camPctrlSrc c) && s.flag (R.camPstatLock c)

/-- CAM_FRAME_START (R164): the frame start of slot 0. -/
def execCamFrameStart (c number : Nat) (s : State) : Res := gated s 7 <|
  if cameraLive s c then .next (cameraFrameStart s c 0 number) else .next s

/-- Exposure i of a frame changed by f. -/
def withExp (s : State) (c num i : Nat) (f : CamExp → CamExp) : State :=
  withFrame s c num fun x => { x with exps := x.exps.set i (f (x.exps.getD i {})) }

/-- The frame whose exposure i runs. -/
def runningFrame (s : State) (c i : Nat) : Option CamFrame := (s.camPort c).frames.find? fun f => f.runs i

/-- A line of the running exposure i is accepted. -/
def lineAccept (s : State) (c num i : Nat) (codes : List Nat) : State :=
  let mask := 2 ^ s.camBits c
  frameCheck (withExp s c num i fun e => { e with lines := e.lines ++ [codes.map (· % mask)] }) c num

/-- The frame end of the running exposure i: a frame that lost a line or does not hold H lines is dropped (R163). -/
def exposureEnd (s : State) (c num i : Nat) : State :=
  frameCheck (withExp s c num i fun e => { e with ended := true, lost := e.lost || e.lines.length != s.camH c }) c num

/-! Packets -/

/-- A packet error is counted, and logged with the count of the last second at most once per second (R163). -/
def packetError (s : State) (c : Nat) : State :=
  let p := s.camPort c
  let recent := s.now :: p.pktErrs.filter fun t => decide (s.now < t + 1000000000)
  let s := (s.setCamPort c { p with pktErrs := recent }).count (R.camPpkterr c)
  if s.secondPassed p.pktLogAt then
    (s.setCamPort c { s.camPort c with pktLogAt := some s.now }).log 0x0B07 (leBytes 1 c ++ leBytes 4 recent.length)
  else s

/-- A packet error that costs the frame whose exposure i runs a line of it. -/
def lineLost (s : State) (c i : Nat) : State :=
  match runningFrame s c i with
  | none => packetError s c
  | some f => packetError (withExp s c f.num i fun e => { e with lost := true }) c

/-- A packet whose header is good (R163, R164). -/
def packet (s : State) (c vc dt : Nat) (crcOk : Bool) (num : Nat) (codes : List Nat) : State :=
  if dt = 2 ∨ dt = 3 then s
  else
    match slotOfVc s c vc with
    | none => packetError s c
    | some i =>
      if dt = 0 then cameraFrameStart s c i num
      else
        match runningFrame s c i with
        | none => if dt = 1 ∨ (dt = 0x2B + s.get (R.camPctrlBpp c) ∧ crcOk = true ∧ codes.length = s.camW c) then s else packetError s c
        | some f =>
          if dt = 1 then exposureEnd s c f.num i
          else if dt ≠ 0x2B + s.get (R.camPctrlBpp c) then packetError s c
          else if crcOk = false ∨ codes.length ≠ s.camW c then lineLost s c i
          else lineAccept s c f.num i codes

/-- CSI_PACKET (R163): a packet with `headerBits` wrong header bits; one wrong bit is corrected. -/
def execCsiPacket (c vc dt headerBits : Nat) (crcOk : Bool) (number : Nat) (codes : List Nat) (s : State) : Res := gated s 7 <|
  if cameraLive s c = false then .next s
  else if headerBits > 1 then .next (packetError s c)
  else .next (packet s c vc dt crcOk number codes)

/-- One frame period in ns (R164, log entry 20). -/
def framePeriod (s : State) (c : Nat) : Nat := 1000000000000 / s.camRate c

/-- MERGE_TIMEOUT (R164): an exposure has not started one frame period after slot 0. -/
def execMergeTimeout (c : Nat) (s : State) : Res := gated s 7 <|
  match (s.camPort c).frames.find? fun f => f.accepted && !f.exps.all (·.started) with
  | none => .next s
  | some fr => .next (frameDrop (s.passTo (fr.arrived + framePeriod s c)) c fr.num 2)

/-- CAM_FRAME_END (R177). -/
def execCamFrameEnd (c : Nat) (behind : List Nat) (s : State) : Res := gated s 7 <|
  if c > 3 then .next s else .next (frameEnd s c behind)

/-- A buffer is returned; the index of a buffer not owned is ignored (R177). -/
def tapAck (s : State) (c a index : Nat) : State := s.set ⟨R.camTown c a, index % 16, 1⟩ 0

/-- TAP_ACK (R177). -/
def execTapAck (c a index : Nat) (s : State) : Res :=
  if c > 3 ∨ a > 2 then .next s
  else gatedWrite s 7 { addr := R.camTack c a, value := BitVec.ofNat 32 index } (tapAck s c a index)

/-! Feed, link, frame sync, I2C -/

/-- CAM_FEED_FAULT (R162): limiting lasted 10 ms. -/
def execCamFeedFault (c milliamp : Nat) (s : State) : Res :=
  if c > 3 ∨ s.flag (R.camPctrlPwr c) = false ∨ s.flag (R.camPstatPwrFlt c) then .next s
  else .next (((s.set (R.camPstatPwrFlt c) 1).fire (320 + c)).log 0x0B03 (leBytes 1 c ++ leBytes 2 milliamp))

/-- PWR is written; 0 clears PWR_FLT (R162). -/
def feedSwitch (s : State) (c : Nat) (on : Bool) : State :=
  let s := s.put (R.camPctrlPwr c) on
  if on then s else s.set (R.camPstatPwrFlt c) 0

/-- CAM_FEED_SWITCH (R162). -/
def execCamFeedSwitch (c : Nat) (on : Bool) (s : State) : Res :=
  if c > 3 then .next s else .next (feedSwitch s c on)

/-- The downlink has been out of lock for 10 µs (R167). -/
def linkLoss (s : State) (c : Nat) : State :=
  if s.flag (R.camPstatLock c) = false then s
  else
    let s := ((s.camPort c).frames.filter (·.accepted)).foldl (fun t f => frameDrop t c f.num 4) (s.set (R.camPstatLock c) 0)
    let s := s.setCamPort c { s.camPort c with frames := [], lostAt := some s.now }
    (s.fire (320 + c)).log 0x0B01 (leBytes 1 c ++ leBytes 4 (s.camPort c).seq)

/-- CAM_LINK_LOSS (R167). -/
def execCamLinkLoss (c : Nat) (s : State) : Res := gated s 7 <| if c > 3 then .next s else .next (linkLoss s c)

/-- CAM_LINK_REGAIN (R167): the downlink has trained; a return is logged with the outage. -/
def execCamLinkRegain (c : Nat) (s : State) : Res := gated s 7 <|
  if c > 3 ∨ s.flag (R.camPstatLock c) then .next s
  else
    let p := s.camPort c
    let s := ((s.set (R.camPstatLock c) 1).setCamPort c { p with lostAt := none }).fire (320 + c)
    match p.lostAt with
    | none => .next s
    | some t => .next (s.log 0x0B02 (leBytes 1 c ++ leBytes 4 ((s.now - t) / 1000000)))

/-- The next frame-sync instant of a port: not before device time, and after the last one (R166). -/
def nextSync (s : State) (c : Nat) : Time :=
  let ph := us (s.camPort c).phase
  let from' := match (s.camPort c).syncAt with
    | none => s.time.dev
    | some l => max s.time.dev (l + 1)
  ceilDiv ((from' - ph) * s.camRate c) 1000000000000 * 1000000000000 / s.camRate c + ph

/-- FRAME_SYNC_EDGE (R166): the next instant floor(n × 10^12 / RATE) ns + PHASE µs comes. -/
def execFrameSyncEdge (c : Nat) (s : State) : Res := gated s 7 <|
  if c > 3 ∨ s.flag (R.camPctrlFsync c) = false then .next s
  else
    let t := nextSync s c
    let s := s.devTo t
    .next ((s.setCamPort c { s.camPort c with syncAt := some t }).emit (.fsync c t))

/-- CAM_PI2C is written: GO starts a transfer unless one runs (R167). -/
def i2cWrite (s : State) (c : Nat) (v : Word) : State :=
  let t := plainWrite s (R.camPi2c c) v
  if bit v 31 ∧ s.flag (R.camPi2cdBusy c) = false then
    let len := 1 + bits v 24 1
    ((t.set (R.camPi2cdBusy c) 1).setCamPort c { t.camPort c with i2c := v }).emit
      (.i2c c (bits v 0 7) (bits v 8 16) len (bit v 7) (if bit v 7 then [] else leBytes len (t.get (R.camPi2cdData c))))
  else t

/-- I2C_TRANSFER_START (R167). -/
def execI2cTransferStart (c : Nat) (value : Word) (s : State) : Res :=
  if c > 3 then .next s else gatedWrite s 7 { addr := R.camPi2c c, value := value } (i2cWrite s c value)

/-- I2C_TRANSFER_END (R167): acknowledged or not, with the data read. -/
def execI2cTransferEnd (c : Nat) (ack : Bool) (data : Nat) (s : State) : Res := gated s 7 <|
  if c > 3 ∨ s.flag (R.camPi2cdBusy c) = false then .next s
  else
    let s := s.set (R.camPi2cdBusy c) 0
    if ack = false then .next (s.set (R.camPi2cdNack c) 1)
    else if bit (s.camPort c).i2c 7 then
      .next (s.set (R.camPi2cdData c) (if bit (s.camPort c).i2c 24 then data else data % 256))
    else .next s

/-! Parameters and enable -/

/-- APPLY starts the copy of the parameter block (R173). -/
def camApply (s : State) (c : Nat) : State :=
  (s.setCamPort c { s.camPort c with copying := true, shadow := none }).set (R.camPstatApplyPend c) 1

/-- CAM_APPLY (R173). -/
def execCamApply (c : Nat) (s : State) : Res :=
  if c > 3 then .next s else gatedField s 7 (R.camPctrlApply c) 1 (camApply s c)

/-- CAM_PARAMETER_COPY_END (R173): the copy is complete and validated. -/
def paramCopyEnd (s : State) (c : Nat) : State :=
  if (s.camPort c).copying = false then s
  else
    let a := s.rd64 (R.camPparamLo c)
    let r := if inSramOrDram s a 43456 then busRead s 3 a 43456 else ([], engineError s 3 a)
    let s := r.2.setCamPort c { r.2.camPort c with copying := false }
    if r.1.length = 43456 ∧ paramOk r.1 (s.camW c) (s.camH c) = true then
      (s.setCamPort c { s.camPort c with shadow := some r.1 }).set (R.camPstatErr c) 0
    else (s.set (R.camPstatErr c) 6).set (R.camPstatApplyPend c) 0

def execCamParameterCopyEnd (c : Nat) (s : State) : Res := gated s 7 <| if c > 3 then .next s else .next (paramCopyEnd s c)

/-- W × H × NEXP × RATE of a port: 1/1,000 pixels per second (R174). -/
def pixelDemand (s : State) (c : Nat) : Nat := s.camW c * s.camH c * s.camNexp c * s.camRate c

/-- The demand of the enabled ports and of port c (R174). -/
def pixelSum (s : State) (c : Nat) : Nat :=
  (((List.range 4).filter fun k => k == c || s.flag (R.camPctrlEn k)).map (pixelDemand s)).foldl (· + ·) 0

/-- The admitted sum, in 0.1 Mpx/s. -/
def budgetRefresh (s : State) : State :=
  s.set R.camStatBudget
    ((((List.range 4).filter fun k => s.flag (R.camPctrlEn k)).map (pixelDemand s)).foldl (· + ·) 0 / 100000000)

/-- EN = 1 (R174): answers the ERR code, 0 accepted. -/
def camEnable (s : State) (c : Nat) : State × Nat :=
  let sum := pixelSum s c
  let e := if sum > 1600000000000 then 3
    else if s.flag (R.camPctrlSrc c) = false ∧ pixelDemand s c * s.camBits c > 3600000000000 then 4
    else 0
  let s := s.set (R.camPstatErr c) e
  if e ≠ 0 then (s.log 0x0B04 (leBytes 1 c ++ leBytes 1 e ++ leBytes 4 (sum / 100000000)), e)
  else if s.flag (R.camPctrlEn c) then (s, 0)
  else
    let p := s.camPort c
    let s := (s.set (R.camPctrlEn c) 1).setCamPort c { p with seq := 0, prev := none, frames := [], replayAt := none,
                                                              replayIdx := 0, featTs := none }
    (budgetRefresh s, 0)

/-- CAM_ENABLE (R174). -/
def execCamEnable (c : Nat) (s : State) : Res :=
  if c > 3 then .next s else gatedField s 7 (R.camPctrlEn c) 1 (camEnable s c).1

/-- EN = 0: the port stops, and its frame in progress with it. -/
def camDisable (s : State) (c : Nat) : State :=
  let p := s.camPort c
  budgetRefresh ((s.set (R.camPctrlEn c) 0).setCamPort c { p with frames := [] })

/-- CAM_PCTRL is written (R162, R173, R174). Answers the ERR code. -/
def camPctrlWrite (s : State) (c : Nat) (v : Word) : State × Nat :=
  let a := R.camPctrl c
  let keep : List FieldDef := (fieldsAt a).filter fun f => f.access == .rw && f.lsb != 0 && f.lsb != 12
  let changed := keep.any fun f => fieldOf v.toNat f != fieldOf (s.rd a).toNat f
  let enabled := s.flag (R.camPctrlEn c)
  let e := if enabled && changed then 1 else if illegal keep v.toNat then 2 else 0
  let s := if enabled then s else s.wr a (BitVec.ofNat 32 (applyFields keep (s.rd a).toNat v.toNat))
  let s := if e = 0 then s else s.set (R.camPstatErr c) e
  let s := if bit v 3 then s.clearAll ((List.range 6).map fun k => R.camPframes c + 4 * k) else s
  let s := if bit v 12 = s.flag (R.camPctrlPwr c) then s else feedSwitch s c (bit v 12)
  let s := if bit v 2 then camApply s c else s
  if bit v 0 = false then (if enabled then camDisable s c else s, e)
  else if enabled then (s, e)
  else
    let r := camEnable s c
    if r.2 = 0 ∧ e ≠ 0 then (r.1.set (R.camPstatErr c) e, e) else r

/-- A register of port c that is refused with ERR 1 while EN = 1, and with ERR 2 for an illegal value (R173). -/
def camConfigWrite (s : State) (c a : Nat) (v : Word) : State × Nat :=
  if s.flag (R.camPctrlEn c) then (s.set (R.camPstatErr c) 1, 1)
  else
    let t := plainWrite s a v
    if illegal (fieldsAt a) v.toNat then (t.set (R.camPstatErr c) 2, 2) else (t, 0)

/-- Compression that the integrity profile in effect forbids (R390). -/
def compForbidden (s : State) (comp : Nat) : Bool := decide (comp > s.intg.getD 3 0)

/-- EN = 1 of a ring: refused with ERR 5 where STRIDE is below the worst case, else every buffer is free (R177, R179). -/
def ringEnable (s : State) (c a : Nat) : State × Nat :=
  let point := ringPoint s c a
  if (s.rd (R.camTstride c a)).toNat
      < minStride point (s.camCfa c) (s.camBits c) (s.camNexp c) (s.camW c) (s.camH c) (ringComp s c a) then
    (s.set (R.camPstatErr c) 5, 5)
  else
    let p := s.camPort c
    (((s.set (R.camTcfgEn c a) 1).wr (R.camTown c a) 0).setCamPort c
      { p with rings := p.rings.set a { p.rings.getD a {} with last := none } }, 0)

/-- CAM_TCFG of ring a is written: fields other than EN are refused with ERR 1 while EN = 1; an illegal or forbidden value
leaves its field with ERR 2, and the output ring has no compression (R6, R177, R178, R390). Answers the ERR code. -/
def camTcfgWrite (s : State) (c a : Nat) (v : Word) : State × Nat :=
  let addr := R.camTcfg c a
  let keep : List FieldDef := (fieldsAt addr).filter fun f => f.lsb != 0
  let changed := keep.any fun f => fieldOf v.toNat f != fieldOf (s.rd addr).toNat f
  let on := s.flag (R.camTcfgEn c a)
  let forbidden := if a = 2 then bits v 3 2 != 0 else compForbidden s (bits v 3 2)
  let e := if on then (if changed then 1 else 0) else if illegal keep v.toNat || forbidden then 2 else 0
  let legal := if forbidden then keep.filter fun f => f.lsb != 3 else keep
  let t := if on then s else s.wr addr (BitVec.ofNat 32 (applyFields legal (s.rd addr).toNat v.toNat))
  let t := if e = 0 then t else t.set (R.camPstatErr c) e
  if bit v 0 = on then (t, e)
  else if on then (t.set (R.camTcfgEn c a) 0, e)
  else
    let r := ringEnable t c a
    (r.1, if r.2 = 0 then e else r.2)

/-- The Damper's pipeline reduction begins or ends (R175). -/
def camDamper (s : State) (on : Bool) : State :=
  if s.flag R.camStatDamp = on then s
  else
    let s := (List.range 4).foldl (fun t c => t.setCamPort c { t.camPort c with skip := true }) s
    (s.put R.camStatDamp on).log 0x0B08 [if on then 1 else 0]

/-! Replay -/

/-- The stride of recorded frames: an uncompressed tap T0 buffer, a multiple of 64 bytes (R175). -/
def replayStride (s : State) (c : Nat) : Nat :=
  ceilDiv (minStride 0 (s.camCfa c) (s.camBits c) (s.camNexp c) (s.camW c) (s.camH c) 0) 64 * 64

/-- The planes of a recorded payload. -/
def replayPlanes (s : State) (c : Nat) (l : List Byte) : List Image :=
  let w := s.camW c
  let h := s.camH c
  (List.range (s.camNexp c)).map fun k => (List.range h).map fun y => (List.range w).map fun x =>
    natAt l (2 * ((k * h + y) * w + x)) 2

/-- A replay port runs its next recorded frame (R175). -/
def replayFrame (s : State) (c : Nat) : State :=
  let p := s.camPort c
  let t := match p.replayAt with
    | none => s.now
    | some l => l + framePeriod s c
  let s := s.passTo t
  let n := max (s.get (R.camPrplnRpln c)) 1
  let a := s.rd64 (R.camPrplLo c) + replayStride s c * (p.replayIdx % n)
  let size := minStride 0 (s.camCfa c) (s.camBits c) (s.camNexp c) (s.camW c) (s.camH c) 0
  let r := if inSramOrDram s a size then busRead s 3 a size else ([], engineError s 3 a)
  let s := r.2.setCamPort c { p with replayAt := some t, replayIdx := (p.replayIdx + 1) % n }
  let num := natAt r.1 12 2
  let s := frameStart (clearChannel s c 0 num) c num (natAt r.1 24 8)
  let exps := (replayPlanes s c (r.1.drop 64)).map fun m => { started := true, ended := true, lines := m : CamExp }
  ringsTake (withFrame s c num fun f => { f with exps := exps }) c num

/-- REPLAY_FRAME (R175). -/
def execReplayFrame (c : Nat) (s : State) : Res := gated s 7 <|
  if c > 3 ∨ camClocked s = false ∨ s.flag (R.camPctrlEn c) = false ∨ s.flag (R.camPctrlSrc c) = false then .next s
  else .next (replayFrame s c)

end Sys2Proof.Machine
end

