-- ==== Sys2Proof/Machine/CheckUnit.lean ====
section
/-!
DEFINITION. The check-value units: CRC feed and alive-counter classification (13_can_integrity.md R319 to R324).
-/
namespace Sys2Proof.Machine

/-- The algorithm unit u is set to (Table 13-4); the programmable one takes its registers (R319). -/
def cvAlg (s : State) (u : Nat) : CrcAlg :=
  match s.get (R.cvCfgAlg u) with
  | 0 => crc8
  | 1 => crc16
  | 2 => crc32
  | 3 => crc32c
  | 4 => crc64
  | _ =>
    { width := s.get (R.cvCfgWidth u), poly := s.get (R.cvPolyPoly u), init := s.rd64 (R.cvInitLo u),
      refIn := s.flag (R.cvCfgRefin u), refOut := s.flag (R.cvCfgRefout u), xorOut := s.rd64 (R.cvXoroutLo u) }

/-- The result registers follow the running value (R321). -/
def cvShow (s : State) (u : Nat) : State :=
  s.wr64 (R.cvResultLo u) (crcResult (cvAlg s u) (s.rd64 (R.cvStateLo u)))

/-- The running value takes v; with a width of 0, which no rule gives a value to, it takes a free one (log entry 33). -/
def cvTake (s : State) (u v : Nat) : State :=
  if (cvAlg s u).width = 0 then
    cvShow ((s.wr64 (R.cvStateLo u)
      ((Config.freeWord s.freeCtr).toNat + 4294967296 * (Config.freeWord (s.freeCtr + 1)).toNat)).fresh.fresh) u
  else cvShow (s.wr64 (R.cvStateLo u) v) u

/-- START: the running value takes INIT (R320). -/
def cvStart (s : State) (u : Nat) : State :=
  let a := cvAlg s u
  (cvTake s u (a.init % 2 ^ a.width)).wr (R.cvCount u) 0

/-- Bytes fed in write order (R320). -/
def cvFeed (s : State) (u : Nat) (l : List Byte) : State :=
  let a := cvAlg s u
  (cvTake s u (l.foldl (crcByte a) (s.rd64 (R.cvStateLo u)))).count (R.cvCount u) l.length

/-- A write of CV_STATE: a half of a 64-bit value is staged and committed, a shorter value is replaced by its low word
(R321). -/
def cvStateWrite (s : State) (u : Nat) (hi : Bool) (v : Word) : State :=
  if (cvAlg s u).width ≤ 32 then
    if hi then s else cvShow (s.wr64 (R.cvStateLo u) v.toNat) u
  else if hi then
    cvShow ((s.wr (R.cvStateLo u) (Tbl.get s.cv.staged 0 u)).wr (R.cvStateHi u) v) u
  else { s with cv := { s.cv with staged := Tbl.set s.cv.staged 0 u v } }

/-- The classes of an alive value (R323). -/
inductive AliveClass where
  | ok | repeated | skipped (n : Nat) | stale | resynced
deriving DecidableEq, Repr

/-- Classify value v in a context of a checker with width n, MAXSKIP and RESYNC: the class, and the context after
(R323, R324). -/
def aliveClassify (n maxSkip resync : Nat) (c : AliveCtx) (v : Nat) : AliveClass × AliveCtx :=
  let m := 2 ^ n
  let v := v % m
  let e := (c.last + 1) % m
  let d := (v + m - e) % m
  if !c.valid then (.ok, { c with valid := true, last := v, run := 0 })
  else if d = 0 then (.ok, { c with last := v, run := 0 })
  else if d = m - 1 then (.repeated, { c with run := 0 })
  else if d ≤ maxSkip then (.skipped d, { c with last := v, run := 0 })
  else
    let run := if 0 < c.run ∧ c.prev < v then c.run + 1 else 1
    if 0 < resync ∧ resync ≤ run then (.resynced, { c with last := v, run := 0 })
    else (.stale, { c with run := min run 15, prev := v })

namespace State
def aliveCtx (s : State) (u k : Nat) : AliveCtx := Tbl.get s.cv.ctx {} (64 * u + k)
def setAliveCtx (s : State) (u k : Nat) (c : AliveCtx) : State :=
  { s with cv := { s.cv with ctx := Tbl.set s.cv.ctx {} (64 * u + k) c } }
end State

/-- CV_ACRES after a classification; an n of more than eight bits has no value stated (log entry 33). -/
def aliveResult (s : State) (cls : AliveClass) (k : Nat) : Word × State :=
  match cls with
  | .ok => (BitVec.ofNat 32 (k * 65536), s)
  | .repeated => (BitVec.ofNat 32 (1 + k * 65536), s)
  | .skipped n =>
    if n < 256 then (BitVec.ofNat 32 (2 + n * 256 + k * 65536), s)
    else (BitVec.ofNat 32 (2 + (Config.freeWord s.freeCtr).toNat % 256 * 256 + k * 65536), s.fresh)
  | .stale => (BitVec.ofNat 32 (3 + k * 65536), s)
  | .resynced => (BitVec.ofNat 32 (8 + k * 65536), s)

/-- The counter of a class (offsets 0x50 to 0x5C); a resynchronised value is OK. -/
def aliveCounter (u : Nat) : AliveClass → Nat
  | .ok => R.cvOk u
  | .repeated => R.cvRepeated u
  | .skipped _ => R.cvSkipped u
  | .stale => R.cvStale u
  | .resynced => R.cvOk u

/-- A write of value v for context k to CV_ACCHK: its class, and the state after (R323, R324). -/
def aliveCheck (s : State) (u k v : Nat) : AliveClass × State :=
  let c := s.aliveCtx u k
  let r := aliveClassify (s.get (R.cvAccfgN u)) (s.get (R.cvAccfgMaxskip u)) (s.get (R.cvAccfgResync u)) c v
  let res := aliveResult s r.1 k
  let s := (res.2.wr (R.cvAcres u) res.1).count (aliveCounter u r.1)
  let data := [BitVec.ofNat 8 u, BitVec.ofNat 8 k] ++ leBytes 2 v
  let log := r.1 == .stale && c.evt && s.secondPassed c.logAt
  let s := s.setAliveCtx u k (if log then { r.2 with logAt := some s.now } else r.2)
  let s := if log then s.log 0x1202 data else s
  (r.1, if r.1 = .resynced then s.log 0x1201 data else s)

/-- A write to CV_ACSET (R324). -/
def aliveSet (s : State) (u : Nat) (v : Word) : State :=
  let k := bits v 16 6
  s.setAliveCtx u k { s.aliveCtx u k with valid := bit v 31, last := bits v 0 16, evt := bit v 30, run := 0, prev := 0 }

/-- A peer's context of CV7, assigned where it holds none: `none` where all are held by peers with work outstanding
(R322). `work` says which peers have work outstanding. -/
def peerContext (s : State) (peer : Nat) (work : Nat → Bool) : Option Nat × State :=
  let keep := fun (l : List AlivePeer) => { s with cv := { s.cv with peers := l } }
  match s.cv.peers.find? fun p => p.peer == peer with
  | some p => (some p.ctx, keep (⟨peer, p.ctx, s.now⟩ :: s.cv.peers.filter fun q => q.peer != peer))
  | none =>
    if s.cv.peers.length < 64 then
      match (List.range 64).find? fun k => !s.cv.peers.any fun p => p.ctx == k with
      | some k => (some k, keep (⟨peer, k, s.now⟩ :: s.cv.peers))
      | none => (none, s)
    else
      -- newest use first, so the last idle one is the longest idle
      match (s.cv.peers.filter fun p => !work p.peer).getLast? with
      | some old =>
        let t := keep (⟨peer, old.ctx, s.now⟩ :: s.cv.peers.filter fun q => q.peer != old.peer)
        (some old.ctx, aliveSet t 7 (BitVec.ofNat 32 (old.ctx * 65536)))
      | none =>
        if s.secondPassed s.cv.noCtxAt then
          (none, { s with cv := { s.cv with noCtxAt := some s.now } }.log 0x1308
            (if peer < 33554432 then [1] ++ leBytes 2 peer else [2] ++ leBytes 1 peer))
        else (none, s)

/-- CV_START (R320). -/
def execCvStart (u : Nat) (s : State) : Res :=
  if 7 < u then .next s else gatedWrite s 12 { addr := R.cvStart u, value := 1 } (cvStart s u)

/-- CV_DATA: `size` bytes of a write, least significant first (R320). -/
def execCvData (u size : Nat) (value : Word) (s : State) : Res :=
  if u < 8 ∧ (size = 1 ∨ size = 2 ∨ size = 4) then
    gatedWrite s 12 { addr := R.cvData u, value := value, size := size } (cvFeed s u (leBytes size value.toNat))
  else .next s

/-- CV_STATE_WRITE (R321). -/
def execCvStateWrite (u : Nat) (hi : Bool) (value : Word) (s : State) : Res :=
  if 7 < u then .next s
  else gatedWrite s 12 { addr := if hi then R.cvStateHi u else R.cvStateLo u, value := value } (cvStateWrite s u hi value)

/-- ALIVE_CHECK: a word written to CV_ACCHK (R323). -/
def execAliveCheck (u : Nat) (value : Word) (s : State) : Res :=
  if 7 < u then .next s
  else gatedWrite s 12 { addr := R.cvAcchk u, value := value } (aliveCheck s u (bits value 16 6) (bits value 0 16)).2

/-- ALIVE_SET: a word written to CV_ACSET (R324). -/
def execAliveSet (u : Nat) (value : Word) (s : State) : Res :=
  if 7 < u then .next s else gatedWrite s 12 { addr := R.cvAcset u, value := value } (aliveSet s u value)

end Sys2Proof.Machine
end

