-- ==== Sys2Proof/Machine/Can.lean ====
section
/-!
DEFINITION. The CAN channels: bit timing, receive queues, transmit buffers, fault confinement and address claim
(13_can_integrity.md R300 to R318).
-/
namespace Sys2Proof.Machine

namespace State
def canCh (s : State) (c : Nat) : CanCh := Tbl.get s.can {} c
def setCan (s : State) (c : Nat) (x : CanCh) : State := { s with can := Tbl.set s.can {} c x }
/-- A number of object 0x3100 + c. -/
def canN (s : State) (c sub : Nat) : Nat := s.objN (0x3100 + c) sub
end State

/-! Bit timing (R301, R302) -/

/-- A phase of the bit timing: prescaler, TSEG1, TSEG2. -/
structure CanPhase where
  p : Nat
  t1 : Nat
  t2 : Nat
deriving DecidableEq, Repr

/-- Kernel clocks of 12.5 ns per bit. -/
def CanPhase.ticks (x : CanPhase) : Nat := x.p * (1 + x.t1 + x.t2)

/-- The segments for prescaler p, where the fields can express them. -/
def phaseWith (rate sp nMin t1Min t1Max t2Max p : Nat) : Option CanPhase :=
  let n := 80000000 / (p * rate)
  let t1 := (2 * sp * n + 1000) / 2000 - 1
  let t2 := n - 1 - t1
  if rate ≠ 0 ∧ 80000000 % (p * rate) = 0 ∧ nMin ≤ n ∧ t1Min ≤ t1 ∧ t1 ≤ t1Max ∧ 1 ≤ t2 ∧ t2 ≤ t2Max then
    some ⟨p, t1, t2⟩
  else none

/-- The nominal phase for a rate and a sample point in 0.1 %: the smallest prescaler that fits. -/
def nominalPhase (rate sp : Nat) : Option CanPhase :=
  (List.range 512).findSome? fun k => phaseWith rate sp 8 2 256 128 (k + 1)

/-- A data phase. -/
def dataPhase (rate sp : Nat) : Option CanPhase :=
  (List.range 32).findSome? fun k => phaseWith rate sp 4 1 32 16 (k + 1)

/-- CN_NBT of a phase. -/
def nbtWord (x : CanPhase) : Word :=
  BitVec.ofNat 32 (x.p - 1 + (x.t1 - 1) * 512 + (x.t2 - 1) * 131072 + (min x.t2 128 - 1) * 16777216)

/-- CN_DBT or CN_XBT of a phase. -/
def dbtWord (x : CanPhase) : Word :=
  BitVec.ofNat 32 (x.p - 1 + (x.t1 - 1) * 256 + (x.t2 - 1) * 65536 + (min x.t2 16 - 1) * 16777216)

/-- The phase a CN_NBT word holds. -/
def nbtPhase (w : Word) : CanPhase := ⟨bits w 0 9 + 1, bits w 9 8 + 1, bits w 17 7 + 1⟩

/-- The phase a CN_DBT or CN_XBT word holds. -/
def dbtPhase (w : Word) : CanPhase := ⟨bits w 0 5 + 1, bits w 8 5 + 1, bits w 16 4 + 1⟩

/-- The gating group of channel c (Table 17-7). -/
def canGroup (c : Nat) : Nat := if c < 2 then 10 else 11

/-- Whether the channel is XL capable (R300). -/
def xlCapable (c : Nat) : Bool := decide (4 ≤ c)

/-- CN_NBT, CN_DBT, CN_XBT and CN_TDC as the firmware derives them from the objects; none where a phase does not exist
(R302). -/
def canTiming (s : State) (c : Nat) : Option (List Word) :=
  let rd := s.canN c 0x06
  let rx := s.canN c 0x08
  let xl := xlCapable c && s.get (R.cnCtrlFmt c) == 3
  match nominalPhase (s.canN c 0x04) (s.canN c 0x05), dataPhase rd (s.canN c 0x07), dataPhase rx (s.canN c 0x07) with
  | some n, some d, x =>
    if xlCapable c && x.isNone then none
    else
      let x := x.getD ⟨1, 1, 1⟩
      let fast := if xl && decide (rd < rx) then x else d
      let en := decide (1000000 < rd) || (xl && decide (1000000 < rx))
      let ofs := if s.canN c 0x24 ≠ 0 then s.canN c 0x24 else min 127 (fast.p * (1 + fast.t1))
      some [nbtWord n, dbtWord d, if xlCapable c then dbtWord x else 0,
        BitVec.ofNat 32 ((if en then 256 else 0) + (if en then ofs else 0))]
  | _, _, _ => none

/-! Worst-case attempt time (R312, R313) -/

/-- WAT in µs of the enabled formats, from the bit times in kernel clocks. -/
def watOf (fmt dlmax dn dd dx : Nat) : Nat :=
  let brs := 10 * (88 * dn + (37 + 10 * min 64 dlmax) * dd)
  let t :=
    match fmt with
    | 0 => 10 * ((111 + 10 * min 8 dlmax) * dn)
    | 1 => 10 * ((125 + 10 * min 64 dlmax) * dn)
    | 2 => brs
    | _ => max brs (720 * dn + (1340 + 88 * min 2048 dlmax) * dx)
  ceilDiv t 800

/-- WAT from the timing registers; one that is not set counts as its rate object. -/
def watNow (s : State) (c : Nat) : Nat :=
  let dn := if s.rd (R.cnNbt c) = 0 then 80000000 / s.canN c 0x04 else (nbtPhase (s.rd (R.cnNbt c))).ticks
  let dd := if s.rd (R.cnDbt c) = 0 then 80000000 / s.canN c 0x06 else (dbtPhase (s.rd (R.cnDbt c))).ticks
  let dx := if s.rd (R.cnXbt c) = 0 then 80000000 / s.canN c 0x08 else (dbtPhase (s.rd (R.cnXbt c))).ticks
  watOf (s.get (R.cnCtrlFmt c)) (s.get (R.cnTxcfgDlmax c)) dn dd dx

/-- CN_WAT follows the settings. -/
def watShow (s : State) (c : Nat) : State := s.set (R.cnWatWat c) (watNow s c)

/-- The pair of R313 holds. -/
def canBudget (s : State) (c : Nat) : Bool :=
  decide (s.get (R.cnTxcfgDretry c) * watNow s c < 1000 * s.canN c 0x0E)

/-- The timing registers take the derived values (R302). -/
def timingLoad (s : State) (c : Nat) (l : List Word) : State :=
  watShow ((((s.wr (R.cnNbt c) (l.getD 0 0)).wr (R.cnDbt c) (l.getD 1 0)).wr (R.cnXbt c) (l.getD 2 0)).wr (R.cnTdc c)
    (l.getD 3 0)) c

/-- The timing registers follow the rate objects (R302). -/
def timingDerive (s : State) (c : Nat) : State :=
  match canTiming s c with
  | some l => timingLoad s c l
  | none => s

/-- ERR for the enable, 0 where it is accepted (R301). -/
def canEnableErr (s : State) (c : Nat) : Nat :=
  let fmt := s.get (R.cnCtrlFmt c)
  let n := (nbtPhase (s.rd (R.cnNbt c))).ticks
  let d := (dbtPhase (s.rd (R.cnDbt c))).ticks
  let x := (dbtPhase (s.rd (R.cnXbt c))).ticks
  let tdc := s.flag (R.cnTdcTdcen c)
  if fmt = 3 ∧ xlCapable c = false then 2
  else if s.get (R.cnNbtNtseg1 c) = 0 ∨ (2 ≤ fmt ∧ s.rd (R.cnDbt c) = 0) ∨ (fmt = 3 ∧ s.rd (R.cnXbt c) = 0) then 1
  else if (2 ≤ fmt ∧ n < d) ∨ (fmt = 3 ∧ n < x) then 1
  else if tdc = false ∧ ((2 ≤ fmt ∧ d < 80) ∨ (fmt = 3 ∧ x < 80)) then 1
  else if fmt = 3 ∧ x < 8 ∧ s.flag (R.cnCtrlEsd c) = true then 2
  else 0

/-! Transmission (R310, R311, R314, R318) -/

/-- The identifier a frame has on the bus: base, IDE and extension in the order of arbitration (R310, R318). -/
def txKey (s : State) (c : Nat) (f : CanFrame) : Nat :=
  let id := if f.flags / 32 % 2 = 1 then f.id / 256 * 256 + s.get (R.cnSaSa c) else f.id
  if f.flags / 8 % 2 = 1 then id % 2048 * 524288
  else if id / 536870912 % 2 = 1 then id / 262144 % 2048 * 524288 + 262144 + id % 262144
  else id % 2048 * 524288

/-- The identifier a frame is sent with (R318). -/
def txId (s : State) (c : Nat) (f : CanFrame) : Nat :=
  if f.flags / 32 % 2 = 1 then f.id / 256 * 256 + s.get (R.cnSaSa c) else f.id

def txState (s : State) (c b : Nat) : Nat := s.get (R.cnTxctrlState c b)
def txIs (s : State) (c v : Nat) : List Nat := (List.range 32).filter fun b => txState s c b == v

/-- Whether the channel may send: on the bus, outside bus-off, in a mode that sends (R303, R316). -/
def mayOffer (s : State) (c : Nat) : Bool :=
  s.flag (R.cnCtrlEn c) && s.get (R.cnStatState c) != 2 && s.get (R.cnCtrlMode c) != 1 && s.get (R.cnCtrlMode c) != 2
    && !(s.canCh c).busy && (txIs s c 2).isEmpty

/-- The pending buffer with the lowest identifier; equal ones in the order of their numbers. -/
def bestTx (s : State) (c : Nat) : Option Nat :=
  (txIs s c 1).foldl (fun (best : Option Nat) b =>
    match best with
    | none => some b
    | some x =>
      if txKey s c (Tbl.get (s.canCh c).tx {} b).frame < txKey s c (Tbl.get (s.canCh c).tx {} x).frame then some b
      else best) none

/-- The controller offers the next frame: its buffer becomes ACTIVE (R310, log entry 34). -/
def canOffer (s : State) (c : Nat) : State :=
  if mayOffer s c then
    match bestTx s c with
    | some b => s.set (R.cnTxctrlState c b) 2
    | none => s
  else s

/-- Clear or set a bit of CN_TXPEND. -/
def txPend (s : State) (c b : Nat) (on : Bool) : State := s.put ⟨R.cnTxpend c, b, 1⟩ on

/-- A buffer ends in a state of CN_TXCTRL (R311). -/
def txEnd (s : State) (c b st : Nat) : State :=
  let x := s.canCh c
  let s := s.setCan c { x with tx := Tbl.set x.tx {} b { Tbl.get x.tx {} b with abort := false } }
  let s := txPend (s.set (R.cnTxctrlState c b) st) c b false
  let s := s.set ⟨R.cnTxdone c, b, 1⟩ 1
  let s := if st = 4 then s.set ⟨R.cnTxfail c, b, 1⟩ 1 else s
  s.fire (82 + c)

/-- Whether the frame's format is enabled and its length fits (R311). -/
def txFits (s : State) (c : Nat) (f : CanFrame) : Bool :=
  let n := f.data.length
  let fmt := s.get (R.cnCtrlFmt c)
  let ok :=
    if f.flags / 8 % 2 = 1 then fmt == 3 && decide (1 ≤ n) && decide (n ≤ 2048)
    else if f.flags % 2 = 0 then fmt == 0 && decide (n ≤ 8)
    else if f.flags / 2 % 2 = 0 then fmt == 1 && decide (n ≤ 64)
    else decide (2 ≤ fmt) && decide (n ≤ 64)
  ok && decide (n ≤ s.get (R.cnTxcfgDlmax c))

/-- A frame put into a free buffer: pending, or ended at once (R310, R311, R318). -/
def txSubmit (s : State) (c b : Nat) (f : CanFrame) : State :=
  let x := s.canCh c
  let s := (s.setCan c { x with tx := Tbl.set x.tx {} b { frame := f } }).wr (R.cnTxatt c b) 0
  if !txFits s c f then txEnd s c b 6
  else if f.flags / 32 % 2 = 1 ∧ s.flag (R.cnSaValid c) = false then txEnd s c b 7
  else canOffer (txPend (s.set (R.cnTxctrlState c b) 1) c b true) c

/-- Whether a buffer is PENDING or ACTIVE. -/
def txHeld (s : State) (c b : Nat) : Bool := txState s c b == 1 || txState s c b == 2

/-- The claim and dictionary frames waiting for buffers 30 and 31 move up (R310). -/
def canPump (s : State) (c : Nat) : State :=
  let s :=
    match (s.canCh c).claimOut with
    | [] => s
    | f :: l => if txHeld s c 30 then s else txSubmit (s.setCan c { s.canCh c with claimOut := l }) c 30 f
  match (s.canCh c).dictOut with
  | [] => s
  | f :: l => if txHeld s c 31 then s else txSubmit (s.setCan c { s.canCh c with dictOut := l, dictTag := f.1 }) c 31 f.2

/-- The frame in memory at address a (Table 13-2). -/
def frameAt (s : State) (a : Nat) : CanFrame × State :=
  let r := busRead s 4 a 24
  let len := natAt r.1 6 2
  let d := busRead r.2 4 (a + 24) len
  ({ id := natAt r.1 0 4, flags := natAt r.1 4 1, data := bytesAt d.1 0 len, af := natAt r.1 16 4, sdt := natAt r.1 20 1,
     vcid := natAt r.1 21 1 }, d.2)

/-- REQ of buffer b; refused while it is PENDING or ACTIVE (R310). -/
def txRequest (s : State) (c b : Nat) : State :=
  if txHeld s c b then s
  else
    let r := frameAt s (s.rd64 (R.cnTxaddrLo c b))
    txSubmit r.2 c b r.1

/-- ABORT of buffer b (R314). -/
def txAbort (s : State) (c b : Nat) : State :=
  match txState s c b with
  | 1 => canPump (canOffer (txEnd s c b 5) c) c
  | 2 =>
    let x := s.canCh c
    s.setCan c { x with tx := Tbl.set x.tx {} b { Tbl.get x.tx {} b with abort := true } }
  | _ => s

/-- The frames of an own transaction are withdrawn: those that wait go, and buffer 31 is aborted where it holds one (R27,
R314). -/
def dictWithdraw (s : State) (c tag : Nat) : State :=
  let x := s.canCh c
  let t := s.setCan c { x with dictOut := x.dictOut.filter fun f => f.1 != some tag }
  if x.dictTag = some tag ∧ txHeld s c 31 = true then txAbort t c 31 else t

/-! Receive queues (R304 to R309) -/

/-- Whether a filter element matches a frame (R304, R305). -/
def filterMatches (s : State) (c f : Nat) (x : CanFrame) : Bool :=
  let id1 := s.get (R.cnFid1Id1 c f)
  let id2 := s.get (R.cnFid2Id2 c f)
  let en := s.flag (R.cnFcfgEn c f)
  if x.flags / 8 % 2 = 1 then
    let pm := id1 / 65536 % 2048
    let am := s.rd (R.cnFafm c f)
    en && s.flag (R.cnFcfgXl c f)
      && (BitVec.ofNat 32 (x.id % 2048) &&& BitVec.ofNat 32 pm)
          == (BitVec.ofNat 32 (id1 % 2048) &&& BitVec.ofNat 32 pm)
      && (BitVec.ofNat 32 x.af &&& am) == (BitVec.ofNat 32 id2 &&& am)
  else
    let ide := x.id / 536870912 % 2
    let id := if ide = 1 then x.id % 536870912 else x.id % 2048
    let a := id1
    let b := id2 % 536870912
    en && !s.flag (R.cnFcfgXl c f) && s.get (R.cnFcfgIde c f) == ide
      && (match s.get (R.cnFcfgType c f) with
          | 0 => (BitVec.ofNat 32 id &&& BitVec.ofNat 32 b) == (BitVec.ofNat 32 a &&& BitVec.ofNat 32 b)
          | 1 => decide (a ≤ id) && decide (id ≤ b)
          | _ => id == a || id == b)

/-- The first element that matches; none takes the default action. -/
def firstFilter (s : State) (c : Nat) (x : CanFrame) : Option Nat :=
  (List.range 128).find? fun f => filterMatches s c f x

def queueDepth (q : Nat) : Nat := if q = 0 then 16 else 64
def queueOwn (c q i : Nat) : Fld := ⟨R.cnQownLo c q + 4 * (i / 32), i % 32, 1⟩

/-- QUEUE_DROP: the arriving frame is dropped and counted (R306). -/
def queueDrop (s : State) (c q : Nat) : State :=
  let x := s.canCh c
  let l := s.now :: (x.drops.getD q []).filter fun t => decide (s.now < t + 1000000000)
  let s := ((s.setCan c { x with drops := x.drops.set q l }).count (R.cnQdrops c q)).fire (100 + c)
  if s.secondPassed (x.dropLog.getD q none) then
    (s.setCan c { s.canCh c with dropLog := x.dropLog.set q (some s.now) }).log 0x1105
      ([BitVec.ofNat 8 c, BitVec.ofNat 8 q] ++ leBytes 2 l.length)
  else s

/-- The bytes of an entry (Table 13-2). -/
def entryBytes (x : CanFrame) (filter : Nat) (ts : Time) : List Byte :=
  leBytes 4 x.id ++ [BitVec.ofNat 8 x.flags, BitVec.ofNat 8 filter] ++ leBytes 2 x.data.length ++ leBytes 8 ts
    ++ leBytes 4 x.af ++ [BitVec.ofNat 8 x.sdt, BitVec.ofNat 8 x.vcid, 0, 0] ++ x.data

/-- A frame for queue q: written at PUT, or dropped (R306, R308). -/
def queueFrame (s : State) (c q filter : Nat) (ts : Time) (x : CanFrame) : State :=
  let put := s.get (R.cnQputPut c q)
  let big := s.flag (R.cnQcfgEsize c q)
  if s.flag (queueOwn c q put) || decide ((if big then 2048 else 64) < x.data.length) then queueDrop s c q
  else
    let a := s.rd64 (R.cnQbaseLo c q) + (if big then 2072 else 88) * put
    let s := (busStore s 4 a (entryBytes x filter ts)).2
    let s := (s.set (queueOwn c q put) 1).set (R.cnQputPut c q) ((put + 1) % queueDepth q)
    (s.set (R.cnQputOcc c q) (s.get (R.cnQputOcc c q) + 1)).fire (64 + 6 * q + c)

/-- A frame received or looped back passes the filters (R304). -/
def canDeliver (s : State) (c : Nat) (ts : Time) (x : CanFrame) : State :=
  let f := firstFilter s c x
  let action :=
    match f with
    | some k => s.get (R.cnFcfgAction c k)
    | none => s.get (R.cnRxdefAction c)
  match action with
  | 1 => queueFrame s c 1 (f.getD 255) ts x
  | 2 => queueFrame s c 2 (f.getD 255) ts x
  | 3 => queueFrame s c 0 (f.getD 255) ts x
  | _ => s

/-- An index written to CN_QACK (R307). -/
def queueAck (s : State) (c q i : Nat) : State :=
  if i < queueDepth q ∧ s.flag (queueOwn c q i) = true then
    (s.set (queueOwn c q i) 0).set (R.cnQputOcc c q) (s.get (R.cnQputOcc c q) - 1)
  else s

/-! Fault confinement (R315, R316) -/

/-- The error counters as ISO 11898-1 leaves them after a frame; the warnings and the error-passive border (R315). -/
def errorCounts (s : State) (c tec rcnt : Nat) : State :=
  let t0 := s.get (R.cnEcntTec c)
  let r0 := s.get (R.cnEcntRec c) + (if s.flag (R.cnEcntRp c) then 1 else 0)
  let p0 := s.get (R.cnStatState c) == 1
  let p1 := decide (128 ≤ tec) || decide (128 ≤ rcnt)
  let tw := s.get (R.cnEwarnTxwarn c)
  let rw := s.get (R.cnEwarnRxwarn c)
  let s := ((s.set (R.cnEcntTec c) (min tec 255)).set (R.cnEcntRec c) (min rcnt 127)).put (R.cnEcntRp c)
    (decide (128 ≤ rcnt))
  let s := (s.put (R.cnStatTxw c) (decide (tw ≤ tec))).put (R.cnStatRxw c) (decide (rw ≤ rcnt))
  let s := s.set (R.cnStatState c) (if p1 then 1 else 0)
  let warn := fun (u : State) =>
    (u.fire (88 + c)).log 0x1104 [BitVec.ofNat 8 c, BitVec.ofNat 8 (min tec 255), BitVec.ofNat 8 (min rcnt 255)]
  let s := if t0 < tw ∧ tw ≤ tec then warn s else s
  let s := if r0 < rw ∧ rw ≤ rcnt then warn s else s
  if p0 = p1 then s else (warn s).log 0x1101 [BitVec.ofNat 8 c, if p1 then 1 else 0]

/-- The recovery sequence starts: 128 occurrences of 11 recessive bits after the delay (R316). -/
def recoverStart (s : State) (c delayMs : Nat) : State :=
  let bit_ := (nbtPhase (s.rd (R.cnNbt c))).ticks
  s.setCan c { s.canCh c with recover := some (s.now + ms delayMs + 1408 * bit_ * 25 / 2) }

/-- BUS_OFF (R316). -/
def busOff (s : State) (c : Nat) : State :=
  let s := (txIs s c 2).foldl (fun u b => txEnd u c b 4) s
  let s := (s.set (R.cnStatState c) 2).countSat (R.cnEcntBocnt c)
  let s := (s.fire (94 + c)).log 0x1102 [BitVec.ofNat 8 c, BitVec.ofNat 8 (s.get (R.cnEcntTec c))]
  if s.flag (R.cnCtrlRecMode c) then s else recoverStart s c (s.get (R.cnCtrlRecdly c))

/-- The counters after an attempt or a received frame, and the bus-off above 255. -/
def canCounts (s : State) (c tec rcnt : Nat) : State :=
  let s := errorCounts s c tec rcnt
  if 255 < tec then busOff s c else s

/-- The counter of an error of the LEC codes. -/
def errorCounter (c : Nat) : Nat → Option Nat
  | 1 => some (R.cnStufferr c)
  | 2 => some (R.cnFormerr c)
  | 3 => some (R.cnAckerr c)
  | 4 => some (R.cnBiterr c)
  | 5 => some (R.cnBiterr c)
  | 6 => some (R.cnCrcerr c)
  | _ => none

/-- An error of LEC code e on the bus. -/
def canError (s : State) (c e : Nat) : State :=
  match errorCounter c e with
  | some a => (s.count a).set (R.cnStatLec c) e
  | none => s

/-- PROTOCOL_EXCEPTION (R303). -/
def protocolException (s : State) (c : Nat) : State :=
  (s.setCan c { s.canCh c with exceptions := (s.canCh c).exceptions + 1 }).log 0x110A [BitVec.ofNat 8 c]

/-- A failed attempt of buffer b: counted against its limit; a buffer that has not ended stays ACTIVE (R311). -/
def attemptFailed (s : State) (c b : Nat) : State :=
  let n := s.get (R.cnTxattAttempts c b) + 1
  let s := s.set (R.cnTxattAttempts c b) (min n 255)
  let limit := if b = 31 then s.get (R.cnTxcfgDretry c) else s.get (R.cnTxcfgRetry c)
  if (Tbl.get (s.canCh c).tx {} b).abort then txEnd s c b 5
  else if limit ≠ 0 ∧ limit ≤ n then
    (txEnd s c b 4).log 0x1106
      ([BitVec.ofNat 8 c, BitVec.ofNat 8 b] ++ leBytes 4 (Tbl.get (s.canCh c).tx {} b).frame.id)
  else s

/-- A successful attempt of buffer b: timestamped and counted, and received by the channel itself where its mode or
SELFRX says so (R303, R309, R311). -/
def attemptDone (s : State) (c b : Nat) (ts : Time) : State :=
  let f := (Tbl.get (s.canCh c).tx {} b).frame
  let id := txId s c f
  let s := ((s.wr64 (R.cnTxtsLo c b) ts).count (R.cnTxfrm c)).emit (.can c id f.data)
  let s := txEnd s c b 3
  let m := s.get (R.cnCtrlMode c)
  if s.flag (R.cnCtrlSelfrx c) || m == 3 || m == 4 then
    canDeliver (s.count (R.cnRxfrm c)) c ts { f with id := id, flags := f.flags % 32 }
  else s

/-- After a dictionary frame fails, the rest of its message is not sent (R344). -/
def dropMessage (s : State) (c : Nat) : State :=
  let x := s.canCh c
  s.setCan c { x with dictOut := x.dictOut.dropWhile fun f => decide (128 ≤ (f.2.data.headD 0).toNat) }

/-- TX_ATTEMPT_END: the attempt of the ACTIVE buffer ends: 0 success, 1 an error of LEC code `lec`, 2 no acknowledge,
3 lost arbitration, 4 a protocol exception; `t` is the device time of its start-of-frame sample point, `tec` and `rcnt`
the error counts as ISO 11898-1 leaves them (R311, R315). -/
def txAttemptEnd (s : State) (c outcome lec : Nat) (t : Time) (tec rcnt : Nat) : State :=
  match txIs s c 2 with
  | [] => s
  | b :: _ =>
    let s :=
      match outcome with
      | 0 => attemptDone s c b t
      | 3 =>
        let s := s.count (R.cnArblost c)
        let s := s.setCan c { s.canCh c with busy := true }
        if (Tbl.get (s.canCh c).tx {} b).abort then txEnd s c b 5 else s.set (R.cnTxctrlState c b) 1
      | 2 => attemptFailed (canError s c 3) c b
      | 4 => attemptFailed (protocolException s c) c b
      | _ => attemptFailed (canError s c lec) c b
    let s := if outcome = 3 then s else canCounts s c tec rcnt
    let s := if txState s c b = 2 then s.set (R.cnTxctrlState c b) 1 else s
    let s := if b = 31 ∧ (txState s c b = 4 ∨ txState s c b = 5) then dropMessage s c else s
    canOffer (canPump s c) c

/-! Address claim (R317, R318) -/

/-- A claim frame: PGN 60928 or 59904 with the address it is sent from (log entry 35). -/
def claimFrame (s : State) (c addr : Nat) : CanFrame :=
  { id := 536870912 + 0x18EEFF00 + addr, flags := if s.get (R.cnCtrlFmt c) = 0 then 0 else if s.get (R.cnCtrlFmt c) = 1 then 1 else 3,
    data := leBytes 8 (s.canN c 0x1B) }

/-- The Keeper sends a claim frame from an address through buffer 30. -/
def sendClaim (s : State) (c addr : Nat) : State :=
  canPump (s.setCan c { s.canCh c with claimOut := (s.canCh c).claimOut ++ [claimFrame s c addr] }) c

/-- ADDRESS_INVALID: VALID falls, and pending SAINS buffers end NOADDR (R318). -/
def addressInvalid (s : State) (c : Nat) : State :=
  let s := s.put (R.cnSaValid c) false
  (txIs s c 1).foldl (fun u b => if (Tbl.get (u.canCh c).tx {} b).frame.flags / 32 % 2 = 1 then txEnd u c b 7 else u) s

/-- CN_SA as the Keeper or a register write leaves it. -/
def saWrite (s : State) (c sa : Nat) (valid : Bool) : State :=
  let s := s.set (R.cnSaSa c) sa
  if valid then s.put (R.cnSaValid c) true
  else if s.flag (R.cnSaValid c) then canOffer (canPump (addressInvalid s c) c) c else s

/-- The Keeper claims an address: Address Claimed, and 250 ms to wait (R317). -/
def claimAddress (s : State) (c addr : Nat) : State :=
  sendClaim (s.setCan c { s.canCh c with claim := 1, addr := addr, claimDue := false, claimEnd := some (s.now + ms 250) })
    c addr

/-- The lowest address of the configured range that no other node has claimed (R317). -/
def freeAddress (s : State) (c : Nat) : Option Nat :=
  let lo := s.canN c 0x1D % 256
  let hi := s.canN c 0x1D / 256
  ((List.range (hi + 1 - lo)).map (lo + ·)).find? fun a => (Tbl.get (s.canCh c).others none a).isNone

/-- No address is left: Cannot Claim from address 254 (R317). -/
def cannotClaim (s : State) (c : Nat) : State :=
  (sendClaim (s.setCan c { s.canCh c with claim := 3, addr := 254, claimDue := false, claimEnd := none }) c 254).log
    0x1108 [BitVec.ofNat 8 c, 254]

/-- A contention is lost (R317). -/
def claimLost (s : State) (c : Nat) : State :=
  let s := if (s.canCh c).claim = 2 then
      (saWrite s c (s.get (R.cnSaSa c)) false).log 0x1109 [BitVec.ofNat 8 c, BitVec.ofNat 8 (s.canCh c).addr]
    else s
  if s.canN c 0x1B / 9223372036854775808 % 2 = 1 then
    match freeAddress s c with
    | some a => claimAddress s c a
    | none => cannotClaim s c
  else cannotClaim s c

/-- Address claim ends on a channel that is off or has it disabled. -/
def claimOff (s : State) (c : Nat) : State :=
  let s := s.setCan c { s.canCh c with claim := 0, addr := 254, claimDue := false, claimEnd := none, claimOut := [] }
  saWrite s c (s.get (R.cnSaSa c)) false

/-! Commands -/

/-- EN = 1: the channel goes on the bus, or is refused with ERR (R301). -/
def canEnable (s : State) (c : Nat) : State :=
  if s.flag (R.cnCtrlEn c) then s
  else
    let e := canEnableErr s c
    if e ≠ 0 then s.set (R.cnCtrlErr c) e
    else
      let s := (s.set (R.cnCtrlErr c) 0).set (R.cnCtrlEn c) 1
      let s := ((s.set (R.cnStatState c) 0).set (R.cnStatSync c) 1)
      let s := watShow s c
      let s := if s.canN c 0x1A = 1 then s.setCan c { s.canCh c with claimDue := true } else s
      canOffer (canPump s c) c

/-- EN = 0: the channel leaves the bus; an attempt under way is offered again at the next enable (log entry 34). -/
def canDisable (s : State) (c : Nat) : State :=
  if s.flag (R.cnCtrlEn c) then
    let s := (s.set (R.cnCtrlEn c) 0).set (R.cnCtrlErr c) 0
    let s := (s.set (R.cnStatState c) 3).set (R.cnStatSync c) 0
    let s := (txIs s c 2).foldl (fun u b => u.set (R.cnTxctrlState c b) 1) s
    claimOff (s.setCan c { s.canCh c with busy := false, recover := none }) c
  else s

/-- CAN_ENABLE (R301). -/
def execCanEnable (c : Nat) (s : State) : Res :=
  if 5 < c then .next s else gatedField s (canGroup c) (R.cnCtrlEn c) 1 (canEnable s c)

/-- QUEUE_ACK (R307). -/
def execQueueAck (c q index : Nat) (s : State) : Res :=
  if 5 < c ∨ 2 < q then .next s
  else gatedWrite s (canGroup c) { addr := R.cnQack c q, value := BitVec.ofNat 32 index } (queueAck s c q index)

/-- TX_REQUEST (R310). -/
def execTxRequest (c b : Nat) (s : State) : Res :=
  if 5 < c ∨ 31 < b then .next s
  else gatedWrite s (canGroup c) { addr := R.cnTxctrl c b, value := 1 } (txRequest s c b)

/-- TX_ATTEMPT_END (R311). -/
def execTxAttemptEnd (c outcome lec : Nat) (t : Time) (tec rcnt : Nat) (s : State) : Res := gated s (canGroup c) <|
  .next (if c < 6 then txAttemptEnd s c outcome lec t tec rcnt else s)

/-- TX_ABORT (R314). -/
def execTxAbort (c b : Nat) (s : State) : Res :=
  if 5 < c ∨ 31 < b then .next s
  else gatedWrite s (canGroup c) { addr := R.cnTxctrl c b, value := 2 } (txAbort s c b)

/-- RECOVER: starts the recovery sequence in a bus-off with manual recovery (R316). -/
def busOffRecover (s : State) (c : Nat) : State :=
  if s.get (R.cnStatState c) = 2 ∧ (s.canCh c).recover = none then recoverStart s c 0 else s

/-- BUS_OFF_RECOVER (R316). -/
def execBusOffRecover (c : Nat) (s : State) : Res :=
  if 5 < c then .next s else gatedField s (canGroup c) ⟨R.cnCtrl c, 10, 1⟩ 1 (busOffRecover s c)

/-- The controller rejoins error active (R316). -/
def recoveryEnd (s : State) (c : Nat) : State :=
  match (s.canCh c).recover with
  | none => s
  | some t =>
    if s.get (R.cnStatState c) ≠ 2 then s
    else
      let s := s.passTo t
      let s := s.setCan c { s.canCh c with recover := none, busy := false, claimDue := s.canN c 0x1A == 1 }
      let s := ((s.set (R.cnEcntTec c) 0).set (R.cnEcntRec c) 0).put (R.cnEcntRp c) false
      let s := ((s.set (R.cnStatState c) 0).put (R.cnStatTxw c) false).put (R.cnStatRxw c) false
      canOffer (canPump (s.log 0x1103 [BitVec.ofNat 8 c, 0]) c) c

/-- BUS_OFF_RECOVERY_END (R316). -/
def execBusOffRecoveryEnd (c : Nat) (s : State) : Res := gated s (canGroup c) <| .next (if c < 6 then recoveryEnd s c else s)

/-- The claim starts with the preferred address, once it is due (R317). -/
def claimStart (s : State) (c : Nat) : State :=
  if (s.canCh c).claimDue ∧ s.flag (R.cnCtrlEn c) = true then claimAddress s c (s.canN c 0x1C) else s

/-- ADDRESS_CLAIM_START (R317). -/
def execAddressClaimStart (c : Nat) (s : State) : Res := gated s (canGroup c) <| .next (if c < 6 then claimStart s c else s)

/-- CLAIM_TIMEOUT: 250 ms without a contending claim of higher priority (R317, R318). -/
def execClaimTimeout (c : Nat) (s : State) : Res := gated s (canGroup c) <|
  .next (
    match (s.canCh c).claimEnd with
    | none => s
    | some t =>
      let s := s.passTo t
      let a := (s.canCh c).addr
      let s := s.setCan c { s.canCh c with claim := 2, claimEnd := none }
      (saWrite s c a true).log 0x1107 [BitVec.ofNat 8 c, BitVec.ofNat 8 a])

/-- CONTENDING_CLAIM: another node's Address Claimed with its NAME; one of higher priority takes the module's address,
one of lower priority is answered with the module's own claim (R317). -/
def execContendingClaim (c addr name : Nat) (s : State) : Res := gated s (canGroup c) <|
  .next (
    let x := s.canCh c
    if 6 ≤ c ∨ 254 ≤ addr then s
    else
      let own := s.canN c 0x1B
      let mine := (x.claim = 1 ∨ x.claim = 2) ∧ x.addr = addr
      if mine ∧ own ≤ name then sendClaim s c addr
      else
        let s := s.setCan c { x with others := Tbl.set x.others none addr (some name) }
        if mine then claimLost s c else s)

/-- REQUEST_FOR_CLAIM: the Keeper answers with its claim, or with Cannot Claim (R317). -/
def execRequestForClaim (c : Nat) (s : State) : Res := gated s (canGroup c) <|
  .next (if c < 6 ∧ (s.canCh c).claim ≠ 0 then sendClaim s c (s.canCh c).addr else s)

end Sys2Proof.Machine
end

