-- ==== Sys2Proof/Machine/Stage.lean ====
section
/-!
DEFINITION. The stage dies: what they hold, what their status frames report, and the stage thermal model
(02_control_engine.md R56, 03_solenoid_drive.md R61, R84, 18_power.md R420). The control and status registers of the blocks
SD and LS in `regs` are those of the stage dies: a write reaches them in a stage frame, and never while the die is in hold
(log entry 13); what software reads of their state is what the last status frame reported.
-/
namespace Sys2Proof.Machine

/-- Fields of event data: unsigned numbers in 1, 2, 4 and 8 bytes (R444). -/
def d8 (n : Nat) : List Byte := leBytes 1 n
def d16 (n : Nat) : List Byte := leBytes 2 n
def d32 (n : Nat) : List Byte := leBytes 4 n
def d40 (n : Nat) : List Byte := leBytes 5 n
def d64 (n : Nat) : List Byte := leBytes 8 n

namespace State

def dieAt (s : State) (d : Nat) : Die := Tbl.get s.stage.dies {} d
def setDie (s : State) (d : Nat) (x : Die) : State :=
  { s with stage := { s.stage with dies := Tbl.set s.stage.dies {} d x } }
def sdC (s : State) (n : Nat) : SdChan := Tbl.get s.stage.sdCh {} n
def setSdC (s : State) (n : Nat) (x : SdChan) : State :=
  { s with stage := { s.stage with sdCh := Tbl.set s.stage.sdCh {} n x } }
def sdB (s : State) (b : Nat) : SdBank := Tbl.get s.stage.sdBank {} b
def setSdB (s : State) (b : Nat) (x : SdBank) : State :=
  { s with stage := { s.stage with sdBank := Tbl.set s.stage.sdBank {} b x } }
def lsC (s : State) (n : Nat) : LsChan := Tbl.get s.stage.lsCh (LsChan.initial n) n
def setLsC (s : State) (n : Nat) (x : LsChan) : State :=
  { s with stage := { s.stage with lsCh := Tbl.set s.stage.lsCh (LsChan.initial n) n x } }
def lsG (s : State) (g : Nat) : LsGroup := Tbl.get s.stage.lsGrp {} g
def setLsG (s : State) (g : Nat) (x : LsGroup) : State :=
  { s with stage := { s.stage with lsGrp := Tbl.set s.stage.lsGrp {} g x } }
def loopAt (s : State) (n : Nat) : LoopSt := Tbl.get s.ce.loops {} n
def setLoop (s : State) (n : Nat) (x : LoopSt) : State :=
  { s with ce := { s.ce with loops := Tbl.set s.ce.loops {} n x } }

/-- A register write sets out to its stage die (R61). -/
def post (s : State) (p : Post) : State := { s with stage := { s.stage with posted := s.stage.posted ++ [p] } }

/-- A stage die has something to report (R84). -/
def tell (s : State) (d : Nat) (l : List Report) : State :=
  s.setDie d { s.dieAt d with reports := (s.dieAt d).reports ++ l }

/-- The main die records one report. -/
def record (s : State) (r : Report) : State :=
  match r with
  | .bits a l w v => s.set ⟨a, l, w⟩ v
  | .irq n => s.fire n
  | .event c d => s.log c d
  | .tally a => s.count a

/-- The frame number of the stage frame grid, CE_FRAME (R33). -/
def frame (s : State) : Nat := s.rd64 R.ceFrameLo

/-- The frame number that stage die d counts by: the grid of the stage frames, or in hold its own (R85). The ±100 ppm of
its oscillator are left out (log entry 112). -/
def dieFrame (s : State) (d : Nat) : Nat :=
  if (s.dieAt d).hold then (s.dieAt d).grid.1 + (s.now - (s.dieAt d).grid.2) / 10000 else s.frame

/-- A bit of the power status, object 0x1300:05, takes a value. -/
def pwrBit (s : State) (k : Nat) (b : Bool) : State :=
  { s with pwrStatus := (fieldInto32 s.pwrStatus k b) }
where
  fieldInto32 (old k : Nat) (b : Bool) : Nat :=
    (fieldInto old ⟨0, k, 1⟩ (if b then 1 else 0)).toNat

/-- The stop is latched (R128). -/
def stopLatched (s : State) : Bool := s.get R.siStopState == 1

/-- The control engine's SRAM works (Table 16-2). -/
def engineSram (s : State) : Bool := !(s.sram.failed.any fun m => 160 ≤ m && m ≤ 167)

end State

/-- The stage die that holds the register at an address. -/
def dieOfReg (a : Nat) : Option Nat :=
  let o := a % 65536
  match a / 65536 with
  | 0x2003 => if 0x100 ≤ o ∧ o < 0x400 then some ((o - 0x100) / 0x100)
    else if 0x1000 ≤ o ∧ o < 0x2800 then some ((o - 0x1000) / 0x800) else none
  | 0x2004 => if 0x100 ≤ o ∧ o < 0x300 then some (3 + (o - 0x100) / 0x100)
    else if 0x1000 ≤ o ∧ o < 0x2000 then some (3 + (o - 0x1000) / 0x800) else none
  | _ => none

/-- The control registers of a stage die: those that a stage frame carries (R61). -/
def postedReg (a : Nat) : Bool :=
  let o := a % 65536
  (dieOfReg a).isSome && (if o < 0x1000 then o % 0x40 == 0 || o % 0x40 == 0xC
    else decide (o % 0x80 < if a / 65536 = 0x2003 then 0x2C else 0x1C))

/-- The field at bit k of the register at an address is state of its die that the status frame reports (R84). -/
def reportedField (a k : Nat) : Bool :=
  let o := a % 65536
  let r := if o < 0x1000 then o % 0x40 else 0x100 + o % 0x80
  match a / 65536, r with
  | _, 0 => k == 0
  | 0x2003, 4 => decide (k < 16)
  | 0x2003, 0x10 => true
  | 0x2003, 0x130 => k == 0 || k == 4
  | 0x2004, 4 => decide (k < 8)
  | 0x2004, 0x130 => k == 0 || k == 3
  | _, 0x13C => true
  | _, _ => false

/-- The whole word that a posted write gives its register: a field of a dictionary object leaves the others as they
are. -/
def Post.word (p : Post) (s : State) : Word :=
  match p.field with
  | none => p.value
  | some k =>
    match (fieldsAt p.addr).find? fun d => d.lsb == k with
    | some d => State.fieldInto (s.rd p.addr).toNat ⟨0, k, d.width⟩ (fieldOf p.value.toNat d)
    | none => s.rd p.addr

/-- While the target of a running loop takes no output, u_prev is held at 0 (R48): at the instant bank or group `b` takes
outputs again the loops of target type `kind` start from 0. -/
def loopsFromZero (s : State) (kind b : Nat) : State :=
  ((List.range 64).filter fun n =>
    let w := (s.loopAt n).active.getD 3 0
    [1, 2].contains (s.get (R.ceLstatState n)) && bits w 0 2 == kind && bits w 8 6 / 4 == b).foldl
    (fun u n => u.wr (R.ceLu n) 0) s

/-- Clamp leak of p pJ/ns (that is, mW) up to now (R68, R101). -/
def leaked (bucket leakAt now p : Nat) : Nat := bucket - p * (now - leakAt)

/-! The stage thermal model (R420) -/

/-- An SD channel that is the odd half of a pair (R70). -/
def oddHalf (s : State) (n : Nat) : Bool := n % 2 == 1 && s.flag (R.sdCctrlPair (n - 1))

/-- Worst-case hold of an SD channel in steps of 15.625 mA (R78); 0 for a channel that does not count. -/
def worstHold (s : State) (n : Nat) : Nat :=
  if s.get (R.sdCctrlMode n) = 0 ∨ oddHalf s n then 0
  else
    (if s.get (R.sdCctrlMode n) = 2 then s.get (R.sdCrangeHmax n) else s.get (R.sdCcurHold n))
      + (if s.get (R.sdCdithDfreq n) = 0 then 0 else s.get (R.sdCdithAmp n))

/-- Worst-case peak of an SD channel in steps of 15.625 mA (R78). -/
def worstPeak (s : State) (n : Nat) : Nat :=
  if s.get (R.sdCctrlMode n) = 0 ∨ oddHalf s n then 0
  else if s.get (R.sdCctrlMode n) = 2 ∧ s.get (R.sdCctrlPeakEn n) = 0 then worstHold s n
  else 2 * s.get (R.sdCcurPeak n)

/-- The channels of bank b. -/
def bankChans (b : Nat) : List Nat := [4 * b, 4 * b + 1, 4 * b + 2, 4 * b + 3]

/-- A current in steps of 15.625 mA as amperes. -/
def stepsA (n : Nat) : F32 := F32.ofRat n 64

/-- Expected current of switch channel n, from object 0x1300:0B. -/
def expected (s : State) (n : Nat) : F32 := F32.ofBytes ((s.objB 0x1300 0x0B).drop (4 * n))

/-- The armed banks and groups. -/
def armedBanks (s : State) : List Nat := upTo 12 fun b => s.flag (R.sdBctrlArm b)
def armedGroups (s : State) : List Nat := upTo 8 fun g => s.flag (R.lsGctrlArm g)

/-- The worst-case holds of every counted channel of an armed bank. -/
def armedHolds (s : State) : List (Nat × F32) :=
  (armedBanks s).flatMap fun b => ((bankChans b).filter fun n => s.get (R.sdCctrlMode n) ≠ 0 && !oddHalf s n).map
    fun n => (b, stepsA (worstHold s n))

/-- The expected currents of every switch channel with a mode in an armed group. -/
def armedCurrents (s : State) : List (Nat × F32) :=
  (armedGroups s).flatMap fun g => ((bankChans g).filter fun n => s.get (R.lsCctrlMode n) ≠ 0).map
    fun n => (n, expected s n)

/-- Output losses in watts (R420). -/
def lossEstimate (s : State) : F32 :=
  let a := (armedHolds s).foldl (fun p e => F32.add p (F32.mul (F32.mul e.2 e.2) (F32.ofRat 15 100))) 0
  let b := (armedBanks s).foldl (fun p k =>
    let i := F32.sum (((armedHolds s).filter fun e => e.1 == k).map (·.2))
    F32.add p (F32.mul (F32.mul i i) (F32.ofRat 8 1000))) a
  (armedCurrents s).foldl (fun p e =>
    F32.add p (F32.mul (F32.mul e.2 e.2) (if e.1 < 8 then F32.ofRat 45 10000 else F32.ofRat 22 1000))) b

/-- Current estimate of bank input k: VBAT_A to VBAT_D (R420, R59, R91). -/
def inputEstimate (s : State) (k : Nat) : F32 :=
  if k = 0 then F32.sum (((armedHolds s).filter fun e => e.1 < 6).map (·.2))
  else if k = 1 then F32.sum (((armedHolds s).filter fun e => 6 ≤ e.1).map (·.2))
  else if k = 2 then F32.sum (((armedCurrents s).filter fun e => e.1 < 16).map (·.2))
  else F32.sum (((armedCurrents s).filter fun e => 16 ≤ e.1).map (·.2))

/-- THERMAL_MODEL_ESTIMATE (R420). -/
def thermalEstimate (s : State) : State :=
  let p := lossEstimate s
  let is := (List.range 4).map (inputEstimate s)
  let high := (List.range 4).filter fun k => F32.lt (F32.ofNat 60) (is.getD k 0)
  let t := { s with estP := p, estI := is }.pwrBit 6 (F32.lt (F32.ofNat 45) p)
  let t := t.pwrBit 11 (!high.isEmpty)
  let t := if F32.lt (F32.ofNat 45) p then t.log 0x0109 (d16 (F32.roundEven p 10 1).toNat) else t
  high.foldl (fun u k => u.log 0x010B (d8 k ++ d16 (F32.roundEven (is.getD k 0) 10 1).toNat)) t

end Sys2Proof.Machine
end

