-- ==== Sys2Proof/Machine/Solenoid.lean ====
section
/-!
DEFINITION. The solenoid and valve drive: channel modes, pull-in arbitration, the bank clamp, arming, hold and diagnostics
(03_solenoid_drive.md R59 to R90).
-/
namespace Sys2Proof.Machine

namespace State

def sdPhase (s : State) (n : Nat) : Nat := s.get (R.sdCstatPhase n)
def setSdPhase (s : State) (n p : Nat) : State := s.set (R.sdCstatPhase n) p
def sdOn (s : State) (n : Nat) : Bool := s.flag (R.sdCctrlOn n)
def sdMode (s : State) (n : Nat) : Nat := s.get (R.sdCctrlMode n)
def sdArmed (s : State) (b : Nat) : Bool := s.flag (R.sdBctrlArm b)

/-- The queue of a bank's arbiter, with QLEN. -/
def setSdQueue (s : State) (b : Nat) (l : List Nat) : State :=
  (s.setSdB b { s.sdB b with queue := l }).set (R.sdBstatQlen b) l.length

/-- A solenoid die in hold takes no commands from the main die (R53, R84). -/
def sdHeld (s : State) (n : Nat) : Bool := (s.dieAt (n / 16)).hold

end State

/-- The odd half of a pair shows the even channel's status (R70). -/
def sdMirror (s : State) (n : Nat) : State :=
  let e := n / 2 * 2
  if s.flag (R.sdCctrlPair e) then
    [0x30, 0x34, 0x38, 0x3C, 0x40, 0x44, 0x48, 0x4C].foldl
      (fun t o => t.wr (R.sdCctrl (e + 1) + o) (t.rd (R.sdCctrl e + o))) s
  else s

/-! The current shape (R63 to R66, R71) -/

/-- The hold reference of channel n in steps of 15.625 mA: HOLD, in PROPORTIONAL mode limited to HMIN to HMAX (R71). -/
def sdReference (s : State) (n : Nat) : Nat :=
  if s.sdMode n = 2 then min (max (s.get (R.sdCcurHold n)) (s.get (R.sdCrangeHmin n))) (s.get (R.sdCrangeHmax n))
  else s.get (R.sdCcurHold n)

/-- What the stage does with a low-side switch. -/
inductive Drive where
  /-- Open: off, queued, in FAULT, decaying, or at a reference of 0. -/
  | opened
  /-- Fully on: pull-in. -/
  | closed
  /-- Chopping at a fixed frequency in Hz, the duty adjusted so that the average over a period is the reference (R64). -/
  | fixed (reference freq : Nat)
  /-- Opening at one current and closing at another, each state for at least 2 µs (R65). -/
  | hysteretic (opensAt closesAt : Int)
deriving DecidableEq, Repr

/-- Chopping of channel n at a reference; currents in steps of 7.8125 mA (R63 to R65). -/
def sdChop (s : State) (n ref : Nat) : Drive :=
  if ref = 0 then .opened
  else if s.get (R.sdCctrlChop n) = 0 then .fixed ref (100 * s.get (R.sdCchopFreq n))
  else .hysteretic ((ref : Int) + s.get (R.sdCchopBand n)) ((ref : Int) - s.get (R.sdCchopBand n))

/-- The hold reference with dither in its half-wave `up`, in steps of 7.8125 mA, clamped to 0 A to 4 A, or 8 A for a pair
(R66). -/
def sdDithered (s : State) (n : Nat) (up : Bool) : Nat :=
  let a : Int := if s.get (R.sdCdithDfreq n) = 0 then 0 else 2 * s.get (R.sdCdithAmp n)
  let top : Int := if s.flag (R.sdCctrlPair n) then 1024 else 512
  (min (max (2 * (sdReference s n : Int) + if up then a else -a) 0) top).toNat

/-- The drive of the low-side switch of channel n (R63 to R66, R71): fully on in pull-in, chopping at the peak in dwell and
at the hold reference, with dither, in hold. A reference of 0 leaves it open. -/
def sdDrive (s : State) (n : Nat) (up : Bool) : Drive :=
  match s.sdPhase n with
  | 2 => .closed
  | 3 => sdChop s n (4 * (s.sdC n).peak)
  | 4 => if sdReference s n = 0 then .opened else sdChop s n (sdDithered s n up)
  | _ => .opened

/-- A hysteretic switch, closed or open for `held` µs, after a current sample in steps of 7.8125 mA: closed or open
(R65). -/
def hysteresis (opensAt closesAt : Int) (closed : Bool) (held : Nat) (current : Int) : Bool :=
  if held < 2 then closed else if closed then decide (current < opensAt) else decide (current ≤ closesAt)

/-! Diagnostics and the arbiter -/

/-- A diagnostic of channel n: bit of SD_CDIAG, bank source, event (R81 to R83, Table 3-3). -/
def sdDiag (s : State) (n bit code : Nat) (data : List Byte) : State :=
  s.tell (n / 16) [.bits (R.sdCdiag n) bit 1 1, .irq (16 + n / 4), .event code data]

/-- Bits of SD_BDIAG of bank b, with the bank source. -/
def sdBankDiag (s : State) (b bit : Nat) : State := s.tell (b / 4) [.bits (R.sdBdiag b) bit 1 1, .irq (16 + b)]

/-- A new request stands behind the requests of earlier request times, and by channel number among equals (R75). -/
def queueInsert (s : State) (n : Nat) : List Nat → List Nat
  | [] => [n]
  | m :: l => if (s.sdC m).reqAt = s.now ∧ n < m then n :: m :: l else m :: queueInsert s n l

/-- PULLIN_REQUEST (R75). -/
def pullinRequest (s : State) (n : Nat) : State :=
  let b := n / 4
  if (s.sdB b).queue.contains n then s
  else
    ((s.setSdC n { s.sdC n with reqAt := s.now, late := false }).setSdQueue b
      (queueInsert s n (s.sdB b).queue)).setSdPhase n 1

/-- PULLIN_WITHDRAW (R77): a queued request is withdrawn. -/
def pullinWithdraw (s : State) (n : Nat) : State :=
  let t := (s.setSdQueue (n / 4) ((s.sdB (n / 4)).queue.filter fun m => m != n)).setSdPhase n 0
  t.tell (n / 16) [.bits (R.sdCdiag n) 6 1 1, .tally (R.sdCwdrns n), .irq (16 + n / 4)]

/-- The grant is released (R74). -/
def grantRelease (s : State) (n : Nat) : State :=
  if s.flag (R.sdBstatGranted (n / 4)) ∧ s.get (R.sdBstatGrant (n / 4)) = n % 4 then s.set (R.sdBstatGranted (n / 4)) 0
  else s

/-- Channel turn-off: slow decay (R67, R77). -/
def sdTurnOff (s : State) (n : Nat) : State :=
  let s := s.set (R.sdCstatPwmOn n) 0
  match s.sdPhase n with
  | 1 => pullinWithdraw s n
  | 2 => (grantRelease s n).setSdPhase n 6
  | 3 => (grantRelease s n).setSdPhase n 6
  | 4 => s.setSdPhase n 6
  | _ => s

/-- The effective PWM phase (R73). -/
def sdEffPhase (s : State) (n : Nat) : Nat :=
  if s.get (R.sdCctrlStagger n) = 0 then s.get (R.sdCpwmPhase n) else (s.sdC n).phase

/-- The stagger of a bank is recomputed (R73); the odd half of a pair is no channel of its own (R70). -/
def sdStagger (s : State) (b : Nat) : State :=
  (bankChans b).foldl (fun t n =>
    let per := s.get (R.sdCpwmPeriod n)
    let same := (bankChans b).filter fun m =>
      s.flag (R.sdCctrlStagger m) && !oddHalf s m && s.get (R.sdCpwmPeriod m) == per
    let j := (same.filter fun m => decide (m < n)).length
    if s.flag (R.sdCctrlStagger n) then
      t.setSdC n { t.sdC n with phase := (s.get (R.sdCpwmPhase n) + j * per / same.length) % per }
    else t) s

/-- A PWM on-interval begins, with a pull-in (R72). -/
def sdOnInterval (s : State) (n stop : Nat) : State :=
  pullinRequest ((s.setSdC n { s.sdC n with onEnd := stop }).set (R.sdCstatPwmOn n) 1) n

/-- A rising edge of ON in PWM mode: inside the on-interval of the cycle that the grid runs, with the duty that cycle took
at its start, it starts at once, else at the next cycle start (R72). -/
def sdPwmStart (s : State) (n : Nat) : State :=
  let per := s.get (R.sdCpwmPeriod n)
  let f := s.dieFrame (n / 16)
  let pos := (f + per - sdEffPhase s n % per) % per
  let on := (s.sdC n).duty * per / 1000
  if pos < on then sdOnInterval s n (f - pos + on) else s

/-- A channel starts as on a rising edge of ON in an armed bank (R60, R71, R72). -/
def sdStart (s : State) (n : Nat) : State :=
  if oddHalf s n ∨ s.sdPhase n = 5 then s
  else
    match s.sdMode n with
    | 1 => pullinRequest s n
    | 2 => if s.flag (R.sdCctrlPeakEn n) then pullinRequest s n else s.setSdPhase n 4
    | 3 => sdPwmStart s n
    | _ => s

/-- The budget of bank b: 0 passes, 2 hold, 3 peak (R78). -/
def sdBudget (s : State) (b : Nat) : Nat :=
  let total := ((bankChans b).map (worstHold s)).sum
  if total > 768 then 2
  else if (bankChans b).any fun n => decide (worstPeak s n + (total - worstHold s n) > 1280) then 3
  else 0

/-! Bank turn-off, clamp and lock -/

/-- Bank turn-off: everything opens at once, conducting channels decay into the clamp (R67). -/
def sdBankOff (s : State) (b : Nat) : State :=
  let flows := (bankChans b).any fun n => [2, 3, 4, 6].contains (s.sdPhase n)
  let t := (bankChans b).foldl (fun t n => sdMirror (sdTurnOff t n) n) s
  let t := ((t.set (R.sdBctrlArm b) 0).set (R.sdBstatBswOn b) 0).set (R.sdBstatGranted b) 0
  t.setSdB b { t.sdB b with clamp := (t.sdB b).clamp || flows }

/-- Disarming, deferred during a load dump (R67, R89). -/
def sdDisarm (s : State) (b : Nat) : State :=
  if s.sdArmed b = false then s
  else if s.flag (R.sdBstatDefer b) then
    if s.stage.sdDefer.contains b then s else { s with stage := { s.stage with sdDefer := s.stage.sdDefer ++ [b] } }
  else sdBankOff s b

/-- No bank turn-off of bank b waits any more. -/
def State.dropSdDefer (s : State) (b : Nat) : State :=
  { s with stage := { s.stage with sdDefer := s.stage.sdDefer.filter fun x => x != b } }

/-- The bucket in mJ as SD_BENERGY shows it. -/
def milliJ (pj : Nat) : Nat := Nat.min (pj / 1000000000) 65535

/-- The bucket leaks up to now (R68). -/
def sdLeak (s : State) (b : Nat) : State :=
  let x := s.sdB b
  let v := leaked x.bucket x.leakAt s.now 600
  (s.setSdB b { x with bucket := v, leakAt := s.now }).set (R.sdBenergyBucket b) (milliJ v)

/-- BANK_LOCK (R69): a clamp event of e pJ locks and disarms the bank. -/
def bankLock (s : State) (b e : Nat) : State :=
  let code := if e > 500000000000 then 0x0709 else 0x070A
  let t := sdDisarm (s.set (R.sdBstatLock b) 1) b
  (sdBankDiag t b 0).tell (b / 4) [.irq 30, .event code (d8 b ++ d16 (milliJ e) ++ d16 (milliJ (s.sdB b).bucket))]

/-- The clamp event of bank b ends with an energy in µJ: the bucket is charged, and a spent budget or too great an event
locks the bank (R68). -/
def sdClampEnd (s : State) (b microJ : Nat) : State :=
  let t := sdLeak s b
  let e := microJ * 1000000
  let v := (t.sdB b).bucket + e
  let t := (t.setSdB b { t.sdB b with bucket := v, clamp := false }).set (R.sdBenergyBucket b) (milliJ v)
  let t := t.set (R.sdBenergyLast b) (milliJ e)
  if e > 500000000000 ∨ v ≥ 2500000000000 then bankLock t b e else t

/-- SD_CLAMP_EVENT_END (R68): the clamp event of bank b ends with an energy of µJ. -/
def execSdClampEventEnd (b microJ : Nat) (s : State) : Res :=
  if b > 11 ∨ (s.sdB b).clamp = false then .next s else .next (sdClampEnd s b microJ)

/-- The bank switch closes: after a turn-off whose clamp event has not been told as ended, whether one is still running (none
where no current flowed) and the energy integrated so far are a free value's lowest bit and the rest of it; a running event
ends with that energy (R68; log entry 113). -/
def sdClampClose (s : State) (b : Nat) : State :=
  if (s.sdB b).clamp = false then s
  else
    let t := (s.setSdB b { s.sdB b with clamp := false }).fresh
    let v := (Config.freeWord s.freeCtr).toNat
    if v % 2 = 0 then t else sdClampEnd t b (v / 2)

/-- SD_BUCKET_LEAK (R68). -/
def execSdBucketLeak (b : Nat) (s : State) : Res :=
  if b > 11 then .next s else .next (sdLeak (s.passTo ((s.sdB b).leakAt + ms 1)) b)

/-- The unlock of bank b, judged by its stage die (R69): the status answered. A refusal stands in SD_BSTAT.ERR once the
status frame reports it. -/
def bankUnlock (s : State) (b : Nat) : State × Nat :=
  if s.sdHeld (4 * b) then (s, St.target)
  else
    let t := sdLeak s b
    if (t.sdB b).bucket < 1250000000000 then
      ((t.set (R.sdBstatLock b) 0).tell (b / 4) [.event 0x070B (d8 b ++ d16 (milliJ (t.sdB b).bucket))], St.ok)
    else (t.tell (b / 4) [.bits (R.sdBstat b) 16 4 4], St.target)

/-- BANK_UNLOCK (R69). -/
def execBankUnlock (b : Nat) (s : State) : Res := if b > 11 then .next s else .next (bankUnlock s b).1

/-- The clear of BSW_OT, taken once the junction has cooled by 25 K from 175 °C (R79): the status answered. -/
def bankSwitchClear (s : State) (b : Nat) : State × Nat :=
  if s.sdHeld (4 * b) then (s, St.target)
  else if (s.sdB b).tj ≤ 150 then (s.set (R.sdBstatBswOt b) 0, St.ok)
  else (s.tell (b / 4) [.bits (R.sdBstat b) 16 4 5], St.target)

/-- BANK_SWITCH_CLEAR (R79) at a junction of tj °C. -/
def execBankSwitchClear (b tj : Nat) (s : State) : Res :=
  if b > 11 then .next s else .next (bankSwitchClear (s.setSdB b { s.sdB b with tj := tj }) b).1

/-- The condition that refuses arming of bank b, as an ERR code; 0 none (R80). -/
def sdArmErr (s : State) (b : Nat) : Nat :=
  if s.get R.siStopState ≠ 0 ∨ (s.dieAt (b / 4)).stopped then 1
  else if s.flag (R.sdBstatLock b) then 4
  else if s.flag (R.sdBstatBswOt b) then 5
  else if s.get (R.sdBmeasVbank b) < 600 then 6
  else if s.flag (R.sdBctrlOvr b) = false ∧ sdBudget s b ≠ 0 then sdBudget s b
  else if (s.dieAt (b / 4)).pgnd then 7
  else 0

/-- DCLR or object 0x2180 + b:05 reaches the die: the junction at that instant is free (log entry 113). -/
def bankSwitchClearNow (s : State) (b : Nat) : State × Nat :=
  bankSwitchClear (s.fresh.setSdB b { s.sdB b with tj := (Config.freeWord s.freeCtr).toNat % 256 }) b

/-- A die of a latched zone ignores ARM = 1 (R459), as does a module in BLANK (Table 22-1) or without engine SRAM
(Table 16-2). -/
def sdArmIgnored (s : State) (b : Nat) : Bool :=
  s.sdHeld (4 * b) || s.flag ⟨R.thLatch, 4 + b / 4, 1⟩ || s.lifeCycle == 0 || !s.engineSram

/-- Arming of bank b (R80): the status answered. -/
def bankArm (s : State) (b : Nat) : State × Nat :=
  if s.sdArmed b then (s, St.ok)
  else if sdArmIgnored s b then (s, St.target)
  else if sdArmErr s b ≠ 0 then
    ((s.set (R.sdBstatErr b) (sdArmErr s b)).log 0x070F (d8 b ++ d8 (sdArmErr s b)), St.target)
  else
    let t := sdStagger ((s.set (R.sdBctrlArm b) 1).set (R.sdBstatBswOn b) 1) b
    let t := t.pwrBit (7 + b / 6) false
    let t := loopsFromZero (t.setSdB b { t.sdB b with failed := false }) 1 b
    let t := (bankChans b).foldl (fun t n => if t.sdOn n then sdMirror (sdStart t n) n else t) t
    (thermalEstimate (sdClampClose t b), St.ok)

/-- BANK_ARM (R80). -/
def execBankArm (b : Nat) (s : State) : Res := if b > 11 then .next s else .next (bankArm s b).1

/-- BANK_DISARM (R80). -/
def execBankDisarm (b : Nat) (s : State) : Res :=
  if b > 11 ∨ s.sdHeld (4 * b) then .next s else .next (sdDisarm s b)

/-- A write of SD_BCTRL at its die: unlock and clear first, then OVR and ARM (R80). -/
def sdBctrlWrite (s : State) (b : Nat) (v : Word) : State :=
  let s := if bit v 2 then (bankUnlock s b).1 else s
  let s := if bit v 3 then (bankSwitchClearNow s b).1 else s
  let s := s.put (R.sdBctrlOvr b) (bit v 1)
  if bit v 0 then (bankArm s b).1 else sdDisarm s b

/-- BANK_SWITCH_LIMIT (R79): limiting longer than 10 µs at a junction of tj °C. -/
def execBankSwitchLimit (b tj : Nat) (s : State) : Res :=
  if b > 11 ∨ s.flag (R.sdBstatBswOn b) = false then .next s
  else .next ((sdBankDiag (s.setSdB b { s.sdB b with tj := tj }) b 2).tell (b / 4) [.event 0x0707 (d8 b ++ d8 tj)])

/-- BANK_SWITCH_TRIP (R79): the junction reaches 175 °C; not deferred by a load dump. -/
def execBankSwitchTrip (b tj : Nat) (s : State) : Res :=
  if b > 11 ∨ tj < 175 then .next s
  else
    let t := sdBankOff ((s.setSdB b { s.sdB b with tj := tj }).set (R.sdBstatBswOt b) 1) b
    .next ((sdBankDiag t b 1).tell (b / 4) [.irq 30, .event 0x0708 (d8 b ++ d8 tj)])

/-! Channel commands -/

/-- FCLR with ON = 0 clears OVC and OPEN, also those that no status frame has reported yet (R83). -/
def sdFclr (s : State) (n : Nat) : State :=
  let t := (s.set (R.sdCdiagOpen n) 0).set (R.sdCdiagOvc n) 0
  let t := if t.sdPhase n = 5 then t.setSdPhase n 0 else t
  t.tell (n / 16) [.bits (R.sdCdiag n) 4 2 0]

/-- The counters of a channel (Table of SD_CCNT). -/
def sdCounters (n : Nat) : List Nat := [R.sdCpullins n, R.sdClates n, R.sdCtpkerr n, R.sdCwdrns n]

/-- The effect of a changed ON command (R60, R67, R80). -/
def sdEdge (s : State) (n : Nat) (before : Bool) : State :=
  if oddHalf s n then s
  else if s.sdOn n ∧ before = false then (if s.sdArmed (n / 4) then sdStart s n else s)
  else if s.sdOn n = false ∧ before then sdTurnOff s n
  else s

/-- A refusal of a write to channel n shows in ERR, and in that of the odd half of a pair (R70). ERR keeps the last
refusal until the next: no rule clears it at an accepted write (log entry 114). -/
def sdErr (s : State) (n e : Nat) : State := sdMirror (s.set (R.sdCstatErr n) e) n

/-- A write of SD_CCTRL (R60, R62, R70, R78, R83): the ERR code of a refusal, 0 for none. A reserved FAIL or an odd PAIR
leaves that field as it was, with ERR 2, and the other fields take effect. A refused PAIR refuses the whole write (log
entry 114). -/
def sdCctrlWrite (s : State) (n : Nat) (v : Word) : State × Nat :=
  let f := fun k w => bits v k w
  let refuse := fun e : Nat => (sdErr s n e, e)
  let armed := s.sdArmed (n / 4)
  let odd := n % 2 = 1 ∧ f 3 1 = 1
  if armed ∧ (f 1 2 ≠ s.sdMode n ∨ (f 3 1 ≠ s.get (R.sdCctrlPair n) ∧ ¬odd) ∨ f 5 1 ≠ s.get (R.sdCctrlChop n)) then refuse 1
  else if f 3 1 = 1 ∧ n % 2 = 0 ∧ s.get (R.sdCctrlPair n) = 0 ∧ s.sdMode (n + 1) ≠ 0 then refuse 5
  else
    let fs := (fieldsAt (R.sdCctrl n)).filter fun d => !(decide odd && d.lsb == 3)
    let t := s.wr (R.sdCctrl n) (BitVec.ofNat 32 (applyFields fs (s.rd (R.sdCctrl n)).toNat v.toNat))
    if armed ∧ s.flag (R.sdBctrlOvr (n / 4)) = false ∧ f 4 1 ≠ s.get (R.sdCctrlPeakEn n) ∧ sdBudget t (n / 4) ≠ 0 then
      refuse 3
    else
      let t := if bit v 10 ∧ f 0 1 = 0 then sdFclr t n else t
      let t := if bit v 11 then t.clearAll (sdCounters n) else t
      let t := sdMirror (sdEdge t n (s.sdOn n)) n
      if odd ∨ f 7 2 = 3 then (sdErr t n 2, 2) else (t, 0)

/-- Whether the current fields of a word of SD_CCUR are in the range of a single channel or a pair (R62). -/
def sdCurrentOk (s : State) (n : Nat) (lsb v : Nat) : Bool :=
  let k := if s.flag (R.sdCctrlPair n) then 2 else 1
  if lsb = 0 then 7 * k ≤ v && v ≤ 256 * k else 16 * k ≤ v && v ≤ 256 * k

/-- The period of a PWM register after a write of its field at bit 0: a reserved encoding leaves it (R6). -/
def writtenPeriod (s : State) (a width : Nat) (v : Word) : Nat :=
  if (fieldsAt a).any fun d => d.lsb == 0 && d.accepts (fieldOf v.toNat d) then bits v 0 width else s.get ⟨a, 0, width⟩

/-- A write of another control register of channel n, at offset o of its block (R62, R71, R72, R78), of the whole word or
of the field at one bit: the ERR code, 0 for none. A field that is refused or out of range keeps its value. -/
def sdChannelWrite (s : State) (n o : Nat) (v : Word) (field : Option Nat) : State × Nat :=
  let a := R.sdCctrl n + o
  let owned := decide (o = 4) && s.flag (R.sdCstatOwned n) && field.getD 0 == 0
  let out := fun d : FieldDef => (o == 4 && !sdCurrentOk s n d.lsb (fieldOf v.toNat d))
    || (o == 0x18 && d.lsb == 16 && decide (bits v 16 14 ≥ writtenPeriod s a 14 v))
  let fs := (fieldsAt a).filter fun d => d.access == .rw && (field.isNone || field == some d.lsb)
  let ill := fs.any fun d => !d.accepts (fieldOf v.toNat d) || out d
  let t := s.wr a (BitVec.ofNat 32
    (applyFields (fs.filter fun d => !out d && !(owned && d.lsb == 0)) (s.rd a).toNat v.toNat))
  let worst := fun u : State => (bankChans (n / 4)).map fun m => (worstHold u m, worstPeak u m)
  if s.sdArmed (n / 4) ∧ s.flag (R.sdBctrlOvr (n / 4)) = false ∧ worst t ≠ worst s ∧ sdBudget t (n / 4) ≠ 0 then
    (sdErr s n 3, 3)
  else if owned then (sdErr t n 4, 4)
  else if ill then (sdErr t n 2, 2)
  else (t, 0)

/-- A write to the register at offset o of the block SD takes effect at its die (R60, R80): the ERR code, 0 for none. -/
def sdApply (s : State) (o : Nat) (v : Word) (field : Option Nat) : State × Nat :=
  let a := 0x20030000 + o
  let n := (o - 0x1000) / 0x80
  if o < 0x1000 then (if o % 0x40 = 0 then sdBctrlWrite s ((o - 0x100) / 0x40) v else plainWrite s a v, 0)
  else if o % 0x80 = 0 then sdCctrlWrite s n v
  else sdChannelWrite s n (o % 0x80) v field

/-- The word of SD_CCTRL with ON at a value. -/
def sdOnWord (s : State) (n on : Nat) : Word := State.fieldInto (s.rd (R.sdCctrl n)).toNat ⟨0, 0, 1⟩ on

/-- SD_FCLR (R83): FCLR is written with ON as it stands. -/
def execSdFclr (n : Nat) (s : State) : Res :=
  if n > 47 ∨ s.sdHeld n ∨ s.sdOn n then .next s else .next (sdMirror (sdFclr s n) n)

/-! The course of a sequence -/

/-- PULLIN_GRANT (R74, R89): the arbiter of bank b grants the next request while no load dump defers it. -/
def execPullinGrant (b : Nat) (s : State) : Res :=
  match (s.sdB b).queue with
  | [] => .next s
  | n :: l =>
    if b > 11 ∨ s.flag (R.sdBstatGranted b) ∨ s.flag (R.sdBstatDefer b) then .next s
    else
      let t := ((s.setSdQueue b l).set (R.sdBstatGranted b) 1).set (R.sdBstatGrant b) (n % 4)
      let t := (t.setSdC n { t.sdC n with grantAt := s.now, peak := s.get (R.sdCcurPeak n), dwell := s.get (R.sdCtimeDwell n) }).setSdPhase n 2
      .next (sdMirror (t.tell (n / 16) [.tally (R.sdCpullins n)]) n)

/-- ARMATURE_CHECK (R82) at the end of a pull-in: `dip` is how far in µA the current fell below a running maximum, and the
time of the minimum in µs after the grant. A dip of at least DIP_MIN is armature movement. -/
def armatureCheck (s : State) (n : Nat) (dip : Option (Nat × Nat)) (peak : Bool) : State :=
  if s.flag (R.sdCctrlDipEn n) = false then s
  else
    match dip.filter fun d => decide (15625 * s.get (R.sdCdiagcfgDipMin n) ≤ d.1) with
    | some d => s.set (R.sdCpullMove n) d.2
    | none =>
      if peak then sdDiag (s.set (R.sdCpullMove n) 0xFFFF) n 2 0x0703 (d8 n ++ d16 0xFFFF)
      else s

/-- PEAK_REACHED (R63, R74, R81): tpk µs after the grant a sample of channel n, of a pair the sum of both halves, shows a
current in µA that reaches the peak of the sequence; `dip` is the deepest dip before it. -/
def execPeakReached (n tpk microA : Nat) (dip : Option (Nat × Nat)) (s : State) : Res :=
  if n > 47 ∨ s.sdPhase n ≠ 2 ∨ tpk > s.get (R.sdCtpkTpkMax n) ∨ microA < 31250 * (s.sdC n).peak then .next s
  else
    let s := (s.passTo ((s.sdC n).grantAt + us tpk)).set (R.sdCpullTpk n) tpk
    let s := if tpk < s.get (R.sdCtpkTpkMin n) then
        (sdDiag s n 0 0x0701 (d8 n ++ d16 tpk)).tell (n / 16) [.tally (R.sdCtpkerr n)]
      else s
    let s := armatureCheck s n dip true
    let dwell := (s.sdC n).dwell
    let s := if dwell = 0 then (grantRelease s n).setSdPhase n 4
      else (s.setSdC n { s.sdC n with dwellEnd := s.now + us (100 * dwell) }).setSdPhase n 3
    .next (sdMirror s n)

/-- TPK_MAX_EXPIRY (R81): TPK_MAX passes without peak; the dwell is skipped. -/
def execTpkMaxExpiry (n : Nat) (dip : Option (Nat × Nat)) (s : State) : Res :=
  if n > 47 ∨ s.sdPhase n ≠ 2 then .next s
  else
    let m := s.get (R.sdCtpkTpkMax n)
    let s := s.passTo ((s.sdC n).grantAt + us m)
    let s := (sdDiag s n 1 0x0702 (d8 n ++ d16 m)).tell (n / 16) [.tally (R.sdCtpkerr n)]
    let s := armatureCheck s n dip false
    .next (sdMirror ((grantRelease s n).setSdPhase n 4) n)

/-- PEAK_DWELL_END (R74). -/
def execPeakDwellEnd (n : Nat) (s : State) : Res :=
  if n > 47 ∨ s.sdPhase n ≠ 3 then .next s
  else
    let s := s.passTo (s.sdC n).dwellEnd
    .next (sdMirror ((grantRelease s n).setSdPhase n 4) n)

/-- DECAY_END (R67): the current falls below 20 mA. -/
def execDecayEnd (n : Nat) (s : State) : Res :=
  if n > 47 ∨ s.sdPhase n ≠ 6 then .next s else .next (sdMirror (s.setSdPhase n 0) n)

/-- PULLIN_WAIT_LATE (R76). -/
def execPullinWaitLate (n : Nat) (s : State) : Res :=
  if n > 47 ∨ s.sdPhase n ≠ 1 ∨ (s.sdC n).late then .next s
  else
    let w := 10 * s.get (R.sdCtimeMaxwait n)
    let s := s.passTo ((s.sdC n).reqAt + us w)
    let s := s.setSdC n { s.sdC n with late := true }
    .next ((sdDiag s n 3 0x0704 (d8 n ++ d16 w)).tell (n / 16) [.tally (R.sdClates n)])

/-- SD_PWM_CYCLE_START (R72): the frame is a cycle start of channel n. -/
def execSdPwmCycleStart (n : Nat) (s : State) : Res :=
  let per := s.get (R.sdCpwmPeriod n)
  let f := s.dieFrame (n / 16)
  if n > 47 ∨ s.sdMode n ≠ 3 ∨ oddHalf s n ∨ f % per ≠ sdEffPhase s n then .next s
  else
    let d := s.get (R.sdCdutyDuty n)
    let on := d * per / 1000
    let t := s.setSdC n { s.sdC n with duty := d }
    if s.sdOn n = false ∨ s.sdArmed (n / 4) = false ∨ s.sdPhase n = 5 then .next t
    else if on = 0 then .next (sdMirror (sdTurnOff t n) n)
    else if s.flag (R.sdCstatPwmOn n) then .next (t.setSdC n { t.sdC n with onEnd := f + on })
    else .next (sdMirror (sdOnInterval t n (f + on)) n)

/-- SD_PWM_ON_END (R72, R77). -/
def execSdPwmOnEnd (n : Nat) (s : State) : Res :=
  if n > 47 ∨ s.flag (R.sdCstatPwmOn n) = false ∨ (s.sdC n).duty = 1000 ∨ s.dieFrame (n / 16) < (s.sdC n).onEnd then .next s
  else .next (sdMirror (sdTurnOff s n) n)

/-! Faults -/

/-- A channel fault: off, latched, phase FAULT (R83). -/
def sdFault (s : State) (n bit code milliamp : Nat) : State :=
  sdMirror (sdDiag ((sdTurnOff s n).setSdPhase n 5) n bit code (d8 n ++ d16 milliamp)) n

/-- The channel conducts by its own command: pull-in, dwell or hold of a channel that is no odd half of a pair. -/
def sdConducts (s : State) (n : Nat) : Bool := decide (n < 48) && [2, 3, 4].contains (s.sdPhase n) && !oddHalf s n

/-- A current in mA exceeds 1.25 × max(peak, hold reference) + 0.5 A (R83). -/
def sdOver (s : State) (n milliamp : Nat) : Bool :=
  decide (5 * max (31250 * s.get (R.sdCcurPeak n)) (15625 * sdReference s n) + 2000000 < 4000 * milliamp)

/-- SD_OVER_CURRENT (R83): the sensed current in mA, of a pair the sum of both halves, has exceeded the threshold for
2 µs. -/
def execSdOverCurrent (n milliamp : Nat) (s : State) : Res :=
  if sdConducts s n = false ∨ sdOver s n milliamp = false then .next s else .next (sdFault s n 5 0x0706 milliamp)

/-- SD_OPEN_LOAD (R83): for 2 ms with the low-side switch fully on the current in mA stayed below half a hold reference of
at least 7 steps. -/
def execSdOpenLoad (n milliamp : Nat) (s : State) : Res :=
  if sdConducts s n = false ∨ sdReference s n < 7 ∨ 15625 * sdReference s n ≤ 2000 * milliamp then .next s
  else .next (sdFault s n 4 0x0705 milliamp)

/-! Hold, fail states, load dump -/

/-- The fail state of a channel (R86, R110). -/
def sdFail (s : State) (n : Nat) : State :=
  let kind := if (s.dieAt (n / 16)).lgndHold then 0 else s.get (R.sdCctrlFail n)
  let v := s.get (R.sdCfailvValue n)
  let on := s.sdOn n
  if oddHalf s n then s
  else if kind = 0 then sdMirror (sdTurnOff (s.set (R.sdCctrlOn n) 0) n) n
  else if kind = 1 ∨ s.sdMode n = 0 then s
  else
    match s.sdMode n with
    | 1 => sdMirror (sdEdge (s.put (R.sdCctrlOn n) (v != 0)) n on) n
    | 2 =>
      let h := min (max v (s.get (R.sdCrangeHmin n))) (s.get (R.sdCrangeHmax n))
      sdMirror (sdEdge ((s.set (R.sdCcurHold n) h).set (R.sdCctrlOn n) 1) n on) n
    | _ =>
      let d := min v 1000
      let t := (s.set (R.sdCdutyDuty n) d).set (R.sdCctrlOn n) 1
      sdMirror (sdEdge (if on then t else t.setSdC n { t.sdC n with duty := d }) n on) n

/-- The hold timer of bank b expires (R86). -/
def bankHoldExpiry (s : State) (b : Nat) : State :=
  let t := (bankChans b).foldl sdFail (s.set (R.sdBstatHolding b) 0)
  let t := t.setSdB b { t.sdB b with holdEnd := none, failed := true }
  (sdBankDiag t b 5).tell (b / 4) [.irq 28, .event 0x070D (d8 b)]

/-- BANK_HOLD_EXPIRY (R86). -/
def execBankHoldExpiry (b : Nat) (s : State) : Res :=
  match (s.sdB b).holdEnd with
  | none => .next s
  | some t => if b > 11 then .next s else .next (bankHoldExpiry (s.passTo t) b)

/-- The banks of a solenoid die enter hold (R84); it goes on counting frames from the last stage frame (R85). -/
def sdHoldEntry (s : State) (d : Nat) : State :=
  let t := s.setDie d { s.dieAt d with hold := true, grid := s.stage.grid }
  let t := t.tell d [.bits R.sdStat (3 + d) 1 1, .irq 28, .event 0x070C (d8 d)]
  [4 * d, 4 * d + 1, 4 * d + 2, 4 * d + 3].foldl (fun u b =>
    let h := u.get (R.sdBholdHoldMs b)
    let u := sdBankDiag ((u.setSdB b { u.sdB b with holdEnd := some (u.now + ms h), failed := false }).set
      (R.sdBstatHolding b) 1) b 4
    if h = 0 then bankHoldExpiry u b else u) t

/-- BANK_FAIL_OFF_DISARM (R88): every channel of the bank went to fail state OFF and its current has decayed. -/
def execBankFailOffDisarm (b : Nat) (s : State) : Res :=
  let x := s.sdB b
  let off := (bankChans b).all fun n => oddHalf s n || s.get (R.sdCctrlFail n) == 0 || (s.dieAt (b / 4)).lgndHold
  let still := (bankChans b).all fun n => s.sdPhase n == 0 || s.sdPhase n == 5
  if b > 11 ∨ x.failed = false ∨ s.sdArmed b = false ∨ off = false ∨ still = false then .next s
  else .next ((s.set (R.sdBctrlArm b) 0).set (R.sdBstatBswOn b) 0)

/-- The banks of solenoid supply k: 0 VBAT_A, 1 VBAT_B (R59). -/
def supplyBanks (k : Nat) : List Nat := if k = 0 then [0, 1, 2, 3, 4, 5] else [6, 7, 8, 9, 10, 11]

/-- Deferral of a supply begins or ends at its banks. -/
def sdDeferFlag (s : State) (k : Nat) (on : Bool) : State :=
  (supplyBanks k).foldl (fun t b => sdBankDiag (t.put (R.sdBstatDefer b) on) b 3)
    (s.tell (if k = 0 then 0 else 2) [.bits R.sdStat (10 + k) 1 (if on then 1 else 0), .irq 29])

/-- LOAD_DUMP_ENTRY (R89): the input of VBAT_A (0) or VBAT_B (1) exceeds 40 V; its peak in 0.1 V. -/
def execLoadDumpEntry (k decivolt : Nat) (s : State) : Res :=
  if k > 1 ∨ decivolt ≤ 400 ∨ s.flag (R.sdBstatDefer (6 * k)) then .next s
  else .next ((sdDeferFlag s k true).tell (if k = 0 then 0 else 2) [.event 0x070E (d8 k ++ d16 decivolt)])

/-- LOAD_DUMP_END (R89): the input falls below 38 V, and the deferred actions run in order of request. -/
def execLoadDumpEnd (k decivolt : Nat) (s : State) : Res :=
  if k > 1 ∨ decivolt ≥ 380 ∨ s.flag (R.sdBstatDefer (6 * k)) = false then .next s
  else .next ((s.stage.sdDefer.filter fun b => (supplyBanks k).contains b).foldl (fun t b => sdBankOff (t.dropSdDefer b) b)
    (sdDeferFlag s k false))

/-! Resets of a solenoid die -/

/-- Whether an address is a register of solenoid die d. -/
def sdDieReg (d a : Nat) : Bool :=
  (R.sdBctrl (4 * d) ≤ a && a < R.sdBctrl (4 * d) + 0x100) || (R.sdCctrl (16 * d) ≤ a && a < R.sdCctrl (16 * d) + 0x800)

/-- Every output of the die off and its registers at their reset values; loops keep their channels (R90, R427). It filters
its stop inputs at 4 µs (R127) and finds them as the main die does (log entry 118). -/
def sdDieClear (s : State) (d : Nat) : State :=
  let owned := upTo 48 fun n => n / 16 == d && s.flag (R.sdCstatOwned n)
  let t := { s with
    regs := s.regs.filter fun e => !sdDieReg d e.1,
    stage := { s.stage with
      posted := s.stage.posted.filter fun p => dieOfReg p.addr != some d,
      sdDefer := s.stage.sdDefer.filter fun b => b / 4 != d,
      sdCh := s.stage.sdCh.filter fun e => e.1 / 16 != d,
      sdBank := s.stage.sdBank.filter fun e => e.1 / 4 != d } }
  let t := [4 * d, 4 * d + 1, 4 * d + 2, 4 * d + 3].foldl (fun u b => u.setSdB b { u.sdB b with leakAt := s.now }) t
  let t := owned.foldl (fun u n => u.set (R.sdCstatOwned n) 1) t
  (t.setDie d { s.dieAt d with hold := false, stopped := true, lgndHold := false, filt := 4,
                               inA := s.stop.inA, inB := s.stop.inB }).tell d
    (if (s.dieAt d).hold then [.bits R.sdStat (3 + d) 1 0] else [])

/-- SD_DIE_RESET (R90): the logic supply of solenoid die d falls below 4.5 V. -/
def execSdDieReset (d : Nat) (s : State) : Res :=
  if d > 2 then .next s else .next ((sdDieClear s d).tell d (dieResetReports d))

/-- A stop at a solenoid die: every bank off, queues emptied, ARM cleared (R87); it overrides deferral (R31). -/
def sdStageStop (s : State) (d : Nat) : State :=
  [4 * d, 4 * d + 1, 4 * d + 2, 4 * d + 3].foldl (fun u b => sdBankOff (u.dropSdDefer b) b)
    (s.setDie d { s.dieAt d with stopped := true })

end Sys2Proof.Machine
end

