-- ==== Sys2Proof/Machine/Switches.lean ====
section
/-!
DEFINITION. The protected load switch channels: modes, limit and shutdown, clamp, arming, hold and deferral
(04_load_switches.md R91 to R112).
-/
namespace Sys2Proof.Machine

namespace State

def lsPhase (s : State) (n : Nat) : Nat := s.get (R.lsCstatPhase n)
def setLsPhase (s : State) (n p : Nat) : State := s.set (R.lsCstatPhase n) p
def lsOn (s : State) (n : Nat) : Bool := s.flag (R.lsCctrlOn n)
def lsMode (s : State) (n : Nat) : Nat := s.get (R.lsCctrlMode n)
def lsArmed (s : State) (g : Nat) : Bool := s.flag (R.lsGctrlArm g)
/-- The stage die of switch channel n: 3 or 4. -/
def lsDie (n : Nat) : Nat := 3 + n / 16
def lsHeld (s : State) (n : Nat) : Bool := (s.dieAt (lsDie n)).hold

end State

/-- A diagnostic of channel n (Table 4-3, Table 4-4). -/
def lsDiag (s : State) (n bit code : Nat) (data : List Byte) : State :=
  s.tell (State.lsDie n) [.bits (R.lsCdiag n) bit 1 1, .irq (32 + n / 4), .event code data]

/-- A bit of LS_GDIAG, with the group source. -/
def lsGroupDiag (s : State) (g bit : Nat) : State :=
  s.tell (3 + g / 4) [.bits (R.lsGdiag g) bit 1 1, .irq (32 + g)]

/-- The class of a channel (Table 4-2): leak in mW, single-event maximum and budget in pJ. -/
def lsLeakOf (n : Nat) : Nat := if n < 8 then 500 else 150
def lsEmax (n : Nat) : Nat := if n < 8 then 400000000000 else 120000000000
def lsBudget (n : Nat) : Nat := if n < 8 then 2000000000000 else 600000000000

/-- Energy in units of 0.1 mJ. -/
def tenthMilliJ (pj : Nat) : Nat := Nat.min (pj / 100000000) 65535

/-- The switch opens; a clamp event begins if it was closed (R101). -/
def lsOpen (s : State) (n : Nat) : State :=
  let x := s.lsC n
  if x.out then s.setLsC n { x with out := false, clamp := true } else s

/-- On-time in ns of a duty in a period (R95). -/
def lsOnTime (duty period : Nat) : Nat := duty * period * 5 / 2

/-! Clamp, lock, unlock -/

/-- The bucket of a channel leaks up to now (R101). -/
def lsLeak (s : State) (n : Nat) : State :=
  let x := s.lsC n
  let v := leaked x.bucket x.leakAt s.now (lsLeakOf n)
  (s.setLsC n { x with bucket := v, leakAt := s.now }).set (R.lsCenergyBucket n) (tenthMilliJ v)

/-- The channel goes off, whatever its phase was short of a latch, lock or cooling (R93, R101). -/
def lsOffNow (s : State) (n : Nat) : State :=
  let t := lsOpen s n
  let t := (t.setLsC n { t.lsC n with soft := 0 }).set (R.lsCstatInr n) 0
  if [3, 4, 5].contains (t.lsPhase n) then t else t.setLsPhase n 0

/-- CHANNEL_LOCK (R102). -/
def channelLock (s : State) (n e : Nat) : State :=
  let code := if e > lsEmax n then 0x0805 else 0x0806
  let t := (lsOffNow s n).setLsPhase n 5
  (lsDiag t n 4 code (d8 n ++ d16 (tenthMilliJ e) ++ d16 (tenthMilliJ (s.lsC n).bucket))).tell (State.lsDie n) [.irq 42]

/-- The clamp event of channel n ends with an energy in µJ: the bucket is charged, and a spent budget or too great an event
locks the channel (R101). -/
def lsClampEnd (s : State) (n microJ : Nat) : State :=
  let t := lsLeak s n
  let e := microJ * 1000000
  let v := (t.lsC n).bucket + e
  let t := (t.setLsC n { t.lsC n with bucket := v, clamp := false }).set (R.lsCenergyBucket n) (tenthMilliJ v)
  let t := (t.set (R.lsCenergyLast n) (tenthMilliJ e)).tell (State.lsDie n) [.tally (R.lsCclamps n)]
  if e > lsEmax n ∨ v ≥ lsBudget n then channelLock t n e else t

/-- The switch closes. After a turn-off whose clamp event has not been told as ended, whether one is still running (none where
no current flowed) and the energy integrated so far are a free value's lowest bit and the rest of it; a running event ends
with that energy and may lock the channel (R101; log entry 113). -/
def lsClose (s : State) (n : Nat) : State :=
  let t := s.setLsC n { s.lsC n with out := true, clamp := false }
  if (s.lsC n).clamp = false then t
  else
    let v := (Config.freeWord s.freeCtr).toNat
    if v % 2 = 0 then t.fresh else lsClampEnd t.fresh n (v / 2)

/-- A switch-on in PWM mode: inside the on-interval of the cycle that the grid runs, with the duty that cycle took at its
start, it starts at once (R95). -/
def lsPwmStart (s : State) (n : Nat) : State :=
  let per := s.get (R.lsCpwmPeriod n)
  let pos := (s.dieFrame (State.lsDie n) + per - s.get (R.lsCpwmPhase n) % per) % per * 10000
  let on := lsOnTime (s.lsC n).duty per
  let t := s.setLsC n { s.lsC n with onEnd := s.now + (on - pos) }
  if pos < on then lsClose t n else t

/-- The channel is on: phase ON, and its output by its mode (R93, R95, R96). -/
def lsDrive (s : State) (n : Nat) : State :=
  let t := s.setLsPhase n 1
  match s.lsMode n with
  | 1 => lsClose t n
  | 2 => lsPwmStart t n
  | 3 => if (s.lsC n).soft = 3 then lsClose t n else t.setLsC n { t.lsC n with soft := if (t.lsC n).soft = 0 then 1 else (t.lsC n).soft }
  | _ => t

/-- A channel with a deferred action (R108). -/
def lsDeferAction (s : State) (n : Nat) (on : Bool) : State :=
  let t := { s with stage := { s.stage with lsDefer := s.stage.lsDefer ++ [(n, on)] } }
  let t := if on then t.setLsPhase n 6 else t
  t.tell (State.lsDie n) [.bits (R.lsCdiag n) 8 1 1, .irq (32 + n / 4)]

/-- A switch-on (R94): the inrush window opens, the switch-on is counted. A LATCHED or LOCKED channel takes none
(log entry 137); one that cools after a shutdown closes its switch at its restart (R100). -/
def lsSwitchOn (s : State) (n : Nat) : State :=
  if s.lsMode n = 0 ∨ [4, 5].contains (s.lsPhase n) then s
  else if s.flag (R.lsGstatDefer (n / 4)) then lsDeferAction s n true
  else
    let w := s.get (R.lsCinrInrush n)
    let t := (s.setLsC n { s.lsC n with inrEnd := s.now + ms w, lastOn := some s.now, soft := 0 }).put (R.lsCstatInr n) (w != 0)
    (if s.lsPhase n = 3 then t else lsDrive t n).tell (State.lsDie n) [.tally (R.lsCswitchons n)]

/-- A turn-off: deferred for an inductive load that is on during a load dump; an off after a deferred switch-on cancels it
(R108). -/
def lsTurnOff (s : State) (n : Nat) : State :=
  if s.flag (R.lsGstatDefer (n / 4)) = false then lsOffNow s n
  else if s.stage.lsDefer.contains (n, true) then
    let t := { s with stage := { s.stage with lsDefer := s.stage.lsDefer.filter fun e => e != (n, true) } }
    if (s.lsC n).out then t.setLsPhase n 1 else t.setLsPhase n 0
  else if s.stage.lsDefer.contains (n, false) then s
  else if s.flag (R.lsCctrlInduct n) ∧ ((s.lsC n).out ∨ [1, 2].contains (s.lsPhase n)) then lsDeferAction s n false
  else lsOffNow s n

/-- LS_CLAMP_EVENT_END (R101): the clamp event of channel n ends with an energy in µJ. -/
def execLsClampEventEnd (n microJ : Nat) (s : State) : Res :=
  if n > 31 ∨ (s.lsC n).clamp = false then .next s else .next (lsClampEnd s n microJ)

/-- LS_BUCKET_LEAK (R101). -/
def execLsBucketLeak (n : Nat) (s : State) : Res :=
  if n > 31 then .next s else .next (lsLeak (s.passTo ((s.lsC n).leakAt + ms 1)) n)

/-- The unlock of channel n, judged by its stage die (R102): the status answered. A refusal stands in LS_CSTAT.ERR once the
status frame reports it; a channel that is latched as well stays LATCHED (R100). -/
def lsUnlock (s : State) (n : Nat) : State × Nat :=
  if s.lsHeld n then (s, St.target)
  else
    let t := lsLeak s n
    if (t.lsC n).bucket < lsBudget n / 2 then
      let u := t.set (R.lsCdiagLock n) 0
      let u := if u.lsPhase n = 5 then u.setLsPhase n (if (u.lsC n).latched then 4 else 0) else u
      (u.tell (State.lsDie n) [.bits (R.lsCdiag n) 4 1 0, .event 0x0807 (d8 n ++ d16 (tenthMilliJ (t.lsC n).bucket))], St.ok)
    else (t.tell (State.lsDie n) [.bits (R.lsCstat n) 8 4 5], St.target)

/-- LS_UNLOCK (R102). -/
def execLsUnlock (n : Nat) (s : State) : Res := if n > 31 then .next s else .next (lsUnlock s n).1

/-! Commands -/

/-- FCLR with ON = 0 clears LATCH, also one that no status frame has reported yet (R100). -/
def lsFclr (s : State) (n : Nat) : State :=
  let t := (s.set (R.lsCdiagLatch n) 0).setLsC n { s.lsC n with latched := false }
  let t := if t.lsPhase n = 4 then t.setLsPhase n 0 else t
  t.tell (State.lsDie n) [.bits (R.lsCdiag n) 3 1 0]

/-- The counters of a channel (LS_CCNT). -/
def lsCounters (n : Nat) : List Nat := [R.lsCswitchons n, R.lsCshutdowns n, R.lsCclamps n, R.lsClimits n]

/-- The effect of a changed ON command (R94, R100). -/
def lsEdge (s : State) (n : Nat) (before : Bool) : State :=
  if s.lsOn n ∧ before = false then (if s.lsArmed (n / 4) then lsSwitchOn s n else s)
  else if s.lsOn n = false ∧ before then
    let t := s.setLsC n { s.lsC n with restarts := 0 }
    if s.lsArmed (n / 4) then lsTurnOff t n else t
  else s

/-- A write of LS_CCTRL (R93, R100, R102): the ERR code of a refusal, 0 for none. ERR keeps the last refusal (log entry
114). -/
def lsCctrlWrite (s : State) (n : Nat) (v : Word) : State × Nat :=
  if s.lsArmed (n / 4) ∧ (bits v 1 2 ≠ s.lsMode n ∨ bits v 3 1 ≠ s.get (R.lsCctrlInduct n)) then
    (s.set (R.lsCstatErr n) 1, 1)
  else
    let t := s.wr (R.lsCctrl n) (BitVec.ofNat 32
      (applyFields (fieldsAt (R.lsCctrl n)) (s.rd (R.lsCctrl n)).toNat v.toNat))
    let t := if bit v 7 ∧ bit v 0 = false then lsFclr t n else t
    let t := if bit v 8 then (lsUnlock t n).1 else t
    let t := if bit v 9 then t.clearAll (lsCounters n) else t
    let t := lsEdge t n (s.lsOn n)
    if bits v 5 2 = 3 then (t.set (R.lsCstatErr n) 2, 2) else (t, 0)

/-- A write of another control register of channel n, at offset o of its block (R93, R95), of the whole word or of the
field at one bit: the ERR code, 0 for none. -/
def lsChannelWrite (s : State) (n o : Nat) (v : Word) (field : Option Nat) : State × Nat :=
  let a := R.lsCctrl n + o
  let owned := decide (o = 0xC) && s.flag (R.lsCstatOwned n)
  let out := fun d : FieldDef => o == 8 && d.lsb == 16 && decide (bits v 16 11 ≥ writtenPeriod s a 11 v)
  let fs := (fieldsAt a).filter fun d => d.access == .rw && (field.isNone || field == some d.lsb)
  let ill := fs.any fun d => !d.accepts (fieldOf v.toNat d) || out d
  let t := s.wr a (BitVec.ofNat 32 (applyFields (fs.filter fun d => !out d && !owned) (s.rd a).toNat v.toNat))
  if owned then (t.set (R.lsCstatErr n) 4, 4)
  else if ill then (t.set (R.lsCstatErr n) 2, 2)
  else (t, 0)

/-- The word of LS_CCTRL with ON at a value. -/
def lsOnWord (s : State) (n on : Nat) : Word := State.fieldInto (s.rd (R.lsCctrl n)).toNat ⟨0, 0, 1⟩ on

/-- LS_FCLR (R100): FCLR is written with ON as it stands. -/
def execLsFclr (n : Nat) (s : State) : Res :=
  if n > 31 ∨ s.lsHeld n ∨ s.lsOn n then .next s else .next (lsFclr s n)

/-! The course of a channel -/

/-- SOFT_START_STEP (R96): the duty at frame f of a ramp that began at frame f0. -/
def softDuty (start timeMs f0 f : Nat) : Nat := min 4000 (start + (4000 - start) * ((f - f0) * 10) / (1000 * timeMs))

/-- An on-interval of duty d begins at a cycle start (R95). -/
def lsCycle (s : State) (n d : Nat) : State :=
  let on := lsOnTime d (s.get (R.lsCpwmPeriod n))
  let t := s.setLsC n { s.lsC n with duty := d, onEnd := s.now + on }
  if on = 0 then lsOpen t n else lsClose t n

/-- LS_PWM_CYCLE_START (R95, R96, R108): the frame is a cycle start of channel n; deferral pauses the cycles. -/
def execLsPwmCycleStart (n : Nat) (s : State) : Res :=
  let per := s.get (R.lsCpwmPeriod n)
  if n > 31 ∨ s.lsMode n < 2 ∨ s.dieFrame (State.lsDie n) % per ≠ s.get (R.lsCpwmPhase n) ∨ s.flag (R.lsGstatDefer (n / 4)) then .next s
  else if s.lsPhase n ≠ 1 ∧ s.lsPhase n ≠ 2 then
    .next (s.setLsC n { s.lsC n with duty := s.get (R.lsCdutyDuty n) })
  else if s.lsMode n = 2 then .next (lsCycle s n (s.get (R.lsCdutyDuty n)))
  else
    let x := s.lsC n
    let f := s.dieFrame (State.lsDie n)
    let f0 := if x.soft = 1 then f else x.softT0
    if x.soft = 3 then .next s
    else
      let d := softDuty (s.get (R.lsCsoftSsStart n)) (s.get (R.lsCsoftSsTime n)) f0 f
      .next (lsCycle (s.setLsC n { x with soft := if d = 4000 then 3 else 2, softT0 := f0 }) n d)

/-- LS_PWM_ON_END (R95). -/
def execLsPwmOnEnd (n : Nat) (s : State) : Res :=
  let x := s.lsC n
  if n > 31 ∨ s.lsMode n < 2 ∨ x.out = false ∨ x.duty ≥ 4000 ∨ x.soft = 3 ∨ s.flag (R.lsGstatDefer (n / 4)) then .next s
  else .next (lsOpen (s.passTo x.onEnd) n)

/-- INRUSH_WINDOW_END (R97). -/
def execInrushWindowEnd (n : Nat) (s : State) : Res :=
  if n > 31 ∨ s.flag (R.lsCstatInr n) = false then .next s
  else .next ((s.passTo (s.lsC n).inrEnd).set (R.lsCstatInr n) 0)

/-- LS_LIMIT (R98): the channel has limited for longer than 50 µs at a current in A; `ongoing` says that it still
does. -/
def execLsLimit (n ampere : Nat) (ongoing : Bool) (s : State) : Res :=
  if n > 31 ∨ (s.lsC n).out = false then .next s
  else
    let t := s.setLsPhase n (if ongoing then 2 else 1)
    .next ((lsDiag t n 0 0x0801 (d8 n ++ d8 ampere)).tell (State.lsDie n) [.tally (R.lsClimits n)])

/-- LS_LATCH (R100): the shutdown after the last allowed restart latches the channel off. -/
def lsLatch (s : State) (n tj : Nat) : State :=
  (lsDiag ((s.setLsC n { s.lsC n with latched := true }).setLsPhase n 4) n 3 0x0804 (d8 n ++ d8 tj)).tell (State.lsDie n) [.irq 42]

/-- LS_THERMAL_SHUTDOWN (R99): the junction in °C reaches 175 °C or exceeds the group reference by 60 K; a load dump does not
defer it (R108). -/
def execLsThermalShutdown (n tj : Nat) (tref : Int) (s : State) : Res :=
  let hot := decide (tj ≥ 175)
  let diff := decide ((tj : Int) - tref ≥ 60)
  if n > 31 ∨ (s.lsPhase n ≠ 1 ∧ s.lsPhase n ≠ 2 ∧ ¬(s.lsPhase n = 6 ∧ (s.lsC n).out = true)) ∨ (hot = false ∧ diff = false) then
    .next s
  else
    let t := if hot then lsDiag s n 1 0x0802 (d8 n ++ d8 tj) else s
    let t := if diff then lsDiag t n 2 0x0803 (d8 n ++ d8 tj) else t
    let t := (lsOpen t n).setLsPhase n 3
    let t := (t.setLsC n { t.lsC n with lastOn := none }).tell (State.lsDie n) [.tally (R.lsCshutdowns n)]
    .next (if (t.lsC n).restarts ≥ s.get (R.lsCinrRetry n) then lsLatch t n tj else t)

/-- LS_AUTO_RESTART (R100): the junction is at most 150 °C and within 35 K of the reference; a restart runs with the
lower limit. A channel that is no longer commanded has only cooled. -/
def execLsAutoRestart (n tj : Nat) (tref : Int) (s : State) : Res :=
  if n > 31 ∨ s.lsPhase n ≠ 3 ∨ tj > 150 ∨ (tj : Int) - tref > 35 ∨ s.flag (R.lsGstatDefer (n / 4)) then .next s
  else if s.lsOn n ∧ s.lsArmed (n / 4) ∧ s.lsMode n ≠ 0 then
    let x := s.lsC n
    .next (lsDrive ((s.setLsC n { x with restarts := x.restarts + 1, lastOn := some s.now }).set (R.lsCstatInr n) 0) n)
  else .next (s.setLsPhase n 0)

/-- LS_RESTART_COUNT_RESET (R100): 1 s without a shutdown since the last switch-on or restart. -/
def execLsRestartCountReset (n : Nat) (s : State) : Res :=
  match (s.lsC n).lastOn with
  | none => .next s
  | some t =>
    if n > 31 then .next s
    else
      let u := s.passTo (t + sec 1)
      .next (u.setLsC n { u.lsC n with restarts := 0 })

/-- OPEN_LOAD_ON (R104): below OL_TH for 10 ms of on-time. -/
def execOpenLoadOn (n : Nat) (s : State) : Res :=
  if n > 31 ∨ (s.lsPhase n ≠ 1 ∧ s.lsPhase n ≠ 2) then .next s else .next (lsDiag s n 5 0x0808 (d8 n))

/-- OPEN_LOAD_OFF (R104): an off output above 3.0 V for 10 ms with OLD_EN = 1. -/
def execOpenLoadOff (n : Nat) (s : State) : Res :=
  if n > 31 ∨ (s.lsC n).out ∨ s.flag (R.lsCctrlOldEn n) = false then .next s else .next (lsDiag s n 6 0x0809 (d8 n))

/-- SHORT_TO_BATTERY (R104): an off output above 6.0 V for 10 ms. -/
def execShortToBattery (n : Nat) (s : State) : Res :=
  if n > 31 ∨ (s.lsC n).out then .next s else .next (lsDiag s n 7 0x080A (d8 n))

/-! Groups -/

/-- The condition that refuses arming of group g, as an ERR code; 0 none (R105). -/
def lsArmErr (s : State) (g : Nat) : Nat :=
  let d := s.dieAt (3 + g / 4)
  if s.get R.siStopState ≠ 0 ∨ d.stopped then 1
  else if s.get (R.lsGmeasVgrp g) < 600 then 2
  else if d.lgnd then 3
  else if d.pgnd then 4
  else 0

/-- A latched zone (R459), BLANK or a failed engine SRAM keep the group from arming; a die in hold takes no command, and one
whose logic ground is lost refuses the arm instead (R105, R110). -/
def lsArmIgnored (s : State) (g : Nat) : Bool :=
  (s.lsHeld (4 * g) && !(s.dieAt (3 + g / 4)).lgnd) || s.flag ⟨R.thLatch, 7 + g, 1⟩ || s.lifeCycle == 0 || !s.engineSram

/-- Arming of group g (R105): the status answered. -/
def groupArm (s : State) (g : Nat) : State × Nat :=
  if s.lsArmed g then (s, St.ok)
  else if lsArmIgnored s g then (s, St.target)
  else if lsArmErr s g ≠ 0 then
    ((s.set (R.lsGstatErr g) (lsArmErr s g)).log 0x080E (d8 g ++ d8 (lsArmErr s g)), St.target)
  else
    let t := (s.set (R.lsGctrlArm g) 1).pwrBit (9 + g / 4) false
    let t := loopsFromZero (t.setLsG g { t.lsG g with failed := false }) 2 g
    let t := (bankChans g).foldl (fun u n => if u.lsOn n then lsSwitchOn u n else u) t
    (thermalEstimate t, St.ok)

/-- GROUP_ARM (R105). -/
def execGroupArm (g : Nat) (s : State) : Res := if g > 7 then .next s else .next (groupArm s g).1

/-- Disarming turns every channel of the group off (R105). -/
def groupDisarm (s : State) (g : Nat) : State :=
  if s.lsArmed g then (bankChans g).foldl lsTurnOff (s.set (R.lsGctrlArm g) 0) else s

/-- GROUP_DISARM (R105). -/
def execGroupDisarm (g : Nat) (s : State) : Res :=
  if g > 7 ∨ s.lsHeld (4 * g) then .next s else .next (groupDisarm s g)

/-- A write of LS_GCTRL at its die. -/
def lsGctrlWrite (s : State) (g : Nat) (v : Word) : State := if bit v 0 then (groupArm s g).1 else groupDisarm s g

/-- A write to the register at offset o of the block LS takes effect at its die (R93, R94): the ERR code, 0 for none. -/
def lsApply (s : State) (o : Nat) (v : Word) (field : Option Nat) : State × Nat :=
  let a := 0x20040000 + o
  let n := (o - 0x1000) / 0x80
  if o < 0x1000 then (if o % 0x40 = 0 then lsGctrlWrite s ((o - 0x100) / 0x40) v else plainWrite s a v, 0)
  else if o % 0x80 = 0 then lsCctrlWrite s n v
  else lsChannelWrite s n (o % 0x80) v field

/-- The fail state of a channel (R106, R110). -/
def lsFail (s : State) (n : Nat) : State :=
  let kind := if (s.dieAt (State.lsDie n)).lgndHold then 0 else s.get (R.lsCctrlFail n)
  let v := s.get (R.lsCfailvValue n)
  let on := s.lsOn n
  if kind = 0 then
    let t := s.set (R.lsCctrlOn n) 0
    if on then lsEdge t n true else t
  else if kind = 1 ∨ s.lsMode n = 0 then s
  else if s.lsMode n = 2 then
    let t := (s.set (R.lsCdutyDuty n) v).set (R.lsCctrlOn n) 1
    lsEdge (if on then t else t.setLsC n { t.lsC n with duty := v }) n on
  else lsEdge (s.put (R.lsCctrlOn n) (v != 0)) n on

/-- The hold timer of group g expires; a group whose channels have all gone to OFF disarms (R106). -/
def groupHoldExpiry (s : State) (g : Nat) : State :=
  let all := (bankChans g).all fun n =>
    s.get (R.lsCctrlFail n) == 0 || (s.dieAt (3 + g / 4)).lgndHold
  let t := (bankChans g).foldl lsFail (s.set (R.lsGstatHolding g) 0)
  let t := t.setLsG g { holdEnd := none, failed := true }
  let t := if all then t.set (R.lsGctrlArm g) 0 else t
  (lsGroupDiag t g 1).tell (3 + g / 4) [.irq 40, .event 0x080C (d8 g)]

/-- GROUP_HOLD_EXPIRY (R106). -/
def execGroupHoldExpiry (g : Nat) (s : State) : Res :=
  match (s.lsG g).holdEnd with
  | none => .next s
  | some t => if g > 7 then .next s else .next (groupHoldExpiry (s.passTo t) g)

/-- The groups of a switch die. -/
def dieGroups (d : Nat) : List Nat := bankChans (d - 3)

/-- The groups of a switch die enter hold (R84, R106); it goes on counting frames from the last stage frame (R85). -/
def lsHoldEntry (s : State) (d : Nat) : State :=
  let t := s.setDie d { s.dieAt d with hold := true, grid := s.stage.grid }
  let t := t.tell d [.bits R.lsStat (2 + (d - 3)) 1 1, .irq 40, .event 0x080B (d8 d)]
  (dieGroups d).foldl (fun u g =>
    let h := u.get (R.lsGholdHoldMs g)
    let u := lsGroupDiag ((u.setLsG g { holdEnd := some (u.now + ms h) }).set (R.lsGstatHolding g) 1) g 0
    if h = 0 then groupHoldExpiry u g else u) t

/-- Deferral of VBAT_C (2) or VBAT_D (3) begins or ends at its groups. -/
def lsDeferFlag (s : State) (k : Nat) (on : Bool) : State :=
  (dieGroups (k + 1)).foldl (fun t g => lsGroupDiag (t.put (R.lsGstatDefer g) on) g 2)
    (s.tell (k + 1) [.bits R.lsStat (5 + k) 1 (if on then 1 else 0), .irq 41])

/-- LS_DEFERRAL_ENTRY (R108): the input of VBAT_C (2) or VBAT_D (3) exceeds 40 V; its peak in 0.1 V. -/
def execLsDeferralEntry (k decivolt : Nat) (s : State) : Res :=
  if k < 2 ∨ k > 3 ∨ decivolt ≤ 400 ∨ s.flag (R.lsGstatDefer (4 * (k - 2))) then .next s
  else .next ((lsDeferFlag s k true).tell (k + 1) [.event 0x080D (d8 k ++ d16 decivolt)])

/-- A deferred action runs. -/
def lsRunDeferred (s : State) (e : Nat × Bool) : State :=
  if e.2 = false then lsOffNow s e.1
  else
    let t := if s.lsPhase e.1 = 6 then s.setLsPhase e.1 0 else s
    if t.lsOn e.1 ∧ t.lsArmed (e.1 / 4) then lsSwitchOn t e.1 else t

/-- LS_DEFERRAL_END (R108): the input falls below 38 V, and the deferred actions run in order of request. -/
def execLsDeferralEnd (k decivolt : Nat) (s : State) : Res :=
  if k < 2 ∨ k > 3 ∨ decivolt ≥ 380 ∨ s.flag (R.lsGstatDefer (4 * (k - 2))) = false then .next s
  else
    let mine := fun e : Nat × Bool => e.1 / 16 == k - 2
    let todo := s.stage.lsDefer.filter mine
    let t := lsDeferFlag s k false
    let t := { t with stage := { t.stage with lsDefer := t.stage.lsDefer.filter fun e => !mine e } }
    .next (todo.foldl lsRunDeferred t)

/-! Resets and stop of a switch die -/

/-- The channels of switch die d. -/
def dieChans (d : Nat) : List Nat := (List.range 16).map fun k => 16 * (d - 3) + k

/-- Whether an address is a register of switch die d. -/
def lsDieReg (d a : Nat) : Bool :=
  (R.lsGctrl (4 * (d - 3)) ≤ a && a < R.lsGctrl (4 * (d - 3)) + 0x100)
    || (R.lsCctrl (16 * (d - 3)) ≤ a && a < R.lsCctrl (16 * (d - 3)) + 0x800)

/-- Every output of the die off and its registers at their reset values; loops keep their channels (R112, R427). -/
def lsDieClear (s : State) (d : Nat) : State :=
  let owned := (dieChans d).filter fun n => s.flag (R.lsCstatOwned n)
  let t := { s with
    regs := s.regs.filter fun e => !lsDieReg d e.1,
    stage := { s.stage with
      posted := s.stage.posted.filter fun p => dieOfReg p.addr != some d,
      lsCh := s.stage.lsCh.filter fun e => e.1 / 16 != d - 3,
      lsGrp := s.stage.lsGrp.filter fun e => e.1 / 4 != d - 3,
      lsDefer := s.stage.lsDefer.filter fun e => e.1 / 16 != d - 3 } }
  let t := (dieChans d).foldl (fun u n => u.setLsC n { u.lsC n with leakAt := s.now }) t
  let t := owned.foldl (fun u n => u.set (R.lsCstatOwned n) 1) t
  (t.setDie d { s.dieAt d with hold := false, stopped := true, lgndHold := false, filt := 4,
                               inA := s.stop.inA, inB := s.stop.inB }).tell d
    (if (s.dieAt d).hold then [.bits R.lsStat (2 + (d - 3)) 1 0] else [])

/-- LS_DIE_RESET (R112): the logic supply of switch die d (3 or 4) falls below 4.5 V. -/
def execLsDieReset (d : Nat) (s : State) : Res :=
  if d < 3 ∨ d > 4 then .next s else .next ((lsDieClear s d).tell d (dieResetReports d))

/-- A stop at a switch die (R107): every channel off, ARM cleared, ramps ended; it overrides deferral (R31). -/
def lsStageStop (s : State) (d : Nat) : State :=
  let t := { s with stage := { s.stage with lsDefer := s.stage.lsDefer.filter fun e => e.1 / 16 != d - 3 } }
  let t := (dieGroups d).foldl (fun u g => u.set (R.lsGctrlArm g) 0) t
  (dieChans d).foldl lsOffNow (t.setDie d { t.dieAt d with stopped := true })

end Sys2Proof.Machine
end

