-- ==== Sys2Proof/Machine/Dies.lean ====
section
/-!
DEFINITION. The stage link and the stage dies as wholes: register writes on their way to a die, status frames, link
supervision, hold entry, ground faults, the stop at the stages and the stage clear line (02_control_engine.md R56,
03_solenoid_drive.md R61, R84, 04_load_switches.md R94, R109, R110, 19_reset_retention.md R427).
-/
namespace Sys2Proof.Machine

/-! Register writes (R61, R94) -/

/-- A posted write takes effect at its die: the ERR code, 0 for none. -/
def stageApply (s : State) (p : Post) : State × Nat :=
  if p.addr / 65536 = 0x2003 then sdApply s (p.addr % 65536) (p.word s) p.field
  else lsApply s (p.addr % 65536) (p.word s) p.field

/-- The dies as the writes on their way will leave them: what the registers hold for software, and what the main die judges
a new write by. -/
def stagePreview (s : State) : State := s.stage.posted.foldl (fun u p => (stageApply u p).1) s

/-- A die is in hold and takes no command (R84, R252). -/
def heldReg (s : State) (a : Nat) : Bool := (dieOfReg a).any fun d => (s.dieAt d).hold

/-- ERR of the channel whose control register stands at an address takes a code. -/
def stageErr (s : State) (a e : Nat) : State :=
  let o := a % 65536
  if e = 0 ∨ o < 0x1000 then s
  else if a / 65536 = 0x2003 then sdErr s ((o - 0x1000) / 0x80) e
  else s.set (R.lsCstatErr ((o - 0x1000) / 0x80)) e

/-- A write to a control register of a stage die, of the whole word or of the field at one bit (R60, R61, R93): the ERR code.
A write that is refused as a whole goes no further; any other takes effect with the stage frame that the main die assembles
6.00 µs after a frame boundary, one boundary later. An arm of a group whose logic ground is lost is refused at once
(R105). -/
def stagePost (s : State) (a : Nat) (v : Word) (field : Option Nat) : State × Nat :=
  let p : Post := ⟨a, v, field, if s.now - s.stage.grid.2 < 6000 then 1 else 2⟩
  let e := (stageApply (stagePreview s) p).2
  let g := (a % 65536 - 0x100) / 0x40
  if a / 65536 = 0x2004 ∧ a % 65536 < 0x1000 ∧ a % 0x40 = 0 ∧ (s.dieAt (3 + g / 4)).lgnd ∧ bit (p.word s) 0 then
    ((groupArm s g).1, 0)
  else if [1, 3, 5].contains e then (stageErr s a e, e)
  else ((stageErr s a e).post p, e)

/-- A frame boundary: the writes of the stage frame before it take effect, in order. Those to a die in hold do not reach it
(R252). -/
def stageDeliver (s : State) : State :=
  let due := fun p : Post => decide (p.wait ≤ 1) && !heldReg s p.addr
  let t := { s with stage := { s.stage with
    posted := (s.stage.posted.filter fun p => !due p).map fun p => { p with wait := p.wait - 1 } } }
  (s.stage.posted.filter due).foldl (fun u p => (stageApply u p).1) t

/-- A command that takes effect at its die now: an ON command, a write of the control register. A die in hold does not take
it; it stands in the register until reclaim (R252). -/
def stageNow (s : State) (a : Nat) (v : Word) (field : Option Nat) : State :=
  if heldReg s a then s.post ⟨a, v, field, 1⟩ else (stageApply s ⟨a, v, field, 1⟩).1

/-- What software reads from a register of a stage die: control fields as last written, the state of the die as the last
status frame reported it (R61, R84). -/
def stageRd (s : State) (a : Nat) : Word :=
  if dieOfReg a = none then s.rd a
  else
    let view := (stagePreview s).rd a
    let seen := Tbl.get s.stage.seen (regReset a) a
    BitVec.ofNat 32 ((fieldsAt a).foldl (fun (w : Nat) d =>
      let src := if reportedField a d.lsb then seen else if d.access == .rw then view else s.rd a
      w + fieldOf src.toNat d * 2 ^ d.lsb) 0)

/-- SD_ON_COMMAND (R60): ON = 1. -/
def execSdOnCommand (n : Nat) (s : State) : Res :=
  if n > 47 then .next s else .next (stageNow s (R.sdCctrl n) 1 (some 0))

/-- SD_OFF_COMMAND (R67): ON = 0. -/
def execSdOffCommand (n : Nat) (s : State) : Res :=
  if n > 47 then .next s else .next (stageNow s (R.sdCctrl n) 0 (some 0))

/-- SD_MODE_WRITE (R60): a write of SD_CCTRL. -/
def execSdModeWrite (n : Nat) (value : Word) (s : State) : Res :=
  if n > 47 then .next s else .next (stageNow s (R.sdCctrl n) value none)

/-- LS_SWITCH_ON (R94): ON = 1. -/
def execLsSwitchOn (n : Nat) (s : State) : Res :=
  if n > 31 then .next s else .next (stageNow s (R.lsCctrl n) 1 (some 0))

/-- LS_SWITCH_OFF (R101): ON = 0. -/
def execLsSwitchOff (n : Nat) (s : State) : Res :=
  if n > 31 then .next s else .next (stageNow s (R.lsCctrl n) 0 (some 0))

/-- LS_MODE_WRITE (R93): a write of LS_CCTRL. -/
def execLsModeWrite (n : Nat) (value : Word) (s : State) : Res :=
  if n > 31 then .next s else .next (stageNow s (R.lsCctrl n) value none)

/-! Status frames (R56, R84) -/

/-- The measurement registers that the status frames of die d report. -/
def dieMeasure (d a : Nat) : Bool :=
  if d < 3 then (upTo 12 fun b => b / 4 == d).any (fun b => R.sdBmeas b == a)
    || (upTo 48 fun n => n / 16 == d).any (fun n => R.sdCmeas n == a)
  else (dieGroups d).any (fun g => R.lsGtemp g == a || R.lsGmeas g == a)
    || (dieChans d).any (fun n => R.lsCmeas n == a)

/-- CHAN of every bank or group of a die: a channel has a diagnostic bit set; the odd halves of pairs follow. -/
def dieChanBits (s : State) (d : Nat) : State :=
  if d < 3 then
    [4 * d, 4 * d + 1, 4 * d + 2, 4 * d + 3].foldl (fun t b =>
      let t := (bankChans b).foldl sdMirror t
      t.put (R.sdBdiagChan b) ((bankChans b).any fun n => t.rd (R.sdCdiag n) != 0)) s
  else (dieGroups d).foldl (fun t g =>
    t.put (R.lsGdiagChan g) ((bankChans g).any fun n => t.rd (R.lsCdiag n) != 0)) s

/-- LINK of die d in SD_STAT or LS_STAT: its valid frames arrive. -/
def linkBit (d : Nat) : Fld := if d < 3 then ⟨R.sdStat, d, 1⟩ else ⟨R.lsStat, d - 3, 1⟩

/-- The main die takes over what the status frame of die d reports of its registers. -/
def dieSeen (s : State) (d : Nat) : State :=
  let mine := fun e : Nat × Word => dieOfReg e.1 == some d
  { s with stage := { s.stage with
      seen := (s.regs.filter mine).foldl (fun t e => Tbl.insert t e.1 e.2) (s.stage.seen.filter fun e => !mine e) } }

/-- The status frame of die d with a sequence number is valid: its CRC-16 is correct and the number is the next (R56). The
first one after a reset of the main die has no predecessor (log entry 115). -/
def statusValid (s : State) (d seq : Nat) (crcOk : Bool) : Bool :=
  crcOk && (s.dieAt d).status.all fun l => seq == l + 1

/-- STATUS_FRAME_RECEIVE (R84, R56): a status frame of die d, with the measurements it carries. What an invalid one carries
is not used. -/
def execStatusFrameReceive (d seq : Nat) (crcOk : Bool) (measured : List (Nat × Nat)) (s : State) : Res := gated s 4 <|
  if d > 4 then .next s
  else
    let x := if crcOk then { s.dieAt d with status := some seq } else s.dieAt d
    if statusValid s d seq crcOk = false then .next (s.setDie d x)
    else
      let t := (measured.filter fun m => dieMeasure d m.1).foldl (fun u m => u.wr m.1 (BitVec.ofNat 32 m.2))
        (s.set (linkBit d) 1)
      let t := x.reports.foldl State.record (t.setDie d { x with reports := [], arrived := true })
      .next (dieSeen (dieChanBits t d) d)

/-- A frame ends: its stage frame has brought FILT to every die that is not in hold (R127), and the frames without and with
a valid status frame are counted for every die, once the link master has run
for 3 frames (R56). -/
def linkSupervise (s : State) : State :=
  let s := (List.range 5).foldl (fun (u : State) d =>
    if (u.dieAt d).hold then u else u.setDie d { u.dieAt d with filt := u.get R.siStopcfgFilt }) s
  if s.ce.unwatched > 0 then { s with ce := { s.ce with unwatched := s.ce.unwatched - 1 } }
  else (List.range 5).foldl (fun (u : State) d =>
    let x := u.dieAt d
    u.setDie d (if x.arrived then { x with arrived := false, missed := 0, valid := min 3 (x.valid + 1) }
      else { x with missed := min 3 (x.missed + 1), valid := 0 })) s

/-- STAGE_LINK_LOSS (R56): in three consecutive frames the status frame of die d was missing or invalid. -/
def execStageLinkLoss (d : Nat) (s : State) : Res :=
  if d > 4 ∨ s.flag ⟨R.ceStat, 11 + d, 1⟩ ∨ (s.dieAt d).missed < 3 then .next s
  else .next ((((s.set ⟨R.ceStat, 11 + d, 1⟩ 1).set (linkBit d) 0).fire 3).log 0x0608 (d8 (2 ^ d) ++ d8 1))

/-- STAGE_LINK_RETURN (R56): in three consecutive frames a valid status frame of die d has arrived. -/
def execStageLinkReturn (d : Nat) (s : State) : Res :=
  if d > 4 ∨ s.flag ⟨R.ceStat, 11 + d, 1⟩ = false ∨ (s.dieAt d).valid < 3 then .next s
  else .next (((s.set ⟨R.ceStat, 11 + d, 1⟩ 0).fire 3).log 0x0608 (d8 (2 ^ d) ++ d8 0))

/-- A stage die enters hold (R84, R106). -/
def holdEntry (s : State) (d : Nat) : State :=
  if (s.dieAt d).hold then s else if d < 3 then sdHoldEntry s d else lsHoldEntry s d

/-- STAGE_HOLD_ENTRY (R84): a stage die has received no valid frame for 1 ms. -/
def execStageHoldEntry (d : Nat) (s : State) : Res := if d > 4 then .next s else .next (holdEntry s d)

/-- Every output of a die off without a clamp event, its banks or groups disarmed (R109). -/
def powerGroundOff (s : State) (d : Nat) : State :=
  if d < 3 then
    [4 * d, 4 * d + 1, 4 * d + 2, 4 * d + 3].foldl (fun t b =>
      let t := (bankChans b).foldl (fun u n =>
        let u := sdTurnOff u n
        sdMirror (if u.sdPhase n = 6 then u.setSdPhase n 0 else u) n) t
      (((t.set (R.sdBctrlArm b) 0).set (R.sdBstatBswOn b) 0).set (R.sdBstatGranted b) 0).dropSdDefer b) s
  else
    let t := (dieGroups d).foldl (fun u g => u.set (R.lsGctrlArm g) 0)
      { s with stage := { s.stage with lsDefer := s.stage.lsDefer.filter fun e => e.1 / 16 != d - 3 } }
    (dieChans d).foldl (fun u n => lsOffNow (u.setLsC n { u.lsC n with out := false }) n) t

/-- POWER_GROUND_LOSS (R109). -/
def execPowerGroundLoss (d : Nat) (s : State) : Res :=
  if d > 4 ∨ (s.dieAt d).pgnd then .next s
  else
    let t := powerGroundOff s d
    .next ((t.setDie d { t.dieAt d with pgnd := true }).tell d [.event 0x0810 (d8 d)])

/-- POWER_GROUND_RETURN (R109). -/
def execPowerGroundReturn (d : Nat) (s : State) : Res :=
  if d > 4 then .next s else .next (s.setDie d { s.dieAt d with pgnd := false })

/-- LGND of die d. -/
def lgndBit (d : Nat) : Nat × Nat := if d < 3 then (R.sdStat, 12 + d) else (R.lsStat, 9 + (d - 3))

/-- LOGIC_GROUND_LOSS (R110): the die enters hold at once. -/
def execLogicGroundLoss (d : Nat) (s : State) : Res :=
  if d > 4 ∨ (s.dieAt d).lgnd then .next s
  else
    let t := s.setDie d { s.dieAt d with lgnd := true, lgndHold := true }
    .next (holdEntry (t.tell d [.bits (lgndBit d).1 (lgndBit d).2 1 1, .irq 43, .event 0x0811 (d8 d)]) d)

/-- LOGIC_GROUND_RETURN (R110): LGND clears; the die leaves hold only through reclaim. -/
def execLogicGroundReturn (d : Nat) (s : State) : Res :=
  if d > 4 ∨ (s.dieAt d).lgnd = false then .next s
  else .next ((s.setDie d { s.dieAt d with lgnd := false }).tell d [.bits (lgndBit d).1 (lgndBit d).2 1 0])

/-- STAGE_STOP: the stop reaches every stage die (R87, R107, R31). -/
def stageStop (s : State) : State := [3, 4].foldl lsStageStop ([0, 1, 2].foldl sdStageStop s)

/-- Disarming of every bank and group (R416, R458, R284). -/
def disarmAll (s : State) : State :=
  (List.range 8).foldl groupDisarm ((List.range 12).foldl sdDisarm s)

/-- STAGE_CLEAR (R427): every output off, the registers of the dies at reset, the stop latches set; clamp events of the
turn-off still count. -/
def stageClear (s : State) : State :=
  let s := stageStop s
  let banks := upTo 12 fun b => (s.sdB b).clamp
  let chans := upTo 32 fun n => (s.lsC n).clamp
  let t := [3, 4].foldl lsDieClear ([0, 1, 2].foldl sdDieClear s)
  let t := banks.foldl (fun u b => u.setSdB b { u.sdB b with clamp := true }) t
  chans.foldl (fun u n => u.setLsC n { u.lsC n with clamp := true }) t

end Sys2Proof.Machine
end

