-- ==== Sys2Proof/Machine/Engine.lean ====
section
/-!
DEFINITION. The closed-loop control engine: frame grid, loop law, start, stop and reclaim (02_control_engine.md R32 to
R58, 19_reset_retention.md R429).
-/
namespace Sys2Proof.Machine

namespace State
def loopState (s : State) (n : Nat) : Nat := s.get (R.ceLstatState n)
/-- The shadow set of loop n (R50). -/
def loopShadow (s : State) (n : Nat) : List Word := (List.range 64).map fun i => s.rd (R.ceLctrl n + 4 * i)
end State

/-! Fields of a parameter set, by word -/
def pWord (l : List Word) (i : Nat) : Word := l.getD i 0
def pBits (l : List Word) (i lsb width : Nat) : Nat := bits (pWord l i) lsb width
def pPeriod (l : List Word) : Nat := pBits l 2 0 16
def pPhase (l : List Word) : Nat := pBits l 2 16 16
def pType (l : List Word) : Nat := pBits l 3 0 2
def pCh (l : List Word) : Nat := pBits l 3 8 6
/-- A flag of CE_LCTRL. -/
def pFlag (l : List Word) (k : Nat) : Bool := bit (pWord l 0) k
/-- The loop's T: the binary32 value nearest to P / 100,000 (R40). -/
def pT (l : List Word) : F32 := F32.ofRat (pPeriod l) 100000

/-- A point of the schedule table: x, KP, KI, KD (R42). -/
def pPoint (l : List Word) (j : Nat) : F32 × F32 × F32 × F32 :=
  (pWord l (32 + 4 * j), pWord l (33 + 4 * j), pWord l (34 + 4 * j), pWord l (35 + 4 * j))

/-- Interpolation of one gain between two points (R42). -/
def interp (s x0 x1 g0 g1 : F32) : F32 := F32.add g0 (F32.mul (F32.div (F32.sub s x0) (F32.sub x1 x0)) (F32.sub g1 g0))

/-- KP, KI and KD of a period (R42). -/
def gains (l : List Word) (s : F32) : F32 × F32 × F32 :=
  if pFlag l 7 = false then (pWord l 4, pWord l 5, pWord l 6)
  else if F32.le s (pPoint l 0).1 then (pPoint l 0).2
  else if F32.le (pPoint l 7).1 s then (pPoint l 7).2
  else
    let j := ((List.range 8).filter fun k => F32.le (pPoint l k).1 s).length - 1
    let a := pPoint l j
    let b := pPoint l (j + 1)
    (interp s a.1 b.1 a.2.1 b.2.1, interp s a.1 b.1 a.2.2.1 b.2.2.1, interp s a.1 b.1 a.2.2.2 b.2.2.2)

/-- The state a loop carries from one computed period to the next (CE_LSTATE). -/
structure LawState where
  r : F32
  y : F32
  u : F32
  i : F32
  d : F32
deriving DecidableEq, Repr

/-- The inputs of a period: set-point source, measurement, feedforward, schedule variable. -/
structure LawIn where
  src : F32
  y : F32
  f : F32
  s : F32
deriving DecidableEq, Repr

/-- What a computed period gives. `base` is the integrator before this period's advance. -/
structure LawOut where
  st : LawState
  base : F32
  raw : F32
  sat : Bool
  rlim : Bool
deriving DecidableEq, Repr

/-- The terms of the law that do not hold the integrator: r, e, p, d and ff + U0 (R40). -/
def lawTerms (l : List Word) (st : LawState) (x : LawIn) : F32 × F32 × F32 × F32 × F32 :=
  let g := gains l x.s
  let t := pT l
  let slew := F32.mul (pWord l 15) t
  let r := if F32.isZero (pWord l 15) then x.src
    else F32.add st.r (F32.clamp (F32.sub x.src st.r) (F32.neg slew) slew)
  let e := F32.sub r x.y
  let p := F32.mul g.1 (F32.sub (F32.mul (pWord l 8) r) x.y)
  let den := F32.add (pWord l 7) t
  let d := F32.sub (F32.mul (F32.div (pWord l 7) den) st.d) (F32.mul (F32.div g.2.2 den) (F32.sub x.y st.y))
  let ff := if pFlag l 8 then F32.mul (pWord l 9) x.f else 0
  (r, e, p, d, F32.add ff (pWord l 10))

/-- One period of the law (R40, R41, R52). `manual` is the manual output; `forced` is the value u_raw is to take, to
which the integrator is adjusted (R52, R54). No value: u_raw is not finite (R43). With a finite u_raw an integrator that is
not finite, which only manual operation with overflowing terms gives, does not make the period missed: R43 names u_raw alone
(log entry 116). -/
def law (l : List Word) (st : LawState) (x : LawIn) (manual forced : Option F32) : Option LawOut :=
  let (r, e, p, d, fu) := lawTerms l st x
  let t := pT l
  let ki := F32.mul (gains l x.s).2.1 t
  let rest := F32.add (F32.add p d) fu
  let i0 := match forced with
    | some v => F32.sub (F32.sub v rest) (F32.mul ki e)
    | none => st.i
  let iTry := match manual, forced with
    | some m, _ => F32.sub m rest
    | none, some v => F32.sub v rest
    | none, none => F32.add st.i (F32.mul ki e)
  let raw := match manual, forced with
    | some m, _ => m
    | none, some v => v
    | none, none => F32.add (F32.add (F32.add p iTry) d) fu
  let step := F32.mul (pWord l 13) t
  let u1 := if F32.lt 0 (pWord l 13) then F32.clamp raw (F32.sub st.u step) (F32.add st.u step) else raw
  let u := F32.clamp u1 (pWord l 11) (pWord l 12)
  let keep := (F32.lt u raw && F32.lt 0 e) || (F32.lt raw u && F32.lt e 0)
  let i := if manual.isNone && keep then i0 else iTry
  if F32.isFinite raw then some ⟨⟨r, x.y, u, i, d⟩, if manual.isSome then iTry else i0, raw, !F32.eq u u1, !F32.eq u1 raw⟩
  else none

/-! Samples and outputs -/

/-- The sample of a loop input at instant t: the latest up to t, within its maximum age, finite (R36, R43). -/
def loopSample (s : State) (c : Nat) (t : Time) : Option F32 :=
  match ((s.loopInput c).filter fun x => decide (x.ts ≤ t)).head? with
  | some x => if bound s c && decide (t ≤ x.ts + x.maxAge * 1000) && F32.isFinite x.value then some x.value else none
  | none => none

/-- The target takes the output: no stop latched, bank or group armed (R48). Type 0 has no channel. -/
def takesOutput (s : State) (l : List Word) : Bool :=
  match pType l with
  | 0 => true
  | 1 => !s.stopLatched && s.sdArmed (pCh l / 4)
  | _ => !s.stopLatched && s.lsArmed (pCh l / 4)

/-- The output of a loop reaches its channel (R46). -/
def convertOutput (s : State) (l : List Word) (u : F32) : State :=
  let c := pCh l
  if takesOutput s l = false then s
  else
    match pType l with
    | 0 => s
    | 1 =>
      let step := (F32.roundEven u 64 1).toNat
      if s.sdHeld c then s
      else s.set (R.sdCcurHold c) (min (max step (s.get (R.sdCrangeHmin c))) (s.get (R.sdCrangeHmax c)))
    | _ =>
      if s.lsHeld c then s
      else s.set (R.lsCdutyDuty c) (F32.roundEven (F32.clamp u 0 F32.one) 4000 1).toNat

/-- OWNED of a target. -/
def setOwned (s : State) (l : List Word) (b : Bool) : State :=
  match pType l with
  | 0 => s
  | 1 => s.put (R.sdCstatOwned (pCh l)) b
  | _ => s.put (R.lsCstatOwned (pCh l)) b

/-- A loop ends with state v and releases its channel (R49). -/
def loopEnd (s : State) (n v : Nat) : State :=
  let t := ((s.set (R.ceLstatState n) v).set (R.ceLctrlRun n) 0).set (State.bitAt (R.ceRun 0) n) 0
  (setOwned t (s.loopAt n).active false).setLoop n { s.loopAt n with stopPend := false, first := false, resume := none }

/-- A loop trips (R39). -/
def loopTrip (s : State) (n : Nat) : State :=
  let x := s.loopAt n
  let t := ((s.set (State.bitAt (R.ceTrip 0) n) 1).fire 8).log 0x0601 (d8 n ++ d8 x.missRun)
  if pFlag x.active 24 then
    let t := ((t.set (R.ceLstatState n) 3).set (R.ceLctrlRun n) 0).set (State.bitAt (R.ceRun 0) n) 0
    t.setLoop n { x with output := some (pWord x.active 17), safeOut := true, stopPend := true }
  else loopEnd t n 3

/-- A missed period (R39). -/
def loopMiss (s : State) (n : Nat) : State :=
  let x := { s.loopAt n with missRun := (s.loopAt n).missRun + 1 }
  let t := (s.setLoop n x).count (R.ceLmiss n)
  let lim := pBits x.active 0 16 8
  if lim ≠ 0 ∧ x.missRun ≥ lim then loopTrip t n else t

/-- The values of CE_LSTATE. -/
def loopLaw (s : State) (n : Nat) : LawState :=
  ⟨s.rd (R.ceLr n), s.rd (R.ceLy n), s.rd (R.ceLu n), s.rd (R.ceLi n), s.rd (R.ceLd n)⟩

/-- The set-point source of a period under a parameter set: constant, dictionary value at the sample instant, stream
(R45). -/
def setPointOf (l : List Word) (spd stream : F32) : F32 :=
  match pBits l 0 5 2 with
  | 0 => pWord l 14
  | 1 => spd
  | _ => stream

/-- The last valid set-point stream, feedforward and schedule variable of loop n at sample instant t (R44). -/
def loopTakes (s : State) (n : Nat) (t : Time) : LoopSt :=
  let x := s.loopAt n
  { x with
    lastSp := (loopSample s (4 * n + 1) t).getD x.lastSp, lastFf := (loopSample s (4 * n + 2) t).getD x.lastFf,
    lastS := (loopSample s (4 * n + 3) t).getD x.lastS }

/-- The manual output of a parameter set (R52). -/
def manualOf (s : State) (n : Nat) (l : List Word) : Option F32 := if pFlag l 4 then some (s.rd (R.ceLmanu n)) else none

/-- A computed period is counted (R57). A missing stream counts as a set-point hold only where it is the set-point source
(log entry 117). -/
def loopCounted (s : State) (n : Nat) (o : LawOut) (held : Bool) : State :=
  let s := (s.count (R.ceLexec n)).wr (R.ceLlastfrm n) (BitVec.ofNat 32 s.frame)
  let s := if held then s.count (R.ceLsphold n) else s
  let s := if o.sat then s.count (R.ceLsat n) else s
  if o.rlim then s.count (R.ceLrlim n) else s

/-- A computed period of loop n with the measurement y of sample instant t (R40 to R48). At the first firing y_prev is the
measurement, after RUN as after reclaim (R54; log entry 117). While the target takes no output u_prev is 0 and the integrator
does not advance; what MANUAL or a bumpless switch sets it to stands (R48, R52, R54). -/
def loopCompute (s : State) (n : Nat) (t : Time) (y : F32) : State :=
  let x := loopTakes s n t
  let a := x.active
  let inp : LawIn := ⟨setPointOf a x.spd x.lastSp, y, x.lastFf, x.lastS⟩
  let st := loopLaw s n
  let bump := pFlag a 3
  let st := if x.first then
      { st with r := if bump then y else inp.src, y := y, d := 0 }
    else st
  let takes := takesOutput s a
  let st := if takes then st else { st with u := 0 }
  let forced := if x.first then (if bump then x.resume else none)
    else if x.old.isEmpty then none
    else (law x.old st { inp with src := setPointOf x.old x.spd x.lastSp } (manualOf s n x.old) none).map (·.raw)
  match law a st inp (manualOf s n a) forced with
  | none => loopMiss (s.setLoop n x) n
  | some o =>
    let held := pBits a 0 5 2 == 2 && (loopSample s (4 * n + 1) t).isNone
    let s := s.setLoop n { x with first := false, resume := none, old := [], missRun := 0, output := some o.st.u,
                                  safeOut := false }
    let s := ((((s.wr (R.ceLr n) o.st.r).wr (R.ceLy n) o.st.y).wr (R.ceLu n) (if takes then o.st.u else 0)).wr (R.ceLi n)
      (if takes then o.st.i else o.base)).wr (R.ceLd n) o.st.d
    let s := loopCounted s n o held
    ((s.put (R.ceLstatSat n) o.sat).put (R.ceLstatRlim n) o.rlim).put (R.ceLstatSpHold n) held

/-- The measurement of a firing of an earlier run is missing or gives no finite output: it ends as a missed period. -/
def tailMiss (s : State) (n : Nat) : State × Option Firing := (s.count (R.ceLmiss n), none)

/-- A firing of an earlier run of loop n at the end of its delivery window, with its own set and law state (R49). -/
def tailCompute (s : State) (n : Nat) (f : Firing) (t : Time) : State × Option Firing :=
  match loopSample s (4 * n) t with
  | none => tailMiss s n
  | some y =>
    let x := loopTakes s n t
    let g := fun i => f.law.getD i 0
    let st : LawState := ⟨g 0, g 1, if takesOutput s f.set then g 2 else 0, g 3, g 4⟩
    match law f.set st ⟨setPointOf f.set f.spd x.lastSp, y, x.lastFf, x.lastS⟩ (manualOf s n f.set) none with
    | none => tailMiss (s.setLoop n x) n
    | some o =>
      let held := pBits f.set 0 5 2 == 2 && (loopSample s (4 * n + 1) t).isNone
      (loopCounted (s.setLoop n x) n o held, some { f with window := none, output := some o.st.u })

/-- One frame passes for a firing of an earlier run (R37, R49). -/
def tailStep (s : State) (n : Nat) (f : Firing) : State × Option Firing :=
  match f.window with
  | none => (s, some f)
  | some w => if w.1 ≤ 1 then tailCompute s n f w.2 else (s, some { f with window := some (w.1 - 1, w.2) })

/-- Event 0x0602: the fall-backs of the last second exceed the threshold, object 0x2000 + n:22 (R58). -/
def loopFallback (s : State) (n : Nat) : State :=
  let x := s.loopAt n
  let l := s.now :: x.fallbacks.filter fun t => decide (s.now < t + sec 1)
  let limit := s.objN (0x2000 + n) 0x22
  let t := ((s.setLoop n { x with fallbacks := l, window := some (pPeriod x.active - 1, s.time.dev) }).count (R.ceLfallback n)).set
    (R.ceLstatFbLast n) 1
  if limit ≠ 0 ∧ l.length = limit + 1 then t.log 0x0602 (d8 n ++ d16 l.length) else t

/-- LOOP_FIRING (R34 to R38, R50): loop n fires at the present boundary. A waiting APPLY copies the shadow set as it stands
now, with what was written to it since the APPLY and no new check (log entry 117). -/
def loopFire (s : State) (n : Nat) : State :=
  let x := s.loopAt n
  let pend := s.flag (R.ceLstatApplyPend n)
  let x := if pend then
      { x with active := s.loopShadow n,
               old := if bit (s.rd (R.ceLctrl n)) 3 ∧ x.first = false then x.active else [] }
    else x
  let x := { x with spd := s.rd (R.ceLspdict n) }
  let s := (((s.setLoop n x).set (R.ceLstatApplyPend n) 0).set (R.ceLstatState n) 2).set (R.ceLstatFbLast n) 0
  if pFlag x.active 2 then s.setLoop n { x with window := some (pPeriod x.active - 1, s.time.dev) }
  else
    match loopSample s (4 * n) s.time.dev with
    | some y => loopCompute s n s.time.dev y
    | none => loopFallback s n

/-- The deferred period of loop n ends its delivery window (R37, R39). -/
def loopWindowEnd (s : State) (n : Nat) (t : Time) : State :=
  let r := match loopSample s (4 * n) t with
    | some y => loopCompute s n t y
    | none => loopMiss s n
  r.setLoop n { r.loopAt n with window := none }

/-- The waiting outputs of firings of earlier runs are applied and published (R36, R49). -/
def tailOutputs (s : State) (n : Nat) : State :=
  let x := s.loopAt n
  (x.tails.filter fun f => f.output.isSome).foldl (fun u f =>
    let v := f.output.getD 0
    let t := convertOutput u f.set v
    if f.quiet then t else produce t (0x100 + n) s.time.dev v)
    (s.setLoop n { x with tails := x.tails.filter fun f => f.output.isNone })

/-- The waiting output of loop n is applied and published at its boundary (R36, R47). A loop that tripped with SAFE_MODE = 1
releases its channel once the safe value is applied (log entry 117). -/
def loopApplyOutput (s : State) (n : Nat) : State :=
  let s := tailOutputs s n
  let x := s.loopAt n
  match x.output with
  | none => s
  | some u =>
    let t := convertOutput (s.setLoop n { x with output := none, safeOut := false }) x.active u
    let t := if x.safeOut then t else produce t (0x100 + n) s.time.dev u
    if x.stopPend ∧ [0, 3].contains (t.loopState n) ∧ (t.loopAt n).window.isNone then loopEnd t n (t.loopState n) else t

/-- The deferred periods of loop n that are running come one frame nearer to their computation (R37, R49). -/
def loopWindows (s : State) (n : Nat) : State :=
  let r := (s.loopAt n).tails.foldl (fun (a : State × List Firing) f =>
    let q := tailStep a.1 n f
    (q.1, a.2 ++ q.2.toList)) (s, [])
  let s := r.1.setLoop n { r.1.loopAt n with tails := r.2 }
  match (s.loopAt n).window with
  | some w => if w.1 ≤ 1 then loopWindowEnd s n w.2 else s.setLoop n { s.loopAt n with window := some (w.1 - 1, w.2) }
  | none => s

/-- What loop n does at a frame boundary: a stop takes effect, a deferred period computes, u_prev stays 0 while its target
takes no output, and it fires (R34, R37, R48, R49). -/
def loopBoundary (s : State) (n : Nat) : State :=
  let x := s.loopAt n
  let s := if x.stopPend ∧ [1, 2, 4].contains (s.loopState n) then
      let t := ((s.set (R.ceLstatState n) 0).set (State.bitAt (R.ceRun 0) n) 0).set (R.ceLstatApplyPend n) 0
      if x.window.isNone then loopEnd t n 0 else t
    else s
  let s := loopWindows s n
  let x := s.loopAt n
  let s := if x.stopPend ∧ s.loopState n = 0 ∧ x.window.isNone ∧ x.output.isNone then loopEnd s n 0 else s
  if [1, 2].contains (s.loopState n) = false then s
  else
    let s := if takesOutput s x.active then s else s.wr (R.ceLu n) 0
    if x.startIn > 0 then s.setLoop n { s.loopAt n with startIn := x.startIn - 1 }
    else if s.flag R.ceCtrlEn ∧ pPeriod x.active ≠ 0 ∧ s.frame % pPeriod x.active = pPhase x.active then loopFire s n
    else s

/-! The frame grid -/

/-- Half nanoseconds that one frame trims (R32). -/
def frameTrim (ph : Int) : Int := if ph ≥ 5 then 5 else if ph ≤ -5 then -5 else 0

/-- CE_STAT and CE_GRID_ERR follow the phase error; half a nanosecond is rounded down (log entry 117). -/
def gridState (s : State) (ph : Int) : State :=
  let t := { s with ce := { s.ce with phase := ph } }
  ((t.put R.ceStatGridLock (decide (ph.natAbs ≤ 5))).put R.ceStatTrim (decide (ph.natAbs > 5))).wr R.ceGridErr
    (BitVec.ofInt 32 (ph / 2))

/-- Twice the device time of the next frame boundary in ns: the next multiple of 10,000 ns off by the phase error, which the
frame before it shortens or lengthens by at most 2.5 ns (R32). At a boundary itself half a nanosecond may be hidden in its
instant. -/
def nextBoundary (s : State) : Int :=
  let at2 : Int := 2 * s.time.dev + if s.now = s.stage.grid.2 then 1 else 0
  ((at2 - s.ce.phase) / 20000 + 1) * 20000 + (s.ce.phase - frameTrim s.ce.phase)

/-- FRAME_BOUNDARY (R32, R33, R61): the next frame boundary of the grid comes. CE_FRAME advances at each, before the first
enable and while EN = 0 as well (log entry 117). -/
def frameBoundary (s : State) : State :=
  let s := gridState (s.devTo (nextBoundary s / 2).toNat) (s.ce.phase - frameTrim s.ce.phase)
  let s := s.wr64 R.ceFrameLo (s.frame + 1)
  let s := { s with ce := { s.ce with lastBoundary := s.time.dev }, stage := { s.stage with grid := (s.frame, s.now) },
                    gh := { s.gh with queue := s.gh.queue.map fun c => { c with fresh := false } } }
  let s := stageDeliver (linkSupervise s)
  let s := (List.range 64).foldl loopApplyOutput s
  let s := (List.range 64).foldl loopBoundary s
  s.emit (.stageFrame s.frame)

/-- CE_FRAME_STEP (R33): device time stepped by d ns. -/
def ceFrameStep (s : State) (d : Int) : State :=
  let m := (d.natAbs + 4999) / 10000
  let w : Int := if d < 0 then -m else m
  let s := gridState s (s.ce.phase + 2 * (d - w * 10000))
  if s.flag R.ceCtrlEn = false ∨ w = 0 then s
  else
    (((s.wr R.ceFrameOfs (s.rd R.ceFrameOfs + BitVec.ofInt 32 w)).set R.ceStatPhslip 1).fire 12).log 0x0607
      (d32 (wrapInt 32 w))

/-! Enable, start, stop -/

/-- EN = 1 is refused where the engine SRAM failed, or the SYS PLL runs on the uncalibrated RC (Table 16-2, R397). -/
def engineAllowed (s : State) : Bool := s.engineSram && !(s.clk.sysRef == 2 && !s.flag R.ckStatCal)

/-- CE_ENABLE (R33). -/
def ceEnable (s : State) : State :=
  if s.flag R.ceCtrlEn ∨ engineAllowed s = false then s
  else ((s.set R.ceCtrlEn 1).wr64 R.ceFrameLo (s.time.dev / 10000)).wr R.ceFrameOfs 0

/-- CE_ENABLE (R33). -/
def execCeEnable (s : State) : Res := gatedField s 4 R.ceCtrlEn 1 (ceEnable s)

/-- RUN = 0: the loop stops at the next frame boundary (R49). -/
def loopStop (s : State) (n : Nat) : State :=
  if [1, 2, 4].contains (s.loopState n) then (s.set (R.ceLctrlRun n) 0).setLoop n { s.loopAt n with stopPend := true }
  else s.set (R.ceLctrlRun n) 0

/-- LOOP_STOP (R49). -/
def execLoopStop (n : Nat) (s : State) : Res :=
  if n > 63 then .next s else gatedField s 4 (R.ceLctrlRun n) 0 (loopStop s n)

/-- CE_DISABLE (R33). -/
def ceDisable (s : State) : State := (List.range 64).foldl loopStop (s.set R.ceCtrlEn 0)

/-- CE_DISABLE (R33). -/
def execCeDisable (s : State) : Res := gatedField s 4 R.ceCtrlEn 0 (ceDisable s)

/-- Another loop that owns the target of a parameter set (R46). -/
def ownedByOther (s : State) (n : Nat) (l : List Word) : Bool :=
  pType l != 0 && (upTo 64 fun m => m != n).any fun m =>
    ([1, 2, 4].contains (s.loopState m) || (s.loopAt m).stopPend)
      && pType (s.loopAt m).active == pType l && pCh (s.loopAt m).active == pCh l

/-- The target channel is in the mode that takes the output (R46, R51). -/
def targetOk (s : State) (l : List Word) : Bool :=
  match pType l with
  | 0 => true
  | 1 => decide (pCh l < 48) && s.sdMode (pCh l) == 2 && !oddHalf s (pCh l)
  | _ => decide (pCh l < 32) && s.lsMode (pCh l) == 2

/-- ERR 4 or 5 of a parameter set; 0 none (R50, R51): a value that is not finite, the schedule table included, or out of
its range; breakpoints that do not rise. -/
def paramErr (l : List Word) : Nat :=
  let pars := ((List.range 12).map fun i => pWord l (4 + i)) ++ [pWord l 17, pWord l 19]
    ++ (List.range 32).map fun i => pWord l (32 + i)
  let points := (List.range 8).map (pPoint l)
  let neg := fun x : F32 => F32.lt x 0
  if (pars.any fun x => !F32.isFinite x) || neg (pWord l 5) || neg (pWord l 7) || neg (pWord l 15)
      || neg (pWord l 13) || F32.lt (pWord l 12) (pWord l 11)
      || (pFlag l 7 && points.any fun p => neg p.2.2.1) then 4
  else if pFlag l 7 && (List.range 7).any fun j => !F32.lt (pPoint l j).1 (pPoint l (j + 1)).1 then 5
  else 0

/-- The ERR of a start; 0 none (R51). -/
def startErr (s : State) (n : Nat) (l : List Word) : Nat :=
  if ownedByOther s n l then 1 else if !targetOk s l then 2 else if pPhase l ≥ pPeriod l then 3 else paramErr l

/-- The present command of the target channel in the output unit (R51). -/
def presentCommand (s : State) (l : List Word) : F32 :=
  let c := pCh l
  match pType l with
  | 0 => 0
  | 1 => if s.sdOn c && s.sdArmed (c / 4) then stepsA (sdReference s c) else 0
  | _ => if s.lsOn c && s.lsArmed (c / 4) then F32.ofRat (s.get (R.lsCdutyDuty c)) 4000 else 0

/-- The firing of a stopped loop that still completes, as a firing of an earlier run (R49). -/
def loopTail (s : State) (n : Nat) : List Firing :=
  let x := s.loopAt n
  let st := loopLaw s n
  if x.window.isSome || x.output.isSome then [⟨x.active, x.window, [st.r, st.y, st.u, st.i, st.d], x.spd, x.output, x.safeOut⟩]
  else []

/-- LOOP_RUN (R51): RUN = 1. Between RUN = 0 and the boundary at which the stop takes effect it is ignored: the loop is not
stopped yet (log entry 117). The first firing lies at least one whole frame after the write (R34). -/
def loopRun (s : State) (n : Nat) : State :=
  let l := s.loopShadow n
  if s.loopState n ≠ 0 then (if s.loopState n = 3 then s.set (R.ceLctrlRun n) 0 else s)
  else if startErr s n l ≠ 0 then
    ((((s.set (R.ceLctrlRun n) 0).set (R.ceLstatErr n) (startErr s n l)).fire 9).log 0x0603
      (d8 n ++ d8 (startErr s n l)))
  else
    let s := if (s.loopAt n).stopPend then loopEnd s n 0 else s
    let x := s.loopAt n
    let u := presentCommand s l
    let held := s.flag R.ceStatHeld
    let s := s.setLoop n { active := l, startIn := if s.now = s.stage.grid.2 then 0 else 1, first := true,
                           spd := s.rd (R.ceLspdict n), lastSp := x.lastSp, lastFf := x.lastFf, lastS := x.lastS,
                           fallbacks := x.fallbacks, tails := x.tails ++ loopTail s n }
    let s := ((s.set (R.ceLstatState n) (if held then 4 else 1)).set (R.ceLctrlRun n) 1).set (R.ceLstatApplyPend n) 0
    let s := setOwned (s.set (State.bitAt (R.ceRun 0) n) 1) l true
    ((s.wr (R.ceLi n) (pWord l 19)).wr (R.ceLd n) 0).wr (R.ceLu n) u

/-- LOOP_RUN (R51). -/
def execLoopRun (n : Nat) (s : State) : Res :=
  if n > 63 then .next s else gatedField s 4 (R.ceLctrlRun n) 1 (loopRun s n)

/-- After a start every loop with auto-start 1 gets RUN once GRID_LOCK reads 1 (02_control_engine.md, dictionary objects;
R53 step 2). -/
def autoStart (s : State) : State :=
  if s.ce.autoStart && s.flag R.ceStatGridLock then
    (upTo 64 fun n => s.objN (0x2000 + n) 0x02 == 1).foldl loopRun { s with ce := { s.ce with autoStart := false } }
  else s

/-- FRAME_BOUNDARY (R32). -/
def execFrameBoundary (s : State) : Res := gated s 4 <| .next (autoStart (frameBoundary s))

/-- LOOP_APPLY (R50). -/
def loopApply (s : State) (n : Nat) : State × Nat :=
  let l := s.loopShadow n
  let a := (s.loopAt n).active
  let running := [1, 2, 4].contains (s.loopState n)
  let fixed := pWord l 2 ≠ pWord a 2 ∨ pType l ≠ pType a ∨ pCh l ≠ pCh a ∨ pFlag l 2 ≠ pFlag a 2
  if running ∧ fixed then (s.set (R.ceLstatErr n) 7, 7)
  else if paramErr l ≠ 0 then (s.set (R.ceLstatErr n) (paramErr l), paramErr l)
  else (s.set (R.ceLstatApplyPend n) 1, 0)

/-- LOOP_APPLY (R50). -/
def execLoopApply (n : Nat) (s : State) : Res :=
  if n > 63 then .next s else gatedField s 4 (R.ceLctrlApply n) 1 (loopApply s n).1

/-- A write of the dictionary set-point of loop n (R45); the steering watch sees it (R267). -/
def setPointWrite (s : State) (n : Nat) (v : F32) : State :=
  let s := s.wr (R.ceLspdict n) v
  { s with steer := { s.steer with writeAt := Tbl.set s.steer.writeAt 0 n s.now } }

/-- LOOP_TRIPCLR (R51). -/
def loopTripclr (s : State) (n : Nat) : State := if s.loopState n = 3 then s.set (R.ceLstatState n) 0 else s

/-- LOOP_TRIPCLR (R51). -/
def execLoopTripclr (n : Nat) (s : State) : Res :=
  if n > 63 then .next s else gatedField s 4 (R.ceLctrlTripclr n) 1 (loopTripclr s n)

/-- The counters of a loop (R57). -/
def loopCounters (n : Nat) : List Nat :=
  [R.ceLexec n, R.ceLfallback n, R.ceLmiss n, R.ceLsphold n, R.ceLsat n, R.ceLrlim n, R.ceLlastfrm n]

/-- A write of CE_LCTRL: shadowed fields, then CLRCNT, TRIPCLR, RUN and APPLY (R49 to R51, R57). -/
def lctrlWrite (s : State) (n : Nat) (v : Word) : State :=
  let run := s.get (R.ceLctrlRun n)
  let t := plainWrite s (R.ceLctrl n) v
  let t := t.set (R.ceLctrlRun n) run
  let t := if bit v 9 then t.clearAll (loopCounters n) else t
  let t := if bit v 10 then loopTripclr t n else t
  let t := if bit v 0 then loopRun t n else loopStop t n
  if bit v 1 then (loopApply t n).1 else t

/-! Reclaim -/

/-- RECLAIM (R53): ignored unless HELD = 1. -/
def reclaim (s : State) : State :=
  if s.flag R.ceStatHeld then { s with ce := { s.ce with reclaim := true } }.set R.ceStatRecl 1 else s

/-- RECLAIM (R53). -/
def execReclaim (s : State) : Res := gatedField s 4 R.ceCtrlReclaim 1 (reclaim s)

/-- A write of CE_CTRL. -/
def ceCtrlWrite (s : State) (v : Word) : State :=
  let t := if bit v 0 then ceEnable s else ceDisable s
  if bit v 1 then reclaim t else t

/-- A stage die leaves hold (R53 step 4). -/
def leaveHold (s : State) (d : Nat) : State :=
  let t := s.setDie d { s.dieAt d with hold := false, lgndHold := false }
  let t := { t with stage := { t.stage with posted := t.stage.posted.filter fun p => dieOfReg p.addr != some d } }
  let t := t.set (if d < 3 then ⟨R.sdStat, 3 + d, 1⟩ else ⟨R.lsStat, 2 + (d - 3), 1⟩) 0
  if d < 3 then
    [4 * d, 4 * d + 1, 4 * d + 2, 4 * d + 3].foldl (fun u b =>
      (u.setSdB b { u.sdB b with holdEnd := none, failed := false }).set (R.sdBstatHolding b) 0) t
  else (dieGroups d).foldl (fun u g => (u.setLsG g {}).set (R.lsGstatHolding g) 0) t

/-- A die whose hold expired before reclaim (R55). -/
def holdExpired (s : State) (d : Nat) : Bool :=
  if d < 3 then (upTo 12 fun b => b / 4 == d).any fun b => (s.sdB b).failed
  else (dieGroups d).any fun g => (s.lsG g).failed

/-- Dies as a mask. -/
def dieMask (l : List Nat) : Nat := (l.map fun d => 2 ^ d).sum

/-- A loop in HELD takes the reported state of its channel into u_prev, and a dictionary set-point its measurement
(R53 step 3, R429). -/
def reclaimLoop (s : State) (n : Nat) : State :=
  if s.loopState n ≠ 4 then s
  else
    let x := s.loopAt n
    let u := presentCommand s x.active
    let s := (s.setLoop n { x with resume := some u }).wr (R.ceLu n) u
    match pBits x.active 0 5 2, loopSample s (4 * n) s.time.dev with
    | 1, some y => s.wr (R.ceLspdict n) y
    | _, _ => s

/-- A loop in HELD fires on its schedule from the next boundary. -/
def resumeLoop (s : State) (n : Nat) : State :=
  if s.loopState n ≠ 4 then s
  else (s.setLoop n { s.loopAt n with startIn := 0 }).set (R.ceLstatState n) 1

/-- The reset record is completed at reclaim: STAGES and the hold time in ms (R436). -/
def recordReclaim (s : State) (expired : Bool) : State :=
  let l := s.ps.record
  let used := min ((s.now - s.ce.resetAt) / 1000000) 0xFFFE
  if natAt l 21 1 = 1 then
    { s with ps := { s.ps with record := patch l 21 (leBytes 1 (if expired then 3 else 1) ++ leBytes 2 used) } }
  else s

/-- RECLAIM_FRAME (R53 steps 3 to 5, R54, R55), with STAGE_RECLAIM_CHECK: `bad` is the mask of dies that do not receive
the reclaim frame or find a difference. -/
def execReclaimFrame (bad : Nat) (s : State) : Res := gated s 4 <|
  if s.ce.reclaim = false then .next s
  else
    let s := { s with ce := { s.ce with reclaim := false } }
    let s := (List.range 64).foldl reclaimLoop s
    let held := upTo 5 fun d => (s.dieAt d).hold
    let mis := held.filter fun d => bad / 2 ^ d % 2 == 1 || (s.dieAt d).lgnd
    let ok := held.filter fun d => !mis.contains d
    let expired := held.filter (holdExpired s)
    let s := if expired.isEmpty then s else s.log 0x0606 (d8 (dieMask expired))
    let s := ok.foldl leaveHold s
    let s := s.set R.ceStatReclDie (dieMask mis)
    if mis.isEmpty then
      let s := (((s.set R.ceStatRecl 2).set R.ceStatHeld 0).fire 10).log 0x0604 (d32 ((s.now - s.ce.resetAt) / 1000000))
      .next ((List.range 64).foldl resumeLoop (recordReclaim s !expired.isEmpty))
    else .next (((s.set R.ceStatRecl 3).fire 11).log 0x0605 (d8 (dieMask mis)))

end Sys2Proof.Machine
end

