-- ==== Sys2Proof/Machine/Tagged.lean ====
section
/-!
DEFINITION. Tagged operations: submission, refusal, the completion ring and acknowledgement (01_architecture.md R24 and
R25, 15_processors_interrupts.md R361 to R363).
-/
namespace Sys2Proof.Machine

namespace TagQueue

/-- Occupied slots: an operation holds its slot from submission to acknowledgement (R25). -/
def occupied (q : TagQueue) : Nat := q.ops.length + q.unacked.length

/-- The tags of the occupied slots. -/
def tags (q : TagQueue) : List Nat := q.ops.map (·.tag) ++ q.unacked

/-- The outcome of a submission: 0 accepted, 1 full, 2 duplicate tag, 3 address (R361). -/
def refusal (q : TagQueue) (slots tag : Nat) (addressOk : Bool) : Nat :=
  if addressOk = false then 3 else if slots ≤ q.occupied then 1 else if q.tags.contains tag then 2 else 0

/-- An accepted operation enters its slot. -/
def submit (q : TagQueue) (op : TagOp) : TagQueue := { q with ops := q.ops ++ [op] }

/-- The operation of a tag. -/
def find (q : TagQueue) (tag : Nat) : Option TagOp := q.ops.find? fun o => o.tag == tag

/-- How many operations run. -/
def running (q : TagQueue) : Nat := (q.ops.filter (·.started)).length

/-- The first operation not started, if no fence holds it: with a fence nothing earlier may be left (R362). -/
def nextToStart (fence : TagOp → Bool) : List TagOp → Option TagOp
  | [] => none
  | o :: l =>
    if o.started then (nextToStart fence l).filter fun x => !fence x
    else some o

/-- The operation of a tag starts at instant t. -/
def start (q : TagQueue) (tag t : Nat) : TagQueue :=
  { q with ops := q.ops.map fun o => if o.tag = tag then { o with started := true, since := t } else o }

/-- The operation of a tag completes: its entry enters the ring, its slot stays occupied. -/
def finish (q : TagQueue) (tag : Nat) : TagQueue :=
  { ops := q.ops.filter fun o => o.tag != tag, unacked := q.unacked ++ [tag], written := q.written + 1 }

/-- Software acknowledges n entries, which frees their slots. -/
def ack (q : TagQueue) (n : Nat) : TagQueue := { q with unacked := q.unacked.drop n }

end TagQueue

/-- The address a submission word names: bits [33:6] (R361). -/
def descriptorAt (v : Word) : Nat := bits28 v * 64
where
  bits28 (v : Word) : Nat := v.toNat % 268435456

/-- A completion entry: TAG, STATUS, PHASE, a 32-bit field and the completion time (R363). -/
def completionEntry (tag status phase field : Nat) (t : Time) : List Byte :=
  leBytes 2 tag ++ leBytes 1 status ++ leBytes 1 phase ++ leBytes 4 field ++ leBytes 8 t

/-- PHASE of completion number n: 1 on the first pass round a ring of the given length, flipping on each wrap (R363). -/
def phaseOf (n slots : Nat) : Nat := (n / slots + 1) % 2

/-- The next completion is written into the ring at `base`. -/
def putCompletion (s : State) (engine base slots n tag status field : Nat) : State :=
  (busStore s engine (base + 16 * (n % slots)) (completionEntry tag status (phaseOf n slots) field s.time.dev)).2

/-- Entries between the old and the new head of a ring. -/
def headAdvance (old new slots : Nat) : Nat := (new + slots - old % slots) % slots

end Sys2Proof.Machine
end

