-- ==== Sys2Proof/Machine/FusionJobs.lean ====
section
/-!
DEFINITION. The matrix unit and its job queues (06_fusion.md R157 to R160).
-/
namespace Sys2Proof.Machine

/-- Job queue j. -/
def State.jobs (s : State) (j : Nat) : TagQueue := Tbl.get s.fu.jobs {} j

/-- Slots of queue j, which is also the length of its completion ring (R157, R160). -/
def jobSlots (s : State) (j : Nat) : Nat := s.get (R.fuJqcfgSlots j)

/-- Queue j takes a value, with OCC and CQTAIL. -/
def State.setJobs (s : State) (j : Nat) (q : TagQueue) : State :=
  ({ s with fu := { s.fu with jobs := Tbl.set s.fu.jobs {} j q } }.set (R.fuJqoccOcc j) q.occupied).set
    (R.fuJqcqtailCqtail j) (q.written % max (jobSlots s j) 1)

/-! Fields of a job descriptor (Table 6-4) -/
def jOp (d : List Byte) : Nat := natAt d 2 1
def jFlag (d : List Byte) (k : Nat) : Bool := natAt d 3 1 / 2 ^ k % 2 == 1
def jM (d : List Byte) : Nat := natAt d 4 1
def jN (d : List Byte) : Nat := natAt d 5 1
def jK (d : List Byte) : Nat := natAt d 6 1
def jAddr (d : List Byte) (k : Nat) : Nat := natAt d (8 + 8 * k) 8
def jLd (d : List Byte) (k : Nat) : Nat := natAt d (40 + 2 * k) 2
def jAlpha (d : List Byte) : F32 := F32.ofBytes (d.drop 48)
def jBeta (d : List Byte) : F32 := F32.ofBytes (d.drop 52)
def jFence (o : TagOp) : Bool := jFlag o.desc 1

/-- The stored operands of a job: operand 0 to 3 for A to D, rows, columns (Table 6-5). -/
def jOperands (d : List Byte) : List (Nat × Nat × Nat) :=
  if jOp d = 1 then
    [(0, if jFlag d 2 then jK d else jM d, if jFlag d 2 then jM d else jK d),
     (1, if jFlag d 3 then jN d else jK d, if jFlag d 3 then jK d else jN d),
     (2, jM d, jN d), (3, jM d, jN d)]
  else if jOp d = 2 then [(0, jM d, jM d), (1, jM d, jM d), (2, jM d, jM d), (3, jM d, jM d)]
  else if jOp d = 3 then [(0, jM d, jM d), (3, jM d, jM d)]
  else [(0, jM d, jM d), (1, jM d, jN d), (3, jM d, jN d)]

/-- A dimension of a job. -/
def dimOk (n : Nat) : Bool := decide (1 ≤ n) && decide (n ≤ 64)

/-- The fields hold values that Tables 6-4 and 6-5 give. -/
def jobFieldsOk (d : List Byte) : Bool :=
  decide (1 ≤ jOp d) && decide (jOp d ≤ 4) && decide (natAt d 3 1 < 16) && dimOk (jM d) && dimOk (jN d) && dimOk (jK d)
    && natAt d 7 1 == 0 && natAt d 56 8 == 0
    && (jOperands d).all fun o => jAddr d o.1 % 4 == 0 && decide (o.2.2 ≤ jLd d o.1)

/-- A matrix as a list of rows. -/
abbrev Matrix := List (List F32)

def Matrix.at (m : Matrix) (i j : Nat) : F32 := (m.getD i []).getD j 0

/-- A matrix from its elements. -/
def Matrix.of (rows cols : Nat) (f : Nat → Nat → F32) : Matrix :=
  (List.range rows).map fun i => (List.range cols).map fun j => f i j

/-- A sum in ascending index order (R159); an empty sum is 0. -/
def ascending (n : Nat) (f : Nat → F32) : F32 :=
  match n with
  | 0 => 0
  | k + 1 => (List.range k).foldl (fun a i => F32.add a (f (i + 1))) (f 0)

/-- Bytes of memory that a stored matrix touches. -/
def matExtent (rows cols ld : Nat) : Nat := 4 * (ld * (rows - 1) + cols)

/-- The stored matrix at an address: none where an address fault stops the read (R160). -/
def readMatrix (s : State) (a ld rows cols : Nat) : Option Matrix × State :=
  if !inSramOrDram s a (matExtent rows cols ld) then (none, engineError s 2 a)
  else
    (List.range rows).foldl (fun (acc : Option Matrix × State) i =>
      match acc with
      | (none, t) => (none, t)
      | (some m, t) =>
        let r := busRead t 2 (a + 4 * ld * i) (4 * cols)
        if r.1.length = 4 * cols then
          (some (m ++ [(List.range cols).map fun j => F32.ofBytes (r.1.drop (4 * j))]), r.2)
        else (none, r.2)) (some [], s)

/-- A matrix is stored: whether every element arrived. -/
def writeMatrix (s : State) (a ld : Nat) (m : Matrix) (rows cols : Nat) : Bool × State :=
  if !inSramOrDram s a (matExtent rows cols ld) then (false, engineError s 2 a)
  else
    (List.range rows).foldl (fun (acc : Bool × State) i =>
      if acc.1 = false then acc
      else
        let r := busStore acc.2 2 (a + 4 * ld * i) ((m.getD i []).flatMap F32.toBytes)
        (r.1 == 4 * cols, r.2)) (true, s)

/-- D := ALPHA × op(A) × op(B) + BETA × C (OP 1). -/
def jobGemm (d : List Byte) (a b c : Matrix) : Matrix :=
  Matrix.of (jM d) (jN d) fun i j =>
    F32.add
      (F32.mul (jAlpha d) (ascending (jK d) fun k =>
        F32.mul (if jFlag d 2 then a.at k i else a.at i k) (if jFlag d 3 then b.at j k else b.at k j)))
      (F32.mul (jBeta d) (c.at i j))

/-- D := A × C × Aᵀ + BETA × B, symmetric (OP 2). -/
def jobSandwich (d : List Byte) (a b c : Matrix) : Matrix :=
  let n := jM d
  let ac := Matrix.of n n fun i j => ascending n fun k => F32.mul (a.at i k) (c.at k j)
  let r := Matrix.of n n fun i j =>
    F32.add (ascending n fun k => F32.mul (ac.at i k) (a.at j k)) (F32.mul (jBeta d) (b.at i j))
  Matrix.of n n fun i j =>
    let lo := r.at (max i j) (min i j)
    let up := r.at (min i j) (max i j)
    if lo = up then lo else Config.symmetric lo up

/-- One row of the lower Cholesky factor from the rows above it. -/
def choleskyRow (a : Matrix) (l : Matrix) (i : Nat) : List F32 :=
  let row := (List.range i).foldl (fun (r : List F32) j =>
    r ++ [F32.div (F32.sub (a.at i j) (ascending j fun k => F32.mul (r.getD k 0) (l.at j k))) (l.at j j)]) []
  row ++ [F32.sqrt (F32.sub (a.at i i) (ascending i fun k => F32.mul (row.getD k 0) (row.getD k 0)))]

/-- The rows of the lower Cholesky factor (OP 3), filled with zeros above the diagonal. -/
def jobCholesky (n : Nat) (a : Matrix) : Matrix :=
  ((List.range n).foldl (fun l i => l ++ [choleskyRow a l i]) []).map fun r => r ++ List.replicate (n - r.length) 0

/-- The pivots of the factor are above 0. -/
def pivotsOk (n : Nat) (l : Matrix) : Bool := (List.range n).all fun i => F32.lt 0 (l.at i i)

/-- D := L⁻¹ × B by forward substitution (OP 4). -/
def jobSolve (d : List Byte) (a b : Matrix) : Matrix :=
  (List.range (jM d)).foldl (fun (x : Matrix) i =>
    x ++ [(List.range (jN d)).map fun j =>
      F32.div (F32.sub (b.at i j) (ascending i fun k => F32.mul (a.at i k) (x.at k j))) (a.at i i)]) []

/-- The result of a job from its operands. -/
def jobResult (d : List Byte) (a b c : Matrix) : Matrix :=
  if jOp d = 1 then jobGemm d a b c
  else if jOp d = 2 then jobSandwich d a b c
  else if jOp d = 3 then jobCholesky (jM d) a
  else jobSolve d a b

/-- Rows and columns of the result. -/
def jobShape (d : List Byte) : Nat × Nat := (jM d, if jOp d = 1 ∨ jOp d = 4 then jN d else jM d)

/-- The operand k of a job; an operand the operation does not take is empty. -/
def jobOperand (s : State) (d : List Byte) (k : Nat) : Option Matrix × State :=
  match (jOperands d).find? fun o => o.1 == k with
  | none => (some [], s)
  | some o => readMatrix s (jAddr d k) (jLd d k) o.2.1 o.2.2

/-- D takes free words that follow from the descriptor and the operands, the status stands (R159; log entry 17). -/
def jobSpoil (s : State) (d : List Byte) (operands : List Matrix) (status : Nat) : Nat × State :=
  let sh := jobShape d
  let m := Matrix.of sh.1 sh.2 fun i j => Config.spoiled d (operands.flatMap List.flatten) (sh.2 * i + j)
  (status, (writeMatrix s (jAddr d 3) (jLd d 3) m sh.1 sh.2).2)

/-- A job runs: its status and the state (R159, R160). -/
def jobRun (s : State) (d : List Byte) : Nat × State :=
  if !jobFieldsOk d then (4, s)
  else
    let ra := jobOperand s d 0
    let rb := jobOperand ra.2 d 1
    let rc := jobOperand rb.2 d 2
    match ra.1, rb.1, rc.1 with
    | some a, some b, some c =>
      let m := jobResult d a b c
      let sh := jobShape d
      if jOp d = 3 ∧ pivotsOk (jM d) m = false then jobSpoil rc.2 d [a, b, c] 1
      else if m.all (fun r => r.all F32.isFinite) then
        let w := writeMatrix rc.2 (jAddr d 3) (jLd d 3) m sh.1 sh.2
        (if w.1 then 0 else 3, w.2)
      else jobSpoil rc.2 d [a, b, c] 2
    | _, _, _ => jobSpoil rc.2 d (ra.1.toList ++ rb.1.toList ++ rc.1.toList) 3

/-- The engine cycles of a job with its operands in system SRAM (Table 6-5). -/
def jobCycles (d : List Byte) : Nat :=
  let m := jM d
  if jOp d = 1 then ceilDiv (m * jN d * jK d) 4096 + 200
  else if jOp d = 2 then 2 * ceilDiv (m * m * m) 4096 + 300
  else if jOp d = 3 then ceilDiv (m * m * m) 2048 + 400
  else ceilDiv (m * m * jN d) 2048 + 300

/-- CYCLES of a job: of the table where every operand lies in system SRAM, else free, since DRAM adds its transfer time. -/
def cyclesOf (s : State) (d : List Byte) : Nat × State :=
  if (jOperands d).all fun o => spans inSram (jAddr d o.1) (matExtent o.2.1 o.2.2 (jLd d o.1)) then (jobCycles d, s)
  else ((Config.freeWord s.freeCtr).toNat, s.fresh)

/-- A job ends: completion entry and source of its queue (R160). -/
def jobEnd (s : State) (j : Nat) (o : TagOp) (status cycles : Nat) : State :=
  let q := s.jobs j
  let s := putCompletion s 2 (s.rd64 (R.fuJqcqbaseLo j)) (max (jobSlots s j) 1) q.written o.tag status cycles
  let s := s.setJobs j (q.finish o.tag)
  if jFlag o.desc 0 then s.fire (256 + j) else s

/-- A submission to queue j (R158). -/
def jobSubmit (s : State) (j : Nat) (v : Word) : State :=
  let a := descriptorAt v
  let ok := inSramOrDram s a 64
  let r := if ok then readDescriptor s 2 a else (List.replicate 64 0, s)
  let s := r.2
  let tag := natAt r.1 0 2
  let e := (s.jobs j).refusal (jobSlots s j) tag ok
  let s := (s.set (R.fuJqresResult j) e).set (R.fuJqresTag j) tag
  if e = 0 then s.setJobs j ((s.jobs j).submit { tag := tag, desc := r.1 }) else s.countSat (R.fuJqoccRefused j)

/-- FUSION_JOB_SUBMIT (R158). -/
def execFusionJobSubmit (queue : Nat) (value : Word) (s : State) : Res :=
  if queue > 1 then .next s
  else gatedWrite s 6 { addr := R.fuJqsubmit queue, value := value } (jobSubmit s queue value)

/-- The next job of queue j starts on the matrix unit. -/
def jobStartOf (s : State) (j : Nat) : Option State :=
  (TagQueue.nextToStart jFence (s.jobs j).ops).map fun o =>
    { s.setJobs j ((s.jobs j).start o.tag s.now) with fu := { (s.setJobs j ((s.jobs j).start o.tag s.now)).fu with
        busy := some (j, o.tag) } }.set R.fuStatBusy 1

/-- A ready job starts on the free matrix unit, queue 0 first (R159). -/
def jobStart (s : State) : State :=
  if s.fu.busy ≠ none ∨ s.flag R.fuStatPwr = false ∨ s.pwrStatus / 2 % 2 = 1 then s
  else
    match jobStartOf s 0 with
    | some t => t
    | none => (jobStartOf s 1).getD s

/-- FUSION_JOB_START (R159). -/
def execFusionJobStart (s : State) : Res := gated s 6 <| .next (jobStart s)

/-- The job on the matrix unit finishes (R160). -/
def jobComplete (s : State) : State :=
  match s.fu.busy with
  | none => s
  | some (j, tag) =>
    let s := { s with fu := { s.fu with busy := none } }.set R.fuStatBusy 0
    match (s.jobs j).find tag with
    | none => s
    | some o =>
      let r := jobRun s o.desc
      let c := if r.1 = 0 then cyclesOf r.2 o.desc else ((Config.freeWord r.2.freeCtr).toNat, r.2.fresh)
      jobEnd c.2 j o r.1 c.1

/-- FUSION_JOB_COMPLETE (R160). -/
def execFusionJobComplete (s : State) : Res := gated s 6 <| .next (jobComplete s)

/-- CQHEAD of queue j is written: the entries passed are acknowledged (R160). -/
def jobAck (s : State) (j head : Nat) : State :=
  let slots := max (jobSlots s j) 1
  let n := headAdvance (s.get (R.fuJqcqheadCqhead j)) (head % slots) slots
  (s.set (R.fuJqcqheadCqhead j) head).setJobs j ((s.jobs j).ack n)

/-- FUSION_CQ_ACK (R160). -/
def execFusionCqAck (queue head : Nat) (s : State) : Res :=
  if queue > 1 then .next s
  else gatedWrite s 6 { addr := R.fuJqcqhead queue, value := BitVec.ofNat 32 head } (jobAck s queue head)

/-- A tag is written to FU_JQABORT: a job not started completes with status 5 (R160). -/
def jobAbort (s : State) (j tag : Nat) : State :=
  match (s.jobs j).find (tag % 65536) with
  | none => s
  | some o => if o.started then s else jobEnd s j o 5 0

/-- FUSION_JOB_ABORT (R160). -/
def execFusionJobAbort (queue tag : Nat) (s : State) : Res :=
  if queue > 1 then .next s
  else gatedWrite s 6 { addr := R.fuJqabort queue, value := BitVec.ofNat 32 tag } (jobAbort s queue tag)

/-- Object 0x2400:07: the slots of queue 0, refused while either queue has an occupied slot; rings of a new
length are used from their first entry (R157, R160; log entry 17). -/
def jobSplit (s : State) (v : Nat) : State × Nat :=
  if v > 256 then (s, St.range)
  else if (s.jobs 0).occupied ≠ 0 ∨ (s.jobs 1).occupied ≠ 0 then (s, St.busy)
  else if v = jobSlots s 0 then (s.setObjN 0x2400 0x07 v, St.ok)
  else
    let s := ((s.setObjN 0x2400 0x07 v).set (R.fuJqcfgSlots 0) v).set (R.fuJqcfgSlots 1) (256 - v)
    (((s.clearAll [R.fuJqcqhead 0, R.fuJqcqhead 1]).setJobs 0 { s.jobs 0 with written := 0 }).setJobs 1
      { s.jobs 1 with written := 0 }, St.ok)

end Sys2Proof.Machine
end

