-- ==== Sys2Proof/Machine/ChimneyStore.lean ====
section
/-!
DEFINITION. The Chimney store of outbound messages (12_fabric_fleet.md R297, R298).
-/
namespace Sys2Proof.Machine

/-- Bytes a message takes in the store: header and payload. -/
def Message.size (m : Message) : Nat := 24 + m.payload.length

/-- A message as it is sent: the header of 24 bytes and the payload (R297). -/
def chimneyBytes (kind msgId : Nat) (payload : List Byte) : List Byte :=
  leBytes 2 0x4843 ++ leBytes 1 1 ++ leBytes 1 kind ++ leBytes 8 msgId ++ leBytes 4 payload.length
    ++ leBytes 4 (crcOf crc32c payload) ++ leBytes 4 0 ++ payload

/-- Counter k of Chimney counts one: 0 sent, 1 acknowledged, 2 dropped, 3 received. -/
def chimneyCount (s : State) (k : Nat) : State :=
  { s with chim := { s.chim with counters := s.chim.counters.set k ((s.chim.counters.getD k 0 + 1) % 4294967296) } }

/-- A stored message goes out over the connection. -/
def chimneyEmit (s : State) (m : Message) : State := (chimneyCount s 0).emit (.chimney (chimneyBytes m.kind m.id m.payload))

/-- Bytes stored. -/
def storedBytes (s : State) : Nat := (s.chim.store.map Message.size).sum

/-- Priority of an outbound kind (Table 12-4); the highest number is dropped first. -/
def kindPriority (k : Nat) : Nat := if k = 1 then 2 else if k = 2 then 3 else 1

/-- The message to drop: the oldest of the highest number present. -/
def dropVictim (l : List Message) : Option Message :=
  l.find? fun m => l.all fun q => decide (kindPriority q.kind ≤ kindPriority m.kind)

/-- One stored message dropped, counted and reported (R298). -/
def chimneyDrop (s : State) : State :=
  match dropVictim s.chim.store with
  | none => s
  | some m =>
    let s := chimneyCount { s with chim := { s.chim with store := s.chim.store.erase m } } 2
    (s.fire 136).log 0x1010 (d8 m.kind ++ d32 (s.chim.counters.getD 2 0))

/-- Messages dropped until n more bytes fit, at most as many as are stored. -/
def chimneyRoom (s : State) (n : Nat) : Nat → State
  | 0 => s
  | k + 1 =>
    if storedBytes s + n ≤ s.objN 0x30C0 0x04 * 1048576 then s else chimneyRoom (chimneyDrop s) n k

/-- Whether an outbound kind is formed: the active Hearth, Chimney and the kind enabled. -/
def chimneyForms (s : State) (kind : Nat) : Bool :=
  s.activeHearth && s.objN 0x30C0 0x01 == 1 && s.objN 0x30C0 0x0A / 2 ^ (kind - 1) % 2 == 1

/-- A message is stored, and sent at once over a connection (R297). -/
def chimneySend (s : State) (kind : Nat) (payload : List Byte) : State :=
  if chimneyForms s kind = false then s
  else
    let m : Message := ⟨s.chim.nextId, kind, payload⟩
    let s := chimneyRoom s m.size s.chim.store.length
    let s := { s with chim := { s.chim with store := s.chim.store ++ [m], nextId := s.chim.nextId + 1 } }
    if s.chim.conn = 2 then chimneyEmit s m else s

end Sys2Proof.Machine
end

