-- ==== Sys2Proof/Machine/ParterreMap.lean ====
section
/-!
DEFINITION. The map grid: cells, tiles, coverage and the attribution of mass (10_parterre_gatehouse.md R237 to R243).
Positions are compared exactly; sine, cosine and the pose between two publications are free (log entry 26), and sums of
masses are binary32 (log entry 27).
-/
namespace Sys2Proof.Machine

/-- A pair of signed numbers of magnitude below 2⁴⁰ as one key: one pair, one key. -/
def pairKey (i j : Int) : Nat := (i + 1099511627776).toNat * 2199023255552 + (j + 1099511627776).toNat

/-- The number of a cell in its tile (R237). -/
def cellPlace (i j : Int) : Nat := (64 * (j % 64) + i % 64).toNat

/-- The key of the tile of a cell (R237). -/
def tileOf (i j : Int) : Nat := pairKey (i / 64) (j / 64)

/-- Own serial number, object 0x1000:04. -/
def ownSerial (s : State) : Nat := s.objN 0x1000 0x04

/-- The open task, if any. -/
def openTask (s : State) : Option Task := if s.par.task = 0 then none else Tbl.get s.par.tasks none s.par.task

/-- Cell size in mm: that of the open task (R237). -/
def cellSize (s : State) : Nat :=
  match openTask s with
  | some t => t.size
  | none => s.objN 0x2800 0x02

/-- The fusion origin, objects 0x2400:02 to :04. -/
def mapOrigin (s : State) : List Nat := (List.range 3).map fun k => s.objN 0x2400 (0x02 + k)

def setTask (s : State) (n : Nat) (t : Option Task) : State :=
  { s with par := { s.par with tasks := Tbl.set s.par.tasks none n t } }

/-- A change of the open task. -/
def onTask (s : State) (f : Task → Task) : State :=
  match openTask s with
  | none => s
  | some t => setTask s s.par.task (some (f t))

def Task.cell (t : Task) (i j : Int) : Cell := Tbl.get t.cells {} (pairKey i j)
def Task.setCell (t : Task) (i j : Int) (c : Cell) : Task := { t with cells := Tbl.set t.cells {} (pairKey i j) c }
def Task.tile (t : Task) (k : Nat) : MapTile := Tbl.get t.tiles {} k
def Task.setTile (t : Task) (k : Nat) (x : MapTile) : Task := { t with tiles := Tbl.set t.tiles {} k x }

/-- Number of bits set among the low n bits. -/
def bitsSet (v : Nat) : Nat → Nat
  | 0 => 0
  | n + 1 => v % 2 + bitsSet (v / 2) n

/-- COVER of a cell: at least 32 sub-bits (R238). -/
def Cell.cover (c : Cell) : Bool := decide (32 ≤ bitsSet c.sub 64)

/-- The base times of a tile after a cover at instant t (R238, R239): a new generation where t lies too far after the base. -/
def tileBases (l : List Time) (t : Time) : List Time :=
  let b := t / 1000000000 * 1000000000
  match l with
  | [] => [b]
  | x :: rest => if t < x then b :: rest else if t > x + 4294967295 * 100000000 then b :: x :: rest else x :: rest

/-- An instant in steps of 0.1 s, the nearest, an exact half up (R239). -/
def coverTime (t : Time) : Time := (t + 50000000) / 100000000 * 100000000

/-- The first cover of a cell at instant t (R239, R241). -/
def firstCover (s : State) (u : Task) (i j : Int) (c : Cell) (t : Time) : Task × Cell :=
  match c.first with
  | some _ => (u, c)
  | none =>
    let k := tileOf i j
    (u.setTile k { u.tile k with bases := tileBases (u.tile k).bases t },
      { c with first := some (coverTime t), pass := u.pass, src := ownSerial s })

/-! Sub-cells: number (I, J) covers east from I × c/8, north from J × c/8 (R238) -/

/-- The sub-bit of sub-cell (I, J) in its cell. -/
def subBit (i j : Int) : Nat := (8 * (j % 8) + i % 8).toNat

/-- Whether sub-cell (I, J) is covered. -/
def subCovered (t : Task) (i j : Int) : Bool := (t.cell (i / 8) (j / 8)).sub / 2 ^ subBit i j % 2 == 1

/-- Sub-cell (I, J) becomes covered at instant t. -/
def coverSub (s : State) (u : Task) (i j : Int) (t : Time) : Task :=
  if subCovered u i j then u
  else
    let ci := i / 8
    let cj := j / 8
    let r := firstCover s u ci cj (u.cell ci cj) t
    let v := r.1.setCell ci cj { r.2 with sub := r.2.sub + 2 ^ subBit i j }
    v.setTile (tileOf ci cj) { v.tile (tileOf ci cj) with dirty := true }

/-- A point of the plane in units of 2^-149 m times 16,000. -/
structure Point where
  x : Int
  y : Int
deriving DecidableEq, Repr

/-- The point of an east and a north value. -/
def pointAt (e n : F32) : Point := ⟨16000 * F32.exact e, 16000 * F32.exact n⟩

/-- Centre of sub-cell (I, J) at cell size c mm. -/
def subCentre (c : Nat) (i j : Int) : Point :=
  ⟨(2 * i + 1) * (c : Int) * (F32.unit : Int), (2 * j + 1) * (c : Int) * (F32.unit : Int)⟩

/-- The sub-cell that a point lies in. -/
def subOf (c : Nat) (p : Point) : Int × Int :=
  (p.x / (2 * (c : Int) * (F32.unit : Int)), p.y / (2 * (c : Int) * (F32.unit : Int)))

/-- On which side of the line from a to b the point p lies: positive left. -/
def side (a b p : Point) : Int := (b.x - a.x) * (p.y - a.y) - (b.y - a.y) * (p.x - a.x)

/-- Whether p lies in the quadrilateral a, b, c, d or on its edge. -/
def inQuad (a b c d p : Point) : Bool :=
  let l := [side a b p, side b c p, side c d p, side d a p]
  (l.all fun v => decide (0 ≤ v)) || l.all fun v => decide (v ≤ 0)

/-- A pose as parameters of the geometry: east, north, heading. -/
def poseWords (p : FuPub) : List F32 := [p.x.getD 0 0, p.x.getD 1 0, p.x.getD 8 0]

/-- A point of the machine frame, x forward and y left, in the field: heading counts clockwise from north. -/
def inField (pose : List F32) (x y : F32) : F32 × F32 :=
  let h := pose.getD 2 0
  let sn := Config.sine h
  let cs := Config.cosine h
  (F32.add (pose.getD 0 0) (F32.sub (F32.mul x sn) (F32.mul y cs)),
   F32.add (pose.getD 1 0) (F32.add (F32.mul x cs) (F32.mul y sn)))

/-- The same point for exact comparison. -/
def fieldPoint (pose : List F32) (x y : F32) : Point := pointAt (inField pose x y).1 (inField pose x y).2

/-- The pose `dt` ns after a pose with constant speed and yaw rate (R247, R256): east, north, heading, speed, yaw rate. Without a
yaw rate the machine moves straight on, with one along the arc; the order of the roundings is the model's (log entry 26). -/
def predictPose (w : List F32) (dt : Nat) : List F32 :=
  let g := fun i : Nat => w.getD i 0
  let tau := F32.ofRat dt 1000000000
  if F32.isZero (g 4) then
    let d := F32.mul (g 3) tau
    [F32.add (g 0) (F32.mul d (Config.sine (g 2))), F32.add (g 1) (F32.mul d (Config.cosine (g 2))), g 2]
  else
    let h := F32.add (g 2) (F32.mul (g 4) tau)
    let r := F32.div (g 3) (g 4)
    [F32.add (g 0) (F32.mul r (F32.sub (Config.cosine (g 2)) (Config.cosine h))),
     F32.add (g 1) (F32.mul r (F32.sub (Config.sine h) (Config.sine (g 2)))), h]

/-- The pose at instant t from the published poses, newest first; none where it is absent or HELD. -/
def poseAt (l : List FuPub) (t : Time) : Option (List F32) :=
  match l with
  | [] => none
  | p :: rest =>
    if t < p.t then
      match rest with
      | [] => none
      | q :: _ =>
        if t < q.t then poseAt rest t
        else if p.held || q.held then none
        else if t = q.t then some (poseWords q)
        else some ((List.range 3).map fun i => Config.poseBetween i (poseWords q) (poseWords p) (t - q.t))
    else if p.held then none
    else if t = p.t then some (poseWords p) else none

/-- Least and greatest sub-cell numbers of four values. -/
def spanOf (l : List Int) : Int × Int := (l.foldl min (l.headD 0), l.foldl max (l.headD 0))

/-- The sub-cells whose centres lie in a quadrilateral. -/
def subsIn (c : Nat) (a b p d : Point) : List (Int × Int) :=
  let l := [a, b, p, d].map (subOf c)
  let xs := spanOf (l.map (·.1))
  let ys := spanOf (l.map (·.2))
  let is := (List.range (xs.2 - xs.1 + 1).toNat).map fun k => xs.1 + (k : Int)
  let js := (List.range (ys.2 - ys.1 + 1).toNat).map fun k => ys.1 + (k : Int)
  (is.flatMap fun i => js.map fun j => (i, j)).filter fun e : Int × Int => inQuad a b p d (subCentre c e.1 e.2)

/-- The recording strip between two poses: swept by the line of the working width square to the heading (R241). -/
def stripSubs (s : State) (pa pb : List F32) : List (Int × Int) :=
  let h := F32.mul F32.half (s.objF 0x2800 0x05)
  subsIn (cellSize s) (fieldPoint pa 0 h) (fieldPoint pa 0 (F32.neg h)) (fieldPoint pb 0 (F32.neg h)) (fieldPoint pb 0 h)

/-- Area of a sub-cell in m². -/
def subArea (c : Nat) : F32 := F32.ofRat (c * c) 64000000

/-- One cell's share of an epoch's mass (R241). -/
def attributeCell (s : State) (b : Time) (f dm : F32) (moist : Option F32) (total : Nat) (u : Task)
    (e : (Int × Int) × Nat) : Task :=
  let i := e.1.1
  let j := e.1.2
  let r := firstCover s u i j (u.cell i j) b
  let part := F32.div (F32.mul dm (F32.ofNat e.2)) (F32.ofNat total)
  let c := r.2
  let c := { c with mass := F32.add c.mass part,
                    area := F32.add c.area (F32.mul (F32.ofNat e.2) (subArea (cellSize s))),
                    flowSum := F32.add c.flowSum f, flows := c.flows + 1 }
  let c := match moist with
    | some m => { c with moistSum := F32.add c.moistSum (F32.mul m part), moistW := F32.add c.moistW part }
    | none => c
  r.1.setCell i j c

/-- The cells of a list of sub-cells with the number of sub-cells in each. -/
def countCells (l : List (Int × Int)) : List ((Int × Int) × Nat) :=
  let cells := (l.map fun e : Int × Int => (e.1 / 8, e.2 / 8)).eraseDups
  cells.map fun k => (k, (l.filter fun e : Int × Int => (e.1 / 8, e.2 / 8) == k).length)

/-! Capacity (R243) -/

/-- Bytes of the Parterre partition. -/
def parterreSize : Nat := 25769803776

/-- The pair of a key. -/
def ofPairKey (k : Nat) : Int × Int :=
  ((k / 2199023255552 : Nat) - 1099511627776, (k % 2199023255552 : Nat) - 1099511627776)

/-! Quantised records (R238, R239) -/

/-- A value in steps: the nearest, an exact half up. -/
def quantised (v : F32) (num den : Nat) : Nat := (F32.roundScaled v num den).toNat

/-- YIELD and CLIPPED of a cell at a yield step in kg/ha. -/
def cellYield (c : Cell) (step : Nat) : Nat × Bool :=
  if F32.isZero c.area then (65535, false)
  else
    let y := quantised (F32.div (F32.mul c.mass (F32.ofNat 10000)) c.area) 1 step
    if y > 65534 then (65534, true) else (y, false)

/-- MOIST of a cell. -/
def cellMoist (s : State) (c : Cell) : Nat :=
  if F32.isZero c.moistW then 65535
  else quantised (F32.div (F32.div c.moistSum c.moistW) (s.objF 0x2800 0x04)) 1 1

/-- FLOW of a cell. -/
def cellFlow (c : Cell) : Nat := if c.flows = 0 then 65535 else quantised (F32.div c.flowSum (F32.ofNat c.flows)) 100 1

/-- The cell record of 24 bytes, with TIME from the base of its tile (Table 10-1). -/
def cellRecord (s : State) (base : Time) (c : Cell) : List Byte :=
  let y := cellYield c (s.objN 0x2800 0x03)
  let t := (c.first.getD base - base) / 100000000
  d16 y.1 ++ d16 (cellMoist s c) ++ d16 (cellFlow c) ++ d16 c.pass ++ d32 t
    ++ d8 ((if c.cover then 1 else 0) + (if c.remote then 2 else 0) + (if y.2 then 4 else 0)) ++ List.replicate 3 0
    ++ d64 c.sub

/-- The cell number p of tile (i, j). -/
def tileCell (t : Task) (i j : Int) (p : Nat) : Cell := t.cell (64 * i + ((p % 64 : Nat) : Int)) (64 * j + ((p / 64 : Nat) : Int))

/-- The base time of the generation that a cell lies in: the latest at or before its first cover (R239). -/
def cellBase (bases : List Time) (c : Cell) : Time :=
  ((bases.find? fun b => decide (b ≤ c.first.getD 0)).orElse fun _ => bases.getLast?).getD 0

/-- One generation of tile (i, j) of task n as it is before coding: the header of 64 bytes and 4,096 cell records (R238). -/
def tileImage (s : State) (n : Nat) (t : Task) (i j : Int) (base : Time) : List Byte :=
  let bases := (t.tile (pairKey i j)).bases
  bytesAt (d32 (wrapInt 32 i) ++ d32 (wrapInt 32 j) ++ d16 t.size ++ d32 n ++ d64 base ++ d64 (ownSerial s)) 0 64
    ++ (List.range 4096).flatMap fun p =>
      let c := tileCell t i j p
      cellRecord s base (if cellBase bases c = base then c else {})

/-- Recorded cells of the tile of a key. -/
def tileCells (t : Task) (k : Nat) : Nat :=
  (t.cells.filter fun e => tileOf (ofPairKey e.1).1 (ofPairKey e.1).2 == k).length

/-- Bytes a task takes: the generations of its tiles after coding, at most the header and the recorded cells, and its raw
point log. -/
def taskBytes (s : State) (n : Nat) (t : Task) : Nat :=
  (t.tiles.map fun e => (e.2.bases.map fun b =>
    min (Config.codedBytes (tileImage s n t (ofPairKey e.1).1 (ofPairKey e.1).2 b)) (64 + 24 * tileCells t e.1)).sum).sum
    + 36 * t.raw.length

/-- Bytes used in the partition. -/
def usedBytes (s : State) : Nat :=
  (s.par.tasks.map fun e => match e.2 with
    | some t => taskBytes s e.1 t
    | none => 0).sum

def freeSpace (s : State) : Nat := parterreSize - usedBytes s

/-- RESERVE_ENTERED and PARTITION_FULL (R243). -/
def capacityCheck (s : State) : State :=
  let s := if freeSpace s < 536870912 ∧ s.par.reserve = false then
      { s with par := { s.par with reserve := true } }.log 0x0E01 (d16 (freeSpace s / 1048576))
    else s
  if freeSpace s = 0 ∧ s.par.recording then
    { s with par := { s.par with recording := false } }.log 0x0E02 (d32 s.par.task)
  else s

/-! Attribution (R241, R242) -/

/-- Period in seconds of a rate in mHz. -/
def periodSecs (mhz : Nat) : F32 := F32.ofRat 1000 mhz

/-- Period in ns of a rate in mHz. -/
def periodNs (mhz : Nat) : Nat := 1000000000000 / mhz

/-- Whether Parterre records: the Hearth role, Parterre enabled, a task open, Recording 1. -/
def recordsNow (s : State) : Bool :=
  s.hearth && s.objN 0x2800 0x01 == 1 && s.par.recording && (openTask s).isSome

/-- RAW_POINT_RECORD: 36 bytes of a raw point (R242). -/
def rawPoint (e : Time) (pose : List F32) (f m w : F32) (pass confF confM : Nat) : List Byte :=
  d64 e ++ F32.toBytes (pose.getD 0 0) ++ F32.toBytes (pose.getD 1 0) ++ F32.toBytes f ++ F32.toBytes m ++ F32.toBytes w
    ++ d16 pass ++ d16 confF ++ d16 confM ++ d16 0

/-- The raw point log takes a record, while it is on and the reserve is not entered. -/
def rawLog (s : State) (rec : List Byte) : State :=
  if s.objN 0x2800 0x08 = 1 ∧ s.par.reserve = false then onTask s fun t => { t with raw := rec :: t.raw } else s

/-- The mass of an epoch goes to the uncovered sub-cells of the strip between poses pa and pb (R241); without a flow value
(confidence 0) the strip is covered all the same (R238). -/
def spreadMass (s : State) (b : Time) (flow : Bool) (f dm : F32) (moist : Option F32) (pa pb : List F32) : State :=
  let strip := stripSubs s pa pb
  onTask s fun t =>
    let u := strip.filter fun e : Int × Int => !subCovered t e.1 e.2
    let t := if flow = false then t
      else if u.isEmpty then { t with unassigned := F32.add t.unassigned dm }
      else (countCells u).foldl (attributeCell s b f dm moist u.length) t
    if s.objN 0x2800 0x07 = 0 then u.foldl (fun (v : Task) e => coverSub s v e.1 e.2 b) t else t

/-- MASS_ATTRIBUTION: a publication of crop mass flow at epoch instant e with rate `mhz` (R241). -/
def massAttribution (s : State) (e : Time) (mhz : Nat) (f : F32) (conf : Nat) : State :=
  if recordsNow s = false then s
  else
    let d := (F32.floorScaled (s.objF 0x2800 0x06) 1000000000 1).toNat
    let b := e - d
    let a := b - periodNs mhz
    match poseAt s.fu.poses a, poseAt s.fu.poses b with
    | some pa, some pb =>
      let s := { s with par := { s.par with paused := false } }
      let mp := Tbl.get s.fu.pubs none 5
      let moist := match mp with
        | some p => if p.conf = 0 then none else some (p.x.getD 0 0)
        | none => none
      let pass := match openTask s with
        | some t => t.pass
        | none => 0
      let confM := match mp with
        | some p => p.conf
        | none => 0
      let seen := match mp with
        | some p => p.x.getD 0 0
        | none => 0
      let s := rawLog s (rawPoint e pb f seen (s.objF 0x2800 0x05) pass conf confM)
      let s := spreadMass s b (conf != 0) f (F32.mul f (periodSecs mhz)) moist pa pb
      capacityCheck s
    | _, _ =>
      if s.par.paused then s else { s with par := { s.par with paused := true } }.log 0x0E0C (d32 s.par.task)

/-- A publication of a fused quantity as Parterre, Gatehouse and steering see it. -/
def notePublication (s : State) (q : Nat) (p : FuPub) (mhz : Nat) : State :=
  let s := { s with fu := { s.fu with
    pubs := Tbl.set s.fu.pubs none q (some p),
    poses := if q = 0 then (p :: s.fu.poses).take 12400 else s.fu.poses } }
  if q = 3 then massAttribution s p.t mhz (p.x.getD 0 0) p.conf else s

end Sys2Proof.Machine
end

