-- ==== Sys2Proof/Machine/Retain.lean ====
section
/-!
DEFINITION. Retained records of the Ember store (14_object_dictionary.md R332 to R334).
-/
namespace Sys2Proof.Machine

/-- Type code of an object (Table 14-2). -/
def ObjTy.code : ObjTy → Nat
  | .u8 => 1 | .u16 => 2 | .u32 => 3 | .u64 => 4
  | .i8 => 5 | .i16 => 6 | .i32 => 7 | .i64 => 8
  | .f32 => 9 | .f64 => 10 | .time64 => 11 | .string => 12 | .blob => 13

/-- Bytes of a number of a type; 0 for a string or blob. -/
def ObjTy.size : ObjTy → Nat
  | .u8 => 1 | .u16 => 2 | .u32 => 4 | .u64 => 8
  | .i8 => 1 | .i16 => 2 | .i32 => 4 | .i64 => 8
  | .f32 => 4 | .f64 => 8 | .time64 => 8 | .string => 0 | .blob => 0

/-- A value as its bytes. -/
def ObjVal.encode (ty : ObjTy) : ObjVal → List Byte
  | .num n => leBytes ty.size n
  | .bytes l => l

/-- The value of a type in the bytes. -/
def ObjVal.decode (ty : ObjTy) (l : List Byte) : ObjVal :=
  match ty with
  | .string => .bytes l
  | .blob => .bytes l
  | _ => .num (leNat l)

/-- The format version of an object, by its key, in this firmware (R332, R340 state no number; log entry 18). -/
def recordFormat (key : Nat) : Nat := (Config.formatVersion key).toNat

namespace State

/-- The record of an object. -/
def recordOf (s : State) (index sub : Nat) : Option Rec :=
  (s.records.find? fun e => e.1 == objKey index sub).map (·.2)

/-- While a type awaits confirmation, the record a commit supersedes is kept with GEN at most G0 (R497). -/
def keepRecord (s : State) (key : Nat) (old : Rec) : State :=
  { s with upd := { s.upd with types := s.upd.types.mapIdx fun k u =>
      if k ≠ 0 ∧ u.confEnd.isSome ∧ old.gen ≤ u.g0 ∧ u.saved.all (fun e => e.1 != key) then
        { u with saved := (key, old) :: u.saved }
      else u } }

/-- The record of an object takes a value. -/
def setRecord (s : State) (index sub : Nat) (r : Rec) : State :=
  let s := match s.recordOf index sub with
    | some old => s.keepRecord (objKey index sub) old
    | none => s
  { s with records := Tbl.insert (Tbl.erase s.records (objKey index sub)) (objKey index sub) r }

/-- Write the record of an object where its value differs from it or it has none (R332). -/
def writeRecord (s : State) (index sub : Nat) (ty : ObjTy) (v : ObjVal) : State :=
  let b := v.encode ty
  let new : Rec := { typ := ty.code, fmt := recordFormat (objKey index sub), gen := (s.generation + 1) % 4294967296, value := b }
  match s.recordOf index sub with
  | none => s.setRecord index sub new
  | some r =>
    if r.value = b ∧ r.typ = ty.code ∧ r.crcOk = true ∧ r.erase = false then s else s.setRecord index sub new

/-- An entry of the node record: index, sub-index, type, length, format version, 0, the value padded to 4 bytes (R287; log
entry 125). -/
def recordEntry (e : Nat × Rec) : List Byte :=
  let n := e.2.value.length
  leBytes 2 (e.1 / 256) ++ leBytes 1 (e.1 % 256) ++ leBytes 1 e.2.typ ++ leBytes 2 n ++ leBytes 1 e.2.fmt ++ leBytes 1 0
    ++ bytesAt e.2.value 0 (4 * ((n + 3) / 4))

/-- The node record: every RWK object with a record that stands (R287). -/
def nodeRecord (s : State) : List Byte :=
  (s.records.filter fun e => e.2.crcOk && !e.2.erase).flatMap recordEntry

/-- A Pavilion sends its node record upstream in NODEREC frames of at most 1,440 bytes, each after its settings generation, the
length of the whole record and the place of its bytes (R287; log entry 125). -/
def nodeRecordSend (s : State) : State :=
  if s.hearth ∨ s.flag R.fbStatAssigned = false then s
  else
    let l := s.nodeRecord
    (List.range (max 1 ((l.length + 1439) / 1440))).foldl (fun (u : State) k =>
      flueSend u 3 0x32 1 0 (leBytes 4 u.generation ++ leBytes 4 l.length ++ leBytes 4 (1440 * k) ++ (l.drop (1440 * k)).take 1440)) s

/-- A commit ends: the settings generation increments, and a Pavilion sends its node record (R332, R287). -/
def nextGeneration (s : State) : State := nodeRecordSend { s with generation := (s.generation + 1) % 4294967296 }

/-- A service writes an object of the object store and commits it; after the power-fail warning nothing is committed
(R332, R334). -/
def retain (s : State) (index sub : Nat) (v : ObjVal) : State :=
  let s := s.setObj index sub v
  match objDef index sub with
  | none => s
  | some d => if s.flag R.msStatPfail then s else (s.writeRecord index sub d.typ v).nextGeneration

end State
end Sys2Proof.Machine
end

