-- ==== Sys2Proof/Machine/Fusion.lean ====
section
/-!
DEFINITION. The fusion service: slots, gating, masking, estimators, disputes and calibration (06_fusion.md R131 to R156).
The scalar estimator of the random-walk quantities is read from the worked examples and computed in binary32 (log entry
16); the inertial estimators of pose and ego-motion have no equation in the spec, so their values are free (log entry 16).
-/
namespace Sys2Proof.Machine

namespace State
def fuSlot (s : State) (k : Nat) : FuSlot := Tbl.get s.fu.slots {} k
def setFuSlot (s : State) (k : Nat) (x : FuSlot) : State :=
  { s with fu := { s.fu with slots := Tbl.set s.fu.slots {} k x } }
def qty (s : State) (q : Nat) : FuQty := Tbl.get s.fu.qtys {} q
def setQty (s : State) (q : Nat) (x : FuQty) : State := { s with fu := { s.fu with qtys := Tbl.set s.fu.qtys {} q x } }

/-- n free words, and the state after drawing them. -/
def draws (s : State) (n : Nat) : List Word × State :=
  ((List.range n).map fun i => Config.freeWord (s.freeCtr + i), { s with freeCtr := s.freeCtr + n })

/-- The value in effect of a slot object (R139). -/
def slotObj (s : State) (k sub : Nat) : ObjVal := Tbl.get s.fu.cfg (objDefault (0x2410 + k) sub) (objKey (0x2410 + k) sub)

def slotN (s : State) (k sub : Nat) : Nat :=
  match s.slotObj k sub with
  | .num n => n
  | .bytes _ => 0

def slotB (s : State) (k sub : Nat) : List Byte :=
  match s.slotObj k sub with
  | .num _ => []
  | .bytes l => l

/-- The active role of a slot. -/
def role (s : State) (k : Nat) : Nat := s.get (R.fuSstatRole k)
/-- Measurement standard deviation, object :07. -/
def slotSd (s : State) (k : Nat) : F32 := BitVec.ofNat 32 (s.slotN k 0x07)
/-- GATE², from object :02. -/
def gate2 (s : State) (k : Nat) : F32 :=
  F32.mul (BitVec.ofNat 32 (s.slotN k 0x02)) (BitVec.ofNat 32 (s.slotN k 0x02))
end State

/-- The quantities a role feeds, first and second (Table 6-3). -/
def feeds (role : Nat) : List Nat :=
  [[], [0], [0, 1], [0, 1], [0, 1], [1], [1], [2], [2], [3], [4, 3], [5], [6], [7], [8], [9], [10], [0]].getD role []

/-- The quantities a role is a direct source of (Table 6-3). -/
def directOf (role : Nat) : List Nat :=
  [[], [0], [1], [], [1], [1], [1], [2], [2], [3], [4, 3], [5], [6], [7], [8], [9], [10], [0]].getD role []

/-- Component streams of each quantity (Table 6-1). -/
def components (q : Nat) : Nat := [9, 3, 2, 1, 1, 1, 1, 1, 1, 2, 1].getD q 0

/-- Retrodiction window in ns (Table 6-1). -/
def window (q : Nat) : Nat := ms ([200, 200, 200, 2000, 2000, 2000, 10000, 10000, 10000, 10000, 200].getD q 0)

def qRate (s : State) (q : Nat) : Nat := s.objN (0x2480 + q) 0x01
/-- Publication offset in ns. -/
def qOffset (s : State) (q : Nat) : Nat := us (s.objN (0x2480 + q) 0x02)

/-- The first epoch instant of quantity q at or after t (R132). -/
def epochFrom (s : State) (q : Nat) (t : Time) : Time :=
  if qRate s q = 0 then t else ceilDiv (t * qRate s q) 1000000000000 * 1000000000000 / qRate s q

/-- Low-supply mode, in which the fusion engine and the camera pipeline are clock-gated (R410). -/
def lowSupply (s : State) : Bool := s.pwrStatus / 2 % 2 == 1

/-- The service runs: engine powered, clocked and service enabled (R131). -/
def fusionRuns (s : State) : Bool := s.flag R.fuStatPwr && s.objN 0x2400 0x01 == 1 && !lowSupply s

/-- The enabled active route to a consumer. -/
def routeTo (s : State) (c : Nat) : Option TrellisCopy :=
  (s.trellis.entries.find? fun e => e.2.active.enable == 1 && e.2.active.consumer == c).map (·.2.active)

/-- The slots bound to quantity q: an active role that feeds it and an enabled route. -/
def boundSlots (s : State) (q : Nat) : List Nat :=
  (List.range 64).filter fun k => (feeds (s.role k)).contains q && (routeTo s (0x100 + k)).isSome

/-! Masks -/

/-- The mask of slot k for quantity q. -/
def maskOf (s : State) (k q : Nat) : FuMask :=
  if (feeds (s.role k)).head? = some q then (s.fuSlot k).maskA else (s.fuSlot k).maskB

/-- The mask of slot k for quantity q takes a value, with the slot's status register. -/
def setMask (s : State) (k q : Nat) (m : FuMask) : State :=
  let x := s.fuSlot k
  if (feeds (s.role k)).head? = some q then
    (((s.setFuSlot k { x with maskA := m }).put (R.fuSstatMaskA k) (m.cause != 0)).set (R.fuSstatCauseA k) m.cause).set
      (R.fuSstatShadow k) m.shadow
  else
    let t := s.setFuSlot k { x with maskB := m }
    if s.role k = 10 then (t.put (R.fuSstatMaskB k) (m.cause != 0)).set (R.fuSstatCauseB k) m.cause else t

/-- Whether slot k is one of the two sources of a running dispute of quantity q. -/
def inDispute (s : State) (k q : Nat) : Bool :=
  match (s.qty q).dispute with
  | none => false
  | some d => d.2.1 == k || d.2.2 == k

/-- SLOT_MASK, whatever the state of a dispute (R145). -/
def maskNow (s : State) (k q cause : Nat) : State :=
  ((setMask s k q { cause := cause }).fire 259).log 0x0A01 (leBytes 1 k ++ leBytes 1 q ++ leBytes 1 cause)

/-- SLOT_MASK: an unmasked slot is masked for a quantity; during a dispute neither source is (R145, R151). -/
def slotMask (s : State) (k q cause : Nat) : State :=
  if (maskOf s k q).cause ≠ 0 ∨ inDispute s k q = true then s else maskNow s k q cause

/-- SLOT_UNMASK: the mask is lifted and a fresh gate window starts (R146). -/
def slotUnmask (s : State) (k q : Nat) : State :=
  ((setMask s k q {}).fire 259).log 0x0A02 (leBytes 1 k ++ leBytes 1 q ++ leBytes 1 (maskOf s k q).cause)

/-! Measurements -/

/-- The slot's geometry: lever arm, angles and applied correction. -/
def geometry (s : State) (k : Nat) : List F32 :=
  let l := s.slotB k 0x08
  let a := s.slotB k 0x09
  [F32.ofBytes l, F32.ofBytes (l.drop 4), F32.ofBytes (l.drop 8), F32.ofBytes a, F32.ofBytes (a.drop 4),
   F32.ofBytes (a.drop 8)] ++ (s.fuSlot k).corr

/-- The loss measurement of an LI record over an interval of tau seconds: rate and standard deviation (R148). -/
def lossMeasure (param rec : List Byte) (tau sdCfg : F32) : F32 × F32 :=
  let w := fun i => F32.ofBytes (param.drop (4 * i))
  let grain := ascending 16 fun i => F32.mul (w i) (F32.ofNat (natAt rec (8 + 2 * i) 2))
  let rate := F32.mul (F32.mul (F32.div grain tau) (F32.ofBytes (param.drop 64))) (F32.ofBytes (param.drop 68))
  (rate, F32.max sdCfg (F32.div rate (F32.sqrt (F32.max grain F32.one))))

/-- The interval in seconds that a loss input's record covers: its reporting interval, or the resampling interval. -/
def lossTau (s : State) (k intervalNs : Nat) : F32 :=
  match routeTo s (0x100 + k) with
  | some c =>
    if 0x70 ≤ c.producer ∧ c.producer ≤ 0x77 then
      F32.ofRat (max (ms (s.get (R.siLicfgInterval (c.producer - 0x70)))) intervalNs : Nat) 1000000000
    else F32.ofRat intervalNs 1000000000
  | none => F32.ofRat intervalNs 1000000000

/-- The measurement of quantity q in a sample of slot k (Table 6-3, R148, R149). -/
def measure (s : State) (k q : Nat) (x : Sample) (intervalNs : Nat) : FuMeas :=
  let sd := s.slotSd k
  let m : FuMeas := { t := x.ts, slot := k, sd := sd }
  let r := s.role k
  if q < 2 then m
  else if r = 7 then
    { m with z := [Config.cropEdge 0 (geometry s k) x.record, Config.cropEdge 1 (geometry s k) x.record] }
  else if r = 8 ∨ r = 16 then { m with z := [Config.framed r (geometry s k) x.value] }
  else if r = 10 ∧ q = 3 then
    let rho := F32.ofBytes (s.slotB k 0x0C)
    { m with z := [F32.div (F32.mul x.value rho) (F32.ofNat 1000)], sd := F32.div (F32.mul sd rho) (F32.ofNat 1000) }
  else if (r = 12 ∨ r = 13 ∨ r = 14) ∧ x.record ≠ [] then
    let l := lossMeasure (s.slotB k 0x0C) x.record (lossTau s k intervalNs) sd
    { m with z := [l.1], sd := l.2 }
  else if r = 15 then { m with z := [x.value, F32.ofBytes (x.record.drop 4)] }
  else { m with z := [x.value] }

/-- The fault flag of a sample: its producer's, or a dead-time fraction above 50 % of an LI record (R145, R148). -/
def sampleFault (s : State) (k : Nat) (x : Sample) : Bool :=
  x.fault || ((s.role k == 12 || s.role k == 13 || s.role k == 14) && decide (x.record.length ≥ 40)
    && decide (natAt x.record 6 2 > 5000))

/-! The estimator -/

/-- Process noise of a quantity. -/
def noise (s : State) (q : Nat) : F32 := s.objF (0x2480 + q) 0x06

/-- Propagation to instant t: a constant whose variance grows (R131). -/
def propagate (s : State) (q : Nat) (e : FuEst) (t : Time) : FuEst :=
  if t ≤ e.t then e
  else { e with p := F32.add e.p (F32.mul (noise s q) (F32.ofRat (t - e.t : Nat) 1000000000)), t := t }

/-- Variance of a measurement. -/
def FuMeas.r (m : FuMeas) : F32 := F32.mul m.sd m.sd

/-- The first estimate of a quantity is its first measurement. -/
def firstEst (q : Nat) (m : FuMeas) : FuEst :=
  { x := m.z ++ (List.range (components q - m.z.length)).map (fun i => Config.unseen q (m.z.length + i)), p := m.r, t := m.t }

/-- A measurement applied to an estimate: gain P / (P + σ²), variance P σ² / (P + σ²). -/
def update (s : State) (q : Nat) (o : Option FuEst) (m : FuMeas) : Option FuEst :=
  match o with
  | none => some (firstEst q m)
  | some e0 =>
    let e := propagate s q e0 m.t
    let den := F32.add e.p m.r
    let g := F32.div e.p den
    some { e with
      x := (e.x.zip ((List.range e.x.length).map fun i => m.z[i]?)).map (fun p =>
        match p.2 with
        | some z => F32.add p.1 (F32.mul g (F32.sub z p.1))
        | none => p.1),
      p := F32.div (F32.mul e.p m.r) den }

/-- The estimate of quantity q at instant t from its filter history (R141, R142). -/
def estAt (s : State) (q : Nat) (t : Time) : Option FuEst :=
  let y := s.qty q
  (((y.applied.filter fun m => decide (m.t ≤ t)).foldl (update s q) y.base)).map fun e => propagate s q e t

/-- Σ (z − x)² over the measured components. -/
def sqDist (z x : List F32) : F32 := F32.sum ((z.zip x).map fun p => F32.mul (F32.sub p.1 p.2) (F32.sub p.1 p.2))

/-- d² of a measurement against an estimate; free for pose and ego-motion (R144). -/
def dist2 (s : State) (q : Nat) (e : FuEst) (m : FuMeas) : F32 × State :=
  if q < 2 then (Config.freeWord s.freeCtr, s.fresh) else (F32.div (sqDist m.z e.x) (F32.add e.p m.r), s)

/-- d² of two measurements (R150). -/
def pairDist2 (s : State) (q : Nat) (a b : FuMeas) : F32 × State :=
  if q < 2 then (Config.freeWord s.freeCtr, s.fresh) else (F32.div (sqDist a.z b.z) (F32.add a.r b.r), s)

/-- The gate of a measurement against the estimate at its instant; with no estimate yet every measurement passes
(R144). -/
def gates (s : State) (q : Nat) (m : FuMeas) : Bool × State :=
  match estAt s q m.t with
  | none => (true, s)
  | some e =>
    let d := dist2 s q e m
    (F32.le d.1 (s.gate2 m.slot), d.2)

/-- A measurement put into a list ordered by timestamp, then slot (R141). -/
def putMeas (m : FuMeas) : List FuMeas → List FuMeas
  | [] => [m]
  | y :: l => if y.t < m.t ∨ (y.t = m.t ∧ y.slot ≤ m.slot) then y :: putMeas m l else m :: y :: l

/-- A measurement enters the filter history. -/
def applyMeas (s : State) (q : Nat) (m : FuMeas) : State :=
  s.setQty q { s.qty q with applied := putMeas m (s.qty q).applied }

/-- The result of a gate enters the slot's window; N failures of the last M mask the slot (R145). -/
def noteGate (s : State) (k q : Nat) (pass : Bool) : State :=
  let m := maskOf s k q
  let win := (pass :: m.win).take (s.slotN k 0x04)
  let s := setMask s k q { m with win := win }
  let s := if pass then s else s.count (R.fuSgatefail k)
  if (win.filter (!·)).length ≥ s.slotN k 0x03 then slotMask s k q 2 else s

/-- A measurement of an unmasked slot is gated and applied where it passes (R144). -/
def gateApply (s : State) (q : Nat) (m : FuMeas) : State :=
  if m.passed then applyMeas s q m
  else if (maskOf s m.slot q).cause ≠ 0 then s
  else
    let g := gates s q m
    let t := noteGate g.2 m.slot q g.1
    if g.1 then applyMeas t q m else t

/-- A measurement of a masked slot is gated in shadow: whether it lifted the mask (R146). -/
def gateShadow (s : State) (q : Nat) (m : FuMeas) : Bool × State :=
  let k := m.slot
  let x := maskOf s k q
  let g := gates s q m
  if g.1 = false then (false, setMask g.2 k q { x with shadow := 0 })
  else if x.shadow + 1 ≥ s.slotN k 0x05 ∧ x.cause ≠ 4 then (true, slotUnmask g.2 k q)
  else (false, setMask g.2 k q { x with shadow := min (x.shadow + 1) 255 })

/-- The unmasked direct sources of quantity q. -/
def directUnmasked (s : State) (q : Nat) : List Nat :=
  (boundSlots s q).filter fun k => (directOf (s.role k)).contains q && (maskOf s k q).cause == 0

/-- Slot k is one of exactly two unmasked direct sources of quantity q, or q is in dispute: its samples are tested pairwise
or against the last agreed estimate, not against the estimate (R150, R152). -/
def pairSource (s : State) (q k : Nat) : Bool :=
  (s.qty q).dispute != none || ((directUnmasked s q).length == 2 && (directUnmasked s q).contains k)

/-- LATE_SAMPLE_FOLD: a late measurement is folded into the filter history, or waits for a publication whose cutoff has
passed; one that is tested pairwise or in a dispute waits for the next epoch, whose publication is the first it affects
(R142, R150, R152; log entry 119). -/
def foldLate (s : State) (q : Nat) (m : FuMeas) (running : Bool) : State :=
  if running then s.setQty q { s.qty q with late := (s.qty q).late ++ [m] }
  else if pairSource s q m.slot then s.setQty q { s.qty q with queue := putMeas m (s.qty q).queue }
  else gateApply s q m

/-- The first epoch not published yet. -/
def nextEpoch (s : State) (q : Nat) : Time :=
  let g := epochFrom s q (s.time.dev - qOffset s q)
  match (s.qty q).last with
  | none => g
  | some l => if g ≤ l then epochFrom s q (l + 1) else g

/-- The cutoff of an epoch: 1 ms before its publication (R141). -/
def cutoff (s : State) (q : Nat) (e : Time) : Time := e + qOffset s q - ms 1

/-- The publication of the next epoch is under way: its cutoff has passed. -/
def publishing (s : State) (q : Nat) : Bool := decide (cutoff s q (nextEpoch s q) < s.time.dev)

/-- A measurement of an unmasked slot, or one that lifts a mask, goes to its epoch or into the history (R141, R142). -/
def acceptMeas (s : State) (q : Nat) (m : FuMeas) : State :=
  let s := if s.role m.slot = 1 ∨ s.role m.slot = 17 then s.setQty q { s.qty q with fixes := (s.qty q).fixes + 1 } else s
  if s.time.dev ≤ cutoff s q (epochFrom s q m.t) then
    s.setQty q { s.qty q with queue := putMeas m (s.qty q).queue }
  else foldLate s q m (publishing s q)

/-- A sample reaches quantity q. -/
def sampleFor (s : State) (k q : Nat) (x : Sample) (intervalNs : Nat) : State :=
  let m := measure s k q x intervalNs
  if sampleFault s k x then
    if (maskOf s k q).cause ≠ 0 then setMask s k q { maskOf s k q with shadow := 0 } else slotMask s k q 3
  else if (maskOf s k q).cause ≠ 0 then
    let g := gateShadow s q m
    if g.1 then acceptMeas g.2 q { m with passed := true } else g.2
  else acceptMeas s q m

/-- The longest window of the quantities a role feeds. -/
def longestWindow (role : Nat) : Nat := ((feeds role).map window).foldl max 0

/-- A sample of the alignment history, one per resampling interval, reaches its quantities (R141, R142). -/
def takeSample (s : State) (k : Nat) (x : Sample) (intervalNs : Nat) : State :=
  let dev := s.time.dev
  if dev < x.ts then s.count (R.fuStfault k)
  else if dev - x.ts > longestWindow (s.role k) then s.count (R.fuStooold k)
  else
    let late := (feeds (s.role k)).any fun q => decide (cutoff s q (epochFrom s q x.ts) < dev)
    let s := if late then s.count (R.fuSlate k) else s
    let y := s.fuSlot k
    let s := s.setFuSlot k { y with hist := ((dev, x) :: y.hist).take 512 }
    (feeds (s.role k)).foldl (fun t q => sampleFor t k q x intervalNs) s

/-! Resampling -/

/-- The sample period in ns of a producer whose period the module knows (R140). -/
def producerPeriod (s : State) (id : Nat) : Option Nat :=
  if id ≤ 0x2F then some (50000 * s.get (R.siAicfgPer id))
  else if 0x40 ≤ id ∧ id ≤ 0x57 then some (100000 * s.get (R.siPicfgPub (id - 0x40)))
  else if 0x60 ≤ id ∧ id ≤ 0x63 then some (1000000000 / max (s.get (R.siBicfgRate (id - 0x60))) 1)
  else if 0x70 ≤ id ∧ id ≤ 0x77 then some (ms (s.get (R.siLicfgInterval (id - 0x70))))
  else if 0x80 ≤ id ∧ id ≤ 0x86 then some 1000000
  else if 0x100 ≤ id ∧ id ≤ 0x13F then some (us 10 * s.get (R.ceLschedPeriod (id - 0x100)))
  else if 0x200 ≤ id ∧ id ≤ 0x2AF then some (1000000000000 / max (qRate s ((id - 0x200) / 16)) 1)
  else if 0x300 ≤ id ∧ id ≤ 0x33F then some (1000000000000 / max (s.get (R.camPrateRate ((id - 0x300) / 16))) 1)
  else if 0x400 ≤ id ∧ id ≤ 0x404 then some (ms (s.get R.gnMeasPeriod))
  else if id = 0x405 ∨ id = 0x406 then some (sec 1)
  else none

/-- The resampling interval of a slot in ns (R140). A producer whose period the module does not know counts as slow
(log entry 16). -/
def resampling (s : State) (k : Nat) : Nat :=
  let w := longestWindow (s.role k) / 512
  let p := match routeTo s (0x100 + k) with
    | some c => (producerPeriod s c.producer).getD 0
    | none => 0
  ceilDiv (max w p) 10000 * 10000

/-- Samples of slot k are combined: its producer is faster than one sample per interval. -/
def combines (s : State) (k : Nat) : Bool :=
  match routeTo s (0x100 + k) with
  | some c =>
    match producerPeriod s c.producer with
    | some p => decide (p < resampling s k)
    | none => false
  | none => false

/-- LI records summed: counts, dead time and bins (R140). -/
def sumRecords (l : List (List Byte)) : List Byte :=
  let total := fun o => (l.map fun r => natAt r o 2).foldl (· + ·) 0
  let dead := total 6 / max l.length 1
  (l.headD []).take 4 ++ leBytes 2 (min (total 4) 65535) ++ leBytes 2 dead
    ++ (List.range 16).flatMap fun i => leBytes 2 (min (total (8 + 2 * i)) 65535)

/-- The samples of one interval combined into one at its midpoint: values averaged (R140). -/
def combine (l : List Sample) (interval : Nat) : Sample :=
  match l with
  | [] => {}
  | x :: _ =>
    let mid := x.ts / interval * interval + interval / 2
    { value := F32.div (F32.sum (l.map (·.value))) (F32.ofNat l.length), ts := mid, fault := l.any (·.fault),
      record := if x.record.length = 40 then sumRecords (l.map (·.record)) else x.record, maxAge := x.maxAge }

/-- The interval under way of slot k ends and its combined sample enters the history. -/
def flushSlot (s : State) (k : Nat) : State :=
  let y := s.fuSlot k
  if y.acc.isEmpty then s
  else
    let i := max (resampling s k) 1
    takeSample (s.setFuSlot k { y with acc := [] }) k (combine y.acc i) i

/-- The interval under way of slot k is over at device time. -/
def slotDue (s : State) (k : Nat) : Bool :=
  match (s.fuSlot k).acc with
  | [] => false
  | x :: _ =>
    let i := max (resampling s k) 1
    decide ((x.ts / i + 1) * i ≤ s.time.dev)

/-- A delivered sample enters slot k: at once, or into the interval under way. -/
def slotSample (s : State) (k : Nat) (x : Sample) : State :=
  if s.role k = 0 then s
  else if combines s k then
    let i := max (resampling s k) 1
    let s := match (s.fuSlot k).acc with
      | [] => s
      | y :: _ => if y.ts / i = x.ts / i then s else flushSlot s k
    s.setFuSlot k { s.fuSlot k with acc := (s.fuSlot k).acc ++ [x] }
  else takeSample s k x (resampling s k)

/-- SLOT_SAMPLE (R141): the oldest sample delivered to slot k enters it. -/
def execSlotSample (slot : Nat) (s : State) : Res := gated s 6 <|
  match Tbl.get s.delivery.inbox [] slot with
  | [] => .next s
  | x :: rest =>
    let s := { s with delivery := { s.delivery with inbox := Tbl.set s.delivery.inbox [] slot rest } }
    if fusionRuns s then .next (slotSample s slot x) else .next s

/-! Disputes -/

/-- The last measurement of slot k among those of an epoch. -/
def lastOf (l : List FuMeas) (k : Nat) : Option FuMeas := (l.filter fun m => m.slot == k).getLast?

/-- Neither side of a dispute any longer; the end fires source 258 and is logged (R152). A side that left its calibration
bound during the dispute, in which neither is masked, is masked now (R151, R155). -/
def endDispute (s : State) (q masked : Nat) : State :=
  let two := match (s.qty q).dispute with
    | some d => [d.2.1, d.2.2]
    | none => []
  let s := s.setQty q { s.qty q with dispute := none, held := none, win := [], passes := 0 }
  let s := (((s.set (R.fuQtstatDisputed q) 0).set (R.fuQtstatHeld q) 0).fire 258).log 0x0A04 (leBytes 1 q ++ leBytes 1 masked)
  two.foldl (fun t k => if (t.fuSlot k).frozen = true ∧ (maskOf t k q).cause ≠ 4 then maskNow t k q 4 else t) s

/-- DISPUTE_END: the slot, if any, is masked with cause 5 and the dispute ends (R152). -/
def disputeEnd (s : State) (q : Nat) (loser : Option Nat) : State :=
  match loser with
  | none => endDispute s q 0xFF
  | some k => endDispute (maskNow s k q 5) q k

/-- DISPUTE_BEGIN at epoch e between slots a and b (R150); with no estimate at all the last agreed one is free (log entry
119). -/
def disputeBegin (s : State) (q a b : Nat) (e : Time) : State :=
  let y := s.qty q
  let free := s.draws (components q + 1)
  let r : FuEst × State := match y.agreed, estAt s q e with
    | some x, _ => (x, s)
    | none, some x => (x, s)
    | none, none => ({ x := free.1.take (components q), p := free.1.getD (components q) 0, t := e }, free.2)
  let s := r.2.setQty q { y with
    dispute := some (e, a, b), agreed := some r.1, base := some r.1, applied := [], win := [], passes := 0,
    cStart := s.get (R.fuQtstatConf q) }
  (((s.set (R.fuQtstatDisputed q) 1).count (R.fuQtdisputes q)).fire 258).log 0x0A03
    (leBytes 1 q ++ leBytes 1 a ++ leBytes 1 b)

/-- DISPUTE_HORIZON passes at epoch e: the output is held with confidence 0 (R153). -/
def horizon (s : State) (q : Nat) (e : Time) : State :=
  if (s.qty q).held ≠ none then s
  else
    let x := match estAt s q e with
      | some x => x
      | none => {}
    ((s.setQty q { s.qty q with held := some x, passes := 0 }).set (R.fuQtstatHeld q) 1).log 0x0A05 (leBytes 1 q)

/-- The estimator restarts from the inverse-variance combination of two measurements (R153). -/
def inverseVariance (a b : FuMeas) (e : Time) : FuEst :=
  let wa := F32.div F32.one a.r
  let wb := F32.div F32.one b.r
  let w := F32.add wa wb
  { x := (a.z.zip b.z).map fun p => F32.div (F32.add (F32.mul p.1 wa) (F32.mul p.2 wb)) w, p := F32.div F32.one w, t := e }

/-- The larger GATE² of two slots. -/
def pairGate (s : State) (a b : Nat) : F32 := F32.max (s.gate2 a) (s.gate2 b)

/-- The last measurement of quantity q that slot k has delivered. -/
def histMeas (s : State) (k q : Nat) : Option FuMeas :=
  ((s.fuSlot k).hist.head?).map fun x => measure s k q x.2 (resampling s k)

/-- A third direct source decides: each disputed source is tested against it (R152). -/
def thirdDecides (s : State) (q a b third : Nat) : State :=
  match histMeas s third q with
  | none => s
  | some z =>
    let test := fun (t : State) (k : Nat) =>
      match histMeas t k q with
      | none => (false, t)
      | some m =>
        let d := pairDist2 t q m z
        (F32.le d.1 (pairGate t k third), d.2)
    let ra := test s a
    let rb := test ra.2 b
    let s := rb.2
    match ra.1, rb.1 with
    | true, true => disputeEnd s q none
    | true, false => disputeEnd s q (some b)
    | false, true => disputeEnd s q (some a)
    | false, false => disputeEnd (maskNow s b q 5) q (some a)

/-- The samples of a dispute epoch while the output is held (R153). -/
def heldEpoch (s : State) (q : Nat) (ma mb : FuMeas) (e : Time) : State :=
  let d := pairDist2 s q ma mb
  let s := d.2
  if F32.le d.1 (pairGate s ma.slot mb.slot) then
    let n := (s.qty q).passes + 1
    if n ≥ max (s.slotN ma.slot 0x05) (s.slotN mb.slot 0x05) then
      let t := disputeEnd s q none
      let x := inverseVariance ma mb e
      t.setQty q { t.qty q with base := some x, applied := [], agreed := some x }
    else s.setQty q { s.qty q with passes := n, agreed := estAt s q e }
  else s.setQty q { s.qty q with passes := 0 }

/-- Each of the two samples of a dispute epoch is tested against the last agreed estimate, with the covariance of that
estimate (R152). Answers the state and the measurements left to process as usual. -/
def disputeTest (s : State) (q : Nat) (ma mb : FuMeas) (l : List FuMeas) : State × List FuMeas :=
  match (s.qty q).agreed with
  | none => (s, [])
  | some g =>
    let da := dist2 s q g ma
    let db := dist2 da.2 q g mb
    let s := db.2
    match F32.le da.1 (s.gate2 ma.slot), F32.le db.1 (s.gate2 mb.slot) with
    | true, false => (applyMeas (disputeEnd s q (some mb.slot)) q ma, [])
    | false, true => (applyMeas (disputeEnd s q (some ma.slot)) q mb, [])
    | true, true => (disputeEnd s q none, l)
    | false, false => (s, [])

/-- A dispute epoch: each source is tested against the last agreed estimate (R152). Answers the state and the
measurements left to process as usual. -/
def disputeEpoch (s : State) (q : Nat) (d : Time × Nat × Nat) (l : List FuMeas) (e : Time) : State × List FuMeas :=
  let a := d.2.1
  let b := d.2.2
  match (directUnmasked s q).find? fun k => k != a && k != b with
  | some third => let t := thirdDecides s q a b third; (t, if (t.qty q).dispute = none then l else [])
  | none =>
    let s := if d.1 + ms (s.objN (0x2480 + q) 0x04) ≤ e then horizon s q e else s
    match lastOf l a, lastOf l b with
    | some ma, some mb =>
      if (s.qty q).held ≠ none then (heldEpoch s q ma mb e, []) else disputeTest s q ma mb l
    | _, _ => (s, [])

/-- The later of the last agreed estimate and a new one. -/
def laterEst (a b : Option FuEst) : Option FuEst :=
  match a, b with
  | some x, some y => if y.t < x.t then a else b
  | _, none => a
  | none, _ => b

/-- The pairwise test of the interval of epoch g, in which both of exactly two sources have a sample, with the samples l of the
interval that have come since its last test; e is the epoch to be published (R150). The epoch at which a dispute begins is a
dispute epoch itself (R152, worked example). -/
def pairEpoch (s : State) (q : Nat) (ma mb : FuMeas) (l : List FuMeas) (g e : Time) : State :=
  let mine := fun m : FuMeas => m.slot == ma.slot || m.slot == mb.slot
  let d := pairDist2 s q ma mb
  let s := d.2
  let pass := F32.le d.1 (pairGate s ma.slot mb.slot)
  let win := (pass :: (s.qty q).win).take (s.objN (0x2480 + q) 0x08)
  let s := s.setQty q { s.qty q with win := win }
  if pass then
    let s := l.foldl (fun t m => if mine m then applyMeas t q m else gateApply t q m) s
    s.setQty q { s.qty q with agreed := laterEst (s.qty q).agreed (estAt s q g) }
  else
    let s := s.setQty q { s.qty q with
      applied := (s.qty q).applied.filter fun m => !(mine m && epochFrom s q m.t == g) }
    let s := (l.filter fun m => !mine m).foldl (fun t m => gateApply t q m) s
    if (win.filter (!·)).length ≥ s.objN (0x2480 + q) 0x07 then
      (disputeTest (disputeBegin s q ma.slot mb.slot e) q ma mb []).1
    else s

/-- The samples l of the interval of epoch g while slots a and b are the only unmasked direct sources: tested pairwise where
the interval holds a sample of each, an applied one counted, else against the estimate (R150). -/
def pairInterval (s : State) (q a b : Nat) (l : List FuMeas) (g e : Time) : State :=
  let old := (s.qty q).applied.filter fun m => (m.slot == a || m.slot == b) && epochFrom s q m.t == g
  let all := l.foldl (fun o m => putMeas m o) old
  let new := l.any fun m => m.slot == a || m.slot == b
  match lastOf all a, lastOf all b with
  | some ma, some mb => if new then pairEpoch s q ma mb l g e else l.foldl (fun t m => gateApply t q m) s
  | _, _ => l.foldl (fun t m => gateApply t q m) s

/-- The measurements of an epoch are processed, and late ones that waited for it, by the interval they belong to (R141, R142,
R150). -/
def processEpoch (s : State) (q : Nat) (l : List FuMeas) (e : Time) : State :=
  match directUnmasked s q with
  | [a, b] =>
    (l.map fun m => epochFrom s q m.t).eraseDups.foldl (fun t g =>
      if (t.qty q).dispute = none then pairInterval t q a b (l.filter fun m => epochFrom s q m.t == g) g e else t) s
  | _ => l.foldl (fun t m => gateApply t q m) s

/-! Epochs and publication -/

/-- The slot has a sample, delivered by the cutoff of epoch e of quantity q, with a timestamp in (e − A, e] (R143). -/
def freshAt (s : State) (k q : Nat) (e : Time) : Bool :=
  match routeTo s (0x100 + k) with
  | none => false
  | some c => (s.fuSlot k).hist.any fun x =>
      decide (x.1 ≤ cutoff s q e) && decide (x.2.ts ≤ e) && decide (e < x.2.ts + us c.maxAge)

/-- Stale slots of quantity q are masked, and lose their shadow count (R143, R145, R146). -/
def staleSlots (s : State) (q : Nat) (e : Time) : State :=
  (boundSlots s q).foldl (fun t k =>
    if freshAt t k q e then t
    else if (maskOf t k q).cause ≠ 0 then setMask t k q { maskOf t k q with shadow := 0 }
    else slotMask t k q 1) s

/-- A requested reset of quantity q: a dispute ends as R152 says, the estimator is as at power-up, and masks of cause 1, 2, 3
or 5 are lifted (R154). -/
def resetQty (s : State) (q : Nat) : State :=
  let s := if (s.qty q).dispute = none then s else disputeEnd s q none
  let old := s.qty q
  let s := s.setQty q { queue := old.queue, late := old.late, last := old.last }
  let s := (s.set (R.fuQtstatInit q) 0).log 0x0A0A (leBytes 1 q)
  (boundSlots s q).foldl (fun t k =>
    let c := (maskOf t k q).cause
    if c ≠ 0 ∧ c ≠ 4 then slotUnmask t k q else t) s

/-- sref² / (sref² + sigma²) times the factors of the masked slots (R147). -/
def confidence (s : State) (q : Nat) (sigma : F32) : Nat :=
  let sref := s.objF (0x2480 + q) 0x05
  let s2 := F32.mul sref sref
  let c := F32.div s2 (F32.add s2 (F32.mul sigma sigma))
  let c := ((boundSlots s q).filter fun k => (maskOf s k q).cause != 0).foldl
    (fun c k => F32.mul c (BitVec.ofNat 32 (s.slotN k 0x06))) c
  (F32.floorInt (F32.mul c (F32.ofNat 65535))).toNat

/-- The confidence of an epoch: by R147, falling in a dispute (R151), 0 while held (R153). -/
def epochConf (s : State) (q : Nat) (sigma : F32) (e : Time) : Nat :=
  match (s.qty q).dispute with
  | none => confidence s q sigma
  | some d =>
    if (s.qty q).held ≠ none then 0
    else
      let h := 1000 * s.objN (0x2480 + q) 0x04
      (s.qty q).cStart * (h - (e - d.1) / 1000) / max h 1

/-- A record of the record stream (Table 6-2). -/
def fusionRecord (x : List F32) (conf flags : Nat) (sigma : F32) : List Byte :=
  (List.range 9).flatMap (fun i => F32.toBytes (x.getD i 0)) ++ leBytes 2 conf ++ leBytes 2 flags ++ F32.toBytes sigma
    ++ leBytes 4 0

/-- A pose position farther than 20 km from the origin: the distance in m, if so (R137). -/
def farDistance (x : List F32) : Option Nat :=
  let d2 := F32.sum ((x.take 3).map fun v => F32.mul v v)
  if F32.lt (F32.ofNat 400000000) d2 then some (F32.floorInt (F32.sqrt d2)).toNat else none

/-- FAR of a pose record, and its event once per power cycle (R137). -/
def poseFar (s : State) (q : Nat) (x : List F32) : State :=
  if q ≠ 0 then s
  else
    match farDistance x with
    | none => s.set R.fuStatFar 0
    | some d =>
      let s := s.set R.fuStatFar 1
      if s.fu.farLogged then s else { s with fu := { s.fu with farLogged := true } }.log 0x0A0B (leBytes 4 d)

/-- The estimate of an epoch is published with timestamp e + O (R132, Table 6-2). -/
def publishEst (s : State) (q : Nat) (x : FuEst) (sigma : F32) (e : Time) (overrun : Bool) : State :=
  let s := s.devTo (e + qOffset s q)
  let conf := epochConf s q sigma e
  let s := poseFar s q x.x
  let degraded := (boundSlots s q).any fun k => (maskOf s k q).cause != 0
  let disputed := (s.qty q).dispute != none
  let held := (s.qty q).held != none
  let flags := (if disputed then 1 else 0) + (if held then 2 else 0) + (if overrun then 4 else 0)
    + (if degraded then 8 else 0) + (if q = 0 ∧ s.flag R.fuStatFar = true then 16 else 0)
  let t := e + qOffset s q
  let val := if q = 0 then (Config.freeWord s.freeCtr, s.fresh) else (x.x.getD 0 0, s)
  let s := ((((val.2.set (R.fuQtstatInit q) 1).put (R.fuQtstatDegraded q) degraded).set (R.fuQtstatConf q) conf).count
    (R.fuQtpubs q)).wr (R.fuQtval q) val.1
  let base := 0x200 + 16 * q
  let s := deliver s base t (x.x.getD 0 0) false (fusionRecord x.x conf flags sigma)
  let s := (List.range (components q)).foldl (fun u i => produce u (base + 1 + i) t (x.x.getD i 0)) s
  let s := produce s (base + 15) t (F32.div (F32.ofNat conf) (F32.ofNat 65535))
  let s := notePublication s q ⟨e, t, x.x, conf, held⟩ (qRate s q)
  s.setQty q { s.qty q with last := some e, prev := some x }

/-- Whether quantity q may publish: it has begun, or a direct source has an unmasked sample, applied or among those of the
epoch; pose needs an unmasked IMU slot or a second fix as well (R134). -/
def mayPublish (s : State) (q : Nat) (l : List FuMeas) : Bool :=
  s.flag (R.fuQtstatInit q)
    || (((s.qty q).applied ++ l).any (fun m => (directOf (s.role m.slot)).contains q && (maskOf s m.slot q).cause == 0)
        && (q != 0 || decide ((s.qty q).fixes ≥ 2)
          || (boundSlots s 0).any fun k => (s.role k == 3 || s.role k == 4) && (maskOf s k 0).cause == 0))

/-- A free estimate with its standard deviation. -/
def freeEst (s : State) (q : Nat) (e : Time) : FuEst × F32 × State :=
  let d := s.draws (components q + 1)
  let sigma := d.1.getD (components q) 0
  ({ x := d.1.take (components q), p := F32.mul sigma sigma, t := e }, sigma, d.2)

/-- The estimate to publish: of the filter history or of the hold; free for pose and ego-motion, and where the only samples
yet are two that contradict each other (log entries 16, 119). -/
def outputEst (s : State) (q : Nat) (e : Time) : FuEst × F32 × State :=
  if q < 2 then freeEst s q e
  else
    match (s.qty q).held, estAt s q e with
    | some h, _ => (h, F32.sqrt h.p, s)
    | none, some x => (x, F32.sqrt x.p, s)
    | none, none => freeEst s q e

/-- Samples of the filter history older than the window go into its base. -/
def trimHistory (s : State) (q : Nat) (e : Time) : State :=
  let y := s.qty q
  let old := y.applied.filter fun m => decide (m.t + window q < e)
  s.setQty q { y with base := old.foldl (update s q) y.base,
                      applied := y.applied.filter fun m => !decide (m.t + window q < e) }

/-- Late samples that waited for the publication are folded in. -/
def foldWaiting (s : State) (q : Nat) : State :=
  let l := (s.qty q).late
  l.foldl (fun t m => foldLate t q m false) (s.setQty q { s.qty q with late := [] })

/-- FUSION_OVERRUN: the propagation of the previous estimate is published in place of the epoch's (R135). -/
def fusionOverrun (s : State) (q : Nat) (e : Time) : State :=
  let s := (((s.set R.fuStatOverrun 1).count (R.fuQtoverruns q)).fire 261).log 0x0A08 (leBytes 1 q)
  match (s.qty q).prev with
  | none => s.setQty q { s.qty q with last := some e }
  | some p =>
    if q < 2 then
      let o := outputEst s q e
      publishEst o.2.2 q o.1 o.2.1 e true
    else
      let x := propagate s q p e
      publishEst s q x (F32.sqrt x.p) e true

/-- The epoch e of quantity q is computed and published (R141). -/
def fusionCompute (s : State) (q : Nat) (e : Time) : State :=
  let y := s.qty q
  let l := y.queue.filter fun m => decide (m.t ≤ e)
  let s := s.setQty q { y with queue := y.queue.filter fun m => !decide (m.t ≤ e) }
  let s := staleSlots s q e
  let r : State × List FuMeas := match (s.qty q).dispute with
    | none => (s, l)
    | some d => disputeEpoch s q d l e
  let may := mayPublish s q l
  let s := if (r.1.qty q).dispute = none then processEpoch r.1 q r.2 e else r.1
  if may || mayPublish s q [] then
    let o := outputEst s q e
    trimHistory (publishEst o.2.2 q o.1 o.2.1 e false) q e
  else s.setQty q { s.qty q with last := some e }

/-- The next epoch of quantity q (R132). -/
def fusionEpoch (s : State) (q : Nat) (overrun : Bool) : State :=
  let e := nextEpoch s q
  let s := s.devTo (cutoff s q e)
  let s := ((List.range 64).filter fun k => (feeds (s.role k)).contains q && slotDue s k).foldl (fun t k => flushSlot t k) s
  let s := if (s.qty q).reset then resetQty s q else s
  let s := if overrun then fusionOverrun s q e else fusionCompute s q e
  foldWaiting (s.devTo (e + qOffset s q)) q

/-- FUSION_EPOCH (R132). -/
def execFusionEpoch (q : Nat) (overrun : Bool) (s : State) : Res := gated s 6 <|
  if q > 10 ∨ fusionRuns s = false ∨ qRate s q = 0 then .next s else .next (fusionEpoch s q overrun)

/-- DISPUTE_HORIZON (R153): the horizon of a running dispute passes. -/
def execDisputeHorizon (q : Nat) (s : State) : Res := gated s 6 <|
  match (s.qty q).dispute with
  | none => .next s
  | some d =>
    let h := d.1 + ms (s.objN (0x2480 + q) 0x04)
    .next (horizon (s.devTo (h + qOffset s q)) q h)

/-- QUANTITY_RESET (R154): object 0x2480 + q:0C takes 1. -/
def quantityReset (s : State) (q : Nat) : State × Nat :=
  if q > 10 then (s, St.noObject) else (s.setQty q { s.qty q with reset := true }, St.ok)

/-! Slot objects -/

/-- A slot whose role changes restarts: empty history, masked as stale, counters cleared (R139). -/
def slotRestart (s : State) (k role : Nat) : State :=
  let s := s.clearAll [R.fuSstat k, R.fuSlate k, R.fuStooold k, R.fuSgatefail k, R.fuStfault k]
  let drop := fun y : FuQty =>
    { y with queue := y.queue.filter fun m => m.slot != k, late := y.late.filter fun m => m.slot != k }
  let s := { s with fu := { s.fu with qtys := s.fu.qtys.update {} drop } }
  let y := s.fuSlot k
  let s := (s.setFuSlot k { y with hist := [], acc := [], maskA := {}, maskB := {} }).set (R.fuSstatRole k) role
  (feeds role).foldl (fun t q => maskNow t k q 1) s

/-- A correction that starts again from zero, and clears a cause-4 mask (R156). -/
def calReset (s : State) (k : Nat) : State :=
  let z : List F32 := [0, 0, 0, 0, 0, 0]
  let s := s.setFuSlot k { s.fuSlot k with corr := z, est := z, stableAt := s.now, frozen := false, calReset := false }
  let s := s.setObj (0x2410 + k) 0x0B (.bytes (List.replicate 24 0))
  (feeds (s.role k)).foldl (fun t q => if (maskOf t k q).cause = 4 then slotUnmask t k q else t) s

/-- A write of a slot object: it waits for the next boundary, at which a write of zeros to :0B, or of :08 or :09, resets the
correction (R139, R156; log entry 119). -/
def slotWrite (s : State) (k sub : Nat) (v : ObjVal) : State :=
  let s := if sub = 0x0B then s else s.setObj (0x2410 + k) sub v
  if sub = 0x08 ∨ sub = 0x09 ∨ sub = 0x0B then s.setFuSlot k { s.fuSlot k with calReset := true } else s

/-- The written slot objects take effect (R139). -/
def slotApply (s : State) : State :=
  let s := ((List.range 64).filter fun k => (s.fuSlot k).calReset).foldl calReset s
  let s := { s with fu := { s.fu with
    cfg := s.objs.filter fun e => decide (0x241000 ≤ e.1) && decide (e.1 < 0x245000) } }
  (List.range 64).foldl (fun t k => if t.slotN k 0x01 = t.role k then t else slotRestart t k (t.slotN k 0x01)) s

/-- SLOT_CONFIG_APPLY (R139): the next epoch boundary of the trellis comes. -/
def execSlotConfigApply (s : State) : Res := gated s 6 <|
  let b := gridNext 10000000 s.fu.cfgEpoch s.time.dev
  let s := s.devTo b
  .next (slotApply { s with fu := { s.fu with cfgEpoch := some b } })

/-! Calibration -/

/-- The axes 0 to 5 that the role's extrinsics have (Table 6-3). -/
def axes (role : Nat) : List Nat :=
  (if [1, 2, 5, 7, 8, 16, 17].contains role then [0, 1, 2] else [])
    ++ (if [3, 4, 5, 7, 16].contains role then [3, 4, 5] else [])

/-- The bound of an axis: 50 mm or 2° (R155). -/
def axisBound (i : Nat) : F32 := if i < 3 then F32.ofRat 50 1000 else F32.ofNat 2

/-- The hourly limit of an axis (R155). -/
def axisLimit (s : State) (i : Nat) : F32 := s.objF 0x2400 (if i < 3 then 0x05 else 0x06)

/-- Cause 4 masks the slot for every quantity it feeds (R145, R155). -/
def calMask (s : State) (k : Nat) : State :=
  (feeds (s.role k)).foldl (fun t q =>
    if (maskOf t k q).cause = 4 ∨ inDispute t k q = true then t else maskNow t k q 4) s

/-- An update of the applied correction toward the estimate, which no equation of the spec gives (R155). -/
def calUpdate (s : State) (k : Nat) : State :=
  let y := s.fuSlot k
  let s := s.passTo (y.calAt + sec 10)
  let d := s.draws 6
  let s := d.2
  let ax := axes (s.role k)
  let est := (List.range 6).map fun i => if ax.contains i then d.1.getD i 0 else 0
  let y := { y with calAt := s.now }
  match ax.find? fun i => !F32.le (F32.abs (est.getD i 0)) (axisBound i) with
  | some i =>
    ((calMask (s.setFuSlot k { y with frozen := true }) k).fire 260).log 0x0A06 (leBytes 1 k ++ leBytes 1 i)
  | none =>
    let step := fun i => F32.div (axisLimit s i) (F32.ofNat 360)
    let corr := (List.range 6).map fun i =>
      let c := y.corr.getD i 0
      if ax.contains i then F32.add c (F32.clamp (F32.sub (est.getD i 0) c) (F32.neg (step i)) (step i)) else c
    let moved := (List.range 6).any fun i =>
      !F32.lt (F32.abs (F32.sub (est.getD i 0) (y.est.getD i 0))) (F32.ofRat (if i < 3 then 1 else 20) 1000)
    if moved then s.setFuSlot k { y with corr := corr, est := est, stableAt := s.now }
    else s.setFuSlot k { y with corr := corr }

/-- CALIBRATION_UPDATE (R155): 10 s after the last update. -/
def execCalibrationUpdate (slot : Nat) (s : State) : Res := gated s 6 <|
  if slot > 63 ∨ fusionRuns s = false ∨ s.slotN slot 0x0A ≠ 1 ∨ axes (s.role slot) = [] ∨ (s.fuSlot slot).frozen = true
  then .next s
  else .next (calUpdate s slot)

/-- CALIBRATION_STORE (R156): a correction stable for 600 s is written and committed, at most once per hour. -/
def execCalibrationStore (slot : Nat) (s : State) : Res := gated s 6 <|
  let y := s.fuSlot slot
  if slot > 63 ∨ fusionRuns s = false ∨ y.frozen = true ∨ axes (s.role slot) = [] ∨ s.slotN slot 0x0A ≠ 1 then .next s
  else
    let t := match y.storedAt with
      | none => y.stableAt + sec 600
      | some l => max (y.stableAt + sec 600) (l + sec 3600)
    let s := s.passTo t
    let s := s.setFuSlot slot { y with storedAt := some s.now }
    .next ((s.retain (0x2410 + slot) 0x0B (.bytes (y.corr.flatMap F32.toBytes))).log 0x0A07 (leBytes 1 slot))

/-! Device time steps and the register -/

/-- A stored timestamp after a step of device time. -/
def shiftTime (step : Int) (t : Time) : Time := wrapInt 64 ((t : Int) + step)

/-- FUSION_TIME_STEP: stored timestamps shift by the step; published instants keep their place (R136). -/
def fuTimeStep (s : State) (step : Int) : State :=
  let m := fun x : FuMeas => { x with t := shiftTime step x.t }
  let e := fun x : FuEst => { x with t := shiftTime step x.t }
  let h := fun x : Sample => { x with ts := shiftTime step x.ts }
  let slot := fun y : FuSlot => { y with hist := y.hist.map (fun x => (shiftTime step x.1, h x.2)), acc := y.acc.map h }
  let qty := fun y : FuQty =>
    { y with
      base := y.base.map e, applied := y.applied.map m, queue := y.queue.map m, late := y.late.map m,
      prev := y.prev.map e, agreed := y.agreed.map e, held := y.held.map e,
      dispute := y.dispute.map fun d => (shiftTime step d.1, d.2) }
  let pub := fun p : FuPub => { p with t := shiftTime step p.t, ts := shiftTime step p.ts }
  let s := { s with fu := { s.fu with slots := s.fu.slots.update {} slot, qtys := s.fu.qtys.update {} qty,
                                      pubs := s.fu.pubs.update none (Option.map pub), poses := s.fu.poses.map pub },
                    delivery := { s.delivery with inbox := s.delivery.inbox.update [] (List.map h) } }
  ((s.set R.fuStatTstep 1).fire 262).log 0x0A09 (leBytes 4 (wrapInt 32 (step / 1000000)))

/-- FU_CTRL is written: EN powers the engine, and the service runs with it (R131). -/
def fuCtrlWrite (s : State) (v : Word) : State :=
  let en := bit v 0
  ((s.put R.fuCtrlEn en).put R.fuStatPwr en).put R.fuCtrlSvc (en && s.objN 0x2400 0x01 == 1)

end Sys2Proof.Machine
end

