-- ==== Sys2Proof/Machine/GhUnit.lean ====
section
/-!
DEFINITION. The GH unit: the queue of timed commands and their execution (10_parterre_gatehouse.md R249 to R254).
-/
namespace Sys2Proof.Machine

/-- The queue takes a value, with OCC. -/
def State.setGhQueue (s : State) (l : List GhCmd) : State :=
  { s with gh := { s.gh with queue := l } }.set R.ghStatOcc l.length

/-- The channel is present, not owned by a loop, and in a mode of Table 10-4. -/
def ghChannelOk (s : State) (kind ch : Nat) : Bool :=
  if kind = 0 then
    decide (ch < 48) && !s.flag (R.sdCstatOwned ch) && (s.sdMode ch == 1 || s.sdMode ch == 3)
  else decide (ch < 32) && !s.flag (R.lsCstatOwned ch) && s.lsMode ch != 0

/-- Tick a is older than tick b in serial order. -/
def serialOlder (a b : Nat) : Bool := decide ((a + 4294967296 - b % 4294967296) % 4294967296 ≥ 2147483648)

/-- The refusal of a command: the RESULT code, 0 accepted (R249). With EN = 0 every command is refused with code 1 (log
entry 14). -/
def ghRefusal (s : State) (c : GhCmd) (action : Nat) : Nat :=
  let last := Tbl.get s.gh.lastIssue 0 (64 * c.kind + c.ch)
  if action = 3 then 5
  else if s.flag R.ghCtrlEn = false then 1
  else if action ≠ 0 ∧ s.gh.queue.length ≥ 256 then 1
  else if !ghChannelOk s c.kind c.ch then 2
  else if c.epoch < s.get R.ghEpochEpoch then 3
  else if last ≠ 0 ∧ serialOlder c.issue (last - 1) then 4
  else 0

/-- An accepted command: older commands of its channel go, and an on or off command is queued or, too late, discarded
(R249, R251). -/
def ghAccept (s : State) (c : GhCmd) (action : Nat) : State :=
  let gone := fun q : GhCmd => q.kind == c.kind && q.ch == c.ch && serialOlder q.issue c.issue
  let s := s.count R.ghNwithd (s.gh.queue.filter gone).length
  let s := s.setGhQueue (s.gh.queue.filter fun q => !gone q)
  let s := { s with gh := { s.gh with lastIssue := Tbl.set s.gh.lastIssue 0 (64 * c.kind + c.ch) (c.issue + 1) } }
  if action = 0 then s
  else if s.time.dev > c.ts + us (s.get R.ghLateLateMax) then
    ((s.count R.ghNdisc).set R.ghStatDisc 1).log 0x0E06 (d8 c.section_ ++ d32 ((s.time.dev - c.ts) / 1000))
  else s.setGhQueue (s.gh.queue ++ [{ c with late := decide (c.ts < s.time.dev) }])

/-- A timed command submitted to the GH unit (R249). -/
def ghSubmit (s : State) (c : GhCmd) (action : Nat) : State :=
  let e := ghRefusal s c action
  let s := s.set R.ghResResult e
  if e = 0 then ghAccept s c action else if e = 4 then s.count R.ghNstale else s

/-- The command that a write of the command register submits. -/
def ghCommand (s : State) (v : Word) : GhCmd :=
  { ts := s.rd64 R.ghTsLo, issue := (s.rd R.ghIssue).toNat, on := decide (bits v 0 2 = 1), kind := bits v 2 1,
    ch := bits v 3 6, section_ := bits v 9 7, epoch := bits v 16 16 }

/-- GH_COMMAND_SUBMIT (R249): TS, ISSUE and the command register are written. -/
def execGhCommandSubmit (ts issue : Nat) (value : Word) (s : State) : Res :=
  let s := (s.wr64 R.ghTsLo ts).wr R.ghIssue (BitVec.ofNat 32 issue)
  .next (ghSubmit s (ghCommand s value) (bits value 0 2))

/-- The queued command with the earliest instant, the first accepted among equals. -/
def ghEarliest (l : List GhCmd) : Option GhCmd :=
  l.find? fun c => l.all fun q => decide (c.ts ≤ q.ts)

/-- The ON state of a channel as a command sets it at this boundary (Table 10-4); earlier writes of the register that are
still on their way to the stage do not undo it. -/
def ghDrive (s : State) (c : GhCmd) : State :=
  let a := if c.kind = 0 then R.sdCctrl c.ch else R.lsCctrl c.ch
  let on : Nat := if c.on then 1 else 0
  let keep := fun p : Post => if p.addr = a then { p with value := State.fieldInto p.value.toNat ⟨0, 0, 1⟩ on } else p
  stageNow { s with stage := { s.stage with posted := s.stage.posted.map keep } } a (BitVec.ofNat 32 on) (some 0)

namespace State
def sect (s : State) (k : Nat) : Sect := Tbl.get s.gate.sects {} k
def setSect (s : State) (k : Nat) (x : Sect) : State :=
  { s with gate := { s.gate with sects := Tbl.set s.gate.sects {} k x } }
end State

/-- A late execution is reported to the section's counters at the Hearth that serves it on this module (Table 10-7; log entry
132). -/
def lateReported (s : State) (k : Nat) : State :=
  let x := s.sect k
  if s.hearth then s.setSect k { x with counters := x.counters.set 2 ((x.counters.getD 2 0 + 1) % 4294967296) } else s

/-- GH_COMMAND_EXECUTE (R250, R251): at the present frame boundary the queued command of the earliest instant executes, if
its instant has come and the boundary came after the command. -/
def execGhCommandExecute (s : State) : Res :=
  match ghEarliest s.gh.queue with
  | none => .next s
  | some c =>
    let b := s.ce.lastBoundary
    if s.flag R.ghCtrlEn = false ∨ c.fresh ∨ b < c.ts then .next s
    else
      let err := b - c.ts
      let s := s.setGhQueue (s.gh.queue.erase c)
      let s := ghDrive s c
      let s := ((s.count R.ghNexec).wr64 R.ghLastLo b).wr R.ghLasterr (BitVec.ofNat 32 err)
      let s := if c.late then lateReported ((s.count R.ghNlate).set R.ghStatLate 1) c.section_
        else if (s.rd R.ghErrmax).toNat < err then s.wr R.ghErrmax (BitVec.ofNat 32 err) else s
      if s.flag R.ghStatSync then .next s
      else if s.gh.unsyncLogged then .next (s.set R.ghStatUnsync 1)
      else .next (({ s with gh := { s.gh with unsyncLogged := true } }.set R.ghStatUnsync 1).log 0x0E07 (d8 c.section_))

/-- Commands removed from the queue by a flush, counted and logged with the cause (R252, R253). -/
def ghRemove (s : State) (p : GhCmd → Bool) (cause : Nat) : State :=
  let n := (s.gh.queue.filter p).length
  if n = 0 then s
  else ((s.setGhQueue (s.gh.queue.filter fun c => !p c)).count R.ghNflush n).log 0x0E08 (d8 cause ++ d16 n)

/-- GH_STOP_FLUSH (R252). -/
def ghStopFlush (s : State) : State := ghRemove s (fun _ => true) 1

/-- GH_FLUSH (R252). -/
def execGhFlush (s : State) : Res := .next (ghRemove s (fun _ => true) 3)

/-- EN = 0 (R252). -/
def ghDisable (s : State) : State := ghRemove (s.set R.ghCtrlEn 0) (fun _ => true) 4

/-- GH_DISABLE (R252). -/
def execGhDisable (s : State) : Res := .next (ghDisable s)

/-- The counters of the GH unit and ERRMAX. -/
def ghCounters : List Nat :=
  [R.ghNexec, R.ghNlate, R.ghNdisc, R.ghNstale, R.ghNwithd, R.ghNflush, R.ghErrmax]

/-- A write of GH_CTRL. -/
def ghCtrlWrite (s : State) (v : Word) : State :=
  let s := if bit v 2 then s.clearAll ghCounters else s
  let s := if bit v 1 then ghRemove s (fun _ => true) 3 else s
  if bit v 0 then s.set R.ghCtrlEn 1 else ghDisable s

/-- A write of GH_EPOCH (R253): a lower value is ignored. -/
def ghEpochWrite (s : State) (v : Nat) : State :=
  if v ≤ s.get R.ghEpochEpoch then s
  else ghRemove (s.set R.ghEpochEpoch v) (fun c => decide (c.epoch < v)) 2

/-- GH_EPOCH_WRITE (R253). -/
def execGhEpochWrite (v : Nat) (s : State) : Res := if v > 65535 then .next s else .next (ghEpochWrite s v)

/-- GH_QUEUE_STEP (R254): a device time step from `before` to the present device time meets the queue. -/
def ghQueueStep (s : State) (before : Time) : State :=
  let passed := fun c : GhCmd => decide (before < c.ts ∧ c.ts ≤ s.time.dev)
  let s := { s with gh := { s.gh with queue := s.gh.queue.map fun c => { c with fresh := true } } }
  let n := (s.gh.queue.filter passed).length
  if n = 0 then s
  else
    ({ s with gh := { s.gh with queue := s.gh.queue.map fun c => if passed c then { c with late := true } else c } }.set
      R.ghStatStepped 1).log 0x0E0A (d16 n)

end Sys2Proof.Machine
end

