-- ==== Sys2Proof/Machine/DevTime.lean ====
section
/-!
DEFINITION. Device time: quality states, uncertainty, slewing, stepping, time pulses and the pulse input
(08_gnss_time.md R201 to R212).
-/
namespace Sys2Proof.Machine

/-- Time quality: 0 UNSET, 1 RTC, 2 LOCKED, 3 HOLDOVER, 4 FREERUN (Table 8-9). -/
def timeState (s : State) : Nat := s.get R.gnTqState

/-- The largest uncertainty. -/
def uncMax : Nat := 0xFFFFFFFF

/-- What the RC adds to the uncertainty while the SYS PLL runs on it: 2 ms per second with CAL, else 50 ms (R397). -/
def rcGrowth (s : State) : Nat :=
  if s.clk.sysRef = 2 then (s.now - max s.time.uncAt s.clk.rcAt) / (if s.flag R.ckStatCal then 500 else 20) else 0

/-- Device time uncertainty in ns, saturating (R203, R397). -/
def uncertainty (s : State) : Nat :=
  let t := s.now - s.time.uncAt
  let u :=
    if timeState s = 2 then s.time.unc0
    else if timeState s = 3 then
      s.time.unc0 + ((s.rd R.gnTfunc).toNat * t * 10000000 + t * t) / 10000000000000000000
    else if timeState s = 4 then s.time.unc0 + t / 2000000
    else s.time.unc0 + t / 20000
  min (u + rcGrowth s) uncMax

/-- The least model frequency uncertainty f0 in 10⁻¹²: 5 × 10⁻⁹, or 5 × 10⁻⁸ in the first hour of learning (R203). -/
def f0Least (s : State) : Nat := if s.time.learned < sec 3600 then 50000 else 5000

/-- Time quality takes a state: source 195, event 0x0C03, the stream of the state, and the first LOCKED of a power cycle
the time anchor (R201, R451). -/
def setTimeState (s : State) (q : Nat) : State :=
  let old := timeState s
  if old = q then s
  else
    let u := uncertainty s
    let learned := if old = 2 then s.time.learned + (s.now - s.time.uncAt) else s.time.learned
    let s := { s with time := { s.time with unc0 := u, uncAt := s.now, learned := learned } }
    let s := if q = 3 then
        { s with freeCtr := s.freeCtr + 1 }.wr R.gnTfunc
          (BitVec.ofNat 32 (max (f0Least s) (Config.freeWord s.freeCtr).toNat))
      else s
    let s := ((s.set R.gnTqState q).fire 195).log 0x0C03 (leBytes 1 old ++ leBytes 1 q ++ leBytes 4 u)
    let s := produce s 0x405 s.time.dev (F32.ofNat q)
    if q = 2 ∧ s.ev.anchored = false then
      { s with ev := { s.ev with anchored := true } }.log 0x1802 (leBytes 8 s.time.dev ++ leBytes 4 u)
    else s

/-- The next whole second of device time after t. -/
def nextSecond (t : Time) : Time := (t / 1000000000 + 1) * 1000000000

/-- Checked fixes for 5 s, none missing for 2 s, and an error of at most 1 µs (R201). -/
def lockReady (s : State) : Bool :=
  (match s.time.fixSince with
   | none => false
   | some t => decide (t + sec 5 ≤ s.now))
  && (match s.time.fixAt with
      | none => false
      | some t => decide (s.now < t + sec 2))
  && decide (s.time.err.natAbs ≤ 1000)

/-- TIME_LOCKED (R201): the conditions hold at the next whole second. -/
def execTimeLocked (s : State) : Res :=
  if timeState s = 2 then .next s
  else
    let t := s.devTo (nextSecond s.time.dev)
    if lockReady t then .next (setTimeState t 2) else .next s

/-- TIME_HOLDOVER (R201): no checked fix for 2 s. -/
def execTimeHoldover (s : State) : Res :=
  if timeState s ≠ 2 then .next s
  else
    match s.time.fixAt with
    | none => .next (setTimeState s 3)
    | some t => .next (setTimeState (s.passTo (t + sec 2)) 3)

/-- TIME_FREERUN (R201): the holdover limit passes. -/
def execTimeFreerun (s : State) : Res :=
  if timeState s ≠ 3 then .next s
  else .next (setTimeState (s.passTo (s.time.uncAt + sec (s.objN 0x2680 0x04))) 4)

/-! Slewing -/

/-- In UNSET and RTC a step or slew from a checked fix that ends with an error of at most 1 µs leads to LOCKED
(Table 8-9). -/
def lockAfterCorrection (s : State) : State :=
  if timeState s < 2 ∧ s.time.fixAt ≠ none ∧ s.time.err.natAbs ≤ 1000 then setTimeState s 2 else s

/-- A slew amount is written, or refused with STEP_ERR above 100,000 ns (R209). Answers whether it was taken. -/
def slewWrite (s : State) (v : Int) : State × Bool :=
  if v.natAbs > 100000 then (s.set R.gnTqStepErr 1, false)
  else
    let done := s.time.slewSum - s.time.slewLeft
    ({ s with time := { s.time with slewLeft := v, slewSum := v, err := s.time.err + done } }.put R.gnTqSlew (v != 0), true)

/-- SLEW_WRITE (R209). -/
def execSlewWrite (value : Word) (s : State) : Res := .next (slewWrite s (int32 value)).1

/-- SLEW_END (R209): device time runs until the amount is used up. -/
def execSlewEnd (s : State) : Res :=
  if s.flag R.gnTqSlew = false then .next s
  else
    let s := s.elapse (s.time.slewLeft.natAbs * 100000)
    let t := { s with time := { s.time with slewLeft := 0, slewSum := 0, err := s.time.err + s.time.slewSum } }
    .next (lockAfterCorrection (t.set R.gnTqSlew 0))

/-! Stepping -/

/-- A step is armed, or refused with STEP_ERR (R210). Answers whether it was armed. -/
def stepArm (s : State) (amount : Int) (byWrite : Bool) : State × Bool :=
  if s.flag R.gnTqStepPend ∨ (timeState s ≥ 2 ∧ amount.natAbs ≤ 100000) then (s.set R.gnTqStepErr 1, false)
  else
    ({ s with time := { s.time with stepAmt := amount, stepAt := nextSecond s.time.dev, byWrite := byWrite } }.set
      R.gnTqStepArm 1, true)

/-- STEP_ARM (R210): ARM takes the correction in GN_TSTEP. -/
def execStepArm (s : State) : Res := .next (stepArm s (int64 (s.rd64 R.gnTstepLo)) false).1

/-- CANCEL withdraws a step that is not pending (R210). -/
def stepCancel (s : State) : State := if s.flag R.gnTqStepPend then s else s.set R.gnTqStepArm 0

/-- STEP_CANCEL (R210). -/
def execStepCancel (s : State) : Res := .next (stepCancel s)

/-- A step in µs, as events carry it. -/
def stepMicros (s : State) : List Byte := leBytes 4 (wrapInt 32 (s.time.stepAmt / 1000))

/-- STEP_PENDING (R210): the whole second after arming. -/
def execStepPending (s : State) : Res :=
  if s.flag R.gnTqStepArm = false ∨ s.flag R.gnTqStepPend then .next s
  else
    let s := s.devTo s.time.stepAt
    let s := ((s.set R.gnTqStepArm 0).set R.gnTqStepPend 1).fire 196
    .next ({ s with time := { s.time with stepAt := nextSecond s.time.dev } }.log 0x0C04 (stepMicros s))

/-- Period of a time pulse output in ns. -/
def tpoPeriod (rate : Nat) : Nat := 1000000000 / max rate 1

def tpoCtrl (k : Nat) : Nat := if k = 0 then R.gnTpo0ctrl else R.gnTpo1ctrl
def tpoWidth (k : Nat) : Nat := if k = 0 then R.gnTpo0w else R.gnTpo1w
/-- RATE of a control word. -/
def tpoRate (w : Word) : Nat := bits w 16 10

/-- The outputs after a step: the first pulse lies more than half a period after it (R211). -/
def tpoAfterStep (s : State) : State :=
  { s with time := { s.time with tpo := (s.time.tpo.zip [0, 1]).map fun p =>
      { p.1 with last := none, floor := some (s.time.dev + tpoPeriod (tpoRate (s.rd (tpoCtrl p.2))) / 2) } } }

/-- Frame-sync edges after a step follow the same rule with their own period (R211). -/
def syncAfterStep (s : State) : State :=
  (List.range 4).foldl (fun t c =>
    let p := Tbl.get t.cam {} c
    match p.syncAt with
    | none => t
    | some _ =>
      let half := 500000000000 / max (t.get (R.camPrateRate c)) 1
      { t with cam := Tbl.set t.cam {} c { p with syncAt := some (t.time.dev + half) } }) s

/-- The receiver's instants after a step: those that have passed keep their distance from device time, a load that lies ahead
keeps its instant (R188, R212). -/
def gnTimeStep (s : State) (d : Int) (old : Time) : State :=
  let ch := fun x : GnCh => if x.since ≤ old then { x with since := shiftTime d x.since } else x
  { s with gn := { s.gn with
    ch := s.gn.ch.update {} ch, acqEnd := shiftTime d s.gn.acqEnd,
    latches := s.gn.latches.map (shiftTime d), seen := s.gn.seen.map fun e => (shiftTime d e.1, e.2) } }

/-- TIME_STEP_EXECUTE: device time steps, and every grid goes on (R210 to R212, R33, R136, R254). -/
def timeStep (s : State) : State :=
  let s := s.devTo s.time.stepAt
  let old := s.time.dev
  let d := s.time.stepAmt
  let byWrite := s.time.byWrite
  let done := s.time.slewSum - s.time.slewLeft
  let s := { s with time := { s.time with
    dev := shiftTime d old, slewLeft := 0, slewSum := 0, err := s.time.err + done + d, byWrite := false } }
  let s := gnTimeStep s d old
  let s := ((s.set R.gnTqStepPend 0).set R.gnTqSlew 0).fire 197
  let s := s.log 0x0C05 (stepMicros s)
  let s := ghQueueStep (fuTimeStep (ceFrameStep s d) d) old
  let s := syncAfterStep (tpoAfterStep s)
  if byWrite then
    -- no rule states the uncertainty of a written time: a free value (log entry 22)
    let u := (Config.freeWord s.freeCtr).toNat
    let s := setTimeState s.fresh 1
    { s with time := { s.time with unc0 := u, uncAt := s.now } }
  else lockAfterCorrection s

/-- TIME_STEP_EXECUTE (R210). -/
def execTimeStepExecute (s : State) : Res :=
  if s.flag R.gnTqStepPend = false then .next s else .next (timeStep s)

/-- A write of device time: only in UNSET and RTC, executed as a step (R206). -/
def timeWrite (s : State) (t : Time) : State × Nat :=
  if timeState s > 1 then (s, St.state)
  else
    let r := stepArm s ((t : Int) - s.time.dev) true
    (r.1, if r.2 then St.ok else St.state)

/-- The slew-or-step rule for an error ε (R209, R210). -/
def correct (s : State) (err : Int) : State :=
  if s.flag R.gnTqSlew ∨ s.flag R.gnTqStepPend ∨ s.flag R.gnTqStepArm ∨ err.natAbs ≤ 1000 then s
  else if err.natAbs ≤ 100000 then (slewWrite s (-err)).1
  else (stepArm (s.wr64 R.gnTstepLo (wrapInt 64 (-err))) (-err) false).1

/-! Time pulses and the pulse input -/

/-- The first grid instant of a rate at or after t (R207). -/
def tpoGrid (rate : Nat) (t : Time) : Time :=
  let base := t / 1000000000 * 1000000000
  let n := ceilDiv ((t - base) * rate) 1000000000
  if n ≥ rate then base + 1000000000 else base + n * 1000000000 / rate

/-- The control word and width of output k that hold at instant t. -/
def tpoAt (s : State) (k : Nat) (t : Time) : Word × Word :=
  let o := s.time.tpo.getD k {}
  match o.ctrl with
  | some old => if t < o.change then
      -- RATE, WIDTH and POL of the old words, EN and GATE of the new
      ((old.1 &&& 0x03FF0002) ||| (s.rd (tpoCtrl k) &&& 0xD), old.2)
    else (s.rd (tpoCtrl k), s.rd (tpoWidth k))
  | none => (s.rd (tpoCtrl k), s.rd (tpoWidth k))

/-- The next grid instant of output k (R207, R211). -/
def tpoNext (s : State) (k : Nat) : Time :=
  let o := s.time.tpo.getD k {}
  let first := match o.last, o.floor with
    | some l, _ => max s.time.dev (l + 1)
    | none, some f => max s.time.dev (f + 1)
    | none, none => s.time.dev
  let g := tpoGrid (max (tpoRate (tpoAt s k first).1) 1) first
  match o.ctrl with
  | some _ => if first < o.change ∧ o.change < g then o.change else g
  | none => g

/-- GATE lets the pulse out in the present time quality (R207). -/
def tpoGate (s : State) (gate : Nat) : Bool :=
  if gate = 1 then decide (timeState s ≥ 2) else if gate = 2 then timeState s == 2 else true

/-- TPO_PULSE (R207): output k reaches its next grid instant. The whole seconds of the grid of TPO0 publish the quality state and
the uncertainty (R196; log entry 121). -/
def execTpoPulse (k : Nat) (s : State) : Res :=
  if k > 1 then .next s
  else
    let t := tpoNext s k
    let s := s.devTo t
    let c := (tpoAt s k t).1
    let o := s.time.tpo.getD k {}
    let o := { o with last := some t, floor := none, ctrl := if o.change ≤ t then none else o.ctrl }
    let s := { s with time := { s.time with tpo := s.time.tpo.set k o } }
    let s := if k = 0 ∧ t % 1000000000 = 0 then
        produce (produce s 0x405 t (F32.ofNat (timeState s))) 0x406 t (F32.ofNat (uncertainty s))
      else s
    if bit c 0 ∧ tpoGate s (bits c 2 2) = true then .next (s.emit (.pulse k t)) else .next s

/-- A control or width word would leave a width below half the period (R207). -/
def tpoFits (s : State) (k a : Nat) (v : Word) : Bool :=
  let t := plainWrite s a v
  decide (2 * us (t.rd (tpoWidth k)).toNat < tpoPeriod (max (tpoRate (t.rd (tpoCtrl k))) 1))

/-- RATE, WIDTH and POL of an output. -/
def tpoShape (s : State) (k : Nat) : Word × Word := (s.rd (tpoCtrl k) &&& 0x03FF0002, s.rd (tpoWidth k))

/-- TPO control or width is written: a rate or a width that does not fit the other is not taken, the other fields are; RATE,
WIDTH and POL change at the next whole second (R6, R207). -/
def tpoWrite (s : State) (k a : Nat) (v : Word) : State :=
  let w := if a = tpoCtrl k ∧ tpoFits s k a v = false then (v &&& 0xFC00FFFF) ||| (s.rd a &&& 0x03FF0000) else v
  if tpoFits s k a w = false then s
  else
    let t := plainWrite s a w
    if tpoShape t k = tpoShape s k then t
    else
      let o := s.time.tpo.getD k {}
      let old := tpoAt s k s.time.dev
      { t with time := { t.time with tpo := t.time.tpo.set k { o with ctrl := some old, change := nextSecond s.time.dev } } }

/-- TPI_EDGE (R208): an active edge at instant t. -/
def execTpiEdge (t : Time) (s : State) : Res :=
  if s.flag (⟨R.gnTpictrl, 0, 1⟩) = false then .next s
  else
    let s := s.devTo t
    let ts := t / 5 * 5
    let s := ((s.wr64 R.gnTpitsLo ts).count R.gnTpicnt).fire 198
    .next (produce s 0x408 ts (F32.ofNat (s.rd R.gnTpicnt).toNat))

end Sys2Proof.Machine
end

