-- ==== Sys2Proof/Machine/StopUnit.lean ====
section
/-!
DEFINITION. The stop: its inputs, causes, states, release and re-arm, and the stop frames (05_sensor_inputs.md R126 to
R130, 01_architecture.md R29 to R31, 12_fabric_fleet.md R272).
-/
namespace Sys2Proof.Machine

/-- The causes present: A, B, SOFT, REMOTE (Table 5-3). -/
def stopCauses (s : State) : Nat :=
  (if s.stop.inA then 1 else 0) + (if s.stop.inB then 2 else 0) + (if s.flag R.siStopSwstop then 4 else 0)
    + (if s.stop.remoteEnd.isSome then 8 else 0)

/-- The local causes present: A, B, SOFT (R29). -/
def localCauses (s : State) : Nat := stopCauses s % 8

/-- A stop frame of this module on every port (R29, Table 12-3). -/
def stopFrameSend (s : State) : State :=
  flueSend { s with stop := { s.stop with frameAt := s.now + us 100 } } 7 0x07 0xFFFF 0
    (leBytes 1 (localCauses s) ++ leBytes 8 (serialOf s))

/-- A stop input of every stage die takes a state: the dies compare the level and run the band timer themselves, and act on
an asserted input without the main die (R126, R127, R87, R107). -/
def dieStopInput (s : State) (k : Nat) (asserted : Bool) : State :=
  let t := (List.range 5).foldl (fun (u : State) d =>
    u.setDie d (if k = 0 then { u.dieAt d with inA := asserted } else { u.dieAt d with inB := asserted })) s
  if asserted then stageStop t else t

/-- The state becomes LATCHED (R128): COUNT, the stages, source 0, event 0x0901, and the GH queue (R252). -/
def stopLatch (s : State) (causes : Nat) : State :=
  let t := (s.set R.siStopState 1).countSat R.siStopCount
  let t := ((stageStop t).set R.sdStatStop 1).set R.lsStatStop 1
  ghStopFlush ((t.fire 0).log 0x0901 (d8 causes))

/-- STOP_LATCH: CAUSE and the state follow the causes present (R128); a local cause that was not there before starts a stop
frame (R29). -/
def stopEvaluate (s : State) : State :=
  let c := stopCauses s
  let fresh := (List.range 3).any fun k => localCauses s / 2 ^ k % 2 == 1 && s.get R.siStopCause / 2 ^ k % 2 == 0
  let t := s.set R.siStopCause c
  let t := if fresh then stopFrameSend t else t
  let t := { t with stop := { t.stop with
    freeSince := if c ≠ 0 then none else if t.stop.freeSince.isSome then t.stop.freeSince else some t.now } }
  if c ≠ 0 ∧ s.get R.siStopState ≠ 1 then stopLatch t c else t

/-- DISC: since when the inputs differ, and its clearing once both were asserted together and both released (R130). -/
def stopDiffer (s : State) : State :=
  let x := s.stop
  let d := x.inA != x.inB
  let both := x.bothSeen || (x.inA && x.inB)
  let t := { s with stop := { x with
    differAt := if d then (if x.differAt.isSome then x.differAt else some s.now) else none, bothSeen := both } }
  if both ∧ x.inA = false ∧ x.inB = false then
    { t with stop := { t.stop with bothSeen := false } }.set R.siStopDisc 0
  else t

/-- An input takes a state. -/
def stopInput (s : State) (k : Nat) (asserted : Bool) : State :=
  let t := dieStopInput s k asserted
  stopEvaluate (stopDiffer { t with stop :=
    if k = 0 then { t.stop with inA := asserted } else { t.stop with inB := asserted } })

/-- The state of an input. -/
def stopInputState (s : State) (k : Nat) : Bool := if k = 0 then s.stop.inA else s.stop.inB

/-- STOP_INPUT_CHANGE (R126, R127): input k (0 STOP_A, 1 STOP_B) passes the filter; a release means a level above 7 V,
which clears BAND. -/
def execStopInputChange (k : Nat) (asserted : Bool) (s : State) : Res :=
  if k > 1 then .next s
  else .next (stopInput (if asserted then s else s.set ⟨R.siStop, 12 + k, 1⟩ 0) k asserted)

/-- STOP_BAND_TIMEOUT (R126): released input k has stayed between 3 V and 7 V for 50 ms, at a level in 0.1 V. -/
def execStopBandTimeout (k decivolt : Nat) (s : State) : Res :=
  if k > 1 ∨ stopInputState s k ∨ decivolt < 30 ∨ decivolt > 70 then .next s
  else .next (stopInput ((s.set ⟨R.siStop, 12 + k, 1⟩ 1).log 0x090B (d8 k ++ d8 decivolt)) k true)

/-- STOP_FRAME_REPEAT (R29): 100 µs after the last stop frame, while a local cause is present. -/
def execStopFrameRepeat (s : State) : Res :=
  if localCauses s = 0 then .next s else .next (stopFrameSend (s.passTo s.stop.frameAt))

/-- A checked stop frame from a port: a duplicate of SRC and SEQ within 10 ms is counted; any other is forwarded on every
other port. Both are stop frames that hold the stop (R29, R272, R128). -/
def stopFrameTake (s : State) (port : Nat) (f : FlueFrame) : State :=
  let old := s.stop.seen.filter fun e => decide (s.now < e.2.2 + ms 10)
  let dup := old.any fun e => e.1 == f.src && e.2.1 == f.seq
  let s := { s with stop := { s.stop with
    seen := if dup then old else (f.src, f.seq, s.now) :: old, remoteEnd := some (s.now + ms 1) } }
  stopEvaluate (if dup then s.count R.fbStopDup else (flueLeave f (upTo 6 fun p => p != port) s).count R.fbStopRx)

/-- STOP_FRAME_RECEIVE (R29, R272): a class-7 frame arrives on a port that is up, bound or not, blocked or not; it is checked
against its FCS and its end-to-end check first. A module's own stop frame that comes back to it counts as any other frame
(log entry 111). -/
def execStopFrameReceive (port : Nat) (frame : FlueFrame) (fcsOk : Bool) (s : State) : Res := gated s 9 <|
  if port > 5 ∨ s.portUp port = false ∨ ¬ isFlue s frame ∨ frame.cls ≠ 7 ∨ frame.kind ≠ 0x07 then .next s
  else
    let s := s.count (R.fbPrxfrm port)
    if fcsOk = false then .next (s.count (R.fbPfcserr port))
    else if frame.check ≠ flueCheck frame then .next (s.count (R.fbPe2eerr port))
    else .next (stopFrameTake s port frame)

/-- A write of SWSTOP (R30). -/
def softwareStop (s : State) (on : Bool) : State := stopEvaluate (s.put R.siStopSwstop on)

/-- SOFTWARE_STOP (R30). -/
def execSoftwareStop (on : Bool) (s : State) : Res := .next (softwareStop s on)

/-- STOP_REMOTE_EXPIRY (R128): 1 ms has passed without a checked stop frame. -/
def execStopRemoteExpiry (s : State) : Res :=
  match s.stop.remoteEnd with
  | none => .next s
  | some t => let u := s.passTo t
    .next (stopEvaluate { u with stop := { u.stop with remoteEnd := none } })

/-- STOP_RELEASE (R128): no cause has been present for the release time. -/
def execStopRelease (s : State) : Res :=
  match s.stop.freeSince with
  | none => .next s
  | some t =>
    if s.get R.siStopState ≠ 1 then .next s
    else .next (((s.passTo (t + ms (10 * s.get R.siStopcfgRel))).set R.siStopState 2).fire 391)

/-- REARM (R129): the latch clears in every stage die that sees both inputs released. The status answered. -/
def rearm (s : State) : State × Nat :=
  if s.get R.siStopState = 2 ∧ stopCauses s = 0 ∧ s.flag R.siStopDisc = false then
    let t := (List.range 5).foldl (fun (u : State) d =>
      let x := u.dieAt d
      u.setDie d { x with stopped := x.stopped && (x.inA || x.inB) }) (s.set R.siStopState 0)
    ((t.set R.sdStatStop 0).set R.lsStatStop 0, St.ok)
  else
    ((s.set R.siStopRearmErr 1).log 0x0903
      (d8 (s.get R.siStopState) ++ d8 (stopCauses s) ++ d8 (s.get R.siStopDisc)), St.state)

/-- REARM (R129). -/
def execRearm (s : State) : Res := .next (rearm s).1

/-- STOP_DISCREPANCY (R130): the filtered inputs have differed for longer than the discrepancy time. -/
def execStopDiscrepancy (s : State) : Res :=
  match s.stop.differAt with
  | none => .next s
  | some t =>
    let u := s.passTo (t + ms (s.get R.siStopcfgDiscMs))
    let u := { u with stop := { u.stop with bothSeen := false } }
    if s.flag R.siStopDisc then .next s
    else .next (((u.set R.siStopDisc 1).fire 390).log 0x0902 (d8 (if u.stop.inA then 0 else 1)))

/-- The module with no command waiting: within 20 µs of a reset a cause that is present latches the stop (R128, SI_STOP); at
any other time nothing happens (log entry 1). -/
def State.idle (s : State) : State :=
  if stopCauses s ≠ 0 ∧ s.get R.siStopState ≠ 1 then stopEvaluate s else s

/-- A write of SI_STOP: SWSTOP, then REARM, then the refusal flag (R30, R129). -/
def siStopWrite (s : State) (v : Word) : State :=
  let s := if bit v 11 then s.set R.siStopRearmErr 0 else s
  let s := softwareStop s (bit v 0)
  if bit v 1 then (rearm s).1 else s

end Sys2Proof.Machine
end

