-- ==== Sys2Proof/Machine/FabricCore.lean ====
section
/-!
DEFINITION. The flue fabric: ports, frames, the epoch rule, paths and path bounds (12_fabric_fleet.md R268 to R281, R291).
-/
namespace Sys2Proof.Machine

/-! Epochs (R291, R294) -/

/-- The own or accepted epoch and its setter take values. -/
def epochSet (s : State) (e serial : Nat) : State :=
  let s := s.setFab { s.fab with epoch := e, setter := serial }
  (s.set R.fbEpochEpoch e).wr64 R.fbHserLo serial

/-- A higher epoch is taken: GH_EPOCH is written and event 0x1008 logged. -/
def epochRaise (s : State) (e serial : Nat) : State := (ghEpochWrite (epochSet s e serial) e).log 0x1008 (d16 e ++ d40 serial)

/-- At most once per n ns. -/
def lastLong (s : State) (last : Option Nat) (n : Nat) : Bool :=
  match last with
  | none => true
  | some t => decide (t + n ≤ s.now)

/-- A frame of a stale epoch is rejected: counted, source 133 and REJECT at most once per 10 ms, event 0x100A at most once
per second and sender. -/
def epochReject (s : State) (sender epoch kind : Nat) : State :=
  let s := s.count R.fbStaleEpoch
  let s := if lastLong s s.fab.staleAt (ms 10) then (s.setFab { s.fab with staleAt := some s.now }).fire 133 else s
  let s := if lastLong s (Tbl.get s.fab.rejAt none sender) (ms 10) then
      flueSend (s.setFab { s.fab with rejAt := Tbl.set s.fab.rejAt none sender (some s.now) }) 6 0x16 sender 0
        (leBytes 2 s.fab.epoch ++ leBytes 1 kind)
    else s
  if lastLong s (Tbl.get s.fab.rejLogAt none sender) (sec 1) then
    (s.setFab { s.fab with rejLogAt := Tbl.set s.fab.rejLogAt none sender (some s.now) }).log 0x100A (d16 sender ++ d16 epoch)
  else s

/-- A frame from a Hearth meets the epoch rule of a Pavilion: the state, and whether the frame is accepted (R291). -/
def epochCheck (s : State) (sender serial epoch kind : Nat) : State × Bool :=
  if epoch < s.fab.epoch then (epochReject s sender epoch kind, false)
  else if s.fab.epoch < epoch then (epochRaise s epoch serial, true)
  else if serial = s.fab.setter then (s, true)
  else (epochReject s sender epoch kind, false)

/-- A class-6 frame from a bound Hearth was accepted (R278). -/
def heard (s : State) (serial : Nat) : State :=
  if s.fab.bound.contains serial then s.setFab { s.fab with heardAt := s.now } else s

/-! Paths (R275, R279) -/

/-- The link at port p of node id: the other node and its port. -/
def linkAt (links : List Link) (id p : Nat) : Option (Nat × Nat) :=
  (links.find? fun l => (l.a == id && l.pa == p) || (l.b == id && l.pb == p)).map fun l =>
    if l.a = id ∧ l.pa = p then (l.b, l.pb) else (l.a, l.pa)

/-- A node as reached: ID, path, upstream port. -/
structure Reach where
  id : Nat
  path : List Nat
  up : Nat
deriving DecidableEq, Repr

/-- One more hop from the nodes of the last round, each by rising egress port. -/
def reachRound (links : List Link) (seen front : List Reach) : List Reach :=
  let all := front.flatMap fun r => (List.range 6).filterMap fun p =>
    (linkAt links r.id p).map fun o => (⟨o.1, r.path ++ [p], o.2⟩ : Reach)
  all.foldl (fun acc r => if (seen ++ acc).any (fun x => x.id == r.id) then acc else acc ++ [r]) []

/-- Breadth-first search for n rounds. -/
def reachFrom (links : List Link) : Nat → List Reach → List Reach → List Reach
  | 0, seen, _ => seen
  | n + 1, seen, front =>
    let next := reachRound links seen front
    reachFrom links n (seen ++ next) next

/-- The nodes reached from a node within 15 hops by the shortest path, ties by the lower egress port at each hop. -/
def reachable (links : List Link) (root : Nat) : List Reach := reachFrom links 15 [⟨root, [], 0⟩] [⟨root, [], 0⟩]

/-- The links in use: those known less the blocked one. -/
def usedLinks (s : State) : List Link :=
  s.fab.links.filter fun l => match s.fab.blocked with
    | some b => l != b
    | none => true

/-- Class-6 bound of the link at a port in µs: F0 and F1 are 2.5GBASE-T1 (R268, Table 12-1). -/
def hopBound (p : Nat) : Nat := if p < 2 then 10 else 22

/-- Path bound in µs: 8 of transmission, the hops, 4 of reception (R279). -/
def pathBound (path : List Nat) : Nat := 12 + (path.map hopBound).sum

/-- Least hop count of a link's ends. -/
def linkDistance (rs : List Reach) (l : Link) : Nat :=
  let d := fun id : Nat => match rs.find? (fun r => r.id == id) with
    | some r => r.path.length
    | none => 16
  min (d l.a) (d l.b)

/-- The links of the ring: those without which as many nodes are reached. -/
def ringLinks (links : List Link) (root : Nat) : List Link :=
  let n := (reachable links root).length
  links.filter fun l => decide ((reachable (links.filter fun x => x != l) root).length = n)

/-- The link to block: the farthest of the ring, ties to the lower lower node ID (R280). -/
def linkToBlock (links : List Link) (root : Nat) : Option Link :=
  let rs := reachable links root
  let ring := ringLinks links root
  ring.find? fun l => ring.all fun x =>
    decide (linkDistance rs x < linkDistance rs l
      ∨ (linkDistance rs x = linkDistance rs l ∧ min l.a l.b ≤ min x.a x.b))

/-! Nodes of the Hearth (R275, R279, R281) -/

/-- A node is no longer reached. -/
def nodeLost (s : State) (id : Nat) (n : Node) : State :=
  ((s.setNode id { n with state := 1, absentAt := some s.now }).fire 129).log 0x1003 (d16 id ++ d40 n.serial)

/-- The payload of ASSIGN and TOPO: node ID, upstream port, depth, PATH, Hearth serials (Table 12-3). -/
def assignBytes (s : State) (id : Nat) (n : Node) : List Byte :=
  leBytes 2 id ++ leBytes 1 n.up ++ leBytes 1 n.path.length ++ leBytes 8 (pathWord n.path) ++ leBytes 8 (serialOf s)
    ++ leBytes 8 (twinSerial s)

/-- ASSIGN of a node, and TOPO after a heal. -/
def sendAssign (s : State) (id : Nat) (n : Node) : State := flueAsk s 6 0x02 id (assignBytes s id n)
def sendTopo (s : State) (id : Nat) (n : Node) : State := flueAsk s 6 0x03 id (assignBytes s id n)

/-- A node whose bound exceeds the budget is in DEPTH (R279). -/
def nodeDeep (s : State) (id : Nat) (n : Node) : State :=
  (s.setNode id { n with state := 2 }).log 0x1004 (d16 id ++ d32 n.bound)

/-- The path of a node is recomputed: TOPO where that of a present one changed, DEPTH where the bound is too large, lost where
it is no longer reached; a node in DEPTH whose bound now fits is assigned (R279, R281). -/
def repath (rs : List Reach) (s : State) (e : Nat × Option Node) : State :=
  match e.2 with
  | none => s
  | some n =>
    if n.state ≠ 0 ∧ n.state ≠ 2 then s
    else match rs.find? (fun r => r.id == e.1) with
      | none => if n.state = 0 then nodeLost s e.1 n else s.setNode e.1 { n with state := 1, absentAt := some s.now }
      | some r =>
        let m := { n with path := r.path, up := r.up, bound := pathBound r.path }
        if n.state = 0 ∧ r.path = n.path ∧ r.up = n.up then s
        else if m.bound > s.objN 0x3000 0x08 then (if n.state = 2 then s.setNode e.1 m else nodeDeep s e.1 m)
        else if n.state = 0 then sendTopo (s.setNode e.1 m) e.1 m
        else sendAssign (((s.setNode e.1 { m with state := 0 }).fire 129).log 0x1002 (d16 e.1 ++ d40 n.serial)) e.1 m

/-- Every path is recomputed. -/
def recompute (s : State) : State :=
  let rs := reachable (usedLinks s) s.ownId
  s.fab.nodes.foldl (repath rs) s

/-- Own ends of a link are blocked or unblocked. -/
def blockEnds (s : State) (l : Link) (on : Bool) : State :=
  let one := fun (u : State) (id p : Nat) => if id = u.ownId then u.set (R.fbPstatRole p) (if on then 2 else 0) else u
  one (one s l.a l.pa) l.b l.pb

/-- A ring is found: a link is blocked (R280). -/
def ringFound (s : State) (l : Link) : State :=
  (blockEnds (s.setFab { s.fab with blocked := some l, ringMiss := 0, ringAt := some s.now }) l true).set R.fbStatRing 1

/-- The ring heals after a break (R281). -/
def ringHeal (s : State) (broken : Option Link) (micros : Nat) : State :=
  match s.fab.blocked with
  | none => s
  | some b =>
    let s := blockEnds s b false
    let s := s.setFab { s.fab with
      blocked := none, ringMiss := 0, ringAt := none, broken := broken,
      links := match broken with
        | some l => s.fab.links.filter fun x => x != l
        | none => s.fab.links }
    let s := recompute (s.set R.fbStatRing 0)
    let ends := match broken with
      | some l => d16 (min l.a l.b) ++ d16 (max l.a l.b)
      | none => d16 0xFFFF ++ d16 0xFFFF
    ((s.count R.fbHeals).fire 130).log 0x1006 (ends ++ d32 micros)

/-- A link is lost at the Hearth (R281): a ring heals, and otherwise the nodes behind it are lost. -/
def linkLost (s : State) (l : Link) : State :=
  if s.fab.blocked = some l then
    (s.setFab { s.fab with blocked := none, broken := some l, links := s.fab.links.filter fun x => x != l,
                           ringAt := none }).set R.fbStatRing 0
  else if s.fab.blocked.isSome then ringHeal s (some l) 0
  else recompute (s.setFab { s.fab with links := s.fab.links.filter fun x => x != l })

/-- The payload of an inbound TOPO report of the port that lost its link: own node ID and that port in the form of ASSIGN
(R280; log entry 125). -/
def topoReport (s : State) (p : Nat) : List Byte :=
  leBytes 2 s.ownId ++ leBytes 1 p ++ leBytes 1 s.fab.path.length ++ leBytes 8 (pathWord s.fab.path)
    ++ leBytes 8 (s.fab.bound.getD 0 0) ++ leBytes 8 (s.fab.bound.getD 1 0)

/-- F0 of a twin member is PHY master on member 1 and slave on member 2 (R269). -/
def syncMaster (s : State) : State :=
  match s.objN 0x3080 0x01 with
  | 1 => s.set (R.fbPctrlMaster 0) 1
  | 2 => s.set (R.fbPctrlMaster 0) 0
  | _ => s

/-! Ports (R272, R275) -/

/-- The link of a port goes up or down (Table 12-6, Table 12-7). -/
def portLink (s : State) (p : Nat) (up : Bool) (sqi : Nat) (preempt : Bool) : State :=
  if p > 5 ∨ s.flag (R.fbPstatLink p) = up then s
  else
    let s := (s.put (R.fbPstatLink p) up).put (R.fbPstatPreempt p) (up && preempt)
    let s := (s.set (R.fbPstatSqi p) (if up then sqi else 0)).fire 128
    let s := s.log 0x1001 (d8 p ++ d8 (if up then 1 else 0))
    if up then
      if s.hearth ∧ s.objN 0x3080 0x01 ≠ 0 ∧ p = 0 then s.set (R.fbPstatRole p) 3 else s
    else
      let s := (s.count (R.fbPlinkdowns p)).set (R.fbPstatRole p) 0
      let s := s.setFab { s.fab with foreign := s.fab.foreign.filter fun x => x != p }
      if s.activeHearth then
        match s.fab.links.find? fun l => (l.a == s.ownId && l.pa == p) || (l.b == s.ownId && l.pb == p) with
        | some l => linkLost s l
        | none => s
      else if s.hearth then s
      else
        if s.flag R.fbStatAssigned then flueSend s 6 0x03 1 0 (topoReport s p) else s

end Sys2Proof.Machine
end

