-- ==== Sys2Proof/Machine/Gatehouse.lean ====
section
/-!
DEFINITION. The Gatehouse section timing service (10_parterre_gatehouse.md R246 to R248). Sine
and cosine are free (log entry 26); everything decided from them is computed.
-/
namespace Sys2Proof.Machine

namespace State
/-- A number of object 0x2880 + k. -/
def secN (s : State) (k sub : Nat) : Nat := s.objN (0x2880 + k) sub
/-- A binary32 value of object 0x2880 + k. -/
def secF (s : State) (k sub : Nat) : F32 := s.objF (0x2880 + k) sub
end State

/-- Section numbers. -/
def sectionList : List Nat := List.range 128

/-- Whether a node is known to the fabric. -/
def nodeKnown (s : State) (id : Nat) : Bool := (Tbl.get s.fab.nodes none id).isSome

/-- A usable section (R246). -/
def sectUsable (s : State) (k : Nat) : Bool :=
  s.secN k 0x02 != 0 && F32.lt (s.secF k 0x04) (s.secF k 0x05) && F32.lt (s.secF k 0x06) (s.secF k 0x07)
    && (s.secN k 0x01 == 0 || nodeKnown s (s.secN k 0x01))

/-- Executed state of a section: ON of its channel on this module, else as the last executed command left it. -/
def sectOn (s : State) (k : Nat) : Bool :=
  if s.secN k 0x01 ≠ 0 then (s.sect k).on
  else
    match s.secN k 0x02 with
    | 1 => s.sdOn (s.secN k 0x03)
    | 2 => s.lsOn (s.secN k 0x03)
    | _ => false

/-- The 16 sample points of a section in the machine frame (R246). -/
def sectPoints (s : State) (k : Nat) : List (F32 × F32) :=
  let at_ := fun (lo hi : F32) (i : Nat) => F32.add lo (F32.mul (F32.sub hi lo) (F32.ofRat ((2 * i + 1 : Nat) : Int) 8))
  (List.range 4).flatMap fun i => (List.range 4).map fun j =>
    (at_ (s.secF k 0x04) (s.secF k 0x05) i, at_ (s.secF k 0x06) (s.secF k 0x07) j)

/-- Whether the point lies in a covered sub-cell of the open task. -/
def pointCovered (s : State) (p : Point) : Bool :=
  match openTask s with
  | none => false
  | some t => let e := subOf (cellSize s) p; subCovered t e.1 e.2

/-- What Gatehouse predicts from: the latest pose and ego-motion (R247). -/
structure Motion where
  t : Time
  words : List F32
deriving DecidableEq, Repr

/-- The latest published pose and ego-motion; none where one is absent. -/
def motionOf (s : State) : Option Motion :=
  match Tbl.get s.fu.pubs none 0, Tbl.get s.fu.pubs none 1 with
  | some p, some g => some ⟨p.t, poseWords p ++ [g.x.getD 0 0, g.x.getD 2 0]⟩
  | _, _ => none

/-- The pose predicted for instant t. -/
def poseFor (m : Motion) (t : Time) : List F32 :=
  if t = m.t then m.words.take 3 else predictPose m.words (t - m.t)

/-- The state wanted of section k at instant t (R246). -/
def wanted (s : State) (k : Nat) (m : Motion) (t : Time) : Bool :=
  match s.secN k 0x0C with
  | 0 => false
  | 1 => true
  | _ =>
    let pose := poseFor m t
    let covered := ((sectPoints s k).filter fun e : F32 × F32 => pointCovered s (fieldPoint pose e.1 e.2)).length
    decide (covered ≤ s.secN k 0x0B) && s.objN 0x2800 0x20 == 1

/-- Bisection between an instant lo without and an instant hi with the wanted change, to 1 ns. -/
def bisect (p : Time → Bool) : Nat → Time → Time → Time
  | 0, _, hi => hi
  | n + 1, lo, hi =>
    if hi ≤ lo + 1 then hi
    else if p ((lo + hi) / 2) then bisect p n lo ((lo + hi) / 2) else bisect p n ((lo + hi) / 2) hi

/-- The first instant after t, up to t + span, at which p holds, on a 1 ms grid refined by bisection (R247). -/
def firstChange (p : Time → Bool) (t span : Nat) : Option Time :=
  match (List.range (span / 1000000)).find? fun k => p (t + ms (k + 1)) with
  | some k => some (bisect p 20 (t + ms k) (t + ms (k + 1)))
  | none => if span % 1000000 ≠ 0 ∧ p (t + span) then some (bisect p 20 (t + span / 1000000 * 1000000) (t + span)) else none

/-- Issue tick of instant t. -/
def issueTick (t : Time) : Nat := t / 10000000 % 4294967296

/-- A timed command of section k goes to its GH unit: action 0 withdraw, 1 on, 2 off (R247). -/
def sectSend (s : State) (k : Nat) (t ts : Time) (action : Nat) : State :=
  let kind := if s.secN k 0x02 = 2 then 1 else 0
  let c : GhCmd := { ts := ts, issue := issueTick t, on := decide (action = 1), kind := kind, ch := s.secN k 0x03,
                     section_ := k, epoch := s.fab.epoch }
  if s.secN k 0x01 = 0 then ghSubmit s c action
  else
    flueSend s 6 0x12 (s.secN k 0x01) 0
      (leBytes 8 ts ++ leBytes 4 (issueTick t) ++ leBytes 2 (action + 4 * kind + 8 * c.ch + 512 * k) ++ leBytes 2 0)

/-- A command that sets the state of section k at instant ts. -/
def sectCommand (s : State) (k : Nat) (t ts : Time) (on byMode : Bool) : State :=
  let s := sectSend s k t ts (if on then 1 else 2)
  let x := s.sect k
  let i := if x.pend.isSome then 1 else 0
  s.setSect k { x with pend := some (ts, on), byMode := byMode,
                       counters := x.counters.set i ((x.counters.getD i 0 + 1) % 4294967296) }

/-- The pending command of section k is withdrawn. -/
def sectWithdraw (s : State) (k : Nat) (t : Time) : State :=
  let s := sectSend s k t 0 0
  s.setSect k { s.sect k with pend := none, byMode := false }

/-- MINLEAD in ns. -/
def minLead (s : State) : Nat := ms (s.objN 0x2800 0x21)

/-- The decision for section k at tick t (R247). A command of a mode change or a fallback stays until its instant. -/
def sectDecide (s : State) (k : Nat) (m : Motion) (t : Time) : State :=
  let x := s.sect k
  if x.byMode then s
  else
    let nxt := !wanted s k m t
    let lat := us (if nxt then s.secN k 0x08 else s.secN k 0x09)
    let look := ms (s.secN k 0x0A)
    match firstChange (fun i => wanted s k m i == nxt) t (look + lat), x.pend with
    | none, none => s
    | none, some _ => sectWithdraw s k t
    | some tau, none =>
      let ts := max (tau - lat) (t + minLead s)
      if ts ≤ t + look then sectCommand s k t ts nxt false else s
    | some tau, some p =>
      let ts := max (tau - lat) (t + minLead s)
      let gap := if ts ≤ p.1 then p.1 - ts else ts - p.1
      if gap > us (s.objN 0x2800 0x22) then sectCommand s k t ts nxt false else s

/-- A pending command whose instant has come counts as executed. -/
def sectPass (t : Time) (x : Sect) : Sect :=
  match x.pend with
  | some (ts, on) => if ts ≤ t then { x with pend := none, byMode := false, on := on } else x
  | none => x

/-- Whether the command of section k is still pending: one on this module stands in the queue, which Gatehouse reads at each
tick (R252); of one on another module it knows only what is reported. -/
def sectHeld (s : State) (k : Nat) : Bool :=
  s.secN k 0x01 != 0 || s.gh.queue.any fun c => c.section_ == k

/-- Pending commands of a node's sections, or of all sections, are treated as unsent (R430). -/
def sectUnsend (s : State) (p : Nat → Bool) : State :=
  (sectionList.filter p).foldl (fun (u : State) k => u.setSect k { u.sect k with pend := none, byMode := false }) s

/-- The first tick after a takeover sends the mirrored schedule again (R253). -/
def sectResend (s : State) (t : Time) : State :=
  if s.gate.resend = false then s
  else
    sectionList.foldl (fun (u : State) k =>
      match (u.sect k).pend with
      | some (ts, on) => sectCommand u k t ts on (u.sect k).byMode
      | none => u) { s with gate := { s.gate with resend := false } }

/-- Coverage source 1: the sub-cells inside the footprint of every section that is on (R238). -/
def sectCover (s : State) (pose : List F32) (t : Time) : State :=
  if s.objN 0x2800 0x07 ≠ 1 ∨ recordsNow s = false then s
  else
    ((sectionList.filter fun k => sectUsable s k && sectOn s k).foldl (fun (u : State) k =>
      let subs := subsIn (cellSize u) (fieldPoint pose (u.secF k 0x04) (u.secF k 0x06))
        (fieldPoint pose (u.secF k 0x05) (u.secF k 0x06)) (fieldPoint pose (u.secF k 0x05) (u.secF k 0x07))
        (fieldPoint pose (u.secF k 0x04) (u.secF k 0x07))
      onTask u fun v => subs.foldl (fun (w : Task) e => coverSub u w e.1 e.2 t) v) s)

/-- Whether the pose is too poor to predict from (R248). -/
def poseLost (s : State) : Bool :=
  match Tbl.get s.fu.pubs none 0 with
  | none => true
  | some p => p.held || decide ((p.conf : Int) < F32.roundScaled (s.objF 0x2800 0x23) 65535 1)

/-- An AUTO section takes the fallback: its present state without what is pending, on, or off (R248). -/
def sectFall (s : State) (k : Nat) (t : Time) : State :=
  match s.objN 0x2800 0x24 with
  | 0 => if (s.sect k).pend.isSome then sectWithdraw s k t else s
  | f => sectCommand s k t (t + minLead s) (decide (f = 1)) true

/-- The fallback of every AUTO section (R248). -/
def sectFallback (s : State) (t : Time) : State :=
  let f := s.objN 0x2800 0x24
  let conf := match Tbl.get s.fu.pubs none 0 with
    | some p => p.conf
    | none => 0
  let s := { s with gate := { s.gate with fallback := true } }.log 0x0E05 (d16 conf ++ d8 f)
  (sectionList.filter fun k => sectUsable s k && s.secN k 0x0C == 2).foldl (fun (u : State) k => sectFall u k t) s

/-- A decision tick at device time t (R247, R248). -/
def gateTick (s : State) (t : Time) : State :=
  let s := sectResend s t
  let s := { s with gate := { s.gate with sects := Tbl.update s.gate.sects {} (sectPass t) } }
  let s := sectUnsend s fun k => (s.sect k).pend.isSome && !sectHeld s k
  let lost := poseLost s
  let s := if lost && !s.gate.fallback then sectFallback s t
    else if !lost then { s with gate := { s.gate with fallback := false } } else s
  match motionOf s with
  | none => s
  | some m =>
    let s := (sectionList.filter fun k => sectUsable s k && !(s.secN k 0x0C == 2 && lost)).foldl
      (fun (u : State) k => sectDecide u k m t) s
    sectCover s (poseFor m t) t

/-- GATEHOUSE_TICK (R247): every device-time multiple of 10 ms, on the active Hearth. -/
def execGatehouseTick (s : State) : Res := whenRt 1 s <|
  let t := gridNext (ms 10) s.gate.last s.time.dev
  let s := s.devTo t
  let s := { s with gate := { s.gate with last := some t } }
  .next (if s.activeHearth then gateTick s t else s)

/-- A write of a section's mode, object 0x2880 + k:0C; a change is sent at once with ts = t + MINLEAD (R247). -/
def sectionMode (s : State) (k v : Nat) : State × Nat :=
  if k > 127 then (s, St.noObject)
  else if s.hearth = false then (s, St.state)
  else if v > 2 then (s, St.range)
  else
    let old := s.secN k 0x0C
    let s := s.setObjN (0x2880 + k) 0x0C v
    if v = old ∨ sectUsable s k = false ∨ s.activeHearth = false then (s, St.ok)
    else
      let t := s.time.dev
      if v = 2 ∧ poseLost s then (sectFall s k t, St.ok)
      else
      match motionOf s with
      | some m => (sectCommand s k t (t + minLead s) (wanted s k m t) true, St.ok)
      | none => if v = 2 then (s, St.ok) else (sectCommand s k t (t + minLead s) (decide (v = 1)) true, St.ok)

end Sys2Proof.Machine
end

