-- ==== Sys2Proof/Machine/F64.lean ====
section
/-!
DEFINITION. The little binary64 arithmetic that objects of type f64 need: rounding a finite value to a multiple of 1 / d.
-/
namespace Sys2Proof.Machine.F64

def expo (x : Nat) : Nat := x / 2 ^ 52 % 2048
def negative (x : Nat) : Bool := x / 2 ^ 63 % 2 == 1
def mant (x : Nat) : Nat := if expo x = 0 then x % 2 ^ 52 else x % 2 ^ 52 + 2 ^ 52
def lexp (x : Nat) : Int := (if expo x = 0 then (1 : Int) else (expo x : Int)) - 1075
def isFinite (x : Nat) : Bool := expo x != 2047

/-- The quotient n / d rounded to the nearest integer, ties to even. -/
def nearest (n d : Nat) : Nat :=
  let q := n / d
  let r := n % d
  if 2 * r < d then q else if d < 2 * r then q + 1 else if q % 2 = 0 then q else q + 1

/-- The binary64 pattern nearest to n / d. -/
def ofRat (neg : Bool) (n d : Nat) : Nat :=
  if n = 0 then 0
  else
    let top : Int := (Nat.log2 (n * 2 ^ 64 / d) : Int) - 64
    let e : Int := max (top - 52) (-1074)
    let m := if 0 ≤ e then nearest n (d * 2 ^ e.toNat) else nearest (n * 2 ^ (-e).toNat) d
    (if neg then 2 ^ 63 else 0) + ((e + 1074).toNat * 2 ^ 52 + m)

/-- A finite value rounded to the nearest multiple of 1 / d. -/
def roundTo (x d : Nat) : Nat :=
  if !isFinite x then x
  else
    let n := mant x * d * 2 ^ (lexp x).toNat
    ofRat (negative x) (nearest n (2 ^ (-(lexp x)).toNat)) d

end Sys2Proof.Machine.F64
end

