-- ==== Sys2Proof/Machine/Gnss.lean ====
section
/-!
DEFINITION. The satellite receiver and the position service (08_gnss_time.md R182 to R200).
-/
namespace Sys2Proof.Machine

def setGn (s : State) (g : Gnss) : State := { s with gn := g }

/-! Antenna -/

/-- ANTENNA_SHORT (R182): the feed limited for 50 ms. -/
def execAntennaShort (milliamp : Nat) (s : State) : Res :=
  if s.flag R.gnCtrlBias = false ∨ s.flag R.gnStatAntShort then .next s
  else
    let s := (s.set R.gnAgcIant milliamp).set R.gnStatAntShort 1
    let s := (s.fire 199).log 0x0C02 (leBytes 2 milliamp)
    .next (setGn s { s.gn with retryAt := s.now })

/-- ANTENNA_RETRY (R182): 10 s after the short or the last retry; ANT_SHORT clears where the feed does not limit. -/
def execAntennaRetry (limits : Bool) (s : State) : Res :=
  if s.flag R.gnCtrlBias = false ∨ s.flag R.gnStatAntShort = false then .next s
  else
    let s := s.passTo (s.gn.retryAt + sec 10)
    let s := setGn s { s.gn with retryAt := s.now }
    .next (if limits then s else s.set R.gnStatAntShort 0)

/-- ANTENNA_OPEN (R182): the feed current over 1 s; below 3 mA it sets ANT_OPEN. -/
def execAntennaOpen (milliamp : Nat) (s : State) : Res :=
  if s.flag R.gnCtrlBias = false then .next s
  else
    let s := s.set R.gnAgcIant milliamp
    if milliamp < 3 then .next ((s.set R.gnStatAntOpen 1).log 0x0C01 (leBytes 2 milliamp))
    else .next (s.set R.gnStatAntOpen 0)

/-- GN_AGC reports the gain of both bands (R183). -/
def agcReport (s : State) (gains : List Nat) : State :=
  (s.set R.gnAgcGainL1 (gains.getD 0 0)).set R.gnAgcGainL5 (gains.getD 1 0)

/-- ACLR clears ANT_SHORT and retries at once (R182). -/
def antennaClear (s : State) : State := setGn (s.set R.gnStatAntShort 0) { s.gn with retryAt := s.now }

/-- ANTENNA_CLEAR (R182). -/
def execAntennaClear (s : State) : Res := .next (antennaClear s)

/-! Acquisition -/

/-- Primary code period of a signal in ms (Table 8-1). -/
def codePeriod (sig : Nat) : Nat := [1, 1, 4, 1, 10, 1].getD sig 1

/-- Chips of a signal per ms (Table 8-1). -/
def chipsPerMs (sig : Nat) : Nat := if sig % 2 = 0 then 1023 else 10230

/-- The acquisition request keeps its limits (R184). -/
def acqOk (s : State) : Bool :=
  let sig := s.get R.gnAcqctrlSig
  let tc := s.get R.gnAcqparTc
  decide (sig ≤ 5) && decide (1 ≤ s.get R.gnAcqctrlPrn) && !(sig == 0 && s.flag R.gnAcqctrlArm)
    && decide (1 ≤ tc) && decide (tc ≤ 10) && tc % codePeriod sig == 0 && decide (tc * s.get R.gnAcqparNc ≤ 200)
    && decide (1 ≤ s.get R.gnAcqparNc) && decide (1 ≤ s.get R.gnAcqparNbins) && decide (s.get R.gnAcqparNbins ≤ 256)
    && decide (1 ≤ s.get R.gnAcqfsFs) && decide (s.get R.gnAcqfsFs ≤ 1000)

/-- Length of a search in ms (R184). -/
def acqLength (s : State) : Nat := s.get R.gnAcqparTc * s.get R.gnAcqparNc * ceilDiv (s.get R.gnAcqparNbins) 16

/-- GN_ACQCTRL is written: GO starts a search, or sets ERR; while BUSY it is ignored (R184). -/
def acqWrite (s : State) (v : Word) : State :=
  let s := plainWrite s R.gnAcqctrl v
  if bit v 0 = false ∨ s.flag R.gnAcqstatBusy ∨ s.flag R.gnCtrlEn = false then s
  else if acqOk s then
    setGn (s.set R.gnAcqstatBusy 1) { s.gn with acqEnd := (s.time.dev / 1000000 + 1 + acqLength s) * 1000000 }
  else s.set R.gnAcqstatErr 1

/-- ACQ_GO (R184). -/
def execAcqGo (value : Word) (s : State) : Res :=
  gatedWrite s 8 { addr := R.gnAcqctrl, value := value } (acqWrite s value)

/-- ACQ_DONE (R184): the search ends; the code phase is valid at device time t. -/
def execAcqDone (codePhase : Nat) (doppler : Word) (peak : Nat) (t : Time) (s : State) : Res := gated s 8 <|
  if s.flag R.gnAcqstatBusy = false then .next s
  else
    let s := s.devTo s.gn.acqEnd
    let s := ((s.set R.gnAcqphCodeph codePhase).wr R.gnAcqdop doppler).set R.gnAcqpeakPeak peak
    .next ((((s.wr64 R.gnAcqtsLo t).set R.gnAcqstatBusy 0).set R.gnAcqstatDone 1).fire 193)

/-! Tracking channels -/

namespace State
def gnCh (s : State) (n : Nat) : GnCh := Tbl.get s.gn.ch {} n
def setGnCh (s : State) (n : Nat) (x : GnCh) : State := { s with gn := { s.gn with ch := Tbl.set s.gn.ch {} n x } }
def chSig (s : State) (n : Nat) : Nat := s.get (R.gnChctrlSig n)
end State

/-- One primary code of a signal in 2⁻³² chip. -/
def codeLength (sig : Nat) : Nat := codePeriod sig * chipsPerMs sig * 4294967296

/-- The carrier word in the shadow, signed 48 bits (R187). -/
def shadowCarrier (s : State) (n : Nat) : Int :=
  let w := (s.rd (R.gnChcarrLo n)).toNat + 4294967296 * ((s.rd (R.gnChcarrHi n)).toNat % 65536)
  if w < 140737488355328 then (w : Int) else (w : Int) - 281474976710656

/-- The ERR code of a channel's configuration: 1 TINT, 3 arm, 0 none (R186, R189). -/
def channelErr (sig tint arms : Nat) : Nat :=
  if tint % codePeriod sig ≠ 0 then 1 else if sig = 0 ∧ arms ≠ 0 then 3 else 0

/-- Length of an integration in 2⁻³² chip (R189). -/
def integration (s : State) (n : Nat) : Nat := s.get (R.gnChctrlTint n) * chipsPerMs (s.chSig n) * 4294967296

/-- EN = 1: the channel's code phase loads at LOADTS, or the write is refused (R188). Answers the ERR code. -/
def channelEnable (s : State) (n : Nat) : State × Nat :=
  let t := s.rd64 (R.gnChloadtsLo n)
  let e0 := channelErr (s.chSig n) (s.get (R.gnChctrlTint n)) (s.get (R.gnChctrlArms n))
  let e := if e0 ≠ 0 then e0 else if t < s.time.dev + 10000 then 2 else 0
  let s := s.set (R.gnChstatErr n) e
  if e ≠ 0 then (s, e)
  else
    let ph := s.get (R.gnChloadphLoadph n) * 67108864
    let len := codeLength (s.chSig n)
    let s := s.setGnCh n {
      code := (s.rd (R.gnChcode n)).toNat, carr := shadowCarrier s n, codePh := ph,
      stop := (ph / len + 1) * len + integration s n, since := t, ahead := 0 }
    ((s.set (R.gnChctrlEn n) 1).set (R.gnChstatRun n) 1, 0)

/-- CHANNEL_ENABLE (R188). -/
def execChannelEnable (n : Nat) (s : State) : Res :=
  if n > 191 ∨ s.flag R.gnCtrlEn = false ∨ s.flag (R.gnChctrlEn n) then .next s
  else gatedField s 8 (R.gnChctrlEn n) 1 (channelEnable s n).1

/-- EN = 0 stops the channel at once (R188). -/
def channelDisable (s : State) (n : Nat) : State := (s.set (R.gnChctrlEn n) 0).set (R.gnChstatRun n) 0

/-- CHANNEL_DISABLE (R188). -/
def execChannelDisable (n : Nat) (s : State) : Res :=
  if n > 191 then .next s else gatedField s 8 (R.gnChctrlEn n) 0 (channelDisable s n)

/-- GN_CHCTRL is written: SIG, PRN, TINT and ARMS are refused while EN = 1; SECW and EN take effect (R186 to R190). -/
def channelWrite (s : State) (n : Nat) (v : Word) : State :=
  let a := R.gnChctrl n
  let cfg := (fieldsAt a).filter fun f => decide (1 ≤ f.lsb) && decide (f.lsb ≤ 15)
  let changed := cfg.any fun f => fieldOf v.toNat f != fieldOf (s.rd a).toNat f
  let run := s.flag (R.gnChctrlEn n)
  let s := s.put (R.gnChctrlSecw n) (bit v 17)
  let w := BitVec.ofNat 32 (applyFields cfg (s.rd a).toNat v.toNat)
  let e := if run then (if changed then 4 else 0) else channelErr (bits w 1 3) (bits w 10 5) (bits w 15 2)
  if e ≠ 0 then
    let s := s.set (R.gnChstatErr n) e
    if bit v 0 then s else channelDisable s n
  else
    let s := if run then s else s.wr a w
    if bit v 0 = false then channelDisable s n
    else if run ∨ s.flag R.gnCtrlEn = false then s
    else (channelEnable s n).1

/-- The registers that hold a phase record: code phase, epochs and carrier phase (R189, R192). -/
def phaseRegs (s : State) (frac whole carLo len code : Nat) (carr : Int) : State :=
  let within := code % len
  ((s.wr frac (BitVec.ofNat 32 within)).wr whole
    (BitVec.ofNat 32 (within / 4294967296 % 16777216 + code / len % 256 * 16777216))).wr64 carLo
    (wrapInt 64 (carr / 4294967296))

/-- CHANNEL_DUMP (R189): the integration ends with its last sample at device time t. -/
def channelDump (s : State) (n : Nat) (t : Time) (data pilot : List Word) : State :=
  let c := s.gnCh n
  let len := codeLength (s.chSig n)
  let samples := ceilDiv (c.stop - c.codePh) c.code
  let lastCode := c.codePh + (samples - 1) * c.code
  let lastCarr := c.carrPh + ((samples - 1 : Nat) : Int) * c.carr
  let s := s.devTo t
  let arms := s.get (R.gnChctrlArms n)
  let sums := fun (u : State) (a : Nat) (l : List Word) =>
    (List.range 10).foldl (fun w k => w.wr (a + 4 * k) (l.getD k 0)) u
  let s := if arms = 1 then s else sums s (R.gnChdata n 0) data
  let s := if arms = 0 then s else sums s (R.gnChpilot n 0) pilot
  let s := phaseRegs (s.wr64 (R.gnChdtsLo n) t) (R.gnChdcpf n) (R.gnChdcpi n) (R.gnChdcarLo n) len lastCode lastCarr
  let s := s.set (R.gnChstatUcnt n) c.commits
  let s := (s.count (R.gnChdseq n)).count (R.gnChdseq2 n)
  let s := if c.unacked then (s.set (R.gnChstatOvr n) 1).count (R.gnChmiss n) else s
  let s := s.set (State.bitAt (R.gnDumpmask 0) n) 1
  let next := { c with
    codePh := c.codePh + samples * c.code, carrPh := c.carrPh + (samples : Int) * c.carr,
    stop := c.stop + integration s n, since := t, ahead := 1, unacked := true }
  let next := match c.pend with
    | none => next
    | some (code, carr, slip) =>
      { next with code := code, carr := carr, stop := next.stop + slip * len, pend := none,
                  commits := (c.commits + 1) % 65536 }
  let s := s.setGnCh n next
  setGn s { s.gn with dumped := true }

/-- CHANNEL_DUMP (R189); nothing while the GNSS PLL is stopped (R396). -/
def execChannelDump (n : Nat) (t : Time) (data pilot : List Word) (s : State) : Res := gated s 8 <|
  if n > 191 ∨ s.flag (R.gnChstatRun n) = false ∨ (s.gnCh n).code = 0 then .next s
  else .next (channelDump s n t data pilot)

/-- DUMP_INTERRUPT (R189): the next device-time millisecond after a dump. -/
def execDumpInterrupt (s : State) : Res := gated s 8 <|
  if s.gn.dumped = false then .next s
  else
    let s := s.devTo (ceilDiv s.time.dev 1000000 * 1000000)
    .next ((setGn s { s.gn with dumped := false }).fire 192)

/-- COMMIT captures the shadow for the first dump boundary; a second one replaces the first (R190). -/
def ncoCommit (s : State) (n slip : Nat) : State :=
  s.setGnCh n { s.gnCh n with pend := some ((s.rd (R.gnChcode n)).toNat, shadowCarrier s n, slip % 16) }

/-- NCO_COMMIT (R190). -/
def execNcoCommit (n slip : Nat) (s : State) : Res :=
  if n > 191 then .next s
  else gatedWrite s 8 { addr := R.gnChupd n, value := BitVec.ofNat 32 (1 + 2 * (slip % 16)) } (ncoCommit s n slip)

/-- A dump's DSEQ is acknowledged (R191). -/
def dumpAck (s : State) (n seq : Nat) : State :=
  if (s.rd (R.gnChdseq n)).toNat = seq % 4294967296 then s.setGnCh n { s.gnCh n with unacked := false } else s

/-- DUMP_ACK (R191). -/
def execDumpAck (n seq : Nat) (s : State) : Res :=
  if n > 191 then .next s
  else gatedWrite s 8 { addr := R.gnChack n, value := BitVec.ofNat 32 seq } (dumpAck s n seq)

/-- The latch of one running channel: its phases d ns after its last sample, one sample before which they are held (R192, log
entry 23). -/
def latchChannel (s : State) (n : Nat) : State :=
  let c := s.gnCh n
  let d : Int := ((s.time.dev - c.since : Nat) : Int) * 8184 - (c.ahead : Int) * 100000
  let code := ((c.codePh : Int) + (c.code : Int) * d / 100000).toNat
  let carr := c.carrPh + c.carr * d / 100000
  (phaseRegs s (R.gnChmcpf n) (R.gnChmcpi n) (R.gnChmcarLo n) (codeLength (s.chSig n)) code carr).wr (R.gnChmseq n)
    (s.rd R.gnMeasseq)

/-- The position service is enabled (object 0x2600:01). -/
def positionRuns (s : State) : Bool := s.rtRuns 0 && s.objN 0x2600 0x01 == 1

/-- MEAS_LATCH (R192): the next multiple of the measurement period. -/
def execMeasLatch (s : State) : Res := gated s 8 <|
  if s.flag R.gnCtrlEn = false then .next s
  else
    let t := gridNext (ms (max (s.get R.gnMeasPeriod) 1)) s.gn.lastMeas s.time.dev
    let s := (s.devTo t).count R.gnMeasseq
    let s := ((List.range 192).filter fun n => s.flag (R.gnChstatRun n)).foldl latchChannel s
    let latches := if positionRuns s ∧ s.objN 0x2600 0x06 ≠ 0 then s.gn.latches ++ [t] else []
    .next ((setGn s { s.gn with lastMeas := some t, latches := latches }).fire 194)

/-! Navigation data and corrections -/

/-- Where firmware keeps the navigation ring, object 0x2600:0E. -/
def navRing : Nat := 0x80000000 + 64 * (Config.allocated 1).toNat

/-- An entry of the navigation ring (Table 8-3). -/
def navEntry (seq sig prn typ : Nat) (t : Time) (len : Nat) (data : List Byte) : List Byte :=
  leBytes 4 seq ++ leBytes 1 sig ++ leBytes 1 prn ++ leBytes 1 typ ++ leBytes 1 0 ++ leBytes 8 t ++ leBytes 2 len
    ++ leBytes 2 0 ++ bytesAt data 0 104 ++ leBytes 4 seq

/-- UTC parameters from navigation data: TAI − UTC and the leap second pending; a newly announced one is logged. -/
def utcUpdate (s : State) (utc : Option (Nat × Nat)) : State :=
  match utc with
  | none => s
  | some (tai, leap) =>
    let announced := leap ≠ 0 ∧ s.objN 0x2680 0x06 = 0
    let s := (s.setObjN 0x2680 0x05 (tai % 65536)).setObjN 0x2680 0x06 (leap % 256)
    if announced then s.log 0x0C0C (leBytes 2 (tai + (if leap % 256 = 1 then 1 else if leap % 256 = 255 then 65535 else 0)))
    else s

/-- NAV_MESSAGE (R193, R194): a decoded message, whether it passed its check, and the UTC parameters it carried. -/
def execNavMessage (sig prn typ : Nat) (t : Time) (len : Nat) (data : List Byte) (passed : Bool)
    (utc : Option (Nat × Nat)) (s : State) : Res := gated s 8 <|
  if sig > 5 ∨ positionRuns s = false then .next s
  else if passed = false then
    .next (setGn s { s.gn with fails := s.gn.fails.set sig ((s.gn.fails.getD sig 0 + 1) % 4294967296) })
  else
    let n := s.gn.navSeq + 1
    let s := s.mwr (navRing + 128 * (s.gn.navSeq % 256)) (navEntry n sig prn typ t len data)
    let s := setGn s { s.gn with
      navSeq := n % 4294967296,
      orbits := Tbl.set s.gn.orbits [] (65536 * sig + 256 * (prn % 256) + typ % 256) data }
    .next (utcUpdate (s.fire 201) utc)

/-- One step of CRC-24Q (RTCM 3; log entry 24). -/
def crc24Step (c : Nat) : Nat := if c ≥ 0x800000 then Nat.xor (c * 2) 0x1864CFB % 16777216 else c * 2

/-- CRC-24Q of bytes (log entry 24). -/
def crc24q (l : List Byte) : Nat :=
  l.foldl (fun c b => (List.range 8).foldl (fun x _ => crc24Step x) (Nat.xor c (b.toNat * 65536))) 0

/-- The message types of Table 8-7. -/
def rtcmTypes : List Nat :=
  [1005, 1006, 1007, 1008, 1033, 1074, 1077, 1094, 1097, 1124, 1127, 1019, 1042, 1045, 1046]

/-- Big-endian number of n bytes at offset o. -/
def beAt (l : List Byte) (o n : Nat) : Nat := ((l.drop o).take n).foldl (fun a b => 256 * a + b.toNat) 0

/-- The correction counters: 0 accepted, 1 CRC failures, 2 unsupported. -/
def corrCount (s : State) (k : Nat) : State :=
  setGn s { s.gn with corrs := s.gn.corrs.set k ((s.gn.corrs.getD k 0 + 1) % 4294967296) }

/-- The signal whose received navigation data an ephemeris message stands for (Table 8-7, Table 8-2). -/
def ephemerisSignal (typ : Nat) : Option Nat :=
  if typ = 1019 then some 0 else if typ = 1042 then some 4 else if typ = 1045 then some 3 else if typ = 1046 then some 2 else none

/-- An accepted message is used: an ephemeris as navigation data of its satellite, the station's position and descriptors kept,
observations in the fixes (Table 8-7; log entry 121). -/
def rtcmUse (s : State) (typ : Nat) (l : List Byte) : State :=
  match ephemerisSignal typ with
  | some sig => setGn s { s.gn with
      orbits := Tbl.set s.gn.orbits [] (16777216 + 65536 * sig + 256 * (beAt l 4 2 / 64 % 64)) l }
  | none => if typ ≤ 1033 then setGn s { s.gn with station := Tbl.set s.gn.station [] typ l } else s

/-- A frame of the correction source (R198). -/
def rtcmFrame (s : State) (source : Nat) (l : List Byte) : State :=
  let len := beAt l 1 2 % 1024
  if source = 0 ∨ source ≠ s.objN 0x2600 0x07 ∨ (l.getD 0 0) ≠ 0xD3 then s
  else if l.length ≠ len + 6 ∨ crc24q (l.take (len + 3)) ≠ beAt l (len + 3) 3 then corrCount s 1
  else
    let typ := beAt l 3 2 / 16
    if !rtcmTypes.contains typ then corrCount s 2
    else
      let s := corrCount s 0
      let s := rtcmUse (setGn s { s.gn with corrAt := some s.now, corrOld := false }) typ l
      if s.activeHearth then flueSend s 3 0x30 0xFFFF 0 l else s

/-- With forward corrections set, the CAN correction input of a Pavilion goes upstream as CORR (object 0x3000:0F). -/
def rtcmForward (s : State) (source : Nat) (l : List Byte) : State :=
  if s.hearth = false ∧ source = 1 ∧ s.objN 0x3000 0x0F = 1 ∧ s.flag R.fbStatAssigned = true then
    flueSend s 3 0x30 1 0 l
  else s

/-- The whole frames at the head of the CAN byte stream are used; bytes before a preamble are skipped, the rest waits (R198). -/
def rtcmStream : Nat → State → List Byte → State
  | 0, s, l => setGn s { s.gn with stream := l }
  | n + 1, s, l =>
    let size := beAt l 1 2 % 1024 + 6
    if l.getD 0 0 ≠ 0xD3 ∧ l ≠ [] then rtcmStream n s (l.drop 1)
    else if l.length < 3 ∨ l.length < size then setGn s { s.gn with stream := l }
    else
      let f := l.take size
      rtcmStream n (rtcmFrame (rtcmForward s 1 f) 1 f) (l.drop size)

/-- A good frame of CAN channel c: with source CAN, the data of an FD frame with the correction identifier join the byte stream
(R198). -/
def canCorrection (s : State) (c : Nat) (x : CanFrame) : State :=
  let id := s.objN 0x2600 0x09
  let want := id % 536870912 + (if id / 2147483648 % 2 = 1 then 536870912 else 0)
  if s.appServing = false ∨ s.objN 0x2600 0x07 ≠ 1 ∨ c ≠ s.objN 0x2600 0x08 ∨ x.flags % 2 = 0 ∨ x.flags / 8 % 2 = 1
      ∨ x.id ≠ want then s
  else
    let l := s.gn.stream ++ x.data
    rtcmStream (l.length + 1) s l

/-- RTCM_FRAME (R198): sources 1 CAN, 2 fabric, 3 Chimney. -/
def execRtcmFrame (source : Nat) (bytes : List Byte) (s : State) : Res := whenApp s <| .next (rtcmFrame (rtcmForward s source bytes) source bytes)

/-- CORRECTIONS_OLD (R198): the maximum correction age passes without a correction message. -/
def execCorrectionsOld (s : State) : Res := whenApp s <|
  if s.objN 0x2600 0x07 = 0 ∨ s.gn.corrOld = true then .next s
  else
    let s := s.passTo (s.gn.corrAt.getD 0 + sec (s.objN 0x2600 0x0A))
    .next ((setGn s { s.gn with corrOld := true }).log 0x0C0B (leBytes 1 (s.objN 0x2600 0x07)))

/-! Fixes -/

/-- Whether a signal is excluded. -/
def isExcluded (s : State) (sig prn : Nat) : Bool := s.gn.excluded.any fun e => e.1 == sig && e.2.1 == prn

/-- SIGNAL_EXCLUSION: a signal fails a check (R199). -/
def exclude (s : State) (f : Nat × Nat × Nat) : State :=
  let rest := s.gn.excluded.filter fun e => !(e.1 == f.1 && e.2.1 == f.2.1)
  let was := isExcluded s f.1 f.2.1
  let s := setGn s { s.gn with excluded := rest ++ [(f.1, f.2.1, f.2.2, s.now)] }
  if was then s else (s.fire 200).log 0x0C06 (leBytes 1 f.1 ++ leBytes 1 f.2.1 ++ leBytes 1 f.2.2)

/-- SIGNAL_READMIT: signals that passed every check for the readmission time return (R199). -/
def readmit (s : State) : State :=
  let t := sec (s.objN 0x2600 0x0C)
  let back := s.gn.excluded.filter fun e => decide (e.2.2.2 + t ≤ s.now)
  let s := setGn s { s.gn with excluded := s.gn.excluded.filter fun e => !decide (e.2.2.2 + t ≤ s.now) }
  back.foldl (fun u e => u.log 0x0C07 (leBytes 1 e.1 ++ leBytes 1 e.2.1 ++ leBytes 1 e.2.2.1)) s

/-- The signals the residual test excludes: the successive largest residuals above the gate (Table 8-8). -/
def residualFails (s : State) (l : List (Nat × Nat × F32)) : List (Nat × Nat × Nat) :=
  (l.takeWhile fun r => F32.lt (s.objF 0x2600 0x0B) r.2.2).map fun r => (r.1, r.2.1, 1)

/-! Checks among signals (Table 8-8) -/

/-- Band of a signal: 0 L1, 1 L5. -/
def bandOf (sig : Nat) : Nat := sig % 2

/-- The observation of a signal in a list. -/
def observed (l : List GnSignal) (sig prn : Nat) : Option GnSignal := l.find? fun x => x.sig == sig && x.prn == prn

/-- L1 minus L5 pseudorange in mm of the satellite of an L1 signal. -/
def interFrequency (l : List GnSignal) (x : GnSignal) : Option Int :=
  (observed l (x.sig + 1) x.prn).map fun y => x.range - y.range

/-- Check 2: the inter-frequency difference of a satellite changes by more than 3 m over 1 s; both its signals fail. -/
def interFails (before now : List GnSignal) : List (Nat × Nat × Nat) :=
  (now.filter fun x => bandOf x.sig == 0).flatMap fun x =>
    match interFrequency now x, (observed before x.sig x.prn).bind (interFrequency before) with
    | some a, some b => if (a - b).natAbs > 3000 then [(x.sig, x.prn, 2), (x.sig + 1, x.prn, 2)] else []
    | _, _ => []

/-- Check 3: on a band whose gain changed by less than 1 dB since an observation of the last second, at least four signals whose
C/N0 rose by more than 6 dB since. -/
def riseFails (before now : GnObs) : List (Nat × Nat × Nat) :=
  [0, 1].flatMap fun b =>
    let g0 := before.gains.getD b 0
    let g1 := now.gains.getD b 0
    let up := now.signals.filter fun x => bandOf x.sig == b &&
      ((observed before.signals x.sig x.prn).any fun y => decide (y.cn0 + 60 < x.cn0))
    if g1 < g0 + 2 ∧ g0 < g1 + 2 ∧ 4 ≤ up.length then up.map fun x => (x.sig, x.prn, 3) else []

/-- Check 4: the bands whose gain lies more than 3 dB below its learned level and whose mean C/N0 fell by more than 3 dB, with
the drop of the gain in 0.5 dB. -/
def interference (o : GnObs) : List (Nat × Nat) :=
  [0, 1].filterMap fun b =>
    let l := (o.signals.filter fun x => bandOf x.sig == b).map (·.cn0)
    let level := o.levels.getD b (0, 0)
    let g := o.gains.getD b 0
    if g + 6 < level.1 ∧ l ≠ [] ∧ l.foldl (· + ·) 0 + 30 * l.length < level.2 * l.length then some (b, level.1 - g) else none

/-- The signals of a band with interference below 30 dB-Hz. -/
def weakFails (o : GnObs) (bands : List (Nat × Nat)) : List (Nat × Nat × Nat) :=
  (o.signals.filter fun x => decide (x.cn0 < 300) && bands.any fun b => b.1 == bandOf x.sig).map fun x => (x.sig, x.prn, 4)

/-- A signal that a fix may use: in the signal mask, not below the elevation mask, not excluded (R195, R199). -/
def usable (s : State) (x : GnSignal) : Bool :=
  s.objN 0x2600 0x03 / 2 ^ x.sig % 2 == 1 && !F32.lt x.elev (s.objF 0x2600 0x04) && !isExcluded s x.sig x.prn

/-- The number of satellites in a list of signals. -/
def satellites (l : List GnSignal) : Nat := (l.map fun x => (x.sig / 2, x.prn)).eraseDups.length

/-- The clock checks of a fix: drift in 0.001 ppm, jump in ns (Table 8-8). CLOCK clears after 10 s of passing fixes; an offset
that persists for 60 s of failing fixes, with every check among signals passed, is accepted (R200). -/
def clockChecks (s : State) (drift : Nat) (jump : Int) (signalsPass : Bool) : State :=
  let driftBad := decide (drift > 100)
  let jumpBad := decide (jump.natAbs > 300 + uncertainty s)
  let g := s.gn
  if driftBad || jumpBad then
    match g.clock with
    | none =>
      (setGn s { g with clock := some (if signalsPass then some s.now else none, jump), clockPass := none }).log 0x0C08
        (leBytes 4 (if jumpBad then jump.natAbs else drift))
    | some c =>
      let same := decide ((jump - c.2).natAbs ≤ 300)
      match c.1.filter fun _ => same && signalsPass with
      | none => setGn s { g with clock := some (if signalsPass then some s.now else none, jump), clockPass := none }
      | some since =>
        if since + sec 60 ≤ s.now then
          -- CLOCK_ACCEPT: the new clock becomes the reference
          correct ((setGn s { g with clock := none, clockPass := none }).log 0x0C09 (leBytes 4 (wrapInt 32 jump))) jump
        else setGn s { g with clockPass := none }
  else
    match g.clock with
    | none => s
    | some c =>
      let since := g.clockPass.getD s.now
      if since + sec 10 ≤ s.now then setGn s { g with clock := none, clockPass := none }
      else setGn s { g with clock := some (none, c.2), clockPass := some since }

/-- A fix without a solution breaks the runs of fixes that R200 counts. -/
def clockBreak (s : State) : State :=
  setGn s { s.gn with clock := s.gn.clock.map fun c => (none, c.2), clockPass := none }

/-- A checked fix disciplines device time: error, uncertainty, frequency correction and TCXO model, and outside LOCKED the
slew-or-step rule after 5 s (R201, R203, R204, R209, R210). The corrections within LOCKED have no equation: free values
(log entry 22). -/
def discipline (s : State) (err : Int) (sigmaClock : Nat) : State :=
  let since := match s.time.fixSince with
    | some t => t
    | none => s.now
  let s := { s with time := { s.time with fixSince := some since, fixAt := some s.now, err := err } }
  if timeState s = 2 then
    let learned := s.time.learned + (s.now - s.time.uncAt)
    let s := { s with time := { s.time with unc0 := max 20 (3 * sigmaClock), uncAt := s.now, learned := learned } }
    let d := s.draws 3
    let f : Nat := (d.1.getD 0 0).toNat % 134217729
    let s := d.2.wr R.gnTfadj (BitVec.ofInt 32 (Int.ofNat f - 67108864))
    let bin := (d.1.getD 1 0).toNat % 126
    s.setObj 0x2680 0x0D (.bytes (patch (s.objB 0x2680 0x0D) (2 * bin) (leBytes 2 (d.1.getD 2 0).toNat)))
  else if since + sec 5 ≤ s.now then correct s err
  else s

/-- FLAGS of a fix (Table 8-5). -/
def fixFlags (fault excluded clock corrOld interf : Bool) : Nat :=
  (if fault then 1 else 0) + (if excluded then 2 else 0) + (if clock then 4 else 0) + (if corrOld then 8 else 0)
    + (if interf then 16 else 0)

/-- A position record (Table 8-5): SIGH, SIGU, SIGE, SIGN and PDOP are sigmas 0 to 4. -/
def positionRecord (place : Nat × Nat × Nat) (sg : List F32) (age : F32) (fix nsat flags datum : Nat) : List Byte :=
  F32.toBytes (sg.getD 0 0) ++ F32.toBytes (sg.getD 1 0) ++ leBytes 8 place.1 ++ leBytes 8 place.2.1
    ++ leBytes 8 place.2.2 ++ F32.toBytes (sg.getD 2 0) ++ F32.toBytes (sg.getD 3 0) ++ F32.toBytes age
    ++ F32.toBytes (sg.getD 4 0) ++ leBytes 1 fix ++ leBytes 1 nsat ++ leBytes 2 flags ++ leBytes 1 datum
    ++ List.replicate 11 0

/-- A velocity record (Table 8-6). -/
def velocityRecord (v : List F32) (nsat flags : Nat) : List Byte :=
  (List.range 6).flatMap (fun i => F32.toBytes (v.getD i 0)) ++ leBytes 2 flags ++ leBytes 1 nsat ++ List.replicate 5 0

/-- The origin of the local tangent plane is the first fix while its three objects are 0 (06_fusion.md). -/
def firstOrigin (s : State) (place : Nat × Nat × Nat) : State :=
  if s.gn.fixed then s
  else
    let s := setGn s { s.gn with fixed := true }
    if fusionRuns s && s.objN 0x2400 0x02 == 0 && s.objN 0x2400 0x03 == 0 && s.objN 0x2400 0x04 == 0 then
      ((s.retain 0x2400 0x02 (.num (F64.roundTo place.1 1000000))).retain 0x2400 0x03
        (.num (F64.roundTo place.2.1 1000000))).retain 0x2400 0x04 (.num (F64.roundTo place.2.2 1000))
    else s

/-- POSITION_FIX (R195, R196, R199): the fix of the oldest latch. `fix` is the kind the solution reached, `seen` what the
receiver observed, `residuals` the successive largest residuals, `drift` and `jump` the clock differences, `err` device time
minus reference and `sigmaClock` the deviation of the clock bias in ns. -/
def positionFix (s : State) (t : Time) (fix : Nat) (seen : GnObs) (place : Nat × Nat × Nat) (sigmas velocity : List F32)
    (residuals : List (Nat × Nat × F32)) (drift : Nat) (jump err : Int) (sigmaClock : Nat) : State :=
  let s := readmit s
  let recent := s.gn.seen.filter fun e => decide (t ≤ e.1 + 1000000000) && decide (e.1 < t)
  let second := recent.filter fun e => e.1 + 1000000000 == t
  let bands := interference seen
  let rf := residualFails s (residuals.filter fun r => seen.signals.any fun x => x.sig == r.1 && x.prn == r.2.1 && usable s x)
  let rise := recent.flatMap fun e => riseFails e.2 seen
  let fails := rf ++ second.flatMap (fun e => interFails e.2.signals seen.signals) ++ rise ++ weakFails seen bands
  let new := fails.any fun f => !isExcluded s f.1 f.2.1
  let s := setGn s { s.gn with seen := (t, seen) :: recent }
  let s := fails.foldl exclude s
  let s := bands.foldl (fun u b => u.log 0x0C0A (leBytes 1 (if b.1 = 0 then 1 else 5) ++ leBytes 1 b.2)) s
  let used := seen.signals.filter (usable s)
  let nsat := satellites used
  let stuck := !rf.isEmpty && decide (used.length < 5)
  let s := if fix = 0 then clockBreak s else clockChecks s drift jump (fails.isEmpty && bands.isEmpty)
  let rtk := s.objN 0x2600 0x06 == 2
  let corrected := rtk && s.objN 0x2600 0x07 != 0 && !s.gn.corrOld
    && s.gn.corrAt.any fun c => decide (s.now < c + sec (s.objN 0x2600 0x0A))
  let fix := if corrected then min fix 3 else min fix 1
  let clock := s.gn.clock.isSome
  let fault := fix == 0 || stuck || clock
  let flags := fixFlags fault new clock (rtk && !corrected) (!bands.isEmpty || !rise.isEmpty)
  let age := if fix ≥ 2 then F32.ofRat ((s.now - s.gn.corrAt.getD 0 : Nat) : Int) 1000000000 else 0
  let datum := if fix ≥ 2 then 1 else 0
  let s := deliver s 0x400 t (sigmas.getD 0 0) fault (positionRecord place sigmas age fix nsat flags datum)
  let s := deliver s 0x401 t (velocity.getD 0 0) fault (velocityRecord velocity nsat flags)
  let s := produce (produce (produce s 0x402 t (F32.ofNat fix)) 0x403 t (sigmas.getD 0 0)) 0x404 t (F32.ofNat nsat)
  if fix ≥ 1 && !fault then
    let s := firstOrigin (setGn s { s.gn with lastPos := some place }) place
    if s.hearth then discipline s err sigmaClock else s
  else { s with time := { s.time with fixSince := none } }

/-- POSITION_FIX (R195); GN_AGC shows the gains (R183), and a latch taken while no fixes are formed gets none. -/
def execPositionFix (fix : Nat) (seen : GnObs) (place : Nat × Nat × Nat) (sigmas velocity : List F32)
    (residuals : List (Nat × Nat × F32)) (drift : Nat) (jump err : Int) (sigmaClock : Nat) (s : State) : Res := gated s 8 <|
  let s := agcReport s seen.gains
  if positionRuns s = false ∨ s.objN 0x2600 0x06 = 0 then .next (setGn s { s.gn with latches := [] })
  else
    match s.gn.latches with
    | [] => .next s
    | t :: rest =>
      .next (positionFix (setGn s { s.gn with latches := rest }) t fix seen place sigmas velocity residuals drift jump err sigmaClock)

/-- Object 0x2600:05 sets the measurement rate (R195). -/
def measRateWrite (s : State) (v : Nat) : State × Nat :=
  if [1, 2, 5, 10, 20].contains v then (s.set R.gnMeasPeriod (1000 / v), St.ok) else (s, St.range)

/-- Object 0x2600:11 takes 1: ephemerides and almanacs are cleared. -/
def clearOrbits (s : State) : State × Nat := (setGn s { s.gn with orbits := [] }, St.ok)

/-- The baseband loses its power: its channels stop and a search ends without a result (GN_CTRL.EN; log entry 121). -/
def basebandOff (s : State) : State :=
  ((List.range 192).filter fun n => s.flag (R.gnChctrlEn n)).foldl channelDisable (s.set R.gnAcqstatBusy 0)

/-- GN_CTRL is written (R182): with EN the baseband starts, its latches counted from 0. -/
def gnCtrlWrite (s : State) (v : Word) : State :=
  let was := s.flag R.gnCtrlEn
  let s := plainWrite s R.gnCtrl v
  let s := if bit v 0 = was then s else if was then basebandOff s else s.wr R.gnMeasseq 0
  if bit v 3 then antennaClear s else s

/-- GN_TFADJ takes a correction within ±2^26 (its register table). -/
def fadjWrite (s : State) (v : Word) : State := if (int32 v).natAbs ≤ 67108864 then plainWrite s R.gnTfadj v else s

/-- GN_CHSPC takes offsets with VSP not below ELSP (its register table). -/
def spacingWrite (s : State) (n : Nat) (v : Word) : State :=
  if bits v 8 8 < bits v 0 8 then s else plainWrite s (R.gnChspc n) v

/-- Object 0x2680:0D takes a TCXO model; all zeros restart learning (R204). -/
def modelWrite (s : State) (l : List Byte) : State :=
  let s := s.setObj 0x2680 0x0D (.bytes l)
  if l.all (· == 0) then { s with time := { s.time with learned := 0 } } else s

end Sys2Proof.Machine
end

