-- ==== Sys2Proof/Machine/Message.lean ====
section
/-!
DEFINITION. Dictionary messages and the requests this module sends to others (14_object_dictionary.md R337, R343, R344, R346).
-/
namespace Sys2Proof.Machine

namespace State
def setDict (s : State) (x : Service) : State := { s with dict := x }
end State

/-! Requesters -/

/-- The requester reached this module over the fabric. -/
def overFabric (who : Nat) : Bool := decide (16777216 ≤ who) && decide (who < 33554432)

/-- The requester reached this module over CAN. -/
def overCan (who : Nat) : Bool := decide (33554432 ≤ who)

/-- CAN channel and address of a requester over CAN. -/
def canOf (who : Nat) : Nat × Nat := ((who - 33554432) / 256, who % 256)

/-! Messages (R337, R344) -/

/-- A message: the header of Table 14-5 and the value. -/
def messageBytes (op status tag index sub typ aux : Nat) (data : List Byte) : List Byte :=
  leBytes 1 op ++ leBytes 1 status ++ leBytes 2 tag ++ leBytes 2 index ++ leBytes 1 sub ++ leBytes 1 typ
    ++ leBytes 2 data.length ++ leBytes 4 aux ++ leBytes 2 0 ++ data

/-- A list in pieces of n. -/
def pieces (n : Nat) : Nat → List Byte → List (List Byte)
  | 0, _ => []
  | fuel + 1, l => if l.length ≤ n then [l] else l.take n :: pieces n fuel (l.drop n)

/-- Lengths of FD frames above 8 bytes: data is padded with zeros to the next one. -/
def fdLength (n : Nat) : Nat := ([12, 16, 20, 24, 32, 48, 64].find? fun k => decide (n ≤ k)).getD 64

/-- Own address of the dictionary service on channel c (R344). -/
def dictAddr (s : State) (c : Nat) : Nat := if (s.canCh c).claim = 2 then (s.canCh c).addr else s.canN c 0x23

/-- A message goes out over CAN channel c to an address, in frames of buffer 31; a request of an own transaction with its tag
(R344, R314). -/
def canMessage (s : State) (c dst : Nat) (tag : Option Nat) (bytes : List Byte) : State :=
  let fd := s.get (R.cnCtrlFmt c) != 0 && s.lifeCycle != 0
  let l := pieces (if fd then 62 else 6) bytes.length bytes
  let a0 := Tbl.get (s.canCh c).alive 0 dst
  let id := 536870912 + s.canN c 0x22 * 65536 + dst * 256 + dictAddr s c
  let flags := if fd then (if 2 ≤ s.get (R.cnCtrlFmt c) then 3 else 1) else 0
  let frames := l.mapIdx fun k p =>
    let kind := if l.length = 1 then 0 else if k = 0 then 1 else if k + 1 = l.length then 3 else 2
    let d := leBytes 1 (64 * kind + k % 64) ++ leBytes 1 (a0 + k) ++ p
    ({ id := id, flags := flags, data := if fd ∧ 8 < d.length then bytesAt d 0 (fdLength d.length) else d } : CanFrame)
  let x := s.canCh c
  canPump (s.setCan c { x with dictOut := x.dictOut ++ frames.map fun f => (tag, f),
                               alive := Tbl.set x.alive 0 dst ((a0 + l.length) % 256) }) c

/-! Requests to other modules (R322, R346) -/

/-- A peer has a transaction outstanding or a message under reassembly (R322). -/
def peerWorks (s : State) (peer : Nat) : Bool :=
  (s.dict.remotes.any fun r => r.peer == peer && !r.ended)
    || (overCan peer && (Tbl.get (s.canCh (canOf peer).1).parts none (canOf peer).2).isSome)

/-- The configuration of the checker of the dictionary service on CV7 (R344). -/
def dictChecker (s : State) : State := ((s.set (R.cvAccfgN 7) 8).set (R.cvAccfgMaxskip 7) 127).set (R.cvAccfgResync 7) 2

/-- The alive value of a fabric peer's dictionary frame is classified on CV7: whether the frame is taken (R28, R322, R323). -/
def fabricAlive (s : State) (peer alive : Nat) : Bool × State :=
  let c := peerContext s peer (peerWorks s)
  match c.1 with
  | none => (false, { c.2 with cv := { c.2.cv with refused := c.2.cv.refused + 1 } })
  | some k =>
    let a := aliveCheck (dictChecker c.2) 7 k alive
    (match a.1 with
      | .repeated => false
      | .stale => false
      | _ => true, a.2)

/-- A request leaves for another module: the state, and the status where it is refused (R322, R343, R346). -/
def remoteSend (s : State) (slot : Option Nat) (peer op tag index sub typ aux : Nat) (data : List Byte) : State × Nat :=
  let c := peerContext s peer (peerWorks s)
  if 1024 ≤ s.dict.remotes.length ∨ (s.dict.remotes.any fun r => r.tag == tag) = true then (s, St.resources)
  else
    match c.1 with
    | none => (c.2, St.resources)
    | some _ =>
      let s := c.2
      let wait := if overFabric peer then s.objN 0x3000 0x0C else s.canN (canOf peer).1 0x0E
      let r : Remote := { tag := tag, peer := peer, op := op, index := index, sub := sub, slot := slot,
                          till := s.now + ms wait }
      let s := s.setDict { s.dict with remotes := s.dict.remotes ++ [r] }
      let msg := messageBytes op 0 tag index sub typ aux data
      if overFabric peer then (flueAsk s (if op = 4 then 3 else 6) 0x20 (peer - 16777216) msg, St.ok)
      else (canMessage s (canOf peer).1 (canOf peer).2 (some tag) msg, St.ok)

/-- The tag of a request of the firmware itself: the highest one free (log entry 125). -/
def freeTag (s : State) : Nat :=
  65535 - ((List.range 1025).find? fun k => !s.dict.remotes.any fun r => r.tag == 65535 - k).getD 0

/-- A request of the firmware itself to another node; nothing is sent where no transaction is free. -/
def nodeAsk (s : State) (node op index sub typ aux : Nat) (data : List Byte) : State :=
  (remoteSend s none (16777216 + node) op (freeTag s) index sub typ aux data).1

end Sys2Proof.Machine
end

