-- ==== Sys2Proof/Machine/Security.lean ====
section
/-!
DEFINITION. Life cycle, authorisation tokens, OEM slots and debug access (22_security_update.md R478 to R487).
-/
namespace Sys2Proof.Machine

def State.setSec (s : State) (x : Sec) : State := { s with sec := x }

/-- A token or request is refused: counted, and event 0x1602 with the cause (R482). Causes 1 to 4 answer CHECK, cause 5
answers STATE (log entry 42). -/
def secRefuse (s : State) (kind cause : Nat) : Ans :=
  ((s.count R.secRefused).log 0x1602 (leBytes 1 kind ++ leBytes 1 cause), if cause = 5 then St.state else St.check, cause)

/-- OEM slot k is valid: written and not revoked. -/
def slotValid (s : State) (k : Nat) : Bool :=
  decide (k < 4) && !(s.sec.otp.hashes.getD k []).isEmpty && !s.flag ⟨R.secSlots, 4 + k, 1⟩

/-- The key hash of a slot a token or image may name: 0xFF the Scaholt root key. -/
def slotHash (s : State) (k : Nat) : Option (List Byte) :=
  if k = 0xFF then some Config.rootHash else if slotValid s k then some (s.sec.otp.hashes.getD k []) else none

/-- CHALLENGE_READ (R482): a new challenge, valid for 300 s; the previous one is void. -/
def challengeRead (s : State) : List Byte × State :=
  let r := s.drawBytes 32
  (r.1, r.2.setSec { r.2.sec with challenge := some r.1, challengeTill := s.now + sec 300 })

/-! Debug access (R487) -/

/-- Debug closes, with event 0x1604. -/
def debugClose (s : State) (cause : Nat) : State :=
  if s.get ⟨R.secDbg, 0, 3⟩ = 0 then s
  else ((s.setSec { s.sec with debugTill := none }).set ⟨R.secDbg, 0, 3⟩ 0).log 0x1604 (leBytes 1 cause)

/-- Debug opens for the processors of the mask. -/
def debugOpen (s : State) (mask minutes : Nat) : State :=
  let s := s.setSec { s.sec with debugTill := some (s.now + sec (60 * minutes)) }
  ((s.set ⟨R.secDbg, 0, 3⟩ mask).count R.secDebugopen).log 0x1603 (leBytes 1 mask ++ leBytes 2 minutes)

/-- Minutes of debug left, as SEC_DBG.REMAIN reads, begun minutes counted. -/
def debugLeft (s : State) : Nat :=
  match s.sec.debugTill with
  | none => 0
  | some t => ceilDiv (t - s.now) (sec 60)

/-- DEBUG_EXPIRY (R487). -/
def execDebugExpiry (s : State) : Res :=
  match s.sec.debugTill with
  | none => .next s
  | some t => .next (debugClose (s.passTo t) 1)

/-- The answer to a debug datagram: the request with the data read, and a status (R487). -/
def debugAnswer (seq op reg : Nat) (data status : Word) : List Byte :=
  leBytes 4 seq ++ leBytes 1 op ++ leBytes 1 0 ++ leBytes 2 reg ++ leBytes 4 data.toNat ++ leBytes 1 status.toNat

/-- DEBUG_DATAGRAM (R487): while debug is open the request is answered; the debug module's registers and the status are not
described, so the data read and the status are free (log entry 43). -/
def execDebugDatagram (seq op reg : Nat) (data : Word) (s : State) : Res :=
  if s.get ⟨R.secDbg, 0, 3⟩ = 0 ∨ ¬(op = 1 ∨ op = 2) ∨ 65535 < reg then .next s
  else .next (s.fresh.fresh.emit (.debugReply
    (debugAnswer seq op reg (if op = 1 then Config.freeWord s.freeCtr else data) (Config.freeWord (s.freeCtr + 1)))))

/-! Transitions (R479, R480) -/

/-- Some image type awaits confirmation. -/
def awaitsConfirmation (s : State) : Bool := (List.range 3).any fun k => s.get (R.upTstatConf k) == 1

/-- LIFE_CYCLE_TRANSITION: an LCR follows, before which the state is committed to OTP with what Table 22-2 writes beside it. -/
def transition (s : State) (to_ : Nat) : Ans :=
  if awaitsConfirmation s then (s, St.busy, 0)
  else
    let s := if s.lifeCycle = 3 then debugClose s 3 else s
    (((s.setSec { s.sec with target := some to_ }).set R.secLcPend 1).resetDue 8, St.ok, 0)

/-- The transitions that a write of object 0x1200:04 may ask for (Table 22-2). -/
def transitionRequest (s : State) (v : Nat) : Ans :=
  if v ≠ 2 ∧ v ≠ 4 then (s, St.range, 0)
  else if (s.lifeCycle = 1 ∧ v = 4) ∨ (s.lifeCycle = 3 ∧ v = 2) then transition s v else secRefuse s 1 5

/-! Tokens (R482, R484) -/

/-- The kind and argument are permitted in the present state. -/
def tokenPermitted (s : State) (kind arg slot minutes : Nat) : Bool :=
  match kind, s.lifeCycle with
  | 1, 0 => arg == 1 && slot == 0xFF
  | 1, 1 => arg == 2 && slot == 0 && !(s.sec.otp.keys.getD 0 []).isEmpty
  | 1, 2 => (arg == 3 || arg == 4) && decide (slot < 4)
  | 1, 3 => arg == 4 && decide (slot < 4)
  | 2, 3 => decide (0 < arg) && decide (arg < 8) && decide (slot < 4) && decide (1 ≤ minutes) && decide (minutes ≤ 1440)
  | 2, 0 => decide (0 < arg) && decide (arg < 8) && slot == 0xFF && decide (1 ≤ minutes) && decide (minutes ≤ 1440)
  | 2, 1 => decide (0 < arg) && decide (arg < 8) && slot == 0xFF && decide (1 ≤ minutes) && decide (minutes ≤ 1440)
  | 3, 3 => decide (arg < 4) && decide (slot < 4) && arg != slot
  | _, _ => false

/-- The serial number a token must name: the module's, in BLANK the staged one (R483). -/
def tokenSerial (s : State) : Option Nat :=
  if s.lifeCycle = 0 then s.sec.staged else some (s.objN 0x1000 0x04)

/-- The first check of R482 that a token fails, 0 where it passes all. -/
def tokenFault (s : State) (l : List Byte) : Nat :=
  let slot := natAt l 2 1
  if tokenSerial s ≠ some (natAt l 4 8) then 3
  else if s.sec.challenge ≠ some ((l.drop 12).take 32) ∨ s.sec.challengeTill ≤ s.now then 4
  else if slotHash s slot ≠ some (Config.sha256 ((l.drop 48).take 32)) then 2
  else if Config.signed ((l.drop 48).take 32) (l.take 80) (l.drop 80) = false then 1
  else if tokenPermitted s (natAt l 0 1) (natAt l 1 1) slot (natAt l 44 4) = false then 5
  else 0

/-- A slot is revoked (R484). -/
def slotRevoke (s : State) (k : Nat) : State :=
  (s.set ⟨R.secSlots, 4 + k, 1⟩ 1).log 0x1605 (leBytes 1 k ++ leBytes 1 3)

/-- A token written to object 0x1200:03: the challenge is consumed, and the token's action taken (R482). -/
def tokenWrite (s : State) (l : List Byte) : Ans :=
  let kind := natAt l 0 1
  let fault := tokenFault s l
  let s := s.setSec { s.sec with challenge := none }
  if fault ≠ 0 then secRefuse s kind fault
  else
    let s := s.count R.secTokens
    match kind with
    | 1 => transition s (natAt l 1 1)
    | 2 => (debugOpen s (natAt l 1 1) (natAt l 44 4), St.ok, 0)
    | _ => (slotRevoke s (natAt l 1 1), St.ok, 0)

/-! Provisioning (R483, R484) -/

/-- A serial number is staged, in BLANK only. -/
def serialStaging (s : State) (n : Nat) : Ans :=
  if s.lifeCycle ≠ 0 then (s, St.state, 0) else (s.setSec { s.sec with staged := some n }, St.ok, 0)

/-- The hash of an OEM slot is written: slot and 32 bytes, in PROVISIONED and once. -/
def slotHashWrite (s : State) (l : List Byte) : Ans :=
  let k := natAt l 0 1
  if s.lifeCycle ≠ 1 then (s, St.state, 0)
  else if 3 < k then (s, St.range, 0)
  else if (s.sec.otp.hashes.getD k []).isEmpty = false then (s, St.state, 0)
  else
    let s := (s.setSec { s.sec with otp := { s.sec.otp with hashes := s.sec.otp.hashes.set k ((l.drop 1).take 32) } }).set ⟨R.secSlots, k, 1⟩ 1
    (s.log 0x1605 (leBytes 1 k ++ leBytes 1 1), St.ok, 0)

/-- The key-encryption key of an OEM slot is written: slot and 32 bytes, in PROVISIONED and once. -/
def slotKeyWrite (s : State) (l : List Byte) : Ans :=
  let k := natAt l 0 1
  if s.lifeCycle ≠ 1 then (s, St.state, 0)
  else if 3 < k then (s, St.range, 0)
  else if (s.sec.otp.keys.getD k []).isEmpty = false then (s, St.state, 0)
  else
    let s := (s.setSec { s.sec with otp := { s.sec.otp with keys := s.sec.otp.keys.set k ((l.drop 1).take 32) } }).set ⟨R.secSlots, 8 + k, 1⟩ 1
    (s.log 0x1605 (leBytes 1 k ++ leBytes 1 2), St.ok, 0)

/-- Object 0x1200:07: hash and state of the four slots. -/
def oemSlots (s : State) : List Byte :=
  (List.range 4).flatMap fun k =>
    let h := s.sec.otp.hashes.getD k []
    bytesAt h 0 32 ++ leBytes 1 (if h.isEmpty then 0 else if slotValid s k then 1 else 2) ++ leBytes 3 0

end Sys2Proof.Machine
end

