-- ==== Sys2Proof/Machine/Storage.lean ====
section
/-!
DEFINITION. The storage controller, the managed flash, the DRAM scrubber and the integrity profile
(16_memory_storage.md R379, R380 and R384 to R389).
-/
namespace Sys2Proof.Machine

/-- The queue takes a value, with OCC and CQTAIL. -/
def State.setStorage (s : State) (q : TagQueue) : State :=
  ({ s with flash := { s.flash with queue := q } }.set R.msSoccOcc q.occupied).set R.msScqtailCqtail (q.written % 256)

/-- Blocks of 4 KB of each partition (Table 16-4). -/
def partBlocks : List Nat :=
  [2048, 2048, 131072, 131072, 524288, 524288, 6291456, 524288, 6291456, 2355200]

/-- Whether a submitter may write a partition: 1 update engine, 2 Parterre, 3 Keeper (Table 16-4). -/
def partWriter (part writer : Nat) : Bool :=
  if part < 6 then writer == 1 else if part = 6 then writer == 2 else if part = 7 then writer == 3 else true

/-! Fields of a storage descriptor (Table 16-5) -/
def stOp (d : List Byte) : Nat := natAt d 2 1
def stFlags (d : List Byte) : Nat := natAt d 3 1
def stPart (d : List Byte) : Nat := natAt d 4 1
def stLba (d : List Byte) : Nat := natAt d 8 8
def stCount (d : List Byte) : Nat := natAt d 16 4
def stBuf (d : List Byte) : Nat := natAt d 24 8
def stFence (o : TagOp) : Bool := stFlags o.desc / 2 % 2 == 1
def stFua (d : List Byte) : Bool := stFlags d / 4 % 2 == 1

/-- The fields hold values that Table 16-5 and the maximum transfer allow. -/
def stFieldsOk (s : State) (d : List Byte) : Bool :=
  decide (1 ≤ stOp d) && decide (stOp d ≤ 4) && decide (stFlags d < 8) && decide (stPart d < 10)
    && decide (1 ≤ stCount d) && decide (stCount d ≤ 4096)
    && decide (stCount d * 4096 ≤ s.objN 0x1600 0x0C)
    && natAt d 5 3 == 0 && natAt d 20 4 == 0 && (d.drop 32).all (· == 0)

/-- Whether the command moves data to or from its buffer. -/
def stMoves (d : List Byte) : Bool := stOp d == 1 || stOp d == 2

/-- The status a command ends with before anything is done; 0 where it may run. -/
def stCheck (s : State) (o : TagOp) : Nat :=
  let d := o.desc
  if !stFieldsOk s d then 4
  else if partBlocks.getD (stPart d) 0 < stLba d + stCount d then 2
  else if stMoves d && (stBuf d % 64 != 0 || !inSramOrDram s (stBuf d) (stCount d * 4096)) then 3
  else if (stOp d == 2 || stOp d == 4) && !partWriter (stPart d) o.writer then 7
  else 0

/-- The number of a block of a partition. -/
def blockKey (part b : Nat) : Nat := part * 4294967296 + b

/-- The contents of a block; bytes nothing has written are free. -/
def flashRead (s : State) (key : Nat) : List Byte :=
  let b := Tbl.get s.flash.blocks {} key
  if b.data.isEmpty then
    (List.range 4096).map fun i =>
      Config.flashByte key (Tbl.get s.flash.keys 0 (key / 4294967296)) b.trims i
  else b.data

/-- A block takes a value; unless it is written through, its old contents may come back at a power cut (R386). -/
def flashPut (s : State) (key : Nat) (b : FlashBlock) (through : Bool) : State :=
  let old := Tbl.get s.flash.blocks {} key
  let loose := if through then Tbl.erase s.flash.loose key
    else if s.flash.loose.any (fun e => e.1 == key) then s.flash.loose
    else Tbl.insert s.flash.loose key old
  { s with flash := { s.flash with blocks := Tbl.set s.flash.blocks {} key b, loose := loose } }

/-- All data the device has accepted are durable (R386). -/
def flashFlush (s : State) : State := { s with flash := { s.flash with loose := [] } }

/-- A power cut: each block not flushed holds its old or its new contents (R386). -/
def flashCut (s : State) : State :=
  let s0 := s.fresh
  flashFlush (s.flash.loose.foldl (fun u e =>
    if Config.survived s.freeCtr e.1 then u
    else { u with flash := { u.flash with blocks := Tbl.set u.flash.blocks {} e.1 e.2 } }) s0)

/-- The keys of the partitions in the list are replaced: their previous contents can no longer be read (R384). -/
def cryptoErase (s : State) (parts : List Nat) : State :=
  parts.foldl (fun u p =>
    { u with flash := { u.flash with
        blocks := u.flash.blocks.filter fun e => e.1 / 4294967296 != p,
        loose := u.flash.loose.filter fun e => e.1 / 4294967296 != p,
        keys := Tbl.set u.flash.keys 0 p (Tbl.get u.flash.keys 0 p + 1) } }) s

/-- Read n blocks from block b on into the buffer: whether every byte arrived, and the state. -/
def stReadBlocks (part : Nat) : Nat → Nat → Nat → State → Bool × State
  | 0, _, _, s => (true, s)
  | n + 1, b, buf, s =>
    let r := busStore s 1 buf (flashRead s (blockKey part b))
    if r.1 = 4096 then stReadBlocks part n (b + 1) (buf + 4096) r.2 else (false, r.2)

/-- Write n blocks from block b on from the buffer; a block whose bytes cannot all be read is not written. -/
def stWriteBlocks (part : Nat) (through : Bool) : Nat → Nat → Nat → State → Bool × State
  | 0, _, _, s => (true, s)
  | n + 1, b, buf, s =>
    let r := busRead s 1 buf 4096
    if r.1.length = 4096 then
      stWriteBlocks part through n (b + 1) (buf + 4096)
        (flashPut r.2 (blockKey part b)
          { Tbl.get r.2.flash.blocks {} (blockKey part b) with data := r.1 } through)
    else (false, r.2)

/-- Trim n blocks from block b on: their contents are unknown afterwards. -/
def stTrimBlocks (part : Nat) : Nat → Nat → State → State
  | 0, _, s => s
  | n + 1, b, s =>
    let old := Tbl.get s.flash.blocks {} (blockKey part b)
    stTrimBlocks part n (b + 1) (flashPut s (blockKey part b) { data := [], trims := old.trims + 1 } false)

/-- The effect of a command that may run: its status and the state (R385, R386). -/
def stRun (s : State) (d : List Byte) : Nat × State :=
  let part := stPart d
  if stOp d = 1 then
    let r := stReadBlocks part (stCount d) (stLba d) (stBuf d) s
    (if r.1 then 0 else 3, r.2)
  else if stOp d = 2 then
    let r := stWriteBlocks part (stFua d) (stCount d) (stLba d) (stBuf d) s
    (if r.1 then 0 else 3, r.2)
  else if stOp d = 3 then (0, flashFlush s)
  else (0, stTrimBlocks part (stCount d) (stLba d) s)

/-- Two commands touch a common block of one partition. -/
def stOverlap (a b : TagOp) : Bool :=
  stPart a.desc == stPart b.desc && decide (stLba a.desc < stLba b.desc + stCount b.desc)
    && decide (stLba b.desc < stLba a.desc + stCount a.desc)

/-- An earlier command that the command of the tag must wait for. -/
def stBlocked (ops : List TagOp) (o : TagOp) : Bool :=
  (ops.takeWhile fun x => x.tag != o.tag).any fun x => stOverlap x o

/-- Commands start in submission order while fewer than 32 are outstanding, no fence holds and no power-fail warning
stands (R386). -/
def stStartAll : Nat → State → State
  | 0, s => s
  | k + 1, s =>
    if s.flag R.msStatPfail ∨ 32 ≤ s.flash.queue.running then s
    else
      match TagQueue.nextToStart stFence s.flash.queue.ops with
      | none => s
      | some o =>
        stStartAll k ((s.setStorage (s.flash.queue.start o.tag s.now)).emit
          (.storage (stPart o.desc) (stOp o.desc) (stLba o.desc) (stCount o.desc)))

def stStart (s : State) : State := stStartAll 32 s

/-- A command ends with a status: completion entry, sources and event (R385). -/
def stEnd (s : State) (o : TagOp) (status : Nat) : State :=
  let q := s.flash.queue
  let s := putCompletion s 1 (s.rd64 R.msScqbaseLo) 256 q.written o.tag status 0
  let s := s.setStorage (q.finish o.tag)
  let s := if stFlags o.desc % 2 = 1 then s.fire 448 else s
  let s := if status = 0 then s else (s.fire 449).log 0x0507 (leBytes 2 o.tag ++ leBytes 1 status)
  stStart s

/-- A submission by a writer of Table 16-4 of the descriptor whose address the word names (R385). -/
def stSubmit (s : State) (writer : Nat) (v : Word) : State :=
  let a := descriptorAt v
  let ok := inSramOrDram s a 64
  let r := if ok then readDescriptor s 1 a else (List.replicate 64 0, s)
  let s := r.2
  let tag := natAt r.1 0 2
  let e := if s.flag R.msStatPfail then 4 else s.flash.queue.refusal 256 tag ok
  let s := (s.set R.msSresResult e).set R.msSresTag tag
  if e = 0 then stStart (s.setStorage (s.flash.queue.submit { tag := tag, desc := r.1, writer := writer })) else s

/-- STORAGE_SUBMIT (R385). -/
def execStorageSubmit (writer : Nat) (value : Word) (s : State) : Res :=
  gatedWrite s 14 { who := 16 + writer, addr := R.msSsubmit, value := value } (stSubmit s writer value)

/-- The device answers a started command; `media` says that every attempt met a media error (R386, R387). The answer of
a command already timed out is discarded and counted. -/
def stComplete (s : State) (tag : Nat) (media : Bool) : State :=
  match s.flash.queue.find tag with
  | some o =>
    if o.started = false ∨ stBlocked s.flash.queue.ops o = true then s
    else
      let c := stCheck s o
      if c ≠ 0 then stEnd s o c
      else if media then stEnd s o 1
      else
        let r := stRun s o.desc
        stEnd r.2 o r.1
  | none =>
    if s.flash.late.contains tag then
      { s with flash := { s.flash with late := s.flash.late.erase tag } }.count R.msSlate
    else s

/-- STORAGE_COMPLETE (R386). -/
def execStorageComplete (tag : Nat) (media : Bool) (s : State) : Res := gated s 14 <| .next (stComplete s tag media)

/-- A started command reaches the storage timeout and its device command is aborted (R387). -/
def stTimeout (s : State) (tag : Nat) : State :=
  match s.flash.queue.find tag with
  | none => s
  | some o =>
    if o.started = false then s
    else
      let s := s.passTo (o.since + ms (s.get R.msScfgTimeout))
      stEnd { s with flash := { s.flash with late := tag :: s.flash.late } } o 6

/-- STORAGE_TIMEOUT (R387). -/
def execStorageTimeout (tag : Nat) (s : State) : Res := .next (stTimeout s tag)

/-- CQHEAD is written: the entries passed are acknowledged (R385). -/
def stAck (s : State) (head : Nat) : State :=
  let n := headAdvance (s.get R.msScqheadCqhead) (head % 256) 256
  (s.set R.msScqheadCqhead head).setStorage (s.flash.queue.ack n)

/-- STORAGE_CQ_ACK (R385). -/
def execStorageCqAck (head : Nat) (s : State) : Res :=
  gatedWrite s 14 { addr := R.msScqhead, value := BitVec.ofNat 32 head } (stAck s head)

/-- A tag is written to ABORT: a command not started completes with status 5 (R385). -/
def stAbort (s : State) (tag : Nat) : State :=
  match s.flash.queue.find (tag % 65536) with
  | none => s
  | some o => if o.started then s else stEnd s o 5

/-- STORAGE_ABORT (R385). -/
def execStorageAbort (tag : Nat) (s : State) : Res :=
  gatedWrite s 14 { addr := R.msSabort, value := BitVec.ofNat 32 tag } (stAbort s tag)

/-- The hourly reading of the device's life-time estimate (R388). -/
def flashLifetime (s : State) (percent : Nat) : State :=
  let s := { s with flash := { s.flash with life := percent } }
  if percent < 90 ∨ s.flash.lifeLogged = true then s
  else ({ s with flash := { s.flash with lifeLogged := true } }.fire 453).log 0x0508 (leBytes 1 percent)

/-- FLASH_LIFETIME_CHECK (R388). -/
def execFlashLifetimeCheck (percent : Nat) (s : State) : Res := .next (flashLifetime s percent)

/-- The scrubber reads the protected word at an address; `errors` bits of it are wrong (R379). -/
def scrub (s : State) (addr errors : Nat) : State :=
  if s.flag R.msStatEcc = false ∨ inDram s addr = false then s
  else
    let s := (s.set R.msStatScrub 1).wr R.msScrubpos (BitVec.ofNat 32 ((addr - 0x80000000) / 4096))
    let s := if errors ≥ 2 ∨ badByte s addr = true then dramUncorrectable s addr true
      else if errors = 1 then dramCorrected s addr
      else s
    if addr / 8 * 8 + 8 = dramTop s then
      { s with dram := { s.dram with corrected := [] } }.set R.msStatScrub 0
    else s

/-- SCRUB_READ (R379). -/
def execScrubRead (addr errors : Nat) (s : State) : Res := .next (scrub s addr errors)

/-- Object 0x1600:08 takes 1: in SERVICE the retirement list becomes empty (R380). -/
def clearRetirement (s : State) : State × Nat :=
  if s.lifeCycle = 3 then ({ s with dram := { s.dram with retired := [] } }, St.ok) else (s, St.state)

/-- The attempt time in ms of a maximum transfer in bytes (R387). -/
def attemptTime (maxTransfer : Nat) : Nat := 20 + ceilDiv maxTransfer 131072

/-- Whether attempts and attempt time stay below a timeout in ms (R26, R387). -/
def storageBudgetOk (retry maxTransfer timeout : Nat) : Bool := decide (retry * attemptTime maxTransfer < timeout)

/-- A write of an integrity profile setting: only in SERVICE (R389). -/
def integrityWrite (s : State) (sub value : Nat) : State × Nat :=
  if sub < 1 ∨ 6 < sub then (s, if sub = 7 then St.readOnly else St.noObject)
  else if s.lifeCycle ≠ 3 then (s, St.state)
  else if value > (if sub = 4 then 2 else 1) then (s, St.range)
  else ((s.setObjN 0x1380 sub value).log 0x050A (leBytes 1 sub ++ leBytes 1 value), St.ok)

end Sys2Proof.Machine
end

