-- ==== Sys2Proof/Machine/Update.lean ====
section
/-!
DEFINITION. Image intake, the relay across the fabric, activation, confirmation and roll-back (22_security_update.md R488 to
R499).
-/
namespace Sys2Proof.Machine

def State.setUpd (s : State) (x : Update) : State := { s with upd := x }

/-- Image type t, 1 to 3. -/
def State.img (s : State) (t : Nat) : ImgType := s.upd.types.getD (t - 1) {}
def State.setImg (s : State) (t : Nat) (x : ImgType) : State :=
  s.setUpd { s.upd with types := s.upd.types.set (t - 1) x }

/-! Register fields of type t -/
def imgField (t lsb width : Nat) : Fld := ⟨R.upTstat (t - 1), lsb, width⟩
def imgActive (s : State) (t : Nat) : Nat := s.get (imgField t 0 1)
def imgState (s : State) (t : Nat) : Nat := s.get (imgField t 1 3)
def setImgState (s : State) (t v : Nat) : State := s.set (imgField t 1 3) v
def imgConf (s : State) (t : Nat) : Nat := s.get (imgField t 4 2)
def imgFloor (s : State) (t : Nat) : Nat := s.get ⟨R.secFloor, 8 * (t - 1), 8⟩

/-! Container header (Table 22-4) -/
def conVersion (c : List Byte) : Nat := natAt c 16 8
def conSvn (c : List Byte) : Nat := natAt c 24 2
def conProto (c : List Byte) : Nat := natAt c 27 1
def conChunks (c : List Byte) : Nat := natAt c 36 4
def conLength (c : List Byte) : Nat := natAt c 40 8
/-- Where the chunks begin: header, tag table, signature. -/
def conBase (c : List Byte) : Nat := 256 + 16 * conChunks c + 64
def conSize (c : List Byte) : Nat := conBase c + conLength c
/-- The end of chunk i, in container bytes. -/
def chunkEnd (c : List Byte) (i : Nat) : Nat := conBase c + min (65536 * (i + 1)) (conLength c)

/-- The partition of the inactive slot of a type (Table 16-4). -/
def inactivePart (s : State) (t : Nat) : Nat := 2 * (t - 1) + (1 - imgActive s t)

/-- The first of checks 1 to 7 of Table 22-5 that a header fails, 0 where it passes. A chunk count that does not hold LENGTH
in chunks of 65,536 bytes fails check 6 (log entry 44). -/
def headerFault (s : State) (t : Nat) (c : List Byte) : Nat :=
  let kek := natAt c 34 1
  let sig := natAt c 35 1
  if natAt c 0 4 ≠ 0x4D495A4B ∨ natAt c 4 2 ≠ 1 then 1
  else if (c.drop 8).take 8 ≠ [0x4B, 0x5A, 0x2D, 0x37, 0x4D, 0x34, 0x38, 0] ∨ natAt c 6 1 ≠ t ∨ t = 0 ∨ 3 < t
      ∨ (t < 3 ∧ (sig ≠ 0xFF ∨ kek ≠ 0xFF)) ∨ (t = 3 ∧ (3 < sig ∨ 3 < kek)) then 2
  else if 0x43 < natAt c 26 1 then 3
  else if conSvn c < imgFloor s t then 4
  else if slotHash s sig ≠ some (Config.sha256 ((c.drop 96).take 32)) then 5
  else if partBlocks.getD (2 * (t - 1)) 0 * 4096 < conSize c ∨ conChunks c ≠ ceilDiv (conLength c) 65536 then 6
  else if 1 < natAt c 32 2 then 7
  else 0

/-- The signature covers the header and the tag table (R489). -/
def signatureOk (c : List Byte) : Bool :=
  let n := 256 + 16 * conChunks c
  Config.signed ((c.drop 96).take 32) (c.take n) ((c.drop n).take 64)

/-- The tag of chunk i verifies (R489). -/
def tagOk (c : List Byte) (i : Nat) : Bool :=
  let o := conBase c + 65536 * i
  Config.chunkOk (c.take 256) i ((c.drop (256 + 16 * i)).take 16) ((c.drop o).take (chunkEnd c i - o))

/-! Relay frames (R493) -/

/-- What the Hearth knows of a node of its relay changes. -/
def setRelayNode (s : State) (id : Nat) (f : RelayNode → RelayNode) : State :=
  s.setUpd { s.upd with nodes := s.upd.nodes.map fun n => if n.id = id then f n else n }

/-- Downstream neighbour on port p for type t. -/
def downAt (s : State) (t p : Nat) : Downstream := Tbl.get (Tbl.get s.upd.down [] t) {} p
def setDown (s : State) (t p : Nat) (d : Downstream) : State :=
  s.setUpd { s.upd with down := Tbl.set s.upd.down [] t (Tbl.set (Tbl.get s.upd.down [] t) {} p d) }

/-- Container bytes verified and written, which may be forwarded. -/
def forwardable (s : State) (t : Nat) : Nat :=
  let u := s.img t
  if u.chunks = 0 then 0 else chunkEnd u.bytes (u.chunks - 1)

/-- Whether this module forwards chunks of type t: the Hearth whose relay distributes it, a Pavilion that receives it by the
relay. -/
def relays (s : State) (t : Nat) : Bool :=
  if s.hearth then s.flag R.upStatRelay && s.upd.typ == t
  else match (s.img t).session with
    | some e => e.2 == 2
    | none => false

/-- The ports towards downstream neighbours: linked, passing UPDATE frames, not the upstream port. -/
def downPorts (s : State) : List Nat :=
  (List.range 6).filter fun p => s.passes p 0x31 && (s.hearth || p != s.get R.fbPtpportUpport)

/-- The fragment of an image type at a container offset (Table 22-6). -/
def fragmentBytes (s : State) (session t offset len : Nat) : List Byte :=
  leBytes 4 session ++ leBytes 1 t ++ leBytes 1 0 ++ leBytes 2 len ++ leBytes 8 offset
    ++ bytesAt ((s.img t).bytes.drop offset) 0 len

/-- One fragment of type t goes one hop on port p: SESSION is the type number (log entry 45), DST the neighbour where its node
ID is known, else 0 (log entry 125). -/
def fragmentSend (s : State) (t p offset len : Nat) : State :=
  flueAskBy s (onPort p) 3 0x31 (((linkAt s.fab.links s.ownId p).map (·.1)).getD 0) (some (t, p)) (fragmentBytes s t t offset len)

/-- Fragments go to the neighbour on port p, up to 8 outstanding. -/
def relaySend (t p : Nat) : Nat → State → State
  | 0, s => s
  | n + 1, s =>
    let d := downAt s t p
    let len := min 1440 (forwardable s t - d.sent)
    if d.failed ∨ d.resumeAt.isSome ∨ len = 0 ∨ d.received + 8 * 1440 ≤ d.sent then s
    else relaySend t p n (setDown (fragmentSend s t p d.sent len) t p { d with sent := d.sent + len })

/-- The node that the Hearth knows behind port p runs the image already: nothing is transferred to it. -/
def runsAlready (s : State) (p : Nat) : Bool :=
  match linkAt s.fab.links s.ownId p with
  | some e => s.upd.nodes.any fun n => n.id == e.1 && n.state == 5
  | none => false

/-- RELAY_CHUNK_FORWARD: verified chunks go to the downstream neighbours. -/
def relayForward (s : State) (t : Nat) : State :=
  if relays s t then ((downPorts s).filter fun p => !runsAlready s p).foldl (fun u p => relaySend t p 8 u) s else s

/-- The relay halts, with event 0x170B (R494). -/
def relayHalt (s : State) (cause id : Nat) : State :=
  let s := s.setUpd { s.upd with cause := cause, waits := none, resumes := cause != 4 }
  ((s.set R.upStatRelay 0).set R.upStatPhase 4).log 0x170B (leBytes 1 cause ++ leBytes 2 id)

/-- A neighbour answers an UPDATE frame: the bytes it has received, from which it goes on where it found a gap; one that refuses
the image gets no more of it. -/
def relayAnswer (s : State) (t p status received : Nat) : State :=
  let d := downAt s t p
  match s.fab.waits.find? fun w => w.hop == some (t, p) with
  | none => s
  | some w =>
    let s := s.setFab { s.fab with waits := s.fab.waits.filter fun x => x.frame.seq != w.frame.seq }
    if status = St.ok then
      relaySend t p 8 (setDown s t p { d with received := max d.received received, sent := max d.sent received, timeouts := 0 })
    else if status = St.sequence then
      relaySend t p 8 (setDown s t p { d with received := received, sent := received, timeouts := 0 })
    else
      setRelayNode (setDown s t p { d with failed := true, timeouts := 0 })
        (((linkAt s.fab.links s.ownId p).map (·.1)).getD 0) fun n => { n with state := 3 }

/-- A transaction with the neighbour on port p ended by timeout: it is resumed after 1 s, after 10 in a row it is FAILED. -/
def relayTimeout (s : State) (t p : Nat) : State :=
  let d := downAt s t p
  let id := ((linkAt s.fab.links s.ownId p).map (·.1)).getD 0
  let s := s.setFab { s.fab with waits := s.fab.waits.filter fun w => w.hop != some (t, p) }
  if d.timeouts + 1 < 10 then
    setDown s t p { d with timeouts := d.timeouts + 1, resumeAt := some (s.now + sec 1), sent := d.received }
  else
    let s := setDown s t p { d with timeouts := 10, failed := true }
    let s := s.log 0x170C (leBytes 2 id ++ leBytes 8 d.received)
    setRelayNode s id fun n => { n with state := 4, received := d.received }

/-- RELAY_NEIGHBOUR_RESUME (R493): 1 s after the timeout, from the bytes the neighbour has received. -/
def execRelayNeighbourResume (t p received : Nat) (s : State) : Res := gated s 9 <|
  let d := downAt s t p
  match d.resumeAt with
  | none => .next s
  | some at_ =>
    let s := s.passTo at_
    .next (relaySend t p 8 (setDown s t p { d with resumeAt := none, received := received, sent := received }))

/-! Intake (R490 to R492) -/

/-- An image is refused: its slot is EMPTY, with event 0x1702. -/
def imageRefuse (s : State) (t cause : Nat) : State :=
  let u := s.img t
  let s := s.setImg t { u with bytes := [], chunks := 0, session := none, runs := false }
  let s := (setImgState s t 0).set (imgField t 8 8) cause
  let s := (s.wr (R.upTreceived (t - 1)) 0).wr64 (R.upTiverLo (t - 1)) 0
  (s.count R.upRefused).log 0x1702 (leBytes 1 t ++ leBytes 1 cause)

/-- Blocks a to b of the inactive slot are written from the container. -/
def slotStore (s : State) (t a b : Nat) : State :=
  let c := (s.img t).bytes
  let part := inactivePart s t
  ((List.range (b + 1)).drop a).foldl (fun u k => flashPut u (blockKey part k) { data := bytesAt c (4096 * k) 4096 } true) s

/-- Complete chunks are verified and written one after another; the answer is the cause of a failure, 0 for none. -/
def chunksTake (t : Nat) : Nat → State → State × Nat
  | 0, s => (s, 0)
  | n + 1, s =>
    let u := s.img t
    let c := u.bytes
    if conChunks c ≤ u.chunks ∨ c.length < chunkEnd c u.chunks then (s, 0)
    else if tagOk c u.chunks = false then (s, 9)
    else
      let a := if u.chunks = 0 then 0 else chunkEnd c (u.chunks - 1) / 4096
      let s := slotStore (s.setImg t { u with chunks := u.chunks + 1 }) t a ((chunkEnd c u.chunks - 1) / 4096)
      chunksTake t n s

/-- The checks that the container passes through when it grows from n bytes: a cause of Table 22-5, or 0. -/
def imageChecks (s : State) (t n : Nat) : State × Nat :=
  let c := (s.img t).bytes
  let header := if n < 256 ∧ 256 ≤ c.length then headerFault s t c else 0
  if c.length < 256 then (s, 0)
  else if header ≠ 0 then (s, header)
  else
    let s := s.wr64 (R.upTiverLo (t - 1)) (conVersion c)
    if n < conBase c ∧ conBase c ≤ c.length ∧ signatureOk c = false then (s, 8)
    else if c.length < conBase c then (s, 0)
    else chunksTake t 3 s

/-- The container bytes of a fragment are taken. -/
def imageGrow (s : State) (t : Nat) (data : List Byte) : Ans :=
  let u := s.img t
  let n := u.bytes.length
  let s := s.setImg t { u with bytes := u.bytes ++ data }
  let s := s.wr (R.upTreceived (t - 1)) (BitVec.ofNat 32 ((n + data.length) / 65536))
  let r := imageChecks s t n
  if r.2 ≠ 0 then (imageRefuse r.1 t r.2, St.check, r.2)
  else
    let c := (r.1.img t).bytes
    let s := relayForward r.1 t
    if conBase c ≤ c.length ∧ (s.img t).chunks = conChunks c ∧ imgState s t = 1 then
      (((setImgState s t 2).count R.upImages).log 0x1703 (leBytes 1 t ++ leBytes 8 (conVersion c)), St.ok, 0)
    else (s, St.ok, 0)

/-- Bytes beyond the container's end; refused with RANGE (log entry 44). -/
def beyondEnd (c data : List Byte) : Bool :=
  let all := c ++ data
  decide (256 ≤ all.length) && decide (conSize all < all.length)

/-- A fragment of Table 22-6 from a source: 0 object, 1 Chimney, 2 relay. -/
def intakeFragment (s : State) (source : Nat) (l : List Byte) : Ans :=
  let session := natAt l 0 4
  let t := natAt l 4 1
  let len := natAt l 6 2
  let offset := natAt l 8 8
  let data := l.drop 16
  let u := s.img t
  let same := u.session == some (session, source)
  if s.lifeCycle = 4 then (s, St.state, 0)
  else if t = 0 ∨ 3 < t ∨ len = 0 ∨ 1440 < len ∨ data.length ≠ len then (s, St.range, 0)
  else if u.runs then
    if same = true ∧ imgState s t = 1 ∧ offset = u.bytes.length then
      if beyondEnd u.bytes data then (s, St.range, 0) else imageGrow s t data
    else if same = true ∧ 0 < offset ∧ offset + len = u.bytes.length ∧ u.bytes.drop offset = data then (s, St.ok, 0)
    else if offset = 0 then (s, St.busy, 0)
    else (s, St.sequence, u.bytes.length)
  else if offset ≠ 0 then (s, St.sequence, 0)
  else
    let s := s.setImg t { u with bytes := [], chunks := 0, session := some (session, source), runs := true }
    let s := (setImgState s t 1).log 0x1701 (leBytes 1 t ++ leBytes 1 source ++ leBytes 8 (conVersion data))
    imageGrow s t data

/-- The part of a container that outlives a reset: up to the first chunk not yet verified (R492; log entry 44). -/
def verifiedPart (u : ImgType) : List Byte :=
  if u.chunks = 0 then (if 256 ≤ u.bytes.length ∧ conBase u.bytes ≤ u.bytes.length then u.bytes.take (conBase u.bytes) else [])
  else u.bytes.take (chunkEnd u.bytes (u.chunks - 1))

/-- At a reset the intakes go back to the first chunk not yet verified (R492). -/
def intakeCut (s : State) : State :=
  ([1, 2, 3].filter fun t => imgState s t == 1).foldl (fun (u : State) t =>
    let l := verifiedPart (u.img t)
    (u.setImg t { u.img t with bytes := l }).wr (R.upTreceived (t - 1)) (BitVec.ofNat 32 (l.length / 65536))) s

/-- A request to write a byte object of another node goes out (R494). -/
def nodeWrite (s : State) (id sub v : Nat) : State := nodeAsk s id 2 0x3600 sub ObjTy.u8.code 0 (leBytes 1 v)

/-- UPDATE_ABORT: a write of type t to object 0x3600:03 (R492). -/
def updateAbort (s : State) (t : Nat) : Ans :=
  let u := s.img t
  if imgState s t ≠ 1 ∧ imgState s t ≠ 2 then (s, St.state, 0)
  else
    let s := s.setImg t { u with bytes := [], chunks := 0, session := none, runs := false }
    let s := (setImgState s t 0).wr (R.upTreceived (t - 1)) 0
    let s := s.wr64 (R.upTiverLo (t - 1)) 0
    let s := if s.flag R.upStatRelay ∧ s.upd.typ = t then
        relayHalt (s.upd.nodes.foldl (fun v n => if n.state = 2 ∨ n.state = 5 ∨ n.id = s.ownId then v else nodeWrite v n.id 0x03 t) s) 4 0
      else s
    let s := if s.upd.typ = t then s.setUpd { s.upd with resumes := false } else s
    (s.log 0x170A (leBytes 1 t), St.ok, 0)

/-! Activation (R495, R496) -/

/-- A neighbour's protocol version that the image cannot stand beside. -/
def protoFault (c : List Byte) (v : Nat) : Bool :=
  !(decide (conProto c ≤ v + 1) && decide (v ≤ conProto c + 1) && decide (natAt c 28 1 ≤ v) && decide (v ≤ natAt c 29 1))

/-- The version of a node by its frame received last; 3 where none was received (log entry 131). -/
def nodeVer (s : State) (id : Nat) : Nat :=
  let v := Tbl.get s.fab.vers 0 id
  if v = 0 then 3 else v

/-- The directly linked modules and the Hearth, with their versions (R495). -/
def linkedVersions (s : State) : List (Nat × Nat) :=
  let port := fun p =>
    let e := Tbl.get s.fab.portVers (0, 0) p
    if e.2 = 0 then
      let id := ((linkAt s.fab.links s.ownId p).map (·.1)).getD 0
      (id, nodeVer s id)
    else e
  ((List.range 6).filter fun p => s.portUp p).map port ++ (if s.hearth then [] else [(1, nodeVer s 1)])

/-- The slots of type t change places: the inactive container becomes active. A module is delivered without an application image,
so an application slot without a container holds none (log entry 4). -/
def slotSwap (s : State) (t : Nat) : State :=
  let u := s.img t
  let iver := s.rd64 (R.upTiverLo (t - 1))
  let aver := s.rd64 (R.upTaverLo (t - 1))
  let s := s.setImg t { u with bytes := u.active, active := u.bytes, erased := t == 3 && u.bytes.isEmpty }
  ((s.set (imgField t 0 1) (1 - imgActive s t)).wr64 (R.upTaverLo (t - 1)) iver).wr64 (R.upTiverLo (t - 1)) aver

/-- ACTIVATE: a write of type t to object 0x3600:0D (R495, R496). -/
def activate (s : State) (t : Nat) : Ans :=
  let c := (s.img t).bytes
  if imgState s t ≠ 2 then (s, St.state, 0)
  else
    match (linkedVersions s).find? fun e => decide (t ≠ 3) && protoFault c e.2 with
    | some e => (s.log 0x1705 (leBytes 2 e.1 ++ leBytes 1 e.2), St.state, 0)
    | none =>
      let s := slotSwap s t
      let u := s.img t
      let s := s.setImg t { u with runs := true, first := true, back := 0 }
      let s := (setImgState s t 3).count R.upActivations
      let s := s.log 0x1706 (leBytes 1 t ++ leBytes 1 (imgActive s t) ++ leBytes 8 (conVersion c))
      (s.resetDue (if t = 1 then 7 else 4), St.ok, 0)

/-! Relay (R493 to R495) -/

/-- Insert by falling depth, then falling node ID. -/
def byDepth (n : RelayNode) : List RelayNode → List RelayNode
  | [] => [n]
  | m :: l => if m.depth < n.depth ∨ (m.depth = n.depth ∧ m.id < n.id) then n :: m :: l else m :: byDepth n l

/-- The nodes in scope in activation order: Pavilions by falling depth and ID, the standby member, the active Hearth (R494). -/
def relayOrder (s : State) : List RelayNode :=
  let scope := s.objB 0x3600 0x05
  let ids := (List.range (scope.length / 2)).map fun k => natAt scope (2 * k) 2
  let present := s.fab.nodes.filterMap fun e => match e.2 with
    | some n => if n.state = 0 ∧ 15 < e.1 ∧ (ids.isEmpty ∨ ids.contains e.1) then
        some ({ id := e.1, depth := n.path.length } : RelayNode) else none
    | none => none
  let standby : List RelayNode := if s.get R.fbStatTwin = 1 then [{ id := 3 - s.ownId }] else []
  present.foldl (fun l n => byDepth n l) []
    ++ (standby ++ [({ id := s.ownId, state := 1 } : RelayNode)]).filter fun n => ids.isEmpty || ids.contains n.id

/-- The neighbours of a node over the links the Hearth knows. -/
def neighboursOf (s : State) (id : Nat) : List Nat :=
  s.fab.links.filterMap fun l => if l.a = id then some l.b else if l.b = id then some l.a else none

/-- The first node of the plan whose activation would be refused, and the version: each node already passed stands at the
image's version (R495). -/
def planFault (s : State) (c : List Byte) (ver : Nat → Nat) : List RelayNode → List Nat → Option (Nat × Nat)
  | [], _ => none
  | n :: rest, done =>
    let v := fun k => if done.contains k then conProto c else ver k
    match (neighboursOf s n.id ++ (if n.id = s.ownId then [] else [s.ownId])).find? fun k => protoFault c (v k) with
    | some k => some (n.id, v k)
    | none => planFault s c ver rest (n.id :: done)

/-- RELAY_REQUEST: a write of type t to object 0x3600:04; `seen` gives the version of the image type that other nodes run, as
read from them. -/
def relayRequest (s : State) (t : Nat) (seen : List (Nat × Nat)) : Ans :=
  let c := (s.img t).bytes
  let ver := fun k => if k = s.ownId then ownVer s else nodeVer s k
  let runsImage := fun k => seen.any fun e => e.1 == k && e.2 == conVersion c
  if s.activeHearth = false ∨ imgState s t ≠ 2 then (s, St.state, 0)
  else if s.flag R.upStatRelay then (s, St.busy, 0)
  else
    let order := relayOrder s
    match if t = 3 then none else planFault s c ver order [] with
    | some e => (s.log 0x1705 (leBytes 2 e.1 ++ leBytes 1 e.2), St.state, 0)
    | none =>
      let old := if s.upd.typ = t ∧ s.upd.resumes = true then s.upd.nodes else []
      let nodes := order.map fun n =>
        if runsImage n.id then { n with state := 5 }
        else match old.find? fun m => m.id == n.id with
          | some m => { m with depth := n.depth, state := if m.state = 3 then 1 else if m.state = 4 then 0 else m.state }
          | none => n
      let s := s.setUpd { s.upd with typ := t, nodes := nodes, down := Tbl.set s.upd.down [] t [], waits := none, cause := 0, resumes := false }
      let s := ((s.set R.upStatRelay 1).set R.upStatPhase 1).log 0x1704 (leBytes 1 t ++ leBytes 2 nodes.length)
      (relayForward s t, St.ok, 0)

/-- Nodes that joined since the relay began are included while it distributes (R493). -/
def relayJoin (s : State) : State :=
  if s.get R.upStatPhase = 1 then
    s.setUpd { s.upd with nodes := (relayOrder s).map fun n => (s.upd.nodes.find? fun m => m.id == n.id).getD n }
  else s

/-- What was observed of a node: state, bytes received, version of the image type. -/
def relaySeen (want : Nat) (s : State) (e : Nat × Nat × Nat × Nat) : State :=
  setRelayNode s e.1 fun n =>
    let v := { n with received := e.2.2.1, version := e.2.2.2 }
    if n.state = 5 ∨ n.state = 2 then v
    else if e.2.2.2 = want then { v with state := if n.state = 1 then 2 else 5 }
    else if n.state = 3 ∨ n.state = 4 then v
    else { v with state := e.2.1 }

/-- The next node in order that holds the image and has not activated it. -/
def relayNext (s : State) : Option RelayNode := s.upd.nodes.find? fun n => n.state != 2 && n.state != 5

/-- The node is told to activate the image; the active Hearth activates it itself, last (R494). -/
def relayActivate (s : State) (n : RelayNode) : State :=
  let t := s.upd.typ
  if n.id = s.ownId then
    let r := activate s t
    if r.2.1 ≠ 0 then relayHalt r.1 1 n.id
    else
      let s := setRelayNode r.1 n.id fun m => { m with state := 2 }
      (s.set R.upStatRelay 0).set R.upStatPhase 3
  else
    let s := nodeWrite s n.id 0x0D t
    s.setUpd { s.upd with waits := some (n.id, s.now + sec (s.objN 0x3600 0x07)) }

/-- One look at the relay: a refusal or a FAILED node halts it, a node seen at the version is done, and the next one is
activated while the permit reads 1 (R494). -/
def relayStep (s : State) : State :=
  let waiting := s.upd.waits.bind fun w => s.upd.nodes.find? fun n => n.id == w.1
  match s.upd.nodes.find? fun n => n.state == 4 || n.state == 3 with
  | some n => relayHalt s (if n.state = 4 then 3 else 1) n.id
  | none =>
    if s.upd.nodes.any fun n => n.state == 0 then s
    else
      let s := s.set R.upStatPhase 2
      match waiting with
      | some n => if n.state = 2 ∨ n.state = 5 then s.setUpd { s.upd with waits := none } else s
      | none =>
        match relayNext s with
        | none => (s.set R.upStatRelay 0).set R.upStatPhase 3
        | some n => if s.flag R.upStatPermit then relayActivate s n else s

/-- RELAY_ACTIVATION_STEP (R494): `seen` gives, per node, its state of Table 22-9, the bytes it has received and the version
of the image type it runs, as the Hearth has read or been answered. -/
def execRelayActivationStep (seen : List (Nat × Nat × Nat × Nat)) (s : State) : Res := whenServing s <|
  if s.activeHearth = false ∨ s.flag R.upStatRelay = false then .next s
  else .next (relayStep (seen.foldl (relaySeen (conVersion (s.img s.upd.typ).bytes)) (relayJoin s)))

/-- ACTIVATION_TIMEOUT (R494). -/
def execActivationTimeout (s : State) : Res :=
  match s.upd.waits with
  | none => .next s
  | some w => whenServing s <| .next (relayHalt (s.passTo w.2) 2 w.1)

/-! Confirmation and roll-back (R497 to R499) -/

/-- The module is inside the confirmation window of type t. -/
def inWindow (s : State) (t : Nat) : Bool :=
  match (s.img t).confEnd with
  | none => false
  | some e => decide (operatingTime s < e)

/-- Seconds of the window left, as UP_TCONFLEFT reads. -/
def confLeft (s : State) (t : Nat) : Nat := ((s.img t).confEnd.getD 0) - operatingTime s

/-- CONFIRM: a write of type t to object 0x3600:0A. -/
def confirm (s : State) (t : Nat) : Ans :=
  let u := s.img t
  if imgConf s t ≠ 1 ∨ inWindow s t = false then (s, St.state, 0)
  else
    let svn := conSvn u.active
    let s := s.setImg t { u with saved := [], confEnd := none, runs := false, back := 0, session := none }
    let s := (s.set (imgField t 4 2) 0).set ⟨R.secFloor, 8 * (t - 1), 8⟩ (max (imgFloor s t) svn)
    (s.log 0x1708 (leBytes 1 t ++ leBytes 2 svn), St.ok, 0)

/-- The window of type t ends without confirmation: the next reset rolls back. -/
def confirmExpire (s : State) (t : Nat) : State :=
  let u := s.img t
  if imgConf s t = 1 then (s.setImg t { u with back := 2 }).set (imgField t 4 2) 3 else s

/-- CONFIRMATION_EXPIRY (R498): operating time reaches the end of the window of type t. -/
def execConfirmationExpiry (t : Nat) (s : State) : Res :=
  match (s.img t).confEnd with
  | none => .next s
  | some e =>
    if imgConf s t ≠ 1 ∨ s.ev.opStop = true ∨ t = 0 ∨ 3 < t then .next s
    else .next (confirmExpire (s.passTo (s.ev.opSince + sec (e - s.ev.opTime))) t)

/-- ROLL_BACK: a write of type t to object 0x3600:0B within the window; SYS follows. -/
def rollBackRequest (s : State) (t : Nat) : Ans :=
  let u := s.img t
  if inWindow s t = false ∨ (imgConf s t ≠ 1 ∧ imgConf s t ≠ 2) then (s, St.state, 0)
  else ((s.setImg t { u with back := 3 }).resetDue 4, St.ok, 0)

/-- The previous slot of type t becomes active again, with the records of its time (R499). -/
def rollBack (s : State) (t : Nat) : State :=
  let u := s.img t
  let cause := u.back
  let chunks := conChunks u.active
  let old := if t = 1 then s.records else
    (s.records.filter fun e => decide (e.2.gen ≤ u.g0)).filter (fun e => u.saved.all fun x => x.1 != e.1)
  let s := { s with records := if t = 1 then old else u.saved.foldl (fun l e => Tbl.insert l e.1 e.2) old,
                    generation := if t = 1 then s.generation else (s.generation + 1) % 4294967296 }
  let s := slotSwap s t
  let v := s.img t
  let s := s.setImg t { v with runs := false, session := none, back := 0, confEnd := none, saved := [], first := false, chunks := chunks }
  let s := (setImgState (s.set (imgField t 4 2) 0) t 2).count R.upRollbacks
  s.log 0x1709 (leBytes 1 t ++ leBytes 1 cause)

/-! Objects of index 0x3600 -/

/-- Object 0x3600:01. -/
def slotStates (s : State) : List Byte :=
  (List.range 3).flatMap fun k =>
    leBytes 1 (imgActive s (k + 1)) ++ leBytes 1 (imgState s (k + 1)) ++ leBytes 1 (imgConf s (k + 1)) ++ leBytes 1 0
      ++ leBytes 4 (if imgState s (k + 1) = 0 then 0 else (s.img (k + 1)).bytes.length) ++ leBytes 8 (s.rd64 (R.upTiverLo k))

/-- Object 0x3600:08. -/
def relayStatus (s : State) : List Byte :=
  let finished := (s.upd.nodes.filter fun n => n.state == 2 || n.state == 5).length
  leBytes 1 s.upd.typ ++ leBytes 1 (s.get R.upStatPhase) ++ leBytes 2 s.upd.nodes.length ++ leBytes 2 finished
    ++ leBytes 1 s.upd.cause ++ leBytes 1 0

/-- Object 0x3600:09. -/
def relayTable (s : State) : List Byte :=
  s.upd.nodes.flatMap fun n =>
    leBytes 2 n.id ++ leBytes 1 n.state ++ leBytes 1 n.depth ++ leBytes 4 n.received ++ leBytes 8 n.version

end Sys2Proof.Machine
end

