-- ==== Sys2Proof/Machine/Fabric.lean ====
section
/-!
DEFINITION. Discovery, forwarding, ring healing, streams between modules, node hold, device time over the fabric and the
replacement of nodes (12_fabric_fleet.md R272 to R288, R295). What a port receives is an operand.
-/
namespace Sys2Proof.Machine

/-- PORT_LINK_CHANGE (R275). -/
def execPortLinkChange (p : Nat) (up : Bool) (sqi : Nat) (preempt : Bool) (s : State) : Res := gated s 9 <| .next (portLink s p up sqi preempt)

/-- The payload of HELLO: serial number, role, lowest and highest VER, hardware revision, settings generation, arrival port,
accepted epoch and its setter (Table 12-3). -/
def helloBytes (serial role verLo verHi rev gen port epoch setter : Nat) : List Byte :=
  leBytes 8 serial ++ leBytes 1 role ++ leBytes 1 verLo ++ leBytes 1 verHi ++ leBytes 1 rev ++ leBytes 4 gen ++ leBytes 1 port
    ++ leBytes 2 epoch ++ leBytes 8 setter

/-- HELLO_SEND (R275): every 10 ms on a port whose link is up, until the module is assigned; a Hearth goes on sending, so that
its twin and a second Hearth meet it (log entry 31). -/
def execHelloSend (p : Nat) (s : State) : Res := gated s 9 <|
  if p > 5 ∨ s.portUp p = false ∨ (s.hearth = false ∧ s.flag R.fbStatAssigned = true) then .next s
  else
    let s := match Tbl.get s.fab.helloAt none p with
      | some t => s.passTo (t + ms 10)
      | none => s
    let s := s.setFab { s.fab with helloAt := Tbl.set s.fab.helloAt none p (some s.now) }
    .next (flueSendOn s p 6 0x01 1 0 (helloBytes (serialOf s) (if s.hearth then 1 else 0) 2 4 0x43 s.generation p s.fab.epoch
      (if s.hearth then 0 else s.fab.setter)))

/-- What a HELLO tells: the neighbour that heard it and its port, the sender's port, and the payload (Table 12-3). -/
structure Hello where
  via : Nat
  viaPort : Nat
  ownPort : Nat
  serial : Nat
  role : Nat
  verLo : Nat
  verHi : Nat
  gen : Nat
  epoch : Nat
  setter : Nat
deriving DecidableEq, Repr

/-- The lowest free node ID of a Pavilion (R275). -/
def freeId (s : State) : Nat := ((List.range 65504).find? fun k => (s.node (k + 16)).isNone).getD 65504 + 16

/-- The node ID of a serial number. -/
def idOf (s : State) (serial : Nat) : Option Nat :=
  (s.fab.nodes.find? fun e => match e.2 with
    | some n => n.serial == serial
    | none => false).map (·.1)

/-- The node ID whose serial number has been absent for 1 s on a path (R287). -/
def absentOn (s : State) (path : List Nat) : Option Nat :=
  (s.fab.nodes.find? fun e => match e.2 with
    | some n => n.state == 1 && n.path == path && (match n.absentAt with
      | some t => decide (t + sec 1 ≤ s.now)
      | none => false)
    | none => false).map (·.1)

/-- A node joins at its path: ASSIGN, or DEPTH (R275, R279). -/
def nodeJoin (s : State) (id : Nat) (n : Node) : State :=
  if n.bound > s.objN 0x3000 0x08 then nodeDeep s id n
  else
    let old := match s.node id with
      | some o => o.state == 0 && o.serial == n.serial
      | none => false
    let s := s.setNode id { n with state := 0, absentAt := none }
    let s := if old then s else (s.fire 129).log 0x1002 (d16 id ++ d40 n.serial)
    sectUnsend (sendAssign s id n) fun k => s.secN k 0x01 == id && !old

/-- The entries of a node record as a list of writes: the format versions give way to 0 (R339). -/
def pushEntries : Nat → List Byte → List Byte
  | 0, _ => []
  | k + 1, l =>
    if l.length < 8 then []
    else
      let n := 8 + 4 * ((natAt l 4 2 + 3) / 4)
      l.take 6 ++ leBytes 2 0 ++ (l.take n).drop 8 ++ pushEntries k (l.drop n)

/-- The next request of a push: a block segment at the bytes sent, then the end of the block, then the commit (R287, R341). -/
def pushNext (s : State) (x : Push) : State :=
  let n := x.entries.length
  let set := fun (m : Nat) => s.setFab { s.fab with pushes := s.fab.pushes.map fun y => if y.id = x.id then { y with sent := m } else y }
  if x.sent < n then
    let l := (x.entries.drop x.sent).take 1440
    nodeAsk (set (x.sent + l.length)) x.id 4 0 0 ObjTy.blob.code x.sent l
  else if x.sent = n then
    nodeAsk (set (n + 1)) x.id 5 0 0 ObjTy.blob.code 0 (leBytes 4 n ++ leBytes 4 (crcOf crc32c x.entries))
  else nodeAsk (set (n + 2)) x.id 9 0 0 0 0 []

/-- A push has ended with its commit: the new serial number takes over the node ID (R287). -/
def pushDone (s : State) (x : Push) : State :=
  let s := s.setFab { s.fab with pushes := s.fab.pushes.filter fun y => y.id != x.id }
  match s.node x.id with
  | none => s
  | some n => ((s.setNode x.id { n with serial := x.serial }).fire 137).log 0x100C (d16 x.id ++ d40 n.serial ++ d40 x.serial)

/-- A request of a push was answered: the next one follows, or the push is given up where it was refused (log entry 125). -/
def pushAnswer (s : State) (node op index status : Nat) : State :=
  match s.fab.pushes.find? fun x => x.id == node with
  | none => s
  | some x =>
    if index ≠ 0 ∨ [4, 5, 9].contains op = false then s
    else if status ≠ St.ok then s.setFab { s.fab with pushes := s.fab.pushes.filter fun y => y.id != node }
    else if op = 9 then pushDone s x
    else pushNext s x

/-- A replacement is assigned the node ID, and the node's record is pushed to it (R287). -/
def replacementPush (s : State) (id serial : Nat) (path : List Nat) (up : Nat) : State :=
  match s.node id with
  | none => s
  | some n =>
    let m := { n with path := path, up := up, bound := pathBound path, state := 0, absentAt := none }
    let x : Push := { id := id, serial := serial, entries := pushEntries n.record.length n.record }
    let s := sendAssign (s.setNode id m) id m
    pushNext (s.setFab { s.fab with pushes := (s.fab.pushes.filter fun y => y.id != id) ++ [x] }) x

/-- A link is known: the first link of its ends, a returning ring link, or a new ring (R280, R281). -/
def linkKnown (s : State) (l : Link) : State :=
  let same := fun x : Link => x == l || x == ⟨l.b, l.pb, l.a, l.pa⟩
  if s.fab.links.any same then s
  else
    let joined := (reachable (usedLinks s) s.ownId).any fun r => r.id == l.b
    let s := s.setFab { s.fab with links := s.fab.links ++ [l] }
    match s.fab.broken with
    | some b => if same b then (ringFound (s.setFab { s.fab with broken := none }) l) else s
    | none =>
      if joined ∧ s.fab.blocked = none then
        match linkToBlock s.fab.links s.ownId with
        | some x => recompute (ringFound s x)
        | none => s
      else s

/-- A HELLO of a Pavilion reaches the active Hearth (R275 to R280, R287, R288, R294). -/
def helloPavilion (s : State) (port : Nat) (h : Hello) : State :=
  let via := if h.via = 0 then s.ownId else h.via
  let path := (match s.node via with
    | some n => n.path
    | none => []) ++ [h.viaPort]
  if h.verLo > ownVer s + 1 ∨ h.verHi + 1 < ownVer s then
    let id := (idOf s h.serial).getD (freeId s)
    let n : Node := (s.node id).getD { serial := h.serial, path := path, up := h.ownPort, bound := pathBound path }
    (s.setNode id { n with state := 3 }).log 0x100E (d8 port ++ d8 h.verHi)
  else
    let s := if s.fab.superseded = some h.epoch ∧ (h.setter = serialOf s ∨ h.setter = twinSerial s) then
        epochrstSend s { path := path, pidx := 1, ports := path.take 1 } 0 h.epoch
      else s
    match (s.fab.pushes.find? fun x => x.serial == h.serial).map (·.id) with
    | some id => match s.node id with
      | some n => sendAssign s id n
      | none => s
    | none =>
    match idOf s h.serial with
    | some id =>
      let s := linkKnown s ⟨via, h.viaPort, id, h.ownPort⟩
      match s.node id, (reachable (usedLinks s) s.ownId).find? (fun r => r.id == id) with
      | some n, some r => nodeJoin s id { n with path := r.path, up := r.up, bound := pathBound r.path }
      | _, _ => s
    | none =>
      if h.gen > 0 then
        (s.setFab { s.fab with withheld := some (h.serial, path, h.ownPort) }).log 0x100D (d40 h.serial ++ d32 h.gen)
      else match absentOn s path with
        | some id => linkKnown (replacementPush s id h.serial path h.ownPort) ⟨via, h.viaPort, id, h.ownPort⟩
        | none =>
          let id := freeId s
          let n : Node := { serial := h.serial, path := path, up := h.ownPort, bound := pathBound path }
          let s := linkKnown (s.setNode id { n with state := 1 }) ⟨via, h.viaPort, id, h.ownPort⟩
          nodeJoin s id n

/-- A HELLO of a Hearth that is not the configured twin blocks its port (R277). -/
def helloHearth (s : State) (port serial : Nat) : State :=
  if serial = twinSerial s ∧ serial ≠ 0 then s
  else
    let s := s.setFab { s.fab with foreign := port :: s.fab.foreign.filter fun p => p != port }
    ((s.set (R.fbPstatRole port) 2).fire 134).log 0x1005 (d8 port ++ d40 serial)

/-- HELLO_RECEIVE (R275): at a Hearth it is answered or refused; an assigned Pavilion relays it inbound with its own arrival
port. -/
def execHelloReceive (port via viaPort ownPort serial role verLo verHi rev gen epoch setter : Nat) (s : State) : Res := gated s 9 <|
  if port > 5 ∨ s.portUp port = false ∨ viaPort > 5 ∨ ownPort > 5 then .next s
  else
    let s := s.count (R.fbPrxfrm port)
    let h : Hello := ⟨via, viaPort, ownPort, serial, role, verLo, verHi, gen, epoch, setter⟩
    if s.hearth then
      if role = 1 then .next (helloHearth s port serial)
      else if s.activeHearth then .next (helloPavilion s port h) else .next s
    else if s.flag R.fbStatAssigned then
      .next (flueSend s 6 0x01 1 0 (helloBytes serial role verLo verHi rev gen port epoch setter))
    else .next s

/-- The fabric domain takes the recovered clock of the upstream port, its link up (R286, R398). -/
def recclkTake (s : State) : State :=
  let s := (s.set R.fbPtpportRecclk 1).set R.ckStatRecclk 1
  { s with clk := { s.clk with alt := s.clk.alt / 32 * 32 + s.clk.alt % 16 } }

/-- ASSIGN or TOPO at a Pavilion (R278, R291): port, node ID, upstream port, depth, path, Hearth serials, and the sender's
node ID, serial number and EPOCH. -/
def assignReceive (s : State) (port id up : Nat) (path : List Nat) (s1 s2 sender serial epoch : Nat) : State :=
  if s.fab.bound ≠ [] ∧ s.fab.bound.contains serial = false then
    (s.count R.fbRejAssign).log 0x1005 (d8 port ++ d40 serial)
  else
    let r := epochCheck s sender serial epoch 0x02
    if r.2 = false then r.1
    else
      let s := r.1
      let s := if s.fab.bound = [] then s.setFab { s.fab with bound := [s1, s2].filter fun n => n != 0 } else s
      let s := heard (s.setFab { s.fab with path := path, ownBound := pathBound path }) serial
      let s := (List.range 6).foldl (fun (u : State) p => if u.get (R.fbPstatRole p) = 1 then u.set (R.fbPstatRole p) 0 else u) s
      let s := ((s.set R.fbStatNodeid id).set R.fbStatAssigned 1).set R.fbStatBound 1
      let s := ((s.set R.fbPtpportDepth path.length).set R.fbPtpportUpport up).set (R.fbPstatRole up) 1
      let s := if s.flag (R.fbPstatLink up) then recclkTake s else s
      flueSend s 6 0x02 sender isResponse []

/-- ASSIGN_RECEIVE (R278). -/
def execAssignReceive (port id up : Nat) (path : List Nat) (s1 s2 sender serial epoch : Nat) (s : State) : Res := gated s 9 <|
  if s.hearth ∨ port > 5 ∨ up > 5 ∨ id < 16 ∨ id > 0xFFEF ∨ path.length > 15 then .next s
  else .next (assignReceive s port id up path s1 s2 sender serial epoch)

/-- BINDING_RELEASE (R278): 1 s has passed without an accepted class-6 frame from a bound Hearth. -/
def execBindingRelease (s : State) : Res :=
  if s.fab.bound = [] then .next s
  else
    let s := s.passTo (s.fab.heardAt + sec 1)
    let s := s.setFab { s.fab with bound := [] }
    .next (((s.set R.fbStatBound 0).set R.fbStatAssigned 0).set R.fbStatNodeid 0)

/-! Forwarding (R272) -/

/-- Where a frame of class 0 to 6 goes: the ports it leaves by, the frame as it leaves, and whether this module is its
destination. -/
structure FlueRoute where
  ports : List Nat := []
  frame : FlueFrame
  here : Bool := false
deriving DecidableEq, Repr

/-- A frame that the Hearth relays outbound: PATH, PLEN, PIDX and the check are its own (R272; log entry 125). -/
def relayed (f : FlueFrame) (flood : Bool) (path : List Nat) : FlueFrame :=
  let g := { f with inbound := false, flood := flood, path := path, pidx := if flood then 0 else 1 }
  { g with check := flueCheck g }

/-- The route of a frame that arrived on a port (R272): flooded, outbound along PATH, or inbound to the Hearth, which relays
what is for another node. -/
def flueRoute (s : State) (port : Nat) (f : FlueFrame) : FlueRoute :=
  let others := upTo 6 fun p => p != port
  if f.flood then { ports := others, frame := f, here := true }
  else if f.inbound = false then
    if f.path.length ≤ f.pidx then { frame := f, here := true }
    else { ports := (f.path[f.pidx]?).toList, frame := { f with pidx := f.pidx + 1 } }
  else if s.hearth = false then
    if f.dst = s.ownId ∧ s.flag R.fbStatAssigned = true then { frame := f, here := true }
    else { ports := [s.get R.fbPtpportUpport], frame := f }
  else if f.dst = s.ownId ∨ f.dst = 0xFFFF then { frame := f, here := true }
  else match s.node f.dst with
    | some n => { ports := n.path.take 1, frame := relayed f false n.path }
    | none => if f.dst = 1 ∨ f.dst = 2 then { ports := others, frame := relayed f true [] } else { frame := f }

/-- The kinds of Table 12-3. -/
def flueKinds : List Nat :=
  [0x01, 0x02, 0x03, 0x05, 0x07, 0x10, 0x11, 0x12, 0x13, 0x14, 0x15, 0x16, 0x17, 0x20, 0x30, 0x31, 0x32]

/-- The end-to-end check of a frame holds. -/
def flueOk (f : FlueFrame) (fcsOk : Bool) : Bool := fcsOk && f.check == flueCheck f

/-- A failed check is counted at its port. -/
def flueFault (s : State) (port : Nat) (fcsOk : Bool) : State :=
  if fcsOk then s.count (R.fbPe2eerr port) else s.count (R.fbPfcserr port)

/-- The response to a frame with ACKREQ ends its wait; one that no frame waits for is stale (R295). -/
def flueResponse (s : State) (f : FlueFrame) : State :=
  match s.fab.waits.find? fun w => w.frame.kind == f.kind && w.frame.dst == f.src with
  | some w => s.setFab { s.fab with waits := s.fab.waits.filter fun x => x.frame.seq != w.frame.seq }
  | none => s.count R.fbStaleRsp

/-- Entry k of a SECTION frame goes to its GH unit (R247, Table 12-3). -/
def sectionEntry (f : FlueFrame) (s : State) (k : Nat) : State :=
  let b := f.payload.drop (16 * k)
  let w := natAt b 12 2
  ghSubmit s { ts := natAt b 0 8, issue := natAt b 8 4, on := decide (w % 4 = 1), kind := w / 4 % 2, ch := w / 8 % 64,
               section_ := w / 512, epoch := f.epoch } (w % 4)

/-- A SECTION frame of a bound Hearth meets the epoch rule; its entries are taken in order (R291). -/
def sectionTake (s : State) (f : FlueFrame) : State :=
  if s.hearth ∨ s.fab.bound.contains (frameSerial f) = false then s
  else
    let r := epochCheck s f.src (frameSerial f) f.epoch 0x12
    if r.2 = false then r.1
    else (List.range (min 16 (f.payload.length / 16))).foldl (sectionEntry f) (heard r.1 (frameSerial f))

/-- A part of a node record arrives at the Hearth; the last one completes it (R287; log entry 125). -/
def nodeRecordTake (s : State) (f : FlueFrame) : State :=
  match s.node f.src with
  | none => s
  | some n =>
    let l := (n.arriving.take (natAt f.payload 8 4)) ++ f.payload.drop 12
    s.setNode f.src (if l.length = natAt f.payload 4 4 then
        { n with record := l, recordGen := natAt f.payload 0 4, recordCrc := crcOf crc32c l, arriving := [] }
      else { n with arriving := l })

/-- A checked frame at its destination: a response ends its wait, and a section command, a correction and a node record are
taken; the other kinds have commands of their own. -/
def flueTake (s : State) (port : Nat) (f : FlueFrame) : State :=
  let response := f.flags / 2 % 2 == 1
  match f.kind with
  | 0x12 => sectionTake s f
  | 0x20 => s
  | 0x30 => rtcmFrame s 2 f.payload
  | 0x31 =>
    if response = false then s
    else if s.fab.waits.any fun w => w.hop == some (natAt f.payload 0 4, port) then
      relayAnswer s (natAt f.payload 0 4) port (natAt f.payload 4 1) (natAt f.payload 8 8)
    else s.count R.fbStaleRsp
  | 0x32 => if s.hearth then nodeRecordTake s f else s
  | _ => if response then flueResponse s f else s

/-- A frame of class 0 to 6 reaches its destination: one whose check fails or whose KIND is unknown is discarded and counted
(R272). -/
def flueDeliver (s : State) (port : Nat) (f : FlueFrame) (fcsOk : Bool) : State :=
  if flueOk f fcsOk = false then flueFault s port fcsOk
  else if flueKinds.contains f.kind = false then s.count (R.fbPdrops port)
  else flueTake s port f

/-- A class-6 frame waited longer than the bound of port p: source 135 and event 0x1012 at most once per second (R273). -/
def flueLate (s : State) (p : Nat) : State :=
  let s := s.count (R.fbPc6late p)
  if lastLong s (Tbl.get s.fab.c6At none p) (sec 1) then
    ((s.setFab { s.fab with c6At := Tbl.set s.fab.c6At none p (some s.now) }).fire 135).log 0x1012 (d8 p)
  else s

/-- A flue frame of class 0 to 6 on a port (R272, R273). A flooded one is taken once per SRC and SEQ within 10 ms; a frame that
the Hearth relays is checked first; one for a node that the Hearth does not know is dropped. -/
def flueForward (s : State) (port : Nat) (f : FlueFrame) (fcsOk : Bool) (waited : Nat) : State :=
  let old := s.fab.seen.filter fun e => decide (s.now < e.2.2 + ms 10)
  if f.flood ∧ (old.any fun e => e.1 == f.src && e.2.1 == f.seq) = true then s.setFab { s.fab with seen := old }
  else
    let s := if f.flood then s.setFab { s.fab with seen := (f.src, f.seq, s.now) :: old } else s
    let r := flueRoute s port f
    if r.frame.check ≠ f.check ∧ flueOk f fcsOk = false then flueFault s port fcsOk
    else if r.here = false ∧ r.ports = [] then s.count (R.fbPdrops port)
    else
      let out := r.ports.filter fun p => s.passes p f.kind
      let s := flueLeave r.frame out s
      let s := if f.cls = 6 then (out.filter fun p => decide (hopBound p < waited)).foldl flueLate s else s
      if r.here then flueDeliver s port f fcsOk else s

/-- The version of a sender whose frame passes its check, and of a directly linked module by a frame that travels one hop
(R495). -/
def noteVersion (s : State) (port : Nat) (f : FlueFrame) (fcsOk : Bool) : State :=
  if flueOk f fcsOk = false then s
  else
    let s := s.setFab { s.fab with vers := Tbl.set s.fab.vers 0 f.src f.ver }
    if f.kind = 0x01 ∨ f.kind = 0x31 then s.setFab { s.fab with portVers := Tbl.set s.fab.portVers (0, 0) port (f.src, f.ver) } else s

/-- FLUE_FRAME_FORWARD (R270, R272, R273, R299): a frame arrives on a port that passes it; `waited` is the wait in µs of a
class-6 frame at its egress ports. -/
def execFlueFrameForward (port : Nat) (frame : PortFrame) (fcsOk : Bool) (waited : Nat) (s : State) : Res := gated s 9 <|
  if port > 5 then .next s
  else match frame with
    | .other g => .next (otherForward s port g fcsOk)
    | .flue f =>
      if s.passes port f.kind = false ∨ ¬ isFlue s f ∨ 6 < f.cls then .next s
      else .next (flueForward (noteVersion (s.count (R.fbPrxfrm port)) port f fcsOk) port f fcsOk waited)

/-! Ring (R280, R281) -/

/-- RINGCHK_FLOOD (R280, R281): every 500 µs while a ring is blocked; `returned` says whether the last frame came round. -/
def execRingchkFlood (returned : Bool) (s : State) : Res := gated s 9 <|
  match s.fab.ringAt with
  | none => .next s
  | some t =>
    if s.activeHearth = false ∨ s.fab.blocked = none then .next s
    else
      let s := s.passTo (t + us 500)
      let miss := if returned then 0 else s.fab.ringMiss + 1
      if miss ≥ 3 then .next (ringHeal s none 0)
      else
        let s := s.setFab { s.fab with ringAt := some s.now, ringMiss := miss, ringSeq := (s.fab.ringSeq + 1) % 4294967296 }
        .next (flueSend s 6 0x05 0xFFFF 0 (leBytes 4 s.fab.ringSeq))

/-- RING_HEAL (R281): a report of the loss of the link between ports of two nodes; the heal takes `micros`. -/
def execRingHeal (a pa b pb micros : Nat) (s : State) : Res := gated s 9 <|
  if s.activeHearth = false then .next s
  else
    match s.fab.links.find? fun l => l == ⟨a, pa, b, pb⟩ || l == ⟨b, pb, a, pa⟩ with
    | none => .next s
    | some l =>
      if s.fab.blocked = none ∨ s.fab.blocked = some l then .next (linkLost s l) else .next (ringHeal s (some l) micros)

/-! Streams (R282, R283) -/

/-- A binary16 value as binary32. -/
def fromHalf (v : Nat) : F32 :=
  let neg := v / 32768 % 2 == 1
  let e := v / 1024 % 32
  let f := v % 1024
  if e = 31 then (if f = 0 then F32.inf neg else F32.nan)
  else if e = 0 then F32.pack neg f (-24) false
  else F32.pack neg (f + 1024) ((e : Int) - 25) false

/-- A stream entry is delivered as stream 0x0800 + r with its original timestamp (R282): r, format, timestamp, value. -/
def entryDeliver (s : State) (e : Nat × Nat × Time × List Byte) : State :=
  if e.1 > 2047 then s
  else
    let v := e.2.2.2
    match e.2.1 with
    | 0 => deliver s (0x800 + e.1) e.2.2.1 (F32.ofBytes v) false []
    | 1 => deliver s (0x800 + e.1) e.2.2.1 (fromHalf (natAt v 0 2)) false []
    | 2 => deliver s (0x800 + e.1) e.2.2.1 (F32.ofBytes v) false v
    | _ => s

/-- STREAM_RECEIVE (R282): a class-6 STREAM from a Hearth meets the epoch rule of a Pavilion. -/
def execStreamReceive (cls sender serial epoch : Nat) (fromHearth : Bool) (entries : List (Nat × Nat × Time × List Byte))
    (s : State) : Res := gated s 9 <|
  if s.hearth = false ∧ fromHearth = true ∧ cls = 6 then
    let r := epochCheck s sender serial epoch 0x11
    if r.2 then .next (entries.foldl entryDeliver (heard r.1 serial)) else .next r.1
  else .next (entries.foldl entryDeliver s)

/-- SETPT_FLOOD (R283): every device-time multiple of 1 ms at the active Hearth. -/
def execSetptFlood (s : State) : Res := gated s 9 <|
  if s.activeHearth = false then .next s
  else
    let t := gridNext (ms 1) s.fab.setptAt s.time.dev
    let s := s.devTo t
    .next (flueSend (s.setFab { s.fab with setptAt := some t }) 6 0x10 0xFFFF 0 [])

/-- SETPT_RECEIVE (R283, R291): an accepted frame of a Hearth (node 1 or 2) restarts the node hold timer of a Pavilion and
delivers its entries; the entries that another node publishes are delivered (log entry 125). -/
def execSetptReceive (sender serial epoch : Nat) (entries : List (Nat × Nat × Time × List Byte)) (s : State) : Res := gated s 9 <|
  if s.hearth ∨ 2 < sender then .next (entries.foldl entryDeliver s)
  else if s.fab.bound.contains serial = false then .next s
  else
    let r := epochCheck s sender serial epoch 0x10
    if r.2 = false then .next r.1
    else
      let s := heard r.1 serial
      let s := (s.setFab { s.fab with holdEnd := some (s.now + ms (s.objN 0x3000 0x0D)) }).set R.fbStatNhold 1
      .next (entries.foldl entryDeliver s)

/-- NODE_HOLD_EXPIRY (R284). -/
def execNodeHoldExpiry (s : State) : Res :=
  match s.fab.holdEnd with
  | none => .next s
  | some t =>
    let s := s.passTo t
    let s := (s.setFab { s.fab with holdEnd := none }).set R.fbStatNhold 0
    let s := if s.objN 0x3000 0x0E = 1 then disarmAll s else s
    .next (((s.set R.fbStatNfail 1).fire 129).log 0x100B (d8 (s.objN 0x3000 0x0E)))

/-! Device time over the fabric (R285, R205) -/

/-- SYNC changes: GH_STAT.SYNC with it, source 131 and event 0x1007. -/
def syncChange (s : State) (on : Bool) (offset : Int) : State :=
  if s.flag R.fbStatSync = on then s
  else
    let s := (s.put R.fbStatSync on).put R.ghStatSync on
    let s := if on then { s with gh := { s.gh with unsyncLogged := false } } else s
    (s.fire 131).log 0x1007 (d8 (if on then 1 else 0) ++ d32 (wrapInt 32 offset))

/-- SYNC is lost: the Pavilion enters HOLDOVER (R205). -/
def syncLost (s : State) (offset : Int) : State :=
  if s.flag R.fbStatSync then setTimeState (syncChange s false offset) 3 else s

/-- GPTP_SYNC (R285): a Sync message with its offset in ns and the Hearth's quality state and uncertainty. -/
def execGptpSync (offset : Int) (quality unc : Nat) (s : State) : Res := gated s 9 <|
  if s.activeHearth ∨ quality > 4 then .next s
  else
    let n := if offset.natAbs ≤ 1000 then s.fab.syncs + 1 else 0
    let s := (s.setFab { s.fab with syncs := n, syncAt := some s.now }).wr R.fbPtp (BitVec.ofInt 32 offset)
    if offset.natAbs > 10000 then .next (syncLost s offset)
    else
      let was := s.flag R.fbStatSync
      let s := if n ≥ 8 then syncChange s true offset else s
      if s.flag R.fbStatSync then
        let s := setTimeState (if was then s else correct s offset) quality
        .next { s with time := { s.time with unc0 := unc + offset.natAbs, uncAt := s.now } }
      else .next s

/-- SYNC_LOSS (R285): four Sync intervals of 31.25 ms pass without a Sync message. -/
def execSyncLoss (s : State) : Res :=
  match s.fab.syncAt with
  | none => .next s
  | some t =>
    if s.flag R.fbStatSync = false then .next s
    else
      let s := s.passTo (t + us 125000)
      .next (syncLost (s.setFab { s.fab with syncs := 0, syncAt := none }) (int32 (s.rd R.fbPtp)))

/-! Replacement (R288) and retransmission (R295) -/

/-- A write of object 0x3000:11: the record of a node ID goes to the unknown module withheld last (R288). -/
def acceptReplacement (s : State) (id : Nat) : State × Nat :=
  if s.activeHearth = false then (s, St.state)
  else match s.node id, s.fab.withheld with
    | none, _ => (s, St.range)
    | some _, none => (s, St.state)
    | some _, some w => (replacementPush (s.setFab { s.fab with withheld := none }) id w.1 w.2.1 w.2.2, St.ok)

/-- ACK_RETRANSMIT (R295): the acknowledgement wait of a frame passes; it is sent again with its SEQ, or given up: a dictionary
request then waits for its transaction timeout, any other ends and is counted. -/
def execAckRetransmit (seq : Nat) (s : State) : Res := gated s 9 <|
  match s.fab.waits.find? fun w => w.frame.seq == seq with
  | none => .next s
  | some w =>
    let s := s.passTo (w.at_ + us (s.objN 0x3000 0x0A))
    let rest := s.fab.waits.filter fun x => x.frame.seq != seq
    if w.tries < s.objN 0x3000 0x0B then
      let s := s.setFab { s.fab with waits := rest ++ [{ w with tries := w.tries + 1, at_ := s.now }] }
      .next (flueLeave w.frame w.ports (s.count R.fbRetrans))
    else if w.frame.kind = 0x20 then .next (s.setFab { s.fab with waits := rest })
    else
      let s := (s.setFab { s.fab with waits := rest }).count R.fbTimeouts
      .next (match w.hop with
        | some e => relayTimeout s e.1 e.2
        | none => s)

end Sys2Proof.Machine
end

