-- ==== Sys2Proof/Machine/Parterre.lean ====
section
/-!
DEFINITION. Tasks, passes, export and shared coverage of the Parterre map store (10_parterre_gatehouse.md R240 to R245).
-/
namespace Sys2Proof.Machine

/-- The Chimney yield summary of the open task (Table 12-4): area, mass, mean moisture and unassigned mass. -/
def yieldSummary (s : State) : List Byte :=
  match openTask s with
  | none => []
  | some t =>
    let cells := t.cells.map (·.2)
    let area := F32.sum (cells.map (·.area))
    let mass := F32.sum (cells.map (·.mass))
    let w := F32.sum (cells.map (·.moistW))
    let moist := if F32.isZero w then 0 else F32.div (F32.sum (cells.map (·.moistSum))) w
    d32 s.par.task ++ d16 t.pass ++ d16 0 ++ d64 s.time.dev ++ F32.toBytes (F32.div area (F32.ofNat 10000))
      ++ F32.toBytes mass ++ F32.toBytes moist ++ F32.toBytes t.unassigned

/-- The open task is closed: the yield summary goes out and event 0x0E0B is logged (R240). -/
def taskClose (s : State) : State :=
  if s.par.task = 0 then s
  else
    let n := s.par.task
    let s := chimneySend s 2 (yieldSummary s)
    { s with par := { s.par with task := 0, paused := false } }.log 0x0E0B (d32 n ++ d8 0)

/-- A task is opened or reopened; another open task is closed first (R240). -/
def taskOpen (s : State) (n : Nat) : State :=
  if s.par.task = n then s
  else
    let s := taskClose s
    let s := match Tbl.get s.par.tasks none n with
      | some _ => s
      | none => setTask s n (some { size := s.objN 0x2800 0x02, origin := mapOrigin s })
    { s with par := { s.par with task := n, paused := false } }.log 0x0E0B (d32 n ++ d8 1)

/-- A write of the task object, 0x2800:09 (R240): refused in the Pavilion role. -/
def taskWrite (s : State) (n : Nat) : State × Nat :=
  if s.hearth = false then (s, St.state)
  else if n ≥ 4294967296 then (s, St.range)
  else if n = 0 then (taskClose s, St.ok)
  else (taskOpen s n, St.ok)

/-- A write of Recording, object 0x2800:0A: a 0-to-1 write starts a new pass of the open task (R240). -/
def recordingWrite (s : State) (v : Nat) : State × Nat :=
  if s.hearth = false then (s, St.state)
  else if v > 1 then (s, St.range)
  else
    let up := decide (v = 1) && !s.par.recording
    let s := { s with par := { s.par with recording := decide (v = 1) } }
    (if up then onTask s fun t => { t with pass := min (t.pass + 1) 65535 } else s, St.ok)

/-- A write of the delete object, 0x2800:0E (R243): an open or unknown task is refused. -/
def taskDelete (s : State) (n : Nat) : State × Nat :=
  if s.hearth = false ∨ n = s.par.task ∧ n ≠ 0 then (s, St.state)
  else if n = 0 ∨ n ≥ 4294967296 then (s, St.range)
  else
    match Tbl.get s.par.tasks none n with
    | none => (s, St.state)
    | some _ =>
      let s := setTask s n none
      ({ s with par := { s.par with reserve := s.par.reserve && decide (freeSpace s < 536870912) } }, St.ok)

/-- A write of the export object, 0x2800:0C (R244): an open or unknown task is refused. -/
def taskExport (s : State) (n : Nat) : State × Nat :=
  if s.hearth = false ∨ n = s.par.task ∧ n ≠ 0 then (s, St.state)
  else if n = 0 ∨ n ≥ 4294967296 then (s, St.range)
  else
    match Tbl.get s.par.tasks none n with
    | none => (s, St.state)
    | some _ =>
      if s.par.exportTask.isSome then (s, St.busy)
      else ({ s with par := { s.par with exportTask := some n, exportState := 1 } }, St.ok)

/-- What an export writes to the OEM data partition, in the directory of the task's number in 10 digits (R244): per recorded
cell its place, yield and moisture in steps (65535 no data); the raw point log, oldest first; without one, an entry per
covered cell, its time of cover and its place. -/
def exportFiles (s : State) (n : Nat) (t : Task) : Out :=
  let cells := t.cells.map fun e => (ofPairKey e.1, e.2)
  .exported n (cells.map fun e => (e.1.1, e.1.2, (cellYield e.2 (s.objN 0x2800 0x03)).1, cellMoist s e.2)) t.raw.reverse
    (if t.raw.isEmpty then
      (cells.filter fun e => e.2.cover).map fun e => (e.2.first.getD 0, e.1.1, e.1.2)
    else [])

/-- EXPORT_END (R244): the files are written, or not (log entry 28). -/
def execExportEnd (done : Bool) (s : State) : Res := whenApp s <|
  match s.par.exportTask with
  | none => .next s
  | some n =>
    let r := if done then 2 else 3
    let s := match Tbl.get s.par.tasks none n with
      | some t => if done then s.emit (exportFiles s n t) else s
      | none => s
    .next (({ s with par := { s.par with exportTask := none, exportState := r } }).log 0x0E03 (d32 n ++ d8 r))

/-! Shared coverage (R245) -/

/-- Number of a cell's source in the list of a tile's serial numbers. -/
def sourceIndex (l : List Nat) (serial : Nat) : Nat := (l.findIdx? fun x => x == serial).getD 0

/-- The 16 bytes of a cell in a coverage tile payload. -/
def sharedCell (base : Time) (src : List Nat) (c : Cell) : List Byte :=
  let time := match c.first with
    | some f => (f - base) / 100000000
    | none => 0xFFFFFFFF
  d64 c.sub ++ d32 time ++ d16 c.pass ++ d8 (sourceIndex src c.src) ++ d8 (if c.cover then 1 else 0)

/-- The coverage tile payload (Table 12-5); sources beyond 16 go under the first. -/
def tilePayload (s : State) (t : Task) (i j : Int) : List Byte :=
  let cells := (List.range 4096).map (tileCell t i j)
  let base := (t.tile (pairKey i j)).bases.headD 0
  let src := (((cells.filter fun c : Cell => c.first.isSome).map fun c : Cell => c.src).eraseDups).take 16
  let src := if src.isEmpty then [ownSerial s] else src
  (t.origin.flatMap fun v => d64 v) ++ d16 t.size ++ d16 0
    ++ d32 (wrapInt 32 i) ++ d32 (wrapInt 32 j) ++ d64 base ++ d8 src.length ++ List.replicate 7 0
    ++ (src.flatMap fun n => d64 n) ++ (cells.flatMap (sharedCell base src))

/-- TILE_SHARE (R245): a tile of the open task whose sub-bits changed is sent, at most once every 10 s. -/
def execTileShare (i j : Int) (s : State) : Res := whenApp s <|
  match openTask s with
  | none => .next s
  | some t =>
    let k := pairKey i j
    let x := t.tile k
    let early := match x.sentAt with
      | some a => decide (s.now < a + sec 10)
      | none => false
    if s.objN 0x2800 0x10 ≠ 1 ∨ s.activeHearth = false ∨ x.dirty = false ∨ early = true then .next s
    else
      let s := chimneySend s 1 (tilePayload s t i j)
      .next (onTask s fun u => u.setTile k { x with dirty := false, sentAt := some s.now })

/-- One cell of a remote tile merged into the coverage layer (R245): `r` is 16 bytes of Table 12-5. -/
def mergeCell (s : State) (base : Time) (src : List Nat) (i j : Int) (u : Task) (e : Nat × List Byte) : Task :=
  let ci := 64 * i + ((e.1 % 64 : Nat) : Int)
  let cj := 64 * j + ((e.1 / 64 : Nat) : Int)
  let c := u.cell ci cj
  let r := e.2
  let sub := (BitVec.ofNat 64 c.sub ||| BitVec.ofNat 64 (natAt r 0 8)).toNat
  let serial := src.getD (natAt r 14 1) 0
  let t := natAt r 8 4
  let at_ := base + t * 100000000
  let earlier := t != 0xFFFFFFFF && (match c.first with
    | none => true
    | some f => decide (at_ < f ∨ (at_ = f ∧ serial < c.src)))
  let k := tileOf ci cj
  let u := if earlier then u.setTile k { u.tile k with bases := tileBases (u.tile k).bases at_ } else u
  let d := if earlier then { c with first := some at_, pass := natAt r 12 2, src := serial, remote := decide (serial ≠ ownSerial s) }
    else c
  let u := if sub = c.sub then u else u.setTile k { u.tile k with dirty := true }
  u.setCell ci cj { d with sub := sub }

/-- A signed 32-bit field. -/
def intAt (l : List Byte) (o : Nat) : Int := (BitVec.ofNat 32 (natAt l o 4)).toInt

/-- A coverage tile from another machine (R245): merged, or refused and counted; a malformed tile or one that meets no open
task changes nothing. -/
def tileMerge (s : State) (l : List Byte) : State :=
  let n := natAt l 44 1
  let origin := match openTask s with
    | some t => t.origin
    | none => []
  if (openTask s).isNone ∨ n = 0 ∨ n > 16 ∨ l.length ≠ 52 + 8 * n + 65536 then s
  else
    let src := (List.range n).map fun k => natAt l (52 + 8 * k) 8
    let same := (List.range 3).all fun k => natAt l (8 * k) 8 == origin.getD k 0
    if same = false ∨ natAt l 24 2 ≠ cellSize s then
      { s with par := { s.par with refused := s.par.refused + 1 } }.log 0x0E04 (d40 (src.headD 0))
    else
      let cells := (List.range 4096).map fun p => (p, (l.drop (52 + 8 * n + 16 * p)).take 16)
      onTask s fun t => cells.foldl (mergeCell s (natAt l 36 8) src (intAt l 28) (intAt l 32)) t

/-- REMOTE_TILE_MERGE (R245). -/
def execRemoteTileMerge (bytes : List Byte) (s : State) : Res := whenApp s <| .next (tileMerge s bytes)

/-- Objects 0x2800:02 and the origin are fixed while a task is open (R237). -/
def gridFixed (s : State) : Bool := s.par.task != 0

end Sys2Proof.Machine
end

