-- ==== Sys2Proof/Machine/Chimney.lean ====
section
/-!
DEFINITION. Chimney: the connection to the gateway and the messages it carries (12_fabric_fleet.md R296 to R298). What TLS
does is an operand: a connection attempt ends well or with an alert or cause.
-/
namespace Sys2Proof.Machine

def State.setChim (s : State) (c : Chimney) : State := { s with chim := c }

/-- Chimney runs on the active Hearth with object 0x30C0:01 at 1. -/
def chimneyRuns (s : State) : Bool := s.activeHearth && s.objN 0x30C0 0x01 == 1

/-- A connection ended or never came about: the wait doubles up to 300 s (R296). -/
def chimneyFail (s : State) (cause : Nat) : State :=
  let w := s.chim.wait
  let s := s.setChim { s.chim with conn := 3, retryAt := s.now + sec w, wait := min (2 * w) 300 }
  (s.fire 136).log 0x100F (d8 0 ++ d8 cause)

/-- CHIMNEY_CONNECT (R296, R297): the attempt ends; over a new connection every stored message is sent again in order. -/
def execChimneyConnect (ok : Bool) (cause : Nat) (s : State) : Res := whenApp s <|
  if chimneyRuns s = false ∨ s.chim.conn = 2 then .next s
  else
    let s := if s.chim.conn = 3 then s.passTo s.chim.retryAt else s
    if ok then
      let s := ((s.setChim { s.chim with conn := 2, wait := 1 }).fire 136).log 0x100F (d8 1 ++ d8 cause)
      .next (s.chim.store.foldl chimneyEmit s)
    else .next (chimneyFail s cause)

/-- CHIMNEY_RECONNECT (R296): the wait after a failure passes. -/
def execChimneyReconnect (s : State) : Res := whenApp s <|
  if chimneyRuns s = false ∨ s.chim.conn ≠ 3 then .next s
  else let s := s.passTo s.chim.retryAt
    .next (s.setChim { s.chim with conn := 1 })

/-- CHIMNEY_DISCONNECT (R296). -/
def execChimneyDisconnect (cause : Nat) (s : State) : Res :=
  if s.chim.conn = 1 ∨ s.chim.conn = 2 then .next (chimneyFail s cause) else .next s

/-- CHIMNEY_SEND (R297): a message of an outbound kind. -/
def execChimneySend (kind : Nat) (payload : List Byte) (s : State) : Res :=
  if kind < 1 ∨ kind > 4 then .next s else .next (chimneySend s kind payload)

/-- CHIMNEY_ACK (R297): the gateway acknowledges a message. -/
def execChimneyAck (msgId : Nat) (s : State) : Res :=
  if s.chim.conn = 2 ∧ (s.chim.store.any fun m => m.id == msgId) = true then
    .next (chimneyCount (s.setChim { s.chim with store := s.chim.store.filter fun m => m.id != msgId }) 1)
  else .next s

/-- The machine state payload (Table 12-4); values that no service has yet are free (log entry 32). -/
def machineState (s : State) : List Byte × State :=
  let d := s.draws 6
  let w := fun i => (d.1.getD i 0).toNat
  let pos := match s.gn.lastPos with
    | some p => d64 p.1 ++ d64 p.2.1
    | none => d32 (w 0) ++ d32 (w 1) ++ d32 (w 2) ++ d32 (w 3)
  let heading := match Tbl.get s.fu.pubs none 0 with
    | some p => (p.x.getD 8 0).toNat
    | none => w 4
  let speed := match Tbl.get s.fu.pubs none 1 with
    | some p => (p.x.getD 0 0).toNat
    | none => w 5
  let nodes := (s.fab.nodes.filter fun e => match e.2 with
    | some n => n.state == 0
    | none => false).length
  (d64 s.time.dev ++ d8 (timeState s) ++ d8 s.steer.state ++ d8 (if s.gov.active then 1 else 0) ++ d8 0 ++ pos
    ++ d32 heading ++ d32 speed ++ d16 nodes, d.2)

/-- CHIMNEY_PERIODIC (R297): kind 4 the machine state, kind 2 the yield summary of the open task. -/
def execChimneyPeriodic (kind : Nat) (s : State) : Res := whenApp s <|
  if chimneyRuns s = false then .next s
  else if kind = 4 then
    let s := s.passTo (s.chim.stateAt + sec (s.objN 0x30C0 0x08))
    let s := s.setChim { s.chim with stateAt := s.now }
    let m := machineState s
    .next (chimneySend m.2 4 m.1)
  else if kind = 2 ∧ s.par.task ≠ 0 then
    let s := s.passTo (s.chim.yieldAt + sec (s.objN 0x30C0 0x09))
    let s := s.setChim { s.chim with yieldAt := s.now }
    .next (chimneySend s 2 (yieldSummary s))
  else .next s

end Sys2Proof.Machine
end

