-- ==== Sys2Proof/Machine/IrqCtl.lean ====
section
/-!
DEFINITION. The interrupt controller: candidates, targets, assignment, claim and complete, and non-maskable delivery
(15_processors_interrupts.md R365 to R372).
-/
namespace Sys2Proof.Machine

/-- Sources that are pending, not active and enabled, in rising order (R365). -/
def candidates (s : State) : List Nat :=
  (List.range 32).flatMap fun k =>
    let w := s.rd (R.icPend k) &&& ~~~ s.rd (R.icActive k) &&& s.rd (R.icEn k)
    if w = 0 then [] else ((List.range 32).filter fun b => bit w b).map fun b => 32 * k + b

/-- The processor of target t is fenced (R356). -/
def targetFenced (s : State) (t : Nat) : Bool := decide (t < 8) && s.procs.fenced / 2 ^ t % 2 == 1

/-- Target t exists in the present real-time mode (R354). -/
def targetExists (s : State) (t : Nat) : Bool := decide (t < 13) && !(s.flag R.icCtrlPaired && (t == 9 || t == 11))

/-- Target t is present (R366); a parked cluster's targets are not (R410). -/
def targetPresent (s : State) (t : Nat) : Bool :=
  targetExists s t && !targetFenced s t && !(s.procs.parked && decide (t < 8)) && s.procs.outOfReset / 2 ^ t % 2 == 1 && s.flag (R.icTctrlEn t)

/-- The running priority of target t: its active source, or 1,024 (R366). -/
def running (s : State) (t : Nat) : Nat := s.get (R.icTstatRunning t)

/-- Whether target t may serve source n (R366). -/
def eligible (s : State) (t n : Nat) : Bool := targetPresent s t && bit (s.rd (R.icSrc n)) t

/-- The eligible target with the highest load, ties to the lowest index. -/
def bestTarget (loads : List Nat) (el : List Nat) : Option Nat :=
  el.foldl (fun b t =>
    match b with
    | none => some t
    | some u => if loads.getD u 0 < loads.getD t 0 then some t else b) none

/-- The assignment of the candidates to targets, as (source, target) in rising order of sources (R367). -/
def assignFrom (s : State) : List Nat → List Nat → List (Nat × Nat)
  | _, [] => []
  | loads, n :: rest =>
    match bestTarget loads ((List.range 13).filter fun t => eligible s t n) with
    | none => assignFrom s loads rest
    | some t =>
      (n, t) :: assignFrom s (if loads.getD t 0 = 1024 then loads.set t n else loads) rest

def assignment (s : State) : List (Nat × Nat) := assignFrom s ((List.range 13).map (running s)) (candidates s)

/-- The lowest-numbered source assigned to target t. -/
def assignedTo (s : State) (t : Nat) : Option Nat := ((assignment s).find? fun a => a.2 == t).map (·.1)

/-- IC_TSTAT of target t as a read returns it (R366, R367). -/
def targetStatus (s : State) (t : Nat) : Word :=
  BitVec.ofNat 32 (running s t
    + (if running s t = 1024 && (assignedTo s t).isSome then 65536 else 0)
    + (if targetFenced s t then 131072 else 0) + (if targetPresent s t then 262144 else 0))

/-- A doorbell write of source n by requester who: processors have the numbers of their targets (R365). -/
def doorbell (s : State) (who n : Nat) : State :=
  if who < 13 ∧ n < 576 then
    let s := (s.count R.icSwdbIgn).set R.icStatSwdbErr 1
    if s.secondPassed s.procs.doorbellErrAt then
      { s with procs := { s.procs with doorbellErrAt := some s.now } }.log 0x0405 (leBytes 1 who ++ leBytes 2 n)
    else s
  else if n < 1024 then s.ring n
  else s

/-- DOORBELL (R365). -/
def execDoorbell (who n : Nat) (s : State) : Res := .next (doorbell s who n)

/-- A read of the claim register of target t by requester who: the value read, and the state after (R368). -/
def claim (s : State) (who t : Nat) : Nat × State :=
  if who ≠ t ∨ 13 ≤ t then (1024, s)
  else
    match assignedTo s t with
    | none => (1024, s.count (R.icTspur t))
    | some n =>
      let s := ((s.set (State.bitAt (R.icPend 0) n) 0).set (State.bitAt (R.icActive 0) n) 1).set (R.icTstatRunning t) n
      (n, { s with procs := { s.procs with serving := (t, n) :: s.procs.serving } }.count (R.icTclaims t))

/-- CLAIM (R368). -/
def execClaim (who t : Nat) (s : State) : Res :=
  let r := claim s who t
  .next (r.2.emit (.claimed t r.1))

/-- A write of n to the complete register of target t by requester who (R369). -/
def complete (s : State) (who t n : Nat) : State :=
  if 13 ≤ t then s
  else if who ≠ t ∨ n ≠ running s t then
    let active := running s t
    let s := (s.count R.icCmplErr).set R.icStatCerr 1
    if s.secondPassed s.procs.completeErrAt then
      { s with procs := { s.procs with completeErrAt := some s.now } }.log 0x0404
        (leBytes 1 t ++ leBytes 2 n ++ leBytes 2 active)
    else s
  else
    let s := (s.set (State.bitAt (R.icActive 0) n) 0).set (R.icTstatRunning t) 1024
    { s with procs := { s.procs with serving := s.procs.serving.filter fun a => a != (t, n) } }

/-- COMPLETE (R369). -/
def execComplete (who t n : Nat) (s : State) : Res := .next (complete s who t (n % 1024))

/-- TARGET_LOSS: a target that stops being present has the sources active on it completed by the controller (R371). -/
def targetLoss (s : State) (t : Nat) : State :=
  let l := (s.procs.serving.filter fun a => a.1 == t).map (·.2)
  let s := l.foldl (fun u n => (u.set (State.bitAt (R.icActive 0) n) 0).count R.icCmplForced) s
  { s.set (R.icTstatRunning t) 1024 with
    procs := { s.procs with serving := s.procs.serving.filter fun a => a.1 != t } }

/-- Run an operation that may make targets lose their presence, and complete what was active on them (R371). -/
def withTargets (f : State → State) (s : State) : State :=
  let u := f s
  (List.range 13).foldl (fun v t => if targetPresent s t && !targetPresent u t then targetLoss v t else v) u

/-- The targets a non-maskable cause reaches now (R372). -/
def nmiTargets (s : State) : List Nat :=
  (List.range 13).filter fun t => targetPresent s t && (t == 12 || bit (s.rd R.icNmimask) t)

/-- NMI_DELIVERY: cause bit b comes about; a bit that was 0 delivers one interrupt to each target (R372). -/
def nmi (s : State) (b : Nat) : State :=
  if s.flag ⟨R.icNmistat, b, 1⟩ then s
  else
    let t := s.set ⟨R.icNmistat, b, 1⟩ 1
    (t.emit (.nmi (nmiTargets t) (2 ^ b))).log 0x0406 (leBytes 1 (2 ^ b))

end Sys2Proof.Machine
end

