-- ==== Sys2Proof/Machine/Clocks.lean ====
section
/-!
DEFINITION. Clock sources, their monitoring, and the operating points of the clusters (17_clocks.md R392 to R404).
-/
namespace Sys2Proof.Machine

namespace State
def setClk (s : State) (x : Clocks) : State := { s with clk := x }
end State

/-- PLL numbers in the order of Table 17-2. -/
def pllSys : Nat := 2
def pllFab : Nat := 4
def pllGnss : Nat := 5

/-- The PLLs whose normal reference is the TCXO, but for the GNSS PLL and the FAB PLL. -/
def tcxoPlls : List Nat := [0, 1, 2, 3, 6]

/-- The PLL is on its fallback reference; SYS_ALT follows the SYS PLL. -/
def pllFallback (s : State) (p : Nat) : State :=
  if s.clk.alt / 2 ^ p % 2 = 1 then s
  else
    let s := s.setClk { s.clk with alt := s.clk.alt + 2 ^ p }
    if p = pllSys then s.set R.ckStatSysAlt 1 else s

/-- The SYS PLL takes a reference; on the RC the uncertainty of device time grows from now on (R397). -/
def sysReference (s : State) (r : Nat) : State :=
  let u := rcGrowth s
  let s := { s with time := { s.time with unc0 := s.time.unc0 + u } }
  let s := s.setClk { s.clk with sysRef := r, rcAt := s.now }
  if r = 0 then s else pllFallback s pllSys

/-- What the SYS PLL falls back to: the recovered clock of a Pavilion that uses it, else the RC, else nothing (R396,
R399). -/
def sysFallback (s : State) : Nat :=
  if s.flag R.ckStatRecclk ∧ s.hearth = false then 1 else if s.clk.rc then 3 else 2

/-- Whether PLL p has a reference that runs: its normal one, or the fallback it has taken (Table 17-2). -/
def pllRuns (s : State) (p : Nat) : Bool :=
  let alt := s.clk.alt / 2 ^ p % 2 == 1
  if p = pllGnss then !s.clk.gnssOff
  else if p = pllSys then s.clk.sysRef != 3
  else if p = pllFab then s.flag R.ckStatRecclk || !(s.clk.tcxo && s.clk.rc)
  else if alt then !s.clk.rc else !s.clk.tcxo

/-- LOCK of each PLL and the receiver's RFLOCK: a PLL whose reference runs is locked (log entry 127). -/
def lockShow (s : State) : State :=
  let l := ((List.range 7).filter (pllRuns s)).foldl (fun m p => m + 2 ^ p) 0
  (s.set R.ckStatLock l).put R.gnStatRflock (!s.clk.gnssOff)

/-- The GNSS PLL stops: the baseband and the receiver's lock with it (R396, R401). -/
def gnssStop (s : State) : State := s.setClk { s.clk with gnssOff := true }

/-- The links of every port drop, as the FAB PLL leaves the tolerance of the PHYs (R397). -/
def fabricLinksDrop (s : State) : State := (List.range 6).foldl (fun u p => portLink u p false 0 false) s

/-- A non-maskable reference failure (R396, R372). -/
def clkref (s : State) : State := nmi s 0

/-- TCXO_FAILURE (R396). -/
def tcxoFailure (s : State) : State :=
  let r := sysFallback s
  let s := s.setClk { s.clk with tcxo := true }
  let s := (s.set R.ckStatReffail 1).count R.ckRefswitch
  let s := tcxoPlls.foldl pllFallback s
  let s := sysReference s r
  let s := clkref s
  let s := gnssStop (s.log 0x0301 [if r = 1 then 1 else 0])
  lockShow (if s.flag R.ckStatRecclk then s else fabricLinksDrop (pllFallback s pllFab))

/-- RC_FAILURE (R399): the RC is no fallback any more. -/
def rcFailure (s : State) (last : Nat) : State :=
  let s := s.setClk { s.clk with rc := true }
  let s := s.log 0x0303 (leBytes 4 last)
  lockShow (if s.clk.sysRef = 2 then sysReference s 3 else s)

/-- CRYSTAL_FAILURE (R400). -/
def crystalFailure (s : State) (last : Nat) : State :=
  (s.setClk { s.clk with xt := true, rtcBad := true }).log 0x0304 (leBytes 4 last)

/-- RECOVERED_CLOCK_FAILURE (R398): the upstream link goes down and the FAB PLL takes the TCXO. -/
def recoveredFailure (s : State) (count : Nat) : State :=
  let p := s.get R.fbPtpportUpport
  let ppm := ((count : Int) - 125000) * 8
  let s := portLink s p false 0 false
  let s := ((s.set R.ckStatRecclk 0).set R.fbPtpportRecclk 0).count R.ckRecfail
  let s := pllFallback s pllFab
  let s := if s.clk.sysRef = 1 then sysReference s (if s.clk.rc then 3 else 2) else s
  s.log 0x0302 ([BitVec.ofNat 8 p] ++ leBytes 4 (wrapInt 32 ppm))

/-- MONITOR_FAULT (R394). -/
def monitorFault (s : State) (last : Nat) : State :=
  (s.set R.ckStatMonf 1).log 0x0307 (leBytes 4 last)

/-- A window count outside its limits. -/
def windowBad (lo hi : Nat) (n : Nat) : Bool := decide (n < lo) || decide (hi < n)

/-- The consecutive bad windows of a check after a window; a stuck source fails at once (R393). -/
def runAfter (run : Nat) (bad stuck : Bool) : Nat := if stuck then max 2 (run + 1) else if bad then run + 1 else 0

/-- The failed oscillators by the failing pairs: TCXO, RC, crystal (Table 17-4, R394). -/
def attribution (a b c monf : Bool) : Bool × Bool × Bool :=
  if monf then
    if a && c then (true, false, false) else if a then (false, true, false) else (false, false, c)
  else if a && b && c then (true, true, false)
  else if a && b then (false, true, false)
  else if a then (true, false, false)
  else if c then (false, false, true)
  else (false, false, false)

/-- RC_CALIBRATED and the RC frequency, while check A passes (R395). -/
def calibrate (s : State) (a : Nat) (good : Bool) : State :=
  let s := s.wr R.ckTcxocnt (BitVec.ofNat 32 a)
  if !good then s.setClk { s.clk with calRun := 0 }
  else
    let s := s.wr R.ckRcfreq (BitVec.ofNat 32 (2600000000000 / max a 1))
    let s := s.setClk { s.clk with calRun := s.clk.calRun + 1 }
    if 10 ≤ s.clk.calRun ∧ s.flag R.ckStatCal = false then
      let u := rcGrowth s
      ({ s with time := { s.time with unc0 := s.time.unc0 + u } }.setClk { s.clk with rcAt := s.now }).set R.ckStatCal 1
    else s

/-- One window of 1 ms: the counts of checks A and B, of check C at the end of its 32 windows and of check D where the
recovered clock runs; bit k of `stuck` says that the counted source of check k shows no edge (R393 to R400). -/
def monitorWindow (s : State) (a b : Nat) (c d : Option Nat) (stuck : Nat) : State :=
  let st := fun k : Nat => stuck / 2 ^ k % 2 == 1
  let run := fun k : Nat => s.clk.runs.getD k 0
  let aBad := windowBad 23920 28080 a
  let bBad := windowBad 92000 108000 b
  let ra := runAfter (run 0) aBad (st 0)
  let rb := runAfter (run 1) bBad (st 1)
  let rc :=
    match c with
    | some n => runAfter (run 2) (windowBad 1028 1069 n) (st 2)
    | none => if st 2 then max 2 (run 2) else run 2
  let rdd :=
    match d with
    | some n => runAfter (run 3) (if s.clk.tcxo then windowBad 123750 126250 n else windowBad 124975 125025 n) (st 3)
    | none => if st 3 then max 2 (run 3) else 0
  let s := s.setClk { s.clk with runs := [ra, rb, rc, rdd], monRun := if bBad || st 1 then 0 else s.clk.monRun + 1 }
  let s := calibrate s a (!aBad && !st 0)
  let s := if s.flag R.ckStatMonf ∧ 10 ≤ s.clk.monRun then s.set R.ckStatMonf 0 else s
  let fa := decide (2 ≤ ra)
  let fb := decide (2 ≤ rb)
  let fc := decide (2 ≤ rc)
  let s := if !fa && fb && !fc && !s.flag R.ckStatMonf then monitorFault s b else s
  let n := attribution fa fb fc (s.flag R.ckStatMonf)
  let s := ((s.put R.ckStatTcxoOk (!n.1)).put R.ckStatRcOk (!n.2.1)).put R.ckStatXtOk (!n.2.2)
  let s := if n.1 ∧ s.clk.tcxo = false then tcxoFailure s else s
  let s :=
    if n.1 then s
    else if n.2.1 then (if s.clk.rc then s else rcFailure s b)
    else s.setClk { s.clk with rc := false }
  let s :=
    if n.2.2 then (if s.clk.xt then s else crystalFailure s (c.getD 0)) else s.setClk { s.clk with xt := false }
  if 2 ≤ rdd ∧ s.flag R.ckStatRecclk = true then
    let t := recoveredFailure s (d.getD 0)
    lockShow (t.setClk { t.clk with runs := [ra, rb, rc, 0] })
  else lockShow s

/-- MONITOR_WINDOW (R393). -/
def execMonitorWindow (a b : Nat) (c d : Option Nat) (stuck : Nat) (s : State) : Res :=
  .next (monitorWindow s a b c d stuck)

/-- PLL_LOCK_LOSS: handled as though the PLL's reference had failed, without REFFAIL (R401). -/
def execPllLockLoss (p : Nat) (s : State) : Res :=
  .next (
    if 7 ≤ p then s
    else
      let s := (s.count R.ckLockloss).log 0x0305 [BitVec.ofNat 8 p]
      let s := clkref s
      lockShow (if p = pllGnss then gnssStop s
      else if p = pllSys then sysReference (s.count R.ckRefswitch) (sysFallback s)
      else if p = pllFab ∧ s.flag R.ckStatRecclk = true then
        ((pllFallback s p).set R.ckStatRecclk 0).set R.fbPtpportRecclk 0
      else if p = pllFab then fabricLinksDrop (pllFallback s p)
      else pllFallback s p))

/-- The clock sources after a reset of the main die: at POR, BOR and PIN every PLL is back on its normal reference; POR and BOR
also end the calibration; the fabric has no upstream link yet (R395, R396). -/
def clocksReset (s : State) (home uncal : Bool) : State :=
  let s := s.set R.ckStatRecclk 0
  let s :=
    if home then
      ((s.setClk { s.clk with tcxo := false, gnssOff := false, alt := 0, sysRef := 0 }).set R.ckStatReffail 0).set R.ckStatSysAlt 0
    else if s.clk.sysRef = 1 then sysReference s (if s.clk.rc then 3 else 2)
    else s
  lockShow (if uncal then (s.setClk { s.clk with calRun := 0 }).set R.ckStatCal 0 else s)

/-! Operating points (R402, R403) -/

/-- Core voltage of an operating point in mV (Table 17-5). -/
def opMillivolt : Nat → Nat
  | 0 => 900
  | 1 => 800
  | 2 => 720
  | _ => 650

/-- How long a sequence takes, each phase at the bound of Table 17-6, in ns. -/
def opSequence (old new : Nat) : Nat :=
  if opMillivolt old < opMillivolt new then
    us 1 + (opMillivolt new - opMillivolt old) * 100 + us 5 + us 2 + us 20 + us 2
  else us 1 + us 2 + us 20 + us 2 + (opMillivolt old - opMillivolt new) * 100 + us 5

/-- The effective point asked for: the higher-numbered of request and ceiling (R402). -/
def opWanted (s : State) (k : Nat) : Nat := max (s.get (R.ckClopReq k)) (s.get (R.ckClopCeil k))

/-- A sequence starts where the effective point changes and none runs (R403). -/
def opStart (s : State) (k : Nat) : State :=
  let w := opWanted s k
  if s.flag (R.ckClopBusy k) ∨ w = s.get (R.ckClopEff k) then s
  else
    (s.setClk { s.clk with target := s.clk.target.set k w,
                           seqEnd := s.clk.seqEnd.set k (s.now + opSequence (s.get (R.ckClopEff k)) w) }).set
      (R.ckClopBusy k) 1

/-- OP_REQUEST: a write of CK_CLkOP.REQ (R403). -/
def opRequest (s : State) (k op : Nat) : State := if k < 2 then opStart (s.set (R.ckClopReq k) op) k else s

def execOpRequest (k op : Nat) (s : State) : Res := .next (if op < 4 then opRequest s k op else s)

/-- OP_SEQUENCE_END: the point of the sequence is in force, and a newer one is taken up (R403). -/
def execOpSequenceEnd (k : Nat) (s : State) : Res :=
  .next (
    if k < 2 ∧ s.flag (R.ckClopBusy k) = true then
      let s := s.passTo (s.clk.seqEnd.getD k 0)
      let s := ((s.set (R.ckClopEff k) (s.clk.target.getD k 2)).set (R.ckClopBusy k) 0).count R.ckOpchanges
      opStart s k
    else s)

/-- The Keeper sets the ceiling of a cluster (R402, R403). -/
def opCeiling (s : State) (k c : Nat) : State :=
  if s.get (R.ckClopCeil k) = c then s
  else opStart ((s.set (R.ckClopCeil k) c).log 0x0306 [BitVec.ofNat 8 k, BitVec.ofNat 8 c]) k

end Sys2Proof.Machine
end

