-- ==== Sys2Proof/Machine/Dma.lean ====
section
/-!
DEFINITION. The DMA engine (15_processors_interrupts.md R361 to R363).
-/
namespace Sys2Proof.Machine

/-- The queue takes a value, with OCC and CQTAIL. -/
def State.setDma (s : State) (q : TagQueue) : State :=
  ({ s with procs := { s.procs with dma := q } }.set R.dmaOccOcc q.occupied).set R.dmaCqtailCqtail (q.written % 512)

/-- Fields of a DMA descriptor (Table 15-4). -/
def dmaOp (d : List Byte) : Nat := natAt d 2 1
def dmaFlags (d : List Byte) : Nat := natAt d 3 1
def dmaLen (d : List Byte) : Nat := natAt d 4 4
def dmaSrc (d : List Byte) : Nat := natAt d 8 8
def dmaDst (d : List Byte) : Nat := natAt d 16 8
def dmaRows (d : List Byte) : Nat := natAt d 24 4
def dmaSstride (d : List Byte) : Nat := natAt d 28 4
def dmaDstride (d : List Byte) : Nat := natAt d 32 4
def dmaFence (o : TagOp) : Bool := dmaFlags o.desc / 2 % 2 == 1

/-- The fields hold values that Table 15-4 gives. -/
def dmaFieldsOk (d : List Byte) : Bool :=
  decide (dmaFlags d < 4) && decide (1 ≤ dmaLen d) && decide (dmaLen d ≤ 268435456)
    && (d.drop 36).all (· == 0)
    && (if dmaOp d = 3 then
          decide (1 ≤ dmaRows d) && decide (dmaRows d ≤ 65535) && decide (dmaLen d ≤ dmaSstride d)
            && decide (dmaLen d ≤ dmaDstride d)
        else (dmaOp d == 1 || dmaOp d == 2) && dmaRows d == 0 && dmaSstride d == 0 && dmaDstride d == 0)

/-- Bytes from the first to the last byte that a side of the descriptor touches. -/
def dmaExtent (d : List Byte) (stride : Nat) : Nat :=
  if dmaOp d = 3 then stride * (dmaRows d - 1) + dmaLen d else dmaLen d

/-- Two ranges share a byte. -/
def rangesMeet (a n b m : Nat) : Bool := decide (a < b + m) && decide (b < a + n)

/-- A descriptor that moves data: valid fields, regions in reach and no overlap (R362). -/
def dmaValid (s : State) (d : List Byte) : Bool :=
  let dn := dmaExtent d (dmaDstride d)
  let sn := dmaExtent d (dmaSstride d)
  dmaFieldsOk d && dmaReach s (dmaDst d) dn
    && (dmaOp d == 2 || (dmaReach s (dmaSrc d) sn && !rangesMeet (dmaSrc d) sn (dmaDst d) dn))

/-- n bytes of the fill pattern, from its lowest byte on. -/
def fillBytes (pattern n : Nat) : List Byte := (List.range n).map fun i => BitVec.ofNat 8 (pattern / 256 ^ (i % 4))

/-- One run of bytes from src to dst: the bytes written and the state after. -/
def dmaRun (s : State) (src dst n : Nat) : Nat × State :=
  let r := busRead s 0 src n
  busStore r.2 0 dst r.1

/-- Rows from row i on: bytes written and state; a bus error stops the descriptor. -/
def dmaRowsFrom (d : List Byte) : Nat → Nat → State → Nat × State
  | 0, _, s => (0, s)
  | k + 1, i, s =>
    let r := dmaRun s (dmaSrc d + i * dmaSstride d) (dmaDst d + i * dmaDstride d) (dmaLen d)
    if r.1 = dmaLen d then
      let q := dmaRowsFrom d k (i + 1) r.2
      (r.1 + q.1, q.2)
    else r

/-- The bytes a valid descriptor writes, and the state after (R362). -/
def dmaMove (s : State) (d : List Byte) : Nat × State :=
  if dmaOp d = 1 then dmaRun s (dmaSrc d) (dmaDst d) (dmaLen d)
  else if dmaOp d = 2 then busStore s 0 (dmaDst d) (fillBytes (dmaSrc d % 4294967296) (dmaLen d))
  else dmaRowsFrom d (dmaRows d) 0 s

/-- All bytes a valid descriptor would write. -/
def dmaTotal (d : List Byte) : Nat := if dmaOp d = 3 then dmaRows d * dmaLen d else dmaLen d

/-- A descriptor ends: its completion entry, counters, sources and event (R363). -/
def dmaEnd (s : State) (o : TagOp) (status bytes : Nat) : State :=
  let q := s.procs.dma
  let s := putCompletion s 0 (s.rd64 R.dmaCqbaseLo) 512 q.written o.tag status bytes
  let s := s.setDma (q.finish o.tag)
  let s := s.count R.dmaCompleted
  let total := s.procs.dmaBytes + bytes
  let s := { s with procs := { s.procs with dmaBytes := total % 1048576 } }.count R.dmaMbytes (total / 1048576)
  let s := if dmaFlags o.desc % 2 = 1 then s.fire 504 else s
  if status = 0 then s
  else ((s.count R.dmaErrors).fire 505).log 0x0408 (leBytes 2 o.tag ++ leBytes 1 status)

/-- The submission of the descriptor whose address the word names (R361). -/
def dmaSubmit (s : State) (v : Word) : State :=
  let a := descriptorAt v
  let ok := inSramOrDram s a 64
  let r := if ok then readDescriptor s 0 a else (List.replicate 64 0, s)
  let s := r.2
  let tag := natAt r.1 0 2
  let e := s.procs.dma.refusal 512 tag ok
  let s := (s.set R.dmaResultResult e).set R.dmaResultTag tag
  if e = 0 then s.setDma (s.procs.dma.submit { tag := tag, desc := r.1 }) else s.countSat R.dmaOccRefused

/-- DMA_SUBMIT (R361). -/
def execDmaSubmit (value : Word) (s : State) : Res :=
  gatedWrite s 13 { addr := R.dmaSubmit, value := value } (dmaSubmit s value)

/-- The next descriptor starts where the engine is enabled, a running slot of eight is free and no fence holds it
(R362). -/
def dmaStart (s : State) : State :=
  if s.flag R.dmaCtrlEn = false ∨ 8 ≤ s.procs.dma.running then s
  else
    match TagQueue.nextToStart dmaFence s.procs.dma.ops with
    | none => s
    | some o => s.setDma (s.procs.dma.start o.tag s.now)

/-- DMA_START (R362). -/
def execDmaStart (s : State) : Res := gated s 13 <| .next (dmaStart s)

/-- A started descriptor moves its data and completes (R362, R363). -/
def dmaComplete (s : State) (tag : Nat) : State :=
  match s.procs.dma.find tag with
  | none => s
  | some o =>
    if o.started = false then s
    else if !dmaValid s o.desc then dmaEnd s o 4 0
    else
      let r := dmaMove s o.desc
      dmaEnd r.2 o (if r.1 = dmaTotal o.desc then 0 else 3) r.1

/-- DMA_COMPLETE (R363). -/
def execDmaComplete (tag : Nat) (s : State) : Res := gated s 13 <| .next (dmaComplete s tag)

/-- CQHEAD is written: the entries passed are acknowledged (R363). -/
def dmaAck (s : State) (head : Nat) : State :=
  let n := headAdvance (s.get R.dmaCqheadCqhead) (head % 512) 512
  (s.set R.dmaCqheadCqhead head).setDma (s.procs.dma.ack n)

/-- DMA_CQ_ACK (R363). -/
def execDmaCqAck (head : Nat) (s : State) : Res :=
  gatedWrite s 13 { addr := R.dmaCqhead, value := BitVec.ofNat 32 head } (dmaAck s head)

/-- A tag is written to DMA_ABORT: a descriptor not started completes with status 5 (R363). -/
def dmaAbort (s : State) (tag : Nat) : State :=
  match s.procs.dma.find (tag % 65536) with
  | none => s
  | some o => if o.started then s else dmaEnd s o 5 0

/-- DMA_ABORT (R363). -/
def execDmaAbort (tag : Nat) (s : State) : Res :=
  gatedWrite s 13 { addr := R.dmaAbort, value := BitVec.ofNat 32 tag } (dmaAbort s tag)

end Sys2Proof.Machine
end

