-- ==== Sys2Proof/Machine/Events.lean ====
section
/-!
DEFINITION. The event recorder: posting, writing records, spilling them to flash, reading them back
(20_keeper_events_thermal.md R443 to R452).
-/
namespace Sys2Proof.Machine

namespace State
def setEv (s : State) (x : EventRec) : State := { s with ev := x }
end State

/-- EV_POSTRES of a post (R448). -/
def postResult (s : State) (code : Nat) : Nat :=
  if code < 0x4000 ∨ 0x7FFF < code then 2 else if s.ev.intake.length < 64 then 0 else 1

/-- A write of CODE and SEV to EV_POST: the application's event with the DATA of EV_POSTD0 to EV_POSTD2 (R448). -/
def eventPost (s : State) (code sev : Nat) : State :=
  let r := postResult s code
  let data := (List.range 3).flatMap fun i => leBytes 4 (s.rd (R.evPostd i)).toNat
  let t := s.set R.evPostresPostres r
  if r = 2 then t else t.intake ⟨code, 4, sev % 4, data⟩

/-- EVENT_POST (R448). -/
def execEventPost (code sev : Nat) (s : State) : Res := .next (eventPost s (code % 65536) sev)

/-- DATA as the record holds it: 12 bytes, unused ones 0 (R444). -/
def data12 (l : List Byte) : List Byte := bytesAt l 0 12

/-- Bytes 0 to 23 of a record (Table 20-2). -/
def recordHead (r : EvRecord) : List Byte :=
  leBytes 2 r.code ++ leBytes 1 r.source ++ leBytes 1 r.sev ++ data12 r.data ++ leBytes 4 r.hours ++ leBytes 4 r.pcycle

/-- The 32 bytes of a record (Table 20-2). -/
def recordBytes (r : EvRecord) : List Byte :=
  recordHead r ++ leBytes 4 r.last ++ leBytes 2 r.repeats ++ leBytes 2 (crcOf crc16 (recordHead r))

/-- The record with sequence n in the ring. -/
def ringRecord (s : State) (n : Nat) : EvRecord := Tbl.get s.ev.ring {} (n % 16384)

/-- The ring slot of sequence n takes a record. -/
def ringPut (s : State) (n : Nat) (r : EvRecord) : State :=
  s.setEv { s.ev with ring := Tbl.set s.ev.ring {} (n % 16384) r }

/-- Whether an event equals the most recent record of this power cycle (R447). -/
def repeats (s : State) (e : Ev) : Bool :=
  let r := ringRecord s (s.ev.seq - 1)
  decide (0 < s.ev.seq) && r.mark && r.code == e.code && r.source == e.source
    && (data12 r.data).take 4 == (data12 e.data).take 4 && r.pcycle == s.ev.pcycle

/-- EVENT_REPEAT: LAST and REPEAT of the latest record (R447). -/
def eventRepeat (s : State) : State :=
  let r := ringRecord s (s.ev.seq - 1)
  (ringPut s (s.ev.seq - 1) { r with last := operatingTime s, repeats := min (r.repeats + 1) 65535 }).count R.evRepeats

/-- The oldest sequence that can be read: of the spill partition, else of the ring. -/
def oldestRecord (s : State) : Nat :=
  s.ev.spilled.foldl (fun m b => min m b.2.1) (s.ev.seq - 16384)

/-- A record that has not been spilled is overwritten: it is lost, with event 0x1803 once per power cycle (R450). -/
def recordLoss (s : State) : State :=
  if s.ev.unspilled + 16384 ≤ s.ev.seq then
    let s := s.setEv { s.ev with unspilled := s.ev.unspilled + 1 }
    let s := (s.set R.evStatLost 1).fire 537
    if s.ev.lossLogged then s else (s.setEv { s.ev with lossLogged := true }).log 0x1803 ([2] ++ leBytes 4 1)
  else s

/-- A new record at the head of the ring (R446). -/
def newRecord (s : State) (e : Ev) : State :=
  let s := recordLoss s
  let t := operatingTime s
  let s := ringPut s s.ev.seq
    { code := e.code, source := e.source, sev := e.sev, data := data12 e.data, hours := t, pcycle := s.ev.pcycle, last := t,
      repeats := 0, mark := true }
  let s := s.setEv { s.ev with seq := s.ev.seq + 1 }
  let s := (s.set R.evSeqSeq s.ev.seq).count R.evWritten
  let s := s.set R.evOldestOldest (oldestRecord s)
  if s.get R.evSevthSevth ≤ e.sev then s.fire 536 else s

/-- The records dropped while the Keeper restarted are reported (R425). -/
def droppedReport (s : State) : State :=
  if s.kp.dropped = 0 then s
  else ({ s with kp := { s.kp with dropped := 0 } } : State).log 0x0204 (leBytes 4 s.kp.dropped)

/-- The oldest event of the intake queue is written; space for the event of dropped ones returns (R446 to R448). A Keeper that
restarts writes what was held when it runs again (R425). -/
def eventWrite (s : State) : State :=
  match s.ev.intake with
  | [] => s
  | e :: rest =>
    let s := (s.passTo s.kp.restart).setEv { s.ev with intake := rest }
    let s := droppedReport (if repeats s e then eventRepeat s else newRecord s e)
    if s.ev.dropPend = 0 then s
    else (s.setEv { s.ev with dropPend := 0 }).log 0x1803 ([1] ++ leBytes 4 s.ev.dropPend)

/-- EVENT_RECORD_WRITE (R446). -/
def execEventRecordWrite (s : State) : Res := .next (eventWrite s)

/-- Records that a start finds with a mark and a failing CRC are discarded (R446). -/
def recordsCheck (s : State) : State :=
  s.hw.records.foldl (fun (u : State) n =>
    if (ringRecord u n).mark ∧ n < u.ev.seq ∧ u.ev.seq ≤ n + 16384 then
      (ringPut u n { ringRecord u n with mark := false }).log 0x1804 (leBytes 4 n)
    else u) s

/-- The whole intake queue is written; n bounds the events. -/
def eventDrain : Nat → State → State
  | 0, s => s
  | n + 1, s => if s.ev.intake.isEmpty then s else eventDrain n (eventWrite s)

/-- A block of n records from sequence `first` on, as it lies in the spill partition (R450). -/
def spillBlock (s : State) (first n : Nat) : List Byte :=
  let body := (List.range n).flatMap fun i => recordBytes (ringRecord s (first + i))
  bytesAt (leBytes 4 first ++ leBytes 2 n ++ [0, 0] ++ leBytes 4 s.ev.pcycle ++ List.replicate 20 0 ++ body) 0 4096

/-- n records are spilled into the next block of the event spill partition, written through (R450). -/
def spillOut (s : State) (n : Nat) : State :=
  let b := s.ev.spillNext % 524288
  let first := s.ev.unspilled
  let s := flashPut s (blockKey 7 b) { Tbl.get s.flash.blocks {} (blockKey 7 b) with data := spillBlock s first n } true
  let s := s.setEv { s.ev with spilled := Tbl.insert (Tbl.erase s.ev.spilled b) b (first, n),
                               unspilled := first + n, spillNext := (b + 1) % 524288 }
  (s.count R.evSpilled n).set R.evOldestOldest (oldestRecord s)

/-- EVENT_SPILL: 127 records not spilled, the most recent one not among them; none while the storage controller stands still
(R450). -/
def execEventSpill (s : State) : Res :=
  .next (
    if s.flag R.msStatPfail ∨ s.gateOn 14 = false then s.set R.evStatSpillstop 1
    else if s.ev.seq < s.ev.unspilled + 128 then s.set R.evStatSpillstop 0
    else (spillOut (s.set R.evStatSpillstop 0) 127))

/-- The remainder is spilled as a partial block at the entry to DEEP or OFF (R450). -/
def spillRest (s : State) : State :=
  let n := s.ev.seq - 1 - s.ev.unspilled
  if n = 0 ∨ s.flag R.msStatPfail then s else spillOut s (min n 127)

/-- 32 bytes of the record with sequence n, from the ring or a spill block; an invalid or lost one reads as zeros
(R452). -/
def recordRead (s : State) (n : Nat) : List Byte :=
  if s.ev.seq ≤ n + 16384 then
    if (ringRecord s n).mark then recordBytes (ringRecord s n) else List.replicate 32 0
  else
    match s.ev.spilled.find? fun b => decide (b.2.1 ≤ n) && decide (n < b.2.1 + b.2.2) with
    | some b => bytesAt (flashRead s (blockKey 7 b.1)) (32 + 32 * (n - b.2.1)) 32
    | none => List.replicate 32 0

/-- Object 0x3300:04 (R452). -/
def recordsRead (s : State) : List Byte :=
  let p := s.objN 0x3300 0x03
  (List.range (min 45 (s.ev.seq - p))).flatMap fun i => recordRead s (p + i)

end Sys2Proof.Machine
end

