-- ==== Sys2Proof/Machine/Panel.lean ====
section
/-!
DEFINITION. The status panel driver (21_panel.md R461 to R477).
-/
namespace Sys2Proof.Machine

namespace State
def setPanel (s : State) (p : Panel) : State := { s with panel := p }
end State

/-- Bytes per row of the committed frame (R461). -/
def panelStride : Nat := 80

/-- Two rectangles share a pixel. -/
def PanelRect.overlaps (a b : PanelRect) : Bool :=
  decide (a.x < b.x + b.w) && decide (b.x < a.x + a.w) && decide (a.y < b.y + b.h) && decide (b.y < a.y + a.h)

/-- The rows of a rectangle, top first. -/
def PanelRect.rows (r : PanelRect) : List Nat := (List.range r.h).map (r.y + ·)

/-- The whole panel (R461). -/
def wholePanel (s : State) : PanelRect := ⟨0, 0, s.get R.dpGeomCols, s.get R.dpGeomRows⟩

/-- The pilot rectangle (R476). -/
def pilotRect (s : State) : PanelRect :=
  ⟨s.get R.dpPorgPx, s.get R.dpPorgPy, s.get R.dpPsizePw, s.get R.dpPsizePh⟩

/-- The counts of DP_STAT follow the queue and the rectangles in flight. -/
def panelShow (s : State) : State :=
  ((s.put R.dpStatBusy (!s.panel.flight.isEmpty)).set R.dpStatNflight s.panel.flight.length).set R.dpStatQlen
    s.panel.queue.length

/-! Row time and contrast voltage (R462) -/

/-- Temperature of table point j in tenths of a degree. -/
def tableT (s : State) (j : Nat) : Int := int16 (s.get (R.dpTabtT j))

/-- Linear interpolation between two points, rounded to the nearest unit (log entry 38). -/
def between (t ta tb : Int) (a b : Nat) : Nat :=
  if tb ≤ ta then a
  else (((a : Int) * (2 * (tb - ta)) + 2 * (((b : Int) - (a : Int)) * (t - ta)) + (tb - ta)) / (2 * (tb - ta))).toNat

/-- Row time in 10 µs and contrast voltage in 10 mV at a temperature; end points beyond the table. -/
def panelDrive (s : State) (t : Int) : Nat × Nat :=
  if t ≤ tableT s 0 then (s.get (R.dpTabtRowt 0), s.get (R.dpTabvVc 0))
  else
    match (List.range 7).find? fun j => decide (tableT s j < t) && decide (t ≤ tableT s (j + 1)) with
    | some j =>
      (between t (tableT s j) (tableT s (j + 1)) (s.get (R.dpTabtRowt j)) (s.get (R.dpTabtRowt (j + 1))),
       between t (tableT s j) (tableT s (j + 1)) (s.get (R.dpTabvVc j)) (s.get (R.dpTabvVc (j + 1))))
    | none => (s.get (R.dpTabtRowt 7), s.get (R.dpTabvVc 7))

/-- The panel temperature in tenths of a degree. -/
def panelTemp (s : State) : Int := int16 (s.get R.dpTempTemp)

/-- TRANGE and event 0x1505, once per excursion. -/
def panelRange (s : State) : State :=
  let t := panelTemp s
  if decide (t < tableT s 0) || decide (tableT s 7 < t) then
    if s.panel.excursion then s
    else ((s.setPanel { s.panel with excursion := true }).set R.dpStatTrange 1).log 0x1505 (leBytes 2 (wrapInt 16 t))
  else (s.setPanel { s.panel with excursion := false }).set R.dpStatTrange 0

/-! Committed frame and journal (R468, R471) -/

/-- Bytes of the committed frame from offset o on take new values; an unlisted byte holds four pixels of grey 3. -/
def framePut (f : Tbl Byte) (o : Nat) : List Byte → Tbl Byte
  | [] => f
  | b :: l => framePut (Tbl.set f 255 o b) (o + 1) l

/-- The journal entry k takes a value. -/
def journalSet (s : State) (k : Nat) (e : PanelEntry) : State :=
  s.setPanel { s.panel with journal := s.panel.journal.set k e }

/-- The first free journal entry; the four rectangles in flight may use them all. -/
def journalFree (s : State) : Option Nat := (List.range 4).find? fun k => !(s.panel.journal.getD k {}).active

/-- One journal entry as it is written (Table 21-2). -/
def journalBytes (e : PanelEntry) : List Byte :=
  let head := leBytes 2 e.rect.x ++ leBytes 2 e.rect.y ++ leBytes 2 e.rect.w ++ leBytes 2 e.rect.h ++ leBytes 2 e.rowsDone
    ++ leBytes 1 (if e.active then 0xA5 else 0) ++ leBytes 1 0
  head ++ leBytes 2 (crcOf crc16 head) ++ leBytes 2 0

/-- Whether the Ember word at an offset reads: it is not uncorrectable, or dual-copy is in effect and copy 1 is good (R383). -/
def emberReads (s : State) (o : Nat) : Bool :=
  s.hw.ember.all fun e => e.1 / 4 != o / 4 || (e.2 && s.intg.getD 2 1 == 1)

/-- Journal entry k as the Ember store gives it: a word that does not read is 0 (R383). -/
def journalStored (s : State) (k : Nat) : List Byte :=
  (journalBytes (s.panel.journal.getD k {})).mapIdx fun i b => if emberReads s (0x190040 + 16 * k + i) then b else 0

/-- The CRC of journal entry k agrees. -/
def journalOk (s : State) (k : Nat) : Bool :=
  let l := journalStored s k
  crcOf crc16 (l.take 12) == natAt l 12 2

/-- One row of the source buffer goes into the committed frame; what a bus error cuts off stays as it was. -/
def frameRow (r : PanelReq) (s : State) (j : Nat) : State :=
  let l := busRead s 5 (r.src + r.stride * j) (r.rect.w / 4)
  l.2.setPanel { l.2.panel with frame := framePut l.2.panel.frame (panelStride * (r.rect.y + j) + r.rect.x / 4) l.1 }

/-- PANEL_DISPATCH: a request becomes a rectangle in flight: its journal entry, then the committed frame (R468, R471). -/
def panelDispatch (s : State) (r : PanelReq) : State :=
  let idle := s.panel.flight.isEmpty
  let k := (journalFree s).getD 0
  let s := journalSet s k { rect := r.rect, rowsDone := 0, active := true }
  let s := (List.range r.rect.h).foldl (frameRow r) s
  let p := s.panel
  let s := s.setPanel { p with queue := p.queue.erase r,
                               flight := p.flight ++ [⟨r.rect, some r.tag, [], k, false, p.dispatched + 1⟩],
                               dispatched := p.dispatched + 1 }
  if idle then
    s.setPanel { s.panel with firstAt := some (s.now + us 500),
                              railsAt := if s.flag R.dpStatRails then none else some (s.now + ms 2) }
  else s

/-- Queued requests in submission order: each that overlaps no rectangle in flight and no older queued request is
dispatched while fewer than four are in flight (R468). -/
def panelScan (s : State) : List PanelReq → List PanelReq → State
  | _, [] => s
  | older, r :: rest =>
    if s.panel.flight.length < 4 ∧ (s.panel.flight.any fun f => f.rect.overlaps r.rect) = false
        ∧ (older.any fun q => q.rect.overlaps r.rect) = false then
      panelScan (panelDispatch s r) older rest
    else panelScan s (older ++ [r]) rest

/-- The power-fail warning stands, or stood when the driver stopped (R472). -/
def powerStop (s : State) : Bool := s.flag R.dpStatPfstop || s.pwrFlag 0

/-- Whether rows may start: enabled, no power-fail stop, no rail fault, clock group running (R470, R472, R475). -/
def panelMay (s : State) : Bool :=
  s.flag R.dpCtrlEn && !powerStop s && !s.flag R.dpStatRailf && s.gateOn 16

/-- The check of the queue at the start of a row drive and while idle (R468); what is submitted during a replay stays queued
until it ends (R474). -/
def panelCheck (s : State) : State := panelShow (if s.flag R.dpStatReplay then s else panelScan s [] s.panel.queue)

/-- The rectangle whose turn is next. -/
def nextTurn (s : State) : Option PanelFlight :=
  match s.panel.flight.find? fun f => decide (s.panel.served < f.id) with
  | some f => some f
  | none => s.panel.flight.head?

/-! What a row puts on X7 (R464, R508) -/

/-- Grey code of a pixel of the committed frame (R461). -/
def frameGrey (s : State) (y x : Nat) : Nat := (Tbl.get s.panel.frame 255 (panelStride * y + x / 4)).toNat / 4 ^ (x % 4) % 4

/-- The bits of the row shifter as shifted: row ROWS − 1 first, the other way round with FLIPY (R508). -/
def rowBits (s : State) (y : Nat) : List Bool :=
  let l := (List.range (s.get R.dpGeomRows)).map (· == y)
  if s.flag R.dpGeomFlipy then l else l.reverse

/-- The grey codes of the column shifter as shifted: column COLS − 1 first, the other way round with FLIPX (R508). -/
def columnGreys (s : State) (y : Nat) : List Nat :=
  let l := (List.range (s.get R.dpGeomCols)).map (frameGrey s y)
  if s.flag R.dpGeomFlipx then l else l.reverse

/-- Entry j of the waveform, u16 (Table 21-5): fR, fS, fE, 0, KS, KE, KD(0) to KD(3). -/
def waveAt (s : State) (j : Nat) : Nat := (s.rd (R.dpWave (j / 2))).toNat / 65536 ^ (j % 2) % 65536

/-- The two halves of a phase, positive first (R464): its fraction, amplitude ratio, and whether the columns carry data. -/
def phaseHalves (s : State) (rowt vc frac ratio : Nat) (data : Bool) : List PanelHalf :=
  [1, -1].map fun (p : Int) =>
    { ns := 5 * rowt * frac, vcom := p * (vc * ratio : Nat), oe := data,
      vseg := (List.range 4).map fun g => if data then -p * (vc * waveAt s (6 + g) : Nat) else 0 }

/-- The drive of common y with a row time in 10 µs and a contrast voltage in 10 mV: reset, select and evolution (Table
21-1). -/
def rowDrive (s : State) (y rowt vc : Nat) : Out :=
  .panelRow (rowBits s y) (columnGreys s y)
    (phaseHalves s rowt vc (waveAt s 0) 65536 false ++ phaseHalves s rowt vc (waveAt s 1) (waveAt s 4) true
      ++ phaseHalves s rowt vc (waveAt s 2) (waveAt s 5) false)

/-- A row drive begins: the next turn's topmost row that is not done (R462, R469); where none may start, it waits. -/
def rowBegin (s : State) : State :=
  if s.panel.row.isSome || s.panel.flight.isEmpty then s
  else if !panelMay s || s.flag R.dpStatRails = false then
    (if s.panel.firstAt.isSome then s else s.setPanel { s.panel with firstAt := some s.now })
  else
    let s := panelCheck s
    match nextTurn s with
    | none => s
    | some f =>
      match f.rect.rows.find? fun y => !f.done.contains y with
      | none => s
      | some y =>
        let s := panelRange s
        let d := panelDrive s (panelTemp s)
        let s := ((s.set R.dpTempRowt d.1).set R.dpVcVc d.2).count R.dpRows
        (s.setPanel { s.panel with served := f.id, row := some (y, s.now + d.1 * 10000), firstAt := none }).emit
          (rowDrive s y d.1 d.2)

/-- The first row after a dispatch from idle begins at its instant. -/
def firstRow (s : State) : State :=
  match s.panel.firstAt with
  | none => s
  | some t => if s.flag R.dpStatRails ∧ panelMay s = true then rowBegin (s.passTo t) else s

/-- A driver that may drive again goes on: with the row that waited, or with the check of its queue (R470, R472). -/
def panelWake (s : State) : State :=
  if panelMay s = false ∨ s.panel.row.isSome = true then s
  else if s.panel.flight.isEmpty then (if s.panel.queue.isEmpty then s else panelCheck s)
  else
    match s.panel.firstAt with
    | some t => if t ≤ s.now then rowBegin s else s
    | none => s

/-- A row driven counts as done for every rectangle in flight that contains it, in its journal entry too (R465, R471). -/
def rowDone (y : Nat) (s : State) (f : PanelFlight) : State :=
  if f.rect.rows.contains y && !f.done.contains y then
    let s := s.setPanel { s.panel with
      flight := s.panel.flight.map fun g => if g.id = f.id then { g with done := y :: g.done } else g }
    let e := s.panel.journal.getD f.entry {}
    journalSet s f.entry { e with rowsDone := e.rowsDone + 1 }
  else s

/-- A tag goes into the completion FIFO (R467, R469). -/
def panelComplete (s : State) (tag status : Nat) : State :=
  (s.setPanel { s.panel with fifo := s.panel.fifo ++ [(tag, status)] }).fire 512

/-- The last replayed rectangle has completed (R474). -/
def replayEnd (s : State) : State :=
  if s.flag R.dpStatReplay && !s.panel.flight.any (fun f => f.replay) then
    ((s.set R.dpStatReplay 0).fire 513).log 0x1501 (leBytes 1 s.panel.replayed)
  else s

/-- A rectangle with no row left completes (R469). -/
def flightEnd (s : State) (f : PanelFlight) : State :=
  let s := s.setPanel { s.panel with flight := s.panel.flight.filter fun g => g.id != f.id }
  let s := journalSet s f.entry { s.panel.journal.getD f.entry {} with active := false }
  match f.tag with
  | some t => panelComplete (s.count R.dpDone) t 1
  | none => s

/-- PANEL_ROW_END: the row in progress, or the first row once it has begun, ends; completed rectangles leave, and the next
row begins (R469). -/
def panelRowEnd (s : State) : State :=
  let s := if s.panel.row.isNone then firstRow s else s
  match s.panel.row with
  | none => s
  | some (y, t) =>
    let s := s.passTo t
    let s := s.setPanel { s.panel with row := none, lastRow := s.now }
    let s := s.panel.flight.foldl (rowDone y) s
    let ended := s.panel.flight.filter fun f => f.rect.rows.all fun r => f.done.contains r
    let s := panelShow (replayEnd (ended.foldl flightEnd s))
    if s.panel.flight.isEmpty then (if panelMay s then panelCheck s else s) else rowBegin s

/-- PANEL_ROW_END (R469). -/
def execPanelRowEnd (s : State) : Res := .next (panelRowEnd s)

/-- RAIL_RISE: the rails are up and the first row begins (R462). -/
def execRailRise (s : State) : Res :=
  .next (
    match s.panel.railsAt with
    | none => s
    | some t =>
      if s.panel.flight.isEmpty then s
      else
        let s := s.passTo t
        rowBegin (((s.setPanel { s.panel with railsAt := none, firstAt := some s.now }).set R.dpStatRails 1)))

/-- RAIL_FALL: 100 ms after the last row with nothing queued or in flight (R462). -/
def execRailFall (s : State) : Res :=
  .next (
    if s.flag R.dpStatRails ∧ s.panel.flight.isEmpty ∧ s.panel.queue.isEmpty then
      (s.passTo (s.panel.lastRow + ms 100)).set R.dpStatRails 0
    else s)

/-! Submissions (R466, R467) -/

/-- The rectangle and source of the submission registers. -/
def panelRequest (s : State) (tag : Nat) : PanelReq :=
  ⟨⟨s.get R.dpRectX, s.get R.dpRectY, s.get R.dpSizeW, s.get R.dpSizeH⟩, s.rd64 R.dpSrcLo, s.get R.dpStrideStride, tag⟩

/-- The most recent queued request with the same rectangle, provided no later one overlaps it (R467). -/
def coalesceInto (r : PanelRect) : List PanelReq → Option PanelReq
  | [] => none
  | q :: older => if q.rect = r then some q else if q.rect.overlaps r then none else coalesceInto r older

/-- DP_SUBRES of a submission (R466); 2 is decided with the request it coalesces into. -/
def submitResult (s : State) (r : PanelReq) : Nat :=
  let g := wholePanel s
  let x := r.rect
  if s.flag R.dpCtrlEn = false then 6
  else if powerStop s then 5
  else if x.x % 4 ≠ 0 ∨ x.w % 4 ≠ 0 ∨ x.w = 0 ∨ x.h = 0 ∨ g.w < x.x + x.w ∨ g.h < x.y + x.h ∨ r.stride < x.w / 4 then 3
  else if s.get R.dpPsizePmode ≠ 0 ∧ (pilotRect s).overlaps x = true then 4
  else if (coalesceInto x s.panel.queue.reverse).isSome then 2
  else if 16 ≤ s.panel.queue.length
      ∨ 32 ≤ s.panel.queue.length + (s.panel.flight.filter fun f => f.tag.isSome).length + s.panel.fifo.length then 1
  else 0

/-- The first request equal to q takes the place of another. -/
def replaceFirst (q r : PanelReq) : List PanelReq → List PanelReq
  | [] => []
  | e :: l => if e = q then r :: l else e :: replaceFirst q r l

/-- PANEL_COALESCE: the queued request keeps its place and takes the new source, stride and tag (R467). -/
def panelCoalesce (s : State) (r q : PanelReq) : State :=
  let s := s.setPanel { s.panel with queue := (replaceFirst q r s.panel.queue.reverse).reverse }
  panelComplete (s.count R.dpCoalesced) q.tag 2

/-- A write of DP_SUBMIT (R466). -/
def panelSubmit (s : State) (tag : Nat) : State :=
  let r := panelRequest s tag
  let n := submitResult s r
  let s := s.set R.dpSubresResult n
  let s :=
    match n, coalesceInto r.rect s.panel.queue.reverse with
    | 0, _ => s.setPanel { s.panel with queue := s.panel.queue ++ [r] }
    | 2, some q => panelCoalesce s r q
    | _, _ => s
  if s.panel.row.isNone ∧ s.panel.flight.isEmpty ∧ panelMay s = true then panelCheck s else panelShow s

/-- PANEL_SUBMIT (R466). -/
def execPanelSubmit (tag : Nat) (s : State) : Res :=
  gatedWrite s 16 { addr := R.dpSubmit, value := BitVec.ofNat 32 tag } (panelSubmit s (tag % 65536))

/-- The word of DP_CPL: the oldest unread completion. -/
def cplWord (s : State) : Nat :=
  match s.panel.fifo with
  | [] => 0
  | e :: _ => e.1 + 65536 * e.2

/-- COMPLETION_POP: a read of DP_CPL (R469). -/
def execCompletionPop (s : State) : Res :=
  .next ((s.setPanel { s.panel with fifo := s.panel.fifo.drop 1 }).emit (.readValue R.dpCpl (cplWord s)))

/-! Replay (R474, R475) -/

/-- The rectangles of a replay start: rows when the rails are up, at once where they are. -/
def replayStart (s : State) (l : List PanelFlight) : State :=
  if l.isEmpty then panelCheck (s.set R.dpStatReplay 0)
  else
    let s := (s.setPanel { s.panel with flight := l, row := none, replayed := l.length, firstAt := some (s.now + us 500),
                                        railsAt := if s.flag R.dpStatRails then none else some (s.now + ms 2) })
    panelShow ((s.set R.dpStatReplay 1).count R.dpReplays l.length)

/-- The rectangle in flight of an active journal entry; a tag it still carries completes with it. -/
def replayFlight (s : State) (k : Nat) : PanelFlight :=
  { rect := (s.panel.journal.getD k {}).rect, tag := ((s.panel.flight.find? fun f => f.entry == k).bind fun f => f.tag),
    entry := k, replay := true, id := s.panel.dispatched + 1 + k }

/-- The journal is read: every active entry is driven again, the whole panel where the CRC of an entry fails (R474). -/
def journalReplay (s : State) : State :=
  let bad := (List.range 4).filter fun k => !journalOk s k
  let s :=
    if bad.isEmpty then
      let act := (List.range 4).filter fun k => (s.panel.journal.getD k {}).active
      let l := act.map (replayFlight s)
      let s := act.foldl (fun u k => journalSet u k { u.panel.journal.getD k {} with rowsDone := 0 }) s
      replayStart s l
    else
      let s := bad.foldl (fun (u : State) k => u.log 0x1507 (leBytes 1 k)) s
      let s := s.setPanel { s.panel with journal := [{ rect := wholePanel s, active := true }, {}, {}, {}] }
      replayStart s [{ rect := wholePanel s, entry := 0, replay := true, id := s.panel.dispatched + 1 }]
  s.setPanel { s.panel with dispatched := s.panel.dispatched + 4 }

/-- A new geometry: the committed frame takes grey 3 and the whole panel is rewritten (R461). -/
def geometryStart (s : State) : State :=
  let g := (s.get R.dpGeomCols, s.get R.dpGeomRows)
  let r := wholePanel s
  let s := s.log 0x1508 (leBytes 2 g.1 ++ leBytes 1 g.2)
  let p := s.panel
  let s := s.setPanel { p with geometry := g, frame := [],
                               journal := [{ rect := r, active := true }, {}, {}, {}],
                               flight := [{ rect := r, entry := 0, id := p.dispatched + 1 }], dispatched := p.dispatched + 1,
                               row := none, firstAt := some (s.now + us 500),
                               railsAt := if s.flag R.dpStatRails then none else some (s.now + ms 2) }
  panelShow s

/-- DP_CTRL.EN = 1 (R461, R474). -/
def panelEnable (s : State) : State :=
  if s.flag R.dpCtrlEn then s
  else
    let s := s.set R.dpCtrlEn 1
    if s.panel.geometry = (s.get R.dpGeomCols, s.get R.dpGeomRows) then journalReplay s else geometryStart s

/-- The driver stops at once: requests queued and in flight are lost, the journal stays (R473). -/
def panelHalt (s : State) : State :=
  panelShow ((s.setPanel { s.panel with queue := [], flight := [], row := none, firstAt := none, railsAt := none }).set
    R.dpStatReplay 0)

/-- DP_CTRL.EN = 0 (log entry 38). -/
def panelDisable (s : State) : State := if s.flag R.dpCtrlEn then panelHalt (s.set R.dpCtrlEn 0) else s

/-- PANEL_REPLAY: the driver is enabled and reads its journal (R474). -/
def execPanelReplay (s : State) : Res := gatedField s 16 R.dpCtrlEn 1 (panelEnable s)

/-- RAIL_FAULT: the driver stops at once (R475). -/
def execRailFault (negative : Bool) (decivolt : Nat) (s : State) : Res :=
  .next (
    if s.flag R.dpStatRails = false ∨ s.flag R.dpStatRailf then s
    else
      let s := (s.setPanel { s.panel with row := none }).set R.dpStatRailf 1
      (s.fire 514).log 0x1503 ([if negative then 1 else 0] ++ leBytes 2 decivolt))

/-- RESTART clears RAILF and replays the journal (R475). -/
def panelRestart (s : State) : State :=
  if s.flag R.dpStatRailf ∧ s.flag R.dpCtrlEn = true then journalReplay (s.set R.dpStatRailf 0) else s

/-- PANEL_RESTART (R475). -/
def execPanelRestart (s : State) : Res := gatedField s 16 R.dpCtrlRestart 1 (panelRestart s)

/-- PANEL_POWER_FAIL_STOP: the row in progress ends and no other starts (R472). -/
def panelStop (s : State) : State :=
  ((s.set R.dpStatPfstop 1).fire 516).log 0x1502 (leBytes 1 s.panel.flight.length)

/-- The queue resumes when the warning clears (R472). -/
def panelResume (s : State) : State :=
  panelWake (if s.flag R.dpStatPfstop then (s.set R.dpStatPfstop 0).fire 516 else s)

/-! Thermistor (R463) -/

/-- THERMISTOR_READ: the reading in tenths of a degree (R463). -/
def execThermistorRead (tenths : Int) (s : State) : Res :=
  gated s 16 <| .next (
    let s :=
      match s.panel.readAt with
      | none => s
      | some t => s.passTo (t + sec 1)
    let s := s.setPanel { s.panel with readAt := some s.now }
    let broken := decide (tenths < -550) || decide (1250 < tenths)
    if s.flag R.dpStatTfault then
      if broken then s.setPanel { s.panel with valid := 0 }
      else
        let n := s.panel.valid + 1
        if n < 10 then s.setPanel { s.panel with valid := n }
        else
          let s := (s.setPanel { s.panel with valid := 0 }).set R.dpTempTemp (wrapInt 16 tenths)
          ((s.set R.dpStatTfault 0).fire 515).log 0x1504 [0]
    else if broken then
      (((s.setPanel { s.panel with valid := 0, brokenAt := s.now }).set R.dpStatTfault 1).fire 515).log 0x1504 [1]
    else s.set R.dpTempTemp (wrapInt 16 tenths))

/-- THERMISTOR_FALLBACK: 60 s after the break the fallback temperature applies (R463). -/
def execThermistorFallback (s : State) : Res :=
  gated s 16 <| .next (
    if s.flag R.dpStatTfault then
      (s.passTo (s.panel.brokenAt + sec 60)).set R.dpTempTemp (wrapInt 16 (F32.roundEven (s.objF 0x3500 0x07) 10 1))
    else s)

/-! Geometry (R461) -/

/-- A write of object 0x3500:02 to :04: the status answered (R461). -/
def panelGeometryWrite (s : State) (sub v : Nat) : State × Nat :=
  if sub < 2 ∨ 4 < sub then (s, St.noObject)
  else if (sub = 2 ∧ (v < 16 ∨ 320 < v ∨ v % 8 ≠ 0)) ∨ (sub = 3 ∧ (v < 16 ∨ 240 < v)) ∨ (sub = 4 ∧ 3 < v) then (s, St.range)
  else if s.flag R.dpCtrlEn then (s, St.busy)
  else
    let s := s.setObjN 0x3500 sub v
    match sub with
    | 2 => (s.set R.dpGeomCols v, St.ok)
    | 3 => (s.set R.dpGeomRows v, St.ok)
    | _ => ((s.set R.dpGeomFlipx (v % 2)).set R.dpGeomFlipy (v / 2), St.ok)

/-! Pilot area (R476, R477) -/

/-- The code of the most recent record at or above the severity threshold, 0 with none; n records are left to look at. -/
def pilotCode (s : State) : Nat → Nat
  | 0 => 0
  | n + 1 =>
    let r := Tbl.get s.ev.ring {} (n % 16384)
    if r.mark && decide (s.get R.evSevthSevth ≤ r.sev) then r.code
    else if n + 16384 ≤ s.ev.seq then 0 else pilotCode s n

/-- The decimal digits of a number, in ASCII. -/
def decimal (n : Nat) : List Nat := (Nat.toDigits 10 n).map (·.toNat)

/-- The two lines that the Keeper renders (R476): "H" and the operating time in hours to 0.1 h, "E" and the code or "----",
with a space between (log entry 36). -/
def pilotText (s : State) : List Nat × List Nat :=
  let h := operatingTime s / 360
  let c := pilotCode s s.ev.seq
  ([72, 32] ++ decimal (h / 10) ++ [46] ++ decimal (h % 10),
   [69, 32] ++ (if c = 0 then [45, 45, 45, 45]
                else (List.range 4).map fun k => [48, 49, 50, 51, 52, 53, 54, 55, 56, 57, 65, 66, 67, 68, 69, 70].getD (c / 16 ^ (3 - k) % 16) 0))

/-- Whether a pilot pixel is bright: cells of 6 × 16 with mode 1, the bitmap, least significant bit first, with mode 2. -/
def pilotBright (s : State) (text : List Nat × List Nat) (x y : Nat) : Bool :=
  if s.get R.dpPsizePmode = 2 then
    ((s.objB 0x3500 0x0C).getD (12 * y + x / 8) 0).toNat / 2 ^ (x % 8) % 2 == 1
  else
    match (if y < 16 then text.1 else text.2)[x / 6]? with
    | some c => Config.glyph c (x % 6) (y % 16)
    | none => false

/-- One byte of a pilot row: pixels of grey 0 or 3, those beyond the area as they were. -/
def pilotByte (s : State) (text : List Nat × List Nat) (y i : Nat) : Byte :=
  let r := pilotRect s
  BitVec.ofNat 8 (((List.range 4).map fun k =>
    (if 4 * i + k < r.w then (if pilotBright s text (4 * i + k) y then 3 else 0) else frameGrey s (r.y + y) (r.x + 4 * i + k))
      * 4 ^ k).sum)

/-- A row of the pilot area in the committed frame. -/
def pilotRow (text : List Nat × List Nat) (s : State) (y : Nat) : State :=
  let r := pilotRect s
  s.setPanel { s.panel with
    frame := framePut s.panel.frame (panelStride * (r.y + y) + r.x / 4)
      ((List.range ((r.w + 3) / 4)).map (pilotByte s text y)) }

/-- PILOT_AREA_WRITE: the Keeper renders and drives the pilot area with four times the row time (R477), with a journal entry
where one is free (log entry 130); cause 1 DEEP or OFF entry, 2 thermal shutdown. -/
def pilotWrite (s : State) (cause : Nat) : State :=
  let r := pilotRect s
  if s.get R.dpPsizePmode = 0 ∨ r.w = 0 ∨ r.h = 0 then s
  else
    let entry := journalFree s
    let mark (u : State) (e : PanelEntry) : State := match entry with | some k => journalSet u k e | none => u
    let s := mark s { rect := r, active := true }
    let s := (List.range r.h).foldl (pilotRow (pilotText s)) s
    let d := panelDrive s (panelTemp s)
    let s := r.rows.foldl (fun u y => u.emit (rowDrive u y (4 * d.1) d.2)) s
    (mark s { rect := r, rowsDone := r.h, active := false }).log 0x1506 (leBytes 1 cause)

end Sys2Proof.Machine
end

