-- ==== Sys2Proof/Machine/Sensors.lean ====
section
/-!
DEFINITION. The sensor inputs: analog, pulse, bridge and loss inputs, sensor supplies and the IMU
(05_sensor_inputs.md R113 to R125).
-/
namespace Sys2Proof.Machine

namespace State

def aiOf (s : State) (n : Nat) : AnalogIn := Tbl.get s.sens.ai {} n
def setAi (s : State) (n : Nat) (x : AnalogIn) : State := { s with sens := { s.sens with ai := Tbl.set s.sens.ai {} n x } }
def piOf (s : State) (n : Nat) : PulseIn := Tbl.get s.sens.pi {} n
def setPi (s : State) (n : Nat) (x : PulseIn) : State := { s with sens := { s.sens with pi := Tbl.set s.sens.pi {} n x } }
def liOf (s : State) (n : Nat) : LossIn := Tbl.get s.sens.li {} n
def setLi (s : State) (n : Nat) (x : LossIn) : State := { s with sens := { s.sens with li := Tbl.set s.sens.li {} n x } }

/-- Sensor supply k is enabled and without fault. -/
def supplyOn (s : State) (k : Nat) : Bool := s.flag ⟨R.siSpctrl, k, 1⟩ && !s.flag ⟨R.siSpctrl, 4 + k, 1⟩

/-- A logic ground offset stops the analog samples (R413). -/
def groundOffset (s : State) : Bool := s.pwrStatus / 8 % 2 == 1

end State

/-! Analog inputs -/

/-- Conversions per second of the inputs of a list of SI_AICFG words, as a fraction (R116). -/
def conversions (l : List Nat) : Nat × Nat :=
  l.foldl (fun a w =>
    let mode := w % 8
    let osr := w / 64 % 8
    let per := w / 65536
    if mode = 0 then a else (a.1 * per + 2 ^ osr * 20000 * a.2, a.2 * per)) (0, 1)

/-- SI_AICFG of the inputs on one converter, with input n at word w. -/
def converterWords (s : State) (n w : Nat) : List Nat :=
  (List.range 16).map fun k =>
    let m := n / 16 * 16 + k
    if m = n then w else (s.rd (R.siAicfg m)).toNat

/-- FCLR clears OPEN and BURDEN (R114). -/
def aiFclr (s : State) (n : Nat) : State := (s.set (R.siAistatOpen n) 0).set (R.siAistatBurden n) 0

/-- SUPPLY of every ratiometric input follows its supply (R117). -/
def supplyShow (s : State) : State :=
  (List.range 48).foldl (fun u n =>
    u.put (R.siAistatSupply n) (s.get (R.siAicfgMode n) == 6 && !s.supplyOn (s.get (R.siAicfgRsup n)))) s

/-- A write of SI_AICFG: refused with ERR 1 where it breaks the converter budget (R116); a reserved encoding leaves its
field and sets ERR 2 (R6). The second component says whether it was refused. -/
def aiConfig (s : State) (n : Nat) (v : Word) : State × Bool :=
  let t := if bit v 9 then aiFclr s n else s
  let fs := fieldsAt (R.siAicfg n)
  let w := applyFields fs (t.rd (R.siAicfg n)).toNat v.toNat
  let c := conversions (converterWords t n w)
  if c.1 > 1000000 * c.2 then
    ((t.set (R.siAistatErr n) 1).log 0x090A (leBytes 1 (n / 16) ++ leBytes 4 (ceilDiv c.1 c.2)), true)
  else
    let u := supplyShow (t.wr (R.siAicfg n) (BitVec.ofNat 32 w))
    (if illegal fs v.toNat then u.set (R.siAistatErr n) 2 else u, illegal fs v.toNat)

/-- Whether a value is outside the range of its mode (Table 5-2). -/
def aiOutOfRange (mode : Nat) (x : F32) : Bool :=
  match mode with
  | 1 => F32.lt x 0 || F32.lt (F32.ofRat 51 10) x
  | 2 => F32.lt x 0 || F32.lt (F32.ofRat 102 10) x
  | 3 => F32.lt x 0 || F32.lt (F32.ofRat 3264 100) x
  | 4 => F32.lt x (F32.ofRat 36 10) || F32.lt (F32.ofRat 21 1) x
  | 5 => F32.lt (F32.ofRat 4000 1) x
  | 6 => F32.lt x 0 || F32.lt F32.one x
  | _ => false

/-- Conversion time in ns of input n at instant t, after the lower inputs of its converter that coincide with it
(R115): start and length. -/
def aiSlot (s : State) (n : Nat) (t : Time) : Nat × Nat :=
  let len := fun m => 2 ^ s.get (R.siAicfgOsr m) * 1000
  let before := ((List.range (n % 16)).map fun k =>
    let m := n / 16 * 16 + k
    if s.get (R.siAicfgMode m) ≠ 0 ∧ t % (s.get (R.siAicfgPer m) * 50000) = 0 then len m else 0).sum
  (before, len n)

/-- An analog input that a fault, its mode or its supply keeps from producing samples. -/
def aiBlocked (s : State) (n : Nat) : Bool :=
  s.get (R.siAicfgMode n) == 0 || s.flag (R.siAistatOpen n)
  || s.flag (R.siAistatBurden n) || s.groundOffset

/-- AI_SAMPLE (R115): the next sample instant of input n comes; x is the average of its conversions in the unit of its
mode. -/
def execAiSample (n : Nat) (x : F32) (s : State) : Res := gated s 5 <|
  let mode := s.get (R.siAicfgMode n)
  if n > 47 ∨ aiBlocked s n then .next s
  else
    let per := s.get (R.siAicfgPer n) * 50000
    let t := gridNext per (s.aiOf n).last s.time.dev
    let s := (s.devTo t).setAi n { s.aiOf n with last := some t }
    if mode = 6 ∧ !s.supplyOn (s.get (R.siAicfgRsup n)) then .next (s.set (R.siAistatSupply n) 1)
    else
      let s := if aiOutOfRange mode x then s.set (R.siAistatOor n) 1 else s
      let tau := s.get (R.siAitauTau n)
      let y := if tau = 0 then x
        else match (s.aiOf n).filter with
          | none => x
          | some p => Config.lowPass tau (s.get (R.siAicfgPer n)) p x
      let slot := aiSlot s n t
      let s := (s.setAi n { s.aiOf n with filter := if tau = 0 then none else some y }).wr (R.siAival n) y
      .next (produce s n (t + slot.1 + slot.2 / 2) y)

/-- AI_CONFIG_WRITE (R116). -/
def execAiConfigWrite (n : Nat) (value : Word) (s : State) : Res :=
  if n > 47 then .next s else gatedWrite s 5 { addr := R.siAicfg n, value := value } (aiConfig s n value).1

/-- AI_LATCHED_FAULT (R114): the condition of the input's mode has lasted its time. DATA names 0 OPEN, 1 BURDEN (log
entry 7). -/
def execAiLatchedFault (n : Nat) (s : State) : Res := gated s 5 <|
  let mode := s.get (R.siAicfgMode n)
  if n > 47 then .next s
  else if mode = 5 then
    .next (((s.set (R.siAistatOpen n) 1).fire 384).log 0x0904 (leBytes 1 n ++ leBytes 1 0))
  else if mode = 4 then
    .next (((s.set (R.siAistatBurden n) 1).fire 384).log 0x0904 (leBytes 1 n ++ leBytes 1 1))
  else .next s

/-- AI_FCLR (R114). -/
def execAiFclr (n : Nat) (s : State) : Res :=
  if n > 47 then .next s else gatedField s 5 (R.siAicfgFclr n) 1 (aiFclr s n)

/-! Sensor supplies -/

/-- A supply's fault is cleared and the supply restarts (R117). -/
def supplyClear (s : State) (k : Nat) : State := supplyShow (s.set ⟨R.siSpctrl, 4 + k, 1⟩ 0)

/-- Supply k is enabled or disabled. -/
def supplyEnable (s : State) (k : Nat) (on : Bool) : State := supplyShow (s.put ⟨R.siSpctrl, k, 1⟩ on)

/-- SUPPLY_FAULT (R117): 10 ms of limiting, or a voltage above 5.5 V forced onto the output of a supply that may be
disabled, at the measured voltage and current. -/
def execSupplyFault (k millivolt milliamp : Nat) (s : State) : Res :=
  if k > 3 ∨ s.flag ⟨R.siSpctrl, 4 + k, 1⟩ ∨ (s.flag ⟨R.siSpctrl, k, 1⟩ = false ∧ millivolt ≤ 5500) then .next s
  else
    let t := ((s.set (R.siSpmeasV k) millivolt).set (R.siSpmeasI k) milliamp).set ⟨R.siSpctrl, 4 + k, 1⟩ 1
    .next (((supplyShow t).fire 385).log 0x0905 (leBytes 1 k ++ leBytes 2 milliamp))

/-- SUPPLY_CLEAR (R117). -/
def execSupplyClear (k : Nat) (s : State) : Res :=
  if k > 3 then .next s else gatedField s 5 (R.siSpctrlClr) (2 ^ k) (supplyClear s k)

/-! Pulse inputs -/

/-- The ×4 decoding of a line change of quadrature pair (a, b): +1 while a leads b, -1 while b leads a (log entry 12).
`even` says that line a changed; the levels are those after the change. -/
def quadStep (even a b : Bool) : Int := if (a == b) == even then -1 else 1

/-- OVF: two counted edges closer than 2.5 µs (R118). -/
def pulseOverflow (s : State) (n : Nat) (t : Time) : State :=
  let p := s.piOf n
  if p.tLast ≠ 0 ∧ t < p.tLast + 2500 then
    ((s.set (R.siPistatOvf n) 1).fire 386).log 0x0906 (leBytes 1 n)
  else s

/-- A counted edge enters the frequency measurement; the first edge after a stall only sets the reference (R120). -/
def pulseCounted (s : State) (n : Nat) (t : Time) (step : Int) : State :=
  let s := pulseOverflow s n t
  let p := s.piOf n
  match p.tRef with
  | none => s.setPi n { p with tRef := some t, tLast := t, edges := 0, only := true }
  | some _ =>
    if p.stalled then s.setPi n { p with tRef := some t, tLast := t, edges := 0, stalled := false, only := true }
    else s.setPi n { p with tLast := t, edges := p.edges + step }

/-- The even channel of a quadrature pair. -/
def pairOf (n : Nat) : Nat := n / 2 * 2

/-- PULSE_EDGE (R118): a line passes its glitch filter to `level` at instant t, stamped at 5 ns resolution; `both` says that
both lines of a quadrature pair changed between two samples. QUAD counts only where both channels are set to it (R119). -/
def execPulseEdge (n : Nat) (level both : Bool) (t : Time) (s : State) : Res := gated s 5 <|
  let mode := s.get (R.siPicfgMode n)
  if n > 23 ∨ mode = 0 then .next s
  else
    let s := s.devTo t
    let t := t / 5 * 5
    let s := (s.wr64 (R.siPitsLo n) t).setPi n { s.piOf n with level := level }
    if mode = 4 then
      let e := pairOf n
      if s.get (R.siPicfgMode e) ≠ 4 ∨ s.get (R.siPicfgMode (e + 1)) ≠ 4 then .next s
      else if both then
        let o := if n = e then e + 1 else e
        let s := s.setPi o { s.piOf o with level := !(s.piOf o).level }
        .next (((s.set (R.siPistatQerr n) 1).fire 386).log 0x0906 (leBytes 1 n))
      else
        let st := quadStep (n == e) (s.piOf e).level (s.piOf (e + 1)).level
        let pos := s.rd (R.siPicnt e) + BitVec.ofInt 32 st
        .next (pulseCounted ((s.wr (R.siPicnt e) pos).wr (R.siPicnt (e + 1)) pos) e t st)
    else if level = (s.get (R.siPicfgEdge n) == 0) then
      .next (pulseCounted (s.count (R.siPicnt n)) n t 1)
    else .next s

/-- What a pulse input measures at publication instant t (R120): frequency, stamp, and the input after it; none where
nothing is published. -/
def pulseFrequency (p : PulseIn) (ztoMs : Nat) (t : Time) : Option (F32 × Time × PulseIn) :=
  match p.tRef with
  | none => none
  | some r =>
    if r < p.tLast then
      let f := F32.ofRat (p.edges * 1000000000) (p.tLast - r)
      some (f, (r + p.tLast) / 2, { p with tRef := some p.tLast, edges := 0, fPrev := f, only := false })
    else if t > p.tLast + ms ztoMs then some (0, t, { p with stalled := true, fPrev := 0 })
    else if p.only then none
    else
      let g := F32.ofRat 1000000000 (t - p.tLast)
      let f := if F32.lt g (F32.abs p.fPrev) then (if F32.sign p.fPrev then F32.neg g else g) else p.fPrev
      some (f, t, p)

/-- PULSE_PUBLICATION (R119, R120): the next publication instant of input n comes. -/
def execPulsePublication (n : Nat) (s : State) : Res := gated s 5 <|
  let mode := s.get (R.siPicfgMode n)
  let e := pairOf n
  if n > 23 ∨ mode = 0 then .next s
  else if mode = 4 ∧ (s.get (R.siPicfgMode e) ≠ 4 ∨ s.get (R.siPicfgMode (e + 1)) ≠ 4) then
    .next (s.set (R.siPistatErr n) 3)
  else
    let per := s.get (R.siPicfgPub n) * 100000
    let t := gridNext per (s.piOf n).lastPub s.time.dev
    let s := (s.devTo t).setPi n { s.piOf n with lastPub := some t }
    if mode = 3 then
      let v := F32.ofNat (s.rd (R.siPicnt n)).toNat
      .next (produce (s.wr (R.siPival n) v) (0x40 + n) t v)
    else if mode = 4 ∧ n ≠ e then
      let v := F32.ofInt (int32 (s.rd (R.siPicnt n)))
      .next (produce (s.wr (R.siPival n) v) (0x40 + n) t v)
    else
      match pulseFrequency (s.piOf n) (s.get (R.siPitoZto n)) t with
      | none => .next s
      | some (f, stamp, p) =>
        let v := if mode = 2 then F32.div F32.one f else f
        .next (produce (((s.setPi n p).put (R.siPistatStall n) p.stalled).wr (R.siPival n) v) (0x40 + n) stamp v)

/-- The count, or the position of a pair, returns to 0 (R119). -/
def piClear (s : State) (n : Nat) : State :=
  if s.get (R.siPicfgMode n) = 4 then (s.wr (R.siPicnt (pairOf n)) 0).wr (R.siPicnt (pairOf n + 1)) 0
  else s.wr (R.siPicnt n) 0

/-- PI_COUNT_CLEAR (R119). -/
def execPiCountClear (n : Nat) (s : State) : Res :=
  if n > 23 then .next s else gatedField s 5 (R.siPicfgCntclr n) 1 (piClear s n)

/-! Bridge inputs -/

/-- BRIDGE_CONVERSION (R121): 1,000 × Vdiff / Vexc, stamped with the end of conversion minus the group delay. -/
def execBridgeConversion (b : Nat) (vdiff vexc : F32) (excLimited outOfRange : Bool) (t : Time) (s : State) : Res := gated s 5 <|
  if b > 3 ∨ s.flag (R.siBicfgEn b) = false ∨ s.flag (R.siBistatSenseOpen b) then .next s
  else
    let s := (s.devTo t).put (R.siBistatExcLim b) excLimited
    let s := if outOfRange then s.set (R.siBistatOor b) 1 else s
    let v := F32.div (F32.mul (F32.ofNat 1000) vdiff) vexc
    .next (produce (s.wr (R.siBival b) v) (0x60 + b) (t - Config.bridgeDelay (s.get (R.siBicfgRate b))) v)

/-- BRIDGE_SENSE_OPEN (R121). -/
def execBridgeSenseOpen (b : Nat) (s : State) : Res := gated s 5 <|
  if b > 3 ∨ s.flag (R.siBicfgEn b) = false then .next s
  else .next (((s.set (R.siBistatSenseOpen b) 1).fire 387).log 0x0907 (leBytes 1 b))

/-- BRIDGE_SENSE_RESTORE (R121). -/
def execBridgeSenseRestore (b : Nat) (s : State) : Res := gated s 5 <|
  if b > 3 then .next s else .next (s.set (R.siBistatSenseOpen b) 0)

/-! Loss inputs -/

/-- Edge E_j of input n: E_0 = TRIG, E_16 = 4,096 (R123). -/
def lossEdge (s : State) (n j : Nat) : Nat :=
  if j = 0 then s.get (R.siLitrigTrig n)
  else if j ≥ 16 then 4096
  else if j % 2 = 1 then s.get (R.siLiedgeElo n ((j - 1) / 2)) else s.get (R.siLiedgeEhi n ((j - 1) / 2))

/-- The trigger lies below E_1 and the edges rise strictly (R123). -/
def lossEdgesOk (s : State) (n : Nat) : Bool := (List.range 15).all fun j => decide (lossEdge s n j < lossEdge s n (j + 1))

/-- A write of SI_LITRIG or SI_LIEDGE, refused with ERR 2 and the ERR flag where the edges would not rise (R123). -/
def lossEdgeWrite (s : State) (n a : Nat) (v : Word) : State × Nat :=
  let t := plainWrite s a v
  if lossEdgesOk t n then (t, 0) else (s.set (R.siListatErr n) 1, 2)

/-- The histogram bin of an amplitude. -/
def lossBin (s : State) (n amp : Nat) : Nat :=
  ((List.range 16).filter fun i => decide (lossEdge s n i ≤ amp)).length - 1

/-- LOSS_IMPACT (R122): a crossing of TRIG at instant t whose peak within the hold-off is `peak`. -/
def execLossImpact (n peak : Nat) (t : Time) (s : State) : Res := gated s 5 <|
  let l := s.liOf n
  if n > 7 ∨ s.flag (R.siLicfgEn n) = false ∨ peak < lossEdge s n 0 ∨ peak > 4095 ∨ t < l.holdUntil then .next s
  else
    let s := s.devTo t
    let b := lossBin s n peak
    let hold := s.get (R.siLicfgHoldoff n)
    let full := l.count ≥ 65535 ∨ l.bins.getD b 0 ≥ 65535
    let s := if full then s.set (R.siListatSat n) 1 else s
    .next (s.setLi n { l with
      count := min (l.count + 1) 65535, bins := l.bins.set b (min (l.bins.getD b 0 + 1) 65535),
      deadUs := l.deadUs + hold, holdUntil := t + us hold })

/-- The interval record of a loss input: rate, count, dead time, histogram (R123, R124). -/
def lossRecord (rate : F32) (count dead : Nat) (bins : List Nat) : List Byte :=
  F32.toBytes rate ++ leBytes 2 count ++ leBytes 2 dead ++ bins.flatMap (leBytes 2)

/-- The histogram registers take the bins. -/
def lossHistogram (s : State) (n : Nat) (bins : List Nat) : State :=
  (List.range 8).foldl (fun t k =>
    (t.set (R.siLihistBlo n k) (bins.getD (2 * k) 0)).set (R.siLihistBhi n k) (bins.getD (2 * k + 1) 0)) s

/-- LOSS_INTERVAL_END (R123): the reporting interval of input n ends. -/
def execLossIntervalEnd (n : Nat) (s : State) : Res := gated s 5 <|
  let l := s.liOf n
  if n > 7 ∨ s.flag (R.siLicfgEn n) = false then .next s
  else
    let iv := s.get (R.siLicfgInterval n)
    let t := gridNext (ms iv) l.lastEnd s.time.dev
    let s := s.devTo t
    let rate := F32.ofRat (l.count * 1000 : Nat) iv
    let dead := min (l.deadUs * 10 / iv) 10000
    let s := ((s.wr (R.siLirate n) rate).set (R.siLicntCount n) l.count).set (R.siLicntDead n) dead
    let s := lossHistogram s n l.bins
    let s := if 2 * l.deadUs > 1000 * iv then
        ((s.set (R.siListatOvl n) 1).fire 388).log 0x0908 (leBytes 1 n ++ leBytes 2 dead)
      else s
    .next (deliver (s.setLi n { lastEnd := some t, holdUntil := l.holdUntil }) (0x70 + n) (t - ms iv / 2) rate false
      (lossRecord rate l.count dead l.bins))

/-! IMU -/

/-- IMU_SAMPLE (R125): the next sample instant comes; a sample not delivered sets GAP. -/
def execImuSample (ax ay az gx gy gz temp : F32) (delivered : Bool) (s : State) : Res := gated s 5 <|
  if s.flag R.siImucfgEn = false ∨ s.flag R.siImustatFault then .next s
  else
    let t := gridNext 1000000 s.sens.imuLast s.time.dev
    let u := s.devTo t
    let u := { u with sens := { u.sens with imuLast := some t } }
    if delivered then
      .next ((List.zip (List.range 7) [ax, ay, az, gx, gy, gz, temp]).foldl
        (fun v p => produce v (0x80 + p.1) t p.2) (u.set R.siImustatStok 1))
    else .next (u.set R.siImustatGap 1)

/-- IMU_FAULT (R125). -/
def execImuFault (code : Nat) (s : State) : Res := gated s 5 <|
  .next ((((s.set R.siImustatFault 1).set R.siImustatStok 0).fire 389).log 0x0909 (leBytes 1 code))

end Sys2Proof.Machine
end

