-- ==== Sys2Proof/Machine/Thermal.lean ====
section
/-!
DEFINITION. Thermal zones and the Damper (20_keeper_events_thermal.md R453 to R460).
-/
namespace Sys2Proof.Machine

namespace State
def setTh (s : State) (x : Thermal) : State := { s with th := x }
def thSensor (s : State) (k : Nat) : ThSensor := Tbl.get s.th.sensors {} k
def setThSensor (s : State) (k : Nat) (x : ThSensor) : State :=
  s.setTh { s.th with sensors := Tbl.set s.th.sensors {} k x }
def thZone (s : State) (z : Nat) : ThZone := Tbl.get s.th.zones {} z
def setThZone (s : State) (z : Nat) (x : ThZone) : State := s.setTh { s.th with zones := Tbl.set s.th.zones {} z x }
/-- A counter of object 0x3400:08 counts one. -/
def thCount (s : State) (k : Nat) : State :=
  s.setTh { s.th with counters := s.th.counters.set k ((s.th.counters.getD k 0 + 1) % 4294967296) }
end State

/-- The classes of zones (Table 20-3). -/
inductive ZoneKind where
  | die | stage | board | housing
deriving DecidableEq, Repr

def zoneKind (z : Nat) : ZoneKind := if z < 4 then .die else if z < 15 then .stage else if z < 18 then .board else .housing

/-- Warning, throttle and shutdown thresholds in 0.1 °C (Table 20-3). -/
def thresholds (z : Nat) : Int × Option Int × Int :=
  match zoneKind z with
  | .die => (1050, some 1150, 1250)
  | .stage => (1400, none, 1600)
  | .board => (1000, some 1050, 1150)
  | .housing => (950, some 1000, 1100)

/-- The sensors of a zone, numbered in the order of the zones (log entry 39). -/
def zoneSensors (z : Nat) : List Nat := if z < 4 then [2 * z, 2 * z + 1] else [z + 4]

/-- Interval of a zone in ns by its INTERVAL field (R454). -/
def zoneInterval (k : Nat) : Nat := if k = 0 then ms 100 else if k = 1 then ms 10 else ms 1

/-- The fault a reading of a sensor shows: 1 open, 2 short, 3 implausible, 4 stuck, 0 none (R460). -/
def sensorFault (x : ThSensor) (t : Int) (same : Nat) (pair : Bool) : Nat :=
  if t < -550 then 1
  else if 2000 < t then 2
  else if pair || (match x.last with | some l => decide (100 < (t - l).natAbs) | none => false) then 3
  else if 600 ≤ same then 4
  else 0

/-- SENSOR_BROKEN: one reading of sensor k; a break and a restoration after 100 good readings are reported (R460). -/
def sensorReading (s : State) (k : Nat) (t : Int) (raw : Nat) (pair : Bool) : State :=
  let x := s.thSensor k
  let same := if x.last.isSome ∧ x.raw = raw then x.same + 1 else 1
  let f := sensorFault x t same pair
  let was := s.get (R.thSensFault k)
  let good := if f = 0 then x.good + 1 else 0
  let s := s.setThSensor k { last := some t, raw := raw, same := min same 600, good := if was = 0 then 0 else min good 100 }
  let s := s.set (R.thSensTemp k) (wrapInt 16 t)
  if was = 0 then
    if f = 0 then s
    else ((((s.set (R.thSensFault k) f).fire 530).thCount 3).log 0x1404 [BitVec.ofNat 8 k, BitVec.ofNat 8 f])
  else if 100 ≤ good then ((s.set (R.thSensFault k) 0).fire 530).log 0x1404 [BitVec.ofNat 8 k, 0]
  else s

/-- The levels at which the Damper's ceiling stands (R457). -/
def damperCeiling (step : Nat) : Nat := if step = 0 then 0 else step + 1

/-- Both ceilings as the Damper and IDLE ask for them (R431, R457). -/
def setCeilings (s : State) : State :=
  let c := max (damperCeiling (s.get R.thStatDamper)) (if s.ps.mode = 1 then 3 else 0)
  opCeiling (opCeiling s 0 c) 1 c

/-- DAMPER_STEP: the Damper takes a step (R457). -/
def damperTo (s : State) (step : Nat) : State :=
  if s.get R.thStatDamper = step then s
  else
    let s := s.set R.thStatDamper step
    let s := if step = 1 then s.setTh { s.th with step1At := s.now } else s
    let s := camDamper (setCeilings s) (step != 0)
    ((s.thCount 2).fire 529).log 0x1406 [BitVec.ofNat 8 step]

/-- Whether a zone is at throttle: by its readings, held, or by its rate of rise. -/
def zoneThrottled (s : State) (z : Nat) : Bool :=
  (thresholds z).2.1.isSome
    && ((s.thZone z).thr || s.flag (R.thZstatHeld z) || s.flag (R.thZstatRor z) || s.flag ⟨R.thLatch, z, 1⟩)

/-- Whether a zone is at warning. -/
def zoneWarned (s : State) (z : Nat) : Bool :=
  (s.thZone z).warn || s.flag (R.thZstatHeld z) || s.flag (R.thZstatRor z)

/-- The Damper enters with the first zone at throttle and leaves with the last (R457). -/
def damperCheck (s : State) : State :=
  let any := (List.range 20).any (zoneThrottled s)
  if any ∧ s.get R.thStatDamper = 0 then damperTo s 1 else if any then s else damperTo s 0

/-- What a stage zone at shutdown disarms: banks or a group (R459). -/
def stageZoneOff (s : State) (z : Nat) : State :=
  if z < 7 then ((List.range 4).map (4 * (z - 4) + ·)).foldl sdDisarm s else groupDisarm s (z - 7)

/-- A zone reaches shutdown, once until its latch clears: MODULE_THERMAL_SHUTDOWN and STAGE_ZONE_SHUTDOWN (R458,
R459). -/
def zoneShutdown (s : State) (z : Nat) (t : Int) : State :=
  if s.flag ⟨R.thLatch, z, 1⟩ then s
  else
    let s := (s.set ⟨R.thLatch, z, 1⟩ 1).set (R.thZstatLevel z) 3
    let data := [BitVec.ofNat 8 z] ++ leBytes 2 (wrapInt 16 t)
    if zoneKind z = .stage then stageZoneOff ((s.fire 532).log 0x1403 data) z
    else
      let s := if s.th.shutAt.isSome then s else s.setTh { s.th with shutAt := some (s.now + ms 20) }
      ((s.set R.thStatSdpend 1).fire 2).log 0x1403 data

/-- The level of a reading with 5 K of hysteresis (R455). -/
def atLevel (was : Bool) (threshold t : Int) : Bool := decide (threshold ≤ t) || (was && decide (threshold - 50 < t))

/-- The rate over the last second in 0.01 K/s; none before a second of readings (R456). -/
def zoneRate (hist : List (Nat × Int)) (now : Nat) (t : Int) : Option Int :=
  match hist.find? fun e => decide (e.1 + 1000000000 ≤ now) with
  | some e => some ((t - e.2) * 10000000000 / ((now - e.1 : Nat) : Int))
  | none => none

/-- The readings to keep: of the last second, and the latest one before it. -/
def keepHist (now : Nat) : List (Nat × Int) → List (Nat × Int)
  | [] => []
  | e :: l => if e.1 + 1000000000 ≤ now then [e] else e :: keepHist now l

/-- RATE_OF_RISE (R456). -/
def rateOfRise (s : State) (z : Nat) (t : Int) : State :=
  let x := s.thZone z
  match zoneRate x.hist s.now t with
  | none => s
  | some r =>
    let s := s.set (R.thZmaxRate z) (wrapInt 16 r)
    if (thresholds z).2.1.isNone then s
    else
      let fast := decide (200 < r)
      let x := { x with fastAt := if fast then some (x.fastAt.getD s.now) else none,
                        slowAt := if fast then none else some (x.slowAt.getD s.now) }
      let s := s.setThZone z x
      let held := fun (o : Option Nat) => match o with | some a => decide (a + 5000000000 ≤ s.now) | none => false
      if s.flag (R.thZstatRor z) then (if held x.slowAt then s.set (R.thZstatRor z) 0 else s)
      else if held x.fastAt then
        ((s.set (R.thZstatRor z) 1).fire 531).log 0x1405 ([BitVec.ofNat 8 z] ++ leBytes 2 (wrapInt 16 r))
      else s

/-- Entering or leaving warning and throttle is reported (R455). -/
def zoneReport (s : State) (z : Nat) (t : Int) (w0 t0 : Bool) : State :=
  let w1 := zoneWarned s z
  let t1 := zoneThrottled s z
  let data := fun (on : Bool) => [BitVec.ofNat 8 z, if on then 1 else 0] ++ leBytes 2 (wrapInt 16 t)
  let s := if w1 = w0 then s else ((if w1 then s.thCount 0 else s).fire 528).log 0x1401 (data w1)
  let s := if t1 = t0 then s else ((if t1 then s.thCount 1 else s).fire 529).log 0x1402 (data t1)
  s.set (R.thZstatLevel z) (if s.flag ⟨R.thLatch, z, 1⟩ then 3 else if t1 then 2 else if w1 then 1 else 0)

/-- How a zone is read: its reading, whether it is held, and whether it has no sensor left (R453, R460). -/
def zoneValue (s : State) (z : Nat) (a b : Int) (pair : Bool) : Int × Bool × Bool :=
  let bad := fun k => s.get (R.thSensFault k) != 0
  match zoneSensors z with
  | [k, l] =>
    if pair then (max a b, true, false)
    else if bad k && bad l then
      -- both sensors of a pair found implausible together still give the higher reading
      if s.get (R.thSensFault k) = 3 ∧ s.get (R.thSensFault l) = 3 then (max a b, true, false) else (max a b, true, true)
    else if bad k then (b, true, false)
    else if bad l then (a, true, false)
    else (max a b, false, false)
  | k :: _ => (a, bad k, bad k)
  | [] => (a, false, false)

/-- The interval to the next reading (R454). -/
def nextInterval (z : Nat) (t : Int) : Nat :=
  let th := thresholds z
  if th.2.2 - 50 ≤ t then 2 else if (th.2.1.getD th.2.2) - 100 ≤ t then 1 else 0

/-- THERMAL_READING: the readings of a zone's sensors in 0.1 °C with their raw codes; `b` and `rawB` are the second sensor
of a die zone (R453 to R460). -/
def thermalReading (s : State) (z : Nat) (a b : Int) (rawA rawB : Nat) : State :=
  let x := s.thZone z
  let s :=
    match x.readAt with
    | some t => s.passTo (t + zoneInterval (s.get (R.thZstatInterval z)))
    | none => s
  let w0 := zoneWarned s z
  let t0 := zoneThrottled s z
  let pair := decide (z < 4) && decide (150 < (a - b).natAbs)
  let s :=
    match zoneSensors z with
    | [k, l] => sensorReading (sensorReading s k a rawA pair) l b rawB pair
    | k :: _ => sensorReading s k a rawA false
    | [] => s
  let v := zoneValue s z a b pair
  let t := v.1
  let th := thresholds z
  let s := s.put (R.thZstatHeld z) (v.2.1 && zoneKind z != .stage)
  let s := s.set (R.thZstatTemp z) (wrapInt 16 t)
  let s :=
    if x.readAt.isNone ∨ int16 (s.get (R.thZmaxMax z)) < t then s.set (R.thZmaxMax z) (wrapInt 16 t) else s
  let x := s.thZone z
  let hist := keepHist s.now x.hist
  let s := s.setThZone z { x with readAt := some s.now, hist := hist, warn := atLevel x.warn th.1 t,
                                  thr := match th.2.1 with | some h => atLevel x.thr h t | none => false }
  let s := rateOfRise s z t
  let s := s.setThZone z { s.thZone z with hist := (s.now, t) :: hist }
  -- a sensor of a board or housing zone that is broken decides no shutdown; a die with none left, or a stage zone, shuts down
  let off :=
    match zoneKind z with
    | .die => v.2.2 || decide (th.2.2 ≤ t)
    | .stage => v.2.2 || decide (th.2.2 ≤ t)
    | _ => !v.2.2 && decide (th.2.2 ≤ t)
  let s := if off then zoneShutdown s z t else s
  let s := zoneReport s z t w0 t0
  damperCheck (s.set (R.thZstatInterval z) (nextInterval z t))

/-- THERMAL_READING (R455). -/
def execThermalReading (z : Nat) (a b : Int) (rawA rawB : Nat) (s : State) : Res :=
  .next (if z < 20 then thermalReading s z a b rawA rawB else s)

/-- A zone still at or above its throttle threshold (R457). -/
def stillHot (s : State) (z : Nat) : Bool :=
  match (thresholds z).2.1 with
  | some h => s.flag (R.thZstatHeld z) || ((s.thZone z).readAt.isSome && decide (h ≤ int16 (s.get (R.thZstatTemp z))))
  | none => false

/-- DAMPER_STEP2: the delay since step 1 has passed (R457). -/
def execDamperStep2 (s : State) : Res :=
  .next (
    if s.get R.thStatDamper ≠ 1 then s
    else
      let s := s.passTo (s.th.step1At + sec (s.objN 0x3400 0x07))
      if (List.range 20).any (stillHot s) then damperTo s 2 else s)

end Sys2Proof.Machine
end

