-- ==== Sys2Proof/Machine/Trellis.lean ====
section
/-!
DEFINITION. The trellis: opening, editing, committing and cancelling route changes (01_architecture.md R16 to R21,
14_object_dictionary.md R350 to R352).
-/
namespace Sys2Proof.Machine

/-- Trellis entry e. -/
def State.entryOf (s : State) (e : Nat) : TrellisEntry := Tbl.get s.trellis.entries {} e

def State.setEntry (s : State) (e : Nat) (x : TrellisEntry) : State :=
  { s with trellis := { s.trellis with entries := Tbl.set s.trellis.entries {} e x } }

/-- The fields of an entry from its 20 bytes (R350). -/
def copyOf (l : List Byte) : TrellisCopy :=
  ⟨natAt l 0 2, natAt l 2 2, F32.ofBytes (l.drop 4), F32.ofBytes (l.drop 8), natAt l 12 4, natAt l 16 1⟩

/-- The 20 bytes of an entry (R350). -/
def copyBytes (c : TrellisCopy) : List Byte :=
  leBytes 2 c.producer ++ leBytes 2 c.consumer ++ F32.toBytes c.gain ++ F32.toBytes c.offset ++ leBytes 4 c.maxAge
    ++ leBytes 1 c.enable ++ [0, 0, 0]

/-- What a read of entry e returns: the shadow in SETUP and PENDING, the active copy in IDLE (R350). -/
def entryRead (s : State) (e : Nat) : List Byte :=
  let x := s.entryOf e
  copyBytes (if x.state = 0 then x.active else x.shadow)

/-- Opening an entry (R16). -/
def openEntry (s : State) (e : Nat) : State × Nat :=
  let x := s.entryOf e
  if e > 1023 then (s, St.range)
  else if x.state = 2 then (s, St.state)
  else (s.setEntry e { x with state := 1, shadow := x.active }, St.ok)

/-- Writing an entry's fields: to the shadow in SETUP, else refused with STATE (R16, R350). -/
def writeEntry (s : State) (e : Nat) (l : List Byte) : State × Nat :=
  let x := s.entryOf e
  if e > 1023 then (s, St.noObject)
  else if x.state ≠ 1 then (s, St.state)
  else if l.length ≠ 20 ∨ natAt l 17 3 ≠ 0 ∨ natAt l 16 1 > 1 then (s, St.range)
  else (s.setEntry e { x with shadow := copyOf l }, St.ok)

/-- The epoch boundary a commit request made at device time t is executed at (R17). -/
def commitBoundary (t : Time) : Time :=
  let b := (t / 10000000 + 1) * 10000000
  if t + 500000 ≤ b then b else b + 10000000

/-- Every entry of one state changed by f. -/
def mapEntries (s : State) (p : TrellisEntry → Bool) (f : TrellisEntry → TrellisEntry) : State :=
  (s.trellis.entries.filter fun e => p e.2).foldl (fun t e => t.setEntry e.1 (f e.2)) s

/-- Some entry has the property. -/
def anyEntry (s : State) (p : TrellisEntry → Bool) : Bool := s.trellis.entries.any fun e => p e.2

/-- An empty change is accepted for boundary b; each is a commit of its own. -/
def emptyCommit (s : State) (b : Time) : State :=
  { s with trellis := { s.trellis with emptyCommits := s.trellis.emptyCommits ++ [b] } }

/-- Every SETUP entry moves to PENDING for boundary b; with none, an empty change is accepted. -/
def toPending (s : State) (b : Time) : State :=
  if anyEntry s fun e => e.state == 1 then
    let t := mapEntries s (fun e => e.state == 1) fun e => { e with state := 2, boundary := b }
    { t with trellis := { t.trellis with lastAction := 1 } }
  else emptyCommit s b

/-- A commit request (R16, R17). -/
def commitRequest (s : State) : State × Nat := (toPending s (commitBoundary s.time.dev), St.ok)

/-- A cancel: PENDING entries whose boundary lies at least 500 µs ahead return to SETUP; STATE if none does
(R16, R351). -/
def cancel (s : State) : State × Nat :=
  let p := fun e : TrellisEntry => e.state == 2 && decide (s.time.dev + 500000 ≤ e.boundary)
  if anyEntry s p then (mapEntries s p fun e => { e with state := 1 }, St.ok) else (s, St.state)

/-- The cause for which a due, enabled entry fails by itself (R18): 2 ID, 3 gain or offset, 4 maximum age, 0 none. -/
def copyCause (s : State) (c : TrellisCopy) : Nat :=
  if !producerOk c.producer || !consumerOk s c.consumer then 2
  else if !F32.isFinite c.gain || !F32.isFinite c.offset then 3
  else if c.maxAge < 1 ∨ c.maxAge > 10000000 then 4
  else 0

/-- The first failing entry of a route set and its cause. Each row is an entry's number, the copy it would have, and
whether it is one of the entries under test (R18). -/
def firstFailure (s : State) (rows : List (Nat × TrellisCopy × Bool)) : Option (Nat × Nat) :=
  rows.findSome? fun r =>
    if r.2.1.enable ≠ 1 then none
    else if rows.any fun q => q.1 != r.1 && q.2.1.enable == 1 && q.2.1.consumer == r.2.1.consumer then some (r.1, 1)
    else if r.2.2 && copyCause s r.2.1 != 0 then some (r.1, copyCause s r.2.1)
    else none

/-- A failure is recorded, counted and logged (R18, R351). -/
def commitFailed (s : State) (f : Nat × Nat) : State :=
  { s with trellis := { s.trellis with
      lastAction := 3, lastFailure := f.1 + 65536 * f.2, failures := s.trellis.failures + 1 } }.log 0x1302
    (leBytes 2 f.1 ++ leBytes 1 f.2)

/-- A Prepare for boundary b (R351). A target that is no boundary, or nearer than 500 µs, answers RANGE and records no
failure (log entry 9). -/
def prepare (s : State) (b : Time) : State × Nat :=
  if b % 10000000 ≠ 0 ∨ b < s.time.dev + 500000 then (s, St.range)
  else
    let rows := s.trellis.entries.map fun e =>
      (e.1, (if e.2.state = 1 ∨ (e.2.state = 2 ∧ e.2.boundary ≤ b) then e.2.shadow else e.2.active), e.2.state == 1)
    if !anyEntry s fun e => e.state == 1 then (emptyCommit s b, St.ok)
    else
      match firstFailure s rows with
      | some f => (commitFailed s f, St.range)
      | none => (toPending s b, St.ok)

/-- The go confirmation is counted (R20). -/
def goConfirm (s : State) : State × Nat :=
  ({ s with trellis := { s.trellis with goes := s.trellis.goes + 1 } }, St.ok)

/-- n commits succeed at boundary b. -/
def commitDone (s : State) (b : Time) (n : Nat) : State :=
  { s with trellis := { s.trellis with
      lastAction := 2, lastBoundary := b, commits := (s.trellis.commits + n) % 4294967296 } }

/-- The empty commits assigned to boundary b are executed: each changes no entry and is counted (R17). -/
def emptyCommitsDone (s : State) (b : Time) : State :=
  let n := (s.trellis.emptyCommits.filter fun x => decide (x ≤ b)).length
  let t := { s with trellis := { s.trellis with emptyCommits := s.trellis.emptyCommits.filter fun x => decide (b < x) } }
  if n = 0 then t else commitDone t b n

/-- The commit at epoch boundary b (R17, R18). The empty commits of the boundary come first, so that a failure of the
entries due is the last action shown (log entry 110). -/
def boundaryCommit (s : State) (b : Time) : State :=
  let s := emptyCommitsDone s b
  let dueP := fun e : TrellisEntry => e.state == 2 && decide (e.boundary ≤ b)
  let rows := s.trellis.entries.map fun e => (e.1, (if dueP e.2 then e.2.shadow else e.2.active), dueP e.2)
  if anyEntry s dueP then
    match firstFailure s rows with
    | some f =>
      commitFailed (mapEntries s dueP fun e => { e with state := 1 }) f
    | none =>
      commitDone (mapEntries s dueP fun e =>
        { e with state := 0, active := e.shadow, past := (b, e.active) :: e.past }) b 1
  else s

/-- A write of a ring's configuration: the whole ring lies in system SRAM or DRAM (R21, R352). -/
def writeRing (s : State) (k : Nat) (l : List Byte) : State × Nat :=
  let r : Ring := ⟨natAt l 0 8, natAt l 8 2, natAt l 10 1, 0⟩
  if k > 255 then (s, St.noObject)
  else if l.length ≠ 16 then (s, St.range)
  else if (r.base ≠ 0 ∧ inSramOrDram s r.base (r.depth * (if r.mode = 0 then 16 else 128)) = false) ∨ r.base % 64 ≠ 0
      ∨ (r.base ≠ 0 ∧ r.depth < 2) ∨ r.mode > 1 ∨ natAt l 11 5 ≠ 0 then (s, St.range)
  else if bound s (0x300 + k) then (s, St.busy)
  else (s.setRing k r, St.ok)

/-- EPOCH_BOUNDARY_COMMIT (R18): the next epoch boundary comes. -/
def execEpochBoundaryCommit (s : State) : Res := whenServing s <|
  let b := gridNext 10000000 s.trellis.lastEpoch s.time.dev
  let t := s.devTo b
  .next (boundaryCommit { t with trellis := { t.trellis with lastEpoch := some b } } b)

end Sys2Proof.Machine
end

