-- ==== Sys2Proof/Machine/Governor.lean ====
section
/-!
DEFINITION. The Draught governor: automatic machine settings (09_draught_governor.md R213 to R236). Quantities over a
window are exact quotients narrowed once to binary32, and costs are summed in binary32 from the left (log entry 25).
-/
namespace Sys2Proof.Machine

namespace State
def govFn (s : State) (m : Nat) : GovFn := Tbl.get s.gov.fns {} m
def setGovFn (s : State) (m : Nat) (x : GovFn) : State := { s with gov := { s.gov with fns := Tbl.set s.gov.fns {} m x } }
def govRule (s : State) (r : Nat) : GovRule := Tbl.get s.gov.rules {} r
def setGovRule (s : State) (r : Nat) (x : GovRule) : State :=
  { s with gov := { s.gov with rules := Tbl.set s.gov.rules {} r x } }
/-- A number of object 0x2700 + m. -/
def mfN (s : State) (m sub : Nat) : Nat := s.objN (0x2700 + m) sub
/-- A binary32 value of object 0x2700 + m. -/
def mfF (s : State) (m sub : Nat) : F32 := s.objF (0x2700 + m) sub
end State

/-- Function numbers. -/
def govFns : List Nat := List.range 48

/-! Targets (Table 9-1) -/

/-- A field of a stage register as software reads it. -/
def stageField (s : State) (f : Fld) : Nat := bits (stageRd s f.addr) f.lsb f.width

/-- The value of the target of MFm, in the target's unit, as a read of the target object finds it. -/
def targetRead (s : State) (m : Nat) : F32 :=
  let n := s.mfN m 0x02
  match s.mfN m 0x01 with
  | 1 => s.rd (R.ceLspdict n)
  | 2 => F32.ofRat (stageField s (R.sdCcurHold n)) 64
  | 3 => F32.ofRat (stageField s (R.sdCdutyDuty n)) 1000
  | 4 => F32.ofRat (stageField s (R.lsCdutyDuty n)) 4000
  | 5 =>
    match Tbl.get s.oem none (objKey n (s.mfN m 0x03)) with
    | some ⟨_, _, .num v⟩ => BitVec.ofNat 32 v
    | _ => 0
  | _ => 0

/-- The condition on the target of MFm (Table 9-1). -/
def targetHolds (s : State) (m : Nat) : Bool :=
  let n := s.mfN m 0x02
  match s.mfN m 0x01 with
  | 1 => decide (n < 64) && s.loopState n == 2 && pBits (s.loopAt n).active 0 5 2 == 1
  | 2 => decide (n < 48) && s.sdMode n == 2 && !s.flag (R.sdCstatOwned n)
  | 3 => decide (n < 48) && s.sdMode n == 3
  | 4 => decide (n < 32) && s.lsMode n == 2 && !s.flag (R.lsCstatOwned n)
  | 5 => decide (0x4000 ≤ n ∧ n ≤ 0x7FFF) &&
    (match Tbl.get s.oem none (objKey n (s.mfN m 0x03)) with
     | some o => o.typ == .f32 && (o.acc == .rw || o.acc == .rwk)
     | none => false)
  | _ => false

/-- A write of a value to the target object of MFm: the state, and whether the target took it (R214). -/
def targetWrite (s : State) (m : Nat) (v : F32) : State × Bool :=
  let n := s.mfN m 0x02
  if !F32.isFinite v then (s, false)
  else
    match s.mfN m 0x01 with
    | 1 => if n < 64 then (setPointWrite s n v, true) else (s, false)
    | 2 =>
      if n < 48 ∧ F32.le 0x3DE00000 v ∧ F32.le v 0x41000000 then
        let r := stagePost s (R.sdCcur n) (BitVec.ofInt 32 (F32.roundEven v 64 1)) (some 0)
        (r.1, r.2 == 0)
      else (s, false)
    | 3 =>
      let d := F32.roundEven v 1000 1
      if n < 48 ∧ 0 ≤ d ∧ d ≤ 1000 then
        let r := stagePost s (R.sdCduty n) (BitVec.ofInt 32 d) (some 0)
        (r.1, r.2 == 0)
      else (s, false)
    | 4 =>
      if n < 32 ∧ F32.le 0 v ∧ F32.le v F32.one then
        let r := stagePost s (R.lsCduty n) (BitVec.ofInt 32 (F32.roundEven v 4000 1)) (some 0)
        (r.1, r.2 == 0)
      else (s, false)
    | 5 =>
      if targetHolds s m then
        let k := objKey n (s.mfN m 0x03)
        match Tbl.get s.oem none k with
        | some o => ({ s with oem := Tbl.set s.oem none k (some { o with value := .num v.toNat }) }, true)
        | none => (s, false)
      else (s, false)
    | _ => (s, false)

/-- The target's value in the function's unit: (target − offset) / gain (R218). -/
def readBack (s : State) (m : Nat) : F32 := F32.div (F32.sub (targetRead s m) (s.mfF m 0x05)) (s.mfF m 0x04)

/-- A function value converted for its target: gain × value + offset. -/
def converted (s : State) (m : Nat) (v : F32) : F32 := F32.add (F32.mul (s.mfF m 0x04) v) (s.mfF m 0x05)

/-! Configuration and states (R215, R218) -/

/-- Whether a configured function is valid (R215). -/
def fnValid (s : State) (m : Nat) : Bool :=
  F32.lt (s.mfF m 0x06) (s.mfF m 0x07) && F32.lt 0 (s.mfF m 0x08)
    && F32.le (s.mfF m 0x08) (F32.sub (s.mfF m 0x07) (s.mfF m 0x06)) && F32.le 0 (s.mfF m 0x09)
    && !F32.isZero (s.mfF m 0x04)

def inEnvelope (s : State) (m : Nat) (v : F32) : Bool := F32.le (s.mfF m 0x06) v && F32.le v (s.mfF m 0x07)

/-- READY, or OUTSIDE with its event where the value lies outside the envelope (R218). -/
def fnPlace (s : State) (m : Nat) (x : GovFn) : State :=
  if inEnvelope s m x.present then s.setGovFn m { x with state := 1, moving := false }
  else (s.setGovFn m { x with state := 5, moving := false }).log 0x0D08 (d8 m ++ F32.toBytes x.present)

/-- The value of a function taken from its target (R218); a freeze that still runs goes on (R223). -/
def fnTake (s : State) (m : Nat) : State :=
  let v := readBack s m
  let x := { s.govFn m with present := v, commanded := v, written := v, moving := false }
  if s.gov.tick < x.freezeEnd then s.setGovFn m { x with state := 4 } else fnPlace s m x

/-- A function enters FAULT (R214, R215). -/
def fnFault (s : State) (m cause : Nat) : State :=
  let x := s.govFn m
  if x.state = 6 then s
  else (s.setGovFn m { x with state := 6, moving := false }).log 0x0D07 (d8 m ++ d8 cause)

/-- A counter of a function counts one. -/
def fnCount (s : State) (m k : Nat) : State :=
  let x := s.govFn m
  s.setGovFn m { x with counters := x.counters.set k ((x.counters.getD k 0 + 1) % 4294967296) }

/-- Past its settle instant: no move, no freeze, and the tick at or after the instant. -/
def settled (s : State) (x : GovFn) : Bool := !x.moving && x.state != 4 && decide (x.settle ≤ s.gov.tick)

/-- A function is commanded to a value; the move starts at the next tick. -/
def fnCommand (s : State) (m : Nat) (c : F32) (state : Nat) : State :=
  let x := s.govFn m
  s.setGovFn m { x with commanded := c, moving := true, origin := x.present, since := s.gov.tick, state := state }

/-- A value change of the governor is logged: event 0x0D01. -/
def logChange (s : State) (m : Nat) (old new : F32) (cause : Nat) : State :=
  s.log 0x0D01 (d8 m ++ F32.toBytes old ++ F32.toBytes new ++ d8 cause)

/-! Inputs (R219 to R221) -/

/-- Governor inputs bound: flow, separation loss, cleaning loss, tailings, quality. -/
def inputBound (s : State) (k : Nat) : Bool := bound s (0x400 + k)

/-- The published values of an input over a window of `len` ns ending at t (R220). -/
def inputWindow (s : State) (k : Nat) (t : Time) (len : Nat) : List Sample :=
  (Tbl.get s.delivery.history [] k).filter fun x : Sample => decide (x.ts ≤ t ∧ t < x.ts + len)

/-- Second component of a record. -/
def second (x : Sample) : F32 := F32.ofBytes (x.record.drop 4)

/-- Sum of values in units of 2^-149; none where one of them is not finite or the window is empty. -/
def exactSum (l : List F32) : Option Int :=
  if l.isEmpty || !l.all F32.isFinite then none else some ((l.map F32.exact).sum)

/-- The quotient of two exact numbers narrowed once; not a number for a divisor that is not above 0. -/
def exactDiv (n d : Int) : F32 := if 0 < d then F32.ofRat n d.toNat else F32.nan

/-- 100 × mean of an input over the mean flow (Table 9-3). -/
def lossPercent (s : State) (k : Nat) (t : Time) (len : Nat) : F32 :=
  let l := inputWindow s k t len
  let f := inputWindow s 0 t len
  match exactSum (l.map (·.value)), exactSum (f.map (·.value)) with
  | some a, some b => exactDiv (100 * a * (f.length : Int)) (b * (l.length : Int))
  | _, _ => F32.nan

/-- 100 × mean of a fraction. -/
def meanPercent (l : List F32) : F32 :=
  match exactSum l with
  | some a => F32.ofRat (100 * a) (F32.unit * l.length)
  | none => F32.nan

/-- Governor quantity x_i over a window (Table 9-3). -/
def govInput (s : State) (i : Nat) (t : Time) (len : Nat) : F32 :=
  if i < 3 then lossPercent s (i + 1) t len
  else
    let l := inputWindow s 4 t len
    meanPercent (if i = 3 then l.map (·.value) else l.map second)

/-- Whether the input of governor quantity x_i is bound. -/
def quantityBound (s : State) (i : Nat) : Bool := inputBound s (if i < 3 then i + 1 else 4)

/-- Mean flow over a window. -/
def meanFlow (s : State) (t : Time) (len : Nat) : F32 :=
  let l := inputWindow s 0 t len
  match exactSum (l.map (·.value)) with
  | some a => F32.ofRat a (F32.unit * l.length)
  | none => F32.nan

/-- Whether the standard deviation of the flow over its mean is below the threshold (R221). -/
def flowSteady (s : State) (t : Time) (len : Nat) : Bool :=
  let l := (inputWindow s 0 t len).map (·.value)
  match exactSum l with
  | none => false
  | some a =>
    let sq := ((l.map fun v => F32.exact v * F32.exact v).sum) * (l.length : Int) - a * a
    let thr := F32.exact (s.objF 0x2780 0x04)
    decide (0 < a ∧ sq * ((F32.unit * F32.unit : Nat) : Int) < thr * thr * a * a)

/-- Whether an input has a value in every second of the steady window, each confident enough (R221). -/
def inputConfident (s : State) (k : Nat) (t : Time) (secs : Nat) : Bool :=
  let least := F32.roundScaled (s.objF 0x2780 0x02) 65535 1
  let l := inputWindow s k t (sec secs)
  (List.range secs).all (fun j => l.any fun x => decide (x.ts + sec j ≤ t ∧ t < x.ts + sec (j + 1)))
    && l.all fun x => decide (least ≤ (natAt x.record 36 2 : Int))

/-- The failing conditions of R221, bit per condition. -/
def govFails (s : State) (t : Time) : Nat :=
  let w := s.objN 0x2780 0x03
  let b := fun (k : Nat) (ok : Bool) => if ok then 0 else 2 ^ k
  b 0 (s.objN 0x2780 0x01 == 1) + b 1 s.activeHearth
    + b 2 (inputBound s 0 && F32.le (s.objF 0x2780 0x05) (meanFlow s t (sec w)))
    + b 3 (inputBound s 0 && flowSteady s t (sec w))
    + b 4 ((List.range 5).all fun k => !inputBound s k || inputConfident s k t w)

/-- The cost J over a window ending at t (R228). -/
def govCost (s : State) (t : Time) (len : Nat) : F32 :=
  let w := fun i : Nat => F32.ofBytes ((s.objB 0x2780 0x08).drop (4 * i))
  let j := (List.range 5).foldl (fun (acc : F32) i =>
    if quantityBound s i then F32.add acc (F32.mul (w i) (govInput s i t len)) else acc) 0
  F32.sub j (F32.mul (w 5) (meanFlow s t len))

/-- The caps hold over a window ending at t. -/
def capsOk (s : State) (t : Time) (len : Nat) : Bool :=
  (List.range 5).all fun i =>
    !quantityBound s i || F32.le (govInput s i t len) (F32.ofBytes ((s.objB 0x2780 0x09).drop (4 * i)))

/-! Operator and external changes (R223, R224) -/

/-- A function is changed by an operator or another writer and becomes FROZEN. -/
def fnChanged (s : State) (m : Nat) (v : F32) (source : Nat) : State :=
  let x := s.govFn m
  let t := s.setGovFn m { x with
    state := 4, present := v, commanded := v, written := v, moving := false, op := none, owed := none,
    freezeEnd := s.gov.tick + 10 * s.mfN m 0x0B }
  (fnCount t m 4).log 0x0D02 (d8 m ++ F32.toBytes v ++ d8 source)

/-- OPERATOR_CHANGE and EXTERNAL_CHANGE of MFm at this tick: the state, and whether MFm changed. -/
def fnWatch (s : State) (m : Nat) : State × Bool :=
  let x := s.govFn m
  if s.mfN m 0x01 = 0 then (s.setGovFn m { x with op := none }, false)
  else
    match x.op with
    | some v =>
      let r := targetWrite s m (converted s m v)
      if r.2 then (fnChanged r.1 m v 0, true)
      else (fnFault (r.1.setGovFn m { r.1.govFn m with op := none }) m 2, false)
    | none =>
      if x.state = 0 ∨ x.state = 6 then (s, false)
      else
        let v := readBack s m
        if F32.lt (F32.mul F32.half (s.mfF m 0x08)) (F32.abs (F32.sub v x.written)) then (fnChanged s m v 1, true)
        else (s, false)

/-- The freeze of a function ends (R223). -/
def fnThaw (s : State) (m : Nat) : State :=
  let x := s.govFn m
  fnPlace s m { x with settle := x.freezeEnd }

/-- A freeze that has run out ends. -/
def fnThawDue (s : State) (m : Nat) : State :=
  if (s.govFn m).state = 4 ∧ (s.govFn m).freezeEnd ≤ s.gov.tick then fnThaw s m else s

/-- A revert of MFf to a value it had before a trial (R233). -/
def fnRevert (s : State) (f : Nat) (v0 : F32) : State :=
  logChange (fnCount (fnCommand s f v0 2) f 2) f (s.govFn f).present v0 2

/-- The revert that a FAULT kept off, when the function has left FAULT (R231). -/
def fnOwed (s : State) (m : Nat) : State :=
  match (s.govFn m).owed with
  | none => s
  | some v0 =>
    let t := s.setGovFn m { s.govFn m with owed := none }
    if (s.govFn m).state = 1 then fnRevert t m v0 else t

/-- A function leaves FAULT or is configured (R215, R218). A target that another writer changed meanwhile is not reverted
(R224). -/
def fnLeave (s : State) (m : Nat) : State :=
  let x := s.govFn m
  let kept := F32.le (F32.abs (F32.sub (readBack s m) x.written)) (F32.mul F32.half (s.mfF m 0x08))
  fnOwed (fnTake (s.setGovFn m { x with owed := if kept then x.owed else none }) m) m

/-- Target condition and configuration of MFm (R214, R215, R218). -/
def fnCheck (s : State) (m : Nat) : State :=
  let x := s.govFn m
  if s.mfN m 0x01 = 0 then
    s.setGovFn m { x with state := 0, moving := false, op := none, owed := none, freezeEnd := 0 }
  else if !fnValid s m then fnFault s m 1
  else if !targetHolds s m then fnFault s m 3
  else if x.state = 0 ∨ x.state = 6 then fnLeave s m
  else if x.state = 5 ∧ inEnvelope s m x.present then fnPlace s m x
  else if x.state = 1 ∧ inEnvelope s m x.present = false then fnPlace s m x
  else s

/-! Search (R228 to R233) -/

/-- Whether function a comes before function b in search order. -/
def searchBefore (s : State) (a b : Nat) : Bool :=
  decide (s.mfN a 0x0C < s.mfN b 0x0C ∨ (s.mfN a 0x0C = s.mfN b 0x0C ∧ a ≤ b))

/-- A function put into a list in search order. -/
def searchInsert (s : State) (a : Nat) : List Nat → List Nat
  | [] => [a]
  | b :: l => if searchBefore s a b then a :: b :: l else b :: searchInsert s a l

/-- The functions of rank 1 and above in search order. -/
def searchOrder (s : State) : List Nat :=
  (govFns.filter fun m => decide (1 ≤ s.mfN m 0x0C ∧ s.mfN m 0x01 ≠ 0)).foldr (searchInsert s) []

/-- Search order from the pointer on, wrapping. -/
def searchFrom (s : State) : List Nat :=
  let l := searchOrder s
  match s.gov.pointer with
  | none => l
  | some p => (l.dropWhile fun m => m != p) ++ (l.takeWhile fun m => m != p)

/-- The next eligible function. -/
def nextEligible (s : State) : Option Nat :=
  (searchFrom s).find? fun m => (s.govFn m).state == 1 && settled s (s.govFn m)

/-- The pointer past function f. -/
def pastPointer (s : State) (f : Nat) : State :=
  let l := searchOrder s
  let next := (l.dropWhile fun m => m != f).drop 1
  { s with gov := { s.gov with pointer := next.head? } }

/-- The search returns to BASELINE. -/
def toBaseline (s : State) : State := { s with gov := { s.gov with phase := 0, winEnd := none, trial := none } }

/-- TRIAL_ABANDON: the trial ends with a cause; `revert` says whether its function goes back (R230, R231). A function in FAULT
does not move; it goes back when it has left FAULT. -/
def trialAbandon (s : State) (cause : Nat) (revert : Bool) : State :=
  match s.gov.trial with
  | none => s
  | some f =>
    let t := s.log 0x0D09 (d8 f ++ d8 cause)
    let t := if revert = false then t
      else if (t.govFn f).state = 6 then t.setGovFn f { t.govFn f with owed := some s.gov.v0 }
      else fnRevert t f s.gov.v0
    toBaseline { t with gov := { t.gov with pointer := some f } }

/-- The trial value of MFf: direction kept or turned, and the value; none without room (R228). -/
def trialValue (s : State) (f : Nat) : Option (Bool × F32) :=
  let x := s.govFn f
  let at_ := fun down : Bool =>
    F32.clamp (F32.add x.present (if down then F32.neg (s.mfF f 0x08) else s.mfF f 0x08)) (s.mfF f 0x06) (s.mfF f 0x07)
  if !F32.eq (at_ x.down) x.present then some (x.down, at_ x.down)
  else if !F32.eq (at_ (!x.down)) x.present then some (!x.down, at_ (!x.down))
  else none

/-- SEARCH_STEP: phase STEP for MFf; without room in either direction the direction stays turned (R228). -/
def searchStep (s : State) (f : Nat) : State :=
  match trialValue s f with
  | none => toBaseline (pastPointer (s.setGovFn f { s.govFn f with down := !(s.govFn f).down }) f)
  | some (down, c) =>
    let v0 := (s.govFn f).present
    let t := s.setGovFn f { s.govFn f with down := down }
    let t := logChange (fnCount (fnCommand t f c 3) f 0) f v0 c 1
    { t with gov := { t.gov with phase := 1, trial := some f, v0 := v0, winEnd := none, pointer := some f } }

/-- End of the baseline window: J0 is known and the trial starts (R228). -/
def baselineEnd (s : State) (t : Time) (ruled : Bool) : State :=
  let u := { s with gov := { s.gov with j0 := govCost s t (sec (s.objN 0x2780 0x06)), winEnd := none } }
  let f := s.gov.cand
  if !ruled && (u.govFn f).state == 1 && settled u (u.govFn f) then searchStep u f else toBaseline u

/-- End of the evaluation window: J1 is known; keep or revert (R228, R229). -/
def evaluationEnd (s : State) (t : Time) (ruled : Bool) (f : Nat) : State :=
  let len := sec (s.objN 0x2780 0x06)
  let j0 := s.gov.j0
  let j1 := govCost s t len
  let kept := capsOk s t len && F32.lt j1 (F32.sub j0 (s.objF 0x2780 0x07))
  let u := ({ s with gov := { s.gov with j1 := j1 } }).log 0x0D03
    (d8 f ++ F32.toBytes j0 ++ F32.toBytes j1 ++ d8 (if kept then 1 else 0))
  if kept then
    let x := u.govFn f
    let u := fnCount (u.setGovFn f { x with state := 1 }) f 1
    let u := toBaseline (pastPointer { u with gov := { u.gov with j0 := j1 } } f)
    match nextEligible u with
    | some g => if ruled then u else searchStep u g
    | none => u
  else
    let u := fnRevert u f s.gov.v0
    toBaseline (pastPointer (u.setGovFn f { u.govFn f with down := !(u.govFn f).down }) f)

/-- The search at tick time t (R228); `ruled` says whether a rule acted at this tick. -/
def search (s : State) (t : Time) (ruled : Bool) : State :=
  match s.gov.trial with
  | some f =>
    if s.gov.phase = 1 then
      if settled s (s.govFn f) then
        { s with gov := { s.gov with phase := 2,
                                     winEnd := some ((s.govFn f).settle + 10 * s.objN 0x2780 0x06) } }
      else s
    else
      match s.gov.winEnd with
      | some e => if e ≤ s.gov.tick then evaluationEnd s t ruled f else s
      | none => s
  | none =>
    match s.gov.winEnd with
    | some e => if e ≤ s.gov.tick then baselineEnd s t ruled else s
    | none =>
      if govFns.all fun m => s.mfN m 0x01 == 0 || settled s (s.govFn m) then
        match nextEligible s with
        | some f => { s with gov := { s.gov with cand := f, winEnd := some (s.gov.tick + 10 * s.objN 0x2780 0x06) } }
        | none => s
      else s

/-! Rules (R225 to R227) -/

/-- Rule record r. -/
def ruleRec (s : State) (r : Nat) : List Byte := s.objB 0x2780 (0x10 + r)

/-- Whether rule r is due (R225). -/
def ruleDue (s : State) (t : Time) (r : Nat) : Bool :=
  let l := ruleRec s r
  natAt l 0 1 == 1 && quantityBound s (natAt l 2 1)
    && (match (s.govRule r).acted with
        | some a => decide (a + 10 * natAt l 12 2 ≤ s.gov.tick)
        | none => true)
    && F32.lt (F32.ofBytes (l.drop 4)) (govInput s (natAt l 2 1) t (sec (s.objN 0x2780 0x0A)))

/-- Whether due rule r has the lowest priority of the due rules on its function (R226). -/
def ruleWins (s : State) (due : List Nat) (r : Nat) : Bool :=
  due.all fun q => natAt (ruleRec s q) 3 1 != natAt (ruleRec s r) 3 1
    || decide (natAt (ruleRec s r) 1 1 < natAt (ruleRec s q) 1 1
        ∨ (natAt (ruleRec s r) 1 1 = natAt (ruleRec s q) 1 1 ∧ r ≤ q))

/-- A skip of rule r; event 0x0D05 once per episode where it is told (R225, R226). -/
def ruleSkip (s : State) (r : Nat) (told : Bool) : State :=
  let x := s.govRule r
  let t := s.setGovRule r { x with skips := (x.skips + 1) % 4294967296, episode := x.episode || told }
  if told && !x.episode then t.log 0x0D05 (d8 r ++ d8 1) else t

/-- RULE_ACTION: rule r acts (R227, R232). -/
def ruleAct (s : State) (r : Nat) : State :=
  let l := ruleRec s r
  let m := natAt l 3 1
  let x := s.govFn m
  let v := if x.state = 3 then s.gov.v0 else x.present
  let c := F32.clamp (F32.add v (F32.ofBytes (l.drop 8))) (s.mfF m 0x06) (s.mfF m 0x07)
  let g := s.govRule r
  let t := s.setGovRule r { g with acted := some s.gov.tick, actions := (g.actions + 1) % 4294967296, episode := false }
  if F32.eq c v then t.log 0x0D05 (d8 r ++ d8 2)
  else
    let t := (fnCount (fnCommand t m c 2) m 3).log 0x0D04 (d8 r ++ d8 m ++ l.drop 8 |>.take 6)
    logChange t m x.present c 3

/-- A due rule acts or is skipped; the list holds the functions that rules have acted on. -/
def ruleRun (due : List Nat) (a : State × List Nat) (r : Nat) : State × List Nat :=
  let m := natAt (ruleRec a.1 r) 3 1
  let x := a.1.govFn m
  if !ruleWins a.1 due r then (ruleSkip a.1 r false, a.2)
  else if (x.state = 1 ∨ x.state = 3) ∧ settled a.1 x then (ruleAct a.1 r, a.2 ++ [m])
  else (ruleSkip a.1 r true, a.2)

/-- Rules at tick time t: the state, and the functions acted on. -/
def runRules (s : State) (t : Time) : State × List Nat :=
  let rs := List.range 64
  let due := rs.filter (ruleDue s t)
  let s := (rs.filter fun r => (s.govRule r).episode && !due.contains r).foldl
    (fun (u : State) r => u.setGovRule r { u.govRule r with episode := false }) s
  due.foldl (ruleRun due) (s, [])

/-! Moves (R217) -/

/-- The present value of a move after n ticks. -/
def moveValue (x : GovFn) (rate : F32) (n : Nat) : F32 :=
  let gap := F32.exact x.commanded - F32.exact x.origin
  let way := F32.exact rate * (n : Int)
  if F32.isZero rate ∨ (gap.natAbs : Int) * 10 ≤ way ∨ !F32.isFinite rate then x.commanded
  else F32.ofRat (10 * F32.exact x.origin + (if 0 ≤ gap then way else -way)) (10 * F32.unit)

/-- FUNCTION_MOVE of MFm at this tick (R214, R217). -/
def fnMove (s : State) (m : Nat) : State :=
  let x := s.govFn m
  if !x.moving ∨ s.gov.tick ≤ x.since then s
  else
    let v := moveValue x (s.mfF m 0x09) (s.gov.tick - x.since)
    let r := targetWrite s m (converted s m v)
    if r.2 = false then fnFault r.1 m 2
    else
      let x := { x with present := v, written := v }
      if F32.eq v x.commanded then
        r.1.setGovFn m { x with moving := false, settle := s.gov.tick + 10 * s.mfN m 0x0A,
                                state := if x.state = 2 then 1 else x.state }
      else r.1.setGovFn m x

/-! Ticks -/

/-- The instant of the next tick. -/
def govInstant (s : State) : Time := gridNext (ms 100) s.gov.last s.time.dev

/-- The failing conditions at a tick, with event 0x0D06 at a change of the active state (R221, R222). -/
def govActive (s : State) (t : Time) : State :=
  let f := govFails s t
  let u := { s with gov := { s.gov with fails := f, active := f == 0 } }
  if (f == 0) == s.gov.active then u else u.log 0x0D06 (d8 f)

/-- Step 5: a trial under way is abandoned for what steps 1 to 4 found (R230). `a` is the state after step 3 and the functions
changed in step 1, `r` the state after step 4 and the functions that rules acted on. A trial function that step 1 did not
change and that is no longer in TRIAL has entered FAULT. -/
def govAbandon (a r : State × List Nat) : State :=
  match a.1.gov.trial with
  | none => r.1
  | some f =>
    let under := (r.1.govFn f).state == 3
    if !a.2.isEmpty then trialAbandon r.1 2 (under || ((a.1.govFn f).state != 3 && !a.2.contains f && !r.2.contains f))
    else if (a.1.govFn f).state ≠ 3 then trialAbandon r.1 4 (!r.2.contains f)
    else if !a.1.gov.active then trialAbandon r.1 1 true
    else if !r.2.isEmpty then trialAbandon r.1 3 under
    else r.1

/-- Steps 1 to 7 of a tick at device time t (R234). -/
def govSteps (s : State) (t : Time) : State :=
  let s := govFns.foldl fnThawDue s
  let a := govFns.foldl (fun (a : State × List Nat) m =>
    let r := fnWatch a.1 m
    (r.1, if r.2 then a.2 ++ [m] else a.2)) (s, [])
  let s := govActive (govFns.foldl fnCheck a.1) t
  let r : State × List Nat := if s.gov.active then runRules s t else (s, [])
  let u := govAbandon (s, a.2) r
  let u := if s.gov.active then search u t (!r.2.isEmpty) else if s.gov.trial.isNone then toBaseline u else u
  govFns.foldl fnMove u

/-- One tick: nothing in the Pavilion role; a standby Hearth only leaves the active state (R213, R221, R236). -/
def govTick (s : State) : State :=
  let t := govInstant s
  let s := s.devTo t
  let s := { s with gov := { s.gov with last := some t } }
  let s := if s.activeHearth then govSteps s t else if s.hearth then govActive s t else s
  { s with gov := { s.gov with tick := s.gov.tick + 1 } }

/-- GOVERNOR_TICK (R234). -/
def execGovernorTick (s : State) : Res := whenRt 1 s <| .next (govTick s)

/-- n ticks run. -/
def govRun : Nat → State → State
  | 0, s => s
  | n + 1, s => govRun n (govTick s)

/-- The ticks run until tick number k is the next one (R213). -/
def govPass (s : State) (k : Nat) : State := govRun (k - s.gov.tick) s

/-- FREEZE_END (R223): the freeze time of MFm ends. -/
def execFreezeEnd (m : Nat) (s : State) : Res := whenRt 1 s <|
  let x := s.govFn m
  if m > 47 ∨ x.state ≠ 4 then .next s
  else
    let s := govPass s x.freezeEnd
    .next (fnThawDue (s.devTo (govInstant s)) m)

/-- SETTLE_INSTANT (R217): the dwell of MFm after its move ends; the dwell of a trial gives way to the evaluation. -/
def execSettleInstant (m : Nat) (s : State) : Res := whenRt 1 s <|
  let x := s.govFn m
  if m > 47 ∨ x.moving ∨ x.state = 4 ∨ x.settle < s.gov.tick then .next s
  else
    let s := govPass s x.settle
    let s := s.devTo (govInstant s)
    if s.gov.active ∧ s.gov.trial = some m ∧ s.gov.phase = 1 then .next (search s (govInstant s) false) else .next s

/-- GOVERNOR_WINDOW_END (R228): the tick at which the window being measured ends. -/
def execGovernorWindowEnd (s : State) : Res := whenRt 1 s <|
  match s.gov.winEnd with
  | none => .next s
  | some e => .next (govTick (govPass s e))

/-- The governor starts afresh: no trial, directions +1, the pointer at the first function, no freeze, values from the
targets (R235). -/
def govStart (s : State) : State :=
  let fns := s.gov.fns
  let s := { s with gov := { s.gov with fns := Tbl.update fns {} (fun (x : GovFn) => { x with
                                           down := false, moving := false, freezeEnd := 0, owed := none,
                                           state := if x.state = 4 then 1 else x.state }),
                                        trial := none, phase := 0, winEnd := none, pointer := none } }
  govFns.foldl (fun (u : State) m =>
    if u.mfN m 0x01 ≠ 0 ∧ fnValid u m ∧ targetHolds u m then fnTake u m else u) s

/-- A write of the governor enable, object 0x2780:01 (R221, R235). -/
def governorEnable (s : State) (v : Nat) : State × Nat :=
  if v > 1 then (s, St.range)
  else
    let on := decide (v = 1 ∧ s.objN 0x2780 0x01 = 0)
    let t := s.setObjN 0x2780 0x01 v
    (if on && s.activeHearth then govStart t else t, St.ok)

/-- An operator value for MFm, object 0x2700 + m:0E (R223). -/
def operatorWrite (s : State) (m : Nat) (v : F32) : State × Nat :=
  if !F32.isFinite v then (s, St.range) else (s.setGovFn m { s.govFn m with op := some v }, St.ok)

/-- After a takeover the new active module abandons and reverts any trial and resumes in BASELINE (R236). -/
def govTakeover (s : State) : State := toBaseline (trialAbandon s 5 true)

/-- The governor after a reset of the main die or an RTW (R235). -/
def govReset (s : State) : State := (s.setObjN 0x2780 0x01 0) |> fun t => { t with gov := {} }

/-- Whether a rule record meets Table 9-4. -/
def ruleValid (l : List Byte) : Bool :=
  decide (l.length = 16 ∧ natAt l 0 1 ≤ 1 ∧ natAt l 2 1 ≤ 4 ∧ natAt l 3 1 ≤ 47 ∧ natAt l 14 2 = 0)
    && (natAt l 0 1 == 0 && l.all (· == 0)
      || (F32.lt 0 (F32.ofBytes (l.drop 4)) && F32.isFinite (F32.ofBytes (l.drop 4))
        && F32.isFinite (F32.ofBytes (l.drop 8)) && !F32.isZero (F32.ofBytes (l.drop 8))
        && decide (1 ≤ natAt l 12 2 ∧ natAt l 12 2 ≤ 3600)))

end Sys2Proof.Machine
end

