-- ==== Sys2Proof/Machine/Steering.lean ====
section
/-!
DEFINITION. The steering guidance service (11_steering.md R255 to R267). Nearest points are found exactly and distances
narrowed once; trigonometry and the propagated pose are free (log entry 26), the law is binary32 (log entry 29).
-/
namespace Sys2Proof.Machine

namespace State
/-- A number of object 0x2900. -/
def stN (s : State) (sub : Nat) : Nat := s.objN 0x2900 sub
/-- A binary32 value of object 0x2900. -/
def stF (s : State) (sub : Nat) : F32 := s.objF 0x2900 sub
def setSteer (s : State) (x : Steering) : State := { s with steer := x }
end State

/-- π and 2π in binary32. -/
def piF : F32 := 0x40490FDB
def twoPiF : F32 := 0x40C90FDB
def halfPiF : F32 := 0x3FC90FDB

/-- An angle brought into (−π, π]. -/
def wrapAngle (x : F32) : F32 :=
  if F32.lt piF x then F32.sub x twoPiF else if F32.le x (F32.neg piF) then F32.add x twoPiF else x

/-! Lines (R257 to R260) -/

/-- Point k of a geometry blob. -/
def linePoint (l : List Byte) (k : Nat) : F32 × F32 := (F32.ofBytes (l.drop (8 * k)), F32.ofBytes (l.drop (8 * k + 4)))

/-- Difference of two points in units of 2^-149 m. -/
def gapOf (a b : F32 × F32) : Int × Int := (F32.exact b.1 - F32.exact a.1, F32.exact b.2 - F32.exact a.2)

/-- Squared length of a difference. -/
def norm2 (d : Int × Int) : Int := d.1 * d.1 + d.2 * d.2

/-- Length in m of a squared length n / d. -/
def lengthF (n : Int) (d : Nat) : F32 := F32.sqrt (F32.ofRat n (d * F32.unit * F32.unit))

/-- Squared length of a distance of n / 2 m. -/
def halves2 (n : Nat) : Int := ((n * F32.unit / 2) * (n * F32.unit / 2) : Nat)

/-- The first fault of a geometry: none when it is valid, else the point index (R257). -/
def geometryFault (kind : Nat) (l : List Byte) : Option Nat :=
  let n := l.length / 8
  let finite := (List.range (l.length / 4)).find? fun k => !F32.isFinite (F32.ofBytes (l.drop (4 * k)))
  match kind with
  | 1 =>
    if l.length ≠ 16 then some 0
    else match finite with
      | some k => some (k / 2)
      | none => if norm2 (gapOf (linePoint l 0) (linePoint l 1)) < halves2 10 then some 1 else none
  | 2 =>
    if l.length < 16 ∨ l.length > 4096 ∨ l.length % 8 ≠ 0 then some 0
    else match finite with
      | some k => some (k / 2)
      | none =>
        ((List.range (n - 1)).find? fun k =>
          let d := norm2 (gapOf (linePoint l k) (linePoint l (k + 1)))
          decide (d < halves2 1 ∨ halves2 100 < d)).map (· + 1)
  | 3 =>
    if l.length ≠ 12 then some 0
    else match finite with
      | some k => some (k / 2)
      | none => if F32.lt (F32.ofBytes (l.drop 8)) 0x40A00000 then some 0 else none
  | _ => if l.isEmpty then none else some 0

/-- A point of a line near the control point: offset to the left, heading, curvature in the defined direction. -/
structure OnLine where
  ey : F32
  psi : F32
  k : F32
deriving DecidableEq, Repr

/-- Heading of a direction, clockwise from north. -/
def headingOf (d : Int × Int) : F32 := Config.arcTan (F32.ofRat d.1 F32.unit) (F32.ofRat d.2 F32.unit)

/-- Signed curvature of the circle through three points, left positive (R259). -/
def circleCurvature (a b c : F32 × F32) : F32 :=
  let u := gapOf a b
  let v := gapOf b c
  let w := gapOf a c
  let cross := F32.ofRat (2 * (u.1 * v.2 - u.2 * v.1)) (F32.unit * F32.unit)
  F32.div cross (F32.mul (F32.mul (lengthF (norm2 u) 1) (lengthF (norm2 v) 1)) (lengthF (norm2 w) 1))

/-- Curvature at point k of n points (R259). -/
def pointCurvature (l : List Byte) (n k : Nat) : F32 :=
  if n < 3 then 0
  else
    let j := min (max k 1) (n - 2)
    circleCurvature (linePoint l (j - 1)) (linePoint l j) (linePoint l (j + 1))

/-- Nearest point of segment k of n points: squared distance as a fraction, and the point; the line goes on straight beyond
either end (R259). -/
def onSegment (l : List Byte) (n k : Nat) (c : F32 × F32) : (Int × Nat) × OnLine :=
  let p := linePoint l k
  let q := linePoint l (k + 1)
  let d := gapOf p q
  let w := gapOf p c
  let len := norm2 d
  let dot := d.1 * w.1 + d.2 * w.2
  let cross := d.1 * w.2 - d.2 * w.1
  let signed := fun x : F32 => if 0 ≤ cross then x else F32.neg x
  let psi := headingOf d
  if dot < 0 ∧ k ≠ 0 then ((norm2 w, 1), ⟨signed (lengthF (norm2 w) 1), psi, pointCurvature l n k⟩)
  else if len < dot ∧ k + 2 ≠ n then
    let e := norm2 (gapOf q c)
    ((e, 1), ⟨signed (lengthF e 1), psi, pointCurvature l n (k + 1)⟩)
  else
    let kap := if dot < 0 ∨ len < dot then 0
      else
        let k0 := pointCurvature l n k
        F32.add k0 (F32.mul (F32.sub (pointCurvature l n (k + 1)) k0) (F32.ofRat dot len.toNat))
    ((cross * cross, len.toNat), ⟨signed (lengthF (cross * cross) len.toNat), psi, kap⟩)

/-- The nearer of two candidates; the earlier one among equals. -/
def nearer (a b : (Int × Nat) × OnLine) : (Int × Nat) × OnLine :=
  if b.1.1 * (a.1.2 : Int) < a.1.1 * (b.1.2 : Int) then b else a

/-- Nearest point of a curve (R258). -/
def onCurve (l : List Byte) (c : F32 × F32) : OnLine :=
  let n := l.length / 8
  ((List.range (n - 2)).foldl (fun a k => nearer a (onSegment l n (k + 1) c)) (onSegment l n 0 c)).2

/-- Nearest point of a pivot circle in its travel direction, 0 counterclockwise (Table 11-2). -/
def onPivot (l : List Byte) (cw : Bool) (c : F32 × F32) : OnLine :=
  let centre := linePoint l 0
  let r := F32.ofBytes (l.drop 8)
  let d := gapOf centre c
  let rho := lengthF (norm2 d) 1
  let k := F32.div F32.one r
  if cw then ⟨F32.sub rho r, headingOf (d.2, -d.1), F32.neg k⟩
  else ⟨F32.sub r rho, headingOf (-d.2, d.1), k⟩

/-! Inputs (R256, R258) -/

/-- The sample of a steering input, where it is not stale at t. -/
def steerInput (s : State) (c : Nat) (t : Time) : Option Sample := if bound s c then s.freshOf c t else none

/-- Confidence of a record at least a minimum, without HELD. -/
def sure (x : Sample) (least : F32) : Bool :=
  decide (F32.roundScaled least 65535 1 ≤ (natAt x.record 36 2 : Int)) && natAt x.record 38 2 / 2 % 2 == 0

/-- Component i of a record. -/
def comp (x : Sample) (i : Nat) : F32 := if i = 0 then x.value else F32.ofBytes (x.record.drop (4 * i))

/-- The pose propagated to tick t plus the prediction horizon (R256). -/
def steerPose (s : State) (pose ego : Sample) (t : Time) : List F32 :=
  let e := pose.ts - qOffset s 0
  let w := [comp pose 0, comp pose 1, comp pose 8, comp ego 0, comp ego 2]
  predictPose w (t + ms (s.stN 0x0F) - e)

/-- The control point (R258). -/
def controlPoint (s : State) (pose : List F32) : F32 × F32 := inField pose (s.stF 0x09) 0

/-- The line at the control point in its defined direction; none for type 4 and without a line. -/
def lineAt (s : State) (pose : List F32) : Option OnLine :=
  let l := s.objB 0x2900 0x05
  let c := controlPoint s pose
  match s.stN 0x04 with
  | 1 => some (onCurve l c)
  | 2 => some (onCurve l c)
  | 3 => some (onPivot l (s.stN 0x06 == 1) c)
  | _ => none

/-- What the service steers by at a tick: e_y, e_psi, kappa_path, reverse travel; none where the line is invalid or an input
missing (R258, R260). -/
structure Errors where
  ey : F32
  epsi : F32
  k : F32
  reverse : Bool
deriving DecidableEq, Repr

/-- The shifted line (R260). -/
def shiftedLine (s : State) (o : OnLine) (heading : F32) (reverse : Bool) : Option Errors :=
  let flip := fun x : F32 => if reverse then F32.neg x else x
  let sh := if reverse then F32.neg (s.stF 0x07) else s.stF 0x07
  let k := flip o.k
  let d := F32.sub F32.one (F32.mul sh k)
  let psi := if reverse then F32.add o.psi piF else o.psi
  if F32.lt d 0x3DCCCCCD then none
  else some ⟨F32.sub (flip o.ey) sh, wrapAngle (wrapAngle (F32.sub psi heading)), F32.div k d, reverse⟩

/-- Errors at tick t; `fixed` is the direction fixed at engagement (R257, R258). -/
def steerErrors (s : State) (t : Time) (fixed : Option Bool) : Option Errors :=
  match steerInput s 0x405 t, steerInput s 0x406 t with
  | some pose, some ego =>
    if s.stN 0x04 = 4 then
      match steerInput s 0x407 t with
      | some e => some ⟨F32.sub (s.stF 0x08) (comp e 0), F32.neg (comp e 1), 0, false⟩
      | none => none
    else
      let p := steerPose s pose ego t
      match lineAt s p with
      | none => none
      | some o =>
        let back := s.stN 0x04 != 3 && !F32.le (F32.abs (wrapAngle (wrapAngle (F32.sub (p.getD 2 0) o.psi)))) halfPiF
        shiftedLine s o (p.getD 2 0) (fixed.getD back)
  | _, _ => none

/-! Loops (R262) -/

def leftLoop (s : State) : Nat := s.stN 0x10
def rightLoop (s : State) : Nat := s.stN 0x11

/-- An object of another node as last notified. -/
def remoteN (s : State) (node index sub : Nat) : Option Nat :=
  (Tbl.get s.remote none (node * 16777216 + objKey index sub)).map leNat

/-- One steering loop meets R262 on this module. -/
def steerLoopOk (s : State) (n : Nat) : Bool :=
  let a := (s.loopAt n).active
  let c := pCh a
  decide (n < 64) && pPeriod a == 100 && !pFlag a 2 && pBits a 0 5 2 == 1 && pType a == 1 && decide (c < 48)
    && s.sdMode c == 2 && F32.isZero (pWord a 11) && pFlag a 24 && F32.isZero (pWord a 17)
    && s.get (R.sdCctrlFail c) == 0 && decide (s.get (R.sdBholdHoldMs (c / 4)) ≤ 100)

/-- The gain of the route to a consumer. -/
def gainOf (s : State) (c : Nat) : Option F32 :=
  (s.trellis.entries.find? fun e => e.2.active.enable == 1 && e.2.active.consumer == c).map fun e => e.2.active.gain

/-- The measurement gains of the two loops are opposite. -/
def oppositeGains (s : State) : Bool :=
  match gainOf s (4 * leftLoop s), gainOf s (4 * rightLoop s) with
  | some a, some b => F32.eq b (F32.neg a)
  | _, _ => false

/-- A loop runs, its channel is without OVC and OPEN, and its bank is armed. -/
def steerRuns (s : State) (n : Nat) : Bool :=
  let c := pCh (s.loopAt n).active
  s.loopState n == 2 && !s.flag (R.sdCdiagOvc c) && !s.flag (R.sdCdiagOpen c) && s.sdArmed (c / 4)

/-- An object of the loop owner as last notified. -/
def ownerN (s : State) (index sub : Nat) : Option Nat := remoteN s (s.stN 0x12) index sub

/-- The SD channel that loop n of the owner drives. -/
def ownerChannel (s : State) (n : Nat) : Option Nat := (ownerN s (0x2000 + n) 0x07).filter fun c => decide (c < 48)

/-- An object of the owner reads as a value, or as a float equal to zero. -/
def ownerIs (s : State) (index sub v : Nat) : Bool := ownerN s index sub == some v
def ownerZero (s : State) (index sub : Nat) : Bool := ((ownerN s index sub).map fun v => F32.isZero (asF32 v)) == some true

/-- One steering loop of a remote owner meets R262; the owner's trellis gains are its own (log entry 30). -/
def ownerLoopOk (s : State) (n : Nat) : Bool :=
  let o := 0x2000 + n
  ownerIs s o 0x03 1000 && ownerIs s o 0x05 0 && ownerIs s o 0x06 1 && ownerIs s o 0x08 1 && ownerZero s o 0x13
    && ownerIs s o 0x1A 1 && ownerZero s o 0x1B
    && match ownerChannel s n with
      | some c => ownerIs s (0x2100 + c) 0x01 2 && ownerIs s (0x2100 + c) 0x16 0
          && ((ownerN s (0x2180 + c / 4) 0x03).map fun v => decide (v ≤ 100)) == some true
      | none => false

/-- A loop of a remote owner runs, its channel is without OVC and OPEN, and its bank is armed. -/
def ownerRuns (s : State) (n : Nat) : Bool :=
  ((ownerN s (0x2000 + n) 0x20).map (· % 8)) == some 2
    && match ownerChannel s n with
      | some c => ((ownerN s (0x2100 + c) 0x1B).map fun v => v / 16 % 4 == 0) == some true && ownerIs s (0x2180 + c / 4) 0x01 1
      | none => false

/-- Both loops run on channels without faults in armed banks (Table 11-4, cause 4). -/
def loopsRun (s : State) : Bool :=
  [leftLoop s, rightLoop s].all fun n => decide (n < 64) && if s.stN 0x12 = 0 then steerRuns s n else ownerRuns s n

/-- Condition bit 1 of Table 11-5. -/
def loopsGood (s : State) : Bool :=
  loopsRun s && (if s.stN 0x12 = 0 then oppositeGains s else true)
    && [leftLoop s, rightLoop s].all fun n => if s.stN 0x12 = 0 then steerLoopOk s n else ownerLoopOk s n

/-- MANUAL is set on a steering loop. -/
def loopsManual (s : State) : Bool :=
  ([leftLoop s, rightLoop s].filter fun n => decide (n < 64)).any fun n =>
    if s.stN 0x12 = 0 then s.flag (R.ceLctrlManual n) else ownerIs s (0x2000 + n) 0x1C 1

/-- What the service watches of a remote owner: index, sub-index and period in ms; its loops' status every 20 ms, the rest on
change (R262; log entry 30). -/
def ownerWatches (s : State) : List (Nat × Nat × Nat) :=
  (0x2390, 0x06, 20) :: ([leftLoop s, rightLoop s].filter fun n => decide (n < 64)).flatMap fun n =>
    (0x2000 + n, 0x20, 20) :: ([0x03, 0x05, 0x06, 0x07, 0x08, 0x13, 0x1A, 0x1B, 0x1C].map fun k => (0x2000 + n, k, 0))
      ++ match ownerChannel s n with
        | some c => [(0x2100 + c, 0x01, 0), (0x2100 + c, 0x16, 0), (0x2100 + c, 0x1B, 0), (0x2180 + c / 4, 0x01, 0),
                     (0x2180 + c / 4, 0x03, 0)]
        | none => []

/-- A watched object is subscribed to, unless something was received of it within 2 s or a request for it is on its way
(R262, R342). -/
def ownerSubscribe (s : State) (w : Nat × Nat × Nat) : State :=
  let peer := 16777216 + s.stN 0x12
  if (s.dict.own.any fun x => x.peer == peer && x.index == w.1 && x.sub == w.2.1 && !x.mailbox && decide (s.now < x.last + sec 2))
      || (s.dict.remotes.any fun r => r.peer == peer && r.op == 6 && r.index == w.1 && r.sub == w.2.1 && r.slot.isNone) then s
  else nodeAsk s (s.stN 0x12) 6 w.1 w.2.1 0 w.2.2 []

/-- Condition bit 2 of Table 11-5: the stop state of the owning module. -/
def ownerClear (s : State) : Bool :=
  if s.stN 0x12 = 0 then s.get R.siStopState == 0
  else match remoteN s (s.stN 0x12) 0x2390 0x06 with
    | some v => v / 16 % 4 == 0
    | none => s.get R.siStopState == 0

/-- A write of n bytes to an object of the loop owner, with its type code (Table 14-2). -/
def ownerWrite (s : State) (index sub typ n v : Nat) : State := nodeAsk s (s.stN 0x12) 2 index sub typ 0 (leBytes n v)

/-- MANUAL and the manual value of loop n (R263, R265). -/
def loopManual (s : State) (n : Nat) (on : Bool) : State :=
  if s.stN 0x12 ≠ 0 then
    let s := if on then ownerWrite s (0x2000 + n) 0x1D ObjTy.f32.code 4 0 else s
    ownerWrite s (0x2000 + n) 0x1C ObjTy.u8.code 1 (if on then 1 else 0)
  else
    let s := if on then s.wr (R.ceLmanu n) 0 else s
    (loopApply (s.put (R.ceLctrlManual n) on) n).1

/-- ON of the SD channel of loop n of this module. -/
def valveOn (s : State) (n on : Nat) : State :=
  let l := if (s.loopAt n).active.isEmpty then s.loopShadow n else (s.loopAt n).active
  let c := pCh l
  if pType l = 1 ∧ c < 48 then (stagePost s (R.sdCctrl c) (BitVec.ofNat 32 on) (some 0)).1 else s

/-- ON of the channel of loop n. -/
def loopChannel (s : State) (n on : Nat) : State :=
  if s.stN 0x12 = 0 then valveOn s n on
  else match ownerChannel s n with
    | some c => ownerWrite s (0x2100 + c) 0x18 ObjTy.u8.code 1 on
    | none => s

/-- A set-point of a loop. -/
def loopSetPoint (s : State) (n : Nat) (v : F32) : State :=
  if s.stN 0x12 ≠ 0 then ownerWrite s (0x2000 + n) 0x0A ObjTy.f32.code 4 v.toNat else setPointWrite s n v

/-- The loops that exist. -/
def steerLoops (s : State) : List Nat := [leftLoop s, rightLoop s].filter fun n => decide (n < 64)

/-- The actions of R265 on a list of loops: channels off, then manual at 0. -/
def valvesOff (s : State) (l : List Nat) : State :=
  l.foldl (fun (u : State) n => loopManual u n true) (l.foldl (fun (u : State) n => loopChannel u n 0) s)

/-! The law (R261) -/

/-- A gain of the schedule at speed v: `o` 4 for ky, 8 for kpsi. -/
def steerGain (s : State) (v : F32) (o : Nat) : F32 :=
  let b := s.objB 0x2900 0x0C
  let at_ := fun j k => F32.ofBytes (b.drop (12 * j + k))
  if F32.le v (at_ 0 0) then at_ 0 o
  else match (List.range 5).find? fun j => F32.le v (at_ (j + 1) 0) with
    | some j => interp v (at_ j 0) (at_ (j + 1) 0) (at_ j o) (at_ (j + 1) o)
    | none => at_ 5 o

/-- The schedule has strictly increasing speeds and finite gains of at least 0. -/
def scheduleOk (s : State) : Bool :=
  let b := s.objB 0x2900 0x0C
  let at_ := fun j k => F32.ofBytes (b.drop (12 * j + k))
  ((List.range 5).all fun j => F32.lt (at_ j 0) (at_ (j + 1) 0))
    && (List.range 6).all fun j => [4, 8].all fun k => F32.isFinite (at_ j k) && F32.le 0 (at_ j k)

/-- The law at a tick: set-points written, values kept. -/
def steerLaw (s : State) (e : Errors) (v : F32) : State :=
  let k := F32.sub (F32.sub e.k (F32.mul (steerGain s v 4) e.ey)) (F32.mul (steerGain s v 8) e.epsi)
  let step := F32.mul (s.stF 0x0E) (F32.ofRat 2 100)
  let p := s.steer.kPrev
  let k := F32.clamp k (F32.sub p step) (F32.add p step)
  let k := F32.clamp k (F32.neg (s.stF 0x0D)) (s.stF 0x0D)
  let d := Config.arcTan (F32.mul (s.stF 0x0B) k) F32.one
  let d := if s.stN 0x0A = 0 then d else F32.neg d
  let s := s.setSteer { s.steer with kPrev := k, values := [e.ey, e.epsi, k, d] }
  loopSetPoint (loopSetPoint s (leftLoop s) d) (rightLoop s) (F32.neg d)

/-! Engagement (R263 to R265) -/

/-- |wheel input| above its threshold. -/
def wheelOver (s : State) (t : Time) : Bool :=
  match steerInput s 0x408 t with
  | some x => F32.lt (s.stF 0x1A) (F32.abs x.value)
  | none => false

/-- Inputs of condition bit 3. -/
def inputsFresh (s : State) (t : Time) : Bool :=
  ([0x405, 0x406, 0x408] ++ (if s.stN 0x04 = 4 then [0x407] else [])).all fun c => (steerInput s c t).isSome

/-- Confidences of condition bit 4. -/
def inputsSure (s : State) (t : Time) : Bool :=
  (match steerInput s 0x405 t with
   | some x => sure x (s.stF 0x13)
   | none => false)
  && (s.stN 0x04 != 4 || (match steerInput s 0x407 t with
   | some x => sure x (s.stF 0x14)
   | none => false))

/-- Forward speed at t. -/
def steerSpeed (s : State) (t : Time) : F32 :=
  match steerInput s 0x406 t with
  | some x => comp x 0
  | none => F32.nan

def speedOk (s : State) (t : Time) : Bool :=
  F32.le (s.stF 0x15) (steerSpeed s t) && F32.le (steerSpeed s t) (s.stF 0x16)

/-- The line is configured and valid (condition bit 0). -/
def lineOk (s : State) : Bool :=
  s.stN 0x04 != 0 && (geometryFault (s.stN 0x04) (s.objB 0x2900 0x05)).isNone && scheduleOk s

/-- Failing conditions of Table 11-5 at tick t. -/
def engageFails (s : State) (t : Time) (e : Option Errors) : Nat :=
  let b := fun (k : Nat) (ok : Bool) => if ok then 0 else 2 ^ k
  b 0 (lineOk s) + b 1 (loopsGood s) + b 2 (ownerClear s) + b 3 (inputsFresh s t) + b 4 (inputsSure s t) + b 5 (speedOk s t)
    + b 6 (match e with
      | some e => F32.le (F32.abs e.ey) (s.stF 0x17) && F32.le (F32.abs e.epsi) (s.stF 0x18)
      | none => false)
    + b 7 (!wheelOver s t && (steerInput s 0x408 t).isSome)

/-- Counter k of the service counts one. -/
def steerCount (s : State) (k : Nat) : State :=
  s.setSteer { s.steer with counters := s.steer.counters.set k ((s.steer.counters.getD k 0 + 1) % 4294967296) }

/-- Engagement (R263). -/
def engage (s : State) (t : Time) (e : Errors) : State :=
  let l := steerLoops s
  let s := l.foldl (fun (u : State) n => loopManual u n false) s
  let s := l.foldl (fun (u : State) n => loopChannel u n 1) s
  let s := s.setSteer { s.steer with state := 2, kPrev := e.k, reverse := e.reverse, wheelAt := none, confAt := none,
                                     speedAt := none, touched := false, release := false }
  (steerCount (steerLaw s e (steerSpeed s t)) 0).log 0x0F01 (d8 (s.stN 0x04) ++ F32.toBytes e.ey ++ F32.toBytes e.epsi)

/-- Disengagement with a cause (R264, R265). -/
def disengage (s : State) (cause : Nat) : State :=
  let s := valvesOff s (steerLoops s)
  let s := s.setSteer { s.steer with state := 1, cause := cause, release := false, touched := false, wheelAt := none,
                                     confAt := none, speedAt := none }
  (steerCount s 1).log 0x0F02 (d8 cause)

/-- Since when a condition has held: kept while it holds, else none. -/
def heldSince (now : Bool) (old : Option Time) (t : Time) : Option Time := if now then some (old.getD t) else none

/-- Whether a condition has held for a time of n ms. -/
def heldFor (since : Option Time) (t : Time) (n : Nat) : Bool :=
  match since with
  | some a => decide (a + ms n ≤ t)
  | none => false

/-- The first disengagement cause of Table 11-4, 0 none. -/
def steerCause (s : State) (t : Time) (e : Option Errors) : Nat :=
  let x := s.steer
  if x.release then 1
  else if heldFor x.wheelAt t (s.stN 0x1B) then 2
  else if ownerClear s = false then 3
  else if loopsRun s = false ∨ loopsManual s = true then 4
  else if inputsFresh s t = false then 5
  else if heldFor x.confAt t (s.stN 0x1C) then 6
  else if heldFor x.speedAt t (s.stN 0x1D) then 7
  else
    match e with
    | some e => if F32.lt (s.stF 0x19) (F32.abs e.ey) then 8 else if x.touched then 9 else 0
    | none => 9

/-- The service is enabled on the active Hearth. -/
def steerEnabled (s : State) : Bool := s.stN 0x01 == 1 && s.activeHearth

/-- A tick in STANDBY: a request engages or is refused (R263). -/
def standbyTick (s : State) (t : Time) : State :=
  let x := s.steer
  let s := s.setSteer { x with request := false, release := false, touched := false }
  if x.request = false then s
  else
    let e := steerErrors s t none
    let fails := engageFails s t e
    match e with
    | some e =>
      if fails = 0 ∧ x.release = false ∧ x.touched = false then engage s t e
      else (steerCount s 2).log 0x0F03 (d16 fails)
    | none => (steerCount s 2).log 0x0F03 (d16 fails)

/-- A tick in ENGAGED (R261, R264). -/
def engagedTick (s : State) (t : Time) : State :=
  let e := steerErrors s t (some s.steer.reverse)
  let s := s.setSteer { s.steer with
    request := false,
    wheelAt := heldSince (wheelOver s t) s.steer.wheelAt t,
    confAt := heldSince (!inputsSure s t) s.steer.confAt t,
    speedAt := heldSince (!speedOk s t) s.steer.speedAt t }
  let c := steerCause s t e
  if c ≠ 0 then disengage s c
  else match e with
    | some e => steerLaw s e (steerSpeed s t)
    | none => s

/-- Enable or disable of the service at a tick (Table 11-3, R266, R267). -/
def steerPower (s : State) : State :=
  if steerEnabled s = false then
    let s := if s.steer.state = 2 then disengage s 10 else s
    s.setSteer { s.steer with state := 0, release := false, touched := false }
  else
    let s := if s.steer.state = 0 then
        let s := s.setSteer { s.steer with state := 1 }
        if s.stN 0x12 = 0 then s else ownerWrite s 0x2900 0x21 ObjTy.blob.code 2 (leftLoop s + 256 * rightLoop s)
      else s
    let s := if s.stN 0x12 = 0 then s else (ownerWatches s).foldl ownerSubscribe s
    if s.steer.first then
      (valvesOff (s.setSteer { s.steer with first := false, state := 1, cause := 10 }) (steerLoops s)).log 0x0F02 (d8 10)
    else s

/-- STEERING_TICK (R255): every device-time multiple of 20 ms; a Pavilion does not run the service. -/
def execSteeringTick (s : State) : Res := whenRt 1 s <|
  let t := gridNext (ms 20) s.steer.last s.time.dev
  let s := s.devTo t
  let s := s.setSteer { s.steer with last := some t }
  if s.hearth = false then .next s
  else
    let s := steerPower s
    .next (if s.steer.state = 2 then engagedTick s t else if s.steer.state = 1 then standbyTick s t
      else if s.steer.request then
        (steerCount (s.setSteer { s.steer with request := false }) 2).log 0x0F03 (d16 (engageFails s t (steerErrors s t none)))
      else s)

/-- A write of the engage object, 0x2900:02 (R263, R264). -/
def engageWrite (s : State) (v : Nat) : State × Nat :=
  if s.hearth = false then (s, St.state)
  else if v > 1 then (s, St.range)
  else if v = 1 then (if s.steer.state = 2 then (s, St.ok) else (s.setSteer { s.steer with request := true }, St.ok))
  else (s.setSteer { s.steer with release := true }, St.ok)

/-- A write to objects 0x2900:04 to :0B is seen by the next tick (R264). -/
def steerTouch (s : State) : State := s.setSteer { s.steer with touched := true }

/-- A write of the line geometry, object 0x2900:05 (R257). -/
def geometryWrite (s : State) (l : List Byte) : State × Nat :=
  if l.length > 4096 then (s, St.type)
  else
    match geometryFault (s.stN 0x04) l with
    | some k => (s.log 0x0F04 (d8 (s.stN 0x04) ++ d16 k), St.range)
    | none => (steerTouch (s.setObj 0x2900 0x05 (.bytes l)), St.ok)

/-- The watched loops, object 0x2900:21. -/
def watchedLoops (s : State) : List Nat := ((s.objB 0x2900 0x21).map (·.toNat)).filter fun n => decide (n < 64)

/-- STEERING_WATCH (R267): the watch time passes without a set-point write to a watched loop that is not in MANUAL. -/
def execSteeringWatch (s : State) : Res :=
  let l := watchedLoops s
  if (l.any fun n => !s.flag (R.ceLctrlManual n)) = false then .next s
  else
    let last := l.foldl (fun a n => max a (Tbl.get s.steer.writeAt 0 n)) 0
    let s := s.passTo (last + ms (s.stN 0x20))
    let manual := fun (u : State) n => (loopApply ((u.wr (R.ceLmanu n) 0).set (R.ceLctrlManual n) 1) n).1
    .next ((l.foldl manual (l.foldl (fun u n => valveOn u n 0) s)).log 0x0F05 ((s.objB 0x2900 0x21).take 2))

/-- The service after a reset of the main die, an RTW or a takeover (R266, R429). -/
def steerReset (s : State) : State :=
  s.setSteer { s.steer with state := 0, request := false, release := false, first := true, wheelAt := none, confAt := none,
                            speedAt := none }

end Sys2Proof.Machine
end

