-- ==== Sys2Proof/Machine/Twin.lean ====
section
/-!
DEFINITION. The twin hearth: heartbeats, mirror, start wait, takeover and the epoch reset (12_fabric_fleet.md R289 to R294).
-/
namespace Sys2Proof.Machine

/-- Twin state: 0 none, 1 active, 2 standby, 3 starting (FB_STAT.TWIN). -/
def twinState (s : State) : Nat := s.get R.fbStatTwin

/-- The sync link, F0. -/
def syncLinkUp (s : State) : Bool := s.portUp 0

/-- Node ID of the twin (R275). -/
def twinId (s : State) : Nat := if s.objN 0x3080 0x01 = 1 then 2 else 1

/-- The way of a frame on the sync link. -/
def syncWay : FlueWay := onPort 0

/-- A frame on the sync link and through the fabric to the twin. -/
def twinSend (s : State) (kind : Nat) (payload : List Byte) : State :=
  flueSend (flueSendOn s 0 6 kind (twinId s) 0 payload) 6 kind (twinId s) 0 payload

/-- HEARTBEAT_SEND (R289): every 1 ms at the active member. -/
def execHeartbeatSend (s : State) : Res := gated s 9 <|
  if s.hearth = false ∨ twinState s ≠ 1 then .next s
  else
    let s := match s.fab.hbAt with
      | some t => s.passTo (t + ms 1)
      | none => s
    .next (twinSend (s.setFab { s.fab with hbAt := some s.now }) 0x14
      (leBytes 2 s.fab.epoch ++ leBytes 8 (serialOf s) ++ leBytes 4 s.fab.mirrorSeq))

/-- The MIRROR block of the present state (R289, R275): estimates as last published, the governor's ticks as they remain. -/
def mirrorBlock (s : State) : MirrorBlock where
  writes := s.fab.mirrorWrites
  estimates := (List.range 11).filterMap fun q => (s.qty q).prev.map fun e => (q, e.t, e.x)
  functions := s.gov.fns.map fun e => ⟨e.1, e.2.state, e.2.present, e.2.commanded, e.2.freezeEnd - s.gov.tick,
    e.2.settle - s.gov.tick, e.2.down⟩
  rules := s.gov.rules.filterMap fun e => e.2.acted.map fun t => (e.1, s.gov.tick - t)
  pointer := s.gov.pointer
  trial := s.gov.trial.map fun m => (m, s.gov.v0)
  schedule := s.gate.sects.filterMap fun e => e.2.pend.map fun p => (e.1, p.1, p.2, e.2.byMode)
  nodes := s.fab.nodes.filterMap fun e => e.2.map fun n => (e.1, n.serial)

/-- MIRROR_SEND (R289): every 10 ms at the active member, through the fabric while the sync link is down. The block leaves as it
is: the spec gives it no layout in frames (log entry 125). -/
def execMirrorSend (s : State) : Res := gated s 9 <|
  if s.hearth = false ∨ twinState s ≠ 1 then .next s
  else
    let s := match s.fab.mirrorAt with
      | some t => s.passTo (t + ms 10)
      | none => s
    let fab := !syncLinkUp s
    let s := if fab = s.fab.mirrorFab then s
      else (s.setFab { s.fab with mirrorFab := fab }).log 0x1011 (d8 (if fab then 1 else 0))
    let m := s.fab.mirror
    let m := m.set 0 ((m.getD 0 0 + 1) % 4294967296)
    let m := if fab then m.set 2 ((m.getD 2 0 + 1) % 4294967296) else m
    let block := mirrorBlock s
    let s := s.setFab { s.fab with
      mirrorAt := some s.now, mirrorSeq := (s.fab.mirrorSeq + 1) % 4294967296, mirror := m, mirrorWrites := [] }
    .next (s.emit (.mirror (if fab then 1 else 0) s.fab.mirrorSeq block))

/-- The start wait in ms (Table 12-12). -/
def startWait (s : State) : Nat :=
  match s.objN 0x3080 0x01, s.objN 0x3080 0x04 with
  | 1, 1 => 20
  | 2, 1 => 30
  | 1, _ => 40
  | _, _ => 50

/-- Steps 2 to 4 of a takeover (R290, R293, R253, R236, R266). -/
def becomeActive (s : State) : State :=
  let e := min (s.fab.epoch + 1) 65535
  let s := (epochRaise (s.set R.fbStatTwin 1) e (serialOf s)).fire 4
  let s := if e ≥ 65000 then s.log 0x1013 (d16 e) else s
  let s := s.setFab { s.fab with takeover := s.time.dev, started := none, hbAt := none, mirrorAt := none, setptAt := none }
  let s := flueSend s 6 0x13 0xFFFF 0 (leBytes 2 e ++ leBytes 8 (serialOf s))
  let s := steerReset (govTakeover s)
  { s with gate := { s.gate with last := none, resend := true } }

/-- START_WAIT_END (R290). -/
def execStartWaitEnd (s : State) : Res :=
  match s.fab.started with
  | none => .next s
  | some t =>
    if twinState s ≠ 3 then .next s else .next (becomeActive (s.passTo (t + ms (startWait s))))

/-- The later of two instants. -/
def later (a b : Option Nat) : Nat := max (a.getD 0) (b.getD 0)

/-- TAKEOVER (R290): the standby has received no HEARTBEAT on either path for 5 ms. -/
def execTakeover (s : State) : Res :=
  if s.hearth = false ∨ twinState s ≠ 2 then .next s
  else .next (becomeActive (s.passTo (later s.fab.hbSync s.fab.hbFab + ms 5)))

/-- An active member becomes standby (R292). -/
def demote (s : State) (epoch serial : Nat) : State :=
  let s := ((s.set R.fbStatTwin 2).fire 132).log 0x1009 (d16 epoch)
  let s := s.setFab { s.fab with hbSync := if s.fab.hbSync.isSome then s.fab.hbSync else some s.now }
  if s.fab.epoch < epoch then ghEpochWrite (epochSet s epoch serial) epoch else s

/-- A HEARTBEAT of the twin, path 0 the sync link (R290, R292). -/
def heartbeat (s : State) (path serial epoch : Nat) : State :=
  let s := if path = 0 then s.setFab { s.fab with hbSync := some s.now } else s.setFab { s.fab with hbFab := some s.now }
  match twinState s with
  | 3 =>
    if s.fab.epoch ≤ epoch then
      let s := (s.set R.fbStatTwin 2).setFab { s.fab with started := none }
      if s.fab.epoch < epoch then epochRaise s epoch serial else epochSet s epoch serial
    else s
  | 1 =>
    if s.fab.epoch < epoch then demote s epoch serial
    else if epoch = s.fab.epoch ∧ serialOf s > serial then demote s epoch serial
    else s
  | 2 => if s.fab.epoch < epoch then epochRaise s epoch serial else s
  | _ => s

/-- HEARTBEAT_RECEIVE (R292): KIND 0x14 HEARTBEAT, 0x13 EPOCHANN or 0x16 REJECT carrying an epoch, from a node. A REJECT of the
superseded epoch is answered with EPOCHRST (R294). -/
def execHeartbeatReceive (kind path sender serial epoch seq : Nat) (s : State) : Res := gated s 9 <|
  if s.hearth = false ∨ seq ≥ 4294967296 then .next s
  else if kind = 0x14 then
    if twinSerial s = serial ∧ serial ≠ 0 then .next (heartbeat s path serial epoch) else .next s
  else if kind = 0x13 ∨ kind = 0x16 then
    if twinState s ≠ 1 then .next s
    else if kind = 0x16 ∧ s.fab.superseded = some epoch then .next (epochrstSend s (flueWay s sender) sender epoch)
    else if s.fab.epoch < epoch then .next (demote s epoch serial)
    else .next s
  else .next s

/-- GH_EPOCH takes 1, the one write that lowers it (R294). -/
def ghEpochReset (s : State) : State := s.set R.ghEpochEpoch 1

/-- A write of object 0x3080:05 (R293, R294). -/
def epochReset (s : State) (v : Nat) : State × Nat :=
  if s.lifeCycle ≠ 3 ∨ s.hearth = false ∨ twinState s ≠ 1 then (s, St.state)
  else if v ≠ 1 then (s, St.range)
  else
    let e := s.fab.epoch
    let s := s.setFab { s.fab with superseded := some e }
    let s := epochrstSend (epochrstSend s syncWay (twinId s) e) (flueWay s 0xFFFF) 0xFFFF e
    (ghEpochReset (epochSet s 1 (serialOf s)), St.ok)

/-- EPOCHRST_RECEIVE (R294): header EPOCH, old and new epoch, the sender's serial number. -/
def execEpochrstReceive (serial header old new : Nat) (s : State) : Res := gated s 9 <|
  let from_ := if s.hearth then serial == twinSerial s && serial != 0 else serial == s.fab.setter
  if header = s.fab.epoch ∧ old = header ∧ new = 1 ∧ from_ = true then
    .next ((ghEpochReset (epochSet s 1 serial)).log 0x1014 (d16 old ++ d40 serial))
  else .next (s.count R.fbStaleEpoch)

end Sys2Proof.Machine
end

