-- ==== Sys2Proof/Machine/BlockWrite.lean ====
section
/-!
DEFINITION. A register write with everything it does: the effect each block's chapter gives its registers over the plain
field-by-field write, the refusals, and the writes that wait for a stopped clock (R404). Each function answers the ERR
field of the register, 0 where the write is accepted.
-/
namespace Sys2Proof.Machine

/-- Accepted, with nothing to report. -/
def done (s : State) : State × Nat := (s, 0)

/-- CK registers (R403, R404): the forced bits of the enable sets keep their forced value. -/
def ckWrite (s : State) (o : Nat) (v : Word) : State × Nat :=
  match o with
  | 0x20 => done (opRequest s 0 (bits v 0 2))
  | 0x24 => done (opRequest s 1 (bits v 0 2))
  | 0x30 => done ((plainWrite s R.ckGrun v).set ⟨R.ckGrun, 4, 1⟩ 1)
  | 0x34 => done (((plainWrite s R.ckGsleep v).set ⟨R.ckGsleep, 4, 1⟩ 1).set ⟨R.ckGsleep, 0, 2⟩ 0)
  | _ => done (plainWrite s (0x20000000 + o) v)

/-- The counters that IC_CTRL.CNTCLR clears. -/
def icCounters : List Nat :=
  [R.icSwdbIgn, R.icCmplErr, R.icCoalesced, R.icCmplForced] ++ (List.range 13).map R.icTclaims
    ++ (List.range 13).map R.icTspur

/-- IC registers, written by requester who (R365 to R369). -/
def icWrite (s : State) (who o : Nat) (v : Word) : State × Nat :=
  let a := 0x20010000 + o
  if o = 0 then done (doorbell s who (bits v 0 10))
  else if o = 8 then done (if bit v 0 then s.clearAll icCounters else s)
  else if 0x3000 ≤ o ∧ o < 0x3340 ∧ o % 0x40 = 4 then done (complete s who ((o - 0x3000) / 0x40) (bits v 0 10))
  else if 0x3000 ≤ o ∧ o < 0x3340 ∧ o % 0x40 = 8 then done (withTargets (fun u => plainWrite u a v) s)
  else done (plainWrite s a v)

/-- CE registers (R34, R49, R50). -/
def ceWrite (s : State) (o : Nat) (v : Word) : State × Nat :=
  let n := (o - 0x1000) / 0x100
  if o = 4 then done (ceCtrlWrite s v)
  else if o < 0x1000 ∨ 64 ≤ n then done (plainWrite s (0x20020000 + o) v)
  else if o % 0x100 = 0 then done (lctrlWrite s n v)
  else if o % 0x100 = 0x40 then done (setPointWrite s n v)
  else done (plainWrite s (0x20020000 + o) v)

/-- SD and LS registers: the control registers of a stage die take their way over the stage link (R61, R94), the others
belong to the main die. -/
def stageWrite (s : State) (a : Nat) (v : Word) : State × Nat :=
  if postedReg a then stagePost s a v none else done (plainWrite s a v)

/-- SI_SPCTRL (R117): CLR restarts the supplies named. -/
def supplyWrite (s : State) (v : Word) : State :=
  (List.range 4).foldl (fun u k => if bit v (8 + k) then supplyClear u k else u) (supplyShow (plainWrite s R.siSpctrl v))

/-- A pulse input's registers (R118, R119): TLO lies below THI. -/
def pulseWrite (s : State) (n o : Nat) (v : Word) : State × Nat :=
  let a := R.siPicfg n + o
  let t := plainWrite s a v
  let bad := illegal (fieldsAt a) v.toNat
  match o with
  | 0 =>
    let t := if bit v 6 then piClear t n else t
    if bad then (t.set (R.siPistatErr n) 2, 2) else done t
  | 4 =>
    if bits v 8 8 < 3 ∨ t.get (R.siPithrThi n) ≤ bits v 8 8 then
      let lo := s.get (R.siPithrTlo n)
      let hi := if t.get (R.siPithrThi n) ≤ lo then s.get (R.siPithrThi n) else t.get (R.siPithrThi n)
      (((t.set (R.siPithrTlo n) lo).set (R.siPithrThi n) hi).set (R.siPistatErr n) 2, 2)
    else if bad then (t.set (R.siPistatErr n) 2, 2)
    else done t
  | 8 => if bad then (t.set (R.siPistatErr n) 2, 2) else done t
  | _ => done t

/-- SI registers (R114 to R130). -/
def siWrite (s : State) (o : Nat) (v : Word) : State × Nat :=
  let a := 0x20050000 + o
  if o = 8 then done (siStopWrite s v)
  else if o = 0x20 then done (supplyWrite s v)
  else if 0x100 ≤ o ∧ o < 0x400 ∧ o % 0x10 = 0 then
    let n := (o - 0x100) / 0x10
    let r := aiConfig s n v
    (r.1, if r.2 then r.1.get (R.siAistatErr n) else 0)
  else if 0x100 ≤ o ∧ o < 0x400 ∧ o % 0x10 = 4 then
    let n := (o - 0x100) / 0x10
    let t := plainWrite s a v
    if illegal (fieldsAt a) v.toNat then (t.set (R.siAistatErr n) 2, 2) else done t
  else if 0x400 ≤ o ∧ o < 0x700 then pulseWrite s ((o - 0x400) / 0x20) (o % 0x20) v
  else if 0x900 ≤ o ∧ o < 0xD00 ∧ 4 ≤ o % 0x80 ∧ o % 0x80 < 0x28 then
    lossEdgeWrite s ((o - 0x900) / 0x80) a v
  else done (plainWrite s a v)

/-- FU registers (R157 to R160). -/
def fuWrite (s : State) (o : Nat) (v : Word) : State × Nat :=
  let j := (o - 0x100) / 0x40
  if o = 4 then done (fuCtrlWrite s v)
  else if 0x100 ≤ o ∧ o < 0x180 then
    match o % 0x40 with
    | 0x04 => done (jobSubmit s j v)
    | 0x18 => done (jobAck s j (bits v 0 9))
    | 0x20 => done (jobAbort s j (bits v 0 16))
    | _ => done (plainWrite s (0x20060000 + o) v)
  else done (plainWrite s (0x20060000 + o) v)

/-- CAM registers (R166 to R177). -/
def camWrite (s : State) (o : Nat) (v : Word) : State × Nat :=
  let a := 0x20070000 + o
  let c := (o - 0x1000) / 0x200
  let p := o % 0x200
  let r := (p - 0x80) / 0x40
  if o < 0x1000 ∨ 4 ≤ c then done (plainWrite s a v)
  else if p = 0 then camPctrlWrite s c v
  else if p = 0x38 then done (i2cWrite s c v)
  else if [0x04, 0x08, 0x0C, 0x24, 0x28, 0x2C].contains p then camConfigWrite s c a v
  else if 0x80 ≤ p ∧ p < 0x140 ∧ p % 0x40 = 0 then camTcfgWrite s c r v
  else if 0x80 ≤ p ∧ p < 0x140 ∧ p % 0x40 = 0x14 then done (tapAck s c r (bits v 0 4))
  else done (plainWrite s a v)

/-- GN registers (R182 to R192, R207 to R210). -/
def gnWrite (s : State) (o : Nat) (v : Word) : State × Nat :=
  let a := 0x20080000 + o
  let n := (o - 0x1000) / 0x100
  if 0x1000 ≤ o ∧ n < 192 then
    match o % 0x100 with
    | 0x00 =>
      let t := channelWrite s n v
      (t, 0)
    | 0x04 => done (spacingWrite s n v)
    | 0x20 => done (if bit v 0 then ncoCommit s n (bits v 1 4) else s)
    | 0x2C => done (dumpAck s n v.toNat)
    | _ => done (plainWrite s a v)
  else
    match o with
    | 0x04 => done (gnCtrlWrite s v)
    | 0x30 => done (fadjWrite s v)
    | 0x34 =>
      let t := if bit v 0 then (stepArm s (int64 (s.rd64 R.gnTstepLo)) false).1 else s
      done (if bit v 1 then stepCancel t else t)
    | 0x40 => done (tpoWrite s 0 a v)
    | 0x44 => done (tpoWrite s 0 a v)
    | 0x48 => done (tpoWrite s 1 a v)
    | 0x4C => done (tpoWrite s 1 a v)
    | 0x70 => done (slewWrite s v.toInt).1
    | 0x80 => done (acqWrite s v)
    | _ => done (plainWrite s a v)

/-- The counters that FB_CTRL.CNTCLR clears. -/
def fbCounters : List Nat :=
  (List.range 8).map (fun k => R.fbStaleEpoch + 4 * k)
    ++ (List.range 6).flatMap fun p => (List.range 8).map fun k => R.fbPrxfrm p + 4 * k

/-- FB registers. -/
def fbWrite (s : State) (o : Nat) (v : Word) : State × Nat :=
  let t := plainWrite s (0x20090000 + o) v
  done (if o = 4 ∧ bit v 1 = true then t.clearAll fbCounters else t)

/-- The counters that CN_CTRL.CNTCLR clears. -/
def cnCounters (c : Nat) : List Nat :=
  (List.range 8).map (fun k => R.cnRxfrm c + 4 * k) ++ (List.range 3).map fun q => R.cnQdrops c q

/-- CN_CTRL: MODE, FMT and ESD are refused while EN = 1, a format the channel lacks with ERR 2, and a format that breaks the
pair of R313 stays as it was (R301, R303, R313, R316). -/
def cnCtrlWrite (s : State) (c : Nat) (v : Word) : State × Nat :=
  let a := R.cnCtrl c
  let en := s.flag (R.cnCtrlEn c)
  let fixed : List FieldDef := (fieldsAt a).filter fun f => f.lsb == 1 || f.lsb == 4 || f.lsb == 6
  let free : List FieldDef := (fieldsAt a).filter fun f => f.access == .rw && decide (6 < f.lsb)
  let changed := fixed.any fun f => f.accepts (fieldOf v.toNat f) && fieldOf v.toNat f != fieldOf (s.rd a).toNat f
  let xl := bits v 4 2 = 3 ∧ xlCapable c = false
  let e := if en && changed then 3 else if xl then 2 else 0
  let t := s.wr a (BitVec.ofNat 32 (applyFields free (s.rd a).toNat v.toNat))
  let u := t.wr a (BitVec.ofNat 32
    (applyFields (if xl then fixed.filter fun f => f.lsb != 4 else fixed) (t.rd a).toNat v.toNat))
  let keep := t.get (R.cnCtrlFmt c)
  let u := if canBudget u c then u else u.set (R.cnCtrlFmt c) keep
  let t := if en then t else watShow u c
  let t := if e = 0 then t else t.set (R.cnCtrlErr c) e
  let t := if bit v 11 then t.clearAll (cnCounters c) else t
  let t := if bit v 10 then busOffRecover t c else t
  if bit v 0 = false then (canDisable t c, e)
  else if en ∨ e ≠ 0 then (t, e)
  else
    let w := canEnable t c
    (w, if w.flag (R.cnCtrlEn c) then 0 else w.get (R.cnCtrlErr c))

/-- One field of CN_TXCFG: refused where it breaks the pair of R313, and DLMAX above 64 where the channel has no XL. -/
def cnTxcfgField (c : Nat) (v : Word) (s : State) (f : FieldDef) : State :=
  let a := R.cnTxcfg c
  let t := s.wr a (BitVec.ofNat 32 (applyField v.toNat (s.rd a).toNat f))
  if f.lsb = 0 then t
  else if canBudget t c = false ∨ (f.lsb = 16 ∧ xlCapable c = false ∧ 64 < t.get (R.cnTxcfgDlmax c)) then s
  else t

/-- CN registers of channel c (R300 to R318). -/
def cnWrite (s : State) (c o : Nat) (v : Word) : State × Nat :=
  let a := R.cnId c + o
  let en := s.flag (R.cnCtrlEn c)
  let refused := ((s.set (R.cnCtrlErr c) 3, 3) : State × Nat)
  if 6 ≤ c then done s
  else if o = 4 then cnCtrlWrite s c v
  else if 0x20 ≤ o ∧ o ≤ 0x2C then
    if en then refused
    else if o = 0x28 ∧ xlCapable c = false then done s
    else
      let t := plainWrite s a v
      done (if canBudget t c then watShow t c else s)
  else if o = 0x34 then done (watShow ((fieldsAt a).foldl (cnTxcfgField c v) s) c)
  else if o = 0x4C then done (saWrite s c (bits v 0 8) (bit v 8))
  else if 0x100 ≤ o ∧ o < 0x160 then
    match o % 0x20 with
    | 0x00 => if en then refused else done (plainWrite s a v)
    | 0x04 => if en then refused else done (plainWrite s a v)
    | 0x10 => done (queueAck s c ((o - 0x100) / 0x20) (bits v 0 6))
    | _ => done (plainWrite s a v)
  else if 0x400 ≤ o ∧ o < 0x800 ∧ o % 0x20 = 8 then
    let b := (o - 0x400) / 0x20
    let t := if bit v 0 then txRequest s c b else s
    done (if bit v 1 then txAbort t c b else t)
  else done (plainWrite s a v)

/-- CV_ACCFG: MAXSKIP stays within 2^(N − 1); a value above it is not taken, nor is an N below the MAXSKIP that stays (R6,
R323). -/
def cvAccfgWrite (s : State) (u : Nat) (v : Word) : State :=
  let a := R.cvAccfg u
  let t := plainWrite s a v
  let fits := fun (x : State) => decide (x.get (R.cvAccfgMaxskip u) ≤ 2 ^ (x.get (R.cvAccfgN u) - 1))
  if fits t then t
  else
    let w := t.set (R.cvAccfgMaxskip u) (s.get (R.cvAccfgMaxskip u))
    if fits w then w else w.set (R.cvAccfgN u) (s.get (R.cvAccfgN u))

/-- CV registers (R319 to R324). -/
def cvWrite (s : State) (o : Nat) (v : Word) : State × Nat :=
  let u := (o - 0x1000) / 0x100
  if o < 0x1000 ∨ 8 ≤ u then done s
  else
    match o % 0x100 with
    | 0x18 => done (if bit v 0 then cvStart s u else s)
    | 0x20 => done (cvFeed s u (leBytes 4 v.toNat))
    | 0x28 => done (cvStateWrite s u false v)
    | 0x2C => done (cvStateWrite s u true v)
    | 0x44 => done (aliveCheck s u (bits v 16 6) (bits v 0 16)).2
    | 0x4C => done (aliveSet s u v)
    | 0x40 => done (cvAccfgWrite s u v)
    | _ => done (cvShow (plainWrite s (0x200B0000 + o) v) u)

/-- EV registers (R448, R449). -/
def evWrite (s : State) (o : Nat) (v : Word) : State × Nat :=
  if o = 0x2C then done (eventPost s (bits v 0 16) (bits v 16 2)) else done (plainWrite s (0x200C0000 + o) v)

/-- DP registers (R461 to R476): geometry, pilot and tables are refused while EN = 1. -/
def dpWrite (s : State) (o : Nat) (v : Word) : State × Nat :=
  let a := 0x200E0000 + o
  if o = 4 then
    let t := if bit v 2 then s.clearAll [R.dpDone, R.dpCoalesced, R.dpRows, R.dpReplays] else s
    let t := if bit v 1 then panelRestart t else t
    done (if bit v 0 then panelEnable t else panelDisable t)
  else if o = 0x34 then done (panelSubmit s (bits v 0 16))
  else if (o = 0x18 ∨ 0x60 ≤ o) ∧ s.flag R.dpCtrlEn = true then (s, 1)
  else done (plainWrite s a v)

/-- The submitter of a storage command by the requester that writes the register: the Keeper is 12, the update engine 17,
Parterre 18 (Table 16-4). -/
def storageWriter (who : Nat) : Nat := if who = 12 then 3 else who - 16

/-- MS and DMA registers (R361 to R363, R384 to R387): RETRY and the timeout keep the pair of R387. -/
def msWrite (s : State) (who o : Nat) (v : Word) : State × Nat :=
  let a := 0x20110000 + o
  match o with
  | 0x20 => done (stSubmit s (storageWriter who) v)
  | 0x34 => done (stAck s (bits v 0 8))
  | 0x3C => done (stAbort s (bits v 0 16))
  | 0x40 =>
    let t := plainWrite s a v
    if storageBudgetOk (t.get R.msScfgRetry) (s.objN 0x1600 0x0C) (t.get R.msScfgTimeout) then done t else (s, 1)
  | 0x8000 =>
    let t := plainWrite s a v
    done (if bit v 1 then t.clearAll [R.dmaCompleted, R.dmaErrors, R.dmaMbytes] else t)
  | 0x8004 => done (dmaSubmit s v)
  | 0x8018 => done (dmaAck s (bits v 0 9))
  | 0x8020 => done (dmaAbort s (bits v 0 16))
  | _ => done (plainWrite s a v)

/-- GH registers (R249 to R252). -/
def ghWrite (s : State) (o : Nat) (v : Word) : State × Nat :=
  match o with
  | 0x04 => done (ghCtrlWrite s v)
  | 0x1C => done (ghSubmit s (ghCommand s v) (bits v 0 2))
  | 0x24 => done (ghEpochWrite s (bits v 0 16))
  | _ => done (plainWrite s (0x20120000 + o) v)

/-- IRQ_EN takes v: a source whose IRQ bit stands and that v enables anew rings (R364). -/
def irqEnable (s : State) (a : Nat) (v : Word) : State :=
  let old := s.rd a
  let t := plainWrite s a v
  (List.range 542).foldl (fun u n =>
    match irqPlace n with
    | some (st, en, b) => if en = a ∧ bit old b = false ∧ bit (t.rd a) b = true ∧ u.flag ⟨st, b, 1⟩ = true then u.ring n else u
    | none => u) t

/-- The IRQ_EN register of some block. -/
def isIrqEn (a : Nat) : Bool :=
  [R.siIrqEn, R.thIrqEn, R.ceIrqEn, R.fbIrqEn, R.sdIrqEn, R.lsIrqEn, R.gnIrqEn, R.fuIrqEn, R.camIrqEn, R.msIrqEn,
   R.dmaIrqEn, R.dpIrqEn, R.evIrqEn, R.kpIrqEn].contains a || (List.range 6).any fun c => R.cnIrqEn c == a

/-- A register write with its effect, the clock of its block running. -/
def blockWriteNow (s : State) (who a : Nat) (v : Word) : State × Nat :=
  let o := a % 65536
  if isIrqEn a then done (irqEnable s a v)
  else
    match a / 65536 with
    | 0x2000 => ckWrite s o v
    | 0x2001 => icWrite s who o v
    | 0x2002 => ceWrite s o v
    | 0x2003 => stageWrite s a v
    | 0x2004 => stageWrite s a v
    | 0x2005 => siWrite s o v
    | 0x2006 => fuWrite s o v
    | 0x2007 => camWrite s o v
    | 0x2008 => gnWrite s o v
    | 0x2009 => fbWrite s o v
    | 0x200A => cnWrite s (o / 0x2000) (o % 0x2000) v
    | 0x200B => cvWrite s o v
    | 0x200C => evWrite s o v
    | 0x200E => dpWrite s o v
    | 0x2011 => msWrite s who o v
    | 0x2012 => ghWrite s o v
    | _ => done (plainWrite s a v)

/-- The gating group whose clock a register's effect needs, if any (Table 17-7, log entry 40). -/
def gateOf (a : Nat) : Option Nat :=
  let o := a % 65536
  match a / 65536 with
  | 0x2002 => some 4
  | 0x2003 => some 4
  | 0x2004 => some 4
  | 0x2005 => if o < 0x10 then none else some 5
  | 0x2006 => some 6
  | 0x2007 => some 7
  | 0x2008 => if o = 4 ∨ (0x80 ≤ o ∧ o < 0xC0) ∨ 0x1000 ≤ o then some 8 else none
  | 0x2009 => some 9
  | 0x200A => some (if o < 0x4000 then 10 else 11)
  | 0x200B => some 12
  | 0x200E => some 16
  | 0x2011 => if 0x8000 ≤ o then some 13 else if 0x20 ≤ o ∧ o < 0x80 then some 14 else none
  | _ => none

/-- Whether a write to the register takes effect now. -/
def gateOpen (s : State) (a : Nat) : Bool :=
  match gateOf a with
  | none => true
  | some k => s.gateOn k

/-- What a register is to hold: its writable fields as the writes that wait for its clock leave them, field by field as a
write does (R5, R6, R404; log entry 40). -/
def regView (s : State) (a : Nat) : Word :=
  BitVec.ofNat 32 (waitingView s a (stageRd s a).toNat)

/-- A write that waited takes effect; a short one fed a check-value unit (R320). -/
def releaseOne (s : State) (e : GatedWrite) : State :=
  if e.size < 4 then cvFeed s ((e.addr - R.cvData 0) / 256) (leBytes e.size e.value.toNat)
  else (blockWriteNow s e.who e.addr e.value).1

/-- The writes whose clock runs take effect, in order; the others go on waiting (R404). -/
def gateRelease (s : State) : State :=
  panelWake (s.clk.gated.foldl (fun u e => if gateOpen u e.addr then releaseOne u e else u.gateWait e)
    { s with clk := { s.clk with gated := [] } })

/-- A register write by requester who; the answer is the ERR field of the register (R404). -/
def blockWrite (s : State) (who a : Nat) (v : Word) : State × Nat :=
  if gateOpen s a then
    let r := blockWriteNow s who a v
    if a = R.ckGrun then (gateRelease r.1, r.2) else r
  else done (s.gateWait { who := who, addr := a, value := v })

/-- A field written through its register: the word as it stands, its command bits 0, with the field replaced. -/
def fieldWrite (s : State) (who : Nat) (f : Fld) (v : Nat) : State × Nat :=
  if postedReg f.addr ∧ gateOpen s f.addr then stagePost s f.addr (State.fieldInto 0 f v) (some f.lsb)
  else
  let rw := (fieldsAt f.addr).filter fun d => d.access == .rw
  let w := rw.foldl (fun (acc : Nat) d => acc + fieldOf (regView s f.addr).toNat d * 2 ^ d.lsb) 0
  blockWrite s who f.addr (State.fieldInto w f v)

end Sys2Proof.Machine
end

