-- ==== Sys2Proof/Machine/Power.lean ====
section
/-!
DEFINITION. Supply conditions: low-supply mode, the power-fail warning, bank supplies, ground, ignition, and the power
states that a request reaches (18_power.md, 19_reset_retention.md R431).
-/
namespace Sys2Proof.Machine
open State

/-- The supply conditions take a value. -/
def setPwr (s : State) (x : Power) : State := { s with pwr := x }

/-- The power states take a value. -/
def setPs (s : State) (x : PowerState) : State := { s with ps := x }

/-- The Keeper has a supply and measures the supply pins: every state but OFF (R434). -/
def keeperUp (s : State) : Bool := s.ps.mode != 4

/-- IGN is active when either input is (R415). -/
def ignActive (s : State) : Bool := s.pwr.ign != 0

/-- VBAT_L as measured, with its extremes since POR (Table 18-6). -/
def vbatMeasured (s : State) (decivolt : Nat) : State :=
  let v := F32.ofRat decivolt 10
  setPwr s { s.pwr with vbatL := v,
                        vmin := if s.pwr.vmin = 0 ∨ F32.lt v s.pwr.vmin = true then v else s.pwr.vmin,
                        vmax := if F32.lt s.pwr.vmax v then v else s.pwr.vmax }

/-- A counter of object 0x1300:0F counts. -/
def pwrCount (s : State) (k : Nat) : State :=
  setPwr s { s.pwr with counters := s.pwr.counters.set k ((s.pwr.counters.getD k 0 + 1) % 4294967296) }

/-- Low-supply mode is entered: clusters parked, camera feeds off, fusion engine and camera pipeline clock-gated
(R410). -/
def lowSupplyEnter (s : State) : State :=
  if s.pwrFlag 1 then s
  else
    let s := (List.range 4).foldl linkLoss s
    let s := withTargets (fun u => { u with procs := { u.procs with parked := true } }) s
    (s.pwrBit 1 true).log 0x0103 [1]

/-- Low-supply mode ends: the clusters resume where they stopped, the feeds return, and the writes that waited for the
gated clocks take effect (R404, R410). -/
def lowSupplyLeave (s : State) : State :=
  let s := s.pwrBit 1 false
  let s := { s with procs := { s.procs with parked := false } }
  gateRelease (s.log 0x0103 [0])

/-- LOW_SUPPLY_ENTRY (R410). -/
def execLowSupplyEntry (decivolt : Nat) (s : State) : Res :=
  .next (if keeperUp s then lowSupplyEnter (vbatMeasured s decivolt) else s)

/-- LOW_SUPPLY_EXIT (R406): not while the warning stands. -/
def execLowSupplyExit (decivolt : Nat) (s : State) : Res :=
  .next (
    if keeperUp s ∧ s.pwrFlag 1 = true then
      let s := vbatMeasured s decivolt
      if s.pwrFlag 0 then s else lowSupplyLeave s
    else s)

/-- POWER_FAIL_WARNING: its actions, all at once (R407); a shutdown that runs is abandoned (R417). -/
def powerFailWarning (s : State) (steep : Bool) (decivolt : Nat) : State :=
  let s := vbatMeasured s decivolt
  if s.pwrFlag 0 then s
  else
    let s := (s.pwrBit 0 true).set R.msStatPfail 1
    let s := pwrCount (setPwr s { s.pwr with warnAt := s.now }) 0
    let s := (s.fire 1).log 0x0101 ([BitVec.ofNat 8 (if steep then 2 else 1)] ++ leBytes 2 decivolt)
    let s := lowSupplyEnter s
    (panelStop (flashFlush s)).pwrBit 5 false

/-- POWER_FAIL_WARNING (R407). -/
def execPowerFailWarning (steep : Bool) (decivolt : Nat) (s : State) : Res :=
  .next (if keeperUp s then powerFailWarning s steep decivolt else s)

/-- WARNING_CLEAR: storage and panel go on; low-supply mode ends under its own condition (R409). -/
def execWarningClear (decivolt : Nat) (s : State) : Res :=
  .next (
    if keeperUp s ∧ s.pwrFlag 0 = true then
      let s := (vbatMeasured s decivolt).pwrBit 0 false
      let s := pwrCount (s.set R.msStatPfail 0) 1
      let s := s.log 0x0102 (leBytes 4 ((s.now - s.pwr.warnAt) / 1000000))
      stStart (panelResume s)
    else s)

/-- LOGIC_OVERVOLTAGE: status bit and event (R406). -/
def execLogicOvervoltage (decivolt : Nat) (s : State) : Res :=
  .next (
    if keeperUp s ∧ s.pwrFlag 2 = false then
      ((vbatMeasured s decivolt).pwrBit 2 true).log 0x0104 (leBytes 2 decivolt)
    else s)

/-- LOGIC_OVERVOLTAGE_END (R406). -/
def execLogicOvervoltageEnd (decivolt : Nat) (s : State) : Res :=
  .next (if keeperUp s then (vbatMeasured s decivolt).pwrBit 2 false else s)

/-- The groups that bank input C (2) or D (3) feeds (Table 18-1). -/
def inputGroups (k : Nat) : List Nat := if k = 2 then [0, 1, 2, 3] else [4, 5, 6, 7]

/-- BANK_INPUT_UNDERVOLTAGE: every bank or group of the input is disarmed (R412). -/
def bankUndervoltage (s : State) (k decivolt : Nat) : State :=
  let s := setPwr s { s.pwr with banks := s.pwr.banks.set k (F32.ofRat decivolt 10) }
  let s := if k < 2 then (supplyBanks k).foldl sdDisarm s else (inputGroups k).foldl groupDisarm s
  (s.pwrBit (7 + k) true).log 0x0105 ([BitVec.ofNat 8 k] ++ leBytes 2 decivolt)

/-- BANK_INPUT_UNDERVOLTAGE (R412). -/
def execBankInputUndervoltage (k decivolt : Nat) (s : State) : Res :=
  .next (if k < 4 ∧ keeperUp s then bankUndervoltage s k decivolt else s)

/-- GROUND_OFFSET (R413). -/
def execGroundOffset (decivolt : Nat) (s : State) : Res :=
  .next (
    if keeperUp s ∧ s.pwrFlag 3 = false then
      let s := setPwr s { s.pwr with gnd := F32.ofRat decivolt 10 }
      (s.pwrBit 3 true).log 0x0106 (leBytes 2 decivolt)
    else s)

/-- GROUND_OFFSET_CLEAR (R413). -/
def execGroundOffsetClear (decivolt : Nat) (s : State) : Res :=
  .next (
    if keeperUp s ∧ s.pwrFlag 3 = true then
      (setPwr s { s.pwr with gnd := F32.ofRat decivolt 10 }).pwrBit 3 false
    else s)

/-- The shutdown time starts (R416, R428). -/
def shutdownStart (s : State) : State := (setPwr s { s.pwr with fellAt := s.now }).pwrBit 5 true

/-! Power states (R431) -/

/-- A change of state: event 0x0202, the ceilings of IDLE, and the writes whose clock the new state's enable set starts (R404,
R431). -/
def setMode (s : State) (m : Nat) : State :=
  if s.ps.mode = m then s
  else gateRelease (setCeilings ((setPs s { s.ps with mode := m }).log 0x0202 [BitVec.ofNat 8 s.ps.mode, BitVec.ofNat 8 m]))

/-- Entry into SLEEP: both clusters are powered off, whatever they execute (R431). -/
def sleepEnter (s : State) : State :=
  withTargets (fun u => setMode { u with procs := { u.procs with outOfReset := u.procs.outOfReset / 256 * 256 } } 2) s

/-- A CLU on the clusters of the mask is asked for (R424). -/
def cluDue (s : State) (mask wake : Nat) : State :=
  (setPs s { s.ps with clusters := Nat.lor s.ps.clusters mask, wake := if wake = 0 then s.ps.wake else wake }).resetDue 5

/-- SLEEP is left: both clusters are powered and reset, and the state follows at the end of the CLU (R432). -/
def sleepLeave (s : State) (back wake : Nat) : State :=
  if s.ps.mode = 2 then cluDue (setPs s { s.ps with back := back }) 3 wake else s

/-- A write of object 0x1300:21 (R431). -/
def stateRequest (s : State) (v : Nat) : Ans :=
  if 4 < v then (s, St.range, 0)
  else if 3 ≤ v then
    if ignActive s then (s.log 0x0203 [BitVec.ofNat 8 v, BitVec.ofNat 8 s.pwr.ign], St.state, 0)
    else (setPs s { s.ps with shut := some v }, St.ok, 0)
  else if s.serving = false then (s, St.state, 0)
  else if v = 2 then (sleepEnter s, St.ok, 0)
  else if s.ps.mode = 2 then (sleepLeave s v 6, St.ok, 0)
  else (setMode s v, St.ok, 0)

end Sys2Proof.Machine
end

