-- ==== Sys2Proof/Machine/ObjRead.lean ====
section
/-!
DEFINITION. Which objects exist, and what a read of each returns (14_object_dictionary.md R325 to R328, R347 to R352, and
the object tables of every chapter).
-/
namespace Sys2Proof.Machine
open State

/-! Which objects exist -/

/-- The row of an object with a type and an access, held in no register: used for rows that no table lists one by one. -/
def rowOf (index sub : Nat) (ty : ObjTy) (acc : ObjAcc) (v : ObjVal) : ObjDef :=
  ⟨index, 1, sub, 1, ty, acc, fun _ => v, .any, .special⟩

/-- The capability of index 0x1100 + k has ID k + 1 (R347). -/
def isCapability (index : Nat) : Bool := decide (0x1100 ≤ index) && decide (index < 0x1117)

/-- The type of a sub-index of a capability entry (R347). -/
def capabilityType (sub : Nat) : Option ObjTy :=
  match sub with
  | 1 => some .u8
  | 2 => some .u16
  | 3 => some .u16
  | 4 => some .u32
  | 5 => some .u32
  | _ => none

/-- The sub-indices of objects the application image has created at an index (R325). -/
def oemSubs (s : State) (index : Nat) : List Nat :=
  (s.oem.filter fun e => e.1 / 256 == index && e.2.isSome).map fun e => e.1 % 256

/-- The highest sub-index in use at an index; none where the index is not populated (R326). -/
def highestSub (s : State) (index : Nat) : Option Nat :=
  if isCapability index then some 5
  else if 0x4000 ≤ index ∧ index < 0x8000 then
    match oemSubs s index with
    | [] => none
    | l => some (l.foldl max 0)
  else
    match (objRows index).filter fun d => decide (d.index ≤ index) && decide (index < d.index + d.count) with
    | [] => none
    | l => some (l.foldl (fun a d => max a (d.sub + d.subs - 1)) 0)

/-- The row of object index:sub; none for an absent one. In BLANK the Keeper serves a subset (R325, R326, R483). -/
def find (s : State) (index sub : Nat) : Option ObjDef :=
  if s.lifeCycle = 0 ∧ index ≠ 0x1000 ∧ index ≠ 0x1200 then none
  else if sub = 0 then (highestSub s index).map fun n => rowOf index 0 .u8 .ro (.num n)
  else if isCapability index then (capabilityType sub).map fun t => rowOf index sub t .ro (.num 0)
  else if 0x4000 ≤ index ∧ index < 0x8000 then
    (Tbl.get s.oem none (objKey index sub)).map fun o => rowOf index sub o.typ o.acc o.value
  else objDef index sub

/-! Capability list (R347, R348) -/

/-- The integrity profile in effect, object 0x1380:07. -/
def profileBits (s : State) : Nat :=
  let g := fun k => s.intg.getD k 0
  g 0 + 2 * g 1 + 4 * g 2 + (if g 3 = 0 then 0 else 8) + 16 * g 4 + 32 * g 5

/-- Spare rows left of macro m: eight at first (R375). -/
def spareLeft (s : State) (m : Nat) : Nat := 8 - Tbl.get s.sram.spares 0 m

/-- The repair summary, object 0x1600:01. -/
def repairSummary (s : State) : Nat :=
  (List.range 320).foldl (fun a m => min a (spareLeft s m)) 8
    + 65536 * ((List.range 320).filter fun m => spareLeft s m != 8).length

/-- Version of capability ID (Table 14-8). -/
def capabilityVersion (id : Nat) : Nat :=
  match id with
  | 2 => 0x0103
  | 3 => 0x0102
  | 4 => 0x0101
  | 5 => 0x0101
  | 6 => 0x0102
  | 7 => 0x0101
  | 8 => 0x0101
  | 0x0D => 0x0101
  | 0x0E => 0x0101
  | 0x0F => 0x0101
  | 0x10 => 0x0101
  | _ => 0x0100

/-- Data of capability ID (Table 14-8). -/
def capabilityData (s : State) (id : Nat) : Nat :=
  match id with
  | 1 => profileBits s
  | 2 => 64
  | 3 => 48
  | 4 => 32
  | 5 => 48 + 256 * 24 + 65536 * 4 + 16777216 * 8
  | 6 => 64
  | 7 => 4
  | 8 => 192
  | 9 => 48
  | 0x0A => 24
  | 0x0B => 128
  | 0x0D => 2 + 256 * 4 + 65536 * 6
  | 0x0E => 0x3F
  | 0x0F => 0x30
  | 0x10 => 8
  | 0x11 => 320 + 65536 * 240
  | 0x12 => 24
  | 0x13 => 16384
  | 0x14 => 1
  | 0x15 => s.objN 0x3080 0x01
  | 0x16 => 0x1F
  | 0x17 => repairSummary s
  | _ => 0

/-- In the Pavilion role a block has been assigned work once its configuration gives it some: a slot with a role, an enabled
camera port, the receiver enabled (log entry 46). -/
def assignedWork (s : State) (id : Nat) : Bool :=
  match id with
  | 6 => (List.range 64).any fun k => s.objN (0x2410 + k) 0x01 != 0
  | 7 => (List.range 4).any fun c => s.flag (R.camPctrlEn c)
  | _ => s.flag R.gnCtrlEn

/-- The processors that a firmware service runs on are there: GNSS, governor, Gatehouse and steering on the real-time cores,
Parterre on the application cores (R355, R357, Table 16-2). -/
def capabilityHost (s : State) (id : Nat) : Bool :=
  match id with
  | 8 => s.rtRuns 0
  | 9 => s.rtRuns 1
  | 0x0A => s.appServing
  | 0x0B => s.rtRuns 1
  | 0x0C => s.rtRuns 1
  | _ => true

/-- PRESENT of capability ID: 0 where the SRAM of its block has failed (Table 16-2). -/
def capabilityPresent (s : State) (id : Nat) : Bool :=
  let free := fun lo hi => !(s.sram.failed.any fun m => decide (lo ≤ m) && decide (m ≤ hi))
  match id with
  | 2 => free 160 167
  | 6 => free 168 199
  | 7 => free 200 231
  | 8 => free 232 247
  | _ => true

/-- ENABLED of capability ID in the present role and state (Table 14-8). -/
def capabilityEnabled (s : State) (id : Nat) : Bool :=
  if id = 0x16 then s.intg.getD 3 0 != 0
  else if capabilityHost s id = false ∨ capabilityPresent s id = false then false
  else if s.hearth then true
  else if 9 ≤ id ∧ id ≤ 0x0C then false
  else if 6 ≤ id ∧ id ≤ 8 then assignedWork s id
  else true

/-- DEGRADED of capability ID (Table 14-8). -/
def capabilityDegraded (s : State) (id : Nat) : Bool :=
  if id = 1 then s.procs.fenced != 0 else if id = 0x17 then decide (repairSummary s % 256 < 2) else false

/-- A capability entry (R347). -/
def capabilityRead (s : State) (index sub : Nat) : Nat :=
  let id := index - 0x1100 + 1
  match sub with
  | 1 => id
  | 2 => capabilityVersion id
  | 3 => if id < 0x17 then index + 1 else 0
  | 4 => (if capabilityPresent s id then 1 else 0) + (if capabilityEnabled s id then 2 else 0) + (if capabilityDegraded s id then 4 else 0)
  | _ => capabilityData s id

/-! Backed objects -/

/-- A field as software reads it from its register. -/
def fieldView (s : State) (f : Fld) : Nat := (regView s f.addr).toNat / 2 ^ f.lsb % 2 ^ f.width

/-- n words from address a on, as bytes. -/
def wordBytes (s : State) (a n : Nat) : List Byte :=
  (List.range n).flatMap fun k => leBytes 4 (regView s (a + 4 * k)).toNat

/-- A list of binary32 values as bytes. -/
def f32Bytes (l : List F32) : List Byte := l.flatMap F32.toBytes

/-- A list of u32 values as bytes. -/
def u32Bytes (l : List Nat) : List Byte := l.flatMap (leBytes 4)

/-- A binary32 value as an object value. -/
def valF (x : F32) : ObjVal := .num x.toNat

/-- A truth value as an object value. -/
def valB (b : Bool) : ObjVal := .num (if b then 1 else 0)

/-- A signed number as an object value of w bits. -/
def valI (w : Nat) (i : Int) : ObjVal := .num (wrapInt w i)

/-! Objects with a reading of their own -/

/-- Objects 0x1000 and 0x1200. -/
def readIdentity (s : State) (index sub : Nat) : ObjVal :=
  if index = 0x1000 then
    match sub with
    | 0x05 => .num (s.objN 0x1000 0x04 / 1000000 % 65536)
    | 0x06 => .num (s.rd64 (R.upTaverLo 0))
    | 0x07 => .num (s.rd64 (R.upTaverLo 1))
    | 0x08 => .num (s.rd64 (R.upTaverLo 2))
    | 0x0B => .num s.roleInEffect
    | _ => .num s.generation
  else
    match sub with
    | 0x02 => .bytes ((s.sec.challenge.getD []))
    | 0x07 => .bytes (oemSlots s)
    | 0x0A => .bytes ((List.range 32).map Config.clientKey)
    | 0x0D => .bytes ((List.range 3).map fun k => BitVec.ofNat 8 (imgFloor s (k + 1)))
    | _ => .num 0

/-- Objects 0x1300. -/
def readPower (s : State) (sub : Nat) : ObjVal :=
  match sub with
  | 0x01 => valF s.pwr.vbatL
  | 0x02 => .bytes (f32Bytes s.pwr.banks)
  | 0x03 => .num s.pwr.ign
  | 0x04 => valF s.pwr.logic
  | 0x05 => .num s.pwrStatus
  | 0x06 => .bytes (f32Bytes [s.pwr.vmin, s.pwr.vmax])
  | 0x0C => valF s.estP
  | 0x0D => .num s.pwr.holdup
  | 0x0E => valF s.pwr.gnd
  | 0x0F => .bytes (u32Bytes s.pwr.counters)
  | 0x10 => .bytes (f32Bytes s.estI)
  | 0x20 => .num s.ps.mode
  | 0x24 => .bytes (bytesAt s.ps.record 0 32)
  | 0x25 => .bytes (u32Bytes s.ps.counts)
  | 0x28 => .bytes (u32Bytes s.ps.durations)
  | _ => .num 0

/-- The bits of a list of numbers, eight to a byte, n bytes. -/
def bitBytes (l : List Nat) (n : Nat) : List Byte :=
  (List.range n).map fun k => BitVec.ofNat 8 ((List.range 8).foldl (fun a b => a + (if l.contains (8 * k + b) then 2 ^ b else 0)) 0)

/-- First block of partition k: partitions follow one another. -/
def partFirst (k : Nat) : Nat := (partBlocks.take k).sum

/-- Objects 0x1400 to 0x1600. -/
def readSystem (s : State) (index sub : Nat) : ObjVal :=
  if index = 0x1380 then .num (profileBits s)
  else if index = 0x1400 then .num (s.get (R.ckClopEff 0) + 256 * s.get (R.ckClopEff 1))
  else if index = 0x1500 then
    match sub with
    | 0x02 => .num s.procs.fenced
    | 0x03 => .bytes (s.procs.selfTest.map (BitVec.ofNat 8))
    | 0x04 => .num s.procs.bootCore
    | 0x05 => .num s.procs.mismatches
    | _ => .bytes ((List.range 1024).flatMap fun n => leBytes 2 (s.rd (R.icSrc n)).toNat)
  else
    match sub with
    | 0x01 => .num (repairSummary s)
    | 0x02 => .bytes ((List.range 320).map fun m => BitVec.ofNat 8 (spareLeft s m))
    | 0x03 => .bytes (bitBytes s.sram.failed 40)
    | 0x04 => .num (dramTop s - 0x80000000)
    | 0x07 => .bytes (s.dram.retired.flatMap (leBytes 4))
    | 0x0E => .bytes ((List.range 10).flatMap fun k => leBytes 8 (partFirst k) ++ leBytes 8 (partBlocks.getD k 0))
    | 0x0F => .num s.flash.life
    | _ => .num 0

/-- The ring of object 0x1709 or 0x170A. -/
def ringIndex (index sub : Nat) : Nat := (index - 0x1709) * 128 + (sub - 1)

/-- The trellis entry of object 0x1701 to 0x1708 (R350). -/
def entryIndex (index sub : Nat) : Nat := (index - 0x1701) * 128 + (sub - 1)

/-- Objects 0x1700 to 0x170B (Tables 14-10 and 14-12). -/
def readTrellis (s : State) (index sub : Nat) : ObjVal :=
  if index = 0x1700 then
    match sub with
    | 0x06 => .num s.trellis.lastAction
    | 0x07 => .num s.trellis.lastBoundary
    | 0x08 => .num s.trellis.lastFailure
    | 0x09 => .bytes ((List.range 256).map fun k =>
        BitVec.ofNat 8 ((List.range 4).foldl (fun a j => a + 4 ^ j * (s.entryOf (4 * k + j)).state) 0))
    | _ => .bytes (u32Bytes [s.trellis.commits, s.trellis.failures])
  else if index < 0x1709 then .bytes (entryRead s (entryIndex index sub))
  else if index < 0x170B then
    let r := s.ringOf (ringIndex index sub)
    .bytes (leBytes 8 r.base ++ leBytes 2 r.depth ++ leBytes 1 r.mode ++ leBytes 5 0)
  else .bytes ((List.range 256).flatMap fun k => leBytes 4 (s.ringOf k).seq)

/-- Objects 0x2000 to 0x2287. -/
def readOutputs (s : State) (index sub : Nat) : ObjVal :=
  if index < 0x2100 then .num (fieldView s (R.ceLctrlRun (index - 0x2000)))
  else if index < 0x2180 then
    let n := index - 0x2100
    if sub = 0x17 then
      let v := fieldView s (R.sdCfailvValue n)
      valF (if fieldView s (R.sdCctrlMode n) = 3 then F32.ofRat v 1000 else F32.ofRat v 64)
    else .num (fieldView s (R.sdCctrlOn n))
  else if index < 0x2200 then .num (fieldView s (R.sdBctrlArm (index - 0x2180)))
  else if index < 0x2280 then .num (fieldView s (R.lsCctrlOn (index - 0x2200)))
  else
    let g := index - 0x2280
    if sub = 1 then .num (fieldView s (R.lsGctrlArm g)) else valF (F32.ofRat (int16 (s.get (R.lsGtempTref g))) 10)

/-- Objects 0x2340 to 0x2398. -/
def readInputs (s : State) (index sub : Nat) : ObjVal :=
  if index < 0x2370 then valI 64 (int32 (s.rd (R.siPicnt (index - 0x2340))))
  else if index < 0x2380 then
    let n := index - 0x2370
    if sub = 0x06 then .bytes ((List.range 15).flatMap fun j => leBytes 2 (lossEdge s n (j + 1)))
    else .bytes (leBytes 2 (s.get (R.siLicntCount n)) ++ leBytes 2 (s.get (R.siLicntDead n))
      ++ (List.range 8).flatMap fun j => leBytes 4 (s.rd (R.siLihist n j)).toNat)
  else if index < 0x2398 then .num (s.get R.siStopSwstop)
  else .num (s.get ⟨R.siSpctrl, index - 0x2398, 1⟩)

/-- The ring a tap object of a camera port names: slots 0 and 1, then the output ring. -/
def tapRing (sub : Nat) : Nat := if sub < 0x16 then 0 else if sub < 0x1B then 1 else 2

/-- Which setting of its ring a tap object holds: 0 point, 1 compression, 2 E, 3 buffers, 4 enable. -/
def tapPart (sub : Nat) : Nat :=
  if sub < 0x16 then sub - 0x11 else if sub < 0x1B then sub - 0x16 else if sub = 0x1B then 4 else 3

/-- Objects 0x2500. -/
def readCamera (s : State) (index sub : Nat) : ObjVal :=
  let c := index - 0x2500
  match sub with
  | 0x01 => .num (fieldView s (R.camPctrlEn c))
  | 0x03 => .num (fieldView s (R.camPctrlPwr c))
  | 0x04 => .num (10 + 2 * fieldView s (R.camPctrlBpp c))
  | 0x06 => .num (fieldView s (R.camPvcVc0 c) + 256 * fieldView s (R.camPvcVc1 c) + 65536 * fieldView s (R.camPvcVc2 c))
  | 0x0E => .bytes (if (s.objB index 0x0E).isEmpty then camParamDefault else s.objB index 0x0E)
  | 0x1D => .num (s.rd64 (R.camTbaseLo c 0))
  | 0x1E => .num (s.rd64 (R.camTbaseLo c 1))
  | 0x1F => .num (s.rd64 (R.camTbaseLo c 2))
  | 0x22 => .num (s.rd64 (R.camPrplLo c))
  | _ =>
    let a := tapRing sub
    match tapPart sub with
    | 0 => .num (fieldView s (R.camTcfgPoint c a))
    | 1 => .num (fieldView s (R.camTcfgComp c a))
    | 2 => s.obj index sub
    | 3 => .num (fieldView s (R.camTcfgNbuf c a))
    | _ => .num (fieldView s (R.camTcfgEn c a))

/-- Objects 0x2600 and 0x2680. -/
def readGnss (s : State) (index sub : Nat) : ObjVal :=
  if index = 0x2600 then
    match sub with
    | 0x05 => .num (1000 / max 1 (s.get R.gnMeasPeriod))
    | 0x0E => .num navRing
    | 0x0F => .bytes (u32Bytes s.gn.fails)
    | _ => .bytes (u32Bytes s.gn.corrs)
  else
    match sub with
    | 0x02 => .num s.time.dev
    | 0x03 => .num (uncertainty s)
    | _ => .num (s.rd64 R.gnTpitsLo)

/-- Objects 0x2700 and 0x2780. -/
def readGovernor (s : State) (index sub : Nat) : ObjVal :=
  if index = 0x2780 then
    match sub with
    | 0x01 => s.obj 0x2780 0x01
    | 0x0B => .num (s.gov.fails % 32 + (if s.gov.active then 32 else 0) + 64 * s.gov.phase + 256 * s.gov.trial.getD 63)
    | 0x0C => .bytes (f32Bytes [s.gov.j0, s.gov.j1])
    | _ => .bytes ((List.range 64).flatMap fun r => u32Bytes [(govRule s r).actions, (govRule s r).skips])
  else
    let x := govFn s (index - 0x2700)
    match sub with
    | 0x0F => valF x.present
    | 0x10 => .num x.state
    | 0x11 => .num (if x.state = 4 then ceilDiv (x.freezeEnd - s.gov.tick) 10 else 0)
    | 0x12 => .bytes (u32Bytes x.counters)
    | _ => .num (if x.down then 255 else 1)

/-- Objects 0x2800 and 0x2880. -/
def readMaps (s : State) (index sub : Nat) : ObjVal :=
  if index = 0x2800 then
    match sub with
    | 0x09 => .num s.par.task
    | 0x0A => valB s.par.recording
    | 0x0B => .num (match openTask s with | some t => t.pass | none => 0)
    | 0x0D => .num s.par.exportState
    | 0x0F => .bytes (leBytes 8 (usedBytes s) ++ leBytes 8 (freeSpace s))
    | _ => valF (match openTask s with | some t => t.unassigned | none => 0)
  else
    let k := index - 0x2880
    match sub with
    | 0x0C => s.obj index 0x0C
    | 0x0D => valB (sectOn s k)
    | 0x0E => .num (match (s.sect k).pend with | some p => p.1 | none => 0)
    | _ => .bytes (u32Bytes (s.sect k).counters)

/-- Objects 0x2900. -/
def readSteering (s : State) (sub : Nat) : ObjVal :=
  match sub with
  | 0x02 => valB (s.steer.state == 2)
  | 0x03 => .num s.steer.state
  | 0x05 => s.obj 0x2900 0x05
  | 0x1E => .num s.steer.cause
  | 0x1F => .bytes (f32Bytes s.steer.values)
  | _ => .bytes (u32Bytes s.steer.counters)

/-- The node table, object 0x3000:12. -/
def nodeTable (s : State) : List Byte :=
  s.fab.nodes.flatMap fun e =>
    match e.2 with
    | none => []
    | some n => leBytes 2 e.1 ++ leBytes 1 n.state ++ leBytes 1 n.path.length ++ leBytes 8 n.serial ++ leBytes 2 n.bound
      ++ leBytes 2 0

/-- Objects 0x3000 to 0x30C0. -/
def readFabric (s : State) (index sub : Nat) : ObjVal :=
  if index = 0x3000 then
    match sub with
    | 0x04 => .num (s.fab.bound.headD 0)
    | 0x09 => .num s.fab.ownBound
    | _ => .bytes (nodeTable s)
  else if index < 0x3080 then s.obj index sub
  else if index = 0x3080 then
    (if sub = 0x06 then .bytes (u32Bytes s.fab.mirror) else .num s.fab.takeover)
  else
    match sub with
    | 0x05 => .num s.chim.conn
    | 0x06 => .num (storedBytes s)
    | _ => .bytes (u32Bytes s.chim.counters)

/-- Objects 0x3100 and 0x3200. -/
def readCan (s : State) (index sub : Nat) : ObjVal :=
  if index < 0x3200 then
    let c := index - 0x3100
    match sub with
    | 0x01 => .num (fieldView s (R.cnCtrlEn c))
    | 0x0B => .num (fieldView s (R.cnTxcfgDlmax c))
    | 0x0C => .num (fieldView s (R.cnTxcfgRetry c))
    | 0x0D => .num (fieldView s (R.cnTxcfgDretry c))
    | 0x1E => .num (s.canCh c).addr
    | 0x1F => .num (s.canCh c).claim
    | _ => s.obj index sub
  else .num (fieldView s (R.cvCfgRefin (index - 0x3200)) + 2 * fieldView s (R.cvCfgRefout (index - 0x3200)))

/-- Objects 0x3300 and 0x3400. -/
def readKeeper (s : State) (index sub : Nat) : ObjVal :=
  if index = 0x3300 then
    match sub with
    | 0x04 => .bytes (recordsRead s)
    | 0x07 => .num (operatingTime s)
    | 0x08 => .num s.ev.pcycle
    | 0x09 => .bytes ((List.range 6144).map fun k => BitVec.ofNat 8 (severityOf (k + 256)))
    | _ => .bytes (u32Bytes s.kp.counters)
  else
    match sub with
    | 0x01 => .bytes ((List.range 20).flatMap fun z =>
        leBytes 1 (s.get (R.thZstatLevel z)) ++ leBytes 1 (s.get (R.thZstatHeld z) + 2 * s.get (R.thZstatRor z))
          ++ leBytes 2 (s.get (R.thZstatTemp z)))
    | 0x02 => .bytes ((List.range 24).flatMap fun k =>
        leBytes 2 (s.get (R.thSensTemp k)) ++ leBytes 1 (s.get (R.thSensFault k)) ++ leBytes 1 (sensorZone k))
    | 0x04 => .bytes ((List.range 20).flatMap fun z =>
        let t := thresholds z
        leBytes 2 (wrapInt 16 t.1) ++ leBytes 2 (match t.2.1 with | some h => wrapInt 16 h | none => 0x7FFF)
          ++ leBytes 2 (wrapInt 16 t.2.2))
    | 0x05 => .bytes ((List.range 20).flatMap fun z => leBytes 2 (s.get (R.thZmaxMax z)))
    | _ => .bytes (u32Bytes s.th.counters)

/-- Objects 0x3500. -/
def readPanel (s : State) (sub : Nat) : ObjVal :=
  match sub with
  | 0x01 => .num (fieldView s R.dpCtrlEn)
  | 0x09 => .bytes ((List.range 19200).map fun k => Tbl.get s.panel.frame 255 k)
  | 0x0E => .bytes ((List.range 4).flatMap (journalStored s))
  | _ => s.obj 0x3500 sub

/-- The remaining window of the first type that awaits confirmation, object 0x3600:0C. -/
def windowLeft (s : State) : Nat :=
  match [1, 2, 3].find? fun t => imgConf s t == 1 with
  | some t => confLeft s t
  | none => 0

/-- Objects 0x3600. -/
def readUpdate (s : State) (sub : Nat) : ObjVal :=
  match sub with
  | 0x01 => .bytes (slotStates s)
  | 0x08 => .bytes (relayStatus s)
  | 0x09 => .bytes (relayTable s)
  | _ => .num (windowLeft s)

/-- What an object without a register or a plain store of its own reads as. -/
def readSpecial (s : State) (index sub : Nat) : ObjVal :=
  match index / 256 with
  | 0x10 => readIdentity s index sub
  | 0x12 => readIdentity s index sub
  | 0x13 => if index = 0x1300 then readPower s sub else readSystem s index sub
  | 0x14 => readSystem s index sub
  | 0x15 => readSystem s index sub
  | 0x16 => readSystem s index sub
  | 0x17 => readTrellis s index sub
  | 0x20 => readOutputs s index sub
  | 0x21 => readOutputs s index sub
  | 0x22 => readOutputs s index sub
  | 0x23 => readInputs s index sub
  | 0x24 => .num (resampling s (index - 0x2410) / 1000)
  | 0x25 => readCamera s index sub
  | 0x26 => readGnss s index sub
  | 0x27 => readGovernor s index sub
  | 0x28 => readMaps s index sub
  | 0x29 => readSteering s sub
  | 0x30 => readFabric s index sub
  | 0x31 => readCan s index sub
  | 0x32 => readCan s index sub
  | 0x33 => readKeeper s index sub
  | 0x34 => readKeeper s index sub
  | 0x35 => readPanel s sub
  | 0x36 => readUpdate s sub
  | _ => .num 0

/-- Time since the instant, in units of 10 µs, saturating. -/
def silence (s : State) (at_ : Option Nat) : Nat := min 65535 ((s.now - at_.getD 0) / 10000)

/-- Words whose register changes with time: as a read finds them (R196, R203, R209, R290, R437, R487, R498). -/
def wordRead (s : State) (a : Nat) : Nat :=
  if a = R.secDbg then (State.fieldInto (s.rd a).toNat R.secDbgRemain (debugLeft s)).toNat
  else if a = R.gnTimeLo then s.time.dev % 4294967296
  else if a = R.gnTimeHi then s.time.dev / 4294967296 % 4294967296
  else if a = R.gnTunc then uncertainty s
  else if a = R.gnTslew then wrapInt 32 s.time.slewLeft
  else if a = R.fbTwin then silence s s.fab.hbSync + 65536 * silence s s.fab.hbFab
  else if a = R.kpStat then (if s.keeperRestarts then 0 else 1)
  else if a = R.kpMwdrem then min 65535 ((s.kp.main.till.getD s.now - s.now) / 1000000)
  else if a = R.upTconfleft 0 then confLeft s 1
  else if a = R.upTconfleft 1 then confLeft s 2
  else if a = R.upTconfleft 2 then confLeft s 3
  else if a = R.kpOptime then operatingTime s
  else if a = R.kpPcycle then s.ev.pcycle
  else (regView s a).toNat

/-- The value of an existing object, by its row. -/
def readRow (s : State) (d : ObjDef) (index sub : Nat) : ObjVal :=
  let i := index - d.index
  match d.back with
  | .own => s.obj index sub
  | .fixed => d.default i
  | .field f m => .num (fieldView s (f i) * m)
  | .scaled f num den => valF (F32.ofRat ((fieldView s (f i) * num : Nat) : Int) den)
  | .pow2 f => .num (2 ^ fieldView s (f i))
  | .words a n => if n = 1 ∧ d.typ ≠ .blob then .num (wordRead s (a i)) else .bytes (wordBytes s (a i) n)
  | .dword a => .num ((regView s (a i)).toNat + 4294967296 * (regView s (a i + 4)).toNat)
  | .special => if isCapability index then .num (capabilityRead s index sub) else readSpecial s index sub

/-- The value of object index:sub: sub-index 0 the highest sub-index in use, objects of the application image as it keeps
them, in BLANK the die identifier until a serial number is staged, and on a Pavilion the governor objects and the steering
objects but two at their defaults (R326, R483, R236, 11_steering.md). -/
def objRead (s : State) (d : ObjDef) (index sub : Nat) : ObjVal :=
  if sub = 0 then d.default 0
  else if index = 0x1000 ∧ sub = 0x04 ∧ s.lifeCycle = 0 then .num (s.sec.staged.getD Config.dieId.toNat)
  else if 0x4000 ≤ index ∧ index < 0x8000 then d.default 0
  else if index = 0x2900 ∧ s.hearth = false ∧ sub ≠ 0x20 ∧ sub ≠ 0x21 then d.default 0
  else if 0x2700 ≤ index ∧ index ≤ 0x2780 ∧ s.hearth = false then d.default (index - d.index)
  else readRow s d index sub

end Sys2Proof.Machine
end

