-- ==== Sys2Proof/Machine/ObjRange.lean ====
section
/-!
DEFINITION. The checks of Table 14-3 that precede a write's effect: state, type, range, busy and budget conflict
(14_object_dictionary.md R327 to R329, and the range columns and refusals of every chapter's object tables).
-/
namespace Sys2Proof.Machine
open State

/-- A float at place k of a blob. -/
def f32At (l : List Byte) (k : Nat) : F32 := F32.ofBytes (l.drop (4 * k))

/-- A binary64 pattern as a number that orders finite values. -/
def f64Key (x : Nat) : Int := if x < 2 ^ 63 then (x : Int) else -((x % 2 ^ 63 : Nat) : Int)

/-- A value lies in the generic range of its object (R328). -/
def inRange (r : ObjRange) (v : ObjVal) : Bool :=
  match v with
  | .bytes _ => true
  | .num n =>
    let x := asF32 n
    match r with
    | .any => true
    | .len _ _ _ => true
    | .ints l => l.any fun e => decide (e.1 ≤ n) && decide (n ≤ e.2.1) && decide ((n - e.1) % max e.2.2 1 = 0)
    | .f32 lo hi => F32.isFinite x && F32.le lo x && F32.le x hi
    | .f32Finite => F32.isFinite x
    | .f32Nonneg => F32.isFinite x && F32.le 0 x
    | .f32Pos => F32.isFinite x && F32.lt 0 x
    | .f32Nonzero => F32.isFinite x && !F32.isZero x
    | .f64 lo hi => F64.isFinite n && decide (f64Key lo.toNat ≤ f64Key n) && decide (f64Key n ≤ f64Key hi.toNat)

/-- Greatest length of a value of the object (R327). -/
def maxLength (d : ObjDef) : Nat :=
  match d.range with
  | .len _ hi _ => hi
  | _ => if d.typ = .string then 255 else if d.typ = .blob then 65535 else d.typ.size

/-- The type code and the length suit the object (R327). -/
def typeFits (d : ObjDef) (ty : Nat) (len : Nat) : Bool :=
  ty == d.typ.code &&
    match d.range with
    | .len lo hi st => decide (lo ≤ len) && decide (len ≤ hi) && decide ((len - lo) % max st 1 = 0)
    | _ => if d.typ = .string ∨ d.typ = .blob then decide (len ≤ maxLength d) else len == d.typ.size

/-! STATE -/

/-- Writes that the life-cycle state forbids (Table 22-1): DECOMMISSIONED leaves only the event read pointer. -/
def lifeRefused (s : State) (index sub : Nat) : Bool :=
  match s.lifeCycle with
  | 4 => !(index == 0x3300 && sub == 0x03)
  | _ => false

/-- Objects that only SERVICE writes. -/
def serviceOnly (index sub : Nat) : Bool :=
  (index == 0x1000 && sub == 0x0A) || index == 0x1380 || (index == 0x1600 && sub == 0x08)
    || (index == 0x3080 && (sub == 1 || sub == 2))

/-- A write is refused whatever its value in the present life-cycle state, role or task state. -/
def stateRefused (s : State) (index sub : Nat) : Bool :=
  lifeRefused s index sub
    || (serviceOnly index sub && s.lifeCycle != 3)
    || (index == 0x1200 && (sub == 0x0B || sub == 0x0C) && s.lifeCycle != 1 && s.lifeCycle != 3)
    || index == 0x3207
    || (gridFixed s && ((index == 0x2800 && sub == 2) || (index == 0x2400 && decide (2 ≤ sub) && decide (sub ≤ 4))))
    || (!s.hearth && index == 0x2900 && sub != 0x20 && sub != 0x21)

/-! RANGE beyond the generic range -/

/-- Rates of Table 6-1 in mHz: lowest, highest. -/
def rateRange (q : Nat) : Nat × Nat :=
  if q ≤ 1 ∨ q = 10 then (10000, 200000) else if q = 2 then (5000, 60000) else if q ≤ 5 then (1000, 50000)
  else if q ≤ 8 then (500, 10000) else (200, 5000)

/-- Points of the panel's temperature table: 8 × (°C, row time in 10 µs, VC in 10 mV). -/
def panelPoint (l : List Byte) (j : Nat) : F32 × Nat × Nat := (F32.ofBytes (l.drop (8 * j)), natAt l (8 * j + 4) 2, natAt l (8 * j + 6) 2)

/-- The temperature table is one of R462. -/
def panelTableOk (l : List Byte) : Bool :=
  (List.range 8).all fun j =>
    let p := panelPoint l j
    F32.isFinite p.1 && decide (50 ≤ p.2.1) && decide (p.2.1 ≤ 1500) && decide (500 ≤ p.2.2) && decide (p.2.2 ≤ 4000)
      && (j == 7 || F32.lt p.1 (panelPoint l (j + 1)).1)

/-- The phases of the waveform add up, and none is shorter than 40 µs at the shortest row time (R464). -/
def panelWaveOk (table wave : List Byte) : Bool :=
  natAt wave 0 2 + natAt wave 2 2 + natAt wave 4 2 == 1000
    && (List.range 8).all fun j => decide (40 * 1000 ≤ natAt wave 0 2 * (10 * (panelPoint table j).2.1))

/-- The values of a blob of floats lie within ± a bound. -/
def floatsWithin (l : List Byte) (n : Nat) (b : F32) : Bool :=
  (List.range n).all fun k => F32.isFinite (f32At l k) && F32.le (F32.abs (f32At l k)) b

/-- Values of the power, clock and storage objects. -/
def rangePower (s : State) (index sub : Nat) (v : ObjVal) : Bool :=
  match index, sub, v with
  | 0x1300, 0x07, .num n => decide (n ≤ s.objN 0x1300 0x09)
  | 0x1300, 0x09, .num n => decide (s.objN 0x1300 0x07 ≤ n)
  | 0x1300, 0x0B, .bytes l => (List.range 32).all fun k =>
      F32.isFinite (f32At l k) && F32.le 0 (f32At l k) && F32.le (f32At l k) (F32.ofNat (if k < 8 then 35 else 12))
  | 0x1300, 0x26, .bytes l => (List.range 16).all fun k =>
      let x := natAt l (2 * k) 2
      x == 0xFFFF || (decide (x < 1024) && (decide (576 ≤ x) || x == 1 || (irqPlace x).isSome))
  | 0x1300, 0x29, .num n => n % 2 == 1
  | _, _, _ => true

/-- Values of the output objects. -/
def rangeOutput (s : State) (index sub : Nat) (v : ObjVal) : Bool :=
  match v with
  | .bytes _ => true
  | .num n =>
    let x := asF32 n
    if index < 0x2040 then
      let k := index - 0x2000
      sub != 4 || decide (n < s.get (R.ceLschedPeriod k))
    else if 0x2100 ≤ index ∧ index < 0x2130 then
      let k := index - 0x2100
      let pair := s.flag (R.sdCctrlPair k)
      match sub with
      | 0x03 => F32.le (if pair then F32.one else F32.half) x && F32.le x (F32.ofNat (if pair then 16 else 8))
      | 0x05 => F32.le x (F32.ofNat (if pair then 8 else 4))
      | 0x06 => F32.le x (F32.ofRat (s.get (R.sdCrangeHmax k)) 64)
      | 0x07 => F32.le (F32.ofRat (s.get (R.sdCrangeHmin k)) 64) x
      | 0x0F => decide (n + 10 ≤ 10 * s.get (R.sdCpwmPeriod k))
      | 0x17 => F32.isFinite x && F32.le 0 x && F32.le x (F32.ofNat (if s.sdMode k = 3 then 1 else 16))
      | _ => true
    else if 0x2200 ≤ index ∧ index < 0x2220 ∧ sub = 0x07 then decide (n + 10 ≤ 10 * s.get (R.lsCpwmPeriod (index - 0x2200)))
    else true

/-- Values of the fusion and camera objects. -/
def rangeFusion (s : State) (index sub : Nat) (v : ObjVal) : Bool :=
  if 0x2410 ≤ index ∧ index < 0x2450 then
    match sub, v with
    | 0x03, .num n => decide (n ≤ s.objN index 0x04)
    | 0x04, .num n => decide (s.objN index 0x03 ≤ n)
    | 0x08, .bytes l => floatsWithin l 3 (F32.ofNat 20)
    | 0x09, .bytes l => floatsWithin l 3 (F32.ofNat 180)
    | 0x0B, .bytes l => l.all (· == 0)
    | _, _ => true
  else if 0x2480 ≤ index ∧ index < 0x248B then
    let q := index - 0x2480
    match sub, v with
    | 0x01, .num n => decide ((rateRange q).1 ≤ n) && decide (n ≤ (rateRange q).2)
    | 0x02, .num n => decide (2000 * n ≤ window q)
    | 0x07, .num n => decide (n ≤ s.objN index 0x08)
    | 0x08, .num n => decide (s.objN index 0x07 ≤ n)
    | _, _ => true
  else if 0x2500 ≤ index ∧ index < 0x2504 then
    match sub, v with
    | 0x06, .num n => decide (n < 0x1000000) && (List.range 3).all fun k => decide (n / 256 ^ k % 256 < 4)
    | 0x12, .num n => decide (n ≤ s.intg.getD 3 0)
    | 0x17, .num n => decide (n ≤ s.intg.getD 3 0)
    | _, _ => true
  else true

/-- Values of the governor, map, section and steering objects. -/
def rangeService (s : State) (index sub : Nat) (v : ObjVal) : Bool :=
  if index < 0x2730 then
    match sub, v with
    | 0x06, .num n => F32.lt (asF32 n) (s.objF index 0x07)
    | 0x07, .num n => F32.lt (s.objF index 0x06) (asF32 n)
    | 0x08, .num n => F32.lt 0 (asF32 n) && F32.le (asF32 n) (F32.sub (s.objF index 0x07) (s.objF index 0x06))
    | _, _ => true
  else if index = 0x2780 then
    match sub, v with
    | 0x08, .bytes l => (List.range 6).all fun k => F32.isFinite (f32At l k) && F32.le 0 (f32At l k)
    | 0x09, .bytes l => (List.range 5).all fun k => F32.isFinite (f32At l k)
    | _, .bytes l => decide (sub < 0x10) || ruleValid l
    | _, _ => true
  else if index = 0x2800 then
    match sub, v with
    | 0x03, .num n => n == 10 || s.intg.getD 4 0 == 1
    | 0x04, .num n => asF32 n == 0x3D4CCCCD || s.intg.getD 4 0 == 1
    | _, _ => true
  else if 0x2880 ≤ index ∧ index < 0x2900 then
    match sub, v with
    | 0x03, .num n => s.objN index 0x02 != 2 || decide (n < 32)
    | _, _ => true
  else if index = 0x2900 then
    match sub, v with
    | 0x15, .num n => F32.lt (asF32 n) (s.objF 0x2900 0x16)
    | 0x16, .num n => F32.lt (s.objF 0x2900 0x15) (asF32 n)
    | _, _ => true
  else true

/-- Entry k of the publication table is one of R282: unused, or a stream number, class 5 or 6 and a format; binary16 under the
integrity profile and for fused streams only. -/
def publicationOk (s : State) (l : List Byte) (k : Nat) : Bool :=
  let r := natAt l (8 * k) 2
  let format := natAt l (8 * k + 5) 1
  let fused := s.trellis.entries.all fun e => e.2.active.enable != 1 || e.2.active.consumer != 0x200 + k
    || (decide (0x200 ≤ e.2.active.producer) && decide (e.2.active.producer ≤ 0x2AF))
  r == 0xFFFF || (decide (r ≤ 2047) && [5, 6].contains (natAt l (8 * k + 4) 1) && decide (format ≤ 2)
    && (format != 1 || (s.intg.getD 5 0 == 1 && fused)))

/-- Values of the fabric, CAN, check-value and panel objects. -/
def rangeLink (s : State) (index sub : Nat) (v : ObjVal) : Bool :=
  if index = 0x3000 ∧ sub = 0x10 then
    match v with
    | .bytes l => (List.range 256).all (publicationOk s l)
    | .num _ => true
  else if 0x3010 ≤ index ∧ index < 0x3016 ∧ sub = 0x05 then
    match v with
    | .bytes l => (List.range (l.length / 4)).all fun e => decide (192 ≤ natAt l (4 * e) 1)
    | .num _ => true
  else if 0x3100 ≤ index ∧ index < 0x3106 then
    let c := index - 0x3100
    match sub, v with
    | 0x03, .num n => decide (n < 3) || xlCapable c
    | 0x0B, .num n => decide (n ≤ 64) || xlCapable c
    | 0x1D, .num n => decide (n % 256 ≤ 253) && decide (n / 256 ≤ 253)
    | 0x20, .num n => n == 0 || decide (c < 2)
    | _, .num n =>
      if [0x04, 0x05, 0x06, 0x07, 0x08, 0x24].contains sub then
        let t := s.setObjN index sub n
        (canTiming t c).isSome && decide (t.canN c 0x04 ≤ t.canN c 0x06)
      else true
    | _, _ => true
  else if 0x3200 ≤ index ∧ index < 0x3208 ∧ sub = 0x08 then
    match v with
    | .num n => decide (n ≤ 2 ^ (s.get (R.cvAccfgN (index - 0x3200)) - 1))
    | .bytes _ => true
  else if index = 0x3500 then
    match sub, v with
    | 0x05, .bytes l => panelTableOk l && panelWaveOk l (s.objB 0x3500 0x06)
    | 0x06, .bytes l => panelWaveOk (s.objB 0x3500 0x05) l
    | 0x0A, .bytes l => natAt l 0 2 % 4 == 0 && decide (4 ≤ natAt l 4 2) && decide (natAt l 4 2 ≤ 96)
        && decide (1 ≤ natAt l 6 2) && decide (natAt l 6 2 ≤ 32)
    | _, _ => true
  else true

/-- A value keeps the ranges that depend on other objects, on the instance or on the integrity profile. -/
def rangeMore (s : State) (index sub : Nat) (v : ObjVal) : Bool :=
  if index < 0x2000 then rangePower s index sub v
  else if index < 0x2400 then rangeOutput s index sub v
  else if index < 0x2700 then rangeFusion s index sub v
  else if index < 0x3000 then rangeService s index sub v
  else rangeLink s index sub v

/-! BUSY and CONFLICT -/

/-- The object is refused while its subject runs or is enabled, and no register says so. -/
def busyNow (s : State) (index sub : Nat) : Bool :=
  if index < 0x2040 then
    decide (0x2000 ≤ index) && decide (3 ≤ sub) && decide (sub ≤ 7) && [1, 2, 4].contains (s.loopState (index - 0x2000))
  else if 0x2700 ≤ index ∧ index < 0x2730 then
    decide (1 ≤ sub) && decide (sub ≤ 9) && [2, 3].contains (govFn s (index - 0x2700)).state
  else if 0x3100 ≤ index ∧ index < 0x3106 then
    [0x04, 0x05, 0x06, 0x07, 0x08, 0x24].contains sub && s.flag (R.cnCtrlEn (index - 0x3100))
  else if index = 0x3500 then [0x05, 0x06, 0x0A, 0x0B].contains sub && s.flag R.dpCtrlEn
  else false

/-- AUX of a CONFLICT: the other setting (Table 14-3). -/
def otherSetting (index sub : Nat) : Option Nat := some (index + 65536 * sub)

/-- The retry pair of the fabric (R295): attempts × wait in µs below the timeout in ms. -/
def fabricPair (wait count timeout : Nat) : Bool := decide (count * wait < 1000 * timeout)

/-- The setting that a write of value n would break a budget with; none where it breaks none (R26, R295, R313, R387). -/
def conflictWith (s : State) (index sub n : Nat) : Option Nat :=
  let pick := fun (ok : Bool) (i j : Nat) => if ok then none else otherSetting i j
  if index = 0x1600 then
    let r := s.get R.msScfgRetry
    let t := s.get R.msScfgTimeout
    let m := s.objN 0x1600 0x0C
    match sub with
    | 0x0A => pick (storageBudgetOk n m t) 0x1600 0x0B
    | 0x0B => pick (storageBudgetOk r m n) 0x1600 0x0A
    | 0x0C => pick (storageBudgetOk r n t) 0x1600 0x0B
    | _ => none
  else if index = 0x3000 then
    let w := s.objN 0x3000 0x0A
    let c := s.objN 0x3000 0x0B
    let t := s.objN 0x3000 0x0C
    match sub with
    | 0x0A => pick (fabricPair n c t) 0x3000 0x0C
    | 0x0B => pick (fabricPair w n t) 0x3000 0x0C
    | 0x0C => pick (fabricPair w c n) 0x3000 0x0B
    | _ => none
  else if 0x3100 ≤ index ∧ index < 0x3106 then
    let c := index - 0x3100
    let t :=
      match sub with
      | 0x03 => s.set (R.cnCtrlFmt c) n
      | 0x0B => s.set (R.cnTxcfgDlmax c) n
      | 0x0D => s.set (R.cnTxcfgDretry c) n
      | 0x0E => s.setObjN index sub n
      | _ => if [0x04, 0x06, 0x08].contains sub then timingDerive (s.setObjN index sub n) c else s
    if [0x03, 0x04, 0x06, 0x08, 0x0B, 0x0D, 0x0E].contains sub then
      pick (canBudget t c) index (if sub = 0x0E then 0x0D else 0x0E)
    else none
  else none

end Sys2Proof.Machine
end

