-- ==== Sys2Proof/Machine/ObjWrite.lean ====
section
/-!
DEFINITION. What a write of an object does, once its checks have passed, and the single write of the dictionary service with
its checks in the order of Table 14-3 (14_object_dictionary.md R328 to R330).
-/
namespace Sys2Proof.Machine
open State

/-- The requester that register writes by the dictionary service come from: a real-time core. -/
def serviceCore : Nat := 8

/-- ERR codes by which a block says that the register cannot be written while its subject runs or is armed. -/
def busyCode (a e : Nat) : Bool :=
  match a / 65536 with
  | 0x2003 => e == 1 || e == 4
  | 0x2004 => e == 1 || e == 4
  | 0x2007 => e == 1
  | 0x200A => e == 3
  | 0x200E => e == 1
  | _ => false

/-- The answer to a write that went to register a and came back with an ERR field (Table 14-3). -/
def errAns (a : Nat) (r : State × Nat) : Ans :=
  if r.2 = 0 then (r.1, St.ok, 0) else if busyCode a r.2 then (r.1, St.busy, 0) else (r.1, St.target, r.2)

/-- Accepted. -/
def okAns (s : State) : Ans := (s, St.ok, 0)

/-- A status without AUX. -/
def ans (r : State × Nat) : Ans := (r.1, r.2, 0)

/-- Words written from address a on, the first refusal ending the list. -/
def wordsWrite (s : State) (a : Nat) : List Word → Ans
  | [] => okAns s
  | w :: l =>
    let r := errAns a (blockWrite s serviceCore a w)
    if r.2.1 = St.ok then wordsWrite r.1 (a + 4) l else r

/-- The words of a list of bytes. -/
def wordsOf (l : List Byte) : List Word := (List.range (l.length / 4)).map fun k => BitVec.ofNat 32 (natAt l (4 * k) 4)

/-- A field written by the service. -/
def putField (s : State) (f : Fld) (v : Nat) : Ans := errAns f.addr (fieldWrite s serviceCore f v)

/-- The number of a value; 0 for bytes. -/
def ObjVal.nat : ObjVal → Nat
  | .num n => n
  | .bytes _ => 0

/-- The bytes of a value; none for a number. -/
def ObjVal.list : ObjVal → List Byte
  | .num _ => []
  | .bytes l => l

/-- Words written one after another that a refusal in the middle puts back: a refused write changes nothing (R329). -/
def wordsAll (s : State) (a : Nat) (l : List Word) : Ans :=
  let r := wordsWrite s a l
  if r.2.1 = St.ok then r
  else (((List.range l.length).map fun k => a + 4 * k).foldl (fun (u : State) x => u.wr x (s.rd x)) r.1, r.2)

/-- A write of an object by the place its value lives in. -/
def backWrite (s : State) (d : ObjDef) (index sub : Nat) (v : ObjVal) : Ans :=
  let i := index - d.index
  match d.back with
  | .own => okAns (s.setObj index sub v)
  | .fixed => okAns s
  | .field f m => putField s (f i) (v.nat / max m 1)
  | .scaled f num den => putField s (f i) (F32.roundScaled (asF32 v.nat) den num).toNat
  | .pow2 f => putField s (f i) (Nat.log2 v.nat)
  | .words a n =>
    if n = 1 ∧ d.typ ≠ .blob then errAns (a i) (blockWrite s serviceCore (a i) (BitVec.ofNat 32 v.nat))
    else wordsAll s (a i) (wordsOf v.list)
  | .dword a => wordsAll s (a i) [BitVec.ofNat 32 v.nat, BitVec.ofNat 32 (v.nat / 4294967296)]
  | .special => okAns s

/-! Objects with a write of their own -/

/-- Objects 0x1200. -/
def writeSecurity (s : State) (sub : Nat) (v : ObjVal) : Ans :=
  match sub with
  | 0x03 => tokenWrite s v.list
  | 0x04 => transitionRequest s v.nat
  | 0x06 => okAns (debugClose s 2)
  | 0x08 => slotHashWrite s v.list
  | 0x09 => slotKeyWrite s v.list
  | 0x0F => serialStaging s v.nat
  | _ => okAns (s.setObj 0x1200 sub v)

/-- Objects 0x1300 to 0x1600. -/
def writePower (s : State) (d : ObjDef) (index sub : Nat) (v : ObjVal) : Ans :=
  let n := v.nat
  if index = 0x1300 then
    match sub with
    | 0x0B => okAns (thermalEstimate (s.setObj index sub v))
    | 0x21 => stateRequest s n
    | 0x22 => okAns (s.resetDue 4)
    | 0x23 => okAns (cluDue s n 0)
    | _ => backWrite s d index sub v
  else if index = 0x1380 then ans (integrityWrite s sub n)
  else if index = 0x1400 then
    match sub with
    | 0x02 => okAns (opRequest (s.setObj index sub v) 0 n)
    | 0x03 => okAns (opRequest (s.setObj index sub v) 1 n)
    | _ => backWrite s d index sub v
  else if index = 0x1600 then
    match sub with
    | 0x08 => ans (clearRetirement s)
    | 0x0C => okAns ((s.setObj index sub v).set R.msSwatWat (attemptTime n))
    | _ => backWrite s d index sub v
  else backWrite s d index sub v

/-- Objects 0x1700 to 0x170A (Table 14-10, R350, R352). -/
def writeTrellis (s : State) (index sub : Nat) (v : ObjVal) : Ans :=
  if index = 0x1700 then
    match sub with
    | 0x01 => ans (openEntry s v.nat)
    | 0x02 => ans (commitRequest s)
    | 0x03 => ans (cancel s)
    | 0x04 => ans (prepare s v.nat)
    | _ => ans (goConfirm s)
  else if index < 0x1709 then ans (writeEntry s (entryIndex index sub) v.list)
  else ans (writeRing s (ringIndex index sub) v.list)

/-- The registers an object's value lives in. -/
def backAddrs (d : ObjDef) (i : Nat) : List Nat :=
  match d.back with
  | .field f _ => [(f i).addr]
  | .scaled f _ _ => [(f i).addr]
  | .pow2 f => [(f i).addr]
  | .words a n => (List.range n).map fun k => a i + 4 * k
  | .dword a => [a i, a i + 4]
  | _ => []

/-- Objects of loop n: a shadow-set object is written and APPLY requested; a set that APPLY refuses leaves the object as it
was (02_control_engine.md, dictionary objects, R50, R51). -/
def writeLoop (s : State) (d : ObjDef) (index sub : Nat) (v : ObjVal) : Ans :=
  let n := index - 0x2000
  let f := R.ceLstatErr n
  match sub with
  | 0x01 =>
    let t := (fieldWrite s serviceCore (R.ceLctrlRun n) v.nat).1
    if v.nat = 1 ∧ t.flag (R.ceLctrlRun n) = false then (t, St.target, t.get f) else okAns t
  | 0x02 => backWrite s d index sub v
  | 0x0A => backWrite s d index sub v
  | 0x1D => backWrite s d index sub v
  | 0x22 => backWrite s d index sub v
  | _ =>
    let r := backWrite s d index sub v
    if r.2.1 ≠ St.ok ∨ ([1, 2, 4].contains (s.loopState n)) = false then r
    else
      let q := loopApply r.1 n
      if q.2 = 0 then okAns q.1
      else ((backAddrs d n).foldl (fun (u : State) a => u.wr a (s.rd a)) q.1, St.target, q.2)

/-- A write of the ARM object of a bank or group takes its way to the stage; the answer is what the main die judges the arm
by: armed, or refused with the ERR of the arming (R61, R80, R105). -/
def armAns (s : State) (arm err : Fld) (n : Nat) : Ans :=
  let r := putField s arm n
  let u := stagePreview r.1
  if n = 0 ∨ u.flag arm then r else (r.1, St.target, u.get err)
/-- Objects of the solenoid channels and banks. -/
def writeSolenoid (s : State) (d : ObjDef) (index sub : Nat) (v : ObjVal) : Ans :=
  let n := v.nat
  if index < 0x2180 then
    let k := index - 0x2100
    match sub with
    | 0x17 =>
      let w := F32.roundScaled (asF32 n) (if s.sdMode k = 3 then 1000 else 64) 1
      putField s (R.sdCfailvValue k) w.toNat
    | 0x18 => putField s (R.sdCctrlOn k) n
    | 0x1E => putField s ⟨R.sdCctrl k, 10, 1⟩ n
    | _ => backWrite s d index sub v
  else
    let b := index - 0x2180
    match sub with
    | 0x01 =>
      armAns s (R.sdBctrlArm b) (R.sdBstatErr b) n
    | 0x04 => let r := bankUnlock s b; if r.2 = 0 then okAns r.1 else (r.1, St.target, 4)
    | 0x05 => let r := bankSwitchClearNow s b; if r.2 = 0 then okAns r.1 else (r.1, St.target, 5)
    | _ => backWrite s d index sub v

/-- Objects of the switch channels and groups. -/
def writeSwitch (s : State) (d : ObjDef) (index sub : Nat) (v : ObjVal) : Ans :=
  let n := v.nat
  if index < 0x2280 then
    let k := index - 0x2200
    match sub with
    | 0x02 => putField s (R.lsCctrlOn k) n
    | 0x14 => putField s ⟨R.lsCctrl k, 7, 1⟩ n
    | 0x15 => let r := lsUnlock s k; if r.2 = 0 then okAns r.1 else (r.1, St.target, 5)
    | _ => backWrite s d index sub v
  else
    let g := index - 0x2280
    match sub with
    | 0x01 =>
      armAns s (R.lsGctrlArm g) (R.lsGstatErr g) n
    | _ => backWrite s d index sub v

/-- The fifteen bin edges of loss input n, taken together (R123). -/
def edgesWrite (s : State) (n : Nat) (l : List Byte) : Ans :=
  let t := (List.range 15).foldl (fun (u : State) j =>
    u.set (if (j + 1) % 2 = 0 then R.siLiedgeElo n ((j + 1) / 2) else R.siLiedgeEhi n ((j + 1) / 2)) (natAt l (2 * j) 2)) s
  if lossEdgesOk t n && (List.range 15).all fun j => decide (natAt l (2 * j) 2 < 4096) then okAns t
  else (s.set (R.siListatErr n) 1, St.target, 2)

/-- Objects of the sensor inputs, the stop and the sensor supplies. -/
def writeSensor (s : State) (d : ObjDef) (index sub : Nat) (v : ObjVal) : Ans :=
  let n := v.nat
  if index < 0x2330 ∧ sub = 0x08 then putField s (R.siAicfgFclr (index - 0x2300)) 1
  else if 0x2370 ≤ index ∧ index < 0x2378 ∧ sub = 0x06 then edgesWrite s (index - 0x2370) v.list
  else if index = 0x2390 ∧ sub = 0x04 then okAns (softwareStop s (n == 1))
  else if index = 0x2390 ∧ sub = 0x05 then let r := rearm s; if r.2 = 0 then okAns r.1 else (r.1, St.target, r.2)
  else if 0x2398 ≤ index ∧ index < 0x239C then
    let k := index - 0x2398
    if sub = 0x01 then putField s ⟨R.siSpctrl, k, 1⟩ n else if sub = 0x02 then putField s R.siSpctrlClr (2 ^ k)
    else backWrite s d index sub v
  else backWrite s d index sub v

/-- Where the firmware keeps the parameter block of port c (log entry 21). -/
def paramAddr (c : Nat) : Nat := 0x80000000 + 64 * (Config.allocated (32 + c)).toNat

/-- Where the firmware keeps ring a of port c (log entry 21). -/
def tapAddr (c a : Nat) : Nat := 0x80000000 + 64 * (Config.allocated (16 + 4 * c + a)).toNat

/-- A ring with the base and the minimum stride that the firmware gives it (07_camera_pipeline.md, dictionary objects). -/
def tapPlace (s : State) (c a : Nat) : State :=
  let m := minStride (ringPoint s c a) (s.camCfa c) (s.camBits c) (s.camNexp c) (s.camW c) (s.camH c) (ringComp s c a)
  (s.wr64 (R.camTbaseLo c a) (tapAddr c a)).wr (R.camTstride c a) (BitVec.ofNat 32 m)

/-- Objects of camera port c. -/
def writeCamera (s : State) (d : ObjDef) (index sub : Nat) (v : ObjVal) : Ans :=
  let c := index - 0x2500
  let n := v.nat
  match sub with
  | 0x01 => putField s (R.camPctrlEn c) n
  | 0x03 => putField s (R.camPctrlPwr c) n
  | 0x04 => putField s (R.camPctrlBpp c) ((n - 10) / 2)
  | 0x06 => errAns (R.camPvc c) (blockWrite s serviceCore (R.camPvc c)
      (BitVec.ofNat 32 (n % 256 + 4 * (n / 256 % 256) + 16 * (n / 65536 % 256))))
  | 0x0E =>
    let t := (s.setObj index sub v).mwr (paramAddr c) v.list
    putField (t.wr64 (R.camPparamLo c) (paramAddr c)) (R.camPctrlApply c) 1
  | 0x22 => backWrite s { d with back := .dword fun _ => R.camPrplLo c } index sub v
  | _ =>
    if 0x11 ≤ sub ∧ sub ≤ 0x1C then
      let a := tapRing sub
      match tapPart sub with
      | 0 => putField s (R.camTcfgPoint c a) n
      | 1 => putField s (R.camTcfgComp c a) n
      | 2 =>
        let r := if n = 0 then okAns s else putField s (R.camTcfgNear c a) (Nat.log2 n)
        if r.2.1 = St.ok then okAns (r.1.setObj index sub v) else r
      | 3 => putField s (R.camTcfgNbuf c a) n
      | _ => putField (if n = 1 ∧ s.flag (R.camTcfgEn c a) = false then tapPlace s c a else s) (R.camTcfgEn c a) n
    else backWrite s d index sub v

/-- Objects of the fusion service, the receiver and device time. -/
def writeFusion (s : State) (d : ObjDef) (index sub : Nat) (v : ObjVal) : Ans :=
  if index = 0x2400 ∧ sub = 0x01 then
    okAns ((s.setObj index sub v).put R.fuCtrlSvc (v.nat == 1 && s.flag R.fuStatPwr))
  else if index = 0x2400 ∧ sub = 0x07 then ans (jobSplit s v.nat)
  else if 0x2410 ≤ index ∧ index < 0x2450 then okAns (slotWrite s (index - 0x2410) sub v)
  else if 0x2480 ≤ index ∧ index < 0x248B ∧ sub = 0x0C then ans (quantityReset s (index - 0x2480))
  else if 0x2500 ≤ index ∧ index < 0x2504 then writeCamera s d index sub v
  else if index = 0x2600 ∧ sub = 0x05 then ans (measRateWrite s v.nat)
  else if index = 0x2600 ∧ sub = 0x11 then ans (clearOrbits s)
  else if index = 0x2680 ∧ sub = 0x02 then ans (timeWrite s v.nat)
  else if index = 0x2680 ∧ sub = 0x0D then okAns (modelWrite s v.list)
  else backWrite s d index sub v

/-- Objects of the governor, the maps, the sections and steering. -/
def writeService (s : State) (d : ObjDef) (index sub : Nat) (v : ObjVal) : Ans :=
  let n := v.nat
  if index < 0x2730 ∧ sub = 0x0E then ans (operatorWrite s (index - 0x2700) (asF32 n))
  else if index = 0x2780 ∧ sub = 0x01 then ans (governorEnable s n)
  else if index = 0x2800 then
    match sub with
    | 0x09 => ans (taskWrite s n)
    | 0x0A => ans (recordingWrite s n)
    | 0x0C => ans (taskExport s n)
    | 0x0E => ans (taskDelete s n)
    | _ => backWrite s d index sub v
  else if 0x2880 ≤ index ∧ index < 0x2900 ∧ sub = 0x0C then ans (sectionMode s (index - 0x2880) n)
  else if index = 0x2900 then
    match sub with
    | 0x02 => ans (engageWrite s n)
    | 0x05 => ans (geometryWrite s v.list)
    | _ => if 0x04 ≤ sub ∧ sub ≤ 0x0B then okAns (steerTouch (s.setObj index sub v)) else backWrite s d index sub v
  else backWrite s d index sub v

/-- Objects of the fabric and the twin. -/
def writeFabric (s : State) (d : ObjDef) (index sub : Nat) (v : ObjVal) : Ans :=
  if index = 0x3000 ∧ sub = 0x11 then ans (acceptReplacement s v.nat)
  else if 0x3010 ≤ index ∧ index < 0x3016 then
    let p := index - 0x3010
    match sub with
    | 0x02 => if p = 0 ∧ s.objN 0x3080 0x01 ≠ 0 then okAns s else backWrite s d index sub v
    | 0x04 =>
      let r := putField s (R.fbPqbvcycCycle p) (100 * v.nat)
      if r.2.1 = St.ok then okAns (r.1.setObj index sub v) else r
    | 0x05 =>
      let r := wordsAll s (R.fbPgate p 0) (wordsOf (bytesAt v.list 0 64))
      if r.2.1 = St.ok then okAns (r.1.setObj index sub v) else r
    | _ => backWrite s d index sub v
  else if index = 0x3080 ∧ sub = 0x05 then ans (epochReset s v.nat)
  else if index = 0x3080 ∧ sub = 0x01 then okAns (syncMaster (s.setObj index sub v))
  else backWrite s d index sub v

/-- Objects of CAN channel c and of the check-value units. -/
def writeCan (s : State) (d : ObjDef) (index sub : Nat) (v : ObjVal) : Ans :=
  let n := v.nat
  if index < 0x3200 then
    let c := index - 0x3100
    match sub with
    | 0x01 =>
      let t := if n = 1 ∧ s.flag (R.cnCtrlEn c) = false then timingDerive s c else s
      putField t (R.cnCtrlEn c) n
    | 0x0B => putField s (R.cnTxcfgDlmax c) n
    | 0x0C => putField s (R.cnTxcfgRetry c) n
    | 0x0D => putField s (R.cnTxcfgDretry c) n
    | 0x0E => okAns (s.setObj index sub v)
    | 0x19 => putField s ⟨R.cnCtrl c, 10, 1⟩ 1
    | _ =>
      if [0x04, 0x05, 0x06, 0x07, 0x08, 0x24].contains sub then okAns (timingDerive (s.setObj index sub v) c)
      else backWrite s d index sub v
  else
    let u := index - 0x3200
    if sub = 0x06 then
      let a := R.cvCfg u
      let w := State.fieldInto (State.fieldInto (s.rd a).toNat (R.cvCfgRefin u) (n % 2)).toNat (R.cvCfgRefout u) (n / 2)
      errAns a (blockWrite s serviceCore a w)
    else backWrite s d index sub v

/-- The panel registers that hold an object's value (Table 21-4). -/
def panelLoad (s : State) (sub : Nat) (v : ObjVal) : State :=
  let l := v.list
  match sub with
  | 0x05 => (List.range 8).foldl (fun (u : State) j =>
      let p := panelPoint l j
      ((u.set (R.dpTabtT j) (wrapInt 16 (F32.roundScaled p.1 10 1))).set (R.dpTabtRowt j) p.2.1).set (R.dpTabvVc j) p.2.2) s
  | 0x06 => (List.range 5).foldl (fun (u : State) j => u.wr (R.dpWave j) (BitVec.ofNat 32 (natAt l (4 * j) 4))) s
  | 0x0A => (((s.set R.dpPorgPx (natAt l 0 2)).set R.dpPorgPy (natAt l 2 2)).set R.dpPsizePw (natAt l 4 2)).set R.dpPsizePh
      (natAt l 6 2)
  | 0x0B => s.set R.dpPsizePmode v.nat
  | _ => s

/-- Objects of the Keeper, the panel and the updates. -/
def writeKeeper (s : State) (d : ObjDef) (index sub : Nat) (v : ObjVal) : Ans :=
  let n := v.nat
  if index = 0x3300 ∧ (sub = 0x20 ∨ sub = 0x22) then
    if n = 0 ∧ s.lifeCycle ≠ 3 then (s, St.state, 0) else okAns (s.setObj index sub v)
  else if index = 0x3500 then
    match sub with
    | 0x01 => putField s R.dpCtrlEn n
    | 0x07 => okAns (s.setObj index sub v)
    | 0x0C => okAns (s.setObj index sub v)
    | _ => if 2 ≤ sub ∧ sub ≤ 4 then ans (panelGeometryWrite s sub n) else okAns (panelLoad (s.setObj index sub v) sub v)
  else if index = 0x3600 ∧ [0x03, 0x04, 0x0A, 0x0B, 0x0D].contains sub = true ∧ (n = 0 ∨ 3 < n) then (s, St.range, 0)
  else if index = 0x3600 then
    match sub with
    | 0x02 => intakeFragment s 0 v.list
    | 0x03 => updateAbort s n
    | 0x04 => relayRequest s n []
    | 0x0A => confirm s n
    | 0x0B => rollBackRequest s n
    | 0x0D => activate s n
    | _ => backWrite s d index sub v
  else backWrite s d index sub v

/-- The effect of a write, its checks passed: the state, the status and AUX. -/
def objEffect (s : State) (d : ObjDef) (index sub : Nat) (v : ObjVal) : Ans :=
  if 0x4000 ≤ index ∧ index < 0x8000 then
    match Tbl.get s.oem none (objKey index sub) with
    | some o => okAns { s with oem := Tbl.set s.oem none (objKey index sub) (some { o with value := v }) }
    | none => (s, St.noObject, 0)
  else if index = 0x1200 then writeSecurity s sub v
  else if 0x1300 ≤ index ∧ index < 0x1700 then writePower s d index sub v
  else if 0x1700 ≤ index ∧ index < 0x1800 then writeTrellis s index sub v
  else if 0x2000 ≤ index ∧ index < 0x2100 then writeLoop s d index sub v
  else if 0x2100 ≤ index ∧ index < 0x2200 then writeSolenoid s d index sub v
  else if 0x2200 ≤ index ∧ index < 0x2300 then writeSwitch s d index sub v
  else if 0x2300 ≤ index ∧ index < 0x2400 then writeSensor s d index sub v
  else if 0x2400 ≤ index ∧ index < 0x2700 then writeFusion s d index sub v
  else if 0x2700 ≤ index ∧ index < 0x2A00 then writeService s d index sub v
  else if 0x3000 ≤ index ∧ index < 0x30C0 then writeFabric s d index sub v
  else if 0x3100 ≤ index ∧ index < 0x3300 then writeCan s d index sub v
  else if 0x3300 ≤ index then writeKeeper s d index sub v
  else backWrite s d index sub v

/-! The single write -/

/-- Change count of an object (R330). -/
def changeCount (s : State) (index sub : Nat) : Nat := Tbl.get s.changes 0 (objKey index sub)

/-- The change count of an object takes one more (R330). -/
def countChange (s : State) (index sub : Nat) : State :=
  { s with changes := Tbl.set s.changes 0 (objKey index sub) ((changeCount s index sub + 1) % 65536) }

/-- The active member of a twin hearth mirrors an accepted write, but for its identity and its twin settings (R289; log entry
125). -/
def mirrorNote (s : State) (index sub : Nat) (ty : ObjTy) (v : ObjVal) : State :=
  if s.get R.fbStatTwin = 1 ∧ index ≠ 0x1000 ∧ index ≠ 0x3080 then
    s.setFab { s.fab with mirrorWrites := s.fab.mirrorWrites ++ [(index, sub, ty.code, v.encode ty)] }
  else s

/-- A write whose type is right, its effect given: the checks after TYPE; an operation that refuses for its state does so
before the range is looked at (Table 14-3). -/
def checkedBy (s : State) (d : ObjDef) (index sub : Nat) (v : ObjVal) (r : Ans) : Ans :=
  if r.2.1 = St.state then r
  else if inRange d.range v = false ∨ rangeMore s index sub v = false then
    (s, St.range, 0)
  else if r.2.1 = St.range then r
  else if busyNow s index sub then (s, St.busy, 0)
  else if r.2.1 = St.busy then r
  else
    match conflictWith s index sub v.nat with
    | some x => (s, St.conflict, x)
    | none => if r.2.1 = St.ok then (countChange (mirrorNote r.1 index sub d.typ v) index sub, St.ok, 0) else r

/-- A write whose type is right. -/
def checkedWrite (s : State) (d : ObjDef) (index sub : Nat) (v : ObjVal) : Ans :=
  checkedBy s d index sub v (objEffect s d index sub v)

/-- A write of one object: the status of the first check of Table 14-3 that fails, else its effect (R329, R330). -/
def writeOne (s : State) (index sub ty : Nat) (bytes : List Byte) : Ans :=
  match find s index sub with
  | none => (s, St.noObject, 0)
  | some d =>
    if d.acc = .ro then (s, St.readOnly, 0)
    else if stateRefused s index sub then (s, St.state, 0)
    else if typeFits d ty bytes.length then checkedWrite s d index sub (ObjVal.decode d.typ bytes)
    else
      let probe := objEffect s d index sub (if d.typ = .blob ∨ d.typ = .string then .bytes [] else .num 1)
      if probe.2.1 = St.state then (s, St.state, 0) else (s, St.type, maxLength d)

end Sys2Proof.Machine
end

