-- ==== Sys2Proof/Machine/Dictionary.lean ====
section
/-!
DEFINITION. The dictionary service as a server: its operations, block sessions, subscriptions, commits and the transports its
responses and notifications leave by (14_object_dictionary.md R329 to R344).
-/
namespace Sys2Proof.Machine
open State

/-- What the service answers a request with. -/
structure Reply where
  status : Nat := 0
  typ : Nat := 0
  aux : Nat := 0
  data : List Byte := []

/-- A refusal. -/
def refuse (status aux : Nat) : Reply := { status := status, aux := aux }

/-! Notifications (R342, R442) -/

/-- A message enters the notify ring of the mailbox (R442). -/
def notifyRing (s : State) (seq : Nat) (msg : List Byte) : State :=
  let put := s.get R.kpNrputNrput
  let a := s.rd64 R.kpNrbaseLo + 1536 * put
  let entry := bytesAt (leBytes 4 seq ++ msg) 0 1532 ++ leBytes 4 seq
  let s := if inSramOrDram s a 1536 then (busStore s 5 a entry).2 else engineError s 5 a
  (s.set R.kpNrputNrput ((put + 1) % 64)).fire 541

/-- Whether a notification to a subscriber can be sent at all. -/
def canSend (s : State) (who : Nat) : Bool :=
  if overCan who then s.flag (R.cnCtrlEn (canOf who).1) && s.get (R.cnStatState (canOf who).1) != 2
  else if overFabric who then s.flag R.fbCtrlEn && !(flueWay s (who - 16777216)).ports.isEmpty
  else true

/-- The present value of a subscribed object. -/
def subValue (s : State) (x : Subscr) : List Byte :=
  match find s x.index x.sub with
  | some d => (objRead s d x.index x.sub).encode d.typ
  | none => []

/-- Type code of a subscribed object. -/
def subType (s : State) (x : Subscr) : Nat :=
  match find s x.index x.sub with
  | some d => d.typ.code
  | none => 0

/-- The subscriptions without the one of an ID. -/
def otherSubs (s : State) (id : Nat) : List Subscr := s.dict.subs.filter fun y => y.id != id

/-- One notification of a subscription, or its end where it cannot be sent (R342). -/
def notifyOne (s : State) (x : Subscr) : State :=
  let v := subValue s x
  let y := { x with seq := (x.seq + 1) % 65536, value := v, last := s.now }
  if canSend s x.who = false then
    (s.setDict { s.dict with subs := otherSubs s x.id }).log 0x1304 (leBytes 2 x.who ++ leBytes 2 x.index ++ leBytes 1 x.sub)
  else
    let s := s.setDict { s.dict with subs := s.dict.subs.map fun z => if z.id = x.id then y else z }
    let msg := messageBytes 0x08 0 0 x.index x.sub (subType s x) (x.id + 65536 * x.seq) v
    let s := s.emit (.notify x.who x.index x.sub v)
    if overCan x.who then canMessage s (canOf x.who).1 (canOf x.who).2 none msg
    else if overFabric x.who then flueSend s 6 0x20 (x.who - 16777216) 0 msg
    else notifyRing s x.seq msg

/-- Every on-change subscription whose value has changed is notified, its minimum interval passed (R342). -/
def notifyChanges (s : State) : State :=
  s.dict.subs.foldl (fun u x =>
    if x.period = 0 ∧ x.last + ms x.least ≤ u.now ∧ subValue u x ≠ x.value then notifyOne u x else u) s

/-! Reads -/

/-- The value bytes a read returns; a read of the challenge draws a new one (R482). -/
def readBytes (s : State) (d : ObjDef) (index sub : Nat) : List Byte × State :=
  if index = 0x1200 ∧ sub = 2 then challengeRead s else ((objRead s d index sub).encode d.typ, s)

/-- NO_OBJECT and WRITE_ONLY, then the rest. -/
def withReadable (s : State) (index sub : Nat) (f : ObjDef → State × Reply) : State × Reply :=
  match find s index sub with
  | none => (s, refuse St.noObject 0)
  | some d => if d.acc = .wo then (s, refuse St.writeOnly 0) else f d

/-- READ (R337, R338). -/
def opRead (s : State) (index sub : Nat) : State × Reply := withReadable s index sub fun d =>
  let r := readBytes s d index sub
  if 1440 < r.1.length then (s, refuse St.type r.1.length)
  else (r.2, { typ := d.typ.code, aux := changeCount s index sub, data := r.1 })

/-- BLOCK_READ (R340). -/
def opBlockRead (s : State) (index sub offset : Nat) (data : List Byte) : State × Reply := withReadable s index sub fun d =>
  let most := leNat data
  if data.length ≠ 2 then (s, refuse St.type 2)
  else if 1440 < most then (s, refuse St.range 0)
  else
    let r := readBytes s d index sub
    if r.1.length < offset then (s, refuse St.range 0)
    else (r.2, { typ := d.typ.code, aux := changeCount s index sub, data := (r.1.drop offset).take most })

/-- DESCRIBE (R338). -/
def opDescribe (s : State) (index sub : Nat) : State × Reply :=
  match find s index sub with
  | none => (s, refuse St.noObject 0)
  | some d =>
    let acc := match d.acc with
      | .ro => 0
      | .rw => 1
      | .wo => 2
      | .rwk => 3
    let dflt := if d.acc = .wo then [] else (d.default (index - d.index)).encode d.typ
    let l := leBytes 1 d.typ.code ++ leBytes 1 acc ++ leBytes 2 (maxLength d) ++ leBytes 1 (recordFormat (objKey index sub)) ++ [0, 0, 0] ++ dflt
    if 1440 < l.length then (s, refuse St.type l.length) else (s, { typ := ObjTy.blob.code, data := l })

/-! Writes -/

/-- NO_OBJECT, READ_ONLY and the STATE of a request from a node that may not write; `none` where they pass. -/
def writeGate (s : State) (denied : Bool) (index sub : Nat) : Option Nat :=
  match find s index sub with
  | none => some St.noObject
  | some d => if d.acc = .ro then some St.readOnly else if denied then some St.state else none

/-- Entries of a list of INDEX 0x0000: index, sub-index, type, value; `none` where the list does not parse (R339). -/
def entriesOf : Nat → List Byte → Option (List (Nat × Nat × Nat × List Byte))
  | _, [] => some []
  | 0, _ => none
  | fuel + 1, l =>
    let n := natAt l 4 2
    let padded := (n + 3) / 4 * 4
    if l.length < 8 + padded then none
    else (entriesOf fuel (l.drop (8 + padded))).map fun r => (natAt l 0 2, natAt l 2 1, natAt l 3 1, bytesAt (l.drop 8) 0 n) :: r

/-- The entries of a list take effect in order; the first that fails ends it with its status and place (R339). -/
def writeEntries (denied : Bool) : List (Nat × Nat × Nat × List Byte) → Nat → State → Ans
  | [], _, s => okAns s
  | e :: l, k, s =>
    match writeGate s denied e.1 e.2.1 with
    | some c => (s, c, k)
    | none =>
      let r := writeOne s e.1 e.2.1 e.2.2.1 e.2.2.2
      if r.2.1 = St.ok then writeEntries denied l (k + 1) r.1 else (r.1, r.2.1, k)

/-- A write of one object, or of the entries of a list, all or none (R329, R339). -/
def writeAny (s : State) (denied : Bool) (index sub typ : Nat) (data : List Byte) : Ans :=
  if index = 0 then
    match entriesOf data.length data with
    | none => (s, St.type, 0)
    | some l =>
      let r := writeEntries denied l 0 s
      if r.2.1 = St.ok then r else (s, r.2.1, r.2.2)
  else
    match writeGate s denied index sub with
    | some c => (s, c, 0)
    | none => writeOne s index sub typ data

/-- A write's answer as a reply. -/
def replyOf (r : Ans) : State × Reply := (r.1, refuse r.2.1 r.2.2)

/-- The session of a requester for an object. -/
def sessionOf (s : State) (who index sub : Nat) : Option Session :=
  s.dict.sessions.find? fun x => x.who == who && x.index == index && x.sub == sub

/-- The sessions but that of a requester for an object. -/
def sessionsBut (s : State) (who index sub : Nat) : List Session :=
  s.dict.sessions.filter fun x => !(x.who == who && x.index == index && x.sub == sub)

/-- A session holds bytes, and lives for 1 s from now (R341). -/
def sessionPut (s : State) (who index sub : Nat) (bytes : List Byte) : State :=
  s.setDict { s.dict with sessions := sessionsBut s who index sub
    ++ [{ who := who, index := index, sub := sub, bytes := bytes, till := s.now + sec 1 }] }

/-- BLOCK_SEG (R341). -/
def opBlockSeg (s : State) (denied : Bool) (who index sub offset : Nat) (data : List Byte) : State × Reply :=
  let gate := if index = 0 then (if denied then some St.state else none) else writeGate s denied index sub
  match gate with
  | some c => (s, refuse c 0)
  | none =>
    let old := sessionOf s who index sub
    if offset = 0 then
      if old.isNone ∧ 8 ≤ s.dict.sessions.length then (s, refuse St.resources 0)
      else (sessionPut s who index sub data, { aux := data.length })
    else
      match old with
      | none => (s, refuse St.sequence 0)
      | some x =>
        let n := x.bytes.length
        if offset = n then (sessionPut s who index sub (x.bytes ++ data), { aux := n + data.length })
        else if offset + data.length = n ∧ x.bytes.drop offset = data then (sessionPut s who index sub x.bytes, { aux := n })
        else (sessionPut s who index sub x.bytes, refuse St.sequence n)

/-- BLOCK_END (R341): the session closes whatever the outcome. -/
def opBlockEnd (s : State) (denied : Bool) (who index sub typ : Nat) (data : List Byte) : State × Reply :=
  let gate := if index = 0 then (if denied then some St.state else none) else writeGate s denied index sub
  match gate with
  | some c => (s.setDict { s.dict with sessions := sessionsBut s who index sub }, refuse c 0)
  | none =>
    match sessionOf s who index sub with
    | none => (s, refuse St.sequence 0)
    | some x =>
      let s := s.setDict { s.dict with sessions := sessionsBut s who index sub }
      if data.length ≠ 8 then (s, refuse St.type 8)
      else if natAt data 0 4 ≠ x.bytes.length ∨ natAt data 4 4 ≠ crcOf crc32c x.bytes then (s, refuse St.check 0)
      else replyOf (writeAny s denied index sub typ x.bytes)

/-- BLOCK_SESSION_EXPIRY (R341): a session without a request for 1 s closes. -/
def sessionExpiry (s : State) (who index sub : Nat) : State :=
  match sessionOf s who index sub with
  | none => s
  | some x =>
    let s := s.passTo x.till
    (s.setDict { s.dict with sessions := sessionsBut s who index sub }).log 0x1307
      (leBytes 2 who ++ leBytes 2 index ++ leBytes 1 sub ++ leBytes 4 x.bytes.length)

/-! Subscriptions (R342) -/

/-- The ID of the next new subscription: the next one not in use. -/
def freeSub (s : State) : Nat :=
  let id := fun k => (s.dict.nextSub + k) % 65536
  id (((List.range 257).find? fun k => !(s.dict.subs.any fun x => x.id == id k)).getD 0)

/-- SUBSCRIBE: AUX holds the period and the minimum interval. -/
def opSubscribe (s : State) (who index sub aux : Nat) : State × Reply := withReadable s index sub fun d =>
  let period := aux % 65536
  let least := aux / 65536 % 65536
  let old := s.dict.subs.find? fun x => x.who == who && x.index == index && x.sub == sub
  if s.lifeCycle = 4 then (s, refuse St.state 0)
  else if 1440 < maxLength d then (s, refuse St.type (maxLength d))
  else if 60000 < period ∨ 60000 < least then (s, refuse St.range 0)
  else if old.isNone ∧ 256 ≤ s.dict.subs.length then (s, refuse St.resources 0)
  else
    let id := match old with
      | some x => x.id
      | none => freeSub s
    let x : Subscr := { id := id, who := who, index := index, sub := sub, period := period, least := least,
                        value := (objRead s d index sub).encode d.typ, last := s.now, grid := some s.time.dev }
    let s := s.setDict { s.dict with subs := otherSubs s id ++ [x],
                                     nextSub := if old.isNone then (id + 1) % 65536 else s.dict.nextSub }
    (s, { aux := id })

/-- UNSUBSCRIBE: AUX holds the ID; one that the requester does not hold leaves nothing to remove. -/
def opUnsubscribe (s : State) (who id : Nat) : State × Reply :=
  if s.lifeCycle = 4 then (s, refuse St.state 0)
  else (s.setDict { s.dict with subs := s.dict.subs.filter fun x => !(x.id == id && x.who == who) }, {})

/-- PERIODIC_NOTIFY: the next multiple of the period of a subscription comes. -/
def periodicNotify (s : State) (id : Nat) : State :=
  match s.dict.subs.find? fun x => x.id == id with
  | none => s
  | some x =>
    if x.period = 0 then s
    else
      let t := gridNext (ms x.period) x.grid s.time.dev
      let s := s.devTo t
      let y := { x with grid := some t }
      let s := s.setDict { s.dict with subs := s.dict.subs.map fun z => if z.id = id then y else z }
      if s.now < y.last + ms y.least then s else notifyOne s y

/-- NOTIFY_KEEPALIVE: an on-change subscription is notified when its minimum interval ends with a change waiting, and when 1 s
has passed without a notification. -/
def keepaliveNotify (s : State) (id : Nat) : State :=
  match s.dict.subs.find? fun x => x.id == id with
  | none => s
  | some x =>
    if x.period ≠ 0 then s
    else
      let t := if subValue s x ≠ x.value then x.last + ms x.least else x.last + max (sec 1) (ms x.least)
      notifyOne (s.passTo t) x

/-! Commit and defaults (R332 to R336) -/

/-- Every retained object of the tables, by index and sub-index, with its row. -/
def retainedObjects : List (ObjDef × Nat × Nat) :=
  ((List.range 64).flatMap objRowsOf).filter fun e => e.1.acc == .rwk
where
  objRowsOf (k : Nat) : List (ObjDef × Nat × Nat) :=
    (objRows (k * 256)).flatMap fun d => (List.range d.count).flatMap fun i =>
      (List.range d.subs).map fun j => (d, d.index + i, d.sub + j)

/-- The retained objects that the application image has created. -/
def oemRetained (s : State) : List (ObjDef × Nat × Nat) :=
  s.oem.filterMap fun e =>
    match e.2 with
    | some o => if o.acc = .rwk then some (rowOf (e.1 / 256) (e.1 % 256) o.typ o.acc o.value, e.1 / 256, e.1 % 256) else none
    | none => none

/-- The records of a commit, in order; `fails` is the place of the first record that the Ember store does not take: the index
of that record, none where all are written (R332). -/
def commitRun (fails : Option Nat) : List (ObjDef × Nat × Nat) → Nat → State → State × Option Nat
  | [], _, s => (s, none)
  | (d, index, sub) :: l, n, s =>
    let t := s.writeRecord index sub d.typ (objRead s d index sub)
    if t.records = s.records then commitRun fails l n s
    else if fails = some n then (s, some index)
    else commitRun fails l (n + 1) t

/-- A commit of a list of objects. -/
def commitList (s : State) (fails : Option Nat) (l : List (ObjDef × Nat × Nat)) : State × Reply :=
  let r := commitRun fails l 0 s
  match r.2 with
  | some index => (r.1.log 0x1303 (leBytes 2 index), refuse St.ember index)
  | none => let t := r.1.nextGeneration; (t, { aux := t.generation })

/-- COMMIT (R332, R334). -/
def opCommit (s : State) (denied : Bool) (index sub : Nat) (fails : Option Nat) : State × Reply :=
  let state := denied || s.lifeCycle == 4 || s.lifeCycle == 0 || s.flag R.msStatPfail
  if index = 0 then (if state then (s, refuse St.state 0) else commitList s fails (retainedObjects ++ oemRetained s))
  else
    match find s index sub with
    | none => (s, refuse St.noObject 0)
    | some d => if state ∨ d.acc ≠ .rwk then (s, refuse St.state 0) else commitList s fails [(d, index, sub)]

/-- A record that DEFAULTS leaves alone. -/
def keptByDefaults (key : Nat) : Bool := key == objKey 0x1000 0x0A || key / 256 == 0x3080

/-- DEFAULTS (R336). -/
def opDefaults (s : State) (denied : Bool) : State × Reply :=
  if denied ∨ s.lifeCycle ≠ 3 then (s, refuse St.state 0)
  else
    let l := s.records.map fun e => if keptByDefaults e.1 then e else (e.1, { e.2 with erase := true })
    (({ s with records := l } : State).log 0x1306 (leBytes 4 (s.records.filter fun e => !keptByDefaults e.1).length), {})

/-! Serving (R329 to R331, R343) -/

/-- The operations that write. -/
def writes (op : Nat) : Bool := [2, 4, 5, 9, 11].contains op

/-- A request executed: `denied` says that a Pavilion has it from a node it takes no writes from. -/
def serveOp (s : State) (denied : Bool) (who op index sub typ aux : Nat) (data : List Byte) (fails : Option Nat) :
    State × Reply :=
  match op with
  | 0x01 => opRead s index sub
  | 0x02 => replyOf (writeAny s denied index sub typ data)
  | 0x03 => opBlockRead s index sub aux data
  | 0x04 => opBlockSeg s denied who index sub aux data
  | 0x05 => opBlockEnd s denied who index sub typ data
  | 0x06 => opSubscribe s who index sub aux
  | 0x07 => opUnsubscribe s who aux
  | 0x09 => opCommit s denied index sub fails
  | 0x0A => opDescribe s index sub
  | 0x0B => opDefaults s denied
  | _ => (s, refuse St.unknownOp 0)

/-- The queue is full: counted, and event 0x1305 at most once per second (R331). -/
def queueFull (s : State) : State :=
  let n := s.dict.full + 1
  if s.secondPassed s.dict.fullAt then
    (s.setDict { s.dict with full := 0, fullAt := some s.now }).log 0x1305 (leBytes 4 n)
  else s.setDict { s.dict with full := n }

/-- A request of a requester: the state and the reply; none where the frame is rejected for its epoch (R331, R343). -/
def serve (s : State) (q : Req) (op index sub typ aux : Nat) (data : List Byte) (fails : Option Nat) : State × Option Reply :=
  let known := [1, 2, 3, 4, 5, 6, 7, 9, 10, 11].contains op
  if known = false then (s, some (refuse St.unknownOp 0))
  else if 256 ≤ q.waiting then (queueFull s, some (refuse St.queueFull 0))
  else if 1440 < data.length then (s, some (refuse St.type 1440))
  else
    let run := fun (u : State) (denied : Bool) =>
      let r := serveOp u denied q.who op index sub typ aux data fails
      (notifyChanges r.1, some r.2)
    if writes op ∧ s.hearth = false ∧ overFabric q.who = true then
      if s.fab.bound.contains q.serial then
        let e := epochCheck s (q.who - 16777216) q.serial q.epoch 0x20
        if e.2 then run e.1 false else (e.1, none)
      else run s true
    else run s false

/-- The response to a request over the fabric leaves, and its frame is kept, 256 of them (R343). -/
def fabricRespond (s : State) (q : Req) (msg : List Byte) : State :=
  let w := flueWay s (q.who - 16777216)
  let f := flueNext s w 6 0x20 (q.who - 16777216) isResponse s.fab.epoch msg
  let t := flueEmit s w 6 0x20 (q.who - 16777216) isResponse s.fab.epoch msg
  t.setDict { t.dict with kept := ((q.who, q.seq, f) :: t.dict.kept).take 256 }

/-- A response leaves by the transport its request came by. -/
def respond (s : State) (q : Req) (op index sub : Nat) (r : Reply) : State :=
  let s := s.emit (.response q.who q.tag (op + 128) r.status index sub r.typ r.aux r.data)
  let msg := messageBytes (op + 128) r.status q.tag index sub r.typ r.aux r.data
  if overFabric q.who then fabricRespond s q msg
  else if overCan q.who then canMessage s (canOf q.who).1 (canOf q.who).2 none msg
  else s

/-- Whether the service answers at all: the main firmware runs, or in BLANK the Keeper serves CN0 (R483). -/
def served (s : State) (q : Req) : Bool := s.serving || (s.lifeCycle == 0 && overCan q.who && (canOf q.who).1 == 0)

/-- A request is executed and answered; a retransmitted one gets its kept response again (R331, R343). -/
def requestRun (s : State) (q : Req) (op index sub typ aux : Nat) (data : List Byte) (fails : Option Nat) : State :=
  match (if overFabric q.who then s.dict.kept.find? fun k => k.1 == q.who && k.2.1 == q.seq else none) with
  | some k => flueLeave k.2.2 (flueWay s k.2.2.dst).ports s
  | none =>
    let r := serve s q op index sub typ aux data fails
    match r.2 with
    | some y => respond r.1 q op index sub y
    | none => r.1

/-- A request arrives. A fabric peer needs a context of CV7; its frame is discarded and counted where none can be had
(R322). -/
def request (s : State) (q : Req) (op index sub typ aux : Nat) (data : List Byte) (fails : Option Nat) : State :=
  if served s q = false then s
  else if overFabric q.who then
    let c := peerContext s q.who (peerWorks s)
    if c.1.isSome then requestRun c.2 q op index sub typ aux data fails
    else { c.2 with cv := { c.2.cv with refused := c.2.cv.refused + 1 } }
  else requestRun s q op index sub typ aux data fails

end Sys2Proof.Machine
end

