-- ==== Sys2Proof/Machine/Requester.lean ====
section
/-!
DEFINITION. The dictionary service as a requester, the Keeper mailbox, and dictionary messages over CAN
(14_object_dictionary.md R338, R344 to R346; 20_keeper_events_thermal.md R441, R442).
-/
namespace Sys2Proof.Machine
open State

namespace State
def setKp (s : State) (x : Keeper) : State := { s with kp := x }
def mailSlot (s : State) (k : Nat) : MailSlot := Tbl.get s.kp.slots {} k
def setMailSlot (s : State) (k : Nat) (x : MailSlot) : State := s.setKp { s.kp with slots := Tbl.set s.kp.slots {} k x }
end State

/-- STATE of mailbox slot k: 0 free, 1 CLAIMED, 2 BUSY, 3 DONE. -/
def slotState (s : State) (k : Nat) : Nat := s.get (R.kpSstatState k)

/-! Remote transactions (R346) -/

/-- The service holds a response for a slot until the Keeper writes it. -/
def slotAnswer (s : State) (k : Nat) (msg : List Byte) : State := s.setMailSlot k { s.mailSlot k with response := msg }

/-- The retries below a transaction end: its frame waits for no acknowledgement, its CAN frames are withdrawn (R27, R314). -/
def remoteCut (s : State) (r : Remote) : State :=
  if overFabric r.peer then
    s.setFab { s.fab with waits := s.fab.waits.filter fun w =>
      !(w.frame.kind == 0x20 && w.frame.dst == r.peer - 16777216 && natAt w.frame.payload 2 2 == r.tag) }
  else dictWithdraw s (canOf r.peer).1 r.tag

/-- A transaction of a mailbox slot keeps its place and its tag until the slot is released; one of the firmware goes (R25). -/
def remoteClose (s : State) (r : Remote) : State :=
  s.setDict { s.dict with remotes :=
    if r.slot.isSome then s.dict.remotes.map fun x => if x = r then { x with ended := true } else x
    else s.dict.remotes.filter fun x => x != r }

/-- A remote transaction ends with a message for its slot. -/
def remoteEnd (s : State) (r : Remote) (msg : List Byte) : State :=
  let s := remoteClose (remoteCut s r) r
  match r.slot with
  | some k => if slotState s k = 2 then slotAnswer s k msg else s
  | none => s

/-- The firmware's own transactions move on: a push to a replacement (R287). -/
def ownAnswer (s : State) (r : Remote) (status : Nat) : State :=
  if r.slot.isNone ∧ overFabric r.peer = true then pushAnswer s (r.peer - 16777216) r.op r.index status else s

/-- A response discarded after the end of its transaction (R28, R295). -/
def remoteLate (s : State) (peer : Nat) : State :=
  let s := s.setDict { s.dict with late := s.dict.late + 1 }
  if overFabric peer then s.count R.fbStaleRsp else s

/-- A response that was taken ends its transaction; a subscription granted is kept (R342, R346). -/
def remoteTake (s : State) (r : Remote) (op status index sub typ aux : Nat) (data : List Byte) : State :=
  let mine := fun (x : OwnSub) => (x.peer == r.peer && x.id == aux % 65536)
    || (r.slot.isNone && x.peer == r.peer && x.index == r.index && x.sub == r.sub && !x.mailbox)
  let s :=
    if r.op = 6 ∧ status = St.ok then
      s.setDict { s.dict with own := (s.dict.own.filter fun x => !mine x)
        ++ [{ peer := r.peer, id := aux % 65536, index := r.index, sub := r.sub, last := s.now, mailbox := r.slot.isSome }] }
    else s
  ownAnswer (remoteEnd s r (messageBytes op status r.tag index sub typ aux data)) r status

/-- REMOTE_RESPONSE (R346): a response ends its transaction. One that belongs to none is discarded, and over the fabric one that
the check-value unit finds repeated or stale (R28); `alive` is its ALIVE value. -/
def remoteResponse (s : State) (peer alive tag op status index sub typ aux : Nat) (data : List Byte) : State :=
  let a := if overFabric peer then fabricAlive s peer alive else (true, s)
  match a.1, s.dict.remotes.find? fun r => r.tag == tag && r.peer == peer && r.op + 128 == op && !r.ended with
  | true, some r => remoteTake a.2 r op status index sub typ aux data
  | _, _ => remoteLate a.2 peer

/-- REMOTE_TIMEOUT (R27, R346): a transaction not answered in time ends with TIMEOUT. -/
def remoteTimeout (s : State) (tag : Nat) : State :=
  match s.dict.remotes.find? fun r => r.tag == tag && !r.ended with
  | none => s
  | some r =>
    let s := s.passTo r.till
    let s := if overFabric r.peer then s.count R.fbTimeouts else s
    ownAnswer (remoteEnd s r (messageBytes (r.op + 128) St.timeout r.tag r.index r.sub 0 0 [])) r St.timeout

/-- NOTIFY_RECEIVE (R338): delivered to the subscription of this module whose server and ID it names, else discarded. -/
def notifyReceive (s : State) (peer id seq index sub typ : Nat) (data : List Byte) : State :=
  match s.dict.own.find? fun x => x.peer == peer && x.id == id with
  | none => s
  | some x =>
    let node := if overFabric peer then peer - 16777216 else peer
    let own := s.dict.own.map fun y => if y == x then { y with seq := some seq, last := s.now } else y
    let s := { s.setDict { s.dict with own := own } with
      remote := Tbl.set s.remote none (node * 16777216 + objKey x.index x.sub) (some data) }
    if x.mailbox then notifyRing s seq (messageBytes 0x08 0 0 index sub typ (id + 65536 * seq) data) else s

/-! Mailbox (R345, R441) -/

/-- A read of KP_SLOTCLAIM (R441): the lowest free slot becomes CLAIMED; 0xFF where none is free. -/
def slotClaim (s : State) : State × Nat :=
  match (List.range 16).find? fun k => slotState s k == 0 with
  | some k => ((s.set (R.kpSstatState k) 1).setMailSlot k {}, k)
  | none => (s, 0xFF)

/-- The bytes of a buffer of the mailbox. -/
def mailRead (s : State) (a n : Nat) : List Byte × State :=
  if inSramOrDram s a n then
    let r := busRead s 5 a n
    (bytesAt r.1 0 n, r.2)
  else (List.replicate n 0, engineError s 5 a)

/-- A request of the mailbox whose bytes are known: the status of a refusal, or the response, is held for the slot; a Keeper
that restarts answers it with QUEUE_FULL when it runs again (R425, R441). -/
def mailServe (s : State) (k waiting : Nat) (fails : Option Nat) (pre msg : List Byte) : State :=
  let op := natAt msg 0 1
  let tag := natAt msg 2 2
  let index := natAt msg 4 2
  let sub := natAt msg 6 1
  let typ := natAt msg 7 1
  let aux := natAt msg 10 4
  let data := bytesAt (msg.drop 16) 0 (natAt msg 8 2)
  let answer := fun (u : State) (y : Reply) =>
    slotAnswer u k (messageBytes (op + 128) y.status tag index sub y.typ y.aux y.data)
  let s := s.setMailSlot k { s.mailSlot k with tag := tag }
  if s.keeperRestarts then answer s (refuse St.queueFull 0)
  else
  let peer :=
    match natAt pre 0 1 with
    | 1 => some (16777216 + natAt pre 2 2)
    | 2 => if natAt pre 1 1 < 6 then some (33554432 + 256 * natAt pre 1 1 + natAt pre 2 2 % 256) else none
    | _ => none
  if natAt pre 0 1 = 0 then
    let r := serve s { who := 0, tag := tag, seq := 0, waiting := waiting, serial := 0, epoch := 0 } op index sub typ aux data fails
    match r.2 with
    | some y => answer r.1 y
    | none => r.1
  else if [1, 2, 3, 4, 5, 6, 7, 9, 10, 11].contains op = false then answer s (refuse St.unknownOp 0)
  else
    match peer with
    | none => answer s (refuse St.noObject 0)
    | some p =>
      let r := remoteSend s (some k) p op tag index sub typ aux data
      if r.2 = St.ok then r.1.setMailSlot k { r.1.mailSlot k with remote := true } else answer r.1 (refuse r.2 0)

/-- GO of slot k (R441): the slot becomes BUSY and its request is read and handed on. -/
def mailboxGo (s : State) (k waiting : Nat) (fails : Option Nat) : State :=
  if slotState s k ≠ 1 then s
  else
    let s := s.set (R.kpSstatState k) 2
    let a := s.rd64 (R.kpSreqLo k)
    let h := mailRead s a 20
    let n := min 1440 (natAt h.1 12 2)
    let b := if n = 0 then ([], h.2) else mailRead h.2 (a + 20) n
    mailServe b.2 k waiting fails (h.1.take 4) (h.1.drop 4 ++ b.1)

/-- MAILBOX_DONE (R441): the response message is written into RSP, the slot is DONE with its STATUS, and source 540 fires if
the slot's IRQ bit is 1. -/
def mailboxDone (s : State) (k : Nat) : State :=
  let r := (s.mailSlot k).response
  if slotState s k ≠ 2 ∨ r = [] then s
  else
    let s := s.passTo s.kp.restart
    let a := s.rd64 (R.kpSrspLo k)
    let s := if inSramOrDram s a r.length then (busStore s 5 a r).2 else engineError s 5 a
    let s := ((s.set (R.kpSstatState k) 3).set (R.kpSstatStatus k) (natAt r 1 1)).setMailSlot k {}
    if s.flag (R.kpSctrlIrq k) then s.fire 540 else s

/-- RELEASE of slot k (R441): a BUSY slot's transaction ends with ABORTED and without a response. -/
def mailboxRelease (s : State) (k : Nat) : State :=
  if slotState s k = 0 then s
  else
    let s := (s.dict.remotes.filter fun r => r.slot == some k && !r.ended).foldl remoteCut s
    let s := s.setDict { s.dict with remotes := s.dict.remotes.filter fun r => r.slot != some k }
    (s.set (R.kpSstatState k) 0).setMailSlot k {}

/-! Dictionary messages over CAN (R344) -/

/-- A whole message from a peer over CAN: a request is served, a response ends its transaction, a notification is
delivered. -/
def canDictMessage (s : State) (peer : Nat) (m : List Byte) : State :=
  let op := natAt m 0 1
  let tag := natAt m 2 2
  let index := natAt m 4 2
  let sub := natAt m 6 1
  let typ := natAt m 7 1
  let n := natAt m 8 2
  let aux := natAt m 10 4
  if m.length < 16 + n then s
  else
    let data := bytesAt (m.drop 16) 0 n
    if 128 ≤ op then remoteResponse s peer 0 tag op (natAt m 1 1) index sub typ aux data
    else if op = 8 then notifyReceive s peer (aux % 65536) (aux / 65536) index sub typ data
    else request s { who := peer, tag := tag, seq := 0, waiting := 0, serial := 0, epoch := 0 } op index sub typ aux data none

/-- A frame is for the dictionary service of channel c: a 29-bit identifier with the prefix and own address (R344, R483). -/
def forDictionary (s : State) (c : Nat) (x : CanFrame) : Bool :=
  ((s.canN c 0x21 == 1 && s.serving) || (s.lifeCycle == 0 && c == 0))
    && x.flags / 8 % 2 == 0 && x.id / 536870912 % 4 == 1 && x.id / 65536 % 8192 == s.canN c 0x22
    && x.id / 256 % 256 == dictAddr s c && decide (2 ≤ x.data.length)

/-- A dictionary frame from a source address (R344): its alive counter is checked, then its segment taken. -/
def canDictFrame (s : State) (c : Nat) (x : CanFrame) : State :=
  let src := x.id % 256
  let peer := 33554432 + 256 * c + src
  let ctx := peerContext s peer (peerWorks s)
  match ctx.1 with
  | none => { ctx.2 with cv := { ctx.2.cv with refused := ctx.2.cv.refused + 1 } }
  | some k =>
    let a := aliveCheck (dictChecker ctx.2) 7 k (natAt x.data 1 1)
    let s := a.2
    let put := fun (u : State) (p : Option CanPart) => u.setCan c { u.canCh c with parts := Tbl.set (u.canCh c).parts none src p }
    let seg := natAt x.data 0 1 / 64
    let num := natAt x.data 0 1 % 64
    let bytes := x.data.drop 2
    let take := fun (old : Option CanPart) =>
      match seg, old with
      | 0, _ => canDictMessage (put s none) peer bytes
      | 1, _ => put s (some { next := 1, bytes := bytes, till := s.now + ms 50 })
      | _, none => s
      | g, some p =>
        if num ≠ p.next then put s none
        else if g = 2 then put s (some { next := (num + 1) % 64, bytes := p.bytes ++ bytes, till := s.now + ms 50 })
        else canDictMessage (put s none) peer (p.bytes ++ bytes)
    let old := Tbl.get (s.canCh c).parts none src
    match a.1 with
    | .repeated => s
    | .stale => s
    | .skipped _ => if seg < 2 then take none else put s none
    | _ => take old

/-- CAN_RECEIVE (R304): the end of another node's frame on the bus: `what` is 0 for a good frame, 1 to 6 for an error of that
LEC code, 7 for a protocol exception; `t` is the device time of its start-of-frame sample point, `tec` and `rcnt` the error
counts as ISO 11898-1 leaves them (R304, R309, R315). -/
def canReceive (s : State) (c what : Nat) (x : CanFrame) (t : Time) (tec rcnt : Nat) : State :=
  if s.flag (R.cnCtrlEn c) = false ∨ s.get (R.cnStatState c) = 2 ∨ s.get (R.cnCtrlMode c) = 3 then s
  else
    let s := s.setCan c { s.canCh c with busy := false }
    let s :=
      if what = 0 then
        let s := canCorrection (canDeliver (s.count (R.cnRxfrm c)) c t x) c x
        if forDictionary s c x then canDictFrame s c x else s
      else if what = 7 then protocolException s c
      else canError s c what
    canOffer (canPump (canCounts s c tec rcnt) c) c

/-- CAN_REASSEMBLY_TIMEOUT (R344): a message whose next frame does not arrive within 50 ms is discarded. -/
def reassemblyTimeout (s : State) (c src : Nat) : State :=
  match Tbl.get (s.canCh c).parts none src with
  | none => s
  | some p =>
    let s := s.passTo p.till
    s.setCan c { s.canCh c with parts := Tbl.set (s.canCh c).parts none src none }

end Sys2Proof.Machine
end

