-- ==== Sys2Proof/Machine/Restore.lean ====
section
/-!
DEFINITION. The restore of retained records at a start, with migration and roll-back (14_object_dictionary.md R335, R336;
22_security_update.md R497 to R499).
-/
namespace Sys2Proof.Machine
open State

/-- A row of the dictionary with the index and sub-index it stands for. -/
abbrev Place := ObjDef × Nat × Nat

/-- The objects restored after all others: enables, which fix what they enable. -/
def restoredLast (p : Place) : Bool :=
  let index := p.2.1
  let sub := p.2.2
  ((index == 0x2400 || index == 0x3500 || (decide (0x3100 ≤ index) && decide (index < 0x3106))
      || (decide (0x2500 ≤ index) && decide (index < 0x2504))) && sub == 1)
    || (decide (0x2500 ≤ index) && decide (index < 0x2504) && decide (0x11 ≤ sub) && decide (sub ≤ 0x1C) && tapPart sub == 4)

/-- Loop objects come first (R426 step 8). -/
def isLoopObject (p : Place) : Bool := decide (0x2000 ≤ p.2.1) && decide (p.2.1 < 0x2040)

/-- The axes of a stored correction lie within their bounds (R155, R156). -/
def correctionOk (l : List Byte) : Bool :=
  (List.range 6).all fun i => F32.isFinite (f32At l i) && F32.le (F32.abs (f32At l i)) (axisBound i)

/-- A stored correction is applied at once (R156). -/
def correctionTake (s : State) (k : Nat) (l : List Byte) : State :=
  let c := (List.range 6).map (f32At l)
  s.setFuSlot k { s.fuSlot k with corr := c, est := c, stableAt := s.now }

/-- The effect of a restored value: that of a write, but for the settings that only an event of their own puts in effect
(R335, R156, R389, R438). -/
def restoreEffect (s : State) (d : ObjDef) (index sub : Nat) (v : ObjVal) : Ans :=
  if index = 0x1380 ∨ (index = 0x3300 ∧ (sub = 0x20 ∨ sub = 0x22)) ∨ index = 0x3080 then okAns (s.setObj index sub v)
  else if 0x2410 ≤ index ∧ index < 0x2450 ∧ sub = 0x0B then
    okAns (correctionTake (s.setObj index sub v) (index - 0x2410) v.list)
  else if 0x2410 ≤ index ∧ index < 0x2450 then okAns (s.setObj index sub v)
  else objEffect s d index sub v

/-- The value keeps its range: a correction the bounds of R155, any other value those of a write (R156, R335). -/
def restoreInRange (s : State) (d : ObjDef) (index sub : Nat) (v : ObjVal) : Bool :=
  if 0x2410 ≤ index ∧ index < 0x2450 ∧ sub = 0x0B then correctionOk v.list
  else inRange d.range v && rangeMore s index sub v && (conflictWith s index sub v.nat).isNone

/-- A value reaches its object: `none` where its range or its register refuses it. An object that reads so already needs no
write. -/
def restorePut (s : State) (p : Place) (v : ObjVal) : Option State :=
  let (d, index, sub) := p
  if objRead s d index sub = v then some s
  else if restoreInRange s d index sub v = false then none
  else
    let r := restoreEffect s d index sub v
    if r.2.1 = St.ok then some r.1 else none

/-- The cause for which a record is discarded before its value is looked at (R335 step 2), or its value bytes. -/
def recordValue (p : Place) (r : Rec) : Nat ⊕ List Byte :=
  let (d, index, sub) := p
  if r.crcOk = false then .inl 1
  else if r.typ ≠ d.typ.code then .inl 2
  else if typeFits d r.typ r.value.length = false then .inl 3
  else if r.fmt = recordFormat (objKey index sub) then .inr r.value
  else
    match Config.migrated (objKey index sub) r.fmt r.value with
    | some l => if typeFits d d.typ.code l.length then .inr l else .inl 5
    | none => .inl 5

/-- A record is discarded, with event 0x1301 (R335 step 3). -/
def recordDiscard (s : State) (index sub cause : Nat) : State :=
  ({ s with records := Tbl.erase s.records (objKey index sub) } : State).log 0x1301
    (leBytes 2 index ++ leBytes 1 sub ++ leBytes 1 cause)

/-- The default of an object reaches its register; the stage dies may hold another value (R335). -/
def restoreDefault (s : State) (p : Place) : State := (restorePut s p (p.1.default (p.2.1 - p.1.index))).getD s

/-- One object is restored. In a pass that is not the last, one that its range or register refuses waits for the values it
depends on. -/
def restoreOne (s : State) (last : Bool) (p : Place) : State × Bool :=
  match s.recordOf p.2.1 p.2.2 with
  | none => (restoreDefault s p, true)
  | some r =>
    match recordValue p r with
    | .inl cause => (restoreDefault (recordDiscard s p.2.1 p.2.2 cause) p, true)
    | .inr l =>
      match restorePut s p (ObjVal.decode p.1.typ l) with
      | some t => (t, true)
      | none => if last then (restoreDefault (recordDiscard s p.2.1 p.2.2 4) p, true) else (s, false)

/-- A pass over objects: the state, and those that wait. -/
def restorePass (last : Bool) : List Place → State → State × List Place
  | [], s => (s, [])
  | p :: l, s =>
    let r := restoreOne s last p
    let t := restorePass last l r.1
    if r.2 then t else (t.1, p :: t.2)

/-- A record of an object that no longer exists or is no longer RWK is discarded with cause 6 (R335). -/
def dropUnknown (s : State) (l : List Place) : State :=
  let known := l.map fun p => objKey p.2.1 p.2.2
  (s.records.filter fun e => !known.contains e.1).foldl (fun u e => recordDiscard u (e.1 / 256) (e.1 % 256) 6) s

/-- Values of the objects of the application image that no record keeps are gone. -/
def oemClear (s : State) : State :=
  { s with oem := s.oem.map fun e => (e.1, e.2.map fun o =>
      { o with value := if o.typ = .string ∨ o.typ = .blob then .bytes [] else .num 0 }) }

/-- RESTORE (R335): records marked for erasure are gone (R336); loop objects come first, enables last, and a value that is
refused for one restored later is taken up again. -/
def restoreAll (s : State) : State :=
  let s := oemClear { s with records := s.records.filter fun e => !e.2.erase }
  let all := retainedObjects ++ oemRetained s
  let loops := all.filter isLoopObject
  let rest := all.filter fun p => !isLoopObject p && !restoredLast p
  let r := restorePass false (loops ++ rest) (dropUnknown s all)
  let r := restorePass true r.2 r.1
  (restorePass true (all.filter restoredLast) r.1).1

/-! First start and roll-back (R497 to R499) -/

/-- The records to be migrated: those of another format version. -/
def toMigrate (s : State) : List (Nat × Rec) := s.records.filter fun e => e.2.fmt != recordFormat e.1 && e.2.crcOk

/-- One record is migrated: its new record has GEN = G0 + 1 and the old one stays until confirmation. -/
def migrateOne (t : Nat) (s : State) (e : Nat × Rec) : State :=
  let u := s.img t
  let s := s.setImg t { u with saved := e :: u.saved.filter fun x => x.1 != e.1 }
  match Config.migrated e.1 e.2.fmt e.2.value with
  | some l => { s with records := Tbl.insert (Tbl.erase s.records e.1) e.1 { e.2 with fmt := recordFormat e.1, gen := u.g0 + 1, value := l } }
  | none => recordDiscard s (e.1 / 256) (e.1 % 256) 5

/-- Whether a record can be migrated. -/
def migratable (e : Nat × Rec) : Bool := (Config.migrated e.1 e.2.fmt e.2.value).isSome

/-- The first start from a newly activated image of type t: MIGRATION (R497), and the confirmation window opens (R498). -/
def firstStart (s : State) (t : Nat) : State :=
  if (s.img t).first = false then s
  else
    let l := if t = 1 then [] else toMigrate s
    let failed := (l.filter fun e => !migratable e).length
    let s := s.setImg t { s.img t with first := false, g0 := s.generation, saved := [],
                                       confEnd := some (operatingTime s + 600), back := if failed = 0 then 0 else 1 }
    let s := l.foldl (migrateOne t) s
    let s := (setImgState s t 0).set (imgField t 4 2) (if failed = 0 then 1 else 2)
    if t = 1 then s else s.log 0x1707 (leBytes 2 (l.length - failed) ++ leBytes 2 failed)

/-- Before the restore: the roll-backs that are due among some types, then the first starts of the types whose firmware starts
anew. -/
def imagesBefore (s : State) (due types : List Nat) : State :=
  let s := due.foldl (fun u t => if (u.img t).back = 0 then u else rollBack u t) s
  types.foldl firstStart s

/-! Boot chain (R486) -/

/-- The active slot of type t verifies: the image the module was delivered with, or a container that passes every check. -/
def containerOk (s : State) (t : Nat) (c : List Byte) : Bool :=
  headerFault s t c == 0 && decide (conSize c ≤ c.length) && signatureOk c && (List.range (conChunks c)).all (tagOk c)

def activeOk (s : State) (t : Nat) : Bool :=
  let u := s.img t
  !u.erased && (u.active.isEmpty || containerOk s t u.active)

/-- The link of type t boots from its active slot, else from the other one with event 0x1606; without a slot that verifies,
event 0x1607. -/
def bootLink (s : State) (t : Nat) : State :=
  if activeOk s t then s
  else
    let u := s.img t
    if u.bytes.length ≠ 0 ∧ containerOk s t u.bytes = true then
      (slotSwap s t).log 0x1606 (leBytes 1 t ++ leBytes 1 (1 - imgActive s t))
    else s.log 0x1607 (leBytes 1 t)

end Sys2Proof.Machine
end

