-- ==== Sys2Proof/Machine/Reset.lean ====
section
/-!
DEFINITION. Reset kinds, start-up, power states and what survives (19_reset_retention.md R421 to R436; 15_processors_interrupts.md
R355 to R357; 16_memory_storage.md R375, R376, R391; 18_power.md R408, R416, R417).
-/
namespace Sys2Proof.Machine
open State

/-! Kinds (R421, R422): 0 POR, 1 BOR, 2 PIN, 3 KWD, 4 SYS, 5 CLU, 6 RTW, 7 KPR, 8 LCR -/

/-- A reset: its kinds as a mask, its wake source, whether it is a wake from DEEP. -/
structure Cause where
  kinds : Nat
  wake : Nat := 0
  deep : Bool := false

/-- Kind k is among the kinds. -/
def Cause.has (c : Cause) (k : Nat) : Bool := c.kinds / 2 ^ k % 2 == 1

/-- The kinds in rank order (R422). -/
def kindsByRank : List Nat := [0, 1, 8, 2, 3, 4, 6, 5, 7]

/-- The primary kind. -/
def Cause.primary (c : Cause) : Nat := (kindsByRank.find? c.has).getD 0

/-- Some kind is a reset of the main die (R421). -/
def Cause.main (c : Cause) : Bool := [0, 1, 2, 3, 4, 8].any c.has

/-- The stage clear line is asserted (R427). -/
def Cause.clears (c : Cause) : Bool := [0, 1, 2, 8].any c.has

/-- A POR that is no wake from DEEP. -/
def Cause.cold (c : Cause) : Bool := c.has 0 && !c.deep

/-- The Keeper is reset too (Table 19-1). -/
def Cause.keeper (c : Cause) : Bool := c.cold || c.has 2 || c.has 8

/-! Survival (R435, Table 19-4) -/

/-- Registers that a reset of the main die leaves as they are: those of the stage dies, which the clear line resets by itself;
those of the always-on domain unless the Keeper is reset; what the security and update registers show of OTP and the Ember
store; the thermal latch until a POR that is no wake (R458); the state of the clock sources; device time at KWD and SYS. -/
def keptReg (c : Cause) (a : Nat) : Bool :=
  match a / 65536 with
  | 0x2003 => !(a == R.sdIrqStat || a == R.sdIrqEn)
  | 0x2004 => !(a == R.lsIrqStat || a == R.lsIrqEn)
  | 0x200C => !c.keeper
  | 0x200D => !c.keeper || (a == R.thLatch && !c.cold)
  | 0x200F => !c.keeper || a == R.secLc || a == R.secSlots || a == R.secFloor
  | 0x2010 => !c.keeper || decide (R.upTstat 0 ≤ a)
  | 0x2013 => !c.keeper
  | 0x2000 => a == R.ckStat && !c.cold
  | 0x2008 => (a == R.gnTq || a == R.gnTfunc) && !c.clears
  | _ => false

/-- The wipe of a memory cell: on-die SRAM with the stage clear line, DRAM at POR and LCR (R391). -/
def keptByte (c : Cause) (a : Nat) : Bool := if 0x80000000 ≤ a then !(c.has 0 || c.has 8) else !c.clears

/-- Nodes of the Hearth after its start: the map in managed flash, every node still to be discovered (R275, R287). -/
def nodesKept (s : State) : Tbl (Option Node) :=
  s.fab.nodes.map fun e => (e.1, e.2.map fun n =>
    { serial := n.serial, record := n.record, recordGen := n.recordGen, recordCrc := n.recordCrc, state := 1,
      absentAt := some s.now })

/-- The link master starts anew: writes on their way and what it knew of the dies are gone; the dies stay as they are. -/
def linkForgets (x : Stage) : Stage :=
  { x with posted := [], seen := [], dies := x.dies.map fun e =>
      (e.1, { e.2 with status := none, arrived := false, missed := 0, valid := 0 }) }

/-- What a reset of the main die leaves of the state (Table 19-4); everything else is as after the first reset. -/
def survivors (s : State) (c : Cause) : State :=
  { State.reset with
    now := s.now, freeCtr := s.freeCtr, out := s.out, pending := s.pending, hw := s.hw,
    regs := s.regs.filter fun e => keptReg c e.1,
    objs := s.objs.filter fun e => e.1 == objKey 0x1000 0x04,
    oem := s.oem,
    par := { tasks := s.par.tasks, reserve := s.par.reserve },
    fab := { epoch := s.fab.epoch, setter := s.fab.setter, superseded := s.fab.superseded, nodes := nodesKept s,
             takeover := s.fab.takeover },
    chim := { store := s.chim.store, nextId := s.chim.nextId },
    panel := { geometry := s.panel.geometry, journal := s.panel.journal, frame := s.panel.frame },
    th := if c.keeper then {} else s.th,
    kp := if c.keeper then {} else s.kp,
    pwr := if c.cold then { ign := s.pwr.ign } else s.pwr,
    pwrStatus := if c.cold then 0 else s.pwrStatus,
    ps := { s.ps with due := 0, clusters := 0, wake := 0, shut := none, appDue := false },
    sec := { s.sec with target := none, debugTill := none,
                        challenge := if c.keeper then none else s.sec.challenge,
                        staged := if c.keeper then none else s.sec.staged },
    upd := { s.upd with waits := none, down := [] },
    mem := s.mem.filter fun e => keptByte c e.1,
    ev := { s.ev with intake := if c.keeper then [] else s.ev.intake },
    stage := linkForgets s.stage,
    fu := { farLogged := !c.cold && s.fu.farLogged },
    ce := { phase := s.ce.phase, lastBoundary := s.ce.lastBoundary, resetAt := s.ce.resetAt },
    stop := { inA := s.stop.inA, inB := s.stop.inB },
    clk := if c.cold then {} else { s.clk with target := [2, 2], seqEnd := [0, 0], gated := [],
                                                      rtcBad := if c.has 0 then s.clk.xt else s.clk.rtcBad },
    sram := s.sram,
    dram := { retired := s.dram.retired, bad := if c.has 0 ∨ c.has 8 then [] else s.dram.bad },
    flash := { s.flash with queue := {}, late := [] },
    gn := { orbits := s.gn.orbits, lastPos := s.gn.lastPos },
    intg := s.intg, records := s.records, generation := s.generation,
    procs := { selfTest := s.procs.selfTest, fenced := s.procs.fenced, bootCore := s.procs.bootCore,
               mismatches := if c.has 0 then 0 else s.procs.mismatches },
    time := if c.clears then { learned := s.time.learned } else { s.time with fixSince := none },
    roleInEffect := s.roleInEffect }

/-- Loops own no channel any more. -/
def disown (s : State) : State :=
  let s := (List.range 48).foldl (fun u n => u.set (R.sdCstatOwned n) 0) s
  (List.range 32).foldl (fun u n => u.set (R.lsCstatOwned n) 0) s

/-- Every stage die is held: the stage link is silent (R53, R84). -/
def stagesHold (s : State) : State :=
  let s := (List.range 5).foldl holdEntry (disown s)
  { s.set R.ceStatHeld 1 with ce := { s.ce with resetAt := s.now } }

/-- Bits of a register that are kept; the others take v. -/
def keepBits (s : State) (a mask : Nat) (v : Word) : State := s.wr a ((s.rd a &&& BitVec.ofNat 32 mask) ||| v)

/-- The stages are cleared (R427): what the status registers show of the link, the holds and the stop follows. -/
def stagesClear (s : State) : State :=
  let s := { stageClear (disown s) with }
  keepBits (keepBits s R.sdStat 0x7C00 512) R.lsStat 0x780 64

/-! Device time (R202) -/

/-- What the RTC counts in d ns: within 50 ppm of it, the rest is free (R392, log entry 49). -/
def rtcElapsed (s : State) (d : Nat) : Nat := d + d * ((Config.freeWord s.freeCtr).toNat % 100001) / 1000000000 - d / 20000

/-- Device time at a start that takes it from the RTC. -/
def timeFromRtc (s : State) : State :=
  match s.ps.rtc with
  | none => s
  | some (t, u, at_) =>
    let learned := s.time.learned
    if s.ps.rtcValid = false then { s with time := { dev := t, uncAt := s.now, learned := learned } }
    else
      let d := s.now - at_
      { s.fresh.set R.gnTqState 1 with
        time := { dev := (t + rtcElapsed s d) % 18446744073709551616, unc0 := min (u + d / 20000 + 100000) uncMax,
                  uncAt := s.now, learned := learned } }

/-! SRAM repair (R375, R376) -/

/-- A failing row takes a spare, or its macro is failed. -/
def rowRepair (s : State) (e : Nat × Nat) : State :=
  let used := Tbl.get s.sram.spares 0 e.1
  if s.sram.failed.contains e.1 then s
  else if used < 8 then
    ({ s with sram := { s.sram with spares := Tbl.set s.sram.spares 0 e.1 (used + 1) } } : State).log 0x0501
      (leBytes 2 e.1 ++ leBytes 2 e.2)
  else
    ({ s with sram := { s.sram with failed := s.sram.failed ++ [e.1] } } : State).log 0x0502 (leBytes 2 e.1 ++ leBytes 1 2)

/-- The macros that the repair of a start leaves alone. -/
def keeperMacro (m : Nat) : Bool := decide (248 ≤ m) && decide (m < 256)

/-- SRAM repair at POR (R375): stored repairs whose record fails are discarded, then the rows that the self-test finds. -/
def sramRepair (s : State) (deep : Bool) : State :=
  let tested := fun m => decide (m < 320) && !(deep && keeperMacro m)
  let s := (s.hw.badRepairs.filter tested).foldl (fun (u : State) m =>
    ({ u with sram := { spares := Tbl.set u.sram.spares 0 m 0, failed := u.sram.failed.filter fun x => x != m } } : State).log
      0x0502 (leBytes 2 m ++ leBytes 1 1)) s
  (s.hw.rows.filter fun e => tested e.1).foldl rowRepair s

/-! Processors (R354 to R357) -/

/-- APPLICATION_SELF_TEST of the clusters of the mask (R356), and the choice of the boot core (R357). -/
def selfTest (s : State) (clusters : Nat) : State :=
  let tested := fun k => clusters / 2 ^ (k / 4) % 2 == 1
  let code := fun k => if tested k then s.hw.cores.getD k 0 else s.procs.selfTest.getD k 0
  let codes := (List.range 8).map code
  let bad := (List.range 8).filter fun k => code k != 0
  let boot := ((List.range 8).find? fun k => code k == 0).getD 0xFF
  let s := { s with procs := { s.procs with selfTest := codes, fenced := (bad.map (2 ^ ·)).sum, bootCore := boot } }
  let s := (bad.filter tested).foldl (fun (u : State) k => u.log 0x0401 (leBytes 1 k ++ leBytes 1 (code k))) s
  if boot = 0xFF then s.log 0x0402 else s

/-- The TCM of real-time core n works; in paired mode that of its pair (Table 16-2). -/
def tcmOk (s : State) (n : Nat) : Bool :=
  let own := fun k => !s.sram.failed.any fun m => decide (128 + 8 * k ≤ m) && decide (m < 136 + 8 * k)
  if s.flag R.icCtrlPaired then own (n / 2 * 2) && own (n / 2 * 2 + 1) else own n

/-- The processors that a start releases. -/
def released (s : State) : Nat :=
  255 + 4096 + (((List.range 4).filter (tcmOk s)).map fun n => 2 ^ (8 + n)).sum

/-! Watchdogs (R437, R438) -/

/-- Period of the main or the real-time watchdogs in ms: a stored 0 is the default outside SERVICE (R438). -/
def watchPeriod (s : State) (sub dflt : Nat) : Nat :=
  let p := s.objN 0x3300 sub
  if p = 0 ∧ s.lifeCycle ≠ 3 then dflt else p

/-- A watchdog runs for n ms from now, or from the end of a restart of the Keeper (R425, R439); one whose period is 0 is off. -/
def watchFor (s : State) (period n : Nat) : Watchdog :=
  { till := if period = 0 then none else some (max s.now s.kp.restart + ms n) }

/-- The real-time watchdogs of the present mode: of each pair, or of each core. -/
def watched (s : State) : List Nat := if s.flag R.icCtrlPaired then [0, 2] else [0, 1, 2, 3]

/-- The real-time watchdogs of a list run for n ms. -/
def watchRt (s : State) (l : List Nat) (n : Nat) : State :=
  l.foldl (fun u k => u.setKp { u.kp with rt := Tbl.set u.kp.rt {} k (watchFor u (watchPeriod u 0x22 20) n) }) s

/-- The main watchdog runs for n ms. -/
def watchMain (s : State) (n : Nat) : State := s.setKp { s.kp with main := watchFor s (watchPeriod s 0x20 500) n }

/-! The reset record (R436) -/

/-- RESET_RECORD: the record of a reset asserted now; START is not stated and free. `stages`: 0 untouched, 1 held, 2 cleared. -/
def resetRecord (s : State) (c : Cause) (time : Time) (tq stages : Nat) : State :=
  let l := leBytes 1 c.primary ++ leBytes 1 c.wake ++ leBytes 2 c.kinds ++ leBytes 4 (operatingTime s) ++ leBytes 4 s.ev.pcycle
    ++ leBytes 8 (if c.cold then 0 else time) ++ leBytes 1 (if c.cold then 0 else tq) ++ leBytes 1 stages ++ leBytes 2 0xFFFF
    ++ leBytes 4 (Config.freeWord s.freeCtr).toNat ++ leBytes 4 0
  setPs s.fresh { s.ps with record := l }

/-- The start covers the scope of kind k, whose cause came while it ran (R421, R422). -/
def Cause.covers (c : Cause) (k : Nat) : Bool :=
  match k with
  | 0 => c.cold
  | 1 => c.clears
  | 2 => c.keeper
  | 7 => c.keeper
  | 8 => c.has 8
  | _ => c.main && decide (k < 8)

/-- What came up while the start ran: kinds that it covers join the record with event 0x0205 (R422), and steps that exceeded
their bound are logged (R426). A kind that it does not cover is a command of its own, after this start. -/
def startNotes (s : State) (c : Cause) : State :=
  let ks := s.hw.during.filter c.covers
  let kinds := ks.foldl (fun m k => Nat.lor m (2 ^ k)) (natAt s.ps.record 2 2)
  let head := leBytes 1 ({ kinds := kinds : Cause }).primary ++ bytesAt (s.ps.record.drop 1) 0 1 ++ leBytes 2 kinds
  let s := setPs s { s.ps with record := head ++ s.ps.record.drop 4 }
  let s := ks.foldl (fun (u : State) k => u.log 0x0205 (leBytes 1 k)) s
  let s := s.hw.overran.foldl (fun (u : State) e => u.log 0x0206 (leBytes 1 e.1 ++ leBytes 4 e.2)) s
  { s with hw := { s.hw with during := [], overran := [] } }

/-- At the end of the start: the counters of the kinds and event 0x0201. -/
def resetReport (s : State) : State :=
  let kinds := natAt s.ps.record 2 2
  let counts := s.ps.counts.mapIdx fun k n => if kinds / 2 ^ k % 2 = 1 then (n + 1) % 4294967296 else n
  (setPs s { s.ps with counts := counts }).log 0x0201
    (leBytes 1 (natAt s.ps.record 0 1) ++ leBytes 2 kinds ++ leBytes 1 (natAt s.ps.record 1 1))

/-! Assertion of a reset of the main die -/

/-- A new power cycle (R445, R451). -/
def newCycle (s : State) : State :=
  s.setEv { s.ev with pcycle := (s.ev.pcycle + 1) % 4294967296, anchored := false, lossLogged := false }

/-- Operating time counts on. -/
def opResume (s : State) : State := if s.ev.opStop then s.setEv { s.ev with opStop := false, opSince := s.now } else s

/-- The life-cycle transition that an LCR completes (R479, R480, Table 16-7); out of BLANK the staged serial number goes into OTP
with it (R483). -/
def lifeChange (s : State) (old new_ : Nat) (staged : Option Nat) : State :=
  let s := (s.set R.secLcState new_).set R.secLcPend 0
  let s := if old = 0 then s.setObjN 0x1000 0x04 (staged.getD 0) else s
  let s := s.setSec { s.sec with staged := none }
  let s := cryptoErase s [4, 5, 6, 8, 9]
  let s := (s.setImg 3 { erased := true }).setUpd { (s.setImg 3 { erased := true }).upd with nodes := [] }
  let s := ((s.wr (R.upTstat 2) 0).wr (R.upTreceived 2) 0).wr64 (R.upTiverLo 2) 0
  let s := s.wr64 (R.upTaverLo 2) 0
  let s := { s with par := {}, oem := [], chim := { nextId := s.chim.nextId } }
  let s :=
    if new_ = 4 then
      { s with records := [], gn := {}, panel := {}, upd := { s.upd with types := s.upd.types.map fun u => { u with saved := [] } } }
    else s
  s.log 0x1601 (leBytes 1 old ++ leBytes 1 new_)

/-- A reset of the main die is asserted: its scope, the wipes, the stages, the record. -/
def assertMain (s : State) (c : Cause) : State :=
  let old := s.lifeCycle
  let target := s.sec.target
  let staged := s.sec.staged
  let debug := s.get ⟨R.secDbg, 0, 3⟩
  let time := s.time.dev
  let tq := timeState s
  let s := opResume s
  let s := if c.has 0 ∨ c.has 1 then newCycle s else s
  let s := if c.has 1 then pwrCount s 2 else s
  let s := if c.has 0 ∨ c.has 1 then flashCut s else s
  let s := clocksReset (intakeCut (survivors s c)) (c.has 0 || c.has 1 || c.has 2) (c.has 0 || c.has 1)
  let s := (s.set R.evSeqSeq s.ev.seq).set R.evOldestOldest (oldestRecord s)
  let s := if debug = 0 then s else (s.set ⟨R.secDbg, 0, 3⟩ 0).log 0x1604 (leBytes 1 4)
  let s := if c.clears then timeFromRtc (stagesClear s) else stagesHold s
  let s := resetRecord s c time tq (if c.clears then 2 else 1)
  match c.has 8, target with
  | true, some n => lifeChange s old n staged
  | _, _ => s

/-! Start-up (R426) -/

/-- The integrity settings that take effect at a reset of these kinds (R354, R377, R383, R389). -/
def integrityTake (s : State) (c : Cause) : State :=
  let take := fun k => if k = 0 then true else if k = 1 then c.has 0 || c.has 8 else if k = 2 then c.has 0
    else c.has 0 || c.has 2 || c.has 4
  let l := s.intg.mapIdx fun k v => if take k then s.objN 0x1380 (k + 1) else v
  { s with intg := l }.put R.icCtrlPaired (l.getD 0 1 == 1)

/-- The role in effect (R7, R481), and what a Hearth holds from its start (R275, R290, R291). -/
def roleTake (s : State) : State :=
  let role := if s.lifeCycle = 4 then 0 else s.objN 0x1000 0x0A
  let member := s.objN 0x3080 0x01
  let s := { s with roleInEffect := role }
  let s := ((s.set R.fbEpochEpoch s.fab.epoch).set R.ghEpochEpoch s.fab.epoch).wr64 R.fbHserLo s.fab.setter
  if role = 1 then
    let s := (s.set R.fbStatNodeid (if member = 2 then 2 else 1)).set R.fbStatAssigned 1
    if member = 0 then s else syncMaster ((s.set R.fbStatTwin 3).setFab { s.fab with started := some s.now })
  else s

/-- Some zone of module scope has latched a shutdown (R458). -/
def thermalLatched (s : State) : Bool :=
  (List.range 20).any fun z => zoneKind z != .stage && s.flag ⟨R.thLatch, z, 1⟩

/-- In BLANK the Keeper serves the provisioning subset over CN0 alone (R483). -/
def blankStart (s : State) : State :=
  let s := ((s.setObjN 0x3100 0x04 500000).setObjN 0x3100 0x05 875).setObjN 0x3100 0x1A 0
  canEnable (timingDerive (s.set (R.cnCtrlFmt 0) 0) 0) 0

/-- The stop state out of reset: LATCHED with a cause present, else RELEASED, which fires source 391 (R128, R428). An input
is released only where its level is above 7 V: one that was released and lies in the band at the start is asserted (R126; log
entry 47). -/
def stopStart (s : State) : State :=
  let x := { s.stop with inA := s.stop.inA || s.hw.band % 2 == 1, inB := s.stop.inB || s.hw.band / 2 % 2 == 1 }
  let s := stopDiffer { s.set R.siStopState 2 with stop := x }
  if stopCauses s = 0 then (stopEvaluate s).fire 391 else stopEvaluate s

/-- Step 9: services start, the application is due, and without IGN the shutdown time runs (R426, R428). -/
def servicesStart (s : State) : State :=
  let s := setMode s 0
  let s := setPs s { s.ps with appDue := s.procs.bootCore != 0xFF && activeOk s 3 }
  if ignActive s then s.pwrBit 5 false else shutdownStart s

/-- The Keeper compares the copies of the Ember store (R383): an uncorrectable word of copy 0 is repaired from copy 1 where
dual-copy is in effect and that copy is good, else it is a non-maskable cause. -/
def emberCompare (s : State) : State :=
  s.hw.ember.foldl (fun (u : State) e =>
    if e.2 && u.intg.getD 2 1 == 1 then ((u.count R.msErep).fire 452).log 0x0505 (leBytes 4 e.1) else (nmi u 1).log 0x0506 (leBytes 4 e.1)) s

/-- The Keeper ROM reconstructs the device key at every POR, in every state but BLANK, where no PUF is enrolled (R485). -/
def deviceKey (s : State) (c : Cause) : State :=
  if c.has 0 = false ∨ c.deep = true ∨ s.lifeCycle = 0 then s
  else if s.hw.puf then s.set R.secLcPufOk 1 else (s.set R.secLcPufOk 0).log 0x1608

/-- A PUF reconstruction failure of this start stops it before the main die is released (R485). -/
def keyLost (s : State) (c : Cause) : Bool := c.has 0 && !c.deep && s.lifeCycle != 0 && !s.hw.puf

/-- Steps 5 to 9 of a start of the main die, the kinds as recorded (R426). -/
def startUp (s : State) (c : Cause) : State :=
  let s := if c.keeper then bootLink (recordsCheck s) 1 else s
  if s.lifeCycle = 0 then blankStart (setMode s 8)
  else if keyLost s c then resetReport (setMode s 8)
  else if thermalLatched s then setMode s 6
  else
    let s := if activeOk s 2 then s else bootLink s 2
    if activeOk s 2 = false ∨ (c.keeper = true ∧ activeOk s 1 = false) ∨ s.sram.failed.any keeperMacro = true then
      resetReport (startNotes (setMode s 8) c)
    else
      let s := selfTest (setMode s 0) 3
      let s := imagesBefore s [1, 2, 3] (if c.keeper then [1, 2, 3] else [2, 3])
      let s := bootLink s 3
      let s := s.put R.msStatPfail (s.pwrFlag 0)
      let s := { s with procs := { s.procs with parked := s.pwrFlag 1 } }
      let s := restoreAll s
      let s := roleTake (integrityTake s c)
      let s := { s with procs := { s.procs with outOfReset := released s } }
      let s := watchRt (watchMain s (max 1 (s.objN 0x3300 0x21))) (watched s) 200
      let s := steerReset (govReset (stopStart s))
      let s := ceEnable { s with ce := { s.ce with autoStart := true } }
      let s := setPs s.fresh.fresh { s.ps with durations := [(Config.freeWord s.freeCtr).toNat, (Config.freeWord (s.freeCtr + 1)).toNat] }
      servicesStart (setCeilings (resetReport (startNotes s c)))

/-- A reset of the main die: POWER_ON_RESET, PIN_RESET, SYSTEM_RESET and the others (R421). -/
def mainReset (s : State) (c : Cause) : State :=
  let s := assertMain s c
  let s := if c.has 0 then sramRepair s c.deep else s
  let s :=
    if c.has 0 then
      let s := setPwr s { s.pwr with holdup := s.hw.holdup, vmin := 0, vmax := 0 }
      if s.hw.holdup < 200 then (s.pwrBit 4 true).log 0x010A (leBytes 2 s.hw.holdup) else s.pwrBit 4 false
    else s
  startUp (deviceKey (if c.clears then emberCompare s else s) c) c

/-! CLU, RTW, KPR -/

/-- Fusion estimator state, masks and disputes are cleared, with the status that shows them; applied corrections and the matrix
unit stay (Table 19-4, R134). -/
def fusionClear (s : State) : State :=
  let slot := fun x : FuSlot => { corr := x.corr, est := x.corr, stableAt := s.now, storedAt := x.storedAt, calReset := x.calReset }
  let s := { s with fu := { s.fu with pubs := [], poses := [], qtys := s.fu.qtys.map fun e => (e.1, { last := e.2.last }),
                                      slots := s.fu.slots.map fun e => (e.1, slot e.2) } }
  let s := (List.range 11).foldl (fun (u : State) q =>
    (((u.set (R.fuQtstatInit q) 0).set (R.fuQtstatDisputed q) 0).set (R.fuQtstatHeld q) 0).set (R.fuQtstatDegraded q) 0) s
  (List.range 64).foldl (fun (u : State) k => u.wr (R.fuSstat k) (BitVec.ofNat 32 (65536 * u.role k))) s

/-- The registers of the tracking channels and of the acquisition engine. -/
def trackingReg (a : Nat) : Bool := decide (R.gnChctrl 0 ≤ a) && decide (a < 0x20090000) || decide (0x20080080 ≤ a) && decide (a < 0x200800C0)

/-- GNSS tracking and fixes are cleared (Table 19-4). -/
def gnssClear (s : State) : State :=
  { s with
    regs := s.regs.filter fun e => !trackingReg e.1,
    gn := { s.gn with ch := [], dumped := false, acqEnd := 0, lastMeas := none, latches := [], excluded := [], clock := none,
                      clockPass := none, fixed := false },
    time := { s.time with fixSince := none } }

/-- CLUSTER_RESET of the clusters of the mask (R424, R432): CLU touches no output; out of SLEEP the state follows. -/
def clusterReset (s : State) (clusters wake : Nat) : State :=
  let c : Cause := { kinds := 32, wake := wake }
  let hit := fun k => clusters / 2 ^ (k / 4) % 2 == 1
  let old := s.procs.bootCore
  let s := resetRecord s c s.time.dev (timeState s) 0
  let s := ((List.range 8).filter hit).foldl targetLoss s
  let s := fusionClear (selfTest s clusters)
  let asleep := s.ps.mode == 2
  let up := (List.range 8).foldl (fun m k => if hit k ∧ m / 2 ^ k % 2 = 0 then m + 2 ^ k else m) s.procs.outOfReset
  let s := { s with procs := { s.procs with outOfReset := up } }
  let s := if asleep then setMode (gnssClear s) s.ps.back else s
  let boot := s.procs.bootCore
  let due := boot != 0xFF && activeOk s 3 && (hit boot || boot != old)
  resetReport (setPs s { s.ps with appDue := s.ps.appDue || due })

/-- The registers of loop n, and those of the engine, that its reset clears: run state, counters, status; the parameters are
objects and stay (R435). -/
def engineClear (s : State) : State :=
  let s := (List.range 64).foldl (fun (u : State) n =>
    ((u.set (R.ceLctrlRun n) 0).wr (R.ceLstat n) 0).clearAll (loopCounters n)) s
  let s := s.clearAll [R.ceCtrl, R.ceStat, R.ceIrqStat, R.ceRun 0, R.ceRun 1, R.ceTrip 0, R.ceTrip 1]
  { s with ce := { phase := s.ce.phase, lastBoundary := s.ce.lastBoundary, resetAt := s.ce.resetAt },
           stage := linkForgets s.stage }

/-- RTW of the real-time cores of the list, with the control engine and the stage link master (R421, R429, Table 19-4). -/
def rtReset (s : State) (cores : List Nat) : State :=
  let s := resetRecord s { kinds := 64 } s.time.dev (timeState s) 1
  let s := cores.foldl (fun u n => targetLoss u (8 + n)) s
  let s := stagesHold (engineClear s)
  let s := gnssClear (steerReset (govReset s))
  let s := watchRt s ((watched s).filter fun n => cores.contains n) 200
  resetReport (ceEnable { s with ce := { s.ce with autoStart := true } })

/-- The longest restart of the Keeper (R425). -/
def restartMost : Nat := ms 30

/-- KPR (R421, R425, R441): the Keeper core alone. It restarts for some time within the bound; the remote transactions of its
mailbox end with ABORTED, what it kept for its own requester is gone, and its watchdogs run a full period from the end of the
restart (log entry 128). -/
def keeperReset (s : State) : State :=
  let s := imagesBefore (intakeCut (bootLink s 1)) [1] [1]
  let s := resetRecord s { kinds := 128 } s.time.dev (timeState s) 0
  let s := (s.dict.remotes.filter fun r => r.slot.isSome && !r.ended).foldl (fun (u : State) r =>
    remoteEnd u r (messageBytes (r.op + 128) St.aborted r.tag r.index r.sub 0 0 [])) s
  let s := s.setDict { s.dict with sessions := s.dict.sessions.filter fun x => x.who != 0,
                                   subs := s.dict.subs.filter fun x => x.who != 0 }
  let s := s.fresh.setKp { s.kp with badKicks := 0, restart := s.now + (Config.freeWord s.freeCtr).toNat % (restartMost + 1) }
  let s := if s.serving then watchRt (watchMain s (watchPeriod s 0x20 500)) (watched s) (watchPeriod s 0x22 20) else s
  resetReport s

/-! Power-down (R416, R431) -/

/-- Steps 2 to 4 of R416: device time is stored, event 0x0108, the pilot area, the rest of the event records, and the state is
entered: 3 DEEP, 4 OFF. -/
def powerOff (s : State) (target : Nat) (byLimit : Bool) : State :=
  let bad := s.clk.rtcBad || (timeState s == 0 && s.ps.rtc.isNone)
  let s := setPs s { s.ps with rtc := some (s.time.dev, uncertainty s, s.now), rtcValid := !bad, shut := none, appDue := false }
  let s := s.log 0x0108 (leBytes 1 (target - 3) ++ leBytes 1 (if byLimit then 1 else 0))
  let s := pilotWrite (panelHalt s) 1
  let s := s.log 0x0202 [BitVec.ofNat 8 s.ps.mode, BitVec.ofNat 8 target]
  let s := spillRest (eventDrain 200 s)
  let s := s.setEv { s.ev with opTime := operatingTime s, opStop := true }
  let s := setPs (s.pwrBit 5 false) { s.ps with mode := target }
  let s := { s with procs := { s.procs with outOfReset := if target = 3 then 4096 else 0 } }
  s.setKp { s.kp with main := {}, rt := [], lostAt := none }

/-- SHUTDOWN: the steps of R416, every bank and group disarmed first; a Keeper that restarts does them when it runs again, so that
the pilot area is not updated before (R425). -/
def powerDown (s : State) (target : Nat) (byLimit : Bool) : State := powerOff (disarmAll (s.passTo s.kp.restart)) target byLimit

/-- The post-IGN state, object 0x1300:0A. -/
def postIgn (s : State) : Nat := 3 + s.objN 0x1300 0x0A % 2

/-! What an answered request has asked for (R424, R431) -/

/-- The resets and the power-down that requests have asked for follow their responses; kinds that coincide are united
(R422). -/
def settle (s : State) : State :=
  let c : Cause := { kinds := s.ps.due, wake := s.ps.wake }
  let clusters := s.ps.clusters
  let s := if s.ps.due = 0 then s else setPs s { s.ps with due := 0, clusters := 0, wake := 0 }
  let s :=
    if c.main then mainReset s c
    else
      let s := if c.has 5 then clusterReset s clusters c.wake else s
      if c.has 7 then keeperReset s else s
  match s.ps.shut with
  | some m => powerDown s m false
  | none => s

/-! Rows -/

/-- The findings of the start that follows. -/
def findings (s : State) (f : Found) : State := { s with hw := f }

/-- Time spent without commands, in ns. -/
def wait (s : State) (ns : Nat) : State := s.passTo (s.now + ns)

/-- POWER_ON_RESET (R421): VBAT_L reaches the start condition after the always-on domain lost its supply, `away` ns after the
last command, with the given IGN inputs active. -/
def execPowerOnReset (ign away : Nat) (found : Found) (s : State) : Res :=
  let s := findings (wait s away) found
  let wake := if s.ps.mode = 4 ∧ ign % 4 ≠ 0 then 1 else 0
  .next (mainReset (setPwr s { s.pwr with ign := ign % 4 }) { kinds := 1, wake := wake })

/-- PIN_RESET (R423): RESET_N was low for `low` ns; between 2 and 10 µs no rule says whether PIN follows. -/
def execPinReset (low : Nat) (found : Found) (s : State) : Res :=
  if keeperUp s = false ∨ low < 2000 then .next s
  else if low < 10000 ∧ (Config.freeWord s.freeCtr).toNat % 2 = 0 then .next s.fresh
  else .next (wait (mainReset (findings s found) { kinds := 4 }) low)

/-- HOLDUP_EXHAUSTED (R408): after a warning the reservoir is exhausted; the main die is held in BOR. -/
def execHoldupExhausted (s : State) : Res :=
  if s.pwrFlag 0 = false ∨ decide (s.ps.mode ≤ 2) = false then .next s
  else .next (setMode (assertMain s { kinds := 2 }) 5)

/-- START_PERMITTED (R408): VBAT_L has been at or above 5.0 V for 10 ms; without IGN the post-IGN state follows. -/
def execStartPermitted (decivolt : Nat) (found : Found) (s : State) : Res :=
  if s.ps.mode ≠ 5 ∨ decivolt < 50 then .next s
  else
    let s := findings (vbatMeasured s decivolt) found
    if ignActive s then .next (startUp s { kinds := 2 })
    else .next (powerOff s (postIgn s) false)

/-- IGN_RISE (R417, R432 to R434): an IGN input becomes active, `away` ns after the last command; in RUN and IDLE a shutdown
is cancelled, SLEEP is left, DEEP and OFF are woken. -/
def execIgnRise (inputs away : Nat) (found : Found) (s : State) : Res :=
  let s := wait s away
  let was := ignActive s
  let s := setPwr s { s.pwr with ign := inputs % 4 }
  if was ∨ ignActive s = false then .next s
  else
    match s.ps.mode with
    | 3 => .next (mainReset (findings s found) { kinds := 1, wake := 1, deep := true })
    | 4 => .next (mainReset (findings s found) { kinds := 1, wake := 1 })
    | _ =>
      let s := if s.pwrFlag 5 then (s.pwrBit 5 false).log 0x0107 [0] else s
      .next (if s.ps.mode = 2 then settle (sleepLeave s 0 1) else s)

/-- IGN_FALL: both inputs have become inactive (R416); with a thermal shutdown latched OFF follows at once (R458). -/
def execIgnFall (s : State) : Res :=
  .next (
    if ignActive s then
      let s := setPwr s { s.pwr with ign := 0 }
      if s.ps.mode = 6 then powerDown s 4 false
      else if s.serving then (shutdownStart s).log 0x0107 [1]
      else s
    else s)

/-- SHUTDOWN_TIME_END (R416): the shutdown time, or with the hold the hold limit, ends. -/
def execShutdownTimeEnd (s : State) : Res :=
  if s.pwrFlag 5 = false ∨ s.serving = false then .next s
  else
    let held := s.objN 0x1300 0x08 == 1
    let t := s.pwr.fellAt + sec (s.objN 0x1300 (if held then 0x09 else 0x07))
    let s := s.passTo t
    .next (powerDown s (postIgn s) held)

/-- APPLICATION_START (R426): the DRAM wipe has ended; in low-supply mode the image waits for its end (R428). -/
def execApplicationStart (s : State) : Res := whenApp s <|
  .next (if s.ps.appDue then setPs s { s.ps with appDue := false } else s)

/-- The source numbers that wake from SLEEP, object 0x1300:26. -/
def sleepSources (s : State) : List Nat :=
  (List.range 16).map fun k => natAt (s.objB 0x1300 0x26) (2 * k) 2

/-- SLEEP_WAKE (R432): a doorbell write of a listed source. -/
def execSleepWake (source : Nat) (s : State) : Res :=
  if s.ps.mode ≠ 2 ∨ 1024 ≤ source ∨ (sleepSources s).contains source = false then .next s
  else .next (settle (sleepLeave (if s.flag (bitAt (R.icPend 0) source) then s else s.ring source) 0 5))

/-- Whether a source may wake the module from DEEP (R433): 2 CN0, 3 CN1, 4 the RTC alarm. -/
def deepWakes (s : State) (source : Nat) : Bool :=
  let mask := s.objN 0x1300 0x29
  if source = 4 then mask / 4 % 2 == 1 && s.objN 0x1300 0x27 != 0
  else (source == 2 || source == 3) && s.flag R.ckGdeepCanw && s.canN (source - 2) 0x20 == 1 && mask / 2 % 2 == 1

/-- DEEP_WAKE (R433): a wake-up pattern `away` ns after the last command, or the alarm at its instant. -/
def execDeepWake (source away : Nat) (found : Found) (s : State) : Res :=
  if s.ps.mode ≠ 3 ∨ deepWakes s source = false then .next s
  else
    let s := if source = 4 then s.devTo (s.objN 0x1300 0x27) else wait s away
    .next (mainReset (findings s found) { kinds := 1, wake := source, deep := true })

/-! Watchdogs (R437 to R440) -/

/-- A kick is ignored and counted. -/
def badKick (s : State) : State := s.setKp { s.kp with badKicks := s.kp.badKicks + 1 }

/-- A write of a kick register: w is 0 for the main watchdog, 1 to 4 for the real-time watchdogs (R437). -/
def watchdogKick (s : State) (who w : Nat) (v : Word) : State :=
  if v.toNat ≠ 0x4B49434B then badKick s
  else if w = 0 then (if who < 12 then watchMain s (watchPeriod s 0x20 500) else badKick s)
  else if w < 5 ∧ who = 7 + w ∧ (watched s).contains (w - 1) = true then watchRt s [w - 1] (watchPeriod s 0x22 20)
  else badKick s

/-- WATCHDOG_KICK (R437). -/
def execWatchdogKick (who w : Nat) (value : Word) (s : State) : Res := .next (watchdogKick s who w value)

/-- A counter of object 0x3300:23 counts. -/
def kpCount (s : State) (k : Nat) : State :=
  s.setKp { s.kp with counters := s.kp.counters.set k ((s.kp.counters.getD k 0 + 1) % 4294967296) }

/-- The cores that an RTW for watchdog or pair core n resets: the pair, in split mode the core and its partner. -/
def pairCores (n : Nat) : List Nat := [n / 2 * 2, n / 2 * 2 + 1]

/-- A main watchdog expires: KWD, or without any clock the main die is held (R439, R440). -/
def mainExpiry (s : State) : State :=
  let c : Cause := { kinds := 8 }
  if s.clk.sysRef = 3 then
    let s := s.log 0x1806 (leBytes 4 (s.rd R.ckStat).toNat)
    let s := setMode (assertMain s c) 7
    s.setKp { s.kp with main := {}, rt := [], lostAt := some (s.now + sec 1) }
  else mainReset s c

/-- WATCHDOG_EXPIRY (R439): 0 main, 1 to 4 real-time watchdogs, 5 the Keeper's own. -/
def execWatchdogExpiry (w : Nat) (s : State) : Res :=
  let till := if w = 0 then s.kp.main.till else if w < 5 then (Tbl.get s.kp.rt {} (w - 1)).till
    else if w = 5 ∧ keeperUp s = true ∧ s.keeperRestarts = false then some s.now else none
  match till with
  | none => .next s
  | some t =>
    let s := kpCount (s.passTo t) (if w = 0 then 0 else if w < 5 then 1 else 2)
    let s := s.log 0x1801 (leBytes 1 w)
    .next (if w = 0 then mainExpiry s else if w < 5 then rtReset s (pairCores (w - 1)) else keeperReset s)

/-- CLOCK_LOSS_RETRY (R440): `passes` says whether a PLL reference passes its check. -/
def execClockLossRetry (passes : Bool) (s : State) : Res :=
  match s.kp.lostAt with
  | none => .next s
  | some t =>
    if s.ps.mode ≠ 7 then .next s
    else
      let s := s.passTo t
      if passes then
        let s := s.setKp { s.kp with lostAt := none }
        .next (startUp (lockShow (sysReference s (if s.clk.tcxo then 2 else 0))) { kinds := 8 })
      else .next (s.setKp { s.kp with lostAt := some (t + sec 1) })

/-- LOCKSTEP_MISMATCH (R355): pair 0 is RT0 and RT1, pair 1 RT2 and RT3. -/
def execLockstepMismatch (pair : Nat) (s : State) : Res :=
  if s.flag R.icCtrlPaired = false ∨ 1 < pair ∨ s.serving = false then .next s
  else
    let s := { s with procs := { s.procs with mismatches := (s.procs.mismatches + 1) % 4294967296 } }
    .next (rtReset (s.log 0x0403 (leBytes 1 pair)) (pairCores (2 * pair)))

/-- THERMAL_SHUTDOWN_ACT (R458): 20 ms after the shutdown every output is disarmed, the main die held and the pilot area
written. -/
def execThermalShutdownAct (s : State) : Res :=
  match s.th.shutAt with
  | none => .next s
  | some t =>
    let s := disarmAll (s.passTo (max t s.kp.restart))
    let s := s.setTh { s.th with shutAt := none }
    let record := s.ps.record
    let s := setMode (assertMain (panelHalt s) { kinds := 8 }) 6
    let s := setPs s { s.ps with record := record }
    let s := { s with procs := { s.procs with outOfReset := 4096 } }
    .next (pilotWrite (s.setKp { s.kp with main := {}, rt := [] }) 2)

end Sys2Proof.Machine
end

