-- ==== Sys2Proof/Machine/DictRows.lean ====
section
/-!
DEFINITION. The commands of the dictionary service, the Keeper mailbox, plain register writes, received CAN frames, mirror
blocks and inbound Chimney messages, with the resets and state changes that their requests ask for.
-/
namespace Sys2Proof.Machine
open State

/-! Requests (R337 to R342). A response leaves first; what the request asked for follows (R424). -/

/-- A request by any transport but the mailbox. -/
def ask (s : State) (q : Req) (op index sub typ aux : Nat) (data : List Byte) (fails : Option Nat) : Res :=
  .next (settle (request s q op index sub typ aux data fails))

/-- READ (R338). -/
def execRead (q : Req) (index sub : Nat) (s : State) : Res := ask s q 0x01 index sub 0 0 [] none

/-- WRITE (R338, R339). -/
def execWrite (q : Req) (index sub typ : Nat) (bytes : List Byte) (s : State) : Res := ask s q 0x02 index sub typ 0 bytes none

/-- BLOCK_READ (R340): at most `most` bytes from an offset. -/
def execBlockRead (q : Req) (index sub offset most : Nat) (s : State) : Res :=
  ask s q 0x03 index sub 0 offset (leBytes 2 most) none

/-- BLOCK_SEG (R341). -/
def execBlockSeg (q : Req) (index sub offset : Nat) (bytes : List Byte) (s : State) : Res :=
  ask s q 0x04 index sub 0 offset bytes none

/-- BLOCK_END (R341): TYPE is the object's type code; length and CRC-32C of the whole value. -/
def execBlockEnd (q : Req) (index sub typ total crc : Nat) (s : State) : Res :=
  ask s q 0x05 index sub typ 0 (leBytes 4 total ++ leBytes 4 crc) none

/-- BLOCK_SESSION_EXPIRY (R341). -/
def execBlockSessionExpiry (who index sub : Nat) (s : State) : Res := .next (sessionExpiry s who index sub)

/-- SUBSCRIBE (R342). -/
def execSubscribe (q : Req) (index sub period least : Nat) (s : State) : Res :=
  ask s q 0x06 index sub 0 (period % 65536 + 65536 * (least % 65536)) [] none

/-- UNSUBSCRIBE (R342). -/
def execUnsubscribe (q : Req) (id : Nat) (s : State) : Res := ask s q 0x07 0 0 0 id [] none

/-- PERIODIC_NOTIFY (R342). -/
def execPeriodicNotify (id : Nat) (s : State) : Res := whenServing s <| .next (periodicNotify s id)

/-- NOTIFY_KEEPALIVE (R342). -/
def execNotifyKeepalive (id : Nat) (s : State) : Res := whenServing s <| .next (keepaliveNotify s id)

/-- NOTIFY_RECEIVE (R338). -/
def execNotifyReceive (peer id seq index sub typ : Nat) (bytes : List Byte) (s : State) : Res :=
  whenServing s <| .next (notifyReceive s peer id seq index sub typ bytes)

/-- COMMIT (R332). -/
def execCommit (q : Req) (index sub : Nat) (fails : Option Nat) (s : State) : Res := ask s q 0x09 index sub 0 0 [] fails

/-- DESCRIBE (R338). -/
def execDescribe (q : Req) (index sub : Nat) (s : State) : Res := ask s q 0x0A index sub 0 0 [] none

/-- DEFAULTS (R336). -/
def execDefaults (q : Req) (s : State) : Res := ask s q 0x0B 0 0 0 0 [] none

/-- REMOTE_RESPONSE (R346). -/
def execRemoteResponse (peer alive tag op status index sub typ aux : Nat) (bytes : List Byte) (s : State) : Res :=
  whenServing s <| .next (remoteResponse s peer alive tag op status index sub typ aux bytes)

/-- REMOTE_TIMEOUT (R346). -/
def execRemoteTimeout (tag : Nat) (s : State) : Res := whenServing s <| .next (remoteTimeout s tag)

/-! Mailbox (R441) -/

/-- SLOT_CLAIM: a read of KP_SLOTCLAIM. -/
def execSlotClaim (s : State) : Res :=
  let r := slotClaim s
  .next (r.1.emit (.readValue R.kpSlotclaim r.2))

/-- MAILBOX_GO. -/
def execMailboxGo (slot waiting : Nat) (fails : Option Nat) (s : State) : Res := whenServing s <|
  if 15 < slot then .next s else .next (mailboxGo s slot waiting fails)

/-- MAILBOX_DONE: the response is written, then follows what the request asked for. -/
def execMailboxDone (slot : Nat) (s : State) : Res := whenServing s <|
  if 15 < slot then .next s else .next (settle (mailboxDone s slot))

/-- MAILBOX_RELEASE: what an accepted request asked for follows even without its response. -/
def execMailboxRelease (slot : Nat) (s : State) : Res :=
  if 15 < slot then .next s else .next (settle (mailboxRelease s slot))

/-! Registers (R5, R6, R358) -/

/-- The KP registers. -/
def kpWrite (s : State) (who o : Nat) (v : Word) : State :=
  let a := 0x20130000 + o
  let k := (o - 0x100) / 0x20
  if o = 0x14 then irqEnable s a v
  else if o = 0x20 then watchdogKick s who 0 v
  else if 0x28 ≤ o ∧ o < 0x38 then watchdogKick s who ((o - 0x28) / 4 + 1) v
  else if 0x100 ≤ o ∧ o < 0x300 ∧ o % 0x20 = 0x10 then
    let s := plainWrite s a v
    let s := if bit v 0 then mailboxGo s k 0 none else s
    if bit v 1 then settle (mailboxRelease s k) else s
  else plainWrite s a v

/-- The unit whose CV_DATA stands at an address. -/
def cvDataUnit (a : Nat) : Option Nat := (List.range 8).find? fun u => R.cvData u == a

/-- A register write of `size` bytes: registers take 32-bit accesses, CV_DATA shorter ones too (R320, R358). -/
def registerWrite (s : State) (who a size : Nat) (v : Word) : State :=
  if a < 0x20000000 ∨ 0x20140000 ≤ a then busError s who a
  else
    match cvDataUnit a with
    | some u =>
      if size = 1 ∨ size = 2 ∨ size = 4 then
        (if s.gateOn 12 then cvFeed s u (leBytes size v.toNat) else s.gateWait { who := who, addr := a, value := v, size := size })
      else busError s who a
    | none =>
      if size ≠ 4 ∨ a % 4 ≠ 0 then busError s who a
      else if 0x20130000 ≤ a then kpWrite s who (a - 0x20130000) v
      else (blockWrite s who a v).1

/-- REGISTER_WRITE (R6). -/
def execRegisterWrite (who addr size : Nat) (value : Word) (s : State) : Res :=
  if s.serving then .next (registerWrite s who addr size value) else .next s

/-- The counter-clear bit of the register at an address. -/
def clearBit (a : Nat) : Option Nat :=
  if a = R.icCtrl then some 0 else if a = R.fbCtrl then some 1 else if a = R.dpCtrl then some 2
  else if a = R.dmaCtrl then some 1 else if a = R.ghCtrl then some 2
  else if (List.range 64).any fun n => R.ceLctrl n == a then some 9
  else if (List.range 48).any fun n => R.sdCctrl n == a then some 11
  else if (List.range 32).any fun n => R.lsCctrl n == a then some 9
  else if (List.range 24).any fun n => R.siPicfg n == a then some 6
  else if (List.range 4).any fun c => R.camPctrl c == a then some 3
  else if (List.range 6).any fun c => R.cnCtrl c == a then some 11
  else none

/-- COUNTER_CLEAR (R57): the CNTCLR or CLRCNT bit of the register at an address is written, its other fields as they stand. -/
def execCounterClear (addr : Nat) (s : State) : Res :=
  match clearBit addr with
  | some b => if s.serving then .next (fieldWrite s serviceCore ⟨addr, b, 1⟩ 1).1 else .next s
  | none => .next s

/-! CAN (R304, R344) -/

/-- CAN_RECEIVE (R304). -/
def execCanReceive (c what id flags : Nat) (data : List Byte) (af sdt vcid : Nat) (t : Time) (tec rcnt : Nat) (s : State) : Res :=
  gated s (canGroup c) <|
  if 5 < c then .next s
  else .next (settle (canReceive s c what { id := id, flags := flags, data := data, af := af, sdt := sdt, vcid := vcid } t tec rcnt))

/-- CAN_REASSEMBLY_TIMEOUT (R344). -/
def execCanReassemblyTimeout (c src : Nat) (s : State) : Res := .next (reassemblyTimeout s c src)

/-! Twin (R289, R236) -/

/-- A function's mirrored state. -/
def mirrorFn (s : State) (f : MirrorFn) : State :=
  if f.fn < 48 then
    setGovFn s f.fn { govFn s f.fn with
      state := f.state, present := f.present, commanded := f.commanded, written := f.present, origin := f.present,
      moving := (f.state == 2 || f.state == 3) && !F32.eq f.present f.commanded, since := s.gov.tick - 1,
      freezeEnd := s.gov.tick + f.freeze, settle := s.gov.tick + f.settle, down := f.down }
  else s

/-- A quantity's mirrored estimate. -/
def mirrorEstimate (s : State) (e : Nat × Time × List F32) : State :=
  if e.1 < 11 then setQty s e.1 { qty s e.1 with base := some { x := e.2.2, t := e.2.1 }, applied := [] } else s

/-- A section's mirrored pending command. -/
def mirrorSection (s : State) (e : Nat × Time × Bool × Bool) : State :=
  if e.1 < 128 then s.setSect e.1 { s.sect e.1 with pend := some (e.2.1, e.2.2.1), byMode := e.2.2.2 } else s

/-- A mirrored node ID and its serial number: a node this member has not met is absent (R275). -/
def mirrorNode (s : State) (e : Nat × Nat) : State :=
  match s.node e.1 with
  | some n => s.setNode e.1 { n with serial := e.2 }
  | none => s.setNode e.1 { serial := e.2, state := 1, absentAt := some s.now }

/-- MIRROR_RECEIVE at the standby: path 0 the sync link, 1 the fabric. -/
def execMirrorReceive (path seq : Nat) (block : MirrorBlock) (s : State) : Res := gated s 9 <|
  if s.hearth = false ∨ twinState s ≠ 2 then .next s
  else
    let m := s.fab.mirror
    let m := m.set 1 ((m.getD 1 0 + 1) % 4294967296)
    let m := if path = 0 then m else m.set 2 ((m.getD 2 0 + 1) % 4294967296)
    let s := s.setFab { s.fab with mirror := m, mirrorSeq := seq }
    let s := block.writes.foldl (fun (u : State) w => (writeOne u w.1 w.2.1 w.2.2.1 w.2.2.2).1) s
    let s := block.functions.foldl mirrorFn (block.estimates.foldl mirrorEstimate s)
    let s := block.rules.foldl (fun (u : State) r =>
      if r.1 < 64 then setGovRule u r.1 { govRule u r.1 with acted := some (s.gov.tick - r.2) } else u) s
    let s := { s with gov := { s.gov with
      pointer := block.pointer, trial := block.trial.map (·.1), v0 := (block.trial.map (·.2)).getD 0 } }
    let s := block.nodes.foldl mirrorNode s
    .next (settle (block.schedule.foldl mirrorSection (sectUnsend s fun _ => true)))

/-! Chimney (R297) -/

/-- An inbound message is processed by its kind: coverage tile, RTCM frame, image fragment. -/
def chimneyTake (s : State) (kind : Nat) (payload : List Byte) : State :=
  match kind with
  | 0x81 => tileMerge s payload
  | 0x82 => rtcmFrame s 3 payload
  | 0x83 => (intakeFragment s 1 payload).1
  | _ => s

/-- CHIMNEY_INBOUND: a message with a good CRC is processed, counted and acknowledged; one of no inbound kind, or with a bad
CRC, is not. The header of an ACK carries the MSGID that it acknowledges (log entry 125). -/
def execChimneyInbound (kind msgId : Nat) (payload : List Byte) (crcOk : Bool) (s : State) : Res := whenApp s <|
  if chimneyRuns s = false ∨ s.chim.conn ≠ 2 ∨ crcOk = false ∨ kind < 0x81 ∨ 0x83 < kind then .next s
  else
    let s := chimneyCount (chimneyTake s kind payload) 3
    .next (s.emit (.chimney (chimneyBytes 0xF0 msgId (leBytes 8 msgId))))

end Sys2Proof.Machine
end

