-- ==== Sys2Proof/Machine/ObjectRows.lean ====
section
/-!
DEFINITION. The commands that are writes of one object of the dictionary. Each is a WRITE by a processor of the module: it
passes the checks of Table 14-3, takes effect, is counted and notified, is answered with its status, and then follows what it
asked for (R328 to R330, R424).
-/
namespace Sys2Proof.Machine
open State

/-- The dictionary service runs: with the main firmware, or for provisioning in BLANK (R483). -/
def dictServes (s : State) : Bool := s.serving || (s.ps.mode == 8 && s.lifeCycle == 0)

/-- A write that has been executed is notified, answered, and what it asked for follows. -/
def finish (r : Ans) : Res := .next (settle ((notifyChanges r.1).emit (.answered r.2.1)))

/-- Bytes of a number written to an object; one that does not fit is a byte too long. -/
def numberBytes (d : ObjDef) (n : Nat) : List Byte :=
  if n < 256 ^ d.typ.size then leBytes d.typ.size n else leBytes (d.typ.size + 1) n

/-- A number is written to an object. -/
def numberWrite (index sub n : Nat) (s : State) : Res :=
  if dictServes s then
    match find s index sub with
    | some d => finish (writeOne s index sub d.typ.code (numberBytes d n))
    | none => finish (s, St.noObject, 0)
  else .next s

/-- Bytes are written to an object. -/
def bytesWrite (index sub : Nat) (l : List Byte) (s : State) : Res :=
  if dictServes s then finish (writeOne s index sub ObjTy.blob.code l) else .next s

/-- An image type is written to an object of index 0x3600 whose effect depends on what was observed of other nodes. -/
def updateWrite (sub t : Nat) (effect : Ans) (s : State) : Res :=
  if dictServes s then
    match find s 0x3600 sub with
    | some d =>
      if stateRefused s 0x3600 sub then finish (s, St.state, 0) else finish (checkedBy s d 0x3600 sub (.num t) effect)
    | none => finish (s, St.noObject, 0)
  else .next s

/-! Trellis (Table 14-10) -/

/-- OPEN_ENTRY (R16). -/
def execOpenEntry (entry : Nat) (s : State) : Res := numberWrite 0x1700 0x01 entry s

/-- TRELLIS_ENTRY_WRITE (R350). -/
def execTrellisEntryWrite (entry : Nat) (bytes : List Byte) (s : State) : Res :=
  if entry < 1024 then bytesWrite (0x1701 + entry / 128) (entry % 128 + 1) bytes s else .next s

/-- COMMIT_REQUEST (R17). -/
def execCommitRequest (s : State) : Res := numberWrite 0x1700 0x02 1 s

/-- CANCEL (R351). -/
def execCancel (s : State) : Res := numberWrite 0x1700 0x03 1 s

/-- PREPARE (R351). -/
def execPrepare (boundary : Time) (s : State) : Res := numberWrite 0x1700 0x04 boundary s

/-- GO (R20). -/
def execGo (s : State) : Res := numberWrite 0x1700 0x05 1 s

/-- RING_CONFIG_WRITE (R352). -/
def execRingConfigWrite (ring : Nat) (bytes : List Byte) (s : State) : Res :=
  if ring < 256 then bytesWrite (0x1709 + ring / 128) (ring % 128 + 1) bytes s else .next s

/-! Fusion, time, governor, maps, sections, steering -/

/-- QUANTITY_RESET (R154). -/
def execQuantityReset (q : Nat) (s : State) : Res := if q < 11 then numberWrite (0x2480 + q) 0x0C 1 s else .next s

/-- TIME_WRITE (R206). -/
def execTimeWrite (t : Time) (s : State) : Res := numberWrite 0x2680 0x02 t s

/-- GOVERNOR_ENABLE (R221). -/
def execGovernorEnable (value : Nat) (s : State) : Res := numberWrite 0x2780 0x01 value s

/-- TASK_OPEN (R240). -/
def execTaskOpen (task : Nat) (s : State) : Res := numberWrite 0x2800 0x09 task s

/-- TASK_CLOSE (R240). -/
def execTaskClose (s : State) : Res := numberWrite 0x2800 0x09 0 s

/-- RECORDING_START (R240). -/
def execRecordingStart (s : State) : Res := numberWrite 0x2800 0x0A 1 s

/-- TASK_EXPORT (R244). -/
def execTaskExport (task : Nat) (s : State) : Res := numberWrite 0x2800 0x0C task s

/-- TASK_DELETE (R243). -/
def execTaskDelete (task : Nat) (s : State) : Res := numberWrite 0x2800 0x0E task s

/-- SECTION_MODE_WRITE (R247). -/
def execSectionModeWrite (section_ value : Nat) (s : State) : Res :=
  if section_ < 128 then numberWrite (0x2880 + section_) 0x0C value s else .next s

/-- ENGAGE_REQUEST (R263). -/
def execEngageRequest (value : Nat) (s : State) : Res := numberWrite 0x2900 0x02 value s

/-- LINE_GEOMETRY_WRITE (R257). -/
def execLineGeometryWrite (bytes : List Byte) (s : State) : Res := bytesWrite 0x2900 0x05 bytes s

/-! Fabric, storage, panel -/

/-- ACCEPT_REPLACEMENT (R288). -/
def execAcceptReplacement (id : Nat) (s : State) : Res := numberWrite 0x3000 0x11 id s

/-- EPOCH_RESET (R294). -/
def execEpochReset (value : Nat) (s : State) : Res := numberWrite 0x3080 0x05 value s

/-- CLEAR_RETIREMENT_LIST (R380). -/
def execClearRetirementList (s : State) : Res := numberWrite 0x1600 0x08 1 s

/-- INTEGRITY_PROFILE_WRITE (R389). -/
def execIntegrityProfileWrite (sub value : Nat) (s : State) : Res := numberWrite 0x1380 sub value s

/-- GEOMETRY_WRITE (R461): width, height or bits per pixel. -/
def execGeometryWrite (sub value : Nat) (s : State) : Res :=
  if 2 ≤ sub ∧ sub ≤ 4 then numberWrite 0x3500 sub value s else .next s

/-! Power states and resets -/

/-- SYSTEM_RESET (R424). -/
def execSystemReset (value : Nat) (s : State) : Res := numberWrite 0x1300 0x22 value s

/-- CLUSTER_RESET (R424). -/
def execClusterReset (value : Nat) (s : State) : Res := numberWrite 0x1300 0x23 value s

/-- STATE_REQUEST (R431). -/
def execStateRequest (value : Nat) (s : State) : Res := numberWrite 0x1300 0x21 value s

/-! Security (R479 to R487) -/

/-- CHALLENGE_READ (R482): the value is returned to the reader. -/
def execChallengeRead (s : State) : Res :=
  if dictServes s then
    let r := challengeRead s
    .next (r.2.emit (.response 0 0 0x81 St.ok 0x1200 0x02 ObjTy.blob.code (changeCount s 0x1200 0x02) r.1))
  else .next s

/-- TOKEN_WRITE (R482). -/
def execTokenWrite (bytes : List Byte) (s : State) : Res := bytesWrite 0x1200 0x03 bytes s

/-- TRANSITION_REQUEST (R479). -/
def execTransitionRequest (value : Nat) (s : State) : Res := numberWrite 0x1200 0x04 value s

/-- SERIAL_STAGING (R483). -/
def execSerialStaging (number : Nat) (s : State) : Res := numberWrite 0x1200 0x0F number s

/-- SLOT_HASH_WRITE (R484). -/
def execSlotHashWrite (bytes : List Byte) (s : State) : Res := bytesWrite 0x1200 0x08 bytes s

/-- SLOT_KEY_WRITE (R484). -/
def execSlotKeyWrite (bytes : List Byte) (s : State) : Res := bytesWrite 0x1200 0x09 bytes s

/-- DEBUG_CLOSE (R487). -/
def execDebugClose (s : State) : Res := numberWrite 0x1200 0x06 1 s

/-! Updates (R491 to R499) -/

/-- INTAKE_FRAGMENT (R491), from a source: 0 object, 1 Chimney, 2 relay; a relay fragment is answered to the upstream
neighbour. -/
def execIntakeFragment (source : Nat) (bytes : List Byte) (s : State) : Res :=
  if source = 0 then bytesWrite 0x3600 0x02 bytes s
  else whenServing s <|
    let r := intakeFragment s source bytes
    if source = 1 then .next (r.1.emit (.answered r.2.1))
    else .next (flueSendOn r.1 (r.1.get R.fbPtpportUpport) 3 0x31 0 isResponse
      (leBytes 4 (natAt bytes 0 4) ++ leBytes 1 r.2.1 ++ leBytes 3 0 ++ leBytes 8 (r.1.img (natAt bytes 4 1)).bytes.length))

/-- UPDATE_ABORT (R492). -/
def execUpdateAbort (t : Nat) (s : State) : Res := numberWrite 0x3600 0x03 t s

/-- RELAY_REQUEST (R493): `seen` gives the version of the image type that other nodes run, as read from them. -/
def execRelayRequest (t : Nat) (seen : List (Nat × Nat)) (s : State) : Res :=
  updateWrite 0x04 t (if t = 0 ∨ 3 < t then (s, St.range, 0) else relayRequest s t seen) s

/-- ACTIVATE (R496). -/
def execActivate (t : Nat) (s : State) : Res := numberWrite 0x3600 0x0D t s

/-- CONFIRM (R498). -/
def execConfirm (t : Nat) (s : State) : Res := numberWrite 0x3600 0x0A t s

/-- ROLL_BACK (R499). -/
def execRollBack (t : Nat) (s : State) : Res := numberWrite 0x3600 0x0B t s

end Sys2Proof.Machine
end

