-- ==== Sys2Proof/Machine/Dispatch.lean ====
section
/-!
DEFINITION. One arm per command: its meaning, called directly.
-/
namespace Sys2Proof.Machine

def exec (i : Instr) (s : State) : Host.Outcome State Fault Refusal :=
  match i with
  | .registerWrite who addr size value => Sys2Proof.Machine.execRegisterWrite who addr size value s
  | .counterClear addr => Sys2Proof.Machine.execCounterClear addr s
  | .openEntry entry => Sys2Proof.Machine.execOpenEntry entry s
  | .trellisEntryWrite entry bytes => Sys2Proof.Machine.execTrellisEntryWrite entry bytes s
  | .commitRequest => Sys2Proof.Machine.execCommitRequest s
  | .cancel => Sys2Proof.Machine.execCancel s
  | .prepare boundary => Sys2Proof.Machine.execPrepare boundary s
  | .go => Sys2Proof.Machine.execGo s
  | .epochBoundaryCommit => Sys2Proof.Machine.execEpochBoundaryCommit s
  | .ringConfigWrite ring bytes => Sys2Proof.Machine.execRingConfigWrite ring bytes s
  | .stopInputChange k asserted => Sys2Proof.Machine.execStopInputChange k asserted s
  | .stopBandTimeout k decivolt => Sys2Proof.Machine.execStopBandTimeout k decivolt s
  | .stopFrameRepeat => Sys2Proof.Machine.execStopFrameRepeat s
  | .stopFrameReceive port frame fcsOk => Sys2Proof.Machine.execStopFrameReceive port frame fcsOk s
  | .softwareStop on => Sys2Proof.Machine.execSoftwareStop on s
  | .stopRemoteExpiry => Sys2Proof.Machine.execStopRemoteExpiry s
  | .stopRelease => Sys2Proof.Machine.execStopRelease s
  | .rearm => Sys2Proof.Machine.execRearm s
  | .stopDiscrepancy => Sys2Proof.Machine.execStopDiscrepancy s
  | .frameBoundary => Sys2Proof.Machine.execFrameBoundary s
  | .ceEnable => Sys2Proof.Machine.execCeEnable s
  | .ceDisable => Sys2Proof.Machine.execCeDisable s
  | .loopRun n => Sys2Proof.Machine.execLoopRun n s
  | .loopStop n => Sys2Proof.Machine.execLoopStop n s
  | .loopApply n => Sys2Proof.Machine.execLoopApply n s
  | .loopTripclr n => Sys2Proof.Machine.execLoopTripclr n s
  | .reclaim => Sys2Proof.Machine.execReclaim s
  | .reclaimFrame bad => Sys2Proof.Machine.execReclaimFrame bad s
  | .statusFrameReceive d seq crcOk measured => Sys2Proof.Machine.execStatusFrameReceive d seq crcOk measured s
  | .stageLinkLoss d => Sys2Proof.Machine.execStageLinkLoss d s
  | .stageLinkReturn d => Sys2Proof.Machine.execStageLinkReturn d s
  | .sdOnCommand n => Sys2Proof.Machine.execSdOnCommand n s
  | .sdOffCommand n => Sys2Proof.Machine.execSdOffCommand n s
  | .sdModeWrite n value => Sys2Proof.Machine.execSdModeWrite n value s
  | .pullinGrant b => Sys2Proof.Machine.execPullinGrant b s
  | .peakReached n tpk microA dip => Sys2Proof.Machine.execPeakReached n tpk microA dip s
  | .tpkMaxExpiry n dip => Sys2Proof.Machine.execTpkMaxExpiry n dip s
  | .peakDwellEnd n => Sys2Proof.Machine.execPeakDwellEnd n s
  | .decayEnd n => Sys2Proof.Machine.execDecayEnd n s
  | .pullinWaitLate n => Sys2Proof.Machine.execPullinWaitLate n s
  | .sdPwmCycleStart n => Sys2Proof.Machine.execSdPwmCycleStart n s
  | .sdPwmOnEnd n => Sys2Proof.Machine.execSdPwmOnEnd n s
  | .sdClampEventEnd b microJ => Sys2Proof.Machine.execSdClampEventEnd b microJ s
  | .sdBucketLeak b => Sys2Proof.Machine.execSdBucketLeak b s
  | .bankUnlock b => Sys2Proof.Machine.execBankUnlock b s
  | .bankSwitchClear b tj => Sys2Proof.Machine.execBankSwitchClear b tj s
  | .bankArm b => Sys2Proof.Machine.execBankArm b s
  | .bankDisarm b => Sys2Proof.Machine.execBankDisarm b s
  | .bankSwitchLimit b tj => Sys2Proof.Machine.execBankSwitchLimit b tj s
  | .bankSwitchTrip b tj => Sys2Proof.Machine.execBankSwitchTrip b tj s
  | .sdOverCurrent n milliamp => Sys2Proof.Machine.execSdOverCurrent n milliamp s
  | .sdOpenLoad n milliamp => Sys2Proof.Machine.execSdOpenLoad n milliamp s
  | .sdFclr n => Sys2Proof.Machine.execSdFclr n s
  | .stageHoldEntry d => Sys2Proof.Machine.execStageHoldEntry d s
  | .bankHoldExpiry b => Sys2Proof.Machine.execBankHoldExpiry b s
  | .bankFailOffDisarm b => Sys2Proof.Machine.execBankFailOffDisarm b s
  | .loadDumpEntry k decivolt => Sys2Proof.Machine.execLoadDumpEntry k decivolt s
  | .loadDumpEnd k decivolt => Sys2Proof.Machine.execLoadDumpEnd k decivolt s
  | .sdDieReset d => Sys2Proof.Machine.execSdDieReset d s
  | .lsSwitchOn n => Sys2Proof.Machine.execLsSwitchOn n s
  | .lsSwitchOff n => Sys2Proof.Machine.execLsSwitchOff n s
  | .lsModeWrite n value => Sys2Proof.Machine.execLsModeWrite n value s
  | .lsPwmCycleStart n => Sys2Proof.Machine.execLsPwmCycleStart n s
  | .lsPwmOnEnd n => Sys2Proof.Machine.execLsPwmOnEnd n s
  | .inrushWindowEnd n => Sys2Proof.Machine.execInrushWindowEnd n s
  | .lsLimit n ampere ongoing => Sys2Proof.Machine.execLsLimit n ampere ongoing s
  | .lsThermalShutdown n tj tref => Sys2Proof.Machine.execLsThermalShutdown n tj tref s
  | .lsAutoRestart n tj tref => Sys2Proof.Machine.execLsAutoRestart n tj tref s
  | .lsRestartCountReset n => Sys2Proof.Machine.execLsRestartCountReset n s
  | .lsFclr n => Sys2Proof.Machine.execLsFclr n s
  | .lsClampEventEnd n microJ => Sys2Proof.Machine.execLsClampEventEnd n microJ s
  | .lsBucketLeak n => Sys2Proof.Machine.execLsBucketLeak n s
  | .lsUnlock n => Sys2Proof.Machine.execLsUnlock n s
  | .openLoadOn n => Sys2Proof.Machine.execOpenLoadOn n s
  | .openLoadOff n => Sys2Proof.Machine.execOpenLoadOff n s
  | .shortToBattery n => Sys2Proof.Machine.execShortToBattery n s
  | .groupArm g => Sys2Proof.Machine.execGroupArm g s
  | .groupDisarm g => Sys2Proof.Machine.execGroupDisarm g s
  | .groupHoldExpiry g => Sys2Proof.Machine.execGroupHoldExpiry g s
  | .lsDeferralEntry k decivolt => Sys2Proof.Machine.execLsDeferralEntry k decivolt s
  | .lsDeferralEnd k decivolt => Sys2Proof.Machine.execLsDeferralEnd k decivolt s
  | .powerGroundLoss d => Sys2Proof.Machine.execPowerGroundLoss d s
  | .logicGroundLoss d => Sys2Proof.Machine.execLogicGroundLoss d s
  | .lsDieReset d => Sys2Proof.Machine.execLsDieReset d s
  | .aiSample n x => Sys2Proof.Machine.execAiSample n x s
  | .aiConfigWrite n value => Sys2Proof.Machine.execAiConfigWrite n value s
  | .aiLatchedFault n => Sys2Proof.Machine.execAiLatchedFault n s
  | .aiFclr n => Sys2Proof.Machine.execAiFclr n s
  | .supplyFault k millivolt milliamp => Sys2Proof.Machine.execSupplyFault k millivolt milliamp s
  | .supplyClear k => Sys2Proof.Machine.execSupplyClear k s
  | .pulseEdge n level both t => Sys2Proof.Machine.execPulseEdge n level both t s
  | .pulsePublication n => Sys2Proof.Machine.execPulsePublication n s
  | .piCountClear n => Sys2Proof.Machine.execPiCountClear n s
  | .bridgeConversion b vdiff vexc excLimited outOfRange t => Sys2Proof.Machine.execBridgeConversion b vdiff vexc excLimited outOfRange t s
  | .bridgeSenseOpen b => Sys2Proof.Machine.execBridgeSenseOpen b s
  | .bridgeSenseRestore b => Sys2Proof.Machine.execBridgeSenseRestore b s
  | .lossImpact n peak t => Sys2Proof.Machine.execLossImpact n peak t s
  | .lossIntervalEnd n => Sys2Proof.Machine.execLossIntervalEnd n s
  | .imuSample ax ay az gx gy gz temp delivered => Sys2Proof.Machine.execImuSample ax ay az gx gy gz temp delivered s
  | .imuFault code => Sys2Proof.Machine.execImuFault code s
  | .fusionEpoch q overrun => Sys2Proof.Machine.execFusionEpoch q overrun s
  | .slotSample slot => Sys2Proof.Machine.execSlotSample slot s
  | .disputeHorizon q => Sys2Proof.Machine.execDisputeHorizon q s
  | .quantityReset q => Sys2Proof.Machine.execQuantityReset q s
  | .slotConfigApply => Sys2Proof.Machine.execSlotConfigApply s
  | .calibrationUpdate slot => Sys2Proof.Machine.execCalibrationUpdate slot s
  | .calibrationStore slot => Sys2Proof.Machine.execCalibrationStore slot s
  | .fusionJobSubmit queue value => Sys2Proof.Machine.execFusionJobSubmit queue value s
  | .fusionJobStart => Sys2Proof.Machine.execFusionJobStart s
  | .fusionJobComplete => Sys2Proof.Machine.execFusionJobComplete s
  | .fusionCqAck queue head => Sys2Proof.Machine.execFusionCqAck queue head s
  | .fusionJobAbort queue tag => Sys2Proof.Machine.execFusionJobAbort queue tag s
  | .camFeedFault c milliamp => Sys2Proof.Machine.execCamFeedFault c milliamp s
  | .camFeedSwitch c on => Sys2Proof.Machine.execCamFeedSwitch c on s
  | .csiPacket c vc dt headerBits crcOk number codes => Sys2Proof.Machine.execCsiPacket c vc dt headerBits crcOk number codes s
  | .camFrameStart c number => Sys2Proof.Machine.execCamFrameStart c number s
  | .mergeTimeout c => Sys2Proof.Machine.execMergeTimeout c s
  | .camFrameEnd c behind => Sys2Proof.Machine.execCamFrameEnd c behind s
  | .tapAck c a index => Sys2Proof.Machine.execTapAck c a index s
  | .frameSyncEdge c => Sys2Proof.Machine.execFrameSyncEdge c s
  | .camApply c => Sys2Proof.Machine.execCamApply c s
  | .camEnable c => Sys2Proof.Machine.execCamEnable c s
  | .camLinkLoss c => Sys2Proof.Machine.execCamLinkLoss c s
  | .camLinkRegain c => Sys2Proof.Machine.execCamLinkRegain c s
  | .replayFrame c => Sys2Proof.Machine.execReplayFrame c s
  | .i2cTransferStart c value => Sys2Proof.Machine.execI2cTransferStart c value s
  | .i2cTransferEnd c ack data => Sys2Proof.Machine.execI2cTransferEnd c ack data s
  | .antennaShort milliamp => Sys2Proof.Machine.execAntennaShort milliamp s
  | .antennaRetry limits => Sys2Proof.Machine.execAntennaRetry limits s
  | .antennaOpen milliamp => Sys2Proof.Machine.execAntennaOpen milliamp s
  | .antennaClear => Sys2Proof.Machine.execAntennaClear s
  | .acqGo value => Sys2Proof.Machine.execAcqGo value s
  | .acqDone codePhase doppler peak t => Sys2Proof.Machine.execAcqDone codePhase doppler peak t s
  | .channelEnable n => Sys2Proof.Machine.execChannelEnable n s
  | .channelDisable n => Sys2Proof.Machine.execChannelDisable n s
  | .channelDump n t data pilot => Sys2Proof.Machine.execChannelDump n t data pilot s
  | .dumpInterrupt => Sys2Proof.Machine.execDumpInterrupt s
  | .ncoCommit n slip => Sys2Proof.Machine.execNcoCommit n slip s
  | .dumpAck n seq => Sys2Proof.Machine.execDumpAck n seq s
  | .measLatch => Sys2Proof.Machine.execMeasLatch s
  | .navMessage sig prn typ t len data passed utc => Sys2Proof.Machine.execNavMessage sig prn typ t len data passed utc s
  | .positionFix fix seen place sigmas velocity residuals drift jump err sigmaClock => Sys2Proof.Machine.execPositionFix fix seen place sigmas velocity residuals drift jump err sigmaClock s
  | .rtcmFrame source bytes => Sys2Proof.Machine.execRtcmFrame source bytes s
  | .correctionsOld => Sys2Proof.Machine.execCorrectionsOld s
  | .timeLocked => Sys2Proof.Machine.execTimeLocked s
  | .timeHoldover => Sys2Proof.Machine.execTimeHoldover s
  | .timeFreerun => Sys2Proof.Machine.execTimeFreerun s
  | .timeWrite t => Sys2Proof.Machine.execTimeWrite t s
  | .tpoPulse k => Sys2Proof.Machine.execTpoPulse k s
  | .tpiEdge t => Sys2Proof.Machine.execTpiEdge t s
  | .slewWrite value => Sys2Proof.Machine.execSlewWrite value s
  | .stepArm => Sys2Proof.Machine.execStepArm s
  | .stepCancel => Sys2Proof.Machine.execStepCancel s
  | .stepPending => Sys2Proof.Machine.execStepPending s
  | .timeStepExecute => Sys2Proof.Machine.execTimeStepExecute s
  | .governorEnable value => Sys2Proof.Machine.execGovernorEnable value s
  | .governorTick => Sys2Proof.Machine.execGovernorTick s
  | .freezeEnd m => Sys2Proof.Machine.execFreezeEnd m s
  | .settleInstant m => Sys2Proof.Machine.execSettleInstant m s
  | .governorWindowEnd => Sys2Proof.Machine.execGovernorWindowEnd s
  | .taskOpen task => Sys2Proof.Machine.execTaskOpen task s
  | .taskClose => Sys2Proof.Machine.execTaskClose s
  | .recordingStart => Sys2Proof.Machine.execRecordingStart s
  | .taskDelete task => Sys2Proof.Machine.execTaskDelete task s
  | .taskExport task => Sys2Proof.Machine.execTaskExport task s
  | .exportEnd done => Sys2Proof.Machine.execExportEnd done s
  | .tileShare row col => Sys2Proof.Machine.execTileShare row col s
  | .remoteTileMerge bytes => Sys2Proof.Machine.execRemoteTileMerge bytes s
  | .gatehouseTick => Sys2Proof.Machine.execGatehouseTick s
  | .sectionModeWrite section_ value => Sys2Proof.Machine.execSectionModeWrite section_ value s
  | .ghCommandSubmit ts issue value => Sys2Proof.Machine.execGhCommandSubmit ts issue value s
  | .ghCommandExecute => Sys2Proof.Machine.execGhCommandExecute s
  | .ghFlush => Sys2Proof.Machine.execGhFlush s
  | .ghDisable => Sys2Proof.Machine.execGhDisable s
  | .ghEpochWrite v => Sys2Proof.Machine.execGhEpochWrite v s
  | .steeringTick => Sys2Proof.Machine.execSteeringTick s
  | .engageRequest value => Sys2Proof.Machine.execEngageRequest value s
  | .lineGeometryWrite bytes => Sys2Proof.Machine.execLineGeometryWrite bytes s
  | .steeringWatch => Sys2Proof.Machine.execSteeringWatch s
  | .portLinkChange p up sqi preempt => Sys2Proof.Machine.execPortLinkChange p up sqi preempt s
  | .helloSend p => Sys2Proof.Machine.execHelloSend p s
  | .helloReceive port via viaPort ownPort serial role verLo verHi rev gen epoch setter => Sys2Proof.Machine.execHelloReceive port via viaPort ownPort serial role verLo verHi rev gen epoch setter s
  | .assignReceive port id up path s1 s2 sender serial epoch => Sys2Proof.Machine.execAssignReceive port id up path s1 s2 sender serial epoch s
  | .bindingRelease => Sys2Proof.Machine.execBindingRelease s
  | .flueFrameForward port frame fcsOk waited => Sys2Proof.Machine.execFlueFrameForward port frame fcsOk waited s
  | .ringchkFlood returned => Sys2Proof.Machine.execRingchkFlood returned s
  | .ringHeal a pa b pb micros => Sys2Proof.Machine.execRingHeal a pa b pb micros s
  | .streamReceive cls sender serial epoch fromHearth entries => Sys2Proof.Machine.execStreamReceive cls sender serial epoch fromHearth entries s
  | .setptFlood => Sys2Proof.Machine.execSetptFlood s
  | .setptReceive sender serial epoch entries => Sys2Proof.Machine.execSetptReceive sender serial epoch entries s
  | .nodeHoldExpiry => Sys2Proof.Machine.execNodeHoldExpiry s
  | .gptpSync offset quality unc => Sys2Proof.Machine.execGptpSync offset quality unc s
  | .syncLoss => Sys2Proof.Machine.execSyncLoss s
  | .acceptReplacement id => Sys2Proof.Machine.execAcceptReplacement id s
  | .mirrorSend => Sys2Proof.Machine.execMirrorSend s
  | .heartbeatSend => Sys2Proof.Machine.execHeartbeatSend s
  | .heartbeatReceive kind path sender serial epoch seq => Sys2Proof.Machine.execHeartbeatReceive kind path sender serial epoch seq s
  | .startWaitEnd => Sys2Proof.Machine.execStartWaitEnd s
  | .takeover => Sys2Proof.Machine.execTakeover s
  | .epochReset value => Sys2Proof.Machine.execEpochReset value s
  | .epochrstReceive serial header old new => Sys2Proof.Machine.execEpochrstReceive serial header old new s
  | .ackRetransmit seq => Sys2Proof.Machine.execAckRetransmit seq s
  | .chimneyConnect ok cause => Sys2Proof.Machine.execChimneyConnect ok cause s
  | .chimneyReconnect => Sys2Proof.Machine.execChimneyReconnect s
  | .chimneySend kind payload => Sys2Proof.Machine.execChimneySend kind payload s
  | .chimneyAck msgId => Sys2Proof.Machine.execChimneyAck msgId s
  | .chimneyInbound kind msgId payload crcOk => Sys2Proof.Machine.execChimneyInbound kind msgId payload crcOk s
  | .chimneyPeriodic kind => Sys2Proof.Machine.execChimneyPeriodic kind s
  | .canEnable c => Sys2Proof.Machine.execCanEnable c s
  | .canReceive c what id flags data af sdt vcid t tec rcnt => Sys2Proof.Machine.execCanReceive c what id flags data af sdt vcid t tec rcnt s
  | .queueAck c q index => Sys2Proof.Machine.execQueueAck c q index s
  | .txRequest c b => Sys2Proof.Machine.execTxRequest c b s
  | .txAttemptEnd c outcome lec t tec rcnt => Sys2Proof.Machine.execTxAttemptEnd c outcome lec t tec rcnt s
  | .txAbort c b => Sys2Proof.Machine.execTxAbort c b s
  | .busOffRecover c => Sys2Proof.Machine.execBusOffRecover c s
  | .busOffRecoveryEnd c => Sys2Proof.Machine.execBusOffRecoveryEnd c s
  | .addressClaimStart c => Sys2Proof.Machine.execAddressClaimStart c s
  | .claimTimeout c => Sys2Proof.Machine.execClaimTimeout c s
  | .contendingClaim c addr name => Sys2Proof.Machine.execContendingClaim c addr name s
  | .requestForClaim c => Sys2Proof.Machine.execRequestForClaim c s
  | .cvStart u => Sys2Proof.Machine.execCvStart u s
  | .cvData u size value => Sys2Proof.Machine.execCvData u size value s
  | .cvStateWrite u hi value => Sys2Proof.Machine.execCvStateWrite u hi value s
  | .aliveCheck u value => Sys2Proof.Machine.execAliveCheck u value s
  | .aliveSet u value => Sys2Proof.Machine.execAliveSet u value s
  | .canReassemblyTimeout c src => Sys2Proof.Machine.execCanReassemblyTimeout c src s
  | .read q index sub => Sys2Proof.Machine.execRead q index sub s
  | .write q index sub typ bytes => Sys2Proof.Machine.execWrite q index sub typ bytes s
  | .blockRead q index sub offset most => Sys2Proof.Machine.execBlockRead q index sub offset most s
  | .blockSeg q index sub offset bytes => Sys2Proof.Machine.execBlockSeg q index sub offset bytes s
  | .blockEnd q index sub typ total crc => Sys2Proof.Machine.execBlockEnd q index sub typ total crc s
  | .blockSessionExpiry who index sub => Sys2Proof.Machine.execBlockSessionExpiry who index sub s
  | .subscribe q index sub period least => Sys2Proof.Machine.execSubscribe q index sub period least s
  | .unsubscribe q id => Sys2Proof.Machine.execUnsubscribe q id s
  | .periodicNotify id => Sys2Proof.Machine.execPeriodicNotify id s
  | .notifyKeepalive id => Sys2Proof.Machine.execNotifyKeepalive id s
  | .notifyReceive peer id seq index sub typ bytes => Sys2Proof.Machine.execNotifyReceive peer id seq index sub typ bytes s
  | .commit q index sub fails => Sys2Proof.Machine.execCommit q index sub fails s
  | .describe q index sub => Sys2Proof.Machine.execDescribe q index sub s
  | .defaults q => Sys2Proof.Machine.execDefaults q s
  | .remoteResponse peer alive tag op status index sub typ aux bytes => Sys2Proof.Machine.execRemoteResponse peer alive tag op status index sub typ aux bytes s
  | .remoteTimeout tag => Sys2Proof.Machine.execRemoteTimeout tag s
  | .lockstepMismatch pair => Sys2Proof.Machine.execLockstepMismatch pair s
  | .dmaSubmit value => Sys2Proof.Machine.execDmaSubmit value s
  | .dmaStart => Sys2Proof.Machine.execDmaStart s
  | .dmaComplete tag => Sys2Proof.Machine.execDmaComplete tag s
  | .dmaCqAck head => Sys2Proof.Machine.execDmaCqAck head s
  | .dmaAbort tag => Sys2Proof.Machine.execDmaAbort tag s
  | .doorbell who n => Sys2Proof.Machine.execDoorbell who n s
  | .claim who t => Sys2Proof.Machine.execClaim who t s
  | .complete who t n => Sys2Proof.Machine.execComplete who t n s
  | .scrubRead addr errors => Sys2Proof.Machine.execScrubRead addr errors s
  | .clearRetirementList => Sys2Proof.Machine.execClearRetirementList s
  | .storageSubmit writer value => Sys2Proof.Machine.execStorageSubmit writer value s
  | .storageComplete tag media => Sys2Proof.Machine.execStorageComplete tag media s
  | .storageTimeout tag => Sys2Proof.Machine.execStorageTimeout tag s
  | .storageCqAck head => Sys2Proof.Machine.execStorageCqAck head s
  | .storageAbort tag => Sys2Proof.Machine.execStorageAbort tag s
  | .flashLifetimeCheck percent => Sys2Proof.Machine.execFlashLifetimeCheck percent s
  | .integrityProfileWrite sub value => Sys2Proof.Machine.execIntegrityProfileWrite sub value s
  | .monitorWindow a b c d stuck => Sys2Proof.Machine.execMonitorWindow a b c d stuck s
  | .pllLockLoss p => Sys2Proof.Machine.execPllLockLoss p s
  | .opRequest k op => Sys2Proof.Machine.execOpRequest k op s
  | .opSequenceEnd k => Sys2Proof.Machine.execOpSequenceEnd k s
  | .lowSupplyEntry decivolt => Sys2Proof.Machine.execLowSupplyEntry decivolt s
  | .lowSupplyExit decivolt => Sys2Proof.Machine.execLowSupplyExit decivolt s
  | .powerFailWarning steep decivolt => Sys2Proof.Machine.execPowerFailWarning steep decivolt s
  | .warningClear decivolt => Sys2Proof.Machine.execWarningClear decivolt s
  | .logicOvervoltage decivolt => Sys2Proof.Machine.execLogicOvervoltage decivolt s
  | .holdupExhausted => Sys2Proof.Machine.execHoldupExhausted s
  | .bankInputUndervoltage k decivolt => Sys2Proof.Machine.execBankInputUndervoltage k decivolt s
  | .groundOffset decivolt => Sys2Proof.Machine.execGroundOffset decivolt s
  | .groundOffsetClear decivolt => Sys2Proof.Machine.execGroundOffsetClear decivolt s
  | .ignFall => Sys2Proof.Machine.execIgnFall s
  | .ignRise inputs away found => Sys2Proof.Machine.execIgnRise inputs away found s
  | .shutdownTimeEnd => Sys2Proof.Machine.execShutdownTimeEnd s
  | .powerOnReset ign away found => Sys2Proof.Machine.execPowerOnReset ign away found s
  | .pinReset low found => Sys2Proof.Machine.execPinReset low found s
  | .systemReset value => Sys2Proof.Machine.execSystemReset value s
  | .clusterReset value => Sys2Proof.Machine.execClusterReset value s
  | .applicationStart => Sys2Proof.Machine.execApplicationStart s
  | .stateRequest value => Sys2Proof.Machine.execStateRequest value s
  | .sleepWake source => Sys2Proof.Machine.execSleepWake source s
  | .deepWake source away found => Sys2Proof.Machine.execDeepWake source away found s
  | .watchdogKick who w value => Sys2Proof.Machine.execWatchdogKick who w value s
  | .watchdogExpiry w => Sys2Proof.Machine.execWatchdogExpiry w s
  | .clockLossRetry passes => Sys2Proof.Machine.execClockLossRetry passes s
  | .slotClaim => Sys2Proof.Machine.execSlotClaim s
  | .mailboxGo slot waiting fails => Sys2Proof.Machine.execMailboxGo slot waiting fails s
  | .mailboxDone slot => Sys2Proof.Machine.execMailboxDone slot s
  | .mailboxRelease slot => Sys2Proof.Machine.execMailboxRelease slot s
  | .eventPost code sev => Sys2Proof.Machine.execEventPost code sev s
  | .eventRecordWrite => Sys2Proof.Machine.execEventRecordWrite s
  | .eventSpill => Sys2Proof.Machine.execEventSpill s
  | .thermalReading z a b rawA rawB => Sys2Proof.Machine.execThermalReading z a b rawA rawB s
  | .damperStep2 => Sys2Proof.Machine.execDamperStep2 s
  | .thermalShutdownAct => Sys2Proof.Machine.execThermalShutdownAct s
  | .panelSubmit tag => Sys2Proof.Machine.execPanelSubmit tag s
  | .panelRowEnd => Sys2Proof.Machine.execPanelRowEnd s
  | .railRise => Sys2Proof.Machine.execRailRise s
  | .railFall => Sys2Proof.Machine.execRailFall s
  | .thermistorRead tenths => Sys2Proof.Machine.execThermistorRead tenths s
  | .thermistorFallback => Sys2Proof.Machine.execThermistorFallback s
  | .panelReplay => Sys2Proof.Machine.execPanelReplay s
  | .railFault negative decivolt => Sys2Proof.Machine.execRailFault negative decivolt s
  | .panelRestart => Sys2Proof.Machine.execPanelRestart s
  | .completionPop => Sys2Proof.Machine.execCompletionPop s
  | .geometryWrite sub value => Sys2Proof.Machine.execGeometryWrite sub value s
  | .challengeRead => Sys2Proof.Machine.execChallengeRead s
  | .tokenWrite bytes => Sys2Proof.Machine.execTokenWrite bytes s
  | .transitionRequest value => Sys2Proof.Machine.execTransitionRequest value s
  | .serialStaging number => Sys2Proof.Machine.execSerialStaging number s
  | .slotHashWrite bytes => Sys2Proof.Machine.execSlotHashWrite bytes s
  | .slotKeyWrite bytes => Sys2Proof.Machine.execSlotKeyWrite bytes s
  | .debugClose => Sys2Proof.Machine.execDebugClose s
  | .debugExpiry => Sys2Proof.Machine.execDebugExpiry s
  | .debugDatagram seq op reg data => Sys2Proof.Machine.execDebugDatagram seq op reg data s
  | .intakeFragment source bytes => Sys2Proof.Machine.execIntakeFragment source bytes s
  | .updateAbort t => Sys2Proof.Machine.execUpdateAbort t s
  | .relayRequest t seen => Sys2Proof.Machine.execRelayRequest t seen s
  | .relayNeighbourResume t p received => Sys2Proof.Machine.execRelayNeighbourResume t p received s
  | .relayActivationStep seen => Sys2Proof.Machine.execRelayActivationStep seen s
  | .activationTimeout => Sys2Proof.Machine.execActivationTimeout s
  | .activate t => Sys2Proof.Machine.execActivate t s
  | .confirm t => Sys2Proof.Machine.execConfirm t s
  | .confirmationExpiry t => Sys2Proof.Machine.execConfirmationExpiry t s
  | .rollBack t => Sys2Proof.Machine.execRollBack t s
  | .powerGroundReturn d => Sys2Proof.Machine.execPowerGroundReturn d s
  | .logicGroundReturn d => Sys2Proof.Machine.execLogicGroundReturn d s
  | .logicOvervoltageEnd decivolt => Sys2Proof.Machine.execLogicOvervoltageEnd decivolt s
  | .slewEnd => Sys2Proof.Machine.execSlewEnd s
  | .startPermitted decivolt found => Sys2Proof.Machine.execStartPermitted decivolt found s
  | .chimneyDisconnect cause => Sys2Proof.Machine.execChimneyDisconnect cause s
  | .mirrorReceive path seq block => Sys2Proof.Machine.execMirrorReceive path seq block s
  | .camParameterCopyEnd c => Sys2Proof.Machine.execCamParameterCopyEnd c s

end Sys2Proof.Machine
end

