-- ==== Sys2Proof/Safety.lean ====
section
/-!
DEFINITION. The terms that statements about the module use: what stays as it was, and the conditions under which a write of an
object is accepted without anything else happening.
-/
namespace Sys2Proof.Machine
open State

/-- Every byte of memory reads as before. -/
def SameMemory (s t : State) : Prop := ∀ a, t.mem.read a = s.mem.read a

/-- A byte that belongs to a DRAM sample ring (R21). -/
def InRing (s : State) (a : Nat) : Prop :=
  ∃ k, k < 256 ∧ (s.ringOf k).base ≠ 0 ∧ (s.ringOf k).base ≤ a ∧
    a < (s.ringOf k).base + (if (s.ringOf k).mode = 0 then 16 else 128) * (s.ringOf k).depth

/-- Every byte outside the sample rings reads as before: the frame of a command that delivers samples. -/
def SameOutsideRings (s t : State) : Prop := ∀ a, ¬ InRing s a → t.mem.read a = s.mem.read a

/-- Every register but those of a list reads as before. -/
def SameRegs (l : List Nat) (s t : State) : Prop := ∀ a, a ∉ l → t.rd a = s.rd a

/-- The dictionary service runs in a life-cycle state that takes writes (R328, R478, R483). -/
def Serves (s : State) : Prop := dictServes s = true ∧ s.lifeCycle ≠ 0 ∧ s.lifeCycle ≠ 4

/-- A write that was answered with a status: the subscribers whose values changed are notified (R342), the answer goes out, and a
reset or power-down that was asked for follows (R424). -/
def answeredWith (t : State) (status : Nat) : State := settle ((notifyChanges t).emit (.answered status))

/-- An accepted write of a value to an object whose effect led to t: it is noted for the mirror (R289), counted (R330) and
answered OK (R330). -/
def accepted (t : State) (index sub : Nat) (ty : ObjTy) (v : ObjVal) : State :=
  answeredWith (countChange (mirrorNote t index sub ty v) index sub) St.ok

/-- A write refused with a status. -/
def refused (t : State) (status : Nat) : State := answeredWith t status

/-- The intake queue of the recorder has room for n more events (R448). -/
def Room (s : State) (n : Nat) : Prop := s.ev.intake.length + n ≤ 64

/-- The event that is logged for a code with its data (R444, R448, R520). -/
def eventOf (code : Nat) (data : List Byte) : Ev := ⟨code, sourceOf code, severityOf code, data⟩

end Sys2Proof.Machine
end

