-- ==== Sys2Proof/Certificates/Slice0/Obligations.lean ====
section
/-!
DEFINITION. What is stated of the model for the provers. Each docstring says what its statement claims and names the rules it
comes from.
-/
open Sys2Proof Sys2Proof.Machine

/-- With a command at the front of its queue, one step is exec of that command on the state with the rest of the queue; with an empty queue the module idles: the state stays as it is, but that a stop cause found present with SI_STOP.STATE not LATCHED latches the stop (the model's choice, log entry 1). (14_object_dictionary.md R331, spec/opcode_table.json) -/
def Obligations.FrontCommandRuns : Prop :=
  (∀ (c : Instr) (rest : List Instr) (s : State),
    step { s with pending := c :: rest } = exec c { s with pending := rest }) ∧
  (∀ s : State, s.pending = [] → (stopCauses s = 0 ∨ s.get R.siStopState = 1) → step s = .next s) ∧
  (∀ s : State, s.pending = [] → stopCauses s ≠ 0 → s.get R.siStopState ≠ 1 → step s = .next (stopEvaluate s))

/-- Every command with any operands, in every state, answers a next state. (spec/opcode_table.json, 00_scope.md) -/
def Obligations.NoCommandStops : Prop :=
  ∀ (c : Instr) (s : State), ∃ t, exec c s = .next t

/-- In State.reset every register reads its reset value and every object its default, memory reads 0, the module runs in PROVISIONED (log entry 4) with nothing waiting, nothing put out and no event logged, each stage die has its reset to report (R90, R112), and no OEM key slot holds a hash or a key. (00_scope.md R5, 14_object_dictionary.md R335, 16_memory_storage.md R391, 22_security_update.md R478, 22_security_update.md R484) -/
def Obligations.FirstState : Prop :=
  (∀ a, State.reset.rd a = regReset a) ∧
  (∀ index sub, State.reset.obj index sub = objDefault index sub) ∧
  (∀ a, State.reset.mem.read a = 0) ∧
  State.reset.lifeCycle = 1 ∧ State.reset.ps.mode = 0 ∧ State.reset.pending = [] ∧ State.reset.out = [] ∧
  State.reset.ev.intake = [] ∧ (∀ d, d < 5 → (State.reset.dieAt d).reports = dieResetReports d) ∧
  (∀ k, State.reset.sec.otp.hashes.getD k [] = [] ∧ State.reset.sec.otp.keys.getD k [] = [])

/-- A hash or a key that an OEM slot holds is what it holds after every step, whatever command the step runs and whatever the state, resets and life-cycle transitions included. (22_security_update.md R484, 22_security_update.md R479) -/
def Obligations.WrittenSlotsAreKept : Prop :=
  ∀ (s t : State) (k : Nat), step s = .next t →
    (s.sec.otp.hashes.getD k [] ≠ [] → t.sec.otp.hashes.getD k [] = s.sec.otp.hashes.getD k []) ∧
    (s.sec.otp.keys.getD k [] ≠ [] → t.sec.otp.keys.getD k [] = s.sec.otp.keys.getD k [])

/-- After every step the commands that wait are those that waited before without the first, in the same order: no command is added, lost or reordered, whatever the command does. (14_object_dictionary.md R331, spec/opcode_table.json) -/
def Obligations.QueueKeepsItsOrder : Prop :=
  ∀ s t : State, step s = .next t → t.pending = s.pending.tail

/-- A plain write at a populated offset: a writable field takes its part of the word if that is a legal encoding and stays as it was otherwise, a read-only field stays, a write-1-to-clear field loses the bits written 1; at a reserved offset nothing changes and a read returns 0. (00_scope.md R5, 00_scope.md R6) -/
def Obligations.RegisterFieldsTakeWrites : Prop :=
  ∀ (s : State) (a : Nat) (v : Word),
    (regAt a = none → plainWrite s a v = s ∧ regReset a = 0) ∧
    (∀ d i j, regAt a = some (d, i, j) → ∀ f ∈ d.fields,
      (f.access = .rw → f.accepts (fieldOf v.toNat f) = true →
        (plainWrite s a v).get ⟨a, f.lsb, f.width⟩ = fieldOf v.toNat f) ∧
      (f.access = .rw → f.accepts (fieldOf v.toNat f) = false →
        (plainWrite s a v).get ⟨a, f.lsb, f.width⟩ = s.get ⟨a, f.lsb, f.width⟩) ∧
      (f.access = .ro → (plainWrite s a v).get ⟨a, f.lsb, f.width⟩ = s.get ⟨a, f.lsb, f.width⟩) ∧
      (f.access = .w1c → ∀ k, k < f.width →
        (plainWrite s a v).flag ⟨a, f.lsb + k, 1⟩ = (s.flag ⟨a, f.lsb + k, 1⟩ && !bit v (f.lsb + k))))

/-- While the firmware runs, a 32-bit write at an aligned register address reaches the block of the register: that of the Keeper's mailboxes and watchdogs, or one of the other blocks, at once where the clock its effect needs runs and with that clock where it stands still; a write of 1, 2 or 4 bytes of CV_DATA feeds its unit. A write outside the register space, unaligned or of a wrong size changes nothing but the bus error it logs at most once per second. A watchdog or mailbox register without a command of its own takes a plain write. COUNTER_CLEAR of a register with a counter-clear bit writes that bit and leaves its other fields; that of the interrupt controller clears each of its counters and nothing else. (00_scope.md R6, 15_processors_interrupts.md R358, 02_control_engine.md R57, 13_can_integrity.md R320, 17_clocks.md R404) -/
def Obligations.RegisterWritesReachTheirRegister : Prop :=
  ∀ (s : State) (who a size u b : Nat) (v : Word), s.serving = true →
    (0x20000000 ≤ a → a < 0x20130000 → a % 4 = 0 → cvDataUnit a = none → gateOpen s a = true → a ≠ R.ckGrun →
      exec (.registerWrite who a 4 v) s = .next (blockWriteNow s who a v).1) ∧
    (0x20000000 ≤ a → a < 0x20130000 → a % 4 = 0 → cvDataUnit a = none → gateOpen s a = false →
      exec (.registerWrite who a 4 v) s = .next (s.gateWait { who := who, addr := a, value := v })) ∧
    (exec (.registerWrite who R.ckGrun 4 v) s = .next (gateRelease (blockWriteNow s who R.ckGrun v).1)) ∧
    (0x20130000 ≤ a → a < 0x20140000 → a % 4 = 0 →
      exec (.registerWrite who a 4 v) s = .next (kpWrite s who (a - 0x20130000) v)) ∧
    (0x20130040 ≤ a → a < 0x20130100 → a % 4 = 0 → exec (.registerWrite who a 4 v) s = .next (plainWrite s a v)) ∧
    (cvDataUnit a = some u → (size = 1 ∨ size = 2 ∨ size = 4) → s.gateOn 12 = true →
      exec (.registerWrite who a size v) s = .next (cvFeed s u (leBytes size v.toNat))) ∧
    (cvDataUnit a = some u → (size = 1 ∨ size = 2 ∨ size = 4) → s.gateOn 12 = false →
      exec (.registerWrite who a size v) s = .next (s.gateWait { who := who, addr := a, value := v, size := size })) ∧
    ((a < 0x20000000 ∨ 0x20140000 ≤ a) → exec (.registerWrite who a size v) s = .next (s.busError who a)) ∧
    (cvDataUnit a = none → (size ≠ 4 ∨ a % 4 ≠ 0) → exec (.registerWrite who a size v) s = .next (s.busError who a)) ∧
    (clearBit a = some b → exec (.counterClear a) s = .next (fieldWrite s serviceCore ⟨a, b, 1⟩ 1).1) ∧
    exec (.counterClear R.icCtrl) s = .next (s.clearAll icCounters)

/-- While the dictionary takes writes, opening an entry in IDLE or SETUP puts it in SETUP with its active copy as the shadow, and writing a well-formed value to an entry in SETUP writes its shadow; opening an entry in PENDING, and writing one that is not in SETUP, is answered STATE and changes nothing. A commit request moves the SETUP entries to PENDING for the first boundary at least 500 µs ahead, or accepts an empty change; a cancel returns the PENDING entries that are at least 500 µs from their boundary to SETUP and is answered STATE where there is none; a prepare for a boundary moves valid SETUP entries to PENDING for it, records the first failure and is answered RANGE otherwise, and is answered RANGE with no failure recorded for a target that is no boundary or too near (log entry 9); a go confirmation is counted. Every accepted write is counted, noted for the mirror and answered OK, and what it asked for follows. (01_architecture.md R16, 14_object_dictionary.md R350, 01_architecture.md R17, 01_architecture.md R20, 14_object_dictionary.md R351) -/
def Obligations.TrellisEntriesAreEditedAndCommitted : Prop :=
  (∀ (s : State) (e : Nat) (l : List Byte), Serves s → e < 1024 → l.length = 20 →
     ((s.entryOf e).state ≠ 2 →
       exec (.openEntry e) s =
         .next (accepted (s.setEntry e { s.entryOf e with state := 1, shadow := (s.entryOf e).active }) 0x1700 0x01 .u16 (.num e))) ∧
     ((s.entryOf e).state = 2 → exec (.openEntry e) s = .next (refused s St.state)) ∧
     ((s.entryOf e).state = 1 → natAt l 16 1 ≤ 1 → natAt l 17 3 = 0 →
       exec (.trellisEntryWrite e l) s =
         .next (accepted (s.setEntry e { s.entryOf e with shadow := copyOf l }) (0x1701 + e / 128) (e % 128 + 1) .blob (.bytes l))) ∧
     ((s.entryOf e).state ≠ 1 → exec (.trellisEntryWrite e l) s = .next (refused s St.state))) ∧
  (∀ (s : State) (b : Time), Serves s → b < 2 ^ 64 →
     exec .commitRequest s = .next (accepted (toPending s (commitBoundary s.time.dev)) 0x1700 0x02 .u8 (.num 1)) ∧
     s.time.dev + 500000 ≤ commitBoundary s.time.dev ∧ commitBoundary s.time.dev % 10000000 = 0 ∧
     (anyEntry s (fun x => x.state == 2 && decide (s.time.dev + 500000 ≤ x.boundary)) = true →
       exec .cancel s = .next (accepted (mapEntries s (fun x => x.state == 2 && decide (s.time.dev + 500000 ≤ x.boundary))
         fun x => { x with state := 1 }) 0x1700 0x03 .u8 (.num 1))) ∧
     (anyEntry s (fun x => x.state == 2 && decide (s.time.dev + 500000 ≤ x.boundary)) = false →
       exec .cancel s = .next (refused s St.state)) ∧
     (b % 10000000 = 0 → s.time.dev + 500000 ≤ b → (prepare s b).2 = St.ok →
       exec (.prepare b) s = .next (accepted (toPending s b) 0x1700 0x04 .time64 (.num b))) ∧
     ((b % 10000000 ≠ 0 ∨ b < s.time.dev + 500000) → exec (.prepare b) s = .next (refused s St.range)) ∧
     exec .go s =
       .next (accepted { s with trellis := { s.trellis with goes := s.trellis.goes + 1 } } 0x1700 0x05 .u8 (.num 1)) ∧
     (b % 10000000 = 0 → s.time.dev + 500000 ≤ b → (prepare s b).2 = St.range →
       exec (.prepare b) s = .next (refused (prepare s b).1 St.range) ∧
         (prepare s b).1.trellis.failures = s.trellis.failures + 1 ∧ (prepare s b).1.trellis.entries = s.trellis.entries))

/-- At the next epoch boundary, reached in device time, the entries due are made active together in one commit that is counted, or all return to SETUP with the first failure recorded, counted and logged as event 0x1302; a well-formed ring configuration that no enabled active entry binds is taken with SEQ 0, and one that is bound is answered BUSY. (01_architecture.md R18, 14_object_dictionary.md R352) -/
def Obligations.BoundaryMakesRoutesActive : Prop :=
  (∀ (s : State) (b : Time), s.serving = true → b = gridNext 10000000 s.trellis.lastEpoch s.time.dev →
    exec .epochBoundaryCommit s =
      .next (boundaryCommit { s.devTo b with trellis := { (s.devTo b).trellis with lastEpoch := some b } } b)) ∧
  (∀ (s : State) (b : Time) (f : Nat × Nat), anyEntry s (fun e => e.state == 2 && decide (e.boundary ≤ b)) = true →
    firstFailure (emptyCommitsDone s b) (s.trellis.entries.map fun e =>
      (e.1, (if e.2.state == 2 && decide (e.2.boundary ≤ b) then e.2.shadow else e.2.active),
        (e.2.state == 2 && decide (e.2.boundary ≤ b)))) = some f → Room s 1 →
    (boundaryCommit s b).trellis.lastFailure = f.1 + 65536 * f.2 ∧
    (boundaryCommit s b).trellis.failures = s.trellis.failures + 1 ∧
    (boundaryCommit s b).trellis.commits = (emptyCommitsDone s b).trellis.commits ∧
    (boundaryCommit s b).ev.intake = s.ev.intake ++ [eventOf 0x1302 (leBytes 2 f.1 ++ leBytes 1 f.2)]) ∧
  (∀ (s : State) (k : Nat) (l : List Byte), Serves s → k < 256 → l.length = 16 → natAt l 0 8 % 64 = 0 →
    (natAt l 0 8 = 0 ∨
      (2 ≤ natAt l 8 2 ∧ inSramOrDram s (natAt l 0 8) (natAt l 8 2 * (if natAt l 10 1 = 0 then 16 else 128)) = true)) → natAt l 10 1 ≤ 1 → natAt l 11 5 = 0 →
    (bound s (0x300 + k) = false →
      exec (.ringConfigWrite k l) s =
        .next (accepted (s.setRing k ⟨natAt l 0 8, natAt l 8 2, natAt l 10 1, 0⟩) (0x1709 + k / 128) (k % 128 + 1) .blob (.bytes l))) ∧
    (bound s (0x300 + k) = true → exec (.ringConfigWrite k l) s = .next (refused s St.busy))) ∧
  (∀ (s : State) (b : Time), anyEntry s (fun e => e.state == 2 && decide (e.boundary ≤ b)) = true →
    firstFailure (emptyCommitsDone s b) (s.trellis.entries.map fun e =>
      (e.1, (if e.2.state == 2 && decide (e.2.boundary ≤ b) then e.2.shadow else e.2.active),
        (e.2.state == 2 && decide (e.2.boundary ≤ b)))) = none →
    (boundaryCommit s b).trellis.lastAction = 2 ∧ (boundaryCommit s b).trellis.lastBoundary = b ∧
    (boundaryCommit s b).trellis.failures = s.trellis.failures ∧
    (boundaryCommit s b).trellis.commits = ((emptyCommitsDone s b).trellis.commits + 1) % 4294967296)

/-- From a stop state that is not LATCHED, asserting STOP_A, STOP_B, SWSTOP or receiving a checked stop frame on a port that is up latches the stop: SI_STOP.STATE reads 1, CAUSE names the causes present and no release time runs; a level held in the 3 V to 7 V band for 50 ms asserts its input and sets BAND. With no cause present the release time leads from LATCHED to RELEASED and fires source 391, and a re-arm in RELEASED clears the stop and the latch of every stage die that sees both inputs released; otherwise a re-arm sets REARM_ERR, logs event 0x0903 and leaves the stop as it is. The remote cause ends after its time. Inputs that differ longer than DISC_MS set DISC, fire source 390 and log event 0x0902. While a local cause is present the stop frame is sent again and the next is due 100 µs later. In any stop state an input takes the state its change gives, SWSTOP its written value, and a stop frame is taken, or counted and discarded where its FCS is wrong. (05_sensor_inputs.md R126, 05_sensor_inputs.md R127, 05_sensor_inputs.md R128, 01_architecture.md R30, 12_fabric_fleet.md R272, 05_sensor_inputs.md R129, 05_sensor_inputs.md R130, 01_architecture.md R29) -/
def Obligations.StopsLatchAndRelease : Prop :=
  (∀ (s : State) (k port dv : Nat) (f : FlueFrame), s.get R.siStopState ≠ 1 →
     (k < 2 → ∃ t, exec (.stopInputChange k true) s = .next t ∧ t.get R.siStopState = 1 ∧ stopInputState t k = true ∧
       t.get R.siStopCause = stopCauses t ∧ t.stop.freeSince = none) ∧
     (k < 2 → stopInputState s k = false → 30 ≤ dv → dv ≤ 70 →
       ∃ t, exec (.stopBandTimeout k dv) s = .next t ∧ t.get R.siStopState = 1 ∧ stopInputState t k = true ∧
         t.flag ⟨R.siStop, 12 + k, 1⟩ = true) ∧
     (∃ t, exec (.softwareStop true) s = .next t ∧ t.get R.siStopState = 1 ∧ t.flag R.siStopSwstop = true) ∧
     (s.gateOn 9 = true → port < 6 → s.portUp port = true → isFlue s f → f.cls = 7 → f.kind = 0x07 →
       f.check = flueCheck f →
       ∃ t, exec (.stopFrameReceive port f true) s = .next t ∧ t.get R.siStopState = 1 ∧
         t.stop.remoteEnd = some (s.now + 1000000))) ∧
  (∀ (s : State) (t0 : Nat),
     (s.stop.freeSince = some t0 → s.get R.siStopState = 1 →
       exec .stopRelease s =
         .next (((s.passTo (t0 + ms (10 * s.get R.siStopcfgRel))).set R.siStopState 2).fire 391)) ∧
     (s.get R.siStopState = 2 → stopCauses s = 0 → s.flag R.siStopDisc = false →
       ∃ t, exec .rearm s = .next t ∧ t.get R.siStopState = 0 ∧
         (∀ d, d < 5 → (t.dieAt d).stopped = ((s.dieAt d).stopped && ((s.dieAt d).inA || (s.dieAt d).inB))) ∧
         t.flag R.sdStatStop = false ∧ t.flag R.lsStatStop = false ∧ SameMemory s t) ∧
     ((s.get R.siStopState ≠ 2 ∨ stopCauses s ≠ 0 ∨ s.flag R.siStopDisc = true) →
       exec .rearm s = .next ((s.set R.siStopRearmErr 1).log 0x0903
         (leBytes 1 (s.get R.siStopState) ++ leBytes 1 (stopCauses s) ++ leBytes 1 (s.get R.siStopDisc)))) ∧
     (s.stop.remoteEnd = some t0 →
       ∃ t, exec .stopRemoteExpiry s = .next t ∧ t.stop.remoteEnd = none ∧ max s.now t0 = t.now) ∧
     (s.stop.differAt = some t0 → s.flag R.siStopDisc = false →
       ∃ t, exec .stopDiscrepancy s = .next t ∧ t.flag R.siStopDisc = true ∧ t.flag ⟨R.siIrqStat, 6, 1⟩ = true) ∧
     (localCauses s ≠ 0 →
       ∃ t, exec .stopFrameRepeat s = .next t ∧ t.stop.frameAt = max s.now s.stop.frameAt + 100000 ∧ SameMemory s t)) ∧
  (∀ (s : State) (k port : Nat) (a on : Bool) (f : FlueFrame),
     (k < 2 → exec (.stopInputChange k a) s = .next (stopInput (if a then s else s.set ⟨R.siStop, 12 + k, 1⟩ 0) k a) ∧
       ∃ t, exec (.stopInputChange k a) s = .next t ∧ stopInputState t k = a) ∧
     (∃ t, exec (.softwareStop on) s = .next t ∧ t = softwareStop s on ∧ t.flag R.siStopSwstop = on) ∧
     (s.gateOn 9 = true → port < 6 → s.portUp port = true → isFlue s f → f.cls = 7 → f.kind = 0x07 →
       f.check = flueCheck f →
       exec (.stopFrameReceive port f true) s = .next (stopFrameTake (s.count (R.fbPrxfrm port)) port f)) ∧
     (s.gateOn 9 = true → port < 6 → s.portUp port = true → isFlue s f → f.cls = 7 → f.kind = 0x07 →
       exec (.stopFrameReceive port f false) s = .next ((s.count (R.fbPrxfrm port)).count (R.fbPfcserr port))))

/-- While the engine's clock runs: a frame boundary counts CE_FRAME on by one and sends the stage frame of that number; CE_CTRL.EN = 1 is taken where the engine's SRAM works and its clock is calibrated, with CE_FRAME set from device time, and refused otherwise; EN = 0 stops every loop. A STOPPED loop whose shadow set passes the checks of a start goes to WAIT_PHASE, or to HELD while the stages are held, with RUN = 1; one that fails keeps RUN = 0, shows the code in ERR, fires source 9 and logs event 0x0603. RUN = 1 of a loop that runs or is HELD changes nothing. RUN = 0 lets a loop that runs or is HELD stop at the next boundary. APPLY sets APPLY_PEND where the shadow set passes its checks and, in a running loop, leaves PERIOD, PHASE and the target as they are; it is refused with ERR 4 or 5 of those checks, or 7 where PERIOD or PHASE changed. TRIPCLR returns a TRIPPED loop to STOPPED and does nothing else. (02_control_engine.md R32, 02_control_engine.md R33, 02_control_engine.md R49, 02_control_engine.md R50, 02_control_engine.md R51) -/
def Obligations.FramesAdvanceAndLoopsStart : Prop :=
  (∀ s : State,
     (s.gateOn 4 = true →
       exec .frameBoundary s = .next (autoStart (frameBoundary s)) ∧ (frameBoundary s).frame = (s.frame + 1) % 2 ^ 64 ∧
         (frameBoundary s).out.head? = some (.stageFrame (frameBoundary s).frame)) ∧
     (s.gateOn 4 = true → s.flag R.ceCtrlEn = false → engineAllowed s = true →
       ∃ t, exec .ceEnable s = .next t ∧ t.flag R.ceCtrlEn = true ∧ t.frame = s.time.dev / 10000 % 2 ^ 64 ∧
         t.rd R.ceFrameOfs = 0 ∧ SameMemory s t) ∧
     (s.gateOn 4 = true → engineAllowed s = false → exec .ceEnable s = .next s) ∧
     (s.gateOn 4 = true → ∃ t, exec .ceDisable s = .next t ∧ t.flag R.ceCtrlEn = false ∧
       (∀ n, n < 64 → t.get (R.ceLctrlRun n) = 0) ∧ SameMemory s t)) ∧
  (∀ (s : State) (n : Nat), s.gateOn 4 = true → n < 64 →
     (s.loopState n = 0 → startErr s n (s.loopShadow n) = 0 →
       ∃ t, exec (.loopRun n) s = .next t ∧ t.loopState n = (if s.flag R.ceStatHeld then 4 else 1) ∧
         t.flag (R.ceLctrlRun n) = true ∧ (t.loopAt n).active = s.loopShadow n ∧ SameMemory s t) ∧
     (s.loopState n = 0 → startErr s n (s.loopShadow n) ≠ 0 →
       ∃ t, exec (.loopRun n) s = .next t ∧ t.loopState n = 0 ∧ t.flag (R.ceLctrlRun n) = false ∧
         t.get (R.ceLstatErr n) = startErr s n (s.loopShadow n) ∧ t.flag ⟨R.ceIrqStat, 1, 1⟩ = true ∧ SameMemory s t) ∧
     ([1, 2, 4].contains (s.loopState n) = true →
       exec (.loopStop n) s = .next ((s.set (R.ceLctrlRun n) 0).setLoop n { s.loopAt n with stopPend := true })) ∧
     ([1, 2, 4].contains (s.loopState n) = false → exec (.loopStop n) s = .next (s.set (R.ceLctrlRun n) 0)) ∧
     ([1, 2, 4].contains (s.loopState n) = false → paramErr (s.loopShadow n) = 0 →
       exec (.loopApply n) s = .next (s.set (R.ceLstatApplyPend n) 1)) ∧
     ([1, 2, 4].contains (s.loopState n) = false → paramErr (s.loopShadow n) ≠ 0 →
       exec (.loopApply n) s = .next (s.set (R.ceLstatErr n) (paramErr (s.loopShadow n)))) ∧
     ([1, 2, 4].contains (s.loopState n) = true → paramErr (s.loopShadow n) = 0 →
       pWord (s.loopShadow n) 2 = pWord (s.loopAt n).active 2 → pWord (s.loopShadow n) 3 = pWord (s.loopAt n).active 3 →
       pFlag (s.loopShadow n) 2 = pFlag (s.loopAt n).active 2 →
       exec (.loopApply n) s = .next (s.set (R.ceLstatApplyPend n) 1)) ∧
     ([1, 2, 4].contains (s.loopState n) = true → pWord (s.loopShadow n) 2 ≠ pWord (s.loopAt n).active 2 →
       exec (.loopApply n) s = .next (s.set (R.ceLstatErr n) 7)) ∧
     (s.loopState n = 3 → exec (.loopTripclr n) s = .next (s.set (R.ceLstatState n) 0)) ∧
     (s.loopState n ≠ 3 → exec (.loopTripclr n) s = .next s) ∧
     (s.loopState n ≠ 0 → s.loopState n ≠ 3 → exec (.loopRun n) s = .next s))

/-- While the engine's clock runs: with HELD = 1 a reclaim is taken, with HELD = 0 it does nothing; at the boundary after it the dies that agree leave hold, and where every held die agrees RECL reads 2, HELD reads 0 and source 10 fires, otherwise RECL reads 3 with the other dies in RECL_DIE and source 11 fires. Three missing status frames set the die's LINKF bit and log event 0x0608, three valid ones clear it; a valid frame, whatever it measured, takes the die's reports; of an invalid one only the number of a frame whose CRC is correct is kept. (02_control_engine.md R53, 02_control_engine.md R54, 02_control_engine.md R55, 02_control_engine.md R56, 03_solenoid_drive.md R84) -/
def Obligations.ReclaimReleasesTheStages : Prop :=
  ∀ (s : State) (d bad seq : Nat) (crc : Bool) (m : List (Nat × Nat)), d < 5 →
    (s.gateOn 4 = true → s.flag R.ceStatHeld = true →
      exec .reclaim s = .next (({ s with ce := { s.ce with reclaim := true } } : State).set R.ceStatRecl 1)) ∧
    (s.gateOn 4 = true → s.ce.reclaim = true → (∀ k, k < 5 → (s.dieAt k).lgnd = false) →
      ∃ t, exec (.reclaimFrame 0) s = .next t ∧ t.get R.ceStatRecl = 2 ∧ t.flag R.ceStatHeld = false ∧
        t.flag ⟨R.ceIrqStat, 2, 1⟩ = true ∧ t.ce.reclaim = false ∧ SameMemory s t) ∧
    (s.gateOn 4 = true → s.ce.reclaim = true → (s.dieAt d).hold = true → bad / 2 ^ d % 2 = 1 →
      ∃ t, exec (.reclaimFrame bad) s = .next t ∧ t.get R.ceStatRecl = 3 ∧ t.get R.ceStatReclDie / 2 ^ d % 2 = 1 ∧
        t.flag ⟨R.ceIrqStat, 3, 1⟩ = true ∧ (t.dieAt d).hold = true) ∧
    (s.flag ⟨R.ceStat, 11 + d, 1⟩ = false → 3 ≤ (s.dieAt d).missed →
      exec (.stageLinkLoss d) s =
        .next ((((s.set ⟨R.ceStat, 11 + d, 1⟩ 1).set (linkBit d) 0).fire 3).log 0x0608 (leBytes 1 (2 ^ d) ++ leBytes 1 1))) ∧
    (s.flag ⟨R.ceStat, 11 + d, 1⟩ = true → 3 ≤ (s.dieAt d).valid →
      exec (.stageLinkReturn d) s =
        .next (((s.set ⟨R.ceStat, 11 + d, 1⟩ 0).fire 3).log 0x0608 (leBytes 1 (2 ^ d) ++ leBytes 1 0))) ∧
    (s.gateOn 4 = true → statusValid s d seq crc = true →
      ∃ t, exec (.statusFrameReceive d seq crc m) s = .next t ∧ (t.dieAt d).reports = [] ∧ (t.dieAt d).arrived = true ∧
        (t.dieAt d).status = some seq ∧ SameMemory s t) ∧
    (s.gateOn 4 = true → statusValid s d seq crc = false →
      exec (.statusFrameReceive d seq crc m) s =
        .next (s.setDie d (if crc then { s.dieAt d with status := some seq } else s.dieAt d))) ∧
    (s.gateOn 4 = true → s.ce.reclaim = true →
      ∃ t, exec (.reclaimFrame bad) s = .next t ∧ t.ce.reclaim = false ∧ (t.get R.ceStatRecl = 2 ∨ t.get R.ceStatRecl = 3)) ∧
    (s.gateOn 4 = true → s.flag R.ceStatHeld = false → exec .reclaim s = .next s)

/-- A channel (not the odd half of a pair) of an armed bank whose die is not in hold in mode SWITCHED requests a pull-in on a rising ON; the free arbiter grants the request at the head of its queue, with the peak and dwell then set; a current of that peak within TPK_MAX leads to the dwell and its end, or at once where the dwell is 0, to hold and releases the grant; an off command opens the switch and the decay ends in OFF. In any state an on or off command is a write of ON, the other fields as they stand; one to a die in hold waits for reclaim. Memory stays. (03_solenoid_drive.md R60, 03_solenoid_drive.md R63, 03_solenoid_drive.md R67, 03_solenoid_drive.md R74, 03_solenoid_drive.md R75) -/
def Obligations.SolenoidSequenceRuns : Prop :=
  ∀ (s : State) (n tpk uA : Nat) (l : List Nat) (dip : Option (Nat × Nat)), n < 48 → oddHalf s n = false →
    (s.sdHeld n = false → s.sdOn n = false → s.sdArmed (n / 4) = true → s.sdMode n = 1 → s.sdPhase n = 0 → n ∉ (s.sdB (n / 4)).queue →
      ∃ t, exec (.sdOnCommand n) s = .next t ∧ t.sdOn n = true ∧ t.sdPhase n = 1 ∧ n ∈ (t.sdB (n / 4)).queue ∧
        SameMemory s t) ∧
    ((s.sdB (n / 4)).queue = n :: l → s.flag (R.sdBstatGranted (n / 4)) = false → s.flag (R.sdBstatDefer (n / 4)) = false →
      ∃ t, exec (.pullinGrant (n / 4)) s = .next t ∧ t.sdPhase n = 2 ∧ (t.sdB (n / 4)).queue = l ∧
        t.flag (R.sdBstatGranted (n / 4)) = true ∧ t.get (R.sdBstatGrant (n / 4)) = n % 4 ∧
        (t.sdC n).grantAt = s.now ∧ (t.sdC n).peak = s.get (R.sdCcurPeak n) ∧
        (t.sdC n).dwell = s.get (R.sdCtimeDwell n) ∧ SameMemory s t) ∧
    (s.sdPhase n = 2 → tpk ≤ s.get (R.sdCtpkTpkMax n) → 31250 * (s.sdC n).peak ≤ uA → (s.sdC n).dwell ≠ 0 →
      ∃ t, exec (.peakReached n tpk uA dip) s = .next t ∧ t.sdPhase n = 3 ∧ t.get (R.sdCpullTpk n) = tpk ∧
        (t.sdC n).dwellEnd = max s.now ((s.sdC n).grantAt + us tpk) + us (100 * (s.sdC n).dwell) ∧
        SameMemory s t) ∧
    (s.sdPhase n = 2 → tpk ≤ s.get (R.sdCtpkTpkMax n) → 31250 * (s.sdC n).peak ≤ uA → (s.sdC n).dwell = 0 →
      ∃ t, exec (.peakReached n tpk uA dip) s = .next t ∧ t.sdPhase n = 4 ∧
        (s.get (R.sdBstatGrant (n / 4)) = n % 4 → t.flag (R.sdBstatGranted (n / 4)) = false) ∧ SameMemory s t) ∧
    (s.sdPhase n = 3 →
      ∃ t, exec (.peakDwellEnd n) s = .next t ∧ t.sdPhase n = 4 ∧ t.now = max s.now (s.sdC n).dwellEnd ∧
        (s.get (R.sdBstatGrant (n / 4)) = n % 4 → t.flag (R.sdBstatGranted (n / 4)) = false) ∧ SameMemory s t) ∧
    (s.sdHeld n = false → s.sdOn n = true → s.sdPhase n = 4 →
      ∃ t, exec (.sdOffCommand n) s = .next t ∧ t.sdOn n = false ∧ t.sdPhase n = 6 ∧
        t.flag (R.sdCstatPwmOn n) = false ∧ SameMemory s t) ∧
    (s.sdPhase n = 6 → exec (.decayEnd n) s = .next (sdMirror (s.setSdPhase n 0) n)) ∧
    (s.sdHeld n = false → exec (.sdOnCommand n) s = .next (sdCctrlWrite s n (sdOnWord s n 1)).1 ∧
      exec (.sdOffCommand n) s = .next (sdCctrlWrite s n (sdOnWord s n 0)).1) ∧
    (s.sdHeld n = true → exec (.sdOnCommand n) s = .next (s.post ⟨R.sdCctrl n, 1, some 0, 1⟩) ∧
      exec (.sdOffCommand n) s = .next (s.post ⟨R.sdCctrl n, 0, some 0, 1⟩))

/-- A request that waits too long is reported late and stays queued; a pull-in without peak by TPK_MAX is reported slow and hold follows; a current above 1.25 times the greater of peak and hold reference plus 0.5 A, and one below half a hold reference of at least 7 steps, turn the channel off in phase FAULT; each report, with its diagnostic bit, its source and its event, waits for the die's next status frame. FCLR with ON = 0 clears OVC and OPEN and leaves FAULT. (03_solenoid_drive.md R76, 03_solenoid_drive.md R81, 03_solenoid_drive.md R83, 03_solenoid_drive.md R84) -/
def Obligations.SolenoidChannelsReport : Prop :=
  ∀ (s : State) (n mA : Nat) (dip : Option (Nat × Nat)), n < 48 → oddHalf s n = false →
    (s.sdPhase n = 1 → (s.sdC n).late = false →
      ∃ t, exec (.pullinWaitLate n) s = .next t ∧ t.sdPhase n = 1 ∧ (t.sdC n).late = true ∧
        (t.sdB (n / 4)).queue = (s.sdB (n / 4)).queue ∧
        (t.dieAt (n / 16)).reports = (s.dieAt (n / 16)).reports ++ [.bits (R.sdCdiag n) 3 1 1, .irq (16 + n / 4),
          .event 0x0704 (d8 n ++ d16 (10 * s.get (R.sdCtimeMaxwait n))), .tally (R.sdClates n)]) ∧
    (s.sdPhase n = 2 →
      ∃ t, exec (.tpkMaxExpiry n dip) s = .next t ∧ t.sdPhase n = 4 ∧
        (t.dieAt (n / 16)).reports = (s.dieAt (n / 16)).reports ++ [.bits (R.sdCdiag n) 1 1 1, .irq (16 + n / 4),
          .event 0x0702 (d8 n ++ d16 (s.get (R.sdCtpkTpkMax n))), .tally (R.sdCtpkerr n)]) ∧
    (s.sdPhase n = 2 ∨ s.sdPhase n = 3 ∨ s.sdPhase n = 4 → sdOver s n mA = true →
      ∃ t, exec (.sdOverCurrent n mA) s = .next t ∧ t.sdPhase n = 5 ∧ t.flag (R.sdCstatPwmOn n) = false ∧
        (t.dieAt (n / 16)).reports = (s.dieAt (n / 16)).reports ++ [.bits (R.sdCdiag n) 5 1 1, .irq (16 + n / 4),
          .event 0x0706 (d8 n ++ d16 mA)] ∧ SameMemory s t) ∧
    (s.sdPhase n = 2 ∨ s.sdPhase n = 3 ∨ s.sdPhase n = 4 → 7 ≤ sdReference s n → 2000 * mA < 15625 * sdReference s n →
      ∃ t, exec (.sdOpenLoad n mA) s = .next t ∧ t.sdPhase n = 5 ∧ t.flag (R.sdCstatPwmOn n) = false ∧
        (t.dieAt (n / 16)).reports = (s.dieAt (n / 16)).reports ++ [.bits (R.sdCdiag n) 4 1 1, .irq (16 + n / 4),
          .event 0x0705 (d8 n ++ d16 mA)] ∧ SameMemory s t) ∧
    (s.sdHeld n = false → s.sdOn n = false →
      ∃ t, exec (.sdFclr n) s = .next t ∧ t.flag (R.sdCdiagOpen n) = false ∧ t.flag (R.sdCdiagOvc n) = false ∧
        t.sdPhase n = (if s.sdPhase n = 5 then 0 else s.sdPhase n) ∧ SameMemory s t) ∧
    (s.sdHeld n = false → s.sdOn n = false → exec (.sdFclr n) s = .next (sdMirror (sdFclr s n) n))

/-- While its bank is armed and its die not in hold a write of SD_CCTRL that changes MODE, PAIR (of an even channel) or CHOP changes nothing but ERR, which reads 1; while it is disarmed a channel takes its MODE. At a PWM cycle start the new duty is taken and, in an armed bank with ON = 1 and a duty of at least one frame, an on-interval begins with a pull-in request or runs on, and with a smaller duty the channel turns off; otherwise only the duty is taken; the end of the on-interval turns the channel off and withdraws a queued request. A write of SD_CCTRL to a die in hold waits for reclaim. (03_solenoid_drive.md R60, 03_solenoid_drive.md R72, 03_solenoid_drive.md R77) -/
def Obligations.SolenoidModesAndNozzles : Prop :=
  ∀ (s : State) (n : Nat) (v : Word), n < 48 →
    (s.sdHeld n = false → s.sdArmed (n / 4) = true → n % 2 = 0 →
      (bits v 1 2 ≠ s.sdMode n ∨ bits v 3 1 ≠ s.get (R.sdCctrlPair n) ∨ bits v 5 1 ≠ s.get (R.sdCctrlChop n)) →
      exec (.sdModeWrite n v) s = .next (sdErr s n 1)) ∧
    (s.sdHeld n = false → s.sdArmed (n / 4) = false → bits v 3 1 = 0 →
      ∃ t, exec (.sdModeWrite n v) s = .next t ∧ t.sdMode n = bits v 1 2 ∧ t.sdOn n = bit v 0 ∧ SameMemory s t) ∧
    (s.sdMode n = 3 → oddHalf s n = false → s.dieFrame (n / 16) % s.get (R.sdCpwmPeriod n) = sdEffPhase s n →
      s.sdOn n = true → s.sdArmed (n / 4) = true → s.sdPhase n = 0 → n ∉ (s.sdB (n / 4)).queue →
      s.flag (R.sdCstatPwmOn n) = false → s.get (R.sdCdutyDuty n) * s.get (R.sdCpwmPeriod n) / 1000 ≠ 0 →
      ∃ t, exec (.sdPwmCycleStart n) s = .next t ∧ (t.sdC n).duty = s.get (R.sdCdutyDuty n) ∧
        (t.sdC n).onEnd = s.dieFrame (n / 16) + s.get (R.sdCdutyDuty n) * s.get (R.sdCpwmPeriod n) / 1000 ∧
        t.flag (R.sdCstatPwmOn n) = true ∧ t.sdPhase n = 1 ∧ n ∈ (t.sdB (n / 4)).queue ∧ SameMemory s t) ∧
    (s.flag (R.sdCstatPwmOn n) = true → oddHalf s n = false → (s.sdC n).duty ≠ 1000 → (s.sdC n).onEnd ≤ s.dieFrame (n / 16) →
      ∃ t, exec (.sdPwmOnEnd n) s = .next t ∧ t.flag (R.sdCstatPwmOn n) = false ∧
        (s.sdPhase n = 4 → t.sdPhase n = 6) ∧
        (s.sdPhase n = 1 → t.sdPhase n = 0 ∧ n ∉ (t.sdB (n / 4)).queue ∧
          (t.dieAt (n / 16)).reports = (s.dieAt (n / 16)).reports ++
            [.bits (R.sdCdiag n) 6 1 1, .tally (R.sdCwdrns n), .irq (16 + n / 4)]) ∧ SameMemory s t) ∧
    (s.sdHeld n = false → exec (.sdModeWrite n v) s = .next (sdCctrlWrite s n v).1) ∧
    (s.sdHeld n = true → exec (.sdModeWrite n v) s = .next (s.post ⟨R.sdCctrl n, v, none, 1⟩)) ∧
    (s.sdMode n = 3 → oddHalf s n = false → s.dieFrame (n / 16) % s.get (R.sdCpwmPeriod n) = sdEffPhase s n →
      (s.sdOn n = false ∨ s.sdArmed (n / 4) = false ∨ s.sdPhase n = 5) →
      exec (.sdPwmCycleStart n) s = .next (s.setSdC n { s.sdC n with duty := s.get (R.sdCdutyDuty n) })) ∧
    (s.sdMode n = 3 → oddHalf s n = false → s.dieFrame (n / 16) % s.get (R.sdCpwmPeriod n) = sdEffPhase s n →
      s.sdOn n = true → s.sdArmed (n / 4) = true → s.sdPhase n ≠ 5 →
      s.get (R.sdCdutyDuty n) * s.get (R.sdCpwmPeriod n) / 1000 = 0 →
      exec (.sdPwmCycleStart n) s =
        .next (sdMirror (sdTurnOff (s.setSdC n { s.sdC n with duty := s.get (R.sdCdutyDuty n) }) n) n)) ∧
    (s.sdMode n = 3 → oddHalf s n = false → s.dieFrame (n / 16) % s.get (R.sdCpwmPeriod n) = sdEffPhase s n →
      s.sdOn n = true → s.sdArmed (n / 4) = true → s.sdPhase n ≠ 5 →
      s.get (R.sdCdutyDuty n) * s.get (R.sdCpwmPeriod n) / 1000 ≠ 0 → s.flag (R.sdCstatPwmOn n) = true →
      exec (.sdPwmCycleStart n) s =
        .next (s.setSdC n { s.sdC n with duty := s.get (R.sdCdutyDuty n),
                                         onEnd := s.dieFrame (n / 16) + s.get (R.sdCdutyDuty n) * s.get (R.sdCpwmPeriod n) / 1000 })) ∧
    (s.flag (R.sdCstatPwmOn n) = true → (s.sdC n).duty ≠ 1000 → (s.sdC n).onEnd ≤ s.dieFrame (n / 16) →
      exec (.sdPwmOnEnd n) s = .next (sdMirror (sdTurnOff s n) n))

/-- A disarmed bank arms where none of the conditions of R80 fails and closes its switch (with no clamp event running, whose end may lock it again); otherwise it stays disarmed with the code of the first that fails in ERR and event 0x070F; a stop that is not re-armed is the first of them. Disarming opens the bank switch, empties the grant and leaves no channel of the bank queued or conducting; during a load dump it waits for its end. An unlock is taken below 1,250 mJ, a clear of BSW_OT from 150 °C down; otherwise the die reports ERR 4 and 5 with its next status frame. (03_solenoid_drive.md R67, 03_solenoid_drive.md R69, 03_solenoid_drive.md R79, 03_solenoid_drive.md R80) -/
def Obligations.BanksArmAndDisarm : Prop :=
  ∀ (s : State) (b tj : Nat), b < 12 → s.sdHeld (4 * b) = false →
    (s.sdArmed b = false → sdArmIgnored s b = false → sdArmErr s b = 0 → (s.sdB b).clamp = false →
      ∃ t, exec (.bankArm b) s = .next t ∧ t.sdArmed b = true ∧ t.flag (R.sdBstatBswOn b) = true ∧ SameMemory s t) ∧
    (s.sdArmed b = false → sdArmIgnored s b = false → sdArmErr s b ≠ 0 →
      exec (.bankArm b) s =
        .next ((s.set (R.sdBstatErr b) (sdArmErr s b)).log 0x070F (d8 b ++ d8 (sdArmErr s b)))) ∧
    (s.get R.siStopState ≠ 0 → sdArmErr s b = 1) ∧
    (s.get R.siStopState = 0 → (s.dieAt (b / 4)).stopped = false → s.flag (R.sdBstatLock b) = true → sdArmErr s b = 4) ∧
    (s.sdArmed b = true → s.flag (R.sdBstatDefer b) = false →
      ∃ t, exec (.bankDisarm b) s = .next t ∧ t.sdArmed b = false ∧ t.flag (R.sdBstatBswOn b) = false ∧
        t.flag (R.sdBstatGranted b) = false ∧
        (∀ n ∈ bankChans b, t.sdPhase n = 0 ∨ t.sdPhase n = 5 ∨ t.sdPhase n = 6 ∨ t.sdPhase n = 7) ∧ SameMemory s t) ∧
    (leaked (s.sdB b).bucket (s.sdB b).leakAt s.now 600 < 1250000000000 →
      ∃ t, exec (.bankUnlock b) s = .next t ∧ t.flag (R.sdBstatLock b) = false ∧ t.sdArmed b = s.sdArmed b) ∧
    (1250000000000 ≤ leaked (s.sdB b).bucket (s.sdB b).leakAt s.now 600 →
      ∃ t, exec (.bankUnlock b) s = .next t ∧ t.flag (R.sdBstatLock b) = s.flag (R.sdBstatLock b) ∧
        (t.dieAt (b / 4)).reports = (s.dieAt (b / 4)).reports ++ [.bits (R.sdBstat b) 16 4 4]) ∧
    (tj ≤ 150 → ∃ t, exec (.bankSwitchClear b tj) s = .next t ∧ t.flag (R.sdBstatBswOt b) = false) ∧
    (150 < tj → ∃ t, exec (.bankSwitchClear b tj) s = .next t ∧ t.flag (R.sdBstatBswOt b) = s.flag (R.sdBstatBswOt b) ∧
      (t.dieAt (b / 4)).reports = (s.dieAt (b / 4)).reports ++ [.bits (R.sdBstat b) 16 4 5]) ∧
    exec (.bankArm b) s = .next (bankArm s b).1 ∧ exec (.bankDisarm b) s = .next (sdDisarm s b) ∧
    exec (.bankUnlock b) s = .next (bankUnlock s b).1 ∧
    exec (.bankSwitchClear b tj) s = .next (bankSwitchClear (s.setSdB b { s.sdB b with tj := tj }) b).1 ∧
    (s.sdArmed b = true → s.flag (R.sdBstatDefer b) = true → ∃ t, exec (.bankDisarm b) s = .next t ∧
      t.sdArmed b = true ∧ b ∈ t.stage.sdDefer)

/-- The bucket leaks 600 mW. The end of a clamp event adds its energy after the leak up to that instant; an energy above 500 mJ or a bucket of 2,500 mJ locks the bank, a smaller one does not. Limiting is reported, and a junction of 175 °C latches BSW_OT and turns the bank off. (03_solenoid_drive.md R68, 03_solenoid_drive.md R69, 03_solenoid_drive.md R79) -/
def Obligations.BankClampAndSwitchProtect : Prop :=
  ∀ (s : State) (b uJ tj : Nat), b < 12 →
    (let v := leaked (s.sdB b).bucket (s.sdB b).leakAt s.now 600 + uJ * 1000000
     (s.sdB b).clamp = true → uJ ≤ 500000 → v < 2500000000000 →
      ∃ t, exec (.sdClampEventEnd b uJ) s = .next t ∧ (t.sdB b).bucket = v ∧ (t.sdB b).clamp = false ∧
        t.get (R.sdBenergyLast b) = uJ / 1000 ∧ t.flag (R.sdBstatLock b) = s.flag (R.sdBstatLock b) ∧ SameMemory s t) ∧
    (let v := leaked (s.sdB b).bucket (s.sdB b).leakAt s.now 600 + uJ * 1000000
     (s.sdB b).clamp = true → (500000 < uJ ∨ 2500000000000 ≤ v) →
      ∃ t, exec (.sdClampEventEnd b uJ) s = .next t ∧ (t.sdB b).bucket = v ∧ t.flag (R.sdBstatLock b) = true ∧
        (s.flag (R.sdBstatDefer b) = false → t.sdArmed b = false) ∧ SameMemory s t) ∧
    (∃ t, exec (.sdBucketLeak b) s = .next t ∧ (t.sdB b).leakAt = max s.now ((s.sdB b).leakAt + ms 1) ∧
      (t.sdB b).bucket = leaked (s.sdB b).bucket (s.sdB b).leakAt t.now 600) ∧
    (s.flag (R.sdBstatBswOn b) = true →
      ∃ t, exec (.bankSwitchLimit b tj) s = .next t ∧ t.flag (R.sdBstatBswOn b) = true ∧
        (t.dieAt (b / 4)).reports = (s.dieAt (b / 4)).reports ++
          [.bits (R.sdBdiag b) 2 1 1, .irq (16 + b), .event 0x0707 (d8 b ++ d8 tj)]) ∧
    (175 ≤ tj →
      ∃ t, exec (.bankSwitchTrip b tj) s = .next t ∧ t.flag (R.sdBstatBswOt b) = true ∧ t.sdArmed b = false ∧
        t.flag (R.sdBstatBswOn b) = false ∧ SameMemory s t) ∧
    ((s.sdB b).clamp = true → exec (.sdClampEventEnd b uJ) s = .next (sdClampEnd s b uJ)) ∧
    exec (.sdBucketLeak b) s = .next (sdLeak (s.passTo ((s.sdB b).leakAt + ms 1)) b)

/-- A solenoid die without valid frames enters hold and starts each bank's hold timer, whose expiry applies the fail states (one of 0 at once); a bank that failed OFF with its currents decayed disarms with no clamp event; an input above 40 V defers the bank turn-offs of its banks until it is below 38 V, when those that waited happen; a low logic supply clears the die, starts each bucket at 1,250 mJ, ends a hold and is reported. (03_solenoid_drive.md R84, 03_solenoid_drive.md R86, 03_solenoid_drive.md R88, 03_solenoid_drive.md R89, 03_solenoid_drive.md R90) -/
def Obligations.StagesHoldAndFail : Prop :=
  ∀ (s : State) (d b k dv th : Nat),
    (d < 3 → (s.dieAt d).hold = false →
      ∃ t, exec (.stageHoldEntry d) s = .next t ∧ (t.dieAt d).hold = true ∧
        (b / 4 = d → s.get (R.sdBholdHoldMs b) ≠ 0 → (∀ x, x / 4 = d → s.get (R.sdBholdHoldMs x) ≠ 0) →
          (t.sdB b).holdEnd = some (s.now + ms (s.get (R.sdBholdHoldMs b))) ∧ t.flag (R.sdBstatHolding b) = true)) ∧
    (b < 12 → (s.sdB b).holdEnd = some th →
      exec (.bankHoldExpiry b) s = .next (bankHoldExpiry (s.passTo th) b) ∧
      (bankHoldExpiry (s.passTo th) b).flag (R.sdBstatHolding b) = false ∧
      ((bankHoldExpiry (s.passTo th) b).sdB b).holdEnd = none) ∧
    (b < 12 → (s.sdB b).failed = true → s.sdArmed b = true →
      (∀ n ∈ bankChans b, (oddHalf s n = true ∨ s.get (R.sdCctrlFail n) = 0 ∨ (s.dieAt (b / 4)).lgndHold = true) ∧
        (s.sdPhase n = 0 ∨ s.sdPhase n = 5)) →
      exec (.bankFailOffDisarm b) s = .next ((s.set (R.sdBctrlArm b) 0).set (R.sdBstatBswOn b) 0)) ∧
    (k < 2 → 400 < dv → s.flag (R.sdBstatDefer (6 * k)) = false →
      ∃ t, exec (.loadDumpEntry k dv) s = .next t ∧ (∀ x ∈ supplyBanks k, t.flag (R.sdBstatDefer x) = true) ∧
        SameMemory s t) ∧
    (k < 2 → dv < 380 → s.flag (R.sdBstatDefer (6 * k)) = true →
      ∃ t, exec (.loadDumpEnd k dv) s = .next t ∧
        (∀ x ∈ supplyBanks k, t.flag (R.sdBstatDefer x) = false ∧ x ∉ t.stage.sdDefer ∧
          (x ∈ s.stage.sdDefer → t.sdArmed x = false)) ∧
        SameMemory s t) ∧
    (d < 3 →
      ∃ t, exec (.sdDieReset d) s = .next t ∧ (t.dieAt d).hold = false ∧
        (t.dieAt d).reports = (s.dieAt d).reports ++
          (if (s.dieAt d).hold then [.bits R.sdStat (3 + d) 1 0] else []) ++ dieResetReports d ∧
        (b / 4 = d → t.sdArmed b = false ∧ (t.sdB b).bucket = 1250000000000) ∧
        (∀ n, n / 16 = d → t.sdPhase n = 0 ∧ t.sdOn n = false) ∧ SameMemory s t) ∧
    (d < 5 → exec (.stageHoldEntry d) s = .next (holdEntry s d))

/-- With the die not in hold: in an armed group outside a load dump a rising ON of a DC channel that is off, with no clamp event running, closes the switch, opens the inrush window of its length and counts the switch-on at the next status frame; the window's end clears INR; a turn-off opens the switch, begins a clamp event and resets the restart count. A mode write in an armed group that changes MODE or INDUCT changes nothing but ERR, which reads 1, and is taken while disarmed. FCLR with ON = 0 clears LATCH. In any state an on or off command is a write of ON with the other fields as they stand; one to a die in hold waits for reclaim. (04_load_switches.md R93, 04_load_switches.md R94, 04_load_switches.md R95, 04_load_switches.md R97, 04_load_switches.md R100) -/
def Obligations.SwitchesTurnOnAndOff : Prop :=
  ∀ (s : State) (n : Nat) (v : Word), n < 32 →
    (s.lsHeld n = false → s.lsOn n = false → s.lsArmed (n / 4) = true → s.lsMode n = 1 → s.lsPhase n = 0 →
      s.flag (R.lsGstatDefer (n / 4)) = false → (s.lsC n).clamp = false →
      ∃ t, exec (.lsSwitchOn n) s = .next t ∧ t.lsOn n = true ∧ t.lsPhase n = 1 ∧ (t.lsC n).out = true ∧
        t.flag (R.lsCstatInr n) = (s.get (R.lsCinrInrush n) != 0) ∧
        (t.lsC n).inrEnd = s.now + ms (s.get (R.lsCinrInrush n)) ∧ SameMemory s t) ∧
    (s.flag (R.lsCstatInr n) = true →
      exec (.inrushWindowEnd n) s = .next ((s.passTo (s.lsC n).inrEnd).set (R.lsCstatInr n) 0)) ∧
    (s.lsHeld n = false → s.lsOn n = true → s.lsArmed (n / 4) = true → s.lsPhase n = 1 → (s.lsC n).out = true →
      s.flag (R.lsGstatDefer (n / 4)) = false →
      ∃ t, exec (.lsSwitchOff n) s = .next t ∧ t.lsOn n = false ∧ t.lsPhase n = 0 ∧ (t.lsC n).out = false ∧
        (t.lsC n).clamp = true ∧ (t.lsC n).restarts = 0 ∧ SameMemory s t) ∧
    (s.lsHeld n = false → s.lsArmed (n / 4) = true → (bits v 1 2 ≠ s.lsMode n ∨ bits v 3 1 ≠ s.get (R.lsCctrlInduct n)) →
      exec (.lsModeWrite n v) s = .next (s.set (R.lsCstatErr n) 1)) ∧
    (s.lsHeld n = false → s.lsArmed (n / 4) = false →
      ∃ t, exec (.lsModeWrite n v) s = .next t ∧ t.lsMode n = bits v 1 2 ∧ t.lsOn n = bit v 0 ∧ SameMemory s t) ∧
    (s.lsHeld n = false → s.lsOn n = false →
      ∃ t, exec (.lsFclr n) s = .next t ∧ t.flag (R.lsCdiagLatch n) = false ∧
        t.lsPhase n = (if s.lsPhase n = 4 then 0 else s.lsPhase n) ∧ SameMemory s t) ∧
    (s.lsHeld n = false → exec (.lsSwitchOn n) s = .next (lsCctrlWrite s n (lsOnWord s n 1)).1) ∧
    (s.lsHeld n = false → exec (.lsSwitchOff n) s = .next (lsCctrlWrite s n (lsOnWord s n 0)).1) ∧
    (s.lsHeld n = false → exec (.lsModeWrite n v) s = .next (lsCctrlWrite s n v).1) ∧
    (s.lsHeld n = false → s.lsOn n = false → exec (.lsFclr n) s = .next (lsFclr s n)) ∧
    (s.lsHeld n = true → exec (.lsSwitchOn n) s = .next (s.post ⟨R.lsCctrl n, 1, some 0, 1⟩) ∧
      exec (.lsSwitchOff n) s = .next (s.post ⟨R.lsCctrl n, 0, some 0, 1⟩) ∧
      exec (.lsModeWrite n v) s = .next (s.post ⟨R.lsCctrl n, v, none, 1⟩))

/-- At its cycle start, outside a load dump, a PWM channel that is on takes the new duty and closes for that part of its period, or stays open at duty 0 (a clamp event that the closing ends may lock it); the end of the on-interval opens the switch. A soft-start channel takes the duty of its ramp, which begins at the start duty and ends at 4,000. (04_load_switches.md R95, 04_load_switches.md R96, 04_load_switches.md R101) -/
def Obligations.SwitchCyclesRun : Prop :=
  ∀ (s : State) (n : Nat), n < 32 → s.dieFrame (3 + n / 16) % s.get (R.lsCpwmPeriod n) = s.get (R.lsCpwmPhase n) →
    s.flag (R.lsGstatDefer (n / 4)) = false → (s.lsPhase n = 1 ∨ s.lsPhase n = 2) →
    (s.lsMode n = 2 → (s.lsC n).clamp = false →
      ∃ t, exec (.lsPwmCycleStart n) s = .next t ∧ (t.lsC n).duty = s.get (R.lsCdutyDuty n) ∧
        (t.lsC n).onEnd = s.now + s.get (R.lsCdutyDuty n) * s.get (R.lsCpwmPeriod n) * 5 / 2 ∧
        (s.get (R.lsCdutyDuty n) * s.get (R.lsCpwmPeriod n) * 5 / 2 ≠ 0 → (t.lsC n).out = true) ∧
        (s.get (R.lsCdutyDuty n) = 0 → (t.lsC n).out = false) ∧ SameMemory s t) ∧
    (s.lsMode n = 3 → (s.lsC n).soft = 1 → s.get (R.lsCsoftSsStart n) ≤ 4000 →
      ∃ t, exec (.lsPwmCycleStart n) s = .next t ∧ (t.lsC n).duty = s.get (R.lsCsoftSsStart n) ∧
        (t.lsC n).softT0 = s.dieFrame (3 + n / 16) ∧ SameMemory s t) ∧
    (s.lsMode n = 2 → (s.lsC n).out = true → (s.lsC n).duty < 4000 → (s.lsC n).soft ≠ 3 →
      ∃ t, exec (.lsPwmOnEnd n) s = .next t ∧ (t.lsC n).out = false ∧ (t.lsC n).clamp = true ∧
        t.now = max s.now (s.lsC n).onEnd ∧ SameMemory s t) ∧
    (∀ start time f0 f, start ≤ 4000 → 0 < time →
      softDuty start time f0 f0 = start ∧ (100 * time ≤ f - f0 → softDuty start time f0 f = 4000) ∧
      softDuty start time f0 f ≤ softDuty start time f0 (f + 1)) ∧
    (s.lsMode n = 2 → exec (.lsPwmCycleStart n) s = .next (lsCycle s n (s.get (R.lsCdutyDuty n)))) ∧
    (s.lsMode n = 3 → (s.lsC n).soft ≠ 3 →
      ∃ t, exec (.lsPwmCycleStart n) s = .next t ∧ (t.lsC n).duty =
        softDuty (s.get (R.lsCsoftSsStart n)) (s.get (R.lsCsoftSsTime n))
          (if (s.lsC n).soft = 1 then s.dieFrame (3 + n / 16) else (s.lsC n).softT0) (s.dieFrame (3 + n / 16))) ∧
    (s.lsMode n = 3 → (s.lsC n).soft = 3 → exec (.lsPwmCycleStart n) s = .next s) ∧
    ((s.lsMode n = 2 ∨ s.lsMode n = 3) → (s.lsC n).out = true → (s.lsC n).duty < 4000 → (s.lsC n).soft ≠ 3 →
      exec (.lsPwmOnEnd n) s = .next (lsOpen (s.passTo (s.lsC n).onEnd) n))

/-- Limiting, a shutdown, an open load on and off and a short to battery are reported with their bit, source and event at the next status frame of the die. A shutdown opens the switch and cools; with the allowed restarts used up it latches. A cooled commanded channel restarts and is counted, one that is not commanded goes off; 1 s without a shutdown resets the count. (04_load_switches.md R98, 04_load_switches.md R99, 04_load_switches.md R100, 04_load_switches.md R104, 04_load_switches.md R84) -/
def Obligations.SwitchesProtectThemselves : Prop :=
  ∀ (s : State) (n tj amp t0 : Nat) (tref : Int) (on : Bool), n < 32 →
    ((s.lsC n).out = true →
      ∃ t, exec (.lsLimit n amp on) s = .next t ∧ t.lsPhase n = (if on then 2 else 1) ∧
        (t.dieAt (3 + n / 16)).reports = (s.dieAt (3 + n / 16)).reports ++
          [.bits (R.lsCdiag n) 0 1 1, .irq (32 + n / 4), .event 0x0801 (d8 n ++ d8 amp), .tally (R.lsClimits n)]) ∧
    ((s.lsPhase n = 1 ∨ s.lsPhase n = 2) → 175 ≤ tj → (tj : Int) - tref < 60 → (s.lsC n).restarts < s.get (R.lsCinrRetry n) →
      ∃ t, exec (.lsThermalShutdown n tj tref) s = .next t ∧ t.lsPhase n = 3 ∧ (t.lsC n).out = false ∧
        (t.dieAt (3 + n / 16)).reports = (s.dieAt (3 + n / 16)).reports ++
          [.bits (R.lsCdiag n) 1 1 1, .irq (32 + n / 4), .event 0x0802 (d8 n ++ d8 tj), .tally (R.lsCshutdowns n)]) ∧
    ((s.lsPhase n = 1 ∨ s.lsPhase n = 2) → 60 ≤ (tj : Int) - tref → s.get (R.lsCinrRetry n) ≤ (s.lsC n).restarts →
      ∃ t, exec (.lsThermalShutdown n tj tref) s = .next t ∧ t.lsPhase n = 4 ∧ (t.lsC n).out = false ∧ SameMemory s t) ∧
    (s.lsPhase n = 3 → tj ≤ 150 → (tj : Int) - tref ≤ 35 → s.flag (R.lsGstatDefer (n / 4)) = false → s.lsOn n = true →
      s.lsArmed (n / 4) = true → s.lsMode n = 1 → (s.lsC n).clamp = false →
      ∃ t, exec (.lsAutoRestart n tj tref) s = .next t ∧ t.lsPhase n = 1 ∧ (t.lsC n).out = true ∧
        (t.lsC n).restarts = (s.lsC n).restarts + 1 ∧ t.flag (R.lsCstatInr n) = false ∧ SameMemory s t) ∧
    ((s.lsC n).lastOn = some t0 →
      ∃ t, exec (.lsRestartCountReset n) s = .next t ∧ (t.lsC n).restarts = 0 ∧ t.now = max s.now (t0 + sec 1)) ∧
    ((s.lsPhase n = 1 ∨ s.lsPhase n = 2) →
      exec (.openLoadOn n) s = .next (s.tell (3 + n / 16) [.bits (R.lsCdiag n) 5 1 1, .irq (32 + n / 4), .event 0x0808 (d8 n)])) ∧
    ((s.lsC n).out = false → s.flag (R.lsCctrlOldEn n) = true →
      exec (.openLoadOff n) s = .next (s.tell (3 + n / 16) [.bits (R.lsCdiag n) 6 1 1, .irq (32 + n / 4), .event 0x0809 (d8 n)])) ∧
    ((s.lsC n).out = false →
      exec (.shortToBattery n) s = .next (s.tell (3 + n / 16) [.bits (R.lsCdiag n) 7 1 1, .irq (32 + n / 4), .event 0x080A (d8 n)])) ∧
    ((s.lsPhase n = 1 ∨ s.lsPhase n = 2 ∨ (s.lsPhase n = 6 ∧ (s.lsC n).out = true)) →
      (175 ≤ tj ∨ 60 ≤ (tj : Int) - tref) →
      ∃ t, exec (.lsThermalShutdown n tj tref) s = .next t ∧ (t.lsC n).out = false ∧
        t.lsPhase n = (if s.get (R.lsCinrRetry n) ≤ (s.lsC n).restarts then 4 else 3) ∧ SameMemory s t) ∧
    (s.lsPhase n = 3 → tj ≤ 150 → (tj : Int) - tref ≤ 35 → s.flag (R.lsGstatDefer (n / 4)) = false → s.lsOn n = true →
      s.lsArmed (n / 4) = true → s.lsMode n ≠ 0 →
      exec (.lsAutoRestart n tj tref) s = .next (lsDrive ((s.setLsC n { s.lsC n with
        restarts := (s.lsC n).restarts + 1, lastOn := some s.now }).set (R.lsCstatInr n) 0) n)) ∧
    (s.lsPhase n = 3 → tj ≤ 150 → (tj : Int) - tref ≤ 35 → s.flag (R.lsGstatDefer (n / 4)) = false →
      (s.lsOn n = false ∨ s.lsArmed (n / 4) = false ∨ s.lsMode n = 0) →
      exec (.lsAutoRestart n tj tref) s = .next (s.setLsPhase n 0))

/-- The bucket leaks 500 mW (heavy channels 0 to 7) or 150 mW; a clamp event adds its energy after the leak; above the single-event maximum or at the budget of its class the channel is locked, else not. An unlock is taken below half the budget, and leaves a channel that is latched as well LATCHED; otherwise LOCK stays and the die reports ERR 5. (04_load_switches.md R101, 04_load_switches.md R102) -/
def Obligations.SwitchClampsAreBudgeted : Prop :=
  ∀ (s : State) (n uJ : Nat), n < 32 →
    (∃ t, exec (.lsBucketLeak n) s = .next t ∧ (t.lsC n).leakAt = max s.now ((s.lsC n).leakAt + ms 1) ∧
      (t.lsC n).bucket = leaked (s.lsC n).bucket (s.lsC n).leakAt t.now (if n < 8 then 500 else 150)) ∧
    (let v := leaked (s.lsC n).bucket (s.lsC n).leakAt s.now (if n < 8 then 500 else 150) + uJ * 1000000
     (s.lsC n).clamp = true → uJ ≤ (if n < 8 then 400000 else 120000) → v < (if n < 8 then 2000000000000 else 600000000000) →
      ∃ t, exec (.lsClampEventEnd n uJ) s = .next t ∧ (t.lsC n).bucket = v ∧ (t.lsC n).clamp = false ∧
        t.lsPhase n = s.lsPhase n ∧ t.get (R.lsCenergyLast n) = uJ / 100 ∧ SameMemory s t) ∧
    (let v := leaked (s.lsC n).bucket (s.lsC n).leakAt s.now (if n < 8 then 500 else 150) + uJ * 1000000
     (s.lsC n).clamp = true →
      ((if n < 8 then 400000 else 120000) < uJ ∨ (if n < 8 then 2000000000000 else 600000000000) ≤ v) →
      ∃ t, exec (.lsClampEventEnd n uJ) s = .next t ∧ (t.lsC n).bucket = v ∧ t.lsPhase n = 5 ∧ (t.lsC n).out = false ∧
        SameMemory s t) ∧
    (s.lsHeld n = false →
      leaked (s.lsC n).bucket (s.lsC n).leakAt s.now (if n < 8 then 500 else 150) < (if n < 8 then 1000000000000 else 300000000000) →
      ∃ t, exec (.lsUnlock n) s = .next t ∧ t.flag (R.lsCdiagLock n) = false ∧
        t.lsPhase n = (if s.lsPhase n = 5 then (if (s.lsC n).latched = true then 4 else 0) else s.lsPhase n)) ∧
    (s.lsHeld n = false →
      (if n < 8 then 1000000000000 else 300000000000) ≤ leaked (s.lsC n).bucket (s.lsC n).leakAt s.now (if n < 8 then 500 else 150) →
      ∃ t, exec (.lsUnlock n) s = .next t ∧ t.lsPhase n = s.lsPhase n ∧
        t.flag (R.lsCdiagLock n) = s.flag (R.lsCdiagLock n) ∧
        (t.dieAt (3 + n / 16)).reports = (s.dieAt (3 + n / 16)).reports ++ [.bits (R.lsCstat n) 8 4 5]) ∧
    exec (.lsUnlock n) s = .next (lsUnlock s n).1 ∧
    exec (.lsBucketLeak n) s = .next (lsLeak (s.passTo ((s.lsC n).leakAt + ms 1)) n) ∧
    ((s.lsC n).clamp = true → exec (.lsClampEventEnd n uJ) s = .next (lsClampEnd s n uJ))

/-- A group arms where no condition of R105 fails; otherwise ERR reads its code and event 0x080E is logged. Disarming outside a load dump opens every switch of the group. At the end of the hold time HOLDING clears. An input above 40 V defers the groups of its supply until it is below 38 V. A reset of the die leaves its outputs off, its groups disarmed and each bucket at half its budget, and is reported. (04_load_switches.md R105, 04_load_switches.md R106, 04_load_switches.md R108, 04_load_switches.md R112) -/
def Obligations.GroupsArmHoldAndDefer : Prop :=
  ∀ (s : State) (g k dv d th n : Nat), g < 8 →
    (s.lsArmed g = false → lsArmIgnored s g = false → lsArmErr s g = 0 →
      ∃ t, exec (.groupArm g) s = .next t ∧ t.lsArmed g = true ∧ SameMemory s t) ∧
    (s.lsArmed g = false → lsArmIgnored s g = false → lsArmErr s g ≠ 0 →
      exec (.groupArm g) s = .next ((s.set (R.lsGstatErr g) (lsArmErr s g)).log 0x080E (d8 g ++ d8 (lsArmErr s g)))) ∧
    (s.get R.siStopState ≠ 0 → lsArmErr s g = 1) ∧
    (s.lsHeld (4 * g) = false → s.lsArmed g = true → s.flag (R.lsGstatDefer g) = false →
      ∃ t, exec (.groupDisarm g) s = .next t ∧ t.lsArmed g = false ∧ (∀ m ∈ bankChans g, (t.lsC m).out = false) ∧
        SameMemory s t) ∧
    ((s.lsG g).holdEnd = some th →
      ∃ t, exec (.groupHoldExpiry g) s = .next t ∧ t.flag (R.lsGstatHolding g) = false ∧ t.now = max s.now th ∧
        (t.lsG g).failed = true ∧
        ((∀ m ∈ bankChans g, s.get (R.lsCctrlFail m) = 0) → t.lsArmed g = false)) ∧
    ((k = 2 ∨ k = 3) → 400 < dv → s.flag (R.lsGstatDefer (4 * (k - 2))) = false →
      ∃ t, exec (.lsDeferralEntry k dv) s = .next t ∧ (∀ x ∈ dieGroups (k + 1), t.flag (R.lsGstatDefer x) = true) ∧
        SameMemory s t) ∧
    ((k = 2 ∨ k = 3) → dv < 380 → s.flag (R.lsGstatDefer (4 * (k - 2))) = true →
      ∃ t, exec (.lsDeferralEnd k dv) s = .next t ∧ (∀ x ∈ dieGroups (k + 1), t.flag (R.lsGstatDefer x) = false) ∧
        (∀ e ∈ t.stage.lsDefer, e.1 / 16 ≠ k - 2) ∧ SameMemory s t) ∧
    ((d = 3 ∨ d = 4) →
      ∃ t, exec (.lsDieReset d) s = .next t ∧ (t.dieAt d).reports = (s.dieAt d).reports ++
          (if (s.dieAt d).hold then [.bits R.lsStat (d - 1) 1 0] else []) ++ dieResetReports d ∧
        (g / 4 = d - 3 → t.lsArmed g = false) ∧
        (n / 16 = d - 3 → (t.lsC n).out = false ∧ t.lsOn n = false ∧
          (t.lsC n).bucket = (if n < 8 then 1000000000000 else 300000000000)) ∧ SameMemory s t) ∧
    exec (.groupArm g) s = .next (groupArm s g).1 ∧
    (s.lsHeld (4 * g) = false → exec (.groupDisarm g) s = .next (groupDisarm s g)) ∧
    ((s.lsG g).holdEnd = some th → exec (.groupHoldExpiry g) s = .next (groupHoldExpiry (s.passTo th) g))

/-- Loss of power ground turns every output of the die off, disarms it without a clamp event and reports event 0x0810; loss of logic ground puts the die into hold, in which every channel fails OFF, and reports event 0x0811; the returns clear the condition, and the hold stays until reclaim. (04_load_switches.md R109, 04_load_switches.md R110) -/
def Obligations.GroundFaultsStopTheDies : Prop :=
  ∀ (s : State) (d : Nat), d < 5 →
    ((s.dieAt d).pgnd = false →
      ∃ t, exec (.powerGroundLoss d) s = .next t ∧ (t.dieAt d).pgnd = true ∧
        (∀ b, b < 12 → b / 4 = d → t.sdArmed b = false ∧ (t.sdB b).clamp = (s.sdB b).clamp) ∧
        (∀ g, g < 8 → g / 4 + 3 = d → t.lsArmed g = false) ∧
        (∀ n, n < 32 → n / 16 + 3 = d → (t.lsC n).out = false ∧ (t.lsC n).clamp = (s.lsC n).clamp) ∧ SameMemory s t) ∧
    exec (.powerGroundReturn d) s = .next (s.setDie d { s.dieAt d with pgnd := false }) ∧
    ((s.dieAt d).lgnd = false →
      ∃ t, exec (.logicGroundLoss d) s = .next t ∧ (t.dieAt d).lgnd = true ∧ (t.dieAt d).lgndHold = true ∧
        (t.dieAt d).hold = true ∧ SameMemory s t) ∧
    ((s.dieAt d).lgnd = true →
      exec (.logicGroundReturn d) s = .next ((s.setDie d { s.dieAt d with lgnd := false }).tell d
        [.bits (lgndBit d).1 (lgndBit d).2 1 0]))

/-- With its clock running, an unblocked analog input (a ratiometric one on a supply that is on) takes the sample, or what its low-pass filter makes of it, into its value register and delivers it, stamped at the midpoint of its conversions from the next instant of its period on; bytes outside the sample rings stay. A ratiometric input on a supply that is off sets SUPPLY and delivers nothing. A configuration beyond the converter budget is refused with ERR 1 and event 0x090A. OPEN and BURDEN latch with source 384, FCLR clears them; a supply that faults while enabled, or with a voltage above 5.5 V forced onto it, latches its bit with source 385 and sets SUPPLY of its ratiometric inputs until it is cleared. (05_sensor_inputs.md R113, 05_sensor_inputs.md R114, 05_sensor_inputs.md R115, 05_sensor_inputs.md R116, 05_sensor_inputs.md R117) -/
def Obligations.AnalogInputsSample : Prop :=
  ∀ (s : State) (n k mV mA : Nat) (x : F32) (v : Word), n < 48 → k < 4 → s.gateOn 5 = true →
    (aiBlocked s n = false → (s.get (R.siAicfgMode n) ≠ 6 ∨ s.supplyOn (s.get (R.siAicfgRsup n)) = true) → s.get (R.siAitauTau n) = 0 →
      ∃ t, exec (.aiSample n x) s = .next t ∧ t.rd (R.siAival n) = x ∧
        (aiOutOfRange (s.get (R.siAicfgMode n)) x = true → t.flag (R.siAistatOor n) = true) ∧
        Out.sample n (gridNext (s.get (R.siAicfgPer n) * 50000) (s.aiOf n).last s.time.dev
          + (aiSlot s n (gridNext (s.get (R.siAicfgPer n) * 50000) (s.aiOf n).last s.time.dev)).1
          + 2 ^ s.get (R.siAicfgOsr n) * 1000 / 2) x false ∈ t.out ∧ SameOutsideRings s t) ∧
    (aiBlocked s n = false → s.get (R.siAicfgMode n) = 6 → s.supplyOn (s.get (R.siAicfgRsup n)) = false →
      ∃ t, exec (.aiSample n x) s = .next t ∧ t.flag (R.siAistatSupply n) = true ∧ t.out = s.out ∧ SameMemory s t) ∧
    (bit v 9 = false →
      (let c := conversions (converterWords s n (applyFields (fieldsAt (R.siAicfg n)) (s.rd (R.siAicfg n)).toNat v.toNat))
       1000000 * c.2 < c.1 →
        exec (.aiConfigWrite n v) s =
          .next ((s.set (R.siAistatErr n) 1).log 0x090A (leBytes 1 (n / 16) ++ leBytes 4 (ceilDiv c.1 c.2)))) ∧
      (let c := conversions (converterWords s n (applyFields (fieldsAt (R.siAicfg n)) (s.rd (R.siAicfg n)).toNat v.toNat))
       c.1 ≤ 1000000 * c.2 → illegal (fieldsAt (R.siAicfg n)) v.toNat = false →
        exec (.aiConfigWrite n v) s = .next (supplyShow (s.wr (R.siAicfg n)
          (BitVec.ofNat 32 (applyFields (fieldsAt (R.siAicfg n)) (s.rd (R.siAicfg n)).toNat v.toNat)))))) ∧
    (s.get (R.siAicfgMode n) = 5 →
      ∃ t, exec (.aiLatchedFault n) s = .next t ∧ t.flag (R.siAistatOpen n) = true ∧ t.flag ⟨R.siIrqStat, 0, 1⟩ = true ∧
        aiBlocked t n = true) ∧
    (s.get (R.siAicfgMode n) = 4 →
      ∃ t, exec (.aiLatchedFault n) s = .next t ∧ t.flag (R.siAistatBurden n) = true ∧ t.flag ⟨R.siIrqStat, 0, 1⟩ = true ∧
        aiBlocked t n = true) ∧
    exec (.aiFclr n) s = .next ((s.set (R.siAistatOpen n) 0).set (R.siAistatBurden n) 0) ∧
    (s.flag ⟨R.siSpctrl, 4 + k, 1⟩ = false → (s.flag ⟨R.siSpctrl, k, 1⟩ = true ∨ 5500 < mV) → mV < 65536 → mA < 65536 →
      ∃ t, exec (.supplyFault k mV mA) s = .next t ∧ t.supplyOn k = false ∧ t.flag ⟨R.siIrqStat, 1, 1⟩ = true ∧
        t.get (R.siSpmeasV k) = mV ∧ t.get (R.siSpmeasI k) = mA ∧
        (s.get (R.siAicfgMode n) = 6 → s.get (R.siAicfgRsup n) = k → t.flag (R.siAistatSupply n) = true) ∧ SameMemory s t) ∧
    exec (.supplyClear k) s = .next (supplyShow (s.set ⟨R.siSpctrl, 4 + k, 1⟩ 0)) ∧
    exec (.aiConfigWrite n v) s = .next (aiConfig s n v).1 ∧
    (aiBlocked s n = false → (s.get (R.siAicfgMode n) ≠ 6 ∨ s.supplyOn (s.get (R.siAicfgRsup n)) = true) →
      s.get (R.siAitauTau n) ≠ 0 →
      (let y := ((s.aiOf n).filter.map fun p => Config.lowPass (s.get (R.siAitauTau n)) (s.get (R.siAicfgPer n)) p x).getD x
       ∃ t, exec (.aiSample n x) s = .next t ∧ t.rd (R.siAival n) = y ∧ (t.aiOf n).filter = some y ∧
        Out.sample n (gridNext (s.get (R.siAicfgPer n) * 50000) (s.aiOf n).last s.time.dev
          + (aiSlot s n (gridNext (s.get (R.siAicfgPer n) * 50000) (s.aiOf n).last s.time.dev)).1
          + 2 ^ s.get (R.siAicfgOsr n) * 1000 / 2) y false ∈ t.out ∧ SameOutsideRings s t))

/-- A counted edge is stamped in steps of 5 ns and counted; the other one is only stamped; a single transition of a quadrature pair moves the position of both channels by 1. A counted edge enters the frequency measurement; two closer than 2.5 µs set OVF with source 386; a double transition of a quadrature pair sets QERR. At a publication instant a counter publishes its count, and a frequency input with new edges their number over the time from the reference to the last one, stamped midway, or 0 with STALL after the zero-speed timeout. A period input publishes the inverse, the odd channel of a pair its position. A clear sets the count, or the position of a pair, to 0. (05_sensor_inputs.md R118, 05_sensor_inputs.md R119, 05_sensor_inputs.md R120) -/
def Obligations.PulseInputsMeasure : Prop :=
  ∀ (s : State) (n m : Nat) (t0 r : Time) (lv both : Bool), n < 24 → s.gateOn 5 = true → t0 < 2 ^ 64 →
    ((s.get (R.siPicfgMode n) = 1 ∨ s.get (R.siPicfgMode n) = 2 ∨ s.get (R.siPicfgMode n) = 3) →
      ∃ t, exec (.pulseEdge n (s.get (R.siPicfgEdge n) == 0) both t0) s = .next t ∧
        t.rd (R.siPicnt n) = s.rd (R.siPicnt n) + 1 ∧ t.rd64 (R.siPitsLo n) = t0 / 5 * 5 ∧ (t.piOf n).tLast = t0 / 5 * 5 ∧
        ((s.piOf n).tLast ≠ 0 → t0 / 5 * 5 < (s.piOf n).tLast + 2500 →
          t.flag (R.siPistatOvf n) = true ∧ t.flag ⟨R.siIrqStat, 2, 1⟩ = true) ∧ SameMemory s t) ∧
    (s.get (R.siPicfgMode (pairOf n)) = 4 → s.get (R.siPicfgMode (pairOf n + 1)) = 4 →
      ∃ t, exec (.pulseEdge n lv true t0) s = .next t ∧ t.flag (R.siPistatQerr n) = true ∧
        t.flag ⟨R.siIrqStat, 2, 1⟩ = true ∧ t.rd (R.siPicnt n) = s.rd (R.siPicnt n) ∧ SameMemory s t) ∧
    (s.get (R.siPicfgMode n) = 3 →
      ∃ t, exec (.pulsePublication n) s = .next t ∧ t.rd (R.siPival n) = F32.ofNat (s.rd (R.siPicnt n)).toNat ∧
        Out.sample (0x40 + n) (gridNext (s.get (R.siPicfgPub n) * 100000) (s.piOf n).lastPub s.time.dev)
          (F32.ofNat (s.rd (R.siPicnt n)).toNat) false ∈ t.out ∧ SameOutsideRings s t) ∧
    (s.get (R.siPicfgMode n) = 1 → (s.piOf n).tRef = some r → (s.piOf n).edges = (m : Int) → m ≠ 0 → r < (s.piOf n).tLast →
      ∃ t, exec (.pulsePublication n) s = .next t ∧
        t.rd (R.siPival n) = F32.ofRat ((m : Int) * 1000000000) ((s.piOf n).tLast - r) ∧
        Out.sample (0x40 + n) ((r + (s.piOf n).tLast) / 2) (F32.ofRat ((m : Int) * 1000000000) ((s.piOf n).tLast - r)) false ∈ t.out ∧
        (t.piOf n).tRef = some (s.piOf n).tLast ∧ SameOutsideRings s t) ∧
    (s.get (R.siPicfgMode n) = 1 → (s.piOf n).tRef = some r → (s.piOf n).tLast ≤ r →
      (s.piOf n).tLast + ms (s.get (R.siPitoZto n)) < gridNext (s.get (R.siPicfgPub n) * 100000) (s.piOf n).lastPub s.time.dev →
      ∃ t, exec (.pulsePublication n) s = .next t ∧ t.rd (R.siPival n) = 0 ∧ t.flag (R.siPistatStall n) = true ∧
        SameOutsideRings s t) ∧
    (s.get (R.siPicfgMode n) ≠ 4 → exec (.piCountClear n) s = .next (s.wr (R.siPicnt n) 0)) ∧
    (s.get (R.siPicfgMode n) = 4 → exec (.piCountClear n) s =
      .next ((s.wr (R.siPicnt (pairOf n)) 0).wr (R.siPicnt (pairOf n + 1)) 0)) ∧
    ((s.get (R.siPicfgMode n) = 1 ∨ s.get (R.siPicfgMode n) = 2 ∨ s.get (R.siPicfgMode n) = 3) →
      lv ≠ (s.get (R.siPicfgEdge n) == 0) →
      ∃ t, exec (.pulseEdge n lv both t0) s = .next t ∧ t.rd (R.siPicnt n) = s.rd (R.siPicnt n) ∧
        t.rd64 (R.siPitsLo n) = t0 / 5 * 5 ∧ (t.piOf n).level = lv ∧ SameMemory s t) ∧
    (s.get (R.siPicfgMode (pairOf n)) = 4 → s.get (R.siPicfgMode (pairOf n + 1)) = 4 →
      ∃ t, exec (.pulseEdge n lv false t0) s = .next t ∧ t.rd (R.siPicnt (pairOf n)) = t.rd (R.siPicnt (pairOf n + 1)) ∧
        (t.rd (R.siPicnt (pairOf n)) = s.rd (R.siPicnt (pairOf n)) + 1 ∨
          t.rd (R.siPicnt (pairOf n)) = s.rd (R.siPicnt (pairOf n)) - 1) ∧ SameMemory s t) ∧
    (s.get (R.siPicfgMode (pairOf n)) = 4 → s.get (R.siPicfgMode (pairOf n + 1)) = 4 → n ≠ pairOf n →
      ∃ t, exec (.pulsePublication n) s = .next t ∧ t.rd (R.siPival n) = F32.ofInt (int32 (s.rd (R.siPicnt n))) ∧
        SameOutsideRings s t) ∧
    (∀ (f : F32) (stamp : Time) (q : PulseIn),
      (s.get (R.siPicfgMode n) = 1 ∨ s.get (R.siPicfgMode n) = 2 ∨ (n = pairOf n ∧ s.get (R.siPicfgMode n) = 4 ∧
        s.get (R.siPicfgMode (n + 1)) = 4)) →
      pulseFrequency { s.piOf n with lastPub := some (gridNext (s.get (R.siPicfgPub n) * 100000) (s.piOf n).lastPub s.time.dev) }
        (s.get (R.siPitoZto n)) (gridNext (s.get (R.siPicfgPub n) * 100000) (s.piOf n).lastPub s.time.dev) = some (f, stamp, q) →
      ∃ t, exec (.pulsePublication n) s = .next t ∧
        t.rd (R.siPival n) = (if s.get (R.siPicfgMode n) = 2 then F32.div F32.one f else f) ∧
        t.flag (R.siPistatStall n) = q.stalled ∧ SameOutsideRings s t)

/-- An enabled bridge input with its sense lines whole delivers 1,000 × Vdiff / Vexc; an open sense line latches with source 387 and stops it until it is restored. An impact outside the hold-off is counted in the bin of its amplitude and starts the next hold-off. At the end of an interval the rate, the count and the dead time stand in their registers, the counts start again and dead time above one half sets OVL. A delivered motion sample goes out on seven streams, one not delivered sets GAP; a fault stops them. (05_sensor_inputs.md R121, 05_sensor_inputs.md R122, 05_sensor_inputs.md R123, 05_sensor_inputs.md R124, 05_sensor_inputs.md R125) -/
def Obligations.BridgesPadsAndMotionMeasure : Prop :=
  ∀ (s : State) (b n peak code : Nat) (t0 : Time) (vd ve x : F32) (lim oor : Bool), b < 4 → n < 8 → s.gateOn 5 = true →
    (s.flag (R.siBicfgEn b) = true → s.flag (R.siBistatSenseOpen b) = false →
      ∃ t, exec (.bridgeConversion b vd ve lim oor t0) s = .next t ∧ t.flag (R.siBistatExcLim b) = lim ∧
        (oor = true → t.flag (R.siBistatOor b) = true) ∧ t.rd (R.siBival b) = F32.div (F32.mul (F32.ofNat 1000) vd) ve ∧
        Out.sample (0x60 + b) (t0 - Config.bridgeDelay (s.get (R.siBicfgRate b)))
          (F32.div (F32.mul (F32.ofNat 1000) vd) ve) false ∈ t.out ∧ SameOutsideRings s t) ∧
    (s.flag (R.siBicfgEn b) = true →
      ∃ t, exec (.bridgeSenseOpen b) s = .next t ∧ t.flag (R.siBistatSenseOpen b) = true ∧
        t.flag ⟨R.siIrqStat, 3, 1⟩ = true ∧ exec (.bridgeConversion b vd ve false false t0) t = .next t ∧ SameMemory s t) ∧
    exec (.bridgeSenseRestore b) s = .next (s.set (R.siBistatSenseOpen b) 0) ∧
    (s.flag (R.siLicfgEn n) = true → lossEdge s n 0 ≤ peak → peak < 4096 → (s.liOf n).holdUntil ≤ t0 →
      ∃ t, exec (.lossImpact n peak t0) s = .next t ∧ (t.liOf n).count = min ((s.liOf n).count + 1) 65535 ∧
        (t.liOf n).bins = (s.liOf n).bins.set (lossBin s n peak) (min ((s.liOf n).bins.getD (lossBin s n peak) 0 + 1) 65535) ∧
        (t.liOf n).holdUntil = t0 + us (s.get (R.siLicfgHoldoff n)) ∧ SameMemory s t) ∧
    (s.flag (R.siLicfgEn n) = true → (s.liOf n).count < 65536 →
      ∃ t, exec (.lossIntervalEnd n) s = .next t ∧ t.get (R.siLicntCount n) = (s.liOf n).count ∧
        t.rd (R.siLirate n) = F32.ofRat ((s.liOf n).count * 1000 : Nat) (s.get (R.siLicfgInterval n)) ∧
        (t.liOf n).count = 0 ∧ (t.liOf n).deadUs = 0 ∧
        (1000 * s.get (R.siLicfgInterval n) < 2 * (s.liOf n).deadUs →
          t.flag (R.siListatOvl n) = true ∧ t.flag ⟨R.siIrqStat, 4, 1⟩ = true) ∧ SameOutsideRings s t) ∧
    (s.flag R.siImucfgEn = true → s.flag R.siImustatFault = false →
      ∃ t, exec (.imuSample x x x vd vd ve ve true) s = .next t ∧ t.flag R.siImustatStok = true ∧
        Out.sample 0x80 (gridNext 1000000 s.sens.imuLast s.time.dev) x false ∈ t.out ∧
        Out.sample 0x83 (gridNext 1000000 s.sens.imuLast s.time.dev) vd false ∈ t.out ∧
        Out.sample 0x86 (gridNext 1000000 s.sens.imuLast s.time.dev) ve false ∈ t.out ∧ SameOutsideRings s t) ∧
    (s.flag R.siImucfgEn = true → s.flag R.siImustatFault = false →
      ∃ t, exec (.imuSample x x x vd vd ve ve false) s = .next t ∧ t.flag R.siImustatGap = true ∧ t.out = s.out ∧
        SameMemory s t) ∧
    (∃ t, exec (.imuFault code) s = .next t ∧ t.flag R.siImustatFault = true ∧ t.flag R.siImustatStok = false ∧
      t.flag ⟨R.siIrqStat, 5, 1⟩ = true ∧ exec (.imuSample x x x vd vd ve ve true) t = .next t)

/-- A sample on an enabled route of its stream to a bound consumer is delivered as gain × value + offset with its timestamp and maximum age; over a route whose consumer is no longer bound it is discarded and counted. A configured ring outside failed SRAM macros takes it in entry SEQ mod depth and advances SEQ; every byte outside that entry stays. (01_architecture.md R14, 01_architecture.md R19, 01_architecture.md R21) -/
def Obligations.RingsTakeSamples : Prop :=
  ∀ (s : State) (c : TrellisCopy) (stream k : Nat) (ts : Time) (v : F32) (a : Nat),
    (c.enable = 1 → c.producer = stream → bound s c.consumer = true →
      deliverBy s c stream ts v false [] = deliverTo s c.consumer stream ⟨F32.add (F32.mul c.gain v) c.offset, ts, false, [], c.maxAge⟩) ∧
    (c.enable = 1 → c.producer = stream → bound s c.consumer = false →
      deliverBy s c stream ts v false [] = { s with delivery := { s.delivery with discarded := s.delivery.discarded + 1 } }) ∧
    ((s.ringOf k).base ≠ 0 → (s.ringOf k).depth ≠ 0 → (s.ringOf k).mode = 0 →
      (∀ i, i < 16 → deadByte s ((s.ringOf k).base + 16 * ((s.ringOf k).seq % (s.ringOf k).depth) + i) = false) →
      (ringWrite s k stream ts v []).mem.readBytes ((s.ringOf k).base + 16 * ((s.ringOf k).seq % (s.ringOf k).depth)) 16 =
        leBytes 4 (s.ringOf k).seq ++ F32.toBytes v ++ leBytes 8 ts ∧
      ((ringWrite s k stream ts v []).ringOf k).seq = ((s.ringOf k).seq + 1) % 2 ^ 32 ∧
      (a < (s.ringOf k).base + 16 * ((s.ringOf k).seq % (s.ringOf k).depth) ∨
          (s.ringOf k).base + 16 * ((s.ringOf k).seq % (s.ringOf k).depth) + 16 ≤ a →
        (ringWrite s k stream ts v []).mem.read a = s.mem.read a)) ∧
    (k < 256 → SameOutsideRings s (ringWrite s k stream ts v []))

/-- While the service runs, an epoch of a quantity makes it the last one taken and device time reaches its publication; an overrun epoch publishes the propagated previous estimate on the quantity's streams, counted, with source 261. The oldest sample delivered to a slot is taken from it; one from the future or older than every window is counted and dropped. At the dispute horizon the output is held. A reset is taken for the next epoch. (06_fusion.md R132, 06_fusion.md R135, 06_fusion.md R141, 06_fusion.md R142, 06_fusion.md R153, 06_fusion.md R154) -/
def Obligations.FusionTakesAndPublishes : Prop :=
  (∀ (s : State) (q k : Nat) (x : Sample) (l : List Sample) (p : FuEst) (d : Time × Nat × Nat), q < 11 → k < 64 → s.gateOn 6 = true →
    (fusionRuns s = true → qRate s q ≠ 0 → ∀ o : Bool,
      ∃ t, exec (.fusionEpoch q o) s = .next t ∧ (t.qty q).last = some (nextEpoch s q) ∧ s.now ≤ t.now) ∧
    (fusionRuns s = true → qRate s q ≠ 0 → 2 ≤ q → (s.qty q).prev = some p →
      ∃ t, exec (.fusionEpoch q true) s = .next t ∧ t.flag R.fuStatOverrun = true ∧ t.flag ⟨R.fuIrqStat, 5, 1⟩ = true ∧
        Out.sample (0x200 + 16 * q) (nextEpoch s q + qOffset s q) (p.x.getD 0 0) false ∈ t.out ∧
        t.rd (R.fuQtval q) = p.x.getD 0 0 ∧ SameOutsideRings s t) ∧
    (Tbl.get s.delivery.inbox [] k = x :: l → s.role k = 0 →
      exec (.slotSample k) s =
        .next { s with delivery := { s.delivery with inbox := Tbl.set s.delivery.inbox [] k l } }) ∧
    (fusionRuns s = true → Tbl.get s.delivery.inbox [] k = x :: l → s.role k ≠ 0 → combines s k = false → s.time.dev < x.ts →
      ∃ t, exec (.slotSample k) s = .next t ∧ Tbl.get t.delivery.inbox [] k = l ∧
        t.rd (R.fuStfault k) = s.rd (R.fuStfault k) + 1 ∧ (t.fuSlot k).hist = (s.fuSlot k).hist) ∧
    (fusionRuns s = true → Tbl.get s.delivery.inbox [] k = x :: l → s.role k ≠ 0 → combines s k = false →
      longestWindow (s.role k) < s.time.dev - x.ts →
      ∃ t, exec (.slotSample k) s = .next t ∧ Tbl.get t.delivery.inbox [] k = l ∧
        t.rd (R.fuStooold k) = s.rd (R.fuStooold k) + 1 ∧ (t.fuSlot k).hist = (s.fuSlot k).hist) ∧
    ((s.qty q).dispute = some d → (s.qty q).held = none →
      ∃ t, exec (.disputeHorizon q) s = .next t ∧ (t.qty q).held ≠ none ∧ t.flag (R.fuQtstatHeld q) = true ∧
        (t.qty q).dispute = some d ∧ SameMemory s t) ∧
    (fusionRuns s = true → qRate s q ≠ 0 → ∀ o : Bool, exec (.fusionEpoch q o) s = .next (fusionEpoch s q o)) ∧
    (fusionRuns s = true → Tbl.get s.delivery.inbox [] k = x :: l → exec (.slotSample k) s =
      .next (slotSample { s with delivery := { s.delivery with inbox := Tbl.set s.delivery.inbox [] k l } } k x)) ∧
    ((s.qty q).dispute = some d → exec (.disputeHorizon q) s =
      .next (horizon (s.devTo (d.1 + ms (s.objN (0x2480 + q) 0x04) + qOffset s q)) q (d.1 + ms (s.objN (0x2480 + q) 0x04))))) ∧
  (∀ (s : State) (q : Nat), q < 11 → Serves s → exec (.quantityReset q) s =
    .next (accepted (s.setQty q { s.qty q with reset := true }) (0x2480 + q) 0x0C .u8 (.num 1)))

/-- At the next epoch boundary of the trellis the written slot objects take effect; a slot whose role object is unchanged keeps its history, and one that changed restarts with an empty history. A calibration update comes 10 s after the last one. A correction that has been stable for 600 s is stored, at most once per hour, in the Ember store and logged. (06_fusion.md R139, 06_fusion.md R145, 06_fusion.md R155, 06_fusion.md R156) -/
def Obligations.FusionSlotsAreConfiguredAndCalibrated : Prop :=
  ∀ (s : State) (k : Nat), k < 64 → s.gateOn 6 = true →
    (∃ t, exec .slotConfigApply s = .next t ∧ t.fu.cfgEpoch = some (gridNext 10000000 s.fu.cfgEpoch s.time.dev) ∧
      (∀ j, j < 256 → t.slotObj k j = s.obj (0x2410 + k) j) ∧
      (s.objN (0x2410 + k) 0x01 = s.role k → (t.fuSlot k).hist = (s.fuSlot k).hist ∧ t.role k = s.role k) ∧
      (s.objN (0x2410 + k) 0x01 ≠ s.role k → s.objN (0x2410 + k) 0x01 < 18 →
        (t.fuSlot k).hist = [] ∧ t.role k = s.objN (0x2410 + k) 0x01) ∧ SameMemory s t) ∧
    (fusionRuns s = true → s.slotN k 0x0A = 1 → axes (s.role k) ≠ [] → (s.fuSlot k).frozen = false →
      ∃ t, exec (.calibrationUpdate k) s = .next t ∧ t.now = max s.now ((s.fuSlot k).calAt + sec 10) ∧
        (t.fuSlot k).calAt = t.now ∧ SameMemory s t) ∧
    (fusionRuns s = true → s.slotN k 0x0A = 1 → axes (s.role k) ≠ [] → (s.fuSlot k).frozen = false →
      ∃ t, exec (.calibrationStore k) s = .next t ∧ (t.fuSlot k).storedAt = some t.now ∧
        (s.fuSlot k).stableAt + sec 600 ≤ t.now ∧
        (∀ u, (s.fuSlot k).storedAt = some u → u + sec 3600 ≤ t.now) ∧
        t.obj (0x2410 + k) 0x0B = .bytes ((s.fuSlot k).corr.flatMap F32.toBytes) ∧ SameMemory s t)

/-- With the unit's clock running, a submission is refused with 3 for a descriptor outside memory, 1 for a full queue and 2 for a tag in use, counted, and enters its queue otherwise. The unit starts the first job of queue 0, else of queue 1. A job that ends leaves the unit and its tag waits for acknowledgement, with the queue's source where its descriptor asks for it. An acknowledgement frees the slots passed; an abort completes a job that has not started with status 5 and leaves a running one. (06_fusion.md R157, 06_fusion.md R158, 06_fusion.md R159, 06_fusion.md R160, 01_architecture.md R24, 01_architecture.md R25) -/
def Obligations.MatrixJobsRun : Prop :=
  ∀ (s : State) (j tag head : Nat) (v : Word) (o : TagOp) (l : List TagOp), j < 2 → s.gateOn 6 = true →
    (inSramOrDram s (descriptorAt v) 64 = false →
      ∃ t, exec (.fusionJobSubmit j v) s = .next t ∧ t.get (R.fuJqresResult j) = 3 ∧ t.fu.jobs = s.fu.jobs ∧ SameMemory s t) ∧
    (inSramOrDram s (descriptorAt v) 64 = true →
      (readDescriptor s 2 (descriptorAt v)).2.jobs j = s.jobs j → jobSlots s j ≤ (s.jobs j).occupied →
      ∃ t, exec (.fusionJobSubmit j v) s = .next t ∧ t.get (R.fuJqresResult j) = 1 ∧ t.fu.jobs = s.fu.jobs) ∧
    (inSramOrDram s (descriptorAt v) 64 = true → (readDescriptor s 2 (descriptorAt v)).2 = s →
      (s.jobs j).refusal (jobSlots s j) (natAt (readDescriptor s 2 (descriptorAt v)).1 0 2) true = 0 →
      ∃ t, exec (.fusionJobSubmit j v) s = .next t ∧ t.get (R.fuJqresResult j) = 0 ∧
        (t.jobs j).ops = (s.jobs j).ops ++ [{ tag := natAt (readDescriptor s 2 (descriptorAt v)).1 0 2,
                                              desc := (readDescriptor s 2 (descriptorAt v)).1 }] ∧ SameMemory s t) ∧
    (s.fu.busy = none → s.flag R.fuStatPwr = true → (s.jobs 0).ops = o :: l → o.started = false →
      ∃ t, exec .fusionJobStart s = .next t ∧ t.fu.busy = some (0, o.tag) ∧ t.flag R.fuStatBusy = true ∧ SameMemory s t) ∧
    (s.fu.busy = none → s.flag R.fuStatPwr = true → (s.jobs 0).ops = [] → (s.jobs 1).ops = o :: l →
      o.started = false →
      ∃ t, exec .fusionJobStart s = .next t ∧ t.fu.busy = some (1, o.tag) ∧ t.flag R.fuStatBusy = true ∧ SameMemory s t) ∧
    (s.fu.busy = some (j, tag) → (s.jobs j).find tag = some o → o.tag = tag →
      ∃ t, exec .fusionJobComplete s = .next t ∧ t.fu.busy = none ∧ t.flag R.fuStatBusy = false ∧
        (t.jobs j).unacked = (s.jobs j).unacked ++ [tag] ∧ (t.jobs j).written = (s.jobs j).written + 1 ∧
        (∀ x ∈ (t.jobs j).ops, x.tag ≠ tag) ∧ (jFlag o.desc 0 = true → t.flag ⟨R.fuIrqStat, j, 1⟩ = true)) ∧
    (∃ t, exec (.fusionCqAck j head) s = .next t ∧
      (t.jobs j).unacked = (s.jobs j).unacked.drop
        (headAdvance (s.get (R.fuJqcqheadCqhead j)) (head % max (jobSlots s j) 1) (max (jobSlots s j) 1)) ∧
      (t.jobs j).ops = (s.jobs j).ops ∧ SameMemory s t) ∧
    (tag < 65536 → (s.jobs j).find tag = some o → o.tag = tag → o.started = false →
      ∃ t, exec (.fusionJobAbort j tag) s = .next t ∧ (t.jobs j).unacked = (s.jobs j).unacked ++ [tag] ∧
        (∀ x ∈ (t.jobs j).ops, x.tag ≠ tag)) ∧
    (tag < 65536 → (s.jobs j).find tag = some o → o.started = true → exec (.fusionJobAbort j tag) s = .next s) ∧
    exec (.fusionJobSubmit j v) s = .next (jobSubmit s j v) ∧ exec .fusionJobStart s = .next (jobStart s) ∧
    exec .fusionJobComplete s = .next (jobComplete s) ∧ exec (.fusionCqAck j head) s = .next (jobAck s j head) ∧
    exec (.fusionJobAbort j tag) s = .next (jobAbort s j tag)

/-- A frame start of a live port with no frame in progress is accepted with its number and the time of its arrival less LAT, counted; one that comes too fast is dropped and counted in RATE. A packet with a bad header is counted; a line with a bad CRC is counted and lost to its frame; a good line of the running exposure of a single-exposure frame is taken, and its frame end with too few lines or a lost line drops the frame CORRUPT. An exposure that has not started drops its frame with MERGE. The end of the one complete frame leaves none in progress and turns the statistics buffer. A returned buffer is free. A frame-sync edge goes out at its instant, and a replay port runs its next frame. With the camera clock on, each command carries out its operation whatever frames are in progress. (07_camera_pipeline.md R163, 07_camera_pipeline.md R164, 07_camera_pipeline.md R166, 07_camera_pipeline.md R175, 07_camera_pipeline.md R177) -/
def Obligations.CamerasTakeFrames : Prop :=
  ∀ (s : State) (c num a idx vc dt hb i : Nat) (ok : Bool) (codes behind : List Nat) (fr : CamFrame) (e : CamExp), c < 4 → s.gateOn 7 = true →
    (cameraLive s c = true → (s.camPort c).frames = [] → s.camNexp c ≠ 0 → tooFast s c = false → s.flag R.camStatDamp = false →
      ∃ t, exec (.camFrameStart c num) s = .next t ∧
        (t.camPort c).frames.map (fun f => (f.num, f.ts)) = [(num, s.time.dev - us (s.get (R.camPtsLat c)))] ∧
        (t.camPort c).prev = some s.now ∧ t.rd (R.camPframes c) = s.rd (R.camPframes c) + 1 ∧ SameMemory s t) ∧
    (cameraLive s c = true → (s.camPort c).frames = [] → tooFast s c = true →
      ∃ t, exec (.camFrameStart c num) s = .next t ∧ (t.camPort c).frames = [] ∧
        t.rd (R.camPdropRate c) = s.rd (R.camPdropRate c) + 1 ∧ SameMemory s t) ∧
    (cameraLive s c = true → 1 < hb →
      ∃ t, exec (.csiPacket c vc dt hb ok num codes) s = .next t ∧ t.rd (R.camPpkterr c) = s.rd (R.camPpkterr c) + 1 ∧
        (t.camPort c).frames = (s.camPort c).frames ∧ SameMemory s t) ∧
    (cameraLive s c = true → slotOfVc s c vc = some i → runningFrame s c i = some fr → hb ≤ 1 →
      ∃ t, exec (.csiPacket c vc (0x2B + s.get (R.camPctrlBpp c)) hb false num codes) s = .next t ∧
        t.rd (R.camPpkterr c) = s.rd (R.camPpkterr c) + 1 ∧
        (t.camPort c).frames = (s.camPort c).frames.map (fun x => if x.num = fr.num then
          { x with exps := x.exps.set i { x.exps.getD i {} with lost := true } } else x) ∧ SameMemory s t) ∧
    (cameraLive s c = true → slotOfVc s c vc = some 0 → (s.camPort c).frames = [fr] → fr.accepted = true → fr.exps = [e] →
      e.started = true → e.ended = false → codes.length = s.camW c →
      ∃ t, exec (.csiPacket c vc (0x2B + s.get (R.camPctrlBpp c)) 1 true num codes) s = .next t ∧
        (t.camPort c).frames.map (fun f => f.exps.map (·.lines)) = [[e.lines ++ [codes.map (· % 2 ^ s.camBits c)]]] ∧
        SameMemory s t) ∧
    (cameraLive s c = true → slotOfVc s c vc = some 0 → (s.camPort c).frames = [fr] → fr.accepted = true → fr.exps = [e] →
      e.started = true → e.ended = false → (e.lost = true ∨ e.lines.length ≠ s.camH c) →
      ∃ t, exec (.csiPacket c vc 1 0 ok num codes) s = .next t ∧ (t.camPort c).frames = [] ∧
        t.rd (R.camPdropCorrupt c) = s.rd (R.camPdropCorrupt c) + 1 ∧ t.flag ⟨R.camIrqStat, 20, 1⟩ = true ∧ SameMemory s t) ∧
    (((s.camPort c).frames.find? fun f => f.accepted && !f.exps.all (·.started)) = some fr →
      ∃ t, exec (.mergeTimeout c) s = .next t ∧ (t.camPort c).frames = (s.camPort c).frames.filter (fun x => x.num != fr.num) ∧
        t.rd (R.camPdropMerge c) = s.rd (R.camPdropMerge c) + 1 ∧ t.flag ⟨R.camIrqStat, 20, 1⟩ = true ∧
        t.now = max s.now (fr.arrived + framePeriod s c) ∧ SameMemory s t) ∧
    ((s.camPort c).frames = [fr] → fr.complete = true →
      ∃ t, exec (.camFrameEnd c []) s = .next t ∧ (t.camPort c).frames = [] ∧
        t.get (R.camPstatSbuf c) = 1 - s.get (R.camPstatSbuf c) ∧ t.flag ⟨R.camIrqStat, 16 + c, 1⟩ = true) ∧
    (a < 3 → idx < 16 → exec (.tapAck c a idx) s = .next (s.set ⟨R.camTown c a, idx, 1⟩ 0)) ∧
    (s.flag (R.camPctrlFsync c) = true → nextSync s c < 2 ^ 64 →
      ∃ t, exec (.frameSyncEdge c) s = .next t ∧ (t.camPort c).syncAt = some (nextSync s c) ∧
        t.out = .fsync c (nextSync s c) :: s.out ∧ s.time.dev ≤ nextSync s c ∧ SameMemory s t) ∧
    (camClocked s = true → s.flag (R.camPctrlEn c) = true → s.flag (R.camPctrlSrc c) = true → (s.camPort c).replayAt = none →
      ∃ t, exec (.replayFrame c) s = .next t ∧ (t.camPort c).replayAt = some s.now ∧
        (t.camPort c).replayIdx = ((s.camPort c).replayIdx + 1) % max (s.get (R.camPrplnRpln c)) 1) ∧
    (cameraLive s c = true → exec (.camFrameStart c num) s = .next (cameraFrameStart s c 0 num)) ∧
    (cameraLive s c = true → hb ≤ 1 → exec (.csiPacket c vc dt hb ok num codes) s = .next (packet s c vc dt ok num codes)) ∧
    exec (.camFrameEnd c behind) s = .next (frameEnd s c behind) ∧
    (a < 3 → exec (.tapAck c a idx) s = .next (tapAck s c a idx)) ∧
    (camClocked s = true → s.flag (R.camPctrlEn c) = true → s.flag (R.camPctrlSrc c) = true →
      exec (.replayFrame c) s = .next (replayFrame s c))

/-- A feed fault latches PWR_FLT with the port's source, and PWR = 0 clears it. A lost link drops every frame in progress and fires the source, a regained one sets LOCK. GO starts an I2C transfer unless one runs, with the data it writes; its end clears BUSY, with NACK where it was not acknowledged, and stores the data of a read of one or two bytes, as the transfer was started. APPLY begins the copy; a copy that cannot be read keeps the active set with ERR 6. An enable beyond the pixel budget is refused with ERR 3, one beyond the link with 4, and any other accepted. With the camera clock on, each of these commands carries out its operation in any state of the port. (07_camera_pipeline.md R162, 07_camera_pipeline.md R167, 07_camera_pipeline.md R173, 07_camera_pipeline.md R174) -/
def Obligations.CamerasAreConnected : Prop :=
  ∀ (s : State) (c mA data : Nat) (on : Bool) (v : Word), c < 4 →
    (s.flag (R.camPctrlPwr c) = true → s.flag (R.camPstatPwrFlt c) = false →
      ∃ t, exec (.camFeedFault c mA) s = .next t ∧ t.flag (R.camPstatPwrFlt c) = true ∧
        t.flag ⟨R.camIrqStat, c, 1⟩ = true ∧ SameMemory s t) ∧
    exec (.camFeedSwitch c false) s = .next ((s.set (R.camPctrlPwr c) 0).set (R.camPstatPwrFlt c) 0) ∧
    (s.gateOn 7 = true → s.flag (R.camPstatLock c) = true → (s.camPort c).frames = [] →
      ∃ t, exec (.camLinkLoss c) s = .next t ∧ t.flag (R.camPstatLock c) = false ∧ (t.camPort c).frames = [] ∧
        (t.camPort c).lostAt = some s.now ∧ t.flag ⟨R.camIrqStat, c, 1⟩ = true ∧
        t.rd (R.camPdropLink c) = s.rd (R.camPdropLink c) ∧ SameMemory s t) ∧
    (s.gateOn 7 = true → s.flag (R.camPstatLock c) = false →
      ∃ t, exec (.camLinkRegain c) s = .next t ∧ t.flag (R.camPstatLock c) = true ∧ (t.camPort c).lostAt = none ∧
        t.flag ⟨R.camIrqStat, c, 1⟩ = true ∧ SameMemory s t) ∧
    (s.gateOn 7 = true → s.flag (R.camPi2cdBusy c) = false → bit v 31 = true → bit v 7 = false →
      ∃ t, exec (.i2cTransferStart c v) s = .next t ∧ t.flag (R.camPi2cdBusy c) = true ∧ (t.camPort c).i2c = v ∧
        t.out = .i2c c (bits v 0 7) (bits v 8 16) (1 + bits v 24 1) false
          (leBytes (1 + bits v 24 1) (s.get (R.camPi2cdData c))) :: s.out ∧ SameMemory s t) ∧
    (s.gateOn 7 = true → s.flag (R.camPi2cdBusy c) = true →
      exec (.i2cTransferEnd c false data) s = .next ((s.set (R.camPi2cdBusy c) 0).set (R.camPi2cdNack c) 1)) ∧
    (s.gateOn 7 = true → s.flag (R.camPi2cdBusy c) = true → bit (s.camPort c).i2c 7 = true → bit (s.camPort c).i2c 24 = true →
      exec (.i2cTransferEnd c true data) s = .next ((s.set (R.camPi2cdBusy c) 0).set (R.camPi2cdData c) data)) ∧
    (s.gateOn 7 = true → ∃ t, exec (.camApply c) s = .next t ∧ (t.camPort c).copying = true ∧
      t.flag (R.camPstatApplyPend c) = true ∧ (t.camPort c).active = (s.camPort c).active ∧ SameMemory s t) ∧
    (s.gateOn 7 = true → (s.camPort c).copying = true → inSramOrDram s (s.rd64 (R.camPparamLo c)) 43456 = false →
      ∃ t, exec (.camParameterCopyEnd c) s = .next t ∧ (t.camPort c).copying = false ∧ t.get (R.camPstatErr c) = 6 ∧
        t.flag (R.camPstatApplyPend c) = false ∧ (t.camPort c).active = (s.camPort c).active ∧ SameMemory s t) ∧
    (s.gateOn 7 = true → pixelSum s c > 1600000000000 →
      ∃ t, exec (.camEnable c) s = .next t ∧ t.get (R.camPstatErr c) = 3 ∧ t.flag (R.camPctrlEn c) = s.flag (R.camPctrlEn c)) ∧
    (s.gateOn 7 = true → pixelSum s c ≤ 1600000000000 → s.flag (R.camPctrlSrc c) = false →
      pixelDemand s c * s.camBits c > 3600000000000 →
      ∃ t, exec (.camEnable c) s = .next t ∧ t.get (R.camPstatErr c) = 4 ∧ t.flag (R.camPctrlEn c) = s.flag (R.camPctrlEn c)) ∧
    (s.gateOn 7 = true → pixelSum s c ≤ 1600000000000 →
      (s.flag (R.camPctrlSrc c) = true ∨ pixelDemand s c * s.camBits c ≤ 3600000000000) → s.flag (R.camPctrlEn c) = false →
      ∃ t, exec (.camEnable c) s = .next t ∧ t.get (R.camPstatErr c) = 0 ∧ t.flag (R.camPctrlEn c) = true ∧
        (t.camPort c).seq = 0 ∧ SameMemory s t) ∧
    exec (.camFeedSwitch c on) s = .next (feedSwitch s c on) ∧
    (s.gateOn 7 = true → exec (.camLinkLoss c) s = .next (linkLoss s c) ∧
      exec (.i2cTransferStart c v) s = .next (i2cWrite s c v) ∧ exec (.camApply c) s = .next (camApply s c) ∧
      exec (.camParameterCopyEnd c) s = .next (paramCopyEnd s c) ∧ exec (.camEnable c) s = .next (camEnable s c).1) ∧
    (s.gateOn 7 = true → s.flag (R.camPi2cdBusy c) = true → bit (s.camPort c).i2c 7 = true →
      exec (.i2cTransferEnd c true data) s = .next ((s.set (R.camPi2cdBusy c) 0).set (R.camPi2cdData c)
        (if bit (s.camPort c).i2c 24 then data else data % 256))) ∧
    (s.gateOn 7 = true → s.flag (R.camPi2cdBusy c) = true → bit (s.camPort c).i2c 7 = false →
      exec (.i2cTransferEnd c true data) s = .next (s.set (R.camPi2cdBusy c) 0))

/-- GO starts a legal search, refuses an illegal one with ERR and is ignored while one is BUSY; its end writes code phase, Doppler, peak and instant, sets DONE and fires source 193. EN starts a channel whose configuration is legal and whose LOADTS lies 10 µs ahead, else refuses it with ERR 2; EN = 0 stops it. A dump counts DSEQ and DSEQ2, sets the channel's DUMPMASK bit, writes its instant, and over an unacknowledged one sets OVR and counts MISS; the interrupt follows at the next millisecond. COMMIT keeps the shadow, replacing an earlier one; an acknowledge of the last DSEQ frees the record. A measurement latch counts MEASSEQ, gives it to every running channel and fires 194. With the GNSS clock on, the commands carry out their operations in any state. Memory stays. (08_gnss_time.md R184, 08_gnss_time.md R188, 08_gnss_time.md R189, 08_gnss_time.md R190, 08_gnss_time.md R191, 08_gnss_time.md R192) -/
def Obligations.ReceiverAcquiresAndTracks : Prop :=
  ∀ (s : State) (n slip cp peak seq : Nat) (ts : Time) (dop v : Word) (l p : List Word), n < 192 →
    (s.gateOn 8 = true → bit v 0 = true → s.flag R.gnCtrlEn = true → s.flag R.gnAcqstatBusy = false → acqOk (plainWrite s R.gnAcqctrl v) = true →
      ∃ t, exec (.acqGo v) s = .next t ∧ t.flag R.gnAcqstatBusy = true ∧
        t.gn.acqEnd = (s.time.dev / 1000000 + 1 + acqLength (plainWrite s R.gnAcqctrl v)) * 1000000 ∧ SameMemory s t) ∧
    (s.gateOn 8 = true → bit v 0 = true → s.flag R.gnCtrlEn = true → s.flag R.gnAcqstatBusy = false → acqOk (plainWrite s R.gnAcqctrl v) = false →
      ∃ t, exec (.acqGo v) s = .next t ∧ t.flag R.gnAcqstatBusy = false ∧ t.flag R.gnAcqstatErr = true ∧
        t.gn = s.gn ∧ SameMemory s t) ∧
    (s.gateOn 8 = true → s.flag R.gnAcqstatBusy = true → s.gn.acqEnd < 2 ^ 64 →
      ∃ t, exec (.acqDone cp dop peak ts) s = .next t ∧ t.flag R.gnAcqstatBusy = false ∧ t.flag R.gnAcqstatDone = true ∧
        t.rd64 R.gnAcqtsLo = ts % 18446744073709551616 ∧ t.rd R.gnAcqdop = dop ∧ t.flag ⟨R.gnIrqStat, 1, 1⟩ = true ∧
        t.time.dev ≥ s.gn.acqEnd ∧ SameMemory s t) ∧
    (s.gateOn 8 = true → s.flag R.gnCtrlEn = true → s.flag (R.gnChctrlEn n) = false →
      channelErr (s.chSig n) (s.get (R.gnChctrlTint n)) (s.get (R.gnChctrlArms n)) = 0 →
      ∃ t, exec (.channelEnable n) s = .next t ∧
        (if s.rd64 (R.gnChloadtsLo n) < s.time.dev + 10000
          then t.get (R.gnChstatErr n) = 2 ∧ t.flag (R.gnChctrlEn n) = false
          else t.get (R.gnChstatErr n) = 0 ∧ t.flag (R.gnChctrlEn n) = true ∧ t.flag (R.gnChstatRun n) = true ∧
            (t.gnCh n).carrPh = 0) ∧ SameMemory s t) ∧
    (s.gateOn 8 = true → ∃ t, exec (.channelDisable n) s = .next t ∧ t.flag (R.gnChctrlEn n) = false ∧ t.flag (R.gnChstatRun n) = false ∧
      SameRegs [R.gnChctrl n, R.gnChstat n] s t ∧ SameMemory s t) ∧
    (s.gateOn 8 = true → s.flag (R.gnChstatRun n) = true → (s.gnCh n).code ≠ 0 →
      ∃ t, exec (.channelDump n ts l p) s = .next t ∧ t.rd (R.gnChdseq n) = s.rd (R.gnChdseq n) + 1 ∧
        t.rd (R.gnChdseq2 n) = s.rd (R.gnChdseq2 n) + 1 ∧ t.rd64 (R.gnChdtsLo n) = ts % 18446744073709551616 ∧
        t.flag (State.bitAt (R.gnDumpmask 0) n) = true ∧ (t.gnCh n).unacked = true ∧ (t.gnCh n).pend = none ∧
        ((s.gnCh n).unacked = true → t.flag (R.gnChstatOvr n) = true ∧ t.rd (R.gnChmiss n) = s.rd (R.gnChmiss n) + 1) ∧
        ((s.gnCh n).unacked = false → t.flag (R.gnChstatOvr n) = s.flag (R.gnChstatOvr n) ∧
          t.rd (R.gnChmiss n) = s.rd (R.gnChmiss n)) ∧ t.gn.dumped = true ∧ SameMemory s t) ∧
    (s.gateOn 8 = true → s.gn.dumped = true →
      ∃ t, exec .dumpInterrupt s = .next t ∧ t.flag ⟨R.gnIrqStat, 0, 1⟩ = true ∧ t.gn.dumped = false ∧ SameMemory s t) ∧
    (s.gateOn 8 = true → ∃ t, exec (.ncoCommit n slip) s = .next t ∧ t.regs = s.regs ∧
      (t.gnCh n).pend = some ((s.rd (R.gnChcode n)).toNat, shadowCarrier s n, slip % 16) ∧ SameMemory s t) ∧
    (s.gateOn 8 = true → exec (.dumpAck n (s.rd (R.gnChdseq n)).toNat) s =
      .next (s.setGnCh n { s.gnCh n with unacked := false })) ∧
    (s.gateOn 8 = true → s.flag R.gnCtrlEn = true →
      ∃ t, exec .measLatch s = .next t ∧ t.rd R.gnMeasseq = s.rd R.gnMeasseq + 1 ∧
        (s.flag (R.gnChstatRun n) = true → t.rd (R.gnChmseq n) = t.rd R.gnMeasseq) ∧
        (s.flag (R.gnChstatRun n) = false → t.rd (R.gnChmseq n) = s.rd (R.gnChmseq n)) ∧
        t.flag ⟨R.gnIrqStat, 2, 1⟩ = true ∧ SameMemory s t) ∧
    (s.gateOn 8 = true → exec (.acqGo v) s = .next (acqWrite s v) ∧
      (s.flag R.gnCtrlEn = true → s.flag (R.gnChctrlEn n) = false → exec (.channelEnable n) s = .next (channelEnable s n).1) ∧
      exec (.channelDisable n) s = .next (channelDisable s n) ∧
      (s.flag (R.gnChstatRun n) = true → (s.gnCh n).code ≠ 0 → exec (.channelDump n ts l p) s = .next (channelDump s n ts l p)) ∧
      exec (.ncoCommit n slip) s = .next (ncoCommit s n slip) ∧ exec (.dumpAck n seq) s = .next (dumpAck s n seq))

/-- A feed short latches ANT_SHORT, fires source 199 and logs event 0x0C02; a retry that does not limit and ACLR clear it; a current below 3 mA sets ANT_OPEN. A decoded message that passed its check goes to the navigation ring under the next number and fires 201; one that failed is counted. A sound frame of the chosen correction source counts as accepted and sets the age; any other CRC counts as a failure; when the age runs out, event 0x0C0B is logged once. A fix takes the oldest latch, shows the AGC gains and leaves memory outside the rings alone; with the service off it shows the gains and drops the latches. (08_gnss_time.md R182, 08_gnss_time.md R193, 08_gnss_time.md R194, 08_gnss_time.md R195, 08_gnss_time.md R198) -/
def Obligations.PositionServiceRuns : Prop :=
  ∀ (s : State) (mA sig prn typ len src fix drift sc : Nat) (ts : Time) (lim ok : Bool) (data b : List Byte) (ob : GnObs)
      (pl : Nat × Nat × Nat) (sg vel : List F32) (res : List (Nat × Nat × F32)) (jump err : Int) (utc : Option (Nat × Nat)),
    (s.flag R.gnCtrlBias = true → s.flag R.gnStatAntShort = false →
      ∃ t, exec (.antennaShort mA) s = .next t ∧ t.flag R.gnStatAntShort = true ∧ t.flag ⟨R.gnIrqStat, 7, 1⟩ = true ∧
        (Room s 1 → t.ev.intake = s.ev.intake ++ [eventOf 0x0C02 (leBytes 2 mA)]) ∧ SameMemory s t) ∧
    (s.flag R.gnCtrlBias = true → s.flag R.gnStatAntShort = true →
      ∃ t, exec (.antennaRetry lim) s = .next t ∧ t.flag R.gnStatAntShort = lim ∧ t.now = max s.now (s.gn.retryAt + sec 10) ∧
        SameMemory s t) ∧
    (s.flag R.gnCtrlBias = true →
      ∃ t, exec (.antennaOpen mA) s = .next t ∧ t.flag R.gnStatAntOpen = decide (mA < 3) ∧
        (Room s 1 → mA < 3 → t.ev.intake = s.ev.intake ++ [eventOf 0x0C01 (leBytes 2 mA)]) ∧ SameMemory s t) ∧
    (∃ t, exec .antennaClear s = .next t ∧ t.flag R.gnStatAntShort = false ∧ SameRegs [R.gnStat] s t ∧ SameMemory s t) ∧
    (s.gateOn 8 = true → sig ≤ 5 → positionRuns s = true →
      ∃ t, exec (.navMessage sig prn typ ts len data true none) s = .next t ∧ t.gn.navSeq = (s.gn.navSeq + 1) % 4294967296 ∧
        t.mem.readBytes (navRing + 128 * (s.gn.navSeq % 256)) 128 = navEntry (s.gn.navSeq + 1) sig prn typ ts len data ∧
        (∀ a, a < navRing + 128 * (s.gn.navSeq % 256) ∨ navRing + 128 * (s.gn.navSeq % 256) + 128 ≤ a →
          t.mem.read a = s.mem.read a) ∧ t.flag ⟨R.gnIrqStat, 9, 1⟩ = true) ∧
    (s.gateOn 8 = true → sig ≤ 5 → positionRuns s = true →
      ∃ t, exec (.navMessage sig prn typ ts len data false none) s = .next t ∧ t.regs = s.regs ∧
        t.gn.fails = s.gn.fails.set sig ((s.gn.fails.getD sig 0 + 1) % 4294967296) ∧ SameMemory s t) ∧
    (s.appServing = true → src = s.objN 0x2600 0x07 → src ≠ 0 → (b.getD 0 0) = 0xD3 → b.length = beAt b 1 2 % 1024 + 6 →
      ∃ t, exec (.rtcmFrame src b) s = .next t ∧ SameMemory s t ∧
        (if crc24q (b.take (b.length - 3)) ≠ beAt b (b.length - 3) 3
          then t.gn.corrs = s.gn.corrs.set 1 ((s.gn.corrs.getD 1 0 + 1) % 4294967296)
          else if beAt b 3 2 / 16 = 1005
          then t.gn.corrs = s.gn.corrs.set 0 ((s.gn.corrs.getD 0 0 + 1) % 4294967296) ∧ t.gn.corrAt = some s.now ∧ t.gn.corrOld = false
          else True)) ∧
    (s.appServing = true → s.objN 0x2600 0x07 ≠ 0 → s.gn.corrOld = false →
      ∃ t, exec .correctionsOld s = .next t ∧ t.gn.corrOld = true ∧ t.regs = s.regs ∧
        t.now = max s.now (s.gn.corrAt.getD 0 + sec (s.objN 0x2600 0x0A)) ∧
        (Room s 1 → t.ev.intake = s.ev.intake ++ [eventOf 0x0C0B (leBytes 1 (s.objN 0x2600 0x07))]) ∧ SameMemory s t) ∧
    (s.gateOn 8 = true → positionRuns s = true → s.objN 0x2600 0x06 ≠ 0 → s.gn.latches = ts :: s.gn.latches.tail →
      ∃ t, exec (.positionFix fix ob pl sg vel res drift jump err sc) s = .next t ∧ t.gn.latches = s.gn.latches.tail ∧
        t.get R.gnAgcGainL1 = ob.gains.getD 0 0 % 256 ∧ SameOutsideRings s t) ∧
    (s.gateOn 8 = true → positionRuns s = true → s.objN 0x2600 0x06 ≠ 0 → s.gn.latches = [] →
      exec (.positionFix fix ob pl sg vel res drift jump err sc) s = .next (agcReport s ob.gains)) ∧
    (s.gateOn 8 = true → (positionRuns s = false ∨ s.objN 0x2600 0x06 = 0) →
      ∃ t, exec (.positionFix fix ob pl sg vel res drift jump err sc) s = .next t ∧ t.gn = { s.gn with latches := [] } ∧
        t.regs = (agcReport s ob.gains).regs ∧ SameMemory s t) ∧
    exec .antennaClear s = .next (antennaClear s) ∧
    (s.gateOn 8 = true → sig ≤ 5 → positionRuns s = true →
      ∃ t, exec (.navMessage sig prn typ ts len data ok utc) s = .next t ∧
        t.gn.navSeq = (if ok then (s.gn.navSeq + 1) % 4294967296 else s.gn.navSeq)) ∧
    (s.appServing = true → exec (.rtcmFrame src b) s = .next (rtcmFrame (rtcmForward s src b) src b))

/-- With the lock conditions met at the next whole second, device time becomes LOCKED; 2 s after the last checked fix LOCKED becomes HOLDOVER, and when the holdover limit passes HOLDOVER becomes FREERUN; each change fires source 195; without the conditions nothing but time changes. A time pulse leaves its output at its next grid instant exactly if enabled and gated. An edge of the pulse input is counted, its instant kept in steps of 5 ns, and source 198 fired. (08_gnss_time.md R201, 08_gnss_time.md R207, 08_gnss_time.md R208) -/
def Obligations.DeviceTimeChangesQuality : Prop :=
  ∀ (s : State) (k : Nat) (f ts : Time),
    (let u := s.devTo (nextSecond s.time.dev)
     timeState s ≠ 2 → lockReady u = true →
      ∃ t, exec .timeLocked s = .next t ∧ timeState t = 2 ∧ t.now = u.now ∧ t.time.dev = u.time.dev ∧
        t.flag ⟨R.gnIrqStat, 3, 1⟩ = true ∧ SameOutsideRings s t) ∧
    (timeState s ≠ 2 → lockReady (s.devTo (nextSecond s.time.dev)) = false → exec .timeLocked s = .next s) ∧
    (timeState s = 2 → s.time.fixAt = some f →
      ∃ t, exec .timeHoldover s = .next t ∧ timeState t = 3 ∧ t.now = max s.now (f + sec 2) ∧
        t.flag ⟨R.gnIrqStat, 3, 1⟩ = true ∧ SameOutsideRings s t) ∧
    (timeState s = 3 →
      ∃ t, exec .timeFreerun s = .next t ∧ timeState t = 4 ∧ t.now = max s.now (s.time.uncAt + sec (s.objN 0x2680 0x04)) ∧
        t.flag ⟨R.gnIrqStat, 3, 1⟩ = true ∧ SameOutsideRings s t) ∧
    (k < 2 → tpoNext s k < 2 ^ 64 → (k = 1 ∨ tpoNext s k % 1000000000 ≠ 0) →
      ∃ t, exec (.tpoPulse k) s = .next t ∧ t.time.dev = max s.time.dev (tpoNext s k) ∧
        t.out = (if bit (tpoAt s k (tpoNext s k)).1 0 ∧ tpoGate s (bits (tpoAt s k (tpoNext s k)).1 2 2) = true
          then .pulse k (tpoNext s k) :: s.out else s.out) ∧ t.regs = s.regs ∧ SameMemory s t) ∧
    (tpoNext s 0 < 2 ^ 64 →
      ∃ t, exec (.tpoPulse 0) s = .next t ∧ t.time.dev = max s.time.dev (tpoNext s 0) ∧
        (bit (tpoAt s 0 (tpoNext s 0)).1 0 = true → bits (tpoAt s 0 (tpoNext s 0)).1 2 2 = 0 →
          t.out.head? = some (.pulse 0 (tpoNext s 0))) ∧ SameOutsideRings s t) ∧
    (timeState s = 2 → s.time.fixAt = none → exec .timeHoldover s = .next (setTimeState s 3)) ∧
    (s.flag ⟨R.gnTpictrl, 0, 1⟩ = true →
      ∃ t, exec (.tpiEdge ts) s = .next t ∧ t.rd R.gnTpicnt = s.rd R.gnTpicnt + 1 ∧
        t.rd64 R.gnTpitsLo = ts / 5 * 5 % 18446744073709551616 ∧ t.flag ⟨R.gnIrqStat, 6, 1⟩ = true ∧ SameOutsideRings s t)

/-- A slew above 100,000 ns is refused with STEP_ERR; a smaller one replaces the remaining amount, and its end leaves none. A step is armed unless one is pending or, from LOCKED on, it is 100 µs or less; then it is refused with STEP_ERR. CANCEL withdraws it before STEP_PEND. The whole second after arming sets STEP_PEND, fires 196 and logs 0x0C04; at the whole second after that device time takes the amount, STEP_PEND clears and 197 fires. A write of device time is armed as a step in UNSET and RTC and refused with STATE elsewhere. The commands carry out their operations in any state. (08_gnss_time.md R206, 08_gnss_time.md R209, 08_gnss_time.md R210) -/
def Obligations.DeviceTimeSlewsAndSteps : Prop :=
  ∀ (s : State) (v : Word) (d : Time),
    ((int32 v).natAbs > 100000 →
      exec (.slewWrite v) s = .next (s.set R.gnTqStepErr 1)) ∧
    ((int32 v).natAbs ≤ 100000 →
      ∃ t, exec (.slewWrite v) s = .next t ∧ t.time.slewLeft = int32 v ∧ t.flag R.gnTqSlew = (int32 v != 0) ∧ SameMemory s t) ∧
    (s.flag R.gnTqSlew = true →
      ∃ t, exec .slewEnd s = .next t ∧ t.time.slewLeft = 0 ∧ t.flag R.gnTqSlew = false ∧
        t.now = s.now + s.time.slewLeft.natAbs * 100000 ∧ (2 ≤ timeState s → SameMemory s t)) ∧
    (s.flag R.gnTqStepPend = true ∨ (timeState s ≥ 2 ∧ (int64 (s.rd64 R.gnTstepLo)).natAbs ≤ 100000) →
      exec .stepArm s = .next (s.set R.gnTqStepErr 1)) ∧
    (s.flag R.gnTqStepPend = false → timeState s < 2 ∨ (int64 (s.rd64 R.gnTstepLo)).natAbs > 100000 →
      ∃ t, exec .stepArm s = .next t ∧ t.flag R.gnTqStepArm = true ∧ t.time.stepAmt = int64 (s.rd64 R.gnTstepLo) ∧
        t.time.stepAt = nextSecond s.time.dev ∧ SameRegs [R.gnTq] s t ∧ SameMemory s t) ∧
    (s.flag R.gnTqStepPend = false → exec .stepCancel s = .next (s.set R.gnTqStepArm 0)) ∧
    (s.flag R.gnTqStepArm = true → s.flag R.gnTqStepPend = false →
      ∃ t, exec .stepPending s = .next t ∧ t.flag R.gnTqStepPend = true ∧ t.flag R.gnTqStepArm = false ∧
        t.time.stepAmt = s.time.stepAmt ∧ t.flag ⟨R.gnIrqStat, 4, 1⟩ = true ∧
        (Room s 1 → t.ev.intake = s.ev.intake ++ [eventOf 0x0C04 (stepMicros s)]) ∧ SameMemory s t) ∧
    (s.flag R.gnTqStepPend = true →
      ∃ t, exec .timeStepExecute s = .next t ∧ t.flag R.gnTqStepPend = false ∧ t.flag R.gnTqSlew = false ∧
        t.time.slewLeft = 0 ∧ t.time.dev = shiftTime s.time.stepAmt (s.devTo s.time.stepAt).time.dev ∧
        t.flag ⟨R.gnIrqStat, 5, 1⟩ = true) ∧
    (let u := (Sys2Proof.Machine.stepArm s ((d : Int) - s.time.dev) true).1
     Serves s → d < 18446744073709551616 → timeState s ≤ 1 → s.flag R.gnTqStepPend = false →
      exec (.timeWrite d) s = .next (accepted u 0x2680 0x02 .time64 (.num d)) ∧ u.flag R.gnTqStepArm = true ∧ u.time.byWrite = true ∧
        u.time.stepAmt = (d : Int) - s.time.dev ∧ u.time.stepAt = nextSecond s.time.dev ∧ SameMemory s u) ∧
    (Serves s → d < 18446744073709551616 → timeState s > 1 → exec (.timeWrite d) s = .next (refused s St.state)) ∧
    exec (.slewWrite v) s = .next (slewWrite s (int32 v)).1 ∧
    exec .stepArm s = .next (stepArm s (int64 (s.rd64 R.gnTstepLo)) false).1 ∧
    exec .stepCancel s = .next (stepCancel s) ∧
    (s.flag R.gnTqStepPend = true → exec .timeStepExecute s = .next (timeStep s))

/-- Writing 1 to the governor enable turns it on and 0 turns it off; 2 to 255 are refused with RANGE. While real-time pair 1 runs, a tick is counted at the next 100 ms instant; in the Pavilion role it does nothing else. At the end of its freeze a frozen function inside its envelope is READY, outside it OUTSIDE, with its settle instant at the end of the freeze. A settle instant that has come only waits for its tick where the function has no trial. A window that is being measured ends at its tick, after the ticks before it. Registers and memory stay where the governor moves no function. (09_governor.md R213, 09_governor.md R217, 09_governor.md R221, 09_governor.md R223, 09_governor.md R228, 09_governor.md R234) -/
def Obligations.GovernorActsInTicks : Prop :=
  ∀ (s : State) (m v e : Nat),
    (let u := (Sys2Proof.Machine.governorEnable s v).1
     Serves s → v ≤ 1 → exec (.governorEnable v) s = .next (accepted u 0x2780 0x01 .u8 (.num v))) ∧
    (v ≤ 1 → (Sys2Proof.Machine.governorEnable s v).1.objN 0x2780 0x01 = v) ∧
    (v ≤ 1 → SameMemory s (Sys2Proof.Machine.governorEnable s v).1) ∧
    (Serves s → 2 ≤ v → v < 256 → exec (.governorEnable v) s = .next (refused s St.range)) ∧
    (s.serving = true → s.rtRuns 1 = true → s.hearth = false → exec .governorTick s =
      .next { s.devTo (govInstant s) with gov := { s.gov with last := some (govInstant s), tick := s.gov.tick + 1 } }) ∧
    (s.serving = true → s.rtRuns 1 = true →
      ∃ t, exec .governorTick s = .next t ∧ t = govTick s ∧ t.gov.tick = s.gov.tick + 1 ∧ t.gov.last = some (govInstant s) ∧
        SameMemory s t) ∧
    (s.serving = true → s.rtRuns 1 = true → m < 48 → (s.govFn m).state = 4 → (s.govFn m).freezeEnd ≤ s.gov.tick →
      ∃ t, exec (.freezeEnd m) s = .next t ∧
        (t.govFn m).state = (if inEnvelope s m (s.govFn m).present then 1 else 5) ∧
        (t.govFn m).settle = (s.govFn m).freezeEnd ∧ t.gov.tick = s.gov.tick ∧ SameMemory s t) ∧
    (s.serving = true → s.rtRuns 1 = true → m < 48 → (s.govFn m).state ≠ 4 → (s.govFn m).moving = false →
      s.gov.tick = (s.govFn m).settle → s.gov.trial ≠ some m →
      exec (.settleInstant m) s = .next (s.devTo (govInstant s))) ∧
    (s.serving = true → s.rtRuns 1 = true → s.gov.winEnd = some e →
      ∃ t, exec .governorWindowEnd s = .next t ∧ t = govTick (govPass s e) ∧ t.gov.tick = max s.gov.tick e + 1 ∧
        SameMemory s t) ∧
    (let u := govPass s (s.govFn m).freezeEnd
     s.serving = true → s.rtRuns 1 = true → m < 48 → (s.govFn m).state = 4 →
      exec (.freezeEnd m) s = .next (fnThawDue (u.devTo (govInstant u)) m)) ∧
    (let u := govPass s (s.govFn m).settle
     let w := u.devTo (govInstant u)
     s.serving = true → s.rtRuns 1 = true → m < 48 → (s.govFn m).state ≠ 4 → (s.govFn m).moving = false →
      s.gov.tick ≤ (s.govFn m).settle →
      exec (.settleInstant m) s =
        .next (if w.gov.active ∧ w.gov.trial = some m ∧ w.gov.phase = 1 then search w (govInstant w) false else w))

/-- On a Hearth, writing a task number opens that task and writing 0 closes it; a number that exists reopens it with its cells. A 0-to-1 write of Recording starts a new pass. Deletion and export of an open task are refused with STATE, of an unknown one too; a closed one is deleted, or its export begins and its end is reported as done or failed with event 0x0E03. A Pavilion refuses all of these. A changed tile of the open task is sent, at most once in 10 s; a tile from another machine is merged, its sub-bits joined to those of the task, and one with another cell size or origin is refused and counted. (10_parterre_gatehouse.md R240, 10_parterre_gatehouse.md R243, 10_parterre_gatehouse.md R244, 10_parterre_gatehouse.md R245) -/
def Obligations.TasksAndTilesAreKept : Prop :=
  ∀ (s : State) (n : Nat) (i j : Int) (b : List Byte) (x : Task) (ok : Bool), n < 4294967296 →
    (let u := Sys2Proof.Machine.taskOpen s n
     Serves s → s.hearth = true → n ≠ 0 → exec (.taskOpen n) s = .next (accepted u 0x2800 0x09 .u32 (.num n))) ∧
    (s.par.task ≠ n → n ≠ 0 →
      (Sys2Proof.Machine.taskOpen s n).par.task = n ∧
        (Tbl.get s.par.tasks none n = some x → Tbl.get (Sys2Proof.Machine.taskOpen s n).par.tasks none n = some x)) ∧
    (let u := Sys2Proof.Machine.taskClose s
     Serves s → s.hearth = true → exec .taskClose s = .next (accepted u 0x2800 0x09 .u32 (.num 0))) ∧
    (Sys2Proof.Machine.taskClose s).par.task = 0 ∧
    (let u := (recordingWrite s 1).1
     Serves s → s.hearth = true → exec .recordingStart s = .next (accepted u 0x2800 0x0A .u8 (.num 1))) ∧
    (s.hearth = true → s.par.task ≠ 0 → s.par.recording = false → Tbl.get s.par.tasks none s.par.task = some x →
      (recordingWrite s 1).1.par.recording = true ∧
        (Tbl.get (recordingWrite s 1).1.par.tasks none s.par.task).map (·.pass) = some (min (x.pass + 1) 65535)) ∧
    (Serves s → s.hearth = false → exec (.taskOpen n) s = .next (refused s St.state) ∧
      exec .taskClose s = .next (refused s St.state) ∧ exec .recordingStart s = .next (refused s St.state) ∧
      exec (.taskDelete n) s = .next (refused s St.state) ∧ exec (.taskExport n) s = .next (refused s St.state)) ∧
    (Serves s → s.hearth = true → n ≠ 0 → n ≠ s.par.task → Tbl.get s.par.tasks none n = none →
      exec (.taskDelete n) s = .next (refused s St.state)) ∧
    (Serves s → s.hearth = true → n ≠ 0 → n ≠ s.par.task → Tbl.get s.par.tasks none n = some x → s.par.exportTask ≠ none →
      exec (.taskExport n) s = .next (refused s St.busy)) ∧
    (Serves s → s.hearth = true → n ≠ 0 → n = s.par.task → exec (.taskDelete n) s = .next (refused s St.state)) ∧
    (let u := (Sys2Proof.Machine.taskDelete s n).1
     Serves s → s.hearth = true → n ≠ 0 → n ≠ s.par.task → Tbl.get s.par.tasks none n = some x →
      exec (.taskDelete n) s = .next (accepted u 0x2800 0x0E .u32 (.num n))) ∧
    (s.hearth = true → n ≠ 0 → n ≠ s.par.task → Tbl.get s.par.tasks none n = some x →
      Tbl.get (Sys2Proof.Machine.taskDelete s n).1.par.tasks none n = none) ∧
    (Serves s → s.hearth = true → n ≠ 0 → n = s.par.task ∨ Tbl.get s.par.tasks none n = none →
      exec (.taskExport n) s = .next (refused s St.state)) ∧
    (Serves s → s.hearth = true → n ≠ 0 → n ≠ s.par.task → Tbl.get s.par.tasks none n = some x → s.par.exportTask = none →
      exec (.taskExport n) s =
        .next (accepted { s with par := { s.par with exportTask := some n, exportState := 1 } } 0x2800 0x0C .u32 (.num n))) ∧
    (s.appServing = true → s.par.exportTask = some n →
      ∃ t, exec (.exportEnd ok) s = .next t ∧ t.par.exportTask = none ∧ t.par.exportState = (if ok then 2 else 3) ∧
        (Room s 1 → t.ev.intake = s.ev.intake ++ [eventOf 0x0E03 (d32 n ++ d8 (if ok then 2 else 3))]) ∧ SameMemory s t) ∧
    (s.appServing = true → openTask s = some x → s.objN 0x2800 0x10 = 1 → s.activeHearth = true →
      (x.tile (pairKey i j)).dirty = true → (∀ a, (x.tile (pairKey i j)).sentAt = some a → a + sec 10 ≤ s.now) →
      ∃ t, exec (.tileShare i j) s = .next t ∧
        ((openTask t).map fun y => ((y.tile (pairKey i j)).dirty, (y.tile (pairKey i j)).sentAt)) = some (false, some s.now)) ∧
    (s.appServing = true → openTask s = some x → 1 ≤ natAt b 44 1 → natAt b 44 1 ≤ 16 → b.length = 52 + 8 * natAt b 44 1 + 65536 →
      (natAt b 24 2 ≠ cellSize s ∨ [natAt b 0 8, natAt b 8 8, natAt b 16 8] ≠ x.origin.take 3) → x.origin.length = 3 →
      ∃ t, exec (.remoteTileMerge b) s = .next t ∧ t.par.refused = s.par.refused + 1 ∧ t.par.tasks = s.par.tasks ∧
        (Room s 1 → t.ev.intake = s.ev.intake ++ [eventOf 0x0E04 (d40 (natAt b 52 8))]) ∧ SameMemory s t) ∧
    (s.appServing = true → openTask s = some x → 1 ≤ natAt b 44 1 → natAt b 44 1 ≤ 16 → b.length = 52 + 8 * natAt b 44 1 + 65536 →
      natAt b 24 2 = cellSize s → x.origin = [natAt b 0 8, natAt b 8 8, natAt b 16 8] → n < 4096 →
      ∃ t, exec (.remoteTileMerge b) s = .next t ∧ SameMemory s t ∧
        (openTask t).map (fun y => (tileCell y (intAt b 28) (intAt b 32) n).sub) =
          some (BitVec.ofNat 64 (tileCell x (intAt b 28) (intAt b 32) n).sub |||
            BitVec.ofNat 64 (natAt b (52 + 8 * natAt b 44 1 + 16 * n) 8)).toNat) ∧
    (s.appServing = true → exec (.remoteTileMerge b) s = .next (tileMerge s b))

/-- A submitted command is refused with RESULT 1 for a full queue, 2 for its channel, 3 for its epoch and 4 as stale, counted; ACTION 3 submits nothing with RESULT 5. An on or off command that is not late beyond LATE_MAX joins the queue with RESULT 0. At a frame boundary the command of the earliest instant that has come executes and is counted, with the boundary and its error. FLUSH, EN = 0 and a higher epoch remove commands, count them as flushed and log event 0x0E08 with their cause; a lower epoch is ignored. A mode of 3 to 255 is refused with RANGE, any mode in the Pavilion role with STATE; a decision tick comes at the next 10 ms instant, and with no pose to predict from it enters the fallback with its event. (10_parterre_gatehouse.md R247, 10_parterre_gatehouse.md R249, 10_parterre_gatehouse.md R250, 10_parterre_gatehouse.md R251, 10_parterre_gatehouse.md R252, 10_parterre_gatehouse.md R253) -/
def Obligations.SectionsAreTimed : Prop :=
  ∀ (s : State) (ts issue k v : Nat) (w : Word) (c : GhCmd),
    (let u := (s.wr64 R.ghTsLo ts).wr R.ghIssue (BitVec.ofNat 32 issue)
     ghRefusal u (ghCommand u w) (bits w 0 2) ≠ 0 →
      ∃ t, exec (.ghCommandSubmit ts issue w) s = .next t ∧
        t.get R.ghResResult = ghRefusal u (ghCommand u w) (bits w 0 2) ∧ t.gh = s.gh ∧
        t.rd R.ghNstale = s.rd R.ghNstale + (if ghRefusal u (ghCommand u w) (bits w 0 2) = 4 then 1 else 0) ∧
        SameMemory s t) ∧
    (let u := (s.wr64 R.ghTsLo ts).wr R.ghIssue (BitVec.ofNat 32 issue)
     s.gh.queue = [] → 1 ≤ bits w 0 2 → ghRefusal u (ghCommand u w) (bits w 0 2) = 0 →
      s.time.dev ≤ (ghCommand u w).ts + us (s.get R.ghLateLateMax) →
      ∃ t, exec (.ghCommandSubmit ts issue w) s = .next t ∧ t.get R.ghResResult = 0 ∧
        t.gh.queue = [{ ghCommand u w with late := decide ((ghCommand u w).ts < s.time.dev) }] ∧
        t.get R.ghStatOcc = 1 ∧ SameMemory s t) ∧
    (ghEarliest s.gh.queue = some c → s.flag R.ghCtrlEn = true → c.fresh = false → c.ts ≤ s.ce.lastBoundary →
      ∃ t, exec .ghCommandExecute s = .next t ∧ (s.flag R.ghStatSync = false → t.flag R.ghStatUnsync = true) ∧ t.gh.queue = s.gh.queue.erase c ∧ t.rd R.ghNexec = s.rd R.ghNexec + 1 ∧
        (c.late = true → t.rd R.ghNlate = s.rd R.ghNlate + 1) ∧ (c.late = false → t.rd R.ghNlate = s.rd R.ghNlate) ∧
        t.rd R.ghLasterr = BitVec.ofNat 32 (s.ce.lastBoundary - c.ts) ∧ SameMemory s t) ∧
    (s.gh.queue ≠ [] → s.gh.queue.length ≤ 256 →
      ∃ t, exec .ghFlush s = .next t ∧ t.gh.queue = [] ∧ t.get R.ghStatOcc = 0 ∧
        t.rd R.ghNflush = s.rd R.ghNflush + BitVec.ofNat 32 s.gh.queue.length ∧
        (Room s 1 → t.ev.intake = s.ev.intake ++ [eventOf 0x0E08 (d8 3 ++ d16 s.gh.queue.length)]) ∧ SameMemory s t) ∧
    (s.gh.queue = [] → exec .ghFlush s = .next s) ∧
    (s.gh.queue ≠ [] → s.gh.queue.length ≤ 256 →
      ∃ t, exec .ghDisable s = .next t ∧ t.flag R.ghCtrlEn = false ∧ t.gh.queue = [] ∧
        (Room s 1 → t.ev.intake = s.ev.intake ++ [eventOf 0x0E08 (d8 4 ++ d16 s.gh.queue.length)]) ∧ SameMemory s t) ∧
    (v ≤ 65535 → s.get R.ghEpochEpoch < v →
      ∃ t, exec (.ghEpochWrite v) s = .next t ∧ t.get R.ghEpochEpoch = v ∧
        t.gh.queue = s.gh.queue.filter (fun q => !decide (q.epoch < v)) ∧ SameMemory s t) ∧
    (v ≤ s.get R.ghEpochEpoch → exec (.ghEpochWrite v) s = .next s) ∧
    (let u := (sectionMode s k v).1
     Serves s → k < 128 → v ≤ 2 → s.hearth = true → exec (.sectionModeWrite k v) s = .next (accepted u (0x2880 + k) 0x0C .u8 (.num v))) ∧
    (k < 128 → v ≤ 2 → s.hearth = true → (sectionMode s k v).1.objN (0x2880 + k) 0x0C = v) ∧
    (Serves s → k < 128 → 3 ≤ v → v < 256 → exec (.sectionModeWrite k v) s = .next (refused s St.range)) ∧
    (Serves s → k < 128 → v ≤ 2 → s.hearth = false → exec (.sectionModeWrite k v) s = .next (refused s St.state)) ∧
    (s.serving = true → s.rtRuns 1 = true → s.activeHearth = false →
      exec .gatehouseTick s = .next { s.devTo (gridNext (ms 10) s.gate.last s.time.dev) with
        gate := { s.gate with last := some (gridNext (ms 10) s.gate.last s.time.dev) } }) ∧
    (s.serving = true → s.rtRuns 1 = true → s.activeHearth = true → motionOf s = none → poseLost s = true →
      s.gate.fallback = false → s.gate.sects = [] → s.objN 0x2800 0x24 = 0 → Room s 1 →
      ∃ t, exec .gatehouseTick s = .next t ∧ t.gate.last = some (gridNext (ms 10) s.gate.last s.time.dev) ∧
        t.gate.fallback = true ∧ t.ev.intake.length = s.ev.intake.length + 1 ∧ t.regs = s.regs ∧ SameMemory s t) ∧
    (let t0 := gridNext (ms 10) s.gate.last s.time.dev
     s.serving = true → s.rtRuns 1 = true → s.activeHearth = true → exec .gatehouseTick s =
      .next (gateTick { s.devTo t0 with gate := { s.gate with last := some t0 } } t0)) ∧
    (let u := (s.wr64 R.ghTsLo ts).wr R.ghIssue (BitVec.ofNat 32 issue)
     exec (.ghCommandSubmit ts issue w) s = .next (ghSubmit u (ghCommand u w) (bits w 0 2))) ∧
    exec .ghDisable s = .next (ghDisable s)

/-- On a Hearth a write of 1 to the engage object requests engagement unless the service is engaged, a write of 0 requests release, 2 to 255 are refused with RANGE; a Pavilion refuses it with STATE. In STANDBY a request with a failing condition is refused at the next tick: it is gone, counted, and event 0x0F03 carries the failing bits. A released, engaged service disengages at the next tick with cause 1. Bad line geometry is refused with RANGE and event 0x0F04, any in the Pavilion role taken alike. With its watch time over, the watched loops are put in MANUAL at 0 and event 0x0F05 is logged. (11_steering.md R255, 11_steering.md R257, 11_steering.md R263, 11_steering.md R264, 11_steering.md R266, 11_steering.md R267) -/
def Obligations.SteeringEngagesAndDisengages : Prop :=
  ∀ (s : State) (v : Nat) (b : List Byte) (n : Nat),
    (Serves s → s.hearth = true → v = 1 → s.steer.state ≠ 2 →
      exec (.engageRequest v) s = .next (accepted (s.setSteer { s.steer with request := true }) 0x2900 0x02 .u8 (.num 1))) ∧
    (Serves s → s.hearth = true → v = 0 →
      exec (.engageRequest v) s = .next (accepted (s.setSteer { s.steer with release := true }) 0x2900 0x02 .u8 (.num 0))) ∧
    (Serves s → s.hearth = true → v = 1 → s.steer.state = 2 →
      exec (.engageRequest v) s = .next (accepted s 0x2900 0x02 .u8 (.num 1))) ∧
    (Serves s → 2 ≤ v → v < 256 → exec (.engageRequest v) s = .next (refused s St.range)) ∧
    (Serves s → s.hearth = false → v ≤ 1 → exec (.engageRequest v) s = .next (refused s St.state)) ∧
    (let t0 := gridNext (ms 20) s.steer.last s.time.dev
     let u := (s.devTo t0).setSteer { s.steer with last := some t0 }
     s.serving = true → s.rtRuns 1 = true → s.hearth = false → exec .steeringTick s = .next u) ∧
    (let t0 := gridNext (ms 20) s.steer.last s.time.dev
     let u := (s.devTo t0).setSteer { s.steer with last := some t0 }
     let f := engageFails u t0 (steerErrors u t0 none)
     s.serving = true → s.rtRuns 1 = true → s.activeHearth = true → s.stN 0x01 = 1 → s.steer.state = 1 → s.steer.first = false →
      s.steer.request = true → f ≠ 0 → Room s 1 →
      ∃ t, exec .steeringTick s = .next t ∧ t.steer.state = 1 ∧ t.steer.request = false ∧ t.steer.values = s.steer.values ∧
        t.ev.intake = s.ev.intake ++ [eventOf 0x0F03 (d16 f)] ∧ t.regs = s.regs ∧ SameMemory s t) ∧
    (s.serving = true → s.rtRuns 1 = true → s.activeHearth = true → s.stN 0x01 = 1 → s.steer.state = 2 → s.steer.first = false →
      s.steer.release = true → s.stN 0x12 ≠ 0 → Room s 1 →
      ∃ t, exec .steeringTick s = .next t ∧ t.steer.state = 1 ∧ t.steer.cause = 1 ∧
        t.ev.intake = s.ev.intake ++ [eventOf 0x0F02 (d8 1)] ∧ SameMemory s t) ∧
    (Serves s → b.length ≤ 4096 → geometryFault (s.stN 0x04) b = none →
      exec (.lineGeometryWrite b) s = .next (accepted (steerTouch (s.setObj 0x2900 0x05 (.bytes b))) 0x2900 0x05 .blob (.bytes b))) ∧
    (Serves s → b.length ≤ 4096 → geometryFault (s.stN 0x04) b = some n →
      exec (.lineGeometryWrite b) s = .next (refused (s.log 0x0F04 (d8 (s.stN 0x04) ++ d16 n)) St.range)) ∧
    (((watchedLoops s).any fun n => !s.flag (R.ceLctrlManual n)) = true →
      ∃ t, exec .steeringWatch s = .next t ∧
        (∀ n ∈ watchedLoops s, t.flag (R.ceLctrlManual n) = true ∧ t.rd (R.ceLmanu n) = 0) ∧
        t.now = max s.now ((watchedLoops s).foldl (fun a n => max a (Tbl.get s.steer.writeAt 0 n)) 0 + ms (s.stN 0x20)) ∧
        SameMemory s t) ∧
    (let t0 := gridNext (ms 20) s.steer.last s.time.dev
     let u := steerPower ((s.devTo t0).setSteer { s.steer with last := some t0 })
     s.serving = true → s.rtRuns 1 = true → s.hearth = true → (u.steer.state = 1 ∨ u.steer.state = 2) →
      exec .steeringTick s = .next (if u.steer.state = 2 then engagedTick u t0 else standbyTick u t0)) ∧
    (let t0 := gridNext (ms 20) s.steer.last s.time.dev
     let u := steerPower ((s.devTo t0).setSteer { s.steer with last := some t0 })
     s.serving = true → s.rtRuns 1 = true → s.hearth = true → u.steer.state = 0 → u.steer.request = false →
      exec .steeringTick s = .next u)

/-- With the fabric clock on: a port that comes up sets LINK, fires 128 and logs 0x1001; one that goes down is counted. HELLO goes out under the next SEQ. A second Hearth's HELLO blocks its port with source 134 and event 0x1005; the first Pavilion gets node ID 16 with its path. An unbound Pavilion is bound by the ASSIGN of a Hearth of a higher epoch or the epoch it holds; a bound one counts the ASSIGN of a stranger; after 1 s of silence it is unbound. A frame of this fabric goes out on the next port of its path with PIDX one higher, a flooded one seen before goes nowhere; any other frame is bridged. A RINGCHK goes out under the next number, and the third missing one or a report heals the ring. A replacement withheld last is pushed the record of a node ID; it is refused with STATE off the active Hearth or with none withheld, and with RANGE for an unknown node ID. (12_fabric_fleet.md R270, 12_fabric_fleet.md R272, 12_fabric_fleet.md R275, 12_fabric_fleet.md R277, 12_fabric_fleet.md R278, 12_fabric_fleet.md R280, 12_fabric_fleet.md R281, 12_fabric_fleet.md R288, 12_fabric_fleet.md R299) -/
def Obligations.FabricDiscoversAndForwards : Prop :=
  ∀ (s : State) (p id up n1 n2 sender serial via vp role vl vh rev gen e a pa b pb us_ sqi : Nat) (pre ok isUp : Bool)
      (path : List Nat) (f : FlueFrame) (g : OtherFrame) (w : Nat × List Nat × Nat) (x : Node) (l : Link), s.gateOn 9 = true → p < 6 →
    (s.flag (R.fbPstatLink p) = false →
      ∃ t, exec (.portLinkChange p true sqi pre) s = .next t ∧ t.flag (R.fbPstatLink p) = true ∧
        t.flag (R.fbPstatPreempt p) = pre ∧ t.flag ⟨R.fbIrqStat, 0, 1⟩ = true ∧
        (Room s 1 → t.ev.intake = s.ev.intake ++ [eventOf 0x1001 (d8 p ++ d8 1)]) ∧ SameMemory s t) ∧
    (s.flag (R.fbPstatLink p) = true →
      ∃ t, exec (.portLinkChange p false sqi pre) s = .next t ∧ t.flag (R.fbPstatLink p) = false ∧
        t.rd (R.fbPlinkdowns p) = s.rd (R.fbPlinkdowns p) + 1 ∧ SameMemory s t) ∧
    (s.portUp p = true → s.hearth = true ∨ s.flag R.fbStatAssigned = false →
      ∃ t, exec (.helloSend p) s = .next t ∧ t.fab.seq = (s.fab.seq + 1) % 4294967296 ∧
        Tbl.get t.fab.helloAt none p = some t.now ∧ t.out.length = s.out.length + 1 ∧
        t.rd (R.fbPtxfrm p) = s.rd (R.fbPtxfrm p) + 1 ∧ SameMemory s t) ∧
    (s.portUp p = true → s.hearth = true → (serial ≠ twinSerial s ∨ serial = 0) → vp < 6 → up < 6 →
      ∃ t, exec (.helloReceive p via vp up serial 1 vl vh rev gen e n1) s = .next t ∧ p ∈ t.fab.foreign ∧
        t.get (R.fbPstatRole p) = 2 ∧ t.flag ⟨R.fbIrqStat, 6, 1⟩ = true ∧ t.fab.nodes = s.fab.nodes ∧
        (Room s 1 → t.ev.intake = s.ev.intake ++ [eventOf 0x1005 (d8 p ++ d40 serial)]) ∧ SameMemory s t) ∧
    (s.portUp p = true → s.activeHearth = true → up < 6 → s.fab.nodes = [] → s.fab.links = [] → s.fab.blocked = none →
      s.fab.broken = none → s.fab.superseded = none → s.fab.pushes = [] → s.ownId ≠ 16 → vl ≤ ownVer s + 1 → ownVer s ≤ vh + 1 →
      ∃ t, exec (.helloReceive p 0 p up serial 0 vl vh rev 0 e n1) s = .next t ∧
        (t.node 16).map (fun y => (y.serial, y.path, y.up)) = some (serial, [p], up) ∧ SameMemory s t) ∧
    (s.hearth = false → up < 6 → 16 ≤ id → id ≤ 0xFFEF → path.length ≤ 15 → s.fab.bound = [] → n1 ≠ 0 → n2 ≠ 0 →
      s.fab.epoch < e ∨ (s.fab.epoch = e ∧ serial = s.fab.setter) →
      ∃ t, exec (.assignReceive p id up path n1 n2 sender serial e) s = .next t ∧ t.get R.fbStatNodeid = id ∧
        t.flag R.fbStatAssigned = true ∧ t.flag R.fbStatBound = true ∧ t.fab.bound = [n1, n2] ∧ t.fab.path = path ∧
        t.fab.epoch = e ∧ t.get (R.fbPstatRole up) = 1 ∧ SameMemory s t) ∧
    (s.hearth = false → up < 6 → 16 ≤ id → id ≤ 0xFFEF → path.length ≤ 15 → s.fab.bound ≠ [] → serial ∉ s.fab.bound →
      ∃ t, exec (.assignReceive p id up path n1 n2 sender serial e) s = .next t ∧
        t.rd R.fbRejAssign = s.rd R.fbRejAssign + 1 ∧ t.fab = s.fab ∧
        (Room s 1 → t.ev.intake = s.ev.intake ++ [eventOf 0x1005 (d8 p ++ d40 serial)]) ∧ SameMemory s t) ∧
    (s.fab.bound ≠ [] →
      ∃ t, exec .bindingRelease s = .next t ∧ t.fab.bound = [] ∧ t.flag R.fbStatBound = false ∧
        t.flag R.fbStatAssigned = false ∧ t.get R.fbStatNodeid = 0 ∧ t.now = max s.now (s.fab.heardAt + sec 1) ∧
        SameMemory s t) ∧
    (s.passes p f.kind = true → isFlue s f → f.cls ≤ 6 → f.flood = false → f.inbound = false → f.path[f.pidx]? = some b → b < 6 →
      s.passes b f.kind = true → us_ ≤ 10 →
      ∃ t, exec (.flueFrameForward p (.flue f) ok us_) s = .next t ∧
        t.out = .flue b { f with pidx := f.pidx + 1 } :: s.out ∧ t.rd (R.fbPrxfrm p) = s.rd (R.fbPrxfrm p) + 1 ∧
        t.rd (R.fbPtxfrm b) = s.rd (R.fbPtxfrm b) + 1 ∧ SameMemory s t) ∧
    (s.passes p f.kind = true → isFlue s f → f.cls ≤ 6 → f.flood = true →
      (s.fab.seen.any fun y => y.1 == f.src && y.2.1 == f.seq && decide (s.now < y.2.2 + ms 10)) = true →
      ∃ t, exec (.flueFrameForward p (.flue f) ok us_) s = .next t ∧
        t.out = s.out ∧ t.rd (R.fbPrxfrm p) = s.rd (R.fbPrxfrm p) + 1 ∧ SameMemory s t) ∧
    (s.fab.ringAt = some a → s.activeHearth = true → s.fab.blocked ≠ none → (pre = true ∨ s.fab.ringMiss < 2) →
      ∃ t, exec (.ringchkFlood pre) s = .next t ∧ t.fab.ringSeq = (s.fab.ringSeq + 1) % 4294967296 ∧
        t.fab.ringMiss = (if pre then 0 else s.fab.ringMiss + 1) ∧ t.fab.ringAt = some (max s.now (a + us 500)) ∧
        t.fab.blocked = s.fab.blocked ∧ SameMemory s t) ∧
    (s.fab.ringAt = some a → s.activeHearth = true → s.fab.blocked ≠ none → 2 ≤ s.fab.ringMiss →
      ∃ t, exec (.ringchkFlood false) s = .next t ∧ t.fab.blocked = none ∧ t.flag R.fbStatRing = false ∧
        t.rd R.fbHeals = s.rd R.fbHeals + 1 ∧ t.flag ⟨R.fbIrqStat, 2, 1⟩ = true ∧ SameMemory s t) ∧
    (s.activeHearth = true → s.fab.links = [⟨a, pa, b, pb⟩] → s.fab.blocked ≠ none → s.fab.blocked ≠ some ⟨a, pa, b, pb⟩ →
      ∃ t, exec (.ringHeal a pa b pb us_) s = .next t ∧ t.fab.blocked = none ∧ t.fab.broken = some ⟨a, pa, b, pb⟩ ∧
        t.fab.links = [] ∧ t.rd R.fbHeals = s.rd R.fbHeals + 1 ∧ SameMemory s t) ∧
    (let u := (Sys2Proof.Machine.acceptReplacement s id).1
     Serves s → id < 65536 → s.activeHearth = true → s.node id = some x → s.fab.withheld = some w →
      exec (.acceptReplacement id) s = .next (accepted u 0x3000 0x11 .u16 (.num id))) ∧
    (s.activeHearth = true → s.node id = some x → s.fab.withheld = some w →
      (Sys2Proof.Machine.acceptReplacement s id).1.fab.withheld = none ∧
        ((Sys2Proof.Machine.acceptReplacement s id).1.fab.pushes.find? fun y => y.id == id).map (·.serial) = some w.1) ∧
    (Serves s → id < 65536 → (s.activeHearth = false ∨ (s.node id ≠ none ∧ s.fab.withheld = none)) →
      exec (.acceptReplacement id) s = .next (refused s St.state)) ∧
    (Serves s → id < 65536 → s.activeHearth = true → s.node id = none →
      exec (.acceptReplacement id) s = .next (refused s St.range)) ∧
    exec (.portLinkChange p isUp sqi pre) s = .next (portLink s p isUp sqi pre) ∧
    (s.portUp p = true → vp < 6 → up < 6 → s.activeHearth = true → role ≠ 1 →
      exec (.helloReceive p via vp up serial role vl vh rev gen e n1) s =
        .next (helloPavilion (s.count (R.fbPrxfrm p)) p ⟨via, vp, up, serial, role, vl, vh, gen, e, n1⟩)) ∧
    (s.portUp p = true → vp < 6 → up < 6 → s.hearth = false → s.flag R.fbStatAssigned = true →
      exec (.helloReceive p via vp up serial role vl vh rev gen e n1) s =
        .next (flueSend (s.count (R.fbPrxfrm p)) 6 0x01 1 0 (helloBytes serial role vl vh rev gen p e n1))) ∧
    (s.hearth = false → up < 6 → 16 ≤ id → id ≤ 0xFFEF → path.length ≤ 15 →
      exec (.assignReceive p id up path n1 n2 sender serial e) s = .next (assignReceive s p id up path n1 n2 sender serial e)) ∧
    (s.passes p f.kind = true → isFlue s f → f.cls ≤ 6 →
      exec (.flueFrameForward p (.flue f) ok us_) s =
        .next (flueForward (noteVersion (s.count (R.fbPrxfrm p)) p f ok) p f ok us_)) ∧
    exec (.flueFrameForward p (.other g) ok us_) s = .next (otherForward s p g ok) ∧
    (s.activeHearth = true → (s.fab.links.find? fun y => y == ⟨a, pa, b, pb⟩ || y == ⟨b, pb, a, pa⟩) = some l →
      exec (.ringHeal a pa b pb us_) s =
        .next (if s.fab.blocked = none ∨ s.fab.blocked = some l then linkLost s l else ringHeal s (some l) us_))

/-- With the fabric clock on: a received entry is delivered under its remote stream with its own timestamp; a frame of a stale epoch is counted and delivers nothing. The active Hearth floods SETPT on its 1 ms grid; a Pavilion that accepts one of a bound Hearth restarts its node hold timer, whose end sets NFAIL, fires 129, logs 0x100B and with action OFF disarms every bank and group. The eighth Sync in a row within 1 µs sets SYNC; one beyond 10 µs, or 125 ms without one, clears it. A frame without an answer goes out again under its SEQ until its count is used up, then is counted as timed out; a dictionary request is not counted, its transaction timeout is. (12_fabric_fleet.md R282, 12_fabric_fleet.md R283, 12_fabric_fleet.md R284, 12_fabric_fleet.md R285, 12_fabric_fleet.md R291, 12_fabric_fleet.md R295) -/
def Obligations.FabricCarriesValuesAndTime : Prop :=
  ∀ (s : State) (r cls sender serial e a q unc seq : Nat) (ts : Time) (v : List Byte) (l : List (Nat × Nat × Time × List Byte))
      (fh : Bool) (off : Int) (w : AckWait), s.gateOn 9 = true →
    (r < 2048 →
      exec (.streamReceive 5 sender serial e false [(r, 0, ts, v)]) s = .next (deliver s (0x800 + r) ts (F32.ofBytes v) false [])) ∧
    (s.hearth = false → e < s.fab.epoch →
      ∃ t, exec (.streamReceive 6 sender serial e true l) s = .next t ∧
        t.rd R.fbStaleEpoch = s.rd R.fbStaleEpoch + 1 ∧ t.delivery = s.delivery ∧ SameMemory s t) ∧
    (s.activeHearth = true →
      ∃ t, exec .setptFlood s = .next t ∧ t.fab.setptAt = some (gridNext (ms 1) s.fab.setptAt s.time.dev) ∧
        t.fab.seq = (s.fab.seq + 1) % 4294967296 ∧ SameMemory s t) ∧
    (s.hearth = false → sender ≤ 2 → serial ∈ s.fab.bound →
      (s.fab.epoch < e ∨ (s.fab.epoch = e ∧ serial = s.fab.setter)) →
      ∃ t, exec (.setptReceive sender serial e l) s = .next t ∧
        t.fab.holdEnd = some (s.now + ms (s.objN 0x3000 0x0D)) ∧ t.flag R.fbStatNhold = true ∧ t.fab.heardAt = s.now ∧
        SameOutsideRings s t) ∧
    (s.hearth = false → sender ≤ 2 → serial ∈ s.fab.bound → e < s.fab.epoch →
      ∃ t, exec (.setptReceive sender serial e l) s = .next t ∧ t.fab.holdEnd = s.fab.holdEnd ∧
        t.rd R.fbStaleEpoch = s.rd R.fbStaleEpoch + 1 ∧ t.delivery = s.delivery ∧ SameMemory s t) ∧
    (s.fab.holdEnd = some a →
      ∃ t, exec .nodeHoldExpiry s = .next t ∧ t.fab.holdEnd = none ∧ t.flag R.fbStatNhold = false ∧
        t.flag R.fbStatNfail = true ∧ t.flag ⟨R.fbIrqStat, 1, 1⟩ = true ∧ t.now = max s.now a ∧
        (s.objN 0x3000 0x0E = 1 → ∀ k, k < 12 → t.sdArmed k = false) ∧
        (s.objN 0x3000 0x0E = 0 → ∀ k, t.sdArmed k = s.sdArmed k) ∧ SameMemory s t) ∧
    (s.activeHearth = false → q ≤ 4 → off.natAbs ≤ 1000 → 7 ≤ s.fab.syncs →
      ∃ t, exec (.gptpSync off q unc) s = .next t ∧ t.flag R.fbStatSync = true ∧ timeState t = q ∧
        t.rd R.fbPtp = BitVec.ofInt 32 off ∧ t.time.unc0 = unc + off.natAbs ∧ SameOutsideRings s t) ∧
    (s.activeHearth = false → q ≤ 4 → off.natAbs > 10000 →
      ∃ t, exec (.gptpSync off q unc) s = .next t ∧ t.flag R.fbStatSync = false ∧ t.fab.syncs = 0 ∧
        (s.flag R.fbStatSync = true → timeState t = 3 ∧ t.flag R.ghStatSync = false ∧ t.flag ⟨R.fbIrqStat, 3, 1⟩ = true) ∧
        SameOutsideRings s t) ∧
    (s.fab.syncAt = some a → s.flag R.fbStatSync = true →
      ∃ t, exec .syncLoss s = .next t ∧ t.flag R.fbStatSync = false ∧ timeState t = 3 ∧ t.fab.syncs = 0 ∧
        t.now = max s.now (a + us 125000) ∧ SameOutsideRings s t) ∧
    ((s.fab.waits.find? fun y => y.frame.seq == seq) = some w → w.tries < s.objN 0x3000 0x0B →
      ∃ t, exec (.ackRetransmit seq) s = .next t ∧ t.rd R.fbRetrans = s.rd R.fbRetrans + 1 ∧
        t.fab.waits = (s.fab.waits.filter fun y => y.frame.seq != seq) ++ [{ w with tries := w.tries + 1, at_ := t.now }] ∧
        t.now = max s.now (w.at_ + us (s.objN 0x3000 0x0A)) ∧ SameMemory s t) ∧
    ((s.fab.waits.find? fun y => y.frame.seq == seq) = some w → s.objN 0x3000 0x0B ≤ w.tries → w.frame.kind = 0x20 ∨ w.hop = none →
      ∃ t, exec (.ackRetransmit seq) s = .next t ∧
        t.rd R.fbTimeouts = s.rd R.fbTimeouts + (if w.frame.kind = 0x20 then 0 else 1) ∧
        t.fab.waits = (s.fab.waits.filter fun y => y.frame.seq != seq) ∧ t.out = s.out ∧ SameMemory s t) ∧
    (cls ≠ 6 ∨ fh = false ∨ s.hearth = true →
      exec (.streamReceive cls sender serial e fh l) s = .next (l.foldl entryDeliver s)) ∧
    (s.hearth = false → (s.fab.epoch < e ∨ (s.fab.epoch = e ∧ serial = s.fab.setter)) →
      exec (.streamReceive 6 sender serial e true l) s =
        .next (l.foldl entryDeliver (heard (epochCheck s sender serial e 0x11).1 serial))) ∧
    (s.hearth = true ∨ 2 < sender → exec (.setptReceive sender serial e l) s = .next (l.foldl entryDeliver s)) ∧
    (s.activeHearth = false → q ≤ 4 →
      ∃ t, exec (.gptpSync off q unc) s = .next t ∧
        t.fab.syncs = (if off.natAbs ≤ 1000 then s.fab.syncs + 1 else 0) ∧ t.fab.syncAt = some s.now ∧
        t.rd R.fbPtp = BitVec.ofInt 32 off)

/-- The active member sends a heartbeat every 1 ms and a mirror block every 10 ms, the latter through the fabric while the sync link is down; the standby takes a block under its number. The end of the start wait and 5 ms of silence make a member active with the next epoch, source 4 and GH_EPOCH raised. An active member that hears of a higher epoch, or of its own from a twin of a lower serial number, becomes standby with source 132. An epoch reset in the life-cycle state SERVICE sets the epoch and GH_EPOCH to 1 and keeps the old one as superseded; elsewhere it is refused with STATE. It is taken from the setter, at a Hearth from its twin, alone, and any other is counted as stale. (12_fabric_fleet.md R289, 12_fabric_fleet.md R290, 12_fabric_fleet.md R291, 12_fabric_fleet.md R292, 12_fabric_fleet.md R294) -/
def Obligations.TwinHearthsTakeOver : Prop :=
  ∀ (s : State) (a path sender serial e seq v old : Nat) (k : MirrorBlock), s.gateOn 9 = true →
    (s.hearth = true → twinState s = 1 →
      ∃ t, exec .heartbeatSend s = .next t ∧ t.fab.hbAt = some t.now ∧ (s.fab.hbAt = some a → t.now = max s.now (a + ms 1)) ∧
        SameMemory s t) ∧
    (s.hearth = true → twinState s = 1 →
      ∃ t, exec .mirrorSend s = .next t ∧ t.fab.mirrorAt = some t.now ∧
        (s.fab.mirrorAt = some a → t.now = max s.now (a + ms 10)) ∧
        t.fab.mirrorSeq = (s.fab.mirrorSeq + 1) % 4294967296 ∧ t.fab.mirrorFab = !syncLinkUp s ∧ SameMemory s t) ∧
    (s.hearth = true → twinState s = 2 →
      ∃ t, exec (.mirrorReceive path seq {}) s = .next t ∧ t.fab.mirrorSeq = seq ∧
        (s.ps.due = 0 → s.ps.shut = none → t.regs = s.regs ∧ SameMemory s t)) ∧
    (s.fab.started = some a → twinState s = 3 → s.fab.epoch < 65535 → s.fab.epoch = s.get R.ghEpochEpoch →
      ∃ t, exec .startWaitEnd s = .next t ∧ twinState t = 1 ∧ t.fab.epoch = s.fab.epoch + 1 ∧
        t.get R.ghEpochEpoch = s.fab.epoch + 1 ∧ t.now = max s.now (a + ms (startWait s)) ∧ t.fab.started = none ∧
        SameMemory s t) ∧
    (s.hearth = true → twinState s = 2 → s.fab.epoch < 65535 → s.fab.epoch = s.get R.ghEpochEpoch →
      ∃ t, exec .takeover s = .next t ∧ twinState t = 1 ∧ t.fab.epoch = s.fab.epoch + 1 ∧ t.fab.setter = serialOf s ∧
        t.get R.ghEpochEpoch = s.fab.epoch + 1 ∧ t.flag ⟨R.fbIrqStat, 15, 1⟩ = true ∧
        t.now = max s.now (later s.fab.hbSync s.fab.hbFab + ms 5) ∧ SameMemory s t) ∧
    (s.hearth = true → twinState s = 1 → serial = twinSerial s → serial ≠ 0 → seq < 4294967296 →
      s.fab.epoch < e ∨ (e = s.fab.epoch ∧ serial < serialOf s) →
      ∃ t, exec (.heartbeatReceive 0x14 path sender serial e seq) s = .next t ∧ twinState t = 2 ∧ t.fab.epoch = e ∧
        t.flag ⟨R.fbIrqStat, 4, 1⟩ = true ∧ SameMemory s t) ∧
    (s.hearth = true → twinState s = 1 → s.fab.epoch < e → v = 0x13 ∨ v = 0x16 → (v = 0x13 ∨ s.fab.superseded ≠ some e) →
      seq < 4294967296 →
      ∃ t, exec (.heartbeatReceive v path sender serial e seq) s = .next t ∧ twinState t = 2 ∧ t.fab.epoch = e ∧
        t.fab.setter = serial ∧ SameMemory s t) ∧
    (let u := (Sys2Proof.Machine.epochReset s 1).1
     Serves s → s.lifeCycle = 3 → s.hearth = true → twinState s = 1 →
      exec (.epochReset 1) s = .next (accepted u 0x3080 0x05 .u8 (.num 1))) ∧
    (s.lifeCycle = 3 → s.hearth = true → twinState s = 1 →
      (Sys2Proof.Machine.epochReset s 1).1.fab.epoch = 1 ∧ (Sys2Proof.Machine.epochReset s 1).1.get R.ghEpochEpoch = 1 ∧
        (Sys2Proof.Machine.epochReset s 1).1.fab.superseded = some s.fab.epoch) ∧
    (Serves s → (s.lifeCycle ≠ 3 ∨ s.hearth = false ∨ twinState s ≠ 1) →
      exec (.epochReset 1) s = .next (refused s St.state)) ∧
    (s.hearth = false → serial = s.fab.setter →
      ∃ t, exec (.epochrstReceive serial s.fab.epoch s.fab.epoch 1) s = .next t ∧ t.fab.epoch = 1 ∧ t.fab.setter = serial ∧
        t.get R.ghEpochEpoch = 1 ∧
        (Room s 2 → t.ev.intake.getLast? = some (eventOf 0x1014 (d16 s.fab.epoch ++ d40 serial))) ∧ SameMemory s t) ∧
    (e ≠ s.fab.epoch ∨ old ≠ e ∨ v ≠ 1 ∨ (s.hearth = false ∧ serial ≠ s.fab.setter) ∨ (s.hearth = true ∧ serial ≠ twinSerial s) →
      exec (.epochrstReceive serial e old v) s = .next (s.count R.fbStaleEpoch)) ∧
    (s.hearth = true → twinSerial s = serial → serial ≠ 0 → seq < 4294967296 →
      exec (.heartbeatReceive 0x14 path sender serial e seq) s = .next (heartbeat s path serial e)) ∧
    (s.hearth = true → twinState s = 2 →
      ∃ t, exec (.mirrorReceive path seq k) s = .next t ∧ t.pending = s.pending) ∧
    (s.hearth = true → serial = twinSerial s → serial ≠ 0 →
      ∃ t, exec (.epochrstReceive serial s.fab.epoch s.fab.epoch 1) s = .next t ∧ t.fab.epoch = 1 ∧ t.fab.setter = serial) ∧
    (s.hearth = true → twinState s = 2 →
      exec .takeover s = .next (becomeActive (s.passTo (later s.fab.hbSync s.fab.hbFab + ms 5)))) ∧
    (s.fab.started = some a → twinState s = 3 →
      exec .startWaitEnd s = .next (becomeActive (s.passTo (a + ms (startWait s)))))

/-- A connection that comes about sends every stored message again; one that fails, or ends, waits the present wait and doubles it up to 300 s, with event 0x100F. When the wait passes the module tries again. A message of an enabled kind is stored under the next MSGID, while there is room, and leaves the store at the ACK with its MSGID, counted. An inbound message with a good CRC is taken by its kind, counted and acknowledged. The machine state, and the yield summary of an open task, are formed at their periods. Each runs while the application cores and the service do. (12_fabric_fleet.md R296, 12_fabric_fleet.md R297, 12_fabric_fleet.md R298) -/
def Obligations.ChimneyKeepsMessages : Prop :=
  ∀ (s : State) (id cause kind : Nat) (b : List Byte) (m : Message),
    (s.appServing = true → chimneyRuns s = true → s.chim.conn ≠ 2 →
      ∃ t, exec (.chimneyConnect true cause) s = .next t ∧ t.chim.conn = 2 ∧ t.chim.wait = 1 ∧ t.chim.store = s.chim.store ∧
        t.out = (s.chim.store.map fun x => Out.chimney (chimneyBytes x.kind x.id x.payload)).reverse ++ s.out ∧
        t.now = (if s.chim.conn = 3 then max s.now s.chim.retryAt else s.now) ∧
        (Room s 1 → t.ev.intake = s.ev.intake ++ [eventOf 0x100F (d8 1 ++ d8 cause)]) ∧ SameMemory s t) ∧
    (s.appServing = true → chimneyRuns s = true → s.chim.conn ≠ 2 →
      ∃ t, exec (.chimneyConnect false cause) s = .next t ∧ t.chim.conn = 3 ∧ t.chim.retryAt = t.now + sec s.chim.wait ∧
        t.chim.wait = min (2 * s.chim.wait) 300 ∧
        (Room s 1 → t.ev.intake = s.ev.intake ++ [eventOf 0x100F (d8 0 ++ d8 cause)]) ∧ SameMemory s t) ∧
    (s.appServing = true → chimneyRuns s = true → s.chim.conn = 3 →
      ∃ t, exec .chimneyReconnect s = .next t ∧ t.chim = { s.chim with conn := 1 } ∧ t.now = max s.now s.chim.retryAt ∧
        t.regs = s.regs ∧ SameMemory s t) ∧
    (s.chim.conn = 1 ∨ s.chim.conn = 2 →
      ∃ t, exec (.chimneyDisconnect cause) s = .next t ∧ t.chim.conn = 3 ∧ t.chim.store = s.chim.store ∧
        t.chim.wait = min (2 * s.chim.wait) 300 ∧
        (Room s 1 → t.ev.intake = s.ev.intake ++ [eventOf 0x100F (d8 0 ++ d8 cause)]) ∧ SameMemory s t) ∧
    (1 ≤ kind → kind ≤ 4 → chimneyForms s kind = true →
      storedBytes s + 24 + b.length ≤ s.objN 0x30C0 0x04 * 1048576 →
      ∃ t, exec (.chimneySend kind b) s = .next t ∧ t.chim.store = s.chim.store ++ [⟨s.chim.nextId, kind, b⟩] ∧
        t.chim.nextId = s.chim.nextId + 1 ∧ t.regs = s.regs ∧
        (s.chim.conn = 2 → t.out = .chimney (chimneyBytes kind s.chim.nextId b) :: s.out) ∧ SameMemory s t) ∧
    (s.chim.conn = 2 → m ∈ s.chim.store →
      ∃ t, exec (.chimneyAck m.id) s = .next t ∧ t.chim.store = s.chim.store.filter (fun x => x.id != m.id) ∧
        t.chim.counters = s.chim.counters.set 1 ((s.chim.counters.getD 1 0 + 1) % 4294967296) ∧ t.regs = s.regs ∧ SameMemory s t) ∧
    (s.appServing = true → chimneyRuns s = true → s.chim.conn = 2 → 0x81 ≤ kind → kind ≤ 0x83 →
      ∃ t, exec (.chimneyInbound kind id b true) s = .next t ∧
        t.out = .chimney (chimneyBytes 0xF0 id (leBytes 8 id)) :: (chimneyTake s kind b).out) ∧
    (s.appServing = true → chimneyRuns s = true → s.chim.conn = 2 → s.par.task = 0 →
      ∃ t, exec (.chimneyInbound 0x81 id b true) s = .next t ∧
        t.chim.counters = s.chim.counters.set 3 ((s.chim.counters.getD 3 0 + 1) % 4294967296) ∧ t.regs = s.regs ∧ SameMemory s t) ∧
    (s.appServing = true → chimneyRuns s = true → chimneyForms s 4 = true → s.chim.store = [] → 1 ≤ s.objN 0x30C0 0x04 →
      ∃ t, exec (.chimneyPeriodic 4) s = .next t ∧ t.chim.stateAt = max s.now (s.chim.stateAt + sec (s.objN 0x30C0 0x08)) ∧
        t.chim.store.map (fun x => (x.id, x.kind)) = [(s.chim.nextId, 4)] ∧ t.regs = s.regs ∧ SameMemory s t) ∧
    (s.appServing = true → chimneyRuns s = true → s.par.task ≠ 0 →
      ∃ t, exec (.chimneyPeriodic 2) s = .next t ∧ t.chim.yieldAt = max s.now (s.chim.yieldAt + sec (s.objN 0x30C0 0x09)) ∧
        t.chim.stateAt = s.chim.stateAt ∧ t.regs = s.regs ∧ SameMemory s t) ∧
    (1 ≤ kind → kind ≤ 4 → exec (.chimneySend kind b) s = .next (chimneySend s kind b)) ∧
    (s.appServing = true → chimneyRuns s = true →
      ∃ t, exec (.chimneyPeriodic 4) s = .next t ∧ t.now = max s.now (s.chim.stateAt + sec (s.objN 0x30C0 0x08)))

/-- EN is accepted with legal timing and refused with its ERR code otherwise. A received frame of the default action goes to the entry at PUT, which software then owns; with that entry owned it is dropped and counted. An acknowledge releases an owned entry. A requested frame is kept and pending, unless it does not fit (LENGTH); a pending or active buffer refuses REQ. A successful attempt ends DONE with its timestamp; a failed one that spends the limit ends FAILED; a lost arbitration is counted. ABORT ends a pending buffer at once. Recovery from bus-off starts on demand and ends error active with counts 0. A due claim starts with the preferred address, holds after 250 ms, yields to a higher priority, and is repeated on request. A claim of lower priority is answered with the own claim, one for another address is noted. A message whose next frame is late is discarded. (13_can_integrity.md R301, 13_can_integrity.md R304, 13_can_integrity.md R306, 13_can_integrity.md R307, 13_can_integrity.md R310, 13_can_integrity.md R311, 13_can_integrity.md R314, 13_can_integrity.md R316, 13_can_integrity.md R317, 14_object_dictionary.md R344) -/
def Obligations.CanChannelsReceiveAndSend : Prop :=
  ∀ (s : State) (c b q i ts lec tec rcnt name src wh o a : Nat) (x : CanFrame) (p : CanPart), c < 6 → b < 32 → q < 3 →
    s.gateOn (if c < 2 then 10 else 11) = true →
    (s.flag (R.cnCtrlEn c) = false → canEnableErr s c = 0 →
      ∃ t, exec (.canEnable c) s = .next t ∧ t.flag (R.cnCtrlEn c) = true ∧ t.get (R.cnCtrlErr c) = 0 ∧
        t.get (R.cnStatState c) = 0 ∧ t.flag (R.cnStatSync c) = true ∧ SameMemory s t) ∧
    (s.flag (R.cnCtrlEn c) = false → canEnableErr s c ≠ 0 →
      exec (.canEnable c) s = .next (s.set (R.cnCtrlErr c) (canEnableErr s c))) ∧
    (let m := s.rd64 (R.cnQbaseLo c 1) + (if s.flag (R.cnQcfgEsize c 1) then 2072 else 88) * s.get (R.cnQputPut c 1)
     s.flag (R.cnCtrlEn c) = true → s.get (R.cnStatState c) ≠ 2 → s.get (R.cnCtrlMode c) ≠ 3 → s.ps.due = 0 → s.ps.shut = none →
      firstFilter s c x = none → s.get (R.cnRxdefAction c) = 1 → forDictionary s c x = false → x.data.length ≤ 64 → tec ≤ 255 →
      s.flag (queueOwn c 1 (s.get (R.cnQputPut c 1))) = false →
      ∃ t, exec (.canReceive c 0 x.id x.flags x.data x.af x.sdt x.vcid ts tec rcnt) s = .next t ∧
        t.rd (R.cnRxfrm c) = s.rd (R.cnRxfrm c) + 1 ∧ t.get (R.cnQputPut c 1) = (s.get (R.cnQputPut c 1) + 1) % 64 ∧
        t.flag (queueOwn c 1 (s.get (R.cnQputPut c 1))) = true ∧ t.rd (R.cnQdrops c 1) = s.rd (R.cnQdrops c 1) ∧
        ∀ y, y < m ∨ m + 24 + x.data.length ≤ y → t.mem.read y = s.mem.read y) ∧
    (s.flag (R.cnCtrlEn c) = true → s.get (R.cnStatState c) ≠ 2 → s.get (R.cnCtrlMode c) ≠ 3 → s.ps.due = 0 → s.ps.shut = none →
      firstFilter s c x = none → s.get (R.cnRxdefAction c) = 1 → forDictionary s c x = false → tec ≤ 255 →
      s.flag (queueOwn c 1 (s.get (R.cnQputPut c 1))) = true →
      ∃ t, exec (.canReceive c 0 x.id x.flags x.data x.af x.sdt x.vcid ts tec rcnt) s = .next t ∧
        t.rd (R.cnRxfrm c) = s.rd (R.cnRxfrm c) + 1 ∧ t.get (R.cnQputPut c 1) = s.get (R.cnQputPut c 1) ∧
        t.rd (R.cnQdrops c 1) = s.rd (R.cnQdrops c 1) + 1 ∧ SameMemory s t) ∧
    (i < queueDepth q → s.flag (queueOwn c q i) = true →
      exec (.queueAck c q i) s = .next ((s.set (queueOwn c q i) 0).set (R.cnQputOcc c q) (s.get (R.cnQputOcc c q) - 1))) ∧
    (i < queueDepth q → s.flag (queueOwn c q i) = false → exec (.queueAck c q i) s = .next s) ∧
    (txState s c b = 1 ∨ txState s c b = 2 → exec (.txRequest c b) s = .next s) ∧
    (let f := (frameAt s (s.rd64 (R.cnTxaddrLo c b))).1
     txHeld s c b = false → txFits s c f = true → f.flags / 32 % 2 = 0 →
      ∃ t, exec (.txRequest c b) s = .next t ∧ (Tbl.get (t.canCh c).tx {} b).frame = f ∧
        (txState t c b = 1 ∨ txState t c b = 2) ∧ t.flag ⟨R.cnTxpend c, b, 1⟩ = true ∧ t.rd (R.cnTxatt c b) = 0 ∧ SameMemory s t) ∧
    (let f := (frameAt s (s.rd64 (R.cnTxaddrLo c b))).1
     txHeld s c b = false → txFits s c f = false →
      ∃ t, exec (.txRequest c b) s = .next t ∧ txState t c b = 6 ∧ t.flag ⟨R.cnTxdone c, b, 1⟩ = true ∧ SameMemory s t) ∧
    (b < 30 → txIs s c 2 = [b] → s.flag (R.cnCtrlSelfrx c) = false → s.get (R.cnCtrlMode c) = 0 → tec ≤ 255 →
      ∃ t, exec (.txAttemptEnd c 0 0 ts tec rcnt) s = .next t ∧ txState t c b = 3 ∧ t.flag ⟨R.cnTxdone c, b, 1⟩ = true ∧
        t.rd64 (R.cnTxtsLo c b) = ts % 18446744073709551616 ∧ t.rd (R.cnTxfrm c) = s.rd (R.cnTxfrm c) + 1 ∧
        .can c (txId s c (Tbl.get (s.canCh c).tx {} b).frame) (Tbl.get (s.canCh c).tx {} b).frame.data ∈ t.out ∧
        SameMemory s t) ∧
    (b < 30 → txIs s c 2 = [b] → s.get (R.cnTxcfgRetry c) = s.get (R.cnTxattAttempts c b) + 1 →
      (Tbl.get (s.canCh c).tx {} b).abort = false → tec ≤ 255 →
      ∃ t, exec (.txAttemptEnd c 2 0 ts tec rcnt) s = .next t ∧ txState t c b = 4 ∧ t.flag ⟨R.cnTxfail c, b, 1⟩ = true ∧
        t.rd (R.cnAckerr c) = s.rd (R.cnAckerr c) + 1 ∧ t.get (R.cnStatLec c) = 3 ∧ SameMemory s t) ∧
    (b < 30 → txIs s c 2 = [b] → (Tbl.get (s.canCh c).tx {} b).abort = false →
      ∃ t, exec (.txAttemptEnd c 3 lec ts tec rcnt) s = .next t ∧ txState t c b = 1 ∧
        t.rd (R.cnArblost c) = s.rd (R.cnArblost c) + 1 ∧ t.rd (R.cnTxatt c b) = s.rd (R.cnTxatt c b) ∧ SameMemory s t) ∧
    (b < 30 → txState s c b = 1 →
      ∃ t, exec (.txAbort c b) s = .next t ∧ txState t c b = 5 ∧ t.flag ⟨R.cnTxdone c, b, 1⟩ = true ∧ SameMemory s t) ∧
    (txState s c b = 2 →
      ∃ t, exec (.txAbort c b) s = .next t ∧ (Tbl.get (t.canCh c).tx {} b).abort = true ∧ t.regs = s.regs ∧ SameMemory s t) ∧
    (s.get (R.cnStatState c) = 2 → (s.canCh c).recover = none →
      ∃ t, exec (.busOffRecover c) s = .next t ∧
        (t.canCh c).recover = some (s.now + 1408 * (nbtPhase (s.rd (R.cnNbt c))).ticks * 25 / 2) ∧ t.regs = s.regs ∧
        SameMemory s t) ∧
    (s.get (R.cnStatState c) ≠ 2 → exec (.busOffRecover c) s = .next s) ∧
    (s.get (R.cnStatState c) = 2 → (s.canCh c).recover = some i →
      ∃ t, exec (.busOffRecoveryEnd c) s = .next t ∧ t.get (R.cnStatState c) = 0 ∧ t.get (R.cnEcntTec c) = 0 ∧
        t.get (R.cnEcntRec c) = 0 ∧ (t.canCh c).recover = none ∧ t.now = max s.now i ∧ SameMemory s t) ∧
    ((s.canCh c).claimDue = true → s.flag (R.cnCtrlEn c) = true →
      ∃ t, exec (.addressClaimStart c) s = .next t ∧ (t.canCh c).claim = 1 ∧ (t.canCh c).addr = s.canN c 0x1C ∧
        (t.canCh c).claimEnd = some (s.now + ms 250) ∧ (t.canCh c).claimDue = false ∧ SameMemory s t) ∧
    ((s.canCh c).claimEnd = some i →
      ∃ t, exec (.claimTimeout c) s = .next t ∧ (t.canCh c).claim = 2 ∧ t.get (R.cnSaSa c) = (s.canCh c).addr % 256 ∧
        t.flag (R.cnSaValid c) = true ∧ t.now = max s.now i ∧
        (Room s 1 → t.ev.intake = s.ev.intake ++ [eventOf 0x1107 [BitVec.ofNat 8 c, BitVec.ofNat 8 (s.canCh c).addr]]) ∧ SameMemory s t) ∧
    ((s.canCh c).claim = 2 → (s.canCh c).addr < 254 → name < s.canN c 0x1B →
      ∃ t, exec (.contendingClaim c (s.canCh c).addr name) s = .next t ∧ t.flag (R.cnSaValid c) = false ∧
        (t.canCh c).claim ≠ 2 ∧ Tbl.get (t.canCh c).others none (s.canCh c).addr = some name ∧ SameMemory s t) ∧
    ((s.canCh c).claim ≠ 0 → (s.canCh c).claimOut = [] → (s.canCh c).dictOut = [] → txHeld s c 30 = false →
      ∃ t, exec (.requestForClaim c) s = .next t ∧
        (Tbl.get (t.canCh c).tx {} 30).frame = claimFrame s c (s.canCh c).addr ∧ (t.canCh c).claimOut = [] ∧ SameMemory s t) ∧
    (Tbl.get (s.canCh c).parts none src = some p →
      ∃ t, exec (.canReassemblyTimeout c src) s = .next t ∧ Tbl.get (t.canCh c).parts none src = none ∧
        t.now = max s.now p.till ∧ t.regs = s.regs ∧ SameMemory s t) ∧
    exec (.canEnable c) s = .next (canEnable s c) ∧
    exec (.canReceive c wh x.id x.flags x.data x.af x.sdt x.vcid ts tec rcnt) s =
      .next (settle (canReceive s c wh x ts tec rcnt)) ∧
    exec (.queueAck c q i) s = .next (queueAck s c q i) ∧
    (let r := frameAt s (s.rd64 (R.cnTxaddrLo c b))
     txHeld s c b = false → exec (.txRequest c b) s = .next (txSubmit r.2 c b r.1)) ∧
    exec (.txAttemptEnd c o lec ts tec rcnt) s = .next (txAttemptEnd s c o lec ts tec rcnt) ∧
    exec (.txAbort c b) s = .next (txAbort s c b) ∧
    exec (.addressClaimStart c) s = .next (claimStart s c) ∧
    (a < 254 → ((s.canCh c).claim = 1 ∨ (s.canCh c).claim = 2) → (s.canCh c).addr = a → s.canN c 0x1B ≤ name →
      exec (.contendingClaim c a name) s = .next (sendClaim s c a)) ∧
    (a < 254 → ((s.canCh c).claim ≠ 1 ∧ (s.canCh c).claim ≠ 2) ∨ (s.canCh c).addr ≠ a →
      exec (.contendingClaim c a name) s =
        .next (s.setCan c { s.canCh c with others := Tbl.set (s.canCh c).others none a (some name) })) ∧
    ((s.canCh c).claim ≠ 0 → exec (.requestForClaim c) s = .next (sendClaim s c (s.canCh c).addr))

/-- With the clock of the units on, START loads the running value with INIT and clears the byte count; a write of CV_DATA feeds its bytes least significant first and counts them; a write of CV_STATE replaces the running value of up to 32 bits. In a valid context the expected value is OK and kept, the last value again is REPEATED, one at most MAXSKIP ahead is SKIPPED and kept, and without RESYNC any other is STALE and not kept; each counts in its counter. CV_ACSET writes last(k), the valid and the event bit. (13_can_integrity.md R320, 13_can_integrity.md R321, 13_can_integrity.md R323, 13_can_integrity.md R324) -/
def Obligations.CheckValuesAndAliveCounters : Prop :=
  ∀ (s : State) (u k d size : Nat) (hi : Bool) (v : Word), u < 8 → s.gateOn 12 = true →
    ((cvAlg s u).width ≠ 0 →
      ∃ t, exec (.cvStart u) s = .next t ∧
        t.rd64 (R.cvStateLo u) = (cvAlg s u).init % 2 ^ (cvAlg s u).width % 18446744073709551616 ∧ t.rd (R.cvCount u) = 0 ∧
        SameMemory s t) ∧
    ((cvAlg s u).width ≠ 0 →
      ∃ t, exec (.cvData u 4 v) s = .next t ∧
        t.rd64 (R.cvStateLo u) = (leBytes 4 v.toNat).foldl (crcByte (cvAlg s u)) (s.rd64 (R.cvStateLo u)) % 18446744073709551616 ∧
        t.rd (R.cvCount u) = s.rd (R.cvCount u) + 4 ∧ SameMemory s t) ∧
    ((cvAlg s u).width ≤ 32 →
      ∃ t, exec (.cvStateWrite u false v) s = .next t ∧ t.rd64 (R.cvStateLo u) = v.toNat ∧
        t.rd64 (R.cvResultLo u) = crcResult (cvAlg s u) v.toNat % 18446744073709551616 ∧ SameMemory s t) ∧
    (let n := s.get (R.cvAccfgN u)
     let c := s.aliveCtx u k
     k < 64 → 4 ≤ n → n ≤ 16 → c.valid = true → c.last < 2 ^ n → v = BitVec.ofNat 32 ((c.last + 1) % 2 ^ n + 65536 * k) →
      ∃ t, exec (.aliveCheck u v) s = .next t ∧ t.rd (R.cvOk u) = s.rd (R.cvOk u) + 1 ∧
        (t.aliveCtx u k).last = (c.last + 1) % 2 ^ n ∧ t.rd (R.cvAcres u) = BitVec.ofNat 32 (65536 * k) ∧ SameMemory s t) ∧
    (let n := s.get (R.cvAccfgN u)
     let c := s.aliveCtx u k
     k < 64 → 4 ≤ n → n ≤ 16 → c.valid = true → c.last < 2 ^ n → v = BitVec.ofNat 32 (c.last + 65536 * k) →
      ∃ t, exec (.aliveCheck u v) s = .next t ∧ t.rd (R.cvRepeated u) = s.rd (R.cvRepeated u) + 1 ∧
        (t.aliveCtx u k).last = c.last ∧ t.rd (R.cvAcres u) = BitVec.ofNat 32 (1 + 65536 * k) ∧ SameMemory s t) ∧
    (let n := s.get (R.cvAccfgN u)
     let c := s.aliveCtx u k
     k < 64 → 4 ≤ n → n ≤ 16 → c.valid = true → c.last < 2 ^ n → 1 ≤ d → d ≤ s.get (R.cvAccfgMaxskip u) → d < 2 ^ n - 1 →
      d < 256 → v = BitVec.ofNat 32 ((c.last + 1 + d) % 2 ^ n + 65536 * k) →
      ∃ t, exec (.aliveCheck u v) s = .next t ∧ t.rd (R.cvSkipped u) = s.rd (R.cvSkipped u) + 1 ∧
        (t.aliveCtx u k).last = (c.last + 1 + d) % 2 ^ n ∧ t.rd (R.cvAcres u) = BitVec.ofNat 32 (2 + 256 * d + 65536 * k) ∧
        SameMemory s t) ∧
    (let n := s.get (R.cvAccfgN u)
     let c := s.aliveCtx u k
     k < 64 → 4 ≤ n → n ≤ 16 → c.valid = true → c.last < 2 ^ n → s.get (R.cvAccfgMaxskip u) < d → d < 2 ^ n - 1 → 1 ≤ d →
      s.get (R.cvAccfgResync u) = 0 → v = BitVec.ofNat 32 ((c.last + 1 + d) % 2 ^ n + 65536 * k) →
      ∃ t, exec (.aliveCheck u v) s = .next t ∧ t.rd (R.cvStale u) = s.rd (R.cvStale u) + 1 ∧
        (t.aliveCtx u k).last = c.last ∧ t.rd (R.cvAcres u) = BitVec.ofNat 32 (3 + 65536 * k) ∧ SameMemory s t) ∧
    (exec (.aliveSet u v) s = .next (s.setAliveCtx u (bits v 16 6)
      { s.aliveCtx u (bits v 16 6) with valid := bit v 31, last := bits v 0 16, evt := bit v 30, run := 0, prev := 0 })) ∧
    exec (.cvStart u) s = .next (cvStart s u) ∧
    (size = 1 ∨ size = 2 ∨ size = 4 → exec (.cvData u size v) s = .next (cvFeed s u (leBytes size v.toNat))) ∧
    exec (.cvStateWrite u hi v) s = .next (cvStateWrite s u hi v) ∧
    exec (.aliveCheck u v) s = .next (aliveCheck s u (bits v 16 6) (bits v 0 16)).2 ∧
    (aliveCheck s u k d).2.mem = s.mem

/-- A READ answers the value with the change count, or NO_OBJECT. A WRITE of an object of the application takes effect and counts one change; one of a read-only object is refused with READ_ONLY, one of another type with TYPE and the allowed length, and changes nothing. BLOCK_READ answers the bytes from the offset, and RANGE beyond the end. A block session opens at offset 0, grows at its end, refuses any other offset with SEQUENCE, and closes at BLOCK_END, with CHECK where length or CRC differ, or after 1 s with event 0x1307. COMMIT of one retained object raises the generation, answers EMBER where the record is not taken and STATE where the object is not retained. DESCRIBE answers type and access. DEFAULTS marks the records in SERVICE and is refused with STATE elsewhere. Every request of every requester completes, is refused with QUEUE_FULL where 256 wait and with TYPE beyond 1,440 bytes, and is passed over where no service answers. (14_object_dictionary.md R329, 14_object_dictionary.md R330, 14_object_dictionary.md R331, 14_object_dictionary.md R332, 14_object_dictionary.md R336, 14_object_dictionary.md R337, 14_object_dictionary.md R338, 14_object_dictionary.md R340, 14_object_dictionary.md R341) -/
def Obligations.DictionaryReadsAndWrites : Prop :=
  (∀ (s : State) (q : Req) (index sub typ offset n c : Nat) (b : List Byte) (d : ObjDef) (o : Oem) (x : Session),
    q.who < 16777216 → q.waiting < 256 → s.serving = true → s.dict.subs = [] → s.ps.due = 0 → s.ps.shut = none → b.length ≤ 1440 →
    (let l := (objRead s d index sub).encode d.typ
     find s index sub = some d → d.acc ≠ .wo → index ≠ 0x1200 → l.length ≤ 1440 →
      exec (.read q index sub) s =
        .next (s.emit (.response q.who q.tag 0x81 St.ok index sub d.typ.code (changeCount s index sub) l))) ∧
    (find s index sub = none →
      exec (.read q index sub) s = .next (s.emit (.response q.who q.tag 0x81 St.noObject index sub 0 0 []))) ∧
    (index ≠ 0 → find s index sub = some d → d.acc = .ro →
      exec (.write q index sub typ b) s = .next (s.emit (.response q.who q.tag 0x82 St.readOnly index sub 0 0 []))) ∧
    (let k := objKey index sub
     0x4000 ≤ index → index < 0x8000 → 1 ≤ sub → sub < 256 → s.lifeCycle = 2 → Tbl.get s.oem none k = some o → o.acc = .rw →
      o.typ = .u16 → b.length = 2 →
      exec (.write q index sub 2 b) s =
        .next ((countChange { s with oem := Tbl.set s.oem none k (some { o with value := .num (leNat b) }) } index sub).emit
          (.response q.who q.tag 0x82 St.ok index sub 0 0 []))) ∧
    (0x4000 ≤ index → index < 0x8000 → 1 ≤ sub → sub < 256 → s.lifeCycle = 2 → Tbl.get s.oem none (objKey index sub) = some o →
      o.acc = .rw → o.typ = .u16 → typ ≠ 2 ∨ b.length ≠ 2 →
      exec (.write q index sub typ b) s = .next (s.emit (.response q.who q.tag 0x82 St.type index sub 0 2 []))) ∧
    (let l := (objRead s d index sub).encode d.typ
     find s index sub = some d → d.acc ≠ .wo → index ≠ 0x1200 → n ≤ 1440 → offset ≤ l.length →
      exec (.blockRead q index sub offset n) s =
        .next (s.emit (.response q.who q.tag 0x83 St.ok index sub d.typ.code (changeCount s index sub) ((l.drop offset).take n)))) ∧
    (let l := (objRead s d index sub).encode d.typ
     find s index sub = some d → d.acc ≠ .wo → index ≠ 0x1200 → n ≤ 1440 → l.length < offset →
      exec (.blockRead q index sub offset n) s = .next (s.emit (.response q.who q.tag 0x83 St.range index sub 0 0 []))) ∧
    (index ≠ 0 → find s index sub = some d → d.acc ≠ .ro → s.dict.sessions.length < 8 →
      exec (.blockSeg q index sub 0 b) s =
        .next ((sessionPut s q.who index sub b).emit (.response q.who q.tag 0x84 St.ok index sub 0 b.length []))) ∧
    (index ≠ 0 → find s index sub = some d → d.acc ≠ .ro → sessionOf s q.who index sub = some x → x.bytes ≠ [] →
      exec (.blockSeg q index sub x.bytes.length b) s =
        .next ((sessionPut s q.who index sub (x.bytes ++ b)).emit
          (.response q.who q.tag 0x84 St.ok index sub 0 (x.bytes.length + b.length) []))) ∧
    (index ≠ 0 → find s index sub = some d → d.acc ≠ .ro → sessionOf s q.who index sub = some x → x.bytes.length < offset →
      exec (.blockSeg q index sub offset b) s =
        .next ((sessionPut s q.who index sub x.bytes).emit
          (.response q.who q.tag 0x84 St.sequence index sub 0 x.bytes.length []))) ∧
    (index ≠ 0 → find s index sub = some d → d.acc ≠ .ro → sessionOf s q.who index sub = some x → n < 4294967296 → c < 4294967296 →
      n ≠ x.bytes.length ∨ c ≠ crcOf crc32c x.bytes →
      exec (.blockEnd q index sub typ n c) s =
        .next ((s.setDict { s.dict with sessions := sessionsBut s q.who index sub }).emit
          (.response q.who q.tag 0x85 St.check index sub 0 0 []))) ∧
    (let k := objKey index sub
     let u := s.setDict { s.dict with sessions := sessionsBut s q.who index sub }
     0x4000 ≤ index → index < 0x8000 → 1 ≤ sub → sub < 256 → s.lifeCycle = 2 → Tbl.get s.oem none k = some o → o.acc = .rw →
      o.typ = .u16 → sessionOf s q.who index sub = some x → x.bytes = b → b.length = 2 →
      exec (.blockEnd q index sub 2 2 (crcOf crc32c b)) s =
        .next ((countChange { u with oem := Tbl.set s.oem none k (some { o with value := .num (leNat b) }) } index sub).emit
          (.response q.who q.tag 0x85 St.ok index sub 0 0 []))) ∧
    (sessionOf s q.who index sub = some x →
      ∃ t, exec (.blockSessionExpiry q.who index sub) s = .next t ∧ sessionOf t q.who index sub = none ∧
        t.now = max s.now x.till ∧ t.objs = s.objs ∧ t.regs = s.regs ∧
        (Room s 1 → t.ev.intake = s.ev.intake ++ [eventOf 0x1307 (leBytes 2 q.who ++ leBytes 2 index ++ leBytes 1 sub ++ leBytes 4 x.bytes.length)]) ∧
        SameMemory s t) ∧
    (let u := (s.writeRecord index sub d.typ (objRead s d index sub)).nextGeneration
     index ≠ 0 → find s index sub = some d → d.acc = .rwk → s.lifeCycle = 2 → s.flag R.msStatPfail = false →
      exec (.commit q index sub none) s =
        .next (u.emit (.response q.who q.tag 0x89 St.ok index sub 0 ((s.generation + 1) % 4294967296) []))) ∧
    (index ≠ 0 → find s index sub = some d → d.acc = .rwk → s.lifeCycle = 2 → s.flag R.msStatPfail = false →
      (s.writeRecord index sub d.typ (objRead s d index sub)).records ≠ s.records →
      exec (.commit q index sub (some 0)) s =
        .next ((s.log 0x1303 (leBytes 2 index)).emit (.response q.who q.tag 0x89 St.ember index sub 0 index []))) ∧
    (index ≠ 0 → find s index sub = some d → d.acc ≠ .rwk →
      exec (.commit q index sub none) s = .next (s.emit (.response q.who q.tag 0x89 St.state index sub 0 0 []))) ∧
    (0x4000 ≤ index → index < 0x8000 → 1 ≤ sub → sub < 256 → s.lifeCycle = 2 → Tbl.get s.oem none (objKey index sub) = some o →
      o.acc = .rw → o.typ = .u16 →
      exec (.describe q index sub) s = .next (s.emit (.response q.who q.tag 0x8A St.ok index sub ObjTy.blob.code 0
        ([2, 1, 2, 0] ++ leBytes 1 (recordFormat (objKey index sub)) ++ [0, 0, 0] ++ o.value.encode .u16)))) ∧
    (s.lifeCycle = 3 →
      ∃ t, exec (.defaults q) s = .next t ∧ t.out = .response q.who q.tag 0x8B St.ok 0 0 0 0 [] :: s.out ∧
        t.records = s.records.map (fun e => if keptByDefaults e.1 then e else (e.1, { e.2 with erase := true })) ∧
        t.objs = s.objs ∧ t.regs = s.regs ∧ SameMemory s t) ∧
    (s.lifeCycle ≠ 3 →
      exec (.defaults q) s = .next (s.emit (.response q.who q.tag 0x8B St.state 0 0 0 0 [])))) ∧
  (∀ (s : State) (q : Req) (index sub typ offset n c op aux : Nat) (b : List Byte) (fails : Option Nat),
    (exec (.read q index sub) s = .next (settle (request s q 0x01 index sub 0 0 [] none)) ∧
      exec (.write q index sub typ b) s = .next (settle (request s q 0x02 index sub typ 0 b none)) ∧
      exec (.blockRead q index sub offset n) s = .next (settle (request s q 0x03 index sub 0 offset (leBytes 2 n) none)) ∧
      exec (.blockSeg q index sub offset b) s = .next (settle (request s q 0x04 index sub 0 offset b none)) ∧
      exec (.blockEnd q index sub typ n c) s =
        .next (settle (request s q 0x05 index sub typ 0 (leBytes 4 n ++ leBytes 4 c) none)) ∧
      exec (.commit q index sub fails) s = .next (settle (request s q 0x09 index sub 0 0 [] fails)) ∧
      exec (.describe q index sub) s = .next (settle (request s q 0x0A index sub 0 0 [] none)) ∧
      exec (.defaults q) s = .next (settle (request s q 0x0B 0 0 0 0 [] none))) ∧
    exec (.blockSessionExpiry q.who index sub) s = .next (sessionExpiry s q.who index sub) ∧
    (served s q = false → request s q op index sub typ aux b fails = s) ∧
    (served s q = true → overFabric q.who = false → [1, 2, 3, 4, 5, 6, 7, 9, 10, 11].contains op = true → 256 ≤ q.waiting →
      request s q op index sub typ aux b fails = respond (queueFull s) q op index sub (refuse St.queueFull 0)) ∧
    (served s q = true → overFabric q.who = false → [1, 2, 3, 4, 5, 6, 7, 9, 10, 11].contains op = true → q.waiting < 256 →
      b.length ≤ 1440 →
      request s q op index sub typ aux b fails =
        respond (notifyChanges (serveOp s false q.who op index sub typ aux b fails).1) q op index sub
          (serveOp s false q.who op index sub typ aux b fails).2) ∧
    (served s q = true → overFabric q.who = false → [1, 2, 3, 4, 5, 6, 7, 9, 10, 11].contains op = true → q.waiting < 256 →
      1440 < b.length → request s q op index sub typ aux b fails = respond s q op index sub (refuse St.type 1440)))

/-- A SUBSCRIBE to a readable object is kept under a free ID, and UNSUBSCRIBE removes it. At a multiple of its period, or 1 s after the last one for an on-change subscription, a notification goes out under the next sequence. A received NOTIFY reaches the subscription it names, and is discarded where there is none. A response ends its transaction, whose slot and tag stay in use until RELEASE, and one that belongs to none is counted and discarded; a timeout ends it with TIMEOUT. Reading SLOTCLAIM claims the lowest free slot; GO makes a claimed slot BUSY with its request executed; DONE follows with the response in memory; RELEASE frees the slot. (14_object_dictionary.md R338, 14_object_dictionary.md R342, 14_object_dictionary.md R345, 14_object_dictionary.md R346, 20_keeper_events_thermal.md R441, 20_keeper_events_thermal.md R442) -/
def Obligations.SubscriptionsAndTransactions : Prop :=
  (∀ (s : State) (q : Req) (index sub per least id k m n peer alive op seq typ aux : Nat) (b : List Byte) (d : ObjDef) (x : Subscr)
      (y : OwnSub) (r : Remote) (fails : Option Nat), s.serving = true → s.ps.due = 0 → s.ps.shut = none →
    (q.who < 16777216 → q.waiting < 256 → s.dict.subs = [] → find s index sub = some d → d.acc ≠ .wo → s.lifeCycle = 2 →
      maxLength d ≤ 1440 → 1 ≤ per → per ≤ 60000 → least ≤ 60000 →
      ∃ t, exec (.subscribe q index sub per least) s = .next t ∧
        t.dict.subs.map (fun z => (z.id, z.who, z.index, z.sub, z.period, z.least)) =
          [(freeSub s, q.who, index, sub, per, least)] ∧
        t.out = .response q.who q.tag 0x86 St.ok index sub 0 (freeSub s) [] :: s.out ∧ SameMemory s t) ∧
    (q.who < 16777216 → q.waiting < 256 → s.dict.subs = [x] → x.who = q.who → s.lifeCycle = 2 →
      ∃ t, exec (.unsubscribe q x.id) s = .next t ∧ t.dict.subs = [] ∧
        t.out = .response q.who q.tag 0x87 St.ok 0 0 0 0 [] :: s.out ∧ SameMemory s t) ∧
    (s.dict.subs = [x] → x.period ≠ 0 → x.least = 0 → x.who < 16777216 → x.last ≤ s.now →
      ∃ t, exec (.periodicNotify x.id) s = .next t ∧ t.dict.subs.map (·.seq) = [(x.seq + 1) % 65536] ∧
        t.dict.subs.map (·.grid) = [some (gridNext (ms x.period) x.grid s.time.dev)] ∧
        t.get R.kpNrputNrput = (s.get R.kpNrputNrput + 1) % 64 ∧ t.flag ⟨R.kpIrqStat, 1, 1⟩ = true) ∧
    (s.dict.subs = [x] → x.period = 0 → x.who < 16777216 → subValue s x = x.value →
      ∃ t, exec (.notifyKeepalive x.id) s = .next t ∧ t.dict.subs.map (·.seq) = [(x.seq + 1) % 65536] ∧
        t.now = max s.now (x.last + max (sec 1) (ms x.least)) ∧ t.get R.kpNrputNrput = (s.get R.kpNrputNrput + 1) % 64) ∧
    (s.dict.own = [y] → y.peer = peer → y.id = id →
      ∃ t, exec (.notifyReceive peer id seq index sub typ b) s = .next t ∧ t.dict.own = [{ y with seq := some seq, last := s.now }] ∧
        t.get R.kpNrputNrput = (if y.mailbox then (s.get R.kpNrputNrput + 1) % 64 else s.get R.kpNrputNrput)) ∧
    (s.dict.own = [] → exec (.notifyReceive peer id seq index sub typ b) s = .next s) ∧
    (s.dict.remotes = [] → peer < 16777216 →
      exec (.remoteResponse peer alive m op n index sub typ aux b) s = .next (s.setDict { s.dict with late := s.dict.late + 1 })) ∧
    (s.dict.remotes = [r] → r.ended = false → overFabric r.peer = false → r.op ≠ 6 → r.slot = some k → slotState s k = 2 →
      ∃ t, exec (.remoteResponse r.peer alive r.tag (r.op + 128) n index sub typ aux b) s = .next t ∧
        t.dict.remotes = [{ r with ended := true }] ∧
        (t.mailSlot k).response = messageBytes (r.op + 128) n r.tag index sub typ aux b ∧ SameMemory s t) ∧
    (s.dict.remotes = [r] → r.ended = false → r.slot = some k → slotState s k = 2 →
      ∃ t, exec (.remoteTimeout r.tag) s = .next t ∧ t.dict.remotes = [{ r with ended := true }] ∧ t.now = max s.now r.till ∧
        (t.mailSlot k).response = messageBytes (r.op + 128) St.timeout r.tag r.index r.sub 0 0 [] ∧ SameMemory s t) ∧
    (k < 16 → slotState s k = 0 → (∀ j, j < k → slotState s j ≠ 0) →
      ∃ t, exec .slotClaim s = .next t ∧ slotState t k = 1 ∧ t.out = .readValue R.kpSlotclaim k :: s.out ∧
        SameRegs [R.kpSstat k] s t ∧ SameMemory s t) ∧
    ((∀ j, j < 16 → slotState s j ≠ 0) → exec .slotClaim s = .next (s.emit (.readValue R.kpSlotclaim 0xFF))) ∧
    (let h := (mailRead (s.set (R.kpSstatState k) 2) (s.rd64 (R.kpSreqLo k)) 20).1
     k < 16 → slotState s k = 1 → natAt h 0 1 = 0 → natAt h 4 1 = 1 → natAt h 12 2 = 0 → s.dict.subs = [] → n < 256 →
      ∃ t, exec (.mailboxGo k n none) s = .next t ∧ slotState t k = 2 ∧ natAt (t.mailSlot k).response 0 1 = 0x81 ∧
        natAt (t.mailSlot k).response 2 2 = natAt h 6 2 ∧ SameMemory s t) ∧
    (let a := s.rd64 (R.kpSrspLo k)
     k < 16 → slotState s k = 2 → (s.mailSlot k).response = b → b ≠ [] → inSramOrDram s a b.length = true →
      ∃ t, exec (.mailboxDone k) s = .next t ∧ slotState t k = 3 ∧ t.get (R.kpSstatStatus k) = natAt b 1 1 ∧
        (s.flag (R.kpSctrlIrq k) = true → t.flag ⟨R.kpIrqStat, 0, 1⟩ = true) ∧
        (∀ z, z < a ∨ a + b.length ≤ z → t.mem.read z = s.mem.read z)) ∧
    (k < 16 → slotState s k ≠ 0 →
      ∃ t, exec (.mailboxRelease k) s = .next t ∧ slotState t k = 0 ∧ (t.mailSlot k).response = [] ∧
        t.dict.remotes = s.dict.remotes.filter (fun z => z.slot != some k) ∧ SameRegs [R.kpSstat k] s t ∧ SameMemory s t) ∧
    exec (.periodicNotify id) s = .next (periodicNotify s id) ∧
    exec (.notifyKeepalive id) s = .next (keepaliveNotify s id) ∧
    exec (.notifyReceive peer id seq index sub typ b) s = .next (notifyReceive s peer id seq index sub typ b) ∧
    exec (.remoteResponse peer alive m op n index sub typ aux b) s = .next (remoteResponse s peer alive m op n index sub typ aux b) ∧
    exec (.remoteTimeout m) s = .next (remoteTimeout s m) ∧
    (k < 16 → exec (.mailboxGo k n fails) s = .next (mailboxGo s k n fails)) ∧
    (k < 16 → exec (.mailboxDone k) s = .next (settle (mailboxDone s k))) ∧
    (k < 16 → exec (.mailboxRelease k) s = .next (settle (mailboxRelease s k)))) ∧
  (∀ (s : State) (q : Req) (index sub per least id : Nat),
    exec (.subscribe q index sub per least) s =
      .next (settle (request s q 0x06 index sub 0 (per % 65536 + 65536 * (least % 65536)) [] none)) ∧
    exec (.unsubscribe q id) s = .next (settle (request s q 0x07 0 0 0 id [] none)) ∧
    exec .slotClaim s = .next ((slotClaim s).1.emit (.readValue R.kpSlotclaim (slotClaim s).2)))

/-- A doorbell write of a source that is not pending sets it pending, and changes nothing else. A write while the source is pending only increments COALESCED. A write from a processor of a number below 576 sets nothing pending, increments SWDB_IGN, sets IC_STAT.SWDB_ERR, and logs event 0x0405 unless one was logged less than a second ago. A source is a candidate exactly when it is pending, not active and enabled. A pending source that is disabled stays pending through every claim and doorbell write, and through a change of its enable bit. (15_processors_interrupts.md R365) -/
def Obligations.DoorbellsSetSourcesPending : Prop :=
  (∀ (s : State) (who n k t : Nat) (v : Word),
    (13 ≤ who ∨ 576 ≤ n → n < 1024 → s.flag (State.bitAt (R.icPend 0) n) = false →
      exec (.doorbell who n) s = .next (s.set (State.bitAt (R.icPend 0) n) 1)) ∧
    (13 ≤ who ∨ 576 ≤ n → n < 1024 → s.flag (State.bitAt (R.icPend 0) n) = true →
      exec (.doorbell who n) s = .next (s.wr R.icCoalesced (s.rd R.icCoalesced + 1))) ∧
    (who < 13 → n < 576 → s.secondPassed s.procs.doorbellErrAt = true →
      ∃ u, exec (.doorbell who n) s = .next u ∧ u.rd R.icSwdbIgn = s.rd R.icSwdbIgn + 1 ∧ u.flag R.icStatSwdbErr = true ∧
        SameRegs [R.icSwdbIgn, R.icStat] s u ∧ (Room s 1 → u.ev.intake = s.ev.intake ++ [eventOf 0x0405 (leBytes 1 who ++ leBytes 2 n)]) ∧
        u.procs.doorbellErrAt = some s.now ∧ SameMemory s u) ∧
    (who < 13 → n < 576 → s.secondPassed s.procs.doorbellErrAt = false →
      ∃ u, exec (.doorbell who n) s = .next u ∧ u.rd R.icSwdbIgn = s.rd R.icSwdbIgn + 1 ∧ u.flag R.icStatSwdbErr = true ∧
        SameRegs [R.icSwdbIgn, R.icStat] s u ∧ u.ev = s.ev ∧ u.procs = s.procs ∧ SameMemory s u) ∧
    (n < 1024 →
      (n ∈ candidates s ↔ (s.flag (State.bitAt (R.icPend 0) n) = true ∧ s.flag (State.bitAt (R.icActive 0) n) = false ∧
        s.flag (State.bitAt (R.icEn 0) n) = true))) ∧
    (n < 1024 → s.flag (State.bitAt (R.icPend 0) n) = true → s.flag (State.bitAt (R.icEn 0) n) = false →
      ∃ u, exec (.claim who t) s = .next u ∧ u.flag (State.bitAt (R.icPend 0) n) = true) ∧
    (n < 1024 → s.flag (State.bitAt (R.icPend 0) n) = true →
      ∃ u, exec (.doorbell who k) s = .next u ∧ u.flag (State.bitAt (R.icPend 0) n) = true) ∧
    (n < 1024 → k < 32 → s.flag (State.bitAt (R.icPend 0) n) = true →
      ∃ u, exec (.registerWrite who (R.icEn k) 4 v) s = .next u ∧ u.flag (State.bitAt (R.icPend 0) n) = true)) ∧
  ∀ (s : State) (who n : Nat), exec (.doorbell who n) s = .next (doorbell s who n)

/-- A read of IC_TCLAIM of target t by its own processor returns the lowest-numbered source assigned to t. That source becomes active and is no longer pending, the running priority of t becomes its number, and the line of t goes low. With no source assigned the read returns 1,024, changes nothing else and increments SPURIOUS. A read by another processor returns 1,024 without effect. Source 0 assigned to t is claimed ahead of every other source. (15_processors_interrupts.md R368) -/
def Obligations.ClaimsActivateSources : Prop :=
  (∀ (s : State) (who t n : Nat),
    (t < 13 → (n, t) ∈ assignment s → (∀ m, (m, t) ∈ assignment s → n ≤ m) →
      ∃ u, exec (.claim t t) s = .next u ∧ u.out = .claimed t n :: s.out ∧
        u.flag (State.bitAt (R.icActive 0) n) = true ∧ u.flag (State.bitAt (R.icPend 0) n) = false ∧ running u t = n ∧
        (targetStatus u t).toNat / 65536 % 2 = 0 ∧ u.procs.serving = (t, n) :: s.procs.serving ∧
        SameRegs [R.icPend (n / 32), R.icActive (n / 32), R.icTstat t, R.icTclaims t] s u ∧ SameMemory s u) ∧
    (t < 13 → (∀ m, (m, t) ∉ assignment s) →
      exec (.claim t t) s = .next ((s.wr (R.icTspur t) (s.rd (R.icTspur t) + 1)).emit (.claimed t 1024))) ∧
    (t < 13 → who ≠ t → exec (.claim who t) s = .next (s.emit (.claimed t 1024))) ∧
    (t < 13 → (0, t) ∈ assignment s → ∃ u, exec (.claim t t) s = .next u ∧ u.out = .claimed t 0 :: s.out)) ∧
  ∀ (s : State) (who t : Nat), exec (.claim who t) s = .next ((claim s who t).2.emit (.claimed t (claim s who t).1))

/-- A complete of the active source ends its service; any other is ignored, counted and logged at most once per second. A lockstep mismatch of a pair is counted, logged and resets the pair with kind RTW. A DMA submission is accepted, or refused for an address, a full queue or a duplicate tag. Descriptors start in submission order. A copy or fill that ends writes its bytes, its completion entry and nothing else; an invalid one moves nothing and ends with status 4. Acknowledged entries free their slots. An abort ends a descriptor that has not started with status 5. With the engine's clock gated the writes wait and nothing runs. (15_processors_interrupts.md R355, 15_processors_interrupts.md R361, 15_processors_interrupts.md R362, 15_processors_interrupts.md R363, 15_processors_interrupts.md R369) -/
def Obligations.ServiceEndsAndTransfersRun : Prop :=
  ∀ (s : State) (who t n tag head a pair : Nat) (v : Word) (d : List Byte) (o : TagOp), o.tag = tag →
    (t < 13 → who = t → n = running s t → n < 1024 →
      ∃ u, exec (.complete who t n) s = .next u ∧ u.flag (State.bitAt (R.icActive 0) n) = false ∧ running u t = 1024 ∧
        u.procs.serving = s.procs.serving.filter (fun x => x != (t, n)) ∧
        SameRegs [R.icActive (n / 32), R.icTstat t] s u ∧ SameMemory s u) ∧
    (t < 13 → n < 1024 → who ≠ t ∨ n ≠ running s t → s.secondPassed s.procs.completeErrAt = true →
      ∃ u, exec (.complete who t n) s = .next u ∧ u.rd R.icCmplErr = s.rd R.icCmplErr + 1 ∧ u.flag R.icStatCerr = true ∧
        SameRegs [R.icCmplErr, R.icStat] s u ∧
        (Room s 1 → u.ev.intake = s.ev.intake ++ [eventOf 0x0404 (leBytes 1 t ++ leBytes 2 n ++ leBytes 2 (running s t))]) ∧
        SameMemory s u) ∧
    (s.flag R.icCtrlPaired = true → pair < 2 → s.serving = true →
      ∃ u, exec (.lockstepMismatch pair) s = .next u ∧ u.procs.mismatches = (s.procs.mismatches + 1) % 4294967296 ∧
        (Room s 3 → eventOf 0x0403 (leBytes 1 pair) ∈ u.ev.intake) ∧ natAt u.ps.record 0 1 = 6 ∧
        (∀ x, x ∈ u.procs.serving → x.1 ≠ 8 + 2 * pair ∧ x.1 ≠ 9 + 2 * pair) ∧ u.objs = s.objs ∧ SameMemory s u) ∧
    (let u := (s.set R.dmaResultResult 0).set R.dmaResultTag tag
     s.gateOn 13 = true → a = descriptorAt v → inSramOrDram s a 64 = true → readDescriptor s 0 a = (d, s) → natAt d 0 2 = tag →
      s.procs.dma.occupied < 512 → tag ∉ s.procs.dma.tags →
      exec (.dmaSubmit v) s = .next (u.setDma { s.procs.dma with ops := s.procs.dma.ops ++ [{ tag := tag, desc := d }] })) ∧
    (s.gateOn 13 = true → a = descriptorAt v → inSramOrDram s a 64 = false →
      exec (.dmaSubmit v) s = .next (((s.set R.dmaResultResult 3).set R.dmaResultTag 0).countSat R.dmaOccRefused)) ∧
    (s.gateOn 13 = true → a = descriptorAt v → inSramOrDram s a 64 = true → readDescriptor s 0 a = (d, s) → natAt d 0 2 = tag →
      512 ≤ s.procs.dma.occupied →
      exec (.dmaSubmit v) s = .next (((s.set R.dmaResultResult 1).set R.dmaResultTag tag).countSat R.dmaOccRefused)) ∧
    (s.gateOn 13 = true → a = descriptorAt v → inSramOrDram s a 64 = true → readDescriptor s 0 a = (d, s) → natAt d 0 2 = tag →
      s.procs.dma.occupied < 512 → tag ∈ s.procs.dma.tags →
      exec (.dmaSubmit v) s = .next (((s.set R.dmaResultResult 2).set R.dmaResultTag tag).countSat R.dmaOccRefused)) ∧
    (s.gateOn 13 = true → s.flag R.dmaCtrlEn = true → s.procs.dma.running < 8 →
      TagQueue.nextToStart dmaFence s.procs.dma.ops = some o →
      exec .dmaStart s = .next (s.setDma { s.procs.dma with
        ops := s.procs.dma.ops.map fun x => if x.tag = o.tag then { x with started := true, since := s.now } else x })) ∧
    (let ring := s.rd64 R.dmaCqbaseLo + 16 * (s.procs.dma.written % 512)
     s.gateOn 13 = true → s.procs.dma.find tag = some o → o.started = true → o.desc = d → dmaValid s d = true → dmaOp d = 2 →
      s.sram.failed = [] → ring + 16 ≤ dmaDst d ∨ dmaDst d + dmaLen d ≤ ring →
      ∃ u, exec (.dmaComplete tag) s = .next u ∧
        (∀ i, i < dmaLen d → u.mem.read (dmaDst d + i) = BitVec.ofNat 8 (dmaSrc d % 4294967296 / 256 ^ (i % 4))) ∧
        u.mrd ring 16 = completionEntry tag 0 (phaseOf s.procs.dma.written 512) (dmaLen d) s.time.dev ∧
        (∀ x, (x < dmaDst d ∨ dmaDst d + dmaLen d ≤ x) ∧ (x < ring ∨ ring + 16 ≤ x) → u.mem.read x = s.mem.read x) ∧
        tag ∈ u.procs.dma.unacked) ∧
    (let ring := s.rd64 R.dmaCqbaseLo + 16 * (s.procs.dma.written % 512)
     s.gateOn 13 = true → s.procs.dma.find tag = some o → o.started = true → o.desc = d → dmaValid s d = true → dmaOp d = 1 →
      s.sram.failed = [] → s.dram.bad = [] → ring + 16 ≤ dmaDst d ∨ dmaDst d + dmaLen d ≤ ring →
      ∃ u, exec (.dmaComplete tag) s = .next u ∧
        (∀ i, i < dmaLen d → u.mem.read (dmaDst d + i) = s.mem.read (dmaSrc d + i)) ∧
        u.mrd ring 16 = completionEntry tag 0 (phaseOf s.procs.dma.written 512) (dmaLen d) s.time.dev ∧
        (∀ x, (x < dmaDst d ∨ dmaDst d + dmaLen d ≤ x) ∧ (x < ring ∨ ring + 16 ≤ x) → u.mem.read x = s.mem.read x)) ∧
    (let ring := s.rd64 R.dmaCqbaseLo + 16 * (s.procs.dma.written % 512)
     s.gateOn 13 = true → s.procs.dma.find tag = some o → o.started = true → dmaValid s o.desc = false → s.sram.failed = [] →
      ∃ u, exec (.dmaComplete tag) s = .next u ∧
        u.mrd ring 16 = completionEntry tag 4 (phaseOf s.procs.dma.written 512) 0 s.time.dev ∧
        (Room s 1 → u.ev.intake = s.ev.intake ++ [eventOf 0x0408 (leBytes 2 tag ++ leBytes 1 4)]) ∧
        (∀ x, (x < ring ∨ ring + 16 ≤ x) → u.mem.read x = s.mem.read x)) ∧
    (let k := (head + 512 - s.get R.dmaCqheadCqhead % 512) % 512
     s.gateOn 13 = true → head < 512 →
      exec (.dmaCqAck head) s =
        .next ((s.set R.dmaCqheadCqhead head).setDma { s.procs.dma with unacked := s.procs.dma.unacked.drop k })) ∧
    (let ring := s.rd64 R.dmaCqbaseLo + 16 * (s.procs.dma.written % 512)
     s.gateOn 13 = true → tag < 65536 → s.procs.dma.find tag = some o → o.started = false → s.sram.failed = [] →
      ∃ u, exec (.dmaAbort tag) s = .next u ∧
        u.mrd ring 16 = completionEntry tag 5 (phaseOf s.procs.dma.written 512) 0 s.time.dev ∧
        u.procs.dma.ops = s.procs.dma.ops.filter (fun x => x.tag != tag) ∧
        (∀ x, (x < ring ∨ ring + 16 ≤ x) → u.mem.read x = s.mem.read x)) ∧
    (s.gateOn 13 = true → tag < 65536 → s.procs.dma.find tag = some o → o.started = true →
      exec (.dmaAbort tag) s = .next s) ∧
    exec (.complete who t n) s = .next (complete s who t (n % 1024)) ∧
    (s.flag R.icCtrlPaired = true → pair < 2 → s.serving = true →
      exec (.lockstepMismatch pair) s =
        .next (rtReset ({ s with procs := { s.procs with mismatches := (s.procs.mismatches + 1) % 4294967296 } }.log 0x0403
          (leBytes 1 pair)) (pairCores (2 * pair)))) ∧
    (s.flag R.icCtrlPaired = false → exec (.lockstepMismatch pair) s = .next s) ∧
    (s.gateOn 13 = true → exec (.dmaSubmit v) s = .next (dmaSubmit s v) ∧ exec .dmaStart s = .next (dmaStart s) ∧
      exec (.dmaComplete tag) s = .next (dmaComplete s tag) ∧ exec (.dmaCqAck head) s = .next (dmaAck s head) ∧
      exec (.dmaAbort tag) s = .next (dmaAbort s tag)) ∧
    (s.gateOn 13 = false → s.serving = true →
      exec (.dmaSubmit v) s = .next (s.gateWait { addr := R.dmaSubmit, value := v }) ∧
      exec (.dmaCqAck head) s = .next (s.gateWait { addr := R.dmaCqhead, value := BitVec.ofNat 32 head }) ∧
      exec (.dmaAbort tag) s = .next (s.gateWait { addr := R.dmaAbort, value := BitVec.ofNat 32 tag }) ∧
      exec .dmaStart s = .next s ∧ exec (.dmaComplete tag) s = .next s)

/-- A storage submission enters its slot. A write takes the buffer into its block, a read puts the block into the buffer, and each is answered by a completion entry; a write of a submitter that the partition does not name ends with status 7 and writes nothing. A timeout ends the command with status 6, and the late answer of the device is counted. Entries are acknowledged, and a command not started is aborted with status 5. Events 0x0508 and source 453 come once per power cycle at 90 % of life. The scrubber corrects and counts, or marks a word and retires its page. The retirement list is cleared, and the integrity profile written, in SERVICE only. With the engine's clock gated the writes wait. (16_memory_storage.md R378, 16_memory_storage.md R379, 16_memory_storage.md R380, 16_memory_storage.md R384, 16_memory_storage.md R385, 16_memory_storage.md R386, 16_memory_storage.md R387, 16_memory_storage.md R388, 16_memory_storage.md R389) -/
def Obligations.StorageCommandsRun : Prop :=
  ∀ (s : State) (tag head a pct sub value writer : Nat) (media : Bool) (v : Word) (d : List Byte) (o : TagOp), o.tag = tag →
    (s.gateOn 14 = true → a = descriptorAt v → inSramOrDram s a 64 = true → readDescriptor s 1 a = (d, s) → natAt d 0 2 = tag →
      s.flag R.msStatPfail = false → s.flash.queue.occupied < 256 → tag ∉ s.flash.queue.tags →
      ∃ u, exec (.storageSubmit writer v) s = .next u ∧ u.get R.msSresResult = 0 ∧ u.get R.msSresTag = tag ∧
        u.flash.queue.ops.map (fun x => (x.tag, x.desc, x.writer)) =
          s.flash.queue.ops.map (fun x => (x.tag, x.desc, x.writer)) ++ [(tag, d, writer)] ∧ SameMemory s u) ∧
    (s.gateOn 14 = true → a = descriptorAt v → s.flag R.msStatPfail = true → inSramOrDram s a 64 = false →
      exec (.storageSubmit writer v) s = .next ((s.set R.msSresResult 4).set R.msSresTag 0)) ∧
    (let ring := s.rd64 R.msScqbaseLo + 16 * (s.flash.queue.written % 256)
     let key := stPart d * 4294967296 + stLba d
     s.gateOn 14 = true → s.flash.queue.find tag = some o → o.started = true → s.flash.queue.ops = [o] → o.desc = d →
      stCheck s o = 0 → stOp d = 2 → stCount d = 1 → s.sram.failed = [] → s.dram.bad = [] →
      ∃ u, exec (.storageComplete tag false) s = .next u ∧ (Tbl.get u.flash.blocks {} key).data = s.mrd (stBuf d) 4096 ∧
        u.mrd ring 16 = completionEntry tag 0 (phaseOf s.flash.queue.written 256) 0 s.time.dev ∧
        (∀ k, k ≠ key → Tbl.get u.flash.blocks {} k = Tbl.get s.flash.blocks {} k) ∧
        (∀ x, (x < ring ∨ ring + 16 ≤ x) → u.mem.read x = s.mem.read x)) ∧
    (let ring := s.rd64 R.msScqbaseLo + 16 * (s.flash.queue.written % 256)
     let key := stPart d * 4294967296 + stLba d
     s.gateOn 14 = true → s.flash.queue.find tag = some o → o.started = true → s.flash.queue.ops = [o] → o.desc = d →
      stCheck s o = 0 → stOp d = 1 → stCount d = 1 → s.sram.failed = [] → (Tbl.get s.flash.blocks {} key).data.length = 4096 →
      ring + 16 ≤ stBuf d ∨ stBuf d + 4096 ≤ ring →
      ∃ u, exec (.storageComplete tag false) s = .next u ∧ u.mrd (stBuf d) 4096 = (Tbl.get s.flash.blocks {} key).data ∧
        u.mrd ring 16 = completionEntry tag 0 (phaseOf s.flash.queue.written 256) 0 s.time.dev ∧ u.flash.blocks = s.flash.blocks ∧
        (∀ x, (x < stBuf d ∨ stBuf d + 4096 ≤ x) ∧ (x < ring ∨ ring + 16 ≤ x) → u.mem.read x = s.mem.read x)) ∧
    (let ring := s.rd64 R.msScqbaseLo + 16 * (s.flash.queue.written % 256)
     s.gateOn 14 = true → s.flash.queue.find tag = some o → o.started = true → s.flash.queue.ops = [o] →
      stFieldsOk s o.desc = true → stLba o.desc + stCount o.desc ≤ partBlocks.getD (stPart o.desc) 0 → stOp o.desc = 4 →
      partWriter (stPart o.desc) o.writer = false → s.sram.failed = [] →
      ∃ u, exec (.storageComplete tag false) s = .next u ∧ u.flash.blocks = s.flash.blocks ∧
        u.mrd ring 16 = completionEntry tag 7 (phaseOf s.flash.queue.written 256) 0 s.time.dev ∧
        (∀ x, (x < ring ∨ ring + 16 ≤ x) → u.mem.read x = s.mem.read x)) ∧
    (s.gateOn 14 = true → s.flash.queue.find tag = none → tag ∈ s.flash.late →
      exec (.storageComplete tag false) s = .next
        (let u := { s with flash := { s.flash with late := s.flash.late.erase tag } }; u.wr R.msSlate (u.rd R.msSlate + 1))) ∧
    (let ring := s.rd64 R.msScqbaseLo + 16 * (s.flash.queue.written % 256)
     s.flash.queue.find tag = some o → o.started = true → s.sram.failed = [] → o.since + s.get R.msScfgTimeout * 1000000 ≤ s.now →
      ∃ u, exec (.storageTimeout tag) s = .next u ∧ u.flash.late = tag :: s.flash.late ∧ u.flash.blocks = s.flash.blocks ∧
        u.mrd ring 16 = completionEntry tag 6 (phaseOf s.flash.queue.written 256) 0 s.time.dev ∧
        (∀ x, (x < ring ∨ ring + 16 ≤ x) → u.mem.read x = s.mem.read x)) ∧
    (let k := (head + 256 - s.get R.msScqheadCqhead % 256) % 256
     s.gateOn 14 = true → head < 256 →
      exec (.storageCqAck head) s =
        .next ((s.set R.msScqheadCqhead head).setStorage { s.flash.queue with unacked := s.flash.queue.unacked.drop k })) ∧
    (let ring := s.rd64 R.msScqbaseLo + 16 * (s.flash.queue.written % 256)
     s.gateOn 14 = true → tag < 65536 → s.flash.queue.find tag = some o → o.started = false → s.sram.failed = [] →
      ∃ u, exec (.storageAbort tag) s = .next u ∧ u.flash.blocks = s.flash.blocks ∧
        u.mrd ring 16 = completionEntry tag 5 (phaseOf s.flash.queue.written 256) 0 s.time.dev ∧
        (∀ x, (x < ring ∨ ring + 16 ≤ x) → u.mem.read x = s.mem.read x)) ∧
    (90 ≤ pct → pct < 256 → s.flash.lifeLogged = false → s.flag ⟨R.msIrqEn, 5, 1⟩ = true →
      s.flag (State.bitAt (R.icPend 0) 453) = false →
      ∃ u, exec (.flashLifetimeCheck pct) s = .next u ∧ u.flash = { s.flash with life := pct, lifeLogged := true } ∧
        u.flag (State.bitAt (R.icPend 0) 453) = true ∧
        (Room s 1 → u.ev.intake = s.ev.intake ++ [eventOf 0x0508 (leBytes 1 pct)]) ∧ SameMemory s u) ∧
    (pct < 90 ∨ s.flash.lifeLogged = true →
      exec (.flashLifetimeCheck pct) s = .next { s with flash := { s.flash with life := pct } }) ∧
    (s.flag R.msStatEcc = true → inDram s a = true → a % 8 = 0 → a ∉ s.dram.bad → (a / 8 * 8 + 8 ≠ dramTop s) →
      a ∉ s.dram.corrected → s.dram.corrected.length ≤ 1 →
      ∃ u, exec (.scrubRead a 1) s = .next u ∧ u.rd R.msDce = s.rd R.msDce + 1 ∧ u.dram = { s.dram with corrected := a :: s.dram.corrected } ∧
        u.flag R.msStatScrub = true ∧ u.rd R.msScrubpos = BitVec.ofNat 32 ((a - 0x80000000) / 4096) ∧ u.ev = s.ev ∧ SameMemory s u) ∧
    (s.flag R.msStatEcc = true → inDram s a = true → a % 8 = 0 → a ∉ s.dram.bad → (a / 8 * 8 + 8 ≠ dramTop s) →
      (a - 0x80000000) / 4096 ∉ s.dram.retired → s.dram.retired.length < 1024 →
      ∃ u, exec (.scrubRead a 2) s = .next u ∧ u.rd R.msDue = s.rd R.msDue + 1 ∧ u.rd64 R.msDaddrLo = a ∧
        u.dram = { s.dram with bad := a :: s.dram.bad, retired := s.dram.retired ++ [(a - 0x80000000) / 4096] } ∧
        (Room s 2 → eventOf 0x0504 (leBytes 4 ((a - 0x80000000) / 4096)) ∈ u.ev.intake) ∧ SameMemory s u) ∧
    (Serves s → s.lifeCycle = 3 →
      exec .clearRetirementList s =
        .next (accepted { s with dram := { s.dram with retired := [] } } 0x1600 0x08 .u8 (.num 1))) ∧
    (Serves s → s.lifeCycle ≠ 3 → exec .clearRetirementList s = .next (refused s St.state)) ∧
    (Serves s → s.lifeCycle = 3 → 1 ≤ sub → sub ≤ 6 → value ≤ (if sub = 4 then 2 else 1) →
      exec (.integrityProfileWrite sub value) s =
        .next (accepted ((s.setObjN 0x1380 sub value).log 0x050A (leBytes 1 sub ++ leBytes 1 value)) 0x1380 sub .u8 (.num value))) ∧
    (Serves s → s.lifeCycle ≠ 3 → 1 ≤ sub → sub ≤ 6 → value < 256 →
      exec (.integrityProfileWrite sub value) s = .next (refused s St.state)) ∧
    (Serves s → s.lifeCycle = 3 → 1 ≤ sub → sub ≤ 6 → (if sub = 4 then 2 else 1) < value → value < 256 →
      exec (.integrityProfileWrite sub value) s = .next (refused s St.range)) ∧
    (s.gateOn 14 = true → exec (.storageSubmit writer v) s = .next (stSubmit s writer v) ∧
      exec (.storageComplete tag media) s = .next (stComplete s tag media) ∧ exec (.storageCqAck head) s = .next (stAck s head) ∧
      exec (.storageAbort tag) s = .next (stAbort s tag)) ∧
    (s.gateOn 14 = false → s.serving = true →
      exec (.storageSubmit writer v) s = .next (s.gateWait { who := 16 + writer, addr := R.msSsubmit, value := v }) ∧
      exec (.storageCqAck head) s = .next (s.gateWait { addr := R.msScqhead, value := BitVec.ofNat 32 head }) ∧
      exec (.storageAbort tag) s = .next (s.gateWait { addr := R.msSabort, value := BitVec.ofNat 32 tag }) ∧
      exec (.storageComplete tag media) s = .next s) ∧
    exec (.storageTimeout tag) s = .next (stTimeout s tag) ∧
    exec (.flashLifetimeCheck pct) s = .next (flashLifetime s pct) ∧
    exec (.scrubRead a value) s = .next (scrub s a value)

/-- A window with every count inside its limits clears the failures of the RC and the crystal, shows TCXO_CNT and RC_FREQ and logs nothing. The second bad window of check A alone is a TCXO failure: REFFAIL, a reference switch, the RC as reference of the SYS PLL, the non-maskable cause and event 0x0301. Checks A and B together fail the RC with event 0x0303, check C the crystal with 0x0304, check D the recovered clock with 0x0302, and B alone sets MONF with 0x0307. A lost lock is counted, with event 0x0305 and the non-maskable cause. A request of another operating point starts a sequence, whose end puts the point in force. The retry of a main die without clocks comes every second until a reference passes, and then starts it. (17_clocks.md R393, 17_clocks.md R394, 17_clocks.md R396, 17_clocks.md R398, 17_clocks.md R399, 17_clocks.md R400, 17_clocks.md R401, 17_clocks.md R402, 17_clocks.md R403, 20_keeper_events_thermal.md R440) -/
def Obligations.ClocksAreMonitored : Prop :=
  ∀ (s : State) (a b n k op p : Nat) (c d : Option Nat) (t0 : Nat),
    (23920 ≤ a → a ≤ 28080 → 92000 ≤ b → b ≤ 108000 → c = none → d = none → s.clk.runs.getD 2 0 < 2 →
      ∃ t, exec (.monitorWindow a b c d 0) s = .next t ∧ t.rd R.ckTcxocnt = BitVec.ofNat 32 a ∧
        t.rd R.ckRcfreq = BitVec.ofNat 32 (2600000000000 / a) ∧ t.flag R.ckStatRcOk = true ∧ t.flag R.ckStatXtOk = true ∧
        t.flag R.ckStatTcxoOk = true ∧ t.clk.tcxo = s.clk.tcxo ∧ t.clk.rc = false ∧ t.clk.xt = false ∧ t.ev = s.ev ∧
        t.out = s.out ∧ SameMemory s t) ∧
    (28080 < a → 92000 ≤ b → b ≤ 108000 → s.clk.runs.getD 0 0 = 1 → s.clk.runs.getD 2 0 < 2 → s.clk.tcxo = false →
      s.clk.rc = false → s.flag R.ckStatMonf = false → s.flag R.ckStatRecclk = false → s.flag ⟨R.icNmistat, 0, 1⟩ = false →
      ∃ t, exec (.monitorWindow a b none none 0) s = .next t ∧ t.clk.tcxo = true ∧ t.flag R.ckStatTcxoOk = false ∧
        t.flag R.ckStatReffail = true ∧ t.rd R.ckRefswitch = s.rd R.ckRefswitch + 1 ∧ t.clk.sysRef = 2 ∧ t.clk.gnssOff = true ∧
        t.flag ⟨R.icNmistat, 0, 1⟩ = true ∧ (Room s 8 → eventOf 0x0301 [0] ∈ t.ev.intake) ∧ SameMemory s t) ∧
    (28080 < a → 108000 < b → s.clk.runs.getD 0 0 = 1 → s.clk.runs.getD 1 0 = 1 → s.clk.runs.getD 2 0 < 2 →
      s.clk.rc = false → s.clk.sysRef ≠ 2 → s.flag R.ckStatMonf = false →
      ∃ t, exec (.monitorWindow a b none none 0) s = .next t ∧ t.clk.rc = true ∧ t.flag R.ckStatRcOk = false ∧
        t.clk.tcxo = s.clk.tcxo ∧ (Room s 1 → t.ev.intake = s.ev.intake ++ [eventOf 0x0303 (leBytes 4 b)]) ∧ SameMemory s t) ∧
    (23920 ≤ a → a ≤ 28080 → 92000 ≤ b → b ≤ 108000 → 1069 < n → s.clk.runs.getD 2 0 = 1 → s.clk.xt = false →
      ∃ t, exec (.monitorWindow a b (some n) none 0) s = .next t ∧ t.clk.xt = true ∧ t.clk.rtcBad = true ∧
        t.flag R.ckStatXtOk = false ∧ (Room s 1 → t.ev.intake = s.ev.intake ++ [eventOf 0x0304 (leBytes 4 n)]) ∧ SameMemory s t) ∧
    (23920 ≤ a → a ≤ 28080 → 92000 ≤ b → b ≤ 108000 → n < 123750 ∨ 126250 < n → s.clk.runs.getD 2 0 < 2 →
      s.clk.runs.getD 3 0 = 1 → s.flag R.ckStatRecclk = true →
      ∃ t, exec (.monitorWindow a b none (some n) 0) s = .next t ∧ t.flag R.ckStatRecclk = false ∧
        t.rd R.ckRecfail = s.rd R.ckRecfail + 1 ∧ (Room s 16 → (∃ e ∈ t.ev.intake, e.code = 0x0302)) ∧ SameMemory s t) ∧
    (23920 ≤ a → a ≤ 28080 → 108000 < b → s.clk.runs.getD 1 0 = 1 → s.clk.runs.getD 2 0 < 2 → s.flag R.ckStatMonf = false →
      ∃ t, exec (.monitorWindow a b none none 0) s = .next t ∧ t.flag R.ckStatMonf = true ∧ t.clk.tcxo = s.clk.tcxo ∧
        (Room s 1 → t.ev.intake = s.ev.intake ++ [eventOf 0x0307 (leBytes 4 b)]) ∧ SameMemory s t) ∧
    (7 ≤ p → exec (.pllLockLoss p) s = .next s) ∧
    (p < 7 →
      ∃ t, exec (.pllLockLoss p) s = .next t ∧ t.rd R.ckLockloss = s.rd R.ckLockloss + 1 ∧ t.flag ⟨R.icNmistat, 0, 1⟩ = true ∧
        (Room s 16 → eventOf 0x0305 (leBytes 1 p) ∈ t.ev.intake) ∧ t.flag R.ckStatReffail = s.flag R.ckStatReffail ∧
        (p = 5 → t.clk.gnssOff = true ∧ t.flag R.gnStatRflock = false) ∧
        (p = 2 → t.rd R.ckRefswitch = s.rd R.ckRefswitch + 1 ∧ t.clk.sysRef ≠ 0) ∧ SameMemory s t) ∧
    (let w := max op (s.get (R.ckClopCeil k))
     k < 2 → op < 4 → s.flag (R.ckClopBusy k) = false → w ≠ s.get (R.ckClopEff k) → s.clk.target.length = 2 → s.clk.seqEnd.length = 2 →
      ∃ t, exec (.opRequest k op) s = .next t ∧ t.get (R.ckClopReq k) = op ∧ t.flag (R.ckClopBusy k) = true ∧
        t.clk.target.getD k 9 = w ∧ t.clk.seqEnd.getD k 0 = s.now + opSequence (s.get (R.ckClopEff k)) w ∧
        t.get (R.ckClopEff k) = s.get (R.ckClopEff k) ∧ SameRegs [R.ckClop k] s t ∧ SameMemory s t) ∧
    (k < 2 → op < 4 → s.flag (R.ckClopBusy k) = true → exec (.opRequest k op) s = .next (s.set (R.ckClopReq k) op)) ∧
    (k < 2 → s.flag (R.ckClopBusy k) = true → s.clk.target.getD k 2 = max (s.get (R.ckClopReq k)) (s.get (R.ckClopCeil k)) →
      ∃ t, exec (.opSequenceEnd k) s = .next t ∧ t.get (R.ckClopEff k) = s.clk.target.getD k 2 ∧
        t.flag (R.ckClopBusy k) = false ∧ t.rd R.ckOpchanges = s.rd R.ckOpchanges + 1 ∧
        t.now = max s.now (s.clk.seqEnd.getD k 0) ∧ SameRegs [R.ckClop k, R.ckOpchanges] s t ∧ SameMemory s t) ∧
    (s.kp.lostAt = some t0 → s.ps.mode = 7 →
      ∃ t, exec (.clockLossRetry false) s = .next t ∧ t.kp.lostAt = some (t0 + 1000000000) ∧ t.now = max s.now t0 ∧
        t.regs = s.regs ∧ t.ps = s.ps ∧ SameMemory s t) ∧
    (s.kp.lostAt = some t0 → s.ps.mode = 7 → s.lifeCycle ≠ 0 →
      ∃ t, exec (.clockLossRetry true) s = .next t ∧ t.kp.lostAt = none ∧ t.ps.mode ≠ 7 ∧
        t.clk.sysRef = (if s.clk.tcxo then 2 else 0)) ∧
    exec (.monitorWindow a b c d n) s = .next (monitorWindow s a b c d n) ∧
    (op < 4 → exec (.opRequest k op) s = .next (opRequest s k op)) ∧
    (k < 2 → s.flag (R.ckClopBusy k) = true →
      exec (.opSequenceEnd k) s =
        .next (opStart ((((s.passTo (s.clk.seqEnd.getD k 0)).set (R.ckClopEff k) (s.clk.target.getD k 2)).set
          (R.ckClopBusy k) 0).count R.ckOpchanges) k))

/-- Entry into low-supply mode parks the application clusters, drops the camera ports and logs 0x0103; its end, not while the warning stands, releases them. The warning sets its status, MS_STAT.PFAIL and source 1, counts, logs 0x0101, enters low-supply mode and makes written flash durable; its end clears them and logs 0x0102. Exhausted hold-up holds the main die in BOR with DRAM kept, until the start is permitted; without IGN the post-IGN state follows. Over-voltage, ground offset and a low bank input set their status bits and log their events, and the banks or groups of that input are disarmed. The fall of IGN starts the shutdown time, its rise cancels it, and its end disarms every bank and enters the post-IGN state. (18_power.md R406, 18_power.md R407, 18_power.md R408, 18_power.md R409, 18_power.md R410, 18_power.md R412, 18_power.md R413, 18_power.md R415, 18_power.md R416, 18_power.md R417, 19_reset_retention.md R435) -/
def Obligations.SupplyConditionsAct : Prop :=
  ∀ (s : State) (v k inputs : Nat) (steep : Bool) (f : Found), s.ps.mode ≠ 4 →
    (s.pwrFlag 1 = false →
      ∃ t, exec (.lowSupplyEntry v) s = .next t ∧ t.pwrFlag 1 = true ∧ t.pwr.vbatL = F32.ofRat v 10 ∧ t.procs.parked = true ∧
        (∀ x, x < 8 → targetPresent t x = false) ∧ (∀ p, p < 4 → t.flag (R.camPstatLock p) = false) ∧
        (Room s 12 → eventOf 0x0103 [1] ∈ t.ev.intake) ∧ SameMemory s t) ∧
    (s.pwrFlag 1 = true → s.pwrFlag 0 = false → s.clk.gated = [] →
      ∃ t, exec (.lowSupplyExit v) s = .next t ∧ t.pwrFlag 1 = false ∧ t.pwr.vbatL = F32.ofRat v 10 ∧ t.procs.parked = false ∧
        (Room s 1 → t.ev.intake = s.ev.intake ++ [eventOf 0x0103 [0]]) ∧ t.regs = s.regs ∧ SameMemory s t) ∧
    (s.pwrFlag 1 = true → s.pwrFlag 0 = true →
      ∃ t, exec (.lowSupplyExit v) s = .next t ∧ t.pwrFlag 1 = true ∧ t.procs = s.procs ∧ t.ev = s.ev ∧ t.regs = s.regs) ∧
    (s.pwrFlag 0 = false → s.pwr.counters.length = 3 →
      ∃ t, exec (.powerFailWarning steep v) s = .next t ∧ t.pwrFlag 0 = true ∧ t.pwrFlag 1 = true ∧ t.pwrFlag 5 = false ∧
        t.flag R.msStatPfail = true ∧ t.flag R.dpStatPfstop = true ∧ t.flag (State.bitAt (R.icPend 0) 1) = true ∧ t.flash.loose = [] ∧ t.pwr.warnAt = s.now ∧
        t.pwr.counters.getD 0 0 = (s.pwr.counters.getD 0 0 + 1) % 4294967296 ∧
        (Room s 16 → eventOf 0x0101 ((if steep then [2] else [1]) ++ leBytes 2 v) ∈ t.ev.intake)) ∧
    (s.pwrFlag 0 = true → s.pwr.counters.length = 3 →
      ∃ t, exec (.warningClear v) s = .next t ∧ t.pwrFlag 0 = false ∧ t.flag R.msStatPfail = false ∧
        t.pwr.counters.getD 1 0 = (s.pwr.counters.getD 1 0 + 1) % 4294967296 ∧
        (Room s 16 → eventOf 0x0102 (leBytes 4 ((s.now - s.pwr.warnAt) / 1000000)) ∈ t.ev.intake)) ∧
    (s.pwrFlag 2 = false →
      ∃ t, exec (.logicOvervoltage v) s = .next t ∧ t.pwrFlag 2 = true ∧ t.regs = s.regs ∧
        (Room s 1 → t.ev.intake = s.ev.intake ++ [eventOf 0x0104 (leBytes 2 v)]) ∧ SameMemory s t) ∧
    (∃ t, exec (.logicOvervoltageEnd v) s = .next t ∧ t.pwrFlag 2 = false ∧ t.regs = s.regs ∧ t.ev = s.ev ∧ SameMemory s t) ∧
    (s.pwrFlag 0 = true → s.ps.mode ≤ 2 →
      ∃ t, exec .holdupExhausted s = .next t ∧ t.ps.mode = 5 ∧ natAt t.ps.record 0 1 = 1 ∧ t.pending = s.pending ∧
        (∀ a, 0x80000000 ≤ a → t.mem.read a = s.mem.read a) ∧
        (∀ a, a < 0x80000000 → t.mem.read a = 0) ∧ t.sec.otp = s.sec.otp ∧ t.records = s.records) ∧
    (s.pwrFlag 0 = false → exec .holdupExhausted s = .next s) ∧
    (s.ps.mode = 5 → 50 ≤ v → s.pwr.ign ≠ 0 → s.lifeCycle ≠ 0 →
      ∃ t, exec (.startPermitted v f) s = .next t ∧ t.ps.mode ≠ 5 ∧ t.hw = f ∧ t.pending = s.pending) ∧
    (s.ps.mode = 5 → 50 ≤ v → s.pwr.ign = 0 →
      ∃ t, exec (.startPermitted v f) s = .next t ∧ t.ps.mode = 3 + s.objN 0x1300 0x0A % 2) ∧
    (s.ps.mode = 5 → v < 50 → exec (.startPermitted v f) s = .next s) ∧
    (k < 4 → s.pwr.banks.length = 4 →
      (∀ b, b < 12 → s.flag (R.sdBstatDefer b) = false) →
      ∃ t, exec (.bankInputUndervoltage k v) s = .next t ∧ t.pwrFlag (7 + k) = true ∧ t.pwr.banks.getD k 0 = F32.ofRat v 10 ∧
        (Room s 24 → eventOf 0x0105 (leBytes 1 k ++ leBytes 2 v) ∈ t.ev.intake) ∧
        (∀ b, b < 6 → (k = 0 → t.sdArmed b = false) ∧ (k = 1 → t.sdArmed (b + 6) = false)) ∧
        (∀ g, g < 4 → (k = 2 → t.lsArmed g = false) ∧ (k = 3 → t.lsArmed (g + 4) = false)) ∧ SameMemory s t) ∧
    (s.pwrFlag 3 = false →
      ∃ t, exec (.groundOffset v) s = .next t ∧ t.pwrFlag 3 = true ∧ t.pwr.gnd = F32.ofRat v 10 ∧ t.regs = s.regs ∧
        (Room s 1 → t.ev.intake = s.ev.intake ++ [eventOf 0x0106 (leBytes 2 v)]) ∧ SameMemory s t) ∧
    (s.pwrFlag 3 = true →
      ∃ t, exec (.groundOffsetClear v) s = .next t ∧ t.pwrFlag 3 = false ∧ t.pwr.gnd = F32.ofRat v 10 ∧ t.regs = s.regs ∧
        t.ev = s.ev ∧ SameMemory s t) ∧
    (s.pwr.ign ≠ 0 → s.serving = true →
      ∃ t, exec .ignFall s = .next t ∧ t.pwr = { s.pwr with ign := 0, fellAt := s.now } ∧ t.pwrFlag 5 = true ∧ t.regs = s.regs ∧
        (Room s 1 → t.ev.intake = s.ev.intake ++ [eventOf 0x0107 [1]]) ∧ SameMemory s t) ∧
    (s.pwr.ign = 0 → 1 ≤ inputs → inputs ≤ 3 → s.ps.mode ≤ 1 → s.pwrFlag 5 = true →
      ∃ t, exec (.ignRise inputs k f) s = .next t ∧ t.pwr = { s.pwr with ign := inputs } ∧ t.now = s.now + k ∧
        t.pwrFlag 5 = false ∧ t.regs = s.regs ∧ (Room s 1 → t.ev.intake = s.ev.intake ++ [eventOf 0x0107 [0]]) ∧ SameMemory s t) ∧
    (s.pwrFlag 5 = true → s.serving = true → s.objN 0x1300 0x08 = 0 → (∀ b, b < 12 → s.flag (R.sdBstatDefer b) = false) →
      ∃ t, exec .shutdownTimeEnd s = .next t ∧ t.ps.mode = 3 + s.objN 0x1300 0x0A % 2 ∧ t.pwrFlag 5 = false ∧
        t.now = max s.now (s.pwr.fellAt + 1000000000 * s.objN 0x1300 0x07) ∧ (∀ b, b < 12 → t.sdArmed b = false) ∧
        (∀ g, g < 8 → t.lsArmed g = false) ∧ (∃ z, t.ps.rtc = some (t.time.dev, z, t.now))) ∧
    (s.pwrFlag 1 = true → s.pwrFlag 0 = false → exec (.lowSupplyExit v) s = .next (lowSupplyLeave (vbatMeasured s v))) ∧
    exec (.lowSupplyEntry v) s = .next (lowSupplyEnter (vbatMeasured s v)) ∧
    exec (.powerFailWarning steep v) s = .next (powerFailWarning s steep v) ∧
    (k < 4 → exec (.bankInputUndervoltage k v) s = .next (bankUndervoltage s k v)) ∧
    (s.pwr.ign ≠ 0 → s.ps.mode = 6 → exec .ignFall s = .next (powerDown (setPwr s { s.pwr with ign := 0 }) 4 false)) ∧
    (s.pwr.ign = 0 → 1 ≤ inputs → inputs ≤ 3 → s.ps.mode = 3 →
      ∃ t, exec (.ignRise inputs k f) s = .next t ∧ natAt t.ps.record 0 1 = 0 ∧ natAt t.ps.record 1 1 = 1 ∧ t.pwr.ign = inputs ∧
        t.ps.mode ≠ 3 ∧ t.pending = s.pending) ∧
    (s.pwr.ign = 0 → 1 ≤ inputs → inputs ≤ 3 → s.ps.mode = 2 → s.pwrFlag 5 = false →
      exec (.ignRise inputs k f) s = .next (settle (sleepLeave (setPwr (wait s k) { s.pwr with ign := inputs }) 0 1))) ∧
    (s.pwrFlag 5 = true → s.serving = true →
      exec .shutdownTimeEnd s =
        .next (powerDown (s.passTo (s.pwr.fellAt + 1000000000 * s.objN 0x1300 (if s.objN 0x1300 0x08 = 1 then 0x09 else 0x07)))
          (postIgn s) (s.objN 0x1300 0x08 == 1)))

/-- A power-on reset is recorded as POR and wipes memory, a pin reset of at least 10 µs as PIN with DRAM kept and on-die SRAM wiped, a system reset as SYS with memory kept and answered first, a cluster reset as CLU with registers of the stage dies kept; none changes OTP, retained records or the waiting commands. The application starts once due. A request enters IDLE or SLEEP, is refused for DEEP and OFF while IGN is active with event 0x0203, and with RANGE above 4. A listed source wakes from SLEEP, and an enabled source from DEEP, recorded with the source. A kick restarts the main watchdog, and a wrong one only counts. An expiry is counted and recorded as KWD, RTW or KPR by its watchdog, and holds a main die without clocks. (16_memory_storage.md R391, 19_reset_retention.md R421, 19_reset_retention.md R423, 19_reset_retention.md R424, 19_reset_retention.md R426, 19_reset_retention.md R431, 19_reset_retention.md R432, 19_reset_retention.md R433, 19_reset_retention.md R435, 19_reset_retention.md R436, 20_keeper_events_thermal.md R437, 20_keeper_events_thermal.md R439) -/
def Obligations.ResetsAndStatesFollow : Prop :=
  ∀ (s : State) (n away source who k : Nat) (v : Word) (f : Found) (x : Watchdog),
    (∃ t, exec (.powerOnReset n away f) s = .next t ∧ natAt t.ps.record 0 1 = 0 ∧ natAt t.ps.record 2 2 = 1 ∧ t.pwr.ign = n % 4 ∧
      (∀ a, t.mem.read a = 0) ∧ t.now = s.now + away ∧ t.procs.mismatches = 0 ∧ t.hw = f ∧ t.sec.otp = s.sec.otp ∧
      t.records = s.records ∧ t.dict.subs = [] ∧ t.pending = s.pending) ∧
    (s.ps.mode ≠ 4 → 10000 ≤ n →
      ∃ t, exec (.pinReset n f) s = .next t ∧ natAt t.ps.record 0 1 = 2 ∧ natAt t.ps.record 2 2 = 4 ∧ t.now = s.now + n ∧
        (∀ a, 0x80000000 ≤ a → t.mem.read a = s.mem.read a) ∧ (∀ a, a < 0x80000000 → t.mem.read a = 0) ∧
        t.sec.otp = s.sec.otp ∧ t.records = s.records ∧ t.pending = s.pending) ∧
    (n < 2000 → exec (.pinReset n f) s = .next s) ∧
    (Serves s → s.dict.subs = [] → s.ps.due = 0 → s.ps.shut = none →
      ∃ t, exec (.systemReset 0x5359) s = .next t ∧ natAt t.ps.record 0 1 = 4 ∧ natAt t.ps.record 2 2 = 16 ∧
        Out.answered St.ok ∈ t.out ∧ SameMemory s t ∧ t.sec.otp = s.sec.otp ∧ t.records = s.records ∧ t.pending = s.pending) ∧
    (Serves s → n ≠ 0x5359 → n < 65536 → exec (.systemReset n) s = .next (refused s St.range)) ∧
    (Serves s → s.dict.subs = [] → s.ps.due = 0 → s.ps.shut = none → 1 ≤ n → n ≤ 3 → s.ps.mode ≤ 1 →
      ∃ t, exec (.clusterReset n) s = .next t ∧ natAt t.ps.record 0 1 = 5 ∧ natAt t.ps.record 2 2 = 32 ∧ SameMemory s t ∧
        Out.answered St.ok ∈ t.out ∧ t.ps.mode = s.ps.mode ∧ t.objs = s.objs ∧
        (∀ a, a / 65536 = 0x2003 ∨ a / 65536 = 0x2004 → t.rd a = s.rd a) ∧ t.pending = s.pending) ∧
    (s.ps.mode ≤ 1 → s.pwrFlag 1 = false → s.ps.appDue = true →
      exec .applicationStart s = .next { s with ps := { s.ps with appDue := false } }) ∧
    (Serves s → s.dict.subs = [] → s.ps.due = 0 → s.ps.shut = none → s.ps.mode = 0 →
      ∃ t, exec (.stateRequest 1) s = .next t ∧ t.ps.mode = 1 ∧ (Room s 4 → eventOf 0x0202 [0, 1] ∈ t.ev.intake) ∧ SameMemory s t) ∧
    (Serves s → s.dict.subs = [] → s.ps.due = 0 → s.ps.shut = none → s.ps.mode = 0 →
      ∃ t, exec (.stateRequest 2) s = .next t ∧ t.ps.mode = 2 ∧ (∀ z, z < 8 → targetPresent t z = false) ∧
        (Room s 4 → eventOf 0x0202 [0, 2] ∈ t.ev.intake) ∧ SameMemory s t) ∧
    (Serves s → 3 ≤ n → n ≤ 4 → s.pwr.ign ≠ 0 →
      exec (.stateRequest n) s = .next (refused (s.log 0x0203 [BitVec.ofNat 8 n, BitVec.ofNat 8 s.pwr.ign]) St.state)) ∧
    (Serves s → 4 < n → n < 256 → exec (.stateRequest n) s = .next (refused s St.range)) ∧
    (s.ps.mode = 2 → s.ps.due = 0 → s.ps.shut = none → source < 1024 → source ∈ sleepSources s →
      ∃ t, exec (.sleepWake source) s = .next t ∧ t.ps.mode = 0 ∧ natAt t.ps.record 0 1 = 5 ∧ natAt t.ps.record 1 1 = 5 ∧
        t.procs.outOfReset % 256 = 255 ∧ SameMemory s t) ∧
    (s.ps.mode = 3 → deepWakes s source = true →
      ∃ t, exec (.deepWake source away f) s = .next t ∧ natAt t.ps.record 0 1 = 0 ∧ natAt t.ps.record 1 1 = source ∧
        t.ps.mode ≠ 3 ∧ t.pending = s.pending) ∧
    (s.ps.mode ≠ 3 → exec (.deepWake source away f) s = .next s) ∧
    (who < 12 → v = 0x4B49434B → s.objN 0x3300 0x20 ≠ 0 →
      ∃ t, exec (.watchdogKick who 0 v) s = .next t ∧ t.kp.main.till = some (max s.now s.kp.restart + 1000000 * s.objN 0x3300 0x20) ∧
        t.kp.badKicks = s.kp.badKicks ∧ t.regs = s.regs ∧ SameMemory s t) ∧
    (v ≠ 0x4B49434B → exec (.watchdogKick who k v) s = .next (s.setKp { s.kp with badKicks := s.kp.badKicks + 1 })) ∧
    (s.kp.main = x → x.till = some n → s.kp.counters.length = 3 → s.clk.sysRef ≠ 3 →
      ∃ t, exec (.watchdogExpiry 0) s = .next t ∧ natAt t.ps.record 0 1 = 3 ∧
        t.kp.counters.getD 0 0 = (s.kp.counters.getD 0 0 + 1) % 4294967296 ∧ SameMemory s t ∧
        (Room s 1 → eventOf 0x1801 [0] ∈ t.ev.intake) ∧ t.pending = s.pending) ∧
    (k < 4 → Tbl.get s.kp.rt {} k = x → x.till = some n → s.kp.counters.length = 3 →
      ∃ t, exec (.watchdogExpiry (k + 1)) s = .next t ∧ natAt t.ps.record 0 1 = 6 ∧ t.now = max s.now n ∧
        t.kp.counters.getD 1 0 = (s.kp.counters.getD 1 0 + 1) % 4294967296 ∧ t.flag R.ceStatHeld = true ∧
        (Room s 1 → eventOf 0x1801 (leBytes 1 (k + 1)) ∈ t.ev.intake) ∧ SameMemory s t) ∧
    (s.ps.mode ≠ 4 → s.keeperRestarts = false → s.kp.counters.length = 3 →
      ∃ t, exec (.watchdogExpiry 5) s = .next t ∧ natAt t.ps.record 0 1 = 7 ∧ t.dict.subs = [] ∧ t.dict.sessions = [] ∧
        t.kp.counters.getD 2 0 = (s.kp.counters.getD 2 0 + 1) % 4294967296 ∧ (Room s 1 → eventOf 0x1801 [5] ∈ t.ev.intake) ∧ t.ps.mode = s.ps.mode) ∧
    (s.ps.mode ≠ 4 → 2000 ≤ n → n < 10000 →
      exec (.pinReset n f) s = .next (if (Config.freeWord s.freeCtr).toNat % 2 = 0 then s.fresh
        else wait (mainReset (findings s f) { kinds := 4 }) n)) ∧
    (Serves s → exec (.systemReset 0x5359) s = .next (accepted (s.resetDue 4) 0x1300 0x22 .u16 (.num 0x5359))) ∧
    (Serves s → 1 ≤ n → n ≤ 3 → exec (.clusterReset n) s = .next (accepted (cluDue s n 0) 0x1300 0x23 .u8 (.num n))) ∧
    (Serves s → n = 0 ∨ 3 < n → n < 256 → exec (.clusterReset n) s = .next (refused s St.range)) ∧
    (Serves s → s.ps.mode ≤ 1 → n ≤ 1 → exec (.stateRequest n) s = .next (accepted (setMode s n) 0x1300 0x21 .u8 (.num n))) ∧
    (Serves s → s.ps.mode = 2 → n ≤ 1 → exec (.stateRequest n) s = .next (accepted (sleepLeave s n 6) 0x1300 0x21 .u8 (.num n))) ∧
    (Serves s → s.ps.mode ≤ 2 → exec (.stateRequest 2) s = .next (accepted (sleepEnter s) 0x1300 0x21 .u8 (.num 2))) ∧
    (Serves s → 3 ≤ n → n ≤ 4 → s.pwr.ign = 0 →
      exec (.stateRequest n) s = .next (accepted (setPs s { s.ps with shut := some n }) 0x1300 0x21 .u8 (.num n))) ∧
    (Serves s → s.dict.subs = [] → s.ps.due = 0 → 3 ≤ n → n ≤ 4 → s.pwr.ign = 0 → (∀ b, b < 12 → s.flag (R.sdBstatDefer b) = false) →
      ∃ t, exec (.stateRequest n) s = .next t ∧ t.ps.mode = n ∧ (∀ b, b < 12 → t.sdArmed b = false) ∧
        (∀ g, g < 8 → t.lsArmed g = false)) ∧
    exec (.watchdogKick who k v) s = .next (watchdogKick s who k v) ∧
    (s.kp.main.till = some n → s.clk.sysRef = 3 →
      ∃ t, exec (.watchdogExpiry 0) s = .next t ∧ t.ps.mode = 7 ∧ t.kp.lostAt = some (max s.now n + 1000000000) ∧
        t.kp.main = {} ∧ t.pending = s.pending)

/-- A post of an application code enters the intake queue with POSTRES 0, is dropped and counted with POSTRES 1 where it is full, and gives POSTRES 2 with another code. The oldest event becomes the next record of the ring, or a repeat of the latest one, and 127 unspilled records go into the next block of the spill partition unless a power-fail warning stands or the storage controller stands still; a Keeper that restarts writes what it held, and event 0x0204, when it runs again. A die zone's first reading below its warning threshold stands at level 0; a stage zone between warning and shutdown is at level 1 with event 0x1401; a die zone at throttle is at level 2 with the Damper at step 1; a housing zone at shutdown latches, logs 0x1403 and lets the module act 20 ms later; a stage zone at shutdown disarms its banks. Step 2 comes where a zone is still hot. The shutdown disarms every output and holds the main die. (20_keeper_events_thermal.md R443, 20_keeper_events_thermal.md R446, 20_keeper_events_thermal.md R447, 20_keeper_events_thermal.md R448, 20_keeper_events_thermal.md R450, 20_keeper_events_thermal.md R453, 20_keeper_events_thermal.md R455, 20_keeper_events_thermal.md R457, 20_keeper_events_thermal.md R458, 20_keeper_events_thermal.md R459, 19_reset_retention.md R425) -/
def Obligations.EventsAndTemperaturesAreHandled : Prop :=
  ∀ (s : State) (code sev z k : Nat) (a b : Int) (ra rb : Nat) (e : Ev) (rest : List Ev) (t0 : Nat),
    (let l := leBytes 4 (s.rd (R.evPostd 0)).toNat ++ leBytes 4 (s.rd (R.evPostd 1)).toNat ++ leBytes 4 (s.rd (R.evPostd 2)).toNat
     0x4000 ≤ code → code ≤ 0x7FFF → s.ev.intake.length < 64 →
      exec (.eventPost code sev) s = .next ((s.set R.evPostresPostres 0).setEv
        { s.ev with intake := s.ev.intake ++ [⟨code, 4, sev % 4, l⟩] })) ∧
    (0x4000 ≤ code → code ≤ 0x7FFF → s.ev.intake.length = 64 → s.kp.restart ≤ s.now →
      ∃ t, exec (.eventPost code sev) s = .next t ∧ t.get R.evPostresPostres = 1 ∧ t.ev = { s.ev with dropPend := s.ev.dropPend + 1 } ∧
        t.rd R.evDropped = s.rd R.evDropped + 1 ∧ t.flag R.evStatLost = true ∧ SameMemory s t) ∧
    (code < 0x4000 ∨ 0x8000 ≤ code → code < 65536 → exec (.eventPost code sev) s = .next (s.set R.evPostresPostres 2)) ∧
    (s.kp.restart ≤ s.now → s.kp.dropped = 0 → s.ev.intake = e :: rest → repeats s e = false → s.ev.seq < s.ev.unspilled + 16384 → s.ev.dropPend = 0 →
      ∃ t, exec .eventRecordWrite s = .next t ∧ t.ev.intake = rest ∧ t.ev.seq = s.ev.seq + 1 ∧
        ringRecord t s.ev.seq = { code := e.code, source := e.source, sev := e.sev, data := data12 e.data, hours := operatingTime s,
                                  pcycle := s.ev.pcycle, last := operatingTime s, repeats := 0, mark := true } ∧
        (∀ k, k % 16384 ≠ s.ev.seq % 16384 → ringRecord t k = ringRecord s k) ∧
        t.rd R.evWritten = s.rd R.evWritten + 1 ∧ t.get R.evSeqSeq = (s.ev.seq + 1) % 4294967296 ∧ SameMemory s t) ∧
    (s.kp.restart ≤ s.now → s.kp.dropped = 0 → s.ev.intake = e :: rest → repeats s e = true → s.ev.dropPend = 0 →
      ∃ t, exec .eventRecordWrite s = .next t ∧ t.ev.intake = rest ∧ t.ev.seq = s.ev.seq ∧
        ringRecord t (s.ev.seq - 1) = { ringRecord s (s.ev.seq - 1) with
          last := operatingTime s, repeats := min ((ringRecord s (s.ev.seq - 1)).repeats + 1) 65535 } ∧
        t.rd R.evRepeats = s.rd R.evRepeats + 1 ∧ SameMemory s t) ∧
    (s.flag R.msStatPfail = true → exec .eventSpill s = .next (s.set R.evStatSpillstop 1)) ∧
    (s.flag R.msStatPfail = false → s.gateOn 14 = true → s.ev.seq < s.ev.unspilled + 128 → exec .eventSpill s = .next (s.set R.evStatSpillstop 0)) ∧
    (let y := s.ev.spillNext % 524288
     s.flag R.msStatPfail = false → s.gateOn 14 = true → s.ev.unspilled + 128 ≤ s.ev.seq →
      ∃ t, exec .eventSpill s = .next t ∧ t.ev.unspilled = s.ev.unspilled + 127 ∧ t.ev.spillNext = (y + 1) % 524288 ∧
        (Tbl.get t.flash.blocks {} (7 * 4294967296 + y)).data = spillBlock s s.ev.unspilled 127 ∧
        (∀ k, k ≠ 7 * 4294967296 + y → Tbl.get t.flash.blocks {} k = Tbl.get s.flash.blocks {} k) ∧
        t.rd R.evSpilled = s.rd R.evSpilled + 127 ∧ SameMemory s t) ∧
    (z < 4 → s.th = {} → -550 ≤ a → a < 1050 → -550 ≤ b → b < 1050 → (a - b).natAbs ≤ 150 →
      s.get (R.thSensFault (2 * z)) = 0 → s.get (R.thSensFault (2 * z + 1)) = 0 → s.flag ⟨R.thLatch, z, 1⟩ = false →
      s.flag (R.thZstatHeld z) = false → s.flag (R.thZstatRor z) = false →
      ∃ t, exec (.thermalReading z a b ra rb) s = .next t ∧ t.get (R.thZstatLevel z) = 0 ∧ int16 (t.get (R.thZstatTemp z)) = max a b ∧
        int16 (t.get (R.thSensTemp (2 * z))) = a ∧ int16 (t.get (R.thSensTemp (2 * z + 1))) = b ∧ t.th.shutAt = none ∧ t.now = s.now ∧
        SameMemory s t) ∧
    (4 ≤ z → z < 15 → s.th = {} → 1400 ≤ a → a < 1600 → s.get (R.thSensFault (z + 4)) = 0 → s.flag ⟨R.thLatch, z, 1⟩ = false →
      s.flag (R.thZstatHeld z) = false → s.flag (R.thZstatRor z) = false →
      ∃ t, exec (.thermalReading z a b ra rb) s = .next t ∧ t.get (R.thZstatLevel z) = 1 ∧
        (Room s 1 → eventOf 0x1401 (leBytes 1 z ++ [1] ++ leBytes 2 a.toNat) ∈ t.ev.intake) ∧ t.th.counters.getD 0 0 = 1 ∧ SameMemory s t) ∧
    (z < 4 → s.th = {} → 1150 ≤ a → a < 1250 → b = a → s.get (R.thSensFault (2 * z)) = 0 →
      s.get (R.thSensFault (2 * z + 1)) = 0 → s.flag ⟨R.thLatch, z, 1⟩ = false → s.flag (R.thZstatHeld z) = false →
      s.flag (R.thZstatRor z) = false → s.get R.thStatDamper = 0 →
      ∃ t, exec (.thermalReading z a b ra rb) s = .next t ∧ t.get (R.thZstatLevel z) = 2 ∧ t.get R.thStatDamper = 1 ∧
        (Room s 24 → eventOf 0x1402 (leBytes 1 z ++ [1] ++ leBytes 2 a.toNat) ∈ t.ev.intake) ∧ (Room s 24 → eventOf 0x1406 [1] ∈ t.ev.intake) ∧
        2 ≤ t.get (R.ckClopCeil 0) ∧ 2 ≤ t.get (R.ckClopCeil 1) ∧ SameMemory s t) ∧
    (18 ≤ z → z < 20 → s.th = {} → 1100 ≤ a → a ≤ 2000 → s.get (R.thSensFault (z + 4)) = 0 → s.flag ⟨R.thLatch, z, 1⟩ = false →
      ∃ t, exec (.thermalReading z a b ra rb) s = .next t ∧ t.get (R.thZstatLevel z) = 3 ∧ t.flag ⟨R.thLatch, z, 1⟩ = true ∧
        t.th.shutAt = some (s.now + 20000000) ∧ t.flag R.thStatSdpend = true ∧
        (Room s 24 → eventOf 0x1403 (leBytes 1 z ++ leBytes 2 a.toNat) ∈ t.ev.intake) ∧ SameMemory s t) ∧
    (4 ≤ z → z < 7 → s.th = {} → 1600 ≤ a → a ≤ 2000 → s.get (R.thSensFault (z + 4)) = 0 → s.flag ⟨R.thLatch, z, 1⟩ = false →
      (∀ k, k < 12 → s.flag (R.sdBstatDefer k) = false) →
      ∃ t, exec (.thermalReading z a b ra rb) s = .next t ∧ t.flag ⟨R.thLatch, z, 1⟩ = true ∧ t.th.shutAt = none ∧
        (∀ k, k < 4 → t.sdArmed (4 * (z - 4) + k) = false) ∧ SameMemory s t) ∧
    (20 ≤ z → exec (.thermalReading z a b ra rb) s = .next s) ∧
    (s.get R.thStatDamper = 1 → z < 20 → stillHot s z = true →
      ∃ t, exec .damperStep2 s = .next t ∧ t.get R.thStatDamper = 2 ∧ t.now = max s.now (s.th.step1At + 1000000000 * s.objN 0x3400 0x07) ∧
        (Room s 24 → eventOf 0x1406 [2] ∈ t.ev.intake) ∧ 3 ≤ t.get (R.ckClopCeil 0) ∧ 3 ≤ t.get (R.ckClopCeil 1) ∧ SameMemory s t) ∧
    (s.get R.thStatDamper ≠ 1 → exec .damperStep2 s = .next s) ∧
    (s.th.shutAt = some t0 → (∀ k, k < 12 → s.flag (R.sdBstatDefer k) = false) →
      ∃ t, exec .thermalShutdownAct s = .next t ∧ t.ps.mode = 6 ∧ t.th.shutAt = none ∧ t.now = max s.now (max t0 s.kp.restart) ∧
        (∀ k, k < 12 → t.sdArmed k = false) ∧ (∀ g, g < 8 → t.lsArmed g = false) ∧ t.procs.outOfReset = 4096 ∧
        t.ps.record = s.ps.record ∧ t.kp.main.till = none ∧ t.pending = s.pending ∧ SameMemory s t) ∧
    (s.th.shutAt = none → exec .thermalShutdownAct s = .next s) ∧
    (s.gateOn 14 = false → exec .eventSpill s = .next (s.set R.evStatSpillstop 1)) ∧
    (s.now < s.kp.restart → s.kp.dropped = k → k ≠ 0 → s.ev.dropPend = 0 → s.ev.intake = [e] → repeats s e = true →
      ∃ t, exec .eventRecordWrite s = .next t ∧ t.now = s.kp.restart ∧ t.kp.dropped = 0 ∧
        t.ev.intake = [eventOf 0x0204 (leBytes 4 k)]) ∧
    exec (.eventPost code sev) s = .next (eventPost s (code % 65536) sev) ∧
    exec .eventRecordWrite s = .next (eventWrite s) ∧
    (z < 20 → exec (.thermalReading z a b ra rb) s = .next (thermalReading s z a b ra rb)) ∧
    (s.get R.thStatDamper = 1 → (List.range 20).any (stillHot s) = false →
      exec .damperStep2 s = .next (s.passTo (s.th.step1At + 1000000000 * s.objN 0x3400 0x07)))

/-- A submission that SUBRES accepts waits in the queue behind a row in progress, is dispatched at once on an idle panel, which puts its source bytes into the committed frame and an active entry into the journal, or replaces a queued request with the same rectangle, whose tag completes with status 2; a refused one changes nothing but SUBRES. The last row of a rectangle completes its tag with status 1. The rails rise at their instant and fall 100 ms after the last row. A thermistor out of range sets TFAULT with event 0x1504, ten valid readings clear it, and after 60 s the fallback temperature applies. Enabling replays the active journal entries, or rewrites the panel for a new geometry. A rail fault stops the driver, and a restart replays. A read of DP_CPL takes the oldest completion. Geometry is written while the driver is off. A journal entry that fails its check replays the whole panel. With the driver's clock gated the writes wait. (21_panel.md R461, 21_panel.md R462, 21_panel.md R463, 21_panel.md R465, 21_panel.md R466, 21_panel.md R467, 21_panel.md R468, 21_panel.md R469, 21_panel.md R471, 21_panel.md R474, 21_panel.md R475) -/
def Obligations.PanelDrivesItsRows : Prop :=
  ∀ (s : State) (tag y v t0 dv k : Nat) (f : PanelFlight) (q : PanelReq) (c : Int) (neg : Bool) (e : Nat × Nat) (fifo : List (Nat × Nat)),
    (let r := panelRequest s tag
     s.gateOn 16 = true → tag < 65536 → submitResult s r = 0 → s.panel.row.isSome = true →
      exec (.panelSubmit tag) s =
        .next (panelShow ((s.set R.dpSubresResult 0).setPanel { s.panel with queue := s.panel.queue ++ [r] }))) ∧
    (let r := panelRequest s tag
     s.gateOn 16 = true → tag < 65536 → submitResult s r = 2 → s.panel.row.isSome = true → s.panel.queue = [q] → s.flag ⟨R.dpIrqEn, 0, 1⟩ = false →
      ∃ t, exec (.panelSubmit tag) s = .next t ∧ t.get R.dpSubresResult = 2 ∧ t.panel = { s.panel with queue := [r], fifo := s.panel.fifo ++ [(q.tag, 2)] } ∧
        t.rd R.dpCoalesced = s.rd R.dpCoalesced + 1 ∧ SameMemory s t) ∧
    (let n := submitResult s (panelRequest s tag)
     s.gateOn 16 = true → tag < 65536 → n ≠ 0 → n ≠ 2 → s.panel.row.isSome = true →
      exec (.panelSubmit tag) s = .next (panelShow (s.set R.dpSubresResult n))) ∧
    (let r := panelRequest s tag
     s.gateOn 16 = true → tag < 65536 → submitResult s r = 0 → s.panel.row = none → s.panel.flight = [] → s.panel.queue = [] → panelMay s = true →
      s.sram.failed = [] → s.dram.bad = [] → s.panel.journal.length = 4 → s.get R.dpGeomCols ≤ 320 → journalFree s = some k →
      s.flag R.dpStatReplay = false →
      ∃ t, exec (.panelSubmit tag) s = .next t ∧ t.panel.queue = [] ∧
        t.panel.flight.map (fun x => (x.rect, x.tag, x.done, x.replay)) = [(r.rect, some tag, [], false)] ∧
        t.panel.journal.getD k {} = { rect := r.rect, rowsDone := 0, active := true } ∧
        (∀ j i, j < r.rect.h → i < r.rect.w / 4 →
          Tbl.get t.panel.frame 255 (80 * (r.rect.y + j) + r.rect.x / 4 + i) = s.mem.read (r.src + r.stride * j + i)) ∧
        t.panel.firstAt = some (s.now + 500000) ∧ SameMemory s t) ∧
    (s.panel.flight = [f] → f.rect.h = 1 → f.rect.y = y → f.done = [] → f.tag = some tag → f.replay = false → f.entry = k →
      s.panel.queue = [] → s.panel.row = some (y, t0) → k < 4 → s.panel.journal.length = 4 → s.flag R.dpStatReplay = false →
      ∃ t, exec .panelRowEnd s = .next t ∧ t.panel.flight = [] ∧ t.panel.row = none ∧ t.panel.fifo = s.panel.fifo ++ [(tag, 1)] ∧
        (t.panel.journal.getD k {}).active = false ∧ t.rd R.dpDone = s.rd R.dpDone + 1 ∧ t.panel.lastRow = max s.now t0 ∧
        t.now = max s.now t0 ∧ t.panel.frame = s.panel.frame ∧ SameMemory s t) ∧
    (s.panel.row = none → s.panel.firstAt = none → exec .panelRowEnd s = .next s) ∧
    (s.panel.railsAt = some t0 → s.panel.flight = [f] → s.panel.queue = [] → f.rect.h = 1 → f.rect.y = y → f.done = [] → panelMay s = true →
      s.panel.row = none →
      ∃ t, exec .railRise s = .next t ∧ t.flag R.dpStatRails = true ∧ t.now = max s.now t0 ∧ t.panel.row.map (·.1) = some y ∧
        t.rd R.dpRows = s.rd R.dpRows + 1 ∧ t.panel.railsAt = none ∧ SameMemory s t) ∧
    (s.flag R.dpStatRails = true → s.panel.flight = [] → s.panel.queue = [] →
      exec .railFall s = .next ((s.passTo (s.panel.lastRow + 100000000)).set R.dpStatRails 0)) ∧
    (s.gateOn 16 = true → s.panel.readAt = some t0 → s.flag R.dpStatTfault = false → -550 ≤ c → c ≤ 1250 →
      ∃ t, exec (.thermistorRead c) s = .next t ∧ int16 (t.get R.dpTempTemp) = c ∧ t.now = max s.now (t0 + 1000000000) ∧
        t.panel = { s.panel with readAt := some t.now } ∧ t.ev = s.ev ∧ SameMemory s t) ∧
    (s.gateOn 16 = true → s.panel.readAt = none → s.flag R.dpStatTfault = false → 1250 < c →
      ∃ t, exec (.thermistorRead c) s = .next t ∧ t.flag R.dpStatTfault = true ∧ t.panel.brokenAt = s.now ∧
        (Room s 1 → t.ev.intake = s.ev.intake ++ [eventOf 0x1504 [1]]) ∧ t.get R.dpTempTemp = s.get R.dpTempTemp ∧ SameMemory s t) ∧
    (s.gateOn 16 = true → s.flag R.dpStatTfault = true → s.panel.valid = 9 → -550 ≤ c → c ≤ 1250 →
      ∃ t, exec (.thermistorRead c) s = .next t ∧ t.flag R.dpStatTfault = false ∧ int16 (t.get R.dpTempTemp) = c ∧
        (Room s 1 → t.ev.intake = s.ev.intake ++ [eventOf 0x1504 [0]]) ∧ SameMemory s t) ∧
    (s.gateOn 16 = true → s.flag R.dpStatTfault = true →
      exec .thermistorFallback s = .next ((s.passTo (s.panel.brokenAt + 60000000000)).set R.dpTempTemp
        (wrapInt 16 (F32.roundEven (s.objF 0x3500 0x07) 10 1)))) ∧
    (s.gateOn 16 = true → s.flag R.dpStatTfault = false → exec .thermistorFallback s = .next s) ∧
    (s.gateOn 16 = true → s.flag R.dpCtrlEn = false → s.panel.geometry = (s.get R.dpGeomCols, s.get R.dpGeomRows) →
      (∀ j, j < 4 → journalOk s j = true) → s.panel.journal = [{ rect := f.rect, active := true, rowsDone := v }, {}, {}, {}] → s.panel.flight = [] →
      ∃ t, exec .panelReplay s = .next t ∧ t.flag R.dpCtrlEn = true ∧ t.flag R.dpStatReplay = true ∧ t.rd R.dpReplays = s.rd R.dpReplays + 1 ∧
        t.panel.flight.map (fun x => (x.rect, x.tag, x.done, x.replay)) = [(f.rect, none, [], true)] ∧
        t.panel.frame = s.panel.frame ∧ SameMemory s t) ∧
    (s.gateOn 16 = true → s.flag R.dpCtrlEn = false → s.panel.geometry ≠ (s.get R.dpGeomCols, s.get R.dpGeomRows) →
      ∃ t, exec .panelReplay s = .next t ∧ t.flag R.dpCtrlEn = true ∧ t.panel.frame = [] ∧
        t.panel.flight.map (·.rect) = [wholePanel s] ∧ t.panel.geometry = (s.get R.dpGeomCols, s.get R.dpGeomRows) ∧
        (Room s 1 → t.ev.intake = s.ev.intake ++ [eventOf 0x1508 (leBytes 2 (s.get R.dpGeomCols) ++ leBytes 1 (s.get R.dpGeomRows))]) ∧ SameMemory s t) ∧
    (s.gateOn 16 = true → s.flag R.dpCtrlEn = true → exec .panelReplay s = .next s) ∧
    (s.flag R.dpStatRails = true → s.flag R.dpStatRailf = false →
      ∃ t, exec (.railFault neg dv) s = .next t ∧ t.flag R.dpStatRailf = true ∧ t.panel = { s.panel with row := none } ∧
        (Room s 1 → t.ev.intake = s.ev.intake ++ [eventOf 0x1503 ((if neg then [1] else [0]) ++ leBytes 2 dv)]) ∧ SameMemory s t) ∧
    (s.gateOn 16 = true → s.flag R.dpStatRailf = true → s.flag R.dpCtrlEn = true →
      (∀ j, j < 4 → journalOk s j = true) → s.panel.journal = [{ rect := f.rect, active := true, rowsDone := v }, {}, {}, {}] → s.panel.flight = [] →
      ∃ t, exec .panelRestart s = .next t ∧ t.flag R.dpStatRailf = false ∧ t.flag R.dpStatReplay = true ∧
        t.panel.flight.map (fun x => (x.rect, x.tag, x.done, x.replay)) = [(f.rect, none, [], true)] ∧ SameMemory s t) ∧
    (s.gateOn 16 = true → s.flag R.dpStatRailf = false → exec .panelRestart s = .next s) ∧
    (s.panel.fifo = e :: fifo →
      exec .completionPop s = .next ((s.setPanel { s.panel with fifo := fifo }).emit (.readValue R.dpCpl (e.1 + 65536 * e.2)))) ∧
    (s.panel.fifo = [] → exec .completionPop s = .next (s.emit (.readValue R.dpCpl 0))) ∧
    (Serves s → 16 ≤ v → v ≤ 240 → s.flag R.dpCtrlEn = false →
      exec (.geometryWrite 3 v) s = .next (accepted ((s.setObjN 0x3500 3 v).set R.dpGeomRows v) 0x3500 3 .u8 (.num v))) ∧
    (Serves s → v < 16 ∨ 240 < v → v < 256 → exec (.geometryWrite 3 v) s = .next (refused s St.range)) ∧
    (Serves s → 16 ≤ v → v ≤ 240 → s.flag R.dpCtrlEn = true → exec (.geometryWrite 3 v) s = .next (refused s St.busy)) ∧
    (Serves s → 16 ≤ v → v ≤ 320 → v % 8 = 0 → s.flag R.dpCtrlEn = false →
      exec (.geometryWrite 2 v) s = .next (accepted ((s.setObjN 0x3500 2 v).set R.dpGeomCols v) 0x3500 2 .u16 (.num v))) ∧
    (Serves s → v < 16 ∨ 320 < v ∨ v % 8 ≠ 0 → v < 65536 → exec (.geometryWrite 2 v) s = .next (refused s St.range)) ∧
    (Serves s → v ≤ 3 → s.flag R.dpCtrlEn = false →
      exec (.geometryWrite 4 v) s =
        .next (accepted (((s.setObjN 0x3500 4 v).set R.dpGeomFlipx (v % 2)).set R.dpGeomFlipy (v / 2)) 0x3500 4 .u8 (.num v))) ∧
    (Serves s → 3 < v → v < 256 → exec (.geometryWrite 4 v) s = .next (refused s St.range)) ∧
    (Serves s → v ≤ 3 → s.flag R.dpCtrlEn = true → exec (.geometryWrite 4 v) s = .next (refused s St.busy)) ∧
    (s.gateOn 16 = true → s.flag R.dpCtrlEn = false → s.panel.geometry = (s.get R.dpGeomCols, s.get R.dpGeomRows) → k < 4 →
      journalOk s k = false → s.ev.intake = [] →
      ∃ t, exec .panelReplay s = .next t ∧ t.panel.flight.map (fun x => (x.rect, x.tag, x.replay)) = [(wholePanel s, none, true)] ∧
        eventOf 0x1507 (leBytes 1 k) ∈ t.ev.intake ∧ SameMemory s t) ∧
    (s.gateOn 16 = true → exec (.panelSubmit tag) s = .next (panelSubmit s (tag % 65536)) ∧
      exec .panelReplay s = .next (panelEnable s) ∧ exec .panelRestart s = .next (panelRestart s)) ∧
    (s.gateOn 16 = false → s.serving = true →
      exec (.panelSubmit tag) s = .next (s.gateWait { addr := R.dpSubmit, value := BitVec.ofNat 32 tag }) ∧
      exec .panelReplay s = .next (s.gateWait { addr := R.dpCtrl, value := fieldWord s R.dpCtrlEn 1 }) ∧
      exec .panelRestart s = .next (s.gateWait { addr := R.dpCtrl, value := fieldWord s R.dpCtrlRestart 1 }) ∧
      exec (.thermistorRead c) s = .next s ∧ exec .thermistorFallback s = .next s) ∧
    exec .panelRowEnd s = .next (panelRowEnd s) ∧
    (s.panel.railsAt = some t0 → s.panel.flight = [] → exec .railRise s = .next s) ∧
    (s.panel.railsAt = none → exec .railRise s = .next s) ∧
    (s.flag R.dpStatRails = false ∨ s.panel.flight ≠ [] ∨ s.panel.queue ≠ [] → exec .railFall s = .next s) ∧
    (s.flag R.dpStatRails = false ∨ s.flag R.dpStatRailf = true → exec (.railFault neg dv) s = .next s)

/-- A read of the challenge draws a new one valid for 300 s. A token voids the challenge; one that fails a check of R482 is counted and logged as 0x1602 with the cause, and one that passes is counted and revokes its slot, opens debug, or leads through an LCR to the state it names. A transition that Table 22-2 permits is recorded as LCR, wipes memory and changes the state with event 0x1601; another is refused with STATE. A serial number is staged in BLANK only. The hash and the key of an OEM slot are written in PROVISIONED, once, with event 0x1605. Debug is closed by a write or at its end with event 0x1604, and a datagram is answered while it is open. A power-on reset shows whether the device key was reconstructed, and stops before the main die is released where it was not. What SHA-256 and the signature check give is left open (log entry 37). (22_security_update.md R478, 22_security_update.md R479, 22_security_update.md R480, 22_security_update.md R482, 22_security_update.md R483, 22_security_update.md R484, 22_security_update.md R485, 22_security_update.md R487, 16_memory_storage.md R391) -/
def Obligations.SecurityActsAreGuarded : Prop :=
  ∀ (s : State) (l : List Byte) (n k seq op reg t0 : Nat) (w : Word) (f : Found),
    (dictServes s = true →
      exec .challengeRead s = .next ((((s.drawBytes 32).2.setSec { s.sec with
        challenge := some (s.drawBytes 32).1, challengeTill := s.now + 300000000000 })).emit
        (.response 0 0 0x81 St.ok 0x1200 2 ObjTy.blob.code (changeCount s 0x1200 2) (s.drawBytes 32).1))) ∧
    (Serves s → s.dict.subs = [] → s.ps.due = 0 → s.ps.shut = none →
      l.length = 144 →
      ∃ t, exec (.tokenWrite l) s = .next t ∧ t.sec.challenge = none ∧
        (tokenFault s l ≠ 0 →
          t.rd R.secRefused = s.rd R.secRefused + 1 ∧ t.lifeCycle = s.lifeCycle ∧ t.sec.otp = s.sec.otp ∧
          (Room s 3 → t.ev.intake = s.ev.intake ++ [eventOf 0x1602 (leBytes 1 (natAt l 0 1) ++ leBytes 1 (tokenFault s l))]) ∧
          t.out = .answered (if tokenFault s l = 5 then St.state else St.check) :: s.out ∧ SameMemory s t) ∧
        (tokenFault s l = 0 → natAt l 0 1 = 3 →
          t.rd R.secTokens = s.rd R.secTokens + 1 ∧ t.flag ⟨R.secSlots, 4 + natAt l 1 1, 1⟩ = true ∧ slotValid t (natAt l 1 1) = false ∧
          (Room s 3 → t.ev.intake = s.ev.intake ++ [eventOf 0x1605 (leBytes 1 (natAt l 1 1) ++ [3])]) ∧ SameMemory s t) ∧
        (tokenFault s l = 0 → natAt l 0 1 = 2 →
          t.get ⟨R.secDbg, 0, 3⟩ = natAt l 1 1 ∧ t.sec.debugTill = some (s.now + 60000000000 * natAt l 44 4) ∧
          (Room s 3 → t.ev.intake = s.ev.intake ++ [eventOf 0x1603 (leBytes 1 (natAt l 1 1) ++ leBytes 2 (natAt l 44 4))]) ∧ SameMemory s t) ∧
        (tokenFault s l = 0 → natAt l 0 1 = 1 → awaitsConfirmation s = false →
          t.lifeCycle = natAt l 1 1 ∧ natAt t.ps.record 0 1 = 8 ∧ (∀ a, t.mem.read a = 0) ∧ t.sec.otp = s.sec.otp)) ∧
    (Serves s → s.dict.subs = [] → s.ps.due = 0 → s.ps.shut = none →
      (s.lifeCycle = 3 ∧ n = 2) ∨ (s.lifeCycle = 1 ∧ n = 4) → awaitsConfirmation s = false →
      ∃ t, exec (.transitionRequest n) s = .next t ∧ t.lifeCycle = n ∧ natAt t.ps.record 0 1 = 8 ∧ natAt t.ps.record 2 2 = 256 ∧
        (∀ a, t.mem.read a = 0) ∧ t.sec.otp = s.sec.otp ∧ t.sec.target = none ∧ t.get ⟨R.secDbg, 0, 3⟩ = 0 ∧
        (∃ e ∈ t.ev.intake, e = eventOf 0x1601 (leBytes 1 s.lifeCycle ++ leBytes 1 n)) ∧
        Out.answered St.ok ∈ t.out ∧ t.pending = s.pending) ∧
    (Serves s → (s.lifeCycle = 3 ∧ n = 2) ∨ (s.lifeCycle = 1 ∧ n = 4) → awaitsConfirmation s = true →
      exec (.transitionRequest n) s = .next (refused s St.busy)) ∧
    (Serves s → s.dict.subs = [] → s.ps.due = 0 → s.ps.shut = none →
      n = 2 ∧ s.lifeCycle ≠ 3 ∨ n = 4 ∧ s.lifeCycle ≠ 1 →
      ∃ t, exec (.transitionRequest n) s = .next t ∧ t.lifeCycle = s.lifeCycle ∧ t.rd R.secRefused = s.rd R.secRefused + 1 ∧
        (Room s 1 → t.ev.intake = s.ev.intake ++ [eventOf 0x1602 [1, 5]]) ∧ t.out = .answered St.state :: s.out ∧ SameMemory s t) ∧
    (Serves s → n < 10000000000 → exec (.serialStaging n) s = .next (refused s St.state)) ∧
    (dictServes s = true → s.lifeCycle = 0 → n < 10000000000 →
      exec (.serialStaging n) s = .next (accepted (s.setSec { s.sec with staged := some n }) 0x1200 0x0F .u64 (.num n))) ∧
    (let u := (s.setSec { s.sec with otp := { s.sec.otp with hashes := s.sec.otp.hashes.set k (l.drop 1) } }).set ⟨R.secSlots, k, 1⟩ 1
     Serves s → s.lifeCycle = 1 → l.length = 33 → natAt l 0 1 = k → k < 4 → s.sec.otp.hashes.getD k [] = [] →
      exec (.slotHashWrite l) s = .next (accepted (u.log 0x1605 (leBytes 1 k ++ [1])) 0x1200 8 .blob (.bytes l))) ∧
    (Serves s → l.length = 33 → natAt l 0 1 = k → k < 4 → s.lifeCycle ≠ 1 ∨ s.sec.otp.hashes.getD k [] ≠ [] →
      exec (.slotHashWrite l) s = .next (refused s St.state)) ∧
    (let u := (s.setSec { s.sec with otp := { s.sec.otp with keys := s.sec.otp.keys.set k (l.drop 1) } }).set ⟨R.secSlots, 8 + k, 1⟩ 1
     Serves s → s.lifeCycle = 1 → l.length = 33 → natAt l 0 1 = k → k < 4 → s.sec.otp.keys.getD k [] = [] →
      exec (.slotKeyWrite l) s = .next (accepted (u.log 0x1605 (leBytes 1 k ++ [2])) 0x1200 9 .blob (.bytes l))) ∧
    (Serves s → l.length = 33 → natAt l 0 1 = k → k < 4 → s.lifeCycle ≠ 1 ∨ s.sec.otp.keys.getD k [] ≠ [] →
      exec (.slotKeyWrite l) s = .next (refused s St.state)) ∧
    (Serves s → s.dict.subs = [] → s.ps.due = 0 → s.ps.shut = none →
      s.get ⟨R.secDbg, 0, 3⟩ ≠ 0 →
      ∃ t, exec .debugClose s = .next t ∧ t.get ⟨R.secDbg, 0, 3⟩ = 0 ∧ t.sec.debugTill = none ∧
        (Room s 1 → t.ev.intake = s.ev.intake ++ [eventOf 0x1604 [2]]) ∧ t.out = .answered St.ok :: s.out ∧ SameMemory s t) ∧
    (s.sec.debugTill = some t0 → s.get ⟨R.secDbg, 0, 3⟩ ≠ 0 →
      ∃ t, exec .debugExpiry s = .next t ∧ t.get ⟨R.secDbg, 0, 3⟩ = 0 ∧ t.sec.debugTill = none ∧ t.now = max s.now t0 ∧
        (Room s 1 → t.ev.intake = s.ev.intake ++ [eventOf 0x1604 [1]]) ∧ SameMemory s t) ∧
    (s.get ⟨R.secDbg, 0, 3⟩ ≠ 0 → reg < 65536 →
      exec (.debugDatagram seq 1 reg w) s = .next (s.fresh.fresh.emit (.debugReply
        (debugAnswer seq 1 reg (Config.freeWord s.freeCtr) (Config.freeWord (s.freeCtr + 1)))))) ∧
    (s.get ⟨R.secDbg, 0, 3⟩ ≠ 0 → reg < 65536 →
      exec (.debugDatagram seq 2 reg w) s =
        .next (s.fresh.fresh.emit (.debugReply (debugAnswer seq 2 reg w (Config.freeWord (s.freeCtr + 1)))))) ∧
    (s.get ⟨R.secDbg, 0, 3⟩ = 0 → exec (.debugDatagram seq op reg w) s = .next s) ∧
    (s.lifeCycle ≠ 0 →
      ∃ t, exec (.powerOnReset n k f) s = .next t ∧ t.flag R.secLcPufOk = f.puf ∧ (f.puf = false → t.ps.mode = 8)) ∧
    (let r := tokenWrite s l
     Serves s → l.length = 144 →
      exec (.tokenWrite l) s = .next (if r.2.1 = St.ok then accepted r.1 0x1200 3 .blob (.bytes l) else refused r.1 r.2.1)) ∧
    (let r := transitionRequest s n
     Serves s → n = 2 ∨ n = 4 →
      exec (.transitionRequest n) s = .next (if r.2.1 = St.ok then accepted r.1 0x1200 4 .u8 (.num n) else refused r.1 r.2.1)) ∧
    (Serves s → n ≠ 2 → n ≠ 4 → n < 256 → exec (.transitionRequest n) s = .next (refused s St.range)) ∧
    (Serves s → s.lifeCycle = 1 → l.length = 33 → 4 ≤ natAt l 0 1 →
      exec (.slotHashWrite l) s = .next (refused s St.range) ∧ exec (.slotKeyWrite l) s = .next (refused s St.range)) ∧
    (Serves s → exec .debugClose s = .next (accepted (debugClose s 2) 0x1200 6 .u8 (.num 1))) ∧
    (s.sec.debugTill = some t0 → exec .debugExpiry s = .next (debugClose (s.passTo t0) 1)) ∧
    (s.sec.debugTill = none → exec .debugExpiry s = .next s)

/-- A fragment at offset 0 opens the intake of its type, a following one grows it, one at another offset is answered SEQUENCE, one that opens a second session BUSY, and a header that fails a check of Table 22-5 empties the slot with event 0x1702. An abort empties a RECEIVING or VERIFIED slot. The active Hearth starts a relay of a VERIFIED image with event 0x1704, resumes a neighbour, halts where a node has failed, asks the next node to activate while the permit reads 1, ends when every node is done, and halts when an activation times out. An activation of a VERIFIED image with no neighbour in its way swaps the slots and performs its reset; a protocol step of more than one is refused with event 0x1705. A confirmation in the window raises the floor; its end marks the update not confirmed, and a roll-back swaps the slots back with event 0x1709. (22_security_update.md R490, 22_security_update.md R491, 22_security_update.md R492, 22_security_update.md R493, 22_security_update.md R494, 22_security_update.md R495, 22_security_update.md R496, 22_security_update.md R498, 22_security_update.md R499) -/
def Obligations.ImagesAreTakenAndActivated : Prop :=
  ∀ (s : State) (ty session offset p n e0 id pv : Nat) (l data : List Byte) (x : RelayNode) (w : Nat × Nat)
      (seen : List (Nat × Nat)) (look : List (Nat × Nat × Nat × Nat)), 1 ≤ ty → ty ≤ 3 →
    (l = leBytes 4 session ++ leBytes 1 ty ++ [0] ++ leBytes 2 data.length ++ leBytes 8 0 ++ data → session < 4294967296 →
      s.serving = true → s.lifeCycle ≠ 4 → (s.img ty).runs = false → 1 ≤ data.length → data.length < 256 →
      s.upd.types.length = 3 → s.fab.links = [] →
      ∃ t, exec (.intakeFragment 1 l) s = .next t ∧ imgState t ty = 1 ∧ (t.img ty).bytes = data ∧ (t.img ty).runs = true ∧
        (t.img ty).session = some (session, 1) ∧ t.out = .answered St.ok :: s.out ∧
        (Room s 1 → t.ev.intake = s.ev.intake ++ [eventOf 0x1701 (leBytes 1 ty ++ [1] ++ leBytes 8 (conVersion data))]) ∧ SameMemory s t) ∧
    (l = leBytes 4 session ++ leBytes 1 ty ++ [0] ++ leBytes 2 data.length ++ leBytes 8 offset ++ data → session < 4294967296 →
      s.serving = true → s.lifeCycle ≠ 4 → (s.img ty).runs = true → (s.img ty).session = some (session, 1) → imgState s ty = 1 →
      offset = (s.img ty).bytes.length → 1 ≤ data.length → offset + data.length < 256 → s.upd.types.length = 3 →
      ∃ t, exec (.intakeFragment 1 l) s = .next t ∧ imgState t ty = 1 ∧ (t.img ty).bytes = (s.img ty).bytes ++ data ∧
        t.out = .answered St.ok :: s.out ∧ t.ev = s.ev ∧ SameMemory s t) ∧
    (l = leBytes 4 session ++ leBytes 1 ty ++ [0] ++ leBytes 2 data.length ++ leBytes 8 offset ++ data → session < 4294967296 →
      s.serving = true → s.lifeCycle ≠ 4 → (s.img ty).runs = true → (s.img ty).bytes.length < offset → offset < 18446744073709551616 →
      1 ≤ data.length → data.length ≤ 1440 →
      exec (.intakeFragment 1 l) s = .next (s.emit (.answered St.sequence))) ∧
    (l = leBytes 4 session ++ leBytes 1 ty ++ [0] ++ leBytes 2 data.length ++ leBytes 8 0 ++ data → session < 4294967296 →
      s.serving = true → s.lifeCycle ≠ 4 → (s.img ty).runs = true → (s.img ty).session ≠ some (session, 1) →
      1 ≤ data.length → data.length ≤ 1440 →
      exec (.intakeFragment 1 l) s = .next (s.emit (.answered St.busy))) ∧
    (l = leBytes 4 session ++ leBytes 1 ty ++ [0] ++ leBytes 2 data.length ++ leBytes 8 0 ++ data → session < 4294967296 →
      s.serving = true → s.lifeCycle ≠ 4 → (s.img ty).runs = false → 256 ≤ data.length → data.length ≤ 1440 →
      natAt data 0 4 ≠ 0x4D495A4B → s.upd.types.length = 3 →
      ∃ t, exec (.intakeFragment 1 l) s = .next t ∧ imgState t ty = 0 ∧ (t.img ty).bytes = [] ∧ (t.img ty).runs = false ∧
        t.rd R.upRefused = s.rd R.upRefused + 1 ∧ (Room s 2 → eventOf 0x1702 (leBytes 1 ty ++ [1]) ∈ t.ev.intake) ∧
        t.out = .answered St.check :: s.out ∧ SameMemory s t) ∧
    (Serves s → s.dict.subs = [] → s.ps.due = 0 → s.ps.shut = none →
      imgState s ty = 1 ∨ imgState s ty = 2 → s.flag R.upStatRelay = false → s.upd.types.length = 3 →
      ∃ t, exec (.updateAbort ty) s = .next t ∧ imgState t ty = 0 ∧ (t.img ty).bytes = [] ∧ (t.img ty).runs = false ∧
        (t.img ty).active = (s.img ty).active ∧ (Room s 1 → t.ev.intake = s.ev.intake ++ [eventOf 0x170A (leBytes 1 ty)]) ∧
        t.out = .answered St.ok :: s.out ∧ SameMemory s t) ∧
    (Serves s → imgState s ty = 0 ∨ imgState s ty = 3 → exec (.updateAbort ty) s = .next (refused s St.state)) ∧
    (Serves s → s.dict.subs = [] → s.ps.due = 0 → s.ps.shut = none →
      s.activeHearth = true → imgState s 3 = 2 → s.flag R.upStatRelay = false →
      ∃ t, exec (.relayRequest 3 []) s = .next t ∧ t.flag R.upStatRelay = true ∧ t.get R.upStatPhase = 1 ∧ t.upd.typ = 3 ∧
        t.upd.waits = none ∧ (Room s 1 → (∃ z ∈ t.ev.intake, z.code = 0x1704)) ∧ Out.answered St.ok ∈ t.out ∧ SameMemory s t) ∧
    (Serves s → s.activeHearth = false ∨ imgState s ty ≠ 2 → exec (.relayRequest ty seen) s = .next (refused s St.state)) ∧
    (Serves s → s.activeHearth = true → imgState s ty = 2 → s.flag R.upStatRelay = true →
      exec (.relayRequest ty seen) s = .next (refused s St.busy)) ∧
    (s.gateOn 9 = true → (downAt s ty p).resumeAt = some e0 →
      ∃ t, exec (.relayNeighbourResume ty p n) s = .next t ∧ (downAt t ty p).resumeAt = none ∧ (downAt t ty p).received = n ∧
        n ≤ (downAt t ty p).sent ∧ t.now = max s.now e0 ∧ t.regs = s.regs ∧ SameMemory s t) ∧
    (s.serving = true → s.activeHearth = true → s.flag R.upStatRelay = true → s.get R.upStatPhase = 2 → s.upd.nodes = [x] → x.state = 4 →
      ∃ t, exec (.relayActivationStep []) s = .next t ∧ t.flag R.upStatRelay = false ∧ t.get R.upStatPhase = 4 ∧ t.upd.cause = 3 ∧
        (Room s 1 → t.ev.intake = s.ev.intake ++ [eventOf 0x170B ([3] ++ leBytes 2 x.id)]) ∧ SameMemory s t) ∧
    (s.serving = true → s.activeHearth = true → s.flag R.upStatRelay = true → s.get R.upStatPhase = 2 → s.upd.nodes = [x] → x.state = 1 →
      s.upd.waits = none → s.flag R.upStatPermit = true → x.id ≠ s.ownId →
      (let u := nodeWrite (s.set R.upStatPhase 2) x.id 0x0D s.upd.typ
       exec (.relayActivationStep []) s =
        .next (u.setUpd { u.upd with waits := some (x.id, s.now + 1000000000 * s.objN 0x3600 7) }))) ∧
    (s.serving = true → s.activeHearth = true → s.flag R.upStatRelay = true → s.get R.upStatPhase = 2 → s.upd.nodes = [x] →
      x.state = 2 ∨ x.state = 5 → s.upd.waits = none →
      exec (.relayActivationStep []) s = .next (((s.set R.upStatPhase 2).set R.upStatRelay 0).set R.upStatPhase 3)) ∧
    (s.serving = true → s.upd.waits = some w →
      ∃ t, exec .activationTimeout s = .next t ∧ t.flag R.upStatRelay = false ∧ t.get R.upStatPhase = 4 ∧ t.upd.cause = 2 ∧
        t.upd.waits = none ∧ t.now = max s.now w.2 ∧ (Room s 1 → t.ev.intake = s.ev.intake ++ [eventOf 0x170B ([2] ++ leBytes 2 w.1)]) ∧
        SameMemory s t) ∧
    (Serves s → s.dict.subs = [] → s.ps.due = 0 → s.ps.shut = none →
      imgState s ty = 2 →
      (linkedVersions s).find? (fun e => decide (ty ≠ 3) && protoFault (s.img ty).bytes e.2) = none → s.upd.types.length = 3 →
      ∃ t, exec (.activate ty) s = .next t ∧ natAt t.ps.record 0 1 = (if ty = 1 then 7 else 4) ∧
        (Room s 1 → eventOf 0x1706 (leBytes 1 ty ++ leBytes 1 (1 - imgActive s ty) ++ leBytes 8 (conVersion (s.img ty).bytes)) ∈ t.ev.intake) ∧
        Out.answered St.ok ∈ t.out ∧ t.upd.types.length = 3 ∧ SameMemory s t) ∧
    (Serves s → imgState s ty = 2 → (linkedVersions s).find? (fun e => decide (ty ≠ 3) && protoFault (s.img ty).bytes e.2) = some (id, pv) →
      exec (.activate ty) s = .next (refused (s.log 0x1705 (leBytes 2 id ++ leBytes 1 pv)) St.state)) ∧
    (Serves s → imgState s ty ≠ 2 → exec (.activate ty) s = .next (refused s St.state)) ∧
    (Serves s → s.dict.subs = [] → s.ps.due = 0 → s.ps.shut = none →
      imgConf s ty = 1 → inWindow s ty = true → s.upd.types.length = 3 →
      ∃ t, exec (.confirm ty) s = .next t ∧ imgConf t ty = 0 ∧ imgFloor t ty = max (imgFloor s ty) (conSvn (s.img ty).active) % 256 ∧
        (t.img ty).confEnd = none ∧ (t.img ty).runs = false ∧
        (Room s 1 → t.ev.intake = s.ev.intake ++ [eventOf 0x1708 (leBytes 1 ty ++ leBytes 2 (conSvn (s.img ty).active))]) ∧
        t.out = .answered St.ok :: s.out ∧ SameMemory s t) ∧
    (Serves s → imgConf s ty ≠ 1 ∨ inWindow s ty = false → exec (.confirm ty) s = .next (refused s St.state)) ∧
    ((s.img ty).confEnd = some e0 → imgConf s ty = 1 → s.ev.opStop = false → s.upd.types.length = 3 →
      ∃ t, exec (.confirmationExpiry ty) s = .next t ∧ imgConf t ty = 3 ∧ (t.img ty).back = 2 ∧
        t.now = max s.now (s.ev.opSince + 1000000000 * (e0 - s.ev.opTime)) ∧ t.ev = s.ev ∧ SameMemory s t) ∧
    (Serves s → s.dict.subs = [] → s.ps.due = 0 → s.ps.shut = none →
      ty ≠ 1 → inWindow s ty = true → imgConf s ty = 1 ∨ imgConf s ty = 2 → s.upd.types.length = 3 →
      s.sram.failed = [] → thermalLatched s = false → activeOk s 2 = true →
      ∃ t, exec (.rollBack ty) s = .next t ∧ natAt t.ps.record 0 1 = 4 ∧ imgConf t ty = 0 ∧
        (Room s 24 → eventOf 0x1709 (leBytes 1 ty ++ [3]) ∈ t.ev.intake) ∧ Out.answered St.ok ∈ t.out ∧ SameMemory s t) ∧
    (Serves s → inWindow s ty = false → exec (.rollBack ty) s = .next (refused s St.state)) ∧
    (s.serving = true →
      exec (.intakeFragment 1 l) s = .next ((intakeFragment s 1 l).1.emit (.answered (intakeFragment s 1 l).2.1)) ∧
      exec (.intakeFragment 2 l) s =
        .next (flueSendOn (intakeFragment s 2 l).1 ((intakeFragment s 2 l).1.get R.fbPtpportUpport) 3 0x31 0 isResponse
          (leBytes 4 (natAt l 0 4) ++ leBytes 1 (intakeFragment s 2 l).2.1 ++ leBytes 3 0 ++
            leBytes 8 ((intakeFragment s 2 l).1.img (natAt l 4 1)).bytes.length))) ∧
    (let r := intakeFragment s 0 l
     Serves s → 17 ≤ l.length → l.length ≤ 1440 →
      exec (.intakeFragment 0 l) s = .next (if r.2.1 = St.ok then accepted r.1 0x3600 2 .blob (.bytes l) else refused r.1 r.2.1)) ∧
    (let r := updateAbort s ty
     Serves s → exec (.updateAbort ty) s = .next (if r.2.1 = St.ok then accepted r.1 0x3600 3 .u8 (.num ty) else refused r.1 r.2.1)) ∧
    (let r := relayRequest s ty seen
     Serves s →
      exec (.relayRequest ty seen) s = .next (if r.2.1 = St.ok then accepted r.1 0x3600 4 .u8 (.num ty) else refused r.1 r.2.1)) ∧
    (let r := activate s ty
     Serves s → exec (.activate ty) s = .next (if r.2.1 = St.ok then accepted r.1 0x3600 0x0D .u8 (.num ty) else refused r.1 r.2.1)) ∧
    (let r := confirm s ty
     Serves s → exec (.confirm ty) s = .next (if r.2.1 = St.ok then accepted r.1 0x3600 0x0A .u8 (.num ty) else refused r.1 r.2.1)) ∧
    (let r := rollBackRequest s ty
     Serves s → exec (.rollBack ty) s = .next (if r.2.1 = St.ok then accepted r.1 0x3600 0x0B .u8 (.num ty) else refused r.1 r.2.1)) ∧
    (s.serving = true → s.activeHearth = true → s.flag R.upStatRelay = true →
      exec (.relayActivationStep look) s =
        .next (relayStep (look.foldl (relaySeen (conVersion (s.img s.upd.typ).bytes)) (relayJoin s)))) ∧
    (Serves s → n = 0 ∨ 3 < n → n < 256 →
      exec (.updateAbort n) s = .next (refused s St.range) ∧ exec (.relayRequest n seen) s = .next (refused s St.range) ∧
      exec (.activate n) s = .next (refused s St.range) ∧ exec (.confirm n) s = .next (refused s St.range) ∧
      exec (.rollBack n) s = .next (refused s St.range))
end

