-- ==== Sys2Proof/Laws/State.lean ====
section
/-!
SUPPORT. What each elementary update leaves: one lemma per update and per field of the state, so that no later proof unfolds
an update.
-/
namespace Sys2Proof.Machine
namespace State

/-! wr changes regs alone. -/
section
variable (s : State) (a : Nat) (v : Word)
@[simp] theorem wr_now : (s.wr a v).now = s.now := rfl
@[simp] theorem wr_freeCtr : (s.wr a v).freeCtr = s.freeCtr := rfl
@[simp] theorem wr_regs : (s.wr a v).regs = Tbl.set s.regs (regReset a) a v := rfl
@[simp] theorem wr_objs : (s.wr a v).objs = s.objs := rfl
@[simp] theorem wr_oem : (s.wr a v).oem = s.oem := rfl
@[simp] theorem wr_gov : (s.wr a v).gov = s.gov := rfl
@[simp] theorem wr_par : (s.wr a v).par = s.par := rfl
@[simp] theorem wr_gate : (s.wr a v).gate = s.gate := rfl
@[simp] theorem wr_remote : (s.wr a v).remote = s.remote := rfl
@[simp] theorem wr_steer : (s.wr a v).steer = s.steer := rfl
@[simp] theorem wr_fab : (s.wr a v).fab = s.fab := rfl
@[simp] theorem wr_chim : (s.wr a v).chim = s.chim := rfl
@[simp] theorem wr_can : (s.wr a v).can = s.can := rfl
@[simp] theorem wr_cv : (s.wr a v).cv = s.cv := rfl
@[simp] theorem wr_panel : (s.wr a v).panel = s.panel := rfl
@[simp] theorem wr_th : (s.wr a v).th = s.th := rfl
@[simp] theorem wr_kp : (s.wr a v).kp = s.kp := rfl
@[simp] theorem wr_pwr : (s.wr a v).pwr = s.pwr := rfl
@[simp] theorem wr_ps : (s.wr a v).ps = s.ps := rfl
@[simp] theorem wr_dict : (s.wr a v).dict = s.dict := rfl
@[simp] theorem wr_sec : (s.wr a v).sec = s.sec := rfl
@[simp] theorem wr_upd : (s.wr a v).upd = s.upd := rfl
@[simp] theorem wr_changes : (s.wr a v).changes = s.changes := rfl
@[simp] theorem wr_mem : (s.wr a v).mem = s.mem := rfl
@[simp] theorem wr_trellis : (s.wr a v).trellis = s.trellis := rfl
@[simp] theorem wr_delivery : (s.wr a v).delivery = s.delivery := rfl
@[simp] theorem wr_ev : (s.wr a v).ev = s.ev := rfl
@[simp] theorem wr_sens : (s.wr a v).sens = s.sens := rfl
@[simp] theorem wr_pwrStatus : (s.wr a v).pwrStatus = s.pwrStatus := rfl
@[simp] theorem wr_stage : (s.wr a v).stage = s.stage := rfl
@[simp] theorem wr_ce : (s.wr a v).ce = s.ce := rfl
@[simp] theorem wr_stop : (s.wr a v).stop = s.stop := rfl
@[simp] theorem wr_gh : (s.wr a v).gh = s.gh := rfl
@[simp] theorem wr_clk : (s.wr a v).clk = s.clk := rfl
@[simp] theorem wr_sram : (s.wr a v).sram = s.sram := rfl
@[simp] theorem wr_dram : (s.wr a v).dram = s.dram := rfl
@[simp] theorem wr_flash : (s.wr a v).flash = s.flash := rfl
@[simp] theorem wr_gn : (s.wr a v).gn = s.gn := rfl
@[simp] theorem wr_fu : (s.wr a v).fu = s.fu := rfl
@[simp] theorem wr_cam : (s.wr a v).cam = s.cam := rfl
@[simp] theorem wr_intg : (s.wr a v).intg = s.intg := rfl
@[simp] theorem wr_records : (s.wr a v).records = s.records := rfl
@[simp] theorem wr_generation : (s.wr a v).generation = s.generation := rfl
@[simp] theorem wr_procs : (s.wr a v).procs = s.procs := rfl
@[simp] theorem wr_time : (s.wr a v).time = s.time := rfl
@[simp] theorem wr_estP : (s.wr a v).estP = s.estP := rfl
@[simp] theorem wr_estI : (s.wr a v).estI = s.estI := rfl
@[simp] theorem wr_roleInEffect : (s.wr a v).roleInEffect = s.roleInEffect := rfl
@[simp] theorem wr_hw : (s.wr a v).hw = s.hw := rfl
@[simp] theorem wr_out : (s.wr a v).out = s.out := rfl
@[simp] theorem wr_pending : (s.wr a v).pending = s.pending := rfl
end

/-! set changes regs alone. -/
section
variable (s : State) (f : Fld) (v : Nat)
@[simp] theorem set_now : (s.set f v).now = s.now := rfl
@[simp] theorem set_freeCtr : (s.set f v).freeCtr = s.freeCtr := rfl
@[simp] theorem set_objs : (s.set f v).objs = s.objs := rfl
@[simp] theorem set_oem : (s.set f v).oem = s.oem := rfl
@[simp] theorem set_gov : (s.set f v).gov = s.gov := rfl
@[simp] theorem set_par : (s.set f v).par = s.par := rfl
@[simp] theorem set_gate : (s.set f v).gate = s.gate := rfl
@[simp] theorem set_remote : (s.set f v).remote = s.remote := rfl
@[simp] theorem set_steer : (s.set f v).steer = s.steer := rfl
@[simp] theorem set_fab : (s.set f v).fab = s.fab := rfl
@[simp] theorem set_chim : (s.set f v).chim = s.chim := rfl
@[simp] theorem set_can : (s.set f v).can = s.can := rfl
@[simp] theorem set_cv : (s.set f v).cv = s.cv := rfl
@[simp] theorem set_panel : (s.set f v).panel = s.panel := rfl
@[simp] theorem set_th : (s.set f v).th = s.th := rfl
@[simp] theorem set_kp : (s.set f v).kp = s.kp := rfl
@[simp] theorem set_pwr : (s.set f v).pwr = s.pwr := rfl
@[simp] theorem set_ps : (s.set f v).ps = s.ps := rfl
@[simp] theorem set_dict : (s.set f v).dict = s.dict := rfl
@[simp] theorem set_sec : (s.set f v).sec = s.sec := rfl
@[simp] theorem set_upd : (s.set f v).upd = s.upd := rfl
@[simp] theorem set_changes : (s.set f v).changes = s.changes := rfl
@[simp] theorem set_mem : (s.set f v).mem = s.mem := rfl
@[simp] theorem set_trellis : (s.set f v).trellis = s.trellis := rfl
@[simp] theorem set_delivery : (s.set f v).delivery = s.delivery := rfl
@[simp] theorem set_ev : (s.set f v).ev = s.ev := rfl
@[simp] theorem set_sens : (s.set f v).sens = s.sens := rfl
@[simp] theorem set_pwrStatus : (s.set f v).pwrStatus = s.pwrStatus := rfl
@[simp] theorem set_stage : (s.set f v).stage = s.stage := rfl
@[simp] theorem set_ce : (s.set f v).ce = s.ce := rfl
@[simp] theorem set_stop : (s.set f v).stop = s.stop := rfl
@[simp] theorem set_gh : (s.set f v).gh = s.gh := rfl
@[simp] theorem set_clk : (s.set f v).clk = s.clk := rfl
@[simp] theorem set_sram : (s.set f v).sram = s.sram := rfl
@[simp] theorem set_dram : (s.set f v).dram = s.dram := rfl
@[simp] theorem set_flash : (s.set f v).flash = s.flash := rfl
@[simp] theorem set_gn : (s.set f v).gn = s.gn := rfl
@[simp] theorem set_fu : (s.set f v).fu = s.fu := rfl
@[simp] theorem set_cam : (s.set f v).cam = s.cam := rfl
@[simp] theorem set_intg : (s.set f v).intg = s.intg := rfl
@[simp] theorem set_records : (s.set f v).records = s.records := rfl
@[simp] theorem set_generation : (s.set f v).generation = s.generation := rfl
@[simp] theorem set_procs : (s.set f v).procs = s.procs := rfl
@[simp] theorem set_time : (s.set f v).time = s.time := rfl
@[simp] theorem set_estP : (s.set f v).estP = s.estP := rfl
@[simp] theorem set_estI : (s.set f v).estI = s.estI := rfl
@[simp] theorem set_roleInEffect : (s.set f v).roleInEffect = s.roleInEffect := rfl
@[simp] theorem set_hw : (s.set f v).hw = s.hw := rfl
@[simp] theorem set_out : (s.set f v).out = s.out := rfl
@[simp] theorem set_pending : (s.set f v).pending = s.pending := rfl
end

/-! put changes regs alone. -/
section
variable (s : State) (f : Fld) (b : Bool)
@[simp] theorem put_now : (s.put f b).now = s.now := rfl
@[simp] theorem put_freeCtr : (s.put f b).freeCtr = s.freeCtr := rfl
@[simp] theorem put_objs : (s.put f b).objs = s.objs := rfl
@[simp] theorem put_oem : (s.put f b).oem = s.oem := rfl
@[simp] theorem put_gov : (s.put f b).gov = s.gov := rfl
@[simp] theorem put_par : (s.put f b).par = s.par := rfl
@[simp] theorem put_gate : (s.put f b).gate = s.gate := rfl
@[simp] theorem put_remote : (s.put f b).remote = s.remote := rfl
@[simp] theorem put_steer : (s.put f b).steer = s.steer := rfl
@[simp] theorem put_fab : (s.put f b).fab = s.fab := rfl
@[simp] theorem put_chim : (s.put f b).chim = s.chim := rfl
@[simp] theorem put_can : (s.put f b).can = s.can := rfl
@[simp] theorem put_cv : (s.put f b).cv = s.cv := rfl
@[simp] theorem put_panel : (s.put f b).panel = s.panel := rfl
@[simp] theorem put_th : (s.put f b).th = s.th := rfl
@[simp] theorem put_kp : (s.put f b).kp = s.kp := rfl
@[simp] theorem put_pwr : (s.put f b).pwr = s.pwr := rfl
@[simp] theorem put_ps : (s.put f b).ps = s.ps := rfl
@[simp] theorem put_dict : (s.put f b).dict = s.dict := rfl
@[simp] theorem put_sec : (s.put f b).sec = s.sec := rfl
@[simp] theorem put_upd : (s.put f b).upd = s.upd := rfl
@[simp] theorem put_changes : (s.put f b).changes = s.changes := rfl
@[simp] theorem put_mem : (s.put f b).mem = s.mem := rfl
@[simp] theorem put_trellis : (s.put f b).trellis = s.trellis := rfl
@[simp] theorem put_delivery : (s.put f b).delivery = s.delivery := rfl
@[simp] theorem put_ev : (s.put f b).ev = s.ev := rfl
@[simp] theorem put_sens : (s.put f b).sens = s.sens := rfl
@[simp] theorem put_pwrStatus : (s.put f b).pwrStatus = s.pwrStatus := rfl
@[simp] theorem put_stage : (s.put f b).stage = s.stage := rfl
@[simp] theorem put_ce : (s.put f b).ce = s.ce := rfl
@[simp] theorem put_stop : (s.put f b).stop = s.stop := rfl
@[simp] theorem put_gh : (s.put f b).gh = s.gh := rfl
@[simp] theorem put_clk : (s.put f b).clk = s.clk := rfl
@[simp] theorem put_sram : (s.put f b).sram = s.sram := rfl
@[simp] theorem put_dram : (s.put f b).dram = s.dram := rfl
@[simp] theorem put_flash : (s.put f b).flash = s.flash := rfl
@[simp] theorem put_gn : (s.put f b).gn = s.gn := rfl
@[simp] theorem put_fu : (s.put f b).fu = s.fu := rfl
@[simp] theorem put_cam : (s.put f b).cam = s.cam := rfl
@[simp] theorem put_intg : (s.put f b).intg = s.intg := rfl
@[simp] theorem put_records : (s.put f b).records = s.records := rfl
@[simp] theorem put_generation : (s.put f b).generation = s.generation := rfl
@[simp] theorem put_procs : (s.put f b).procs = s.procs := rfl
@[simp] theorem put_time : (s.put f b).time = s.time := rfl
@[simp] theorem put_estP : (s.put f b).estP = s.estP := rfl
@[simp] theorem put_estI : (s.put f b).estI = s.estI := rfl
@[simp] theorem put_roleInEffect : (s.put f b).roleInEffect = s.roleInEffect := rfl
@[simp] theorem put_hw : (s.put f b).hw = s.hw := rfl
@[simp] theorem put_out : (s.put f b).out = s.out := rfl
@[simp] theorem put_pending : (s.put f b).pending = s.pending := rfl
end

/-! count changes regs alone. -/
section
variable (s : State) (a n : Nat)
@[simp] theorem count_now : (s.count a n).now = s.now := rfl
@[simp] theorem count_freeCtr : (s.count a n).freeCtr = s.freeCtr := rfl
@[simp] theorem count_objs : (s.count a n).objs = s.objs := rfl
@[simp] theorem count_oem : (s.count a n).oem = s.oem := rfl
@[simp] theorem count_gov : (s.count a n).gov = s.gov := rfl
@[simp] theorem count_par : (s.count a n).par = s.par := rfl
@[simp] theorem count_gate : (s.count a n).gate = s.gate := rfl
@[simp] theorem count_remote : (s.count a n).remote = s.remote := rfl
@[simp] theorem count_steer : (s.count a n).steer = s.steer := rfl
@[simp] theorem count_fab : (s.count a n).fab = s.fab := rfl
@[simp] theorem count_chim : (s.count a n).chim = s.chim := rfl
@[simp] theorem count_can : (s.count a n).can = s.can := rfl
@[simp] theorem count_cv : (s.count a n).cv = s.cv := rfl
@[simp] theorem count_panel : (s.count a n).panel = s.panel := rfl
@[simp] theorem count_th : (s.count a n).th = s.th := rfl
@[simp] theorem count_kp : (s.count a n).kp = s.kp := rfl
@[simp] theorem count_pwr : (s.count a n).pwr = s.pwr := rfl
@[simp] theorem count_ps : (s.count a n).ps = s.ps := rfl
@[simp] theorem count_dict : (s.count a n).dict = s.dict := rfl
@[simp] theorem count_sec : (s.count a n).sec = s.sec := rfl
@[simp] theorem count_upd : (s.count a n).upd = s.upd := rfl
@[simp] theorem count_changes : (s.count a n).changes = s.changes := rfl
@[simp] theorem count_mem : (s.count a n).mem = s.mem := rfl
@[simp] theorem count_trellis : (s.count a n).trellis = s.trellis := rfl
@[simp] theorem count_delivery : (s.count a n).delivery = s.delivery := rfl
@[simp] theorem count_ev : (s.count a n).ev = s.ev := rfl
@[simp] theorem count_sens : (s.count a n).sens = s.sens := rfl
@[simp] theorem count_pwrStatus : (s.count a n).pwrStatus = s.pwrStatus := rfl
@[simp] theorem count_stage : (s.count a n).stage = s.stage := rfl
@[simp] theorem count_ce : (s.count a n).ce = s.ce := rfl
@[simp] theorem count_stop : (s.count a n).stop = s.stop := rfl
@[simp] theorem count_gh : (s.count a n).gh = s.gh := rfl
@[simp] theorem count_clk : (s.count a n).clk = s.clk := rfl
@[simp] theorem count_sram : (s.count a n).sram = s.sram := rfl
@[simp] theorem count_dram : (s.count a n).dram = s.dram := rfl
@[simp] theorem count_flash : (s.count a n).flash = s.flash := rfl
@[simp] theorem count_gn : (s.count a n).gn = s.gn := rfl
@[simp] theorem count_fu : (s.count a n).fu = s.fu := rfl
@[simp] theorem count_cam : (s.count a n).cam = s.cam := rfl
@[simp] theorem count_intg : (s.count a n).intg = s.intg := rfl
@[simp] theorem count_records : (s.count a n).records = s.records := rfl
@[simp] theorem count_generation : (s.count a n).generation = s.generation := rfl
@[simp] theorem count_procs : (s.count a n).procs = s.procs := rfl
@[simp] theorem count_time : (s.count a n).time = s.time := rfl
@[simp] theorem count_estP : (s.count a n).estP = s.estP := rfl
@[simp] theorem count_estI : (s.count a n).estI = s.estI := rfl
@[simp] theorem count_roleInEffect : (s.count a n).roleInEffect = s.roleInEffect := rfl
@[simp] theorem count_hw : (s.count a n).hw = s.hw := rfl
@[simp] theorem count_out : (s.count a n).out = s.out := rfl
@[simp] theorem count_pending : (s.count a n).pending = s.pending := rfl
end

/-! wr64 changes regs alone. -/
section
variable (s : State) (a v : Nat)
@[simp] theorem wr64_now : (s.wr64 a v).now = s.now := rfl
@[simp] theorem wr64_freeCtr : (s.wr64 a v).freeCtr = s.freeCtr := rfl
@[simp] theorem wr64_objs : (s.wr64 a v).objs = s.objs := rfl
@[simp] theorem wr64_oem : (s.wr64 a v).oem = s.oem := rfl
@[simp] theorem wr64_gov : (s.wr64 a v).gov = s.gov := rfl
@[simp] theorem wr64_par : (s.wr64 a v).par = s.par := rfl
@[simp] theorem wr64_gate : (s.wr64 a v).gate = s.gate := rfl
@[simp] theorem wr64_remote : (s.wr64 a v).remote = s.remote := rfl
@[simp] theorem wr64_steer : (s.wr64 a v).steer = s.steer := rfl
@[simp] theorem wr64_fab : (s.wr64 a v).fab = s.fab := rfl
@[simp] theorem wr64_chim : (s.wr64 a v).chim = s.chim := rfl
@[simp] theorem wr64_can : (s.wr64 a v).can = s.can := rfl
@[simp] theorem wr64_cv : (s.wr64 a v).cv = s.cv := rfl
@[simp] theorem wr64_panel : (s.wr64 a v).panel = s.panel := rfl
@[simp] theorem wr64_th : (s.wr64 a v).th = s.th := rfl
@[simp] theorem wr64_kp : (s.wr64 a v).kp = s.kp := rfl
@[simp] theorem wr64_pwr : (s.wr64 a v).pwr = s.pwr := rfl
@[simp] theorem wr64_ps : (s.wr64 a v).ps = s.ps := rfl
@[simp] theorem wr64_dict : (s.wr64 a v).dict = s.dict := rfl
@[simp] theorem wr64_sec : (s.wr64 a v).sec = s.sec := rfl
@[simp] theorem wr64_upd : (s.wr64 a v).upd = s.upd := rfl
@[simp] theorem wr64_changes : (s.wr64 a v).changes = s.changes := rfl
@[simp] theorem wr64_mem : (s.wr64 a v).mem = s.mem := rfl
@[simp] theorem wr64_trellis : (s.wr64 a v).trellis = s.trellis := rfl
@[simp] theorem wr64_delivery : (s.wr64 a v).delivery = s.delivery := rfl
@[simp] theorem wr64_ev : (s.wr64 a v).ev = s.ev := rfl
@[simp] theorem wr64_sens : (s.wr64 a v).sens = s.sens := rfl
@[simp] theorem wr64_pwrStatus : (s.wr64 a v).pwrStatus = s.pwrStatus := rfl
@[simp] theorem wr64_stage : (s.wr64 a v).stage = s.stage := rfl
@[simp] theorem wr64_ce : (s.wr64 a v).ce = s.ce := rfl
@[simp] theorem wr64_stop : (s.wr64 a v).stop = s.stop := rfl
@[simp] theorem wr64_gh : (s.wr64 a v).gh = s.gh := rfl
@[simp] theorem wr64_clk : (s.wr64 a v).clk = s.clk := rfl
@[simp] theorem wr64_sram : (s.wr64 a v).sram = s.sram := rfl
@[simp] theorem wr64_dram : (s.wr64 a v).dram = s.dram := rfl
@[simp] theorem wr64_flash : (s.wr64 a v).flash = s.flash := rfl
@[simp] theorem wr64_gn : (s.wr64 a v).gn = s.gn := rfl
@[simp] theorem wr64_fu : (s.wr64 a v).fu = s.fu := rfl
@[simp] theorem wr64_cam : (s.wr64 a v).cam = s.cam := rfl
@[simp] theorem wr64_intg : (s.wr64 a v).intg = s.intg := rfl
@[simp] theorem wr64_records : (s.wr64 a v).records = s.records := rfl
@[simp] theorem wr64_generation : (s.wr64 a v).generation = s.generation := rfl
@[simp] theorem wr64_procs : (s.wr64 a v).procs = s.procs := rfl
@[simp] theorem wr64_time : (s.wr64 a v).time = s.time := rfl
@[simp] theorem wr64_estP : (s.wr64 a v).estP = s.estP := rfl
@[simp] theorem wr64_estI : (s.wr64 a v).estI = s.estI := rfl
@[simp] theorem wr64_roleInEffect : (s.wr64 a v).roleInEffect = s.roleInEffect := rfl
@[simp] theorem wr64_hw : (s.wr64 a v).hw = s.hw := rfl
@[simp] theorem wr64_out : (s.wr64 a v).out = s.out := rfl
@[simp] theorem wr64_pending : (s.wr64 a v).pending = s.pending := rfl
end

/-! emit changes out alone. -/
section
variable (s : State) (o : Out)
@[simp] theorem emit_now : (s.emit o).now = s.now := rfl
@[simp] theorem emit_freeCtr : (s.emit o).freeCtr = s.freeCtr := rfl
@[simp] theorem emit_regs : (s.emit o).regs = s.regs := rfl
@[simp] theorem emit_objs : (s.emit o).objs = s.objs := rfl
@[simp] theorem emit_oem : (s.emit o).oem = s.oem := rfl
@[simp] theorem emit_gov : (s.emit o).gov = s.gov := rfl
@[simp] theorem emit_par : (s.emit o).par = s.par := rfl
@[simp] theorem emit_gate : (s.emit o).gate = s.gate := rfl
@[simp] theorem emit_remote : (s.emit o).remote = s.remote := rfl
@[simp] theorem emit_steer : (s.emit o).steer = s.steer := rfl
@[simp] theorem emit_fab : (s.emit o).fab = s.fab := rfl
@[simp] theorem emit_chim : (s.emit o).chim = s.chim := rfl
@[simp] theorem emit_can : (s.emit o).can = s.can := rfl
@[simp] theorem emit_cv : (s.emit o).cv = s.cv := rfl
@[simp] theorem emit_panel : (s.emit o).panel = s.panel := rfl
@[simp] theorem emit_th : (s.emit o).th = s.th := rfl
@[simp] theorem emit_kp : (s.emit o).kp = s.kp := rfl
@[simp] theorem emit_pwr : (s.emit o).pwr = s.pwr := rfl
@[simp] theorem emit_ps : (s.emit o).ps = s.ps := rfl
@[simp] theorem emit_dict : (s.emit o).dict = s.dict := rfl
@[simp] theorem emit_sec : (s.emit o).sec = s.sec := rfl
@[simp] theorem emit_upd : (s.emit o).upd = s.upd := rfl
@[simp] theorem emit_changes : (s.emit o).changes = s.changes := rfl
@[simp] theorem emit_mem : (s.emit o).mem = s.mem := rfl
@[simp] theorem emit_trellis : (s.emit o).trellis = s.trellis := rfl
@[simp] theorem emit_delivery : (s.emit o).delivery = s.delivery := rfl
@[simp] theorem emit_ev : (s.emit o).ev = s.ev := rfl
@[simp] theorem emit_sens : (s.emit o).sens = s.sens := rfl
@[simp] theorem emit_pwrStatus : (s.emit o).pwrStatus = s.pwrStatus := rfl
@[simp] theorem emit_stage : (s.emit o).stage = s.stage := rfl
@[simp] theorem emit_ce : (s.emit o).ce = s.ce := rfl
@[simp] theorem emit_stop : (s.emit o).stop = s.stop := rfl
@[simp] theorem emit_gh : (s.emit o).gh = s.gh := rfl
@[simp] theorem emit_clk : (s.emit o).clk = s.clk := rfl
@[simp] theorem emit_sram : (s.emit o).sram = s.sram := rfl
@[simp] theorem emit_dram : (s.emit o).dram = s.dram := rfl
@[simp] theorem emit_flash : (s.emit o).flash = s.flash := rfl
@[simp] theorem emit_gn : (s.emit o).gn = s.gn := rfl
@[simp] theorem emit_fu : (s.emit o).fu = s.fu := rfl
@[simp] theorem emit_cam : (s.emit o).cam = s.cam := rfl
@[simp] theorem emit_intg : (s.emit o).intg = s.intg := rfl
@[simp] theorem emit_records : (s.emit o).records = s.records := rfl
@[simp] theorem emit_generation : (s.emit o).generation = s.generation := rfl
@[simp] theorem emit_procs : (s.emit o).procs = s.procs := rfl
@[simp] theorem emit_time : (s.emit o).time = s.time := rfl
@[simp] theorem emit_estP : (s.emit o).estP = s.estP := rfl
@[simp] theorem emit_estI : (s.emit o).estI = s.estI := rfl
@[simp] theorem emit_roleInEffect : (s.emit o).roleInEffect = s.roleInEffect := rfl
@[simp] theorem emit_hw : (s.emit o).hw = s.hw := rfl
@[simp] theorem emit_out : (s.emit o).out = o :: s.out := rfl
@[simp] theorem emit_pending : (s.emit o).pending = s.pending := rfl
end

/-! fresh changes freeCtr alone. -/
section
variable (s : State)
@[simp] theorem fresh_now : (s.fresh).now = s.now := rfl
@[simp] theorem fresh_freeCtr : (s.fresh).freeCtr = s.freeCtr + 1 := rfl
@[simp] theorem fresh_regs : (s.fresh).regs = s.regs := rfl
@[simp] theorem fresh_objs : (s.fresh).objs = s.objs := rfl
@[simp] theorem fresh_oem : (s.fresh).oem = s.oem := rfl
@[simp] theorem fresh_gov : (s.fresh).gov = s.gov := rfl
@[simp] theorem fresh_par : (s.fresh).par = s.par := rfl
@[simp] theorem fresh_gate : (s.fresh).gate = s.gate := rfl
@[simp] theorem fresh_remote : (s.fresh).remote = s.remote := rfl
@[simp] theorem fresh_steer : (s.fresh).steer = s.steer := rfl
@[simp] theorem fresh_fab : (s.fresh).fab = s.fab := rfl
@[simp] theorem fresh_chim : (s.fresh).chim = s.chim := rfl
@[simp] theorem fresh_can : (s.fresh).can = s.can := rfl
@[simp] theorem fresh_cv : (s.fresh).cv = s.cv := rfl
@[simp] theorem fresh_panel : (s.fresh).panel = s.panel := rfl
@[simp] theorem fresh_th : (s.fresh).th = s.th := rfl
@[simp] theorem fresh_kp : (s.fresh).kp = s.kp := rfl
@[simp] theorem fresh_pwr : (s.fresh).pwr = s.pwr := rfl
@[simp] theorem fresh_ps : (s.fresh).ps = s.ps := rfl
@[simp] theorem fresh_dict : (s.fresh).dict = s.dict := rfl
@[simp] theorem fresh_sec : (s.fresh).sec = s.sec := rfl
@[simp] theorem fresh_upd : (s.fresh).upd = s.upd := rfl
@[simp] theorem fresh_changes : (s.fresh).changes = s.changes := rfl
@[simp] theorem fresh_mem : (s.fresh).mem = s.mem := rfl
@[simp] theorem fresh_trellis : (s.fresh).trellis = s.trellis := rfl
@[simp] theorem fresh_delivery : (s.fresh).delivery = s.delivery := rfl
@[simp] theorem fresh_ev : (s.fresh).ev = s.ev := rfl
@[simp] theorem fresh_sens : (s.fresh).sens = s.sens := rfl
@[simp] theorem fresh_pwrStatus : (s.fresh).pwrStatus = s.pwrStatus := rfl
@[simp] theorem fresh_stage : (s.fresh).stage = s.stage := rfl
@[simp] theorem fresh_ce : (s.fresh).ce = s.ce := rfl
@[simp] theorem fresh_stop : (s.fresh).stop = s.stop := rfl
@[simp] theorem fresh_gh : (s.fresh).gh = s.gh := rfl
@[simp] theorem fresh_clk : (s.fresh).clk = s.clk := rfl
@[simp] theorem fresh_sram : (s.fresh).sram = s.sram := rfl
@[simp] theorem fresh_dram : (s.fresh).dram = s.dram := rfl
@[simp] theorem fresh_flash : (s.fresh).flash = s.flash := rfl
@[simp] theorem fresh_gn : (s.fresh).gn = s.gn := rfl
@[simp] theorem fresh_fu : (s.fresh).fu = s.fu := rfl
@[simp] theorem fresh_cam : (s.fresh).cam = s.cam := rfl
@[simp] theorem fresh_intg : (s.fresh).intg = s.intg := rfl
@[simp] theorem fresh_records : (s.fresh).records = s.records := rfl
@[simp] theorem fresh_generation : (s.fresh).generation = s.generation := rfl
@[simp] theorem fresh_procs : (s.fresh).procs = s.procs := rfl
@[simp] theorem fresh_time : (s.fresh).time = s.time := rfl
@[simp] theorem fresh_estP : (s.fresh).estP = s.estP := rfl
@[simp] theorem fresh_estI : (s.fresh).estI = s.estI := rfl
@[simp] theorem fresh_roleInEffect : (s.fresh).roleInEffect = s.roleInEffect := rfl
@[simp] theorem fresh_hw : (s.fresh).hw = s.hw := rfl
@[simp] theorem fresh_out : (s.fresh).out = s.out := rfl
@[simp] theorem fresh_pending : (s.fresh).pending = s.pending := rfl
end

/-! setObj changes objs alone. -/
section
variable (s : State) (i j : Nat) (v : ObjVal)
@[simp] theorem setObj_now : (s.setObj i j v).now = s.now := rfl
@[simp] theorem setObj_freeCtr : (s.setObj i j v).freeCtr = s.freeCtr := rfl
@[simp] theorem setObj_regs : (s.setObj i j v).regs = s.regs := rfl
@[simp] theorem setObj_oem : (s.setObj i j v).oem = s.oem := rfl
@[simp] theorem setObj_gov : (s.setObj i j v).gov = s.gov := rfl
@[simp] theorem setObj_par : (s.setObj i j v).par = s.par := rfl
@[simp] theorem setObj_gate : (s.setObj i j v).gate = s.gate := rfl
@[simp] theorem setObj_remote : (s.setObj i j v).remote = s.remote := rfl
@[simp] theorem setObj_steer : (s.setObj i j v).steer = s.steer := rfl
@[simp] theorem setObj_fab : (s.setObj i j v).fab = s.fab := rfl
@[simp] theorem setObj_chim : (s.setObj i j v).chim = s.chim := rfl
@[simp] theorem setObj_can : (s.setObj i j v).can = s.can := rfl
@[simp] theorem setObj_cv : (s.setObj i j v).cv = s.cv := rfl
@[simp] theorem setObj_panel : (s.setObj i j v).panel = s.panel := rfl
@[simp] theorem setObj_th : (s.setObj i j v).th = s.th := rfl
@[simp] theorem setObj_kp : (s.setObj i j v).kp = s.kp := rfl
@[simp] theorem setObj_pwr : (s.setObj i j v).pwr = s.pwr := rfl
@[simp] theorem setObj_ps : (s.setObj i j v).ps = s.ps := rfl
@[simp] theorem setObj_dict : (s.setObj i j v).dict = s.dict := rfl
@[simp] theorem setObj_sec : (s.setObj i j v).sec = s.sec := rfl
@[simp] theorem setObj_upd : (s.setObj i j v).upd = s.upd := rfl
@[simp] theorem setObj_changes : (s.setObj i j v).changes = s.changes := rfl
@[simp] theorem setObj_mem : (s.setObj i j v).mem = s.mem := rfl
@[simp] theorem setObj_trellis : (s.setObj i j v).trellis = s.trellis := rfl
@[simp] theorem setObj_delivery : (s.setObj i j v).delivery = s.delivery := rfl
@[simp] theorem setObj_ev : (s.setObj i j v).ev = s.ev := rfl
@[simp] theorem setObj_sens : (s.setObj i j v).sens = s.sens := rfl
@[simp] theorem setObj_pwrStatus : (s.setObj i j v).pwrStatus = s.pwrStatus := rfl
@[simp] theorem setObj_stage : (s.setObj i j v).stage = s.stage := rfl
@[simp] theorem setObj_ce : (s.setObj i j v).ce = s.ce := rfl
@[simp] theorem setObj_stop : (s.setObj i j v).stop = s.stop := rfl
@[simp] theorem setObj_gh : (s.setObj i j v).gh = s.gh := rfl
@[simp] theorem setObj_clk : (s.setObj i j v).clk = s.clk := rfl
@[simp] theorem setObj_sram : (s.setObj i j v).sram = s.sram := rfl
@[simp] theorem setObj_dram : (s.setObj i j v).dram = s.dram := rfl
@[simp] theorem setObj_flash : (s.setObj i j v).flash = s.flash := rfl
@[simp] theorem setObj_gn : (s.setObj i j v).gn = s.gn := rfl
@[simp] theorem setObj_fu : (s.setObj i j v).fu = s.fu := rfl
@[simp] theorem setObj_cam : (s.setObj i j v).cam = s.cam := rfl
@[simp] theorem setObj_intg : (s.setObj i j v).intg = s.intg := rfl
@[simp] theorem setObj_records : (s.setObj i j v).records = s.records := rfl
@[simp] theorem setObj_generation : (s.setObj i j v).generation = s.generation := rfl
@[simp] theorem setObj_procs : (s.setObj i j v).procs = s.procs := rfl
@[simp] theorem setObj_time : (s.setObj i j v).time = s.time := rfl
@[simp] theorem setObj_estP : (s.setObj i j v).estP = s.estP := rfl
@[simp] theorem setObj_estI : (s.setObj i j v).estI = s.estI := rfl
@[simp] theorem setObj_roleInEffect : (s.setObj i j v).roleInEffect = s.roleInEffect := rfl
@[simp] theorem setObj_hw : (s.setObj i j v).hw = s.hw := rfl
@[simp] theorem setObj_out : (s.setObj i j v).out = s.out := rfl
@[simp] theorem setObj_pending : (s.setObj i j v).pending = s.pending := rfl
end

/-! setObjN changes objs alone. -/
section
variable (s : State) (i j n : Nat)
@[simp] theorem setObjN_now : (s.setObjN i j n).now = s.now := rfl
@[simp] theorem setObjN_freeCtr : (s.setObjN i j n).freeCtr = s.freeCtr := rfl
@[simp] theorem setObjN_regs : (s.setObjN i j n).regs = s.regs := rfl
@[simp] theorem setObjN_oem : (s.setObjN i j n).oem = s.oem := rfl
@[simp] theorem setObjN_gov : (s.setObjN i j n).gov = s.gov := rfl
@[simp] theorem setObjN_par : (s.setObjN i j n).par = s.par := rfl
@[simp] theorem setObjN_gate : (s.setObjN i j n).gate = s.gate := rfl
@[simp] theorem setObjN_remote : (s.setObjN i j n).remote = s.remote := rfl
@[simp] theorem setObjN_steer : (s.setObjN i j n).steer = s.steer := rfl
@[simp] theorem setObjN_fab : (s.setObjN i j n).fab = s.fab := rfl
@[simp] theorem setObjN_chim : (s.setObjN i j n).chim = s.chim := rfl
@[simp] theorem setObjN_can : (s.setObjN i j n).can = s.can := rfl
@[simp] theorem setObjN_cv : (s.setObjN i j n).cv = s.cv := rfl
@[simp] theorem setObjN_panel : (s.setObjN i j n).panel = s.panel := rfl
@[simp] theorem setObjN_th : (s.setObjN i j n).th = s.th := rfl
@[simp] theorem setObjN_kp : (s.setObjN i j n).kp = s.kp := rfl
@[simp] theorem setObjN_pwr : (s.setObjN i j n).pwr = s.pwr := rfl
@[simp] theorem setObjN_ps : (s.setObjN i j n).ps = s.ps := rfl
@[simp] theorem setObjN_dict : (s.setObjN i j n).dict = s.dict := rfl
@[simp] theorem setObjN_sec : (s.setObjN i j n).sec = s.sec := rfl
@[simp] theorem setObjN_upd : (s.setObjN i j n).upd = s.upd := rfl
@[simp] theorem setObjN_changes : (s.setObjN i j n).changes = s.changes := rfl
@[simp] theorem setObjN_mem : (s.setObjN i j n).mem = s.mem := rfl
@[simp] theorem setObjN_trellis : (s.setObjN i j n).trellis = s.trellis := rfl
@[simp] theorem setObjN_delivery : (s.setObjN i j n).delivery = s.delivery := rfl
@[simp] theorem setObjN_ev : (s.setObjN i j n).ev = s.ev := rfl
@[simp] theorem setObjN_sens : (s.setObjN i j n).sens = s.sens := rfl
@[simp] theorem setObjN_pwrStatus : (s.setObjN i j n).pwrStatus = s.pwrStatus := rfl
@[simp] theorem setObjN_stage : (s.setObjN i j n).stage = s.stage := rfl
@[simp] theorem setObjN_ce : (s.setObjN i j n).ce = s.ce := rfl
@[simp] theorem setObjN_stop : (s.setObjN i j n).stop = s.stop := rfl
@[simp] theorem setObjN_gh : (s.setObjN i j n).gh = s.gh := rfl
@[simp] theorem setObjN_clk : (s.setObjN i j n).clk = s.clk := rfl
@[simp] theorem setObjN_sram : (s.setObjN i j n).sram = s.sram := rfl
@[simp] theorem setObjN_dram : (s.setObjN i j n).dram = s.dram := rfl
@[simp] theorem setObjN_flash : (s.setObjN i j n).flash = s.flash := rfl
@[simp] theorem setObjN_gn : (s.setObjN i j n).gn = s.gn := rfl
@[simp] theorem setObjN_fu : (s.setObjN i j n).fu = s.fu := rfl
@[simp] theorem setObjN_cam : (s.setObjN i j n).cam = s.cam := rfl
@[simp] theorem setObjN_intg : (s.setObjN i j n).intg = s.intg := rfl
@[simp] theorem setObjN_records : (s.setObjN i j n).records = s.records := rfl
@[simp] theorem setObjN_generation : (s.setObjN i j n).generation = s.generation := rfl
@[simp] theorem setObjN_procs : (s.setObjN i j n).procs = s.procs := rfl
@[simp] theorem setObjN_time : (s.setObjN i j n).time = s.time := rfl
@[simp] theorem setObjN_estP : (s.setObjN i j n).estP = s.estP := rfl
@[simp] theorem setObjN_estI : (s.setObjN i j n).estI = s.estI := rfl
@[simp] theorem setObjN_roleInEffect : (s.setObjN i j n).roleInEffect = s.roleInEffect := rfl
@[simp] theorem setObjN_hw : (s.setObjN i j n).hw = s.hw := rfl
@[simp] theorem setObjN_out : (s.setObjN i j n).out = s.out := rfl
@[simp] theorem setObjN_pending : (s.setObjN i j n).pending = s.pending := rfl
end

/-! mwr changes mem alone. -/
section
variable (s : State) (a : Nat) (l : List Byte)
@[simp] theorem mwr_now : (s.mwr a l).now = s.now := rfl
@[simp] theorem mwr_freeCtr : (s.mwr a l).freeCtr = s.freeCtr := rfl
@[simp] theorem mwr_regs : (s.mwr a l).regs = s.regs := rfl
@[simp] theorem mwr_objs : (s.mwr a l).objs = s.objs := rfl
@[simp] theorem mwr_oem : (s.mwr a l).oem = s.oem := rfl
@[simp] theorem mwr_gov : (s.mwr a l).gov = s.gov := rfl
@[simp] theorem mwr_par : (s.mwr a l).par = s.par := rfl
@[simp] theorem mwr_gate : (s.mwr a l).gate = s.gate := rfl
@[simp] theorem mwr_remote : (s.mwr a l).remote = s.remote := rfl
@[simp] theorem mwr_steer : (s.mwr a l).steer = s.steer := rfl
@[simp] theorem mwr_fab : (s.mwr a l).fab = s.fab := rfl
@[simp] theorem mwr_chim : (s.mwr a l).chim = s.chim := rfl
@[simp] theorem mwr_can : (s.mwr a l).can = s.can := rfl
@[simp] theorem mwr_cv : (s.mwr a l).cv = s.cv := rfl
@[simp] theorem mwr_panel : (s.mwr a l).panel = s.panel := rfl
@[simp] theorem mwr_th : (s.mwr a l).th = s.th := rfl
@[simp] theorem mwr_kp : (s.mwr a l).kp = s.kp := rfl
@[simp] theorem mwr_pwr : (s.mwr a l).pwr = s.pwr := rfl
@[simp] theorem mwr_ps : (s.mwr a l).ps = s.ps := rfl
@[simp] theorem mwr_dict : (s.mwr a l).dict = s.dict := rfl
@[simp] theorem mwr_sec : (s.mwr a l).sec = s.sec := rfl
@[simp] theorem mwr_upd : (s.mwr a l).upd = s.upd := rfl
@[simp] theorem mwr_changes : (s.mwr a l).changes = s.changes := rfl
@[simp] theorem mwr_mem : (s.mwr a l).mem = s.mem.writeBytes a l := rfl
@[simp] theorem mwr_trellis : (s.mwr a l).trellis = s.trellis := rfl
@[simp] theorem mwr_delivery : (s.mwr a l).delivery = s.delivery := rfl
@[simp] theorem mwr_ev : (s.mwr a l).ev = s.ev := rfl
@[simp] theorem mwr_sens : (s.mwr a l).sens = s.sens := rfl
@[simp] theorem mwr_pwrStatus : (s.mwr a l).pwrStatus = s.pwrStatus := rfl
@[simp] theorem mwr_stage : (s.mwr a l).stage = s.stage := rfl
@[simp] theorem mwr_ce : (s.mwr a l).ce = s.ce := rfl
@[simp] theorem mwr_stop : (s.mwr a l).stop = s.stop := rfl
@[simp] theorem mwr_gh : (s.mwr a l).gh = s.gh := rfl
@[simp] theorem mwr_clk : (s.mwr a l).clk = s.clk := rfl
@[simp] theorem mwr_sram : (s.mwr a l).sram = s.sram := rfl
@[simp] theorem mwr_dram : (s.mwr a l).dram = s.dram := rfl
@[simp] theorem mwr_flash : (s.mwr a l).flash = s.flash := rfl
@[simp] theorem mwr_gn : (s.mwr a l).gn = s.gn := rfl
@[simp] theorem mwr_fu : (s.mwr a l).fu = s.fu := rfl
@[simp] theorem mwr_cam : (s.mwr a l).cam = s.cam := rfl
@[simp] theorem mwr_intg : (s.mwr a l).intg = s.intg := rfl
@[simp] theorem mwr_records : (s.mwr a l).records = s.records := rfl
@[simp] theorem mwr_generation : (s.mwr a l).generation = s.generation := rfl
@[simp] theorem mwr_procs : (s.mwr a l).procs = s.procs := rfl
@[simp] theorem mwr_time : (s.mwr a l).time = s.time := rfl
@[simp] theorem mwr_estP : (s.mwr a l).estP = s.estP := rfl
@[simp] theorem mwr_estI : (s.mwr a l).estI = s.estI := rfl
@[simp] theorem mwr_roleInEffect : (s.mwr a l).roleInEffect = s.roleInEffect := rfl
@[simp] theorem mwr_hw : (s.mwr a l).hw = s.hw := rfl
@[simp] theorem mwr_out : (s.mwr a l).out = s.out := rfl
@[simp] theorem mwr_pending : (s.mwr a l).pending = s.pending := rfl
end

/-! setDie changes stage alone. -/
section
variable (s : State) (d : Nat) (x : Die)
@[simp] theorem setDie_now : (s.setDie d x).now = s.now := rfl
@[simp] theorem setDie_freeCtr : (s.setDie d x).freeCtr = s.freeCtr := rfl
@[simp] theorem setDie_regs : (s.setDie d x).regs = s.regs := rfl
@[simp] theorem setDie_objs : (s.setDie d x).objs = s.objs := rfl
@[simp] theorem setDie_oem : (s.setDie d x).oem = s.oem := rfl
@[simp] theorem setDie_gov : (s.setDie d x).gov = s.gov := rfl
@[simp] theorem setDie_par : (s.setDie d x).par = s.par := rfl
@[simp] theorem setDie_gate : (s.setDie d x).gate = s.gate := rfl
@[simp] theorem setDie_remote : (s.setDie d x).remote = s.remote := rfl
@[simp] theorem setDie_steer : (s.setDie d x).steer = s.steer := rfl
@[simp] theorem setDie_fab : (s.setDie d x).fab = s.fab := rfl
@[simp] theorem setDie_chim : (s.setDie d x).chim = s.chim := rfl
@[simp] theorem setDie_can : (s.setDie d x).can = s.can := rfl
@[simp] theorem setDie_cv : (s.setDie d x).cv = s.cv := rfl
@[simp] theorem setDie_panel : (s.setDie d x).panel = s.panel := rfl
@[simp] theorem setDie_th : (s.setDie d x).th = s.th := rfl
@[simp] theorem setDie_kp : (s.setDie d x).kp = s.kp := rfl
@[simp] theorem setDie_pwr : (s.setDie d x).pwr = s.pwr := rfl
@[simp] theorem setDie_ps : (s.setDie d x).ps = s.ps := rfl
@[simp] theorem setDie_dict : (s.setDie d x).dict = s.dict := rfl
@[simp] theorem setDie_sec : (s.setDie d x).sec = s.sec := rfl
@[simp] theorem setDie_upd : (s.setDie d x).upd = s.upd := rfl
@[simp] theorem setDie_changes : (s.setDie d x).changes = s.changes := rfl
@[simp] theorem setDie_mem : (s.setDie d x).mem = s.mem := rfl
@[simp] theorem setDie_trellis : (s.setDie d x).trellis = s.trellis := rfl
@[simp] theorem setDie_delivery : (s.setDie d x).delivery = s.delivery := rfl
@[simp] theorem setDie_ev : (s.setDie d x).ev = s.ev := rfl
@[simp] theorem setDie_sens : (s.setDie d x).sens = s.sens := rfl
@[simp] theorem setDie_pwrStatus : (s.setDie d x).pwrStatus = s.pwrStatus := rfl
@[simp] theorem setDie_ce : (s.setDie d x).ce = s.ce := rfl
@[simp] theorem setDie_stop : (s.setDie d x).stop = s.stop := rfl
@[simp] theorem setDie_gh : (s.setDie d x).gh = s.gh := rfl
@[simp] theorem setDie_clk : (s.setDie d x).clk = s.clk := rfl
@[simp] theorem setDie_sram : (s.setDie d x).sram = s.sram := rfl
@[simp] theorem setDie_dram : (s.setDie d x).dram = s.dram := rfl
@[simp] theorem setDie_flash : (s.setDie d x).flash = s.flash := rfl
@[simp] theorem setDie_gn : (s.setDie d x).gn = s.gn := rfl
@[simp] theorem setDie_fu : (s.setDie d x).fu = s.fu := rfl
@[simp] theorem setDie_cam : (s.setDie d x).cam = s.cam := rfl
@[simp] theorem setDie_intg : (s.setDie d x).intg = s.intg := rfl
@[simp] theorem setDie_records : (s.setDie d x).records = s.records := rfl
@[simp] theorem setDie_generation : (s.setDie d x).generation = s.generation := rfl
@[simp] theorem setDie_procs : (s.setDie d x).procs = s.procs := rfl
@[simp] theorem setDie_time : (s.setDie d x).time = s.time := rfl
@[simp] theorem setDie_estP : (s.setDie d x).estP = s.estP := rfl
@[simp] theorem setDie_estI : (s.setDie d x).estI = s.estI := rfl
@[simp] theorem setDie_roleInEffect : (s.setDie d x).roleInEffect = s.roleInEffect := rfl
@[simp] theorem setDie_hw : (s.setDie d x).hw = s.hw := rfl
@[simp] theorem setDie_out : (s.setDie d x).out = s.out := rfl
@[simp] theorem setDie_pending : (s.setDie d x).pending = s.pending := rfl
end

/-! setSdC changes stage alone. -/
section
variable (s : State) (n : Nat) (x : SdChan)
@[simp] theorem setSdC_now : (s.setSdC n x).now = s.now := rfl
@[simp] theorem setSdC_freeCtr : (s.setSdC n x).freeCtr = s.freeCtr := rfl
@[simp] theorem setSdC_regs : (s.setSdC n x).regs = s.regs := rfl
@[simp] theorem setSdC_objs : (s.setSdC n x).objs = s.objs := rfl
@[simp] theorem setSdC_oem : (s.setSdC n x).oem = s.oem := rfl
@[simp] theorem setSdC_gov : (s.setSdC n x).gov = s.gov := rfl
@[simp] theorem setSdC_par : (s.setSdC n x).par = s.par := rfl
@[simp] theorem setSdC_gate : (s.setSdC n x).gate = s.gate := rfl
@[simp] theorem setSdC_remote : (s.setSdC n x).remote = s.remote := rfl
@[simp] theorem setSdC_steer : (s.setSdC n x).steer = s.steer := rfl
@[simp] theorem setSdC_fab : (s.setSdC n x).fab = s.fab := rfl
@[simp] theorem setSdC_chim : (s.setSdC n x).chim = s.chim := rfl
@[simp] theorem setSdC_can : (s.setSdC n x).can = s.can := rfl
@[simp] theorem setSdC_cv : (s.setSdC n x).cv = s.cv := rfl
@[simp] theorem setSdC_panel : (s.setSdC n x).panel = s.panel := rfl
@[simp] theorem setSdC_th : (s.setSdC n x).th = s.th := rfl
@[simp] theorem setSdC_kp : (s.setSdC n x).kp = s.kp := rfl
@[simp] theorem setSdC_pwr : (s.setSdC n x).pwr = s.pwr := rfl
@[simp] theorem setSdC_ps : (s.setSdC n x).ps = s.ps := rfl
@[simp] theorem setSdC_dict : (s.setSdC n x).dict = s.dict := rfl
@[simp] theorem setSdC_sec : (s.setSdC n x).sec = s.sec := rfl
@[simp] theorem setSdC_upd : (s.setSdC n x).upd = s.upd := rfl
@[simp] theorem setSdC_changes : (s.setSdC n x).changes = s.changes := rfl
@[simp] theorem setSdC_mem : (s.setSdC n x).mem = s.mem := rfl
@[simp] theorem setSdC_trellis : (s.setSdC n x).trellis = s.trellis := rfl
@[simp] theorem setSdC_delivery : (s.setSdC n x).delivery = s.delivery := rfl
@[simp] theorem setSdC_ev : (s.setSdC n x).ev = s.ev := rfl
@[simp] theorem setSdC_sens : (s.setSdC n x).sens = s.sens := rfl
@[simp] theorem setSdC_pwrStatus : (s.setSdC n x).pwrStatus = s.pwrStatus := rfl
@[simp] theorem setSdC_ce : (s.setSdC n x).ce = s.ce := rfl
@[simp] theorem setSdC_stop : (s.setSdC n x).stop = s.stop := rfl
@[simp] theorem setSdC_gh : (s.setSdC n x).gh = s.gh := rfl
@[simp] theorem setSdC_clk : (s.setSdC n x).clk = s.clk := rfl
@[simp] theorem setSdC_sram : (s.setSdC n x).sram = s.sram := rfl
@[simp] theorem setSdC_dram : (s.setSdC n x).dram = s.dram := rfl
@[simp] theorem setSdC_flash : (s.setSdC n x).flash = s.flash := rfl
@[simp] theorem setSdC_gn : (s.setSdC n x).gn = s.gn := rfl
@[simp] theorem setSdC_fu : (s.setSdC n x).fu = s.fu := rfl
@[simp] theorem setSdC_cam : (s.setSdC n x).cam = s.cam := rfl
@[simp] theorem setSdC_intg : (s.setSdC n x).intg = s.intg := rfl
@[simp] theorem setSdC_records : (s.setSdC n x).records = s.records := rfl
@[simp] theorem setSdC_generation : (s.setSdC n x).generation = s.generation := rfl
@[simp] theorem setSdC_procs : (s.setSdC n x).procs = s.procs := rfl
@[simp] theorem setSdC_time : (s.setSdC n x).time = s.time := rfl
@[simp] theorem setSdC_estP : (s.setSdC n x).estP = s.estP := rfl
@[simp] theorem setSdC_estI : (s.setSdC n x).estI = s.estI := rfl
@[simp] theorem setSdC_roleInEffect : (s.setSdC n x).roleInEffect = s.roleInEffect := rfl
@[simp] theorem setSdC_hw : (s.setSdC n x).hw = s.hw := rfl
@[simp] theorem setSdC_out : (s.setSdC n x).out = s.out := rfl
@[simp] theorem setSdC_pending : (s.setSdC n x).pending = s.pending := rfl
end

/-! setSdB changes stage alone. -/
section
variable (s : State) (n : Nat) (x : SdBank)
@[simp] theorem setSdB_now : (s.setSdB n x).now = s.now := rfl
@[simp] theorem setSdB_freeCtr : (s.setSdB n x).freeCtr = s.freeCtr := rfl
@[simp] theorem setSdB_regs : (s.setSdB n x).regs = s.regs := rfl
@[simp] theorem setSdB_objs : (s.setSdB n x).objs = s.objs := rfl
@[simp] theorem setSdB_oem : (s.setSdB n x).oem = s.oem := rfl
@[simp] theorem setSdB_gov : (s.setSdB n x).gov = s.gov := rfl
@[simp] theorem setSdB_par : (s.setSdB n x).par = s.par := rfl
@[simp] theorem setSdB_gate : (s.setSdB n x).gate = s.gate := rfl
@[simp] theorem setSdB_remote : (s.setSdB n x).remote = s.remote := rfl
@[simp] theorem setSdB_steer : (s.setSdB n x).steer = s.steer := rfl
@[simp] theorem setSdB_fab : (s.setSdB n x).fab = s.fab := rfl
@[simp] theorem setSdB_chim : (s.setSdB n x).chim = s.chim := rfl
@[simp] theorem setSdB_can : (s.setSdB n x).can = s.can := rfl
@[simp] theorem setSdB_cv : (s.setSdB n x).cv = s.cv := rfl
@[simp] theorem setSdB_panel : (s.setSdB n x).panel = s.panel := rfl
@[simp] theorem setSdB_th : (s.setSdB n x).th = s.th := rfl
@[simp] theorem setSdB_kp : (s.setSdB n x).kp = s.kp := rfl
@[simp] theorem setSdB_pwr : (s.setSdB n x).pwr = s.pwr := rfl
@[simp] theorem setSdB_ps : (s.setSdB n x).ps = s.ps := rfl
@[simp] theorem setSdB_dict : (s.setSdB n x).dict = s.dict := rfl
@[simp] theorem setSdB_sec : (s.setSdB n x).sec = s.sec := rfl
@[simp] theorem setSdB_upd : (s.setSdB n x).upd = s.upd := rfl
@[simp] theorem setSdB_changes : (s.setSdB n x).changes = s.changes := rfl
@[simp] theorem setSdB_mem : (s.setSdB n x).mem = s.mem := rfl
@[simp] theorem setSdB_trellis : (s.setSdB n x).trellis = s.trellis := rfl
@[simp] theorem setSdB_delivery : (s.setSdB n x).delivery = s.delivery := rfl
@[simp] theorem setSdB_ev : (s.setSdB n x).ev = s.ev := rfl
@[simp] theorem setSdB_sens : (s.setSdB n x).sens = s.sens := rfl
@[simp] theorem setSdB_pwrStatus : (s.setSdB n x).pwrStatus = s.pwrStatus := rfl
@[simp] theorem setSdB_ce : (s.setSdB n x).ce = s.ce := rfl
@[simp] theorem setSdB_stop : (s.setSdB n x).stop = s.stop := rfl
@[simp] theorem setSdB_gh : (s.setSdB n x).gh = s.gh := rfl
@[simp] theorem setSdB_clk : (s.setSdB n x).clk = s.clk := rfl
@[simp] theorem setSdB_sram : (s.setSdB n x).sram = s.sram := rfl
@[simp] theorem setSdB_dram : (s.setSdB n x).dram = s.dram := rfl
@[simp] theorem setSdB_flash : (s.setSdB n x).flash = s.flash := rfl
@[simp] theorem setSdB_gn : (s.setSdB n x).gn = s.gn := rfl
@[simp] theorem setSdB_fu : (s.setSdB n x).fu = s.fu := rfl
@[simp] theorem setSdB_cam : (s.setSdB n x).cam = s.cam := rfl
@[simp] theorem setSdB_intg : (s.setSdB n x).intg = s.intg := rfl
@[simp] theorem setSdB_records : (s.setSdB n x).records = s.records := rfl
@[simp] theorem setSdB_generation : (s.setSdB n x).generation = s.generation := rfl
@[simp] theorem setSdB_procs : (s.setSdB n x).procs = s.procs := rfl
@[simp] theorem setSdB_time : (s.setSdB n x).time = s.time := rfl
@[simp] theorem setSdB_estP : (s.setSdB n x).estP = s.estP := rfl
@[simp] theorem setSdB_estI : (s.setSdB n x).estI = s.estI := rfl
@[simp] theorem setSdB_roleInEffect : (s.setSdB n x).roleInEffect = s.roleInEffect := rfl
@[simp] theorem setSdB_hw : (s.setSdB n x).hw = s.hw := rfl
@[simp] theorem setSdB_out : (s.setSdB n x).out = s.out := rfl
@[simp] theorem setSdB_pending : (s.setSdB n x).pending = s.pending := rfl
end

/-! setLsC changes stage alone. -/
section
variable (s : State) (n : Nat) (x : LsChan)
@[simp] theorem setLsC_now : (s.setLsC n x).now = s.now := rfl
@[simp] theorem setLsC_freeCtr : (s.setLsC n x).freeCtr = s.freeCtr := rfl
@[simp] theorem setLsC_regs : (s.setLsC n x).regs = s.regs := rfl
@[simp] theorem setLsC_objs : (s.setLsC n x).objs = s.objs := rfl
@[simp] theorem setLsC_oem : (s.setLsC n x).oem = s.oem := rfl
@[simp] theorem setLsC_gov : (s.setLsC n x).gov = s.gov := rfl
@[simp] theorem setLsC_par : (s.setLsC n x).par = s.par := rfl
@[simp] theorem setLsC_gate : (s.setLsC n x).gate = s.gate := rfl
@[simp] theorem setLsC_remote : (s.setLsC n x).remote = s.remote := rfl
@[simp] theorem setLsC_steer : (s.setLsC n x).steer = s.steer := rfl
@[simp] theorem setLsC_fab : (s.setLsC n x).fab = s.fab := rfl
@[simp] theorem setLsC_chim : (s.setLsC n x).chim = s.chim := rfl
@[simp] theorem setLsC_can : (s.setLsC n x).can = s.can := rfl
@[simp] theorem setLsC_cv : (s.setLsC n x).cv = s.cv := rfl
@[simp] theorem setLsC_panel : (s.setLsC n x).panel = s.panel := rfl
@[simp] theorem setLsC_th : (s.setLsC n x).th = s.th := rfl
@[simp] theorem setLsC_kp : (s.setLsC n x).kp = s.kp := rfl
@[simp] theorem setLsC_pwr : (s.setLsC n x).pwr = s.pwr := rfl
@[simp] theorem setLsC_ps : (s.setLsC n x).ps = s.ps := rfl
@[simp] theorem setLsC_dict : (s.setLsC n x).dict = s.dict := rfl
@[simp] theorem setLsC_sec : (s.setLsC n x).sec = s.sec := rfl
@[simp] theorem setLsC_upd : (s.setLsC n x).upd = s.upd := rfl
@[simp] theorem setLsC_changes : (s.setLsC n x).changes = s.changes := rfl
@[simp] theorem setLsC_mem : (s.setLsC n x).mem = s.mem := rfl
@[simp] theorem setLsC_trellis : (s.setLsC n x).trellis = s.trellis := rfl
@[simp] theorem setLsC_delivery : (s.setLsC n x).delivery = s.delivery := rfl
@[simp] theorem setLsC_ev : (s.setLsC n x).ev = s.ev := rfl
@[simp] theorem setLsC_sens : (s.setLsC n x).sens = s.sens := rfl
@[simp] theorem setLsC_pwrStatus : (s.setLsC n x).pwrStatus = s.pwrStatus := rfl
@[simp] theorem setLsC_ce : (s.setLsC n x).ce = s.ce := rfl
@[simp] theorem setLsC_stop : (s.setLsC n x).stop = s.stop := rfl
@[simp] theorem setLsC_gh : (s.setLsC n x).gh = s.gh := rfl
@[simp] theorem setLsC_clk : (s.setLsC n x).clk = s.clk := rfl
@[simp] theorem setLsC_sram : (s.setLsC n x).sram = s.sram := rfl
@[simp] theorem setLsC_dram : (s.setLsC n x).dram = s.dram := rfl
@[simp] theorem setLsC_flash : (s.setLsC n x).flash = s.flash := rfl
@[simp] theorem setLsC_gn : (s.setLsC n x).gn = s.gn := rfl
@[simp] theorem setLsC_fu : (s.setLsC n x).fu = s.fu := rfl
@[simp] theorem setLsC_cam : (s.setLsC n x).cam = s.cam := rfl
@[simp] theorem setLsC_intg : (s.setLsC n x).intg = s.intg := rfl
@[simp] theorem setLsC_records : (s.setLsC n x).records = s.records := rfl
@[simp] theorem setLsC_generation : (s.setLsC n x).generation = s.generation := rfl
@[simp] theorem setLsC_procs : (s.setLsC n x).procs = s.procs := rfl
@[simp] theorem setLsC_time : (s.setLsC n x).time = s.time := rfl
@[simp] theorem setLsC_estP : (s.setLsC n x).estP = s.estP := rfl
@[simp] theorem setLsC_estI : (s.setLsC n x).estI = s.estI := rfl
@[simp] theorem setLsC_roleInEffect : (s.setLsC n x).roleInEffect = s.roleInEffect := rfl
@[simp] theorem setLsC_hw : (s.setLsC n x).hw = s.hw := rfl
@[simp] theorem setLsC_out : (s.setLsC n x).out = s.out := rfl
@[simp] theorem setLsC_pending : (s.setLsC n x).pending = s.pending := rfl
end

/-! setLsG changes stage alone. -/
section
variable (s : State) (n : Nat) (x : LsGroup)
@[simp] theorem setLsG_now : (s.setLsG n x).now = s.now := rfl
@[simp] theorem setLsG_freeCtr : (s.setLsG n x).freeCtr = s.freeCtr := rfl
@[simp] theorem setLsG_regs : (s.setLsG n x).regs = s.regs := rfl
@[simp] theorem setLsG_objs : (s.setLsG n x).objs = s.objs := rfl
@[simp] theorem setLsG_oem : (s.setLsG n x).oem = s.oem := rfl
@[simp] theorem setLsG_gov : (s.setLsG n x).gov = s.gov := rfl
@[simp] theorem setLsG_par : (s.setLsG n x).par = s.par := rfl
@[simp] theorem setLsG_gate : (s.setLsG n x).gate = s.gate := rfl
@[simp] theorem setLsG_remote : (s.setLsG n x).remote = s.remote := rfl
@[simp] theorem setLsG_steer : (s.setLsG n x).steer = s.steer := rfl
@[simp] theorem setLsG_fab : (s.setLsG n x).fab = s.fab := rfl
@[simp] theorem setLsG_chim : (s.setLsG n x).chim = s.chim := rfl
@[simp] theorem setLsG_can : (s.setLsG n x).can = s.can := rfl
@[simp] theorem setLsG_cv : (s.setLsG n x).cv = s.cv := rfl
@[simp] theorem setLsG_panel : (s.setLsG n x).panel = s.panel := rfl
@[simp] theorem setLsG_th : (s.setLsG n x).th = s.th := rfl
@[simp] theorem setLsG_kp : (s.setLsG n x).kp = s.kp := rfl
@[simp] theorem setLsG_pwr : (s.setLsG n x).pwr = s.pwr := rfl
@[simp] theorem setLsG_ps : (s.setLsG n x).ps = s.ps := rfl
@[simp] theorem setLsG_dict : (s.setLsG n x).dict = s.dict := rfl
@[simp] theorem setLsG_sec : (s.setLsG n x).sec = s.sec := rfl
@[simp] theorem setLsG_upd : (s.setLsG n x).upd = s.upd := rfl
@[simp] theorem setLsG_changes : (s.setLsG n x).changes = s.changes := rfl
@[simp] theorem setLsG_mem : (s.setLsG n x).mem = s.mem := rfl
@[simp] theorem setLsG_trellis : (s.setLsG n x).trellis = s.trellis := rfl
@[simp] theorem setLsG_delivery : (s.setLsG n x).delivery = s.delivery := rfl
@[simp] theorem setLsG_ev : (s.setLsG n x).ev = s.ev := rfl
@[simp] theorem setLsG_sens : (s.setLsG n x).sens = s.sens := rfl
@[simp] theorem setLsG_pwrStatus : (s.setLsG n x).pwrStatus = s.pwrStatus := rfl
@[simp] theorem setLsG_ce : (s.setLsG n x).ce = s.ce := rfl
@[simp] theorem setLsG_stop : (s.setLsG n x).stop = s.stop := rfl
@[simp] theorem setLsG_gh : (s.setLsG n x).gh = s.gh := rfl
@[simp] theorem setLsG_clk : (s.setLsG n x).clk = s.clk := rfl
@[simp] theorem setLsG_sram : (s.setLsG n x).sram = s.sram := rfl
@[simp] theorem setLsG_dram : (s.setLsG n x).dram = s.dram := rfl
@[simp] theorem setLsG_flash : (s.setLsG n x).flash = s.flash := rfl
@[simp] theorem setLsG_gn : (s.setLsG n x).gn = s.gn := rfl
@[simp] theorem setLsG_fu : (s.setLsG n x).fu = s.fu := rfl
@[simp] theorem setLsG_cam : (s.setLsG n x).cam = s.cam := rfl
@[simp] theorem setLsG_intg : (s.setLsG n x).intg = s.intg := rfl
@[simp] theorem setLsG_records : (s.setLsG n x).records = s.records := rfl
@[simp] theorem setLsG_generation : (s.setLsG n x).generation = s.generation := rfl
@[simp] theorem setLsG_procs : (s.setLsG n x).procs = s.procs := rfl
@[simp] theorem setLsG_time : (s.setLsG n x).time = s.time := rfl
@[simp] theorem setLsG_estP : (s.setLsG n x).estP = s.estP := rfl
@[simp] theorem setLsG_estI : (s.setLsG n x).estI = s.estI := rfl
@[simp] theorem setLsG_roleInEffect : (s.setLsG n x).roleInEffect = s.roleInEffect := rfl
@[simp] theorem setLsG_hw : (s.setLsG n x).hw = s.hw := rfl
@[simp] theorem setLsG_out : (s.setLsG n x).out = s.out := rfl
@[simp] theorem setLsG_pending : (s.setLsG n x).pending = s.pending := rfl
end

/-! setLoop changes ce alone. -/
section
variable (s : State) (n : Nat) (x : LoopSt)
@[simp] theorem setLoop_now : (s.setLoop n x).now = s.now := rfl
@[simp] theorem setLoop_freeCtr : (s.setLoop n x).freeCtr = s.freeCtr := rfl
@[simp] theorem setLoop_regs : (s.setLoop n x).regs = s.regs := rfl
@[simp] theorem setLoop_objs : (s.setLoop n x).objs = s.objs := rfl
@[simp] theorem setLoop_oem : (s.setLoop n x).oem = s.oem := rfl
@[simp] theorem setLoop_gov : (s.setLoop n x).gov = s.gov := rfl
@[simp] theorem setLoop_par : (s.setLoop n x).par = s.par := rfl
@[simp] theorem setLoop_gate : (s.setLoop n x).gate = s.gate := rfl
@[simp] theorem setLoop_remote : (s.setLoop n x).remote = s.remote := rfl
@[simp] theorem setLoop_steer : (s.setLoop n x).steer = s.steer := rfl
@[simp] theorem setLoop_fab : (s.setLoop n x).fab = s.fab := rfl
@[simp] theorem setLoop_chim : (s.setLoop n x).chim = s.chim := rfl
@[simp] theorem setLoop_can : (s.setLoop n x).can = s.can := rfl
@[simp] theorem setLoop_cv : (s.setLoop n x).cv = s.cv := rfl
@[simp] theorem setLoop_panel : (s.setLoop n x).panel = s.panel := rfl
@[simp] theorem setLoop_th : (s.setLoop n x).th = s.th := rfl
@[simp] theorem setLoop_kp : (s.setLoop n x).kp = s.kp := rfl
@[simp] theorem setLoop_pwr : (s.setLoop n x).pwr = s.pwr := rfl
@[simp] theorem setLoop_ps : (s.setLoop n x).ps = s.ps := rfl
@[simp] theorem setLoop_dict : (s.setLoop n x).dict = s.dict := rfl
@[simp] theorem setLoop_sec : (s.setLoop n x).sec = s.sec := rfl
@[simp] theorem setLoop_upd : (s.setLoop n x).upd = s.upd := rfl
@[simp] theorem setLoop_changes : (s.setLoop n x).changes = s.changes := rfl
@[simp] theorem setLoop_mem : (s.setLoop n x).mem = s.mem := rfl
@[simp] theorem setLoop_trellis : (s.setLoop n x).trellis = s.trellis := rfl
@[simp] theorem setLoop_delivery : (s.setLoop n x).delivery = s.delivery := rfl
@[simp] theorem setLoop_ev : (s.setLoop n x).ev = s.ev := rfl
@[simp] theorem setLoop_sens : (s.setLoop n x).sens = s.sens := rfl
@[simp] theorem setLoop_pwrStatus : (s.setLoop n x).pwrStatus = s.pwrStatus := rfl
@[simp] theorem setLoop_stage : (s.setLoop n x).stage = s.stage := rfl
@[simp] theorem setLoop_stop : (s.setLoop n x).stop = s.stop := rfl
@[simp] theorem setLoop_gh : (s.setLoop n x).gh = s.gh := rfl
@[simp] theorem setLoop_clk : (s.setLoop n x).clk = s.clk := rfl
@[simp] theorem setLoop_sram : (s.setLoop n x).sram = s.sram := rfl
@[simp] theorem setLoop_dram : (s.setLoop n x).dram = s.dram := rfl
@[simp] theorem setLoop_flash : (s.setLoop n x).flash = s.flash := rfl
@[simp] theorem setLoop_gn : (s.setLoop n x).gn = s.gn := rfl
@[simp] theorem setLoop_fu : (s.setLoop n x).fu = s.fu := rfl
@[simp] theorem setLoop_cam : (s.setLoop n x).cam = s.cam := rfl
@[simp] theorem setLoop_intg : (s.setLoop n x).intg = s.intg := rfl
@[simp] theorem setLoop_records : (s.setLoop n x).records = s.records := rfl
@[simp] theorem setLoop_generation : (s.setLoop n x).generation = s.generation := rfl
@[simp] theorem setLoop_procs : (s.setLoop n x).procs = s.procs := rfl
@[simp] theorem setLoop_time : (s.setLoop n x).time = s.time := rfl
@[simp] theorem setLoop_estP : (s.setLoop n x).estP = s.estP := rfl
@[simp] theorem setLoop_estI : (s.setLoop n x).estI = s.estI := rfl
@[simp] theorem setLoop_roleInEffect : (s.setLoop n x).roleInEffect = s.roleInEffect := rfl
@[simp] theorem setLoop_hw : (s.setLoop n x).hw = s.hw := rfl
@[simp] theorem setLoop_out : (s.setLoop n x).out = s.out := rfl
@[simp] theorem setLoop_pending : (s.setLoop n x).pending = s.pending := rfl
end

/-! tell changes stage alone. -/
section
variable (s : State) (d : Nat) (l : List Report)
@[simp] theorem tell_now : (s.tell d l).now = s.now := rfl
@[simp] theorem tell_freeCtr : (s.tell d l).freeCtr = s.freeCtr := rfl
@[simp] theorem tell_regs : (s.tell d l).regs = s.regs := rfl
@[simp] theorem tell_objs : (s.tell d l).objs = s.objs := rfl
@[simp] theorem tell_oem : (s.tell d l).oem = s.oem := rfl
@[simp] theorem tell_gov : (s.tell d l).gov = s.gov := rfl
@[simp] theorem tell_par : (s.tell d l).par = s.par := rfl
@[simp] theorem tell_gate : (s.tell d l).gate = s.gate := rfl
@[simp] theorem tell_remote : (s.tell d l).remote = s.remote := rfl
@[simp] theorem tell_steer : (s.tell d l).steer = s.steer := rfl
@[simp] theorem tell_fab : (s.tell d l).fab = s.fab := rfl
@[simp] theorem tell_chim : (s.tell d l).chim = s.chim := rfl
@[simp] theorem tell_can : (s.tell d l).can = s.can := rfl
@[simp] theorem tell_cv : (s.tell d l).cv = s.cv := rfl
@[simp] theorem tell_panel : (s.tell d l).panel = s.panel := rfl
@[simp] theorem tell_th : (s.tell d l).th = s.th := rfl
@[simp] theorem tell_kp : (s.tell d l).kp = s.kp := rfl
@[simp] theorem tell_pwr : (s.tell d l).pwr = s.pwr := rfl
@[simp] theorem tell_ps : (s.tell d l).ps = s.ps := rfl
@[simp] theorem tell_dict : (s.tell d l).dict = s.dict := rfl
@[simp] theorem tell_sec : (s.tell d l).sec = s.sec := rfl
@[simp] theorem tell_upd : (s.tell d l).upd = s.upd := rfl
@[simp] theorem tell_changes : (s.tell d l).changes = s.changes := rfl
@[simp] theorem tell_mem : (s.tell d l).mem = s.mem := rfl
@[simp] theorem tell_trellis : (s.tell d l).trellis = s.trellis := rfl
@[simp] theorem tell_delivery : (s.tell d l).delivery = s.delivery := rfl
@[simp] theorem tell_ev : (s.tell d l).ev = s.ev := rfl
@[simp] theorem tell_sens : (s.tell d l).sens = s.sens := rfl
@[simp] theorem tell_pwrStatus : (s.tell d l).pwrStatus = s.pwrStatus := rfl
@[simp] theorem tell_ce : (s.tell d l).ce = s.ce := rfl
@[simp] theorem tell_stop : (s.tell d l).stop = s.stop := rfl
@[simp] theorem tell_gh : (s.tell d l).gh = s.gh := rfl
@[simp] theorem tell_clk : (s.tell d l).clk = s.clk := rfl
@[simp] theorem tell_sram : (s.tell d l).sram = s.sram := rfl
@[simp] theorem tell_dram : (s.tell d l).dram = s.dram := rfl
@[simp] theorem tell_flash : (s.tell d l).flash = s.flash := rfl
@[simp] theorem tell_gn : (s.tell d l).gn = s.gn := rfl
@[simp] theorem tell_fu : (s.tell d l).fu = s.fu := rfl
@[simp] theorem tell_cam : (s.tell d l).cam = s.cam := rfl
@[simp] theorem tell_intg : (s.tell d l).intg = s.intg := rfl
@[simp] theorem tell_records : (s.tell d l).records = s.records := rfl
@[simp] theorem tell_generation : (s.tell d l).generation = s.generation := rfl
@[simp] theorem tell_procs : (s.tell d l).procs = s.procs := rfl
@[simp] theorem tell_time : (s.tell d l).time = s.time := rfl
@[simp] theorem tell_estP : (s.tell d l).estP = s.estP := rfl
@[simp] theorem tell_estI : (s.tell d l).estI = s.estI := rfl
@[simp] theorem tell_roleInEffect : (s.tell d l).roleInEffect = s.roleInEffect := rfl
@[simp] theorem tell_hw : (s.tell d l).hw = s.hw := rfl
@[simp] theorem tell_out : (s.tell d l).out = s.out := rfl
@[simp] theorem tell_pending : (s.tell d l).pending = s.pending := rfl
end

/-! post changes stage alone. -/
section
variable (s : State) (p : Post)
@[simp] theorem post_now : (s.post p).now = s.now := rfl
@[simp] theorem post_freeCtr : (s.post p).freeCtr = s.freeCtr := rfl
@[simp] theorem post_regs : (s.post p).regs = s.regs := rfl
@[simp] theorem post_objs : (s.post p).objs = s.objs := rfl
@[simp] theorem post_oem : (s.post p).oem = s.oem := rfl
@[simp] theorem post_gov : (s.post p).gov = s.gov := rfl
@[simp] theorem post_par : (s.post p).par = s.par := rfl
@[simp] theorem post_gate : (s.post p).gate = s.gate := rfl
@[simp] theorem post_remote : (s.post p).remote = s.remote := rfl
@[simp] theorem post_steer : (s.post p).steer = s.steer := rfl
@[simp] theorem post_fab : (s.post p).fab = s.fab := rfl
@[simp] theorem post_chim : (s.post p).chim = s.chim := rfl
@[simp] theorem post_can : (s.post p).can = s.can := rfl
@[simp] theorem post_cv : (s.post p).cv = s.cv := rfl
@[simp] theorem post_panel : (s.post p).panel = s.panel := rfl
@[simp] theorem post_th : (s.post p).th = s.th := rfl
@[simp] theorem post_kp : (s.post p).kp = s.kp := rfl
@[simp] theorem post_pwr : (s.post p).pwr = s.pwr := rfl
@[simp] theorem post_ps : (s.post p).ps = s.ps := rfl
@[simp] theorem post_dict : (s.post p).dict = s.dict := rfl
@[simp] theorem post_sec : (s.post p).sec = s.sec := rfl
@[simp] theorem post_upd : (s.post p).upd = s.upd := rfl
@[simp] theorem post_changes : (s.post p).changes = s.changes := rfl
@[simp] theorem post_mem : (s.post p).mem = s.mem := rfl
@[simp] theorem post_trellis : (s.post p).trellis = s.trellis := rfl
@[simp] theorem post_delivery : (s.post p).delivery = s.delivery := rfl
@[simp] theorem post_ev : (s.post p).ev = s.ev := rfl
@[simp] theorem post_sens : (s.post p).sens = s.sens := rfl
@[simp] theorem post_pwrStatus : (s.post p).pwrStatus = s.pwrStatus := rfl
@[simp] theorem post_ce : (s.post p).ce = s.ce := rfl
@[simp] theorem post_stop : (s.post p).stop = s.stop := rfl
@[simp] theorem post_gh : (s.post p).gh = s.gh := rfl
@[simp] theorem post_clk : (s.post p).clk = s.clk := rfl
@[simp] theorem post_sram : (s.post p).sram = s.sram := rfl
@[simp] theorem post_dram : (s.post p).dram = s.dram := rfl
@[simp] theorem post_flash : (s.post p).flash = s.flash := rfl
@[simp] theorem post_gn : (s.post p).gn = s.gn := rfl
@[simp] theorem post_fu : (s.post p).fu = s.fu := rfl
@[simp] theorem post_cam : (s.post p).cam = s.cam := rfl
@[simp] theorem post_intg : (s.post p).intg = s.intg := rfl
@[simp] theorem post_records : (s.post p).records = s.records := rfl
@[simp] theorem post_generation : (s.post p).generation = s.generation := rfl
@[simp] theorem post_procs : (s.post p).procs = s.procs := rfl
@[simp] theorem post_time : (s.post p).time = s.time := rfl
@[simp] theorem post_estP : (s.post p).estP = s.estP := rfl
@[simp] theorem post_estI : (s.post p).estI = s.estI := rfl
@[simp] theorem post_roleInEffect : (s.post p).roleInEffect = s.roleInEffect := rfl
@[simp] theorem post_hw : (s.post p).hw = s.hw := rfl
@[simp] theorem post_out : (s.post p).out = s.out := rfl
@[simp] theorem post_pending : (s.post p).pending = s.pending := rfl
end

/-! gateWait changes clk alone. -/
section
variable (s : State) (e : GatedWrite)
@[simp] theorem gateWait_now : (s.gateWait e).now = s.now := rfl
@[simp] theorem gateWait_freeCtr : (s.gateWait e).freeCtr = s.freeCtr := rfl
@[simp] theorem gateWait_regs : (s.gateWait e).regs = s.regs := rfl
@[simp] theorem gateWait_objs : (s.gateWait e).objs = s.objs := rfl
@[simp] theorem gateWait_oem : (s.gateWait e).oem = s.oem := rfl
@[simp] theorem gateWait_gov : (s.gateWait e).gov = s.gov := rfl
@[simp] theorem gateWait_par : (s.gateWait e).par = s.par := rfl
@[simp] theorem gateWait_gate : (s.gateWait e).gate = s.gate := rfl
@[simp] theorem gateWait_remote : (s.gateWait e).remote = s.remote := rfl
@[simp] theorem gateWait_steer : (s.gateWait e).steer = s.steer := rfl
@[simp] theorem gateWait_fab : (s.gateWait e).fab = s.fab := rfl
@[simp] theorem gateWait_chim : (s.gateWait e).chim = s.chim := rfl
@[simp] theorem gateWait_can : (s.gateWait e).can = s.can := rfl
@[simp] theorem gateWait_cv : (s.gateWait e).cv = s.cv := rfl
@[simp] theorem gateWait_panel : (s.gateWait e).panel = s.panel := rfl
@[simp] theorem gateWait_th : (s.gateWait e).th = s.th := rfl
@[simp] theorem gateWait_kp : (s.gateWait e).kp = s.kp := rfl
@[simp] theorem gateWait_pwr : (s.gateWait e).pwr = s.pwr := rfl
@[simp] theorem gateWait_ps : (s.gateWait e).ps = s.ps := rfl
@[simp] theorem gateWait_dict : (s.gateWait e).dict = s.dict := rfl
@[simp] theorem gateWait_sec : (s.gateWait e).sec = s.sec := rfl
@[simp] theorem gateWait_upd : (s.gateWait e).upd = s.upd := rfl
@[simp] theorem gateWait_changes : (s.gateWait e).changes = s.changes := rfl
@[simp] theorem gateWait_mem : (s.gateWait e).mem = s.mem := rfl
@[simp] theorem gateWait_trellis : (s.gateWait e).trellis = s.trellis := rfl
@[simp] theorem gateWait_delivery : (s.gateWait e).delivery = s.delivery := rfl
@[simp] theorem gateWait_ev : (s.gateWait e).ev = s.ev := rfl
@[simp] theorem gateWait_sens : (s.gateWait e).sens = s.sens := rfl
@[simp] theorem gateWait_pwrStatus : (s.gateWait e).pwrStatus = s.pwrStatus := rfl
@[simp] theorem gateWait_stage : (s.gateWait e).stage = s.stage := rfl
@[simp] theorem gateWait_ce : (s.gateWait e).ce = s.ce := rfl
@[simp] theorem gateWait_stop : (s.gateWait e).stop = s.stop := rfl
@[simp] theorem gateWait_gh : (s.gateWait e).gh = s.gh := rfl
@[simp] theorem gateWait_sram : (s.gateWait e).sram = s.sram := rfl
@[simp] theorem gateWait_dram : (s.gateWait e).dram = s.dram := rfl
@[simp] theorem gateWait_flash : (s.gateWait e).flash = s.flash := rfl
@[simp] theorem gateWait_gn : (s.gateWait e).gn = s.gn := rfl
@[simp] theorem gateWait_fu : (s.gateWait e).fu = s.fu := rfl
@[simp] theorem gateWait_cam : (s.gateWait e).cam = s.cam := rfl
@[simp] theorem gateWait_intg : (s.gateWait e).intg = s.intg := rfl
@[simp] theorem gateWait_records : (s.gateWait e).records = s.records := rfl
@[simp] theorem gateWait_generation : (s.gateWait e).generation = s.generation := rfl
@[simp] theorem gateWait_procs : (s.gateWait e).procs = s.procs := rfl
@[simp] theorem gateWait_time : (s.gateWait e).time = s.time := rfl
@[simp] theorem gateWait_estP : (s.gateWait e).estP = s.estP := rfl
@[simp] theorem gateWait_estI : (s.gateWait e).estI = s.estI := rfl
@[simp] theorem gateWait_roleInEffect : (s.gateWait e).roleInEffect = s.roleInEffect := rfl
@[simp] theorem gateWait_hw : (s.gateWait e).hw = s.hw := rfl
@[simp] theorem gateWait_out : (s.gateWait e).out = s.out := rfl
@[simp] theorem gateWait_pending : (s.gateWait e).pending = s.pending := rfl
end

/-! pwrBit changes pwrStatus alone. -/
section
variable (s : State) (k : Nat) (b : Bool)
@[simp] theorem pwrBit_now : (s.pwrBit k b).now = s.now := rfl
@[simp] theorem pwrBit_freeCtr : (s.pwrBit k b).freeCtr = s.freeCtr := rfl
@[simp] theorem pwrBit_regs : (s.pwrBit k b).regs = s.regs := rfl
@[simp] theorem pwrBit_objs : (s.pwrBit k b).objs = s.objs := rfl
@[simp] theorem pwrBit_oem : (s.pwrBit k b).oem = s.oem := rfl
@[simp] theorem pwrBit_gov : (s.pwrBit k b).gov = s.gov := rfl
@[simp] theorem pwrBit_par : (s.pwrBit k b).par = s.par := rfl
@[simp] theorem pwrBit_gate : (s.pwrBit k b).gate = s.gate := rfl
@[simp] theorem pwrBit_remote : (s.pwrBit k b).remote = s.remote := rfl
@[simp] theorem pwrBit_steer : (s.pwrBit k b).steer = s.steer := rfl
@[simp] theorem pwrBit_fab : (s.pwrBit k b).fab = s.fab := rfl
@[simp] theorem pwrBit_chim : (s.pwrBit k b).chim = s.chim := rfl
@[simp] theorem pwrBit_can : (s.pwrBit k b).can = s.can := rfl
@[simp] theorem pwrBit_cv : (s.pwrBit k b).cv = s.cv := rfl
@[simp] theorem pwrBit_panel : (s.pwrBit k b).panel = s.panel := rfl
@[simp] theorem pwrBit_th : (s.pwrBit k b).th = s.th := rfl
@[simp] theorem pwrBit_kp : (s.pwrBit k b).kp = s.kp := rfl
@[simp] theorem pwrBit_pwr : (s.pwrBit k b).pwr = s.pwr := rfl
@[simp] theorem pwrBit_ps : (s.pwrBit k b).ps = s.ps := rfl
@[simp] theorem pwrBit_dict : (s.pwrBit k b).dict = s.dict := rfl
@[simp] theorem pwrBit_sec : (s.pwrBit k b).sec = s.sec := rfl
@[simp] theorem pwrBit_upd : (s.pwrBit k b).upd = s.upd := rfl
@[simp] theorem pwrBit_changes : (s.pwrBit k b).changes = s.changes := rfl
@[simp] theorem pwrBit_mem : (s.pwrBit k b).mem = s.mem := rfl
@[simp] theorem pwrBit_trellis : (s.pwrBit k b).trellis = s.trellis := rfl
@[simp] theorem pwrBit_delivery : (s.pwrBit k b).delivery = s.delivery := rfl
@[simp] theorem pwrBit_ev : (s.pwrBit k b).ev = s.ev := rfl
@[simp] theorem pwrBit_sens : (s.pwrBit k b).sens = s.sens := rfl
@[simp] theorem pwrBit_stage : (s.pwrBit k b).stage = s.stage := rfl
@[simp] theorem pwrBit_ce : (s.pwrBit k b).ce = s.ce := rfl
@[simp] theorem pwrBit_stop : (s.pwrBit k b).stop = s.stop := rfl
@[simp] theorem pwrBit_gh : (s.pwrBit k b).gh = s.gh := rfl
@[simp] theorem pwrBit_clk : (s.pwrBit k b).clk = s.clk := rfl
@[simp] theorem pwrBit_sram : (s.pwrBit k b).sram = s.sram := rfl
@[simp] theorem pwrBit_dram : (s.pwrBit k b).dram = s.dram := rfl
@[simp] theorem pwrBit_flash : (s.pwrBit k b).flash = s.flash := rfl
@[simp] theorem pwrBit_gn : (s.pwrBit k b).gn = s.gn := rfl
@[simp] theorem pwrBit_fu : (s.pwrBit k b).fu = s.fu := rfl
@[simp] theorem pwrBit_cam : (s.pwrBit k b).cam = s.cam := rfl
@[simp] theorem pwrBit_intg : (s.pwrBit k b).intg = s.intg := rfl
@[simp] theorem pwrBit_records : (s.pwrBit k b).records = s.records := rfl
@[simp] theorem pwrBit_generation : (s.pwrBit k b).generation = s.generation := rfl
@[simp] theorem pwrBit_procs : (s.pwrBit k b).procs = s.procs := rfl
@[simp] theorem pwrBit_time : (s.pwrBit k b).time = s.time := rfl
@[simp] theorem pwrBit_estP : (s.pwrBit k b).estP = s.estP := rfl
@[simp] theorem pwrBit_estI : (s.pwrBit k b).estI = s.estI := rfl
@[simp] theorem pwrBit_roleInEffect : (s.pwrBit k b).roleInEffect = s.roleInEffect := rfl
@[simp] theorem pwrBit_hw : (s.pwrBit k b).hw = s.hw := rfl
@[simp] theorem pwrBit_out : (s.pwrBit k b).out = s.out := rfl
@[simp] theorem pwrBit_pending : (s.pwrBit k b).pending = s.pending := rfl
end

/-! What the updates store. -/
@[simp] theorem setDie_sdB (s : State) (d b : Nat) (x : Die) : (s.setDie d x).sdB b = s.sdB b := rfl
@[simp] theorem setDie_sdC (s : State) (d n : Nat) (x : Die) : (s.setDie d x).sdC n = s.sdC n := rfl
@[simp] theorem setDie_lsC (s : State) (d n : Nat) (x : Die) : (s.setDie d x).lsC n = s.lsC n := rfl
@[simp] theorem setDie_lsG (s : State) (d g : Nat) (x : Die) : (s.setDie d x).lsG g = s.lsG g := rfl
@[simp] theorem setSdC_dieAt (s : State) (n d : Nat) (x : SdChan) : (s.setSdC n x).dieAt d = s.dieAt d := rfl
@[simp] theorem setSdC_sdB (s : State) (n b : Nat) (x : SdChan) : (s.setSdC n x).sdB b = s.sdB b := rfl
@[simp] theorem setSdB_dieAt (s : State) (b d : Nat) (x : SdBank) : (s.setSdB b x).dieAt d = s.dieAt d := rfl
@[simp] theorem setSdB_sdC (s : State) (b n : Nat) (x : SdBank) : (s.setSdB b x).sdC n = s.sdC n := rfl
@[simp] theorem setLsC_dieAt (s : State) (n d : Nat) (x : LsChan) : (s.setLsC n x).dieAt d = s.dieAt d := rfl
@[simp] theorem setLsC_lsG (s : State) (n g : Nat) (x : LsChan) : (s.setLsC n x).lsG g = s.lsG g := rfl
@[simp] theorem setLsG_dieAt (s : State) (g d : Nat) (x : LsGroup) : (s.setLsG g x).dieAt d = s.dieAt d := rfl
@[simp] theorem setLsG_lsC (s : State) (g n : Nat) (x : LsGroup) : (s.setLsG g x).lsC n = s.lsC n := rfl
@[simp] theorem set_dieAt (s : State) (f : Fld) (v d : Nat) : (s.set f v).dieAt d = s.dieAt d := rfl
@[simp] theorem set_sdB (s : State) (f : Fld) (v b : Nat) : (s.set f v).sdB b = s.sdB b := rfl
@[simp] theorem set_sdC (s : State) (f : Fld) (v n : Nat) : (s.set f v).sdC n = s.sdC n := rfl
@[simp] theorem set_lsC (s : State) (f : Fld) (v n : Nat) : (s.set f v).lsC n = s.lsC n := rfl
@[simp] theorem set_lsG (s : State) (f : Fld) (v g : Nat) : (s.set f v).lsG g = s.lsG g := rfl
@[simp] theorem set_loopAt (s : State) (f : Fld) (v n : Nat) : (s.set f v).loopAt n = s.loopAt n := rfl

/-! Registers an update does not touch read as before. -/
@[simp] theorem emit_rd (s : State) (o : Out) (r : Nat) : (s.emit o).rd r = s.rd r := rfl
@[simp] theorem emit_get (s : State) (o : Out) (g : Fld) : (s.emit o).get g = s.get g := rfl
@[simp] theorem emit_flag (s : State) (o : Out) (g : Fld) : (s.emit o).flag g = s.flag g := rfl
@[simp] theorem fresh_rd (s : State) (r : Nat) : (s.fresh).rd r = s.rd r := rfl
@[simp] theorem fresh_get (s : State) (g : Fld) : (s.fresh).get g = s.get g := rfl
@[simp] theorem fresh_flag (s : State) (g : Fld) : (s.fresh).flag g = s.flag g := rfl
@[simp] theorem setObj_rd (s : State) (i j : Nat) (v : ObjVal) (r : Nat) : (s.setObj i j v).rd r = s.rd r := rfl
@[simp] theorem setObj_get (s : State) (i j : Nat) (v : ObjVal) (g : Fld) : (s.setObj i j v).get g = s.get g := rfl
@[simp] theorem setObj_flag (s : State) (i j : Nat) (v : ObjVal) (g : Fld) : (s.setObj i j v).flag g = s.flag g := rfl
@[simp] theorem setObjN_rd (s : State) (i j n : Nat) (r : Nat) : (s.setObjN i j n).rd r = s.rd r := rfl
@[simp] theorem setObjN_get (s : State) (i j n : Nat) (g : Fld) : (s.setObjN i j n).get g = s.get g := rfl
@[simp] theorem setObjN_flag (s : State) (i j n : Nat) (g : Fld) : (s.setObjN i j n).flag g = s.flag g := rfl
@[simp] theorem mwr_rd (s : State) (a : Nat) (l : List Byte) (r : Nat) : (s.mwr a l).rd r = s.rd r := rfl
@[simp] theorem mwr_get (s : State) (a : Nat) (l : List Byte) (g : Fld) : (s.mwr a l).get g = s.get g := rfl
@[simp] theorem mwr_flag (s : State) (a : Nat) (l : List Byte) (g : Fld) : (s.mwr a l).flag g = s.flag g := rfl
@[simp] theorem setDie_rd (s : State) (d : Nat) (x : Die) (r : Nat) : (s.setDie d x).rd r = s.rd r := rfl
@[simp] theorem setDie_get (s : State) (d : Nat) (x : Die) (g : Fld) : (s.setDie d x).get g = s.get g := rfl
@[simp] theorem setDie_flag (s : State) (d : Nat) (x : Die) (g : Fld) : (s.setDie d x).flag g = s.flag g := rfl
@[simp] theorem setSdC_rd (s : State) (n : Nat) (x : SdChan) (r : Nat) : (s.setSdC n x).rd r = s.rd r := rfl
@[simp] theorem setSdC_get (s : State) (n : Nat) (x : SdChan) (g : Fld) : (s.setSdC n x).get g = s.get g := rfl
@[simp] theorem setSdC_flag (s : State) (n : Nat) (x : SdChan) (g : Fld) : (s.setSdC n x).flag g = s.flag g := rfl
@[simp] theorem setSdB_rd (s : State) (n : Nat) (x : SdBank) (r : Nat) : (s.setSdB n x).rd r = s.rd r := rfl
@[simp] theorem setSdB_get (s : State) (n : Nat) (x : SdBank) (g : Fld) : (s.setSdB n x).get g = s.get g := rfl
@[simp] theorem setSdB_flag (s : State) (n : Nat) (x : SdBank) (g : Fld) : (s.setSdB n x).flag g = s.flag g := rfl
@[simp] theorem setLsC_rd (s : State) (n : Nat) (x : LsChan) (r : Nat) : (s.setLsC n x).rd r = s.rd r := rfl
@[simp] theorem setLsC_get (s : State) (n : Nat) (x : LsChan) (g : Fld) : (s.setLsC n x).get g = s.get g := rfl
@[simp] theorem setLsC_flag (s : State) (n : Nat) (x : LsChan) (g : Fld) : (s.setLsC n x).flag g = s.flag g := rfl
@[simp] theorem setLsG_rd (s : State) (n : Nat) (x : LsGroup) (r : Nat) : (s.setLsG n x).rd r = s.rd r := rfl
@[simp] theorem setLsG_get (s : State) (n : Nat) (x : LsGroup) (g : Fld) : (s.setLsG n x).get g = s.get g := rfl
@[simp] theorem setLsG_flag (s : State) (n : Nat) (x : LsGroup) (g : Fld) : (s.setLsG n x).flag g = s.flag g := rfl
@[simp] theorem setLoop_rd (s : State) (n : Nat) (x : LoopSt) (r : Nat) : (s.setLoop n x).rd r = s.rd r := rfl
@[simp] theorem setLoop_get (s : State) (n : Nat) (x : LoopSt) (g : Fld) : (s.setLoop n x).get g = s.get g := rfl
@[simp] theorem setLoop_flag (s : State) (n : Nat) (x : LoopSt) (g : Fld) : (s.setLoop n x).flag g = s.flag g := rfl
@[simp] theorem tell_rd (s : State) (d : Nat) (l : List Report) (r : Nat) : (s.tell d l).rd r = s.rd r := rfl
@[simp] theorem tell_get (s : State) (d : Nat) (l : List Report) (g : Fld) : (s.tell d l).get g = s.get g := rfl
@[simp] theorem tell_flag (s : State) (d : Nat) (l : List Report) (g : Fld) : (s.tell d l).flag g = s.flag g := rfl
@[simp] theorem post_rd (s : State) (p : Post) (r : Nat) : (s.post p).rd r = s.rd r := rfl
@[simp] theorem post_get (s : State) (p : Post) (g : Fld) : (s.post p).get g = s.get g := rfl
@[simp] theorem post_flag (s : State) (p : Post) (g : Fld) : (s.post p).flag g = s.flag g := rfl
@[simp] theorem gateWait_rd (s : State) (e : GatedWrite) (r : Nat) : (s.gateWait e).rd r = s.rd r := rfl
@[simp] theorem gateWait_get (s : State) (e : GatedWrite) (g : Fld) : (s.gateWait e).get g = s.get g := rfl
@[simp] theorem gateWait_flag (s : State) (e : GatedWrite) (g : Fld) : (s.gateWait e).flag g = s.flag g := rfl
@[simp] theorem pwrBit_rd (s : State) (k : Nat) (b : Bool) (r : Nat) : (s.pwrBit k b).rd r = s.rd r := rfl
@[simp] theorem pwrBit_get (s : State) (k : Nat) (b : Bool) (g : Fld) : (s.pwrBit k b).get g = s.get g := rfl
@[simp] theorem pwrBit_flag (s : State) (k : Nat) (b : Bool) (g : Fld) : (s.pwrBit k b).flag g = s.flag g := rfl

end State
end Sys2Proof.Machine
end

