-- ==== Sys2Proof/Laws/Table.lean ====
section
/-!
SUPPORT. Tables and the addressed memory: reading after an update, and the canonical form, which every update keeps.
-/
namespace Sys2Proof.Machine
namespace Tbl
variable {α : Type}

theorem get_erase (t : Tbl α) (d : α) (k j : Nat) : Tbl.get (Tbl.erase t k) d j = if j = k then d else Tbl.get t d j := by
  induction t <;> grind [erase, get]

theorem get_insert (t : Tbl α) (d v : α) (k j : Nat) (h : ∀ e ∈ t, e.1 ≠ k) :
    Tbl.get (Tbl.insert t k v) d j = if j = k then v else Tbl.get t d j := by
  induction t <;> grind [insert, get]

theorem not_mem_erase (t : Tbl α) (k : Nat) : ∀ e ∈ Tbl.erase t k, e.1 ≠ k := by
  induction t <;> grind [erase]

/-- A table entry reads as last set, and every other entry as before. -/
theorem get_set [DecidableEq α] (t : Tbl α) (d v : α) (k j : Nat) :
    Tbl.get (Tbl.set t d k v) d j = if j = k then v else Tbl.get t d j := by
  unfold set; split
  · grind [get_erase]
  · grind [get_erase, get_insert _ d v k j (not_mem_erase t k)]

/-- An entry other than the one set reads as before, whatever its default is. -/
theorem get_set_ne [DecidableEq α] (t : Tbl α) (d d' v : α) (k j : Nat) (h : j ≠ k) :
    Tbl.get (Tbl.set t d k v) d' j = Tbl.get t d' j := by
  unfold set; split
  · grind [get_erase]
  · grind [get_erase, get_insert _ d' v k j (not_mem_erase t k)]

@[simp] theorem get_set_self [DecidableEq α] (t : Tbl α) (d v : α) (k : Nat) : Tbl.get (Tbl.set t d k v) d k = v := by
  simp [get_set]

/-! The canonical form -/

theorem rising_iff (t : Tbl α) : Tbl.rising t = true ↔ t.Pairwise (fun a b => a.1 < b.1) := by
  induction t with
  | nil => simp [rising]
  | cons a l ih =>
    match l, ih with
    | [], _ => simp [rising]
    | b :: r, ih =>
      simp only [rising, Bool.and_eq_true, ih, List.pairwise_cons, decide_eq_true_eq]
      grind

theorem mem_erase (t : Tbl α) (k : Nat) (e : Nat × α) : e ∈ Tbl.erase t k ↔ e ∈ t ∧ e.1 ≠ k := by
  induction t <;> grind [erase]

theorem mem_insert (t : Tbl α) (k : Nat) (v : α) (e : Nat × α) : e ∈ Tbl.insert t k v ↔ e = (k, v) ∨ e ∈ t := by
  induction t <;> grind [insert]

/-- The strict rise of the numbers. -/
abbrev Rises (t : Tbl α) : Prop := t.Pairwise fun a b => a.1 < b.1

theorem erase_rises (t : Tbl α) (k : Nat) (h : Rises t) : Rises (Tbl.erase t k) := by
  have : Tbl.erase t k = t.filter fun e => e.1 != k := by clear h; induction t <;> grind [erase]
  rw [this]; exact h.filter _

theorem insert_rises (t : Tbl α) (k : Nat) (v : α) (hk : ∀ e ∈ t, e.1 ≠ k) (h : Rises t) : Rises (Tbl.insert t k v) := by
  induction t with
  | nil => simp [insert]
  | cons a r ih =>
    simp only [insert, Rises, List.pairwise_cons] at h ⊢
    split <;> simp only [List.pairwise_cons, mem_insert, List.mem_cons] at hk ⊢
    · exact ⟨by rintro x (rfl | hx) <;> grind, h⟩
    · exact ⟨by rintro x (rfl | hx) <;> grind, ih (fun e he => hk e (.inr he)) h.2⟩

theorem canon_iff [DecidableEq α] (t : Tbl α) (d : Nat → α) :
    Tbl.canon t d = true ↔ Rises t ∧ ∀ e ∈ t, e.2 ≠ d e.1 := by
  simp [canon, rising_iff]

/-- Setting an entry keeps the canonical form. -/
theorem set_canon [DecidableEq α] (t : Tbl α) (d : Nat → α) (k : Nat) (v : α) (h : Tbl.canon t d = true) :
    Tbl.canon (Tbl.set t (d k) k v) d = true := by
  obtain ⟨hp, hd⟩ := (canon_iff t d).1 h
  refine (canon_iff _ d).2 ?_
  unfold set; split
  · exact ⟨erase_rises t k hp, fun e he => hd e ((mem_erase t k e).1 he).1⟩
  · exact ⟨insert_rises _ k v (fun e he => ((mem_erase t k e).1 he).2) (erase_rises t k hp),
      fun e he => by rcases (mem_insert _ k v e).1 he with rfl | he <;> grind [mem_erase]⟩

/-- Leaving entries out keeps the canonical form. -/
theorem filter_canon [DecidableEq α] (t : Tbl α) (d : Nat → α) (p : Nat × α → Bool) (h : Tbl.canon t d = true) :
    Tbl.canon (t.filter p) d = true := by
  obtain ⟨hp, hd⟩ := (canon_iff t d).1 h
  exact (canon_iff _ d).2 ⟨hp.filter p, fun e he => hd e (List.mem_filter.1 he).1⟩
end Tbl

namespace Memory

/-- A byte reads as last written, and every other byte as before. -/
theorem read_write (m : Memory) (a b : Nat) (v : Byte) : (m.write a v).read b = if b = a then v else m.read b :=
  Tbl.get_set m memDefault v a b

/-- Writing a list of bytes writes the byte of each address in its range, and leaves every other byte as it was. -/
theorem read_writeBytes (l : List Byte) : ∀ (m : Memory) (a b : Nat),
    (m.writeBytes a l).read b = if a ≤ b ∧ b < a + l.length then l.getD (b - a) 0 else m.read b := by
  induction l with
  | nil => simp [writeBytes]
  | cons v l ih =>
    intro m a b
    rcases Nat.lt_trichotomy b a with h | h | h
    · grind [writeBytes, read_write]
    · grind [writeBytes, read_write]
    · obtain ⟨n, rfl⟩ := Nat.exists_eq_add_of_lt h
      simp [writeBytes, ih, read_write, show a + n + 1 - a = n + 1 by omega, show a + n + 1 - (a + 1) = n by omega]
      grind

/-- A write of bytes leaves the bytes outside it. -/
theorem read_writeBytes_out (m : Memory) (l : List Byte) (a b : Nat) (h : b < a ∨ a + l.length ≤ b) :
    (m.writeBytes a l).read b = m.read b := by
  rw [read_writeBytes, if_neg (by omega)]

/-- n bytes read from an address are the bytes that stand there. -/
theorem readBytes_at (m : Memory) (n : Nat) : ∀ a, m.readBytes a n = (List.range n).map fun k => m.read (a + k) := by
  induction n with
  | zero => simp [readBytes]
  | succ n ih => intro a; simp [readBytes, ih, List.range_succ_eq_map, Nat.add_assoc, Nat.add_comm 1]

/-- n bytes read back as they were written. -/
theorem readBytes_writeBytes (l : List Byte) (m : Memory) (a : Nat) : (m.writeBytes a l).readBytes a l.length = l := by
  rw [readBytes_at]
  apply List.ext_getElem <;> simp +contextual [read_writeBytes]

/-- Writing a byte keeps the canonical form of the memory. -/
theorem write_wf (m : Memory) (a : Nat) (v : Byte) (h : m.wf) : (m.write a v).wf :=
  Tbl.set_canon m (fun _ => memDefault) a v h

/-- Writing bytes keeps the canonical form of the memory. -/
theorem writeBytes_wf (l : List Byte) (m : Memory) (a : Nat) (h : m.wf) : (m.writeBytes a l).wf := by
  induction l generalizing m a with
  | nil => exact h
  | cons v l ih => exact ih _ _ (write_wf m a v h)

/-- Losing bytes keeps the canonical form of the memory. -/
theorem filter_wf (m : Memory) (p : Nat × Byte → Bool) (h : m.wf) : Memory.wf (m.filter p) :=
  Tbl.filter_canon m (fun _ => memDefault) p h

end Memory
end Sys2Proof.Machine
end

