-- ==== Sys2Proof/Laws/Registers.lean ====
section
/-!
SUPPORT. Registers and their fields: what a field reads after a field is written, and what the reports of a block change.
-/
namespace Sys2Proof.Machine
namespace State

/-- A register reads as last written, and every other register as before. -/
theorem wr_rd (s : State) (a b : Nat) (v : Word) : (s.wr a v).rd b = if b = a then v else s.rd b := by
  by_cases h : b = a
  · subst h; simp [rd, wr]
  · simp only [rd, wr, if_neg h]; exact Tbl.get_set_ne _ _ _ _ _ _ h

@[simp] theorem wr_rd_self (s : State) (a : Nat) (v : Word) : (s.wr a v).rd a = v := by simp [wr_rd]

theorem wr_rd_ne (s : State) (a b : Nat) (v : Word) (h : b ≠ a) : (s.wr a v).rd b = s.rd b := by simp [wr_rd, h]

theorem fieldInto_toNat (old v : Nat) (f : Fld) (h : f.lsb + f.width ≤ 32) (ho : old < 2 ^ 32) :
    (fieldInto old f v).toNat =
      old % 2 ^ f.lsb + v % 2 ^ f.width * 2 ^ f.lsb + old / 2 ^ (f.lsb + f.width) * 2 ^ (f.lsb + f.width) := by
  rw [fieldInto, BitVec.toNat_ofNat, Nat.mod_eq_of_lt]
  obtain ⟨c, hc⟩ : ∃ c, 32 = f.lsb + f.width + c := ⟨32 - (f.lsb + f.width), by omega⟩
  have hP : 2 ^ (f.lsb + f.width) = 2 ^ f.lsb * 2 ^ f.width := Nat.pow_add ..
  have hT : (2:Nat) ^ 32 = 2 ^ (f.lsb + f.width) * 2 ^ c := by rw [hc, Nat.pow_add]
  have h1 : old % 2 ^ f.lsb < 2 ^ f.lsb := Nat.mod_lt _ (Nat.two_pow_pos _)
  have h2 : v % 2 ^ f.width < 2 ^ f.width := Nat.mod_lt _ (Nat.two_pow_pos _)
  have h3 : old / 2 ^ (f.lsb + f.width) < 2 ^ c := by
    rw [Nat.div_lt_iff_lt_mul (Nat.two_pow_pos _), Nat.mul_comm, ← hT]; exact ho
  have h4 : v % 2 ^ f.width * 2 ^ f.lsb + 2 ^ f.lsb ≤ 2 ^ (f.lsb + f.width) := by
    rw [hP, Nat.mul_comm (2 ^ f.lsb)]
    calc v % 2 ^ f.width * 2 ^ f.lsb + 2 ^ f.lsb = (v % 2 ^ f.width + 1) * 2 ^ f.lsb := by rw [Nat.add_mul, Nat.one_mul]
      _ ≤ 2 ^ f.width * 2 ^ f.lsb := Nat.mul_le_mul_right _ h2
  have h5 : old / 2 ^ (f.lsb + f.width) * 2 ^ (f.lsb + f.width) + 2 ^ (f.lsb + f.width) ≤ 2 ^ 32 := by
    rw [hT, Nat.mul_comm (2 ^ (f.lsb + f.width)) (2 ^ c)]
    calc _ = (old / 2 ^ (f.lsb + f.width) + 1) * 2 ^ (f.lsb + f.width) := by rw [Nat.add_mul, Nat.one_mul]
      _ ≤ _ := Nat.mul_le_mul_right _ h3
  omega

/-- A field reads as last written, modulo its width. -/
theorem set_get (s : State) (f : Fld) (v : Nat) (h : f.lsb + f.width ≤ 32) : (s.set f v).get f = v % 2 ^ f.width := by
  rw [get, set, wr_rd_self, fieldInto_toNat _ _ _ h (s.rd f.addr).isLt, Nat.pow_add]
  have h1 : (s.rd f.addr).toNat % 2 ^ f.lsb < 2 ^ f.lsb := Nat.mod_lt _ (Nat.two_pow_pos _)
  have hp := Nat.two_pow_pos f.lsb
  generalize (s.rd f.addr).toNat / (2 ^ f.lsb * 2 ^ f.width) = q
  have : (s.rd f.addr).toNat % 2 ^ f.lsb + v % 2 ^ f.width * 2 ^ f.lsb + q * (2 ^ f.lsb * 2 ^ f.width)
      = (s.rd f.addr).toNat % 2 ^ f.lsb + 2 ^ f.lsb * (v % 2 ^ f.width + q * 2 ^ f.width) := by ring
  rw [this, Nat.add_mul_div_left _ _ hp, Nat.div_eq_of_lt h1, Nat.zero_add, Nat.add_mul_mod_self_right, Nat.mod_mod]

/-- Bit k of a register word after one of its fields is written. -/
theorem fieldInto_bit (old v : Nat) (f : Fld) (h : f.lsb + f.width ≤ 32) (ho : old < 2 ^ 32) (k : Nat) :
    (fieldInto old f v).toNat.testBit k =
      if f.lsb ≤ k ∧ k < f.lsb + f.width then v.testBit (k - f.lsb) else old.testBit k := by
  rw [fieldInto_toNat _ _ _ h ho]
  have h1 : old % 2 ^ f.lsb < 2 ^ f.lsb := Nat.mod_lt _ (Nat.two_pow_pos _)
  have h2 : v % 2 ^ f.width < 2 ^ f.width := Nat.mod_lt _ (Nat.two_pow_pos _)
  have h3 : v % 2 ^ f.width * 2 ^ f.lsb + old % 2 ^ f.lsb < 2 ^ (f.lsb + f.width) := by
    rw [Nat.pow_add, Nat.mul_comm (2 ^ f.lsb)]
    calc _ < v % 2 ^ f.width * 2 ^ f.lsb + 2 ^ f.lsb := by omega
      _ = (v % 2 ^ f.width + 1) * 2 ^ f.lsb := by rw [Nat.add_mul, Nat.one_mul]
      _ ≤ _ := Nat.mul_le_mul_right _ h2
  have e : old % 2 ^ f.lsb + v % 2 ^ f.width * 2 ^ f.lsb + old / 2 ^ (f.lsb + f.width) * 2 ^ (f.lsb + f.width)
      = 2 ^ (f.lsb + f.width) * (old / 2 ^ (f.lsb + f.width)) + (2 ^ f.lsb * (v % 2 ^ f.width) + old % 2 ^ f.lsb) := by ring
  rw [e, Nat.testBit_two_pow_mul_add _ (by rw [Nat.mul_comm]; exact h3), Nat.testBit_two_pow_mul_add _ h1,
    Nat.testBit_div_two_pow, Nat.testBit_mod_two_pow, Nat.testBit_mod_two_pow]
  by_cases c1 : k < f.lsb
  · rw [if_pos (by omega), if_pos c1, if_neg (by omega)]; simp [c1]
  · by_cases c2 : k < f.lsb + f.width
    · rw [if_pos c2, if_neg c1, if_pos (by omega)]
      have : k - f.lsb < f.width := by omega
      simp [this]
    · rw [if_neg c2, if_neg (by omega)]; congr 1; omega

/-- A field of another register, or one that shares no bit, reads as before. -/
theorem set_get_ne (s : State) (f g : Fld) (v : Nat) (hf : f.lsb + f.width ≤ 32)
    (h : g.addr ≠ f.addr ∨ g.lsb + g.width ≤ f.lsb ∨ f.lsb + f.width ≤ g.lsb) : (s.set f v).get g = s.get g := by
  by_cases ha : g.addr = f.addr
  · have hd : g.lsb + g.width ≤ f.lsb ∨ f.lsb + f.width ≤ g.lsb := by
      rcases h with h | h
      · exact absurd ha h
      · exact h
    rw [get, get, set, ha, wr_rd_self]
    apply Nat.eq_of_testBit_eq
    intro k
    rw [Nat.testBit_mod_two_pow, Nat.testBit_mod_two_pow, Nat.testBit_div_two_pow, Nat.testBit_div_two_pow,
      fieldInto_bit _ _ _ hf (s.rd f.addr).isLt]
    by_cases hk : k < g.width
    · rw [if_neg (by omega)]
    · simp [hk]
  · rw [get, get, set, wr_rd_ne _ _ _ _ ha]

/-- A flag reads as last set. -/
theorem set_flag (s : State) (f : Fld) (v : Nat) (h : f.lsb + f.width ≤ 32) (hw : f.width = 1) :
    (s.set f v).flag f = (v % 2 == 1) := by
  rw [flag, set_get _ _ _ h, hw]; rfl

theorem set_flag_ne (s : State) (f g : Fld) (v : Nat) (hf : f.lsb + f.width ≤ 32)
    (h : g.addr ≠ f.addr ∨ g.lsb + g.width ≤ f.lsb ∨ f.lsb + f.width ≤ g.lsb) : (s.set f v).flag g = s.flag g := by
  rw [flag, flag, set_get_ne _ _ _ _ hf h]

theorem put_flag (s : State) (f : Fld) (b : Bool) (h : f.lsb + f.width ≤ 32) (hw : f.width = 1) :
    (s.put f b).flag f = b := by
  rw [put, set_flag _ _ _ h hw]; cases b <;> rfl

/-- A register that a field does not stand in reads as before. -/
theorem set_rd_ne (s : State) (f : Fld) (v a : Nat) (h : a ≠ f.addr) : (s.set f v).rd a = s.rd a := wr_rd_ne _ _ _ _ h

/-- A table entry kept by number in the stage reads as last set. -/
theorem setDie_dieAt (s : State) (d k : Nat) (x : Die) : (s.setDie d x).dieAt k = if k = d then x else s.dieAt k :=
  Tbl.get_set s.stage.dies {} x d k

theorem setSdC_sdC (s : State) (n k : Nat) (x : SdChan) : (s.setSdC n x).sdC k = if k = n then x else s.sdC k :=
  Tbl.get_set s.stage.sdCh {} x n k

theorem setSdB_sdB (s : State) (b k : Nat) (x : SdBank) : (s.setSdB b x).sdB k = if k = b then x else s.sdB k :=
  Tbl.get_set s.stage.sdBank {} x b k

theorem setLsC_lsC (s : State) (n k : Nat) (x : LsChan) : (s.setLsC n x).lsC k = if k = n then x else s.lsC k := by
  by_cases h : k = n
  · subst h; simp [lsC, setLsC]
  · simp only [lsC, setLsC, if_neg h]; exact Tbl.get_set_ne _ _ _ _ _ _ h

theorem setLsG_lsG (s : State) (g k : Nat) (x : LsGroup) : (s.setLsG g x).lsG k = if k = g then x else s.lsG k :=
  Tbl.get_set s.stage.lsGrp {} x g k

theorem setLoop_loopAt (s : State) (n k : Nat) (x : LoopSt) : (s.setLoop n x).loopAt k = if k = n then x else s.loopAt k :=
  Tbl.get_set s.ce.loops {} x n k

/-- An object reads as last set, and every other object as before. -/
theorem setObj_obj (s : State) (i j i' j' : Nat) (v : ObjVal) :
    (s.setObj i j v).obj i' j' =
      if objKey i' j' = objKey i j then (if objDefault i' j' = objDefault i j then v else (s.setObj i j v).obj i' j')
      else s.obj i' j' := by
  by_cases h : objKey i' j' = objKey i j
  · rw [if_pos h]
    split
    · rename_i hd; simp [obj, setObj, h, hd]
    · rfl
  · rw [if_neg h]; simp only [obj, setObj]; exact Tbl.get_set_ne _ _ _ _ _ _ h

@[simp] theorem setObj_obj_self (s : State) (i j : Nat) (v : ObjVal) : (s.setObj i j v).obj i j = v := by
  simp [obj, setObj]

/-! What the ways to report change -/

/-- A doorbell changes registers alone: its pending bit or the count of coalesced doorbells. -/
theorem ring_only (s : State) (n : Nat) : ∃ r, s.ring n = { s with regs := r } := by
  unfold ring; split <;> exact ⟨_, rfl⟩

/-- Firing a source changes registers alone. -/
theorem fire_only (s : State) (n : Nat) : ∃ r, s.fire n = { s with regs := r } := by
  unfold fire
  split
  · split
    · obtain ⟨r, h⟩ := ring_only (s.set ⟨_, _, 1⟩ 1) n; exact ⟨r, h⟩
    · exact ⟨_, rfl⟩
  · split
    · exact ring_only s 1
    · exact ⟨_, rfl⟩

/-- The intake of an event changes the event recorder, registers and the Keeper's count of dropped records alone. -/
theorem intake_only (s : State) (e : Ev) : ∃ r x y, s.intake e = { s with regs := r, ev := x, kp := y } := by
  unfold intake
  split
  · exact ⟨_, _, _, rfl⟩
  · split
    · obtain ⟨r, h⟩ := fire_only
        ((({ s with kp := { s.kp with dropped := s.kp.dropped + 1 } } : State).count R.evDropped).set R.evStatLost 1) 537
      exact ⟨r, _, _, h⟩
    · obtain ⟨r, h⟩ := fire_only
        ((({ s with ev := { s.ev with dropPend := s.ev.dropPend + 1 } } : State).count R.evDropped).set R.evStatLost 1) 537
      exact ⟨r, _, _, h⟩

/-- Logging an event changes what its intake changes. -/
theorem log_only (s : State) (code : Nat) (data : List Byte) :
    ∃ r x y, s.log code data = { s with regs := r, ev := x, kp := y } := by
  unfold log
  split
  · exact intake_only s _
  · exact ⟨_, _, _, rfl⟩

/-- The passing of time changes the clock and device time alone. -/
theorem elapse_only (s : State) (d : Nat) : ∃ n x, s.elapse d = { s with now := n, time := x } := by
  unfold elapse; split <;> exact ⟨_, _, rfl⟩

theorem passTo_only (s : State) (t : Nat) : ∃ n x, s.passTo t = { s with now := n, time := x } := by
  unfold passTo; split
  · exact elapse_only s _
  · exact ⟨_, _, rfl⟩

theorem devTo_only (s : State) (t : Time) : ∃ n x, s.devTo t = { s with now := n, time := x } := by
  unfold devTo; split
  · split <;> exact ⟨_, _, rfl⟩
  · exact ⟨s.now, s.time, rfl⟩

end State

/-- Memory after reset is in the canonical form. -/
theorem reset_mem_wf : State.reset.mem.wf := by decide

end Sys2Proof.Machine
end

