-- ==== Sys2Proof/Laws/Reports.lean ====
section
/-!
SUPPORT. What the ways to report, and the passing of time, leave: one lemma per field of the state.
-/
namespace Sys2Proof.Machine
namespace State

/-! ring changes regs alone. -/

/-- What does not read regs reads as before. -/
theorem ring_keeps {β : Type} (s : State) (n : Nat) (p : State → β) (hp : ∀ x, p { s with regs := x } = p s) :
    p (s.ring n) = p s :=
  (ring_only s n).elim fun x h => h ▸ hp x

@[simp] theorem ring_now (s : State) (n : Nat) : (s.ring n).now = s.now := ring_keeps s n (·.now) fun _ => rfl
@[simp] theorem ring_freeCtr (s : State) (n : Nat) : (s.ring n).freeCtr = s.freeCtr := ring_keeps s n (·.freeCtr) fun _ => rfl
@[simp] theorem ring_objs (s : State) (n : Nat) : (s.ring n).objs = s.objs := ring_keeps s n (·.objs) fun _ => rfl
@[simp] theorem ring_oem (s : State) (n : Nat) : (s.ring n).oem = s.oem := ring_keeps s n (·.oem) fun _ => rfl
@[simp] theorem ring_gov (s : State) (n : Nat) : (s.ring n).gov = s.gov := ring_keeps s n (·.gov) fun _ => rfl
@[simp] theorem ring_par (s : State) (n : Nat) : (s.ring n).par = s.par := ring_keeps s n (·.par) fun _ => rfl
@[simp] theorem ring_gate (s : State) (n : Nat) : (s.ring n).gate = s.gate := ring_keeps s n (·.gate) fun _ => rfl
@[simp] theorem ring_remote (s : State) (n : Nat) : (s.ring n).remote = s.remote := ring_keeps s n (·.remote) fun _ => rfl
@[simp] theorem ring_steer (s : State) (n : Nat) : (s.ring n).steer = s.steer := ring_keeps s n (·.steer) fun _ => rfl
@[simp] theorem ring_fab (s : State) (n : Nat) : (s.ring n).fab = s.fab := ring_keeps s n (·.fab) fun _ => rfl
@[simp] theorem ring_chim (s : State) (n : Nat) : (s.ring n).chim = s.chim := ring_keeps s n (·.chim) fun _ => rfl
@[simp] theorem ring_can (s : State) (n : Nat) : (s.ring n).can = s.can := ring_keeps s n (·.can) fun _ => rfl
@[simp] theorem ring_cv (s : State) (n : Nat) : (s.ring n).cv = s.cv := ring_keeps s n (·.cv) fun _ => rfl
@[simp] theorem ring_panel (s : State) (n : Nat) : (s.ring n).panel = s.panel := ring_keeps s n (·.panel) fun _ => rfl
@[simp] theorem ring_th (s : State) (n : Nat) : (s.ring n).th = s.th := ring_keeps s n (·.th) fun _ => rfl
@[simp] theorem ring_kp (s : State) (n : Nat) : (s.ring n).kp = s.kp := ring_keeps s n (·.kp) fun _ => rfl
@[simp] theorem ring_pwr (s : State) (n : Nat) : (s.ring n).pwr = s.pwr := ring_keeps s n (·.pwr) fun _ => rfl
@[simp] theorem ring_ps (s : State) (n : Nat) : (s.ring n).ps = s.ps := ring_keeps s n (·.ps) fun _ => rfl
@[simp] theorem ring_dict (s : State) (n : Nat) : (s.ring n).dict = s.dict := ring_keeps s n (·.dict) fun _ => rfl
@[simp] theorem ring_sec (s : State) (n : Nat) : (s.ring n).sec = s.sec := ring_keeps s n (·.sec) fun _ => rfl
@[simp] theorem ring_upd (s : State) (n : Nat) : (s.ring n).upd = s.upd := ring_keeps s n (·.upd) fun _ => rfl
@[simp] theorem ring_changes (s : State) (n : Nat) : (s.ring n).changes = s.changes := ring_keeps s n (·.changes) fun _ => rfl
@[simp] theorem ring_mem (s : State) (n : Nat) : (s.ring n).mem = s.mem := ring_keeps s n (·.mem) fun _ => rfl
@[simp] theorem ring_trellis (s : State) (n : Nat) : (s.ring n).trellis = s.trellis := ring_keeps s n (·.trellis) fun _ => rfl
@[simp] theorem ring_delivery (s : State) (n : Nat) : (s.ring n).delivery = s.delivery := ring_keeps s n (·.delivery) fun _ => rfl
@[simp] theorem ring_ev (s : State) (n : Nat) : (s.ring n).ev = s.ev := ring_keeps s n (·.ev) fun _ => rfl
@[simp] theorem ring_sens (s : State) (n : Nat) : (s.ring n).sens = s.sens := ring_keeps s n (·.sens) fun _ => rfl
@[simp] theorem ring_pwrStatus (s : State) (n : Nat) : (s.ring n).pwrStatus = s.pwrStatus := ring_keeps s n (·.pwrStatus) fun _ => rfl
@[simp] theorem ring_stage (s : State) (n : Nat) : (s.ring n).stage = s.stage := ring_keeps s n (·.stage) fun _ => rfl
@[simp] theorem ring_ce (s : State) (n : Nat) : (s.ring n).ce = s.ce := ring_keeps s n (·.ce) fun _ => rfl
@[simp] theorem ring_stop (s : State) (n : Nat) : (s.ring n).stop = s.stop := ring_keeps s n (·.stop) fun _ => rfl
@[simp] theorem ring_gh (s : State) (n : Nat) : (s.ring n).gh = s.gh := ring_keeps s n (·.gh) fun _ => rfl
@[simp] theorem ring_clk (s : State) (n : Nat) : (s.ring n).clk = s.clk := ring_keeps s n (·.clk) fun _ => rfl
@[simp] theorem ring_sram (s : State) (n : Nat) : (s.ring n).sram = s.sram := ring_keeps s n (·.sram) fun _ => rfl
@[simp] theorem ring_dram (s : State) (n : Nat) : (s.ring n).dram = s.dram := ring_keeps s n (·.dram) fun _ => rfl
@[simp] theorem ring_flash (s : State) (n : Nat) : (s.ring n).flash = s.flash := ring_keeps s n (·.flash) fun _ => rfl
@[simp] theorem ring_gn (s : State) (n : Nat) : (s.ring n).gn = s.gn := ring_keeps s n (·.gn) fun _ => rfl
@[simp] theorem ring_fu (s : State) (n : Nat) : (s.ring n).fu = s.fu := ring_keeps s n (·.fu) fun _ => rfl
@[simp] theorem ring_cam (s : State) (n : Nat) : (s.ring n).cam = s.cam := ring_keeps s n (·.cam) fun _ => rfl
@[simp] theorem ring_intg (s : State) (n : Nat) : (s.ring n).intg = s.intg := ring_keeps s n (·.intg) fun _ => rfl
@[simp] theorem ring_records (s : State) (n : Nat) : (s.ring n).records = s.records := ring_keeps s n (·.records) fun _ => rfl
@[simp] theorem ring_generation (s : State) (n : Nat) : (s.ring n).generation = s.generation := ring_keeps s n (·.generation) fun _ => rfl
@[simp] theorem ring_procs (s : State) (n : Nat) : (s.ring n).procs = s.procs := ring_keeps s n (·.procs) fun _ => rfl
@[simp] theorem ring_time (s : State) (n : Nat) : (s.ring n).time = s.time := ring_keeps s n (·.time) fun _ => rfl
@[simp] theorem ring_estP (s : State) (n : Nat) : (s.ring n).estP = s.estP := ring_keeps s n (·.estP) fun _ => rfl
@[simp] theorem ring_estI (s : State) (n : Nat) : (s.ring n).estI = s.estI := ring_keeps s n (·.estI) fun _ => rfl
@[simp] theorem ring_roleInEffect (s : State) (n : Nat) : (s.ring n).roleInEffect = s.roleInEffect := ring_keeps s n (·.roleInEffect) fun _ => rfl
@[simp] theorem ring_hw (s : State) (n : Nat) : (s.ring n).hw = s.hw := ring_keeps s n (·.hw) fun _ => rfl
@[simp] theorem ring_out (s : State) (n : Nat) : (s.ring n).out = s.out := ring_keeps s n (·.out) fun _ => rfl
@[simp] theorem ring_pending (s : State) (n : Nat) : (s.ring n).pending = s.pending := ring_keeps s n (·.pending) fun _ => rfl
@[simp] theorem ring_dieAt (s : State) (n : Nat) (k : Nat) : (s.ring n).dieAt k = s.dieAt k := by simp [dieAt]
@[simp] theorem ring_sdB (s : State) (n : Nat) (k : Nat) : (s.ring n).sdB k = s.sdB k := by simp [sdB]
@[simp] theorem ring_sdC (s : State) (n : Nat) (k : Nat) : (s.ring n).sdC k = s.sdC k := by simp [sdC]
@[simp] theorem ring_lsC (s : State) (n : Nat) (k : Nat) : (s.ring n).lsC k = s.lsC k := by simp [lsC]
@[simp] theorem ring_lsG (s : State) (n : Nat) (k : Nat) : (s.ring n).lsG k = s.lsG k := by simp [lsG]
@[simp] theorem ring_loopAt (s : State) (n : Nat) (k : Nat) : (s.ring n).loopAt k = s.loopAt k := by simp [loopAt]

/-! fire changes regs alone. -/

/-- What does not read regs reads as before. -/
theorem fire_keeps {β : Type} (s : State) (n : Nat) (p : State → β) (hp : ∀ x, p { s with regs := x } = p s) :
    p (s.fire n) = p s :=
  (fire_only s n).elim fun x h => h ▸ hp x

@[simp] theorem fire_now (s : State) (n : Nat) : (s.fire n).now = s.now := fire_keeps s n (·.now) fun _ => rfl
@[simp] theorem fire_freeCtr (s : State) (n : Nat) : (s.fire n).freeCtr = s.freeCtr := fire_keeps s n (·.freeCtr) fun _ => rfl
@[simp] theorem fire_objs (s : State) (n : Nat) : (s.fire n).objs = s.objs := fire_keeps s n (·.objs) fun _ => rfl
@[simp] theorem fire_oem (s : State) (n : Nat) : (s.fire n).oem = s.oem := fire_keeps s n (·.oem) fun _ => rfl
@[simp] theorem fire_gov (s : State) (n : Nat) : (s.fire n).gov = s.gov := fire_keeps s n (·.gov) fun _ => rfl
@[simp] theorem fire_par (s : State) (n : Nat) : (s.fire n).par = s.par := fire_keeps s n (·.par) fun _ => rfl
@[simp] theorem fire_gate (s : State) (n : Nat) : (s.fire n).gate = s.gate := fire_keeps s n (·.gate) fun _ => rfl
@[simp] theorem fire_remote (s : State) (n : Nat) : (s.fire n).remote = s.remote := fire_keeps s n (·.remote) fun _ => rfl
@[simp] theorem fire_steer (s : State) (n : Nat) : (s.fire n).steer = s.steer := fire_keeps s n (·.steer) fun _ => rfl
@[simp] theorem fire_fab (s : State) (n : Nat) : (s.fire n).fab = s.fab := fire_keeps s n (·.fab) fun _ => rfl
@[simp] theorem fire_chim (s : State) (n : Nat) : (s.fire n).chim = s.chim := fire_keeps s n (·.chim) fun _ => rfl
@[simp] theorem fire_can (s : State) (n : Nat) : (s.fire n).can = s.can := fire_keeps s n (·.can) fun _ => rfl
@[simp] theorem fire_cv (s : State) (n : Nat) : (s.fire n).cv = s.cv := fire_keeps s n (·.cv) fun _ => rfl
@[simp] theorem fire_panel (s : State) (n : Nat) : (s.fire n).panel = s.panel := fire_keeps s n (·.panel) fun _ => rfl
@[simp] theorem fire_th (s : State) (n : Nat) : (s.fire n).th = s.th := fire_keeps s n (·.th) fun _ => rfl
@[simp] theorem fire_kp (s : State) (n : Nat) : (s.fire n).kp = s.kp := fire_keeps s n (·.kp) fun _ => rfl
@[simp] theorem fire_pwr (s : State) (n : Nat) : (s.fire n).pwr = s.pwr := fire_keeps s n (·.pwr) fun _ => rfl
@[simp] theorem fire_ps (s : State) (n : Nat) : (s.fire n).ps = s.ps := fire_keeps s n (·.ps) fun _ => rfl
@[simp] theorem fire_dict (s : State) (n : Nat) : (s.fire n).dict = s.dict := fire_keeps s n (·.dict) fun _ => rfl
@[simp] theorem fire_sec (s : State) (n : Nat) : (s.fire n).sec = s.sec := fire_keeps s n (·.sec) fun _ => rfl
@[simp] theorem fire_upd (s : State) (n : Nat) : (s.fire n).upd = s.upd := fire_keeps s n (·.upd) fun _ => rfl
@[simp] theorem fire_changes (s : State) (n : Nat) : (s.fire n).changes = s.changes := fire_keeps s n (·.changes) fun _ => rfl
@[simp] theorem fire_mem (s : State) (n : Nat) : (s.fire n).mem = s.mem := fire_keeps s n (·.mem) fun _ => rfl
@[simp] theorem fire_trellis (s : State) (n : Nat) : (s.fire n).trellis = s.trellis := fire_keeps s n (·.trellis) fun _ => rfl
@[simp] theorem fire_delivery (s : State) (n : Nat) : (s.fire n).delivery = s.delivery := fire_keeps s n (·.delivery) fun _ => rfl
@[simp] theorem fire_ev (s : State) (n : Nat) : (s.fire n).ev = s.ev := fire_keeps s n (·.ev) fun _ => rfl
@[simp] theorem fire_sens (s : State) (n : Nat) : (s.fire n).sens = s.sens := fire_keeps s n (·.sens) fun _ => rfl
@[simp] theorem fire_pwrStatus (s : State) (n : Nat) : (s.fire n).pwrStatus = s.pwrStatus := fire_keeps s n (·.pwrStatus) fun _ => rfl
@[simp] theorem fire_stage (s : State) (n : Nat) : (s.fire n).stage = s.stage := fire_keeps s n (·.stage) fun _ => rfl
@[simp] theorem fire_ce (s : State) (n : Nat) : (s.fire n).ce = s.ce := fire_keeps s n (·.ce) fun _ => rfl
@[simp] theorem fire_stop (s : State) (n : Nat) : (s.fire n).stop = s.stop := fire_keeps s n (·.stop) fun _ => rfl
@[simp] theorem fire_gh (s : State) (n : Nat) : (s.fire n).gh = s.gh := fire_keeps s n (·.gh) fun _ => rfl
@[simp] theorem fire_clk (s : State) (n : Nat) : (s.fire n).clk = s.clk := fire_keeps s n (·.clk) fun _ => rfl
@[simp] theorem fire_sram (s : State) (n : Nat) : (s.fire n).sram = s.sram := fire_keeps s n (·.sram) fun _ => rfl
@[simp] theorem fire_dram (s : State) (n : Nat) : (s.fire n).dram = s.dram := fire_keeps s n (·.dram) fun _ => rfl
@[simp] theorem fire_flash (s : State) (n : Nat) : (s.fire n).flash = s.flash := fire_keeps s n (·.flash) fun _ => rfl
@[simp] theorem fire_gn (s : State) (n : Nat) : (s.fire n).gn = s.gn := fire_keeps s n (·.gn) fun _ => rfl
@[simp] theorem fire_fu (s : State) (n : Nat) : (s.fire n).fu = s.fu := fire_keeps s n (·.fu) fun _ => rfl
@[simp] theorem fire_cam (s : State) (n : Nat) : (s.fire n).cam = s.cam := fire_keeps s n (·.cam) fun _ => rfl
@[simp] theorem fire_intg (s : State) (n : Nat) : (s.fire n).intg = s.intg := fire_keeps s n (·.intg) fun _ => rfl
@[simp] theorem fire_records (s : State) (n : Nat) : (s.fire n).records = s.records := fire_keeps s n (·.records) fun _ => rfl
@[simp] theorem fire_generation (s : State) (n : Nat) : (s.fire n).generation = s.generation := fire_keeps s n (·.generation) fun _ => rfl
@[simp] theorem fire_procs (s : State) (n : Nat) : (s.fire n).procs = s.procs := fire_keeps s n (·.procs) fun _ => rfl
@[simp] theorem fire_time (s : State) (n : Nat) : (s.fire n).time = s.time := fire_keeps s n (·.time) fun _ => rfl
@[simp] theorem fire_estP (s : State) (n : Nat) : (s.fire n).estP = s.estP := fire_keeps s n (·.estP) fun _ => rfl
@[simp] theorem fire_estI (s : State) (n : Nat) : (s.fire n).estI = s.estI := fire_keeps s n (·.estI) fun _ => rfl
@[simp] theorem fire_roleInEffect (s : State) (n : Nat) : (s.fire n).roleInEffect = s.roleInEffect := fire_keeps s n (·.roleInEffect) fun _ => rfl
@[simp] theorem fire_hw (s : State) (n : Nat) : (s.fire n).hw = s.hw := fire_keeps s n (·.hw) fun _ => rfl
@[simp] theorem fire_out (s : State) (n : Nat) : (s.fire n).out = s.out := fire_keeps s n (·.out) fun _ => rfl
@[simp] theorem fire_pending (s : State) (n : Nat) : (s.fire n).pending = s.pending := fire_keeps s n (·.pending) fun _ => rfl
@[simp] theorem fire_dieAt (s : State) (n : Nat) (k : Nat) : (s.fire n).dieAt k = s.dieAt k := by simp [dieAt]
@[simp] theorem fire_sdB (s : State) (n : Nat) (k : Nat) : (s.fire n).sdB k = s.sdB k := by simp [sdB]
@[simp] theorem fire_sdC (s : State) (n : Nat) (k : Nat) : (s.fire n).sdC k = s.sdC k := by simp [sdC]
@[simp] theorem fire_lsC (s : State) (n : Nat) (k : Nat) : (s.fire n).lsC k = s.lsC k := by simp [lsC]
@[simp] theorem fire_lsG (s : State) (n : Nat) (k : Nat) : (s.fire n).lsG k = s.lsG k := by simp [lsG]
@[simp] theorem fire_loopAt (s : State) (n : Nat) (k : Nat) : (s.fire n).loopAt k = s.loopAt k := by simp [loopAt]

/-! intake changes regs, ev, kp alone. -/

/-- What does not read regs, ev, kp reads as before. -/
theorem intake_keeps {β : Type} (s : State) (e : Ev) (p : State → β) (hp : ∀ x y z, p { s with regs := x, ev := y, kp := z } = p s) :
    p (s.intake e) = p s :=
  (intake_only s e).elim fun x ⟨y, z, h⟩ => h ▸ hp x y z

@[simp] theorem intake_now (s : State) (e : Ev) : (s.intake e).now = s.now := intake_keeps s e (·.now) fun _ _ _ => rfl
@[simp] theorem intake_freeCtr (s : State) (e : Ev) : (s.intake e).freeCtr = s.freeCtr := intake_keeps s e (·.freeCtr) fun _ _ _ => rfl
@[simp] theorem intake_objs (s : State) (e : Ev) : (s.intake e).objs = s.objs := intake_keeps s e (·.objs) fun _ _ _ => rfl
@[simp] theorem intake_oem (s : State) (e : Ev) : (s.intake e).oem = s.oem := intake_keeps s e (·.oem) fun _ _ _ => rfl
@[simp] theorem intake_gov (s : State) (e : Ev) : (s.intake e).gov = s.gov := intake_keeps s e (·.gov) fun _ _ _ => rfl
@[simp] theorem intake_par (s : State) (e : Ev) : (s.intake e).par = s.par := intake_keeps s e (·.par) fun _ _ _ => rfl
@[simp] theorem intake_gate (s : State) (e : Ev) : (s.intake e).gate = s.gate := intake_keeps s e (·.gate) fun _ _ _ => rfl
@[simp] theorem intake_remote (s : State) (e : Ev) : (s.intake e).remote = s.remote := intake_keeps s e (·.remote) fun _ _ _ => rfl
@[simp] theorem intake_steer (s : State) (e : Ev) : (s.intake e).steer = s.steer := intake_keeps s e (·.steer) fun _ _ _ => rfl
@[simp] theorem intake_fab (s : State) (e : Ev) : (s.intake e).fab = s.fab := intake_keeps s e (·.fab) fun _ _ _ => rfl
@[simp] theorem intake_chim (s : State) (e : Ev) : (s.intake e).chim = s.chim := intake_keeps s e (·.chim) fun _ _ _ => rfl
@[simp] theorem intake_can (s : State) (e : Ev) : (s.intake e).can = s.can := intake_keeps s e (·.can) fun _ _ _ => rfl
@[simp] theorem intake_cv (s : State) (e : Ev) : (s.intake e).cv = s.cv := intake_keeps s e (·.cv) fun _ _ _ => rfl
@[simp] theorem intake_panel (s : State) (e : Ev) : (s.intake e).panel = s.panel := intake_keeps s e (·.panel) fun _ _ _ => rfl
@[simp] theorem intake_th (s : State) (e : Ev) : (s.intake e).th = s.th := intake_keeps s e (·.th) fun _ _ _ => rfl
@[simp] theorem intake_pwr (s : State) (e : Ev) : (s.intake e).pwr = s.pwr := intake_keeps s e (·.pwr) fun _ _ _ => rfl
@[simp] theorem intake_ps (s : State) (e : Ev) : (s.intake e).ps = s.ps := intake_keeps s e (·.ps) fun _ _ _ => rfl
@[simp] theorem intake_dict (s : State) (e : Ev) : (s.intake e).dict = s.dict := intake_keeps s e (·.dict) fun _ _ _ => rfl
@[simp] theorem intake_sec (s : State) (e : Ev) : (s.intake e).sec = s.sec := intake_keeps s e (·.sec) fun _ _ _ => rfl
@[simp] theorem intake_upd (s : State) (e : Ev) : (s.intake e).upd = s.upd := intake_keeps s e (·.upd) fun _ _ _ => rfl
@[simp] theorem intake_changes (s : State) (e : Ev) : (s.intake e).changes = s.changes := intake_keeps s e (·.changes) fun _ _ _ => rfl
@[simp] theorem intake_mem (s : State) (e : Ev) : (s.intake e).mem = s.mem := intake_keeps s e (·.mem) fun _ _ _ => rfl
@[simp] theorem intake_trellis (s : State) (e : Ev) : (s.intake e).trellis = s.trellis := intake_keeps s e (·.trellis) fun _ _ _ => rfl
@[simp] theorem intake_delivery (s : State) (e : Ev) : (s.intake e).delivery = s.delivery := intake_keeps s e (·.delivery) fun _ _ _ => rfl
@[simp] theorem intake_sens (s : State) (e : Ev) : (s.intake e).sens = s.sens := intake_keeps s e (·.sens) fun _ _ _ => rfl
@[simp] theorem intake_pwrStatus (s : State) (e : Ev) : (s.intake e).pwrStatus = s.pwrStatus := intake_keeps s e (·.pwrStatus) fun _ _ _ => rfl
@[simp] theorem intake_stage (s : State) (e : Ev) : (s.intake e).stage = s.stage := intake_keeps s e (·.stage) fun _ _ _ => rfl
@[simp] theorem intake_ce (s : State) (e : Ev) : (s.intake e).ce = s.ce := intake_keeps s e (·.ce) fun _ _ _ => rfl
@[simp] theorem intake_stop (s : State) (e : Ev) : (s.intake e).stop = s.stop := intake_keeps s e (·.stop) fun _ _ _ => rfl
@[simp] theorem intake_gh (s : State) (e : Ev) : (s.intake e).gh = s.gh := intake_keeps s e (·.gh) fun _ _ _ => rfl
@[simp] theorem intake_clk (s : State) (e : Ev) : (s.intake e).clk = s.clk := intake_keeps s e (·.clk) fun _ _ _ => rfl
@[simp] theorem intake_sram (s : State) (e : Ev) : (s.intake e).sram = s.sram := intake_keeps s e (·.sram) fun _ _ _ => rfl
@[simp] theorem intake_dram (s : State) (e : Ev) : (s.intake e).dram = s.dram := intake_keeps s e (·.dram) fun _ _ _ => rfl
@[simp] theorem intake_flash (s : State) (e : Ev) : (s.intake e).flash = s.flash := intake_keeps s e (·.flash) fun _ _ _ => rfl
@[simp] theorem intake_gn (s : State) (e : Ev) : (s.intake e).gn = s.gn := intake_keeps s e (·.gn) fun _ _ _ => rfl
@[simp] theorem intake_fu (s : State) (e : Ev) : (s.intake e).fu = s.fu := intake_keeps s e (·.fu) fun _ _ _ => rfl
@[simp] theorem intake_cam (s : State) (e : Ev) : (s.intake e).cam = s.cam := intake_keeps s e (·.cam) fun _ _ _ => rfl
@[simp] theorem intake_intg (s : State) (e : Ev) : (s.intake e).intg = s.intg := intake_keeps s e (·.intg) fun _ _ _ => rfl
@[simp] theorem intake_records (s : State) (e : Ev) : (s.intake e).records = s.records := intake_keeps s e (·.records) fun _ _ _ => rfl
@[simp] theorem intake_generation (s : State) (e : Ev) : (s.intake e).generation = s.generation := intake_keeps s e (·.generation) fun _ _ _ => rfl
@[simp] theorem intake_procs (s : State) (e : Ev) : (s.intake e).procs = s.procs := intake_keeps s e (·.procs) fun _ _ _ => rfl
@[simp] theorem intake_time (s : State) (e : Ev) : (s.intake e).time = s.time := intake_keeps s e (·.time) fun _ _ _ => rfl
@[simp] theorem intake_estP (s : State) (e : Ev) : (s.intake e).estP = s.estP := intake_keeps s e (·.estP) fun _ _ _ => rfl
@[simp] theorem intake_estI (s : State) (e : Ev) : (s.intake e).estI = s.estI := intake_keeps s e (·.estI) fun _ _ _ => rfl
@[simp] theorem intake_roleInEffect (s : State) (e : Ev) : (s.intake e).roleInEffect = s.roleInEffect := intake_keeps s e (·.roleInEffect) fun _ _ _ => rfl
@[simp] theorem intake_hw (s : State) (e : Ev) : (s.intake e).hw = s.hw := intake_keeps s e (·.hw) fun _ _ _ => rfl
@[simp] theorem intake_out (s : State) (e : Ev) : (s.intake e).out = s.out := intake_keeps s e (·.out) fun _ _ _ => rfl
@[simp] theorem intake_pending (s : State) (e : Ev) : (s.intake e).pending = s.pending := intake_keeps s e (·.pending) fun _ _ _ => rfl
@[simp] theorem intake_dieAt (s : State) (e : Ev) (k : Nat) : (s.intake e).dieAt k = s.dieAt k := by simp [dieAt]
@[simp] theorem intake_sdB (s : State) (e : Ev) (k : Nat) : (s.intake e).sdB k = s.sdB k := by simp [sdB]
@[simp] theorem intake_sdC (s : State) (e : Ev) (k : Nat) : (s.intake e).sdC k = s.sdC k := by simp [sdC]
@[simp] theorem intake_lsC (s : State) (e : Ev) (k : Nat) : (s.intake e).lsC k = s.lsC k := by simp [lsC]
@[simp] theorem intake_lsG (s : State) (e : Ev) (k : Nat) : (s.intake e).lsG k = s.lsG k := by simp [lsG]
@[simp] theorem intake_loopAt (s : State) (e : Ev) (k : Nat) : (s.intake e).loopAt k = s.loopAt k := by simp [loopAt]

/-! log changes regs, ev, kp alone. -/

/-- What does not read regs, ev, kp reads as before. -/
theorem log_keeps {β : Type} (s : State) (c : Nat) (d : List Byte) (p : State → β) (hp : ∀ x y z, p { s with regs := x, ev := y, kp := z } = p s) :
    p (s.log c d) = p s :=
  (log_only s c d).elim fun x ⟨y, z, h⟩ => h ▸ hp x y z

@[simp] theorem log_now (s : State) (c : Nat) (d : List Byte) : (s.log c d).now = s.now := log_keeps s c d (·.now) fun _ _ _ => rfl
@[simp] theorem log_freeCtr (s : State) (c : Nat) (d : List Byte) : (s.log c d).freeCtr = s.freeCtr := log_keeps s c d (·.freeCtr) fun _ _ _ => rfl
@[simp] theorem log_objs (s : State) (c : Nat) (d : List Byte) : (s.log c d).objs = s.objs := log_keeps s c d (·.objs) fun _ _ _ => rfl
@[simp] theorem log_oem (s : State) (c : Nat) (d : List Byte) : (s.log c d).oem = s.oem := log_keeps s c d (·.oem) fun _ _ _ => rfl
@[simp] theorem log_gov (s : State) (c : Nat) (d : List Byte) : (s.log c d).gov = s.gov := log_keeps s c d (·.gov) fun _ _ _ => rfl
@[simp] theorem log_par (s : State) (c : Nat) (d : List Byte) : (s.log c d).par = s.par := log_keeps s c d (·.par) fun _ _ _ => rfl
@[simp] theorem log_gate (s : State) (c : Nat) (d : List Byte) : (s.log c d).gate = s.gate := log_keeps s c d (·.gate) fun _ _ _ => rfl
@[simp] theorem log_remote (s : State) (c : Nat) (d : List Byte) : (s.log c d).remote = s.remote := log_keeps s c d (·.remote) fun _ _ _ => rfl
@[simp] theorem log_steer (s : State) (c : Nat) (d : List Byte) : (s.log c d).steer = s.steer := log_keeps s c d (·.steer) fun _ _ _ => rfl
@[simp] theorem log_fab (s : State) (c : Nat) (d : List Byte) : (s.log c d).fab = s.fab := log_keeps s c d (·.fab) fun _ _ _ => rfl
@[simp] theorem log_chim (s : State) (c : Nat) (d : List Byte) : (s.log c d).chim = s.chim := log_keeps s c d (·.chim) fun _ _ _ => rfl
@[simp] theorem log_can (s : State) (c : Nat) (d : List Byte) : (s.log c d).can = s.can := log_keeps s c d (·.can) fun _ _ _ => rfl
@[simp] theorem log_cv (s : State) (c : Nat) (d : List Byte) : (s.log c d).cv = s.cv := log_keeps s c d (·.cv) fun _ _ _ => rfl
@[simp] theorem log_panel (s : State) (c : Nat) (d : List Byte) : (s.log c d).panel = s.panel := log_keeps s c d (·.panel) fun _ _ _ => rfl
@[simp] theorem log_th (s : State) (c : Nat) (d : List Byte) : (s.log c d).th = s.th := log_keeps s c d (·.th) fun _ _ _ => rfl
@[simp] theorem log_pwr (s : State) (c : Nat) (d : List Byte) : (s.log c d).pwr = s.pwr := log_keeps s c d (·.pwr) fun _ _ _ => rfl
@[simp] theorem log_ps (s : State) (c : Nat) (d : List Byte) : (s.log c d).ps = s.ps := log_keeps s c d (·.ps) fun _ _ _ => rfl
@[simp] theorem log_dict (s : State) (c : Nat) (d : List Byte) : (s.log c d).dict = s.dict := log_keeps s c d (·.dict) fun _ _ _ => rfl
@[simp] theorem log_sec (s : State) (c : Nat) (d : List Byte) : (s.log c d).sec = s.sec := log_keeps s c d (·.sec) fun _ _ _ => rfl
@[simp] theorem log_upd (s : State) (c : Nat) (d : List Byte) : (s.log c d).upd = s.upd := log_keeps s c d (·.upd) fun _ _ _ => rfl
@[simp] theorem log_changes (s : State) (c : Nat) (d : List Byte) : (s.log c d).changes = s.changes := log_keeps s c d (·.changes) fun _ _ _ => rfl
@[simp] theorem log_mem (s : State) (c : Nat) (d : List Byte) : (s.log c d).mem = s.mem := log_keeps s c d (·.mem) fun _ _ _ => rfl
@[simp] theorem log_trellis (s : State) (c : Nat) (d : List Byte) : (s.log c d).trellis = s.trellis := log_keeps s c d (·.trellis) fun _ _ _ => rfl
@[simp] theorem log_delivery (s : State) (c : Nat) (d : List Byte) : (s.log c d).delivery = s.delivery := log_keeps s c d (·.delivery) fun _ _ _ => rfl
@[simp] theorem log_sens (s : State) (c : Nat) (d : List Byte) : (s.log c d).sens = s.sens := log_keeps s c d (·.sens) fun _ _ _ => rfl
@[simp] theorem log_pwrStatus (s : State) (c : Nat) (d : List Byte) : (s.log c d).pwrStatus = s.pwrStatus := log_keeps s c d (·.pwrStatus) fun _ _ _ => rfl
@[simp] theorem log_stage (s : State) (c : Nat) (d : List Byte) : (s.log c d).stage = s.stage := log_keeps s c d (·.stage) fun _ _ _ => rfl
@[simp] theorem log_ce (s : State) (c : Nat) (d : List Byte) : (s.log c d).ce = s.ce := log_keeps s c d (·.ce) fun _ _ _ => rfl
@[simp] theorem log_stop (s : State) (c : Nat) (d : List Byte) : (s.log c d).stop = s.stop := log_keeps s c d (·.stop) fun _ _ _ => rfl
@[simp] theorem log_gh (s : State) (c : Nat) (d : List Byte) : (s.log c d).gh = s.gh := log_keeps s c d (·.gh) fun _ _ _ => rfl
@[simp] theorem log_clk (s : State) (c : Nat) (d : List Byte) : (s.log c d).clk = s.clk := log_keeps s c d (·.clk) fun _ _ _ => rfl
@[simp] theorem log_sram (s : State) (c : Nat) (d : List Byte) : (s.log c d).sram = s.sram := log_keeps s c d (·.sram) fun _ _ _ => rfl
@[simp] theorem log_dram (s : State) (c : Nat) (d : List Byte) : (s.log c d).dram = s.dram := log_keeps s c d (·.dram) fun _ _ _ => rfl
@[simp] theorem log_flash (s : State) (c : Nat) (d : List Byte) : (s.log c d).flash = s.flash := log_keeps s c d (·.flash) fun _ _ _ => rfl
@[simp] theorem log_gn (s : State) (c : Nat) (d : List Byte) : (s.log c d).gn = s.gn := log_keeps s c d (·.gn) fun _ _ _ => rfl
@[simp] theorem log_fu (s : State) (c : Nat) (d : List Byte) : (s.log c d).fu = s.fu := log_keeps s c d (·.fu) fun _ _ _ => rfl
@[simp] theorem log_cam (s : State) (c : Nat) (d : List Byte) : (s.log c d).cam = s.cam := log_keeps s c d (·.cam) fun _ _ _ => rfl
@[simp] theorem log_intg (s : State) (c : Nat) (d : List Byte) : (s.log c d).intg = s.intg := log_keeps s c d (·.intg) fun _ _ _ => rfl
@[simp] theorem log_records (s : State) (c : Nat) (d : List Byte) : (s.log c d).records = s.records := log_keeps s c d (·.records) fun _ _ _ => rfl
@[simp] theorem log_generation (s : State) (c : Nat) (d : List Byte) : (s.log c d).generation = s.generation := log_keeps s c d (·.generation) fun _ _ _ => rfl
@[simp] theorem log_procs (s : State) (c : Nat) (d : List Byte) : (s.log c d).procs = s.procs := log_keeps s c d (·.procs) fun _ _ _ => rfl
@[simp] theorem log_time (s : State) (c : Nat) (d : List Byte) : (s.log c d).time = s.time := log_keeps s c d (·.time) fun _ _ _ => rfl
@[simp] theorem log_estP (s : State) (c : Nat) (d : List Byte) : (s.log c d).estP = s.estP := log_keeps s c d (·.estP) fun _ _ _ => rfl
@[simp] theorem log_estI (s : State) (c : Nat) (d : List Byte) : (s.log c d).estI = s.estI := log_keeps s c d (·.estI) fun _ _ _ => rfl
@[simp] theorem log_roleInEffect (s : State) (c : Nat) (d : List Byte) : (s.log c d).roleInEffect = s.roleInEffect := log_keeps s c d (·.roleInEffect) fun _ _ _ => rfl
@[simp] theorem log_hw (s : State) (c : Nat) (d : List Byte) : (s.log c d).hw = s.hw := log_keeps s c d (·.hw) fun _ _ _ => rfl
@[simp] theorem log_out (s : State) (c : Nat) (d : List Byte) : (s.log c d).out = s.out := log_keeps s c d (·.out) fun _ _ _ => rfl
@[simp] theorem log_pending (s : State) (c : Nat) (d : List Byte) : (s.log c d).pending = s.pending := log_keeps s c d (·.pending) fun _ _ _ => rfl
@[simp] theorem log_dieAt (s : State) (c : Nat) (d : List Byte) (k : Nat) : (s.log c d).dieAt k = s.dieAt k := by simp [dieAt]
@[simp] theorem log_sdB (s : State) (c : Nat) (d : List Byte) (k : Nat) : (s.log c d).sdB k = s.sdB k := by simp [sdB]
@[simp] theorem log_sdC (s : State) (c : Nat) (d : List Byte) (k : Nat) : (s.log c d).sdC k = s.sdC k := by simp [sdC]
@[simp] theorem log_lsC (s : State) (c : Nat) (d : List Byte) (k : Nat) : (s.log c d).lsC k = s.lsC k := by simp [lsC]
@[simp] theorem log_lsG (s : State) (c : Nat) (d : List Byte) (k : Nat) : (s.log c d).lsG k = s.lsG k := by simp [lsG]
@[simp] theorem log_loopAt (s : State) (c : Nat) (d : List Byte) (k : Nat) : (s.log c d).loopAt k = s.loopAt k := by simp [loopAt]

/-! elapse changes now, time alone. -/

/-- What does not read now, time reads as before. -/
theorem elapse_keeps {β : Type} (s : State) (d : Nat) (p : State → β) (hp : ∀ x y, p { s with now := x, time := y } = p s) :
    p (s.elapse d) = p s :=
  (elapse_only s d).elim fun x ⟨y, h⟩ => h ▸ hp x y

@[simp] theorem elapse_freeCtr (s : State) (d : Nat) : (s.elapse d).freeCtr = s.freeCtr := elapse_keeps s d (·.freeCtr) fun _ _ => rfl
@[simp] theorem elapse_regs (s : State) (d : Nat) : (s.elapse d).regs = s.regs := elapse_keeps s d (·.regs) fun _ _ => rfl
@[simp] theorem elapse_objs (s : State) (d : Nat) : (s.elapse d).objs = s.objs := elapse_keeps s d (·.objs) fun _ _ => rfl
@[simp] theorem elapse_oem (s : State) (d : Nat) : (s.elapse d).oem = s.oem := elapse_keeps s d (·.oem) fun _ _ => rfl
@[simp] theorem elapse_gov (s : State) (d : Nat) : (s.elapse d).gov = s.gov := elapse_keeps s d (·.gov) fun _ _ => rfl
@[simp] theorem elapse_par (s : State) (d : Nat) : (s.elapse d).par = s.par := elapse_keeps s d (·.par) fun _ _ => rfl
@[simp] theorem elapse_gate (s : State) (d : Nat) : (s.elapse d).gate = s.gate := elapse_keeps s d (·.gate) fun _ _ => rfl
@[simp] theorem elapse_remote (s : State) (d : Nat) : (s.elapse d).remote = s.remote := elapse_keeps s d (·.remote) fun _ _ => rfl
@[simp] theorem elapse_steer (s : State) (d : Nat) : (s.elapse d).steer = s.steer := elapse_keeps s d (·.steer) fun _ _ => rfl
@[simp] theorem elapse_fab (s : State) (d : Nat) : (s.elapse d).fab = s.fab := elapse_keeps s d (·.fab) fun _ _ => rfl
@[simp] theorem elapse_chim (s : State) (d : Nat) : (s.elapse d).chim = s.chim := elapse_keeps s d (·.chim) fun _ _ => rfl
@[simp] theorem elapse_can (s : State) (d : Nat) : (s.elapse d).can = s.can := elapse_keeps s d (·.can) fun _ _ => rfl
@[simp] theorem elapse_cv (s : State) (d : Nat) : (s.elapse d).cv = s.cv := elapse_keeps s d (·.cv) fun _ _ => rfl
@[simp] theorem elapse_panel (s : State) (d : Nat) : (s.elapse d).panel = s.panel := elapse_keeps s d (·.panel) fun _ _ => rfl
@[simp] theorem elapse_th (s : State) (d : Nat) : (s.elapse d).th = s.th := elapse_keeps s d (·.th) fun _ _ => rfl
@[simp] theorem elapse_kp (s : State) (d : Nat) : (s.elapse d).kp = s.kp := elapse_keeps s d (·.kp) fun _ _ => rfl
@[simp] theorem elapse_pwr (s : State) (d : Nat) : (s.elapse d).pwr = s.pwr := elapse_keeps s d (·.pwr) fun _ _ => rfl
@[simp] theorem elapse_ps (s : State) (d : Nat) : (s.elapse d).ps = s.ps := elapse_keeps s d (·.ps) fun _ _ => rfl
@[simp] theorem elapse_dict (s : State) (d : Nat) : (s.elapse d).dict = s.dict := elapse_keeps s d (·.dict) fun _ _ => rfl
@[simp] theorem elapse_sec (s : State) (d : Nat) : (s.elapse d).sec = s.sec := elapse_keeps s d (·.sec) fun _ _ => rfl
@[simp] theorem elapse_upd (s : State) (d : Nat) : (s.elapse d).upd = s.upd := elapse_keeps s d (·.upd) fun _ _ => rfl
@[simp] theorem elapse_changes (s : State) (d : Nat) : (s.elapse d).changes = s.changes := elapse_keeps s d (·.changes) fun _ _ => rfl
@[simp] theorem elapse_mem (s : State) (d : Nat) : (s.elapse d).mem = s.mem := elapse_keeps s d (·.mem) fun _ _ => rfl
@[simp] theorem elapse_trellis (s : State) (d : Nat) : (s.elapse d).trellis = s.trellis := elapse_keeps s d (·.trellis) fun _ _ => rfl
@[simp] theorem elapse_delivery (s : State) (d : Nat) : (s.elapse d).delivery = s.delivery := elapse_keeps s d (·.delivery) fun _ _ => rfl
@[simp] theorem elapse_ev (s : State) (d : Nat) : (s.elapse d).ev = s.ev := elapse_keeps s d (·.ev) fun _ _ => rfl
@[simp] theorem elapse_sens (s : State) (d : Nat) : (s.elapse d).sens = s.sens := elapse_keeps s d (·.sens) fun _ _ => rfl
@[simp] theorem elapse_pwrStatus (s : State) (d : Nat) : (s.elapse d).pwrStatus = s.pwrStatus := elapse_keeps s d (·.pwrStatus) fun _ _ => rfl
@[simp] theorem elapse_stage (s : State) (d : Nat) : (s.elapse d).stage = s.stage := elapse_keeps s d (·.stage) fun _ _ => rfl
@[simp] theorem elapse_ce (s : State) (d : Nat) : (s.elapse d).ce = s.ce := elapse_keeps s d (·.ce) fun _ _ => rfl
@[simp] theorem elapse_stop (s : State) (d : Nat) : (s.elapse d).stop = s.stop := elapse_keeps s d (·.stop) fun _ _ => rfl
@[simp] theorem elapse_gh (s : State) (d : Nat) : (s.elapse d).gh = s.gh := elapse_keeps s d (·.gh) fun _ _ => rfl
@[simp] theorem elapse_clk (s : State) (d : Nat) : (s.elapse d).clk = s.clk := elapse_keeps s d (·.clk) fun _ _ => rfl
@[simp] theorem elapse_sram (s : State) (d : Nat) : (s.elapse d).sram = s.sram := elapse_keeps s d (·.sram) fun _ _ => rfl
@[simp] theorem elapse_dram (s : State) (d : Nat) : (s.elapse d).dram = s.dram := elapse_keeps s d (·.dram) fun _ _ => rfl
@[simp] theorem elapse_flash (s : State) (d : Nat) : (s.elapse d).flash = s.flash := elapse_keeps s d (·.flash) fun _ _ => rfl
@[simp] theorem elapse_gn (s : State) (d : Nat) : (s.elapse d).gn = s.gn := elapse_keeps s d (·.gn) fun _ _ => rfl
@[simp] theorem elapse_fu (s : State) (d : Nat) : (s.elapse d).fu = s.fu := elapse_keeps s d (·.fu) fun _ _ => rfl
@[simp] theorem elapse_cam (s : State) (d : Nat) : (s.elapse d).cam = s.cam := elapse_keeps s d (·.cam) fun _ _ => rfl
@[simp] theorem elapse_intg (s : State) (d : Nat) : (s.elapse d).intg = s.intg := elapse_keeps s d (·.intg) fun _ _ => rfl
@[simp] theorem elapse_records (s : State) (d : Nat) : (s.elapse d).records = s.records := elapse_keeps s d (·.records) fun _ _ => rfl
@[simp] theorem elapse_generation (s : State) (d : Nat) : (s.elapse d).generation = s.generation := elapse_keeps s d (·.generation) fun _ _ => rfl
@[simp] theorem elapse_procs (s : State) (d : Nat) : (s.elapse d).procs = s.procs := elapse_keeps s d (·.procs) fun _ _ => rfl
@[simp] theorem elapse_estP (s : State) (d : Nat) : (s.elapse d).estP = s.estP := elapse_keeps s d (·.estP) fun _ _ => rfl
@[simp] theorem elapse_estI (s : State) (d : Nat) : (s.elapse d).estI = s.estI := elapse_keeps s d (·.estI) fun _ _ => rfl
@[simp] theorem elapse_roleInEffect (s : State) (d : Nat) : (s.elapse d).roleInEffect = s.roleInEffect := elapse_keeps s d (·.roleInEffect) fun _ _ => rfl
@[simp] theorem elapse_hw (s : State) (d : Nat) : (s.elapse d).hw = s.hw := elapse_keeps s d (·.hw) fun _ _ => rfl
@[simp] theorem elapse_out (s : State) (d : Nat) : (s.elapse d).out = s.out := elapse_keeps s d (·.out) fun _ _ => rfl
@[simp] theorem elapse_pending (s : State) (d : Nat) : (s.elapse d).pending = s.pending := elapse_keeps s d (·.pending) fun _ _ => rfl
@[simp] theorem elapse_rd (s : State) (d : Nat) (r : Nat) : (s.elapse d).rd r = s.rd r := by simp [rd]
@[simp] theorem elapse_get (s : State) (d : Nat) (g : Fld) : (s.elapse d).get g = s.get g := by simp [get]
@[simp] theorem elapse_flag (s : State) (d : Nat) (g : Fld) : (s.elapse d).flag g = s.flag g := by simp [flag]
@[simp] theorem elapse_dieAt (s : State) (d : Nat) (k : Nat) : (s.elapse d).dieAt k = s.dieAt k := by simp [dieAt]
@[simp] theorem elapse_sdB (s : State) (d : Nat) (k : Nat) : (s.elapse d).sdB k = s.sdB k := by simp [sdB]
@[simp] theorem elapse_sdC (s : State) (d : Nat) (k : Nat) : (s.elapse d).sdC k = s.sdC k := by simp [sdC]
@[simp] theorem elapse_lsC (s : State) (d : Nat) (k : Nat) : (s.elapse d).lsC k = s.lsC k := by simp [lsC]
@[simp] theorem elapse_lsG (s : State) (d : Nat) (k : Nat) : (s.elapse d).lsG k = s.lsG k := by simp [lsG]
@[simp] theorem elapse_loopAt (s : State) (d : Nat) (k : Nat) : (s.elapse d).loopAt k = s.loopAt k := by simp [loopAt]

/-! passTo changes now, time alone. -/

/-- What does not read now, time reads as before. -/
theorem passTo_keeps {β : Type} (s : State) (t : Nat) (p : State → β) (hp : ∀ x y, p { s with now := x, time := y } = p s) :
    p (s.passTo t) = p s :=
  (passTo_only s t).elim fun x ⟨y, h⟩ => h ▸ hp x y

@[simp] theorem passTo_freeCtr (s : State) (t : Nat) : (s.passTo t).freeCtr = s.freeCtr := passTo_keeps s t (·.freeCtr) fun _ _ => rfl
@[simp] theorem passTo_regs (s : State) (t : Nat) : (s.passTo t).regs = s.regs := passTo_keeps s t (·.regs) fun _ _ => rfl
@[simp] theorem passTo_objs (s : State) (t : Nat) : (s.passTo t).objs = s.objs := passTo_keeps s t (·.objs) fun _ _ => rfl
@[simp] theorem passTo_oem (s : State) (t : Nat) : (s.passTo t).oem = s.oem := passTo_keeps s t (·.oem) fun _ _ => rfl
@[simp] theorem passTo_gov (s : State) (t : Nat) : (s.passTo t).gov = s.gov := passTo_keeps s t (·.gov) fun _ _ => rfl
@[simp] theorem passTo_par (s : State) (t : Nat) : (s.passTo t).par = s.par := passTo_keeps s t (·.par) fun _ _ => rfl
@[simp] theorem passTo_gate (s : State) (t : Nat) : (s.passTo t).gate = s.gate := passTo_keeps s t (·.gate) fun _ _ => rfl
@[simp] theorem passTo_remote (s : State) (t : Nat) : (s.passTo t).remote = s.remote := passTo_keeps s t (·.remote) fun _ _ => rfl
@[simp] theorem passTo_steer (s : State) (t : Nat) : (s.passTo t).steer = s.steer := passTo_keeps s t (·.steer) fun _ _ => rfl
@[simp] theorem passTo_fab (s : State) (t : Nat) : (s.passTo t).fab = s.fab := passTo_keeps s t (·.fab) fun _ _ => rfl
@[simp] theorem passTo_chim (s : State) (t : Nat) : (s.passTo t).chim = s.chim := passTo_keeps s t (·.chim) fun _ _ => rfl
@[simp] theorem passTo_can (s : State) (t : Nat) : (s.passTo t).can = s.can := passTo_keeps s t (·.can) fun _ _ => rfl
@[simp] theorem passTo_cv (s : State) (t : Nat) : (s.passTo t).cv = s.cv := passTo_keeps s t (·.cv) fun _ _ => rfl
@[simp] theorem passTo_panel (s : State) (t : Nat) : (s.passTo t).panel = s.panel := passTo_keeps s t (·.panel) fun _ _ => rfl
@[simp] theorem passTo_th (s : State) (t : Nat) : (s.passTo t).th = s.th := passTo_keeps s t (·.th) fun _ _ => rfl
@[simp] theorem passTo_kp (s : State) (t : Nat) : (s.passTo t).kp = s.kp := passTo_keeps s t (·.kp) fun _ _ => rfl
@[simp] theorem passTo_pwr (s : State) (t : Nat) : (s.passTo t).pwr = s.pwr := passTo_keeps s t (·.pwr) fun _ _ => rfl
@[simp] theorem passTo_ps (s : State) (t : Nat) : (s.passTo t).ps = s.ps := passTo_keeps s t (·.ps) fun _ _ => rfl
@[simp] theorem passTo_dict (s : State) (t : Nat) : (s.passTo t).dict = s.dict := passTo_keeps s t (·.dict) fun _ _ => rfl
@[simp] theorem passTo_sec (s : State) (t : Nat) : (s.passTo t).sec = s.sec := passTo_keeps s t (·.sec) fun _ _ => rfl
@[simp] theorem passTo_upd (s : State) (t : Nat) : (s.passTo t).upd = s.upd := passTo_keeps s t (·.upd) fun _ _ => rfl
@[simp] theorem passTo_changes (s : State) (t : Nat) : (s.passTo t).changes = s.changes := passTo_keeps s t (·.changes) fun _ _ => rfl
@[simp] theorem passTo_mem (s : State) (t : Nat) : (s.passTo t).mem = s.mem := passTo_keeps s t (·.mem) fun _ _ => rfl
@[simp] theorem passTo_trellis (s : State) (t : Nat) : (s.passTo t).trellis = s.trellis := passTo_keeps s t (·.trellis) fun _ _ => rfl
@[simp] theorem passTo_delivery (s : State) (t : Nat) : (s.passTo t).delivery = s.delivery := passTo_keeps s t (·.delivery) fun _ _ => rfl
@[simp] theorem passTo_ev (s : State) (t : Nat) : (s.passTo t).ev = s.ev := passTo_keeps s t (·.ev) fun _ _ => rfl
@[simp] theorem passTo_sens (s : State) (t : Nat) : (s.passTo t).sens = s.sens := passTo_keeps s t (·.sens) fun _ _ => rfl
@[simp] theorem passTo_pwrStatus (s : State) (t : Nat) : (s.passTo t).pwrStatus = s.pwrStatus := passTo_keeps s t (·.pwrStatus) fun _ _ => rfl
@[simp] theorem passTo_stage (s : State) (t : Nat) : (s.passTo t).stage = s.stage := passTo_keeps s t (·.stage) fun _ _ => rfl
@[simp] theorem passTo_ce (s : State) (t : Nat) : (s.passTo t).ce = s.ce := passTo_keeps s t (·.ce) fun _ _ => rfl
@[simp] theorem passTo_stop (s : State) (t : Nat) : (s.passTo t).stop = s.stop := passTo_keeps s t (·.stop) fun _ _ => rfl
@[simp] theorem passTo_gh (s : State) (t : Nat) : (s.passTo t).gh = s.gh := passTo_keeps s t (·.gh) fun _ _ => rfl
@[simp] theorem passTo_clk (s : State) (t : Nat) : (s.passTo t).clk = s.clk := passTo_keeps s t (·.clk) fun _ _ => rfl
@[simp] theorem passTo_sram (s : State) (t : Nat) : (s.passTo t).sram = s.sram := passTo_keeps s t (·.sram) fun _ _ => rfl
@[simp] theorem passTo_dram (s : State) (t : Nat) : (s.passTo t).dram = s.dram := passTo_keeps s t (·.dram) fun _ _ => rfl
@[simp] theorem passTo_flash (s : State) (t : Nat) : (s.passTo t).flash = s.flash := passTo_keeps s t (·.flash) fun _ _ => rfl
@[simp] theorem passTo_gn (s : State) (t : Nat) : (s.passTo t).gn = s.gn := passTo_keeps s t (·.gn) fun _ _ => rfl
@[simp] theorem passTo_fu (s : State) (t : Nat) : (s.passTo t).fu = s.fu := passTo_keeps s t (·.fu) fun _ _ => rfl
@[simp] theorem passTo_cam (s : State) (t : Nat) : (s.passTo t).cam = s.cam := passTo_keeps s t (·.cam) fun _ _ => rfl
@[simp] theorem passTo_intg (s : State) (t : Nat) : (s.passTo t).intg = s.intg := passTo_keeps s t (·.intg) fun _ _ => rfl
@[simp] theorem passTo_records (s : State) (t : Nat) : (s.passTo t).records = s.records := passTo_keeps s t (·.records) fun _ _ => rfl
@[simp] theorem passTo_generation (s : State) (t : Nat) : (s.passTo t).generation = s.generation := passTo_keeps s t (·.generation) fun _ _ => rfl
@[simp] theorem passTo_procs (s : State) (t : Nat) : (s.passTo t).procs = s.procs := passTo_keeps s t (·.procs) fun _ _ => rfl
@[simp] theorem passTo_estP (s : State) (t : Nat) : (s.passTo t).estP = s.estP := passTo_keeps s t (·.estP) fun _ _ => rfl
@[simp] theorem passTo_estI (s : State) (t : Nat) : (s.passTo t).estI = s.estI := passTo_keeps s t (·.estI) fun _ _ => rfl
@[simp] theorem passTo_roleInEffect (s : State) (t : Nat) : (s.passTo t).roleInEffect = s.roleInEffect := passTo_keeps s t (·.roleInEffect) fun _ _ => rfl
@[simp] theorem passTo_hw (s : State) (t : Nat) : (s.passTo t).hw = s.hw := passTo_keeps s t (·.hw) fun _ _ => rfl
@[simp] theorem passTo_out (s : State) (t : Nat) : (s.passTo t).out = s.out := passTo_keeps s t (·.out) fun _ _ => rfl
@[simp] theorem passTo_pending (s : State) (t : Nat) : (s.passTo t).pending = s.pending := passTo_keeps s t (·.pending) fun _ _ => rfl
@[simp] theorem passTo_rd (s : State) (t : Nat) (r : Nat) : (s.passTo t).rd r = s.rd r := by simp [rd]
@[simp] theorem passTo_get (s : State) (t : Nat) (g : Fld) : (s.passTo t).get g = s.get g := by simp [get]
@[simp] theorem passTo_flag (s : State) (t : Nat) (g : Fld) : (s.passTo t).flag g = s.flag g := by simp [flag]
@[simp] theorem passTo_dieAt (s : State) (t : Nat) (k : Nat) : (s.passTo t).dieAt k = s.dieAt k := by simp [dieAt]
@[simp] theorem passTo_sdB (s : State) (t : Nat) (k : Nat) : (s.passTo t).sdB k = s.sdB k := by simp [sdB]
@[simp] theorem passTo_sdC (s : State) (t : Nat) (k : Nat) : (s.passTo t).sdC k = s.sdC k := by simp [sdC]
@[simp] theorem passTo_lsC (s : State) (t : Nat) (k : Nat) : (s.passTo t).lsC k = s.lsC k := by simp [lsC]
@[simp] theorem passTo_lsG (s : State) (t : Nat) (k : Nat) : (s.passTo t).lsG k = s.lsG k := by simp [lsG]
@[simp] theorem passTo_loopAt (s : State) (t : Nat) (k : Nat) : (s.passTo t).loopAt k = s.loopAt k := by simp [loopAt]

/-! devTo changes now, time alone. -/

/-- What does not read now, time reads as before. -/
theorem devTo_keeps {β : Type} (s : State) (t : Time) (p : State → β) (hp : ∀ x y, p { s with now := x, time := y } = p s) :
    p (s.devTo t) = p s :=
  (devTo_only s t).elim fun x ⟨y, h⟩ => h ▸ hp x y

@[simp] theorem devTo_freeCtr (s : State) (t : Time) : (s.devTo t).freeCtr = s.freeCtr := devTo_keeps s t (·.freeCtr) fun _ _ => rfl
@[simp] theorem devTo_regs (s : State) (t : Time) : (s.devTo t).regs = s.regs := devTo_keeps s t (·.regs) fun _ _ => rfl
@[simp] theorem devTo_objs (s : State) (t : Time) : (s.devTo t).objs = s.objs := devTo_keeps s t (·.objs) fun _ _ => rfl
@[simp] theorem devTo_oem (s : State) (t : Time) : (s.devTo t).oem = s.oem := devTo_keeps s t (·.oem) fun _ _ => rfl
@[simp] theorem devTo_gov (s : State) (t : Time) : (s.devTo t).gov = s.gov := devTo_keeps s t (·.gov) fun _ _ => rfl
@[simp] theorem devTo_par (s : State) (t : Time) : (s.devTo t).par = s.par := devTo_keeps s t (·.par) fun _ _ => rfl
@[simp] theorem devTo_gate (s : State) (t : Time) : (s.devTo t).gate = s.gate := devTo_keeps s t (·.gate) fun _ _ => rfl
@[simp] theorem devTo_remote (s : State) (t : Time) : (s.devTo t).remote = s.remote := devTo_keeps s t (·.remote) fun _ _ => rfl
@[simp] theorem devTo_steer (s : State) (t : Time) : (s.devTo t).steer = s.steer := devTo_keeps s t (·.steer) fun _ _ => rfl
@[simp] theorem devTo_fab (s : State) (t : Time) : (s.devTo t).fab = s.fab := devTo_keeps s t (·.fab) fun _ _ => rfl
@[simp] theorem devTo_chim (s : State) (t : Time) : (s.devTo t).chim = s.chim := devTo_keeps s t (·.chim) fun _ _ => rfl
@[simp] theorem devTo_can (s : State) (t : Time) : (s.devTo t).can = s.can := devTo_keeps s t (·.can) fun _ _ => rfl
@[simp] theorem devTo_cv (s : State) (t : Time) : (s.devTo t).cv = s.cv := devTo_keeps s t (·.cv) fun _ _ => rfl
@[simp] theorem devTo_panel (s : State) (t : Time) : (s.devTo t).panel = s.panel := devTo_keeps s t (·.panel) fun _ _ => rfl
@[simp] theorem devTo_th (s : State) (t : Time) : (s.devTo t).th = s.th := devTo_keeps s t (·.th) fun _ _ => rfl
@[simp] theorem devTo_kp (s : State) (t : Time) : (s.devTo t).kp = s.kp := devTo_keeps s t (·.kp) fun _ _ => rfl
@[simp] theorem devTo_pwr (s : State) (t : Time) : (s.devTo t).pwr = s.pwr := devTo_keeps s t (·.pwr) fun _ _ => rfl
@[simp] theorem devTo_ps (s : State) (t : Time) : (s.devTo t).ps = s.ps := devTo_keeps s t (·.ps) fun _ _ => rfl
@[simp] theorem devTo_dict (s : State) (t : Time) : (s.devTo t).dict = s.dict := devTo_keeps s t (·.dict) fun _ _ => rfl
@[simp] theorem devTo_sec (s : State) (t : Time) : (s.devTo t).sec = s.sec := devTo_keeps s t (·.sec) fun _ _ => rfl
@[simp] theorem devTo_upd (s : State) (t : Time) : (s.devTo t).upd = s.upd := devTo_keeps s t (·.upd) fun _ _ => rfl
@[simp] theorem devTo_changes (s : State) (t : Time) : (s.devTo t).changes = s.changes := devTo_keeps s t (·.changes) fun _ _ => rfl
@[simp] theorem devTo_mem (s : State) (t : Time) : (s.devTo t).mem = s.mem := devTo_keeps s t (·.mem) fun _ _ => rfl
@[simp] theorem devTo_trellis (s : State) (t : Time) : (s.devTo t).trellis = s.trellis := devTo_keeps s t (·.trellis) fun _ _ => rfl
@[simp] theorem devTo_delivery (s : State) (t : Time) : (s.devTo t).delivery = s.delivery := devTo_keeps s t (·.delivery) fun _ _ => rfl
@[simp] theorem devTo_ev (s : State) (t : Time) : (s.devTo t).ev = s.ev := devTo_keeps s t (·.ev) fun _ _ => rfl
@[simp] theorem devTo_sens (s : State) (t : Time) : (s.devTo t).sens = s.sens := devTo_keeps s t (·.sens) fun _ _ => rfl
@[simp] theorem devTo_pwrStatus (s : State) (t : Time) : (s.devTo t).pwrStatus = s.pwrStatus := devTo_keeps s t (·.pwrStatus) fun _ _ => rfl
@[simp] theorem devTo_stage (s : State) (t : Time) : (s.devTo t).stage = s.stage := devTo_keeps s t (·.stage) fun _ _ => rfl
@[simp] theorem devTo_ce (s : State) (t : Time) : (s.devTo t).ce = s.ce := devTo_keeps s t (·.ce) fun _ _ => rfl
@[simp] theorem devTo_stop (s : State) (t : Time) : (s.devTo t).stop = s.stop := devTo_keeps s t (·.stop) fun _ _ => rfl
@[simp] theorem devTo_gh (s : State) (t : Time) : (s.devTo t).gh = s.gh := devTo_keeps s t (·.gh) fun _ _ => rfl
@[simp] theorem devTo_clk (s : State) (t : Time) : (s.devTo t).clk = s.clk := devTo_keeps s t (·.clk) fun _ _ => rfl
@[simp] theorem devTo_sram (s : State) (t : Time) : (s.devTo t).sram = s.sram := devTo_keeps s t (·.sram) fun _ _ => rfl
@[simp] theorem devTo_dram (s : State) (t : Time) : (s.devTo t).dram = s.dram := devTo_keeps s t (·.dram) fun _ _ => rfl
@[simp] theorem devTo_flash (s : State) (t : Time) : (s.devTo t).flash = s.flash := devTo_keeps s t (·.flash) fun _ _ => rfl
@[simp] theorem devTo_gn (s : State) (t : Time) : (s.devTo t).gn = s.gn := devTo_keeps s t (·.gn) fun _ _ => rfl
@[simp] theorem devTo_fu (s : State) (t : Time) : (s.devTo t).fu = s.fu := devTo_keeps s t (·.fu) fun _ _ => rfl
@[simp] theorem devTo_cam (s : State) (t : Time) : (s.devTo t).cam = s.cam := devTo_keeps s t (·.cam) fun _ _ => rfl
@[simp] theorem devTo_intg (s : State) (t : Time) : (s.devTo t).intg = s.intg := devTo_keeps s t (·.intg) fun _ _ => rfl
@[simp] theorem devTo_records (s : State) (t : Time) : (s.devTo t).records = s.records := devTo_keeps s t (·.records) fun _ _ => rfl
@[simp] theorem devTo_generation (s : State) (t : Time) : (s.devTo t).generation = s.generation := devTo_keeps s t (·.generation) fun _ _ => rfl
@[simp] theorem devTo_procs (s : State) (t : Time) : (s.devTo t).procs = s.procs := devTo_keeps s t (·.procs) fun _ _ => rfl
@[simp] theorem devTo_estP (s : State) (t : Time) : (s.devTo t).estP = s.estP := devTo_keeps s t (·.estP) fun _ _ => rfl
@[simp] theorem devTo_estI (s : State) (t : Time) : (s.devTo t).estI = s.estI := devTo_keeps s t (·.estI) fun _ _ => rfl
@[simp] theorem devTo_roleInEffect (s : State) (t : Time) : (s.devTo t).roleInEffect = s.roleInEffect := devTo_keeps s t (·.roleInEffect) fun _ _ => rfl
@[simp] theorem devTo_hw (s : State) (t : Time) : (s.devTo t).hw = s.hw := devTo_keeps s t (·.hw) fun _ _ => rfl
@[simp] theorem devTo_out (s : State) (t : Time) : (s.devTo t).out = s.out := devTo_keeps s t (·.out) fun _ _ => rfl
@[simp] theorem devTo_pending (s : State) (t : Time) : (s.devTo t).pending = s.pending := devTo_keeps s t (·.pending) fun _ _ => rfl
@[simp] theorem devTo_rd (s : State) (t : Time) (r : Nat) : (s.devTo t).rd r = s.rd r := by simp [rd]
@[simp] theorem devTo_get (s : State) (t : Time) (g : Fld) : (s.devTo t).get g = s.get g := by simp [get]
@[simp] theorem devTo_flag (s : State) (t : Time) (g : Fld) : (s.devTo t).flag g = s.flag g := by simp [flag]
@[simp] theorem devTo_dieAt (s : State) (t : Time) (k : Nat) : (s.devTo t).dieAt k = s.dieAt k := by simp [dieAt]
@[simp] theorem devTo_sdB (s : State) (t : Time) (k : Nat) : (s.devTo t).sdB k = s.sdB k := by simp [sdB]
@[simp] theorem devTo_sdC (s : State) (t : Time) (k : Nat) : (s.devTo t).sdC k = s.sdC k := by simp [sdC]
@[simp] theorem devTo_lsC (s : State) (t : Time) (k : Nat) : (s.devTo t).lsC k = s.lsC k := by simp [lsC]
@[simp] theorem devTo_lsG (s : State) (t : Time) (k : Nat) : (s.devTo t).lsG k = s.lsG k := by simp [lsG]
@[simp] theorem devTo_loopAt (s : State) (t : Time) (k : Nat) : (s.devTo t).loopAt k = s.loopAt k := by simp [loopAt]

end State
end Sys2Proof.Machine
end

