-- ==== Sys2Proof/WellFormed.lean ====
section
/-!
DEFINITION. Which commands the module can be given: numbers within the units the module has, sizes and lengths the rules name.
A command that is not well-formed names nothing of the module; its meaning changes nothing or answers a status.
-/
namespace Sys2Proof

/-- The command's operands name units and values that exist; commands with one condition stand together. -/
def Instr.wf : Instr → Bool
  | .registerWrite _ addr size _ => decide (size = 1 ∨ size = 2 ∨ size = 4) && decide (addr < 4294967296)
  | .counterClear addr => decide (addr < 4294967296)
  | .openEntry entry => decide (entry < 1024)
  | .trellisEntryWrite entry bytes => decide (entry < 1024) && decide (bytes.length = 20)
  | .commitRequest | .cancel | .prepare _ | .go | .epochBoundaryCommit | .stopFrameRepeat | .softwareStop _
  | .stopRemoteExpiry | .stopRelease | .rearm | .stopDiscrepancy | .frameBoundary | .ceEnable | .ceDisable
  | .reclaim | .reclaimFrame _ | .imuSample _ _ _ _ _ _ _ _ | .slotConfigApply | .fusionJobStart
  | .fusionJobComplete | .antennaShort _ | .antennaRetry _ | .antennaOpen _ | .antennaClear | .acqGo _
  | .dumpInterrupt | .measLatch | .navMessage _ _ _ _ _ _ _ _ | .positionFix _ _ _ _ _ _ _ _ _ _ | .rtcmFrame _ _
  | .correctionsOld | .timeLocked | .timeHoldover | .timeFreerun | .timeWrite _ | .tpiEdge _ | .slewWrite _
  | .stepArm | .stepCancel | .stepPending | .timeStepExecute | .governorTick | .governorWindowEnd | .taskClose
  | .recordingStart | .exportEnd _ | .tileShare _ _ | .remoteTileMerge _ | .gatehouseTick
  | .ghCommandSubmit _ _ _ | .ghCommandExecute | .ghFlush | .ghDisable | .steeringTick | .lineGeometryWrite _
  | .steeringWatch | .bindingRelease | .ringchkFlood _ | .ringHeal _ _ _ _ _ | .streamReceive _ _ _ _ _ _
  | .setptFlood | .setptReceive _ _ _ _ | .nodeHoldExpiry | .gptpSync _ _ _ | .syncLoss | .mirrorSend
  | .heartbeatSend | .startWaitEnd | .takeover | .epochReset _ | .epochrstReceive _ _ _ _ | .ackRetransmit _
  | .chimneyConnect _ _ | .chimneyReconnect | .chimneyAck _ | .chimneyInbound _ _ _ _ | .defaults _
  | .dmaSubmit _ | .dmaStart | .scrubRead _ _ | .clearRetirementList | .storageSubmit _ _ | .flashLifetimeCheck _
  | .monitorWindow _ _ _ _ _ | .lowSupplyEntry _ | .lowSupplyExit _ | .powerFailWarning _ _ | .warningClear _
  | .logicOvervoltage _ | .holdupExhausted | .groundOffset _ | .groundOffsetClear _ | .ignFall | .shutdownTimeEnd
  | .pinReset _ _ | .applicationStart | .clockLossRetry _ | .slotClaim | .eventRecordWrite | .eventSpill
  | .damperStep2 | .thermalShutdownAct | .panelRowEnd | .railRise | .railFall | .thermistorRead _
  | .thermistorFallback | .panelReplay | .railFault _ _ | .panelRestart | .completionPop | .challengeRead
  | .debugClose | .debugExpiry | .relayActivationStep _ | .activationTimeout | .logicOvervoltageEnd _ | .slewEnd
  | .startPermitted _ _ | .chimneyDisconnect _ => true
  | .ringConfigWrite ring bytes => decide (ring < 256) && decide (bytes.length = 16)
  | .stopInputChange k _ | .stopBandTimeout k _ | .loadDumpEntry k _ | .loadDumpEnd k _ | .tpoPulse k
  | .opSequenceEnd k => decide (k < 2)
  | .stopFrameReceive port _ _ | .helloReceive port _ _ _ _ _ _ _ _ _ _ _ | .assignReceive port _ _ _ _ _ _ _ _
  | .flueFrameForward port _ _ _ => decide (port < 6)
  | .loopRun n | .loopStop n | .loopApply n | .loopTripclr n => decide (n < 64)
  | .statusFrameReceive d _ _ _ | .stageLinkLoss d | .stageLinkReturn d | .stageHoldEntry d | .powerGroundLoss d
  | .logicGroundLoss d | .powerGroundReturn d | .logicGroundReturn d => decide (d < 5)
  | .sdOnCommand n | .sdOffCommand n | .sdModeWrite n _ | .peakReached n _ _ _ | .tpkMaxExpiry n _
  | .peakDwellEnd n | .decayEnd n | .pullinWaitLate n | .sdPwmCycleStart n | .sdPwmOnEnd n | .sdOverCurrent n _
  | .sdOpenLoad n _ | .sdFclr n | .aiSample n _ | .aiConfigWrite n _ | .aiLatchedFault n | .aiFclr n => decide (n < 48)
  | .pullinGrant b | .sdClampEventEnd b _ | .sdBucketLeak b | .bankUnlock b | .bankSwitchClear b _ | .bankArm b
  | .bankDisarm b | .bankSwitchLimit b _ | .bankSwitchTrip b _ | .bankHoldExpiry b | .bankFailOffDisarm b => decide (b < 12)
  | .sdDieReset d => decide (d < 3)
  | .lsSwitchOn n | .lsSwitchOff n | .lsModeWrite n _ | .lsPwmCycleStart n | .lsPwmOnEnd n | .inrushWindowEnd n
  | .lsLimit n _ _ | .lsThermalShutdown n _ _ | .lsAutoRestart n _ _ | .lsRestartCountReset n | .lsFclr n
  | .lsClampEventEnd n _ | .lsBucketLeak n | .lsUnlock n | .openLoadOn n | .openLoadOff n | .shortToBattery n => decide (n < 32)
  | .groupArm g | .groupDisarm g | .groupHoldExpiry g => decide (g < 8)
  | .lsDeferralEntry k _ | .lsDeferralEnd k _ => decide (2 ≤ k ∧ k ≤ 3)
  | .lsDieReset d => decide (3 ≤ d ∧ d ≤ 4)
  | .supplyFault k _ _ | .supplyClear k | .bankInputUndervoltage k _ => decide (k < 4)
  | .pulseEdge n _ _ _ | .pulsePublication n | .piCountClear n => decide (n < 24)
  | .bridgeConversion b _ _ _ _ _ | .bridgeSenseOpen b | .bridgeSenseRestore b => decide (b < 4)
  | .lossImpact n peak _ => decide (n < 8) && decide (peak < 4096)
  | .lossIntervalEnd n => decide (n < 8)
  | .imuFault code => decide (code < 256)
  | .fusionEpoch q _ | .disputeHorizon q | .quantityReset q => decide (q < 11)
  | .slotSample slot | .calibrationUpdate slot | .calibrationStore slot => decide (slot < 64)
  | .fusionJobSubmit queue _ | .fusionCqAck queue _ | .fusionJobAbort queue _ => decide (queue < 2)
  | .camFeedFault c _ | .camFeedSwitch c _ | .mergeTimeout c | .camFrameEnd c _ | .frameSyncEdge c | .camApply c
  | .camEnable c | .camLinkLoss c | .camLinkRegain c | .replayFrame c | .i2cTransferStart c _
  | .camParameterCopyEnd c => decide (c < 4)
  | .csiPacket c vc dt _ _ _ _ => decide (c < 4) && decide (vc < 16) && decide (dt < 64)
  | .camFrameStart c number => decide (c < 4) && decide (number < 65536)
  | .tapAck c a _ => decide (c < 4) && decide (a < 3)
  | .i2cTransferEnd c _ data => decide (c < 4) && decide (data < 65536)
  | .acqDone _ _ peak _ => decide (peak < 65536)
  | .channelEnable n | .channelDisable n | .channelDump n _ _ _ | .ncoCommit n _ | .dumpAck n _ => decide (n < 192)
  | .governorEnable value | .engageRequest value => decide (value < 2)
  | .freezeEnd m | .settleInstant m => decide (m < 48)
  | .taskOpen task | .taskDelete task | .taskExport task => decide (0 < task) && decide (task < 4294967296)
  | .sectionModeWrite section_ value => decide (section_ < 128) && decide (value < 3)
  | .ghEpochWrite v => decide (v < 65536)
  | .portLinkChange p _ _ _ | .helloSend p => decide (p < 6)
  | .acceptReplacement id | .unsubscribe _ id | .periodicNotify id | .notifyKeepalive id => decide (id < 65536)
  | .heartbeatReceive _ path _ _ _ _ | .mirrorReceive path _ _ => decide (path < 2)
  | .chimneySend kind _ => decide (1 ≤ kind ∧ kind ≤ 4)
  | .chimneyPeriodic kind => decide (kind = 2 ∨ kind = 4)
  | .canEnable c | .txAttemptEnd c _ _ _ _ _ | .busOffRecover c | .busOffRecoveryEnd c | .addressClaimStart c
  | .claimTimeout c | .requestForClaim c => decide (c < 6)
  | .canReceive c what _ _ data _ _ _ _ _ _ => decide (c < 6) && decide (what < 8) && decide (data.length ≤ 2048)
  | .queueAck c q _ => decide (c < 6) && decide (q < 3)
  | .txRequest c b | .txAbort c b => decide (c < 6) && decide (b < 32)
  | .contendingClaim c addr _ => decide (c < 6) && decide (addr < 256)
  | .cvStart u | .cvStateWrite u _ _ | .aliveCheck u _ | .aliveSet u _ => decide (u < 8)
  | .cvData u size _ => decide (u < 8) && decide (size = 1 ∨ size = 2 ∨ size = 4)
  | .canReassemblyTimeout c src => decide (c < 6) && decide (src < 256)
  | .read _ index sub | .blockRead _ index sub _ _ | .blockSeg _ index sub _ _ | .blockSessionExpiry _ index sub
  | .notifyReceive _ _ _ index sub _ _ | .commit _ index sub _ | .describe _ index sub
  | .remoteResponse _ _ _ _ _ index sub _ _ _ => decide (index < 65536) && decide (sub < 256)
  | .write _ index sub typ _ | .blockEnd _ index sub typ _ _ => decide (index < 65536) && decide (sub < 256) && decide (typ < 256)
  | .subscribe _ index sub period least => decide (index < 65536) && decide (sub < 256) && decide (period < 65536) && decide (least < 65536)
  | .remoteTimeout tag | .dmaComplete tag | .dmaAbort tag | .storageComplete tag _ | .storageTimeout tag
  | .storageAbort tag | .panelSubmit tag => decide (tag < 65536)
  | .lockstepMismatch pair => decide (pair < 2)
  | .dmaCqAck head | .storageCqAck head => decide (head < 65536)
  | .doorbell _ n => decide (n < 1024)
  | .claim _ t => decide (t < 13)
  | .complete _ t n => decide (n < 1024) && decide (t < 13)
  | .integrityProfileWrite sub value => decide (sub < 256) && decide (value < 256)
  | .pllLockLoss p => decide (p < 7)
  | .opRequest k op => decide (k < 2) && decide (op < 4)
  | .ignRise inputs _ _ => decide (inputs < 4)
  | .powerOnReset ign _ _ => decide (ign < 4)
  | .systemReset value => decide (value < 65536)
  | .clusterReset value => decide (1 ≤ value ∧ value ≤ 3)
  | .stateRequest value => decide (value < 5)
  | .sleepWake source => decide (source < 1024)
  | .deepWake source _ _ => decide (source < 8)
  | .watchdogKick _ w _ | .watchdogExpiry w => decide (w < 6)
  | .mailboxGo slot _ _ | .mailboxDone slot | .mailboxRelease slot => decide (slot < 16)
  | .eventPost code sev => decide (code < 65536) && decide (sev < 4)
  | .thermalReading z _ _ _ _ => decide (z < 20)
  | .geometryWrite sub value => decide (2 ≤ sub ∧ sub ≤ 4) && decide (value < 65536)
  | .tokenWrite bytes => decide (bytes.length = 144)
  | .transitionRequest value => decide (value = 2 ∨ value = 4)
  | .serialStaging number => decide (number ≤ 9999999999)
  | .slotHashWrite bytes | .slotKeyWrite bytes => decide (bytes.length = 33)
  | .debugDatagram _ op reg _ => decide (op = 1 ∨ op = 2) && decide (reg < 65536)
  | .intakeFragment source bytes => decide (source < 3) && decide (16 ≤ bytes.length)
  | .updateAbort t | .relayRequest t _ | .activate t | .confirm t | .confirmationExpiry t | .rollBack t => decide (1 ≤ t ∧ t ≤ 3)
  | .relayNeighbourResume t p _ => decide (1 ≤ t ∧ t ≤ 3) && decide (p < 6)

end Sys2Proof
end

