-- ==== Sys2Proof/Tests/Slice0.lean ====
section
/-!
SUPPORT. Tests: the checks of WellFormed, worked examples and tables of the spec, and single commands on small states. Expected
values are the spec's; each test names its rule.
-/
namespace Sys2Proof.Tests
open Sys2Proof.Machine
open State
set_option Elab.async false

/-! Helpers -/

def rq0 : Req := ⟨0, 0, 0, 0, 0, 0⟩

/-- A stop frame without content. -/
def fr0 : FlueFrame := { pcp := 7, source := 0, cls := 7, kind := 7, src := 0, dst := 0 }

/-- The state of a result. -/
def after (r : Res) : State :=
  match r with
  | .next t => t
  | _ => State.reset

def ascii9 : List Byte := [0x31, 0x32, 0x33, 0x34, 0x35, 0x36, 0x37, 0x38, 0x39]

/-- A decimal fraction as binary32. -/
def dec (num : Int) (den : Nat) : F32 := F32.ofRat num den

/-! Well-formed commands -/

/-- Each check refuses a command that breaks it and nothing else. -/
theorem test_ill_formed_refused_1 : (([
    .registerWrite 0 4294967295 3 0,
    .registerWrite 0 4294967296 4 0,
    .counterClear 4294967296,
    .openEntry 1024,
    .trellisEntryWrite 1024 (List.replicate 20 0),
    .trellisEntryWrite 1023 (List.replicate 19 0),
    .ringConfigWrite 256 (List.replicate 16 0),
    .ringConfigWrite 255 (List.replicate 15 0),
    .stopInputChange 2 false,
    .stopFrameReceive 6 fr0 false,
    .loopRun 64,
    .statusFrameReceive 5 0 false [],
    .sdOnCommand 48,
    .pullinGrant 12,
    .sdDieReset 3,
    .lsSwitchOn 32,
    .groupArm 8,
    .lsDeferralEntry 1 0,
    .lsDeferralEntry 4 0,
    .lsDieReset 2] : List Instr).all fun i => i.wf == false) = true := by decide +kernel

/-- Each check refuses a command that breaks it and nothing else. -/
theorem test_ill_formed_refused_2 : (([
    .lsDieReset 5,
    .supplyFault 4 0 0,
    .pulseEdge 24 false false 0,
    .bridgeConversion 4 0 0 false false 0,
    .lossImpact 8 4095 0,
    .lossImpact 7 4096 0,
    .lossIntervalEnd 8,
    .imuFault 256,
    .fusionEpoch 11 false,
    .slotSample 64,
    .fusionJobSubmit 2 0,
    .camFeedFault 4 0,
    .csiPacket 4 15 63 0 false 0 [],
    .csiPacket 3 16 63 0 false 0 [],
    .csiPacket 3 15 64 0 false 0 [],
    .camFrameStart 4 65535,
    .camFrameStart 3 65536,
    .tapAck 4 2 0,
    .tapAck 3 3 0,
    .i2cTransferEnd 4 false 65535] : List Instr).all fun i => i.wf == false) = true := by decide +kernel

/-- Each check refuses a command that breaks it and nothing else. -/
theorem test_ill_formed_refused_3 : (([
    .i2cTransferEnd 3 false 65536,
    .acqDone 0 0 65536 0,
    .channelEnable 192,
    .governorEnable 2,
    .freezeEnd 48,
    .taskOpen 0,
    .taskOpen 4294967296,
    .sectionModeWrite 128 2,
    .sectionModeWrite 127 3,
    .ghEpochWrite 65536,
    .portLinkChange 6 false 0 false,
    .acceptReplacement 65536,
    .heartbeatReceive 0 2 0 0 0 0,
    .chimneySend 0 [],
    .chimneySend 5 [],
    .chimneyPeriodic 3,
    .canEnable 6,
    .canReceive 6 7 0 0 (List.replicate 2048 0) 0 0 0 0 0 0,
    .canReceive 5 8 0 0 (List.replicate 2048 0) 0 0 0 0 0 0,
    .canReceive 5 7 0 0 (List.replicate 2049 0) 0 0 0 0 0 0] : List Instr).all fun i => i.wf == false) = true := by decide +kernel

/-- Each check refuses a command that breaks it and nothing else. -/
theorem test_ill_formed_refused_4 : (([
    .queueAck 6 2 0,
    .queueAck 5 3 0,
    .txRequest 6 31,
    .txRequest 5 32,
    .contendingClaim 6 255 0,
    .contendingClaim 5 256 0,
    .cvStart 8,
    .cvData 8 4 0,
    .cvData 7 3 0,
    .canReassemblyTimeout 6 255,
    .canReassemblyTimeout 5 256,
    .read rq0 65536 255,
    .read rq0 65535 256,
    .write rq0 65536 255 255 [],
    .write rq0 65535 256 255 [],
    .write rq0 65535 255 256 [],
    .subscribe rq0 65536 255 65535 65535,
    .subscribe rq0 65535 256 65535 65535,
    .subscribe rq0 65535 255 65536 65535,
    .subscribe rq0 65535 255 65535 65536] : List Instr).all fun i => i.wf == false) = true := by decide +kernel

/-- Each check refuses a command that breaks it and nothing else. -/
theorem test_ill_formed_refused_5 : (([
    .remoteTimeout 65536,
    .lockstepMismatch 2,
    .dmaCqAck 65536,
    .doorbell 0 1024,
    .claim 0 13,
    .complete 0 12 1024,
    .complete 0 13 1023,
    .integrityProfileWrite 256 255,
    .integrityProfileWrite 255 256,
    .pllLockLoss 7,
    .opRequest 2 3,
    .opRequest 1 4,
    .ignRise 4 0 {},
    .powerOnReset 4 0 {},
    .systemReset 65536,
    .clusterReset 0,
    .clusterReset 4,
    .stateRequest 5,
    .sleepWake 1024,
    .deepWake 8 0 {}] : List Instr).all fun i => i.wf == false) = true := by decide +kernel

/-- Each check refuses a command that breaks it and nothing else. -/
theorem test_ill_formed_refused_6 : (([
    .watchdogKick 0 6 0,
    .mailboxGo 16 0 none,
    .eventPost 65536 3,
    .eventPost 65535 4,
    .thermalReading 20 0 0 0 0,
    .geometryWrite 1 65535,
    .geometryWrite 5 65535,
    .geometryWrite 4 65536,
    .tokenWrite (List.replicate 143 0),
    .transitionRequest 3,
    .serialStaging 10000000000,
    .slotHashWrite (List.replicate 32 0),
    .debugDatagram 0 3 65535 0,
    .debugDatagram 0 2 65536 0,
    .intakeFragment 3 (List.replicate 16 0),
    .intakeFragment 2 (List.replicate 15 0),
    .updateAbort 0,
    .updateAbort 4,
    .relayNeighbourResume 0 5 0,
    .relayNeighbourResume 4 5 0] : List Instr).all fun i => i.wf == false) = true := by decide +kernel

/-- Each check refuses a command that breaks it and nothing else. -/
theorem test_ill_formed_refused_7 : (([
    .relayNeighbourResume 3 6 0] : List Instr).all fun i => i.wf == false) = true := by decide +kernel

/-- Commands at the bounds of every check pass. -/
theorem test_well_formed_taken_1 : (([
    .registerWrite 0 4294967295 4 0,
    .counterClear 4294967295,
    .openEntry 1023,
    .trellisEntryWrite 1023 (List.replicate 20 0),
    .ringConfigWrite 255 (List.replicate 16 0),
    .stopInputChange 1 false,
    .stopFrameReceive 5 fr0 false,
    .loopRun 63,
    .statusFrameReceive 4 0 false [],
    .sdOnCommand 47,
    .pullinGrant 11,
    .sdDieReset 2,
    .lsSwitchOn 31,
    .groupArm 7,
    .lsDeferralEntry 3 0,
    .lsDieReset 4,
    .supplyFault 3 0 0,
    .pulseEdge 23 false false 0,
    .bridgeConversion 3 0 0 false false 0,
    .lossImpact 7 4095 0] : List Instr).all fun i => i.wf == true) = true := by decide +kernel

/-- Commands at the bounds of every check pass. -/
theorem test_well_formed_taken_2 : (([
    .lossIntervalEnd 7,
    .imuFault 255,
    .fusionEpoch 10 false,
    .slotSample 63,
    .fusionJobSubmit 1 0,
    .camFeedFault 3 0,
    .csiPacket 3 15 63 0 false 0 [],
    .camFrameStart 3 65535,
    .tapAck 3 2 0,
    .i2cTransferEnd 3 false 65535,
    .acqDone 0 0 65535 0,
    .channelEnable 191,
    .governorEnable 1,
    .freezeEnd 47,
    .taskOpen 4294967295,
    .sectionModeWrite 127 2,
    .ghEpochWrite 65535,
    .portLinkChange 5 false 0 false,
    .acceptReplacement 65535,
    .heartbeatReceive 0 1 0 0 0 0] : List Instr).all fun i => i.wf == true) = true := by decide +kernel

/-- Commands at the bounds of every check pass. -/
theorem test_well_formed_taken_3 : (([
    .chimneySend 4 [],
    .chimneyPeriodic 4,
    .canEnable 5,
    .canReceive 5 7 0 0 (List.replicate 2048 0) 0 0 0 0 0 0,
    .queueAck 5 2 0,
    .txRequest 5 31,
    .contendingClaim 5 255 0,
    .cvStart 7,
    .cvData 7 4 0,
    .canReassemblyTimeout 5 255,
    .read rq0 65535 255,
    .write rq0 65535 255 255 [],
    .subscribe rq0 65535 255 65535 65535,
    .remoteTimeout 65535,
    .lockstepMismatch 1,
    .dmaCqAck 65535,
    .doorbell 0 1023,
    .claim 0 12,
    .complete 0 12 1023,
    .integrityProfileWrite 255 255] : List Instr).all fun i => i.wf == true) = true := by decide +kernel

/-- Commands at the bounds of every check pass. -/
theorem test_well_formed_taken_4 : (([
    .pllLockLoss 6,
    .opRequest 1 3,
    .ignRise 3 0 {},
    .powerOnReset 3 0 {},
    .systemReset 65535,
    .clusterReset 3,
    .stateRequest 4,
    .sleepWake 1023,
    .deepWake 7 0 {},
    .watchdogKick 0 5 0,
    .mailboxGo 15 0 none,
    .eventPost 65535 3,
    .thermalReading 19 0 0 0 0,
    .geometryWrite 4 65535,
    .tokenWrite (List.replicate 144 0),
    .transitionRequest 4,
    .serialStaging 9999999999,
    .slotHashWrite (List.replicate 33 0),
    .debugDatagram 0 2 65535 0,
    .intakeFragment 2 (List.replicate 16 0)] : List Instr).all fun i => i.wf == true) = true := by decide +kernel

/-- Commands at the bounds of every check pass. -/
theorem test_well_formed_taken_5 : (([
    .updateAbort 3,
    .relayNeighbourResume 3 5 0] : List Instr).all fun i => i.wf == true) = true := by decide +kernel

/-! Worked examples and tables of the spec -/

/-- Table 13-4: the check values of the five catalogue algorithms. -/
theorem test_crc_check_values : [crc8, crc16, crc32, crc32c, crc64].map (fun a => crcOf a ascii9)
    = [0x4B, 0x29B1, 0xCBF43926, 0xE3069283, 0x6C40DF5F0B497347] := by decide +kernel

/-- R319 to R321: a check-value unit at ALG 2 fed "1234", "5678" and "9", the least significant byte first. -/
theorem test_cv_unit_crc32 :
    (let s := after (exec (.cvStart 1) (State.reset.wr (R.cvCfg 1) 2))
     let s := after (exec (.cvData 1 4 0x34333231) s)
     let s := after (exec (.cvData 1 4 0x38373635) s)
     (after (exec (.cvData 1 1 0x39) s)).rd (R.cvResultLo 1)) = 0xCBF43926 := by decide +kernel

/-- The alive context of 13_can_integrity.md's example: N = 4, MAXSKIP = 3, RESYNC = 2, last = 14. -/
theorem test_alive_example : (([15, 15, 2, 1, 7, 8] : List Nat).foldl
    (fun (a : List AliveClass × AliveCtx) v =>
      let r := aliveClassify 4 3 2 a.2 v
      (a.1 ++ [r.1], r.2)) ([], { valid := true, last := 14 })).1
    = [.ok, .repeated, .skipped 2, .stale, .resynced, .ok] := by decide +kernel

/-- R312: the attempt time of CN2 in FD with BRS at 500 kbit/s and 2 Mbit/s, with DLMAX 64 and 16. -/
theorem test_can_attempt_time : [64, 16].map (fun d => watOf 2 d 160 40 0) = [515, 275] := by decide +kernel

/-- R387: 148 ms at 16 MB and 52 ms at 4 MB; RETRY 4 fits only the second. -/
theorem test_storage_budget : (attemptTime 16777216, attemptTime 4194304, storageBudgetOk 2 16777216 500,
    storageBudgetOk 4 16777216 500, storageBudgetOk 4 4194304 500) = (148, 52, true, false, true) := by decide +kernel

/-- R116: four sensors at 20 kS/s with OSR 2 and twelve inputs at 1 kS/s with OSR 6 or 5. -/
theorem test_analog_budget : [6, 5].map (fun osr =>
    let c := conversions (List.replicate 4 (1 + 64 * 2 + 65536) ++ List.replicate 12 (1 + 64 * osr + 65536 * 20))
    c.1 / c.2) = [1088000, 704000] := by decide +kernel

/-- The reel-speed loop of 02_control_engine.md: 59 steps after the first firing at the new speed, the output limited by RATE to
0.91920 A, the integrator unchanged. -/
theorem test_reel_speed_law :
    (law [0x100, 0, 1000, 0, dec 4 1000, dec 2 100, 0, 0, 0x3F800000, 0x3F800000, dec 40 100, dec 35 100, dec 160 100, dec 4 1,
          0, dec 20 1] ⟨dec 39933 1000, dec 39933 1000, dec 8792 10000, 0, 0⟩
         ⟨dec 49916 1000, dec 39933 1000, dec 599 1000, 0⟩ none none).map
      (fun o => (F32.roundEven o.st.u 64 1, F32.roundEven o.st.u 100000 1, o.st.i, o.rlim, o.sat))
      = some (59, 91920, 0, true, false) := by decide +kernel

/-- R42: at 1,650 rpm between (1,600; 0.050; 1.00) and (1,800; 0.040; 0.80), KP is 0.0475 and KI 0.95. -/
theorem test_gain_schedule :
    (let s := dec 1650 1
     let k := fun a b => F32.roundEven (interp s (dec 1600 1) (dec 1800 1) a b) 100000 1
     (k (dec 5 100) (dec 4 100), k (dec 1 1) (dec 8 10))) = (4750, 95000) := by decide +kernel

/-- R33: a step of device time by −182.4 µs is −18 frames and a phase error of 2.4 µs (in half nanoseconds, trimmed in 960
frames). -/
theorem test_grid_step :
    (let t := ceFrameStep (State.reset.set R.ceCtrlEn 1) (-182400)
     ((t.rd R.ceFrameOfs).toInt, t.ce.phase, t.ce.phase.natAbs / (frameTrim t.ce.phase).natAbs)) = (-18, -4800, 960) := by
  decide +kernel

/-- R203: 600 s after HOLDOVER with 20 ns and f0 = 10⁻⁸, the uncertainty is 42,020 ns. -/
theorem test_holdover_uncertainty :
    uncertainty { ((State.reset.set R.gnTqState 3).wr R.gnTfunc 10000) with
      now := 602000000000, time := { unc0 := 20, uncAt := 2000000000 } } = 42020 := by decide +kernel

/-- R279: the path bound at depths 9 and 10 over F0 or F1 links to depth 2 and 1000BASE-T1 links beyond. -/
theorem test_path_bound : (pathBound ([0, 1] ++ List.replicate 7 3), pathBound ([0, 1] ++ List.replicate 8 3)) = (186, 208) := by
  decide +kernel

/-- R403: a raise from OP3 to OP0 takes 55 µs, a lowering from OP0 to OP2 48 µs. -/
theorem test_operating_point_times : (opSequence 3 0, opSequence 0 2) = (55000, 48000) := by decide +kernel

/-- R470: between (10 °C, 6.0 ms, 35.0 V) and (20 °C, 4.0 ms, 34.0 V), 15 °C gives 5.0 ms and 34.5 V. -/
theorem test_panel_row_time :
    (between 150 100 200 600 400, between 150 100 200 350 340) = (500, 345) := by decide +kernel

/-- R68: 25 clamp events of 333.6 mJ at intervals of 0.4 s lock the bank at the 25th. -/
theorem test_bucket_locks_bank :
    (let s := State.reset.setSdB 2 { State.reset.sdB 2 with bucket := 2246400000000, clamp := true }
     let t := after (exec (.sdClampEventEnd 2 333600) s)
     let u := after (exec (.sdClampEventEnd 2 240000) s)
     ((t.sdB 2).bucket, t.flag (R.sdBstatLock 2), u.flag (R.sdBstatLock 2))) = (2580000000000, true, false) := by decide +kernel

/-- R366 to R369: source 0 goes to T8 under load 192 first, and to T10 once T10 has completed. -/
theorem test_assignment_moves :
    (let s := ((((((State.reset.wr (R.icSrc 0) 0x500).set (State.bitAt (R.icEn 0) 0) 1).set (State.bitAt (R.icPend 0) 0) 1).set
        (R.icTctrlEn 8) 1).set (R.icTctrlEn 10) 1).set (R.icTstatRunning 8) 192).set (R.icTstatRunning 10) 8
     let s := { s with procs := { s.procs with serving := [(8, 192), (10, 8)] } }
     (assignment s, assignment (after (exec (.complete 10 10 8) s)))) = ([(0, 8)], [(0, 10)]) := by decide +kernel

/-- R420: the losses and inputs of 18_power.md's example: 50.88 W, 48 A, 208 A, 96 A. -/
theorem test_dissipation :
    (let s := (List.range 6).foldl (fun (u : State) b => u.set (R.sdBctrlArm b) 1) State.reset
     let s := (List.range 24).foldl (fun (u : State) n => (u.set (R.sdCctrlMode n) 1).set (R.sdCcurHold n) 128) s
     let s := (List.range 8).foldl (fun (u : State) g => u.set (R.lsGctrlArm g) 1) s
     let s := (List.range 32).foldl (fun (u : State) n => u.set (R.lsCctrlMode n) 1) s
     let s := s.setObj 0x1300 0x0B (.bytes ((List.range 32).flatMap fun n => F32.toBytes (if n < 8 then dec 20 1 else dec 6 1)))
     let t := thermalEstimate s
     (F32.roundEven t.estP 100 1, t.estI, t.ev.intake.map fun e => (e.code, e.data)))
      = (5088, [dec 48 1, 0, dec 208 1, dec 96 1],
         [(0x0109, leBytes 2 509), (0x010B, [2] ++ leBytes 2 2080), (0x010B, [3] ++ leBytes 2 960)]) := by decide +kernel

/-- 22_security_update.md's relay example: the order of activation. -/
theorem test_relay_order :
    (let nd := fun path => some ({ serial := 1, state := 0, path := path } : Node)
     let s := { State.reset with fab := { State.reset.fab with
       nodes := [(0x10, nd [0]), (0x11, nd [0, 1]), (0x12, nd [0, 2]), (0x13, nd [0, 2, 1])] } }
     (relayOrder s).map (·.id)).take 4 = [0x13, 0x12, 0x11, 0x10] := by decide +kernel

/-! Single commands -/

/-- R365: a doorbell from an engine sets the pending bit; one from a processor below 576 does not. -/
theorem test_doorbell : ((after (exec (.doorbell 13 7) State.reset)).flag (State.bitAt (R.icPend 0) 7),
    (after (exec (.doorbell 8 7) State.reset)).flag (State.bitAt (R.icPend 0) 7)) = (true, false) := by decide +kernel

/-- R127, R128: a software stop sets the latch. -/
theorem test_stop_latches : (after (exec (.softwareStop 1) State.reset)).get R.siStopState ≠ 0 := by decide +kernel

/-- R240: a task number written on a Hearth opens the task. -/
theorem test_task_opened : (after (exec (.taskOpen 7) { State.reset with roleInEffect := 1 })).par.task = 7 := by decide +kernel

/-- R479: a transition to FIELD without a token is refused in PROVISIONED. -/
theorem test_transition_refused :
    (let t := after (exec (.transitionRequest 2) State.reset)
     (t.lifeCycle, t.rd R.secRefused, t.out.head?)) = (1, 1, some (.answered St.state)) := by decide +kernel

/-- The command at the front of the queue runs with the rest waiting. -/
theorem test_queue_front : step { State.reset with pending := [.cancel, .go] } = exec .cancel { State.reset with pending := [.go] } := by
  rfl

/-- The table gives its rows no bits. -/
theorem test_no_word_decodes : decodeTableWord 16 0 = none ∧ State.reset.withFetchWord 16 0 = State.reset := by
  exact ⟨rfl, rfl⟩

/-- Reset holds no byte of memory and no waiting command. -/
theorem test_reset_memory : State.reset.mem = [] ∧ State.reset.pending = [] := ⟨rfl, rfl⟩

/-- R468: of A, B and C of 21_panel.md's example, A and B are dispatched and C waits. -/
theorem test_panel_dispatch :
    (let rq := fun (t : Nat) x y w h => ({ rect := ⟨x, y, w, h⟩, tag := t } : PanelReq)
     let t := panelScan State.reset [] [rq 1 0 0 160 48, rq 2 160 0 160 48, rq 3 0 32 320 32]
     t.panel.flight.map (·.tag)) = [some 1, some 2] := by decide +kernel

/-- R73: four staggered nozzles at 2,000 frames start 500 frames apart. -/
theorem test_stagger :
    (let s := (List.range 4).foldl (fun (u : State) n =>
       (u.set (R.sdCpwmPeriod (28 + n)) 2000).set (R.sdCctrlStagger (28 + n)) 1) State.reset
     (List.range 4).map fun n => sdEffPhase (sdStagger s 7) (28 + n)) = [0, 500, 1000, 1500] := by decide +kernel

/-- R147: variance 0.09 at σ_ref 0.5 gives conf16 48,187. -/
theorem test_confidence :
    confidence (State.reset.setObj 0x2482 5 (.num (dec 1 2).toNat)) 2 (dec 3 10) = 48187 := by decide +kernel

end Sys2Proof.Tests
end

