-- ==== Sys2Proof/Tests/Witnesses.lean ====
section
/-!
SUPPORT. Witnesses: for every clause of a statement that has hypotheses, a state and operands that meet all of them together.
-/
namespace Sys2Proof.Tests
open Sys2Proof.Machine
open State
set_option Elab.async false

/-- A camera port that is enabled, live and locked. -/
def camLive (s : State) (c : Nat) : State := ((s.set (R.camPctrlEn c) 1).set (R.camPctrlSrc c) 0).set (R.camPstatLock c) 1
/-- The row of an object. -/
def fnd (s : State) (i j : Nat) : ObjDef := (find s i j).getD (rowOf 0 0 .u8 .ro (.num 0))
/-- A DMA descriptor (Table 15-4). -/
def dmaDesc (tag op fl len : Nat) (src dst rows ss ds : Nat) : List Byte := leBytes 2 tag ++ leBytes 1 op ++ leBytes 1 fl
     ++ leBytes 4 len ++ leBytes 8 src ++ leBytes 8 dst ++ leBytes 4 rows ++ leBytes 4 ss ++ leBytes 4 ds ++ leBytes 28 0
/-- A storage descriptor. -/
def stDesc (tag op fl part lba cnt buf : Nat) : List Byte := leBytes 2 tag ++ leBytes 1 op ++ leBytes 1 fl ++ leBytes 4 part
     ++ leBytes 8 lba ++ leBytes 4 cnt ++ leBytes 4 0 ++ leBytes 8 buf ++ leBytes 32 0
/-- A frame with a correct check. -/
def flF (s : State) (cls kind rnd : Nat) (pay : List Byte) : FlueFrame := let f : FlueFrame := { vid := fabricVid s, pcp := cls, source := 77 + rnd % 3, cls := cls, kind := kind, src := rnd % 40, dst := 0xFFFF, seq := rnd / 7 % 5, payload := pay }; { f with check := flueCheck f }
/-- An intake fragment. -/
def frag (session ty off : Nat) (data : List Byte) : List Byte := leBytes 4 session ++ leBytes 1 ty ++ [0]
     ++ leBytes 2 data.length ++ leBytes 8 off ++ data

/-- Each clause of FrontCommandRuns with hypotheses: a state and operands that meet them. -/
theorem witness_FrontCommandRuns :
    (∃ (s : State), (s.pending = []) ∧ ((stopCauses s = 0 ∨ s.get R.siStopState = 1))) ∧
    (∃ (s : State), (s.pending = []) ∧ (stopCauses s ≠ 0) ∧ (s.get R.siStopState ≠ 1)) :=
  ⟨⟨({ State.reset with stop := { State.reset.stop with inA := false, inB := false } } : State), by decide +kernel⟩,
   ⟨(State.reset : State), by decide +kernel⟩⟩

/-- Each clause of WrittenSlotsAreKept with hypotheses: a state and operands that meet them. -/
theorem witness_WrittenSlotsAreKept :
    (∃ (s : State) (t : State) (k : Nat), (step s = .next t) ∧ (s.sec.otp.hashes.getD k [] ≠ [])) ∧
    (∃ (s : State) (t : State) (k : Nat), (step s = .next t) ∧ (s.sec.otp.keys.getD k [] ≠ [])) :=
  ⟨⟨({ State.reset with stop := { State.reset.stop with inA := false, inB := false }, sec := { State.reset.sec with otp := { State.reset.sec.otp with hashes := [[1], [], [], []] } } } : State), ({ State.reset with stop := { State.reset.stop with inA := false, inB := false }, sec := { State.reset.sec with otp := { State.reset.sec.otp with hashes := [[1], [], [], []] } } } : State), (0 : Nat), rfl, by decide +kernel⟩,
   ⟨({ State.reset with stop := { State.reset.stop with inA := false, inB := false }, sec := { State.reset.sec with otp := { State.reset.sec.otp with keys := [[1], [], [], []] } } } : State), ({ State.reset with stop := { State.reset.stop with inA := false, inB := false }, sec := { State.reset.sec with otp := { State.reset.sec.otp with keys := [[1], [], [], []] } } } : State), (0 : Nat), rfl, by decide +kernel⟩⟩

/-- Each clause of QueueKeepsItsOrder with hypotheses: a state and operands that meet them. -/
theorem witness_QueueKeepsItsOrder :
    (∃ (s : State) (t : State), (step s = .next t)) :=
  ⟨({ State.reset with stop := { State.reset.stop with inA := false, inB := false } } : State),
     ({ State.reset with stop := { State.reset.stop with inA := false, inB := false } } : State), rfl⟩

/-- Each clause of RegisterFieldsTakeWrites with hypotheses: a state and operands that meet them. -/
theorem witness_RegisterFieldsTakeWrites :
    (∃ (a : Nat), (regAt a = none)) :=
  ⟨(0 : Nat), by decide +kernel⟩

/-- Each clause of RegisterWritesReachTheirRegister with hypotheses: a state and operands that meet them. -/
theorem witness_RegisterWritesReachTheirRegister :
    (∃ (s : State) (a : Nat), (s.serving = true) ∧ (0x20000000 ≤ a) ∧ (a < 0x20130000) ∧ (a % 4 = 0) ∧ (cvDataUnit a = none)
     ∧ (gateOpen s a = true) ∧ (a ≠ R.ckGrun)) ∧
    (∃ (s : State) (a : Nat), (s.serving = true) ∧ (0x20000000 ≤ a) ∧ (a < 0x20130000) ∧ (a % 4 = 0) ∧ (cvDataUnit a = none)
     ∧ (gateOpen s a = false)) ∧
    (∃ (s : State), (s.serving = true)) ∧
    (∃ (s : State) (a : Nat), (s.serving = true) ∧ (0x20130000 ≤ a) ∧ (a < 0x20140000) ∧ (a % 4 = 0)) ∧
    (∃ (s : State) (a : Nat), (s.serving = true) ∧ (0x20130040 ≤ a) ∧ (a < 0x20130100) ∧ (a % 4 = 0)) ∧
    (∃ (s : State) (a : Nat) (size : Nat) (u : Nat), (s.serving = true) ∧ (cvDataUnit a = some u)
     ∧ ((size = 1 ∨ size = 2 ∨ size = 4)) ∧ (s.gateOn 12 = true)) ∧
    (∃ (s : State) (a : Nat) (size : Nat) (u : Nat), (s.serving = true) ∧ (cvDataUnit a = some u)
     ∧ ((size = 1 ∨ size = 2 ∨ size = 4)) ∧ (s.gateOn 12 = false)) ∧
    (∃ (s : State) (a : Nat), (s.serving = true) ∧ ((a < 0x20000000 ∨ 0x20140000 ≤ a))) ∧
    (∃ (s : State) (a : Nat) (size : Nat), (s.serving = true) ∧ (cvDataUnit a = none) ∧ ((size ≠ 4 ∨ a % 4 ≠ 0))) ∧
    (∃ (s : State) (a : Nat) (b : Nat), (s.serving = true) ∧ (clearBit a = some b)) :=
  ⟨⟨(State.reset.set ⟨R.ckGrun, 4, 1⟩ 1 : State), (0x20020004 : Nat), by decide +kernel⟩,
   ⟨(State.reset.set ⟨R.ckGrun, 6, 1⟩ 0 : State), (0x20060004 : Nat), by decide +kernel⟩,
   ⟨(State.reset : State), by decide +kernel⟩,
   ⟨(State.reset : State), (0x2013FFFC : Nat), by decide +kernel⟩,
   ⟨(State.reset : State), (0x201300FC : Nat), by decide +kernel⟩,
   ⟨(State.reset.set ⟨R.ckGrun, 12, 1⟩ 1 : State), (R.cvData 7 : Nat), (1 : Nat), (7 : Nat), by decide +kernel⟩,
   ⟨(State.reset.set ⟨R.ckGrun, 12, 1⟩ 0 : State), (R.cvData 7 : Nat), (2 : Nat), (7 : Nat), by decide +kernel⟩,
   ⟨(State.reset : State), (0x20140000 : Nat), by decide +kernel⟩,
   ⟨(State.reset : State), (0x2013FFFF : Nat), (4 : Nat), by decide +kernel⟩,
   ⟨(State.reset : State), (R.sdCctrl 47 : Nat), (11 : Nat), by decide +kernel⟩⟩

/-- Each clause of TrellisEntriesAreEditedAndCommitted with hypotheses: a state and operands that meet them. -/
theorem witness_TrellisEntriesAreEditedAndCommitted :
    (∃ (s : State) (e : Nat) (l : List Byte), (Serves s) ∧ (e < 1024) ∧ (l.length = 20) ∧ ((s.entryOf e).state ≠ 2)) ∧
    (∃ (s : State) (e : Nat) (l : List Byte), (Serves s) ∧ (e < 1024) ∧ (l.length = 20) ∧ ((s.entryOf e).state = 2)) ∧
    (∃ (s : State) (e : Nat) (l : List Byte), (Serves s) ∧ (e < 1024) ∧ (l.length = 20) ∧ ((s.entryOf e).state = 1)
     ∧ (natAt l 16 1 ≤ 1) ∧ (natAt l 17 3 = 0)) ∧
    (∃ (s : State) (e : Nat) (l : List Byte), (Serves s) ∧ (e < 1024) ∧ (l.length = 20) ∧ ((s.entryOf e).state ≠ 1)) ∧
    (∃ (s : State) (b : Time), (Serves s) ∧ (b < 2 ^ 64)) ∧
    (∃ (s : State) (b : Time), (Serves s) ∧ (b < 2 ^ 64)
     ∧ (anyEntry s (fun x => x.state == 2 && decide (s.time.dev + 500000 ≤ x.boundary)) = true)) ∧
    (∃ (s : State) (b : Time), (Serves s) ∧ (b < 2 ^ 64)
     ∧ (anyEntry s (fun x => x.state == 2 && decide (s.time.dev + 500000 ≤ x.boundary)) = false)) ∧
    (∃ (s : State) (b : Time), (Serves s) ∧ (b < 2 ^ 64) ∧ (b % 10000000 = 0) ∧ (s.time.dev + 500000 ≤ b)
     ∧ ((prepare s b).2 = St.ok)) ∧
    (∃ (s : State) (b : Time), (Serves s) ∧ (b < 2 ^ 64) ∧ ((b % 10000000 ≠ 0 ∨ b < s.time.dev + 500000))) ∧
    (∃ (s : State) (b : Time), (Serves s) ∧ (b < 2 ^ 64) ∧ (b % 10000000 = 0) ∧ (s.time.dev + 500000 ≤ b)
     ∧ ((prepare s b).2 = St.range)) :=
  ⟨⟨(State.reset : State), (1023 : Nat), (List.replicate 20 0 : List Byte), by unfold Serves; decide +kernel⟩,
   ⟨(State.reset.setEntry 1023 { state := 2 } : State), (1023 : Nat), (List.replicate 20 0 : List Byte),
     by unfold Serves; decide +kernel⟩,
   ⟨(State.reset.setEntry 1023 { state := 1 } : State), (1023 : Nat), (List.replicate 20 0 : List Byte),
     by unfold Serves; decide +kernel⟩,
   ⟨(State.reset : State), (1023 : Nat), (List.replicate 20 0 : List Byte), by unfold Serves; decide +kernel⟩,
   ⟨(State.reset : State), (1000000 : Time), by unfold Serves; decide +kernel⟩,
   ⟨(State.reset.setEntry 1023 { state := 2, boundary := 10000000 } : State), (1000000 : Time), by unfold Serves; decide +kernel⟩,
   ⟨(State.reset : State), (1000000 : Time), by unfold Serves; decide +kernel⟩,
   ⟨(State.reset.setEntry 1023 { state := 1 } : State), (10000000 : Time), by unfold Serves; decide +kernel⟩,
   ⟨(State.reset : State), (1 : Time), by unfold Serves; decide +kernel⟩,
   ⟨(State.reset.setEntry 1023 { state := 1, shadow := { enable := 1, consumer := 0xFFFF } } : State), (10000000 : Time),
     by unfold Serves; decide +kernel⟩⟩

/-- Each clause of BoundaryMakesRoutesActive with hypotheses: a state and operands that meet them. -/
theorem witness_BoundaryMakesRoutesActive :
    (∃ (s : State) (b : Time), (s.serving = true) ∧ (b = gridNext 10000000 s.trellis.lastEpoch s.time.dev)) ∧
    (∃ (s : State) (b : Time) (f : Nat × Nat), (anyEntry s (fun e => e.state == 2 && decide (e.boundary ≤ b)) = true)
     ∧ (firstFailure (emptyCommitsDone s b) (s.trellis.entries.map fun e => (e.1,
     (if e.2.state == 2 && decide (e.2.boundary ≤ b) then e.2.shadow else e.2.active),
     (e.2.state == 2 && decide (e.2.boundary ≤ b)))) = some f) ∧ (Room s 1)) ∧
    (∃ (s : State) (k : Nat) (l : List Byte), (Serves s) ∧ (k < 256) ∧ (l.length = 16) ∧ (natAt l 0 8 % 64 = 0)
     ∧ ((natAt l 0 8 = 0 ∨ (2 ≤ natAt l 8 2
     ∧ inSramOrDram s (natAt l 0 8) (natAt l 8 2 * (if natAt l 10 1 = 0 then 16 else 128)) = true))) ∧ (natAt l 10 1 ≤ 1)
     ∧ (natAt l 11 5 = 0) ∧ (bound s (0x300 + k) = false)) ∧
    (∃ (s : State) (k : Nat) (l : List Byte), (Serves s) ∧ (k < 256) ∧ (l.length = 16) ∧ (natAt l 0 8 % 64 = 0)
     ∧ ((natAt l 0 8 = 0 ∨ (2 ≤ natAt l 8 2
     ∧ inSramOrDram s (natAt l 0 8) (natAt l 8 2 * (if natAt l 10 1 = 0 then 16 else 128)) = true))) ∧ (natAt l 10 1 ≤ 1)
     ∧ (natAt l 11 5 = 0) ∧ (bound s (0x300 + k) = true)) ∧
    (∃ (s : State) (b : Time), (anyEntry s (fun e => e.state == 2 && decide (e.boundary ≤ b)) = true)
     ∧ (firstFailure (emptyCommitsDone s b) (s.trellis.entries.map fun e => (e.1,
     (if e.2.state == 2 && decide (e.2.boundary ≤ b) then e.2.shadow else e.2.active),
     (e.2.state == 2 && decide (e.2.boundary ≤ b)))) = none)) :=
  ⟨⟨(State.reset : State), (gridNext 10000000 (State.reset).trellis.lastEpoch (State.reset).time.dev : Time), by decide +kernel⟩,
   ⟨(State.reset.setEntry 1023 { state := 2, boundary := 0, shadow := { enable := 1, consumer := 0xFFFF, producer := 0 } } : State), (10000000 : Time), ((firstFailure (emptyCommitsDone (State.reset.setEntry 1023 { state := 2, boundary := 0, shadow := { enable := 1, consumer := 0xFFFF, producer := 0 } }) (10000000)) ((State.reset.setEntry 1023 { state := 2, boundary := 0, shadow := { enable := 1, consumer := 0xFFFF, producer := 0 } }).trellis.entries.map fun e => (e.1, (if e.2.state == 2 && decide (e.2.boundary ≤ (10000000)) then e.2.shadow else e.2.active), (e.2.state == 2 && decide (e.2.boundary ≤ (10000000)))))).getD (0, 0) : Nat × Nat), by unfold Room; decide +kernel⟩,
   ⟨(State.reset : State), (255 : Nat), (List.replicate 16 0 : List Byte), by unfold Serves; decide +kernel⟩,
   ⟨(State.reset.setEntry 9 { active := { enable := 1, consumer := 0x3FF } } : State), (255 : Nat),
     (List.replicate 16 0 : List Byte), by unfold Serves; decide +kernel⟩,
   ⟨(State.reset.setEntry 1023 { state := 2, boundary := 0, shadow := {} } : State), (10000000 : Time), by decide +kernel⟩⟩

/-- Each clause of StopsLatchAndRelease with hypotheses: a state and operands that meet them. -/
theorem witness_StopsLatchAndRelease :
    (∃ (s : State) (k : Nat), (s.get R.siStopState ≠ 1) ∧ (k < 2)) ∧
    (∃ (s : State) (k : Nat) (dv : Nat), (s.get R.siStopState ≠ 1) ∧ (k < 2) ∧ (stopInputState s k = false) ∧ (30 ≤ dv)
     ∧ (dv ≤ 70)) ∧
    (∃ (s : State), (s.get R.siStopState ≠ 1)) ∧
    (∃ (s : State) (port : Nat) (f : FlueFrame), (s.get R.siStopState ≠ 1) ∧ (s.gateOn 9 = true) ∧ (port < 6)
     ∧ (s.portUp port = true) ∧ (isFlue s f) ∧ (f.cls = 7) ∧ (f.kind = 0x07) ∧ (f.check = flueCheck f)) ∧
    (∃ (s : State) (t0 : Nat), (s.stop.freeSince = some t0) ∧ (s.get R.siStopState = 1)) ∧
    (∃ (s : State), (s.get R.siStopState = 2) ∧ (stopCauses s = 0) ∧ (s.flag R.siStopDisc = false)) ∧
    (∃ (s : State), ((s.get R.siStopState ≠ 2 ∨ stopCauses s ≠ 0 ∨ s.flag R.siStopDisc = true))) ∧
    (∃ (s : State) (t0 : Nat), (s.stop.remoteEnd = some t0)) ∧
    (∃ (s : State) (t0 : Nat), (s.stop.differAt = some t0) ∧ (s.flag R.siStopDisc = false)) ∧
    (∃ (s : State), (localCauses s ≠ 0)) ∧
    (∃ (k : Nat), (k < 2)) ∧
    (∃ (s : State) (port : Nat) (f : FlueFrame), (s.gateOn 9 = true) ∧ (port < 6) ∧ (s.portUp port = true) ∧ (isFlue s f)
     ∧ (f.cls = 7) ∧ (f.kind = 0x07) ∧ (f.check = flueCheck f)) ∧
    (∃ (s : State) (port : Nat) (f : FlueFrame), (s.gateOn 9 = true) ∧ (port < 6) ∧ (s.portUp port = true) ∧ (isFlue s f)
     ∧ (f.cls = 7) ∧ (f.kind = 0x07)) :=
  ⟨⟨(State.reset : State), (1 : Nat), by decide +kernel⟩,
   ⟨({ State.reset with stop := { State.reset.stop with inA := false, inB := false } } : State), (1 : Nat), (30 : Nat),
     by decide +kernel⟩,
   ⟨(State.reset : State), by decide +kernel⟩,
   ⟨(((State.reset.set ⟨R.ckGrun, 9, 1⟩ 1).set (R.fbPctrlEn 5) 1).set (R.fbPstatLink 5) 1 : State), (5 : Nat),
     (flF State.reset 7 7 0 [] : FlueFrame), by decide +kernel⟩,
   ⟨(({ State.reset with stop := { State.reset.stop with freeSince := some 4 } }).set R.siStopState 1 : State), (4 : Nat),
     by decide +kernel⟩,
   ⟨({ (State.reset.set R.siStopState 2).setDie 4 { State.reset.dieAt 4 with stopped := true } with stop := { State.reset.stop with inA := false, inB := false } } : State), by decide +kernel⟩,
   ⟨(State.reset.set R.siStopState 1 : State), by decide +kernel⟩,
   ⟨({ State.reset with stop := { State.reset.stop with remoteEnd := some 4 } } : State), (4 : Nat), by decide +kernel⟩,
   ⟨({ State.reset with stop := { State.reset.stop with differAt := some 4 } } : State), (4 : Nat), by decide +kernel⟩,
   ⟨(State.reset.set R.siStopSwstop 1 : State), by decide +kernel⟩,
   ⟨(1 : Nat), by decide +kernel⟩,
   ⟨(((State.reset.set ⟨R.ckGrun, 9, 1⟩ 1).set (R.fbPctrlEn 5) 1).set (R.fbPstatLink 5) 1 : State), (5 : Nat),
     (flF State.reset 7 7 0 [] : FlueFrame), by decide +kernel⟩,
   ⟨(((State.reset.set ⟨R.ckGrun, 9, 1⟩ 1).set (R.fbPctrlEn 5) 1).set (R.fbPstatLink 5) 1 : State), (5 : Nat),
     (flF State.reset 7 7 0 [] : FlueFrame), by decide +kernel⟩⟩

/-- Each clause of FramesAdvanceAndLoopsStart with hypotheses: a state and operands that meet them. -/
theorem witness_FramesAdvanceAndLoopsStart :
    (∃ (s : State), (s.gateOn 4 = true)) ∧
    (∃ (s : State), (s.gateOn 4 = true) ∧ (s.flag R.ceCtrlEn = false) ∧ (engineAllowed s = true)) ∧
    (∃ (s : State), (s.gateOn 4 = true) ∧ (engineAllowed s = false)) ∧
    (∃ (s : State) (n : Nat), (s.gateOn 4 = true) ∧ (n < 64) ∧ (s.loopState n = 0) ∧ (startErr s n (s.loopShadow n) = 0)) ∧
    (∃ (s : State) (n : Nat), (s.gateOn 4 = true) ∧ (n < 64) ∧ (s.loopState n = 0) ∧ (startErr s n (s.loopShadow n) ≠ 0)) ∧
    (∃ (s : State) (n : Nat), (s.gateOn 4 = true) ∧ (n < 64) ∧ ([1, 2, 4].contains (s.loopState n) = true)) ∧
    (∃ (s : State) (n : Nat), (s.gateOn 4 = true) ∧ (n < 64) ∧ ([1, 2, 4].contains (s.loopState n) = false)) ∧
    (∃ (s : State) (n : Nat), (s.gateOn 4 = true) ∧ (n < 64) ∧ ([1, 2, 4].contains (s.loopState n) = false)
     ∧ (paramErr (s.loopShadow n) = 0)) ∧
    (∃ (s : State) (n : Nat), (s.gateOn 4 = true) ∧ (n < 64) ∧ ([1, 2, 4].contains (s.loopState n) = false)
     ∧ (paramErr (s.loopShadow n) ≠ 0)) ∧
    (∃ (s : State) (n : Nat), (s.gateOn 4 = true) ∧ (n < 64) ∧ ([1, 2, 4].contains (s.loopState n) = true)
     ∧ (paramErr (s.loopShadow n) = 0) ∧ (pWord (s.loopShadow n) 2 = pWord (s.loopAt n).active 2)
     ∧ (pWord (s.loopShadow n) 3 = pWord (s.loopAt n).active 3) ∧ (pFlag (s.loopShadow n) 2 = pFlag (s.loopAt n).active 2)) ∧
    (∃ (s : State) (n : Nat), (s.gateOn 4 = true) ∧ (n < 64) ∧ ([1, 2, 4].contains (s.loopState n) = true)
     ∧ (pWord (s.loopShadow n) 2 ≠ pWord (s.loopAt n).active 2)) ∧
    (∃ (s : State) (n : Nat), (s.gateOn 4 = true) ∧ (n < 64) ∧ (s.loopState n = 3)) ∧
    (∃ (s : State) (n : Nat), (s.gateOn 4 = true) ∧ (n < 64) ∧ (s.loopState n ≠ 3)) ∧
    (∃ (s : State) (n : Nat), (s.gateOn 4 = true) ∧ (n < 64) ∧ (s.loopState n ≠ 0) ∧ (s.loopState n ≠ 3)) :=
  ⟨⟨(State.reset.set ⟨R.ckGrun, 4, 1⟩ 1 : State), by decide +kernel⟩,
   ⟨((State.reset.set ⟨R.ckGrun, 4, 1⟩ 1).set R.ceCtrlEn 0 : State), by decide +kernel⟩,
   ⟨({ (State.reset.set ⟨R.ckGrun, 4, 1⟩ 1).set R.ckStatCal 0 with clk := { State.reset.clk with sysRef := 2 } } : State),
     by decide +kernel⟩,
   ⟨(State.reset.set ⟨R.ckGrun, 4, 1⟩ 1 : State), (63 : Nat), by decide +kernel⟩,
   ⟨((State.reset.set ⟨R.ckGrun, 4, 1⟩ 1).wr (R.ceLctrl 63 + 20) 0xBF800000 : State), (63 : Nat), by decide +kernel⟩,
   ⟨((State.reset.set ⟨R.ckGrun, 4, 1⟩ 1).set (R.ceLstatState 63) 4 : State), (63 : Nat), by decide +kernel⟩,
   ⟨(State.reset.set ⟨R.ckGrun, 4, 1⟩ 1 : State), (63 : Nat), by decide +kernel⟩,
   ⟨(State.reset.set ⟨R.ckGrun, 4, 1⟩ 1 : State), (63 : Nat), by decide +kernel⟩,
   ⟨((State.reset.set ⟨R.ckGrun, 4, 1⟩ 1).wr (R.ceLctrl 63 + 20) 0xBF800000 : State), (63 : Nat), by decide +kernel⟩,
   ⟨(((State.reset.set ⟨R.ckGrun, 4, 1⟩ 1).set (R.ceLstatState 63) 4).setLoop 63 { active := State.reset.loopShadow 63 } : State),
     (63 : Nat), by decide +kernel⟩,
   ⟨((State.reset.set ⟨R.ckGrun, 4, 1⟩ 1).set (R.ceLstatState 63) 4 : State), (63 : Nat), by decide +kernel⟩,
   ⟨((State.reset.set ⟨R.ckGrun, 4, 1⟩ 1).set (R.ceLstatState 63) 3 : State), (63 : Nat), by decide +kernel⟩,
   ⟨(State.reset.set ⟨R.ckGrun, 4, 1⟩ 1 : State), (63 : Nat), by decide +kernel⟩,
   ⟨((State.reset.set ⟨R.ckGrun, 4, 1⟩ 1).set (R.ceLstatState 63) 4 : State), (63 : Nat), by decide +kernel⟩⟩

/-- Each clause of ReclaimReleasesTheStages with hypotheses: a state and operands that meet them. -/
theorem witness_ReclaimReleasesTheStages :
    (∃ (s : State) (d : Nat), (d < 5) ∧ (s.gateOn 4 = true) ∧ (s.flag R.ceStatHeld = true)) ∧
    (∃ (s : State) (d : Nat), (d < 5) ∧ (s.gateOn 4 = true) ∧ (s.ce.reclaim = true) ∧ ((∀ k, k < 5 → (s.dieAt k).lgnd = false))) ∧
    (∃ (s : State) (d : Nat) (bad : Nat), (d < 5) ∧ (s.gateOn 4 = true) ∧ (s.ce.reclaim = true) ∧ ((s.dieAt d).hold = true)
     ∧ (bad / 2 ^ d % 2 = 1)) ∧
    (∃ (s : State) (d : Nat), (d < 5) ∧ (s.flag ⟨R.ceStat, 11 + d, 1⟩ = false) ∧ (3 ≤ (s.dieAt d).missed)) ∧
    (∃ (s : State) (d : Nat), (d < 5) ∧ (s.flag ⟨R.ceStat, 11 + d, 1⟩ = true) ∧ (3 ≤ (s.dieAt d).valid)) ∧
    (∃ (s : State) (d : Nat) (seq : Nat) (crc : Bool), (d < 5) ∧ (s.gateOn 4 = true) ∧ (statusValid s d seq crc = true)) ∧
    (∃ (s : State) (d : Nat) (seq : Nat) (crc : Bool), (d < 5) ∧ (s.gateOn 4 = true) ∧ (statusValid s d seq crc = false)) ∧
    (∃ (s : State) (d : Nat), (d < 5) ∧ (s.gateOn 4 = true) ∧ (s.ce.reclaim = true)) ∧
    (∃ (s : State) (d : Nat), (d < 5) ∧ (s.gateOn 4 = true) ∧ (s.flag R.ceStatHeld = false)) :=
  ⟨⟨((State.reset.set ⟨R.ckGrun, 4, 1⟩ 1).set R.ceStatHeld 1 : State), (4 : Nat), by decide +kernel⟩,
   ⟨({ State.reset.set ⟨R.ckGrun, 4, 1⟩ 1 with ce := { State.reset.ce with reclaim := true } } : State), (4 : Nat),
     by decide +kernel⟩,
   ⟨({ State.reset.set ⟨R.ckGrun, 4, 1⟩ 1 with ce := { State.reset.ce with reclaim := true } }.setDie 4 { State.reset.dieAt 4 with hold := true } : State), (4 : Nat), (31 : Nat), by decide +kernel⟩,
   ⟨(State.reset.setDie 4 { State.reset.dieAt 4 with missed := 3 } : State), (4 : Nat), by decide +kernel⟩,
   ⟨((State.reset.set ⟨R.ceStat, 15, 1⟩ 1).setDie 4 { State.reset.dieAt 4 with valid := 3 } : State), (4 : Nat), by decide +kernel⟩,
   ⟨(State.reset.set ⟨R.ckGrun, 4, 1⟩ 1 : State), (4 : Nat), (9 : Nat), (true : Bool), by decide +kernel⟩,
   ⟨(State.reset.set ⟨R.ckGrun, 4, 1⟩ 1 : State), (4 : Nat), (9 : Nat), (false : Bool), by decide +kernel⟩,
   ⟨({ State.reset.set ⟨R.ckGrun, 4, 1⟩ 1 with ce := { State.reset.ce with reclaim := true } } : State), (4 : Nat),
     by decide +kernel⟩,
   ⟨((State.reset.set ⟨R.ckGrun, 4, 1⟩ 1).set R.ceStatHeld 0 : State), (4 : Nat), by decide +kernel⟩⟩

/-- Each clause of SolenoidSequenceRuns with hypotheses: a state and operands that meet them. -/
theorem witness_SolenoidSequenceRuns :
    (∃ (s : State) (n : Nat), (n < 48) ∧ (oddHalf s n = false) ∧ (s.sdHeld n = false) ∧ (s.sdOn n = false)
     ∧ (s.sdArmed (n / 4) = true) ∧ (s.sdMode n = 1) ∧ (s.sdPhase n = 0) ∧ (n ∉ (s.sdB (n / 4)).queue)) ∧
    (∃ (s : State) (n : Nat) (l : List Nat), (n < 48) ∧ (oddHalf s n = false) ∧ ((s.sdB (n / 4)).queue = n :: l)
     ∧ (s.flag (R.sdBstatGranted (n / 4)) = false) ∧ (s.flag (R.sdBstatDefer (n / 4)) = false)) ∧
    (∃ (s : State) (n : Nat) (tpk : Nat) (uA : Nat), (n < 48) ∧ (oddHalf s n = false) ∧ (s.sdPhase n = 2)
     ∧ (tpk ≤ s.get (R.sdCtpkTpkMax n)) ∧ (31250 * (s.sdC n).peak ≤ uA) ∧ ((s.sdC n).dwell ≠ 0)) ∧
    (∃ (s : State) (n : Nat) (tpk : Nat) (uA : Nat), (n < 48) ∧ (oddHalf s n = false) ∧ (s.sdPhase n = 2)
     ∧ (tpk ≤ s.get (R.sdCtpkTpkMax n)) ∧ (31250 * (s.sdC n).peak ≤ uA) ∧ ((s.sdC n).dwell = 0)) ∧
    (∃ (s : State) (n : Nat), (n < 48) ∧ (oddHalf s n = false) ∧ (s.sdPhase n = 3)) ∧
    (∃ (s : State) (n : Nat), (n < 48) ∧ (oddHalf s n = false) ∧ (s.sdHeld n = false) ∧ (s.sdOn n = true) ∧ (s.sdPhase n = 4)) ∧
    (∃ (s : State) (n : Nat), (n < 48) ∧ (oddHalf s n = false) ∧ (s.sdPhase n = 6)) ∧
    (∃ (s : State) (n : Nat), (n < 48) ∧ (oddHalf s n = false) ∧ (s.sdHeld n = false)) ∧
    (∃ (s : State) (n : Nat), (n < 48) ∧ (oddHalf s n = false) ∧ (s.sdHeld n = true)) :=
  ⟨⟨((((State.reset.set (R.sdBctrlArm 1) 1).set (R.sdCctrlMode 6) 1)) : State), (6 : Nat), by decide +kernel⟩,
   ⟨(State.reset.setSdB 1 { queue := [6, 5] } : State), (6 : Nat), ([5] : List Nat), by decide +kernel⟩,
   ⟨(((State.reset.setSdPhase 6 2).set (R.sdCtpkTpkMax 6) 4000).setSdC 6 { dwell := 10, peak := 256 } : State), (6 : Nat),
     (4000 : Nat), (8000000 : Nat), by decide +kernel⟩,
   ⟨(((State.reset.setSdPhase 6 2).set (R.sdCtpkTpkMax 6) 4000).setSdC 6 { dwell := 0, peak := 256 } : State), (6 : Nat),
     (0 : Nat), (8000000 : Nat), by decide +kernel⟩,
   ⟨(State.reset.setSdPhase 6 3 : State), (6 : Nat), by decide +kernel⟩,
   ⟨((State.reset.set (R.sdCctrlOn 6) 1).setSdPhase 6 4 : State), (6 : Nat), by decide +kernel⟩,
   ⟨(State.reset.setSdPhase 6 6 : State), (6 : Nat), by decide +kernel⟩,
   ⟨(State.reset : State), (6 : Nat), by decide +kernel⟩,
   ⟨(State.reset.setDie 0 { hold := true } : State), (6 : Nat), by decide +kernel⟩⟩

/-- Each clause of SolenoidChannelsReport with hypotheses: a state and operands that meet them. -/
theorem witness_SolenoidChannelsReport :
    (∃ (s : State) (n : Nat), (n < 48) ∧ (oddHalf s n = false) ∧ (s.sdPhase n = 1) ∧ ((s.sdC n).late = false)) ∧
    (∃ (s : State) (n : Nat), (n < 48) ∧ (oddHalf s n = false) ∧ (s.sdPhase n = 2)) ∧
    (∃ (s : State) (n : Nat) (mA : Nat), (n < 48) ∧ (oddHalf s n = false) ∧ (s.sdPhase n = 2 ∨ s.sdPhase n = 3 ∨ s.sdPhase n = 4)
     ∧ (sdOver s n mA = true)) ∧
    (∃ (s : State) (n : Nat) (mA : Nat), (n < 48) ∧ (oddHalf s n = false) ∧ (s.sdPhase n = 2 ∨ s.sdPhase n = 3 ∨ s.sdPhase n = 4)
     ∧ (7 ≤ sdReference s n) ∧ (2000 * mA < 15625 * sdReference s n)) ∧
    (∃ (s : State) (n : Nat), (n < 48) ∧ (oddHalf s n = false) ∧ (s.sdHeld n = false) ∧ (s.sdOn n = false)) :=
  ⟨⟨(State.reset.setSdPhase 47 1 : State), (47 : Nat), by decide +kernel⟩,
   ⟨(State.reset.setSdPhase 47 2 : State), (47 : Nat), by decide +kernel⟩,
   ⟨((State.reset.setSdPhase 47 3).set (R.sdCcurPeak 47) 0 |>.set (R.sdCcurHold 47) 0 : State), (47 : Nat), (5000 : Nat),
     by decide +kernel⟩,
   ⟨((State.reset.setSdPhase 47 4).set (R.sdCcurHold 47) 7 : State), (47 : Nat), (0 : Nat), by decide +kernel⟩,
   ⟨(State.reset.setSdPhase 0 5 : State), (0 : Nat), by decide +kernel⟩⟩

/-- Each clause of SolenoidModesAndNozzles with hypotheses: a state and operands that meet them. -/
theorem witness_SolenoidModesAndNozzles :
    (∃ (s : State) (n : Nat) (v : Word), (n < 48) ∧ (s.sdHeld n = false) ∧ (s.sdArmed (n / 4) = true) ∧ (n % 2 = 0)
     ∧ ((bits v 1 2 ≠ s.sdMode n ∨ bits v 3 1 ≠ s.get (R.sdCctrlPair n) ∨ bits v 5 1 ≠ s.get (R.sdCctrlChop n)))) ∧
    (∃ (s : State) (n : Nat) (v : Word), (n < 48) ∧ (s.sdHeld n = false) ∧ (s.sdArmed (n / 4) = false) ∧ (bits v 3 1 = 0)) ∧
    (∃ (s : State) (n : Nat), (n < 48) ∧ (s.sdMode n = 3) ∧ (oddHalf s n = false)
     ∧ (s.dieFrame (n / 16) % s.get (R.sdCpwmPeriod n) = sdEffPhase s n) ∧ (s.sdOn n = true) ∧ (s.sdArmed (n / 4) = true)
     ∧ (s.sdPhase n = 0) ∧ (n ∉ (s.sdB (n / 4)).queue) ∧ (s.flag (R.sdCstatPwmOn n) = false)
     ∧ (s.get (R.sdCdutyDuty n) * s.get (R.sdCpwmPeriod n) / 1000 ≠ 0)) ∧
    (∃ (s : State) (n : Nat), (n < 48) ∧ (s.flag (R.sdCstatPwmOn n) = true) ∧ (oddHalf s n = false) ∧ ((s.sdC n).duty ≠ 1000)
     ∧ ((s.sdC n).onEnd ≤ s.dieFrame (n / 16))) ∧
    (∃ (s : State) (n : Nat), (n < 48) ∧ (s.sdHeld n = false)) ∧
    (∃ (s : State) (n : Nat), (n < 48) ∧ (s.sdHeld n = true)) ∧
    (∃ (s : State) (n : Nat), (n < 48) ∧ (s.sdMode n = 3) ∧ (oddHalf s n = false)
     ∧ (s.dieFrame (n / 16) % s.get (R.sdCpwmPeriod n) = sdEffPhase s n)
     ∧ ((s.sdOn n = false ∨ s.sdArmed (n / 4) = false ∨ s.sdPhase n = 5))) ∧
    (∃ (s : State) (n : Nat), (n < 48) ∧ (s.sdMode n = 3) ∧ (oddHalf s n = false)
     ∧ (s.dieFrame (n / 16) % s.get (R.sdCpwmPeriod n) = sdEffPhase s n) ∧ (s.sdOn n = true) ∧ (s.sdArmed (n / 4) = true)
     ∧ (s.sdPhase n ≠ 5) ∧ (s.get (R.sdCdutyDuty n) * s.get (R.sdCpwmPeriod n) / 1000 = 0)) ∧
    (∃ (s : State) (n : Nat), (n < 48) ∧ (s.sdMode n = 3) ∧ (oddHalf s n = false)
     ∧ (s.dieFrame (n / 16) % s.get (R.sdCpwmPeriod n) = sdEffPhase s n) ∧ (s.sdOn n = true) ∧ (s.sdArmed (n / 4) = true)
     ∧ (s.sdPhase n ≠ 5) ∧ (s.get (R.sdCdutyDuty n) * s.get (R.sdCpwmPeriod n) / 1000 ≠ 0) ∧ (s.flag (R.sdCstatPwmOn n) = true)) ∧
    (∃ (s : State) (n : Nat), (n < 48) ∧ (s.flag (R.sdCstatPwmOn n) = true) ∧ ((s.sdC n).duty ≠ 1000)
     ∧ ((s.sdC n).onEnd ≤ s.dieFrame (n / 16))) :=
  ⟨⟨(State.reset.set (R.sdBctrlArm 1) 1 : State), (6 : Nat), (6 : Word), by decide +kernel⟩,
   ⟨(State.reset : State), (6 : Nat), (7 : Word), by decide +kernel⟩,
   ⟨(((((State.reset.set (R.sdCctrlMode 6) 3).set (R.sdCpwmPeriod 6) 2000).set (R.sdCdutyDuty 6) 500).set (R.sdBctrlArm 1) 1).set (R.sdCctrlOn 6) 1 : State), (6 : Nat), by decide +kernel⟩,
   ⟨((State.reset.set (R.sdCstatPwmOn 6) 1).setSdPhase 6 1 : State), (6 : Nat), by decide +kernel⟩,
   ⟨(State.reset : State), (6 : Nat), by decide +kernel⟩,
   ⟨(State.reset.setDie 0 { hold := true } : State), (6 : Nat), by decide +kernel⟩,
   ⟨(((((State.reset.set (R.sdCctrlMode 6) 3).set (R.sdCpwmPeriod 6) 2000).set (R.sdCdutyDuty 6) 500).set (R.sdBctrlArm 1) 0).set (R.sdCctrlOn 6) 1 : State), (6 : Nat), by decide +kernel⟩,
   ⟨(((((State.reset.set (R.sdCctrlMode 6) 3).set (R.sdCpwmPeriod 6) 2000).set (R.sdCdutyDuty 6) 0).set (R.sdBctrlArm 1) 1).set (R.sdCctrlOn 6) 1 : State), (6 : Nat), by decide +kernel⟩,
   ⟨((((((State.reset.set (R.sdCctrlMode 6) 3).set (R.sdCpwmPeriod 6) 2000).set (R.sdCdutyDuty 6) 500).set (R.sdBctrlArm 1) 1).set (R.sdCctrlOn 6) 1).set (R.sdCstatPwmOn 6) 1 : State), (6 : Nat), by decide +kernel⟩,
   ⟨((State.reset.set (R.sdCstatPwmOn 6) 1).setSdPhase 6 1 : State), (6 : Nat), by decide +kernel⟩⟩

/-- Each clause of BanksArmAndDisarm with hypotheses: a state and operands that meet them. -/
theorem witness_BanksArmAndDisarm :
    (∃ (s : State) (b : Nat), (b < 12) ∧ (s.sdHeld (4 * b) = false) ∧ (s.sdArmed b = false) ∧ (sdArmIgnored s b = false)
     ∧ (sdArmErr s b = 0) ∧ ((s.sdB b).clamp = false)) ∧
    (∃ (s : State) (b : Nat), (b < 12) ∧ (s.sdHeld (4 * b) = false) ∧ (s.sdArmed b = false) ∧ (sdArmIgnored s b = false)
     ∧ (sdArmErr s b ≠ 0)) ∧
    (∃ (s : State) (b : Nat), (b < 12) ∧ (s.sdHeld (4 * b) = false) ∧ (s.get R.siStopState ≠ 0)) ∧
    (∃ (s : State) (b : Nat), (b < 12) ∧ (s.sdHeld (4 * b) = false) ∧ (s.get R.siStopState = 0)
     ∧ ((s.dieAt (b / 4)).stopped = false) ∧ (s.flag (R.sdBstatLock b) = true)) ∧
    (∃ (s : State) (b : Nat), (b < 12) ∧ (s.sdHeld (4 * b) = false) ∧ (s.sdArmed b = true) ∧ (s.flag (R.sdBstatDefer b) = false)) ∧
    (∃ (s : State) (b : Nat), (b < 12) ∧ (s.sdHeld (4 * b) = false)
     ∧ (leaked (s.sdB b).bucket (s.sdB b).leakAt s.now 600 < 1250000000000)) ∧
    (∃ (s : State) (b : Nat), (b < 12) ∧ (s.sdHeld (4 * b) = false)
     ∧ (1250000000000 ≤ leaked (s.sdB b).bucket (s.sdB b).leakAt s.now 600)) ∧
    (∃ (s : State) (b : Nat) (tj : Nat), (b < 12) ∧ (s.sdHeld (4 * b) = false) ∧ (tj ≤ 150)) ∧
    (∃ (s : State) (b : Nat) (tj : Nat), (b < 12) ∧ (s.sdHeld (4 * b) = false) ∧ (150 < tj)) ∧
    (∃ (s : State) (b : Nat), (b < 12) ∧ (s.sdHeld (4 * b) = false)) ∧
    (∃ (s : State) (b : Nat), (b < 12) ∧ (s.sdHeld (4 * b) = false) ∧ (s.sdArmed b = true) ∧ (s.flag (R.sdBstatDefer b) = true)) :=
  ⟨⟨(((State.reset.set R.siStopState 0).set (R.sdBmeasVbank 1) 2400).setDie 0 { stopped := false } : State), (1 : Nat),
     by decide +kernel⟩,
   ⟨(State.reset.set R.siStopState 1 : State), (1 : Nat), by decide +kernel⟩,
   ⟨(State.reset.set R.siStopState 2 : State), (1 : Nat), by decide +kernel⟩,
   ⟨(((State.reset.set R.siStopState 0).setDie 0 { stopped := false }).set (R.sdBstatLock 1) 1 : State), (1 : Nat),
     by decide +kernel⟩,
   ⟨(State.reset.set (R.sdBctrlArm 1) 1 : State), (1 : Nat), by decide +kernel⟩,
   ⟨(State.reset.setSdB 1 { bucket := 0 } : State), (1 : Nat), by decide +kernel⟩,
   ⟨(State.reset.setSdB 1 { bucket := 1250000000000 } : State), (1 : Nat), by decide +kernel⟩,
   ⟨(State.reset : State), (1 : Nat), (150 : Nat), by decide +kernel⟩,
   ⟨(State.reset : State), (1 : Nat), (151 : Nat), by decide +kernel⟩,
   ⟨(State.reset : State), (1 : Nat), by decide +kernel⟩,
   ⟨((State.reset.set (R.sdBctrlArm 1) 1).set (R.sdBstatDefer 1) 1 : State), (1 : Nat), by decide +kernel⟩⟩

/-- Each clause of BankClampAndSwitchProtect with hypotheses: a state and operands that meet them. -/
theorem witness_BankClampAndSwitchProtect :
    (∃ (s : State) (b : Nat) (uJ : Nat), (b < 12) ∧ ((s.sdB b).clamp = true) ∧ (uJ ≤ 500000)
     ∧ ((leaked (s.sdB b).bucket (s.sdB b).leakAt s.now 600 + uJ * 1000000) < 2500000000000)) ∧
    (∃ (s : State) (b : Nat) (uJ : Nat), (b < 12) ∧ ((s.sdB b).clamp = true)
     ∧ ((500000 < uJ ∨ 2500000000000 ≤ (leaked (s.sdB b).bucket (s.sdB b).leakAt s.now 600 + uJ * 1000000)))) ∧
    (∃ (b : Nat), (b < 12)) ∧
    (∃ (s : State) (b : Nat), (b < 12) ∧ (s.flag (R.sdBstatBswOn b) = true)) ∧
    (∃ (b : Nat) (tj : Nat), (b < 12) ∧ (175 ≤ tj)) ∧
    (∃ (s : State) (b : Nat), (b < 12) ∧ ((s.sdB b).clamp = true)) :=
  ⟨⟨(State.reset.setSdB 1 { bucket := 0, clamp := true } : State), (1 : Nat), (500000 : Nat), by decide +kernel⟩,
   ⟨(State.reset.setSdB 1 { bucket := 0, clamp := true } : State), (1 : Nat), (500001 : Nat), by decide +kernel⟩,
   ⟨(1 : Nat), by decide +kernel⟩,
   ⟨(State.reset.set (R.sdBstatBswOn 1) 1 : State), (1 : Nat), by decide +kernel⟩,
   ⟨(1 : Nat), (175 : Nat), by decide +kernel⟩,
   ⟨(State.reset.setSdB 1 { bucket := 0, clamp := true } : State), (1 : Nat), by decide +kernel⟩⟩

/-- Each clause of StagesHoldAndFail with hypotheses: a state and operands that meet them. -/
theorem witness_StagesHoldAndFail :
    (∃ (s : State) (d : Nat), (d < 3) ∧ ((s.dieAt d).hold = false)) ∧
    (∃ (s : State) (b : Nat) (th : Nat), (b < 12) ∧ ((s.sdB b).holdEnd = some th)) ∧
    (∃ (s : State) (b : Nat), (b < 12) ∧ ((s.sdB b).failed = true) ∧ (s.sdArmed b = true) ∧ ((∀ n ∈ bankChans b,
     (oddHalf s n = true ∨ s.get (R.sdCctrlFail n) = 0 ∨ (s.dieAt (b / 4)).lgndHold = true)
     ∧ (s.sdPhase n = 0 ∨ s.sdPhase n = 5)))) ∧
    (∃ (s : State) (k : Nat) (dv : Nat), (k < 2) ∧ (400 < dv) ∧ (s.flag (R.sdBstatDefer (6 * k)) = false)) ∧
    (∃ (s : State) (k : Nat) (dv : Nat), (k < 2) ∧ (dv < 380) ∧ (s.flag (R.sdBstatDefer (6 * k)) = true)) ∧
    (∃ (d : Nat), (d < 3)) ∧
    (∃ (d : Nat), (d < 5)) :=
  ⟨⟨(State.reset : State), (0 : Nat), by decide +kernel⟩,
   ⟨(State.reset.setSdB 1 { holdEnd := some 5 } : State), (1 : Nat), (5 : Nat), by decide +kernel⟩,
   ⟨((State.reset.setSdB 1 { failed := true }).set (R.sdBctrlArm 1) 1 : State), (1 : Nat), by decide +kernel⟩,
   ⟨(State.reset : State), (1 : Nat), (401 : Nat), by decide +kernel⟩,
   ⟨(State.reset.set (R.sdBstatDefer 6) 1 : State), (1 : Nat), (379 : Nat), by decide +kernel⟩,
   ⟨(2 : Nat), by decide +kernel⟩,
   ⟨(0 : Nat), by decide +kernel⟩⟩

/-- Each clause of SwitchesTurnOnAndOff with hypotheses: a state and operands that meet them. -/
theorem witness_SwitchesTurnOnAndOff :
    (∃ (s : State) (n : Nat), (n < 32) ∧ (s.lsHeld n = false) ∧ (s.lsOn n = false) ∧ (s.lsArmed (n / 4) = true) ∧ (s.lsMode n = 1)
     ∧ (s.lsPhase n = 0) ∧ (s.flag (R.lsGstatDefer (n / 4)) = false) ∧ ((s.lsC n).clamp = false)) ∧
    (∃ (s : State) (n : Nat), (n < 32) ∧ (s.flag (R.lsCstatInr n) = true)) ∧
    (∃ (s : State) (n : Nat), (n < 32) ∧ (s.lsHeld n = false) ∧ (s.lsOn n = true) ∧ (s.lsArmed (n / 4) = true) ∧ (s.lsPhase n = 1)
     ∧ ((s.lsC n).out = true) ∧ (s.flag (R.lsGstatDefer (n / 4)) = false)) ∧
    (∃ (s : State) (n : Nat) (v : Word), (n < 32) ∧ (s.lsHeld n = false) ∧ (s.lsArmed (n / 4) = true)
     ∧ ((bits v 1 2 ≠ s.lsMode n ∨ bits v 3 1 ≠ s.get (R.lsCctrlInduct n)))) ∧
    (∃ (s : State) (n : Nat), (n < 32) ∧ (s.lsHeld n = false) ∧ (s.lsArmed (n / 4) = false)) ∧
    (∃ (s : State) (n : Nat), (n < 32) ∧ (s.lsHeld n = false) ∧ (s.lsOn n = false)) ∧
    (∃ (s : State) (n : Nat), (n < 32) ∧ (s.lsHeld n = false)) ∧
    (∃ (s : State) (n : Nat), (n < 32) ∧ (s.lsHeld n = true)) :=
  ⟨⟨((State.reset.set (R.lsGctrlArm 7) 1).set (R.lsCctrlMode 31) 1 : State), (31 : Nat), by decide +kernel⟩,
   ⟨(State.reset.set (R.lsCstatInr 31) 1 : State), (31 : Nat), by decide +kernel⟩,
   ⟨((((State.reset.set (R.lsGctrlArm 7) 1).set (R.lsCctrlOn 31) 1).setLsPhase 31 1).setLsC 31 { out := true } : State),
     (31 : Nat), by decide +kernel⟩,
   ⟨(State.reset.set (R.lsGctrlArm 7) 1 : State), (31 : Nat), (2 : Word), by decide +kernel⟩,
   ⟨(State.reset : State), (31 : Nat), by decide +kernel⟩,
   ⟨(State.reset.setLsPhase 31 4 : State), (31 : Nat), by decide +kernel⟩,
   ⟨(State.reset : State), (31 : Nat), by decide +kernel⟩,
   ⟨(State.reset.setDie 4 { hold := true } : State), (31 : Nat), by decide +kernel⟩⟩

/-- Each clause of SwitchCyclesRun with hypotheses: a state and operands that meet them. -/
theorem witness_SwitchCyclesRun :
    (∃ (s : State) (n : Nat), (n < 32) ∧ (s.dieFrame (3 + n / 16) % s.get (R.lsCpwmPeriod n) = s.get (R.lsCpwmPhase n))
     ∧ (s.flag (R.lsGstatDefer (n / 4)) = false) ∧ ((s.lsPhase n = 1 ∨ s.lsPhase n = 2)) ∧ (s.lsMode n = 2)
     ∧ ((s.lsC n).clamp = false)) ∧
    (∃ (s : State) (n : Nat), (n < 32) ∧ (s.dieFrame (3 + n / 16) % s.get (R.lsCpwmPeriod n) = s.get (R.lsCpwmPhase n))
     ∧ (s.flag (R.lsGstatDefer (n / 4)) = false) ∧ ((s.lsPhase n = 1 ∨ s.lsPhase n = 2)) ∧ (s.lsMode n = 3) ∧ ((s.lsC n).soft = 1)
     ∧ (s.get (R.lsCsoftSsStart n) ≤ 4000)) ∧
    (∃ (s : State) (n : Nat), (n < 32) ∧ (s.dieFrame (3 + n / 16) % s.get (R.lsCpwmPeriod n) = s.get (R.lsCpwmPhase n))
     ∧ (s.flag (R.lsGstatDefer (n / 4)) = false) ∧ ((s.lsPhase n = 1 ∨ s.lsPhase n = 2)) ∧ (s.lsMode n = 2)
     ∧ ((s.lsC n).out = true) ∧ ((s.lsC n).duty < 4000) ∧ ((s.lsC n).soft ≠ 3)) ∧
    (∃ (s : State) (n : Nat), (n < 32) ∧ (s.dieFrame (3 + n / 16) % s.get (R.lsCpwmPeriod n) = s.get (R.lsCpwmPhase n))
     ∧ (s.flag (R.lsGstatDefer (n / 4)) = false) ∧ ((s.lsPhase n = 1 ∨ s.lsPhase n = 2))) ∧
    (∃ (s : State) (n : Nat), (n < 32) ∧ (s.dieFrame (3 + n / 16) % s.get (R.lsCpwmPeriod n) = s.get (R.lsCpwmPhase n))
     ∧ (s.flag (R.lsGstatDefer (n / 4)) = false) ∧ ((s.lsPhase n = 1 ∨ s.lsPhase n = 2)) ∧ (s.lsMode n = 2)) ∧
    (∃ (s : State) (n : Nat), (n < 32) ∧ (s.dieFrame (3 + n / 16) % s.get (R.lsCpwmPeriod n) = s.get (R.lsCpwmPhase n))
     ∧ (s.flag (R.lsGstatDefer (n / 4)) = false) ∧ ((s.lsPhase n = 1 ∨ s.lsPhase n = 2)) ∧ (s.lsMode n = 3)
     ∧ ((s.lsC n).soft ≠ 3)) ∧
    (∃ (s : State) (n : Nat), (n < 32) ∧ (s.dieFrame (3 + n / 16) % s.get (R.lsCpwmPeriod n) = s.get (R.lsCpwmPhase n))
     ∧ (s.flag (R.lsGstatDefer (n / 4)) = false) ∧ ((s.lsPhase n = 1 ∨ s.lsPhase n = 2)) ∧ (s.lsMode n = 3)
     ∧ ((s.lsC n).soft = 3)) ∧
    (∃ (s : State) (n : Nat), (n < 32) ∧ (s.dieFrame (3 + n / 16) % s.get (R.lsCpwmPeriod n) = s.get (R.lsCpwmPhase n))
     ∧ (s.flag (R.lsGstatDefer (n / 4)) = false) ∧ ((s.lsPhase n = 1 ∨ s.lsPhase n = 2)) ∧ ((s.lsMode n = 2 ∨ s.lsMode n = 3))
     ∧ ((s.lsC n).out = true) ∧ ((s.lsC n).duty < 4000) ∧ ((s.lsC n).soft ≠ 3)) :=
  ⟨⟨((((State.reset.setLsPhase 7 1).set (R.lsCctrlMode 7) 2).set (R.lsCpwmPeriod 7) 1000).set (R.lsCdutyDuty 7) 1 : State),
     (7 : Nat), by decide +kernel⟩,
   ⟨((((State.reset.setLsPhase 7 1).set (R.lsCctrlMode 7) 3).set (R.lsCpwmPeriod 7) 1000).setLsC 7 { soft := 1 } : State),
     (7 : Nat), by decide +kernel⟩,
   ⟨((((State.reset.setLsPhase 7 1).set (R.lsCctrlMode 7) 2).set (R.lsCpwmPeriod 7) 1000).setLsC 7 { out := true, duty := 3999 } : State), (7 : Nat), by decide +kernel⟩,
   ⟨((State.reset.setLsPhase 7 1).set (R.lsCpwmPeriod 7) 1000 : State), (7 : Nat), by decide +kernel⟩,
   ⟨(((State.reset.setLsPhase 7 1).set (R.lsCctrlMode 7) 2).set (R.lsCpwmPeriod 7) 1000 : State), (7 : Nat), by decide +kernel⟩,
   ⟨((((State.reset.setLsPhase 7 2).set (R.lsCctrlMode 7) 3).set (R.lsCpwmPeriod 7) 1000).setLsC 7 { soft := 2 } : State),
     (7 : Nat), by decide +kernel⟩,
   ⟨((((State.reset.setLsPhase 7 1).set (R.lsCctrlMode 7) 3).set (R.lsCpwmPeriod 7) 1000).setLsC 7 { soft := 3 } : State),
     (7 : Nat), by decide +kernel⟩,
   ⟨((((State.reset.setLsPhase 7 1).set (R.lsCctrlMode 7) 3).set (R.lsCpwmPeriod 7) 1000).setLsC 7 { out := true, duty := 3999 } : State), (7 : Nat), by decide +kernel⟩⟩

/-- Each clause of SwitchesProtectThemselves with hypotheses: a state and operands that meet them. -/
theorem witness_SwitchesProtectThemselves :
    (∃ (s : State) (n : Nat), (n < 32) ∧ ((s.lsC n).out = true)) ∧
    (∃ (s : State) (n : Nat) (tj : Nat) (tref : Int), (n < 32) ∧ ((s.lsPhase n = 1 ∨ s.lsPhase n = 2)) ∧ (175 ≤ tj)
     ∧ ((tj : Int) - tref < 60) ∧ ((s.lsC n).restarts < s.get (R.lsCinrRetry n))) ∧
    (∃ (s : State) (n : Nat) (tj : Nat) (tref : Int), (n < 32) ∧ ((s.lsPhase n = 1 ∨ s.lsPhase n = 2)) ∧ (60 ≤ (tj : Int) - tref)
     ∧ (s.get (R.lsCinrRetry n) ≤ (s.lsC n).restarts)) ∧
    (∃ (s : State) (n : Nat) (tj : Nat) (tref : Int), (n < 32) ∧ (s.lsPhase n = 3) ∧ (tj ≤ 150) ∧ ((tj : Int) - tref ≤ 35)
     ∧ (s.flag (R.lsGstatDefer (n / 4)) = false) ∧ (s.lsOn n = true) ∧ (s.lsArmed (n / 4) = true) ∧ (s.lsMode n = 1)
     ∧ ((s.lsC n).clamp = false)) ∧
    (∃ (s : State) (n : Nat) (t0 : Nat), (n < 32) ∧ ((s.lsC n).lastOn = some t0)) ∧
    (∃ (s : State) (n : Nat), (n < 32) ∧ ((s.lsPhase n = 1 ∨ s.lsPhase n = 2))) ∧
    (∃ (s : State) (n : Nat), (n < 32) ∧ ((s.lsC n).out = false) ∧ (s.flag (R.lsCctrlOldEn n) = true)) ∧
    (∃ (s : State) (n : Nat), (n < 32) ∧ ((s.lsC n).out = false)) ∧
    (∃ (s : State) (n : Nat) (tj : Nat) (tref : Int), (n < 32) ∧ ((s.lsPhase n = 1 ∨ s.lsPhase n = 2 ∨ (s.lsPhase n = 6
     ∧ (s.lsC n).out = true))) ∧ ((175 ≤ tj ∨ 60 ≤ (tj : Int) - tref))) ∧
    (∃ (s : State) (n : Nat) (tj : Nat) (tref : Int), (n < 32) ∧ (s.lsPhase n = 3) ∧ (tj ≤ 150) ∧ ((tj : Int) - tref ≤ 35)
     ∧ (s.flag (R.lsGstatDefer (n / 4)) = false) ∧ (s.lsOn n = true) ∧ (s.lsArmed (n / 4) = true) ∧ (s.lsMode n ≠ 0)) ∧
    (∃ (s : State) (n : Nat) (tj : Nat) (tref : Int), (n < 32) ∧ (s.lsPhase n = 3) ∧ (tj ≤ 150) ∧ ((tj : Int) - tref ≤ 35)
     ∧ (s.flag (R.lsGstatDefer (n / 4)) = false) ∧ ((s.lsOn n = false ∨ s.lsArmed (n / 4) = false ∨ s.lsMode n = 0))) :=
  ⟨⟨(State.reset.setLsC 31 { out := true } : State), (31 : Nat), by decide +kernel⟩,
   ⟨((State.reset.setLsPhase 31 1).set (R.lsCinrRetry 31) 1 : State), (31 : Nat), (175 : Nat), (116 : Int), by decide +kernel⟩,
   ⟨((State.reset.setLsPhase 31 2).setLsC 31 { restarts := 99 } : State), (31 : Nat), (60 : Nat), (0 : Int), by decide +kernel⟩,
   ⟨((((State.reset.setLsPhase 31 3).set (R.lsGctrlArm 7) 1).set (R.lsCctrlOn 31) 1).set (R.lsCctrlMode 31) 1 : State),
     (31 : Nat), (150 : Nat), (115 : Int), by decide +kernel⟩,
   ⟨(State.reset.setLsC 31 { lastOn := some 4 } : State), (31 : Nat), (4 : Nat), by decide +kernel⟩,
   ⟨(State.reset.setLsPhase 31 1 : State), (31 : Nat), by decide +kernel⟩,
   ⟨(State.reset.set (R.lsCctrlOldEn 31) 1 : State), (31 : Nat), by decide +kernel⟩,
   ⟨(State.reset : State), (31 : Nat), by decide +kernel⟩,
   ⟨((State.reset.setLsPhase 31 6).setLsC 31 { out := true } : State), (31 : Nat), (175 : Nat), (120 : Int), by decide +kernel⟩,
   ⟨((((State.reset.setLsPhase 31 3).set (R.lsGctrlArm 7) 1).set (R.lsCctrlOn 31) 1).set (R.lsCctrlMode 31) 2 : State),
     (31 : Nat), (150 : Nat), (115 : Int), by decide +kernel⟩,
   ⟨(State.reset.setLsPhase 31 3 : State), (31 : Nat), (150 : Nat), (115 : Int), by decide +kernel⟩⟩

/-- Each clause of SwitchClampsAreBudgeted with hypotheses: a state and operands that meet them. -/
theorem witness_SwitchClampsAreBudgeted :
    (∃ (n : Nat), (n < 32)) ∧
    (∃ (s : State) (n : Nat) (uJ : Nat), (n < 32) ∧ ((s.lsC n).clamp = true) ∧ (uJ ≤ (if n < 8 then 400000 else 120000))
     ∧ ((leaked (s.lsC n).bucket (s.lsC n).leakAt s.now (if n < 8 then 500 else 150) + uJ * 1000000) < (if n < 8 then 2000000000000 else 600000000000))) ∧
    (∃ (s : State) (n : Nat) (uJ : Nat), (n < 32) ∧ ((s.lsC n).clamp = true)
     ∧ (((if n < 8 then 400000 else 120000) < uJ ∨ (if n < 8 then 2000000000000 else 600000000000) ≤ (leaked (s.lsC n).bucket (s.lsC n).leakAt s.now (if n < 8 then 500 else 150) + uJ * 1000000)))) ∧
    (∃ (s : State) (n : Nat), (n < 32) ∧ (s.lsHeld n = false)
     ∧ (leaked (s.lsC n).bucket (s.lsC n).leakAt s.now (if n < 8 then 500 else 150) < (if n < 8 then 1000000000000 else 300000000000))) ∧
    (∃ (s : State) (n : Nat), (n < 32) ∧ (s.lsHeld n = false)
     ∧ ((if n < 8 then 1000000000000 else 300000000000) ≤ leaked (s.lsC n).bucket (s.lsC n).leakAt s.now (if n < 8 then 500 else 150))) ∧
    (∃ (s : State) (n : Nat), (n < 32) ∧ ((s.lsC n).clamp = true)) :=
  ⟨⟨(7 : Nat), by decide +kernel⟩,
   ⟨(State.reset.setLsC 7 { bucket := 0, clamp := true } : State), (7 : Nat), (400000 : Nat), by decide +kernel⟩,
   ⟨(State.reset.setLsC 7 { bucket := 0, clamp := true } : State), (7 : Nat), (400001 : Nat), by decide +kernel⟩,
   ⟨(State.reset.setLsC 7 { bucket := 999999999999 } : State), (7 : Nat), by decide +kernel⟩,
   ⟨(State.reset.setLsC 7 { bucket := 1000000000000 } : State), (7 : Nat), by decide +kernel⟩,
   ⟨(State.reset.setLsC 7 { bucket := 0, clamp := true } : State), (7 : Nat), by decide +kernel⟩⟩

/-- Each clause of GroupsArmHoldAndDefer with hypotheses: a state and operands that meet them. -/
theorem witness_GroupsArmHoldAndDefer :
    (∃ (s : State) (g : Nat), (g < 8) ∧ (s.lsArmed g = false) ∧ (lsArmIgnored s g = false) ∧ (lsArmErr s g = 0)) ∧
    (∃ (s : State) (g : Nat), (g < 8) ∧ (s.lsArmed g = false) ∧ (lsArmIgnored s g = false) ∧ (lsArmErr s g ≠ 0)) ∧
    (∃ (s : State) (g : Nat), (g < 8) ∧ (s.get R.siStopState ≠ 0)) ∧
    (∃ (s : State) (g : Nat), (g < 8) ∧ (s.lsHeld (4 * g) = false) ∧ (s.lsArmed g = true) ∧ (s.flag (R.lsGstatDefer g) = false)) ∧
    (∃ (s : State) (g : Nat) (th : Nat), (g < 8) ∧ ((s.lsG g).holdEnd = some th)) ∧
    (∃ (s : State) (g : Nat) (k : Nat) (dv : Nat), (g < 8) ∧ ((k = 2 ∨ k = 3)) ∧ (400 < dv)
     ∧ (s.flag (R.lsGstatDefer (4 * (k - 2))) = false)) ∧
    (∃ (s : State) (g : Nat) (k : Nat) (dv : Nat), (g < 8) ∧ ((k = 2 ∨ k = 3)) ∧ (dv < 380)
     ∧ (s.flag (R.lsGstatDefer (4 * (k - 2))) = true)) ∧
    (∃ (g : Nat) (d : Nat), (g < 8) ∧ ((d = 3 ∨ d = 4))) ∧
    (∃ (g : Nat), (g < 8)) ∧
    (∃ (s : State) (g : Nat), (g < 8) ∧ (s.lsHeld (4 * g) = false)) :=
  ⟨⟨(((State.reset.set R.siStopState 0).set (R.lsGmeasVgrp 1) 600).setDie 3 { stopped := false } : State), (1 : Nat),
     by decide +kernel⟩,
   ⟨(State.reset.set R.siStopState 0 : State), (1 : Nat), by decide +kernel⟩,
   ⟨(State.reset : State), (1 : Nat), by decide +kernel⟩,
   ⟨(State.reset.set (R.lsGctrlArm 1) 1 : State), (1 : Nat), by decide +kernel⟩,
   ⟨(State.reset.setLsG 1 { holdEnd := some 7 } : State), (1 : Nat), (7 : Nat), by decide +kernel⟩,
   ⟨(State.reset : State), (1 : Nat), (3 : Nat), (401 : Nat), by decide +kernel⟩,
   ⟨(State.reset.set (R.lsGstatDefer 0) 1 : State), (1 : Nat), (2 : Nat), (379 : Nat), by decide +kernel⟩,
   ⟨(7 : Nat), (4 : Nat), by decide +kernel⟩,
   ⟨(1 : Nat), by decide +kernel⟩,
   ⟨(State.reset : State), (1 : Nat), by decide +kernel⟩⟩

/-- Each clause of GroundFaultsStopTheDies with hypotheses: a state and operands that meet them. -/
theorem witness_GroundFaultsStopTheDies :
    (∃ (s : State) (d : Nat), (d < 5) ∧ ((s.dieAt d).pgnd = false)) ∧
    (∃ (d : Nat), (d < 5)) ∧
    (∃ (s : State) (d : Nat), (d < 5) ∧ ((s.dieAt d).lgnd = false)) ∧
    (∃ (s : State) (d : Nat), (d < 5) ∧ ((s.dieAt d).lgnd = true)) :=
  ⟨⟨(State.reset : State), (4 : Nat), by decide +kernel⟩,
   ⟨(4 : Nat), by decide +kernel⟩,
   ⟨(State.reset : State), (4 : Nat), by decide +kernel⟩,
   ⟨(State.reset.setDie 4 { lgnd := true } : State), (4 : Nat), by decide +kernel⟩⟩

/-- Each clause of AnalogInputsSample with hypotheses: a state and operands that meet them. -/
theorem witness_AnalogInputsSample :
    (∃ (s : State) (n : Nat) (k : Nat), (n < 48) ∧ (k < 4) ∧ (s.gateOn 5 = true) ∧ (aiBlocked s n = false)
     ∧ ((s.get (R.siAicfgMode n) ≠ 6 ∨ s.supplyOn (s.get (R.siAicfgRsup n)) = true)) ∧ (s.get (R.siAitauTau n) = 0)) ∧
    (∃ (s : State) (n : Nat) (k : Nat), (n < 48) ∧ (k < 4) ∧ (s.gateOn 5 = true) ∧ (aiBlocked s n = false)
     ∧ (s.get (R.siAicfgMode n) = 6) ∧ (s.supplyOn (s.get (R.siAicfgRsup n)) = false)) ∧
    (∃ (s : State) (n : Nat) (k : Nat) (v : Word), (n < 48) ∧ (k < 4) ∧ (s.gateOn 5 = true) ∧ (bit v 9 = false)
     ∧ (1000000 * (conversions (converterWords s n (applyFields (fieldsAt (R.siAicfg n)) (s.rd (R.siAicfg n)).toNat v.toNat))).2 < (conversions (converterWords s n (applyFields (fieldsAt (R.siAicfg n)) (s.rd (R.siAicfg n)).toNat v.toNat))).1)) ∧
    (∃ (s : State) (n : Nat) (k : Nat) (v : Word), (n < 48) ∧ (k < 4) ∧ (s.gateOn 5 = true) ∧ (bit v 9 = false)
     ∧ ((conversions (converterWords s n (applyFields (fieldsAt (R.siAicfg n)) (s.rd (R.siAicfg n)).toNat v.toNat))).1 ≤ 1000000 * (conversions (converterWords s n (applyFields (fieldsAt (R.siAicfg n)) (s.rd (R.siAicfg n)).toNat v.toNat))).2) ∧ (illegal (fieldsAt (R.siAicfg n)) v.toNat = false)) ∧
    (∃ (s : State) (n : Nat) (k : Nat), (n < 48) ∧ (k < 4) ∧ (s.gateOn 5 = true) ∧ (s.get (R.siAicfgMode n) = 5)) ∧
    (∃ (s : State) (n : Nat) (k : Nat), (n < 48) ∧ (k < 4) ∧ (s.gateOn 5 = true) ∧ (s.get (R.siAicfgMode n) = 4)) ∧
    (∃ (s : State) (n : Nat) (k : Nat), (n < 48) ∧ (k < 4) ∧ (s.gateOn 5 = true)) ∧
    (∃ (s : State) (n : Nat) (k : Nat) (mV : Nat) (mA : Nat), (n < 48) ∧ (k < 4) ∧ (s.gateOn 5 = true)
     ∧ (s.flag ⟨R.siSpctrl, 4 + k, 1⟩ = false) ∧ ((s.flag ⟨R.siSpctrl, k, 1⟩ = true ∨ 5500 < mV)) ∧ (mV < 65536) ∧ (mA < 65536)) ∧
    (∃ (s : State) (n : Nat) (k : Nat), (n < 48) ∧ (k < 4) ∧ (s.gateOn 5 = true) ∧ (aiBlocked s n = false)
     ∧ ((s.get (R.siAicfgMode n) ≠ 6 ∨ s.supplyOn (s.get (R.siAicfgRsup n)) = true)) ∧ (s.get (R.siAitauTau n) ≠ 0)) :=
  ⟨⟨((State.reset.set ⟨R.ckGrun, 5, 1⟩ 1).set (R.siAicfgMode 47) 1 : State), (47 : Nat), (3 : Nat), by decide +kernel⟩,
   ⟨(((State.reset.set ⟨R.ckGrun, 5, 1⟩ 1).set (R.siAicfgMode 47) 6).set R.siSpctrlEn 0 : State), (47 : Nat), (3 : Nat),
     by decide +kernel⟩,
   ⟨((((State.reset.set ⟨R.ckGrun, 5, 1⟩ 1).wr (R.siAicfg 32) 0x10101).wr (R.siAicfg 33) 0x10101).wr (R.siAicfg 34) 0x10101 : State), (47 : Nat), (3 : Nat), (0x10101 : Word), by decide +kernel⟩,
   ⟨(State.reset.set ⟨R.ckGrun, 5, 1⟩ 1 : State), (47 : Nat), (3 : Nat), (0x000A0001 : Word), by decide +kernel⟩,
   ⟨((State.reset.set ⟨R.ckGrun, 5, 1⟩ 1).set (R.siAicfgMode 47) 5 : State), (47 : Nat), (3 : Nat), by decide +kernel⟩,
   ⟨((State.reset.set ⟨R.ckGrun, 5, 1⟩ 1).set (R.siAicfgMode 47) 4 : State), (47 : Nat), (3 : Nat), by decide +kernel⟩,
   ⟨(State.reset.set ⟨R.ckGrun, 5, 1⟩ 1 : State), (47 : Nat), (3 : Nat), by decide +kernel⟩,
   ⟨((State.reset.set ⟨R.ckGrun, 5, 1⟩ 1).set R.siSpctrlEn 15 : State), (47 : Nat), (3 : Nat), (5600 : Nat), (310 : Nat),
     by decide +kernel⟩,
   ⟨(((State.reset.set ⟨R.ckGrun, 5, 1⟩ 1).set (R.siAicfgMode 47) 1).set (R.siAitauTau 47) 5 : State), (47 : Nat), (3 : Nat),
     by decide +kernel⟩⟩

/-- Each clause of PulseInputsMeasure with hypotheses: a state and operands that meet them. -/
theorem witness_PulseInputsMeasure :
    (∃ (s : State) (n : Nat) (t0 : Time), (n < 24) ∧ (s.gateOn 5 = true) ∧ (t0 < 2 ^ 64)
     ∧ ((s.get (R.siPicfgMode n) = 1 ∨ s.get (R.siPicfgMode n) = 2 ∨ s.get (R.siPicfgMode n) = 3))) ∧
    (∃ (s : State) (n : Nat) (t0 : Time), (n < 24) ∧ (s.gateOn 5 = true) ∧ (t0 < 2 ^ 64) ∧ (s.get (R.siPicfgMode (pairOf n)) = 4)
     ∧ (s.get (R.siPicfgMode (pairOf n + 1)) = 4)) ∧
    (∃ (s : State) (n : Nat) (t0 : Time), (n < 24) ∧ (s.gateOn 5 = true) ∧ (t0 < 2 ^ 64) ∧ (s.get (R.siPicfgMode n) = 3)) ∧
    (∃ (s : State) (n : Nat) (m : Nat) (t0 : Time) (r : Time), (n < 24) ∧ (s.gateOn 5 = true) ∧ (t0 < 2 ^ 64)
     ∧ (s.get (R.siPicfgMode n) = 1) ∧ ((s.piOf n).tRef = some r) ∧ ((s.piOf n).edges = (m : Int)) ∧ (m ≠ 0)
     ∧ (r < (s.piOf n).tLast)) ∧
    (∃ (s : State) (n : Nat) (t0 : Time) (r : Time), (n < 24) ∧ (s.gateOn 5 = true) ∧ (t0 < 2 ^ 64)
     ∧ (s.get (R.siPicfgMode n) = 1) ∧ ((s.piOf n).tRef = some r) ∧ ((s.piOf n).tLast ≤ r)
     ∧ ((s.piOf n).tLast + ms (s.get (R.siPitoZto n)) < gridNext (s.get (R.siPicfgPub n) * 100000) (s.piOf n).lastPub s.time.dev)) ∧
    (∃ (s : State) (n : Nat) (t0 : Time), (n < 24) ∧ (s.gateOn 5 = true) ∧ (t0 < 2 ^ 64) ∧ (s.get (R.siPicfgMode n) ≠ 4)) ∧
    (∃ (s : State) (n : Nat) (t0 : Time), (n < 24) ∧ (s.gateOn 5 = true) ∧ (t0 < 2 ^ 64) ∧ (s.get (R.siPicfgMode n) = 4)) ∧
    (∃ (s : State) (n : Nat) (t0 : Time) (lv : Bool), (n < 24) ∧ (s.gateOn 5 = true) ∧ (t0 < 2 ^ 64)
     ∧ ((s.get (R.siPicfgMode n) = 1 ∨ s.get (R.siPicfgMode n) = 2 ∨ s.get (R.siPicfgMode n) = 3))
     ∧ (lv ≠ (s.get (R.siPicfgEdge n) == 0))) ∧
    (∃ (s : State) (n : Nat) (t0 : Time), (n < 24) ∧ (s.gateOn 5 = true) ∧ (t0 < 2 ^ 64) ∧ (s.get (R.siPicfgMode (pairOf n)) = 4)
     ∧ (s.get (R.siPicfgMode (pairOf n + 1)) = 4) ∧ (n ≠ pairOf n)) ∧
    (∃ (s : State) (n : Nat) (t0 : Time) (f : F32) (stamp : Time) (q : PulseIn), (n < 24) ∧ (s.gateOn 5 = true) ∧ (t0 < 2 ^ 64)
     ∧ ((s.get (R.siPicfgMode n) = 1 ∨ s.get (R.siPicfgMode n) = 2 ∨ (n = pairOf n ∧ s.get (R.siPicfgMode n) = 4
     ∧ s.get (R.siPicfgMode (n + 1)) = 4)))
     ∧ (pulseFrequency { s.piOf n with lastPub := some (gridNext (s.get (R.siPicfgPub n) * 100000) (s.piOf n).lastPub s.time.dev) } (s.get (R.siPitoZto n)) (gridNext (s.get (R.siPicfgPub n) * 100000) (s.piOf n).lastPub s.time.dev) = some (f, stamp, q))) :=
  ⟨⟨((State.reset.set ⟨R.ckGrun, 5, 1⟩ 1).set (R.siPicfgMode 23) 3 : State), (23 : Nat), (5000 : Time), by decide +kernel⟩,
   ⟨(((State.reset.set ⟨R.ckGrun, 5, 1⟩ 1).set (R.siPicfgMode 22) 4).set (R.siPicfgMode 23) 4 : State), (23 : Nat), (5000 : Time),
     by decide +kernel⟩,
   ⟨((State.reset.set ⟨R.ckGrun, 5, 1⟩ 1).set (R.siPicfgMode 23) 3 : State), (23 : Nat), (5000 : Time), by decide +kernel⟩,
   ⟨(((State.reset.set ⟨R.ckGrun, 5, 1⟩ 1).set (R.siPicfgMode 23) 1).setPi 23 { tRef := some 0, tLast := 1, edges := 1 } : State),
     (23 : Nat), (1 : Nat), (5000 : Time), (0 : Time), by decide +kernel⟩,
   ⟨(((State.reset.set ⟨R.ckGrun, 5, 1⟩ 1).set (R.siPicfgMode 23) 1).setPi 23 { tRef := some 1, tLast := 1, lastPub := some 2000000000000 } : State), (23 : Nat), (5000 : Time), (1 : Time), by decide +kernel⟩,
   ⟨(State.reset.set ⟨R.ckGrun, 5, 1⟩ 1 : State), (23 : Nat), (5000 : Time), by decide +kernel⟩,
   ⟨(((State.reset.set ⟨R.ckGrun, 5, 1⟩ 1).set (R.siPicfgMode 22) 4).set (R.siPicfgMode 23) 4 : State), (23 : Nat), (5000 : Time),
     by decide +kernel⟩,
   ⟨((State.reset.set ⟨R.ckGrun, 5, 1⟩ 1).set (R.siPicfgMode 23) 1 : State), (23 : Nat), (5000 : Time), (false : Bool),
     by decide +kernel⟩,
   ⟨(((State.reset.set ⟨R.ckGrun, 5, 1⟩ 1).set (R.siPicfgMode 22) 4).set (R.siPicfgMode 23) 4 : State), (23 : Nat), (5000 : Time),
     by decide +kernel⟩,
   ⟨((((State.reset.set ⟨R.ckGrun, 5, 1⟩ 1).set (R.siPicfgMode 22) 4).set (R.siPicfgMode 23) 4).setPi 22 { tRef := some 0, tLast := 1, edges := 1 } : State), (22 : Nat), (5000 : Time), (F32.ofRat 1000000000 1 : F32), (0 : Time), ({ tRef := some 1, tLast := 1, edges := 0, fPrev := F32.ofRat 1000000000 1, only := false, lastPub := some 0 } : PulseIn), by decide +kernel⟩⟩

/-- Each clause of BridgesPadsAndMotionMeasure with hypotheses: a state and operands that meet them. -/
theorem witness_BridgesPadsAndMotionMeasure :
    (∃ (s : State) (b : Nat) (n : Nat), (b < 4) ∧ (n < 8) ∧ (s.gateOn 5 = true) ∧ (s.flag (R.siBicfgEn b) = true)
     ∧ (s.flag (R.siBistatSenseOpen b) = false)) ∧
    (∃ (s : State) (b : Nat) (n : Nat), (b < 4) ∧ (n < 8) ∧ (s.gateOn 5 = true) ∧ (s.flag (R.siBicfgEn b) = true)) ∧
    (∃ (s : State) (b : Nat) (n : Nat), (b < 4) ∧ (n < 8) ∧ (s.gateOn 5 = true)) ∧
    (∃ (s : State) (b : Nat) (n : Nat) (peak : Nat) (t0 : Time), (b < 4) ∧ (n < 8) ∧ (s.gateOn 5 = true)
     ∧ (s.flag (R.siLicfgEn n) = true) ∧ (lossEdge s n 0 ≤ peak) ∧ (peak < 4096) ∧ ((s.liOf n).holdUntil ≤ t0)) ∧
    (∃ (s : State) (b : Nat) (n : Nat), (b < 4) ∧ (n < 8) ∧ (s.gateOn 5 = true) ∧ (s.flag (R.siLicfgEn n) = true)
     ∧ ((s.liOf n).count < 65536)) ∧
    (∃ (s : State) (b : Nat) (n : Nat), (b < 4) ∧ (n < 8) ∧ (s.gateOn 5 = true) ∧ (s.flag R.siImucfgEn = true)
     ∧ (s.flag R.siImustatFault = false)) :=
  ⟨⟨((State.reset.set ⟨R.ckGrun, 5, 1⟩ 1).set (R.siBicfgEn 3) 1 : State), (3 : Nat), (7 : Nat), by decide +kernel⟩,
   ⟨((State.reset.set ⟨R.ckGrun, 5, 1⟩ 1).set (R.siBicfgEn 3) 1 : State), (3 : Nat), (7 : Nat), by decide +kernel⟩,
   ⟨(State.reset.set ⟨R.ckGrun, 5, 1⟩ 1 : State), (3 : Nat), (7 : Nat), by decide +kernel⟩,
   ⟨((State.reset.set ⟨R.ckGrun, 5, 1⟩ 1).set (R.siLicfgEn 7) 1 : State), (3 : Nat), (7 : Nat), (4095 : Nat), (5000 : Time),
     by decide +kernel⟩,
   ⟨((State.reset.set ⟨R.ckGrun, 5, 1⟩ 1).set (R.siLicfgEn 7) 1 : State), (3 : Nat), (7 : Nat), by decide +kernel⟩,
   ⟨((State.reset.set ⟨R.ckGrun, 5, 1⟩ 1).set R.siImucfgEn 1 : State), (3 : Nat), (7 : Nat), by decide +kernel⟩⟩

/-- Each clause of RingsTakeSamples with hypotheses: a state and operands that meet them. -/
theorem witness_RingsTakeSamples :
    (∃ (s : State) (c : TrellisCopy) (stream : Nat), (c.enable = 1) ∧ (c.producer = stream) ∧ (bound s c.consumer = true)) ∧
    (∃ (s : State) (c : TrellisCopy) (stream : Nat), (c.enable = 1) ∧ (c.producer = stream) ∧ (bound s c.consumer = false)) ∧
    (∃ (s : State) (k : Nat), ((s.ringOf k).base ≠ 0) ∧ ((s.ringOf k).depth ≠ 0) ∧ ((s.ringOf k).mode = 0)
     ∧ ((∀ i, i < 16 → deadByte s ((s.ringOf k).base + 16 * ((s.ringOf k).seq % (s.ringOf k).depth) + i) = false))) ∧
    (∃ (s : State) (k : Nat) (a : Nat), ((s.ringOf k).base ≠ 0) ∧ ((s.ringOf k).depth ≠ 0) ∧ ((s.ringOf k).mode = 0)
     ∧ ((∀ i, i < 16 → deadByte s ((s.ringOf k).base + 16 * ((s.ringOf k).seq % (s.ringOf k).depth) + i) = false))
     ∧ (a < (s.ringOf k).base + 16 * ((s.ringOf k).seq % (s.ringOf k).depth) ∨ (s.ringOf k).base + 16 * ((s.ringOf k).seq % (s.ringOf k).depth) + 16 ≤ a)) ∧
    (∃ (k : Nat), (k < 256)) :=
  ⟨⟨(State.reset.setEntry 0 { active := { enable := 1, consumer := 0x3FF } } : State),
     ({ enable := 1, consumer := 0x3FF } : TrellisCopy), (0 : Nat), by decide +kernel⟩,
   ⟨(State.reset : State), ({ enable := 1, consumer := 0x3FF } : TrellisCopy), (0 : Nat), by decide +kernel⟩,
   ⟨(State.reset.setRing 255 { base := 0x80000000, depth := 2, seq := 4294967295 } : State), (255 : Nat), by decide +kernel⟩,
   ⟨(State.reset.setRing 255 { base := 0x80000000, depth := 2, seq := 4294967295 } : State), (255 : Nat), (0x80000020 : Nat),
     by decide +kernel⟩,
   ⟨(255 : Nat), by decide +kernel⟩⟩

/-- Each clause of FusionTakesAndPublishes with hypotheses: a state and operands that meet them. -/
theorem witness_FusionTakesAndPublishes :
    (∃ (s : State) (q : Nat) (k : Nat), (q < 11) ∧ (k < 64) ∧ (s.gateOn 6 = true) ∧ (fusionRuns s = true) ∧ (qRate s q ≠ 0)) ∧
    (∃ (s : State) (q : Nat) (k : Nat) (p : FuEst), (q < 11) ∧ (k < 64) ∧ (s.gateOn 6 = true) ∧ (fusionRuns s = true)
     ∧ (qRate s q ≠ 0) ∧ (2 ≤ q) ∧ ((s.qty q).prev = some p)) ∧
    (∃ (s : State) (q : Nat) (k : Nat) (x : Sample) (l : List Sample), (q < 11) ∧ (k < 64) ∧ (s.gateOn 6 = true)
     ∧ (Tbl.get s.delivery.inbox [] k = x :: l) ∧ (s.role k = 0)) ∧
    (∃ (s : State) (q : Nat) (k : Nat) (x : Sample) (l : List Sample), (q < 11) ∧ (k < 64) ∧ (s.gateOn 6 = true)
     ∧ (fusionRuns s = true) ∧ (Tbl.get s.delivery.inbox [] k = x :: l) ∧ (s.role k ≠ 0) ∧ (combines s k = false)
     ∧ (s.time.dev < x.ts)) ∧
    (∃ (s : State) (q : Nat) (k : Nat) (x : Sample) (l : List Sample), (q < 11) ∧ (k < 64) ∧ (s.gateOn 6 = true)
     ∧ (fusionRuns s = true) ∧ (Tbl.get s.delivery.inbox [] k = x :: l) ∧ (s.role k ≠ 0) ∧ (combines s k = false)
     ∧ (longestWindow (s.role k) < s.time.dev - x.ts)) ∧
    (∃ (s : State) (q : Nat) (k : Nat) (d : Time × Nat × Nat), (q < 11) ∧ (k < 64) ∧ (s.gateOn 6 = true)
     ∧ ((s.qty q).dispute = some d) ∧ ((s.qty q).held = none)) ∧
    (∃ (s : State) (q : Nat) (k : Nat) (x : Sample) (l : List Sample), (q < 11) ∧ (k < 64) ∧ (s.gateOn 6 = true)
     ∧ (fusionRuns s = true) ∧ (Tbl.get s.delivery.inbox [] k = x :: l)) ∧
    (∃ (s : State) (q : Nat) (k : Nat) (d : Time × Nat × Nat), (q < 11) ∧ (k < 64) ∧ (s.gateOn 6 = true)
     ∧ ((s.qty q).dispute = some d)) ∧
    (∃ (s : State) (q : Nat), (q < 11) ∧ (Serves s)) :=
  ⟨⟨(((State.reset.set ⟨R.ckGrun, 6, 1⟩ 1).set R.fuStatPwr 1).setObjN 0x2400 1 1 : State), (10 : Nat), (63 : Nat),
     by decide +kernel⟩,
   ⟨((((State.reset.set ⟨R.ckGrun, 6, 1⟩ 1).set R.fuStatPwr 1).setObjN 0x2400 1 1).setQty 10 { prev := some {} } : State),
     (10 : Nat), (63 : Nat), ({} : FuEst), by decide +kernel⟩,
   ⟨({ State.reset with delivery := { State.reset.delivery with inbox := [(63, [{}])] } } |>.set ⟨R.ckGrun, 6, 1⟩ 1 : State),
     (10 : Nat), (63 : Nat), ({} : Sample), ([] : List Sample), by decide +kernel⟩,
   ⟨({ ((((State.reset.set ⟨R.ckGrun, 6, 1⟩ 1).set R.fuStatPwr 1).setObjN 0x2400 1 1).set (R.fuSstatRole 63) 9) with delivery := { State.reset.delivery with inbox := [(63, [{ ts := 1 }])] } } : State), (10 : Nat), (63 : Nat), ({ ts := 1 } : Sample), ([] : List Sample), by decide +kernel⟩,
   ⟨({ ((((State.reset.set ⟨R.ckGrun, 6, 1⟩ 1).set R.fuStatPwr 1).setObjN 0x2400 1 1).set (R.fuSstatRole 63) 9) with delivery := { State.reset.delivery with inbox := [(63, [{}])] }, time := { State.reset.time with dev := 10000000001 } } : State), (10 : Nat), (63 : Nat), ({} : Sample), ([] : List Sample), by decide +kernel⟩,
   ⟨((State.reset.set ⟨R.ckGrun, 6, 1⟩ 1).setQty 10 { dispute := some (5, 1, 2) } : State), (10 : Nat), (63 : Nat),
     ((5, 1, 2) : Time × Nat × Nat), by decide +kernel⟩,
   ⟨({ ((((State.reset.set ⟨R.ckGrun, 6, 1⟩ 1).set R.fuStatPwr 1).setObjN 0x2400 1 1).set (R.fuSstatRole 63) 9) with delivery := { State.reset.delivery with inbox := [(63, [{ ts := 1 }])] } } : State), (10 : Nat), (63 : Nat), ({ ts := 1 } : Sample), ([] : List Sample), by decide +kernel⟩,
   ⟨((State.reset.set ⟨R.ckGrun, 6, 1⟩ 1).setQty 10 { dispute := some (5, 1, 2) } : State), (10 : Nat), (63 : Nat),
     ((5, 1, 2) : Time × Nat × Nat), by decide +kernel⟩,
   ⟨((State.reset.set ⟨R.ckGrun, 6, 1⟩ 1) : State), (10 : Nat), by unfold Serves; decide +kernel⟩⟩

/-- Each clause of FusionSlotsAreConfiguredAndCalibrated with hypotheses: a state and operands that meet them. -/
theorem witness_FusionSlotsAreConfiguredAndCalibrated :
    (∃ (s : State) (k : Nat), (k < 64) ∧ (s.gateOn 6 = true)) ∧
    (∃ (s : State) (k : Nat), (k < 64) ∧ (s.gateOn 6 = true) ∧ (fusionRuns s = true) ∧ (s.slotN k 0x0A = 1)
     ∧ (axes (s.role k) ≠ []) ∧ ((s.fuSlot k).frozen = false)) :=
  ⟨⟨(State.reset.set ⟨R.ckGrun, 6, 1⟩ 1 : State), (63 : Nat), by decide +kernel⟩,
   ⟨(((((State.reset.set ⟨R.ckGrun, 6, 1⟩ 1).set R.fuStatPwr 1).setObjN 0x2400 1 1).set (R.fuSstatRole 63) 1) |> fun s => { s with fu := { s.fu with cfg := [(0x244F0A, .num 1)] } } : State), (63 : Nat), by decide +kernel⟩⟩

/-- Each clause of MatrixJobsRun with hypotheses: a state and operands that meet them. -/
theorem witness_MatrixJobsRun :
    (∃ (s : State) (j : Nat) (v : Word), (j < 2) ∧ (s.gateOn 6 = true) ∧ (inSramOrDram s (descriptorAt v) 64 = false)) ∧
    (∃ (s : State) (j : Nat) (v : Word), (j < 2) ∧ (s.gateOn 6 = true) ∧ (inSramOrDram s (descriptorAt v) 64 = true)
     ∧ ((readDescriptor s 2 (descriptorAt v)).2.jobs j = s.jobs j) ∧ (jobSlots s j ≤ (s.jobs j).occupied)) ∧
    (∃ (s : State) (j : Nat) (v : Word), (j < 2) ∧ (s.gateOn 6 = true) ∧ (inSramOrDram s (descriptorAt v) 64 = true)
     ∧ ((readDescriptor s 2 (descriptorAt v)).2 = s)
     ∧ ((s.jobs j).refusal (jobSlots s j) (natAt (readDescriptor s 2 (descriptorAt v)).1 0 2) true = 0)) ∧
    (∃ (s : State) (j : Nat) (o : TagOp) (l : List TagOp), (j < 2) ∧ (s.gateOn 6 = true) ∧ (s.fu.busy = none)
     ∧ (s.flag R.fuStatPwr = true) ∧ ((s.jobs 0).ops = o :: l) ∧ (o.started = false)) ∧
    (∃ (s : State) (j : Nat) (o : TagOp) (l : List TagOp), (j < 2) ∧ (s.gateOn 6 = true) ∧ (s.fu.busy = none)
     ∧ (s.flag R.fuStatPwr = true) ∧ ((s.jobs 0).ops = []) ∧ ((s.jobs 1).ops = o :: l) ∧ (o.started = false)) ∧
    (∃ (s : State) (j : Nat) (tag : Nat) (o : TagOp), (j < 2) ∧ (s.gateOn 6 = true) ∧ (s.fu.busy = some (j, tag))
     ∧ ((s.jobs j).find tag = some o) ∧ (o.tag = tag)) ∧
    (∃ (s : State) (j : Nat), (j < 2) ∧ (s.gateOn 6 = true)) ∧
    (∃ (s : State) (j : Nat) (tag : Nat) (o : TagOp), (j < 2) ∧ (s.gateOn 6 = true) ∧ (tag < 65536)
     ∧ ((s.jobs j).find tag = some o) ∧ (o.tag = tag) ∧ (o.started = false)) ∧
    (∃ (s : State) (j : Nat) (tag : Nat) (o : TagOp), (j < 2) ∧ (s.gateOn 6 = true) ∧ (tag < 65536)
     ∧ ((s.jobs j).find tag = some o) ∧ (o.started = true)) :=
  ⟨⟨(State.reset.set ⟨R.ckGrun, 6, 1⟩ 1 : State), (1 : Nat), (0x0FFFFFFF : Word), by decide +kernel⟩,
   ⟨(((State.reset.set ⟨R.ckGrun, 6, 1⟩ 1).set (R.fuJqcfgSlots 1) 0) : State), (1 : Nat), (0x02000000 : Word), by decide +kernel⟩,
   ⟨(State.reset.set ⟨R.ckGrun, 6, 1⟩ 1 : State), (1 : Nat), (0x02000000 : Word), by decide +kernel⟩,
   ⟨({ ((State.reset.set ⟨R.ckGrun, 6, 1⟩ 1).set R.fuStatPwr 1) with fu := { State.reset.fu with jobs := [(0, { ops := [{ tag := 7 }] })] } } : State), (1 : Nat), ({ tag := 7 } : TagOp), ([] : List TagOp), by decide +kernel⟩,
   ⟨({ ((State.reset.set ⟨R.ckGrun, 6, 1⟩ 1).set R.fuStatPwr 1) with fu := { State.reset.fu with jobs := [(1, { ops := [{ tag := 7 }] })] } } : State), (1 : Nat), ({ tag := 7 } : TagOp), ([] : List TagOp), by decide +kernel⟩,
   ⟨({ (State.reset.set ⟨R.ckGrun, 6, 1⟩ 1) with fu := { State.reset.fu with busy := some (1, 7), jobs := [(1, { ops := [{ tag := 7, started := true }] })] } } : State), (1 : Nat), (7 : Nat), ({ tag := 7, started := true } : TagOp), by decide +kernel⟩,
   ⟨(State.reset.set ⟨R.ckGrun, 6, 1⟩ 1 : State), (1 : Nat), by decide +kernel⟩,
   ⟨({ (State.reset.set ⟨R.ckGrun, 6, 1⟩ 1) with fu := { State.reset.fu with jobs := [(1, { ops := [{ tag := 65535 }] })] } } : State), (1 : Nat), (65535 : Nat), ({ tag := 65535 } : TagOp), by decide +kernel⟩,
   ⟨({ (State.reset.set ⟨R.ckGrun, 6, 1⟩ 1) with fu := { State.reset.fu with jobs := [(1, { ops := [{ tag := 65535, started := true }] })] } } : State), (1 : Nat), (65535 : Nat), ({ tag := 65535, started := true } : TagOp), by decide +kernel⟩⟩

/-- Each clause of CamerasTakeFrames with hypotheses: a state and operands that meet them. -/
theorem witness_CamerasTakeFrames :
    (∃ (s : State) (c : Nat), (c < 4) ∧ (s.gateOn 7 = true) ∧ (cameraLive s c = true) ∧ ((s.camPort c).frames = [])
     ∧ (s.camNexp c ≠ 0) ∧ (tooFast s c = false) ∧ (s.flag R.camStatDamp = false)) ∧
    (∃ (s : State) (c : Nat), (c < 4) ∧ (s.gateOn 7 = true) ∧ (cameraLive s c = true) ∧ ((s.camPort c).frames = [])
     ∧ (tooFast s c = true)) ∧
    (∃ (s : State) (c : Nat) (hb : Nat), (c < 4) ∧ (s.gateOn 7 = true) ∧ (cameraLive s c = true) ∧ (1 < hb)) ∧
    (∃ (s : State) (c : Nat) (vc : Nat) (hb : Nat) (i : Nat) (fr : CamFrame), (c < 4) ∧ (s.gateOn 7 = true)
     ∧ (cameraLive s c = true) ∧ (slotOfVc s c vc = some i) ∧ (runningFrame s c i = some fr) ∧ (hb ≤ 1)) ∧
    (∃ (s : State) (c : Nat) (vc : Nat) (codes : List Nat) (fr : CamFrame) (e : CamExp), (c < 4) ∧ (s.gateOn 7 = true)
     ∧ (cameraLive s c = true) ∧ (slotOfVc s c vc = some 0) ∧ ((s.camPort c).frames = [fr]) ∧ (fr.accepted = true)
     ∧ (fr.exps = [e]) ∧ (e.started = true) ∧ (e.ended = false) ∧ (codes.length = s.camW c)) ∧
    (∃ (s : State) (c : Nat) (vc : Nat) (fr : CamFrame) (e : CamExp), (c < 4) ∧ (s.gateOn 7 = true) ∧ (cameraLive s c = true)
     ∧ (slotOfVc s c vc = some 0) ∧ ((s.camPort c).frames = [fr]) ∧ (fr.accepted = true) ∧ (fr.exps = [e]) ∧ (e.started = true)
     ∧ (e.ended = false) ∧ ((e.lost = true ∨ e.lines.length ≠ s.camH c))) ∧
    (∃ (s : State) (c : Nat) (fr : CamFrame), (c < 4) ∧ (s.gateOn 7 = true)
     ∧ (((s.camPort c).frames.find? fun f => f.accepted && !f.exps.all (·.started)) = some fr)) ∧
    (∃ (s : State) (c : Nat) (fr : CamFrame), (c < 4) ∧ (s.gateOn 7 = true) ∧ ((s.camPort c).frames = [fr])
     ∧ (fr.complete = true)) ∧
    (∃ (s : State) (c : Nat) (a : Nat) (idx : Nat), (c < 4) ∧ (s.gateOn 7 = true) ∧ (a < 3) ∧ (idx < 16)) ∧
    (∃ (s : State) (c : Nat), (c < 4) ∧ (s.gateOn 7 = true) ∧ (s.flag (R.camPctrlFsync c) = true) ∧ (nextSync s c < 2 ^ 64)) ∧
    (∃ (s : State) (c : Nat), (c < 4) ∧ (s.gateOn 7 = true) ∧ (camClocked s = true) ∧ (s.flag (R.camPctrlEn c) = true)
     ∧ (s.flag (R.camPctrlSrc c) = true) ∧ ((s.camPort c).replayAt = none)) ∧
    (∃ (s : State) (c : Nat), (c < 4) ∧ (s.gateOn 7 = true) ∧ (cameraLive s c = true)) ∧
    (∃ (s : State) (c : Nat) (hb : Nat), (c < 4) ∧ (s.gateOn 7 = true) ∧ (cameraLive s c = true) ∧ (hb ≤ 1)) ∧
    (∃ (s : State) (c : Nat), (c < 4) ∧ (s.gateOn 7 = true)) ∧
    (∃ (s : State) (c : Nat) (a : Nat), (c < 4) ∧ (s.gateOn 7 = true) ∧ (a < 3)) ∧
    (∃ (s : State) (c : Nat), (c < 4) ∧ (s.gateOn 7 = true) ∧ (camClocked s = true) ∧ (s.flag (R.camPctrlEn c) = true)
     ∧ (s.flag (R.camPctrlSrc c) = true)) :=
  ⟨⟨((camLive (State.reset.set ⟨R.ckGrun, 7, 1⟩ 1) 3).set (R.camPctrlNexp 3) 1 : State), (3 : Nat), by decide +kernel⟩,
   ⟨(((camLive (State.reset.set ⟨R.ckGrun, 7, 1⟩ 1) 3).setCamPort 3 { prev := some 0 }) : State), (3 : Nat), by decide +kernel⟩,
   ⟨(camLive (State.reset.set ⟨R.ckGrun, 7, 1⟩ 1) 3 : State), (3 : Nat), (2 : Nat), by decide +kernel⟩,
   ⟨(((camLive (State.reset.set ⟨R.ckGrun, 7, 1⟩ 1) 3).set (R.camPctrlNexp 3) 1).setCamPort 3 { frames := [{ exps := [{ started := true }] }] } : State), (3 : Nat), (0 : Nat), (0 : Nat), (0 : Nat), ({ exps := [{ started := true }] } : CamFrame), by decide +kernel⟩,
   ⟨((((camLive (State.reset.set ⟨R.ckGrun, 7, 1⟩ 1) 3).set (R.camPctrlNexp 3) 1).set (R.camPsizeW 3) 2).setCamPort 3 { frames := [{ accepted := true, exps := [{ started := true }] }] } : State), (3 : Nat), (0 : Nat), ([5, 70000] : List Nat), ({ accepted := true, exps := [{ started := true }] } : CamFrame), ({ started := true } : CamExp), by decide +kernel⟩,
   ⟨(((camLive (State.reset.set ⟨R.ckGrun, 7, 1⟩ 1) 3).set (R.camPctrlNexp 3) 1).set (R.camPsizeH 3) 2 |>.setCamPort 3 { frames := [{ accepted := true, exps := [{ started := true }] }] } : State), (3 : Nat), (0 : Nat), ({ accepted := true, exps := [{ started := true }] } : CamFrame), ({ started := true } : CamExp), by decide +kernel⟩,
   ⟨((State.reset.set ⟨R.ckGrun, 7, 1⟩ 1).setCamPort 3 { frames := [{ accepted := true, exps := [{}] }] } : State), (3 : Nat),
     ({ accepted := true, exps := [{}] } : CamFrame), by decide +kernel⟩,
   ⟨((State.reset.set ⟨R.ckGrun, 7, 1⟩ 1).setCamPort 3 { frames := [{ accepted := true }] } : State), (3 : Nat),
     ({ accepted := true } : CamFrame), by decide +kernel⟩,
   ⟨(State.reset.set ⟨R.ckGrun, 7, 1⟩ 1 : State), (3 : Nat), (2 : Nat), (15 : Nat), by decide +kernel⟩,
   ⟨(((State.reset.set ⟨R.ckGrun, 7, 1⟩ 1).set (R.camPctrlFsync 3) 1).setCamPort 3 { syncAt := some 4 } : State), (3 : Nat),
     by decide +kernel⟩,
   ⟨(((camLive (State.reset.set ⟨R.ckGrun, 7, 1⟩ 1) 3).set (R.camPctrlSrc 3) 1) : State), (3 : Nat), by decide +kernel⟩,
   ⟨(camLive (State.reset.set ⟨R.ckGrun, 7, 1⟩ 1) 3 : State), (3 : Nat), by decide +kernel⟩,
   ⟨(camLive (State.reset.set ⟨R.ckGrun, 7, 1⟩ 1) 3 : State), (3 : Nat), (0 : Nat), by decide +kernel⟩,
   ⟨((State.reset.set ⟨R.ckGrun, 7, 1⟩ 1) : State), (3 : Nat), by decide +kernel⟩,
   ⟨(State.reset.set ⟨R.ckGrun, 7, 1⟩ 1 : State), (3 : Nat), (2 : Nat), by decide +kernel⟩,
   ⟨(((camLive (State.reset.set ⟨R.ckGrun, 7, 1⟩ 1) 3).set (R.camPctrlSrc 3) 1) : State), (3 : Nat), by decide +kernel⟩⟩

/-- Each clause of CamerasAreConnected with hypotheses: a state and operands that meet them. -/
theorem witness_CamerasAreConnected :
    (∃ (s : State) (c : Nat), (c < 4) ∧ (s.flag (R.camPctrlPwr c) = true) ∧ (s.flag (R.camPstatPwrFlt c) = false)) ∧
    (∃ (c : Nat), (c < 4)) ∧
    (∃ (s : State) (c : Nat), (c < 4) ∧ (s.gateOn 7 = true) ∧ (s.flag (R.camPstatLock c) = true) ∧ ((s.camPort c).frames = [])) ∧
    (∃ (s : State) (c : Nat), (c < 4) ∧ (s.gateOn 7 = true) ∧ (s.flag (R.camPstatLock c) = false)) ∧
    (∃ (s : State) (c : Nat) (v : Word), (c < 4) ∧ (s.gateOn 7 = true) ∧ (s.flag (R.camPi2cdBusy c) = false) ∧ (bit v 31 = true)
     ∧ (bit v 7 = false)) ∧
    (∃ (s : State) (c : Nat), (c < 4) ∧ (s.gateOn 7 = true) ∧ (s.flag (R.camPi2cdBusy c) = true)) ∧
    (∃ (s : State) (c : Nat), (c < 4) ∧ (s.gateOn 7 = true) ∧ (s.flag (R.camPi2cdBusy c) = true)
     ∧ (bit (s.camPort c).i2c 7 = true) ∧ (bit (s.camPort c).i2c 24 = true)) ∧
    (∃ (s : State) (c : Nat), (c < 4) ∧ (s.gateOn 7 = true)) ∧
    (∃ (s : State) (c : Nat), (c < 4) ∧ (s.gateOn 7 = true) ∧ ((s.camPort c).copying = true)
     ∧ (inSramOrDram s (s.rd64 (R.camPparamLo c)) 43456 = false)) ∧
    (∃ (s : State) (c : Nat), (c < 4) ∧ (s.gateOn 7 = true) ∧ (pixelSum s c > 1600000000000)) ∧
    (∃ (s : State) (c : Nat), (c < 4) ∧ (s.gateOn 7 = true) ∧ (pixelSum s c ≤ 1600000000000) ∧ (s.flag (R.camPctrlSrc c) = false)
     ∧ (pixelDemand s c * s.camBits c > 3600000000000)) ∧
    (∃ (s : State) (c : Nat), (c < 4) ∧ (s.gateOn 7 = true) ∧ (pixelSum s c ≤ 1600000000000)
     ∧ ((s.flag (R.camPctrlSrc c) = true ∨ pixelDemand s c * s.camBits c ≤ 3600000000000)) ∧ (s.flag (R.camPctrlEn c) = false)) ∧
    (∃ (s : State) (c : Nat), (c < 4) ∧ (s.gateOn 7 = true) ∧ (s.flag (R.camPi2cdBusy c) = true)
     ∧ (bit (s.camPort c).i2c 7 = true)) ∧
    (∃ (s : State) (c : Nat), (c < 4) ∧ (s.gateOn 7 = true) ∧ (s.flag (R.camPi2cdBusy c) = true)
     ∧ (bit (s.camPort c).i2c 7 = false)) :=
  ⟨⟨(State.reset.set (R.camPctrlPwr 3) 1 : State), (3 : Nat), by decide +kernel⟩,
   ⟨(3 : Nat), by decide +kernel⟩,
   ⟨((State.reset.set ⟨R.ckGrun, 7, 1⟩ 1).set (R.camPstatLock 3) 1 : State), (3 : Nat), by decide +kernel⟩,
   ⟨((State.reset.set ⟨R.ckGrun, 7, 1⟩ 1) : State), (3 : Nat), by decide +kernel⟩,
   ⟨(State.reset.set ⟨R.ckGrun, 7, 1⟩ 1 : State), (3 : Nat), (0x80000000 : Word), by decide +kernel⟩,
   ⟨((State.reset.set ⟨R.ckGrun, 7, 1⟩ 1).set (R.camPi2cdBusy 3) 1 : State), (3 : Nat), by decide +kernel⟩,
   ⟨(((State.reset.set ⟨R.ckGrun, 7, 1⟩ 1).set (R.camPi2cdBusy 3) 1).setCamPort 3 { i2c := 0xFFFFFFFF } : State), (3 : Nat),
     by decide +kernel⟩,
   ⟨(State.reset.set ⟨R.ckGrun, 7, 1⟩ 1 : State), (3 : Nat), by decide +kernel⟩,
   ⟨(((State.reset.set ⟨R.ckGrun, 7, 1⟩ 1).setCamPort 3 { copying := true }).set (R.camPparamLoParam 3) 64 : State), (3 : Nat),
     by decide +kernel⟩,
   ⟨((((State.reset.set ⟨R.ckGrun, 7, 1⟩ 1).set (R.camPsizeW 3) 4096 |>.set (R.camPsizeH 3) 3000).set (R.camPctrlNexp 3) 3).set (R.camPrateRate 3) 1000000 : State), (3 : Nat), by decide +kernel⟩,
   ⟨((((State.reset.set ⟨R.ckGrun, 7, 1⟩ 1).set (R.camPsizeW 3) 1000 |>.set (R.camPsizeH 3) 500).set (R.camPctrlNexp 3) 1).set (R.camPrateRate 3) 1000000 : State), (3 : Nat), by decide +kernel⟩,
   ⟨(((((State.reset.set ⟨R.ckGrun, 7, 1⟩ 1).set (R.camPsizeW 3) 64 |>.set (R.camPsizeH 3) 64).set (R.camPctrlNexp 3) 1).set (R.camPrateRate 3) 1000).set (R.camPctrlSrc 3) 1 : State), (3 : Nat), by decide +kernel⟩,
   ⟨(((State.reset.set ⟨R.ckGrun, 7, 1⟩ 1).set (R.camPi2cdBusy 3) 1).setCamPort 3 { i2c := 0x80 } : State), (3 : Nat),
     by decide +kernel⟩,
   ⟨((State.reset.set ⟨R.ckGrun, 7, 1⟩ 1).set (R.camPi2cdBusy 3) 1 : State), (3 : Nat), by decide +kernel⟩⟩

/-- Each clause of ReceiverAcquiresAndTracks with hypotheses: a state and operands that meet them. -/
theorem witness_ReceiverAcquiresAndTracks :
    (∃ (s : State) (n : Nat) (v : Word), (n < 192) ∧ (s.gateOn 8 = true) ∧ (bit v 0 = true) ∧ (s.flag R.gnCtrlEn = true)
     ∧ (s.flag R.gnAcqstatBusy = false) ∧ (acqOk (plainWrite s R.gnAcqctrl v) = true)) ∧
    (∃ (s : State) (n : Nat) (v : Word), (n < 192) ∧ (s.gateOn 8 = true) ∧ (bit v 0 = true) ∧ (s.flag R.gnCtrlEn = true)
     ∧ (s.flag R.gnAcqstatBusy = false) ∧ (acqOk (plainWrite s R.gnAcqctrl v) = false)) ∧
    (∃ (s : State) (n : Nat), (n < 192) ∧ (s.gateOn 8 = true) ∧ (s.flag R.gnAcqstatBusy = true) ∧ (s.gn.acqEnd < 2 ^ 64)) ∧
    (∃ (s : State) (n : Nat), (n < 192) ∧ (s.gateOn 8 = true) ∧ (s.flag R.gnCtrlEn = true) ∧ (s.flag (R.gnChctrlEn n) = false)
     ∧ (channelErr (s.chSig n) (s.get (R.gnChctrlTint n)) (s.get (R.gnChctrlArms n)) = 0)) ∧
    (∃ (s : State) (n : Nat), (n < 192) ∧ (s.gateOn 8 = true)) ∧
    (∃ (s : State) (n : Nat), (n < 192) ∧ (s.gateOn 8 = true) ∧ (s.flag (R.gnChstatRun n) = true) ∧ ((s.gnCh n).code ≠ 0)) ∧
    (∃ (s : State) (n : Nat), (n < 192) ∧ (s.gateOn 8 = true) ∧ (s.gn.dumped = true)) ∧
    (∃ (s : State) (n : Nat), (n < 192) ∧ (s.gateOn 8 = true) ∧ (s.flag R.gnCtrlEn = true)) ∧
    (∃ (s : State) (n : Nat), (n < 192) ∧ (s.gateOn 8 = true) ∧ (s.flag R.gnCtrlEn = true) ∧ (s.flag (R.gnChctrlEn n) = false)) :=
  ⟨⟨((((((((State.reset.set ⟨R.ckGrun, 8, 1⟩ 1).set R.gnCtrlEn 1).set R.gnAcqparTc 4).set R.gnAcqparNc 5).set R.gnAcqparNbins 16).set R.gnAcqfsFs 100).set R.gnAcqctrlPrn 1) : State), (191 : Nat), (0x11 : Word), by decide +kernel⟩,
   ⟨((State.reset.set ⟨R.ckGrun, 8, 1⟩ 1).set R.gnCtrlEn 1 : State), (191 : Nat), (1 : Word), by decide +kernel⟩,
   ⟨((State.reset.set ⟨R.ckGrun, 8, 1⟩ 1).set R.gnAcqstatBusy 1 : State), (191 : Nat), by decide +kernel⟩,
   ⟨((((State.reset.set ⟨R.ckGrun, 8, 1⟩ 1).set R.gnCtrlEn 1).set (R.gnChctrlTint 191) 1).wr64 (R.gnChloadtsLo 191) 20000 : State), (191 : Nat), by decide +kernel⟩,
   ⟨(State.reset.set ⟨R.ckGrun, 8, 1⟩ 1 : State), (191 : Nat), by decide +kernel⟩,
   ⟨(((State.reset.set ⟨R.ckGrun, 8, 1⟩ 1).set (R.gnChstatRun 191) 1).setGnCh 191 { code := 536870912, stop := 5368709120 } : State), (191 : Nat), by decide +kernel⟩,
   ⟨({ (State.reset.set ⟨R.ckGrun, 8, 1⟩ 1) with gn := { State.reset.gn with dumped := true } } : State), (191 : Nat),
     by decide +kernel⟩,
   ⟨((State.reset.set ⟨R.ckGrun, 8, 1⟩ 1).set R.gnCtrlEn 1 : State), (191 : Nat), by decide +kernel⟩,
   ⟨((State.reset.set ⟨R.ckGrun, 8, 1⟩ 1).set R.gnCtrlEn 1 : State), (191 : Nat), by decide +kernel⟩⟩

/-- Each clause of PositionServiceRuns with hypotheses: a state and operands that meet them. -/
theorem witness_PositionServiceRuns :
    (∃ (s : State), (s.flag R.gnCtrlBias = true) ∧ (s.flag R.gnStatAntShort = false)) ∧
    (∃ (s : State), (s.flag R.gnCtrlBias = true) ∧ (s.flag R.gnStatAntShort = true)) ∧
    (∃ (s : State), (s.flag R.gnCtrlBias = true)) ∧
    (∃ (s : State) (sig : Nat), (s.gateOn 8 = true) ∧ (sig ≤ 5) ∧ (positionRuns s = true)) ∧
    (∃ (s : State) (src : Nat) (b : List Byte), (s.appServing = true) ∧ (src = s.objN 0x2600 0x07) ∧ (src ≠ 0)
     ∧ ((b.getD 0 0) = 0xD3) ∧ (b.length = beAt b 1 2 % 1024 + 6)) ∧
    (∃ (s : State), (s.appServing = true) ∧ (s.objN 0x2600 0x07 ≠ 0) ∧ (s.gn.corrOld = false)) ∧
    (∃ (s : State) (ts : Time), (s.gateOn 8 = true) ∧ (positionRuns s = true) ∧ (s.objN 0x2600 0x06 ≠ 0)
     ∧ (s.gn.latches = ts :: s.gn.latches.tail)) ∧
    (∃ (s : State), (s.gateOn 8 = true) ∧ (positionRuns s = true) ∧ (s.objN 0x2600 0x06 ≠ 0) ∧ (s.gn.latches = [])) ∧
    (∃ (s : State), (s.gateOn 8 = true) ∧ ((positionRuns s = false ∨ s.objN 0x2600 0x06 = 0))) ∧
    (∃ (s : State), (s.appServing = true)) :=
  ⟨⟨((State.reset.set R.gnCtrlBias 1).set R.gnStatAntShort 0 : State), by decide +kernel⟩,
   ⟨((State.reset.set R.gnCtrlBias 1).set R.gnStatAntShort 1 : State), by decide +kernel⟩,
   ⟨(State.reset.set R.gnCtrlBias 1 : State), by decide +kernel⟩,
   ⟨((State.reset.set ⟨R.ckGrun, 8, 1⟩ 1).setObjN 0x2600 1 1 : State), (5 : Nat), by decide +kernel⟩,
   ⟨(State.reset.setObjN 0x2600 7 2 : State), (2 : Nat), ([0xD3#8, 0#8, 2#8, 0x3E#8, 0xD0#8, 0#8, 0#8, 0#8] : List Byte),
     by decide +kernel⟩,
   ⟨(State.reset.setObjN 0x2600 7 2 : State), by decide +kernel⟩,
   ⟨({ (((State.reset.set ⟨R.ckGrun, 8, 1⟩ 1).setObjN 0x2600 1 1).setObjN 0x2600 6 1) with gn := { State.reset.gn with latches := [5] } } : State), (5 : Time), by decide +kernel⟩,
   ⟨(((State.reset.set ⟨R.ckGrun, 8, 1⟩ 1).setObjN 0x2600 1 1).setObjN 0x2600 6 1 : State), by decide +kernel⟩,
   ⟨((State.reset.set ⟨R.ckGrun, 8, 1⟩ 1).setObjN 0x2600 1 0 : State), by decide +kernel⟩,
   ⟨(State.reset : State), by decide +kernel⟩⟩

/-- Each clause of DeviceTimeChangesQuality with hypotheses: a state and operands that meet them. -/
theorem witness_DeviceTimeChangesQuality :
    (∃ (s : State), (timeState s ≠ 2) ∧ (lockReady (s.devTo (nextSecond s.time.dev)) = true)) ∧
    (∃ (s : State), (timeState s ≠ 2) ∧ (lockReady (s.devTo (nextSecond s.time.dev)) = false)) ∧
    (∃ (s : State) (f : Time), (timeState s = 2) ∧ (s.time.fixAt = some f)) ∧
    (∃ (s : State), (timeState s = 3)) ∧
    (∃ (s : State) (k : Nat), (k < 2) ∧ (tpoNext s k < 2 ^ 64) ∧ ((k = 1 ∨ tpoNext s k % 1000000000 ≠ 0))) ∧
    (∃ (s : State), (tpoNext s 0 < 2 ^ 64)) ∧
    (∃ (s : State), (timeState s = 2) ∧ (s.time.fixAt = none)) ∧
    (∃ (s : State), (s.flag ⟨R.gnTpictrl, 0, 1⟩ = true)) :=
  ⟨⟨({ State.reset with time := { State.reset.time with fixSince := some 0, fixAt := some 6000000000, dev := 100 }, now := 5000000000 } : State), by decide +kernel⟩,
   ⟨(State.reset : State), by decide +kernel⟩,
   ⟨({ (State.reset.set R.gnTqState 2) with time := { State.reset.time with fixAt := some 5 } } : State), (5 : Time),
     by decide +kernel⟩,
   ⟨(State.reset.set R.gnTqState 3 : State), by decide +kernel⟩,
   ⟨(State.reset.wr (tpoCtrl 1) 0x10001 : State), (1 : Nat), by decide +kernel⟩,
   ⟨(State.reset.wr (tpoCtrl 0) 0x10001 : State), by decide +kernel⟩,
   ⟨({ (State.reset.set R.gnTqState 2) with time := { State.reset.time with fixAt := none } } : State), by decide +kernel⟩,
   ⟨(State.reset.set ⟨R.gnTpictrl, 0, 1⟩ 1 : State), by decide +kernel⟩⟩

/-- Each clause of DeviceTimeSlewsAndSteps with hypotheses: a state and operands that meet them. -/
theorem witness_DeviceTimeSlewsAndSteps :
    (∃ (v : Word), ((int32 v).natAbs > 100000)) ∧
    (∃ (v : Word), ((int32 v).natAbs ≤ 100000)) ∧
    (∃ (s : State), (s.flag R.gnTqSlew = true)) ∧
    (∃ (s : State), (s.flag R.gnTqStepPend = true ∨ (timeState s ≥ 2 ∧ (int64 (s.rd64 R.gnTstepLo)).natAbs ≤ 100000))) ∧
    (∃ (s : State), (s.flag R.gnTqStepPend = false) ∧ (timeState s < 2 ∨ (int64 (s.rd64 R.gnTstepLo)).natAbs > 100000)) ∧
    (∃ (s : State), (s.flag R.gnTqStepPend = false)) ∧
    (∃ (s : State), (s.flag R.gnTqStepArm = true) ∧ (s.flag R.gnTqStepPend = false)) ∧
    (∃ (s : State), (s.flag R.gnTqStepPend = true)) ∧
    (∃ (s : State) (d : Time), (Serves s) ∧ (d < 18446744073709551616) ∧ (timeState s ≤ 1) ∧ (s.flag R.gnTqStepPend = false)) ∧
    (∃ (s : State) (d : Time), (Serves s) ∧ (d < 18446744073709551616) ∧ (timeState s > 1)) :=
  ⟨⟨(100001 : Word), by decide +kernel⟩,
   ⟨(100000 : Word), by decide +kernel⟩,
   ⟨((State.reset.set R.gnTqSlew 1).set R.gnTqState 2 : State), by decide +kernel⟩,
   ⟨(State.reset.set R.gnTqStepPend 1 : State), by decide +kernel⟩,
   ⟨(State.reset : State), by decide +kernel⟩,
   ⟨(State.reset : State), by decide +kernel⟩,
   ⟨(State.reset.set R.gnTqStepArm 1 : State), by decide +kernel⟩,
   ⟨(State.reset.set R.gnTqStepPend 1 : State), by decide +kernel⟩,
   ⟨(State.reset.set R.secLcState 1 : State), (5 : Time), by unfold Serves; decide +kernel⟩,
   ⟨((State.reset.set R.secLcState 1).set R.gnTqState 2 : State), (5 : Time), by unfold Serves; decide +kernel⟩⟩

/-- Each clause of GovernorActsInTicks with hypotheses: a state and operands that meet them. -/
theorem witness_GovernorActsInTicks :
    (∃ (s : State) (v : Nat), (Serves s) ∧ (v ≤ 1)) ∧
    (∃ (v : Nat), (v ≤ 1)) ∧
    (∃ (s : State) (v : Nat), (Serves s) ∧ (2 ≤ v) ∧ (v < 256)) ∧
    (∃ (s : State), (s.serving = true) ∧ (s.rtRuns 1 = true) ∧ (s.hearth = false)) ∧
    (∃ (s : State), (s.serving = true) ∧ (s.rtRuns 1 = true)) ∧
    (∃ (s : State) (m : Nat), (s.serving = true) ∧ (s.rtRuns 1 = true) ∧ (m < 48) ∧ ((s.govFn m).state = 4)
     ∧ ((s.govFn m).freezeEnd ≤ s.gov.tick)) ∧
    (∃ (s : State) (m : Nat), (s.serving = true) ∧ (s.rtRuns 1 = true) ∧ (m < 48) ∧ ((s.govFn m).state ≠ 4)
     ∧ ((s.govFn m).moving = false) ∧ (s.gov.tick = (s.govFn m).settle) ∧ (s.gov.trial ≠ some m)) ∧
    (∃ (s : State) (e : Nat), (s.serving = true) ∧ (s.rtRuns 1 = true) ∧ (s.gov.winEnd = some e)) ∧
    (∃ (s : State) (m : Nat), (s.serving = true) ∧ (s.rtRuns 1 = true) ∧ (m < 48) ∧ ((s.govFn m).state = 4)) ∧
    (∃ (s : State) (m : Nat), (s.serving = true) ∧ (s.rtRuns 1 = true) ∧ (m < 48) ∧ ((s.govFn m).state ≠ 4)
     ∧ ((s.govFn m).moving = false) ∧ (s.gov.tick ≤ (s.govFn m).settle)) :=
  ⟨⟨({ (State.reset.set R.secLcState 1) with roleInEffect := 1 } : State), (1 : Nat), by unfold Serves; decide +kernel⟩,
   ⟨(1 : Nat), by decide +kernel⟩,
   ⟨(State.reset.set R.secLcState 1 : State), (2 : Nat), by unfold Serves; decide +kernel⟩,
   ⟨({ State.reset with roleInEffect := 0 } : State), by decide +kernel⟩,
   ⟨({ State.reset with roleInEffect := 1 } : State), by decide +kernel⟩,
   ⟨(State.reset.setGovFn 47 { state := 4 } : State), (47 : Nat), by decide +kernel⟩,
   ⟨(State.reset.setGovFn 47 {} : State), (47 : Nat), by decide +kernel⟩,
   ⟨({ State.reset with gov := { State.reset.gov with winEnd := some 9 } } : State), (9 : Nat), by decide +kernel⟩,
   ⟨(State.reset.setGovFn 47 { state := 4, freezeEnd := 2 } : State), (47 : Nat), by decide +kernel⟩,
   ⟨(State.reset.setGovFn 47 {} : State), (47 : Nat), by decide +kernel⟩⟩

/-- Each clause of TasksAndTilesAreKept with hypotheses: a state and operands that meet them. -/
theorem witness_TasksAndTilesAreKept :
    (∃ (s : State) (n : Nat), (n < 4294967296) ∧ (Serves s) ∧ (s.hearth = true) ∧ (n ≠ 0)) ∧
    (∃ (s : State) (n : Nat), (n < 4294967296) ∧ (s.par.task ≠ n) ∧ (n ≠ 0)) ∧
    (∃ (s : State) (n : Nat) (x : Task), (n < 4294967296) ∧ (s.par.task ≠ n) ∧ (n ≠ 0) ∧ (Tbl.get s.par.tasks none n = some x)) ∧
    (∃ (s : State) (n : Nat), (n < 4294967296) ∧ (Serves s) ∧ (s.hearth = true)) ∧
    (∃ (n : Nat), (n < 4294967296)) ∧
    (∃ (s : State) (n : Nat) (x : Task), (n < 4294967296) ∧ (s.hearth = true) ∧ (s.par.task ≠ 0) ∧ (s.par.recording = false)
     ∧ (Tbl.get s.par.tasks none s.par.task = some x)) ∧
    (∃ (s : State) (n : Nat), (n < 4294967296) ∧ (Serves s) ∧ (s.hearth = false)) ∧
    (∃ (s : State) (n : Nat), (n < 4294967296) ∧ (Serves s) ∧ (s.hearth = true) ∧ (n ≠ 0) ∧ (n ≠ s.par.task)
     ∧ (Tbl.get s.par.tasks none n = none)) ∧
    (∃ (s : State) (n : Nat) (x : Task), (n < 4294967296) ∧ (Serves s) ∧ (s.hearth = true) ∧ (n ≠ 0) ∧ (n ≠ s.par.task)
     ∧ (Tbl.get s.par.tasks none n = some x) ∧ (s.par.exportTask ≠ none)) ∧
    (∃ (s : State) (n : Nat), (n < 4294967296) ∧ (Serves s) ∧ (s.hearth = true) ∧ (n ≠ 0) ∧ (n = s.par.task)) ∧
    (∃ (s : State) (n : Nat) (x : Task), (n < 4294967296) ∧ (Serves s) ∧ (s.hearth = true) ∧ (n ≠ 0) ∧ (n ≠ s.par.task)
     ∧ (Tbl.get s.par.tasks none n = some x)) ∧
    (∃ (s : State) (n : Nat) (x : Task), (n < 4294967296) ∧ (s.hearth = true) ∧ (n ≠ 0) ∧ (n ≠ s.par.task)
     ∧ (Tbl.get s.par.tasks none n = some x)) ∧
    (∃ (s : State) (n : Nat), (n < 4294967296) ∧ (Serves s) ∧ (s.hearth = true) ∧ (n ≠ 0)
     ∧ (n = s.par.task ∨ Tbl.get s.par.tasks none n = none)) ∧
    (∃ (s : State) (n : Nat) (x : Task), (n < 4294967296) ∧ (Serves s) ∧ (s.hearth = true) ∧ (n ≠ 0) ∧ (n ≠ s.par.task)
     ∧ (Tbl.get s.par.tasks none n = some x) ∧ (s.par.exportTask = none)) ∧
    (∃ (s : State) (n : Nat), (n < 4294967296) ∧ (s.appServing = true) ∧ (s.par.exportTask = some n)) ∧
    (∃ (s : State) (n : Nat) (i : Int) (j : Int) (x : Task), (n < 4294967296) ∧ (s.appServing = true) ∧ (openTask s = some x)
     ∧ (s.objN 0x2800 0x10 = 1) ∧ (s.activeHearth = true) ∧ ((x.tile (pairKey i j)).dirty = true) ∧ ((∀ a,
     (x.tile (pairKey i j)).sentAt = some a → a + sec 10 ≤ s.now))) ∧
    (∃ (s : State) (n : Nat) (b : List Byte) (x : Task), (n < 4294967296) ∧ (s.appServing = true) ∧ (openTask s = some x)
     ∧ (1 ≤ natAt b 44 1) ∧ (natAt b 44 1 ≤ 16) ∧ (b.length = 52 + 8 * natAt b 44 1 + 65536)
     ∧ ((natAt b 24 2 ≠ cellSize s ∨ [natAt b 0 8, natAt b 8 8, natAt b 16 8] ≠ x.origin.take 3)) ∧ (x.origin.length = 3)) ∧
    (∃ (s : State) (n : Nat) (b : List Byte) (x : Task), (n < 4294967296) ∧ (s.appServing = true) ∧ (openTask s = some x)
     ∧ (1 ≤ natAt b 44 1) ∧ (natAt b 44 1 ≤ 16) ∧ (b.length = 52 + 8 * natAt b 44 1 + 65536) ∧ (natAt b 24 2 = cellSize s)
     ∧ (x.origin = [natAt b 0 8, natAt b 8 8, natAt b 16 8]) ∧ (n < 4096)) ∧
    (∃ (s : State) (n : Nat), (n < 4294967296) ∧ (s.appServing = true)) :=
  ⟨⟨({ (State.reset.set R.secLcState 1) with roleInEffect := 1 } : State), (7 : Nat), by unfold Serves; decide +kernel⟩,
   ⟨({ (State.reset.set R.secLcState 1) with roleInEffect := 1 } : State), (7 : Nat), by decide +kernel⟩,
   ⟨({ (State.reset.set R.secLcState 1) with par := { State.reset.par with tasks := [(7, some {})] } } : State), (7 : Nat),
     ({} : Task), by decide +kernel⟩,
   ⟨({ (State.reset.set R.secLcState 1) with roleInEffect := 1 } : State), (7 : Nat), by unfold Serves; decide +kernel⟩,
   ⟨(7 : Nat), by decide +kernel⟩,
   ⟨({ (State.reset.set R.secLcState 1) with roleInEffect := 1, par := { State.reset.par with task := 7, tasks := [(7, some {})] } } : State), (7 : Nat), ({} : Task), by decide +kernel⟩,
   ⟨(State.reset.set R.secLcState 1 : State), (7 : Nat), by unfold Serves; decide +kernel⟩,
   ⟨({ (State.reset.set R.secLcState 1) with roleInEffect := 1 } : State), (20 : Nat), by unfold Serves; decide +kernel⟩,
   ⟨({ (State.reset.set R.secLcState 1) with roleInEffect := 1, par := { State.reset.par with tasks := [(7, some {})], exportTask := some 3 } } : State), (7 : Nat), ({} : Task), by unfold Serves; decide +kernel⟩,
   ⟨({ (State.reset.set R.secLcState 1) with roleInEffect := 1, par := { State.reset.par with task := 7 } } : State), (7 : Nat),
     by unfold Serves; decide +kernel⟩,
   ⟨({ (State.reset.set R.secLcState 1) with roleInEffect := 1, par := { State.reset.par with tasks := [(7, some {})] } } : State), (7 : Nat), ({} : Task), by unfold Serves; decide +kernel⟩,
   ⟨({ (State.reset.set R.secLcState 1) with roleInEffect := 1, par := { State.reset.par with tasks := [(7, some {})] } } : State), (7 : Nat), ({} : Task), by decide +kernel⟩,
   ⟨({ (State.reset.set R.secLcState 1) with roleInEffect := 1 } : State), (7 : Nat), by unfold Serves; decide +kernel⟩,
   ⟨({ (State.reset.set R.secLcState 1) with roleInEffect := 1, par := { State.reset.par with tasks := [(7, some {})] } } : State), (7 : Nat), ({} : Task), by unfold Serves; decide +kernel⟩,
   ⟨({ State.reset with par := { State.reset.par with exportTask := some 7 } } : State), (7 : Nat), by decide +kernel⟩,
   ⟨({ (State.reset.setObjN 0x2800 0x10 1) with roleInEffect := 1, par := { State.reset.par with task := 7, tasks := [(7, some { tiles := [(pairKey 0 0, { dirty := true })] })] } } : State), (7 : Nat), (0 : Int), (0 : Int), ({ tiles := [(pairKey 0 0, { dirty := true })] } : Task), by decide +kernel⟩,
   ⟨({ State.reset with par := { State.reset.par with task := 7, tasks := [(7, some { origin := [0, 0, 0] })] } } : State),
     (7 : Nat), (List.replicate 44 0 ++ [1#8] ++ List.replicate 65551 0 : List Byte), ({ origin := [0, 0, 0] } : Task),
     by decide +kernel⟩,
   ⟨({ State.reset with par := { State.reset.par with task := 7, tasks := [(7, some { origin := [State.reset.objN 0x2400 2, State.reset.objN 0x2400 3, State.reset.objN 0x2400 4] })] } } : State), (4095 : Nat), (d64 (State.reset.objN 0x2400 2) ++ d64 (State.reset.objN 0x2400 3) ++ d64 (State.reset.objN 0x2400 4) ++ d16 (cellSize State.reset) ++ List.replicate 18 0 ++ [1#8] ++ List.replicate 65551 0 : List Byte), ({ origin := [State.reset.objN 0x2400 2, State.reset.objN 0x2400 3, State.reset.objN 0x2400 4] } : Task), by decide +kernel⟩,
   ⟨(State.reset : State), (7 : Nat), by decide +kernel⟩⟩

/-- Each clause of SectionsAreTimed with hypotheses: a state and operands that meet them. -/
theorem witness_SectionsAreTimed :
    (∃ (s : State) (ts : Nat) (issue : Nat) (w : Word),
     (ghRefusal ((s.wr64 R.ghTsLo ts).wr R.ghIssue (BitVec.ofNat 32 issue)) (ghCommand ((s.wr64 R.ghTsLo ts).wr R.ghIssue (BitVec.ofNat 32 issue)) w) (bits w 0 2) ≠ 0)) ∧
    (∃ (s : State) (ts : Nat) (issue : Nat) (w : Word), (s.gh.queue = []) ∧ (1 ≤ bits w 0 2)
     ∧ (ghRefusal ((s.wr64 R.ghTsLo ts).wr R.ghIssue (BitVec.ofNat 32 issue)) (ghCommand ((s.wr64 R.ghTsLo ts).wr R.ghIssue (BitVec.ofNat 32 issue)) w) (bits w 0 2) = 0) ∧ (s.time.dev ≤ (ghCommand ((s.wr64 R.ghTsLo ts).wr R.ghIssue (BitVec.ofNat 32 issue)) w).ts + us (s.get R.ghLateLateMax))) ∧
    (∃ (s : State) (c : GhCmd), (ghEarliest s.gh.queue = some c) ∧ (s.flag R.ghCtrlEn = true) ∧ (c.fresh = false)
     ∧ (c.ts ≤ s.ce.lastBoundary)) ∧
    (∃ (s : State), (s.gh.queue ≠ []) ∧ (s.gh.queue.length ≤ 256)) ∧
    (∃ (s : State), (s.gh.queue = [])) ∧
    (∃ (s : State) (v : Nat), (v ≤ 65535) ∧ (s.get R.ghEpochEpoch < v)) ∧
    (∃ (s : State) (v : Nat), (v ≤ s.get R.ghEpochEpoch)) ∧
    (∃ (s : State) (k : Nat) (v : Nat), (Serves s) ∧ (k < 128) ∧ (v ≤ 2) ∧ (s.hearth = true)) ∧
    (∃ (s : State) (k : Nat) (v : Nat), (k < 128) ∧ (v ≤ 2) ∧ (s.hearth = true)) ∧
    (∃ (s : State) (k : Nat) (v : Nat), (Serves s) ∧ (k < 128) ∧ (3 ≤ v) ∧ (v < 256)) ∧
    (∃ (s : State) (k : Nat) (v : Nat), (Serves s) ∧ (k < 128) ∧ (v ≤ 2) ∧ (s.hearth = false)) ∧
    (∃ (s : State), (s.serving = true) ∧ (s.rtRuns 1 = true) ∧ (s.activeHearth = false)) ∧
    (∃ (s : State), (s.serving = true) ∧ (s.rtRuns 1 = true) ∧ (s.activeHearth = true) ∧ (motionOf s = none) ∧ (poseLost s = true)
     ∧ (s.gate.fallback = false) ∧ (s.gate.sects = []) ∧ (s.objN 0x2800 0x24 = 0) ∧ (Room s 1)) ∧
    (∃ (s : State), (s.serving = true) ∧ (s.rtRuns 1 = true) ∧ (s.activeHearth = true)) :=
  ⟨⟨(State.reset : State), (5 : Nat), (4 : Nat), (3 : Word), by decide +kernel⟩,
   ⟨((State.reset.set R.ghCtrlEn 1).set (R.lsCctrlMode 3) 1 : State), (0 : Nat), (4 : Nat), (0x1D : Word), by decide +kernel⟩,
   ⟨({ ((State.reset.set R.ghCtrlEn 1).set R.ghStatSync 1) with gh := { State.reset.gh with queue := [{ kind := 1, ch := 31, fresh := false }] } } : State), ({ kind := 1, ch := 31, fresh := false } : GhCmd), by decide +kernel⟩,
   ⟨({ State.reset with gh := { State.reset.gh with queue := [{}] } } : State), by decide +kernel⟩,
   ⟨(State.reset : State), by decide +kernel⟩,
   ⟨({ State.reset with gh := { State.reset.gh with queue := [{}] } } : State), (65535 : Nat), by decide +kernel⟩,
   ⟨(State.reset : State), (0 : Nat), by decide +kernel⟩,
   ⟨({ (State.reset.set R.secLcState 1) with roleInEffect := 1 } : State), (127 : Nat), (2 : Nat),
     by unfold Serves; decide +kernel⟩,
   ⟨({ (State.reset.set R.secLcState 1) with roleInEffect := 1 } : State), (127 : Nat), (2 : Nat), by decide +kernel⟩,
   ⟨({ (State.reset.set R.secLcState 1) with roleInEffect := 1 } : State), (127 : Nat), (3 : Nat),
     by unfold Serves; decide +kernel⟩,
   ⟨({ (State.reset.set R.secLcState 1) with roleInEffect := 0 } : State), (127 : Nat), (2 : Nat),
     by unfold Serves; decide +kernel⟩,
   ⟨({ State.reset with roleInEffect := 0 } : State), by decide +kernel⟩,
   ⟨(({ State.reset with roleInEffect := 1, gate := { State.reset.gate with fallback := false } }.set R.fbStatTwin 0).setObjN 0x2800 0x24 0 : State), by unfold Room; decide +kernel⟩,
   ⟨({ State.reset with roleInEffect := 1 }.set R.fbStatTwin 0 : State), by decide +kernel⟩⟩

/-- Each clause of SteeringEngagesAndDisengages with hypotheses: a state and operands that meet them. -/
theorem witness_SteeringEngagesAndDisengages :
    (∃ (s : State) (v : Nat), (Serves s) ∧ (s.hearth = true) ∧ (v = 1) ∧ (s.steer.state ≠ 2)) ∧
    (∃ (s : State) (v : Nat), (Serves s) ∧ (s.hearth = true) ∧ (v = 0)) ∧
    (∃ (s : State) (v : Nat), (Serves s) ∧ (s.hearth = true) ∧ (v = 1) ∧ (s.steer.state = 2)) ∧
    (∃ (s : State) (v : Nat), (Serves s) ∧ (2 ≤ v) ∧ (v < 256)) ∧
    (∃ (s : State) (v : Nat), (Serves s) ∧ (s.hearth = false) ∧ (v ≤ 1)) ∧
    (∃ (s : State), (s.serving = true) ∧ (s.rtRuns 1 = true) ∧ (s.hearth = false)) ∧
    (∃ (s : State), (s.serving = true) ∧ (s.rtRuns 1 = true) ∧ (s.activeHearth = true) ∧ (s.stN 0x01 = 1) ∧ (s.steer.state = 1)
     ∧ (s.steer.first = false) ∧ (s.steer.request = true)
     ∧ ((engageFails ((s.devTo (gridNext (ms 20) s.steer.last s.time.dev)).setSteer { s.steer with last := some (gridNext (ms 20) s.steer.last s.time.dev) }) (gridNext (ms 20) s.steer.last s.time.dev) (steerErrors ((s.devTo (gridNext (ms 20) s.steer.last s.time.dev)).setSteer { s.steer with last := some (gridNext (ms 20) s.steer.last s.time.dev) }) (gridNext (ms 20) s.steer.last s.time.dev) none)) ≠ 0) ∧ (Room s 1)) ∧
    (∃ (s : State), (s.serving = true) ∧ (s.rtRuns 1 = true) ∧ (s.activeHearth = true) ∧ (s.stN 0x01 = 1) ∧ (s.steer.state = 2)
     ∧ (s.steer.first = false) ∧ (s.steer.release = true) ∧ (s.stN 0x12 ≠ 0) ∧ (Room s 1)) ∧
    (∃ (s : State) (b : List Byte), (Serves s) ∧ (b.length ≤ 4096) ∧ (geometryFault (s.stN 0x04) b = none)) ∧
    (∃ (s : State) (b : List Byte) (n : Nat), (Serves s) ∧ (b.length ≤ 4096) ∧ (geometryFault (s.stN 0x04) b = some n)) ∧
    (∃ (s : State) (n : Nat), (((watchedLoops s).any fun n => !s.flag (R.ceLctrlManual n)) = true)) ∧
    (∃ (s : State), (s.serving = true) ∧ (s.rtRuns 1 = true) ∧ (s.hearth = true)
     ∧ (((steerPower ((s.devTo (gridNext (ms 20) s.steer.last s.time.dev)).setSteer { s.steer with last := some (gridNext (ms 20) s.steer.last s.time.dev) })).steer.state = 1 ∨ (steerPower ((s.devTo (gridNext (ms 20) s.steer.last s.time.dev)).setSteer { s.steer with last := some (gridNext (ms 20) s.steer.last s.time.dev) })).steer.state = 2))) ∧
    (∃ (s : State), (s.serving = true) ∧ (s.rtRuns 1 = true) ∧ (s.hearth = true)
     ∧ ((steerPower ((s.devTo (gridNext (ms 20) s.steer.last s.time.dev)).setSteer { s.steer with last := some (gridNext (ms 20) s.steer.last s.time.dev) })).steer.state = 0) ∧ ((steerPower ((s.devTo (gridNext (ms 20) s.steer.last s.time.dev)).setSteer { s.steer with last := some (gridNext (ms 20) s.steer.last s.time.dev) })).steer.request = false)) :=
  ⟨⟨({ (State.reset.set R.secLcState 1) with roleInEffect := 1 } : State), (1 : Nat), by unfold Serves; decide +kernel⟩,
   ⟨({ (State.reset.set R.secLcState 1) with roleInEffect := 1 } : State), (0 : Nat), by unfold Serves; decide +kernel⟩,
   ⟨({ (State.reset.set R.secLcState 1) with roleInEffect := 1 }.setSteer { state := 2 } : State), (1 : Nat),
     by unfold Serves; decide +kernel⟩,
   ⟨({ (State.reset.set R.secLcState 1) with roleInEffect := 1 } : State), (2 : Nat), by unfold Serves; decide +kernel⟩,
   ⟨({ (State.reset.set R.secLcState 1) with roleInEffect := 0 } : State), (1 : Nat), by unfold Serves; decide +kernel⟩,
   ⟨({ State.reset with roleInEffect := 0 } : State), by decide +kernel⟩,
   ⟨(({ State.reset with roleInEffect := 1 }.setObjN 0x2900 1 1).setSteer { state := 1, first := false, request := true } : State), by unfold Room; decide +kernel⟩,
   ⟨((({ State.reset with roleInEffect := 1 }.setObjN 0x2900 1 1).setObjN 0x2900 0x12 5).setSteer { state := 2, first := false, release := true } : State), by unfold Room; decide +kernel⟩,
   ⟨({ (State.reset.set R.secLcState 1) with roleInEffect := 1 } : State), ([] : List Byte), by unfold Serves; decide +kernel⟩,
   ⟨({ (State.reset.set R.secLcState 1) with roleInEffect := 1 } : State), ([1#8] : List Byte), (0 : Nat),
     by unfold Serves; decide +kernel⟩,
   ⟨(State.reset.setObj 0x2900 0x21 (.bytes [63#8]) : State), (0 : Nat), by decide +kernel⟩,
   ⟨({ State.reset with roleInEffect := 1 }.setObjN 0x2900 1 1 |>.set R.fbStatTwin 0 : State), by decide +kernel⟩,
   ⟨(({ State.reset with roleInEffect := 1 }.setObjN 0x2900 1 0).set R.secLcState 1 : State), by decide +kernel⟩⟩

/-- Each clause of FabricDiscoversAndForwards with hypotheses: a state and operands that meet them. -/
theorem witness_FabricDiscoversAndForwards :
    (∃ (s : State) (p : Nat), (s.gateOn 9 = true) ∧ (p < 6) ∧ (s.flag (R.fbPstatLink p) = false)) ∧
    (∃ (s : State) (p : Nat), (s.gateOn 9 = true) ∧ (p < 6) ∧ (s.flag (R.fbPstatLink p) = true)) ∧
    (∃ (s : State) (p : Nat), (s.gateOn 9 = true) ∧ (p < 6) ∧ (s.portUp p = true)
     ∧ (s.hearth = true ∨ s.flag R.fbStatAssigned = false)) ∧
    (∃ (s : State) (p : Nat) (up : Nat) (serial : Nat) (vp : Nat), (s.gateOn 9 = true) ∧ (p < 6) ∧ (s.portUp p = true)
     ∧ (s.hearth = true) ∧ ((serial ≠ twinSerial s ∨ serial = 0)) ∧ (vp < 6) ∧ (up < 6)) ∧
    (∃ (s : State) (p : Nat) (up : Nat) (vl : Nat) (vh : Nat), (s.gateOn 9 = true) ∧ (p < 6) ∧ (s.portUp p = true)
     ∧ (s.activeHearth = true) ∧ (up < 6) ∧ (s.fab.nodes = []) ∧ (s.fab.links = []) ∧ (s.fab.blocked = none)
     ∧ (s.fab.broken = none) ∧ (s.fab.superseded = none) ∧ (s.fab.pushes = []) ∧ (s.ownId ≠ 16) ∧ (vl ≤ ownVer s + 1)
     ∧ (ownVer s ≤ vh + 1)) ∧
    (∃ (s : State) (p : Nat) (id : Nat) (up : Nat) (n1 : Nat) (n2 : Nat) (serial : Nat) (e : Nat) (path : List Nat),
     (s.gateOn 9 = true) ∧ (p < 6) ∧ (s.hearth = false) ∧ (up < 6) ∧ (16 ≤ id) ∧ (id ≤ 0xFFEF) ∧ (path.length ≤ 15)
     ∧ (s.fab.bound = []) ∧ (n1 ≠ 0) ∧ (n2 ≠ 0) ∧ (s.fab.epoch < e ∨ (s.fab.epoch = e ∧ serial = s.fab.setter))) ∧
    (∃ (s : State) (p : Nat) (id : Nat) (up : Nat) (serial : Nat) (path : List Nat), (s.gateOn 9 = true) ∧ (p < 6)
     ∧ (s.hearth = false) ∧ (up < 6) ∧ (16 ≤ id) ∧ (id ≤ 0xFFEF) ∧ (path.length ≤ 15) ∧ (s.fab.bound ≠ [])
     ∧ (serial ∉ s.fab.bound)) ∧
    (∃ (s : State) (p : Nat), (s.gateOn 9 = true) ∧ (p < 6) ∧ (s.fab.bound ≠ [])) ∧
    (∃ (s : State) (p : Nat) (b : Nat) (us_ : Nat) (f : FlueFrame), (s.gateOn 9 = true) ∧ (p < 6) ∧ (s.passes p f.kind = true)
     ∧ (isFlue s f) ∧ (f.cls ≤ 6) ∧ (f.flood = false) ∧ (f.inbound = false) ∧ (f.path[f.pidx]? = some b) ∧ (b < 6)
     ∧ (s.passes b f.kind = true) ∧ (us_ ≤ 10)) ∧
    (∃ (s : State) (p : Nat) (f : FlueFrame), (s.gateOn 9 = true) ∧ (p < 6) ∧ (s.passes p f.kind = true) ∧ (isFlue s f)
     ∧ (f.cls ≤ 6) ∧ (f.flood = true) ∧ ((s.fab.seen.any fun y => y.1 == f.src && y.2.1 == f.seq && decide (s.now < y.2.2 + ms 10)) = true)) ∧
    (∃ (s : State) (p : Nat) (a : Nat) (pre : Bool), (s.gateOn 9 = true) ∧ (p < 6) ∧ (s.fab.ringAt = some a)
     ∧ (s.activeHearth = true) ∧ (s.fab.blocked ≠ none) ∧ ((pre = true ∨ s.fab.ringMiss < 2))) ∧
    (∃ (s : State) (p : Nat) (a : Nat), (s.gateOn 9 = true) ∧ (p < 6) ∧ (s.fab.ringAt = some a) ∧ (s.activeHearth = true)
     ∧ (s.fab.blocked ≠ none) ∧ (2 ≤ s.fab.ringMiss)) ∧
    (∃ (s : State) (p : Nat) (a : Nat) (pa : Nat) (b : Nat) (pb : Nat), (s.gateOn 9 = true) ∧ (p < 6) ∧ (s.activeHearth = true)
     ∧ (s.fab.links = [⟨a, pa, b, pb⟩]) ∧ (s.fab.blocked ≠ none) ∧ (s.fab.blocked ≠ some ⟨a, pa, b, pb⟩)) ∧
    (∃ (s : State) (p : Nat) (id : Nat) (w : Nat × List Nat × Nat) (x : Node), (s.gateOn 9 = true) ∧ (p < 6) ∧ (Serves s)
     ∧ (id < 65536) ∧ (s.activeHearth = true) ∧ (s.node id = some x) ∧ (s.fab.withheld = some w)) ∧
    (∃ (s : State) (p : Nat) (id : Nat) (w : Nat × List Nat × Nat) (x : Node), (s.gateOn 9 = true) ∧ (p < 6)
     ∧ (s.activeHearth = true) ∧ (s.node id = some x) ∧ (s.fab.withheld = some w)) ∧
    (∃ (s : State) (p : Nat) (id : Nat), (s.gateOn 9 = true) ∧ (p < 6) ∧ (Serves s) ∧ (id < 65536)
     ∧ ((s.activeHearth = false ∨ (s.node id ≠ none ∧ s.fab.withheld = none)))) ∧
    (∃ (s : State) (p : Nat) (id : Nat), (s.gateOn 9 = true) ∧ (p < 6) ∧ (Serves s) ∧ (id < 65536) ∧ (s.activeHearth = true)
     ∧ (s.node id = none)) ∧
    (∃ (s : State) (p : Nat), (s.gateOn 9 = true) ∧ (p < 6)) ∧
    (∃ (s : State) (p : Nat) (up : Nat) (vp : Nat) (role : Nat), (s.gateOn 9 = true) ∧ (p < 6) ∧ (s.portUp p = true) ∧ (vp < 6)
     ∧ (up < 6) ∧ (s.activeHearth = true) ∧ (role ≠ 1)) ∧
    (∃ (s : State) (p : Nat) (up : Nat) (vp : Nat), (s.gateOn 9 = true) ∧ (p < 6) ∧ (s.portUp p = true) ∧ (vp < 6) ∧ (up < 6)
     ∧ (s.hearth = false) ∧ (s.flag R.fbStatAssigned = true)) ∧
    (∃ (s : State) (p : Nat) (id : Nat) (up : Nat) (path : List Nat), (s.gateOn 9 = true) ∧ (p < 6) ∧ (s.hearth = false)
     ∧ (up < 6) ∧ (16 ≤ id) ∧ (id ≤ 0xFFEF) ∧ (path.length ≤ 15)) ∧
    (∃ (s : State) (p : Nat) (f : FlueFrame), (s.gateOn 9 = true) ∧ (p < 6) ∧ (s.passes p f.kind = true) ∧ (isFlue s f)
     ∧ (f.cls ≤ 6)) ∧
    (∃ (s : State) (p : Nat) (a : Nat) (pa : Nat) (b : Nat) (pb : Nat) (l : Link), (s.gateOn 9 = true) ∧ (p < 6)
     ∧ (s.activeHearth = true) ∧ ((s.fab.links.find? fun y => y == ⟨a, pa, b, pb⟩ || y == ⟨b, pb, a, pa⟩) = some l)) :=
  ⟨⟨((State.reset.set ⟨R.ckGrun, 9, 1⟩ 1) : State), (5 : Nat), by decide +kernel⟩,
   ⟨((State.reset.set ⟨R.ckGrun, 9, 1⟩ 1).set (R.fbPstatLink 5) 1 : State), (5 : Nat), by decide +kernel⟩,
   ⟨(((((State.reset.set ⟨R.ckGrun, 9, 1⟩ 1).set (R.fbPstatLink 5) 1).set (R.fbPctrlEn 5) 1).set R.fbCtrlEn 1) : State),
     (5 : Nat), by decide +kernel⟩,
   ⟨({ ((((State.reset.set ⟨R.ckGrun, 9, 1⟩ 1).set (R.fbPstatLink 5) 1).set (R.fbPctrlEn 5) 1).set R.fbCtrlEn 1) with roleInEffect := 1 } : State), (5 : Nat), (5 : Nat), (99 : Nat), (5 : Nat), by decide +kernel⟩,
   ⟨({ ((((State.reset.set ⟨R.ckGrun, 9, 1⟩ 1).set (R.fbPstatLink 5) 1).set (R.fbPctrlEn 5) 1).set R.fbCtrlEn 1) with roleInEffect := 1 } : State), (5 : Nat), (5 : Nat), (2 : Nat), (3 : Nat), by decide +kernel⟩,
   ⟨({ (State.reset.set ⟨R.ckGrun, 9, 1⟩ 1) with roleInEffect := 0 } : State), (5 : Nat), (16 : Nat), (5 : Nat), (99 : Nat),
     (98 : Nat), (99 : Nat), (10 : Nat), ([] : List Nat), by decide +kernel⟩,
   ⟨({ (State.reset.set ⟨R.ckGrun, 9, 1⟩ 1) with roleInEffect := 0, fab := { State.reset.fab with bound := [4] } } : State),
     (5 : Nat), (16 : Nat), (5 : Nat), (99 : Nat), ([] : List Nat), by decide +kernel⟩,
   ⟨({ (State.reset.set ⟨R.ckGrun, 9, 1⟩ 1) with fab := { State.reset.fab with bound := [4] } } : State), (5 : Nat),
     by decide +kernel⟩,
   ⟨((((((((State.reset.set ⟨R.ckGrun, 9, 1⟩ 1).set (R.fbPstatLink 5) 1).set (R.fbPctrlEn 5) 1).set R.fbCtrlEn 1).set (R.fbPstatLink 0) 1).set (R.fbPctrlEn 0) 1)) : State), (5 : Nat), (0 : Nat), (0 : Nat), ({ flF State.reset 5 0x10 0 [] with path := [0] } : FlueFrame), by decide +kernel⟩,
   ⟨({ ((((State.reset.set ⟨R.ckGrun, 9, 1⟩ 1).set (R.fbPstatLink 5) 1).set (R.fbPctrlEn 5) 1).set R.fbCtrlEn 1) with fab := { State.reset.fab with seen := [(0, 0, 0)] } } : State), (5 : Nat), ({ flF State.reset 5 0x10 0 [] with flood := true } : FlueFrame), by decide +kernel⟩,
   ⟨({ (State.reset.set ⟨R.ckGrun, 9, 1⟩ 1) with roleInEffect := 1, fab := { State.reset.fab with ringAt := some 0, blocked := some {} } } : State), (5 : Nat), (0 : Nat), (true : Bool), by decide +kernel⟩,
   ⟨({ (State.reset.set ⟨R.ckGrun, 9, 1⟩ 1) with roleInEffect := 1, fab := { State.reset.fab with ringAt := some 0, blocked := some {}, ringMiss := 2 } } : State), (5 : Nat), (0 : Nat), by decide +kernel⟩,
   ⟨({ (State.reset.set ⟨R.ckGrun, 9, 1⟩ 1) with roleInEffect := 1, fab := { State.reset.fab with links := [⟨1, 2, 3, 4⟩], blocked := some {} } } : State), (5 : Nat), (1 : Nat), (2 : Nat), (3 : Nat), (4 : Nat), by decide +kernel⟩,
   ⟨({ { (State.reset.set ⟨R.ckGrun, 9, 1⟩ 1).set R.secLcState 1 with roleInEffect := 1 } with fab := { State.reset.fab with nodes := [(17, some {})], withheld := some (5, [], 0) } } : State), (5 : Nat), (17 : Nat), ((5, [], 0) : Nat × List Nat × Nat), ({} : Node), by unfold Serves; decide +kernel⟩,
   ⟨({ { (State.reset.set ⟨R.ckGrun, 9, 1⟩ 1).set R.secLcState 1 with roleInEffect := 1 } with fab := { State.reset.fab with nodes := [(17, some {})], withheld := some (5, [], 0) } } : State), (5 : Nat), (17 : Nat), ((5, [], 0) : Nat × List Nat × Nat), ({} : Node), by decide +kernel⟩,
   ⟨({ (State.reset.set ⟨R.ckGrun, 9, 1⟩ 1).set R.secLcState 1 with roleInEffect := 0 } : State), (5 : Nat), (17 : Nat),
     by unfold Serves; decide +kernel⟩,
   ⟨({ (State.reset.set ⟨R.ckGrun, 9, 1⟩ 1).set R.secLcState 1 with roleInEffect := 1 } : State), (5 : Nat), (44 : Nat),
     by unfold Serves; decide +kernel⟩,
   ⟨((State.reset.set ⟨R.ckGrun, 9, 1⟩ 1) : State), (5 : Nat), by decide +kernel⟩,
   ⟨({ ((((State.reset.set ⟨R.ckGrun, 9, 1⟩ 1).set (R.fbPstatLink 5) 1).set (R.fbPctrlEn 5) 1).set R.fbCtrlEn 1) with roleInEffect := 1 } : State), (5 : Nat), (5 : Nat), (5 : Nat), (0 : Nat), by decide +kernel⟩,
   ⟨(({ ((((State.reset.set ⟨R.ckGrun, 9, 1⟩ 1).set (R.fbPstatLink 5) 1).set (R.fbPctrlEn 5) 1).set R.fbCtrlEn 1) with roleInEffect := 0 }).set R.fbStatAssigned 1 : State), (5 : Nat), (5 : Nat), (5 : Nat), by decide +kernel⟩,
   ⟨({ (State.reset.set ⟨R.ckGrun, 9, 1⟩ 1) with roleInEffect := 0 } : State), (5 : Nat), (16 : Nat), (5 : Nat), ([] : List Nat),
     by decide +kernel⟩,
   ⟨(((((State.reset.set ⟨R.ckGrun, 9, 1⟩ 1).set (R.fbPstatLink 5) 1).set (R.fbPctrlEn 5) 1).set R.fbCtrlEn 1) : State),
     (5 : Nat), (flF State.reset 5 0x10 0 [] : FlueFrame), by decide +kernel⟩,
   ⟨({ (State.reset.set ⟨R.ckGrun, 9, 1⟩ 1) with roleInEffect := 1, fab := { State.reset.fab with links := [⟨1, 2, 3, 4⟩] } } : State), (5 : Nat), (1 : Nat), (2 : Nat), (3 : Nat), (4 : Nat), (⟨1, 2, 3, 4⟩ : Link), by decide +kernel⟩⟩

/-- Each clause of FabricCarriesValuesAndTime with hypotheses: a state and operands that meet them. -/
theorem witness_FabricCarriesValuesAndTime :
    (∃ (s : State) (r : Nat), (s.gateOn 9 = true) ∧ (r < 2048)) ∧
    (∃ (s : State) (e : Nat), (s.gateOn 9 = true) ∧ (s.hearth = false) ∧ (e < s.fab.epoch)) ∧
    (∃ (s : State), (s.gateOn 9 = true) ∧ (s.activeHearth = true)) ∧
    (∃ (s : State) (sender : Nat) (serial : Nat) (e : Nat), (s.gateOn 9 = true) ∧ (s.hearth = false) ∧ (sender ≤ 2)
     ∧ (serial ∈ s.fab.bound) ∧ ((s.fab.epoch < e ∨ (s.fab.epoch = e ∧ serial = s.fab.setter)))) ∧
    (∃ (s : State) (sender : Nat) (serial : Nat) (e : Nat), (s.gateOn 9 = true) ∧ (s.hearth = false) ∧ (sender ≤ 2)
     ∧ (serial ∈ s.fab.bound) ∧ (e < s.fab.epoch)) ∧
    (∃ (s : State) (a : Nat), (s.gateOn 9 = true) ∧ (s.fab.holdEnd = some a)) ∧
    (∃ (s : State) (q : Nat) (off : Int), (s.gateOn 9 = true) ∧ (s.activeHearth = false) ∧ (q ≤ 4) ∧ (off.natAbs ≤ 1000)
     ∧ (7 ≤ s.fab.syncs)) ∧
    (∃ (s : State) (q : Nat) (off : Int), (s.gateOn 9 = true) ∧ (s.activeHearth = false) ∧ (q ≤ 4) ∧ (off.natAbs > 10000)) ∧
    (∃ (s : State) (a : Nat), (s.gateOn 9 = true) ∧ (s.fab.syncAt = some a) ∧ (s.flag R.fbStatSync = true)) ∧
    (∃ (s : State) (seq : Nat) (w : AckWait), (s.gateOn 9 = true) ∧ ((s.fab.waits.find? fun y => y.frame.seq == seq) = some w)
     ∧ (w.tries < s.objN 0x3000 0x0B)) ∧
    (∃ (s : State) (seq : Nat) (w : AckWait), (s.gateOn 9 = true) ∧ ((s.fab.waits.find? fun y => y.frame.seq == seq) = some w)
     ∧ (s.objN 0x3000 0x0B ≤ w.tries) ∧ (w.frame.kind = 0x20 ∨ w.hop = none)) ∧
    (∃ (s : State) (cls : Nat) (fh : Bool), (s.gateOn 9 = true) ∧ (cls ≠ 6 ∨ fh = false ∨ s.hearth = true)) ∧
    (∃ (s : State) (serial : Nat) (e : Nat), (s.gateOn 9 = true) ∧ (s.hearth = false) ∧ ((s.fab.epoch < e ∨ (s.fab.epoch = e
     ∧ serial = s.fab.setter)))) ∧
    (∃ (s : State) (sender : Nat), (s.gateOn 9 = true) ∧ (s.hearth = true ∨ 2 < sender)) ∧
    (∃ (s : State) (q : Nat), (s.gateOn 9 = true) ∧ (s.activeHearth = false) ∧ (q ≤ 4)) :=
  ⟨⟨((State.reset.set ⟨R.ckGrun, 9, 1⟩ 1) : State), (2047 : Nat), by decide +kernel⟩,
   ⟨({ (State.reset.set ⟨R.ckGrun, 9, 1⟩ 1) with roleInEffect := 0, fab := { State.reset.fab with epoch := 5 } } : State),
     (4 : Nat), by decide +kernel⟩,
   ⟨({ (State.reset.set ⟨R.ckGrun, 9, 1⟩ 1) with roleInEffect := 1 } : State), by decide +kernel⟩,
   ⟨({ (State.reset.set ⟨R.ckGrun, 9, 1⟩ 1) with roleInEffect := 0, fab := { State.reset.fab with epoch := 5, bound := [7], setter := 7 } } : State), (0 : Nat), (7 : Nat), (5 : Nat), by decide +kernel⟩,
   ⟨({ (State.reset.set ⟨R.ckGrun, 9, 1⟩ 1) with roleInEffect := 0, fab := { State.reset.fab with epoch := 5, bound := [7], setter := 7 } } : State), (0 : Nat), (7 : Nat), (4 : Nat), by decide +kernel⟩,
   ⟨({ (State.reset.set ⟨R.ckGrun, 9, 1⟩ 1) with fab := { State.reset.fab with holdEnd := some 5 } } : State), (5 : Nat),
     by decide +kernel⟩,
   ⟨({ (State.reset.set ⟨R.ckGrun, 9, 1⟩ 1) with roleInEffect := 0, fab := { State.reset.fab with syncs := 7 } } : State),
     (4 : Nat), (1000 : Int), by decide +kernel⟩,
   ⟨({ (State.reset.set ⟨R.ckGrun, 9, 1⟩ 1) with roleInEffect := 0 } : State), (4 : Nat), (10001 : Int), by decide +kernel⟩,
   ⟨({ (State.reset.set ⟨R.ckGrun, 9, 1⟩ 1).set R.fbStatSync 1 with roleInEffect := 0, fab := { State.reset.fab with syncAt := some 4 } } : State), (4 : Nat), by decide +kernel⟩,
   ⟨({ (State.reset.set ⟨R.ckGrun, 9, 1⟩ 1) with fab := { State.reset.fab with waits := [{ frame := { flF State.reset 5 0x10 0 [] with seq := 4 } }] } } : State), (4 : Nat), ({ frame := { flF State.reset 5 0x10 0 [] with seq := 4 } } : AckWait), by decide +kernel⟩,
   ⟨({ (State.reset.set ⟨R.ckGrun, 9, 1⟩ 1) with fab := { State.reset.fab with waits := [{ frame := { flF State.reset 5 0x10 0 [] with seq := 4 }, tries := 15 }] } } : State), (4 : Nat), ({ frame := { flF State.reset 5 0x10 0 [] with seq := 4 }, tries := 15 } : AckWait), by decide +kernel⟩,
   ⟨((State.reset.set ⟨R.ckGrun, 9, 1⟩ 1) : State), (5 : Nat), (false : Bool), by decide +kernel⟩,
   ⟨({ (State.reset.set ⟨R.ckGrun, 9, 1⟩ 1) with roleInEffect := 0, fab := { State.reset.fab with epoch := 5, bound := [7], setter := 7 } } : State), (7 : Nat), (5 : Nat), by decide +kernel⟩,
   ⟨((State.reset.set ⟨R.ckGrun, 9, 1⟩ 1) : State), (3 : Nat), by decide +kernel⟩,
   ⟨({ (State.reset.set ⟨R.ckGrun, 9, 1⟩ 1) with roleInEffect := 0 } : State), (4 : Nat), by decide +kernel⟩⟩

/-- Each clause of TwinHearthsTakeOver with hypotheses: a state and operands that meet them. -/
theorem witness_TwinHearthsTakeOver :
    (∃ (s : State), (s.gateOn 9 = true) ∧ (s.hearth = true) ∧ (twinState s = 1)) ∧
    (∃ (s : State), (s.gateOn 9 = true) ∧ (s.hearth = true) ∧ (twinState s = 2)) ∧
    (∃ (s : State) (a : Nat), (s.gateOn 9 = true) ∧ (s.fab.started = some a) ∧ (twinState s = 3) ∧ (s.fab.epoch < 65535)
     ∧ (s.fab.epoch = s.get R.ghEpochEpoch)) ∧
    (∃ (s : State), (s.gateOn 9 = true) ∧ (s.hearth = true) ∧ (twinState s = 2) ∧ (s.fab.epoch < 65535)
     ∧ (s.fab.epoch = s.get R.ghEpochEpoch)) ∧
    (∃ (s : State) (serial : Nat) (e : Nat) (seq : Nat), (s.gateOn 9 = true) ∧ (s.hearth = true) ∧ (twinState s = 1)
     ∧ (serial = twinSerial s) ∧ (serial ≠ 0) ∧ (seq < 4294967296) ∧ (s.fab.epoch < e ∨ (e = s.fab.epoch ∧ serial < serialOf s))) ∧
    (∃ (s : State) (e : Nat) (seq : Nat) (v : Nat), (s.gateOn 9 = true) ∧ (s.hearth = true) ∧ (twinState s = 1)
     ∧ (s.fab.epoch < e) ∧ (v = 0x13 ∨ v = 0x16) ∧ ((v = 0x13 ∨ s.fab.superseded ≠ some e)) ∧ (seq < 4294967296)) ∧
    (∃ (s : State), (s.gateOn 9 = true) ∧ (Serves s) ∧ (s.lifeCycle = 3) ∧ (s.hearth = true) ∧ (twinState s = 1)) ∧
    (∃ (s : State), (s.gateOn 9 = true) ∧ (s.lifeCycle = 3) ∧ (s.hearth = true) ∧ (twinState s = 1)) ∧
    (∃ (s : State), (s.gateOn 9 = true) ∧ (Serves s) ∧ ((s.lifeCycle ≠ 3 ∨ s.hearth = false ∨ twinState s ≠ 1))) ∧
    (∃ (s : State) (serial : Nat), (s.gateOn 9 = true) ∧ (s.hearth = false) ∧ (serial = s.fab.setter)) ∧
    (∃ (s : State) (serial : Nat) (e : Nat) (v : Nat) (old : Nat), (s.gateOn 9 = true)
     ∧ (e ≠ s.fab.epoch ∨ old ≠ e ∨ v ≠ 1 ∨ (s.hearth = false ∧ serial ≠ s.fab.setter) ∨ (s.hearth = true
     ∧ serial ≠ twinSerial s))) ∧
    (∃ (s : State) (serial : Nat) (seq : Nat), (s.gateOn 9 = true) ∧ (s.hearth = true) ∧ (twinSerial s = serial) ∧ (serial ≠ 0)
     ∧ (seq < 4294967296)) ∧
    (∃ (s : State) (serial : Nat), (s.gateOn 9 = true) ∧ (s.hearth = true) ∧ (serial = twinSerial s) ∧ (serial ≠ 0)) ∧
    (∃ (s : State) (a : Nat), (s.gateOn 9 = true) ∧ (s.fab.started = some a) ∧ (twinState s = 3)) :=
  ⟨⟨({ (State.reset.set ⟨R.ckGrun, 9, 1⟩ 1).set R.fbStatTwin 1 with roleInEffect := 1, fab := { State.reset.fab with hbAt := some 4 } } : State), by decide +kernel⟩,
   ⟨({ (State.reset.set ⟨R.ckGrun, 9, 1⟩ 1).set R.fbStatTwin 2 with roleInEffect := 1 } : State), by decide +kernel⟩,
   ⟨({ (State.reset.set ⟨R.ckGrun, 9, 1⟩ 1).set R.fbStatTwin 3 with roleInEffect := 1, fab := { State.reset.fab with started := some 4, epoch := State.reset.get R.ghEpochEpoch } } : State), (4 : Nat), by decide +kernel⟩,
   ⟨({ (State.reset.set ⟨R.ckGrun, 9, 1⟩ 1).set R.fbStatTwin 2 with roleInEffect := 1, fab := { State.reset.fab with epoch := State.reset.get R.ghEpochEpoch } } : State), by decide +kernel⟩,
   ⟨({ ((State.reset.set ⟨R.ckGrun, 9, 1⟩ 1).set R.fbStatTwin 1).setObjN 0x3080 2 5 with roleInEffect := 1 } : State), (5 : Nat),
     (9 : Nat), (0 : Nat), by decide +kernel⟩,
   ⟨({ ((State.reset.set ⟨R.ckGrun, 9, 1⟩ 1).set R.fbStatTwin 1) with roleInEffect := 1 } : State), (9 : Nat), (0 : Nat),
     (0x13 : Nat), by decide +kernel⟩,
   ⟨({ ((State.reset.set ⟨R.ckGrun, 9, 1⟩ 1).set R.fbStatTwin 1).set R.secLcState 3 with roleInEffect := 1 } : State),
     by unfold Serves; decide +kernel⟩,
   ⟨({ ((State.reset.set ⟨R.ckGrun, 9, 1⟩ 1).set R.fbStatTwin 1).set R.secLcState 3 with roleInEffect := 1 } : State),
     by decide +kernel⟩,
   ⟨((State.reset.set ⟨R.ckGrun, 9, 1⟩ 1).set R.secLcState 1 : State), by unfold Serves; decide +kernel⟩,
   ⟨({ (State.reset.set ⟨R.ckGrun, 9, 1⟩ 1) with roleInEffect := 0 } : State), (State.reset.fab.setter : Nat), by decide +kernel⟩,
   ⟨((State.reset.set ⟨R.ckGrun, 9, 1⟩ 1) : State), (5 : Nat), (3 : Nat), (0 : Nat), (4 : Nat), by decide +kernel⟩,
   ⟨({ ((State.reset.set ⟨R.ckGrun, 9, 1⟩ 1).set R.fbStatTwin 1).setObjN 0x3080 2 5 with roleInEffect := 1 } : State), (5 : Nat),
     (0 : Nat), by decide +kernel⟩,
   ⟨({ (State.reset.set ⟨R.ckGrun, 9, 1⟩ 1).setObjN 0x3080 2 5 with roleInEffect := 1 } : State), (5 : Nat), by decide +kernel⟩,
   ⟨({ (State.reset.set ⟨R.ckGrun, 9, 1⟩ 1).set R.fbStatTwin 3 with roleInEffect := 1, fab := { State.reset.fab with started := some 4 } } : State), (4 : Nat), by decide +kernel⟩⟩

/-- Each clause of ChimneyKeepsMessages with hypotheses: a state and operands that meet them. -/
theorem witness_ChimneyKeepsMessages :
    (∃ (s : State), (s.appServing = true) ∧ (chimneyRuns s = true) ∧ (s.chim.conn ≠ 2)) ∧
    (∃ (s : State), (s.appServing = true) ∧ (chimneyRuns s = true) ∧ (s.chim.conn = 3)) ∧
    (∃ (s : State), (s.chim.conn = 1 ∨ s.chim.conn = 2)) ∧
    (∃ (s : State) (kind : Nat) (b : List Byte), (1 ≤ kind) ∧ (kind ≤ 4) ∧ (chimneyForms s kind = true)
     ∧ (storedBytes s + 24 + b.length ≤ s.objN 0x30C0 0x04 * 1048576)) ∧
    (∃ (s : State) (m : Message), (s.chim.conn = 2) ∧ (m ∈ s.chim.store)) ∧
    (∃ (s : State) (kind : Nat), (s.appServing = true) ∧ (chimneyRuns s = true) ∧ (s.chim.conn = 2) ∧ (0x81 ≤ kind)
     ∧ (kind ≤ 0x83)) ∧
    (∃ (s : State), (s.appServing = true) ∧ (chimneyRuns s = true) ∧ (s.chim.conn = 2) ∧ (s.par.task = 0)) ∧
    (∃ (s : State), (s.appServing = true) ∧ (chimneyRuns s = true) ∧ (chimneyForms s 4 = true) ∧ (s.chim.store = [])
     ∧ (1 ≤ s.objN 0x30C0 0x04)) ∧
    (∃ (s : State), (s.appServing = true) ∧ (chimneyRuns s = true) ∧ (s.par.task ≠ 0)) ∧
    (∃ (kind : Nat), (1 ≤ kind) ∧ (kind ≤ 4)) ∧
    (∃ (s : State), (s.appServing = true) ∧ (chimneyRuns s = true)) :=
  ⟨⟨({ (State.reset.setObjN 0x30C0 1 1) with roleInEffect := 1, chim := { State.reset.chim with conn := 1, store := [⟨6, 4, []⟩] } } : State), by decide +kernel⟩,
   ⟨({ (State.reset.setObjN 0x30C0 1 1) with roleInEffect := 1, chim := { State.reset.chim with conn := 3 } } : State),
     by decide +kernel⟩,
   ⟨({ State.reset with chim := { State.reset.chim with conn := 2 } } : State), by decide +kernel⟩,
   ⟨({ ((State.reset.setObjN 0x30C0 1 1).setObjN 0x30C0 4 1).setObjN 0x30C0 0xA 15 with roleInEffect := 1 } : State), (4 : Nat),
     ([] : List Byte), by decide +kernel⟩,
   ⟨({ State.reset with chim := { State.reset.chim with conn := 2, store := [⟨6, 4, []⟩] } } : State), (⟨6, 4, []⟩ : Message),
     by decide +kernel⟩,
   ⟨({ (State.reset.setObjN 0x30C0 1 1) with roleInEffect := 1, chim := { State.reset.chim with conn := 2 } } : State),
     (0x83 : Nat), by decide +kernel⟩,
   ⟨({ (State.reset.setObjN 0x30C0 1 1) with roleInEffect := 1, chim := { State.reset.chim with conn := 2 } } : State),
     by decide +kernel⟩,
   ⟨({ ((State.reset.setObjN 0x30C0 1 1).setObjN 0x30C0 4 1).setObjN 0x30C0 0xA 15 with roleInEffect := 1 } : State),
     by decide +kernel⟩,
   ⟨({ (State.reset.setObjN 0x30C0 1 1) with roleInEffect := 1, par := { State.reset.par with task := 7, tasks := [(7, some {})] } } : State), by decide +kernel⟩,
   ⟨(4 : Nat), by decide +kernel⟩,
   ⟨({ (State.reset.setObjN 0x30C0 1 1) with roleInEffect := 1 } : State), by decide +kernel⟩⟩

/-- Each clause of CanChannelsReceiveAndSend with hypotheses: a state and operands that meet them. -/
theorem witness_CanChannelsReceiveAndSend :
    (∃ (s : State) (c : Nat) (b : Nat) (q : Nat), (c < 6) ∧ (b < 32) ∧ (q < 3) ∧ (s.gateOn (if c < 2 then 10 else 11) = true)
     ∧ (s.flag (R.cnCtrlEn c) = false) ∧ (canEnableErr s c = 0)) ∧
    (∃ (s : State) (c : Nat) (b : Nat) (q : Nat), (c < 6) ∧ (b < 32) ∧ (q < 3) ∧ (s.gateOn (if c < 2 then 10 else 11) = true)
     ∧ (s.flag (R.cnCtrlEn c) = false) ∧ (canEnableErr s c ≠ 0)) ∧
    (∃ (s : State) (c : Nat) (b : Nat) (q : Nat) (tec : Nat) (x : CanFrame), (c < 6) ∧ (b < 32) ∧ (q < 3)
     ∧ (s.gateOn (if c < 2 then 10 else 11) = true) ∧ (s.flag (R.cnCtrlEn c) = true) ∧ (s.get (R.cnStatState c) ≠ 2)
     ∧ (s.get (R.cnCtrlMode c) ≠ 3) ∧ (s.ps.due = 0) ∧ (s.ps.shut = none) ∧ (firstFilter s c x = none)
     ∧ (s.get (R.cnRxdefAction c) = 1) ∧ (forDictionary s c x = false) ∧ (x.data.length ≤ 64) ∧ (tec ≤ 255)
     ∧ (s.flag (queueOwn c 1 (s.get (R.cnQputPut c 1))) = false)) ∧
    (∃ (s : State) (c : Nat) (b : Nat) (q : Nat) (tec : Nat) (x : CanFrame), (c < 6) ∧ (b < 32) ∧ (q < 3)
     ∧ (s.gateOn (if c < 2 then 10 else 11) = true) ∧ (s.flag (R.cnCtrlEn c) = true) ∧ (s.get (R.cnStatState c) ≠ 2)
     ∧ (s.get (R.cnCtrlMode c) ≠ 3) ∧ (s.ps.due = 0) ∧ (s.ps.shut = none) ∧ (firstFilter s c x = none)
     ∧ (s.get (R.cnRxdefAction c) = 1) ∧ (forDictionary s c x = false) ∧ (tec ≤ 255)
     ∧ (s.flag (queueOwn c 1 (s.get (R.cnQputPut c 1))) = true)) ∧
    (∃ (s : State) (c : Nat) (b : Nat) (q : Nat) (i : Nat), (c < 6) ∧ (b < 32) ∧ (q < 3)
     ∧ (s.gateOn (if c < 2 then 10 else 11) = true) ∧ (i < queueDepth q) ∧ (s.flag (queueOwn c q i) = true)) ∧
    (∃ (s : State) (c : Nat) (b : Nat) (q : Nat) (i : Nat), (c < 6) ∧ (b < 32) ∧ (q < 3)
     ∧ (s.gateOn (if c < 2 then 10 else 11) = true) ∧ (i < queueDepth q) ∧ (s.flag (queueOwn c q i) = false)) ∧
    (∃ (s : State) (c : Nat) (b : Nat) (q : Nat), (c < 6) ∧ (b < 32) ∧ (q < 3) ∧ (s.gateOn (if c < 2 then 10 else 11) = true)
     ∧ (txState s c b = 1 ∨ txState s c b = 2)) ∧
    (∃ (s : State) (c : Nat) (b : Nat) (q : Nat), (c < 6) ∧ (b < 32) ∧ (q < 3) ∧ (s.gateOn (if c < 2 then 10 else 11) = true)
     ∧ (txHeld s c b = false) ∧ (txFits s c ((frameAt s (s.rd64 (R.cnTxaddrLo c b))).1) = true)
     ∧ (((frameAt s (s.rd64 (R.cnTxaddrLo c b))).1).flags / 32 % 2 = 0)) ∧
    (∃ (s : State) (c : Nat) (b : Nat) (q : Nat), (c < 6) ∧ (b < 32) ∧ (q < 3) ∧ (s.gateOn (if c < 2 then 10 else 11) = true)
     ∧ (txHeld s c b = false) ∧ (txFits s c ((frameAt s (s.rd64 (R.cnTxaddrLo c b))).1) = false)) ∧
    (∃ (s : State) (c : Nat) (b : Nat) (q : Nat) (tec : Nat), (c < 6) ∧ (b < 32) ∧ (q < 3)
     ∧ (s.gateOn (if c < 2 then 10 else 11) = true) ∧ (b < 30) ∧ (txIs s c 2 = [b]) ∧ (s.flag (R.cnCtrlSelfrx c) = false)
     ∧ (s.get (R.cnCtrlMode c) = 0) ∧ (tec ≤ 255)) ∧
    (∃ (s : State) (c : Nat) (b : Nat) (q : Nat) (tec : Nat), (c < 6) ∧ (b < 32) ∧ (q < 3)
     ∧ (s.gateOn (if c < 2 then 10 else 11) = true) ∧ (b < 30) ∧ (txIs s c 2 = [b])
     ∧ (s.get (R.cnTxcfgRetry c) = s.get (R.cnTxattAttempts c b) + 1) ∧ ((Tbl.get (s.canCh c).tx {} b).abort = false)
     ∧ (tec ≤ 255)) ∧
    (∃ (s : State) (c : Nat) (b : Nat) (q : Nat), (c < 6) ∧ (b < 32) ∧ (q < 3) ∧ (s.gateOn (if c < 2 then 10 else 11) = true)
     ∧ (b < 30) ∧ (txIs s c 2 = [b]) ∧ ((Tbl.get (s.canCh c).tx {} b).abort = false)) ∧
    (∃ (s : State) (c : Nat) (b : Nat) (q : Nat), (c < 6) ∧ (b < 32) ∧ (q < 3) ∧ (s.gateOn (if c < 2 then 10 else 11) = true)
     ∧ (b < 30) ∧ (txState s c b = 1)) ∧
    (∃ (s : State) (c : Nat) (b : Nat) (q : Nat), (c < 6) ∧ (b < 32) ∧ (q < 3) ∧ (s.gateOn (if c < 2 then 10 else 11) = true)
     ∧ (txState s c b = 2)) ∧
    (∃ (s : State) (c : Nat) (b : Nat) (q : Nat), (c < 6) ∧ (b < 32) ∧ (q < 3) ∧ (s.gateOn (if c < 2 then 10 else 11) = true)
     ∧ (s.get (R.cnStatState c) = 2) ∧ ((s.canCh c).recover = none)) ∧
    (∃ (s : State) (c : Nat) (b : Nat) (q : Nat), (c < 6) ∧ (b < 32) ∧ (q < 3) ∧ (s.gateOn (if c < 2 then 10 else 11) = true)
     ∧ (s.get (R.cnStatState c) ≠ 2)) ∧
    (∃ (s : State) (c : Nat) (b : Nat) (q : Nat) (i : Nat), (c < 6) ∧ (b < 32) ∧ (q < 3)
     ∧ (s.gateOn (if c < 2 then 10 else 11) = true) ∧ (s.get (R.cnStatState c) = 2) ∧ ((s.canCh c).recover = some i)) ∧
    (∃ (s : State) (c : Nat) (b : Nat) (q : Nat), (c < 6) ∧ (b < 32) ∧ (q < 3) ∧ (s.gateOn (if c < 2 then 10 else 11) = true)
     ∧ ((s.canCh c).claimDue = true) ∧ (s.flag (R.cnCtrlEn c) = true)) ∧
    (∃ (s : State) (c : Nat) (b : Nat) (q : Nat) (i : Nat), (c < 6) ∧ (b < 32) ∧ (q < 3)
     ∧ (s.gateOn (if c < 2 then 10 else 11) = true) ∧ ((s.canCh c).claimEnd = some i)) ∧
    (∃ (s : State) (c : Nat) (b : Nat) (q : Nat) (name : Nat), (c < 6) ∧ (b < 32) ∧ (q < 3)
     ∧ (s.gateOn (if c < 2 then 10 else 11) = true) ∧ ((s.canCh c).claim = 2) ∧ ((s.canCh c).addr < 254) ∧ (name < s.canN c 0x1B)) ∧
    (∃ (s : State) (c : Nat) (b : Nat) (q : Nat), (c < 6) ∧ (b < 32) ∧ (q < 3) ∧ (s.gateOn (if c < 2 then 10 else 11) = true)
     ∧ ((s.canCh c).claim ≠ 0) ∧ ((s.canCh c).claimOut = []) ∧ ((s.canCh c).dictOut = []) ∧ (txHeld s c 30 = false)) ∧
    (∃ (s : State) (c : Nat) (b : Nat) (q : Nat) (src : Nat) (p : CanPart), (c < 6) ∧ (b < 32) ∧ (q < 3)
     ∧ (s.gateOn (if c < 2 then 10 else 11) = true) ∧ (Tbl.get (s.canCh c).parts none src = some p)) ∧
    (∃ (s : State) (c : Nat) (b : Nat) (q : Nat), (c < 6) ∧ (b < 32) ∧ (q < 3) ∧ (s.gateOn (if c < 2 then 10 else 11) = true)) ∧
    (∃ (s : State) (c : Nat) (b : Nat) (q : Nat), (c < 6) ∧ (b < 32) ∧ (q < 3) ∧ (s.gateOn (if c < 2 then 10 else 11) = true)
     ∧ (txHeld s c b = false)) ∧
    (∃ (s : State) (c : Nat) (b : Nat) (q : Nat) (name : Nat) (a : Nat), (c < 6) ∧ (b < 32) ∧ (q < 3)
     ∧ (s.gateOn (if c < 2 then 10 else 11) = true) ∧ (a < 254) ∧ (((s.canCh c).claim = 1 ∨ (s.canCh c).claim = 2))
     ∧ ((s.canCh c).addr = a) ∧ (s.canN c 0x1B ≤ name)) ∧
    (∃ (s : State) (c : Nat) (b : Nat) (q : Nat) (a : Nat), (c < 6) ∧ (b < 32) ∧ (q < 3)
     ∧ (s.gateOn (if c < 2 then 10 else 11) = true) ∧ (a < 254) ∧ (((s.canCh c).claim ≠ 1
     ∧ (s.canCh c).claim ≠ 2) ∨ (s.canCh c).addr ≠ a)) ∧
    (∃ (s : State) (c : Nat) (b : Nat) (q : Nat), (c < 6) ∧ (b < 32) ∧ (q < 3) ∧ (s.gateOn (if c < 2 then 10 else 11) = true)
     ∧ ((s.canCh c).claim ≠ 0)) :=
  ⟨⟨((State.reset.set ⟨R.ckGrun, 11, 1⟩ 1).wr (R.cnNbt 5) 0x010101FF : State), (5 : Nat), (29 : Nat), (2 : Nat), by decide +kernel⟩,
   ⟨((State.reset.set ⟨R.ckGrun, 11, 1⟩ 1) : State), (5 : Nat), (29 : Nat), (2 : Nat), by decide +kernel⟩,
   ⟨(((State.reset.set ⟨R.ckGrun, 11, 1⟩ 1).set (R.cnCtrlEn 5) 1).set (R.cnRxdefAction 5) 1 : State), (5 : Nat), (29 : Nat),
     (2 : Nat), (255 : Nat), ({} : CanFrame), by decide +kernel⟩,
   ⟨((((State.reset.set ⟨R.ckGrun, 11, 1⟩ 1).set (R.cnCtrlEn 5) 1).set (R.cnRxdefAction 5) 1).set (queueOwn 5 1 0) 1 : State),
     (5 : Nat), (29 : Nat), (2 : Nat), (255 : Nat), ({} : CanFrame), by decide +kernel⟩,
   ⟨((State.reset.set ⟨R.ckGrun, 11, 1⟩ 1).set (queueOwn 5 2 63) 1 : State), (5 : Nat), (29 : Nat), (2 : Nat), (63 : Nat),
     by decide +kernel⟩,
   ⟨(State.reset.set ⟨R.ckGrun, 11, 1⟩ 1 : State), (5 : Nat), (29 : Nat), (2 : Nat), (63 : Nat), by decide +kernel⟩,
   ⟨((State.reset.set ⟨R.ckGrun, 11, 1⟩ 1).set (R.cnTxctrlState 5 29) 2 : State), (5 : Nat), (29 : Nat), (2 : Nat),
     by decide +kernel⟩,
   ⟨(((State.reset.set ⟨R.ckGrun, 11, 1⟩ 1).set (R.cnTxcfgDlmax 5) 8).wr64 (R.cnTxaddrLo 5 29) 0x80000000 : State), (5 : Nat),
     (29 : Nat), (2 : Nat), by decide +kernel⟩,
   ⟨(((State.reset.set ⟨R.ckGrun, 11, 1⟩ 1).set (R.cnCtrlFmt 5) 1).wr64 (R.cnTxaddrLo 5 29) 0x80000000 : State), (5 : Nat),
     (29 : Nat), (2 : Nat), by decide +kernel⟩,
   ⟨((State.reset.set ⟨R.ckGrun, 11, 1⟩ 1).set (R.cnTxctrlState 5 29) 2 : State), (5 : Nat), (29 : Nat), (2 : Nat), (255 : Nat),
     by decide +kernel⟩,
   ⟨(((State.reset.set ⟨R.ckGrun, 11, 1⟩ 1).set (R.cnTxctrlState 5 29) 2).set (R.cnTxcfgRetry 5) 1 : State), (5 : Nat),
     (29 : Nat), (2 : Nat), (255 : Nat), by decide +kernel⟩,
   ⟨(((State.reset.set ⟨R.ckGrun, 11, 1⟩ 1).set (R.cnTxctrlState 5 29) 2) : State), (5 : Nat), (29 : Nat), (2 : Nat),
     by decide +kernel⟩,
   ⟨(((State.reset.set ⟨R.ckGrun, 11, 1⟩ 1).set (R.cnTxctrlState 5 29) 1) : State), (5 : Nat), (29 : Nat), (2 : Nat),
     by decide +kernel⟩,
   ⟨(((State.reset.set ⟨R.ckGrun, 11, 1⟩ 1).set (R.cnTxctrlState 5 29) 2) : State), (5 : Nat), (29 : Nat), (2 : Nat),
     by decide +kernel⟩,
   ⟨(((State.reset.set ⟨R.ckGrun, 11, 1⟩ 1).set (R.cnStatState 5) 2) : State), (5 : Nat), (29 : Nat), (2 : Nat), by decide +kernel⟩,
   ⟨((State.reset.set ⟨R.ckGrun, 11, 1⟩ 1) : State), (5 : Nat), (29 : Nat), (2 : Nat), by decide +kernel⟩,
   ⟨(((State.reset.set ⟨R.ckGrun, 11, 1⟩ 1).set (R.cnStatState 5) 2).setCan 5 { recover := some 9 } : State), (5 : Nat),
     (29 : Nat), (2 : Nat), (9 : Nat), by decide +kernel⟩,
   ⟨(((State.reset.set ⟨R.ckGrun, 11, 1⟩ 1).set (R.cnCtrlEn 5) 1).setCan 5 { claimDue := true } : State), (5 : Nat), (29 : Nat),
     (2 : Nat), by decide +kernel⟩,
   ⟨((State.reset.set ⟨R.ckGrun, 11, 1⟩ 1).setCan 5 { claimEnd := some 4, addr := 9 } : State), (5 : Nat), (29 : Nat), (2 : Nat),
     (4 : Nat), by decide +kernel⟩,
   ⟨(((State.reset.set ⟨R.ckGrun, 11, 1⟩ 1).setObjN 0x3105 0x1B 9).setCan 5 { claim := 2, addr := 9 } : State), (5 : Nat),
     (29 : Nat), (2 : Nat), (8 : Nat), by decide +kernel⟩,
   ⟨((State.reset.set ⟨R.ckGrun, 11, 1⟩ 1).setCan 5 { claim := 2, addr := 9 } : State), (5 : Nat), (29 : Nat), (2 : Nat),
     by decide +kernel⟩,
   ⟨((State.reset.set ⟨R.ckGrun, 11, 1⟩ 1).setCan 5 { parts := [(7, some {})] } : State), (5 : Nat), (29 : Nat), (2 : Nat),
     (7 : Nat), ({} : CanPart), by decide +kernel⟩,
   ⟨(State.reset.set ⟨R.ckGrun, 11, 1⟩ 1 : State), (5 : Nat), (29 : Nat), (2 : Nat), by decide +kernel⟩,
   ⟨(State.reset.set ⟨R.ckGrun, 11, 1⟩ 1 : State), (5 : Nat), (29 : Nat), (2 : Nat), by decide +kernel⟩,
   ⟨(((State.reset.set ⟨R.ckGrun, 11, 1⟩ 1).setObjN 0x3105 0x1B 9).setCan 5 { claim := 2, addr := 9 } : State), (5 : Nat),
     (29 : Nat), (2 : Nat), (9 : Nat), (9 : Nat), by decide +kernel⟩,
   ⟨((State.reset.set ⟨R.ckGrun, 11, 1⟩ 1) : State), (5 : Nat), (29 : Nat), (2 : Nat), (9 : Nat), by decide +kernel⟩,
   ⟨((State.reset.set ⟨R.ckGrun, 11, 1⟩ 1).setCan 5 { claim := 2, addr := 9 } : State), (5 : Nat), (29 : Nat), (2 : Nat),
     by decide +kernel⟩⟩

/-- Each clause of CheckValuesAndAliveCounters with hypotheses: a state and operands that meet them. -/
theorem witness_CheckValuesAndAliveCounters :
    (∃ (s : State) (u : Nat), (u < 8) ∧ (s.gateOn 12 = true) ∧ ((cvAlg s u).width ≠ 0)) ∧
    (∃ (s : State) (u : Nat), (u < 8) ∧ (s.gateOn 12 = true) ∧ ((cvAlg s u).width ≤ 32)) ∧
    (∃ (s : State) (u : Nat) (k : Nat) (v : Word), (u < 8) ∧ (s.gateOn 12 = true) ∧ (k < 64) ∧ (4 ≤ (s.get (R.cvAccfgN u)))
     ∧ ((s.get (R.cvAccfgN u)) ≤ 16) ∧ ((s.aliveCtx u k).valid = true) ∧ ((s.aliveCtx u k).last < 2 ^ (s.get (R.cvAccfgN u)))
     ∧ (v = BitVec.ofNat 32 (((s.aliveCtx u k).last + 1) % 2 ^ (s.get (R.cvAccfgN u)) + 65536 * k))) ∧
    (∃ (s : State) (u : Nat) (k : Nat) (v : Word), (u < 8) ∧ (s.gateOn 12 = true) ∧ (k < 64) ∧ (4 ≤ (s.get (R.cvAccfgN u)))
     ∧ ((s.get (R.cvAccfgN u)) ≤ 16) ∧ ((s.aliveCtx u k).valid = true) ∧ ((s.aliveCtx u k).last < 2 ^ (s.get (R.cvAccfgN u)))
     ∧ (v = BitVec.ofNat 32 ((s.aliveCtx u k).last + 65536 * k))) ∧
    (∃ (s : State) (u : Nat) (k : Nat) (d : Nat) (v : Word), (u < 8) ∧ (s.gateOn 12 = true) ∧ (k < 64)
     ∧ (4 ≤ (s.get (R.cvAccfgN u))) ∧ ((s.get (R.cvAccfgN u)) ≤ 16) ∧ ((s.aliveCtx u k).valid = true)
     ∧ ((s.aliveCtx u k).last < 2 ^ (s.get (R.cvAccfgN u))) ∧ (1 ≤ d) ∧ (d ≤ s.get (R.cvAccfgMaxskip u))
     ∧ (d < 2 ^ (s.get (R.cvAccfgN u)) - 1) ∧ (d < 256)
     ∧ (v = BitVec.ofNat 32 (((s.aliveCtx u k).last + 1 + d) % 2 ^ (s.get (R.cvAccfgN u)) + 65536 * k))) ∧
    (∃ (s : State) (u : Nat) (k : Nat) (d : Nat) (v : Word), (u < 8) ∧ (s.gateOn 12 = true) ∧ (k < 64)
     ∧ (4 ≤ (s.get (R.cvAccfgN u))) ∧ ((s.get (R.cvAccfgN u)) ≤ 16) ∧ ((s.aliveCtx u k).valid = true)
     ∧ ((s.aliveCtx u k).last < 2 ^ (s.get (R.cvAccfgN u))) ∧ (s.get (R.cvAccfgMaxskip u) < d)
     ∧ (d < 2 ^ (s.get (R.cvAccfgN u)) - 1) ∧ (1 ≤ d) ∧ (s.get (R.cvAccfgResync u) = 0)
     ∧ (v = BitVec.ofNat 32 (((s.aliveCtx u k).last + 1 + d) % 2 ^ (s.get (R.cvAccfgN u)) + 65536 * k))) ∧
    (∃ (s : State) (u : Nat), (u < 8) ∧ (s.gateOn 12 = true)) ∧
    (∃ (s : State) (u : Nat) (size : Nat), (u < 8) ∧ (s.gateOn 12 = true) ∧ (size = 1 ∨ size = 2 ∨ size = 4)) :=
  ⟨⟨(State.reset.set ⟨R.ckGrun, 12, 1⟩ 1 : State), (7 : Nat), by decide +kernel⟩,
   ⟨(State.reset.set ⟨R.ckGrun, 12, 1⟩ 1 : State), (7 : Nat), by decide +kernel⟩,
   ⟨(((State.reset.set ⟨R.ckGrun, 12, 1⟩ 1).set (R.cvAccfgN 7) 4).setAliveCtx 7 63 { valid := true, last := 15 } : State),
     (7 : Nat), (63 : Nat), (0x3F0000 : Word), by decide +kernel⟩,
   ⟨(((State.reset.set ⟨R.ckGrun, 12, 1⟩ 1).set (R.cvAccfgN 7) 4).setAliveCtx 7 63 { valid := true, last := 15 } : State),
     (7 : Nat), (63 : Nat), (0x3F000F : Word), by decide +kernel⟩,
   ⟨((((State.reset.set ⟨R.ckGrun, 12, 1⟩ 1).set (R.cvAccfgN 7) 4).set (R.cvAccfgMaxskip 7) 1).setAliveCtx 7 63 { valid := true, last := 15 } : State), (7 : Nat), (63 : Nat), (1 : Nat), (0x3F0001 : Word), by decide +kernel⟩,
   ⟨((((State.reset.set ⟨R.ckGrun, 12, 1⟩ 1).set (R.cvAccfgN 7) 4).set (R.cvAccfgMaxskip 7) 1).setAliveCtx 7 63 { valid := true, last := 15 } : State), (7 : Nat), (63 : Nat), (2 : Nat), (0x3F0002 : Word), by decide +kernel⟩,
   ⟨(State.reset.set ⟨R.ckGrun, 12, 1⟩ 1 : State), (7 : Nat), by decide +kernel⟩,
   ⟨(State.reset.set ⟨R.ckGrun, 12, 1⟩ 1 : State), (7 : Nat), (4 : Nat), by decide +kernel⟩⟩

/-- Each clause of DictionaryReadsAndWrites with hypotheses: a state and operands that meet them. -/
theorem witness_DictionaryReadsAndWrites :
    (∃ (s : State) (q : Req) (index : Nat) (sub : Nat) (b : List Byte) (d : ObjDef), (q.who < 16777216) ∧ (q.waiting < 256)
     ∧ (s.serving = true) ∧ (s.dict.subs = []) ∧ (s.ps.due = 0) ∧ (s.ps.shut = none) ∧ (b.length ≤ 1440)
     ∧ (find s index sub = some d) ∧ (d.acc ≠ .wo) ∧ (index ≠ 0x1200) ∧ (((objRead s d index sub).encode d.typ).length ≤ 1440)) ∧
    (∃ (s : State) (q : Req) (index : Nat) (sub : Nat) (b : List Byte), (q.who < 16777216) ∧ (q.waiting < 256)
     ∧ (s.serving = true) ∧ (s.dict.subs = []) ∧ (s.ps.due = 0) ∧ (s.ps.shut = none) ∧ (b.length ≤ 1440)
     ∧ (find s index sub = none)) ∧
    (∃ (s : State) (q : Req) (index : Nat) (sub : Nat) (b : List Byte) (d : ObjDef), (q.who < 16777216) ∧ (q.waiting < 256)
     ∧ (s.serving = true) ∧ (s.dict.subs = []) ∧ (s.ps.due = 0) ∧ (s.ps.shut = none) ∧ (b.length ≤ 1440) ∧ (index ≠ 0)
     ∧ (find s index sub = some d) ∧ (d.acc = .ro)) ∧
    (∃ (s : State) (q : Req) (index : Nat) (sub : Nat) (b : List Byte) (o : Oem), (q.who < 16777216) ∧ (q.waiting < 256)
     ∧ (s.serving = true) ∧ (s.dict.subs = []) ∧ (s.ps.due = 0) ∧ (s.ps.shut = none) ∧ (b.length ≤ 1440) ∧ (0x4000 ≤ index)
     ∧ (index < 0x8000) ∧ (1 ≤ sub) ∧ (sub < 256) ∧ (s.lifeCycle = 2) ∧ (Tbl.get s.oem none (objKey index sub) = some o)
     ∧ (o.acc = .rw) ∧ (o.typ = .u16) ∧ (b.length = 2)) ∧
    (∃ (s : State) (q : Req) (index : Nat) (sub : Nat) (typ : Nat) (b : List Byte) (o : Oem), (q.who < 16777216)
     ∧ (q.waiting < 256) ∧ (s.serving = true) ∧ (s.dict.subs = []) ∧ (s.ps.due = 0) ∧ (s.ps.shut = none) ∧ (b.length ≤ 1440)
     ∧ (0x4000 ≤ index) ∧ (index < 0x8000) ∧ (1 ≤ sub) ∧ (sub < 256) ∧ (s.lifeCycle = 2)
     ∧ (Tbl.get s.oem none (objKey index sub) = some o) ∧ (o.acc = .rw) ∧ (o.typ = .u16) ∧ (typ ≠ 2 ∨ b.length ≠ 2)) ∧
    (∃ (s : State) (q : Req) (index : Nat) (sub : Nat) (offset : Nat) (n : Nat) (b : List Byte) (d : ObjDef), (q.who < 16777216)
     ∧ (q.waiting < 256) ∧ (s.serving = true) ∧ (s.dict.subs = []) ∧ (s.ps.due = 0) ∧ (s.ps.shut = none) ∧ (b.length ≤ 1440)
     ∧ (find s index sub = some d) ∧ (d.acc ≠ .wo) ∧ (index ≠ 0x1200) ∧ (n ≤ 1440)
     ∧ (offset ≤ ((objRead s d index sub).encode d.typ).length)) ∧
    (∃ (s : State) (q : Req) (index : Nat) (sub : Nat) (offset : Nat) (n : Nat) (b : List Byte) (d : ObjDef), (q.who < 16777216)
     ∧ (q.waiting < 256) ∧ (s.serving = true) ∧ (s.dict.subs = []) ∧ (s.ps.due = 0) ∧ (s.ps.shut = none) ∧ (b.length ≤ 1440)
     ∧ (find s index sub = some d) ∧ (d.acc ≠ .wo) ∧ (index ≠ 0x1200) ∧ (n ≤ 1440)
     ∧ (((objRead s d index sub).encode d.typ).length < offset)) ∧
    (∃ (s : State) (q : Req) (index : Nat) (sub : Nat) (b : List Byte) (d : ObjDef), (q.who < 16777216) ∧ (q.waiting < 256)
     ∧ (s.serving = true) ∧ (s.dict.subs = []) ∧ (s.ps.due = 0) ∧ (s.ps.shut = none) ∧ (b.length ≤ 1440) ∧ (index ≠ 0)
     ∧ (find s index sub = some d) ∧ (d.acc ≠ .ro) ∧ (s.dict.sessions.length < 8)) ∧
    (∃ (s : State) (q : Req) (index : Nat) (sub : Nat) (b : List Byte) (d : ObjDef) (x : Session), (q.who < 16777216)
     ∧ (q.waiting < 256) ∧ (s.serving = true) ∧ (s.dict.subs = []) ∧ (s.ps.due = 0) ∧ (s.ps.shut = none) ∧ (b.length ≤ 1440)
     ∧ (index ≠ 0) ∧ (find s index sub = some d) ∧ (d.acc ≠ .ro) ∧ (sessionOf s q.who index sub = some x) ∧ (x.bytes ≠ [])) ∧
    (∃ (s : State) (q : Req) (index : Nat) (sub : Nat) (offset : Nat) (b : List Byte) (d : ObjDef) (x : Session),
     (q.who < 16777216) ∧ (q.waiting < 256) ∧ (s.serving = true) ∧ (s.dict.subs = []) ∧ (s.ps.due = 0) ∧ (s.ps.shut = none)
     ∧ (b.length ≤ 1440) ∧ (index ≠ 0) ∧ (find s index sub = some d) ∧ (d.acc ≠ .ro) ∧ (sessionOf s q.who index sub = some x)
     ∧ (x.bytes.length < offset)) ∧
    (∃ (s : State) (q : Req) (index : Nat) (sub : Nat) (n : Nat) (c : Nat) (b : List Byte) (d : ObjDef) (x : Session),
     (q.who < 16777216) ∧ (q.waiting < 256) ∧ (s.serving = true) ∧ (s.dict.subs = []) ∧ (s.ps.due = 0) ∧ (s.ps.shut = none)
     ∧ (b.length ≤ 1440) ∧ (index ≠ 0) ∧ (find s index sub = some d) ∧ (d.acc ≠ .ro) ∧ (sessionOf s q.who index sub = some x)
     ∧ (n < 4294967296) ∧ (c < 4294967296) ∧ (n ≠ x.bytes.length ∨ c ≠ crcOf crc32c x.bytes)) ∧
    (∃ (s : State) (q : Req) (index : Nat) (sub : Nat) (b : List Byte) (o : Oem) (x : Session), (q.who < 16777216)
     ∧ (q.waiting < 256) ∧ (s.serving = true) ∧ (s.dict.subs = []) ∧ (s.ps.due = 0) ∧ (s.ps.shut = none) ∧ (b.length ≤ 1440)
     ∧ (0x4000 ≤ index) ∧ (index < 0x8000) ∧ (1 ≤ sub) ∧ (sub < 256) ∧ (s.lifeCycle = 2)
     ∧ (Tbl.get s.oem none (objKey index sub) = some o) ∧ (o.acc = .rw) ∧ (o.typ = .u16) ∧ (sessionOf s q.who index sub = some x)
     ∧ (x.bytes = b) ∧ (b.length = 2)) ∧
    (∃ (s : State) (q : Req) (index : Nat) (sub : Nat) (b : List Byte) (x : Session), (q.who < 16777216) ∧ (q.waiting < 256)
     ∧ (s.serving = true) ∧ (s.dict.subs = []) ∧ (s.ps.due = 0) ∧ (s.ps.shut = none) ∧ (b.length ≤ 1440)
     ∧ (sessionOf s q.who index sub = some x)) ∧
    (∃ (s : State) (q : Req) (index : Nat) (sub : Nat) (b : List Byte) (d : ObjDef), (q.who < 16777216) ∧ (q.waiting < 256)
     ∧ (s.serving = true) ∧ (s.dict.subs = []) ∧ (s.ps.due = 0) ∧ (s.ps.shut = none) ∧ (b.length ≤ 1440) ∧ (index ≠ 0)
     ∧ (find s index sub = some d) ∧ (d.acc = .rwk) ∧ (s.lifeCycle = 2) ∧ (s.flag R.msStatPfail = false)) ∧
    (∃ (s : State) (q : Req) (index : Nat) (sub : Nat) (b : List Byte) (d : ObjDef), (q.who < 16777216) ∧ (q.waiting < 256)
     ∧ (s.serving = true) ∧ (s.dict.subs = []) ∧ (s.ps.due = 0) ∧ (s.ps.shut = none) ∧ (b.length ≤ 1440) ∧ (index ≠ 0)
     ∧ (find s index sub = some d) ∧ (d.acc = .rwk) ∧ (s.lifeCycle = 2) ∧ (s.flag R.msStatPfail = false)
     ∧ ((s.writeRecord index sub d.typ (objRead s d index sub)).records ≠ s.records)) ∧
    (∃ (s : State) (q : Req) (index : Nat) (sub : Nat) (b : List Byte) (d : ObjDef), (q.who < 16777216) ∧ (q.waiting < 256)
     ∧ (s.serving = true) ∧ (s.dict.subs = []) ∧ (s.ps.due = 0) ∧ (s.ps.shut = none) ∧ (b.length ≤ 1440) ∧ (index ≠ 0)
     ∧ (find s index sub = some d) ∧ (d.acc ≠ .rwk)) ∧
    (∃ (s : State) (q : Req) (index : Nat) (sub : Nat) (b : List Byte) (o : Oem), (q.who < 16777216) ∧ (q.waiting < 256)
     ∧ (s.serving = true) ∧ (s.dict.subs = []) ∧ (s.ps.due = 0) ∧ (s.ps.shut = none) ∧ (b.length ≤ 1440) ∧ (0x4000 ≤ index)
     ∧ (index < 0x8000) ∧ (1 ≤ sub) ∧ (sub < 256) ∧ (s.lifeCycle = 2) ∧ (Tbl.get s.oem none (objKey index sub) = some o)
     ∧ (o.acc = .rw) ∧ (o.typ = .u16)) ∧
    (∃ (s : State) (q : Req) (b : List Byte), (q.who < 16777216) ∧ (q.waiting < 256) ∧ (s.serving = true) ∧ (s.dict.subs = [])
     ∧ (s.ps.due = 0) ∧ (s.ps.shut = none) ∧ (b.length ≤ 1440) ∧ (s.lifeCycle = 3)) ∧
    (∃ (s : State) (q : Req) (b : List Byte), (q.who < 16777216) ∧ (q.waiting < 256) ∧ (s.serving = true) ∧ (s.dict.subs = [])
     ∧ (s.ps.due = 0) ∧ (s.ps.shut = none) ∧ (b.length ≤ 1440) ∧ (s.lifeCycle ≠ 3)) ∧
    (∃ (s : State) (q : Req), (served s q = false)) ∧
    (∃ (s : State) (q : Req) (op : Nat), (served s q = true) ∧ (overFabric q.who = false)
     ∧ ([1, 2, 3, 4, 5, 6, 7, 9, 10, 11].contains op = true) ∧ (256 ≤ q.waiting)) ∧
    (∃ (s : State) (q : Req) (op : Nat) (b : List Byte), (served s q = true) ∧ (overFabric q.who = false)
     ∧ ([1, 2, 3, 4, 5, 6, 7, 9, 10, 11].contains op = true) ∧ (q.waiting < 256) ∧ (b.length ≤ 1440)) ∧
    (∃ (s : State) (q : Req) (op : Nat) (b : List Byte), (served s q = true) ∧ (overFabric q.who = false)
     ∧ ([1, 2, 3, 4, 5, 6, 7, 9, 10, 11].contains op = true) ∧ (q.waiting < 256) ∧ (1440 < b.length)) :=
  ⟨⟨(State.reset.set R.secLcState 2 : State), ({ who := 0, tag := 1, seq := 0, waiting := 0, serial := 0, epoch := 0 } : Req),
     (0x1000 : Nat), (1 : Nat), ([] : List Byte), (fnd (State.reset.set R.secLcState 2) (0x1000) (1) : ObjDef), by decide +kernel,
     by decide +kernel, by decide +kernel, by decide +kernel, by decide +kernel, by decide +kernel, by decide +kernel, rfl,
     by decide +kernel⟩,
   ⟨(State.reset.set R.secLcState 2 : State), ({ who := 0, tag := 1, seq := 0, waiting := 0, serial := 0, epoch := 0 } : Req),
     (0x9999 : Nat), (1 : Nat), ([] : List Byte), by decide +kernel⟩,
   ⟨(State.reset.set R.secLcState 2 : State), ({ who := 0, tag := 1, seq := 0, waiting := 0, serial := 0, epoch := 0 } : Req),
     (0x1000 : Nat), (1 : Nat), ([] : List Byte), (fnd (State.reset.set R.secLcState 2) (0x1000) (1) : ObjDef), by decide +kernel,
     by decide +kernel, by decide +kernel, by decide +kernel, by decide +kernel, by decide +kernel, by decide +kernel,
     by decide +kernel, rfl, by decide +kernel⟩,
   ⟨({ State.reset.set R.secLcState 2 with oem := [(objKey 0x4005 3, some { typ := .u16 })] } : State),
     ({ who := 0, tag := 1, seq := 0, waiting := 0, serial := 0, epoch := 0 } : Req), (0x4005 : Nat), (3 : Nat),
     ([7, 8] : List Byte), ({ typ := .u16 } : Oem), by decide +kernel⟩,
   ⟨({ State.reset.set R.secLcState 2 with oem := [(objKey 0x4005 3, some { typ := .u16 })] } : State),
     ({ who := 0, tag := 1, seq := 0, waiting := 0, serial := 0, epoch := 0 } : Req), (0x4005 : Nat), (3 : Nat), (2 : Nat),
     ([7] : List Byte), ({ typ := .u16 } : Oem), by decide +kernel⟩,
   ⟨(State.reset.set R.secLcState 2 : State), ({ who := 0, tag := 1, seq := 0, waiting := 0, serial := 0, epoch := 0 } : Req),
     (0x1000 : Nat), (1 : Nat), (1 : Nat), (3 : Nat), ([] : List Byte),
     (fnd (State.reset.set R.secLcState 2) (0x1000) (1) : ObjDef), by decide +kernel, by decide +kernel, by decide +kernel,
     by decide +kernel, by decide +kernel, by decide +kernel, by decide +kernel, rfl, by decide +kernel⟩,
   ⟨(State.reset.set R.secLcState 2 : State), ({ who := 0, tag := 1, seq := 0, waiting := 0, serial := 0, epoch := 0 } : Req),
     (0x1000 : Nat), (1 : Nat), (99 : Nat), (3 : Nat), ([] : List Byte),
     (fnd (State.reset.set R.secLcState 2) (0x1000) (1) : ObjDef), by decide +kernel, by decide +kernel, by decide +kernel,
     by decide +kernel, by decide +kernel, by decide +kernel, by decide +kernel, rfl, by decide +kernel⟩,
   ⟨(State.reset.set R.secLcState 2 : State), ({ who := 0, tag := 1, seq := 0, waiting := 0, serial := 0, epoch := 0 } : Req),
     (0x1000 : Nat), (0x0E : Nat), ([65] : List Byte), (fnd (State.reset.set R.secLcState 2) (0x1000) (0x0E) : ObjDef),
     by decide +kernel, by decide +kernel, by decide +kernel, by decide +kernel, by decide +kernel, by decide +kernel,
     by decide +kernel, by decide +kernel, rfl, by decide +kernel⟩,
   ⟨(State.reset.setDict { State.reset.dict with sessions := [{ index := 0x1000, sub := 0x0E, bytes := [66] }] } : State),
     ({ who := 0, tag := 1, seq := 0, waiting := 0, serial := 0, epoch := 0 } : Req), (0x1000 : Nat), (0x0E : Nat),
     ([65] : List Byte), (fnd (State.reset.setDict { State.reset.dict with sessions := [{ index := 0x1000, sub := 0x0E, bytes := [66] }] }) (0x1000) (0x0E) : ObjDef), ({ index := 0x1000, sub := 0x0E, bytes := [66] } : Session), by decide +kernel, by decide +kernel, by decide +kernel, by decide +kernel, by decide +kernel, by decide +kernel, by decide +kernel, by decide +kernel, rfl, by decide +kernel⟩,
   ⟨(State.reset.setDict { State.reset.dict with sessions := [{ index := 0x1000, sub := 0x0E, bytes := [66] }] } : State),
     ({ who := 0, tag := 1, seq := 0, waiting := 0, serial := 0, epoch := 0 } : Req), (0x1000 : Nat), (0x0E : Nat), (2 : Nat),
     ([65] : List Byte), (fnd (State.reset.setDict { State.reset.dict with sessions := [{ index := 0x1000, sub := 0x0E, bytes := [66] }] }) (0x1000) (0x0E) : ObjDef), ({ index := 0x1000, sub := 0x0E, bytes := [66] } : Session), by decide +kernel, by decide +kernel, by decide +kernel, by decide +kernel, by decide +kernel, by decide +kernel, by decide +kernel, by decide +kernel, rfl, by decide +kernel⟩,
   ⟨(State.reset.setDict { State.reset.dict with sessions := [{ index := 0x1000, sub := 0x0E, bytes := [66] }] } : State),
     ({ who := 0, tag := 1, seq := 0, waiting := 0, serial := 0, epoch := 0 } : Req), (0x1000 : Nat), (0x0E : Nat), (2 : Nat),
     (7 : Nat), ([] : List Byte), (fnd (State.reset.setDict { State.reset.dict with sessions := [{ index := 0x1000, sub := 0x0E, bytes := [66] }] }) (0x1000) (0x0E) : ObjDef), ({ index := 0x1000, sub := 0x0E, bytes := [66] } : Session), by decide +kernel, by decide +kernel, by decide +kernel, by decide +kernel, by decide +kernel, by decide +kernel, by decide +kernel, by decide +kernel, rfl, by decide +kernel⟩,
   ⟨({ State.reset.set R.secLcState 2 with oem := [(objKey 0x4005 3, some { typ := .u16 })], dict := { sessions := [{ index := 0x4005, sub := 3, bytes := [7, 8] }] } } : State), ({ who := 0, tag := 1, seq := 0, waiting := 0, serial := 0, epoch := 0 } : Req), (0x4005 : Nat), (3 : Nat), ([7, 8] : List Byte), ({ typ := .u16 } : Oem), ({ index := 0x4005, sub := 3, bytes := [7, 8] } : Session), by decide +kernel⟩,
   ⟨(State.reset.setDict { sessions := [{ index := 0x4005, sub := 3, bytes := [7, 8] }] } : State),
     ({ who := 0, tag := 1, seq := 0, waiting := 0, serial := 0, epoch := 0 } : Req), (0x4005 : Nat), (3 : Nat), ([] : List Byte),
     ({ index := 0x4005, sub := 3, bytes := [7, 8] } : Session), by decide +kernel⟩,
   ⟨(State.reset.set R.secLcState 2 : State), ({ who := 0, tag := 1, seq := 0, waiting := 0, serial := 0, epoch := 0 } : Req),
     (0x1000 : Nat), (0x0E : Nat), ([] : List Byte), (fnd (State.reset.set R.secLcState 2) (0x1000) (0x0E) : ObjDef),
     by decide +kernel, by decide +kernel, by decide +kernel, by decide +kernel, by decide +kernel, by decide +kernel,
     by decide +kernel, by decide +kernel, rfl, by decide +kernel⟩,
   ⟨(State.reset.set R.secLcState 2 : State), ({ who := 0, tag := 1, seq := 0, waiting := 0, serial := 0, epoch := 0 } : Req),
     (0x1000 : Nat), (0x0E : Nat), ([] : List Byte), (fnd (State.reset.set R.secLcState 2) (0x1000) (0x0E) : ObjDef),
     by decide +kernel, by decide +kernel, by decide +kernel, by decide +kernel, by decide +kernel, by decide +kernel,
     by decide +kernel, by decide +kernel, rfl, by decide +kernel⟩,
   ⟨(State.reset.set R.secLcState 2 : State), ({ who := 0, tag := 1, seq := 0, waiting := 0, serial := 0, epoch := 0 } : Req),
     (0x1000 : Nat), (1 : Nat), ([] : List Byte), (fnd (State.reset.set R.secLcState 2) (0x1000) (1) : ObjDef), by decide +kernel,
     by decide +kernel, by decide +kernel, by decide +kernel, by decide +kernel, by decide +kernel, by decide +kernel,
     by decide +kernel, rfl, by decide +kernel⟩,
   ⟨({ State.reset.set R.secLcState 2 with oem := [(objKey 0x4005 3, some { typ := .u16 })] } : State),
     ({ who := 0, tag := 1, seq := 0, waiting := 0, serial := 0, epoch := 0 } : Req), (0x4005 : Nat), (3 : Nat), ([] : List Byte),
     ({ typ := .u16 } : Oem), by decide +kernel⟩,
   ⟨(State.reset.set R.secLcState 3 : State), ({ who := 0, tag := 1, seq := 0, waiting := 0, serial := 0, epoch := 0 } : Req),
     ([] : List Byte), by decide +kernel⟩,
   ⟨(State.reset.set R.secLcState 2 : State), ({ who := 0, tag := 1, seq := 0, waiting := 0, serial := 0, epoch := 0 } : Req),
     ([] : List Byte), by decide +kernel⟩,
   ⟨({ State.reset with ps := { mode := 5 } } : State),
     ({ who := 0, tag := 1, seq := 0, waiting := 0, serial := 0, epoch := 0 } : Req), by decide +kernel⟩,
   ⟨(State.reset.set R.secLcState 2 : State),
     ({ who := 33554432, tag := 1, seq := 0, waiting := 256, serial := 0, epoch := 0 } : Req), (1 : Nat), by decide +kernel⟩,
   ⟨(State.reset.set R.secLcState 2 : State), ({ who := 0, tag := 1, seq := 0, waiting := 0, serial := 0, epoch := 0 } : Req),
     (1 : Nat), (List.replicate 1440 7 : List Byte), by decide +kernel⟩,
   ⟨(State.reset.set R.secLcState 2 : State), ({ who := 0, tag := 1, seq := 0, waiting := 0, serial := 0, epoch := 0 } : Req),
     (1 : Nat), (List.replicate 1441 7 : List Byte), by decide +kernel⟩⟩

/-- Each clause of SubscriptionsAndTransactions with hypotheses: a state and operands that meet them. -/
theorem witness_SubscriptionsAndTransactions :
    (∃ (s : State) (q : Req) (index : Nat) (sub : Nat) (per : Nat) (least : Nat) (d : ObjDef), (s.serving = true) ∧ (s.ps.due = 0)
     ∧ (s.ps.shut = none) ∧ (q.who < 16777216) ∧ (q.waiting < 256) ∧ (s.dict.subs = []) ∧ (find s index sub = some d)
     ∧ (d.acc ≠ .wo) ∧ (s.lifeCycle = 2) ∧ (maxLength d ≤ 1440) ∧ (1 ≤ per) ∧ (per ≤ 60000) ∧ (least ≤ 60000)) ∧
    (∃ (s : State) (q : Req) (x : Subscr), (s.serving = true) ∧ (s.ps.due = 0) ∧ (s.ps.shut = none) ∧ (q.who < 16777216)
     ∧ (q.waiting < 256) ∧ (s.dict.subs = [x]) ∧ (x.who = q.who) ∧ (s.lifeCycle = 2)) ∧
    (∃ (s : State) (x : Subscr), (s.serving = true) ∧ (s.ps.due = 0) ∧ (s.ps.shut = none) ∧ (s.dict.subs = [x]) ∧ (x.period ≠ 0)
     ∧ (x.least = 0) ∧ (x.who < 16777216) ∧ (x.last ≤ s.now)) ∧
    (∃ (s : State) (x : Subscr), (s.serving = true) ∧ (s.ps.due = 0) ∧ (s.ps.shut = none) ∧ (s.dict.subs = [x]) ∧ (x.period = 0)
     ∧ (x.who < 16777216) ∧ (subValue s x = x.value)) ∧
    (∃ (s : State) (id : Nat) (peer : Nat) (y : OwnSub), (s.serving = true) ∧ (s.ps.due = 0) ∧ (s.ps.shut = none)
     ∧ (s.dict.own = [y]) ∧ (y.peer = peer) ∧ (y.id = id)) ∧
    (∃ (s : State), (s.serving = true) ∧ (s.ps.due = 0) ∧ (s.ps.shut = none) ∧ (s.dict.own = [])) ∧
    (∃ (s : State) (peer : Nat), (s.serving = true) ∧ (s.ps.due = 0) ∧ (s.ps.shut = none) ∧ (s.dict.remotes = [])
     ∧ (peer < 16777216)) ∧
    (∃ (s : State) (k : Nat) (r : Remote), (s.serving = true) ∧ (s.ps.due = 0) ∧ (s.ps.shut = none) ∧ (s.dict.remotes = [r])
     ∧ (r.ended = false) ∧ (overFabric r.peer = false) ∧ (r.op ≠ 6) ∧ (r.slot = some k) ∧ (slotState s k = 2)) ∧
    (∃ (s : State) (k : Nat) (r : Remote), (s.serving = true) ∧ (s.ps.due = 0) ∧ (s.ps.shut = none) ∧ (s.dict.remotes = [r])
     ∧ (r.ended = false) ∧ (r.slot = some k) ∧ (slotState s k = 2)) ∧
    (∃ (s : State) (k : Nat), (s.serving = true) ∧ (s.ps.due = 0) ∧ (s.ps.shut = none) ∧ (k < 16) ∧ (slotState s k = 0)
     ∧ ((∀ j, j < k → slotState s j ≠ 0))) ∧
    (∃ (s : State), (s.serving = true) ∧ (s.ps.due = 0) ∧ (s.ps.shut = none) ∧ ((∀ j, j < 16 → slotState s j ≠ 0))) ∧
    (∃ (s : State) (k : Nat) (n : Nat), (s.serving = true) ∧ (s.ps.due = 0) ∧ (s.ps.shut = none) ∧ (k < 16) ∧ (slotState s k = 1)
     ∧ (natAt ((mailRead (s.set (R.kpSstatState k) 2) (s.rd64 (R.kpSreqLo k)) 20).1) 0 1 = 0)
     ∧ (natAt ((mailRead (s.set (R.kpSstatState k) 2) (s.rd64 (R.kpSreqLo k)) 20).1) 4 1 = 1)
     ∧ (natAt ((mailRead (s.set (R.kpSstatState k) 2) (s.rd64 (R.kpSreqLo k)) 20).1) 12 2 = 0) ∧ (s.dict.subs = []) ∧ (n < 256)) ∧
    (∃ (s : State) (k : Nat) (b : List Byte), (s.serving = true) ∧ (s.ps.due = 0) ∧ (s.ps.shut = none) ∧ (k < 16)
     ∧ (slotState s k = 2) ∧ ((s.mailSlot k).response = b) ∧ (b ≠ []) ∧ (inSramOrDram s (s.rd64 (R.kpSrspLo k)) b.length = true)) ∧
    (∃ (s : State) (k : Nat), (s.serving = true) ∧ (s.ps.due = 0) ∧ (s.ps.shut = none) ∧ (k < 16) ∧ (slotState s k ≠ 0)) ∧
    (∃ (s : State), (s.serving = true) ∧ (s.ps.due = 0) ∧ (s.ps.shut = none)) ∧
    (∃ (s : State) (k : Nat), (s.serving = true) ∧ (s.ps.due = 0) ∧ (s.ps.shut = none) ∧ (k < 16)) :=
  ⟨⟨(State.reset.set R.secLcState 2 : State), ({ who := 0, tag := 1, seq := 0, waiting := 0, serial := 0, epoch := 0 } : Req),
     (0x1000 : Nat), (10 : Nat), (5 : Nat), (0 : Nat), (fnd (State.reset.set R.secLcState 2) (0x1000) (10) : ObjDef),
     by decide +kernel, by decide +kernel, by decide +kernel, by decide +kernel, by decide +kernel, by decide +kernel, rfl,
     by decide +kernel⟩,
   ⟨((State.reset.set R.secLcState 2).setDict { subs := [{ id := 4 }] } : State),
     ({ who := 0, tag := 1, seq := 0, waiting := 0, serial := 0, epoch := 0 } : Req), ({ id := 4 } : Subscr), by decide +kernel⟩,
   ⟨((State.reset.set R.secLcState 2).setDict { subs := [{ id := 4, index := 0x1000, sub := 10, period := 5 }] } : State),
     ({ id := 4, index := 0x1000, sub := 10, period := 5 } : Subscr), by decide +kernel⟩,
   ⟨((State.reset.set R.secLcState 2).setDict { subs := [{ id := 4, index := 0x1000, sub := 10, value := [0] }] } : State),
     ({ id := 4, index := 0x1000, sub := 10, value := [0] } : Subscr), by decide +kernel⟩,
   ⟨(State.reset.setDict { own := [{ peer := 5, id := 3 }] } : State), (3 : Nat), (5 : Nat), ({ peer := 5, id := 3 } : OwnSub),
     by decide +kernel⟩,
   ⟨(State.reset.set R.secLcState 2 : State), by decide +kernel⟩,
   ⟨(State.reset.set R.secLcState 2 : State), (5 : Nat), by decide +kernel⟩,
   ⟨((State.reset.set (R.kpSstatState 15) 2).setDict { remotes := [{ peer := 5, tag := 2, op := 1, slot := some 15 }] } : State),
     (15 : Nat), ({ peer := 5, tag := 2, op := 1, slot := some 15 } : Remote), by decide +kernel⟩,
   ⟨((State.reset.set (R.kpSstatState 15) 2).setDict { remotes := [{ peer := 5, tag := 2, op := 1, slot := some 15 }] } : State),
     (15 : Nat), ({ peer := 5, tag := 2, op := 1, slot := some 15 } : Remote), by decide +kernel⟩,
   ⟨(State.reset : State), (0 : Nat), by decide +kernel⟩,
   ⟨((List.range 16).foldl (fun u j => u.set (R.kpSstatState j) 1) State.reset : State), by decide +kernel⟩,
   ⟨({ (State.reset.set (R.kpSstatState 15) 1).wr64 (R.kpSreqLo 15) 0x80000000 with mem := [(0x80000004, 1)] } : State),
     (15 : Nat), (0 : Nat), by decide +kernel⟩,
   ⟨(((State.reset.set (R.kpSstatState 15) 2).wr64 (R.kpSrspLo 15) 0x80000000).setMailSlot 15 { response := [1, 2] } : State),
     (15 : Nat), ([1, 2] : List Byte), by decide +kernel⟩,
   ⟨(State.reset.set (R.kpSstatState 15) 2 : State), (15 : Nat), by decide +kernel⟩,
   ⟨(State.reset.set R.secLcState 2 : State), by decide +kernel⟩,
   ⟨(State.reset.set R.secLcState 2 : State), (15 : Nat), by decide +kernel⟩⟩

/-- Each clause of DoorbellsSetSourcesPending with hypotheses: a state and operands that meet them. -/
theorem witness_DoorbellsSetSourcesPending :
    (∃ (s : State) (who : Nat) (n : Nat), (13 ≤ who ∨ 576 ≤ n) ∧ (n < 1024) ∧ (s.flag (State.bitAt (R.icPend 0) n) = false)) ∧
    (∃ (s : State) (who : Nat) (n : Nat), (13 ≤ who ∨ 576 ≤ n) ∧ (n < 1024) ∧ (s.flag (State.bitAt (R.icPend 0) n) = true)) ∧
    (∃ (s : State) (who : Nat) (n : Nat), (who < 13) ∧ (n < 576) ∧ (s.secondPassed s.procs.doorbellErrAt = true)) ∧
    (∃ (s : State) (who : Nat) (n : Nat), (who < 13) ∧ (n < 576) ∧ (s.secondPassed s.procs.doorbellErrAt = false)) ∧
    (∃ (n : Nat), (n < 1024)) ∧
    (∃ (s : State) (n : Nat), (n < 1024) ∧ (s.flag (State.bitAt (R.icPend 0) n) = true)
     ∧ (s.flag (State.bitAt (R.icEn 0) n) = false)) ∧
    (∃ (s : State) (n : Nat), (n < 1024) ∧ (s.flag (State.bitAt (R.icPend 0) n) = true)) ∧
    (∃ (s : State) (n : Nat) (k : Nat), (n < 1024) ∧ (k < 32) ∧ (s.flag (State.bitAt (R.icPend 0) n) = true)) :=
  ⟨⟨(State.reset : State), (13 : Nat), (1023 : Nat), by decide +kernel⟩,
   ⟨(State.reset.set (State.bitAt (R.icPend 0) 1023) 1 : State), (13 : Nat), (1023 : Nat), by decide +kernel⟩,
   ⟨(State.reset : State), (12 : Nat), (575 : Nat), by decide +kernel⟩,
   ⟨({ State.reset with now := 5, procs := { State.reset.procs with doorbellErrAt := some 5 } } : State), (12 : Nat), (575 : Nat),
     by decide +kernel⟩,
   ⟨(1023 : Nat), by decide +kernel⟩,
   ⟨(State.reset.set (State.bitAt (R.icPend 0) 1023) 1 : State), (1023 : Nat), by decide +kernel⟩,
   ⟨(State.reset.set (State.bitAt (R.icPend 0) 1023) 1 : State), (1023 : Nat), by decide +kernel⟩,
   ⟨(State.reset.set (State.bitAt (R.icPend 0) 1023) 1 : State), (1023 : Nat), (31 : Nat), by decide +kernel⟩⟩

/-- Each clause of ClaimsActivateSources with hypotheses: a state and operands that meet them. -/
theorem witness_ClaimsActivateSources :
    (∃ (s : State) (t : Nat) (n : Nat), (t < 13) ∧ ((n, t) ∈ assignment s) ∧ ((∀ m, (m, t) ∈ assignment s → n ≤ m))) ∧
    (∃ (s : State) (t : Nat), (t < 13) ∧ ((∀ m, (m, t) ∉ assignment s))) ∧
    (∃ (who : Nat) (t : Nat), (t < 13) ∧ (who ≠ t)) ∧
    (∃ (s : State) (t : Nat), (t < 13) ∧ ((0, t) ∈ assignment s)) :=
  ⟨⟨((((State.reset.set (R.icTctrlEn 12) 1).set (State.bitAt (R.icPend 0) 1023) 1).set (State.bitAt (R.icEn 0) 1023) 1).wr (R.icSrc 1023) 0x1000 : State), (12 : Nat), (1023 : Nat), by decide +kernel, by decide +kernel, fun m h => by rw [show assignment ((((State.reset.set (R.icTctrlEn 12) 1).set (State.bitAt (R.icPend 0) 1023) 1).set (State.bitAt (R.icEn 0) 1023) 1).wr (R.icSrc 1023) 0x1000) = [(1023, 12)] by decide +kernel] at h; simp at h; omega⟩,
   ⟨(State.reset : State), (12 : Nat), by decide +kernel, fun m h => by rw [show assignment (State.reset) = [] by decide +kernel] at h; cases h⟩,
   ⟨(11 : Nat), (12 : Nat), by decide +kernel⟩,
   ⟨((((State.reset.set (R.icTctrlEn 12) 1).set (State.bitAt (R.icPend 0) 0) 1).set (State.bitAt (R.icEn 0) 0) 1).wr (R.icSrc 0) 0x1000 : State), (12 : Nat), by decide +kernel⟩⟩

/-- Each clause of ServiceEndsAndTransfersRun with hypotheses: a state and operands that meet them. -/
theorem witness_ServiceEndsAndTransfersRun :
    (∃ (s : State) (who : Nat) (t : Nat) (n : Nat) (tag : Nat) (o : TagOp), (o.tag = tag) ∧ (t < 13) ∧ (who = t)
     ∧ (n = running s t) ∧ (n < 1024)) ∧
    (∃ (s : State) (who : Nat) (t : Nat) (n : Nat) (tag : Nat) (o : TagOp), (o.tag = tag) ∧ (t < 13) ∧ (n < 1024)
     ∧ (who ≠ t ∨ n ≠ running s t) ∧ (s.secondPassed s.procs.completeErrAt = true)) ∧
    (∃ (s : State) (tag : Nat) (pair : Nat) (o : TagOp), (o.tag = tag) ∧ (s.flag R.icCtrlPaired = true) ∧ (pair < 2)
     ∧ (s.serving = true)) ∧
    (∃ (s : State) (tag : Nat) (a : Nat) (v : Word) (d : List Byte) (o : TagOp), (o.tag = tag) ∧ (s.gateOn 13 = true)
     ∧ (a = descriptorAt v) ∧ (inSramOrDram s a 64 = true) ∧ (readDescriptor s 0 a = (d, s)) ∧ (natAt d 0 2 = tag)
     ∧ (s.procs.dma.occupied < 512) ∧ (tag ∉ s.procs.dma.tags)) ∧
    (∃ (s : State) (tag : Nat) (a : Nat) (v : Word) (o : TagOp), (o.tag = tag) ∧ (s.gateOn 13 = true) ∧ (a = descriptorAt v)
     ∧ (inSramOrDram s a 64 = false)) ∧
    (∃ (s : State) (tag : Nat) (a : Nat) (v : Word) (d : List Byte) (o : TagOp), (o.tag = tag) ∧ (s.gateOn 13 = true)
     ∧ (a = descriptorAt v) ∧ (inSramOrDram s a 64 = true) ∧ (readDescriptor s 0 a = (d, s)) ∧ (natAt d 0 2 = tag)
     ∧ (512 ≤ s.procs.dma.occupied)) ∧
    (∃ (s : State) (tag : Nat) (a : Nat) (v : Word) (d : List Byte) (o : TagOp), (o.tag = tag) ∧ (s.gateOn 13 = true)
     ∧ (a = descriptorAt v) ∧ (inSramOrDram s a 64 = true) ∧ (readDescriptor s 0 a = (d, s)) ∧ (natAt d 0 2 = tag)
     ∧ (s.procs.dma.occupied < 512) ∧ (tag ∈ s.procs.dma.tags)) ∧
    (∃ (s : State) (tag : Nat) (o : TagOp), (o.tag = tag) ∧ (s.gateOn 13 = true) ∧ (s.flag R.dmaCtrlEn = true)
     ∧ (s.procs.dma.running < 8) ∧ (TagQueue.nextToStart dmaFence s.procs.dma.ops = some o)) ∧
    (∃ (s : State) (tag : Nat) (d : List Byte) (o : TagOp), (o.tag = tag) ∧ (s.gateOn 13 = true) ∧ (s.procs.dma.find tag = some o)
     ∧ (o.started = true) ∧ (o.desc = d) ∧ (dmaValid s d = true) ∧ (dmaOp d = 2) ∧ (s.sram.failed = [])
     ∧ ((s.rd64 R.dmaCqbaseLo + 16 * (s.procs.dma.written % 512)) + 16 ≤ dmaDst d ∨ dmaDst d + dmaLen d ≤ (s.rd64 R.dmaCqbaseLo + 16 * (s.procs.dma.written % 512)))) ∧
    (∃ (s : State) (tag : Nat) (d : List Byte) (o : TagOp), (o.tag = tag) ∧ (s.gateOn 13 = true) ∧ (s.procs.dma.find tag = some o)
     ∧ (o.started = true) ∧ (o.desc = d) ∧ (dmaValid s d = true) ∧ (dmaOp d = 1) ∧ (s.sram.failed = []) ∧ (s.dram.bad = [])
     ∧ ((s.rd64 R.dmaCqbaseLo + 16 * (s.procs.dma.written % 512)) + 16 ≤ dmaDst d ∨ dmaDst d + dmaLen d ≤ (s.rd64 R.dmaCqbaseLo + 16 * (s.procs.dma.written % 512)))) ∧
    (∃ (s : State) (tag : Nat) (o : TagOp), (o.tag = tag) ∧ (s.gateOn 13 = true) ∧ (s.procs.dma.find tag = some o)
     ∧ (o.started = true) ∧ (dmaValid s o.desc = false) ∧ (s.sram.failed = [])) ∧
    (∃ (s : State) (tag : Nat) (head : Nat) (o : TagOp), (o.tag = tag) ∧ (s.gateOn 13 = true) ∧ (head < 512)) ∧
    (∃ (s : State) (tag : Nat) (o : TagOp), (o.tag = tag) ∧ (s.gateOn 13 = true) ∧ (tag < 65536) ∧ (s.procs.dma.find tag = some o)
     ∧ (o.started = false) ∧ (s.sram.failed = [])) ∧
    (∃ (s : State) (tag : Nat) (o : TagOp), (o.tag = tag) ∧ (s.gateOn 13 = true) ∧ (tag < 65536) ∧ (s.procs.dma.find tag = some o)
     ∧ (o.started = true)) ∧
    (∃ (tag : Nat) (o : TagOp), (o.tag = tag)) ∧
    (∃ (s : State) (tag : Nat) (o : TagOp), (o.tag = tag) ∧ (s.flag R.icCtrlPaired = false)) ∧
    (∃ (s : State) (tag : Nat) (o : TagOp), (o.tag = tag) ∧ (s.gateOn 13 = true)) ∧
    (∃ (s : State) (tag : Nat) (o : TagOp), (o.tag = tag) ∧ (s.gateOn 13 = false) ∧ (s.serving = true)) :=
  ⟨⟨(State.reset.set (R.icTstatRunning 12) 9 : State), (12 : Nat), (12 : Nat), (9 : Nat), (7 : Nat), ({ tag := 7 } : TagOp),
     by decide +kernel⟩,
   ⟨(State.reset.set ⟨R.ckGrun, 13, 1⟩ 1 : State), (11 : Nat), (12 : Nat), (9 : Nat), (7 : Nat), ({ tag := 7 } : TagOp),
     by decide +kernel⟩,
   ⟨(State.reset.set R.icCtrlPaired 1 : State), (7 : Nat), (1 : Nat), ({ tag := 7 } : TagOp), by decide +kernel⟩,
   ⟨((State.reset.set ⟨R.ckGrun, 13, 1⟩ 1).mwr 0x10000000 (dmaDesc 7 1 0 64 0x10000000 0x10001000 0 0 0) : State), (7 : Nat),
     (0x10000000 : Nat), (0x00400000 : Word), (dmaDesc 7 1 0 64 0x10000000 0x10001000 0 0 0 : List Byte), ({ tag := 7 } : TagOp),
     by decide +kernel⟩,
   ⟨(State.reset.set ⟨R.ckGrun, 13, 1⟩ 1 : State), (7 : Nat), (0 : Nat), (0 : Word), ({ tag := 7 } : TagOp), by decide +kernel⟩,
   ⟨({ (State.reset.set ⟨R.ckGrun, 13, 1⟩ 1).mwr 0x10000000 (dmaDesc 7 1 0 64 0x10000000 0x10001000 0 0 0) with procs := { State.reset.procs with dma := { unacked := List.replicate 512 9 } } } : State), (7 : Nat), (0x10000000 : Nat), (0x00400000 : Word), (dmaDesc 7 1 0 64 0x10000000 0x10001000 0 0 0 : List Byte), ({ tag := 7 } : TagOp), by decide +kernel⟩,
   ⟨({ (State.reset.set ⟨R.ckGrun, 13, 1⟩ 1).mwr 0x10000000 (dmaDesc 7 1 0 64 0x10000000 0x10001000 0 0 0) with procs := { State.reset.procs with dma := { unacked := [7] } } } : State), (7 : Nat), (0x10000000 : Nat), (0x00400000 : Word), (dmaDesc 7 1 0 64 0x10000000 0x10001000 0 0 0 : List Byte), ({ tag := 7 } : TagOp), by decide +kernel⟩,
   ⟨(({ State.reset with procs := { State.reset.procs with dma := { ops := [{ tag := 7 }] } } }.set ⟨R.ckGrun, 13, 1⟩ 1).set R.dmaCtrlEn 1 : State), (7 : Nat), ({ tag := 7 } : TagOp), by decide +kernel⟩,
   ⟨({ State.reset with procs := { State.reset.procs with dma := { ops := [{ tag := 7, started := true, desc := dmaDesc 7 2 0 8 0x12345678 0x10002000 0 0 0 }] } } }.set ⟨R.ckGrun, 13, 1⟩ 1 : State), (7 : Nat), (dmaDesc 7 2 0 8 0x12345678 0x10002000 0 0 0 : List Byte), ({ tag := 7, started := true, desc := dmaDesc 7 2 0 8 0x12345678 0x10002000 0 0 0 } : TagOp), by decide +kernel⟩,
   ⟨({ State.reset with procs := { State.reset.procs with dma := { ops := [{ tag := 7, started := true, desc := dmaDesc 7 1 0 8 0x10003000 0x10002000 0 0 0 }] } } }.set ⟨R.ckGrun, 13, 1⟩ 1 : State), (7 : Nat), (dmaDesc 7 1 0 8 0x10003000 0x10002000 0 0 0 : List Byte), ({ tag := 7, started := true, desc := dmaDesc 7 1 0 8 0x10003000 0x10002000 0 0 0 } : TagOp), by decide +kernel⟩,
   ⟨({ State.reset with procs := { State.reset.procs with dma := { ops := [{ tag := 7, started := true, desc := dmaDesc 7 9 0 8 0x10003000 0x10002000 0 0 0 }] } } }.set ⟨R.ckGrun, 13, 1⟩ 1 : State), (7 : Nat), ({ tag := 7, started := true, desc := dmaDesc 7 9 0 8 0x10003000 0x10002000 0 0 0 } : TagOp), by decide +kernel⟩,
   ⟨(State.reset.set ⟨R.ckGrun, 13, 1⟩ 1 : State), (7 : Nat), (511 : Nat), ({ tag := 7 } : TagOp), by decide +kernel⟩,
   ⟨({ State.reset with procs := { State.reset.procs with dma := { ops := [{ tag := 7 }] } } }.set ⟨R.ckGrun, 13, 1⟩ 1 : State),
     (7 : Nat), ({ tag := 7 } : TagOp), by decide +kernel⟩,
   ⟨({ State.reset with procs := { State.reset.procs with dma := { ops := [{ tag := 7, started := true }] } } }.set ⟨R.ckGrun, 13, 1⟩ 1 : State), (7 : Nat), ({ tag := 7, started := true } : TagOp), by decide +kernel⟩,
   ⟨(7 : Nat), ({ tag := 7 } : TagOp), by decide +kernel⟩,
   ⟨(State.reset.set R.icCtrlPaired 0 : State), (7 : Nat), ({ tag := 7 } : TagOp), by decide +kernel⟩,
   ⟨(State.reset.set ⟨R.ckGrun, 13, 1⟩ 1 : State), (7 : Nat), ({ tag := 7 } : TagOp), by decide +kernel⟩,
   ⟨(State.reset.set ⟨R.ckGrun, 13, 1⟩ 0 : State), (7 : Nat), ({ tag := 7 } : TagOp), by decide +kernel⟩⟩

/-- Each clause of StorageCommandsRun with hypotheses: a state and operands that meet them. -/
theorem witness_StorageCommandsRun :
    (∃ (s : State) (tag : Nat) (a : Nat) (v : Word) (d : List Byte) (o : TagOp), (o.tag = tag) ∧ (s.gateOn 14 = true)
     ∧ (a = descriptorAt v) ∧ (inSramOrDram s a 64 = true) ∧ (readDescriptor s 1 a = (d, s)) ∧ (natAt d 0 2 = tag)
     ∧ (s.flag R.msStatPfail = false) ∧ (s.flash.queue.occupied < 256) ∧ (tag ∉ s.flash.queue.tags)) ∧
    (∃ (s : State) (tag : Nat) (a : Nat) (v : Word) (o : TagOp), (o.tag = tag) ∧ (s.gateOn 14 = true) ∧ (a = descriptorAt v)
     ∧ (s.flag R.msStatPfail = true) ∧ (inSramOrDram s a 64 = false)) ∧
    (∃ (s : State) (tag : Nat) (d : List Byte) (o : TagOp), (o.tag = tag) ∧ (s.gateOn 14 = true)
     ∧ (s.flash.queue.find tag = some o) ∧ (o.started = true) ∧ (s.flash.queue.ops = [o]) ∧ (o.desc = d) ∧ (stCheck s o = 0)
     ∧ (stOp d = 2) ∧ (stCount d = 1) ∧ (s.sram.failed = []) ∧ (s.dram.bad = [])) ∧
    (∃ (s : State) (tag : Nat) (d : List Byte) (o : TagOp), (o.tag = tag) ∧ (s.gateOn 14 = true)
     ∧ (s.flash.queue.find tag = some o) ∧ (o.started = true) ∧ (s.flash.queue.ops = [o]) ∧ (o.desc = d) ∧ (stCheck s o = 0)
     ∧ (stOp d = 1) ∧ (stCount d = 1) ∧ (s.sram.failed = [])
     ∧ ((Tbl.get s.flash.blocks {} (stPart d * 4294967296 + stLba d)).data.length = 4096)
     ∧ ((s.rd64 R.msScqbaseLo + 16 * (s.flash.queue.written % 256)) + 16 ≤ stBuf d ∨ stBuf d + 4096 ≤ (s.rd64 R.msScqbaseLo + 16 * (s.flash.queue.written % 256)))) ∧
    (∃ (s : State) (tag : Nat) (o : TagOp), (o.tag = tag) ∧ (s.gateOn 14 = true) ∧ (s.flash.queue.find tag = some o)
     ∧ (o.started = true) ∧ (s.flash.queue.ops = [o]) ∧ (stFieldsOk s o.desc = true)
     ∧ (stLba o.desc + stCount o.desc ≤ partBlocks.getD (stPart o.desc) 0) ∧ (stOp o.desc = 4)
     ∧ (partWriter (stPart o.desc) o.writer = false) ∧ (s.sram.failed = [])) ∧
    (∃ (s : State) (tag : Nat) (o : TagOp), (o.tag = tag) ∧ (s.gateOn 14 = true) ∧ (s.flash.queue.find tag = none)
     ∧ (tag ∈ s.flash.late)) ∧
    (∃ (s : State) (tag : Nat) (o : TagOp), (o.tag = tag) ∧ (s.flash.queue.find tag = some o) ∧ (o.started = true)
     ∧ (s.sram.failed = []) ∧ (o.since + s.get R.msScfgTimeout * 1000000 ≤ s.now)) ∧
    (∃ (s : State) (tag : Nat) (head : Nat) (o : TagOp), (o.tag = tag) ∧ (s.gateOn 14 = true) ∧ (head < 256)) ∧
    (∃ (s : State) (tag : Nat) (o : TagOp), (o.tag = tag) ∧ (s.gateOn 14 = true) ∧ (tag < 65536)
     ∧ (s.flash.queue.find tag = some o) ∧ (o.started = false) ∧ (s.sram.failed = [])) ∧
    (∃ (s : State) (tag : Nat) (pct : Nat) (o : TagOp), (o.tag = tag) ∧ (90 ≤ pct) ∧ (pct < 256) ∧ (s.flash.lifeLogged = false)
     ∧ (s.flag ⟨R.msIrqEn, 5, 1⟩ = true) ∧ (s.flag (State.bitAt (R.icPend 0) 453) = false)) ∧
    (∃ (s : State) (tag : Nat) (pct : Nat) (o : TagOp), (o.tag = tag) ∧ (pct < 90 ∨ s.flash.lifeLogged = true)) ∧
    (∃ (s : State) (tag : Nat) (a : Nat) (o : TagOp), (o.tag = tag) ∧ (s.flag R.msStatEcc = true) ∧ (inDram s a = true)
     ∧ (a % 8 = 0) ∧ (a ∉ s.dram.bad) ∧ ((a / 8 * 8 + 8 ≠ dramTop s)) ∧ (a ∉ s.dram.corrected) ∧ (s.dram.corrected.length ≤ 1)) ∧
    (∃ (s : State) (tag : Nat) (a : Nat) (o : TagOp), (o.tag = tag) ∧ (s.flag R.msStatEcc = true) ∧ (inDram s a = true)
     ∧ (a % 8 = 0) ∧ (a ∉ s.dram.bad) ∧ ((a / 8 * 8 + 8 ≠ dramTop s)) ∧ ((a - 0x80000000) / 4096 ∉ s.dram.retired)
     ∧ (s.dram.retired.length < 1024)) ∧
    (∃ (s : State) (tag : Nat) (o : TagOp), (o.tag = tag) ∧ (Serves s) ∧ (s.lifeCycle = 3)) ∧
    (∃ (s : State) (tag : Nat) (o : TagOp), (o.tag = tag) ∧ (Serves s) ∧ (s.lifeCycle ≠ 3)) ∧
    (∃ (s : State) (tag : Nat) (sub : Nat) (value : Nat) (o : TagOp), (o.tag = tag) ∧ (Serves s) ∧ (s.lifeCycle = 3) ∧ (1 ≤ sub)
     ∧ (sub ≤ 6) ∧ (value ≤ (if sub = 4 then 2 else 1))) ∧
    (∃ (s : State) (tag : Nat) (sub : Nat) (value : Nat) (o : TagOp), (o.tag = tag) ∧ (Serves s) ∧ (s.lifeCycle ≠ 3) ∧ (1 ≤ sub)
     ∧ (sub ≤ 6) ∧ (value < 256)) ∧
    (∃ (s : State) (tag : Nat) (sub : Nat) (value : Nat) (o : TagOp), (o.tag = tag) ∧ (Serves s) ∧ (s.lifeCycle = 3) ∧ (1 ≤ sub)
     ∧ (sub ≤ 6) ∧ ((if sub = 4 then 2 else 1) < value) ∧ (value < 256)) ∧
    (∃ (s : State) (tag : Nat) (o : TagOp), (o.tag = tag) ∧ (s.gateOn 14 = true)) ∧
    (∃ (s : State) (tag : Nat) (o : TagOp), (o.tag = tag) ∧ (s.gateOn 14 = false) ∧ (s.serving = true)) ∧
    (∃ (tag : Nat) (o : TagOp), (o.tag = tag)) :=
  ⟨⟨((State.reset.set ⟨R.ckGrun, 14, 1⟩ 1).mwr 0x10000000 (stDesc 7 1 0 9 0 1 0x10001000) : State), (7 : Nat), (0x10000000 : Nat),
     (0x00400000 : Word), (stDesc 7 1 0 9 0 1 0x10001000 : List Byte), ({ tag := 7 } : TagOp), by decide +kernel⟩,
   ⟨((State.reset.set ⟨R.ckGrun, 14, 1⟩ 1).set R.msStatPfail 1 : State), (7 : Nat), (0 : Nat), (0 : Word), ({ tag := 7 } : TagOp),
     by decide +kernel⟩,
   ⟨({ State.reset with flash := { State.reset.flash with queue := { ops := [{ tag := 7, started := true, desc := stDesc 7 2 0 9 2355199 1 0x10001000 }] } } }.set ⟨R.ckGrun, 14, 1⟩ 1 : State), (7 : Nat), (stDesc 7 2 0 9 2355199 1 0x10001000 : List Byte), ({ tag := 7, started := true, desc := stDesc 7 2 0 9 2355199 1 0x10001000 } : TagOp), by decide +kernel⟩,
   ⟨({ State.reset with flash := { State.reset.flash with queue := { ops := [{ tag := 7, started := true, desc := stDesc 7 1 0 9 2355199 1 0x10001000 }] }, blocks := [(9 * 4294967296 + 2355199, { data := List.replicate 4096 5 })] } }.set ⟨R.ckGrun, 14, 1⟩ 1 : State), (7 : Nat), (stDesc 7 1 0 9 2355199 1 0x10001000 : List Byte), ({ tag := 7, started := true, desc := stDesc 7 1 0 9 2355199 1 0x10001000 } : TagOp), by decide +kernel⟩,
   ⟨({ State.reset with flash := { State.reset.flash with queue := { ops := [{ tag := 7, started := true, desc := stDesc 7 4 0 6 0 1 0 }] } } }.set ⟨R.ckGrun, 14, 1⟩ 1 : State), (7 : Nat), ({ tag := 7, started := true, desc := stDesc 7 4 0 6 0 1 0 } : TagOp), by decide +kernel⟩,
   ⟨({ State.reset with flash := { State.reset.flash with late := [7] } }.set ⟨R.ckGrun, 14, 1⟩ 1 : State), (7 : Nat),
     ({ tag := 7 } : TagOp), by decide +kernel⟩,
   ⟨({ State.reset with flash := { State.reset.flash with queue := { ops := [{ tag := 7, started := true }] } } }.set R.msScfgTimeout 0 : State), (7 : Nat), ({ tag := 7, started := true } : TagOp), by decide +kernel⟩,
   ⟨(State.reset.set ⟨R.ckGrun, 14, 1⟩ 1 : State), (7 : Nat), (255 : Nat), ({ tag := 7 } : TagOp), by decide +kernel⟩,
   ⟨({ State.reset with flash := { State.reset.flash with queue := { ops := [{ tag := 7 }] } } }.set ⟨R.ckGrun, 14, 1⟩ 1 : State),
     (7 : Nat), ({ tag := 7 } : TagOp), by decide +kernel⟩,
   ⟨(State.reset.set ⟨R.msIrqEn, 5, 1⟩ 1 : State), (7 : Nat), (90 : Nat), ({ tag := 7 } : TagOp), by decide +kernel⟩,
   ⟨(State.reset.set ⟨R.ckGrun, 14, 1⟩ 1 : State), (7 : Nat), (89 : Nat), ({ tag := 7 } : TagOp), by decide +kernel⟩,
   ⟨(State.reset.set R.msStatEcc 1 : State), (7 : Nat), (0x80000008 : Nat), ({ tag := 7 } : TagOp), by decide +kernel⟩,
   ⟨(State.reset.set R.msStatEcc 1 : State), (7 : Nat), (0x80000008 : Nat), ({ tag := 7 } : TagOp), by decide +kernel⟩,
   ⟨(State.reset.set R.secLcState 3 : State), (7 : Nat), ({ tag := 7 } : TagOp), by unfold Serves; decide +kernel⟩,
   ⟨(State.reset : State), (7 : Nat), ({ tag := 7 } : TagOp), by unfold Serves; decide +kernel⟩,
   ⟨(State.reset.set R.secLcState 3 : State), (7 : Nat), (4 : Nat), (2 : Nat), ({ tag := 7 } : TagOp),
     by unfold Serves; decide +kernel⟩,
   ⟨(State.reset : State), (7 : Nat), (4 : Nat), (2 : Nat), ({ tag := 7 } : TagOp), by unfold Serves; decide +kernel⟩,
   ⟨(State.reset.set R.secLcState 3 : State), (7 : Nat), (4 : Nat), (255 : Nat), ({ tag := 7 } : TagOp),
     by unfold Serves; decide +kernel⟩,
   ⟨(State.reset.set ⟨R.ckGrun, 14, 1⟩ 1 : State), (7 : Nat), ({ tag := 7 } : TagOp), by decide +kernel⟩,
   ⟨(State.reset.set ⟨R.ckGrun, 14, 1⟩ 0 : State), (7 : Nat), ({ tag := 7 } : TagOp), by decide +kernel⟩,
   ⟨(7 : Nat), ({ tag := 7 } : TagOp), by decide +kernel⟩⟩

/-- Each clause of ClocksAreMonitored with hypotheses: a state and operands that meet them. -/
theorem witness_ClocksAreMonitored :
    (∃ (s : State) (a : Nat) (b : Nat) (c : Option Nat) (d : Option Nat), (23920 ≤ a) ∧ (a ≤ 28080) ∧ (92000 ≤ b) ∧ (b ≤ 108000)
     ∧ (c = none) ∧ (d = none) ∧ (s.clk.runs.getD 2 0 < 2)) ∧
    (∃ (s : State) (a : Nat) (b : Nat), (28080 < a) ∧ (92000 ≤ b) ∧ (b ≤ 108000) ∧ (s.clk.runs.getD 0 0 = 1)
     ∧ (s.clk.runs.getD 2 0 < 2) ∧ (s.clk.tcxo = false) ∧ (s.clk.rc = false) ∧ (s.flag R.ckStatMonf = false)
     ∧ (s.flag R.ckStatRecclk = false) ∧ (s.flag ⟨R.icNmistat, 0, 1⟩ = false)) ∧
    (∃ (s : State) (a : Nat) (b : Nat), (28080 < a) ∧ (108000 < b) ∧ (s.clk.runs.getD 0 0 = 1) ∧ (s.clk.runs.getD 1 0 = 1)
     ∧ (s.clk.runs.getD 2 0 < 2) ∧ (s.clk.rc = false) ∧ (s.clk.sysRef ≠ 2) ∧ (s.flag R.ckStatMonf = false)) ∧
    (∃ (s : State) (a : Nat) (b : Nat) (n : Nat), (23920 ≤ a) ∧ (a ≤ 28080) ∧ (92000 ≤ b) ∧ (b ≤ 108000) ∧ (1069 < n)
     ∧ (s.clk.runs.getD 2 0 = 1) ∧ (s.clk.xt = false)) ∧
    (∃ (s : State) (a : Nat) (b : Nat) (n : Nat), (23920 ≤ a) ∧ (a ≤ 28080) ∧ (92000 ≤ b) ∧ (b ≤ 108000)
     ∧ (n < 123750 ∨ 126250 < n) ∧ (s.clk.runs.getD 2 0 < 2) ∧ (s.clk.runs.getD 3 0 = 1) ∧ (s.flag R.ckStatRecclk = true)) ∧
    (∃ (s : State) (a : Nat) (b : Nat), (23920 ≤ a) ∧ (a ≤ 28080) ∧ (108000 < b) ∧ (s.clk.runs.getD 1 0 = 1)
     ∧ (s.clk.runs.getD 2 0 < 2) ∧ (s.flag R.ckStatMonf = false)) ∧
    (∃ (p : Nat), (7 ≤ p)) ∧
    (∃ (p : Nat), (p < 7)) ∧
    (∃ (s : State) (k : Nat) (op : Nat), (k < 2) ∧ (op < 4) ∧ (s.flag (R.ckClopBusy k) = false)
     ∧ ((max op (s.get (R.ckClopCeil k))) ≠ s.get (R.ckClopEff k)) ∧ (s.clk.target.length = 2) ∧ (s.clk.seqEnd.length = 2)) ∧
    (∃ (s : State) (k : Nat) (op : Nat), (k < 2) ∧ (op < 4) ∧ (s.flag (R.ckClopBusy k) = true)) ∧
    (∃ (s : State) (k : Nat), (k < 2) ∧ (s.flag (R.ckClopBusy k) = true)
     ∧ (s.clk.target.getD k 2 = max (s.get (R.ckClopReq k)) (s.get (R.ckClopCeil k)))) ∧
    (∃ (s : State) (t0 : Nat), (s.kp.lostAt = some t0) ∧ (s.ps.mode = 7)) ∧
    (∃ (s : State) (t0 : Nat), (s.kp.lostAt = some t0) ∧ (s.ps.mode = 7) ∧ (s.lifeCycle ≠ 0)) ∧
    (∃ (op : Nat), (op < 4)) ∧
    (∃ (s : State) (k : Nat), (k < 2) ∧ (s.flag (R.ckClopBusy k) = true)) :=
  ⟨⟨(State.reset : State), (26000 : Nat), (100000 : Nat), (none : Option Nat), (none : Option Nat), by decide +kernel⟩,
   ⟨({ State.reset with clk := { State.reset.clk with runs := [1, 0, 0, 0] } } : State), (28081 : Nat), (100000 : Nat),
     by decide +kernel⟩,
   ⟨({ State.reset with clk := { State.reset.clk with runs := [1, 1, 0, 0] } } : State), (28081 : Nat), (108001 : Nat),
     by decide +kernel⟩,
   ⟨({ State.reset with clk := { State.reset.clk with runs := [0, 0, 1, 0] } } : State), (26000 : Nat), (100000 : Nat),
     (1070 : Nat), by decide +kernel⟩,
   ⟨({ State.reset.set R.ckStatRecclk 1 with clk := { State.reset.clk with runs := [0, 0, 0, 1] } } : State), (26000 : Nat),
     (100000 : Nat), (126251 : Nat), by decide +kernel⟩,
   ⟨({ State.reset with clk := { State.reset.clk with runs := [0, 1, 0, 0] } } : State), (26000 : Nat), (108001 : Nat),
     by decide +kernel⟩,
   ⟨(7 : Nat), by decide +kernel⟩,
   ⟨(6 : Nat), by decide +kernel⟩,
   ⟨(State.reset : State), (1 : Nat), (3 : Nat), by decide +kernel⟩,
   ⟨(State.reset.set (R.ckClopBusy 1) 1 : State), (1 : Nat), (3 : Nat), by decide +kernel⟩,
   ⟨(((State.reset.set (R.ckClopBusy 1) 1).set (R.ckClopReq 1) 2).set (R.ckClopCeil 1) 0 : State), (1 : Nat), by decide +kernel⟩,
   ⟨({ State.reset with ps := { State.reset.ps with mode := 7 }, kp := { State.reset.kp with lostAt := some 9 } } : State),
     (9 : Nat), by decide +kernel⟩,
   ⟨({ State.reset with ps := { State.reset.ps with mode := 7 }, kp := { State.reset.kp with lostAt := some 9 } } : State),
     (9 : Nat), by decide +kernel⟩,
   ⟨(3 : Nat), by decide +kernel⟩,
   ⟨(State.reset.set (R.ckClopBusy 1) 1 : State), (1 : Nat), by decide +kernel⟩⟩

/-- Each clause of SupplyConditionsAct with hypotheses: a state and operands that meet them. -/
theorem witness_SupplyConditionsAct :
    (∃ (s : State), (s.ps.mode ≠ 4) ∧ (s.pwrFlag 1 = false)) ∧
    (∃ (s : State), (s.ps.mode ≠ 4) ∧ (s.pwrFlag 1 = true) ∧ (s.pwrFlag 0 = false) ∧ (s.clk.gated = [])) ∧
    (∃ (s : State), (s.ps.mode ≠ 4) ∧ (s.pwrFlag 1 = true) ∧ (s.pwrFlag 0 = true)) ∧
    (∃ (s : State), (s.ps.mode ≠ 4) ∧ (s.pwrFlag 0 = false) ∧ (s.pwr.counters.length = 3)) ∧
    (∃ (s : State), (s.ps.mode ≠ 4) ∧ (s.pwrFlag 0 = true) ∧ (s.pwr.counters.length = 3)) ∧
    (∃ (s : State), (s.ps.mode ≠ 4) ∧ (s.pwrFlag 2 = false)) ∧
    (∃ (s : State), (s.ps.mode ≠ 4)) ∧
    (∃ (s : State), (s.ps.mode ≠ 4) ∧ (s.pwrFlag 0 = true) ∧ (s.ps.mode ≤ 2)) ∧
    (∃ (s : State), (s.ps.mode ≠ 4) ∧ (s.pwrFlag 0 = false)) ∧
    (∃ (s : State) (v : Nat), (s.ps.mode ≠ 4) ∧ (s.ps.mode = 5) ∧ (50 ≤ v) ∧ (s.pwr.ign ≠ 0) ∧ (s.lifeCycle ≠ 0)) ∧
    (∃ (s : State) (v : Nat), (s.ps.mode ≠ 4) ∧ (s.ps.mode = 5) ∧ (50 ≤ v) ∧ (s.pwr.ign = 0)) ∧
    (∃ (s : State) (v : Nat), (s.ps.mode ≠ 4) ∧ (s.ps.mode = 5) ∧ (v < 50)) ∧
    (∃ (s : State) (k : Nat), (s.ps.mode ≠ 4) ∧ (k < 4) ∧ (s.pwr.banks.length = 4)
     ∧ ((∀ b, b < 12 → s.flag (R.sdBstatDefer b) = false))) ∧
    (∃ (s : State), (s.ps.mode ≠ 4) ∧ (s.pwrFlag 3 = false)) ∧
    (∃ (s : State), (s.ps.mode ≠ 4) ∧ (s.pwrFlag 3 = true)) ∧
    (∃ (s : State), (s.ps.mode ≠ 4) ∧ (s.pwr.ign ≠ 0) ∧ (s.serving = true)) ∧
    (∃ (s : State) (inputs : Nat), (s.ps.mode ≠ 4) ∧ (s.pwr.ign = 0) ∧ (1 ≤ inputs) ∧ (inputs ≤ 3) ∧ (s.ps.mode ≤ 1)
     ∧ (s.pwrFlag 5 = true)) ∧
    (∃ (s : State), (s.ps.mode ≠ 4) ∧ (s.pwrFlag 5 = true) ∧ (s.serving = true) ∧ (s.objN 0x1300 0x08 = 0)
     ∧ ((∀ b, b < 12 → s.flag (R.sdBstatDefer b) = false))) ∧
    (∃ (s : State), (s.ps.mode ≠ 4) ∧ (s.pwrFlag 1 = true) ∧ (s.pwrFlag 0 = false)) ∧
    (∃ (s : State) (k : Nat), (s.ps.mode ≠ 4) ∧ (k < 4)) ∧
    (∃ (s : State), (s.ps.mode ≠ 4) ∧ (s.pwr.ign ≠ 0) ∧ (s.ps.mode = 6)) ∧
    (∃ (s : State) (inputs : Nat), (s.ps.mode ≠ 4) ∧ (s.pwr.ign = 0) ∧ (1 ≤ inputs) ∧ (inputs ≤ 3) ∧ (s.ps.mode = 3)) ∧
    (∃ (s : State) (inputs : Nat), (s.ps.mode ≠ 4) ∧ (s.pwr.ign = 0) ∧ (1 ≤ inputs) ∧ (inputs ≤ 3) ∧ (s.ps.mode = 2)
     ∧ (s.pwrFlag 5 = false)) ∧
    (∃ (s : State), (s.ps.mode ≠ 4) ∧ (s.pwrFlag 5 = true) ∧ (s.serving = true)) :=
  ⟨⟨(State.reset : State), by decide +kernel⟩,
   ⟨({ State.reset with pwrStatus := 2 } : State), by decide +kernel⟩,
   ⟨({ State.reset with pwrStatus := 3 } : State), by decide +kernel⟩,
   ⟨(State.reset : State), by decide +kernel⟩,
   ⟨({ State.reset with pwrStatus := 1 } : State), by decide +kernel⟩,
   ⟨(State.reset : State), by decide +kernel⟩,
   ⟨(State.reset : State), by decide +kernel⟩,
   ⟨({ State.reset with pwrStatus := 1 } : State), by decide +kernel⟩,
   ⟨(State.reset : State), by decide +kernel⟩,
   ⟨({ State.reset with ps := { State.reset.ps with mode := 5 } } : State), (50 : Nat), by decide +kernel⟩,
   ⟨({ State.reset with ps := { State.reset.ps with mode := 5 }, pwr := { State.reset.pwr with ign := 0 } } : State), (50 : Nat),
     by decide +kernel⟩,
   ⟨({ State.reset with ps := { State.reset.ps with mode := 5 } } : State), (49 : Nat), by decide +kernel⟩,
   ⟨(State.reset : State), (3 : Nat), by decide +kernel⟩,
   ⟨(State.reset : State), by decide +kernel⟩,
   ⟨({ State.reset with pwrStatus := 8 } : State), by decide +kernel⟩,
   ⟨(State.reset : State), by decide +kernel⟩,
   ⟨({ State.reset with pwrStatus := 32, pwr := { State.reset.pwr with ign := 0 } } : State), (2 : Nat), by decide +kernel⟩,
   ⟨({ State.reset with pwrStatus := 32 } : State), by decide +kernel⟩,
   ⟨({ State.reset with pwrStatus := 2 } : State), by decide +kernel⟩,
   ⟨(State.reset : State), (3 : Nat), by decide +kernel⟩,
   ⟨({ State.reset with ps := { State.reset.ps with mode := 6 } } : State), by decide +kernel⟩,
   ⟨({ State.reset with ps := { State.reset.ps with mode := 3 }, pwr := { State.reset.pwr with ign := 0 } } : State), (2 : Nat),
     by decide +kernel⟩,
   ⟨({ State.reset with ps := { State.reset.ps with mode := 2 }, pwr := { State.reset.pwr with ign := 0 } } : State), (2 : Nat),
     by decide +kernel⟩,
   ⟨({ State.reset with pwrStatus := 32 } : State), by decide +kernel⟩⟩

/-- Each clause of ResetsAndStatesFollow with hypotheses: a state and operands that meet them. -/
theorem witness_ResetsAndStatesFollow :
    (∃ (s : State) (n : Nat), (s.ps.mode ≠ 4) ∧ (10000 ≤ n)) ∧
    (∃ (n : Nat), (n < 2000)) ∧
    (∃ (s : State), (Serves s) ∧ (s.dict.subs = []) ∧ (s.ps.due = 0) ∧ (s.ps.shut = none)) ∧
    (∃ (s : State) (n : Nat), (Serves s) ∧ (n ≠ 0x5359) ∧ (n < 65536)) ∧
    (∃ (s : State) (n : Nat), (Serves s) ∧ (s.dict.subs = []) ∧ (s.ps.due = 0) ∧ (s.ps.shut = none) ∧ (1 ≤ n) ∧ (n ≤ 3)
     ∧ (s.ps.mode ≤ 1)) ∧
    (∃ (s : State), (s.ps.mode ≤ 1) ∧ (s.pwrFlag 1 = false) ∧ (s.ps.appDue = true)) ∧
    (∃ (s : State), (Serves s) ∧ (s.dict.subs = []) ∧ (s.ps.due = 0) ∧ (s.ps.shut = none) ∧ (s.ps.mode = 0)) ∧
    (∃ (s : State) (n : Nat), (Serves s) ∧ (3 ≤ n) ∧ (n ≤ 4) ∧ (s.pwr.ign ≠ 0)) ∧
    (∃ (s : State) (n : Nat), (Serves s) ∧ (4 < n) ∧ (n < 256)) ∧
    (∃ (s : State) (source : Nat), (s.ps.mode = 2) ∧ (s.ps.due = 0) ∧ (s.ps.shut = none) ∧ (source < 1024)
     ∧ (source ∈ sleepSources s)) ∧
    (∃ (s : State) (source : Nat), (s.ps.mode = 3) ∧ (deepWakes s source = true)) ∧
    (∃ (s : State), (s.ps.mode ≠ 3)) ∧
    (∃ (s : State) (who : Nat) (v : Word), (who < 12) ∧ (v = 0x4B49434B) ∧ (s.objN 0x3300 0x20 ≠ 0)) ∧
    (∃ (v : Word), (v ≠ 0x4B49434B)) ∧
    (∃ (s : State) (n : Nat) (x : Watchdog), (s.kp.main = x) ∧ (x.till = some n) ∧ (s.kp.counters.length = 3)
     ∧ (s.clk.sysRef ≠ 3)) ∧
    (∃ (s : State) (n : Nat) (k : Nat) (x : Watchdog), (k < 4) ∧ (Tbl.get s.kp.rt {} k = x) ∧ (x.till = some n)
     ∧ (s.kp.counters.length = 3)) ∧
    (∃ (s : State), (s.ps.mode ≠ 4) ∧ (s.keeperRestarts = false) ∧ (s.kp.counters.length = 3)) ∧
    (∃ (s : State) (n : Nat), (s.ps.mode ≠ 4) ∧ (2000 ≤ n) ∧ (n < 10000)) ∧
    (∃ (s : State), (Serves s)) ∧
    (∃ (s : State) (n : Nat), (Serves s) ∧ (1 ≤ n) ∧ (n ≤ 3)) ∧
    (∃ (s : State) (n : Nat), (Serves s) ∧ (n = 0 ∨ 3 < n) ∧ (n < 256)) ∧
    (∃ (s : State) (n : Nat), (Serves s) ∧ (s.ps.mode ≤ 1) ∧ (n ≤ 1)) ∧
    (∃ (s : State) (n : Nat), (Serves s) ∧ (s.ps.mode = 2) ∧ (n ≤ 1)) ∧
    (∃ (s : State), (Serves s) ∧ (s.ps.mode ≤ 2)) ∧
    (∃ (s : State) (n : Nat), (Serves s) ∧ (3 ≤ n) ∧ (n ≤ 4) ∧ (s.pwr.ign = 0)) ∧
    (∃ (s : State) (n : Nat), (Serves s) ∧ (s.dict.subs = []) ∧ (s.ps.due = 0) ∧ (3 ≤ n) ∧ (n ≤ 4) ∧ (s.pwr.ign = 0)
     ∧ ((∀ b, b < 12 → s.flag (R.sdBstatDefer b) = false))) ∧
    (∃ (s : State) (n : Nat), (s.kp.main.till = some n) ∧ (s.clk.sysRef = 3)) :=
  ⟨⟨(State.reset : State), (10000 : Nat), by decide +kernel⟩,
   ⟨(1999 : Nat), by decide +kernel⟩,
   ⟨(State.reset : State), by unfold Serves; decide +kernel⟩,
   ⟨(State.reset : State), (4 : Nat), by unfold Serves; decide +kernel⟩,
   ⟨(State.reset : State), (3 : Nat), by unfold Serves; decide +kernel⟩,
   ⟨({ State.reset with ps := { State.reset.ps with appDue := true } } : State), by decide +kernel⟩,
   ⟨(State.reset : State), by unfold Serves; decide +kernel⟩,
   ⟨(State.reset : State), (4 : Nat), by unfold Serves; decide +kernel⟩,
   ⟨(State.reset : State), (5 : Nat), by unfold Serves; decide +kernel⟩,
   ⟨(({ State.reset with ps := { State.reset.ps with mode := 2 } }).setObj 0x1300 0x26 (.bytes ([77, 0]
     ++ List.replicate 30 255)) : State), (77 : Nat), by decide +kernel⟩,
   ⟨((({ State.reset with ps := { State.reset.ps with mode := 3 } }).setObjN 0x1300 0x27 5).setObjN 0x1300 0x29 4 : State),
     (4 : Nat), by decide +kernel⟩,
   ⟨(State.reset : State), by decide +kernel⟩,
   ⟨(State.reset : State), (11 : Nat), (0x4B49434B : Word), by decide +kernel⟩,
   ⟨(5 : Word), by decide +kernel⟩,
   ⟨({ State.reset with kp := { State.reset.kp with main := { till := some 9 } } } : State), (9 : Nat),
     ({ till := some 9 } : Watchdog), by decide +kernel⟩,
   ⟨({ State.reset with kp := { State.reset.kp with rt := [(3, { till := some 9 })] } } : State), (9 : Nat), (3 : Nat),
     ({ till := some 9 } : Watchdog), by decide +kernel⟩,
   ⟨(State.reset : State), by decide +kernel⟩,
   ⟨(State.reset : State), (9999 : Nat), by decide +kernel⟩,
   ⟨(State.reset : State), by unfold Serves; decide +kernel⟩,
   ⟨(State.reset : State), (3 : Nat), by unfold Serves; decide +kernel⟩,
   ⟨(State.reset : State), (0 : Nat), by unfold Serves; decide +kernel⟩,
   ⟨(State.reset : State), (1 : Nat), by unfold Serves; decide +kernel⟩,
   ⟨({ State.reset with ps := { State.reset.ps with mode := 2 } } : State), (1 : Nat), by unfold Serves; decide +kernel⟩,
   ⟨(State.reset : State), by unfold Serves; decide +kernel⟩,
   ⟨({ State.reset with pwr := { State.reset.pwr with ign := 0 } } : State), (4 : Nat), by unfold Serves; decide +kernel⟩,
   ⟨({ State.reset with pwr := { State.reset.pwr with ign := 0 } } : State), (4 : Nat), by unfold Serves; decide +kernel⟩,
   ⟨({ State.reset with clk := { State.reset.clk with sysRef := 3 }, kp := { State.reset.kp with main := { till := some 9 } } } : State), (9 : Nat), by decide +kernel⟩⟩

/-- Each clause of EventsAndTemperaturesAreHandled with hypotheses: a state and operands that meet them. -/
theorem witness_EventsAndTemperaturesAreHandled :
    (∃ (s : State) (code : Nat), (0x4000 ≤ code) ∧ (code ≤ 0x7FFF) ∧ (s.ev.intake.length < 64)) ∧
    (∃ (s : State) (code : Nat), (0x4000 ≤ code) ∧ (code ≤ 0x7FFF) ∧ (s.ev.intake.length = 64) ∧ (s.kp.restart ≤ s.now)) ∧
    (∃ (code : Nat), (code < 0x4000 ∨ 0x8000 ≤ code) ∧ (code < 65536)) ∧
    (∃ (s : State) (e : Ev) (rest : List Ev), (s.kp.restart ≤ s.now) ∧ (s.kp.dropped = 0) ∧ (s.ev.intake = e :: rest)
     ∧ (repeats s e = false) ∧ (s.ev.seq < s.ev.unspilled + 16384) ∧ (s.ev.dropPend = 0)) ∧
    (∃ (s : State) (e : Ev) (rest : List Ev), (s.kp.restart ≤ s.now) ∧ (s.kp.dropped = 0) ∧ (s.ev.intake = e :: rest)
     ∧ (repeats s e = true) ∧ (s.ev.dropPend = 0)) ∧
    (∃ (s : State), (s.flag R.msStatPfail = true)) ∧
    (∃ (s : State), (s.flag R.msStatPfail = false) ∧ (s.gateOn 14 = true) ∧ (s.ev.seq < s.ev.unspilled + 128)) ∧
    (∃ (s : State), (s.flag R.msStatPfail = false) ∧ (s.gateOn 14 = true) ∧ (s.ev.unspilled + 128 ≤ s.ev.seq)) ∧
    (∃ (s : State) (z : Nat) (a : Int) (b : Int), (z < 4) ∧ (s.th = {}) ∧ (-550 ≤ a) ∧ (a < 1050) ∧ (-550 ≤ b) ∧ (b < 1050)
     ∧ ((a - b).natAbs ≤ 150) ∧ (s.get (R.thSensFault (2 * z)) = 0) ∧ (s.get (R.thSensFault (2 * z + 1)) = 0)
     ∧ (s.flag ⟨R.thLatch, z, 1⟩ = false) ∧ (s.flag (R.thZstatHeld z) = false) ∧ (s.flag (R.thZstatRor z) = false)) ∧
    (∃ (s : State) (z : Nat) (a : Int), (4 ≤ z) ∧ (z < 15) ∧ (s.th = {}) ∧ (1400 ≤ a) ∧ (a < 1600)
     ∧ (s.get (R.thSensFault (z + 4)) = 0) ∧ (s.flag ⟨R.thLatch, z, 1⟩ = false) ∧ (s.flag (R.thZstatHeld z) = false)
     ∧ (s.flag (R.thZstatRor z) = false)) ∧
    (∃ (s : State) (z : Nat) (a : Int) (b : Int), (z < 4) ∧ (s.th = {}) ∧ (1150 ≤ a) ∧ (a < 1250) ∧ (b = a)
     ∧ (s.get (R.thSensFault (2 * z)) = 0) ∧ (s.get (R.thSensFault (2 * z + 1)) = 0) ∧ (s.flag ⟨R.thLatch, z, 1⟩ = false)
     ∧ (s.flag (R.thZstatHeld z) = false) ∧ (s.flag (R.thZstatRor z) = false) ∧ (s.get R.thStatDamper = 0)) ∧
    (∃ (s : State) (z : Nat) (a : Int), (18 ≤ z) ∧ (z < 20) ∧ (s.th = {}) ∧ (1100 ≤ a) ∧ (a ≤ 2000)
     ∧ (s.get (R.thSensFault (z + 4)) = 0) ∧ (s.flag ⟨R.thLatch, z, 1⟩ = false)) ∧
    (∃ (s : State) (z : Nat) (k : Nat) (a : Int), (4 ≤ z) ∧ (z < 7) ∧ (s.th = {}) ∧ (1600 ≤ a) ∧ (a ≤ 2000)
     ∧ (s.get (R.thSensFault (z + 4)) = 0) ∧ (s.flag ⟨R.thLatch, z, 1⟩ = false)
     ∧ ((∀ k, k < 12 → s.flag (R.sdBstatDefer k) = false))) ∧
    (∃ (z : Nat), (20 ≤ z)) ∧
    (∃ (s : State) (z : Nat), (s.get R.thStatDamper = 1) ∧ (z < 20) ∧ (stillHot s z = true)) ∧
    (∃ (s : State), (s.get R.thStatDamper ≠ 1)) ∧
    (∃ (s : State) (k : Nat) (t0 : Nat), (s.th.shutAt = some t0) ∧ ((∀ k, k < 12 → s.flag (R.sdBstatDefer k) = false))) ∧
    (∃ (s : State), (s.th.shutAt = none)) ∧
    (∃ (s : State), (s.gateOn 14 = false)) ∧
    (∃ (s : State) (k : Nat) (e : Ev), (s.now < s.kp.restart) ∧ (s.kp.dropped = k) ∧ (k ≠ 0) ∧ (s.ev.dropPend = 0)
     ∧ (s.ev.intake = [e]) ∧ (repeats s e = true)) ∧
    (∃ (z : Nat), (z < 20)) ∧
    (∃ (s : State), (s.get R.thStatDamper = 1) ∧ ((List.range 20).any (stillHot s) = false)) :=
  ⟨⟨(State.reset : State), (0x7FFF : Nat), by decide +kernel⟩,
   ⟨({ State.reset with ev := { State.reset.ev with intake := List.replicate 64 {} } } : State), (0x7FFF : Nat), by decide +kernel⟩,
   ⟨(0x3FFF : Nat), by decide +kernel⟩,
   ⟨({ State.reset with ev := { State.reset.ev with intake := [{}] } } : State), ({} : Ev), ([] : List Ev), by decide +kernel⟩,
   ⟨({ State.reset with ev := { State.reset.ev with intake := [{ code := 9 }], seq := 1, ring := [(0, { code := 9, mark := true, data := data12 [] })] } } : State), ({ code := 9 } : Ev), ([] : List Ev), by decide +kernel⟩,
   ⟨(State.reset.set R.msStatPfail 1 : State), by decide +kernel⟩,
   ⟨(State.reset.set ⟨R.ckGrun, 14, 1⟩ 1 : State), by decide +kernel⟩,
   ⟨({ State.reset with ev := { State.reset.ev with seq := 128 } }.set ⟨R.ckGrun, 14, 1⟩ 1 : State), by decide +kernel⟩,
   ⟨(State.reset : State), (3 : Nat), (200 : Int), (210 : Int), by decide +kernel⟩,
   ⟨(State.reset : State), (14 : Nat), (1400 : Int), by decide +kernel⟩,
   ⟨(State.reset : State), (3 : Nat), (1150 : Int), (1150 : Int), by decide +kernel⟩,
   ⟨(State.reset : State), (19 : Nat), (1100 : Int), by decide +kernel⟩,
   ⟨(State.reset : State), (6 : Nat), (1 : Nat), (1600 : Int), by decide +kernel⟩,
   ⟨(20 : Nat), by decide +kernel⟩,
   ⟨((State.reset.set R.thStatDamper 1).set (R.thZstatHeld 0) 1 : State), (0 : Nat), by decide +kernel⟩,
   ⟨(State.reset : State), by decide +kernel⟩,
   ⟨({ State.reset with th := { State.reset.th with shutAt := some 9 } } : State), (1 : Nat), (9 : Nat), by decide +kernel⟩,
   ⟨(State.reset : State), by decide +kernel⟩,
   ⟨(State.reset.set ⟨R.ckGrun, 14, 1⟩ 0 : State), by decide +kernel⟩,
   ⟨({ State.reset with ev := { State.reset.ev with intake := [{ code := 9 }], seq := 1, ring := [(0, { code := 9, mark := true, data := data12 [] })] }, kp := { State.reset.kp with restart := 9, dropped := 1 } } : State), (1 : Nat), ({ code := 9 } : Ev), by decide +kernel⟩,
   ⟨(19 : Nat), by decide +kernel⟩,
   ⟨(State.reset.set R.thStatDamper 1 : State), by decide +kernel⟩⟩

/-- Each clause of PanelDrivesItsRows with hypotheses: a state and operands that meet them. -/
theorem witness_PanelDrivesItsRows :
    (∃ (s : State) (tag : Nat), (s.gateOn 16 = true) ∧ (tag < 65536) ∧ (submitResult s (panelRequest s tag) = 0)
     ∧ (s.panel.row.isSome = true)) ∧
    (∃ (s : State) (tag : Nat) (q : PanelReq), (s.gateOn 16 = true) ∧ (tag < 65536) ∧ (submitResult s (panelRequest s tag) = 2)
     ∧ (s.panel.row.isSome = true) ∧ (s.panel.queue = [q]) ∧ (s.flag ⟨R.dpIrqEn, 0, 1⟩ = false)) ∧
    (∃ (s : State) (tag : Nat), (s.gateOn 16 = true) ∧ (tag < 65536) ∧ ((submitResult s (panelRequest s tag)) ≠ 0)
     ∧ ((submitResult s (panelRequest s tag)) ≠ 2) ∧ (s.panel.row.isSome = true)) ∧
    (∃ (s : State) (tag : Nat) (k : Nat), (s.gateOn 16 = true) ∧ (tag < 65536) ∧ (submitResult s (panelRequest s tag) = 0)
     ∧ (s.panel.row = none) ∧ (s.panel.flight = []) ∧ (s.panel.queue = []) ∧ (panelMay s = true) ∧ (s.sram.failed = [])
     ∧ (s.dram.bad = []) ∧ (s.panel.journal.length = 4) ∧ (s.get R.dpGeomCols ≤ 320) ∧ (journalFree s = some k)
     ∧ (s.flag R.dpStatReplay = false)) ∧
    (∃ (s : State) (tag : Nat) (y : Nat) (t0 : Nat) (k : Nat) (f : PanelFlight), (s.panel.flight = [f]) ∧ (f.rect.h = 1)
     ∧ (f.rect.y = y) ∧ (f.done = []) ∧ (f.tag = some tag) ∧ (f.replay = false) ∧ (f.entry = k) ∧ (s.panel.queue = [])
     ∧ (s.panel.row = some (y, t0)) ∧ (k < 4) ∧ (s.panel.journal.length = 4) ∧ (s.flag R.dpStatReplay = false)) ∧
    (∃ (s : State), (s.panel.row = none) ∧ (s.panel.firstAt = none)) ∧
    (∃ (s : State) (y : Nat) (t0 : Nat) (f : PanelFlight), (s.panel.railsAt = some t0) ∧ (s.panel.flight = [f])
     ∧ (s.panel.queue = []) ∧ (f.rect.h = 1) ∧ (f.rect.y = y) ∧ (f.done = []) ∧ (panelMay s = true) ∧ (s.panel.row = none)) ∧
    (∃ (s : State), (s.flag R.dpStatRails = true) ∧ (s.panel.flight = []) ∧ (s.panel.queue = [])) ∧
    (∃ (s : State) (t0 : Nat) (c : Int), (s.gateOn 16 = true) ∧ (s.panel.readAt = some t0) ∧ (s.flag R.dpStatTfault = false)
     ∧ (-550 ≤ c) ∧ (c ≤ 1250)) ∧
    (∃ (s : State) (c : Int), (s.gateOn 16 = true) ∧ (s.panel.readAt = none) ∧ (s.flag R.dpStatTfault = false) ∧ (1250 < c)) ∧
    (∃ (s : State) (c : Int), (s.gateOn 16 = true) ∧ (s.flag R.dpStatTfault = true) ∧ (s.panel.valid = 9) ∧ (-550 ≤ c)
     ∧ (c ≤ 1250)) ∧
    (∃ (s : State), (s.gateOn 16 = true) ∧ (s.flag R.dpStatTfault = true)) ∧
    (∃ (s : State), (s.gateOn 16 = true) ∧ (s.flag R.dpStatTfault = false)) ∧
    (∃ (s : State) (v : Nat) (f : PanelFlight), (s.gateOn 16 = true) ∧ (s.flag R.dpCtrlEn = false)
     ∧ (s.panel.geometry = (s.get R.dpGeomCols, s.get R.dpGeomRows)) ∧ ((∀ j, j < 4 → journalOk s j = true))
     ∧ (s.panel.journal = [{ rect := f.rect, active := true, rowsDone := v }, {}, {}, {}]) ∧ (s.panel.flight = [])) ∧
    (∃ (s : State), (s.gateOn 16 = true) ∧ (s.flag R.dpCtrlEn = false)
     ∧ (s.panel.geometry ≠ (s.get R.dpGeomCols, s.get R.dpGeomRows))) ∧
    (∃ (s : State), (s.gateOn 16 = true) ∧ (s.flag R.dpCtrlEn = true)) ∧
    (∃ (s : State), (s.flag R.dpStatRails = true) ∧ (s.flag R.dpStatRailf = false)) ∧
    (∃ (s : State) (v : Nat) (f : PanelFlight), (s.gateOn 16 = true) ∧ (s.flag R.dpStatRailf = true) ∧ (s.flag R.dpCtrlEn = true)
     ∧ ((∀ j, j < 4 → journalOk s j = true)) ∧ (s.panel.journal = [{ rect := f.rect, active := true, rowsDone := v }, {}, {}, {}])
     ∧ (s.panel.flight = [])) ∧
    (∃ (s : State), (s.gateOn 16 = true) ∧ (s.flag R.dpStatRailf = false)) ∧
    (∃ (s : State) (e : Nat × Nat) (fifo : List (Nat × Nat)), (s.panel.fifo = e :: fifo)) ∧
    (∃ (s : State), (s.panel.fifo = [])) ∧
    (∃ (s : State) (v : Nat), (Serves s) ∧ (16 ≤ v) ∧ (v ≤ 240) ∧ (s.flag R.dpCtrlEn = false)) ∧
    (∃ (s : State) (v : Nat), (Serves s) ∧ (v < 16 ∨ 240 < v) ∧ (v < 256)) ∧
    (∃ (s : State) (v : Nat), (Serves s) ∧ (16 ≤ v) ∧ (v ≤ 240) ∧ (s.flag R.dpCtrlEn = true)) ∧
    (∃ (s : State) (v : Nat), (Serves s) ∧ (16 ≤ v) ∧ (v ≤ 320) ∧ (v % 8 = 0) ∧ (s.flag R.dpCtrlEn = false)) ∧
    (∃ (s : State) (v : Nat), (Serves s) ∧ (v < 16 ∨ 320 < v ∨ v % 8 ≠ 0) ∧ (v < 65536)) ∧
    (∃ (s : State) (v : Nat), (Serves s) ∧ (v ≤ 3) ∧ (s.flag R.dpCtrlEn = false)) ∧
    (∃ (s : State) (v : Nat), (Serves s) ∧ (3 < v) ∧ (v < 256)) ∧
    (∃ (s : State) (v : Nat), (Serves s) ∧ (v ≤ 3) ∧ (s.flag R.dpCtrlEn = true)) ∧
    (∃ (s : State) (k : Nat), (s.gateOn 16 = true) ∧ (s.flag R.dpCtrlEn = false)
     ∧ (s.panel.geometry = (s.get R.dpGeomCols, s.get R.dpGeomRows)) ∧ (k < 4) ∧ (journalOk s k = false) ∧ (s.ev.intake = [])) ∧
    (∃ (s : State), (s.gateOn 16 = true)) ∧
    (∃ (s : State), (s.gateOn 16 = false) ∧ (s.serving = true)) ∧
    (∃ (s : State) (t0 : Nat), (s.panel.railsAt = some t0) ∧ (s.panel.flight = [])) ∧
    (∃ (s : State), (s.panel.railsAt = none)) ∧
    (∃ (s : State), (s.flag R.dpStatRails = false ∨ s.panel.flight ≠ [] ∨ s.panel.queue ≠ [])) ∧
    (∃ (s : State), (s.flag R.dpStatRails = false ∨ s.flag R.dpStatRailf = true)) :=
  ⟨⟨({ ((((State.reset.set ⟨R.ckGrun, 16, 1⟩ 1).set R.dpCtrlEn 1).set R.dpSizeW 4).set R.dpSizeH 1).set R.dpStrideStride 1 |>.set R.dpPsizePmode 0 with panel := { State.reset.panel with row := some (0, 0) } } : State), (9 : Nat), by decide +kernel⟩,
   ⟨({ ((((State.reset.set ⟨R.ckGrun, 16, 1⟩ 1).set R.dpCtrlEn 1).set R.dpSizeW 4).set R.dpSizeH 1).set R.dpStrideStride 1 |>.set R.dpPsizePmode 0 with panel := { State.reset.panel with row := some (0, 0), queue := [⟨⟨0, 0, 4, 1⟩, 0, 1, 0⟩] } } : State), (9 : Nat), (⟨⟨0, 0, 4, 1⟩, 0, 1, 0⟩ : PanelReq), by decide +kernel⟩,
   ⟨({ (State.reset.set ⟨R.ckGrun, 16, 1⟩ 1).set R.dpCtrlEn 0 with panel := { State.reset.panel with row := some (0, 0) } } : State), (9 : Nat), by decide +kernel⟩,
   ⟨((((State.reset.set R.dpCtrlEn 1).set R.dpSizeW 4).set R.dpSizeH 1).set R.dpStrideStride 1 |>.set R.dpPsizePmode 0 |>.set ⟨R.ckGrun, 16, 1⟩ 1 : State), (9 : Nat), (0 : Nat), by decide +kernel⟩,
   ⟨({ State.reset with panel := { State.reset.panel with flight := [⟨⟨0, 5, 4, 1⟩, some 9, [], 3, false, 1⟩], row := some (5, 9) } } : State), (9 : Nat), (5 : Nat), (9 : Nat), (3 : Nat), (⟨⟨0, 5, 4, 1⟩, some 9, [], 3, false, 1⟩ : PanelFlight), by decide +kernel⟩,
   ⟨(State.reset : State), by decide +kernel⟩,
   ⟨({ (State.reset.set R.dpCtrlEn 1).set ⟨R.ckGrun, 16, 1⟩ 1 with panel := { State.reset.panel with flight := [⟨⟨0, 5, 4, 1⟩, some 9, [], 3, false, 1⟩], railsAt := some 9 } } : State), (5 : Nat), (9 : Nat), (⟨⟨0, 5, 4, 1⟩, some 9, [], 3, false, 1⟩ : PanelFlight), by decide +kernel⟩,
   ⟨(State.reset.set R.dpStatRails 1 : State), by decide +kernel⟩,
   ⟨({ State.reset.set ⟨R.ckGrun, 16, 1⟩ 1 with panel := { State.reset.panel with readAt := some 9 } } : State), (9 : Nat),
     (200 : Int), by decide +kernel⟩,
   ⟨(State.reset.set ⟨R.ckGrun, 16, 1⟩ 1 : State), (1251 : Int), by decide +kernel⟩,
   ⟨({ (State.reset.set ⟨R.ckGrun, 16, 1⟩ 1).set R.dpStatTfault 1 with panel := { State.reset.panel with valid := 9 } } : State),
     (200 : Int), by decide +kernel⟩,
   ⟨((State.reset.set ⟨R.ckGrun, 16, 1⟩ 1).set R.dpStatTfault 1 : State), by decide +kernel⟩,
   ⟨(State.reset.set ⟨R.ckGrun, 16, 1⟩ 1 : State), by decide +kernel⟩,
   ⟨({ State.reset.set ⟨R.ckGrun, 16, 1⟩ 1 with panel := { State.reset.panel with geometry := (State.reset.get R.dpGeomCols, State.reset.get R.dpGeomRows), journal := [{ rect := ⟨0, 0, 4, 1⟩, active := true, rowsDone := 240 }, {}, {}, {}] } } : State), (240 : Nat), (⟨⟨0, 0, 4, 1⟩, none, [], 0, false, 1⟩ : PanelFlight), by decide +kernel⟩,
   ⟨({ State.reset.set ⟨R.ckGrun, 16, 1⟩ 1 with panel := { State.reset.panel with geometry := (9, 9) } } : State),
     by decide +kernel⟩,
   ⟨((State.reset.set ⟨R.ckGrun, 16, 1⟩ 1).set R.dpCtrlEn 1 : State), by decide +kernel⟩,
   ⟨(State.reset.set R.dpStatRails 1 : State), by decide +kernel⟩,
   ⟨({ ((State.reset.set ⟨R.ckGrun, 16, 1⟩ 1).set R.dpCtrlEn 1).set R.dpStatRailf 1 with panel := { State.reset.panel with journal := [{ rect := ⟨0, 0, 4, 1⟩, active := true, rowsDone := 240 }, {}, {}, {}] } } : State), (240 : Nat), (⟨⟨0, 0, 4, 1⟩, none, [], 0, false, 1⟩ : PanelFlight), by decide +kernel⟩,
   ⟨(State.reset.set ⟨R.ckGrun, 16, 1⟩ 1 : State), by decide +kernel⟩,
   ⟨({ State.reset with panel := { State.reset.panel with fifo := [(3, 1)] } } : State), ((3, 1) : Nat × Nat),
     ([] : List (Nat × Nat)), by decide +kernel⟩,
   ⟨(State.reset : State), by decide +kernel⟩,
   ⟨(State.reset : State), (240 : Nat), by unfold Serves; decide +kernel⟩,
   ⟨(State.reset : State), (241 : Nat), by unfold Serves; decide +kernel⟩,
   ⟨(State.reset.set R.dpCtrlEn 1 : State), (240 : Nat), by unfold Serves; decide +kernel⟩,
   ⟨(State.reset : State), (320 : Nat), by unfold Serves; decide +kernel⟩,
   ⟨(State.reset : State), (324 : Nat), by unfold Serves; decide +kernel⟩,
   ⟨(State.reset : State), (3 : Nat), by unfold Serves; decide +kernel⟩,
   ⟨(State.reset : State), (255 : Nat), by unfold Serves; decide +kernel⟩,
   ⟨(State.reset.set R.dpCtrlEn 1 : State), (3 : Nat), by unfold Serves; decide +kernel⟩,
   ⟨({ State.reset.set ⟨R.ckGrun, 16, 1⟩ 1 with panel := { State.reset.panel with geometry := (State.reset.get R.dpGeomCols, State.reset.get R.dpGeomRows) }, hw := { State.reset.hw with ember := [(0x19004C + 48, false)] } } : State), (3 : Nat), by decide +kernel⟩,
   ⟨(State.reset.set ⟨R.ckGrun, 16, 1⟩ 1 : State), by decide +kernel⟩,
   ⟨(State.reset.set ⟨R.ckGrun, 16, 1⟩ 0 : State), by decide +kernel⟩,
   ⟨({ State.reset with panel := { State.reset.panel with railsAt := some 9 } } : State), (9 : Nat), by decide +kernel⟩,
   ⟨(State.reset : State), by decide +kernel⟩,
   ⟨(State.reset : State), by decide +kernel⟩,
   ⟨(State.reset : State), by decide +kernel⟩⟩

/-- Each clause of SecurityActsAreGuarded with hypotheses: a state and operands that meet them. -/
theorem witness_SecurityActsAreGuarded :
    (∃ (s : State), (dictServes s = true)) ∧
    (∃ (s : State) (l : List Byte), (Serves s) ∧ (s.dict.subs = []) ∧ (s.ps.due = 0) ∧ (s.ps.shut = none) ∧ (l.length = 144)) ∧
    (∃ (s : State) (n : Nat), (Serves s) ∧ (s.dict.subs = []) ∧ (s.ps.due = 0) ∧ (s.ps.shut = none) ∧ ((s.lifeCycle = 3
     ∧ n = 2) ∨ (s.lifeCycle = 1 ∧ n = 4)) ∧ (awaitsConfirmation s = false)) ∧
    (∃ (s : State) (n : Nat), (Serves s) ∧ ((s.lifeCycle = 3 ∧ n = 2) ∨ (s.lifeCycle = 1 ∧ n = 4))
     ∧ (awaitsConfirmation s = true)) ∧
    (∃ (s : State) (n : Nat), (Serves s) ∧ (s.dict.subs = []) ∧ (s.ps.due = 0) ∧ (s.ps.shut = none) ∧ (n = 2
     ∧ s.lifeCycle ≠ 3 ∨ n = 4 ∧ s.lifeCycle ≠ 1)) ∧
    (∃ (s : State) (n : Nat), (Serves s) ∧ (n < 10000000000)) ∧
    (∃ (s : State) (n : Nat), (dictServes s = true) ∧ (s.lifeCycle = 0) ∧ (n < 10000000000)) ∧
    (∃ (s : State) (l : List Byte) (k : Nat), (Serves s) ∧ (s.lifeCycle = 1) ∧ (l.length = 33) ∧ (natAt l 0 1 = k) ∧ (k < 4)
     ∧ (s.sec.otp.hashes.getD k [] = [])) ∧
    (∃ (s : State) (l : List Byte) (k : Nat), (Serves s) ∧ (l.length = 33) ∧ (natAt l 0 1 = k) ∧ (k < 4)
     ∧ (s.lifeCycle ≠ 1 ∨ s.sec.otp.hashes.getD k [] ≠ [])) ∧
    (∃ (s : State) (l : List Byte) (k : Nat), (Serves s) ∧ (s.lifeCycle = 1) ∧ (l.length = 33) ∧ (natAt l 0 1 = k) ∧ (k < 4)
     ∧ (s.sec.otp.keys.getD k [] = [])) ∧
    (∃ (s : State) (l : List Byte) (k : Nat), (Serves s) ∧ (l.length = 33) ∧ (natAt l 0 1 = k) ∧ (k < 4)
     ∧ (s.lifeCycle ≠ 1 ∨ s.sec.otp.keys.getD k [] ≠ [])) ∧
    (∃ (s : State), (Serves s) ∧ (s.dict.subs = []) ∧ (s.ps.due = 0) ∧ (s.ps.shut = none) ∧ (s.get ⟨R.secDbg, 0, 3⟩ ≠ 0)) ∧
    (∃ (s : State) (t0 : Nat), (s.sec.debugTill = some t0) ∧ (s.get ⟨R.secDbg, 0, 3⟩ ≠ 0)) ∧
    (∃ (s : State) (reg : Nat), (s.get ⟨R.secDbg, 0, 3⟩ ≠ 0) ∧ (reg < 65536)) ∧
    (∃ (s : State), (s.get ⟨R.secDbg, 0, 3⟩ = 0)) ∧
    (∃ (s : State), (s.lifeCycle ≠ 0)) ∧
    (∃ (s : State) (l : List Byte), (Serves s) ∧ (l.length = 144)) ∧
    (∃ (s : State) (n : Nat), (Serves s) ∧ (n = 2 ∨ n = 4)) ∧
    (∃ (s : State) (n : Nat), (Serves s) ∧ (n ≠ 2) ∧ (n ≠ 4) ∧ (n < 256)) ∧
    (∃ (s : State) (l : List Byte), (Serves s) ∧ (s.lifeCycle = 1) ∧ (l.length = 33) ∧ (4 ≤ natAt l 0 1)) ∧
    (∃ (s : State), (Serves s)) ∧
    (∃ (s : State) (t0 : Nat), (s.sec.debugTill = some t0)) ∧
    (∃ (s : State), (s.sec.debugTill = none)) :=
  ⟨⟨(State.reset : State), by decide +kernel⟩,
   ⟨(State.reset : State), (List.replicate 144 0 : List Byte), by unfold Serves; decide +kernel⟩,
   ⟨(State.reset : State), (4 : Nat), by unfold Serves; decide +kernel⟩,
   ⟨(State.reset.set (R.upTstatConf 1) 1 : State), (4 : Nat), by unfold Serves; decide +kernel⟩,
   ⟨(State.reset : State), (2 : Nat), by unfold Serves; decide +kernel⟩,
   ⟨(State.reset : State), (4 : Nat), by unfold Serves; decide +kernel⟩,
   ⟨({ State.reset.set R.secLcState 0 with ps := { State.reset.ps with mode := 8 } } : State), (4 : Nat), by decide +kernel⟩,
   ⟨(State.reset : State), (List.replicate 33 0 : List Byte), (0 : Nat), by unfold Serves; decide +kernel⟩,
   ⟨(State.reset.set R.secLcState 2 : State), (List.replicate 33 0 : List Byte), (0 : Nat), by unfold Serves; decide +kernel⟩,
   ⟨(State.reset : State), (List.replicate 33 0 : List Byte), (0 : Nat), by unfold Serves; decide +kernel⟩,
   ⟨(State.reset.set R.secLcState 2 : State), (List.replicate 33 0 : List Byte), (0 : Nat), by unfold Serves; decide +kernel⟩,
   ⟨(State.reset.set ⟨R.secDbg, 0, 3⟩ 7 : State), by unfold Serves; decide +kernel⟩,
   ⟨({ State.reset.set ⟨R.secDbg, 0, 3⟩ 7 with sec := { State.reset.sec with debugTill := some 9 } } : State), (9 : Nat),
     by decide +kernel⟩,
   ⟨(State.reset.set ⟨R.secDbg, 0, 3⟩ 7 : State), (65535 : Nat), by decide +kernel⟩,
   ⟨(State.reset : State), by decide +kernel⟩,
   ⟨(State.reset : State), by decide +kernel⟩,
   ⟨(State.reset : State), (List.replicate 144 0 : List Byte), by unfold Serves; decide +kernel⟩,
   ⟨(State.reset : State), (4 : Nat), by unfold Serves; decide +kernel⟩,
   ⟨(State.reset : State), (255 : Nat), by unfold Serves; decide +kernel⟩,
   ⟨(State.reset : State), (List.replicate 33 4 : List Byte), by unfold Serves; decide +kernel⟩,
   ⟨(State.reset : State), by unfold Serves; decide +kernel⟩,
   ⟨({ State.reset with sec := { State.reset.sec with debugTill := some 9 } } : State), (9 : Nat), by decide +kernel⟩,
   ⟨(State.reset : State), by decide +kernel⟩⟩

/-- Each clause of ImagesAreTakenAndActivated with hypotheses: a state and operands that meet them. -/
theorem witness_ImagesAreTakenAndActivated :
    (∃ (s : State) (ty : Nat) (session : Nat) (l : List Byte) (data : List Byte), (1 ≤ ty) ∧ (ty ≤ 3) ∧ (l = leBytes 4 session
     ++ leBytes 1 ty ++ [0] ++ leBytes 2 data.length ++ leBytes 8 0 ++ data) ∧ (session < 4294967296) ∧ (s.serving = true)
     ∧ (s.lifeCycle ≠ 4) ∧ ((s.img ty).runs = false) ∧ (1 ≤ data.length) ∧ (data.length < 256) ∧ (s.upd.types.length = 3)
     ∧ (s.fab.links = [])) ∧
    (∃ (s : State) (ty : Nat) (session : Nat) (offset : Nat) (l : List Byte) (data : List Byte), (1 ≤ ty) ∧ (ty ≤ 3)
     ∧ (l = leBytes 4 session ++ leBytes 1 ty ++ [0] ++ leBytes 2 data.length ++ leBytes 8 offset ++ data)
     ∧ (session < 4294967296) ∧ (s.serving = true) ∧ (s.lifeCycle ≠ 4) ∧ ((s.img ty).runs = true)
     ∧ ((s.img ty).session = some (session, 1)) ∧ (imgState s ty = 1) ∧ (offset = (s.img ty).bytes.length) ∧ (1 ≤ data.length)
     ∧ (offset + data.length < 256) ∧ (s.upd.types.length = 3)) ∧
    (∃ (s : State) (ty : Nat) (session : Nat) (offset : Nat) (l : List Byte) (data : List Byte), (1 ≤ ty) ∧ (ty ≤ 3)
     ∧ (l = leBytes 4 session ++ leBytes 1 ty ++ [0] ++ leBytes 2 data.length ++ leBytes 8 offset ++ data)
     ∧ (session < 4294967296) ∧ (s.serving = true) ∧ (s.lifeCycle ≠ 4) ∧ ((s.img ty).runs = true)
     ∧ ((s.img ty).bytes.length < offset) ∧ (offset < 18446744073709551616) ∧ (1 ≤ data.length) ∧ (data.length ≤ 1440)) ∧
    (∃ (s : State) (ty : Nat) (session : Nat) (l : List Byte) (data : List Byte), (1 ≤ ty) ∧ (ty ≤ 3) ∧ (l = leBytes 4 session
     ++ leBytes 1 ty ++ [0] ++ leBytes 2 data.length ++ leBytes 8 0 ++ data) ∧ (session < 4294967296) ∧ (s.serving = true)
     ∧ (s.lifeCycle ≠ 4) ∧ ((s.img ty).runs = true) ∧ ((s.img ty).session ≠ some (session, 1)) ∧ (1 ≤ data.length)
     ∧ (data.length ≤ 1440)) ∧
    (∃ (s : State) (ty : Nat) (session : Nat) (l : List Byte) (data : List Byte), (1 ≤ ty) ∧ (ty ≤ 3) ∧ (l = leBytes 4 session
     ++ leBytes 1 ty ++ [0] ++ leBytes 2 data.length ++ leBytes 8 0 ++ data) ∧ (session < 4294967296) ∧ (s.serving = true)
     ∧ (s.lifeCycle ≠ 4) ∧ ((s.img ty).runs = false) ∧ (256 ≤ data.length) ∧ (data.length ≤ 1440) ∧ (natAt data 0 4 ≠ 0x4D495A4B)
     ∧ (s.upd.types.length = 3)) ∧
    (∃ (s : State) (ty : Nat), (1 ≤ ty) ∧ (ty ≤ 3) ∧ (Serves s) ∧ (s.dict.subs = []) ∧ (s.ps.due = 0) ∧ (s.ps.shut = none)
     ∧ (imgState s ty = 1 ∨ imgState s ty = 2) ∧ (s.flag R.upStatRelay = false) ∧ (s.upd.types.length = 3)) ∧
    (∃ (s : State) (ty : Nat), (1 ≤ ty) ∧ (ty ≤ 3) ∧ (Serves s) ∧ (imgState s ty = 0 ∨ imgState s ty = 3)) ∧
    (∃ (s : State) (ty : Nat), (1 ≤ ty) ∧ (ty ≤ 3) ∧ (Serves s) ∧ (s.dict.subs = []) ∧ (s.ps.due = 0) ∧ (s.ps.shut = none)
     ∧ (s.activeHearth = true) ∧ (imgState s 3 = 2) ∧ (s.flag R.upStatRelay = false)) ∧
    (∃ (s : State) (ty : Nat), (1 ≤ ty) ∧ (ty ≤ 3) ∧ (Serves s) ∧ (s.activeHearth = false ∨ imgState s ty ≠ 2)) ∧
    (∃ (s : State) (ty : Nat), (1 ≤ ty) ∧ (ty ≤ 3) ∧ (Serves s) ∧ (s.activeHearth = true) ∧ (imgState s ty = 2)
     ∧ (s.flag R.upStatRelay = true)) ∧
    (∃ (s : State) (ty : Nat) (p : Nat) (e0 : Nat), (1 ≤ ty) ∧ (ty ≤ 3) ∧ (s.gateOn 9 = true)
     ∧ ((downAt s ty p).resumeAt = some e0)) ∧
    (∃ (s : State) (ty : Nat) (x : RelayNode), (1 ≤ ty) ∧ (ty ≤ 3) ∧ (s.serving = true) ∧ (s.activeHearth = true)
     ∧ (s.flag R.upStatRelay = true) ∧ (s.get R.upStatPhase = 2) ∧ (s.upd.nodes = [x]) ∧ (x.state = 4)) ∧
    (∃ (s : State) (ty : Nat) (x : RelayNode), (1 ≤ ty) ∧ (ty ≤ 3) ∧ (s.serving = true) ∧ (s.activeHearth = true)
     ∧ (s.flag R.upStatRelay = true) ∧ (s.get R.upStatPhase = 2) ∧ (s.upd.nodes = [x]) ∧ (x.state = 1) ∧ (s.upd.waits = none)
     ∧ (s.flag R.upStatPermit = true) ∧ (x.id ≠ s.ownId)) ∧
    (∃ (s : State) (ty : Nat) (x : RelayNode), (1 ≤ ty) ∧ (ty ≤ 3) ∧ (s.serving = true) ∧ (s.activeHearth = true)
     ∧ (s.flag R.upStatRelay = true) ∧ (s.get R.upStatPhase = 2) ∧ (s.upd.nodes = [x]) ∧ (x.state = 2 ∨ x.state = 5)
     ∧ (s.upd.waits = none)) ∧
    (∃ (s : State) (ty : Nat) (w : Nat × Nat), (1 ≤ ty) ∧ (ty ≤ 3) ∧ (s.serving = true) ∧ (s.upd.waits = some w)) ∧
    (∃ (s : State) (ty : Nat), (1 ≤ ty) ∧ (ty ≤ 3) ∧ (Serves s) ∧ (s.dict.subs = []) ∧ (s.ps.due = 0) ∧ (s.ps.shut = none)
     ∧ (imgState s ty = 2) ∧ ((linkedVersions s).find? (fun e => decide (ty ≠ 3) && protoFault (s.img ty).bytes e.2) = none)
     ∧ (s.upd.types.length = 3)) ∧
    (∃ (s : State) (ty : Nat) (id : Nat) (pv : Nat), (1 ≤ ty) ∧ (ty ≤ 3) ∧ (Serves s) ∧ (imgState s ty = 2)
     ∧ ((linkedVersions s).find? (fun e => decide (ty ≠ 3) && protoFault (s.img ty).bytes e.2) = some (id, pv))) ∧
    (∃ (s : State) (ty : Nat), (1 ≤ ty) ∧ (ty ≤ 3) ∧ (Serves s) ∧ (imgState s ty ≠ 2)) ∧
    (∃ (s : State) (ty : Nat), (1 ≤ ty) ∧ (ty ≤ 3) ∧ (Serves s) ∧ (s.dict.subs = []) ∧ (s.ps.due = 0) ∧ (s.ps.shut = none)
     ∧ (imgConf s ty = 1) ∧ (inWindow s ty = true) ∧ (s.upd.types.length = 3)) ∧
    (∃ (s : State) (ty : Nat), (1 ≤ ty) ∧ (ty ≤ 3) ∧ (Serves s) ∧ (imgConf s ty ≠ 1 ∨ inWindow s ty = false)) ∧
    (∃ (s : State) (ty : Nat) (e0 : Nat), (1 ≤ ty) ∧ (ty ≤ 3) ∧ ((s.img ty).confEnd = some e0) ∧ (imgConf s ty = 1)
     ∧ (s.ev.opStop = false) ∧ (s.upd.types.length = 3)) ∧
    (∃ (s : State) (ty : Nat), (1 ≤ ty) ∧ (ty ≤ 3) ∧ (Serves s) ∧ (s.dict.subs = []) ∧ (s.ps.due = 0) ∧ (s.ps.shut = none)
     ∧ (ty ≠ 1) ∧ (inWindow s ty = true) ∧ (imgConf s ty = 1 ∨ imgConf s ty = 2) ∧ (s.upd.types.length = 3) ∧ (s.sram.failed = [])
     ∧ (thermalLatched s = false) ∧ (activeOk s 2 = true)) ∧
    (∃ (s : State) (ty : Nat), (1 ≤ ty) ∧ (ty ≤ 3) ∧ (Serves s) ∧ (inWindow s ty = false)) ∧
    (∃ (s : State) (ty : Nat), (1 ≤ ty) ∧ (ty ≤ 3) ∧ (s.serving = true)) ∧
    (∃ (s : State) (ty : Nat) (l : List Byte), (1 ≤ ty) ∧ (ty ≤ 3) ∧ (Serves s) ∧ (17 ≤ l.length) ∧ (l.length ≤ 1440)) ∧
    (∃ (s : State) (ty : Nat), (1 ≤ ty) ∧ (ty ≤ 3) ∧ (Serves s)) ∧
    (∃ (s : State) (ty : Nat), (1 ≤ ty) ∧ (ty ≤ 3) ∧ (s.serving = true) ∧ (s.activeHearth = true) ∧ (s.flag R.upStatRelay = true)) ∧
    (∃ (s : State) (ty : Nat) (n : Nat), (1 ≤ ty) ∧ (ty ≤ 3) ∧ (Serves s) ∧ (n = 0 ∨ 3 < n) ∧ (n < 256)) :=
  ⟨⟨(State.reset : State), (3 : Nat), (5 : Nat), (frag (5) (3) 0 ([1]) : List Byte), ([1] : List Byte), by decide +kernel⟩,
   ⟨(setImgState { State.reset with upd := { State.reset.upd with types := [{}, {}, { runs := true, session := some (5, 1) }] } } 3 1 : State), (3 : Nat), (5 : Nat), (0 : Nat), (frag (5) (3) (0) ([1]) : List Byte), ([1] : List Byte), by decide +kernel⟩,
   ⟨({ State.reset with upd := { State.reset.upd with types := [{}, {}, { runs := true, session := some (5, 1) }] } } : State),
     (3 : Nat), (5 : Nat), (3 : Nat), (frag (5) (3) (3) ([1]) : List Byte), ([1] : List Byte), by decide +kernel⟩,
   ⟨({ State.reset with upd := { State.reset.upd with types := [{}, {}, { runs := true }] } } : State), (3 : Nat), (5 : Nat),
     (frag (5) (3) 0 ([1]) : List Byte), ([1] : List Byte), by decide +kernel⟩,
   ⟨(State.reset : State), (3 : Nat), (5 : Nat), (frag (5) (3) 0 (List.replicate 256 0) : List Byte),
     (List.replicate 256 0 : List Byte), by decide +kernel⟩,
   ⟨(setImgState State.reset 3 2 : State), (3 : Nat), by unfold Serves; decide +kernel⟩,
   ⟨(setImgState State.reset 3 3 : State), (3 : Nat), by unfold Serves; decide +kernel⟩,
   ⟨({ (setImgState State.reset 3 2).set R.fbStatTwin 0 with roleInEffect := 1 } : State), (3 : Nat),
     by unfold Serves; decide +kernel⟩,
   ⟨(State.reset : State), (3 : Nat), by unfold Serves; decide +kernel⟩,
   ⟨({ ((setImgState State.reset 3 2).set R.fbStatTwin 0).set R.upStatRelay 1 with roleInEffect := 1 } : State), (3 : Nat),
     by unfold Serves; decide +kernel⟩,
   ⟨({ State.reset.set ⟨R.ckGrun, 9, 1⟩ 1 with upd := { State.reset.upd with down := [(3, [(5, { resumeAt := some 9 })])] } } : State), (3 : Nat), (5 : Nat), (9 : Nat), by decide +kernel⟩,
   ⟨({ ((State.reset.set R.fbStatTwin 0).set R.upStatRelay 1).set R.upStatPhase 2 with roleInEffect := 1, upd := { State.reset.upd with nodes := [{ state := 4 }] } } : State), (3 : Nat), ({ state := 4 } : RelayNode), by decide +kernel⟩,
   ⟨({ (((State.reset.set R.fbStatTwin 0).set R.upStatRelay 1).set R.upStatPhase 2).set R.upStatPermit 1 with roleInEffect := 1, upd := { State.reset.upd with nodes := [{ id := 16, state := 1 }] } } : State), (3 : Nat), ({ id := 16, state := 1 } : RelayNode), by decide +kernel⟩,
   ⟨({ ((State.reset.set R.fbStatTwin 0).set R.upStatRelay 1).set R.upStatPhase 2 with roleInEffect := 1, upd := { State.reset.upd with nodes := [{ state := 2 }] } } : State), (3 : Nat), ({ state := 2 } : RelayNode), by decide +kernel⟩,
   ⟨({ State.reset with upd := { State.reset.upd with waits := some (3, 9) } } : State), (3 : Nat), ((3, 9) : Nat × Nat),
     by decide +kernel⟩,
   ⟨(setImgState State.reset 3 2 : State), (3 : Nat), by unfold Serves; decide +kernel⟩,
   ⟨({ ((setImgState State.reset 2 2).set (R.fbPctrlEn 5) 1).set (R.fbPstatLink 5) 1 with roleInEffect := 1 } : State), (2 : Nat),
     (0 : Nat), (3 : Nat), by unfold Serves; decide +kernel⟩,
   ⟨(State.reset : State), (3 : Nat), by unfold Serves; decide +kernel⟩,
   ⟨(({ State.reset with upd := { State.reset.upd with types := [{}, {}, { confEnd := some 9 }] } }).set (imgField 3 4 2) 1 : State), (3 : Nat), by unfold Serves; decide +kernel⟩,
   ⟨(State.reset : State), (3 : Nat), by unfold Serves; decide +kernel⟩,
   ⟨(({ State.reset with upd := { State.reset.upd with types := [{}, {}, { confEnd := some 9 }] } }).set (imgField 3 4 2) 1 : State), (3 : Nat), (9 : Nat), by decide +kernel⟩,
   ⟨(({ State.reset with upd := { State.reset.upd with types := [{}, {}, { confEnd := some 9 }] } }).set (imgField 3 4 2) 1 : State), (3 : Nat), by unfold Serves; decide +kernel⟩,
   ⟨(State.reset : State), (3 : Nat), by unfold Serves; decide +kernel⟩,
   ⟨(State.reset : State), (3 : Nat), by decide +kernel⟩,
   ⟨(State.reset : State), (3 : Nat), (List.replicate 17 0 : List Byte), by unfold Serves; decide +kernel⟩,
   ⟨(State.reset : State), (3 : Nat), by unfold Serves; decide +kernel⟩,
   ⟨({ (State.reset.set R.fbStatTwin 0).set R.upStatRelay 1 with roleInEffect := 1 } : State), (3 : Nat), by decide +kernel⟩,
   ⟨(State.reset : State), (3 : Nat), (255 : Nat), by unfold Serves; decide +kernel⟩⟩

end Sys2Proof.Tests
end

/-! What State.reset holds, and what a plain write leaves in each bit of a register. -/
namespace Sys2Proof.Machine

/-- A table made of the numbers of a list gives each of them its own value, and any other number the default. -/
theorem Tbl.get_map_self {α : Type} (l : List Nat) (f : Nat → α) (dflt : α) (k : Nat) :
    Tbl.get (l.map fun d => (d, f d)) dflt k = if k ∈ l then f k else dflt := by
  induction l with
  | nil => simp [Tbl.get]
  | cons e l ih =>
    by_cases h : e = k
    · simp [Tbl.get, h]
    · simp [Tbl.get, h, ih, Ne.symm h]

namespace State

@[simp] theorem reset_rd (a : Nat) : State.reset.rd a = regReset a := rfl

@[simp] theorem reset_obj (index sub : Nat) : State.reset.obj index sub = objDefault index sub := rfl

@[simp] theorem reset_mem_read (a : Nat) : State.reset.mem.read a = 0 := rfl

/-- SEC_LC.STATE resets to 1, PROVISIONED: the module as delivered (log entry 4). -/
theorem reset_lifeCycle : State.reset.lifeCycle = 1 := by decide +kernel

/-- Each of the five dies starts with the reports of a reset of its logic supply (R90, R112). -/
theorem reset_dieAt_reports (d : Nat) (h : d < 5) : (State.reset.dieAt d).reports = dieResetReports d := by
  have hd : State.reset.dieAt d = if d ∈ List.range 5 then { reports := dieResetReports d } else {} :=
    Tbl.get_map_self (List.range 5) (fun d => ({ reports := dieResetReports d } : Die)) {} d
  rw [hd, if_pos (List.mem_range.2 h)]

theorem reset_otp_hashes (k : Nat) : State.reset.sec.otp.hashes.getD k [] = [] :=
  List.getD_eq_getElem?_getD.trans (List.getElem?_getD_replicate_default_eq [] 4 k)

theorem reset_otp_keys (k : Nat) : State.reset.sec.otp.keys.getD k [] = [] :=
  List.getD_eq_getElem?_getD.trans (List.getElem?_getD_replicate_default_eq [] 4 k)

end State

/-- Settles O3: the tables of State.reset list nothing but the dies, so that every other entry reads as its default. -/
theorem firstState : Obligations.FirstState :=
  ⟨State.reset_rd, State.reset_obj, State.reset_mem_read, State.reset_lifeCycle, rfl, rfl, rfl, rfl,
    State.reset_dieAt_reports, fun k => ⟨State.reset_otp_hashes k, State.reset_otp_keys k⟩⟩

/-! The register map: the fields of a register share no bit -/

/-- The fields of a register fit its word and stand in rising order with no bit in common. -/
abbrev FieldsApart (l : List FieldDef) : Prop :=
  (∀ f ∈ l, f.lsb + f.width ≤ 32) ∧ l.Pairwise fun f g => f.lsb + f.width ≤ g.lsb

/-- So it is in each of the twenty register blocks (Table 15-2): one finite check of the map for each. -/
theorem blockRegs_fieldsApart (addr : Nat) : ∀ d ∈ blockRegs addr, FieldsApart d.fields := by
  unfold blockRegs
  split <;> decide +kernel

theorem mem_of_regAtIn {l : List RegDef} {a i j : Nat} {d : RegDef} (h : regAtIn l a = some (d, i, j)) : d ∈ l := by
  induction l with
  | nil => simp [regAtIn] at h
  | cons e l ih =>
    cases he : e.instanceAt a with
    | some p =>
      have hd : e = d := by simp_all [regAtIn]
      exact hd ▸ List.mem_cons_self
    | none => exact List.mem_cons_of_mem _ (ih (by simpa [regAtIn, he] using h))

theorem regAt_fieldsApart {a i j : Nat} {d : RegDef} (h : regAt a = some (d, i, j)) : FieldsApart d.fields :=
  blockRegs_fieldsApart a d (mem_of_regAtIn h)

/-! Bits and fields of a word -/

/-- Bit k of a word is one of the field's bits. -/
abbrev FieldDef.Covers (f : FieldDef) (k : Nat) : Prop := f.lsb ≤ k ∧ k < f.lsb + f.width

theorem fieldOf_testBit (v : Nat) (f : FieldDef) (k : Nat) :
    (fieldOf v f).testBit k = (decide (k < f.width) && v.testBit (f.lsb + k)) := by
  rw [fieldOf, Nat.testBit_mod_two_pow, Nat.testBit_div_two_pow, Nat.add_comm]

/-- A field reads alike in two words whose bits agree where it stands. -/
theorem fieldOf_congr {v w : Nat} {f : FieldDef} (h : ∀ k, f.Covers k → v.testBit k = w.testBit k) :
    fieldOf v f = fieldOf w f := by
  apply Nat.eq_of_testBit_eq
  intro k
  by_cases hk : k < f.width
  · simp [fieldOf_testBit, hk, h (f.lsb + k) ⟨by omega, by omega⟩]
  · simp [fieldOf_testBit, hk]

theorem bit_eq_testBit (v : Word) (k : Nat) : bit v k = v.toNat.testBit k := by
  rw [bit, Nat.testBit_eq_decide_div_mod_eq]; rfl

theorem State.flag_eq_testBit (s : State) (a k : Nat) : s.flag ⟨a, k, 1⟩ = (s.rd a).toNat.testBit k := by
  rw [Nat.testBit_eq_decide_div_mod_eq]; rfl

/-! A plain write, bit by bit -/

/-- What a bit b at place k of a field holds after the word v is written to its register (R5, R6). -/
def FieldDef.bitAfter (f : FieldDef) (v k : Nat) (b : Bool) : Bool :=
  match f.access with
  | .rw => if f.accepts (fieldOf v f) then v.testBit k else b
  | .w1c => b && !v.testBit k
  | .ro => b
  | .wo => b

theorem applyField_lt (v : Nat) {old : Nat} (f : FieldDef) (h : old < 2 ^ 32) : applyField v old f < 2 ^ 32 := by
  unfold applyField
  split
  · split
    · exact BitVec.isLt _
    · exact h
  · exact BitVec.isLt _
  · exact h
  · exact h

/-- A write to one field changes that field's bits alone. -/
theorem applyField_testBit (v : Nat) {old : Nat} {f : FieldDef} (hf : f.lsb + f.width ≤ 32) (ho : old < 2 ^ 32) (k : Nat) :
    (applyField v old f).testBit k = if f.Covers k then f.bitAfter v k (old.testBit k) else old.testBit k := by
  have hinto (x : Nat) : (State.fieldInto old ⟨0, f.lsb, f.width⟩ x).toNat.testBit k =
      if f.Covers k then x.testBit (k - f.lsb) else old.testBit k := State.fieldInto_bit old x _ hf ho k
  have hlt (hk : f.Covers k) : k - f.lsb < f.width := by omega
  have hbit (hk : f.Covers k) (w : Nat) : (fieldOf w f).testBit (k - f.lsb) = w.testBit k := by
    rw [fieldOf_testBit, Nat.add_sub_of_le hk.1, decide_eq_true (hlt hk), Bool.true_and]
  unfold applyField FieldDef.bitAfter
  cases f.access with
  | rw =>
    cases f.accepts (fieldOf v f) with
    | true => exact (hinto _).trans (if_ctx_congr .rfl (hbit · v) fun _ => rfl)
    | false => exact (ite_self _).symm
  | w1c =>
    refine (hinto _).trans (if_ctx_congr .rfl (fun hk => ?_) fun _ => rfl)
    simp only [BitVec.testBit_toNat, BitVec.getLsbD_and, BitVec.getLsbD_not, BitVec.getLsbD_ofNat, hbit hk, hlt hk,
      decide_true, Bool.true_and]
  | ro => exact (ite_self _).symm
  | wo => exact (ite_self _).symm

theorem applyFields_lt (l : List FieldDef) (v : Nat) {old : Nat} (h : old < 2 ^ 32) : applyFields l old v < 2 ^ 32 := by
  induction l generalizing old with
  | nil => exact h
  | cons f l ih => exact ih (applyField_lt v f h)

/-- A bit that stands in no field of the list keeps its value. -/
theorem applyFields_testBit_of_uncovered (l : List FieldDef) (v : Nat) {old k : Nat} (hl : ∀ f ∈ l, f.lsb + f.width ≤ 32)
    (ho : old < 2 ^ 32) (hk : ∀ f ∈ l, ¬ f.Covers k) : (applyFields l old v).testBit k = old.testBit k := by
  induction l generalizing old with
  | nil => rfl
  | cons f l ih =>
    rw [List.forall_mem_cons] at hl hk
    calc (applyFields l (applyField v old f) v).testBit k
        = (applyField v old f).testBit k := ih hl.2 (applyField_lt v f ho) hk.2
      _ = old.testBit k := by rw [applyField_testBit v hl.1 ho, if_neg hk.1]

/-- A bit of a field takes what the write of that field gives it, whatever the other fields take. -/
theorem applyFields_testBit_of_mem {l : List FieldDef} (v : Nat) {old k : Nat} {f : FieldDef} (hl : FieldsApart l)
    (ho : old < 2 ^ 32) (hf : f ∈ l) (hk : f.Covers k) :
    (applyFields l old v).testBit k = f.bitAfter v k (old.testBit k) := by
  induction l generalizing old with
  | nil => cases hf
  | cons g l ih =>
    obtain ⟨hfit, hpair⟩ := hl
    rw [List.forall_mem_cons] at hfit
    rw [List.pairwise_cons] at hpair
    have hg : (applyField v old g).testBit k = _ := applyField_testBit v hfit.1 ho k
    rcases List.mem_cons.1 hf with rfl | hf
    · have hrest : ∀ e ∈ l, ¬ e.Covers k := fun e he => by have := hpair.1 e he; omega
      calc (applyFields l (applyField v old f) v).testBit k
          = (applyField v old f).testBit k := applyFields_testBit_of_uncovered l v hfit.2 (applyField_lt v f ho) hrest
        _ = f.bitAfter v k (old.testBit k) := by rw [hg, if_pos hk]
    · have hout : ¬ g.Covers k := by have := hpair.1 f hf; omega
      calc (applyFields l (applyField v old g) v).testBit k
          = f.bitAfter v k ((applyField v old g).testBit k) := ih ⟨hfit.2, hpair.2⟩ (applyField_lt v g ho) hf
        _ = f.bitAfter v k (old.testBit k) := by rw [hg, if_neg hout]

theorem plainWrite_of_reserved (s : State) {a : Nat} (v : Word) (h : regAt a = none) : plainWrite s a v = s := by
  simp [plainWrite, h]

theorem regReset_of_reserved {a : Nat} (h : regAt a = none) : regReset a = 0 := by simp [regReset, h]

section
variable (s : State) (v : Word) {a i j : Nat} {d : RegDef} {f : FieldDef}
variable (h : regAt a = some (d, i, j)) (hf : f ∈ d.fields)
include h

theorem plainWrite_rd_toNat : ((plainWrite s a v).rd a).toNat = applyFields d.fields (s.rd a).toNat v.toNat := by
  have hlt := applyFields_lt d.fields v.toNat (s.rd a).isLt
  rw [plainWrite, h, State.wr_rd_self, BitVec.toNat_ofNat, Nat.mod_eq_of_lt hlt]

include hf

/-- A bit of a field after a plain write of its register. -/
theorem plainWrite_testBit {k : Nat} (hk : f.Covers k) :
    ((plainWrite s a v).rd a).toNat.testBit k = f.bitAfter v.toNat k ((s.rd a).toNat.testBit k) := by
  rw [plainWrite_rd_toNat s v h, applyFields_testBit_of_mem _ (regAt_fieldsApart h) (s.rd a).isLt hf hk]

/-- A writable field takes its part of the word if that is a legal encoding. -/
theorem plainWrite_get_rw (hacc : f.access = .rw) (hok : f.accepts (fieldOf v.toNat f) = true) :
    (plainWrite s a v).get ⟨a, f.lsb, f.width⟩ = fieldOf v.toNat f :=
  fieldOf_congr fun k hk => by simp [plainWrite_testBit s v h hf hk, FieldDef.bitAfter, hacc, hok]

/-- A field whose bits a write leaves alone reads as before. -/
theorem plainWrite_get_of_bitAfter (hkeep : ∀ k b, f.bitAfter v.toNat k b = b) :
    (plainWrite s a v).get ⟨a, f.lsb, f.width⟩ = s.get ⟨a, f.lsb, f.width⟩ :=
  fieldOf_congr (f := f) fun k hk => by rw [plainWrite_testBit s v h hf hk, hkeep]

/-- A bit written 1 is cleared, and one written 0 stays. -/
theorem plainWrite_flag_w1c (hacc : f.access = .w1c) {k : Nat} (hk : k < f.width) :
    (plainWrite s a v).flag ⟨a, f.lsb + k, 1⟩ = (s.flag ⟨a, f.lsb + k, 1⟩ && !bit v (f.lsb + k)) := by
  have hc : f.Covers (f.lsb + k) := by omega
  simp [State.flag_eq_testBit, bit_eq_testBit, plainWrite_testBit s v h hf hc, FieldDef.bitAfter, hacc]

end

/-- Settles O6: the fields of a register share no bit, so that a plain write acts on each of them by itself. -/
theorem registerFieldsTakeWrites : Obligations.RegisterFieldsTakeWrites := by
  intro s a v
  refine ⟨fun h => ⟨plainWrite_of_reserved s v h, regReset_of_reserved h⟩, fun d i j h f hf => ⟨?_, ?_, ?_, ?_⟩⟩
  · exact plainWrite_get_rw s v h hf
  · exact fun hacc hbad => plainWrite_get_of_bitAfter s v h hf fun k b => by simp [FieldDef.bitAfter, hacc, hbad]
  · exact fun hacc => plainWrite_get_of_bitAfter s v h hf fun k b => by simp [FieldDef.bitAfter, hacc]
  · exact fun hacc k hk => plainWrite_flag_w1c s v h hf hacc hk

end Sys2Proof.Machine

/-! What an engine's store and a write of a DRAM sample ring leave (R21, R358, R376). -/
namespace Sys2Proof.Machine
namespace State

/-- A bus error changes what its log entry changes, and the instant of the last one (R358). -/
theorem busError_only (s : State) (who a : Nat) :
    ∃ r x y z, s.busError who a = { s with regs := r, ev := x, kp := y, procs := z } := by
  unfold busError
  split
  · obtain ⟨r, x, y, h⟩ := log_only { s with procs := { s.procs with busErrAt := some s.now } } 0x0407
      (leBytes 1 who ++ leBytes 4 a)
    exact ⟨r, x, y, _, h⟩
  · exact ⟨_, _, _, _, rfl⟩

@[simp] theorem busError_mem (s : State) (who a : Nat) : (s.busError who a).mem = s.mem := by
  obtain ⟨r, x, y, z, h⟩ := busError_only s who a
  rw [h]

@[simp] theorem setRing_mem (s : State) (k : Nat) (r : Ring) : (s.setRing k r).mem = s.mem := rfl

theorem setRing_ringOf (s : State) (k j : Nat) (r : Ring) : (s.setRing k r).ringOf j = if j = k then r else s.ringOf j :=
  Tbl.get_set s.delivery.rings {} r k j

end State

/-! Lengths -/

@[simp] theorem leBytes_length (n v : Nat) : (leBytes n v).length = n := by
  induction n generalizing v with
  | zero => rfl
  | succ n ih => simp [leBytes, ih]

@[simp] theorem F32.toBytes_length (x : F32) : (F32.toBytes x).length = 4 := rfl

@[simp] theorem bytesAt_length (l : List Byte) (o n : Nat) : (bytesAt l o n).length = n := by
  simp only [bytesAt, List.length_append, List.length_take, List.length_drop, List.length_replicate]
  omega

/-! The stores of an engine -/

/-- An access that meets no stop runs to its end. -/
theorem goodRun_of_clear {stop : Nat → Bool} {n : Nat} : ∀ {a : Nat}, (∀ i, i < n → stop (a + i) = false) →
    goodRun stop a n = n := by
  induction n with
  | zero => exact fun _ => rfl
  | succ n ih =>
    intro a h
    have hrest : goodRun stop (a + 1) n = n := ih fun i hi => by
      simpa only [Nat.add_assoc, Nat.add_comm 1] using h (i + 1) (Nat.succ_lt_succ hi)
    simp [goodRun, show stop a = false from h 0 n.succ_pos, hrest]

/-- A store writes the bytes before the first one of a failed SRAM macro. -/
theorem busStore_mem (s : State) (engine a : Nat) (l : List Byte) :
    (busStore s engine a l).2.mem = s.mem.writeBytes a (l.take (goodRun (deadByte s) a l.length)) := by
  simp only [busStore, engineError]
  split
  · rfl
  · rw [State.busError_mem]; rfl

/-- A store outside failed SRAM macros writes all its bytes. -/
theorem busStore_mem_of_clear (s : State) (engine : Nat) {a : Nat} {l : List Byte}
    (h : ∀ i, i < l.length → deadByte s (a + i) = false) : (busStore s engine a l).2.mem = s.mem.writeBytes a l := by
  rw [busStore_mem, goodRun_of_clear h, List.take_length]

/-- A store leaves the bytes outside its range. -/
theorem busStore_read_out (s : State) (engine : Nat) {a b : Nat} {l : List Byte} (h : b < a ∨ a + l.length ≤ b) :
    (busStore s engine a l).2.mem.read b = s.mem.read b := by
  rw [busStore_mem]
  refine Memory.read_writeBytes_out _ _ _ _ (h.imp_right fun hb => le_trans ?_ hb)
  exact Nat.add_le_add_left (List.length_take_le' _ _) a

/-! DRAM sample rings (R21) -/

/-- The bytes of one entry of a ring: 16 in value mode and 128 in record mode. -/
def Ring.entrySize (r : Ring) : Nat := if r.mode = 0 then 16 else 128

/-- Where the next entry of a ring is written. -/
def Ring.entryAt (r : Ring) : Nat := r.base + r.entrySize * (r.seq % r.depth)

theorem ringEntry_length (r : Ring) (stream : Nat) (ts : Time) (v : F32) (rec : List Byte) :
    (ringEntry r stream ts v rec).length = r.entrySize := by
  simp only [ringEntry, Ring.entrySize]
  split <;> simp

/-- The next entry ends within the ring. -/
theorem Ring.entryAt_add_le (r : Ring) (h : r.depth ≠ 0) : r.entryAt + r.entrySize ≤ r.base + r.entrySize * r.depth := by
  have hlt : r.seq % r.depth < r.depth := Nat.mod_lt _ (Nat.pos_of_ne_zero h)
  calc r.entryAt + r.entrySize = r.base + r.entrySize * (r.seq % r.depth + 1) := by rw [entryAt, Nat.mul_succ, Nat.add_assoc]
    _ ≤ r.base + r.entrySize * r.depth := Nat.add_le_add_left (Nat.mul_le_mul_left _ hlt) _

section
variable (s : State) (k stream : Nat) (ts : Time) (v : F32) (rec : List Byte)

/-- A ring without base or depth takes nothing. -/
theorem ringWrite_of_unconfigured (h : (s.ringOf k).base = 0 ∨ (s.ringOf k).depth = 0) :
    ringWrite s k stream ts v rec = s := if_pos h

variable (hb : (s.ringOf k).base ≠ 0) (hd : (s.ringOf k).depth ≠ 0)
include hb hd

/-- A configured ring stores the entry at its place and advances SEQ. -/
theorem ringWrite_of_configured : ringWrite s k stream ts v rec =
    (busStore s 6 (s.ringOf k).entryAt (ringEntry (s.ringOf k) stream ts v rec)).2.setRing k
      { s.ringOf k with seq := ((s.ringOf k).seq + 1) % 2 ^ 32 } := if_neg (by simp [hb, hd])

theorem ringWrite_seq : ((ringWrite s k stream ts v rec).ringOf k).seq = ((s.ringOf k).seq + 1) % 2 ^ 32 := by
  rw [ringWrite_of_configured s k stream ts v rec hb hd, State.setRing_ringOf, if_pos rfl]

/-- The entry stands in memory as it was written, unless it lies in a failed SRAM macro. -/
theorem ringWrite_readBytes (h : ∀ i, i < (s.ringOf k).entrySize → deadByte s ((s.ringOf k).entryAt + i) = false) :
    (ringWrite s k stream ts v rec).mem.readBytes (s.ringOf k).entryAt (s.ringOf k).entrySize =
      ringEntry (s.ringOf k) stream ts v rec := by
  have hlen := ringEntry_length (s.ringOf k) stream ts v rec
  rw [ringWrite_of_configured s k stream ts v rec hb hd, State.setRing_mem,
    busStore_mem_of_clear s 6 (by rwa [hlen]), ← hlen, Memory.readBytes_writeBytes]

theorem ringWrite_read_out {a : Nat}
    (h : a < (s.ringOf k).entryAt ∨ (s.ringOf k).entryAt + (s.ringOf k).entrySize ≤ a) :
    (ringWrite s k stream ts v rec).mem.read a = s.mem.read a := by
  rw [ringWrite_of_configured s k stream ts v rec hb hd, State.setRing_mem]
  exact busStore_read_out s 6 (by rwa [ringEntry_length])

end

/-- A write of one of the 256 rings stays within the rings. -/
theorem ringWrite_sameOutsideRings (s : State) {k : Nat} (stream : Nat) (ts : Time) (v : F32) (rec : List Byte)
    (hk : k < 256) : SameOutsideRings s (ringWrite s k stream ts v rec) := by
  intro a ha
  by_cases hc : (s.ringOf k).base = 0 ∨ (s.ringOf k).depth = 0
  · rw [ringWrite_of_unconfigured s k stream ts v rec hc]
  · obtain ⟨hb, hd⟩ := not_or.1 hc
    refine ringWrite_read_out s k stream ts v rec hb hd ?_
    by_contra hin
    have hbase : (s.ringOf k).base ≤ (s.ringOf k).entryAt := Nat.le_add_right _ _
    have hend := (s.ringOf k).entryAt_add_le hd
    exact ha ⟨k, hk, hb, by omega, lt_of_lt_of_le (by omega) hend⟩

/-! The routes of a stream (R14, R19) -/

section
variable (s : State) {c : TrellisCopy} {stream : Nat} (ts : Time) (v : F32) (fault : Bool)
  (he : c.enable = 1) (hp : c.producer = stream)
include he hp

/-- A scalar sample reaches the bound consumer of its route scaled, with its instant and the maximum age of the route. -/
theorem deliverBy_of_bound (hb : bound s c.consumer = true) : deliverBy s c stream ts v fault [] =
    deliverTo s c.consumer stream ⟨F32.add (F32.mul c.gain v) c.offset, ts, fault, [], c.maxAge⟩ := by
  simp [deliverBy, he, hp, hb, routed]

/-- A sample whose consumer is no longer bound is discarded and counted. -/
theorem deliverBy_of_unbound (rec : List Byte) (hb : bound s c.consumer = false) : deliverBy s c stream ts v fault rec =
    { s with delivery := { s.delivery with discarded := s.delivery.discarded + 1 } } := by
  simp [deliverBy, he, hp, hb]

end

/-- Settles O28: the routes by the cases of `deliverBy`, the rings by what a store of one entry writes and leaves. -/
theorem ringsTakeSamples : Obligations.RingsTakeSamples := by
  intro s c stream k ts v a
  refine ⟨fun he hp => deliverBy_of_bound s ts v false he hp, fun he hp => deliverBy_of_unbound s ts v false he hp [], ?_,
    ringWrite_sameOutsideRings s stream ts v []⟩
  intro hb hd hm hclear
  have hsize : (s.ringOf k).entrySize = 16 := if_pos hm
  have hat : (s.ringOf k).entryAt = (s.ringOf k).base + 16 * ((s.ringOf k).seq % (s.ringOf k).depth) := by
    rw [Ring.entryAt, hsize]
  have hentry : ringEntry (s.ringOf k) stream ts v [] = leBytes 4 (s.ringOf k).seq ++ F32.toBytes v ++ leBytes 8 ts :=
    if_pos hm
  rw [← hat] at hclear ⊢
  rw [← hsize, ← hentry]
  exact ⟨ringWrite_readBytes s k stream ts v [] hb hd (by rwa [hsize]), ringWrite_seq s k stream ts v [] hb hd,
    ringWrite_read_out s k stream ts v [] hb hd⟩

end Sys2Proof.Machine

/-! Folds of updates, tables set twice, and what a report or an event leaves of the registers of the solenoid drive. -/
namespace Sys2Proof.Machine

theorem Tbl.erase_of_not_mem {α : Type} {t : Tbl α} {k : Nat} (h : ∀ e ∈ t, e.1 ≠ k) : Tbl.erase t k = t := by
  induction t with
  | nil => rfl
  | cons e t ih =>
    rw [List.forall_mem_cons] at h
    rw [erase, if_neg h.1, ih h.2]

theorem Tbl.erase_insert {α : Type} {t : Tbl α} {k : Nat} (v : α) (h : ∀ e ∈ t, e.1 ≠ k) :
    Tbl.erase (Tbl.insert t k v) k = t := by
  induction t with
  | nil => simp [insert, erase]
  | cons e t ih =>
    by_cases hlt : k < e.1
    · rw [insert, if_pos hlt, erase, if_pos rfl, erase_of_not_mem h]
    · rw [List.forall_mem_cons] at h
      rw [insert, if_neg hlt, erase, if_neg h.1, ih h.2]

/-- Of two values set one after the other the later one stands. -/
theorem Tbl.set_set {α : Type} [DecidableEq α] (t : Tbl α) (d v w : α) (k : Nat) :
    Tbl.set (Tbl.set t d k v) d k w = Tbl.set t d k w := by
  have herase : Tbl.erase (Tbl.set t d k v) k = Tbl.erase t k := by
    unfold Tbl.set
    split
    · exact Tbl.erase_of_not_mem (Tbl.not_mem_erase t k)
    · exact Tbl.erase_insert v (Tbl.not_mem_erase t k)
  conv_lhs => rw [Tbl.set, herase]
  rfl

namespace State

@[simp] theorem setSdC_setSdC (s : State) (n : Nat) (x y : SdChan) : (s.setSdC n x).setSdC n y = s.setSdC n y := by
  simp [setSdC, Tbl.set_set]

@[simp] theorem setSdC_sdC_self (s : State) (n : Nat) (x : SdChan) : (s.setSdC n x).sdC n = x := by simp [setSdC_sdC]
@[simp] theorem setSdB_sdB_self (s : State) (b : Nat) (x : SdBank) : (s.setSdB b x).sdB b = x := by simp [setSdB_sdB]

@[simp] theorem tell_sdC (s : State) (d : Nat) (l : List Report) (n : Nat) : (s.tell d l).sdC n = s.sdC n := rfl
@[simp] theorem tell_sdB (s : State) (d : Nat) (l : List Report) (b : Nat) : (s.tell d l).sdB b = s.sdB b := rfl

/-- A report waits behind those that no status frame has taken yet (R84). -/
@[simp] theorem tell_reports (s : State) (d : Nat) (l : List Report) :
    ((s.tell d l).dieAt d).reports = (s.dieAt d).reports ++ l := by simp [tell, setDie_dieAt]

theorem passTo_now (s : State) (t : Nat) : (s.passTo t).now = max s.now t := by
  unfold passTo elapse
  split
  · split <;> simp <;> omega
  · omega

/-- What every update of a fold leaves, the fold leaves. -/
theorem foldl_keeps {α β : Type} (p : State → β) {f : State → α → State} (l : List α) (s : State)
    (h : ∀ x ∈ l, ∀ u, p (f u x) = p u) : p (l.foldl f s) = p s := by
  induction l generalizing s with
  | nil => rfl
  | cons x l ih =>
    rw [List.forall_mem_cons] at h
    exact (ih (f s x) h.2).trans (h.1 s)

theorem clearAll_keeps {β : Type} (p : State → β) (s : State) (l : List Nat) (h : ∀ a ∈ l, ∀ u, p (u.wr a 0) = p u) :
    p (s.clearAll l) = p s := foldl_keeps p l s h

/-- A doorbell changes registers of the interrupt controller alone. -/
theorem ring_rd_ne (s : State) {n a : Nat} (hn : n < 1024) (ha : a / 65536 ≠ 0x2001) : (s.ring n).rd a = s.rd a := by
  unfold ring
  split
  · exact wr_rd_ne _ _ _ _ (by unfold R.icCoalesced; omega)
  · exact set_rd_ne _ _ _ _ (by simp only [bitAt, R.icPend]; omega)

/-- Logging changes registers of the event recorder and the interrupt controller alone. -/
theorem log_rd_ne (s : State) (code : Nat) (data : List Byte) {a : Nat} (hic : a / 65536 ≠ 0x2001)
    (hev : a / 65536 ≠ 0x200C) : (s.log code data).rd a = s.rd a := by
  have hlost : ∀ u : State, (((u.count R.evDropped).set R.evStatLost 1).fire 537).rd a = u.rd a := fun u => by
    have hplace : irqPlace 537 = some (R.evIrqStat, R.evIrqEn, 1) := rfl
    have hset : ∀ f : Fld, f.addr / 65536 = 0x200C → ∀ u : State, (u.set f 1).rd a = u.rd a :=
      fun f hf u => set_rd_ne u f 1 a (by rintro rfl; exact hev hf)
    have hcount : (u.count R.evDropped).rd a = u.rd a := wr_rd_ne _ _ _ _ (by rintro rfl; exact hev rfl)
    simp only [fire, hplace]
    split
    · rw [ring_rd_ne _ (by omega) hic, hset _ rfl, hset _ rfl, hcount]
    · rw [hset _ rfl, hset _ rfl, hcount]
  unfold log intake
  split
  · split
    · rfl
    · split
      · exact hlost _
      · exact hlost _
  · rfl

end State
end Sys2Proof.Machine

/-! What the channels of a solenoid bank may change by themselves (03_solenoid_drive.md R60 to R84). -/
namespace Sys2Proof.Machine
open State

/-- The address of a status register of a channel of bank b: SD_CSTAT to SD_CWDRNS. -/
def SdStatusReg (b a : Nat) : Prop := ∃ n, n / 4 = b ∧ R.sdCctrl n + 0x30 ≤ a ∧ a < R.sdCctrl n + 0x50

/-- What a channel operation of bank b may change is the status registers of the bank's channels, the arbiter's fields of
SD_BSTAT, the queue, the records of channels and the reports that wait at the dies. -/
structure ChannelStep (b : Nat) (s t : State) : Prop where
  mem : t.mem = s.mem
  now : t.now = s.now
  rd : ∀ a, a ≠ R.sdBstat b → ¬ SdStatusReg b a → t.rd a = s.rd a
  bstat : ∀ l w, l + w ≤ 5 ∨ 11 ≤ l → t.get ⟨R.sdBstat b, l, w⟩ = s.get ⟨R.sdBstat b, l, w⟩
  bank : ∀ k, { t.sdB k with queue := [] } = { s.sdB k with queue := [] }

namespace ChannelStep

theorem refl (b : Nat) (s : State) : ChannelStep b s s := ⟨rfl, rfl, fun _ _ _ => rfl, fun _ _ _ => rfl, fun _ => rfl⟩

section
variable {b : Nat} {s t u : State}

theorem trans (h : ChannelStep b s t) (k : ChannelStep b t u) : ChannelStep b s u where
  mem := k.mem.trans h.mem
  now := k.now.trans h.now
  rd a ha hs := (k.rd a ha hs).trans (h.rd a ha hs)
  bstat l w hl := (k.bstat l w hl).trans (h.bstat l w hl)
  bank i := (k.bank i).trans (h.bank i)

/-- A fold of channel operations is one. -/
theorem foldl {α : Type} {f : State → α → State} {l : List α} (s : State)
    (h : ∀ x ∈ l, ∀ u, ChannelStep b u (f u x)) : ChannelStep b s (l.foldl f s) := by
  induction l generalizing s with
  | nil => exact refl b s
  | cons x l ih =>
    rw [List.forall_mem_cons] at h
    exact (h.1 s).trans (ih (f s x) h.2)

theorem ite {p : Prop} [Decidable p] (h : ChannelStep b s t) (k : ChannelStep b s u) :
    ChannelStep b s (if p then t else u) := by
  split
  · exact h
  · exact k

/-! What it leaves -/

/-- A control register of any channel lies at no status register. -/
theorem not_statusReg_cctrl (b n : Nat) {o : Nat} (ho : o < 0x30) : ¬ SdStatusReg b (R.sdCctrl n + o) := by
  rintro ⟨m, -, hlo, hhi⟩
  simp only [R.sdCctrl] at hlo hhi
  omega

/-- Nor does a register below those of the channels. -/
theorem not_statusReg_low (b : Nat) {a : Nat} (ha : a < 0x20031030) : ¬ SdStatusReg b a := by
  rintro ⟨m, -, hlo, -⟩
  simp only [R.sdCctrl] at hlo
  omega

variable (h : ChannelStep b s t)
include h

theorem get_cctrl (n l w : Nat) : t.get ⟨R.sdCctrl n, l, w⟩ = s.get ⟨R.sdCctrl n, l, w⟩ := by
  have hne : R.sdCctrl n ≠ R.sdBstat b := by simp only [R.sdCctrl, R.sdBstat]; omega
  simp only [State.get, h.rd _ hne (not_statusReg_cctrl b n (o := 0) (by omega))]

theorem sdOn (n : Nat) : t.sdOn n = s.sdOn n := by simp only [State.sdOn, State.flag, h.get_cctrl]

theorem sdMode (n : Nat) : t.sdMode n = s.sdMode n := h.get_cctrl n 1 2

theorem oddHalf (n : Nat) : oddHalf t n = oddHalf s n := by
  simp only [Machine.oddHalf, State.flag, h.get_cctrl]

theorem get_bctrl (k l w : Nat) (hk : k < 12) : t.get ⟨R.sdBctrl k, l, w⟩ = s.get ⟨R.sdBctrl k, l, w⟩ := by
  have hne : R.sdBctrl k ≠ R.sdBstat b := by simp only [R.sdBctrl, R.sdBstat]; omega
  simp only [State.get, h.rd _ hne (not_statusReg_low b (by simp only [R.sdBctrl]; omega))]

theorem sdArmed {k : Nat} (hk : k < 12) : t.sdArmed k = s.sdArmed k := by
  simp only [State.sdArmed, State.flag, h.get_bctrl k 0 1 hk]

theorem flag_bstat {l : Nat} (hl : l < 5) : t.flag ⟨R.sdBstat b, l, 1⟩ = s.flag ⟨R.sdBstat b, l, 1⟩ := by
  simp only [State.flag, h.bstat l 1 (.inl hl)]

theorem clamp (k : Nat) : (t.sdB k).clamp = (s.sdB k).clamp := by
  have hbank := congrArg SdBank.clamp (h.bank k)
  exact hbank

theorem bucket (k : Nat) : (t.sdB k).bucket = (s.sdB k).bucket := by
  have hbank := congrArg SdBank.bucket (h.bank k)
  exact hbank

end

/-! The elementary updates -/
section
variable (s : State) {b a : Nat}

theorem wr (h : SdStatusReg b a) (v : Word) : ChannelStep b s (s.wr a v) := by
  have hne : a ≠ R.sdBstat b := by
    rintro rfl
    obtain ⟨n, hn, hlo, -⟩ := h
    simp only [R.sdCctrl, R.sdBstat] at hlo
    omega
  have hrd : ∀ c, c ≠ a → (s.wr a v).rd c = s.rd c := fun c => wr_rd_ne s a c v
  refine ⟨rfl, rfl, fun c _ hs => hrd c (by rintro rfl; exact hs h), fun l w _ => ?_, fun _ => rfl⟩
  rw [State.get, State.get, hrd _ hne.symm]

theorem set {f : Fld} (h : SdStatusReg b f.addr) (v : Nat) : ChannelStep b s (s.set f v) := wr s h _

/-- GRANTED, GRANT and QLEN of SD_BSTAT are the arbiter's. -/
theorem setArbiter {l w : Nat} (hl : 5 ≤ l) (hw : l + w ≤ 11) (v : Nat) :
    ChannelStep b s (s.set ⟨R.sdBstat b, l, w⟩ v) where
  mem := rfl
  now := rfl
  rd c hc _ := set_rd_ne s _ v c hc
  bstat i j hi := set_get_ne s _ _ v (show l + w ≤ 32 by omega) (.inr (by
    rcases hi with hi | hi
    · exact .inl (hi.trans hl)
    · exact .inr (hw.trans hi)))
  bank _ := rfl

theorem setSdC (n : Nat) (x : SdChan) : ChannelStep b s (s.setSdC n x) :=
  ⟨rfl, rfl, fun _ _ _ => rfl, fun _ _ _ => rfl, fun _ => rfl⟩

theorem tell (d : Nat) (l : List Report) : ChannelStep b s (s.tell d l) :=
  ⟨rfl, rfl, fun _ _ _ => rfl, fun _ _ _ => rfl, fun _ => rfl⟩

theorem setSdQueue (l : List Nat) : ChannelStep b s (s.setSdQueue b l) := by
  have hqueue : ChannelStep b s (s.setSdB b { s.sdB b with queue := l }) :=
    ⟨rfl, rfl, fun _ _ _ => rfl, fun _ _ _ => rfl, fun k => by
      by_cases hk : k = b
      · simp [hk]
      · simp [setSdB_sdB, hk]⟩
  exact hqueue.trans (setArbiter _ (by omega) (by omega) _)

end

/-! The operations of a channel -/
section
variable (s : State) (n : Nat)

theorem statusReg (n : Nat) {o : Nat} (h : 0x30 ≤ o ∧ o < 0x50) : SdStatusReg (n / 4) (R.sdCctrl n + o) :=
  ⟨n, rfl, Nat.add_le_add_left h.1 _, Nat.add_lt_add_left h.2 _⟩

theorem cstat (l w v : Nat) : ChannelStep (n / 4) s (s.set ⟨R.sdCstat n, l, w⟩ v) :=
  set s ⟨n, rfl, by simp only [R.sdCctrl, R.sdCstat]; omega⟩ v

theorem setSdPhase (p : Nat) : ChannelStep (n / 4) s (s.setSdPhase n p) := cstat s n 0 3 p

theorem cdiag (l w v : Nat) : ChannelStep (n / 4) s (s.set ⟨R.sdCdiag n, l, w⟩ v) :=
  set s ⟨n, rfl, by simp only [R.sdCctrl, R.sdCdiag]; omega⟩ v

theorem sdMirror : ChannelStep (n / 4) s (sdMirror s n) := by
  have hbank : (n / 2 * 2 + 1) / 4 = n / 4 := by omega
  have hoffset : ∀ o ∈ [0x30, 0x34, 0x38, 0x3C, 0x40, 0x44, 0x48, 0x4C], 0x30 ≤ o ∧ o < 0x50 := by decide
  unfold Machine.sdMirror
  exact ite (foldl s fun o ho u => wr u (hbank ▸ statusReg _ (hoffset o ho)) _) (refl _ s)

theorem grantRelease : ChannelStep (n / 4) s (grantRelease s n) :=
  ite (setArbiter s (by omega) (by omega) 0) (refl _ s)

theorem pullinRequest : ChannelStep (n / 4) s (pullinRequest s n) :=
  ite (refl _ s) (((setSdC s n _).trans (setSdQueue _ _)).trans (setSdPhase _ n 1))

theorem pullinWithdraw : ChannelStep (n / 4) s (pullinWithdraw s n) :=
  ((setSdQueue s _).trans (setSdPhase _ n 0)).trans (tell _ _ _)

theorem sdTurnOff : ChannelStep (n / 4) s (sdTurnOff s n) := by
  refine (cstat s n 4 1 0).trans ?_
  unfold Machine.sdTurnOff
  dsimp only
  split
  · exact pullinWithdraw _ n
  · exact (grantRelease _ n).trans (setSdPhase _ n 6)
  · exact (grantRelease _ n).trans (setSdPhase _ n 6)
  · exact setSdPhase _ n 6
  · exact refl _ _

theorem sdOnInterval (stop : Nat) : ChannelStep (n / 4) s (sdOnInterval s n stop) :=
  ((setSdC s n _).trans (cstat _ n 4 1 1)).trans (pullinRequest _ n)

theorem sdStart : ChannelStep (n / 4) s (sdStart s n) := by
  unfold Machine.sdStart
  refine ite (refl _ s) ?_
  split
  · exact pullinRequest s n
  · exact ite (pullinRequest s n) (setSdPhase s n 4)
  · exact ite (sdOnInterval s n _) (refl _ s)
  · exact refl _ s

theorem sdEdge (before : Bool) : ChannelStep (n / 4) s (sdEdge s n before) :=
  ite (refl _ s) (ite (ite (sdStart s n) (refl _ s)) (ite (sdTurnOff s n) (refl _ s)))

theorem sdErr (e : Nat) : ChannelStep (n / 4) s (sdErr s n e) := (cstat s n 8 4 e).trans (sdMirror _ n)

theorem sdFclr : ChannelStep (n / 4) s (sdFclr s n) :=
  (((cdiag s n 4 1 0).trans (cdiag _ n 5 1 0)).trans (ite (setSdPhase _ n 0) (refl _ _))).trans (tell _ _ _)

theorem clearCounters : ChannelStep (n / 4) s (s.clearAll (sdCounters n)) := by
  refine foldl s fun a ha u => wr u ⟨n, rfl, ?_⟩ 0
  simp only [sdCounters, List.mem_cons, List.not_mem_nil, or_false] at ha
  rcases ha with rfl | rfl | rfl | rfl <;> simp only [R.sdCctrl, R.sdCpullins, R.sdClates, R.sdCtpkerr, R.sdCwdrns] <;>
    omega

end
end ChannelStep
end Sys2Proof.Machine

/-! The registers and records of one solenoid channel after each of its operations (03_solenoid_drive.md R60 to R84). -/
namespace Sys2Proof.Machine
open State

/-! The mirror of a pair (R70) -/
section
variable (s : State) (n : Nat)

@[simp] theorem sdMirror_mem : (sdMirror s n).mem = s.mem := (ChannelStep.sdMirror s n).mem
@[simp] theorem sdMirror_now : (sdMirror s n).now = s.now := (ChannelStep.sdMirror s n).now

@[simp] theorem sdMirror_stage : (sdMirror s n).stage = s.stage := by
  unfold sdMirror
  dsimp only
  split
  · exact foldl_keeps (·.stage) _ s fun _ _ _ => rfl
  · rfl

@[simp] theorem sdMirror_dieAt (d : Nat) : (sdMirror s n).dieAt d = s.dieAt d := by simp [dieAt]
@[simp] theorem sdMirror_sdB (b : Nat) : (sdMirror s n).sdB b = s.sdB b := by simp [sdB]
@[simp] theorem sdMirror_sdC (k : Nat) : (sdMirror s n).sdC k = s.sdC k := by simp [sdC]

variable {s n}

/-- The odd half of a pair shows the even channel's CSTAT, and nothing else changes its phase. -/
theorem sdMirror_sdPhase (k : Nat) :
    (sdMirror s n).sdPhase k = s.sdPhase k ∨ (sdMirror s n).sdPhase k = s.sdPhase (n / 2 * 2) := by
  unfold sdMirror
  dsimp only
  split
  · have hlater : ∀ u : State, ([0x34, 0x38, 0x3C, 0x40, 0x44, 0x48, 0x4C].foldl (fun (t : State) o =>
        t.wr (R.sdCctrl (n / 2 * 2 + 1) + o) (t.rd (R.sdCctrl (n / 2 * 2) + o))) u).sdPhase k = u.sdPhase k := fun u => by
      refine foldl_keeps (·.sdPhase k) _ u fun o ho t => ?_
      have ho' : 0x30 < o ∧ o < 0x50 := by revert o; decide
      simp only [sdPhase, State.get]
      rw [wr_rd_ne _ _ _ _ (by simp only [R.sdCctrl, R.sdCstat]; omega)]
    have hcstat : R.sdCctrl (n / 2 * 2) + 0x30 = R.sdCstat (n / 2 * 2) := by simp only [R.sdCctrl, R.sdCstat]; omega
    rw [List.foldl_cons, hlater]
    simp only [sdPhase, State.get, wr_rd, hcstat]
    split
    · exact .inr rfl
    · exact .inl rfl
  · exact .inl rfl

/-- A channel that is no odd half, and every register before its block's end, reads as before. -/
theorem sdMirror_rd (h : oddHalf s n = false) {a : Nat} (ha : a < R.sdCctrl n + 128) : (sdMirror s n).rd a = s.rd a := by
  unfold sdMirror
  dsimp only
  split
  case isTrue hpair =>
    have heven : n % 2 = 0 := by
      by_contra hodd
      have he : n / 2 * 2 = n - 1 := by omega
      rw [he] at hpair
      have hn : n % 2 = 1 := by omega
      simp [oddHalf, hn, hpair] at h
    refine foldl_keeps (·.rd a) _ s fun o _ u => wr_rd_ne _ _ _ _ ?_
    simp only [R.sdCctrl] at ha ⊢
    omega
  case isFalse => rfl

theorem sdMirror_get (h : oddHalf s n = false) {f : Fld} (hf : f.addr < R.sdCctrl n + 128) :
    (sdMirror s n).get f = s.get f := by simp only [State.get, sdMirror_rd h hf]

theorem sdMirror_flag (h : oddHalf s n = false) {f : Fld} (hf : f.addr < R.sdCctrl n + 128) :
    (sdMirror s n).flag f = s.flag f := by simp only [flag, sdMirror_get h hf]

/-- The phase that a channel without a pair's other half shows. -/
theorem sdMirror_sdPhase_own (h : oddHalf s n = false) : (sdMirror s n).sdPhase n = s.sdPhase n :=
  sdMirror_get h (by simp only [R.sdCctrl, R.sdCstat]; omega)

theorem sdMirror_pwmOn (h : oddHalf s n = false) :
    (sdMirror s n).flag (R.sdCstatPwmOn n) = s.flag (R.sdCstatPwmOn n) :=
  sdMirror_flag h (by simp only [R.sdCctrl, R.sdCstat]; omega)

theorem sdMirror_granted (h : oddHalf s n = false) :
    (sdMirror s n).flag (R.sdBstatGranted (n / 4)) = s.flag (R.sdBstatGranted (n / 4)) :=
  sdMirror_flag h (by simp only [R.sdCctrl, R.sdBstat]; omega)

end

/-! Phases (Table 3-2) -/
section
variable (s : State) (n : Nat)

@[simp] theorem setSdPhase_stage (p : Nat) : (s.setSdPhase n p).stage = s.stage := rfl
@[simp] theorem setSdPhase_mem (p : Nat) : (s.setSdPhase n p).mem = s.mem := rfl
@[simp] theorem setSdPhase_now (p : Nat) : (s.setSdPhase n p).now = s.now := rfl
@[simp] theorem setSdPhase_dieAt (p d : Nat) : (s.setSdPhase n p).dieAt d = s.dieAt d := rfl
@[simp] theorem setSdPhase_sdB (p b : Nat) : (s.setSdPhase n p).sdB b = s.sdB b := rfl
@[simp] theorem setSdPhase_sdC (p k : Nat) : (s.setSdPhase n p).sdC k = s.sdC k := rfl
@[simp] theorem tell_sdPhase (d : Nat) (l : List Report) : (s.tell d l).sdPhase n = s.sdPhase n := rfl
@[simp] theorem setSdB_sdPhase (b : Nat) (x : SdBank) : (s.setSdB b x).sdPhase n = s.sdPhase n := rfl
@[simp] theorem setSdC_sdPhase (k : Nat) (x : SdChan) : (s.setSdC k x).sdPhase n = s.sdPhase n := rfl

theorem setSdPhase_sdPhase {p : Nat} (h : p < 8) : (s.setSdPhase n p).sdPhase n = p :=
  (set_get s _ p (by simp)).trans (Nat.mod_eq_of_lt h)

theorem setSdPhase_rd_ne (p : Nat) {a : Nat} (h : a ≠ R.sdCstat n) : (s.setSdPhase n p).rd a = s.rd a :=
  set_rd_ne _ _ _ _ h

theorem setSdPhase_get_ne (p : Nat) {f : Fld} (h : f.addr ≠ R.sdCstat n) : (s.setSdPhase n p).get f = s.get f := by
  simp only [State.get, setSdPhase_rd_ne s n p h]

@[simp] theorem setSdPhase_pwmOn (p k : Nat) : (s.setSdPhase n p).flag (R.sdCstatPwmOn k) = s.flag (R.sdCstatPwmOn k) :=
  set_flag_ne _ _ _ _ (by simp) (by simp)

theorem get_lt (f : Fld) : s.get f < 2 ^ f.width := Nat.mod_lt _ (Nat.two_pow_pos _)

theorem sdPhase_lt : s.sdPhase n < 8 := get_lt s (R.sdCstatPhase n)

/-- A field of a register other than CSTAT of channel n leaves its phase. -/
theorem set_sdPhase {f : Fld} (v : Nat) (hf : f.lsb + f.width ≤ 32) (h : f.addr ≠ R.sdCstat n ∨ 3 ≤ f.lsb) :
    (s.set f v).sdPhase n = s.sdPhase n :=
  set_get_ne _ _ _ _ hf (h.imp Ne.symm .inl)

end

/-! The arbiter (R74 to R77) -/
section
variable (s : State) (n : Nat)

theorem mem_queueInsert (m : Nat) (l : List Nat) : m ∈ queueInsert s n l ↔ m = n ∨ m ∈ l := by
  induction l with
  | nil => simp [queueInsert]
  | cons k l ih =>
    unfold queueInsert
    split
    · simp
    · simp only [List.mem_cons, ih]
      exact or_left_comm

theorem setSdQueue_queue (b : Nat) (l : List Nat) : ((s.setSdQueue b l).sdB b).queue = l := by simp [setSdQueue]

/-- A new request is queued (R75). -/
theorem pullinRequest_sdPhase (h : n ∉ (s.sdB (n / 4)).queue) : (pullinRequest s n).sdPhase n = 1 := by
  rw [pullinRequest, if_neg (by simpa using h), setSdPhase_sdPhase _ _ (by omega)]

theorem mem_pullinRequest_queue : n ∈ ((pullinRequest s n).sdB (n / 4)).queue := by
  by_cases h : n ∈ (s.sdB (n / 4)).queue
  · rwa [pullinRequest, if_pos (by simpa using h)]
  · rw [pullinRequest, if_neg (by simpa using h), setSdPhase_sdB, setSdQueue_queue, mem_queueInsert]
    exact .inl rfl

/-- A request leaves the rest of SD_CSTAT and of the channel's record. -/
theorem pullinRequest_pwmOn : (pullinRequest s n).flag (R.sdCstatPwmOn n) = s.flag (R.sdCstatPwmOn n) := by
  unfold pullinRequest
  dsimp only
  split
  · rfl
  · rw [setSdPhase_pwmOn, setSdQueue, set_flag_ne _ _ _ _ (by simp) (.inl (by simp only [R.sdCstat, R.sdBstat]; omega))]
    rfl

theorem pullinRequest_cycle : ((pullinRequest s n).sdC n).duty = (s.sdC n).duty ∧
    ((pullinRequest s n).sdC n).onEnd = (s.sdC n).onEnd := by
  unfold pullinRequest
  dsimp only
  split
  · exact ⟨rfl, rfl⟩
  · simp [setSdQueue]

theorem grantRelease_eq : grantRelease s n = s ∨ grantRelease s n = s.set (R.sdBstatGranted (n / 4)) 0 := by
  unfold grantRelease
  split
  · exact .inr rfl
  · exact .inl rfl

/-- A release leaves what does not read GRANTED. -/
theorem grantRelease_keeps {β : Type} (p : State → β) (h : p (s.set (R.sdBstatGranted (n / 4)) 0) = p s) :
    p (grantRelease s n) = p s := by
  rcases grantRelease_eq s n with e | e <;> rw [e]
  exact h

@[simp] theorem grantRelease_stage : (grantRelease s n).stage = s.stage := grantRelease_keeps s n (·.stage) rfl
@[simp] theorem grantRelease_mem : (grantRelease s n).mem = s.mem := grantRelease_keeps s n (·.mem) rfl
@[simp] theorem grantRelease_now : (grantRelease s n).now = s.now := grantRelease_keeps s n (·.now) rfl
@[simp] theorem grantRelease_dieAt (d : Nat) : (grantRelease s n).dieAt d = s.dieAt d :=
  grantRelease_keeps s n (·.dieAt d) rfl

theorem grantRelease_rd_ne {a : Nat} (h : a ≠ R.sdBstat (n / 4)) : (grantRelease s n).rd a = s.rd a :=
  grantRelease_keeps s n (·.rd a) (set_rd_ne _ _ _ _ h)

/-- The channel that holds the grant gives it back (R74). -/
theorem grantRelease_granted (h : s.get (R.sdBstatGrant (n / 4)) = n % 4) :
    (grantRelease s n).flag (R.sdBstatGranted (n / 4)) = false := by
  unfold grantRelease
  split
  case isTrue => exact set_flag _ _ _ (by simp) rfl
  case isFalse hn => exact Bool.eq_false_iff.2 fun hg => hn ⟨hg, h⟩

/-- A withdrawn request is no longer queued (R77). -/
theorem pullinWithdraw_sdPhase : (pullinWithdraw s n).sdPhase n = 0 := by
  rw [pullinWithdraw, tell_sdPhase, setSdPhase_sdPhase _ _ (by omega)]

theorem not_mem_pullinWithdraw_queue : n ∉ ((pullinWithdraw s n).sdB (n / 4)).queue := by
  simp [pullinWithdraw, setSdQueue_queue]

theorem pullinWithdraw_reports : ((pullinWithdraw s n).dieAt (n / 16)).reports = (s.dieAt (n / 16)).reports ++
    [.bits (R.sdCdiag n) 6 1 1, .tally (R.sdCwdrns n), .irq (16 + n / 4)] := by
  rw [pullinWithdraw, tell_reports, setSdPhase_dieAt, setSdQueue, set_dieAt, setSdB_dieAt]

theorem pullinWithdraw_rd_ne {a : Nat} (hb : a ≠ R.sdBstat (n / 4)) (hc : a ≠ R.sdCstat n) :
    (pullinWithdraw s n).rd a = s.rd a := by
  rw [pullinWithdraw, tell_rd, setSdPhase_rd_ne _ _ _ hc, setSdQueue, set_rd_ne _ _ _ _ hb, setSdB_rd]

end

end Sys2Proof.Machine

/-! Channel turn-off and bank turn-off (03_solenoid_drive.md R67, R77). -/
namespace Sys2Proof.Machine
open State

section
variable (s : State) (n : Nat)

theorem clearPwmOn_sdPhase (v : Nat) : (s.set (R.sdCstatPwmOn n) v).sdPhase n = s.sdPhase n :=
  set_sdPhase s n v (by simp) (.inr (by simp))

/-- What a channel turn-off does in each phase, once the PWM on-interval has ended. -/
theorem sdTurnOff_of_queued (h : s.sdPhase n = 1) :
    sdTurnOff s n = pullinWithdraw (s.set (R.sdCstatPwmOn n) 0) n := by
  simp only [sdTurnOff, clearPwmOn_sdPhase, h]

theorem sdTurnOff_of_granted (h : s.sdPhase n = 2 ∨ s.sdPhase n = 3) :
    sdTurnOff s n = (grantRelease (s.set (R.sdCstatPwmOn n) 0) n).setSdPhase n 6 := by
  rcases h with h | h <;> simp only [sdTurnOff, clearPwmOn_sdPhase, h]

theorem sdTurnOff_of_hold (h : s.sdPhase n = 4) : sdTurnOff s n = (s.set (R.sdCstatPwmOn n) 0).setSdPhase n 6 := by
  simp only [sdTurnOff, clearPwmOn_sdPhase, h]

/-- The phases OFF, FAULT and decay, in which the switch is open already (R63). -/
def SdOpen (p : Nat) : Prop := p = 0 ∨ p = 5 ∨ p = 6 ∨ p = 7

theorem sdTurnOff_of_open (h : SdOpen (s.sdPhase n)) : sdTurnOff s n = s.set (R.sdCstatPwmOn n) 0 := by
  rcases h with h | h | h | h <;> simp only [sdTurnOff, clearPwmOn_sdPhase, h]

/-- The cases of a turn-off. -/
theorem sdPhase_cases : s.sdPhase n = 1 ∨ (s.sdPhase n = 2 ∨ s.sdPhase n = 3) ∨ s.sdPhase n = 4 ∨ SdOpen (s.sdPhase n) := by
  have := sdPhase_lt s n
  unfold SdOpen
  omega

/-- A conducting channel decays. -/
theorem sdTurnOff_sdPhase_of_conducting (h : s.sdPhase n = 2 ∨ s.sdPhase n = 3 ∨ s.sdPhase n = 4) :
    (sdTurnOff s n).sdPhase n = 6 := by
  rw [← or_assoc] at h
  rcases h with h | h
  · rw [sdTurnOff_of_granted s n h, setSdPhase_sdPhase _ _ (by omega)]
  · rw [sdTurnOff_of_hold s n h, setSdPhase_sdPhase _ _ (by omega)]

theorem sdTurnOff_open : SdOpen ((sdTurnOff s n).sdPhase n) := by
  rcases sdPhase_cases s n with h | h | h | h
  · exact .inl (by rw [sdTurnOff_of_queued s n h, pullinWithdraw_sdPhase])
  · exact .inr (.inr (.inl (sdTurnOff_sdPhase_of_conducting s n (by omega))))
  · exact .inr (.inr (.inl (sdTurnOff_sdPhase_of_conducting s n (by omega))))
  · rwa [sdTurnOff_of_open s n h, clearPwmOn_sdPhase]

/-- Only the arbiter's register and the channel's own status are written. -/
theorem sdTurnOff_rd_ne {a : Nat} (hb : a ≠ R.sdBstat (n / 4)) (hc : a ≠ R.sdCstat n) :
    (sdTurnOff s n).rd a = s.rd a := by
  have hset : (s.set (R.sdCstatPwmOn n) 0).rd a = s.rd a := set_rd_ne _ _ _ _ hc
  rcases sdPhase_cases s n with h | h | h | h
  · rw [sdTurnOff_of_queued s n h, pullinWithdraw_rd_ne _ n hb hc, hset]
  · rw [sdTurnOff_of_granted s n h, setSdPhase_rd_ne _ _ _ hc, grantRelease_rd_ne _ n hb, hset]
  · rw [sdTurnOff_of_hold s n h, setSdPhase_rd_ne _ _ _ hc, hset]
  · rw [sdTurnOff_of_open s n h, hset]

theorem sdTurnOff_sdPhase_ne {k : Nat} (h : k ≠ n) : (sdTurnOff s n).sdPhase k = s.sdPhase k := by
  simp only [sdPhase, State.get]
  rw [sdTurnOff_rd_ne s n (by simp only [R.sdCstat, R.sdBstat]; omega) (by simp only [R.sdCstat]; omega)]

theorem pullinWithdraw_pwmOn : (pullinWithdraw s n).flag (R.sdCstatPwmOn n) = s.flag (R.sdCstatPwmOn n) := by
  rw [pullinWithdraw, tell_flag, setSdPhase_pwmOn, setSdQueue, set_flag_ne _ _ _ _ (by simp) (.inr (by simp)), setSdB_flag]

theorem grantRelease_pwmOn : (grantRelease s n).flag (R.sdCstatPwmOn n) = s.flag (R.sdCstatPwmOn n) :=
  grantRelease_keeps s n (·.flag (R.sdCstatPwmOn n)) (set_flag_ne _ _ _ _ (by simp) (.inr (by simp)))

/-- A turn-off ends the PWM on-interval. -/
theorem sdTurnOff_pwmOn : (sdTurnOff s n).flag (R.sdCstatPwmOn n) = false := by
  have hset : (s.set (R.sdCstatPwmOn n) 0).flag (R.sdCstatPwmOn n) = false := set_flag _ _ _ (by simp) rfl
  rcases sdPhase_cases s n with h | h | h | h
  · rw [sdTurnOff_of_queued s n h, pullinWithdraw_pwmOn, hset]
  · rw [sdTurnOff_of_granted s n h, setSdPhase_pwmOn, grantRelease_pwmOn, hset]
  · rw [sdTurnOff_of_hold s n h, setSdPhase_pwmOn, hset]
  · rw [sdTurnOff_of_open s n h, hset]

/-- Only a withdrawal is reported. -/
theorem sdTurnOff_stage (h : s.sdPhase n ≠ 1) : (sdTurnOff s n).stage = s.stage := by
  rcases sdPhase_cases s n with h1 | h | h | h
  · exact absurd h1 h
  · rw [sdTurnOff_of_granted s n h, setSdPhase_stage, grantRelease_stage, set_stage]
  · rw [sdTurnOff_of_hold s n h, setSdPhase_stage, set_stage]
  · rw [sdTurnOff_of_open s n h, set_stage]

/-- A channel turns off, and the odd half of a pair shows it (R70). -/
def sdTurnOffShown (s : State) (n : Nat) : State := sdMirror (sdTurnOff s n) n

/-- A channel that is open stays so while another turns off, also as the odd half that mirrors the even channel. -/
theorem sdTurnOffShown_open {k : Nat} (hk : k = n ∨ SdOpen (s.sdPhase k))
    (he : n % 2 = 0 ∨ SdOpen (s.sdPhase (n / 2 * 2))) : SdOpen ((sdTurnOffShown s n).sdPhase k) := by
  have hoff : ∀ m, m = n ∨ SdOpen (s.sdPhase m) → SdOpen ((sdTurnOff s n).sdPhase m) := fun m hm => by
    by_cases hmn : m = n
    · exact hmn ▸ sdTurnOff_open s n
    · rw [sdTurnOff_sdPhase_ne s n hmn]
      exact hm.resolve_left hmn
  unfold sdTurnOffShown
  rcases sdMirror_sdPhase (s := sdTurnOff s n) (n := n) k with h | h <;> rw [h]
  · exact hoff k hk
  · exact hoff _ (he.imp_left (by omega))

end

/-! Bank turn-off -/
section
variable (s : State) (b : Nat)

/-- The channels of a bank that turns off, before its switch opens. -/
def bankChansOff (s : State) (b : Nat) : State := (bankChans b).foldl sdTurnOffShown s

theorem div_four_of_mem_bankChans {b n : Nat} (h : n ∈ bankChans b) : n / 4 = b := by
  simp only [bankChans, List.mem_cons, List.not_mem_nil, or_false] at h
  omega

theorem ChannelStep.bankChansOff : ChannelStep b s (bankChansOff s b) :=
  foldl s fun n hn u => div_four_of_mem_bankChans hn ▸ (sdTurnOff u n).trans (sdMirror _ n)

/-- Every channel ends open: each turns off in turn, the even half of a pair before the odd one. -/
theorem bankChansOff_open : ∀ n ∈ bankChans b, SdOpen ((bankChansOff s b).sdPhase n) := by
  have heven : (4 * b + 1) / 2 * 2 = 4 * b := by omega
  have heven' : (4 * b + 3) / 2 * 2 = 4 * b + 2 := by omega
  have hone : ∀ k, k = 4 * b → SdOpen (sdPhase _ k) := fun k hk =>
    sdTurnOffShown_open s (4 * b) (.inl hk) (.inl (by omega))
  have htwo : ∀ k, k = 4 * b + 1 ∨ k = 4 * b → SdOpen (sdPhase _ k) := fun k hk =>
    sdTurnOffShown_open _ (4 * b + 1) (hk.imp_right (hone k)) (.inr (hone _ heven))
  have hthree : ∀ k, k = 4 * b + 2 ∨ k = 4 * b + 1 ∨ k = 4 * b → SdOpen (sdPhase _ k) := fun k hk =>
    sdTurnOffShown_open _ (4 * b + 2) (hk.imp_right (htwo k)) (.inl (by omega))
  intro n hn
  have hmem : n = 4 * b + 3 ∨ n = 4 * b + 2 ∨ n = 4 * b + 1 ∨ n = 4 * b := by
    simp only [bankChans, List.mem_cons, List.not_mem_nil, or_false] at hn
    omega
  exact sdTurnOffShown_open _ (4 * b + 3) (hmem.imp_right (hthree n)) (.inr (hthree _ (.inl heven')))

/-- A bank turn-off: its channels, then ARM, the bank switch, the grant and the clamp (R67). -/
theorem sdBankOff_eq : ∃ c, sdBankOff s b =
    ((((bankChansOff s b).set (R.sdBctrlArm b) 0).set (R.sdBstatBswOn b) 0).set (R.sdBstatGranted b) 0).setSdB b
      { (bankChansOff s b).sdB b with clamp := c } := by
  unfold sdBankOff bankChansOff
  exact ⟨_, rfl⟩

@[simp] theorem sdBankOff_mem : (sdBankOff s b).mem = s.mem := by
  obtain ⟨c, h⟩ := sdBankOff_eq s b
  rw [h]
  exact (ChannelStep.bankChansOff s b).mem

theorem sdBankOff_bucket : ((sdBankOff s b).sdB b).bucket = (s.sdB b).bucket := by
  obtain ⟨c, h⟩ := sdBankOff_eq s b
  rw [h, setSdB_sdB_self, (ChannelStep.bankChansOff s b).bucket]

theorem bctrl_ne_bstat (b c : Nat) : R.sdBctrl b ≠ R.sdBstat c := by simp only [R.sdBctrl, R.sdBstat]; omega

/-- The registers of the bank after its turn-off. -/
theorem sdBankOff_sdArmed : (sdBankOff s b).sdArmed b = false := by
  obtain ⟨c, h⟩ := sdBankOff_eq s b
  rw [h, sdArmed, setSdB_flag, set_flag_ne _ _ _ _ (by simp) (.inl (bctrl_ne_bstat b b)),
    set_flag_ne _ _ _ _ (by simp) (.inl (bctrl_ne_bstat b b)), set_flag _ _ _ (by simp) rfl]
  rfl

theorem sdBankOff_bswOn : (sdBankOff s b).flag (R.sdBstatBswOn b) = false := by
  obtain ⟨c, h⟩ := sdBankOff_eq s b
  rw [h, setSdB_flag, set_flag_ne _ _ _ _ (by simp) (by simp), set_flag _ _ _ (by simp) rfl]
  rfl

theorem sdBankOff_granted : (sdBankOff s b).flag (R.sdBstatGranted b) = false := by
  obtain ⟨c, h⟩ := sdBankOff_eq s b
  rw [h, setSdB_flag, set_flag _ _ _ (by simp) rfl]
  rfl

/-- LOCK, BSW_OT, DEFER and HOLDING stay. -/
theorem sdBankOff_flag {l : Nat} (h1 : 1 ≤ l) (h5 : l < 5) :
    (sdBankOff s b).flag ⟨R.sdBstat b, l, 1⟩ = s.flag ⟨R.sdBstat b, l, 1⟩ := by
  obtain ⟨c, h⟩ := sdBankOff_eq s b
  rw [h, setSdB_flag, set_flag_ne _ _ _ _ (by simp) (.inr (.inl (by simp only; omega))),
    set_flag_ne _ _ _ _ (by simp) (.inr (.inr (by simp only; omega))),
    set_flag_ne _ _ _ _ (by simp) (.inl (bctrl_ne_bstat b b).symm), (ChannelStep.bankChansOff s b).flag_bstat h5]

theorem sdBankOff_open : ∀ n ∈ bankChans b, SdOpen ((sdBankOff s b).sdPhase n) := by
  intro n hn
  obtain ⟨c, h⟩ := sdBankOff_eq s b
  have hctrl : R.sdBctrl b ≠ R.sdCstat n := by simp only [R.sdBctrl, R.sdCstat]; omega
  have hstat : R.sdBstat b ≠ R.sdCstat n := by simp only [R.sdBstat, R.sdCstat]; omega
  have hphase : (sdBankOff s b).sdPhase n = (bankChansOff s b).sdPhase n := by
    rw [h, setSdB_sdPhase, set_sdPhase _ _ _ (by simp) (.inl hstat), set_sdPhase _ _ _ (by simp) (.inl hstat),
      set_sdPhase _ _ _ (by simp) (.inl hctrl)]
  rw [hphase]
  exact bankChansOff_open s b n hn

/-! Disarming (R67, R80, R89) -/

theorem sdDisarm_of_armed (ha : s.sdArmed b = true) (hd : s.flag (R.sdBstatDefer b) = false) :
    sdDisarm s b = sdBankOff s b := by simp [sdDisarm, ha, hd]

/-- Disarming leaves what a bank turn-off leaves and what is no list of deferred banks. -/
theorem sdDisarm_keeps {β : Type} (p : State → β) (hoff : p (sdBankOff s b) = p s)
    (hdefer : ∀ l, p { s with stage := { s.stage with sdDefer := l } } = p s) : p (sdDisarm s b) = p s := by
  unfold sdDisarm
  split
  · rfl
  · split
    · split
      · rfl
      · exact hdefer _
    · exact hoff

/-- Where no load dump defers it, a disarmed bank is not armed. -/
theorem sdDisarm_sdArmed (hd : s.flag (R.sdBstatDefer b) = false) : (sdDisarm s b).sdArmed b = false := by
  by_cases ha : s.sdArmed b = true
  · rw [sdDisarm_of_armed s b ha hd, sdBankOff_sdArmed]
  · rw [Bool.not_eq_true] at ha
    rw [sdDisarm, if_pos ha, ha]

/-- During a load dump the turn-off of an armed bank waits (R89). -/
theorem sdDisarm_deferred (ha : s.sdArmed b = true) (hd : s.flag (R.sdBstatDefer b) = true) :
    (sdDisarm s b).sdArmed b = true ∧ b ∈ (sdDisarm s b).stage.sdDefer := by
  rw [sdDisarm, if_neg (by simp [ha]), if_pos hd]
  split
  case isTrue hmem => exact ⟨ha, List.contains_iff_mem.1 hmem⟩
  case isFalse => exact ⟨ha, List.mem_append_right _ List.mem_cons_self⟩

end
end Sys2Proof.Machine

/-! Arming, disarming, UNLOCK and DCLR of a solenoid bank (03_solenoid_drive.md R67, R69, R79, R80). -/
namespace Sys2Proof.Machine
open State

/-! What arming does besides closing the switch (R73, R48, R420) -/
section
variable {β : Type} (p : State → β) (s : State)

theorem loopsFromZero_keeps (kind b : Nat) (h : ∀ n < 64, ∀ u, p (u.wr (R.ceLu n) 0) = p u) :
    p (loopsFromZero s kind b) = p s :=
  foldl_keeps p _ s fun n hn => h n (List.mem_range.1 (List.mem_filter.1 hn).1)

theorem thermalEstimate_keeps (hest : ∀ x y, p { s with estP := x, estI := y } = p s)
    (hpwr : ∀ u k c, p (u.pwrBit k c) = p u) (hlog : ∀ u c d, p (u.log c d) = p u) : p (thermalEstimate s) = p s := by
  unfold thermalEstimate
  dsimp only
  rw [foldl_keeps p _ _ fun _ _ u => hlog u _ _]
  split
  · rw [hlog, hpwr, hpwr, hest]
  · rw [hpwr, hpwr, hest]

theorem ChannelStep.sdStagger (b : Nat) : ChannelStep b s (sdStagger s b) :=
  foldl s fun n _ u => ite (setSdC u n _) (refl b u)

end

section
variable (s : State) (b : Nat)

/-- What an armed bank shows: ARM, its switch, a clamp event, and the memory beside it. -/
def bankView (b : Nat) (s : State) : Bool × Bool × Bool × Memory :=
  (s.sdArmed b, s.flag (R.sdBstatBswOn b), (s.sdB b).clamp, s.mem)

theorem ChannelStep.bankView {s t : State} {b : Nat} (h : ChannelStep b s t) (hb : b < 12) : bankView b t = bankView b s := by
  simp only [Machine.bankView, h.sdArmed hb, h.flag_bstat (l := 0) (by omega), h.clamp, h.mem]

/-- The start of the bank's channels at arming: those with ON = 1 (R80). -/
theorem ChannelStep.armStart : ChannelStep b s
    ((bankChans b).foldl (fun t n => if t.sdOn n then Machine.sdMirror (Machine.sdStart t n) n else t) s) :=
  foldl s fun n hn u =>
    ite (div_four_of_mem_bankChans hn ▸ (sdStart u n).trans (sdMirror _ n)) (refl b u)

theorem bankView_loopsFromZero : bankView b (loopsFromZero s 1 b) = bankView b s := by
  refine loopsFromZero_keeps _ s 1 b fun n hn u => ?_
  have hctrl : R.sdBctrl b ≠ R.ceLu n := by simp only [R.sdBctrl, R.ceLu]; omega
  have hstat : R.sdBstat b ≠ R.ceLu n := by simp only [R.sdBstat, R.ceLu]; omega
  simp only [bankView, sdArmed, flag, State.get, wr_rd_ne _ _ _ _ hctrl, wr_rd_ne _ _ _ _ hstat]
  rfl

theorem bankView_log (hb : b < 12) (c : Nat) (d : List Byte) : bankView b (s.log c d) = bankView b s := by
  have hctrl : (s.log c d).rd (R.sdBctrl b) = s.rd (R.sdBctrl b) :=
    log_rd_ne s c d (by simp only [R.sdBctrl]; omega) (by simp only [R.sdBctrl]; omega)
  have hstat : (s.log c d).rd (R.sdBstat b) = s.rd (R.sdBstat b) :=
    log_rd_ne s c d (by simp only [R.sdBstat]; omega) (by simp only [R.sdBstat]; omega)
  simp only [bankView, sdArmed, flag, State.get, hctrl, hstat, log_sdB, log_mem]

/-- Where no condition of R80 fails the bank arms and its switch closes; with no clamp event running nothing locks it
again. -/
theorem bankView_bankArm (hb : b < 12) (ha : s.sdArmed b = false) (hi : sdArmIgnored s b = false) (he : sdArmErr s b = 0)
    (hc : (s.sdB b).clamp = false) : bankView b (bankArm s b).1 = (true, true, false, s.mem) := by
  have hclosed : bankView b ((s.set (R.sdBctrlArm b) 1).set (R.sdBstatBswOn b) 1) = (true, true, false, s.mem) := by
    simp only [bankView, sdArmed, set_sdB, hc, set_mem, Prod.mk.injEq, and_true]
    rw [set_flag_ne _ _ _ _ (by simp) (.inl (bctrl_ne_bstat b b)), set_flag _ _ _ (by simp) rfl,
      set_flag _ _ _ (by simp) rfl]
    exact ⟨rfl, rfl⟩
  have hsetB : ∀ (u : State), bankView b (u.setSdB b { u.sdB b with failed := false }) = bankView b u := fun u => by
    simp [bankView, sdArmed]
  have hclose : ∀ u, bankView b u = (true, true, false, s.mem) →
      bankView b (sdClampClose u b) = (true, true, false, s.mem) := fun u hu => by
    have hclamp : (u.sdB b).clamp = false := congrArg (·.2.2.1) hu
    rw [sdClampClose, if_pos hclamp, hu]
  rw [bankArm, if_neg (by simp [ha]), if_neg (by simp [hi]), if_neg (by simp [he])]
  refine (thermalEstimate_keeps (bankView b) _ (fun _ _ => rfl) (fun _ _ _ => rfl) fun u => bankView_log u b hb).trans ?_
  refine hclose _ (((ChannelStep.armStart _ b).bankView hb).trans ?_)
  refine (bankView_loopsFromZero _ b).trans ((hsetB _).trans ?_)
  exact ((ChannelStep.sdStagger _ b).bankView hb).trans hclosed

/-! The refusals (R80) -/

theorem sdArmErr_of_stop (h : s.get R.siStopState ≠ 0) : sdArmErr s b = 1 := if_pos (.inl h)

theorem sdArmErr_of_lock (hs : s.get R.siStopState = 0) (hd : (s.dieAt (b / 4)).stopped = false)
    (hl : s.flag (R.sdBstatLock b) = true) : sdArmErr s b = 4 := by simp [sdArmErr, hs, hd, hl]

theorem bankArm_of_refused (ha : s.sdArmed b = false) (hi : sdArmIgnored s b = false) (he : sdArmErr s b ≠ 0) :
    (bankArm s b).1 = (s.set (R.sdBstatErr b) (sdArmErr s b)).log 0x070F (d8 b ++ d8 (sdArmErr s b)) := by
  simp [bankArm, ha, hi, he]

/-! UNLOCK and DCLR (R69, R79) -/

theorem sdLeak_sdB : (sdLeak s b).sdB b =
    { s.sdB b with bucket := leaked (s.sdB b).bucket (s.sdB b).leakAt s.now 600, leakAt := s.now } := by
  rw [sdLeak, set_sdB, setSdB_sdB_self]

theorem sdLeak_dieAt (d : Nat) : (sdLeak s b).dieAt d = s.dieAt d := by
  rw [sdLeak, set_dieAt, setSdB_dieAt]

theorem benergy_ne_bctrl (b c : Nat) : R.sdBenergy b ≠ R.sdBctrl c := by simp only [R.sdBenergy, R.sdBctrl]; omega
theorem benergy_ne_bstat (b c : Nat) : R.sdBenergy b ≠ R.sdBstat c := by simp only [R.sdBenergy, R.sdBstat]; omega

theorem sdLeak_rd_ne {a : Nat} (h : a ≠ R.sdBenergy b) : (sdLeak s b).rd a = s.rd a := set_rd_ne _ _ _ _ h

theorem sdLeak_sdArmed : (sdLeak s b).sdArmed b = s.sdArmed b := by
  simp only [sdArmed, flag, State.get, sdLeak_rd_ne s b (benergy_ne_bctrl b b).symm]

theorem sdLeak_lock : (sdLeak s b).flag (R.sdBstatLock b) = s.flag (R.sdBstatLock b) := by
  simp only [flag, State.get, sdLeak_rd_ne s b (benergy_ne_bstat b b).symm]

variable (hh : s.sdHeld (4 * b) = false)
include hh

/-- Below 1,250 mJ the unlock is taken, and the bank stays as it is, armed or not. -/
theorem bankUnlock_of_low (h : leaked (s.sdB b).bucket (s.sdB b).leakAt s.now 600 < 1250000000000) :
    (bankUnlock s b).1.flag (R.sdBstatLock b) = false ∧ (bankUnlock s b).1.sdArmed b = s.sdArmed b := by
  have hlow : ((sdLeak s b).sdB b).bucket < 1250000000000 := by rwa [sdLeak_sdB]
  rw [bankUnlock, if_neg (by simp [hh]), if_pos hlow, tell_flag, set_flag _ _ _ (by simp) rfl, sdArmed, tell_flag,
    set_flag_ne _ _ _ _ (by simp) (.inl (bctrl_ne_bstat b b))]
  exact ⟨rfl, sdLeak_sdArmed s b⟩

theorem bankUnlock_of_high (h : 1250000000000 ≤ leaked (s.sdB b).bucket (s.sdB b).leakAt s.now 600) :
    (bankUnlock s b).1.flag (R.sdBstatLock b) = s.flag (R.sdBstatLock b) ∧
      ((bankUnlock s b).1.dieAt (b / 4)).reports = (s.dieAt (b / 4)).reports ++ [.bits (R.sdBstat b) 16 4 4] := by
  have hhigh : ¬ ((sdLeak s b).sdB b).bucket < 1250000000000 := by rw [sdLeak_sdB]; exact Nat.not_lt.2 h
  rw [bankUnlock, if_neg (by simp [hh]), if_neg hhigh, tell_flag, tell_reports, sdLeak_lock, sdLeak_dieAt]
  exact ⟨rfl, rfl⟩

/-- From 150 °C down the clear of BSW_OT is taken. -/
theorem bankSwitchClear_of_cool (h : (s.sdB b).tj ≤ 150) :
    (bankSwitchClear s b).1.flag (R.sdBstatBswOt b) = false := by
  rw [bankSwitchClear, if_neg (by simp [hh]), if_pos h, set_flag _ _ _ (by simp) rfl]
  rfl

theorem bankSwitchClear_of_hot (h : 150 < (s.sdB b).tj) : bankSwitchClear s b =
    (s.tell (b / 4) [.bits (R.sdBstat b) 16 4 5], St.target) := by
  rw [bankSwitchClear, if_neg (by simp [hh]), if_neg (Nat.not_le.2 h)]

end

/-- Settles O16: arming through what its parts leave of the bank (`bankView`), disarming as a bank turn-off, in which each
channel ends open in turn. -/
theorem banksArmAndDisarm : Obligations.BanksArmAndDisarm := by
  intro s b tj hb hh
  have hb' : ¬ b > 11 := by omega
  have harm : exec (.bankArm b) s = .next (bankArm s b).1 := if_neg hb'
  have hdisarm : exec (.bankDisarm b) s = .next (sdDisarm s b) := if_neg (by simp [hh]; omega)
  have hunlock : exec (.bankUnlock b) s = .next (bankUnlock s b).1 := if_neg hb'
  have hclear : exec (.bankSwitchClear b tj) s = .next (bankSwitchClear (s.setSdB b { s.sdB b with tj := tj }) b).1 :=
    if_neg hb'
  have hheld : (s.setSdB b { s.sdB b with tj := tj }).sdHeld (4 * b) = false := hh
  have htj : ((s.setSdB b { s.sdB b with tj := tj }).sdB b).tj = tj := by rw [setSdB_sdB_self]
  refine ⟨fun ha hi he hc => ?_, fun ha hi he => ?_, sdArmErr_of_stop s b, sdArmErr_of_lock s b, fun ha hd => ?_,
    fun h => ⟨_, hunlock, bankUnlock_of_low s b hh h⟩, fun h => ⟨_, hunlock, bankUnlock_of_high s b hh h⟩,
    fun h => ⟨_, hclear, bankSwitchClear_of_cool _ b hheld (htj.symm ▸ h)⟩, fun h => ?_, harm, hdisarm, hunlock, hclear,
    fun ha hd => ⟨_, hdisarm, sdDisarm_deferred s b ha hd⟩⟩
  · have hview := bankView_bankArm s b hb ha hi he hc
    simp only [bankView, Prod.mk.injEq] at hview
    obtain ⟨harmed, hon, -, hmem⟩ := hview
    exact ⟨_, harm, harmed, hon, fun a => by rw [hmem]⟩
  · rw [harm, bankArm_of_refused s b ha hi he]
  · refine ⟨_, hdisarm, ?_⟩
    rw [sdDisarm_of_armed s b ha hd]
    exact ⟨sdBankOff_sdArmed s b, sdBankOff_bswOn s b, sdBankOff_granted s b, sdBankOff_open s b,
      fun a => by rw [sdBankOff_mem]⟩
  · refine ⟨_, hclear, ?_⟩
    rw [bankSwitchClear_of_hot _ b hheld (htj.symm ▸ h), tell_reports]
    exact ⟨rfl, rfl⟩

end Sys2Proof.Machine

/-! The clamp bucket and the switch of a solenoid bank (03_solenoid_drive.md R68, R69, R79). -/
namespace Sys2Proof.Machine
open State

section
variable (s : State) (b : Nat)

@[simp] theorem sdBankDiag_mem (k : Nat) : (sdBankDiag s b k).mem = s.mem := rfl
@[simp] theorem sdBankDiag_flag (k : Nat) (f : Fld) : (sdBankDiag s b k).flag f = s.flag f := rfl
@[simp] theorem sdBankDiag_sdB (k c : Nat) : (sdBankDiag s b k).sdB c = s.sdB c := rfl
@[simp] theorem tell_sdArmed (d : Nat) (l : List Report) : (s.tell d l).sdArmed b = s.sdArmed b := rfl
@[simp] theorem sdBankDiag_sdArmed (k c : Nat) : (sdBankDiag s b k).sdArmed c = s.sdArmed c := rfl

theorem sdBankDiag_reports (k : Nat) : ((sdBankDiag s b k).dieAt (b / 4)).reports =
    (s.dieAt (b / 4)).reports ++ [.bits (R.sdBdiag b) k 1 1, .irq (16 + b)] := tell_reports _ _ _

/-- A lock disarms the bank, unless a load dump defers it (R69). -/
theorem bankLock_lock (e : Nat) : (bankLock s b e).flag (R.sdBstatLock b) = true := by
  have hset : (s.set (R.sdBstatLock b) 1).flag (R.sdBstatLock b) = true := set_flag _ _ _ (by simp) rfl
  rw [bankLock, tell_flag, sdBankDiag_flag,
    sdDisarm_keeps _ b (·.flag (R.sdBstatLock b)) (sdBankOff_flag _ b (by omega) (by omega)) fun _ => rfl, hset]

theorem bankLock_sdArmed (e : Nat) (hd : s.flag (R.sdBstatDefer b) = false) : (bankLock s b e).sdArmed b = false := by
  rw [bankLock, tell_sdArmed, sdBankDiag_sdArmed, sdDisarm_sdArmed]
  rw [set_flag_ne _ _ _ _ (by simp) (by simp), hd]

theorem bankLock_bucket (e : Nat) : ((bankLock s b e).sdB b).bucket = (s.sdB b).bucket := by
  rw [bankLock, tell_sdB, sdBankDiag_sdB,
    sdDisarm_keeps _ b (fun u => (u.sdB b).bucket) (sdBankOff_bucket _ b) fun _ => rfl, set_sdB]

theorem bankLock_mem (e : Nat) : (bankLock s b e).mem = s.mem := by
  rw [bankLock, tell_mem, sdBankDiag_mem, sdDisarm_keeps _ b (·.mem) (sdBankOff_mem _ b) fun _ => rfl, set_mem]

/-- The bucket after the leak up to now and a clamp event of microJ. -/
def chargedBucket (s : State) (b microJ : Nat) : Nat :=
  leaked (s.sdB b).bucket (s.sdB b).leakAt s.now 600 + microJ * 1000000

/-- The clamp event ends and its energy is charged, before a lock is judged (R68). -/
def sdCharged (s : State) (b microJ : Nat) : State :=
  (((sdLeak s b).setSdB b { (sdLeak s b).sdB b with bucket := chargedBucket s b microJ, clamp := false }).set
    (R.sdBenergyBucket b) (milliJ (chargedBucket s b microJ))).set (R.sdBenergyLast b) (milliJ (microJ * 1000000))

theorem sdClampEnd_eq (microJ : Nat) : sdClampEnd s b microJ =
    if microJ * 1000000 > 500000000000 ∨ chargedBucket s b microJ ≥ 2500000000000 then
      bankLock (sdCharged s b microJ) b (microJ * 1000000) else sdCharged s b microJ := by
  have hbucket : ((sdLeak s b).sdB b).bucket + microJ * 1000000 = chargedBucket s b microJ := by
    rw [sdLeak_sdB, chargedBucket]
  rw [sdClampEnd, hbucket, sdCharged]

variable (microJ : Nat)

theorem sdCharged_mem : (sdCharged s b microJ).mem = s.mem := by
  rw [sdCharged, set_mem, set_mem, setSdB_mem, sdLeak, set_mem, setSdB_mem]

theorem sdCharged_sdB : ((sdCharged s b microJ).sdB b).bucket = chargedBucket s b microJ ∧
    ((sdCharged s b microJ).sdB b).clamp = false := by
  rw [sdCharged, set_sdB, set_sdB, setSdB_sdB_self]
  exact ⟨rfl, rfl⟩

/-- SD_BENERGY shows the energy of the last event in mJ. -/
theorem sdCharged_energyLast : (sdCharged s b microJ).get (R.sdBenergyLast b) = milliJ (microJ * 1000000) := by
  have hle : milliJ (microJ * 1000000) ≤ 65535 := Nat.min_le_right _ _
  rw [sdCharged, set_get _ _ _ (by simp), Nat.mod_eq_of_lt (by simp only; omega)]

theorem sdCharged_flag_bstat (l : Nat) :
    (sdCharged s b microJ).flag ⟨R.sdBstat b, l, 1⟩ = s.flag ⟨R.sdBstat b, l, 1⟩ := by
  have hne := (benergy_ne_bstat b b).symm
  rw [sdCharged, set_flag_ne _ _ _ _ (by simp) (.inl hne), set_flag_ne _ _ _ _ (by simp) (.inl hne), setSdB_flag]
  simp only [flag, State.get, sdLeak_rd_ne s b hne]

/-- A small event into a bucket below the budget is charged, and nothing locks. -/
theorem sdClampEnd_of_small (he : microJ ≤ 500000) (hv : chargedBucket s b microJ < 2500000000000) :
    sdClampEnd s b microJ = sdCharged s b microJ := by
  rw [sdClampEnd_eq, if_neg (by omega)]

/-- Too great an event or a spent budget locks the bank. -/
theorem sdClampEnd_of_great (h : 500000 < microJ ∨ 2500000000000 ≤ chargedBucket s b microJ) :
    sdClampEnd s b microJ = bankLock (sdCharged s b microJ) b (microJ * 1000000) := by
  rw [sdClampEnd_eq, if_pos (by omega)]

theorem milliJ_of_small (he : microJ ≤ 500000) : milliJ (microJ * 1000000) = microJ / 1000 := by
  rw [milliJ, show microJ * 1000000 / 1000000000 = microJ / 1000 by omega]
  exact Nat.min_eq_left (by omega)

theorem sdLeak_now : (sdLeak s b).now = s.now := by rw [sdLeak, set_now, setSdB_now]

/-- Limiting of a closed switch is reported (R79). -/
theorem bankSwitchLimit_eq (b tj : Nat) (hb : b < 12) (hon : s.flag (R.sdBstatBswOn b) = true) :
    exec (.bankSwitchLimit b tj) s = .next
      ((sdBankDiag (s.setSdB b { s.sdB b with tj := tj }) b 2).tell (b / 4) [.event 0x0707 (d8 b ++ d8 tj)]) :=
  if_neg (by simp [hon]; omega)

/-- An over-temperature trip latches BSW_OT and turns the bank off (R79). -/
theorem bankSwitchTrip_eq (b tj : Nat) (hb : b < 12) (h : 175 ≤ tj) : exec (.bankSwitchTrip b tj) s =
    .next ((sdBankDiag (sdBankOff ((s.setSdB b { s.sdB b with tj := tj }).set (R.sdBstatBswOt b) 1) b) b 1).tell (b / 4)
      [.irq 30, .event 0x0708 (d8 b ++ d8 tj)]) := if_neg (by omega)

end

/-- Settles O17: a clamp event is a leak, a charge and, where it is too great, a lock, which leaves the bucket as charged. -/
theorem bankClampAndSwitchProtect : Obligations.BankClampAndSwitchProtect := by
  intro s b uJ tj hb
  have hclamp (hc : (s.sdB b).clamp = true) : exec (.sdClampEventEnd b uJ) s = .next (sdClampEnd s b uJ) :=
    if_neg (by simp [hc]; omega)
  have hleak : exec (.sdBucketLeak b) s = .next (sdLeak (s.passTo ((s.sdB b).leakAt + ms 1)) b) := if_neg (by omega)
  refine ⟨fun hc he hv => ?_, fun hc h => ?_, ?_, fun hon => ?_, fun h => ?_, hclamp, hleak⟩
  · refine ⟨_, hclamp hc, ?_⟩
    rw [sdClampEnd_of_small s b uJ he hv, sdCharged_energyLast, milliJ_of_small uJ he, sdCharged_flag_bstat]
    exact ⟨(sdCharged_sdB s b uJ).1, (sdCharged_sdB s b uJ).2, rfl, rfl, fun a => by rw [sdCharged_mem]⟩
  · refine ⟨_, hclamp hc, ?_⟩
    rw [sdClampEnd_of_great s b uJ h, bankLock_bucket, bankLock_lock]
    exact ⟨(sdCharged_sdB s b uJ).1, rfl, fun hd => bankLock_sdArmed _ b _ (by rw [sdCharged_flag_bstat, hd]),
      fun a => by rw [bankLock_mem, sdCharged_mem]⟩
  · refine ⟨_, hleak, ?_⟩
    rw [sdLeak_sdB, sdLeak_now, passTo_sdB, passTo_now]
    exact ⟨rfl, rfl⟩
  · refine ⟨_, bankSwitchLimit_eq s b tj hb hon, ?_⟩
    rw [tell_flag, sdBankDiag_flag, tell_reports, sdBankDiag_reports, List.append_assoc]
    exact ⟨hon, rfl⟩
  · refine ⟨_, bankSwitchTrip_eq s b tj hb h, ?_⟩
    rw [tell_flag, tell_sdArmed, tell_flag, sdBankDiag_sdArmed, sdBankDiag_flag, sdBankDiag_flag, sdBankOff_sdArmed,
      sdBankOff_bswOn, sdBankOff_flag _ b (by omega) (by omega), set_flag _ _ _ (by simp) rfl]
    exact ⟨rfl, rfl, rfl, fun a => by rw [tell_mem, sdBankDiag_mem, sdBankOff_mem, set_mem, setSdB_mem]⟩

end Sys2Proof.Machine

/-! The course of a peak-and-hold sequence, its reports and its faults (03_solenoid_drive.md R63, R74, R76, R81 to R84). -/
namespace Sys2Proof.Machine
open State

section
variable (s : State) (n : Nat)

/-- What a channel that is no odd half shows after its operation and the mirror of its pair. -/
theorem ChannelStep.shown {s t : State} {n : Nat} (h : ChannelStep (n / 4) s t) (ho : Machine.oddHalf s n = false) :
    (Machine.sdMirror t n).sdPhase n = t.sdPhase n ∧
      (Machine.sdMirror t n).flag (R.sdCstatPwmOn n) = t.flag (R.sdCstatPwmOn n) ∧
      ∀ f : Fld, f.addr < R.sdCctrl n + 128 → (Machine.sdMirror t n).get f = t.get f := by
  have ho' : Machine.oddHalf t n = false := (h.oddHalf n).trans ho
  exact ⟨sdMirror_sdPhase_own ho', sdMirror_pwmOn ho', fun f => sdMirror_get ho'⟩

/-! The grant (R74) -/

/-- The arbiter of the bank of channel n has granted its request; l wait on. -/
def sdGranted (s : State) (n : Nat) (l : List Nat) : State :=
  let t := ((s.setSdQueue (n / 4) l).set (R.sdBstatGranted (n / 4)) 1).set (R.sdBstatGrant (n / 4)) (n % 4)
  ((t.setSdC n { t.sdC n with grantAt := s.now, peak := s.get (R.sdCcurPeak n), dwell := s.get (R.sdCtimeDwell n) }).setSdPhase
    n 2).tell (n / 16) [.tally (R.sdCpullins n)]

theorem exec_pullinGrant {l : List Nat} (hn : n < 48) (hq : (s.sdB (n / 4)).queue = n :: l)
    (hg : s.flag (R.sdBstatGranted (n / 4)) = false) (hd : s.flag (R.sdBstatDefer (n / 4)) = false) :
    exec (.pullinGrant (n / 4)) s = .next (sdMirror (sdGranted s n l) n) := by
  show execPullinGrant (n / 4) s = _
  simp only [execPullinGrant, hq]
  exact if_neg (by simp [hg, hd]; omega)

theorem ChannelStep.sdGranted (l : List Nat) : ChannelStep (n / 4) s (sdGranted s n l) :=
  (((((setSdQueue s l).trans (setArbiter _ (by omega) (by omega) 1)).trans
    (setArbiter _ (by omega) (by omega) _)).trans (setSdC _ n _)).trans (setSdPhase _ n 2)).trans (tell _ _ _)

theorem sdGranted_sdPhase (l : List Nat) : (sdGranted s n l).sdPhase n = 2 := by
  rw [sdGranted, tell_sdPhase, setSdPhase_sdPhase _ _ (by omega)]

theorem sdGranted_queue (l : List Nat) : ((sdGranted s n l).sdB (n / 4)).queue = l := by
  rw [sdGranted, tell_sdB, setSdPhase_sdB, setSdC_sdB, set_sdB, set_sdB, setSdQueue_queue]

theorem sdGranted_sdC (l : List Nat) : (sdGranted s n l).sdC n =
    { s.sdC n with grantAt := s.now, peak := s.get (R.sdCcurPeak n), dwell := s.get (R.sdCtimeDwell n) } := by
  rw [sdGranted, tell_sdC, setSdPhase_sdC, setSdC_sdC_self, set_sdC, set_sdC, setSdQueue, set_sdC, setSdB_sdC]

theorem bstat_ne_cstat (b n : Nat) : R.sdBstat b ≠ R.sdCstat n := by simp only [R.sdBstat, R.sdCstat]; omega

/-- GRANTED and GRANT name the channel. -/
theorem sdGranted_grant (l : List Nat) : (sdGranted s n l).flag (R.sdBstatGranted (n / 4)) = true ∧
    (sdGranted s n l).get (R.sdBstatGrant (n / 4)) = n % 4 := by
  have hne := bstat_ne_cstat (n / 4) n
  constructor
  · rw [sdGranted, tell_flag, flag, setSdPhase_get_ne _ _ _ hne, setSdC_get, ← flag, set_flag_ne _ _ _ _ (by simp) (by simp),
      set_flag _ _ _ (by simp) rfl]
    rfl
  · rw [sdGranted, tell_get, setSdPhase_get_ne _ _ _ hne, setSdC_get, set_get _ _ _ (by simp)]
    exact Nat.mod_eq_of_lt (Nat.mod_lt _ (by simp))

/-! The end of a pull-in (R63, R81, R82) -/

theorem armatureCheck_eq (dip : Option (Nat × Nat)) (peak : Bool) : armatureCheck s n dip peak = s ∨
    (∃ x, armatureCheck s n dip peak = s.set (R.sdCpullMove n) x) ∨
    (peak = true ∧ ∃ x d, armatureCheck s n dip peak = sdDiag (s.set (R.sdCpullMove n) x) n 2 0x0703 d) := by
  unfold armatureCheck
  split
  · exact .inl rfl
  · split
    · exact .inr (.inl ⟨_, rfl⟩)
    · cases peak
      · exact .inl rfl
      · exact .inr (.inr ⟨rfl, _, _, rfl⟩)

theorem ChannelStep.cpull (l w v : Nat) : ChannelStep (n / 4) s (s.set ⟨R.sdCpull n, l, w⟩ v) :=
  set s ⟨n, rfl, by simp only [R.sdCctrl, R.sdCpull]; omega⟩ v

theorem ChannelStep.armatureCheck (dip : Option (Nat × Nat)) (peak : Bool) :
    ChannelStep (n / 4) s (armatureCheck s n dip peak) := by
  rcases armatureCheck_eq s n dip peak with h | ⟨x, h⟩ | ⟨-, x, d, h⟩ <;> rw [h]
  · exact refl _ s
  · exact cpull s n 16 16 x
  · exact (cpull s n 16 16 x).trans (tell _ _ _)

/-- The check leaves what neither MOVE nor a report changes. -/
theorem armatureCheck_keeps {β : Type} (p : State → β) (dip : Option (Nat × Nat)) (peak : Bool)
    (hmove : ∀ x, p (s.set (R.sdCpullMove n) x) = p s) (htell : ∀ u l, p (u.tell (n / 16) l) = p u) :
    p (armatureCheck s n dip peak) = p s := by
  rcases armatureCheck_eq s n dip peak with h | ⟨x, h⟩ | ⟨-, x, d, h⟩ <;> rw [h]
  · exact hmove x
  · rw [sdDiag, htell, hmove]

/-- Without a peak nothing is reported of the armature. -/
theorem armatureCheck_stage_of_noPeak (dip : Option (Nat × Nat)) : (armatureCheck s n dip false).stage = s.stage := by
  rcases armatureCheck_eq s n dip false with h | ⟨x, h⟩ | ⟨hp, -⟩
  · rw [h]
  · rw [h, set_stage]
  · exact absurd hp (by simp)

/-- A pull-in has reached its peak after tpk µs: TPK, a report of a peak that came too soon, and the armature. -/
def sdPeakShown (s : State) (n tpk : Nat) (dip : Option (Nat × Nat)) : State :=
  let t := (s.passTo ((s.sdC n).grantAt + us tpk)).set (R.sdCpullTpk n) tpk
  let t := if tpk < t.get (R.sdCtpkTpkMin n) then
      (sdDiag t n 0 0x0701 (d8 n ++ d16 tpk)).tell (n / 16) [.tally (R.sdCtpkerr n)]
    else t
  armatureCheck t n dip true

theorem exec_peakReached {tpk uA : Nat} (dip : Option (Nat × Nat)) (hn : n < 48) (hp : s.sdPhase n = 2)
    (ht : tpk ≤ s.get (R.sdCtpkTpkMax n)) (hi : 31250 * (s.sdC n).peak ≤ uA) :
    exec (.peakReached n tpk uA dip) s =
      let u := sdPeakShown s n tpk dip
      .next (sdMirror (if (u.sdC n).dwell = 0 then (grantRelease u n).setSdPhase n 4
        else (u.setSdC n { u.sdC n with dwellEnd := u.now + us (100 * (u.sdC n).dwell) }).setSdPhase n 3) n) :=
  if_neg (by simp only [hp]; omega)

theorem ChannelStep.sdPeakShown (tpk : Nat) (dip : Option (Nat × Nat)) :
    ChannelStep (n / 4) (s.passTo ((s.sdC n).grantAt + us tpk)) (sdPeakShown s n tpk dip) :=
  ((cpull _ n 0 16 tpk).trans (ite ((tell _ _ _).trans (tell _ _ _)) (refl _ _))).trans (armatureCheck _ n dip true)

/-- What neither a report nor MOVE changes stands as after TPK. -/
theorem sdPeakShown_keeps {β : Type} (p : State → β) (tpk : Nat) (dip : Option (Nat × Nat))
    (hmove : ∀ u x, p (u.set (R.sdCpullMove n) x) = p u) (htell : ∀ u l, p (u.tell (n / 16) l) = p u) :
    p (sdPeakShown s n tpk dip) = p ((s.passTo ((s.sdC n).grantAt + us tpk)).set (R.sdCpullTpk n) tpk) := by
  unfold sdPeakShown
  dsimp only
  rw [armatureCheck_keeps _ n p dip true (fun x => hmove _ x) htell]
  split
  · rw [htell, sdDiag, htell]
  · rfl

theorem sdPeakShown_sdC (tpk : Nat) (dip : Option (Nat × Nat)) : (sdPeakShown s n tpk dip).sdC n = s.sdC n := by
  rw [sdPeakShown_keeps s n (·.sdC n) tpk dip (fun u x => set_sdC u _ x n) fun u l => tell_sdC u _ l n, set_sdC, passTo_sdC]

theorem sdPeakShown_now (tpk : Nat) (dip : Option (Nat × Nat)) :
    (sdPeakShown s n tpk dip).now = max s.now ((s.sdC n).grantAt + us tpk) :=
  (ChannelStep.sdPeakShown s n tpk dip).now.trans (passTo_now s _)

theorem sdPeakShown_tpk {tpk : Nat} (dip : Option (Nat × Nat)) (h : tpk < 65536) :
    (sdPeakShown s n tpk dip).get (R.sdCpullTpk n) = tpk := by
  rw [sdPeakShown_keeps s n (·.get (R.sdCpullTpk n)) tpk dip
    (fun u x => set_get_ne u _ _ x (by simp) (by simp)) fun u l => tell_get u _ l _, set_get _ _ _ (by simp)]
  exact Nat.mod_eq_of_lt h

theorem passTo_oddHalf (t : Nat) : oddHalf (s.passTo t) n = oddHalf s n := by simp only [oddHalf, passTo_flag]

theorem sdPeakShown_grant (tpk : Nat) (dip : Option (Nat × Nat)) :
    (sdPeakShown s n tpk dip).get (R.sdBstatGrant (n / 4)) = s.get (R.sdBstatGrant (n / 4)) := by
  have hne : R.sdBstat (n / 4) ≠ R.sdCpull n := by simp only [R.sdBstat, R.sdCpull]; omega
  have hset : ∀ (u : State) (l w x : Nat), l + w ≤ 32 →
      (u.set ⟨R.sdCpull n, l, w⟩ x).get (R.sdBstatGrant (n / 4)) = u.get (R.sdBstatGrant (n / 4)) :=
    fun u l w x hw => set_get_ne u _ _ x hw (.inl hne)
  rw [sdPeakShown_keeps s n (·.get (R.sdBstatGrant (n / 4))) tpk dip (fun u x => hset u 16 16 x (by omega))
    fun u l => tell_get u _ l _, hset _ 0 16 tpk (by omega), passTo_get]

/-- A peak within TPK_MAX leads to the dwell. -/
theorem exec_peakReached_dwell {tpk uA : Nat} (dip : Option (Nat × Nat)) (hn : n < 48) (hp : s.sdPhase n = 2)
    (ht : tpk ≤ s.get (R.sdCtpkTpkMax n)) (hi : 31250 * (s.sdC n).peak ≤ uA) (hd : (s.sdC n).dwell ≠ 0) :
    exec (.peakReached n tpk uA dip) s = .next (sdMirror (((sdPeakShown s n tpk dip).setSdC n { s.sdC n with
      dwellEnd := max s.now ((s.sdC n).grantAt + us tpk) + us (100 * (s.sdC n).dwell) }).setSdPhase n 3) n) := by
  rw [exec_peakReached s n dip hn hp ht hi]
  dsimp only
  rw [sdPeakShown_sdC, sdPeakShown_now, if_neg hd]

/-- With a dwell of 0 it leads to hold at once. -/
theorem exec_peakReached_hold {tpk uA : Nat} (dip : Option (Nat × Nat)) (hn : n < 48) (hp : s.sdPhase n = 2)
    (ht : tpk ≤ s.get (R.sdCtpkTpkMax n)) (hi : 31250 * (s.sdC n).peak ≤ uA) (hd : (s.sdC n).dwell = 0) :
    exec (.peakReached n tpk uA dip) s =
      .next (sdMirror ((grantRelease (sdPeakShown s n tpk dip) n).setSdPhase n 4) n) := by
  rw [exec_peakReached s n dip hn hp ht hi]
  dsimp only
  rw [sdPeakShown_sdC, if_pos hd]

end
end Sys2Proof.Machine

/-! Late, slow, over-current and open channels, and FCLR (03_solenoid_drive.md R76, R81, R83, R84). -/
namespace Sys2Proof.Machine
open State

/-- The end of a pull-in or dwell without a new phase of dwell: hold, and the grant released (R74). -/
theorem grantRelease_hold {s t : State} (n : Nat) (h : ChannelStep (n / 4) s t) (ho : oddHalf s n = false) :
    (sdMirror ((grantRelease t n).setSdPhase n 4) n).sdPhase n = 4 ∧
      (t.get (R.sdBstatGrant (n / 4)) = n % 4 →
        (sdMirror ((grantRelease t n).setSdPhase n 4) n).flag (R.sdBstatGranted (n / 4)) = false) := by
  have hstep := h.trans ((ChannelStep.grantRelease t n).trans (ChannelStep.setSdPhase _ n 4))
  have ho' := (hstep.oddHalf n).trans ho
  refine ⟨?_, fun hg => ?_⟩
  · rw [sdMirror_sdPhase_own ho', setSdPhase_sdPhase _ _ (by omega)]
  · rw [sdMirror_granted ho', flag, setSdPhase_get_ne _ _ _ (bstat_ne_cstat _ n)]
    exact grantRelease_granted t n hg

section
variable (s : State) (n : Nat)

/-! A pull-in that is late or slow (R76, R81) -/

theorem exec_pullinWaitLate (hn : n < 48) (hp : s.sdPhase n = 1) (hl : (s.sdC n).late = false) :
    exec (.pullinWaitLate n) s =
      let w := 10 * s.get (R.sdCtimeMaxwait n)
      let t := s.passTo ((s.sdC n).reqAt + us w)
      .next ((sdDiag (t.setSdC n { t.sdC n with late := true }) n 3 0x0704 (d8 n ++ d16 w)).tell (n / 16)
        [.tally (R.sdClates n)]) := if_neg (by simp [hp, hl]; omega)

theorem sdDiag_reports (bit code : Nat) (data : List Byte) : ((sdDiag s n bit code data).dieAt (n / 16)).reports =
    (s.dieAt (n / 16)).reports ++ [.bits (R.sdCdiag n) bit 1 1, .irq (16 + n / 4), .event code data] := tell_reports _ _ _

/-- TPK_MAX has passed without a peak: the report, and the armature. -/
def sdPeakMissed (s : State) (n : Nat) (dip : Option (Nat × Nat)) : State :=
  let m := s.get (R.sdCtpkTpkMax n)
  armatureCheck ((sdDiag (s.passTo ((s.sdC n).grantAt + us m)) n 1 0x0702 (d8 n ++ d16 m)).tell (n / 16)
    [.tally (R.sdCtpkerr n)]) n dip false

theorem exec_tpkMaxExpiry (dip : Option (Nat × Nat)) (hn : n < 48) (hp : s.sdPhase n = 2) :
    exec (.tpkMaxExpiry n dip) s = .next (sdMirror ((grantRelease (sdPeakMissed s n dip) n).setSdPhase n 4) n) :=
  if_neg (by simp only [hp]; omega)

theorem ChannelStep.sdPeakMissed (dip : Option (Nat × Nat)) : ChannelStep (n / 4)
    (s.passTo ((s.sdC n).grantAt + us (s.get (R.sdCtpkTpkMax n)))) (sdPeakMissed s n dip) :=
  ((tell _ _ _).trans (tell _ _ _)).trans (armatureCheck _ n dip false)

theorem sdPeakMissed_reports (dip : Option (Nat × Nat)) : ((sdPeakMissed s n dip).dieAt (n / 16)).reports =
    (s.dieAt (n / 16)).reports ++ [.bits (R.sdCdiag n) 1 1 1, .irq (16 + n / 4),
      .event 0x0702 (d8 n ++ d16 (s.get (R.sdCtpkTpkMax n))), .tally (R.sdCtpkerr n)] := by
  rw [sdPeakMissed, dieAt, armatureCheck_stage_of_noPeak, ← dieAt, tell_reports, sdDiag_reports, passTo_dieAt,
    List.append_assoc]
  rfl

/-! Channel faults (R83) -/

theorem sdConducts_of_phase (hn : n < 48) (ho : oddHalf s n = false)
    (hp : s.sdPhase n = 2 ∨ s.sdPhase n = 3 ∨ s.sdPhase n = 4) : sdConducts s n = true := by
  rcases hp with hp | hp | hp <;> simp [sdConducts, hn, ho, hp]

/-- A fault of a conducting channel: phase FAULT, the on-interval over, and one report with its event. -/
theorem sdFault_of_conducting (bit code milliamp : Nat) (ho : oddHalf s n = false)
    (hp : s.sdPhase n = 2 ∨ s.sdPhase n = 3 ∨ s.sdPhase n = 4) :
    (sdFault s n bit code milliamp).sdPhase n = 5 ∧ (sdFault s n bit code milliamp).flag (R.sdCstatPwmOn n) = false ∧
      ((sdFault s n bit code milliamp).dieAt (n / 16)).reports = (s.dieAt (n / 16)).reports ++
        [.bits (R.sdCdiag n) bit 1 1, .irq (16 + n / 4), .event code (d8 n ++ d16 milliamp)] ∧
      SameMemory s (sdFault s n bit code milliamp) := by
  have hstep : ChannelStep (n / 4) s
      (sdDiag ((sdTurnOff s n).setSdPhase n 5) n bit code (d8 n ++ d16 milliamp)) :=
    ((ChannelStep.sdTurnOff s n).trans (ChannelStep.setSdPhase _ n 5)).trans (ChannelStep.tell _ _ _)
  have ho' := (hstep.oddHalf n).trans ho
  have hstage := sdTurnOff_stage s n (by omega)
  refine ⟨?_, ?_, ?_, fun a => ?_⟩
  · rw [sdFault, sdMirror_sdPhase_own ho', sdDiag, tell_sdPhase, setSdPhase_sdPhase _ _ (by omega)]
  · rw [sdFault, sdMirror_pwmOn ho', sdDiag, tell_flag, setSdPhase_pwmOn, sdTurnOff_pwmOn]
  · rw [sdFault, sdMirror_dieAt, sdDiag_reports, setSdPhase_dieAt, dieAt, hstage, ← dieAt]
  · rw [sdFault, sdMirror_mem, hstep.mem]

/-! FCLR (R83) -/

theorem exec_sdFclr (hn : n < 48) (hh : s.sdHeld n = false) (hoff : s.sdOn n = false) :
    exec (.sdFclr n) s = .next (sdMirror (sdFclr s n) n) := if_neg (by simp only [hh, hoff]; simp; omega)

theorem cdiag_ne_cstat (n : Nat) : R.sdCdiag n ≠ R.sdCstat n := by simp only [R.sdCdiag, R.sdCstat]; omega

theorem clearFaultBits_sdPhase : (((s.set (R.sdCdiagOpen n) 0).set (R.sdCdiagOvc n) 0)).sdPhase n = s.sdPhase n := by
  rw [set_sdPhase _ _ _ (by simp) (.inl (cdiag_ne_cstat n)), set_sdPhase _ _ _ (by simp) (.inl (cdiag_ne_cstat n))]

/-- FCLR leaves FAULT and no other phase. -/
theorem sdFclr_sdPhase : (sdFclr s n).sdPhase n = if s.sdPhase n = 5 then 0 else s.sdPhase n := by
  rw [sdFclr, tell_sdPhase, clearFaultBits_sdPhase]
  split
  · rw [setSdPhase_sdPhase _ _ (by omega)]
  · rw [clearFaultBits_sdPhase]

theorem sdFclr_cdiag : (sdFclr s n).flag (R.sdCdiagOpen n) = false ∧ (sdFclr s n).flag (R.sdCdiagOvc n) = false := by
  have hrd : (sdFclr s n).rd (R.sdCdiag n) = ((s.set (R.sdCdiagOpen n) 0).set (R.sdCdiagOvc n) 0).rd (R.sdCdiag n) := by
    rw [sdFclr, tell_rd]
    split
    · rw [setSdPhase_rd_ne _ _ _ (cdiag_ne_cstat n)]
    · rfl
  have hget : ∀ l, (sdFclr s n).flag ⟨R.sdCdiag n, l, 1⟩ =
      ((s.set (R.sdCdiagOpen n) 0).set (R.sdCdiagOvc n) 0).flag ⟨R.sdCdiag n, l, 1⟩ := fun l => by
    simp only [flag, State.get, hrd]
  constructor
  · rw [hget, set_flag_ne _ _ _ _ (by simp) (by simp), set_flag _ _ _ (by simp) rfl]
    rfl
  · rw [hget, set_flag _ _ _ (by simp) rfl]
    rfl

end

/-- Settles O14: each report stands at the end of the die's reports, and no later part of the operation changes the phase. -/
theorem solenoidChannelsReport : Obligations.SolenoidChannelsReport := by
  intro s n mA dip hn ho
  have hcdiag : R.sdCdiag n < R.sdCctrl n + 128 := by simp only [R.sdCdiag, R.sdCctrl]; omega
  refine ⟨fun hp hl => ?_, fun hp => ?_, fun hp hover => ?_, fun hp href hi => ?_, fun hh hoff => ?_,
    exec_sdFclr s n hn⟩
  · refine ⟨_, exec_pullinWaitLate s n hn hp hl, ?_, ?_, ?_, ?_⟩
    · rw [tell_sdPhase, sdDiag, tell_sdPhase, setSdC_sdPhase, sdPhase, passTo_get, ← sdPhase, hp]
    · rw [tell_sdC, sdDiag, tell_sdC, setSdC_sdC_self]
    · rw [tell_sdB, sdDiag, tell_sdB, setSdC_sdB, passTo_sdB]
    · rw [tell_reports, sdDiag_reports, setSdC_dieAt, passTo_dieAt, List.append_assoc]
      rfl
  · have hhold := grantRelease_hold n (ChannelStep.sdPeakMissed s n dip) ((passTo_oddHalf s n _).trans ho)
    refine ⟨_, exec_tpkMaxExpiry s n dip hn hp, hhold.1, ?_⟩
    rw [sdMirror_dieAt, setSdPhase_dieAt, grantRelease_dieAt, sdPeakMissed_reports]
  · have hc := sdConducts_of_phase s n hn ho hp
    exact ⟨_, if_neg (by simp [hc, hover]), sdFault_of_conducting s n 5 0x0706 mA ho hp⟩
  · have hc := sdConducts_of_phase s n hn ho hp
    exact ⟨_, if_neg (by simp [hc]; omega), sdFault_of_conducting s n 4 0x0705 mA ho hp⟩
  · have hstep := ChannelStep.sdFclr s n
    obtain ⟨hphase, -, hget⟩ := hstep.shown ho
    obtain ⟨hopen, hovc⟩ := sdFclr_cdiag s n
    refine ⟨_, exec_sdFclr s n hn hh hoff, ?_, ?_, hphase.trans (sdFclr_sdPhase s n), fun a => ?_⟩
    · rwa [flag, hget _ hcdiag]
    · rwa [flag, hget _ hcdiag]
    · rw [sdMirror_mem, hstep.mem]

end Sys2Proof.Machine

/-! A write of SD_CCTRL at its die: what the word gives its fields, and what follows (03_solenoid_drive.md R60, R62, R70). -/
namespace Sys2Proof.Machine
open State

/-! The command reaches its die (R60, R61) -/

/-- The fields of SD_CCTRL. -/
theorem fieldsAt_sdCctrl : ∀ n < 48, fieldsAt (R.sdCctrl n) =
    [⟨0, 1, .rw, []⟩, ⟨1, 2, .rw, []⟩, ⟨3, 1, .rw, []⟩, ⟨4, 1, .rw, []⟩, ⟨5, 1, .rw, []⟩, ⟨6, 1, .rw, []⟩,
      ⟨7, 2, .rw, [(0, 2, 1)]⟩, ⟨9, 1, .rw, []⟩, ⟨10, 1, .wo, []⟩, ⟨11, 1, .wo, []⟩] := by decide +kernel

theorem dieOfReg_sdCctrl : ∀ n < 48, dieOfReg (R.sdCctrl n) = some (n / 16) := by decide +kernel

section
variable (s : State) {n : Nat} (hn : n < 48)
include hn

theorem heldReg_sdCctrl : heldReg s (R.sdCctrl n) = s.sdHeld n := by
  simp only [heldReg, dieOfReg_sdCctrl n hn, Option.any_some, sdHeld]

theorem stageApply_sdCctrl (v : Word) (field : Option Nat) (w : Nat) :
    stageApply s ⟨R.sdCctrl n, v, field, w⟩ = sdCctrlWrite s n ((Post.mk (R.sdCctrl n) v field w).word s) := by
  have hblock : R.sdCctrl n / 65536 = 0x2003 := by simp only [R.sdCctrl]; omega
  have hoffset : R.sdCctrl n % 65536 = 0x1000 + 0x80 * n := by simp only [R.sdCctrl]; omega
  have hchan : (0x1000 + 0x80 * n - 0x1000) / 0x80 = n := by omega
  rw [stageApply, if_pos hblock, hoffset, sdApply, if_neg (by omega), if_pos (by omega), hchan]

/-- The field ON alone is written by an on or off command. -/
theorem onWord_eq (v : Word) (w : Nat) :
    (Post.mk (R.sdCctrl n) v (some 0) w).word s = sdOnWord s n (v.toNat % 2) := by
  simp [Post.word, fieldsAt_sdCctrl n hn, fieldOf, sdOnWord]

/-- A die that is not in hold takes the command at once. -/
theorem stageNow_sdCctrl (v : Word) (field : Option Nat) (hh : s.sdHeld n = false) :
    stageNow s (R.sdCctrl n) v field = (sdCctrlWrite s n ((Post.mk (R.sdCctrl n) v field 1).word s)).1 := by
  rw [stageNow, heldReg_sdCctrl s hn, if_neg (by simp [hh]), stageApply_sdCctrl s hn]

/-- One to a die in hold waits (log entry 13). -/
theorem stageNow_sdCctrl_held (v : Word) (field : Option Nat) (hh : s.sdHeld n = true) :
    stageNow s (R.sdCctrl n) v field = s.post ⟨R.sdCctrl n, v, field, 1⟩ := by
  rw [stageNow, heldReg_sdCctrl s hn, if_pos hh]

theorem exec_sdModeWrite (v : Word) : exec (.sdModeWrite n v) s = .next (stageNow s (R.sdCctrl n) v none) :=
  if_neg (by omega)

theorem exec_sdOnCommand : exec (.sdOnCommand n) s = .next (stageNow s (R.sdCctrl n) 1 (some 0)) := if_neg (by omega)

theorem exec_sdOffCommand : exec (.sdOffCommand n) s = .next (stageNow s (R.sdCctrl n) 0 (some 0)) := if_neg (by omega)

theorem exec_sdModeWrite_free (v : Word) (hh : s.sdHeld n = false) :
    exec (.sdModeWrite n v) s = .next (sdCctrlWrite s n v).1 := by
  rw [exec_sdModeWrite s hn, stageNow_sdCctrl s hn _ _ hh]
  rfl

theorem exec_sdOnCommand_free (hh : s.sdHeld n = false) :
    exec (.sdOnCommand n) s = .next (sdCctrlWrite s n (sdOnWord s n 1)).1 := by
  rw [exec_sdOnCommand s hn, stageNow_sdCctrl s hn _ _ hh, onWord_eq s hn]
  rfl

theorem exec_sdOffCommand_free (hh : s.sdHeld n = false) :
    exec (.sdOffCommand n) s = .next (sdCctrlWrite s n (sdOnWord s n 0)).1 := by
  rw [exec_sdOffCommand s hn, stageNow_sdCctrl s hn _ _ hh, onWord_eq s hn]
  rfl

end

/-! The fields of the word (R6, R60) -/

/-- A writable field takes its part of the word, where that is a legal encoding, whatever other fields take. -/
theorem applyFields_fieldOf {l : List FieldDef} (v : Nat) {old : Nat} {f : FieldDef} (hl : FieldsApart l)
    (ho : old < 2 ^ 32) (hf : f ∈ l) (hacc : f.access = .rw) (hok : f.accepts (fieldOf v f) = true) :
    fieldOf (applyFields l old v) f = fieldOf v f :=
  fieldOf_congr fun k hk => by
    rw [applyFields_testBit_of_mem v hl ho hf hk]
    simp [FieldDef.bitAfter, hacc, hok]

section
variable (s : State) (n : Nat) (v : Word)

theorem bits_sdOnWord (on l w : Nat) :
    bits (sdOnWord s n on) l w = (s.set (R.sdCctrlOn n) on).get ⟨R.sdCctrl n, l, w⟩ := by
  simp only [bits, sdOnWord, State.get, State.set, wr_rd_self]
  rfl

/-- An on or off command leaves the other fields as they stand. -/
theorem bits_sdOnWord_of_pos (on : Nat) {l : Nat} (w : Nat) (h : 1 ≤ l) :
    bits (sdOnWord s n on) l w = s.get ⟨R.sdCctrl n, l, w⟩ := by
  rw [bits_sdOnWord, set_get_ne _ _ _ _ (by simp) (.inr (.inr (by simpa using h)))]

theorem bits_sdOnWord_on (on : Nat) : bits (sdOnWord s n on) 0 1 = on % 2 :=
  (bits_sdOnWord s n on 0 1).trans (set_get s (R.sdCctrlOn n) on (by simp))

theorem bit_sdOnWord_on (on : Nat) : bit (sdOnWord s n on) 0 = (on % 2 == 1) :=
  congrArg (· == 1) (bits_sdOnWord_on s n on)

end

/-! An accepted write -/

/-- PAIR written to an odd channel is reserved (R70). -/
abbrev OddPair (n : Nat) (v : Word) : Prop := n % 2 = 1 ∧ bits v 3 1 = 1

/-- The write is refused neither by an armed bank nor by the other half of a pair: MODE, PAIR, CHOP and PEAK_EN stay as they
are or the bank is disarmed, and PAIR is not set anew (R60, R70, R78). -/
def SdCctrlAccepts (s : State) (n : Nat) (v : Word) : Prop :=
  (s.sdArmed (n / 4) = false ∨ (bits v 1 2 = s.sdMode n ∧ bits v 3 1 = s.get (R.sdCctrlPair n) ∧
    bits v 5 1 = s.get (R.sdCctrlChop n) ∧ bits v 4 1 = s.get (R.sdCctrlPeakEn n))) ∧
  (bits v 3 1 = 1 → s.get (R.sdCctrlPair n) = 1)

/-- The register has taken the word, but for an odd PAIR. -/
def sdCctrlTaken (s : State) (n : Nat) (v : Word) : State :=
  s.wr (R.sdCctrl n) (BitVec.ofNat 32 (applyFields
    ((fieldsAt (R.sdCctrl n)).filter fun d => !(decide (OddPair n v) && d.lsb == 3)) (s.rd (R.sdCctrl n)).toNat v.toNat))

/-- FCLR and CNTCLR of the word have acted. -/
def sdCctrlCleared (s : State) (n : Nat) (v : Word) : State :=
  let t := sdCctrlTaken s n v
  let t := if bit v 10 ∧ bits v 0 1 = 0 then sdFclr t n else t
  if bit v 11 then t.clearAll (sdCounters n) else t

/-- A reserved field shows in ERR. -/
def sdCctrlAnswered (s : State) (n : Nat) (v : Word) : State := if OddPair n v ∨ bits v 7 2 = 3 then sdErr s n 2 else s

theorem sdCctrlWrite_of_accepts {s : State} {n : Nat} {v : Word} (h : SdCctrlAccepts s n v) :
    (sdCctrlWrite s n v).1 =
      sdCctrlAnswered (sdMirror (sdEdge (sdCctrlCleared s n v) n (s.sdOn n)) n) n v := by
  obtain ⟨hshape, hpair⟩ := h
  have h1 : ¬ (s.sdArmed (n / 4) = true ∧ (bits v 1 2 ≠ s.sdMode n ∨
      (bits v 3 1 ≠ s.get (R.sdCctrlPair n) ∧ ¬ OddPair n v) ∨ bits v 5 1 ≠ s.get (R.sdCctrlChop n))) := by
    rcases hshape with ha | ⟨hm, hp, hc, -⟩
    · simp [ha]
    · simp [hm, hp, hc]
  have h5 : ¬ (bits v 3 1 = 1 ∧ n % 2 = 0 ∧ s.get (R.sdCctrlPair n) = 0 ∧ s.sdMode (n + 1) ≠ 0) := by
    rintro ⟨hv, -, hp, -⟩
    have := hpair hv
    omega
  have h3 : ¬ (s.sdArmed (n / 4) = true ∧ s.flag (R.sdBctrlOvr (n / 4)) = false ∧
      bits v 4 1 ≠ s.get (R.sdCctrlPeakEn n) ∧ sdBudget (sdCctrlTaken s n v) (n / 4) ≠ 0) := by
    rcases hshape with ha | ⟨-, -, -, he⟩
    · simp [ha]
    · simp [he]
  unfold sdCctrlWrite sdCctrlAnswered
  dsimp only
  rw [if_neg h1, if_neg h5]
  unfold sdCctrlTaken at h3
  rw [if_neg h3]
  split
  · rfl
  · rfl

/-- A change of MODE, PAIR or CHOP of an even channel in an armed bank is refused as a whole (R60). -/
theorem sdCctrlWrite_of_changed {s : State} {n : Nat} {v : Word} (ha : s.sdArmed (n / 4) = true) (he : n % 2 = 0)
    (h : bits v 1 2 ≠ s.sdMode n ∨ bits v 3 1 ≠ s.get (R.sdCctrlPair n) ∨ bits v 5 1 ≠ s.get (R.sdCctrlChop n)) :
    (sdCctrlWrite s n v).1 = sdErr s n 1 := by
  have hodd : ¬ OddPair n v := fun ho => by have := ho.1; omega
  have h1 : s.sdArmed (n / 4) = true ∧ (bits v 1 2 ≠ s.sdMode n ∨
      (bits v 3 1 ≠ s.get (R.sdCctrlPair n) ∧ ¬ OddPair n v) ∨ bits v 5 1 ≠ s.get (R.sdCctrlChop n)) :=
    ⟨ha, h.imp_right (Or.imp_left fun hp => ⟨hp, hodd⟩)⟩
  unfold sdCctrlWrite
  dsimp only
  rw [if_pos h1]

/-- An on or off command is never refused (R60). -/
theorem sdOnWord_accepts (s : State) (n on : Nat) : SdCctrlAccepts s n (sdOnWord s n on) := by
  have hbits : ∀ l w, 1 ≤ l → bits (sdOnWord s n on) l w = s.get ⟨R.sdCctrl n, l, w⟩ := fun l w =>
    bits_sdOnWord_of_pos s n on w
  exact ⟨.inr ⟨hbits 1 2 (by omega), hbits 3 1 (by omega), hbits 5 1 (by omega), hbits 4 1 (by omega)⟩,
    fun h => (hbits 3 1 (by omega)).symm.trans h⟩

section
variable (s : State) {n : Nat} (v : Word)

/-- ON and MODE of the word stand in the register. -/
theorem sdCctrlTaken_get (hn : n < 48) {f : FieldDef} (hf : f ∈ fieldsAt (R.sdCctrl n)) (h3 : f.lsb ≠ 3)
    (hacc : f.access = .rw) (hok : f.accepts (fieldOf v.toNat f) = true) :
    (sdCctrlTaken s n v).get ⟨R.sdCctrl n, f.lsb, f.width⟩ = fieldOf v.toNat f := by
  have hapart : FieldsApart (fieldsAt (R.sdCctrl n)) := by rw [fieldsAt_sdCctrl n hn]; decide
  have hlt := (s.rd (R.sdCctrl n)).isLt
  rw [State.get, sdCctrlTaken, wr_rd_self, BitVec.toNat_ofNat, Nat.mod_eq_of_lt (applyFields_lt _ _ hlt)]
  refine applyFields_fieldOf v.toNat ⟨fun g hg => hapart.1 g (List.mem_of_mem_filter hg), hapart.2.filter _⟩ hlt ?_ hacc hok
  exact List.mem_filter.2 ⟨hf, by simp [h3]⟩

theorem sdCctrlTaken_sdOn (hn : n < 48) : (sdCctrlTaken s n v).sdOn n = bit v 0 := by
  have hget := sdCctrlTaken_get s v hn (f := ⟨0, 1, .rw, []⟩) (by simp [fieldsAt_sdCctrl n hn]) (by simp) rfl rfl
  rw [sdOn, flag, hget]
  rfl

theorem sdCctrlTaken_sdMode (hn : n < 48) : (sdCctrlTaken s n v).sdMode n = bits v 1 2 :=
  sdCctrlTaken_get s v hn (f := ⟨1, 2, .rw, []⟩) (by simp [fieldsAt_sdCctrl n hn]) (by simp) rfl rfl

theorem sdCctrlTaken_rd_ne {a : Nat} (h : a ≠ R.sdCctrl n) : (sdCctrlTaken s n v).rd a = s.rd a := wr_rd_ne _ _ _ _ h

theorem sdCctrlTaken_sdArmed (b : Nat) (hb : b < 12) : (sdCctrlTaken s n v).sdArmed b = s.sdArmed b := by
  have hne : R.sdBctrl b ≠ R.sdCctrl n := by simp only [R.sdBctrl, R.sdCctrl]; omega
  simp only [sdArmed, flag, State.get, sdCctrlTaken_rd_ne s v hne]

theorem sdCctrlTaken_sdPhase : (sdCctrlTaken s n v).sdPhase n = s.sdPhase n := by
  have hne : R.sdCstat n ≠ R.sdCctrl n := by simp only [R.sdCstat, R.sdCctrl]; omega
  simp only [sdPhase, State.get, sdCctrlTaken_rd_ne s v hne]

/-- PAIR of the even channel beside an odd one is not written. -/
theorem sdCctrlTaken_oddHalf : oddHalf (sdCctrlTaken s n v) n = oddHalf s n := by
  by_cases h : n % 2 = 1
  · have hne : R.sdCctrl (n - 1) ≠ R.sdCctrl n := by simp only [R.sdCctrl]; omega
    simp only [oddHalf, flag, State.get, sdCctrlTaken_rd_ne s v hne]
  · have heven : (n % 2 == 1) = false := by simpa using h
    simp only [oddHalf, heven, Bool.false_and]

/-! What follows the register -/

theorem ChannelStep.sdCctrlCleared : ChannelStep (n / 4) (sdCctrlTaken s n v) (sdCctrlCleared s n v) := by
  have hfclr := ite (p := bit v 10 = true ∧ bits v 0 1 = 0) (sdFclr (sdCctrlTaken s n v) n) (refl _ (sdCctrlTaken s n v))
  exact hfclr.trans (ite (clearCounters _ n) (refl _ _))

theorem ChannelStep.sdCctrlAnswered (t : State) : ChannelStep (n / 4) t (sdCctrlAnswered t n v) :=
  ite (sdErr t n 2) (refl _ t)

/-- The registers and records that an accepted write leaves beyond the register itself are the channels'. -/
theorem ChannelStep.sdCctrlWrite (h : SdCctrlAccepts s n v) :
    ChannelStep (n / 4) (sdCctrlTaken s n v) (sdCctrlWrite s n v).1 := by
  rw [sdCctrlWrite_of_accepts h]
  exact (((sdCctrlCleared s v).trans (sdEdge _ n _)).trans (sdMirror _ n)).trans (sdCctrlAnswered v _)

/-- CNTCLR clears counters alone. -/
theorem clearCounters_keeps {β : Type} (p : State → β) (t : State) (h : ∀ a ∈ sdCounters n, ∀ u, p (u.wr a 0) = p u) :
    p (if bit v 11 then t.clearAll (sdCounters n) else t) = p t := by
  split
  · exact clearAll_keeps p t _ h
  · rfl

theorem clearCounters_sdPhase (t : State) :
    (if bit v 11 then t.clearAll (sdCounters n) else t).sdPhase n = t.sdPhase n := by
  refine clearCounters_keeps v (·.sdPhase n) t fun a ha u => ?_
  have hne : R.sdCstat n ≠ a := by
    simp only [sdCounters, List.mem_cons, List.not_mem_nil, or_false] at ha
    rcases ha with rfl | rfl | rfl | rfl <;> simp
  simp only [sdPhase, State.get, wr_rd_ne _ _ _ _ hne]

/-- The phase before the edge of ON: only FCLR in FAULT changes it. -/
theorem sdCctrlCleared_sdPhase (h : s.sdPhase n ≠ 5) : (sdCctrlCleared s n v).sdPhase n = s.sdPhase n := by
  rw [sdCctrlCleared, clearCounters_sdPhase]
  split
  · rw [sdFclr_sdPhase, sdCctrlTaken_sdPhase, if_neg h]
  · rw [sdCctrlTaken_sdPhase]

/-- Without FCLR nothing is reported before the edge, and the queue stays. -/
theorem sdCctrlCleared_stage (h : bits v 0 1 = 1) : (sdCctrlCleared s n v).stage = s.stage := by
  rw [sdCctrlCleared, clearCounters_keeps v (·.stage) _ fun _ _ _ => rfl, if_neg (by simp [h])]
  rfl

/-- What the channel shows after an accepted write is what the edge of ON left. -/
theorem sdCctrlWrite_shown (h : SdCctrlAccepts s n v) (ho : oddHalf s n = false) :
    let t := sdEdge (sdCctrlCleared s n v) n (s.sdOn n)
    (sdCctrlWrite s n v).1.sdPhase n = t.sdPhase n ∧ (sdCctrlWrite s n v).1.stage = t.stage ∧
      (sdCctrlWrite s n v).1.flag (R.sdCstatPwmOn n) = t.flag (R.sdCstatPwmOn n) := by
  intro t
  have hstep : ChannelStep (n / 4) (sdCctrlTaken s n v) t :=
    (ChannelStep.sdCctrlCleared s v).trans (ChannelStep.sdEdge _ n _)
  have hmirror := hstep.trans (ChannelStep.sdMirror t n)
  have hot : oddHalf (sdCctrlTaken s n v) n = false := (sdCctrlTaken_oddHalf s v).trans ho
  obtain ⟨hphase, hon, -⟩ := hstep.shown hot
  rw [sdCctrlWrite_of_accepts h, sdCctrlAnswered]
  split
  · obtain ⟨hphase', hon', -⟩ := (hmirror.trans (ChannelStep.cstat _ n 8 4 2)).shown hot
    rw [sdErr, hphase', hon', set_sdPhase _ _ _ (by simp) (by simp), set_flag_ne _ _ _ _ (by simp) (by simp), sdMirror_stage,
      set_stage, sdMirror_stage]
    exact ⟨hphase, rfl, hon⟩
  · exact ⟨hphase, sdMirror_stage t n, hon⟩

end

end Sys2Proof.Machine

/-! A solenoid channel from its on command to the end of its decay, its modes, and the PWM cycle (03_solenoid_drive.md R60 to
R77). -/
namespace Sys2Proof.Machine
open State

section
variable (s : State) (n : Nat)

/-! Edges of ON (R60, R67) -/

theorem sdEdge_of_rise (ho : oddHalf s n = false) (hon : s.sdOn n = true) (ha : s.sdArmed (n / 4) = true) :
    sdEdge s n false = sdStart s n := by
  rw [sdEdge, if_neg (by simp [ho]), if_pos ⟨hon, rfl⟩, if_pos ha]

theorem sdEdge_of_fall (ho : oddHalf s n = false) (hoff : s.sdOn n = false) : sdEdge s n true = sdTurnOff s n := by
  rw [sdEdge, if_neg (by simp [ho]), if_neg (by simp), if_pos ⟨hoff, rfl⟩]

theorem sdStart_of_switched (ho : oddHalf s n = false) (hp : s.sdPhase n ≠ 5) (hm : s.sdMode n = 1) :
    sdStart s n = pullinRequest s n := by
  simp only [sdStart, if_neg (show ¬ (oddHalf s n = true ∨ s.sdPhase n = 5) by simp [ho, hp]), hm]

/-- An on command in mode SWITCHED requests a pull-in. -/
theorem sdOnCommand_requests (hn : n < 48) (ho : oddHalf s n = false) (hoff : s.sdOn n = false)
    (ha : s.sdArmed (n / 4) = true) (hm : s.sdMode n = 1) (hp : s.sdPhase n = 0) (hq : n ∉ (s.sdB (n / 4)).queue) :
    let t := (sdCctrlWrite s n (sdOnWord s n 1)).1
    t.sdOn n = true ∧ t.sdPhase n = 1 ∧ n ∈ (t.sdB (n / 4)).queue ∧ SameMemory s t := by
  intro t
  have hacc := sdOnWord_accepts s n 1
  have hbit : bits (sdOnWord s n 1) 0 1 = 1 := bits_sdOnWord_on s n 1
  have hmode : bits (sdOnWord s n 1) 1 2 = 1 := (bits_sdOnWord_of_pos s n 1 2 (by omega)).trans hm
  have hon : (sdCctrlTaken s n (sdOnWord s n 1)).sdOn n = true := by
    rw [sdCctrlTaken_sdOn s _ hn, bit_sdOnWord_on]
    rfl
  have hstep := ChannelStep.sdCctrlCleared s (n := n) (sdOnWord s n 1)
  have hstage : (sdCctrlCleared s n (sdOnWord s n 1)).stage = s.stage := sdCctrlCleared_stage s _ hbit
  have hedge : sdEdge (sdCctrlCleared s n (sdOnWord s n 1)) n (s.sdOn n) =
      pullinRequest (sdCctrlCleared s n (sdOnWord s n 1)) n := by
    have ho' := (hstep.oddHalf n).trans ((sdCctrlTaken_oddHalf s _).trans ho)
    rw [hoff, sdEdge_of_rise _ n ho' ((hstep.sdOn n).trans hon)
      ((hstep.sdArmed (by omega)).trans ((sdCctrlTaken_sdArmed s _ _ (by omega)).trans ha)), sdStart_of_switched _ n ho'
      (by rw [sdCctrlCleared_sdPhase s _ (by omega)]; omega)
      ((hstep.sdMode n).trans ((sdCctrlTaken_sdMode s _ hn).trans hmode))]
  obtain ⟨hphase, hstage', -⟩ := sdCctrlWrite_shown s _ hacc ho
  rw [hedge] at hphase hstage'
  have hwrite := ChannelStep.sdCctrlWrite s _ hacc
  refine ⟨(hwrite.sdOn n).trans hon, hphase.trans (pullinRequest_sdPhase _ n ?_), ?_, fun a => ?_⟩
  · rwa [sdB, hstage]
  · rw [sdB, hstage']
    exact mem_pullinRequest_queue _ n
  · rw [hwrite.mem]
    rfl

/-- An off command in hold opens the switch. -/
theorem sdOffCommand_opens (hn : n < 48) (ho : oddHalf s n = false) (hon : s.sdOn n = true) (hp : s.sdPhase n = 4) :
    let t := (sdCctrlWrite s n (sdOnWord s n 0)).1
    t.sdOn n = false ∧ t.sdPhase n = 6 ∧ t.flag (R.sdCstatPwmOn n) = false ∧ SameMemory s t := by
  intro t
  have hacc := sdOnWord_accepts s n 0
  have hoff : (sdCctrlTaken s n (sdOnWord s n 0)).sdOn n = false := by
    rw [sdCctrlTaken_sdOn s _ hn, bit_sdOnWord_on]
    rfl
  have hstep := ChannelStep.sdCctrlCleared s (n := n) (sdOnWord s n 0)
  have hedge : sdEdge (sdCctrlCleared s n (sdOnWord s n 0)) n (s.sdOn n) =
      sdTurnOff (sdCctrlCleared s n (sdOnWord s n 0)) n := by
    rw [hon, sdEdge_of_fall _ n ((hstep.oddHalf n).trans ((sdCctrlTaken_oddHalf s _).trans ho))
      ((hstep.sdOn n).trans hoff)]
  obtain ⟨hphase, -, hpwm⟩ := sdCctrlWrite_shown s _ hacc ho
  rw [hedge] at hphase hpwm
  have hwrite := ChannelStep.sdCctrlWrite s _ hacc
  have hhold : (sdCctrlCleared s n (sdOnWord s n 0)).sdPhase n = 4 := by rw [sdCctrlCleared_sdPhase s _ (by omega), hp]
  refine ⟨(hwrite.sdOn n).trans hoff, hphase.trans (sdTurnOff_sdPhase_of_conducting _ n (.inr (.inr hhold))),
    hpwm.trans (sdTurnOff_pwmOn _ n), fun a => ?_⟩
  rw [hwrite.mem]
  rfl

theorem exec_peakDwellEnd (hn : n < 48) (hp : s.sdPhase n = 3) : exec (.peakDwellEnd n) s =
    .next (sdMirror ((grantRelease (s.passTo (s.sdC n).dwellEnd) n).setSdPhase n 4) n) :=
  if_neg (by simp only [hp]; omega)

theorem exec_decayEnd (hn : n < 48) (hp : s.sdPhase n = 6) :
    exec (.decayEnd n) s = .next (sdMirror (s.setSdPhase n 0) n) := if_neg (by simp only [hp]; omega)

end

/-- Settles O13: an on or off command is an accepted write of SD_CCTRL, whose edge requests a pull-in or turns the channel off;
grant, peak, dwell and decay each set the next phase, which the mirror of a pair leaves. -/
theorem solenoidSequenceRuns : Obligations.SolenoidSequenceRuns := by
  intro s n tpk uA l dip hn ho
  have hcpull : R.sdCpull n < R.sdCctrl n + 128 := by simp only [R.sdCpull, R.sdCctrl]; omega
  have hbstat : R.sdBstat (n / 4) < R.sdCctrl n + 128 := by simp only [R.sdBstat, R.sdCctrl]; omega
  refine ⟨fun hh hoff ha hm hp hq => ⟨_, exec_sdOnCommand_free s hn hh, sdOnCommand_requests s n hn ho hoff ha hm hp hq⟩,
    fun hq hg hd => ?_, fun hp ht hi hdwell => ?_, fun hp ht hi hdwell => ?_, fun hp => ?_,
    fun hh hon hp => ⟨_, exec_sdOffCommand_free s hn hh, sdOffCommand_opens s n hn ho hon hp⟩, exec_decayEnd s n hn,
    fun hh => ⟨exec_sdOnCommand_free s hn hh, exec_sdOffCommand_free s hn hh⟩,
    fun hh => ⟨?_, ?_⟩⟩
  · have hstep := ChannelStep.sdGranted s n l
    obtain ⟨hphase, -, hget⟩ := hstep.shown ho
    obtain ⟨hgranted, hgrant⟩ := sdGranted_grant s n l
    refine ⟨_, exec_pullinGrant s n hn hq hg hd, hphase.trans (sdGranted_sdPhase s n l), ?_, ?_,
      (hget _ hbstat).trans hgrant, ?_, ?_, ?_, fun a => ?_⟩
    · rw [sdMirror_sdB, sdGranted_queue]
    · rwa [flag, hget _ hbstat]
    · rw [sdMirror_sdC, sdGranted_sdC]
    · rw [sdMirror_sdC, sdGranted_sdC]
    · rw [sdMirror_sdC, sdGranted_sdC]
    · rw [sdMirror_mem, hstep.mem]
  · have hstep := (ChannelStep.sdPeakShown s n tpk dip).trans (ChannelStep.setSdC _ n
      { s.sdC n with dwellEnd := max s.now ((s.sdC n).grantAt + us tpk) + us (100 * (s.sdC n).dwell) })
    have hstep3 := hstep.trans (ChannelStep.setSdPhase _ n 3)
    obtain ⟨hphase, -, hget⟩ := hstep3.shown ((passTo_oddHalf s n _).trans ho)
    refine ⟨_, exec_peakReached_dwell s n dip hn hp ht hi hdwell, hphase.trans (setSdPhase_sdPhase _ n (by omega)),
      (hget _ hcpull).trans ?_, ?_, fun a => ?_⟩
    · have hcstat : R.sdCpull n ≠ R.sdCstat n := by simp only [R.sdCpull, R.sdCstat]; omega
      rw [setSdPhase_get_ne _ _ _ hcstat, setSdC_get]
      exact sdPeakShown_tpk s n dip (ht.trans_lt (get_lt s _))
    · rw [sdMirror_sdC, setSdPhase_sdC, setSdC_sdC_self]
    · rw [sdMirror_mem, hstep3.mem, passTo_mem]
  · have hstep := ChannelStep.sdPeakShown s n tpk dip
    obtain ⟨hphase, hgranted⟩ := grantRelease_hold n hstep ((passTo_oddHalf s n _).trans ho)
    refine ⟨_, exec_peakReached_hold s n dip hn hp ht hi hdwell, hphase, fun hg => hgranted ?_, fun a => ?_⟩
    · rw [sdPeakShown_grant, hg]
    · rw [sdMirror_mem, setSdPhase_mem, grantRelease_mem, hstep.mem, passTo_mem]
  · have hstep := ChannelStep.refl (n / 4) (s.passTo (s.sdC n).dwellEnd)
    obtain ⟨hphase, hgranted⟩ := grantRelease_hold n hstep ((passTo_oddHalf s n _).trans ho)
    refine ⟨_, exec_peakDwellEnd s n hn hp, hphase, ?_, fun hg => hgranted (by rw [passTo_get, hg]), fun a => ?_⟩
    · rw [sdMirror_now, setSdPhase_now, grantRelease_now, passTo_now]
    · rw [sdMirror_mem, setSdPhase_mem, grantRelease_mem, passTo_mem]
  · rw [exec_sdOnCommand s hn, stageNow_sdCctrl_held s hn _ _ hh]
  · rw [exec_sdOffCommand s hn, stageNow_sdCctrl_held s hn _ _ hh]

end Sys2Proof.Machine

/-! The mode of a solenoid channel and its PWM cycle (03_solenoid_drive.md R60, R72, R77). -/
namespace Sys2Proof.Machine
open State

section
variable (s : State) (n : Nat)

/-- An accepted write of a disarmed bank takes MODE and ON. -/
theorem sdCctrlWrite_of_disarmed (v : Word) (hn : n < 48) (ha : s.sdArmed (n / 4) = false) (hv : bits v 3 1 = 0) :
    let t := (sdCctrlWrite s n v).1
    t.sdMode n = bits v 1 2 ∧ t.sdOn n = bit v 0 ∧ SameMemory s t := by
  intro t
  have hstep := ChannelStep.sdCctrlWrite s (n := n) v ⟨.inl ha, fun h => by omega⟩
  refine ⟨(hstep.sdMode n).trans (sdCctrlTaken_sdMode s v hn), (hstep.sdOn n).trans (sdCctrlTaken_sdOn s v hn), fun a => ?_⟩
  rw [hstep.mem]
  rfl

/-! The PWM cycle (R72) -/

/-- The frames of the on-interval that a cycle starting now has. -/
def sdOnFrames (s : State) (n : Nat) : Nat := s.get (R.sdCdutyDuty n) * s.get (R.sdCpwmPeriod n) / 1000

/-- The channel takes the duty of the new cycle. -/
def sdDutyTaken (s : State) (n : Nat) : State := s.setSdC n { s.sdC n with duty := s.get (R.sdCdutyDuty n) }

theorem exec_sdPwmCycleStart (hn : n < 48) (hm : s.sdMode n = 3) (ho : oddHalf s n = false)
    (hf : s.dieFrame (n / 16) % s.get (R.sdCpwmPeriod n) = sdEffPhase s n) : exec (.sdPwmCycleStart n) s =
      if s.sdOn n = false ∨ s.sdArmed (n / 4) = false ∨ s.sdPhase n = 5 then .next (sdDutyTaken s n)
      else if sdOnFrames s n = 0 then .next (sdMirror (sdTurnOff (sdDutyTaken s n) n) n)
      else if s.flag (R.sdCstatPwmOn n) then .next ((sdDutyTaken s n).setSdC n
        { (sdDutyTaken s n).sdC n with onEnd := s.dieFrame (n / 16) + sdOnFrames s n })
      else .next (sdMirror (sdOnInterval (sdDutyTaken s n) n (s.dieFrame (n / 16) + sdOnFrames s n)) n) :=
  if_neg (by simp [hm, ho, hf]; omega)

/-- An on-interval begins with a pull-in request. -/
theorem sdOnInterval_begins (stop : Nat) (hq : n ∉ (s.sdB (n / 4)).queue) :
    let t := sdOnInterval s n stop
    (t.sdC n).duty = (s.sdC n).duty ∧ (t.sdC n).onEnd = stop ∧ t.flag (R.sdCstatPwmOn n) = true ∧ t.sdPhase n = 1 ∧
      n ∈ (t.sdB (n / 4)).queue := by
  intro t
  obtain ⟨hduty, hend⟩ := pullinRequest_cycle ((s.setSdC n { s.sdC n with onEnd := stop }).set (R.sdCstatPwmOn n) 1) n
  rw [set_sdC, setSdC_sdC_self] at hduty hend
  refine ⟨hduty, hend, (pullinRequest_pwmOn _ n).trans (set_flag _ _ _ (by simp) rfl), pullinRequest_sdPhase _ n ?_,
    mem_pullinRequest_queue _ n⟩
  rwa [set_sdB, setSdC_sdB]

theorem exec_sdPwmOnEnd (hn : n < 48) (hon : s.flag (R.sdCstatPwmOn n) = true) (hd : (s.sdC n).duty ≠ 1000)
    (he : (s.sdC n).onEnd ≤ s.dieFrame (n / 16)) : exec (.sdPwmOnEnd n) s = .next (sdMirror (sdTurnOff s n) n) :=
  if_neg (by simp [hon, hd]; omega)

/-- A turn-off withdraws a queued request and reports it (R77). -/
theorem sdTurnOff_withdraws (h : s.sdPhase n = 1) :
    (sdTurnOff s n).sdPhase n = 0 ∧ n ∉ ((sdTurnOff s n).sdB (n / 4)).queue ∧
      ((sdTurnOff s n).dieAt (n / 16)).reports = (s.dieAt (n / 16)).reports ++
        [.bits (R.sdCdiag n) 6 1 1, .tally (R.sdCwdrns n), .irq (16 + n / 4)] := by
  rw [sdTurnOff_of_queued s n h, pullinWithdraw_reports, set_dieAt]
  exact ⟨pullinWithdraw_sdPhase _ n, not_mem_pullinWithdraw_queue _ n, rfl⟩

end

/-- Settles O15: what an armed bank refuses, what a disarmed one takes, and the branches of a PWM cycle start, whose effects are
a pull-in request and a channel turn-off. -/
theorem solenoidModesAndNozzles : Obligations.SolenoidModesAndNozzles := by
  intro s n v hn
  have hstart := exec_sdPwmCycleStart s n hn
  refine ⟨fun hh ha he hch => ?_, fun hh ha hv => ⟨_, exec_sdModeWrite_free s hn v hh,
      sdCctrlWrite_of_disarmed s n v hn ha hv⟩, fun hm ho hf hon ha hp hq hpwm hd => ?_, fun hon ho hd he => ?_,
    exec_sdModeWrite_free s hn v, fun hh => ?_, fun hm ho hf hoff => ?_, fun hm ho hf hon ha hp hd => ?_,
    fun hm ho hf hon ha hp hd hpwm => ?_, exec_sdPwmOnEnd s n hn⟩
  · rw [exec_sdModeWrite_free s hn v hh, sdCctrlWrite_of_changed ha he hch]
  · have hbegin := sdOnInterval_begins (sdDutyTaken s n) n (s.dieFrame (n / 16) + sdOnFrames s n) hq
    rw [sdDutyTaken, setSdC_sdC_self, ← sdDutyTaken] at hbegin
    obtain ⟨hduty, hend, hflag, hphase, hqueue⟩ := hbegin
    have hstep := (ChannelStep.setSdC s n _).trans
      (ChannelStep.sdOnInterval (sdDutyTaken s n) n (s.dieFrame (n / 16) + sdOnFrames s n))
    obtain ⟨hphase', hflag', -⟩ := hstep.shown ho
    refine ⟨_, (hstart hm ho hf).trans
      ((if_neg (by simp [hon, ha, hp])).trans ((if_neg hd).trans (if_neg (by simp [hpwm])))),
      ?_, ?_, hflag'.trans hflag, hphase'.trans hphase, ?_, fun a => ?_⟩
    · rw [sdMirror_sdC, hduty]
    · rw [sdMirror_sdC, hend, sdOnFrames]
    · rwa [sdMirror_sdB]
    · rw [sdMirror_mem, hstep.mem]
  · have hstep := ChannelStep.sdTurnOff s n
    obtain ⟨hphase, hflag, -⟩ := hstep.shown ho
    refine ⟨_, exec_sdPwmOnEnd s n hn hon hd he, hflag.trans (sdTurnOff_pwmOn s n), fun hp => ?_, fun hp => ?_, fun a => ?_⟩
    · exact hphase.trans (sdTurnOff_sdPhase_of_conducting s n (.inr (.inr hp)))
    · rw [hphase, sdMirror_sdB, sdMirror_dieAt]
      exact sdTurnOff_withdraws s n hp
    · rw [sdMirror_mem, hstep.mem]
  · rw [exec_sdModeWrite s hn, stageNow_sdCctrl_held s hn _ _ hh]
  · rw [hstart hm ho hf, if_pos hoff, sdDutyTaken]
  · rw [hstart hm ho hf, if_neg (by simp [hon, ha, hp]), if_pos (show sdOnFrames s n = 0 from hd), sdDutyTaken]
  · rw [hstart hm ho hf, if_neg (by simp [hon, ha, hp]), if_neg (show sdOnFrames s n ≠ 0 from hd), if_pos hpwm, sdDutyTaken,
      setSdC_setSdC, setSdC_sdC_self, sdOnFrames]

end Sys2Proof.Machine

/-! What an operation of one switch channel may change (04_load_switches.md R93 to R108). -/
namespace Sys2Proof.Machine
open State

namespace State

@[simp] theorem setLsC_lsC_self (s : State) (n : Nat) (x : LsChan) : (s.setLsC n x).lsC n = x := by simp [setLsC_lsC]
@[simp] theorem setLsG_lsG_self (s : State) (g : Nat) (x : LsGroup) : (s.setLsG g x).lsG g = x := by simp [setLsG_lsG]

@[simp] theorem tell_lsC (s : State) (d : Nat) (l : List Report) (n : Nat) : (s.tell d l).lsC n = s.lsC n := rfl
@[simp] theorem tell_lsPhase (s : State) (d : Nat) (l : List Report) (n : Nat) : (s.tell d l).lsPhase n = s.lsPhase n := rfl
@[simp] theorem tell_lsArmed (s : State) (d : Nat) (l : List Report) (g : Nat) : (s.tell d l).lsArmed g = s.lsArmed g := rfl
@[simp] theorem setLsC_lsPhase (s : State) (n k : Nat) (x : LsChan) : (s.setLsC n x).lsPhase k = s.lsPhase k := rfl

section
variable (s : State) (n p : Nat)

@[simp] theorem setLsPhase_lsC (k : Nat) : (s.setLsPhase n p).lsC k = s.lsC k := rfl

theorem setLsPhase_lsPhase {p : Nat} (h : p < 8) : (s.setLsPhase n p).lsPhase n = p :=
  (set_get s _ p (by simp)).trans (Nat.mod_eq_of_lt h)

/-- A field of a register other than CSTAT of channel n, or above PHASE, leaves its phase. -/
theorem set_lsPhase {f : Fld} (v : Nat) (hf : f.lsb + f.width ≤ 32) (h : f.addr ≠ R.lsCstat n ∨ 3 ≤ f.lsb) :
    (s.set f v).lsPhase n = s.lsPhase n :=
  set_get_ne _ _ _ _ hf (h.imp Ne.symm .inl)

end
end State

/-- The address of a status register of switch channel n: LS_CSTAT to LS_CCNT. -/
def LsStatusReg (n a : Nat) : Prop := R.lsCctrl n + 0x30 ≤ a ∧ a < R.lsCctrl n + 0x50

/-- What an operation of switch channel n may change is its status registers, its record, the reports that wait at the dies and,
during a load dump, the deferred actions. -/
structure SwitchStep (n : Nat) (s t : State) : Prop where
  mem : t.mem = s.mem
  now : t.now = s.now
  rd : ∀ a, ¬ LsStatusReg n a → t.rd a = s.rd a
  lsC : ∀ k, k ≠ n → t.lsC k = s.lsC k
  lsDefer : s.flag (R.lsGstatDefer (n / 4)) = false → t.stage.lsDefer = s.stage.lsDefer

namespace SwitchStep

theorem refl (n : Nat) (s : State) : SwitchStep n s s := ⟨rfl, rfl, fun _ _ => rfl, fun _ _ => rfl, fun _ => rfl⟩

section
variable {n : Nat} {s t u : State}

/-- A register below those of the channels, as the groups' are, is no status register. -/
theorem not_statusReg_low (n : Nat) {a : Nat} (ha : a < 0x20041000) : ¬ LsStatusReg n a := by
  rintro ⟨hlo, -⟩
  simp only [R.lsCctrl] at hlo
  omega

theorem flag_low (h : SwitchStep n s t) {f : Fld} (hf : f.addr < 0x20041000) : t.flag f = s.flag f := by
  simp only [flag, State.get, h.rd _ (not_statusReg_low n hf)]

theorem trans (h : SwitchStep n s t) (k : SwitchStep n t u) : SwitchStep n s u where
  mem := k.mem.trans h.mem
  now := k.now.trans h.now
  rd a ha := (k.rd a ha).trans (h.rd a ha)
  lsC m hm := (k.lsC m hm).trans (h.lsC m hm)
  lsDefer hd := by
    have hlow : ¬ LsStatusReg n (R.lsGstat (n / 4)) := fun ⟨hlo, _⟩ => by
      simp only [R.lsCctrl, R.lsGstat] at hlo
      omega
    have hflag : t.flag (R.lsGstatDefer (n / 4)) = s.flag (R.lsGstatDefer (n / 4)) := by
      simp only [flag, State.get, h.rd _ hlow]
    exact (k.lsDefer (hflag.trans hd)).trans (h.lsDefer hd)

theorem ite {p : Prop} [Decidable p] (h : SwitchStep n s t) (k : SwitchStep n s u) :
    SwitchStep n s (if p then t else u) := by
  split
  · exact h
  · exact k

end

/-! The elementary updates -/
section
variable (s : State) (n : Nat)

theorem set {n : Nat} {f : Fld} (h : LsStatusReg n f.addr) (v : Nat) : SwitchStep n s (s.set f v) :=
  ⟨rfl, rfl, fun a ha => set_rd_ne s f v a (by rintro rfl; exact ha h), fun _ _ => rfl, fun _ => rfl⟩

theorem cstat (l w v : Nat) : SwitchStep n s (s.set ⟨R.lsCstat n, l, w⟩ v) :=
  set s ⟨by simp only [R.lsCctrl, R.lsCstat]; omega, by simp only [R.lsCctrl, R.lsCstat]; omega⟩ v

theorem cenergy (l w v : Nat) : SwitchStep n s (s.set ⟨R.lsCenergy n, l, w⟩ v) :=
  set s ⟨by simp only [R.lsCctrl, R.lsCenergy]; omega, by simp only [R.lsCctrl, R.lsCenergy]; omega⟩ v

theorem setLsPhase (p : Nat) : SwitchStep n s (s.setLsPhase n p) := cstat s n 0 3 p

theorem setLsC (x : LsChan) : SwitchStep n s (s.setLsC n x) :=
  ⟨rfl, rfl, fun _ _ => rfl, fun k hk => (setLsC_lsC s n k x).trans (if_neg hk), fun _ => rfl⟩

theorem tell (d : Nat) (l : List Report) : SwitchStep n s (s.tell d l) :=
  ⟨rfl, rfl, fun _ _ => rfl, fun _ _ => rfl, fun _ => rfl⟩

theorem fresh : SwitchStep n s s.fresh := ⟨rfl, rfl, fun _ _ => rfl, fun _ _ => rfl, fun _ => rfl⟩

/-! The operations of a channel -/

theorem lsOpen : SwitchStep n s (lsOpen s n) := ite (setLsC s n _) (refl n s)

theorem lsLeak : SwitchStep n s (lsLeak s n) := (setLsC s n _).trans (cenergy _ n _ _ _)

theorem lsOffNow : SwitchStep n s (lsOffNow s n) :=
  (((lsOpen s n).trans (setLsC _ n _)).trans (cstat _ n 3 1 0)).trans (ite (refl n _) (setLsPhase _ n 0))

theorem channelLock (e : Nat) : SwitchStep n s (channelLock s n e) :=
  (((lsOffNow s n).trans (setLsPhase _ n 5)).trans (tell _ n _ _)).trans (tell _ n _ _)

theorem lsClampEnd (microJ : Nat) : SwitchStep n s (lsClampEnd s n microJ) :=
  (((((lsLeak s n).trans (setLsC _ n _)).trans (cenergy _ n _ _ _)).trans (cenergy _ n _ _ _)).trans (tell _ n _ _)).trans
    (ite (channelLock _ n _) (refl n _))

theorem lsClose : SwitchStep n s (lsClose s n) :=
  (setLsC s n _).trans (ite (refl n _) (ite (fresh _ n) ((fresh _ n).trans (lsClampEnd _ n _))))

theorem lsPwmStart : SwitchStep n s (lsPwmStart s n) := (setLsC s n _).trans (ite (lsClose _ n) (refl n _))

theorem lsDrive : SwitchStep n s (lsDrive s n) := by
  refine (setLsPhase s n 1).trans ?_
  unfold Machine.lsDrive
  dsimp only
  split
  · exact lsClose _ n
  · exact lsPwmStart _ n
  · exact ite (lsClose _ n) (setLsC _ n _)
  · exact refl n _

/-- During a load dump the actions deferred grow. -/
theorem lsDeferAction (on : Bool) (hd : s.flag (R.lsGstatDefer (n / 4)) = true) : SwitchStep n s (lsDeferAction s n on) := by
  have happend : SwitchStep n s { s with stage := { s.stage with lsDefer := s.stage.lsDefer ++ [(n, on)] } } :=
    ⟨rfl, rfl, fun _ _ => rfl, fun _ _ => rfl, fun h => by simp [hd] at h⟩
  exact (happend.trans (ite (setLsPhase _ n 6) (refl n _))).trans (tell _ n _ _)

theorem lsSwitchOn : SwitchStep n s (lsSwitchOn s n) := by
  unfold Machine.lsSwitchOn
  split
  · exact refl n s
  · split
    case isTrue hd => exact lsDeferAction s n true hd
    case isFalse =>
      exact (((setLsC s n _).trans (cstat _ n 3 1 _)).trans (ite (refl n _) (lsDrive _ n))).trans (tell _ n _ _)

theorem lsTurnOff : SwitchStep n s (lsTurnOff s n) := by
  unfold Machine.lsTurnOff
  split
  · exact lsOffNow s n
  case isFalse hd =>
    rw [Bool.not_eq_false] at hd
    have hcancel : SwitchStep n s { s with stage := { s.stage with
        lsDefer := s.stage.lsDefer.filter fun e => e != (n, true) } } :=
      ⟨rfl, rfl, fun _ _ => rfl, fun _ _ => rfl, fun h => by simp [hd] at h⟩
    split
    · exact hcancel.trans (ite (setLsPhase _ n 1) (setLsPhase _ n 0))
    · exact ite (refl n s) (ite (lsDeferAction s n false hd) (lsOffNow s n))

theorem lsEdge (before : Bool) : SwitchStep n s (lsEdge s n before) :=
  ite (ite (lsSwitchOn s n) (refl n s))
    (ite ((setLsC s n _).trans (ite (lsTurnOff _ n) (refl n _))) (refl n s))

end
end SwitchStep
end Sys2Proof.Machine

/-! The clamp of a switch channel: its bucket, lock and unlock (04_load_switches.md R101, R102). -/
namespace Sys2Proof.Machine
open State

section
variable (s : State) (n : Nat)

/-- Opening changes the record of a closed channel alone; an open one stays as it is (R101). -/
theorem lsOpen_eq : lsOpen s n =
    s.setLsC n { s.lsC n with out := false, clamp := (s.lsC n).clamp || (s.lsC n).out } ∨
    ((s.lsC n).out = false ∧ lsOpen s n = s) := by
  by_cases h : (s.lsC n).out = true
  · exact .inl (by simp [lsOpen, h])
  · exact .inr ⟨Bool.eq_false_iff.2 h, if_neg h⟩

/-- Opening leaves what does not read the records of channels. -/
theorem lsOpen_keeps {β : Type} (p : State → β) (h : ∀ x, p (s.setLsC n x) = p s) : p (lsOpen s n) = p s := by
  rcases lsOpen_eq s n with e | ⟨-, e⟩ <;> rw [e]
  exact h _

@[simp] theorem lsOpen_now : (lsOpen s n).now = s.now := lsOpen_keeps s n (·.now) fun _ => rfl
@[simp] theorem lsOpen_mem : (lsOpen s n).mem = s.mem := lsOpen_keeps s n (·.mem) fun _ => rfl
@[simp] theorem lsOpen_dieAt (d : Nat) : (lsOpen s n).dieAt d = s.dieAt d := lsOpen_keeps s n (·.dieAt d) fun _ => rfl
theorem lsOpen_lsC : (lsOpen s n).lsC n =
    { s.lsC n with out := false, clamp := (s.lsC n).clamp || (s.lsC n).out } := by
  rcases lsOpen_eq s n with e | ⟨hout, e⟩
  · rw [e, setLsC_lsC_self]
  · rw [e, hout, Bool.or_false, ← hout]

theorem lsOffNow_lsC : (lsOffNow s n).lsC n =
    { s.lsC n with out := false, clamp := (s.lsC n).clamp || (s.lsC n).out, soft := 0 } := by
  unfold lsOffNow
  dsimp only
  split <;> simp [lsOpen_lsC]

/-- A lock leaves the phase LOCKED and the switch open (R102). -/
theorem channelLock_lsPhase (e : Nat) : (channelLock s n e).lsPhase n = 5 := by
  rw [channelLock, tell_lsPhase, lsDiag, tell_lsPhase, setLsPhase_lsPhase _ n (by omega)]

theorem channelLock_lsC (e : Nat) : (channelLock s n e).lsC n =
    { s.lsC n with out := false, clamp := (s.lsC n).clamp || (s.lsC n).out, soft := 0 } := lsOffNow_lsC s n

/-! The leak (R101) -/

theorem lsLeak_lsC : (lsLeak s n).lsC n =
    { s.lsC n with bucket := leaked (s.lsC n).bucket (s.lsC n).leakAt s.now (lsLeakOf n), leakAt := s.now } := by
  rw [lsLeak, set_lsC, setLsC_lsC_self]

theorem lsLeak_now : (lsLeak s n).now = s.now := (SwitchStep.lsLeak s n).now
theorem lsLeak_dieAt (d : Nat) : (lsLeak s n).dieAt d = s.dieAt d := by rw [lsLeak, set_dieAt, setLsC_dieAt]

theorem lsCenergy_ne_lsCstat : R.lsCenergy n ≠ R.lsCstat n := by simp only [R.lsCenergy, R.lsCstat]; omega

theorem lsLeak_lsPhase : (lsLeak s n).lsPhase n = s.lsPhase n :=
  set_lsPhase _ n _ (by simp) (.inl (lsCenergy_ne_lsCstat n))

theorem lsLeak_lock : (lsLeak s n).flag (R.lsCdiagLock n) = s.flag (R.lsCdiagLock n) :=
  set_flag_ne _ _ _ _ (by simp) (.inl (by simp only [R.lsCdiag, R.lsCenergy]; omega))

/-! The end of a clamp event (R101) -/

/-- The bucket after the leak up to now and a clamp event of microJ. -/
def lsChargedBucket (s : State) (n microJ : Nat) : Nat :=
  leaked (s.lsC n).bucket (s.lsC n).leakAt s.now (lsLeakOf n) + microJ * 1000000

/-- The clamp event ends and its energy is charged, before a lock is judged. -/
def lsCharged (s : State) (n microJ : Nat) : State :=
  ((((lsLeak s n).setLsC n { (lsLeak s n).lsC n with bucket := lsChargedBucket s n microJ, clamp := false }).set
    (R.lsCenergyBucket n) (tenthMilliJ (lsChargedBucket s n microJ))).set
    (R.lsCenergyLast n) (tenthMilliJ (microJ * 1000000))).tell (lsDie n) [.tally (R.lsCclamps n)]

theorem lsClampEnd_eq (microJ : Nat) : lsClampEnd s n microJ =
    if microJ * 1000000 > lsEmax n ∨ lsChargedBucket s n microJ ≥ lsBudget n then
      channelLock (lsCharged s n microJ) n (microJ * 1000000) else lsCharged s n microJ := by
  have hbucket : ((lsLeak s n).lsC n).bucket + microJ * 1000000 = lsChargedBucket s n microJ := by
    rw [lsLeak_lsC, lsChargedBucket]
  rw [lsClampEnd, hbucket, lsCharged]

theorem lsCharged_lsC (microJ : Nat) : (lsCharged s n microJ).lsC n =
    { s.lsC n with bucket := lsChargedBucket s n microJ, leakAt := s.now, clamp := false } := by
  rw [lsCharged, tell_lsC, set_lsC, set_lsC, setLsC_lsC_self, lsLeak_lsC]

theorem lsCharged_lsPhase (microJ : Nat) : (lsCharged s n microJ).lsPhase n = s.lsPhase n := by
  rw [lsCharged, tell_lsPhase, set_lsPhase _ n _ (by simp) (.inl (lsCenergy_ne_lsCstat n)),
    set_lsPhase _ n _ (by simp) (.inl (lsCenergy_ne_lsCstat n)), setLsC_lsPhase, lsLeak_lsPhase]

/-- LS_CENERGY shows the energy of the last event in 0.1 mJ. -/
theorem lsCharged_energyLast (microJ : Nat) :
    (lsCharged s n microJ).get (R.lsCenergyLast n) = tenthMilliJ (microJ * 1000000) := by
  have hle : tenthMilliJ (microJ * 1000000) ≤ 65535 := Nat.min_le_right _ _
  rw [lsCharged, tell_get, set_get _ _ _ (by simp), Nat.mod_eq_of_lt (by simp only; omega)]

theorem tenthMilliJ_of_small {microJ : Nat} (he : microJ ≤ 400000) : tenthMilliJ (microJ * 1000000) = microJ / 100 := by
  rw [tenthMilliJ, show microJ * 1000000 / 100000000 = microJ / 100 by omega]
  exact Nat.min_eq_left (by omega)

/-- A small event into a bucket below the budget is charged, and nothing locks. -/
theorem lsClampEnd_of_small {microJ : Nat} (he : microJ * 1000000 ≤ lsEmax n) (hv : lsChargedBucket s n microJ < lsBudget n) :
    lsClampEnd s n microJ = lsCharged s n microJ := by
  rw [lsClampEnd_eq, if_neg (by omega)]

/-- Too great an event or a spent budget locks the channel. -/
theorem lsClampEnd_of_great {microJ : Nat} (h : lsEmax n < microJ * 1000000 ∨ lsBudget n ≤ lsChargedBucket s n microJ) :
    lsClampEnd s n microJ = channelLock (lsCharged s n microJ) n (microJ * 1000000) := by
  rw [lsClampEnd_eq, if_pos h]

/-! The unlock (R102) -/

variable (hh : s.lsHeld n = false)
include hh

/-- Below half the budget the unlock is taken; a channel that is latched as well stays LATCHED (R100). -/
theorem lsUnlock_of_low (h : leaked (s.lsC n).bucket (s.lsC n).leakAt s.now (lsLeakOf n) < lsBudget n / 2) :
    (lsUnlock s n).1.flag (R.lsCdiagLock n) = false ∧ (lsUnlock s n).1.lsPhase n =
      if s.lsPhase n = 5 then (if (s.lsC n).latched = true then 4 else 0) else s.lsPhase n := by
  have hlow : ((lsLeak s n).lsC n).bucket < lsBudget n / 2 := by rwa [lsLeak_lsC]
  have hne : R.lsCdiag n ≠ R.lsCstat n := by simp only [R.lsCdiag, R.lsCstat]; omega
  have hphase : ((lsLeak s n).set (R.lsCdiagLock n) 0).lsPhase n = s.lsPhase n := by
    rw [set_lsPhase _ n _ (by simp) (.inl hne), lsLeak_lsPhase]
  have hlock : ((lsLeak s n).set (R.lsCdiagLock n) 0).flag (R.lsCdiagLock n) = false := set_flag _ _ _ (by simp) rfl
  have hlatched : (((lsLeak s n).set (R.lsCdiagLock n) 0).lsC n).latched = (s.lsC n).latched := by
    rw [set_lsC, lsLeak_lsC]
  rw [lsUnlock, if_neg (by simp [hh]), if_pos hlow]
  dsimp only
  rw [tell_flag, tell_lsPhase, hphase, hlatched]
  split
  · refine ⟨(set_flag_ne _ _ _ _ (by simp) (.inl hne)).trans hlock, setLsPhase_lsPhase _ n ?_⟩
    split <;> omega
  · exact ⟨hlock, hphase⟩

/-- From half the budget on LOCK stays, and the die reports ERR 5. -/
theorem lsUnlock_of_high (h : lsBudget n / 2 ≤ leaked (s.lsC n).bucket (s.lsC n).leakAt s.now (lsLeakOf n)) :
    (lsUnlock s n).1 = (lsLeak s n).tell (lsDie n) [.bits (R.lsCstat n) 8 4 5] := by
  have hhigh : ¬ ((lsLeak s n).lsC n).bucket < lsBudget n / 2 := by rw [lsLeak_lsC]; exact Nat.not_lt.2 h
  rw [lsUnlock, if_neg (by simp [hh]), if_neg hhigh]

end

section
variable (s : State) {n : Nat} (hn : n < 32)
include hn

theorem exec_lsClampEventEnd (uJ : Nat) (hc : (s.lsC n).clamp = true) :
    exec (.lsClampEventEnd n uJ) s = .next (lsClampEnd s n uJ) := if_neg (by simp [hc]; omega)

theorem exec_lsBucketLeak : exec (.lsBucketLeak n) s = .next (lsLeak (s.passTo ((s.lsC n).leakAt + ms 1)) n) :=
  if_neg (by omega)

theorem exec_lsUnlock : exec (.lsUnlock n) s = .next (lsUnlock s n).1 := if_neg (by omega)

end

/-- The limits of Table 4-2 as the statement writes them. -/
theorem lsBudget_half (n : Nat) : lsBudget n / 2 = if n < 8 then 1000000000000 else 300000000000 := by
  unfold lsBudget
  split <;> rfl

theorem lsEmax_eq (n : Nat) : lsEmax n = (if n < 8 then 400000 else 120000) * 1000000 := by
  unfold lsEmax
  split <;> rfl

/-- Settles O22: a clamp event is a leak, a charge and, where it is too great, a lock, which leaves the bucket as charged; an
unlock is judged after a leak. -/
theorem switchClampsAreBudgeted : Obligations.SwitchClampsAreBudgeted := by
  intro s n uJ hn
  refine ⟨⟨_, exec_lsBucketLeak s hn, ?_⟩, fun hc he hv => ⟨_, exec_lsClampEventEnd s hn uJ hc, ?_⟩,
    fun hc h => ⟨_, exec_lsClampEventEnd s hn uJ hc, ?_⟩, fun hh h => ⟨_, exec_lsUnlock s hn, ?_⟩,
    fun hh h => ⟨_, exec_lsUnlock s hn, ?_⟩, exec_lsUnlock s hn, exec_lsBucketLeak s hn, exec_lsClampEventEnd s hn uJ⟩
  · rw [lsLeak_lsC, lsLeak_now, passTo_lsC, passTo_now]
    exact ⟨rfl, rfl⟩
  · have hsmall : uJ ≤ 400000 := by split at he <;> omega
    rw [lsClampEnd_of_small s n (by rw [lsEmax_eq]; exact Nat.mul_le_mul_right _ he) hv, lsCharged_energyLast,
      tenthMilliJ_of_small hsmall, lsCharged_lsC, lsCharged_lsPhase]
    exact ⟨rfl, rfl, rfl, rfl, fun a => by
      rw [lsCharged, tell_mem, set_mem, set_mem, setLsC_mem, (SwitchStep.lsLeak s n).mem]⟩
  · have hmem := (SwitchStep.lsClampEnd s n uJ).mem
    have hgreat : lsEmax n < uJ * 1000000 ∨ lsBudget n ≤ lsChargedBucket s n uJ :=
      h.imp_left fun he => by rw [lsEmax_eq]; exact Nat.mul_lt_mul_of_pos_right he (by omega)
    rw [lsClampEnd_of_great s n hgreat] at hmem ⊢
    rw [channelLock_lsC, channelLock_lsPhase, lsCharged_lsC]
    exact ⟨rfl, rfl, rfl, fun a => by rw [hmem]⟩
  · exact lsUnlock_of_low s n hh (by rwa [lsBudget_half])
  · rw [lsUnlock_of_high s n hh (by rwa [lsBudget_half]), tell_lsPhase, lsLeak_lsPhase, tell_flag, lsLeak_lock]
    exact ⟨rfl, rfl, (tell_reports _ _ _).trans (by rw [lsLeak_dieAt]; rfl)⟩

end Sys2Proof.Machine

/-! PWM cycles and soft start of a switch channel (04_load_switches.md R95, R96). -/
namespace Sys2Proof.Machine
open State

/-! The ramp (R96) -/

theorem softDuty_at_start {start : Nat} (time f0 : Nat) (h : start ≤ 4000) : softDuty start time f0 f0 = start := by
  rw [softDuty, Nat.sub_self, Nat.zero_mul, Nat.mul_zero, Nat.zero_div, Nat.add_zero, Nat.min_eq_right h]

theorem softDuty_at_end {start time f0 f : Nat} (ht : 0 < time) (h : 100 * time ≤ f - f0) :
    softDuty start time f0 f = 4000 := by
  have hpos : 0 < 1000 * time := by omega
  have hfull : 4000 - start ≤ (4000 - start) * ((f - f0) * 10) / (1000 * time) := by
    rw [Nat.le_div_iff_mul_le hpos]
    exact Nat.mul_le_mul_left _ (by omega)
  exact Nat.min_eq_left (by omega)

theorem softDuty_le_succ (start time f0 f : Nat) : softDuty start time f0 f ≤ softDuty start time f0 (f + 1) := by
  unfold softDuty
  gcongr
  omega

/-! The cycle (R95) -/
section
variable (s : State) (n : Nat)

/-- With no clamp event running the switch just closes. -/
theorem lsClose_of_noClamp (h : (s.lsC n).clamp = false) :
    lsClose s n = s.setLsC n { s.lsC n with out := true, clamp := false } := if_pos h

/-- A clamp event that ends leaves the running cycle and the ramp, also where it locks the channel. -/
theorem lsClampEnd_cycle (microJ : Nat) : ((lsClampEnd s n microJ).lsC n).duty = (s.lsC n).duty ∧
    ((lsClampEnd s n microJ).lsC n).softT0 = (s.lsC n).softT0 := by
  rw [lsClampEnd_eq]
  split
  · rw [channelLock_lsC, lsCharged_lsC]
    exact ⟨rfl, rfl⟩
  · rw [lsCharged_lsC]
    exact ⟨rfl, rfl⟩

theorem lsClose_cycle : ((lsClose s n).lsC n).duty = (s.lsC n).duty ∧ ((lsClose s n).lsC n).softT0 = (s.lsC n).softT0 := by
  have hclosed : (s.setLsC n { s.lsC n with out := true, clamp := false }).fresh.lsC n =
      { s.lsC n with out := true, clamp := false } := setLsC_lsC_self s n _
  unfold lsClose
  dsimp only
  split
  · rw [setLsC_lsC_self]
    exact ⟨rfl, rfl⟩
  · split
    · rw [hclosed]
      exact ⟨rfl, rfl⟩
    · have hend := lsClampEnd_cycle (s.setLsC n { s.lsC n with out := true, clamp := false }).fresh n
      rw [hclosed] at hend
      exact hend _

/-- The channel takes a duty d for the cycle that begins. -/
def lsDutyTaken (s : State) (n d : Nat) : State :=
  s.setLsC n { s.lsC n with duty := d, onEnd := s.now + lsOnTime d (s.get (R.lsCpwmPeriod n)) }

theorem lsCycle_of_zero {d : Nat} (h : lsOnTime d (s.get (R.lsCpwmPeriod n)) = 0) :
    lsCycle s n d = lsOpen (lsDutyTaken s n d) n := if_pos h

theorem lsCycle_of_pos {d : Nat} (h : lsOnTime d (s.get (R.lsCpwmPeriod n)) ≠ 0) :
    lsCycle s n d = lsClose (lsDutyTaken s n d) n := if_neg h

theorem SwitchStep.lsCycle (d : Nat) : SwitchStep n s (lsCycle s n d) :=
  (setLsC s n _).trans (ite (lsOpen _ n) (lsClose _ n))

/-- Whatever a running clamp event comes to, the cycle has the duty that it took. -/
theorem lsCycle_duty (d : Nat) : ((lsCycle s n d).lsC n).duty = d ∧ ((lsCycle s n d).lsC n).softT0 = (s.lsC n).softT0 := by
  have htaken : (lsDutyTaken s n d).lsC n =
      { s.lsC n with duty := d, onEnd := s.now + lsOnTime d (s.get (R.lsCpwmPeriod n)) } := setLsC_lsC_self s n _
  by_cases h : lsOnTime d (s.get (R.lsCpwmPeriod n)) = 0
  · rw [lsCycle_of_zero s n h, lsOpen_lsC, htaken]
    exact ⟨rfl, rfl⟩
  · have hclose := lsClose_cycle (lsDutyTaken s n d) n
    rw [htaken] at hclose
    rwa [lsCycle_of_pos s n h]

/-- With no clamp event running the switch closes for the on-time, or stays open where it is 0. -/
theorem lsCycle_of_noClamp (d : Nat) (hc : (s.lsC n).clamp = false) :
    ((lsCycle s n d).lsC n).onEnd = s.now + lsOnTime d (s.get (R.lsCpwmPeriod n)) ∧
      ((lsCycle s n d).lsC n).out = decide (lsOnTime d (s.get (R.lsCpwmPeriod n)) ≠ 0) := by
  have htaken : (lsDutyTaken s n d).lsC n =
      { s.lsC n with duty := d, onEnd := s.now + lsOnTime d (s.get (R.lsCpwmPeriod n)) } := setLsC_lsC_self s n _
  by_cases h : lsOnTime d (s.get (R.lsCpwmPeriod n)) = 0
  · rw [lsCycle_of_zero s n h, lsOpen_lsC, htaken]
    exact ⟨rfl, by simp [h]⟩
  · rw [lsCycle_of_pos s n h, lsClose_of_noClamp _ n (by rw [htaken, hc]), setLsC_lsC_self, htaken]
    exact ⟨rfl, by simp [h]⟩

/-- The duty of a ramp in its first frame or a later one. -/
def rampDuty (s : State) (n : Nat) : Nat :=
  softDuty (s.get (R.lsCsoftSsStart n)) (s.get (R.lsCsoftSsTime n))
    (if (s.lsC n).soft = 1 then s.dieFrame (lsDie n) else (s.lsC n).softT0) (s.dieFrame (lsDie n))

/-- The record of a ramp, which begins at this cycle start or goes on. -/
def rampStep (s : State) (n : Nat) : State :=
  s.setLsC n { s.lsC n with soft := if rampDuty s n = 4000 then 3 else 2,
                            softT0 := if (s.lsC n).soft = 1 then s.dieFrame (lsDie n) else (s.lsC n).softT0 }

/-- What the commands of the PWM cycle do outside a load dump. -/
theorem exec_lsPwmCycleStart (hn : n < 32) (hf : s.dieFrame (lsDie n) % s.get (R.lsCpwmPeriod n) = s.get (R.lsCpwmPhase n))
    (hd : s.flag (R.lsGstatDefer (n / 4)) = false) (hp : s.lsPhase n = 1 ∨ s.lsPhase n = 2) (hm : 2 ≤ s.lsMode n) :
    exec (.lsPwmCycleStart n) s =
      if s.lsMode n = 2 then .next (lsCycle s n (s.get (R.lsCdutyDuty n)))
      else if (s.lsC n).soft = 3 then .next s else .next (lsCycle (rampStep s n) n (rampDuty s n)) :=
  (if_neg (by simp [hf, hd]; omega)).trans (if_neg (by omega))

theorem exec_lsPwmOnEnd (hn : n < 32) (hd : s.flag (R.lsGstatDefer (n / 4)) = false) (hm : 2 ≤ s.lsMode n)
    (ho : (s.lsC n).out = true) (hduty : (s.lsC n).duty < 4000) (hs : (s.lsC n).soft ≠ 3) :
    exec (.lsPwmOnEnd n) s = .next (lsOpen (s.passTo (s.lsC n).onEnd) n) :=
  if_neg (by simp [ho, hs, hd]; omega)

end

/-- Settles O20: a cycle opens or closes the switch with the duty it takes, which a clamp event that it ends leaves; the ramp is
linear in the frames and bounded by 4,000. -/
theorem switchCyclesRun : Obligations.SwitchCyclesRun := by
  intro s n hn hf hd hp
  have hpwm (hm : s.lsMode n = 2) : exec (.lsPwmCycleStart n) s = .next (lsCycle s n (s.get (R.lsCdutyDuty n))) := by
    rw [exec_lsPwmCycleStart s n hn hf hd hp (by omega), if_pos hm]
  have hramp (hm : s.lsMode n = 3) (hs : (s.lsC n).soft ≠ 3) :
      exec (.lsPwmCycleStart n) s = .next (lsCycle (rampStep s n) n (rampDuty s n)) := by
    rw [exec_lsPwmCycleStart s n hn hf hd hp (by omega), if_neg (by omega), if_neg hs]
  have hend (hm : s.lsMode n = 2 ∨ s.lsMode n = 3) := exec_lsPwmOnEnd s n hn hd (by omega)
  refine ⟨fun hm hc => ⟨_, hpwm hm, ?_⟩, fun hm hs hstart => ⟨_, hramp hm (by omega), ?_⟩,
    fun hm ho hduty hs => ⟨_, hend (.inl hm) ho hduty hs, ?_⟩, fun start time f0 f hstart htime =>
      ⟨softDuty_at_start time f0 hstart, softDuty_at_end htime, softDuty_le_succ start time f0 f⟩, hpwm,
    fun hm hs => ⟨_, hramp hm hs, (lsCycle_duty _ n _).1⟩, fun hm hs => ?_, hend⟩
  · obtain ⟨honEnd, hout⟩ := lsCycle_of_noClamp s n (s.get (R.lsCdutyDuty n)) hc
    refine ⟨(lsCycle_duty s n _).1, honEnd, fun h => hout.trans (decide_eq_true h), fun h => hout.trans ?_,
      fun a => by rw [(SwitchStep.lsCycle s n _).mem]⟩
    simp [lsOnTime, h]
  · obtain ⟨hduty, hsoftT0⟩ := lsCycle_duty (rampStep s n) n (rampDuty s n)
    refine ⟨hduty.trans ?_, hsoftT0.trans ?_, fun a => by rw [(SwitchStep.lsCycle _ n _).mem]; rfl⟩
    · rw [rampDuty, if_pos hs, softDuty_at_start _ _ hstart]
    · rw [rampStep, setLsC_lsC_self, if_pos hs]
      rfl
  · rw [lsOpen_lsC, lsOpen_now, passTo_lsC, passTo_now, ho, Bool.or_true]
    exact ⟨rfl, rfl, rfl, fun a => by rw [lsOpen_mem, passTo_mem]⟩
  · rw [exec_lsPwmCycleStart s n hn hf hd hp (by omega), if_neg (by omega), if_pos hs]

end Sys2Proof.Machine

/-! Limiting, shutdown, restart and load diagnostics of a switch channel (04_load_switches.md R98 to R100, R104). -/
namespace Sys2Proof.Machine
open State

section
variable (s : State) (n : Nat)

@[simp] theorem lsDiag_lsC (bit code : Nat) (data : List Byte) (k : Nat) : (lsDiag s n bit code data).lsC k = s.lsC k := rfl
@[simp] theorem lsDiag_lsPhase (bit code : Nat) (data : List Byte) (k : Nat) :
    (lsDiag s n bit code data).lsPhase k = s.lsPhase k := rfl

theorem lsDiag_reports (bit code : Nat) (data : List Byte) : ((lsDiag s n bit code data).dieAt (3 + n / 16)).reports =
    (s.dieAt (3 + n / 16)).reports ++ [.bits (R.lsCdiag n) bit 1 1, .irq (32 + n / 4), .event code data] :=
  tell_reports _ _ _

/-! The shutdown (R99, R100) -/

/-- The junction is too hot, by itself or beside the group's reference. -/
def TooHot (tj : Nat) (tref : Int) : Prop := 175 ≤ tj ∨ 60 ≤ (tj : Int) - tref

/-- The diagnostics of a shutdown. -/
def lsHotReported (s : State) (n tj : Nat) (tref : Int) : State :=
  let t := if decide (tj ≥ 175) then lsDiag s n 1 0x0802 (d8 n ++ d8 tj) else s
  if decide ((tj : Int) - tref ≥ 60) then lsDiag t n 2 0x0803 (d8 n ++ d8 tj) else t

/-- The switch opens and cools, and the shutdown is counted. -/
def lsCooling (s : State) (n : Nat) : State :=
  let t := (lsOpen s n).setLsPhase n 3
  (t.setLsC n { t.lsC n with lastOn := none }).tell (lsDie n) [.tally (R.lsCshutdowns n)]

theorem lsHotReported_keeps {β : Type} (p : State → β) (tj : Nat) (tref : Int) (h : ∀ u d l, p (u.tell d l) = p u) :
    p (lsHotReported s n tj tref) = p s := by
  unfold lsHotReported
  dsimp only
  split <;> split <;> simp only [lsDiag, h]

theorem lsCooling_lsPhase : (lsCooling s n).lsPhase n = 3 := by
  rw [lsCooling, tell_lsPhase, setLsC_lsPhase, setLsPhase_lsPhase _ n (by omega)]

theorem lsCooling_lsC : (lsCooling s n).lsC n =
    { s.lsC n with out := false, clamp := (s.lsC n).clamp || (s.lsC n).out, lastOn := none } := by
  rw [lsCooling, tell_lsC, setLsC_lsC_self, setLsPhase_lsC, lsOpen_lsC]

theorem lsCooling_reports : ((lsCooling s n).dieAt (3 + n / 16)).reports =
    (s.dieAt (3 + n / 16)).reports ++ [.tally (R.lsCshutdowns n)] := by
  have hdie : (lsOpen s n).dieAt (3 + n / 16) = s.dieAt (3 + n / 16) := lsOpen_dieAt s n _
  rw [← hdie]
  exact tell_reports _ _ _

theorem lsCooling_mem : (lsCooling s n).mem = s.mem := lsOpen_mem s n

theorem lsLatch_lsPhase (tj : Nat) : (lsLatch s n tj).lsPhase n = 4 := by
  rw [lsLatch, tell_lsPhase, lsDiag_lsPhase, setLsPhase_lsPhase _ n (by omega)]

theorem lsLatch_out (tj : Nat) : ((lsLatch s n tj).lsC n).out = (s.lsC n).out := by
  rw [lsLatch, tell_lsC, lsDiag_lsC, setLsPhase_lsC, setLsC_lsC_self]

theorem lsLatch_mem (tj : Nat) : (lsLatch s n tj).mem = s.mem := rfl

/-- The channel after a shutdown: latched where the allowed restarts are used up. -/
def lsShutDown (s : State) (n tj : Nat) (tref : Int) : State :=
  let t := lsCooling (lsHotReported s n tj tref) n
  if s.get (R.lsCinrRetry n) ≤ (s.lsC n).restarts then lsLatch t n tj else t

theorem exec_lsThermalShutdown (hn : n < 32) {tj : Nat} {tref : Int}
    (hp : s.lsPhase n = 1 ∨ s.lsPhase n = 2 ∨ (s.lsPhase n = 6 ∧ (s.lsC n).out = true)) (hh : TooHot tj tref) :
    exec (.lsThermalShutdown n tj tref) s = .next (lsShutDown s n tj tref) := by
  have hguard : ¬ (n > 31 ∨ (s.lsPhase n ≠ 1 ∧ s.lsPhase n ≠ 2 ∧ ¬(s.lsPhase n = 6 ∧ (s.lsC n).out = true)) ∨
      (decide (tj ≥ 175) = false ∧ decide ((tj : Int) - tref ≥ 60) = false)) := by
    rintro (h | ⟨h1, h2, h6⟩ | ⟨hhot, hdiff⟩)
    · omega
    · exact hp.elim h1 (Or.elim · h2 h6)
    · exact hh.elim (of_decide_eq_false hhot) (of_decide_eq_false hdiff)
  have hrestarts : ((lsCooling (lsHotReported s n tj tref) n).lsC n).restarts = (s.lsC n).restarts := by
    rw [lsCooling_lsC, lsHotReported_keeps s n (·.lsC n) tj tref fun _ _ _ => rfl]
  rw [lsShutDown, ← hrestarts]
  exact if_neg hguard

/-- In each case the switch opens. -/
theorem lsShutDown_out (tj : Nat) (tref : Int) : ((lsShutDown s n tj tref).lsC n).out = false := by
  unfold lsShutDown
  dsimp only
  split
  · rw [lsLatch_out, lsCooling_lsC]
  · rw [lsCooling_lsC]

theorem lsShutDown_lsPhase (tj : Nat) (tref : Int) :
    (lsShutDown s n tj tref).lsPhase n = if s.get (R.lsCinrRetry n) ≤ (s.lsC n).restarts then 4 else 3 := by
  unfold lsShutDown
  dsimp only
  split
  · exact lsLatch_lsPhase _ n tj
  · exact lsCooling_lsPhase _ n

theorem lsShutDown_mem (tj : Nat) (tref : Int) : (lsShutDown s n tj tref).mem = s.mem := by
  have hcool : (lsCooling (lsHotReported s n tj tref) n).mem = s.mem :=
    (lsCooling_mem _ n).trans (lsHotReported_keeps s n (·.mem) tj tref fun _ _ _ => rfl)
  unfold lsShutDown
  dsimp only
  split
  · rw [lsLatch_mem, hcool]
  · exact hcool

/-- A shutdown at 175 °C, with restarts left and within 60 K of the reference, is reported by its own diagnostic alone. -/
theorem lsShutDown_reports {tj : Nat} {tref : Int} (ht : 175 ≤ tj) (hd : (tj : Int) - tref < 60)
    (hr : (s.lsC n).restarts < s.get (R.lsCinrRetry n)) : ((lsShutDown s n tj tref).dieAt (3 + n / 16)).reports =
      (s.dieAt (3 + n / 16)).reports ++ [.bits (R.lsCdiag n) 1 1 1, .irq (32 + n / 4), .event 0x0802 (d8 n ++ d8 tj),
        .tally (R.lsCshutdowns n)] := by
  have hhot : lsHotReported s n tj tref = lsDiag s n 1 0x0802 (d8 n ++ d8 tj) := by
    rw [lsHotReported, if_pos (decide_eq_true ht), if_neg (by simp; omega)]
  rw [lsShutDown, if_neg (Nat.not_le.2 hr), hhot, lsCooling_reports, lsDiag_reports, List.append_assoc]
  rfl

/-! The restart (R100) -/

/-- The channel counts a restart, which runs with the lower limit. -/
def lsRestarting (s : State) (n : Nat) : State :=
  (s.setLsC n { s.lsC n with restarts := (s.lsC n).restarts + 1, lastOn := some s.now }).set (R.lsCstatInr n) 0

theorem exec_lsAutoRestart (hn : n < 32) {tj : Nat} {tref : Int} (hp : s.lsPhase n = 3) (ht : tj ≤ 150)
    (hd : (tj : Int) - tref ≤ 35) (hdef : s.flag (R.lsGstatDefer (n / 4)) = false) : exec (.lsAutoRestart n tj tref) s =
      if s.lsOn n = true ∧ s.lsArmed (n / 4) = true ∧ s.lsMode n ≠ 0 then .next (lsDrive (lsRestarting s n) n)
      else .next (s.setLsPhase n 0) := if_neg (by simp [hp, hdef]; omega)

/-- A DC channel just closes again. -/
theorem lsDrive_of_dc (hm : s.lsMode n = 1) : lsDrive s n = lsClose (s.setLsPhase n 1) n := by simp only [lsDrive, hm]

theorem lsRestarting_dc (hm : s.lsMode n = 1) (hc : (s.lsC n).clamp = false) :
    lsDrive (lsRestarting s n) n = ((lsRestarting s n).setLsPhase n 1).setLsC n
      { s.lsC n with restarts := (s.lsC n).restarts + 1, lastOn := some s.now, out := true, clamp := false } := by
  have hmode : (lsRestarting s n).lsMode n = 1 :=
    (set_get_ne _ _ _ _ (by simp) (.inl (by simp only [R.lsCctrl, R.lsCstat]; omega))).trans hm
  have hrecord : (lsRestarting s n).lsC n =
      { s.lsC n with restarts := (s.lsC n).restarts + 1, lastOn := some s.now } := setLsC_lsC_self s n _
  rw [lsDrive_of_dc _ n hmode, lsClose_of_noClamp _ n (by rw [setLsPhase_lsC, hrecord, hc]), setLsPhase_lsC, hrecord]

theorem exec_lsRestartCountReset (hn : n < 32) {t0 : Nat} (h : (s.lsC n).lastOn = some t0) :
    exec (.lsRestartCountReset n) s =
      .next ((s.passTo (t0 + sec 1)).setLsC n { (s.passTo (t0 + sec 1)).lsC n with restarts := 0 }) := by
  show execLsRestartCountReset n s = _
  simp only [execLsRestartCountReset, h]
  exact if_neg (by omega)

/-! Limiting and the load diagnostics (R98, R104) -/

theorem exec_lsLimit (hn : n < 32) (amp : Nat) (on : Bool) (ho : (s.lsC n).out = true) : exec (.lsLimit n amp on) s =
    .next ((lsDiag (s.setLsPhase n (if on then 2 else 1)) n 0 0x0801 (d8 n ++ d8 amp)).tell (lsDie n)
      [.tally (R.lsClimits n)]) := if_neg (by simp [ho]; omega)

end

/-- Settles O21: a shutdown is reported, opens the switch and latches where no restart is left; a restart drives the channel
again. -/
theorem switchesProtectThemselves : Obligations.SwitchesProtectThemselves := by
  intro s n tj amp t0 tref on hn
  have hrestart := exec_lsAutoRestart s n hn (tj := tj) (tref := tref)
  refine ⟨fun ho => ⟨_, exec_lsLimit s n hn amp on ho, ?_, ?_⟩,
    fun hp ht hd hr => ⟨_, exec_lsThermalShutdown s n hn (by omega) (.inl ht), ?_, lsShutDown_out s n tj tref,
      lsShutDown_reports s n ht hd hr⟩,
    fun hp hd hr => ⟨_, exec_lsThermalShutdown s n hn (by omega) (.inr hd), ?_, lsShutDown_out s n tj tref,
      fun a => by rw [lsShutDown_mem]⟩,
    fun hp ht hd hdef hon ha hm hc => ?_, fun h => ⟨_, exec_lsRestartCountReset s n hn h, ?_, ?_⟩,
    fun hp => if_neg (by omega), fun ho hen => if_neg (by simp [ho, hen]; omega), fun ho => if_neg (by simp [ho]; omega),
    fun hp hh => ⟨_, exec_lsThermalShutdown s n hn hp hh, lsShutDown_out s n tj tref, lsShutDown_lsPhase s n tj tref,
      fun a => by rw [lsShutDown_mem]⟩,
    fun hp ht hd hdef hon ha hm => (hrestart hp ht hd hdef).trans (if_pos ⟨hon, ha, hm⟩),
    fun hp ht hd hdef hno => (hrestart hp ht hd hdef).trans (if_neg ?_)⟩
  · rw [tell_lsPhase, lsDiag_lsPhase, setLsPhase_lsPhase _ n (by split <;> omega)]
  · exact (tell_reports _ _ _).trans (by rw [lsDie, lsDiag_reports, List.append_assoc]; rfl)
  · rw [lsShutDown_lsPhase, if_neg (Nat.not_le.2 hr)]
  · rw [lsShutDown_lsPhase, if_pos hr]
  · refine ⟨_, (hrestart hp ht hd hdef).trans (if_pos ⟨hon, ha, by omega⟩), ?_⟩
    rw [lsRestarting_dc s n hm hc, setLsC_lsPhase, setLsPhase_lsPhase _ n (by omega), setLsC_lsC_self, setLsC_flag]
    refine ⟨rfl, rfl, rfl, (set_flag_ne _ _ _ _ (by simp) (by simp)).trans (set_flag _ _ _ (by simp) rfl), fun a => rfl⟩
  · rw [setLsC_lsC_self]
  · rw [setLsC_now, passTo_now]
  · rintro ⟨hon, ha, hm⟩
    rcases hno with h | h | h
    · simp [h] at hon
    · simp [h] at ha
    · exact hm h

end Sys2Proof.Machine

/-! Arming, disarming, hold and deferral of the switch groups (04_load_switches.md R105, R106, R108). -/
namespace Sys2Proof.Machine
open State

/-- What the operations of any switch channels may change, as the groups see it: registers from those of the channels on, and
what holds the channels. -/
structure SwitchesStep (s t : State) : Prop where
  mem : t.mem = s.mem
  now : t.now = s.now
  rd : ∀ a < 0x20041000, t.rd a = s.rd a

theorem SwitchStep.switches {n : Nat} {s t : State} (h : SwitchStep n s t) : SwitchesStep s t :=
  ⟨h.mem, h.now, fun _ ha => h.rd _ (not_statusReg_low n ha)⟩

namespace SwitchesStep

theorem refl (s : State) : SwitchesStep s s := ⟨rfl, rfl, fun _ _ => rfl⟩

section
variable {s t u : State}

theorem trans (h : SwitchesStep s t) (k : SwitchesStep t u) : SwitchesStep s u :=
  ⟨k.mem.trans h.mem, k.now.trans h.now, fun a ha => (k.rd a ha).trans (h.rd a ha)⟩

theorem ite {p : Prop} [Decidable p] (h : SwitchesStep s t) (k : SwitchesStep s u) :
    SwitchesStep s (if p then t else u) := by
  split
  · exact h
  · exact k

theorem foldl {α : Type} {f : State → α → State} (l : List α) (s : State) (h : ∀ x u, SwitchesStep u (f u x)) :
    SwitchesStep s (l.foldl f s) := by
  induction l generalizing s with
  | nil => exact refl s
  | cons x l ih => exact (h x s).trans (ih (f s x))

variable (h : SwitchesStep s t) {g : Nat} (hg : g < 8)
include h hg

theorem lsArmed : t.lsArmed g = s.lsArmed g := by
  simp only [State.lsArmed, flag, State.get, h.rd (R.lsGctrl g) (by simp only [R.lsGctrl]; omega)]

theorem flag_lsGstat (l w : Nat) : t.flag ⟨R.lsGstat g, l, w⟩ = s.flag ⟨R.lsGstat g, l, w⟩ := by
  simp only [flag, State.get, h.rd (R.lsGstat g) (by simp only [R.lsGstat]; omega)]

end

section
variable (s : State) (n : Nat)

theorem set {f : Fld} (v : Nat) (h : 0x20041000 ≤ f.addr) : SwitchesStep s (s.set f v) :=
  ⟨rfl, rfl, fun a ha => set_rd_ne s f v a (by omega)⟩

theorem cctrlOn (v : Nat) : SwitchesStep s (s.set (R.lsCctrlOn n) v) := set s v (by simp only [R.lsCctrl]; omega)

theorem cdutyDuty (v : Nat) : SwitchesStep s (s.set (R.lsCdutyDuty n) v) := set s v (by simp only [R.lsCduty]; omega)

theorem setLsG (g : Nat) (x : LsGroup) : SwitchesStep s (s.setLsG g x) := ⟨rfl, rfl, fun _ _ => rfl⟩

/-- The fail state of a channel writes its control registers and acts as a changed ON does (R106). -/
theorem lsFail : SwitchesStep s (lsFail s n) := by
  have hedge (u : State) (before : Bool) : SwitchesStep u (lsEdge u n before) := (SwitchStep.lsEdge u n before).switches
  have hduty (u : State) (v : Nat) : SwitchesStep u (u.setLsC n { u.lsC n with duty := v }) :=
    (SwitchStep.setLsC u n _).switches
  unfold Machine.lsFail
  dsimp only
  refine ite ((cctrlOn s n 0).trans (ite (hedge _ true) (refl _))) (ite (refl s) (ite ?_ ((cctrlOn s n _).trans (hedge _ _))))
  exact (((cdutyDuty s n _).trans (cctrlOn _ n 1)).trans (ite (refl _) (hduty _ _))).trans (hedge _ _)

end
end SwitchesStep

/-! Arming (R105) -/
section
variable (s : State) (g : Nat)

/-- What an armed group shows, and the memory beside it. -/
def groupView (g : Nat) (s : State) : Bool × Memory := (s.lsArmed g, s.mem)

theorem groupView_log (hg : g < 8) (c : Nat) (d : List Byte) : groupView g (s.log c d) = groupView g s := by
  have hctrl : (s.log c d).rd (R.lsGctrl g) = s.rd (R.lsGctrl g) :=
    log_rd_ne s c d (by simp only [R.lsGctrl]; omega) (by simp only [R.lsGctrl]; omega)
  simp only [groupView, lsArmed, flag, State.get, hctrl, log_mem]

theorem groupView_loopsFromZero : groupView g (loopsFromZero s 2 g) = groupView g s := by
  refine loopsFromZero_keeps _ s 2 g fun n hn u => ?_
  have hctrl : R.lsGctrl g ≠ R.ceLu n := by simp only [R.lsGctrl, R.ceLu]; omega
  simp only [groupView, lsArmed, flag, State.get, wr_rd_ne _ _ _ _ hctrl]
  rfl

/-- The channels with ON = 1 switch on when their group arms. -/
theorem SwitchesStep.armStart (l : List Nat) :
    SwitchesStep s (l.foldl (fun u n => if u.lsOn n then Machine.lsSwitchOn u n else u) s) :=
  foldl l s fun n u => ite (SwitchStep.lsSwitchOn u n).switches (refl u)

/-- Where no condition of R105 fails the group arms, whatever the switch-ons of its channels come to. -/
theorem groupView_groupArm (hg : g < 8) (ha : s.lsArmed g = false) (hi : lsArmIgnored s g = false) (he : lsArmErr s g = 0) :
    groupView g (groupArm s g).1 = (true, s.mem) := by
  have hset (k : Nat) (x : LsGroup) :
      groupView g (((s.set (R.lsGctrlArm g) 1).pwrBit k false).setLsG g x) = (true, s.mem) := by
    rw [groupView, lsArmed, setLsG_flag, pwrBit_flag, set_flag _ _ _ (by simp) rfl, setLsG_mem, pwrBit_mem, set_mem]
    rfl
  have hsteps (u : State) := SwitchesStep.armStart u (bankChans g)
  rw [groupArm, if_neg (by simp [ha]), if_neg (by simp [hi]), if_neg (by simp [he])]
  refine (thermalEstimate_keeps (groupView g) _ (fun _ _ => rfl) (fun _ _ _ => rfl) fun u => groupView_log u g hg).trans ?_
  rw [groupView, (hsteps _).lsArmed hg, (hsteps _).mem]
  exact (groupView_loopsFromZero _ g).trans (hset _ _)

theorem groupArm_of_refused (ha : s.lsArmed g = false) (hi : lsArmIgnored s g = false) (he : lsArmErr s g ≠ 0) :
    (groupArm s g).1 = (s.set (R.lsGstatErr g) (lsArmErr s g)).log 0x080E (d8 g ++ d8 (lsArmErr s g)) := by
  simp [groupArm, ha, hi, he]

theorem lsArmErr_of_stop (h : s.get R.siStopState ≠ 0) : lsArmErr s g = 1 := if_pos (.inl h)

/-! Disarming (R105) -/

theorem lsTurnOff_of_noDump {n : Nat} (hd : s.flag (R.lsGstatDefer (n / 4)) = false) : lsTurnOff s n = lsOffNow s n :=
  if_pos hd

theorem SwitchesStep.turnOffs (l : List Nat) : SwitchesStep s (l.foldl Machine.lsTurnOff s) :=
  foldl l s fun n u => (SwitchStep.lsTurnOff u n).switches

/-- Outside a load dump each channel of a group that turns off ends open, and stays so while others turn off. -/
theorem lsTurnOffs_out {l : List Nat} (hg : g < 8) (hl : ∀ n ∈ l, n / 4 = g) (hd : s.flag (R.lsGstatDefer g) = false)
    {m : Nat} (hm : m ∈ l ∨ (s.lsC m).out = false) : ((l.foldl lsTurnOff s).lsC m).out = false := by
  induction l generalizing s with
  | nil => exact hm.resolve_left List.not_mem_nil
  | cons n l ih =>
    rw [List.forall_mem_cons] at hl
    obtain ⟨hn, hrest⟩ := hl
    have hstep := SwitchStep.lsTurnOff s n
    refine ih (lsTurnOff s n) hrest ((hstep.switches.flag_lsGstat hg 0 1).trans hd) ?_
    by_cases hmn : m = n
    · right
      rw [hmn, lsTurnOff_of_noDump s (hn.symm ▸ hd), lsOffNow_lsC]
    · rw [hstep.lsC m hmn]
      exact hm.imp_left fun h => (List.mem_cons.1 h).resolve_left hmn

theorem groupDisarm_of_armed (ha : s.lsArmed g = true) :
    groupDisarm s g = (bankChans g).foldl lsTurnOff (s.set (R.lsGctrlArm g) 0) := if_pos ha

theorem lsGctrl_ne_lsGstat (g k : Nat) : R.lsGctrl g ≠ R.lsGstat k := by simp only [R.lsGctrl, R.lsGstat]; omega

theorem groupDisarm_lsArmed (hg : g < 8) (ha : s.lsArmed g = true) : (groupDisarm s g).lsArmed g = false := by
  rw [groupDisarm_of_armed s g ha, (SwitchesStep.turnOffs _ _).lsArmed hg, lsArmed, set_flag _ _ _ (by simp) rfl]
  rfl

theorem groupDisarm_out (hg : g < 8) (ha : s.lsArmed g = true) (hd : s.flag (R.lsGstatDefer g) = false) :
    ∀ m ∈ bankChans g, ((groupDisarm s g).lsC m).out = false := by
  intro m hm
  rw [groupDisarm_of_armed s g ha]
  refine lsTurnOffs_out _ g hg (fun n => div_four_of_mem_bankChans) ?_ (.inl hm)
  rw [set_flag_ne _ _ _ _ (by simp) (.inl (lsGctrl_ne_lsGstat g g).symm), hd]

theorem groupDisarm_mem (ha : s.lsArmed g = true) : (groupDisarm s g).mem = s.mem := by
  rw [groupDisarm_of_armed s g ha, (SwitchesStep.turnOffs _ _).mem, set_mem]

/-! The end of hold (R106) -/

/-- Every channel of the group has taken its fail state. -/
def groupFailed (s : State) (g : Nat) : State :=
  ((bankChans g).foldl lsFail (s.set (R.lsGstatHolding g) 0)).setLsG g { holdEnd := none, failed := true }

theorem groupFailed_step : SwitchesStep (s.set (R.lsGstatHolding g) 0) (groupFailed s g) :=
  (SwitchesStep.foldl _ _ fun n u => SwitchesStep.lsFail u n).trans (SwitchesStep.setLsG _ g _)

/-- The expiry leaves of that what neither ARM nor the reports are. -/
theorem groupHoldExpiry_keeps {β : Type} (p : State → β) (htell : ∀ u d l, p (State.tell u d l) = p u)
    (harm : ∀ u, p (State.set u (R.lsGctrlArm g) 0) = p u) : p (groupHoldExpiry s g) = p (groupFailed s g) := by
  unfold groupHoldExpiry groupFailed lsGroupDiag
  dsimp only
  rw [htell, htell]
  split
  · rw [harm]
  · rfl

theorem groupHoldExpiry_holding (hg : g < 8) : (groupHoldExpiry s g).flag (R.lsGstatHolding g) = false := by
  have hne := (lsGctrl_ne_lsGstat g g).symm
  rw [groupHoldExpiry_keeps s g (·.flag (R.lsGstatHolding g)) (fun _ _ _ => rfl)
      fun u => set_flag_ne u _ _ _ (by simp) (.inl hne),
    (groupFailed_step s g).flag_lsGstat hg, set_flag _ _ _ (by simp) rfl]
  rfl

theorem groupHoldExpiry_now : (groupHoldExpiry s g).now = s.now := by
  rw [groupHoldExpiry_keeps s g (·.now) (fun _ _ _ => rfl) fun _ => rfl, (groupFailed_step s g).now, set_now]

theorem groupHoldExpiry_failed : ((groupHoldExpiry s g).lsG g).failed = true := by
  rw [groupHoldExpiry_keeps s g (·.lsG g) (fun _ _ _ => rfl) fun _ => rfl, groupFailed, setLsG_lsG_self]

/-- A group whose channels have all gone to OFF disarms. -/
theorem groupHoldExpiry_disarms (h : ∀ m ∈ bankChans g, s.get (R.lsCctrlFail m) = 0) :
    (groupHoldExpiry s g).lsArmed g = false := by
  have hall : (bankChans g).all (fun n => s.get (R.lsCctrlFail n) == 0 || (s.dieAt (3 + g / 4)).lgndHold) = true :=
    List.all_eq_true.2 fun m hm => by simp [h m hm]
  unfold groupHoldExpiry lsGroupDiag
  dsimp only
  rw [if_pos hall, tell_lsArmed, tell_lsArmed, lsArmed, set_flag _ _ _ (by simp) rfl]
  rfl

theorem exec_groupHoldExpiry (hg : g < 8) {th : Nat} (h : (s.lsG g).holdEnd = some th) :
    exec (.groupHoldExpiry g) s = .next (groupHoldExpiry (s.passTo th) g) := by
  show execGroupHoldExpiry g s = _
  simp only [execGroupHoldExpiry, h]
  exact if_neg (by omega)

end

/-! Deferral (R108) -/

/-- Other actions wait for the end of a load dump. -/
def State.setLsDefer (s : State) (l : List (Nat × Bool)) : State := { s with stage := { s.stage with lsDefer := l } }

@[simp] theorem State.setLsDefer_mem (s : State) (l : List (Nat × Bool)) : (s.setLsDefer l).mem = s.mem := rfl
@[simp] theorem State.setLsDefer_flag (s : State) (l : List (Nat × Bool)) (f : Fld) : (s.setLsDefer l).flag f = s.flag f := rfl
@[simp] theorem State.setLsDefer_lsDefer (s : State) (l : List (Nat × Bool)) : (s.setLsDefer l).stage.lsDefer = l := rfl

section
variable (s : State) (on : Bool)

/-- DEFER of one group takes its value, and is reported. -/
def groupDeferSet (on : Bool) (s : State) (g : Nat) : State := lsGroupDiag (s.put (R.lsGstatDefer g) on) g 2

theorem groupDeferSet_flag (g x : Nat) : (groupDeferSet on s g).flag (R.lsGstatDefer x) =
    if x = g then on else s.flag (R.lsGstatDefer x) := by
  rw [groupDeferSet, lsGroupDiag, tell_flag]
  split
  case isTrue h => rw [h, put_flag _ _ _ (by simp) rfl]
  case isFalse h => exact set_flag_ne _ _ _ _ (by simp) (.inl (by simp only [R.lsGstat]; omega))

theorem groupDeferSets_flag {l : List Nat} {x : Nat} (hx : x ∈ l ∨ s.flag (R.lsGstatDefer x) = on) :
    (l.foldl (groupDeferSet on) s).flag (R.lsGstatDefer x) = on := by
  induction l generalizing s with
  | nil => exact hx.resolve_left List.not_mem_nil
  | cons g l ih =>
    refine ih (groupDeferSet on s g) ?_
    rw [groupDeferSet_flag]
    by_cases hxg : x = g
    · exact .inr (if_pos hxg)
    · rw [if_neg hxg]
      exact hx.imp_left fun h => (List.mem_cons.1 h).resolve_left hxg

variable (k : Nat)

theorem lsDeferFlag_flag {x : Nat} (hx : x ∈ dieGroups (k + 1)) : (lsDeferFlag s k on).flag (R.lsGstatDefer x) = on :=
  groupDeferSets_flag _ on (.inl hx)

theorem lsDeferFlag_mem : (lsDeferFlag s k on).mem = s.mem := foldl_keeps (·.mem) _ _ fun _ _ _ => rfl

theorem lsDeferFlag_lsDefer : (lsDeferFlag s k on).stage.lsDefer = s.stage.lsDefer :=
  foldl_keeps (·.stage.lsDefer) _ _ fun _ _ _ => rfl

/-- The groups of a switch die stand at its input (R91). -/
theorem mem_dieGroups {k x : Nat} : x ∈ dieGroups (k + 1) ↔ x / 4 = k - 2 := by
  simp only [dieGroups, bankChans, List.mem_cons, List.not_mem_nil, or_false]
  omega

theorem SwitchStep.lsRunDeferred (e : Nat × Bool) : SwitchStep e.1 s (lsRunDeferred s e) := by
  refine ite (lsOffNow s e.1) ?_
  have hphase := ite (p := s.lsPhase e.1 = 6) (setLsPhase s e.1 0) (refl e.1 s)
  exact hphase.trans (ite (lsSwitchOn _ e.1) (refl e.1 _))

/-- The deferral of the input has ended, and its actions wait no more. -/
def lsDeferEnded (s : State) (k : Nat) : State :=
  (lsDeferFlag s k false).setLsDefer (s.stage.lsDefer.filter fun e => !(e.1 / 16 == k - 2))

/-- The actions that waited for the input run in order of request. -/
def lsDeferredRun (s : State) (k : Nat) : State :=
  (s.stage.lsDefer.filter fun e => e.1 / 16 == k - 2).foldl lsRunDeferred (lsDeferEnded s k)

/-- Once the load dump is over no action that runs is deferred again. -/
theorem lsRunDeferreds_lsDefer {l : List (Nat × Bool)} (hl : ∀ e ∈ l, e.1 < 32)
    (hd : ∀ e ∈ l, s.flag (R.lsGstatDefer (e.1 / 4)) = false) :
    (l.foldl lsRunDeferred s).stage.lsDefer = s.stage.lsDefer := by
  induction l generalizing s with
  | nil => rfl
  | cons e l ih =>
    rw [List.forall_mem_cons] at hl hd
    obtain ⟨hle, hl⟩ := hl
    obtain ⟨hde, hd⟩ := hd
    have hstep := SwitchStep.lsRunDeferred s e
    refine (ih (lsRunDeferred s e) hl fun x hx => ?_).trans (hstep.lsDefer hde)
    have hx32 := hl x hx
    exact (hstep.switches.flag_lsGstat (by omega) 0 1).trans (hd x hx)

theorem SwitchesStep.runDeferreds (l : List (Nat × Bool)) : SwitchesStep s (l.foldl Machine.lsRunDeferred s) :=
  foldl l s fun e u => (SwitchStep.lsRunDeferred u e).switches

theorem exec_lsDeferralEntry (hk : k = 2 ∨ k = 3) {dv : Nat} (hv : 400 < dv)
    (hd : s.flag (R.lsGstatDefer (4 * (k - 2))) = false) : exec (.lsDeferralEntry k dv) s =
      .next ((lsDeferFlag s k true).tell (k + 1) [.event 0x080D (d8 k ++ d16 dv)]) := if_neg (by simp [hd]; omega)

theorem exec_lsDeferralEnd (hk : k = 2 ∨ k = 3) {dv : Nat} (hv : dv < 380)
    (hd : s.flag (R.lsGstatDefer (4 * (k - 2))) = true) : exec (.lsDeferralEnd k dv) s =
      .next (lsDeferredRun s k) := by
  rw [lsDeferredRun, lsDeferEnded, ← lsDeferFlag_lsDefer s false k]
  exact if_neg (by simp [hd]; omega)

/-- After the end DEFER of each group is 0 and none of its channels has a deferred action. -/
theorem lsDeferredRun_shown (hk : k = 2 ∨ k = 3) :
    (∀ x ∈ dieGroups (k + 1), (lsDeferredRun s k).flag (R.lsGstatDefer x) = false) ∧
      (∀ e ∈ (lsDeferredRun s k).stage.lsDefer, e.1 / 16 ≠ k - 2) ∧ (lsDeferredRun s k).mem = s.mem := by
  have hrun : SwitchesStep (lsDeferEnded s k) (lsDeferredRun s k) := SwitchesStep.runDeferreds _ _
  have hended : ∀ x ∈ dieGroups (k + 1), (lsDeferEnded s k).flag (R.lsGstatDefer x) = false := fun x hx => by
    rw [lsDeferEnded, setLsDefer_flag, lsDeferFlag_flag s false k hx]
  have htodo : ∀ e ∈ s.stage.lsDefer.filter fun e => e.1 / 16 == k - 2, e.1 / 16 = k - 2 := fun e he => by
    simpa using (List.mem_filter.1 he).2
  have hwait : (lsDeferredRun s k).stage.lsDefer = s.stage.lsDefer.filter fun e => !(e.1 / 16 == k - 2) := by
    rw [lsDeferredRun, lsRunDeferreds_lsDefer, lsDeferEnded, setLsDefer_lsDefer]
    · exact fun e he => by have := htodo e he; omega
    · exact fun e he => hended _ (mem_dieGroups.2 (by have := htodo e he; omega))
  refine ⟨fun x hx => ?_, fun e he => ?_, hrun.mem.trans ?_⟩
  · have hx8 := mem_dieGroups.1 hx
    exact (hrun.flag_lsGstat (by omega) 0 1).trans (hended x hx)
  · rw [hwait] at he
    simpa using (List.mem_filter.1 he).2
  · rw [lsDeferEnded, setLsDefer_mem, lsDeferFlag_mem]

end
end Sys2Proof.Machine

/-! The reset of a switch die, and the groups' obligation (04_load_switches.md R105, R106, R108, R112). -/
namespace Sys2Proof.Machine
open State

/-- An entry that a filter by numbers keeps reads as before; one that it drops reads as the default. -/
theorem Tbl.get_filter {α : Type} (t : Tbl α) (dflt : α) (q : Nat → Bool) (k : Nat) :
    Tbl.get (t.filter fun e => q e.1) dflt k = if q k then Tbl.get t dflt k else dflt := by
  induction t with
  | nil => simp [Tbl.get]
  | cons e t ih =>
    rw [List.filter_cons]
    by_cases hq : q e.1 = true
    · rw [if_pos hq, Tbl.get, Tbl.get, ih]
      split
      case isTrue hek => rw [← hek, if_pos hq]
      case isFalse => rfl
    · rw [if_neg hq, ih, Tbl.get]
      split
      case isTrue hk =>
        rw [if_neg]
        rintro rfl
        exact hq hk
      case isFalse => rfl

/-- ARM and ON reset to 0. -/
theorem regReset_lsGctrl : ∀ g < 8, (regReset (R.lsGctrl g)).toNat % 2 = 0 := by decide +kernel
theorem regReset_lsCctrl : ∀ n < 32, (regReset (R.lsCctrl n)).toNat % 2 = 0 := by decide +kernel

section
variable (s : State) (d : Nat)

/-- The registers of the die, its posted writes, channels, groups and deferred actions are dropped. -/
def lsDieDropped (s : State) (d : Nat) : State :=
  { s with
    regs := s.regs.filter fun e => !lsDieReg d e.1,
    stage := { s.stage with
      posted := s.stage.posted.filter fun p => dieOfReg p.addr != some d,
      lsCh := s.stage.lsCh.filter fun e => e.1 / 16 != d - 3,
      lsGrp := s.stage.lsGrp.filter fun e => e.1 / 4 != d - 3,
      lsDefer := s.stage.lsDefer.filter fun e => e.1 / 16 != d - 3 } }

/-- The buckets leak from the reset on, and loops keep their channels. -/
def lsDieRestarted (s : State) (d : Nat) : State :=
  ((dieChans d).filter fun n => s.flag (R.lsCstatOwned n)).foldl (fun u n => u.set (R.lsCstatOwned n) 1)
    ((dieChans d).foldl (fun u n => u.setLsC n { u.lsC n with leakAt := s.now }) (lsDieDropped s d))

theorem lsDieClear_eq : lsDieClear s d = ((lsDieRestarted s d).setDie d
    { s.dieAt d with hold := false, stopped := true, lgndHold := false, filt := 4, inA := s.stop.inA, inB := s.stop.inB }).tell
    d (if (s.dieAt d).hold then [.bits R.lsStat (2 + (d - 3)) 1 0] else []) := rfl

/-- What neither the leak nor OWNED changes is as the drop left it. -/
theorem lsDieRestarted_keeps {β : Type} (p : State → β)
    (hleak : ∀ u n, p (State.setLsC u n { u.lsC n with leakAt := s.now }) = p u)
    (howned : ∀ u n, p (State.set u (R.lsCstatOwned n) 1) = p u) : p (lsDieRestarted s d) = p (lsDieDropped s d) :=
  (foldl_keeps p _ _ fun n _ u => howned u n).trans (foldl_keeps p _ _ fun n _ u => hleak u n)

theorem lsDieClear_mem : (lsDieClear s d).mem = s.mem :=
  lsDieRestarted_keeps s d (·.mem) (fun _ _ => rfl) fun _ _ => rfl

theorem lsDieClear_reports : ((lsDieClear s d).dieAt d).reports =
    (s.dieAt d).reports ++ if (s.dieAt d).hold then [.bits R.lsStat (2 + (d - 3)) 1 0] else [] := by
  rw [lsDieClear_eq, tell_reports, setDie_dieAt, if_pos rfl]

/-- A register of the die that does not hold OWNED reads its reset value. -/
theorem lsDieClear_rd {a : Nat} (ha : lsDieReg d a = true) (hne : ∀ n, a ≠ R.lsCstat n) :
    (lsDieClear s d).rd a = regReset a := by
  have hrd : (lsDieClear s d).rd a = (lsDieRestarted s d).rd a := rfl
  rw [hrd, lsDieRestarted_keeps s d (·.rd a) (fun _ _ => rfl) fun u n => set_rd_ne u _ _ _ (hne n)]
  exact (Tbl.get_filter s.regs (regReset a) (fun k => !lsDieReg d k) a).trans (if_neg (by simp [ha]))

/-- A channel of the die is open, and its bucket stands at half its budget (R101, R112). -/
theorem lsDieClear_lsC {n : Nat} (hn : n / 16 = d - 3) : ((lsDieClear s d).lsC n).out = (LsChan.initial n).out ∧
    ((lsDieClear s d).lsC n).bucket = (LsChan.initial n).bucket := by
  have hdropped : (lsDieDropped s d).lsC n = LsChan.initial n :=
    (Tbl.get_filter s.stage.lsCh (LsChan.initial n) (fun k => k / 16 != d - 3) n).trans (if_neg (by simp [hn]))
  have hleak (u : State) (k : Nat) : (((u.setLsC k { u.lsC k with leakAt := s.now }).lsC n).out,
      ((u.setLsC k { u.lsC k with leakAt := s.now }).lsC n).bucket) = ((u.lsC n).out, (u.lsC n).bucket) := by
    rw [setLsC_lsC]
    split
    case isTrue h => rw [h]
    case isFalse => rfl
  have hkeep := lsDieRestarted_keeps s d (fun u => ((u.lsC n).out, (u.lsC n).bucket)) hleak fun _ _ => rfl
  simp only [hdropped, Prod.mk.injEq] at hkeep
  exact hkeep

theorem lsChan_initial (n : Nat) : (LsChan.initial n).out = false ∧
    (LsChan.initial n).bucket = if n < 8 then 1000000000000 else 300000000000 := by
  unfold LsChan.initial
  split <;> exact ⟨rfl, rfl⟩

variable {d} (hd : d = 3 ∨ d = 4)
include hd

theorem lsDieClear_lsArmed {g : Nat} (hg : g / 4 = d - 3) : (lsDieClear s d).lsArmed g = false := by
  have hreg : lsDieReg d (R.lsGctrl g) = true := by
    simp only [lsDieReg, R.lsGctrl, R.lsCctrl, Bool.or_eq_true, Bool.and_eq_true, decide_eq_true_eq]
    omega
  have hreset := regReset_lsGctrl g (by omega)
  rw [lsArmed, flag, State.get, lsDieClear_rd s d hreg fun n => by simp only [R.lsGctrl, R.lsCstat]; omega]
  simp [hreset]

theorem lsDieClear_lsOn {n : Nat} (hn : n / 16 = d - 3) : (lsDieClear s d).lsOn n = false := by
  have hreg : lsDieReg d (R.lsCctrl n) = true := by
    simp only [lsDieReg, R.lsGctrl, R.lsCctrl, Bool.or_eq_true, Bool.and_eq_true, decide_eq_true_eq]
    omega
  have hreset := regReset_lsCctrl n (by omega)
  rw [lsOn, flag, State.get, lsDieClear_rd s d hreg fun n => by simp only [R.lsCctrl, R.lsCstat]; omega]
  simp [hreset]

theorem exec_lsDieReset : exec (.lsDieReset d) s = .next ((lsDieClear s d).tell d (dieResetReports d)) :=
  if_neg (by omega)

end

/-- Settles O23: switch-ons, turn-offs and fail states of channels leave the groups' registers (`SwitchesStep`); turned off
outside a load dump each channel ends open; an action that runs after a load dump is not deferred again. -/
theorem groupsArmHoldAndDefer : Obligations.GroupsArmHoldAndDefer := by
  intro s g k dv d th n hg
  have harm : exec (.groupArm g) s = .next (groupArm s g).1 := if_neg (by omega)
  have hdisarm (hh : s.lsHeld (4 * g) = false) : exec (.groupDisarm g) s = .next (groupDisarm s g) :=
    if_neg (by simp [hh]; omega)
  refine ⟨fun ha hi he => ?_, fun ha hi he => ?_, lsArmErr_of_stop s g,
    fun hh ha hd => ⟨_, hdisarm hh, groupDisarm_lsArmed s g hg ha, groupDisarm_out s g hg ha hd,
      fun a => by rw [groupDisarm_mem s g ha]⟩,
    fun h => ⟨_, exec_groupHoldExpiry s g hg h, groupHoldExpiry_holding _ g hg, ?_, groupHoldExpiry_failed _ g,
      fun hf => groupHoldExpiry_disarms _ g fun m hm => (passTo_get _ _ _).trans (hf m hm)⟩,
    fun hk hv hd => ⟨_, exec_lsDeferralEntry s k hk hv hd, fun x hx => ?_, fun a => ?_⟩,
    fun hk hv hd => ⟨_, exec_lsDeferralEnd s k hk hv hd, ?_⟩,
    fun hd => ⟨_, exec_lsDieReset s hd, ?_, fun hg4 => ?_, fun hn => ?_, fun a => ?_⟩, harm, hdisarm,
    exec_groupHoldExpiry s g hg⟩
  · have hview := groupView_groupArm s g hg ha hi he
    simp only [groupView, Prod.mk.injEq] at hview
    obtain ⟨harmed, hmem⟩ := hview
    exact ⟨_, harm, harmed, fun a => by rw [hmem]⟩
  · rw [harm, groupArm_of_refused s g ha hi he]
  · rw [groupHoldExpiry_now, passTo_now]
  · rw [tell_flag, lsDeferFlag_flag s true k hx]
  · rw [tell_mem, lsDeferFlag_mem]
  · obtain ⟨hflag, hwait, hmem⟩ := lsDeferredRun_shown s k hk
    exact ⟨hflag, hwait, fun a => by rw [hmem]⟩
  · have hbit : 2 + (d - 3) = d - 1 := by omega
    rw [tell_reports, lsDieClear_reports, hbit]
  · rw [tell_lsArmed, lsDieClear_lsArmed s hd hg4]
  · obtain ⟨hout, hbucket⟩ := lsChan_initial n
    obtain ⟨hcOut, hcBucket⟩ := lsDieClear_lsC s d hn
    rw [tell_lsC, lsOn, tell_flag]
    exact ⟨hcOut.trans hout, lsDieClear_lsOn s hd hn, hcBucket.trans hbucket⟩
  · rw [tell_mem, lsDieClear_mem]

end Sys2Proof.Machine

/-! What the delivery of a sample leaves (01_architecture.md R19, 12_fabric_fleet.md R282). -/
namespace Sys2Proof.Machine
namespace State

/-! Fields, sources and events -/

/-- A field reads as before where its register does. -/
theorem get_of_rd {s t : State} {f : Fld} (h : t.rd f.addr = s.rd f.addr) : t.get f = s.get f := by rw [get, get, h]

theorem flag_of_rd {s t : State} {f : Fld} (h : t.rd f.addr = s.rd f.addr) : t.flag f = s.flag f := by
  rw [flag, flag, get_of_rd h]

/-- Outside the interrupt controller a source that comes about sets its IRQ bit alone (R365). -/
theorem fire_rd_of_place (s : State) {src st en b a : Nat} (hp : irqPlace src = some (st, en, b)) (hs : src < 1024)
    (ha : a / 65536 ≠ 0x2001) : (s.fire src).rd a = (s.set ⟨st, b, 1⟩ 1).rd a := by
  simp only [fire, hp]
  split
  · exact ring_rd_ne _ hs ha
  · rfl

/-- A bus error changes registers of the event recorder and the interrupt controller alone. -/
theorem busError_rd_ne (s : State) (who b : Nat) {a : Nat} (hic : a / 65536 ≠ 0x2001) (hev : a / 65536 ≠ 0x200C) :
    (s.busError who b).rd a = s.rd a := by
  unfold busError
  split
  · exact log_rd_ne _ _ _ hic hev
  · rfl

end State
open State

/-! The store of an engine, beyond the memory -/

theorem busStore_only (s : State) (engine a : Nat) (l : List Byte) : ∃ r x y z m d,
    (busStore s engine a l).2 = { s with regs := r, ev := x, kp := y, procs := z, mem := m, dram := d } := by
  simp only [busStore, engineError]
  split
  · exact ⟨_, _, _, _, _, _, rfl⟩
  · obtain ⟨r, x, y, z, h⟩ := busError_only (busWrite s a (l.take (goodRun (deadByte s) a l.length)))
      (Config.engineCode engine).toNat (a + goodRun (deadByte s) a l.length)
    exact ⟨r, x, y, z, _, _, h⟩

theorem busStore_rd_ne (s : State) (engine b : Nat) (l : List Byte) {a : Nat} (hic : a / 65536 ≠ 0x2001)
    (hev : a / 65536 ≠ 0x200C) : (busStore s engine b l).2.rd a = s.rd a := by
  simp only [busStore, engineError]
  split
  · rfl
  · exact busError_rd_ne (busWrite _ _ _) _ _ hic hev

/-! What a delivery may change -/

/-- A register that a delivery may change: of the interrupt controller, or in a block from that of the fabric on. -/
def DeliveryReg (a : Nat) : Prop := a / 65536 = 0x2001 ∨ 0x20090000 ≤ a

/-- The state t with all that a delivery may change as it was in s. -/
def State.undelivered (s t : State) : State :=
  { t with
    regs := s.regs, ev := s.ev, kp := s.kp, procs := s.procs, delivery := s.delivery, mem := s.mem, dram := s.dram,
    fab := s.fab, out := s.out }

/-- Where a ring lies and what it takes: all of it but SEQ. -/
def Ring.layout (r : Ring) : Nat × Nat × Nat := (r.base, r.depth, r.mode)

/-- The delivery of a sample may change what consumers received, the bytes of the sample rings and their SEQ, what goes out, the
fabric, and what a bus error reports (R19, R21, R282, R358). -/
structure DeliveryStep (s t : State) : Prop where
  rest : s.undelivered t = s
  rd : ∀ a, ¬ DeliveryReg a → t.rd a = s.rd a
  out : s.out ⊆ t.out
  ring : ∀ k, (t.ringOf k).layout = (s.ringOf k).layout
  mem : SameOutsideRings s t

theorem inRing_of_ring {s t : State} (h : ∀ k, (t.ringOf k).layout = (s.ringOf k).layout) {a : Nat}
    (ha : InRing t a) : InRing s a := by
  obtain ⟨k, hk, hbase, hlo, hhi⟩ := ha
  have hlayout := h k
  simp only [Ring.layout, Prod.mk.injEq] at hlayout
  obtain ⟨hb, hd, hm⟩ := hlayout
  rw [hb] at hbase hlo
  rw [hb, hm, hd] at hhi
  exact ⟨k, hk, hbase, hlo, hhi⟩

namespace DeliveryStep

theorem refl (s : State) : DeliveryStep s s := ⟨rfl, fun _ _ => rfl, List.Subset.refl _, fun _ => rfl, fun _ _ => rfl⟩

section
variable {s t u : State}

theorem trans (h : DeliveryStep s t) (k : DeliveryStep t u) : DeliveryStep s u where
  rest := by
    have hrest := h.rest
    rw [← k.rest] at hrest
    exact hrest
  rd a ha := (k.rd a ha).trans (h.rd a ha)
  out := List.Subset.trans h.out k.out
  ring i := (k.ring i).trans (h.ring i)
  mem a ha := (k.mem a fun hin => ha (inRing_of_ring h.ring hin)).trans (h.mem a ha)

/-- A fold of such steps is one. -/
theorem foldl {α : Type} {f : State → α → State} (l : List α) (s : State) (h : ∀ x u, DeliveryStep u (f u x)) :
    DeliveryStep s (l.foldl f s) := by
  induction l generalizing s with
  | nil => exact refl s
  | cons x l ih => exact (h x s).trans (ih (f s x))

theorem ite {p : Prop} [Decidable p] (h : DeliveryStep s t) (k : DeliveryStep s u) :
    DeliveryStep s (if p then t else u) := by
  split
  · exact h
  · exact k

theorem sens (h : DeliveryStep s t) : t.sens = s.sens := by
  have hrest := congrArg State.sens h.rest
  exact hrest

end

/-! The elementary updates -/
section
variable (s : State)

theorem emit (o : Out) : DeliveryStep s (s.emit o) :=
  ⟨rfl, fun _ _ => rfl, List.subset_cons_self _ _, fun _ => rfl, fun _ _ => rfl⟩

theorem setFab (f : Fabric) : DeliveryStep s (s.setFab f) :=
  ⟨rfl, fun _ _ => rfl, List.Subset.refl _, fun _ => rfl, fun _ _ => rfl⟩

theorem count {a : Nat} (h : DeliveryReg a) (n : Nat) : DeliveryStep s (s.count a n) :=
  ⟨rfl, fun _ hb => wr_rd_ne _ _ _ _ fun hab => hb (hab ▸ h), List.Subset.refl _, fun _ => rfl, fun _ _ => rfl⟩

/-- What consumers received may change while the rings stay. -/
theorem setDelivery {d : Delivery} (h : d.rings = s.delivery.rings) : DeliveryStep s { s with delivery := d } :=
  ⟨rfl, fun _ _ => rfl, List.Subset.refl _, fun k => by simp only [ringOf, h], fun _ _ => rfl⟩

/-! The parts of a delivery -/

theorem flueLeave (f : FlueFrame) (ports : List Nat) : DeliveryStep s (flueLeave f ports s) :=
  foldl ports s fun p u => ite
    ((count u (.inr (by simp only [R.fbPtxfrm]; omega)) 1).trans (emit _ (.flue p f))) (refl u)

theorem flueEmit (w : FlueWay) (cls kind dst flags epoch : Nat) (payload : List Byte) :
    DeliveryStep s (flueEmit s w cls kind dst flags epoch payload) :=
  ite (refl s) ((setFab s _).trans (flueLeave _ _ _))

theorem publish (k : Nat) (ts : Time) (v : F32) (rec : List Byte) : DeliveryStep s (publish s k ts v rec) :=
  ite (refl s) (ite (flueEmit s _ _ _ _ _ _ _) (ite (flueEmit s _ _ _ _ _ _ _) (refl s)))

theorem ringWrite {k : Nat} (hk : k < 256) (stream : Nat) (ts : Time) (v : F32) (rec : List Byte) :
    DeliveryStep s (ringWrite s k stream ts v rec) := by
  by_cases hc : (s.ringOf k).base = 0 ∨ (s.ringOf k).depth = 0
  · rw [ringWrite_of_unconfigured s k stream ts v rec hc]
    exact refl s
  · obtain ⟨hb, hd⟩ := not_or.1 hc
    have hmem := ringWrite_sameOutsideRings s stream ts v rec hk
    rw [ringWrite_of_configured s k stream ts v rec hb hd] at hmem ⊢
    obtain ⟨r, x, y, z, m, d, hstore⟩ :=
      busStore_only s 6 (s.ringOf k).entryAt (ringEntry (s.ringOf k) stream ts v rec)
    refine ⟨?_, fun a ha => ?_, ?_, fun j => ?_, hmem⟩
    · rw [hstore]; rfl
    · unfold DeliveryReg at ha
      exact busStore_rd_ne s 6 _ _ (by omega) (by omega)
    · rw [hstore]; exact List.Subset.refl _
    · rw [setRing_ringOf]
      split
      next hj => rw [hj]; rfl
      next => rw [hstore]; rfl

theorem deliverTo (c stream : Nat) (smp : Sample) : DeliveryStep s (deliverTo s c stream smp) := by
  have hlatest := setDelivery s (d := { s.delivery with latest := Tbl.set s.delivery.latest {} c smp }) rfl
  unfold Machine.deliverTo loopDeliver
  split_ifs
  · exact hlatest.trans (setDelivery _ rfl)
  · exact hlatest.trans (setDelivery _ rfl)
  · exact hlatest
  · exact hlatest.trans (publish _ _ _ _ _)
  · exact hlatest.trans (ringWrite _ (by omega) _ _ _ _)
  · exact hlatest.trans (setDelivery _ rfl)

theorem deliverBy (c : TrellisCopy) (stream : Nat) (ts : Time) (v : F32) (fault : Bool) (rec : List Byte) :
    DeliveryStep s (deliverBy s c stream ts v fault rec) :=
  ite (refl s) (ite (setDelivery s rfl) (deliverTo s _ _ _))

/-- From the sample's own output on, its delivery over every route. -/
theorem deliver (stream : Nat) (ts : Time) (v : F32) (fault : Bool) (rec : List Byte) :
    DeliveryStep (s.emit (.sample stream ts v fault)) (deliver s stream ts v fault rec) :=
  foldl _ _ fun c u => deliverBy u c stream ts v fault rec

theorem produce (stream : Nat) (ts : Time) (v : F32) : DeliveryStep s (produce s stream ts v) :=
  (emit s _).trans (deliver s stream ts v false [])

end
end DeliveryStep

/-! A produced sample -/
section
variable (s : State) (stream : Nat) (ts : Time) (v : F32)

/-- A produced sample goes out. -/
theorem mem_produce_out : Out.sample stream ts v false ∈ (produce s stream ts v).out :=
  (DeliveryStep.deliver s stream ts v false []).out List.mem_cons_self

@[simp] theorem produce_sens : (produce s stream ts v).sens = s.sens := (DeliveryStep.produce s stream ts v).sens

theorem produce_rd {a : Nat} (h : ¬ DeliveryReg a) : (produce s stream ts v).rd a = s.rd a :=
  (DeliveryStep.produce s stream ts v).rd a h

end

/-- A sample produced in a state of the same memory and rings changes bytes of the rings alone. -/
theorem produce_sameOutsideRings {s u : State} (hm : u.mem = s.mem) (hd : u.delivery = s.delivery) (stream : Nat) (ts : Time)
    (v : F32) : SameOutsideRings s (produce u stream ts v) := by
  intro a ha
  have hrings : ∀ k, (u.ringOf k).layout = (s.ringOf k).layout := fun k => by simp only [ringOf, hd]
  exact ((DeliveryStep.produce u stream ts v).mem a fun hin => ha (inRing_of_ring hrings hin)).trans (by rw [hm])

end Sys2Proof.Machine

/-! The reports of the sensor inputs, and the records of their analog and pulse inputs (05_sensor_inputs.md). -/
namespace Sys2Proof.Machine
open State

/-- A register of the block of the sensor inputs. -/
abbrev SensorReg (a : Nat) : Prop := a / 65536 = 0x2005

theorem SensorReg.not_delivery {a : Nat} (h : SensorReg a) : ¬ DeliveryReg a := by
  unfold DeliveryReg
  omega

/-! Sources 384 to 392 with their events -/
section
variable (s : State) {src en b a : Nat} (hp : irqPlace src = some (R.siIrqStat, en, b)) (hs : src < 1024)
variable (code : Nat) (data : List Byte)
include hp hs

/-- Of the sensor inputs' registers a source and its event change the IRQ bit of the source. -/
theorem sensorReport_rd (ha : SensorReg a) :
    ((s.fire src).log code data).rd a = (s.set ⟨R.siIrqStat, b, 1⟩ 1).rd a :=
  (log_rd_ne _ _ _ (by omega) (by omega)).trans (fire_rd_of_place s hp hs (by omega))

theorem sensorReport_rd_ne (ha : SensorReg a) (hne : a ≠ R.siIrqStat) : ((s.fire src).log code data).rd a = s.rd a :=
  (sensorReport_rd s hp hs code data ha).trans (set_rd_ne _ _ _ _ hne)

theorem sensorReport_irq (hb : b < 32) : ((s.fire src).log code data).flag ⟨R.siIrqStat, b, 1⟩ = true :=
  (flag_of_rd (sensorReport_rd s hp hs code data (a := R.siIrqStat) (by decide))).trans
    (set_flag _ _ _ (show b + 1 ≤ 32 from hb) rfl)

end

namespace State

/-! The record of an analog input -/
section
variable (s : State) (n : Nat) (x : AnalogIn)
@[simp] theorem setAi_rd (a : Nat) : (s.setAi n x).rd a = s.rd a := rfl
@[simp] theorem setAi_get (f : Fld) : (s.setAi n x).get f = s.get f := rfl
@[simp] theorem setAi_flag (f : Fld) : (s.setAi n x).flag f = s.flag f := rfl
@[simp] theorem setAi_mem : (s.setAi n x).mem = s.mem := rfl
@[simp] theorem setAi_delivery : (s.setAi n x).delivery = s.delivery := rfl
@[simp] theorem setAi_out : (s.setAi n x).out = s.out := rfl
@[simp] theorem setAi_aiOf_self : (s.setAi n x).aiOf n = x := Tbl.get_set_self _ _ _ _
@[simp] theorem set_aiOf (f : Fld) (v : Nat) : (s.set f v).aiOf n = s.aiOf n := rfl
@[simp] theorem wr_aiOf (a : Nat) (v : Word) : (s.wr a v).aiOf n = s.aiOf n := rfl
end

/-! The record of a pulse input -/
section
variable (s : State) (n : Nat) (x : PulseIn)
@[simp] theorem setPi_rd (a : Nat) : (s.setPi n x).rd a = s.rd a := rfl
@[simp] theorem setPi_get (f : Fld) : (s.setPi n x).get f = s.get f := rfl
@[simp] theorem setPi_flag (f : Fld) : (s.setPi n x).flag f = s.flag f := rfl
@[simp] theorem setPi_mem : (s.setPi n x).mem = s.mem := rfl
@[simp] theorem setPi_delivery : (s.setPi n x).delivery = s.delivery := rfl
@[simp] theorem setPi_piOf_self : (s.setPi n x).piOf n = x := Tbl.get_set_self _ _ _ _
@[simp] theorem set_piOf (f : Fld) (v : Nat) : (s.set f v).piOf n = s.piOf n := rfl
@[simp] theorem put_piOf (f : Fld) (v : Bool) : (s.put f v).piOf n = s.piOf n := rfl
@[simp] theorem wr_piOf (a : Nat) (v : Word) : (s.wr a v).piOf n = s.piOf n := rfl
@[simp] theorem wr64_piOf (a v : Nat) : (s.wr64 a v).piOf n = s.piOf n := rfl
@[simp] theorem count_piOf (a k : Nat) : (s.count a k).piOf n = s.piOf n := rfl
@[simp] theorem devTo_piOf (t : Time) : (s.devTo t).piOf n = s.piOf n := by simp [piOf]
end

end State
end Sys2Proof.Machine

/-! Analog inputs and sensor supplies (05_sensor_inputs.md R113 to R117). -/
namespace Sys2Proof.Machine
open State

/-- Whether a supply is on follows from SI_SPCTRL. -/
theorem supplyOn_of_rd {s t : State} (h : t.rd R.siSpctrl = s.rd R.siSpctrl) {k : Nat} : t.supplyOn k = s.supplyOn k := by
  simp only [supplyOn, flag, State.get, h]

/-! A sample (R115) -/
section
variable (s : State) (n : Nat) (x y : F32)

/-- The instant of the next sample. -/
def aiInstant : Time := gridNext (s.get (R.siAicfgPer n) * 50000) (s.aiOf n).last s.time.dev

/-- The midpoint of its conversions. -/
def aiStamp : Time := aiInstant s n + (aiSlot s n (aiInstant s n)).1 + (aiSlot s n (aiInstant s n)).2 / 2

/-- What the low-pass filter makes of a sample. -/
def aiFiltered : F32 :=
  if s.get (R.siAitauTau n) = 0 then x
  else match (s.aiOf n).filter with
    | none => x
    | some p => Config.lowPass (s.get (R.siAitauTau n)) (s.get (R.siAicfgPer n)) p x

/-- The value y stands in the value register and in the filter. -/
def aiStored : State :=
  (s.setAi n { s.aiOf n with filter := if s.get (R.siAitauTau n) = 0 then none else some y }).wr (R.siAival n) y

/-- The instant of the sample has come. -/
def aiReached : State := (s.devTo (aiInstant s n)).setAi n { s.aiOf n with last := some (aiInstant s n) }

/-- The sample is compared with the range of the input's mode. -/
def aiRanged : State :=
  if aiOutOfRange (s.get (R.siAicfgMode n)) x then (aiReached s n).set (R.siAistatOor n) 1 else aiReached s n

theorem aiReached_rd (a : Nat) : (aiReached s n).rd a = s.rd a := by simp [aiReached]

theorem aiRanged_keeps {β : Type} (p : State → β) (h : p ((aiReached s n).set (R.siAistatOor n) 1) = p (aiReached s n)) :
    p (aiRanged s n x) = p (aiReached s n) := by
  unfold aiRanged
  split
  · exact h
  · rfl

theorem aiRanged_rd {a : Nat} (h : a ≠ R.siAistat n) : (aiRanged s n x).rd a = s.rd a :=
  (aiRanged_keeps s n x (·.rd a) (set_rd_ne _ _ _ _ h)).trans (aiReached_rd s n a)

theorem aiRanged_get {f : Fld} (h : f.addr ≠ R.siAistat n) : (aiRanged s n x).get f = s.get f :=
  get_of_rd (aiRanged_rd s n x h)

theorem aiRanged_aiOf : (aiRanged s n x).aiOf n = { s.aiOf n with last := some (aiInstant s n) } :=
  (aiRanged_keeps s n x (·.aiOf n) rfl).trans (setAi_aiOf_self _ _ _)

theorem aiRanged_mem : (aiRanged s n x).mem = s.mem :=
  (aiRanged_keeps s n x (·.mem) rfl).trans (devTo_mem _ _)

theorem aiRanged_delivery : (aiRanged s n x).delivery = s.delivery :=
  (aiRanged_keeps s n x (·.delivery) rfl).trans (devTo_delivery _ _)

theorem aiRanged_oor (h : aiOutOfRange (s.get (R.siAicfgMode n)) x = true) :
    (aiRanged s n x).flag (R.siAistatOor n) = true := by
  rw [aiRanged, if_pos h]
  exact set_flag _ _ _ (show 0 + 1 ≤ 32 by omega) rfl

theorem siAicfg_ne_siAistat (m : Nat) : R.siAicfg m ≠ R.siAistat n := by simp only [R.siAicfg, R.siAistat]; omega

theorem siAitau_ne_siAistat : R.siAitau n ≠ R.siAistat n := by simp only [R.siAitau, R.siAistat]; omega

/-- The place of an input among those that coincide with it follows from their configurations. -/
theorem aiSlot_of_rd {u : State} (h : ∀ m, u.rd (R.siAicfg m) = s.rd (R.siAicfg m)) (t : Time) :
    aiSlot u n t = aiSlot s n t := by
  simp only [aiSlot, State.get, h]
  rfl

theorem aiRanged_slot (t : Time) : aiSlot (aiRanged s n x) n t = aiSlot s n t :=
  aiSlot_of_rd s n (fun m => aiRanged_rd s n x (siAicfg_ne_siAistat n m)) t

theorem aiRanged_filtered : aiFiltered (aiRanged s n x) n x = aiFiltered s n x := by
  simp only [aiFiltered, aiRanged_get s n x (f := R.siAitauTau n) (siAitau_ne_siAistat n),
    aiRanged_get s n x (f := R.siAicfgPer n) (siAicfg_ne_siAistat n n), aiRanged_aiOf]

theorem aiFiltered_of_unfiltered (h : s.get (R.siAitauTau n) = 0) : aiFiltered s n x = x := if_pos h

theorem aiFiltered_of_filter (h : s.get (R.siAitauTau n) ≠ 0) : aiFiltered s n x =
    ((s.aiOf n).filter.map fun p => Config.lowPass (s.get (R.siAitauTau n)) (s.get (R.siAicfgPer n)) p x).getD x := by
  rw [aiFiltered, if_neg h]
  cases (s.aiOf n).filter with
  | none => rfl
  | some p => rfl

theorem aiReached_supplyOn (k : Nat) : (aiReached s n).supplyOn k = s.supplyOn k := supplyOn_of_rd (aiReached_rd s n _)

theorem aiReached_rsup : (aiReached s n).get (R.siAicfgRsup n) = s.get (R.siAicfgRsup n) := get_of_rd (aiReached_rd s n _)

section
variable (hn : n < 48) (hg : s.gateOn 5 = true) (hb : aiBlocked s n = false)
include hn hg hb

theorem exec_aiSample (hm : s.get (R.siAicfgMode n) ≠ 6 ∨ s.supplyOn (s.get (R.siAicfgRsup n)) = true) :
    exec (.aiSample n x) s =
      .next (produce (aiStored (aiRanged s n x) n (aiFiltered s n x)) n (aiStamp s n) (aiFiltered s n x)) := by
  have hin : ¬ (n > 47 ∨ aiBlocked s n = true) := by simp [hb]; omega
  have hon : ¬ (s.get (R.siAicfgMode n) = 6 ∧ (!(aiReached s n).supplyOn ((aiReached s n).get (R.siAicfgRsup n))) = true) := by
    rw [aiReached_rsup, aiReached_supplyOn]
    rintro ⟨hmode, hoff⟩
    simp [hmode] at hm
    simp [hm] at hoff
  refine (if_pos hg).trans ((if_neg hin).trans ((if_neg hon).trans ?_))
  rw [aiStamp, ← aiRanged_slot s n x, ← aiRanged_filtered]
  rfl

/-- An input whose supply is off shows it. -/
theorem exec_aiSample_of_supplyOff (hm : s.get (R.siAicfgMode n) = 6)
    (hs : s.supplyOn (s.get (R.siAicfgRsup n)) = false) :
    exec (.aiSample n x) s = .next ((aiReached s n).set (R.siAistatSupply n) 1) := by
  have hin : ¬ (n > 47 ∨ aiBlocked s n = true) := by simp [hb]; omega
  refine (if_pos hg).trans ((if_neg hin).trans (if_pos ⟨hm, ?_⟩))
  have hoff : (aiReached s n).supplyOn ((aiReached s n).get (R.siAicfgRsup n)) = false := by
    rw [aiReached_rsup, aiReached_supplyOn, hs]
  exact congrArg not hoff

end
end

/-! What a sample leaves in the registers and goes out with -/
section
variable (s : State) (n : Nat) (x y z : F32) (stream : Nat) (ts : Time)

theorem sensorReg_aival (hn : n < 48) : SensorReg (R.siAival n) := by simp only [SensorReg, R.siAival]; omega

theorem sensorReg_aistat (hn : n < 48) : SensorReg (R.siAistat n) := by simp only [SensorReg, R.siAistat]; omega

theorem aiStored_rd (h : n < 48) : (produce (aiStored s n y) stream ts z).rd (R.siAival n) = y :=
  (produce_rd _ _ _ _ (sensorReg_aival n h).not_delivery).trans (wr_rd_self _ _ _)

theorem aiStored_flag_aistat (h : n < 48) (l : Nat) :
    (produce (aiStored s n y) stream ts z).flag ⟨R.siAistat n, l, 1⟩ = s.flag ⟨R.siAistat n, l, 1⟩ := by
  have hne : R.siAistat n ≠ R.siAival n := by simp only [R.siAistat, R.siAival]; omega
  exact flag_of_rd ((produce_rd _ _ _ _ (sensorReg_aistat n h).not_delivery).trans (wr_rd_ne _ _ _ _ hne))

theorem aiStored_filter (h : s.get (R.siAitauTau n) ≠ 0) :
    ((produce (aiStored s n y) stream ts z).aiOf n).filter = some y := by
  have hkeep : (produce (aiStored s n y) stream ts z).aiOf n = (aiStored s n y).aiOf n := by simp [aiOf]
  rw [hkeep, aiStored, wr_aiOf, setAi_aiOf_self, if_neg h]

theorem aiStored_sameOutsideRings :
    SameOutsideRings s (produce (aiStored (aiRanged s n x) n y) stream ts z) :=
  produce_sameOutsideRings (u := aiStored (aiRanged s n x) n y) (aiRanged_mem s n x) (aiRanged_delivery s n x) stream ts z

end

/-! Configuration and latched faults (R114, R116) -/
section
variable (s : State) (n : Nat) (v : Word)

/-- SI_AICFG of input n after a write that takes effect. -/
def aiConfigTaken : Nat := applyFields (fieldsAt (R.siAicfg n)) (s.rd (R.siAicfg n)).toNat v.toNat

theorem aiConfig_of_overBudget (h9 : bit v 9 = false)
    (h : 1000000 * (conversions (converterWords s n (aiConfigTaken s n v))).2 <
      (conversions (converterWords s n (aiConfigTaken s n v))).1) :
    (aiConfig s n v).1 = (s.set (R.siAistatErr n) 1).log 0x090A (leBytes 1 (n / 16) ++ leBytes 4
      (ceilDiv (conversions (converterWords s n (aiConfigTaken s n v))).1
        (conversions (converterWords s n (aiConfigTaken s n v))).2)) := by
  simp only [aiConfig, h9, Bool.false_eq_true, if_false]
  exact congrArg Prod.fst (if_pos h)

theorem aiConfig_of_withinBudget (h9 : bit v 9 = false)
    (h : (conversions (converterWords s n (aiConfigTaken s n v))).1 ≤
      1000000 * (conversions (converterWords s n (aiConfigTaken s n v))).2)
    (hok : illegal (fieldsAt (R.siAicfg n)) v.toNat = false) :
    (aiConfig s n v).1 = supplyShow (s.wr (R.siAicfg n) (BitVec.ofNat 32 (aiConfigTaken s n v))) := by
  simp only [aiConfig, h9, hok, Bool.false_eq_true, if_false]
  exact congrArg Prod.fst (if_neg (Nat.not_lt.2 h))

/-- A latched fault of an analog input: a flag of SI_AISTAT, source 384 and event 0x0904. -/
def aiLatched (l which : Nat) : State :=
  ((s.set ⟨R.siAistat n, l, 1⟩ 1).fire 384).log 0x0904 (leBytes 1 n ++ leBytes 1 which)

theorem aiLatched_flag (hn : n < 48) {l : Nat} (hl : l < 32) (which : Nat) :
    (aiLatched s n l which).flag ⟨R.siAistat n, l, 1⟩ = true := by
  have hne : R.siAistat n ≠ R.siIrqStat := by simp only [R.siAistat, R.siIrqStat]; omega
  exact (flag_of_rd (sensorReport_rd_ne _ rfl (by omega) _ _ (sensorReg_aistat n hn) hne)).trans
    (set_flag _ _ _ (show l + 1 ≤ 32 from hl) rfl)

theorem aiLatched_irq (l which : Nat) : (aiLatched s n l which).flag ⟨R.siIrqStat, 0, 1⟩ = true :=
  sensorReport_irq _ rfl (by omega) _ _ (by omega)

theorem aiBlocked_of_open (h : s.flag (R.siAistatOpen n) = true) : aiBlocked s n = true := by simp [aiBlocked, h]

theorem aiBlocked_of_burden (h : s.flag (R.siAistatBurden n) = true) : aiBlocked s n = true := by simp [aiBlocked, h]

variable (hn : n < 48) (hg : s.gateOn 5 = true)
include hn hg

theorem exec_aiConfigWrite : exec (.aiConfigWrite n v) s = .next (aiConfig s n v).1 :=
  (if_neg (by omega)).trans (if_pos hg)

theorem exec_aiFclr : exec (.aiFclr n) s = .next (aiFclr s n) := (if_neg (by omega)).trans (if_pos hg)

theorem exec_aiLatchedFault_open (hm : s.get (R.siAicfgMode n) = 5) :
    exec (.aiLatchedFault n) s = .next (aiLatched s n 1 0) :=
  (if_pos hg).trans ((if_neg (by omega)).trans (if_pos hm))

theorem exec_aiLatchedFault_burden (hm : s.get (R.siAicfgMode n) = 4) :
    exec (.aiLatchedFault n) s = .next (aiLatched s n 2 1) :=
  (if_pos hg).trans ((if_neg (by omega)).trans ((if_neg (by omega)).trans (if_pos hm)))

end

/-! Supplies (R117) -/
section
variable (s : State) (k : Nat)

/-- SUPPLY of the inputs of a list, where `b` says of each what it shows. -/
theorem putSupplies_flag (b : Nat → Bool) {l : List Nat} {n : Nat}
    (h : n ∈ l ∨ s.flag (R.siAistatSupply n) = b n) :
    (l.foldl (fun u m => u.put (R.siAistatSupply m) (b m)) s).flag (R.siAistatSupply n) = b n := by
  induction l generalizing s with
  | nil => exact h.resolve_left List.not_mem_nil
  | cons m l ih =>
    refine ih _ ?_
    by_cases hm : n = m
    · subst hm
      exact .inr (put_flag _ _ _ (show 3 + 1 ≤ 32 by omega) rfl)
    · have hne : R.siAistat n ≠ R.siAistat m := by simp only [R.siAistat]; omega
      refine h.imp (fun hin => (List.mem_cons.1 hin).resolve_left hm) fun hs => ?_
      exact (set_flag_ne _ _ _ _ (show 3 + 1 ≤ 32 by omega) (.inl hne)).trans hs

theorem supplyShow_flag {n : Nat} (hn : n < 48) : (supplyShow s).flag (R.siAistatSupply n) =
    (s.get (R.siAicfgMode n) == 6 && !s.supplyOn (s.get (R.siAicfgRsup n))) :=
  putSupplies_flag s (fun m => s.get (R.siAicfgMode m) == 6 && !s.supplyOn (s.get (R.siAicfgRsup m)))
    (.inl (List.mem_range.2 hn))

theorem supplyShow_mem : (supplyShow s).mem = s.mem := foldl_keeps (·.mem) _ _ fun _ _ _ => rfl

theorem supplyShow_rd_ne {a : Nat} (h : ∀ n, a ≠ R.siAistat n) : (supplyShow s).rd a = s.rd a :=
  foldl_keeps (·.rd a) _ _ fun n _ _ => set_rd_ne _ _ _ _ (h n)

/-- The measured values and the fault bit of a supply that faults. -/
def supplyFaulted (mV mA : Nat) : State :=
  ((s.set (R.siSpmeasV k) mV).set (R.siSpmeasI k) mA).set ⟨R.siSpctrl, 4 + k, 1⟩ 1

/-- A fault of supply k: its registers, SUPPLY of the inputs, source 385 and event 0x0905. -/
def supplyReported (mV mA : Nat) : State :=
  ((supplyShow (supplyFaulted s k mV mA)).fire 385).log 0x0905 (leBytes 1 k ++ leBytes 2 mA)

variable (mV mA : Nat)

theorem exec_supplyFault (hk : k < 4) (hf : s.flag ⟨R.siSpctrl, 4 + k, 1⟩ = false)
    (hc : s.flag ⟨R.siSpctrl, k, 1⟩ = true ∨ 5500 < mV) :
    exec (.supplyFault k mV mA) s = .next (supplyReported s k mV mA) := by
  refine if_neg ?_
  rintro (hk' | hf' | ⟨hon, hv⟩)
  · omega
  · simp [hf] at hf'
  · rcases hc with hc | hc
    · simp [hon] at hc
    · omega

theorem exec_supplyClear (hk : k < 4) (hg : s.gateOn 5 = true) :
    exec (.supplyClear k) s = .next (supplyClear s k) := (if_neg (by omega)).trans (if_pos hg)

/-- Below the inputs' registers the report of a supply's fault changes the IRQ bit alone. -/
theorem supplyReported_rd {a : Nat} (ha : 0x20050014 ≤ a ∧ a < 0x20050100) :
    (supplyReported s k mV mA).rd a = (supplyFaulted s k mV mA).rd a := by
  have hirq : a ≠ R.siIrqStat := by simp only [R.siIrqStat]; omega
  exact (sensorReport_rd_ne _ rfl (by omega) _ _ (by simp only [SensorReg]; omega) hirq).trans
    (supplyShow_rd_ne _ fun n => by simp only [R.siAistat]; omega)

theorem supplyFaulted_get (hk : k < 4) (hV : mV < 65536) (hA : mA < 65536) :
    (supplyFaulted s k mV mA).get (R.siSpmeasV k) = mV ∧ (supplyFaulted s k mV mA).get (R.siSpmeasI k) = mA := by
  have hne : R.siSpmeas k ≠ R.siSpctrl := by simp only [R.siSpmeas, R.siSpctrl]; omega
  have hfit : 4 + k + 1 ≤ 32 := by omega
  have hlow : 0 + 16 ≤ 32 := by omega
  have hhigh : 16 + 16 ≤ 32 := by omega
  constructor
  · rw [supplyFaulted, set_get_ne _ _ _ _ hfit (.inl hne),
      set_get_ne _ (R.siSpmeasI k) (R.siSpmeasV k) _ hhigh (.inr (.inl (Nat.le_refl 16))), set_get _ _ _ hlow]
    exact Nat.mod_eq_of_lt hV
  · rw [supplyFaulted, set_get_ne _ _ _ _ hfit (.inl hne), set_get _ _ _ hhigh]
    exact Nat.mod_eq_of_lt hA

theorem supplyFaulted_supplyOn (hk : k < 4) : (supplyFaulted s k mV mA).supplyOn k = false := by
  have hfault : (supplyFaulted s k mV mA).flag ⟨R.siSpctrl, 4 + k, 1⟩ = true :=
    set_flag _ _ _ (show 4 + k + 1 ≤ 32 by omega) rfl
  simp [supplyOn, hfault]

theorem supplyFaulted_rd_ne (hk : k < 4) {a : Nat} (ha : 0x20050034 ≤ a) : (supplyFaulted s k mV mA).rd a = s.rd a := by
  have hmeas : a ≠ R.siSpmeas k := by simp only [R.siSpmeas]; omega
  have hctrl : a ≠ R.siSpctrl := by simp only [R.siSpctrl]; omega
  rw [supplyFaulted, set_rd_ne _ _ _ _ hctrl, set_rd_ne _ _ _ _ hmeas, set_rd_ne _ _ _ _ hmeas]

theorem supplyReported_supplyOn (hk : k < 4) : (supplyReported s k mV mA).supplyOn k = false := by
  rw [supplyOn_of_rd (supplyReported_rd s k mV mA (a := R.siSpctrl) (by decide)), supplyFaulted_supplyOn s k mV mA hk]

theorem supplyReported_mem : (supplyReported s k mV mA).mem = s.mem := by
  rw [supplyReported, log_mem, fire_mem, supplyShow_mem, supplyFaulted, set_mem, set_mem, set_mem]

/-- The ratiometric inputs of a faulted supply show it. -/
theorem supplyReported_supply (hk : k < 4) {n : Nat} (hn : n < 48) (hm : s.get (R.siAicfgMode n) = 6)
    (hr : s.get (R.siAicfgRsup n) = k) : (supplyReported s k mV mA).flag (R.siAistatSupply n) = true := by
  have hirq : R.siAistat n ≠ R.siIrqStat := by simp only [R.siAistat, R.siIrqStat]; omega
  have hcfg : (supplyFaulted s k mV mA).rd (R.siAicfg n) = s.rd (R.siAicfg n) :=
    supplyFaulted_rd_ne s k mV mA hk (by simp only [R.siAicfg]; omega)
  have hmode : (supplyFaulted s k mV mA).get (R.siAicfgMode n) = 6 := (get_of_rd hcfg).trans hm
  have hrsup : (supplyFaulted s k mV mA).get (R.siAicfgRsup n) = k := (get_of_rd hcfg).trans hr
  rw [supplyReported, flag_of_rd (f := R.siAistatSupply n)
    (sensorReport_rd_ne _ rfl (by omega) _ _ (sensorReg_aistat n hn) hirq), supplyShow_flag _ hn, hmode, hrsup,
    supplyFaulted_supplyOn s k mV mA hk]
  rfl

end

/-- Settles O25: a sample is put together from the states of its steps (reached, ranged, stored), of which its delivery leaves
the sensor inputs' registers (`DeliveryStep`); a fault's report changes one IRQ bit of them. -/
theorem analogInputsSample : Obligations.AnalogInputsSample := by
  intro s n k mV mA x v hn hk hg
  refine ⟨fun hb hm htau => ?_, fun hb hm hoff => ⟨_, exec_aiSample_of_supplyOff s n x hn hg hb hm hoff,
      set_flag _ _ _ (show 3 + 1 ≤ 32 by omega) rfl, ?_, fun a => ?_⟩,
    fun h9 => ⟨fun h => ?_, fun h hok => ?_⟩,
    fun hm => ⟨_, exec_aiLatchedFault_open s n hn hg hm, aiLatched_flag s n hn (by omega) 0, aiLatched_irq s n 1 0,
      aiBlocked_of_open _ n (aiLatched_flag s n hn (by omega) 0)⟩,
    fun hm => ⟨_, exec_aiLatchedFault_burden s n hn hg hm, aiLatched_flag s n hn (by omega) 1, aiLatched_irq s n 2 1,
      aiBlocked_of_burden _ n (aiLatched_flag s n hn (by omega) 1)⟩,
    exec_aiFclr s n hn hg, fun hf hc hV hA => ?_, exec_supplyClear s k hk hg, exec_aiConfigWrite s n v hn hg,
    fun hb hm htau => ?_⟩
  · have hexec := exec_aiSample s n x hn hg hb hm
    rw [aiFiltered_of_unfiltered s n x htau] at hexec
    exact ⟨_, hexec, aiStored_rd _ n x x n _ hn,
      fun hoor => (aiStored_flag_aistat _ n x x n _ hn 0).trans (aiRanged_oor s n x hoor),
      mem_produce_out _ n (aiStamp s n) x, aiStored_sameOutsideRings s n x x x n _⟩
  · exact devTo_out s _
  · exact congrArg (·.read a) (devTo_mem s _)
  · exact (exec_aiConfigWrite s n v hn hg).trans (congrArg _ (aiConfig_of_overBudget s n v h9 h))
  · exact (exec_aiConfigWrite s n v hn hg).trans (congrArg _ (aiConfig_of_withinBudget s n v h9 h hok))
  · have hget := supplyFaulted_get s k mV mA hk hV hA
    have hmeas := supplyReported_rd s k mV mA (a := R.siSpmeas k) (by simp only [R.siSpmeas]; omega)
    exact ⟨_, exec_supplyFault s k mV mA hk hf hc, supplyReported_supplyOn s k mV mA hk,
      sensorReport_irq _ rfl (by omega) _ _ (by omega), (get_of_rd hmeas).trans hget.1, (get_of_rd hmeas).trans hget.2,
      supplyReported_supply s k mV mA hk hn, fun a => by rw [supplyReported_mem]⟩
  · have hexec := exec_aiSample s n x hn hg hb hm
    have htau' : (aiRanged s n x).get (R.siAitauTau n) ≠ 0 := by
      rwa [aiRanged_get s n x (f := R.siAitauTau n) (siAitau_ne_siAistat n)]
    rw [aiFiltered_of_filter s n x htau] at hexec
    exact ⟨_, hexec, aiStored_rd _ n _ _ n _ hn, aiStored_filter _ n _ _ n _ htau',
      mem_produce_out _ n (aiStamp s n) _, aiStored_sameOutsideRings s n x _ _ n _⟩

end Sys2Proof.Machine

/-! Pulse inputs: edges, counts and publications (05_sensor_inputs.md R118 to R120). -/
namespace Sys2Proof.Machine
open State

/-- 64 bits read as last written to their two registers. -/
theorem State.wr64_rd64 (s : State) (a : Nat) {v : Nat} (h : v < 2 ^ 64) : (s.wr64 a v).rd64 a = v := by
  have hlow : (s.wr64 a v).rd a = BitVec.ofNat 32 v := (wr_rd_ne _ _ _ _ (by omega)).trans (wr_rd_self _ _ _)
  have hhigh : (s.wr64 a v).rd (a + 4) = BitVec.ofNat 32 (v / 4294967296) := wr_rd_self _ _ _
  rw [rd64, hlow, hhigh, BitVec.toNat_ofNat, BitVec.toNat_ofNat]
  omega

theorem State.wr64_rd_ne (s : State) {a b v : Nat} (hlow : b ≠ a) (hhigh : b ≠ a + 4) : (s.wr64 a v).rd b = s.rd b :=
  (wr_rd_ne _ _ _ _ hhigh).trans (wr_rd_ne _ _ _ _ hlow)

theorem State.rd64_of_rd {s t : State} {a : Nat} (hlow : t.rd a = s.rd a) (hhigh : t.rd (a + 4) = s.rd (a + 4)) :
    t.rd64 a = s.rd64 a := by rw [rd64, rd64, hlow, hhigh]

/-- A register of pulse input n: SI_PICFG to SI_PISTAT. -/
def PulseReg (n a : Nat) : Prop := R.siPicfg n ≤ a ∧ a < R.siPicfg n + 32

/-! A stamped edge (R118) -/
section
variable (s : State) (n : Nat) (lv : Bool) (t : Time)

/-- The edge's time stamp and the level after it. -/
def pulseStamped : State :=
  ((s.devTo t).wr64 (R.siPitsLo n) (t / 5 * 5)).setPi n { (s.devTo t).piOf n with level := lv }

theorem pulseStamped_rd {a : Nat} (hlow : a ≠ R.siPitsLo n) (hhigh : a ≠ R.siPitsLo n + 4) :
    (pulseStamped s n lv t).rd a = s.rd a := (wr64_rd_ne _ hlow hhigh).trans (devTo_rd _ _ _)

theorem pulseStamped_picfg (m l w : Nat) :
    (pulseStamped s n lv t).get ⟨R.siPicfg m, l, w⟩ = s.get ⟨R.siPicfg m, l, w⟩ :=
  get_of_rd (pulseStamped_rd s n lv t (by simp only [R.siPicfg, R.siPitsLo]; omega)
    (by simp only [R.siPicfg, R.siPitsLo]; omega))

theorem pulseStamped_picnt (m : Nat) : (pulseStamped s n lv t).rd (R.siPicnt m) = s.rd (R.siPicnt m) :=
  pulseStamped_rd s n lv t (by simp only [R.siPicnt, R.siPitsLo]; omega) (by simp only [R.siPicnt, R.siPitsLo]; omega)

theorem pulseStamped_rd64 (h : t < 2 ^ 64) : (pulseStamped s n lv t).rd64 (R.siPitsLo n) = t / 5 * 5 :=
  wr64_rd64 _ _ (Nat.lt_of_le_of_lt (Nat.div_mul_le_self t 5) h)

theorem pulseStamped_piOf : (pulseStamped s n lv t).piOf n = { s.piOf n with level := lv } := by
  rw [pulseStamped, setPi_piOf_self, devTo_piOf]

theorem pulseStamped_mem : (pulseStamped s n lv t).mem = s.mem := devTo_mem s t

end

/-! A counted edge (R118, R120) -/
section
variable (s : State) (n : Nat) (t : Time) (step : Int)

theorem sensorReg_pulse {a : Nat} (hn : n < 24) (h : PulseReg n a) : SensorReg a := by
  simp only [PulseReg, R.siPicfg] at h
  omega

theorem pulseReg_ne_siIrqStat {a : Nat} (h : PulseReg n a) : a ≠ R.siIrqStat := by
  simp only [PulseReg, R.siPicfg] at h
  simp only [R.siIrqStat]
  omega

theorem pulseOverflow_mem : (pulseOverflow s n t).mem = s.mem := by
  simp only [pulseOverflow]
  split
  · rw [log_mem, fire_mem, set_mem]
  · rfl

/-- An overflow changes SI_PISTAT and the IRQ bit of the pulse inputs alone. -/
theorem pulseOverflow_rd {m a : Nat} (hm : m < 24) (ha : PulseReg m a) (hne : a ≠ R.siPistat n) :
    (pulseOverflow s n t).rd a = s.rd a := by
  simp only [pulseOverflow]
  split
  · exact (sensorReport_rd_ne _ rfl (by omega) _ _ (sensorReg_pulse m hm ha) (pulseReg_ne_siIrqStat m ha)).trans
      (set_rd_ne _ _ _ _ hne)
  · rfl

theorem sensorReg_pistat (hn : n < 24) : SensorReg (R.siPistat n) := by simp only [SensorReg, R.siPistat]; omega

theorem siPistat_ne_siIrqStat : R.siPistat n ≠ R.siIrqStat := by simp only [R.siPistat, R.siIrqStat]; omega

/-- A flag of SI_PISTAT that source 386 reports: OVF or QERR. -/
theorem pulseReport_flag (hn : n < 24) {l : Nat} (hl : l < 32) (data : List Byte) :
    (((s.set ⟨R.siPistat n, l, 1⟩ 1).fire 386).log 0x0906 data).flag ⟨R.siPistat n, l, 1⟩ = true :=
  (flag_of_rd (sensorReport_rd_ne _ rfl (by omega) _ _ (sensorReg_pistat n hn) (siPistat_ne_siIrqStat n))).trans
    (set_flag _ _ _ (show l + 1 ≤ 32 from hl) rfl)

theorem pulseReport_irq (code : Nat) (data : List Byte) :
    ((s.fire 386).log code data).flag ⟨R.siIrqStat, 2, 1⟩ = true := sensorReport_irq _ rfl (by omega) _ _ (by omega)

/-- Two counted edges closer than 2.5 µs. -/
theorem pulseOverflow_flags (hn : n < 24) (h0 : (s.piOf n).tLast ≠ 0) (hc : t < (s.piOf n).tLast + 2500) :
    (pulseOverflow s n t).flag (R.siPistatOvf n) = true ∧ (pulseOverflow s n t).flag ⟨R.siIrqStat, 2, 1⟩ = true := by
  rw [pulseOverflow, if_pos ⟨h0, hc⟩]
  exact ⟨pulseReport_flag s n hn (by omega) _, pulseReport_irq _ _ _⟩

/-- A counted edge leaves an overflow's registers and the record of the input, with the edge as its last one. -/
theorem pulseCounted_eq : ∃ p, p.tLast = t ∧ pulseCounted s n t step = (pulseOverflow s n t).setPi n p := by
  simp only [pulseCounted]
  split
  · exact ⟨_, rfl, rfl⟩
  · split
    · exact ⟨_, rfl, rfl⟩
    · exact ⟨_, rfl, rfl⟩

theorem pulseCounted_tLast : ((pulseCounted s n t step).piOf n).tLast = t := by
  obtain ⟨p, hp, heq⟩ := pulseCounted_eq s n t step
  rw [heq, setPi_piOf_self, hp]

theorem pulseCounted_rd (a : Nat) : (pulseCounted s n t step).rd a = (pulseOverflow s n t).rd a := by
  obtain ⟨p, -, heq⟩ := pulseCounted_eq s n t step
  rw [heq, setPi_rd]

theorem pulseCounted_flags (hn : n < 24) (h0 : (s.piOf n).tLast ≠ 0) (hc : t < (s.piOf n).tLast + 2500) :
    (pulseCounted s n t step).flag (R.siPistatOvf n) = true ∧
      (pulseCounted s n t step).flag ⟨R.siIrqStat, 2, 1⟩ = true := by
  rw [flag_of_rd (pulseCounted_rd s n t step _), flag_of_rd (pulseCounted_rd s n t step _)]
  exact pulseOverflow_flags s n t hn h0 hc

theorem pulseCounted_mem : (pulseCounted s n t step).mem = s.mem := by
  obtain ⟨p, -, heq⟩ := pulseCounted_eq s n t step
  rw [heq, setPi_mem, pulseOverflow_mem]

theorem pulseCounted_picnt {m : Nat} (hm : m < 24) : (pulseCounted s n t step).rd (R.siPicnt m) = s.rd (R.siPicnt m) :=
  (pulseCounted_rd s n t step _).trans (pulseOverflow_rd s n t hm
    (by simp only [PulseReg, R.siPicnt, R.siPicfg]; omega) (by simp only [R.siPicnt, R.siPistat]; omega))

theorem pulseCounted_pits (hn : n < 24) : (pulseCounted s n t step).rd64 (R.siPitsLo n) = s.rd64 (R.siPitsLo n) :=
  rd64_of_rd
    ((pulseCounted_rd s n t step _).trans (pulseOverflow_rd s n t hn
      (by simp only [PulseReg, R.siPitsLo, R.siPicfg]; omega) (by simp only [R.siPitsLo, R.siPistat]; omega)))
    ((pulseCounted_rd s n t step _).trans (pulseOverflow_rd s n t hn
      (by simp only [PulseReg, R.siPitsLo, R.siPicfg]; omega) (by simp only [R.siPitsLo, R.siPistat]; omega)))

end

/-! The commands of an edge -/
section
variable (s : State) (n : Nat) (lv both : Bool) (t : Time)

/-- A transition of both lines of a pair: QERR and its report, where the level of the other line turns as well. -/
def pulseQerr : State :=
  let o := if n = pairOf n then pairOf n + 1 else pairOf n
  let u := pulseStamped s n lv t
  ((((u.setPi o { u.piOf o with level := !(u.piOf o).level }).set (R.siPistatQerr n) 1).fire 386).log 0x0906 (leBytes 1 n))

/-- The step that a line change of a pair makes, from the levels after it. -/
def pairStep : Int := quadStep (n == pairOf n) (s.piOf (pairOf n)).level (s.piOf (pairOf n + 1)).level

/-- The position of a pair moves by a step. -/
def pulsePosition (u : State) (e : Nat) (step : Int) : State :=
  (u.wr (R.siPicnt e) (u.rd (R.siPicnt e) + BitVec.ofInt 32 step)).wr (R.siPicnt (e + 1))
    (u.rd (R.siPicnt e) + BitVec.ofInt 32 step)

theorem pairStep_eq : pairStep s n = 1 ∨ pairStep s n = -1 := by
  unfold pairStep quadStep
  split
  · exact .inr rfl
  · exact .inl rfl

theorem eq_pairOf_or : n = pairOf n ∨ n = pairOf n + 1 := by unfold pairOf; omega

theorem pairOf_lt (hn : n < 24) : pairOf n + 1 < 24 := by unfold pairOf; omega

/-- Both channels of a quadrature pair are set to QUAD (R119). -/
def Paired : Prop := s.get (R.siPicfgMode (pairOf n)) = 4 ∧ s.get (R.siPicfgMode (pairOf n + 1)) = 4

theorem Paired.mode {s : State} {n : Nat} (h : Paired s n) : s.get (R.siPicfgMode n) = 4 := by
  obtain ⟨heven, hodd⟩ := h
  rcases eq_pairOf_or n with hn | hn
  · rwa [hn]
  · rwa [hn]

variable (hn : n < 24) (hg : s.gateOn 5 = true)
include hn hg

theorem exec_pulseEdge_counted
    (hm : s.get (R.siPicfgMode n) = 1 ∨ s.get (R.siPicfgMode n) = 2 ∨ s.get (R.siPicfgMode n) = 3)
    (hl : lv = (s.get (R.siPicfgEdge n) == 0)) : exec (.pulseEdge n lv both t) s =
      .next (pulseCounted ((pulseStamped s n lv t).count (R.siPicnt n)) n (t / 5 * 5) 1) := by
  have hedge : lv = ((pulseStamped s n lv t).get (R.siPicfgEdge n) == 0) := by rwa [pulseStamped_picfg]
  exact (if_pos hg).trans ((if_neg (by omega)).trans ((if_neg (by omega)).trans (if_pos hedge)))

theorem exec_pulseEdge_stamped
    (hm : s.get (R.siPicfgMode n) = 1 ∨ s.get (R.siPicfgMode n) = 2 ∨ s.get (R.siPicfgMode n) = 3)
    (hl : lv ≠ (s.get (R.siPicfgEdge n) == 0)) :
    exec (.pulseEdge n lv both t) s = .next (pulseStamped s n lv t) := by
  have hedge : lv ≠ ((pulseStamped s n lv t).get (R.siPicfgEdge n) == 0) := by rwa [pulseStamped_picfg]
  exact (if_pos hg).trans ((if_neg (by omega)).trans ((if_neg (by omega)).trans (if_neg hedge)))

theorem exec_pulseEdge_paired (hq : Paired s n) : exec (.pulseEdge n lv both t) s =
    if both then .next (pulseQerr s n lv t)
    else .next (pulseCounted (pulsePosition (pulseStamped s n lv t) (pairOf n) (pairStep (pulseStamped s n lv t) n))
      (pairOf n) (t / 5 * 5) (pairStep (pulseStamped s n lv t) n)) := by
  have hm := hq.mode
  have hpair : ¬ ((pulseStamped s n lv t).get (R.siPicfgMode (pairOf n)) ≠ 4 ∨
      (pulseStamped s n lv t).get (R.siPicfgMode (pairOf n + 1)) ≠ 4) := by
    rw [pulseStamped_picfg, pulseStamped_picfg]
    exact fun h => h.elim (· hq.1) (· hq.2)
  exact (if_pos hg).trans ((if_neg (by omega)).trans ((if_pos hm).trans (if_neg hpair)))

end

/-! What an edge leaves -/
section
variable (s : State) (n : Nat) (lv : Bool) (t : Time)

theorem pulseQerr_picnt (hn : n < 24) : (pulseQerr s n lv t).rd (R.siPicnt n) = s.rd (R.siPicnt n) := by
  have hreg : PulseReg n (R.siPicnt n) := by simp only [PulseReg, R.siPicnt, R.siPicfg]; omega
  have hne : R.siPicnt n ≠ R.siPistat n := by simp only [R.siPicnt, R.siPistat]; omega
  exact (sensorReport_rd_ne _ rfl (by omega) _ _ (sensorReg_pulse n hn hreg) (pulseReg_ne_siIrqStat n hreg)).trans
    ((set_rd_ne _ _ _ _ hne).trans (pulseStamped_picnt s n lv t n))

theorem pulseQerr_mem : (pulseQerr s n lv t).mem = s.mem := by
  rw [pulseQerr, log_mem, fire_mem, set_mem, setPi_mem, pulseStamped_mem]

theorem pulsePosition_picnt (step : Int) :
    (pulsePosition s n step).rd (R.siPicnt n) = s.rd (R.siPicnt n) + BitVec.ofInt 32 step ∧
      (pulsePosition s n step).rd (R.siPicnt (n + 1)) = s.rd (R.siPicnt n) + BitVec.ofInt 32 step := by
  have hne : R.siPicnt n ≠ R.siPicnt (n + 1) := by simp only [R.siPicnt]; omega
  exact ⟨(wr_rd_ne _ _ _ _ hne).trans (wr_rd_self _ _ _), wr_rd_self _ _ _⟩

theorem pulsePosition_mem (step : Int) : (pulsePosition s n step).mem = s.mem := rfl

/-- A single transition moves the position of a pair by one, up or down. -/
theorem add_pairStep (w : Word) :
    w + BitVec.ofInt 32 (pairStep s n) = w + 1 ∨ w + BitVec.ofInt 32 (pairStep s n) = w - 1 := by
  rcases pairStep_eq s n with h | h
  · exact .inl (by rw [h]; rfl)
  · exact .inr (by rw [h, BitVec.sub_eq_add_neg]; rfl)

theorem pulseStamped_count_picnt :
    ((pulseStamped s n lv t).count (R.siPicnt n)).rd (R.siPicnt n) = s.rd (R.siPicnt n) + 1 :=
  (wr_rd_self _ _ _).trans (by rw [pulseStamped_picnt]; rfl)

theorem pulseStamped_count_tLast :
    (((pulseStamped s n lv t).count (R.siPicnt n)).piOf n).tLast = (s.piOf n).tLast := by
  rw [count_piOf, pulseStamped_piOf]

theorem pulseStamped_count_pits (h : t < 2 ^ 64) :
    ((pulseStamped s n lv t).count (R.siPicnt n)).rd64 (R.siPitsLo n) = t / 5 * 5 :=
  (rd64_of_rd (wr_rd_ne _ _ _ _ (by simp only [R.siPicnt, R.siPitsLo]; omega))
    (wr_rd_ne _ _ _ _ (by simp only [R.siPicnt, R.siPitsLo]; omega))).trans (pulseStamped_rd64 s n lv t h)

end

/-! What a frequency measurement publishes (R120) -/
section
variable {p : PulseIn} {r : Time} (zto : Nat) (t : Time)

theorem pulseFrequency_of_edges (hr : p.tRef = some r) (h : r < p.tLast) : pulseFrequency p zto t =
    some (F32.ofRat (p.edges * 1000000000) (p.tLast - r), (r + p.tLast) / 2,
      { p with tRef := some p.tLast, edges := 0, fPrev := F32.ofRat (p.edges * 1000000000) (p.tLast - r), only := false }) := by
  simp only [pulseFrequency, hr, if_pos h]

theorem pulseFrequency_of_stall (hr : p.tRef = some r) (h : p.tLast ≤ r) (ht : p.tLast + ms zto < t) :
    pulseFrequency p zto t = some (0, t, { p with stalled := true, fPrev := 0 }) := by
  simp only [pulseFrequency, hr, if_neg (Nat.not_lt.2 h), if_pos ht]

end

/-! A publication (R119, R120) -/
section
variable (s : State) (n : Nat)

/-- The instant of the next publication. -/
def piInstant : Time := gridNext (s.get (R.siPicfgPub n) * 100000) (s.piOf n).lastPub s.time.dev

/-- The instant of the publication has come. -/
def piReached : State := (s.devTo (piInstant s n)).setPi n { s.piOf n with lastPub := some (piInstant s n) }

theorem piReached_rd (a : Nat) : (piReached s n).rd a = s.rd a := by rw [piReached, setPi_rd, devTo_rd]

theorem piReached_get (f : Fld) : (piReached s n).get f = s.get f := get_of_rd (piReached_rd s n _)

theorem piReached_piOf : (piReached s n).piOf n = { s.piOf n with lastPub := some (piInstant s n) } := setPi_piOf_self _ _ _

theorem piReached_mem : (piReached s n).mem = s.mem := devTo_mem s _

theorem piReached_delivery : (piReached s n).delivery = s.delivery := devTo_delivery s _

/-- A value is published. -/
def piPublished (stamp : Time) (v : F32) : State := produce (s.wr (R.siPival n) v) (0x40 + n) stamp v

/-- The record and STALL of a frequency measurement. -/
def piMeasured (q : PulseIn) : State := ((piReached s n).setPi n q).put (R.siPistatStall n) q.stalled

/-- What a period input publishes of a frequency is its inverse. -/
def piValue (f : F32) : F32 := if s.get (R.siPicfgMode n) = 2 then F32.div F32.one f else f

/-- A measurement is published; without one the input waits for its next instant. -/
def piAnswer : Option (F32 × Time × PulseIn) → Res
  | none => .next (piReached s n)
  | some (f, stamp, q) => .next (piPublished (piMeasured s n q) n stamp (piValue s n f))

variable (stamp : Time) (v : F32)

theorem piPublished_pival (hn : n < 24) : (piPublished s n stamp v).rd (R.siPival n) = v :=
  (produce_rd _ _ _ _ (SensorReg.not_delivery (by simp only [SensorReg, R.siPival]; omega))).trans (wr_rd_self _ _ _)

theorem piPublished_stall (hn : n < 24) :
    (piPublished s n stamp v).flag (R.siPistatStall n) = s.flag (R.siPistatStall n) := by
  have hne : R.siPistat n ≠ R.siPival n := by simp only [R.siPistat, R.siPival]; omega
  exact flag_of_rd ((produce_rd _ _ _ _ (sensorReg_pistat n hn).not_delivery).trans (wr_rd_ne _ _ _ _ hne))

theorem piPublished_piOf : (piPublished s n stamp v).piOf n = s.piOf n := by simp [piPublished, piOf]

theorem piPublished_out : Out.sample (0x40 + n) stamp v false ∈ (piPublished s n stamp v).out := mem_produce_out _ _ _ _

theorem piPublished_sameOutsideRings {u : State} (hm : u.mem = s.mem) (hd : u.delivery = s.delivery) :
    SameOutsideRings s (piPublished u n stamp v) :=
  produce_sameOutsideRings (u := u.wr (R.siPival n) v) hm hd _ _ _

theorem piMeasured_stall (q : PulseIn) : (piMeasured s n q).flag (R.siPistatStall n) = q.stalled :=
  put_flag _ _ _ (show 1 + 1 ≤ 32 by omega) rfl

theorem piMeasured_piOf (q : PulseIn) : (piMeasured s n q).piOf n = q := (put_piOf _ _ _ _).trans (setPi_piOf_self _ _ _)

theorem piMeasured_sameOutsideRings (q : PulseIn) : SameOutsideRings s (piPublished (piMeasured s n q) n stamp v) :=
  piPublished_sameOutsideRings s n stamp v (piReached_mem s n) (piReached_delivery s n)

variable (hn : n < 24) (hg : s.gateOn 5 = true)
include hn hg

theorem exec_pulsePublication_count (hm : s.get (R.siPicfgMode n) = 3) : exec (.pulsePublication n) s =
    .next (piPublished (piReached s n) n (piInstant s n) (F32.ofNat (s.rd (R.siPicnt n)).toNat)) := by
  rw [← piReached_rd s n (R.siPicnt n)]
  exact (if_pos hg).trans ((if_neg (by omega)).trans ((if_neg (by omega)).trans (if_pos hm)))

theorem exec_pulsePublication_position (hq : Paired s n) (hodd : n ≠ pairOf n) : exec (.pulsePublication n) s =
    .next (piPublished (piReached s n) n (piInstant s n) (F32.ofInt (int32 (s.rd (R.siPicnt n))))) := by
  have hm := hq.mode
  obtain ⟨heven, hodd'⟩ := hq
  rw [← piReached_rd s n (R.siPicnt n)]
  exact (if_pos hg).trans ((if_neg (by omega)).trans ((if_neg (by omega)).trans ((if_neg (by omega)).trans
    (if_pos ⟨hm, hodd⟩))))

theorem exec_pulsePublication_frequency
    (hm : s.get (R.siPicfgMode n) = 1 ∨ s.get (R.siPicfgMode n) = 2 ∨
      (n = pairOf n ∧ s.get (R.siPicfgMode n) = 4 ∧ s.get (R.siPicfgMode (n + 1)) = 4))
    {f : F32} {q : PulseIn}
    (hf : pulseFrequency { s.piOf n with lastPub := some (piInstant s n) } (s.get (R.siPitoZto n)) (piInstant s n) =
      some (f, stamp, q)) :
    exec (.pulsePublication n) s = .next (piPublished (piMeasured s n q) n stamp (piValue s n f)) := by
  have hquad : ¬ (s.get (R.siPicfgMode n) = 4 ∧
      (s.get (R.siPicfgMode (pairOf n)) ≠ 4 ∨ s.get (R.siPicfgMode (pairOf n + 1)) ≠ 4)) := by
    rintro ⟨h4, hbad⟩
    rcases hm with hm | hm | ⟨he, hm, ho⟩
    · omega
    · omega
    · rw [← he] at hbad
      exact hbad.elim (· hm) (· ho)
  have hodd : ¬ (s.get (R.siPicfgMode n) = 4 ∧ n ≠ pairOf n) := by
    rintro ⟨h4, hne⟩
    rcases hm with hm | hm | ⟨he, -, -⟩
    · omega
    · omega
    · exact hne he
  rw [← piReached_piOf, ← piReached_get s n (R.siPitoZto n)] at hf
  exact (if_pos hg).trans ((if_neg (by omega)).trans ((if_neg hquad).trans ((if_neg (by omega)).trans
    ((if_neg hodd).trans (congrArg (piAnswer s n) hf)))))

theorem exec_piCountClear : exec (.piCountClear n) s = .next (piClear s n) := (if_neg (by omega)).trans (if_pos hg)

end

/-- Settles O26: a counted edge leaves the stamp and an overflow's report beside its record (`pulseCounted_eq`), a transition of
a pair the position; a publication the value of its mode, as `pulseFrequency` measures it or as the counter stands. -/
theorem pulseInputsMeasure : Obligations.PulseInputsMeasure := by
  intro s n m t0 r lv both hn hg ht
  have hpub (f : F32) (stamp : Time) (q : PulseIn) := exec_pulsePublication_frequency s n stamp hn hg (f := f) (q := q)
  refine ⟨fun hm => ?_, fun he ho => ?_, fun hm => ?_, fun hm hr hedges _ hlt => ?_, fun hm hr hle hzto => ?_,
    fun hm => ?_, fun hm => ?_, fun hm hl => ?_, fun he ho => ?_, fun he ho hodd => ?_, fun f stamp q hm hf => ?_⟩
  · refine ⟨_, exec_pulseEdge_counted s n _ both t0 hn hg hm rfl, ?_, ?_, pulseCounted_tLast _ n _ 1, fun h0 hc => ?_,
      fun a => ?_⟩
    · rw [pulseCounted_picnt _ n _ 1 hn, pulseStamped_count_picnt]
    · rw [pulseCounted_pits _ n _ 1 hn, pulseStamped_count_pits s n _ t0 ht]
    · refine pulseCounted_flags _ n _ 1 hn ?_ ?_
      · rwa [pulseStamped_count_tLast]
      · rwa [pulseStamped_count_tLast]
    · rw [pulseCounted_mem, count_mem, pulseStamped_mem]
  · exact ⟨_, exec_pulseEdge_paired s n lv true t0 hn hg ⟨he, ho⟩, pulseReport_flag _ n hn (by omega) _,
      pulseReport_irq _ _ _, pulseQerr_picnt s n lv t0 hn, fun a => by rw [pulseQerr_mem]⟩
  · exact ⟨_, exec_pulsePublication_count s n hn hg hm, piPublished_pival _ n _ _ hn, piPublished_out _ n _ _,
      piPublished_sameOutsideRings s n _ _ (piReached_mem s n) (piReached_delivery s n)⟩
  · have hv (f : F32) : piValue s n f = f := if_neg (by omega)
    refine ⟨_, hpub _ _ _ (.inl hm) (pulseFrequency_of_edges _ _ hr hlt), ?_, ?_, ?_, piMeasured_sameOutsideRings s n _ _ _⟩
    · rw [piPublished_pival _ n _ _ hn, hv, hedges]
    · rw [hv, hedges]
      exact piPublished_out _ n _ _
    · rw [piPublished_piOf, piMeasured_piOf]
  · have hv (f : F32) : piValue s n f = f := if_neg (by omega)
    refine ⟨_, hpub _ _ _ (.inl hm) (pulseFrequency_of_stall _ _ hr hle hzto), ?_, ?_, piMeasured_sameOutsideRings s n _ _ _⟩
    · rw [piPublished_pival _ n _ _ hn, hv]
    · rw [piPublished_stall _ n _ _ hn, piMeasured_stall]
  · exact (exec_piCountClear s n hn hg).trans (congrArg _ (if_neg hm))
  · exact (exec_piCountClear s n hn hg).trans (congrArg _ (if_pos hm))
  · exact ⟨_, exec_pulseEdge_stamped s n lv both t0 hn hg hm hl, pulseStamped_picnt s n lv t0 n,
      pulseStamped_rd64 s n lv t0 ht, by rw [pulseStamped_piOf], fun a => by rw [pulseStamped_mem]⟩
  · obtain ⟨heven, hodd⟩ := pulsePosition_picnt (pulseStamped s n lv t0) (pairOf n) (pairStep (pulseStamped s n lv t0) n)
    have hlt := pairOf_lt n hn
    refine ⟨_, exec_pulseEdge_paired s n lv false t0 hn hg ⟨he, ho⟩, ?_, ?_, fun a => ?_⟩
    · rw [pulseCounted_picnt _ _ _ _ (by omega), pulseCounted_picnt _ _ _ _ hlt, heven, hodd]
    · rw [pulseCounted_picnt _ _ _ _ (by omega), heven, pulseStamped_picnt]
      exact add_pairStep _ _ _
    · rw [pulseCounted_mem, pulsePosition_mem, pulseStamped_mem]
  · exact ⟨_, exec_pulsePublication_position s n hn hg ⟨he, ho⟩ hodd, piPublished_pival _ n _ _ hn,
      piPublished_sameOutsideRings s n _ _ (piReached_mem s n) (piReached_delivery s n)⟩
  · refine ⟨_, hpub f stamp q hm hf, piPublished_pival _ n _ _ hn, ?_, piMeasured_sameOutsideRings s n _ _ _⟩
    rw [piPublished_stall _ n _ _ hn, piMeasured_stall]

end Sys2Proof.Machine

/-! What an overlong exposure costs a camera port (07_camera_pipeline.md R163 to R165). -/
namespace Sys2Proof.Machine
open State

/-! The record of a camera port -/
section
variable (s : State) (c : Nat)

@[simp] theorem State.setCamPort_camPort_self (p : CamPort) : (s.setCamPort c p).camPort c = p := Tbl.get_set_self _ _ _ _

/-- A drop takes the frames of its number out of the frames in progress, and no other. -/
theorem frameDrop_frames (num cause : Nat) : ((frameDrop s c num cause).camPort c).frames =
    (s.camPort c).frames.filter (·.num != num) := by
  have hcam : (frameDrop s c num cause).cam = (forget s c num).cam := by
    rw [frameDrop, log_cam, fire_cam]
    rfl
  rw [camPort, hcam]
  exact congrArg CamPort.frames (setCamPort_camPort_self s c _)

variable {s c}

theorem withExp_frames_of_single {fr : CamFrame} {e : CamExp} (hf : (s.camPort c).frames = [fr]) (he : fr.exps = [e])
    (g : CamExp → CamExp) : ((withExp s c fr.num 0 g).camPort c).frames = [{ fr with exps := [g e] }] := by
  simp [withExp, withFrame, hf, he]

theorem find_of_single {fr : CamFrame} (hf : (s.camPort c).frames = [fr]) :
    ((s.camPort c).frames.find? fun f => f.num == fr.num) = some fr := by
  simp [hf]

/-- Rings that have decided on the only frame in progress stay with it (R177). -/
theorem ringsTake_of_decided {fr : CamFrame} (hf : (s.camPort c).frames = [fr])
    (hb : ∀ a < 3, fr.bufs.getD a none ≠ none) : ringsTake s c fr.num = s := by
  have htake : ∀ a < 3, ringTake s c a fr.num = s := fun a ha => by
    simp only [ringTake, find_of_single hf]
    exact if_pos (.inr (.inl (hb a ha)))
  change ringTake (ringTake (ringTake s c 0 fr.num) c 1 fr.num) c 2 fr.num = s
  rw [htake 0 (by omega), htake 1 (by omega), htake 2 (by omega)]

/-- A frame that counts as staggered does not outlive its check (R165). -/
theorem frameCheck_frames_of_staggered {fr : CamFrame} (hf : (s.camPort c).frames = [fr]) (hacc : fr.accepted = true)
    (hb : ∀ a < 3, fr.bufs.getD a none ≠ none) (hst : staggered s c fr = true) :
    ((frameCheck s c fr.num).camPort c).frames = [] := by
  have hdrop (cause : Nat) : ((frameDrop s c fr.num cause).camPort c).frames = [] := by
    simp [frameDrop_frames, hf]
  simp only [frameCheck, ringsTake_of_decided hf hb, find_of_single hf, hacc, hst]
  split
  next h => cases h
  next =>
    split
    · exact hdrop 1
    · exact hdrop 3

/-- The distance from the shortest exposure is measured against 4,096 lines at most, and a port of one exposure allows 4,096
more: beyond 8,192 lines the only exposure counts as staggered against itself. -/
theorem staggered_of_overlong {fr : CamFrame} {e : CamExp} (he : fr.exps = [e]) (hstart : e.started = true)
    (hn : s.camNexp c ≤ 1) (hlong : 8192 < e.lines.length) : staggered s c fr = true := by
  have hmin : min 4096 e.lines.length = 4096 := by omega
  simp [staggered, staggerMax, he, hstart, hn, hmin, hlong]

/-- So the next good line of an exposure that holds 8,192 lines costs the port its frame. -/
theorem lineAccept_frames_of_overlong {fr : CamFrame} {e : CamExp} (codes : List Nat) (hf : (s.camPort c).frames = [fr])
    (hacc : fr.accepted = true) (he : fr.exps = [e]) (hstart : e.started = true)
    (hb : ∀ a < 3, fr.bufs.getD a none ≠ none) (hn : s.camNexp c ≤ 1) (hlong : 8192 ≤ e.lines.length) :
    ((lineAccept s c fr.num 0 codes).camPort c).frames = [] := by
  have hlonger (line : List Nat) : 8192 < (e.lines ++ [line]).length := by
    rw [List.length_append, List.length_singleton]
    omega
  exact frameCheck_frames_of_staggered (fr := { fr with exps := [_] }) (withExp_frames_of_single hf he _) hacc hb
    (staggered_of_overlong rfl hstart hn (hlonger _))

/-- A good line of the running exposure is accepted (R163). -/
theorem exec_csiPacket_line (hg : s.gateOn 7 = true) (hlive : cameraLive s c = true) {vc i : Nat} {fr : CamFrame}
    (hslot : slotOfVc s c vc = some i) (hrun : runningFrame s c i = some fr) {codes : List Nat}
    (hw : codes.length = s.camW c) (num : Nat) :
    exec (.csiPacket c vc (0x2B + s.get (R.camPctrlBpp c)) 1 true num codes) s =
      .next (lineAccept s c fr.num i codes) := by
  have hpacket : packet s c vc (0x2B + s.get (R.camPctrlBpp c)) true num codes = lineAccept s c fr.num i codes := by
    simp only [packet, hslot, hrun]
    rw [if_neg (by omega), if_neg (by omega), if_neg (by omega), if_neg (by omega), if_neg (by simp [hw])]
  exact (if_pos hg).trans ((if_neg (by simp [hlive])).trans ((if_neg (by omega)).trans (congrArg _ hpacket)))

end

/-! The counterexample -/

/-- An exposure of the default width that has run to 8,192 lines without a frame end. -/
def overlongExposure : CamExp := { started := true, lines := List.replicate 8192 (List.replicate 1920 0) }

/-- Its frame, with all rings off. -/
def overlongFrame : CamFrame :=
  { num := 1, accepted := true, exps := [overlongExposure], bufs := [some none, some none, some none] }

/-- A live port in its reset configuration (one exposure of 1,920 × 1,080) that takes this frame. -/
def overlongState : State :=
  (((State.reset.set ⟨R.ckGrun, 7, 1⟩ 1).set (R.camPctrlEn 0) 1).set (R.camPstatLock 0) 1).setCamPort 0
    { frames := [overlongFrame] }

theorem overlongState_frames : (overlongState.camPort 0).frames = [overlongFrame] :=
  congrArg CamPort.frames (setCamPort_camPort_self _ _ _)

theorem overlongState_runningFrame : runningFrame overlongState 0 0 = some overlongFrame := by
  rw [runningFrame, overlongState_frames]
  rfl

/-- Refutes O32 in its clause of the good line: with the 8,193rd line of its only exposure, which R165 gives no stagger, a frame
is dropped and the line is not taken. A frame start and 8,192 good lines without a frame end lead to such a frame. -/
theorem not_camerasTakeFrames : ¬ Obligations.CamerasTakeFrames := by
  intro h
  have hg : overlongState.gateOn 7 = true := by decide +kernel
  have hlive : cameraLive overlongState 0 = true := by decide +kernel
  have hslot : slotOfVc overlongState 0 0 = some 0 := by decide +kernel
  have hn : overlongState.camNexp 0 ≤ 1 := by decide +kernel
  have hw : (List.replicate 1920 0).length = overlongState.camW 0 := List.length_replicate.trans (by decide +kernel)
  obtain ⟨-, -, -, -, hline, -⟩ :=
    h overlongState 0 1 0 0 0 0 0 0 true (List.replicate 1920 0) [] overlongFrame overlongExposure (by omega) hg
  obtain ⟨t, hexec, hlines, -⟩ := hline hlive hslot overlongState_frames rfl rfl rfl rfl hw
  rw [exec_csiPacket_line hg hlive hslot overlongState_runningFrame hw] at hexec
  rw [← Host.Outcome.next.inj hexec, lineAccept_frames_of_overlong _ overlongState_frames rfl rfl rfl (by decide) hn
    (by rw [overlongExposure, List.length_replicate])] at hlines
  exact List.cons_ne_nil _ _ hlines.symm

end Sys2Proof.Machine

/-! What the clocks, the receiver's registers and the memory keep while device time reports, and while its quality state changes
(08_gnss_time.md R201 to R203). -/
namespace Sys2Proof.Machine
open State

/-- A field of the receiver's block, in which device time stands. -/
abbrev GnssFld (f : Fld) : Prop := f.addr / 65536 = 0x2008

/-- A field that a change of the quality state leaves: of GN_TQ the bits above the state, of GN_IRQ_STAT those above
source 195. -/
abbrev TimeFld (f : Fld) : Prop := (f.addr = R.gnTq ∧ 3 ≤ f.lsb) ∨ (f.addr = R.gnIrqStat ∧ 4 ≤ f.lsb)

theorem produce_now (s : State) (stream : Nat) (ts : Time) (v : F32) : (produce s stream ts v).now = s.now := by
  have hrest := congrArg State.now (DeliveryStep.produce s stream ts v).rest
  exact hrest

theorem produce_time (s : State) (stream : Nat) (ts : Time) (v : F32) : (produce s stream ts v).time = s.time := by
  have hrest := congrArg State.time (DeliveryStep.produce s stream ts v).rest
  exact hrest

/-- The clocks stand, the fields with a property read as before, and memory changes in the sample rings alone. -/
structure ClockStep (F : Fld → Prop) (s t : State) : Prop where
  now : t.now = s.now
  dev : t.time.dev = s.time.dev
  slewLeft : t.time.slewLeft = s.time.slewLeft
  get : ∀ f, F f → t.get f = s.get f
  ring : ∀ k, (t.ringOf k).layout = (s.ringOf k).layout
  mem : SameOutsideRings s t

namespace ClockStep
variable {F G : Fld → Prop} {s t u : State}

theorem refl (s : State) : ClockStep F s s := ⟨rfl, rfl, rfl, fun _ _ => rfl, fun _ => rfl, fun _ _ => rfl⟩

theorem trans (h : ClockStep F s t) (k : ClockStep F t u) : ClockStep F s u where
  now := k.now.trans h.now
  dev := k.dev.trans h.dev
  slewLeft := k.slewLeft.trans h.slewLeft
  get f hf := (k.get f hf).trans (h.get f hf)
  ring i := (k.ring i).trans (h.ring i)
  mem a ha := (k.mem a fun hin => ha (inRing_of_ring h.ring hin)).trans (h.mem a ha)

theorem ite {p : Prop} [Decidable p] (h : ClockStep F s t) (k : ClockStep F s u) : ClockStep F s (if p then t else u) := by
  split
  · exact h
  · exact k

/-- A fold of such steps is one. -/
theorem foldl {α : Type} {f : State → α → State} (l : List α) (s : State) (h : ∀ x u, ClockStep F u (f u x)) :
    ClockStep F s (l.foldl f s) := by
  induction l generalizing s with
  | nil => exact refl s
  | cons x l ih => exact (h x s).trans (ih (f s x))

/-- A step that leaves more fields is one that leaves fewer. -/
theorem mono (h : ClockStep F s t) (hFG : ∀ f, G f → F f) : ClockStep G s t :=
  ⟨h.now, h.dev, h.slewLeft, fun f hf => h.get f (hFG f hf), h.ring, h.mem⟩

theorem flag (h : ClockStep F s t) {f : Fld} (hf : F f) : t.flag f = s.flag f := by rw [State.flag, State.flag, h.get f hf]

theorem timeState (h : ClockStep GnssFld s t) : timeState t = timeState s := h.get R.gnTqState rfl

theorem sameOutsideRings {r : State} (h : ClockStep F s t) (hm : s.mem = r.mem) (hd : s.delivery = r.delivery) :
    SameOutsideRings r t := by
  intro a ha
  have hrings : ∀ k, (s.ringOf k).layout = (r.ringOf k).layout := fun k => by simp only [ringOf, hd]
  exact (h.mem a fun hin => ha (inRing_of_ring hrings hin)).trans (by rw [hm])

/-! The elementary updates -/
section
variable (s)

/-- An update that writes no register and leaves the clocks, the rings and the memory. -/
theorem of_same (hnow : t.now = s.now) (hdev : t.time.dev = s.time.dev) (hleft : t.time.slewLeft = s.time.slewLeft)
    (hregs : t.regs = s.regs) (hrings : t.delivery.rings = s.delivery.rings) (hmem : t.mem = s.mem) : ClockStep F s t :=
  ⟨hnow, hdev, hleft, fun f _ => by simp only [State.get, State.rd, hregs], fun k => by simp only [ringOf, hrings],
    fun a _ => by rw [hmem]⟩

theorem wr {a : Nat} (v : Word) (h : ∀ f, F f → f.addr ≠ a) : ClockStep F s (s.wr a v) :=
  ⟨rfl, rfl, rfl, fun f hf => get_of_rd (wr_rd_ne _ _ _ _ (h f hf)), fun _ => rfl, fun _ _ => rfl⟩

theorem set {f : Fld} (v : Nat) (hw : f.lsb + f.width ≤ 32)
    (h : ∀ g, F g → g.addr ≠ f.addr ∨ g.lsb + g.width ≤ f.lsb ∨ f.lsb + f.width ≤ g.lsb) :
    ClockStep F s (s.set f v) :=
  ⟨rfl, rfl, rfl, fun g hg => set_get_ne _ _ _ _ hw (h g hg), fun _ => rfl, fun _ _ => rfl⟩

theorem log (code : Nat) (data : List Byte) : ClockStep GnssFld s (s.log code data) where
  now := log_now _ _ _
  dev := by rw [log_time]
  slewLeft := by rw [log_time]
  get f hf := get_of_rd (log_rd_ne _ _ _ (by omega) (by omega))
  ring k := by simp only [ringOf, log_delivery]
  mem a _ := by rw [log_mem]

/-- A source that comes about sets its IRQ bit. -/
theorem fire {src st en b : Nat} (hp : irqPlace src = some (st, en, b)) (hs : src < 1024) :
    ClockStep GnssFld (s.set ⟨st, b, 1⟩ 1) (s.fire src) where
  now := fire_now _ _
  dev := by rw [fire_time, set_time]
  slewLeft := by rw [fire_time, set_time]
  get f hf := get_of_rd (fire_rd_of_place s hp hs (by omega))
  ring k := by simp only [ringOf, fire_delivery, set_delivery]
  mem a _ := by rw [fire_mem, set_mem]

/-- A register of another block that takes a value leaves the receiver's registers. -/
theorem wrElsewhere {a : Nat} (v : Word) (ha : a / 65536 ≠ 0x2008) : ClockStep GnssFld s (s.wr a v) :=
  wr s v fun _ hf h => ha ((congrArg (· / 65536) h).symm.trans hf)

theorem setElsewhere {f : Fld} (v : Nat) (hf : f.addr / 65536 ≠ 0x2008) : ClockStep GnssFld s (s.set f v) :=
  wrElsewhere s _ hf

theorem fireElsewhere {src st en b : Nat} (hp : irqPlace src = some (st, en, b)) (hs : src < 1024)
    (hst : st / 65536 ≠ 0x2008) : ClockStep GnssFld s (s.fire src) :=
  (setElsewhere s 1 hst).trans (fire s hp hs)

theorem produce (stream : Nat) (ts : Time) (v : F32) : ClockStep GnssFld s (produce s stream ts v) where
  now := produce_now s stream ts v
  dev := by rw [produce_time]
  slewLeft := by rw [produce_time]
  get f hf := get_of_rd (produce_rd s stream ts v (by unfold DeliveryReg; omega))
  ring := (DeliveryStep.produce s stream ts v).ring
  mem := (DeliveryStep.produce s stream ts v).mem

end
end ClockStep

/-! A change of the quality state (R201) -/
section
variable (s : State) (q : Nat)

/-- The uncertainty is taken over at the change, and with it the time the model has been learned. -/
def uncertaintyTaken : State :=
  { s with time := { s.time with
      unc0 := uncertainty s, uncAt := s.now,
      learned := if timeState s = 2 then s.time.learned + (s.now - s.time.uncAt) else s.time.learned } }

/-- What enters HOLDOVER takes the frequency uncertainty of the model. -/
def modelTaken : State :=
  if q = 3 then
    { uncertaintyTaken s with freeCtr := s.freeCtr + 1 }.wr R.gnTfunc
      (BitVec.ofNat 32 (max (f0Least (uncertaintyTaken s)) (Config.freeWord s.freeCtr).toNat))
  else uncertaintyTaken s

/-- The new state stands in GN_TQ, and the IRQ bit of source 195 is set. -/
def qualityTaken : State := ((modelTaken s q).set R.gnTqState q).set ⟨R.gnIrqStat, 3, 1⟩ 1

theorem setTimeState_of_eq (h : timeState s = q) : setTimeState s q = s := if_pos h

/-- The change is reported: source 195, event 0x0C03 and the stream of the state. -/
def qualityReported : State :=
  let u := (((modelTaken s q).set R.gnTqState q).fire 195).log 0x0C03
    (leBytes 1 (timeState s) ++ leBytes 1 q ++ leBytes 4 (uncertainty s))
  produce u 0x405 u.time.dev (F32.ofNat q)

/-- The time anchor of a power cycle (R451). -/
def timeAnchored (u : State) : State :=
  { u with ev := { u.ev with anchored := true } }.log 0x1802 (leBytes 8 u.time.dev ++ leBytes 4 (uncertainty s))

theorem setTimeState_of_ne (h : timeState s ≠ q) : setTimeState s q =
    if q = 2 ∧ (qualityReported s q).ev.anchored = false then timeAnchored s (qualityReported s q) else qualityReported s q :=
  if_neg h

/-- What follows the new state and its source are reports. -/
theorem setTimeState_reports (h : timeState s ≠ q) : ClockStep GnssFld (qualityTaken s q) (setTimeState s q) := by
  have hplace : irqPlace 195 = some (R.gnIrqStat, R.gnIrqEn, 3) := rfl
  have hreported : ClockStep GnssFld (qualityTaken s q) (qualityReported s q) :=
    ((ClockStep.fire ((modelTaken s q).set R.gnTqState q) hplace (by omega)).trans (ClockStep.log _ _ _)).trans
      (ClockStep.produce _ _ _ _)
  have hflag (u : State) : ClockStep GnssFld u { u with ev := { u.ev with anchored := true } } :=
    ClockStep.of_same u rfl rfl rfl rfl rfl rfl
  have hanchored (u : State) : ClockStep GnssFld u (timeAnchored s u) := (hflag u).trans (ClockStep.log _ _ _)
  rw [setTimeState_of_ne s q h]
  exact hreported.trans (ClockStep.ite (hanchored _) (ClockStep.refl _))

theorem modelTaken_step : ClockStep TimeFld s (modelTaken s q) := by
  have htaken : ClockStep TimeFld s (uncertaintyTaken s) := ClockStep.of_same s rfl rfl rfl rfl rfl rfl
  have hdrawn : ClockStep TimeFld s { uncertaintyTaken s with freeCtr := s.freeCtr + 1 } :=
    ClockStep.of_same s rfl rfl rfl rfl rfl rfl
  have htfunc (f : Fld) (hf : TimeFld f) : f.addr ≠ R.gnTfunc := by
    rcases hf with ⟨h, -⟩ | ⟨h, -⟩
    · rw [h]; decide
    · rw [h]; decide
  exact ClockStep.ite (hdrawn.trans (ClockStep.wr _ _ htfunc)) htaken

theorem qualityTaken_step : ClockStep TimeFld s (qualityTaken s q) :=
  (modelTaken_step s q).trans ((ClockStep.set _ _ (by decide) fun g hg => by
      rcases hg with ⟨-, h⟩ | ⟨h, -⟩
      · exact .inr (.inr h)
      · exact .inl (by rw [h]; decide)).trans
    (ClockStep.set _ _ (by decide) fun g hg => by
      rcases hg with ⟨h, -⟩ | ⟨-, h⟩
      · exact .inl (by rw [h]; decide)
      · exact .inr (.inr h)))

theorem gnssFld_of_timeFld {f : Fld} (h : TimeFld f) : GnssFld f := by
  rcases h with ⟨h, -⟩ | ⟨h, -⟩
  · rw [GnssFld, h]; rfl
  · rw [GnssFld, h]; rfl

/-- A change of the quality state leaves the clocks, the other bits of its registers and the memory outside the rings. -/
theorem setTimeState_step : ClockStep TimeFld s (setTimeState s q) := by
  by_cases h : timeState s = q
  · rw [setTimeState_of_eq s q h]
    exact ClockStep.refl s
  · exact (qualityTaken_step s q).trans ((setTimeState_reports s q h).mono fun _ => gnssFld_of_timeFld)

theorem setTimeState_timeState (hq : q < 8) : timeState (setTimeState s q) = q := by
  by_cases h : timeState s = q
  · rw [setTimeState_of_eq s q h, h]
  · rw [(setTimeState_reports s q h).timeState, timeState, qualityTaken, set_get_ne _ _ _ _ (by decide) (by decide),
      set_get _ _ _ (by decide)]
    exact Nat.mod_eq_of_lt hq

theorem setTimeState_irq (h : timeState s ≠ q) : (setTimeState s q).flag ⟨R.gnIrqStat, 3, 1⟩ = true :=
  ((setTimeState_reports s q h).flag rfl).trans (set_flag _ _ _ (by decide) rfl)

end

/-- A correction that leads to LOCKED leaves what a change of the quality state leaves. -/
theorem lockAfterCorrection_step (s : State) : ClockStep TimeFld s (lockAfterCorrection s) :=
  ClockStep.ite (setTimeState_step s 2) (ClockStep.refl s)

theorem lockAfterCorrection_of_locked {s : State} (h : 2 ≤ timeState s) : lockAfterCorrection s = s :=
  if_neg fun hc => absurd hc.1 (by omega)

end Sys2Proof.Machine

/-! The quality state of device time, the time pulses and the pulse input (08_gnss_time.md R201, R207, R208). -/
namespace Sys2Proof.Machine
open State

/-- A change of the quality state by which every command of R201 ends, in a state with the memory and the rings of s. -/
theorem setTimeState_changes {s u : State} {q : Nat} (hq : q < 8) (hne : timeState u ≠ q) (hm : u.mem = s.mem)
    (hd : u.delivery = s.delivery) :
    timeState (setTimeState u q) = q ∧ (setTimeState u q).now = u.now ∧ (setTimeState u q).time.dev = u.time.dev ∧
      (setTimeState u q).flag ⟨R.gnIrqStat, 3, 1⟩ = true ∧ SameOutsideRings s (setTimeState u q) := by
  have hstep := setTimeState_step u q
  exact ⟨setTimeState_timeState u q hq, hstep.now, hstep.dev, setTimeState_irq u q hne, hstep.sameOutsideRings hm hd⟩

theorem timeState_devTo (s : State) (t : Time) : timeState (s.devTo t) = timeState s := devTo_get s t _

theorem timeState_passTo (s : State) (t : Nat) : timeState (s.passTo t) = timeState s := passTo_get s t _

/-! Waiting for an instant of device time -/

theorem devTo_dev (s : State) {t : Time} (h : t < 2 ^ 64) : (s.devTo t).time.dev = max s.time.dev t := by
  unfold devTo
  split
  next hlt =>
    have hmax : max s.time.dev t = t := max_eq_right hlt.1.le
    split
    · exact hmax.symm
    · exact hmax.symm
  next hge =>
    have hle : t ≤ s.time.dev := Nat.not_lt.1 fun hlt => hge ⟨hlt, h⟩
    exact (max_eq_left hle).symm

/-- While device time goes on, what stands in its record beside the time and the slew stays. -/
theorem devTo_time_keeps {β : Type} (s : State) (t : Time) (p : TimeSt → β)
    (hp : ∀ d l, p { s.time with dev := d, slewLeft := l } = p s.time) : p (s.devTo t).time = p s.time := by
  unfold devTo
  split
  · split <;> exact hp _ _
  · rfl

theorem devTo_tpo (s : State) (t : Time) : (s.devTo t).time.tpo = s.time.tpo := devTo_time_keeps s t (·.tpo) fun _ _ => rfl

/-! Time pulses (R207) -/
section
variable (s : State) (k : Nat)

/-- The output has reached its next grid instant. -/
def tpoReached : State :=
  let u := s.devTo (tpoNext s k)
  let o := u.time.tpo.getD k {}
  { u with time := { u.time with tpo := u.time.tpo.set k { o with
      last := some (tpoNext s k), floor := none, ctrl := if o.change ≤ tpoNext s k then none else o.ctrl } } }

/-- The whole seconds of the grid of output 0 publish the quality state and the uncertainty. -/
def tpoPublished : State :=
  if k = 0 ∧ tpoNext s k % 1000000000 = 0 then
    let u := tpoReached s k
    produce (produce u 0x405 (tpoNext s k) (F32.ofNat (timeState u))) 0x406 (tpoNext s k) (F32.ofNat (uncertainty u))
  else tpoReached s k

/-- The output is enabled and gated at its next grid instant. -/
abbrev TpoOpen : Prop :=
  bit (tpoAt s k (tpoNext s k)).1 0 = true ∧ tpoGate s (bits (tpoAt s k (tpoNext s k)).1 2 2) = true

theorem tpoReached_out : (tpoReached s k).out = s.out := devTo_out s _

theorem tpoReached_regs : (tpoReached s k).regs = s.regs := devTo_regs s _

theorem tpoReached_sameMemory : SameMemory s (tpoReached s k) := fun a => congrArg (·.read a) (devTo_mem s _)

theorem tpoReached_step : ClockStep GnssFld (s.devTo (tpoNext s k)) (tpoReached s k) :=
  ClockStep.of_same _ rfl rfl rfl rfl rfl rfl

theorem tpoPublished_step : ClockStep GnssFld (s.devTo (tpoNext s k)) (tpoPublished s k) :=
  ClockStep.ite ((tpoReached_step s k).trans ((ClockStep.produce _ _ _ _).trans (ClockStep.produce _ _ _ _)))
    (tpoReached_step s k)

theorem tpoPublished_of_fraction (h : k = 1 ∨ tpoNext s k % 1000000000 ≠ 0) : tpoPublished s k = tpoReached s k :=
  if_neg fun ⟨hk, hsec⟩ => h.elim (by omega) (· hsec)

theorem tpoPublished_sameOutsideRings : SameOutsideRings s (tpoPublished s k) :=
  (tpoPublished_step s k).sameOutsideRings (devTo_mem _ _) (devTo_delivery _ _)

theorem tpoAt_devTo (u t : Time) : tpoAt (s.devTo u) k t = tpoAt s k t := by simp only [tpoAt, devTo_rd, devTo_tpo]

theorem tpoGate_of_timeState {s t : State} (h : timeState t = timeState s) (gate : Nat) : tpoGate t gate = tpoGate s gate := by
  simp only [tpoGate, h]

theorem exec_tpoPulse (hk : k < 2) : exec (.tpoPulse k) s =
    .next (if TpoOpen s k then (tpoPublished s k).emit (.pulse k (tpoNext s k)) else tpoPublished s k) := by
  have hgate := tpoGate_of_timeState ((tpoPublished_step s k).timeState.trans (timeState_devTo s _))
    (bits (tpoAt s k (tpoNext s k)).1 2 2)
  unfold TpoOpen
  rw [← hgate, ← tpoAt_devTo s k (tpoNext s k), apply_ite Host.Outcome.next]
  exact if_neg (by omega)

theorem tpoPublished_dev (h : tpoNext s k < 2 ^ 64) : (tpoPublished s k).time.dev = max s.time.dev (tpoNext s k) :=
  (tpoPublished_step s k).dev.trans (devTo_dev s h)

end

/-! The pulse input (R208) -/
section
variable (s : State) (ts : Time)

/-- An edge is stamped in steps of 5 ns and counted. -/
def tpiStamped : State := ((s.devTo ts).wr64 R.gnTpitsLo (ts / 5 * 5)).count R.gnTpicnt

/-- The count goes out on its stream. -/
def tpiReported : State :=
  let u := (tpiStamped s ts).fire 198
  produce u 0x408 (ts / 5 * 5) (F32.ofNat (u.rd R.gnTpicnt).toNat)

theorem exec_tpiEdge (h : s.flag ⟨R.gnTpictrl, 0, 1⟩ = true) : exec (.tpiEdge ts) s = .next (tpiReported s ts) :=
  if_neg (by rw [h]; decide)

/-- Of the receiver's registers the report of an edge changes the IRQ bit of source 198. -/
theorem tpiReported_rd {a : Nat} (ha : a / 65536 = 0x2008) :
    (tpiReported s ts).rd a = ((tpiStamped s ts).set ⟨R.gnIrqStat, 6, 1⟩ 1).rd a :=
  (produce_rd _ _ _ _ (by unfold DeliveryReg; omega)).trans (fire_rd_of_place _ rfl (by omega) (by omega))

theorem tpiReported_rd_ne {a : Nat} (ha : a / 65536 = 0x2008) (hne : a ≠ R.gnIrqStat) :
    (tpiReported s ts).rd a = (tpiStamped s ts).rd a := (tpiReported_rd s ts ha).trans (set_rd_ne _ _ _ _ hne)

theorem tpiReported_irq : (tpiReported s ts).flag ⟨R.gnIrqStat, 6, 1⟩ = true :=
  (flag_of_rd (tpiReported_rd s ts rfl)).trans (set_flag _ _ _ (by decide) rfl)

/-- Two registers take the low 64 bits of a number. -/
theorem State.wr64_mod (s : State) (a v : Nat) : s.wr64 a (v % 2 ^ 64) = s.wr64 a v := by
  have hlow : BitVec.ofNat 32 (v % 2 ^ 64) = BitVec.ofNat 32 v := by
    apply BitVec.eq_of_toNat_eq
    rw [BitVec.toNat_ofNat, BitVec.toNat_ofNat]
    omega
  have hhigh : BitVec.ofNat 32 (v % 2 ^ 64 / 4294967296) = BitVec.ofNat 32 (v / 4294967296) := by
    apply BitVec.eq_of_toNat_eq
    rw [BitVec.toNat_ofNat, BitVec.toNat_ofNat]
    omega
  rw [wr64, hlow, hhigh]
  rfl

theorem tpiReported_tpits : (tpiReported s ts).rd64 R.gnTpitsLo = ts / 5 * 5 % 18446744073709551616 := by
  have hrd {a : Nat} (ha : a / 65536 = 0x2008) (hne : a ≠ R.gnIrqStat) (hcnt : a ≠ R.gnTpicnt) :
      (tpiReported s ts).rd a = ((s.devTo ts).wr64 R.gnTpitsLo (ts / 5 * 5)).rd a :=
    (tpiReported_rd_ne s ts ha hne).trans (wr_rd_ne _ _ _ _ hcnt)
  rw [rd64_of_rd (hrd rfl (by decide) (by decide)) (hrd rfl (by decide) (by decide)), ← wr64_mod,
    wr64_rd64 _ _ (Nat.mod_lt _ (by decide))]
  rfl

theorem tpiReported_tpicnt : (tpiReported s ts).rd R.gnTpicnt = s.rd R.gnTpicnt + 1 := by
  rw [tpiReported_rd_ne s ts rfl (by decide), tpiStamped, count, wr_rd_self, wr64_rd_ne _ (by decide) (by decide), devTo_rd]
  rfl

theorem tpiReported_sameOutsideRings : SameOutsideRings s (tpiReported s ts) :=
  produce_sameOutsideRings (by rw [fire_mem, tpiStamped, count_mem, wr64_mem, devTo_mem])
    (by rw [fire_delivery, tpiStamped, count_delivery, wr64_delivery, devTo_delivery]) _ _ _

end

/-- Settles O36: every command of R201 ends in `setTimeState`, whose reports leave the clocks and the memory outside the rings;
a pulse leaves its output after the publications of its grid instant, which leave the quality state that gates it. -/
theorem deviceTimeChangesQuality : Obligations.DeviceTimeChangesQuality := by
  intro s k f ts
  refine ⟨fun hne hready => ?_, fun hne hready => ?_, fun hlocked hfix => ?_, fun hhold => ?_, fun hk hnext hfrac => ?_,
    fun hnext => ?_, fun hlocked hfix => ?_, fun hen => ?_⟩
  · obtain ⟨hstate, hnow, hdev, hirq, hmem⟩ := setTimeState_changes (s := s) (q := 2) (by omega)
      (fun h => hne ((timeState_devTo s _).symm.trans h)) (devTo_mem s _) (devTo_delivery s _)
    exact ⟨_, (if_neg hne).trans (if_pos hready), hstate, hnow, hdev, hirq, hmem⟩
  · exact (if_neg hne).trans (if_neg (by rw [hready]; decide))
  · obtain ⟨hstate, hnow, -, hirq, hmem⟩ := setTimeState_changes (s := s) (u := s.passTo (f + sec 2)) (q := 3) (by omega)
      (by rw [timeState_passTo, hlocked]; decide) (passTo_mem s _) (passTo_delivery s _)
    refine ⟨_, (if_neg (not_not.2 hlocked)).trans ?_, hstate, hnow.trans (passTo_now s _), hirq, hmem⟩
    rw [hfix]
  · obtain ⟨hstate, hnow, -, hirq, hmem⟩ := setTimeState_changes (s := s)
      (u := s.passTo (s.time.uncAt + sec (s.objN 0x2680 0x04))) (q := 4) (by omega)
      (by rw [timeState_passTo, hhold]; decide) (passTo_mem s _) (passTo_delivery s _)
    exact ⟨_, if_neg (not_not.2 hhold), hstate, hnow.trans (passTo_now s _), hirq, hmem⟩
  · refine ⟨_, exec_tpoPulse s k hk, ?_⟩
    have hdev := tpoPublished_dev s k hnext
    rw [tpoPublished_of_fraction s k hfrac] at hdev ⊢
    split
    · exact ⟨hdev, congrArg (List.cons _) (tpoReached_out s k), tpoReached_regs s k, tpoReached_sameMemory s k⟩
    · exact ⟨hdev, tpoReached_out s k, tpoReached_regs s k, tpoReached_sameMemory s k⟩
  · refine ⟨_, exec_tpoPulse s 0 (by omega), ?_⟩
    have hdev := tpoPublished_dev s 0 hnext
    have hmem := tpoPublished_sameOutsideRings s 0
    split
    next => exact ⟨hdev, fun _ _ => rfl, hmem⟩
    next hclosed =>
      refine ⟨hdev, fun hen hgate => absurd ⟨hen, ?_⟩ hclosed, hmem⟩
      rw [hgate]
      rfl
  · refine (if_neg (not_not.2 hlocked)).trans ?_
    rw [hfix]
  · exact ⟨_, exec_tpiEdge s ts hen, tpiReported_tpicnt s ts, tpiReported_tpits s ts, tpiReported_irq s ts,
      tpiReported_sameOutsideRings s ts⟩

end Sys2Proof.Machine

/-! A number written to an object by a processor of the module (14_object_dictionary.md R328 to R330). -/
namespace Sys2Proof.Machine
open State

/-- A number reads back from its bytes. -/
theorem leNat_leBytes (n : Nat) : ∀ {v : Nat}, v < 256 ^ n → leNat (leBytes n v) = v := by
  induction n with
  | zero =>
    intro v h
    rw [Nat.pow_zero] at h
    rw [leBytes, leNat]
    omega
  | succ n ih =>
    intro v h
    have hrest : v / 256 < 256 ^ n := by rwa [Nat.div_lt_iff_lt_mul (by omega), ← Nat.pow_succ]
    rw [leBytes, leNat, ih hrest, BitVec.toNat_ofNat]
    omega

section
variable {s : State} {d : ObjDef} {index sub : Nat} {v : ObjVal}

/-- A number that fits its object is written as the checks after TYPE leave it. -/
theorem numberWrite_of_fits {n : Nat} (hserves : dictServes s = true) (hfind : find s index sub = some d) (hacc : d.acc ≠ .ro)
    (hstate : stateRefused s index sub = false) (hsize : n < 256 ^ d.typ.size)
    (hfits : typeFits d d.typ.code d.typ.size = true) :
    numberWrite index sub n s = finish (checkedWrite s d index sub (ObjVal.decode d.typ (leBytes d.typ.size n))) := by
  have hbytes : numberBytes d n = leBytes d.typ.size n := if_pos hsize
  rw [numberWrite, if_pos hserves]
  simp only [hfind, hbytes, writeOne, if_neg hacc, hstate, leBytes_length, hfits, if_true, Bool.false_eq_true, if_false]

/-- An operation that refuses for its state does so before the later checks. -/
theorem finish_checkedBy_of_state (t : State) :
    finish (checkedBy s d index sub v (ans (t, St.state))) = .next (refused t St.state) := by
  have hchecked : checkedBy s d index sub v (ans (t, St.state)) = (t, St.state, 0) := if_pos rfl
  rw [hchecked]
  rfl

/-- A write that no check refuses is accepted. -/
theorem finish_checkedBy_of_ok (t : State) (hrange : inRange d.range v = true) (hmore : rangeMore s index sub v = true)
    (hbusy : busyNow s index sub = false) (hconflict : conflictWith s index sub v.nat = none) :
    finish (checkedBy s d index sub v (ans (t, St.ok))) = .next (accepted t index sub d.typ v) := by
  have hlegal : ¬ (inRange d.range v = false ∨ rangeMore s index sub v = false) := by simp [hrange, hmore]
  simp only [checkedBy, ans, St.ok, St.state, St.range, St.busy, if_neg hlegal, hbusy, hconflict]
  rfl

end
end Sys2Proof.Machine

/-! Slews, steps and writes of device time (08_gnss_time.md R206, R209, R210). -/
namespace Sys2Proof.Machine
open State

/-- An event that is logged while the intake queue has room enters it (R448). -/
theorem log_intake_of_room {s : State} {code : Nat} (data : List Byte) (hl : listed code = true) (hroom : Room s 1) :
    (s.log code data).ev.intake = s.ev.intake ++ [eventOf code data] := by
  unfold Room at hroom
  rw [log, if_pos hl, intake, if_pos (by omega)]
  rfl

theorem elapse_now (s : State) (d : Nat) : (s.elapse d).now = s.now + d := by
  unfold elapse
  split
  · rfl
  · rfl

/-! Slewing (R209) -/
section
variable (s : State)

/-- A slew amount replaces what remains of the last one. -/
def slewTaken (v : Int) : State :=
  { s with time := { s.time with
      slewLeft := v, slewSum := v, err := s.time.err + (s.time.slewSum - s.time.slewLeft) } }.put R.gnTqSlew (v != 0)

theorem slewWrite_of_large {v : Int} (h : v.natAbs > 100000) : slewWrite s v = (s.set R.gnTqStepErr 1, false) := if_pos h

theorem slewWrite_of_small {v : Int} (h : v.natAbs ≤ 100000) : slewWrite s v = (slewTaken s v, true) :=
  if_neg (Nat.not_lt.2 h)

/-- Device time has run until the slew is used up. -/
def slewUsed : State :=
  let u := s.elapse (s.time.slewLeft.natAbs * 100000)
  { u with time := { u.time with slewLeft := 0, slewSum := 0, err := u.time.err + u.time.slewSum } }.set R.gnTqSlew 0

theorem exec_slewEnd (h : s.flag R.gnTqSlew = true) : exec .slewEnd s = .next (lockAfterCorrection (slewUsed s)) :=
  if_neg (by rw [h]; decide)

theorem slewUsed_timeState : timeState (slewUsed s) = timeState s :=
  (set_get_ne _ _ _ _ (by decide) (by decide)).trans (elapse_get s _ _)

theorem slewUsed_sameMemory : SameMemory s (slewUsed s) := fun a => congrArg (·.read a) (elapse_mem s _)

end

/-! Stepping (R210) -/
section
variable (s : State)

/-- A step is armed for the next whole second. -/
def stepArmed (amount : Int) (byWrite : Bool) : State :=
  { s with time := { s.time with stepAmt := amount, stepAt := nextSecond s.time.dev, byWrite := byWrite } }.set R.gnTqStepArm 1

theorem stepArm_of_refused {amount : Int} (byWrite : Bool)
    (h : s.flag R.gnTqStepPend = true ∨ (timeState s ≥ 2 ∧ amount.natAbs ≤ 100000)) :
    stepArm s amount byWrite = (s.set R.gnTqStepErr 1, false) := if_pos h

theorem stepArm_of_armed {amount : Int} (byWrite : Bool) (hpend : s.flag R.gnTqStepPend = false)
    (h : timeState s < 2 ∨ amount.natAbs > 100000) : stepArm s amount byWrite = (stepArmed s amount byWrite, true) :=
  if_neg fun hc => hc.elim (fun hp => Bool.false_ne_true (hpend.symm.trans hp)) fun ⟨hstate, hamount⟩ => by omega

theorem stepArmed_flag (amount : Int) (byWrite : Bool) : (stepArmed s amount byWrite).flag R.gnTqStepArm = true :=
  set_flag _ _ _ (by decide) rfl

theorem stepCancel_of_idle (h : s.flag R.gnTqStepPend = false) : stepCancel s = s.set R.gnTqStepArm 0 :=
  if_neg (by rw [h]; decide)

theorem devTo_stepAmt (t : Time) : (s.devTo t).time.stepAmt = s.time.stepAmt :=
  devTo_time_keeps s t (·.stepAmt) fun _ _ => rfl

/-! The whole second after arming -/

/-- The armed step is pending. -/
def stepMarked : State := ((s.devTo s.time.stepAt).set R.gnTqStepArm 0).set R.gnTqStepPend 1

/-- Source 196 has come about, and the step waits for the next whole second. -/
def stepWaiting : State :=
  let u := (stepMarked s).fire 196
  { u with time := { u.time with stepAt := nextSecond u.time.dev } }

/-- The pending step is logged. -/
def stepAnnounced : State := (stepWaiting s).log 0x0C04 (stepMicros s)

theorem stepWaiting_stepAmt : (stepWaiting s).time.stepAmt = s.time.stepAmt :=
  (congrArg (·.stepAmt) (fire_time (stepMarked s) 196)).trans (devTo_stepAmt s _)

theorem stepAnnounced_stepAmt : (stepAnnounced s).time.stepAmt = s.time.stepAmt :=
  (congrArg (·.stepAmt) (log_time (stepWaiting s) _ _)).trans (stepWaiting_stepAmt s)

theorem exec_stepPending (harm : s.flag R.gnTqStepArm = true) (hpend : s.flag R.gnTqStepPend = false) :
    exec .stepPending s = .next (stepAnnounced s) := by
  have hmicros : stepMicros ((stepMarked s).fire 196) = stepMicros s := by
    have hamt : ((stepMarked s).fire 196).time.stepAmt = s.time.stepAmt := stepWaiting_stepAmt s
    rw [stepMicros, stepMicros, hamt]
  rw [stepAnnounced, ← hmicros]
  exact if_neg (by rw [harm, hpend]; decide)

theorem stepAnnounced_step : ClockStep GnssFld ((stepMarked s).set ⟨R.gnIrqStat, 4, 1⟩ 1) (stepAnnounced s) := by
  have hwaiting : ClockStep GnssFld ((stepMarked s).fire 196) (stepWaiting s) :=
    ClockStep.of_same _ rfl rfl rfl rfl rfl rfl
  exact (ClockStep.fire _ rfl (by omega)).trans (hwaiting.trans (ClockStep.log _ _ _))

theorem stepAnnounced_pend : (stepAnnounced s).flag R.gnTqStepPend = true := by
  rw [(stepAnnounced_step s).flag rfl, set_flag_ne _ _ _ _ (by decide) (by decide)]
  exact set_flag _ _ _ (by decide) rfl

theorem stepAnnounced_arm : (stepAnnounced s).flag R.gnTqStepArm = false := by
  rw [(stepAnnounced_step s).flag rfl, set_flag_ne _ _ _ _ (by decide) (by decide), stepMarked,
    set_flag_ne _ _ _ _ (by decide) (by decide)]
  exact set_flag _ _ _ (by decide) rfl

theorem stepAnnounced_irq : (stepAnnounced s).flag ⟨R.gnIrqStat, 4, 1⟩ = true :=
  ((stepAnnounced_step s).flag rfl).trans (set_flag _ _ _ (by decide) rfl)

theorem stepWaiting_ev : (stepWaiting s).ev = s.ev := (fire_ev _ _).trans (devTo_ev _ _)

theorem stepAnnounced_intake (h : Room s 1) :
    (stepAnnounced s).ev.intake = s.ev.intake ++ [eventOf 0x0C04 (stepMicros s)] := by
  have hroom : Room (stepWaiting s) 1 := by rwa [Room, stepWaiting_ev]
  rw [stepAnnounced, log_intake_of_room _ (by decide) hroom, stepWaiting_ev]

theorem stepAnnounced_sameMemory : SameMemory s (stepAnnounced s) := by
  have hmem : (stepAnnounced s).mem = s.mem := (log_mem _ _ _).trans ((fire_mem _ _).trans (devTo_mem _ _))
  exact fun a => by rw [hmem]

end

/-! What a step of device time does beside it (R33, R136, R211, R254) -/

theorem ceFrameStep_step (s : State) (d : Int) : ClockStep GnssFld s (ceFrameStep s d) := by
  have hgrid (ph : Int) : ClockStep GnssFld s (gridState s ph) := by
    have hphase : ClockStep GnssFld s { s with ce := { s.ce with phase := ph } } := ClockStep.of_same s rfl rfl rfl rfl rfl rfl
    exact ((hphase.trans (ClockStep.setElsewhere _ _ (by decide))).trans (ClockStep.setElsewhere _ _ (by decide))).trans
      (ClockStep.wrElsewhere _ _ (by decide))
  exact (hgrid _).trans (ClockStep.ite (ClockStep.refl _)
    (((ClockStep.wrElsewhere _ _ (by decide)).trans (ClockStep.setElsewhere _ _ (by decide))).trans
      ((ClockStep.fireElsewhere _ rfl (by omega) (by decide)).trans (ClockStep.log _ _ _))))

theorem fuTimeStep_step (s : State) (d : Int) : ClockStep GnssFld s (fuTimeStep s d) := by
  have hstored (fu : Fusion) (inbox : Tbl (List Sample)) :
      ClockStep GnssFld s { s with fu := fu, delivery := { s.delivery with inbox := inbox } } :=
    ClockStep.of_same s rfl rfl rfl rfl rfl rfl
  exact ((hstored _ _).trans (ClockStep.setElsewhere _ _ (by decide))).trans
    ((ClockStep.fireElsewhere _ rfl (by omega) (by decide)).trans (ClockStep.log _ _ _))

theorem ghQueueStep_step (s : State) (before : Time) : ClockStep GnssFld s (ghQueueStep s before) := by
  have hqueue (u : State) (l : List GhCmd) : ClockStep GnssFld u { u with gh := { u.gh with queue := l } } :=
    ClockStep.of_same u rfl rfl rfl rfl rfl rfl
  exact (hqueue s _).trans (ClockStep.ite (ClockStep.refl _)
    ((hqueue _ _).trans ((ClockStep.setElsewhere _ _ (by decide)).trans (ClockStep.log _ _ _))))

theorem syncAfterStep_step (s : State) : ClockStep GnssFld s (syncAfterStep s) := by
  refine ClockStep.foldl _ s fun c u => ?_
  dsimp only
  split
  · exact ClockStep.refl u
  · exact ClockStep.of_same u rfl rfl rfl rfl rfl rfl

/-- The grids and queues that go by device time after a step of it. -/
def gridsStepped (u : State) (d : Int) (before : Time) : State :=
  syncAfterStep (tpoAfterStep (ghQueueStep (fuTimeStep (ceFrameStep u d) d) before))

theorem gridsStepped_step (u : State) (d : Int) (before : Time) : ClockStep GnssFld u (gridsStepped u d before) := by
  have htpo (v : State) : ClockStep GnssFld v (tpoAfterStep v) := ClockStep.of_same v rfl rfl rfl rfl rfl rfl
  exact (ceFrameStep_step u d).trans ((fuTimeStep_step _ d).trans
    ((ghQueueStep_step _ before).trans ((htpo _).trans (syncAfterStep_step _))))

/-! The step itself -/
section
variable (s : State)

/-- Device time has taken the amount of the step, and the slew has ended. -/
def timeShifted : State :=
  let u := s.devTo s.time.stepAt
  let d := u.time.stepAmt
  gnTimeStep { u with time := { u.time with
    dev := shiftTime d u.time.dev, slewLeft := 0, slewSum := 0, err := u.time.err + (u.time.slewSum - u.time.slewLeft) + d,
    byWrite := false } } d u.time.dev

/-- No step is pending any more, and no slew runs. -/
def stepExecuted : State := ((timeShifted s).set R.gnTqStepPend 0).set R.gnTqSlew 0

/-- The step is reported: source 197 and event 0x0C05. -/
def stepReported : State :=
  let u := (stepExecuted s).fire 197
  u.log 0x0C05 (stepMicros u)

/-- All but the quality state has followed the step. -/
def stepFollowed : State :=
  gridsStepped (stepReported s) (s.devTo s.time.stepAt).time.stepAmt (s.devTo s.time.stepAt).time.dev

/-- A time write leads to RTC, with an uncertainty that no rule states. -/
def stepWritten (u : State) : State :=
  { setTimeState u.fresh 1 with time := { (setTimeState u.fresh 1).time with
      unc0 := (Config.freeWord u.freeCtr).toNat, uncAt := (setTimeState u.fresh 1).now } }

theorem timeStep_eq : timeStep s =
    if (s.devTo s.time.stepAt).time.byWrite then stepWritten (stepFollowed s) else lockAfterCorrection (stepFollowed s) := rfl

theorem stepWritten_step (u : State) : ClockStep TimeFld u (stepWritten u) := by
  have hfresh : ClockStep TimeFld u u.fresh := ClockStep.of_same u rfl rfl rfl rfl rfl rfl
  exact hfresh.trans ((setTimeState_step _ 1).trans (ClockStep.of_same _ rfl rfl rfl rfl rfl rfl))

theorem stepFollowed_step : ClockStep GnssFld ((stepExecuted s).set ⟨R.gnIrqStat, 5, 1⟩ 1) (stepFollowed s) :=
  ((ClockStep.fire _ rfl (by omega)).trans (ClockStep.log _ _ _)).trans (gridsStepped_step _ _ _)

/-- After the amount is taken and source 197 has come about, what follows leaves the clocks. -/
theorem timeStep_step : ClockStep TimeFld ((stepExecuted s).set ⟨R.gnIrqStat, 5, 1⟩ 1) (timeStep s) := by
  rw [timeStep_eq]
  exact ((stepFollowed_step s).mono fun _ => gnssFld_of_timeFld).trans
    (ClockStep.ite (stepWritten_step _) (lockAfterCorrection_step _))

theorem timeStep_pend : (timeStep s).flag R.gnTqStepPend = false := by
  rw [(timeStep_step s).flag (.inl ⟨rfl, by decide⟩), set_flag_ne _ _ _ _ (by decide) (by decide), stepExecuted,
    set_flag_ne _ _ _ _ (by decide) (by decide)]
  exact set_flag _ _ _ (by decide) rfl

theorem timeStep_slew : (timeStep s).flag R.gnTqSlew = false := by
  rw [(timeStep_step s).flag (.inl ⟨rfl, by decide⟩), set_flag_ne _ _ _ _ (by decide) (by decide)]
  exact set_flag _ _ _ (by decide) rfl

theorem timeStep_irq : (timeStep s).flag ⟨R.gnIrqStat, 5, 1⟩ = true :=
  ((timeStep_step s).flag (.inr ⟨rfl, by decide⟩)).trans (set_flag _ _ _ (by decide) rfl)

theorem timeStep_slewLeft : (timeStep s).time.slewLeft = 0 := (timeStep_step s).slewLeft

theorem timeStep_dev : (timeStep s).time.dev = shiftTime s.time.stepAmt (s.devTo s.time.stepAt).time.dev :=
  (timeStep_step s).dev.trans (congrArg (shiftTime · _) (devTo_stepAmt s _))

theorem exec_timeStepExecute (h : s.flag R.gnTqStepPend = true) : exec .timeStepExecute s = .next (timeStep s) :=
  if_neg (by rw [h]; decide)

end

/-! A write of device time (R206) -/

/-- The row of object 0x2680:02. -/
def timeObject : ObjDef := ⟨0x2680, 1, 0x02, 1, .time64, .rw, fun _ => .num 0, .any, .special⟩

theorem stateRefused_time {s : State} (h : s.lifeCycle ≠ 4) : stateRefused s 0x2680 0x02 = false := by
  have hlife : lifeRefused s 0x2680 0x02 = false := by
    unfold lifeRefused
    split
    next h4 => exact absurd h4 h
    next => rfl
  simp [stateRefused, hlife, serviceOnly]

theorem exec_timeWrite {s : State} {d : Time} (hs : Serves s) (hd : d < 18446744073709551616) :
    exec (.timeWrite d) s = finish (checkedBy s timeObject 0x2680 0x02 (.num d) (ans (timeWrite s d))) := by
  obtain ⟨hserves, hblank, hdecom⟩ := hs
  have hfind : find s 0x2680 0x02 = some timeObject := if_neg (by simp [hblank])
  have hval : ObjVal.decode timeObject.typ (leBytes timeObject.typ.size d) = .num d :=
    congrArg ObjVal.num (leNat_leBytes 8 hd)
  have hexec := numberWrite_of_fits hserves hfind (by decide) (stateRefused_time hdecom) hd (by decide)
  rw [hval] at hexec
  exact hexec

/-- Settles O37: the commands by the cases of slews and steps; what follows a step of device time (grids, queues, the quality
state) leaves the clocks and the bits of GN_TQ (`timeStep_step`); a time write passes the checks of the dictionary. -/
theorem deviceTimeSlewsAndSteps : Obligations.DeviceTimeSlewsAndSteps := by
  intro s v d
  have hslewWrite {r : State × Bool} (h : slewWrite s (int32 v) = r) : exec (.slewWrite v) s = .next r.1 := by rw [← h]; rfl
  have hstepArm {r : State × Bool} (h : stepArm s (int64 (s.rd64 R.gnTstepLo)) false = r) : exec .stepArm s = .next r.1 := by
    rw [← h]; rfl
  refine ⟨fun hlarge => ?_, fun hsmall => ?_, fun hslew => ?_, fun hrefused => ?_, fun hpend hok => ?_, fun hpend => ?_,
    fun harm hpend => ?_, fun hpend => ?_, fun hs hd hstate hpend => ?_, fun hs hd hstate => ?_, rfl, rfl, rfl,
    exec_timeStepExecute s⟩
  · exact hslewWrite (slewWrite_of_large s hlarge)
  · exact ⟨_, hslewWrite (slewWrite_of_small s hsmall), rfl,
      put_flag _ _ _ (by decide) rfl, fun _ => rfl⟩
  · have hstep := lockAfterCorrection_step (slewUsed s)
    refine ⟨_, exec_slewEnd s hslew, hstep.slewLeft, ?_, hstep.now.trans (elapse_now s _), fun hlocked => ?_⟩
    · exact (hstep.flag (.inl ⟨rfl, by decide⟩)).trans (set_flag _ _ _ (by decide) rfl)
    · rw [lockAfterCorrection_of_locked (by rwa [slewUsed_timeState])]
      exact slewUsed_sameMemory s
  · exact hstepArm (stepArm_of_refused s false hrefused)
  · exact ⟨_, hstepArm (stepArm_of_armed s false hpend hok),
      stepArmed_flag s _ false, rfl, rfl, fun a ha => set_rd_ne _ _ _ _ fun h => ha (List.mem_singleton.2 h), fun _ => rfl⟩
  · exact congrArg _ (stepCancel_of_idle s hpend)
  · exact ⟨_, exec_stepPending s harm hpend, stepAnnounced_pend s, stepAnnounced_arm s,
      stepAnnounced_stepAmt s, stepAnnounced_irq s, stepAnnounced_intake s,
      stepAnnounced_sameMemory s⟩
  · exact ⟨_, exec_timeStepExecute s hpend, timeStep_pend s, timeStep_slew s, timeStep_slewLeft s, timeStep_dev s,
      timeStep_irq s⟩
  · have harmed := stepArm_of_armed s (amount := (d : Int) - s.time.dev) true hpend (.inl (by omega))
    have hwrite : timeWrite s d = (stepArmed s ((d : Int) - s.time.dev) true, St.ok) := by
      rw [timeWrite, if_neg (by omega), harmed]
      rfl
    rw [exec_timeWrite hs hd, hwrite, harmed]
    exact ⟨finish_checkedBy_of_ok _ rfl rfl rfl rfl, stepArmed_flag s _ true, rfl, rfl, rfl, fun _ => rfl⟩
  · have hwrite : timeWrite s d = (s, St.state) := if_pos hstate
    rw [exec_timeWrite hs hd, hwrite]
    exact finish_checkedBy_of_state s

end Sys2Proof.Machine

/-! What the governor leaves of the state, whatever it moves: memory, the objects, and the count and instant of the last tick
(09_draught_governor.md R234). -/
namespace Sys2Proof.Machine
open State

/-- Memory, the objects, and the number and instant of the last tick. -/
def govFrame (s : State) : Memory × Tbl ObjVal × Nat × Option Time := (s.mem, s.objs, s.gov.tick, s.gov.last)

section
variable {s t : State} (h : govFrame t = govFrame s)
include h

theorem mem_of_govFrame : t.mem = s.mem := congrArg (·.1) h

theorem objs_of_govFrame : t.objs = s.objs := congrArg (·.2.1) h

theorem tick_of_govFrame : t.gov.tick = s.gov.tick := congrArg (·.2.2.1) h

theorem sameMemory_of_govFrame : SameMemory s t := fun a => congrArg (·.read a) (mem_of_govFrame h)

end

/-! The ways in which the governor changes the state -/
section
variable (s : State) (m : Nat)

@[simp] theorem setGovFn_govFrame (x : GovFn) : govFrame (s.setGovFn m x) = govFrame s := rfl

@[simp] theorem setGovRule_govFrame (r : Nat) (x : GovRule) : govFrame (s.setGovRule r x) = govFrame s := rfl

@[simp] theorem log_govFrame (code : Nat) (data : List Byte) : govFrame (s.log code data) = govFrame s := by simp [govFrame]

@[simp] theorem devTo_govFrame (t : Time) : govFrame (s.devTo t) = govFrame s := by simp [govFrame]

@[simp] theorem setPointWrite_govFrame (n : Nat) (v : F32) : govFrame (setPointWrite s n v) = govFrame s := rfl

@[simp] theorem wr_govFrame (a : Nat) (v : Word) : govFrame (s.wr a v) = govFrame s := rfl

@[simp] theorem set_govFrame (f : Fld) (v : Nat) : govFrame (s.set f v) = govFrame s := rfl

@[simp] theorem post_govFrame (p : Post) : govFrame (s.post p) = govFrame s := rfl

theorem sdMirror_govFrame (n : Nat) : govFrame (sdMirror s n) = govFrame s := by
  unfold sdMirror
  dsimp only
  split
  · exact foldl_keeps govFrame _ s fun _ _ _ => wr_govFrame _ _ _
  · rfl

theorem stageErr_govFrame (a e : Nat) : govFrame (stageErr s a e) = govFrame s := by
  unfold stageErr
  dsimp only
  split
  · rfl
  · split
    · exact (sdMirror_govFrame _ _).trans (set_govFrame s _ e)
    · exact set_govFrame s _ e

/-- A write to a channel register of a stage waits for its frame; only an arm of a group acts at once (R105). -/
theorem stagePost_govFrame {a : Nat} (v : Word) (field : Option Nat) (ha : a / 65536 = 0x2003 ∨ 0x1000 ≤ a % 65536) :
    govFrame (stagePost s a v field).1 = govFrame s := by
  unfold stagePost
  dsimp only
  rw [if_neg (by omega)]
  split_ifs <;> simp [stageErr_govFrame]

theorem targetWrite_govFrame (v : F32) : govFrame (targetWrite s m v).1 = govFrame s := by
  unfold targetWrite
  dsimp only
  split
  · rfl
  split
  case h_1 => split <;> simp
  case h_2 =>
    split
    next hn => exact stagePost_govFrame s _ _ (.inl (by simp only [R.sdCcur]; omega))
    next => rfl
  case h_3 =>
    split
    next hn => exact stagePost_govFrame s _ _ (.inl (by simp only [R.sdCduty]; omega))
    next => rfl
  case h_4 =>
    split
    next hn => exact stagePost_govFrame s _ _ (.inr (by simp only [R.lsCduty]; omega))
    next => rfl
  case h_5 =>
    split
    · split <;> rfl
    · rfl
  case h_6 => rfl

end

/-! Functions (R214 to R224) -/
section
variable (s : State) (m : Nat)

@[simp] theorem fnPlace_govFrame (x : GovFn) : govFrame (fnPlace s m x) = govFrame s := by
  unfold fnPlace
  split <;> simp

@[simp] theorem fnTake_govFrame : govFrame (fnTake s m) = govFrame s := by
  unfold fnTake
  dsimp only
  split <;> simp

@[simp] theorem fnFault_govFrame (cause : Nat) : govFrame (fnFault s m cause) = govFrame s := by
  unfold fnFault
  dsimp only
  split <;> simp

@[simp] theorem fnCount_govFrame (k : Nat) : govFrame (fnCount s m k) = govFrame s := rfl

@[simp] theorem fnCommand_govFrame (c : F32) (state : Nat) : govFrame (fnCommand s m c state) = govFrame s := rfl

@[simp] theorem logChange_govFrame (old new : F32) (cause : Nat) : govFrame (logChange s m old new cause) = govFrame s :=
  log_govFrame s _ _

@[simp] theorem fnChanged_govFrame (v : F32) (source : Nat) : govFrame (fnChanged s m v source) = govFrame s := by
  simp [fnChanged]

@[simp] theorem fnWatch_govFrame : govFrame (fnWatch s m).1 = govFrame s := by
  unfold fnWatch
  dsimp only
  split
  · rfl
  split
  next v _ =>
    have hwrite := targetWrite_govFrame s m (converted s m v)
    split <;> simp [hwrite]
  next =>
    split
    · rfl
    · split <;> simp

@[simp] theorem fnThawDue_govFrame : govFrame (fnThawDue s m) = govFrame s := by
  unfold fnThawDue
  split
  · exact fnPlace_govFrame s m _
  · rfl

@[simp] theorem fnRevert_govFrame (v0 : F32) : govFrame (fnRevert s m v0) = govFrame s := by simp [fnRevert]

@[simp] theorem fnOwed_govFrame : govFrame (fnOwed s m) = govFrame s := by
  unfold fnOwed
  split
  · rfl
  · dsimp only
    split <;> simp

@[simp] theorem fnCheck_govFrame : govFrame (fnCheck s m) = govFrame s := by
  have hleave : govFrame (fnLeave s m) = govFrame s := by simp [fnLeave]
  unfold fnCheck
  dsimp only
  split_ifs <;> simp [hleave]

@[simp] theorem fnMove_govFrame : govFrame (fnMove s m) = govFrame s := by
  unfold fnMove
  dsimp only
  split
  · rfl
  have hwrite := targetWrite_govFrame s m
    (converted s m (moveValue (s.govFn m) (s.mfF m 0x09) (s.gov.tick - (s.govFn m).since)))
  split_ifs <;> simp [hwrite]

end

/-! Search (R228 to R231) -/
section
variable (s : State)

@[simp] theorem toBaseline_govFrame : govFrame (toBaseline s) = govFrame s := rfl

@[simp] theorem pastPointer_govFrame (f : Nat) : govFrame (pastPointer s f) = govFrame s := rfl

@[simp] theorem trialAbandon_govFrame (cause : Nat) (revert : Bool) : govFrame (trialAbandon s cause revert) = govFrame s := by
  unfold trialAbandon
  split
  · rfl
  next f _ =>
    have hbaseline (u : State) :
        govFrame (toBaseline { u with gov := { u.gov with pointer := some f } }) = govFrame u := rfl
    dsimp only
    rw [hbaseline]
    split_ifs <;> simp

@[simp] theorem searchStep_govFrame (f : Nat) : govFrame (searchStep s f) = govFrame s := by
  unfold searchStep
  split
  · rfl
  · exact logChange_govFrame _ _ _ _ _

theorem baselineEnd_govFrame (t : Time) (ruled : Bool) : govFrame (baselineEnd s t ruled) = govFrame s := by
  unfold baselineEnd
  dsimp only
  split
  · exact searchStep_govFrame _ _
  · rfl

theorem evaluationEnd_govFrame (t : Time) (ruled : Bool) (f : Nat) : govFrame (evaluationEnd s t ruled f) = govFrame s := by
  have hlogged (j1 : F32) (data : List Byte) :
      govFrame (({ s with gov := { s.gov with j1 := j1 } } : State).log 0x0D03 data) = govFrame s := log_govFrame _ _ _
  have hkept (u : State) (x : GovFn) (j1 : F32) : govFrame (toBaseline (pastPointer { fnCount (u.setGovFn f x) f 1 with
      gov := { (fnCount (u.setGovFn f x) f 1).gov with j0 := j1 } } f)) = govFrame u := rfl
  unfold evaluationEnd
  dsimp only
  split
  · split
    · split
      · exact (hkept _ _ _).trans (hlogged _ _)
      · exact (searchStep_govFrame _ _).trans ((hkept _ _ _).trans (hlogged _ _))
    · exact (hkept _ _ _).trans (hlogged _ _)
  · simp [hlogged]

theorem search_govFrame (t : Time) (ruled : Bool) : govFrame (search s t ruled) = govFrame s := by
  unfold search
  split
  next f _ =>
    split
    · split <;> rfl
    · split
      · split
        · exact evaluationEnd_govFrame s t ruled f
        · rfl
      · rfl
  next =>
    split
    · split
      · exact baselineEnd_govFrame s t ruled
      · rfl
    · split
      · split <;> rfl
      · rfl

end

/-! Rules (R225 to R227) -/
section
variable (s : State)

@[simp] theorem ruleSkip_govFrame (r : Nat) (told : Bool) : govFrame (ruleSkip s r told) = govFrame s := by
  unfold ruleSkip
  dsimp only
  split <;> simp

@[simp] theorem ruleAct_govFrame (r : Nat) : govFrame (ruleAct s r) = govFrame s := by
  unfold ruleAct
  dsimp only
  split_ifs <;> simp

theorem ruleRun_govFrame (due : List Nat) (a : State × List Nat) (r : Nat) : govFrame (ruleRun due a r).1 = govFrame a.1 := by
  unfold ruleRun
  dsimp only
  split_ifs <;> simp

theorem runRules_govFrame (t : Time) : govFrame (runRules s t).1 = govFrame s :=
  List.foldlRecOn _ (ruleRun _) (motive := fun a : State × List Nat => govFrame a.1 = govFrame s)
    (foldl_keeps govFrame _ s fun _ _ _ => rfl) fun a ha r _ => (ruleRun_govFrame _ a r).trans ha

end

/-! Ticks (R213, R221, R230, R234) -/
section
variable (s : State)

theorem govActive_govFrame (t : Time) : govFrame (govActive s t) = govFrame s := by
  unfold govActive
  dsimp only
  split
  · rfl
  · exact log_govFrame _ _ _

theorem govAbandon_govFrame (a r : State × List Nat) : govFrame (govAbandon a r) = govFrame r.1 := by
  unfold govAbandon
  split
  · rfl
  · dsimp only
    split_ifs <;> simp

/-- A tick goes over the functions to end freezes, to watch and check targets, and to move; between them lie the active
state, the rules, the abandonment of a trial and the search. -/
theorem govSteps_govFrame (t : Time) : govFrame (govSteps s t) = govFrame s := by
  have hthaw : govFrame (govFns.foldl fnThawDue s) = govFrame s := foldl_keeps govFrame _ _ fun m _ u => fnThawDue_govFrame u m
  have hwatch {f : State × List Nat → Nat → List Nat} {u : State} :
      govFrame (govFns.foldl (fun a m => ((fnWatch a.1 m).1, f a m)) (u, [])).1 = govFrame u :=
    List.foldlRecOn _ _ (motive := fun a : State × List Nat => govFrame a.1 = govFrame u) rfl
      fun a ha m _ => (fnWatch_govFrame a.1 m).trans ha
  have hcheck (u : State) : govFrame (govActive (govFns.foldl fnCheck u) t) = govFrame u :=
    (govActive_govFrame _ t).trans (foldl_keeps govFrame _ _ fun m _ u => fnCheck_govFrame u m)
  unfold govSteps
  dsimp only
  refine (foldl_keeps govFrame _ _ fun m _ u => fnMove_govFrame u m).trans ?_
  split_ifs <;> simp [search_govFrame, govAbandon_govFrame, runRules_govFrame, hcheck, hwatch, hthaw]

end

/-! Running ticks (R213) -/
section
variable (s : State)

/-- Device time has reached the instant of the next tick. -/
def tickBegun : State :=
  let u := s.devTo (govInstant s)
  { u with gov := { u.gov with last := some (govInstant s) } }

theorem govTick_eq : govTick s =
    let u := tickBegun s
    let w := if u.activeHearth then govSteps u (govInstant s) else if u.hearth then govActive u (govInstant s) else u
    { w with gov := { w.gov with tick := w.gov.tick + 1 } } := rfl

/-- A tick is counted at its instant, whatever the governor does at it. -/
theorem govTick_govFrame : govFrame (govTick s) = (s.mem, s.objs, s.gov.tick + 1, some (govInstant s)) := by
  have hbegun : govFrame (tickBegun s) = (s.mem, s.objs, s.gov.tick, some (govInstant s)) := by simp [govFrame, tickBegun]
  have hcounted {w : State} (h : govFrame w = govFrame (tickBegun s)) :
      govFrame { w with gov := { w.gov with tick := w.gov.tick + 1 } } =
        (s.mem, s.objs, s.gov.tick + 1, some (govInstant s)) := by
    rw [hbegun] at h
    simp only [govFrame, Prod.mk.injEq] at h ⊢
    obtain ⟨hmem, hobjs, htick, hlast⟩ := h
    exact ⟨hmem, hobjs, congrArg (· + 1) htick, hlast⟩
  rw [govTick_eq]
  refine hcounted ?_
  split
  · exact govSteps_govFrame _ _
  split
  · exact govActive_govFrame _ _
  · rfl

theorem govTick_mem : (govTick s).mem = s.mem := congrArg (·.1) (govTick_govFrame s)

theorem govTick_tick : (govTick s).gov.tick = s.gov.tick + 1 := congrArg (·.2.2.1) (govTick_govFrame s)

theorem govTick_last : (govTick s).gov.last = some (govInstant s) := congrArg (·.2.2.2) (govTick_govFrame s)

/-- In the Pavilion role a tick is only counted (R213). -/
theorem govTick_of_pavilion (h : s.hearth = false) : govTick s =
    { s.devTo (govInstant s) with gov := { s.gov with last := some (govInstant s), tick := s.gov.tick + 1 } } := by
  have hrole : (tickBegun s).hearth = false := by
    rw [← h]
    exact congrArg (· == 1) (devTo_roleInEffect s _)
  have hactive : (tickBegun s).activeHearth = false := by rw [activeHearth, hrole, Bool.false_and]
  rw [govTick_eq, ← devTo_gov s (govInstant s)]
  simp only [hactive, hrole, Bool.false_eq_true, if_false]
  rfl

theorem govRun_mem (n : Nat) : (govRun n s).mem = s.mem := by
  induction n generalizing s with
  | zero => rfl
  | succ n ih => exact (ih _).trans (govTick_mem s)

theorem govRun_tick (n : Nat) : (govRun n s).gov.tick = s.gov.tick + n := by
  induction n generalizing s with
  | zero => rfl
  | succ n ih =>
    rw [govRun, ih, govTick_tick]
    omega

theorem govPass_mem (k : Nat) : (govPass s k).mem = s.mem := govRun_mem s _

theorem govPass_tick (k : Nat) : (govPass s k).gov.tick = max s.gov.tick k := by
  rw [govPass, govRun_tick]
  omega

theorem govPass_of_le {k : Nat} (h : k ≤ s.gov.tick) : govPass s k = s := by rw [govPass, Nat.sub_eq_zero_of_le h, govRun]

end

/-! The end of a freeze (R218, R223) -/
section
variable (s : State) (m : Nat)

@[simp] theorem setGovFn_govFn_self (x : GovFn) : (s.setGovFn m x).govFn m = x := Tbl.get_set_self _ _ _ _

/-- A function is placed by its present value. -/
theorem fnPlace_govFn (x : GovFn) :
    (fnPlace s m x).govFn m = { x with state := if inEnvelope s m x.present then 1 else 5, moving := false } := by
  unfold fnPlace
  split
  · exact setGovFn_govFn_self s m _
  · rw [govFn, log_gov]
    exact setGovFn_govFn_self s m _

theorem fnThawDue_of_due (hstate : (s.govFn m).state = 4) (hend : (s.govFn m).freezeEnd ≤ s.gov.tick) :
    fnThawDue s m = fnThaw s m := if_pos ⟨hstate, hend⟩

theorem fnThaw_govFn : (fnThaw s m).govFn m = { s.govFn m with
    settle := (s.govFn m).freezeEnd, state := if inEnvelope s m (s.govFn m).present then 1 else 5, moving := false } :=
  fnPlace_govFn s m _

theorem devTo_govFn (t : Time) : (s.devTo t).govFn m = s.govFn m := by simp [govFn]

theorem devTo_inEnvelope (t : Time) (v : F32) : inEnvelope (s.devTo t) m v = inEnvelope s m v := by
  simp [inEnvelope, mfF, objF, objN, obj]

end

/-! The commands of the governor (R213, R217, R223, R228) -/
section
variable {s : State} {m : Nat} (hserving : s.serving = true) (hrt : s.rtRuns 1 = true)
include hserving hrt

theorem whenRt_of_runs (r : Res) : whenRt 1 s r = r := if_pos (by rw [hserving, hrt]; rfl)

theorem exec_governorTick : exec .governorTick s = .next (govTick s) := whenRt_of_runs hserving hrt _

theorem exec_freezeEnd (hm : m < 48) (hstate : (s.govFn m).state = 4) :
    let u := govPass s (s.govFn m).freezeEnd
    exec (.freezeEnd m) s = .next (fnThawDue (u.devTo (govInstant u)) m) :=
  (whenRt_of_runs hserving hrt _).trans (if_neg (by omega))

theorem exec_settleInstant (hm : m < 48) (hstate : (s.govFn m).state ≠ 4) (hstill : (s.govFn m).moving = false)
    (hsettle : s.gov.tick ≤ (s.govFn m).settle) :
    let u := govPass s (s.govFn m).settle
    let w := u.devTo (govInstant u)
    exec (.settleInstant m) s =
      .next (if w.gov.active ∧ w.gov.trial = some m ∧ w.gov.phase = 1 then search w (govInstant w) false else w) := by
  have hwaits : ¬ (m > 47 ∨ (s.govFn m).moving = true ∨ (s.govFn m).state = 4 ∨ (s.govFn m).settle < s.gov.tick) := by
    rw [hstill]
    simp only [Bool.false_eq_true, hstate, false_or]
    omega
  exact (whenRt_of_runs hserving hrt _).trans ((if_neg hwaits).trans (apply_ite _ _ _ _).symm)

theorem exec_governorWindowEnd {e : Nat} (hend : s.gov.winEnd = some e) :
    exec .governorWindowEnd s = .next (govTick (govPass s e)) := by
  refine (whenRt_of_runs hserving hrt _).trans ?_
  rw [hend]

end

/-! The governor enable (R221, R235) -/
section
variable (s : State) {v : Nat}

theorem govStart_govFrame : govFrame (govStart s) = govFrame s := by
  refine (foldl_keeps govFrame _ _ fun m _ u => ?_).trans rfl
  split
  · exact fnTake_govFrame u m
  · rfl

theorem governorEnable_of_illegal (h : 2 ≤ v) : governorEnable s v = (s, St.range) := if_pos h

theorem governorEnable_status (h : v ≤ 1) : (governorEnable s v).2 = St.ok := by rw [governorEnable, if_neg (by omega)]

/-- Beside the object, what the enable turns on is the governor's own. -/
theorem governorEnable_govFrame (h : v ≤ 1) : govFrame (governorEnable s v).1 = govFrame (s.setObjN 0x2780 0x01 v) := by
  rw [governorEnable, if_neg (by omega)]
  dsimp only
  split
  · exact govStart_govFrame _
  · rfl

theorem governorEnable_objN (h : v ≤ 1) : (governorEnable s v).1.objN 0x2780 0x01 = v := by
  have hobj : (governorEnable s v).1.obj 0x2780 0x01 = .num v := by
    rw [obj, objs_of_govFrame (governorEnable_govFrame s h)]
    exact setObj_obj_self s _ _ _
  rw [objN, hobj]

theorem governorEnable_sameMemory (h : v ≤ 1) : SameMemory s (governorEnable s v).1 :=
  sameMemory_of_govFrame (s := s.setObjN 0x2780 0x01 v) (governorEnable_govFrame s h)

end

/-- The row of object 0x2780:01. -/
def governorEnableObject : ObjDef := ⟨0x2780, 1, 0x01, 1, .u8, .rw, fun _ => .num 0, .ints [(0, 1, 1)], .special⟩

section
variable {s : State} {v : Nat}

theorem stateRefused_governorEnable (h : s.lifeCycle ≠ 4) : stateRefused s 0x2780 0x01 = false := by
  have hlife : lifeRefused s 0x2780 0x01 = false := by
    unfold lifeRefused
    split
    next h4 => exact absurd h4 h
    next => rfl
  simp [stateRefused, hlife, serviceOnly]

theorem exec_governorEnable (hs : Serves s) (hv : v < 256) : exec (.governorEnable v) s =
    finish (checkedBy s governorEnableObject 0x2780 0x01 (.num v) (ans (governorEnable s v))) := by
  obtain ⟨hserves, hblank, hdecom⟩ := hs
  have hfind : find s 0x2780 0x01 = some governorEnableObject := if_neg (by simp [hblank])
  have hval : ObjVal.decode governorEnableObject.typ (leBytes governorEnableObject.typ.size v) = .num v :=
    congrArg ObjVal.num (leNat_leBytes 1 hv)
  have hexec := numberWrite_of_fits hserves hfind (by decide) (stateRefused_governorEnable hdecom) hv (by decide)
  rw [hval] at hexec
  exact hexec

/-- The legal values of the enable are 0 and 1. -/
theorem governorEnableObject_inRange : inRange governorEnableObject.range (.num v) = decide (v ≤ 1) := by
  simp [governorEnableObject, inRange, Nat.mod_one]

theorem exec_governorEnable_of_legal (hs : Serves s) (hv : v ≤ 1) :
    exec (.governorEnable v) s = .next (accepted (governorEnable s v).1 0x2780 0x01 .u8 (.num v)) := by
  have heffect : governorEnable s v = ((governorEnable s v).1, St.ok) := Prod.ext rfl (governorEnable_status s hv)
  rw [exec_governorEnable hs (by omega), heffect]
  exact finish_checkedBy_of_ok _ (governorEnableObject_inRange.trans (decide_eq_true hv)) rfl rfl rfl

theorem exec_governorEnable_of_illegal (hs : Serves s) (hlow : 2 ≤ v) (hhigh : v < 256) :
    exec (.governorEnable v) s = .next (refused s St.range) := by
  have hrange : inRange governorEnableObject.range (.num v) = false :=
    governorEnableObject_inRange.trans (decide_eq_false (by omega))
  have hchecked : checkedBy s governorEnableObject 0x2780 0x01 (.num v) (ans (s, St.range)) = (s, St.range, 0) :=
    (if_neg (show St.range ≠ St.state by decide)).trans (if_pos (.inl hrange))
  rw [exec_governorEnable hs hhigh, governorEnable_of_illegal s hlow, hchecked]
  rfl

end

/-- Settles O38: no act of the governor touches memory or the count of ticks (`govSteps_govFrame`), so that each tick counts one
and the commands follow from the ticks that run before theirs. -/
theorem governorActsInTicks : Obligations.GovernorActsInTicks := by
  intro s m v e
  refine ⟨exec_governorEnable_of_legal, governorEnable_objN s, governorEnable_sameMemory s, exec_governorEnable_of_illegal,
    fun hserving hrt hpavilion => ?_, fun hserving hrt => ?_, fun hserving hrt hm hstate hend => ?_,
    fun hserving hrt hm hstate hstill hsettle htrial => ?_, fun hserving hrt hend => ?_, exec_freezeEnd, exec_settleInstant⟩
  · rw [exec_governorTick hserving hrt, govTick_of_pavilion s hpavilion]
  · exact ⟨_, exec_governorTick hserving hrt, rfl, govTick_tick s, govTick_last s,
      fun a => congrArg (·.read a) (govTick_mem s)⟩
  · have hexec := exec_freezeEnd hserving hrt hm hstate
    rw [govPass_of_le s hend] at hexec
    have hthaw : fnThawDue (s.devTo (govInstant s)) m = fnThaw (s.devTo (govInstant s)) m :=
      fnThawDue_of_due _ m (by rwa [devTo_govFn]) (by rwa [devTo_govFn, devTo_gov])
    have hframe : govFrame (fnThawDue (s.devTo (govInstant s)) m) = govFrame s :=
      (fnThawDue_govFrame _ m).trans (devTo_govFrame s _)
    refine ⟨_, hexec, ?_, ?_, tick_of_govFrame hframe, sameMemory_of_govFrame hframe⟩
    · rw [hthaw, fnThaw_govFn, devTo_govFn, devTo_inEnvelope]
    · rw [hthaw, fnThaw_govFn, devTo_govFn]
  · rw [exec_settleInstant hserving hrt hm hstate hstill hsettle.le, govPass_of_le s hsettle.ge,
      if_neg fun ⟨_, htried, _⟩ => htrial (devTo_gov s _ ▸ htried)]
  · refine ⟨_, exec_governorWindowEnd hserving hrt hend, rfl, ?_, fun a => ?_⟩
    · rw [govTick_tick, govPass_tick]
    · rw [govTick_mem, govPass_mem]

end Sys2Proof.Machine

/-! What frames, reports and requests leave of the fabric and its registers (12_fabric_fleet.md R272, R281, R295). -/
namespace Sys2Proof.Machine
open State

@[simp] theorem State.setFab_now (s : State) (f : Fabric) : (s.setFab f).now = s.now := rfl
@[simp] theorem State.setFab_fab (s : State) (f : Fabric) : (s.setFab f).fab = f := rfl
@[simp] theorem State.setFab_mem (s : State) (f : Fabric) : (s.setFab f).mem = s.mem := rfl

/-! A frame of this module (R271, R272) -/

/-- SEQ and ALIVE are used up by a frame; a flooded one is noted. -/
def flueCounted (s : State) (w : FlueWay) (kind : Nat) : State :=
  let x := s.fab
  s.setFab { x with
    seq := (x.seq + 1) % 4294967296, alive := Tbl.set x.alive 0 kind ((Tbl.get x.alive 0 kind + 1) % 256),
    seen := if w.flood then (s.ownId, x.seq, s.now) :: x.seen else x.seen }

section
variable (s : State) (w : FlueWay) (cls kind dst flags epoch : Nat) (payload : List Byte)

theorem flueEmit_of_mute (h : s.mute kind = true) : flueEmit s w cls kind dst flags epoch payload = s := if_pos h

theorem flueEmit_of_speaks (h : s.mute kind = false) : flueEmit s w cls kind dst flags epoch payload =
    flueLeave (flueNext s w cls kind dst flags epoch payload) w.ports (flueCounted s w kind) :=
  if_neg (by simp [h])

theorem flueLeave_of_passes (f : FlueFrame) {p : Nat} (h : s.passes p f.kind = true) :
    flueLeave f [p] s = (s.count (R.fbPtxfrm p)).emit (.flue p f) := if_pos h

/-- A frame that leaves touches nothing of the fabric but counts. -/
theorem flueLeave_fab (f : FlueFrame) (ports : List Nat) : (flueLeave f ports s).fab = s.fab :=
  foldl_keeps (·.fab) _ _ fun _ _ _ => by split <;> rfl

theorem flueEmit_nodes : (flueEmit s w cls kind dst flags epoch payload).fab.nodes = s.fab.nodes := by
  cases h : s.mute kind
  · rw [flueEmit_of_speaks _ _ _ _ _ _ _ _ h, flueLeave_fab]
    rfl
  · rw [flueEmit_of_mute _ _ _ _ _ _ _ _ h]

theorem sendAssign_nodes (id : Nat) (n : Node) : (sendAssign s id n).fab.nodes = s.fab.nodes := flueEmit_nodes _ _ _ _ _ _ _ _

end

/-- A register that frames and reports of the fabric change: of the interrupt controller or the event recorder, FB_IRQ_STAT, or
the count of frames that a port has sent. -/
def FabricReg (a : Nat) : Prop :=
  a / 65536 = 0x2001 ∨ a / 65536 = 0x200C ∨ a = R.fbIrqStat ∨ (0x20090100 ≤ a ∧ a % 256 = 0x14)

theorem not_fabricReg_of_low {a : Nat} (hlow : 0x20090000 ≤ a) (hhigh : a < 0x20090100) (hirq : a ≠ R.fbIrqStat) :
    ¬ FabricReg a := by
  unfold FabricReg
  omega

/-- Of a port's registers only the count of frames sent is one that frames change. -/
theorem not_fabricReg_of_port {a p : Nat} (hp : p < 6) (hlow : 0x20090100 + 256 * p ≤ a) (hhigh : a < 0x20090200 + 256 * p)
    (hsent : a ≠ R.fbPtxfrm p) : ¬ FabricReg a := by
  simp only [FabricReg, R.fbPtxfrm, R.fbIrqStat] at *
  omega

/-- The fabric's state without what every frame of this module uses up, and without the node table. -/
def Fabric.settled (f : Fabric) : Fabric := { f with nodes := [], seq := 0, alive := [], seen := [], waits := [] }

/-- What frames and reports of the fabric may change: nodes, sequences and waits, and the registers of `FabricReg`. -/
structure FabricStep (s t : State) : Prop where
  mem : t.mem = s.mem
  now : t.now = s.now
  rd : ∀ a, ¬ FabricReg a → t.rd a = s.rd a
  settled : t.fab.settled = s.fab.settled

namespace FabricStep

theorem refl (s : State) : FabricStep s s := ⟨rfl, rfl, fun _ _ => rfl, rfl⟩

section
variable {s t u : State}

theorem trans (h : FabricStep s t) (k : FabricStep t u) : FabricStep s u :=
  ⟨k.mem.trans h.mem, k.now.trans h.now, fun a ha => (k.rd a ha).trans (h.rd a ha), k.settled.trans h.settled⟩

theorem ite {p : Prop} [Decidable p] (h : FabricStep s t) (k : FabricStep s u) : FabricStep s (if p then t else u) := by
  split
  · exact h
  · exact k

/-- A fold of such steps is one. -/
theorem foldl {α : Type} {f : State → α → State} (l : List α) (s : State) (h : ∀ x u, FabricStep u (f u x)) :
    FabricStep s (l.foldl f s) := by
  induction l generalizing s with
  | nil => exact refl s
  | cons x l ih => exact (h x s).trans (ih (f s x))

variable (h : FabricStep s t)
include h

theorem get {f : Fld} (hf : ¬ FabricReg f.addr) : t.get f = s.get f := get_of_rd (h.rd _ hf)

theorem flag {f : Fld} (hf : ¬ FabricReg f.addr) : t.flag f = s.flag f := flag_of_rd (h.rd _ hf)

/-- What does not read the node table, sequences and waits reads as before. -/
theorem fab {β : Type} (p : Fabric → β) (hp : ∀ f : Fabric, p f.settled = p f) : p t.fab = p s.fab := by
  rw [← hp, h.settled, hp]

end

/-! The elementary updates -/
section
variable (s : State)

theorem emit (o : Out) : FabricStep s (s.emit o) := ⟨rfl, rfl, fun _ _ => rfl, rfl⟩

theorem setFab {f : Fabric} (h : f.settled = s.fab.settled) : FabricStep s (s.setFab f) := ⟨rfl, rfl, fun _ _ => rfl, h⟩

theorem setNode (id : Nat) (n : Node) : FabricStep s (s.setNode id n) := setFab s rfl

theorem countSent (p : Nat) : FabricStep s (s.count (R.fbPtxfrm p)) :=
  ⟨rfl, rfl, fun a ha => wr_rd_ne _ _ _ _ fun hap => ha (.inr (.inr (.inr (by simp only [R.fbPtxfrm] at hap; omega)))), rfl⟩

theorem log (code : Nat) (data : List Byte) : FabricStep s (s.log code data) :=
  ⟨log_mem _ _ _, log_now _ _ _, fun _ ha => log_rd_ne _ _ _ (fun h => ha (.inl h)) (fun h => ha (.inr (.inl h))),
    congrArg _ (log_fab _ _ _)⟩

/-- A source of the fabric sets its bit of FB_IRQ_STAT. -/
theorem fire {src en b : Nat} (hp : irqPlace src = some (R.fbIrqStat, en, b)) (hs : src < 1024) : FabricStep s (s.fire src) :=
  ⟨fire_mem _ _, fire_now _ _, fun _ ha => (fire_rd_of_place s hp hs fun h => ha (.inl h)).trans
    (set_rd_ne _ _ _ _ fun h => ha (.inr (.inr (.inl h)))), congrArg _ (fire_fab _ _)⟩

/-! Sending (R272, R295) -/

theorem flueLeave (f : FlueFrame) (ports : List Nat) : FabricStep s (flueLeave f ports s) :=
  foldl ports s fun p u => ite ((countSent u p).trans (emit _ (.flue p f))) (refl u)

theorem flueEmit (w : FlueWay) (cls kind dst flags epoch : Nat) (payload : List Byte) :
    FabricStep s (flueEmit s w cls kind dst flags epoch payload) :=
  ite (refl s) ((setFab (f := (flueCounted s w kind).fab) s rfl).trans (flueLeave _ _ _))

theorem flueSend (cls kind dst flags : Nat) (payload : List Byte) : FabricStep s (flueSend s cls kind dst flags payload) :=
  flueEmit s _ _ _ _ _ _ _

theorem flueAsk (cls kind dst : Nat) (payload : List Byte) : FabricStep s (flueAsk s cls kind dst payload) :=
  (flueEmit s _ _ _ _ _ _ _).trans (setFab _ rfl)

theorem sendAssign (id : Nat) (n : Node) : FabricStep s (sendAssign s id n) := flueAsk s _ _ _ _

/-! Nodes (R279, R281) -/

theorem nodeLost (id : Nat) (n : Node) : FabricStep s (nodeLost s id n) :=
  ((setNode s id _).trans (fire _ rfl (by decide))).trans (log _ _ _)

theorem nodeDeep (id : Nat) (n : Node) : FabricStep s (nodeDeep s id n) := (setNode s id _).trans (log _ _ _)

theorem repath (rs : List Reach) (e : Nat × Option Node) : FabricStep s (repath rs s e) := by
  unfold Machine.repath
  split
  · exact refl s
  dsimp only
  split
  · exact refl s
  split
  · exact ite (nodeLost s _ _) (setNode s _ _)
  · refine ite (refl s) (ite (ite (setNode s _ _) (nodeDeep s _ _)) (ite ?_ ?_))
    · exact (setNode s _ _).trans (flueAsk _ _ _ _ _)
    · exact (((setNode s _ _).trans (fire _ rfl (by decide))).trans (log _ _ _)).trans (sendAssign _ _ _)

theorem recompute : FabricStep s (recompute s) := foldl _ s fun e u => repath u _ e

end
end FabricStep
end Sys2Proof.Machine

/-! The reports of the fabric, RINGCHK, and the heal of a ring (12_fabric_fleet.md R280, R281). -/
namespace Sys2Proof.Machine
open State

theorem gated_of_on {s : State} {k : Nat} (h : s.gateOn k = true) (r : Res) : gated s k r = r := if_pos h

/-! A source of the fabric with its event -/
section
variable (s : State) {src en b : Nat} (code : Nat) (data : List Byte)

theorem fabricReport_step (hp : irqPlace src = some (R.fbIrqStat, en, b)) (hs : src < 1024) :
    FabricStep s ((s.fire src).log code data) :=
  (FabricStep.fire s hp hs).trans (FabricStep.log _ code data)

theorem fabricReport_irq (hp : irqPlace src = some (R.fbIrqStat, en, b)) (hs : src < 1024) (hb : b < 32) :
    ((s.fire src).log code data).flag ⟨R.fbIrqStat, b, 1⟩ = true :=
  (flag_of_rd ((log_rd_ne _ _ _ (a := R.fbIrqStat) (by decide) (by decide)).trans
    (fire_rd_of_place s hp hs (by decide)))).trans (set_flag _ _ _ (show b + 1 ≤ 32 from hb) rfl)

theorem fabricReport_intake (hl : listed code = true) (hroom : Room s 1) :
    ((s.fire src).log code data).ev.intake = s.ev.intake ++ [eventOf code data] := by
  rw [log_intake_of_room data hl (by rwa [Room, fire_ev]), fire_ev]

end

/-! The heal of a ring (R281) -/
section
variable (s : State)

theorem blockEnds_mem (l : Link) (on : Bool) : (blockEnds s l on).mem = s.mem := by
  unfold blockEnds
  dsimp only
  split_ifs <;> rfl

theorem blockEnds_fab (l : Link) (on : Bool) : (blockEnds s l on).fab = s.fab := by
  unfold blockEnds
  dsimp only
  split_ifs <;> rfl

/-- The ends of a link are blocked in the roles of their ports. -/
theorem blockEnds_rd {a : Nat} (ha : a < 0x20090100 ∨ a % 256 ≠ 0x04) (l : Link) (on : Bool) :
    (blockEnds s l on).rd a = s.rd a := by
  have hrole (u : State) (q v : Nat) : (u.set (R.fbPstatRole q) v).rd a = u.rd a :=
    set_rd_ne _ _ _ _ (by simp only [R.fbPstat]; omega)
  unfold blockEnds
  dsimp only
  split_ifs <;> simp only [hrole]

/-- The links that are left when one breaks. -/
def linksLeft (broken : Option Link) (links : List Link) : List Link :=
  match broken with
  | some l => links.filter fun x => x != l
  | none => links

/-- A blocked ring opens its blocked link. -/
def ringOpened (b : Link) (broken : Option Link) : State :=
  let u := blockEnds s b false
  (u.setFab { u.fab with
    blocked := none, ringMiss := 0, ringAt := none, broken := broken, links := linksLeft broken u.fab.links }).set R.fbStatRing 0

theorem ringHeal_of_blocked {b : Link} (h : s.fab.blocked = some b) (broken : Option Link) (micros : Nat) :
    ∃ data, ringHeal s broken micros =
      (((recompute (ringOpened s b broken)).count R.fbHeals).fire 130).log 0x1006 data := by
  unfold ringHeal
  rw [h]
  cases broken <;> exact ⟨_, rfl⟩

theorem ringOpened_mem (b : Link) (broken : Option Link) : (ringOpened s b broken).mem = s.mem := blockEnds_mem s b false

theorem ringOpened_rd {a : Nat} (hport : a < 0x20090100 ∨ a % 256 ≠ 0x04) (hstat : a ≠ R.fbStat) (b : Link)
    (broken : Option Link) : (ringOpened s b broken).rd a = s.rd a :=
  (set_rd_ne _ _ _ _ hstat).trans (blockEnds_rd s hport b false)

variable {s} {b : Link} (h : s.fab.blocked = some b) (broken : Option Link) (micros : Nat)
include h

/-- The ring stands open, with every path recomputed. -/
theorem ringHeal_settled : (ringHeal s broken micros).fab.settled = (ringOpened s b broken).fab.settled := by
  obtain ⟨data, heq⟩ := ringHeal_of_blocked s h broken micros
  rw [heq, (fabricReport_step _ _ _ rfl (by decide)).settled]
  exact (FabricStep.recompute _).settled

theorem ringHeal_blocked : (ringHeal s broken micros).fab.blocked = none :=
  congrArg Fabric.blocked (ringHeal_settled h broken micros)

theorem ringHeal_broken : (ringHeal s broken micros).fab.broken = broken :=
  congrArg Fabric.broken (ringHeal_settled h broken micros)

theorem ringHeal_links : (ringHeal s broken micros).fab.links = linksLeft broken s.fab.links := by
  rw [← blockEnds_fab s b false]
  exact congrArg Fabric.links (ringHeal_settled h broken micros)

theorem ringHeal_mem : (ringHeal s broken micros).mem = s.mem := by
  obtain ⟨data, heq⟩ := ringHeal_of_blocked s h broken micros
  rw [heq, (fabricReport_step _ _ _ rfl (by decide)).mem, count_mem, (FabricStep.recompute _).mem, ringOpened_mem]

theorem ringHeal_heals : (ringHeal s broken micros).rd R.fbHeals = s.rd R.fbHeals + 1 := by
  have hkept : ¬ FabricReg R.fbHeals := not_fabricReg_of_low (by decide) (by decide) (by decide)
  obtain ⟨data, heq⟩ := ringHeal_of_blocked s h broken micros
  rw [heq, (fabricReport_step _ _ _ rfl (by decide)).rd _ hkept, State.count, wr_rd_self, (FabricStep.recompute _).rd _ hkept,
    ringOpened_rd s (by decide) (by decide)]
  rfl

theorem ringHeal_ring : (ringHeal s broken micros).flag R.fbStatRing = false := by
  have hkept : ¬ FabricReg R.fbStat := not_fabricReg_of_low (by decide) (by decide) (by decide)
  obtain ⟨data, heq⟩ := ringHeal_of_blocked s h broken micros
  rw [heq, (fabricReport_step _ _ _ rfl (by decide)).flag hkept,
    flag_of_rd (wr_rd_ne _ R.fbHeals R.fbStat _ (by decide) : (State.count _ R.fbHeals).rd R.fbStat = _),
    (FabricStep.recompute _).flag hkept]
  exact set_flag _ _ _ (by decide) rfl

theorem ringHeal_irq : (ringHeal s broken micros).flag ⟨R.fbIrqStat, 2, 1⟩ = true := by
  obtain ⟨data, heq⟩ := ringHeal_of_blocked s h broken micros
  rw [heq]
  exact fabricReport_irq _ _ _ rfl (by decide) (by decide)

end

/-! RINGCHK and reports of a break (R280, R281) -/

/-- The count of missing RINGCHK frames goes on, and the next one goes out under the next number. -/
def ringChecked (s : State) (at_ miss : Nat) : State :=
  let u := s.passTo at_
  u.setFab { u.fab with ringAt := some u.now, ringMiss := miss, ringSeq := (u.fab.ringSeq + 1) % 4294967296 }

section
variable {s : State} (hgate : s.gateOn 9 = true) (hactive : s.activeHearth = true)
include hgate hactive

theorem exec_ringchkFlood {a miss : Nat} (returned : Bool) (hat : s.fab.ringAt = some a) (hblocked : s.fab.blocked ≠ none)
    (hmiss : miss = if returned then 0 else s.fab.ringMiss + 1) : exec (.ringchkFlood returned) s =
      if 3 ≤ miss then .next (ringHeal (s.passTo (a + us 500)) none 0)
      else
        let u := ringChecked s (a + us 500) miss
        .next (flueSend u 6 0x05 0xFFFF 0 (leBytes 4 u.fab.ringSeq)) := by
  have hexec : exec (.ringchkFlood returned) s = _ := gated_of_on hgate _
  rw [hexec, hat, hmiss, ← passTo_fab s (a + us 500)]
  exact if_neg (by simp [hactive, hblocked])

theorem exec_ringHeal {a pa b pb : Nat} {l : Link} (micros : Nat)
    (hfind : (s.fab.links.find? fun y => y == ⟨a, pa, b, pb⟩ || y == ⟨b, pb, a, pa⟩) = some l) :
    exec (.ringHeal a pa b pb micros) s =
      .next (if s.fab.blocked = none ∨ s.fab.blocked = some l then linkLost s l else ringHeal s (some l) micros) := by
  have hexec : exec (.ringHeal a pa b pb micros) s = _ := gated_of_on hgate _
  rw [hexec, if_neg (by simp [hactive]), hfind, apply_ite Host.Outcome.next]

end

end Sys2Proof.Machine

/-! The link of a port comes up or goes down (12_fabric_fleet.md R272, R275, R281). -/
namespace Sys2Proof.Machine
open State

/-- A port's state is none of the registers that frames change. -/
theorem not_fabricReg_pstat {p : Nat} (hp : p < 6) : ¬ FabricReg (R.fbPstat p) :=
  not_fabricReg_of_port hp (by simp [R.fbPstat]) (by simp only [R.fbPstat]; omega) (by simp [R.fbPstat, R.fbPtxfrm])

/-! What a port keeps while the fabric meets the loss of its link -/

/-- Memory, LINK of a port, and its count of lost links. -/
def portFrame (p : Nat) (s : State) : Memory × Bool × Word := (s.mem, s.flag (R.fbPstatLink p), s.rd (R.fbPlinkdowns p))

section
variable {p : Nat}

theorem FabricStep.portFrame (hp : p < 6) {s t : State} (h : FabricStep s t) : portFrame p t = portFrame p s := by
  have hstat : ¬ FabricReg (R.fbPstat p) :=
    not_fabricReg_pstat hp
  have hdowns : ¬ FabricReg (R.fbPlinkdowns p) :=
    not_fabricReg_of_port hp (by simp [R.fbPlinkdowns]) (by simp only [R.fbPlinkdowns]; omega)
      (by simp [R.fbPlinkdowns, R.fbPtxfrm])
  simp only [Machine.portFrame, h.mem, h.flag (f := R.fbPstatLink p) hstat, h.rd _ hdowns]

/-- A field below the ports' registers is none of theirs. -/
theorem set_portFrame_of_low (s : State) {f : Fld} (hlow : f.addr < 0x20090100) (v : Nat) :
    portFrame p (s.set f v) = portFrame p s := by
  have hstat : R.fbPstat p ≠ f.addr := by simp only [R.fbPstat]; omega
  have hdowns : R.fbPlinkdowns p ≠ f.addr := by simp only [R.fbPlinkdowns]; omega
  simp only [portFrame, set_mem, set_rd_ne _ _ _ _ hdowns, flag_of_rd (f := R.fbPstatLink p) (set_rd_ne _ _ _ _ hstat)]

theorem setRole_portFrame (s : State) (q v : Nat) : portFrame p (s.set (R.fbPstatRole q) v) = portFrame p s := by
  have hdowns : R.fbPlinkdowns p ≠ R.fbPstat q := by simp only [R.fbPlinkdowns, R.fbPstat]; omega
  simp only [portFrame, set_mem, set_rd_ne _ (R.fbPstatRole q) _ _ hdowns,
    set_flag_ne s (R.fbPstatRole q) (R.fbPstatLink p) v (by simp) (.inr (.inl (by simp)))]

theorem blockEnds_portFrame (s : State) (l : Link) (on : Bool) : portFrame p (blockEnds s l on) = portFrame p s := by
  unfold blockEnds
  dsimp only
  split_ifs <;> simp only [setRole_portFrame]

variable (hp : p < 6)
include hp

theorem ringHeal_portFrame {s : State} {b : Link} (h : s.fab.blocked = some b) (broken : Option Link) (micros : Nat) :
    portFrame p (ringHeal s broken micros) = portFrame p s := by
  obtain ⟨data, heq⟩ := ringHeal_of_blocked s h broken micros
  have hheals : R.fbPlinkdowns p ≠ R.fbHeals := by simp only [R.fbPlinkdowns, R.fbHeals]; omega
  have hcount (u : State) : portFrame p (u.count R.fbHeals) = portFrame p u := by
    have hstat : R.fbPstat p ≠ R.fbHeals := by simp only [R.fbPstat, R.fbHeals]; omega
    simp only [portFrame, State.count, wr_mem, wr_rd_ne _ _ _ _ hheals,
      flag_of_rd (f := R.fbPstatLink p) (wr_rd_ne _ _ _ _ hstat)]
  rw [heq, (fabricReport_step _ _ _ rfl (by decide)).portFrame hp, hcount, (FabricStep.recompute _).portFrame hp]
  exact (set_portFrame_of_low _ (by decide) _).trans (blockEnds_portFrame s b false)

theorem linkLost_portFrame (s : State) (l : Link) : portFrame p (linkLost s l) = portFrame p s := by
  unfold linkLost
  split
  case isTrue => exact set_portFrame_of_low _ (by decide) _
  case isFalse =>
    split
    case isTrue hsome =>
      obtain ⟨b, hb⟩ := Option.isSome_iff_exists.1 hsome
      exact ringHeal_portFrame hp hb _ _
    case isFalse => exact (FabricStep.recompute _).portFrame hp

end

/-! The parts of a change (R275) -/
section
variable (s : State) (p : Nat)

/-- The port shows its link. -/
def portShown (up : Bool) (sqi : Nat) (preempt : Bool) : State :=
  (((s.put (R.fbPstatLink p) up).put (R.fbPstatPreempt p) (up && preempt)).set (R.fbPstatSqi p) (if up then sqi else 0))

/-- Port F0 of a twin member becomes the sync link. -/
def portRaised : State := if s.hearth ∧ s.objN 0x3080 0x01 ≠ 0 ∧ p = 0 then s.set (R.fbPstatRole p) 3 else s

/-- A lost link is counted, and its port is blocked no longer. -/
def portDropped : State :=
  let u := (s.count (R.fbPlinkdowns p)).set (R.fbPstatRole p) 0
  u.setFab { u.fab with foreign := u.fab.foreign.filter fun x => x != p }

/-- The active Hearth meets the loss of a link, and an assigned Pavilion reports it. -/
def portLost : State :=
  if s.activeHearth then
    match s.fab.links.find? fun l => (l.a == s.ownId && l.pa == p) || (l.b == s.ownId && l.pb == p) with
    | some l => linkLost s l
    | none => s
  else if s.hearth then s
  else if s.flag R.fbStatAssigned then flueSend s 6 0x03 1 0 (topoReport s p) else s

variable {s p}

theorem portLink_up (hp : p < 6) (sqi : Nat) (preempt : Bool) (h : s.flag (R.fbPstatLink p) = false) :
    portLink s p true sqi preempt =
      portRaised (((portShown s p true sqi preempt).fire 128).log 0x1001 (d8 p ++ d8 1)) p :=
  if_neg (by simp [h]; omega)

theorem portLink_down (hp : p < 6) (sqi : Nat) (preempt : Bool) (h : s.flag (R.fbPstatLink p) = true) :
    portLink s p false sqi preempt =
      portLost (portDropped (((portShown s p false sqi preempt).fire 128).log 0x1001 (d8 p ++ d8 0)) p) p :=
  if_neg (by simp [h]; omega)

theorem portShown_link (up : Bool) (sqi : Nat) (preempt : Bool) :
    (portShown s p up sqi preempt).flag (R.fbPstatLink p) = up := by
  rw [portShown, set_flag_ne _ _ _ _ (by simp) (.inr (.inl (by simp))), State.put,
    set_flag_ne _ _ _ _ (by simp) (.inr (.inl (by simp)))]
  exact put_flag _ _ _ (by simp) rfl

theorem portShown_preempt (up : Bool) (sqi : Nat) (preempt : Bool) :
    (portShown s p up sqi preempt).flag (R.fbPstatPreempt p) = (up && preempt) := by
  rw [portShown, set_flag_ne _ _ _ _ (by simp) (.inr (.inl (by simp)))]
  exact put_flag _ _ _ (by simp) rfl

theorem portShown_linkdowns (up : Bool) (sqi : Nat) (preempt : Bool) :
    (portShown s p up sqi preempt).rd (R.fbPlinkdowns p) = s.rd (R.fbPlinkdowns p) := by
  have hne : R.fbPlinkdowns p ≠ R.fbPstat p := by simp [R.fbPlinkdowns, R.fbPstat]
  rw [portShown, State.put, State.put, set_rd_ne _ _ _ _ hne, set_rd_ne _ _ _ _ hne, set_rd_ne _ _ _ _ hne]

/-- The sync link changes the role of its port alone. -/
theorem portRaised_flag {f : Fld} (hf : f.addr ≠ R.fbPstat p ∨ f.lsb + f.width ≤ 1 ∨ 3 ≤ f.lsb) :
    (portRaised s p).flag f = s.flag f := by
  unfold portRaised
  split
  · exact set_flag_ne _ _ _ _ (by simp) hf
  · rfl

theorem portRaised_mem : (portRaised s p).mem = s.mem := by
  unfold portRaised
  split <;> rfl

theorem portRaised_ev : (portRaised s p).ev = s.ev := by
  unfold portRaised
  split <;> rfl

theorem portLost_portFrame (hp : p < 6) : portFrame p (portLost s p) = portFrame p s := by
  unfold portLost
  split
  · split
    · exact linkLost_portFrame hp s _
    · rfl
  split
  · rfl
  split
  · exact (FabricStep.flueSend s _ _ _ _ _).portFrame hp
  · rfl

/-- The loss of a link is counted. -/
theorem portDropped_portFrame : portFrame p (portDropped s p) =
    (s.mem, s.flag (R.fbPstatLink p), s.rd (R.fbPlinkdowns p) + 1) := by
  have hne : R.fbPstat p ≠ R.fbPlinkdowns p := by simp [R.fbPlinkdowns, R.fbPstat]
  refine (setRole_portFrame (s.count (R.fbPlinkdowns p)) p 0).trans ?_
  simp only [portFrame, State.count, wr_mem, wr_rd_self, flag_of_rd (f := R.fbPstatLink p) (wr_rd_ne _ _ _ _ hne)]
  rfl

end

/-! PORT_LINK_CHANGE -/
section
variable {s : State} {p : Nat} (hgate : s.gateOn 9 = true)
include hgate

theorem exec_portLinkChange (up : Bool) (sqi : Nat) (preempt : Bool) :
    exec (.portLinkChange p up sqi preempt) s = .next (portLink s p up sqi preempt) := gated_of_on hgate _

variable (hp : p < 6) (sqi : Nat) (preempt : Bool)
include hp

/-- A port that comes up shows its link and reports it. -/
theorem portLinkChange_up (h : s.flag (R.fbPstatLink p) = false) :
    ∃ t, exec (.portLinkChange p true sqi preempt) s = .next t ∧ t.flag (R.fbPstatLink p) = true ∧
      t.flag (R.fbPstatPreempt p) = preempt ∧ t.flag ⟨R.fbIrqStat, 0, 1⟩ = true ∧
      (Room s 1 → t.ev.intake = s.ev.intake ++ [eventOf 0x1001 (d8 p ++ d8 1)]) ∧ SameMemory s t := by
  have hstep := fabricReport_step (portShown s p true sqi preempt) (src := 128) 0x1001 (d8 p ++ d8 1) rfl (by decide)
  have hstat : ¬ FabricReg (R.fbPstat p) :=
    not_fabricReg_pstat hp
  refine ⟨_, (exec_portLinkChange hgate _ _ _).trans (congrArg _ (portLink_up hp sqi preempt h)), ?_, ?_, ?_, fun hroom => ?_,
    fun a => ?_⟩
  · rw [portRaised_flag (.inr (.inl (by simp))), hstep.flag hstat, portShown_link]
  · rw [portRaised_flag (.inr (.inr (by simp))), hstep.flag hstat, portShown_preempt, Bool.true_and]
  · rw [portRaised_flag (.inl (by simp only [R.fbIrqStat, R.fbPstat]; omega))]
    exact fabricReport_irq _ _ _ rfl (by decide) (by decide)
  · rw [portRaised_ev]
    exact fabricReport_intake (portShown s p true sqi preempt) _ _ (by decide) hroom
  · rw [portRaised_mem, hstep.mem]
    rfl

/-- A port that goes down shows it and counts it. -/
theorem portLinkChange_down (h : s.flag (R.fbPstatLink p) = true) :
    ∃ t, exec (.portLinkChange p false sqi preempt) s = .next t ∧ t.flag (R.fbPstatLink p) = false ∧
      t.rd (R.fbPlinkdowns p) = s.rd (R.fbPlinkdowns p) + 1 ∧ SameMemory s t := by
  have hstep := fabricReport_step (portShown s p false sqi preempt) (src := 128) 0x1001 (d8 p ++ d8 0) rfl (by decide)
  have hframe := portDropped_portFrame (p := p)
    (s := ((portShown s p false sqi preempt).fire 128).log 0x1001 (d8 p ++ d8 0))
  have hreport := hstep.portFrame hp
  simp only [portFrame, Prod.mk.injEq, portShown_link, portShown_linkdowns] at hreport
  obtain ⟨hmem, hlink, hdowns⟩ := hreport
  rw [hmem, hlink, hdowns, ← portLost_portFrame hp, portFrame, Prod.mk.injEq, Prod.mk.injEq] at hframe
  obtain ⟨hmem', hlink', hdowns'⟩ := hframe
  exact ⟨_, (exec_portLinkChange hgate _ _ _).trans (congrArg _ (portLink_down hp sqi preempt h)), hlink', hdowns',
    fun a => congrArg (·.read a) hmem'⟩

end
end Sys2Proof.Machine

/-! HELLO between modules, and the first Pavilion of a Hearth (12_fabric_fleet.md R275, R277 to R280). -/
namespace Sys2Proof.Machine
open State

/-! HELLO_SEND (R275) -/
section
variable {s : State} {p : Nat}

/-- The next HELLO of a port is due. -/
def helloDue (s : State) (p : Nat) : State :=
  match Tbl.get s.fab.helloAt none p with
  | some t => s.passTo (t + ms 10)
  | none => s

theorem helloDue_only (s : State) (p : Nat) : ∃ n x, helloDue s p = { s with now := n, time := x } := by
  unfold helloDue
  split
  · exact passTo_only s _
  · exact ⟨_, _, rfl⟩

/-- The instant of a HELLO is noted for its port. -/
def helloNoted (u : State) (p : Nat) : State :=
  u.setFab { u.fab with helloAt := Tbl.set u.fab.helloAt none p (some u.now) }

/-- HELLO passes every port that is up (R277, R280, R289). -/
theorem passes_hello (s : State) (p : Nat) : s.passes p 0x01 = s.portUp p := by simp [passes]

/-- Even an unbound Pavilion sends HELLO (R278). -/
theorem mute_hello (s : State) : s.mute 0x01 = false := by simp [mute]

theorem exec_helloSend (hgate : s.gateOn 9 = true) (hp : p < 6) (hup : s.portUp p = true)
    (hsends : s.hearth = true ∨ s.flag R.fbStatAssigned = false) :
    ∃ payload, exec (.helloSend p) s = .next (flueSendOn (helloNoted (helloDue s p) p) p 6 0x01 1 0 payload) := by
  have hexec : exec (.helloSend p) s = _ := gated_of_on hgate _
  have hgoes : ¬ (p > 5 ∨ s.portUp p = false ∨ (s.hearth = false ∧ s.flag R.fbStatAssigned = true)) := by
    rw [hup]
    rcases hsends with h | h <;> simp [h] <;> omega
  rw [hexec, if_neg hgoes]
  exact ⟨_, rfl⟩

theorem helloSend_of_up (hgate : s.gateOn 9 = true) (hp : p < 6) (hup : s.portUp p = true)
    (hsends : s.hearth = true ∨ s.flag R.fbStatAssigned = false) :
    ∃ t, exec (.helloSend p) s = .next t ∧ t.fab.seq = (s.fab.seq + 1) % 4294967296 ∧
      Tbl.get t.fab.helloAt none p = some t.now ∧ t.out.length = s.out.length + 1 ∧
      t.rd (R.fbPtxfrm p) = s.rd (R.fbPtxfrm p) + 1 ∧ SameMemory s t := by
  obtain ⟨payload, hexec⟩ := exec_helloSend hgate hp hup hsends
  obtain ⟨n, x, hdue⟩ := helloDue_only s p
  rw [hdue, flueSendOn, flueEmit_of_speaks _ _ _ _ _ _ _ _ (mute_hello _)] at hexec
  have hleaves := flueLeave_of_passes (flueCounted (helloNoted { s with now := n, time := x } p) (onPort p) 0x01)
    (flueNext (helloNoted { s with now := n, time := x } p) (onPort p) 6 0x01 1 0 s.fab.epoch payload)
    ((passes_hello _ p).trans hup)
  exact ⟨_, hexec.trans (congrArg _ hleaves), rfl, Tbl.get_set_self s.fab.helloAt none (some n) p, rfl, wr_rd_self _ _ _,
    fun _ => rfl⟩

end

/-! HELLO_RECEIVE (R275) -/
section
variable {s : State} {p : Nat}

/-- A frame received leaves all registers but its count. -/
theorem countReceived_low {a : Nat} (ha : a < 0x20090100) : (s.count (R.fbPrxfrm p)).rd a = s.rd a :=
  wr_rd_ne _ _ _ _ (by simp only [R.fbPrxfrm]; omega)

theorem countReceived_activeHearth : (s.count (R.fbPrxfrm p)).activeHearth = s.activeHearth :=
  congrArg (fun n => s.hearth && decide (n ≤ 1)) (get_of_rd (f := R.fbStatTwin) (countReceived_low (by decide)))

/-- A port is blocked for a second Hearth. -/
def portBlocked (s : State) (p : Nat) : State :=
  (s.setFab { s.fab with foreign := p :: s.fab.foreign.filter fun q => q != p }).set (R.fbPstatRole p) 2

theorem helloHearth_of_foreign (p : Nat) {serial : Nat} (h : serial ≠ twinSerial s ∨ serial = 0) :
    helloHearth s p serial = ((portBlocked s p).fire 134).log 0x1005 (d8 p ++ d40 serial) :=
  if_neg fun ⟨htwin, hsome⟩ => h.elim (· htwin) hsome

variable (hgate : s.gateOn 9 = true) (hp : p < 6) (hup : s.portUp p = true)
variable {via vp up serial role vl vh rev gen e setter : Nat} (hvp : vp < 6) (hown : up < 6)
include hgate hp hup hvp hown

theorem exec_helloReceive : exec (.helloReceive p via vp up serial role vl vh rev gen e setter) s =
    let u := s.count (R.fbPrxfrm p)
    if u.hearth then
      if role = 1 then .next (helloHearth u p serial)
      else if u.activeHearth then .next (helloPavilion u p ⟨via, vp, up, serial, role, vl, vh, gen, e, setter⟩) else .next u
    else if u.flag R.fbStatAssigned then
      .next (flueSend u 6 0x01 1 0 (helloBytes serial role vl vh rev gen p e setter))
    else .next u :=
  (gated_of_on hgate _).trans (if_neg (by rw [hup]; simp; omega))

theorem exec_helloReceive_of_hearth (hhearth : s.hearth = true) :
    exec (.helloReceive p via vp up serial 1 vl vh rev gen e setter) s =
      .next (helloHearth (s.count (R.fbPrxfrm p)) p serial) := by
  have hrole : (s.count (R.fbPrxfrm p)).hearth = true := hhearth
  rw [exec_helloReceive hgate hp hup hvp hown]
  simp only [hrole, if_true]

theorem exec_helloReceive_of_pavilion (hactive : s.activeHearth = true) (hne : role ≠ 1) :
    exec (.helloReceive p via vp up serial role vl vh rev gen e setter) s =
      .next (helloPavilion (s.count (R.fbPrxfrm p)) p ⟨via, vp, up, serial, role, vl, vh, gen, e, setter⟩) := by
  have hrole : (s.count (R.fbPrxfrm p)).hearth = true := (Bool.and_eq_true _ _ ▸ hactive).1
  rw [exec_helloReceive hgate hp hup hvp hown]
  simp only [hrole, if_true, if_neg hne, countReceived_activeHearth, hactive]

theorem exec_helloReceive_of_relay (hpavilion : s.hearth = false) (hassigned : s.flag R.fbStatAssigned = true) :
    exec (.helloReceive p via vp up serial role vl vh rev gen e setter) s =
      .next (flueSend (s.count (R.fbPrxfrm p)) 6 0x01 1 0 (helloBytes serial role vl vh rev gen p e setter)) := by
  have hrole : (s.count (R.fbPrxfrm p)).hearth = false := hpavilion
  have hflag : (s.count (R.fbPrxfrm p)).flag R.fbStatAssigned = true :=
    (flag_of_rd (countReceived_low (by decide))).trans hassigned
  rw [exec_helloReceive hgate hp hup hvp hown]
  simp only [hrole, hflag, if_true, Bool.false_eq_true, if_false]

/-- A second Hearth's HELLO blocks its port (R277). -/
theorem helloReceive_foreign (hhearth : s.hearth = true) (hforeign : serial ≠ twinSerial s ∨ serial = 0) :
    ∃ t, exec (.helloReceive p via vp up serial 1 vl vh rev gen e setter) s = .next t ∧ p ∈ t.fab.foreign ∧
      t.get (R.fbPstatRole p) = 2 ∧ t.flag ⟨R.fbIrqStat, 6, 1⟩ = true ∧ t.fab.nodes = s.fab.nodes ∧
      (Room s 1 → t.ev.intake = s.ev.intake ++ [eventOf 0x1005 (d8 p ++ d40 serial)]) ∧ SameMemory s t := by
  have hblocks := helloHearth_of_foreign (s := s.count (R.fbPrxfrm p)) p hforeign
  have hstep := fabricReport_step (portBlocked (s.count (R.fbPrxfrm p)) p) (src := 134) 0x1005 (d8 p ++ d40 serial) rfl
    (by decide)
  refine ⟨_, (exec_helloReceive_of_hearth hgate hp hup hvp hown hhearth).trans (congrArg _ hblocks), ?_, ?_,
    fabricReport_irq _ _ _ rfl (by decide) (by decide), ?_,
    fabricReport_intake (portBlocked (s.count (R.fbPrxfrm p)) p) _ _ (by decide), fun a => ?_⟩
  · rw [log_fab, fire_fab]
    exact List.mem_cons_self
  · rw [hstep.get (f := R.fbPstatRole p) (not_fabricReg_pstat hp)]
    exact set_get _ _ _ (by simp)
  · rw [log_fab, fire_fab]
    rfl
  · rw [hstep.mem]
    rfl

end

/-! The first Pavilion (R275, R279) -/

/-- With no links only the root is reached. -/
theorem reachFrom_nil (n : Nat) (seen front : List Reach) : reachFrom [] n seen front = seen := by
  have hround (l : List Reach) : reachRound [] seen l = [] := by
    have hall : (l.flatMap fun _ => ([] : List Reach)) = [] := List.flatMap_eq_nil_iff.2 fun _ _ => rfl
    simp [reachRound, linkAt, hall]
  induction n generalizing front with
  | zero => rfl
  | succ n ih => rw [reachFrom, hround, List.append_nil, ih]

section
variable (s : State) (id : Nat) (n : Node)

@[simp] theorem setNode_node_self : (s.setNode id n).node id = some n :=
  Tbl.get_set_self s.fab.nodes none (some n) id

theorem sectUnsend_fab (q : Nat → Bool) : (sectUnsend s q).fab = s.fab := foldl_keeps (·.fab) _ _ fun _ _ _ => rfl

theorem sectUnsend_mem (q : Nat → Bool) : (sectUnsend s q).mem = s.mem := foldl_keeps (·.mem) _ _ fun _ _ _ => rfl

/-- A node is present at its path, and reported where it was not. -/
def nodeTaken (old : Bool) : State :=
  let u := s.setNode id { n with state := 0, absentAt := none }
  if old then u else (u.fire 129).log 0x1002 (d16 id ++ d40 n.serial)

theorem nodeTaken_node (old : Bool) : (nodeTaken s id n old).node id = some { n with state := 0, absentAt := none } := by
  unfold nodeTaken
  dsimp only
  split
  · exact setNode_node_self s id _
  · rw [State.node, log_fab, fire_fab]
    exact setNode_node_self s id _

theorem nodeTaken_step (old : Bool) : FabricStep s (nodeTaken s id n old) :=
  .ite (.setNode s id _) ((FabricStep.setNode s id _).trans (fabricReport_step _ (src := 129) _ _ rfl (by decide)))

theorem nodeJoin_of_deep (h : s.objN 0x3000 0x08 < n.bound) : nodeJoin s id n = nodeDeep s id n := if_pos h

theorem nodeJoin_of_fits (h : n.bound ≤ s.objN 0x3000 0x08) :
    ∃ old q, nodeJoin s id n = sectUnsend (sendAssign (nodeTaken s id n old) id n) q :=
  ⟨_, _, if_neg (Nat.not_lt.2 h)⟩

/-- A node joins with its serial number, path and upstream port, whether its bound fits or not. -/
theorem nodeJoin_node :
    ((nodeJoin s id n).node id).map (fun y => (y.serial, y.path, y.up)) = some (n.serial, n.path, n.up) := by
  rcases Nat.lt_or_ge (s.objN 0x3000 0x08) n.bound with hdeep | hfits
  · rw [nodeJoin_of_deep s id n hdeep, State.node, nodeDeep, log_fab]
    exact congrArg _ (setNode_node_self s id _)
  · obtain ⟨old, q, hjoin⟩ := nodeJoin_of_fits s id n hfits
    rw [hjoin, State.node, sectUnsend_fab, sendAssign_nodes]
    exact congrArg _ (nodeTaken_node s id n old)

theorem nodeJoin_mem : (nodeJoin s id n).mem = s.mem := by
  rcases Nat.lt_or_ge (s.objN 0x3000 0x08) n.bound with hdeep | hfits
  · rw [nodeJoin_of_deep s id n hdeep, (FabricStep.nodeDeep s id n).mem]
  · obtain ⟨old, q, hjoin⟩ := nodeJoin_of_fits s id n hfits
    rw [hjoin, sectUnsend_mem, (FabricStep.sendAssign _ id n).mem, (nodeTaken_step s id n old).mem]

end

section
variable {s : State}

/-- The lowest node ID of a Pavilion is free while no node is known. -/
theorem freeId_of_none (h : s.fab.nodes = []) : freeId s = 16 := by
  have hfree : (s.node (0 + 16)).isNone = true := by rw [State.node, h]; rfl
  rw [freeId, List.range_succ_eq_map,
    List.find?_cons_of_pos (p := fun k => (s.node (k + 16)).isNone) hfree]
  rfl

/-- A first link makes no ring. -/
theorem linkKnown_first (hlinks : s.fab.links = []) (hbroken : s.fab.broken = none) {l : Link} (hb : l.b ≠ s.ownId) :
    linkKnown s l = s.setFab { s.fab with links := [l] } := by
  have hused : usedLinks s = [] := by rw [usedLinks, hlinks, List.filter_nil]
  have hjoined : ((reachable (usedLinks s) s.ownId).any fun r => r.id == l.b) = false := by
    rw [hused, reachable, reachFrom_nil]
    simpa using hb.symm
  unfold linkKnown
  simp only [hlinks, hbroken, hjoined, State.setFab]
  simp

/-- A Pavilion heard by the active Hearth itself while it knows no node gets the lowest node ID. -/
theorem helloPavilion_first (hnodes : s.fab.nodes = []) (hlinks : s.fab.links = []) (hbroken : s.fab.broken = none)
    (hold : s.fab.superseded = none) (hpushes : s.fab.pushes = []) (hid : s.ownId ≠ 16) {vl vh : Nat}
    (hlow : vl ≤ ownVer s + 1) (hhigh : ownVer s ≤ vh + 1) (p vp up serial role e setter : Nat) :
    let n : Node := { serial := serial, path := [vp], up := up, bound := pathBound [vp] }
    let u := s.setNode 16 { n with state := 1 }
    helloPavilion s p ⟨0, vp, up, serial, role, vl, vh, 0, e, setter⟩ =
      nodeJoin (u.setFab { u.fab with links := [⟨s.ownId, vp, 16, up⟩] }) 16 n := by
  have hnode (k : Nat) : s.node k = none := by rw [State.node, hnodes]; rfl
  have hidOf : idOf s serial = none := by rw [idOf, hnodes]; rfl
  have habsent (path : List Nat) : absentOn s path = none := by rw [absentOn, hnodes]; rfl
  have hknown (n : Node) : linkKnown (s.setNode 16 n) ⟨s.ownId, vp, 16, up⟩ =
      (s.setNode 16 n).setFab { (s.setNode 16 n).fab with links := [⟨s.ownId, vp, 16, up⟩] } :=
    linkKnown_first (s := s.setNode 16 n) (l := ⟨s.ownId, vp, 16, up⟩) hlinks hbroken hid.symm
  have hspeaks : ¬ (vl > ownVer s + 1 ∨ vh + 1 < ownVer s) := by omega
  unfold helloPavilion
  simp [hspeaks, hold, hpushes, hnode, hidOf, habsent, freeId_of_none hnodes, hknown]

end

section
variable {s : State} {p : Nat} (hgate : s.gateOn 9 = true) (hp : p < 6) (hup : s.portUp p = true)
include hgate hp hup

theorem helloReceive_first (hactive : s.activeHearth = true) {up vl vh : Nat} (hown : up < 6) (hnodes : s.fab.nodes = [])
    (hlinks : s.fab.links = []) (hbroken : s.fab.broken = none) (hold : s.fab.superseded = none) (hpushes : s.fab.pushes = [])
    (hid : s.ownId ≠ 16) (hlow : vl ≤ ownVer s + 1) (hhigh : ownVer s ≤ vh + 1) (serial rev e setter : Nat) :
    ∃ t, exec (.helloReceive p 0 p up serial 0 vl vh rev 0 e setter) s = .next t ∧
      (t.node 16).map (fun y => (y.serial, y.path, y.up)) = some (serial, [p], up) ∧ SameMemory s t := by
  have hown' : (s.count (R.fbPrxfrm p)).ownId ≠ 16 := by
    rwa [State.ownId, get_of_rd (f := R.fbStatNodeid) (countReceived_low (by decide))]
  refine ⟨_, (exec_helloReceive_of_pavilion hgate hp hup hp hown hactive (by decide)).trans
    (congrArg _ (helloPavilion_first (s := s.count (R.fbPrxfrm p)) hnodes hlinks hbroken hold hpushes hown' hlow hhigh
      p p up serial 0 e setter)), nodeJoin_node _ _ _, fun a => ?_⟩
  rw [nodeJoin_mem]
  rfl

end
end Sys2Proof.Machine

/-! A Pavilion is bound and released (12_fabric_fleet.md R278, R291). -/
namespace Sys2Proof.Machine
open State

/-! A higher epoch (R253, R291) -/
section
variable (s : State)

@[simp] theorem setGhQueue_mem (l : List GhCmd) : (s.setGhQueue l).mem = s.mem := by
  rw [setGhQueue, set_mem]

@[simp] theorem setGhQueue_fab (l : List GhCmd) : (s.setGhQueue l).fab = s.fab := by
  rw [setGhQueue, set_fab]

theorem ghEpochWrite_mem (v : Nat) : (ghEpochWrite s v).mem = s.mem := by
  have hset : (s.set R.ghEpochEpoch v).mem = s.mem := set_mem s _ v
  unfold ghEpochWrite ghRemove
  dsimp only
  split_ifs
  · rfl
  · exact hset
  · rw [log_mem, count_mem, setGhQueue_mem, hset]

theorem ghEpochWrite_fab (v : Nat) : (ghEpochWrite s v).fab = s.fab := by
  have hset : (s.set R.ghEpochEpoch v).fab = s.fab := set_fab s _ v
  unfold ghEpochWrite ghRemove
  dsimp only
  split_ifs
  · rfl
  · exact hset
  · rw [log_fab, count_fab, setGhQueue_fab, hset]

theorem epochRaise_mem (e serial : Nat) : (epochRaise s e serial).mem = s.mem := by
  rw [epochRaise, log_mem, ghEpochWrite_mem, epochSet, wr64_mem, set_mem, setFab_mem]

/-- A higher epoch is taken with its setter. -/
theorem epochRaise_fab (e serial : Nat) : (epochRaise s e serial).fab = { s.fab with epoch := e, setter := serial } := by
  rw [epochRaise, log_fab, ghEpochWrite_fab, epochSet, wr64_fab, set_fab, setFab_fab]

/-- A frame of a higher epoch, or of the setter of the one that holds, is accepted with its epoch. -/
theorem epochCheck_of_accepted (sender kind : Nat) {serial e : Nat}
    (h : s.fab.epoch < e ∨ (s.fab.epoch = e ∧ serial = s.fab.setter)) :
    (epochCheck s sender serial e kind).2 = true ∧ (epochCheck s sender serial e kind).1.mem = s.mem ∧
      (epochCheck s sender serial e kind).1.fab = { s.fab with epoch := e, setter := serial } := by
  rcases h with hhigh | ⟨rfl, rfl⟩
  · rw [epochCheck, if_neg (by omega), if_pos hhigh]
    exact ⟨rfl, epochRaise_mem s e serial, epochRaise_fab s e serial⟩
  · rw [epochCheck, if_neg (Nat.lt_irrefl _), if_neg (Nat.lt_irrefl _), if_pos rfl]
    exact ⟨rfl, rfl, rfl⟩

end

/-! ASSIGN_RECEIVE (R278) -/
section
variable (s : State) (id up : Nat) (path : List Nat)

/-- An accepted assignment is noted with its path, and heard. -/
def assignNoted (s1 s2 serial : Nat) : State :=
  let u := if s.fab.bound = [] then s.setFab { s.fab with bound := [s1, s2].filter fun n => n != 0 } else s
  heard (u.setFab { u.fab with path := path, ownBound := pathBound path }) serial

/-- No port is the upstream port. -/
def upstreamCleared : State :=
  (List.range 6).foldl (fun (u : State) p => if u.get (R.fbPstatRole p) = 1 then u.set (R.fbPstatRole p) 0 else u) s

/-- The registers show the assignment. -/
def assignShown : State :=
  let u := ((s.set R.fbStatNodeid id).set R.fbStatAssigned 1).set R.fbStatBound 1
  ((u.set R.fbPtpportDepth path.length).set R.fbPtpportUpport up).set (R.fbPstatRole up) 1

/-- The fabric domain takes the recovered clock of an upstream port that is up. -/
def clockTaken : State := if s.flag (R.fbPstatLink up) then recclkTake s else s

theorem upstreamCleared_mem : (upstreamCleared s).mem = s.mem :=
  foldl_keeps (·.mem) _ _ fun _ _ _ => by split <;> rfl

theorem upstreamCleared_fab : (upstreamCleared s).fab = s.fab :=
  foldl_keeps (·.fab) _ _ fun _ _ _ => by split <;> rfl

theorem assignShown_mem : (assignShown s id up path).mem = s.mem := by
  rw [assignShown, set_mem, set_mem, set_mem, set_mem, set_mem, set_mem]

theorem assignShown_fab : (assignShown s id up path).fab = s.fab := by
  rw [assignShown, set_fab, set_fab, set_fab, set_fab, set_fab, set_fab]

theorem clockTaken_mem : (clockTaken s up).mem = s.mem := by
  unfold clockTaken
  split
  · rw [recclkTake, set_mem, set_mem]
  · rfl

theorem clockTaken_fab : (clockTaken s up).fab = s.fab := by
  unfold clockTaken
  split
  · rw [recclkTake, set_fab, set_fab]
  · rfl

/-- The recovered clock changes a field of FB_PTPPORT, and the clocks. -/
theorem clockTaken_rd {a : Nat} (hport : a ≠ R.fbPtpport) (hclk : a ≠ R.ckStat) : (clockTaken s up).rd a = s.rd a := by
  unfold clockTaken
  split
  · exact (set_rd_ne _ R.ckStatRecclk 1 _ hclk).trans (set_rd_ne s R.fbPtpportRecclk 1 _ hport)
  · rfl

/-- The assignment stands in the registers. -/
theorem assignShown_stat {id : Nat} (hid : id < 65536) :
    (assignShown s id up path).get R.fbStatNodeid = id ∧ (assignShown s id up path).flag R.fbStatAssigned = true ∧
      (assignShown s id up path).flag R.fbStatBound = true := by
  let u := ((s.set R.fbStatNodeid id).set R.fbStatAssigned 1).set R.fbStatBound 1
  have hrd : (assignShown s id up path).rd R.fbStat = u.rd R.fbStat := by
    rw [assignShown, set_rd_ne _ (R.fbPstatRole up) _ _ (by simp only [R.fbStat, R.fbPstat]; omega),
      set_rd_ne _ R.fbPtpportUpport _ _ (by decide), set_rd_ne _ R.fbPtpportDepth _ _ (by decide)]
  refine ⟨(get_of_rd (f := R.fbStatNodeid) hrd).trans ?_, (flag_of_rd (f := R.fbStatAssigned) hrd).trans ?_,
    (flag_of_rd (f := R.fbStatBound) hrd).trans ?_⟩
  · rw [set_get_ne _ _ _ _ (by decide) (.inr (.inr (by decide))), set_get_ne _ _ _ _ (by decide) (.inr (.inr (by decide))),
      set_get _ _ _ (by decide)]
    exact Nat.mod_eq_of_lt hid
  · rw [set_flag_ne _ _ _ _ (by decide) (.inr (.inl (by decide)))]
    exact set_flag _ _ _ (by decide) rfl
  · exact set_flag _ _ _ (by decide) rfl

/-- The port at which the module is reached is its upstream port. -/
theorem assignShown_role : (assignShown s id up path).get (R.fbPstatRole up) = 1 := by
  rw [assignShown, set_get _ _ _ (by simp)]
  rfl

/-- What an accepted ASSIGN changes before it is answered. -/
def assignTaken (s1 s2 serial : Nat) : State :=
  clockTaken (assignShown (upstreamCleared (assignNoted s path s1 s2 serial)) id up path) up

section
variable (s1 s2 serial : Nat)

theorem assignTaken_mem : (assignTaken s id up path s1 s2 serial).mem = (assignNoted s path s1 s2 serial).mem := by
  rw [assignTaken, clockTaken_mem, assignShown_mem, upstreamCleared_mem]

theorem assignTaken_fab : (assignTaken s id up path s1 s2 serial).fab = (assignNoted s path s1 s2 serial).fab := by
  rw [assignTaken, clockTaken_fab, assignShown_fab, upstreamCleared_fab]

theorem assignTaken_stat {id : Nat} (hid : id < 65536) :
    (assignTaken s id up path s1 s2 serial).get R.fbStatNodeid = id ∧
      (assignTaken s id up path s1 s2 serial).flag R.fbStatAssigned = true ∧
      (assignTaken s id up path s1 s2 serial).flag R.fbStatBound = true := by
  have hrd : (assignTaken s id up path s1 s2 serial).rd R.fbStat = _ := clockTaken_rd _ up (by decide) (by decide)
  rw [get_of_rd (f := R.fbStatNodeid) hrd, flag_of_rd (f := R.fbStatAssigned) hrd, flag_of_rd (f := R.fbStatBound) hrd]
  exact assignShown_stat _ up path hid

theorem assignTaken_role (hup : up < 6) : (assignTaken s id up path s1 s2 serial).get (R.fbPstatRole up) = 1 := by
  have hrd : (assignTaken s id up path s1 s2 serial).rd (R.fbPstat up) = _ :=
    clockTaken_rd _ up (by simp only [R.fbPstat, R.fbPtpport]; omega) (by simp only [R.fbPstat, R.ckStat]; omega)
  rw [get_of_rd (f := R.fbPstatRole up) hrd, assignShown_role]

/-- An unbound Pavilion is bound to the Hearth's serial numbers. -/
theorem assignNoted_of_free {s1 s2 : Nat} (hfree : s.fab.bound = []) (h1 : s1 ≠ 0) (h2 : s2 ≠ 0) :
    (assignNoted s path s1 s2 serial).mem = s.mem ∧ (assignNoted s path s1 s2 serial).fab.bound = [s1, s2] ∧
      (assignNoted s path s1 s2 serial).fab.path = path ∧
      (assignNoted s path s1 s2 serial).fab.epoch = s.fab.epoch := by
  have hbound : [s1, s2].filter (fun n => n != 0) = [s1, s2] := by simp [h1, h2]
  rw [assignNoted, if_pos hfree, hbound]
  dsimp only [heard]
  split <;> exact ⟨rfl, rfl, rfl, rfl⟩

end

/-- An accepted ASSIGN is answered to its sender. -/
theorem assignReceive_of_accepted {s1 s2 sender serial e : Nat} (port : Nat)
    (hbound : s.fab.bound = [] ∨ serial ∈ s.fab.bound) (hcheck : (epochCheck s sender serial e 0x02).2 = true) :
    let u := (epochCheck s sender serial e 0x02).1
    assignReceive s port id up path s1 s2 sender serial e =
      flueSend (assignTaken u id up path s1 s2 serial) 6 0x02 sender isResponse [] := by
  have hknown : ¬ (s.fab.bound ≠ [] ∧ s.fab.bound.contains serial = false) := by
    rcases hbound with h | h <;> simp [h]
  refine (if_neg hknown).trans (if_neg ?_)
  rw [hcheck]
  decide

/-- An ASSIGN of a stranger is counted and reported. -/
theorem assignReceive_of_stranger {serial : Nat} (port s1 s2 sender e : Nat) (hbound : s.fab.bound ≠ [])
    (hstranger : serial ∉ s.fab.bound) : assignReceive s port id up path s1 s2 sender serial e =
      (s.count R.fbRejAssign).log 0x1005 (d8 port ++ d40 serial) :=
  if_pos ⟨hbound, by simpa using hstranger⟩

variable {s id up path} {p : Nat} (hgate : s.gateOn 9 = true) (hp : p < 6) (hpavilion : s.hearth = false) (hup : up < 6)
  (hlow : 16 ≤ id) (hhigh : id ≤ 0xFFEF) (hpath : path.length ≤ 15)
include hgate hp hpavilion hup hlow hhigh hpath

theorem exec_assignReceive (n1 n2 sender serial e : Nat) : exec (.assignReceive p id up path n1 n2 sender serial e) s =
    .next (assignReceive s p id up path n1 n2 sender serial e) :=
  (gated_of_on hgate _).trans (if_neg (by rw [hpavilion]; simp; omega))

/-- An unbound Pavilion takes the ASSIGN of a Hearth whose epoch it accepts. -/
theorem assignReceive_binds {n1 n2 serial e : Nat} (sender : Nat) (hfree : s.fab.bound = []) (hn1 : n1 ≠ 0) (hn2 : n2 ≠ 0)
    (he : s.fab.epoch < e ∨ (s.fab.epoch = e ∧ serial = s.fab.setter)) :
    ∃ t, exec (.assignReceive p id up path n1 n2 sender serial e) s = .next t ∧ t.get R.fbStatNodeid = id ∧
      t.flag R.fbStatAssigned = true ∧ t.flag R.fbStatBound = true ∧ t.fab.bound = [n1, n2] ∧ t.fab.path = path ∧
      t.fab.epoch = e ∧ t.get (R.fbPstatRole up) = 1 ∧ SameMemory s t := by
  obtain ⟨hcheck, hmem0, hfab0⟩ := epochCheck_of_accepted s sender 0x02 he
  have hassign := assignReceive_of_accepted s id up path (s1 := n1) (s2 := n2) p (.inl hfree) hcheck
  generalize (epochCheck s sender serial e 0x02).1 = u at hmem0 hfab0 hassign
  obtain ⟨hmem, hbinds, hpathed, hepoch⟩ := assignNoted_of_free u path serial (hfab0 ▸ hfree) hn1 hn2
  have hstep := FabricStep.flueSend (assignTaken u id up path n1 n2 serial) 6 0x02 sender isResponse []
  have hstat : ¬ FabricReg R.fbStat := not_fabricReg_of_low (by decide) (by decide) (by decide)
  obtain ⟨hnode, hassigned, hisbound⟩ := assignTaken_stat u up path n1 n2 serial (id := id) (by omega)
  refine ⟨_, (exec_assignReceive hgate hp hpavilion hup hlow hhigh hpath n1 n2 sender serial e).trans
    (congrArg _ hassign), ?_, ?_, ?_, ?_, ?_, ?_, ?_, fun a => ?_⟩
  · rw [hstep.get (f := R.fbStatNodeid) hstat, hnode]
  · rw [hstep.flag (f := R.fbStatAssigned) hstat, hassigned]
  · rw [hstep.flag (f := R.fbStatBound) hstat, hisbound]
  · rw [hstep.fab Fabric.bound fun _ => rfl, assignTaken_fab, hbinds]
  · rw [hstep.fab Fabric.path fun _ => rfl, assignTaken_fab, hpathed]
  · rw [hstep.fab Fabric.epoch fun _ => rfl, assignTaken_fab, hepoch, hfab0]
  · rw [hstep.get (f := R.fbPstatRole up) (not_fabricReg_pstat hup), assignTaken_role u id up path n1 n2 serial hup]
  · rw [hstep.mem, assignTaken_mem, hmem, hmem0]

/-- A bound Pavilion counts the ASSIGN of a stranger. -/
theorem assignReceive_refuses {serial : Nat} (n1 n2 sender e : Nat) (hbound : s.fab.bound ≠ [])
    (hstranger : serial ∉ s.fab.bound) :
    ∃ t, exec (.assignReceive p id up path n1 n2 sender serial e) s = .next t ∧
      t.rd R.fbRejAssign = s.rd R.fbRejAssign + 1 ∧ t.fab = s.fab ∧
      (Room s 1 → t.ev.intake = s.ev.intake ++ [eventOf 0x1005 (d8 p ++ d40 serial)]) ∧ SameMemory s t := by
  refine ⟨_, (exec_assignReceive hgate hp hpavilion hup hlow hhigh hpath n1 n2 sender serial e).trans
    (congrArg _ (assignReceive_of_stranger s id up path p n1 n2 sender e hbound hstranger)), ?_, log_fab _ _ _,
    fun hroom => ?_, fun a => ?_⟩
  · rw [log_rd_ne _ _ _ (by decide) (by decide), State.count, wr_rd_self]
    rfl
  · exact log_intake_of_room (s := s.count R.fbRejAssign) _ (by decide) hroom
  · rw [log_mem]
    rfl

end

/-- The binding ends 1 s after the last frame that was heard. -/
def bindingReleased (s : State) : State :=
  let u := s.passTo (s.fab.heardAt + sec 1)
  (((u.setFab { u.fab with bound := [] }).set R.fbStatBound 0).set R.fbStatAssigned 0).set R.fbStatNodeid 0

/-- A Pavilion that hears nothing for 1 s is unbound. -/
theorem bindingRelease_of_bound {s : State} (h : s.fab.bound ≠ []) :
    ∃ t, exec .bindingRelease s = .next t ∧ t.fab.bound = [] ∧ t.flag R.fbStatBound = false ∧
      t.flag R.fbStatAssigned = false ∧ t.get R.fbStatNodeid = 0 ∧ t.now = max s.now (s.fab.heardAt + sec 1) ∧
      SameMemory s t := by
  refine ⟨bindingReleased s, if_neg h, ?_, ?_, ?_, ?_, ?_, fun a => ?_⟩
  · rw [bindingReleased, set_fab, set_fab, set_fab, setFab_fab]
  · rw [bindingReleased, set_flag_ne _ _ _ _ (by decide) (.inr (.inl (by decide))),
      set_flag_ne _ _ _ _ (by decide) (.inr (.inr (by decide)))]
    exact set_flag _ _ _ (by decide) rfl
  · rw [bindingReleased, set_flag_ne _ _ _ _ (by decide) (.inr (.inl (by decide)))]
    exact set_flag _ _ _ (by decide) rfl
  · exact set_get _ _ _ (by decide)
  · rw [bindingReleased, set_now, set_now, set_now, setFab_now, passTo_now]
  · rw [bindingReleased, set_mem, set_mem, set_mem, setFab_mem, passTo_mem]

end Sys2Proof.Machine

/-! Frames that a port receives for others (12_fabric_fleet.md R270, R272, R273). -/
namespace Sys2Proof.Machine
open State

/-- The count of a frame received is no register that says what a port passes. -/
theorem countReceived_passes (s : State) (p b kind : Nat) :
    (s.count (R.fbPrxfrm p)).passes b kind = s.passes b kind := by
  have hreceived {a : Nat} (ha : a ≠ R.fbPrxfrm p) : (s.count (R.fbPrxfrm p)).rd a = s.rd a := wr_rd_ne _ _ _ _ ha
  have hctrl := hreceived (a := R.fbCtrl) (by simp only [R.fbCtrl, R.fbPrxfrm]; omega)
  have hport := hreceived (a := R.fbPctrl b) (by simp only [R.fbPctrl, R.fbPrxfrm]; omega)
  have hstat := hreceived (a := R.fbPstat b) (by simp only [R.fbPstat, R.fbPrxfrm]; omega)
  simp only [passes, portUp, count_fab, get_of_rd (f := R.fbPstatRole b) hstat, flag_of_rd (f := R.fbPstatLink b) hstat,
    flag_of_rd (f := R.fbPctrlEn b) hport, flag_of_rd (f := R.fbCtrlEn) hctrl]

section
variable (s : State) (p : Nat) (f : FlueFrame) (ok : Bool)

/-- The version of a sender is noted in the fabric. -/
theorem noteVersion_only :
    ∃ v w, noteVersion s p f ok = s.setFab { s.fab with vers := v, portVers := w } := by
  unfold noteVersion
  dsimp only
  split
  · exact ⟨_, _, rfl⟩
  split
  · exact ⟨_, _, rfl⟩
  · exact ⟨_, _, rfl⟩

variable (us_ : Nat)

/-- An outbound frame below the end of its path goes on by the next port, if that port passes it; a wait of at most 10 µs is
never late. -/
theorem flueForward_outbound {b : Nat} (hflood : f.flood = false) (hout : f.inbound = false) (hnext : f.path[f.pidx]? = some b)
    (hpass : s.passes b f.kind = true) (hwait : us_ ≤ 10) : flueForward s p f ok us_ =
      (s.count (R.fbPtxfrm b)).emit (.flue b { f with pidx := f.pidx + 1 }) := by
  have hlong : ¬ f.path.length ≤ f.pidx := by
    have hlt := (List.getElem?_eq_some_iff.1 hnext).1
    omega
  have hroute : flueRoute s p f = { ports := [b], frame := { f with pidx := f.pidx + 1 } } := by
    simp [flueRoute, hflood, hout, hlong, hnext]
  have hbound : 10 ≤ hopBound b := by unfold hopBound; split <;> decide
  have hleave := flueLeave_of_passes s { f with pidx := f.pidx + 1 } hpass
  have honTime : ¬ hopBound b < us_ := by omega
  unfold flueForward
  simpa [hflood, hroute, hpass, honTime] using hleave

/-- A flooded frame that was seen within 10 ms goes nowhere. -/
theorem flueForward_seen (hflood : f.flood = true)
    (hseen : (s.fab.seen.any fun y => y.1 == f.src && y.2.1 == f.seq && decide (s.now < y.2.2 + ms 10)) = true) :
    ∃ l, flueForward s p f ok us_ = s.setFab { s.fab with seen := l } := by
  have hold : ((s.fab.seen.filter fun y => decide (s.now < y.2.2 + ms 10)).any fun y => y.1 == f.src && y.2.1 == f.seq) =
      true := by
    rw [List.any_filter]
    simpa [Bool.and_comm, Bool.and_assoc, and_comm, and_assoc, and_left_comm] using hseen
  exact ⟨_, if_pos ⟨hflood, hold⟩⟩

variable {s p f} (hgate : s.gateOn 9 = true) (hp : p < 6)
include hgate hp

theorem exec_flueFrameForward_flue (hpass : s.passes p f.kind = true) (hflue : isFlue s f) (hcls : f.cls ≤ 6) :
    exec (.flueFrameForward p (.flue f) ok us_) s =
      .next (flueForward (noteVersion (s.count (R.fbPrxfrm p)) p f ok) p f ok us_) := by
  refine (gated_of_on hgate _).trans ((if_neg (by omega)).trans (if_neg ?_))
  rintro (h | h | h)
  · simp [hpass] at h
  · exact h hflue
  · omega

theorem exec_flueFrameForward_other (g : OtherFrame) :
    exec (.flueFrameForward p (.other g) ok us_) s = .next (otherForward s p g ok) :=
  (gated_of_on hgate _).trans (if_neg (by omega))

/-- A frame of this fabric goes out on the next port of its path. -/
theorem flueFrameForward_outbound (hpass : s.passes p f.kind = true) (hflue : isFlue s f) (hcls : f.cls ≤ 6)
    {b : Nat} (hflood : f.flood = false) (hout : f.inbound = false) (hnext : f.path[f.pidx]? = some b)
    (hpassb : s.passes b f.kind = true) (hwait : us_ ≤ 10) :
    ∃ t, exec (.flueFrameForward p (.flue f) ok us_) s = .next t ∧
      t.out = .flue b { f with pidx := f.pidx + 1 } :: s.out ∧ t.rd (R.fbPrxfrm p) = s.rd (R.fbPrxfrm p) + 1 ∧
      t.rd (R.fbPtxfrm b) = s.rd (R.fbPtxfrm b) + 1 ∧ SameMemory s t := by
  have hexec := exec_flueFrameForward_flue ok us_ hgate hp hpass hflue hcls
  obtain ⟨v, w, hnote⟩ := noteVersion_only (s.count (R.fbPrxfrm p)) p f ok
  have hpass' := (countReceived_passes s p b f.kind).trans hpassb
  have hforward := flueForward_outbound ((s.count (R.fbPrxfrm p)).setFab { s.fab with vers := v, portVers := w })
    p f ok us_ hflood hout hnext hpass' hwait
  rw [hnote] at hexec
  refine ⟨_, hexec.trans (congrArg _ hforward), ?_, ?_, ?_, fun a => ?_⟩
  · rw [emit_out, count_out]
    rfl
  · rw [emit_rd, State.count, wr_rd_ne _ _ _ _ (by simp only [R.fbPrxfrm, R.fbPtxfrm]; omega)]
    exact wr_rd_self s _ _
  · rw [emit_rd, State.count, wr_rd_self]
    exact congrArg (· + 1) (wr_rd_ne _ _ _ _ (by simp only [R.fbPrxfrm, R.fbPtxfrm]; omega))
  · rw [emit_mem, count_mem]
    rfl

/-- A flooded frame seen before is only counted. -/
theorem flueFrameForward_seen (hpass : s.passes p f.kind = true) (hflue : isFlue s f) (hcls : f.cls ≤ 6)
    (hflood : f.flood = true)
    (hseen : (s.fab.seen.any fun y => y.1 == f.src && y.2.1 == f.seq && decide (s.now < y.2.2 + ms 10)) = true) :
    ∃ t, exec (.flueFrameForward p (.flue f) ok us_) s = .next t ∧
      t.out = s.out ∧ t.rd (R.fbPrxfrm p) = s.rd (R.fbPrxfrm p) + 1 ∧ SameMemory s t := by
  have hexec := exec_flueFrameForward_flue ok us_ hgate hp hpass hflue hcls
  obtain ⟨v, w, hnote⟩ := noteVersion_only (s.count (R.fbPrxfrm p)) p f ok
  obtain ⟨l, hforward⟩ := flueForward_seen ((s.count (R.fbPrxfrm p)).setFab
    { s.fab with vers := v, portVers := w }) p f ok us_ hflood hseen
  rw [hnote] at hexec
  exact ⟨_, hexec.trans (congrArg _ hforward), rfl, wr_rd_self _ _ _, fun _ => rfl⟩

end
end Sys2Proof.Machine

/-! The replacement of a node (12_fabric_fleet.md R287, R288). -/
namespace Sys2Proof.Machine
open State

/-! What a request to another module leaves of the fabric (R322, R344, R346) -/
section
variable (s : State)

theorem setCan_fab (c : Nat) (x : CanCh) : (s.setCan c x).fab = s.fab := rfl

theorem txEnd_fab (c b st : Nat) : (txEnd s c b st).fab = s.fab := by
  unfold txEnd
  dsimp only
  rw [fire_fab]
  split
  · rw [set_fab, set_fab, txPend, put_fab, set_fab, setCan_fab]
  · rw [set_fab, txPend, put_fab, set_fab, setCan_fab]

theorem canOffer_fab (c : Nat) : (canOffer s c).fab = s.fab := by
  unfold canOffer
  split
  · split <;> rfl
  · rfl

theorem txSubmit_fab (c b : Nat) (f : CanFrame) : (txSubmit s c b f).fab = s.fab := by
  unfold txSubmit
  dsimp only
  split
  · exact txEnd_fab _ _ _ _
  split
  · exact txEnd_fab _ _ _ _
  · exact canOffer_fab _ _

/-- The claim frame that waits for buffer 30 moves up. -/
def claimPumped (c : Nat) : State :=
  match (s.canCh c).claimOut with
  | [] => s
  | f :: l => if txHeld s c 30 then s else txSubmit (s.setCan c { s.canCh c with claimOut := l }) c 30 f

/-- The dictionary frame that waits for buffer 31 moves up. -/
def dictPumped (c : Nat) : State :=
  match (s.canCh c).dictOut with
  | [] => s
  | f :: l => if txHeld s c 31 then s else txSubmit (s.setCan c { s.canCh c with dictOut := l, dictTag := f.1 }) c 31 f.2

theorem canPump_eq (c : Nat) : canPump s c = dictPumped (claimPumped s c) c := rfl

theorem claimPumped_fab (c : Nat) : (claimPumped s c).fab = s.fab := by
  unfold claimPumped
  split
  · rfl
  split
  · rfl
  · exact txSubmit_fab _ _ _ _

theorem dictPumped_fab (c : Nat) : (dictPumped s c).fab = s.fab := by
  unfold dictPumped
  split
  · rfl
  split
  · rfl
  · exact txSubmit_fab _ _ _ _

theorem canPump_fab (c : Nat) : (canPump s c).fab = s.fab := by rw [canPump_eq, dictPumped_fab, claimPumped_fab]

theorem aliveSet_fab (u : Nat) (v : Word) : (aliveSet s u v).fab = s.fab := rfl

theorem peerContext_fab (peer : Nat) (work : Nat → Bool) : (peerContext s peer work).2.fab = s.fab := by
  unfold peerContext
  dsimp only
  split
  · rfl
  split
  · split <;> rfl
  split
  · exact aliveSet_fab _ _ _
  split
  · exact log_fab _ _ _
  · rfl

/-- A request to another module uses up sequences and waits of the fabric alone. -/
theorem remoteSend_settled (slot : Option Nat) (peer op tag index sub typ aux : Nat) (data : List Byte) :
    (remoteSend s slot peer op tag index sub typ aux data).1.fab.settled = s.fab.settled := by
  have hcontext := peerContext_fab s peer (peerWorks s)
  unfold remoteSend
  dsimp only
  split
  · rfl
  split
  · rw [hcontext]
  split
  · exact (FabricStep.flueAsk _ _ _ _ _).settled.trans (congrArg _ hcontext)
  · exact congrArg _ ((canPump_fab _ _).trans hcontext)

end

/-! The push of a record (R287) -/
section
variable (s : State)

/-- A push has sent so many bytes. -/
def Push.sentTo (id n : Nat) (x : Push) : Push := if x.id = id then { x with sent := n } else x

@[simp] theorem Push.sentTo_id (id n : Nat) (x : Push) : (x.sentTo id n).id = x.id := by
  unfold sentTo
  split <;> rfl

@[simp] theorem Push.sentTo_serial (id n : Nat) (x : Push) : (x.sentTo id n).serial = x.serial := by
  unfold sentTo
  split <;> rfl

/-- The next request of a push moves the bytes it has sent. -/
theorem pushNext_settled (x : Push) : ∃ n, (pushNext s x).fab.settled =
    { s.fab.settled with pushes := s.fab.pushes.map (Push.sentTo x.id n) } := by
  unfold pushNext
  dsimp only
  split_ifs
  · exact ⟨_, remoteSend_settled _ _ _ _ _ _ _ _ _ _⟩
  · exact ⟨_, remoteSend_settled _ _ _ _ _ _ _ _ _ _⟩
  · exact ⟨_, remoteSend_settled _ _ _ _ _ _ _ _ _ _⟩

theorem pushNext_pushes (x : Push) : ∃ n, (pushNext s x).fab.pushes = s.fab.pushes.map (Push.sentTo x.id n) :=
  (pushNext_settled s x).imp fun _ h => congrArg Fabric.pushes h

theorem pushNext_withheld (x : Push) : (pushNext s x).fab.withheld = s.fab.withheld := by
  obtain ⟨_, h⟩ := pushNext_settled s x
  exact (congrArg Fabric.withheld h :)

/-- A push begins in place of any other one of its node ID. -/
def pushBegun (x : Push) : State :=
  s.setFab { s.fab with pushes := (s.fab.pushes.filter fun y => y.id != x.id) ++ [x] }

/-- A push under a node ID takes the place of any other one. -/
theorem find_pushes_map (l : List Push) (x : Push) (n : Nat) :
    ((((l.filter fun y => y.id != x.id) ++ [x]).map (Push.sentTo x.id n)).find? fun y => y.id == x.id).map (·.serial) =
      some x.serial := by
  have hothers : (l.filter fun y => y.id != x.id).find? (fun y => y.id == x.id) = none :=
    List.find?_eq_none.2 fun y hy => by simpa using (List.mem_filter.1 hy).2
  rw [List.find?_map]
  simp [List.find?_append, hothers]

variable {s} {id : Nat} {n : Node} (h : s.node id = some n) (serial : Nat) (path : List Nat) (up : Nat)
include h

/-- A replacement is assigned the node ID, and the push of the record begins. -/
theorem replacementPush_of_node : ∃ (m : Node) (x : Push), x.id = id ∧ x.serial = serial ∧
    replacementPush s id serial path up = pushNext (pushBegun (sendAssign (s.setNode id m) id m) x) x := by
  unfold replacementPush
  rw [h]
  exact ⟨_, _, rfl, rfl, rfl⟩

theorem replacementPush_withheld : (replacementPush s id serial path up).fab.withheld = s.fab.withheld := by
  obtain ⟨m, x, -, -, hpush⟩ := replacementPush_of_node h serial path up
  rw [hpush, pushNext_withheld]
  exact (FabricStep.sendAssign (s.setNode id m) id m).fab Fabric.withheld fun _ => rfl

/-- The record of the node is pushed to the replacement's serial number. -/
theorem replacementPush_pushes :
    ((replacementPush s id serial path up).fab.pushes.find? fun y => y.id == id).map (·.serial) = some serial := by
  obtain ⟨m, x, rfl, rfl, hpush⟩ := replacementPush_of_node h serial path up
  obtain ⟨k, hpushes⟩ := pushNext_pushes (pushBegun (sendAssign (s.setNode x.id m) x.id m) x) x
  rw [hpush, hpushes]
  exact find_pushes_map _ x k

end

/-! ACCEPT_REPLACEMENT (R288) -/
section
variable {s : State} {id : Nat}

theorem acceptReplacement_of_withheld {x : Node} {w : Nat × List Nat × Nat} (hactive : s.activeHearth = true)
    (hnode : s.node id = some x) (hheld : s.fab.withheld = some w) : acceptReplacement s id =
      (replacementPush (s.setFab { s.fab with withheld := none }) id w.1 w.2.1 w.2.2, St.ok) := by
  simp only [acceptReplacement, hactive, hnode, hheld]
  rfl

theorem acceptReplacement_of_unknown (hactive : s.activeHearth = true) (hnode : s.node id = none) :
    acceptReplacement s id = (s, St.range) := by
  simp only [acceptReplacement, hactive, hnode]
  rfl

theorem acceptReplacement_of_idle (h : s.activeHearth = false ∨ (s.node id ≠ none ∧ s.fab.withheld = none)) :
    acceptReplacement s id = (s, St.state) := by
  rcases h with hstandby | ⟨hknown, hnone⟩
  · exact if_pos hstandby
  · obtain ⟨x, hx⟩ := Option.ne_none_iff_exists'.1 hknown
    simp only [acceptReplacement, hx, hnone, ite_self]

/-- The replacement withheld last is pushed the record, and withheld no longer. -/
theorem acceptReplacement_pushes {x : Node} {w : Nat × List Nat × Nat} (hactive : s.activeHearth = true)
    (hnode : s.node id = some x) (hheld : s.fab.withheld = some w) : (acceptReplacement s id).1.fab.withheld = none ∧
      ((acceptReplacement s id).1.fab.pushes.find? fun y => y.id == id).map (·.serial) = some w.1 := by
  rw [acceptReplacement_of_withheld hactive hnode hheld]
  exact ⟨replacementPush_withheld (s := s.setFab { s.fab with withheld := none }) hnode _ _ _,
    replacementPush_pushes (s := s.setFab { s.fab with withheld := none }) hnode _ _ _⟩

/-- The row of object 0x3000:11. -/
def replacementObject : ObjDef := ⟨0x3000, 1, 0x11, 1, .u16, .wo, fun _ => .num 0, .any, .special⟩

/-- Only DECOMMISSIONED refuses writes for the life cycle alone (Table 22-1). -/
theorem lifeRefused_of_in_use (h : s.lifeCycle ≠ 4) (index sub : Nat) : lifeRefused s index sub = false := by
  unfold lifeRefused
  split
  next h4 => exact absurd h4 h
  next => rfl

theorem stateRefused_replacement (h : s.lifeCycle ≠ 4) : stateRefused s 0x3000 0x11 = false := by
  simp [stateRefused, lifeRefused_of_in_use h, serviceOnly]

variable (hs : Serves s) (hid : id < 65536)
include hs hid

theorem exec_acceptReplacement : exec (.acceptReplacement id) s =
    finish (checkedBy s replacementObject 0x3000 0x11 (.num id) (ans (acceptReplacement s id))) := by
  obtain ⟨hserves, hblank, hdecom⟩ := hs
  have hfind : find s 0x3000 0x11 = some replacementObject := if_neg (by simp [hblank])
  have hval : ObjVal.decode replacementObject.typ (leBytes replacementObject.typ.size id) = .num id :=
    congrArg ObjVal.num (leNat_leBytes 2 hid)
  have hexec := numberWrite_of_fits hserves hfind (by decide) (stateRefused_replacement hdecom) hid (by decide)
  rw [hval] at hexec
  exact hexec

theorem exec_acceptReplacement_of_withheld {x : Node} {w : Nat × List Nat × Nat} (hactive : s.activeHearth = true)
    (hnode : s.node id = some x) (hheld : s.fab.withheld = some w) : exec (.acceptReplacement id) s =
      .next (accepted (acceptReplacement s id).1 0x3000 0x11 .u16 (.num id)) := by
  rw [exec_acceptReplacement hs hid, acceptReplacement_of_withheld hactive hnode hheld]
  exact finish_checkedBy_of_ok _ rfl rfl rfl rfl

theorem exec_acceptReplacement_of_idle (h : s.activeHearth = false ∨ (s.node id ≠ none ∧ s.fab.withheld = none)) :
    exec (.acceptReplacement id) s = .next (refused s St.state) := by
  rw [exec_acceptReplacement hs hid, acceptReplacement_of_idle h]
  exact finish_checkedBy_of_state s

theorem exec_acceptReplacement_of_unknown (hactive : s.activeHearth = true) (hnode : s.node id = none) :
    exec (.acceptReplacement id) s = .next (refused s St.range) := by
  rw [exec_acceptReplacement hs hid, acceptReplacement_of_unknown hactive hnode]
  rfl

end
end Sys2Proof.Machine

/-! The fabric discovers and forwards (12_fabric_fleet.md R270 to R288, R299). -/
namespace Sys2Proof.Machine
open State

section
variable {s : State} (hgate : s.gateOn 9 = true) (hactive : s.activeHearth = true) (hblocked : s.fab.blocked ≠ none)
include hgate hactive hblocked

/-- A RINGCHK goes out under the next number while fewer than three are missing. -/
theorem ringchkFlood_counts {a : Nat} {returned : Bool} (hat : s.fab.ringAt = some a)
    (hfew : returned = true ∨ s.fab.ringMiss < 2) :
    ∃ t, exec (.ringchkFlood returned) s = .next t ∧ t.fab.ringSeq = (s.fab.ringSeq + 1) % 4294967296 ∧
      t.fab.ringMiss = (if returned then 0 else s.fab.ringMiss + 1) ∧ t.fab.ringAt = some (max s.now (a + us 500)) ∧
      t.fab.blocked = s.fab.blocked ∧ SameMemory s t := by
  obtain ⟨miss, hmiss⟩ : ∃ n, n = if returned = true then 0 else s.fab.ringMiss + 1 := ⟨_, rfl⟩
  have hexec := exec_ringchkFlood hgate hactive returned hat hblocked hmiss
  have hthird : ¬ 3 ≤ miss := by
    rcases hfew with h | h
    · rw [hmiss, if_pos h]
      decide
    · split at hmiss <;> omega
  rw [if_neg hthird] at hexec
  have hstep := FabricStep.flueSend (ringChecked s (a + us 500) miss) 6 0x05 0xFFFF 0
    (leBytes 4 (ringChecked s (a + us 500) miss).fab.ringSeq)
  rw [← hmiss]
  refine ⟨_, hexec, ?_, ?_, ?_, ?_, fun a => ?_⟩
  · rw [hstep.fab Fabric.ringSeq fun _ => rfl, ringChecked, setFab_fab, passTo_fab]
  · rw [hstep.fab Fabric.ringMiss fun _ => rfl, ringChecked, setFab_fab]
  · rw [hstep.fab Fabric.ringAt fun _ => rfl, ringChecked, setFab_fab, passTo_now]
  · rw [hstep.fab Fabric.blocked fun _ => rfl, ringChecked, setFab_fab, passTo_fab]
  · rw [hstep.mem, ringChecked, setFab_mem, passTo_mem]

/-- The third missing RINGCHK heals the ring. -/
theorem ringchkFlood_heals {a : Nat} (hat : s.fab.ringAt = some a) (hmiss : 2 ≤ s.fab.ringMiss) :
    ∃ t, exec (.ringchkFlood false) s = .next t ∧ t.fab.blocked = none ∧ t.flag R.fbStatRing = false ∧
      t.rd R.fbHeals = s.rd R.fbHeals + 1 ∧ t.flag ⟨R.fbIrqStat, 2, 1⟩ = true ∧ SameMemory s t := by
  have hexec := exec_ringchkFlood hgate hactive false (miss := s.fab.ringMiss + 1) hat hblocked rfl
  rw [if_pos (by omega)] at hexec
  obtain ⟨b, hb⟩ := Option.ne_none_iff_exists'.1 hblocked
  have hb' : (s.passTo (a + us 500)).fab.blocked = some b := by rw [passTo_fab, hb]
  refine ⟨_, hexec, ringHeal_blocked hb' _ _, ringHeal_ring hb' _ _, ?_, ringHeal_irq hb' _ _, fun _ => ?_⟩
  · rw [ringHeal_heals hb', passTo_rd]
  · rw [ringHeal_mem hb', passTo_mem]

/-- A report of the loss of the only link, which is not the blocked one, heals the ring. -/
theorem ringHeal_reported {a pa b pb : Nat} (micros : Nat) (hlinks : s.fab.links = [⟨a, pa, b, pb⟩])
    (hother : s.fab.blocked ≠ some ⟨a, pa, b, pb⟩) :
    ∃ t, exec (.ringHeal a pa b pb micros) s = .next t ∧ t.fab.blocked = none ∧ t.fab.broken = some ⟨a, pa, b, pb⟩ ∧
      t.fab.links = [] ∧ t.rd R.fbHeals = s.rd R.fbHeals + 1 ∧ SameMemory s t := by
  have hfind : (s.fab.links.find? fun y => y == ⟨a, pa, b, pb⟩ || y == ⟨b, pb, a, pa⟩) = some ⟨a, pa, b, pb⟩ := by
    simp [hlinks]
  have hexec := exec_ringHeal hgate hactive micros hfind
  rw [if_neg (not_or.2 ⟨hblocked, hother⟩)] at hexec
  obtain ⟨c, hc⟩ := Option.ne_none_iff_exists'.1 hblocked
  refine ⟨_, hexec, ringHeal_blocked hc _ _, ringHeal_broken hc _ _, ?_, ringHeal_heals hc _ _, fun _ => ?_⟩
  · rw [ringHeal_links hc, hlinks]
    simp [linksLeft]
  · rw [ringHeal_mem hc]

end

/-- Settles O42: ports by `portFrame`, the ring by `ringHeal_of_blocked`, discovery by the cases of a HELLO, forwarding by the
route of a frame; what the fabric sends meanwhile uses up only sequences and waits (`FabricStep`). -/
theorem fabricDiscoversAndForwards : Obligations.FabricDiscoversAndForwards := by
  intro s p id up n1 n2 sender serial via vp role vl vh rev gen e a pa b pb us_ sqi pre ok isUp path f g w x l hgate hp
  refine ⟨portLinkChange_up hgate hp sqi pre, portLinkChange_down hgate hp sqi pre, helloSend_of_up hgate hp,
    fun hup hhearth hforeign hvp hown => helloReceive_foreign hgate hp hup hvp hown hhearth hforeign,
    fun hup hactive hown hnodes hlinks _ hbroken hold hpushes hid hlow hhigh =>
      helloReceive_first hgate hp hup hactive hown hnodes hlinks hbroken hold hpushes hid hlow hhigh serial rev e n1,
    fun hpavilion hup hlow hhigh hpath => assignReceive_binds hgate hp hpavilion hup hlow hhigh hpath sender,
    fun hpavilion hup hlow hhigh hpath => assignReceive_refuses hgate hp hpavilion hup hlow hhigh hpath n1 n2 sender e,
    bindingRelease_of_bound,
    fun hpass hflue hcls hflood hout hnext _ =>
      flueFrameForward_outbound ok us_ hgate hp hpass hflue hcls hflood hout hnext,
    flueFrameForward_seen ok us_ hgate hp,
    fun hat hactive hblocked => ringchkFlood_counts hgate hactive hblocked hat,
    fun hat hactive hblocked => ringchkFlood_heals hgate hactive hblocked hat,
    fun hactive hlinks hblocked => ringHeal_reported hgate hactive hblocked us_ hlinks,
    fun hs hid => exec_acceptReplacement_of_withheld hs hid, acceptReplacement_pushes, exec_acceptReplacement_of_idle,
    exec_acceptReplacement_of_unknown, exec_portLinkChange hgate isUp sqi pre,
    fun hup hvp hown => exec_helloReceive_of_pavilion hgate hp hup hvp hown,
    fun hup hvp hown => exec_helloReceive_of_relay hgate hp hup hvp hown,
    fun hpavilion hup hlow hhigh hpath =>
      exec_assignReceive hgate hp hpavilion hup hlow hhigh hpath n1 n2 sender serial e,
    exec_flueFrameForward_flue ok us_ hgate hp, exec_flueFrameForward_other ok us_ hgate hp g,
    fun hactive => exec_ringHeal hgate hactive us_⟩

end Sys2Proof.Machine

/-! The CRC units: the running value, its result and the byte count (13_can_integrity.md R319 to R321). -/
namespace Sys2Proof.Machine
open State

theorem gatedWrite_of_on {s : State} {k : Nat} (h : s.gateOn k = true) (e : GatedWrite) (t : State) :
    gatedWrite s k e t = .next t := if_pos h

section
variable {s : State} {u : Nat} (hu : u < 8) (hgate : s.gateOn 12 = true)
include hu hgate

theorem exec_cvStart : exec (.cvStart u) s = .next (cvStart s u) :=
  (if_neg (by omega)).trans (gatedWrite_of_on hgate _ _)

theorem exec_cvData {size : Nat} (hsize : size = 1 ∨ size = 2 ∨ size = 4) (v : Word) :
    exec (.cvData u size v) s = .next (cvFeed s u (leBytes size v.toNat)) :=
  (if_pos ⟨hu, hsize⟩).trans (gatedWrite_of_on hgate _ _)

theorem exec_cvStateWrite (hi : Bool) (v : Word) : exec (.cvStateWrite u hi v) s = .next (cvStateWrite s u hi v) :=
  (if_neg (by omega)).trans (gatedWrite_of_on hgate _ _)

theorem exec_aliveCheck (v : Word) : exec (.aliveCheck u v) s = .next (aliveCheck s u (bits v 16 6) (bits v 0 16)).2 :=
  (if_neg (by omega)).trans (gatedWrite_of_on hgate _ _)

theorem exec_aliveSet (v : Word) : exec (.aliveSet u v) s = .next (aliveSet s u v) :=
  (if_neg (by omega)).trans (gatedWrite_of_on hgate _ _)

end

/-- 64 bits written to two registers read back modulo 2^64. -/
theorem State.wr64_rd64_mod (s : State) (a v : Nat) : (s.wr64 a v).rd64 a = v % 18446744073709551616 := by
  rw [← wr64_mod, wr64_rd64 _ _ (Nat.mod_lt _ (by decide))]
  rfl

/-- The algorithm of a unit is read from CV_CFG to CV_XOROUT alone. -/
theorem cvAlg_of_rd {s t : State} {u : Nat} (h : ∀ a < R.cvStart u, t.rd a = s.rd a) : cvAlg t u = cvAlg s u := by
  have hget : ∀ f : Fld, f.addr < R.cvStart u → t.get f = s.get f := fun f hf => get_of_rd (h _ hf)
  have hrd64 : ∀ a, a + 4 < R.cvStart u → t.rd64 a = s.rd64 a := fun a ha => rd64_of_rd (h _ (by omega)) (h _ ha)
  have halg := hget (R.cvCfgAlg u) (by simp only [R.cvCfg, R.cvStart]; omega)
  have hwidth := hget (R.cvCfgWidth u) (by simp only [R.cvCfg, R.cvStart]; omega)
  have hpoly := hget (R.cvPolyPoly u) (by simp only [R.cvPoly, R.cvStart]; omega)
  have hinit := hrd64 (R.cvInitLo u) (by simp only [R.cvInitLo, R.cvStart]; omega)
  have hrefIn := hget (R.cvCfgRefin u) (by simp only [R.cvCfg, R.cvStart]; omega)
  have hrefOut := hget (R.cvCfgRefout u) (by simp only [R.cvCfg, R.cvStart]; omega)
  have hxorOut := hrd64 (R.cvXoroutLo u) (by simp only [R.cvXoroutLo, R.cvStart]; omega)
  rw [cvAlg, cvAlg, flag, flag, flag, flag, halg, hwidth, hpoly, hinit, hrefIn, hrefOut, hxorOut]

/-! The running value and the result registers that follow it (R321) -/
section
variable (s : State) (u : Nat)

theorem cvShow_rd_ne {a : Nat} (hlow : a ≠ R.cvResultLo u) (hhigh : a ≠ R.cvResultHi u) : (cvShow s u).rd a = s.rd a :=
  wr64_rd_ne _ hlow (by simp only [R.cvResultLo, R.cvResultHi] at *; omega)

theorem cvShow_rd64 {a : Nat} (h : a + 4 < R.cvResultLo u) : (cvShow s u).rd64 a = s.rd64 a := by
  simp only [R.cvResultLo] at h
  exact rd64_of_rd (cvShow_rd_ne s u (by simp only [R.cvResultLo]; omega) (by simp only [R.cvResultHi]; omega))
    (cvShow_rd_ne s u (by simp only [R.cvResultLo]; omega) (by simp only [R.cvResultHi]; omega))

theorem cvAlg_wr64_state (v : Nat) : cvAlg (s.wr64 (R.cvStateLo u) v) u = cvAlg s u :=
  cvAlg_of_rd fun a ha => by
    simp only [R.cvStart] at ha
    exact wr64_rd_ne _ (by simp only [R.cvStateLo]; omega) (by simp only [R.cvStateLo]; omega)

/-- The state after the running value takes v. -/
def cvTaken (v : Nat) : State := cvShow (s.wr64 (R.cvStateLo u) v) u

theorem cvTake_of_width (v : Nat) (h : (cvAlg s u).width ≠ 0) : cvTake s u v = cvTaken s u v := if_neg h

theorem cvTaken_state (v : Nat) : (cvTaken s u v).rd64 (R.cvStateLo u) = v % 18446744073709551616 :=
  (cvShow_rd64 _ u (by simp only [R.cvStateLo, R.cvResultLo]; omega)).trans (wr64_rd64_mod _ _ _)

theorem cvTaken_result (v : Nat) : (cvTaken s u v).rd64 (R.cvResultLo u) =
    crcResult (cvAlg s u) (v % 18446744073709551616) % 18446744073709551616 := by
  rw [cvTaken, cvShow, wr64_rd64_mod, cvAlg_wr64_state, wr64_rd64_mod]

theorem cvTaken_count (v : Nat) : (cvTaken s u v).rd (R.cvCount u) = s.rd (R.cvCount u) := by
  rw [cvTaken, cvShow_rd_ne _ u (by simp only [R.cvCount, R.cvResultLo]; omega)
    (by simp only [R.cvCount, R.cvResultHi]; omega)]
  exact wr64_rd_ne _ (by simp only [R.cvCount, R.cvStateLo]; omega) (by simp only [R.cvCount, R.cvStateLo]; omega)

/-- The byte count lies apart from the running value. -/
theorem wr_count_state (w : Word) : (s.wr (R.cvCount u) w).rd64 (R.cvStateLo u) = s.rd64 (R.cvStateLo u) :=
  rd64_of_rd (wr_rd_ne _ _ _ _ (by simp only [R.cvCount, R.cvStateLo]; omega))
    (wr_rd_ne _ _ _ _ (by simp only [R.cvCount, R.cvStateLo]; omega))

end

section
variable {s : State} {u : Nat} (hu : u < 8) (hgate : s.gateOn 12 = true)
include hu hgate

/-- START (R320). -/
theorem cvStart_loads (hwidth : (cvAlg s u).width ≠ 0) :
    ∃ t, exec (.cvStart u) s = .next t ∧
      t.rd64 (R.cvStateLo u) = (cvAlg s u).init % 2 ^ (cvAlg s u).width % 18446744073709551616 ∧ t.rd (R.cvCount u) = 0 ∧
      SameMemory s t := by
  have hstart : cvStart s u = (cvTaken s u ((cvAlg s u).init % 2 ^ (cvAlg s u).width)).wr (R.cvCount u) 0 :=
    congrArg (·.wr (R.cvCount u) 0) (cvTake_of_width s u _ hwidth)
  refine ⟨_, (exec_cvStart hu hgate).trans (congrArg _ hstart), ?_, wr_rd_self _ _ _, fun _ => rfl⟩
  rw [wr_count_state, cvTaken_state]

/-- A word written to CV_DATA (R320). -/
theorem cvData_feeds (hwidth : (cvAlg s u).width ≠ 0) (v : Word) :
    ∃ t, exec (.cvData u 4 v) s = .next t ∧
      t.rd64 (R.cvStateLo u) = (leBytes 4 v.toNat).foldl (crcByte (cvAlg s u)) (s.rd64 (R.cvStateLo u)) % 18446744073709551616 ∧
      t.rd (R.cvCount u) = s.rd (R.cvCount u) + 4 ∧ SameMemory s t := by
  have hfeed : cvFeed s u (leBytes 4 v.toNat) =
      (cvTaken s u ((leBytes 4 v.toNat).foldl (crcByte (cvAlg s u)) (s.rd64 (R.cvStateLo u)))).count (R.cvCount u) 4 :=
    congrArg (·.count (R.cvCount u) 4) (cvTake_of_width s u _ hwidth)
  refine ⟨_, (exec_cvData hu hgate (.inr (.inr rfl)) v).trans (congrArg _ hfeed), ?_, ?_, fun _ => rfl⟩
  · rw [count, wr_count_state, cvTaken_state]
  · rw [count, wr_rd_self, cvTaken_count]
    rfl

/-- A word written to CV_STATE of a unit whose value has no high half (R321). -/
theorem cvStateWrite_replaces (hwidth : (cvAlg s u).width ≤ 32) (v : Word) :
    ∃ t, exec (.cvStateWrite u false v) s = .next t ∧ t.rd64 (R.cvStateLo u) = v.toNat ∧
      t.rd64 (R.cvResultLo u) = crcResult (cvAlg s u) v.toNat % 18446744073709551616 ∧ SameMemory s t := by
  have hwrite : cvStateWrite s u false v = cvTaken s u v.toNat := if_pos hwidth
  have hv : v.toNat % 18446744073709551616 = v.toNat := Nat.mod_eq_of_lt (v.isLt.trans (by decide))
  refine ⟨_, (exec_cvStateWrite hu hgate false v).trans (congrArg _ hwrite), ?_, ?_, fun _ => rfl⟩
  · rw [cvTaken_state, hv]
  · rw [cvTaken_result, hv]

end
end Sys2Proof.Machine

/-! The alive-counter checker: the class of a value and what a check leaves (13_can_integrity.md R323, R324). -/
namespace Sys2Proof.Machine
open State

/-! The four classes in a valid context (R323) -/

/-- R323 recovers d from the value d ahead of the expected one. -/
theorem aliveDistance {m last d : Nat} (hlast : last < m) (hd : d < m) :
    ((last + 1 + d) % m + m - (last + 1) % m) % m = d := by
  have he : (last + 1) % m ≤ m := (Nat.mod_lt _ (Nat.zero_lt_of_lt hlast)).le
  calc ((last + 1 + d) % m + m - (last + 1) % m) % m
      = (((last + 1) % m + d) % m + (m - (last + 1) % m)) % m := by rw [Nat.add_sub_assoc he, Nat.mod_add_mod (last + 1)]
    _ = ((last + 1) % m + d + (m - (last + 1) % m)) % m := Nat.mod_add_mod _ _ _
    _ = (d + m) % m := by congr 1; omega
    _ = d := by rw [Nat.add_mod_right, Nat.mod_eq_of_lt hd]

section
variable {n d : Nat} (maxSkip resync : Nat) {c : AliveCtx} (hvalid : c.valid = true) (hlast : c.last < 2 ^ n)
include hvalid hlast

theorem aliveClassify_expected : aliveClassify n maxSkip resync c ((c.last + 1) % 2 ^ n) =
    (.ok, { c with last := (c.last + 1) % 2 ^ n, run := 0 }) := by
  have hd := aliveDistance hlast (Nat.two_pow_pos n)
  rw [Nat.add_zero] at hd
  simp only [aliveClassify, hvalid, hd, Nat.mod_mod, Bool.not_true, Bool.false_eq_true, if_false, if_true]

/-- The last value again is 2^n − 1 ahead of the expected one. -/
theorem aliveClassify_last (hn : n ≠ 0) : aliveClassify n maxSkip resync c c.last = (.repeated, { c with run := 0 }) := by
  have hm : 2 ^ n - 1 ≠ 0 := by have := Nat.one_lt_two_pow hn; omega
  have hv : (c.last + 1 + (2 ^ n - 1)) % 2 ^ n = c.last := by
    rw [show c.last + 1 + (2 ^ n - 1) = c.last + 2 ^ n by omega, Nat.add_mod_right, Nat.mod_eq_of_lt hlast]
  have hd := aliveDistance hlast (d := 2 ^ n - 1) (by omega)
  rw [hv] at hd
  simp only [aliveClassify, hvalid, Nat.mod_eq_of_lt hlast, hd, hm, Bool.not_true, Bool.false_eq_true, if_false, if_true]

variable (hd : d < 2 ^ n - 1) (hpos : 1 ≤ d)
include hd hpos

theorem aliveClassify_skipped (hskip : d ≤ maxSkip) :
    aliveClassify n maxSkip resync c ((c.last + 1 + d) % 2 ^ n) =
      (.skipped d, { c with last := (c.last + 1 + d) % 2 ^ n, run := 0 }) := by
  have hne : d ≠ 0 ∧ d ≠ 2 ^ n - 1 := by omega
  simp only [aliveClassify, hvalid, aliveDistance hlast (d := d) (by omega), Nat.mod_mod, hne, hskip, Bool.not_true,
    Bool.false_eq_true, if_false, if_true]

/-- Without RESYNC a value beyond MAXSKIP never ends a run (R324). -/
theorem aliveClassify_stale (hskip : maxSkip < d) :
    aliveClassify n maxSkip 0 c ((c.last + 1 + d) % 2 ^ n) =
      (.stale, { c with run := min (if 0 < c.run ∧ c.prev < (c.last + 1 + d) % 2 ^ n then c.run + 1 else 1) 15,
                        prev := (c.last + 1 + d) % 2 ^ n }) := by
  have hne : d ≠ 0 ∧ d ≠ 2 ^ n - 1 ∧ ¬ d ≤ maxSkip := by omega
  simp only [aliveClassify, hvalid, aliveDistance hlast (d := d) (by omega), Nat.mod_mod, hne, Nat.lt_irrefl, Bool.not_true,
    Bool.false_eq_true, false_and, if_false]

end

/-! What a check leaves -/
section
variable (s : State) (u k v : Nat)

/-- The class of value v in context k of unit u, and the context after. -/
def aliveClass : AliveClass × AliveCtx :=
  aliveClassify (s.get (R.cvAccfgN u)) (s.get (R.cvAccfgMaxskip u)) (s.get (R.cvAccfgResync u)) (s.aliveCtx u k) v

/-- CV_ACRES shows a class and its counter counts it. -/
def aliveCounted (cls : AliveClass) : State :=
  ((aliveResult s cls k).2.wr (R.cvAcres u) (aliveResult s cls k).1).count (aliveCounter u cls)

/-- Only an n of more than eight bits draws a free value. -/
theorem aliveResult_state (cls : AliveClass) : (aliveResult s cls k).2 = s ∨ (aliveResult s cls k).2 = s.fresh := by
  cases cls with
  | skipped n =>
    rw [aliveResult]
    split
    · exact .inl rfl
    · exact .inr rfl
  | ok => exact .inl rfl
  | repeated => exact .inl rfl
  | stale => exact .inl rfl
  | resynced => exact .inl rfl

theorem aliveResult_rd (cls : AliveClass) (a : Nat) : (aliveResult s cls k).2.rd a = s.rd a := by
  rcases aliveResult_state s k cls with h | h <;> rw [h]
  exact fresh_rd _ _

theorem aliveCounted_mem (cls : AliveClass) : (aliveCounted s u k cls).mem = s.mem := by
  rcases aliveResult_state s k cls with h | h <;> rw [aliveCounted, h] <;> rfl

theorem aliveCounter_ne_acres (cls : AliveClass) : aliveCounter u cls ≠ R.cvAcres u := by
  cases cls <;> simp only [aliveCounter, R.cvAcres, R.cvOk, R.cvRepeated, R.cvSkipped, R.cvStale] <;> omega

theorem aliveCounted_counter (cls : AliveClass) :
    (aliveCounted s u k cls).rd (aliveCounter u cls) = s.rd (aliveCounter u cls) + 1 := by
  rw [aliveCounted, count, wr_rd_self, wr_rd_ne _ _ _ _ (aliveCounter_ne_acres u cls), aliveResult_rd]
  rfl

theorem aliveCounted_acres (cls : AliveClass) :
    (aliveCounted s u k cls).rd (R.cvAcres u) = (aliveResult s cls k).1 :=
  (wr_rd_ne _ _ _ _ (aliveCounter_ne_acres u cls).symm).trans (wr_rd_self _ _ _)

/-- A check shows and counts the class and keeps the context, but for the instant of a report; it logs at most one event. -/
theorem aliveCheck_state : ∃ x : AliveCtx, x.last = (aliveClass s u k v).2.last ∧
    ((aliveCheck s u k v).2 = (aliveCounted s u k (aliveClass s u k v).1).setAliveCtx u k x ∨
      ∃ code data, (aliveCheck s u k v).2 =
        ((aliveCounted s u k (aliveClass s u k v).1).setAliveCtx u k x).log code data) := by
  obtain ⟨cls, c, hcls⟩ : ∃ cls c, aliveClass s u k v = (cls, c) := ⟨_, _, rfl⟩
  have hclassify := hcls
  rw [aliveClass] at hclassify
  simp only [aliveCheck, hclassify, hcls]
  cases cls with
  | stale =>
    simp only [reduceCtorEq, if_false]
    split_ifs with hlog
    · exact ⟨{ c with logAt := some (aliveCounted s u k .stale).now }, rfl, .inr ⟨_, _, rfl⟩⟩
    · exact ⟨c, rfl, .inl rfl⟩
  | resynced => exact ⟨c, rfl, .inr ⟨0x1201, [BitVec.ofNat 8 u, BitVec.ofNat 8 k] ++ leBytes 2 v, rfl⟩⟩
  | ok => exact ⟨c, rfl, .inl rfl⟩
  | repeated => exact ⟨c, rfl, .inl rfl⟩
  | skipped n => exact ⟨c, rfl, .inl rfl⟩

theorem aliveCheck_mem : (aliveCheck s u k v).2.mem = s.mem := by
  obtain ⟨x, -, h | ⟨code, data, h⟩⟩ := aliveCheck_state s u k v
  · rw [h]
    exact aliveCounted_mem s u k _
  · rw [h, log_mem]
    exact aliveCounted_mem s u k _

theorem aliveCheck_last : ((aliveCheck s u k v).2.aliveCtx u k).last = (aliveClass s u k v).2.last := by
  obtain ⟨x, hx, h | ⟨code, data, h⟩⟩ := aliveCheck_state s u k v
  · rw [h, ← hx]
    exact congrArg _ (Tbl.get_set_self _ _ _ _)
  · rw [h, ← hx, aliveCtx, log_cv]
    exact congrArg _ (Tbl.get_set_self _ _ _ _)

/-- An event leaves the registers of the units, which stand at 0x200B0000. -/
theorem aliveCheck_rd {a : Nat} (ha : a / 65536 = 0x200B) :
    (aliveCheck s u k v).2.rd a = (aliveCounted s u k (aliveClass s u k v).1).rd a := by
  obtain ⟨x, -, h | ⟨code, data, h⟩⟩ := aliveCheck_state s u k v
  · rw [h]
    rfl
  · rw [h, log_rd_ne _ _ _ (by omega) (by omega)]
    rfl

end

theorem bits_of_aliveWord {x k : Nat} (hx : x < 65536) (hk : k < 64) :
    bits (BitVec.ofNat 32 (x + 65536 * k)) 16 6 = k ∧ bits (BitVec.ofNat 32 (x + 65536 * k)) 0 16 = x := by
  simp only [bits, BitVec.toNat_ofNat]
  omega

/-- A value classified in context k is counted, shown in CV_ACRES and, where its class says so, kept. -/
theorem aliveCheck_classified {s : State} {u k x : Nat} {v : Word} {w : Word} {cls : AliveClass} {c : AliveCtx} (hu : u < 8)
    (hgate : s.gateOn 12 = true) (hk : k < 64) (hx : x < 65536) (hv : v = BitVec.ofNat 32 (x + 65536 * k))
    (hcls : aliveClass s u k x = (cls, c)) (hw : (aliveResult s cls k).1 = w) :
    ∃ t, exec (.aliveCheck u v) s = .next t ∧ t.rd (aliveCounter u cls) = s.rd (aliveCounter u cls) + 1 ∧
      (t.aliveCtx u k).last = c.last ∧ t.rd (R.cvAcres u) = w ∧ SameMemory s t := by
  obtain ⟨hctx, hval⟩ := bits_of_aliveWord hx hk
  have hexec := exec_aliveCheck hu hgate v
  rw [hv, hctx, hval, ← hv] at hexec
  refine ⟨_, hexec, ?_, ?_, ?_, fun a => congrArg (·.read a) (aliveCheck_mem s u k x)⟩
  · have hcv : aliveCounter u cls / 65536 = 0x200B := by
      cases cls <;> simp only [aliveCounter, R.cvOk, R.cvRepeated, R.cvSkipped, R.cvStale] <;> omega
    rw [aliveCheck_rd s u k x hcv, hcls, aliveCounted_counter]
  · rw [aliveCheck_last, hcls]
  · rw [aliveCheck_rd s u k x (by simp only [R.cvAcres]; omega), hcls, aliveCounted_acres, hw]

theorem aliveWidth_lt {n : Nat} (hn : n ≤ 16) (v : Nat) : v % 2 ^ n < 65536 :=
  (Nat.mod_lt _ (Nat.two_pow_pos n)).trans_le (Nat.pow_le_pow_right (by decide) hn)

/-- Settles O47: a CRC unit's running value by `cvTaken`, an alive value by its class (`aliveClassify_expected` and the three
after it) and what a check of that class leaves (`aliveCheck_classified`). -/
theorem checkValuesAndAliveCounters : Obligations.CheckValuesAndAliveCounters := by
  intro s u k d size hi v hu hgate
  refine ⟨cvStart_loads hu hgate, fun hwidth => cvData_feeds hu hgate hwidth v,
    fun hwidth => cvStateWrite_replaces hu hgate hwidth v, ?expected, ?last, ?skipped, ?stale, exec_aliveSet hu hgate v,
    exec_cvStart hu hgate, fun hsize => exec_cvData hu hgate hsize v, exec_cvStateWrite hu hgate hi v,
    exec_aliveCheck hu hgate v, aliveCheck_mem s u k d⟩
  case expected =>
    intro n c hk _ hn hvalid hlast hv
    exact aliveCheck_classified hu hgate hk (aliveWidth_lt hn _) hv (aliveClassify_expected _ _ hvalid hlast)
      (by rw [aliveResult, Nat.mul_comm])
  case last =>
    intro n c hk hpos hn hvalid hlast hv
    have hx : c.last < 65536 := hlast.trans_le (Nat.pow_le_pow_right (by decide) hn)
    exact aliveCheck_classified hu hgate hk hx hv (aliveClassify_last _ _ hvalid hlast (by omega))
      (by rw [aliveResult, Nat.mul_comm])
  case skipped =>
    intro n c hk _ hn hvalid hlast hpos hskip hd hsmall hv
    exact aliveCheck_classified hu hgate hk (aliveWidth_lt hn _) hv (aliveClassify_skipped _ _ hvalid hlast hd hpos hskip)
      (by rw [aliveResult, if_pos hsmall, Nat.mul_comm d, Nat.mul_comm k])
  case stale =>
    intro n c hk _ hn hvalid hlast hskip hd hpos hresync hv
    have hcls := aliveClassify_stale (s.get (R.cvAccfgMaxskip u)) hvalid hlast hd hpos hskip
    rw [← hresync] at hcls
    exact aliveCheck_classified hu hgate hk (aliveWidth_lt hn _) hv hcls (by rw [aliveResult, Nat.mul_comm])

end Sys2Proof.Machine

/-! A step by what waits in the queue (14_object_dictionary.md R331). -/
namespace Sys2Proof.Machine

theorem step_cons {s : State} {c : Instr} {rest : List Instr} (h : s.pending = c :: rest) :
    step s = exec c { s with pending := rest } := by
  rw [step, h]

theorem step_nil {s : State} (h : s.pending = []) : step s = .next s.idle := by
  rw [step, h]

theorem idle_of_nothing_new {s : State} (h : stopCauses s = 0 ∨ s.get R.siStopState = 1) : s.idle = s :=
  if_neg fun ⟨hcause, hfree⟩ => h.elim hcause hfree

theorem idle_of_new_cause {s : State} (hcause : stopCauses s ≠ 0) (hfree : s.get R.siStopState ≠ 1) :
    s.idle = stopEvaluate s := if_pos ⟨hcause, hfree⟩

/-- Settles O1: a step by the two forms of the queue, the idle module by whether a cause is new. -/
theorem frontCommandRuns : Obligations.FrontCommandRuns :=
  ⟨fun _ _ _ => step_cons rfl,
   fun _ hempty hquiet => by rw [step_nil hempty, idle_of_nothing_new hquiet],
   fun _ hempty hcause hfree => by rw [step_nil hempty, idle_of_new_cause hcause hfree]⟩

end Sys2Proof.Machine


/-! What keeps the queue of waiting commands: every function of the model that takes a state and gives one, in the model's
order, and then every command (14_object_dictionary.md R331). `f_pending` says that f leaves `pending` as it is, `f_queueKept`
that the outcome f does. The simp laws of the state are said once more here as steps of their own (`queue_eq`): a rewrite by
them then costs the kernel no comparison of two states. -/
namespace Sys2Proof.Machine
open State

/-- An equation of two queues that holds by unfolding, as a step of its own. Where simp takes such equations for definitional,
the kernel compares the states and not their queues. -/
theorem queue_eq {s t : State} (h : t.pending = s.pending) : t.pending = s.pending := h

theorem ite_pending (c : Prop) [Decidable c] (a b : State) :
    (if c then a else b).pending = if c then a.pending else b.pending := apply_ite State.pending c a b

theorem ite_fst {α β : Type} (c : Prop) [Decidable c] (a b : α × β) :
    (if c then a else b).1 = if c then a.1 else b.1 := apply_ite Prod.fst c a b

theorem ite_snd {α β : Type} (c : Prop) [Decidable c] (a b : α × β) :
    (if c then a else b).2 = if c then a.2 else b.2 := apply_ite Prod.snd c a b

/-- A fold of updates of which each keeps the queue keeps it. -/
theorem foldl_pending {α : Type} {f : State → α → State} (h : ∀ u x, (f u x).pending = u.pending) (l : List α) (s : State) :
    (l.foldl f s).pending = s.pending := foldl_keeps (·.pending) l s fun x _ u => h u x

/-- Likewise where the fold carries something beside the state. -/
theorem foldl_fst_pending {α β : Type} {f : State × β → α → State × β} (h : ∀ u x, (f u x).1.pending = u.1.pending)
    (l : List α) (u : State × β) : (l.foldl f u).1.pending = u.1.pending := by
  induction l generalizing u with
  | nil => rfl
  | cons x l ih => exact (ih (f u x)).trans (h u x)

theorem foldl_snd_pending {α β : Type} {f : β × State → α → β × State} (h : ∀ u x, (f u x).2.pending = u.2.pending)
    (l : List α) (u : β × State) : (l.foldl f u).2.pending = u.2.pending := by
  induction l generalizing u with
  | nil => rfl
  | cons x l ih => exact (ih (f u x)).trans (h u x)

/-- Whatever state a command leads to, its queue is q. -/
def QueueKept (q : List Instr) : Res → Prop
  | .next t => t.pending = q
  | _ => True

theorem queueKept_next {q : List Instr} {t : State} : QueueKept q (.next t) ↔ t.pending = q := Iff.rfl

theorem queueKept_ite (q : List Instr) (c : Prop) [Decidable c] (a b : Res) :
    QueueKept q (if c then a else b) = if c then QueueKept q a else QueueKept q b := apply_ite (QueueKept q) c a b

namespace State
theorem wr_pending' (s : State) (a : Nat) (v : Word) : (s.wr a v).pending = s.pending := queue_eq rfl
theorem set_pending' (s : State) (f : Fld) (v : Nat) : (s.set f v).pending = s.pending := queue_eq rfl
theorem put_pending' (s : State) (f : Fld) (b : Bool) : (s.put f b).pending = s.pending := queue_eq rfl
theorem count_pending' (s : State) (a n : Nat) : (s.count a n).pending = s.pending := queue_eq rfl
theorem wr64_pending' (s : State) (a v : Nat) : (s.wr64 a v).pending = s.pending := queue_eq rfl
theorem emit_pending' (s : State) (o : Out) : (s.emit o).pending = s.pending := queue_eq rfl
theorem fresh_pending' (s : State) : (s.fresh).pending = s.pending := queue_eq rfl
theorem setObj_pending' (s : State) (i j : Nat) (v : ObjVal) : (s.setObj i j v).pending = s.pending := queue_eq rfl
theorem setObjN_pending' (s : State) (i j n : Nat) : (s.setObjN i j n).pending = s.pending := queue_eq rfl
theorem mwr_pending' (s : State) (a : Nat) (l : List Byte) : (s.mwr a l).pending = s.pending := queue_eq rfl
theorem setDie_pending' (s : State) (d : Nat) (x : Die) : (s.setDie d x).pending = s.pending := queue_eq rfl
theorem setSdC_pending' (s : State) (n : Nat) (x : SdChan) : (s.setSdC n x).pending = s.pending := queue_eq rfl
theorem setSdB_pending' (s : State) (n : Nat) (x : SdBank) : (s.setSdB n x).pending = s.pending := queue_eq rfl
theorem setLsC_pending' (s : State) (n : Nat) (x : LsChan) : (s.setLsC n x).pending = s.pending := queue_eq rfl
theorem setLsG_pending' (s : State) (n : Nat) (x : LsGroup) : (s.setLsG n x).pending = s.pending := queue_eq rfl
theorem setLoop_pending' (s : State) (n : Nat) (x : LoopSt) : (s.setLoop n x).pending = s.pending := queue_eq rfl
theorem tell_pending' (s : State) (d : Nat) (l : List Report) : (s.tell d l).pending = s.pending := queue_eq rfl
theorem post_pending' (s : State) (p : Post) : (s.post p).pending = s.pending := queue_eq rfl
theorem gateWait_pending' (s : State) (e : GatedWrite) : (s.gateWait e).pending = s.pending := queue_eq rfl
theorem pwrBit_pending' (s : State) (k : Nat) (b : Bool) : (s.pwrBit k b).pending = s.pending := queue_eq rfl
end State

/-! Machine/Ops.lean -/

theorem State.countSat_pending (s : State) (f : Fld) : (s.countSat f).pending = s.pending := by
  simp only [countSat, ite_pending, ite_self, set_pending']

theorem State.clearAll_pending (s : State) (l : List Nat) : (s.clearAll l).pending = s.pending := by
  simp only [clearAll, foldl_pending, implies_true, wr_pending']

theorem State.busError_pending (s : State) (who addr : Nat) : (s.busError who addr).pending = s.pending := by
  simp only [busError, ite_pending, ite_self, log_pending]

theorem State.resetDue_pending (s : State) (k : Nat) : (s.resetDue k).pending = s.pending := by
  simp only [resetDue, ite_pending, ite_self]

theorem State.drawBytes_pending (s : State) (n : Nat) : (s.drawBytes n).2.pending = s.pending := by
  simp only [drawBytes, fresh_pending']

theorem gated_queueKept {q : List Instr} {s : State} {k : Nat} {r : Res} :
    QueueKept q (gated s k r) ↔ if s.gateOn k then QueueKept q r else s.pending = q := by
  rw [gated, queueKept_ite, queueKept_next]

theorem whenServing_queueKept {q : List Instr} {s : State} {r : Res} :
    QueueKept q (whenServing s r) ↔ if s.serving then QueueKept q r else s.pending = q := by
  rw [whenServing, queueKept_ite, queueKept_next]

theorem whenApp_queueKept {q : List Instr} {s : State} {r : Res} :
    QueueKept q (whenApp s r) ↔ if s.appServing then QueueKept q r else s.pending = q := by
  rw [whenApp, queueKept_ite, queueKept_next]

theorem whenRt_queueKept {q : List Instr} {k : Nat} {s : State} {r : Res} :
    QueueKept q (whenRt k s r) ↔ if s.serving && s.rtRuns k then QueueKept q r else s.pending = q := by
  rw [whenRt, queueKept_ite, queueKept_next]

/-! Machine/MemMap.lean -/

theorem pageRetire_pending (s : State) (page : Nat) : (pageRetire s page).pending = s.pending := by
  simp only [pageRetire, ite_pending, ite_self, fire_pending, log_pending]

theorem dramUncorrectable_pending (s : State) (a : Nat) (scrubber : Bool) :
    (dramUncorrectable s a scrubber).pending = s.pending := by
  simp only [dramUncorrectable, ite_pending, ite_self, fire_pending, pageRetire_pending, wr64_pending', log_pending,
    count_pending']

theorem dramCorrected_pending (s : State) (a : Nat) : (dramCorrected s a).pending = s.pending := by
  simp only [dramCorrected, ite_pending, ite_self, pageRetire_pending, count_pending']

theorem busWrite_pending (s : State) (a : Nat) (l : List Byte) : (busWrite s a l).pending = s.pending := by
  simp only [busWrite, mwr_pending']

theorem engineError_pending (s : State) (engine a : Nat) : (engineError s engine a).pending = s.pending := by
  simp only [engineError, busError_pending]

theorem busRead_pending (s : State) (engine a n : Nat) : (busRead s engine a n).2.pending = s.pending := by
  simp only [busRead, ite_pending, ite_snd, ite_self, engineError_pending, dramUncorrectable_pending]

theorem busStore_pending (s : State) (engine a : Nat) (l : List Byte) :
    (busStore s engine a l).2.pending = s.pending := by
  simp only [busStore, ite_pending, ite_snd, ite_self, busWrite_pending, engineError_pending]

theorem readDescriptor_pending (s : State) (engine a : Nat) : (readDescriptor s engine a).2.pending = s.pending := by
  simp only [readDescriptor, ite_snd, ite_self, busRead_pending]

/-! Machine/Flue.lean -/

theorem State.setFab_pending (s : State) (f : Fabric) : (s.setFab f).pending = s.pending := queue_eq rfl

theorem State.setNode_pending (s : State) (id : Nat) (n : Node) : (s.setNode id n).pending = s.pending := by
  simp only [setNode, setFab_pending]

theorem flueLeave_pending (s : State) (f : FlueFrame) (ports : List Nat) :
    (flueLeave f ports s).pending = s.pending := by
  simp only [flueLeave, ite_pending, ite_self, foldl_pending, implies_true, count_pending', emit_pending']

theorem flueEmit_pending (s : State) (w : FlueWay) (cls kind dst flags epoch : Nat) (payload : List Byte) :
    (flueEmit s w cls kind dst flags epoch payload).pending = s.pending := by
  simp only [flueEmit, ite_pending, ite_self, flueLeave_pending, setFab_pending]

theorem flueSend_pending (s : State) (cls kind dst flags : Nat) (payload : List Byte) :
    (flueSend s cls kind dst flags payload).pending = s.pending := by
  simp only [flueSend, flueEmit_pending]

theorem flueSendOn_pending (s : State) (p cls kind dst flags : Nat) (payload : List Byte) :
    (flueSendOn s p cls kind dst flags payload).pending = s.pending := by
  simp only [flueSendOn, flueEmit_pending]

theorem flueAskBy_pending (s : State) (w : FlueWay) (cls kind dst : Nat) (hop : Option (Nat × Nat))
    (payload : List Byte) :
    (flueAskBy s w cls kind dst hop payload).pending = s.pending := by
  simp only [flueAskBy, setFab_pending, flueEmit_pending]

theorem flueAsk_pending (s : State) (cls kind dst : Nat) (payload : List Byte) :
    (flueAsk s cls kind dst payload).pending = s.pending := by
  simp only [flueAsk, flueAskBy_pending]

theorem epochrstSend_pending (s : State) (w : FlueWay) (dst e : Nat) :
    (epochrstSend s w dst e).pending = s.pending := by
  simp only [epochrstSend, flueEmit_pending]

theorem globalAddress_pending (s : State) (l : List Byte) : (globalAddress s l).pending = s.pending := by
  unfold globalAddress
  (repeat' split) <;> simp only [setFab_pending]

theorem otherForward_pending (s : State) (p : Nat) (f : OtherFrame) (fcsOk : Bool) :
    (otherForward s p f fcsOk).pending = s.pending := by
  unfold otherForward
  split <;> simp only [ite_pending, ite_self, foldl_pending, implies_true, setFab_pending, globalAddress_pending,
    count_pending', emit_pending']

/-! Machine/Delivery.lean -/

theorem State.setRing_pending (s : State) (k : Nat) (r : Ring) : (s.setRing k r).pending = s.pending := queue_eq rfl

theorem ringWrite_pending (s : State) (k stream : Nat) (ts : Time) (v : F32) (rec : List Byte) :
    (ringWrite s k stream ts v rec).pending = s.pending := by
  simp only [ringWrite, ite_pending, ite_self, setRing_pending, busStore_pending]

theorem publish_pending (s : State) (k : Nat) (ts : Time) (v : F32) (rec : List Byte) :
    (publish s k ts v rec).pending = s.pending := by
  simp only [publish, ite_pending, ite_self, flueSend_pending]

theorem loopDeliver_pending (s : State) (c : Nat) (smp : Sample) : (loopDeliver s c smp).pending = s.pending :=
  queue_eq rfl

theorem deliverTo_pending (s : State) (c stream : Nat) (smp : Sample) :
    (deliverTo s c stream smp).pending = s.pending := by
  simp only [deliverTo, ite_pending, ite_self, loopDeliver_pending, publish_pending, ringWrite_pending]

theorem deliverBy_pending (s : State) (c : TrellisCopy) (stream : Nat) (ts : Time) (v : F32) (fault : Bool)
    (rec : List Byte) :
    (deliverBy s c stream ts v fault rec).pending = s.pending := by
  simp only [deliverBy, ite_pending, ite_self, deliverTo_pending]

theorem deliver_pending (s : State) (stream : Nat) (ts : Time) (v : F32) (fault : Bool) (rec : List Byte) :
    (deliver s stream ts v fault rec).pending = s.pending := by
  simp only [deliver, foldl_pending, implies_true, deliverBy_pending, emit_pending']

theorem produce_pending (s : State) (stream : Nat) (ts : Time) (v : F32) :
    (produce s stream ts v).pending = s.pending := by
  simp only [produce, deliver_pending]

/-! Machine/RegWrite.lean -/

theorem plainWrite_pending (s : State) (a : Nat) (v : Word) : (plainWrite s a v).pending = s.pending := by
  unfold plainWrite
  split <;> simp only [wr_pending']

theorem gatedWrite_queueKept {q : List Instr} {s now : State} {k : Nat} {e : GatedWrite} :
    QueueKept q (gatedWrite s k e now) ↔ if s.gateOn k then now.pending = q else s.pending = q := by
  simp only [gatedWrite, queueKept_ite, queueKept_next, gateWait_pending', ite_self]

theorem gatedField_queueKept {q : List Instr} {s now : State} {k v : Nat} {f : Fld} :
    QueueKept q (gatedField s k f v now) ↔ if s.gateOn k then now.pending = q else s.pending = q :=
  gatedWrite_queueKept

/-! Machine/Camera.lean -/

theorem State.setCamPort_pending (s : State) (c : Nat) (x : CamPort) : (s.setCamPort c x).pending = s.pending :=
  queue_eq rfl

theorem withFrame_pending (s : State) (c num : Nat) (f : CamFrame → CamFrame) :
    (withFrame s c num f).pending = s.pending := by
  simp only [withFrame, setCamPort_pending]

theorem forget_pending (s : State) (c num : Nat) : (forget s c num).pending = s.pending := by
  simp only [forget, setCamPort_pending]

theorem frameDrop_pending (s : State) (c num cause : Nat) : (frameDrop s c num cause).pending = s.pending := by
  simp only [frameDrop, fire_pending, forget_pending, log_pending, count_pending']

theorem camStore_pending (s : State) (a : Nat) (l : List Byte) : (camStore s a l).pending = s.pending := by
  simp only [camStore, ite_pending, ite_self, engineError_pending, busStore_pending]

theorem ringComplete_pending (s : State) (c a : Nat) (fr : CamFrame) (d : Developed) (i : Nat) :
    (ringComplete s c a fr d i).pending = s.pending := by
  simp only [ringComplete, fire_pending, camStore_pending, produce_pending, setCamPort_pending, set_pending']

theorem statsRecord_pending (s : State) (c : Nat) (fr : CamFrame) (p : List Byte) (t2 : Image) :
    (statsRecord s c fr p t2).pending = s.pending := by
  simp only [statsRecord, fire_pending, camStore_pending, produce_pending, set_pending']

theorem featureRecord_pending (s : State) (c kind : Nat) (fr : CamFrame) (img : Image) :
    (featureRecord s c kind fr img).2.pending = s.pending := by
  unfold featureRecord
  split <;> simp only [ite_snd, ite_self, fresh_pending']

theorem featurePublish_pending (s : State) (c : Nat) (fr : CamFrame) (img : Image) :
    (featurePublish s c fr img).pending = s.pending := by
  simp only [featurePublish, ite_pending, ite_self, setCamPort_pending, featureRecord_pending, deliver_pending]

theorem finishFrame_pending (s : State) (c : Nat) (behind : List Nat) (fr : CamFrame) :
    (finishFrame s c behind fr).pending = s.pending := by
  simp only [finishFrame, forget_pending, featurePublish_pending, statsRecord_pending]
  refine foldl_pending (fun u x => ?_) _ _
  (repeat' split) <;> simp only [countSat_pending, ringComplete_pending]

theorem frameEnd_pending (s : State) (c : Nat) (behind : List Nat) : (frameEnd s c behind).pending = s.pending := by
  unfold frameEnd
  split <;> simp only [finishFrame_pending]

theorem ringsEnable_pending (s : State) (c : Nat) : (ringsEnable s c).pending = s.pending := by
  simp only [ringsEnable, foldl_pending, implies_true, setCamPort_pending]

theorem ringTake_pending (s : State) (c a num : Nat) : (ringTake s c a num).pending = s.pending := by
  unfold ringTake
  split <;> simp only [ite_pending, ite_self, countSat_pending, withFrame_pending, log_pending]

theorem ringsTake_pending (s : State) (c num : Nat) : (ringsTake s c num).pending = s.pending := by
  simp only [ringsTake, foldl_pending, implies_true, ringTake_pending]

theorem frameCheck_pending (s : State) (c num : Nat) : (frameCheck s c num).pending = s.pending := by
  simp only [frameCheck]
  split <;> simp only [ite_pending, ite_self, ringsTake_pending, frameDrop_pending]

theorem startLatch_pending (s : State) (c : Nat) : (startLatch s c).pending = s.pending := by
  simp only [startLatch]
  split <;> simp only [setCamPort_pending, set_pending']

theorem frameAccept_pending (s : State) (c num : Nat) (ts : Time) : (frameAccept s c num ts).pending = s.pending := by
  simp only [frameAccept, frameCheck_pending, setCamPort_pending, ringsEnable_pending, count_pending']

theorem frameStart_pending (s : State) (c num : Nat) (ts : Time) : (frameStart s c num ts).pending = s.pending := by
  simp only [frameStart, ite_pending, ite_self, fire_pending, frameAccept_pending, forget_pending, setCamPort_pending,
    startLatch_pending, frameDrop_pending, count_pending']

theorem clearChannel_pending (s : State) (c i num : Nat) : (clearChannel s c i num).pending = s.pending := by
  simp only [clearChannel, ite_pending, ite_self, foldl_pending, implies_true, finishFrame_pending, forget_pending,
    frameDrop_pending]

theorem cameraFrameStart_pending (s : State) (c i num : Nat) : (cameraFrameStart s c i num).pending = s.pending := by
  simp only [cameraFrameStart, ite_pending, ite_self, frameCheck_pending, setCamPort_pending, clearChannel_pending,
    withFrame_pending, frameStart_pending]

theorem execCamFrameStart_queueKept (s : State) (c number : Nat) :
    QueueKept s.pending (execCamFrameStart c number s) := by
  simp only [execCamFrameStart, queueKept_ite, ite_self, queueKept_next, cameraFrameStart_pending, gated_queueKept]

theorem withExp_pending (s : State) (c num i : Nat) (f : CamExp → CamExp) :
    (withExp s c num i f).pending = s.pending := by
  simp only [withExp, withFrame_pending]

theorem lineAccept_pending (s : State) (c num i : Nat) (codes : List Nat) :
    (lineAccept s c num i codes).pending = s.pending := by
  simp only [lineAccept, withExp_pending, frameCheck_pending]

theorem exposureEnd_pending (s : State) (c num i : Nat) : (exposureEnd s c num i).pending = s.pending := by
  simp only [exposureEnd, withExp_pending, frameCheck_pending]

theorem packetError_pending (s : State) (c : Nat) : (packetError s c).pending = s.pending := by
  simp only [packetError, ite_pending, ite_self, setCamPort_pending, log_pending, count_pending']

theorem lineLost_pending (s : State) (c i : Nat) : (lineLost s c i).pending = s.pending := by
  unfold lineLost
  split <;> simp only [withExp_pending, packetError_pending]

theorem packet_pending (s : State) (c vc dt : Nat) (crcOk : Bool) (num : Nat) (codes : List Nat) :
    (packet s c vc dt crcOk num codes).pending = s.pending := by
  unfold packet
  (repeat' split) <;> simp only [exposureEnd_pending, cameraFrameStart_pending, lineLost_pending, packetError_pending,
    lineAccept_pending]

theorem execCsiPacket_queueKept (s : State) (c vc dt headerBits : Nat) (crcOk : Bool) (number : Nat)
    (codes : List Nat) :
    QueueKept s.pending (execCsiPacket c vc dt headerBits crcOk number codes s) := by
  simp only [execCsiPacket, queueKept_ite, ite_self, queueKept_next, packet_pending, gated_queueKept,
    packetError_pending]

theorem execMergeTimeout_queueKept (s : State) (c : Nat) : QueueKept s.pending (execMergeTimeout c s) := by
  simp only [execMergeTimeout, gated_queueKept]
  (repeat' split) <;> simp only [queueKept_next, frameDrop_pending, passTo_pending]

theorem execCamFrameEnd_queueKept (s : State) (c : Nat) (behind : List Nat) :
    QueueKept s.pending (execCamFrameEnd c behind s) := by
  simp only [execCamFrameEnd, queueKept_ite, ite_self, queueKept_next, frameEnd_pending, gated_queueKept]

theorem tapAck_pending (s : State) (c a index : Nat) : (tapAck s c a index).pending = s.pending := by
  simp only [tapAck, set_pending']

theorem execTapAck_queueKept (s : State) (c a index : Nat) : QueueKept s.pending (execTapAck c a index s) := by
  simp only [execTapAck, queueKept_ite, ite_self, queueKept_next, gatedWrite_queueKept, tapAck_pending]

theorem execCamFeedFault_queueKept (s : State) (c milliamp : Nat) :
    QueueKept s.pending (execCamFeedFault c milliamp s) := by
  simp only [execCamFeedFault, queueKept_ite, ite_self, queueKept_next, fire_pending, set_pending', log_pending]

theorem feedSwitch_pending (s : State) (c : Nat) (on : Bool) : (feedSwitch s c on).pending = s.pending := by
  simp only [feedSwitch, ite_pending, ite_self, set_pending', put_pending']

theorem execCamFeedSwitch_queueKept (s : State) (c : Nat) (on : Bool) :
    QueueKept s.pending (execCamFeedSwitch c on s) := by
  simp only [execCamFeedSwitch, queueKept_ite, ite_self, queueKept_next, feedSwitch_pending]

theorem linkLoss_pending (s : State) (c : Nat) : (linkLoss s c).pending = s.pending := by
  simp only [linkLoss, ite_pending, ite_self, foldl_pending, implies_true, fire_pending, setCamPort_pending,
    set_pending', log_pending, frameDrop_pending]

theorem execCamLinkLoss_queueKept (s : State) (c : Nat) : QueueKept s.pending (execCamLinkLoss c s) := by
  simp only [execCamLinkLoss, queueKept_ite, ite_self, queueKept_next, gated_queueKept, linkLoss_pending]

theorem execCamLinkRegain_queueKept (s : State) (c : Nat) : QueueKept s.pending (execCamLinkRegain c s) := by
  simp only [execCamLinkRegain, queueKept_ite, queueKept_next, gated_queueKept]
  (repeat' split) <;> simp only [queueKept_next, fire_pending, setCamPort_pending, set_pending', log_pending]

theorem execFrameSyncEdge_queueKept (s : State) (c : Nat) : QueueKept s.pending (execFrameSyncEdge c s) := by
  simp only [execFrameSyncEdge, queueKept_ite, ite_self, queueKept_next, devTo_pending, setCamPort_pending,
    gated_queueKept, emit_pending']

theorem i2cWrite_pending (s : State) (c : Nat) (v : Word) : (i2cWrite s c v).pending = s.pending := by
  simp only [i2cWrite, ite_pending, ite_self, setCamPort_pending, set_pending', plainWrite_pending, emit_pending']

theorem execI2cTransferStart_queueKept (s : State) (c : Nat) (value : Word) :
    QueueKept s.pending (execI2cTransferStart c value s) := by
  simp only [execI2cTransferStart, queueKept_ite, ite_self, queueKept_next, i2cWrite_pending, gatedWrite_queueKept]

theorem execI2cTransferEnd_queueKept (s : State) (c : Nat) (ack : Bool) (data : Nat) :
    QueueKept s.pending (execI2cTransferEnd c ack data s) := by
  simp only [execI2cTransferEnd, queueKept_ite, ite_self, queueKept_next, set_pending', gated_queueKept]

theorem camApply_pending (s : State) (c : Nat) : (camApply s c).pending = s.pending := by
  simp only [camApply, setCamPort_pending, set_pending']

theorem execCamApply_queueKept (s : State) (c : Nat) : QueueKept s.pending (execCamApply c s) := by
  simp only [execCamApply, queueKept_ite, ite_self, queueKept_next, camApply_pending, gatedField_queueKept]

theorem paramCopyEnd_pending (s : State) (c : Nat) : (paramCopyEnd s c).pending = s.pending := by
  simp only [paramCopyEnd, ite_pending, ite_fst, ite_snd, ite_self, engineError_pending, setCamPort_pending,
    set_pending', busRead_pending]

theorem execCamParameterCopyEnd_queueKept (s : State) (c : Nat) :
    QueueKept s.pending (execCamParameterCopyEnd c s) := by
  simp only [execCamParameterCopyEnd, queueKept_ite, ite_self, queueKept_next, paramCopyEnd_pending, gated_queueKept]

theorem budgetRefresh_pending (s : State) : (budgetRefresh s).pending = s.pending := by
  simp only [budgetRefresh, set_pending']

theorem camEnable_pending (s : State) (c : Nat) : (camEnable s c).1.pending = s.pending := by
  simp only [camEnable, ite_pending, ite_fst, ite_self, setCamPort_pending, set_pending', log_pending,
    budgetRefresh_pending]

theorem execCamEnable_queueKept (s : State) (c : Nat) : QueueKept s.pending (execCamEnable c s) := by
  simp only [execCamEnable, queueKept_ite, ite_self, queueKept_next, camEnable_pending, gatedField_queueKept]

theorem camDisable_pending (s : State) (c : Nat) : (camDisable s c).pending = s.pending := by
  simp only [camDisable, setCamPort_pending, set_pending', budgetRefresh_pending]

theorem camPctrlWrite_pending (s : State) (c : Nat) (v : Word) : (camPctrlWrite s c v).1.pending = s.pending := by
  simp only [camPctrlWrite, ite_pending, ite_fst, ite_self, camApply_pending, camEnable_pending, wr_pending',
    feedSwitch_pending, set_pending', clearAll_pending, camDisable_pending]

theorem camConfigWrite_pending (s : State) (c a : Nat) (v : Word) :
    (camConfigWrite s c a v).1.pending = s.pending := by
  simp only [camConfigWrite, ite_pending, ite_fst, ite_self, set_pending', plainWrite_pending]

theorem ringEnable_pending (s : State) (c a : Nat) : (ringEnable s c a).1.pending = s.pending := by
  simp only [ringEnable, ite_pending, ite_fst, ite_self, wr_pending', setCamPort_pending, set_pending']

theorem camTcfgWrite_pending (s : State) (c a : Nat) (v : Word) : (camTcfgWrite s c a v).1.pending = s.pending := by
  simp only [camTcfgWrite, ite_pending, ite_fst, ite_self, wr_pending', set_pending', ringEnable_pending]

theorem camDamper_pending (s : State) (on : Bool) : (camDamper s on).pending = s.pending := by
  simp only [camDamper, ite_pending, ite_self, foldl_pending, implies_true, setCamPort_pending, log_pending,
    put_pending']

theorem replayFrame_pending (s : State) (c : Nat) : (replayFrame s c).pending = s.pending := by
  unfold replayFrame
  simp only [ite_pending, ite_fst, ite_snd, ite_self, ringsTake_pending, engineError_pending, setCamPort_pending,
    clearChannel_pending, withFrame_pending, busRead_pending, frameStart_pending, passTo_pending]

theorem execReplayFrame_queueKept (s : State) (c : Nat) : QueueKept s.pending (execReplayFrame c s) := by
  simp only [execReplayFrame, queueKept_ite, ite_self, queueKept_next, replayFrame_pending, gated_queueKept]

/-! Machine/CheckUnit.lean -/

theorem cvShow_pending (s : State) (u : Nat) : (cvShow s u).pending = s.pending := by
  simp only [cvShow, wr64_pending']

theorem cvTake_pending (s : State) (u v : Nat) : (cvTake s u v).pending = s.pending := by
  simp only [cvTake, ite_pending, ite_self, fresh_pending', wr64_pending', cvShow_pending]

theorem cvStart_pending (s : State) (u : Nat) : (cvStart s u).pending = s.pending := by
  simp only [cvStart, wr_pending', cvTake_pending]

theorem cvFeed_pending (s : State) (u : Nat) (l : List Byte) : (cvFeed s u l).pending = s.pending := by
  simp only [cvFeed, cvTake_pending, count_pending']

theorem cvStateWrite_pending (s : State) (u : Nat) (hi : Bool) (v : Word) :
    (cvStateWrite s u hi v).pending = s.pending := by
  simp only [cvStateWrite, ite_pending, ite_self, wr64_pending', cvShow_pending, wr_pending']

theorem State.setAliveCtx_pending (s : State) (u k : Nat) (c : AliveCtx) :
    (s.setAliveCtx u k c).pending = s.pending :=
  queue_eq rfl

theorem aliveResult_pending (s : State) (cls : AliveClass) (k : Nat) :
    (aliveResult s cls k).2.pending = s.pending := by
  unfold aliveResult
  split <;> simp only [ite_pending, ite_snd, ite_self, fresh_pending']

theorem aliveCheck_pending (s : State) (u k v : Nat) : (aliveCheck s u k v).2.pending = s.pending := by
  simp only [aliveCheck, ite_pending, ite_self, wr_pending', setAliveCtx_pending, log_pending, count_pending',
    aliveResult_pending]

theorem aliveSet_pending (s : State) (u : Nat) (v : Word) : (aliveSet s u v).pending = s.pending := by
  simp only [aliveSet, setAliveCtx_pending]

theorem peerContext_pending (s : State) (peer : Nat) (work : Nat → Bool) :
    (peerContext s peer work).2.pending = s.pending := by
  unfold peerContext
  (repeat' split) <;> simp only [log_pending, aliveSet_pending]

theorem execCvStart_queueKept (s : State) (u : Nat) : QueueKept s.pending (execCvStart u s) := by
  simp only [execCvStart, queueKept_ite, ite_self, queueKept_next, cvStart_pending, gatedWrite_queueKept]

theorem execCvData_queueKept (s : State) (u size : Nat) (value : Word) :
    QueueKept s.pending (execCvData u size value s) := by
  simp only [execCvData, queueKept_ite, ite_self, queueKept_next, gatedWrite_queueKept, cvFeed_pending]

theorem execCvStateWrite_queueKept (s : State) (u : Nat) (hi : Bool) (value : Word) :
    QueueKept s.pending (execCvStateWrite u hi value s) := by
  simp only [execCvStateWrite, queueKept_ite, ite_self, queueKept_next, gatedWrite_queueKept, cvStateWrite_pending]

theorem execAliveCheck_queueKept (s : State) (u : Nat) (value : Word) :
    QueueKept s.pending (execAliveCheck u value s) := by
  simp only [execAliveCheck, queueKept_ite, ite_self, queueKept_next, aliveCheck_pending, gatedWrite_queueKept]

theorem execAliveSet_queueKept (s : State) (u : Nat) (value : Word) :
    QueueKept s.pending (execAliveSet u value s) := by
  simp only [execAliveSet, queueKept_ite, ite_self, queueKept_next, gatedWrite_queueKept, aliveSet_pending]

/-! Machine/Can.lean -/

theorem State.setCan_pending (s : State) (c : Nat) (x : CanCh) : (s.setCan c x).pending = s.pending := queue_eq rfl

theorem watShow_pending (s : State) (c : Nat) : (watShow s c).pending = s.pending := by
  simp only [watShow, set_pending']

theorem timingLoad_pending (s : State) (c : Nat) (l : List Word) : (timingLoad s c l).pending = s.pending := by
  simp only [timingLoad, wr_pending', watShow_pending]

theorem timingDerive_pending (s : State) (c : Nat) : (timingDerive s c).pending = s.pending := by
  unfold timingDerive
  split <;> simp only [timingLoad_pending]

theorem canOffer_pending (s : State) (c : Nat) : (canOffer s c).pending = s.pending := by
  unfold canOffer
  (repeat' split) <;> simp only [set_pending']

theorem txPend_pending (s : State) (c b : Nat) (on : Bool) : (txPend s c b on).pending = s.pending := by
  simp only [txPend, put_pending']

theorem txEnd_pending (s : State) (c b st : Nat) : (txEnd s c b st).pending = s.pending := by
  simp only [txEnd, ite_pending, ite_self, fire_pending, setCan_pending, set_pending', txPend_pending]

theorem txSubmit_pending (s : State) (c b : Nat) (f : CanFrame) : (txSubmit s c b f).pending = s.pending := by
  simp only [txSubmit, ite_pending, ite_self, setCan_pending, txEnd_pending, wr_pending', set_pending',
    canOffer_pending, txPend_pending]

theorem canPump_pending (s : State) (c : Nat) : (canPump s c).pending = s.pending := by
  simp only [canPump]
  (repeat' split) <;> simp only [setCan_pending, txSubmit_pending]

theorem frameAt_pending (s : State) (a : Nat) : (frameAt s a).2.pending = s.pending := by
  simp only [frameAt, busRead_pending]

theorem txRequest_pending (s : State) (c b : Nat) : (txRequest s c b).pending = s.pending := by
  simp only [txRequest, ite_pending, ite_self, frameAt_pending, txSubmit_pending]

theorem txAbort_pending (s : State) (c b : Nat) : (txAbort s c b).pending = s.pending := by
  unfold txAbort
  split <;> simp only [setCan_pending, txEnd_pending, canOffer_pending, canPump_pending]

theorem dictWithdraw_pending (s : State) (c tag : Nat) : (dictWithdraw s c tag).pending = s.pending := by
  simp only [dictWithdraw, ite_pending, ite_self, setCan_pending, txAbort_pending]

theorem queueDrop_pending (s : State) (c q : Nat) : (queueDrop s c q).pending = s.pending := by
  simp only [queueDrop, ite_pending, ite_self, fire_pending, setCan_pending, log_pending, count_pending']

theorem queueFrame_pending (s : State) (c q filter : Nat) (ts : Time) (x : CanFrame) :
    (queueFrame s c q filter ts x).pending = s.pending := by
  simp only [queueFrame, ite_pending, ite_self, fire_pending, queueDrop_pending, set_pending', busStore_pending]

theorem canDeliver_pending (s : State) (c : Nat) (ts : Time) (x : CanFrame) :
    (canDeliver s c ts x).pending = s.pending := by
  simp only [canDeliver]
  split <;> simp only [queueFrame_pending]

theorem queueAck_pending (s : State) (c q i : Nat) : (queueAck s c q i).pending = s.pending := by
  simp only [queueAck, ite_pending, ite_self, set_pending']

theorem errorCounts_pending (s : State) (c tec rcnt : Nat) : (errorCounts s c tec rcnt).pending = s.pending := by
  simp only [errorCounts, ite_pending, ite_self, fire_pending, set_pending', log_pending, put_pending']

theorem recoverStart_pending (s : State) (c delayMs : Nat) : (recoverStart s c delayMs).pending = s.pending := by
  simp only [recoverStart, setCan_pending]

theorem busOff_pending (s : State) (c : Nat) : (busOff s c).pending = s.pending := by
  simp only [busOff, ite_pending, ite_self, foldl_pending, implies_true, fire_pending, recoverStart_pending,
    countSat_pending, txEnd_pending, set_pending', log_pending]

theorem canCounts_pending (s : State) (c tec rcnt : Nat) : (canCounts s c tec rcnt).pending = s.pending := by
  simp only [canCounts, ite_pending, ite_self, busOff_pending, errorCounts_pending]

theorem canError_pending (s : State) (c e : Nat) : (canError s c e).pending = s.pending := by
  unfold canError
  split <;> simp only [set_pending', count_pending']

theorem protocolException_pending (s : State) (c : Nat) : (protocolException s c).pending = s.pending := by
  simp only [protocolException, setCan_pending, log_pending]

theorem attemptFailed_pending (s : State) (c b : Nat) : (attemptFailed s c b).pending = s.pending := by
  simp only [attemptFailed, ite_pending, ite_self, txEnd_pending, set_pending', log_pending]

theorem attemptDone_pending (s : State) (c b : Nat) (ts : Time) : (attemptDone s c b ts).pending = s.pending := by
  simp only [attemptDone, ite_pending, ite_self, wr64_pending', txEnd_pending, canDeliver_pending, count_pending',
    emit_pending']

theorem dropMessage_pending (s : State) (c : Nat) : (dropMessage s c).pending = s.pending := by
  simp only [dropMessage, setCan_pending]

theorem txAttemptEnd_pending (s : State) (c outcome lec : Nat) (t : Time) (tec rcnt : Nat) :
    (txAttemptEnd s c outcome lec t tec rcnt).pending = s.pending := by
  unfold txAttemptEnd
  (repeat' split) <;> simp only [ite_pending, ite_self, setCan_pending, attemptDone_pending, attemptFailed_pending,
    txEnd_pending, set_pending', canCounts_pending, canError_pending, canOffer_pending, dropMessage_pending,
    count_pending', protocolException_pending, canPump_pending]

theorem sendClaim_pending (s : State) (c addr : Nat) : (sendClaim s c addr).pending = s.pending := by
  simp only [sendClaim, setCan_pending, canPump_pending]

theorem addressInvalid_pending (s : State) (c : Nat) : (addressInvalid s c).pending = s.pending := by
  simp only [addressInvalid, ite_pending, ite_self, foldl_pending, implies_true, txEnd_pending, put_pending']

theorem saWrite_pending (s : State) (c sa : Nat) (valid : Bool) : (saWrite s c sa valid).pending = s.pending := by
  simp only [saWrite, ite_pending, ite_self, addressInvalid_pending, set_pending', put_pending', canOffer_pending,
    canPump_pending]

theorem claimAddress_pending (s : State) (c addr : Nat) : (claimAddress s c addr).pending = s.pending := by
  simp only [claimAddress, setCan_pending, sendClaim_pending]

theorem cannotClaim_pending (s : State) (c : Nat) : (cannotClaim s c).pending = s.pending := by
  simp only [cannotClaim, setCan_pending, log_pending, sendClaim_pending]

theorem claimLost_pending (s : State) (c : Nat) : (claimLost s c).pending = s.pending := by
  simp only [claimLost, ite_pending, ite_self, log_pending, saWrite_pending, cannotClaim_pending]
  (repeat' split) <;> simp only [log_pending, saWrite_pending, cannotClaim_pending, claimAddress_pending]

theorem claimOff_pending (s : State) (c : Nat) : (claimOff s c).pending = s.pending := by
  simp only [claimOff, setCan_pending, saWrite_pending]

theorem canEnable_pending (s : State) (c : Nat) : (canEnable s c).pending = s.pending := by
  simp only [canEnable, ite_pending, ite_self, setCan_pending, set_pending', canOffer_pending, watShow_pending,
    canPump_pending]

theorem canDisable_pending (s : State) (c : Nat) : (canDisable s c).pending = s.pending := by
  simp only [canDisable, ite_pending, ite_self, foldl_pending, implies_true, setCan_pending, set_pending',
    claimOff_pending]

theorem execCanEnable_queueKept (s : State) (c : Nat) : QueueKept s.pending (execCanEnable c s) := by
  simp only [execCanEnable, queueKept_ite, ite_self, queueKept_next, gatedField_queueKept, canEnable_pending]

theorem execQueueAck_queueKept (s : State) (c q index : Nat) : QueueKept s.pending (execQueueAck c q index s) := by
  simp only [execQueueAck, queueKept_ite, ite_self, queueKept_next, gatedWrite_queueKept, queueAck_pending]

theorem execTxRequest_queueKept (s : State) (c b : Nat) : QueueKept s.pending (execTxRequest c b s) := by
  simp only [execTxRequest, queueKept_ite, ite_self, queueKept_next, gatedWrite_queueKept, txRequest_pending]

theorem execTxAttemptEnd_queueKept (s : State) (c outcome lec : Nat) (t : Time) (tec rcnt : Nat) :
    QueueKept s.pending (execTxAttemptEnd c outcome lec t tec rcnt s) := by
  simp only [execTxAttemptEnd, ite_pending, ite_self, queueKept_next, txAttemptEnd_pending, gated_queueKept]

theorem execTxAbort_queueKept (s : State) (c b : Nat) : QueueKept s.pending (execTxAbort c b s) := by
  simp only [execTxAbort, queueKept_ite, ite_self, queueKept_next, gatedWrite_queueKept, txAbort_pending]

theorem busOffRecover_pending (s : State) (c : Nat) : (busOffRecover s c).pending = s.pending := by
  simp only [busOffRecover, ite_pending, ite_self, recoverStart_pending]

theorem execBusOffRecover_queueKept (s : State) (c : Nat) : QueueKept s.pending (execBusOffRecover c s) := by
  simp only [execBusOffRecover, queueKept_ite, ite_self, queueKept_next, gatedField_queueKept, busOffRecover_pending]

theorem recoveryEnd_pending (s : State) (c : Nat) : (recoveryEnd s c).pending = s.pending := by
  unfold recoveryEnd
  split <;> simp only [ite_pending, ite_self, setCan_pending, set_pending', log_pending, put_pending',
    canOffer_pending, passTo_pending, canPump_pending]

theorem execBusOffRecoveryEnd_queueKept (s : State) (c : Nat) : QueueKept s.pending (execBusOffRecoveryEnd c s) := by
  simp only [execBusOffRecoveryEnd, ite_pending, ite_self, queueKept_next, recoveryEnd_pending, gated_queueKept]

theorem claimStart_pending (s : State) (c : Nat) : (claimStart s c).pending = s.pending := by
  simp only [claimStart, ite_pending, ite_self, claimAddress_pending]

theorem execAddressClaimStart_queueKept (s : State) (c : Nat) : QueueKept s.pending (execAddressClaimStart c s) := by
  simp only [execAddressClaimStart, ite_pending, ite_self, queueKept_next, claimStart_pending, gated_queueKept]

theorem execClaimTimeout_queueKept (s : State) (c : Nat) : QueueKept s.pending (execClaimTimeout c s) := by
  simp only [execClaimTimeout, queueKept_next, gated_queueKept]
  (repeat' split) <;> simp only [setCan_pending, log_pending, saWrite_pending, passTo_pending]

theorem execContendingClaim_queueKept (s : State) (c addr name : Nat) :
    QueueKept s.pending (execContendingClaim c addr name s) := by
  simp only [execContendingClaim, ite_pending, ite_self, queueKept_next, setCan_pending, claimLost_pending,
    gated_queueKept, sendClaim_pending]

theorem execRequestForClaim_queueKept (s : State) (c : Nat) : QueueKept s.pending (execRequestForClaim c s) := by
  simp only [execRequestForClaim, ite_pending, ite_self, queueKept_next, gated_queueKept, sendClaim_pending]

/-! Machine/Stage.lean -/

theorem State.record_pending (s : State) (r : Report) : (s.record r).pending = s.pending := by
  unfold record
  split <;> simp only [fire_pending, set_pending', log_pending, count_pending']

theorem loopsFromZero_pending (s : State) (kind b : Nat) : (loopsFromZero s kind b).pending = s.pending := by
  simp only [loopsFromZero, foldl_pending, implies_true, wr_pending']

theorem thermalEstimate_pending (s : State) : (thermalEstimate s).pending = s.pending := by
  simp only [thermalEstimate, ite_pending, ite_self, foldl_pending, implies_true, log_pending, pwrBit_pending']

/-! Machine/Solenoid.lean -/

theorem State.setSdPhase_pending (s : State) (n p : Nat) : (s.setSdPhase n p).pending = s.pending := by
  simp only [setSdPhase, set_pending']

theorem State.setSdQueue_pending (s : State) (b : Nat) (l : List Nat) : (s.setSdQueue b l).pending = s.pending := by
  simp only [setSdQueue, set_pending', setSdB_pending']

theorem sdMirror_pending (s : State) (n : Nat) : (sdMirror s n).pending = s.pending := by
  simp only [sdMirror, ite_pending, ite_self, foldl_pending, implies_true, wr_pending']

theorem sdDiag_pending (s : State) (n bit code : Nat) (data : List Byte) :
    (sdDiag s n bit code data).pending = s.pending := by
  simp only [sdDiag, tell_pending']

theorem sdBankDiag_pending (s : State) (b bit : Nat) : (sdBankDiag s b bit).pending = s.pending := by
  simp only [sdBankDiag, tell_pending']

theorem pullinRequest_pending (s : State) (n : Nat) : (pullinRequest s n).pending = s.pending := by
  simp only [pullinRequest, ite_pending, ite_self, setSdQueue_pending, setSdPhase_pending, setSdC_pending']

theorem pullinWithdraw_pending (s : State) (n : Nat) : (pullinWithdraw s n).pending = s.pending := by
  simp only [pullinWithdraw, setSdQueue_pending, setSdPhase_pending, tell_pending']

theorem grantRelease_pending (s : State) (n : Nat) : (grantRelease s n).pending = s.pending := by
  simp only [grantRelease, ite_pending, ite_self, set_pending']

theorem sdTurnOff_pending (s : State) (n : Nat) : (sdTurnOff s n).pending = s.pending := by
  simp only [sdTurnOff]
  split <;> simp only [setSdPhase_pending, set_pending', pullinWithdraw_pending, grantRelease_pending]

theorem sdStagger_pending (s : State) (b : Nat) : (sdStagger s b).pending = s.pending := by
  simp only [sdStagger, ite_pending, ite_self, foldl_pending, implies_true, setSdC_pending']

theorem sdOnInterval_pending (s : State) (n stop : Nat) : (sdOnInterval s n stop).pending = s.pending := by
  simp only [sdOnInterval, set_pending', pullinRequest_pending, setSdC_pending']

theorem sdPwmStart_pending (s : State) (n : Nat) : (sdPwmStart s n).pending = s.pending := by
  simp only [sdPwmStart, ite_pending, ite_self, sdOnInterval_pending]

theorem sdStart_pending (s : State) (n : Nat) : (sdStart s n).pending = s.pending := by
  unfold sdStart
  (repeat' split) <;> simp only [setSdPhase_pending, sdPwmStart_pending, pullinRequest_pending]

theorem sdBankOff_pending (s : State) (b : Nat) : (sdBankOff s b).pending = s.pending := by
  simp only [sdBankOff, foldl_pending, implies_true, sdTurnOff_pending, set_pending', setSdB_pending', sdMirror_pending]

theorem sdDisarm_pending (s : State) (b : Nat) : (sdDisarm s b).pending = s.pending := by
  simp only [sdDisarm, ite_pending, ite_self, sdBankOff_pending]

theorem State.dropSdDefer_pending (s : State) (b : Nat) : (s.dropSdDefer b).pending = s.pending := queue_eq rfl

theorem sdLeak_pending (s : State) (b : Nat) : (sdLeak s b).pending = s.pending := by
  simp only [sdLeak, set_pending', setSdB_pending']

theorem bankLock_pending (s : State) (b e : Nat) : (bankLock s b e).pending = s.pending := by
  simp only [bankLock, set_pending', tell_pending', sdBankDiag_pending, sdDisarm_pending]

theorem sdClampEnd_pending (s : State) (b microJ : Nat) : (sdClampEnd s b microJ).pending = s.pending := by
  simp only [sdClampEnd, ite_pending, ite_self, bankLock_pending, set_pending', setSdB_pending', sdLeak_pending]

theorem execSdClampEventEnd_queueKept (s : State) (b microJ : Nat) :
    QueueKept s.pending (execSdClampEventEnd b microJ s) := by
  simp only [execSdClampEventEnd, queueKept_ite, ite_self, queueKept_next, sdClampEnd_pending]

theorem sdClampClose_pending (s : State) (b : Nat) : (sdClampClose s b).pending = s.pending := by
  simp only [sdClampClose, ite_pending, ite_self, fresh_pending', sdClampEnd_pending, setSdB_pending']

theorem execSdBucketLeak_queueKept (s : State) (b : Nat) : QueueKept s.pending (execSdBucketLeak b s) := by
  simp only [execSdBucketLeak, queueKept_ite, ite_self, queueKept_next, sdLeak_pending, passTo_pending]

theorem bankUnlock_pending (s : State) (b : Nat) : (bankUnlock s b).1.pending = s.pending := by
  simp only [bankUnlock, ite_pending, ite_fst, ite_self, set_pending', sdLeak_pending, tell_pending']

theorem execBankUnlock_queueKept (s : State) (b : Nat) : QueueKept s.pending (execBankUnlock b s) := by
  simp only [execBankUnlock, queueKept_ite, ite_self, queueKept_next, bankUnlock_pending]

theorem bankSwitchClear_pending (s : State) (b : Nat) : (bankSwitchClear s b).1.pending = s.pending := by
  simp only [bankSwitchClear, ite_pending, ite_fst, ite_self, set_pending', tell_pending']

theorem execBankSwitchClear_queueKept (s : State) (b tj : Nat) :
    QueueKept s.pending (execBankSwitchClear b tj s) := by
  simp only [execBankSwitchClear, queueKept_ite, ite_self, queueKept_next, bankSwitchClear_pending, setSdB_pending']

theorem bankSwitchClearNow_pending (s : State) (b : Nat) : (bankSwitchClearNow s b).1.pending = s.pending := by
  simp only [bankSwitchClearNow, fresh_pending', bankSwitchClear_pending, setSdB_pending']

theorem bankArm_pending (s : State) (b : Nat) : (bankArm s b).1.pending = s.pending := by
  simp only [bankArm, ite_pending, ite_fst, ite_self, foldl_pending, implies_true, sdStart_pending,
    sdClampClose_pending, loopsFromZero_pending, set_pending', setSdB_pending', thermalEstimate_pending, log_pending,
    pwrBit_pending', sdMirror_pending, sdStagger_pending]

theorem execBankArm_queueKept (s : State) (b : Nat) : QueueKept s.pending (execBankArm b s) := by
  simp only [execBankArm, queueKept_ite, ite_self, queueKept_next, bankArm_pending]

theorem execBankDisarm_queueKept (s : State) (b : Nat) : QueueKept s.pending (execBankDisarm b s) := by
  simp only [execBankDisarm, queueKept_ite, ite_self, queueKept_next, sdDisarm_pending]

theorem sdBctrlWrite_pending (s : State) (b : Nat) (v : Word) : (sdBctrlWrite s b v).pending = s.pending := by
  simp only [sdBctrlWrite, ite_pending, ite_self, bankArm_pending, bankUnlock_pending, put_pending',
    bankSwitchClearNow_pending, sdDisarm_pending]

theorem execBankSwitchLimit_queueKept (s : State) (b tj : Nat) :
    QueueKept s.pending (execBankSwitchLimit b tj s) := by
  simp only [execBankSwitchLimit, queueKept_ite, ite_self, queueKept_next, setSdB_pending', tell_pending',
    sdBankDiag_pending]

theorem execBankSwitchTrip_queueKept (s : State) (b tj : Nat) : QueueKept s.pending (execBankSwitchTrip b tj s) := by
  simp only [execBankSwitchTrip, queueKept_ite, ite_self, queueKept_next, set_pending', setSdB_pending',
    sdBankOff_pending, tell_pending', sdBankDiag_pending]

theorem sdFclr_pending (s : State) (n : Nat) : (sdFclr s n).pending = s.pending := by
  simp only [sdFclr, ite_pending, ite_self, setSdPhase_pending, set_pending', tell_pending']

theorem sdEdge_pending (s : State) (n : Nat) (before : Bool) : (sdEdge s n before).pending = s.pending := by
  simp only [sdEdge, ite_pending, ite_self, sdTurnOff_pending, sdStart_pending]

theorem sdErr_pending (s : State) (n e : Nat) : (sdErr s n e).pending = s.pending := by
  simp only [sdErr, set_pending', sdMirror_pending]

theorem sdCctrlWrite_pending (s : State) (n : Nat) (v : Word) : (sdCctrlWrite s n v).1.pending = s.pending := by
  simp only [sdCctrlWrite, ite_pending, ite_fst, ite_self, sdEdge_pending, wr_pending', sdFclr_pending,
    clearAll_pending, sdErr_pending, sdMirror_pending]

theorem sdChannelWrite_pending (s : State) (n o : Nat) (v : Word) (field : Option Nat) :
    (sdChannelWrite s n o v field).1.pending = s.pending := by
  simp only [sdChannelWrite, ite_pending, ite_fst, ite_self, wr_pending', sdErr_pending]

theorem sdApply_pending (s : State) (o : Nat) (v : Word) (field : Option Nat) :
    (sdApply s o v field).1.pending = s.pending := by
  simp only [sdApply, ite_pending, ite_fst, ite_self, sdBctrlWrite_pending, sdChannelWrite_pending, plainWrite_pending,
    sdCctrlWrite_pending]

theorem execSdFclr_queueKept (s : State) (n : Nat) : QueueKept s.pending (execSdFclr n s) := by
  simp only [execSdFclr, queueKept_ite, ite_self, queueKept_next, sdFclr_pending, sdMirror_pending]

theorem execPullinGrant_queueKept (s : State) (b : Nat) : QueueKept s.pending (execPullinGrant b s) := by
  unfold execPullinGrant
  split <;> simp only [queueKept_ite, ite_self, queueKept_next, setSdQueue_pending, setSdPhase_pending, set_pending',
    tell_pending', sdMirror_pending, setSdC_pending']

theorem armatureCheck_pending (s : State) (n : Nat) (dip : Option (Nat × Nat)) (peak : Bool) :
    (armatureCheck s n dip peak).pending = s.pending := by
  unfold armatureCheck
  (repeat' split) <;> simp only [set_pending', sdDiag_pending]

theorem execPeakReached_queueKept (s : State) (n tpk microA : Nat) (dip : Option (Nat × Nat)) :
    QueueKept s.pending (execPeakReached n tpk microA dip s) := by
  simp only [execPeakReached, queueKept_ite, ite_pending, ite_self, queueKept_next, armatureCheck_pending,
    setSdPhase_pending, set_pending', passTo_pending, sdDiag_pending, tell_pending', sdMirror_pending, setSdC_pending',
    grantRelease_pending]

theorem execTpkMaxExpiry_queueKept (s : State) (n : Nat) (dip : Option (Nat × Nat)) :
    QueueKept s.pending (execTpkMaxExpiry n dip s) := by
  simp only [execTpkMaxExpiry, queueKept_ite, ite_self, queueKept_next, armatureCheck_pending, setSdPhase_pending,
    passTo_pending, sdDiag_pending, tell_pending', sdMirror_pending, grantRelease_pending]

theorem execPeakDwellEnd_queueKept (s : State) (n : Nat) : QueueKept s.pending (execPeakDwellEnd n s) := by
  simp only [execPeakDwellEnd, queueKept_ite, ite_self, queueKept_next, setSdPhase_pending, passTo_pending,
    sdMirror_pending, grantRelease_pending]

theorem execDecayEnd_queueKept (s : State) (n : Nat) : QueueKept s.pending (execDecayEnd n s) := by
  simp only [execDecayEnd, queueKept_ite, ite_self, queueKept_next, setSdPhase_pending, sdMirror_pending]

theorem execPullinWaitLate_queueKept (s : State) (n : Nat) : QueueKept s.pending (execPullinWaitLate n s) := by
  simp only [execPullinWaitLate, queueKept_ite, ite_self, queueKept_next, passTo_pending, sdDiag_pending,
    tell_pending', setSdC_pending']

theorem execSdPwmCycleStart_queueKept (s : State) (n : Nat) : QueueKept s.pending (execSdPwmCycleStart n s) := by
  simp only [execSdPwmCycleStart, queueKept_ite, ite_self, queueKept_next, sdTurnOff_pending, sdOnInterval_pending,
    sdMirror_pending, setSdC_pending']

theorem execSdPwmOnEnd_queueKept (s : State) (n : Nat) : QueueKept s.pending (execSdPwmOnEnd n s) := by
  simp only [execSdPwmOnEnd, queueKept_ite, ite_self, queueKept_next, sdTurnOff_pending, sdMirror_pending]

theorem sdFault_pending (s : State) (n bit code milliamp : Nat) :
    (sdFault s n bit code milliamp).pending = s.pending := by
  simp only [sdFault, setSdPhase_pending, sdTurnOff_pending, sdDiag_pending, sdMirror_pending]

theorem execSdOverCurrent_queueKept (s : State) (n milliamp : Nat) :
    QueueKept s.pending (execSdOverCurrent n milliamp s) := by
  simp only [execSdOverCurrent, queueKept_ite, ite_self, queueKept_next, sdFault_pending]

theorem execSdOpenLoad_queueKept (s : State) (n milliamp : Nat) :
    QueueKept s.pending (execSdOpenLoad n milliamp s) := by
  simp only [execSdOpenLoad, queueKept_ite, ite_self, queueKept_next, sdFault_pending]

theorem sdFail_pending (s : State) (n : Nat) : (sdFail s n).pending = s.pending := by
  unfold sdFail
  (repeat' split) <;> simp only [ite_pending, ite_self, sdTurnOff_pending, sdEdge_pending, set_pending', put_pending',
    sdMirror_pending, setSdC_pending']

theorem bankHoldExpiry_pending (s : State) (b : Nat) : (bankHoldExpiry s b).pending = s.pending := by
  simp only [bankHoldExpiry, foldl_pending, implies_true, sdFail_pending, set_pending', setSdB_pending', tell_pending',
    sdBankDiag_pending]

theorem execBankHoldExpiry_queueKept (s : State) (b : Nat) : QueueKept s.pending (execBankHoldExpiry b s) := by
  unfold execBankHoldExpiry
  split <;> simp only [queueKept_ite, ite_self, queueKept_next, bankHoldExpiry_pending, passTo_pending]

theorem sdHoldEntry_pending (s : State) (d : Nat) : (sdHoldEntry s d).pending = s.pending := by
  simp only [sdHoldEntry, ite_pending, ite_self, foldl_pending, implies_true, setDie_pending', set_pending',
    setSdB_pending', bankHoldExpiry_pending, tell_pending', sdBankDiag_pending]

theorem execBankFailOffDisarm_queueKept (s : State) (b : Nat) : QueueKept s.pending (execBankFailOffDisarm b s) := by
  simp only [execBankFailOffDisarm, queueKept_ite, ite_self, queueKept_next, set_pending']

theorem sdDeferFlag_pending (s : State) (k : Nat) (on : Bool) : (sdDeferFlag s k on).pending = s.pending := by
  simp only [sdDeferFlag, foldl_pending, implies_true, put_pending', tell_pending', sdBankDiag_pending]

theorem execLoadDumpEntry_queueKept (s : State) (k decivolt : Nat) :
    QueueKept s.pending (execLoadDumpEntry k decivolt s) := by
  simp only [execLoadDumpEntry, queueKept_ite, ite_self, queueKept_next, sdDeferFlag_pending, tell_pending']

theorem execLoadDumpEnd_queueKept (s : State) (k decivolt : Nat) :
    QueueKept s.pending (execLoadDumpEnd k decivolt s) := by
  simp only [execLoadDumpEnd, queueKept_ite, ite_self, foldl_pending, implies_true, queueKept_next,
    sdDeferFlag_pending, sdBankOff_pending, dropSdDefer_pending]

theorem sdDieClear_pending (s : State) (d : Nat) : (sdDieClear s d).pending = s.pending := by
  simp only [sdDieClear, foldl_pending, implies_true, setDie_pending', set_pending', setSdB_pending', tell_pending']

theorem execSdDieReset_queueKept (s : State) (d : Nat) : QueueKept s.pending (execSdDieReset d s) := by
  simp only [execSdDieReset, queueKept_ite, ite_self, queueKept_next, sdDieClear_pending, tell_pending']

theorem sdStageStop_pending (s : State) (d : Nat) : (sdStageStop s d).pending = s.pending := by
  simp only [sdStageStop, foldl_pending, implies_true, setDie_pending', sdBankOff_pending, dropSdDefer_pending]

/-! Machine/Switches.lean -/

theorem State.setLsPhase_pending (s : State) (n p : Nat) : (s.setLsPhase n p).pending = s.pending := by
  simp only [setLsPhase, set_pending']

theorem lsDiag_pending (s : State) (n bit code : Nat) (data : List Byte) :
    (lsDiag s n bit code data).pending = s.pending := by
  simp only [lsDiag, tell_pending']

theorem lsGroupDiag_pending (s : State) (g bit : Nat) : (lsGroupDiag s g bit).pending = s.pending := by
  simp only [lsGroupDiag, tell_pending']

theorem lsOpen_pending (s : State) (n : Nat) : (lsOpen s n).pending = s.pending := by
  simp only [lsOpen, ite_pending, ite_self, setLsC_pending']

theorem lsLeak_pending (s : State) (n : Nat) : (lsLeak s n).pending = s.pending := by
  simp only [lsLeak, setLsC_pending', set_pending']

theorem lsOffNow_pending (s : State) (n : Nat) : (lsOffNow s n).pending = s.pending := by
  simp only [lsOffNow, ite_pending, ite_self, lsOpen_pending, setLsC_pending', set_pending', setLsPhase_pending]

theorem channelLock_pending (s : State) (n e : Nat) : (channelLock s n e).pending = s.pending := by
  simp only [channelLock, setLsPhase_pending, lsDiag_pending, tell_pending', lsOffNow_pending]

theorem lsClampEnd_pending (s : State) (n microJ : Nat) : (lsClampEnd s n microJ).pending = s.pending := by
  simp only [lsClampEnd, ite_pending, ite_self, setLsC_pending', channelLock_pending, lsLeak_pending, set_pending',
    tell_pending']

theorem lsClose_pending (s : State) (n : Nat) : (lsClose s n).pending = s.pending := by
  simp only [lsClose, ite_pending, ite_self, setLsC_pending', fresh_pending', lsClampEnd_pending]

theorem lsPwmStart_pending (s : State) (n : Nat) : (lsPwmStart s n).pending = s.pending := by
  simp only [lsPwmStart, ite_pending, ite_self, setLsC_pending', lsClose_pending]

theorem lsDrive_pending (s : State) (n : Nat) : (lsDrive s n).pending = s.pending := by
  unfold lsDrive
  split <;> simp only [ite_pending, ite_self, setLsC_pending', lsPwmStart_pending, lsClose_pending, setLsPhase_pending]

theorem lsDeferAction_pending (s : State) (n : Nat) (on : Bool) : (lsDeferAction s n on).pending = s.pending := by
  simp only [lsDeferAction, ite_pending, ite_self, setLsPhase_pending, tell_pending']

theorem lsSwitchOn_pending (s : State) (n : Nat) : (lsSwitchOn s n).pending = s.pending := by
  simp only [lsSwitchOn, ite_pending, ite_self, setLsC_pending', lsDeferAction_pending, lsDrive_pending, put_pending',
    tell_pending']

theorem lsTurnOff_pending (s : State) (n : Nat) : (lsTurnOff s n).pending = s.pending := by
  simp only [lsTurnOff, ite_pending, ite_self, lsDeferAction_pending, setLsPhase_pending, lsOffNow_pending]

theorem execLsClampEventEnd_queueKept (s : State) (n microJ : Nat) :
    QueueKept s.pending (execLsClampEventEnd n microJ s) := by
  simp only [execLsClampEventEnd, queueKept_ite, ite_self, queueKept_next, lsClampEnd_pending]

theorem execLsBucketLeak_queueKept (s : State) (n : Nat) : QueueKept s.pending (execLsBucketLeak n s) := by
  simp only [execLsBucketLeak, queueKept_ite, ite_self, queueKept_next, lsLeak_pending, passTo_pending]

theorem lsUnlock_pending (s : State) (n : Nat) : (lsUnlock s n).1.pending = s.pending := by
  simp only [lsUnlock, ite_pending, ite_fst, ite_self, lsLeak_pending, set_pending', setLsPhase_pending, tell_pending']

theorem execLsUnlock_queueKept (s : State) (n : Nat) : QueueKept s.pending (execLsUnlock n s) := by
  simp only [execLsUnlock, queueKept_ite, ite_self, queueKept_next, lsUnlock_pending]

theorem lsFclr_pending (s : State) (n : Nat) : (lsFclr s n).pending = s.pending := by
  simp only [lsFclr, ite_pending, ite_self, setLsC_pending', set_pending', setLsPhase_pending, tell_pending']

theorem lsEdge_pending (s : State) (n : Nat) (before : Bool) : (lsEdge s n before).pending = s.pending := by
  simp only [lsEdge, ite_pending, ite_self, setLsC_pending', lsSwitchOn_pending, lsTurnOff_pending]

theorem lsCctrlWrite_pending (s : State) (n : Nat) (v : Word) : (lsCctrlWrite s n v).1.pending = s.pending := by
  simp only [lsCctrlWrite, ite_pending, ite_fst, ite_self, lsUnlock_pending, lsFclr_pending, lsEdge_pending,
    wr_pending', set_pending', clearAll_pending]

theorem lsChannelWrite_pending (s : State) (n o : Nat) (v : Word) (field : Option Nat) :
    (lsChannelWrite s n o v field).1.pending = s.pending := by
  simp only [lsChannelWrite, ite_pending, ite_fst, ite_self, wr_pending', set_pending']

theorem execLsFclr_queueKept (s : State) (n : Nat) : QueueKept s.pending (execLsFclr n s) := by
  simp only [execLsFclr, queueKept_ite, ite_self, queueKept_next, lsFclr_pending]

theorem lsCycle_pending (s : State) (n d : Nat) : (lsCycle s n d).pending = s.pending := by
  simp only [lsCycle, ite_pending, ite_self, lsOpen_pending, setLsC_pending', lsClose_pending]

theorem execLsPwmCycleStart_queueKept (s : State) (n : Nat) : QueueKept s.pending (execLsPwmCycleStart n s) := by
  simp only [execLsPwmCycleStart, queueKept_ite, ite_self, queueKept_next, setLsC_pending', lsCycle_pending]

theorem execLsPwmOnEnd_queueKept (s : State) (n : Nat) : QueueKept s.pending (execLsPwmOnEnd n s) := by
  simp only [execLsPwmOnEnd, queueKept_ite, ite_self, queueKept_next, lsOpen_pending, passTo_pending]

theorem execInrushWindowEnd_queueKept (s : State) (n : Nat) : QueueKept s.pending (execInrushWindowEnd n s) := by
  simp only [execInrushWindowEnd, queueKept_ite, ite_self, queueKept_next, set_pending', passTo_pending]

theorem execLsLimit_queueKept (s : State) (n ampere : Nat) (ongoing : Bool) :
    QueueKept s.pending (execLsLimit n ampere ongoing s) := by
  simp only [execLsLimit, queueKept_ite, ite_self, queueKept_next, setLsPhase_pending, lsDiag_pending, tell_pending']

theorem lsLatch_pending (s : State) (n tj : Nat) : (lsLatch s n tj).pending = s.pending := by
  simp only [lsLatch, setLsC_pending', setLsPhase_pending, lsDiag_pending, tell_pending']

theorem execLsThermalShutdown_queueKept (s : State) (n tj : Nat) (tref : Int) :
    QueueKept s.pending (execLsThermalShutdown n tj tref s) := by
  simp only [execLsThermalShutdown, queueKept_ite, ite_pending, ite_self, queueKept_next, lsOpen_pending,
    setLsC_pending', lsLatch_pending, setLsPhase_pending, lsDiag_pending, tell_pending']

theorem execLsAutoRestart_queueKept (s : State) (n tj : Nat) (tref : Int) :
    QueueKept s.pending (execLsAutoRestart n tj tref s) := by
  simp only [execLsAutoRestart, queueKept_ite, ite_self, queueKept_next, setLsC_pending', lsDrive_pending,
    set_pending', setLsPhase_pending]

theorem execLsRestartCountReset_queueKept (s : State) (n : Nat) :
    QueueKept s.pending (execLsRestartCountReset n s) := by
  unfold execLsRestartCountReset
  split <;> simp only [queueKept_ite, ite_self, queueKept_next, setLsC_pending', passTo_pending]

theorem execOpenLoadOn_queueKept (s : State) (n : Nat) : QueueKept s.pending (execOpenLoadOn n s) := by
  simp only [execOpenLoadOn, queueKept_ite, ite_self, queueKept_next, lsDiag_pending]

theorem execOpenLoadOff_queueKept (s : State) (n : Nat) : QueueKept s.pending (execOpenLoadOff n s) := by
  simp only [execOpenLoadOff, queueKept_ite, ite_self, queueKept_next, lsDiag_pending]

theorem execShortToBattery_queueKept (s : State) (n : Nat) : QueueKept s.pending (execShortToBattery n s) := by
  simp only [execShortToBattery, queueKept_ite, ite_self, queueKept_next, lsDiag_pending]

theorem groupArm_pending (s : State) (g : Nat) : (groupArm s g).1.pending = s.pending := by
  simp only [groupArm, ite_pending, ite_fst, ite_self, foldl_pending, implies_true, setLsG_pending',
    loopsFromZero_pending, set_pending', thermalEstimate_pending, lsSwitchOn_pending, log_pending, pwrBit_pending']

theorem execGroupArm_queueKept (s : State) (g : Nat) : QueueKept s.pending (execGroupArm g s) := by
  simp only [execGroupArm, queueKept_ite, ite_self, queueKept_next, groupArm_pending]

theorem groupDisarm_pending (s : State) (g : Nat) : (groupDisarm s g).pending = s.pending := by
  simp only [groupDisarm, ite_pending, ite_self, foldl_pending, implies_true, set_pending', lsTurnOff_pending]

theorem execGroupDisarm_queueKept (s : State) (g : Nat) : QueueKept s.pending (execGroupDisarm g s) := by
  simp only [execGroupDisarm, queueKept_ite, ite_self, queueKept_next, groupDisarm_pending]

theorem lsGctrlWrite_pending (s : State) (g : Nat) (v : Word) : (lsGctrlWrite s g v).pending = s.pending := by
  simp only [lsGctrlWrite, ite_pending, ite_self, groupDisarm_pending, groupArm_pending]

theorem lsApply_pending (s : State) (o : Nat) (v : Word) (field : Option Nat) :
    (lsApply s o v field).1.pending = s.pending := by
  simp only [lsApply, ite_pending, ite_fst, ite_self, lsChannelWrite_pending, plainWrite_pending, lsCctrlWrite_pending,
    lsGctrlWrite_pending]

theorem lsFail_pending (s : State) (n : Nat) : (lsFail s n).pending = s.pending := by
  simp only [lsFail, ite_pending, ite_self, setLsC_pending', lsEdge_pending, set_pending', put_pending']

theorem groupHoldExpiry_pending (s : State) (g : Nat) : (groupHoldExpiry s g).pending = s.pending := by
  simp only [groupHoldExpiry, ite_pending, ite_self, foldl_pending, implies_true, lsGroupDiag_pending, setLsG_pending',
    set_pending', lsFail_pending, tell_pending']

theorem execGroupHoldExpiry_queueKept (s : State) (g : Nat) : QueueKept s.pending (execGroupHoldExpiry g s) := by
  unfold execGroupHoldExpiry
  split <;> simp only [queueKept_ite, ite_self, queueKept_next, groupHoldExpiry_pending, passTo_pending]

theorem lsHoldEntry_pending (s : State) (d : Nat) : (lsHoldEntry s d).pending = s.pending := by
  simp only [lsHoldEntry, ite_pending, ite_self, foldl_pending, implies_true, lsGroupDiag_pending,
    groupHoldExpiry_pending, setLsG_pending', setDie_pending', set_pending', tell_pending']

theorem lsDeferFlag_pending (s : State) (k : Nat) (on : Bool) : (lsDeferFlag s k on).pending = s.pending := by
  simp only [lsDeferFlag, foldl_pending, implies_true, lsGroupDiag_pending, put_pending', tell_pending']

theorem execLsDeferralEntry_queueKept (s : State) (k decivolt : Nat) :
    QueueKept s.pending (execLsDeferralEntry k decivolt s) := by
  simp only [execLsDeferralEntry, queueKept_ite, ite_self, queueKept_next, lsDeferFlag_pending, tell_pending']

theorem lsRunDeferred_pending (s : State) (e : Nat × Bool) : (lsRunDeferred s e).pending = s.pending := by
  simp only [lsRunDeferred, ite_pending, ite_self, lsSwitchOn_pending, setLsPhase_pending, lsOffNow_pending]

theorem execLsDeferralEnd_queueKept (s : State) (k decivolt : Nat) :
    QueueKept s.pending (execLsDeferralEnd k decivolt s) := by
  simp only [execLsDeferralEnd, queueKept_ite, ite_self, foldl_pending, implies_true, queueKept_next,
    lsDeferFlag_pending, lsRunDeferred_pending]

theorem lsDieClear_pending (s : State) (d : Nat) : (lsDieClear s d).pending = s.pending := by
  simp only [lsDieClear, foldl_pending, implies_true, setLsC_pending', setDie_pending', set_pending', tell_pending']

theorem execLsDieReset_queueKept (s : State) (d : Nat) : QueueKept s.pending (execLsDieReset d s) := by
  simp only [execLsDieReset, queueKept_ite, ite_self, queueKept_next, lsDieClear_pending, tell_pending']

theorem lsStageStop_pending (s : State) (d : Nat) : (lsStageStop s d).pending = s.pending := by
  simp only [lsStageStop, foldl_pending, implies_true, setDie_pending', set_pending', lsOffNow_pending]

/-! Machine/Dies.lean -/

theorem stageApply_pending (s : State) (p : Post) : (stageApply s p).1.pending = s.pending := by
  simp only [stageApply, ite_pending, ite_fst, ite_self, sdApply_pending, lsApply_pending]

theorem stageErr_pending (s : State) (a e : Nat) : (stageErr s a e).pending = s.pending := by
  simp only [stageErr, ite_pending, ite_self, set_pending', sdErr_pending]

theorem stagePost_pending (s : State) (a : Nat) (v : Word) (field : Option Nat) :
    (stagePost s a v field).1.pending = s.pending := by
  simp only [stagePost, ite_pending, ite_fst, ite_self, post_pending', stageErr_pending, groupArm_pending]

theorem stageDeliver_pending (s : State) : (stageDeliver s).pending = s.pending := by
  simp only [stageDeliver, foldl_pending, implies_true, stageApply_pending]

theorem stageNow_pending (s : State) (a : Nat) (v : Word) (field : Option Nat) :
    (stageNow s a v field).pending = s.pending := by
  simp only [stageNow, ite_pending, ite_self, post_pending', stageApply_pending]

theorem execSdOnCommand_queueKept (s : State) (n : Nat) : QueueKept s.pending (execSdOnCommand n s) := by
  simp only [execSdOnCommand, queueKept_ite, ite_self, queueKept_next, stageNow_pending]

theorem execSdOffCommand_queueKept (s : State) (n : Nat) : QueueKept s.pending (execSdOffCommand n s) := by
  simp only [execSdOffCommand, queueKept_ite, ite_self, queueKept_next, stageNow_pending]

theorem execSdModeWrite_queueKept (s : State) (n : Nat) (value : Word) :
    QueueKept s.pending (execSdModeWrite n value s) := by
  simp only [execSdModeWrite, queueKept_ite, ite_self, queueKept_next, stageNow_pending]

theorem execLsSwitchOn_queueKept (s : State) (n : Nat) : QueueKept s.pending (execLsSwitchOn n s) := by
  simp only [execLsSwitchOn, queueKept_ite, ite_self, queueKept_next, stageNow_pending]

theorem execLsSwitchOff_queueKept (s : State) (n : Nat) : QueueKept s.pending (execLsSwitchOff n s) := by
  simp only [execLsSwitchOff, queueKept_ite, ite_self, queueKept_next, stageNow_pending]

theorem execLsModeWrite_queueKept (s : State) (n : Nat) (value : Word) :
    QueueKept s.pending (execLsModeWrite n value s) := by
  simp only [execLsModeWrite, queueKept_ite, ite_self, queueKept_next, stageNow_pending]

theorem dieChanBits_pending (s : State) (d : Nat) : (dieChanBits s d).pending = s.pending := by
  simp only [dieChanBits, ite_pending, ite_self, foldl_pending, implies_true, put_pending', sdMirror_pending]

theorem dieSeen_pending (s : State) (d : Nat) : (dieSeen s d).pending = s.pending := by
  simp only [dieSeen]

theorem execStatusFrameReceive_queueKept (s : State) (d seq : Nat) (crcOk : Bool) (measured : List (Nat × Nat)) :
    QueueKept s.pending (execStatusFrameReceive d seq crcOk measured s) := by
  simp only [execStatusFrameReceive, queueKept_ite, ite_self, foldl_pending, implies_true, queueKept_next,
    dieChanBits_pending, setDie_pending', wr_pending', set_pending', record_pending, gated_queueKept, dieSeen_pending]

theorem linkSupervise_pending (s : State) : (linkSupervise s).pending = s.pending := by
  simp only [linkSupervise, ite_pending, ite_self, foldl_pending, implies_true, setDie_pending']

theorem execStageLinkLoss_queueKept (s : State) (d : Nat) : QueueKept s.pending (execStageLinkLoss d s) := by
  simp only [execStageLinkLoss, queueKept_ite, ite_self, queueKept_next, fire_pending, set_pending', log_pending]

theorem execStageLinkReturn_queueKept (s : State) (d : Nat) : QueueKept s.pending (execStageLinkReturn d s) := by
  simp only [execStageLinkReturn, queueKept_ite, ite_self, queueKept_next, fire_pending, set_pending', log_pending]

theorem holdEntry_pending (s : State) (d : Nat) : (holdEntry s d).pending = s.pending := by
  simp only [holdEntry, ite_pending, ite_self, sdHoldEntry_pending, lsHoldEntry_pending]

theorem execStageHoldEntry_queueKept (s : State) (d : Nat) : QueueKept s.pending (execStageHoldEntry d s) := by
  simp only [execStageHoldEntry, queueKept_ite, ite_self, queueKept_next, holdEntry_pending]

theorem powerGroundOff_pending (s : State) (d : Nat) : (powerGroundOff s d).pending = s.pending := by
  simp only [powerGroundOff, ite_pending, ite_self, foldl_pending, implies_true, setLsC_pending', setSdPhase_pending,
    sdTurnOff_pending, set_pending', lsOffNow_pending, sdMirror_pending, dropSdDefer_pending]

theorem execPowerGroundLoss_queueKept (s : State) (d : Nat) : QueueKept s.pending (execPowerGroundLoss d s) := by
  simp only [execPowerGroundLoss, queueKept_ite, ite_self, queueKept_next, powerGroundOff_pending, setDie_pending',
    tell_pending']

theorem execPowerGroundReturn_queueKept (s : State) (d : Nat) : QueueKept s.pending (execPowerGroundReturn d s) := by
  simp only [execPowerGroundReturn, queueKept_ite, ite_self, queueKept_next, setDie_pending']

theorem execLogicGroundLoss_queueKept (s : State) (d : Nat) : QueueKept s.pending (execLogicGroundLoss d s) := by
  simp only [execLogicGroundLoss, queueKept_ite, ite_self, queueKept_next, setDie_pending', tell_pending',
    holdEntry_pending]

theorem execLogicGroundReturn_queueKept (s : State) (d : Nat) : QueueKept s.pending (execLogicGroundReturn d s) := by
  simp only [execLogicGroundReturn, queueKept_ite, ite_self, queueKept_next, setDie_pending', tell_pending']

theorem stageStop_pending (s : State) : (stageStop s).pending = s.pending := by
  simp only [stageStop, foldl_pending, implies_true, sdStageStop_pending, lsStageStop_pending]

theorem disarmAll_pending (s : State) : (disarmAll s).pending = s.pending := by
  simp only [disarmAll, foldl_pending, implies_true, groupDisarm_pending, sdDisarm_pending]

theorem stageClear_pending (s : State) : (stageClear s).pending = s.pending := by
  simp only [stageClear, foldl_pending, implies_true, sdDieClear_pending, setLsC_pending', stageStop_pending,
    setSdB_pending', lsDieClear_pending]

/-! Machine/Engine.lean -/

theorem convertOutput_pending (s : State) (l : List Word) (u : F32) : (convertOutput s l u).pending = s.pending := by
  unfold convertOutput
  (repeat' split) <;> simp only [ite_pending, ite_self, set_pending']

theorem setOwned_pending (s : State) (l : List Word) (b : Bool) : (setOwned s l b).pending = s.pending := by
  unfold setOwned
  split <;> simp only [put_pending']

theorem loopEnd_pending (s : State) (n v : Nat) : (loopEnd s n v).pending = s.pending := by
  simp only [loopEnd, setLoop_pending', set_pending', setOwned_pending]

theorem loopTrip_pending (s : State) (n : Nat) : (loopTrip s n).pending = s.pending := by
  simp only [loopTrip, ite_pending, ite_self, fire_pending, setLoop_pending', set_pending', log_pending,
    loopEnd_pending]

theorem loopMiss_pending (s : State) (n : Nat) : (loopMiss s n).pending = s.pending := by
  simp only [loopMiss, ite_pending, ite_self, loopTrip_pending, setLoop_pending', count_pending']

theorem loopCounted_pending (s : State) (n : Nat) (o : LawOut) (held : Bool) :
    (loopCounted s n o held).pending = s.pending := by
  simp only [loopCounted, ite_pending, ite_self, wr_pending', count_pending']

theorem loopCompute_pending (s : State) (n : Nat) (t : Time) (y : F32) :
    (loopCompute s n t y).pending = s.pending := by
  simp only [loopCompute]
  split <;> simp only [loopCounted_pending, setLoop_pending', wr_pending', put_pending', loopMiss_pending]

theorem tailMiss_pending (s : State) (n : Nat) : (tailMiss s n).1.pending = s.pending := by
  simp only [tailMiss, count_pending']

theorem tailCompute_pending (s : State) (n : Nat) (f : Firing) (t : Time) :
    (tailCompute s n f t).1.pending = s.pending := by
  simp only [tailCompute]
  (repeat' split) <;> simp only [loopCounted_pending, setLoop_pending', tailMiss_pending]

theorem tailStep_pending (s : State) (n : Nat) (f : Firing) : (tailStep s n f).1.pending = s.pending := by
  unfold tailStep
  split <;> simp only [ite_pending, ite_fst, ite_self, tailCompute_pending]

theorem loopFallback_pending (s : State) (n : Nat) : (loopFallback s n).pending = s.pending := by
  simp only [loopFallback, ite_pending, ite_self, setLoop_pending', set_pending', log_pending, count_pending']

theorem loopFire_pending (s : State) (n : Nat) : (loopFire s n).pending = s.pending := by
  simp only [loopFire, ite_pending, setLoop_pending', set_pending']
  (repeat' split) <;> simp only [loopFallback_pending, setLoop_pending', set_pending', loopCompute_pending]

theorem loopWindowEnd_pending (s : State) (n : Nat) (t : Time) : (loopWindowEnd s n t).pending = s.pending := by
  unfold loopWindowEnd
  split <;> simp only [setLoop_pending', loopCompute_pending, loopMiss_pending]

theorem tailOutputs_pending (s : State) (n : Nat) : (tailOutputs s n).pending = s.pending := by
  simp only [tailOutputs, ite_pending, ite_self, foldl_pending, implies_true, produce_pending, setLoop_pending',
    convertOutput_pending]

theorem loopApplyOutput_pending (s : State) (n : Nat) : (loopApplyOutput s n).pending = s.pending := by
  simp only [loopApplyOutput]
  split <;> simp only [ite_pending, ite_self, tailOutputs_pending, produce_pending, setLoop_pending',
    convertOutput_pending, loopEnd_pending]

theorem loopWindows_pending (s : State) (n : Nat) : (loopWindows s n).pending = s.pending := by
  simp only [loopWindows]
  split <;> simp only [ite_pending, ite_self, foldl_fst_pending, implies_true, tailStep_pending, loopWindowEnd_pending,
    setLoop_pending']

theorem loopBoundary_pending (s : State) (n : Nat) : (loopBoundary s n).pending = s.pending := by
  simp only [loopBoundary, ite_pending, ite_self, loopFire_pending, setLoop_pending', wr_pending', set_pending',
    loopWindows_pending, loopEnd_pending]

theorem gridState_pending (s : State) (ph : Int) : (gridState s ph).pending = s.pending := by
  simp only [gridState, wr_pending', put_pending']

theorem frameBoundary_pending (s : State) : (frameBoundary s).pending = s.pending := by
  simp only [frameBoundary, foldl_pending, implies_true, devTo_pending, wr64_pending', gridState_pending,
    linkSupervise_pending, loopBoundary_pending, loopApplyOutput_pending, stageDeliver_pending, emit_pending']

theorem ceFrameStep_pending (s : State) (d : Int) : (ceFrameStep s d).pending = s.pending := by
  simp only [ceFrameStep, ite_pending, ite_self, fire_pending, gridState_pending, wr_pending', set_pending',
    log_pending]

theorem ceEnable_pending (s : State) : (ceEnable s).pending = s.pending := by
  simp only [ceEnable, ite_pending, ite_self, wr64_pending', wr_pending', set_pending']

theorem execCeEnable_queueKept (s : State) : QueueKept s.pending (execCeEnable s) := by
  simp [execCeEnable, gatedField_queueKept, ceEnable_pending]

theorem loopStop_pending (s : State) (n : Nat) : (loopStop s n).pending = s.pending := by
  simp only [loopStop, ite_pending, ite_self, setLoop_pending', set_pending']

theorem execLoopStop_queueKept (s : State) (n : Nat) : QueueKept s.pending (execLoopStop n s) := by
  simp only [execLoopStop, queueKept_ite, ite_self, queueKept_next, gatedField_queueKept, loopStop_pending]

theorem ceDisable_pending (s : State) : (ceDisable s).pending = s.pending := by
  simp only [ceDisable, foldl_pending, implies_true, set_pending', loopStop_pending]

theorem execCeDisable_queueKept (s : State) : QueueKept s.pending (execCeDisable s) := by
  simp [execCeDisable, ceDisable_pending, gatedField_queueKept]

theorem loopRun_pending (s : State) (n : Nat) : (loopRun s n).pending = s.pending := by
  simp only [loopRun, ite_pending, ite_self, fire_pending, setLoop_pending', wr_pending', set_pending', log_pending,
    loopEnd_pending, setOwned_pending]

theorem execLoopRun_queueKept (s : State) (n : Nat) : QueueKept s.pending (execLoopRun n s) := by
  simp only [execLoopRun, queueKept_ite, ite_self, queueKept_next, gatedField_queueKept, loopRun_pending]

theorem autoStart_pending (s : State) : (autoStart s).pending = s.pending := by
  simp only [autoStart, ite_pending, ite_self, foldl_pending, implies_true, loopRun_pending]

theorem execFrameBoundary_queueKept (s : State) : QueueKept s.pending (execFrameBoundary s) := by
  simp [execFrameBoundary, queueKept_next, autoStart_pending, frameBoundary_pending, gated_queueKept]

theorem loopApply_pending (s : State) (n : Nat) : (loopApply s n).1.pending = s.pending := by
  simp only [loopApply, ite_pending, ite_fst, ite_self, set_pending']

theorem execLoopApply_queueKept (s : State) (n : Nat) : QueueKept s.pending (execLoopApply n s) := by
  simp only [execLoopApply, queueKept_ite, ite_self, queueKept_next, loopApply_pending, gatedField_queueKept]

theorem setPointWrite_pending (s : State) (n : Nat) (v : F32) : (setPointWrite s n v).pending = s.pending := by
  simp only [setPointWrite, wr_pending']

theorem loopTripclr_pending (s : State) (n : Nat) : (loopTripclr s n).pending = s.pending := by
  simp only [loopTripclr, ite_pending, ite_self, set_pending']

theorem execLoopTripclr_queueKept (s : State) (n : Nat) : QueueKept s.pending (execLoopTripclr n s) := by
  simp only [execLoopTripclr, queueKept_ite, ite_self, queueKept_next, gatedField_queueKept, loopTripclr_pending]

theorem lctrlWrite_pending (s : State) (n : Nat) (v : Word) : (lctrlWrite s n v).pending = s.pending := by
  simp only [lctrlWrite, ite_pending, ite_self, loopApply_pending, set_pending', clearAll_pending, loopStop_pending,
    loopTripclr_pending, plainWrite_pending, loopRun_pending]

theorem reclaim_pending (s : State) : (reclaim s).pending = s.pending := by
  simp only [reclaim, ite_pending, ite_self, set_pending']

theorem execReclaim_queueKept (s : State) : QueueKept s.pending (execReclaim s) := by
  simp [execReclaim, reclaim_pending, gatedField_queueKept]

theorem ceCtrlWrite_pending (s : State) (v : Word) : (ceCtrlWrite s v).pending = s.pending := by
  simp only [ceCtrlWrite, ite_pending, ite_self, ceDisable_pending, reclaim_pending, ceEnable_pending]

theorem leaveHold_pending (s : State) (d : Nat) : (leaveHold s d).pending = s.pending := by
  simp only [leaveHold, ite_pending, ite_self, foldl_pending, implies_true, setLsG_pending', setDie_pending',
    set_pending', setSdB_pending']

theorem reclaimLoop_pending (s : State) (n : Nat) : (reclaimLoop s n).pending = s.pending := by
  simp only [reclaimLoop, ite_pending]
  (repeat' split) <;> simp only [setLoop_pending', wr_pending']

theorem resumeLoop_pending (s : State) (n : Nat) : (resumeLoop s n).pending = s.pending := by
  simp only [resumeLoop, ite_pending, ite_self, setLoop_pending', set_pending']

theorem recordReclaim_pending (s : State) (expired : Bool) : (recordReclaim s expired).pending = s.pending := by
  simp only [recordReclaim, ite_pending, ite_self]

theorem execReclaimFrame_queueKept (s : State) (bad : Nat) : QueueKept s.pending (execReclaimFrame bad s) := by
  simp only [execReclaimFrame, queueKept_ite, ite_pending, ite_self, foldl_pending, implies_true, queueKept_next,
    fire_pending, leaveHold_pending, resumeLoop_pending, set_pending', log_pending, gated_queueKept,
    reclaimLoop_pending, recordReclaim_pending]

/-! Machine/Tagged.lean -/

theorem putCompletion_pending (s : State) (engine base slots n tag status field : Nat) :
    (putCompletion s engine base slots n tag status field).pending = s.pending := by
  simp only [putCompletion, busStore_pending]

/-! Machine/FusionJobs.lean -/

theorem State.setJobs_pending (s : State) (j : Nat) (q : TagQueue) : (s.setJobs j q).pending = s.pending := by
  simp only [setJobs, set_pending']

theorem readMatrix_pending (s : State) (a ld rows cols : Nat) :
    (readMatrix s a ld rows cols).2.pending = s.pending := by
  simp only [readMatrix, ite_pending, ite_snd, engineError_pending]
  split
  · rfl
  · refine foldl_snd_pending (fun u x => ?_) _ _
    split
    · rfl
    · simp only [ite_snd, ite_self, busRead_pending]

theorem writeMatrix_pending (s : State) (a ld : Nat) (m : Matrix) (rows cols : Nat) :
    (writeMatrix s a ld m rows cols).2.pending = s.pending := by
  simp only [writeMatrix, ite_pending, ite_snd, ite_self, foldl_snd_pending, implies_true, engineError_pending,
    busStore_pending]

theorem jobOperand_pending (s : State) (d : List Byte) (k : Nat) : (jobOperand s d k).2.pending = s.pending := by
  unfold jobOperand
  split <;> simp only [readMatrix_pending]

theorem jobSpoil_pending (s : State) (d : List Byte) (operands : List Matrix) (status : Nat) :
    (jobSpoil s d operands status).2.pending = s.pending := by
  simp only [jobSpoil, writeMatrix_pending]

theorem jobRun_pending (s : State) (d : List Byte) : (jobRun s d).2.pending = s.pending := by
  simp only [jobRun, ite_pending, ite_snd]
  (repeat' split) <;> simp only [jobOperand_pending, writeMatrix_pending, jobSpoil_pending]

theorem cyclesOf_pending (s : State) (d : List Byte) : (cyclesOf s d).2.pending = s.pending := by
  simp only [cyclesOf, ite_pending, ite_snd, ite_self, fresh_pending']

theorem jobEnd_pending (s : State) (j : Nat) (o : TagOp) (status cycles : Nat) :
    (jobEnd s j o status cycles).pending = s.pending := by
  simp only [jobEnd, ite_pending, ite_self, fire_pending, putCompletion_pending, setJobs_pending]

theorem jobSubmit_pending (s : State) (j : Nat) (v : Word) : (jobSubmit s j v).pending = s.pending := by
  simp only [jobSubmit, ite_pending, ite_fst, ite_snd, ite_self, countSat_pending, set_pending',
    readDescriptor_pending, setJobs_pending]

theorem execFusionJobSubmit_queueKept (s : State) (queue : Nat) (value : Word) :
    QueueKept s.pending (execFusionJobSubmit queue value s) := by
  simp only [execFusionJobSubmit, queueKept_ite, ite_self, queueKept_next, gatedWrite_queueKept, jobSubmit_pending]

theorem jobStartOf_pending {s t : State} {j : Nat} (h : jobStartOf s j = some t) : t.pending = s.pending := by
  obtain ⟨o, -, rfl⟩ := Option.map_eq_some_iff.mp h
  simp only [set_pending', setJobs_pending]

theorem jobStart_pending (s : State) : (jobStart s).pending = s.pending := by
  unfold jobStart
  split
  · rfl
  · split
    next t h => exact jobStartOf_pending h
    · cases h : jobStartOf s 1 with
      | none => rfl
      | some t => exact jobStartOf_pending h

theorem execFusionJobStart_queueKept (s : State) : QueueKept s.pending (execFusionJobStart s) := by
  simp [execFusionJobStart, queueKept_next, jobStart_pending, gated_queueKept]

theorem jobComplete_pending (s : State) : (jobComplete s).pending = s.pending := by
  simp only [jobComplete, ite_fst, ite_snd]
  (repeat' split) <;> simp only [fresh_pending', cyclesOf_pending, set_pending', jobRun_pending, jobEnd_pending]

theorem execFusionJobComplete_queueKept (s : State) : QueueKept s.pending (execFusionJobComplete s) := by
  simp [execFusionJobComplete, queueKept_next, gated_queueKept, jobComplete_pending]

theorem jobAck_pending (s : State) (j head : Nat) : (jobAck s j head).pending = s.pending := by
  simp only [jobAck, set_pending', setJobs_pending]

theorem execFusionCqAck_queueKept (s : State) (queue head : Nat) :
    QueueKept s.pending (execFusionCqAck queue head s) := by
  simp only [execFusionCqAck, queueKept_ite, ite_self, queueKept_next, gatedWrite_queueKept, jobAck_pending]

theorem jobAbort_pending (s : State) (j tag : Nat) : (jobAbort s j tag).pending = s.pending := by
  unfold jobAbort
  split <;> simp only [ite_pending, ite_self, jobEnd_pending]

theorem execFusionJobAbort_queueKept (s : State) (queue tag : Nat) :
    QueueKept s.pending (execFusionJobAbort queue tag s) := by
  simp only [execFusionJobAbort, queueKept_ite, ite_self, queueKept_next, gatedWrite_queueKept, jobAbort_pending]

theorem jobSplit_pending (s : State) (v : Nat) : (jobSplit s v).1.pending = s.pending := by
  simp only [jobSplit, ite_pending, ite_fst, ite_self, setObjN_pending', set_pending', clearAll_pending,
    setJobs_pending]

/-! Machine/ChimneyStore.lean -/

theorem chimneyCount_pending (s : State) (k : Nat) : (chimneyCount s k).pending = s.pending := queue_eq rfl

theorem chimneyEmit_pending (s : State) (m : Message) : (chimneyEmit s m).pending = s.pending := by
  simp only [chimneyEmit, chimneyCount_pending, emit_pending']

theorem chimneyDrop_pending (s : State) : (chimneyDrop s).pending = s.pending := by
  unfold chimneyDrop
  split <;> simp only [fire_pending, log_pending, chimneyCount_pending]

theorem chimneyRoom_pending (s : State) (n k : Nat) : (chimneyRoom s n k).pending = s.pending := by
  induction k generalizing s with
  | zero => rfl
  | succ k ih => simp only [chimneyRoom, ite_pending, ite_self, chimneyDrop_pending, ih]

theorem chimneySend_pending (s : State) (kind : Nat) (payload : List Byte) :
    (chimneySend s kind payload).pending = s.pending := by
  simp only [chimneySend, ite_pending, ite_self, chimneyRoom_pending, chimneyEmit_pending]

/-! Machine/ParterreMap.lean -/

theorem setTask_pending (s : State) (n : Nat) (t : Option Task) : (setTask s n t).pending = s.pending := queue_eq rfl

theorem onTask_pending (s : State) (f : Task → Task) : (onTask s f).pending = s.pending := by
  unfold onTask
  split <;> simp only [setTask_pending]

theorem capacityCheck_pending (s : State) : (capacityCheck s).pending = s.pending := by
  simp only [capacityCheck, ite_pending, ite_self, log_pending]

theorem rawLog_pending (s : State) (rec : List Byte) : (rawLog s rec).pending = s.pending := by
  simp only [rawLog, ite_pending, ite_self, onTask_pending]

theorem spreadMass_pending (s : State) (b : Time) (flow : Bool) (f dm : F32) (moist : Option F32) (pa pb : List F32) :
    (spreadMass s b flow f dm moist pa pb).pending = s.pending := by
  simp only [spreadMass, onTask_pending]

theorem massAttribution_pending (s : State) (e : Time) (mhz : Nat) (f : F32) (conf : Nat) :
    (massAttribution s e mhz f conf).pending = s.pending := by
  simp only [massAttribution, ite_pending]
  (repeat' split) <;> simp only [spreadMass_pending, capacityCheck_pending, log_pending, rawLog_pending]

theorem notePublication_pending (s : State) (q : Nat) (p : FuPub) (mhz : Nat) :
    (notePublication s q p mhz).pending = s.pending := by
  simp only [notePublication, ite_pending, ite_self, massAttribution_pending]

/-! Machine/Retain.lean -/

theorem State.keepRecord_pending (s : State) (key : Nat) (old : Rec) :
    (s.keepRecord key old).pending = s.pending := by
  simp only [keepRecord]

theorem State.setRecord_pending (s : State) (index sub : Nat) (r : Rec) :
    (s.setRecord index sub r).pending = s.pending := by
  unfold setRecord
  split <;> simp only [keepRecord_pending]

theorem State.writeRecord_pending (s : State) (index sub : Nat) (ty : ObjTy) (v : ObjVal) :
    (s.writeRecord index sub ty v).pending = s.pending := by
  unfold writeRecord
  split <;> simp only [ite_pending, ite_self, setRecord_pending]

theorem State.nodeRecordSend_pending (s : State) : (s.nodeRecordSend).pending = s.pending := by
  simp only [nodeRecordSend, ite_pending, ite_self, foldl_pending, implies_true, flueSend_pending]

theorem State.nextGeneration_pending (s : State) : (s.nextGeneration).pending = s.pending := by
  simp only [nextGeneration, nodeRecordSend_pending]

theorem State.retain_pending (s : State) (index sub : Nat) (v : ObjVal) :
    (s.retain index sub v).pending = s.pending := by
  unfold retain
  split <;> simp only [ite_pending, ite_self, writeRecord_pending, setObj_pending', nextGeneration_pending]

/-! Machine/Fusion.lean -/

theorem State.setFuSlot_pending (s : State) (k : Nat) (x : FuSlot) : (s.setFuSlot k x).pending = s.pending :=
  queue_eq rfl

theorem State.setQty_pending (s : State) (q : Nat) (x : FuQty) : (s.setQty q x).pending = s.pending := queue_eq rfl

theorem State.draws_pending (s : State) (n : Nat) : (s.draws n).2.pending = s.pending := queue_eq rfl

theorem setMask_pending (s : State) (k q : Nat) (m : FuMask) : (setMask s k q m).pending = s.pending := by
  simp only [setMask, ite_pending, ite_self, setFuSlot_pending, set_pending', put_pending']

theorem maskNow_pending (s : State) (k q cause : Nat) : (maskNow s k q cause).pending = s.pending := by
  simp only [maskNow, fire_pending, setMask_pending, log_pending]

theorem slotMask_pending (s : State) (k q cause : Nat) : (slotMask s k q cause).pending = s.pending := by
  simp only [slotMask, ite_pending, ite_self, maskNow_pending]

theorem slotUnmask_pending (s : State) (k q : Nat) : (slotUnmask s k q).pending = s.pending := by
  simp only [slotUnmask, fire_pending, setMask_pending, log_pending]

theorem dist2_pending (s : State) (q : Nat) (e : FuEst) (m : FuMeas) : (dist2 s q e m).2.pending = s.pending := by
  simp only [dist2, ite_pending, ite_snd, ite_self, fresh_pending']

theorem pairDist2_pending (s : State) (q : Nat) (a b : FuMeas) : (pairDist2 s q a b).2.pending = s.pending := by
  simp only [pairDist2, ite_pending, ite_snd, ite_self, fresh_pending']

theorem gates_pending (s : State) (q : Nat) (m : FuMeas) : (gates s q m).2.pending = s.pending := by
  unfold gates
  split <;> simp only [dist2_pending]

theorem applyMeas_pending (s : State) (q : Nat) (m : FuMeas) : (applyMeas s q m).pending = s.pending := by
  simp only [applyMeas, setQty_pending]

theorem noteGate_pending (s : State) (k q : Nat) (pass : Bool) : (noteGate s k q pass).pending = s.pending := by
  simp only [noteGate, ite_pending, ite_self, setMask_pending, slotMask_pending, count_pending']

theorem gateApply_pending (s : State) (q : Nat) (m : FuMeas) : (gateApply s q m).pending = s.pending := by
  simp only [gateApply, ite_pending, ite_self, applyMeas_pending, noteGate_pending, gates_pending]

theorem gateShadow_pending (s : State) (q : Nat) (m : FuMeas) : (gateShadow s q m).2.pending = s.pending := by
  simp only [gateShadow, ite_pending, ite_snd, ite_self, setMask_pending, slotUnmask_pending, gates_pending]

theorem foldLate_pending (s : State) (q : Nat) (m : FuMeas) (running : Bool) :
    (foldLate s q m running).pending = s.pending := by
  simp only [foldLate, ite_pending, ite_self, gateApply_pending, setQty_pending]

theorem acceptMeas_pending (s : State) (q : Nat) (m : FuMeas) : (acceptMeas s q m).pending = s.pending := by
  simp only [acceptMeas, ite_pending, ite_self, foldLate_pending, setQty_pending]

theorem sampleFor_pending (s : State) (k q : Nat) (x : Sample) (intervalNs : Nat) :
    (sampleFor s k q x intervalNs).pending = s.pending := by
  simp only [sampleFor, ite_pending, ite_self, setMask_pending, gateShadow_pending, slotMask_pending,
    acceptMeas_pending]

theorem takeSample_pending (s : State) (k : Nat) (x : Sample) (intervalNs : Nat) :
    (takeSample s k x intervalNs).pending = s.pending := by
  simp only [takeSample, ite_pending, ite_self, foldl_pending, implies_true, setFuSlot_pending, count_pending',
    sampleFor_pending]

theorem flushSlot_pending (s : State) (k : Nat) : (flushSlot s k).pending = s.pending := by
  simp only [flushSlot, ite_pending, ite_self, setFuSlot_pending, takeSample_pending]

theorem slotSample_pending (s : State) (k : Nat) (x : Sample) : (slotSample s k x).pending = s.pending := by
  unfold slotSample
  (repeat' split) <;> simp only [ite_pending, ite_self, setFuSlot_pending, takeSample_pending, flushSlot_pending]

theorem execSlotSample_queueKept (s : State) (slot : Nat) : QueueKept s.pending (execSlotSample slot s) := by
  unfold execSlotSample
  split <;> simp only [queueKept_ite, ite_self, queueKept_next, slotSample_pending, gated_queueKept]

theorem endDispute_pending (s : State) (q masked : Nat) : (endDispute s q masked).pending = s.pending := by
  unfold endDispute
  split <;> simp only [ite_pending, ite_self, foldl_pending, implies_true, fire_pending, set_pending', log_pending,
    setQty_pending, maskNow_pending]

theorem disputeEnd_pending (s : State) (q : Nat) (loser : Option Nat) :
    (disputeEnd s q loser).pending = s.pending := by
  unfold disputeEnd
  split <;> simp only [endDispute_pending, maskNow_pending]

theorem disputeBegin_pending (s : State) (q a b : Nat) (e : Time) : (disputeBegin s q a b e).pending = s.pending := by
  simp only [disputeBegin, fire_pending, set_pending', log_pending, setQty_pending, count_pending']
  split <;> simp only [draws_pending]

theorem horizon_pending (s : State) (q : Nat) (e : Time) : (horizon s q e).pending = s.pending := by
  unfold horizon
  split <;> simp only [set_pending', log_pending, setQty_pending]

theorem thirdDecides_pending (s : State) (q a b third : Nat) : (thirdDecides s q a b third).pending = s.pending := by
  simp only [thirdDecides]
  (repeat' split) <;> simp only [pairDist2_pending, maskNow_pending, disputeEnd_pending]

theorem heldEpoch_pending (s : State) (q : Nat) (ma mb : FuMeas) (e : Time) :
    (heldEpoch s q ma mb e).pending = s.pending := by
  simp only [heldEpoch, ite_pending, ite_self, pairDist2_pending, setQty_pending, disputeEnd_pending]

theorem disputeTest_pending (s : State) (q : Nat) (ma mb : FuMeas) (l : List FuMeas) :
    (disputeTest s q ma mb l).1.pending = s.pending := by
  simp only [disputeTest]
  (repeat' split) <;> simp only [applyMeas_pending, dist2_pending, disputeEnd_pending]

theorem disputeEpoch_pending (s : State) (q : Nat) (d : Time × Nat × Nat) (l : List FuMeas) (e : Time) :
    (disputeEpoch s q d l e).1.pending = s.pending := by
  simp only [disputeEpoch]
  (repeat' split) <;> simp only [disputeTest_pending, horizon_pending, thirdDecides_pending, heldEpoch_pending]

theorem pairEpoch_pending (s : State) (q : Nat) (ma mb : FuMeas) (l : List FuMeas) (g e : Time) :
    (pairEpoch s q ma mb l g e).pending = s.pending := by
  simp only [pairEpoch, ite_pending, ite_self, foldl_pending, implies_true, disputeTest_pending, applyMeas_pending,
    gateApply_pending, pairDist2_pending, disputeBegin_pending, setQty_pending]

theorem pairInterval_pending (s : State) (q a b : Nat) (l : List FuMeas) (g e : Time) :
    (pairInterval s q a b l g e).pending = s.pending := by
  simp only [pairInterval]
  split <;> simp only [ite_pending, ite_self, foldl_pending, implies_true, gateApply_pending, pairEpoch_pending]

theorem processEpoch_pending (s : State) (q : Nat) (l : List FuMeas) (e : Time) :
    (processEpoch s q l e).pending = s.pending := by
  unfold processEpoch
  split <;> simp only [ite_pending, ite_self, foldl_pending, implies_true, gateApply_pending, pairInterval_pending]

theorem staleSlots_pending (s : State) (q : Nat) (e : Time) : (staleSlots s q e).pending = s.pending := by
  simp only [staleSlots, ite_pending, ite_self, foldl_pending, implies_true, setMask_pending, slotMask_pending]

theorem resetQty_pending (s : State) (q : Nat) : (resetQty s q).pending = s.pending := by
  simp only [resetQty, ite_pending, ite_self, foldl_pending, implies_true, set_pending', log_pending, setQty_pending,
    slotUnmask_pending, disputeEnd_pending]

theorem poseFar_pending (s : State) (q : Nat) (x : List F32) : (poseFar s q x).pending = s.pending := by
  unfold poseFar
  (repeat' split) <;> simp only [ite_pending, ite_self, set_pending', log_pending]

theorem publishEst_pending (s : State) (q : Nat) (x : FuEst) (sigma : F32) (e : Time) (overrun : Bool) :
    (publishEst s q x sigma e overrun).pending = s.pending := by
  simp only [publishEst, ite_pending, ite_fst, ite_snd, ite_self, foldl_pending, implies_true, devTo_pending,
    fresh_pending', produce_pending, notePublication_pending, wr_pending', set_pending', put_pending', poseFar_pending,
    setQty_pending, deliver_pending, count_pending']

theorem freeEst_pending (s : State) (q : Nat) (e : Time) : (freeEst s q e).2.2.pending = s.pending := by
  simp only [freeEst, draws_pending]

theorem outputEst_pending (s : State) (q : Nat) (e : Time) : (outputEst s q e).2.2.pending = s.pending := by
  unfold outputEst
  (repeat' split) <;> simp only [freeEst_pending]

theorem trimHistory_pending (s : State) (q : Nat) (e : Time) : (trimHistory s q e).pending = s.pending := by
  simp only [trimHistory, setQty_pending]

theorem foldWaiting_pending (s : State) (q : Nat) : (foldWaiting s q).pending = s.pending := by
  simp only [foldWaiting, foldl_pending, implies_true, foldLate_pending, setQty_pending]

theorem fusionOverrun_pending (s : State) (q : Nat) (e : Time) : (fusionOverrun s q e).pending = s.pending := by
  simp only [fusionOverrun]
  split <;> simp only [ite_pending, ite_self, fire_pending, set_pending', log_pending, outputEst_pending,
    setQty_pending, publishEst_pending, count_pending']

theorem fusionCompute_pending (s : State) (q : Nat) (e : Time) : (fusionCompute s q e).pending = s.pending := by
  simp only [fusionCompute, ite_pending, ite_self, processEpoch_pending, outputEst_pending, setQty_pending,
    publishEst_pending, trimHistory_pending]
  split <;> simp only [staleSlots_pending, disputeEpoch_pending, setQty_pending]

theorem fusionEpoch_pending (s : State) (q : Nat) (overrun : Bool) :
    (fusionEpoch s q overrun).pending = s.pending := by
  simp only [fusionEpoch, ite_pending, ite_self, foldl_pending, implies_true, resetQty_pending, devTo_pending,
    fusionOverrun_pending, fusionCompute_pending, flushSlot_pending, foldWaiting_pending]

theorem execFusionEpoch_queueKept (s : State) (q : Nat) (overrun : Bool) :
    QueueKept s.pending (execFusionEpoch q overrun s) := by
  simp only [execFusionEpoch, queueKept_ite, ite_self, queueKept_next, fusionEpoch_pending, gated_queueKept]

theorem execDisputeHorizon_queueKept (s : State) (q : Nat) : QueueKept s.pending (execDisputeHorizon q s) := by
  simp only [execDisputeHorizon, gated_queueKept]
  (repeat' split) <;> simp only [queueKept_next, devTo_pending, horizon_pending]

theorem quantityReset_pending (s : State) (q : Nat) : (quantityReset s q).1.pending = s.pending := by
  simp only [quantityReset, ite_pending, ite_fst, ite_self, setQty_pending]

theorem slotRestart_pending (s : State) (k role : Nat) : (slotRestart s k role).pending = s.pending := by
  simp only [slotRestart, foldl_pending, implies_true, setFuSlot_pending, set_pending', clearAll_pending,
    maskNow_pending]

theorem calReset_pending (s : State) (k : Nat) : (calReset s k).pending = s.pending := by
  simp only [calReset, ite_pending, ite_self, foldl_pending, implies_true, setFuSlot_pending, setObj_pending',
    slotUnmask_pending]

theorem slotWrite_pending (s : State) (k sub : Nat) (v : ObjVal) : (slotWrite s k sub v).pending = s.pending := by
  simp only [slotWrite, ite_pending, ite_self, setFuSlot_pending, setObj_pending']

theorem slotApply_pending (s : State) : (slotApply s).pending = s.pending := by
  simp only [slotApply, ite_pending, ite_self, foldl_pending, implies_true, slotRestart_pending, calReset_pending]

theorem execSlotConfigApply_queueKept (s : State) : QueueKept s.pending (execSlotConfigApply s) := by
  simp [execSlotConfigApply, queueKept_next, devTo_pending, slotApply_pending, gated_queueKept]

theorem calMask_pending (s : State) (k : Nat) : (calMask s k).pending = s.pending := by
  simp only [calMask, ite_pending, ite_self, foldl_pending, implies_true, maskNow_pending]

/-- calUpdate's work on slot k once the time has passed and the numbers are drawn (R155). -/
def calUpdateFrom (k : Nat) (y : FuSlot) (d : List Word × State) : State :=
  let s := d.2
  let ax := axes (s.role k)
  let est := (List.range 6).map fun i => if ax.contains i then d.1.getD i 0 else 0
  let y := { y with calAt := s.now }
  match ax.find? fun i => !F32.le (F32.abs (est.getD i 0)) (axisBound i) with
  | some i =>
    ((calMask (s.setFuSlot k { y with frozen := true }) k).fire 260).log 0x0A06 (leBytes 1 k ++ leBytes 1 i)
  | none =>
    let step := fun i => F32.div (axisLimit s i) (F32.ofNat 360)
    let corr := (List.range 6).map fun i =>
      let c := y.corr.getD i 0
      if ax.contains i then F32.add c (F32.clamp (F32.sub (est.getD i 0) c) (F32.neg (step i)) (step i)) else c
    let moved := (List.range 6).any fun i =>
      !F32.lt (F32.abs (F32.sub (est.getD i 0) (y.est.getD i 0))) (F32.ofRat (if i < 3 then 1 else 20) 1000)
    if moved then s.setFuSlot k { y with corr := corr, est := est, stableAt := s.now }
    else s.setFuSlot k { y with corr := corr }

theorem calUpdate_eq (s : State) (k : Nat) :
    calUpdate s k = calUpdateFrom k (s.fuSlot k) ((s.passTo ((s.fuSlot k).calAt + sec 10)).draws 6) := by rfl

theorem calUpdateFrom_pending (k : Nat) (y : FuSlot) (d : List Word × State) :
    (calUpdateFrom k y d).pending = d.2.pending := by
  unfold calUpdateFrom
  extract_lets
  split
  · simp only [log_pending, fire_pending, calMask_pending, setFuSlot_pending]; rfl
  · simp only [ite_pending, ite_self, setFuSlot_pending]; rfl

theorem calUpdate_pending (s : State) (k : Nat) : (calUpdate s k).pending = s.pending := by
  rw [calUpdate_eq, calUpdateFrom_pending, draws_pending, passTo_pending]

theorem execCalibrationUpdate_queueKept (s : State) (slot : Nat) :
    QueueKept s.pending (execCalibrationUpdate slot s) := by
  simp only [execCalibrationUpdate, queueKept_ite, ite_self, queueKept_next, gated_queueKept, calUpdate_pending]

theorem execCalibrationStore_queueKept (s : State) (slot : Nat) :
    QueueKept s.pending (execCalibrationStore slot s) := by
  unfold execCalibrationStore
  simp only [queueKept_ite, ite_self, queueKept_next, setFuSlot_pending, retain_pending, log_pending, gated_queueKept,
    passTo_pending]

theorem fuTimeStep_pending (s : State) (step : Int) : (fuTimeStep s step).pending = s.pending := by
  simp only [fuTimeStep, fire_pending, set_pending', log_pending]

theorem fuCtrlWrite_pending (s : State) (v : Word) : (fuCtrlWrite s v).pending = s.pending := by
  simp only [fuCtrlWrite, put_pending']

/-! Machine/GhUnit.lean -/

theorem State.setGhQueue_pending (s : State) (l : List GhCmd) : (s.setGhQueue l).pending = s.pending := by
  simp only [setGhQueue, set_pending']

theorem ghAccept_pending (s : State) (c : GhCmd) (action : Nat) : (ghAccept s c action).pending = s.pending := by
  simp only [ghAccept, ite_pending, ite_self, setGhQueue_pending, set_pending', log_pending, count_pending']

theorem ghSubmit_pending (s : State) (c : GhCmd) (action : Nat) : (ghSubmit s c action).pending = s.pending := by
  simp only [ghSubmit, ite_pending, ite_self, ghAccept_pending, set_pending', count_pending']

theorem execGhCommandSubmit_queueKept (s : State) (ts issue : Nat) (value : Word) :
    QueueKept s.pending (execGhCommandSubmit ts issue value s) := by
  simp only [execGhCommandSubmit, queueKept_next, ghSubmit_pending, wr64_pending', wr_pending']

theorem ghDrive_pending (s : State) (c : GhCmd) : (ghDrive s c).pending = s.pending := by
  simp only [ghDrive, stageNow_pending]

theorem State.setSect_pending (s : State) (k : Nat) (x : Sect) : (s.setSect k x).pending = s.pending := queue_eq rfl

theorem lateReported_pending (s : State) (k : Nat) : (lateReported s k).pending = s.pending := by
  simp only [lateReported, ite_pending, ite_self, setSect_pending]

theorem execGhCommandExecute_queueKept (s : State) : QueueKept s.pending (execGhCommandExecute s) := by
  unfold execGhCommandExecute
  split <;> simp only [queueKept_ite, ite_pending, ite_self, queueKept_next, setGhQueue_pending, ghDrive_pending,
    wr64_pending', wr_pending', lateReported_pending, set_pending', log_pending, count_pending']

theorem ghRemove_pending (s : State) (p : GhCmd → Bool) (cause : Nat) : (ghRemove s p cause).pending = s.pending := by
  simp only [ghRemove, ite_pending, ite_self, setGhQueue_pending, log_pending, count_pending']

theorem ghStopFlush_pending (s : State) : (ghStopFlush s).pending = s.pending := by
  simp only [ghStopFlush, ghRemove_pending]

theorem execGhFlush_queueKept (s : State) : QueueKept s.pending (execGhFlush s) := by
  simp only [execGhFlush, queueKept_next, ghRemove_pending]

theorem ghDisable_pending (s : State) : (ghDisable s).pending = s.pending := by
  simp only [ghDisable, ghRemove_pending, set_pending']

theorem execGhDisable_queueKept (s : State) : QueueKept s.pending (execGhDisable s) := by
  simp only [execGhDisable, queueKept_next, ghDisable_pending]

theorem ghCtrlWrite_pending (s : State) (v : Word) : (ghCtrlWrite s v).pending = s.pending := by
  simp only [ghCtrlWrite, ite_pending, ite_self, ghRemove_pending, set_pending', clearAll_pending, ghDisable_pending]

theorem ghEpochWrite_pending (s : State) (v : Nat) : (ghEpochWrite s v).pending = s.pending := by
  simp only [ghEpochWrite, ite_pending, ite_self, ghRemove_pending, set_pending']

theorem execGhEpochWrite_queueKept (s : State) (v : Nat) : QueueKept s.pending (execGhEpochWrite v s) := by
  simp only [execGhEpochWrite, queueKept_ite, ite_self, queueKept_next, ghEpochWrite_pending]

theorem ghQueueStep_pending (s : State) (before : Time) : (ghQueueStep s before).pending = s.pending := by
  simp only [ghQueueStep, ite_pending, ite_self, set_pending', log_pending]

/-! Machine/DevTime.lean -/

theorem setTimeState_pending (s : State) (q : Nat) : (setTimeState s q).pending = s.pending := by
  simp only [setTimeState, ite_pending, ite_self, fire_pending, produce_pending, wr_pending', set_pending', log_pending]

theorem execTimeLocked_queueKept (s : State) : QueueKept s.pending (execTimeLocked s) := by
  simp only [execTimeLocked, queueKept_ite, ite_self, queueKept_next, devTo_pending, setTimeState_pending]

theorem execTimeHoldover_queueKept (s : State) : QueueKept s.pending (execTimeHoldover s) := by
  unfold execTimeHoldover
  (repeat' split) <;> simp only [queueKept_next, setTimeState_pending, passTo_pending]

theorem execTimeFreerun_queueKept (s : State) : QueueKept s.pending (execTimeFreerun s) := by
  simp only [execTimeFreerun, queueKept_ite, ite_self, queueKept_next, setTimeState_pending, passTo_pending]

theorem lockAfterCorrection_pending (s : State) : (lockAfterCorrection s).pending = s.pending := by
  simp only [lockAfterCorrection, ite_pending, ite_self, setTimeState_pending]

theorem slewWrite_pending (s : State) (v : Int) : (slewWrite s v).1.pending = s.pending := by
  simp only [slewWrite, ite_pending, ite_fst, ite_self, set_pending', put_pending']

theorem execSlewWrite_queueKept (s : State) (value : Word) : QueueKept s.pending (execSlewWrite value s) := by
  simp only [execSlewWrite, queueKept_next, slewWrite_pending]

theorem execSlewEnd_queueKept (s : State) : QueueKept s.pending (execSlewEnd s) := by
  simp only [execSlewEnd, queueKept_ite, ite_self, queueKept_next, elapse_pending, set_pending',
    lockAfterCorrection_pending]

theorem stepArm_pending (s : State) (amount : Int) (byWrite : Bool) :
    (stepArm s amount byWrite).1.pending = s.pending := by
  simp only [stepArm, ite_pending, ite_fst, ite_self, set_pending']

theorem execStepArm_queueKept (s : State) : QueueKept s.pending (execStepArm s) := by
  simp only [execStepArm, queueKept_next, stepArm_pending]

theorem stepCancel_pending (s : State) : (stepCancel s).pending = s.pending := by
  simp only [stepCancel, ite_pending, ite_self, set_pending']

theorem execStepCancel_queueKept (s : State) : QueueKept s.pending (execStepCancel s) := by
  simp only [execStepCancel, queueKept_next, stepCancel_pending]

theorem execStepPending_queueKept (s : State) : QueueKept s.pending (execStepPending s) := by
  simp only [execStepPending, queueKept_ite, ite_self, queueKept_next, fire_pending, devTo_pending, set_pending',
    log_pending]

theorem tpoAfterStep_pending (s : State) : (tpoAfterStep s).pending = s.pending := queue_eq rfl

theorem syncAfterStep_pending (s : State) : (syncAfterStep s).pending = s.pending := by
  refine foldl_pending (fun u x => ?_) _ s
  dsimp only
  split <;> rfl

theorem gnTimeStep_pending (s : State) (d : Int) (old : Time) : (gnTimeStep s d old).pending = s.pending := by
  simp only [gnTimeStep]

theorem timeStep_pending (s : State) : (timeStep s).pending = s.pending := by
  simp only [timeStep, ite_pending, ite_self, fire_pending, devTo_pending, fresh_pending', ghQueueStep_pending,
    setTimeState_pending, tpoAfterStep_pending, gnTimeStep_pending, set_pending', log_pending,
    lockAfterCorrection_pending, syncAfterStep_pending, fuTimeStep_pending, ceFrameStep_pending]

theorem execTimeStepExecute_queueKept (s : State) : QueueKept s.pending (execTimeStepExecute s) := by
  simp only [execTimeStepExecute, queueKept_ite, ite_self, queueKept_next, timeStep_pending]

theorem timeWrite_pending (s : State) (t : Time) : (timeWrite s t).1.pending = s.pending := by
  simp only [timeWrite, ite_pending, ite_fst, ite_self, stepArm_pending]

theorem correct_pending (s : State) (err : Int) : (correct s err).pending = s.pending := by
  simp only [correct, ite_pending, ite_self, wr64_pending', slewWrite_pending, stepArm_pending]

theorem execTpoPulse_queueKept (s : State) (k : Nat) : QueueKept s.pending (execTpoPulse k s) := by
  simp only [execTpoPulse, queueKept_ite, ite_pending, ite_self, queueKept_next, devTo_pending, produce_pending,
    emit_pending']

theorem tpoWrite_pending (s : State) (k a : Nat) (v : Word) : (tpoWrite s k a v).pending = s.pending := by
  simp only [tpoWrite, ite_pending, ite_self, plainWrite_pending]

theorem execTpiEdge_queueKept (s : State) (t : Time) : QueueKept s.pending (execTpiEdge t s) := by
  simp only [execTpiEdge, queueKept_ite, ite_self, queueKept_next, fire_pending, devTo_pending, wr64_pending',
    produce_pending, count_pending']

/-! Machine/StopUnit.lean -/

theorem stopFrameSend_pending (s : State) : (stopFrameSend s).pending = s.pending := by
  simp only [stopFrameSend, flueSend_pending]

theorem dieStopInput_pending (s : State) (k : Nat) (asserted : Bool) :
    (dieStopInput s k asserted).pending = s.pending := by
  simp only [dieStopInput, ite_pending, ite_self, foldl_pending, implies_true, stageStop_pending, setDie_pending']

theorem stopLatch_pending (s : State) (causes : Nat) : (stopLatch s causes).pending = s.pending := by
  simp only [stopLatch, fire_pending, countSat_pending, stageStop_pending, set_pending', log_pending,
    ghStopFlush_pending]

theorem stopEvaluate_pending (s : State) : (stopEvaluate s).pending = s.pending := by
  simp only [stopEvaluate, ite_pending, ite_self, stopFrameSend_pending, set_pending', stopLatch_pending]

theorem stopDiffer_pending (s : State) : (stopDiffer s).pending = s.pending := by
  simp only [stopDiffer, ite_pending, ite_self, set_pending']

theorem stopInput_pending (s : State) (k : Nat) (asserted : Bool) : (stopInput s k asserted).pending = s.pending := by
  simp only [stopInput, stopDiffer_pending, dieStopInput_pending, stopEvaluate_pending]

theorem execStopInputChange_queueKept (s : State) (k : Nat) (asserted : Bool) :
    QueueKept s.pending (execStopInputChange k asserted s) := by
  simp only [execStopInputChange, queueKept_ite, ite_pending, ite_self, queueKept_next, set_pending', stopInput_pending]

theorem execStopBandTimeout_queueKept (s : State) (k decivolt : Nat) :
    QueueKept s.pending (execStopBandTimeout k decivolt s) := by
  simp only [execStopBandTimeout, queueKept_ite, ite_self, queueKept_next, set_pending', stopInput_pending, log_pending]

theorem execStopFrameRepeat_queueKept (s : State) : QueueKept s.pending (execStopFrameRepeat s) := by
  simp only [execStopFrameRepeat, queueKept_ite, ite_self, queueKept_next, stopFrameSend_pending, passTo_pending]

theorem stopFrameTake_pending (s : State) (port : Nat) (f : FlueFrame) :
    (stopFrameTake s port f).pending = s.pending := by
  simp only [stopFrameTake, ite_pending, ite_self, flueLeave_pending, stopEvaluate_pending, count_pending']

theorem execStopFrameReceive_queueKept (s : State) (port : Nat) (frame : FlueFrame) (fcsOk : Bool) :
    QueueKept s.pending (execStopFrameReceive port frame fcsOk s) := by
  simp only [execStopFrameReceive, queueKept_ite, ite_self, queueKept_next, gated_queueKept, stopFrameTake_pending,
    count_pending']

theorem softwareStop_pending (s : State) (on : Bool) : (softwareStop s on).pending = s.pending := by
  simp only [softwareStop, stopEvaluate_pending, put_pending']

theorem execSoftwareStop_queueKept (s : State) (on : Bool) : QueueKept s.pending (execSoftwareStop on s) := by
  simp only [execSoftwareStop, queueKept_next, softwareStop_pending]

theorem execStopRemoteExpiry_queueKept (s : State) : QueueKept s.pending (execStopRemoteExpiry s) := by
  unfold execStopRemoteExpiry
  split <;> simp only [queueKept_next, stopEvaluate_pending, passTo_pending]

theorem execStopRelease_queueKept (s : State) : QueueKept s.pending (execStopRelease s) := by
  unfold execStopRelease
  split <;> simp only [queueKept_ite, ite_self, queueKept_next, fire_pending, set_pending', passTo_pending]

theorem rearm_pending (s : State) : (rearm s).1.pending = s.pending := by
  simp only [rearm, ite_pending, ite_fst, ite_self, foldl_pending, implies_true, setDie_pending', set_pending',
    log_pending]

theorem execRearm_queueKept (s : State) : QueueKept s.pending (execRearm s) := by
  simp only [execRearm, queueKept_next, rearm_pending]

theorem discrepancy_pending (s : State) (v : Stop) (b : Bool) (n : Nat) :
    ((({ s with stop := v }.set R.siStopDisc 1).fire 390).log n (d8 (if b then 0 else 1))).pending = s.pending := by
  rw [log_pending, fire_pending, set_pending']

theorem execStopDiscrepancy_queueKept (s : State) : QueueKept s.pending (execStopDiscrepancy s) := by
  unfold execStopDiscrepancy
  split
  · rfl
  · split
    · rfl
    · exact (discrepancy_pending ..).trans (passTo_pending ..)

theorem State.idle_pending (s : State) : (s.idle).pending = s.pending := by
  simp only [idle, ite_pending, ite_self, stopEvaluate_pending]

theorem siStopWrite_pending (s : State) (v : Word) : (siStopWrite s v).pending = s.pending := by
  simp only [siStopWrite, ite_pending, ite_self, softwareStop_pending, set_pending', rearm_pending]

/-! Machine/FabricCore.lean -/

theorem epochSet_pending (s : State) (e serial : Nat) : (epochSet s e serial).pending = s.pending := by
  simp only [epochSet, wr64_pending', setFab_pending, set_pending']

theorem epochRaise_pending (s : State) (e serial : Nat) : (epochRaise s e serial).pending = s.pending := by
  simp only [epochRaise, epochSet_pending, ghEpochWrite_pending, log_pending]

theorem epochReject_pending (s : State) (sender epoch kind : Nat) :
    (epochReject s sender epoch kind).pending = s.pending := by
  simp only [epochReject, ite_pending, ite_self, fire_pending, flueSend_pending, setFab_pending, log_pending,
    count_pending']

theorem epochCheck_pending (s : State) (sender serial epoch kind : Nat) :
    (epochCheck s sender serial epoch kind).1.pending = s.pending := by
  simp only [epochCheck, ite_pending, ite_fst, ite_self, epochRaise_pending, epochReject_pending]

theorem heard_pending (s : State) (serial : Nat) : (heard s serial).pending = s.pending := by
  simp only [heard, ite_pending, ite_self, setFab_pending]

theorem nodeLost_pending (s : State) (id : Nat) (n : Node) : (nodeLost s id n).pending = s.pending := by
  simp only [nodeLost, fire_pending, log_pending, setNode_pending]

theorem sendAssign_pending (s : State) (id : Nat) (n : Node) : (sendAssign s id n).pending = s.pending := by
  simp only [sendAssign, flueAsk_pending]

theorem sendTopo_pending (s : State) (id : Nat) (n : Node) : (sendTopo s id n).pending = s.pending := by
  simp only [sendTopo, flueAsk_pending]

theorem nodeDeep_pending (s : State) (id : Nat) (n : Node) : (nodeDeep s id n).pending = s.pending := by
  simp only [nodeDeep, log_pending, setNode_pending]

theorem repath_pending (s : State) (rs : List Reach) (e : Nat × Option Node) :
    (repath rs s e).pending = s.pending := by
  unfold repath
  (repeat' split) <;> simp only [ite_pending, ite_self, fire_pending, sendTopo_pending, nodeDeep_pending, log_pending,
    nodeLost_pending, sendAssign_pending, setNode_pending]

theorem recompute_pending (s : State) : (recompute s).pending = s.pending := by
  simp only [recompute, foldl_pending, implies_true, repath_pending]

theorem blockEnds_pending (s : State) (l : Link) (on : Bool) : (blockEnds s l on).pending = s.pending := by
  simp only [blockEnds, ite_pending, ite_self, set_pending']

theorem ringFound_pending (s : State) (l : Link) : (ringFound s l).pending = s.pending := by
  simp only [ringFound, setFab_pending, set_pending', blockEnds_pending]

theorem ringHeal_pending (s : State) (broken : Option Link) (micros : Nat) :
    (ringHeal s broken micros).pending = s.pending := by
  unfold ringHeal
  split <;> simp only [fire_pending, setFab_pending, set_pending', log_pending, blockEnds_pending, count_pending',
    recompute_pending]

theorem linkLost_pending (s : State) (l : Link) : (linkLost s l).pending = s.pending := by
  simp only [linkLost, ite_pending, ite_self, setFab_pending, set_pending', recompute_pending, ringHeal_pending]

theorem syncMaster_pending (s : State) : (syncMaster s).pending = s.pending := by
  unfold syncMaster
  split <;> simp only [set_pending']

theorem portLink_pending (s : State) (p : Nat) (up : Bool) (sqi : Nat) (preempt : Bool) :
    (portLink s p up sqi preempt).pending = s.pending := by
  simp only [portLink, ite_pending, ite_self, fire_pending, flueSend_pending, setFab_pending, set_pending',
    log_pending, put_pending', count_pending']
  (repeat' split) <;> simp only [fire_pending, setFab_pending, set_pending', log_pending, put_pending', count_pending',
    linkLost_pending]

/-! Machine/Gatehouse.lean -/

theorem sectSend_pending (s : State) (k : Nat) (t ts : Time) (action : Nat) :
    (sectSend s k t ts action).pending = s.pending := by
  simp only [sectSend, ite_pending, ite_self, ghSubmit_pending, flueSend_pending]

theorem sectCommand_pending (s : State) (k : Nat) (t ts : Time) (on byMode : Bool) :
    (sectCommand s k t ts on byMode).pending = s.pending := by
  simp only [sectCommand, sectSend_pending, setSect_pending]

theorem sectWithdraw_pending (s : State) (k : Nat) (t : Time) : (sectWithdraw s k t).pending = s.pending := by
  simp only [sectWithdraw, sectSend_pending, setSect_pending]

theorem sectDecide_pending (s : State) (k : Nat) (m : Motion) (t : Time) :
    (sectDecide s k m t).pending = s.pending := by
  unfold sectDecide
  extract_lets x nxt lat look
  rw [ite_pending]
  split
  · rfl
  · split <;> simp only [ite_pending, ite_self, sectCommand_pending, sectWithdraw_pending]

theorem sectUnsend_pending (s : State) (p : Nat → Bool) : (sectUnsend s p).pending = s.pending := by
  simp only [sectUnsend, foldl_pending, implies_true, setSect_pending]

theorem sectResend_pending (s : State) (t : Time) : (sectResend s t).pending = s.pending := by
  unfold sectResend
  split
  · rfl
  · refine foldl_pending (fun u x => ?_) _ _
    (repeat' split) <;> simp only [sectCommand_pending]

theorem sectCover_pending (s : State) (pose : List F32) (t : Time) : (sectCover s pose t).pending = s.pending := by
  simp only [sectCover, ite_pending, ite_self, foldl_pending, implies_true, onTask_pending]

theorem sectFall_pending (s : State) (k : Nat) (t : Time) : (sectFall s k t).pending = s.pending := by
  unfold sectFall
  split <;> simp only [ite_pending, ite_self, sectCommand_pending, sectWithdraw_pending]

theorem sectFallback_pending (s : State) (t : Time) : (sectFallback s t).pending = s.pending := by
  unfold sectFallback
  split <;> simp only [foldl_pending, implies_true, sectFall_pending, log_pending]

theorem gateTick_pending (s : State) (t : Time) : (gateTick s t).pending = s.pending := by
  simp only [gateTick, sectResend_pending, sectUnsend_pending]
  split <;> simp only [ite_pending, ite_self, foldl_pending, implies_true, sectFallback_pending, sectDecide_pending,
    sectCover_pending, sectUnsend_pending]

theorem execGatehouseTick_queueKept (s : State) : QueueKept s.pending (execGatehouseTick s) := by
  simp only [execGatehouseTick, ite_pending, ite_self, queueKept_next, devTo_pending, gateTick_pending,
    whenRt_queueKept]

theorem sectionMode_pending (s : State) (k v : Nat) : (sectionMode s k v).1.pending = s.pending := by
  simp only [sectionMode, ite_pending, ite_fst, setObjN_pending', sectFall_pending]
  (repeat' split) <;> simp only [sectCommand_pending, setObjN_pending']

/-! Machine/Gnss.lean -/

theorem setGn_pending (s : State) (g : Gnss) : (setGn s g).pending = s.pending := queue_eq rfl

theorem execAntennaShort_queueKept (s : State) (milliamp : Nat) :
    QueueKept s.pending (execAntennaShort milliamp s) := by
  simp only [execAntennaShort, queueKept_ite, ite_self, queueKept_next, fire_pending, set_pending', log_pending,
    setGn_pending]

theorem execAntennaRetry_queueKept (s : State) (limits : Bool) : QueueKept s.pending (execAntennaRetry limits s) := by
  simp only [execAntennaRetry, queueKept_ite, ite_pending, ite_self, queueKept_next, set_pending', setGn_pending,
    passTo_pending]

theorem execAntennaOpen_queueKept (s : State) (milliamp : Nat) :
    QueueKept s.pending (execAntennaOpen milliamp s) := by
  simp only [execAntennaOpen, queueKept_ite, ite_self, queueKept_next, set_pending', log_pending]

theorem agcReport_pending (s : State) (gains : List Nat) : (agcReport s gains).pending = s.pending := by
  simp only [agcReport, set_pending']

theorem antennaClear_pending (s : State) : (antennaClear s).pending = s.pending := by
  simp only [antennaClear, set_pending', setGn_pending]

theorem execAntennaClear_queueKept (s : State) : QueueKept s.pending (execAntennaClear s) := by
  simp only [execAntennaClear, queueKept_next, antennaClear_pending]

theorem acqWrite_pending (s : State) (v : Word) : (acqWrite s v).pending = s.pending := by
  simp only [acqWrite, ite_pending, ite_self, set_pending', setGn_pending, plainWrite_pending]

theorem execAcqGo_queueKept (s : State) (value : Word) : QueueKept s.pending (execAcqGo value s) := by
  simp [execAcqGo, gatedWrite_queueKept, acqWrite_pending]

theorem execAcqDone_queueKept (s : State) (codePhase : Nat) (doppler : Word) (peak : Nat) (t : Time) :
    QueueKept s.pending (execAcqDone codePhase doppler peak t s) := by
  simp only [execAcqDone, queueKept_ite, ite_self, queueKept_next, fire_pending, devTo_pending, wr64_pending',
    wr_pending', set_pending', gated_queueKept]

theorem State.setGnCh_pending (s : State) (n : Nat) (x : GnCh) : (s.setGnCh n x).pending = s.pending := queue_eq rfl

theorem channelEnable_pending (s : State) (n : Nat) : (channelEnable s n).1.pending = s.pending := by
  simp only [channelEnable, ite_pending, ite_fst, ite_self, set_pending', setGnCh_pending]

theorem execChannelEnable_queueKept (s : State) (n : Nat) : QueueKept s.pending (execChannelEnable n s) := by
  simp only [execChannelEnable, queueKept_ite, ite_self, queueKept_next, gatedField_queueKept, channelEnable_pending]

theorem channelDisable_pending (s : State) (n : Nat) : (channelDisable s n).pending = s.pending := by
  simp only [channelDisable, set_pending']

theorem execChannelDisable_queueKept (s : State) (n : Nat) : QueueKept s.pending (execChannelDisable n s) := by
  simp only [execChannelDisable, queueKept_ite, ite_self, queueKept_next, channelDisable_pending, gatedField_queueKept]

theorem channelWrite_pending (s : State) (n : Nat) (v : Word) : (channelWrite s n v).pending = s.pending := by
  simp only [channelWrite, ite_pending, ite_self, channelDisable_pending, wr_pending', set_pending', put_pending',
    channelEnable_pending]

theorem phaseRegs_pending (s : State) (frac whole carLo len code : Nat) (carr : Int) :
    (phaseRegs s frac whole carLo len code carr).pending = s.pending := by
  simp only [phaseRegs, wr64_pending', wr_pending']

theorem channelDump_pending (s : State) (n : Nat) (t : Time) (data pilot : List Word) :
    (channelDump s n t data pilot).pending = s.pending := by
  unfold channelDump
  simp only [ite_pending, ite_self, foldl_pending, implies_true, devTo_pending, wr64_pending', wr_pending',
    set_pending', phaseRegs_pending, setGn_pending, count_pending', setGnCh_pending]

theorem execChannelDump_queueKept (s : State) (n : Nat) (t : Time) (data pilot : List Word) :
    QueueKept s.pending (execChannelDump n t data pilot s) := by
  simp only [execChannelDump, queueKept_ite, ite_self, queueKept_next, channelDump_pending, gated_queueKept]

theorem execDumpInterrupt_queueKept (s : State) : QueueKept s.pending (execDumpInterrupt s) := by
  simp only [execDumpInterrupt, queueKept_ite, ite_self, queueKept_next, fire_pending, devTo_pending, gated_queueKept,
    setGn_pending]

theorem ncoCommit_pending (s : State) (n slip : Nat) : (ncoCommit s n slip).pending = s.pending := by
  simp only [ncoCommit, setGnCh_pending]

theorem execNcoCommit_queueKept (s : State) (n slip : Nat) : QueueKept s.pending (execNcoCommit n slip s) := by
  simp only [execNcoCommit, queueKept_ite, ite_self, queueKept_next, gatedWrite_queueKept, ncoCommit_pending]

theorem dumpAck_pending (s : State) (n seq : Nat) : (dumpAck s n seq).pending = s.pending := by
  simp only [dumpAck, ite_pending, ite_self, setGnCh_pending]

theorem execDumpAck_queueKept (s : State) (n seq : Nat) : QueueKept s.pending (execDumpAck n seq s) := by
  simp only [execDumpAck, queueKept_ite, ite_self, queueKept_next, dumpAck_pending, gatedWrite_queueKept]

theorem latchChannel_pending (s : State) (n : Nat) : (latchChannel s n).pending = s.pending := by
  simp only [latchChannel, wr_pending', phaseRegs_pending]

theorem execMeasLatch_queueKept (s : State) : QueueKept s.pending (execMeasLatch s) := by
  simp only [execMeasLatch, queueKept_ite, ite_self, foldl_pending, implies_true, queueKept_next, fire_pending,
    latchChannel_pending, devTo_pending, gated_queueKept, setGn_pending, count_pending']

theorem utcUpdate_pending (s : State) (utc : Option (Nat × Nat)) : (utcUpdate s utc).pending = s.pending := by
  unfold utcUpdate
  split <;> simp only [ite_pending, ite_self, setObjN_pending', log_pending]

theorem execNavMessage_queueKept (s : State) (sig prn typ : Nat) (t : Time) (len : Nat) (data : List Byte)
    (passed : Bool) (utc : Option (Nat × Nat)) :
    QueueKept s.pending (execNavMessage sig prn typ t len data passed utc s) := by
  simp only [execNavMessage, queueKept_ite, ite_self, queueKept_next, fire_pending, mwr_pending', gated_queueKept,
    setGn_pending, utcUpdate_pending]

theorem corrCount_pending (s : State) (k : Nat) : (corrCount s k).pending = s.pending := by
  simp only [corrCount, setGn_pending]

theorem rtcmUse_pending (s : State) (typ : Nat) (l : List Byte) : (rtcmUse s typ l).pending = s.pending := by
  unfold rtcmUse
  split <;> simp only [ite_pending, ite_self, setGn_pending]

theorem rtcmFrame_pending (s : State) (source : Nat) (l : List Byte) :
    (rtcmFrame s source l).pending = s.pending := by
  simp only [rtcmFrame, ite_pending, ite_self, rtcmUse_pending, flueSend_pending, corrCount_pending, setGn_pending]

theorem rtcmForward_pending (s : State) (source : Nat) (l : List Byte) :
    (rtcmForward s source l).pending = s.pending := by
  simp only [rtcmForward, ite_pending, ite_self, flueSend_pending]

theorem rtcmStream_pending (s : State) (k : Nat) (l : List Byte) : (rtcmStream k s l).pending = s.pending := by
  induction k generalizing s l with
  | zero => rfl
  | succ k ih => simp only [rtcmStream, ite_pending, ite_self, rtcmFrame_pending, setGn_pending, rtcmForward_pending,
    ih]

theorem canCorrection_pending (s : State) (c : Nat) (x : CanFrame) : (canCorrection s c x).pending = s.pending := by
  simp only [canCorrection, ite_pending, ite_self, rtcmStream_pending]

theorem execRtcmFrame_queueKept (s : State) (source : Nat) (bytes : List Byte) :
    QueueKept s.pending (execRtcmFrame source bytes s) := by
  simp [execRtcmFrame, queueKept_next, rtcmFrame_pending, whenApp_queueKept, rtcmForward_pending]

theorem execCorrectionsOld_queueKept (s : State) : QueueKept s.pending (execCorrectionsOld s) := by
  simp only [execCorrectionsOld, queueKept_ite, ite_self, queueKept_next, log_pending, setGn_pending, passTo_pending,
    whenApp_queueKept]

theorem exclude_pending (s : State) (f : Nat × Nat × Nat) : (exclude s f).pending = s.pending := by
  simp only [exclude, ite_pending, ite_self, fire_pending, log_pending, setGn_pending]

theorem readmit_pending (s : State) : (readmit s).pending = s.pending := by
  simp only [readmit, foldl_pending, implies_true, log_pending, setGn_pending]

theorem clockChecks_pending (s : State) (drift : Nat) (jump : Int) (signalsPass : Bool) :
    (clockChecks s drift jump signalsPass).pending = s.pending := by
  simp only [clockChecks, ite_pending]
  (repeat' split) <;> simp only [log_pending, setGn_pending, correct_pending]

theorem clockBreak_pending (s : State) : (clockBreak s).pending = s.pending := by
  simp only [clockBreak, setGn_pending]

theorem discipline_pending (s : State) (err : Int) (sigmaClock : Nat) :
    (discipline s err sigmaClock).pending = s.pending := by
  unfold discipline
  split <;> simp only [ite_pending, ite_self, draws_pending, setObj_pending', wr_pending', correct_pending]

theorem firstOrigin_pending (s : State) (place : Nat × Nat × Nat) : (firstOrigin s place).pending = s.pending := by
  simp only [firstOrigin, ite_pending, ite_self, retain_pending, setGn_pending]

theorem positionFix_pending (s : State) (t : Time) (fix : Nat) (seen : GnObs) (place : Nat × Nat × Nat)
    (sigmas velocity : List F32) (residuals : List (Nat × Nat × F32)) (drift : Nat) (jump err : Int)
    (sigmaClock : Nat) :
    (positionFix s t fix seen place sigmas velocity residuals drift jump err sigmaClock).pending = s.pending := by
  simp only [positionFix, ite_pending, ite_self, foldl_pending, implies_true, clockBreak_pending, readmit_pending,
    firstOrigin_pending, produce_pending, exclude_pending, log_pending, discipline_pending, clockChecks_pending,
    setGn_pending, deliver_pending]

theorem execPositionFix_queueKept (s : State) (fix : Nat) (seen : GnObs) (place : Nat × Nat × Nat)
    (sigmas velocity : List F32) (residuals : List (Nat × Nat × F32)) (drift : Nat) (jump err : Int)
    (sigmaClock : Nat) :
    QueueKept s.pending (execPositionFix fix seen place sigmas velocity residuals drift jump err sigmaClock s) := by
  simp only [execPositionFix, queueKept_ite, queueKept_next, gated_queueKept, agcReport_pending, setGn_pending]
  (repeat' split) <;> simp only [queueKept_next, positionFix_pending, agcReport_pending, setGn_pending]

theorem measRateWrite_pending (s : State) (v : Nat) : (measRateWrite s v).1.pending = s.pending := by
  simp only [measRateWrite, ite_pending, ite_fst, ite_self, set_pending']

theorem clearOrbits_pending (s : State) : (clearOrbits s).1.pending = s.pending := by
  simp only [clearOrbits, setGn_pending]

theorem basebandOff_pending (s : State) : (basebandOff s).pending = s.pending := by
  simp only [basebandOff, foldl_pending, implies_true, channelDisable_pending, set_pending']

theorem gnCtrlWrite_pending (s : State) (v : Word) : (gnCtrlWrite s v).pending = s.pending := by
  simp only [gnCtrlWrite, ite_pending, ite_self, wr_pending', antennaClear_pending, basebandOff_pending,
    plainWrite_pending]

theorem fadjWrite_pending (s : State) (v : Word) : (fadjWrite s v).pending = s.pending := by
  simp only [fadjWrite, ite_pending, ite_self, plainWrite_pending]

theorem spacingWrite_pending (s : State) (n : Nat) (v : Word) : (spacingWrite s n v).pending = s.pending := by
  simp only [spacingWrite, ite_pending, ite_self, plainWrite_pending]

theorem modelWrite_pending (s : State) (l : List Byte) : (modelWrite s l).pending = s.pending := by
  simp only [modelWrite, ite_pending, ite_self, setObj_pending']

/-! Machine/Message.lean -/

theorem State.setDict_pending (s : State) (x : Service) : (s.setDict x).pending = s.pending := queue_eq rfl

theorem canMessage_pending (s : State) (c dst : Nat) (tag : Option Nat) (bytes : List Byte) :
    (canMessage s c dst tag bytes).pending = s.pending := by
  simp only [canMessage, setCan_pending, canPump_pending]

theorem dictChecker_pending (s : State) : (dictChecker s).pending = s.pending := by
  simp only [dictChecker, set_pending']

theorem fabricAlive_pending (s : State) (peer alive : Nat) : (fabricAlive s peer alive).2.pending = s.pending := by
  simp only [fabricAlive, peerContext_pending]
  split <;> simp only [aliveCheck_pending, dictChecker_pending, peerContext_pending]

theorem remoteSend_pending (s : State) (slot : Option Nat) (peer op tag index sub typ aux : Nat) (data : List Byte) :
    (remoteSend s slot peer op tag index sub typ aux data).1.pending = s.pending := by
  simp only [remoteSend, ite_pending, ite_fst]
  (repeat' split) <;> simp only [canMessage_pending, flueAsk_pending, setDict_pending, peerContext_pending]

theorem nodeAsk_pending (s : State) (node op index sub typ aux : Nat) (data : List Byte) :
    (nodeAsk s node op index sub typ aux data).pending = s.pending := by
  simp only [nodeAsk, remoteSend_pending]

/-! Machine/Security.lean -/

theorem State.setSec_pending (s : State) (x : Sec) : (s.setSec x).pending = s.pending := queue_eq rfl

theorem secRefuse_pending (s : State) (kind cause : Nat) : (secRefuse s kind cause).1.pending = s.pending := by
  simp only [secRefuse, log_pending, count_pending']

theorem challengeRead_pending (s : State) : (challengeRead s).2.pending = s.pending := by
  simp only [challengeRead, setSec_pending, drawBytes_pending]

theorem debugClose_pending (s : State) (cause : Nat) : (debugClose s cause).pending = s.pending := by
  simp only [debugClose, ite_pending, ite_self, setSec_pending, set_pending', log_pending]

theorem debugOpen_pending (s : State) (mask minutes : Nat) : (debugOpen s mask minutes).pending = s.pending := by
  simp only [debugOpen, setSec_pending, set_pending', log_pending, count_pending']

theorem execDebugExpiry_queueKept (s : State) : QueueKept s.pending (execDebugExpiry s) := by
  unfold execDebugExpiry
  split <;> simp only [queueKept_next, debugClose_pending, passTo_pending]

theorem execDebugDatagram_queueKept (s : State) (seq op reg : Nat) (data : Word) :
    QueueKept s.pending (execDebugDatagram seq op reg data s) := by
  simp only [execDebugDatagram, queueKept_ite, ite_self, queueKept_next, fresh_pending', emit_pending']

theorem transition_pending (s : State) (to_ : Nat) : (transition s to_).1.pending = s.pending := by
  simp only [transition, ite_pending, ite_fst, ite_self, debugClose_pending, setSec_pending, set_pending',
    resetDue_pending]

theorem transitionRequest_pending (s : State) (v : Nat) : (transitionRequest s v).1.pending = s.pending := by
  simp only [transitionRequest, ite_pending, ite_fst, ite_self, secRefuse_pending, transition_pending]

theorem slotRevoke_pending (s : State) (k : Nat) : (slotRevoke s k).pending = s.pending := by
  simp only [slotRevoke, set_pending', log_pending]

theorem tokenWrite_pending (s : State) (l : List Byte) : (tokenWrite s l).1.pending = s.pending := by
  simp only [tokenWrite, ite_pending, ite_fst, secRefuse_pending, setSec_pending]
  (repeat' split) <;> simp only [setSec_pending, debugOpen_pending, slotRevoke_pending, transition_pending,
    count_pending']

theorem serialStaging_pending (s : State) (n : Nat) : (serialStaging s n).1.pending = s.pending := by
  simp only [serialStaging, ite_pending, ite_fst, ite_self, setSec_pending]

theorem slotHashWrite_pending (s : State) (l : List Byte) : (slotHashWrite s l).1.pending = s.pending := by
  simp only [slotHashWrite, ite_pending, ite_fst, ite_self, setSec_pending, set_pending', log_pending]

theorem slotKeyWrite_pending (s : State) (l : List Byte) : (slotKeyWrite s l).1.pending = s.pending := by
  simp only [slotKeyWrite, ite_pending, ite_fst, ite_self, setSec_pending, set_pending', log_pending]

/-! Machine/Storage.lean -/

theorem State.setStorage_pending (s : State) (q : TagQueue) : (s.setStorage q).pending = s.pending := by
  simp only [setStorage, set_pending']

theorem flashPut_pending (s : State) (key : Nat) (b : FlashBlock) (through : Bool) :
    (flashPut s key b through).pending = s.pending := by
  simp only [flashPut]

theorem flashFlush_pending (s : State) : (flashFlush s).pending = s.pending := queue_eq rfl

theorem flashCut_pending (s : State) : (flashCut s).pending = s.pending := by
  simp only [flashCut, ite_pending, ite_self, foldl_pending, implies_true, fresh_pending', flashFlush_pending]

theorem cryptoErase_pending (s : State) (parts : List Nat) : (cryptoErase s parts).pending = s.pending := by
  simp only [cryptoErase, foldl_pending, implies_true]

theorem stReadBlocks_pending (s : State) (part k l m : Nat) : (stReadBlocks part k l m s).2.pending = s.pending := by
  induction k generalizing l m s with
  | zero => rfl
  | succ k ih => simp only [stReadBlocks, ite_pending, ite_snd, ite_self, busStore_pending, ih]

theorem stWriteBlocks_pending (s : State) (part : Nat) (through : Bool) (k l m : Nat) :
    (stWriteBlocks part through k l m s).2.pending = s.pending := by
  induction k generalizing l m s with
  | zero => rfl
  | succ k ih => simp only [stWriteBlocks, ite_pending, ite_snd, ite_self, busRead_pending, flashPut_pending, ih]

theorem stTrimBlocks_pending (s : State) (part k l : Nat) : (stTrimBlocks part k l s).pending = s.pending := by
  induction k generalizing l s with
  | zero => rfl
  | succ k ih => simp only [stTrimBlocks, flashPut_pending, ih]

theorem stRun_pending (s : State) (d : List Byte) : (stRun s d).2.pending = s.pending := by
  simp only [stRun, ite_pending, ite_snd, ite_self, flashFlush_pending, stWriteBlocks_pending, stTrimBlocks_pending,
    stReadBlocks_pending]

theorem stStartAll_pending (s : State) (k : Nat) : (stStartAll k s).pending = s.pending := by
  induction k generalizing s with
  | zero => rfl
  | succ k ih =>
    unfold stStartAll
    (repeat' split) <;> simp only [setStorage_pending, emit_pending', ih]

theorem stStart_pending (s : State) : (stStart s).pending = s.pending := by
  simp only [stStart, stStartAll_pending]

theorem stEnd_pending (s : State) (o : TagOp) (status : Nat) : (stEnd s o status).pending = s.pending := by
  simp only [stEnd, ite_pending, ite_self, fire_pending, stStart_pending, putCompletion_pending, log_pending,
    setStorage_pending]

theorem stSubmit_pending (s : State) (writer : Nat) (v : Word) : (stSubmit s writer v).pending = s.pending := by
  simp only [stSubmit, ite_pending, ite_fst, ite_snd, ite_self, stStart_pending, set_pending', readDescriptor_pending,
    setStorage_pending]

theorem execStorageSubmit_queueKept (s : State) (writer : Nat) (value : Word) :
    QueueKept s.pending (execStorageSubmit writer value s) := by
  simp [execStorageSubmit, stSubmit_pending, gatedWrite_queueKept]

theorem stComplete_pending (s : State) (tag : Nat) (media : Bool) : (stComplete s tag media).pending = s.pending := by
  unfold stComplete
  split <;> simp only [ite_pending, ite_self, stEnd_pending, stRun_pending, count_pending']

theorem execStorageComplete_queueKept (s : State) (tag : Nat) (media : Bool) :
    QueueKept s.pending (execStorageComplete tag media s) := by
  simp [execStorageComplete, queueKept_next, gated_queueKept, stComplete_pending]

theorem stTimeout_pending (s : State) (tag : Nat) : (stTimeout s tag).pending = s.pending := by
  unfold stTimeout
  split <;> simp only [ite_pending, ite_self, stEnd_pending, passTo_pending]

theorem execStorageTimeout_queueKept (s : State) (tag : Nat) : QueueKept s.pending (execStorageTimeout tag s) := by
  simp only [execStorageTimeout, queueKept_next, stTimeout_pending]

theorem stAck_pending (s : State) (head : Nat) : (stAck s head).pending = s.pending := by
  simp only [stAck, set_pending', setStorage_pending]

theorem execStorageCqAck_queueKept (s : State) (head : Nat) : QueueKept s.pending (execStorageCqAck head s) := by
  simp [execStorageCqAck, gatedWrite_queueKept, stAck_pending]

theorem stAbort_pending (s : State) (tag : Nat) : (stAbort s tag).pending = s.pending := by
  unfold stAbort
  split <;> simp only [ite_pending, ite_self, stEnd_pending]

theorem execStorageAbort_queueKept (s : State) (tag : Nat) : QueueKept s.pending (execStorageAbort tag s) := by
  simp [execStorageAbort, stAbort_pending, gatedWrite_queueKept]

theorem flashLifetime_pending (s : State) (percent : Nat) : (flashLifetime s percent).pending = s.pending := by
  simp only [flashLifetime, ite_pending, ite_self, fire_pending, log_pending]

theorem execFlashLifetimeCheck_queueKept (s : State) (percent : Nat) :
    QueueKept s.pending (execFlashLifetimeCheck percent s) := by
  simp only [execFlashLifetimeCheck, queueKept_next, flashLifetime_pending]

theorem scrub_pending (s : State) (addr errors : Nat) : (scrub s addr errors).pending = s.pending := by
  simp only [scrub, ite_pending, ite_self, dramCorrected_pending, wr_pending', set_pending', dramUncorrectable_pending]

theorem execScrubRead_queueKept (s : State) (addr errors : Nat) :
    QueueKept s.pending (execScrubRead addr errors s) := by
  simp only [execScrubRead, queueKept_next, scrub_pending]

theorem clearRetirement_pending (s : State) : (clearRetirement s).1.pending = s.pending := by
  simp only [clearRetirement, ite_pending, ite_fst, ite_self]

theorem integrityWrite_pending (s : State) (sub value : Nat) :
    (integrityWrite s sub value).1.pending = s.pending := by
  simp only [integrityWrite, ite_pending, ite_fst, ite_self, setObjN_pending', log_pending]

/-! Machine/Update.lean -/

theorem State.setUpd_pending (s : State) (x : Update) : (s.setUpd x).pending = s.pending := queue_eq rfl

theorem State.setImg_pending (s : State) (t : Nat) (x : ImgType) : (s.setImg t x).pending = s.pending := by
  simp only [setImg, setUpd_pending]

theorem setImgState_pending (s : State) (t v : Nat) : (setImgState s t v).pending = s.pending := by
  simp only [setImgState, set_pending']

theorem setRelayNode_pending (s : State) (id : Nat) (f : RelayNode → RelayNode) :
    (setRelayNode s id f).pending = s.pending := by
  simp only [setRelayNode, setUpd_pending]

theorem setDown_pending (s : State) (t p : Nat) (d : Downstream) : (setDown s t p d).pending = s.pending := by
  simp only [setDown, setUpd_pending]

theorem fragmentSend_pending (s : State) (t p offset len : Nat) :
    (fragmentSend s t p offset len).pending = s.pending := by
  simp only [fragmentSend, flueAskBy_pending]

theorem relaySend_pending (s : State) (t p k : Nat) : (relaySend t p k s).pending = s.pending := by
  induction k generalizing s with
  | zero => rfl
  | succ k ih => simp only [relaySend, ite_pending, ite_self, setDown_pending, fragmentSend_pending, ih]

theorem relayForward_pending (s : State) (t : Nat) : (relayForward s t).pending = s.pending := by
  simp only [relayForward, ite_pending, ite_self, foldl_pending, implies_true, relaySend_pending]

theorem relayHalt_pending (s : State) (cause id : Nat) : (relayHalt s cause id).pending = s.pending := by
  simp only [relayHalt, set_pending', log_pending, setUpd_pending]

theorem relayAnswer_pending (s : State) (t p status received : Nat) :
    (relayAnswer s t p status received).pending = s.pending := by
  unfold relayAnswer
  split <;> simp only [ite_pending, ite_self, setFab_pending, setDown_pending, relaySend_pending, setRelayNode_pending]

theorem relayTimeout_pending (s : State) (t p : Nat) : (relayTimeout s t p).pending = s.pending := by
  simp only [relayTimeout, ite_pending, ite_self, setFab_pending, setDown_pending, log_pending, setRelayNode_pending]

theorem execRelayNeighbourResume_queueKept (s : State) (t p received : Nat) :
    QueueKept s.pending (execRelayNeighbourResume t p received s) := by
  simp only [execRelayNeighbourResume, gated_queueKept]
  (repeat' split) <;> simp only [queueKept_next, setDown_pending, passTo_pending, relaySend_pending]

theorem imageRefuse_pending (s : State) (t cause : Nat) : (imageRefuse s t cause).pending = s.pending := by
  simp only [imageRefuse, wr64_pending', wr_pending', setImgState_pending, setImg_pending, set_pending', log_pending,
    count_pending']

theorem slotStore_pending (s : State) (t a b : Nat) : (slotStore s t a b).pending = s.pending := by
  simp only [slotStore, foldl_pending, implies_true, flashPut_pending]

theorem chunksTake_pending (s : State) (t k : Nat) : (chunksTake t k s).1.pending = s.pending := by
  induction k generalizing s with
  | zero => rfl
  | succ k ih => simp only [chunksTake, ite_pending, ite_fst, ite_self, setImg_pending, slotStore_pending, ih]

theorem imageChecks_pending (s : State) (t n : Nat) : (imageChecks s t n).1.pending = s.pending := by
  simp only [imageChecks, ite_pending, ite_fst, ite_self, wr64_pending', chunksTake_pending]

theorem imageGrow_pending (s : State) (t : Nat) (data : List Byte) : (imageGrow s t data).1.pending = s.pending := by
  simp only [imageGrow, ite_pending, ite_fst, ite_self, imageChecks_pending, wr_pending', setImgState_pending,
    setImg_pending, log_pending, relayForward_pending, imageRefuse_pending, count_pending']

theorem intakeFragment_pending (s : State) (source : Nat) (l : List Byte) :
    (intakeFragment s source l).1.pending = s.pending := by
  simp only [intakeFragment, ite_pending, ite_fst, ite_self, setImgState_pending, setImg_pending, log_pending,
    imageGrow_pending]

theorem intakeCut_pending (s : State) : (intakeCut s).pending = s.pending := by
  simp only [intakeCut, foldl_pending, implies_true, wr_pending', setImg_pending]

theorem nodeWrite_pending (s : State) (id sub v : Nat) : (nodeWrite s id sub v).pending = s.pending := by
  simp only [nodeWrite, nodeAsk_pending]

theorem updateAbort_pending (s : State) (t : Nat) : (updateAbort s t).1.pending = s.pending := by
  simp only [updateAbort, ite_pending, ite_fst, ite_self, foldl_pending, implies_true, nodeWrite_pending,
    wr64_pending', wr_pending', setImgState_pending, setImg_pending, relayHalt_pending, log_pending, setUpd_pending]

theorem slotSwap_pending (s : State) (t : Nat) : (slotSwap s t).pending = s.pending := by
  simp only [slotSwap, wr64_pending', setImg_pending, set_pending']

theorem activate_pending (s : State) (t : Nat) : (activate s t).1.pending = s.pending := by
  simp only [activate, ite_pending, ite_fst]
  (repeat' split) <;> simp only [setImgState_pending, setImg_pending, log_pending, slotSwap_pending, resetDue_pending,
    count_pending']

theorem relayRequest_pending (s : State) (t : Nat) (seen : List (Nat × Nat)) :
    (relayRequest s t seen).1.pending = s.pending := by
  simp only [relayRequest, ite_pending, ite_fst]
  (repeat' split) <;> simp only [set_pending', log_pending, relayForward_pending, setUpd_pending]

theorem relayJoin_pending (s : State) : (relayJoin s).pending = s.pending := by
  simp only [relayJoin, ite_pending, ite_self, setUpd_pending]

theorem relaySeen_pending (s : State) (want : Nat) (e : Nat × Nat × Nat × Nat) :
    (relaySeen want s e).pending = s.pending := by
  simp only [relaySeen, setRelayNode_pending]

theorem relayActivate_pending (s : State) (n : RelayNode) : (relayActivate s n).pending = s.pending := by
  simp only [relayActivate, ite_pending, ite_self, nodeWrite_pending, activate_pending, set_pending',
    relayHalt_pending, setUpd_pending, setRelayNode_pending]

theorem relayStep_pending (s : State) : (relayStep s).pending = s.pending := by
  simp only [relayStep]
  (repeat' split) <;> simp only [set_pending', relayHalt_pending, relayActivate_pending, setUpd_pending]

theorem execRelayActivationStep_queueKept (s : State) (seen : List (Nat × Nat × Nat × Nat)) :
    QueueKept s.pending (execRelayActivationStep seen s) := by
  simp only [execRelayActivationStep, queueKept_ite, ite_self, foldl_pending, implies_true, queueKept_next,
    whenServing_queueKept, relaySeen_pending, relayStep_pending, relayJoin_pending]

theorem execActivationTimeout_queueKept (s : State) : QueueKept s.pending (execActivationTimeout s) := by
  unfold execActivationTimeout
  (repeat' split) <;> simp [queueKept_next, whenServing_queueKept, relayHalt_pending, passTo_pending]

theorem confirm_pending (s : State) (t : Nat) : (confirm s t).1.pending = s.pending := by
  simp only [confirm, ite_pending, ite_fst, ite_self, setImg_pending, set_pending', log_pending]

theorem confirmExpire_pending (s : State) (t : Nat) : (confirmExpire s t).pending = s.pending := by
  simp only [confirmExpire, ite_pending, ite_self, setImg_pending, set_pending']

theorem execConfirmationExpiry_queueKept (s : State) (t : Nat) :
    QueueKept s.pending (execConfirmationExpiry t s) := by
  unfold execConfirmationExpiry
  split <;> simp only [queueKept_ite, ite_self, queueKept_next, confirmExpire_pending, passTo_pending]

theorem rollBackRequest_pending (s : State) (t : Nat) : (rollBackRequest s t).1.pending = s.pending := by
  simp only [rollBackRequest, ite_pending, ite_fst, ite_self, setImg_pending, resetDue_pending]

theorem rollBack_pending (s : State) (t : Nat) : (rollBack s t).pending = s.pending := by
  simp only [rollBack, setImgState_pending, setImg_pending, set_pending', log_pending, slotSwap_pending, count_pending']

/-! Machine/Fabric.lean -/

theorem execPortLinkChange_queueKept (s : State) (p : Nat) (up : Bool) (sqi : Nat) (preempt : Bool) :
    QueueKept s.pending (execPortLinkChange p up sqi preempt s) := by
  simp [execPortLinkChange, queueKept_next, gated_queueKept, portLink_pending]

theorem helloDue_pending (s : State) (p : Nat) : (helloDue s p).pending = s.pending := by
  obtain ⟨_, _, h⟩ := helloDue_only s p
  rw [h]

theorem execHelloSend_queueKept (s : State) (p : Nat) : QueueKept s.pending (execHelloSend p s) := by
  refine gated_queueKept.mpr ?_
  split
  · split
    · rfl
    · exact (flueSendOn_pending ..).trans ((setFab_pending ..).trans (helloDue_pending s p))
  · rfl

theorem nodeJoin_pending (s : State) (id : Nat) (n : Node) : (nodeJoin s id n).pending = s.pending := by
  unfold nodeJoin
  split <;> simp only [ite_pending, ite_self, fire_pending, nodeDeep_pending, log_pending, sendAssign_pending,
    setNode_pending, sectUnsend_pending]

theorem pushNext_pending (s : State) (x : Push) : (pushNext s x).pending = s.pending := by
  simp only [pushNext, ite_pending, ite_self, setFab_pending, nodeAsk_pending]

theorem pushDone_pending (s : State) (x : Push) : (pushDone s x).pending = s.pending := by
  simp only [pushDone]
  split <;> simp only [fire_pending, setFab_pending, log_pending, setNode_pending]

theorem pushAnswer_pending (s : State) (node op index status : Nat) :
    (pushAnswer s node op index status).pending = s.pending := by
  unfold pushAnswer
  split <;> simp only [ite_pending, ite_self, pushDone_pending, setFab_pending, pushNext_pending]

theorem replacementPush_pending (s : State) (id serial : Nat) (path : List Nat) (up : Nat) :
    (replacementPush s id serial path up).pending = s.pending := by
  unfold replacementPush
  split <;> simp only [setFab_pending, pushNext_pending, sendAssign_pending, setNode_pending]

theorem linkKnown_pending (s : State) (l : Link) : (linkKnown s l).pending = s.pending := by
  simp only [linkKnown, ite_pending]
  (repeat' split) <;> simp only [setFab_pending, ringFound_pending, recompute_pending]

theorem helloPavilion_pending (s : State) (port : Nat) (h : Hello) :
    (helloPavilion s port h).pending = s.pending := by
  simp only [helloPavilion, ite_pending, log_pending, setNode_pending]
  (repeat' split) <;> simp only [epochrstSend_pending, nodeJoin_pending, setFab_pending, replacementPush_pending,
    log_pending, linkKnown_pending, sendAssign_pending, setNode_pending]

theorem helloHearth_pending (s : State) (port serial : Nat) : (helloHearth s port serial).pending = s.pending := by
  simp only [helloHearth, ite_pending, ite_self, fire_pending, setFab_pending, set_pending', log_pending]

theorem execHelloReceive_queueKept (s : State)
    (port via viaPort ownPort serial role verLo verHi rev gen epoch setter : Nat) :
    QueueKept s.pending (execHelloReceive port via viaPort ownPort serial role verLo verHi rev gen epoch setter s) := by
  simp only [execHelloReceive, queueKept_ite, ite_self, queueKept_next, flueSend_pending, helloPavilion_pending,
    gated_queueKept, helloHearth_pending, count_pending']

theorem recclkTake_pending (s : State) : (recclkTake s).pending = s.pending := by
  simp only [recclkTake, set_pending']

theorem assignReceive_pending (s : State) (port id up : Nat) (path : List Nat) (s1 s2 sender serial epoch : Nat) :
    (assignReceive s port id up path s1 s2 sender serial epoch).pending = s.pending := by
  simp only [assignReceive, ite_pending, ite_self, foldl_pending, implies_true, epochCheck_pending, recclkTake_pending,
    flueSend_pending, setFab_pending, set_pending', heard_pending, log_pending, count_pending']

theorem execAssignReceive_queueKept (s : State) (port id up : Nat) (path : List Nat)
    (s1 s2 sender serial epoch : Nat) :
    QueueKept s.pending (execAssignReceive port id up path s1 s2 sender serial epoch s) := by
  simp only [execAssignReceive, queueKept_ite, ite_self, queueKept_next, assignReceive_pending, gated_queueKept]

theorem execBindingRelease_queueKept (s : State) : QueueKept s.pending (execBindingRelease s) := by
  simp only [execBindingRelease, queueKept_ite, ite_self, queueKept_next, setFab_pending, set_pending', passTo_pending]

theorem flueFault_pending (s : State) (port : Nat) (fcsOk : Bool) : (flueFault s port fcsOk).pending = s.pending := by
  simp only [flueFault, ite_pending, ite_self, count_pending']

theorem flueResponse_pending (s : State) (f : FlueFrame) : (flueResponse s f).pending = s.pending := by
  unfold flueResponse
  split <;> simp only [setFab_pending, count_pending']

theorem sectionEntry_pending (s : State) (f : FlueFrame) (k : Nat) : (sectionEntry f s k).pending = s.pending := by
  simp only [sectionEntry, ghSubmit_pending]

theorem sectionTake_pending (s : State) (f : FlueFrame) : (sectionTake s f).pending = s.pending := by
  simp only [sectionTake, ite_pending, ite_self, foldl_pending, implies_true, epochCheck_pending, heard_pending,
    sectionEntry_pending]

theorem nodeRecordTake_pending (s : State) (f : FlueFrame) : (nodeRecordTake s f).pending = s.pending := by
  unfold nodeRecordTake
  split <;> simp only [setNode_pending]

theorem flueTake_pending (s : State) (port : Nat) (f : FlueFrame) : (flueTake s port f).pending = s.pending := by
  unfold flueTake
  split <;> simp only [ite_pending, ite_self, nodeRecordTake_pending, rtcmFrame_pending, flueResponse_pending,
    relayAnswer_pending, sectionTake_pending, count_pending']

theorem flueDeliver_pending (s : State) (port : Nat) (f : FlueFrame) (fcsOk : Bool) :
    (flueDeliver s port f fcsOk).pending = s.pending := by
  simp only [flueDeliver, ite_pending, ite_self, flueTake_pending, count_pending', flueFault_pending]

theorem flueLate_pending (s : State) (p : Nat) : (flueLate s p).pending = s.pending := by
  simp only [flueLate, ite_pending, ite_self, fire_pending, setFab_pending, log_pending, count_pending']

theorem flueForward_pending (s : State) (port : Nat) (f : FlueFrame) (fcsOk : Bool) (waited : Nat) :
    (flueForward s port f fcsOk waited).pending = s.pending := by
  simp only [flueForward, ite_pending, ite_self, foldl_pending, implies_true, flueLeave_pending, flueLate_pending,
    flueDeliver_pending, setFab_pending, count_pending', flueFault_pending]

theorem noteVersion_pending (s : State) (port : Nat) (f : FlueFrame) (fcsOk : Bool) :
    (noteVersion s port f fcsOk).pending = s.pending := by
  simp only [noteVersion, ite_pending, ite_self, setFab_pending]

theorem execFlueFrameForward_queueKept (s : State) (port : Nat) (frame : PortFrame) (fcsOk : Bool) (waited : Nat) :
    QueueKept s.pending (execFlueFrameForward port frame fcsOk waited s) := by
  unfold execFlueFrameForward
  (repeat' split) <;> simp only [ite_self, queueKept_next, noteVersion_pending, otherForward_pending, gated_queueKept,
    flueForward_pending, count_pending']

theorem execRingchkFlood_queueKept (s : State) (returned : Bool) :
    QueueKept s.pending (execRingchkFlood returned s) := by
  unfold execRingchkFlood
  split <;> simp only [queueKept_ite, ite_self, queueKept_next, flueSend_pending, setFab_pending, gated_queueKept,
    passTo_pending, ringHeal_pending]

theorem execRingHeal_queueKept (s : State) (a pa b pb micros : Nat) :
    QueueKept s.pending (execRingHeal a pa b pb micros s) := by
  unfold execRingHeal
  (repeat' split) <;> simp only [ite_self, queueKept_next, gated_queueKept, linkLost_pending, ringHeal_pending]

theorem entryDeliver_pending (s : State) (e : Nat × Nat × Time × List Byte) :
    (entryDeliver s e).pending = s.pending := by
  unfold entryDeliver
  (repeat' split) <;> simp only [deliver_pending]

theorem execStreamReceive_queueKept (s : State) (cls sender serial epoch : Nat) (fromHearth : Bool) (entries : List
    (Nat × Nat × Time × List Byte)) :
    QueueKept s.pending (execStreamReceive cls sender serial epoch fromHearth entries s) := by
  simp only [execStreamReceive, queueKept_ite, ite_self, foldl_pending, implies_true, queueKept_next,
    epochCheck_pending, heard_pending, entryDeliver_pending, gated_queueKept]

theorem execSetptFlood_queueKept (s : State) : QueueKept s.pending (execSetptFlood s) := by
  simp only [execSetptFlood, queueKept_ite, ite_self, queueKept_next, devTo_pending, flueSend_pending, setFab_pending,
    gated_queueKept]

theorem execSetptReceive_queueKept (s : State) (sender serial epoch : Nat) (entries : List
    (Nat × Nat × Time × List Byte)) :
    QueueKept s.pending (execSetptReceive sender serial epoch entries s) := by
  simp only [execSetptReceive, queueKept_ite, ite_self, foldl_pending, implies_true, queueKept_next,
    epochCheck_pending, setFab_pending, set_pending', heard_pending, entryDeliver_pending, gated_queueKept]

theorem execNodeHoldExpiry_queueKept (s : State) : QueueKept s.pending (execNodeHoldExpiry s) := by
  unfold execNodeHoldExpiry
  split <;> simp only [ite_pending, ite_self, queueKept_next, fire_pending, setFab_pending, set_pending',
    disarmAll_pending, log_pending, passTo_pending]

theorem syncChange_pending (s : State) (on : Bool) (offset : Int) : (syncChange s on offset).pending = s.pending := by
  simp only [syncChange, ite_pending, ite_self, fire_pending, log_pending, put_pending']

theorem syncLost_pending (s : State) (offset : Int) : (syncLost s offset).pending = s.pending := by
  simp only [syncLost, ite_pending, ite_self, setTimeState_pending, syncChange_pending]

theorem execGptpSync_queueKept (s : State) (offset : Int) (quality unc : Nat) :
    QueueKept s.pending (execGptpSync offset quality unc s) := by
  simp only [execGptpSync, queueKept_ite, ite_pending, ite_self, queueKept_next, syncLost_pending,
    setTimeState_pending, setFab_pending, wr_pending', gated_queueKept, syncChange_pending, correct_pending]

theorem execSyncLoss_queueKept (s : State) : QueueKept s.pending (execSyncLoss s) := by
  unfold execSyncLoss
  split <;> simp only [queueKept_ite, ite_self, queueKept_next, syncLost_pending, setFab_pending, passTo_pending]

theorem acceptReplacement_pending (s : State) (id : Nat) : (acceptReplacement s id).1.pending = s.pending := by
  unfold acceptReplacement
  (repeat' split) <;> simp only [setFab_pending, replacementPush_pending]

theorem execAckRetransmit_queueKept (s : State) (seq : Nat) : QueueKept s.pending (execAckRetransmit seq s) := by
  unfold execAckRetransmit
  (repeat' split) <;> simp only [queueKept_ite, ite_self, queueKept_next, flueLeave_pending, setFab_pending,
    gated_queueKept, passTo_pending, count_pending', relayTimeout_pending]

/-! Machine/Parterre.lean -/

theorem taskClose_pending (s : State) : (taskClose s).pending = s.pending := by
  simp only [taskClose, ite_pending, ite_self, log_pending, chimneySend_pending]

theorem taskOpen_pending (s : State) (n : Nat) : (taskOpen s n).pending = s.pending := by
  simp only [taskOpen, ite_pending, log_pending]
  (repeat' split) <;> simp only [taskClose_pending, setTask_pending]

theorem taskWrite_pending (s : State) (n : Nat) : (taskWrite s n).1.pending = s.pending := by
  simp only [taskWrite, ite_pending, ite_fst, ite_self, taskOpen_pending, taskClose_pending]

theorem recordingWrite_pending (s : State) (v : Nat) : (recordingWrite s v).1.pending = s.pending := by
  simp only [recordingWrite, ite_pending, ite_fst, ite_self, onTask_pending]

theorem taskDelete_pending (s : State) (n : Nat) : (taskDelete s n).1.pending = s.pending := by
  unfold taskDelete
  (repeat' split) <;> simp only [setTask_pending]

theorem taskExport_pending (s : State) (n : Nat) : (taskExport s n).1.pending = s.pending := by
  unfold taskExport
  (repeat' split) <;> rfl

theorem execExportEnd_queueKept (s : State) (done : Bool) : QueueKept s.pending (execExportEnd done s) := by
  unfold execExportEnd
  (repeat' split) <;> simp only [ite_self, queueKept_next, log_pending, whenApp_queueKept, emit_pending']

theorem execTileShare_queueKept (s : State) (i j : Int) : QueueKept s.pending (execTileShare i j s) := by
  unfold execTileShare
  split <;> simp only [queueKept_ite, ite_self, queueKept_next, onTask_pending, chimneySend_pending, whenApp_queueKept]

theorem tileMerge_pending (s : State) (l : List Byte) : (tileMerge s l).pending = s.pending := by
  unfold tileMerge
  split <;> simp only [ite_pending, ite_self, onTask_pending, log_pending]

theorem execRemoteTileMerge_queueKept (s : State) (bytes : List Byte) :
    QueueKept s.pending (execRemoteTileMerge bytes s) := by
  simp [execRemoteTileMerge, queueKept_next, tileMerge_pending, whenApp_queueKept]

/-! Machine/Chimney.lean -/

theorem State.setChim_pending (s : State) (c : Chimney) : (s.setChim c).pending = s.pending := queue_eq rfl

theorem chimneyFail_pending (s : State) (cause : Nat) : (chimneyFail s cause).pending = s.pending := by
  simp only [chimneyFail, fire_pending, log_pending, setChim_pending]

theorem execChimneyConnect_queueKept (s : State) (ok : Bool) (cause : Nat) :
    QueueKept s.pending (execChimneyConnect ok cause s) := by
  simp only [execChimneyConnect, queueKept_ite, ite_pending, ite_self, foldl_pending, implies_true, queueKept_next,
    fire_pending, chimneyFail_pending, chimneyEmit_pending, log_pending, setChim_pending, passTo_pending,
    whenApp_queueKept]

theorem execChimneyReconnect_queueKept (s : State) : QueueKept s.pending (execChimneyReconnect s) := by
  simp only [execChimneyReconnect, queueKept_ite, ite_self, queueKept_next, setChim_pending, passTo_pending,
    whenApp_queueKept]

theorem execChimneyDisconnect_queueKept (s : State) (cause : Nat) :
    QueueKept s.pending (execChimneyDisconnect cause s) := by
  simp only [execChimneyDisconnect, queueKept_ite, ite_self, queueKept_next, chimneyFail_pending]

theorem execChimneySend_queueKept (s : State) (kind : Nat) (payload : List Byte) :
    QueueKept s.pending (execChimneySend kind payload s) := by
  simp only [execChimneySend, queueKept_ite, ite_self, queueKept_next, chimneySend_pending]

theorem execChimneyAck_queueKept (s : State) (msgId : Nat) : QueueKept s.pending (execChimneyAck msgId s) := by
  simp only [execChimneyAck, queueKept_ite, ite_self, queueKept_next, setChim_pending, chimneyCount_pending]

theorem machineState_pending (s : State) : (machineState s).2.pending = s.pending := by
  unfold machineState
  split <;> simp only [draws_pending]

theorem execChimneyPeriodic_queueKept (s : State) (kind : Nat) :
    QueueKept s.pending (execChimneyPeriodic kind s) := by
  simp only [execChimneyPeriodic, queueKept_ite, ite_self, queueKept_next, machineState_pending, setChim_pending,
    chimneySend_pending, passTo_pending, whenApp_queueKept]

/-! Machine/IrqCtl.lean -/

theorem doorbell_pending (s : State) (who n : Nat) : (doorbell s who n).pending = s.pending := by
  simp only [doorbell, ite_pending, ite_self, ring_pending, set_pending', log_pending, count_pending']

theorem execDoorbell_queueKept (s : State) (who n : Nat) : QueueKept s.pending (execDoorbell who n s) := by
  simp only [execDoorbell, queueKept_next, doorbell_pending]

theorem claim_pending (s : State) (who t : Nat) : (claim s who t).2.pending = s.pending := by
  unfold claim
  (repeat' split) <;> simp only [set_pending', count_pending']

theorem execClaim_queueKept (s : State) (who t : Nat) : QueueKept s.pending (execClaim who t s) := by
  simp only [execClaim, queueKept_next, claim_pending, emit_pending']

theorem complete_pending (s : State) (who t n : Nat) : (complete s who t n).pending = s.pending := by
  simp only [complete, ite_pending, ite_self, set_pending', log_pending, count_pending']

theorem execComplete_queueKept (s : State) (who t n : Nat) : QueueKept s.pending (execComplete who t n s) := by
  simp only [execComplete, queueKept_next, complete_pending]

theorem targetLoss_pending (s : State) (t : Nat) : (targetLoss s t).pending = s.pending := by
  simp only [targetLoss, foldl_pending, implies_true, set_pending', count_pending']

theorem withTargets_pending {f : State → State} (h : ∀ u, (f u).pending = u.pending) (s : State) :
    (withTargets f s).pending = s.pending := by
  simp only [withTargets, ite_pending, ite_self, foldl_pending, implies_true, targetLoss_pending, h]

theorem nmi_pending (s : State) (b : Nat) : (nmi s b).pending = s.pending := by
  simp only [nmi, ite_pending, ite_self, set_pending', log_pending, emit_pending']

/-! Machine/Clocks.lean -/

theorem State.setClk_pending (s : State) (x : Clocks) : (s.setClk x).pending = s.pending := queue_eq rfl

theorem pllFallback_pending (s : State) (p : Nat) : (pllFallback s p).pending = s.pending := by
  simp only [pllFallback, ite_pending, ite_self, setClk_pending, set_pending']

theorem sysReference_pending (s : State) (r : Nat) : (sysReference s r).pending = s.pending := by
  simp only [sysReference, ite_pending, ite_self, setClk_pending, pllFallback_pending]

theorem lockShow_pending (s : State) : (lockShow s).pending = s.pending := by
  simp only [lockShow, set_pending', put_pending']

theorem gnssStop_pending (s : State) : (gnssStop s).pending = s.pending := by
  simp only [gnssStop, setClk_pending]

theorem fabricLinksDrop_pending (s : State) : (fabricLinksDrop s).pending = s.pending := by
  simp only [fabricLinksDrop, foldl_pending, implies_true, portLink_pending]

theorem clkref_pending (s : State) : (clkref s).pending = s.pending := by
  simp only [clkref, nmi_pending]

theorem tcxoFailure_pending (s : State) : (tcxoFailure s).pending = s.pending := by
  simp only [tcxoFailure, ite_pending, ite_self, foldl_pending, implies_true, setClk_pending, fabricLinksDrop_pending,
    pllFallback_pending, sysReference_pending, set_pending', log_pending, lockShow_pending, clkref_pending,
    count_pending', gnssStop_pending]

theorem rcFailure_pending (s : State) (last : Nat) : (rcFailure s last).pending = s.pending := by
  simp only [rcFailure, ite_pending, ite_self, setClk_pending, sysReference_pending, log_pending, lockShow_pending]

theorem crystalFailure_pending (s : State) (last : Nat) : (crystalFailure s last).pending = s.pending := by
  simp only [crystalFailure, setClk_pending, log_pending]

theorem recoveredFailure_pending (s : State) (count : Nat) : (recoveredFailure s count).pending = s.pending := by
  simp only [recoveredFailure, ite_pending, ite_self, pllFallback_pending, sysReference_pending, set_pending',
    log_pending, portLink_pending, count_pending']

theorem monitorFault_pending (s : State) (last : Nat) : (monitorFault s last).pending = s.pending := by
  simp only [monitorFault, set_pending', log_pending]

theorem calibrate_pending (s : State) (a : Nat) (good : Bool) : (calibrate s a good).pending = s.pending := by
  simp only [calibrate, ite_pending, ite_self, setClk_pending, wr_pending', set_pending']

theorem monitorWindow_pending (s : State) (a b : Nat) (c d : Option Nat) (stuck : Nat) :
    (monitorWindow s a b c d stuck).pending = s.pending := by
  unfold monitorWindow
  split <;> simp only [ite_pending, ite_self, setClk_pending, rcFailure_pending, tcxoFailure_pending,
    recoveredFailure_pending, monitorFault_pending, set_pending', calibrate_pending, lockShow_pending, put_pending',
    crystalFailure_pending]

theorem execMonitorWindow_queueKept (s : State) (a b : Nat) (c d : Option Nat) (stuck : Nat) :
    QueueKept s.pending (execMonitorWindow a b c d stuck s) := by
  simp only [execMonitorWindow, queueKept_next, monitorWindow_pending]

theorem execPllLockLoss_queueKept (s : State) (p : Nat) : QueueKept s.pending (execPllLockLoss p s) := by
  simp only [execPllLockLoss, ite_pending, ite_self, queueKept_next, fabricLinksDrop_pending, pllFallback_pending,
    sysReference_pending, set_pending', log_pending, lockShow_pending, clkref_pending, count_pending', gnssStop_pending]

theorem clocksReset_pending (s : State) (home uncal : Bool) : (clocksReset s home uncal).pending = s.pending := by
  simp only [clocksReset, ite_pending, ite_self, setClk_pending, sysReference_pending, set_pending', lockShow_pending]

theorem opStart_pending (s : State) (k : Nat) : (opStart s k).pending = s.pending := by
  simp only [opStart, ite_pending, ite_self, setClk_pending, set_pending']

theorem opRequest_pending (s : State) (k op : Nat) : (opRequest s k op).pending = s.pending := by
  simp only [opRequest, ite_pending, ite_self, opStart_pending, set_pending']

theorem execOpRequest_queueKept (s : State) (k op : Nat) : QueueKept s.pending (execOpRequest k op s) := by
  simp only [execOpRequest, ite_pending, ite_self, queueKept_next, opRequest_pending]

theorem execOpSequenceEnd_queueKept (s : State) (k : Nat) : QueueKept s.pending (execOpSequenceEnd k s) := by
  simp only [execOpSequenceEnd, ite_pending, ite_self, queueKept_next, opStart_pending, set_pending', passTo_pending,
    count_pending']

theorem opCeiling_pending (s : State) (k c : Nat) : (opCeiling s k c).pending = s.pending := by
  simp only [opCeiling, ite_pending, ite_self, opStart_pending, set_pending', log_pending]

/-! Machine/Dma.lean -/

theorem State.setDma_pending (s : State) (q : TagQueue) : (s.setDma q).pending = s.pending := by
  simp only [setDma, set_pending']

theorem dmaRun_pending (s : State) (src dst n : Nat) : (dmaRun s src dst n).2.pending = s.pending := by
  simp only [dmaRun, busRead_pending, busStore_pending]

theorem dmaRowsFrom_pending (s : State) (d : List Byte) (k l : Nat) :
    (dmaRowsFrom d k l s).2.pending = s.pending := by
  induction k generalizing l s with
  | zero => rfl
  | succ k ih => simp only [dmaRowsFrom, ite_pending, ite_snd, ite_self, dmaRun_pending, ih]

theorem dmaMove_pending (s : State) (d : List Byte) : (dmaMove s d).2.pending = s.pending := by
  simp only [dmaMove, ite_pending, ite_snd, ite_self, dmaRun_pending, busStore_pending, dmaRowsFrom_pending]

theorem dmaEnd_pending (s : State) (o : TagOp) (status bytes : Nat) :
    (dmaEnd s o status bytes).pending = s.pending := by
  simp only [dmaEnd, ite_pending, ite_self, fire_pending, putCompletion_pending, setDma_pending, log_pending,
    count_pending']

theorem dmaSubmit_pending (s : State) (v : Word) : (dmaSubmit s v).pending = s.pending := by
  simp only [dmaSubmit, ite_pending, ite_fst, ite_snd, ite_self, countSat_pending, setDma_pending, set_pending',
    readDescriptor_pending]

theorem execDmaSubmit_queueKept (s : State) (value : Word) : QueueKept s.pending (execDmaSubmit value s) := by
  simp [execDmaSubmit, dmaSubmit_pending, gatedWrite_queueKept]

theorem dmaStart_pending (s : State) : (dmaStart s).pending = s.pending := by
  unfold dmaStart
  (repeat' split) <;> simp only [setDma_pending]

theorem execDmaStart_queueKept (s : State) : QueueKept s.pending (execDmaStart s) := by
  simp [execDmaStart, queueKept_next, dmaStart_pending, gated_queueKept]

theorem dmaComplete_pending (s : State) (tag : Nat) : (dmaComplete s tag).pending = s.pending := by
  unfold dmaComplete
  split <;> simp only [ite_pending, ite_self, dmaMove_pending, dmaEnd_pending]

theorem execDmaComplete_queueKept (s : State) (tag : Nat) : QueueKept s.pending (execDmaComplete tag s) := by
  simp [execDmaComplete, queueKept_next, gated_queueKept, dmaComplete_pending]

theorem dmaAck_pending (s : State) (head : Nat) : (dmaAck s head).pending = s.pending := by
  simp only [dmaAck, setDma_pending, set_pending']

theorem execDmaCqAck_queueKept (s : State) (head : Nat) : QueueKept s.pending (execDmaCqAck head s) := by
  simp [execDmaCqAck, gatedWrite_queueKept, dmaAck_pending]

theorem dmaAbort_pending (s : State) (tag : Nat) : (dmaAbort s tag).pending = s.pending := by
  unfold dmaAbort
  split <;> simp only [ite_pending, ite_self, dmaEnd_pending]

theorem execDmaAbort_queueKept (s : State) (tag : Nat) : QueueKept s.pending (execDmaAbort tag s) := by
  simp [execDmaAbort, dmaAbort_pending, gatedWrite_queueKept]

/-! Machine/Events.lean -/

theorem State.setEv_pending (s : State) (x : EventRec) : (s.setEv x).pending = s.pending := queue_eq rfl

theorem eventPost_pending (s : State) (code sev : Nat) : (eventPost s code sev).pending = s.pending := by
  simp only [eventPost, ite_pending, ite_self, intake_pending, set_pending']

theorem execEventPost_queueKept (s : State) (code sev : Nat) : QueueKept s.pending (execEventPost code sev s) := by
  simp only [execEventPost, queueKept_next, eventPost_pending]

theorem ringPut_pending (s : State) (n : Nat) (r : EvRecord) : (ringPut s n r).pending = s.pending := by
  simp only [ringPut, setEv_pending]

theorem eventRepeat_pending (s : State) : (eventRepeat s).pending = s.pending := by
  simp only [eventRepeat, count_pending', ringPut_pending]

theorem recordLoss_pending (s : State) : (recordLoss s).pending = s.pending := by
  simp only [recordLoss, ite_pending, ite_self, fire_pending, set_pending', setEv_pending, log_pending]

theorem newRecord_pending (s : State) (e : Ev) : (newRecord s e).pending = s.pending := by
  simp only [newRecord, ite_pending, ite_self, fire_pending, set_pending', setEv_pending, recordLoss_pending,
    count_pending', ringPut_pending]

theorem droppedReport_pending (s : State) : (droppedReport s).pending = s.pending := by
  simp only [droppedReport, ite_pending, ite_self, log_pending]

theorem eventWrite_pending (s : State) : (eventWrite s).pending = s.pending := by
  unfold eventWrite
  split <;> simp only [ite_pending, ite_self, droppedReport_pending, eventRepeat_pending, newRecord_pending,
    setEv_pending, log_pending, passTo_pending]

theorem execEventRecordWrite_queueKept (s : State) : QueueKept s.pending (execEventRecordWrite s) := by
  simp only [execEventRecordWrite, queueKept_next, eventWrite_pending]

theorem recordsCheck_pending (s : State) : (recordsCheck s).pending = s.pending := by
  simp only [recordsCheck, ite_pending, ite_self, foldl_pending, implies_true, log_pending, ringPut_pending]

theorem eventDrain_pending (s : State) (k : Nat) : (eventDrain k s).pending = s.pending := by
  induction k generalizing s with
  | zero => rfl
  | succ k ih => simp only [eventDrain, ite_pending, ite_self, eventWrite_pending, ih]

theorem spillOut_pending (s : State) (n : Nat) : (spillOut s n).pending = s.pending := by
  simp only [spillOut, set_pending', setEv_pending, flashPut_pending, count_pending']

theorem execEventSpill_queueKept (s : State) : QueueKept s.pending (execEventSpill s) := by
  simp only [execEventSpill, ite_pending, ite_self, queueKept_next, spillOut_pending, set_pending']

theorem spillRest_pending (s : State) : (spillRest s).pending = s.pending := by
  simp only [spillRest, ite_pending, ite_self, spillOut_pending]

/-! Machine/Panel.lean -/

theorem State.setPanel_pending (s : State) (p : Panel) : (s.setPanel p).pending = s.pending := queue_eq rfl

theorem panelShow_pending (s : State) : (panelShow s).pending = s.pending := by
  simp only [panelShow, set_pending', put_pending']

theorem panelRange_pending (s : State) : (panelRange s).pending = s.pending := by
  simp only [panelRange, ite_pending, ite_self, setPanel_pending, set_pending', log_pending]

theorem journalSet_pending (s : State) (k : Nat) (e : PanelEntry) : (journalSet s k e).pending = s.pending := by
  simp only [journalSet, setPanel_pending]

theorem frameRow_pending (s : State) (r : PanelReq) (j : Nat) : (frameRow r s j).pending = s.pending := by
  simp only [frameRow, setPanel_pending, busRead_pending]

theorem panelDispatch_pending (s : State) (r : PanelReq) : (panelDispatch s r).pending = s.pending := by
  simp only [panelDispatch, ite_pending, ite_self, foldl_pending, implies_true, setPanel_pending, journalSet_pending,
    frameRow_pending]

theorem panelScan_pending (s : State) (l m : List PanelReq) : (panelScan s l m).pending = s.pending := by
  induction m generalizing s l with
  | nil => rfl
  | cons r m ih => simp only [panelScan, ite_pending, ite_self, panelDispatch_pending, ih]

theorem panelCheck_pending (s : State) : (panelCheck s).pending = s.pending := by
  simp only [panelCheck, ite_pending, ite_self, panelShow_pending, panelScan_pending]

theorem rowBegin_pending (s : State) : (rowBegin s).pending = s.pending := by
  simp only [rowBegin, ite_pending, ite_self, setPanel_pending]
  (repeat' split) <;> simp only [setPanel_pending, set_pending', panelCheck_pending, count_pending',
    panelRange_pending, emit_pending']

theorem firstRow_pending (s : State) : (firstRow s).pending = s.pending := by
  unfold firstRow
  split <;> simp only [ite_pending, ite_self, rowBegin_pending, passTo_pending]

theorem panelWake_pending (s : State) : (panelWake s).pending = s.pending := by
  unfold panelWake
  (repeat' split) <;> simp only [rowBegin_pending, panelCheck_pending]

theorem rowDone_pending (s : State) (y : Nat) (f : PanelFlight) : (rowDone y s f).pending = s.pending := by
  simp only [rowDone, ite_pending, ite_self, setPanel_pending, journalSet_pending]

theorem panelComplete_pending (s : State) (tag status : Nat) : (panelComplete s tag status).pending = s.pending := by
  simp only [panelComplete, setPanel_pending, fire_pending]

theorem replayEnd_pending (s : State) : (replayEnd s).pending = s.pending := by
  simp only [replayEnd, ite_pending, ite_self, fire_pending, set_pending', log_pending]

theorem flightEnd_pending (s : State) (f : PanelFlight) : (flightEnd s f).pending = s.pending := by
  unfold flightEnd
  split <;> simp only [setPanel_pending, journalSet_pending, count_pending', panelComplete_pending]

theorem panelRowEnd_pending (s : State) : (panelRowEnd s).pending = s.pending := by
  simp only [panelRowEnd]
  split <;> simp only [ite_pending, ite_self, foldl_pending, implies_true, setPanel_pending, flightEnd_pending,
    replayEnd_pending, rowBegin_pending, rowDone_pending, panelShow_pending, passTo_pending, panelCheck_pending,
    firstRow_pending]

theorem execPanelRowEnd_queueKept (s : State) : QueueKept s.pending (execPanelRowEnd s) := by
  simp only [execPanelRowEnd, queueKept_next, panelRowEnd_pending]

theorem execRailRise_queueKept (s : State) : QueueKept s.pending (execRailRise s) := by
  unfold execRailRise
  split <;> simp only [ite_pending, ite_self, queueKept_next, setPanel_pending, rowBegin_pending, set_pending',
    passTo_pending]

theorem execRailFall_queueKept (s : State) : QueueKept s.pending (execRailFall s) := by
  simp only [execRailFall, ite_pending, ite_self, queueKept_next, set_pending', passTo_pending]

theorem panelCoalesce_pending (s : State) (r q : PanelReq) : (panelCoalesce s r q).pending = s.pending := by
  simp only [panelCoalesce, setPanel_pending, count_pending', panelComplete_pending]

theorem panelSubmit_pending (s : State) (tag : Nat) : (panelSubmit s tag).pending = s.pending := by
  simp only [panelSubmit, ite_pending, ite_self, panelShow_pending, panelCheck_pending]
  split <;> simp only [setPanel_pending, panelCoalesce_pending, set_pending']

theorem execPanelSubmit_queueKept (s : State) (tag : Nat) : QueueKept s.pending (execPanelSubmit tag s) := by
  simp [execPanelSubmit, gatedWrite_queueKept, panelSubmit_pending]

theorem execCompletionPop_queueKept (s : State) : QueueKept s.pending (execCompletionPop s) := by
  simp only [execCompletionPop, queueKept_next, setPanel_pending, emit_pending']

theorem replayStart_pending (s : State) (l : List PanelFlight) : (replayStart s l).pending = s.pending := by
  simp only [replayStart, ite_pending, ite_self, setPanel_pending, set_pending', panelShow_pending, panelCheck_pending,
    count_pending']

theorem journalReplay_pending (s : State) : (journalReplay s).pending = s.pending := by
  simp only [journalReplay, ite_pending, ite_self, foldl_pending, implies_true, setPanel_pending, journalSet_pending,
    replayStart_pending, log_pending]

theorem geometryStart_pending (s : State) : (geometryStart s).pending = s.pending := by
  simp only [geometryStart, setPanel_pending, log_pending, panelShow_pending]

theorem panelEnable_pending (s : State) : (panelEnable s).pending = s.pending := by
  simp only [panelEnable, ite_pending, ite_self, geometryStart_pending, set_pending', journalReplay_pending]

theorem panelHalt_pending (s : State) : (panelHalt s).pending = s.pending := by
  simp only [panelHalt, setPanel_pending, set_pending', panelShow_pending]

theorem panelDisable_pending (s : State) : (panelDisable s).pending = s.pending := by
  simp only [panelDisable, ite_pending, ite_self, set_pending', panelHalt_pending]

theorem execPanelReplay_queueKept (s : State) : QueueKept s.pending (execPanelReplay s) := by
  simp [execPanelReplay, gatedField_queueKept, panelEnable_pending]

theorem execRailFault_queueKept (s : State) (negative : Bool) (decivolt : Nat) :
    QueueKept s.pending (execRailFault negative decivolt s) := by
  simp only [execRailFault, ite_pending, ite_self, queueKept_next, setPanel_pending, fire_pending, set_pending',
    log_pending]

theorem panelRestart_pending (s : State) : (panelRestart s).pending = s.pending := by
  simp only [panelRestart, ite_pending, ite_self, set_pending', journalReplay_pending]

theorem execPanelRestart_queueKept (s : State) : QueueKept s.pending (execPanelRestart s) := by
  simp [execPanelRestart, gatedField_queueKept, panelRestart_pending]

theorem panelStop_pending (s : State) : (panelStop s).pending = s.pending := by
  simp only [panelStop, fire_pending, set_pending', log_pending]

theorem panelResume_pending (s : State) : (panelResume s).pending = s.pending := by
  simp only [panelResume, ite_pending, ite_self, fire_pending, panelWake_pending, set_pending']

theorem execThermistorRead_queueKept (s : State) (tenths : Int) :
    QueueKept s.pending (execThermistorRead tenths s) := by
  unfold execThermistorRead
  split <;> simp only [ite_pending, ite_self, queueKept_next, setPanel_pending, fire_pending, set_pending',
    log_pending, gated_queueKept, passTo_pending]

theorem execThermistorFallback_queueKept (s : State) : QueueKept s.pending (execThermistorFallback s) := by
  simp only [execThermistorFallback, ite_pending, ite_self, queueKept_next, set_pending', gated_queueKept,
    passTo_pending]

theorem panelGeometryWrite_pending (s : State) (sub v : Nat) :
    (panelGeometryWrite s sub v).1.pending = s.pending := by
  unfold panelGeometryWrite
  (repeat' split) <;> simp only [setObjN_pending', set_pending']

theorem pilotRow_pending (s : State) (text : List Nat × List Nat) (y : Nat) :
    (pilotRow text s y).pending = s.pending := by
  simp only [pilotRow, setPanel_pending]

theorem pilotWrite_pending (s : State) (cause : Nat) : (pilotWrite s cause).pending = s.pending := by
  simp only [pilotWrite, ite_pending, log_pending]
  (repeat' split) <;> simp only [foldl_pending, implies_true, journalSet_pending, pilotRow_pending, emit_pending']

/-! Machine/Sensors.lean -/

theorem State.setAi_pending (s : State) (n : Nat) (x : AnalogIn) : (s.setAi n x).pending = s.pending := queue_eq rfl

theorem State.setPi_pending (s : State) (n : Nat) (x : PulseIn) : (s.setPi n x).pending = s.pending := queue_eq rfl

theorem State.setLi_pending (s : State) (n : Nat) (x : LossIn) : (s.setLi n x).pending = s.pending := queue_eq rfl

theorem aiFclr_pending (s : State) (n : Nat) : (aiFclr s n).pending = s.pending := by
  simp only [aiFclr, set_pending']

theorem supplyShow_pending (s : State) : (supplyShow s).pending = s.pending := by
  simp only [supplyShow, foldl_pending, implies_true, put_pending']

theorem aiConfig_pending (s : State) (n : Nat) (v : Word) : (aiConfig s n v).1.pending = s.pending := by
  simp only [aiConfig, ite_pending, ite_fst, ite_self, supplyShow_pending, wr_pending', set_pending', log_pending,
    aiFclr_pending]

theorem execAiSample_queueKept (s : State) (n : Nat) (x : F32) : QueueKept s.pending (execAiSample n x s) := by
  unfold execAiSample
  split <;> simp only [queueKept_ite, ite_pending, ite_self, queueKept_next, devTo_pending, setAi_pending,
    produce_pending, wr_pending', set_pending', gated_queueKept]

theorem execAiConfigWrite_queueKept (s : State) (n : Nat) (value : Word) :
    QueueKept s.pending (execAiConfigWrite n value s) := by
  simp only [execAiConfigWrite, queueKept_ite, ite_self, queueKept_next, aiConfig_pending, gatedWrite_queueKept]

theorem execAiLatchedFault_queueKept (s : State) (n : Nat) : QueueKept s.pending (execAiLatchedFault n s) := by
  simp only [execAiLatchedFault, queueKept_ite, ite_self, queueKept_next, fire_pending, set_pending', log_pending,
    gated_queueKept]

theorem execAiFclr_queueKept (s : State) (n : Nat) : QueueKept s.pending (execAiFclr n s) := by
  simp only [execAiFclr, queueKept_ite, ite_self, queueKept_next, gatedField_queueKept, aiFclr_pending]

theorem supplyClear_pending (s : State) (k : Nat) : (supplyClear s k).pending = s.pending := by
  simp only [supplyClear, supplyShow_pending, set_pending']

theorem execSupplyFault_queueKept (s : State) (k millivolt milliamp : Nat) :
    QueueKept s.pending (execSupplyFault k millivolt milliamp s) := by
  simp only [execSupplyFault, queueKept_ite, ite_self, queueKept_next, fire_pending, supplyShow_pending, set_pending',
    log_pending]

theorem execSupplyClear_queueKept (s : State) (k : Nat) : QueueKept s.pending (execSupplyClear k s) := by
  simp only [execSupplyClear, queueKept_ite, ite_self, queueKept_next, supplyClear_pending, gatedField_queueKept]

theorem pulseOverflow_pending (s : State) (n : Nat) (t : Time) : (pulseOverflow s n t).pending = s.pending := by
  simp only [pulseOverflow, ite_pending, ite_self, fire_pending, set_pending', log_pending]

theorem pulseCounted_pending (s : State) (n : Nat) (t : Time) (step : Int) :
    (pulseCounted s n t step).pending = s.pending := by
  simp only [pulseCounted]
  split <;> simp only [ite_pending, ite_self, setPi_pending, pulseOverflow_pending]

theorem execPulseEdge_queueKept (s : State) (n : Nat) (level both : Bool) (t : Time) :
    QueueKept s.pending (execPulseEdge n level both t s) := by
  simp only [execPulseEdge, queueKept_ite, ite_self, queueKept_next, setPi_pending, fire_pending, devTo_pending,
    pulseCounted_pending, wr64_pending', wr_pending', set_pending', log_pending, gated_queueKept, count_pending']

theorem execPulsePublication_queueKept (s : State) (n : Nat) : QueueKept s.pending (execPulsePublication n s) := by
  simp only [execPulsePublication, queueKept_ite, queueKept_next, setPi_pending, devTo_pending, produce_pending,
    wr_pending', set_pending', gated_queueKept]
  (repeat' split) <;> simp only [queueKept_next, setPi_pending, devTo_pending, produce_pending, wr_pending',
    put_pending']

theorem piClear_pending (s : State) (n : Nat) : (piClear s n).pending = s.pending := by
  simp only [piClear, ite_pending, ite_self, wr_pending']

theorem execPiCountClear_queueKept (s : State) (n : Nat) : QueueKept s.pending (execPiCountClear n s) := by
  simp only [execPiCountClear, queueKept_ite, ite_self, queueKept_next, gatedField_queueKept, piClear_pending]

theorem execBridgeConversion_queueKept (s : State) (b : Nat) (vdiff vexc : F32) (excLimited outOfRange : Bool)
    (t : Time) :
    QueueKept s.pending (execBridgeConversion b vdiff vexc excLimited outOfRange t s) := by
  simp only [execBridgeConversion, queueKept_ite, ite_pending, ite_self, queueKept_next, devTo_pending,
    produce_pending, wr_pending', set_pending', gated_queueKept, put_pending']

theorem execBridgeSenseOpen_queueKept (s : State) (b : Nat) : QueueKept s.pending (execBridgeSenseOpen b s) := by
  simp only [execBridgeSenseOpen, queueKept_ite, ite_self, queueKept_next, fire_pending, set_pending', log_pending,
    gated_queueKept]

theorem execBridgeSenseRestore_queueKept (s : State) (b : Nat) :
    QueueKept s.pending (execBridgeSenseRestore b s) := by
  simp only [execBridgeSenseRestore, queueKept_ite, ite_self, queueKept_next, set_pending', gated_queueKept]

theorem lossEdgeWrite_pending (s : State) (n a : Nat) (v : Word) : (lossEdgeWrite s n a v).1.pending = s.pending := by
  simp only [lossEdgeWrite, ite_pending, ite_fst, ite_self, set_pending', plainWrite_pending]

theorem execLossImpact_queueKept (s : State) (n peak : Nat) (t : Time) :
    QueueKept s.pending (execLossImpact n peak t s) := by
  simp only [execLossImpact, queueKept_ite, ite_pending, ite_self, queueKept_next, devTo_pending, setLi_pending,
    set_pending', gated_queueKept]

theorem lossHistogram_pending (s : State) (n : Nat) (bins : List Nat) :
    (lossHistogram s n bins).pending = s.pending := by
  simp only [lossHistogram, foldl_pending, implies_true, set_pending']

theorem execLossIntervalEnd_queueKept (s : State) (n : Nat) : QueueKept s.pending (execLossIntervalEnd n s) := by
  simp only [execLossIntervalEnd, queueKept_ite, ite_pending, ite_self, queueKept_next, fire_pending, devTo_pending,
    setLi_pending, wr_pending', set_pending', lossHistogram_pending, log_pending, gated_queueKept, deliver_pending]

theorem execImuSample_queueKept (s : State) (ax ay az gx gy gz temp : F32) (delivered : Bool) :
    QueueKept s.pending (execImuSample ax ay az gx gy gz temp delivered s) := by
  simp only [execImuSample, queueKept_ite, ite_self, foldl_pending, implies_true, queueKept_next, devTo_pending,
    produce_pending, set_pending', gated_queueKept]

theorem execImuFault_queueKept (s : State) (code : Nat) : QueueKept s.pending (execImuFault code s) := by
  simp [execImuFault, queueKept_next, fire_pending, log_pending, gated_queueKept]

/-! Machine/Thermal.lean -/

theorem State.setTh_pending (s : State) (x : Thermal) : (s.setTh x).pending = s.pending := queue_eq rfl

theorem State.setThSensor_pending (s : State) (k : Nat) (x : ThSensor) : (s.setThSensor k x).pending = s.pending := by
  simp only [setThSensor, setTh_pending]

theorem State.setThZone_pending (s : State) (z : Nat) (x : ThZone) : (s.setThZone z x).pending = s.pending := by
  simp only [setThZone, setTh_pending]

theorem State.thCount_pending (s : State) (k : Nat) : (s.thCount k).pending = s.pending := by
  simp only [thCount, setTh_pending]

theorem sensorReading_pending (s : State) (k : Nat) (t : Int) (raw : Nat) (pair : Bool) :
    (sensorReading s k t raw pair).pending = s.pending := by
  simp only [sensorReading, ite_pending, ite_self, fire_pending, set_pending', log_pending, thCount_pending,
    setThSensor_pending]

theorem setCeilings_pending (s : State) : (setCeilings s).pending = s.pending := by
  simp only [setCeilings, opCeiling_pending]

theorem damperTo_pending (s : State) (step : Nat) : (damperTo s step).pending = s.pending := by
  simp only [damperTo, ite_pending, ite_self, fire_pending, set_pending', setCeilings_pending, log_pending,
    thCount_pending, camDamper_pending, setTh_pending]

theorem damperCheck_pending (s : State) : (damperCheck s).pending = s.pending := by
  simp only [damperCheck, ite_pending, ite_self, damperTo_pending]

theorem stageZoneOff_pending (s : State) (z : Nat) : (stageZoneOff s z).pending = s.pending := by
  simp only [stageZoneOff, ite_pending, ite_self, foldl_pending, implies_true, groupDisarm_pending, sdDisarm_pending]

theorem zoneShutdown_pending (s : State) (z : Nat) (t : Int) : (zoneShutdown s z t).pending = s.pending := by
  simp only [zoneShutdown, ite_pending, ite_self, fire_pending, stageZoneOff_pending, set_pending', log_pending,
    setTh_pending]

theorem rateOfRise_pending (s : State) (z : Nat) (t : Int) : (rateOfRise s z t).pending = s.pending := by
  simp only [rateOfRise]
  split <;> simp only [ite_pending, ite_self, fire_pending, set_pending', log_pending, setThZone_pending]

theorem zoneReport_pending (s : State) (z : Nat) (t : Int) (w0 t0 : Bool) :
    (zoneReport s z t w0 t0).pending = s.pending := by
  simp only [zoneReport, ite_pending, ite_self, fire_pending, set_pending', log_pending, thCount_pending]

theorem thermalReading_pending (s : State) (z : Nat) (a b : Int) (rawA rawB : Nat) :
    (thermalReading s z a b rawA rawB).pending = s.pending := by
  simp only [thermalReading, ite_pending, ite_self, set_pending', put_pending', zoneShutdown_pending,
    rateOfRise_pending, setThZone_pending, zoneReport_pending, damperCheck_pending]
  (repeat' split) <;> simp only [sensorReading_pending, passTo_pending]

theorem execThermalReading_queueKept (s : State) (z : Nat) (a b : Int) (rawA rawB : Nat) :
    QueueKept s.pending (execThermalReading z a b rawA rawB s) := by
  simp only [execThermalReading, ite_pending, ite_self, queueKept_next, thermalReading_pending]

theorem execDamperStep2_queueKept (s : State) : QueueKept s.pending (execDamperStep2 s) := by
  simp only [execDamperStep2, ite_pending, ite_self, queueKept_next, damperTo_pending, passTo_pending]

/-! Machine/Trellis.lean -/

theorem State.setEntry_pending (s : State) (e : Nat) (x : TrellisEntry) : (s.setEntry e x).pending = s.pending :=
  queue_eq rfl

theorem openEntry_pending (s : State) (e : Nat) : (openEntry s e).1.pending = s.pending := by
  simp only [openEntry, ite_pending, ite_fst, ite_self, setEntry_pending]

theorem writeEntry_pending (s : State) (e : Nat) (l : List Byte) : (writeEntry s e l).1.pending = s.pending := by
  simp only [writeEntry, ite_pending, ite_fst, ite_self, setEntry_pending]

theorem mapEntries_pending (s : State) (p : TrellisEntry → Bool) (f : TrellisEntry → TrellisEntry) :
    (mapEntries s p f).pending = s.pending := by
  simp only [mapEntries, foldl_pending, implies_true, setEntry_pending]

theorem emptyCommit_pending (s : State) (b : Time) : (emptyCommit s b).pending = s.pending := queue_eq rfl

theorem toPending_pending (s : State) (b : Time) : (toPending s b).pending = s.pending := by
  simp only [toPending, ite_pending, ite_self, emptyCommit_pending, mapEntries_pending]

theorem commitRequest_pending (s : State) : (commitRequest s).1.pending = s.pending := by
  simp only [commitRequest, toPending_pending]

theorem cancel_pending (s : State) : (cancel s).1.pending = s.pending := by
  simp only [cancel, ite_pending, ite_fst, ite_self, mapEntries_pending]

theorem commitFailed_pending (s : State) (f : Nat × Nat) : (commitFailed s f).pending = s.pending := by
  simp only [commitFailed, log_pending]

theorem prepare_pending (s : State) (b : Time) : (prepare s b).1.pending = s.pending := by
  simp only [prepare, ite_pending, ite_fst, emptyCommit_pending]
  (repeat' split) <;> simp only [toPending_pending, commitFailed_pending]

theorem goConfirm_pending (s : State) : (goConfirm s).1.pending = s.pending := queue_eq rfl

theorem commitDone_pending (s : State) (b : Time) (n : Nat) : (commitDone s b n).pending = s.pending := queue_eq rfl

theorem emptyCommitsDone_pending (s : State) (b : Time) : (emptyCommitsDone s b).pending = s.pending := by
  simp only [emptyCommitsDone, ite_pending, ite_self, commitDone_pending]

theorem boundaryCommit_pending (s : State) (b : Time) : (boundaryCommit s b).pending = s.pending := by
  simp only [boundaryCommit, ite_pending, emptyCommitsDone_pending]
  (repeat' split) <;> simp only [mapEntries_pending, emptyCommitsDone_pending, commitDone_pending, commitFailed_pending]

theorem writeRing_pending (s : State) (k : Nat) (l : List Byte) : (writeRing s k l).1.pending = s.pending := by
  simp only [writeRing, ite_pending, ite_fst, ite_self, setRing_pending]

theorem execEpochBoundaryCommit_queueKept (s : State) : QueueKept s.pending (execEpochBoundaryCommit s) := by
  simp [execEpochBoundaryCommit, queueKept_next, whenServing_queueKept, devTo_pending, boundaryCommit_pending]

/-! Machine/Governor.lean -/

theorem State.setGovFn_pending (s : State) (m : Nat) (x : GovFn) : (s.setGovFn m x).pending = s.pending :=
  queue_eq rfl

theorem State.setGovRule_pending (s : State) (r : Nat) (x : GovRule) : (s.setGovRule r x).pending = s.pending :=
  queue_eq rfl

theorem targetWrite_pending (s : State) (m : Nat) (v : F32) : (targetWrite s m v).1.pending = s.pending := by
  simp only [targetWrite, ite_pending, ite_fst]
  (repeat' split) <;> simp only [stagePost_pending, setPointWrite_pending]

theorem fnPlace_pending (s : State) (m : Nat) (x : GovFn) : (fnPlace s m x).pending = s.pending := by
  simp only [fnPlace, ite_pending, ite_self, setGovFn_pending, log_pending]

theorem fnTake_pending (s : State) (m : Nat) : (fnTake s m).pending = s.pending := by
  simp only [fnTake, ite_pending, ite_self, setGovFn_pending, fnPlace_pending]

theorem fnFault_pending (s : State) (m cause : Nat) : (fnFault s m cause).pending = s.pending := by
  simp only [fnFault, ite_pending, ite_self, setGovFn_pending, log_pending]

theorem fnCount_pending (s : State) (m k : Nat) : (fnCount s m k).pending = s.pending := by
  simp only [fnCount, setGovFn_pending]

theorem fnCommand_pending (s : State) (m : Nat) (c : F32) (state : Nat) :
    (fnCommand s m c state).pending = s.pending := by
  simp only [fnCommand, setGovFn_pending]

theorem logChange_pending (s : State) (m : Nat) (old new : F32) (cause : Nat) :
    (logChange s m old new cause).pending = s.pending := by
  simp only [logChange, log_pending]

theorem fnChanged_pending (s : State) (m : Nat) (v : F32) (source : Nat) :
    (fnChanged s m v source).pending = s.pending := by
  simp only [fnChanged, fnCount_pending, setGovFn_pending, log_pending]

theorem fnWatch_pending (s : State) (m : Nat) : (fnWatch s m).1.pending = s.pending := by
  simp only [fnWatch, ite_pending, ite_fst, setGovFn_pending]
  (repeat' split) <;> simp only [setGovFn_pending, fnChanged_pending, targetWrite_pending, fnFault_pending]

theorem fnThaw_pending (s : State) (m : Nat) : (fnThaw s m).pending = s.pending := by
  simp only [fnThaw, fnPlace_pending]

theorem fnThawDue_pending (s : State) (m : Nat) : (fnThawDue s m).pending = s.pending := by
  simp only [fnThawDue, ite_pending, ite_self, fnThaw_pending]

theorem fnRevert_pending (s : State) (f : Nat) (v0 : F32) : (fnRevert s f v0).pending = s.pending := by
  simp only [fnRevert, fnCount_pending, fnCommand_pending, logChange_pending]

theorem fnOwed_pending (s : State) (m : Nat) : (fnOwed s m).pending = s.pending := by
  unfold fnOwed
  split <;> simp only [ite_pending, ite_self, setGovFn_pending, fnRevert_pending]

theorem fnLeave_pending (s : State) (m : Nat) : (fnLeave s m).pending = s.pending := by
  simp only [fnLeave, fnOwed_pending, setGovFn_pending, fnTake_pending]

theorem fnCheck_pending (s : State) (m : Nat) : (fnCheck s m).pending = s.pending := by
  simp only [fnCheck, ite_pending, ite_self, setGovFn_pending, fnLeave_pending, fnPlace_pending, fnFault_pending]

theorem pastPointer_pending (s : State) (f : Nat) : (pastPointer s f).pending = s.pending := queue_eq rfl

theorem toBaseline_pending (s : State) : (toBaseline s).pending = s.pending := queue_eq rfl

theorem trialAbandon_pending (s : State) (cause : Nat) (revert : Bool) :
    (trialAbandon s cause revert).pending = s.pending := by
  unfold trialAbandon
  split <;> simp only [ite_pending, ite_self, setGovFn_pending, toBaseline_pending, log_pending, fnRevert_pending]

theorem searchStep_pending (s : State) (f : Nat) : (searchStep s f).pending = s.pending := by
  unfold searchStep
  split <;> simp only [fnCount_pending, setGovFn_pending, toBaseline_pending, fnCommand_pending, pastPointer_pending,
    logChange_pending]

theorem baselineEnd_pending (s : State) (t : Time) (ruled : Bool) : (baselineEnd s t ruled).pending = s.pending := by
  simp only [baselineEnd, ite_pending, ite_self, toBaseline_pending, searchStep_pending]

theorem evaluationEnd_pending (s : State) (t : Time) (ruled : Bool) (f : Nat) :
    (evaluationEnd s t ruled f).pending = s.pending := by
  simp only [evaluationEnd, ite_pending, fnCount_pending, setGovFn_pending, toBaseline_pending, log_pending,
    fnRevert_pending, pastPointer_pending]
  (repeat' split) <;> simp only [toBaseline_pending, searchStep_pending, pastPointer_pending]

theorem search_pending (s : State) (t : Time) (ruled : Bool) : (search s t ruled).pending = s.pending := by
  unfold search
  (repeat' split) <;> simp only [evaluationEnd_pending, baselineEnd_pending]

theorem ruleSkip_pending (s : State) (r : Nat) (told : Bool) : (ruleSkip s r told).pending = s.pending := by
  simp only [ruleSkip, ite_pending, ite_self, setGovRule_pending, log_pending]

theorem ruleAct_pending (s : State) (r : Nat) : (ruleAct s r).pending = s.pending := by
  simp only [ruleAct, ite_pending, ite_self, fnCount_pending, setGovRule_pending, log_pending, fnCommand_pending,
    logChange_pending]

theorem ruleRun_pending (due : List Nat) (a : State × List Nat) (r : Nat) :
    (ruleRun due a r).1.pending = a.1.pending := by
  unfold ruleRun
  (repeat' split) <;> simp only [ite_pending, ite_fst, ite_self, ruleSkip_pending, ruleAct_pending]

theorem runRules_pending (s : State) (t : Time) : (runRules s t).1.pending = s.pending := by
  simp only [runRules, foldl_pending, foldl_fst_pending, implies_true, setGovRule_pending, ruleRun_pending]

theorem fnMove_pending (s : State) (m : Nat) : (fnMove s m).pending = s.pending := by
  simp only [fnMove, ite_pending, ite_self, setGovFn_pending, targetWrite_pending, fnFault_pending]

theorem govActive_pending (s : State) (t : Time) : (govActive s t).pending = s.pending := by
  simp only [govActive, ite_pending, ite_self, log_pending]

theorem govAbandon_pending (a r : State × List Nat) : (govAbandon a r).pending = r.1.pending := by
  unfold govAbandon
  split <;> simp only [ite_pending, ite_self, trialAbandon_pending]

theorem govSteps_pending (s : State) (t : Time) : (govSteps s t).pending = s.pending := by
  simp only [govSteps, ite_pending, ite_fst, ite_snd, ite_self, foldl_pending, foldl_fst_pending, implies_true,
    govActive_pending, search_pending, fnMove_pending, toBaseline_pending, fnCheck_pending, runRules_pending,
    fnThawDue_pending, govAbandon_pending, fnWatch_pending]

theorem govTick_pending (s : State) : (govTick s).pending = s.pending := by
  simp only [govTick, ite_pending, ite_self, govActive_pending, devTo_pending, govSteps_pending]

theorem execGovernorTick_queueKept (s : State) : QueueKept s.pending (execGovernorTick s) := by
  simp [execGovernorTick, queueKept_next, whenRt_queueKept, govTick_pending]

theorem govRun_pending (s : State) (k : Nat) : (govRun k s).pending = s.pending := by
  induction k generalizing s with
  | zero => rfl
  | succ k ih => simp only [govRun, govTick_pending, ih]

theorem govPass_pending (s : State) (k : Nat) : (govPass s k).pending = s.pending := by
  simp only [govPass, govRun_pending]

theorem execFreezeEnd_queueKept (s : State) (m : Nat) : QueueKept s.pending (execFreezeEnd m s) := by
  simp only [execFreezeEnd, queueKept_ite, ite_self, queueKept_next, devTo_pending, whenRt_queueKept,
    fnThawDue_pending, govPass_pending]

theorem execSettleInstant_queueKept (s : State) (m : Nat) : QueueKept s.pending (execSettleInstant m s) := by
  simp only [execSettleInstant, queueKept_ite, ite_self, queueKept_next, devTo_pending, search_pending,
    whenRt_queueKept, govPass_pending]

theorem execGovernorWindowEnd_queueKept (s : State) : QueueKept s.pending (execGovernorWindowEnd s) := by
  simp only [execGovernorWindowEnd, whenRt_queueKept]
  (repeat' split) <;> simp only [queueKept_next, govPass_pending, govTick_pending]

theorem govStart_pending (s : State) : (govStart s).pending = s.pending := by
  simp only [govStart, ite_pending, ite_self, foldl_pending, implies_true, fnTake_pending]

theorem governorEnable_pending (s : State) (v : Nat) : (governorEnable s v).1.pending = s.pending := by
  simp only [governorEnable, ite_pending, ite_fst, ite_self, setObjN_pending', govStart_pending]

theorem operatorWrite_pending (s : State) (m : Nat) (v : F32) : (operatorWrite s m v).1.pending = s.pending := by
  simp only [operatorWrite, ite_pending, ite_fst, ite_self, setGovFn_pending]

theorem govTakeover_pending (s : State) : (govTakeover s).pending = s.pending := by
  simp only [govTakeover, toBaseline_pending, trialAbandon_pending]

theorem govReset_pending (s : State) : (govReset s).pending = s.pending := by
  simp only [govReset, setObjN_pending']

/-! Machine/Steering.lean -/

theorem State.setSteer_pending (s : State) (x : Steering) : (s.setSteer x).pending = s.pending := queue_eq rfl

theorem ownerSubscribe_pending (s : State) (w : Nat × Nat × Nat) : (ownerSubscribe s w).pending = s.pending := by
  simp only [ownerSubscribe, ite_pending, ite_self, nodeAsk_pending]

theorem ownerWrite_pending (s : State) (index sub typ n v : Nat) :
    (ownerWrite s index sub typ n v).pending = s.pending := by
  simp only [ownerWrite, nodeAsk_pending]

theorem loopManual_pending (s : State) (n : Nat) (on : Bool) : (loopManual s n on).pending = s.pending := by
  simp only [loopManual, ite_pending, ite_self, loopApply_pending, wr_pending', put_pending', ownerWrite_pending]

theorem valveOn_pending (s : State) (n on : Nat) : (valveOn s n on).pending = s.pending := by
  simp only [valveOn, ite_pending, ite_self, stagePost_pending]

theorem loopChannel_pending (s : State) (n on : Nat) : (loopChannel s n on).pending = s.pending := by
  unfold loopChannel
  (repeat' split) <;> simp only [valveOn_pending, ownerWrite_pending]

theorem loopSetPoint_pending (s : State) (n : Nat) (v : F32) : (loopSetPoint s n v).pending = s.pending := by
  simp only [loopSetPoint, ite_pending, ite_self, setPointWrite_pending, ownerWrite_pending]

theorem valvesOff_pending (s : State) (l : List Nat) : (valvesOff s l).pending = s.pending := by
  simp only [valvesOff, foldl_pending, implies_true, loopManual_pending, loopChannel_pending]

theorem steerLaw_pending (s : State) (e : Errors) (v : F32) : (steerLaw s e v).pending = s.pending := by
  simp only [steerLaw, setSteer_pending, loopSetPoint_pending]

theorem steerCount_pending (s : State) (k : Nat) : (steerCount s k).pending = s.pending := by
  simp only [steerCount, setSteer_pending]

theorem engage_pending (s : State) (t : Time) (e : Errors) : (engage s t e).pending = s.pending := by
  simp only [engage, foldl_pending, implies_true, steerCount_pending, loopManual_pending, steerLaw_pending,
    log_pending, setSteer_pending, loopChannel_pending]

theorem disengage_pending (s : State) (cause : Nat) : (disengage s cause).pending = s.pending := by
  simp only [disengage, valvesOff_pending, steerCount_pending, log_pending, setSteer_pending]

theorem standbyTick_pending (s : State) (t : Time) : (standbyTick s t).pending = s.pending := by
  simp only [standbyTick, ite_pending, setSteer_pending]
  (repeat' split) <;> simp only [steerCount_pending, engage_pending, log_pending, setSteer_pending]

theorem engagedTick_pending (s : State) (t : Time) : (engagedTick s t).pending = s.pending := by
  simp only [engagedTick, ite_pending, disengage_pending, setSteer_pending]
  (repeat' split) <;> simp only [steerLaw_pending, setSteer_pending]

theorem steerPower_pending (s : State) : (steerPower s).pending = s.pending := by
  simp only [steerPower, ite_pending, ite_self, foldl_pending, implies_true, valvesOff_pending, log_pending,
    disengage_pending, ownerSubscribe_pending, setSteer_pending, ownerWrite_pending]

theorem execSteeringTick_queueKept (s : State) : QueueKept s.pending (execSteeringTick s) := by
  simp only [execSteeringTick, queueKept_ite, ite_pending, ite_self, queueKept_next, devTo_pending, steerCount_pending,
    engagedTick_pending, whenRt_queueKept, steerPower_pending, log_pending, standbyTick_pending, setSteer_pending]

theorem engageWrite_pending (s : State) (v : Nat) : (engageWrite s v).1.pending = s.pending := by
  simp only [engageWrite, ite_pending, ite_fst, ite_self, setSteer_pending]

theorem steerTouch_pending (s : State) : (steerTouch s).pending = s.pending := by
  simp only [steerTouch, setSteer_pending]

theorem geometryWrite_pending (s : State) (l : List Byte) : (geometryWrite s l).1.pending = s.pending := by
  unfold geometryWrite
  (repeat' split) <;> simp only [steerTouch_pending, setObj_pending', log_pending]

theorem execSteeringWatch_queueKept (s : State) : QueueKept s.pending (execSteeringWatch s) := by
  simp only [execSteeringWatch, queueKept_ite, ite_self, foldl_pending, implies_true, queueKept_next,
    loopApply_pending, valveOn_pending, wr_pending', set_pending', log_pending, passTo_pending]

theorem steerReset_pending (s : State) : (steerReset s).pending = s.pending := by
  simp only [steerReset, setSteer_pending]

/-! Machine/Twin.lean -/

theorem twinSend_pending (s : State) (kind : Nat) (payload : List Byte) :
    (twinSend s kind payload).pending = s.pending := by
  simp only [twinSend, flueSendOn_pending, flueSend_pending]

theorem execHeartbeatSend_queueKept (s : State) : QueueKept s.pending (execHeartbeatSend s) := by
  unfold execHeartbeatSend
  (repeat' split) <;> simp only [ite_self, queueKept_next, setFab_pending, gated_queueKept, passTo_pending,
    twinSend_pending]

theorem execMirrorSend_queueKept (s : State) : QueueKept s.pending (execMirrorSend s) := by
  unfold execMirrorSend
  (repeat' split) <;> simp only [ite_pending, ite_self, queueKept_next, setFab_pending, log_pending, gated_queueKept,
    passTo_pending, emit_pending']

theorem becomeActive_pending (s : State) : (becomeActive s).pending = s.pending := by
  simp only [becomeActive, ite_pending, ite_self, fire_pending, epochRaise_pending, flueSend_pending,
    steerReset_pending, govTakeover_pending, setFab_pending, set_pending', log_pending]

theorem execStartWaitEnd_queueKept (s : State) : QueueKept s.pending (execStartWaitEnd s) := by
  unfold execStartWaitEnd
  split <;> simp only [queueKept_ite, ite_self, queueKept_next, becomeActive_pending, passTo_pending]

theorem execTakeover_queueKept (s : State) : QueueKept s.pending (execTakeover s) := by
  simp only [execTakeover, queueKept_ite, ite_self, queueKept_next, becomeActive_pending, passTo_pending]

theorem demote_pending (s : State) (epoch serial : Nat) : (demote s epoch serial).pending = s.pending := by
  simp only [demote, ite_pending, ite_self, fire_pending, epochSet_pending, ghEpochWrite_pending, setFab_pending,
    set_pending', log_pending]

theorem heartbeat_pending (s : State) (path serial epoch : Nat) :
    (heartbeat s path serial epoch).pending = s.pending := by
  simp only [heartbeat]
  split <;> simp only [ite_pending, ite_self, epochRaise_pending, demote_pending, epochSet_pending, setFab_pending,
    set_pending']

theorem execHeartbeatReceive_queueKept (s : State) (kind path sender serial epoch seq : Nat) :
    QueueKept s.pending (execHeartbeatReceive kind path sender serial epoch seq s) := by
  simp only [execHeartbeatReceive, queueKept_ite, ite_self, queueKept_next, epochrstSend_pending, demote_pending,
    gated_queueKept, heartbeat_pending]

theorem ghEpochReset_pending (s : State) : (ghEpochReset s).pending = s.pending := by
  simp only [ghEpochReset, set_pending']

theorem epochReset_pending (s : State) (v : Nat) : (epochReset s v).1.pending = s.pending := by
  simp only [epochReset, ite_pending, ite_fst, ite_self, epochrstSend_pending, epochSet_pending, setFab_pending,
    ghEpochReset_pending]

theorem execEpochrstReceive_queueKept (s : State) (serial header old new : Nat) :
    QueueKept s.pending (execEpochrstReceive serial header old new s) := by
  simp only [execEpochrstReceive, queueKept_ite, ite_self, queueKept_next, epochSet_pending, log_pending,
    gated_queueKept, ghEpochReset_pending, count_pending']

/-! Machine/BlockWrite.lean -/

theorem done_pending (s : State) : (done s).1.pending = s.pending := queue_eq rfl

theorem ckWrite_pending (s : State) (o : Nat) (v : Word) : (ckWrite s o v).1.pending = s.pending := by
  unfold ckWrite
  split <;> simp only [done_pending, set_pending', plainWrite_pending, opRequest_pending]

theorem icWrite_pending (s : State) (who o : Nat) (v : Word) : (icWrite s who o v).1.pending = s.pending := by
  simp only [icWrite, ite_pending, ite_fst, ite_self, done_pending, clearAll_pending, complete_pending,
    doorbell_pending, plainWrite_pending, withTargets_pending (fun u => plainWrite_pending u _ v)]

theorem ceWrite_pending (s : State) (o : Nat) (v : Word) : (ceWrite s o v).1.pending = s.pending := by
  simp only [ceWrite, ite_pending, ite_fst, ite_self, done_pending, setPointWrite_pending, ceCtrlWrite_pending,
    lctrlWrite_pending, plainWrite_pending]

theorem stageWrite_pending (s : State) (a : Nat) (v : Word) : (stageWrite s a v).1.pending = s.pending := by
  simp only [stageWrite, ite_pending, ite_fst, ite_self, done_pending, stagePost_pending, plainWrite_pending]

theorem supplyWrite_pending (s : State) (v : Word) : (supplyWrite s v).pending = s.pending := by
  simp only [supplyWrite, ite_pending, ite_self, foldl_pending, implies_true, supplyClear_pending, supplyShow_pending,
    plainWrite_pending]

theorem pulseWrite_pending (s : State) (n o : Nat) (v : Word) : (pulseWrite s n o v).1.pending = s.pending := by
  unfold pulseWrite
  split <;> simp only [ite_pending, ite_fst, ite_self, done_pending, set_pending', plainWrite_pending, piClear_pending]

theorem siWrite_pending (s : State) (o : Nat) (v : Word) : (siWrite s o v).1.pending = s.pending := by
  simp only [siWrite, ite_pending, ite_fst, ite_self, done_pending, aiConfig_pending, lossEdgeWrite_pending,
    pulseWrite_pending, set_pending', siStopWrite_pending, plainWrite_pending, supplyWrite_pending]

theorem fuWrite_pending (s : State) (o : Nat) (v : Word) : (fuWrite s o v).1.pending = s.pending := by
  unfold fuWrite
  (repeat' split) <;> simp only [done_pending, fuCtrlWrite_pending, jobAbort_pending, jobSubmit_pending,
    jobAck_pending, plainWrite_pending]

theorem camWrite_pending (s : State) (o : Nat) (v : Word) : (camWrite s o v).1.pending = s.pending := by
  simp only [camWrite, ite_pending, ite_fst, ite_self, i2cWrite_pending, done_pending, camTcfgWrite_pending,
    plainWrite_pending, camPctrlWrite_pending, tapAck_pending, camConfigWrite_pending]

theorem gnWrite_pending (s : State) (o : Nat) (v : Word) : (gnWrite s o v).1.pending = s.pending := by
  unfold gnWrite
  (repeat' split) <;> simp only [ite_pending, ite_fst, ite_self, dumpAck_pending, done_pending, spacingWrite_pending,
    channelWrite_pending, ncoCommit_pending, slewWrite_pending, fadjWrite_pending, acqWrite_pending,
    plainWrite_pending, stepArm_pending, tpoWrite_pending, stepCancel_pending, gnCtrlWrite_pending]

theorem fbWrite_pending (s : State) (o : Nat) (v : Word) : (fbWrite s o v).1.pending = s.pending := by
  simp only [fbWrite, ite_pending, ite_self, done_pending, clearAll_pending, plainWrite_pending]

theorem cnCtrlWrite_pending (s : State) (c : Nat) (v : Word) : (cnCtrlWrite s c v).1.pending = s.pending := by
  simp only [cnCtrlWrite, ite_pending, ite_fst, ite_self, wr_pending', set_pending', clearAll_pending,
    busOffRecover_pending, canEnable_pending, watShow_pending, canDisable_pending]

theorem cnTxcfgField_pending (s : State) (c : Nat) (v : Word) (f : FieldDef) :
    (cnTxcfgField c v s f).pending = s.pending := by
  simp only [cnTxcfgField, ite_pending, ite_self, wr_pending']

theorem cnWrite_pending (s : State) (c o : Nat) (v : Word) : (cnWrite s c o v).1.pending = s.pending := by
  unfold cnWrite
  (repeat' split) <;> simp only [ite_pending, ite_fst, ite_self, foldl_pending, implies_true, done_pending,
    cnTxcfgField_pending, cnCtrlWrite_pending, set_pending', saWrite_pending, txRequest_pending, plainWrite_pending,
    watShow_pending, queueAck_pending, txAbort_pending]

theorem cvAccfgWrite_pending (s : State) (u : Nat) (v : Word) : (cvAccfgWrite s u v).pending = s.pending := by
  simp only [cvAccfgWrite, ite_pending, ite_self, set_pending', plainWrite_pending]

theorem cvWrite_pending (s : State) (o : Nat) (v : Word) : (cvWrite s o v).1.pending = s.pending := by
  unfold cvWrite
  split <;> simp only [ite_pending, ite_fst, ite_self, cvStart_pending, done_pending, aliveCheck_pending,
    cvShow_pending, cvAccfgWrite_pending, cvStateWrite_pending, aliveSet_pending, plainWrite_pending, cvFeed_pending]

theorem evWrite_pending (s : State) (o : Nat) (v : Word) : (evWrite s o v).1.pending = s.pending := by
  simp only [evWrite, ite_pending, ite_fst, ite_self, done_pending, eventPost_pending, plainWrite_pending]

theorem dpWrite_pending (s : State) (o : Nat) (v : Word) : (dpWrite s o v).1.pending = s.pending := by
  simp only [dpWrite, ite_pending, ite_fst, ite_self, done_pending, clearAll_pending, panelSubmit_pending,
    panelRestart_pending, panelEnable_pending, plainWrite_pending, panelDisable_pending]

theorem msWrite_pending (s : State) (who o : Nat) (v : Word) : (msWrite s who o v).1.pending = s.pending := by
  unfold msWrite
  extract_lets a
  clear_value a
  split
  case h_4 => rw [ite_fst, ite_pending, done_pending, plainWrite_pending, ite_self]
  case h_5 =>
    simp only [done_pending, ite_pending, clearAll_pending, ite_self]
    exact plainWrite_pending ..
  all_goals simp only [done_pending, stSubmit_pending, stAck_pending, stAbort_pending, dmaSubmit_pending,
    dmaAck_pending, dmaAbort_pending, plainWrite_pending]

theorem ghWrite_pending (s : State) (o : Nat) (v : Word) : (ghWrite s o v).1.pending = s.pending := by
  unfold ghWrite
  split <;> simp only [done_pending, ghSubmit_pending, ghEpochWrite_pending, ghCtrlWrite_pending, plainWrite_pending]

theorem irqEnable_pending (s : State) (a : Nat) (v : Word) : (irqEnable s a v).pending = s.pending := by
  unfold irqEnable
  refine (foldl_pending (fun u x => ?_) _ _).trans (plainWrite_pending ..)
  (repeat' split) <;> simp only [ring_pending]

theorem blockWriteNow_pending (s : State) (who a : Nat) (v : Word) :
    (blockWriteNow s who a v).1.pending = s.pending := by
  unfold blockWriteNow
  (repeat' split) <;> simp only [dpWrite_pending, done_pending, ceWrite_pending, fbWrite_pending, gnWrite_pending,
    cvWrite_pending, fuWrite_pending, camWrite_pending, siWrite_pending, ckWrite_pending, evWrite_pending,
    cnWrite_pending, stageWrite_pending, msWrite_pending, icWrite_pending, irqEnable_pending, ghWrite_pending,
    plainWrite_pending]

theorem releaseOne_pending (s : State) (e : GatedWrite) : (releaseOne s e).pending = s.pending := by
  simp only [releaseOne, ite_pending, ite_self, blockWriteNow_pending, cvFeed_pending]

theorem gateRelease_pending (s : State) : (gateRelease s).pending = s.pending := by
  simp only [gateRelease, ite_pending, ite_self, foldl_pending, implies_true, panelWake_pending, releaseOne_pending,
    gateWait_pending']

theorem blockWrite_pending (s : State) (who a : Nat) (v : Word) : (blockWrite s who a v).1.pending = s.pending := by
  simp only [blockWrite, ite_pending, ite_fst, ite_self, done_pending, gateWait_pending', gateRelease_pending,
    blockWriteNow_pending]

theorem fieldWrite_pending (s : State) (who : Nat) (f : Fld) (v : Nat) :
    (fieldWrite s who f v).1.pending = s.pending := by
  simp only [fieldWrite, ite_pending, ite_fst, ite_self, blockWrite_pending, stagePost_pending]

/-! Machine/Power.lean -/

theorem setPwr_pending (s : State) (x : Power) : (setPwr s x).pending = s.pending := queue_eq rfl

theorem setPs_pending (s : State) (x : PowerState) : (setPs s x).pending = s.pending := queue_eq rfl

theorem vbatMeasured_pending (s : State) (decivolt : Nat) : (vbatMeasured s decivolt).pending = s.pending := by
  simp only [vbatMeasured, setPwr_pending]

theorem pwrCount_pending (s : State) (k : Nat) : (pwrCount s k).pending = s.pending := by
  simp only [pwrCount, setPwr_pending]

theorem lowSupplyEnter_pending (s : State) : (lowSupplyEnter s).pending = s.pending := by
  simp only [lowSupplyEnter, ite_pending, ite_self, foldl_pending, implies_true, withTargets_pending, log_pending,
    pwrBit_pending', linkLoss_pending]

theorem lowSupplyLeave_pending (s : State) : (lowSupplyLeave s).pending = s.pending := by
  simp only [lowSupplyLeave, log_pending, pwrBit_pending', gateRelease_pending]

theorem execLowSupplyEntry_queueKept (s : State) (decivolt : Nat) :
    QueueKept s.pending (execLowSupplyEntry decivolt s) := by
  simp only [execLowSupplyEntry, ite_pending, ite_self, queueKept_next, lowSupplyEnter_pending, vbatMeasured_pending]

theorem execLowSupplyExit_queueKept (s : State) (decivolt : Nat) :
    QueueKept s.pending (execLowSupplyExit decivolt s) := by
  simp only [execLowSupplyExit, ite_pending, ite_self, queueKept_next, lowSupplyLeave_pending, vbatMeasured_pending]

theorem powerFailWarning_pending (s : State) (steep : Bool) (decivolt : Nat) :
    (powerFailWarning s steep decivolt).pending = s.pending := by
  simp only [powerFailWarning, ite_pending, ite_self, fire_pending, lowSupplyEnter_pending, pwrCount_pending,
    flashFlush_pending, set_pending', log_pending, pwrBit_pending', panelStop_pending, setPwr_pending,
    vbatMeasured_pending]

theorem execPowerFailWarning_queueKept (s : State) (steep : Bool) (decivolt : Nat) :
    QueueKept s.pending (execPowerFailWarning steep decivolt s) := by
  simp only [execPowerFailWarning, ite_pending, ite_self, queueKept_next, powerFailWarning_pending]

theorem execWarningClear_queueKept (s : State) (decivolt : Nat) :
    QueueKept s.pending (execWarningClear decivolt s) := by
  simp only [execWarningClear, ite_pending, ite_self, queueKept_next, pwrCount_pending, stStart_pending, set_pending',
    log_pending, pwrBit_pending', panelResume_pending, vbatMeasured_pending]

theorem execLogicOvervoltage_queueKept (s : State) (decivolt : Nat) :
    QueueKept s.pending (execLogicOvervoltage decivolt s) := by
  simp only [execLogicOvervoltage, ite_pending, ite_self, queueKept_next, log_pending, pwrBit_pending',
    vbatMeasured_pending]

theorem execLogicOvervoltageEnd_queueKept (s : State) (decivolt : Nat) :
    QueueKept s.pending (execLogicOvervoltageEnd decivolt s) := by
  simp only [execLogicOvervoltageEnd, ite_pending, ite_self, queueKept_next, pwrBit_pending', vbatMeasured_pending]

theorem bankUndervoltage_pending (s : State) (k decivolt : Nat) :
    (bankUndervoltage s k decivolt).pending = s.pending := by
  simp only [bankUndervoltage, ite_pending, ite_self, foldl_pending, implies_true, log_pending, pwrBit_pending',
    groupDisarm_pending, setPwr_pending, sdDisarm_pending]

theorem execBankInputUndervoltage_queueKept (s : State) (k decivolt : Nat) :
    QueueKept s.pending (execBankInputUndervoltage k decivolt s) := by
  simp only [execBankInputUndervoltage, ite_pending, ite_self, queueKept_next, bankUndervoltage_pending]

theorem execGroundOffset_queueKept (s : State) (decivolt : Nat) :
    QueueKept s.pending (execGroundOffset decivolt s) := by
  simp only [execGroundOffset, ite_pending, ite_self, queueKept_next, log_pending, pwrBit_pending', setPwr_pending]

theorem execGroundOffsetClear_queueKept (s : State) (decivolt : Nat) :
    QueueKept s.pending (execGroundOffsetClear decivolt s) := by
  simp only [execGroundOffsetClear, ite_pending, ite_self, queueKept_next, pwrBit_pending', setPwr_pending]

theorem shutdownStart_pending (s : State) : (shutdownStart s).pending = s.pending := by
  simp only [shutdownStart, pwrBit_pending', setPwr_pending]

theorem setMode_pending (s : State) (m : Nat) : (setMode s m).pending = s.pending := by
  simp only [setMode, ite_pending, ite_self, setPs_pending, setCeilings_pending, log_pending, gateRelease_pending]

theorem procs_pending (s : State) (x : Procs) : { s with procs := x }.pending = s.pending := queue_eq rfl

theorem sleepEnter_pending (s : State) : (sleepEnter s).pending = s.pending :=
  withTargets_pending (fun _ => (setMode_pending ..).trans (procs_pending ..)) s

theorem cluDue_pending (s : State) (mask wake : Nat) : (cluDue s mask wake).pending = s.pending := by
  simp only [cluDue, setPs_pending, resetDue_pending]

theorem sleepLeave_pending (s : State) (back wake : Nat) : (sleepLeave s back wake).pending = s.pending := by
  simp only [sleepLeave, ite_pending, ite_self, cluDue_pending, setPs_pending]

theorem stateRequest_pending (s : State) (v : Nat) : (stateRequest s v).1.pending = s.pending := by
  simp only [stateRequest, ite_pending, ite_fst, ite_self, setPs_pending, log_pending, setMode_pending,
    sleepLeave_pending, sleepEnter_pending]

/-! Machine/ObjWrite.lean -/

theorem errAns_pending (a : Nat) (r : State × Nat) : (errAns a r).1.pending = r.1.pending := by
  simp only [errAns, ite_fst, ite_self]

theorem okAns_pending (s : State) : (okAns s).1.pending = s.pending := queue_eq rfl

theorem ans_pending (r : State × Nat) : (ans r).1.pending = r.1.pending := queue_eq rfl

theorem wordsWrite_pending (s : State) (a : Nat) (l : List Word) : (wordsWrite s a l).1.pending = s.pending := by
  induction l generalizing s a with
  | nil => rfl
  | cons w l ih => simp only [wordsWrite, ite_pending, ite_fst, ite_self, blockWrite_pending, errAns_pending, ih]

theorem putField_pending (s : State) (f : Fld) (v : Nat) : (putField s f v).1.pending = s.pending := by
  simp only [putField, fieldWrite_pending, errAns_pending]

theorem wordsAll_pending (s : State) (a : Nat) (l : List Word) : (wordsAll s a l).1.pending = s.pending := by
  simp only [wordsAll, ite_pending, ite_fst, ite_self, foldl_pending, implies_true, wordsWrite_pending, wr_pending']

theorem backWrite_pending (s : State) (d : ObjDef) (index sub : Nat) (v : ObjVal) :
    (backWrite s d index sub v).1.pending = s.pending := by
  unfold backWrite
  split <;> simp only [ite_pending, ite_fst, ite_self, blockWrite_pending, setObj_pending', wordsAll_pending,
    putField_pending, okAns_pending, errAns_pending]

theorem writeSecurity_pending (s : State) (sub : Nat) (v : ObjVal) :
    (writeSecurity s sub v).1.pending = s.pending := by
  unfold writeSecurity
  split <;> simp only [tokenWrite_pending, debugClose_pending, slotKeyWrite_pending, slotHashWrite_pending,
    setObj_pending', transitionRequest_pending, okAns_pending, serialStaging_pending]

theorem writePower_pending (s : State) (d : ObjDef) (index sub : Nat) (v : ObjVal) :
    (writePower s d index sub v).1.pending = s.pending := by
  unfold writePower
  (repeat' split) <;> simp only [ans_pending, integrityWrite_pending, cluDue_pending, clearRetirement_pending,
    setObj_pending', set_pending', thermalEstimate_pending, backWrite_pending, resetDue_pending, okAns_pending,
    stateRequest_pending, opRequest_pending]

theorem writeTrellis_pending (s : State) (index sub : Nat) (v : ObjVal) :
    (writeTrellis s index sub v).1.pending = s.pending := by
  unfold writeTrellis
  (repeat' split) <;> simp only [ans_pending, cancel_pending, writeEntry_pending, goConfirm_pending,
    commitRequest_pending, writeRing_pending, openEntry_pending, prepare_pending]

theorem answered_pending (t : State) (c : Prop) [Decidable c] (n m : Nat) :
    (if c then ((t, n, m) : Ans) else okAns t).1.pending = t.pending := by
  rw [ite_fst, ite_pending, okAns_pending, ite_self]

theorem writeLoop_pending (s : State) (d : ObjDef) (index sub : Nat) (v : ObjVal) :
    (writeLoop s d index sub v).1.pending = s.pending := by
  unfold writeLoop
  split
  · exact (answered_pending ..).trans (fieldWrite_pending ..)
  · exact backWrite_pending ..
  · exact backWrite_pending ..
  · exact backWrite_pending ..
  · exact backWrite_pending ..
  · simp only [ite_fst, ite_pending, okAns_pending, foldl_pending (fun _ _ => wr_pending' ..), loopApply_pending,
      backWrite_pending, ite_self]

theorem armAns_pending (s : State) (arm err : Fld) (n : Nat) : (armAns s arm err n).1.pending = s.pending := by
  simp only [armAns, ite_fst, ite_self, putField_pending]

theorem writeSolenoid_pending (s : State) (d : ObjDef) (index sub : Nat) (v : ObjVal) :
    (writeSolenoid s d index sub v).1.pending = s.pending := by
  simp only [writeSolenoid, ite_pending, ite_fst]
  (repeat' split) <;> simp only [armAns_pending, bankUnlock_pending, putField_pending, backWrite_pending,
    okAns_pending, bankSwitchClearNow_pending]

theorem writeSwitch_pending (s : State) (d : ObjDef) (index sub : Nat) (v : ObjVal) :
    (writeSwitch s d index sub v).1.pending = s.pending := by
  simp only [writeSwitch, ite_pending, ite_fst]
  (repeat' split) <;> simp only [lsUnlock_pending, armAns_pending, putField_pending, backWrite_pending, okAns_pending]

theorem edgesWrite_pending (s : State) (n : Nat) (l : List Byte) : (edgesWrite s n l).1.pending = s.pending := by
  simp only [edgesWrite, ite_pending, ite_fst, ite_self, foldl_pending, implies_true, set_pending', okAns_pending]

theorem writeSensor_pending (s : State) (d : ObjDef) (index sub : Nat) (v : ObjVal) :
    (writeSensor s d index sub v).1.pending = s.pending := by
  simp only [writeSensor, ite_pending, ite_fst, ite_self, softwareStop_pending, putField_pending, rearm_pending,
    backWrite_pending, okAns_pending, edgesWrite_pending]

theorem tapPlace_pending (s : State) (c a : Nat) : (tapPlace s c a).pending = s.pending := by
  simp only [tapPlace, wr64_pending', wr_pending']

theorem writeCamera_pending (s : State) (d : ObjDef) (index sub : Nat) (v : ObjVal) :
    (writeCamera s d index sub v).1.pending = s.pending := by
  simp only [writeCamera, ite_fst, ite_snd]
  (repeat' split) <;> simp only [tapPlace_pending, blockWrite_pending, wr64_pending', mwr_pending', setObj_pending',
    putField_pending, backWrite_pending, okAns_pending, errAns_pending]

theorem writeFusion_pending (s : State) (d : ObjDef) (index sub : Nat) (v : ObjVal) :
    (writeFusion s d index sub v).1.pending = s.pending := by
  simp only [writeFusion, ite_pending, ite_fst, ite_self, ans_pending, timeWrite_pending, modelWrite_pending,
    setObj_pending', measRateWrite_pending, jobSplit_pending, put_pending', quantityReset_pending, backWrite_pending,
    writeCamera_pending, slotWrite_pending, okAns_pending, clearOrbits_pending]

theorem writeService_pending (s : State) (d : ObjDef) (index sub : Nat) (v : ObjVal) :
    (writeService s d index sub v).1.pending = s.pending := by
  unfold writeService
  (repeat' split) <;> simp only [geometryWrite_pending, steerTouch_pending, ans_pending, recordingWrite_pending,
    taskExport_pending, setObj_pending', sectionMode_pending, taskDelete_pending, governorEnable_pending,
    backWrite_pending, operatorWrite_pending, okAns_pending, engageWrite_pending, taskWrite_pending]

theorem writeFabric_pending (s : State) (d : ObjDef) (index sub : Nat) (v : ObjVal) :
    (writeFabric s d index sub v).1.pending = s.pending := by
  simp only [writeFabric, ite_pending, ite_fst, ite_self, ans_pending, syncMaster_pending, acceptReplacement_pending,
    setObj_pending', backWrite_pending, epochReset_pending, okAns_pending]
  (repeat' split) <;> simp only [setObj_pending', wordsAll_pending, putField_pending, backWrite_pending, okAns_pending]

theorem writeCan_pending (s : State) (d : ObjDef) (index sub : Nat) (v : ObjVal) :
    (writeCan s d index sub v).1.pending = s.pending := by
  simp only [writeCan, ite_pending, ite_fst, ite_self, blockWrite_pending, backWrite_pending, errAns_pending]
  (repeat' split) <;> simp only [timingDerive_pending, setObj_pending', putField_pending, backWrite_pending,
    okAns_pending]

theorem panelLoad_pending (s : State) (sub : Nat) (v : ObjVal) : (panelLoad s sub v).pending = s.pending := by
  unfold panelLoad
  split <;> simp only [foldl_pending, implies_true, wr_pending', set_pending']

theorem writeKeeper_pending (s : State) (d : ObjDef) (index sub : Nat) (v : ObjVal) :
    (writeKeeper s d index sub v).1.pending = s.pending := by
  unfold writeKeeper
  (repeat' split) <;> simp only [ite_pending, ite_fst, ite_self, updateAbort_pending, ans_pending,
    relayRequest_pending, panelLoad_pending, activate_pending, setObj_pending', rollBackRequest_pending,
    putField_pending, backWrite_pending, panelGeometryWrite_pending, okAns_pending, confirm_pending,
    intakeFragment_pending]

theorem objEffect_pending (s : State) (d : ObjDef) (index sub : Nat) (v : ObjVal) :
    (objEffect s d index sub v).1.pending = s.pending := by
  simp only [objEffect, ite_pending, ite_fst, ite_self, writeKeeper_pending, writeSensor_pending, writeFusion_pending,
    writeSolenoid_pending, backWrite_pending, writeTrellis_pending, writeFabric_pending, writePower_pending,
    writeSecurity_pending, writeLoop_pending, writeService_pending, writeSwitch_pending, writeCan_pending]
  (repeat' split) <;> simp only [okAns_pending]

theorem countChange_pending (s : State) (index sub : Nat) : (countChange s index sub).pending = s.pending :=
  queue_eq rfl

theorem mirrorNote_pending (s : State) (index sub : Nat) (ty : ObjTy) (v : ObjVal) :
    (mirrorNote s index sub ty v).pending = s.pending := by
  simp only [mirrorNote, ite_pending, ite_self, setFab_pending]

theorem checkedBy_pending {s : State} {r : Ans} (h : r.1.pending = s.pending) (d : ObjDef) (index sub : Nat)
    (v : ObjVal) :
    (checkedBy s d index sub v r).1.pending = s.pending := by
  unfold checkedBy
  (repeat' split) <;> simp only [countChange_pending, mirrorNote_pending, h]

theorem checkedWrite_pending (s : State) (d : ObjDef) (index sub : Nat) (v : ObjVal) :
    (checkedWrite s d index sub v).1.pending = s.pending := by
  simp only [checkedWrite, checkedBy_pending, objEffect_pending]

theorem writeOne_pending (s : State) (index sub ty : Nat) (bytes : List Byte) :
    (writeOne s index sub ty bytes).1.pending = s.pending := by
  unfold writeOne
  split <;> simp only [ite_pending, ite_fst, ite_self, checkedWrite_pending]

/-! Machine/Dictionary.lean -/

theorem notifyRing_pending (s : State) (seq : Nat) (msg : List Byte) :
    (notifyRing s seq msg).pending = s.pending := by
  simp only [notifyRing, ite_pending, ite_self, fire_pending, engineError_pending, set_pending', busStore_pending]

theorem notifyOne_pending (s : State) (x : Subscr) : (notifyOne s x).pending = s.pending := by
  simp only [notifyOne, ite_pending, ite_self, canMessage_pending, flueSend_pending, log_pending, notifyRing_pending,
    setDict_pending, emit_pending']

theorem notifyChanges_pending (s : State) : (notifyChanges s).pending = s.pending := by
  simp only [notifyChanges, ite_pending, ite_self, foldl_pending, implies_true, notifyOne_pending]

theorem readBytes_pending (s : State) (d : ObjDef) (index sub : Nat) :
    (readBytes s d index sub).2.pending = s.pending := by
  simp only [readBytes, ite_pending, ite_snd, ite_self, challengeRead_pending]

theorem withReadable_pending {s : State} {f : ObjDef → State × Reply} (h : ∀ d,
    (f d).1.pending = s.pending) (index sub : Nat) :
    (withReadable s index sub f).1.pending = s.pending := by
  unfold withReadable
  split
  · rfl
  · simp only [ite_fst, ite_pending, h, ite_self]

theorem opRead_pending (s : State) (index sub : Nat) : (opRead s index sub).1.pending = s.pending :=
  withReadable_pending (fun d => by simp only [ite_pending, ite_fst, ite_self, readBytes_pending]) index sub

theorem opBlockRead_pending (s : State) (index sub offset : Nat) (data : List Byte) :
    (opBlockRead s index sub offset data).1.pending = s.pending :=
  withReadable_pending (fun d => by simp only [ite_pending, ite_fst, ite_self, readBytes_pending]) index sub

theorem opDescribe_pending (s : State) (index sub : Nat) : (opDescribe s index sub).1.pending = s.pending := by
  unfold opDescribe
  split <;> simp only [ite_fst, ite_self]

theorem writeEntries_pending (s : State) (denied : Bool) (l : List (Nat × Nat × Nat × List Byte)) (k : Nat) :
    (writeEntries denied l k s).1.pending = s.pending := by
  induction l generalizing k s with
  | nil => rfl
  | cons e l ih =>
    unfold writeEntries
    (repeat' split) <;> simp only [ite_pending, ite_fst, ite_self, writeOne_pending, ih]

theorem writeAny_pending (s : State) (denied : Bool) (index sub typ : Nat) (data : List Byte) :
    (writeAny s denied index sub typ data).1.pending = s.pending := by
  unfold writeAny
  (repeat' split) <;> simp only [ite_pending, ite_fst, ite_self, writeEntries_pending, writeOne_pending]

theorem replyOf_pending (r : Ans) : (replyOf r).1.pending = r.1.pending := queue_eq rfl

theorem sessionPut_pending (s : State) (who index sub : Nat) (bytes : List Byte) :
    (sessionPut s who index sub bytes).pending = s.pending := by
  simp only [sessionPut, setDict_pending]

theorem opBlockSeg_pending (s : State) (denied : Bool) (who index sub offset : Nat) (data : List Byte) :
    (opBlockSeg s denied who index sub offset data).1.pending = s.pending := by
  simp only [opBlockSeg]
  (repeat' split) <;> simp only [sessionPut_pending]

theorem opBlockEnd_pending (s : State) (denied : Bool) (who index sub typ : Nat) (data : List Byte) :
    (opBlockEnd s denied who index sub typ data).1.pending = s.pending := by
  simp only [opBlockEnd]
  (repeat' split) <;> simp only [replyOf_pending, writeAny_pending, setDict_pending]

theorem sessionExpiry_pending (s : State) (who index sub : Nat) :
    (sessionExpiry s who index sub).pending = s.pending := by
  unfold sessionExpiry
  split <;> simp only [log_pending, setDict_pending, passTo_pending]

theorem opSubscribe_pending (s : State) (who index sub aux : Nat) :
    (opSubscribe s who index sub aux).1.pending = s.pending :=
  withReadable_pending (fun d => by simp only [ite_pending, ite_fst, ite_self, setDict_pending]) index sub

theorem opUnsubscribe_pending (s : State) (who id : Nat) : (opUnsubscribe s who id).1.pending = s.pending := by
  simp only [opUnsubscribe, ite_pending, ite_fst, ite_self, setDict_pending]

theorem periodicNotify_pending (s : State) (id : Nat) : (periodicNotify s id).pending = s.pending := by
  unfold periodicNotify
  split <;> simp only [ite_pending, ite_self, devTo_pending, notifyOne_pending, setDict_pending]

theorem keepaliveNotify_pending (s : State) (id : Nat) : (keepaliveNotify s id).pending = s.pending := by
  unfold keepaliveNotify
  split <;> simp only [ite_pending, ite_self, notifyOne_pending, passTo_pending]

theorem commitRun_pending (s : State) (fails : Option Nat) (l : List (ObjDef × Nat × Nat)) (k : Nat) :
    (commitRun fails l k s).1.pending = s.pending := by
  induction l generalizing k s with
  | nil => rfl
  | cons e l ih => simp only [commitRun, ite_pending, ite_fst, ite_self, writeRecord_pending, ih]

theorem commitList_pending (s : State) (fails : Option Nat) (l : List (ObjDef × Nat × Nat)) :
    (commitList s fails l).1.pending = s.pending := by
  simp only [commitList]
  split <;> simp only [commitRun_pending, log_pending, nextGeneration_pending]

theorem opCommit_pending (s : State) (denied : Bool) (index sub : Nat) (fails : Option Nat) :
    (opCommit s denied index sub fails).1.pending = s.pending := by
  unfold opCommit
  (repeat' split) <;> simp only [ite_pending, ite_fst, ite_self, commitList_pending]

theorem opDefaults_pending (s : State) (denied : Bool) : (opDefaults s denied).1.pending = s.pending := by
  simp only [opDefaults, ite_pending, ite_fst, ite_self, log_pending]

theorem serveOp_pending (s : State) (denied : Bool) (who op index sub typ aux : Nat) (data : List Byte)
    (fails : Option Nat) :
    (serveOp s denied who op index sub typ aux data fails).1.pending = s.pending := by
  unfold serveOp
  split <;> simp only [opRead_pending, opSubscribe_pending, opBlockSeg_pending, opBlockEnd_pending, opDescribe_pending,
    replyOf_pending, opBlockRead_pending, writeAny_pending, opDefaults_pending, opUnsubscribe_pending, opCommit_pending]

theorem queueFull_pending (s : State) : (queueFull s).pending = s.pending := by
  simp only [queueFull, ite_pending, ite_self, log_pending, setDict_pending]

theorem serve_pending (s : State) (q : Req) (op index sub typ aux : Nat) (data : List Byte) (fails : Option Nat) :
    (serve s q op index sub typ aux data fails).1.pending = s.pending := by
  simp only [serve, ite_pending, ite_fst, ite_self, epochCheck_pending, queueFull_pending, notifyChanges_pending,
    serveOp_pending]

theorem fabricRespond_pending (s : State) (q : Req) (msg : List Byte) :
    (fabricRespond s q msg).pending = s.pending := by
  simp only [fabricRespond, flueEmit_pending, setDict_pending]

theorem respond_pending (s : State) (q : Req) (op index sub : Nat) (r : Reply) :
    (respond s q op index sub r).pending = s.pending := by
  simp only [respond, ite_pending, ite_self, canMessage_pending, emit_pending', fabricRespond_pending]

theorem requestRun_pending (s : State) (q : Req) (op index sub typ aux : Nat) (data : List Byte)
    (fails : Option Nat) :
    (requestRun s q op index sub typ aux data fails).pending = s.pending := by
  simp only [requestRun]
  (repeat' split) <;> simp only [flueLeave_pending, respond_pending, serve_pending]

theorem request_pending (s : State) (q : Req) (op index sub typ aux : Nat) (data : List Byte) (fails : Option Nat) :
    (request s q op index sub typ aux data fails).pending = s.pending := by
  simp only [request, ite_pending, ite_self, requestRun_pending, peerContext_pending]

/-! Machine/Requester.lean -/

theorem State.setKp_pending (s : State) (x : Keeper) : (s.setKp x).pending = s.pending := queue_eq rfl

theorem State.setMailSlot_pending (s : State) (k : Nat) (x : MailSlot) : (s.setMailSlot k x).pending = s.pending := by
  simp only [setMailSlot, setKp_pending]

theorem slotAnswer_pending (s : State) (k : Nat) (msg : List Byte) : (slotAnswer s k msg).pending = s.pending := by
  simp only [slotAnswer, setMailSlot_pending]

theorem remoteCut_pending (s : State) (r : Remote) : (remoteCut s r).pending = s.pending := by
  simp only [remoteCut, ite_pending, ite_self, setFab_pending, dictWithdraw_pending]

theorem remoteClose_pending (s : State) (r : Remote) : (remoteClose s r).pending = s.pending := by
  simp only [remoteClose, setDict_pending]

theorem remoteEnd_pending (s : State) (r : Remote) (msg : List Byte) : (remoteEnd s r msg).pending = s.pending := by
  unfold remoteEnd
  split <;> simp only [ite_pending, ite_self, remoteClose_pending, remoteCut_pending, slotAnswer_pending]

theorem ownAnswer_pending (s : State) (r : Remote) (status : Nat) : (ownAnswer s r status).pending = s.pending := by
  simp only [ownAnswer, ite_pending, ite_self, pushAnswer_pending]

theorem remoteLate_pending (s : State) (peer : Nat) : (remoteLate s peer).pending = s.pending := by
  simp only [remoteLate, ite_pending, ite_self, setDict_pending, count_pending']

theorem remoteTake_pending (s : State) (r : Remote) (op status index sub typ aux : Nat) (data : List Byte) :
    (remoteTake s r op status index sub typ aux data).pending = s.pending := by
  simp only [remoteTake, ite_pending, ite_self, ownAnswer_pending, remoteEnd_pending, setDict_pending]

theorem remoteResponse_pending (s : State) (peer alive tag op status index sub typ aux : Nat) (data : List Byte) :
    (remoteResponse s peer alive tag op status index sub typ aux data).pending = s.pending := by
  simp only [remoteResponse, ite_fst, ite_snd]
  split <;> simp only [ite_pending, ite_self, remoteLate_pending, remoteTake_pending, fabricAlive_pending]

theorem remoteTimeout_pending (s : State) (tag : Nat) : (remoteTimeout s tag).pending = s.pending := by
  unfold remoteTimeout
  split <;> simp only [ite_pending, ite_self, ownAnswer_pending, remoteEnd_pending, passTo_pending, count_pending']

theorem notifyReceive_pending (s : State) (peer id seq index sub typ : Nat) (data : List Byte) :
    (notifyReceive s peer id seq index sub typ data).pending = s.pending := by
  unfold notifyReceive
  split <;> simp only [ite_pending, ite_self, notifyRing_pending, setDict_pending]

theorem slotClaim_pending (s : State) : (slotClaim s).1.pending = s.pending := by
  unfold slotClaim
  split <;> simp only [set_pending', setMailSlot_pending]

theorem mailRead_pending (s : State) (a n : Nat) : (mailRead s a n).2.pending = s.pending := by
  simp only [mailRead, ite_pending, ite_snd, ite_self, engineError_pending, busRead_pending]

theorem mailServe_pending (s : State) (k waiting : Nat) (fails : Option Nat) (pre msg : List Byte) :
    (mailServe s k waiting fails pre msg).pending = s.pending := by
  simp only [mailServe, ite_pending, slotAnswer_pending, setMailSlot_pending]
  (repeat' split) <;> simp only [slotAnswer_pending, setMailSlot_pending, serve_pending, remoteSend_pending]

theorem mailboxGo_pending (s : State) (k waiting : Nat) (fails : Option Nat) :
    (mailboxGo s k waiting fails).pending = s.pending := by
  simp only [mailboxGo, ite_pending, ite_fst, ite_snd, ite_self, mailRead_pending, mailServe_pending, set_pending']

theorem mailboxDone_pending (s : State) (k : Nat) : (mailboxDone s k).pending = s.pending := by
  simp only [mailboxDone, ite_pending, ite_self, fire_pending, engineError_pending, set_pending', setMailSlot_pending,
    passTo_pending, busStore_pending]

theorem mailboxRelease_pending (s : State) (k : Nat) : (mailboxRelease s k).pending = s.pending := by
  simp only [mailboxRelease, ite_pending, ite_self, foldl_pending, implies_true, remoteCut_pending, set_pending',
    setMailSlot_pending, setDict_pending]

theorem canDictMessage_pending (s : State) (peer : Nat) (m : List Byte) :
    (canDictMessage s peer m).pending = s.pending := by
  simp only [canDictMessage, ite_pending, ite_self, remoteResponse_pending, request_pending, notifyReceive_pending]

theorem canDictFrame_pending (s : State) (c : Nat) (x : CanFrame) : (canDictFrame s c x).pending = s.pending := by
  simp only [canDictFrame, peerContext_pending]
  (repeat' split) <;> simp only [aliveCheck_pending, setCan_pending, dictChecker_pending, canDictMessage_pending,
    peerContext_pending]

theorem canReceive_pending (s : State) (c what : Nat) (x : CanFrame) (t : Time) (tec rcnt : Nat) :
    (canReceive s c what x t tec rcnt).pending = s.pending := by
  simp only [canReceive, ite_pending, ite_self, setCan_pending, canCounts_pending, canDeliver_pending,
    canError_pending, canDictFrame_pending, canOffer_pending, count_pending', canCorrection_pending,
    protocolException_pending, canPump_pending]

theorem reassemblyTimeout_pending (s : State) (c src : Nat) : (reassemblyTimeout s c src).pending = s.pending := by
  unfold reassemblyTimeout
  split <;> simp only [setCan_pending, passTo_pending]

/-! Machine/Restore.lean -/

theorem correctionTake_pending (s : State) (k : Nat) (l : List Byte) :
    (correctionTake s k l).pending = s.pending := by
  simp only [correctionTake, setFuSlot_pending]

theorem restoreEffect_pending (s : State) (d : ObjDef) (index sub : Nat) (v : ObjVal) :
    (restoreEffect s d index sub v).1.pending = s.pending := by
  simp only [restoreEffect, ite_pending, ite_fst, ite_self, setObj_pending', correctionTake_pending, objEffect_pending,
    okAns_pending]

theorem restorePut_pending {s t : State} {p : Place} {v : ObjVal} (h : restorePut s p v = some t) :
    t.pending = s.pending := by
  simp only [restorePut] at h
  split at h
  · cases h; rfl
  · split at h
    · cases h
    · split at h
      · cases h; exact restoreEffect_pending ..
      · cases h

theorem recordDiscard_pending (s : State) (index sub cause : Nat) :
    (recordDiscard s index sub cause).pending = s.pending := by
  simp only [recordDiscard, log_pending]

theorem restoreDefault_pending (s : State) (p : Place) : (restoreDefault s p).pending = s.pending := by
  unfold restoreDefault
  cases h : restorePut s p (p.1.default (p.2.1 - p.1.index)) with
  | none => rfl
  | some t => exact restorePut_pending h

theorem restoreOne_pending (s : State) (last : Bool) (p : Place) : (restoreOne s last p).1.pending = s.pending := by
  unfold restoreOne
  split
  · exact restoreDefault_pending ..
  · split
    · simp only [restoreDefault_pending, recordDiscard_pending]
    · split
      next t h => exact restorePut_pending h
      · simp only [ite_pending, ite_fst, ite_self, restoreDefault_pending, recordDiscard_pending]

theorem restorePass_pending (s : State) (last : Bool) (l : List Place) :
    (restorePass last l s).1.pending = s.pending := by
  induction l generalizing s with
  | nil => rfl
  | cons p l ih => simp only [restorePass, ite_fst, ite_self, restoreOne_pending, ih]

theorem dropUnknown_pending (s : State) (l : List Place) : (dropUnknown s l).pending = s.pending := by
  simp only [dropUnknown, foldl_pending, implies_true, recordDiscard_pending]

theorem oemClear_pending (s : State) : (oemClear s).pending = s.pending := by
  simp only [oemClear]

theorem restoreAll_pending (s : State) : (restoreAll s).pending = s.pending := by
  unfold restoreAll
  rw [restorePass_pending, restorePass_pending, restorePass_pending, dropUnknown_pending, oemClear_pending]

theorem migrateOne_pending (s : State) (t : Nat) (e : Nat × Rec) : (migrateOne t s e).pending = s.pending := by
  unfold migrateOne
  split <;> simp only [setImg_pending, recordDiscard_pending]

theorem firstStart_pending (s : State) (t : Nat) : (firstStart s t).pending = s.pending := by
  simp only [firstStart, ite_pending, ite_self, foldl_pending, implies_true, migrateOne_pending, setImgState_pending,
    setImg_pending, set_pending', log_pending]

theorem imagesBefore_pending (s : State) (due types : List Nat) : (imagesBefore s due types).pending = s.pending := by
  simp only [imagesBefore, ite_pending, ite_self, foldl_pending, implies_true, firstStart_pending, rollBack_pending]

theorem bootLink_pending (s : State) (t : Nat) : (bootLink s t).pending = s.pending := by
  simp only [bootLink, ite_pending, ite_self, log_pending, slotSwap_pending]

/-! Machine/Reset.lean -/

theorem survivors_pending (s : State) (c : Cause) : (survivors s c).pending = s.pending := by
  simp only [survivors]

theorem disown_pending (s : State) : (disown s).pending = s.pending := by
  simp only [disown, foldl_pending, implies_true, set_pending']

theorem stagesHold_pending (s : State) : (stagesHold s).pending = s.pending := by
  simp only [stagesHold, foldl_pending, implies_true, set_pending', holdEntry_pending, disown_pending]

theorem keepBits_pending (s : State) (a mask : Nat) (v : Word) : (keepBits s a mask v).pending = s.pending := by
  simp only [keepBits, wr_pending']

theorem stagesClear_pending (s : State) : (stagesClear s).pending = s.pending := by
  simp only [stagesClear, keepBits_pending, stageClear_pending, disown_pending]

theorem timeFromRtc_pending (s : State) : (timeFromRtc s).pending = s.pending := by
  unfold timeFromRtc
  split <;> simp only [ite_pending, ite_self, fresh_pending', set_pending']

theorem rowRepair_pending (s : State) (e : Nat × Nat) : (rowRepair s e).pending = s.pending := by
  simp only [rowRepair, ite_pending, ite_self, log_pending]

theorem sramRepair_pending (s : State) (deep : Bool) : (sramRepair s deep).pending = s.pending := by
  simp only [sramRepair, foldl_pending, implies_true, rowRepair_pending, log_pending]

theorem selfTest_pending (s : State) (clusters : Nat) : (selfTest s clusters).pending = s.pending := by
  simp only [selfTest, ite_pending, ite_self, foldl_pending, implies_true, log_pending]

theorem watchRt_pending (s : State) (l : List Nat) (n : Nat) : (watchRt s l n).pending = s.pending := by
  simp only [watchRt, foldl_pending, implies_true, setKp_pending]

theorem watchMain_pending (s : State) (n : Nat) : (watchMain s n).pending = s.pending := by
  simp only [watchMain, setKp_pending]

theorem resetRecord_pending (s : State) (c : Cause) (time : Time) (tq stages : Nat) :
    (resetRecord s c time tq stages).pending = s.pending := by
  simp only [resetRecord, fresh_pending', setPs_pending]

theorem startNotes_pending (s : State) (c : Cause) : (startNotes s c).pending = s.pending := by
  simp only [startNotes, foldl_pending, implies_true, setPs_pending, log_pending]

theorem resetReport_pending (s : State) : (resetReport s).pending = s.pending := by
  simp only [resetReport, setPs_pending, log_pending]

theorem newCycle_pending (s : State) : (newCycle s).pending = s.pending := by
  simp only [newCycle, setEv_pending]

theorem opResume_pending (s : State) : (opResume s).pending = s.pending := by
  simp only [opResume, ite_pending, ite_self, setEv_pending]

theorem lifeChange_pending (s : State) (old new_ : Nat) (staged : Option Nat) :
    (lifeChange s old new_ staged).pending = s.pending := by
  simp only [lifeChange, ite_pending, ite_self, setObjN_pending', wr64_pending', setSec_pending, cryptoErase_pending,
    wr_pending', setImg_pending, set_pending', log_pending, setUpd_pending]

theorem assertMain_pending (s : State) (c : Cause) : (assertMain s c).pending = s.pending := by
  simp only [assertMain]
  split <;> simp only [ite_pending, ite_self, opResume_pending, pwrCount_pending, intakeCut_pending, set_pending',
    stagesClear_pending, stagesHold_pending, log_pending, survivors_pending, clocksReset_pending, resetRecord_pending,
    lifeChange_pending, newCycle_pending, flashCut_pending, timeFromRtc_pending]

theorem integrityTake_pending (s : State) (c : Cause) : (integrityTake s c).pending = s.pending := by
  simp only [integrityTake, put_pending']

theorem roleTake_pending (s : State) : (roleTake s).pending = s.pending := by
  simp only [roleTake, ite_pending, ite_self, syncMaster_pending, wr64_pending', setFab_pending, set_pending']

theorem blankStart_pending (s : State) : (blankStart s).pending = s.pending := by
  simp only [blankStart, setObjN_pending', timingDerive_pending, set_pending', canEnable_pending]

theorem stopStart_pending (s : State) : (stopStart s).pending = s.pending := by
  simp only [stopStart, ite_pending, ite_self, fire_pending, stopDiffer_pending, stopEvaluate_pending, set_pending']

theorem servicesStart_pending (s : State) : (servicesStart s).pending = s.pending := by
  simp only [servicesStart, ite_pending, ite_self, setPs_pending, pwrBit_pending', setMode_pending,
    shutdownStart_pending]

theorem emberCompare_pending (s : State) : (emberCompare s).pending = s.pending := by
  simp only [emberCompare, ite_pending, ite_self, foldl_pending, implies_true, fire_pending, nmi_pending, log_pending,
    count_pending']

theorem deviceKey_pending (s : State) (c : Cause) : (deviceKey s c).pending = s.pending := by
  simp only [deviceKey, ite_pending, ite_self, set_pending', log_pending]

theorem startUp_pending (s : State) (c : Cause) : (startUp s c).pending = s.pending := by
  simp only [startUp, ite_pending, ite_self, fresh_pending', servicesStart_pending, integrityTake_pending,
    restoreAll_pending, imagesBefore_pending, steerReset_pending, setPs_pending, recordsCheck_pending,
    resetReport_pending, watchRt_pending, setCeilings_pending, watchMain_pending, govReset_pending, setMode_pending,
    startNotes_pending, put_pending', stopStart_pending, selfTest_pending, roleTake_pending, ceEnable_pending,
    blankStart_pending, bootLink_pending]

theorem mainReset_pending (s : State) (c : Cause) : (mainReset s c).pending = s.pending := by
  simp only [mainReset, ite_pending, ite_self, sramRepair_pending, log_pending, pwrBit_pending', assertMain_pending,
    setPwr_pending, emberCompare_pending, startUp_pending, deviceKey_pending]

theorem fusionClear_pending (s : State) : (fusionClear s).pending = s.pending := by
  simp only [fusionClear, foldl_pending, implies_true, wr_pending', set_pending']

theorem gnssClear_pending (s : State) : (gnssClear s).pending = s.pending := queue_eq rfl

theorem clusterReset_pending (s : State) (clusters wake : Nat) :
    (clusterReset s clusters wake).pending = s.pending := by
  simp only [clusterReset, ite_pending, ite_self, foldl_pending, implies_true, targetLoss_pending, setPs_pending,
    resetReport_pending, fusionClear_pending, setMode_pending, gnssClear_pending, selfTest_pending, resetRecord_pending]

theorem engineClear_pending (s : State) : (engineClear s).pending = s.pending := by
  simp only [engineClear, foldl_pending, implies_true, wr_pending', set_pending', clearAll_pending]

theorem rtReset_pending (s : State) (cores : List Nat) : (rtReset s cores).pending = s.pending := by
  simp only [rtReset, foldl_pending, implies_true, targetLoss_pending, steerReset_pending, engineClear_pending,
    resetReport_pending, watchRt_pending, stagesHold_pending, govReset_pending, gnssClear_pending, resetRecord_pending,
    ceEnable_pending]

theorem keeperReset_pending (s : State) : (keeperReset s).pending = s.pending := by
  simp only [keeperReset, ite_pending, ite_self, foldl_pending, implies_true, intakeCut_pending, fresh_pending',
    imagesBefore_pending, resetReport_pending, watchRt_pending, watchMain_pending, remoteEnd_pending, setDict_pending,
    resetRecord_pending, bootLink_pending, setKp_pending]

theorem powerOff_pending (s : State) (target : Nat) (byLimit : Bool) :
    (powerOff s target byLimit).pending = s.pending := by
  unfold powerOff
  rw [setKp_pending, procs_pending, setPs_pending, pwrBit_pending', setEv_pending, spillRest_pending,
    eventDrain_pending, log_pending, pilotWrite_pending, panelHalt_pending, log_pending, setPs_pending]

theorem powerDown_pending (s : State) (target : Nat) (byLimit : Bool) :
    (powerDown s target byLimit).pending = s.pending := by
  simp only [powerDown, powerOff_pending, disarmAll_pending, passTo_pending]

theorem settle_pending (s : State) : (settle s).pending = s.pending := by
  simp only [settle]
  split <;> simp only [ite_pending, ite_self, powerDown_pending, clusterReset_pending, setPs_pending,
    mainReset_pending, keeperReset_pending]

theorem findings_pending (s : State) (f : Found) : (findings s f).pending = s.pending := queue_eq rfl

theorem wait_pending (s : State) (ns : Nat) : (wait s ns).pending = s.pending := by
  simp only [wait, passTo_pending]

theorem execPowerOnReset_queueKept (s : State) (ign away : Nat) (found : Found) :
    QueueKept s.pending (execPowerOnReset ign away found s) := by
  simp only [execPowerOnReset, queueKept_next, wait_pending, findings_pending, mainReset_pending, setPwr_pending]

theorem execPinReset_queueKept (s : State) (low : Nat) (found : Found) :
    QueueKept s.pending (execPinReset low found s) := by
  simp only [execPinReset, queueKept_ite, ite_self, queueKept_next, fresh_pending', wait_pending, findings_pending,
    mainReset_pending]

theorem execHoldupExhausted_queueKept (s : State) : QueueKept s.pending (execHoldupExhausted s) := by
  simp only [execHoldupExhausted, queueKept_ite, ite_self, queueKept_next, assertMain_pending, setMode_pending]

theorem execStartPermitted_queueKept (s : State) (decivolt : Nat) (found : Found) :
    QueueKept s.pending (execStartPermitted decivolt found s) := by
  simp only [execStartPermitted, queueKept_ite, ite_self, queueKept_next, powerOff_pending, findings_pending,
    startUp_pending, vbatMeasured_pending]

theorem execIgnRise_queueKept (s : State) (inputs away : Nat) (found : Found) :
    QueueKept s.pending (execIgnRise inputs away found s) := by
  simp only [execIgnRise, queueKept_ite, queueKept_next, wait_pending, setPwr_pending]
  (repeat' split) <;> simp only [queueKept_next, settle_pending, wait_pending, findings_pending, log_pending,
    pwrBit_pending', mainReset_pending, setPwr_pending, sleepLeave_pending]

theorem execIgnFall_queueKept (s : State) : QueueKept s.pending (execIgnFall s) := by
  simp only [execIgnFall, ite_pending, ite_self, queueKept_next, powerDown_pending, log_pending, shutdownStart_pending,
    setPwr_pending]

theorem execShutdownTimeEnd_queueKept (s : State) : QueueKept s.pending (execShutdownTimeEnd s) := by
  simp only [execShutdownTimeEnd, queueKept_ite, ite_self, queueKept_next, powerDown_pending, passTo_pending]

theorem execApplicationStart_queueKept (s : State) : QueueKept s.pending (execApplicationStart s) := by
  simp only [execApplicationStart, ite_pending, ite_self, queueKept_next, setPs_pending, whenApp_queueKept]

theorem execSleepWake_queueKept (s : State) (source : Nat) : QueueKept s.pending (execSleepWake source s) := by
  simp only [execSleepWake, queueKept_ite, ite_pending, ite_self, queueKept_next, ring_pending, settle_pending,
    sleepLeave_pending]

theorem execDeepWake_queueKept (s : State) (source away : Nat) (found : Found) :
    QueueKept s.pending (execDeepWake source away found s) := by
  simp only [execDeepWake, queueKept_ite, ite_pending, ite_self, queueKept_next, devTo_pending, wait_pending,
    findings_pending, mainReset_pending]

theorem badKick_pending (s : State) : (badKick s).pending = s.pending := by
  simp only [badKick, setKp_pending]

theorem watchdogKick_pending (s : State) (who w : Nat) (v : Word) : (watchdogKick s who w v).pending = s.pending := by
  simp only [watchdogKick, ite_pending, ite_self, badKick_pending, watchRt_pending, watchMain_pending]

theorem execWatchdogKick_queueKept (s : State) (who w : Nat) (value : Word) :
    QueueKept s.pending (execWatchdogKick who w value s) := by
  simp only [execWatchdogKick, queueKept_next, watchdogKick_pending]

theorem kpCount_pending (s : State) (k : Nat) : (kpCount s k).pending = s.pending := by
  simp only [kpCount, setKp_pending]

theorem mainExpiry_pending (s : State) : (mainExpiry s).pending = s.pending := by
  simp only [mainExpiry, ite_pending, ite_self, log_pending, assertMain_pending, setMode_pending, mainReset_pending,
    setKp_pending]

theorem execWatchdogExpiry_queueKept (s : State) (w : Nat) : QueueKept s.pending (execWatchdogExpiry w s) := by
  simp only [execWatchdogExpiry]
  split <;> simp only [ite_pending, ite_self, queueKept_next, mainExpiry_pending, rtReset_pending, log_pending,
    passTo_pending, kpCount_pending, keeperReset_pending]

theorem execClockLossRetry_queueKept (s : State) (passes : Bool) :
    QueueKept s.pending (execClockLossRetry passes s) := by
  unfold execClockLossRetry
  split <;> simp only [queueKept_ite, ite_self, queueKept_next, sysReference_pending, lockShow_pending, passTo_pending,
    startUp_pending, setKp_pending]

theorem execLockstepMismatch_queueKept (s : State) (pair : Nat) :
    QueueKept s.pending (execLockstepMismatch pair s) := by
  simp only [execLockstepMismatch, queueKept_ite, ite_self, queueKept_next, rtReset_pending, log_pending]

theorem execThermalShutdownAct_queueKept (s : State) : QueueKept s.pending (execThermalShutdownAct s) := by
  unfold execThermalShutdownAct
  split
  · rfl
  · rw [queueKept_next, pilotWrite_pending, setKp_pending, procs_pending, setPs_pending, setMode_pending,
      assertMain_pending, panelHalt_pending, setTh_pending, disarmAll_pending, passTo_pending]

/-! Machine/DictRows.lean -/

theorem ask_queueKept (s : State) (q : Req) (op index sub typ aux : Nat) (data : List Byte) (fails : Option Nat) :
    QueueKept s.pending (ask s q op index sub typ aux data fails) := by
  simp only [ask, queueKept_next, settle_pending, request_pending]

theorem execRead_queueKept (s : State) (q : Req) (index sub : Nat) :
    QueueKept s.pending (execRead q index sub s) := by
  simp only [execRead, ask_queueKept]

theorem execWrite_queueKept (s : State) (q : Req) (index sub typ : Nat) (bytes : List Byte) :
    QueueKept s.pending (execWrite q index sub typ bytes s) := by
  simp only [execWrite, ask_queueKept]

theorem execBlockRead_queueKept (s : State) (q : Req) (index sub offset most : Nat) :
    QueueKept s.pending (execBlockRead q index sub offset most s) := by
  simp only [execBlockRead, ask_queueKept]

theorem execBlockSeg_queueKept (s : State) (q : Req) (index sub offset : Nat) (bytes : List Byte) :
    QueueKept s.pending (execBlockSeg q index sub offset bytes s) := by
  simp only [execBlockSeg, ask_queueKept]

theorem execBlockEnd_queueKept (s : State) (q : Req) (index sub typ total crc : Nat) :
    QueueKept s.pending (execBlockEnd q index sub typ total crc s) := by
  simp only [execBlockEnd, ask_queueKept]

theorem execBlockSessionExpiry_queueKept (s : State) (who index sub : Nat) :
    QueueKept s.pending (execBlockSessionExpiry who index sub s) := by
  simp only [execBlockSessionExpiry, queueKept_next, sessionExpiry_pending]

theorem execSubscribe_queueKept (s : State) (q : Req) (index sub period least : Nat) :
    QueueKept s.pending (execSubscribe q index sub period least s) := by
  simp only [execSubscribe, ask_queueKept]

theorem execUnsubscribe_queueKept (s : State) (q : Req) (id : Nat) :
    QueueKept s.pending (execUnsubscribe q id s) := by
  simp only [execUnsubscribe, ask_queueKept]

theorem execPeriodicNotify_queueKept (s : State) (id : Nat) : QueueKept s.pending (execPeriodicNotify id s) := by
  simp [execPeriodicNotify, queueKept_next, whenServing_queueKept, periodicNotify_pending]

theorem execNotifyKeepalive_queueKept (s : State) (id : Nat) : QueueKept s.pending (execNotifyKeepalive id s) := by
  simp [execNotifyKeepalive, queueKept_next, whenServing_queueKept, keepaliveNotify_pending]

theorem execNotifyReceive_queueKept (s : State) (peer id seq index sub typ : Nat) (bytes : List Byte) :
    QueueKept s.pending (execNotifyReceive peer id seq index sub typ bytes s) := by
  simp [execNotifyReceive, queueKept_next, whenServing_queueKept, notifyReceive_pending]

theorem execCommit_queueKept (s : State) (q : Req) (index sub : Nat) (fails : Option Nat) :
    QueueKept s.pending (execCommit q index sub fails s) := by
  simp only [execCommit, ask_queueKept]

theorem execDescribe_queueKept (s : State) (q : Req) (index sub : Nat) :
    QueueKept s.pending (execDescribe q index sub s) := by
  simp only [execDescribe, ask_queueKept]

theorem execDefaults_queueKept (s : State) (q : Req) : QueueKept s.pending (execDefaults q s) := by
  simp only [execDefaults, ask_queueKept]

theorem execRemoteResponse_queueKept (s : State) (peer alive tag op status index sub typ aux : Nat)
    (bytes : List Byte) :
    QueueKept s.pending (execRemoteResponse peer alive tag op status index sub typ aux bytes s) := by
  simp [execRemoteResponse, queueKept_next, whenServing_queueKept, remoteResponse_pending]

theorem execRemoteTimeout_queueKept (s : State) (tag : Nat) : QueueKept s.pending (execRemoteTimeout tag s) := by
  simp [execRemoteTimeout, queueKept_next, whenServing_queueKept, remoteTimeout_pending]

theorem execSlotClaim_queueKept (s : State) : QueueKept s.pending (execSlotClaim s) := by
  simp only [execSlotClaim, queueKept_next, slotClaim_pending, emit_pending']

theorem execMailboxGo_queueKept (s : State) (slot waiting : Nat) (fails : Option Nat) :
    QueueKept s.pending (execMailboxGo slot waiting fails s) := by
  simp only [execMailboxGo, queueKept_ite, ite_self, queueKept_next, whenServing_queueKept, mailboxGo_pending]

theorem execMailboxDone_queueKept (s : State) (slot : Nat) : QueueKept s.pending (execMailboxDone slot s) := by
  simp only [execMailboxDone, queueKept_ite, ite_self, queueKept_next, whenServing_queueKept, settle_pending,
    mailboxDone_pending]

theorem execMailboxRelease_queueKept (s : State) (slot : Nat) : QueueKept s.pending (execMailboxRelease slot s) := by
  simp only [execMailboxRelease, queueKept_ite, ite_self, queueKept_next, settle_pending, mailboxRelease_pending]

theorem kpWrite_pending (s : State) (who o : Nat) (v : Word) : (kpWrite s who o v).pending = s.pending := by
  simp only [kpWrite, ite_pending, ite_self, watchdogKick_pending, settle_pending, mailboxGo_pending,
    mailboxRelease_pending, irqEnable_pending, plainWrite_pending]

theorem registerWrite_pending (s : State) (who a size : Nat) (v : Word) :
    (registerWrite s who a size v).pending = s.pending := by
  unfold registerWrite
  (repeat' split) <;> simp only [blockWrite_pending, busError_pending, gateWait_pending', kpWrite_pending,
    cvFeed_pending]

theorem execRegisterWrite_queueKept (s : State) (who addr size : Nat) (value : Word) :
    QueueKept s.pending (execRegisterWrite who addr size value s) := by
  simp only [execRegisterWrite, queueKept_ite, ite_self, queueKept_next, registerWrite_pending]

theorem execCounterClear_queueKept (s : State) (addr : Nat) : QueueKept s.pending (execCounterClear addr s) := by
  unfold execCounterClear
  split <;> simp only [queueKept_ite, ite_self, queueKept_next, fieldWrite_pending]

theorem execCanReceive_queueKept (s : State) (c what id flags : Nat) (data : List Byte) (af sdt vcid : Nat)
    (t : Time) (tec rcnt : Nat) :
    QueueKept s.pending (execCanReceive c what id flags data af sdt vcid t tec rcnt s) := by
  simp only [execCanReceive, queueKept_ite, ite_self, queueKept_next, settle_pending, canReceive_pending,
    gated_queueKept]

theorem execCanReassemblyTimeout_queueKept (s : State) (c src : Nat) :
    QueueKept s.pending (execCanReassemblyTimeout c src s) := by
  simp only [execCanReassemblyTimeout, queueKept_next, reassemblyTimeout_pending]

theorem mirrorFn_pending (s : State) (f : MirrorFn) : (mirrorFn s f).pending = s.pending := by
  simp only [mirrorFn, ite_pending, ite_self, setGovFn_pending]

theorem mirrorEstimate_pending (s : State) (e : Nat × Time × List F32) :
    (mirrorEstimate s e).pending = s.pending := by
  simp only [mirrorEstimate, ite_pending, ite_self, setQty_pending]

theorem mirrorSection_pending (s : State) (e : Nat × Time × Bool × Bool) :
    (mirrorSection s e).pending = s.pending := by
  simp only [mirrorSection, ite_pending, ite_self, setSect_pending]

theorem mirrorNode_pending (s : State) (e : Nat × Nat) : (mirrorNode s e).pending = s.pending := by
  unfold mirrorNode
  split <;> simp only [setNode_pending]

theorem execMirrorReceive_queueKept (s : State) (path seq : Nat) (block : MirrorBlock) :
    QueueKept s.pending (execMirrorReceive path seq block s) := by
  simp only [execMirrorReceive, queueKept_ite, ite_pending, ite_self, foldl_pending, implies_true, queueKept_next,
    settle_pending, mirrorFn_pending, setGovRule_pending, writeOne_pending, setFab_pending, mirrorSection_pending,
    gated_queueKept, mirrorEstimate_pending, mirrorNode_pending, sectUnsend_pending]

theorem chimneyTake_pending (s : State) (kind : Nat) (payload : List Byte) :
    (chimneyTake s kind payload).pending = s.pending := by
  unfold chimneyTake
  split <;> simp only [rtcmFrame_pending, tileMerge_pending, intakeFragment_pending]

theorem execChimneyInbound_queueKept (s : State) (kind msgId : Nat) (payload : List Byte) (crcOk : Bool) :
    QueueKept s.pending (execChimneyInbound kind msgId payload crcOk s) := by
  simp only [execChimneyInbound, queueKept_ite, ite_self, queueKept_next, chimneyTake_pending, whenApp_queueKept,
    chimneyCount_pending, emit_pending']

/-! Machine/ObjectRows.lean -/

theorem finish_queueKept {q : List Instr} {r : Ans} : QueueKept q (finish r) ↔ r.1.pending = q := by
  simp only [finish, queueKept_next, settle_pending, notifyChanges_pending, emit_pending']

theorem numberWrite_queueKept (s : State) (index sub n : Nat) : QueueKept s.pending (numberWrite index sub n s) := by
  unfold numberWrite
  (repeat' split) <;> simp only [queueKept_next, finish_queueKept, writeOne_pending]

theorem bytesWrite_queueKept (s : State) (index sub : Nat) (l : List Byte) :
    QueueKept s.pending (bytesWrite index sub l s) := by
  simp only [bytesWrite, queueKept_ite, ite_self, queueKept_next, finish_queueKept, writeOne_pending]

theorem updateWrite_queueKept {s : State} {effect : Ans} (h : effect.1.pending = s.pending) (sub t : Nat) :
    QueueKept s.pending (updateWrite sub t effect s) := by
  unfold updateWrite
  (repeat' split) <;> simp only [queueKept_next, checkedBy_pending, finish_queueKept, h]

theorem execOpenEntry_queueKept (s : State) (entry : Nat) : QueueKept s.pending (execOpenEntry entry s) := by
  simp only [execOpenEntry, numberWrite_queueKept]

theorem execTrellisEntryWrite_queueKept (s : State) (entry : Nat) (bytes : List Byte) :
    QueueKept s.pending (execTrellisEntryWrite entry bytes s) := by
  simp only [execTrellisEntryWrite, queueKept_ite, ite_self, queueKept_next, bytesWrite_queueKept]

theorem execCommitRequest_queueKept (s : State) : QueueKept s.pending (execCommitRequest s) := by
  simp only [execCommitRequest, numberWrite_queueKept]

theorem execCancel_queueKept (s : State) : QueueKept s.pending (execCancel s) := by
  simp only [execCancel, numberWrite_queueKept]

theorem execPrepare_queueKept (s : State) (boundary : Time) : QueueKept s.pending (execPrepare boundary s) := by
  simp only [execPrepare, numberWrite_queueKept]

theorem execGo_queueKept (s : State) : QueueKept s.pending (execGo s) := by
  simp only [execGo, numberWrite_queueKept]

theorem execRingConfigWrite_queueKept (s : State) (ring : Nat) (bytes : List Byte) :
    QueueKept s.pending (execRingConfigWrite ring bytes s) := by
  simp only [execRingConfigWrite, queueKept_ite, ite_self, queueKept_next, bytesWrite_queueKept]

theorem execQuantityReset_queueKept (s : State) (q : Nat) : QueueKept s.pending (execQuantityReset q s) := by
  simp only [execQuantityReset, queueKept_ite, ite_self, queueKept_next, numberWrite_queueKept]

theorem execTimeWrite_queueKept (s : State) (t : Time) : QueueKept s.pending (execTimeWrite t s) := by
  simp only [execTimeWrite, numberWrite_queueKept]

theorem execGovernorEnable_queueKept (s : State) (value : Nat) :
    QueueKept s.pending (execGovernorEnable value s) := by
  simp only [execGovernorEnable, numberWrite_queueKept]

theorem execTaskOpen_queueKept (s : State) (task : Nat) : QueueKept s.pending (execTaskOpen task s) := by
  simp only [execTaskOpen, numberWrite_queueKept]

theorem execTaskClose_queueKept (s : State) : QueueKept s.pending (execTaskClose s) := by
  simp only [execTaskClose, numberWrite_queueKept]

theorem execRecordingStart_queueKept (s : State) : QueueKept s.pending (execRecordingStart s) := by
  simp only [execRecordingStart, numberWrite_queueKept]

theorem execTaskExport_queueKept (s : State) (task : Nat) : QueueKept s.pending (execTaskExport task s) := by
  simp only [execTaskExport, numberWrite_queueKept]

theorem execTaskDelete_queueKept (s : State) (task : Nat) : QueueKept s.pending (execTaskDelete task s) := by
  simp only [execTaskDelete, numberWrite_queueKept]

theorem execSectionModeWrite_queueKept (s : State) (section_ value : Nat) :
    QueueKept s.pending (execSectionModeWrite section_ value s) := by
  simp only [execSectionModeWrite, queueKept_ite, ite_self, queueKept_next, numberWrite_queueKept]

theorem execEngageRequest_queueKept (s : State) (value : Nat) : QueueKept s.pending (execEngageRequest value s) := by
  simp only [execEngageRequest, numberWrite_queueKept]

theorem execLineGeometryWrite_queueKept (s : State) (bytes : List Byte) :
    QueueKept s.pending (execLineGeometryWrite bytes s) := by
  simp only [execLineGeometryWrite, bytesWrite_queueKept]

theorem execAcceptReplacement_queueKept (s : State) (id : Nat) :
    QueueKept s.pending (execAcceptReplacement id s) := by
  simp only [execAcceptReplacement, numberWrite_queueKept]

theorem execEpochReset_queueKept (s : State) (value : Nat) : QueueKept s.pending (execEpochReset value s) := by
  simp only [execEpochReset, numberWrite_queueKept]

theorem execClearRetirementList_queueKept (s : State) : QueueKept s.pending (execClearRetirementList s) := by
  simp only [execClearRetirementList, numberWrite_queueKept]

theorem execIntegrityProfileWrite_queueKept (s : State) (sub value : Nat) :
    QueueKept s.pending (execIntegrityProfileWrite sub value s) := by
  simp only [execIntegrityProfileWrite, numberWrite_queueKept]

theorem execGeometryWrite_queueKept (s : State) (sub value : Nat) :
    QueueKept s.pending (execGeometryWrite sub value s) := by
  simp only [execGeometryWrite, queueKept_ite, ite_self, queueKept_next, numberWrite_queueKept]

theorem execSystemReset_queueKept (s : State) (value : Nat) : QueueKept s.pending (execSystemReset value s) := by
  simp only [execSystemReset, numberWrite_queueKept]

theorem execClusterReset_queueKept (s : State) (value : Nat) : QueueKept s.pending (execClusterReset value s) := by
  simp only [execClusterReset, numberWrite_queueKept]

theorem execStateRequest_queueKept (s : State) (value : Nat) : QueueKept s.pending (execStateRequest value s) := by
  simp only [execStateRequest, numberWrite_queueKept]

theorem execChallengeRead_queueKept (s : State) : QueueKept s.pending (execChallengeRead s) := by
  simp only [execChallengeRead, queueKept_ite, ite_self, queueKept_next, challengeRead_pending, emit_pending']

theorem execTokenWrite_queueKept (s : State) (bytes : List Byte) : QueueKept s.pending (execTokenWrite bytes s) := by
  simp only [execTokenWrite, bytesWrite_queueKept]

theorem execTransitionRequest_queueKept (s : State) (value : Nat) :
    QueueKept s.pending (execTransitionRequest value s) := by
  simp only [execTransitionRequest, numberWrite_queueKept]

theorem execSerialStaging_queueKept (s : State) (number : Nat) :
    QueueKept s.pending (execSerialStaging number s) := by
  simp only [execSerialStaging, numberWrite_queueKept]

theorem execSlotHashWrite_queueKept (s : State) (bytes : List Byte) :
    QueueKept s.pending (execSlotHashWrite bytes s) := by
  simp only [execSlotHashWrite, bytesWrite_queueKept]

theorem execSlotKeyWrite_queueKept (s : State) (bytes : List Byte) :
    QueueKept s.pending (execSlotKeyWrite bytes s) := by
  simp only [execSlotKeyWrite, bytesWrite_queueKept]

theorem execDebugClose_queueKept (s : State) : QueueKept s.pending (execDebugClose s) := by
  simp only [execDebugClose, numberWrite_queueKept]

theorem execIntakeFragment_queueKept (s : State) (source : Nat) (bytes : List Byte) :
    QueueKept s.pending (execIntakeFragment source bytes s) := by
  simp only [execIntakeFragment, queueKept_ite, ite_self, queueKept_next, whenServing_queueKept, flueSendOn_pending,
    bytesWrite_queueKept, emit_pending', intakeFragment_pending]

theorem execUpdateAbort_queueKept (s : State) (t : Nat) : QueueKept s.pending (execUpdateAbort t s) := by
  simp only [execUpdateAbort, numberWrite_queueKept]

theorem execRelayRequest_queueKept (s : State) (t : Nat) (seen : List (Nat × Nat)) :
    QueueKept s.pending (execRelayRequest t seen s) :=
  updateWrite_queueKept (by simp only [ite_pending, ite_fst, ite_self, relayRequest_pending]) 4 t

theorem execActivate_queueKept (s : State) (t : Nat) : QueueKept s.pending (execActivate t s) := by
  simp only [execActivate, numberWrite_queueKept]

theorem execConfirm_queueKept (s : State) (t : Nat) : QueueKept s.pending (execConfirm t s) := by
  simp only [execConfirm, numberWrite_queueKept]

theorem execRollBack_queueKept (s : State) (t : Nat) : QueueKept s.pending (execRollBack t s) := by
  simp only [execRollBack, numberWrite_queueKept]

/-! The commands together -/

theorem exec_queueKept (c : Instr) (s : State) : QueueKept s.pending (exec c s) := by
  cases c with
  | registerWrite => exact execRegisterWrite_queueKept ..
  | counterClear => exact execCounterClear_queueKept ..
  | openEntry => exact execOpenEntry_queueKept ..
  | trellisEntryWrite => exact execTrellisEntryWrite_queueKept ..
  | commitRequest => exact execCommitRequest_queueKept ..
  | cancel => exact execCancel_queueKept ..
  | prepare => exact execPrepare_queueKept ..
  | go => exact execGo_queueKept ..
  | epochBoundaryCommit => exact execEpochBoundaryCommit_queueKept ..
  | ringConfigWrite => exact execRingConfigWrite_queueKept ..
  | stopInputChange => exact execStopInputChange_queueKept ..
  | stopBandTimeout => exact execStopBandTimeout_queueKept ..
  | stopFrameRepeat => exact execStopFrameRepeat_queueKept ..
  | stopFrameReceive => exact execStopFrameReceive_queueKept ..
  | softwareStop => exact execSoftwareStop_queueKept ..
  | stopRemoteExpiry => exact execStopRemoteExpiry_queueKept ..
  | stopRelease => exact execStopRelease_queueKept ..
  | rearm => exact execRearm_queueKept ..
  | stopDiscrepancy => exact execStopDiscrepancy_queueKept ..
  | frameBoundary => exact execFrameBoundary_queueKept ..
  | ceEnable => exact execCeEnable_queueKept ..
  | ceDisable => exact execCeDisable_queueKept ..
  | loopRun => exact execLoopRun_queueKept ..
  | loopStop => exact execLoopStop_queueKept ..
  | loopApply => exact execLoopApply_queueKept ..
  | loopTripclr => exact execLoopTripclr_queueKept ..
  | reclaim => exact execReclaim_queueKept ..
  | reclaimFrame => exact execReclaimFrame_queueKept ..
  | statusFrameReceive => exact execStatusFrameReceive_queueKept ..
  | stageLinkLoss => exact execStageLinkLoss_queueKept ..
  | stageLinkReturn => exact execStageLinkReturn_queueKept ..
  | sdOnCommand => exact execSdOnCommand_queueKept ..
  | sdOffCommand => exact execSdOffCommand_queueKept ..
  | sdModeWrite => exact execSdModeWrite_queueKept ..
  | pullinGrant => exact execPullinGrant_queueKept ..
  | peakReached => exact execPeakReached_queueKept ..
  | tpkMaxExpiry => exact execTpkMaxExpiry_queueKept ..
  | peakDwellEnd => exact execPeakDwellEnd_queueKept ..
  | decayEnd => exact execDecayEnd_queueKept ..
  | pullinWaitLate => exact execPullinWaitLate_queueKept ..
  | sdPwmCycleStart => exact execSdPwmCycleStart_queueKept ..
  | sdPwmOnEnd => exact execSdPwmOnEnd_queueKept ..
  | sdClampEventEnd => exact execSdClampEventEnd_queueKept ..
  | sdBucketLeak => exact execSdBucketLeak_queueKept ..
  | bankUnlock => exact execBankUnlock_queueKept ..
  | bankSwitchClear => exact execBankSwitchClear_queueKept ..
  | bankArm => exact execBankArm_queueKept ..
  | bankDisarm => exact execBankDisarm_queueKept ..
  | bankSwitchLimit => exact execBankSwitchLimit_queueKept ..
  | bankSwitchTrip => exact execBankSwitchTrip_queueKept ..
  | sdOverCurrent => exact execSdOverCurrent_queueKept ..
  | sdOpenLoad => exact execSdOpenLoad_queueKept ..
  | sdFclr => exact execSdFclr_queueKept ..
  | stageHoldEntry => exact execStageHoldEntry_queueKept ..
  | bankHoldExpiry => exact execBankHoldExpiry_queueKept ..
  | bankFailOffDisarm => exact execBankFailOffDisarm_queueKept ..
  | loadDumpEntry => exact execLoadDumpEntry_queueKept ..
  | loadDumpEnd => exact execLoadDumpEnd_queueKept ..
  | sdDieReset => exact execSdDieReset_queueKept ..
  | lsSwitchOn => exact execLsSwitchOn_queueKept ..
  | lsSwitchOff => exact execLsSwitchOff_queueKept ..
  | lsModeWrite => exact execLsModeWrite_queueKept ..
  | lsPwmCycleStart => exact execLsPwmCycleStart_queueKept ..
  | lsPwmOnEnd => exact execLsPwmOnEnd_queueKept ..
  | inrushWindowEnd => exact execInrushWindowEnd_queueKept ..
  | lsLimit => exact execLsLimit_queueKept ..
  | lsThermalShutdown => exact execLsThermalShutdown_queueKept ..
  | lsAutoRestart => exact execLsAutoRestart_queueKept ..
  | lsRestartCountReset => exact execLsRestartCountReset_queueKept ..
  | lsFclr => exact execLsFclr_queueKept ..
  | lsClampEventEnd => exact execLsClampEventEnd_queueKept ..
  | lsBucketLeak => exact execLsBucketLeak_queueKept ..
  | lsUnlock => exact execLsUnlock_queueKept ..
  | openLoadOn => exact execOpenLoadOn_queueKept ..
  | openLoadOff => exact execOpenLoadOff_queueKept ..
  | shortToBattery => exact execShortToBattery_queueKept ..
  | groupArm => exact execGroupArm_queueKept ..
  | groupDisarm => exact execGroupDisarm_queueKept ..
  | groupHoldExpiry => exact execGroupHoldExpiry_queueKept ..
  | lsDeferralEntry => exact execLsDeferralEntry_queueKept ..
  | lsDeferralEnd => exact execLsDeferralEnd_queueKept ..
  | powerGroundLoss => exact execPowerGroundLoss_queueKept ..
  | logicGroundLoss => exact execLogicGroundLoss_queueKept ..
  | lsDieReset => exact execLsDieReset_queueKept ..
  | aiSample => exact execAiSample_queueKept ..
  | aiConfigWrite => exact execAiConfigWrite_queueKept ..
  | aiLatchedFault => exact execAiLatchedFault_queueKept ..
  | aiFclr => exact execAiFclr_queueKept ..
  | supplyFault => exact execSupplyFault_queueKept ..
  | supplyClear => exact execSupplyClear_queueKept ..
  | pulseEdge => exact execPulseEdge_queueKept ..
  | pulsePublication => exact execPulsePublication_queueKept ..
  | piCountClear => exact execPiCountClear_queueKept ..
  | bridgeConversion => exact execBridgeConversion_queueKept ..
  | bridgeSenseOpen => exact execBridgeSenseOpen_queueKept ..
  | bridgeSenseRestore => exact execBridgeSenseRestore_queueKept ..
  | lossImpact => exact execLossImpact_queueKept ..
  | lossIntervalEnd => exact execLossIntervalEnd_queueKept ..
  | imuSample => exact execImuSample_queueKept ..
  | imuFault => exact execImuFault_queueKept ..
  | fusionEpoch => exact execFusionEpoch_queueKept ..
  | slotSample => exact execSlotSample_queueKept ..
  | disputeHorizon => exact execDisputeHorizon_queueKept ..
  | quantityReset => exact execQuantityReset_queueKept ..
  | slotConfigApply => exact execSlotConfigApply_queueKept ..
  | calibrationUpdate => exact execCalibrationUpdate_queueKept ..
  | calibrationStore => exact execCalibrationStore_queueKept ..
  | fusionJobSubmit => exact execFusionJobSubmit_queueKept ..
  | fusionJobStart => exact execFusionJobStart_queueKept ..
  | fusionJobComplete => exact execFusionJobComplete_queueKept ..
  | fusionCqAck => exact execFusionCqAck_queueKept ..
  | fusionJobAbort => exact execFusionJobAbort_queueKept ..
  | camFeedFault => exact execCamFeedFault_queueKept ..
  | camFeedSwitch => exact execCamFeedSwitch_queueKept ..
  | csiPacket => exact execCsiPacket_queueKept ..
  | camFrameStart => exact execCamFrameStart_queueKept ..
  | mergeTimeout => exact execMergeTimeout_queueKept ..
  | camFrameEnd => exact execCamFrameEnd_queueKept ..
  | tapAck => exact execTapAck_queueKept ..
  | frameSyncEdge => exact execFrameSyncEdge_queueKept ..
  | camApply => exact execCamApply_queueKept ..
  | camEnable => exact execCamEnable_queueKept ..
  | camLinkLoss => exact execCamLinkLoss_queueKept ..
  | camLinkRegain => exact execCamLinkRegain_queueKept ..
  | replayFrame => exact execReplayFrame_queueKept ..
  | i2cTransferStart => exact execI2cTransferStart_queueKept ..
  | i2cTransferEnd => exact execI2cTransferEnd_queueKept ..
  | antennaShort => exact execAntennaShort_queueKept ..
  | antennaRetry => exact execAntennaRetry_queueKept ..
  | antennaOpen => exact execAntennaOpen_queueKept ..
  | antennaClear => exact execAntennaClear_queueKept ..
  | acqGo => exact execAcqGo_queueKept ..
  | acqDone => exact execAcqDone_queueKept ..
  | channelEnable => exact execChannelEnable_queueKept ..
  | channelDisable => exact execChannelDisable_queueKept ..
  | channelDump => exact execChannelDump_queueKept ..
  | dumpInterrupt => exact execDumpInterrupt_queueKept ..
  | ncoCommit => exact execNcoCommit_queueKept ..
  | dumpAck => exact execDumpAck_queueKept ..
  | measLatch => exact execMeasLatch_queueKept ..
  | navMessage => exact execNavMessage_queueKept ..
  | positionFix => exact execPositionFix_queueKept ..
  | rtcmFrame => exact execRtcmFrame_queueKept ..
  | correctionsOld => exact execCorrectionsOld_queueKept ..
  | timeLocked => exact execTimeLocked_queueKept ..
  | timeHoldover => exact execTimeHoldover_queueKept ..
  | timeFreerun => exact execTimeFreerun_queueKept ..
  | timeWrite => exact execTimeWrite_queueKept ..
  | tpoPulse => exact execTpoPulse_queueKept ..
  | tpiEdge => exact execTpiEdge_queueKept ..
  | slewWrite => exact execSlewWrite_queueKept ..
  | stepArm => exact execStepArm_queueKept ..
  | stepCancel => exact execStepCancel_queueKept ..
  | stepPending => exact execStepPending_queueKept ..
  | timeStepExecute => exact execTimeStepExecute_queueKept ..
  | governorEnable => exact execGovernorEnable_queueKept ..
  | governorTick => exact execGovernorTick_queueKept ..
  | freezeEnd => exact execFreezeEnd_queueKept ..
  | settleInstant => exact execSettleInstant_queueKept ..
  | governorWindowEnd => exact execGovernorWindowEnd_queueKept ..
  | taskOpen => exact execTaskOpen_queueKept ..
  | taskClose => exact execTaskClose_queueKept ..
  | recordingStart => exact execRecordingStart_queueKept ..
  | taskDelete => exact execTaskDelete_queueKept ..
  | taskExport => exact execTaskExport_queueKept ..
  | exportEnd => exact execExportEnd_queueKept ..
  | tileShare => exact execTileShare_queueKept ..
  | remoteTileMerge => exact execRemoteTileMerge_queueKept ..
  | gatehouseTick => exact execGatehouseTick_queueKept ..
  | sectionModeWrite => exact execSectionModeWrite_queueKept ..
  | ghCommandSubmit => exact execGhCommandSubmit_queueKept ..
  | ghCommandExecute => exact execGhCommandExecute_queueKept ..
  | ghFlush => exact execGhFlush_queueKept ..
  | ghDisable => exact execGhDisable_queueKept ..
  | ghEpochWrite => exact execGhEpochWrite_queueKept ..
  | steeringTick => exact execSteeringTick_queueKept ..
  | engageRequest => exact execEngageRequest_queueKept ..
  | lineGeometryWrite => exact execLineGeometryWrite_queueKept ..
  | steeringWatch => exact execSteeringWatch_queueKept ..
  | portLinkChange => exact execPortLinkChange_queueKept ..
  | helloSend => exact execHelloSend_queueKept ..
  | helloReceive => exact execHelloReceive_queueKept ..
  | assignReceive => exact execAssignReceive_queueKept ..
  | bindingRelease => exact execBindingRelease_queueKept ..
  | flueFrameForward => exact execFlueFrameForward_queueKept ..
  | ringchkFlood => exact execRingchkFlood_queueKept ..
  | ringHeal => exact execRingHeal_queueKept ..
  | streamReceive => exact execStreamReceive_queueKept ..
  | setptFlood => exact execSetptFlood_queueKept ..
  | setptReceive => exact execSetptReceive_queueKept ..
  | nodeHoldExpiry => exact execNodeHoldExpiry_queueKept ..
  | gptpSync => exact execGptpSync_queueKept ..
  | syncLoss => exact execSyncLoss_queueKept ..
  | acceptReplacement => exact execAcceptReplacement_queueKept ..
  | mirrorSend => exact execMirrorSend_queueKept ..
  | heartbeatSend => exact execHeartbeatSend_queueKept ..
  | heartbeatReceive => exact execHeartbeatReceive_queueKept ..
  | startWaitEnd => exact execStartWaitEnd_queueKept ..
  | takeover => exact execTakeover_queueKept ..
  | epochReset => exact execEpochReset_queueKept ..
  | epochrstReceive => exact execEpochrstReceive_queueKept ..
  | ackRetransmit => exact execAckRetransmit_queueKept ..
  | chimneyConnect => exact execChimneyConnect_queueKept ..
  | chimneyReconnect => exact execChimneyReconnect_queueKept ..
  | chimneySend => exact execChimneySend_queueKept ..
  | chimneyAck => exact execChimneyAck_queueKept ..
  | chimneyInbound => exact execChimneyInbound_queueKept ..
  | chimneyPeriodic => exact execChimneyPeriodic_queueKept ..
  | canEnable => exact execCanEnable_queueKept ..
  | canReceive => exact execCanReceive_queueKept ..
  | queueAck => exact execQueueAck_queueKept ..
  | txRequest => exact execTxRequest_queueKept ..
  | txAttemptEnd => exact execTxAttemptEnd_queueKept ..
  | txAbort => exact execTxAbort_queueKept ..
  | busOffRecover => exact execBusOffRecover_queueKept ..
  | busOffRecoveryEnd => exact execBusOffRecoveryEnd_queueKept ..
  | addressClaimStart => exact execAddressClaimStart_queueKept ..
  | claimTimeout => exact execClaimTimeout_queueKept ..
  | contendingClaim => exact execContendingClaim_queueKept ..
  | requestForClaim => exact execRequestForClaim_queueKept ..
  | cvStart => exact execCvStart_queueKept ..
  | cvData => exact execCvData_queueKept ..
  | cvStateWrite => exact execCvStateWrite_queueKept ..
  | aliveCheck => exact execAliveCheck_queueKept ..
  | aliveSet => exact execAliveSet_queueKept ..
  | canReassemblyTimeout => exact execCanReassemblyTimeout_queueKept ..
  | read => exact execRead_queueKept ..
  | write => exact execWrite_queueKept ..
  | blockRead => exact execBlockRead_queueKept ..
  | blockSeg => exact execBlockSeg_queueKept ..
  | blockEnd => exact execBlockEnd_queueKept ..
  | blockSessionExpiry => exact execBlockSessionExpiry_queueKept ..
  | subscribe => exact execSubscribe_queueKept ..
  | unsubscribe => exact execUnsubscribe_queueKept ..
  | periodicNotify => exact execPeriodicNotify_queueKept ..
  | notifyKeepalive => exact execNotifyKeepalive_queueKept ..
  | notifyReceive => exact execNotifyReceive_queueKept ..
  | commit => exact execCommit_queueKept ..
  | describe => exact execDescribe_queueKept ..
  | defaults => exact execDefaults_queueKept ..
  | remoteResponse => exact execRemoteResponse_queueKept ..
  | remoteTimeout => exact execRemoteTimeout_queueKept ..
  | lockstepMismatch => exact execLockstepMismatch_queueKept ..
  | dmaSubmit => exact execDmaSubmit_queueKept ..
  | dmaStart => exact execDmaStart_queueKept ..
  | dmaComplete => exact execDmaComplete_queueKept ..
  | dmaCqAck => exact execDmaCqAck_queueKept ..
  | dmaAbort => exact execDmaAbort_queueKept ..
  | doorbell => exact execDoorbell_queueKept ..
  | claim => exact execClaim_queueKept ..
  | complete => exact execComplete_queueKept ..
  | scrubRead => exact execScrubRead_queueKept ..
  | clearRetirementList => exact execClearRetirementList_queueKept ..
  | storageSubmit => exact execStorageSubmit_queueKept ..
  | storageComplete => exact execStorageComplete_queueKept ..
  | storageTimeout => exact execStorageTimeout_queueKept ..
  | storageCqAck => exact execStorageCqAck_queueKept ..
  | storageAbort => exact execStorageAbort_queueKept ..
  | flashLifetimeCheck => exact execFlashLifetimeCheck_queueKept ..
  | integrityProfileWrite => exact execIntegrityProfileWrite_queueKept ..
  | monitorWindow => exact execMonitorWindow_queueKept ..
  | pllLockLoss => exact execPllLockLoss_queueKept ..
  | opRequest => exact execOpRequest_queueKept ..
  | opSequenceEnd => exact execOpSequenceEnd_queueKept ..
  | lowSupplyEntry => exact execLowSupplyEntry_queueKept ..
  | lowSupplyExit => exact execLowSupplyExit_queueKept ..
  | powerFailWarning => exact execPowerFailWarning_queueKept ..
  | warningClear => exact execWarningClear_queueKept ..
  | logicOvervoltage => exact execLogicOvervoltage_queueKept ..
  | holdupExhausted => exact execHoldupExhausted_queueKept ..
  | bankInputUndervoltage => exact execBankInputUndervoltage_queueKept ..
  | groundOffset => exact execGroundOffset_queueKept ..
  | groundOffsetClear => exact execGroundOffsetClear_queueKept ..
  | ignFall => exact execIgnFall_queueKept ..
  | ignRise => exact execIgnRise_queueKept ..
  | shutdownTimeEnd => exact execShutdownTimeEnd_queueKept ..
  | powerOnReset => exact execPowerOnReset_queueKept ..
  | pinReset => exact execPinReset_queueKept ..
  | systemReset => exact execSystemReset_queueKept ..
  | clusterReset => exact execClusterReset_queueKept ..
  | applicationStart => exact execApplicationStart_queueKept ..
  | stateRequest => exact execStateRequest_queueKept ..
  | sleepWake => exact execSleepWake_queueKept ..
  | deepWake => exact execDeepWake_queueKept ..
  | watchdogKick => exact execWatchdogKick_queueKept ..
  | watchdogExpiry => exact execWatchdogExpiry_queueKept ..
  | clockLossRetry => exact execClockLossRetry_queueKept ..
  | slotClaim => exact execSlotClaim_queueKept ..
  | mailboxGo => exact execMailboxGo_queueKept ..
  | mailboxDone => exact execMailboxDone_queueKept ..
  | mailboxRelease => exact execMailboxRelease_queueKept ..
  | eventPost => exact execEventPost_queueKept ..
  | eventRecordWrite => exact execEventRecordWrite_queueKept ..
  | eventSpill => exact execEventSpill_queueKept ..
  | thermalReading => exact execThermalReading_queueKept ..
  | damperStep2 => exact execDamperStep2_queueKept ..
  | thermalShutdownAct => exact execThermalShutdownAct_queueKept ..
  | panelSubmit => exact execPanelSubmit_queueKept ..
  | panelRowEnd => exact execPanelRowEnd_queueKept ..
  | railRise => exact execRailRise_queueKept ..
  | railFall => exact execRailFall_queueKept ..
  | thermistorRead => exact execThermistorRead_queueKept ..
  | thermistorFallback => exact execThermistorFallback_queueKept ..
  | panelReplay => exact execPanelReplay_queueKept ..
  | railFault => exact execRailFault_queueKept ..
  | panelRestart => exact execPanelRestart_queueKept ..
  | completionPop => exact execCompletionPop_queueKept ..
  | geometryWrite => exact execGeometryWrite_queueKept ..
  | challengeRead => exact execChallengeRead_queueKept ..
  | tokenWrite => exact execTokenWrite_queueKept ..
  | transitionRequest => exact execTransitionRequest_queueKept ..
  | serialStaging => exact execSerialStaging_queueKept ..
  | slotHashWrite => exact execSlotHashWrite_queueKept ..
  | slotKeyWrite => exact execSlotKeyWrite_queueKept ..
  | debugClose => exact execDebugClose_queueKept ..
  | debugExpiry => exact execDebugExpiry_queueKept ..
  | debugDatagram => exact execDebugDatagram_queueKept ..
  | intakeFragment => exact execIntakeFragment_queueKept ..
  | updateAbort => exact execUpdateAbort_queueKept ..
  | relayRequest => exact execRelayRequest_queueKept ..
  | relayNeighbourResume => exact execRelayNeighbourResume_queueKept ..
  | relayActivationStep => exact execRelayActivationStep_queueKept ..
  | activationTimeout => exact execActivationTimeout_queueKept ..
  | activate => exact execActivate_queueKept ..
  | confirm => exact execConfirm_queueKept ..
  | confirmationExpiry => exact execConfirmationExpiry_queueKept ..
  | rollBack => exact execRollBack_queueKept ..
  | powerGroundReturn => exact execPowerGroundReturn_queueKept ..
  | logicGroundReturn => exact execLogicGroundReturn_queueKept ..
  | logicOvervoltageEnd => exact execLogicOvervoltageEnd_queueKept ..
  | slewEnd => exact execSlewEnd_queueKept ..
  | startPermitted => exact execStartPermitted_queueKept ..
  | chimneyDisconnect => exact execChimneyDisconnect_queueKept ..
  | mirrorReceive => exact execMirrorReceive_queueKept ..
  | camParameterCopyEnd => exact execCamParameterCopyEnd_queueKept ..

theorem pending_of_exec {c : Instr} {s t : State} (h : exec c s = .next t) : t.pending = s.pending := by
  have hq := exec_queueKept c s
  rwa [h, queueKept_next] at hq

/-- Settles O5: a step takes the front command off the queue before it runs it, and whatever it does, a command keeps the
queue it is given. The idle module keeps the empty one. -/
theorem queueKeepsItsOrder : Obligations.QueueKeepsItsOrder := by
  unfold Obligations.QueueKeepsItsOrder
  intro s t h
  cases hq : s.pending with
  | nil =>
    rw [step_nil hq] at h
    cases h
    rw [idle_pending, hq, List.tail_nil]
  | cons c rest =>
    rw [step_cons hq] at h
    rw [pending_of_exec h, List.tail_cons]

end Sys2Proof.Machine


/-! A write of an object that the application image has created, by a processor of the module (14_object_dictionary.md R325,
R329 to R331): besides its value and its change count, the active member of a twin hearth notes it for its mirror (R289). -/
namespace Sys2Proof.Machine
open State

theorem notifyChanges_of_no_subs {s : State} (h : s.dict.subs = []) : notifyChanges s = s := by
  rw [notifyChanges, h, List.foldl_nil]

theorem cause_has_of_no_kind (wake k : Nat) : Cause.has { kinds := 0, wake := wake } k = false := by
  rw [Cause.has, Nat.zero_div]
  rfl

/-- No reset of any kind and no power-down is asked for. -/
theorem settle_of_nothing_due {s : State} (hdue : s.ps.due = 0) (hshut : s.ps.shut = none) : settle s = s := by
  have hmain : Cause.main { kinds := 0, wake := s.ps.wake } = false := by simp [Cause.main, cause_has_of_no_kind]
  simp only [settle, hdue, hmain, cause_has_of_no_kind, if_true, Bool.false_eq_true, if_false, hshut]

section
variable {s t : State} {q : Req}

/-- A request of a processor of the module that the service takes is executed and answered; where that asks for no reset and
changes no subscribed object, nothing follows. -/
theorem ask_of_local {op index sub typ aux : Nat} {b : List Byte} {fails : Option Nat} {y : Reply} (hwho : q.who < 16777216)
    (hserving : s.serving = true) (hop : [1, 2, 3, 4, 5, 6, 7, 9, 10, 11].contains op = true) (hwait : q.waiting < 256)
    (hlen : b.length ≤ 1440) (hserve : serveOp s false q.who op index sub typ aux b fails = (t, y))
    (hsubs : t.dict.subs = []) (hdue : t.ps.due = 0) (hshut : t.ps.shut = none) :
    ask s q op index sub typ aux b fails =
      .next (t.emit (.response q.who q.tag (op + 128) y.status index sub y.typ y.aux y.data)) := by
  have hserved : served s q = true := by rw [served, hserving, Bool.true_or]
  have hfab : overFabric q.who = false := by rw [overFabric, decide_eq_false (by omega), Bool.false_and]
  have hcan : overCan q.who = false := decide_eq_false (by omega)
  have hrun : request s q op index sub typ aux b fails =
      t.emit (.response q.who q.tag (op + 128) y.status index sub y.typ y.aux y.data) := by
    simp only [request, requestRun, serve, respond, hserved, hfab, hcan, hop, if_neg (Nat.not_le.2 hwait),
      if_neg (Nat.not_lt.2 hlen), hserve, notifyChanges_of_no_subs hsubs, Bool.true_eq_false, Bool.false_eq_true, and_false,
      if_false]
  rw [ask, hrun, settle_of_nothing_due (s := t.emit _) hdue hshut]

variable {index sub : Nat} {o : Oem} {b : List Byte} {v : ObjVal}

theorem find_oem (hlow : 0x4000 ≤ index) (hhigh : index < 0x8000) (hsub : 1 ≤ sub) (hlife : s.lifeCycle ≠ 0)
    (ho : Tbl.get s.oem none (objKey index sub) = some o) : find s index sub = some (rowOf index sub o.typ o.acc o.value) := by
  have hcap : isCapability index = false := by
    rw [isCapability, decide_eq_false (p := index < 0x1117) (by omega), Bool.and_false]
  simp only [find, hlife, hcap, ho, Nat.ne_of_gt hsub, hlow, hhigh, false_and, and_self, if_true, if_false, Option.map_some,
    Bool.false_eq_true]

/-- The object takes a value. -/
def oemPut (s : State) (index sub : Nat) (o : Oem) (v : ObjVal) : State :=
  { s with oem := Tbl.set s.oem none (objKey index sub) (some { o with value := v }) }

theorem objEffect_oem (d : ObjDef) (hlow : 0x4000 ≤ index) (hhigh : index < 0x8000)
    (ho : Tbl.get s.oem none (objKey index sub) = some o) : objEffect s d index sub v = okAns (oemPut s index sub o v) := by
  simp only [objEffect, ho, hlow, hhigh, and_self, if_true, oemPut]

theorem not_stateRefused_of_oem (hlow : 0x4000 ≤ index) (hlife : s.lifeCycle = 2) : stateRefused s index sub = false := by
  have hfree : lifeRefused s index sub = false := by simp only [lifeRefused, hlife]
  have hne {k : Nat} (h : k < 0x4000) : (index == k) = false := beq_false_of_ne (by omega)
  simp only [stateRefused, serviceOnly, hfree, hne, Nat.reduceLT, Bool.false_and, Bool.and_false, Bool.or_false]

theorem rangeLink_oem (hlow : 0x4000 ≤ index) : rangeLink s index sub v = true :=
  (if_neg (by omega)).trans ((if_neg (by omega)).trans ((if_neg (by omega)).trans
    ((if_neg (by omega)).trans (if_neg (by omega)))))

theorem rangeMore_oem (hlow : 0x4000 ≤ index) : rangeMore s index sub v = true := by
  rw [rangeMore, if_neg (by omega), if_neg (by omega), if_neg (by omega), if_neg (by omega), rangeLink_oem hlow]

theorem not_busyNow_of_oem (hlow : 0x4000 ≤ index) : busyNow s index sub = false := by
  have hlt {k : Nat} (h : k ≤ 0x4000) : ¬ index < k := by omega
  have hne {k : Nat} (h : k < 0x4000) : ¬ index = k := by omega
  simp only [busyNow, hlt, hne, Nat.reduceLeDiff, Nat.reduceLT, and_false, if_false]

theorem conflictWith_oem {n : Nat} (hlow : 0x4000 ≤ index) : conflictWith s index sub n = none := by
  have hlt {k : Nat} (h : k ≤ 0x4000) : ¬ index < k := by omega
  have hne {k : Nat} (h : k < 0x4000) : ¬ index = k := by omega
  simp only [conflictWith, hlt, hne, Nat.reduceLeDiff, Nat.reduceLT, and_false, if_false]

section
variable (s : State) (index sub : Nat) (ty : ObjTy) (v : ObjVal)

theorem mirrorNote_dict : (mirrorNote s index sub ty v).dict = s.dict := by
  unfold mirrorNote
  split <;> rfl

theorem mirrorNote_ps : (mirrorNote s index sub ty v).ps = s.ps := by
  unfold mirrorNote
  split <;> rfl

theorem mirrorNote_of_active (htwin : s.get R.fbStatTwin = 1) (hown : index ≠ 0x1000 ∧ index ≠ 0x3080) :
    (mirrorNote s index sub ty v).fab.mirrorWrites = s.fab.mirrorWrites ++ [(index, sub, ty.code, v.encode ty)] :=
  congrArg (fun u : State => u.fab.mirrorWrites) (if_pos ⟨htwin, hown⟩)

end

/-- The object takes a value by an accepted write: the twin's note of it and the change count follow. -/
def oemWritten (s : State) (index sub : Nat) (o : Oem) (v : ObjVal) : State :=
  countChange (mirrorNote (oemPut s index sub o v) index sub o.typ v) index sub

section
variable (hlow : 0x4000 ≤ index) (hhigh : index < 0x8000) (ho : Tbl.get s.oem none (objKey index sub) = some o)
include hlow hhigh ho

theorem checkedWrite_oem (n : Nat) : checkedWrite s (rowOf index sub o.typ o.acc o.value) index sub (.num n) =
    (oemWritten s index sub o (.num n), St.ok, 0) := by
  simp [checkedWrite, checkedBy, objEffect_oem _ hlow hhigh ho, okAns, rangeMore_oem hlow, not_busyNow_of_oem hlow,
    conflictWith_oem hlow, rowOf, inRange, oemWritten, St.ok, St.state, St.range, St.busy]

variable (hsub : 1 ≤ sub) (hlife : s.lifeCycle = 2) (hacc : o.acc = .rw) (htyp : o.typ = .u16) (hlen : b.length = 2)
include hsub hlife hacc htyp hlen

theorem writeOne_oem : writeOne s index sub 2 b = (oemWritten s index sub o (.num (leNat b)), St.ok, 0) := by
  have hwritable : (rowOf index sub o.typ o.acc o.value).acc ≠ .ro := by simp [rowOf, hacc]
  have hfits : typeFits (rowOf index sub o.typ o.acc o.value) 2 b.length = true := by
    simp [typeFits, rowOf, htyp, hlen, ObjTy.code, ObjTy.size]
  have hvalue : ObjVal.decode (rowOf index sub o.typ o.acc o.value).typ b = .num (leNat b) := by
    simp only [rowOf, htyp, ObjVal.decode]
  simp only [writeOne, find_oem hlow hhigh hsub (by omega) ho, if_neg hwritable, not_stateRefused_of_oem hlow hlife, hfits,
    hvalue, checkedWrite_oem hlow hhigh ho, if_true, Bool.false_eq_true, if_false]

theorem writeAny_oem : writeAny s false index sub 2 b = (oemWritten s index sub o (.num (leNat b)), St.ok, 0) := by
  have hgate : writeGate s false index sub = none := by
    simp [writeGate, find_oem hlow hhigh hsub (by omega) ho, rowOf, hacc]
  simp only [writeAny, if_neg (show index ≠ 0 by omega), hgate, writeOne_oem hlow hhigh ho hsub hlife hacc htyp hlen]

/-- What the write does: the accepted write, then its response. -/
theorem exec_write_oem (hwho : q.who < 16777216) (hwait : q.waiting < 256) (hserving : s.serving = true)
    (hsubs : s.dict.subs = []) (hdue : s.ps.due = 0) (hshut : s.ps.shut = none) :
    exec (.write q index sub 2 b) s =
      .next ((oemWritten s index sub o (.num (leNat b))).emit (.response q.who q.tag 0x82 St.ok index sub 0 0 [])) := by
  have hserve : serveOp s false q.who 0x02 index sub 2 0 b none =
      (oemWritten s index sub o (.num (leNat b)), refuse St.ok 0) :=
    congrArg replyOf (writeAny_oem hlow hhigh ho hsub hlife hacc htyp hlen)
  refine ask_of_local hwho hserving (by decide) hwait (by omega) hserve ?_ ?_ ?_
  · exact (congrArg Service.subs (mirrorNote_dict ..)).trans hsubs
  · exact (congrArg PowerState.due (mirrorNote_ps ..)).trans hdue
  · exact (congrArg PowerState.shut (mirrorNote_ps ..)).trans hshut

end
end

/-- The active member of a twin hearth in service, with one writable object of the application image, 0x4005:03. -/
def activeTwin : State :=
  { (State.reset.set R.secLcState 2).set R.fbStatTwin 1 with
    roleInEffect := 1, oem := [(objKey 0x4005 3, some { typ := .u16 })] }

/-- A request of a processor of the module. -/
def processorRequest : Req := { who := 0, tag := 1, seq := 0, waiting := 0, serial := 0, epoch := 0 }

/-- Refutes O48: on the active member of a twin hearth an accepted write of an object of the application image is also noted for
the mirror (R289), a change of the state that the statement's WRITE does not have. -/
theorem not_dictionaryReadsAndWrites : ¬ Obligations.DictionaryReadsAndWrites := by
  unfold Obligations.DictionaryReadsAndWrites
  rintro ⟨h, -⟩
  have hserving : activeTwin.serving = true := by decide +kernel
  have hlife : activeTwin.lifeCycle = 2 := by decide +kernel
  have htwin : activeTwin.get R.fbStatTwin = 1 := by decide +kernel
  obtain ⟨-, -, -, hwrite, -⟩ := h activeTwin processorRequest 0x4005 3 2 0 0 0 [7, 8] (rowOf 0 0 .u8 .ro (.num 0))
    { typ := .u16 } {} (by decide) (by decide) hserving rfl rfl rfl (by decide)
  have hsays := hwrite (by decide) (by decide) (by decide) (by decide) hlife rfl rfl rfl rfl
  have hdoes := exec_write_oem (s := activeTwin) (q := processorRequest) (index := 0x4005) (sub := 3) (b := [7, 8])
    (o := { typ := .u16 }) (by decide) (by decide) rfl (by decide) hlife rfl rfl rfl (by decide) (by decide) hserving rfl rfl rfl
  have hnotes := congrArg (fun u : State => u.fab.mirrorWrites) (Host.Outcome.next.inj (hsays.symm.trans hdoes))
  have hnoted := mirrorNote_of_active (oemPut activeTwin 0x4005 3 { typ := .u16 } (.num (leNat [7, 8]))) 0x4005 3 .u16
    (.num (leNat [7, 8])) htwin ⟨by decide, by decide⟩
  exact List.cons_ne_nil _ _ (hnotes.trans hnoted).symm

end Sys2Proof.Machine

/-! Where the intake queue is full, an event is dropped and counted in EV_DROPPED (20_keeper_events_thermal.md R448), a register
that three statements leave out of those that a command with an event changes. -/
namespace Sys2Proof.Machine
open State

/-- An event dropped at the full intake queue counts in EV_DROPPED (R448). -/
theorem log_rd_dropped {s : State} {code : Nat} (data : List Byte) (hcode : listed code = true)
    (hfull : 64 ≤ s.ev.intake.length) : (s.log code data).rd R.evDropped = s.rd R.evDropped + 1 := by
  have hplace : irqPlace 537 = some (R.evIrqStat, R.evIrqEn, 1) := rfl
  have hcounted (u : State) : (((u.count R.evDropped).set R.evStatLost 1).fire 537).rd R.evDropped = u.rd R.evDropped + 1 := by
    rw [fire_rd_of_place _ hplace (by decide) (by decide), set_rd_ne _ _ _ _ (by decide), set_rd_ne _ _ _ _ (by decide)]
    exact wr_rd_self _ _ _
  rw [log, if_pos hcode, intake, if_neg (Nat.not_lt.2 hfull)]
  split
  · exact hcounted _
  · exact hcounted _

/-- The module as delivered, but with 64 events in the intake queue. -/
def fullIntake : State := { State.reset with ev := { intake := List.replicate 64 {} } }

/-- A command that leaves EV_DROPPED and the full queue up to its event does not leave EV_DROPPED as it was. -/
theorem log_rd_ne_fullIntake {u : State} {code : Nat} (data : List Byte) (hcode : listed code = true)
    (hev : u.ev = fullIntake.ev) (hrd : u.rd R.evDropped = fullIntake.rd R.evDropped) :
    (u.log code data).rd R.evDropped ≠ fullIntake.rd R.evDropped := by
  rw [log_rd_dropped data hcode (by rw [hev]; decide), hrd]
  bv_omega

theorem doorbell_ignored {s : State} {who n : Nat} (hwho : who < 13) (hn : n < 576)
    (hlog : s.secondPassed s.procs.doorbellErrAt = true) :
    doorbell s who n =
      ({ (s.count R.icSwdbIgn).set R.icStatSwdbErr 1 with procs := { s.procs with doorbellErrAt := some s.now } } : State).log
        0x0405 (leBytes 1 who ++ leBytes 2 n) := by
  rw [doorbell, if_pos ⟨hwho, hn⟩]
  exact if_pos hlog

theorem complete_ignored {s : State} {who t n : Nat} (ht : t < 13) (hn : who ≠ t ∨ n ≠ running s t)
    (hlog : s.secondPassed s.procs.completeErrAt = true) :
    complete s who t n =
      ({ (s.count R.icCmplErr).set R.icStatCerr 1 with procs := { s.procs with completeErrAt := some s.now } } : State).log
        0x0404 (leBytes 1 t ++ leBytes 2 n ++ leBytes 2 (running s t)) := by
  rw [complete, if_neg (Nat.not_le.2 ht), if_pos hn]
  exact if_pos hlog

theorem exec_logicOvervoltage {s : State} (v : Nat) (hmode : s.ps.mode ≠ 4) (h : s.pwrFlag 2 = false) :
    exec (.logicOvervoltage v) s = .next (((vbatMeasured s v).pwrBit 2 true).log 0x0104 (leBytes 2 v)) :=
  congrArg _ (if_pos ⟨by simpa [keeperUp] using hmode, h⟩)

/-- Refutes O50: with a full intake queue the event of an ignored doorbell write counts in EV_DROPPED. -/
theorem not_doorbellsSetSourcesPending : ¬ Obligations.DoorbellsSetSourcesPending := by
  unfold Obligations.DoorbellsSetSourcesPending
  rintro ⟨h, -⟩
  obtain ⟨-, -, hsays, -⟩ := h fullIntake 0 0 0 0 0
  clear h
  obtain ⟨u, hu, -, -, hregs, -⟩ := hsays (by decide) (by decide) rfl
  have hdoes : u = doorbell fullIntake 0 0 := (Host.Outcome.next.inj hu).symm
  have hsame : u.rd R.evDropped = fullIntake.rd R.evDropped := hregs R.evDropped (by decide)
  rw [hdoes, doorbell_ignored (by decide) (by decide) rfl] at hsame
  refine log_rd_ne_fullIntake _ ?_ ?_ ?_ hsame
  · decide
  · rfl
  · decide +kernel

/-- Refutes O52: with a full intake queue the event of an ignored completion counts in EV_DROPPED. -/
theorem not_serviceEndsAndTransfersRun : ¬ Obligations.ServiceEndsAndTransfersRun := by
  unfold Obligations.ServiceEndsAndTransfersRun
  intro h
  obtain ⟨-, hsays, -⟩ := h fullIntake 0 0 5 0 0 0 0 0 [] {} rfl
  clear h
  have hother : 0 ≠ 0 ∨ 5 ≠ running fullIntake 0 := by decide +kernel
  obtain ⟨u, hu, -, -, hregs, -⟩ := hsays (by decide) (by decide) hother rfl
  have hdoes : u = complete fullIntake 0 0 5 := (Host.Outcome.next.inj hu).symm
  have hsame : u.rd R.evDropped = fullIntake.rd R.evDropped := hregs R.evDropped (by decide)
  rw [hdoes, complete_ignored (by decide) hother rfl] at hsame
  refine log_rd_ne_fullIntake _ ?_ ?_ ?_ hsame
  · decide
  · rfl
  · decide +kernel

/-- Refutes O55: with a full intake queue the event of an over-voltage counts in EV_DROPPED. -/
theorem not_supplyConditionsAct : ¬ Obligations.SupplyConditionsAct := by
  unfold Obligations.SupplyConditionsAct
  intro h
  obtain ⟨-, -, -, -, -, hsays, -⟩ := h fullIntake 0 0 0 false {} (by decide)
  clear h
  obtain ⟨t, ht, -, hregs, -⟩ := hsays rfl
  have hdoes := Host.Outcome.next.inj (ht.symm.trans (exec_logicOvervoltage 0 (by decide) rfl))
  have hsame : t.rd R.evDropped = fullIntake.rd R.evDropped := by rw [State.rd, State.rd, hregs]
  rw [hdoes] at hsame
  refine log_rd_ne_fullIntake _ ?_ ?_ ?_ hsame
  · decide
  · rfl
  · rfl

end Sys2Proof.Machine

/-! A start of the main die adds to its reset record the kinds that came up while it ran (19_reset_retention.md R422), which two
statements about the record leave out; and the loss of many nodes fills the intake queue before the event that a third expects. -/
namespace Sys2Proof.Machine
open State

/-- The module as delivered, with the SRAM of the Keeper failed (its starts stop before the main die is released) and a watchdog
reset that will come up during a start (log entry 47). -/
def watchdogDuring : State := { State.reset with sram := { failed := [250] }, hw := { during := [3] } }

theorem exec_pinReset_of_long {s : State} {n : Nat} (f : Found) (hmode : s.ps.mode ≠ 4) (hn : 10000 ≤ n) :
    exec (.pinReset n f) s = .next (wait (mainReset (findings s f) { kinds := 4 }) n) := by
  have hup : ¬ (keeperUp s = false ∨ n < 2000) := by simp [keeperUp, hmode]; omega
  exact (if_neg hup).trans (if_neg fun ⟨hlt, _⟩ => by omega)

/-- Refutes O56: a watchdog reset that comes up during the start after a pin reset joins its record (R422), which then shows the
kinds PIN and KWD. -/
theorem not_resetsAndStatesFollow : ¬ Obligations.ResetsAndStatesFollow := by
  unfold Obligations.ResetsAndStatesFollow
  intro h
  obtain ⟨-, hsays, -⟩ := h watchdogDuring 10000 0 0 0 0 0 { during := [3] } {}
  clear h
  obtain ⟨t, ht, -, hkinds, -⟩ := hsays (by decide) (by decide)
  have hdoes := Host.Outcome.next.inj (ht.symm.trans (exec_pinReset_of_long _ (by decide) (by decide)))
  have hboth : natAt (wait (mainReset (findings watchdogDuring { during := [3] }) { kinds := 4 }) 10000).ps.record 2 2 = 12 := by
    decide +kernel
  rw [hdoes, hboth] at hkinds
  exact absurd hkinds (by decide)

/-- Refutes O59: a watchdog reset that comes up during the start after a life-cycle transition joins its record (R422), which
then shows the kinds LCR and KWD. -/
theorem not_securityActsAreGuarded : ¬ Obligations.SecurityActsAreGuarded := by
  unfold Obligations.SecurityActsAreGuarded
  intro h
  obtain ⟨-, -, hsays, -, -, -, -, -, -, -, -, -, -, -, -, -, -, -, hwrites, -⟩ := h watchdogDuring [] 4 0 0 0 0 0 0 {}
  clear h
  have hserves : Serves watchdogDuring := by unfold Serves; decide +kernel
  have hlife : watchdogDuring.lifeCycle = 1 := by decide +kernel
  have hfree : awaitsConfirmation watchdogDuring = false := by decide +kernel
  obtain ⟨t, ht, -, -, hkinds, -⟩ := hsays hserves rfl rfl rfl (.inr ⟨hlife, rfl⟩) hfree
  have haccepts : (transitionRequest watchdogDuring 4).2.1 = St.ok := by decide +kernel
  have hdoes := Host.Outcome.next.inj (ht.symm.trans (hwrites hserves (.inr rfl)))
  rw [if_pos haccepts] at hdoes
  have hboth : natAt (accepted (transitionRequest watchdogDuring 4).1 0x1200 4 .u8 (.num 4)).ps.record 2 2 = 264 := by
    decide +kernel
  rw [hdoes, hboth] at hkinds
  exact absurd hkinds (by decide)

/-- A Hearth whose recovered clock arrives over port 0, behind which 20 nodes stand, with room for 16 events in the intake
queue. -/
def hearthOverPort : State :=
  { ((State.reset.set R.ckStatRecclk 1).set (R.fbPstatLink 0) 1).set R.fbStatNodeid 1 with
    roleInEffect := 1
    fab := { links := [⟨1, 0, 2, 0⟩], nodes := (List.range 20).map fun k => (k + 2, some {}) }
    clk := { runs := [0, 0, 0, 1] }
    ev := { intake := List.replicate 48 {} } }

/-- Refutes O54: when the recovered clock fails, its link goes down first, and the events of the 20 lost nodes (R281) leave no
room for event 0x0302. -/
theorem not_clocksAreMonitored : ¬ Obligations.ClocksAreMonitored := by
  unfold Obligations.ClocksAreMonitored
  intro h
  obtain ⟨-, -, -, -, hsays, -⟩ := h hearthOverPort 25000 100000 0 0 0 0 none none 0
  clear h
  obtain ⟨t, ht, -, -, hlogged, -⟩ := hsays (by decide) (by decide) (by decide) (by decide) (by decide) (by decide) rfl
    (by decide +kernel)
  have hdoes : t = monitorWindow hearthOverPort 25000 100000 none (some 0) 0 := (Host.Outcome.next.inj ht).symm
  obtain ⟨e, he, hcode⟩ := hlogged (by unfold Room; decide)
  have hdropped : ∀ e ∈ (monitorWindow hearthOverPort 25000 100000 none (some 0) 0).ev.intake, e.code ≠ 0x0302 := by
    decide +kernel
  rw [hdoes] at he
  exact hdropped e he hcode

end Sys2Proof.Machine

/-! What a read of the claim register returns and changes (15_processors_interrupts.md R366 to R368). -/
namespace Sys2Proof.Machine
open State

/-! Assignment in rising order of sources (R367) -/

theorem pairwise_candidates (s : State) : (candidates s).Pairwise (· < ·) := by
  have hbits (w : Word) (k : Nat) : (((List.range 32).filter fun b => bit w b).map fun b => 32 * k + b).Pairwise (· < ·) :=
    List.pairwise_map.2 ((List.pairwise_lt_range.filter _).imp fun h => by omega)
  refine List.pairwise_flatMap.2 ⟨fun k _ => ?_, List.pairwise_lt_range.imp fun {k j} hkj x hx y hy => ?_⟩
  · dsimp only
    split
    · exact List.Pairwise.nil
    · exact hbits _ k
  · have hrange {k x : Nat} {w : Word}
        (h : x ∈ (if w = 0 then [] else ((List.range 32).filter fun b => bit w b).map fun b => 32 * k + b)) :
        32 * k ≤ x ∧ x < 32 * k + 32 := by
      split at h
      · simp at h
      · simp only [List.mem_map, List.mem_filter, List.mem_range] at h
        omega
    have hlow := hrange hx
    have hhigh := hrange hy
    omega

theorem lt_of_mem_candidates {s : State} {n : Nat} (h : n ∈ candidates s) : n < 1024 := by
  simp only [candidates, List.mem_flatMap, List.mem_range] at h
  obtain ⟨k, hk, hn⟩ := h
  split at hn
  · simp at hn
  · simp only [List.mem_map, List.mem_filter, List.mem_range] at hn
    omega

/-- Every source is assigned once, in the order of the candidates. -/
theorem assignFrom_sublist (s : State) (loads l : List Nat) : ((assignFrom s loads l).map (·.1)).Sublist l := by
  induction l generalizing loads with
  | nil => exact List.Sublist.refl _
  | cons n l ih =>
    rw [assignFrom]
    split
    · exact (ih loads).cons n
    · exact (ih _).cons_cons n

theorem pairwise_assignment (s : State) : (assignment s).Pairwise fun a b => a.1 < b.1 :=
  List.pairwise_map.1 ((pairwise_candidates s).sublist (assignFrom_sublist s _ _))

theorem lt_of_mem_assignment {s : State} {n t : Nat} (h : (n, t) ∈ assignment s) : n < 1024 :=
  lt_of_mem_candidates ((assignFrom_sublist s _ _).subset (List.mem_map_of_mem (f := (·.1)) h))

/-- The first entry of a target in a list of rising sources has its lowest source. -/
theorem find?_target_eq {l : List (Nat × Nat)} {n t : Nat} (hl : l.Pairwise fun a b => a.1 < b.1) (hn : (n, t) ∈ l)
    (hleast : ∀ m, (m, t) ∈ l → n ≤ m) : l.find? (fun a => a.2 == t) = some (n, t) := by
  induction l with
  | nil => cases hn
  | cons e l ih =>
    rw [List.pairwise_cons] at hl
    rcases List.mem_cons.1 hn with rfl | hmem
    · simp
    · have hother : e.2 ≠ t := fun he => by
        have hle : n ≤ e.1 := hleast e.1 (by rw [← he]; exact List.mem_cons_self)
        exact absurd (hl.1 _ hmem) (Nat.not_lt.2 hle)
      rw [List.find?_cons_of_neg (by simpa using hother)]
      exact ih hl.2 hmem fun m hm => hleast m (List.mem_cons_of_mem _ hm)

theorem assignedTo_eq {s : State} {n t : Nat} (hn : (n, t) ∈ assignment s) (hleast : ∀ m, (m, t) ∈ assignment s → n ≤ m) :
    assignedTo s t = some n := by
  rw [assignedTo, find?_target_eq (pairwise_assignment s) hn hleast]
  rfl

theorem assignedTo_eq_none {s : State} {t : Nat} (h : ∀ m, (m, t) ∉ assignment s) : assignedTo s t = none := by
  rw [assignedTo, Option.map_eq_none_iff, List.find?_eq_none]
  rintro ⟨m, t'⟩ hm heq
  obtain rfl : t' = t := by simpa using heq
  exact h m hm

/-! The claim (R368) -/

/-- Source n is active and no longer pending, and runs on target t. -/
def sourceTaken (s : State) (t n : Nat) : State :=
  ((s.set (bitAt (R.icPend 0) n) 0).set (bitAt (R.icActive 0) n) 1).set (R.icTstatRunning t) n

/-- Target t stands among the targets that serve, with source n. -/
def serveSource (s : State) (t n : Nat) : State := { s with procs := { s.procs with serving := (t, n) :: s.procs.serving } }

theorem serveSource_rd (s : State) (t n a : Nat) : (serveSource s t n).rd a = s.rd a := rfl

theorem serveSource_mem (s : State) (t n : Nat) : (serveSource s t n).mem = s.mem := rfl

theorem serveSource_out (s : State) (t n : Nat) : (serveSource s t n).out = s.out := rfl

theorem serveSource_serving (s : State) (t n : Nat) : (serveSource s t n).procs.serving = (t, n) :: s.procs.serving := rfl

/-- What a claim leaves that returns source n. -/
def sourceClaimed (s : State) (t n : Nat) : State := (serveSource (sourceTaken s t n) t n).count (R.icTclaims t)

theorem claim_of_assigned {s : State} {t n : Nat} (ht : t < 13) (h : assignedTo s t = some n) :
    claim s t t = (n, sourceClaimed s t n) := by
  simp only [claim, if_neg (show ¬ (t ≠ t ∨ 13 ≤ t) by omega), h, sourceClaimed, serveSource, sourceTaken, set_procs]

theorem claim_of_unassigned {s : State} {t : Nat} (ht : t < 13) (h : assignedTo s t = none) :
    claim s t t = (1024, s.count (R.icTspur t)) := by
  rw [claim, if_neg (by omega), h]

theorem claim_of_other {s : State} {who t : Nat} (h : who ≠ t) : claim s who t = (1024, s) := if_pos (.inl h)

section
variable (s : State) (t n : Nat)

/-- The count of claims leaves every other register. -/
theorem sourceClaimed_rd {a : Nat} (h : a ≠ R.icTclaims t) : (sourceClaimed s t n).rd a = (sourceTaken s t n).rd a := by
  rw [sourceClaimed, count, wr_rd_ne _ _ _ _ h, serveSource_rd]

theorem sourceTaken_active (hn : n < 1024) : (sourceTaken s t n).flag (bitAt (R.icActive 0) n) = true := by
  have hrun : (bitAt (R.icActive 0) n).addr ≠ (R.icTstatRunning t).addr := by simp only [bitAt, R.icActive, R.icTstat]; omega
  rw [sourceTaken, set_flag_ne _ _ _ _ (by simp) (.inl hrun), set_flag _ _ _ (by simp only [bitAt]; omega) rfl]
  rfl

theorem sourceTaken_pending (hn : n < 1024) : (sourceTaken s t n).flag (bitAt (R.icPend 0) n) = false := by
  have hrun : (bitAt (R.icPend 0) n).addr ≠ (R.icTstatRunning t).addr := by simp only [bitAt, R.icPend, R.icTstat]; omega
  have hactive : (bitAt (R.icPend 0) n).addr ≠ (bitAt (R.icActive 0) n).addr := by simp only [bitAt, R.icPend, R.icActive]; omega
  rw [sourceTaken, set_flag_ne _ _ _ _ (by simp) (.inl hrun),
    set_flag_ne _ _ _ _ (by simp only [bitAt]; omega) (.inl hactive), set_flag _ _ _ (by simp only [bitAt]; omega) rfl]
  rfl

theorem sourceClaimed_active (hn : n < 1024) : (sourceClaimed s t n).flag (bitAt (R.icActive 0) n) = true := by
  have hcount : (bitAt (R.icActive 0) n).addr ≠ R.icTclaims t := by simp only [bitAt, R.icActive, R.icTclaims]; omega
  rw [flag_of_rd (sourceClaimed_rd s t n hcount), sourceTaken_active s t n hn]

theorem sourceClaimed_pending (hn : n < 1024) : (sourceClaimed s t n).flag (bitAt (R.icPend 0) n) = false := by
  have hcount : (bitAt (R.icPend 0) n).addr ≠ R.icTclaims t := by simp only [bitAt, R.icPend, R.icTclaims]; omega
  rw [flag_of_rd (sourceClaimed_rd s t n hcount), sourceTaken_pending s t n hn]

theorem running_sourceClaimed (hn : n < 1024) : running (sourceClaimed s t n) t = n := by
  have hcount : (R.icTstatRunning t).addr ≠ R.icTclaims t := by simp only [R.icTstat, R.icTclaims]; omega
  rw [running, get_of_rd (sourceClaimed_rd s t n hcount), sourceTaken, set_get _ _ _ (by simp)]
  exact Nat.mod_eq_of_lt (show n < 2 ^ 11 by omega)

theorem sourceClaimed_sameRegs :
    SameRegs [R.icPend (n / 32), R.icActive (n / 32), R.icTstat t, R.icTclaims t] s (sourceClaimed s t n) := by
  intro a ha
  simp only [List.mem_cons, List.not_mem_nil, or_false, not_or] at ha
  obtain ⟨hpend, hactive, hrun, hcount⟩ := ha
  rw [sourceClaimed_rd s t n hcount, sourceTaken, set_rd_ne _ _ _ _ hrun, set_rd_ne _ _ _ _ (by simpa [bitAt] using hactive),
    set_rd_ne _ _ _ _ (by simpa [bitAt] using hpend)]

end

/-- The line of a target that serves a source is low (R367). -/
theorem targetStatus_low {s : State} {t n : Nat} (h : running s t = n) (hn : n < 1024) :
    (targetStatus s t).toNat / 65536 % 2 = 0 := by
  have hserves : ¬ (running s t = 1024 && (assignedTo s t).isSome) = true := by simp; omega
  rw [targetStatus, if_neg hserves, h, BitVec.toNat_ofNat]
  split_ifs <;> omega

theorem exec_claim (s : State) (who t : Nat) :
    exec (.claim who t) s = .next ((claim s who t).2.emit (.claimed t (claim s who t).1)) := rfl

theorem sourceClaimed_out (s : State) (t n : Nat) : (sourceClaimed s t n).out = s.out := by
  simp only [sourceClaimed, count_out, serveSource_out, sourceTaken, set_out]

theorem sourceClaimed_serving (s : State) (t n : Nat) :
    (sourceClaimed s t n).procs.serving = (t, n) :: s.procs.serving := by
  simp only [sourceClaimed, count_procs, serveSource_serving, sourceTaken, set_procs]

theorem sourceClaimed_sameMemory (s : State) (t n : Nat) : SameMemory s (sourceClaimed s t n) := fun a => by
  simp only [sourceClaimed, count_mem, serveSource_mem, sourceTaken, set_mem]

/-- A claim of an assigned source, all effects together (R368). -/
theorem exec_claim_of_assigned {s : State} {t n : Nat} (ht : t < 13) (h : assignedTo s t = some n) :
    exec (.claim t t) s = .next ((sourceClaimed s t n).emit (.claimed t n)) := by
  rw [exec_claim, claim_of_assigned ht h]

/-- Settles O51: the sources assigned stand in rising order, so that the first one of a target is its lowest. -/
theorem claimsActivateSources : Obligations.ClaimsActivateSources := by
  unfold Obligations.ClaimsActivateSources
  refine ⟨fun s who t n => ⟨fun ht hn hleast => ?_, fun ht hnone => ?_, fun _ hwho => ?_, fun ht hzero => ?_⟩, exec_claim⟩
  · have hlt := lt_of_mem_assignment hn
    have hexec := exec_claim_of_assigned ht (assignedTo_eq hn hleast)
    have hout := sourceClaimed_out s t n
    have hactive := sourceClaimed_active s t n hlt
    have hpending := sourceClaimed_pending s t n hlt
    have hrun := running_sourceClaimed s t n hlt
    have hserving := sourceClaimed_serving s t n
    have hregs := sourceClaimed_sameRegs s t n
    have hmem := sourceClaimed_sameMemory s t n
    generalize sourceClaimed s t n = u at *
    exact ⟨u.emit (.claimed t n), hexec, congrArg _ hout, hactive, hpending, hrun, targetStatus_low (s := u.emit _) hrun hlt, hserving, hregs, hmem⟩
  · rw [exec_claim, claim_of_unassigned ht (assignedTo_eq_none hnone)]
    rfl
  · rw [exec_claim, claim_of_other hwho]
  · exact ⟨_, exec_claim_of_assigned ht (assignedTo_eq hzero fun _ _ => Nat.zero_le _), congrArg _ (sourceClaimed_out s t 0)⟩

end Sys2Proof.Machine

/-! What keeps the OEM slots (22_security_update.md R484): every function of the model that takes a state and gives one, in the
model's order, and then every command. `f_otp` says that f leaves `sec.otp` as it is, `f_otpKept` that f leaves what is written
there, and `f_slotsKept` that the outcome f is a next state that does. -/
namespace Sys2Proof.Machine
open State

/-- What is written in a slot of o stands in p. -/
structure Otp.Kept (o p : Otp) : Prop where
  hash (k : Nat) : o.hashes.getD k [] ≠ [] → p.hashes.getD k [] = o.hashes.getD k []
  key (k : Nat) : o.keys.getD k [] ≠ [] → p.keys.getD k [] = o.keys.getD k []

theorem Otp.kept_refl (o : Otp) : o.Kept o := ⟨fun _ _ => rfl, fun _ _ => rfl⟩

theorem Otp.Kept.trans {o p q : Otp} (h : o.Kept p) (h' : p.Kept q) : o.Kept q :=
  ⟨fun k hk => (h'.hash k (by rwa [h.hash k hk])).trans (h.hash k hk),
   fun k hk => (h'.key k (by rwa [h.key k hk])).trans (h.key k hk)⟩

/-- An empty slot takes a hash. -/
theorem Otp.kept_hash {o : Otp} {k : Nat} (h : o.hashes.getD k [] = []) (x : List Byte) :
    o.Kept { o with hashes := o.hashes.set k x } := by
  refine ⟨fun j hj => ?_, fun _ _ => rfl⟩
  have hne : k ≠ j := fun he => hj (he ▸ h)
  simp only [List.getD_eq_getElem?_getD, List.getElem?_set_ne hne]

/-- An empty slot takes a key. -/
theorem Otp.kept_key {o : Otp} {k : Nat} (h : o.keys.getD k [] = []) (x : List Byte) :
    o.Kept { o with keys := o.keys.set k x } := by
  refine ⟨fun _ _ => rfl, fun j hj => ?_⟩
  have hne : k ≠ j := fun he => hj (he ▸ h)
  simp only [List.getD_eq_getElem?_getD, List.getElem?_set_ne hne]

theorem Otp.kept_ite (o : Otp) (c : Prop) [Decidable c] (a b : Otp) :
    o.Kept (if c then a else b) = if c then o.Kept a else o.Kept b := apply_ite o.Kept c a b

/-- An equation of two slot memories that holds by unfolding, as a step of its own: simp then compares them and not the states. -/
theorem otp_eq {s t : State} (h : t.sec.otp = s.sec.otp) : t.sec.otp = s.sec.otp := h

theorem ite_otp (c : Prop) [Decidable c] (a b : State) :
    (if c then a else b).sec.otp = if c then a.sec.otp else b.sec.otp := apply_ite (·.sec.otp) c a b

/-- A fold of updates of which each keeps the slots keeps them. -/
theorem foldl_otp {α : Type} {f : State → α → State} (h : ∀ u x, (f u x).sec.otp = u.sec.otp) (l : List α) (s : State) :
    (l.foldl f s).sec.otp = s.sec.otp := foldl_keeps (·.sec.otp) l s fun x _ u => h u x

/-- Likewise where the fold carries something beside the state. -/
theorem foldl_fst_otp {α β : Type} {f : State × β → α → State × β} (h : ∀ u x, (f u x).1.sec.otp = u.1.sec.otp)
    (l : List α) (u : State × β) : (l.foldl f u).1.sec.otp = u.1.sec.otp := by
  induction l generalizing u with
  | nil => rfl
  | cons x l ih => exact (ih (f u x)).trans (h u x)

theorem foldl_snd_otp {α β : Type} {f : β × State → α → β × State} (h : ∀ u x, (f u x).2.sec.otp = u.2.sec.otp)
    (l : List α) (u : β × State) : (l.foldl f u).2.sec.otp = u.2.sec.otp := by
  induction l generalizing u with
  | nil => rfl
  | cons x l ih => exact (ih (f u x)).trans (h u x)

/-- A fold of updates of which each keeps what is written keeps it. -/
theorem foldl_otpKept {α : Type} {o : Otp} {f : State → α → State}
    (h : ∀ u x, o.Kept u.sec.otp → o.Kept (f u x).sec.otp) (l : List α) {s : State} (hs : o.Kept s.sec.otp) :
    o.Kept (l.foldl f s).sec.otp := by
  induction l generalizing s with
  | nil => exact hs
  | cons x l ih => exact ih (h s x hs)

/-- The outcome is a next state, and what is written in o stands there. -/
def SlotsKept (o : Otp) : Res → Prop
  | .next t => o.Kept t.sec.otp
  | _ => False

theorem slotsKept_next {o : Otp} {t : State} : SlotsKept o (.next t) ↔ o.Kept t.sec.otp := Iff.rfl

theorem slotsKept_of_otp {o : Otp} {t : State} (h : t.sec.otp = o) : SlotsKept o (.next t) := h ▸ o.kept_refl

theorem slotsKept_ite (o : Otp) (c : Prop) [Decidable c] (a b : Res) :
    SlotsKept o (if c then a else b) = if c then SlotsKept o a else SlotsKept o b := apply_ite (SlotsKept o) c a b

namespace State
theorem wr_otp' (s : State) (a : Nat) (v : Word) : (s.wr a v).sec.otp = s.sec.otp := otp_eq rfl
theorem set_otp' (s : State) (f : Fld) (v : Nat) : (s.set f v).sec.otp = s.sec.otp := otp_eq rfl
theorem put_otp' (s : State) (f : Fld) (b : Bool) : (s.put f b).sec.otp = s.sec.otp := otp_eq rfl
theorem count_otp' (s : State) (a n : Nat) : (s.count a n).sec.otp = s.sec.otp := otp_eq rfl
theorem wr64_otp' (s : State) (a v : Nat) : (s.wr64 a v).sec.otp = s.sec.otp := otp_eq rfl
theorem emit_otp' (s : State) (o : Out) : (s.emit o).sec.otp = s.sec.otp := otp_eq rfl
theorem fresh_otp' (s : State) : (s.fresh).sec.otp = s.sec.otp := otp_eq rfl
theorem setObj_otp' (s : State) (i j : Nat) (v : ObjVal) : (s.setObj i j v).sec.otp = s.sec.otp := otp_eq rfl
theorem setObjN_otp' (s : State) (i j n : Nat) : (s.setObjN i j n).sec.otp = s.sec.otp := otp_eq rfl
theorem mwr_otp' (s : State) (a : Nat) (l : List Byte) : (s.mwr a l).sec.otp = s.sec.otp := otp_eq rfl
theorem setDie_otp' (s : State) (d : Nat) (x : Die) : (s.setDie d x).sec.otp = s.sec.otp := otp_eq rfl
theorem setSdC_otp' (s : State) (n : Nat) (x : SdChan) : (s.setSdC n x).sec.otp = s.sec.otp := otp_eq rfl
theorem setSdB_otp' (s : State) (n : Nat) (x : SdBank) : (s.setSdB n x).sec.otp = s.sec.otp := otp_eq rfl
theorem setLsC_otp' (s : State) (n : Nat) (x : LsChan) : (s.setLsC n x).sec.otp = s.sec.otp := otp_eq rfl
theorem setLsG_otp' (s : State) (n : Nat) (x : LsGroup) : (s.setLsG n x).sec.otp = s.sec.otp := otp_eq rfl
theorem setLoop_otp' (s : State) (n : Nat) (x : LoopSt) : (s.setLoop n x).sec.otp = s.sec.otp := otp_eq rfl
theorem tell_otp' (s : State) (d : Nat) (l : List Report) : (s.tell d l).sec.otp = s.sec.otp := otp_eq rfl
theorem post_otp' (s : State) (p : Post) : (s.post p).sec.otp = s.sec.otp := otp_eq rfl
theorem gateWait_otp' (s : State) (e : GatedWrite) : (s.gateWait e).sec.otp = s.sec.otp := otp_eq rfl
theorem pwrBit_otp' (s : State) (k : Nat) (b : Bool) : (s.pwrBit k b).sec.otp = s.sec.otp := otp_eq rfl
theorem log_otp (s : State) (c : Nat) (d : List Byte) : (s.log c d).sec.otp = s.sec.otp := congrArg Sec.otp (log_sec s c d)
theorem fire_otp (s : State) (n : Nat) : (s.fire n).sec.otp = s.sec.otp := congrArg Sec.otp (fire_sec s n)
theorem passTo_otp (s : State) (t : Nat) : (s.passTo t).sec.otp = s.sec.otp := congrArg Sec.otp (passTo_sec s t)
theorem devTo_otp (s : State) (t : Time) : (s.devTo t).sec.otp = s.sec.otp := congrArg Sec.otp (devTo_sec s t)
theorem ring_otp (s : State) (n : Nat) : (s.ring n).sec.otp = s.sec.otp := congrArg Sec.otp (ring_sec s n)
theorem intake_otp (s : State) (e : Ev) : (s.intake e).sec.otp = s.sec.otp := congrArg Sec.otp (intake_sec s e)
theorem elapse_otp (s : State) (d : Nat) : (s.elapse d).sec.otp = s.sec.otp := congrArg Sec.otp (elapse_sec s d)
end State

/-! Machine/Ops.lean -/

theorem State.countSat_otp (s : State) (f : Fld) : (s.countSat f).sec.otp = s.sec.otp := by
  simp only [countSat, ite_otp, ite_self, set_otp']

theorem State.clearAll_otp (s : State) (l : List Nat) : (s.clearAll l).sec.otp = s.sec.otp := by
  simp only [clearAll, foldl_otp, implies_true, wr_otp']

theorem State.busError_otp (s : State) (who addr : Nat) : (s.busError who addr).sec.otp = s.sec.otp := by
  simp only [busError, ite_otp, ite_self, log_otp]

theorem State.resetDue_otp (s : State) (k : Nat) : (s.resetDue k).sec.otp = s.sec.otp := by
  simp only [resetDue, ite_otp, ite_self]

theorem State.drawBytes_otp (s : State) (n : Nat) : (s.drawBytes n).2.sec.otp = s.sec.otp := by
  simp only [drawBytes, fresh_otp']

theorem gated_slotsKept {q : Otp} {s : State} {k : Nat} {r : Res} :
    SlotsKept q (gated s k r) ↔ if s.gateOn k then SlotsKept q r else q.Kept s.sec.otp := by
  rw [gated, slotsKept_ite, slotsKept_next]

theorem whenServing_slotsKept {q : Otp} {s : State} {r : Res} :
    SlotsKept q (whenServing s r) ↔ if s.serving then SlotsKept q r else q.Kept s.sec.otp := by
  rw [whenServing, slotsKept_ite, slotsKept_next]

theorem whenApp_slotsKept {q : Otp} {s : State} {r : Res} :
    SlotsKept q (whenApp s r) ↔ if s.appServing then SlotsKept q r else q.Kept s.sec.otp := by
  rw [whenApp, slotsKept_ite, slotsKept_next]

theorem whenRt_slotsKept {q : Otp} {k : Nat} {s : State} {r : Res} :
    SlotsKept q (whenRt k s r) ↔ if s.serving && s.rtRuns k then SlotsKept q r else q.Kept s.sec.otp := by
  rw [whenRt, slotsKept_ite, slotsKept_next]

/-! Machine/MemMap.lean -/

theorem pageRetire_otp (s : State) (page : Nat) : (pageRetire s page).sec.otp = s.sec.otp := by
  simp only [pageRetire, ite_otp, ite_self, fire_otp, log_otp]

theorem dramUncorrectable_otp (s : State) (a : Nat) (scrubber : Bool) :
    (dramUncorrectable s a scrubber).sec.otp = s.sec.otp := by
  simp only [dramUncorrectable, ite_otp, ite_self, fire_otp, pageRetire_otp, wr64_otp', log_otp,
    count_otp']

theorem dramCorrected_otp (s : State) (a : Nat) : (dramCorrected s a).sec.otp = s.sec.otp := by
  simp only [dramCorrected, ite_otp, ite_self, pageRetire_otp, count_otp']

theorem busWrite_otp (s : State) (a : Nat) (l : List Byte) : (busWrite s a l).sec.otp = s.sec.otp := by
  simp only [busWrite, mwr_otp']

theorem engineError_otp (s : State) (engine a : Nat) : (engineError s engine a).sec.otp = s.sec.otp := by
  simp only [engineError, busError_otp]

theorem busRead_otp (s : State) (engine a n : Nat) : (busRead s engine a n).2.sec.otp = s.sec.otp := by
  simp only [busRead, ite_otp, ite_snd, ite_self, engineError_otp, dramUncorrectable_otp]

theorem busStore_otp (s : State) (engine a : Nat) (l : List Byte) :
    (busStore s engine a l).2.sec.otp = s.sec.otp := by
  simp only [busStore, ite_otp, ite_snd, ite_self, busWrite_otp, engineError_otp]

theorem readDescriptor_otp (s : State) (engine a : Nat) : (readDescriptor s engine a).2.sec.otp = s.sec.otp := by
  simp only [readDescriptor, ite_snd, ite_self, busRead_otp]

/-! Machine/Flue.lean -/

theorem State.setFab_otp (s : State) (f : Fabric) : (s.setFab f).sec.otp = s.sec.otp := otp_eq rfl

theorem State.setNode_otp (s : State) (id : Nat) (n : Node) : (s.setNode id n).sec.otp = s.sec.otp := by
  simp only [setNode, setFab_otp]

theorem flueLeave_otp (s : State) (f : FlueFrame) (ports : List Nat) :
    (flueLeave f ports s).sec.otp = s.sec.otp := by
  simp only [flueLeave, ite_otp, ite_self, foldl_otp, implies_true, count_otp', emit_otp']

theorem flueEmit_otp (s : State) (w : FlueWay) (cls kind dst flags epoch : Nat) (payload : List Byte) :
    (flueEmit s w cls kind dst flags epoch payload).sec.otp = s.sec.otp := by
  simp only [flueEmit, ite_otp, ite_self, flueLeave_otp, setFab_otp]

theorem flueSend_otp (s : State) (cls kind dst flags : Nat) (payload : List Byte) :
    (flueSend s cls kind dst flags payload).sec.otp = s.sec.otp := by
  simp only [flueSend, flueEmit_otp]

theorem flueSendOn_otp (s : State) (p cls kind dst flags : Nat) (payload : List Byte) :
    (flueSendOn s p cls kind dst flags payload).sec.otp = s.sec.otp := by
  simp only [flueSendOn, flueEmit_otp]

theorem flueAskBy_otp (s : State) (w : FlueWay) (cls kind dst : Nat) (hop : Option (Nat × Nat))
    (payload : List Byte) :
    (flueAskBy s w cls kind dst hop payload).sec.otp = s.sec.otp := by
  simp only [flueAskBy, setFab_otp, flueEmit_otp]

theorem flueAsk_otp (s : State) (cls kind dst : Nat) (payload : List Byte) :
    (flueAsk s cls kind dst payload).sec.otp = s.sec.otp := by
  simp only [flueAsk, flueAskBy_otp]

theorem epochrstSend_otp (s : State) (w : FlueWay) (dst e : Nat) :
    (epochrstSend s w dst e).sec.otp = s.sec.otp := by
  simp only [epochrstSend, flueEmit_otp]

theorem globalAddress_otp (s : State) (l : List Byte) : (globalAddress s l).sec.otp = s.sec.otp := by
  unfold globalAddress
  (repeat' split) <;> simp only [setFab_otp]

theorem otherForward_otp (s : State) (p : Nat) (f : OtherFrame) (fcsOk : Bool) :
    (otherForward s p f fcsOk).sec.otp = s.sec.otp := by
  unfold otherForward
  split <;> simp only [ite_otp, ite_self, foldl_otp, implies_true, setFab_otp, globalAddress_otp,
    count_otp', emit_otp']

/-! Machine/Delivery.lean -/

theorem State.setRing_otp (s : State) (k : Nat) (r : Ring) : (s.setRing k r).sec.otp = s.sec.otp := otp_eq rfl

theorem ringWrite_otp (s : State) (k stream : Nat) (ts : Time) (v : F32) (rec : List Byte) :
    (ringWrite s k stream ts v rec).sec.otp = s.sec.otp := by
  simp only [ringWrite, ite_otp, ite_self, setRing_otp, busStore_otp]

theorem publish_otp (s : State) (k : Nat) (ts : Time) (v : F32) (rec : List Byte) :
    (publish s k ts v rec).sec.otp = s.sec.otp := by
  simp only [publish, ite_otp, ite_self, flueSend_otp]

theorem loopDeliver_otp (s : State) (c : Nat) (smp : Sample) : (loopDeliver s c smp).sec.otp = s.sec.otp :=
  otp_eq rfl

theorem deliverTo_otp (s : State) (c stream : Nat) (smp : Sample) :
    (deliverTo s c stream smp).sec.otp = s.sec.otp := by
  simp only [deliverTo, ite_otp, ite_self, loopDeliver_otp, publish_otp, ringWrite_otp]

theorem deliverBy_otp (s : State) (c : TrellisCopy) (stream : Nat) (ts : Time) (v : F32) (fault : Bool)
    (rec : List Byte) :
    (deliverBy s c stream ts v fault rec).sec.otp = s.sec.otp := by
  simp only [deliverBy, ite_otp, ite_self, deliverTo_otp]

theorem deliver_otp (s : State) (stream : Nat) (ts : Time) (v : F32) (fault : Bool) (rec : List Byte) :
    (deliver s stream ts v fault rec).sec.otp = s.sec.otp := by
  simp only [deliver, foldl_otp, implies_true, deliverBy_otp, emit_otp']

theorem produce_otp (s : State) (stream : Nat) (ts : Time) (v : F32) :
    (produce s stream ts v).sec.otp = s.sec.otp := by
  simp only [produce, deliver_otp]

/-! Machine/RegWrite.lean -/

theorem plainWrite_otp (s : State) (a : Nat) (v : Word) : (plainWrite s a v).sec.otp = s.sec.otp := by
  unfold plainWrite
  split <;> simp only [wr_otp']

theorem gatedWrite_slotsKept {q : Otp} {s now : State} {k : Nat} {e : GatedWrite} :
    SlotsKept q (gatedWrite s k e now) ↔ if s.gateOn k then q.Kept now.sec.otp else q.Kept s.sec.otp := by
  simp only [gatedWrite, slotsKept_ite, slotsKept_next, gateWait_otp', ite_self]

theorem gatedField_slotsKept {q : Otp} {s now : State} {k v : Nat} {f : Fld} :
    SlotsKept q (gatedField s k f v now) ↔ if s.gateOn k then q.Kept now.sec.otp else q.Kept s.sec.otp :=
  gatedWrite_slotsKept

/-! Machine/Camera.lean -/

theorem State.setCamPort_otp (s : State) (c : Nat) (x : CamPort) : (s.setCamPort c x).sec.otp = s.sec.otp :=
  otp_eq rfl

theorem withFrame_otp (s : State) (c num : Nat) (f : CamFrame → CamFrame) :
    (withFrame s c num f).sec.otp = s.sec.otp := by
  simp only [withFrame, setCamPort_otp]

theorem forget_otp (s : State) (c num : Nat) : (forget s c num).sec.otp = s.sec.otp := by
  simp only [forget, setCamPort_otp]

theorem frameDrop_otp (s : State) (c num cause : Nat) : (frameDrop s c num cause).sec.otp = s.sec.otp := by
  simp only [frameDrop, fire_otp, forget_otp, log_otp, count_otp']

theorem camStore_otp (s : State) (a : Nat) (l : List Byte) : (camStore s a l).sec.otp = s.sec.otp := by
  simp only [camStore, ite_otp, ite_self, engineError_otp, busStore_otp]

theorem ringComplete_otp (s : State) (c a : Nat) (fr : CamFrame) (d : Developed) (i : Nat) :
    (ringComplete s c a fr d i).sec.otp = s.sec.otp := by
  simp only [ringComplete, fire_otp, camStore_otp, produce_otp, setCamPort_otp, set_otp']

theorem statsRecord_otp (s : State) (c : Nat) (fr : CamFrame) (p : List Byte) (t2 : Image) :
    (statsRecord s c fr p t2).sec.otp = s.sec.otp := by
  simp only [statsRecord, fire_otp, camStore_otp, produce_otp, set_otp']

theorem featureRecord_otp (s : State) (c kind : Nat) (fr : CamFrame) (img : Image) :
    (featureRecord s c kind fr img).2.sec.otp = s.sec.otp := by
  unfold featureRecord
  split <;> simp only [ite_snd, ite_self, fresh_otp']

theorem featurePublish_otp (s : State) (c : Nat) (fr : CamFrame) (img : Image) :
    (featurePublish s c fr img).sec.otp = s.sec.otp := by
  simp only [featurePublish, ite_otp, ite_self, setCamPort_otp, featureRecord_otp, deliver_otp]

theorem finishFrame_otp (s : State) (c : Nat) (behind : List Nat) (fr : CamFrame) :
    (finishFrame s c behind fr).sec.otp = s.sec.otp := by
  simp only [finishFrame, forget_otp, featurePublish_otp, statsRecord_otp]
  refine foldl_otp (fun u x => ?_) _ _
  (repeat' split) <;> simp only [countSat_otp, ringComplete_otp]

theorem frameEnd_otp (s : State) (c : Nat) (behind : List Nat) : (frameEnd s c behind).sec.otp = s.sec.otp := by
  unfold frameEnd
  split <;> simp only [finishFrame_otp]

theorem ringsEnable_otp (s : State) (c : Nat) : (ringsEnable s c).sec.otp = s.sec.otp := by
  simp only [ringsEnable, foldl_otp, implies_true, setCamPort_otp]

theorem ringTake_otp (s : State) (c a num : Nat) : (ringTake s c a num).sec.otp = s.sec.otp := by
  unfold ringTake
  split <;> simp only [ite_otp, ite_self, countSat_otp, withFrame_otp, log_otp]

theorem ringsTake_otp (s : State) (c num : Nat) : (ringsTake s c num).sec.otp = s.sec.otp := by
  simp only [ringsTake, foldl_otp, implies_true, ringTake_otp]

theorem frameCheck_otp (s : State) (c num : Nat) : (frameCheck s c num).sec.otp = s.sec.otp := by
  simp only [frameCheck]
  split <;> simp only [ite_otp, ite_self, ringsTake_otp, frameDrop_otp]

theorem startLatch_otp (s : State) (c : Nat) : (startLatch s c).sec.otp = s.sec.otp := by
  simp only [startLatch]
  split <;> simp only [setCamPort_otp, set_otp']

theorem frameAccept_otp (s : State) (c num : Nat) (ts : Time) : (frameAccept s c num ts).sec.otp = s.sec.otp := by
  simp only [frameAccept, frameCheck_otp, setCamPort_otp, ringsEnable_otp, count_otp']

theorem frameStart_otp (s : State) (c num : Nat) (ts : Time) : (frameStart s c num ts).sec.otp = s.sec.otp := by
  simp only [frameStart, ite_otp, ite_self, fire_otp, frameAccept_otp, forget_otp, setCamPort_otp,
    startLatch_otp, frameDrop_otp, count_otp']

theorem clearChannel_otp (s : State) (c i num : Nat) : (clearChannel s c i num).sec.otp = s.sec.otp := by
  simp only [clearChannel, ite_otp, ite_self, foldl_otp, implies_true, finishFrame_otp, forget_otp,
    frameDrop_otp]

theorem cameraFrameStart_otp (s : State) (c i num : Nat) : (cameraFrameStart s c i num).sec.otp = s.sec.otp := by
  simp only [cameraFrameStart, ite_otp, ite_self, frameCheck_otp, setCamPort_otp, clearChannel_otp,
    withFrame_otp, frameStart_otp]

theorem execCamFrameStart_slotsKept (s : State) (c number : Nat) :
    SlotsKept s.sec.otp (execCamFrameStart c number s) := by
  simp only [execCamFrameStart, slotsKept_ite, ite_self, slotsKept_next, cameraFrameStart_otp, gated_slotsKept, Otp.kept_refl]

theorem withExp_otp (s : State) (c num i : Nat) (f : CamExp → CamExp) :
    (withExp s c num i f).sec.otp = s.sec.otp := by
  simp only [withExp, withFrame_otp]

theorem lineAccept_otp (s : State) (c num i : Nat) (codes : List Nat) :
    (lineAccept s c num i codes).sec.otp = s.sec.otp := by
  simp only [lineAccept, withExp_otp, frameCheck_otp]

theorem exposureEnd_otp (s : State) (c num i : Nat) : (exposureEnd s c num i).sec.otp = s.sec.otp := by
  simp only [exposureEnd, withExp_otp, frameCheck_otp]

theorem packetError_otp (s : State) (c : Nat) : (packetError s c).sec.otp = s.sec.otp := by
  simp only [packetError, ite_otp, ite_self, setCamPort_otp, log_otp, count_otp']

theorem lineLost_otp (s : State) (c i : Nat) : (lineLost s c i).sec.otp = s.sec.otp := by
  unfold lineLost
  split <;> simp only [withExp_otp, packetError_otp]

theorem packet_otp (s : State) (c vc dt : Nat) (crcOk : Bool) (num : Nat) (codes : List Nat) :
    (packet s c vc dt crcOk num codes).sec.otp = s.sec.otp := by
  unfold packet
  (repeat' split) <;> simp only [exposureEnd_otp, cameraFrameStart_otp, lineLost_otp, packetError_otp,
    lineAccept_otp]

theorem execCsiPacket_slotsKept (s : State) (c vc dt headerBits : Nat) (crcOk : Bool) (number : Nat)
    (codes : List Nat) :
    SlotsKept s.sec.otp (execCsiPacket c vc dt headerBits crcOk number codes s) := by
  simp only [execCsiPacket, slotsKept_ite, ite_self, slotsKept_next, packet_otp, gated_slotsKept,
    packetError_otp, Otp.kept_refl]

theorem execMergeTimeout_slotsKept (s : State) (c : Nat) : SlotsKept s.sec.otp (execMergeTimeout c s) := by
  simp only [execMergeTimeout, gated_slotsKept, Otp.kept_refl]
  (repeat' split) <;> simp only [slotsKept_next, frameDrop_otp, passTo_otp, Otp.kept_refl]

theorem execCamFrameEnd_slotsKept (s : State) (c : Nat) (behind : List Nat) :
    SlotsKept s.sec.otp (execCamFrameEnd c behind s) := by
  simp only [execCamFrameEnd, slotsKept_ite, ite_self, slotsKept_next, frameEnd_otp, gated_slotsKept, Otp.kept_refl]

theorem tapAck_otp (s : State) (c a index : Nat) : (tapAck s c a index).sec.otp = s.sec.otp := by
  simp only [tapAck, set_otp']

theorem execTapAck_slotsKept (s : State) (c a index : Nat) : SlotsKept s.sec.otp (execTapAck c a index s) := by
  simp only [execTapAck, slotsKept_ite, ite_self, slotsKept_next, gatedWrite_slotsKept, tapAck_otp, Otp.kept_refl]

theorem execCamFeedFault_slotsKept (s : State) (c milliamp : Nat) :
    SlotsKept s.sec.otp (execCamFeedFault c milliamp s) := by
  simp only [execCamFeedFault, slotsKept_ite, ite_self, slotsKept_next, fire_otp, set_otp', log_otp, Otp.kept_refl]

theorem feedSwitch_otp (s : State) (c : Nat) (on : Bool) : (feedSwitch s c on).sec.otp = s.sec.otp := by
  simp only [feedSwitch, ite_otp, ite_self, set_otp', put_otp']

theorem execCamFeedSwitch_slotsKept (s : State) (c : Nat) (on : Bool) :
    SlotsKept s.sec.otp (execCamFeedSwitch c on s) := by
  simp only [execCamFeedSwitch, slotsKept_ite, ite_self, slotsKept_next, feedSwitch_otp, Otp.kept_refl]

theorem linkLoss_otp (s : State) (c : Nat) : (linkLoss s c).sec.otp = s.sec.otp := by
  simp only [linkLoss, ite_otp, ite_self, foldl_otp, implies_true, fire_otp, setCamPort_otp,
    set_otp', log_otp, frameDrop_otp]

theorem execCamLinkLoss_slotsKept (s : State) (c : Nat) : SlotsKept s.sec.otp (execCamLinkLoss c s) := by
  simp only [execCamLinkLoss, slotsKept_ite, ite_self, slotsKept_next, gated_slotsKept, linkLoss_otp, Otp.kept_refl]

theorem execCamLinkRegain_slotsKept (s : State) (c : Nat) : SlotsKept s.sec.otp (execCamLinkRegain c s) := by
  simp only [execCamLinkRegain, slotsKept_ite, slotsKept_next, gated_slotsKept, Otp.kept_refl]
  (repeat' split) <;> simp only [slotsKept_next, fire_otp, setCamPort_otp, set_otp', log_otp, Otp.kept_refl]

theorem execFrameSyncEdge_slotsKept (s : State) (c : Nat) : SlotsKept s.sec.otp (execFrameSyncEdge c s) := by
  simp only [execFrameSyncEdge, slotsKept_ite, ite_self, slotsKept_next, devTo_otp, setCamPort_otp,
    gated_slotsKept, emit_otp', Otp.kept_refl]

theorem i2cWrite_otp (s : State) (c : Nat) (v : Word) : (i2cWrite s c v).sec.otp = s.sec.otp := by
  simp only [i2cWrite, ite_otp, ite_self, setCamPort_otp, set_otp', plainWrite_otp, emit_otp']

theorem execI2cTransferStart_slotsKept (s : State) (c : Nat) (value : Word) :
    SlotsKept s.sec.otp (execI2cTransferStart c value s) := by
  simp only [execI2cTransferStart, slotsKept_ite, ite_self, slotsKept_next, i2cWrite_otp, gatedWrite_slotsKept, Otp.kept_refl]

theorem execI2cTransferEnd_slotsKept (s : State) (c : Nat) (ack : Bool) (data : Nat) :
    SlotsKept s.sec.otp (execI2cTransferEnd c ack data s) := by
  simp only [execI2cTransferEnd, slotsKept_ite, ite_self, slotsKept_next, set_otp', gated_slotsKept, Otp.kept_refl]

theorem camApply_otp (s : State) (c : Nat) : (camApply s c).sec.otp = s.sec.otp := by
  simp only [camApply, setCamPort_otp, set_otp']

theorem execCamApply_slotsKept (s : State) (c : Nat) : SlotsKept s.sec.otp (execCamApply c s) := by
  simp only [execCamApply, slotsKept_ite, ite_self, slotsKept_next, camApply_otp, gatedField_slotsKept, Otp.kept_refl]

theorem paramCopyEnd_otp (s : State) (c : Nat) : (paramCopyEnd s c).sec.otp = s.sec.otp := by
  simp only [paramCopyEnd, ite_otp, ite_fst, ite_snd, ite_self, engineError_otp, setCamPort_otp,
    set_otp', busRead_otp]

theorem execCamParameterCopyEnd_slotsKept (s : State) (c : Nat) :
    SlotsKept s.sec.otp (execCamParameterCopyEnd c s) := by
  simp only [execCamParameterCopyEnd, slotsKept_ite, ite_self, slotsKept_next, paramCopyEnd_otp, gated_slotsKept, Otp.kept_refl]

theorem budgetRefresh_otp (s : State) : (budgetRefresh s).sec.otp = s.sec.otp := by
  simp only [budgetRefresh, set_otp']

theorem camEnable_otp (s : State) (c : Nat) : (camEnable s c).1.sec.otp = s.sec.otp := by
  simp only [camEnable, ite_otp, ite_fst, ite_self, setCamPort_otp, set_otp', log_otp,
    budgetRefresh_otp]

theorem execCamEnable_slotsKept (s : State) (c : Nat) : SlotsKept s.sec.otp (execCamEnable c s) := by
  simp only [execCamEnable, slotsKept_ite, ite_self, slotsKept_next, camEnable_otp, gatedField_slotsKept, Otp.kept_refl]

theorem camDisable_otp (s : State) (c : Nat) : (camDisable s c).sec.otp = s.sec.otp := by
  simp only [camDisable, setCamPort_otp, set_otp', budgetRefresh_otp]

theorem camPctrlWrite_otp (s : State) (c : Nat) (v : Word) : (camPctrlWrite s c v).1.sec.otp = s.sec.otp := by
  simp only [camPctrlWrite, ite_otp, ite_fst, ite_self, camApply_otp, camEnable_otp, wr_otp',
    feedSwitch_otp, set_otp', clearAll_otp, camDisable_otp]

theorem camConfigWrite_otp (s : State) (c a : Nat) (v : Word) :
    (camConfigWrite s c a v).1.sec.otp = s.sec.otp := by
  simp only [camConfigWrite, ite_otp, ite_fst, ite_self, set_otp', plainWrite_otp]

theorem ringEnable_otp (s : State) (c a : Nat) : (ringEnable s c a).1.sec.otp = s.sec.otp := by
  simp only [ringEnable, ite_otp, ite_fst, ite_self, wr_otp', setCamPort_otp, set_otp']

theorem camTcfgWrite_otp (s : State) (c a : Nat) (v : Word) : (camTcfgWrite s c a v).1.sec.otp = s.sec.otp := by
  simp only [camTcfgWrite, ite_otp, ite_fst, ite_self, wr_otp', set_otp', ringEnable_otp]

theorem camDamper_otp (s : State) (on : Bool) : (camDamper s on).sec.otp = s.sec.otp := by
  simp only [camDamper, ite_otp, ite_self, foldl_otp, implies_true, setCamPort_otp, log_otp,
    put_otp']

theorem replayFrame_otp (s : State) (c : Nat) : (replayFrame s c).sec.otp = s.sec.otp := by
  unfold replayFrame
  simp only [ite_otp, ite_fst, ite_snd, ite_self, ringsTake_otp, engineError_otp, setCamPort_otp,
    clearChannel_otp, withFrame_otp, busRead_otp, frameStart_otp, passTo_otp]

theorem execReplayFrame_slotsKept (s : State) (c : Nat) : SlotsKept s.sec.otp (execReplayFrame c s) := by
  simp only [execReplayFrame, slotsKept_ite, ite_self, slotsKept_next, replayFrame_otp, gated_slotsKept, Otp.kept_refl]

/-! Machine/CheckUnit.lean -/

theorem cvShow_otp (s : State) (u : Nat) : (cvShow s u).sec.otp = s.sec.otp := by
  simp only [cvShow, wr64_otp']

theorem cvTake_otp (s : State) (u v : Nat) : (cvTake s u v).sec.otp = s.sec.otp := by
  simp only [cvTake, ite_otp, ite_self, fresh_otp', wr64_otp', cvShow_otp]

theorem cvStart_otp (s : State) (u : Nat) : (cvStart s u).sec.otp = s.sec.otp := by
  simp only [cvStart, wr_otp', cvTake_otp]

theorem cvFeed_otp (s : State) (u : Nat) (l : List Byte) : (cvFeed s u l).sec.otp = s.sec.otp := by
  simp only [cvFeed, cvTake_otp, count_otp']

theorem cvStateWrite_otp (s : State) (u : Nat) (hi : Bool) (v : Word) :
    (cvStateWrite s u hi v).sec.otp = s.sec.otp := by
  simp only [cvStateWrite, ite_otp, ite_self, wr64_otp', cvShow_otp, wr_otp']

theorem State.setAliveCtx_otp (s : State) (u k : Nat) (c : AliveCtx) :
    (s.setAliveCtx u k c).sec.otp = s.sec.otp :=
  otp_eq rfl

theorem aliveResult_otp (s : State) (cls : AliveClass) (k : Nat) :
    (aliveResult s cls k).2.sec.otp = s.sec.otp := by
  unfold aliveResult
  split <;> simp only [ite_otp, ite_snd, ite_self, fresh_otp']

theorem aliveCheck_otp (s : State) (u k v : Nat) : (aliveCheck s u k v).2.sec.otp = s.sec.otp := by
  simp only [aliveCheck, ite_otp, ite_self, wr_otp', setAliveCtx_otp, log_otp, count_otp',
    aliveResult_otp]

theorem aliveSet_otp (s : State) (u : Nat) (v : Word) : (aliveSet s u v).sec.otp = s.sec.otp := by
  simp only [aliveSet, setAliveCtx_otp]

theorem peerContext_otp (s : State) (peer : Nat) (work : Nat → Bool) :
    (peerContext s peer work).2.sec.otp = s.sec.otp := by
  unfold peerContext
  (repeat' split) <;> simp only [log_otp, aliveSet_otp]

theorem execCvStart_slotsKept (s : State) (u : Nat) : SlotsKept s.sec.otp (execCvStart u s) := by
  simp only [execCvStart, slotsKept_ite, ite_self, slotsKept_next, cvStart_otp, gatedWrite_slotsKept, Otp.kept_refl]

theorem execCvData_slotsKept (s : State) (u size : Nat) (value : Word) :
    SlotsKept s.sec.otp (execCvData u size value s) := by
  simp only [execCvData, slotsKept_ite, ite_self, slotsKept_next, gatedWrite_slotsKept, cvFeed_otp, Otp.kept_refl]

theorem execCvStateWrite_slotsKept (s : State) (u : Nat) (hi : Bool) (value : Word) :
    SlotsKept s.sec.otp (execCvStateWrite u hi value s) := by
  simp only [execCvStateWrite, slotsKept_ite, ite_self, slotsKept_next, gatedWrite_slotsKept, cvStateWrite_otp, Otp.kept_refl]

theorem execAliveCheck_slotsKept (s : State) (u : Nat) (value : Word) :
    SlotsKept s.sec.otp (execAliveCheck u value s) := by
  simp only [execAliveCheck, slotsKept_ite, ite_self, slotsKept_next, aliveCheck_otp, gatedWrite_slotsKept, Otp.kept_refl]

theorem execAliveSet_slotsKept (s : State) (u : Nat) (value : Word) :
    SlotsKept s.sec.otp (execAliveSet u value s) := by
  simp only [execAliveSet, slotsKept_ite, ite_self, slotsKept_next, gatedWrite_slotsKept, aliveSet_otp, Otp.kept_refl]

/-! Machine/Can.lean -/

theorem State.setCan_otp (s : State) (c : Nat) (x : CanCh) : (s.setCan c x).sec.otp = s.sec.otp := otp_eq rfl

theorem watShow_otp (s : State) (c : Nat) : (watShow s c).sec.otp = s.sec.otp := by
  simp only [watShow, set_otp']

theorem timingLoad_otp (s : State) (c : Nat) (l : List Word) : (timingLoad s c l).sec.otp = s.sec.otp := by
  simp only [timingLoad, wr_otp', watShow_otp]

theorem timingDerive_otp (s : State) (c : Nat) : (timingDerive s c).sec.otp = s.sec.otp := by
  unfold timingDerive
  split <;> simp only [timingLoad_otp]

theorem canOffer_otp (s : State) (c : Nat) : (canOffer s c).sec.otp = s.sec.otp := by
  unfold canOffer
  (repeat' split) <;> simp only [set_otp']

theorem txPend_otp (s : State) (c b : Nat) (on : Bool) : (txPend s c b on).sec.otp = s.sec.otp := by
  simp only [txPend, put_otp']

theorem txEnd_otp (s : State) (c b st : Nat) : (txEnd s c b st).sec.otp = s.sec.otp := by
  simp only [txEnd, ite_otp, ite_self, fire_otp, setCan_otp, set_otp', txPend_otp]

theorem txSubmit_otp (s : State) (c b : Nat) (f : CanFrame) : (txSubmit s c b f).sec.otp = s.sec.otp := by
  simp only [txSubmit, ite_otp, ite_self, setCan_otp, txEnd_otp, wr_otp', set_otp',
    canOffer_otp, txPend_otp]

theorem canPump_otp (s : State) (c : Nat) : (canPump s c).sec.otp = s.sec.otp := by
  simp only [canPump]
  (repeat' split) <;> simp only [setCan_otp, txSubmit_otp]

theorem frameAt_otp (s : State) (a : Nat) : (frameAt s a).2.sec.otp = s.sec.otp := by
  simp only [frameAt, busRead_otp]

theorem txRequest_otp (s : State) (c b : Nat) : (txRequest s c b).sec.otp = s.sec.otp := by
  simp only [txRequest, ite_otp, ite_self, frameAt_otp, txSubmit_otp]

theorem txAbort_otp (s : State) (c b : Nat) : (txAbort s c b).sec.otp = s.sec.otp := by
  unfold txAbort
  split <;> simp only [setCan_otp, txEnd_otp, canOffer_otp, canPump_otp]

theorem dictWithdraw_otp (s : State) (c tag : Nat) : (dictWithdraw s c tag).sec.otp = s.sec.otp := by
  simp only [dictWithdraw, ite_otp, ite_self, setCan_otp, txAbort_otp]

theorem queueDrop_otp (s : State) (c q : Nat) : (queueDrop s c q).sec.otp = s.sec.otp := by
  simp only [queueDrop, ite_otp, ite_self, fire_otp, setCan_otp, log_otp, count_otp']

theorem queueFrame_otp (s : State) (c q filter : Nat) (ts : Time) (x : CanFrame) :
    (queueFrame s c q filter ts x).sec.otp = s.sec.otp := by
  simp only [queueFrame, ite_otp, ite_self, fire_otp, queueDrop_otp, set_otp', busStore_otp]

theorem canDeliver_otp (s : State) (c : Nat) (ts : Time) (x : CanFrame) :
    (canDeliver s c ts x).sec.otp = s.sec.otp := by
  simp only [canDeliver]
  split <;> simp only [queueFrame_otp]

theorem queueAck_otp (s : State) (c q i : Nat) : (queueAck s c q i).sec.otp = s.sec.otp := by
  simp only [queueAck, ite_otp, ite_self, set_otp']

theorem errorCounts_otp (s : State) (c tec rcnt : Nat) : (errorCounts s c tec rcnt).sec.otp = s.sec.otp := by
  simp only [errorCounts, ite_otp, ite_self, fire_otp, set_otp', log_otp, put_otp']

theorem recoverStart_otp (s : State) (c delayMs : Nat) : (recoverStart s c delayMs).sec.otp = s.sec.otp := by
  simp only [recoverStart, setCan_otp]

theorem busOff_otp (s : State) (c : Nat) : (busOff s c).sec.otp = s.sec.otp := by
  simp only [busOff, ite_otp, ite_self, foldl_otp, implies_true, fire_otp, recoverStart_otp,
    countSat_otp, txEnd_otp, set_otp', log_otp]

theorem canCounts_otp (s : State) (c tec rcnt : Nat) : (canCounts s c tec rcnt).sec.otp = s.sec.otp := by
  simp only [canCounts, ite_otp, ite_self, busOff_otp, errorCounts_otp]

theorem canError_otp (s : State) (c e : Nat) : (canError s c e).sec.otp = s.sec.otp := by
  unfold canError
  split <;> simp only [set_otp', count_otp']

theorem protocolException_otp (s : State) (c : Nat) : (protocolException s c).sec.otp = s.sec.otp := by
  simp only [protocolException, setCan_otp, log_otp]

theorem attemptFailed_otp (s : State) (c b : Nat) : (attemptFailed s c b).sec.otp = s.sec.otp := by
  simp only [attemptFailed, ite_otp, ite_self, txEnd_otp, set_otp', log_otp]

theorem attemptDone_otp (s : State) (c b : Nat) (ts : Time) : (attemptDone s c b ts).sec.otp = s.sec.otp := by
  simp only [attemptDone, ite_otp, ite_self, wr64_otp', txEnd_otp, canDeliver_otp, count_otp',
    emit_otp']

theorem dropMessage_otp (s : State) (c : Nat) : (dropMessage s c).sec.otp = s.sec.otp := by
  simp only [dropMessage, setCan_otp]

theorem txAttemptEnd_otp (s : State) (c outcome lec : Nat) (t : Time) (tec rcnt : Nat) :
    (txAttemptEnd s c outcome lec t tec rcnt).sec.otp = s.sec.otp := by
  unfold txAttemptEnd
  (repeat' split) <;> simp only [ite_otp, ite_self, setCan_otp, attemptDone_otp, attemptFailed_otp,
    txEnd_otp, set_otp', canCounts_otp, canError_otp, canOffer_otp, dropMessage_otp,
    count_otp', protocolException_otp, canPump_otp]

theorem sendClaim_otp (s : State) (c addr : Nat) : (sendClaim s c addr).sec.otp = s.sec.otp := by
  simp only [sendClaim, setCan_otp, canPump_otp]

theorem addressInvalid_otp (s : State) (c : Nat) : (addressInvalid s c).sec.otp = s.sec.otp := by
  simp only [addressInvalid, ite_otp, ite_self, foldl_otp, implies_true, txEnd_otp, put_otp']

theorem saWrite_otp (s : State) (c sa : Nat) (valid : Bool) : (saWrite s c sa valid).sec.otp = s.sec.otp := by
  simp only [saWrite, ite_otp, ite_self, addressInvalid_otp, set_otp', put_otp', canOffer_otp,
    canPump_otp]

theorem claimAddress_otp (s : State) (c addr : Nat) : (claimAddress s c addr).sec.otp = s.sec.otp := by
  simp only [claimAddress, setCan_otp, sendClaim_otp]

theorem cannotClaim_otp (s : State) (c : Nat) : (cannotClaim s c).sec.otp = s.sec.otp := by
  simp only [cannotClaim, setCan_otp, log_otp, sendClaim_otp]

theorem claimLost_otp (s : State) (c : Nat) : (claimLost s c).sec.otp = s.sec.otp := by
  simp only [claimLost, ite_otp, ite_self, log_otp, saWrite_otp, cannotClaim_otp]
  (repeat' split) <;> simp only [log_otp, saWrite_otp, cannotClaim_otp, claimAddress_otp]

theorem claimOff_otp (s : State) (c : Nat) : (claimOff s c).sec.otp = s.sec.otp := by
  simp only [claimOff, setCan_otp, saWrite_otp]

theorem canEnable_otp (s : State) (c : Nat) : (canEnable s c).sec.otp = s.sec.otp := by
  simp only [canEnable, ite_otp, ite_self, setCan_otp, set_otp', canOffer_otp, watShow_otp,
    canPump_otp]

theorem canDisable_otp (s : State) (c : Nat) : (canDisable s c).sec.otp = s.sec.otp := by
  simp only [canDisable, ite_otp, ite_self, foldl_otp, implies_true, setCan_otp, set_otp',
    claimOff_otp]

theorem execCanEnable_slotsKept (s : State) (c : Nat) : SlotsKept s.sec.otp (execCanEnable c s) := by
  simp only [execCanEnable, slotsKept_ite, ite_self, slotsKept_next, gatedField_slotsKept, canEnable_otp, Otp.kept_refl]

theorem execQueueAck_slotsKept (s : State) (c q index : Nat) : SlotsKept s.sec.otp (execQueueAck c q index s) := by
  simp only [execQueueAck, slotsKept_ite, ite_self, slotsKept_next, gatedWrite_slotsKept, queueAck_otp, Otp.kept_refl]

theorem execTxRequest_slotsKept (s : State) (c b : Nat) : SlotsKept s.sec.otp (execTxRequest c b s) := by
  simp only [execTxRequest, slotsKept_ite, ite_self, slotsKept_next, gatedWrite_slotsKept, txRequest_otp, Otp.kept_refl]

theorem execTxAttemptEnd_slotsKept (s : State) (c outcome lec : Nat) (t : Time) (tec rcnt : Nat) :
    SlotsKept s.sec.otp (execTxAttemptEnd c outcome lec t tec rcnt s) := by
  simp only [execTxAttemptEnd, ite_otp, ite_self, slotsKept_next, txAttemptEnd_otp, gated_slotsKept, Otp.kept_refl]

theorem execTxAbort_slotsKept (s : State) (c b : Nat) : SlotsKept s.sec.otp (execTxAbort c b s) := by
  simp only [execTxAbort, slotsKept_ite, ite_self, slotsKept_next, gatedWrite_slotsKept, txAbort_otp, Otp.kept_refl]

theorem busOffRecover_otp (s : State) (c : Nat) : (busOffRecover s c).sec.otp = s.sec.otp := by
  simp only [busOffRecover, ite_otp, ite_self, recoverStart_otp]

theorem execBusOffRecover_slotsKept (s : State) (c : Nat) : SlotsKept s.sec.otp (execBusOffRecover c s) := by
  simp only [execBusOffRecover, slotsKept_ite, ite_self, slotsKept_next, gatedField_slotsKept, busOffRecover_otp, Otp.kept_refl]

theorem recoveryEnd_otp (s : State) (c : Nat) : (recoveryEnd s c).sec.otp = s.sec.otp := by
  unfold recoveryEnd
  split <;> simp only [ite_otp, ite_self, setCan_otp, set_otp', log_otp, put_otp',
    canOffer_otp, passTo_otp, canPump_otp]

theorem execBusOffRecoveryEnd_slotsKept (s : State) (c : Nat) : SlotsKept s.sec.otp (execBusOffRecoveryEnd c s) := by
  simp only [execBusOffRecoveryEnd, ite_otp, ite_self, slotsKept_next, recoveryEnd_otp, gated_slotsKept, Otp.kept_refl]

theorem claimStart_otp (s : State) (c : Nat) : (claimStart s c).sec.otp = s.sec.otp := by
  simp only [claimStart, ite_otp, ite_self, claimAddress_otp]

theorem execAddressClaimStart_slotsKept (s : State) (c : Nat) : SlotsKept s.sec.otp (execAddressClaimStart c s) := by
  simp only [execAddressClaimStart, ite_otp, ite_self, slotsKept_next, claimStart_otp, gated_slotsKept, Otp.kept_refl]

theorem execClaimTimeout_slotsKept (s : State) (c : Nat) : SlotsKept s.sec.otp (execClaimTimeout c s) := by
  simp only [execClaimTimeout, slotsKept_next, gated_slotsKept, Otp.kept_refl]
  (repeat' split) <;> simp only [setCan_otp, log_otp, saWrite_otp, passTo_otp, Otp.kept_refl]

theorem execContendingClaim_slotsKept (s : State) (c addr name : Nat) :
    SlotsKept s.sec.otp (execContendingClaim c addr name s) := by
  simp only [execContendingClaim, ite_otp, ite_self, slotsKept_next, setCan_otp, claimLost_otp,
    gated_slotsKept, sendClaim_otp, Otp.kept_refl]

theorem execRequestForClaim_slotsKept (s : State) (c : Nat) : SlotsKept s.sec.otp (execRequestForClaim c s) := by
  simp only [execRequestForClaim, ite_otp, ite_self, slotsKept_next, gated_slotsKept, sendClaim_otp, Otp.kept_refl]

/-! Machine/Stage.lean -/

theorem State.record_otp (s : State) (r : Report) : (s.record r).sec.otp = s.sec.otp := by
  unfold record
  split <;> simp only [fire_otp, set_otp', log_otp, count_otp']

theorem loopsFromZero_otp (s : State) (kind b : Nat) : (loopsFromZero s kind b).sec.otp = s.sec.otp := by
  simp only [loopsFromZero, foldl_otp, implies_true, wr_otp']

theorem thermalEstimate_otp (s : State) : (thermalEstimate s).sec.otp = s.sec.otp := by
  simp only [thermalEstimate, ite_otp, ite_self, foldl_otp, implies_true, log_otp, pwrBit_otp']

/-! Machine/Solenoid.lean -/

theorem State.setSdPhase_otp (s : State) (n p : Nat) : (s.setSdPhase n p).sec.otp = s.sec.otp := by
  simp only [setSdPhase, set_otp']

theorem State.setSdQueue_otp (s : State) (b : Nat) (l : List Nat) : (s.setSdQueue b l).sec.otp = s.sec.otp := by
  simp only [setSdQueue, set_otp', setSdB_otp']

theorem sdMirror_otp (s : State) (n : Nat) : (sdMirror s n).sec.otp = s.sec.otp := by
  simp only [sdMirror, ite_otp, ite_self, foldl_otp, implies_true, wr_otp']

theorem sdDiag_otp (s : State) (n bit code : Nat) (data : List Byte) :
    (sdDiag s n bit code data).sec.otp = s.sec.otp := by
  simp only [sdDiag, tell_otp']

theorem sdBankDiag_otp (s : State) (b bit : Nat) : (sdBankDiag s b bit).sec.otp = s.sec.otp := by
  simp only [sdBankDiag, tell_otp']

theorem pullinRequest_otp (s : State) (n : Nat) : (pullinRequest s n).sec.otp = s.sec.otp := by
  simp only [pullinRequest, ite_otp, ite_self, setSdQueue_otp, setSdPhase_otp, setSdC_otp']

theorem pullinWithdraw_otp (s : State) (n : Nat) : (pullinWithdraw s n).sec.otp = s.sec.otp := by
  simp only [pullinWithdraw, setSdQueue_otp, setSdPhase_otp, tell_otp']

theorem grantRelease_otp (s : State) (n : Nat) : (grantRelease s n).sec.otp = s.sec.otp := by
  simp only [grantRelease, ite_otp, ite_self, set_otp']

theorem sdTurnOff_otp (s : State) (n : Nat) : (sdTurnOff s n).sec.otp = s.sec.otp := by
  simp only [sdTurnOff]
  split <;> simp only [setSdPhase_otp, set_otp', pullinWithdraw_otp, grantRelease_otp]

theorem sdStagger_otp (s : State) (b : Nat) : (sdStagger s b).sec.otp = s.sec.otp := by
  simp only [sdStagger, ite_otp, ite_self, foldl_otp, implies_true, setSdC_otp']

theorem sdOnInterval_otp (s : State) (n stop : Nat) : (sdOnInterval s n stop).sec.otp = s.sec.otp := by
  simp only [sdOnInterval, set_otp', pullinRequest_otp, setSdC_otp']

theorem sdPwmStart_otp (s : State) (n : Nat) : (sdPwmStart s n).sec.otp = s.sec.otp := by
  simp only [sdPwmStart, ite_otp, ite_self, sdOnInterval_otp]

theorem sdStart_otp (s : State) (n : Nat) : (sdStart s n).sec.otp = s.sec.otp := by
  unfold sdStart
  (repeat' split) <;> simp only [setSdPhase_otp, sdPwmStart_otp, pullinRequest_otp]

theorem sdBankOff_otp (s : State) (b : Nat) : (sdBankOff s b).sec.otp = s.sec.otp := by
  simp only [sdBankOff, foldl_otp, implies_true, sdTurnOff_otp, set_otp', setSdB_otp', sdMirror_otp]

theorem sdDisarm_otp (s : State) (b : Nat) : (sdDisarm s b).sec.otp = s.sec.otp := by
  simp only [sdDisarm, ite_otp, ite_self, sdBankOff_otp]

theorem State.dropSdDefer_otp (s : State) (b : Nat) : (s.dropSdDefer b).sec.otp = s.sec.otp := otp_eq rfl

theorem sdLeak_otp (s : State) (b : Nat) : (sdLeak s b).sec.otp = s.sec.otp := by
  simp only [sdLeak, set_otp', setSdB_otp']

theorem bankLock_otp (s : State) (b e : Nat) : (bankLock s b e).sec.otp = s.sec.otp := by
  simp only [bankLock, set_otp', tell_otp', sdBankDiag_otp, sdDisarm_otp]

theorem sdClampEnd_otp (s : State) (b microJ : Nat) : (sdClampEnd s b microJ).sec.otp = s.sec.otp := by
  simp only [sdClampEnd, ite_otp, ite_self, bankLock_otp, set_otp', setSdB_otp', sdLeak_otp]

theorem execSdClampEventEnd_slotsKept (s : State) (b microJ : Nat) :
    SlotsKept s.sec.otp (execSdClampEventEnd b microJ s) := by
  simp only [execSdClampEventEnd, slotsKept_ite, ite_self, slotsKept_next, sdClampEnd_otp, Otp.kept_refl]

theorem sdClampClose_otp (s : State) (b : Nat) : (sdClampClose s b).sec.otp = s.sec.otp := by
  simp only [sdClampClose, ite_otp, ite_self, fresh_otp', sdClampEnd_otp, setSdB_otp']

theorem execSdBucketLeak_slotsKept (s : State) (b : Nat) : SlotsKept s.sec.otp (execSdBucketLeak b s) := by
  simp only [execSdBucketLeak, slotsKept_ite, ite_self, slotsKept_next, sdLeak_otp, passTo_otp, Otp.kept_refl]

theorem bankUnlock_otp (s : State) (b : Nat) : (bankUnlock s b).1.sec.otp = s.sec.otp := by
  simp only [bankUnlock, ite_otp, ite_fst, ite_self, set_otp', sdLeak_otp, tell_otp']

theorem execBankUnlock_slotsKept (s : State) (b : Nat) : SlotsKept s.sec.otp (execBankUnlock b s) := by
  simp only [execBankUnlock, slotsKept_ite, ite_self, slotsKept_next, bankUnlock_otp, Otp.kept_refl]

theorem bankSwitchClear_otp (s : State) (b : Nat) : (bankSwitchClear s b).1.sec.otp = s.sec.otp := by
  simp only [bankSwitchClear, ite_otp, ite_fst, ite_self, set_otp', tell_otp']

theorem execBankSwitchClear_slotsKept (s : State) (b tj : Nat) :
    SlotsKept s.sec.otp (execBankSwitchClear b tj s) := by
  simp only [execBankSwitchClear, slotsKept_ite, ite_self, slotsKept_next, bankSwitchClear_otp, setSdB_otp', Otp.kept_refl]

theorem bankSwitchClearNow_otp (s : State) (b : Nat) : (bankSwitchClearNow s b).1.sec.otp = s.sec.otp := by
  simp only [bankSwitchClearNow, fresh_otp', bankSwitchClear_otp, setSdB_otp']

theorem bankArm_otp (s : State) (b : Nat) : (bankArm s b).1.sec.otp = s.sec.otp := by
  simp only [bankArm, ite_otp, ite_fst, ite_self, foldl_otp, implies_true, sdStart_otp,
    sdClampClose_otp, loopsFromZero_otp, set_otp', setSdB_otp', thermalEstimate_otp, log_otp,
    pwrBit_otp', sdMirror_otp, sdStagger_otp]

theorem execBankArm_slotsKept (s : State) (b : Nat) : SlotsKept s.sec.otp (execBankArm b s) := by
  simp only [execBankArm, slotsKept_ite, ite_self, slotsKept_next, bankArm_otp, Otp.kept_refl]

theorem execBankDisarm_slotsKept (s : State) (b : Nat) : SlotsKept s.sec.otp (execBankDisarm b s) := by
  simp only [execBankDisarm, slotsKept_ite, ite_self, slotsKept_next, sdDisarm_otp, Otp.kept_refl]

theorem sdBctrlWrite_otp (s : State) (b : Nat) (v : Word) : (sdBctrlWrite s b v).sec.otp = s.sec.otp := by
  simp only [sdBctrlWrite, ite_otp, ite_self, bankArm_otp, bankUnlock_otp, put_otp',
    bankSwitchClearNow_otp, sdDisarm_otp]

theorem execBankSwitchLimit_slotsKept (s : State) (b tj : Nat) :
    SlotsKept s.sec.otp (execBankSwitchLimit b tj s) := by
  simp only [execBankSwitchLimit, slotsKept_ite, ite_self, slotsKept_next, setSdB_otp', tell_otp',
    sdBankDiag_otp, Otp.kept_refl]

theorem execBankSwitchTrip_slotsKept (s : State) (b tj : Nat) : SlotsKept s.sec.otp (execBankSwitchTrip b tj s) := by
  simp only [execBankSwitchTrip, slotsKept_ite, ite_self, slotsKept_next, set_otp', setSdB_otp',
    sdBankOff_otp, tell_otp', sdBankDiag_otp, Otp.kept_refl]

theorem sdFclr_otp (s : State) (n : Nat) : (sdFclr s n).sec.otp = s.sec.otp := by
  simp only [sdFclr, ite_otp, ite_self, setSdPhase_otp, set_otp', tell_otp']

theorem sdEdge_otp (s : State) (n : Nat) (before : Bool) : (sdEdge s n before).sec.otp = s.sec.otp := by
  simp only [sdEdge, ite_otp, ite_self, sdTurnOff_otp, sdStart_otp]

theorem sdErr_otp (s : State) (n e : Nat) : (sdErr s n e).sec.otp = s.sec.otp := by
  simp only [sdErr, set_otp', sdMirror_otp]

theorem sdCctrlWrite_otp (s : State) (n : Nat) (v : Word) : (sdCctrlWrite s n v).1.sec.otp = s.sec.otp := by
  simp only [sdCctrlWrite, ite_otp, ite_fst, ite_self, sdEdge_otp, wr_otp', sdFclr_otp,
    clearAll_otp, sdErr_otp, sdMirror_otp]

theorem sdChannelWrite_otp (s : State) (n o : Nat) (v : Word) (field : Option Nat) :
    (sdChannelWrite s n o v field).1.sec.otp = s.sec.otp := by
  simp only [sdChannelWrite, ite_otp, ite_fst, ite_self, wr_otp', sdErr_otp]

theorem sdApply_otp (s : State) (o : Nat) (v : Word) (field : Option Nat) :
    (sdApply s o v field).1.sec.otp = s.sec.otp := by
  simp only [sdApply, ite_otp, ite_fst, ite_self, sdBctrlWrite_otp, sdChannelWrite_otp, plainWrite_otp,
    sdCctrlWrite_otp]

theorem execSdFclr_slotsKept (s : State) (n : Nat) : SlotsKept s.sec.otp (execSdFclr n s) := by
  simp only [execSdFclr, slotsKept_ite, ite_self, slotsKept_next, sdFclr_otp, sdMirror_otp, Otp.kept_refl]

theorem execPullinGrant_slotsKept (s : State) (b : Nat) : SlotsKept s.sec.otp (execPullinGrant b s) := by
  unfold execPullinGrant
  split <;> simp only [slotsKept_ite, ite_self, slotsKept_next, setSdQueue_otp, setSdPhase_otp, set_otp',
    tell_otp', sdMirror_otp, setSdC_otp', Otp.kept_refl]

theorem armatureCheck_otp (s : State) (n : Nat) (dip : Option (Nat × Nat)) (peak : Bool) :
    (armatureCheck s n dip peak).sec.otp = s.sec.otp := by
  unfold armatureCheck
  (repeat' split) <;> simp only [set_otp', sdDiag_otp]

theorem execPeakReached_slotsKept (s : State) (n tpk microA : Nat) (dip : Option (Nat × Nat)) :
    SlotsKept s.sec.otp (execPeakReached n tpk microA dip s) := by
  simp only [execPeakReached, slotsKept_ite, ite_otp, ite_self, slotsKept_next, armatureCheck_otp,
    setSdPhase_otp, set_otp', passTo_otp, sdDiag_otp, tell_otp', sdMirror_otp, setSdC_otp',
    grantRelease_otp, Otp.kept_refl]

theorem execTpkMaxExpiry_slotsKept (s : State) (n : Nat) (dip : Option (Nat × Nat)) :
    SlotsKept s.sec.otp (execTpkMaxExpiry n dip s) := by
  simp only [execTpkMaxExpiry, slotsKept_ite, ite_self, slotsKept_next, armatureCheck_otp, setSdPhase_otp,
    passTo_otp, sdDiag_otp, tell_otp', sdMirror_otp, grantRelease_otp, Otp.kept_refl]

theorem execPeakDwellEnd_slotsKept (s : State) (n : Nat) : SlotsKept s.sec.otp (execPeakDwellEnd n s) := by
  simp only [execPeakDwellEnd, slotsKept_ite, ite_self, slotsKept_next, setSdPhase_otp, passTo_otp,
    sdMirror_otp, grantRelease_otp, Otp.kept_refl]

theorem execDecayEnd_slotsKept (s : State) (n : Nat) : SlotsKept s.sec.otp (execDecayEnd n s) := by
  simp only [execDecayEnd, slotsKept_ite, ite_self, slotsKept_next, setSdPhase_otp, sdMirror_otp, Otp.kept_refl]

theorem execPullinWaitLate_slotsKept (s : State) (n : Nat) : SlotsKept s.sec.otp (execPullinWaitLate n s) := by
  simp only [execPullinWaitLate, slotsKept_ite, ite_self, slotsKept_next, passTo_otp, sdDiag_otp,
    tell_otp', setSdC_otp', Otp.kept_refl]

theorem execSdPwmCycleStart_slotsKept (s : State) (n : Nat) : SlotsKept s.sec.otp (execSdPwmCycleStart n s) := by
  simp only [execSdPwmCycleStart, slotsKept_ite, ite_self, slotsKept_next, sdTurnOff_otp, sdOnInterval_otp,
    sdMirror_otp, setSdC_otp', Otp.kept_refl]

theorem execSdPwmOnEnd_slotsKept (s : State) (n : Nat) : SlotsKept s.sec.otp (execSdPwmOnEnd n s) := by
  simp only [execSdPwmOnEnd, slotsKept_ite, ite_self, slotsKept_next, sdTurnOff_otp, sdMirror_otp, Otp.kept_refl]

theorem sdFault_otp (s : State) (n bit code milliamp : Nat) :
    (sdFault s n bit code milliamp).sec.otp = s.sec.otp := by
  simp only [sdFault, setSdPhase_otp, sdTurnOff_otp, sdDiag_otp, sdMirror_otp]

theorem execSdOverCurrent_slotsKept (s : State) (n milliamp : Nat) :
    SlotsKept s.sec.otp (execSdOverCurrent n milliamp s) := by
  simp only [execSdOverCurrent, slotsKept_ite, ite_self, slotsKept_next, sdFault_otp, Otp.kept_refl]

theorem execSdOpenLoad_slotsKept (s : State) (n milliamp : Nat) :
    SlotsKept s.sec.otp (execSdOpenLoad n milliamp s) := by
  simp only [execSdOpenLoad, slotsKept_ite, ite_self, slotsKept_next, sdFault_otp, Otp.kept_refl]

theorem sdFail_otp (s : State) (n : Nat) : (sdFail s n).sec.otp = s.sec.otp := by
  unfold sdFail
  (repeat' split) <;> simp only [ite_otp, ite_self, sdTurnOff_otp, sdEdge_otp, set_otp', put_otp',
    sdMirror_otp, setSdC_otp']

theorem bankHoldExpiry_otp (s : State) (b : Nat) : (bankHoldExpiry s b).sec.otp = s.sec.otp := by
  simp only [bankHoldExpiry, foldl_otp, implies_true, sdFail_otp, set_otp', setSdB_otp', tell_otp',
    sdBankDiag_otp]

theorem execBankHoldExpiry_slotsKept (s : State) (b : Nat) : SlotsKept s.sec.otp (execBankHoldExpiry b s) := by
  unfold execBankHoldExpiry
  split <;> simp only [slotsKept_ite, ite_self, slotsKept_next, bankHoldExpiry_otp, passTo_otp, Otp.kept_refl]

theorem sdHoldEntry_otp (s : State) (d : Nat) : (sdHoldEntry s d).sec.otp = s.sec.otp := by
  simp only [sdHoldEntry, ite_otp, ite_self, foldl_otp, implies_true, setDie_otp', set_otp',
    setSdB_otp', bankHoldExpiry_otp, tell_otp', sdBankDiag_otp]

theorem execBankFailOffDisarm_slotsKept (s : State) (b : Nat) : SlotsKept s.sec.otp (execBankFailOffDisarm b s) := by
  simp only [execBankFailOffDisarm, slotsKept_ite, ite_self, slotsKept_next, set_otp', Otp.kept_refl]

theorem sdDeferFlag_otp (s : State) (k : Nat) (on : Bool) : (sdDeferFlag s k on).sec.otp = s.sec.otp := by
  simp only [sdDeferFlag, foldl_otp, implies_true, put_otp', tell_otp', sdBankDiag_otp]

theorem execLoadDumpEntry_slotsKept (s : State) (k decivolt : Nat) :
    SlotsKept s.sec.otp (execLoadDumpEntry k decivolt s) := by
  simp only [execLoadDumpEntry, slotsKept_ite, ite_self, slotsKept_next, sdDeferFlag_otp, tell_otp', Otp.kept_refl]

theorem execLoadDumpEnd_slotsKept (s : State) (k decivolt : Nat) :
    SlotsKept s.sec.otp (execLoadDumpEnd k decivolt s) := by
  simp only [execLoadDumpEnd, slotsKept_ite, ite_self, foldl_otp, implies_true, slotsKept_next,
    sdDeferFlag_otp, sdBankOff_otp, dropSdDefer_otp, Otp.kept_refl]

theorem sdDieClear_otp (s : State) (d : Nat) : (sdDieClear s d).sec.otp = s.sec.otp := by
  simp only [sdDieClear, foldl_otp, implies_true, setDie_otp', set_otp', setSdB_otp', tell_otp']

theorem execSdDieReset_slotsKept (s : State) (d : Nat) : SlotsKept s.sec.otp (execSdDieReset d s) := by
  simp only [execSdDieReset, slotsKept_ite, ite_self, slotsKept_next, sdDieClear_otp, tell_otp', Otp.kept_refl]

theorem sdStageStop_otp (s : State) (d : Nat) : (sdStageStop s d).sec.otp = s.sec.otp := by
  simp only [sdStageStop, foldl_otp, implies_true, setDie_otp', sdBankOff_otp, dropSdDefer_otp]

/-! Machine/Switches.lean -/

theorem State.setLsPhase_otp (s : State) (n p : Nat) : (s.setLsPhase n p).sec.otp = s.sec.otp := by
  simp only [setLsPhase, set_otp']

theorem lsDiag_otp (s : State) (n bit code : Nat) (data : List Byte) :
    (lsDiag s n bit code data).sec.otp = s.sec.otp := by
  simp only [lsDiag, tell_otp']

theorem lsGroupDiag_otp (s : State) (g bit : Nat) : (lsGroupDiag s g bit).sec.otp = s.sec.otp := by
  simp only [lsGroupDiag, tell_otp']

theorem lsOpen_otp (s : State) (n : Nat) : (lsOpen s n).sec.otp = s.sec.otp := by
  simp only [lsOpen, ite_otp, ite_self, setLsC_otp']

theorem lsLeak_otp (s : State) (n : Nat) : (lsLeak s n).sec.otp = s.sec.otp := by
  simp only [lsLeak, setLsC_otp', set_otp']

theorem lsOffNow_otp (s : State) (n : Nat) : (lsOffNow s n).sec.otp = s.sec.otp := by
  simp only [lsOffNow, ite_otp, ite_self, lsOpen_otp, setLsC_otp', set_otp', setLsPhase_otp]

theorem channelLock_otp (s : State) (n e : Nat) : (channelLock s n e).sec.otp = s.sec.otp := by
  simp only [channelLock, setLsPhase_otp, lsDiag_otp, tell_otp', lsOffNow_otp]

theorem lsClampEnd_otp (s : State) (n microJ : Nat) : (lsClampEnd s n microJ).sec.otp = s.sec.otp := by
  simp only [lsClampEnd, ite_otp, ite_self, setLsC_otp', channelLock_otp, lsLeak_otp, set_otp',
    tell_otp']

theorem lsClose_otp (s : State) (n : Nat) : (lsClose s n).sec.otp = s.sec.otp := by
  simp only [lsClose, ite_otp, ite_self, setLsC_otp', fresh_otp', lsClampEnd_otp]

theorem lsPwmStart_otp (s : State) (n : Nat) : (lsPwmStart s n).sec.otp = s.sec.otp := by
  simp only [lsPwmStart, ite_otp, ite_self, setLsC_otp', lsClose_otp]

theorem lsDrive_otp (s : State) (n : Nat) : (lsDrive s n).sec.otp = s.sec.otp := by
  unfold lsDrive
  split <;> simp only [ite_otp, ite_self, setLsC_otp', lsPwmStart_otp, lsClose_otp, setLsPhase_otp]

theorem lsDeferAction_otp (s : State) (n : Nat) (on : Bool) : (lsDeferAction s n on).sec.otp = s.sec.otp := by
  simp only [lsDeferAction, ite_otp, ite_self, setLsPhase_otp, tell_otp']

theorem lsSwitchOn_otp (s : State) (n : Nat) : (lsSwitchOn s n).sec.otp = s.sec.otp := by
  simp only [lsSwitchOn, ite_otp, ite_self, setLsC_otp', lsDeferAction_otp, lsDrive_otp, put_otp',
    tell_otp']

theorem lsTurnOff_otp (s : State) (n : Nat) : (lsTurnOff s n).sec.otp = s.sec.otp := by
  simp only [lsTurnOff, ite_otp, ite_self, lsDeferAction_otp, setLsPhase_otp, lsOffNow_otp]

theorem execLsClampEventEnd_slotsKept (s : State) (n microJ : Nat) :
    SlotsKept s.sec.otp (execLsClampEventEnd n microJ s) := by
  simp only [execLsClampEventEnd, slotsKept_ite, ite_self, slotsKept_next, lsClampEnd_otp, Otp.kept_refl]

theorem execLsBucketLeak_slotsKept (s : State) (n : Nat) : SlotsKept s.sec.otp (execLsBucketLeak n s) := by
  simp only [execLsBucketLeak, slotsKept_ite, ite_self, slotsKept_next, lsLeak_otp, passTo_otp, Otp.kept_refl]

theorem lsUnlock_otp (s : State) (n : Nat) : (lsUnlock s n).1.sec.otp = s.sec.otp := by
  simp only [lsUnlock, ite_otp, ite_fst, ite_self, lsLeak_otp, set_otp', setLsPhase_otp, tell_otp']

theorem execLsUnlock_slotsKept (s : State) (n : Nat) : SlotsKept s.sec.otp (execLsUnlock n s) := by
  simp only [execLsUnlock, slotsKept_ite, ite_self, slotsKept_next, lsUnlock_otp, Otp.kept_refl]

theorem lsFclr_otp (s : State) (n : Nat) : (lsFclr s n).sec.otp = s.sec.otp := by
  simp only [lsFclr, ite_otp, ite_self, setLsC_otp', set_otp', setLsPhase_otp, tell_otp']

theorem lsEdge_otp (s : State) (n : Nat) (before : Bool) : (lsEdge s n before).sec.otp = s.sec.otp := by
  simp only [lsEdge, ite_otp, ite_self, setLsC_otp', lsSwitchOn_otp, lsTurnOff_otp]

theorem lsCctrlWrite_otp (s : State) (n : Nat) (v : Word) : (lsCctrlWrite s n v).1.sec.otp = s.sec.otp := by
  simp only [lsCctrlWrite, ite_otp, ite_fst, ite_self, lsUnlock_otp, lsFclr_otp, lsEdge_otp,
    wr_otp', set_otp', clearAll_otp]

theorem lsChannelWrite_otp (s : State) (n o : Nat) (v : Word) (field : Option Nat) :
    (lsChannelWrite s n o v field).1.sec.otp = s.sec.otp := by
  simp only [lsChannelWrite, ite_otp, ite_fst, ite_self, wr_otp', set_otp']

theorem execLsFclr_slotsKept (s : State) (n : Nat) : SlotsKept s.sec.otp (execLsFclr n s) := by
  simp only [execLsFclr, slotsKept_ite, ite_self, slotsKept_next, lsFclr_otp, Otp.kept_refl]

theorem lsCycle_otp (s : State) (n d : Nat) : (lsCycle s n d).sec.otp = s.sec.otp := by
  simp only [lsCycle, ite_otp, ite_self, lsOpen_otp, setLsC_otp', lsClose_otp]

theorem execLsPwmCycleStart_slotsKept (s : State) (n : Nat) : SlotsKept s.sec.otp (execLsPwmCycleStart n s) := by
  simp only [execLsPwmCycleStart, slotsKept_ite, ite_self, slotsKept_next, setLsC_otp', lsCycle_otp, Otp.kept_refl]

theorem execLsPwmOnEnd_slotsKept (s : State) (n : Nat) : SlotsKept s.sec.otp (execLsPwmOnEnd n s) := by
  simp only [execLsPwmOnEnd, slotsKept_ite, ite_self, slotsKept_next, lsOpen_otp, passTo_otp, Otp.kept_refl]

theorem execInrushWindowEnd_slotsKept (s : State) (n : Nat) : SlotsKept s.sec.otp (execInrushWindowEnd n s) := by
  simp only [execInrushWindowEnd, slotsKept_ite, ite_self, slotsKept_next, set_otp', passTo_otp, Otp.kept_refl]

theorem execLsLimit_slotsKept (s : State) (n ampere : Nat) (ongoing : Bool) :
    SlotsKept s.sec.otp (execLsLimit n ampere ongoing s) := by
  simp only [execLsLimit, slotsKept_ite, ite_self, slotsKept_next, setLsPhase_otp, lsDiag_otp, tell_otp', Otp.kept_refl]

theorem lsLatch_otp (s : State) (n tj : Nat) : (lsLatch s n tj).sec.otp = s.sec.otp := by
  simp only [lsLatch, setLsC_otp', setLsPhase_otp, lsDiag_otp, tell_otp']

theorem execLsThermalShutdown_slotsKept (s : State) (n tj : Nat) (tref : Int) :
    SlotsKept s.sec.otp (execLsThermalShutdown n tj tref s) := by
  simp only [execLsThermalShutdown, slotsKept_ite, ite_otp, ite_self, slotsKept_next, lsOpen_otp,
    setLsC_otp', lsLatch_otp, setLsPhase_otp, lsDiag_otp, tell_otp', Otp.kept_refl]

theorem execLsAutoRestart_slotsKept (s : State) (n tj : Nat) (tref : Int) :
    SlotsKept s.sec.otp (execLsAutoRestart n tj tref s) := by
  simp only [execLsAutoRestart, slotsKept_ite, ite_self, slotsKept_next, setLsC_otp', lsDrive_otp,
    set_otp', setLsPhase_otp, Otp.kept_refl]

theorem execLsRestartCountReset_slotsKept (s : State) (n : Nat) :
    SlotsKept s.sec.otp (execLsRestartCountReset n s) := by
  unfold execLsRestartCountReset
  split <;> simp only [slotsKept_ite, ite_self, slotsKept_next, setLsC_otp', passTo_otp, Otp.kept_refl]

theorem execOpenLoadOn_slotsKept (s : State) (n : Nat) : SlotsKept s.sec.otp (execOpenLoadOn n s) := by
  simp only [execOpenLoadOn, slotsKept_ite, ite_self, slotsKept_next, lsDiag_otp, Otp.kept_refl]

theorem execOpenLoadOff_slotsKept (s : State) (n : Nat) : SlotsKept s.sec.otp (execOpenLoadOff n s) := by
  simp only [execOpenLoadOff, slotsKept_ite, ite_self, slotsKept_next, lsDiag_otp, Otp.kept_refl]

theorem execShortToBattery_slotsKept (s : State) (n : Nat) : SlotsKept s.sec.otp (execShortToBattery n s) := by
  simp only [execShortToBattery, slotsKept_ite, ite_self, slotsKept_next, lsDiag_otp, Otp.kept_refl]

theorem groupArm_otp (s : State) (g : Nat) : (groupArm s g).1.sec.otp = s.sec.otp := by
  simp only [groupArm, ite_otp, ite_fst, ite_self, foldl_otp, implies_true, setLsG_otp',
    loopsFromZero_otp, set_otp', thermalEstimate_otp, lsSwitchOn_otp, log_otp, pwrBit_otp']

theorem execGroupArm_slotsKept (s : State) (g : Nat) : SlotsKept s.sec.otp (execGroupArm g s) := by
  simp only [execGroupArm, slotsKept_ite, ite_self, slotsKept_next, groupArm_otp, Otp.kept_refl]

theorem groupDisarm_otp (s : State) (g : Nat) : (groupDisarm s g).sec.otp = s.sec.otp := by
  simp only [groupDisarm, ite_otp, ite_self, foldl_otp, implies_true, set_otp', lsTurnOff_otp]

theorem execGroupDisarm_slotsKept (s : State) (g : Nat) : SlotsKept s.sec.otp (execGroupDisarm g s) := by
  simp only [execGroupDisarm, slotsKept_ite, ite_self, slotsKept_next, groupDisarm_otp, Otp.kept_refl]

theorem lsGctrlWrite_otp (s : State) (g : Nat) (v : Word) : (lsGctrlWrite s g v).sec.otp = s.sec.otp := by
  simp only [lsGctrlWrite, ite_otp, ite_self, groupDisarm_otp, groupArm_otp]

theorem lsApply_otp (s : State) (o : Nat) (v : Word) (field : Option Nat) :
    (lsApply s o v field).1.sec.otp = s.sec.otp := by
  simp only [lsApply, ite_otp, ite_fst, ite_self, lsChannelWrite_otp, plainWrite_otp, lsCctrlWrite_otp,
    lsGctrlWrite_otp]

theorem lsFail_otp (s : State) (n : Nat) : (lsFail s n).sec.otp = s.sec.otp := by
  simp only [lsFail, ite_otp, ite_self, setLsC_otp', lsEdge_otp, set_otp', put_otp']

theorem groupHoldExpiry_otp (s : State) (g : Nat) : (groupHoldExpiry s g).sec.otp = s.sec.otp := by
  simp only [groupHoldExpiry, ite_otp, ite_self, foldl_otp, implies_true, lsGroupDiag_otp, setLsG_otp',
    set_otp', lsFail_otp, tell_otp']

theorem execGroupHoldExpiry_slotsKept (s : State) (g : Nat) : SlotsKept s.sec.otp (execGroupHoldExpiry g s) := by
  unfold execGroupHoldExpiry
  split <;> simp only [slotsKept_ite, ite_self, slotsKept_next, groupHoldExpiry_otp, passTo_otp, Otp.kept_refl]

theorem lsHoldEntry_otp (s : State) (d : Nat) : (lsHoldEntry s d).sec.otp = s.sec.otp := by
  simp only [lsHoldEntry, ite_otp, ite_self, foldl_otp, implies_true, lsGroupDiag_otp,
    groupHoldExpiry_otp, setLsG_otp', setDie_otp', set_otp', tell_otp']

theorem lsDeferFlag_otp (s : State) (k : Nat) (on : Bool) : (lsDeferFlag s k on).sec.otp = s.sec.otp := by
  simp only [lsDeferFlag, foldl_otp, implies_true, lsGroupDiag_otp, put_otp', tell_otp']

theorem execLsDeferralEntry_slotsKept (s : State) (k decivolt : Nat) :
    SlotsKept s.sec.otp (execLsDeferralEntry k decivolt s) := by
  simp only [execLsDeferralEntry, slotsKept_ite, ite_self, slotsKept_next, lsDeferFlag_otp, tell_otp', Otp.kept_refl]

theorem lsRunDeferred_otp (s : State) (e : Nat × Bool) : (lsRunDeferred s e).sec.otp = s.sec.otp := by
  simp only [lsRunDeferred, ite_otp, ite_self, lsSwitchOn_otp, setLsPhase_otp, lsOffNow_otp]

theorem execLsDeferralEnd_slotsKept (s : State) (k decivolt : Nat) :
    SlotsKept s.sec.otp (execLsDeferralEnd k decivolt s) := by
  simp only [execLsDeferralEnd, slotsKept_ite, ite_self, foldl_otp, implies_true, slotsKept_next,
    lsDeferFlag_otp, lsRunDeferred_otp, Otp.kept_refl]

theorem lsDieClear_otp (s : State) (d : Nat) : (lsDieClear s d).sec.otp = s.sec.otp := by
  simp only [lsDieClear, foldl_otp, implies_true, setLsC_otp', setDie_otp', set_otp', tell_otp']

theorem execLsDieReset_slotsKept (s : State) (d : Nat) : SlotsKept s.sec.otp (execLsDieReset d s) := by
  simp only [execLsDieReset, slotsKept_ite, ite_self, slotsKept_next, lsDieClear_otp, tell_otp', Otp.kept_refl]

theorem lsStageStop_otp (s : State) (d : Nat) : (lsStageStop s d).sec.otp = s.sec.otp := by
  simp only [lsStageStop, foldl_otp, implies_true, setDie_otp', set_otp', lsOffNow_otp]

/-! Machine/Dies.lean -/

theorem stageApply_otp (s : State) (p : Post) : (stageApply s p).1.sec.otp = s.sec.otp := by
  simp only [stageApply, ite_otp, ite_fst, ite_self, sdApply_otp, lsApply_otp]

theorem stageErr_otp (s : State) (a e : Nat) : (stageErr s a e).sec.otp = s.sec.otp := by
  simp only [stageErr, ite_otp, ite_self, set_otp', sdErr_otp]

theorem stagePost_otp (s : State) (a : Nat) (v : Word) (field : Option Nat) :
    (stagePost s a v field).1.sec.otp = s.sec.otp := by
  simp only [stagePost, ite_otp, ite_fst, ite_self, post_otp', stageErr_otp, groupArm_otp]

theorem stageDeliver_otp (s : State) : (stageDeliver s).sec.otp = s.sec.otp := by
  simp only [stageDeliver, foldl_otp, implies_true, stageApply_otp]

theorem stageNow_otp (s : State) (a : Nat) (v : Word) (field : Option Nat) :
    (stageNow s a v field).sec.otp = s.sec.otp := by
  simp only [stageNow, ite_otp, ite_self, post_otp', stageApply_otp]

theorem execSdOnCommand_slotsKept (s : State) (n : Nat) : SlotsKept s.sec.otp (execSdOnCommand n s) := by
  simp only [execSdOnCommand, slotsKept_ite, ite_self, slotsKept_next, stageNow_otp, Otp.kept_refl]

theorem execSdOffCommand_slotsKept (s : State) (n : Nat) : SlotsKept s.sec.otp (execSdOffCommand n s) := by
  simp only [execSdOffCommand, slotsKept_ite, ite_self, slotsKept_next, stageNow_otp, Otp.kept_refl]

theorem execSdModeWrite_slotsKept (s : State) (n : Nat) (value : Word) :
    SlotsKept s.sec.otp (execSdModeWrite n value s) := by
  simp only [execSdModeWrite, slotsKept_ite, ite_self, slotsKept_next, stageNow_otp, Otp.kept_refl]

theorem execLsSwitchOn_slotsKept (s : State) (n : Nat) : SlotsKept s.sec.otp (execLsSwitchOn n s) := by
  simp only [execLsSwitchOn, slotsKept_ite, ite_self, slotsKept_next, stageNow_otp, Otp.kept_refl]

theorem execLsSwitchOff_slotsKept (s : State) (n : Nat) : SlotsKept s.sec.otp (execLsSwitchOff n s) := by
  simp only [execLsSwitchOff, slotsKept_ite, ite_self, slotsKept_next, stageNow_otp, Otp.kept_refl]

theorem execLsModeWrite_slotsKept (s : State) (n : Nat) (value : Word) :
    SlotsKept s.sec.otp (execLsModeWrite n value s) := by
  simp only [execLsModeWrite, slotsKept_ite, ite_self, slotsKept_next, stageNow_otp, Otp.kept_refl]

theorem dieChanBits_otp (s : State) (d : Nat) : (dieChanBits s d).sec.otp = s.sec.otp := by
  simp only [dieChanBits, ite_otp, ite_self, foldl_otp, implies_true, put_otp', sdMirror_otp]

theorem dieSeen_otp (s : State) (d : Nat) : (dieSeen s d).sec.otp = s.sec.otp := by
  simp only [dieSeen]

theorem execStatusFrameReceive_slotsKept (s : State) (d seq : Nat) (crcOk : Bool) (measured : List (Nat × Nat)) :
    SlotsKept s.sec.otp (execStatusFrameReceive d seq crcOk measured s) := by
  simp only [execStatusFrameReceive, slotsKept_ite, ite_self, foldl_otp, implies_true, slotsKept_next,
    dieChanBits_otp, setDie_otp', wr_otp', set_otp', record_otp, gated_slotsKept, dieSeen_otp, Otp.kept_refl]

theorem linkSupervise_otp (s : State) : (linkSupervise s).sec.otp = s.sec.otp := by
  simp only [linkSupervise, ite_otp, ite_self, foldl_otp, implies_true, setDie_otp']

theorem execStageLinkLoss_slotsKept (s : State) (d : Nat) : SlotsKept s.sec.otp (execStageLinkLoss d s) := by
  simp only [execStageLinkLoss, slotsKept_ite, ite_self, slotsKept_next, fire_otp, set_otp', log_otp, Otp.kept_refl]

theorem execStageLinkReturn_slotsKept (s : State) (d : Nat) : SlotsKept s.sec.otp (execStageLinkReturn d s) := by
  simp only [execStageLinkReturn, slotsKept_ite, ite_self, slotsKept_next, fire_otp, set_otp', log_otp, Otp.kept_refl]

theorem holdEntry_otp (s : State) (d : Nat) : (holdEntry s d).sec.otp = s.sec.otp := by
  simp only [holdEntry, ite_otp, ite_self, sdHoldEntry_otp, lsHoldEntry_otp]

theorem execStageHoldEntry_slotsKept (s : State) (d : Nat) : SlotsKept s.sec.otp (execStageHoldEntry d s) := by
  simp only [execStageHoldEntry, slotsKept_ite, ite_self, slotsKept_next, holdEntry_otp, Otp.kept_refl]

theorem powerGroundOff_otp (s : State) (d : Nat) : (powerGroundOff s d).sec.otp = s.sec.otp := by
  simp only [powerGroundOff, ite_otp, ite_self, foldl_otp, implies_true, setLsC_otp', setSdPhase_otp,
    sdTurnOff_otp, set_otp', lsOffNow_otp, sdMirror_otp, dropSdDefer_otp]

theorem execPowerGroundLoss_slotsKept (s : State) (d : Nat) : SlotsKept s.sec.otp (execPowerGroundLoss d s) := by
  simp only [execPowerGroundLoss, slotsKept_ite, ite_self, slotsKept_next, powerGroundOff_otp, setDie_otp',
    tell_otp', Otp.kept_refl]

theorem execPowerGroundReturn_slotsKept (s : State) (d : Nat) : SlotsKept s.sec.otp (execPowerGroundReturn d s) := by
  simp only [execPowerGroundReturn, slotsKept_ite, ite_self, slotsKept_next, setDie_otp', Otp.kept_refl]

theorem execLogicGroundLoss_slotsKept (s : State) (d : Nat) : SlotsKept s.sec.otp (execLogicGroundLoss d s) := by
  simp only [execLogicGroundLoss, slotsKept_ite, ite_self, slotsKept_next, setDie_otp', tell_otp',
    holdEntry_otp, Otp.kept_refl]

theorem execLogicGroundReturn_slotsKept (s : State) (d : Nat) : SlotsKept s.sec.otp (execLogicGroundReturn d s) := by
  simp only [execLogicGroundReturn, slotsKept_ite, ite_self, slotsKept_next, setDie_otp', tell_otp', Otp.kept_refl]

theorem stageStop_otp (s : State) : (stageStop s).sec.otp = s.sec.otp := by
  simp only [stageStop, foldl_otp, implies_true, sdStageStop_otp, lsStageStop_otp]

theorem disarmAll_otp (s : State) : (disarmAll s).sec.otp = s.sec.otp := by
  simp only [disarmAll, foldl_otp, implies_true, groupDisarm_otp, sdDisarm_otp]

theorem stageClear_otp (s : State) : (stageClear s).sec.otp = s.sec.otp := by
  simp only [stageClear, foldl_otp, implies_true, sdDieClear_otp, setLsC_otp', stageStop_otp,
    setSdB_otp', lsDieClear_otp]

/-! Machine/Engine.lean -/

theorem convertOutput_otp (s : State) (l : List Word) (u : F32) : (convertOutput s l u).sec.otp = s.sec.otp := by
  unfold convertOutput
  (repeat' split) <;> simp only [ite_otp, ite_self, set_otp']

theorem setOwned_otp (s : State) (l : List Word) (b : Bool) : (setOwned s l b).sec.otp = s.sec.otp := by
  unfold setOwned
  split <;> simp only [put_otp']

theorem loopEnd_otp (s : State) (n v : Nat) : (loopEnd s n v).sec.otp = s.sec.otp := by
  simp only [loopEnd, setLoop_otp', set_otp', setOwned_otp]

theorem loopTrip_otp (s : State) (n : Nat) : (loopTrip s n).sec.otp = s.sec.otp := by
  simp only [loopTrip, ite_otp, ite_self, fire_otp, setLoop_otp', set_otp', log_otp,
    loopEnd_otp]

theorem loopMiss_otp (s : State) (n : Nat) : (loopMiss s n).sec.otp = s.sec.otp := by
  simp only [loopMiss, ite_otp, ite_self, loopTrip_otp, setLoop_otp', count_otp']

theorem loopCounted_otp (s : State) (n : Nat) (o : LawOut) (held : Bool) :
    (loopCounted s n o held).sec.otp = s.sec.otp := by
  simp only [loopCounted, ite_otp, ite_self, wr_otp', count_otp']

theorem loopCompute_otp (s : State) (n : Nat) (t : Time) (y : F32) :
    (loopCompute s n t y).sec.otp = s.sec.otp := by
  simp only [loopCompute]
  split <;> simp only [loopCounted_otp, setLoop_otp', wr_otp', put_otp', loopMiss_otp]

theorem tailMiss_otp (s : State) (n : Nat) : (tailMiss s n).1.sec.otp = s.sec.otp := by
  simp only [tailMiss, count_otp']

theorem tailCompute_otp (s : State) (n : Nat) (f : Firing) (t : Time) :
    (tailCompute s n f t).1.sec.otp = s.sec.otp := by
  simp only [tailCompute]
  (repeat' split) <;> simp only [loopCounted_otp, setLoop_otp', tailMiss_otp]

theorem tailStep_otp (s : State) (n : Nat) (f : Firing) : (tailStep s n f).1.sec.otp = s.sec.otp := by
  unfold tailStep
  split <;> simp only [ite_otp, ite_fst, ite_self, tailCompute_otp]

theorem loopFallback_otp (s : State) (n : Nat) : (loopFallback s n).sec.otp = s.sec.otp := by
  simp only [loopFallback, ite_otp, ite_self, setLoop_otp', set_otp', log_otp, count_otp']

theorem loopFire_otp (s : State) (n : Nat) : (loopFire s n).sec.otp = s.sec.otp := by
  simp only [loopFire, ite_otp, setLoop_otp', set_otp']
  (repeat' split) <;> simp only [loopFallback_otp, setLoop_otp', set_otp', loopCompute_otp]

theorem loopWindowEnd_otp (s : State) (n : Nat) (t : Time) : (loopWindowEnd s n t).sec.otp = s.sec.otp := by
  unfold loopWindowEnd
  split <;> simp only [setLoop_otp', loopCompute_otp, loopMiss_otp]

theorem tailOutputs_otp (s : State) (n : Nat) : (tailOutputs s n).sec.otp = s.sec.otp := by
  simp only [tailOutputs, ite_otp, ite_self, foldl_otp, implies_true, produce_otp, setLoop_otp',
    convertOutput_otp]

theorem loopApplyOutput_otp (s : State) (n : Nat) : (loopApplyOutput s n).sec.otp = s.sec.otp := by
  simp only [loopApplyOutput]
  split <;> simp only [ite_otp, ite_self, tailOutputs_otp, produce_otp, setLoop_otp',
    convertOutput_otp, loopEnd_otp]

theorem loopWindows_otp (s : State) (n : Nat) : (loopWindows s n).sec.otp = s.sec.otp := by
  simp only [loopWindows]
  split <;> simp only [ite_otp, ite_self, foldl_fst_otp, implies_true, tailStep_otp, loopWindowEnd_otp,
    setLoop_otp']

theorem loopBoundary_otp (s : State) (n : Nat) : (loopBoundary s n).sec.otp = s.sec.otp := by
  simp only [loopBoundary, ite_otp, ite_self, loopFire_otp, setLoop_otp', wr_otp', set_otp',
    loopWindows_otp, loopEnd_otp]

theorem gridState_otp (s : State) (ph : Int) : (gridState s ph).sec.otp = s.sec.otp := by
  simp only [gridState, wr_otp', put_otp']

theorem frameBoundary_otp (s : State) : (frameBoundary s).sec.otp = s.sec.otp := by
  simp only [frameBoundary, foldl_otp, implies_true, devTo_otp, wr64_otp', gridState_otp,
    linkSupervise_otp, loopBoundary_otp, loopApplyOutput_otp, stageDeliver_otp, emit_otp']

theorem ceFrameStep_otp (s : State) (d : Int) : (ceFrameStep s d).sec.otp = s.sec.otp := by
  simp only [ceFrameStep, ite_otp, ite_self, fire_otp, gridState_otp, wr_otp', set_otp',
    log_otp]

theorem ceEnable_otp (s : State) : (ceEnable s).sec.otp = s.sec.otp := by
  simp only [ceEnable, ite_otp, ite_self, wr64_otp', wr_otp', set_otp']

theorem execCeEnable_slotsKept (s : State) : SlotsKept s.sec.otp (execCeEnable s) := by
  simp [execCeEnable, gatedField_slotsKept, ceEnable_otp, Otp.kept_refl]

theorem loopStop_otp (s : State) (n : Nat) : (loopStop s n).sec.otp = s.sec.otp := by
  simp only [loopStop, ite_otp, ite_self, setLoop_otp', set_otp']

theorem execLoopStop_slotsKept (s : State) (n : Nat) : SlotsKept s.sec.otp (execLoopStop n s) := by
  simp only [execLoopStop, slotsKept_ite, ite_self, slotsKept_next, gatedField_slotsKept, loopStop_otp, Otp.kept_refl]

theorem ceDisable_otp (s : State) : (ceDisable s).sec.otp = s.sec.otp := by
  simp only [ceDisable, foldl_otp, implies_true, set_otp', loopStop_otp]

theorem execCeDisable_slotsKept (s : State) : SlotsKept s.sec.otp (execCeDisable s) := by
  simp [execCeDisable, ceDisable_otp, gatedField_slotsKept, Otp.kept_refl]

theorem loopRun_otp (s : State) (n : Nat) : (loopRun s n).sec.otp = s.sec.otp := by
  simp only [loopRun, ite_otp, ite_self, fire_otp, setLoop_otp', wr_otp', set_otp', log_otp,
    loopEnd_otp, setOwned_otp]

theorem execLoopRun_slotsKept (s : State) (n : Nat) : SlotsKept s.sec.otp (execLoopRun n s) := by
  simp only [execLoopRun, slotsKept_ite, ite_self, slotsKept_next, gatedField_slotsKept, loopRun_otp, Otp.kept_refl]

theorem autoStart_otp (s : State) : (autoStart s).sec.otp = s.sec.otp := by
  simp only [autoStart, ite_otp, ite_self, foldl_otp, implies_true, loopRun_otp]

theorem execFrameBoundary_slotsKept (s : State) : SlotsKept s.sec.otp (execFrameBoundary s) := by
  simp [execFrameBoundary, slotsKept_next, autoStart_otp, frameBoundary_otp, gated_slotsKept, Otp.kept_refl]

theorem loopApply_otp (s : State) (n : Nat) : (loopApply s n).1.sec.otp = s.sec.otp := by
  simp only [loopApply, ite_otp, ite_fst, ite_self, set_otp']

theorem execLoopApply_slotsKept (s : State) (n : Nat) : SlotsKept s.sec.otp (execLoopApply n s) := by
  simp only [execLoopApply, slotsKept_ite, ite_self, slotsKept_next, loopApply_otp, gatedField_slotsKept, Otp.kept_refl]

theorem setPointWrite_otp (s : State) (n : Nat) (v : F32) : (setPointWrite s n v).sec.otp = s.sec.otp := by
  simp only [setPointWrite, wr_otp']

theorem loopTripclr_otp (s : State) (n : Nat) : (loopTripclr s n).sec.otp = s.sec.otp := by
  simp only [loopTripclr, ite_otp, ite_self, set_otp']

theorem execLoopTripclr_slotsKept (s : State) (n : Nat) : SlotsKept s.sec.otp (execLoopTripclr n s) := by
  simp only [execLoopTripclr, slotsKept_ite, ite_self, slotsKept_next, gatedField_slotsKept, loopTripclr_otp, Otp.kept_refl]

theorem lctrlWrite_otp (s : State) (n : Nat) (v : Word) : (lctrlWrite s n v).sec.otp = s.sec.otp := by
  simp only [lctrlWrite, ite_otp, ite_self, loopApply_otp, set_otp', clearAll_otp, loopStop_otp,
    loopTripclr_otp, plainWrite_otp, loopRun_otp]

theorem reclaim_otp (s : State) : (reclaim s).sec.otp = s.sec.otp := by
  simp only [reclaim, ite_otp, ite_self, set_otp']

theorem execReclaim_slotsKept (s : State) : SlotsKept s.sec.otp (execReclaim s) := by
  simp [execReclaim, reclaim_otp, gatedField_slotsKept, Otp.kept_refl]

theorem ceCtrlWrite_otp (s : State) (v : Word) : (ceCtrlWrite s v).sec.otp = s.sec.otp := by
  simp only [ceCtrlWrite, ite_otp, ite_self, ceDisable_otp, reclaim_otp, ceEnable_otp]

theorem leaveHold_otp (s : State) (d : Nat) : (leaveHold s d).sec.otp = s.sec.otp := by
  simp only [leaveHold, ite_otp, ite_self, foldl_otp, implies_true, setLsG_otp', setDie_otp',
    set_otp', setSdB_otp']

theorem reclaimLoop_otp (s : State) (n : Nat) : (reclaimLoop s n).sec.otp = s.sec.otp := by
  simp only [reclaimLoop, ite_otp]
  (repeat' split) <;> simp only [setLoop_otp', wr_otp']

theorem resumeLoop_otp (s : State) (n : Nat) : (resumeLoop s n).sec.otp = s.sec.otp := by
  simp only [resumeLoop, ite_otp, ite_self, setLoop_otp', set_otp']

theorem recordReclaim_otp (s : State) (expired : Bool) : (recordReclaim s expired).sec.otp = s.sec.otp := by
  simp only [recordReclaim, ite_otp, ite_self]

theorem execReclaimFrame_slotsKept (s : State) (bad : Nat) : SlotsKept s.sec.otp (execReclaimFrame bad s) := by
  simp only [execReclaimFrame, slotsKept_ite, ite_otp, ite_self, foldl_otp, implies_true, slotsKept_next,
    fire_otp, leaveHold_otp, resumeLoop_otp, set_otp', log_otp, gated_slotsKept,
    reclaimLoop_otp, recordReclaim_otp, Otp.kept_refl]

/-! Machine/Tagged.lean -/

theorem putCompletion_otp (s : State) (engine base slots n tag status field : Nat) :
    (putCompletion s engine base slots n tag status field).sec.otp = s.sec.otp := by
  simp only [putCompletion, busStore_otp]

/-! Machine/FusionJobs.lean -/

theorem State.setJobs_otp (s : State) (j : Nat) (q : TagQueue) : (s.setJobs j q).sec.otp = s.sec.otp := by
  simp only [setJobs, set_otp']

theorem readMatrix_otp (s : State) (a ld rows cols : Nat) :
    (readMatrix s a ld rows cols).2.sec.otp = s.sec.otp := by
  simp only [readMatrix, ite_otp, ite_snd, engineError_otp]
  split
  · rfl
  · refine foldl_snd_otp (fun u x => ?_) _ _
    split
    · rfl
    · simp only [ite_snd, ite_self, busRead_otp]

theorem writeMatrix_otp (s : State) (a ld : Nat) (m : Matrix) (rows cols : Nat) :
    (writeMatrix s a ld m rows cols).2.sec.otp = s.sec.otp := by
  simp only [writeMatrix, ite_otp, ite_snd, ite_self, foldl_snd_otp, implies_true, engineError_otp,
    busStore_otp]

theorem jobOperand_otp (s : State) (d : List Byte) (k : Nat) : (jobOperand s d k).2.sec.otp = s.sec.otp := by
  unfold jobOperand
  split <;> simp only [readMatrix_otp]

theorem jobSpoil_otp (s : State) (d : List Byte) (operands : List Matrix) (status : Nat) :
    (jobSpoil s d operands status).2.sec.otp = s.sec.otp := by
  simp only [jobSpoil, writeMatrix_otp]

theorem jobRun_otp (s : State) (d : List Byte) : (jobRun s d).2.sec.otp = s.sec.otp := by
  simp only [jobRun, ite_otp, ite_snd]
  (repeat' split) <;> simp only [jobOperand_otp, writeMatrix_otp, jobSpoil_otp]

theorem cyclesOf_otp (s : State) (d : List Byte) : (cyclesOf s d).2.sec.otp = s.sec.otp := by
  simp only [cyclesOf, ite_otp, ite_snd, ite_self, fresh_otp']

theorem jobEnd_otp (s : State) (j : Nat) (o : TagOp) (status cycles : Nat) :
    (jobEnd s j o status cycles).sec.otp = s.sec.otp := by
  simp only [jobEnd, ite_otp, ite_self, fire_otp, putCompletion_otp, setJobs_otp]

theorem jobSubmit_otp (s : State) (j : Nat) (v : Word) : (jobSubmit s j v).sec.otp = s.sec.otp := by
  simp only [jobSubmit, ite_otp, ite_fst, ite_snd, ite_self, countSat_otp, set_otp',
    readDescriptor_otp, setJobs_otp]

theorem execFusionJobSubmit_slotsKept (s : State) (queue : Nat) (value : Word) :
    SlotsKept s.sec.otp (execFusionJobSubmit queue value s) := by
  simp only [execFusionJobSubmit, slotsKept_ite, ite_self, slotsKept_next, gatedWrite_slotsKept, jobSubmit_otp, Otp.kept_refl]

theorem jobStartOf_otp {s t : State} {j : Nat} (h : jobStartOf s j = some t) : t.sec.otp = s.sec.otp := by
  obtain ⟨o, -, rfl⟩ := Option.map_eq_some_iff.mp h
  simp only [set_otp', setJobs_otp]

theorem jobStart_otp (s : State) : (jobStart s).sec.otp = s.sec.otp := by
  unfold jobStart
  split
  · rfl
  · split
    next t h => exact jobStartOf_otp h
    · cases h : jobStartOf s 1 with
      | none => rfl
      | some t => exact jobStartOf_otp h

theorem execFusionJobStart_slotsKept (s : State) : SlotsKept s.sec.otp (execFusionJobStart s) := by
  simp [execFusionJobStart, slotsKept_next, jobStart_otp, gated_slotsKept, Otp.kept_refl]

theorem jobComplete_otp (s : State) : (jobComplete s).sec.otp = s.sec.otp := by
  simp only [jobComplete, ite_fst, ite_snd]
  (repeat' split) <;> simp only [fresh_otp', cyclesOf_otp, set_otp', jobRun_otp, jobEnd_otp]

theorem execFusionJobComplete_slotsKept (s : State) : SlotsKept s.sec.otp (execFusionJobComplete s) := by
  simp [execFusionJobComplete, slotsKept_next, gated_slotsKept, jobComplete_otp, Otp.kept_refl]

theorem jobAck_otp (s : State) (j head : Nat) : (jobAck s j head).sec.otp = s.sec.otp := by
  simp only [jobAck, set_otp', setJobs_otp]

theorem execFusionCqAck_slotsKept (s : State) (queue head : Nat) :
    SlotsKept s.sec.otp (execFusionCqAck queue head s) := by
  simp only [execFusionCqAck, slotsKept_ite, ite_self, slotsKept_next, gatedWrite_slotsKept, jobAck_otp, Otp.kept_refl]

theorem jobAbort_otp (s : State) (j tag : Nat) : (jobAbort s j tag).sec.otp = s.sec.otp := by
  unfold jobAbort
  split <;> simp only [ite_otp, ite_self, jobEnd_otp]

theorem execFusionJobAbort_slotsKept (s : State) (queue tag : Nat) :
    SlotsKept s.sec.otp (execFusionJobAbort queue tag s) := by
  simp only [execFusionJobAbort, slotsKept_ite, ite_self, slotsKept_next, gatedWrite_slotsKept, jobAbort_otp, Otp.kept_refl]

theorem jobSplit_otp (s : State) (v : Nat) : (jobSplit s v).1.sec.otp = s.sec.otp := by
  simp only [jobSplit, ite_otp, ite_fst, ite_self, setObjN_otp', set_otp', clearAll_otp,
    setJobs_otp]

/-! Machine/ChimneyStore.lean -/

theorem chimneyCount_otp (s : State) (k : Nat) : (chimneyCount s k).sec.otp = s.sec.otp := otp_eq rfl

theorem chimneyEmit_otp (s : State) (m : Message) : (chimneyEmit s m).sec.otp = s.sec.otp := by
  simp only [chimneyEmit, chimneyCount_otp, emit_otp']

theorem chimneyDrop_otp (s : State) : (chimneyDrop s).sec.otp = s.sec.otp := by
  unfold chimneyDrop
  split <;> simp only [fire_otp, log_otp, chimneyCount_otp]

theorem chimneyRoom_otp (s : State) (n k : Nat) : (chimneyRoom s n k).sec.otp = s.sec.otp := by
  induction k generalizing s with
  | zero => rfl
  | succ k ih => simp only [chimneyRoom, ite_otp, ite_self, chimneyDrop_otp, ih]

theorem chimneySend_otp (s : State) (kind : Nat) (payload : List Byte) :
    (chimneySend s kind payload).sec.otp = s.sec.otp := by
  simp only [chimneySend, ite_otp, ite_self, chimneyRoom_otp, chimneyEmit_otp]

/-! Machine/ParterreMap.lean -/

theorem setTask_otp (s : State) (n : Nat) (t : Option Task) : (setTask s n t).sec.otp = s.sec.otp := otp_eq rfl

theorem onTask_otp (s : State) (f : Task → Task) : (onTask s f).sec.otp = s.sec.otp := by
  unfold onTask
  split <;> simp only [setTask_otp]

theorem capacityCheck_otp (s : State) : (capacityCheck s).sec.otp = s.sec.otp := by
  simp only [capacityCheck, ite_otp, ite_self, log_otp]

theorem rawLog_otp (s : State) (rec : List Byte) : (rawLog s rec).sec.otp = s.sec.otp := by
  simp only [rawLog, ite_otp, ite_self, onTask_otp]

theorem spreadMass_otp (s : State) (b : Time) (flow : Bool) (f dm : F32) (moist : Option F32) (pa pb : List F32) :
    (spreadMass s b flow f dm moist pa pb).sec.otp = s.sec.otp := by
  simp only [spreadMass, onTask_otp]

theorem massAttribution_otp (s : State) (e : Time) (mhz : Nat) (f : F32) (conf : Nat) :
    (massAttribution s e mhz f conf).sec.otp = s.sec.otp := by
  simp only [massAttribution, ite_otp]
  (repeat' split) <;> simp only [spreadMass_otp, capacityCheck_otp, log_otp, rawLog_otp]

theorem notePublication_otp (s : State) (q : Nat) (p : FuPub) (mhz : Nat) :
    (notePublication s q p mhz).sec.otp = s.sec.otp := by
  simp only [notePublication, ite_otp, ite_self, massAttribution_otp]

/-! Machine/Retain.lean -/

theorem State.keepRecord_otp (s : State) (key : Nat) (old : Rec) :
    (s.keepRecord key old).sec.otp = s.sec.otp := by
  simp only [keepRecord]

theorem State.setRecord_otp (s : State) (index sub : Nat) (r : Rec) :
    (s.setRecord index sub r).sec.otp = s.sec.otp := by
  unfold setRecord
  split <;> simp only [keepRecord_otp]

theorem State.writeRecord_otp (s : State) (index sub : Nat) (ty : ObjTy) (v : ObjVal) :
    (s.writeRecord index sub ty v).sec.otp = s.sec.otp := by
  unfold writeRecord
  split <;> simp only [ite_otp, ite_self, setRecord_otp]

theorem State.nodeRecordSend_otp (s : State) : (s.nodeRecordSend).sec.otp = s.sec.otp := by
  simp only [nodeRecordSend, ite_otp, ite_self, foldl_otp, implies_true, flueSend_otp]

theorem State.nextGeneration_otp (s : State) : (s.nextGeneration).sec.otp = s.sec.otp := by
  simp only [nextGeneration, nodeRecordSend_otp]

theorem State.retain_otp (s : State) (index sub : Nat) (v : ObjVal) :
    (s.retain index sub v).sec.otp = s.sec.otp := by
  unfold retain
  split <;> simp only [ite_otp, ite_self, writeRecord_otp, setObj_otp', nextGeneration_otp]

/-! Machine/Fusion.lean -/

theorem State.setFuSlot_otp (s : State) (k : Nat) (x : FuSlot) : (s.setFuSlot k x).sec.otp = s.sec.otp :=
  otp_eq rfl

theorem State.setQty_otp (s : State) (q : Nat) (x : FuQty) : (s.setQty q x).sec.otp = s.sec.otp := otp_eq rfl

theorem State.draws_otp (s : State) (n : Nat) : (s.draws n).2.sec.otp = s.sec.otp := otp_eq rfl

theorem setMask_otp (s : State) (k q : Nat) (m : FuMask) : (setMask s k q m).sec.otp = s.sec.otp := by
  simp only [setMask, ite_otp, ite_self, setFuSlot_otp, set_otp', put_otp']

theorem maskNow_otp (s : State) (k q cause : Nat) : (maskNow s k q cause).sec.otp = s.sec.otp := by
  simp only [maskNow, fire_otp, setMask_otp, log_otp]

theorem slotMask_otp (s : State) (k q cause : Nat) : (slotMask s k q cause).sec.otp = s.sec.otp := by
  simp only [slotMask, ite_otp, ite_self, maskNow_otp]

theorem slotUnmask_otp (s : State) (k q : Nat) : (slotUnmask s k q).sec.otp = s.sec.otp := by
  simp only [slotUnmask, fire_otp, setMask_otp, log_otp]

theorem dist2_otp (s : State) (q : Nat) (e : FuEst) (m : FuMeas) : (dist2 s q e m).2.sec.otp = s.sec.otp := by
  simp only [dist2, ite_otp, ite_snd, ite_self, fresh_otp']

theorem pairDist2_otp (s : State) (q : Nat) (a b : FuMeas) : (pairDist2 s q a b).2.sec.otp = s.sec.otp := by
  simp only [pairDist2, ite_otp, ite_snd, ite_self, fresh_otp']

theorem gates_otp (s : State) (q : Nat) (m : FuMeas) : (gates s q m).2.sec.otp = s.sec.otp := by
  unfold gates
  split <;> simp only [dist2_otp]

theorem applyMeas_otp (s : State) (q : Nat) (m : FuMeas) : (applyMeas s q m).sec.otp = s.sec.otp := by
  simp only [applyMeas, setQty_otp]

theorem noteGate_otp (s : State) (k q : Nat) (pass : Bool) : (noteGate s k q pass).sec.otp = s.sec.otp := by
  simp only [noteGate, ite_otp, ite_self, setMask_otp, slotMask_otp, count_otp']

theorem gateApply_otp (s : State) (q : Nat) (m : FuMeas) : (gateApply s q m).sec.otp = s.sec.otp := by
  simp only [gateApply, ite_otp, ite_self, applyMeas_otp, noteGate_otp, gates_otp]

theorem gateShadow_otp (s : State) (q : Nat) (m : FuMeas) : (gateShadow s q m).2.sec.otp = s.sec.otp := by
  simp only [gateShadow, ite_otp, ite_snd, ite_self, setMask_otp, slotUnmask_otp, gates_otp]

theorem foldLate_otp (s : State) (q : Nat) (m : FuMeas) (running : Bool) :
    (foldLate s q m running).sec.otp = s.sec.otp := by
  simp only [foldLate, ite_otp, ite_self, gateApply_otp, setQty_otp]

theorem acceptMeas_otp (s : State) (q : Nat) (m : FuMeas) : (acceptMeas s q m).sec.otp = s.sec.otp := by
  simp only [acceptMeas, ite_otp, ite_self, foldLate_otp, setQty_otp]

theorem sampleFor_otp (s : State) (k q : Nat) (x : Sample) (intervalNs : Nat) :
    (sampleFor s k q x intervalNs).sec.otp = s.sec.otp := by
  simp only [sampleFor, ite_otp, ite_self, setMask_otp, gateShadow_otp, slotMask_otp,
    acceptMeas_otp]

theorem takeSample_otp (s : State) (k : Nat) (x : Sample) (intervalNs : Nat) :
    (takeSample s k x intervalNs).sec.otp = s.sec.otp := by
  simp only [takeSample, ite_otp, ite_self, foldl_otp, implies_true, setFuSlot_otp, count_otp',
    sampleFor_otp]

theorem flushSlot_otp (s : State) (k : Nat) : (flushSlot s k).sec.otp = s.sec.otp := by
  simp only [flushSlot, ite_otp, ite_self, setFuSlot_otp, takeSample_otp]

theorem slotSample_otp (s : State) (k : Nat) (x : Sample) : (slotSample s k x).sec.otp = s.sec.otp := by
  unfold slotSample
  (repeat' split) <;> simp only [ite_otp, ite_self, setFuSlot_otp, takeSample_otp, flushSlot_otp]

theorem execSlotSample_slotsKept (s : State) (slot : Nat) : SlotsKept s.sec.otp (execSlotSample slot s) := by
  unfold execSlotSample
  split <;> simp only [slotsKept_ite, ite_self, slotsKept_next, slotSample_otp, gated_slotsKept, Otp.kept_refl]

theorem endDispute_otp (s : State) (q masked : Nat) : (endDispute s q masked).sec.otp = s.sec.otp := by
  unfold endDispute
  split <;> simp only [ite_otp, ite_self, foldl_otp, implies_true, fire_otp, set_otp', log_otp,
    setQty_otp, maskNow_otp]

theorem disputeEnd_otp (s : State) (q : Nat) (loser : Option Nat) :
    (disputeEnd s q loser).sec.otp = s.sec.otp := by
  unfold disputeEnd
  split <;> simp only [endDispute_otp, maskNow_otp]

theorem disputeBegin_otp (s : State) (q a b : Nat) (e : Time) : (disputeBegin s q a b e).sec.otp = s.sec.otp := by
  simp only [disputeBegin, fire_otp, set_otp', log_otp, setQty_otp, count_otp']
  split <;> simp only [draws_otp]

theorem horizon_otp (s : State) (q : Nat) (e : Time) : (horizon s q e).sec.otp = s.sec.otp := by
  unfold horizon
  split <;> simp only [set_otp', log_otp, setQty_otp]

theorem thirdDecides_otp (s : State) (q a b third : Nat) : (thirdDecides s q a b third).sec.otp = s.sec.otp := by
  simp only [thirdDecides]
  (repeat' split) <;> simp only [pairDist2_otp, maskNow_otp, disputeEnd_otp]

theorem heldEpoch_otp (s : State) (q : Nat) (ma mb : FuMeas) (e : Time) :
    (heldEpoch s q ma mb e).sec.otp = s.sec.otp := by
  simp only [heldEpoch, ite_otp, ite_self, pairDist2_otp, setQty_otp, disputeEnd_otp]

theorem disputeTest_otp (s : State) (q : Nat) (ma mb : FuMeas) (l : List FuMeas) :
    (disputeTest s q ma mb l).1.sec.otp = s.sec.otp := by
  simp only [disputeTest]
  (repeat' split) <;> simp only [applyMeas_otp, dist2_otp, disputeEnd_otp]

theorem disputeEpoch_otp (s : State) (q : Nat) (d : Time × Nat × Nat) (l : List FuMeas) (e : Time) :
    (disputeEpoch s q d l e).1.sec.otp = s.sec.otp := by
  simp only [disputeEpoch]
  (repeat' split) <;> simp only [disputeTest_otp, horizon_otp, thirdDecides_otp, heldEpoch_otp]

theorem pairEpoch_otp (s : State) (q : Nat) (ma mb : FuMeas) (l : List FuMeas) (g e : Time) :
    (pairEpoch s q ma mb l g e).sec.otp = s.sec.otp := by
  simp only [pairEpoch, ite_otp, ite_self, foldl_otp, implies_true, disputeTest_otp, applyMeas_otp,
    gateApply_otp, pairDist2_otp, disputeBegin_otp, setQty_otp]

theorem pairInterval_otp (s : State) (q a b : Nat) (l : List FuMeas) (g e : Time) :
    (pairInterval s q a b l g e).sec.otp = s.sec.otp := by
  simp only [pairInterval]
  split <;> simp only [ite_otp, ite_self, foldl_otp, implies_true, gateApply_otp, pairEpoch_otp]

theorem processEpoch_otp (s : State) (q : Nat) (l : List FuMeas) (e : Time) :
    (processEpoch s q l e).sec.otp = s.sec.otp := by
  unfold processEpoch
  split <;> simp only [ite_otp, ite_self, foldl_otp, implies_true, gateApply_otp, pairInterval_otp]

theorem staleSlots_otp (s : State) (q : Nat) (e : Time) : (staleSlots s q e).sec.otp = s.sec.otp := by
  simp only [staleSlots, ite_otp, ite_self, foldl_otp, implies_true, setMask_otp, slotMask_otp]

theorem resetQty_otp (s : State) (q : Nat) : (resetQty s q).sec.otp = s.sec.otp := by
  simp only [resetQty, ite_otp, ite_self, foldl_otp, implies_true, set_otp', log_otp, setQty_otp,
    slotUnmask_otp, disputeEnd_otp]

theorem poseFar_otp (s : State) (q : Nat) (x : List F32) : (poseFar s q x).sec.otp = s.sec.otp := by
  unfold poseFar
  (repeat' split) <;> simp only [ite_otp, ite_self, set_otp', log_otp]

theorem publishEst_otp (s : State) (q : Nat) (x : FuEst) (sigma : F32) (e : Time) (overrun : Bool) :
    (publishEst s q x sigma e overrun).sec.otp = s.sec.otp := by
  simp only [publishEst, ite_otp, ite_fst, ite_snd, ite_self, foldl_otp, implies_true, devTo_otp,
    fresh_otp', produce_otp, notePublication_otp, wr_otp', set_otp', put_otp', poseFar_otp,
    setQty_otp, deliver_otp, count_otp']

theorem freeEst_otp (s : State) (q : Nat) (e : Time) : (freeEst s q e).2.2.sec.otp = s.sec.otp := by
  simp only [freeEst, draws_otp]

theorem outputEst_otp (s : State) (q : Nat) (e : Time) : (outputEst s q e).2.2.sec.otp = s.sec.otp := by
  unfold outputEst
  (repeat' split) <;> simp only [freeEst_otp]

theorem trimHistory_otp (s : State) (q : Nat) (e : Time) : (trimHistory s q e).sec.otp = s.sec.otp := by
  simp only [trimHistory, setQty_otp]

theorem foldWaiting_otp (s : State) (q : Nat) : (foldWaiting s q).sec.otp = s.sec.otp := by
  simp only [foldWaiting, foldl_otp, implies_true, foldLate_otp, setQty_otp]

theorem fusionOverrun_otp (s : State) (q : Nat) (e : Time) : (fusionOverrun s q e).sec.otp = s.sec.otp := by
  simp only [fusionOverrun]
  split <;> simp only [ite_otp, ite_self, fire_otp, set_otp', log_otp, outputEst_otp,
    setQty_otp, publishEst_otp, count_otp']

theorem fusionCompute_otp (s : State) (q : Nat) (e : Time) : (fusionCompute s q e).sec.otp = s.sec.otp := by
  simp only [fusionCompute, ite_otp, ite_self, processEpoch_otp, outputEst_otp, setQty_otp,
    publishEst_otp, trimHistory_otp]
  split <;> simp only [staleSlots_otp, disputeEpoch_otp, setQty_otp]

theorem fusionEpoch_otp (s : State) (q : Nat) (overrun : Bool) :
    (fusionEpoch s q overrun).sec.otp = s.sec.otp := by
  simp only [fusionEpoch, ite_otp, ite_self, foldl_otp, implies_true, resetQty_otp, devTo_otp,
    fusionOverrun_otp, fusionCompute_otp, flushSlot_otp, foldWaiting_otp]

theorem execFusionEpoch_slotsKept (s : State) (q : Nat) (overrun : Bool) :
    SlotsKept s.sec.otp (execFusionEpoch q overrun s) := by
  simp only [execFusionEpoch, slotsKept_ite, ite_self, slotsKept_next, fusionEpoch_otp, gated_slotsKept, Otp.kept_refl]

theorem execDisputeHorizon_slotsKept (s : State) (q : Nat) : SlotsKept s.sec.otp (execDisputeHorizon q s) := by
  simp only [execDisputeHorizon, gated_slotsKept, Otp.kept_refl]
  (repeat' split) <;> simp only [slotsKept_next, devTo_otp, horizon_otp, Otp.kept_refl]

theorem quantityReset_otp (s : State) (q : Nat) : (quantityReset s q).1.sec.otp = s.sec.otp := by
  simp only [quantityReset, ite_otp, ite_fst, ite_self, setQty_otp]

theorem slotRestart_otp (s : State) (k role : Nat) : (slotRestart s k role).sec.otp = s.sec.otp := by
  simp only [slotRestart, foldl_otp, implies_true, setFuSlot_otp, set_otp', clearAll_otp,
    maskNow_otp]

theorem calReset_otp (s : State) (k : Nat) : (calReset s k).sec.otp = s.sec.otp := by
  simp only [calReset, ite_otp, ite_self, foldl_otp, implies_true, setFuSlot_otp, setObj_otp',
    slotUnmask_otp]

theorem slotWrite_otp (s : State) (k sub : Nat) (v : ObjVal) : (slotWrite s k sub v).sec.otp = s.sec.otp := by
  simp only [slotWrite, ite_otp, ite_self, setFuSlot_otp, setObj_otp']

theorem slotApply_otp (s : State) : (slotApply s).sec.otp = s.sec.otp := by
  simp only [slotApply, ite_otp, ite_self, foldl_otp, implies_true, slotRestart_otp, calReset_otp]

theorem execSlotConfigApply_slotsKept (s : State) : SlotsKept s.sec.otp (execSlotConfigApply s) := by
  simp [execSlotConfigApply, slotsKept_next, slotApply_otp, gated_slotsKept, Otp.kept_refl]

theorem calMask_otp (s : State) (k : Nat) : (calMask s k).sec.otp = s.sec.otp := by
  simp only [calMask, ite_otp, ite_self, foldl_otp, implies_true, maskNow_otp]

theorem calUpdateFrom_otp (k : Nat) (y : FuSlot) (d : List Word × State) :
    (calUpdateFrom k y d).sec.otp = d.2.sec.otp := by
  unfold calUpdateFrom
  extract_lets
  split
  · simp only [log_otp, fire_otp, calMask_otp, setFuSlot_otp]; rfl
  · simp only [ite_otp, ite_self, setFuSlot_otp]; rfl

theorem calUpdate_otp (s : State) (k : Nat) : (calUpdate s k).sec.otp = s.sec.otp := by
  rw [calUpdate_eq, calUpdateFrom_otp, draws_otp, passTo_otp]

theorem execCalibrationUpdate_slotsKept (s : State) (slot : Nat) :
    SlotsKept s.sec.otp (execCalibrationUpdate slot s) := by
  simp only [execCalibrationUpdate, slotsKept_ite, ite_self, slotsKept_next, gated_slotsKept, calUpdate_otp, Otp.kept_refl]

theorem execCalibrationStore_slotsKept (s : State) (slot : Nat) :
    SlotsKept s.sec.otp (execCalibrationStore slot s) := by
  unfold execCalibrationStore
  simp only [slotsKept_ite, ite_self, slotsKept_next, setFuSlot_otp, retain_otp, log_otp, gated_slotsKept,
    passTo_otp, Otp.kept_refl]

theorem fuTimeStep_otp (s : State) (step : Int) : (fuTimeStep s step).sec.otp = s.sec.otp := by
  simp only [fuTimeStep, fire_otp, set_otp', log_otp]

theorem fuCtrlWrite_otp (s : State) (v : Word) : (fuCtrlWrite s v).sec.otp = s.sec.otp := by
  simp only [fuCtrlWrite, put_otp']

/-! Machine/GhUnit.lean -/

theorem State.setGhQueue_otp (s : State) (l : List GhCmd) : (s.setGhQueue l).sec.otp = s.sec.otp := by
  simp only [setGhQueue, set_otp']

theorem ghAccept_otp (s : State) (c : GhCmd) (action : Nat) : (ghAccept s c action).sec.otp = s.sec.otp := by
  simp only [ghAccept, ite_otp, ite_self, setGhQueue_otp, set_otp', log_otp, count_otp']

theorem ghSubmit_otp (s : State) (c : GhCmd) (action : Nat) : (ghSubmit s c action).sec.otp = s.sec.otp := by
  simp only [ghSubmit, ite_otp, ite_self, ghAccept_otp, set_otp', count_otp']

theorem execGhCommandSubmit_slotsKept (s : State) (ts issue : Nat) (value : Word) :
    SlotsKept s.sec.otp (execGhCommandSubmit ts issue value s) := by
  simp only [execGhCommandSubmit, slotsKept_next, ghSubmit_otp, wr64_otp', wr_otp', Otp.kept_refl]

theorem ghDrive_otp (s : State) (c : GhCmd) : (ghDrive s c).sec.otp = s.sec.otp := by
  simp only [ghDrive, stageNow_otp]

theorem State.setSect_otp (s : State) (k : Nat) (x : Sect) : (s.setSect k x).sec.otp = s.sec.otp := otp_eq rfl

theorem lateReported_otp (s : State) (k : Nat) : (lateReported s k).sec.otp = s.sec.otp := by
  simp only [lateReported, ite_otp, ite_self, setSect_otp]

theorem execGhCommandExecute_slotsKept (s : State) : SlotsKept s.sec.otp (execGhCommandExecute s) := by
  unfold execGhCommandExecute
  split <;> simp only [slotsKept_ite, ite_otp, ite_self, slotsKept_next, setGhQueue_otp, ghDrive_otp,
    wr64_otp', wr_otp', lateReported_otp, set_otp', log_otp, count_otp', Otp.kept_refl]

theorem ghRemove_otp (s : State) (p : GhCmd → Bool) (cause : Nat) : (ghRemove s p cause).sec.otp = s.sec.otp := by
  simp only [ghRemove, ite_otp, ite_self, setGhQueue_otp, log_otp, count_otp']

theorem ghStopFlush_otp (s : State) : (ghStopFlush s).sec.otp = s.sec.otp := by
  simp only [ghStopFlush, ghRemove_otp]

theorem execGhFlush_slotsKept (s : State) : SlotsKept s.sec.otp (execGhFlush s) := by
  simp only [execGhFlush, slotsKept_next, ghRemove_otp, Otp.kept_refl]

theorem ghDisable_otp (s : State) : (ghDisable s).sec.otp = s.sec.otp := by
  simp only [ghDisable, ghRemove_otp, set_otp']

theorem execGhDisable_slotsKept (s : State) : SlotsKept s.sec.otp (execGhDisable s) := by
  simp only [execGhDisable, slotsKept_next, ghDisable_otp, Otp.kept_refl]

theorem ghCtrlWrite_otp (s : State) (v : Word) : (ghCtrlWrite s v).sec.otp = s.sec.otp := by
  simp only [ghCtrlWrite, ite_otp, ite_self, ghRemove_otp, set_otp', clearAll_otp, ghDisable_otp]

theorem ghEpochWrite_otp (s : State) (v : Nat) : (ghEpochWrite s v).sec.otp = s.sec.otp := by
  simp only [ghEpochWrite, ite_otp, ite_self, ghRemove_otp, set_otp']

theorem execGhEpochWrite_slotsKept (s : State) (v : Nat) : SlotsKept s.sec.otp (execGhEpochWrite v s) := by
  simp only [execGhEpochWrite, slotsKept_ite, ite_self, slotsKept_next, ghEpochWrite_otp, Otp.kept_refl]

theorem ghQueueStep_otp (s : State) (before : Time) : (ghQueueStep s before).sec.otp = s.sec.otp := by
  simp only [ghQueueStep, ite_otp, ite_self, set_otp', log_otp]

/-! Machine/DevTime.lean -/

theorem setTimeState_otp (s : State) (q : Nat) : (setTimeState s q).sec.otp = s.sec.otp := by
  simp only [setTimeState, ite_otp, ite_self, fire_otp, produce_otp, wr_otp', set_otp', log_otp]

theorem execTimeLocked_slotsKept (s : State) : SlotsKept s.sec.otp (execTimeLocked s) := by
  simp only [execTimeLocked, slotsKept_ite, ite_self, slotsKept_next, devTo_otp, setTimeState_otp, Otp.kept_refl]

theorem execTimeHoldover_slotsKept (s : State) : SlotsKept s.sec.otp (execTimeHoldover s) := by
  unfold execTimeHoldover
  (repeat' split) <;> simp only [slotsKept_next, setTimeState_otp, passTo_otp, Otp.kept_refl]

theorem execTimeFreerun_slotsKept (s : State) : SlotsKept s.sec.otp (execTimeFreerun s) := by
  simp only [execTimeFreerun, slotsKept_ite, ite_self, slotsKept_next, setTimeState_otp, passTo_otp, Otp.kept_refl]

theorem lockAfterCorrection_otp (s : State) : (lockAfterCorrection s).sec.otp = s.sec.otp := by
  simp only [lockAfterCorrection, ite_otp, ite_self, setTimeState_otp]

theorem slewWrite_otp (s : State) (v : Int) : (slewWrite s v).1.sec.otp = s.sec.otp := by
  simp only [slewWrite, ite_otp, ite_fst, ite_self, set_otp', put_otp']

theorem execSlewWrite_slotsKept (s : State) (value : Word) : SlotsKept s.sec.otp (execSlewWrite value s) := by
  simp only [execSlewWrite, slotsKept_next, slewWrite_otp, Otp.kept_refl]

theorem execSlewEnd_slotsKept (s : State) : SlotsKept s.sec.otp (execSlewEnd s) := by
  simp only [execSlewEnd, slotsKept_ite, ite_self, slotsKept_next, elapse_otp, set_otp',
    lockAfterCorrection_otp, Otp.kept_refl]

theorem stepArm_otp (s : State) (amount : Int) (byWrite : Bool) :
    (stepArm s amount byWrite).1.sec.otp = s.sec.otp := by
  simp only [stepArm, ite_otp, ite_fst, ite_self, set_otp']

theorem execStepArm_slotsKept (s : State) : SlotsKept s.sec.otp (execStepArm s) := by
  simp only [execStepArm, slotsKept_next, stepArm_otp, Otp.kept_refl]

theorem stepCancel_otp (s : State) : (stepCancel s).sec.otp = s.sec.otp := by
  simp only [stepCancel, ite_otp, ite_self, set_otp']

theorem execStepCancel_slotsKept (s : State) : SlotsKept s.sec.otp (execStepCancel s) := by
  simp only [execStepCancel, slotsKept_next, stepCancel_otp, Otp.kept_refl]

theorem execStepPending_slotsKept (s : State) : SlotsKept s.sec.otp (execStepPending s) := by
  simp only [execStepPending, slotsKept_ite, ite_self, slotsKept_next, fire_otp, devTo_otp, set_otp',
    log_otp, Otp.kept_refl]

theorem tpoAfterStep_otp (s : State) : (tpoAfterStep s).sec.otp = s.sec.otp := otp_eq rfl

theorem syncAfterStep_otp (s : State) : (syncAfterStep s).sec.otp = s.sec.otp := by
  refine foldl_otp (fun u x => ?_) _ s
  dsimp only
  split <;> rfl

theorem gnTimeStep_otp (s : State) (d : Int) (old : Time) : (gnTimeStep s d old).sec.otp = s.sec.otp := by
  simp only [gnTimeStep]

theorem timeStep_otp (s : State) : (timeStep s).sec.otp = s.sec.otp := by
  simp only [timeStep, ite_otp, ite_self, fire_otp, devTo_otp, fresh_otp', ghQueueStep_otp,
    setTimeState_otp, tpoAfterStep_otp, gnTimeStep_otp, set_otp', log_otp,
    lockAfterCorrection_otp, syncAfterStep_otp, fuTimeStep_otp, ceFrameStep_otp]

theorem execTimeStepExecute_slotsKept (s : State) : SlotsKept s.sec.otp (execTimeStepExecute s) := by
  simp only [execTimeStepExecute, slotsKept_ite, ite_self, slotsKept_next, timeStep_otp, Otp.kept_refl]

theorem timeWrite_otp (s : State) (t : Time) : (timeWrite s t).1.sec.otp = s.sec.otp := by
  simp only [timeWrite, ite_otp, ite_fst, ite_self, stepArm_otp]

theorem correct_otp (s : State) (err : Int) : (correct s err).sec.otp = s.sec.otp := by
  simp only [correct, ite_otp, ite_self, wr64_otp', slewWrite_otp, stepArm_otp]

theorem execTpoPulse_slotsKept (s : State) (k : Nat) : SlotsKept s.sec.otp (execTpoPulse k s) := by
  simp only [execTpoPulse, slotsKept_ite, ite_otp, ite_self, slotsKept_next, devTo_otp, produce_otp,
    emit_otp', Otp.kept_refl]

theorem tpoWrite_otp (s : State) (k a : Nat) (v : Word) : (tpoWrite s k a v).sec.otp = s.sec.otp := by
  simp only [tpoWrite, ite_otp, ite_self, plainWrite_otp]

theorem execTpiEdge_slotsKept (s : State) (t : Time) : SlotsKept s.sec.otp (execTpiEdge t s) := by
  simp only [execTpiEdge, slotsKept_ite, ite_self, slotsKept_next, fire_otp, devTo_otp, wr64_otp',
    produce_otp, count_otp', Otp.kept_refl]

/-! Machine/StopUnit.lean -/

theorem stopFrameSend_otp (s : State) : (stopFrameSend s).sec.otp = s.sec.otp := by
  simp only [stopFrameSend, flueSend_otp]

theorem dieStopInput_otp (s : State) (k : Nat) (asserted : Bool) :
    (dieStopInput s k asserted).sec.otp = s.sec.otp := by
  simp only [dieStopInput, ite_otp, ite_self, foldl_otp, implies_true, stageStop_otp, setDie_otp']

theorem stopLatch_otp (s : State) (causes : Nat) : (stopLatch s causes).sec.otp = s.sec.otp := by
  simp only [stopLatch, fire_otp, countSat_otp, stageStop_otp, set_otp', log_otp,
    ghStopFlush_otp]

theorem stopEvaluate_otp (s : State) : (stopEvaluate s).sec.otp = s.sec.otp := by
  simp only [stopEvaluate, ite_otp, ite_self, stopFrameSend_otp, set_otp', stopLatch_otp]

theorem stopDiffer_otp (s : State) : (stopDiffer s).sec.otp = s.sec.otp := by
  simp only [stopDiffer, ite_otp, ite_self, set_otp']

theorem stopInput_otp (s : State) (k : Nat) (asserted : Bool) : (stopInput s k asserted).sec.otp = s.sec.otp := by
  simp only [stopInput, stopDiffer_otp, dieStopInput_otp, stopEvaluate_otp]

theorem execStopInputChange_slotsKept (s : State) (k : Nat) (asserted : Bool) :
    SlotsKept s.sec.otp (execStopInputChange k asserted s) := by
  simp only [execStopInputChange, slotsKept_ite, ite_otp, ite_self, slotsKept_next, set_otp', stopInput_otp, Otp.kept_refl]

theorem execStopBandTimeout_slotsKept (s : State) (k decivolt : Nat) :
    SlotsKept s.sec.otp (execStopBandTimeout k decivolt s) := by
  simp only [execStopBandTimeout, slotsKept_ite, ite_self, slotsKept_next, set_otp', stopInput_otp, log_otp, Otp.kept_refl]

theorem execStopFrameRepeat_slotsKept (s : State) : SlotsKept s.sec.otp (execStopFrameRepeat s) := by
  simp only [execStopFrameRepeat, slotsKept_ite, ite_self, slotsKept_next, stopFrameSend_otp, passTo_otp, Otp.kept_refl]

theorem stopFrameTake_otp (s : State) (port : Nat) (f : FlueFrame) :
    (stopFrameTake s port f).sec.otp = s.sec.otp := by
  simp only [stopFrameTake, ite_otp, ite_self, flueLeave_otp, stopEvaluate_otp, count_otp']

theorem execStopFrameReceive_slotsKept (s : State) (port : Nat) (frame : FlueFrame) (fcsOk : Bool) :
    SlotsKept s.sec.otp (execStopFrameReceive port frame fcsOk s) := by
  simp only [execStopFrameReceive, slotsKept_ite, ite_self, slotsKept_next, gated_slotsKept, stopFrameTake_otp,
    count_otp', Otp.kept_refl]

theorem softwareStop_otp (s : State) (on : Bool) : (softwareStop s on).sec.otp = s.sec.otp := by
  simp only [softwareStop, stopEvaluate_otp, put_otp']

theorem execSoftwareStop_slotsKept (s : State) (on : Bool) : SlotsKept s.sec.otp (execSoftwareStop on s) := by
  simp only [execSoftwareStop, slotsKept_next, softwareStop_otp, Otp.kept_refl]

theorem execStopRemoteExpiry_slotsKept (s : State) : SlotsKept s.sec.otp (execStopRemoteExpiry s) := by
  unfold execStopRemoteExpiry
  split <;> simp only [slotsKept_next, stopEvaluate_otp, passTo_otp, Otp.kept_refl]

theorem execStopRelease_slotsKept (s : State) : SlotsKept s.sec.otp (execStopRelease s) := by
  unfold execStopRelease
  split <;> simp only [slotsKept_ite, ite_self, slotsKept_next, fire_otp, set_otp', passTo_otp, Otp.kept_refl]

theorem rearm_otp (s : State) : (rearm s).1.sec.otp = s.sec.otp := by
  simp only [rearm, ite_otp, ite_fst, ite_self, foldl_otp, implies_true, setDie_otp', set_otp',
    log_otp]

theorem execRearm_slotsKept (s : State) : SlotsKept s.sec.otp (execRearm s) := by
  simp only [execRearm, slotsKept_next, rearm_otp, Otp.kept_refl]

theorem discrepancy_otp (s : State) (v : Stop) (b : Bool) (n : Nat) :
    ((({ s with stop := v }.set R.siStopDisc 1).fire 390).log n (d8 (if b then 0 else 1))).sec.otp = s.sec.otp := by
  rw [log_otp, fire_otp, set_otp']

theorem execStopDiscrepancy_slotsKept (s : State) : SlotsKept s.sec.otp (execStopDiscrepancy s) := by
  unfold execStopDiscrepancy
  split
  · exact slotsKept_of_otp rfl
  · split
    · exact slotsKept_of_otp rfl
    · exact slotsKept_of_otp ((discrepancy_otp ..).trans (passTo_otp ..))

theorem State.idle_otp (s : State) : (s.idle).sec.otp = s.sec.otp := by
  simp only [idle, ite_otp, ite_self, stopEvaluate_otp]

theorem siStopWrite_otp (s : State) (v : Word) : (siStopWrite s v).sec.otp = s.sec.otp := by
  simp only [siStopWrite, ite_otp, ite_self, softwareStop_otp, set_otp', rearm_otp]

/-! Machine/FabricCore.lean -/

theorem epochSet_otp (s : State) (e serial : Nat) : (epochSet s e serial).sec.otp = s.sec.otp := by
  simp only [epochSet, wr64_otp', setFab_otp, set_otp']

theorem epochRaise_otp (s : State) (e serial : Nat) : (epochRaise s e serial).sec.otp = s.sec.otp := by
  simp only [epochRaise, epochSet_otp, ghEpochWrite_otp, log_otp]

theorem epochReject_otp (s : State) (sender epoch kind : Nat) :
    (epochReject s sender epoch kind).sec.otp = s.sec.otp := by
  simp only [epochReject, ite_otp, ite_self, fire_otp, flueSend_otp, setFab_otp, log_otp,
    count_otp']

theorem epochCheck_otp (s : State) (sender serial epoch kind : Nat) :
    (epochCheck s sender serial epoch kind).1.sec.otp = s.sec.otp := by
  simp only [epochCheck, ite_otp, ite_fst, ite_self, epochRaise_otp, epochReject_otp]

theorem heard_otp (s : State) (serial : Nat) : (heard s serial).sec.otp = s.sec.otp := by
  simp only [heard, ite_otp, ite_self, setFab_otp]

theorem nodeLost_otp (s : State) (id : Nat) (n : Node) : (nodeLost s id n).sec.otp = s.sec.otp := by
  simp only [nodeLost, fire_otp, log_otp, setNode_otp]

theorem sendAssign_otp (s : State) (id : Nat) (n : Node) : (sendAssign s id n).sec.otp = s.sec.otp := by
  simp only [sendAssign, flueAsk_otp]

theorem sendTopo_otp (s : State) (id : Nat) (n : Node) : (sendTopo s id n).sec.otp = s.sec.otp := by
  simp only [sendTopo, flueAsk_otp]

theorem nodeDeep_otp (s : State) (id : Nat) (n : Node) : (nodeDeep s id n).sec.otp = s.sec.otp := by
  simp only [nodeDeep, log_otp, setNode_otp]

theorem repath_otp (s : State) (rs : List Reach) (e : Nat × Option Node) :
    (repath rs s e).sec.otp = s.sec.otp := by
  unfold repath
  (repeat' split) <;> simp only [ite_otp, ite_self, fire_otp, sendTopo_otp, nodeDeep_otp, log_otp,
    nodeLost_otp, sendAssign_otp, setNode_otp]

theorem recompute_otp (s : State) : (recompute s).sec.otp = s.sec.otp := by
  simp only [recompute, foldl_otp, implies_true, repath_otp]

theorem blockEnds_otp (s : State) (l : Link) (on : Bool) : (blockEnds s l on).sec.otp = s.sec.otp := by
  simp only [blockEnds, ite_otp, ite_self, set_otp']

theorem ringFound_otp (s : State) (l : Link) : (ringFound s l).sec.otp = s.sec.otp := by
  simp only [ringFound, setFab_otp, set_otp', blockEnds_otp]

theorem ringHeal_otp (s : State) (broken : Option Link) (micros : Nat) :
    (ringHeal s broken micros).sec.otp = s.sec.otp := by
  unfold ringHeal
  split <;> simp only [fire_otp, setFab_otp, set_otp', log_otp, blockEnds_otp, count_otp',
    recompute_otp]

theorem linkLost_otp (s : State) (l : Link) : (linkLost s l).sec.otp = s.sec.otp := by
  simp only [linkLost, ite_otp, ite_self, setFab_otp, set_otp', recompute_otp, ringHeal_otp]

theorem syncMaster_otp (s : State) : (syncMaster s).sec.otp = s.sec.otp := by
  unfold syncMaster
  split <;> simp only [set_otp']

theorem portLink_otp (s : State) (p : Nat) (up : Bool) (sqi : Nat) (preempt : Bool) :
    (portLink s p up sqi preempt).sec.otp = s.sec.otp := by
  simp only [portLink, ite_otp, ite_self, fire_otp, flueSend_otp, setFab_otp, set_otp',
    log_otp, put_otp', count_otp']
  (repeat' split) <;> simp only [fire_otp, setFab_otp, set_otp', log_otp, put_otp', count_otp',
    linkLost_otp]

/-! Machine/Gatehouse.lean -/

theorem sectSend_otp (s : State) (k : Nat) (t ts : Time) (action : Nat) :
    (sectSend s k t ts action).sec.otp = s.sec.otp := by
  simp only [sectSend, ite_otp, ite_self, ghSubmit_otp, flueSend_otp]

theorem sectCommand_otp (s : State) (k : Nat) (t ts : Time) (on byMode : Bool) :
    (sectCommand s k t ts on byMode).sec.otp = s.sec.otp := by
  simp only [sectCommand, sectSend_otp, setSect_otp]

theorem sectWithdraw_otp (s : State) (k : Nat) (t : Time) : (sectWithdraw s k t).sec.otp = s.sec.otp := by
  simp only [sectWithdraw, sectSend_otp, setSect_otp]

theorem sectDecide_otp (s : State) (k : Nat) (m : Motion) (t : Time) :
    (sectDecide s k m t).sec.otp = s.sec.otp := by
  unfold sectDecide
  extract_lets x nxt lat look
  rw [ite_otp]
  split
  · rfl
  · split <;> simp only [ite_otp, ite_self, sectCommand_otp, sectWithdraw_otp]

theorem sectUnsend_otp (s : State) (p : Nat → Bool) : (sectUnsend s p).sec.otp = s.sec.otp := by
  simp only [sectUnsend, foldl_otp, implies_true, setSect_otp]

theorem sectResend_otp (s : State) (t : Time) : (sectResend s t).sec.otp = s.sec.otp := by
  unfold sectResend
  split
  · rfl
  · refine foldl_otp (fun u x => ?_) _ _
    (repeat' split) <;> simp only [sectCommand_otp]

theorem sectCover_otp (s : State) (pose : List F32) (t : Time) : (sectCover s pose t).sec.otp = s.sec.otp := by
  simp only [sectCover, ite_otp, ite_self, foldl_otp, implies_true, onTask_otp]

theorem sectFall_otp (s : State) (k : Nat) (t : Time) : (sectFall s k t).sec.otp = s.sec.otp := by
  unfold sectFall
  split <;> simp only [ite_otp, ite_self, sectCommand_otp, sectWithdraw_otp]

theorem sectFallback_otp (s : State) (t : Time) : (sectFallback s t).sec.otp = s.sec.otp := by
  unfold sectFallback
  split <;> simp only [foldl_otp, implies_true, sectFall_otp, log_otp]

theorem gateTick_otp (s : State) (t : Time) : (gateTick s t).sec.otp = s.sec.otp := by
  simp only [gateTick]
  split <;> simp only [ite_otp, ite_self, foldl_otp, implies_true, sectResend_otp, sectFallback_otp, sectDecide_otp,
    sectCover_otp, sectUnsend_otp]

theorem execGatehouseTick_slotsKept (s : State) : SlotsKept s.sec.otp (execGatehouseTick s) := by
  simp only [execGatehouseTick, ite_otp, ite_self, slotsKept_next, devTo_otp, gateTick_otp,
    whenRt_slotsKept, Otp.kept_refl]

theorem sectionMode_otp (s : State) (k v : Nat) : (sectionMode s k v).1.sec.otp = s.sec.otp := by
  simp only [sectionMode, ite_otp, ite_fst, setObjN_otp', sectFall_otp]
  (repeat' split) <;> simp only [sectCommand_otp, setObjN_otp']

/-! Machine/Gnss.lean -/

theorem setGn_otp (s : State) (g : Gnss) : (setGn s g).sec.otp = s.sec.otp := otp_eq rfl

theorem execAntennaShort_slotsKept (s : State) (milliamp : Nat) :
    SlotsKept s.sec.otp (execAntennaShort milliamp s) := by
  simp only [execAntennaShort, slotsKept_ite, ite_self, slotsKept_next, fire_otp, set_otp', log_otp,
    setGn_otp, Otp.kept_refl]

theorem execAntennaRetry_slotsKept (s : State) (limits : Bool) : SlotsKept s.sec.otp (execAntennaRetry limits s) := by
  simp only [execAntennaRetry, slotsKept_ite, ite_otp, ite_self, slotsKept_next, set_otp', setGn_otp,
    passTo_otp, Otp.kept_refl]

theorem execAntennaOpen_slotsKept (s : State) (milliamp : Nat) :
    SlotsKept s.sec.otp (execAntennaOpen milliamp s) := by
  simp only [execAntennaOpen, slotsKept_ite, ite_self, slotsKept_next, set_otp', log_otp, Otp.kept_refl]

theorem agcReport_otp (s : State) (gains : List Nat) : (agcReport s gains).sec.otp = s.sec.otp := by
  simp only [agcReport, set_otp']

theorem antennaClear_otp (s : State) : (antennaClear s).sec.otp = s.sec.otp := by
  simp only [antennaClear, set_otp', setGn_otp]

theorem execAntennaClear_slotsKept (s : State) : SlotsKept s.sec.otp (execAntennaClear s) := by
  simp only [execAntennaClear, slotsKept_next, antennaClear_otp, Otp.kept_refl]

theorem acqWrite_otp (s : State) (v : Word) : (acqWrite s v).sec.otp = s.sec.otp := by
  simp only [acqWrite, ite_otp, ite_self, set_otp', setGn_otp, plainWrite_otp]

theorem execAcqGo_slotsKept (s : State) (value : Word) : SlotsKept s.sec.otp (execAcqGo value s) := by
  simp [execAcqGo, gatedWrite_slotsKept, acqWrite_otp, Otp.kept_refl]

theorem execAcqDone_slotsKept (s : State) (codePhase : Nat) (doppler : Word) (peak : Nat) (t : Time) :
    SlotsKept s.sec.otp (execAcqDone codePhase doppler peak t s) := by
  simp only [execAcqDone, slotsKept_ite, ite_self, slotsKept_next, fire_otp, devTo_otp, wr64_otp',
    wr_otp', set_otp', gated_slotsKept, Otp.kept_refl]

theorem State.setGnCh_otp (s : State) (n : Nat) (x : GnCh) : (s.setGnCh n x).sec.otp = s.sec.otp := otp_eq rfl

theorem channelEnable_otp (s : State) (n : Nat) : (channelEnable s n).1.sec.otp = s.sec.otp := by
  simp only [channelEnable, ite_otp, ite_fst, ite_self, set_otp', setGnCh_otp]

theorem execChannelEnable_slotsKept (s : State) (n : Nat) : SlotsKept s.sec.otp (execChannelEnable n s) := by
  simp only [execChannelEnable, slotsKept_ite, ite_self, slotsKept_next, gatedField_slotsKept, channelEnable_otp, Otp.kept_refl]

theorem channelDisable_otp (s : State) (n : Nat) : (channelDisable s n).sec.otp = s.sec.otp := by
  simp only [channelDisable, set_otp']

theorem execChannelDisable_slotsKept (s : State) (n : Nat) : SlotsKept s.sec.otp (execChannelDisable n s) := by
  simp only [execChannelDisable, slotsKept_ite, ite_self, slotsKept_next, channelDisable_otp, gatedField_slotsKept, Otp.kept_refl]

theorem channelWrite_otp (s : State) (n : Nat) (v : Word) : (channelWrite s n v).sec.otp = s.sec.otp := by
  simp only [channelWrite, ite_otp, ite_self, channelDisable_otp, wr_otp', set_otp', put_otp',
    channelEnable_otp]

theorem phaseRegs_otp (s : State) (frac whole carLo len code : Nat) (carr : Int) :
    (phaseRegs s frac whole carLo len code carr).sec.otp = s.sec.otp := by
  simp only [phaseRegs, wr64_otp', wr_otp']

theorem channelDump_otp (s : State) (n : Nat) (t : Time) (data pilot : List Word) :
    (channelDump s n t data pilot).sec.otp = s.sec.otp := by
  unfold channelDump
  simp only [ite_otp, ite_self, foldl_otp, implies_true, devTo_otp, wr64_otp', wr_otp',
    set_otp', phaseRegs_otp, setGn_otp, count_otp', setGnCh_otp]

theorem execChannelDump_slotsKept (s : State) (n : Nat) (t : Time) (data pilot : List Word) :
    SlotsKept s.sec.otp (execChannelDump n t data pilot s) := by
  simp only [execChannelDump, slotsKept_ite, ite_self, slotsKept_next, channelDump_otp, gated_slotsKept, Otp.kept_refl]

theorem execDumpInterrupt_slotsKept (s : State) : SlotsKept s.sec.otp (execDumpInterrupt s) := by
  simp only [execDumpInterrupt, slotsKept_ite, ite_self, slotsKept_next, fire_otp, devTo_otp, gated_slotsKept,
    setGn_otp, Otp.kept_refl]

theorem ncoCommit_otp (s : State) (n slip : Nat) : (ncoCommit s n slip).sec.otp = s.sec.otp := by
  simp only [ncoCommit, setGnCh_otp]

theorem execNcoCommit_slotsKept (s : State) (n slip : Nat) : SlotsKept s.sec.otp (execNcoCommit n slip s) := by
  simp only [execNcoCommit, slotsKept_ite, ite_self, slotsKept_next, gatedWrite_slotsKept, ncoCommit_otp, Otp.kept_refl]

theorem dumpAck_otp (s : State) (n seq : Nat) : (dumpAck s n seq).sec.otp = s.sec.otp := by
  simp only [dumpAck, ite_otp, ite_self, setGnCh_otp]

theorem execDumpAck_slotsKept (s : State) (n seq : Nat) : SlotsKept s.sec.otp (execDumpAck n seq s) := by
  simp only [execDumpAck, slotsKept_ite, ite_self, slotsKept_next, dumpAck_otp, gatedWrite_slotsKept, Otp.kept_refl]

theorem latchChannel_otp (s : State) (n : Nat) : (latchChannel s n).sec.otp = s.sec.otp := by
  simp only [latchChannel, wr_otp', phaseRegs_otp]

theorem execMeasLatch_slotsKept (s : State) : SlotsKept s.sec.otp (execMeasLatch s) := by
  simp only [execMeasLatch, slotsKept_ite, ite_self, foldl_otp, implies_true, slotsKept_next, fire_otp,
    latchChannel_otp, devTo_otp, gated_slotsKept, setGn_otp, count_otp', Otp.kept_refl]

theorem utcUpdate_otp (s : State) (utc : Option (Nat × Nat)) : (utcUpdate s utc).sec.otp = s.sec.otp := by
  unfold utcUpdate
  split <;> simp only [ite_otp, ite_self, setObjN_otp', log_otp]

theorem execNavMessage_slotsKept (s : State) (sig prn typ : Nat) (t : Time) (len : Nat) (data : List Byte)
    (passed : Bool) (utc : Option (Nat × Nat)) :
    SlotsKept s.sec.otp (execNavMessage sig prn typ t len data passed utc s) := by
  simp only [execNavMessage, slotsKept_ite, ite_self, slotsKept_next, fire_otp, mwr_otp', gated_slotsKept,
    setGn_otp, utcUpdate_otp, Otp.kept_refl]

theorem corrCount_otp (s : State) (k : Nat) : (corrCount s k).sec.otp = s.sec.otp := by
  simp only [corrCount, setGn_otp]

theorem rtcmUse_otp (s : State) (typ : Nat) (l : List Byte) : (rtcmUse s typ l).sec.otp = s.sec.otp := by
  unfold rtcmUse
  split <;> simp only [ite_otp, ite_self, setGn_otp]

theorem rtcmFrame_otp (s : State) (source : Nat) (l : List Byte) :
    (rtcmFrame s source l).sec.otp = s.sec.otp := by
  simp only [rtcmFrame, ite_otp, ite_self, rtcmUse_otp, flueSend_otp, corrCount_otp, setGn_otp]

theorem rtcmForward_otp (s : State) (source : Nat) (l : List Byte) :
    (rtcmForward s source l).sec.otp = s.sec.otp := by
  simp only [rtcmForward, ite_otp, ite_self, flueSend_otp]

theorem rtcmStream_otp (s : State) (k : Nat) (l : List Byte) : (rtcmStream k s l).sec.otp = s.sec.otp := by
  induction k generalizing s l with
  | zero => rfl
  | succ k ih => simp only [rtcmStream, ite_otp, ite_self, rtcmFrame_otp, setGn_otp, rtcmForward_otp,
    ih]

theorem canCorrection_otp (s : State) (c : Nat) (x : CanFrame) : (canCorrection s c x).sec.otp = s.sec.otp := by
  simp only [canCorrection, ite_otp, ite_self, rtcmStream_otp]

theorem execRtcmFrame_slotsKept (s : State) (source : Nat) (bytes : List Byte) :
    SlotsKept s.sec.otp (execRtcmFrame source bytes s) := by
  simp [execRtcmFrame, slotsKept_next, rtcmFrame_otp, whenApp_slotsKept, rtcmForward_otp, Otp.kept_refl]

theorem execCorrectionsOld_slotsKept (s : State) : SlotsKept s.sec.otp (execCorrectionsOld s) := by
  simp only [execCorrectionsOld, slotsKept_ite, ite_self, slotsKept_next, log_otp, setGn_otp, passTo_otp,
    whenApp_slotsKept, Otp.kept_refl]

theorem exclude_otp (s : State) (f : Nat × Nat × Nat) : (exclude s f).sec.otp = s.sec.otp := by
  simp only [exclude, ite_otp, ite_self, fire_otp, log_otp, setGn_otp]

theorem readmit_otp (s : State) : (readmit s).sec.otp = s.sec.otp := by
  simp only [readmit, foldl_otp, implies_true, log_otp, setGn_otp]

theorem clockChecks_otp (s : State) (drift : Nat) (jump : Int) (signalsPass : Bool) :
    (clockChecks s drift jump signalsPass).sec.otp = s.sec.otp := by
  simp only [clockChecks, ite_otp]
  (repeat' split) <;> simp only [log_otp, setGn_otp, correct_otp]

theorem clockBreak_otp (s : State) : (clockBreak s).sec.otp = s.sec.otp := by
  simp only [clockBreak, setGn_otp]

theorem discipline_otp (s : State) (err : Int) (sigmaClock : Nat) :
    (discipline s err sigmaClock).sec.otp = s.sec.otp := by
  unfold discipline
  split <;> simp only [ite_otp, ite_self, draws_otp, setObj_otp', wr_otp', correct_otp]

theorem firstOrigin_otp (s : State) (place : Nat × Nat × Nat) : (firstOrigin s place).sec.otp = s.sec.otp := by
  simp only [firstOrigin, ite_otp, ite_self, retain_otp, setGn_otp]

theorem positionFix_otp (s : State) (t : Time) (fix : Nat) (seen : GnObs) (place : Nat × Nat × Nat)
    (sigmas velocity : List F32) (residuals : List (Nat × Nat × F32)) (drift : Nat) (jump err : Int)
    (sigmaClock : Nat) :
    (positionFix s t fix seen place sigmas velocity residuals drift jump err sigmaClock).sec.otp = s.sec.otp := by
  simp only [positionFix, ite_otp, ite_self, foldl_otp, implies_true, clockBreak_otp, readmit_otp,
    firstOrigin_otp, produce_otp, exclude_otp, log_otp, discipline_otp, clockChecks_otp,
    setGn_otp, deliver_otp]

theorem execPositionFix_slotsKept (s : State) (fix : Nat) (seen : GnObs) (place : Nat × Nat × Nat)
    (sigmas velocity : List F32) (residuals : List (Nat × Nat × F32)) (drift : Nat) (jump err : Int)
    (sigmaClock : Nat) :
    SlotsKept s.sec.otp (execPositionFix fix seen place sigmas velocity residuals drift jump err sigmaClock s) := by
  simp only [execPositionFix, slotsKept_ite, slotsKept_next, gated_slotsKept, agcReport_otp, setGn_otp, Otp.kept_refl]
  (repeat' split) <;> simp only [slotsKept_next, positionFix_otp, agcReport_otp, setGn_otp, Otp.kept_refl]

theorem measRateWrite_otp (s : State) (v : Nat) : (measRateWrite s v).1.sec.otp = s.sec.otp := by
  simp only [measRateWrite, ite_otp, ite_fst, ite_self, set_otp']

theorem clearOrbits_otp (s : State) : (clearOrbits s).1.sec.otp = s.sec.otp := by
  simp only [clearOrbits, setGn_otp]

theorem basebandOff_otp (s : State) : (basebandOff s).sec.otp = s.sec.otp := by
  simp only [basebandOff, foldl_otp, implies_true, channelDisable_otp, set_otp']

theorem gnCtrlWrite_otp (s : State) (v : Word) : (gnCtrlWrite s v).sec.otp = s.sec.otp := by
  simp only [gnCtrlWrite, ite_otp, ite_self, wr_otp', antennaClear_otp, basebandOff_otp,
    plainWrite_otp]

theorem fadjWrite_otp (s : State) (v : Word) : (fadjWrite s v).sec.otp = s.sec.otp := by
  simp only [fadjWrite, ite_otp, ite_self, plainWrite_otp]

theorem spacingWrite_otp (s : State) (n : Nat) (v : Word) : (spacingWrite s n v).sec.otp = s.sec.otp := by
  simp only [spacingWrite, ite_otp, ite_self, plainWrite_otp]

theorem modelWrite_otp (s : State) (l : List Byte) : (modelWrite s l).sec.otp = s.sec.otp := by
  simp only [modelWrite, ite_otp, ite_self, setObj_otp']

/-! Machine/Message.lean -/

theorem State.setDict_otp (s : State) (x : Service) : (s.setDict x).sec.otp = s.sec.otp := otp_eq rfl

theorem canMessage_otp (s : State) (c dst : Nat) (tag : Option Nat) (bytes : List Byte) :
    (canMessage s c dst tag bytes).sec.otp = s.sec.otp := by
  simp only [canMessage, setCan_otp, canPump_otp]

theorem dictChecker_otp (s : State) : (dictChecker s).sec.otp = s.sec.otp := by
  simp only [dictChecker, set_otp']

theorem fabricAlive_otp (s : State) (peer alive : Nat) : (fabricAlive s peer alive).2.sec.otp = s.sec.otp := by
  simp only [fabricAlive]
  split <;> simp only [aliveCheck_otp, dictChecker_otp, peerContext_otp]

theorem remoteSend_otp (s : State) (slot : Option Nat) (peer op tag index sub typ aux : Nat) (data : List Byte) :
    (remoteSend s slot peer op tag index sub typ aux data).1.sec.otp = s.sec.otp := by
  simp only [remoteSend, ite_otp, ite_fst]
  (repeat' split) <;> simp only [canMessage_otp, flueAsk_otp, setDict_otp, peerContext_otp]

theorem nodeAsk_otp (s : State) (node op index sub typ aux : Nat) (data : List Byte) :
    (nodeAsk s node op index sub typ aux data).sec.otp = s.sec.otp := by
  simp only [nodeAsk, remoteSend_otp]

/-! Machine/Security.lean -/

theorem State.setSec_otp (s : State) (x : Sec) : (s.setSec x).sec.otp = x.otp := rfl

theorem secRefuse_otp (s : State) (kind cause : Nat) : (secRefuse s kind cause).1.sec.otp = s.sec.otp := by
  simp only [secRefuse, log_otp, count_otp']

theorem challengeRead_otp (s : State) : (challengeRead s).2.sec.otp = s.sec.otp := by
  simp only [challengeRead, setSec_otp, drawBytes_otp]

theorem debugClose_otp (s : State) (cause : Nat) : (debugClose s cause).sec.otp = s.sec.otp := by
  simp only [debugClose, ite_otp, ite_self, setSec_otp, set_otp', log_otp]

theorem debugOpen_otp (s : State) (mask minutes : Nat) : (debugOpen s mask minutes).sec.otp = s.sec.otp := by
  simp only [debugOpen, setSec_otp, set_otp', log_otp, count_otp']

theorem execDebugExpiry_slotsKept (s : State) : SlotsKept s.sec.otp (execDebugExpiry s) := by
  unfold execDebugExpiry
  split <;> simp only [slotsKept_next, debugClose_otp, passTo_otp, Otp.kept_refl]

theorem execDebugDatagram_slotsKept (s : State) (seq op reg : Nat) (data : Word) :
    SlotsKept s.sec.otp (execDebugDatagram seq op reg data s) := by
  simp only [execDebugDatagram, slotsKept_ite, ite_self, slotsKept_next, fresh_otp', emit_otp', Otp.kept_refl]

theorem transition_otp (s : State) (to_ : Nat) : (transition s to_).1.sec.otp = s.sec.otp := by
  simp only [transition, ite_otp, ite_fst, ite_self, debugClose_otp, setSec_otp, set_otp',
    resetDue_otp]

theorem transitionRequest_otp (s : State) (v : Nat) : (transitionRequest s v).1.sec.otp = s.sec.otp := by
  simp only [transitionRequest, ite_otp, ite_fst, ite_self, secRefuse_otp, transition_otp]

theorem slotRevoke_otp (s : State) (k : Nat) : (slotRevoke s k).sec.otp = s.sec.otp := by
  simp only [slotRevoke, set_otp', log_otp]

theorem tokenWrite_otp (s : State) (l : List Byte) : (tokenWrite s l).1.sec.otp = s.sec.otp := by
  simp only [tokenWrite, ite_otp, ite_fst, secRefuse_otp, setSec_otp]
  (repeat' split) <;> simp only [setSec_otp, debugOpen_otp, slotRevoke_otp, transition_otp,
    count_otp']

theorem serialStaging_otp (s : State) (n : Nat) : (serialStaging s n).1.sec.otp = s.sec.otp := by
  simp only [serialStaging, ite_otp, ite_fst, ite_self, setSec_otp]

theorem slotHashWrite_otpKept {o : Otp} {s : State} (l : List Byte) (h : o.Kept s.sec.otp) :
    o.Kept (slotHashWrite s l).1.sec.otp := by
  unfold slotHashWrite
  extract_lets k
  split_ifs with hlife hslot hwritten
  · exact h
  · exact h
  · exact h
  · simp only [log_otp]
    exact h.trans (Otp.kept_hash (by simpa using hwritten) _)

theorem slotKeyWrite_otpKept {o : Otp} {s : State} (l : List Byte) (h : o.Kept s.sec.otp) :
    o.Kept (slotKeyWrite s l).1.sec.otp := by
  unfold slotKeyWrite
  extract_lets k
  split_ifs with hlife hslot hwritten
  · exact h
  · exact h
  · exact h
  · simp only [log_otp]
    exact h.trans (Otp.kept_key (by simpa using hwritten) _)

/-! Machine/Storage.lean -/

theorem State.setStorage_otp (s : State) (q : TagQueue) : (s.setStorage q).sec.otp = s.sec.otp := by
  simp only [setStorage, set_otp']

theorem flashPut_otp (s : State) (key : Nat) (b : FlashBlock) (through : Bool) :
    (flashPut s key b through).sec.otp = s.sec.otp := by
  simp only [flashPut]

theorem flashFlush_otp (s : State) : (flashFlush s).sec.otp = s.sec.otp := otp_eq rfl

theorem flashCut_otp (s : State) : (flashCut s).sec.otp = s.sec.otp := by
  simp only [flashCut, ite_otp, ite_self, foldl_otp, implies_true, fresh_otp', flashFlush_otp]

theorem cryptoErase_otp (s : State) (parts : List Nat) : (cryptoErase s parts).sec.otp = s.sec.otp := by
  simp only [cryptoErase, foldl_otp, implies_true]

theorem stReadBlocks_otp (s : State) (part k l m : Nat) : (stReadBlocks part k l m s).2.sec.otp = s.sec.otp := by
  induction k generalizing l m s with
  | zero => rfl
  | succ k ih => simp only [stReadBlocks, ite_otp, ite_snd, ite_self, busStore_otp, ih]

theorem stWriteBlocks_otp (s : State) (part : Nat) (through : Bool) (k l m : Nat) :
    (stWriteBlocks part through k l m s).2.sec.otp = s.sec.otp := by
  induction k generalizing l m s with
  | zero => rfl
  | succ k ih => simp only [stWriteBlocks, ite_otp, ite_snd, ite_self, busRead_otp, flashPut_otp, ih]

theorem stTrimBlocks_otp (s : State) (part k l : Nat) : (stTrimBlocks part k l s).sec.otp = s.sec.otp := by
  induction k generalizing l s with
  | zero => rfl
  | succ k ih => simp only [stTrimBlocks, flashPut_otp, ih]

theorem stRun_otp (s : State) (d : List Byte) : (stRun s d).2.sec.otp = s.sec.otp := by
  simp only [stRun, ite_otp, ite_snd, ite_self, flashFlush_otp, stWriteBlocks_otp, stTrimBlocks_otp,
    stReadBlocks_otp]

theorem stStartAll_otp (s : State) (k : Nat) : (stStartAll k s).sec.otp = s.sec.otp := by
  induction k generalizing s with
  | zero => rfl
  | succ k ih =>
    unfold stStartAll
    (repeat' split) <;> simp only [setStorage_otp, emit_otp', ih]

theorem stStart_otp (s : State) : (stStart s).sec.otp = s.sec.otp := by
  simp only [stStart, stStartAll_otp]

theorem stEnd_otp (s : State) (o : TagOp) (status : Nat) : (stEnd s o status).sec.otp = s.sec.otp := by
  simp only [stEnd, ite_otp, ite_self, fire_otp, stStart_otp, putCompletion_otp, log_otp,
    setStorage_otp]

theorem stSubmit_otp (s : State) (writer : Nat) (v : Word) : (stSubmit s writer v).sec.otp = s.sec.otp := by
  simp only [stSubmit, ite_otp, ite_fst, ite_snd, ite_self, stStart_otp, set_otp', readDescriptor_otp,
    setStorage_otp]

theorem execStorageSubmit_slotsKept (s : State) (writer : Nat) (value : Word) :
    SlotsKept s.sec.otp (execStorageSubmit writer value s) := by
  simp [execStorageSubmit, stSubmit_otp, gatedWrite_slotsKept, Otp.kept_refl]

theorem stComplete_otp (s : State) (tag : Nat) (media : Bool) : (stComplete s tag media).sec.otp = s.sec.otp := by
  unfold stComplete
  split <;> simp only [ite_otp, ite_self, stEnd_otp, stRun_otp, count_otp']

theorem execStorageComplete_slotsKept (s : State) (tag : Nat) (media : Bool) :
    SlotsKept s.sec.otp (execStorageComplete tag media s) := by
  simp [execStorageComplete, slotsKept_next, gated_slotsKept, stComplete_otp, Otp.kept_refl]

theorem lateEnd_otp (s : State) (late : List Nat) (o : TagOp) (status : Nat) :
    (stEnd { s with flash := { s.flash with late := late } } o status).sec.otp = s.sec.otp := stEnd_otp ..

theorem stTimeout_otp (s : State) (tag : Nat) : (stTimeout s tag).sec.otp = s.sec.otp := by
  unfold stTimeout
  split
  · rfl
  · split
    · rfl
    · exact (lateEnd_otp ..).trans (passTo_otp ..)

theorem execStorageTimeout_slotsKept (s : State) (tag : Nat) : SlotsKept s.sec.otp (execStorageTimeout tag s) := by
  simp only [execStorageTimeout, slotsKept_next, stTimeout_otp, Otp.kept_refl]

theorem stAck_otp (s : State) (head : Nat) : (stAck s head).sec.otp = s.sec.otp := by
  simp only [stAck, set_otp', setStorage_otp]

theorem execStorageCqAck_slotsKept (s : State) (head : Nat) : SlotsKept s.sec.otp (execStorageCqAck head s) := by
  simp [execStorageCqAck, gatedWrite_slotsKept, stAck_otp, Otp.kept_refl]

theorem stAbort_otp (s : State) (tag : Nat) : (stAbort s tag).sec.otp = s.sec.otp := by
  unfold stAbort
  split <;> simp only [ite_otp, ite_self, stEnd_otp]

theorem execStorageAbort_slotsKept (s : State) (tag : Nat) : SlotsKept s.sec.otp (execStorageAbort tag s) := by
  simp [execStorageAbort, stAbort_otp, gatedWrite_slotsKept, Otp.kept_refl]

theorem flashLifetime_otp (s : State) (percent : Nat) : (flashLifetime s percent).sec.otp = s.sec.otp := by
  simp only [flashLifetime, ite_otp, ite_self, fire_otp, log_otp]

theorem execFlashLifetimeCheck_slotsKept (s : State) (percent : Nat) :
    SlotsKept s.sec.otp (execFlashLifetimeCheck percent s) := by
  simp only [execFlashLifetimeCheck, slotsKept_next, flashLifetime_otp, Otp.kept_refl]

theorem scrub_otp (s : State) (addr errors : Nat) : (scrub s addr errors).sec.otp = s.sec.otp := by
  simp only [scrub, ite_otp, ite_self, dramCorrected_otp, wr_otp', set_otp', dramUncorrectable_otp]

theorem execScrubRead_slotsKept (s : State) (addr errors : Nat) :
    SlotsKept s.sec.otp (execScrubRead addr errors s) := by
  simp only [execScrubRead, slotsKept_next, scrub_otp, Otp.kept_refl]

theorem clearRetirement_otp (s : State) : (clearRetirement s).1.sec.otp = s.sec.otp := by
  simp only [clearRetirement, ite_otp, ite_fst, ite_self]

theorem integrityWrite_otp (s : State) (sub value : Nat) :
    (integrityWrite s sub value).1.sec.otp = s.sec.otp := by
  simp only [integrityWrite, ite_otp, ite_fst, ite_self, setObjN_otp', log_otp]

/-! Machine/Update.lean -/

theorem State.setUpd_otp (s : State) (x : Update) : (s.setUpd x).sec.otp = s.sec.otp := otp_eq rfl

theorem State.setImg_otp (s : State) (t : Nat) (x : ImgType) : (s.setImg t x).sec.otp = s.sec.otp := by
  simp only [setImg, setUpd_otp]

theorem setImgState_otp (s : State) (t v : Nat) : (setImgState s t v).sec.otp = s.sec.otp := by
  simp only [setImgState, set_otp']

theorem setRelayNode_otp (s : State) (id : Nat) (f : RelayNode → RelayNode) :
    (setRelayNode s id f).sec.otp = s.sec.otp := by
  simp only [setRelayNode, setUpd_otp]

theorem setDown_otp (s : State) (t p : Nat) (d : Downstream) : (setDown s t p d).sec.otp = s.sec.otp := by
  simp only [setDown, setUpd_otp]

theorem fragmentSend_otp (s : State) (t p offset len : Nat) :
    (fragmentSend s t p offset len).sec.otp = s.sec.otp := by
  simp only [fragmentSend, flueAskBy_otp]

theorem relaySend_otp (s : State) (t p k : Nat) : (relaySend t p k s).sec.otp = s.sec.otp := by
  induction k generalizing s with
  | zero => rfl
  | succ k ih => simp only [relaySend, ite_otp, ite_self, setDown_otp, fragmentSend_otp, ih]

theorem relayForward_otp (s : State) (t : Nat) : (relayForward s t).sec.otp = s.sec.otp := by
  simp only [relayForward, ite_otp, ite_self, foldl_otp, implies_true, relaySend_otp]

theorem relayHalt_otp (s : State) (cause id : Nat) : (relayHalt s cause id).sec.otp = s.sec.otp := by
  simp only [relayHalt, set_otp', log_otp, setUpd_otp]

theorem relayAnswer_otp (s : State) (t p status received : Nat) :
    (relayAnswer s t p status received).sec.otp = s.sec.otp := by
  unfold relayAnswer
  split <;> simp only [ite_otp, ite_self, setFab_otp, setDown_otp, relaySend_otp, setRelayNode_otp]

theorem relayTimeout_otp (s : State) (t p : Nat) : (relayTimeout s t p).sec.otp = s.sec.otp := by
  simp only [relayTimeout, ite_otp, ite_self, setFab_otp, setDown_otp, log_otp, setRelayNode_otp]

theorem execRelayNeighbourResume_slotsKept (s : State) (t p received : Nat) :
    SlotsKept s.sec.otp (execRelayNeighbourResume t p received s) := by
  simp only [execRelayNeighbourResume, gated_slotsKept, Otp.kept_refl]
  (repeat' split) <;> simp only [slotsKept_next, setDown_otp, passTo_otp, relaySend_otp, Otp.kept_refl]

theorem imageRefuse_otp (s : State) (t cause : Nat) : (imageRefuse s t cause).sec.otp = s.sec.otp := by
  simp only [imageRefuse, wr64_otp', wr_otp', setImgState_otp, setImg_otp, set_otp', log_otp,
    count_otp']

theorem slotStore_otp (s : State) (t a b : Nat) : (slotStore s t a b).sec.otp = s.sec.otp := by
  simp only [slotStore, foldl_otp, implies_true, flashPut_otp]

theorem chunksTake_otp (s : State) (t k : Nat) : (chunksTake t k s).1.sec.otp = s.sec.otp := by
  induction k generalizing s with
  | zero => rfl
  | succ k ih => simp only [chunksTake, ite_otp, ite_fst, ite_self, setImg_otp, slotStore_otp, ih]

theorem imageChecks_otp (s : State) (t n : Nat) : (imageChecks s t n).1.sec.otp = s.sec.otp := by
  simp only [imageChecks, ite_otp, ite_fst, ite_self, wr64_otp', chunksTake_otp]

theorem imageGrow_otp (s : State) (t : Nat) (data : List Byte) : (imageGrow s t data).1.sec.otp = s.sec.otp := by
  simp only [imageGrow, ite_otp, ite_fst, ite_self, imageChecks_otp, wr_otp', setImgState_otp,
    setImg_otp, log_otp, relayForward_otp, imageRefuse_otp, count_otp']

theorem intakeFragment_otp (s : State) (source : Nat) (l : List Byte) :
    (intakeFragment s source l).1.sec.otp = s.sec.otp := by
  simp only [intakeFragment, ite_otp, ite_fst, ite_self, setImgState_otp, setImg_otp, log_otp,
    imageGrow_otp]

theorem intakeCut_otp (s : State) : (intakeCut s).sec.otp = s.sec.otp := by
  simp only [intakeCut, foldl_otp, implies_true, wr_otp', setImg_otp]

theorem nodeWrite_otp (s : State) (id sub v : Nat) : (nodeWrite s id sub v).sec.otp = s.sec.otp := by
  simp only [nodeWrite, nodeAsk_otp]

theorem updateAbort_otp (s : State) (t : Nat) : (updateAbort s t).1.sec.otp = s.sec.otp := by
  simp only [updateAbort, ite_otp, ite_fst, ite_self, foldl_otp, implies_true, nodeWrite_otp,
    wr64_otp', wr_otp', setImgState_otp, setImg_otp, relayHalt_otp, log_otp, setUpd_otp]

theorem slotSwap_otp (s : State) (t : Nat) : (slotSwap s t).sec.otp = s.sec.otp := by
  simp only [slotSwap, wr64_otp', setImg_otp, set_otp']

theorem activate_otp (s : State) (t : Nat) : (activate s t).1.sec.otp = s.sec.otp := by
  simp only [activate, ite_otp, ite_fst]
  (repeat' split) <;> simp only [setImgState_otp, setImg_otp, log_otp, slotSwap_otp, resetDue_otp,
    count_otp']

theorem relayRequest_otp (s : State) (t : Nat) (seen : List (Nat × Nat)) :
    (relayRequest s t seen).1.sec.otp = s.sec.otp := by
  simp only [relayRequest, ite_otp, ite_fst]
  (repeat' split) <;> simp only [set_otp', log_otp, relayForward_otp, setUpd_otp]

theorem relayJoin_otp (s : State) : (relayJoin s).sec.otp = s.sec.otp := by
  simp only [relayJoin, ite_otp, ite_self, setUpd_otp]

theorem relaySeen_otp (s : State) (want : Nat) (e : Nat × Nat × Nat × Nat) :
    (relaySeen want s e).sec.otp = s.sec.otp := by
  simp only [relaySeen, setRelayNode_otp]

theorem relayActivate_otp (s : State) (n : RelayNode) : (relayActivate s n).sec.otp = s.sec.otp := by
  simp only [relayActivate, ite_otp, ite_self, nodeWrite_otp, activate_otp, set_otp',
    relayHalt_otp, setUpd_otp, setRelayNode_otp]

theorem relayStep_otp (s : State) : (relayStep s).sec.otp = s.sec.otp := by
  simp only [relayStep]
  (repeat' split) <;> simp only [set_otp', relayHalt_otp, relayActivate_otp, setUpd_otp]

theorem execRelayActivationStep_slotsKept (s : State) (seen : List (Nat × Nat × Nat × Nat)) :
    SlotsKept s.sec.otp (execRelayActivationStep seen s) := by
  simp only [execRelayActivationStep, slotsKept_ite, ite_self, foldl_otp, implies_true, slotsKept_next,
    whenServing_slotsKept, relaySeen_otp, relayStep_otp, relayJoin_otp, Otp.kept_refl]

theorem execActivationTimeout_slotsKept (s : State) : SlotsKept s.sec.otp (execActivationTimeout s) := by
  unfold execActivationTimeout
  (repeat' split) <;> simp [slotsKept_next, whenServing_slotsKept, relayHalt_otp, Otp.kept_refl]

theorem confirm_otp (s : State) (t : Nat) : (confirm s t).1.sec.otp = s.sec.otp := by
  simp only [confirm, ite_otp, ite_fst, ite_self, setImg_otp, set_otp', log_otp]

theorem confirmExpire_otp (s : State) (t : Nat) : (confirmExpire s t).sec.otp = s.sec.otp := by
  simp only [confirmExpire, ite_otp, ite_self, setImg_otp, set_otp']

theorem execConfirmationExpiry_slotsKept (s : State) (t : Nat) :
    SlotsKept s.sec.otp (execConfirmationExpiry t s) := by
  unfold execConfirmationExpiry
  split <;> simp only [slotsKept_ite, ite_self, slotsKept_next, confirmExpire_otp, passTo_otp, Otp.kept_refl]

theorem rollBackRequest_otp (s : State) (t : Nat) : (rollBackRequest s t).1.sec.otp = s.sec.otp := by
  simp only [rollBackRequest, ite_otp, ite_fst, ite_self, setImg_otp, resetDue_otp]

theorem rollBack_otp (s : State) (t : Nat) : (rollBack s t).sec.otp = s.sec.otp := by
  simp only [rollBack, setImgState_otp, setImg_otp, set_otp', log_otp, slotSwap_otp, count_otp']

/-! Machine/Fabric.lean -/

theorem execPortLinkChange_slotsKept (s : State) (p : Nat) (up : Bool) (sqi : Nat) (preempt : Bool) :
    SlotsKept s.sec.otp (execPortLinkChange p up sqi preempt s) := by
  simp [execPortLinkChange, slotsKept_next, gated_slotsKept, portLink_otp, Otp.kept_refl]

theorem helloDue_otp (s : State) (p : Nat) : (helloDue s p).sec.otp = s.sec.otp := by
  obtain ⟨_, _, h⟩ := helloDue_only s p
  rw [h]

theorem execHelloSend_slotsKept (s : State) (p : Nat) : SlotsKept s.sec.otp (execHelloSend p s) := by
  refine gated_slotsKept.mpr ?_
  split
  · split
    · exact slotsKept_of_otp rfl
    · exact slotsKept_of_otp ((flueSendOn_otp ..).trans ((setFab_otp ..).trans (helloDue_otp s p)))
  · exact Otp.kept_refl _

theorem nodeJoin_otp (s : State) (id : Nat) (n : Node) : (nodeJoin s id n).sec.otp = s.sec.otp := by
  unfold nodeJoin
  split <;> simp only [ite_otp, ite_self, fire_otp, nodeDeep_otp, log_otp, sendAssign_otp,
    setNode_otp, sectUnsend_otp]

theorem pushNext_otp (s : State) (x : Push) : (pushNext s x).sec.otp = s.sec.otp := by
  simp only [pushNext, ite_otp, ite_self, setFab_otp, nodeAsk_otp]

theorem pushDone_otp (s : State) (x : Push) : (pushDone s x).sec.otp = s.sec.otp := by
  simp only [pushDone]
  split <;> simp only [fire_otp, setFab_otp, log_otp, setNode_otp]

theorem pushAnswer_otp (s : State) (node op index status : Nat) :
    (pushAnswer s node op index status).sec.otp = s.sec.otp := by
  unfold pushAnswer
  split <;> simp only [ite_otp, ite_self, pushDone_otp, setFab_otp, pushNext_otp]

theorem replacementPush_otp (s : State) (id serial : Nat) (path : List Nat) (up : Nat) :
    (replacementPush s id serial path up).sec.otp = s.sec.otp := by
  unfold replacementPush
  split <;> simp only [setFab_otp, pushNext_otp, sendAssign_otp, setNode_otp]

theorem linkKnown_otp (s : State) (l : Link) : (linkKnown s l).sec.otp = s.sec.otp := by
  simp only [linkKnown, ite_otp]
  (repeat' split) <;> simp only [setFab_otp, ringFound_otp, recompute_otp]

theorem helloPavilion_otp (s : State) (port : Nat) (h : Hello) :
    (helloPavilion s port h).sec.otp = s.sec.otp := by
  simp only [helloPavilion, ite_otp, log_otp, setNode_otp]
  (repeat' split) <;> simp only [epochrstSend_otp, nodeJoin_otp, setFab_otp, replacementPush_otp,
    log_otp, linkKnown_otp, sendAssign_otp, setNode_otp]

theorem helloHearth_otp (s : State) (port serial : Nat) : (helloHearth s port serial).sec.otp = s.sec.otp := by
  simp only [helloHearth, ite_otp, ite_self, fire_otp, setFab_otp, set_otp', log_otp]

theorem execHelloReceive_slotsKept (s : State)
    (port via viaPort ownPort serial role verLo verHi rev gen epoch setter : Nat) :
    SlotsKept s.sec.otp (execHelloReceive port via viaPort ownPort serial role verLo verHi rev gen epoch setter s) := by
  simp only [execHelloReceive, slotsKept_ite, ite_self, slotsKept_next, flueSend_otp, helloPavilion_otp,
    gated_slotsKept, helloHearth_otp, count_otp', Otp.kept_refl]

theorem recclkTake_otp (s : State) : (recclkTake s).sec.otp = s.sec.otp := by
  simp only [recclkTake, set_otp']

theorem assignReceive_otp (s : State) (port id up : Nat) (path : List Nat) (s1 s2 sender serial epoch : Nat) :
    (assignReceive s port id up path s1 s2 sender serial epoch).sec.otp = s.sec.otp := by
  simp only [assignReceive, ite_otp, ite_self, foldl_otp, implies_true, epochCheck_otp, recclkTake_otp,
    flueSend_otp, setFab_otp, set_otp', heard_otp, log_otp, count_otp']

theorem execAssignReceive_slotsKept (s : State) (port id up : Nat) (path : List Nat)
    (s1 s2 sender serial epoch : Nat) :
    SlotsKept s.sec.otp (execAssignReceive port id up path s1 s2 sender serial epoch s) := by
  simp only [execAssignReceive, slotsKept_ite, ite_self, slotsKept_next, assignReceive_otp, gated_slotsKept, Otp.kept_refl]

theorem execBindingRelease_slotsKept (s : State) : SlotsKept s.sec.otp (execBindingRelease s) := by
  simp only [execBindingRelease, slotsKept_ite, ite_self, slotsKept_next, setFab_otp, set_otp', passTo_otp, Otp.kept_refl]

theorem flueFault_otp (s : State) (port : Nat) (fcsOk : Bool) : (flueFault s port fcsOk).sec.otp = s.sec.otp := by
  simp only [flueFault, ite_otp, ite_self, count_otp']

theorem flueResponse_otp (s : State) (f : FlueFrame) : (flueResponse s f).sec.otp = s.sec.otp := by
  unfold flueResponse
  split <;> simp only [setFab_otp, count_otp']

theorem sectionEntry_otp (s : State) (f : FlueFrame) (k : Nat) : (sectionEntry f s k).sec.otp = s.sec.otp := by
  simp only [sectionEntry, ghSubmit_otp]

theorem sectionTake_otp (s : State) (f : FlueFrame) : (sectionTake s f).sec.otp = s.sec.otp := by
  simp only [sectionTake, ite_otp, ite_self, foldl_otp, implies_true, epochCheck_otp, heard_otp,
    sectionEntry_otp]

theorem nodeRecordTake_otp (s : State) (f : FlueFrame) : (nodeRecordTake s f).sec.otp = s.sec.otp := by
  unfold nodeRecordTake
  split <;> simp only [setNode_otp]

theorem flueTake_otp (s : State) (port : Nat) (f : FlueFrame) : (flueTake s port f).sec.otp = s.sec.otp := by
  unfold flueTake
  split <;> simp only [ite_otp, ite_self, nodeRecordTake_otp, rtcmFrame_otp, flueResponse_otp,
    relayAnswer_otp, sectionTake_otp, count_otp']

theorem flueDeliver_otp (s : State) (port : Nat) (f : FlueFrame) (fcsOk : Bool) :
    (flueDeliver s port f fcsOk).sec.otp = s.sec.otp := by
  simp only [flueDeliver, ite_otp, ite_self, flueTake_otp, count_otp', flueFault_otp]

theorem flueLate_otp (s : State) (p : Nat) : (flueLate s p).sec.otp = s.sec.otp := by
  simp only [flueLate, ite_otp, ite_self, fire_otp, setFab_otp, log_otp, count_otp']

theorem flueForward_otp (s : State) (port : Nat) (f : FlueFrame) (fcsOk : Bool) (waited : Nat) :
    (flueForward s port f fcsOk waited).sec.otp = s.sec.otp := by
  simp only [flueForward, ite_otp, ite_self, foldl_otp, implies_true, flueLeave_otp, flueLate_otp,
    flueDeliver_otp, setFab_otp, count_otp', flueFault_otp]

theorem noteVersion_otp (s : State) (port : Nat) (f : FlueFrame) (fcsOk : Bool) :
    (noteVersion s port f fcsOk).sec.otp = s.sec.otp := by
  simp only [noteVersion, ite_otp, ite_self, setFab_otp]

theorem execFlueFrameForward_slotsKept (s : State) (port : Nat) (frame : PortFrame) (fcsOk : Bool) (waited : Nat) :
    SlotsKept s.sec.otp (execFlueFrameForward port frame fcsOk waited s) := by
  unfold execFlueFrameForward
  (repeat' split) <;> simp only [ite_self, slotsKept_next, noteVersion_otp, otherForward_otp, gated_slotsKept,
    flueForward_otp, count_otp', Otp.kept_refl]

theorem execRingchkFlood_slotsKept (s : State) (returned : Bool) :
    SlotsKept s.sec.otp (execRingchkFlood returned s) := by
  unfold execRingchkFlood
  split <;> simp only [slotsKept_ite, ite_self, slotsKept_next, flueSend_otp, setFab_otp, gated_slotsKept,
    passTo_otp, ringHeal_otp, Otp.kept_refl]

theorem execRingHeal_slotsKept (s : State) (a pa b pb micros : Nat) :
    SlotsKept s.sec.otp (execRingHeal a pa b pb micros s) := by
  unfold execRingHeal
  (repeat' split) <;> simp only [ite_self, slotsKept_next, gated_slotsKept, linkLost_otp, ringHeal_otp, Otp.kept_refl]

theorem entryDeliver_otp (s : State) (e : Nat × Nat × Time × List Byte) :
    (entryDeliver s e).sec.otp = s.sec.otp := by
  unfold entryDeliver
  (repeat' split) <;> simp only [deliver_otp]

theorem execStreamReceive_slotsKept (s : State) (cls sender serial epoch : Nat) (fromHearth : Bool) (entries : List
    (Nat × Nat × Time × List Byte)) :
    SlotsKept s.sec.otp (execStreamReceive cls sender serial epoch fromHearth entries s) := by
  simp only [execStreamReceive, slotsKept_ite, ite_self, foldl_otp, implies_true, slotsKept_next,
    epochCheck_otp, heard_otp, entryDeliver_otp, gated_slotsKept, Otp.kept_refl]

theorem execSetptFlood_slotsKept (s : State) : SlotsKept s.sec.otp (execSetptFlood s) := by
  simp only [execSetptFlood, slotsKept_ite, ite_self, slotsKept_next, devTo_otp, flueSend_otp, setFab_otp,
    gated_slotsKept, Otp.kept_refl]

theorem execSetptReceive_slotsKept (s : State) (sender serial epoch : Nat) (entries : List
    (Nat × Nat × Time × List Byte)) :
    SlotsKept s.sec.otp (execSetptReceive sender serial epoch entries s) := by
  simp only [execSetptReceive, slotsKept_ite, ite_self, foldl_otp, implies_true, slotsKept_next,
    epochCheck_otp, setFab_otp, set_otp', heard_otp, entryDeliver_otp, gated_slotsKept, Otp.kept_refl]

theorem execNodeHoldExpiry_slotsKept (s : State) : SlotsKept s.sec.otp (execNodeHoldExpiry s) := by
  unfold execNodeHoldExpiry
  split <;> simp only [ite_otp, ite_self, slotsKept_next, fire_otp, setFab_otp, set_otp',
    disarmAll_otp, log_otp, passTo_otp, Otp.kept_refl]

theorem syncChange_otp (s : State) (on : Bool) (offset : Int) : (syncChange s on offset).sec.otp = s.sec.otp := by
  simp only [syncChange, ite_otp, ite_self, fire_otp, log_otp, put_otp']

theorem syncLost_otp (s : State) (offset : Int) : (syncLost s offset).sec.otp = s.sec.otp := by
  simp only [syncLost, ite_otp, ite_self, setTimeState_otp, syncChange_otp]

theorem execGptpSync_slotsKept (s : State) (offset : Int) (quality unc : Nat) :
    SlotsKept s.sec.otp (execGptpSync offset quality unc s) := by
  simp only [execGptpSync, slotsKept_ite, ite_otp, ite_self, slotsKept_next, syncLost_otp,
    setTimeState_otp, setFab_otp, wr_otp', gated_slotsKept, syncChange_otp, correct_otp, Otp.kept_refl]

theorem execSyncLoss_slotsKept (s : State) : SlotsKept s.sec.otp (execSyncLoss s) := by
  unfold execSyncLoss
  split <;> simp only [slotsKept_ite, ite_self, slotsKept_next, syncLost_otp, setFab_otp, passTo_otp, Otp.kept_refl]

theorem acceptReplacement_otp (s : State) (id : Nat) : (acceptReplacement s id).1.sec.otp = s.sec.otp := by
  unfold acceptReplacement
  (repeat' split) <;> simp only [setFab_otp, replacementPush_otp]

theorem execAckRetransmit_slotsKept (s : State) (seq : Nat) : SlotsKept s.sec.otp (execAckRetransmit seq s) := by
  unfold execAckRetransmit
  (repeat' split) <;> simp only [slotsKept_ite, ite_self, slotsKept_next, flueLeave_otp, setFab_otp,
    gated_slotsKept, passTo_otp, count_otp', relayTimeout_otp, Otp.kept_refl]

/-! Machine/Parterre.lean -/

theorem taskClose_otp (s : State) : (taskClose s).sec.otp = s.sec.otp := by
  simp only [taskClose, ite_otp, ite_self, log_otp, chimneySend_otp]

theorem taskOpen_otp (s : State) (n : Nat) : (taskOpen s n).sec.otp = s.sec.otp := by
  simp only [taskOpen, ite_otp, log_otp]
  (repeat' split) <;> simp only [taskClose_otp, setTask_otp]

theorem taskWrite_otp (s : State) (n : Nat) : (taskWrite s n).1.sec.otp = s.sec.otp := by
  simp only [taskWrite, ite_otp, ite_fst, ite_self, taskOpen_otp, taskClose_otp]

theorem recordingWrite_otp (s : State) (v : Nat) : (recordingWrite s v).1.sec.otp = s.sec.otp := by
  simp only [recordingWrite, ite_otp, ite_fst, ite_self, onTask_otp]

theorem taskDelete_otp (s : State) (n : Nat) : (taskDelete s n).1.sec.otp = s.sec.otp := by
  unfold taskDelete
  (repeat' split) <;> simp only [setTask_otp]

theorem taskExport_otp (s : State) (n : Nat) : (taskExport s n).1.sec.otp = s.sec.otp := by
  unfold taskExport
  (repeat' split) <;> rfl

theorem execExportEnd_slotsKept (s : State) (done : Bool) : SlotsKept s.sec.otp (execExportEnd done s) := by
  unfold execExportEnd
  (repeat' split) <;> simp only [ite_self, slotsKept_next, log_otp, whenApp_slotsKept, emit_otp', Otp.kept_refl]

theorem execTileShare_slotsKept (s : State) (i j : Int) : SlotsKept s.sec.otp (execTileShare i j s) := by
  unfold execTileShare
  split <;> simp only [slotsKept_ite, ite_self, slotsKept_next, onTask_otp, chimneySend_otp, whenApp_slotsKept, Otp.kept_refl]

theorem tileMerge_otp (s : State) (l : List Byte) : (tileMerge s l).sec.otp = s.sec.otp := by
  unfold tileMerge
  split <;> simp only [ite_otp, ite_self, onTask_otp, log_otp]

theorem execRemoteTileMerge_slotsKept (s : State) (bytes : List Byte) :
    SlotsKept s.sec.otp (execRemoteTileMerge bytes s) := by
  simp [execRemoteTileMerge, slotsKept_next, tileMerge_otp, whenApp_slotsKept, Otp.kept_refl]

/-! Machine/Chimney.lean -/

theorem State.setChim_otp (s : State) (c : Chimney) : (s.setChim c).sec.otp = s.sec.otp := otp_eq rfl

theorem chimneyFail_otp (s : State) (cause : Nat) : (chimneyFail s cause).sec.otp = s.sec.otp := by
  simp only [chimneyFail, fire_otp, log_otp, setChim_otp]

theorem execChimneyConnect_slotsKept (s : State) (ok : Bool) (cause : Nat) :
    SlotsKept s.sec.otp (execChimneyConnect ok cause s) := by
  simp only [execChimneyConnect, slotsKept_ite, ite_otp, ite_self, foldl_otp, implies_true, slotsKept_next,
    fire_otp, chimneyFail_otp, chimneyEmit_otp, log_otp, setChim_otp, passTo_otp,
    whenApp_slotsKept, Otp.kept_refl]

theorem execChimneyReconnect_slotsKept (s : State) : SlotsKept s.sec.otp (execChimneyReconnect s) := by
  simp only [execChimneyReconnect, slotsKept_ite, ite_self, slotsKept_next, setChim_otp, passTo_otp,
    whenApp_slotsKept, Otp.kept_refl]

theorem execChimneyDisconnect_slotsKept (s : State) (cause : Nat) :
    SlotsKept s.sec.otp (execChimneyDisconnect cause s) := by
  simp only [execChimneyDisconnect, slotsKept_ite, ite_self, slotsKept_next, chimneyFail_otp, Otp.kept_refl]

theorem execChimneySend_slotsKept (s : State) (kind : Nat) (payload : List Byte) :
    SlotsKept s.sec.otp (execChimneySend kind payload s) := by
  simp only [execChimneySend, slotsKept_ite, ite_self, slotsKept_next, chimneySend_otp, Otp.kept_refl]

theorem execChimneyAck_slotsKept (s : State) (msgId : Nat) : SlotsKept s.sec.otp (execChimneyAck msgId s) := by
  simp only [execChimneyAck, slotsKept_ite, ite_self, slotsKept_next, setChim_otp, chimneyCount_otp, Otp.kept_refl]

theorem machineState_otp (s : State) : (machineState s).2.sec.otp = s.sec.otp := by
  unfold machineState
  split <;> simp only [draws_otp]

theorem execChimneyPeriodic_slotsKept (s : State) (kind : Nat) :
    SlotsKept s.sec.otp (execChimneyPeriodic kind s) := by
  simp only [execChimneyPeriodic, slotsKept_ite, ite_self, slotsKept_next, machineState_otp, setChim_otp,
    chimneySend_otp, passTo_otp, whenApp_slotsKept, Otp.kept_refl]

/-! Machine/IrqCtl.lean -/

theorem doorbell_otp (s : State) (who n : Nat) : (doorbell s who n).sec.otp = s.sec.otp := by
  simp only [doorbell, ite_otp, ite_self, ring_otp, set_otp', log_otp, count_otp']

theorem execDoorbell_slotsKept (s : State) (who n : Nat) : SlotsKept s.sec.otp (execDoorbell who n s) := by
  simp only [execDoorbell, slotsKept_next, doorbell_otp, Otp.kept_refl]

theorem claim_otp (s : State) (who t : Nat) : (claim s who t).2.sec.otp = s.sec.otp := by
  unfold claim
  (repeat' split) <;> simp only [set_otp', count_otp']

theorem execClaim_slotsKept (s : State) (who t : Nat) : SlotsKept s.sec.otp (execClaim who t s) := by
  simp only [execClaim, slotsKept_next, claim_otp, emit_otp', Otp.kept_refl]

theorem complete_otp (s : State) (who t n : Nat) : (complete s who t n).sec.otp = s.sec.otp := by
  simp only [complete, ite_otp, ite_self, set_otp', log_otp, count_otp']

theorem execComplete_slotsKept (s : State) (who t n : Nat) : SlotsKept s.sec.otp (execComplete who t n s) := by
  simp only [execComplete, slotsKept_next, complete_otp, Otp.kept_refl]

theorem targetLoss_otp (s : State) (t : Nat) : (targetLoss s t).sec.otp = s.sec.otp := by
  simp only [targetLoss, foldl_otp, implies_true, set_otp', count_otp']

theorem withTargets_otp {f : State → State} (h : ∀ u, (f u).sec.otp = u.sec.otp) (s : State) :
    (withTargets f s).sec.otp = s.sec.otp := by
  simp only [withTargets, ite_otp, ite_self, foldl_otp, implies_true, targetLoss_otp, h]

theorem nmi_otp (s : State) (b : Nat) : (nmi s b).sec.otp = s.sec.otp := by
  simp only [nmi, ite_otp, ite_self, set_otp', log_otp, emit_otp']

/-! Machine/Clocks.lean -/

theorem State.setClk_otp (s : State) (x : Clocks) : (s.setClk x).sec.otp = s.sec.otp := otp_eq rfl

theorem pllFallback_otp (s : State) (p : Nat) : (pllFallback s p).sec.otp = s.sec.otp := by
  simp only [pllFallback, ite_otp, ite_self, setClk_otp, set_otp']

theorem sysReference_otp (s : State) (r : Nat) : (sysReference s r).sec.otp = s.sec.otp := by
  simp only [sysReference, ite_otp, ite_self, setClk_otp, pllFallback_otp]

theorem lockShow_otp (s : State) : (lockShow s).sec.otp = s.sec.otp := by
  simp only [lockShow, set_otp', put_otp']

theorem gnssStop_otp (s : State) : (gnssStop s).sec.otp = s.sec.otp := by
  simp only [gnssStop, setClk_otp]

theorem fabricLinksDrop_otp (s : State) : (fabricLinksDrop s).sec.otp = s.sec.otp := by
  simp only [fabricLinksDrop, foldl_otp, implies_true, portLink_otp]

theorem clkref_otp (s : State) : (clkref s).sec.otp = s.sec.otp := by
  simp only [clkref, nmi_otp]

theorem tcxoFailure_otp (s : State) : (tcxoFailure s).sec.otp = s.sec.otp := by
  simp only [tcxoFailure, ite_otp, ite_self, foldl_otp, implies_true, setClk_otp, fabricLinksDrop_otp,
    pllFallback_otp, sysReference_otp, set_otp', log_otp, lockShow_otp, clkref_otp,
    count_otp', gnssStop_otp]

theorem rcFailure_otp (s : State) (last : Nat) : (rcFailure s last).sec.otp = s.sec.otp := by
  simp only [rcFailure, ite_otp, ite_self, setClk_otp, sysReference_otp, log_otp, lockShow_otp]

theorem crystalFailure_otp (s : State) (last : Nat) : (crystalFailure s last).sec.otp = s.sec.otp := by
  simp only [crystalFailure, setClk_otp, log_otp]

theorem recoveredFailure_otp (s : State) (count : Nat) : (recoveredFailure s count).sec.otp = s.sec.otp := by
  simp only [recoveredFailure, ite_otp, ite_self, pllFallback_otp, sysReference_otp, set_otp',
    log_otp, portLink_otp, count_otp']

theorem monitorFault_otp (s : State) (last : Nat) : (monitorFault s last).sec.otp = s.sec.otp := by
  simp only [monitorFault, set_otp', log_otp]

theorem calibrate_otp (s : State) (a : Nat) (good : Bool) : (calibrate s a good).sec.otp = s.sec.otp := by
  simp only [calibrate, ite_otp, ite_self, setClk_otp, wr_otp', set_otp']

theorem monitorWindow_otp (s : State) (a b : Nat) (c d : Option Nat) (stuck : Nat) :
    (monitorWindow s a b c d stuck).sec.otp = s.sec.otp := by
  unfold monitorWindow
  split <;> simp only [ite_otp, ite_self, setClk_otp, rcFailure_otp, tcxoFailure_otp,
    recoveredFailure_otp, monitorFault_otp, set_otp', calibrate_otp, lockShow_otp, put_otp',
    crystalFailure_otp]

theorem execMonitorWindow_slotsKept (s : State) (a b : Nat) (c d : Option Nat) (stuck : Nat) :
    SlotsKept s.sec.otp (execMonitorWindow a b c d stuck s) := by
  simp only [execMonitorWindow, slotsKept_next, monitorWindow_otp, Otp.kept_refl]

theorem execPllLockLoss_slotsKept (s : State) (p : Nat) : SlotsKept s.sec.otp (execPllLockLoss p s) := by
  simp only [execPllLockLoss, ite_otp, ite_self, slotsKept_next, fabricLinksDrop_otp, pllFallback_otp,
    sysReference_otp, set_otp', log_otp, lockShow_otp, clkref_otp, count_otp', gnssStop_otp, Otp.kept_refl]

theorem clocksReset_otp (s : State) (home uncal : Bool) : (clocksReset s home uncal).sec.otp = s.sec.otp := by
  simp only [clocksReset, ite_otp, ite_self, setClk_otp, sysReference_otp, set_otp', lockShow_otp]

theorem opStart_otp (s : State) (k : Nat) : (opStart s k).sec.otp = s.sec.otp := by
  simp only [opStart, ite_otp, ite_self, setClk_otp, set_otp']

theorem opRequest_otp (s : State) (k op : Nat) : (opRequest s k op).sec.otp = s.sec.otp := by
  simp only [opRequest, ite_otp, ite_self, opStart_otp, set_otp']

theorem execOpRequest_slotsKept (s : State) (k op : Nat) : SlotsKept s.sec.otp (execOpRequest k op s) := by
  simp only [execOpRequest, ite_otp, ite_self, slotsKept_next, opRequest_otp, Otp.kept_refl]

theorem execOpSequenceEnd_slotsKept (s : State) (k : Nat) : SlotsKept s.sec.otp (execOpSequenceEnd k s) := by
  simp only [execOpSequenceEnd, ite_otp, ite_self, slotsKept_next, opStart_otp, set_otp', passTo_otp,
    count_otp', Otp.kept_refl]

theorem opCeiling_otp (s : State) (k c : Nat) : (opCeiling s k c).sec.otp = s.sec.otp := by
  simp only [opCeiling, ite_otp, ite_self, opStart_otp, set_otp', log_otp]

/-! Machine/Dma.lean -/

theorem State.setDma_otp (s : State) (q : TagQueue) : (s.setDma q).sec.otp = s.sec.otp := by
  simp only [setDma, set_otp']

theorem dmaRun_otp (s : State) (src dst n : Nat) : (dmaRun s src dst n).2.sec.otp = s.sec.otp := by
  simp only [dmaRun, busRead_otp, busStore_otp]

theorem dmaRowsFrom_otp (s : State) (d : List Byte) (k l : Nat) :
    (dmaRowsFrom d k l s).2.sec.otp = s.sec.otp := by
  induction k generalizing l s with
  | zero => rfl
  | succ k ih => simp only [dmaRowsFrom, ite_otp, ite_snd, ite_self, dmaRun_otp, ih]

theorem dmaMove_otp (s : State) (d : List Byte) : (dmaMove s d).2.sec.otp = s.sec.otp := by
  simp only [dmaMove, ite_otp, ite_snd, ite_self, dmaRun_otp, busStore_otp, dmaRowsFrom_otp]

theorem dmaEnd_otp (s : State) (o : TagOp) (status bytes : Nat) :
    (dmaEnd s o status bytes).sec.otp = s.sec.otp := by
  simp only [dmaEnd, ite_otp, ite_self, fire_otp, putCompletion_otp, setDma_otp, log_otp,
    count_otp']

theorem dmaSubmit_otp (s : State) (v : Word) : (dmaSubmit s v).sec.otp = s.sec.otp := by
  simp only [dmaSubmit, ite_otp, ite_fst, ite_snd, ite_self, countSat_otp, setDma_otp, set_otp',
    readDescriptor_otp]

theorem execDmaSubmit_slotsKept (s : State) (value : Word) : SlotsKept s.sec.otp (execDmaSubmit value s) := by
  simp [execDmaSubmit, dmaSubmit_otp, gatedWrite_slotsKept, Otp.kept_refl]

theorem dmaStart_otp (s : State) : (dmaStart s).sec.otp = s.sec.otp := by
  unfold dmaStart
  (repeat' split) <;> simp only [setDma_otp]

theorem execDmaStart_slotsKept (s : State) : SlotsKept s.sec.otp (execDmaStart s) := by
  simp [execDmaStart, slotsKept_next, dmaStart_otp, gated_slotsKept, Otp.kept_refl]

theorem dmaComplete_otp (s : State) (tag : Nat) : (dmaComplete s tag).sec.otp = s.sec.otp := by
  unfold dmaComplete
  split <;> simp only [ite_otp, ite_self, dmaMove_otp, dmaEnd_otp]

theorem execDmaComplete_slotsKept (s : State) (tag : Nat) : SlotsKept s.sec.otp (execDmaComplete tag s) := by
  simp [execDmaComplete, slotsKept_next, gated_slotsKept, dmaComplete_otp, Otp.kept_refl]

theorem dmaAck_otp (s : State) (head : Nat) : (dmaAck s head).sec.otp = s.sec.otp := by
  simp only [dmaAck, setDma_otp, set_otp']

theorem execDmaCqAck_slotsKept (s : State) (head : Nat) : SlotsKept s.sec.otp (execDmaCqAck head s) := by
  simp [execDmaCqAck, gatedWrite_slotsKept, dmaAck_otp, Otp.kept_refl]

theorem dmaAbort_otp (s : State) (tag : Nat) : (dmaAbort s tag).sec.otp = s.sec.otp := by
  unfold dmaAbort
  split <;> simp only [ite_otp, ite_self, dmaEnd_otp]

theorem execDmaAbort_slotsKept (s : State) (tag : Nat) : SlotsKept s.sec.otp (execDmaAbort tag s) := by
  simp [execDmaAbort, dmaAbort_otp, gatedWrite_slotsKept, Otp.kept_refl]

/-! Machine/Events.lean -/

theorem State.setEv_otp (s : State) (x : EventRec) : (s.setEv x).sec.otp = s.sec.otp := otp_eq rfl

theorem eventPost_otp (s : State) (code sev : Nat) : (eventPost s code sev).sec.otp = s.sec.otp := by
  simp only [eventPost, ite_otp, ite_self, intake_otp, set_otp']

theorem execEventPost_slotsKept (s : State) (code sev : Nat) : SlotsKept s.sec.otp (execEventPost code sev s) := by
  simp only [execEventPost, slotsKept_next, eventPost_otp, Otp.kept_refl]

theorem ringPut_otp (s : State) (n : Nat) (r : EvRecord) : (ringPut s n r).sec.otp = s.sec.otp := by
  simp only [ringPut, setEv_otp]

theorem eventRepeat_otp (s : State) : (eventRepeat s).sec.otp = s.sec.otp := by
  simp only [eventRepeat, count_otp', ringPut_otp]

theorem recordLoss_otp (s : State) : (recordLoss s).sec.otp = s.sec.otp := by
  simp only [recordLoss, ite_otp, ite_self, fire_otp, set_otp', setEv_otp, log_otp]

theorem newRecord_otp (s : State) (e : Ev) : (newRecord s e).sec.otp = s.sec.otp := by
  simp only [newRecord, ite_otp, ite_self, fire_otp, set_otp', setEv_otp, recordLoss_otp,
    count_otp', ringPut_otp]

theorem droppedReport_otp (s : State) : (droppedReport s).sec.otp = s.sec.otp := by
  simp only [droppedReport, ite_otp, ite_self, log_otp]

theorem eventWrite_otp (s : State) : (eventWrite s).sec.otp = s.sec.otp := by
  unfold eventWrite
  split <;> simp only [ite_otp, ite_self, droppedReport_otp, eventRepeat_otp, newRecord_otp,
    setEv_otp, log_otp, passTo_otp]

theorem execEventRecordWrite_slotsKept (s : State) : SlotsKept s.sec.otp (execEventRecordWrite s) := by
  simp only [execEventRecordWrite, slotsKept_next, eventWrite_otp, Otp.kept_refl]

theorem recordsCheck_otp (s : State) : (recordsCheck s).sec.otp = s.sec.otp := by
  simp only [recordsCheck, ite_otp, ite_self, foldl_otp, implies_true, log_otp, ringPut_otp]

theorem eventDrain_otp (s : State) (k : Nat) : (eventDrain k s).sec.otp = s.sec.otp := by
  induction k generalizing s with
  | zero => rfl
  | succ k ih => simp only [eventDrain, ite_otp, ite_self, eventWrite_otp, ih]

theorem spillOut_otp (s : State) (n : Nat) : (spillOut s n).sec.otp = s.sec.otp := by
  simp only [spillOut, set_otp', setEv_otp, flashPut_otp, count_otp']

theorem execEventSpill_slotsKept (s : State) : SlotsKept s.sec.otp (execEventSpill s) := by
  simp only [execEventSpill, ite_otp, ite_self, slotsKept_next, spillOut_otp, set_otp', Otp.kept_refl]

theorem spillRest_otp (s : State) : (spillRest s).sec.otp = s.sec.otp := by
  simp only [spillRest, ite_otp, ite_self, spillOut_otp]

/-! Machine/Panel.lean -/

theorem State.setPanel_otp (s : State) (p : Panel) : (s.setPanel p).sec.otp = s.sec.otp := otp_eq rfl

theorem panelShow_otp (s : State) : (panelShow s).sec.otp = s.sec.otp := by
  simp only [panelShow, set_otp', put_otp']

theorem panelRange_otp (s : State) : (panelRange s).sec.otp = s.sec.otp := by
  simp only [panelRange, ite_otp, ite_self, setPanel_otp, set_otp', log_otp]

theorem journalSet_otp (s : State) (k : Nat) (e : PanelEntry) : (journalSet s k e).sec.otp = s.sec.otp := by
  simp only [journalSet, setPanel_otp]

theorem frameRow_otp (s : State) (r : PanelReq) (j : Nat) : (frameRow r s j).sec.otp = s.sec.otp := by
  simp only [frameRow, setPanel_otp, busRead_otp]

theorem panelDispatch_otp (s : State) (r : PanelReq) : (panelDispatch s r).sec.otp = s.sec.otp := by
  simp only [panelDispatch, ite_otp, ite_self, foldl_otp, implies_true, setPanel_otp, journalSet_otp,
    frameRow_otp]

theorem panelScan_otp (s : State) (l m : List PanelReq) : (panelScan s l m).sec.otp = s.sec.otp := by
  induction m generalizing s l with
  | nil => rfl
  | cons r m ih => simp only [panelScan, ite_otp, ite_self, panelDispatch_otp, ih]

theorem panelCheck_otp (s : State) : (panelCheck s).sec.otp = s.sec.otp := by
  simp only [panelCheck, ite_otp, ite_self, panelShow_otp, panelScan_otp]

theorem rowBegin_otp (s : State) : (rowBegin s).sec.otp = s.sec.otp := by
  simp only [rowBegin, ite_otp, ite_self, setPanel_otp]
  (repeat' split) <;> simp only [setPanel_otp, set_otp', panelCheck_otp, count_otp',
    panelRange_otp, emit_otp']

theorem firstRow_otp (s : State) : (firstRow s).sec.otp = s.sec.otp := by
  unfold firstRow
  split <;> simp only [ite_otp, ite_self, rowBegin_otp, passTo_otp]

theorem panelWake_otp (s : State) : (panelWake s).sec.otp = s.sec.otp := by
  unfold panelWake
  (repeat' split) <;> simp only [rowBegin_otp, panelCheck_otp]

theorem rowDone_otp (s : State) (y : Nat) (f : PanelFlight) : (rowDone y s f).sec.otp = s.sec.otp := by
  simp only [rowDone, ite_otp, ite_self, setPanel_otp, journalSet_otp]

theorem panelComplete_otp (s : State) (tag status : Nat) : (panelComplete s tag status).sec.otp = s.sec.otp := by
  simp only [panelComplete, setPanel_otp, fire_otp]

theorem replayEnd_otp (s : State) : (replayEnd s).sec.otp = s.sec.otp := by
  simp only [replayEnd, ite_otp, ite_self, fire_otp, set_otp', log_otp]

theorem flightEnd_otp (s : State) (f : PanelFlight) : (flightEnd s f).sec.otp = s.sec.otp := by
  unfold flightEnd
  split <;> simp only [setPanel_otp, journalSet_otp, count_otp', panelComplete_otp]

theorem panelRowEnd_otp (s : State) : (panelRowEnd s).sec.otp = s.sec.otp := by
  simp only [panelRowEnd]
  split <;> simp only [ite_otp, ite_self, foldl_otp, implies_true, setPanel_otp, flightEnd_otp,
    replayEnd_otp, rowBegin_otp, rowDone_otp, panelShow_otp, passTo_otp, panelCheck_otp,
    firstRow_otp]

theorem execPanelRowEnd_slotsKept (s : State) : SlotsKept s.sec.otp (execPanelRowEnd s) := by
  simp only [execPanelRowEnd, slotsKept_next, panelRowEnd_otp, Otp.kept_refl]

theorem execRailRise_slotsKept (s : State) : SlotsKept s.sec.otp (execRailRise s) := by
  unfold execRailRise
  split <;> simp only [ite_otp, ite_self, slotsKept_next, setPanel_otp, rowBegin_otp, set_otp',
    passTo_otp, Otp.kept_refl]

theorem execRailFall_slotsKept (s : State) : SlotsKept s.sec.otp (execRailFall s) := by
  simp only [execRailFall, ite_otp, ite_self, slotsKept_next, set_otp', passTo_otp, Otp.kept_refl]

theorem panelCoalesce_otp (s : State) (r q : PanelReq) : (panelCoalesce s r q).sec.otp = s.sec.otp := by
  simp only [panelCoalesce, setPanel_otp, count_otp', panelComplete_otp]

theorem panelSubmit_otp (s : State) (tag : Nat) : (panelSubmit s tag).sec.otp = s.sec.otp := by
  simp only [panelSubmit, ite_otp, ite_self, panelShow_otp, panelCheck_otp]
  split <;> simp only [setPanel_otp, panelCoalesce_otp, set_otp']

theorem execPanelSubmit_slotsKept (s : State) (tag : Nat) : SlotsKept s.sec.otp (execPanelSubmit tag s) := by
  simp [execPanelSubmit, gatedWrite_slotsKept, panelSubmit_otp, Otp.kept_refl]

theorem execCompletionPop_slotsKept (s : State) : SlotsKept s.sec.otp (execCompletionPop s) := by
  simp only [execCompletionPop, slotsKept_next, setPanel_otp, emit_otp', Otp.kept_refl]

theorem replayStart_otp (s : State) (l : List PanelFlight) : (replayStart s l).sec.otp = s.sec.otp := by
  simp only [replayStart, ite_otp, ite_self, setPanel_otp, set_otp', panelShow_otp, panelCheck_otp,
    count_otp']

theorem journalReplay_otp (s : State) : (journalReplay s).sec.otp = s.sec.otp := by
  simp only [journalReplay, ite_otp, ite_self, foldl_otp, implies_true, setPanel_otp, journalSet_otp,
    replayStart_otp, log_otp]

theorem geometryStart_otp (s : State) : (geometryStart s).sec.otp = s.sec.otp := by
  simp only [geometryStart, setPanel_otp, log_otp, panelShow_otp]

theorem panelEnable_otp (s : State) : (panelEnable s).sec.otp = s.sec.otp := by
  simp only [panelEnable, ite_otp, ite_self, geometryStart_otp, set_otp', journalReplay_otp]

theorem panelHalt_otp (s : State) : (panelHalt s).sec.otp = s.sec.otp := by
  simp only [panelHalt, setPanel_otp, set_otp', panelShow_otp]

theorem panelDisable_otp (s : State) : (panelDisable s).sec.otp = s.sec.otp := by
  simp only [panelDisable, ite_otp, ite_self, set_otp', panelHalt_otp]

theorem execPanelReplay_slotsKept (s : State) : SlotsKept s.sec.otp (execPanelReplay s) := by
  simp [execPanelReplay, gatedField_slotsKept, panelEnable_otp, Otp.kept_refl]

theorem execRailFault_slotsKept (s : State) (negative : Bool) (decivolt : Nat) :
    SlotsKept s.sec.otp (execRailFault negative decivolt s) := by
  simp only [execRailFault, ite_otp, ite_self, slotsKept_next, setPanel_otp, fire_otp, set_otp',
    log_otp, Otp.kept_refl]

theorem panelRestart_otp (s : State) : (panelRestart s).sec.otp = s.sec.otp := by
  simp only [panelRestart, ite_otp, ite_self, set_otp', journalReplay_otp]

theorem execPanelRestart_slotsKept (s : State) : SlotsKept s.sec.otp (execPanelRestart s) := by
  simp [execPanelRestart, gatedField_slotsKept, panelRestart_otp, Otp.kept_refl]

theorem panelStop_otp (s : State) : (panelStop s).sec.otp = s.sec.otp := by
  simp only [panelStop, fire_otp, set_otp', log_otp]

theorem panelResume_otp (s : State) : (panelResume s).sec.otp = s.sec.otp := by
  simp only [panelResume, ite_otp, ite_self, fire_otp, panelWake_otp, set_otp']

theorem execThermistorRead_slotsKept (s : State) (tenths : Int) :
    SlotsKept s.sec.otp (execThermistorRead tenths s) := by
  unfold execThermistorRead
  split <;> simp only [ite_otp, ite_self, slotsKept_next, setPanel_otp, fire_otp, set_otp',
    log_otp, gated_slotsKept, passTo_otp, Otp.kept_refl]

theorem execThermistorFallback_slotsKept (s : State) : SlotsKept s.sec.otp (execThermistorFallback s) := by
  simp only [execThermistorFallback, ite_otp, ite_self, slotsKept_next, set_otp', gated_slotsKept,
    passTo_otp, Otp.kept_refl]

theorem panelGeometryWrite_otp (s : State) (sub v : Nat) :
    (panelGeometryWrite s sub v).1.sec.otp = s.sec.otp := by
  unfold panelGeometryWrite
  (repeat' split) <;> simp only [setObjN_otp', set_otp']

theorem pilotRow_otp (s : State) (text : List Nat × List Nat) (y : Nat) :
    (pilotRow text s y).sec.otp = s.sec.otp := by
  simp only [pilotRow, setPanel_otp]

theorem pilotWrite_otp (s : State) (cause : Nat) : (pilotWrite s cause).sec.otp = s.sec.otp := by
  simp only [pilotWrite, ite_otp, log_otp]
  (repeat' split) <;> simp only [foldl_otp, implies_true, journalSet_otp, pilotRow_otp, emit_otp']

/-! Machine/Sensors.lean -/

theorem State.setAi_otp (s : State) (n : Nat) (x : AnalogIn) : (s.setAi n x).sec.otp = s.sec.otp := otp_eq rfl

theorem State.setPi_otp (s : State) (n : Nat) (x : PulseIn) : (s.setPi n x).sec.otp = s.sec.otp := otp_eq rfl

theorem State.setLi_otp (s : State) (n : Nat) (x : LossIn) : (s.setLi n x).sec.otp = s.sec.otp := otp_eq rfl

theorem aiFclr_otp (s : State) (n : Nat) : (aiFclr s n).sec.otp = s.sec.otp := by
  simp only [aiFclr, set_otp']

theorem supplyShow_otp (s : State) : (supplyShow s).sec.otp = s.sec.otp := by
  simp only [supplyShow, foldl_otp, implies_true, put_otp']

theorem aiConfig_otp (s : State) (n : Nat) (v : Word) : (aiConfig s n v).1.sec.otp = s.sec.otp := by
  simp only [aiConfig, ite_otp, ite_fst, ite_self, supplyShow_otp, wr_otp', set_otp', log_otp,
    aiFclr_otp]

theorem execAiSample_slotsKept (s : State) (n : Nat) (x : F32) : SlotsKept s.sec.otp (execAiSample n x s) := by
  unfold execAiSample
  split <;> simp only [slotsKept_ite, ite_otp, ite_self, slotsKept_next, devTo_otp, setAi_otp,
    produce_otp, wr_otp', set_otp', gated_slotsKept, Otp.kept_refl]

theorem execAiConfigWrite_slotsKept (s : State) (n : Nat) (value : Word) :
    SlotsKept s.sec.otp (execAiConfigWrite n value s) := by
  simp only [execAiConfigWrite, slotsKept_ite, ite_self, slotsKept_next, aiConfig_otp, gatedWrite_slotsKept, Otp.kept_refl]

theorem execAiLatchedFault_slotsKept (s : State) (n : Nat) : SlotsKept s.sec.otp (execAiLatchedFault n s) := by
  simp only [execAiLatchedFault, slotsKept_ite, ite_self, slotsKept_next, fire_otp, set_otp', log_otp,
    gated_slotsKept, Otp.kept_refl]

theorem execAiFclr_slotsKept (s : State) (n : Nat) : SlotsKept s.sec.otp (execAiFclr n s) := by
  simp only [execAiFclr, slotsKept_ite, ite_self, slotsKept_next, gatedField_slotsKept, aiFclr_otp, Otp.kept_refl]

theorem supplyClear_otp (s : State) (k : Nat) : (supplyClear s k).sec.otp = s.sec.otp := by
  simp only [supplyClear, supplyShow_otp, set_otp']

theorem execSupplyFault_slotsKept (s : State) (k millivolt milliamp : Nat) :
    SlotsKept s.sec.otp (execSupplyFault k millivolt milliamp s) := by
  simp only [execSupplyFault, slotsKept_ite, ite_self, slotsKept_next, fire_otp, supplyShow_otp, set_otp',
    log_otp, Otp.kept_refl]

theorem execSupplyClear_slotsKept (s : State) (k : Nat) : SlotsKept s.sec.otp (execSupplyClear k s) := by
  simp only [execSupplyClear, slotsKept_ite, ite_self, slotsKept_next, supplyClear_otp, gatedField_slotsKept, Otp.kept_refl]

theorem pulseOverflow_otp (s : State) (n : Nat) (t : Time) : (pulseOverflow s n t).sec.otp = s.sec.otp := by
  simp only [pulseOverflow, ite_otp, ite_self, fire_otp, set_otp', log_otp]

theorem pulseCounted_otp (s : State) (n : Nat) (t : Time) (step : Int) :
    (pulseCounted s n t step).sec.otp = s.sec.otp := by
  simp only [pulseCounted]
  split <;> simp only [ite_otp, ite_self, setPi_otp, pulseOverflow_otp]

theorem execPulseEdge_slotsKept (s : State) (n : Nat) (level both : Bool) (t : Time) :
    SlotsKept s.sec.otp (execPulseEdge n level both t s) := by
  simp only [execPulseEdge, slotsKept_ite, ite_self, slotsKept_next, setPi_otp, fire_otp, devTo_otp,
    pulseCounted_otp, wr64_otp', wr_otp', set_otp', log_otp, gated_slotsKept, count_otp', Otp.kept_refl]

theorem execPulsePublication_slotsKept (s : State) (n : Nat) : SlotsKept s.sec.otp (execPulsePublication n s) := by
  simp only [execPulsePublication, slotsKept_ite, slotsKept_next, setPi_otp, devTo_otp, produce_otp,
    wr_otp', set_otp', gated_slotsKept, Otp.kept_refl]
  (repeat' split) <;> simp only [slotsKept_next, setPi_otp, devTo_otp, produce_otp, wr_otp',
    put_otp', Otp.kept_refl]

theorem piClear_otp (s : State) (n : Nat) : (piClear s n).sec.otp = s.sec.otp := by
  simp only [piClear, ite_otp, ite_self, wr_otp']

theorem execPiCountClear_slotsKept (s : State) (n : Nat) : SlotsKept s.sec.otp (execPiCountClear n s) := by
  simp only [execPiCountClear, slotsKept_ite, ite_self, slotsKept_next, gatedField_slotsKept, piClear_otp, Otp.kept_refl]

theorem execBridgeConversion_slotsKept (s : State) (b : Nat) (vdiff vexc : F32) (excLimited outOfRange : Bool)
    (t : Time) :
    SlotsKept s.sec.otp (execBridgeConversion b vdiff vexc excLimited outOfRange t s) := by
  simp only [execBridgeConversion, slotsKept_ite, ite_otp, ite_self, slotsKept_next, devTo_otp,
    produce_otp, wr_otp', set_otp', gated_slotsKept, put_otp', Otp.kept_refl]

theorem execBridgeSenseOpen_slotsKept (s : State) (b : Nat) : SlotsKept s.sec.otp (execBridgeSenseOpen b s) := by
  simp only [execBridgeSenseOpen, slotsKept_ite, ite_self, slotsKept_next, fire_otp, set_otp', log_otp,
    gated_slotsKept, Otp.kept_refl]

theorem execBridgeSenseRestore_slotsKept (s : State) (b : Nat) :
    SlotsKept s.sec.otp (execBridgeSenseRestore b s) := by
  simp only [execBridgeSenseRestore, slotsKept_ite, ite_self, slotsKept_next, set_otp', gated_slotsKept, Otp.kept_refl]

theorem lossEdgeWrite_otp (s : State) (n a : Nat) (v : Word) : (lossEdgeWrite s n a v).1.sec.otp = s.sec.otp := by
  simp only [lossEdgeWrite, ite_otp, ite_fst, ite_self, set_otp', plainWrite_otp]

theorem execLossImpact_slotsKept (s : State) (n peak : Nat) (t : Time) :
    SlotsKept s.sec.otp (execLossImpact n peak t s) := by
  simp only [execLossImpact, slotsKept_ite, ite_otp, ite_self, slotsKept_next, devTo_otp, setLi_otp,
    set_otp', gated_slotsKept, Otp.kept_refl]

theorem lossHistogram_otp (s : State) (n : Nat) (bins : List Nat) :
    (lossHistogram s n bins).sec.otp = s.sec.otp := by
  simp only [lossHistogram, foldl_otp, implies_true, set_otp']

theorem execLossIntervalEnd_slotsKept (s : State) (n : Nat) : SlotsKept s.sec.otp (execLossIntervalEnd n s) := by
  simp only [execLossIntervalEnd, slotsKept_ite, ite_otp, ite_self, slotsKept_next, fire_otp, devTo_otp,
    setLi_otp, wr_otp', set_otp', lossHistogram_otp, log_otp, gated_slotsKept, deliver_otp, Otp.kept_refl]

theorem execImuSample_slotsKept (s : State) (ax ay az gx gy gz temp : F32) (delivered : Bool) :
    SlotsKept s.sec.otp (execImuSample ax ay az gx gy gz temp delivered s) := by
  simp only [execImuSample, slotsKept_ite, ite_self, foldl_otp, implies_true, slotsKept_next, devTo_otp,
    produce_otp, set_otp', gated_slotsKept, Otp.kept_refl]

theorem execImuFault_slotsKept (s : State) (code : Nat) : SlotsKept s.sec.otp (execImuFault code s) := by
  simp [execImuFault, slotsKept_next, gated_slotsKept, Otp.kept_refl]

/-! Machine/Thermal.lean -/

theorem State.setTh_otp (s : State) (x : Thermal) : (s.setTh x).sec.otp = s.sec.otp := otp_eq rfl

theorem State.setThSensor_otp (s : State) (k : Nat) (x : ThSensor) : (s.setThSensor k x).sec.otp = s.sec.otp := by
  simp only [setThSensor, setTh_otp]

theorem State.setThZone_otp (s : State) (z : Nat) (x : ThZone) : (s.setThZone z x).sec.otp = s.sec.otp := by
  simp only [setThZone, setTh_otp]

theorem State.thCount_otp (s : State) (k : Nat) : (s.thCount k).sec.otp = s.sec.otp := by
  simp only [thCount, setTh_otp]

theorem sensorReading_otp (s : State) (k : Nat) (t : Int) (raw : Nat) (pair : Bool) :
    (sensorReading s k t raw pair).sec.otp = s.sec.otp := by
  simp only [sensorReading, ite_otp, ite_self, fire_otp, set_otp', log_otp, thCount_otp,
    setThSensor_otp]

theorem setCeilings_otp (s : State) : (setCeilings s).sec.otp = s.sec.otp := by
  simp only [setCeilings, opCeiling_otp]

theorem damperTo_otp (s : State) (step : Nat) : (damperTo s step).sec.otp = s.sec.otp := by
  simp only [damperTo, ite_otp, ite_self, fire_otp, set_otp', setCeilings_otp, log_otp,
    thCount_otp, camDamper_otp, setTh_otp]

theorem damperCheck_otp (s : State) : (damperCheck s).sec.otp = s.sec.otp := by
  simp only [damperCheck, ite_otp, ite_self, damperTo_otp]

theorem stageZoneOff_otp (s : State) (z : Nat) : (stageZoneOff s z).sec.otp = s.sec.otp := by
  simp only [stageZoneOff, ite_otp, ite_self, foldl_otp, implies_true, groupDisarm_otp, sdDisarm_otp]

theorem zoneShutdown_otp (s : State) (z : Nat) (t : Int) : (zoneShutdown s z t).sec.otp = s.sec.otp := by
  simp only [zoneShutdown, ite_otp, ite_self, fire_otp, stageZoneOff_otp, set_otp', log_otp,
    setTh_otp]

theorem rateOfRise_otp (s : State) (z : Nat) (t : Int) : (rateOfRise s z t).sec.otp = s.sec.otp := by
  simp only [rateOfRise]
  split <;> simp only [ite_otp, ite_self, fire_otp, set_otp', log_otp, setThZone_otp]

theorem zoneReport_otp (s : State) (z : Nat) (t : Int) (w0 t0 : Bool) :
    (zoneReport s z t w0 t0).sec.otp = s.sec.otp := by
  simp only [zoneReport, ite_otp, ite_self, fire_otp, set_otp', log_otp, thCount_otp]

theorem thermalReading_otp (s : State) (z : Nat) (a b : Int) (rawA rawB : Nat) :
    (thermalReading s z a b rawA rawB).sec.otp = s.sec.otp := by
  simp only [thermalReading, ite_otp, ite_self, set_otp', put_otp', zoneShutdown_otp,
    rateOfRise_otp, setThZone_otp, zoneReport_otp, damperCheck_otp]
  (repeat' split) <;> simp only [sensorReading_otp, passTo_otp]

theorem execThermalReading_slotsKept (s : State) (z : Nat) (a b : Int) (rawA rawB : Nat) :
    SlotsKept s.sec.otp (execThermalReading z a b rawA rawB s) := by
  simp only [execThermalReading, ite_otp, ite_self, slotsKept_next, thermalReading_otp, Otp.kept_refl]

theorem execDamperStep2_slotsKept (s : State) : SlotsKept s.sec.otp (execDamperStep2 s) := by
  simp only [execDamperStep2, ite_otp, ite_self, slotsKept_next, damperTo_otp, passTo_otp, Otp.kept_refl]

/-! Machine/Trellis.lean -/

theorem State.setEntry_otp (s : State) (e : Nat) (x : TrellisEntry) : (s.setEntry e x).sec.otp = s.sec.otp :=
  otp_eq rfl

theorem openEntry_otp (s : State) (e : Nat) : (openEntry s e).1.sec.otp = s.sec.otp := by
  simp only [openEntry, ite_otp, ite_fst, ite_self, setEntry_otp]

theorem writeEntry_otp (s : State) (e : Nat) (l : List Byte) : (writeEntry s e l).1.sec.otp = s.sec.otp := by
  simp only [writeEntry, ite_otp, ite_fst, ite_self, setEntry_otp]

theorem mapEntries_otp (s : State) (p : TrellisEntry → Bool) (f : TrellisEntry → TrellisEntry) :
    (mapEntries s p f).sec.otp = s.sec.otp := by
  simp only [mapEntries, foldl_otp, implies_true, setEntry_otp]

theorem emptyCommit_otp (s : State) (b : Time) : (emptyCommit s b).sec.otp = s.sec.otp := otp_eq rfl

theorem toPending_otp (s : State) (b : Time) : (toPending s b).sec.otp = s.sec.otp := by
  simp only [toPending, ite_otp, ite_self, emptyCommit_otp, mapEntries_otp]

theorem commitRequest_otp (s : State) : (commitRequest s).1.sec.otp = s.sec.otp := by
  simp only [commitRequest, toPending_otp]

theorem cancel_otp (s : State) : (cancel s).1.sec.otp = s.sec.otp := by
  simp only [cancel, ite_otp, ite_fst, ite_self, mapEntries_otp]

theorem commitFailed_otp (s : State) (f : Nat × Nat) : (commitFailed s f).sec.otp = s.sec.otp := by
  simp only [commitFailed, log_otp]

theorem prepare_otp (s : State) (b : Time) : (prepare s b).1.sec.otp = s.sec.otp := by
  simp only [prepare, ite_otp, ite_fst, emptyCommit_otp]
  (repeat' split) <;> simp only [toPending_otp, commitFailed_otp]

theorem goConfirm_otp (s : State) : (goConfirm s).1.sec.otp = s.sec.otp := otp_eq rfl

theorem commitDone_otp (s : State) (b : Time) (n : Nat) : (commitDone s b n).sec.otp = s.sec.otp := otp_eq rfl

theorem emptyCommitsDone_otp (s : State) (b : Time) : (emptyCommitsDone s b).sec.otp = s.sec.otp := by
  simp only [emptyCommitsDone, ite_otp, ite_self, commitDone_otp]

theorem boundaryCommit_otp (s : State) (b : Time) : (boundaryCommit s b).sec.otp = s.sec.otp := by
  simp only [boundaryCommit, ite_otp, emptyCommitsDone_otp]
  (repeat' split) <;> simp only [mapEntries_otp, emptyCommitsDone_otp, commitDone_otp, commitFailed_otp]

theorem writeRing_otp (s : State) (k : Nat) (l : List Byte) : (writeRing s k l).1.sec.otp = s.sec.otp := by
  simp only [writeRing, ite_otp, ite_fst, ite_self, setRing_otp]

theorem execEpochBoundaryCommit_slotsKept (s : State) : SlotsKept s.sec.otp (execEpochBoundaryCommit s) := by
  simp [execEpochBoundaryCommit, slotsKept_next, whenServing_slotsKept, boundaryCommit_otp, Otp.kept_refl]

/-! Machine/Governor.lean -/

theorem State.setGovFn_otp (s : State) (m : Nat) (x : GovFn) : (s.setGovFn m x).sec.otp = s.sec.otp :=
  otp_eq rfl

theorem State.setGovRule_otp (s : State) (r : Nat) (x : GovRule) : (s.setGovRule r x).sec.otp = s.sec.otp :=
  otp_eq rfl

theorem targetWrite_otp (s : State) (m : Nat) (v : F32) : (targetWrite s m v).1.sec.otp = s.sec.otp := by
  simp only [targetWrite, ite_otp, ite_fst]
  (repeat' split) <;> simp only [stagePost_otp, setPointWrite_otp]

theorem fnPlace_otp (s : State) (m : Nat) (x : GovFn) : (fnPlace s m x).sec.otp = s.sec.otp := by
  simp only [fnPlace, ite_otp, ite_self, setGovFn_otp, log_otp]

theorem fnTake_otp (s : State) (m : Nat) : (fnTake s m).sec.otp = s.sec.otp := by
  simp only [fnTake, ite_otp, ite_self, setGovFn_otp, fnPlace_otp]

theorem fnFault_otp (s : State) (m cause : Nat) : (fnFault s m cause).sec.otp = s.sec.otp := by
  simp only [fnFault, ite_otp, ite_self, setGovFn_otp, log_otp]

theorem fnCount_otp (s : State) (m k : Nat) : (fnCount s m k).sec.otp = s.sec.otp := by
  simp only [fnCount, setGovFn_otp]

theorem fnCommand_otp (s : State) (m : Nat) (c : F32) (state : Nat) :
    (fnCommand s m c state).sec.otp = s.sec.otp := by
  simp only [fnCommand, setGovFn_otp]

theorem logChange_otp (s : State) (m : Nat) (old new : F32) (cause : Nat) :
    (logChange s m old new cause).sec.otp = s.sec.otp := by
  simp only [logChange, log_otp]

theorem fnChanged_otp (s : State) (m : Nat) (v : F32) (source : Nat) :
    (fnChanged s m v source).sec.otp = s.sec.otp := by
  simp only [fnChanged, fnCount_otp, setGovFn_otp, log_otp]

theorem fnWatch_otp (s : State) (m : Nat) : (fnWatch s m).1.sec.otp = s.sec.otp := by
  simp only [fnWatch, ite_otp, ite_fst, setGovFn_otp]
  (repeat' split) <;> simp only [setGovFn_otp, fnChanged_otp, targetWrite_otp, fnFault_otp]

theorem fnThaw_otp (s : State) (m : Nat) : (fnThaw s m).sec.otp = s.sec.otp := by
  simp only [fnThaw, fnPlace_otp]

theorem fnThawDue_otp (s : State) (m : Nat) : (fnThawDue s m).sec.otp = s.sec.otp := by
  simp only [fnThawDue, ite_otp, ite_self, fnThaw_otp]

theorem fnRevert_otp (s : State) (f : Nat) (v0 : F32) : (fnRevert s f v0).sec.otp = s.sec.otp := by
  simp only [fnRevert, fnCount_otp, fnCommand_otp, logChange_otp]

theorem fnOwed_otp (s : State) (m : Nat) : (fnOwed s m).sec.otp = s.sec.otp := by
  unfold fnOwed
  split <;> simp only [ite_otp, ite_self, setGovFn_otp, fnRevert_otp]

theorem fnLeave_otp (s : State) (m : Nat) : (fnLeave s m).sec.otp = s.sec.otp := by
  simp only [fnLeave, fnOwed_otp, setGovFn_otp, fnTake_otp]

theorem fnCheck_otp (s : State) (m : Nat) : (fnCheck s m).sec.otp = s.sec.otp := by
  simp only [fnCheck, ite_otp, ite_self, setGovFn_otp, fnLeave_otp, fnPlace_otp, fnFault_otp]

theorem pastPointer_otp (s : State) (f : Nat) : (pastPointer s f).sec.otp = s.sec.otp := otp_eq rfl

theorem toBaseline_otp (s : State) : (toBaseline s).sec.otp = s.sec.otp := otp_eq rfl

theorem trialAbandon_otp (s : State) (cause : Nat) (revert : Bool) :
    (trialAbandon s cause revert).sec.otp = s.sec.otp := by
  unfold trialAbandon
  split <;> simp only [ite_otp, ite_self, setGovFn_otp, toBaseline_otp, log_otp, fnRevert_otp]

theorem searchStep_otp (s : State) (f : Nat) : (searchStep s f).sec.otp = s.sec.otp := by
  unfold searchStep
  split <;> simp only [fnCount_otp, setGovFn_otp, toBaseline_otp, fnCommand_otp, pastPointer_otp,
    logChange_otp]

theorem baselineEnd_otp (s : State) (t : Time) (ruled : Bool) : (baselineEnd s t ruled).sec.otp = s.sec.otp := by
  simp only [baselineEnd, ite_otp, ite_self, toBaseline_otp, searchStep_otp]

theorem evaluationEnd_otp (s : State) (t : Time) (ruled : Bool) (f : Nat) :
    (evaluationEnd s t ruled f).sec.otp = s.sec.otp := by
  simp only [evaluationEnd, ite_otp, setGovFn_otp, toBaseline_otp, log_otp, fnRevert_otp, pastPointer_otp]
  (repeat' split) <;> simp only [fnCount_otp, setGovFn_otp, log_otp, toBaseline_otp, searchStep_otp, pastPointer_otp]

theorem search_otp (s : State) (t : Time) (ruled : Bool) : (search s t ruled).sec.otp = s.sec.otp := by
  unfold search
  (repeat' split) <;> simp only [evaluationEnd_otp, baselineEnd_otp]

theorem ruleSkip_otp (s : State) (r : Nat) (told : Bool) : (ruleSkip s r told).sec.otp = s.sec.otp := by
  simp only [ruleSkip, ite_otp, ite_self, setGovRule_otp, log_otp]

theorem ruleAct_otp (s : State) (r : Nat) : (ruleAct s r).sec.otp = s.sec.otp := by
  simp only [ruleAct, ite_otp, ite_self, fnCount_otp, setGovRule_otp, log_otp, fnCommand_otp,
    logChange_otp]

theorem ruleRun_otp (due : List Nat) (a : State × List Nat) (r : Nat) :
    (ruleRun due a r).1.sec.otp = a.1.sec.otp := by
  unfold ruleRun
  (repeat' split) <;> simp only [ite_otp, ite_fst, ite_self, ruleSkip_otp, ruleAct_otp]

theorem runRules_otp (s : State) (t : Time) : (runRules s t).1.sec.otp = s.sec.otp := by
  simp only [runRules, foldl_otp, foldl_fst_otp, implies_true, setGovRule_otp, ruleRun_otp]

theorem fnMove_otp (s : State) (m : Nat) : (fnMove s m).sec.otp = s.sec.otp := by
  simp only [fnMove, ite_otp, ite_self, setGovFn_otp, targetWrite_otp, fnFault_otp]

theorem govActive_otp (s : State) (t : Time) : (govActive s t).sec.otp = s.sec.otp := by
  simp only [govActive, ite_otp, ite_self, log_otp]

theorem govAbandon_otp (a r : State × List Nat) : (govAbandon a r).sec.otp = r.1.sec.otp := by
  unfold govAbandon
  split <;> simp only [ite_otp, ite_self, trialAbandon_otp]

theorem govSteps_otp (s : State) (t : Time) : (govSteps s t).sec.otp = s.sec.otp := by
  simp only [govSteps, ite_otp, ite_fst, ite_snd, ite_self, foldl_otp, foldl_fst_otp, implies_true,
    govActive_otp, search_otp, fnMove_otp, toBaseline_otp, fnCheck_otp, runRules_otp,
    fnThawDue_otp, govAbandon_otp, fnWatch_otp]

theorem govTick_otp (s : State) : (govTick s).sec.otp = s.sec.otp := by
  simp only [govTick, ite_otp, ite_self, govActive_otp, devTo_otp, govSteps_otp]

theorem execGovernorTick_slotsKept (s : State) : SlotsKept s.sec.otp (execGovernorTick s) := by
  simp [execGovernorTick, slotsKept_next, whenRt_slotsKept, govTick_otp, Otp.kept_refl]

theorem govRun_otp (s : State) (k : Nat) : (govRun k s).sec.otp = s.sec.otp := by
  induction k generalizing s with
  | zero => rfl
  | succ k ih => simp only [govRun, govTick_otp, ih]

theorem govPass_otp (s : State) (k : Nat) : (govPass s k).sec.otp = s.sec.otp := by
  simp only [govPass, govRun_otp]

theorem execFreezeEnd_slotsKept (s : State) (m : Nat) : SlotsKept s.sec.otp (execFreezeEnd m s) := by
  simp only [execFreezeEnd, slotsKept_ite, ite_self, slotsKept_next, devTo_otp, whenRt_slotsKept,
    fnThawDue_otp, govPass_otp, Otp.kept_refl]

theorem execSettleInstant_slotsKept (s : State) (m : Nat) : SlotsKept s.sec.otp (execSettleInstant m s) := by
  simp only [execSettleInstant, slotsKept_ite, ite_self, slotsKept_next, devTo_otp, search_otp,
    whenRt_slotsKept, govPass_otp, Otp.kept_refl]

theorem execGovernorWindowEnd_slotsKept (s : State) : SlotsKept s.sec.otp (execGovernorWindowEnd s) := by
  simp only [execGovernorWindowEnd, whenRt_slotsKept, Otp.kept_refl]
  (repeat' split) <;> simp only [slotsKept_next, govPass_otp, govTick_otp, Otp.kept_refl]

theorem govStart_otp (s : State) : (govStart s).sec.otp = s.sec.otp := by
  simp only [govStart, ite_otp, ite_self, foldl_otp, implies_true, fnTake_otp]

theorem governorEnable_otp (s : State) (v : Nat) : (governorEnable s v).1.sec.otp = s.sec.otp := by
  simp only [governorEnable, ite_otp, ite_fst, ite_self, setObjN_otp', govStart_otp]

theorem operatorWrite_otp (s : State) (m : Nat) (v : F32) : (operatorWrite s m v).1.sec.otp = s.sec.otp := by
  simp only [operatorWrite, ite_otp, ite_fst, ite_self, setGovFn_otp]

theorem govTakeover_otp (s : State) : (govTakeover s).sec.otp = s.sec.otp := by
  simp only [govTakeover, toBaseline_otp, trialAbandon_otp]

theorem govReset_otp (s : State) : (govReset s).sec.otp = s.sec.otp := by
  simp only [govReset, setObjN_otp']

/-! Machine/Steering.lean -/

theorem State.setSteer_otp (s : State) (x : Steering) : (s.setSteer x).sec.otp = s.sec.otp := otp_eq rfl

theorem ownerSubscribe_otp (s : State) (w : Nat × Nat × Nat) : (ownerSubscribe s w).sec.otp = s.sec.otp := by
  simp only [ownerSubscribe, ite_otp, ite_self, nodeAsk_otp]

theorem ownerWrite_otp (s : State) (index sub typ n v : Nat) :
    (ownerWrite s index sub typ n v).sec.otp = s.sec.otp := by
  simp only [ownerWrite, nodeAsk_otp]

theorem loopManual_otp (s : State) (n : Nat) (on : Bool) : (loopManual s n on).sec.otp = s.sec.otp := by
  simp only [loopManual, ite_otp, ite_self, loopApply_otp, wr_otp', put_otp', ownerWrite_otp]

theorem valveOn_otp (s : State) (n on : Nat) : (valveOn s n on).sec.otp = s.sec.otp := by
  simp only [valveOn, ite_otp, ite_self, stagePost_otp]

theorem loopChannel_otp (s : State) (n on : Nat) : (loopChannel s n on).sec.otp = s.sec.otp := by
  unfold loopChannel
  (repeat' split) <;> simp only [valveOn_otp, ownerWrite_otp]

theorem loopSetPoint_otp (s : State) (n : Nat) (v : F32) : (loopSetPoint s n v).sec.otp = s.sec.otp := by
  simp only [loopSetPoint, ite_otp, ite_self, setPointWrite_otp, ownerWrite_otp]

theorem valvesOff_otp (s : State) (l : List Nat) : (valvesOff s l).sec.otp = s.sec.otp := by
  simp only [valvesOff, foldl_otp, implies_true, loopManual_otp, loopChannel_otp]

theorem steerLaw_otp (s : State) (e : Errors) (v : F32) : (steerLaw s e v).sec.otp = s.sec.otp := by
  simp only [steerLaw, setSteer_otp, loopSetPoint_otp]

theorem steerCount_otp (s : State) (k : Nat) : (steerCount s k).sec.otp = s.sec.otp := by
  simp only [steerCount, setSteer_otp]

theorem engage_otp (s : State) (t : Time) (e : Errors) : (engage s t e).sec.otp = s.sec.otp := by
  simp only [engage, foldl_otp, implies_true, steerCount_otp, loopManual_otp, steerLaw_otp,
    log_otp, setSteer_otp, loopChannel_otp]

theorem disengage_otp (s : State) (cause : Nat) : (disengage s cause).sec.otp = s.sec.otp := by
  simp only [disengage, valvesOff_otp, steerCount_otp, log_otp, setSteer_otp]

theorem standbyTick_otp (s : State) (t : Time) : (standbyTick s t).sec.otp = s.sec.otp := by
  simp only [standbyTick, ite_otp, setSteer_otp]
  (repeat' split) <;> simp only [steerCount_otp, engage_otp, log_otp, setSteer_otp]

theorem engagedTick_otp (s : State) (t : Time) : (engagedTick s t).sec.otp = s.sec.otp := by
  simp only [engagedTick, ite_otp, disengage_otp, setSteer_otp]
  (repeat' split) <;> simp only [steerLaw_otp, setSteer_otp]

theorem steerPower_otp (s : State) : (steerPower s).sec.otp = s.sec.otp := by
  simp only [steerPower, ite_otp, ite_self, foldl_otp, implies_true, valvesOff_otp, log_otp,
    disengage_otp, ownerSubscribe_otp, setSteer_otp, ownerWrite_otp]

theorem execSteeringTick_slotsKept (s : State) : SlotsKept s.sec.otp (execSteeringTick s) := by
  simp only [execSteeringTick, slotsKept_ite, ite_otp, ite_self, slotsKept_next, devTo_otp, steerCount_otp,
    engagedTick_otp, whenRt_slotsKept, steerPower_otp, log_otp, standbyTick_otp, setSteer_otp, Otp.kept_refl]

theorem engageWrite_otp (s : State) (v : Nat) : (engageWrite s v).1.sec.otp = s.sec.otp := by
  simp only [engageWrite, ite_otp, ite_fst, ite_self, setSteer_otp]

theorem steerTouch_otp (s : State) : (steerTouch s).sec.otp = s.sec.otp := by
  simp only [steerTouch, setSteer_otp]

theorem geometryWrite_otp (s : State) (l : List Byte) : (geometryWrite s l).1.sec.otp = s.sec.otp := by
  unfold geometryWrite
  (repeat' split) <;> simp only [steerTouch_otp, setObj_otp', log_otp]

theorem execSteeringWatch_slotsKept (s : State) : SlotsKept s.sec.otp (execSteeringWatch s) := by
  simp only [execSteeringWatch, slotsKept_ite, ite_self, foldl_otp, implies_true, slotsKept_next,
    loopApply_otp, valveOn_otp, wr_otp', set_otp', log_otp, passTo_otp, Otp.kept_refl]

theorem steerReset_otp (s : State) : (steerReset s).sec.otp = s.sec.otp := by
  simp only [steerReset, setSteer_otp]

/-! Machine/Twin.lean -/

theorem twinSend_otp (s : State) (kind : Nat) (payload : List Byte) :
    (twinSend s kind payload).sec.otp = s.sec.otp := by
  simp only [twinSend, flueSendOn_otp, flueSend_otp]

theorem execHeartbeatSend_slotsKept (s : State) : SlotsKept s.sec.otp (execHeartbeatSend s) := by
  unfold execHeartbeatSend
  (repeat' split) <;> simp only [ite_self, slotsKept_next, setFab_otp, gated_slotsKept, passTo_otp,
    twinSend_otp, Otp.kept_refl]

theorem execMirrorSend_slotsKept (s : State) : SlotsKept s.sec.otp (execMirrorSend s) := by
  unfold execMirrorSend
  (repeat' split) <;> simp only [ite_otp, ite_self, slotsKept_next, setFab_otp, log_otp, gated_slotsKept,
    passTo_otp, emit_otp', Otp.kept_refl]

theorem becomeActive_otp (s : State) : (becomeActive s).sec.otp = s.sec.otp := by
  simp only [becomeActive, ite_otp, ite_self, fire_otp, epochRaise_otp, flueSend_otp,
    steerReset_otp, govTakeover_otp, setFab_otp, set_otp', log_otp]

theorem execStartWaitEnd_slotsKept (s : State) : SlotsKept s.sec.otp (execStartWaitEnd s) := by
  unfold execStartWaitEnd
  split <;> simp only [slotsKept_ite, ite_self, slotsKept_next, becomeActive_otp, passTo_otp, Otp.kept_refl]

theorem execTakeover_slotsKept (s : State) : SlotsKept s.sec.otp (execTakeover s) := by
  simp only [execTakeover, slotsKept_ite, ite_self, slotsKept_next, becomeActive_otp, passTo_otp, Otp.kept_refl]

theorem demote_otp (s : State) (epoch serial : Nat) : (demote s epoch serial).sec.otp = s.sec.otp := by
  simp only [demote, ite_otp, ite_self, fire_otp, epochSet_otp, ghEpochWrite_otp, setFab_otp,
    set_otp', log_otp]

theorem heartbeat_otp (s : State) (path serial epoch : Nat) :
    (heartbeat s path serial epoch).sec.otp = s.sec.otp := by
  simp only [heartbeat]
  split <;> simp only [ite_otp, ite_self, epochRaise_otp, demote_otp, epochSet_otp, setFab_otp,
    set_otp']

theorem execHeartbeatReceive_slotsKept (s : State) (kind path sender serial epoch seq : Nat) :
    SlotsKept s.sec.otp (execHeartbeatReceive kind path sender serial epoch seq s) := by
  simp only [execHeartbeatReceive, slotsKept_ite, ite_self, slotsKept_next, epochrstSend_otp, demote_otp,
    gated_slotsKept, heartbeat_otp, Otp.kept_refl]

theorem ghEpochReset_otp (s : State) : (ghEpochReset s).sec.otp = s.sec.otp := by
  simp only [ghEpochReset, set_otp']

theorem epochReset_otp (s : State) (v : Nat) : (epochReset s v).1.sec.otp = s.sec.otp := by
  simp only [epochReset, ite_otp, ite_fst, ite_self, epochrstSend_otp, epochSet_otp, setFab_otp,
    ghEpochReset_otp]

theorem execEpochrstReceive_slotsKept (s : State) (serial header old new : Nat) :
    SlotsKept s.sec.otp (execEpochrstReceive serial header old new s) := by
  simp only [execEpochrstReceive, slotsKept_ite, ite_self, slotsKept_next, epochSet_otp, log_otp,
    gated_slotsKept, ghEpochReset_otp, count_otp', Otp.kept_refl]

/-! Machine/BlockWrite.lean -/

theorem done_otp (s : State) : (done s).1.sec.otp = s.sec.otp := otp_eq rfl

theorem ckWrite_otp (s : State) (o : Nat) (v : Word) : (ckWrite s o v).1.sec.otp = s.sec.otp := by
  unfold ckWrite
  split <;> simp only [done_otp, set_otp', plainWrite_otp, opRequest_otp]

theorem icWrite_otp (s : State) (who o : Nat) (v : Word) : (icWrite s who o v).1.sec.otp = s.sec.otp := by
  simp only [icWrite, ite_otp, ite_fst, ite_self, done_otp, clearAll_otp, complete_otp,
    doorbell_otp, plainWrite_otp, withTargets_otp (fun u => plainWrite_otp u _ v)]

theorem ceWrite_otp (s : State) (o : Nat) (v : Word) : (ceWrite s o v).1.sec.otp = s.sec.otp := by
  simp only [ceWrite, ite_otp, ite_fst, ite_self, done_otp, setPointWrite_otp, ceCtrlWrite_otp,
    lctrlWrite_otp, plainWrite_otp]

theorem stageWrite_otp (s : State) (a : Nat) (v : Word) : (stageWrite s a v).1.sec.otp = s.sec.otp := by
  simp only [stageWrite, ite_otp, ite_fst, ite_self, done_otp, stagePost_otp, plainWrite_otp]

theorem supplyWrite_otp (s : State) (v : Word) : (supplyWrite s v).sec.otp = s.sec.otp := by
  simp only [supplyWrite, ite_otp, ite_self, foldl_otp, implies_true, supplyClear_otp, supplyShow_otp,
    plainWrite_otp]

theorem pulseWrite_otp (s : State) (n o : Nat) (v : Word) : (pulseWrite s n o v).1.sec.otp = s.sec.otp := by
  unfold pulseWrite
  split <;> simp only [ite_otp, ite_fst, ite_self, done_otp, set_otp', plainWrite_otp, piClear_otp]

theorem siWrite_otp (s : State) (o : Nat) (v : Word) : (siWrite s o v).1.sec.otp = s.sec.otp := by
  simp only [siWrite, ite_otp, ite_fst, ite_self, done_otp, aiConfig_otp, lossEdgeWrite_otp,
    pulseWrite_otp, set_otp', siStopWrite_otp, plainWrite_otp, supplyWrite_otp]

theorem fuWrite_otp (s : State) (o : Nat) (v : Word) : (fuWrite s o v).1.sec.otp = s.sec.otp := by
  unfold fuWrite
  (repeat' split) <;> simp only [done_otp, fuCtrlWrite_otp, jobAbort_otp, jobSubmit_otp,
    jobAck_otp, plainWrite_otp]

theorem camWrite_otp (s : State) (o : Nat) (v : Word) : (camWrite s o v).1.sec.otp = s.sec.otp := by
  simp only [camWrite, ite_otp, ite_fst, ite_self, i2cWrite_otp, done_otp, camTcfgWrite_otp,
    plainWrite_otp, camPctrlWrite_otp, tapAck_otp, camConfigWrite_otp]

theorem gnWrite_otp (s : State) (o : Nat) (v : Word) : (gnWrite s o v).1.sec.otp = s.sec.otp := by
  unfold gnWrite
  (repeat' split) <;> simp only [ite_otp, ite_fst, ite_self, dumpAck_otp, done_otp, spacingWrite_otp,
    channelWrite_otp, ncoCommit_otp, slewWrite_otp, fadjWrite_otp, acqWrite_otp,
    plainWrite_otp, stepArm_otp, tpoWrite_otp, stepCancel_otp, gnCtrlWrite_otp]

theorem fbWrite_otp (s : State) (o : Nat) (v : Word) : (fbWrite s o v).1.sec.otp = s.sec.otp := by
  simp only [fbWrite, ite_otp, ite_self, done_otp, clearAll_otp, plainWrite_otp]

theorem cnCtrlWrite_otp (s : State) (c : Nat) (v : Word) : (cnCtrlWrite s c v).1.sec.otp = s.sec.otp := by
  simp only [cnCtrlWrite, ite_otp, ite_fst, ite_self, wr_otp', set_otp', clearAll_otp,
    busOffRecover_otp, canEnable_otp, watShow_otp, canDisable_otp]

theorem cnTxcfgField_otp (s : State) (c : Nat) (v : Word) (f : FieldDef) :
    (cnTxcfgField c v s f).sec.otp = s.sec.otp := by
  simp only [cnTxcfgField, ite_otp, ite_self, wr_otp']

theorem cnWrite_otp (s : State) (c o : Nat) (v : Word) : (cnWrite s c o v).1.sec.otp = s.sec.otp := by
  unfold cnWrite
  (repeat' split) <;> simp only [ite_otp, ite_fst, ite_self, foldl_otp, implies_true, done_otp,
    cnTxcfgField_otp, cnCtrlWrite_otp, set_otp', saWrite_otp, txRequest_otp, plainWrite_otp,
    watShow_otp, queueAck_otp, txAbort_otp]

theorem cvAccfgWrite_otp (s : State) (u : Nat) (v : Word) : (cvAccfgWrite s u v).sec.otp = s.sec.otp := by
  simp only [cvAccfgWrite, ite_otp, ite_self, set_otp', plainWrite_otp]

theorem cvWrite_otp (s : State) (o : Nat) (v : Word) : (cvWrite s o v).1.sec.otp = s.sec.otp := by
  unfold cvWrite
  split <;> simp only [ite_otp, ite_fst, ite_self, cvStart_otp, done_otp, aliveCheck_otp,
    cvShow_otp, cvAccfgWrite_otp, cvStateWrite_otp, aliveSet_otp, plainWrite_otp, cvFeed_otp]

theorem evWrite_otp (s : State) (o : Nat) (v : Word) : (evWrite s o v).1.sec.otp = s.sec.otp := by
  simp only [evWrite, ite_otp, ite_fst, ite_self, done_otp, eventPost_otp, plainWrite_otp]

theorem dpWrite_otp (s : State) (o : Nat) (v : Word) : (dpWrite s o v).1.sec.otp = s.sec.otp := by
  simp only [dpWrite, ite_otp, ite_fst, ite_self, done_otp, clearAll_otp, panelSubmit_otp,
    panelRestart_otp, panelEnable_otp, plainWrite_otp, panelDisable_otp]

theorem msWrite_otp (s : State) (who o : Nat) (v : Word) : (msWrite s who o v).1.sec.otp = s.sec.otp := by
  unfold msWrite
  extract_lets a
  clear_value a
  split
  case h_4 => rw [ite_fst, ite_otp, done_otp, plainWrite_otp, ite_self]
  case h_5 =>
    simp only [done_otp, ite_otp, clearAll_otp, ite_self]
    exact plainWrite_otp ..
  all_goals simp only [done_otp, stSubmit_otp, stAck_otp, stAbort_otp, dmaSubmit_otp,
    dmaAck_otp, dmaAbort_otp, plainWrite_otp]

theorem ghWrite_otp (s : State) (o : Nat) (v : Word) : (ghWrite s o v).1.sec.otp = s.sec.otp := by
  unfold ghWrite
  split
  · exact (done_otp ..).trans (ghCtrlWrite_otp ..)
  · exact (done_otp ..).trans (ghSubmit_otp ..)
  · exact (done_otp ..).trans (ghEpochWrite_otp ..)
  · exact (done_otp ..).trans (plainWrite_otp ..)

theorem irqEnable_otp (s : State) (a : Nat) (v : Word) : (irqEnable s a v).sec.otp = s.sec.otp := by
  unfold irqEnable
  rw [foldl_otp, plainWrite_otp]
  intro u n
  split
  · rw [ite_otp, ring_otp, ite_self]
  · rfl

theorem blockWriteNow_otp (s : State) (who a : Nat) (v : Word) :
    (blockWriteNow s who a v).1.sec.otp = s.sec.otp := by
  unfold blockWriteNow
  (repeat' split) <;> simp only [dpWrite_otp, done_otp, ceWrite_otp, fbWrite_otp, gnWrite_otp,
    cvWrite_otp, fuWrite_otp, camWrite_otp, siWrite_otp, ckWrite_otp, evWrite_otp,
    cnWrite_otp, stageWrite_otp, msWrite_otp, icWrite_otp, irqEnable_otp, ghWrite_otp,
    plainWrite_otp]

theorem releaseOne_otp (s : State) (e : GatedWrite) : (releaseOne s e).sec.otp = s.sec.otp := by
  simp only [releaseOne, ite_otp, ite_self, blockWriteNow_otp, cvFeed_otp]

theorem gateRelease_otp (s : State) : (gateRelease s).sec.otp = s.sec.otp := by
  simp only [gateRelease, ite_otp, ite_self, foldl_otp, implies_true, panelWake_otp, releaseOne_otp,
    gateWait_otp']

theorem blockWrite_otp (s : State) (who a : Nat) (v : Word) : (blockWrite s who a v).1.sec.otp = s.sec.otp := by
  simp only [blockWrite, ite_otp, ite_fst, ite_self, done_otp, gateWait_otp', gateRelease_otp,
    blockWriteNow_otp]

theorem fieldWrite_otp (s : State) (who : Nat) (f : Fld) (v : Nat) :
    (fieldWrite s who f v).1.sec.otp = s.sec.otp := by
  simp only [fieldWrite, ite_otp, ite_fst, ite_self, blockWrite_otp, stagePost_otp]

/-! Machine/Power.lean -/

theorem setPwr_otp (s : State) (x : Power) : (setPwr s x).sec.otp = s.sec.otp := otp_eq rfl

theorem setPs_otp (s : State) (x : PowerState) : (setPs s x).sec.otp = s.sec.otp := otp_eq rfl

theorem vbatMeasured_otp (s : State) (decivolt : Nat) : (vbatMeasured s decivolt).sec.otp = s.sec.otp := by
  simp only [vbatMeasured, setPwr_otp]

theorem pwrCount_otp (s : State) (k : Nat) : (pwrCount s k).sec.otp = s.sec.otp := by
  simp only [pwrCount, setPwr_otp]

theorem lowSupplyEnter_otp (s : State) : (lowSupplyEnter s).sec.otp = s.sec.otp := by
  simp only [lowSupplyEnter, ite_otp, ite_self, foldl_otp, implies_true, withTargets_otp, log_otp,
    pwrBit_otp', linkLoss_otp]

theorem lowSupplyLeave_otp (s : State) : (lowSupplyLeave s).sec.otp = s.sec.otp := by
  simp only [lowSupplyLeave, log_otp, pwrBit_otp', gateRelease_otp]

theorem execLowSupplyEntry_slotsKept (s : State) (decivolt : Nat) :
    SlotsKept s.sec.otp (execLowSupplyEntry decivolt s) := by
  simp only [execLowSupplyEntry, ite_otp, ite_self, slotsKept_next, lowSupplyEnter_otp, vbatMeasured_otp, Otp.kept_refl]

theorem execLowSupplyExit_slotsKept (s : State) (decivolt : Nat) :
    SlotsKept s.sec.otp (execLowSupplyExit decivolt s) := by
  simp only [execLowSupplyExit, ite_otp, ite_self, slotsKept_next, lowSupplyLeave_otp, vbatMeasured_otp, Otp.kept_refl]

theorem powerFailWarning_otp (s : State) (steep : Bool) (decivolt : Nat) :
    (powerFailWarning s steep decivolt).sec.otp = s.sec.otp := by
  simp only [powerFailWarning, ite_otp, ite_self, fire_otp, lowSupplyEnter_otp, pwrCount_otp,
    flashFlush_otp, set_otp', log_otp, pwrBit_otp', panelStop_otp, setPwr_otp,
    vbatMeasured_otp]

theorem execPowerFailWarning_slotsKept (s : State) (steep : Bool) (decivolt : Nat) :
    SlotsKept s.sec.otp (execPowerFailWarning steep decivolt s) := by
  simp only [execPowerFailWarning, ite_otp, ite_self, slotsKept_next, powerFailWarning_otp, Otp.kept_refl]

theorem execWarningClear_slotsKept (s : State) (decivolt : Nat) :
    SlotsKept s.sec.otp (execWarningClear decivolt s) := by
  simp only [execWarningClear, ite_otp, ite_self, slotsKept_next, pwrCount_otp, stStart_otp, set_otp',
    log_otp, pwrBit_otp', panelResume_otp, vbatMeasured_otp, Otp.kept_refl]

theorem execLogicOvervoltage_slotsKept (s : State) (decivolt : Nat) :
    SlotsKept s.sec.otp (execLogicOvervoltage decivolt s) := by
  simp only [execLogicOvervoltage, ite_otp, ite_self, slotsKept_next, log_otp, pwrBit_otp',
    vbatMeasured_otp, Otp.kept_refl]

theorem execLogicOvervoltageEnd_slotsKept (s : State) (decivolt : Nat) :
    SlotsKept s.sec.otp (execLogicOvervoltageEnd decivolt s) := by
  simp only [execLogicOvervoltageEnd, ite_otp, ite_self, slotsKept_next, pwrBit_otp', vbatMeasured_otp, Otp.kept_refl]

theorem bankUndervoltage_otp (s : State) (k decivolt : Nat) :
    (bankUndervoltage s k decivolt).sec.otp = s.sec.otp := by
  simp only [bankUndervoltage, ite_otp, ite_self, foldl_otp, implies_true, log_otp, pwrBit_otp',
    groupDisarm_otp, setPwr_otp, sdDisarm_otp]

theorem execBankInputUndervoltage_slotsKept (s : State) (k decivolt : Nat) :
    SlotsKept s.sec.otp (execBankInputUndervoltage k decivolt s) := by
  simp only [execBankInputUndervoltage, ite_otp, ite_self, slotsKept_next, bankUndervoltage_otp, Otp.kept_refl]

theorem execGroundOffset_slotsKept (s : State) (decivolt : Nat) :
    SlotsKept s.sec.otp (execGroundOffset decivolt s) := by
  simp only [execGroundOffset, ite_otp, ite_self, slotsKept_next, log_otp, pwrBit_otp', setPwr_otp, Otp.kept_refl]

theorem execGroundOffsetClear_slotsKept (s : State) (decivolt : Nat) :
    SlotsKept s.sec.otp (execGroundOffsetClear decivolt s) := by
  simp only [execGroundOffsetClear, ite_otp, ite_self, slotsKept_next, pwrBit_otp', setPwr_otp, Otp.kept_refl]

theorem shutdownStart_otp (s : State) : (shutdownStart s).sec.otp = s.sec.otp := by
  simp only [shutdownStart, pwrBit_otp', setPwr_otp]

theorem setMode_otp (s : State) (m : Nat) : (setMode s m).sec.otp = s.sec.otp := by
  simp only [setMode, ite_otp, ite_self, setPs_otp, setCeilings_otp, log_otp, gateRelease_otp]

theorem procs_otp (s : State) (x : Procs) : { s with procs := x }.sec.otp = s.sec.otp := otp_eq rfl

theorem sleepEnter_otp (s : State) : (sleepEnter s).sec.otp = s.sec.otp :=
  withTargets_otp (fun _ => (setMode_otp ..).trans (procs_otp ..)) s

theorem cluDue_otp (s : State) (mask wake : Nat) : (cluDue s mask wake).sec.otp = s.sec.otp := by
  simp only [cluDue, setPs_otp, resetDue_otp]

theorem sleepLeave_otp (s : State) (back wake : Nat) : (sleepLeave s back wake).sec.otp = s.sec.otp := by
  simp only [sleepLeave, ite_otp, ite_self, cluDue_otp, setPs_otp]

theorem stateRequest_otp (s : State) (v : Nat) : (stateRequest s v).1.sec.otp = s.sec.otp := by
  simp only [stateRequest, ite_otp, ite_fst, ite_self, setPs_otp, log_otp, setMode_otp,
    sleepLeave_otp, sleepEnter_otp]

/-! Machine/ObjWrite.lean -/

theorem errAns_otp (a : Nat) (r : State × Nat) : (errAns a r).1.sec.otp = r.1.sec.otp := by
  simp only [errAns, ite_fst, ite_self]

theorem okAns_otp (s : State) : (okAns s).1.sec.otp = s.sec.otp := otp_eq rfl

theorem ans_otp (r : State × Nat) : (ans r).1.sec.otp = r.1.sec.otp := otp_eq rfl

theorem wordsWrite_otp (s : State) (a : Nat) (l : List Word) : (wordsWrite s a l).1.sec.otp = s.sec.otp := by
  induction l generalizing s a with
  | nil => rfl
  | cons w l ih => simp only [wordsWrite, ite_otp, ite_fst, ite_self, blockWrite_otp, errAns_otp, ih]

theorem putField_otp (s : State) (f : Fld) (v : Nat) : (putField s f v).1.sec.otp = s.sec.otp := by
  simp only [putField, fieldWrite_otp, errAns_otp]

theorem wordsAll_otp (s : State) (a : Nat) (l : List Word) : (wordsAll s a l).1.sec.otp = s.sec.otp := by
  simp only [wordsAll, ite_otp, ite_fst, ite_self, foldl_otp, implies_true, wordsWrite_otp, wr_otp']

theorem backWrite_otp (s : State) (d : ObjDef) (index sub : Nat) (v : ObjVal) :
    (backWrite s d index sub v).1.sec.otp = s.sec.otp := by
  unfold backWrite
  split <;> simp only [ite_otp, ite_fst, ite_self, blockWrite_otp, setObj_otp', wordsAll_otp,
    putField_otp, okAns_otp, errAns_otp]

theorem writeSecurity_otpKept {o : Otp} {s : State} (sub : Nat) (v : ObjVal) (h : o.Kept s.sec.otp) :
    o.Kept (writeSecurity s sub v).1.sec.otp := by
  unfold writeSecurity
  split <;> simp only [tokenWrite_otp, debugClose_otp, slotKeyWrite_otpKept, slotHashWrite_otpKept,
    setObj_otp', transitionRequest_otp, okAns_otp, serialStaging_otp, h]

theorem writePower_otp (s : State) (d : ObjDef) (index sub : Nat) (v : ObjVal) :
    (writePower s d index sub v).1.sec.otp = s.sec.otp := by
  unfold writePower
  (repeat' split) <;> simp only [ans_otp, integrityWrite_otp, cluDue_otp, clearRetirement_otp,
    setObj_otp', set_otp', thermalEstimate_otp, backWrite_otp, resetDue_otp, okAns_otp,
    stateRequest_otp, opRequest_otp]

theorem writeTrellis_otp (s : State) (index sub : Nat) (v : ObjVal) :
    (writeTrellis s index sub v).1.sec.otp = s.sec.otp := by
  unfold writeTrellis
  (repeat' split) <;> simp only [ans_otp, cancel_otp, writeEntry_otp, goConfirm_otp,
    commitRequest_otp, writeRing_otp, openEntry_otp, prepare_otp]

theorem answered_otp (t : State) (c : Prop) [Decidable c] (n m : Nat) :
    (if c then ((t, n, m) : Ans) else okAns t).1.sec.otp = t.sec.otp := by
  rw [ite_fst, ite_otp, okAns_otp, ite_self]

theorem writeLoop_otp (s : State) (d : ObjDef) (index sub : Nat) (v : ObjVal) :
    (writeLoop s d index sub v).1.sec.otp = s.sec.otp := by
  unfold writeLoop
  split
  · exact (answered_otp ..).trans (fieldWrite_otp ..)
  · exact backWrite_otp ..
  · exact backWrite_otp ..
  · exact backWrite_otp ..
  · exact backWrite_otp ..
  · simp only [ite_fst, ite_otp, okAns_otp, foldl_otp (fun _ _ => wr_otp' ..), loopApply_otp,
      backWrite_otp, ite_self]

theorem armAns_otp (s : State) (arm err : Fld) (n : Nat) : (armAns s arm err n).1.sec.otp = s.sec.otp := by
  simp only [armAns, ite_fst, ite_self, putField_otp]

theorem writeSolenoid_otp (s : State) (d : ObjDef) (index sub : Nat) (v : ObjVal) :
    (writeSolenoid s d index sub v).1.sec.otp = s.sec.otp := by
  simp only [writeSolenoid, ite_otp, ite_fst]
  (repeat' split) <;> simp only [armAns_otp, bankUnlock_otp, putField_otp, backWrite_otp,
    okAns_otp, bankSwitchClearNow_otp]

theorem writeSwitch_otp (s : State) (d : ObjDef) (index sub : Nat) (v : ObjVal) :
    (writeSwitch s d index sub v).1.sec.otp = s.sec.otp := by
  simp only [writeSwitch, ite_otp, ite_fst]
  (repeat' split) <;> simp only [lsUnlock_otp, armAns_otp, putField_otp, backWrite_otp, okAns_otp]

theorem edgesWrite_otp (s : State) (n : Nat) (l : List Byte) : (edgesWrite s n l).1.sec.otp = s.sec.otp := by
  simp only [edgesWrite, ite_otp, ite_fst, ite_self, foldl_otp, implies_true, set_otp', okAns_otp]

theorem writeSensor_otp (s : State) (d : ObjDef) (index sub : Nat) (v : ObjVal) :
    (writeSensor s d index sub v).1.sec.otp = s.sec.otp := by
  simp only [writeSensor, ite_otp, ite_fst, ite_self, softwareStop_otp, putField_otp, rearm_otp,
    backWrite_otp, okAns_otp, edgesWrite_otp]

theorem tapPlace_otp (s : State) (c a : Nat) : (tapPlace s c a).sec.otp = s.sec.otp := by
  simp only [tapPlace, wr64_otp', wr_otp']

theorem writeCamera_otp (s : State) (d : ObjDef) (index sub : Nat) (v : ObjVal) :
    (writeCamera s d index sub v).1.sec.otp = s.sec.otp := by
  simp only [writeCamera, ite_fst, ite_snd]
  (repeat' split) <;> simp only [tapPlace_otp, blockWrite_otp, wr64_otp', mwr_otp', setObj_otp',
    putField_otp, backWrite_otp, okAns_otp, errAns_otp]

theorem writeFusion_otp (s : State) (d : ObjDef) (index sub : Nat) (v : ObjVal) :
    (writeFusion s d index sub v).1.sec.otp = s.sec.otp := by
  simp only [writeFusion, ite_otp, ite_fst, ite_self, ans_otp, timeWrite_otp, modelWrite_otp,
    setObj_otp', measRateWrite_otp, jobSplit_otp, put_otp', quantityReset_otp, backWrite_otp,
    writeCamera_otp, slotWrite_otp, okAns_otp, clearOrbits_otp]

theorem writeService_otp (s : State) (d : ObjDef) (index sub : Nat) (v : ObjVal) :
    (writeService s d index sub v).1.sec.otp = s.sec.otp := by
  unfold writeService
  (repeat' split) <;> simp only [geometryWrite_otp, steerTouch_otp, ans_otp, recordingWrite_otp,
    taskExport_otp, setObj_otp', sectionMode_otp, taskDelete_otp, governorEnable_otp,
    backWrite_otp, operatorWrite_otp, okAns_otp, engageWrite_otp, taskWrite_otp]

theorem writeFabric_otp (s : State) (d : ObjDef) (index sub : Nat) (v : ObjVal) :
    (writeFabric s d index sub v).1.sec.otp = s.sec.otp := by
  simp only [writeFabric, ite_otp, ite_fst, ite_self, ans_otp, syncMaster_otp, acceptReplacement_otp,
    setObj_otp', backWrite_otp, epochReset_otp, okAns_otp]
  (repeat' split) <;> simp only [setObj_otp', wordsAll_otp, putField_otp, backWrite_otp, okAns_otp]

theorem writeCan_otp (s : State) (d : ObjDef) (index sub : Nat) (v : ObjVal) :
    (writeCan s d index sub v).1.sec.otp = s.sec.otp := by
  simp only [writeCan, ite_otp, ite_fst, ite_self, blockWrite_otp, backWrite_otp, errAns_otp]
  (repeat' split) <;> simp only [timingDerive_otp, setObj_otp', putField_otp, backWrite_otp,
    okAns_otp]

theorem panelLoad_otp (s : State) (sub : Nat) (v : ObjVal) : (panelLoad s sub v).sec.otp = s.sec.otp := by
  unfold panelLoad
  split <;> simp only [foldl_otp, implies_true, wr_otp', set_otp']

theorem writeKeeper_otp (s : State) (d : ObjDef) (index sub : Nat) (v : ObjVal) :
    (writeKeeper s d index sub v).1.sec.otp = s.sec.otp := by
  unfold writeKeeper
  (repeat' split) <;> simp only [ite_otp, ite_fst, ite_self, updateAbort_otp, ans_otp,
    relayRequest_otp, panelLoad_otp, activate_otp, setObj_otp', rollBackRequest_otp,
    putField_otp, backWrite_otp, panelGeometryWrite_otp, okAns_otp, confirm_otp,
    intakeFragment_otp]

theorem objEffect_otpKept {o : Otp} {s : State} (d : ObjDef) (index sub : Nat) (v : ObjVal) (h : o.Kept s.sec.otp) :
    o.Kept (objEffect s d index sub v).1.sec.otp := by
  simp only [objEffect, ite_otp, ite_fst, ite_self, writeKeeper_otp, writeSensor_otp, writeFusion_otp,
    writeSolenoid_otp, backWrite_otp, writeTrellis_otp, writeFabric_otp, writePower_otp,
    writeSecurity_otpKept, writeLoop_otp, writeService_otp, writeSwitch_otp, writeCan_otp, Otp.kept_ite, h]
  (repeat' split) <;> simp only [okAns_otp, h]

theorem countChange_otp (s : State) (index sub : Nat) : (countChange s index sub).sec.otp = s.sec.otp :=
  otp_eq rfl

theorem mirrorNote_otp (s : State) (index sub : Nat) (ty : ObjTy) (v : ObjVal) :
    (mirrorNote s index sub ty v).sec.otp = s.sec.otp := by
  simp only [mirrorNote, ite_otp, ite_self, setFab_otp]

theorem checkedBy_otpKept {o : Otp} {s : State} {r : Ans} (h : o.Kept s.sec.otp) (hr : o.Kept r.1.sec.otp) (d : ObjDef)
    (index sub : Nat) (v : ObjVal) :
    o.Kept (checkedBy s d index sub v r).1.sec.otp := by
  unfold checkedBy
  (repeat' split) <;> simp only [countChange_otp, mirrorNote_otp, h, hr]

theorem checkedWrite_otpKept {o : Otp} {s : State} (d : ObjDef) (index sub : Nat) (v : ObjVal) (h : o.Kept s.sec.otp) :
    o.Kept (checkedWrite s d index sub v).1.sec.otp := by
  simp only [checkedWrite, checkedBy_otpKept h (objEffect_otpKept _ _ _ _ h)]

theorem writeOne_otpKept {o : Otp} {s : State} (index sub ty : Nat) (bytes : List Byte) (h : o.Kept s.sec.otp) :
    o.Kept (writeOne s index sub ty bytes).1.sec.otp := by
  unfold writeOne
  split <;> simp only [ite_otp, ite_fst, ite_self, checkedWrite_otpKept, Otp.kept_ite, h]

/-! Machine/Dictionary.lean -/

theorem notifyRing_otp (s : State) (seq : Nat) (msg : List Byte) :
    (notifyRing s seq msg).sec.otp = s.sec.otp := by
  simp only [notifyRing, ite_otp, ite_self, fire_otp, engineError_otp, set_otp', busStore_otp]

theorem notifyOne_otp (s : State) (x : Subscr) : (notifyOne s x).sec.otp = s.sec.otp := by
  simp only [notifyOne, ite_otp, ite_self, canMessage_otp, flueSend_otp, log_otp, notifyRing_otp,
    setDict_otp, emit_otp']

theorem notifyChanges_otp (s : State) : (notifyChanges s).sec.otp = s.sec.otp := by
  simp only [notifyChanges, ite_otp, ite_self, foldl_otp, implies_true, notifyOne_otp]

theorem readBytes_otp (s : State) (d : ObjDef) (index sub : Nat) :
    (readBytes s d index sub).2.sec.otp = s.sec.otp := by
  simp only [readBytes, ite_otp, ite_snd, ite_self, challengeRead_otp]

theorem withReadable_otp {s : State} {f : ObjDef → State × Reply} (h : ∀ d,
    (f d).1.sec.otp = s.sec.otp) (index sub : Nat) :
    (withReadable s index sub f).1.sec.otp = s.sec.otp := by
  unfold withReadable
  split
  · rfl
  · simp only [ite_fst, ite_otp, h, ite_self]

theorem opRead_otp (s : State) (index sub : Nat) : (opRead s index sub).1.sec.otp = s.sec.otp :=
  withReadable_otp (fun d => by simp only [ite_otp, ite_fst, ite_self, readBytes_otp]) index sub

theorem opBlockRead_otp (s : State) (index sub offset : Nat) (data : List Byte) :
    (opBlockRead s index sub offset data).1.sec.otp = s.sec.otp :=
  withReadable_otp (fun d => by simp only [ite_otp, ite_fst, ite_self, readBytes_otp]) index sub

theorem opDescribe_otp (s : State) (index sub : Nat) : (opDescribe s index sub).1.sec.otp = s.sec.otp := by
  unfold opDescribe
  split <;> simp only [ite_fst, ite_self]

theorem writeEntries_otpKept {o : Otp} {s : State} (denied : Bool) (l : List (Nat × Nat × Nat × List Byte)) (k : Nat)
    (h : o.Kept s.sec.otp) :
    o.Kept (writeEntries denied l k s).1.sec.otp := by
  induction l generalizing k s with
  | nil => exact h
  | cons e l ih =>
    unfold writeEntries
    (repeat' split) <;> simp only [ite_otp, ite_fst, ite_self, writeOne_otpKept, ih, Otp.kept_ite, h]

theorem writeAny_otpKept {o : Otp} {s : State} (denied : Bool) (index sub typ : Nat) (data : List Byte) (h : o.Kept s.sec.otp) :
    o.Kept (writeAny s denied index sub typ data).1.sec.otp := by
  unfold writeAny
  (repeat' split) <;> simp only [ite_otp, ite_fst, ite_self, writeEntries_otpKept, writeOne_otpKept, Otp.kept_ite, h]

theorem replyOf_otp (r : Ans) : (replyOf r).1.sec.otp = r.1.sec.otp := otp_eq rfl

theorem sessionPut_otp (s : State) (who index sub : Nat) (bytes : List Byte) :
    (sessionPut s who index sub bytes).sec.otp = s.sec.otp := by
  simp only [sessionPut, setDict_otp]

theorem opBlockSeg_otp (s : State) (denied : Bool) (who index sub offset : Nat) (data : List Byte) :
    (opBlockSeg s denied who index sub offset data).1.sec.otp = s.sec.otp := by
  simp only [opBlockSeg]
  (repeat' split) <;> simp only [sessionPut_otp]

theorem opBlockEnd_otpKept {o : Otp} {s : State} (denied : Bool) (who index sub typ : Nat) (data : List Byte)
    (h : o.Kept s.sec.otp) :
    o.Kept (opBlockEnd s denied who index sub typ data).1.sec.otp := by
  simp only [opBlockEnd]
  (repeat' split) <;> simp only [replyOf_otp, writeAny_otpKept, setDict_otp, h]

theorem sessionExpiry_otp (s : State) (who index sub : Nat) :
    (sessionExpiry s who index sub).sec.otp = s.sec.otp := by
  unfold sessionExpiry
  split <;> simp only [log_otp, setDict_otp, passTo_otp]

theorem opSubscribe_otp (s : State) (who index sub aux : Nat) :
    (opSubscribe s who index sub aux).1.sec.otp = s.sec.otp :=
  withReadable_otp (fun d => by simp only [ite_otp, ite_fst, ite_self, setDict_otp]) index sub

theorem opUnsubscribe_otp (s : State) (who id : Nat) : (opUnsubscribe s who id).1.sec.otp = s.sec.otp := by
  simp only [opUnsubscribe, ite_otp, ite_fst, ite_self, setDict_otp]

theorem periodicNotify_otp (s : State) (id : Nat) : (periodicNotify s id).sec.otp = s.sec.otp := by
  unfold periodicNotify
  split <;> simp only [ite_otp, ite_self, devTo_otp, notifyOne_otp, setDict_otp]

theorem keepaliveNotify_otp (s : State) (id : Nat) : (keepaliveNotify s id).sec.otp = s.sec.otp := by
  unfold keepaliveNotify
  split <;> simp only [ite_otp, ite_self, notifyOne_otp, passTo_otp]

theorem commitRun_otp (s : State) (fails : Option Nat) (l : List (ObjDef × Nat × Nat)) (k : Nat) :
    (commitRun fails l k s).1.sec.otp = s.sec.otp := by
  induction l generalizing k s with
  | nil => rfl
  | cons e l ih => simp only [commitRun, ite_otp, ite_fst, ite_self, writeRecord_otp, ih]

theorem commitList_otp (s : State) (fails : Option Nat) (l : List (ObjDef × Nat × Nat)) :
    (commitList s fails l).1.sec.otp = s.sec.otp := by
  simp only [commitList]
  split <;> simp only [commitRun_otp, log_otp, nextGeneration_otp]

theorem opCommit_otp (s : State) (denied : Bool) (index sub : Nat) (fails : Option Nat) :
    (opCommit s denied index sub fails).1.sec.otp = s.sec.otp := by
  unfold opCommit
  (repeat' split) <;> simp only [ite_otp, ite_fst, ite_self, commitList_otp]

theorem opDefaults_otp (s : State) (denied : Bool) : (opDefaults s denied).1.sec.otp = s.sec.otp := by
  simp only [opDefaults, ite_otp, ite_fst, ite_self, log_otp]

theorem serveOp_otpKept {o : Otp} {s : State} (denied : Bool) (who op index sub typ aux : Nat) (data : List Byte)
    (fails : Option Nat) (h : o.Kept s.sec.otp) :
    o.Kept (serveOp s denied who op index sub typ aux data fails).1.sec.otp := by
  unfold serveOp
  split <;> simp only [opRead_otp, opSubscribe_otp, opBlockSeg_otp, opBlockEnd_otpKept, opDescribe_otp,
    replyOf_otp, opBlockRead_otp, writeAny_otpKept, opDefaults_otp, opUnsubscribe_otp, opCommit_otp, h]

theorem queueFull_otp (s : State) : (queueFull s).sec.otp = s.sec.otp := by
  simp only [queueFull, ite_otp, ite_self, log_otp, setDict_otp]

theorem serve_otpKept {o : Otp} {s : State} (q : Req) (op index sub typ aux : Nat) (data : List Byte) (fails : Option Nat)
    (h : o.Kept s.sec.otp) :
    o.Kept (serve s q op index sub typ aux data fails).1.sec.otp := by
  simp only [serve, ite_otp, ite_fst, ite_self, epochCheck_otp, queueFull_otp, notifyChanges_otp,
    serveOp_otpKept, Otp.kept_ite, h]

theorem fabricRespond_otp (s : State) (q : Req) (msg : List Byte) :
    (fabricRespond s q msg).sec.otp = s.sec.otp := by
  simp only [fabricRespond, flueEmit_otp, setDict_otp]

theorem respond_otp (s : State) (q : Req) (op index sub : Nat) (r : Reply) :
    (respond s q op index sub r).sec.otp = s.sec.otp := by
  simp only [respond, ite_otp, ite_self, canMessage_otp, emit_otp', fabricRespond_otp]

theorem requestRun_otpKept {o : Otp} {s : State} (q : Req) (op index sub typ aux : Nat) (data : List Byte)
    (fails : Option Nat) (h : o.Kept s.sec.otp) :
    o.Kept (requestRun s q op index sub typ aux data fails).sec.otp := by
  simp only [requestRun]
  (repeat' split) <;> simp only [flueLeave_otp, respond_otp, serve_otpKept, h]

theorem request_otpKept {o : Otp} {s : State} (q : Req) (op index sub typ aux : Nat) (data : List Byte) (fails : Option Nat)
    (h : o.Kept s.sec.otp) :
    o.Kept (request s q op index sub typ aux data fails).sec.otp := by
  simp only [request, ite_otp, ite_self, requestRun_otpKept, peerContext_otp, Otp.kept_ite, h]

/-! Machine/Requester.lean -/

theorem State.setKp_otp (s : State) (x : Keeper) : (s.setKp x).sec.otp = s.sec.otp := otp_eq rfl

theorem State.setMailSlot_otp (s : State) (k : Nat) (x : MailSlot) : (s.setMailSlot k x).sec.otp = s.sec.otp := by
  simp only [setMailSlot, setKp_otp]

theorem slotAnswer_otp (s : State) (k : Nat) (msg : List Byte) : (slotAnswer s k msg).sec.otp = s.sec.otp := by
  simp only [slotAnswer, setMailSlot_otp]

theorem remoteCut_otp (s : State) (r : Remote) : (remoteCut s r).sec.otp = s.sec.otp := by
  simp only [remoteCut, ite_otp, ite_self, setFab_otp, dictWithdraw_otp]

theorem remoteClose_otp (s : State) (r : Remote) : (remoteClose s r).sec.otp = s.sec.otp := by
  simp only [remoteClose, setDict_otp]

theorem remoteEnd_otp (s : State) (r : Remote) (msg : List Byte) : (remoteEnd s r msg).sec.otp = s.sec.otp := by
  unfold remoteEnd
  split <;> simp only [ite_otp, ite_self, remoteClose_otp, remoteCut_otp, slotAnswer_otp]

theorem ownAnswer_otp (s : State) (r : Remote) (status : Nat) : (ownAnswer s r status).sec.otp = s.sec.otp := by
  simp only [ownAnswer, ite_otp, ite_self, pushAnswer_otp]

theorem remoteLate_otp (s : State) (peer : Nat) : (remoteLate s peer).sec.otp = s.sec.otp := by
  simp only [remoteLate, ite_otp, ite_self, setDict_otp, count_otp']

theorem remoteTake_otp (s : State) (r : Remote) (op status index sub typ aux : Nat) (data : List Byte) :
    (remoteTake s r op status index sub typ aux data).sec.otp = s.sec.otp := by
  simp only [remoteTake, ite_otp, ite_self, ownAnswer_otp, remoteEnd_otp, setDict_otp]

theorem remoteResponse_otp (s : State) (peer alive tag op status index sub typ aux : Nat) (data : List Byte) :
    (remoteResponse s peer alive tag op status index sub typ aux data).sec.otp = s.sec.otp := by
  simp only [remoteResponse, ite_fst, ite_snd]
  split <;> simp only [ite_otp, ite_self, remoteLate_otp, remoteTake_otp, fabricAlive_otp]

theorem remoteTimeout_otp (s : State) (tag : Nat) : (remoteTimeout s tag).sec.otp = s.sec.otp := by
  unfold remoteTimeout
  split <;> simp only [ite_otp, ite_self, ownAnswer_otp, remoteEnd_otp, passTo_otp, count_otp']

theorem notifyReceive_otp (s : State) (peer id seq index sub typ : Nat) (data : List Byte) :
    (notifyReceive s peer id seq index sub typ data).sec.otp = s.sec.otp := by
  unfold notifyReceive
  split <;> simp only [ite_otp, ite_self, notifyRing_otp, setDict_otp]

theorem slotClaim_otp (s : State) : (slotClaim s).1.sec.otp = s.sec.otp := by
  unfold slotClaim
  split <;> simp only [set_otp', setMailSlot_otp]

theorem mailRead_otp (s : State) (a n : Nat) : (mailRead s a n).2.sec.otp = s.sec.otp := by
  simp only [mailRead, ite_otp, ite_snd, ite_self, engineError_otp, busRead_otp]

theorem mailServe_otpKept {o : Otp} {s : State} (k waiting : Nat) (fails : Option Nat) (pre msg : List Byte)
    (h : o.Kept s.sec.otp) :
    o.Kept (mailServe s k waiting fails pre msg).sec.otp := by
  simp only [mailServe, ite_otp, slotAnswer_otp, setMailSlot_otp, Otp.kept_ite, h]
  (repeat' split) <;> simp only [slotAnswer_otp, setMailSlot_otp, serve_otpKept, remoteSend_otp, h]

theorem mailboxGo_otpKept {o : Otp} {s : State} (k waiting : Nat) (fails : Option Nat) (h : o.Kept s.sec.otp) :
    o.Kept (mailboxGo s k waiting fails).sec.otp := by
  simp only [mailboxGo, ite_otp, ite_fst, ite_snd, ite_self, mailRead_otp, mailServe_otpKept, set_otp', Otp.kept_ite, h]

theorem mailboxDone_otp (s : State) (k : Nat) : (mailboxDone s k).sec.otp = s.sec.otp := by
  simp only [mailboxDone, ite_otp, ite_self, fire_otp, engineError_otp, set_otp', setMailSlot_otp,
    passTo_otp, busStore_otp]

theorem mailboxRelease_otp (s : State) (k : Nat) : (mailboxRelease s k).sec.otp = s.sec.otp := by
  simp only [mailboxRelease, ite_otp, ite_self, foldl_otp, implies_true, remoteCut_otp, set_otp',
    setMailSlot_otp, setDict_otp]

theorem canDictMessage_otpKept {o : Otp} {s : State} (peer : Nat) (m : List Byte) (h : o.Kept s.sec.otp) :
    o.Kept (canDictMessage s peer m).sec.otp := by
  simp only [canDictMessage, ite_otp, ite_self, remoteResponse_otp, request_otpKept, notifyReceive_otp, Otp.kept_ite, h]

theorem canDictFrame_otpKept {o : Otp} {s : State} (c : Nat) (x : CanFrame) (h : o.Kept s.sec.otp) :
    o.Kept (canDictFrame s c x).sec.otp := by
  simp only [canDictFrame]
  (repeat' split) <;> simp only [aliveCheck_otp, setCan_otp, dictChecker_otp, canDictMessage_otpKept,
    peerContext_otp, h]

theorem canReceive_otpKept {o : Otp} {s : State} (c what : Nat) (x : CanFrame) (t : Time) (tec rcnt : Nat)
    (h : o.Kept s.sec.otp) :
    o.Kept (canReceive s c what x t tec rcnt).sec.otp := by
  simp only [canReceive, ite_otp, ite_self, setCan_otp, canCounts_otp, canDeliver_otp,
    canError_otp, canDictFrame_otpKept, canOffer_otp, count_otp', canCorrection_otp,
    protocolException_otp, canPump_otp, Otp.kept_ite, h]

theorem reassemblyTimeout_otp (s : State) (c src : Nat) : (reassemblyTimeout s c src).sec.otp = s.sec.otp := by
  unfold reassemblyTimeout
  split <;> simp only [setCan_otp, passTo_otp]

/-! Machine/Restore.lean -/

theorem correctionTake_otp (s : State) (k : Nat) (l : List Byte) :
    (correctionTake s k l).sec.otp = s.sec.otp := by
  simp only [correctionTake, setFuSlot_otp]

theorem restoreEffect_otpKept {o : Otp} {s : State} (d : ObjDef) (index sub : Nat) (v : ObjVal) (h : o.Kept s.sec.otp) :
    o.Kept (restoreEffect s d index sub v).1.sec.otp := by
  simp only [restoreEffect, ite_otp, ite_fst, ite_self, setObj_otp', correctionTake_otp, objEffect_otpKept,
    okAns_otp, Otp.kept_ite, h]

theorem restorePut_otpKept {o : Otp} {s t : State} {p : Place} {v : ObjVal} (h : o.Kept s.sec.otp)
    (hput : restorePut s p v = some t) : o.Kept t.sec.otp := by
  simp only [restorePut] at hput
  split at hput
  · cases hput
    exact h
  · split at hput
    · cases hput
    · split at hput
      · cases hput
        exact restoreEffect_otpKept _ _ _ _ h
      · cases hput

theorem recordDiscard_otp (s : State) (index sub cause : Nat) :
    (recordDiscard s index sub cause).sec.otp = s.sec.otp := by
  simp only [recordDiscard, log_otp]

theorem restoreDefault_otpKept {o : Otp} {s : State} (p : Place) (h : o.Kept s.sec.otp) :
    o.Kept (restoreDefault s p).sec.otp := by
  unfold restoreDefault
  cases hput : restorePut s p (p.1.default (p.2.1 - p.1.index)) with
  | none => exact h
  | some t => exact restorePut_otpKept h hput

theorem restoreOne_otpKept {o : Otp} {s : State} (last : Bool) (p : Place) (h : o.Kept s.sec.otp) :
    o.Kept (restoreOne s last p).1.sec.otp := by
  unfold restoreOne
  split
  · exact restoreDefault_otpKept _ h
  · split
    · simp only [restoreDefault_otpKept, recordDiscard_otp, h]
    · split
      next t hput => exact restorePut_otpKept h hput
      · simp only [ite_otp, ite_fst, ite_self, restoreDefault_otpKept, recordDiscard_otp, Otp.kept_ite, h]

theorem restorePass_otpKept {o : Otp} {s : State} (last : Bool) (l : List Place) (h : o.Kept s.sec.otp) :
    o.Kept (restorePass last l s).1.sec.otp := by
  induction l generalizing s with
  | nil => exact h
  | cons p l ih => simp only [restorePass, ite_fst, ite_self, restoreOne_otpKept, ih, h]

theorem dropUnknown_otp (s : State) (l : List Place) : (dropUnknown s l).sec.otp = s.sec.otp := by
  simp only [dropUnknown, foldl_otp, implies_true, recordDiscard_otp]

theorem oemClear_otp (s : State) : (oemClear s).sec.otp = s.sec.otp := by
  simp only [oemClear]

theorem restoreAll_otpKept {o : Otp} {s : State} (h : o.Kept s.sec.otp) :
    o.Kept (restoreAll s).sec.otp := by
  unfold restoreAll
  generalize retainedObjects = retained
  refine restorePass_otpKept _ _ (restorePass_otpKept _ _ (restorePass_otpKept _ _ ?_))
  rw [dropUnknown_otp, oemClear_otp]
  exact h

theorem migrateOne_otp (s : State) (t : Nat) (e : Nat × Rec) : (migrateOne t s e).sec.otp = s.sec.otp := by
  unfold migrateOne
  split <;> simp only [setImg_otp, recordDiscard_otp]

theorem firstStart_otp (s : State) (t : Nat) : (firstStart s t).sec.otp = s.sec.otp := by
  simp only [firstStart, ite_otp, ite_self, foldl_otp, implies_true, migrateOne_otp, setImgState_otp,
    setImg_otp, set_otp', log_otp]

theorem imagesBefore_otp (s : State) (due types : List Nat) : (imagesBefore s due types).sec.otp = s.sec.otp := by
  simp only [imagesBefore, ite_otp, ite_self, foldl_otp, implies_true, firstStart_otp, rollBack_otp]

theorem bootLink_otp (s : State) (t : Nat) : (bootLink s t).sec.otp = s.sec.otp := by
  simp only [bootLink, ite_otp, ite_self, log_otp, slotSwap_otp]

/-! Machine/Reset.lean -/

theorem survivors_otp (s : State) (c : Cause) : (survivors s c).sec.otp = s.sec.otp := by
  simp only [survivors]

theorem disown_otp (s : State) : (disown s).sec.otp = s.sec.otp := by
  simp only [disown, foldl_otp, implies_true, set_otp']

theorem stagesHold_otp (s : State) : (stagesHold s).sec.otp = s.sec.otp := by
  simp only [stagesHold, foldl_otp, implies_true, set_otp', holdEntry_otp, disown_otp]

theorem keepBits_otp (s : State) (a mask : Nat) (v : Word) : (keepBits s a mask v).sec.otp = s.sec.otp := by
  simp only [keepBits, wr_otp']

theorem stagesClear_otp (s : State) : (stagesClear s).sec.otp = s.sec.otp := by
  simp only [stagesClear, keepBits_otp, stageClear_otp, disown_otp]

theorem timeFromRtc_otp (s : State) : (timeFromRtc s).sec.otp = s.sec.otp := by
  unfold timeFromRtc
  split <;> simp only [ite_otp, ite_self, fresh_otp', set_otp']

theorem rowRepair_otp (s : State) (e : Nat × Nat) : (rowRepair s e).sec.otp = s.sec.otp := by
  simp only [rowRepair, ite_otp, ite_self, log_otp]

theorem sramRepair_otp (s : State) (deep : Bool) : (sramRepair s deep).sec.otp = s.sec.otp := by
  simp only [sramRepair, foldl_otp, implies_true, rowRepair_otp, log_otp]

theorem selfTest_otp (s : State) (clusters : Nat) : (selfTest s clusters).sec.otp = s.sec.otp := by
  simp only [selfTest, ite_otp, ite_self, foldl_otp, implies_true, log_otp]

theorem watchRt_otp (s : State) (l : List Nat) (n : Nat) : (watchRt s l n).sec.otp = s.sec.otp := by
  simp only [watchRt, foldl_otp, implies_true, setKp_otp]

theorem watchMain_otp (s : State) (n : Nat) : (watchMain s n).sec.otp = s.sec.otp := by
  simp only [watchMain, setKp_otp]

theorem resetRecord_otp (s : State) (c : Cause) (time : Time) (tq stages : Nat) :
    (resetRecord s c time tq stages).sec.otp = s.sec.otp := by
  simp only [resetRecord, fresh_otp', setPs_otp]

theorem startNotes_otp (s : State) (c : Cause) : (startNotes s c).sec.otp = s.sec.otp := by
  simp only [startNotes, foldl_otp, implies_true, setPs_otp, log_otp]

theorem resetReport_otp (s : State) : (resetReport s).sec.otp = s.sec.otp := by
  simp only [resetReport, setPs_otp, log_otp]

theorem newCycle_otp (s : State) : (newCycle s).sec.otp = s.sec.otp := by
  simp only [newCycle, setEv_otp]

theorem opResume_otp (s : State) : (opResume s).sec.otp = s.sec.otp := by
  simp only [opResume, ite_otp, ite_self, setEv_otp]

theorem lifeChange_otp (s : State) (old new_ : Nat) (staged : Option Nat) :
    (lifeChange s old new_ staged).sec.otp = s.sec.otp := by
  simp only [lifeChange, ite_otp, ite_self, setObjN_otp', wr64_otp', setSec_otp, cryptoErase_otp,
    wr_otp', setImg_otp, set_otp', log_otp, setUpd_otp]

theorem assertMain_otp (s : State) (c : Cause) : (assertMain s c).sec.otp = s.sec.otp := by
  simp only [assertMain]
  split <;> simp only [ite_otp, ite_self, opResume_otp, pwrCount_otp, intakeCut_otp, set_otp',
    stagesClear_otp, stagesHold_otp, log_otp, survivors_otp, clocksReset_otp, resetRecord_otp,
    lifeChange_otp, newCycle_otp, flashCut_otp, timeFromRtc_otp]

theorem integrityTake_otp (s : State) (c : Cause) : (integrityTake s c).sec.otp = s.sec.otp := by
  simp only [integrityTake, put_otp']

theorem roleTake_otp (s : State) : (roleTake s).sec.otp = s.sec.otp := by
  simp only [roleTake, ite_otp, ite_self, syncMaster_otp, wr64_otp', setFab_otp, set_otp']

theorem blankStart_otp (s : State) : (blankStart s).sec.otp = s.sec.otp := by
  simp only [blankStart, setObjN_otp', timingDerive_otp, set_otp', canEnable_otp]

theorem stopStart_otp (s : State) : (stopStart s).sec.otp = s.sec.otp := by
  simp only [stopStart, ite_otp, ite_self, fire_otp, stopDiffer_otp, stopEvaluate_otp, set_otp']

theorem servicesStart_otp (s : State) : (servicesStart s).sec.otp = s.sec.otp := by
  simp only [servicesStart, ite_otp, ite_self, setPs_otp, pwrBit_otp', setMode_otp,
    shutdownStart_otp]

theorem emberCompare_otp (s : State) : (emberCompare s).sec.otp = s.sec.otp := by
  simp only [emberCompare, ite_otp, ite_self, foldl_otp, implies_true, fire_otp, nmi_otp, log_otp,
    count_otp']

theorem deviceKey_otp (s : State) (c : Cause) : (deviceKey s c).sec.otp = s.sec.otp := by
  simp only [deviceKey, ite_otp, ite_self, set_otp', log_otp]

theorem startUp_otpKept {o : Otp} {s : State} (c : Cause) (h : o.Kept s.sec.otp) :
    o.Kept (startUp s c).sec.otp := by
  simp only [startUp, ite_otp, ite_self, fresh_otp', servicesStart_otp, integrityTake_otp,
    restoreAll_otpKept, imagesBefore_otp, steerReset_otp, setPs_otp, recordsCheck_otp,
    resetReport_otp, watchRt_otp, setCeilings_otp, watchMain_otp, govReset_otp, setMode_otp,
    startNotes_otp, put_otp', stopStart_otp, selfTest_otp, roleTake_otp, ceEnable_otp,
    blankStart_otp, bootLink_otp, Otp.kept_ite, h]

theorem mainReset_otpKept {o : Otp} {s : State} (c : Cause) (h : o.Kept s.sec.otp) :
    o.Kept (mainReset s c).sec.otp := by
  simp only [mainReset, ite_otp, ite_self, sramRepair_otp, log_otp, pwrBit_otp', assertMain_otp,
    setPwr_otp, emberCompare_otp, startUp_otpKept, deviceKey_otp, h]

theorem fusionClear_otp (s : State) : (fusionClear s).sec.otp = s.sec.otp := by
  simp only [fusionClear, foldl_otp, implies_true, wr_otp', set_otp']

theorem gnssClear_otp (s : State) : (gnssClear s).sec.otp = s.sec.otp := otp_eq rfl

theorem clusterReset_otp (s : State) (clusters wake : Nat) :
    (clusterReset s clusters wake).sec.otp = s.sec.otp := by
  simp only [clusterReset, ite_otp, ite_self, foldl_otp, implies_true, targetLoss_otp, setPs_otp,
    resetReport_otp, fusionClear_otp, setMode_otp, gnssClear_otp, selfTest_otp, resetRecord_otp]

theorem engineClear_otp (s : State) : (engineClear s).sec.otp = s.sec.otp := by
  simp only [engineClear, foldl_otp, implies_true, wr_otp', set_otp', clearAll_otp]

theorem rtReset_otp (s : State) (cores : List Nat) : (rtReset s cores).sec.otp = s.sec.otp := by
  simp only [rtReset, foldl_otp, implies_true, targetLoss_otp, steerReset_otp, engineClear_otp,
    resetReport_otp, watchRt_otp, stagesHold_otp, govReset_otp, gnssClear_otp, resetRecord_otp,
    ceEnable_otp]

theorem keeperReset_otp (s : State) : (keeperReset s).sec.otp = s.sec.otp := by
  simp only [keeperReset, ite_otp, ite_self, foldl_otp, implies_true, intakeCut_otp, fresh_otp',
    imagesBefore_otp, resetReport_otp, watchRt_otp, watchMain_otp, remoteEnd_otp, setDict_otp,
    resetRecord_otp, bootLink_otp, setKp_otp]

theorem powerOff_otp (s : State) (target : Nat) (byLimit : Bool) :
    (powerOff s target byLimit).sec.otp = s.sec.otp := by
  unfold powerOff
  rw [setKp_otp, procs_otp, setPs_otp, pwrBit_otp', setEv_otp, spillRest_otp,
    eventDrain_otp, log_otp, pilotWrite_otp, panelHalt_otp, log_otp, setPs_otp]

theorem powerDown_otp (s : State) (target : Nat) (byLimit : Bool) :
    (powerDown s target byLimit).sec.otp = s.sec.otp := by
  simp only [powerDown, powerOff_otp, disarmAll_otp, passTo_otp]

theorem settle_otpKept {o : Otp} {s : State} (h : o.Kept s.sec.otp) :
    o.Kept (settle s).sec.otp := by
  simp only [settle]
  split <;> simp only [ite_otp, ite_self, powerDown_otp, clusterReset_otp, setPs_otp,
    mainReset_otpKept, keeperReset_otp, Otp.kept_ite, h]

theorem findings_otp (s : State) (f : Found) : (findings s f).sec.otp = s.sec.otp := otp_eq rfl

theorem wait_otp (s : State) (ns : Nat) : (wait s ns).sec.otp = s.sec.otp := by
  simp only [wait, passTo_otp]

theorem execPowerOnReset_slotsKept (s : State) (ign away : Nat) (found : Found) :
    SlotsKept s.sec.otp (execPowerOnReset ign away found s) := by
  simp only [execPowerOnReset, slotsKept_next, wait_otp, findings_otp, mainReset_otpKept, setPwr_otp, Otp.kept_refl]

theorem execPinReset_slotsKept (s : State) (low : Nat) (found : Found) :
    SlotsKept s.sec.otp (execPinReset low found s) := by
  simp only [execPinReset, slotsKept_ite, ite_self, slotsKept_next, fresh_otp', wait_otp, findings_otp,
    mainReset_otpKept, Otp.kept_refl]

theorem execHoldupExhausted_slotsKept (s : State) : SlotsKept s.sec.otp (execHoldupExhausted s) := by
  simp only [execHoldupExhausted, slotsKept_ite, ite_self, slotsKept_next, assertMain_otp, setMode_otp, Otp.kept_refl]

theorem execStartPermitted_slotsKept (s : State) (decivolt : Nat) (found : Found) :
    SlotsKept s.sec.otp (execStartPermitted decivolt found s) := by
  simp only [execStartPermitted, slotsKept_ite, ite_self, slotsKept_next, powerOff_otp, findings_otp,
    startUp_otpKept, vbatMeasured_otp, Otp.kept_refl]

theorem execIgnRise_slotsKept (s : State) (inputs away : Nat) (found : Found) :
    SlotsKept s.sec.otp (execIgnRise inputs away found s) := by
  simp only [execIgnRise, slotsKept_ite, slotsKept_next, wait_otp, setPwr_otp, Otp.kept_refl]
  (repeat' split) <;> simp only [slotsKept_next, settle_otpKept, wait_otp, findings_otp, log_otp,
    pwrBit_otp', mainReset_otpKept, setPwr_otp, sleepLeave_otp, Otp.kept_refl]

theorem execIgnFall_slotsKept (s : State) : SlotsKept s.sec.otp (execIgnFall s) := by
  simp only [execIgnFall, ite_otp, ite_self, slotsKept_next, powerDown_otp, log_otp, shutdownStart_otp,
    setPwr_otp, Otp.kept_refl]

theorem execShutdownTimeEnd_slotsKept (s : State) : SlotsKept s.sec.otp (execShutdownTimeEnd s) := by
  simp only [execShutdownTimeEnd, slotsKept_ite, ite_self, slotsKept_next, powerDown_otp, passTo_otp, Otp.kept_refl]

theorem execApplicationStart_slotsKept (s : State) : SlotsKept s.sec.otp (execApplicationStart s) := by
  simp only [execApplicationStart, ite_otp, ite_self, slotsKept_next, setPs_otp, whenApp_slotsKept, Otp.kept_refl]

theorem execSleepWake_slotsKept (s : State) (source : Nat) : SlotsKept s.sec.otp (execSleepWake source s) := by
  simp only [execSleepWake, slotsKept_ite, ite_otp, ite_self, slotsKept_next, ring_otp, settle_otpKept,
    sleepLeave_otp, Otp.kept_refl]

theorem execDeepWake_slotsKept (s : State) (source away : Nat) (found : Found) :
    SlotsKept s.sec.otp (execDeepWake source away found s) := by
  simp only [execDeepWake, slotsKept_ite, ite_otp, ite_self, slotsKept_next, devTo_otp, wait_otp,
    findings_otp, mainReset_otpKept, Otp.kept_refl]

theorem badKick_otp (s : State) : (badKick s).sec.otp = s.sec.otp := by
  simp only [badKick, setKp_otp]

theorem watchdogKick_otp (s : State) (who w : Nat) (v : Word) : (watchdogKick s who w v).sec.otp = s.sec.otp := by
  simp only [watchdogKick, ite_otp, ite_self, badKick_otp, watchRt_otp, watchMain_otp]

theorem execWatchdogKick_slotsKept (s : State) (who w : Nat) (value : Word) :
    SlotsKept s.sec.otp (execWatchdogKick who w value s) := by
  simp only [execWatchdogKick, slotsKept_next, watchdogKick_otp, Otp.kept_refl]

theorem kpCount_otp (s : State) (k : Nat) : (kpCount s k).sec.otp = s.sec.otp := by
  simp only [kpCount, setKp_otp]

theorem mainExpiry_otpKept {o : Otp} {s : State} (h : o.Kept s.sec.otp) :
    o.Kept (mainExpiry s).sec.otp := by
  simp only [mainExpiry, ite_otp, ite_self, log_otp, assertMain_otp, setMode_otp, mainReset_otpKept,
    setKp_otp, Otp.kept_ite, h]

theorem execWatchdogExpiry_slotsKept (s : State) (w : Nat) : SlotsKept s.sec.otp (execWatchdogExpiry w s) := by
  simp only [execWatchdogExpiry]
  split <;> simp only [ite_otp, ite_self, slotsKept_next, mainExpiry_otpKept, rtReset_otp, log_otp,
    passTo_otp, kpCount_otp, keeperReset_otp, Otp.kept_refl, Otp.kept_ite]

theorem execClockLossRetry_slotsKept (s : State) (passes : Bool) :
    SlotsKept s.sec.otp (execClockLossRetry passes s) := by
  unfold execClockLossRetry
  split <;> simp only [slotsKept_ite, ite_self, slotsKept_next, sysReference_otp, lockShow_otp, passTo_otp,
    startUp_otpKept, setKp_otp, Otp.kept_refl]

theorem execLockstepMismatch_slotsKept (s : State) (pair : Nat) :
    SlotsKept s.sec.otp (execLockstepMismatch pair s) := by
  simp only [execLockstepMismatch, slotsKept_ite, ite_self, slotsKept_next, rtReset_otp, log_otp, Otp.kept_refl]

theorem execThermalShutdownAct_slotsKept (s : State) : SlotsKept s.sec.otp (execThermalShutdownAct s) := by
  unfold execThermalShutdownAct
  split
  · exact slotsKept_of_otp rfl
  · refine slotsKept_of_otp ?_
    rw [pilotWrite_otp, setKp_otp, procs_otp, setPs_otp, setMode_otp, assertMain_otp, panelHalt_otp, setTh_otp,
      disarmAll_otp, passTo_otp]

/-! Machine/DictRows.lean -/

theorem ask_slotsKept (s : State) (q : Req) (op index sub typ aux : Nat) (data : List Byte) (fails : Option Nat) :
    SlotsKept s.sec.otp (ask s q op index sub typ aux data fails) := by
  simp only [ask, slotsKept_next, settle_otpKept, request_otpKept, Otp.kept_refl]

theorem execRead_slotsKept (s : State) (q : Req) (index sub : Nat) :
    SlotsKept s.sec.otp (execRead q index sub s) := by
  simp only [execRead, ask_slotsKept]

theorem execWrite_slotsKept (s : State) (q : Req) (index sub typ : Nat) (bytes : List Byte) :
    SlotsKept s.sec.otp (execWrite q index sub typ bytes s) := by
  simp only [execWrite, ask_slotsKept]

theorem execBlockRead_slotsKept (s : State) (q : Req) (index sub offset most : Nat) :
    SlotsKept s.sec.otp (execBlockRead q index sub offset most s) := by
  simp only [execBlockRead, ask_slotsKept]

theorem execBlockSeg_slotsKept (s : State) (q : Req) (index sub offset : Nat) (bytes : List Byte) :
    SlotsKept s.sec.otp (execBlockSeg q index sub offset bytes s) := by
  simp only [execBlockSeg, ask_slotsKept]

theorem execBlockEnd_slotsKept (s : State) (q : Req) (index sub typ total crc : Nat) :
    SlotsKept s.sec.otp (execBlockEnd q index sub typ total crc s) := by
  simp only [execBlockEnd, ask_slotsKept]

theorem execBlockSessionExpiry_slotsKept (s : State) (who index sub : Nat) :
    SlotsKept s.sec.otp (execBlockSessionExpiry who index sub s) := by
  simp only [execBlockSessionExpiry, slotsKept_next, sessionExpiry_otp, Otp.kept_refl]

theorem execSubscribe_slotsKept (s : State) (q : Req) (index sub period least : Nat) :
    SlotsKept s.sec.otp (execSubscribe q index sub period least s) := by
  simp only [execSubscribe, ask_slotsKept]

theorem execUnsubscribe_slotsKept (s : State) (q : Req) (id : Nat) :
    SlotsKept s.sec.otp (execUnsubscribe q id s) := by
  simp only [execUnsubscribe, ask_slotsKept]

theorem execPeriodicNotify_slotsKept (s : State) (id : Nat) : SlotsKept s.sec.otp (execPeriodicNotify id s) := by
  simp [execPeriodicNotify, slotsKept_next, whenServing_slotsKept, periodicNotify_otp, Otp.kept_refl]

theorem execNotifyKeepalive_slotsKept (s : State) (id : Nat) : SlotsKept s.sec.otp (execNotifyKeepalive id s) := by
  simp [execNotifyKeepalive, slotsKept_next, whenServing_slotsKept, keepaliveNotify_otp, Otp.kept_refl]

theorem execNotifyReceive_slotsKept (s : State) (peer id seq index sub typ : Nat) (bytes : List Byte) :
    SlotsKept s.sec.otp (execNotifyReceive peer id seq index sub typ bytes s) := by
  simp [execNotifyReceive, slotsKept_next, whenServing_slotsKept, notifyReceive_otp, Otp.kept_refl]

theorem execCommit_slotsKept (s : State) (q : Req) (index sub : Nat) (fails : Option Nat) :
    SlotsKept s.sec.otp (execCommit q index sub fails s) := by
  simp only [execCommit, ask_slotsKept]

theorem execDescribe_slotsKept (s : State) (q : Req) (index sub : Nat) :
    SlotsKept s.sec.otp (execDescribe q index sub s) := by
  simp only [execDescribe, ask_slotsKept]

theorem execDefaults_slotsKept (s : State) (q : Req) : SlotsKept s.sec.otp (execDefaults q s) := by
  simp only [execDefaults, ask_slotsKept]

theorem execRemoteResponse_slotsKept (s : State) (peer alive tag op status index sub typ aux : Nat)
    (bytes : List Byte) :
    SlotsKept s.sec.otp (execRemoteResponse peer alive tag op status index sub typ aux bytes s) := by
  simp [execRemoteResponse, slotsKept_next, whenServing_slotsKept, remoteResponse_otp, Otp.kept_refl]

theorem execRemoteTimeout_slotsKept (s : State) (tag : Nat) : SlotsKept s.sec.otp (execRemoteTimeout tag s) := by
  simp [execRemoteTimeout, slotsKept_next, whenServing_slotsKept, remoteTimeout_otp, Otp.kept_refl]

theorem execSlotClaim_slotsKept (s : State) : SlotsKept s.sec.otp (execSlotClaim s) := by
  simp only [execSlotClaim, slotsKept_next, slotClaim_otp, emit_otp', Otp.kept_refl]

theorem execMailboxGo_slotsKept (s : State) (slot waiting : Nat) (fails : Option Nat) :
    SlotsKept s.sec.otp (execMailboxGo slot waiting fails s) := by
  simp only [execMailboxGo, slotsKept_ite, ite_self, slotsKept_next, whenServing_slotsKept, mailboxGo_otpKept, Otp.kept_refl]

theorem execMailboxDone_slotsKept (s : State) (slot : Nat) : SlotsKept s.sec.otp (execMailboxDone slot s) := by
  simp only [execMailboxDone, slotsKept_ite, ite_self, slotsKept_next, whenServing_slotsKept, settle_otpKept,
    mailboxDone_otp, Otp.kept_refl]

theorem execMailboxRelease_slotsKept (s : State) (slot : Nat) : SlotsKept s.sec.otp (execMailboxRelease slot s) := by
  simp only [execMailboxRelease, slotsKept_ite, ite_self, slotsKept_next, settle_otpKept, mailboxRelease_otp, Otp.kept_refl]

theorem kpWrite_otpKept {o : Otp} {s : State} (who off : Nat) (v : Word) (h : o.Kept s.sec.otp) :
    o.Kept (kpWrite s who off v).sec.otp := by
  simp only [kpWrite, ite_otp, ite_self, watchdogKick_otp, settle_otpKept, mailboxGo_otpKept, mailboxRelease_otp,
    irqEnable_otp, plainWrite_otp, Otp.kept_ite, h]

theorem registerWrite_otpKept {o : Otp} {s : State} (who a size : Nat) (v : Word) (h : o.Kept s.sec.otp) :
    o.Kept (registerWrite s who a size v).sec.otp := by
  unfold registerWrite
  (repeat' split) <;> simp only [blockWrite_otp, busError_otp, gateWait_otp', kpWrite_otpKept,
    cvFeed_otp, h]

theorem execRegisterWrite_slotsKept (s : State) (who addr size : Nat) (value : Word) :
    SlotsKept s.sec.otp (execRegisterWrite who addr size value s) := by
  simp only [execRegisterWrite, slotsKept_ite, ite_self, slotsKept_next, registerWrite_otpKept, Otp.kept_refl]

theorem execCounterClear_slotsKept (s : State) (addr : Nat) : SlotsKept s.sec.otp (execCounterClear addr s) := by
  unfold execCounterClear
  split <;> simp only [slotsKept_ite, ite_self, slotsKept_next, fieldWrite_otp, Otp.kept_refl]

theorem execCanReceive_slotsKept (s : State) (c what id flags : Nat) (data : List Byte) (af sdt vcid : Nat)
    (t : Time) (tec rcnt : Nat) :
    SlotsKept s.sec.otp (execCanReceive c what id flags data af sdt vcid t tec rcnt s) := by
  simp only [execCanReceive, slotsKept_ite, ite_self, slotsKept_next, settle_otpKept, canReceive_otpKept,
    gated_slotsKept, Otp.kept_refl]

theorem execCanReassemblyTimeout_slotsKept (s : State) (c src : Nat) :
    SlotsKept s.sec.otp (execCanReassemblyTimeout c src s) := by
  simp only [execCanReassemblyTimeout, slotsKept_next, reassemblyTimeout_otp, Otp.kept_refl]

theorem mirrorFn_otp (s : State) (f : MirrorFn) : (mirrorFn s f).sec.otp = s.sec.otp := by
  simp only [mirrorFn, ite_otp, ite_self, setGovFn_otp]

theorem mirrorEstimate_otp (s : State) (e : Nat × Time × List F32) :
    (mirrorEstimate s e).sec.otp = s.sec.otp := by
  simp only [mirrorEstimate, ite_otp, ite_self, setQty_otp]

theorem mirrorSection_otp (s : State) (e : Nat × Time × Bool × Bool) :
    (mirrorSection s e).sec.otp = s.sec.otp := by
  simp only [mirrorSection, ite_otp, ite_self, setSect_otp]

theorem mirrorNode_otp (s : State) (e : Nat × Nat) : (mirrorNode s e).sec.otp = s.sec.otp := by
  unfold mirrorNode
  split <;> simp only [setNode_otp]

theorem mirrorWrites_otpKept {o : Otp} {s : State} (l : List (Nat × Nat × Nat × List Byte)) (h : o.Kept s.sec.otp) :
    o.Kept (l.foldl (fun (u : State) w => (writeOne u w.1 w.2.1 w.2.2.1 w.2.2.2).1) s).sec.otp :=
  foldl_otpKept (fun _ _ => writeOne_otpKept _ _ _ _) l h

theorem execMirrorReceive_slotsKept (s : State) (path seq : Nat) (block : MirrorBlock) :
    SlotsKept s.sec.otp (execMirrorReceive path seq block s) := by
  simp only [execMirrorReceive, slotsKept_ite, ite_otp, ite_self, foldl_otp, implies_true, slotsKept_next,
    settle_otpKept, mirrorFn_otp, setGovRule_otp, mirrorWrites_otpKept, setFab_otp, mirrorSection_otp,
    gated_slotsKept, mirrorEstimate_otp, mirrorNode_otp, sectUnsend_otp, Otp.kept_refl]

theorem chimneyTake_otp (s : State) (kind : Nat) (payload : List Byte) :
    (chimneyTake s kind payload).sec.otp = s.sec.otp := by
  unfold chimneyTake
  split <;> simp only [rtcmFrame_otp, tileMerge_otp, intakeFragment_otp]

theorem execChimneyInbound_slotsKept (s : State) (kind msgId : Nat) (payload : List Byte) (crcOk : Bool) :
    SlotsKept s.sec.otp (execChimneyInbound kind msgId payload crcOk s) := by
  simp only [execChimneyInbound, slotsKept_ite, ite_self, slotsKept_next, chimneyTake_otp, whenApp_slotsKept,
    chimneyCount_otp, emit_otp', Otp.kept_refl]

/-! Machine/ObjectRows.lean -/

theorem finish_slotsKept {o : Otp} {r : Ans} (h : o.Kept r.1.sec.otp) : SlotsKept o (finish r) := by
  simp only [finish, slotsKept_next, settle_otpKept, notifyChanges_otp, emit_otp', h]

theorem numberWrite_slotsKept (s : State) (index sub n : Nat) : SlotsKept s.sec.otp (numberWrite index sub n s) := by
  unfold numberWrite
  (repeat' split) <;> simp only [slotsKept_next, finish_slotsKept, writeOne_otpKept, Otp.kept_refl]

theorem bytesWrite_slotsKept (s : State) (index sub : Nat) (l : List Byte) :
    SlotsKept s.sec.otp (bytesWrite index sub l s) := by
  simp only [bytesWrite, slotsKept_ite, ite_self, slotsKept_next, finish_slotsKept, writeOne_otpKept, Otp.kept_refl]

theorem updateWrite_slotsKept {s : State} {effect : Ans} (h : effect.1.sec.otp = s.sec.otp) (sub t : Nat) :
    SlotsKept s.sec.otp (updateWrite sub t effect s) := by
  have hs : s.sec.otp.Kept s.sec.otp := Otp.kept_refl _
  have heffect : s.sec.otp.Kept effect.1.sec.otp := by rw [h]; exact hs
  unfold updateWrite
  (repeat' split) <;> simp only [slotsKept_next, finish_slotsKept, checkedBy_otpKept hs heffect, hs]

theorem execOpenEntry_slotsKept (s : State) (entry : Nat) : SlotsKept s.sec.otp (execOpenEntry entry s) := by
  simp only [execOpenEntry, numberWrite_slotsKept]

theorem execTrellisEntryWrite_slotsKept (s : State) (entry : Nat) (bytes : List Byte) :
    SlotsKept s.sec.otp (execTrellisEntryWrite entry bytes s) := by
  simp only [execTrellisEntryWrite, slotsKept_ite, ite_self, slotsKept_next, bytesWrite_slotsKept, Otp.kept_refl]

theorem execCommitRequest_slotsKept (s : State) : SlotsKept s.sec.otp (execCommitRequest s) := by
  simp only [execCommitRequest, numberWrite_slotsKept]

theorem execCancel_slotsKept (s : State) : SlotsKept s.sec.otp (execCancel s) := by
  simp only [execCancel, numberWrite_slotsKept]

theorem execPrepare_slotsKept (s : State) (boundary : Time) : SlotsKept s.sec.otp (execPrepare boundary s) := by
  simp only [execPrepare, numberWrite_slotsKept]

theorem execGo_slotsKept (s : State) : SlotsKept s.sec.otp (execGo s) := by
  simp only [execGo, numberWrite_slotsKept]

theorem execRingConfigWrite_slotsKept (s : State) (ring : Nat) (bytes : List Byte) :
    SlotsKept s.sec.otp (execRingConfigWrite ring bytes s) := by
  simp only [execRingConfigWrite, slotsKept_ite, ite_self, slotsKept_next, bytesWrite_slotsKept, Otp.kept_refl]

theorem execQuantityReset_slotsKept (s : State) (q : Nat) : SlotsKept s.sec.otp (execQuantityReset q s) := by
  simp only [execQuantityReset, slotsKept_ite, ite_self, slotsKept_next, numberWrite_slotsKept, Otp.kept_refl]

theorem execTimeWrite_slotsKept (s : State) (t : Time) : SlotsKept s.sec.otp (execTimeWrite t s) := by
  simp only [execTimeWrite, numberWrite_slotsKept]

theorem execGovernorEnable_slotsKept (s : State) (value : Nat) :
    SlotsKept s.sec.otp (execGovernorEnable value s) := by
  simp only [execGovernorEnable, numberWrite_slotsKept]

theorem execTaskOpen_slotsKept (s : State) (task : Nat) : SlotsKept s.sec.otp (execTaskOpen task s) := by
  simp only [execTaskOpen, numberWrite_slotsKept]

theorem execTaskClose_slotsKept (s : State) : SlotsKept s.sec.otp (execTaskClose s) := by
  simp only [execTaskClose, numberWrite_slotsKept]

theorem execRecordingStart_slotsKept (s : State) : SlotsKept s.sec.otp (execRecordingStart s) := by
  simp only [execRecordingStart, numberWrite_slotsKept]

theorem execTaskExport_slotsKept (s : State) (task : Nat) : SlotsKept s.sec.otp (execTaskExport task s) := by
  simp only [execTaskExport, numberWrite_slotsKept]

theorem execTaskDelete_slotsKept (s : State) (task : Nat) : SlotsKept s.sec.otp (execTaskDelete task s) := by
  simp only [execTaskDelete, numberWrite_slotsKept]

theorem execSectionModeWrite_slotsKept (s : State) (section_ value : Nat) :
    SlotsKept s.sec.otp (execSectionModeWrite section_ value s) := by
  simp only [execSectionModeWrite, slotsKept_ite, ite_self, slotsKept_next, numberWrite_slotsKept, Otp.kept_refl]

theorem execEngageRequest_slotsKept (s : State) (value : Nat) : SlotsKept s.sec.otp (execEngageRequest value s) := by
  simp only [execEngageRequest, numberWrite_slotsKept]

theorem execLineGeometryWrite_slotsKept (s : State) (bytes : List Byte) :
    SlotsKept s.sec.otp (execLineGeometryWrite bytes s) := by
  simp only [execLineGeometryWrite, bytesWrite_slotsKept]

theorem execAcceptReplacement_slotsKept (s : State) (id : Nat) :
    SlotsKept s.sec.otp (execAcceptReplacement id s) := by
  simp only [execAcceptReplacement, numberWrite_slotsKept]

theorem execEpochReset_slotsKept (s : State) (value : Nat) : SlotsKept s.sec.otp (execEpochReset value s) := by
  simp only [execEpochReset, numberWrite_slotsKept]

theorem execClearRetirementList_slotsKept (s : State) : SlotsKept s.sec.otp (execClearRetirementList s) := by
  simp only [execClearRetirementList, numberWrite_slotsKept]

theorem execIntegrityProfileWrite_slotsKept (s : State) (sub value : Nat) :
    SlotsKept s.sec.otp (execIntegrityProfileWrite sub value s) := by
  simp only [execIntegrityProfileWrite, numberWrite_slotsKept]

theorem execGeometryWrite_slotsKept (s : State) (sub value : Nat) :
    SlotsKept s.sec.otp (execGeometryWrite sub value s) := by
  simp only [execGeometryWrite, slotsKept_ite, ite_self, slotsKept_next, numberWrite_slotsKept, Otp.kept_refl]

theorem execSystemReset_slotsKept (s : State) (value : Nat) : SlotsKept s.sec.otp (execSystemReset value s) := by
  simp only [execSystemReset, numberWrite_slotsKept]

theorem execClusterReset_slotsKept (s : State) (value : Nat) : SlotsKept s.sec.otp (execClusterReset value s) := by
  simp only [execClusterReset, numberWrite_slotsKept]

theorem execStateRequest_slotsKept (s : State) (value : Nat) : SlotsKept s.sec.otp (execStateRequest value s) := by
  simp only [execStateRequest, numberWrite_slotsKept]

theorem execChallengeRead_slotsKept (s : State) : SlotsKept s.sec.otp (execChallengeRead s) := by
  simp only [execChallengeRead, slotsKept_ite, ite_self, slotsKept_next, challengeRead_otp, emit_otp', Otp.kept_refl]

theorem execTokenWrite_slotsKept (s : State) (bytes : List Byte) : SlotsKept s.sec.otp (execTokenWrite bytes s) := by
  simp only [execTokenWrite, bytesWrite_slotsKept]

theorem execTransitionRequest_slotsKept (s : State) (value : Nat) :
    SlotsKept s.sec.otp (execTransitionRequest value s) := by
  simp only [execTransitionRequest, numberWrite_slotsKept]

theorem execSerialStaging_slotsKept (s : State) (number : Nat) :
    SlotsKept s.sec.otp (execSerialStaging number s) := by
  simp only [execSerialStaging, numberWrite_slotsKept]

theorem execSlotHashWrite_slotsKept (s : State) (bytes : List Byte) :
    SlotsKept s.sec.otp (execSlotHashWrite bytes s) := by
  simp only [execSlotHashWrite, bytesWrite_slotsKept]

theorem execSlotKeyWrite_slotsKept (s : State) (bytes : List Byte) :
    SlotsKept s.sec.otp (execSlotKeyWrite bytes s) := by
  simp only [execSlotKeyWrite, bytesWrite_slotsKept]

theorem execDebugClose_slotsKept (s : State) : SlotsKept s.sec.otp (execDebugClose s) := by
  simp only [execDebugClose, numberWrite_slotsKept]

theorem execIntakeFragment_slotsKept (s : State) (source : Nat) (bytes : List Byte) :
    SlotsKept s.sec.otp (execIntakeFragment source bytes s) := by
  simp only [execIntakeFragment, slotsKept_ite, ite_self, slotsKept_next, whenServing_slotsKept, flueSendOn_otp,
    bytesWrite_slotsKept, emit_otp', intakeFragment_otp, Otp.kept_refl]

theorem execUpdateAbort_slotsKept (s : State) (t : Nat) : SlotsKept s.sec.otp (execUpdateAbort t s) := by
  simp only [execUpdateAbort, numberWrite_slotsKept]

theorem execRelayRequest_slotsKept (s : State) (t : Nat) (seen : List (Nat × Nat)) :
    SlotsKept s.sec.otp (execRelayRequest t seen s) :=
  updateWrite_slotsKept (by simp only [ite_otp, ite_fst, ite_self, relayRequest_otp]) 4 t

theorem execActivate_slotsKept (s : State) (t : Nat) : SlotsKept s.sec.otp (execActivate t s) := by
  simp only [execActivate, numberWrite_slotsKept]

theorem execConfirm_slotsKept (s : State) (t : Nat) : SlotsKept s.sec.otp (execConfirm t s) := by
  simp only [execConfirm, numberWrite_slotsKept]

theorem execRollBack_slotsKept (s : State) (t : Nat) : SlotsKept s.sec.otp (execRollBack t s) := by
  simp only [execRollBack, numberWrite_slotsKept]

/-! The commands together -/

theorem exec_slotsKept (c : Instr) (s : State) : SlotsKept s.sec.otp (exec c s) := by
  cases c with
  | registerWrite => exact execRegisterWrite_slotsKept ..
  | counterClear => exact execCounterClear_slotsKept ..
  | openEntry => exact execOpenEntry_slotsKept ..
  | trellisEntryWrite => exact execTrellisEntryWrite_slotsKept ..
  | commitRequest => exact execCommitRequest_slotsKept ..
  | cancel => exact execCancel_slotsKept ..
  | prepare => exact execPrepare_slotsKept ..
  | go => exact execGo_slotsKept ..
  | epochBoundaryCommit => exact execEpochBoundaryCommit_slotsKept ..
  | ringConfigWrite => exact execRingConfigWrite_slotsKept ..
  | stopInputChange => exact execStopInputChange_slotsKept ..
  | stopBandTimeout => exact execStopBandTimeout_slotsKept ..
  | stopFrameRepeat => exact execStopFrameRepeat_slotsKept ..
  | stopFrameReceive => exact execStopFrameReceive_slotsKept ..
  | softwareStop => exact execSoftwareStop_slotsKept ..
  | stopRemoteExpiry => exact execStopRemoteExpiry_slotsKept ..
  | stopRelease => exact execStopRelease_slotsKept ..
  | rearm => exact execRearm_slotsKept ..
  | stopDiscrepancy => exact execStopDiscrepancy_slotsKept ..
  | frameBoundary => exact execFrameBoundary_slotsKept ..
  | ceEnable => exact execCeEnable_slotsKept ..
  | ceDisable => exact execCeDisable_slotsKept ..
  | loopRun => exact execLoopRun_slotsKept ..
  | loopStop => exact execLoopStop_slotsKept ..
  | loopApply => exact execLoopApply_slotsKept ..
  | loopTripclr => exact execLoopTripclr_slotsKept ..
  | reclaim => exact execReclaim_slotsKept ..
  | reclaimFrame => exact execReclaimFrame_slotsKept ..
  | statusFrameReceive => exact execStatusFrameReceive_slotsKept ..
  | stageLinkLoss => exact execStageLinkLoss_slotsKept ..
  | stageLinkReturn => exact execStageLinkReturn_slotsKept ..
  | sdOnCommand => exact execSdOnCommand_slotsKept ..
  | sdOffCommand => exact execSdOffCommand_slotsKept ..
  | sdModeWrite => exact execSdModeWrite_slotsKept ..
  | pullinGrant => exact execPullinGrant_slotsKept ..
  | peakReached => exact execPeakReached_slotsKept ..
  | tpkMaxExpiry => exact execTpkMaxExpiry_slotsKept ..
  | peakDwellEnd => exact execPeakDwellEnd_slotsKept ..
  | decayEnd => exact execDecayEnd_slotsKept ..
  | pullinWaitLate => exact execPullinWaitLate_slotsKept ..
  | sdPwmCycleStart => exact execSdPwmCycleStart_slotsKept ..
  | sdPwmOnEnd => exact execSdPwmOnEnd_slotsKept ..
  | sdClampEventEnd => exact execSdClampEventEnd_slotsKept ..
  | sdBucketLeak => exact execSdBucketLeak_slotsKept ..
  | bankUnlock => exact execBankUnlock_slotsKept ..
  | bankSwitchClear => exact execBankSwitchClear_slotsKept ..
  | bankArm => exact execBankArm_slotsKept ..
  | bankDisarm => exact execBankDisarm_slotsKept ..
  | bankSwitchLimit => exact execBankSwitchLimit_slotsKept ..
  | bankSwitchTrip => exact execBankSwitchTrip_slotsKept ..
  | sdOverCurrent => exact execSdOverCurrent_slotsKept ..
  | sdOpenLoad => exact execSdOpenLoad_slotsKept ..
  | sdFclr => exact execSdFclr_slotsKept ..
  | stageHoldEntry => exact execStageHoldEntry_slotsKept ..
  | bankHoldExpiry => exact execBankHoldExpiry_slotsKept ..
  | bankFailOffDisarm => exact execBankFailOffDisarm_slotsKept ..
  | loadDumpEntry => exact execLoadDumpEntry_slotsKept ..
  | loadDumpEnd => exact execLoadDumpEnd_slotsKept ..
  | sdDieReset => exact execSdDieReset_slotsKept ..
  | lsSwitchOn => exact execLsSwitchOn_slotsKept ..
  | lsSwitchOff => exact execLsSwitchOff_slotsKept ..
  | lsModeWrite => exact execLsModeWrite_slotsKept ..
  | lsPwmCycleStart => exact execLsPwmCycleStart_slotsKept ..
  | lsPwmOnEnd => exact execLsPwmOnEnd_slotsKept ..
  | inrushWindowEnd => exact execInrushWindowEnd_slotsKept ..
  | lsLimit => exact execLsLimit_slotsKept ..
  | lsThermalShutdown => exact execLsThermalShutdown_slotsKept ..
  | lsAutoRestart => exact execLsAutoRestart_slotsKept ..
  | lsRestartCountReset => exact execLsRestartCountReset_slotsKept ..
  | lsFclr => exact execLsFclr_slotsKept ..
  | lsClampEventEnd => exact execLsClampEventEnd_slotsKept ..
  | lsBucketLeak => exact execLsBucketLeak_slotsKept ..
  | lsUnlock => exact execLsUnlock_slotsKept ..
  | openLoadOn => exact execOpenLoadOn_slotsKept ..
  | openLoadOff => exact execOpenLoadOff_slotsKept ..
  | shortToBattery => exact execShortToBattery_slotsKept ..
  | groupArm => exact execGroupArm_slotsKept ..
  | groupDisarm => exact execGroupDisarm_slotsKept ..
  | groupHoldExpiry => exact execGroupHoldExpiry_slotsKept ..
  | lsDeferralEntry => exact execLsDeferralEntry_slotsKept ..
  | lsDeferralEnd => exact execLsDeferralEnd_slotsKept ..
  | powerGroundLoss => exact execPowerGroundLoss_slotsKept ..
  | logicGroundLoss => exact execLogicGroundLoss_slotsKept ..
  | lsDieReset => exact execLsDieReset_slotsKept ..
  | aiSample => exact execAiSample_slotsKept ..
  | aiConfigWrite => exact execAiConfigWrite_slotsKept ..
  | aiLatchedFault => exact execAiLatchedFault_slotsKept ..
  | aiFclr => exact execAiFclr_slotsKept ..
  | supplyFault => exact execSupplyFault_slotsKept ..
  | supplyClear => exact execSupplyClear_slotsKept ..
  | pulseEdge => exact execPulseEdge_slotsKept ..
  | pulsePublication => exact execPulsePublication_slotsKept ..
  | piCountClear => exact execPiCountClear_slotsKept ..
  | bridgeConversion => exact execBridgeConversion_slotsKept ..
  | bridgeSenseOpen => exact execBridgeSenseOpen_slotsKept ..
  | bridgeSenseRestore => exact execBridgeSenseRestore_slotsKept ..
  | lossImpact => exact execLossImpact_slotsKept ..
  | lossIntervalEnd => exact execLossIntervalEnd_slotsKept ..
  | imuSample => exact execImuSample_slotsKept ..
  | imuFault => exact execImuFault_slotsKept ..
  | fusionEpoch => exact execFusionEpoch_slotsKept ..
  | slotSample => exact execSlotSample_slotsKept ..
  | disputeHorizon => exact execDisputeHorizon_slotsKept ..
  | quantityReset => exact execQuantityReset_slotsKept ..
  | slotConfigApply => exact execSlotConfigApply_slotsKept ..
  | calibrationUpdate => exact execCalibrationUpdate_slotsKept ..
  | calibrationStore => exact execCalibrationStore_slotsKept ..
  | fusionJobSubmit => exact execFusionJobSubmit_slotsKept ..
  | fusionJobStart => exact execFusionJobStart_slotsKept ..
  | fusionJobComplete => exact execFusionJobComplete_slotsKept ..
  | fusionCqAck => exact execFusionCqAck_slotsKept ..
  | fusionJobAbort => exact execFusionJobAbort_slotsKept ..
  | camFeedFault => exact execCamFeedFault_slotsKept ..
  | camFeedSwitch => exact execCamFeedSwitch_slotsKept ..
  | csiPacket => exact execCsiPacket_slotsKept ..
  | camFrameStart => exact execCamFrameStart_slotsKept ..
  | mergeTimeout => exact execMergeTimeout_slotsKept ..
  | camFrameEnd => exact execCamFrameEnd_slotsKept ..
  | tapAck => exact execTapAck_slotsKept ..
  | frameSyncEdge => exact execFrameSyncEdge_slotsKept ..
  | camApply => exact execCamApply_slotsKept ..
  | camEnable => exact execCamEnable_slotsKept ..
  | camLinkLoss => exact execCamLinkLoss_slotsKept ..
  | camLinkRegain => exact execCamLinkRegain_slotsKept ..
  | replayFrame => exact execReplayFrame_slotsKept ..
  | i2cTransferStart => exact execI2cTransferStart_slotsKept ..
  | i2cTransferEnd => exact execI2cTransferEnd_slotsKept ..
  | antennaShort => exact execAntennaShort_slotsKept ..
  | antennaRetry => exact execAntennaRetry_slotsKept ..
  | antennaOpen => exact execAntennaOpen_slotsKept ..
  | antennaClear => exact execAntennaClear_slotsKept ..
  | acqGo => exact execAcqGo_slotsKept ..
  | acqDone => exact execAcqDone_slotsKept ..
  | channelEnable => exact execChannelEnable_slotsKept ..
  | channelDisable => exact execChannelDisable_slotsKept ..
  | channelDump => exact execChannelDump_slotsKept ..
  | dumpInterrupt => exact execDumpInterrupt_slotsKept ..
  | ncoCommit => exact execNcoCommit_slotsKept ..
  | dumpAck => exact execDumpAck_slotsKept ..
  | measLatch => exact execMeasLatch_slotsKept ..
  | navMessage => exact execNavMessage_slotsKept ..
  | positionFix => exact execPositionFix_slotsKept ..
  | rtcmFrame => exact execRtcmFrame_slotsKept ..
  | correctionsOld => exact execCorrectionsOld_slotsKept ..
  | timeLocked => exact execTimeLocked_slotsKept ..
  | timeHoldover => exact execTimeHoldover_slotsKept ..
  | timeFreerun => exact execTimeFreerun_slotsKept ..
  | timeWrite => exact execTimeWrite_slotsKept ..
  | tpoPulse => exact execTpoPulse_slotsKept ..
  | tpiEdge => exact execTpiEdge_slotsKept ..
  | slewWrite => exact execSlewWrite_slotsKept ..
  | stepArm => exact execStepArm_slotsKept ..
  | stepCancel => exact execStepCancel_slotsKept ..
  | stepPending => exact execStepPending_slotsKept ..
  | timeStepExecute => exact execTimeStepExecute_slotsKept ..
  | governorEnable => exact execGovernorEnable_slotsKept ..
  | governorTick => exact execGovernorTick_slotsKept ..
  | freezeEnd => exact execFreezeEnd_slotsKept ..
  | settleInstant => exact execSettleInstant_slotsKept ..
  | governorWindowEnd => exact execGovernorWindowEnd_slotsKept ..
  | taskOpen => exact execTaskOpen_slotsKept ..
  | taskClose => exact execTaskClose_slotsKept ..
  | recordingStart => exact execRecordingStart_slotsKept ..
  | taskDelete => exact execTaskDelete_slotsKept ..
  | taskExport => exact execTaskExport_slotsKept ..
  | exportEnd => exact execExportEnd_slotsKept ..
  | tileShare => exact execTileShare_slotsKept ..
  | remoteTileMerge => exact execRemoteTileMerge_slotsKept ..
  | gatehouseTick => exact execGatehouseTick_slotsKept ..
  | sectionModeWrite => exact execSectionModeWrite_slotsKept ..
  | ghCommandSubmit => exact execGhCommandSubmit_slotsKept ..
  | ghCommandExecute => exact execGhCommandExecute_slotsKept ..
  | ghFlush => exact execGhFlush_slotsKept ..
  | ghDisable => exact execGhDisable_slotsKept ..
  | ghEpochWrite => exact execGhEpochWrite_slotsKept ..
  | steeringTick => exact execSteeringTick_slotsKept ..
  | engageRequest => exact execEngageRequest_slotsKept ..
  | lineGeometryWrite => exact execLineGeometryWrite_slotsKept ..
  | steeringWatch => exact execSteeringWatch_slotsKept ..
  | portLinkChange => exact execPortLinkChange_slotsKept ..
  | helloSend => exact execHelloSend_slotsKept ..
  | helloReceive => exact execHelloReceive_slotsKept ..
  | assignReceive => exact execAssignReceive_slotsKept ..
  | bindingRelease => exact execBindingRelease_slotsKept ..
  | flueFrameForward => exact execFlueFrameForward_slotsKept ..
  | ringchkFlood => exact execRingchkFlood_slotsKept ..
  | ringHeal => exact execRingHeal_slotsKept ..
  | streamReceive => exact execStreamReceive_slotsKept ..
  | setptFlood => exact execSetptFlood_slotsKept ..
  | setptReceive => exact execSetptReceive_slotsKept ..
  | nodeHoldExpiry => exact execNodeHoldExpiry_slotsKept ..
  | gptpSync => exact execGptpSync_slotsKept ..
  | syncLoss => exact execSyncLoss_slotsKept ..
  | acceptReplacement => exact execAcceptReplacement_slotsKept ..
  | mirrorSend => exact execMirrorSend_slotsKept ..
  | heartbeatSend => exact execHeartbeatSend_slotsKept ..
  | heartbeatReceive => exact execHeartbeatReceive_slotsKept ..
  | startWaitEnd => exact execStartWaitEnd_slotsKept ..
  | takeover => exact execTakeover_slotsKept ..
  | epochReset => exact execEpochReset_slotsKept ..
  | epochrstReceive => exact execEpochrstReceive_slotsKept ..
  | ackRetransmit => exact execAckRetransmit_slotsKept ..
  | chimneyConnect => exact execChimneyConnect_slotsKept ..
  | chimneyReconnect => exact execChimneyReconnect_slotsKept ..
  | chimneySend => exact execChimneySend_slotsKept ..
  | chimneyAck => exact execChimneyAck_slotsKept ..
  | chimneyInbound => exact execChimneyInbound_slotsKept ..
  | chimneyPeriodic => exact execChimneyPeriodic_slotsKept ..
  | canEnable => exact execCanEnable_slotsKept ..
  | canReceive => exact execCanReceive_slotsKept ..
  | queueAck => exact execQueueAck_slotsKept ..
  | txRequest => exact execTxRequest_slotsKept ..
  | txAttemptEnd => exact execTxAttemptEnd_slotsKept ..
  | txAbort => exact execTxAbort_slotsKept ..
  | busOffRecover => exact execBusOffRecover_slotsKept ..
  | busOffRecoveryEnd => exact execBusOffRecoveryEnd_slotsKept ..
  | addressClaimStart => exact execAddressClaimStart_slotsKept ..
  | claimTimeout => exact execClaimTimeout_slotsKept ..
  | contendingClaim => exact execContendingClaim_slotsKept ..
  | requestForClaim => exact execRequestForClaim_slotsKept ..
  | cvStart => exact execCvStart_slotsKept ..
  | cvData => exact execCvData_slotsKept ..
  | cvStateWrite => exact execCvStateWrite_slotsKept ..
  | aliveCheck => exact execAliveCheck_slotsKept ..
  | aliveSet => exact execAliveSet_slotsKept ..
  | canReassemblyTimeout => exact execCanReassemblyTimeout_slotsKept ..
  | read => exact execRead_slotsKept ..
  | write => exact execWrite_slotsKept ..
  | blockRead => exact execBlockRead_slotsKept ..
  | blockSeg => exact execBlockSeg_slotsKept ..
  | blockEnd => exact execBlockEnd_slotsKept ..
  | blockSessionExpiry => exact execBlockSessionExpiry_slotsKept ..
  | subscribe => exact execSubscribe_slotsKept ..
  | unsubscribe => exact execUnsubscribe_slotsKept ..
  | periodicNotify => exact execPeriodicNotify_slotsKept ..
  | notifyKeepalive => exact execNotifyKeepalive_slotsKept ..
  | notifyReceive => exact execNotifyReceive_slotsKept ..
  | commit => exact execCommit_slotsKept ..
  | describe => exact execDescribe_slotsKept ..
  | defaults => exact execDefaults_slotsKept ..
  | remoteResponse => exact execRemoteResponse_slotsKept ..
  | remoteTimeout => exact execRemoteTimeout_slotsKept ..
  | lockstepMismatch => exact execLockstepMismatch_slotsKept ..
  | dmaSubmit => exact execDmaSubmit_slotsKept ..
  | dmaStart => exact execDmaStart_slotsKept ..
  | dmaComplete => exact execDmaComplete_slotsKept ..
  | dmaCqAck => exact execDmaCqAck_slotsKept ..
  | dmaAbort => exact execDmaAbort_slotsKept ..
  | doorbell => exact execDoorbell_slotsKept ..
  | claim => exact execClaim_slotsKept ..
  | complete => exact execComplete_slotsKept ..
  | scrubRead => exact execScrubRead_slotsKept ..
  | clearRetirementList => exact execClearRetirementList_slotsKept ..
  | storageSubmit => exact execStorageSubmit_slotsKept ..
  | storageComplete => exact execStorageComplete_slotsKept ..
  | storageTimeout => exact execStorageTimeout_slotsKept ..
  | storageCqAck => exact execStorageCqAck_slotsKept ..
  | storageAbort => exact execStorageAbort_slotsKept ..
  | flashLifetimeCheck => exact execFlashLifetimeCheck_slotsKept ..
  | integrityProfileWrite => exact execIntegrityProfileWrite_slotsKept ..
  | monitorWindow => exact execMonitorWindow_slotsKept ..
  | pllLockLoss => exact execPllLockLoss_slotsKept ..
  | opRequest => exact execOpRequest_slotsKept ..
  | opSequenceEnd => exact execOpSequenceEnd_slotsKept ..
  | lowSupplyEntry => exact execLowSupplyEntry_slotsKept ..
  | lowSupplyExit => exact execLowSupplyExit_slotsKept ..
  | powerFailWarning => exact execPowerFailWarning_slotsKept ..
  | warningClear => exact execWarningClear_slotsKept ..
  | logicOvervoltage => exact execLogicOvervoltage_slotsKept ..
  | holdupExhausted => exact execHoldupExhausted_slotsKept ..
  | bankInputUndervoltage => exact execBankInputUndervoltage_slotsKept ..
  | groundOffset => exact execGroundOffset_slotsKept ..
  | groundOffsetClear => exact execGroundOffsetClear_slotsKept ..
  | ignFall => exact execIgnFall_slotsKept ..
  | ignRise => exact execIgnRise_slotsKept ..
  | shutdownTimeEnd => exact execShutdownTimeEnd_slotsKept ..
  | powerOnReset => exact execPowerOnReset_slotsKept ..
  | pinReset => exact execPinReset_slotsKept ..
  | systemReset => exact execSystemReset_slotsKept ..
  | clusterReset => exact execClusterReset_slotsKept ..
  | applicationStart => exact execApplicationStart_slotsKept ..
  | stateRequest => exact execStateRequest_slotsKept ..
  | sleepWake => exact execSleepWake_slotsKept ..
  | deepWake => exact execDeepWake_slotsKept ..
  | watchdogKick => exact execWatchdogKick_slotsKept ..
  | watchdogExpiry => exact execWatchdogExpiry_slotsKept ..
  | clockLossRetry => exact execClockLossRetry_slotsKept ..
  | slotClaim => exact execSlotClaim_slotsKept ..
  | mailboxGo => exact execMailboxGo_slotsKept ..
  | mailboxDone => exact execMailboxDone_slotsKept ..
  | mailboxRelease => exact execMailboxRelease_slotsKept ..
  | eventPost => exact execEventPost_slotsKept ..
  | eventRecordWrite => exact execEventRecordWrite_slotsKept ..
  | eventSpill => exact execEventSpill_slotsKept ..
  | thermalReading => exact execThermalReading_slotsKept ..
  | damperStep2 => exact execDamperStep2_slotsKept ..
  | thermalShutdownAct => exact execThermalShutdownAct_slotsKept ..
  | panelSubmit => exact execPanelSubmit_slotsKept ..
  | panelRowEnd => exact execPanelRowEnd_slotsKept ..
  | railRise => exact execRailRise_slotsKept ..
  | railFall => exact execRailFall_slotsKept ..
  | thermistorRead => exact execThermistorRead_slotsKept ..
  | thermistorFallback => exact execThermistorFallback_slotsKept ..
  | panelReplay => exact execPanelReplay_slotsKept ..
  | railFault => exact execRailFault_slotsKept ..
  | panelRestart => exact execPanelRestart_slotsKept ..
  | completionPop => exact execCompletionPop_slotsKept ..
  | geometryWrite => exact execGeometryWrite_slotsKept ..
  | challengeRead => exact execChallengeRead_slotsKept ..
  | tokenWrite => exact execTokenWrite_slotsKept ..
  | transitionRequest => exact execTransitionRequest_slotsKept ..
  | serialStaging => exact execSerialStaging_slotsKept ..
  | slotHashWrite => exact execSlotHashWrite_slotsKept ..
  | slotKeyWrite => exact execSlotKeyWrite_slotsKept ..
  | debugClose => exact execDebugClose_slotsKept ..
  | debugExpiry => exact execDebugExpiry_slotsKept ..
  | debugDatagram => exact execDebugDatagram_slotsKept ..
  | intakeFragment => exact execIntakeFragment_slotsKept ..
  | updateAbort => exact execUpdateAbort_slotsKept ..
  | relayRequest => exact execRelayRequest_slotsKept ..
  | relayNeighbourResume => exact execRelayNeighbourResume_slotsKept ..
  | relayActivationStep => exact execRelayActivationStep_slotsKept ..
  | activationTimeout => exact execActivationTimeout_slotsKept ..
  | activate => exact execActivate_slotsKept ..
  | confirm => exact execConfirm_slotsKept ..
  | confirmationExpiry => exact execConfirmationExpiry_slotsKept ..
  | rollBack => exact execRollBack_slotsKept ..
  | powerGroundReturn => exact execPowerGroundReturn_slotsKept ..
  | logicGroundReturn => exact execLogicGroundReturn_slotsKept ..
  | logicOvervoltageEnd => exact execLogicOvervoltageEnd_slotsKept ..
  | slewEnd => exact execSlewEnd_slotsKept ..
  | startPermitted => exact execStartPermitted_slotsKept ..
  | chimneyDisconnect => exact execChimneyDisconnect_slotsKept ..
  | mirrorReceive => exact execMirrorReceive_slotsKept ..
  | camParameterCopyEnd => exact execCamParameterCopyEnd_slotsKept ..

theorem slotsKept_iff {o : Otp} {r : Res} : SlotsKept o r ↔ ∃ t, r = .next t ∧ o.Kept t.sec.otp := by
  refine ⟨fun h => ?_, fun ⟨t, hr, h⟩ => hr ▸ h⟩
  cases r with
  | next t => exact ⟨t, rfl, h⟩
  | fault => exact h.elim
  | refused => exact h.elim

/-- Settles O2: every command's outcome is a next state. -/
theorem noCommandStops : Obligations.NoCommandStops := fun c s =>
  have ⟨t, ht, _⟩ := slotsKept_iff.1 (exec_slotsKept c s)
  ⟨t, ht⟩

theorem step_slotsKept (s : State) : SlotsKept s.sec.otp (step s) := by
  cases hq : s.pending with
  | nil =>
    rw [step_nil hq]
    exact slotsKept_of_otp (State.idle_otp s)
  | cons c rest =>
    rw [step_cons hq]
    exact exec_slotsKept c { s with pending := rest }

/-- Settles O4: a slot is written while it is empty only (`slotHashWrite_otpKept`, `slotKeyWrite_otpKept`), and nothing else
writes one. -/
theorem writtenSlotsAreKept : Obligations.WrittenSlotsAreKept := by
  intro s t k hstep
  have hkept := step_slotsKept s
  rw [hstep] at hkept
  exact ⟨hkept.hash k, hkept.key k⟩

end Sys2Proof.Machine

/-! The active member of a twin hearth mirrors a write with the type of its object (12_fabric_fleet.md R289), and the rows of the
panel are a u16 (21_panel.md Table 21-5). -/
namespace Sys2Proof.Machine
open State

/-- The writes that wait to be mirrored after an outcome. -/
def mirroredBy : Res → List (Nat × Nat × Nat × List Byte)
  | .next t => t.fab.mirrorWrites
  | _ => []

/-- The module as delivered, but as the active member of a twin and with the panel driver off. -/
def twinPanelOff : State := (State.reset.set R.fbStatTwin 1).set R.dpCtrlEn 0

theorem twinPanelOff_serves : Serves twinPanelOff := by
  refine ⟨?_, ?_, ?_⟩ <;> decide +kernel

theorem panelRows_mirroredAsWord :
    mirroredBy (exec (.geometryWrite 3 16) twinPanelOff) = [(0x3500, 3, ObjTy.u16.code, [16, 0])] := by decide +kernel

theorem panelRows_acceptedAsByte :
    mirroredBy (.next (accepted ((twinPanelOff.setObjN 0x3500 3 16).set R.dpGeomRows 16) 0x3500 3 .u8 (.num 16))) =
      [(0x3500, 3, ObjTy.u8.code, [16])] := by decide +kernel

/-- Refutes O58: a write of the panel's rows to the active member of a twin is mirrored as a u16, not as a u8. -/
theorem not_panelDrivesItsRows : ¬ Obligations.PanelDrivesItsRows := by
  unfold Obligations.PanelDrivesItsRows
  intro h
  obtain ⟨-, -, -, -, -, -, -, -, -, -, -, -, -, -, -, -, -, -, -, -, -, hrows, -⟩ :=
    h twinPanelOff 0 0 16 0 0 0 {} {} 0 false (0, 0) []
  clear h
  have hsays := congrArg mirroredBy (hrows twinPanelOff_serves (by decide) (by decide) (by decide +kernel))
  rw [panelRows_mirroredAsWord, panelRows_acceptedAsByte] at hsays
  exact absurd hsays (by decide)

end Sys2Proof.Machine

/-! The event recorder: posts, records and the spill (20_keeper_events_thermal.md R446 to R450). -/
namespace Sys2Proof.Machine
namespace State
section
variable (s : State) (x : EventRec)

@[simp] theorem setEv_ev : (s.setEv x).ev = x := rfl
@[simp] theorem setEv_now : (s.setEv x).now = s.now := rfl
@[simp] theorem setEv_mem : (s.setEv x).mem = s.mem := rfl
@[simp] theorem setEv_kp : (s.setEv x).kp = s.kp := rfl
@[simp] theorem setEv_flash : (s.setEv x).flash = s.flash := rfl
@[simp] theorem setEv_rd (a : Nat) : (s.setEv x).rd a = s.rd a := rfl
@[simp] theorem setEv_get (f : Fld) : (s.setEv x).get f = s.get f := rfl

end
end State
open State

/-! Posts (R448) -/
section
variable {s : State} {code sev : Nat}

theorem exec_eventPost (s : State) (code sev : Nat) : exec (.eventPost code sev) s = .next (eventPost s (code % 65536) sev) := rfl

/-- The words of EV_POSTD0 to EV_POSTD2. -/
def postedData (s : State) : List Byte :=
  leBytes 4 (s.rd (R.evPostd 0)).toNat ++ leBytes 4 (s.rd (R.evPostd 1)).toNat ++ leBytes 4 (s.rd (R.evPostd 2)).toNat

theorem postedData_eq (s : State) :
    ((List.range 3).flatMap fun i => leBytes 4 (s.rd (R.evPostd i)).toNat) = postedData s := by
  rw [postedData, List.append_assoc]
  simp only [List.range_succ, List.range_zero, List.nil_append, List.flatMap_append, List.flatMap_cons, List.flatMap_nil,
    List.append_nil, List.append_assoc]

theorem eventPost_of_legal {r : Nat} (hr : postResult s code = r) (h2 : r ≠ 2) :
    eventPost s code sev = (s.set R.evPostresPostres r).intake ⟨code, 4, sev % 4, postedData s⟩ := by
  rw [eventPost, hr, postedData_eq]
  exact if_neg h2

theorem intake_of_room {s : State} (e : Ev) (h : s.ev.intake.length < 64) :
    s.intake e = s.setEv { s.ev with intake := s.ev.intake ++ [e] } := if_pos h

theorem eventPost_enters (hlow : 0x4000 ≤ code) (hhigh : code ≤ 0x7FFF) (hroom : s.ev.intake.length < 64) :
    exec (.eventPost code sev) s = .next ((s.set R.evPostresPostres 0).setEv
      { s.ev with intake := s.ev.intake ++ [⟨code, 4, sev % 4, postedData s⟩] }) := by
  have hr : postResult s code = 0 := by rw [postResult, if_neg (by omega), if_pos hroom]
  rw [exec_eventPost, Nat.mod_eq_of_lt (by omega), eventPost_of_legal hr (by decide),
    intake_of_room _ (by rw [set_ev]; exact hroom), set_ev]

theorem eventPost_refused (hcode : code < 0x4000 ∨ 0x8000 ≤ code) (hsmall : code < 65536) :
    exec (.eventPost code sev) s = .next (s.set R.evPostresPostres 2) := by
  have hr : postResult s code = 2 := if_pos (by omega)
  rw [exec_eventPost, Nat.mod_eq_of_lt hsmall, eventPost, hr]
  rfl

/-- An event dropped at the full queue of a Keeper that runs. -/
def eventDropped (s : State) : State :=
  (((s.setEv { s.ev with dropPend := s.ev.dropPend + 1 }).count R.evDropped).set R.evStatLost 1).fire 537

theorem intake_of_full {e : Ev} (hfull : s.ev.intake.length = 64) (hruns : s.kp.restart ≤ s.now) :
    s.intake e = eventDropped s := by
  have hkeeper : s.keeperRestarts = false := decide_eq_false (Nat.not_lt.2 hruns)
  rw [intake, if_neg (by omega), hkeeper, if_neg Bool.false_ne_true]
  rfl

/-- A source of the recorder sets its IRQ bit alone. -/
theorem eventFire_rd (s : State) {src b a : Nat} (hplace : irqPlace src = some (R.evIrqStat, R.evIrqEn, b)) (hsrc : src < 1024)
    (ha : a / 65536 ≠ 0x2001) (hne : a ≠ R.evIrqStat) : (s.fire src).rd a = s.rd a := by
  rw [fire_rd_of_place s hplace hsrc ha, set_rd_ne _ _ _ _ hne]

theorem eventPost_dropped (hlow : 0x4000 ≤ code) (hhigh : code ≤ 0x7FFF) (hfull : s.ev.intake.length = 64)
    (hruns : s.kp.restart ≤ s.now) :
    ∃ t, exec (.eventPost code sev) s = .next t ∧ t.get R.evPostresPostres = 1 ∧
      t.ev = { s.ev with dropPend := s.ev.dropPend + 1 } ∧ t.rd R.evDropped = s.rd R.evDropped + 1 ∧
      t.flag R.evStatLost = true ∧ SameMemory s t := by
  have hr : postResult s code = 1 := by rw [postResult, if_neg (by omega), if_neg (by omega)]
  obtain ⟨u, hu⟩ : ∃ u, s.set R.evPostresPostres 1 = u := ⟨_, rfl⟩
  have hev : u.ev = s.ev := by rw [← hu, set_ev]
  have hexec := exec_eventPost s code sev
  rw [Nat.mod_eq_of_lt (by omega), eventPost_of_legal hr (by decide), hu, intake_of_full (by rw [hev, hfull])
    (by rw [← hu, set_kp, set_now]; exact hruns)] at hexec
  have hrd {a : Nat} (ha : a / 65536 ≠ 0x2001) (hirq : a ≠ R.evIrqStat) (hstat : a ≠ R.evStat) :
      (eventDropped u).rd a = (u.count R.evDropped).rd a := by
    rw [eventDropped, eventFire_rd _ rfl (by decide) ha hirq, set_rd_ne _ _ _ _ hstat]
    rfl
  refine ⟨_, hexec, ?_, ?_, ?_, ?_, fun a => ?_⟩
  · rw [get_of_rd (hrd (by decide) (by decide) (by decide)), count, get_of_rd (wr_rd_ne _ _ _ _ (by decide)), ← hu,
      set_get _ _ _ (by decide)]
    rfl
  · rw [eventDropped, fire_ev, set_ev, count_ev, setEv_ev, hev]
  · rw [hrd (by decide) (by decide) (by decide), count, wr_rd_self, ← hu, set_rd_ne _ _ _ _ (by decide)]
    rfl
  · rw [eventDropped, flag_of_rd (eventFire_rd _ rfl (by decide) (by decide) (by decide)), set_flag _ _ _ (by decide) rfl]
    rfl
  · rw [eventDropped, fire_mem, set_mem, count_mem, setEv_mem, ← hu, set_mem]

end

/-! The oldest event becomes a record (R446, R447) -/
section
variable {s : State} {e : Ev} {rest : List Ev}

/-- The Keeper runs, and the oldest event is taken from the intake queue. -/
def eventTaken (s : State) (rest : List Ev) : State := (s.passTo s.kp.restart).setEv { s.ev with intake := rest }

/-- The event is written. -/
def eventRecorded (s : State) (e : Ev) : State := droppedReport (if repeats s e then eventRepeat s else newRecord s e)

/-- Space for the event of dropped ones returns. -/
def lossReported (s : State) : State :=
  if s.ev.dropPend = 0 then s else (s.setEv { s.ev with dropPend := 0 }).log 0x1803 ([1] ++ leBytes 4 s.ev.dropPend)

theorem exec_eventRecordWrite (s : State) : exec .eventRecordWrite s = .next (eventWrite s) := rfl

theorem eventWrite_cons (hintake : s.ev.intake = e :: rest) :
    eventWrite s = lossReported (eventRecorded (eventTaken s rest) e) := by
  unfold eventWrite
  rw [hintake]
  rfl

theorem eventTaken_ev : (eventTaken s rest).ev = { s.ev with intake := rest } := by rw [eventTaken, setEv_ev]

theorem eventTaken_kp : (eventTaken s rest).kp = s.kp := by rw [eventTaken, setEv_kp, passTo_kp]

theorem eventTaken_mem : (eventTaken s rest).mem = s.mem := by rw [eventTaken, setEv_mem, passTo_mem]

theorem eventTaken_now : (eventTaken s rest).now = max s.now s.kp.restart := by rw [eventTaken, setEv_now, passTo_now]

theorem eventTaken_rd (a : Nat) : (eventTaken s rest).rd a = s.rd a := by rw [eventTaken, setEv_rd, passTo_rd]

theorem eventTaken_repeats : repeats (eventTaken s rest) e = repeats s e := by
  simp only [repeats, ringRecord, eventTaken_ev]

theorem eventTaken_operatingTime (hruns : s.kp.restart ≤ s.now) : operatingTime (eventTaken s rest) = operatingTime s := by
  rw [operatingTime, operatingTime, eventTaken_ev, eventTaken_now, Nat.max_eq_left hruns]

theorem lossReported_of_none (h : s.ev.dropPend = 0) : lossReported s = s := if_pos h

theorem droppedReport_of_none (h : s.kp.dropped = 0) : droppedReport s = s := if_pos h

theorem ringPut_ringRecord (n k : Nat) (r : EvRecord) :
    ringRecord (ringPut s n r) k = if k % 16384 = n % 16384 then r else ringRecord s k := by
  rw [ringRecord, ringPut, setEv_ev]
  exact Tbl.get_set _ _ _ _ _

/-! A repeat (R447) -/

theorem eventRepeat_ev : (eventRepeat s).ev = (ringPut s (s.ev.seq - 1) { ringRecord s (s.ev.seq - 1) with
    last := operatingTime s, repeats := min ((ringRecord s (s.ev.seq - 1)).repeats + 1) 65535 }).ev := by
  rw [eventRepeat, count_ev]

theorem eventRepeat_kp : (eventRepeat s).kp = s.kp := by rw [eventRepeat, count_kp, ringPut, setEv_kp]

theorem eventRepeat_now : (eventRepeat s).now = s.now := by rw [eventRepeat, count_now, ringPut, setEv_now]

theorem eventRepeat_mem : (eventRepeat s).mem = s.mem := by rw [eventRepeat, count_mem, ringPut, setEv_mem]

theorem eventRepeat_ringRecord : ringRecord (eventRepeat s) (s.ev.seq - 1) = { ringRecord s (s.ev.seq - 1) with
    last := operatingTime s, repeats := min ((ringRecord s (s.ev.seq - 1)).repeats + 1) 65535 } := by
  rw [ringRecord, eventRepeat_ev]
  exact (ringPut_ringRecord _ _ _).trans (if_pos rfl)

theorem eventRecorded_of_repeat (hrepeats : repeats s e = true) : eventRecorded s e = droppedReport (eventRepeat s) := by
  rw [eventRecorded, hrepeats, if_pos rfl]

theorem eventWrite_repeats (hruns : s.kp.restart ≤ s.now) (hdropped : s.kp.dropped = 0) (hintake : s.ev.intake = e :: rest)
    (hrepeats : repeats s e = true) (hpend : s.ev.dropPend = 0) :
    ∃ t, exec .eventRecordWrite s = .next t ∧ t.ev.intake = rest ∧ t.ev.seq = s.ev.seq ∧
      ringRecord t (s.ev.seq - 1) = { ringRecord s (s.ev.seq - 1) with
        last := operatingTime s, repeats := min ((ringRecord s (s.ev.seq - 1)).repeats + 1) 65535 } ∧
      t.rd R.evRepeats = s.rd R.evRepeats + 1 ∧ SameMemory s t := by
  obtain ⟨u, hu⟩ : ∃ u, eventTaken s rest = u := ⟨_, rfl⟩
  have hev : u.ev = { s.ev with intake := rest } := by rw [← hu, eventTaken_ev]
  have hexec := exec_eventRecordWrite s
  rw [eventWrite_cons hintake, eventRecorded_of_repeat (by rw [eventTaken_repeats, hrepeats]), hu,
    droppedReport_of_none (by rw [eventRepeat_kp, ← hu, eventTaken_kp, hdropped]),
    lossReported_of_none (by rw [eventRepeat_ev, ringPut, setEv_ev, hev]; exact hpend)] at hexec
  refine ⟨_, hexec, ?_, ?_, ?_, ?_, fun a => ?_⟩
  · rw [eventRepeat_ev, ringPut, setEv_ev, hev]
  · rw [eventRepeat_ev, ringPut, setEv_ev, hev]
  · have hseq : u.ev.seq = s.ev.seq := by rw [hev]
    have hrecord : ringRecord u (s.ev.seq - 1) = ringRecord s (s.ev.seq - 1) := by rw [ringRecord, ringRecord, hev]
    rw [← hseq, eventRepeat_ringRecord, hseq, hrecord, ← hu, eventTaken_operatingTime hruns]
  · rw [eventRepeat, count, wr_rd_self, ringPut, setEv_rd, ← hu, eventTaken_rd]
    rfl
  · rw [eventRepeat_mem, ← hu, eventTaken_mem]

/-- A Keeper that restarted writes what it held, and reports what it dropped (R425). -/
theorem eventWrite_afterRestart {k : Nat} (hrestarts : s.now < s.kp.restart) (hdropped : s.kp.dropped = k) (hk : k ≠ 0)
    (hpend : s.ev.dropPend = 0) (hintake : s.ev.intake = [e]) (hrepeats : repeats s e = true) :
    ∃ t, exec .eventRecordWrite s = .next t ∧ t.now = s.kp.restart ∧ t.kp.dropped = 0 ∧
      t.ev.intake = [eventOf 0x0204 (leBytes 4 k)] := by
  obtain ⟨u, hu⟩ : ∃ u, eventRepeat (eventTaken s []) = u := ⟨_, rfl⟩
  have hkp : u.kp = s.kp := by rw [← hu, eventRepeat_kp, eventTaken_kp]
  have hnow : u.now = s.kp.restart := by rw [← hu, eventRepeat_now, eventTaken_now, Nat.max_eq_right hrestarts.le]
  have hempty : u.ev.intake = [] := by rw [← hu, eventRepeat_ev, ringPut, setEv_ev, eventTaken_ev]
  have hquiet : u.ev.dropPend = 0 := by rw [← hu, eventRepeat_ev, ringPut, setEv_ev, eventTaken_ev]; exact hpend
  obtain ⟨v, hv⟩ : ∃ v : State, { u with kp := { u.kp with dropped := 0 } } = v := ⟨_, rfl⟩
  have hvev : v.ev = u.ev := by rw [← hv]
  have hroom : v.ev.intake.length < 64 := by rw [hvev, hempty]; decide
  have hlog : v.log 0x0204 (leBytes 4 k) = v.setEv { v.ev with intake := v.ev.intake ++ [eventOf 0x0204 (leBytes 4 k)] } := by
    rw [log, if_pos (show listed 0x0204 = true by decide), intake_of_room _ hroom]
    rfl
  have hreport : droppedReport u = v.log 0x0204 (leBytes 4 k) := by
    rw [droppedReport, if_neg (by rw [hkp, hdropped]; exact hk), hkp, hdropped, ← hv, hkp]
  have hexec := exec_eventRecordWrite s
  rw [eventWrite_cons hintake, eventRecorded_of_repeat (by rw [eventTaken_repeats, hrepeats]), hu, hreport, hlog,
    lossReported_of_none (by rw [setEv_ev, hvev]; exact hquiet)] at hexec
  refine ⟨_, hexec, ?_, ?_, ?_⟩
  · rw [setEv_now, ← hv]
    exact hnow
  · rw [setEv_kp, ← hv]
  · rw [setEv_ev, hvev, hempty]
    rfl

/-! A new record (R446) -/

/-- The record of an event at the head of the ring. -/
def recordOf (s : State) (e : Ev) : EvRecord :=
  { code := e.code, source := e.source, sev := e.sev, data := data12 e.data, hours := operatingTime s,
    pcycle := s.ev.pcycle, last := operatingTime s, repeats := 0, mark := true }

/-- The head of the ring moves on. -/
def headMoved (s : State) : State := s.setEv { s.ev with seq := s.ev.seq + 1 }

/-- SEQ, OLDEST and the count of records show it. -/
def headShown (s : State) : State :=
  let t := (s.set R.evSeqSeq s.ev.seq).count R.evWritten
  t.set R.evOldestOldest (oldestRecord t)

theorem newRecord_of_spilled (hspilled : s.ev.seq < s.ev.unspilled + 16384) {t : State}
    (ht : headShown (headMoved (ringPut s s.ev.seq (recordOf s e))) = t) :
    newRecord s e = if t.get R.evSevthSevth ≤ e.sev then t.fire 536 else t := by
  have hloss : recordLoss s = s := if_neg (Nat.not_le.2 hspilled)
  unfold newRecord
  rw [hloss, ← ht]
  rfl

theorem headShown_ev : (headShown s).ev = s.ev := by simp only [headShown]; rw [set_ev, count_ev, set_ev]

theorem headShown_kp : (headShown s).kp = s.kp := by simp only [headShown]; rw [set_kp, count_kp, set_kp]

theorem headShown_mem : (headShown s).mem = s.mem := by simp only [headShown]; rw [set_mem, count_mem, set_mem]

theorem headShown_written : (headShown s).rd R.evWritten = s.rd R.evWritten + 1 := by
  simp only [headShown]
  rw [set_rd_ne _ _ _ _ (by decide), count, wr_rd_self, set_rd_ne _ _ _ _ (by decide)]
  rfl

theorem headShown_seq : (headShown s).get R.evSeqSeq = s.ev.seq % 4294967296 := by
  simp only [headShown]
  rw [set_get_ne _ _ _ _ (by decide) (by decide), count, get_of_rd (wr_rd_ne _ _ _ _ (by decide)), set_get _ _ _ (by decide)]
  rfl

theorem newRecord_of_spilled_shows (hspilled : s.ev.seq < s.ev.unspilled + 16384) :
    (newRecord s e).ev = (headMoved (ringPut s s.ev.seq (recordOf s e))).ev ∧ (newRecord s e).kp = s.kp ∧
      (newRecord s e).mem = s.mem ∧ (newRecord s e).rd R.evWritten = s.rd R.evWritten + 1 ∧
      (newRecord s e).get R.evSeqSeq = (s.ev.seq + 1) % 4294967296 := by
  obtain ⟨u, hu⟩ : ∃ u, headMoved (ringPut s s.ev.seq (recordOf s e)) = u := ⟨_, rfl⟩
  obtain ⟨t, ht⟩ : ∃ t, headShown u = t := ⟨_, rfl⟩
  have hkp : t.kp = s.kp := by rw [← ht, headShown_kp, ← hu, headMoved, setEv_kp, ringPut, setEv_kp]
  have hmem : t.mem = s.mem := by rw [← ht, headShown_mem, ← hu, headMoved, setEv_mem, ringPut, setEv_mem]
  have hwritten : t.rd R.evWritten = s.rd R.evWritten + 1 := by
    rw [← ht, headShown_written, ← hu, headMoved, setEv_rd, ringPut, setEv_rd]
  have hseq : t.get R.evSeqSeq = (s.ev.seq + 1) % 4294967296 := by
    rw [← ht, headShown_seq, ← hu, headMoved, setEv_ev, ringPut, setEv_ev]
  have hev : t.ev = u.ev := by rw [← ht, headShown_ev]
  rw [newRecord_of_spilled hspilled (by rw [hu, ht]), hu]
  split
  · refine ⟨by rw [fire_ev, hev], by rw [fire_kp, hkp], by rw [fire_mem, hmem], ?_, ?_⟩
    · rw [eventFire_rd _ rfl (by decide) (by decide) (by decide), hwritten]
    · rw [get_of_rd (eventFire_rd _ rfl (by decide) (by decide) (by decide)), hseq]
  · exact ⟨hev, hkp, hmem, hwritten, hseq⟩

theorem eventWrite_records (hruns : s.kp.restart ≤ s.now) (hdropped : s.kp.dropped = 0) (hintake : s.ev.intake = e :: rest)
    (hnew : repeats s e = false) (hspilled : s.ev.seq < s.ev.unspilled + 16384) (hpend : s.ev.dropPend = 0) :
    ∃ t, exec .eventRecordWrite s = .next t ∧ t.ev.intake = rest ∧ t.ev.seq = s.ev.seq + 1 ∧
      ringRecord t s.ev.seq = recordOf s e ∧
      (∀ k, k % 16384 ≠ s.ev.seq % 16384 → ringRecord t k = ringRecord s k) ∧
      t.rd R.evWritten = s.rd R.evWritten + 1 ∧ t.get R.evSeqSeq = (s.ev.seq + 1) % 4294967296 ∧ SameMemory s t := by
  obtain ⟨u, hu⟩ : ∃ u, eventTaken s rest = u := ⟨_, rfl⟩
  have hev : u.ev = { s.ev with intake := rest } := by rw [← hu, eventTaken_ev]
  have hseq : u.ev.seq = s.ev.seq := by rw [hev]
  have hrecord : recordOf u e = recordOf s e := by
    rw [recordOf, recordOf, ← hu, eventTaken_operatingTime hruns, eventTaken_ev]
  obtain ⟨hnev, hnkp, hnmem, hwritten, hshown⟩ := newRecord_of_spilled_shows (s := u) (e := e) (by rw [hev]; exact hspilled)
  have hrecorded : eventRecorded u e = newRecord u e := by
    rw [eventRecorded, ← hu, eventTaken_repeats, hnew, if_neg Bool.false_ne_true, hu,
      droppedReport_of_none (by rw [hnkp, ← hu, eventTaken_kp, hdropped])]
  have hfinal : (newRecord u e).ev = { (ringPut u s.ev.seq (recordOf s e)).ev with seq := s.ev.seq + 1 } := by
    rw [hnev, hseq, hrecord, headMoved, setEv_ev, ringPut, setEv_ev, hseq]
  have hexec := exec_eventRecordWrite s
  rw [eventWrite_cons hintake, hu, hrecorded, lossReported_of_none (by rw [hfinal, ringPut, setEv_ev, hev]; exact hpend)] at hexec
  have hring (k : Nat) : ringRecord (newRecord u e) k = if k % 16384 = s.ev.seq % 16384 then recordOf s e else ringRecord s k := by
    rw [ringRecord, hfinal]
    refine (ringPut_ringRecord (s := u) s.ev.seq k (recordOf s e)).trans ?_
    rw [ringRecord, ringRecord, hev]
  refine ⟨_, hexec, ?_, ?_, ?_, fun k hk => ?_, ?_, ?_, fun a => ?_⟩
  · rw [hfinal, ringPut, setEv_ev, hev]
  · rw [hfinal]
  · rw [hring, if_pos rfl]
  · rw [hring, if_neg hk]
  · rw [hwritten, ← hu, eventTaken_rd]
  · rw [hshown, hseq]
  · rw [hnmem, ← hu, eventTaken_mem]

end

end Sys2Proof.Machine

/-! The spill of event records (20_keeper_events_thermal.md R450). -/
namespace Sys2Proof.Machine
open State

section
variable {s : State}

theorem eventSpill_of_stopped (h : s.flag R.msStatPfail = true ∨ s.gateOn 14 = false) :
    exec .eventSpill s = .next (s.set R.evStatSpillstop 1) := congrArg Host.Outcome.next (if_pos h)

theorem exec_eventSpill_of_running (hwarning : s.flag R.msStatPfail = false) (hgate : s.gateOn 14 = true) :
    exec .eventSpill s = .next (if s.ev.seq < s.ev.unspilled + 128 then s.set R.evStatSpillstop 0
      else spillOut (s.set R.evStatSpillstop 0) 127) :=
  congrArg Host.Outcome.next (if_neg (by simp [hwarning, hgate]))

/-- The block of the spill partition that takes the next records. -/
def spillKey (s : State) : Nat := blockKey 7 (s.ev.spillNext % 524288)

/-- That block with the records. -/
def spilledBlock (s : State) (n : Nat) : FlashBlock :=
  { Tbl.get s.flash.blocks {} (spillKey s) with data := spillBlock s s.ev.unspilled n }

/-- The records stand in their block. -/
def spilledFlash (s : State) (n : Nat) : State := flashPut s (spillKey s) (spilledBlock s n) true

/-- The recorder knows where they lie. -/
def spilledEv (s : State) (n : Nat) : EventRec :=
  { s.ev with spilled := Tbl.insert (Tbl.erase s.ev.spilled (s.ev.spillNext % 524288)) (s.ev.spillNext % 524288)
                           (s.ev.unspilled, n),
              unspilled := s.ev.unspilled + n, spillNext := (s.ev.spillNext % 524288 + 1) % 524288 }

/-- Counted, with the oldest record shown. -/
def spillShown (s : State) (n : Nat) : State := (s.count R.evSpilled n).set R.evOldestOldest (oldestRecord s)

theorem spillOut_eq (n : Nat) : spillOut s n = spillShown ((spilledFlash s n).setEv (spilledEv s n)) n := rfl

theorem flashPut_blocks (key : Nat) (b : FlashBlock) (through : Bool) :
    (flashPut s key b through).flash.blocks = Tbl.set s.flash.blocks {} key b := rfl

theorem spilledFlash_blocks (n k : Nat) : Tbl.get (spilledFlash s n).flash.blocks {} k =
    if k = spillKey s then spilledBlock s n else Tbl.get s.flash.blocks {} k := by
  rw [spilledFlash, flashPut_blocks, Tbl.get_set]

theorem spillBlock_set (f : Fld) (v first n : Nat) : spillBlock (s.set f v) first n = spillBlock s first n := rfl

theorem spillShown_ev (n : Nat) : (spillShown s n).ev = s.ev := by rw [spillShown, set_ev, count_ev]

theorem spillShown_mem (n : Nat) : (spillShown s n).mem = s.mem := by rw [spillShown, set_mem, count_mem]

theorem spillShown_flash (n : Nat) : (spillShown s n).flash = s.flash := by rw [spillShown, set_flash, count_flash]

theorem spillShown_spilled (n : Nat) : (spillShown s n).rd R.evSpilled = s.rd R.evSpilled + BitVec.ofNat 32 n := by
  rw [spillShown, set_rd_ne _ _ _ _ (by decide), count, wr_rd_self]

theorem spillOut_ev (n : Nat) : (spillOut s n).ev = spilledEv s n := by rw [spillOut_eq, spillShown_ev, setEv_ev]

theorem spillOut_mem (n : Nat) : (spillOut s n).mem = s.mem := by rw [spillOut_eq, spillShown_mem, setEv_mem]; rfl

theorem spillOut_flash (n : Nat) : (spillOut s n).flash = (spilledFlash s n).flash := by
  rw [spillOut_eq, spillShown_flash, setEv_flash]

theorem spillOut_spilled (n : Nat) : (spillOut s n).rd R.evSpilled = s.rd R.evSpilled + BitVec.ofNat 32 n := by
  rw [spillOut_eq, spillShown_spilled, setEv_rd]; rfl

theorem eventSpill_spills (hwarning : s.flag R.msStatPfail = false) (hgate : s.gateOn 14 = true)
    (hmany : s.ev.unspilled + 128 ≤ s.ev.seq) :
    ∃ t, exec .eventSpill s = .next t ∧ t.ev.unspilled = s.ev.unspilled + 127 ∧
      t.ev.spillNext = (s.ev.spillNext % 524288 + 1) % 524288 ∧
      (Tbl.get t.flash.blocks {} (spillKey s)).data = spillBlock s s.ev.unspilled 127 ∧
      (∀ k, k ≠ spillKey s → Tbl.get t.flash.blocks {} k = Tbl.get s.flash.blocks {} k) ∧
      t.rd R.evSpilled = s.rd R.evSpilled + 127 ∧ SameMemory s t := by
  obtain ⟨u, hu⟩ : ∃ u, s.set R.evStatSpillstop 0 = u := ⟨_, rfl⟩
  have hev : u.ev = s.ev := by rw [← hu, set_ev]
  have hkey : spillKey u = spillKey s := by rw [spillKey, spillKey, hev]
  have hflash : u.flash = s.flash := by rw [← hu, set_flash]
  have hblock : spillBlock u u.ev.unspilled 127 = spillBlock s s.ev.unspilled 127 := by rw [hev, ← hu, spillBlock_set]
  have hexec := exec_eventSpill_of_running hwarning hgate
  rw [if_neg (by omega), hu] at hexec
  refine ⟨_, hexec, ?_, ?_, ?_, fun k hk => ?_, ?_, fun a => ?_⟩
  · rw [spillOut_ev, spilledEv, hev]
  · rw [spillOut_ev, spilledEv, hev]
  · rw [spillOut_flash, spilledFlash_blocks, hkey, if_pos rfl, spilledBlock, hblock]
  · rw [spillOut_flash, spilledFlash_blocks, hkey, if_neg hk, hflash]
  · rw [spillOut_spilled, ← hu, set_rd_ne _ _ _ _ (by decide)]
    rfl
  · rw [spillOut_mem, ← hu, set_mem]

end

end Sys2Proof.Machine

/-! What thermal management and the solenoid banks keep through the reports and the ceilings of the Damper
(20_keeper_events_thermal.md R453 to R457). -/
namespace Sys2Proof.Machine
namespace State
section
variable (s : State) (x : Thermal)

@[simp] theorem setTh_th : (s.setTh x).th = x := rfl
@[simp] theorem setTh_now : (s.setTh x).now = s.now := rfl
@[simp] theorem setTh_mem : (s.setTh x).mem = s.mem := rfl
@[simp] theorem setTh_ev : (s.setTh x).ev = s.ev := rfl
@[simp] theorem setTh_rd (a : Nat) : (s.setTh x).rd a = s.rd a := rfl
@[simp] theorem setTh_get (f : Fld) : (s.setTh x).get f = s.get f := rfl
@[simp] theorem setTh_flag (f : Fld) : (s.setTh x).flag f = s.flag f := rfl

end
end State
open State

/-- A register of thermal management but its IRQ register, or one of the solenoid banks. -/
def HeatReg (a : Nat) : Prop := (a / 65536 = 0x200D ∧ a ≠ R.thIrqStat) ∨ a / 65536 = 0x2003

/-- What up to n events and the settings that follow a thermal state may change, as thermal management sees it. -/
structure Reports (n : Nat) (s t : State) : Prop where
  mem : t.mem = s.mem
  now : t.now = s.now
  zones : t.th.zones = s.th.zones
  shutAt : t.th.shutAt = s.th.shutAt
  warnings : t.th.counters.getD 0 0 = s.th.counters.getD 0 0
  rd : ∀ a, HeatReg a → t.rd a = s.rd a
  intake : ∃ l, t.ev.intake = s.ev.intake ++ l ∧ l.length ≤ n

namespace Reports
section
variable {n m : Nat} {s t u : State}

theorem refl (s : State) : Reports 0 s s :=
  ⟨rfl, rfl, rfl, rfl, rfl, fun _ _ => rfl, [], (List.append_nil _).symm, Nat.le_refl 0⟩

theorem trans (h : Reports n s t) (k : Reports m t u) : Reports (n + m) s u := by
  refine ⟨k.mem.trans h.mem, k.now.trans h.now, k.zones.trans h.zones, k.shutAt.trans h.shutAt, k.warnings.trans h.warnings,
    fun a ha => (k.rd a ha).trans (h.rd a ha), ?_⟩
  obtain ⟨l, hl, hn⟩ := h.intake
  obtain ⟨l', hl', hm⟩ := k.intake
  exact ⟨l ++ l', by rw [hl', hl, List.append_assoc], by rw [List.length_append]; omega⟩

theorem mono (h : Reports n s t) (hn : n ≤ m) : Reports m s t :=
  { h with intake := h.intake.imp fun _ ⟨hl, hle⟩ => ⟨hl, hle.trans hn⟩ }

theorem ite {p : Prop} [Decidable p] (h : Reports n s t) (k : Reports n s u) : Reports n s (if p then t else u) := by
  split
  · exact h
  · exact k

variable (h : Reports n s t)
include h

theorem get {f : Fld} (hf : HeatReg f.addr) : t.get f = s.get f := get_of_rd (h.rd _ hf)

theorem flag {f : Fld} (hf : HeatReg f.addr) : t.flag f = s.flag f := flag_of_rd (h.rd _ hf)

theorem mem_intake {e : Ev} (he : e ∈ s.ev.intake) : e ∈ t.ev.intake := by
  obtain ⟨l, hl, -⟩ := h.intake
  rw [hl]
  exact List.mem_append_left _ he

theorem room {k : Nat} (hroom : Room s (n + k)) : Room t k := by
  obtain ⟨l, hl, hn⟩ := h.intake
  unfold Room at hroom ⊢
  rw [hl, List.length_append]
  omega

theorem sdArmed {b : Nat} (hb : b < 12) : t.sdArmed b = s.sdArmed b :=
  h.flag (.inr (by simp only [R.sdBctrl]; omega))

end

/-! The elementary steps -/
section
variable (s : State)

/-- An event enters at the end of the queue, or is dropped. -/
theorem log (code : Nat) (data : List Byte) : Reports 1 s (s.log code data) := by
  refine ⟨log_mem .., log_now .., ?_, ?_, ?_, fun a ha => log_rd_ne s code data ?_ ?_, ?_⟩
  · rw [log_th]
  · rw [log_th]
  · rw [log_th]
  · unfold HeatReg at ha; omega
  · unfold HeatReg at ha; omega
  · unfold State.log State.intake
    split
    · split
      · exact ⟨[⟨code, sourceOf code, severityOf code, data⟩], rfl, Nat.le_refl _⟩
      · split
        · exact ⟨[], by rw [fire_ev, set_ev, count_ev, List.append_nil], Nat.zero_le _⟩
        · exact ⟨[], by rw [fire_ev, set_ev, count_ev, List.append_nil], Nat.zero_le _⟩
    · exact ⟨[], (List.append_nil _).symm, Nat.zero_le _⟩

/-- A source of thermal management sets its IRQ bit. -/
theorem fire {src b : Nat} (hplace : irqPlace src = some (R.thIrqStat, R.thIrqEn, b)) (hsrc : src < 1024) :
    Reports 0 s (s.fire src) := by
  refine ⟨fire_mem .., fire_now .., by rw [fire_th], by rw [fire_th], by rw [fire_th], fun a ha => ?_, [], ?_, Nat.le_refl 0⟩
  · have hic : a / 65536 ≠ 0x2001 := by unfold HeatReg at ha; omega
    have hne : a ≠ R.thIrqStat := by
      rintro rfl
      rcases ha with ⟨-, hne⟩ | hbank
      · exact hne rfl
      · exact absurd hbank (by decide)
    rw [fire_rd_of_place s hplace hsrc hic, set_rd_ne _ _ _ _ hne]
  · rw [fire_ev, List.append_nil]

theorem setTh {x : Thermal} (hzones : x.zones = s.th.zones) (hshut : x.shutAt = s.th.shutAt)
    (hwarnings : x.counters.getD 0 0 = s.th.counters.getD 0 0) : Reports 0 s (s.setTh x) :=
  ⟨rfl, rfl, hzones, hshut, hwarnings, fun _ _ => rfl, [], (List.append_nil _).symm, Nat.le_refl 0⟩

theorem thCount {k : Nat} (hk : k ≠ 0) : Reports 0 s (s.thCount k) :=
  setTh s rfl rfl (by simp only [List.getD_eq_getElem?_getD, List.getElem?_set_ne hk])

/-- A register elsewhere. -/
theorem set {f : Fld} (v : Nat) (hf : ¬ HeatReg f.addr) : Reports 0 s (s.set f v) := by
  refine ⟨set_mem .., set_now .., by rw [set_th], by rw [set_th], by rw [set_th], fun a ha => ?_, [], ?_, Nat.le_refl 0⟩
  · exact set_rd_ne _ _ _ _ (by rintro rfl; exact hf ha)
  · rw [set_ev, List.append_nil]

theorem opStart (k : Nat) (hk : k < 2) : Reports 0 s (opStart s k) := by
  have hbusy : ¬ HeatReg (R.ckClop k) := by unfold HeatReg; simp only [R.ckClop]; omega
  have hclk (x : Clocks) : Reports 0 s (s.setClk x) :=
    ⟨rfl, rfl, rfl, rfl, rfl, fun _ _ => rfl, [], (List.append_nil _).symm, Nat.le_refl 0⟩
  exact ite (refl s) ((hclk _).trans (set _ _ hbusy))

theorem opCeiling (k c : Nat) (hk : k < 2) : Reports 1 s (opCeiling s k c) := by
  have hceil : ¬ HeatReg (R.ckClop k) := by unfold HeatReg; simp only [R.ckClop]; omega
  exact ite ((refl s).mono (Nat.zero_le _)) (((set s c hceil).trans (log _ _ _)).trans (opStart _ k hk))

theorem setCeilings : Reports 2 s (setCeilings s) :=
  (opCeiling s 0 _ (by decide)).trans (opCeiling _ 1 _ (by decide))

theorem camDamper (on : Bool) : Reports 1 s (camDamper s on) := by
  have hdamp : ¬ HeatReg R.camStat := by unfold HeatReg; decide
  have hport (u : State) (c : Nat) (x : CamPort) : Reports 0 u (u.setCamPort c x) :=
    ⟨rfl, rfl, rfl, rfl, rfl, fun _ _ => rfl, [], (List.append_nil _).symm, Nat.le_refl 0⟩
  have hports (l : List Nat) : ∀ u : State,
      Reports 0 u (l.foldl (fun t c => t.setCamPort c { t.camPort c with skip := true }) u) := by
    induction l with
    | nil => exact refl
    | cons c l ih => exact fun u => (hport u c _).trans (ih _)
  exact ite ((refl s).mono (Nat.zero_le _)) (((hports _ s).trans (set _ _ hdamp)).trans (log _ _ _))

end
end Reports
end Sys2Proof.Machine

/-! The Damper: its steps, their ceilings and events (20_keeper_events_thermal.md R457). -/
namespace Sys2Proof.Machine
open State

theorem heatReg_thermal {a : Nat} (ha : a / 65536 = 0x200D) (hne : a ≠ R.thIrqStat) : HeatReg a := .inl ⟨ha, hne⟩

theorem heatReg_thStat : HeatReg R.thStat := heatReg_thermal rfl (by decide)

/-! Ceilings (R402, R457) -/
section
variable (s : State)

theorem opStart_ceil (k j : Nat) : (opStart s k).get (R.ckClopCeil j) = s.get (R.ckClopCeil j) := by
  unfold opStart
  dsimp only
  split
  · rfl
  · exact set_get_ne _ _ _ _ (by simp) (.inr (.inl (by simp)))

theorem log_ckClop (code : Nat) (data : List Byte) {j : Nat} (hj : j < 2) :
    (s.log code data).get (R.ckClopCeil j) = s.get (R.ckClopCeil j) :=
  get_of_rd (log_rd_ne s code data (by simp only [R.ckClop]; omega) (by simp only [R.ckClop]; omega))

theorem opCeiling_ceil {k c : Nat} (hk : k < 2) (hc : c < 4) : (opCeiling s k c).get (R.ckClopCeil k) = c := by
  unfold opCeiling
  split
  case isTrue h => exact h
  case isFalse =>
    rw [opStart_ceil, log_ckClop _ _ _ hk, set_get _ _ _ (by simp)]
    exact Nat.mod_eq_of_lt hc

theorem opCeiling_ceil_ne {k j : Nat} (c : Nat) (hj : j < 2) (hne : j ≠ k) :
    (opCeiling s k c).get (R.ckClopCeil j) = s.get (R.ckClopCeil j) := by
  unfold opCeiling
  split
  · rfl
  · rw [opStart_ceil, log_ckClop _ _ _ hj, set_get_ne _ _ _ _ (by simp) (.inl (by simp only [R.ckClop]; omega))]

/-- The ceiling that the Damper and IDLE ask for. -/
def ceilingAsked (s : State) : Nat := max (damperCeiling (s.get R.thStatDamper)) (if s.ps.mode = 1 then 3 else 0)

theorem setCeilings_ceil {j : Nat} (hj : j < 2) (hasked : ceilingAsked s < 4) :
    (setCeilings s).get (R.ckClopCeil j) = ceilingAsked s := by
  have heq : setCeilings s = opCeiling (opCeiling s 0 (ceilingAsked s)) 1 (ceilingAsked s) := rfl
  rw [heq]
  obtain rfl | rfl : j = 0 ∨ j = 1 := by omega
  · rw [opCeiling_ceil_ne _ _ hj (by decide), opCeiling_ceil _ hj hasked]
  · rw [opCeiling_ceil _ hj hasked]

theorem camDamper_rd (on : Bool) {a : Nat} (hic : a / 65536 ≠ 0x2001) (hev : a / 65536 ≠ 0x200C) (hne : a ≠ R.camStat) :
    (camDamper s on).rd a = s.rd a := by
  unfold camDamper
  split
  · rfl
  · dsimp only
    rw [log_rd_ne _ _ _ hic hev, put, set_rd_ne _ _ _ _ hne]
    exact foldl_keeps (·.rd a) _ s fun _ _ _ => rfl

end

/-! A step -/
section
variable (s : State) (step : Nat)

/-- The step is shown, and the first one starts the delay of the second. -/
def damperShown (s : State) (step : Nat) : State :=
  let s := s.set R.thStatDamper step
  if step = 1 then s.setTh { s.th with step1At := s.now } else s

/-- The ceilings and the cameras follow, and the step is counted and reported. -/
def damperActed (s : State) (step : Nat) : State :=
  (((camDamper (setCeilings s) (step != 0)).thCount 2).fire 529).log 0x1406 [BitVec.ofNat 8 step]

theorem damperTo_of_ne (h : s.get R.thStatDamper ≠ step) : damperTo s step = damperActed (damperShown s step) step := if_neg h

theorem damperTo_of_eq (h : s.get R.thStatDamper = step) : damperTo s step = s := if_pos h

theorem Reports.damperShown : Reports 0 (s.set R.thStatDamper step) (damperShown s step) :=
  ite (setTh _ rfl rfl rfl) (refl _)

/-- The step before its event. -/
theorem Reports.damperFired : Reports 3 s (((Machine.camDamper (Machine.setCeilings s) (step != 0)).thCount 2).fire 529) :=
  (((Reports.setCeilings s).trans (camDamper _ _)).trans (thCount _ (by decide))).trans (fire _ rfl (by decide))

theorem Reports.damperActed : Reports 4 s (damperActed s step) := (damperFired s step).trans (log _ _ _)

theorem Reports.damperTo_of_ne (h : s.get R.thStatDamper ≠ step) : Reports 4 (s.set R.thStatDamper step) (damperTo s step) := by
  rw [Machine.damperTo_of_ne s step h]
  exact ((Reports.damperShown s step).trans (Reports.damperActed _ step)).mono (by decide)

theorem damperTo_damper (h : step < 4) : (damperTo s step).get R.thStatDamper = step := by
  by_cases hsame : s.get R.thStatDamper = step
  · rw [damperTo_of_eq s step hsame, hsame]
  · rw [(Reports.damperTo_of_ne s step hsame).get heatReg_thStat, set_get _ _ _ (by decide)]
    exact Nat.mod_eq_of_lt h

theorem damperTo_event (hne : s.get R.thStatDamper ≠ step) (hroom : Room s 4) :
    eventOf 0x1406 [BitVec.ofNat 8 step] ∈ (damperTo s step).ev.intake := by
  obtain ⟨u, hu⟩ : ∃ u, Machine.damperShown s step = u := ⟨_, rfl⟩
  have hroomu : Room u 4 := by
    refine (hu ▸ Reports.damperShown s step).room ?_
    unfold Room at hroom ⊢
    rw [set_ev]
    omega
  rw [damperTo_of_ne s step hne, hu, Machine.damperActed,
    log_intake_of_room _ (by decide) ((Reports.damperFired u step).room hroomu)]
  exact List.mem_append_right _ List.mem_cons_self

theorem damperActed_ceil {j : Nat} (hj : j < 2) :
    (damperActed s step).get (R.ckClopCeil j) = (setCeilings s).get (R.ckClopCeil j) := by
  have hblock : R.ckClop j / 65536 = 0x2000 := by simp only [R.ckClop]; omega
  have hirq : R.ckClop j ≠ R.thIrqStat := by intro h; rw [h] at hblock; exact absurd hblock (by decide)
  have hcam : R.ckClop j ≠ R.camStat := by intro h; rw [h] at hblock; exact absurd hblock (by decide)
  refine get_of_rd ?_
  rw [damperActed, log_rd_ne _ _ _ (by rw [hblock]; decide) (by rw [hblock]; decide),
    fire_rd_of_place _ rfl (by decide) (by rw [hblock]; decide), set_rd_ne _ _ _ _ hirq, State.thCount, setTh_rd,
    camDamper_rd _ _ (by rw [hblock]; decide) (by rw [hblock]; decide) hcam]

/-- Both ceilings stand at least one above the step. -/
theorem damperTo_ceil (hne : s.get R.thStatDamper ≠ step) (hstep : step = 1 ∨ step = 2) {j : Nat} (hj : j < 2) :
    step + 1 ≤ (damperTo s step).get (R.ckClopCeil j) := by
  obtain ⟨u, hu⟩ : ∃ u, Machine.damperShown s step = u := ⟨_, rfl⟩
  have hdamper : u.get R.thStatDamper = step := by
    rw [← hu, (Reports.damperShown s step).get heatReg_thStat, set_get _ _ _ (by decide)]
    exact Nat.mod_eq_of_lt (by change step < 4; omega)
  have hceiling : damperCeiling step = step + 1 := if_neg (by omega)
  have hlow : step + 1 ≤ ceilingAsked u := by
    rw [ceilingAsked, hdamper, hceiling]
    exact Nat.le_max_left _ _
  have hhigh : ceilingAsked u < 4 := by
    rw [ceilingAsked, hdamper, hceiling]
    split <;> omega
  rw [damperTo_of_ne s step hne, hu, damperActed_ceil _ _ hj, setCeilings_ceil u hj hhigh]
  exact hlow

end

/-! The entry and the end of the Damper -/

/-- The Damper's step beside it, the check of the zones reports at most four events. -/
theorem Reports.damperCheck (s : State) :
    ∃ u, (u = s ∨ ∃ v, u = s.set R.thStatDamper v) ∧ Reports 4 u (damperCheck s) := by
  have hto (step : Nat) : ∃ u, (u = s ∨ ∃ v, u = s.set R.thStatDamper v) ∧ Reports 4 u (damperTo s step) := by
    by_cases hsame : s.get R.thStatDamper = step
    · exact ⟨s, .inl rfl, by rw [damperTo_of_eq s step hsame]; exact (refl s).mono (by decide)⟩
    · exact ⟨_, .inr ⟨step, rfl⟩, damperTo_of_ne s step hsame⟩
  unfold Machine.damperCheck
  dsimp only
  split
  · exact hto 1
  · split
    · exact ⟨s, .inl rfl, (refl s).mono (by decide)⟩
    · exact hto 0

theorem damperCheck_of_throttled {s : State} {z : Nat} (hz : z < 20) (hthrottled : zoneThrottled s z = true)
    (hdamper : s.get R.thStatDamper = 0) : damperCheck s = damperTo s 1 := by
  have hany : (List.range 20).any (zoneThrottled s) = true := List.any_eq_true.2 ⟨z, List.mem_range.2 hz, hthrottled⟩
  exact if_pos ⟨hany, hdamper⟩

/-! Step 2 -/
section
variable (s : State)

/-- The delay since step 1 has passed. -/
def step2Time (s : State) : State := s.passTo (s.th.step1At + 1000000000 * s.objN 0x3400 0x07)

theorem exec_damperStep2_of_other (h : s.get R.thStatDamper ≠ 1) : exec .damperStep2 s = .next s :=
  congrArg Host.Outcome.next (if_pos h)

theorem exec_damperStep2 (h : s.get R.thStatDamper = 1) : exec .damperStep2 s =
    .next (if (List.range 20).any (stillHot (step2Time s)) then damperTo (step2Time s) 2 else step2Time s) := by
  rw [step2Time, Nat.mul_comm]
  exact congrArg Host.Outcome.next (if_neg (not_not_intro h))

theorem stillHot_step2Time (z : Nat) : stillHot (step2Time s) z = stillHot s z := by
  simp only [stillHot, thZone, step2Time, passTo_th, passTo_get, passTo_flag]

theorem damperStep2_steps {z : Nat} (h : s.get R.thStatDamper = 1) (hz : z < 20) (hot : stillHot s z = true) :
    ∃ t, exec .damperStep2 s = .next t ∧ t.get R.thStatDamper = 2 ∧
      t.now = max s.now (s.th.step1At + 1000000000 * s.objN 0x3400 0x07) ∧
      (Room s 24 → eventOf 0x1406 [2] ∈ t.ev.intake) ∧ 3 ≤ t.get (R.ckClopCeil 0) ∧ 3 ≤ t.get (R.ckClopCeil 1) ∧
      SameMemory s t := by
  obtain ⟨u, hu⟩ : ∃ u, step2Time s = u := ⟨_, rfl⟩
  have hany : (List.range 20).any (stillHot u) = true :=
    List.any_eq_true.2 ⟨z, List.mem_range.2 hz, by rw [← hu, stillHot_step2Time, hot]⟩
  have hexec := exec_damperStep2 s h
  rw [hu, if_pos hany] at hexec
  have hne : u.get R.thStatDamper ≠ 2 := by rw [← hu, step2Time, passTo_get, h]; decide
  have hreports := Reports.damperTo_of_ne u 2 hne
  refine ⟨_, hexec, damperTo_damper u 2 (by decide), ?_, fun hroom => damperTo_event u 2 hne ?_,
    damperTo_ceil u 2 hne (.inr rfl) (by decide), damperTo_ceil u 2 hne (.inr rfl) (by decide), fun a => ?_⟩
  · rw [hreports.now, set_now, ← hu, step2Time, passTo_now]
  · unfold Room at hroom ⊢
    rw [← hu, step2Time, passTo_ev]
    omega
  · rw [hreports.mem, set_mem, ← hu, step2Time, passTo_mem]

theorem damperStep2_waits (h : s.get R.thStatDamper = 1) (hcool : (List.range 20).any (stillHot s) = false) :
    exec .damperStep2 s = .next (s.passTo (s.th.step1At + 1000000000 * s.objN 0x3400 0x07)) := by
  have hany : (List.range 20).any (stillHot (step2Time s)) = false := by
    rw [show stillHot (step2Time s) = stillHot s from funext (stillHot_step2Time s), hcool]
  rw [exec_damperStep2 s h, hany]
  rfl

end
end Sys2Proof.Machine

/-! A thermal reading in its parts: the sensors, what the zone shows and stores, shutdown and reports
(20_keeper_events_thermal.md R453 to R459). -/
namespace Sys2Proof.Machine
open State

/-- The sensors of the zone are read. -/
def sensorsRead (s : State) (z : Nat) (a b : Int) (rawA rawB : Nat) (pair : Bool) : State :=
  match zoneSensors z with
  | [k, l] => sensorReading (sensorReading s k a rawA pair) l b rawB pair
  | k :: _ => sensorReading s k a rawA false
  | [] => s

/-- The zone shows its reading, whether it is held, and its highest reading. -/
def valueShown (s : State) (z : Nat) (v : Int × Bool × Bool) (first : Bool) : State :=
  let s := s.put (R.thZstatHeld z) (v.2.1 && zoneKind z != .stage)
  let s := s.set (R.thZstatTemp z) (wrapInt 16 v.1)
  if first = true ∨ int16 (s.get (R.thZmaxMax z)) < v.1 then s.set (R.thZmaxMax z) (wrapInt 16 v.1) else s

/-- The zone keeps its reading and its levels, and its rate of rise is judged. -/
def zoneStored (s : State) (z : Nat) (t : Int) : State :=
  let x := s.thZone z
  let hist := keepHist s.now x.hist
  let s := s.setThZone z { x with readAt := some s.now, hist := hist, warn := atLevel x.warn (thresholds z).1 t,
                                  thr := match (thresholds z).2.1 with | some h => atLevel x.thr h t | none => false }
  let s := rateOfRise s z t
  s.setThZone z { s.thZone z with hist := (s.now, t) :: hist }

/-- Whether the reading shuts down. -/
def zoneOff (z : Nat) (v : Int × Bool × Bool) : Bool :=
  match zoneKind z with
  | .die => v.2.2 || decide ((thresholds z).2.2 ≤ v.1)
  | .stage => v.2.2 || decide ((thresholds z).2.2 ≤ v.1)
  | _ => !v.2.2 && decide ((thresholds z).2.2 ≤ v.1)

/-- Shutdown and reports. -/
def zoneActed (s : State) (z : Nat) (v : Int × Bool × Bool) (w0 t0 : Bool) : State :=
  zoneReport (if zoneOff z v then zoneShutdown s z v.1 else s) z v.1 w0 t0

/-- The interval to the next reading stands, and the Damper follows the zones. -/
def readingEnded (s : State) (z : Nat) (t : Int) : State := damperCheck (s.set (R.thZstatInterval z) (nextInterval z t))

/-- A reading at its instant. -/
def readingNow (s : State) (first : Bool) (z : Nat) (a b : Int) (rawA rawB : Nat) : State :=
  let pair := decide (z < 4) && decide (150 < (a - b).natAbs)
  let u := sensorsRead s z a b rawA rawB pair
  let v := zoneValue u z a b pair
  readingEnded (zoneActed (zoneStored (valueShown u z v first) z v.1) z v (zoneWarned s z) (zoneThrottled s z)) z v.1

theorem thermalReading_of_first {s : State} {z : Nat} (hth : s.th = {}) (a b : Int) (rawA rawB : Nat) :
    thermalReading s z a b rawA rawB = readingNow s true z a b rawA rawB := by
  have heq : thermalReading s z a b rawA rawB = readingNow (match (s.thZone z).readAt with
      | some t => s.passTo (t + zoneInterval (s.get (R.thZstatInterval z)))
      | none => s) (s.thZone z).readAt.isNone z a b rawA rawB := rfl
  have hzone : s.thZone z = {} := by rw [thZone, hth]; rfl
  rw [heq, hzone]
  rfl

theorem exec_thermalReading {s : State} {z : Nat} (hz : z < 20) (a b : Int) (rawA rawB : Nat) :
    exec (.thermalReading z a b rawA rawB) s = .next (thermalReading s z a b rawA rawB) :=
  congrArg Host.Outcome.next (if_pos hz)

theorem exec_thermalReading_of_none {s : State} {z : Nat} (hz : 20 ≤ z) (a b : Int) (rawA rawB : Nat) :
    exec (.thermalReading z a b rawA rawB) s = .next s := congrArg Host.Outcome.next (if_neg (by omega))

/-! Numbers of 16 bits -/

theorem wrapInt_of_nonneg {a : Int} (hlow : 0 ≤ a) (hhigh : a < 65536) : wrapInt 16 a = a.toNat := by
  unfold wrapInt; omega

theorem int16_wrapInt {a : Int} (hlow : -32768 ≤ a) (hhigh : a < 32768) : int16 (wrapInt 16 a) = a := by
  unfold wrapInt int16; split <;> omega

theorem wrapInt_lt (a : Int) : wrapInt 16 a < 65536 := by unfold wrapInt; omega

/-! Sensors (R460) -/

/-- What sound readings of sensors may change is TEMP in their registers and their records. -/
structure SensorsStep (s t : State) : Prop where
  mem : t.mem = s.mem
  now : t.now = s.now
  ev : t.ev = s.ev
  zones : t.th.zones = s.th.zones
  shutAt : t.th.shutAt = s.th.shutAt
  counters : t.th.counters = s.th.counters
  rd : ∀ a, (∀ k, a ≠ R.thSens k) → t.rd a = s.rd a
  fault : ∀ k, t.get (R.thSensFault k) = s.get (R.thSensFault k)

namespace SensorsStep
section
variable {s t u : State}

theorem trans (h : SensorsStep s t) (k : SensorsStep t u) : SensorsStep s u :=
  ⟨k.mem.trans h.mem, k.now.trans h.now, k.ev.trans h.ev, k.zones.trans h.zones, k.shutAt.trans h.shutAt,
    k.counters.trans h.counters, fun a ha => (k.rd a ha).trans (h.rd a ha), fun i => (k.fault i).trans (h.fault i)⟩

end
end SensorsStep

section
variable {s : State} {k : Nat} {t : Int}

/-- A first reading in range, of a sensor that is not broken. -/
theorem sensorReading_of_sound (raw : Nat) (hlast : (s.thSensor k).last = none) (hlow : -550 ≤ t) (hhigh : t ≤ 2000)
    (hfault : s.get (R.thSensFault k) = 0) :
    ∃ x, sensorReading s k t raw false = (s.setThSensor k x).set (R.thSensTemp k) (wrapInt 16 t) := by
  have hsound : sensorFault (s.thSensor k) t 1 false = 0 := by
    unfold sensorFault
    rw [if_neg (by omega), if_neg (by omega), hlast]
    rfl
  unfold sensorReading
  simp only [hlast, Option.isSome_none, Bool.false_eq_true, false_and, if_false, hsound, hfault, if_true]
  exact ⟨_, rfl⟩

theorem SensorsStep.sensorReading (raw : Nat) (hlast : (s.thSensor k).last = none) (hlow : -550 ≤ t) (hhigh : t ≤ 2000)
    (hfault : s.get (R.thSensFault k) = 0) :
    SensorsStep s (sensorReading s k t raw false) ∧
      (Machine.sensorReading s k t raw false).get (R.thSensTemp k) = wrapInt 16 t ∧
      ∀ j, j ≠ k → (Machine.sensorReading s k t raw false).thSensor j = s.thSensor j ∧
        (Machine.sensorReading s k t raw false).get (R.thSensTemp j) = s.get (R.thSensTemp j) := by
  obtain ⟨x, hx⟩ := sensorReading_of_sound raw hlast hlow hhigh hfault
  rw [hx]
  refine ⟨⟨set_mem .., set_now .., set_ev .., ?_, ?_, ?_, fun a ha => set_rd_ne _ _ _ _ (ha k), fun i => ?_⟩, ?_,
    fun j hj => ⟨?_, ?_⟩⟩
  · rw [set_th, setThSensor, setTh_th]
  · rw [set_th, setThSensor, setTh_th]
  · rw [set_th, setThSensor, setTh_th]
  · exact set_get_ne _ _ _ _ (by simp) (.inr (.inr (by simp)))
  · rw [set_get _ _ _ (by simp)]
    exact Nat.mod_eq_of_lt (wrapInt_lt t)
  · rw [thSensor, set_th, setThSensor, setTh_th, Tbl.get_set, if_neg hj, thSensor]
  · rw [set_get_ne _ _ _ _ (by simp) (.inl (by simp only [R.thSens]; omega))]
    rfl

end

/-! The zone's record -/
section
variable (s : State) {z : Nat} (t : Int)

theorem setThZone_thZone (x : ThZone) : (s.setThZone z x).thZone z = x := by
  rw [thZone, setThZone, setTh_th, Tbl.get_set, if_pos rfl]

/-- The record of a zone at its first reading. -/
def firstRead (s : State) (z : Nat) (t : Int) (hist : List (Nat × Int)) : ThZone :=
  { readAt := some s.now, warn := decide ((thresholds z).1 ≤ t), hist := hist,
    thr := match (thresholds z).2.1 with | some h => decide (h ≤ t) | none => false }

/-- A first reading has no rate. -/
theorem zoneStored_of_first (hzone : s.thZone z = {}) :
    zoneStored s z t = (s.setThZone z (firstRead s z t [])).setThZone z (firstRead s z t [(s.now, t)]) := by
  obtain ⟨x, hx⟩ : ∃ x, firstRead s z t [] = x := ⟨_, rfl⟩
  have hrate : rateOfRise (s.setThZone z x) z t = s.setThZone z x := by
    have hnone : zoneRate ((s.setThZone z x).thZone z).hist (s.setThZone z x).now t = none := by
      rw [setThZone_thZone, ← hx]
      rfl
    unfold rateOfRise
    simp only [hnone]
  unfold zoneStored
  simp only [hzone, atLevel, Bool.false_and, Bool.or_false, keepHist]
  change (rateOfRise (s.setThZone z (firstRead s z t [])) z t).setThZone z
    { (rateOfRise (s.setThZone z (firstRead s z t [])) z t).thZone z with
      hist := [((rateOfRise (s.setThZone z (firstRead s z t [])) z t).now, t)] } = _
  rw [hx, hrate, setThZone_thZone, ← hx]
  rfl

end

/-! The zone after its reading, before it acts -/

/-- Zone z has been read at t, and nothing else has come about. -/
structure ZoneRead (s : State) (z : Nat) (t : Int) (m : State) : Prop where
  mem : m.mem = s.mem
  now : m.now = s.now
  ev : m.ev = s.ev
  shutAt : m.th.shutAt = s.th.shutAt
  counters : m.th.counters = s.th.counters
  warn : (m.thZone z).warn = decide ((thresholds z).1 ≤ t)
  thr : (m.thZone z).thr = match (thresholds z).2.1 with | some h => decide (h ≤ t) | none => false
  held : m.flag (R.thZstatHeld z) = false
  ror : m.flag (R.thZstatRor z) = s.flag (R.thZstatRor z)
  temp : m.get (R.thZstatTemp z) = wrapInt 16 t
  rd : ∀ a, a ≠ R.thZstat z → a ≠ R.thZmax z → (∀ k, a ≠ R.thSens k) → m.rd a = s.rd a

theorem ZoneRead.of_sensors {s u m : State} {z : Nat} {t : Int} (hz : z < 20) (h : SensorsStep s u) (k : ZoneRead u z t m) :
    ZoneRead s z t m where
  mem := k.mem.trans h.mem
  now := k.now.trans h.now
  ev := k.ev.trans h.ev
  shutAt := k.shutAt.trans h.shutAt
  counters := k.counters.trans h.counters
  warn := k.warn
  thr := k.thr
  held := k.held
  ror := k.ror.trans (flag_of_rd (h.rd _ fun i => by simp only [R.thZstat, R.thSens]; omega))
  temp := k.temp
  rd a hstat hmax hsens := (k.rd a hstat hmax hsens).trans (h.rd a hsens)

/-- The words of a zone that is not held. -/
theorem valueShown_of_sound (s : State) {z : Nat} {v : Int × Bool × Bool} (hheld : v.2.1 = false) :
    valueShown s z v true = ((s.put (R.thZstatHeld z) false).set (R.thZstatTemp z) (wrapInt 16 v.1)).set (R.thZmaxMax z)
      (wrapInt 16 v.1) := by
  unfold valueShown
  rw [hheld]
  exact if_pos (.inl rfl)

theorem zoneRead_of_first (s : State) {z : Nat} {v : Int × Bool × Bool} (hheld : v.2.1 = false) (hzones : s.th.zones = []) :
    ZoneRead s z v.1 (zoneStored (valueShown s z v true) z v.1) ∧
      ∀ a, a ≠ R.thZstat z → a ≠ R.thZmax z → (zoneStored (valueShown s z v true) z v.1).rd a = s.rd a := by
  obtain ⟨u, hu⟩ : ∃ u, valueShown s z v true = u := ⟨_, rfl⟩
  have hshown := (valueShown_of_sound s (z := z) hheld).symm.trans hu
  have hth : u.th = s.th := by rw [← hshown, set_th, set_th, put_th]
  have hmax : R.thZmax z ≠ R.thZstat z := by simp only [R.thZmax, R.thZstat]; omega
  rw [hu, zoneStored_of_first u v.1 (by rw [thZone, hth, hzones]; rfl)]
  obtain ⟨w, hw⟩ : ∃ w, (u.setThZone z (firstRead u z v.1 [])).setThZone z (firstRead u z v.1 [(u.now, v.1)]) = w := ⟨_, rfl⟩
  have hrd (a : Nat) (hstat : a ≠ R.thZstat z) (hne : a ≠ R.thZmax z) : w.rd a = s.rd a := by
    rw [← hw, setThZone, setTh_rd, setThZone, setTh_rd, ← hshown, set_rd_ne _ _ _ _ hne, set_rd_ne _ _ _ _ hstat, put,
      set_rd_ne _ _ _ _ hstat]
  rw [hw]
  refine ⟨?_, hrd⟩
  rw [← hw] at hrd ⊢
  refine ⟨?_, ?_, ?_, ?_, ?_, ?_, ?_, ?_, ?_, ?_, fun a hstat hne _ => hrd a hstat hne⟩
  · rw [setThZone, setTh_mem, setThZone, setTh_mem, ← hshown, set_mem, set_mem, put_mem]
  · rw [setThZone, setTh_now, setThZone, setTh_now, ← hshown, set_now, set_now, put_now]
  · rw [setThZone, setTh_ev, setThZone, setTh_ev, ← hshown, set_ev, set_ev, put_ev]
  · rw [setThZone, setTh_th, setThZone, setTh_th, hth]
  · rw [setThZone, setTh_th, setThZone, setTh_th, hth]
  · rw [setThZone_thZone, firstRead]
  · rw [setThZone_thZone, firstRead]
  · rw [setThZone, setTh_flag, setThZone, setTh_flag, ← hshown, set_flag_ne _ _ _ _ (by simp) (.inl hmax.symm),
      set_flag_ne _ _ _ _ (by simp) (.inr (.inl (by simp))), put_flag _ _ _ (by simp) rfl]
  · rw [setThZone, setTh_flag, setThZone, setTh_flag, ← hshown, set_flag_ne _ _ _ _ (by simp) (.inl hmax.symm),
      set_flag_ne _ _ _ _ (by simp) (.inr (.inl (by simp))), put, set_flag_ne _ _ _ _ (by simp) (.inr (.inr (by simp)))]
  · rw [setThZone, setTh_get, setThZone, setTh_get, ← hshown, set_get_ne _ _ _ _ (by simp) (.inl hmax.symm),
      set_get _ _ _ (by simp)]
    exact Nat.mod_eq_of_lt (wrapInt_lt _)

end Sys2Proof.Machine

/-! Disarming as the rest of the module sees it: the banks and groups that are off stay off
(03_solenoid_drive.md R67, 04_load_switches.md R105). -/
namespace Sys2Proof.Machine
open State

/-- Registers, the stage and the free choices taken alone change. -/
def OnlyStage (s t : State) : Prop := ∃ r x c, t = { s with regs := r, stage := x, freeCtr := c }

namespace OnlyStage
section
variable {s t u : State}

theorem refl (s : State) : OnlyStage s s := ⟨s.regs, s.stage, s.freeCtr, rfl⟩

theorem trans (h : OnlyStage s t) (k : OnlyStage t u) : OnlyStage s u := by
  obtain ⟨r, x, c, rfl⟩ := h
  obtain ⟨r', x', c', rfl⟩ := k
  exact ⟨r', x', c', rfl⟩

theorem ite {p : Prop} [Decidable p] (h : OnlyStage s t) (k : OnlyStage s u) : OnlyStage s (if p then t else u) := by
  split
  · exact h
  · exact k

theorem foldl {α : Type} {f : State → α → State} (h : ∀ x u, OnlyStage u (f u x)) (l : List α) (s : State) :
    OnlyStage s (l.foldl f s) := by
  induction l generalizing s with
  | nil => exact refl s
  | cons x l ih => exact (h x s).trans (ih (f s x))

/-- What reads neither stays. -/
theorem keeps {β : Type} (h : OnlyStage s t) (p : State → β)
    (hp : ∀ r x c, p { s with regs := r, stage := x, freeCtr := c } = p s) : p t = p s := by
  obtain ⟨r, x, c, rfl⟩ := h
  exact hp r x c

end

section
variable (s : State) (n : Nat)

theorem wr (a : Nat) (v : Word) : OnlyStage s (s.wr a v) := ⟨_, _, _, rfl⟩
theorem set (f : Fld) (v : Nat) : OnlyStage s (s.set f v) := ⟨_, _, _, rfl⟩
theorem setStage (x : Stage) : OnlyStage s { s with stage := x } := ⟨_, _, _, rfl⟩
theorem tell (d : Nat) (l : List Report) : OnlyStage s (s.tell d l) := ⟨_, _, _, rfl⟩
theorem fresh : OnlyStage s s.fresh := ⟨_, _, _, rfl⟩
theorem setDie (x : Die) : OnlyStage s (s.setDie n x) := ⟨_, _, _, rfl⟩
theorem setSdC (x : SdChan) : OnlyStage s (s.setSdC n x) := ⟨_, _, _, rfl⟩
theorem setLsG (x : LsGroup) : OnlyStage s (s.setLsG n x) := ⟨_, _, _, rfl⟩
theorem setLsC (x : LsChan) : OnlyStage s (s.setLsC n x) := ⟨_, _, _, rfl⟩
theorem setSdB (x : SdBank) : OnlyStage s (s.setSdB n x) := ⟨_, _, _, rfl⟩

/-! Solenoid banks -/

theorem sdMirror : OnlyStage s (sdMirror s n) := ite (foldl (fun _ u => wr u _ _) _ s) (refl s)

theorem grantRelease : OnlyStage s (grantRelease s n) := ite (set s _ _) (refl s)

theorem pullinWithdraw : OnlyStage s (pullinWithdraw s n) :=
  (((setSdB s _ _).trans (set _ _ _)).trans (set _ _ _)).trans (tell _ _ _)

theorem sdTurnOff : OnlyStage s (sdTurnOff s n) := by
  rcases sdPhase_cases s n with h | h | h | h
  · rw [sdTurnOff_of_queued s n h]
    exact (set s _ _).trans (pullinWithdraw _ n)
  · rw [sdTurnOff_of_granted s n h]
    exact ((set s _ _).trans (grantRelease _ n)).trans (set _ _ _)
  · rw [sdTurnOff_of_hold s n h]
    exact (set s _ _).trans (set _ _ _)
  · rw [sdTurnOff_of_open s n h]
    exact set s _ _

theorem sdBankOff : OnlyStage s (sdBankOff s n) := by
  obtain ⟨c, h⟩ := sdBankOff_eq s n
  rw [h]
  exact ((((foldl (fun k u => (sdTurnOff u k).trans (sdMirror _ k)) _ s).trans (set _ _ _)).trans (set _ _ _)).trans
    (set _ _ _)).trans (setSdB _ _ _)

theorem sdDisarm : OnlyStage s (sdDisarm s n) :=
  ite (refl s) (ite (ite (refl s) (setStage s _)) (sdBankOff s n))

/-! Switch groups -/

theorem lsOpen : OnlyStage s (lsOpen s n) := ite (setLsC s n _) (refl s)

theorem lsOffNow : OnlyStage s (lsOffNow s n) :=
  (((lsOpen s n).trans (setLsC _ n _)).trans (set _ _ _)).trans (ite (refl _) (set _ _ _))

theorem lsTurnOff : OnlyStage s (lsTurnOff s n) := by
  refine ite (lsOffNow s n) (ite ?_ (ite (refl s) (ite ?_ (lsOffNow s n))))
  · exact (setStage s _).trans (ite (set _ _ _) (set _ _ _))
  · exact (setStage s _).trans (tell _ _ _)

theorem groupDisarm : OnlyStage s (groupDisarm s n) :=
  ite ((set s _ _).trans (foldl (fun k u => lsTurnOff u k) _ _)) (refl s)

end
end OnlyStage

/-! Banks and groups that are off -/

/-- Outputs are disarmed: none comes back, and no load dump begins or ends. -/
structure Disarms (s t : State) : Prop where
  only : OnlyStage s t
  rd : ∀ a, a / 65536 ≠ 0x2003 → a / 65536 ≠ 0x2004 → t.rd a = s.rd a
  defer : ∀ k < 12, t.flag (R.sdBstatDefer k) = s.flag (R.sdBstatDefer k)
  sdOff : ∀ k < 12, s.sdArmed k = false → t.sdArmed k = false
  lsOff : ∀ g < 8, s.lsArmed g = false → t.lsArmed g = false

namespace Disarms

theorem refl (s : State) : Disarms s s := ⟨.refl s, fun _ _ _ => rfl, fun _ _ => rfl, fun _ _ => id, fun _ _ => id⟩

section
variable {s t u : State}

theorem trans (h : Disarms s t) (k : Disarms t u) : Disarms s u :=
  ⟨h.only.trans k.only, fun a h3 h4 => (k.rd a h3 h4).trans (h.rd a h3 h4), fun b hb => (k.defer b hb).trans (h.defer b hb),
    fun b hb => k.sdOff b hb ∘ h.sdOff b hb, fun g hg => k.lsOff g hg ∘ h.lsOff g hg⟩

theorem foldl {f : State → Nat → State} {l : List Nat} (h : ∀ x ∈ l, ∀ u, Disarms u (f u x)) (s : State) :
    Disarms s (l.foldl f s) := by
  induction l generalizing s with
  | nil => exact refl s
  | cons x l ih =>
    rw [List.forall_mem_cons] at h
    exact (h.1 s).trans (ih h.2 (f s x))

end

section
variable (s : State)

theorem sdBankOff_rd {b a : Nat} (hstat : a ≠ R.sdBstat b) (hctrl : a ≠ R.sdBctrl b) (hchan : ¬ SdStatusReg b a) :
    (sdBankOff s b).rd a = s.rd a := by
  obtain ⟨c, h⟩ := sdBankOff_eq s b
  rw [h, setSdB_rd, set_rd_ne _ _ _ _ hstat, set_rd_ne _ _ _ _ hstat, set_rd_ne _ _ _ _ hctrl,
    (ChannelStep.bankChansOff s b).rd a hstat hchan]

theorem sdDisarm_rd {b a : Nat} (hstat : a ≠ R.sdBstat b) (hctrl : a ≠ R.sdBctrl b) (hchan : ¬ SdStatusReg b a) :
    (sdDisarm s b).rd a = s.rd a :=
  sdDisarm_keeps s b (·.rd a) (sdBankOff_rd s hstat hctrl hchan) fun _ => rfl

theorem sdDisarm {b : Nat} (hb : b < 12) : Disarms s (sdDisarm s b) where
  only := .sdDisarm s b
  rd a h3 _ := by
    refine sdDisarm_rd s ?_ ?_ ?_
    · simp only [R.sdBstat]; omega
    · simp only [R.sdBctrl]; omega
    · rintro ⟨n, hn, hlo, hhi⟩
      simp only [R.sdCctrl] at hlo hhi
      omega
  defer k hk := by
    by_cases hkb : k = b
    · rw [hkb]
      exact sdDisarm_keeps s b (·.flag (R.sdBstatDefer b)) (sdBankOff_flag s b (by decide) (by decide)) fun _ => rfl
    · refine flag_of_rd (sdDisarm_rd s ?_ ?_ (ChannelStep.not_statusReg_low b ?_)) <;>
        simp only [R.sdBstat, R.sdBctrl] <;> omega
  sdOff k hk harmed := by
    by_cases hkb : k = b
    · rw [hkb] at harmed ⊢
      rw [Machine.sdDisarm, if_pos harmed, harmed]
    · refine (flag_of_rd (sdDisarm_rd s ?_ ?_ (ChannelStep.not_statusReg_low b ?_))).trans harmed <;>
        simp only [R.sdBstat, R.sdBctrl] <;> omega
  lsOff g hg harmed := by
    refine (flag_of_rd (sdDisarm_rd s ?_ ?_ ?_)).trans harmed
    · simp only [R.sdBstat, R.lsGctrl]; omega
    · simp only [R.sdBctrl, R.lsGctrl]; omega
    · rintro ⟨n, hn, hlo, hhi⟩
      simp only [R.sdCctrl, R.lsGctrl] at hlo hhi
      omega

/-- Where no load dump defers it, every bank of a list ends disarmed. -/
theorem sdDisarms_sdArmed {l : List Nat} (hl : ∀ b ∈ l, b < 12) (hdefer : ∀ k < 12, s.flag (R.sdBstatDefer k) = false)
    {k : Nat} (hk : k ∈ l) : (l.foldl Machine.sdDisarm s).sdArmed k = false := by
  induction l generalizing s with
  | nil => exact absurd hk List.not_mem_nil
  | cons b l ih =>
    rw [List.forall_mem_cons] at hl
    obtain ⟨hb, hrest⟩ := hl
    have hstep := sdDisarm s hb
    rw [List.foldl_cons]
    rcases List.mem_cons.1 hk with rfl | hk
    · exact (foldl (fun x hx u => sdDisarm u (hrest x hx)) _).sdOff k hb (sdDisarm_sdArmed s k (hdefer k hb))
    · exact ih _ hrest (fun i hi => (hstep.defer i hi).trans (hdefer i hi)) hk

theorem groupDisarm_rd {g a : Nat} (ha : a ≠ R.lsGctrl g) (hchan : ∀ n, n / 4 = g → ¬ LsStatusReg n a) :
    (groupDisarm s g).rd a = s.rd a := by
  unfold Machine.groupDisarm
  split
  · rw [foldl_keeps (·.rd a) _ _ fun n hn u => (SwitchStep.lsTurnOff u n).rd a (hchan n (div_four_of_mem_bankChans hn)),
      set_rd_ne _ _ _ _ ha]
  · rfl

theorem groupDisarm_off {g : Nat} (hg : g < 8) : (Machine.groupDisarm s g).lsArmed g = false := by
  by_cases harmed : s.lsArmed g = true
  · exact groupDisarm_lsArmed s g hg harmed
  · rw [Machine.groupDisarm, if_neg harmed]
    exact Bool.eq_false_of_not_eq_true harmed

theorem groupDisarm {g : Nat} (hg : g < 8) : Disarms s (groupDisarm s g) := by
  have hlow {a : Nat} (ha : a < 0x20041000) (n : Nat) (_ : n / 4 = g) : ¬ LsStatusReg n a := SwitchStep.not_statusReg_low n ha
  refine ⟨.groupDisarm s g, fun a _ h4 => groupDisarm_rd s ?_ fun n hn => ?_, fun k hk => ?_, fun k hk => ?_, fun k hk harmed => ?_⟩
  · simp only [R.lsGctrl]; omega
  · rintro ⟨hlo, hhi⟩
    simp only [R.lsCctrl] at hlo hhi
    omega
  · exact flag_of_rd (groupDisarm_rd s (by simp only [R.sdBstat, R.lsGctrl]; omega) (hlow (by simp only [R.sdBstat]; omega)))
  · exact (flag_of_rd (groupDisarm_rd s (by simp only [R.sdBctrl, R.lsGctrl]; omega)
      (hlow (by simp only [R.sdBctrl]; omega)))).trans
  · by_cases hkg : k = g
    · rw [hkg]
      exact groupDisarm_off s hg
    · exact (flag_of_rd (groupDisarm_rd s (by simp only [R.lsGctrl]; omega)
        (hlow (by simp only [R.lsGctrl]; omega)))).trans harmed

theorem groupDisarms_lsArmed {l : List Nat} (hl : ∀ g ∈ l, g < 8) {k : Nat} (hk : k ∈ l) :
    (l.foldl Machine.groupDisarm s).lsArmed k = false := by
  induction l generalizing s with
  | nil => exact absurd hk List.not_mem_nil
  | cons g l ih =>
    rw [List.forall_mem_cons] at hl
    obtain ⟨hg, hrest⟩ := hl
    rw [List.foldl_cons]
    rcases List.mem_cons.1 hk with rfl | hk
    · exact (foldl (fun x hx u => groupDisarm u (hrest x hx)) _).lsOff k hg (groupDisarm_off s hg)
    · exact ih _ hrest hk

theorem disarmAll : Disarms s (disarmAll s) :=
  (foldl (fun _ hb u => sdDisarm u (List.mem_range.1 hb)) s).trans
    (foldl (fun _ hg u => groupDisarm u (List.mem_range.1 hg)) _)

theorem disarmAll_sdArmed (hdefer : ∀ k < 12, s.flag (R.sdBstatDefer k) = false) {k : Nat} (hk : k < 12) :
    (Machine.disarmAll s).sdArmed k = false :=
  (foldl (fun _ hg u => groupDisarm u (List.mem_range.1 hg)) _).sdOff k hk
    (sdDisarms_sdArmed s (fun _ => List.mem_range.1) hdefer (List.mem_range.2 hk))

theorem disarmAll_lsArmed {g : Nat} (hg : g < 8) : (Machine.disarmAll s).lsArmed g = false :=
  groupDisarms_lsArmed _ (fun _ => List.mem_range.1) (List.mem_range.2 hg)

end
end Disarms
end Sys2Proof.Machine

/-! Reports, shutdown and the end of a thermal reading (20_keeper_events_thermal.md R455, R458, R459). -/
namespace Sys2Proof.Machine
open State

/-! Reports of warning and throttle (R455) -/
section
variable (s : State) (z : Nat) (t : Int)

/-- The data of the event of a level that is entered or left. -/
def crossing (z : Nat) (t : Int) (on : Bool) : List Byte := [BitVec.ofNat 8 z, if on then 1 else 0] ++ leBytes 2 (wrapInt 16 t)

/-- Warning, entered or left, is reported. -/
def warnReported (s : State) (z : Nat) (t : Int) (w0 w1 : Bool) : State :=
  if w1 = w0 then s else ((if w1 then s.thCount 0 else s).fire 528).log 0x1401 (crossing z t w1)

/-- Throttle, entered or left, is reported. -/
def throttleReported (s : State) (z : Nat) (t : Int) (t0 t1 : Bool) : State :=
  if t1 = t0 then s else ((if t1 then s.thCount 1 else s).fire 529).log 0x1402 (crossing z t t1)

/-- Both. -/
def zoneReported (s : State) (z : Nat) (t : Int) (w0 t0 : Bool) : State :=
  throttleReported (warnReported s z t w0 (zoneWarned s z)) z t t0 (zoneThrottled s z)

/-- The level that a zone shows. -/
def zoneLevel (s : State) (z : Nat) : Nat :=
  if s.flag ⟨R.thLatch, z, 1⟩ then 3 else if zoneThrottled s z then 2 else if zoneWarned s z then 1 else 0

theorem zoneLevel_lt : zoneLevel s z < 4 := by unfold zoneLevel; split_ifs <;> decide

/-- The warnings as their counter stands after the report. -/
def warningCounted (s : State) (z : Nat) (w0 : Bool) : State :=
  if zoneWarned s z = w0 then s else if zoneWarned s z then s.thCount 0 else s

theorem warningCounted_eq (w0 : Bool) : ∃ x, warningCounted s z w0 = s.setTh { s.th with counters := x } := by
  unfold warningCounted
  split
  · exact ⟨s.th.counters, rfl⟩
  · split
    · exact ⟨_, rfl⟩
    · exact ⟨s.th.counters, rfl⟩

theorem Reports.warnReported (w0 : Bool) : Reports 1 (warningCounted s z w0) (warnReported s z t w0 (zoneWarned s z)) := by
  unfold warningCounted Machine.warnReported
  split
  · exact (refl s).mono (by decide)
  · exact (fire _ rfl (by decide)).trans (log _ _ _)

theorem Reports.throttleReported (t0 t1 : Bool) : Reports 1 s (throttleReported s z t t0 t1) :=
  ite ((refl s).mono (by decide)) (((ite (thCount s (by decide)) (refl s)).trans (fire _ rfl (by decide))).trans (log _ _ _))

theorem Reports.zoneReported (w0 t0 : Bool) : Reports 2 (warningCounted s z w0) (zoneReported s z t w0 t0) :=
  (warnReported s z t w0).trans (throttleReported _ z t t0 _)

variable {s z t}

theorem zoneReported_mem_intake {w0 t0 : Bool} {e : Ev} (he : e ∈ s.ev.intake) : e ∈ (zoneReported s z t w0 t0).ev.intake := by
  refine (Reports.zoneReported s z t w0 t0).mem_intake ?_
  obtain ⟨x, hx⟩ := warningCounted_eq s z w0
  rwa [hx, setTh_ev]

theorem zoneReported_rd {w0 t0 : Bool} {a : Nat} (ha : HeatReg a) : (zoneReported s z t w0 t0).rd a = s.rd a := by
  obtain ⟨x, hx⟩ := warningCounted_eq s z w0
  rw [(Reports.zoneReported s z t w0 t0).rd a ha, hx, setTh_rd]

theorem zoneReported_room {w0 t0 : Bool} {k : Nat} (hroom : Room s (2 + k)) : Room (zoneReported s z t w0 t0) k := by
  refine (Reports.zoneReported s z t w0 t0).room ?_
  obtain ⟨x, hx⟩ := warningCounted_eq s z w0
  unfold Room at hroom ⊢
  rwa [hx, setTh_ev]

theorem warnReported_enters : warnReported s z t false true = ((s.thCount 0).fire 528).log 0x1401 (crossing z t true) := rfl

theorem throttleReported_enters : throttleReported s z t false true = ((s.thCount 1).fire 529).log 0x1402 (crossing z t true) := rfl

/-- Entry into warning is reported. -/
theorem zoneReported_warning {t0 : Bool} (hwarned : zoneWarned s z = true) (hroom : Room s 1) :
    eventOf 0x1401 (crossing z t true) ∈ (zoneReported s z t false t0).ev.intake := by
  refine (Reports.throttleReported _ z t t0 _).mem_intake ?_
  rw [hwarned, warnReported_enters, log_intake_of_room _ (by decide)
    ((Reports.fire (s.thCount 0) (src := 528) rfl (by decide)).room hroom)]
  exact List.mem_append_right _ List.mem_cons_self

/-- Entry into throttle is reported. -/
theorem zoneReported_throttle {w0 : Bool} (hthrottled : zoneThrottled s z = true) (hroom : Room s 2) :
    eventOf 0x1402 (crossing z t true) ∈ (zoneReported s z t w0 false).ev.intake := by
  obtain ⟨u, hu⟩ : ∃ u, warnReported s z t w0 (zoneWarned s z) = u := ⟨_, rfl⟩
  obtain ⟨x, hx⟩ := warningCounted_eq s z w0
  have hroomu : Room u 1 := by
    refine (hu ▸ Reports.warnReported s z t w0).room ?_
    unfold Room at hroom ⊢
    rwa [hx, setTh_ev]
  rw [zoneReported, hu, hthrottled, throttleReported_enters, log_intake_of_room _ (by decide)
    (((Reports.thCount u (by decide)).trans (Reports.fire _ (src := 529) rfl (by decide))).room hroomu)]
  exact List.mem_append_right _ List.mem_cons_self

end

/-! The end of a reading -/

/-- A reading ends: the zone reports, shows its level and its interval, and the Damper follows. -/
def reportEnded (s : State) (z : Nat) (t : Int) (w0 t0 : Bool) : State := readingEnded (zoneReport s z t w0 t0) z t

section
variable {s : State} {z : Nat} {t : Int} {w0 t0 : Bool}

/-- Before the Damper follows. -/
def reportShown (s : State) (z : Nat) (t : Int) (w0 t0 : Bool) : State :=
  ((zoneReported s z t w0 t0).set (R.thZstatLevel z) (zoneLevel s z)).set (R.thZstatInterval z) (nextInterval z t)

theorem heatReg_latch : HeatReg R.thLatch := heatReg_thermal rfl (by decide)

theorem heatReg_thZstat (hz : z < 20) : HeatReg (R.thZstat z) :=
  heatReg_thermal (by simp only [R.thZstat]; omega) (by simp only [R.thZstat, R.thIrqStat]; omega)

theorem zoneReport_eq : zoneReport s z t w0 t0 = (zoneReported s z t w0 t0).set (R.thZstatLevel z) (zoneLevel s z) := by
  have hlatch : (zoneReported s z t w0 t0).flag ⟨R.thLatch, z, 1⟩ = s.flag ⟨R.thLatch, z, 1⟩ :=
    flag_of_rd (zoneReported_rd heatReg_latch)
  rw [zoneLevel, ← hlatch]
  rfl

theorem reportEnded_eq : reportEnded s z t w0 t0 = damperCheck (reportShown s z t w0 t0) := by
  rw [reportEnded, readingEnded, zoneReport_eq, reportShown]

theorem reportShown_rd {a : Nat} (ha : HeatReg a) (hne : a ≠ R.thZstat z) : (reportShown s z t w0 t0).rd a = s.rd a := by
  rw [reportShown, set_rd_ne _ _ _ _ hne, set_rd_ne _ _ _ _ hne, zoneReported_rd ha]

theorem reportShown_level : (reportShown s z t w0 t0).get (R.thZstatLevel z) = zoneLevel s z := by
  rw [reportShown, set_get_ne _ _ _ _ (by simp) (.inr (.inl (by simp))), set_get _ _ _ (by simp)]
  exact Nat.mod_eq_of_lt (zoneLevel_lt s z)

theorem reportShown_zstat {l w : Nat} (hz : z < 20) (hl : (2 ≤ l ∧ l + w ≤ 4) ∨ 6 ≤ l) :
    (reportShown s z t w0 t0).get ⟨R.thZstat z, l, w⟩ = s.get ⟨R.thZstat z, l, w⟩ := by
  rw [reportShown, set_get_ne _ _ _ _ (by simp) (.inr (by simp only; omega)),
    set_get_ne _ _ _ _ (by simp) (.inr (.inr (by simp only; omega))),
    get_of_rd (f := ⟨R.thZstat z, l, w⟩) (zoneReported_rd (heatReg_thZstat hz))]

/-- What the end of a reading leaves. -/
structure ReadingEnd (s : State) (z : Nat) (u : State) : Prop where
  mem : u.mem = s.mem
  now : u.now = s.now
  shutAt : u.th.shutAt = s.th.shutAt
  level : u.get (R.thZstatLevel z) = zoneLevel s z
  temp : u.get (R.thZstatTemp z) = s.get (R.thZstatTemp z)
  sdpend : u.flag R.thStatSdpend = s.flag R.thStatSdpend
  rd : ∀ a, HeatReg a → a ≠ R.thZstat z → a ≠ R.thStat → u.rd a = s.rd a

theorem readingEnd (s : State) {z : Nat} (hz : z < 20) (t : Int) (w0 t0 : Bool) :
    ReadingEnd s z (reportEnded s z t w0 t0) := by
  obtain ⟨x, hx⟩ := warningCounted_eq s z w0
  have hreported := Reports.zoneReported s z t w0 t0
  rw [hx] at hreported
  obtain ⟨v, hv⟩ : ∃ v, reportShown s z t w0 t0 = v := ⟨_, rfl⟩
  obtain ⟨u, hu, hcheck⟩ := Reports.damperCheck v
  have hmem : v.mem = s.mem := by rw [← hv, reportShown, set_mem, set_mem, hreported.mem, setTh_mem]
  have hnow : v.now = s.now := by rw [← hv, reportShown, set_now, set_now, hreported.now, setTh_now]
  have hshut : v.th.shutAt = s.th.shutAt := by rw [← hv, reportShown, set_th, set_th, hreported.shutAt, setTh_th]
  have hstat : R.thZstat z ≠ R.thStat := by simp only [R.thZstat, R.thStat]; omega
  have hurd {a : Nat} (hne : a ≠ R.thStat) : u.rd a = v.rd a := by
    rcases hu with rfl | ⟨d, rfl⟩
    · rfl
    · exact set_rd_ne _ _ _ _ hne
  have huth : u.th = v.th := by
    rcases hu with rfl | ⟨d, rfl⟩
    · rfl
    · rw [set_th]
  rw [reportEnded_eq, hv]
  refine ⟨?_, ?_, ?_, ?_, ?_, ?_, fun a ha hz' hne => ?_⟩
  · rcases hu with rfl | ⟨d, rfl⟩
    · rw [hcheck.mem, hmem]
    · rw [hcheck.mem, set_mem, hmem]
  · rcases hu with rfl | ⟨d, rfl⟩
    · rw [hcheck.now, hnow]
    · rw [hcheck.now, set_now, hnow]
  · rw [hcheck.shutAt, huth, hshut]
  · rw [hcheck.get (f := R.thZstatLevel z) (heatReg_thZstat hz), get_of_rd (hurd hstat), ← hv, reportShown_level]
  · rw [hcheck.get (f := R.thZstatTemp z) (heatReg_thZstat hz), get_of_rd (hurd hstat), ← hv,
      reportShown_zstat hz (.inr (by decide))]
  · have hkeep : u.flag R.thStatSdpend = v.flag R.thStatSdpend := by
      rcases hu with rfl | ⟨d, rfl⟩
      · rfl
      · exact set_flag_ne _ _ _ _ (by decide) (by decide)
    rw [hcheck.flag heatReg_thStat, hkeep, ← hv, flag_of_rd (f := R.thStatSdpend) (reportShown_rd heatReg_thStat hstat.symm)]
  · rw [hcheck.rd a ha, hurd hne, ← hv, reportShown_rd ha hz']

theorem reportEnded_mem_intake {e : Ev} (he : e ∈ (zoneReported s z t w0 t0).ev.intake) :
    e ∈ (reportEnded s z t w0 t0).ev.intake := by
  obtain ⟨v, hv⟩ : ∃ v, reportShown s z t w0 t0 = v := ⟨_, rfl⟩
  obtain ⟨u, hu, hcheck⟩ := Reports.damperCheck v
  rw [reportEnded_eq, hv]
  refine hcheck.mem_intake ?_
  have hev : v.ev = (zoneReported s z t w0 t0).ev := by rw [← hv, reportShown, set_ev, set_ev]
  rcases hu with rfl | ⟨d, rfl⟩
  · rwa [hev]
  · rwa [set_ev, hev]

end

/-! Shutdown (R458, R459) -/
section
variable {s : State} {z : Nat} {t : Int}

/-- The data of the event of a shutdown. -/
def shutdownData (z : Nat) (t : Int) : List Byte := [BitVec.ofNat 8 z] ++ leBytes 2 (wrapInt 16 t)

/-- The zone's shutdown latches. -/
def latched (s : State) (z : Nat) : State := (s.set ⟨R.thLatch, z, 1⟩ 1).set (R.thZstatLevel z) 3

/-- The module's shutdown is due 20 ms later. -/
def shutdownDue (s : State) : State := if s.th.shutAt.isSome then s else s.setTh { s.th with shutAt := some (s.now + 20000000) }

theorem zoneShutdown_of_stage (hlatch : s.flag ⟨R.thLatch, z, 1⟩ = false) (hkind : zoneKind z = .stage) :
    zoneShutdown s z t = stageZoneOff (((latched s z).fire 532).log 0x1403 (shutdownData z t)) z := by
  rw [zoneShutdown, if_neg (by simp [hlatch])]
  exact if_pos hkind

theorem zoneShutdown_of_other (hlatch : s.flag ⟨R.thLatch, z, 1⟩ = false) (hkind : zoneKind z ≠ .stage) :
    zoneShutdown s z t = (((shutdownDue (latched s z)).set R.thStatSdpend 1).fire 2).log 0x1403 (shutdownData z t) := by
  rw [zoneShutdown, if_neg (by simp [hlatch])]
  exact if_neg hkind

theorem latched_latch (hz : z < 20) : (latched s z).flag ⟨R.thLatch, z, 1⟩ = true := by
  rw [latched, set_flag_ne _ _ _ _ (by simp) (.inl (by simp only [R.thLatch, R.thZstat]; omega)),
    set_flag _ _ _ (by simp only; omega) rfl]
  rfl

end

end Sys2Proof.Machine

/-! Thermal readings: the levels, the Damper and the shutdowns (20_keeper_events_thermal.md R453 to R459). -/
namespace Sys2Proof.Machine
open State

/-! A first reading of sound sensors -/
section
variable {s : State} {z : Nat} {a b : Int} {rawA rawB : Nat}

theorem zoneSensors_of_die (hz : z < 4) : zoneSensors z = [2 * z, 2 * z + 1] := if_pos hz

theorem zoneSensors_of_single (hz : 4 ≤ z) : zoneSensors z = [z + 4] := if_neg (by omega)

theorem zoneValue_of_die (hz : z < 4) (hfirst : s.get (R.thSensFault (2 * z)) = 0)
    (hsecond : s.get (R.thSensFault (2 * z + 1)) = 0) : zoneValue s z a b false = (max a b, false, false) := by
  simp only [zoneValue, zoneSensors_of_die hz, hfirst, hsecond, bne_self_eq_false, Bool.and_self, Bool.false_eq_true, if_false]

theorem zoneValue_of_single (hz : 4 ≤ z) (hfault : s.get (R.thSensFault (z + 4)) = 0) :
    zoneValue s z a b false = (a, false, false) := by
  simp only [zoneValue, zoneSensors_of_single hz, hfault, bne_self_eq_false]

theorem sensorsRead_of_die (hz : z < 4) : sensorsRead s z a b rawA rawB false =
    sensorReading (sensorReading s (2 * z) a rawA false) (2 * z + 1) b rawB false := by
  simp only [sensorsRead, zoneSensors_of_die hz]

theorem sensorsRead_of_single (hz : 4 ≤ z) : sensorsRead s z a b rawA rawB false = sensorReading s (z + 4) a rawA false := by
  simp only [sensorsRead, zoneSensors_of_single hz]

/-- The zone acts on a sound first reading t. -/
def soundActed (s m : State) (z : Nat) (t : Int) : State :=
  readingEnded (zoneActed m z (t, false, false) (zoneWarned s z) (zoneThrottled s z)) z t

theorem thermalReading_die (hz : z < 4) (hth : s.th = {}) (ha : -550 ≤ a ∧ a ≤ 2000) (hb : -550 ≤ b ∧ b ≤ 2000)
    (hpair : (a - b).natAbs ≤ 150) (hfirst : s.get (R.thSensFault (2 * z)) = 0)
    (hsecond : s.get (R.thSensFault (2 * z + 1)) = 0) :
    ∃ m, ZoneRead s z (max a b) m ∧ m.get (R.thSensTemp (2 * z)) = wrapInt 16 a ∧
      m.get (R.thSensTemp (2 * z + 1)) = wrapInt 16 b ∧ thermalReading s z a b rawA rawB = soundActed s m z (max a b) := by
  obtain ⟨u, hu⟩ : ∃ u, sensorReading s (2 * z) a rawA false = u := ⟨_, rfl⟩
  obtain ⟨w, hw⟩ : ∃ w, sensorReading u (2 * z + 1) b rawB false = w := ⟨_, rfl⟩
  have hlast (k : Nat) : (s.thSensor k).last = none := by rw [thSensor, hth]; rfl
  obtain ⟨hsu, htempA, hothers⟩ := SensorsStep.sensorReading rawA (hlast _) ha.1 ha.2 hfirst
  rw [hu] at hsu htempA hothers
  obtain ⟨hsensor, -⟩ := hothers (2 * z + 1) (by omega)
  obtain ⟨hsw, htempB, hkept⟩ := SensorsStep.sensorReading (k := 2 * z + 1) rawB (by rw [hsensor, hlast]) hb.1 hb.2
    ((hsu.fault _).trans hsecond)
  rw [hw] at hsw htempB hkept
  obtain ⟨-, htempA'⟩ := hkept (2 * z) (by omega)
  have hread := hsu.trans hsw
  have hvalue : zoneValue w z a b false = (max a b, false, false) :=
    zoneValue_of_die hz ((hread.fault _).trans hfirst) ((hread.fault _).trans hsecond)
  have hzones : w.th.zones = [] := by rw [hread.zones, hth]
  obtain ⟨hzone, hrd⟩ := zoneRead_of_first w (z := z) (v := (max a b, false, false)) rfl hzones
  have hsens (k : Nat) : R.thSens k ≠ R.thZstat z ∧ R.thSens k ≠ R.thZmax z := by
    simp only [R.thSens, R.thZstat, R.thZmax]; omega
  refine ⟨_, hzone.of_sensors (by omega) hread, ?_, ?_, ?_⟩
  · rw [get_of_rd (f := R.thSensTemp (2 * z)) (hrd _ (hsens _).1 (hsens _).2), htempA', htempA]
  · rw [get_of_rd (f := R.thSensTemp (2 * z + 1)) (hrd _ (hsens _).1 (hsens _).2), htempB]
  · have hfar : (decide (z < 4) && decide (150 < (a - b).natAbs)) = false := by
      rw [Bool.and_eq_false_iff]
      exact .inr (decide_eq_false (by omega))
    rw [thermalReading_of_first hth, readingNow]
    simp only [hfar]
    rw [sensorsRead_of_die hz, hu, hw, hvalue]
    rfl

theorem thermalReading_single (hz : 4 ≤ z) (hz20 : z < 20) (hth : s.th = {}) (hlow : -550 ≤ a) (hhigh : a ≤ 2000)
    (hfault : s.get (R.thSensFault (z + 4)) = 0) :
    ∃ m, ZoneRead s z a m ∧ thermalReading s z a b rawA rawB = soundActed s m z a := by
  obtain ⟨u, hu⟩ : ∃ u, sensorReading s (z + 4) a rawA false = u := ⟨_, rfl⟩
  obtain ⟨hread, -⟩ := SensorsStep.sensorReading (k := z + 4) rawA (by rw [thSensor, hth]; rfl) hlow hhigh hfault
  rw [hu] at hread
  have hvalue : zoneValue u z a b false = (a, false, false) := zoneValue_of_single hz ((hread.fault _).trans hfault)
  have hzones : u.th.zones = [] := by rw [hread.zones, hth]
  obtain ⟨hzone, -⟩ := zoneRead_of_first u (z := z) (v := (a, false, false)) rfl hzones
  refine ⟨_, hzone.of_sensors hz20 hread, ?_⟩
  have hfar : (decide (z < 4) && decide (150 < (a - b).natAbs)) = false := by
    rw [Bool.and_eq_false_iff]
    exact .inl (decide_eq_false (by omega))
  rw [thermalReading_of_first hth, readingNow]
  simp only [hfar]
  rw [sensorsRead_of_single hz, hu, hvalue]
  rfl

end

/-! What the levels read -/
section
variable {s m : State} {z : Nat} {t : Int}

theorem zoneKind_of_die (hz : z < 4) : zoneKind z = .die := if_pos hz

theorem zoneKind_of_stage (hz : 4 ≤ z) (hz' : z < 15) : zoneKind z = .stage := by
  rw [zoneKind, if_neg (by omega), if_pos hz']

theorem zoneKind_of_housing (hz : 18 ≤ z) : zoneKind z = .housing := by
  rw [zoneKind, if_neg (by omega), if_neg (by omega), if_neg (by omega)]

theorem thresholds_of_die (hz : z < 4) : thresholds z = (1050, some 1150, 1250) := by rw [thresholds, zoneKind_of_die hz]

theorem thresholds_of_stage (hz : 4 ≤ z) (hz' : z < 15) : thresholds z = (1400, none, 1600) := by
  rw [thresholds, zoneKind_of_stage hz hz']

theorem thresholds_of_housing (hz : 18 ≤ z) : thresholds z = (950, some 1000, 1100) := by
  rw [thresholds, zoneKind_of_housing hz]

theorem zoneOff_of_die (hz : z < 4) : zoneOff z (t, false, false) = decide (1250 ≤ t) := by
  rw [zoneOff, zoneKind_of_die hz, thresholds_of_die hz]
  rfl

theorem zoneOff_of_stage (hz : 4 ≤ z) (hz' : z < 15) : zoneOff z (t, false, false) = decide (1600 ≤ t) := by
  rw [zoneOff, zoneKind_of_stage hz hz', thresholds_of_stage hz hz']
  rfl

theorem zoneOff_of_housing (hz : 18 ≤ z) : zoneOff z (t, false, false) = decide (1100 ≤ t) := by
  rw [zoneOff, zoneKind_of_housing hz, thresholds_of_housing hz]
  rfl

theorem soundActed_of_on (h : zoneOff z (t, false, false) = false) :
    soundActed s m z t = reportEnded m z t (zoneWarned s z) (zoneThrottled s z) := by
  rw [soundActed, zoneActed, h, if_neg Bool.false_ne_true, reportEnded]

theorem soundActed_of_off (h : zoneOff z (t, false, false) = true) :
    soundActed s m z t = reportEnded (zoneShutdown m z t) z t (zoneWarned s z) (zoneThrottled s z) := by
  rw [soundActed, zoneActed, h, if_pos rfl, reportEnded]

/-- A zone never read, not held, not rising and not latched is at no level. -/
theorem zoneWarned_of_fresh (hth : s.th = {}) (hheld : s.flag (R.thZstatHeld z) = false)
    (hror : s.flag (R.thZstatRor z) = false) : zoneWarned s z = false := by
  rw [zoneWarned, hheld, hror, thZone, hth]
  rfl

theorem zoneThrottled_of_fresh (hth : s.th = {}) (hheld : s.flag (R.thZstatHeld z) = false)
    (hror : s.flag (R.thZstatRor z) = false) (hlatch : s.flag ⟨R.thLatch, z, 1⟩ = false) : zoneThrottled s z = false := by
  rw [zoneThrottled, hheld, hror, hlatch, thZone, hth]
  exact Bool.and_false _

namespace ZoneRead

variable (h : ZoneRead s z t m)
include h

theorem latch : m.flag ⟨R.thLatch, z, 1⟩ = s.flag ⟨R.thLatch, z, 1⟩ :=
  flag_of_rd (h.rd _ (by simp only [R.thLatch, R.thZstat]; omega) (by simp only [R.thLatch, R.thZmax]; omega)
    fun k => by simp only [R.thLatch, R.thSens]; omega)

theorem damper : m.get R.thStatDamper = s.get R.thStatDamper :=
  get_of_rd (h.rd _ (by simp only [R.thStat, R.thZstat]; omega) (by simp only [R.thStat, R.thZmax]; omega)
    fun k => by simp only [R.thStat, R.thSens]; omega)

theorem room {n : Nat} (hroom : Room s n) : Room m n := by
  unfold Room at hroom ⊢
  rwa [h.ev]

theorem warned (hror : s.flag (R.thZstatRor z) = false) : zoneWarned m z = decide ((thresholds z).1 ≤ t) := by
  rw [zoneWarned, h.warn, h.held, h.ror, hror, Bool.or_false, Bool.or_false]

theorem throttled (hror : s.flag (R.thZstatRor z) = false) (hlatch : s.flag ⟨R.thLatch, z, 1⟩ = false) :
    zoneThrottled m z = ((thresholds z).2.1.isSome && (m.thZone z).thr) := by
  rw [zoneThrottled, h.held, h.ror, hror, h.latch, hlatch, Bool.or_false, Bool.or_false, Bool.or_false]

end ZoneRead
end

/-! Below shutdown -/
section
variable {s : State} {z : Nat} {a b : Int} {rawA rawB : Nat}

theorem crossing_eq (hlow : 0 ≤ a) (hhigh : a < 65536) : crossing z a true = leBytes 1 z ++ [1] ++ leBytes 2 a.toNat := by
  rw [crossing, wrapInt_of_nonneg hlow hhigh]
  rfl

theorem shutdownData_eq (hlow : 0 ≤ a) (hhigh : a < 65536) : shutdownData z a = leBytes 1 z ++ leBytes 2 a.toNat := by
  rw [shutdownData, wrapInt_of_nonneg hlow hhigh]
  rfl

theorem dieReading_cool (hz : z < 4) (hth : s.th = {}) (halow : -550 ≤ a) (hahigh : a < 1050) (hblow : -550 ≤ b)
    (hbhigh : b < 1050) (hpair : (a - b).natAbs ≤ 150) (hfirst : s.get (R.thSensFault (2 * z)) = 0)
    (hsecond : s.get (R.thSensFault (2 * z + 1)) = 0) (hlatch : s.flag ⟨R.thLatch, z, 1⟩ = false)
    (hror : s.flag (R.thZstatRor z) = false) :
    ∃ t, exec (.thermalReading z a b rawA rawB) s = .next t ∧ t.get (R.thZstatLevel z) = 0 ∧
      int16 (t.get (R.thZstatTemp z)) = max a b ∧ int16 (t.get (R.thSensTemp (2 * z))) = a ∧
      int16 (t.get (R.thSensTemp (2 * z + 1))) = b ∧ t.th.shutAt = none ∧ t.now = s.now ∧ SameMemory s t := by
  have hz20 : z < 20 := by omega
  obtain ⟨m, hm, htempA, htempB, hacts⟩ := thermalReading_die (rawA := rawA) (rawB := rawB) hz hth ⟨halow, by omega⟩
    ⟨hblow, by omega⟩ hpair hfirst hsecond
  have hmax : max a b < 1050 ∧ -550 ≤ max a b := by omega
  have hon : zoneOff z (max a b, false, false) = false := by
    rw [zoneOff_of_die hz]
    exact decide_eq_false (by omega)
  have hwarned : zoneWarned m z = false := by
    rw [hm.warned hror, thresholds_of_die hz]
    exact decide_eq_false (by simp only; omega)
  have hthrottled : zoneThrottled m z = false := by
    rw [hm.throttled hror hlatch, hm.thr, thresholds_of_die hz]
    exact decide_eq_false (by omega)
  have hend := readingEnd m hz20 (max a b) (zoneWarned s z) (zoneThrottled s z)
  have hsens {k : Nat} (hk : k < 8) : HeatReg (R.thSens k) ∧ R.thSens k ≠ R.thZstat z ∧ R.thSens k ≠ R.thStat := by
    simp only [HeatReg, R.thSens, R.thZstat, R.thStat, R.thIrqStat]; omega
  obtain ⟨hregA, hstatA, hneA⟩ := hsens (k := 2 * z) (by omega)
  obtain ⟨hregB, hstatB, hneB⟩ := hsens (k := 2 * z + 1) (by omega)
  rw [← soundActed_of_on hon, ← hacts] at hend
  refine ⟨_, exec_thermalReading hz20 .., ?_, ?_, ?_, ?_, ?_, ?_, fun x => ?_⟩
  · rw [hend.level, zoneLevel, hm.latch, hlatch, hwarned, hthrottled]
    rfl
  · rw [hend.temp, hm.temp, int16_wrapInt (by omega) (by omega)]
  · rw [get_of_rd (f := R.thSensTemp (2 * z)) (hend.rd _ hregA hstatA hneA), htempA, int16_wrapInt (by omega) (by omega)]
  · rw [get_of_rd (f := R.thSensTemp (2 * z + 1)) (hend.rd _ hregB hstatB hneB), htempB, int16_wrapInt (by omega) (by omega)]
  · rw [hend.shutAt, hm.shutAt, hth]
  · rw [hend.now, hm.now]
  · rw [hend.mem, hm.mem]

/-- The warnings counted stay through the Damper's steps. -/
theorem reportEnded_warnings {t : Int} {w0 t0 : Bool} :
    (reportEnded s z t w0 t0).th.counters.getD 0 0 = (warningCounted s z w0).th.counters.getD 0 0 := by
  obtain ⟨v, hv⟩ : ∃ v, reportShown s z t w0 t0 = v := ⟨_, rfl⟩
  have hshown : v.th.counters.getD 0 0 = (warningCounted s z w0).th.counters.getD 0 0 := by
    rw [← hv, reportShown, set_th, set_th, (Reports.zoneReported s z t w0 t0).warnings]
  obtain ⟨u, hu, hcheck⟩ := Reports.damperCheck v
  rw [reportEnded_eq, hv, hcheck.warnings]
  rcases hu with rfl | ⟨d, rfl⟩
  · exact hshown
  · rw [set_th, hshown]

theorem stageReading_warm (hz : 4 ≤ z) (hz15 : z < 15) (hth : s.th = {}) (hlow : 1400 ≤ a) (hhigh : a < 1600)
    (hfault : s.get (R.thSensFault (z + 4)) = 0) (hlatch : s.flag ⟨R.thLatch, z, 1⟩ = false)
    (hheld : s.flag (R.thZstatHeld z) = false) (hror : s.flag (R.thZstatRor z) = false) :
    ∃ t, exec (.thermalReading z a b rawA rawB) s = .next t ∧ t.get (R.thZstatLevel z) = 1 ∧
      (Room s 1 → eventOf 0x1401 (leBytes 1 z ++ [1] ++ leBytes 2 a.toNat) ∈ t.ev.intake) ∧ t.th.counters.getD 0 0 = 1 ∧
      SameMemory s t := by
  have hz20 : z < 20 := by omega
  obtain ⟨m, hm, hacts⟩ := thermalReading_single (a := a) (b := b) (rawA := rawA) (rawB := rawB) hz hz20 hth
    (by omega) (by omega) hfault
  have hon : zoneOff z (a, false, false) = false := by
    rw [zoneOff_of_stage hz hz15]
    exact decide_eq_false (by omega)
  have hwarned : zoneWarned m z = true := by
    rw [hm.warned hror, thresholds_of_stage hz hz15]
    exact decide_eq_true hlow
  have hthrottled : zoneThrottled m z = false := by
    rw [hm.throttled hror hlatch, thresholds_of_stage hz hz15]
    rfl
  rw [soundActed_of_on hon, zoneWarned_of_fresh hth hheld hror] at hacts
  have hend := readingEnd m hz20 a false (zoneThrottled s z)
  rw [← hacts] at hend
  refine ⟨_, exec_thermalReading hz20 .., ?_, fun hroom => ?_, ?_, fun x => ?_⟩
  · rw [hend.level, zoneLevel, hm.latch, hlatch, hwarned, hthrottled]
    rfl
  · rw [hacts, ← crossing_eq (by omega) (by omega)]
    exact reportEnded_mem_intake (zoneReported_warning hwarned (hm.room hroom))
  · rw [hacts, reportEnded_warnings, warningCounted, hwarned, if_neg (by decide), if_pos rfl, thCount, setTh_th, hm.counters, hth]
    rfl
  · rw [hend.mem, hm.mem]

theorem dieReading_throttled (hz : z < 4) (hth : s.th = {}) (hlow : 1150 ≤ a) (hhigh : a < 1250)
    (hfirst : s.get (R.thSensFault (2 * z)) = 0) (hsecond : s.get (R.thSensFault (2 * z + 1)) = 0)
    (hlatch : s.flag ⟨R.thLatch, z, 1⟩ = false) (hheld : s.flag (R.thZstatHeld z) = false)
    (hror : s.flag (R.thZstatRor z) = false) (hdamper : s.get R.thStatDamper = 0) :
    ∃ t, exec (.thermalReading z a a rawA rawB) s = .next t ∧ t.get (R.thZstatLevel z) = 2 ∧ t.get R.thStatDamper = 1 ∧
      (Room s 24 → eventOf 0x1402 (leBytes 1 z ++ [1] ++ leBytes 2 a.toNat) ∈ t.ev.intake) ∧
      (Room s 24 → eventOf 0x1406 [1] ∈ t.ev.intake) ∧ 2 ≤ t.get (R.ckClopCeil 0) ∧ 2 ≤ t.get (R.ckClopCeil 1) ∧
      SameMemory s t := by
  have hz20 : z < 20 := by omega
  obtain ⟨m, hm, -, -, hacts⟩ := thermalReading_die (rawA := rawA) (rawB := rawB) hz hth (a := a) (b := a) (by omega)
    (by omega) (by omega) hfirst hsecond
  rw [max_self] at hm hacts
  have hon : zoneOff z (a, false, false) = false := by
    rw [zoneOff_of_die hz]
    exact decide_eq_false (by omega)
  have hthr : (m.thZone z).thr = true := by
    rw [hm.thr, thresholds_of_die hz]
    exact decide_eq_true hlow
  have hthrottled : zoneThrottled m z = true := by
    rw [hm.throttled hror hlatch, hthr, thresholds_of_die hz]
    rfl
  rw [soundActed_of_on hon, zoneThrottled_of_fresh hth hheld hror hlatch] at hacts
  have hend := readingEnd m hz20 a (zoneWarned s z) false
  rw [← hacts] at hend
  obtain ⟨v, hv⟩ : ∃ v, reportShown m z a (zoneWarned s z) false = v := ⟨_, rfl⟩
  have hstat : R.thStat ≠ R.thZstat z := by simp only [R.thZstat, R.thStat]; omega
  have hdamper' : v.get R.thStatDamper = 0 := by
    rw [← hv, get_of_rd (f := R.thStatDamper) (reportShown_rd heatReg_thStat hstat), hm.damper, hdamper]
  have hzone : v.thZone z = m.thZone z := by
    obtain ⟨x, hx⟩ := warningCounted_eq m z (zoneWarned s z)
    rw [thZone, ← hv, reportShown, set_th, set_th, (Reports.zoneReported m z a _ _).zones, hx, setTh_th, thZone]
  have hthrottled' : zoneThrottled v z = true := by
    rw [zoneThrottled, hzone, hthr, thresholds_of_die hz]
    rfl
  have hsteps : thermalReading s z a a rawA rawB = damperTo v 1 := by
    rw [hacts, reportEnded_eq, hv, damperCheck_of_throttled hz20 hthrottled' hdamper']
  have hne : v.get R.thStatDamper ≠ 1 := by rw [hdamper']; decide
  have hroomv (hroom : Room s 24) : Room v 4 := by
    have hreported := zoneReported_room (z := z) (t := a) (w0 := zoneWarned s z) (t0 := false) (k := 22) (hm.room hroom)
    unfold Room at hreported ⊢
    rw [← hv, reportShown, set_ev, set_ev]
    omega
  refine ⟨_, exec_thermalReading hz20 .., ?_, ?_, fun hroom => ?_, fun hroom => ?_, ?_, ?_, fun x => ?_⟩
  · rw [hend.level, zoneLevel, hm.latch, hlatch, hthrottled]
    rfl
  · rw [hsteps, damperTo_damper v 1 (by decide)]
  · rw [hacts, ← crossing_eq (by omega) (by omega)]
    refine reportEnded_mem_intake (zoneReported_throttle hthrottled (hm.room ?_))
    unfold Room at hroom ⊢
    omega
  · rw [hsteps]
    exact damperTo_event v 1 hne (hroomv hroom)
  · rw [hsteps]
    exact damperTo_ceil v 1 hne (.inl rfl) (by decide)
  · rw [hsteps]
    exact damperTo_ceil v 1 hne (.inl rfl) (by decide)
  · rw [hend.mem, hm.mem]

end

/-! At shutdown -/
section
variable {s : State} {z : Nat} {a b : Int} {rawA rawB : Nat}

theorem housingReading_off (hz : 18 ≤ z) (hz20 : z < 20) (hth : s.th = {}) (hlow : 1100 ≤ a) (hhigh : a ≤ 2000)
    (hfault : s.get (R.thSensFault (z + 4)) = 0) (hlatch : s.flag ⟨R.thLatch, z, 1⟩ = false) :
    ∃ t, exec (.thermalReading z a b rawA rawB) s = .next t ∧ t.get (R.thZstatLevel z) = 3 ∧
      t.flag ⟨R.thLatch, z, 1⟩ = true ∧ t.th.shutAt = some (s.now + 20000000) ∧ t.flag R.thStatSdpend = true ∧
      (Room s 24 → eventOf 0x1403 (leBytes 1 z ++ leBytes 2 a.toNat) ∈ t.ev.intake) ∧ SameMemory s t := by
  obtain ⟨m, hm, hacts⟩ := thermalReading_single (a := a) (b := b) (rawA := rawA) (rawB := rawB) (by omega) hz20 hth
    (by omega) hhigh hfault
  have hoff : zoneOff z (a, false, false) = true := by
    rw [zoneOff_of_housing hz]
    exact decide_eq_true hlow
  obtain ⟨l, hl⟩ : ∃ l, latched m z = l := ⟨_, rfl⟩
  obtain ⟨x, hx⟩ : ∃ x, ((shutdownDue l).set R.thStatSdpend 1).fire 2 = x := ⟨_, rfl⟩
  obtain ⟨y, hy⟩ : ∃ y, x.log 0x1403 (shutdownData z a) = y := ⟨_, rfl⟩
  have hshut : zoneShutdown m z a = y := by
    rw [zoneShutdown_of_other (by rw [hm.latch, hlatch]) (by rw [zoneKind_of_housing hz]; decide), hl, hx, hy]
  have hnoshut : l.th.shutAt.isSome = false := by rw [← hl, latched, set_th, set_th, hm.shutAt, hth]; rfl
  have hdue : shutdownDue l = l.setTh { l.th with shutAt := some (l.now + 20000000) } := if_neg (by rw [hnoshut]; decide)
  have hfire := Reports.fire ((shutdownDue l).set R.thStatSdpend 1) (src := 2) rfl (by decide)
  rw [hx] at hfire
  have hlog := Reports.log x 0x1403 (shutdownData z a)
  rw [hy] at hlog
  have hsame := hfire.trans hlog
  have hxth : y.th.shutAt = some (s.now + 20000000) := by
    rw [hsame.shutAt, set_th, hdue, setTh_th, ← hl, latched, set_now, set_now, hm.now]
  have hlatched : y.flag ⟨R.thLatch, z, 1⟩ = true := by
    rw [hsame.flag (f := ⟨R.thLatch, z, 1⟩) heatReg_latch,
      set_flag_ne _ _ _ _ (by decide) (.inl (show R.thLatch ≠ R.thStat by decide)), hdue, setTh_flag, ← hl, latched_latch hz20]
  have hsdpend : y.flag R.thStatSdpend = true := by
    rw [hsame.flag (f := R.thStatSdpend) heatReg_thStat, set_flag _ _ _ (by decide) rfl]
    rfl
  have hmem : y.mem = s.mem := by
    rw [hsame.mem, set_mem, hdue, setTh_mem, ← hl, latched, set_mem, set_mem, hm.mem]
  have hxev : x.ev = s.ev := by rw [← hx, fire_ev, set_ev, hdue, setTh_ev, ← hl, latched, set_ev, set_ev, hm.ev]
  rw [soundActed_of_off hoff, hshut] at hacts
  have hend := readingEnd y hz20 a (zoneWarned s z) (zoneThrottled s z)
  rw [← hacts] at hend
  refine ⟨_, exec_thermalReading hz20 .., ?_, ?_, ?_, ?_, fun hroom => ?_, fun c => ?_⟩
  · rw [hend.level, zoneLevel, hlatched]
    rfl
  · rw [flag_of_rd (f := ⟨R.thLatch, z, 1⟩) (hend.rd _ heatReg_latch (by simp only [R.thLatch, R.thZstat]; omega)
      (show R.thLatch ≠ R.thStat by decide)), hlatched]
  · rw [hend.shutAt, hxth]
  · rw [hend.sdpend, hsdpend]
  · rw [hacts, ← shutdownData_eq (by omega) (by omega)]
    refine reportEnded_mem_intake (zoneReported_mem_intake ?_)
    have hroomx : Room x 1 := by
      unfold Room at hroom ⊢
      rw [hxev]
      omega
    rw [← hy, log_intake_of_room _ (by decide) hroomx]
    exact List.mem_append_right _ List.mem_cons_self
  · rw [hend.mem, hmem]

/-- The banks of a stage zone. -/
def zoneBanks (z : Nat) : List Nat := (List.range 4).map (4 * (z - 4) + ·)

theorem stageZoneOff_of_bank (hz : z < 7) : stageZoneOff s z = (zoneBanks z).foldl sdDisarm s := if_pos hz

theorem lt_twelve_of_mem_zoneBanks (hz : z < 7) {n : Nat} (h : n ∈ zoneBanks z) : n < 12 := by
  simp only [zoneBanks, List.mem_map, List.mem_range] at h
  omega

theorem bankZoneReading_off (hz : 4 ≤ z) (hz7 : z < 7) (hth : s.th = {}) (hlow : 1600 ≤ a) (hhigh : a ≤ 2000)
    (hfault : s.get (R.thSensFault (z + 4)) = 0) (hlatch : s.flag ⟨R.thLatch, z, 1⟩ = false)
    (hdefer : ∀ k, k < 12 → s.flag (R.sdBstatDefer k) = false) :
    ∃ t, exec (.thermalReading z a b rawA rawB) s = .next t ∧ t.flag ⟨R.thLatch, z, 1⟩ = true ∧ t.th.shutAt = none ∧
      (∀ k, k < 4 → t.sdArmed (4 * (z - 4) + k) = false) ∧ SameMemory s t := by
  have hz20 : z < 20 := by omega
  obtain ⟨m, hm, hacts⟩ := thermalReading_single (a := a) (b := b) (rawA := rawA) (rawB := rawB) hz hz20 hth
    (by omega) hhigh hfault
  have hoff : zoneOff z (a, false, false) = true := by
    rw [zoneOff_of_stage hz (by omega)]
    exact decide_eq_true hlow
  obtain ⟨l, hl⟩ : ∃ l, latched m z = l := ⟨_, rfl⟩
  obtain ⟨x, hx⟩ : ∃ x, (l.fire 532).log 0x1403 (shutdownData z a) = x := ⟨_, rfl⟩
  obtain ⟨y, hy⟩ : ∃ y, (zoneBanks z).foldl sdDisarm x = y := ⟨_, rfl⟩
  have hshut : zoneShutdown m z a = y := by
    rw [zoneShutdown_of_stage (by rw [hm.latch, hlatch]) (zoneKind_of_stage hz (by omega)), hl, hx, stageZoneOff_of_bank hz7, hy]
  have hreports := (Reports.fire l (src := 532) rfl (by decide)).trans (Reports.log _ 0x1403 (shutdownData z a))
  rw [hx] at hreports
  have hdisarms : Disarms x y := hy ▸ Disarms.foldl (fun b hb u => Disarms.sdDisarm u (lt_twelve_of_mem_zoneBanks hz7 hb)) x
  have hreg {c : Nat} (hc : c / 65536 = 0x2003) : l.rd c = s.rd c := by
    rw [← hl, latched, set_rd_ne _ _ _ _ (by simp only [R.thZstat]; omega),
      set_rd_ne _ _ _ _ (by simp only [R.thLatch]; omega), hm.rd _ (by simp only [R.thZstat]; omega) (by simp only [R.thZmax]; omega) fun k => ?_]
    have hblock := hc
    intro h
    rw [h] at hblock
    simp only [R.thSens] at hblock
    omega
  have hdeferx (k : Nat) (hk : k < 12) : x.flag (R.sdBstatDefer k) = false := by
    have hblock : R.sdBstat k / 65536 = 0x2003 := by simp only [R.sdBstat]; omega
    rw [hreports.flag (f := R.sdBstatDefer k) (.inr hblock), flag_of_rd (f := R.sdBstatDefer k) (hreg hblock), hdefer k hk]
  have hlatched : y.flag ⟨R.thLatch, z, 1⟩ = true := by
    rw [flag_of_rd (f := ⟨R.thLatch, z, 1⟩) (hdisarms.rd R.thLatch (by decide) (by decide)),
      hreports.flag (f := ⟨R.thLatch, z, 1⟩) heatReg_latch, ← hl, latched_latch hz20]
  have hnoshut : y.th.shutAt = none := by
    rw [hdisarms.only.keeps (·.th.shutAt) fun _ _ _ => rfl, hreports.shutAt, ← hl, latched, set_th, set_th, hm.shutAt, hth]
  have hmem : y.mem = s.mem := by
    rw [hdisarms.only.keeps (·.mem) fun _ _ _ => rfl, hreports.mem, ← hl, latched, set_mem, set_mem, hm.mem]
  rw [soundActed_of_off hoff, hshut] at hacts
  have hend := readingEnd y hz20 a (zoneWarned s z) (zoneThrottled s z)
  rw [← hacts] at hend
  refine ⟨_, exec_thermalReading hz20 .., ?_, ?_, fun k hk => ?_, fun c => ?_⟩
  · rw [flag_of_rd (f := ⟨R.thLatch, z, 1⟩) (hend.rd _ heatReg_latch (by simp only [R.thLatch, R.thZstat]; omega)
      (show R.thLatch ≠ R.thStat by decide)), hlatched]
  · rw [hend.shutAt, hnoshut]
  · have hbank : 4 * (z - 4) + k ∈ zoneBanks z := List.mem_map.2 ⟨k, List.mem_range.2 hk, rfl⟩
    have hctrl : R.sdBctrl (4 * (z - 4) + k) / 65536 = 0x2003 := by simp only [R.sdBctrl]; omega
    rw [sdArmed, flag_of_rd (f := R.sdBctrlArm (4 * (z - 4) + k)) (hend.rd _ (.inr hctrl)
      (by simp only [R.sdBctrl, R.thZstat]; omega) (by simp only [R.sdBctrl, R.thStat]; omega)), ← hy]
    exact Disarms.sdDisarms_sdArmed x (fun _ => lt_twelve_of_mem_zoneBanks hz7) hdeferx hbank
  · rw [hend.mem, hmem]

end

end Sys2Proof.Machine

/-! Hold of the stage dies: what it leaves beside the stage, and the banks and groups that are off
(03_solenoid_drive.md R84, R86, 04_load_switches.md R106). -/
namespace Sys2Proof.Machine
open State

namespace OnlyStage
section
variable (s : State) (n : Nat)

/-! Solenoid banks -/

theorem pullinRequest : OnlyStage s (pullinRequest s n) :=
  ite (refl s) (((setSdC s n _).trans ((setSdB _ _ _).trans (set _ _ _))).trans (set _ _ _))

theorem sdOnInterval (stop : Nat) : OnlyStage s (sdOnInterval s n stop) :=
  ((setSdC s n _).trans (set _ _ _)).trans (pullinRequest _ n)

theorem sdStart : OnlyStage s (sdStart s n) := by
  unfold Machine.sdStart
  refine ite (refl s) ?_
  split
  · exact pullinRequest s n
  · exact ite (pullinRequest s n) (set s _ _)
  · exact ite (sdOnInterval s n _) (refl s)
  · exact refl s

theorem sdEdge (before : Bool) : OnlyStage s (sdEdge s n before) :=
  ite (refl s) (ite (ite (sdStart s n) (refl s)) (ite (sdTurnOff s n) (refl s)))

theorem sdFail : OnlyStage s (sdFail s n) := by
  unfold Machine.sdFail
  refine ite (refl s) (ite ?_ (ite (refl s) ?_))
  · exact ((set s _ _).trans (sdTurnOff _ n)).trans (sdMirror _ n)
  · split
    · exact ((set s _ _).trans (sdEdge _ n _)).trans (sdMirror _ n)
    · exact (((set s _ _).trans (set _ _ _)).trans (sdEdge _ n _)).trans (sdMirror _ n)
    · exact ((((set s _ _).trans (set _ _ _)).trans (ite (refl _) (setSdC _ n _))).trans (sdEdge _ n _)).trans (sdMirror _ n)

theorem bankHoldExpiry : OnlyStage s (bankHoldExpiry s n) :=
  ((((set s _ _).trans (foldl (fun k u => sdFail u k) _ _)).trans (setSdB _ _ _)).trans (tell _ _ _)).trans (tell _ _ _)

/-! Switch groups -/

theorem channelLock (e : Nat) : OnlyStage s (channelLock s n e) :=
  (((lsOffNow s n).trans (set _ _ _)).trans (tell _ _ _)).trans (tell _ _ _)

theorem lsLeak : OnlyStage s (lsLeak s n) := (setLsC s n _).trans (set _ _ _)

theorem lsClampEnd (microJ : Nat) : OnlyStage s (lsClampEnd s n microJ) :=
  (((((lsLeak s n).trans (setLsC _ n _)).trans (set _ _ _)).trans (set _ _ _)).trans (tell _ _ _)).trans
    (ite (channelLock _ n _) (refl _))

theorem lsClose : OnlyStage s (lsClose s n) :=
  (setLsC s n _).trans (ite (refl _) (ite (fresh _) ((fresh _).trans (lsClampEnd _ n _))))

theorem lsDrive : OnlyStage s (lsDrive s n) := by
  refine (set s (R.lsCstatPhase n) 1).trans ?_
  unfold Machine.lsDrive
  dsimp only
  split
  · exact lsClose _ n
  · exact (setLsC _ n _).trans (ite (lsClose _ n) (refl _))
  · exact ite (lsClose _ n) (setLsC _ n _)
  · exact refl _

theorem lsSwitchOn : OnlyStage s (lsSwitchOn s n) := by
  refine ite (refl s) (ite ?_ ?_)
  · exact ((setStage s _).trans (ite (set _ _ _) (refl _))).trans (tell _ _ _)
  · exact (((setLsC s n _).trans (set _ _ _)).trans (ite (refl _) (lsDrive _ n))).trans (tell _ _ _)

theorem lsEdge (before : Bool) : OnlyStage s (lsEdge s n before) :=
  ite (ite (lsSwitchOn s n) (refl s)) (ite ((setLsC s n _).trans (ite (lsTurnOff _ n) (refl _))) (refl s))

theorem lsFail : OnlyStage s (lsFail s n) := by
  unfold Machine.lsFail
  refine ite ?_ (ite (refl s) (ite ?_ ?_))
  · exact (set s _ _).trans (ite (lsEdge _ n _) (refl _))
  · exact (((set s _ _).trans (set _ _ _)).trans (ite (refl _) (setLsC _ n _))).trans (lsEdge _ n _)
  · exact (set s _ _).trans (lsEdge _ n _)

theorem groupHoldExpiry : OnlyStage s (groupHoldExpiry s n) :=
  (((((set s _ _).trans (foldl (fun k u => lsFail u k) _ _)).trans (setLsG _ _ _)).trans (ite (set _ _ _) (refl _))).trans
    (tell _ _ _)).trans (tell _ _ _)

/-! Dies -/

theorem holdEntry : OnlyStage s (holdEntry s n) := by
  refine ite (refl s) (ite ?_ ?_)
  · refine ((setDie s n _).trans (tell _ _ _)).trans (foldl (fun b u => ?_) _ _)
    exact (((setSdB u b _).trans (set _ _ _)).trans (tell _ _ _)).trans (ite (bankHoldExpiry _ b) (refl _))
  · refine ((setDie s n _).trans (tell _ _ _)).trans (foldl (fun g u => ?_) _ _)
    exact (((setLsG u g _).trans (set _ _ _)).trans (tell _ _ _)).trans (ite (groupHoldExpiry _ g) (refl _))

theorem disown : OnlyStage s (disown s) := (foldl (fun _ u => set u _ _) _ s).trans (foldl (fun _ u => set u _ _) _ _)

end
end OnlyStage

/-! No hold arms an output -/

/-- What is off stays off. -/
structure StaysOff (s t : State) : Prop where
  bank : ∀ k < 12, s.sdArmed k = false → t.sdArmed k = false
  group : ∀ g < 8, s.lsArmed g = false → t.lsArmed g = false

namespace StaysOff

theorem refl (s : State) : StaysOff s s := ⟨fun _ _ => id, fun _ _ => id⟩

section
variable {s t u : State}

theorem trans (h : StaysOff s t) (k : StaysOff t u) : StaysOff s u :=
  ⟨fun b hb => k.bank b hb ∘ h.bank b hb, fun g hg => k.group g hg ∘ h.group g hg⟩

theorem ite {p : Prop} [Decidable p] (h : StaysOff s t) (k : StaysOff s u) : StaysOff s (if p then t else u) := by
  split
  · exact h
  · exact k

theorem foldl {α : Type} {f : State → α → State} {l : List α} (h : ∀ x ∈ l, ∀ u, StaysOff u (f u x)) (s : State) :
    StaysOff s (l.foldl f s) := by
  induction l generalizing s with
  | nil => exact refl s
  | cons x l ih =>
    rw [List.forall_mem_cons] at h
    exact (h.1 s).trans (ih h.2 (f s x))

/-- A control register of a bank or a group. -/
def ArmReg (a : Nat) : Prop := (∃ k < 12, a = R.sdBctrl k) ∨ ∃ g < 8, a = R.lsGctrl g

/-- A step that writes none of them. -/
theorem of_rd (h : ∀ a, ArmReg a → t.rd a = s.rd a) : StaysOff s t :=
  ⟨fun k hk => (flag_of_rd (h _ (.inl ⟨k, hk, rfl⟩))).trans, fun g hg => (flag_of_rd (h _ (.inr ⟨g, hg, rfl⟩))).trans⟩

theorem set (s : State) {f : Fld} (v : Nat) (h : ¬ ArmReg f.addr) : StaysOff s (s.set f v) :=
  of_rd fun a ha => set_rd_ne _ _ _ _ (by rintro rfl; exact h ha)

theorem not_armReg_high {a : Nat} (h : 0x20041000 ≤ a) : ¬ ArmReg a := by
  rintro (⟨k, hk, rfl⟩ | ⟨g, hg, rfl⟩)
  · simp only [R.sdBctrl] at h; omega
  · simp only [R.lsGctrl] at h; omega

theorem not_armReg_channel (n : Nat) {a : Nat} (hlow : R.sdCctrl n ≤ a) (hhigh : a < 0x20040000) : ¬ ArmReg a := by
  rintro (⟨k, hk, rfl⟩ | ⟨g, hg, rfl⟩)
  · simp only [R.sdBctrl, R.sdCctrl] at hlow; omega
  · simp only [R.lsGctrl] at hhigh; omega

theorem not_armReg_sdBstat (b : Nat) : ¬ ArmReg (R.sdBstat b) := by
  rintro (⟨k, hk, h⟩ | ⟨g, hg, h⟩)
  · simp only [R.sdBctrl, R.sdBstat] at h; omega
  · simp only [R.lsGctrl, R.sdBstat] at h; omega

theorem not_armReg_lsGstat (b : Nat) : ¬ ArmReg (R.lsGstat b) := by
  rintro (⟨k, hk, h⟩ | ⟨g, hg, h⟩)
  · simp only [R.sdBctrl, R.lsGstat] at h; omega
  · simp only [R.lsGctrl, R.lsGstat] at h; omega

/-- A channel operation of a bank. -/
theorem channel {b : Nat} (hb : b < 12) (h : ChannelStep b s t) : StaysOff s t := by
  refine of_rd fun a ha => h.rd a (by rintro rfl; exact not_armReg_sdBstat b ha) ?_
  rintro ⟨n, hn, hlow, hhigh⟩
  exact not_armReg_channel n (by omega) (by simp only [R.sdCctrl] at hhigh; omega) ha

end

section
variable (s : State)

theorem sdFail {n : Nat} (hn : n < 48) : StaysOff s (sdFail s n) := by
  have hb : n / 4 < 12 := by omega
  have hset (u : State) (f : Fld) (v : Nat) (hlow : R.sdCctrl n ≤ f.addr) (hhigh : f.addr < R.sdCctrl n + 128) :
      StaysOff u (u.set f v) :=
    set u v (not_armReg_channel n hlow (by simp only [R.sdCctrl] at hhigh; omega))
  have hon (u : State) (v : Nat) : StaysOff u (u.set (R.sdCctrlOn n) v) := hset u _ v (Nat.le_refl _) (by simp)
  have hcur (u : State) (v : Nat) : StaysOff u (u.set (R.sdCcurHold n) v) :=
    hset u _ v (by simp only [R.sdCctrl, R.sdCcur]; omega) (by simp only [R.sdCctrl, R.sdCcur]; omega)
  have hduty (u : State) (v : Nat) : StaysOff u (u.set (R.sdCdutyDuty n) v) :=
    hset u _ v (by simp only [R.sdCctrl, R.sdCduty]; omega) (by simp only [R.sdCctrl, R.sdCduty]; omega)
  have hedge (u : State) (before : Bool) : StaysOff u (sdMirror (sdEdge u n before) n) :=
    channel hb ((ChannelStep.sdEdge u n before).trans (ChannelStep.sdMirror _ n))
  unfold Machine.sdFail
  refine ite (refl s) (ite ?_ (ite (refl s) ?_))
  · exact (hon s 0).trans (channel hb ((ChannelStep.sdTurnOff _ n).trans (ChannelStep.sdMirror _ n)))
  · split
    · exact (hon s _).trans (hedge _ _)
    · exact ((hcur s _).trans (hon _ 1)).trans (hedge _ _)
    · exact (((hduty s _).trans (hon _ 1)).trans (ite (refl _) (channel hb (ChannelStep.setSdC _ n _)))).trans (hedge _ _)

theorem tell (d : Nat) (l : List Report) : StaysOff s (s.tell d l) := ⟨fun _ _ => id, fun _ _ => id⟩
theorem setDie (d : Nat) (x : Die) : StaysOff s (s.setDie d x) := ⟨fun _ _ => id, fun _ _ => id⟩
theorem setSdB (b : Nat) (x : SdBank) : StaysOff s (s.setSdB b x) := ⟨fun _ _ => id, fun _ _ => id⟩
theorem setLsG (g : Nat) (x : LsGroup) : StaysOff s (s.setLsG g x) := ⟨fun _ _ => id, fun _ _ => id⟩

theorem bankHoldExpiry {b : Nat} (hb : b < 12) : StaysOff s (bankHoldExpiry s b) := by
  have hchans (u : State) : StaysOff u ((bankChans b).foldl Machine.sdFail u) :=
    foldl (fun n hn v => sdFail v (by have := div_four_of_mem_bankChans hn; omega)) u
  exact ((((set s 0 (not_armReg_sdBstat b)).trans (hchans _)).trans (setSdB _ _ _)).trans (tell _ _ _)).trans (tell _ _ _)

/-- An operation of switch channels. -/
theorem switches {t : State} (h : SwitchesStep s t) : StaysOff s t := by
  refine of_rd fun a ha => h.rd a ?_
  by_contra hhigh
  exact not_armReg_high (by omega) ha

theorem groupHoldExpiry {g : Nat} (hg : g < 8) : StaysOff s (groupHoldExpiry s g) := by
  have harm (u : State) : StaysOff u (u.set (R.lsGctrlArm g) 0) := by
    refine ⟨fun k hk => (set_flag_ne _ _ _ _ (by simp) (.inl ?_)).trans, fun k hk harmed => ?_⟩
    · simp only [R.sdBctrl, R.lsGctrl]; omega
    · by_cases hkg : k = g
      · rw [hkg, lsArmed, set_flag _ _ _ (by simp) rfl]
        rfl
      · exact (set_flag_ne _ _ _ _ (by simp) (.inl (by simp only [R.lsGctrl]; omega))).trans harmed
  exact (((((set s 0 (not_armReg_lsGstat g)).trans (switches _ (.foldl _ _ fun n u => .lsFail u n))).trans
    (setLsG _ _ _)).trans (ite (harm _) (refl _))).trans (tell _ _ _)).trans (tell _ _ _)

theorem holdEntry {d : Nat} (hd : d < 5) : StaysOff s (holdEntry s d) := by
  unfold Machine.holdEntry
  refine ite (refl s) ?_
  split
  case isTrue h3 =>
    refine ((setDie s d _).trans (tell _ _ _)).trans (foldl (fun b hb u => ?_) _)
    have hbank : b < 12 := by
      simp only [List.mem_cons, List.not_mem_nil, or_false] at hb
      omega
    exact (((setSdB u b _).trans (set _ _ (not_armReg_sdBstat b))).trans (tell _ _ _)).trans
      (ite (bankHoldExpiry _ hbank) (refl _))
  case isFalse h3 =>
    refine ((setDie s d _).trans (tell _ _ _)).trans (foldl (fun g hg u => ?_) _)
    have hgroup : g < 8 := by
      have := div_four_of_mem_bankChans hg
      omega
    exact (((setLsG u g _).trans (set _ _ (not_armReg_lsGstat g))).trans (tell _ _ _)).trans
      (ite (groupHoldExpiry _ hgroup) (refl _))

theorem disown : StaysOff s (disown s) := by
  refine (foldl (fun n hn u => set u 0 ?_) s).trans (foldl (fun n _ u => set u 0 (not_armReg_high ?_)) _)
  · rw [List.mem_range] at hn
    exact not_armReg_channel n (by simp only [R.sdCctrl, R.sdCstat]; omega) (by simp only [R.sdCstat]; omega)
  · simp only [R.lsCstat]; omega

end
end StaysOff
end Sys2Proof.Machine

/-! The thermal shutdown acts: every output is disarmed and the main die is held (20_keeper_events_thermal.md R458). -/
namespace Sys2Proof.Machine
open State

/-- What a held main die's reset and its entry into OFF leave: memory, the clock, the pending shutdown, the writes that wait for
a clock, the panel, and the outputs that are off. -/
structure Calm (s t : State) : Prop where
  mem : t.mem = s.mem
  now : t.now = s.now
  shutAt : t.th.shutAt = s.th.shutAt
  gated : t.clk.gated = s.clk.gated
  panel : t.panel = s.panel
  off : StaysOff s t

namespace Calm

theorem refl (s : State) : Calm s s := ⟨rfl, rfl, rfl, rfl, rfl, .refl s⟩

section
variable {s t u : State}

theorem trans (h : Calm s t) (k : Calm t u) : Calm s u :=
  ⟨k.mem.trans h.mem, k.now.trans h.now, k.shutAt.trans h.shutAt, k.gated.trans h.gated,
    k.panel.trans h.panel, h.off.trans k.off⟩

theorem ite {p : Prop} [Decidable p] (h : Calm s t) (k : Calm s u) : Calm s (if p then t else u) := by
  split
  · exact h
  · exact k

theorem foldl {α : Type} {f : State → α → State} (h : ∀ x u, Calm u (f u x)) (l : List α) (s : State) :
    Calm s (l.foldl f s) := by
  induction l generalizing s with
  | nil => exact refl s
  | cons x l ih => exact (h x s).trans (ih (f s x))

theorem of_stage (h : OnlyStage s t) (hoff : StaysOff s t) : Calm s t :=
  ⟨h.keeps (·.mem) fun _ _ _ => rfl, h.keeps (·.now) fun _ _ _ => rfl, h.keeps (·.th.shutAt) fun _ _ _ => rfl,
    h.keeps (·.clk.gated) fun _ _ _ => rfl, h.keeps (·.panel) fun _ _ _ => rfl, hoff⟩

end

section
variable (s : State)

/-- A register outside the stage. -/
theorem wr {a : Nat} (v : Word) (h3 : a / 65536 ≠ 0x2003) (h4 : a / 65536 ≠ 0x2004) : Calm s (s.wr a v) := by
  refine ⟨rfl, rfl, rfl, rfl, rfl, .of_rd fun b hb => wr_rd_ne _ _ _ _ ?_⟩
  rintro rfl
  rcases hb with ⟨k, hk, rfl⟩ | ⟨g, hg, rfl⟩
  · simp only [R.sdBctrl] at h3; omega
  · simp only [R.lsGctrl] at h4; omega

theorem set {f : Fld} (v : Nat) (h3 : f.addr / 65536 ≠ 0x2003) (h4 : f.addr / 65536 ≠ 0x2004) :
    Calm s (s.set f v) := wr s _ h3 h4

theorem log (code : Nat) (data : List Byte) : Calm s (s.log code data) := by
  refine ⟨log_mem .., log_now .., by rw [log_th], by rw [log_clk], log_panel .., .of_rd fun a ha => log_rd_ne s code data ?_ ?_⟩
  · rcases ha with ⟨k, hk, rfl⟩ | ⟨g, hg, rfl⟩
    · simp only [R.sdBctrl]; omega
    · simp only [R.lsGctrl]; omega
  · rcases ha with ⟨k, hk, rfl⟩ | ⟨g, hg, rfl⟩
    · simp only [R.sdBctrl]; omega
    · simp only [R.lsGctrl]; omega

theorem setClk (x : Clocks) (h : x.gated = s.clk.gated) : Calm s (s.setClk x) :=
  ⟨rfl, rfl, rfl, h, rfl, ⟨fun _ _ => id, fun _ _ => id⟩⟩
theorem setTime (x : TimeSt) : Calm s { s with time := x } := ⟨rfl, rfl, rfl, rfl, rfl, ⟨fun _ _ => id, fun _ _ => id⟩⟩
theorem setPs (x : PowerState) : Calm s (setPs s x) := ⟨rfl, rfl, rfl, rfl, rfl, ⟨fun _ _ => id, fun _ _ => id⟩⟩
theorem setEv (x : EventRec) : Calm s (s.setEv x) := ⟨rfl, rfl, rfl, rfl, rfl, ⟨fun _ _ => id, fun _ _ => id⟩⟩
theorem setUpd (x : Update) : Calm s (s.setUpd x) := ⟨rfl, rfl, rfl, rfl, rfl, ⟨fun _ _ => id, fun _ _ => id⟩⟩
theorem setCe (x : Engine) : Calm s { s with ce := x } := ⟨rfl, rfl, rfl, rfl, rfl, ⟨fun _ _ => id, fun _ _ => id⟩⟩
theorem fresh : Calm s s.fresh := ⟨rfl, rfl, rfl, rfl, rfl, ⟨fun _ _ => id, fun _ _ => id⟩⟩

/-! Clocks -/

theorem pllFallback (p : Nat) : Calm s (pllFallback s p) :=
  ite (refl s) ((setClk s _ (by rfl)).trans (ite (set _ (f := R.ckStatSysAlt) _ (by decide) (by decide)) (refl _)))

theorem sysReference (r : Nat) : Calm s (sysReference s r) :=
  ((setTime s _).trans (setClk _ _ (by rfl))).trans (ite (refl _) (pllFallback _ _))

theorem lockShow : Calm s (lockShow s) := (set s _ (by decide) (by decide)).trans (set _ _ (by decide) (by decide))

theorem clocksReset : Calm s (clocksReset s false false) :=
  ((set s _ (by decide) (by decide)).trans (ite (sysReference _ _) (refl _))).trans (lockShow _)

theorem opStart (k : Nat) (hk : k < 2) : Calm s (opStart s k) :=
  ite (refl s) ((setClk s _ (by rfl)).trans (set _ (f := R.ckClopBusy k) _
    (by simp only [R.ckClop]; omega) (by simp only [R.ckClop]; omega)))

theorem opCeiling (k c : Nat) (hk : k < 2) : Calm s (opCeiling s k c) :=
  ite (refl s) (((set s (f := R.ckClopCeil k) _ (by simp only [R.ckClop]; omega)
    (by simp only [R.ckClop]; omega)).trans (log _ _ _)).trans (opStart _ k hk))

theorem setCeilings : Calm s (setCeilings s) := (opCeiling s 0 _ (by decide)).trans (opCeiling _ 1 _ (by decide))

/-! The reset -/

theorem intakeCut : Calm s (intakeCut s) := by
  have hone (u : State) (t : Nat) (ht : t ∈ [1, 2, 3]) (v : Word) : Calm u (u.wr (R.upTreceived (t - 1)) v) := by
    simp only [List.mem_cons, List.not_mem_nil, or_false] at ht
    exact wr u v (by simp only [R.upTreceived]; omega) (by simp only [R.upTreceived]; omega)
  have hall (l : List Nat) (hl : ∀ t ∈ l, t ∈ [1, 2, 3]) : ∀ u : State, Calm u (l.foldl (fun (u : State) t =>
      (u.setImg t { u.img t with bytes := verifiedPart (u.img t) }).wr (R.upTreceived (t - 1))
        (BitVec.ofNat 32 ((verifiedPart (u.img t)).length / 65536))) u) := by
    induction l with
    | nil => exact refl
    | cons t l ih =>
      rw [List.forall_mem_cons] at hl
      exact fun u => ((setUpd u _).trans (hone _ t hl.1 _)).trans (ih hl.2 _)
  exact hall _ (fun t ht => List.mem_of_mem_filter ht) s

theorem stagesHold : Calm s (stagesHold s) := by
  have hdies (l : List Nat) (hl : ∀ d ∈ l, d < 5) : ∀ u : State, Calm u (l.foldl Machine.holdEntry u) := by
    induction l with
    | nil => exact refl
    | cons d l ih =>
      rw [List.forall_mem_cons] at hl
      exact fun u => (of_stage (.holdEntry u d) (.holdEntry u hl.1)).trans (ih hl.2 _)
  exact (((of_stage (.disown s) (.disown s)).trans (hdies _ (fun _ => List.mem_range.1) _)).trans
    (set _ 1 (by decide) (by decide))).trans (setCe _ _)

theorem resetRecord (c : Cause) (time : Time) (tq stages : Nat) : Calm s (resetRecord s c time tq stages) :=
  (fresh s).trans (setPs _ _)

end
end Calm

/-! The reset of a held main die -/
section
variable (s : State)

/-- The shutdown resets the main die as its watchdog does. -/
def heldCause : Cause := { kinds := 8 }

/-- The recorder shows its records, and an open debug session ends. -/
def debugEnded (s : State) (debug : Nat) : State :=
  let s := (s.set R.evSeqSeq s.ev.seq).set R.evOldestOldest (oldestRecord s)
  if debug = 0 then s else (s.set ⟨R.secDbg, 0, 3⟩ 0).log 0x1604 (leBytes 1 4)

/-- What the held main die starts from. -/
def heldSurvivors (s : State) : State := survivors (opResume s) heldCause

theorem assertMain_held : ∃ debug time tq, assertMain s heldCause =
    resetRecord (stagesHold (debugEnded (clocksReset (intakeCut (heldSurvivors s)) false false) debug)) heldCause time tq 1 := by
  have h0 : heldCause.has 0 = false := rfl
  have h1 : heldCause.has 1 = false := rfl
  have h2 : heldCause.has 2 = false := rfl
  have h8 : heldCause.has 8 = false := rfl
  have hclears : heldCause.clears = false := rfl
  unfold assertMain
  simp only [h0, h1, h2, h8, hclears, Bool.false_eq_true, or_self, if_false, Bool.or_self]
  exact ⟨_, _, _, rfl⟩

theorem Calm.debugEnded (debug : Nat) : Calm s (debugEnded s debug) :=
  ((set s _ (by decide) (by decide)).trans (set _ _ (by decide) (by decide))).trans
    (ite (refl _) ((set _ _ (by decide) (by decide)).trans (log _ _ _)))

theorem Calm.assertMain : Calm (heldSurvivors s) (assertMain s heldCause) := by
  obtain ⟨debug, time, tq, h⟩ := assertMain_held s
  rw [h]
  exact ((((intakeCut _).trans (clocksReset _)).trans (debugEnded _ debug)).trans (stagesHold _)).trans (resetRecord _ _ _ _ _)

theorem opResume_eq : ∃ x, opResume s = s.setEv x := by
  unfold opResume
  split
  · exact ⟨_, rfl⟩
  · exact ⟨s.ev, rfl⟩

theorem heldSurvivors_mem : (heldSurvivors s).mem = s.mem := by
  obtain ⟨x, hx⟩ := opResume_eq s
  rw [heldSurvivors, hx]
  refine List.filter_eq_self.2 fun e _ => ?_
  unfold keptByte
  split <;> rfl

theorem heldSurvivors_now : (heldSurvivors s).now = s.now := by
  obtain ⟨x, hx⟩ := opResume_eq s
  rw [heldSurvivors, hx]
  rfl

theorem heldSurvivors_shutAt : (heldSurvivors s).th.shutAt = s.th.shutAt := by
  obtain ⟨x, hx⟩ := opResume_eq s
  rw [heldSurvivors, hx]
  rfl

theorem heldSurvivors_gated : (heldSurvivors s).clk.gated = [] := by
  obtain ⟨x, hx⟩ := opResume_eq s
  rw [heldSurvivors, hx]
  rfl

theorem heldSurvivors_panel : (heldSurvivors s).panel.flight = [] ∧ (heldSurvivors s).panel.queue = [] := by
  obtain ⟨x, hx⟩ := opResume_eq s
  rw [heldSurvivors, hx]
  exact ⟨rfl, rfl⟩

theorem heldSurvivors_rd {a : Nat} (h : keptReg heldCause a = true) : (heldSurvivors s).rd a = s.rd a := by
  obtain ⟨x, hx⟩ := opResume_eq s
  rw [heldSurvivors, hx]
  exact (Tbl.get_filter s.regs (regReset a) (keptReg heldCause) a).trans (if_pos h)

theorem keptReg_sdBctrl {k : Nat} (hk : k < 12) : keptReg heldCause (R.sdBctrl k) = true := by
  have h : ∀ k < 12, keptReg heldCause (R.sdBctrl k) = true := by decide
  exact h k hk

theorem keptReg_lsGctrl {g : Nat} (hg : g < 8) : keptReg heldCause (R.lsGctrl g) = true := by
  have h : ∀ g < 8, keptReg heldCause (R.lsGctrl g) = true := by decide
  exact h g hg

theorem StaysOff.heldSurvivors : StaysOff s (heldSurvivors s) := by
  refine .of_rd fun a ha => heldSurvivors_rd s ?_
  rcases ha with ⟨k, hk, rfl⟩ | ⟨g, hg, rfl⟩
  · exact keptReg_sdBctrl hk
  · exact keptReg_lsGctrl hg

end

/-! The panel and the power state -/
section
variable (s : State)

theorem panelHalt_eq : ∃ p r, panelHalt s = { s with panel := p, regs := r } ∧ StaysOff s (panelHalt s) := by
  refine ⟨_, _, rfl, ?_⟩
  have hnot {a : Nat} (h : a / 65536 = 0x200E) : ¬ StaysOff.ArmReg a := by
    rintro (⟨k, hk, rfl⟩ | ⟨g, hg, rfl⟩)
    · simp only [R.sdBctrl] at h; omega
    · simp only [R.lsGctrl] at h; omega
  have hpanel (u : State) (p : Panel) : StaysOff u (u.setPanel p) := ⟨fun _ _ => id, fun _ _ => id⟩
  exact ((((hpanel s _).trans (.set _ 0 (hnot (by decide)))).trans (.set _ _ (hnot (by decide)))).trans
    (.set _ _ (hnot (by decide)))).trans (.set _ _ (hnot (by decide)))

theorem panelWake_of_idle (hflight : s.panel.flight = []) (hqueue : s.panel.queue = []) : panelWake s = s := by
  unfold panelWake
  split
  · rfl
  · rw [hflight, hqueue]
    rfl

/-- With no write that waits and no panel work nothing is released. -/
theorem gateRelease_of_idle (hgated : s.clk.gated = []) (hflight : s.panel.flight = []) (hqueue : s.panel.queue = []) :
    gateRelease s = s := by
  have hsame : ({ s with clk := { s.clk with gated := [] } } : State) = s := by rw [← hgated]
  rw [gateRelease, hgated, List.foldl_nil, hsame, panelWake_of_idle s hflight hqueue]

theorem opStart_ps (k : Nat) : (opStart s k).ps = s.ps := by
  unfold opStart
  dsimp only
  split
  · rfl
  · rw [set_ps]
    rfl

theorem opCeiling_ps (k c : Nat) : (opCeiling s k c).ps = s.ps := by
  unfold opCeiling
  split
  · rfl
  · rw [opStart_ps, log_ps, set_ps]

theorem setCeilings_ps : (setCeilings s).ps = s.ps := (opCeiling_ps _ 1 _).trans (opCeiling_ps s 0 _)

/-- An idle module changes its state. -/
theorem setMode_of_idle (m : Nat) (hgated : s.clk.gated = []) (hflight : s.panel.flight = []) (hqueue : s.panel.queue = []) :
    Calm s (setMode s m) ∧ (setMode s m).ps.mode = m := by
  unfold setMode
  split
  case isTrue h => exact ⟨.refl s, h⟩
  case isFalse =>
    obtain ⟨u, hu⟩ : ∃ u, setCeilings ((setPs s { s.ps with mode := m }).log 0x0202
        [BitVec.ofNat 8 s.ps.mode, BitVec.ofNat 8 m]) = u := ⟨_, rfl⟩
    have hcalm : Calm s u := hu ▸ ((Calm.setPs s _).trans (.log _ _ _)).trans (.setCeilings _)
    rw [hu, gateRelease_of_idle u (hcalm.gated.trans hgated) (by rw [hcalm.panel, hflight]) (by rw [hcalm.panel, hqueue])]
    refine ⟨hcalm, ?_⟩
    rw [← hu, setCeilings_ps, log_ps]
    rfl

end

/-! The pilot area -/
section
variable (s : State)

theorem log_kpMain (code : Nat) (data : List Byte) : (s.log code data).kp.main = s.kp.main := by
  unfold State.log State.intake
  split
  · split
    · rfl
    · split
      · rw [fire_kp, set_kp, count_kp]
      · rw [fire_kp, set_kp, count_kp]
  · rfl

/-- The panel and what it is sent alone change. -/
def OnlyPanel (s t : State) : Prop := ∃ p o, t = { s with panel := p, out := o }

theorem OnlyPanel.trans {s t u : State} (h : OnlyPanel s t) (k : OnlyPanel t u) : OnlyPanel s u := by
  obtain ⟨p, o, rfl⟩ := h
  obtain ⟨p', o', rfl⟩ := k
  exact ⟨p', o', rfl⟩

theorem OnlyPanel.refl : OnlyPanel s s := ⟨s.panel, s.out, rfl⟩

theorem OnlyPanel.setPanel (p : Panel) : OnlyPanel s (s.setPanel p) := ⟨p, s.out, rfl⟩

theorem OnlyPanel.foldl {f : State → Nat → State} (h : ∀ x u, OnlyPanel u (f u x)) (l : List Nat) (s : State) :
    OnlyPanel s (l.foldl f s) := by
  induction l generalizing s with
  | nil => exact refl s
  | cons x l ih => exact (h x s).trans (ih (f s x))

theorem OnlyPanel.emit (o : Out) : OnlyPanel s (s.emit o) := ⟨s.panel, _, rfl⟩

/-- The journal entry of the pilot area, where one is free. -/
def journalMark (s : State) (entry : Option Nat) (e : PanelEntry) : State :=
  match entry with | some k => journalSet s k e | none => s

theorem OnlyPanel.journalMark (entry : Option Nat) (e : PanelEntry) : OnlyPanel s (journalMark s entry e) := by
  cases entry with
  | none => exact refl s
  | some k => exact setPanel s _

/-- The pilot area is rendered and driven. -/
def pilotDrawn (s : State) : State :=
  let r := pilotRect s
  let entry := journalFree s
  let s := journalMark s entry { rect := r, active := true }
  let s := (List.range r.h).foldl (pilotRow (pilotText s)) s
  let d := panelDrive s (panelTemp s)
  let s := r.rows.foldl (fun u y => u.emit (rowDrive u y (4 * d.1) d.2)) s
  journalMark s entry { rect := r, rowsDone := r.h, active := false }

theorem OnlyPanel.pilotDrawn : OnlyPanel s (pilotDrawn s) :=
  (((journalMark s _ _).trans (foldl (fun _ u => setPanel u _) _ _)).trans (foldl (fun _ u => emit u _) _ _)).trans
    (journalMark _ _ _)

/-- The pilot area is written, or there is none. -/
theorem pilotWrite_eq (cause : Nat) :
    pilotWrite s cause = s ∨ pilotWrite s cause = (pilotDrawn s).log 0x1506 (leBytes 1 cause) := by
  have heq : pilotWrite s cause = if s.get R.dpPsizePmode = 0 ∨ (pilotRect s).w = 0 ∨ (pilotRect s).h = 0 then s
      else (pilotDrawn s).log 0x1506 (leBytes 1 cause) := rfl
  rw [heq]
  exact ite_eq_or_eq _ _ _

/-- What the pilot area's writing leaves. -/
theorem pilotWrite_keeps {β : Type} (cause : Nat) (p : State → β) (hpanel : ∀ u x o, p { u with panel := x, out := o } = p u)
    (hlog : ∀ u : State, p (u.log 0x1506 (leBytes 1 cause)) = p u) : p (pilotWrite s cause) = p s := by
  obtain ⟨x, o, hdrawn⟩ := OnlyPanel.pilotDrawn s
  rcases pilotWrite_eq s cause with h | h
  · rw [h]
  · rw [h, hlog, hdrawn, hpanel]

theorem StaysOff.pilotWrite (cause : Nat) : StaysOff s (pilotWrite s cause) := by
  obtain ⟨x, o, hdrawn⟩ := OnlyPanel.pilotDrawn s
  rcases pilotWrite_eq s cause with h | h
  · rw [h]
    exact refl s
  · rw [h, hdrawn]
    exact (⟨fun _ _ => id, fun _ _ => id⟩ : StaysOff s { s with panel := x, out := o }).trans (Calm.log _ _ _).off

end
end Sys2Proof.Machine

/-! The thermal shutdown, and the obligation on events and temperatures (20_keeper_events_thermal.md R443 to R459). -/
namespace Sys2Proof.Machine
open State

/-! The shutdown -/
section
variable (s : State) {t0 : Nat}

/-- Every output is disarmed, and no shutdown is due any more. -/
def outputsOff (s : State) (t0 : Nat) : State :=
  let s := disarmAll (s.passTo (max t0 s.kp.restart))
  s.setTh { s.th with shutAt := none }

/-- The power state, the processors and the watchdogs of a main die that is held, with the reset record as it was. -/
def heldShown (s : State) (record : List Byte) : State :=
  let s := setPs s { s.ps with record := record }
  let s : State := { s with procs := { s.procs with outOfReset := 4096 } }
  s.setKp { s.kp with main := {}, rt := [] }

/-- The main die is held. -/
def mainHeld (s : State) : State := heldShown (setMode (assertMain (panelHalt s) heldCause) 6) s.ps.record

/-- The shutdown's steps, each state generalised as soon as it has its name. -/
theorem exec_thermalShutdownAct (hdue : s.th.shutAt = some t0) :
    exec .thermalShutdownAct s = .next (pilotWrite (mainHeld (outputsOff s t0)) 2) := by
  have harm : exec .thermalShutdownAct s = execThermalShutdownAct s := rfl
  rw [harm, execThermalShutdownAct, hdue]
  dsimp -zeta only
  extract_lets disarmed th off record held ps recorded procs shown kp
  have hoff : outputsOff s t0 = off := rfl
  clear_value off
  have hheld : setMode (assertMain (panelHalt off) heldCause) 6 = held := rfl
  have hrecord : off.ps.record = record := rfl
  clear_value held record
  rw [hoff, mainHeld, hheld, hrecord]
  rfl

theorem exec_thermalShutdownAct_of_none (hnone : s.th.shutAt = none) : exec .thermalShutdownAct s = .next s := by
  have harm : exec .thermalShutdownAct s = execThermalShutdownAct s := rfl
  rw [harm, execThermalShutdownAct, hnone]

/-- What the main die's hold leaves and shows. -/
structure MainHeld (s t : State) : Prop where
  mem : t.mem = s.mem
  now : t.now = s.now
  shutAt : t.th.shutAt = s.th.shutAt
  mode : t.ps.mode = 6
  record : t.ps.record = s.ps.record
  outOfReset : t.procs.outOfReset = 4096
  watchdog : t.kp.main.till = none
  off : StaysOff s t

theorem mainHeld_holds : MainHeld s (mainHeld s) := by
  obtain ⟨u, hu⟩ : ∃ u, panelHalt s = u := ⟨_, rfl⟩
  obtain ⟨v, hv⟩ : ∃ v, assertMain u heldCause = v := ⟨_, rfl⟩
  obtain ⟨w, hw⟩ : ∃ w, setMode v 6 = w := ⟨_, rfl⟩
  obtain ⟨p, r, hpanel, hoff⟩ := panelHalt_eq s
  rw [hu] at hpanel hoff
  have hreset := Calm.assertMain u
  rw [hv] at hreset
  obtain ⟨hflight, hqueue⟩ := heldSurvivors_panel u
  obtain ⟨hmode, hsix⟩ := setMode_of_idle v 6 (hreset.gated.trans (heldSurvivors_gated u)) (by rw [hreset.panel, hflight])
    (by rw [hreset.panel, hqueue])
  rw [hw] at hmode hsix
  have hcalm := hreset.trans hmode
  have hlast : StaysOff w (heldShown w s.ps.record) := ⟨fun _ _ => id, fun _ _ => id⟩
  rw [mainHeld, hu, hv, hw]
  exact ⟨hcalm.mem.trans ((heldSurvivors_mem u).trans (by rw [hpanel])),
    hcalm.now.trans ((heldSurvivors_now u).trans (by rw [hpanel])),
    hcalm.shutAt.trans ((heldSurvivors_shutAt u).trans (by rw [hpanel])),
    hsix, rfl, rfl, rfl, ((hoff.trans (.heldSurvivors u)).trans hcalm.off).trans hlast⟩

/-- The shutdown acts (R458). -/
theorem thermalShutdown_acts (hdue : s.th.shutAt = some t0) (hdefer : ∀ k, k < 12 → s.flag (R.sdBstatDefer k) = false) :
    ∃ t, exec .thermalShutdownAct s = .next t ∧ t.ps.mode = 6 ∧ t.th.shutAt = none ∧ t.now = max s.now (max t0 s.kp.restart) ∧
      (∀ k, k < 12 → t.sdArmed k = false) ∧ (∀ g, g < 8 → t.lsArmed g = false) ∧ t.procs.outOfReset = 4096 ∧
      t.ps.record = s.ps.record ∧ t.kp.main.till = none ∧ t.pending = s.pending ∧ SameMemory s t := by
  obtain ⟨p, hp⟩ : ∃ p, s.passTo (max t0 s.kp.restart) = p := ⟨_, rfl⟩
  obtain ⟨u, hu⟩ : ∃ u, outputsOff s t0 = u := ⟨_, rfl⟩
  obtain ⟨v, hv⟩ : ∃ v, mainHeld u = v := ⟨_, rfl⟩
  have hexec := exec_thermalShutdownAct s hdue
  rw [hu, hv] at hexec
  have hdisarms := Disarms.disarmAll p
  have houtputs : u = (disarmAll p).setTh { (disarmAll p).th with shutAt := none } := by
    rw [← hu, outputsOff, hp]
  have hheld := mainHeld_holds u
  rw [hv] at hheld
  have hpilot := StaysOff.pilotWrite v 2
  have hdeferp (k : Nat) (hk : k < 12) : p.flag (R.sdBstatDefer k) = false := by rw [← hp, passTo_flag, hdefer k hk]
  have hbank (k : Nat) (hk : k < 12) : u.sdArmed k = false := by
    rw [houtputs]
    exact Disarms.disarmAll_sdArmed p hdeferp hk
  have hgroup (g : Nat) (hg : g < 8) : u.lsArmed g = false := by
    rw [houtputs]
    exact Disarms.disarmAll_lsArmed p hg
  have hmem : u.mem = s.mem := by
    rw [houtputs, setTh_mem, hdisarms.only.keeps (·.mem) fun _ _ _ => rfl, ← hp, passTo_mem]
  have hnow : u.now = max s.now (max t0 s.kp.restart) := by
    rw [houtputs, setTh_now, hdisarms.only.keeps (·.now) fun _ _ _ => rfl, ← hp, passTo_now]
  have hps : u.ps = s.ps := by
    rw [houtputs]
    exact (hdisarms.only.keeps (·.ps) fun _ _ _ => rfl).trans (by rw [← hp, passTo_ps])
  refine ⟨_, hexec, ?_, ?_, ?_, fun k hk => hpilot.bank k hk (hheld.off.bank k hk (hbank k hk)),
    fun g hg => hpilot.group g hg (hheld.off.group g hg (hgroup g hg)), ?_, ?_, ?_, ?_, fun a => ?_⟩
  · rw [pilotWrite_keeps v 2 (·.ps) (fun _ _ _ => rfl) fun _ => log_ps .., hheld.mode]
  · rw [pilotWrite_keeps v 2 (·.th) (fun _ _ _ => rfl) fun _ => log_th .., hheld.shutAt, houtputs, setTh_th]
  · rw [pilotWrite_keeps v 2 (·.now) (fun _ _ _ => rfl) fun _ => log_now .., hheld.now, hnow]
  · rw [pilotWrite_keeps v 2 (·.procs) (fun _ _ _ => rfl) fun _ => log_procs .., hheld.outOfReset]
  · rw [pilotWrite_keeps v 2 (·.ps) (fun _ _ _ => rfl) fun _ => log_ps .., hheld.record, hps]
  · rw [pilotWrite_keeps v 2 (·.kp.main) (fun _ _ _ => rfl) fun _ => log_kpMain .., hheld.watchdog]
  · have hkept := execThermalShutdownAct_queueKept s
    have harm : exec .thermalShutdownAct s = execThermalShutdownAct s := rfl
    rw [← harm, hexec, queueKept_next] at hkept
    exact hkept
  · rw [pilotWrite_keeps v 2 (·.mem) (fun _ _ _ => rfl) fun _ => log_mem .., hheld.mem, hmem]

end

/-- Settles O57: a post enters the queue, is dropped or refused; the oldest event becomes a record or a repeat; 127 records are
spilled at a time; a reading shows, stores and acts on its level; and the shutdown disarms every output before the main die's
reset, which arms none. -/
theorem eventsAndTemperaturesAreHandled : Obligations.EventsAndTemperaturesAreHandled := by
  intro s code sev z k a b ra rb e rest t0
  refine ⟨eventPost_enters, eventPost_dropped, eventPost_refused, eventWrite_records, eventWrite_repeats,
    fun h => eventSpill_of_stopped (.inl h), ?_, eventSpill_spills, ?_, ?_, ?_, ?_, ?_, ?_, ?_, exec_damperStep2_of_other s,
    thermalShutdown_acts s, exec_thermalShutdownAct_of_none s, fun h => eventSpill_of_stopped (.inr h), ?_,
    exec_eventPost s code sev, exec_eventRecordWrite s, fun hz => exec_thermalReading hz a b ra rb, damperStep2_waits s⟩
  · intro hwarning hgate hfew
    rw [exec_eventSpill_of_running hwarning hgate, if_pos hfew]
  · intro hz hth halow hahigh hblow hbhigh hpair hfirst hsecond hlatch _ hror
    exact dieReading_cool hz hth halow hahigh hblow hbhigh hpair hfirst hsecond hlatch hror
  · exact stageReading_warm
  · rintro hz hth hlow hhigh rfl
    exact dieReading_throttled hz hth hlow hhigh
  · exact housingReading_off
  · exact bankZoneReading_off
  · exact fun hz => exec_thermalReading_of_none hz a b ra rb
  · exact damperStep2_steps s
  · exact eventWrite_afterRestart

end Sys2Proof.Machine
